-- ==== Sys2Proof/Word.lean ====
section
/-! DEFINITION. The plain word types of the block (R18, R19, R23) and nothing that a repair could have to mend. -/

namespace Sys2Proof

/-- One byte of a structure or of memory. -/
abbrev Byte := BitVec 8

/-- A register word (R23). -/
abbrev Word := BitVec 32

/-- A double word: a register pair, a timebase value held in a structure, a sequence number. -/
abbrev DWord := BitVec 64

/-- A pool address (R4: 48 bits). -/
abbrev Addr := BitVec 48

/-- A fabric endpoint identifier (R234). -/
abbrev Eid := BitVec 16

/-- A string of bytes, byte 0 first (R19). -/
abbrev Bytes := List Byte

end Sys2Proof
end

