-- ==== Sys2Proof/Syntax.lean ====
section
/-! DEFINITION. The commands of the pool controller, one constructor per row of spec/opcode_table.json, with the operands
that reach the package from outside (a message, a register value, a reading, what a host memory read returned). -/

namespace Sys2Proof

/-- A quadrant die, home agent, Thresher or router (R27). -/
abbrev Quad := Fin 4
/-- A Tiller (R27). -/
abbrev TillerIx := Fin 24
/-- A Husk channel (R27). -/
abbrev HuskCh := Fin 24
/-- A Grain bonded channel (R27). -/
abbrev GrainCh := Fin 128
/-- A Narmor port (R27). -/
abbrev PortIx := Fin 48
/-- A PCIe function: 0 is PF0, f is VF f (R307). -/
abbrev Func := Fin 64
/-- A host mover (R27). -/
abbrev MoverIx := Fin 8
/-- A die: 0 to 3 the quadrants, 4 the hub (R27). -/
abbrev Die := Fin 5
/-- A resident Sheaf slot (R201). -/
abbrev SlotIx := Fin 256
/-- A lane of a stored codeword (R336). -/
abbrev LaneIx := Fin 20

/-- The two tiers of the pool (R76 to R88). -/
inductive Tier | husk | grain
  deriving DecidableEq, Repr

/-- What starts a cold reset (R406). -/
inductive ColdCause | powerUp | resetN
  deriving DecidableEq, Repr

/-- What starts a warm reset (R406). -/
inductive WarmCause | pin | command
  deriving DecidableEq, Repr

/-- What starts a host-port reset (R406). -/
inductive HostPortCause | perst | hotReset | linkDisable | linkDown
  deriving DecidableEq, Repr

/-- One DIMM as its SPD describes it (R80, R226, R301); times in clocks at the device speed. -/
structure Dimm where
  gib : Nat
  registered : Bool
  maxMts : Nat
  trcd : Nat
  tcl : Nat
  trc : Nat
  deriving DecidableEq, Repr

/-- What a hub read of host memory gave: the bytes (with the TLP's EP bit), a failed page request, or a UR or CA
completion (R324, R331); pending: the read is sent, and its completions have not all come yet. -/
inductive HostResult
  | data (bytes : Bytes) (ep : Bool)
  | fault
  | hostErr
  | pending
  deriving DecidableEq, Repr

/-- What the host sets in a function's configuration space (R307, R308, R334): Bus Master Enable, its memory space, D3hot in place of D0, and the
codes of Max_Payload_Size (128 B × 2^mps) and Max_Read_Request_Size (128 B × 2^mrrs); and the bits of the AER uncorrectable error status
that the write clears. -/
structure FuncCfg where
  busMaster : Bool
  memory : Bool := true
  d3hot : Bool := false
  mps : Fin 3 := 0
  mrrs : Fin 6 := 2
  aerClear : Word := 0
  deriving DecidableEq, Repr

/-- A command in progress: its function and the SEQ of its record (R315). -/
structure CmdId where
  f : Func
  seq : DWord
  deriving DecidableEq, Repr

/-- A submission record's bytes 0x00 to 0x77 (R314); the SEQ word is the command's own operand. -/
structure Record where
  bytes : Bytes
  deriving DecidableEq, Repr

/-- A request message of a fabric source as it is complete at its target (R237, R239, R252): its source, MSG_ID and
TRACE_ID, and whether a reserved ARG or payload bit is set (R243). -/
structure Req where
  src : Eid
  msgId : BitVec 16
  traceId : BitVec 16
  reservedSet : Bool
  deriving DecidableEq, Repr

/-- One line of a bulk or mirror write: 128 bytes and its poison flag (R239). -/
structure LineIn where
  bytes : Bytes
  poison : Bool
  deriving DecidableEq, Repr

/-- A packet: the 256-bit header of R237 and its payload. -/
structure Packet where
  hdr : BitVec 256
  payload : Bytes
  deriving DecidableEq, Repr

/-- A worm head at an input of a router (R248): the worm whose HEAD flit an external port has accepted, or a worm that a die-to-die
link or the hub link brings. -/
inductive RouterIn | ext (p : Fin 12) | d2d (src : Quad) (pkt : Packet) | hub (pkt : Packet)
  deriving DecidableEq, Repr

/-- A block that takes the changes of a commit phase at its own quiesce point (R68, R310). -/
inductive Block
  | home (q : Quad) | router (q : Quad) | buckets | gate (target : Nat) | thresher (q : Quad) | tiller (k : TillerIx)
  | husk (c : HuskCh) | grain (q : Quad) | hub
  deriving DecidableEq, Repr

/-- What a revocation names: an extent, or one host's grant to it (R96). -/
inductive RevokeKey | extent (i : Nat) | grant (i : Nat) (eid : Eid)
  deriving DecidableEq, Repr

/-- What patrol scrub reads next (R345). -/
inductive ScrubTarget | husk (c : HuskCh) | grain (q : Quad)
  deriving DecidableEq, Repr

/-- The part of a resident Sheaf that is read again (R202). -/
inductive Reread | descriptor | successors
  deriving DecidableEq, Repr

/-- A link flit with a valid CRC (R271). reservedSet: is one of its reserved bits 15:14 of bytes 34 and 35 set. -/
structure Flit where
  seq : BitVec 12
  ack : BitVec 12
  ackV : Bool
  reqAck : Bool
  payload : Bytes
  reservedSet : Bool := false
  deriving DecidableEq, Repr

/-- The payload of a TRAIN flit (R269). reservedSet: is a reserved bit of it set. -/
structure TrainFlit where
  version : Byte
  ready : Bool
  resume : Bool
  rxNext : BitVec 12
  txOldest : BitVec 12
  txNext : BitVec 12
  serial : DWord
  port : Byte
  reservedSet : Bool := false
  deriving DecidableEq, Repr

/-- Why a link in UP went down, as its receiver sees it (R282). -/
inductive DownCause | los | lock | uncorrBurst | silent | replayLimit
  deriving DecidableEq, Repr

/-- A KP4 codeword as it is received (R264): the 136 symbols of each of the four lanes. -/
structure Codeword where
  lanes : List (List (BitVec 10))
  deriving DecidableEq, Repr

/-- An operation that a Husk scheduler may issue (R301), and whether it can be completed (R348). -/
structure HuskOp where
  part : Fin 64
  write : Bool
  ok : Bool := true
  deriving DecidableEq, Repr

/-- A Cmp of the pair peer (R241, R353): its status and its TRACE_ID. -/
structure PeerCmp where
  status : Byte
  traceId : BitVec 16 := 0
  deriving DecidableEq, Repr

/-- An ATS Translation Completion (R326, R327): the translated page, its size 4 KiB × 2^k and its rights, or an error. -/
inductive TransResult
  | page (addr : DWord) (k : Nat) (r w u : Bool)
  | err
  deriving DecidableEq, Repr

/-- The response code of a PRG Response (R331). -/
inductive PrgCode | success | invalid | failure
  deriving DecidableEq, Repr

/-- An engine that holds translations: a mover or a Thresher sequencer (R332). -/
inductive Engine | mover (m : MoverIx) | sequencer (q : Quad)
  deriving DecidableEq, Repr

/-- A PCIe memory TLP as the hub sees it under IDE (R380): did it arrive in a stream that takes in its function's TLPs. -/
structure TlpInfo where
  inStream : Bool
  deriving DecidableEq, Repr

/-- The SPDM transport and session a request arrived on (R378); none: outside a session. -/
structure SpdmVia where
  mctp : Bool
  session : Option (Fin 2)
  deriving DecidableEq, Repr

/-- An IDE_KM request (R380): stream 0 is the link stream, 1 to 4 the selective streams. -/
inductive IdeKm
  | query
  | keyProg (stream : Fin 5) (key : Bytes)
  | kSetGo (stream : Fin 5)
  | kSetStop (stream : Fin 5)
  deriving DecidableEq, Repr

/-- A TAP operation (R388, R450): the test reset of JTAG_TRST_N, the public instructions, with what SAMPLE/PRELOAD shifts into the boundary
register; what levels 1 and 2 offer: a read of a register by BAR0 offset, a word of the queue heads, and a word of the trace state, which is
HEAD, TAIL and the lost records of the log, dump and trace ring; and what level 2 offers beside: a write of a register, and any other access. -/
inductive JtagOp
  | testReset | bypass | idcode | samplePreload (cells : Word) | extest
  | readRegister (off : BitVec 28) | readQueue (word : Nat) | readTrace (ring : Fin 3) (word : Nat)
  | writeRegister (off : BitVec 28) (v : Word) | fullAccess
  deriving DecidableEq, Repr

/-- An SMBus transaction (R449): a Read Byte with its command code, or any other. -/
inductive SmbOp
  | readByte (code : Byte) | other
  deriving DecidableEq, Repr

/-- Every command of the table. -/
inductive Instr
  -- resets and input (R406, R407, R325, R394)
  | coldReset (cause : ColdCause)
  | warmReset (cause : WarmCause)
  | hostPortReset (cause : HostPortCause)
  | flr (f : Func)
  | inputLockout (mv : Nat)
  | huskTrainingDone (c : HuskCh) (dimms : List Dimm) (trained : Bool)
  | grainLayerTestDone (layer : Fin 16) (ok : Bool)
  | initZeroingLine (q : Quad) (tier : Tier)
  -- management controller (R41 to R45)
  | mgmtWatchdogExpiry
  | mgmtEccSingleBit
  | mgmtEccDoubleBit
  | mgmtResetEnd
  | commitReanswer
  -- die-to-die links (R32 to R35)
  | d2dUnitReceive (src dst : Die) (seq : BitVec 12) (crcOk : Bool)
  | d2dRetryRequest (src dst : Die) (seq : BitVec 12)
  -- structure images and commits (R62 to R75)
  | structLoad (c : CmdId) (img : HostResult)
  | structStage (c : CmdId) (img : HostResult)
  | structCommit (c : CmdId)
  | structDiscard (c : CmdId)
  | structReadback (c : CmdId)
  | extentRevoke (c : CmdId)
  | phaseTake (b : Block)
  | phaseAEnd
  | phaseBEnd
  | commitPreempt (k : TillerIx)
  | tillerClearDone (k : TillerIx)
  | registerWrite (off : BitVec 28) (v : Word)
  | strTierWrite (v : Word)
  -- pool memory (R84 to R100)
  | migrationLine (q : Quad)
  | cleaningPassLine (q : Quad)
  | allowanceWindow
  | leaseExpiry (eid : Eid)
  | expireTake (q : Quad) (eid : Eid)
  | revocationTake (q : Quad) (key : RevokeKey)
  | drainEnd (ext : Nat)
  | extentZeroLine (q : Quad) (ext : Nat)
  | settleWindowClose (ext : Nat)
  -- fabric requests at the home agents (R114, R120, R242)
  | rds (r : Req) (addr : Addr)
  | rdx (r : Req) (addr : Addr)
  | rdonce (r : Req) (addr : Addr)
  | wrline (r : Req) (addr : Addr) (bytes : Bytes) (mask : BitVec 128) (poison : Bool)
  | atomic (r : Req) (addr : Addr) (op : BitVec 4) (size : BitVec 2) (record : Bool) (atag : Word) (payload : Bytes)
  | rdbulk (r : Req) (addr : Addr) (linesM1 : BitVec 9)
  | wrbulk (r : Req) (addr : Addr) (linesM1 : BitVec 9) (packetLens : List Nat) (lines : List LineIn)
  | wrback (r : Req) (addr : Addr) (bytes : Bytes) (poison : Bool)
  | snpdata (r : Req) (addr : Addr) (snpId : BitVec 16) (bytes : Bytes) (poison : Bool)
  | rspi (r : Req) (addr : Addr) (snpId : BitVec 16)
  | rsps (r : Req) (addr : Addr) (snpId : BitVec 16)
  | rspcur (r : Req) (addr : Addr) (snpId : BitVec 16)
  | rspwbpend (r : Req) (addr : Addr) (snpId : BitVec 16)
  | cmpack (r : Req) (addr : Addr) (rid : BitVec 16)
  -- control messages (R93 to R101, R128, R199, R215, R357, R358, R353)
  | lease (r : Req) (renew : Bool)
  | submit (r : Req) (addr : Addr) (thresher : BitVec 4) (cookie : Word)
  | publish (r : Req) (ext : Nat) (expected new modCount : DWord) (digest : Bytes)
  | unpublish (r : Req) (ext : Nat) (expected : DWord)
  | query (r : Req) (ext : Nat)
  | cancel (r : Req) (slot : SlotIx) (cookie : Word)
  | agentRegister (r : Req)
  | heartbeat (r : Req) (seq : Word) (role : BitVec 2) (time : DWord)
  | takeover (r : Req) (payload : Bytes)
  | mirrorWrite (r : Req) (addr : Addr) (mask : BitVec 128) (lines : List LineIn)
  -- home agent work (R113, R123, R125 to R127)
  | busyLineServe (q : Quad)
  | ratEntryExpiry (q : Quad) (eid : Eid) (atag : Word)
  | snoopTimeout (q : Quad) (addr : Addr) (eid : Eid)
  | suspendTake (q : Quad) (eid : Eid)
  | reclaimWalk (q : Quad) (eid : Eid)
  -- data integrity (R339 to R352)
  | huskLineRead (c : HuskCh) (line : Nat) (rank : Fin 8) (lanes : List LaneIx)
  | grainLineRead (ch : GrainCh) (line : Nat) (lanes : List LaneIx)
  | scrubRead (t : ScrubTarget) (lanes : List LaneIx)
  | rowSpare (ch : GrainCh) (row : Nat)
  | rebuildLine (c : HuskCh)
  | integrityInject (c : CmdId)
  | channelRelease (c : CmdId)
  | channelRestore (c : CmdId) (dimms : List Dimm) (trained : Bool)
  -- tasks (R177 to R198, R209)
  | taskDispatch (k : TillerIx)
  | descriptorReread (slot : SlotIx) (task : Nat) (what : Reread) (host : HostResult)
  | matvec (k : TillerIx)
  | matmul (k : TillerIx)
  | attend (k : TillerIx)
  | gather (k : TillerIx)
  | scatter (k : TillerIx)
  | quant (k : TillerIx)
  | dequant (k : TillerIx)
  | reduce (k : TillerIx)
  | topk (k : TillerIx)
  | elemwise (k : TillerIx)
  | norm (k : TillerIx)
  | copy (k : TillerIx)
  | fill (k : TillerIx)
  | digest (k : TillerIx)
  | join (slot : SlotIx) (task : Nat)
  | notify (slot : SlotIx) (task : Nat)
  | blockIssue (k : TillerIx)
  | operandLineArrive (k : TillerIx) (addr : Addr)
  | shadowBlockArrive (k : TillerIx)
  | entryFold (k : TillerIx)
  | resultWriteRefused (k : TillerIx)
  | taskEnd (k : TillerIx)
  | taskEndReport (q : Quad)
  | heldTaskEnqueue (q : Quad)
  | sheafAdmission (q : Quad) (host : HostResult)
  | sheafWatchdog (slot : SlotIx)
  | prefetch (q : Quad)
  -- fabric (R236 to R258, R290)
  | wormHeadRoute (q : Quad) (input : RouterIn)
  | packetEject (q : Quad) (pkt : Packet)
  | packetInject (q : Quad)
  | reorderTimeout (q : Quad) (src : Eid) (msgId : BitVec 16)
  | requestTimeout (dst : Eid) (msgId : BitVec 16)
  | policed (eid : Eid) (cls : BitVec 2)
  -- link layer (R265 to R287)
  | codewordReceive (n : PortIx) (cw : Codeword)
  | idleFlit (n : PortIx) (f : Flit)
  | headFlit (n : PortIx) (f : Flit)
  | dataFlit (n : PortIx) (f : Flit)
  | abort (n : PortIx) (f : Flit)
  | nak (n : PortIx) (f : Flit)
  | portClosing (n : PortIx) (f : Flit)
  | portClosed (n : PortIx) (f : Flit)
  | train (n : PortIx) (t : TrainFlit) (crcOk : Bool)
  | flitCrcFail (n : PortIx)
  | nakResend (n : PortIx)
  | ackTimeout (n : PortIx)
  | ackTimer (n : PortIx)
  | linkDown (n : PortIx) (cause : DownCause)
  | graceExpiry (n : PortIx)
  | trainingStageDone (n : PortIx) (lanes polarity : BitVec 4) (reversed : Bool)
  | trainingStageTimeout (n : PortIx)
  | wormGapTimeout (n : PortIx)
  | closeTimeout (n : PortIx)
  | linkEnable (n : PortIx)
  | linkDisable (n : PortIx)
  | forceFull (n : PortIx)
  -- shaping, policing, gates, samplers (R296 to R306)
  | apply
  | remove
  | smpQueueWrite (v : Word)
  | smpClear
  | sampleTick
  | gateWindowBoundary (target : Nat)
  | huskOpIssue (c : HuskCh) (op : HuskOp)
  | refresh (c : HuskCh)
  -- command windows (R313 to R321)
  | seqWrite (f : Func) (slot : Fin 2048) (seq : DWord) (rec : Record)
  | recordTake (f : Func)
  | nop (c : CmdId)
  | cwConfig (c : CmdId)
  | submitCommand (c : CmdId)
  | cancelCommand (c : CmdId)
  | publishCommand (c : CmdId)
  | unpublishCommand (c : CmdId)
  | queryCommand (c : CmdId)
  | move (c : CmdId)
  | answerSlotFree (f : Func) (slot : Fin 2048) (v : DWord)
  | eventSlotFree (f : Func) (slot : Fin 1024) (v : DWord)
  -- aperture, movers and address translation (R311 to R333)
  | apertureRead (off : BitVec 36) (len : Nat) (tag : Nat) (tlp : TlpInfo)
  | apertureWrite (off : BitVec 36) (bytes : Bytes) (ep : Bool) (tlp : TlpInfo)
  | moverDescriptorFetch (m : MoverIx) (host : HostResult)
  | moverDescriptorStart (m : MoverIx)
  | moverLine (m : MoverIx) (c : CmdId) (desc : Nat) (host : HostResult)
  | moverDescriptorEnd (m : MoverIx) (c : CmdId) (desc : Nat)
  | translationCompletion (f : Func) (pasid : BitVec 20) (page : BitVec 52) (res : TransResult)
  | pageRequest
  | prgResponse (f : Func) (index : Nat) (code : PrgCode)
  | priTimeout (f : Func) (index : Nat)
  | invalidateRequest (f : Func) (itag : Fin 32) (pasid : Option (BitVec 20)) (lo : DWord) (bytes : Nat)
  | invalidationAck (f : Func) (itag : Fin 32) (e : Engine)
  | busMasterEnable (f : Func) (cfg : FuncCfg)
  | priEnable (f : Func) (on : Bool) (allocation : Nat)
  -- the pair (R353 to R364)
  | mirrorCmp (msgId : BitVec 16) (cmp : PeerCmp)
  | mirrorTimeout (msgId : BitVec 16)
  | checkpoint
  | heartbeatSend
  | fenceTimeout
  | sweepCut
  | gapEnd
  | resyncCopyLine
  -- security commands (R372 to R389)
  | secInfo (c : CmdId)
  | fwUpdate (c : CmdId) (img : HostResult)
  | fwSvnCommit (c : CmdId)
  | ownerProvision (c : CmdId) (blob : HostResult)
  | manifestUpdate (c : CmdId) (man : HostResult)
  | debugChallenge (c : CmdId)
  | debugUnlock (c : CmdId)
  | zeroize (c : CmdId)
  | certRead (c : CmdId)
  | fwRecover (c : CmdId) (img : HostResult)
  | ideInfo (c : CmdId)
  | ideRequireWrite (v : Word)
  -- SPDM (R378 to R380)
  | getVersion (via : SpdmVia)
  | getCapabilities (via : SpdmVia)
  | negotiateAlgorithms (via : SpdmVia)
  | getDigests (via : SpdmVia)
  | getCertificate (via : SpdmVia) (slot : Nat) (offset length : Nat)
  | challenge (via : SpdmVia) (slot : Nat) (nonce : Bytes)
  | getMeasurements (via : SpdmVia) (index : Nat) (sign : Bool) (nonce : Bytes)
  | keyExchange (via : SpdmVia) (reqSession : BitVec 16) (random exchange : Bytes)
  | finish (via : SpdmVia) (verify : Bytes)
  | spdmHeartbeat (via : SpdmVia)
  | keyUpdate (via : SpdmVia) (op : Nat)
  | endSession (via : SpdmVia)
  | vendorDefinedRequest (via : SpdmVia) (req : IdeKm)
  | unsupportedRequest (via : SpdmVia) (code : Byte)
  -- power and calibration (R396 to R413)
  | pwrState (c : CmdId)
  | holdEntryDrained
  | powerTimeout
  | pwrVcore (c : CmdId)
  | vcoreSettled
  | pwrWarmReset (c : CmdId)
  | pwrRead (c : CmdId)
  | calRead (c : CmdId)
  | calWrite (c : CmdId) (img : HostResult)
  | calWriteDone (ok : Bool)
  | thermalScan (readings : List Int)
  -- counters, traces, snapshots (R418 to R439)
  | referenceLost
  | referenceRestored (hSteps : DWord)
  | counterDump
  | pcCtlWrite (v : Word)
  | ctrRead (c : CmdId)
  | smpRead (c : CmdId)
  | tstepRead (c : CmdId)
  | snapshot (c : CmdId)
  | snapshotEnd
  | snapRelease
  | traceMark (c : CmdId)
  | ringExtentWrite (v : Word)
  | tailWrite (hi : Bool) (v : Word)
  -- sideband (R449, R450) and PCIe (R407)
  | smbusReadByte (addr : BitVec 7) (op : SmbOp)
  | jtagAccess (op : JtagOp)
  | vfEnable (on : Bool) (num : Nat)
  deriving DecidableEq, Repr

end Sys2Proof
end

