-- ==== Sys2Proof/Decode.lean ====
section
/-! DEFINITION. The words of the command table. No row of spec/opcode_table.json gives bits: the commands reach the package as messages,
register writes, transactions and events, so that no word spells a command. -/

namespace Sys2Proof

/-- The command that a word spells by the bits of the table: none, since no row of the table gives bits. -/
def decodeTableWord (_nbits _w : Nat) : Option Instr := none

end Sys2Proof
end

