-- ==== Sys2Proof/Machine/Tab.lean ====
section
/-! DEFINITION. Finite maps and tables in one canonical form: keys strictly rising, and in a table no entry equal to what an
unlisted key reads as. Registers, line metadata, replicated blocks and memory are held so, so that equal contents are
equal data. -/

namespace Sys2Proof.Machine

/-- A finite map from numbers, as entries with strictly rising keys. -/
abbrev Map (α : Type) := List (Nat × α)

/-- What a map holds at a key. -/
def mget {α : Type} : Map α → Nat → Option α
  | [], _ => none
  | (k', v) :: t, k => if k' = k then some v else mget t k

/-- The map with a value at a key, in its place. -/
def mput {α : Type} : Map α → Nat → α → Map α
  | [], k, v => [(k, v)]
  | (k', v') :: t, k, v =>
    if k < k' then (k, v) :: (k', v') :: t
    else if k = k' then (k, v) :: t
    else (k', v') :: mput t k v

/-- The map without a key. -/
def mdel {α : Type} : Map α → Nat → Map α
  | [], _ => []
  | (k', v') :: t, k => if k' = k then mdel t k else (k', v') :: mdel t k

/-- Does the map hold a key. -/
def mhas {α : Type} (m : Map α) (k : Nat) : Bool := (mget m k).isSome

/-- The keys of a map, rising. -/
def mkeys {α : Type} (m : Map α) : List Nat := m.map (·.1)

/-- The map with the value at a key changed, where it has one. -/
def mmod {α : Type} (m : Map α) (k : Nat) (f : α → α) : Map α :=
  match mget m k with
  | some v => mput m k (f v)
  | none => m

/-- The canonical form of a map: keys strictly rising. -/
def Map.wf {α : Type} (m : Map α) : Bool := decide (m.Pairwise (fun a b => a.1 < b.1))

/-- A table: a map in which an unlisted key reads as a default. -/
abbrev Tab (α : Type) := List (Nat × α)

/-- What a table reads at a key. -/
def tget {α : Type} (d : Nat → α) (t : Tab α) (k : Nat) : α := (mget t k).getD (d k)

/-- The table with a value at a key; writing the default removes the entry. -/
def tset {α : Type} [DecidableEq α] (d : Nat → α) (t : Tab α) (k : Nat) (v : α) : Tab α :=
  if v = d k then mdel t k else mput t k v

/-- The table with the value at a key changed. -/
def tmod {α : Type} [DecidableEq α] (d : Nat → α) (t : Tab α) (k : Nat) (f : α → α) : Tab α :=
  tset d t k (f (tget d t k))

/-- The canonical form of a table. -/
def Tab.wf {α : Type} [DecidableEq α] (d : Nat → α) (t : Tab α) : Bool :=
  Map.wf t && t.all (fun e => e.2 ≠ d e.1)

end Sys2Proof.Machine
end

