-- ==== Sys2Proof/Machine/RegTable.lean ====
section
/-! DEFINITION. The registers of BAR0 (R23, R24): their offsets by name, and for each its fields that software may write or
whose reset value is not 0, as the register tables of the chapters give them (R22, R48, R75, R103 to R105, R129, R192, R220,
R260 to R262, R287, R306, R334, R335, R365 to R367, R392, R415, R416, R439). -/

namespace Sys2Proof.Machine

/-- The access codes of R22. -/
inductive Acc | ro | rw | w1c | wo | rwl | ep
  deriving DecidableEq, Repr

/-- A field of a register: its lowest bit, width, access code, reset value and, where the table clamps a written value, the
range it is clamped to. -/
structure RField where
  lo : Nat
  width : Nat
  acc : Acc
  rst : Nat
  clamp : Option (Nat × Nat)
  deriving DecidableEq, Repr

/-- A register of a block: its offset from the block's base and its fields. -/
structure RReg where
  off : Nat
  fields : List RField
  deriving DecidableEq, Repr

/-- A block of registers, replicated with a stride. -/
structure RBlock where
  base : Nat
  stride : Nat
  count : Nat
  size : Nat
  regs : List RReg
  deriving DecidableEq, Repr

/-! ## Offsets by name -/

namespace Reg

/-- QD[q]_ID (R48). -/
def qdId (q : Nat) : Nat := 0x2000000 + q * 0x40000
/-- QD[q]_STATUS (R48). -/
def qdStatus (q : Nat) : Nat := 0x2000004 + q * 0x40000
/-- QD[q]_D2D_STATUS (R48). -/
def qdD2dStatus (q : Nat) : Nat := 0x2000008 + q * 0x40000
/-- QD[q]_D2D_ERR (R48). -/
def qdD2dErr (q : Nat) : Nat := 0x200000C + q * 0x40000
/-- QD[q]_D2D_RETRY_CNT (R48). -/
def qdD2dRetryCnt (q : Nat) : Nat := 0x2000010 + q * 0x40000
/-- STR_STATUS (R75). -/
def strStatus : Nat := 0x10000
/-- STR_EPOCH_LO (R75). -/
def strEpochLo : Nat := 0x10008
/-- STR_EPOCH_HI (R75). -/
def strEpochHi : Nat := 0x1000C
/-- STR_STAGED_EPOCH_LO (R75). -/
def strStagedEpochLo : Nat := 0x10010
/-- STR_STAGED_EPOCH_HI (R75). -/
def strStagedEpochHi : Nat := 0x10014
/-- STR_PENDING (R75). -/
def strPending : Nat := 0x10018
/-- STR_ERR (R75). -/
def strErr : Nat := 0x1001C
/-- STR_LIVE_WRITE_CNT (R75). -/
def strLiveWriteCnt : Nat := 0x10020
/-- STR_LIVE_WRITE_ADDR (R75). -/
def strLiveWriteAddr : Nat := 0x10024
/-- STR_COMMIT_LIMIT (R75). -/
def strCommitLimit : Nat := 0x10028
/-- STR_LOAD_TIME (R75). -/
def strLoadTime : Nat := 0x1002C
/-- STR_TIER_SEL (R75). -/
def strTierSel : Nat := 0x10030
/-- STR_TIER (R75). -/
def strTier : Nat := 0x10034
/-- HA[q]_STATUS (R103). -/
def haStatus (q : Nat) : Nat := 0x3000000 + q * 0x10000
/-- HA[q]_DRAIN_CNT (R103). -/
def haDrainCnt (q : Nat) : Nat := 0x3000004 + q * 0x10000
/-- HA[q]_ZERO_CNT (R103). -/
def haZeroCnt (q : Nat) : Nat := 0x3000008 + q * 0x10000
/-- HA[q]_EXT_SEL (R103). -/
def haExtSel (q : Nat) : Nat := 0x3000010 + q * 0x10000
/-- HA[q]_EXT_STATE (R103). -/
def haExtState (q : Nat) : Nat := 0x3000014 + q * 0x10000
/-- HA[q]_EXT_VERSION_LO (R103). -/
def haExtVersionLo (q : Nat) : Nat := 0x3000018 + q * 0x10000
/-- HA[q]_EXT_VERSION_HI (R103). -/
def haExtVersionHi (q : Nat) : Nat := 0x300001C + q * 0x10000
/-- HA[q]_EXT_MODCNT_LO (R103). -/
def haExtModcntLo (q : Nat) : Nat := 0x3000020 + q * 0x10000
/-- HA[q]_EXT_MODCNT_HI (R103). -/
def haExtModcntHi (q : Nat) : Nat := 0x3000024 + q * 0x10000
/-- HA[q]_ZERO_CAP (R103). -/
def haZeroCap (q : Nat) : Nat := 0x3000030 + q * 0x10000
/-- HA[q]_PUBLISH_SETTLE (R103). -/
def haPublishSettle (q : Nat) : Nat := 0x3000034 + q * 0x10000
/-- HA[q]_REFUSE_CNT (R103). -/
def haRefuseCnt (q : Nat) : Nat := 0x3000040 + q * 0x10000
/-- HA[q]_POISON_DEAD_CNT (R103). -/
def haPoisonDeadCnt (q : Nat) : Nat := 0x3000044 + q * 0x10000
/-- HA[q]_ERR (R103). -/
def haErr (q : Nat) : Nat := 0x3000048 + q * 0x10000
/-- HA[q]_QUEUE (R103). -/
def haQueue (q : Nat) : Nat := 0x300004C + q * 0x10000
/-- HA[q]_LEASE_SEL (R103). -/
def haLeaseSel (q : Nat) : Nat := 0x3000050 + q * 0x10000
/-- HA[q]_LEASE_STATE (R103). -/
def haLeaseState (q : Nat) : Nat := 0x3000054 + q * 0x10000
/-- HA[q]_LEASE_EXPIRED_CNT (R103). -/
def haLeaseExpiredCnt (q : Nat) : Nat := 0x3000058 + q * 0x10000
/-- GRN[q]_STATUS (R104). -/
def grnStatus (q : Nat) : Nat := 0x3400000 + q * 0x10000
/-- GRN[q]_PART_SEL (R104). -/
def grnPartSel (q : Nat) : Nat := 0x3400004 + q * 0x10000
/-- GRN[q]_PART_USE (R104). -/
def grnPartUse (q : Nat) : Nat := 0x3400008 + q * 0x10000
/-- GRN[q]_MIG_GRANULE (R104). -/
def grnMigGranule (q : Nat) : Nat := 0x340000C + q * 0x10000
/-- GRN[q]_MIG_CURSOR (R104). -/
def grnMigCursor (q : Nat) : Nat := 0x3400010 + q * 0x10000
/-- GRN[q]_MIG_CNT (R104). -/
def grnMigCnt (q : Nat) : Nat := 0x3400014 + q * 0x10000
/-- HSK[c]_STATUS (R105). -/
def hskStatus (c : Nat) : Nat := 0x3800000 + c * 0x1000
/-- HSK[c]_DIMM_CAP (R105). -/
def hskDimmCap (c : Nat) : Nat := 0x3800004 + c * 0x1000
/-- HSK[c]_USABLE (R105). -/
def hskUsable (c : Nat) : Nat := 0x3800008 + c * 0x1000
/-- HSK[c]_GRANULES (R105). -/
def hskGranules (c : Nat) : Nat := 0x380000C + c * 0x1000
/-- HA[q]_SNOOP_CFG (R129). -/
def haSnoopCfg (q : Nat) : Nat := 0x3000100 + q * 0x10000
/-- HA[q]_RECLAIM_CAP (R129). -/
def haReclaimCap (q : Nat) : Nat := 0x3000104 + q * 0x10000
/-- HA[q]_DIR_STATUS (R129). -/
def haDirStatus (q : Nat) : Nat := 0x3000108 + q * 0x10000
/-- HA[q]_DIR_MISS_CNT (R129). -/
def haDirMissCnt (q : Nat) : Nat := 0x300010C + q * 0x10000
/-- HA[q]_DIR_EVICT_CNT (R129). -/
def haDirEvictCnt (q : Nat) : Nat := 0x3000110 + q * 0x10000
/-- HA[q]_NOALLOC_CNT (R129). -/
def haNoallocCnt (q : Nat) : Nat := 0x3000114 + q * 0x10000
/-- HA[q]_ATOMIC_NEAR_CNT (R129). -/
def haAtomicNearCnt (q : Nat) : Nat := 0x3000118 + q * 0x10000
/-- HA[q]_ATOMIC_FAR_CNT (R129). -/
def haAtomicFarCnt (q : Nat) : Nat := 0x300011C + q * 0x10000
/-- HA[q]_RAT_HIT_CNT (R129). -/
def haRatHitCnt (q : Nat) : Nat := 0x3000124 + q * 0x10000
/-- HA[q]_RAT_FULL_CNT (R129). -/
def haRatFullCnt (q : Nat) : Nat := 0x3000128 + q * 0x10000
/-- HA[q]_SNOOP_TIMEOUT_CNT (R129). -/
def haSnoopTimeoutCnt (q : Nat) : Nat := 0x300012C + q * 0x10000
/-- HA[q]_RAT_STATUS (R129). -/
def haRatStatus (q : Nat) : Nat := 0x3000120 + q * 0x10000
/-- HA[q]_COH_ERR (R129). -/
def haCohErr (q : Nat) : Nat := 0x3000130 + q * 0x10000
/-- HA[q]_AGENT_SEL (R129). -/
def haAgentSel (q : Nat) : Nat := 0x3000140 + q * 0x10000
/-- HA[q]_AGENT_STATE (R129). -/
def haAgentState (q : Nat) : Nat := 0x3000144 + q * 0x10000
/-- TIL[k]_STATUS (R192). -/
def tilStatus (k : Nat) : Nat := 0x4000000 + k * 0x1000
/-- TIL[k]_TASK (R192). -/
def tilTask (k : Nat) : Nat := 0x4000004 + k * 0x1000
/-- TIL[k]_TAG (R192). -/
def tilTag (k : Nat) : Nat := 0x4000008 + k * 0x1000
/-- TIL[k]_HEAD (R192). -/
def tilHead (k : Nat) : Nat := 0x400000C + k * 0x1000
/-- TIL[k]_ERR (R192). -/
def tilErr (k : Nat) : Nat := 0x4000010 + k * 0x1000
/-- TIL[k]_TASK_CNT (R192). -/
def tilTaskCnt (k : Nat) : Nat := 0x4000014 + k * 0x1000
/-- TIL[k]_ESC_CNT (R192). -/
def tilEscCnt (k : Nat) : Nat := 0x4000018 + k * 0x1000
/-- TIL[k]_ZERO_CNT (R192). -/
def tilZeroCnt (k : Nat) : Nat := 0x400001C + k * 0x1000
/-- THR[q]_STATUS (R220). -/
def thrStatus (q : Nat) : Nat := 0x4100000 + q * 0x1000
/-- THR[q]_TASK_FREE (R220). -/
def thrTaskFree (q : Nat) : Nat := 0x4100004 + q * 0x1000
/-- THR[q]_READY (R220). -/
def thrReady (q : Nat) : Nat := 0x4100008 + q * 0x1000
/-- THR[q]_SLOT_SEL (R220). -/
def thrSlotSel (q : Nat) : Nat := 0x410000C + q * 0x1000
/-- THR[q]_SLOT_STATE (R220). -/
def thrSlotState (q : Nat) : Nat := 0x4100010 + q * 0x1000
/-- THR[q]_SLOT_COOKIE (R220). -/
def thrSlotCookie (q : Nat) : Nat := 0x4100014 + q * 0x1000
/-- THR[q]_WDOG_DEFAULT (R220). -/
def thrWdogDefault (q : Nat) : Nat := 0x4100018 + q * 0x1000
/-- THR[q]_PREFETCH_CFG (R220). -/
def thrPrefetchCfg (q : Nat) : Nat := 0x410001C + q * 0x1000
/-- THR[q]_ERR (R220). -/
def thrErr (q : Nat) : Nat := 0x4100020 + q * 0x1000
/-- THR[q]_SUBMIT_CNT (R220). -/
def thrSubmitCnt (q : Nat) : Nat := 0x4100024 + q * 0x1000
/-- THR[q]_REJECT_CNT (R220). -/
def thrRejectCnt (q : Nat) : Nat := 0x4100028 + q * 0x1000
/-- THR[q]_DISPATCH_CNT (R220). -/
def thrDispatchCnt (q : Nat) : Nat := 0x410002C + q * 0x1000
/-- THR[q]_HELD_CNT (R220). -/
def thrHeldCnt (q : Nat) : Nat := 0x4100030 + q * 0x1000
/-- THR[q]_PREFETCH_CNT (R220). -/
def thrPrefetchCnt (q : Nat) : Nat := 0x4100034 + q * 0x1000
/-- THR[q]_DISCARD_CNT (R220). -/
def thrDiscardCnt (q : Nat) : Nat := 0x4100038 + q * 0x1000
/-- THR[q]_FAIL_CNT (R220). -/
def thrFailCnt (q : Nat) : Nat := 0x410003C + q * 0x1000
/-- THR[q]_LAST_REJECT (R220). -/
def thrLastReject (q : Nat) : Nat := 0x4100040 + q * 0x1000
/-- THR[q]_LAST_REJECT_B (R220). -/
def thrLastRejectB (q : Nat) : Nat := 0x4100044 + q * 0x1000
/-- NRM_HOP_CFG (R260). -/
def nrmHopCfg : Nat := 0x5090000
/-- NRM_REORDER_CFG (R260). -/
def nrmReorderCfg : Nat := 0x5090004
/-- NRM_REQ_CFG (R260). -/
def nrmReqCfg : Nat := 0x5090008
/-- NRM_SELF (R260). -/
def nrmSelf : Nat := 0x509000C
/-- NRM_EID_SEL (R260). -/
def nrmEidSel : Nat := 0x5090010
/-- NRM_EID_VIEW (R260). -/
def nrmEidView : Nat := 0x5090014
/-- NRM_SPRAY_SEL (R260). -/
def nrmSpraySel : Nat := 0x5090018
/-- NRM_SPRAY_PORTS_LO (R260). -/
def nrmSprayPortsLo : Nat := 0x5090020
/-- NRM_SPRAY_PORTS_HI (R260). -/
def nrmSprayPortsHi : Nat := 0x5090024
/-- NRM[q]_RT_STATUS (R261). -/
def nrmRtStatus (q : Nat) : Nat := 0x5080000 + q * 0x1000
/-- NRM[q]_RT_ERR (R261). -/
def nrmRtErr (q : Nat) : Nat := 0x5080004 + q * 0x1000
/-- NRM[q]_DEFLECT_CNT (R261). -/
def nrmDeflectCnt (q : Nat) : Nat := 0x5080010 + q * 0x1000
/-- NRM[q]_DROP_HOP_CNT (R261). -/
def nrmDropHopCnt (q : Nat) : Nat := 0x5080014 + q * 0x1000
/-- NRM[q]_DROP_NOROUTE_CNT (R261). -/
def nrmDropNorouteCnt (q : Nat) : Nat := 0x5080018 + q * 0x1000
/-- NRM[q]_DROP_NOOUT_CNT (R261). -/
def nrmDropNooutCnt (q : Nat) : Nat := 0x508001C + q * 0x1000
/-- NRM[q]_DROP_CRC_CNT (R261). -/
def nrmDropCrcCnt (q : Nat) : Nat := 0x5080020 + q * 0x1000
/-- NRM[q]_DROP_MALFORMED_CNT (R261). -/
def nrmDropMalformedCnt (q : Nat) : Nat := 0x5080024 + q * 0x1000
/-- NRM[q]_DUP_CNT (R261). -/
def nrmDupCnt (q : Nat) : Nat := 0x5080028 + q * 0x1000
/-- NRM[q]_CTX_TIMEOUT_CNT (R261). -/
def nrmCtxTimeoutCnt (q : Nat) : Nat := 0x508002C + q * 0x1000
/-- NRM[q]_CTX_FULL_CNT (R261). -/
def nrmCtxFullCnt (q : Nat) : Nat := 0x5080030 + q * 0x1000
/-- NRM[q]_REQ_TIMEOUT_CNT (R261). -/
def nrmReqTimeoutCnt (q : Nat) : Nat := 0x5080034 + q * 0x1000
/-- NRM[q]_POLICED_TX_CNT (R261). -/
def nrmPolicedTxCnt (q : Nat) : Nat := 0x5080038 + q * 0x1000
/-- NRM[q]_EJECT_FULL_CNT (R261). -/
def nrmEjectFullCnt (q : Nat) : Nat := 0x508003C + q * 0x1000
/-- NRM[n]_PORT_CTL (R262). -/
def nrmPortCtl (n : Nat) : Nat := 0x5000000 + n * 0x1000
/-- NRM[n]_PORT_STATUS (R262). -/
def nrmPortStatus (n : Nat) : Nat := 0x5000004 + n * 0x1000
/-- NRM[n]_TX_PKT_CNT (R262). -/
def nrmTxPktCnt (n : Nat) : Nat := 0x5000010 + n * 0x1000
/-- NRM[n]_RX_PKT_CNT (R262). -/
def nrmRxPktCnt (n : Nat) : Nat := 0x5000014 + n * 0x1000
/-- NRM[n]_DEFLECT_OUT_CNT (R262). -/
def nrmDeflectOutCnt (n : Nat) : Nat := 0x5000018 + n * 0x1000
/-- NRM[n]_DROP_SRC_CNT (R262). -/
def nrmDropSrcCnt (n : Nat) : Nat := 0x500001C + n * 0x1000
/-- LNK[n]_CTL (R287). -/
def lnkCtl (n : Nat) : Nat := 0x5200000 + n * 0x1000
/-- LNK[n]_CFG (R287). -/
def lnkCfg (n : Nat) : Nat := 0x5200004 + n * 0x1000
/-- LNK[n]_STATE (R287). -/
def lnkState (n : Nat) : Nat := 0x5200008 + n * 0x1000
/-- LNK[n]_SEQ (R287). -/
def lnkSeq (n : Nat) : Nat := 0x520000C + n * 0x1000
/-- LNK[n]_REPLAY (R287). -/
def lnkReplay (n : Nat) : Nat := 0x5200010 + n * 0x1000
/-- LNK[n]_PEER_SERIAL_LO (R287). -/
def lnkPeerSerialLo (n : Nat) : Nat := 0x5200018 + n * 0x1000
/-- LNK[n]_PEER_SERIAL_HI (R287). -/
def lnkPeerSerialHi (n : Nat) : Nat := 0x520001C + n * 0x1000
/-- LNK[n]_ERR (R287). -/
def lnkErr (n : Nat) : Nat := 0x5200020 + n * 0x1000
/-- LNK[n]_CRC_ERR_CNT (R287). -/
def lnkCrcErrCnt (n : Nat) : Nat := 0x5200030 + n * 0x1000
/-- LNK[n]_NAK_TX_CNT (R287). -/
def lnkNakTxCnt (n : Nat) : Nat := 0x5200034 + n * 0x1000
/-- LNK[n]_NAK_RX_CNT (R287). -/
def lnkNakRxCnt (n : Nat) : Nat := 0x5200038 + n * 0x1000
/-- LNK[n]_REPLAY_FLIT_CNT (R287). -/
def lnkReplayFlitCnt (n : Nat) : Nat := 0x520003C + n * 0x1000
/-- LNK[n]_STALL_CNT (R287). -/
def lnkStallCnt (n : Nat) : Nat := 0x5200040 + n * 0x1000
/-- LNK[n]_FEC_CORR_CNT (R287). -/
def lnkFecCorrCnt (n : Nat) : Nat := 0x5200044 + n * 0x1000
/-- LNK[n]_FEC_UNCORR_CNT (R287). -/
def lnkFecUncorrCnt (n : Nat) : Nat := 0x5200048 + n * 0x1000
/-- LNK[n]_DOWN_CNT (R287). -/
def lnkDownCnt (n : Nat) : Nat := 0x520004C + n * 0x1000
/-- LNK[n]_TRUNC_CNT (R287). -/
def lnkTruncCnt (n : Nat) : Nat := 0x5200050 + n * 0x1000
/-- LNK[n]_LINK_LOST_CNT (R287). -/
def lnkLinkLostCnt (n : Nat) : Nat := 0x5200054 + n * 0x1000
/-- TRF_ENT_SEL (R306). -/
def trfEntSel : Nat := 0x5400000
/-- TRF_ENT_KEY (R306). -/
def trfEntKey : Nat := 0x5400004
/-- TRF_ENT_CIR (R306). -/
def trfEntCir : Nat := 0x5400008
/-- TRF_ENT_PIR (R306). -/
def trfEntPir : Nat := 0x540000C
/-- TRF_ENT_CBS (R306). -/
def trfEntCbs : Nat := 0x5400010
/-- TRF_ENT_PBS (R306). -/
def trfEntPbs : Nat := 0x5400014
/-- TRF_ENT_OVH (R306). -/
def trfEntOvh : Nat := 0x5400018
/-- TRF_ENT_CTL (R306). -/
def trfEntCtl : Nat := 0x540001C
/-- TRF_ENT_LEVEL_C_LO (R306). -/
def trfEntLevelCLo : Nat := 0x5400020
/-- TRF_ENT_LEVEL_C_HI (R306). -/
def trfEntLevelCHi : Nat := 0x5400024
/-- TRF_ENT_LEVEL_P_LO (R306). -/
def trfEntLevelPLo : Nat := 0x5400028
/-- TRF_ENT_LEVEL_P_HI (R306). -/
def trfEntLevelPHi : Nat := 0x540002C
/-- TRF_GREEN_CNT (R306). -/
def trfGreenCnt : Nat := 0x5400030
/-- TRF_YELLOW_CNT (R306). -/
def trfYellowCnt : Nat := 0x5400034
/-- TRF_RED_CNT (R306). -/
def trfRedCnt : Nat := 0x5400038
/-- TRF_WAIT_CNT (R306). -/
def trfWaitCnt : Nat := 0x540003C
/-- TRF_ERR (R306). -/
def trfErr : Nat := 0x5400040
/-- TRF_GATE_SEL (R306). -/
def trfGateSel : Nat := 0x5400048
/-- TRF_GATE_STATE (R306). -/
def trfGateState : Nat := 0x540004C
/-- TRF_SAMPLE_CFG (R306). -/
def trfSampleCfg : Nat := 0x5400050
/-- TRF_SMP_SEL (R306). -/
def trfSmpSel : Nat := 0x5400054
/-- TRF_SMP_QUEUE (R306). -/
def trfSmpQueue : Nat := 0x5400058
/-- TRF_SMP_COUNT (R306). -/
def trfSmpCount : Nat := 0x540005C
/-- TRF_SMP_MAX_DEPTH (R306). -/
def trfSmpMaxDepth : Nat := 0x5400060
/-- TRF_SMP_MAX_DELAY (R306). -/
def trfSmpMaxDelay : Nat := 0x5400064
/-- TRF_SMP_CTL (R306). -/
def trfSmpCtl : Nat := 0x5400068
/-- HUB_ID (R334). -/
def hubId : Nat := 0x0
/-- HUB_PCIE_STATUS (R334). -/
def hubPcieStatus : Nat := 0x4
/-- HUB_APT_BASE (R334). -/
def hubAptBase (w : Nat) : Nat := 0x10 + w * 4
/-- HUB_APT_ERR (R334). -/
def hubAptErr : Nat := 0x50
/-- HUB_APT_ERR_ADDR_LO (R334). -/
def hubAptErrAddrLo : Nat := 0x58
/-- HUB_APT_ERR_ADDR_HI (R334). -/
def hubAptErrAddrHi : Nat := 0x5C
/-- HUB_CW_SEL (R334). -/
def hubCwSel : Nat := 0x60
/-- HUB_CW_STATE (R334). -/
def hubCwState : Nat := 0x64
/-- HUB_CW_NEXT_SEQ_LO (R334). -/
def hubCwNextSeqLo : Nat := 0x68
/-- HUB_CW_NEXT_SEQ_HI (R334). -/
def hubCwNextSeqHi : Nat := 0x6C
/-- HUB_ERR (R334). -/
def hubErr : Nat := 0x70
/-- HUB_MOVER_STATUS (R334). -/
def hubMoverStatus (m : Nat) : Nat := 0x80 + m * 4
/-- HUB_CMD_CNT (R334). -/
def hubCmdCnt : Nat := 0xA0
/-- HUB_CMD_FAIL_CNT (R334). -/
def hubCmdFailCnt : Nat := 0xA4
/-- HUB_BADSEQ_CNT (R334). -/
def hubBadseqCnt : Nat := 0xA8
/-- HUB_EVT_DROP_CNT (R334). -/
def hubEvtDropCnt : Nat := 0xAC
/-- HUB_DESC_CNT (R334). -/
def hubDescCnt : Nat := 0xB0
/-- HUB_APT_REFUSE_CNT (R334). -/
def hubAptRefuseCnt : Nat := 0xB4
/-- XLT_ATC_STATUS (R335). -/
def xltAtcStatus : Nat := 0x20000
/-- XLT_PRI_CFG (R335). -/
def xltPriCfg : Nat := 0x20004
/-- XLT_PRI_STATUS (R335). -/
def xltPriStatus : Nat := 0x20008
/-- XLT_INV_STATUS (R335). -/
def xltInvStatus : Nat := 0x2000C
/-- XLT_PRI_SEL (R335). -/
def xltPriSel : Nat := 0x20010
/-- XLT_PRI_FUNC (R335). -/
def xltPriFunc : Nat := 0x20014
/-- XLT_ERR (R335). -/
def xltErr : Nat := 0x20018
/-- XLT_ATC_HIT_CNT (R335). -/
def xltAtcHitCnt : Nat := 0x20020
/-- XLT_ATC_MISS_CNT (R335). -/
def xltAtcMissCnt : Nat := 0x20024
/-- XLT_TRANS_REQ_CNT (R335). -/
def xltTransReqCnt : Nat := 0x20028
/-- XLT_PRQ_SENT_CNT (R335). -/
def xltPrqSentCnt : Nat := 0x2002C
/-- XLT_PRQ_MERGED_CNT (R335). -/
def xltPrqMergedCnt : Nat := 0x20030
/-- XLT_PRQ_FAIL_CNT (R335). -/
def xltPrqFailCnt : Nat := 0x20034
/-- XLT_INV_RX_CNT (R335). -/
def xltInvRxCnt : Nat := 0x20038
/-- XLT_STALE_TRANS_CNT (R335). -/
def xltStaleTransCnt : Nat := 0x2003C
/-- XLT_STRAY_CNT (R335). -/
def xltStrayCnt : Nat := 0x20040
/-- HSK[c]_RAS (R365). -/
def hskRas (c : Nat) : Nat := 0x3800100 + c * 0x1000
/-- HSK[c]_MARK (R365). -/
def hskMark (c : Nat) : Nat := 0x3800104 + c * 0x1000
/-- HSK[c]_REBUILD_CURSOR_LO (R365). -/
def hskRebuildCursorLo (c : Nat) : Nat := 0x3800108 + c * 0x1000
/-- HSK[c]_REBUILD_CURSOR_HI (R365). -/
def hskRebuildCursorHi (c : Nat) : Nat := 0x380010C + c * 0x1000
/-- HSK[c]_CFG (R365). -/
def hskCfg (c : Nat) : Nat := 0x3800128 + c * 0x1000
/-- HSK[c]_ERR (R365). -/
def hskErr (c : Nat) : Nat := 0x3800110 + c * 0x1000
/-- HSK[c]_CE_CNT (R365). -/
def hskCeCnt (c : Nat) : Nat := 0x3800114 + c * 0x1000
/-- HSK[c]_UE_CNT (R365). -/
def hskUeCnt (c : Nat) : Nat := 0x3800118 + c * 0x1000
/-- HSK[c]_STALE_CNT (R365). -/
def hskStaleCnt (c : Nat) : Nat := 0x380011C + c * 0x1000
/-- HSK[c]_DIVERGE_CNT (R365). -/
def hskDivergeCnt (c : Nat) : Nat := 0x3800120 + c * 0x1000
/-- HSK[c]_SCRUB_PASS_CNT (R365). -/
def hskScrubPassCnt (c : Nat) : Nat := 0x3800124 + c * 0x1000
/-- GRN[q]_ERR (R366). -/
def grnErr (q : Nat) : Nat := 0x3400100 + q * 0x10000
/-- GRN[q]_CFG (R366). -/
def grnCfg (q : Nat) : Nat := 0x3400104 + q * 0x10000
/-- GRN[q]_SPARE_SEL (R366). -/
def grnSpareSel (q : Nat) : Nat := 0x3400108 + q * 0x10000
/-- GRN[q]_SPARE (R366). -/
def grnSpare (q : Nat) : Nat := 0x340010C + q * 0x10000
/-- GRN[q]_CE_CNT (R366). -/
def grnCeCnt (q : Nat) : Nat := 0x3400110 + q * 0x10000
/-- GRN[q]_UE_RECOVERED_CNT (R366). -/
def grnUeRecoveredCnt (q : Nat) : Nat := 0x3400114 + q * 0x10000
/-- GRN[q]_DIRTY_LOST_CNT (R366). -/
def grnDirtyLostCnt (q : Nat) : Nat := 0x3400118 + q * 0x10000
/-- GRN[q]_SPARE_CNT (R366). -/
def grnSpareCnt (q : Nat) : Nat := 0x340011C + q * 0x10000
/-- GRN[q]_SCRUB_PASS_CNT (R366). -/
def grnScrubPassCnt (q : Nat) : Nat := 0x3400120 + q * 0x10000
/-- GRN[q]_UE_CNT (R366). -/
def grnUeCnt (q : Nat) : Nat := 0x3400124 + q * 0x10000
/-- HUB_PAIR_STATE (R367). -/
def hubPairState : Nat := 0x100
/-- HUB_PAIR_TERM_LO (R367). -/
def hubPairTermLo : Nat := 0x108
/-- HUB_PAIR_TERM_HI (R367). -/
def hubPairTermHi : Nat := 0x10C
/-- HUB_PAIR_CKPT_SEQ_LO (R367). -/
def hubPairCkptSeqLo : Nat := 0x118
/-- HUB_PAIR_CKPT_SEQ_HI (R367). -/
def hubPairCkptSeqHi : Nat := 0x11C
/-- HUB_PAIR_GAP (R367). -/
def hubPairGap : Nat := 0x110
/-- HUB_PAIR_RESYNC (R367). -/
def hubPairResync : Nat := 0x120
/-- HUB_PAIR_ERR (R367). -/
def hubPairErr : Nat := 0x124
/-- HUB_HB_MISS_CNT (R367). -/
def hubHbMissCnt : Nat := 0x128
/-- HUB_ORDER_REJECT_CNT (R367). -/
def hubOrderRejectCnt : Nat := 0x12C
/-- HUB_MIRROR_FAIL_CNT (R367). -/
def hubMirrorFailCnt : Nat := 0x130
/-- HUB_RETRY_CNT (R367). -/
def hubRetryCnt : Nat := 0x134
/-- SEC_STATUS (R392). -/
def secStatus : Nat := 0x30000
/-- SEC_BOOT_ID_LO (R392). -/
def secBootIdLo : Nat := 0x30008
/-- SEC_BOOT_ID_HI (R392). -/
def secBootIdHi : Nat := 0x3000C
/-- SEC_SERIAL_LO (R392). -/
def secSerialLo : Nat := 0x30010
/-- SEC_SERIAL_HI (R392). -/
def secSerialHi : Nat := 0x30014
/-- SEC_ISSUER_SEL (R392). -/
def secIssuerSel : Nat := 0x30020
/-- SEC_ISSUER_STATE (R392). -/
def secIssuerState : Nat := 0x30024
/-- SEC_ISSUER_FLOOR_LO (R392). -/
def secIssuerFloorLo : Nat := 0x30028
/-- SEC_ISSUER_FLOOR_HI (R392). -/
def secIssuerFloorHi : Nat := 0x3002C
/-- SEC_ISSUER_LAST_LO (R392). -/
def secIssuerLastLo : Nat := 0x30030
/-- SEC_ISSUER_LAST_HI (R392). -/
def secIssuerLastHi : Nat := 0x30034
/-- SEC_PART_SEL (R392). -/
def secPartSel : Nat := 0x30040
/-- SEC_PART_GUARD (R392). -/
def secPartGuard : Nat := 0x30044
/-- SEC_IDE_CFG (R392). -/
def secIdeCfg : Nat := 0x30050
/-- SEC_IDE_STATUS (R392). -/
def secIdeStatus : Nat := 0x30054
/-- SEC_AUTH_ERR (R392). -/
def secAuthErr : Nat := 0x30058
/-- SEC_ERR (R392). -/
def secErr : Nat := 0x3005C
/-- SEC_AUTH_FAIL_CNT (R392). -/
def secAuthFailCnt : Nat := 0x30060
/-- SEC_KEY_MISMATCH_CNT (R392). -/
def secKeyMismatchCnt : Nat := 0x30064
/-- SEC_IDE_DROP_CNT (R392). -/
def secIdeDropCnt : Nat := 0x30068
/-- PWR_STATE (R415). -/
def pwrState : Nat := 0x40000
/-- PWR_VCORE (R415). -/
def pwrVcore : Nat := 0x40004
/-- PWR_THERM_CFG (R415). -/
def pwrThermCfg : Nat := 0x40008
/-- PWR_TEMP_SEL (R415). -/
def pwrTempSel : Nat := 0x4000C
/-- PWR_TEMP (R415). -/
def pwrTemp : Nat := 0x40010
/-- PWR_INPUT (R415). -/
def pwrInput : Nat := 0x40014
/-- PWR_RESET_CAUSE (R415). -/
def pwrResetCause : Nat := 0x40018
/-- PWR_ERR (R415). -/
def pwrErr : Nat := 0x4001C
/-- CAL_STATUS (R416). -/
def calStatus : Nat := 0x50000
/-- CAL_WRITE_COUNT (R416). -/
def calWriteCount : Nat := 0x50004
/-- CAL_ERR (R416). -/
def calErr : Nat := 0x50008
/-- OBS_TB_LO (R439). -/
def obsTbLo : Nat := 0x60000
/-- OBS_TB_HI (R439). -/
def obsTbHi : Nat := 0x60004
/-- OBS_TB_STATUS (R439). -/
def obsTbStatus : Nat := 0x60008
/-- OBS_AON_SEL (R439). -/
def obsAonSel : Nat := 0x60010
/-- OBS_AON_VALUE_LO (R439). -/
def obsAonValueLo : Nat := 0x60014
/-- OBS_AON_VALUE_HI (R439). -/
def obsAonValueHi : Nat := 0x60018
/-- OBS_PC_SEL (R439). -/
def obsPcSel : Nat := 0x60020
/-- OBS_PC_CTL (R439). -/
def obsPcCtl : Nat := 0x60024
/-- OBS_PC_VALUE_LO (R439). -/
def obsPcValueLo : Nat := 0x60028
/-- OBS_PC_VALUE_HI (R439). -/
def obsPcValueHi : Nat := 0x6002C
/-- OBS_TD_SEL (R439). -/
def obsTdSel : Nat := 0x60030
/-- OBS_TD_VALUE_LO (R439). -/
def obsTdValueLo : Nat := 0x60034
/-- OBS_TD_VALUE_HI (R439). -/
def obsTdValueHi : Nat := 0x60038
/-- OBS_TRACE_ENABLE_LO (R439). -/
def obsTraceEnableLo : Nat := 0x60040
/-- OBS_TRACE_ENABLE_HI (R439). -/
def obsTraceEnableHi : Nat := 0x60044
/-- OBS_DUMP_CFG (R439). -/
def obsDumpCfg : Nat := 0x60048
/-- OBS_RING_SEL (R439). -/
def obsRingSel : Nat := 0x60050
/-- OBS_RING_CFG (R439). -/
def obsRingCfg : Nat := 0x60054
/-- OBS_RING_EXTENT (R439). -/
def obsRingExtent : Nat := 0x60074
/-- OBS_RING_HEAD_LO (R439). -/
def obsRingHeadLo : Nat := 0x60058
/-- OBS_RING_HEAD_HI (R439). -/
def obsRingHeadHi : Nat := 0x6005C
/-- OBS_RING_TAIL_LO (R439). -/
def obsRingTailLo : Nat := 0x60060
/-- OBS_RING_TAIL_HI (R439). -/
def obsRingTailHi : Nat := 0x60064
/-- OBS_RING_SIZE_LO (R439). -/
def obsRingSizeLo : Nat := 0x60068
/-- OBS_RING_SIZE_HI (R439). -/
def obsRingSizeHi : Nat := 0x6006C
/-- OBS_SNAP_CFG (R439). -/
def obsSnapCfg : Nat := 0x60070
/-- OBS_SNAP_ADDR_LO (R439). -/
def obsSnapAddrLo : Nat := 0x60078
/-- OBS_SNAP_ADDR_HI (R439). -/
def obsSnapAddrHi : Nat := 0x6007C
/-- OBS_SNAP_LIMIT (R439). -/
def obsSnapLimit : Nat := 0x60080
/-- OBS_ERR (R439). -/
def obsErr : Nat := 0x60084
/-- OBS_DUMP_SKIP_CNT (R439). -/
def obsDumpSkipCnt : Nat := 0x60088
/-- OBS_TRACE_LOSS_CNT (R439). -/
def obsTraceLossCnt : Nat := 0x6008C
/-- OBS_SNAP_IGNORED_CNT (R439). -/
def obsSnapIgnoredCnt : Nat := 0x60090

end Reg

/-! ## Fields -/

/-- The QD registers with a writable field or a reset value that is not 0. -/
def regsQd : List RReg :=
  [⟨0x0, [⟨8, 8, .ro, 176, none⟩]⟩,
   ⟨0x4, [⟨0, 6, .ro, 63, none⟩]⟩,
   ⟨0xC, [⟨0, 4, .w1c, 0, none⟩, ⟨4, 1, .w1c, 0, none⟩, ⟨8, 4, .w1c, 0, none⟩, ⟨12, 1, .w1c, 0, none⟩]⟩]

/-- The STR registers with a writable field or a reset value that is not 0. -/
def regsStr : List RReg :=
  [⟨0x1C, [⟨0, 1, .w1c, 0, none⟩, ⟨1, 1, .w1c, 0, none⟩, ⟨2, 1, .w1c, 0, none⟩, ⟨3, 1, .w1c, 0, none⟩, ⟨4, 1, .w1c, 0, none⟩, ⟨5, 1, .w1c, 0, none⟩]⟩,
   ⟨0x28, [⟨0, 14, .rw, 1000, some (10, 10000)⟩]⟩,
   ⟨0x30, [⟨0, 6, .rw, 0, none⟩]⟩,
   ⟨0x34, [⟨0, 2, .rw, 1, none⟩, ⟨2, 1, .rw, 0, none⟩, ⟨3, 6, .rw, 10, none⟩]⟩]

/-- The HA registers with a writable field or a reset value that is not 0. -/
def regsHa : List RReg :=
  [⟨0x10, [⟨0, 18, .rw, 0, none⟩]⟩,
   ⟨0x30, [⟨0, 7, .rw, 25, some (1, 100)⟩]⟩,
   ⟨0x34, [⟨0, 10, .rw, 50, some (10, 1000)⟩]⟩,
   ⟨0x48, [⟨0, 1, .w1c, 0, none⟩, ⟨1, 1, .w1c, 0, none⟩, ⟨2, 1, .w1c, 0, none⟩]⟩,
   ⟨0x50, [⟨0, 16, .rw, 0, none⟩]⟩,
   ⟨0x100, [⟨0, 14, .rw, 200, some (20, 10000)⟩]⟩,
   ⟨0x104, [⟨0, 7, .rw, 25, some (1, 100)⟩]⟩,
   ⟨0x130, [⟨0, 1, .w1c, 0, none⟩, ⟨1, 1, .w1c, 0, none⟩, ⟨2, 1, .w1c, 0, none⟩, ⟨3, 1, .w1c, 0, none⟩, ⟨4, 1, .w1c, 0, none⟩, ⟨5, 1, .w1c, 0, none⟩]⟩,
   ⟨0x140, [⟨0, 16, .rw, 0, none⟩]⟩]

/-- The GRN registers with a writable field or a reset value that is not 0. -/
def regsGrn : List RReg :=
  [⟨0x4, [⟨0, 6, .rw, 0, none⟩]⟩,
   ⟨0x100, [⟨0, 1, .w1c, 0, none⟩, ⟨1, 1, .w1c, 0, none⟩, ⟨2, 1, .w1c, 0, none⟩, ⟨3, 1, .w1c, 0, none⟩, ⟨4, 1, .w1c, 0, none⟩, ⟨5, 1, .w1c, 0, none⟩, ⟨6, 1, .w1c, 0, none⟩, ⟨7, 1, .w1c, 0, none⟩]⟩,
   ⟨0x104, [⟨0, 8, .rw, 60, some (0, 240)⟩]⟩,
   ⟨0x108, [⟨0, 5, .rw, 0, none⟩]⟩]

/-- The TIL registers with a writable field or a reset value that is not 0. -/
def regsTil : List RReg :=
  [⟨0x10, [⟨0, 1, .w1c, 0, none⟩, ⟨1, 1, .w1c, 0, none⟩, ⟨2, 1, .w1c, 0, none⟩, ⟨3, 1, .w1c, 0, none⟩, ⟨4, 1, .w1c, 0, none⟩]⟩]

/-- The THR registers with a writable field or a reset value that is not 0. -/
def regsThr : List RReg :=
  [⟨0x4, [⟨0, 19, .ro, 262144, none⟩]⟩,
   ⟨0xC, [⟨0, 6, .rw, 0, none⟩]⟩,
   ⟨0x18, [⟨0, 22, .rw, 0, some (0, 3600000)⟩]⟩,
   ⟨0x1C, [⟨0, 6, .rw, 32, some (0, 32)⟩, ⟨6, 9, .rw, 256, some (16, 256)⟩]⟩,
   ⟨0x20, [⟨0, 1, .w1c, 0, none⟩, ⟨1, 1, .w1c, 0, none⟩, ⟨2, 1, .w1c, 0, none⟩, ⟨3, 1, .w1c, 0, none⟩, ⟨4, 1, .w1c, 0, none⟩, ⟨5, 1, .w1c, 0, none⟩]⟩]

/-- The NRM registers with a writable field or a reset value that is not 0. -/
def regsNrm : List RReg :=
  [⟨0x0, [⟨0, 6, .rw, 48, some (8, 63)⟩, ⟨8, 6, .rw, 16, some (1, 63)⟩, ⟨16, 4, .rw, 4, none⟩]⟩,
   ⟨0x4, [⟨0, 14, .rw, 100, some (10, 10000)⟩]⟩,
   ⟨0x8, [⟨0, 17, .rw, 1000, some (100, 100000)⟩]⟩,
   ⟨0xC, [⟨0, 16, .ep, 0, none⟩]⟩,
   ⟨0x10, [⟨0, 12, .rw, 0, none⟩]⟩,
   ⟨0x18, [⟨0, 9, .rw, 0, none⟩]⟩]

/-- The NRM registers with a writable field or a reset value that is not 0. -/
def regsNrmq : List RReg :=
  [⟨0x4, [⟨0, 1, .w1c, 0, none⟩, ⟨1, 1, .w1c, 0, none⟩, ⟨2, 1, .w1c, 0, none⟩, ⟨3, 1, .w1c, 0, none⟩, ⟨4, 1, .w1c, 0, none⟩, ⟨5, 1, .w1c, 0, none⟩, ⟨6, 1, .w1c, 0, none⟩, ⟨7, 1, .w1c, 0, none⟩]⟩]

/-- The NRM registers with a writable field or a reset value that is not 0. -/
def regsNrmn : List RReg :=
  [⟨0x0, [⟨0, 1, .rw, 0, none⟩, ⟨1, 1, .rw, 0, none⟩]⟩]

/-- The LNK registers with a writable field or a reset value that is not 0. -/
def regsLnk : List RReg :=
  [⟨0x0, [⟨0, 1, .rw, 1, none⟩, ⟨1, 1, .wo, 0, none⟩]⟩,
   ⟨0x4, [⟨0, 9, .rw, 20, some (1, 500)⟩, ⟨9, 7, .rw, 2, some (1, 100)⟩, ⟨16, 8, .rw, 64, some (1, 255)⟩]⟩,
   ⟨0x8, [⟨0, 3, .ro, 1, none⟩, ⟨3, 1, .ro, 1, none⟩]⟩,
   ⟨0x20, [⟨0, 1, .w1c, 0, none⟩, ⟨1, 1, .w1c, 0, none⟩, ⟨2, 1, .w1c, 0, none⟩, ⟨3, 1, .w1c, 0, none⟩, ⟨4, 1, .w1c, 0, none⟩, ⟨5, 1, .w1c, 0, none⟩, ⟨6, 1, .w1c, 0, none⟩, ⟨7, 1, .w1c, 0, none⟩, ⟨8, 1, .w1c, 0, none⟩]⟩]

/-- The TRF registers with a writable field or a reset value that is not 0. -/
def regsTrf : List RReg :=
  [⟨0x0, [⟨0, 13, .rw, 0, none⟩]⟩,
   ⟨0x4, [⟨0, 16, .rw, 0, none⟩, ⟨16, 2, .rw, 0, none⟩, ⟨18, 2, .rw, 0, none⟩]⟩,
   ⟨0x8, [⟨0, 32, .rw, 0, none⟩]⟩,
   ⟨0xC, [⟨0, 32, .rw, 0, none⟩]⟩,
   ⟨0x10, [⟨0, 32, .rw, 0, none⟩]⟩,
   ⟨0x14, [⟨0, 32, .rw, 0, none⟩]⟩,
   ⟨0x18, [⟨0, 6, .rw, 0, none⟩]⟩,
   ⟨0x1C, [⟨0, 1, .wo, 0, none⟩, ⟨1, 1, .wo, 0, none⟩]⟩,
   ⟨0x40, [⟨0, 1, .w1c, 0, none⟩, ⟨1, 1, .w1c, 0, none⟩, ⟨2, 1, .w1c, 0, none⟩]⟩,
   ⟨0x48, [⟨0, 9, .rw, 0, none⟩]⟩,
   ⟨0x50, [⟨0, 10, .rw, 10, some (1, 1000)⟩]⟩,
   ⟨0x54, [⟨0, 11, .rw, 0, none⟩, ⟨11, 4, .rw, 0, none⟩, ⟨15, 1, .rw, 0, none⟩]⟩,
   ⟨0x58, [⟨0, 4, .rw, 0, none⟩, ⟨4, 2, .rw, 0, none⟩, ⟨6, 6, .rw, 0, none⟩, ⟨12, 6, .rw, 0, none⟩, ⟨18, 1, .rw, 0, none⟩, ⟨19, 1, .rw, 0, none⟩]⟩,
   ⟨0x68, [⟨0, 1, .wo, 0, none⟩]⟩]

/-- The HUB registers with a writable field or a reset value that is not 0. -/
def regsHub : List RReg :=
  [⟨0x0, [⟨0, 16, .ro, 9216, none⟩, ⟨16, 8, .ro, 176, none⟩]⟩,
   ⟨0x10, [⟨0, 16, .rw, 0, none⟩, ⟨31, 1, .rw, 0, none⟩]⟩,
   ⟨0x14, [⟨0, 16, .rw, 0, none⟩, ⟨31, 1, .rw, 0, none⟩]⟩,
   ⟨0x18, [⟨0, 16, .rw, 0, none⟩, ⟨31, 1, .rw, 0, none⟩]⟩,
   ⟨0x1C, [⟨0, 16, .rw, 0, none⟩, ⟨31, 1, .rw, 0, none⟩]⟩,
   ⟨0x20, [⟨0, 16, .rw, 0, none⟩, ⟨31, 1, .rw, 0, none⟩]⟩,
   ⟨0x24, [⟨0, 16, .rw, 0, none⟩, ⟨31, 1, .rw, 0, none⟩]⟩,
   ⟨0x28, [⟨0, 16, .rw, 0, none⟩, ⟨31, 1, .rw, 0, none⟩]⟩,
   ⟨0x2C, [⟨0, 16, .rw, 0, none⟩, ⟨31, 1, .rw, 0, none⟩]⟩,
   ⟨0x30, [⟨0, 16, .rw, 0, none⟩, ⟨31, 1, .rw, 0, none⟩]⟩,
   ⟨0x34, [⟨0, 16, .rw, 0, none⟩, ⟨31, 1, .rw, 0, none⟩]⟩,
   ⟨0x38, [⟨0, 16, .rw, 0, none⟩, ⟨31, 1, .rw, 0, none⟩]⟩,
   ⟨0x3C, [⟨0, 16, .rw, 0, none⟩, ⟨31, 1, .rw, 0, none⟩]⟩,
   ⟨0x40, [⟨0, 16, .rw, 0, none⟩, ⟨31, 1, .rw, 0, none⟩]⟩,
   ⟨0x44, [⟨0, 16, .rw, 0, none⟩, ⟨31, 1, .rw, 0, none⟩]⟩,
   ⟨0x48, [⟨0, 16, .rw, 0, none⟩, ⟨31, 1, .rw, 0, none⟩]⟩,
   ⟨0x4C, [⟨0, 16, .rw, 0, none⟩, ⟨31, 1, .rw, 0, none⟩]⟩,
   ⟨0x50, [⟨0, 1, .w1c, 0, none⟩, ⟨1, 1, .w1c, 0, none⟩, ⟨2, 1, .w1c, 0, none⟩, ⟨3, 1, .w1c, 0, none⟩]⟩,
   ⟨0x60, [⟨0, 6, .rw, 0, none⟩]⟩,
   ⟨0x68, [⟨0, 32, .ro, 1, none⟩]⟩,
   ⟨0x70, [⟨0, 1, .w1c, 0, none⟩, ⟨1, 1, .w1c, 0, none⟩, ⟨2, 1, .w1c, 0, none⟩]⟩,
   ⟨0x120, [⟨0, 10, .rw, 100, some (1, 1000)⟩]⟩,
   ⟨0x124, [⟨0, 1, .w1c, 0, none⟩, ⟨1, 1, .w1c, 0, none⟩, ⟨2, 1, .w1c, 0, none⟩, ⟨3, 1, .w1c, 0, none⟩, ⟨4, 1, .w1c, 0, none⟩, ⟨5, 1, .w1c, 0, none⟩, ⟨6, 1, .w1c, 0, none⟩]⟩]

/-- The XLT registers with a writable field or a reset value that is not 0. -/
def regsXlt : List RReg :=
  [⟨0x4, [⟨0, 16, .rw, 1000, some (10, 60000)⟩]⟩,
   ⟨0x10, [⟨0, 6, .rw, 0, none⟩]⟩,
   ⟨0x18, [⟨0, 1, .w1c, 0, none⟩, ⟨1, 1, .w1c, 0, none⟩, ⟨2, 1, .w1c, 0, none⟩, ⟨3, 1, .w1c, 0, none⟩, ⟨4, 1, .w1c, 0, none⟩, ⟨5, 1, .w1c, 0, none⟩, ⟨6, 1, .w1c, 0, none⟩]⟩]

/-- The HSK registers with a writable field or a reset value that is not 0. -/
def regsHsk : List RReg :=
  [⟨0x110, [⟨0, 1, .w1c, 0, none⟩, ⟨1, 1, .w1c, 0, none⟩, ⟨2, 1, .w1c, 0, none⟩, ⟨3, 1, .w1c, 0, none⟩, ⟨4, 1, .w1c, 0, none⟩, ⟨5, 1, .w1c, 0, none⟩, ⟨6, 1, .w1c, 0, none⟩, ⟨7, 1, .w1c, 0, none⟩, ⟨8, 1, .w1c, 0, none⟩]⟩,
   ⟨0x128, [⟨0, 8, .rw, 24, some (0, 168)⟩, ⟨8, 7, .rw, 20, some (1, 100)⟩]⟩]

/-- The SEC registers with a writable field or a reset value that is not 0. -/
def regsSec : List RReg :=
  [⟨0x0, [⟨5, 1, .rwl, 0, none⟩]⟩,
   ⟨0x20, [⟨0, 3, .rw, 0, none⟩]⟩,
   ⟨0x24, [⟨0, 16, .rwl, 0, none⟩, ⟨16, 1, .rwl, 0, none⟩]⟩,
   ⟨0x28, [⟨0, 32, .rwl, 0, none⟩]⟩,
   ⟨0x2C, [⟨0, 32, .rwl, 0, none⟩]⟩,
   ⟨0x40, [⟨0, 6, .rw, 0, none⟩]⟩,
   ⟨0x44, [⟨0, 7, .rwl, 0, none⟩, ⟨7, 1, .rwl, 0, none⟩, ⟨8, 1, .rwl, 0, none⟩, ⟨9, 1, .rwl, 0, none⟩, ⟨10, 5, .rwl, 0, none⟩]⟩,
   ⟨0x50, [⟨0, 1, .rw, 0, none⟩]⟩,
   ⟨0x58, [⟨0, 1, .w1c, 0, none⟩, ⟨1, 1, .w1c, 0, none⟩, ⟨2, 1, .w1c, 0, none⟩, ⟨3, 1, .w1c, 0, none⟩]⟩,
   ⟨0x5C, [⟨0, 1, .w1c, 0, none⟩, ⟨1, 1, .w1c, 0, none⟩, ⟨2, 1, .w1c, 0, none⟩, ⟨3, 1, .w1c, 0, none⟩, ⟨4, 1, .w1c, 0, none⟩, ⟨5, 1, .w1c, 0, none⟩, ⟨6, 1, .w1c, 0, none⟩]⟩]

/-- The PWR registers with a writable field or a reset value that is not 0. -/
def regsPwr : List RReg :=
  [⟨0x4, [⟨0, 10, .ro, 750, none⟩]⟩,
   ⟨0x8, [⟨0, 7, .rw, 100, some (85, 105)⟩]⟩,
   ⟨0xC, [⟨0, 6, .rw, 0, none⟩]⟩,
   ⟨0x18, [⟨0, 3, .ro, 1, none⟩]⟩,
   ⟨0x1C, [⟨0, 1, .w1c, 0, none⟩, ⟨1, 1, .w1c, 0, none⟩, ⟨2, 1, .w1c, 0, none⟩]⟩]

/-- The CAL registers with a writable field or a reset value that is not 0. -/
def regsCal : List RReg :=
  [⟨0x8, [⟨0, 1, .w1c, 0, none⟩, ⟨1, 1, .w1c, 0, none⟩, ⟨2, 1, .w1c, 0, none⟩]⟩]

/-- The OBS registers with a writable field or a reset value that is not 0. -/
def regsObs : List RReg :=
  [⟨0x10, [⟨0, 8, .rw, 0, none⟩]⟩,
   ⟨0x20, [⟨0, 7, .rw, 0, none⟩, ⟨8, 3, .rw, 0, none⟩]⟩,
   ⟨0x24, [⟨0, 8, .rw, 0, none⟩, ⟨8, 6, .rw, 0, none⟩, ⟨14, 1, .rw, 0, none⟩, ⟨15, 1, .rw, 0, none⟩, ⟨16, 1, .w1c, 0, none⟩]⟩,
   ⟨0x30, [⟨0, 5, .rw, 0, none⟩, ⟨5, 3, .rw, 0, none⟩]⟩,
   ⟨0x40, [⟨0, 32, .rw, 0, none⟩]⟩,
   ⟨0x44, [⟨0, 32, .rw, 0, none⟩]⟩,
   ⟨0x48, [⟨0, 20, .rw, 1000, some (10, 1000000)⟩, ⟨20, 1, .rw, 1, none⟩]⟩,
   ⟨0x50, [⟨0, 2, .rw, 0, none⟩]⟩,
   ⟨0x54, [⟨0, 1, .rw, 0, none⟩]⟩,
   ⟨0x60, [⟨0, 32, .rw, 0, none⟩]⟩,
   ⟨0x64, [⟨0, 32, .rw, 0, none⟩]⟩,
   ⟨0x70, [⟨0, 1, .rw, 0, none⟩, ⟨1, 1, .rw, 0, none⟩, ⟨2, 1, .rw, 0, none⟩, ⟨5, 1, .wo, 0, none⟩]⟩,
   ⟨0x74, [⟨0, 18, .rw, 0, none⟩, ⟨31, 1, .rw, 0, none⟩]⟩,
   ⟨0x78, [⟨0, 32, .rw, 0, none⟩]⟩,
   ⟨0x7C, [⟨0, 16, .rw, 0, none⟩]⟩,
   ⟨0x80, [⟨0, 32, .rw, 16777216, none⟩]⟩,
   ⟨0x84, [⟨0, 1, .w1c, 0, none⟩, ⟨1, 1, .w1c, 0, none⟩, ⟨2, 1, .w1c, 0, none⟩, ⟨3, 1, .w1c, 0, none⟩, ⟨4, 1, .w1c, 0, none⟩, ⟨5, 1, .w1c, 0, none⟩, ⟨6, 1, .w1c, 0, none⟩]⟩]

/-- Every block of registers. -/
def regBlocks : List RBlock :=
  [⟨0x2000000, 0x40000, 4, 0x40000, regsQd⟩,
   ⟨0x10000, 0x0, 1, 0x1000, regsStr⟩,
   ⟨0x3000000, 0x10000, 4, 0x10000, regsHa⟩,
   ⟨0x3400000, 0x10000, 4, 0x10000, regsGrn⟩,
   ⟨0x4000000, 0x1000, 24, 0x1000, regsTil⟩,
   ⟨0x4100000, 0x1000, 4, 0x1000, regsThr⟩,
   ⟨0x5090000, 0x0, 1, 0x1000, regsNrm⟩,
   ⟨0x5080000, 0x1000, 4, 0x1000, regsNrmq⟩,
   ⟨0x5000000, 0x1000, 48, 0x1000, regsNrmn⟩,
   ⟨0x5200000, 0x1000, 48, 0x1000, regsLnk⟩,
   ⟨0x5400000, 0x0, 1, 0x1000, regsTrf⟩,
   ⟨0x0, 0x0, 1, 0x1000, regsHub⟩,
   ⟨0x20000, 0x0, 1, 0x1000, regsXlt⟩,
   ⟨0x3800000, 0x1000, 24, 0x1000, regsHsk⟩,
   ⟨0x30000, 0x0, 1, 0x1000, regsSec⟩,
   ⟨0x40000, 0x0, 1, 0x1000, regsPwr⟩,
   ⟨0x50000, 0x0, 1, 0x1000, regsCal⟩,
   ⟨0x60000, 0x0, 1, 0x1000, regsObs⟩]

/-- The fields of the register at a BAR0 offset; none where it has neither a writable field nor a reset value. -/
def regFields (off : Nat) : List RField :=
  match regBlocks.find? (fun k => k.base ≤ off && off < k.base + k.stride * (k.count - 1) + k.size) with
  | none => []
  | some k =>
    let o := if k.stride = 0 then off - k.base else (off - k.base) % k.stride
    ((k.regs.find? (fun r => r.off = o)).map (·.fields)).getD []

/-- The value of a register right after a cold reset (R22). -/
def regReset (off : Nat) : Word :=
  (regFields off).foldl (fun w f => w ||| (BitVec.ofNat 32 f.rst <<< f.lo)) 0

end Sys2Proof.Machine
end

