-- ==== Sys2Proof/Machine/Cells.lean ====
section
/-! DEFINITION. Byte storage as cells in canonical form: addresses strictly rising and no cell that holds what an unlisted
address reads as, which is 0 (R82, R89: a line that nothing has written since the zeroing is zero). -/

namespace Sys2Proof.Machine

/-- Storage of bytes by address. -/
abbrev Cells := List Host.Cell

/-- What an unlisted address reads as. -/
def Cells.unlisted : Byte := 0

/-- The byte at an address. -/
def cget : Cells → Nat → Byte
  | [], _ => Cells.unlisted
  | (k, v) :: t, a => if k = a then v else cget t a

/-- The cells that a string of bytes from an address fills, without those that hold the unlisted value. -/
def cellsOf : Nat → Bytes → Cells
  | _, [] => []
  | a, x :: t => if x = Cells.unlisted then cellsOf (a + 1) t else (a, x) :: cellsOf (a + 1) t

/-- The storage with a string of bytes written from an address. -/
def cwrite (m : Cells) (a : Nat) (bs : Bytes) : Cells :=
  m.filter (fun c => c.1 < a) ++ cellsOf a bs ++ m.filter (fun c => a + bs.length ≤ c.1)

/-- The bytes of a range, in order. -/
def cread (m : Cells) (a n : Nat) : Bytes := (List.range n).map (fun i => cget m (a + i))

/-- The storage with a range cleared to the unlisted value. -/
def cclear (m : Cells) (a n : Nat) : Cells :=
  m.filter (fun c => c.1 < a) ++ m.filter (fun c => a + n ≤ c.1)

/-- The canonical form of byte storage. -/
def Cells.wf (m : Cells) : Bool :=
  decide (m.Pairwise (fun x y => x.1 < y.1)) && m.all (fun c => c.2 ≠ Cells.unlisted)

end Sys2Proof.Machine
end

