-- ==== Sys2Proof/Machine/Types.lean ====
section
/-! DEFINITION. The records that the state of the pool controller is made of, chapter by chapter: plain data. -/

namespace Sys2Proof.Machine

/-! ## The structure (R49 to R61) -/

/-- A partition bound of the GUARD body (R54). -/
structure Bound where
  grainQuota : Nat := 0
  poolLimit : Nat := 0
  tillerMax : Nat := 0
  isolate : Bool := false
  determine : Bool := false
  valid : Bool := false
  keySlot : Nat := 0
  deriving DecidableEq, Repr

/-- An issuer entry of the GUARD body (R54). -/
structure Issuer where
  wrapped : Bytes := []
  floor : DWord := 0
  rights : BitVec 16 := 0
  valid : Bool := false
  deriving DecidableEq, Repr

/-- The Guard set (R54, R62): the parts of the GUARD body. -/
structure Guard where
  bounds : List Bound
  issuers : List Issuer
  debugUnlockable : Bool
  deriving DecidableEq, Repr

/-- A PARTITION entry (R55); its key is PART. -/
structure PartEnt where
  counterRead : Bool
  vf : Nat
  prioMax : Nat
  sheafMax : Nat
  deriving DecidableEq, Repr

/-- A HOST entry (R55); its key is EID. LEASE_MS 0 stands for 500. -/
structure HostEnt where
  part : Nat
  agent : Bool
  group : Nat
  leaseMs : Nat
  deriving DecidableEq, Repr

/-- An EXTENT entry (R56); its key is INDEX. -/
structure ExtEnt where
  base : Nat
  granules : Nat
  part : Nat
  hint : Nat
  wpolicy : Nat
  mirror : Bool
  deriving DecidableEq, Repr

/-- The rights of a GRANT entry (R56); its key is INDEX, GRANTEE and the GROUP bit. -/
structure Rights where
  read : Bool
  write : Bool
  atomic : Bool
  deriving DecidableEq, Repr

/-- A STOOK entry (R57); its key is STOOK. -/
structure StookEnt where
  mode : Nat
  channels : BitVec 24
  deriving DecidableEq, Repr

/-- An EID entry with its position in the EID table (R57, R235); its key is EID. -/
structure EidEnt where
  spray : Nat
  self : Bool
  pos : Nat
  deriving DecidableEq, Repr

/-- A TRAFFIC entry (R58); its key is KIND 0 or not, TARGET and CLASS. -/
structure TrafEnt where
  target : Nat
  cls : Nat
  kind : Nat
  cir : Nat
  pir : Nat
  cbs : Nat
  pbs : Nat
  overhead : Nat
  deriving DecidableEq, Repr

/-- A window of a gate list (R59). -/
structure GateWin where
  duration : Nat
  opens : BitVec 64
  deriving DecidableEq, Repr

/-- A gate list (R59); its key is TARGET. -/
structure GateList where
  baseTime : Nat
  wins : List GateWin
  deriving DecidableEq, Repr

/-- A TIER entry (R55); its key is PART. MIGRATE_CAP 0 stands for 10. -/
structure TierEnt where
  hint : Nat
  wpolicy : Nat
  cap : Nat
  deriving DecidableEq, Repr

/-- The PAIR body (R60). -/
structure PairCfg where
  peer : Nat := 0
  witness : Nat := 0
  role : Nat := 0
  ckptExt : Nat := 0
  deriving DecidableEq, Repr

/-- The TRACE body (R60); an extent that is not named is none. -/
structure TraceCfg where
  dumpUs : Nat := 1000
  dumpExt : Option Nat := none
  traceExt : Option Nat := none
  logExt : Option Nat := none
  enable : DWord := 0
  deriving DecidableEq, Repr

/-- A structure: what the sections of an image set. -/
structure Struct where
  bounds : List Bound := []
  issuers : List Issuer := []
  debugUnlockable : Bool := false
  parts : Map PartEnt := []
  hosts : Map HostEnt := []
  exts : Map ExtEnt := []
  grants : Map Rights := []
  stooks : Map StookEnt := []
  tillers : List (Option Nat) := []
  eids : Map EidEnt := []
  sprays : Map (BitVec 48) := []
  traffic : Map TrafEnt := []
  gates : Map GateList := []
  tiers : Map TierEnt := []
  pair : PairCfg := {}
  trace : TraceCfg := {}
  deriving DecidableEq, Repr

/-- A parsed image: its header and, for each section type, the keys that its DELETE section removes and its entries in the
order of the section. -/
structure Image where
  kind : Nat := 0
  epoch : DWord := 0
  baseEpoch : DWord := 0
  targetId : DWord := 0
  bounds : List Bound := []
  issuers : List Issuer := []
  debugUnlockable : Bool := false
  parts : List (Nat × PartEnt) := []
  hosts : List (Nat × HostEnt) := []
  exts : List (Nat × ExtEnt) := []
  grants : List (Nat × Rights) := []
  stooks : List (Nat × StookEnt) := []
  tillers : Option (List (Option Nat)) := none
  eids : List (Nat × EidEnt) := []
  sprays : List (Nat × BitVec 48) := []
  traffic : List (Nat × TrafEnt) := []
  gates : List (Nat × GateList) := []
  tiers : List (Nat × TierEnt) := []
  pair : Option PairCfg := none
  trace : Option TraceCfg := none
  delParts : List Nat := []
  delHosts : List Nat := []
  delExts : List Nat := []
  delGrants : List Nat := []
  delEids : List Nat := []
  delSprays : List Nat := []
  delTraffic : List Nat := []
  delGates : List Nat := []
  delTiers : List Nat := []
  deriving DecidableEq, Repr

/-! ## Structure control (R62 to R75) -/

/-- The state of an extent (R89); the codes of HA[q]_EXT_STATE. -/
inductive ExtState | none | init | active | sealing | published | draining | zeroing
  deriving DecidableEq, Repr

/-- A staged delta (R66): the image, and the state at staging that the keys it touches are compared with: the structure,
whether each extent is being revoked and the frames its granules hold, and whether each host's lease is live, lapsed and its agent
suspended. digest: the SHA-256 of the delta (R379). -/
structure Staged where
  img : Image
  base : Struct
  exts : Map (Bool × List (Nat × Nat))
  leases : Map (Bool × Bool × Bool)
  digest : Bytes
  deriving DecidableEq, Repr

/-- A commit that runs (R67): its target epoch, the command to answer, the structures at the commit point, after phase A and after
phase B, the phase, its commit point, the Tillers that phase A releases and have not been cleared, and the blocks that have taken the
changes of the running phase. -/
structure Commit where
  img : Image
  digest : Bytes
  cmd : CmdId
  base : Struct := {}
  afterA : Struct
  afterB : Struct
  phase : Nat
  point : Nat
  taken : List Block
  clearing : List Nat
  cleared : List Nat
  deriving DecidableEq, Repr

/-- Who asked for something that is answered later: a fabric message or a command. -/
inductive Asker
  | fabric (src : Eid) (msgId traceId : BitVec 16) (ty : Nat)
  | cmd (c : CmdId)
  deriving DecidableEq, Repr

/-- A publisher that has joined a pending publication, with its digest (R99). -/
structure Publisher where
  who : Asker
  digest : Bytes
  deriving DecidableEq, Repr

/-- The runtime state of an extent (R89, R97, R99). prior: the state in which a home agent that has not taken the revocation
still serves it. revoked: the former grantees whose slots are marked revoked. pubs: who may still publish,
newVersion: the VERSION that the publication gives, settleEnd: the end of the settle window. zeroed: the granules that are zero in the zeroing
of R98, and zeroCur the line each home agent zeroes next, with its granule. -/
structure ExtRt where
  state : ExtState := .active
  prior : ExtState := .active
  version : DWord := 0
  digest : Bytes := []
  modCount : DWord := 0
  revoked : List Nat := []
  pubs : List Publisher := []
  newVersion : DWord := 0
  settleEnd : Nat := 0
  zeroed : List Nat := []
  zeroCur : Map (Nat × Nat) := []
  deriving DecidableEq, Repr

/-! ## Pool memory (R76 to R105, R336 to R352) -/

/-- The metadata of a stored line (R337). -/
structure LineMeta where
  poison : Bool := false
  wepoch : Byte := 0
  slot : Nat := 64
  dirty : Bool := false
  deriving DecidableEq, Repr

/-- One stored copy of a line. -/
inductive Copy | huskA | huskB | grain
  deriving DecidableEq, Repr

/-- A move of a granule or a cleaning pass (R88). -/
inductive MigKind | into | out | clean
  deriving DecidableEq, Repr

/-- The move a quadrant runs, with its cursor. -/
structure Mig where
  granule : Nat
  kind : MigKind
  cursor : Nat
  deriving DecidableEq, Repr

/-- A line operation that waits in a Husk channel's queue (R301): when it came, and header bytes 0 to 15 of the request that it serves, none for
one of the device's own (R437). -/
structure HuskWait where
  at_ : Nat
  head : Bytes
  deriving DecidableEq, Repr

/-- A Husk channel (R80, R105, R341, R348 to R351). trained: its training has ended since the last reset. cursor: the rebuild
cursor. lastMark: rank and device of the last mark. corr: the lines counted for each rank and lane. uncorr: the uncorrectable lines with their
times. scrub, scrubAt: the next line of patrol scrub, and when its last line was read. refreshAt: the start of the next refresh on the
timebase schedule; refreshEnd: the end of the last; held: the refreshes made from held clocks while the reference was lost (R419). void: the first
row from which the lines that the channel does not store are lost for good, because more channels of its stook were gone than it serves
(R349). -/
structure HuskChan where
  trained : Bool := false
  up : Bool := false
  lost : Bool := false
  cause : Nat := 0
  dimms : List Dimm := []
  marks : Map Nat := []
  lastMark : Nat × Nat := (0, 0)
  corr : List (Nat × Nat × Nat) := []
  uncorr : List (Nat × Nat) := []
  rebuilding : Bool := false
  cursor : Nat := 0
  scrub : Nat := 0
  scrubAt : Nat := 0
  reads : Tab (List HuskWait) := []
  writes : Tab (List HuskWait) := []
  refreshAt : Nat := 0
  refreshEnd : Nat := 0
  held : Nat := 0
  void : Option Nat := none
  deriving DecidableEq, Repr

/-- A Grain channel (R352). -/
structure GrainChan where
  corr : List (Nat × Nat) := []
  uncorr : List (Nat × Nat) := []
  spared : List Nat := []
  pending : List Nat := []
  deriving DecidableEq, Repr

/-! ## Coherence (R106 to R129) -/

/-- Who accesses pool memory (R91); pre: the prefetch for a task (R211); notify: the atomic of a NOTIFY, by its task's place, order of readiness
and tag (R198). -/
inductive Who
  | fabric (src : Eid)
  | tiller (k : Nat)
  | pre (slot task : Nat)
  | thresher (q : Nat)
  | notify (slot task order tag : Nat)
  | mover (m : Nat)
  | aperture (tag : Nat)
  | func (f : Nat)
  | dev
  deriving DecidableEq, Repr

/-- The state of a directory entry (R107). -/
inductive DirState | s | x
  deriving DecidableEq, Repr

/-- A directory entry in use (R107): its partition, its pointers (agent indices) or, in the coarse form, its bits, and the
stamp of its last use (R109). -/
structure DirEnt where
  state : DirState
  part : Nat
  coarse : Bool
  ptrs : List Nat
  bits : BitVec 64
  stamp : Nat
  deriving DecidableEq, Repr

/-- A snoop kind (R111). -/
inductive SnpKind | s | i | cur
  deriving DecidableEq, Repr

/-- A snoop that waits for its response (R125). -/
structure SnoopOut where
  eid : Nat
  snpId : Nat
  kind : SnpKind
  sentAt : Nat
  wbPend : Bool := false
  deriving DecidableEq, Repr

/-- An atomic operation with its operands (R118, R241). -/
structure AtmOp where
  addr : Nat
  op : Nat
  size : Nat
  operand : Nat
  compare : Nat
  record : Bool
  atag : Word
  deriving DecidableEq, Repr

/-- What a transaction does to its line. -/
inductive LineOp
  | rds
  | rdx
  | rdonce
  | wrline (bytes : Bytes) (mask : BitVec 128) (poison : Bool)
  | mirrorWr (bytes : Bytes) (mask : BitVec 128) (poison : Bool)
  | near (a : AtmOp)
  | far (a : AtmOp)
  | wrback
  | recall
  | recallOf (eid : Nat)
  | sweep
  deriving DecidableEq, Repr

/-- Where a transaction stands: it waits for snoop responses, for the peer's Cmp of a mirror write (with the message and its
time limit, and what the answer will carry), or for CmpAck (with the message that it acknowledges and its time). -/
inductive TPhase
  | snoop
  | mirror (msgId : Nat) (deadline : Nat) (old : Bytes)
  | ack (msgId : Nat) (sentAt : Nat)
  deriving DecidableEq, Repr

/-- A transaction on a line, in a tracker entry (R112, R113). canWrite: the grant has WRITE. part: the partition of the extent.
acc: when it was accepted. data: the owner's M data. stay: another agent owned the line when the transaction started. twin, wb: whether
the extent is mirrored and whether it writes back, as the home agent held it at the acceptance (R68). counted: MOD_COUNT has counted it (R456). -/
structure Txn where
  id : Nat
  line : Nat
  op : LineOp
  who : Who
  msgId : Nat
  traceId : Nat
  canWrite : Bool
  part : Nat
  job : Option Nat
  snoops : List SnoopOut
  data : Option (Bytes × Bool)
  stay : Bool
  phase : TPhase
  at_ : Nat := 0
  acc : Nat := 0
  twin : Bool := false
  wb : Bool := false
  counted : Bool := false
  deriving DecidableEq, Repr

/-- An accepted request that waits in a home agent's request queue for its line (R113), and, once it has chosen a victim, for the end of
the recall that frees the victim's entry, by its transaction (R109). -/
structure QEnt where
  home : Nat
  txn : Txn
  at_ : Nat
  victim : Option Nat := none
  deriving DecidableEq, Repr

/-- The lines of one bulk or mirror message that have not ended, what has been read, the first refusal, how many lines have been refused, and
whether MOD_COUNT has counted it (R242, R456). -/
structure Job where
  who : Who
  msgId : Nat
  traceId : Nat
  addr : Nat
  write : Bool
  left : List Nat
  got : Map (Bytes × Bool)
  status : Nat
  bad : Nat := 0
  counted : Bool := false
  deriving DecidableEq, Repr

/-- What a line operation of an internal requester ended with, until the requester takes it: a read, or a write that was refused
after its acceptance. -/
structure Landed where
  who : Who
  write : Bool
  line : Nat
  status : Nat
  bytes : Bytes
  poison : Bool
  deriving DecidableEq, Repr

/-- An agent of the registry (R108); its key is EID. -/
structure Agent where
  index : Nat
  registered : Bool
  suspended : Bool
  deriving DecidableEq, Repr

/-- A directory walk for an agent (R127) of a home agent; its cursor is the next set. -/
structure Walk where
  home : Nat
  eid : Nat
  cursor : Nat
  deriving DecidableEq, Repr

/-- An entry of a recent-atomics table (R123); reserved: its atomic has not executed. -/
structure RatEnt where
  home : Nat
  eid : Nat
  a : AtmOp
  old : Bytes
  at_ : Nat
  reserved : Bool
  deriving DecidableEq, Repr

/-- A directory set that is being rebuilt (R110), with the agents that have not answered SnpSet and when it was last sent to each. -/
structure SetLost where
  home : Nat
  set : Nat
  snpId : Nat
  left : Map Nat
  deriving DecidableEq, Repr

/-! ## Fabric (R234 to R262) -/

/-- A message that the controller sends (R239 to R241): its payload, and the poison flag of each 128 bytes. psn: its next packet;
waited: that packet has waited for its shaper (R290, R306). -/
structure Msg where
  ty : Nat
  dst : Nat
  msgId : Nat
  traceId : Nat
  status : Nat := 0
  load : Nat := 0
  arg : BitVec 96 := 0
  payload : Bytes := []
  poisons : List Bool := []
  psn : Nat := 0
  part : Nat := 0
  at_ : Nat := 0
  waited : Bool := false
  deriving DecidableEq, Repr

/-- A reorder context (R252): what its packets have in common, its expected count, and for each PSN received the LEN, the payload,
the poison flags and LAST. -/
structure Ctx where
  home : Nat
  src : Nat
  msgId : Nat
  ty : Nat
  dst : Nat
  arg : BitVec 96
  traceId : Nat
  openedAt : Nat
  timeoutUs : Nat
  expected : Option Nat
  got : Map (Nat × Bytes × List Bool × Bool)
  deriving DecidableEq, Repr

/-- A request that the controller sent over the fabric, other than a snoop or a mirror write, and that waits for its answer
(R255), with the quadrant it was sent from and its time limit. -/
structure OutReq where
  home : Nat
  dst : Nat
  msgId : Nat
  deadline : Nat
  deriving DecidableEq, Repr

/-- POLICED bookkeeping for a source and class (R258). home: the quadrant of the last drop, from which the notice goes. -/
structure Policed where
  lastAt : Nat
  dropped : Nat
  part : Nat
  home : Nat := 0
  deriving DecidableEq, Repr

/-- A worm: its header and payload, the partition that a gate counts it under (R299), and the request of the controller that it carries, as
destination and MSG_ID. -/
structure Worm where
  hdr : BitVec 256
  payload : Bytes
  part : Nat := 0
  req : Option (Nat × Nat) := none
  deriving DecidableEq, Repr

/-- An output of a router (R246, R247, R248): an external port, the die-to-die link to a quadrant, the hub link, the ejection queue of the
quadrant, or none, where the worm is discarded. -/
inductive RouterOut | ext (p : Nat) | d2d (q : Nat) | hub | eject (q : Nat) | drop
  deriving DecidableEq, Repr

/-- An output that the worm from an external port holds until its tail, with the flits still to come (R248); of a worm that leaves on no
external port also its header and the payload that has come. -/
structure Hold where
  port : Nat
  out : RouterOut
  flits : Nat
  hdr : BitVec 256 := 0
  body : Bytes := []
  deriving DecidableEq, Repr

/-- A die-to-die transfer unit in its sender's retry buffer (R32): its sequence number, and its place in a worm with the bytes of up to one
line. -/
structure D2dUnit where
  seq : Nat
  worm : Nat
  head : BitVec 128
  line : Bytes
  deriving DecidableEq, Repr

/-- One direction of a die-to-die link or a hub link (R32, R33). tries: the failures in a row of a unit by sequence number. accepted: the
sequence numbers accepted that a new unit does not use again. next: the next sequence number. buf: the retry buffer. worms: the worms
whose units are in it; count: the number of the next worm. -/
structure D2d where
  tries : Tab Nat := []
  accepted : List Nat := []
  next : Nat := 0
  buf : List D2dUnit := []
  worms : Map Worm := []
  count : Nat := 0
  deriving DecidableEq, Repr

/-- A worm that a die-to-die link or the hub link (die 4) has brought to a router, where its head waits to be assigned an output. -/
structure Arrived where
  quad : Nat
  src : Nat
  worm : Worm
  deriving DecidableEq, Repr

/-- A packet in an ejection queue (R251): of a quadrant, or of the hub (4). -/
structure Ejected where
  quad : Nat
  hdr : BitVec 256
  payload : Bytes
  deriving DecidableEq, Repr

/-! ## The link layer (R263 to R287) -/

/-- The states of a link (R267). -/
inductive LinkState | disabled | training | up | held | closing
  deriving DecidableEq, Repr

/-- A flit as it is sent (R271), without its CRC, and how many times in a row. -/
structure LFlit where
  ty : Nat
  seq : Nat
  ack : Nat
  ackV : Bool := true
  reqAck : Bool
  payload : Bytes
  times : Nat := 1
  deriving DecidableEq, Repr

/-- A sequenced flit in the replay buffer (R274): its type and payload, and the request of the controller whose packet it belongs to,
as its destination and MSG_ID (R284). -/
structure TxFlit where
  ty : Nat
  payload : Bytes
  req : Option (Nat × Nat)
  deriving DecidableEq, Repr

/-- A packet that the receiver has accepted from its HEAD on (R273): its header, the DATA flits still to come, those that have come
and not been forwarded, and whether its head has been routed. -/
structure RxPkt where
  hdr : BitVec 256
  left : Nat
  body : List Bytes := []
  routed : Bool := false
  deriving DecidableEq, Repr

/-- A link (R267 to R287). stage, stageAt: the training stage and when it began. tries: the fast retrains made since the link went
down. full: the running attempt is full. forceFull: the next one is. good, ready, gotReady: the TRAIN exchange of R269. held: the
replay buffer from txOldest on. ackAt: when TX_OLDEST last advanced or the buffer was last empty. replayFrom, replays: the consecutive
replays from one TX_OLDEST. wait, nakAt: replay wait. unacked, unackAt: flits accepted and not acknowledged. uncorr, uncorrRun:
uncorrectable codewords of the last 1 ms and in a row. goodAt: the last flit with a valid CRC. rx, rxAt: the packets in reception and
when the last flit of one was accepted. skip: a truncated packet is being discarded. asked, closeAt and the four flags: the close of R286.
out: every flit sent. credit: the flit times of the periods gone by that no flit has filled, in 34ths. corrRun: the correctable codewords in a
row of stage 4. cwPos, cwBad: where in a flit the next codeword begins, in bits, and is that flit marked bad already (R264, R265). -/
structure Link where
  state : LinkState := .training
  full : Bool := true
  stage : Nat := 1
  stageAt : Nat := 0
  tries : Nat := 0
  forceFull : Bool := false
  lanes : Nat := 0
  polarity : Nat := 0
  reversed : Bool := false
  resumed : Bool := false
  good : Nat := 0
  ready : Bool := false
  gotReady : Bool := false
  txOldest : Nat := 0
  rxNext : Nat := 0
  held : List TxFlit := []
  ackAt : Nat := 0
  replayFrom : Option Nat := none
  replays : Nat := 0
  wait : Bool := false
  nakAt : Nat := 0
  unacked : Nat := 0
  unackAt : Nat := 0
  uncorr : List Nat := []
  uncorrRun : Nat := 0
  goodAt : Nat := 0
  graceEnd : Nat := 0
  rx : List RxPkt := []
  rxAt : Nat := 0
  skip : Bool := false
  asked : Bool := false
  closeAt : Nat := 0
  sentClosing : Bool := false
  gotClosing : Bool := false
  sentClosed : Bool := false
  gotClosed : Bool := false
  out : List LFlit := []
  credit : Int := 0
  corrRun : Nat := 0
  cwPos : Nat := 0
  cwBad : Bool := false
  deriving DecidableEq, Repr

/-! ## Shaping, policing, gates and samplers (R288 to R306) -/

/-- An entry of the traffic table (R295), with its levels in milli-bytes, the timebase of their last evaluation (R288) and its
counters (R306). -/
structure TrafRt where
  ent : TrafEnt
  levC : Int
  levP : Int
  evalAt : Nat
  green : Nat := 0
  yellow : Nat := 0
  red : Nat := 0
  waits : Nat := 0
  deriving DecidableEq, Repr

/-- The gate of a target (R298): the list in force (none: ungated) with the start of its first cycle, the entry in force, and
the list that a commit brings, with its start and the end of the running cycle, when it takes over. -/
structure GateRt where
  list : Option GateList := none
  start : Nat := 0
  entry : Nat := 0
  next : Option (Option GateList × Nat) := none
  switchAt : Nat := 0
  deriving DecidableEq, Repr

/-- A sampler slot (R304, R305). -/
structure Sampler where
  queue : Word := 0
  depth : Tab Nat := []
  delay : Tab Nat := []
  maxDepth : Nat := 0
  maxDelay : Nat := 0
  deriving DecidableEq, Repr

/-! ## Counters, rings and logs (R421 to R438) -/

/-- A programmable counter (R422 to R424): EVENT, PART, ALL, CHAIN, OVF and the value. -/
structure Pc where
  event : Nat := 0
  part : Nat := 0
  all : Bool := false
  chain : Bool := false
  ovf : Bool := false
  value : Nat := 0
  deriving DecidableEq, Repr

/-- A ring in pool memory (R427): the extent it uses, HEAD and TAIL, and the count of records it has lost. -/
structure Ring where
  ext : Option Nat := none
  wrap : Bool := false
  head : Nat := 0
  tail : Nat := 0
  lost : Nat := 0
  deriving DecidableEq, Repr

/-- A hang snapshot that is being taken (R436): its trigger, slot, T0, destination and limit, the command to answer, and the entries
of the sections that reflect T0. -/
structure Snap where
  trigger : Nat
  slot : Nat
  t0 : Nat
  addr : Nat
  limit : Nat
  cmd : Option CmdId
  secs : List (List Bytes)
  deriving DecidableEq, Repr

/-- A device log record (R438). -/
structure LogRec where
  time : Nat
  code : Nat
  unit : Nat
  part : Nat
  flags : Nat
  a : Nat
  b : Nat
  deriving DecidableEq, Repr

/-! ## Tasks and Sheafs (R152 to R220) -/

/-- The counts of a safeguard record (R156), with the lowest block index that had an escalate verdict. -/
structure Tally where
  sat : Nat := 0
  nanScale : Nat := 0
  esc : Nat := 0
  unres : Nat := 0
  drop : Nat := 0
  checked : Nat := 0
  firstEsc : Option Nat := none
  deriving DecidableEq, Repr

/-- A pair of a held and a broadcast block in a commit-window entry (R152): the key of its accumulator, the rows, its partial with
its overflow, the NaN scales of its blocks, whether it has a verdict and whether that is escalate, and the shadow partial once it
has been formed. -/
structure DotPair where
  out : Nat
  row : Nat
  col : Nat
  part : Word
  ovf : Bool
  nans : Nat
  checked : Bool
  esc : Bool
  shadow : Option (Word × Bool) := none
  deriving DecidableEq, Repr

/-- A commit-window entry (R152): its block index, its pairs, the lines that it consumes when it folds, what ends the task when it
reaches the head (a status and an address), and whether escalated pairs wait for the shadow. -/
structure WinEnt where
  index : Nat
  pairs : List DotPair
  lines : List Nat
  stop : Option (Nat × Nat)
  wait : Bool
  deriving DecidableEq, Repr

/-- A line of the local store: the status of its read, its bytes and its poison flag. -/
structure StoreLine where
  status : Nat
  bytes : Bytes
  poison : Bool
  deriving DecidableEq, Repr

/-- A result line that is being filled (R174): its bytes, the bytes that are final, its poison flag, and the saturations, the NaNs dropped
and the NaN scales of the results that it holds, which count once it is written (R157). -/
structure ResLine where
  bytes : Bytes := List.replicate 128 0
  mask : BitVec 128 := 0
  poison : Bool := false
  sat : Nat := 0
  drop : Nat := 0
  nans : Nat := 0
  deriving DecidableEq, Repr

/-- The softmax state of a query head of ATTEND (R180): m, l and o. -/
structure Head where
  m : Word
  l : Word
  o : List Word
  deriving DecidableEq, Repr

/-- The task that a Tiller runs (R164, R209). desc: its descriptor, once its re-read has matched. next: the next block index to
issue, or the next row. ended: the status and FAIL_ADDR it ended with. modFirst, modLast: what a DIGEST notes. ext: the extent of a DIGEST, once its range has been checked. recSent: its safeguard record has
been written. wrote: what the result lines written so far counted (R157). spent: the T-steps of row work that is not classified yet (R425). -/
structure Run where
  slot : Nat
  task : Nat
  part : Nat
  kind : Nat
  tag : Nat
  desc : Option Bytes := none
  next : Nat := 0
  store : Map StoreLine := []
  window : List WinEnt := []
  acc : Map Word := []
  heads : Map Head := []
  res : Map ResLine := []
  tally : Tally := {}
  ended : Option (Nat × Nat) := none
  modFirst : Option Nat := none
  modLast : Nat := 0
  ext : Option Nat := none
  recSent : Bool := false
  wrote : Map (Nat × Nat × Nat) := []
  spent : Nat := 0
  deriving DecidableEq, Repr

/-- Prefetched data in a local store (R211): the slot and task it is for, the lines, and the MOD_COUNT of each extent read. -/
structure Prefetch where
  slot : Nat
  task : Nat
  lines : Map StoreLine
  mods : Map Nat
  deriving DecidableEq, Repr

/-- A Tiller (R164, R165): the task it runs, the prefetched data it holds, and whether it is clearing. -/
structure Tiller where
  run : Option Run := none
  pre : List Prefetch := []
  clearing : Bool := false
  deriving DecidableEq, Repr

/-- Where a task stands: it waits for predecessors, is ready in a queue, is held in its entry (R208), runs (on a Tiller or on the
Thresher), or has ended. -/
inductive TaskState | waiting | ready | held | running (k : Option Nat) | ended
  deriving DecidableEq, Repr

/-- A task entry of a resident Sheaf (R195, R201): its kind, PRIO, home quadrant, TAG and NO_PREFETCH, its dependence count, state,
stamp (when it became ready) and when it entered its queue, check value, successors, and the status it ended with. reread: its descriptor has been read again and matches. goes: the idle Tiller
that it goes to (R209). -/
structure TaskRt where
  kind : Nat
  prio : Nat
  home : Nat
  tag : Nat
  noPre : Bool
  desc : Bytes
  succ : List Nat
  check : Word
  deps : Nat
  state : TaskState := .waiting
  stamp : Nat := 0
  queuedAt : Nat := 0
  order : Nat := 0
  goes : Option Nat := none
  reread : Bool := false
  status : Nat := 0
  failAddr : Nat := 0
  deriving DecidableEq, Repr

/-- Where a Sheaf image lies (R199): in the pool, or in host memory of a function under a PASID. -/
inductive SheafSrc | pool | host (f pasid : Nat)
  deriving DecidableEq, Repr

/-- A Submit that waits for admission (R199, R200). -/
structure SubmitReq where
  who : Asker
  eid : Option Nat
  part : Nat
  src : SheafSrc
  addr : Nat
  cookie : Nat
  at_ : Nat
  deriving DecidableEq, Repr

/-- A resident Sheaf (R193, R201, R218). abort: the status with which it is being ended early. closed: the status it ended with,
while its records are written, and stage how far that has come. -/
structure Sheaf where
  part : Nat
  src : SheafSrc
  addr : Nat
  cookie : Nat
  policy : Nat
  doneMask : Nat
  descOff : Nat
  edgeOff : Nat
  wdogMs : Nat
  record : Nat
  statusArr : Nat
  subs : List Nat
  admitAt : Nat
  endAt : Nat := 0
  visits : Nat := 0
  tasks : List TaskRt
  abort : Option Nat := none
  failed : Bool := false
  sums : Tally := {}
  closed : Option Nat := none
  stage : Nat := 0
  deriving DecidableEq, Repr

/-- A task end that a Thresher has still to process (R207): the slot and task, the status with FAIL_ADDR, the counts, when the task ended,
the lines of its successor list that have been read again, and whether the list matches (R202). -/
structure EndRec where
  slot : Nat
  task : Nat
  status : Nat
  failAddr : Nat
  tally : Tally
  at_ : Nat := 0
  lines : Map StoreLine := []
  reread : Bool := false
  deriving DecidableEq, Repr

/-- A Thresher (R200, R201, R207): the Submits that wait, the one in admission first; the image lines read for it; the slot reserved for it
with its header, once order 3 has been passed; the task ends to process; and the ready queue of its quadrant is the tasks of every Sheaf in
state ready whose home it is. -/
structure Thresher where
  wait : List SubmitReq := []
  fetched : Map StoreLine := []
  room : Option (Nat × Bytes) := none
  ends : List EndRec := []
  deriving DecidableEq, Repr

/-! ## Host interface (R307 to R335) -/

/-- A command in progress (R314, R315): its function, SEQ and record, the partition it was taken under, whether its executor has
started on it, whether an FLR has taken its answer away (R325), and when it was taken. -/
structure CmdRec where
  f : Nat
  seq : Nat
  bytes : Bytes
  part : Option Nat
  started : Bool := false
  lost : Bool := false
  at_ : Nat := 0
  deriving DecidableEq, Repr

/-- A function with its command window (R307, R308, R313 to R317): what the host has set in its configuration space, the submitted records by
slot with their SEQ, the answers and events in slots that are not free, and what CW_CONFIG set. PRESUMED (log entry 82): a payload of
128 B and a read request of 512 B at most after a reset, as PCIe has them. -/
structure Win where
  enabled : Bool := false
  busMaster : Bool := false
  memory : Bool := false
  d3hot : Bool := false
  mps : Nat := 0
  mrrs : Nat := 2
  subs : Map (Nat × Bytes) := []
  nextSeq : Nat := 1
  answers : Map Bytes := []
  nextEvt : Nat := 1
  events : Map Bytes := []
  lost : Nat := 0
  ansMirror : Nat := 0
  evtMirror : Nat := 0
  ansVec : Option Nat := none
  evtVec : Option Nat := none
  mgmtWait : Bool := false
  deriving DecidableEq, Repr

/-- What the hub sends on PCIe, in order (R311, R316, R317, R324, R327, R328, R332): a read or write is translated, or untranslated with a
PASID, or untranslated; cfgUr: a configuration request answered with UR (R380). -/
inductive PcieOut
  | write (f : Nat) (pasid : Option Nat) (addr : Nat) (bytes : Bytes) (ep : Bool)
  | read (f : Nat) (pasid : Option Nat) (addr n : Nat)
  | msix (f vec : Nat)
  | cpl (tag : Nat) (bytes : Bytes) (ep : Bool)
  | cplAbort (tag : Nat)
  | cplUr (tag : Nat)
  | cfgUr (f : Nat)
  | transReq (f pasid page : Nat)
  | pageReq (f pasid page : Nat) (w : Bool) (index : Nat)
  | invCpl (f itag : Nat)
  deriving DecidableEq, Repr

/-- A transfer (R330): a descriptor of a MOVE, the fetch of a MOVE's next descriptor, a sequencer's image fetch, or a descriptor re-read, all of
which may fault; and the read of a command of the management controller. -/
inductive Xfer
  | desc (f seq desc : Nat)
  | list (f seq : Nat)
  | image (q f seq : Nat)
  | reread (slot task : Nat)
  | mgmt (f seq : Nat)
  deriving DecidableEq, Repr

/-- A transfer's read of host memory that is outstanding (R307, R332): its engine, 12 for the management controller, a number of its own, the
ranges of pages that the translations under which it was sent take in, how many requests of it are outstanding, and how many are still
to be sent. -/
structure ReadOut where
  x : Xfer
  engine : Nat
  id : Nat
  f : Nat
  pasid : Nat
  spans : List (Nat × Nat)
  sent : Nat
  left : Nat
  deriving DecidableEq, Repr

/-- An entry of the ATC (R326), or of a sequencer's micro-TLB: the untranslated page number, the size 4 KiB × 2^k, the translated
address and the rights. -/
structure AtcEnt where
  f : Nat
  pasid : Nat
  page : Nat
  k : Nat
  addr : Nat
  r : Bool
  w : Bool
  u : Bool
  stamp : Nat
  deriving DecidableEq, Repr

/-- A Translation Request outstanding (R327, R332): stale after an invalidation of its range. -/
structure TransOut where
  f : Nat
  pasid : Nat
  page : Nat
  stale : Bool
  deriving DecidableEq, Repr

/-- A page request (R328 to R331): not sent yet, or sent with its PRG index, its time and its time limit; gone tells that its waiters
have failed while the index stays in use. -/
structure PageReq where
  f : Nat
  pasid : Nat
  page : Nat
  write : Bool
  sent : Option (Nat × Nat) := none
  limit : Nat := 0
  gone : Bool := false
  deriving DecidableEq, Repr

/-- What a transfer waits for: a Translation Completion, or in the parked list a PRG Response (R327, R330). -/
structure XferWait where
  x : Xfer
  engine : Nat
  f : Nat
  pasid : Nat
  page : Nat
  write : Bool
  parked : Bool
  at_ : Nat
  deriving DecidableEq, Repr

/-- The state of a descriptor of a MOVE (R322 to R324): waiting to start, running at an offset, failed with a status, or ended; and
the first poisoned byte that it moved. -/
structure DescRt where
  bytes : Bytes
  started : Bool := false
  off : Nat := 0
  ended : Bool := false
  status : Nat := 0
  poison : Option Nat := none
  deriving DecidableEq, Repr

/-- A MOVE in progress (R322, R324). -/
structure MoveRt where
  f : Nat
  seq : Nat
  mover : Nat
  list : Nat
  pasid : Nat
  count : Nat
  part : Nat
  fetched : Nat := 0
  descs : Map DescRt := []
  failed : Bool := false
  deriving DecidableEq, Repr

/-- An invalidation held (R332): the function, its ITag, the engines that have not acknowledged, and the reads under overlapping translations
for which they wait. -/
structure Inval where
  f : Nat
  itag : Nat
  left : List Nat
  reads : List Nat := []
  deriving DecidableEq, Repr

/-- An aperture read (R311): its tag, the parts of it that have not been completed, each a line with the bytes of it that are read,
and what the lines have ended with. -/
structure AptRead where
  tag : Nat
  left : List (Nat × Nat × Nat)
  got : Map (Nat × Bytes × Bool) := []
  deriving DecidableEq, Repr

/-! ## Security and power (R368 to R416) -/

/-- 32 bytes of 0. -/
def zeros32 : Bytes := List.replicate 32 0

/-- A secured SPDM session (R378): the negotiation it belongs to, whether its handshake has finished, and its key generation. -/
structure Session where
  id : Nat
  finished : Bool := false
  keys : Nat := 0
  deriving DecidableEq, Repr

/-- What the SPDM responder answers (R378, R379): the fields of each response that this manual fixes. Its nonces and exchange data are
free values. version: the entries of the version list; capabilities: the flags; algorithms: the selected measurement specification,
measurement hash, asymmetric and hash algorithm, DHE group and AEAD suite. -/
inductive SpdmRsp
  | version (entries : List Nat)
  | capabilities (flags : Nat)
  | algorithms (measSpec measHash baseAsym baseHash dhe aead : Nat)
  | digests (slotMask : Nat) (digest : Bytes)
  | certificate (slot : Nat) (part : Bytes) (rest : Nat)
  | challengeAuth (slot : Nat) (chainHash measHash sig : Bytes)
  | measurements (count : Nat) (blocks : List Bytes) (nonce sig : Bytes)
  | keyExchange (session : Nat) (exchange sig : Bytes)
  | finish (session : Nat)
  | heartbeatAck
  | keyUpdateAck (op : Nat)
  | endSessionAck (session : Nat)
  | ideKm (req : IdeKm) (streams : Nat)
  | error (code : Nat)
  deriving DecidableEq, Repr

/-- What the SFDP of the boot flash gives the controller at each cold and warm reset (R451): the capacity in MiB, and the read, erase and program
commands that it selects. PRESUMED (log entry 38): a device of 128 MiB with the usual codes, where nothing else is said. -/
structure Sfdp where
  mib : Nat := 128
  readOp : Byte := 0xEC
  eraseOp : Byte := 0xDC
  progOp : Byte := 0x12
  deriving DecidableEq, Repr

/-- The OTP bits (R368). -/
structure Otp where
  vendorHash : Bytes := zeros32
  uds : Bytes := zeros32
  serial : DWord := 0
  minSvn : Nat := 0
  ownerSet : Bool := false
  ownerHash : Bytes := zeros32
  kek : Bytes := zeros32
  deriving DecidableEq, Repr

/-- A power transition that runs (R396 to R403): the command, the state and mask it goes to, its deadline, and
whether the ports are being closed for HOLD. -/
structure PwrMove where
  cmd : CmdId
  state : Nat
  mask : Nat
  deadline : Nat
  closing : Bool := false
  deriving DecidableEq, Repr

end Sys2Proof.Machine
end

