-- ==== Sys2Proof/Machine/State.lean ====
section
/-! DEFINITION. The state of the pool controller: every register, table, queue, counter and pin that the chapters of the
manual give it, and the queue of commands that wait. -/

namespace Sys2Proof.Machine

/-- Why the machine stops with a fault. No command of this block faults: the manual reports every error of the block in a
status, a flag or a log record, and the machine goes on. There is no constructor. -/
inductive Fault
  deriving DecidableEq, Repr

/-- Why a command is turned away by the model. -/
inductive Refusal
  /-- A command that has no meaning yet; raised by an arm of exec; safe. -/
  | notModelled (mnemonic : String)
  deriving DecidableEq, Repr

/-- Structure control (R62 to R75). boot: the flash image whose load waits for the Husk channels' SPD (R62, R80). -/
structure StrSt where
  loaded : Bool := false
  locked : Bool := false
  last : Nat := 0
  epoch : DWord := 0
  run : Struct := {}
  staged : Option Staged := none
  commit : Option Commit := none
  boot : Option Bytes := none
  deriving DecidableEq, Repr

/-- Pool storage and the work that moves and zeroes it (R76 to R105, R336 to R352). stopped: moves that stopped because their
extent started draining, by granule (R88). badChecks: by how much a check line differs from the parity of its data lines, by row times 24 plus
channel (R346); revived: lines of void rows that have been written anew through their stripe. used: the slots of each allowance taken in the 10 µs window numbered window. -/
structure Pool where
  cellsA : Cells := []
  cellsB : Cells := []
  cellsG : Cells := []
  metaA : Tab LineMeta := []
  metaB : Tab LineMeta := []
  metaG : Tab LineMeta := []
  inj : Map Bytes := []
  injected : List Nat := []
  badChecks : Map Bytes := []
  revived : List Nat := []
  frames : Map Nat := []
  migs : Map Mig := []
  stopped : Map Mig := []
  cleanQ : List Nat := []
  used : Tab Nat := []
  window : Nat := 0
  zeroOn : Bool := false
  zeroDoneH : List Nat := []
  zeroDoneG : List Nat := []
  zeroCur : Map (Nat × Nat) := []
  capGib : Nat := 0
  speed : Nat := 0
  usable : Nat := 0
  deriving DecidableEq, Repr

/-- The channels of the two tiers (R80, R341, R345, R348 to R352). scrubG, scrubGAt: the next Grain line of a quadrant's patrol scrub, and when
its last was read. -/
structure Chans where
  husk : Tab HuskChan := []
  grain : Tab GrainChan := []
  layers : List Nat := []
  layersTested : List Nat := []
  scrubG : Tab Nat := []
  scrubGAt : Tab Nat := []
  deriving DecidableEq, Repr

/-- A lease at the lease master (R93, R94): live with its deadline, or lapsed. -/
structure Lease where
  live : Bool
  lapsed : Bool
  deadline : Nat
  deriving DecidableEq, Repr

/-- Extents, leases and revocations at run time (R89 to R101). expPend, revPend: what each home agent has still to take.
dead: the hosts whose expiry each home agent has taken. revCmds: the EXTENT_REVOKE commands that wait for every home agent. -/
structure ExtSt where
  exts : Map ExtRt := []
  leases : Map Lease := []
  expPend : List (Nat × Nat) := []
  revPend : List (Nat × RevokeKey) := []
  dead : List (Nat × Nat) := []
  revCmds : List (CmdId × Nat) := []
  deriving DecidableEq, Repr

/-- Home agents (R106 to R129). serving: header bytes 0 to 15 of the request whose transaction moves on in this step (R437). -/
structure Coh where
  txns : List Txn := []
  queue : List QEnt := []
  jobs : Map Job := []
  landed : List Landed := []
  dir : Map DirEnt := []
  stamp : Nat := 0
  agents : Map Agent := []
  timeouts : Tab Nat := []
  suspended : List (Nat × Nat) := []
  suspendPend : List (Nat × Nat) := []
  walks : List Walk := []
  rat : List RatEnt := []
  pred : Tab Nat := []
  setLost : List SetLost := []
  nextTxn : Nat := 0
  nextSnp : Nat := 0
  nextJob : Nat := 0
  serving : Bytes := []
  deriving DecidableEq, Repr

/-- Routers, messages and links (R32 to R36, R234 to R287). d2d: by source die times 5 plus destination die; d2dFailed: the links
marked failed, as the lower and the higher die. arr: the worms that these links have brought and that wait to be routed; ejq: the ejection
queues. ended: the requests of the controller that ended without an answer, as destination, MSG_ID and status (R255, R256). -/
structure Fab where
  links : Tab Link := []
  d2d : Tab D2d := []
  d2dFailed : List (Nat × Nat) := []
  inj : Tab (List Msg) := []
  ctxs : List Ctx := []
  msgIds : Tab Nat := []
  traceCtr : Nat := 0
  outReqs : List OutReq := []
  ended : List (Nat × Nat × Nat) := []
  arr : List Arrived := []
  ejq : List Ejected := []
  policed : Map Policed := []
  holds : List Hold := []
  lastLoad : Tab Nat := []
  deriving DecidableEq, Repr

/-- Shaping, policing, gates and samplers (R288 to R306). smpAt: when the samplers sampled last. -/
structure Traf where
  ents : Map TrafRt := []
  stagedRegs : List Nat := []
  gates : Map GateRt := []
  smp : Tab Sampler := []
  smpAt : Option Nat := none
  deriving DecidableEq, Repr

/-- Tillers, Threshers and resident Sheafs (R152 to R220). order: the next number of the order of readiness. tds: the T-step
account of Tiller k in class c at 6k + c (R425). -/
structure Work where
  tillers : Tab Tiller := []
  thr : Tab Thresher := []
  sheafs : Map Sheaf := []
  order : Nat := 0
  tds : Tab Nat := []
  deriving DecidableEq, Repr

/-- Rings, logs, traces and the hang snapshot (R427 to R438). dumpAt: the last multiple of the dump period that has been
served, dumpSeq and dumpSkip: the SEQ of the next dump record and the dumps skipped since the last. stopped: a snapshot has stopped
issue. ring0Bad: the poisoned lines of the default log ring (R428). waits: the hub's accepted writes of lines that are busy, cached or mirrored, each with the number that the next transaction had. -/
structure Rings where
  log : Ring := {}
  dump : Ring := {}
  trace : Ring := {}
  ring0 : Cells := []
  ring0Bad : List Nat := []
  buffer : List LogRec := []
  dumpAt : Nat := 0
  dumpSeq : Nat := 0
  dumpSkip : Nat := 0
  snap : Option Snap := none
  stopped : Bool := false
  waits : List QEnt := []
  deriving DecidableEq, Repr

/-- The pair (R353 to R364). role: 0 unpaired, 1 primary, 2 standby. inSync: a standby has read IN_SYNC, or a primary has written
it. hbSeq: the SEQ of the last Heartbeat sent, with its time; hbSent: how many of the last 16 have been sent. witAt, peerAt: when
the last Heartbeat of each arrived; witSince: from when the witness is waited for. t0: the start of the gap; sweep: the SnpSets of the gap not answered, as agent and quadrant. copy: the line that the
copy to a rejoining standby reaches next, as extent and line, and copyAt the time, ps, from which it may go on; copies: its lines that
wait for the peer's Cmp, by MSG_ID with line and time limit. poisons: the same for poisoned lines sent to the peer (R353). heard: has the peer written the checkpoint's header since the controller became a
standby. pins: what PAIR_STATE shows. -/
structure Pair where
  role : Nat := 0
  solo : Bool := false
  fenced : Bool := false
  gap : Bool := false
  inSync : Bool := false
  term : Nat := 0
  hbSeq : Nat := 0
  hbSent : Nat := 0
  hbAt : Option Nat := none
  witAt : Option Nat := none
  peerAt : Option Nat := none
  witSince : Nat := 0
  ckptSeq : Nat := 0
  ckptAt : Nat := 0
  eseq : Nat := 0
  t0 : Nat := 0
  sweep : List (Nat × Nat) := []
  copy : Option (Nat × Nat) := none
  copyAt : Nat := 0
  copies : List (Nat × Nat × Nat) := []
  poisons : List (Nat × Nat × Nat) := []
  heard : Bool := false
  pins : Nat := 0
  deriving DecidableEq, Repr

/-- The hub's host interface (R307 to R335). out: what has been sent on PCIe; held: what waits for an IDE stream (R380). priOn, alloc, stopped: the PRI state of each function. faults:
the transfers that have faulted, with the page and how often in a row (R331). reads: the outstanding reads of host memory. aer: the AER
uncorrectable error status of each function (R307). -/
structure Hub where
  wins : Tab Win := []
  inProg : List CmdRec := []
  out : List PcieOut := []
  held : List PcieOut := []
  apt : List AptRead := []
  numVfs : Nat := 0
  moves : List MoveRt := []
  atc : List AtcEnt := []
  tlb : Tab (List AtcEnt) := []
  trans : List TransOut := []
  prqs : List PageReq := []
  waits : List XferWait := []
  faults : List (Xfer × Nat × Nat) := []
  invs : List Inval := []
  reads : List ReadOut := []
  aer : Tab Nat := []
  priOn : List Nat := []
  alloc : Tab Nat := []
  stopped : List Nat := []
  stamp : Nat := 0
  deriving DecidableEq, Repr

/-- The management controller (R41 to R45). resetting: a management reset runs; ended: when the last one ended; failed: R45; reanswer:
the STRUCT_COMMIT that is answered after the reset; fwImage: the firmware image that runs; fwWriting: the FW_UPDATE whose slot is erased,
and the image that it writes (R373); spi: what the SFDP of the flash gave at the last reset (R451); fetched: the pool lines read for the
delta that is being staged; wrote: the length of the image that a STRUCT_READBACK has written, and saved what its lines held before, with
their poison flags and what it writes (R44); wdAt: when its watchdog last started anew (R42). -/
structure Mgmt where
  resetting : Bool := false
  ended : Option Nat := none
  failed : Bool := false
  reanswer : Option CmdId := none
  fwImage : Bytes := []
  fwWriting : Option (CmdId × Bytes) := none
  spi : Sfdp := {}
  fetched : Map StoreLine := []
  wrote : Nat := 0
  saved : Map (Bytes × Bool × Bytes) := []
  wdAt : Nat := 0
  deriving DecidableEq, Repr

/-- The security block (R368 to R392). structKeys, witnessKey, debugKey: the keys of the owner manifest in force, and fwKey of the
vendor manifest. otp: the OTP bits as the block holds them, of which UDS can be read while udsOpen (R371); kek: KEK as read at the last
reset; kCal: K_CAL. deviceKey and aliasKey: the private numbers of the DeviceID and the Alias key, and cdi: the CDI (R371, R377).
guard: the Guard set since the last cold reset: the issuer keys are held as it gives them, wrapped under KEK. last: LAST of each
issuer. meas: the measurement blocks that are digests. nonce: the debug nonce with its time. chain: the certificate chain of slot 0.
spdm: how far the negotiation has come. spdmOut: what the responder has answered, over MCTP (true) or DOE. -/
structure Sec where
  bootId : Bytes := List.replicate 8 0
  recovery : Bool := false
  ownerless : Bool := false
  zeroised : Bool := false
  debug : Nat := 0
  nonce : Option (Bytes × Nat) := none
  structKeys : List Bytes := []
  witnessKey : Bytes := []
  debugKey : Bytes := []
  fwKey : Bytes := []
  otp : Otp := {}
  kek : Bytes := []
  kCal : Bytes := []
  guard : Option Guard := none
  last : Tab Nat := []
  meas : Map Bytes := []
  svn : Nat := 0
  keySlots : Map Bytes := []
  udsOpen : Bool := true
  deviceKey : Option Nat := none
  cdi : Option Bytes := none
  aliasKey : Option Nat := none
  chain : Bytes := []
  spdm : Nat := 0
  spdmOut : List (Bool × SpdmRsp) := []
  sessions : List Session := []
  ideKeys : Map Bytes := []
  ideActive : List Nat := []
  deriving DecidableEq, Repr

/-- Is there an Alias key. -/
def Sec.aliasUp (s : Sec) : Bool := s.aliasKey.isSome

/-- UDS as the security block reads it: closed from order 3 of the boot chain to the next reset (R371). -/
def Sec.readUds (s : Sec) : Option Bytes := if s.udsOpen then some s.otp.uds else none

/-- Power, temperature and calibration (R393 to R416). temps: the last readings of the thermal monitor; scanAt: when they came;
scanned: has it read them since the last cold or warm reset (R405, R407). -/
structure Pwr where
  on : Bool := true
  state : Nat := 0
  mask : Nat := 0
  move : Option PwrMove := none
  vcore : Nat := 750
  vcoreCmd : Option (CmdId × Nat × Nat) := none
  warm : Option Nat := none
  cause : Nat := 1
  temps : List Int := []
  scanAt : Option Nat := none
  scanned : Bool := false
  warn : Bool := false
  trip : Bool := false
  holding : Bool := false
  frozenLeases : Map Nat := []
  calSet : Option Bytes := none
  calLost : Bool := false
  calWriting : Option (CmdId × Bytes) := none
  deriving DecidableEq, Repr

/-- The sideband pins that the controller drives (R447): true is asserted; THERM_WARN_N and THERM_TRIP_N are in Pwr and PAIR_STATE in
Pair. smb: what the SMBus target last returned; none: NACK (R449). tap, tdo: the JTAG instruction and what its data register
holds (R450); boundary: the cells preloaded, and extest: does EXTEST drive the lands from them. straps: SMB_ADDR1 and SMB_ADDR0 as sampled at
the last cold reset (R449; DESIGN CHOICE, log entry 38: 3 in State.reset, as straps left open read). drst: the Husk channels whose DIMM reset is driven low (R351, R445). -/
structure Pins where
  devFault : Bool := false
  devReady : Bool := false
  smb : Option Byte := none
  drst : List Nat := []
  tap : Nat := 1
  tdo : Word := 0x12400D1B
  boundary : Word := 0
  extest : Bool := false
  straps : Nat := 3
  deriving DecidableEq, Repr

/-- Everything but what outlives the loss of power. regs: the registers that differ from their reset value, by BAR0 offset. dead: the
device answers on no port: a quadrant is lost (R35), or its rails are off (R394, R402). tb: the timebase, ns; frozen: its reference is
lost (R418). fresh: the model's own counter of free values. aon: the always-on counters, pcs: the programmable ones (R421, R422). -/
structure Blk where
  regs : Tab Word := []
  dead : Bool := false
  pins : Pins := {}
  tb : Nat := 0
  frozen : Bool := false
  fresh : Nat := 0
  aon : Tab Nat := []
  pcs : Tab Pc := []
  str : StrSt := {}
  pool : Pool := {}
  chans : Chans := {}
  ext : ExtSt := {}
  coh : Coh := {}
  fab : Fab := {}
  traf : Traf := {}
  work : Work := {}
  rings : Rings := {}
  pair : Pair := {}
  hub : Hub := {}
  mgmt : Mgmt := {}
  sec : Sec := {}
  pwr : Pwr := {}
  deriving DecidableEq, Repr

/-- What keeps its contents without power: the OTP bits (R368), the boot flash (R369) and the SFDP of its device (R451). -/
structure Nv where
  otp : Otp := {}
  flash : Cells := []
  sfdp : Sfdp := {}
  deriving DecidableEq, Repr

/-- The state of the machine: the block, its non-volatile memory, and the queue of the commands that wait, first in, first out. -/
structure State where
  blk : Blk := {}
  nv : Nv := {}
  pending : List Instr := []
  deriving DecidableEq, Repr

/-- The machine right after reset: every register at its Reset value, the pins as R448 leaves them, no structure loaded. What the
manual leaves to the factory and to chance (the OTP bits, the flash, BOOT_ID) is 0 here; the boot chain runs with COLD_RESET. -/
def State.reset : State := { blk := { pair := { pins := 3 } } }

end Sys2Proof.Machine
end

