-- ==== Sys2Proof/Machine/Act.lean ====
section
/-! DEFINITION. How a change of the block becomes the outcome of a command: the queue and the non-volatile memory stay as they are. -/

namespace Sys2Proof.Machine

/-- The outcome of a command. -/
abbrev Out := Host.Outcome State Fault Refusal

/-- A command that changes the block. -/
def act (f : Blk → Blk) (s : State) : Out := .next { s with blk := f s.blk }

/-- A command that changes the block of a device that is up: one whose quadrant is lost, or whose rails are off, does nothing more
(R35, R394, R402). -/
def live (f : Blk → Blk) (s : State) : Out := .next { s with blk := if s.blk.dead then s.blk else f s.blk }

end Sys2Proof.Machine
end

