-- ==== Sys2Proof/Machine/Bytes.lean ====
section
/-! DEFINITION. Strings of bytes: slices, little-endian fields (R19) and their writing. -/

namespace Sys2Proof.Machine

/-- A slice: n bytes from offset o; past the end it is shorter. -/
def sl (bs : Bytes) (o n : Nat) : Bytes := (bs.drop o).take n

/-- The number that a little-endian string of bytes holds (R19). -/
def leNat : Bytes → Nat
  | [] => 0
  | x :: t => x.toNat + 256 * leNat t

/-- The number that a big-endian string of bytes holds. -/
def beNat (bs : Bytes) : Nat := leNat bs.reverse

/-- The little-endian field of n bytes at offset o; bytes past the end read as 0. -/
def le (bs : Bytes) (o n : Nat) : Nat := leNat (sl bs o n)

/-- The byte at an offset, as a number; past the end 0. -/
def u8 (bs : Bytes) (o : Nat) : Nat := (bs.getD o 0).toNat

/-- A number as n little-endian bytes. -/
def toLe : Nat → Nat → Bytes
  | 0, _ => []
  | n + 1, v => BitVec.ofNat 8 v :: toLe n (v / 256)

/-- A number as n big-endian bytes. -/
def toBe (n v : Nat) : Bytes := (toLe n v).reverse

/-- n bytes of 0. -/
def zeros (n : Nat) : Bytes := List.replicate n 0

/-- Is every byte 0. -/
def allZero (bs : Bytes) : Bool := bs.all (· == 0)

/-- The string with another written over it from offset o, within its length. -/
def patch (bs : Bytes) (o : Nat) (new : Bytes) : Bytes :=
  (bs.take o ++ new ++ bs.drop (o + new.length)).take bs.length

/-- The string cut or filled with zeros to n bytes. -/
def fit (n : Nat) (bs : Bytes) : Bytes := bs.take n ++ zeros (n - bs.length)

/-- The bytes of the new string where the mask is set, of the old elsewhere (R111). -/
def mergeMask (mask : BitVec 128) (old new : Bytes) : Bytes :=
  (List.range 128).map (fun i => if mask.getLsbD i then new.getD i 0 else old.getD i 0)

/-- Bit i of a number. -/
def bit (v i : Nat) : Bool := v.testBit i

/-- A number for a flag. -/
def b2n (b : Bool) : Nat := if b then 1 else 0

/-- Bits hi:lo of a number (R18). -/
def fld (v hi lo : Nat) : Nat := (v >>> lo) % 2 ^ (hi - lo + 1)

/-- Exclusive or of two strings, as long as the shorter. -/
def xorBytes (a b : Bytes) : Bytes := List.zipWith (· ^^^ ·) a b

end Sys2Proof.Machine
end

