-- ==== Sys2Proof/Machine/Fec.lean ====
section
/-! DEFINITION. The forward error correction of a Narmor link: RS(544,514) over GF(2^10), which corrects up to 15 symbols (R264). PRESUMED (log
entry 83): the field polynomial, the roots of the generator and the order of the symbols are those that KP4 names in IEEE 802.3. -/

namespace Sys2Proof.Machine

/-- A field element times alpha, modulo x^10 + x^3 + 1. -/
def gfStep (x : Nat) : Nat := if 512 ≤ x then (2 * x) ^^^ 1033 else 2 * x

/-- A product of field elements: n bits of the second still to come. -/
def gfMulN : Nat → Nat → Nat → Nat
  | 0, _, _ => 0
  | n + 1, a, y => (if y % 2 = 1 then a else 0) ^^^ gfMulN n (gfStep a) (y / 2)

/-- A product of field elements. -/
def gfMul (a y : Nat) : Nat := if a = 0 || y = 0 then 0 else gfMulN 10 a y

/-- A power of a field element. -/
def gfPow (a : Nat) : Nat → Nat
  | 0 => 1
  | n + 1 => gfMul a (gfPow a n)

/-- The inverse of a field element, 0 for 0: the power 1,022, by squaring nine times. -/
def gfInv (a : Nat) : Nat :=
  ((List.range 9).foldl (fun (s : Nat × Nat) _ => let q := gfMul s.1 s.1; (q, gfMul s.2 q)) (a, 1)).2

/-- The value at a point of a polynomial given by its coefficients, lowest first. -/
def gfEval (p : List Nat) (x : Nat) : Nat := p.foldr (fun c acc => c ^^^ gfMul x acc) 0

/-- Symbol k of a codeword: it travels on lane k mod 4 (R264). -/
def cwSymbol (c : Codeword) (k : Nat) : Nat := ((c.lanes.getD (k % 4) []).getD (k / 4) 0).toNat

/-- The 30 syndromes of a codeword, whose first symbol stands at the highest power. -/
def cwSyndromes (c : Codeword) : List Nat :=
  let p := (List.range 544).map (fun i => cwSymbol c (543 - i))
  (List.range 30).map (fun j => gfEval p (gfPow 2 j))

/-- The search for the error locator: the locator so far, the one before its last change of length, the length, how far that lies back, and
the discrepancy there. -/
structure Locator where
  now : List Nat
  old : List Nat
  len : Nat
  back : Nat
  disc : Nat

/-- Two polynomials added. -/
def gfAdd : List Nat → List Nat → List Nat
  | [], q => q
  | p, [] => p
  | a :: p, y :: q => (a ^^^ y) :: gfAdd p q

/-- The search taken on by the n-th syndrome. -/
def Locator.next (s : List Nat) (l : Locator) (n : Nat) : Locator :=
  let d := (List.range (l.len + 1)).foldl (fun acc i => acc ^^^ gfMul (l.now.getD i 0) (s.getD (n - i) 0)) 0
  if d = 0 then { l with back := l.back + 1 }
  else
    let f := gfMul d (gfInv l.disc)
    let new := gfAdd l.now (List.replicate l.back 0 ++ l.old.map (gfMul f))
    if 2 * l.len ≤ n then ⟨new, l.now, n + 1 - l.len, 1, d⟩ else { l with now := new, back := l.back + 1 }

/-- How many of n places, from a point on, the roots of a locator name as wrong; each next point is the last over alpha. -/
def rootCount (p : List Nat) : Nat → Nat → Nat
  | 0, _ => 0
  | n + 1, x => (if gfEval p x = 0 then 1 else 0) + rootCount p n (gfMul x (gfInv 2))

/-- A codeword decoded: how many symbols are corrected, 15 at most; none where it is uncorrectable (R264, R265). -/
def cwDecode (c : Codeword) : Option Nat :=
  let s := cwSyndromes c
  if s.all (· == 0) then some 0
  else
    let l := (List.range 30).foldl (Locator.next s) ⟨[1], [1], 0, 1, 1⟩
    if l.len ≤ 15 && rootCount l.now 544 1 = l.len then some l.len else none

end Sys2Proof.Machine
end

