-- ==== Sys2Proof/Machine/Fp.lean ====
section
/-! DEFINITION. Number formats, scales and the Awn guard: element values, rounding, conversion, block partials, bounds and
verdicts (R119, R130 to R150). Finite values are exact rationals; rounding happens where the manual rounds. -/

namespace Sys2Proof.Machine

/-! ## Values -/

/-- A value: a finite number (neg is the sign of a zero), an infinity or a NaN. -/
inductive Val
  | fin (q : Rat) (neg : Bool)
  | inf (neg : Bool)
  | nan (neg : Bool)
  deriving DecidableEq, Repr

/-- Zero. -/
def Val.zero : Val := .fin 0 false

/-- A finite number, its zero positive. -/
def Val.num (q : Rat) : Val := .fin q false

/-- Is a value finite. -/
def Val.isFin : Val → Bool
  | .fin _ _ => true
  | _ => false

/-- Is a value a NaN. -/
def Val.isNan : Val → Bool
  | .nan _ => true
  | _ => false

/-- Is a value an infinity. -/
def Val.isInf : Val → Bool
  | .inf _ => true
  | _ => false

/-- The sign of a value. -/
def Val.sign : Val → Bool
  | .fin q n => if q = 0 then n else decide (q < 0)
  | .inf n => n
  | .nan n => n

/-- The exact sum, with infinities and NaNs as in IEEE 754 (R140). -/
def Val.add : Val → Val → Val
  | .nan n, _ => .nan n
  | _, .nan n => .nan n
  | .inf a, .inf b => if a = b then .inf a else .nan false
  | .inf a, _ => .inf a
  | _, .inf b => .inf b
  | .fin p a, .fin q b => .fin (p + q) (a && b && decide (p = 0) && decide (q = 0))

/-- The negative of a value. -/
def Val.negate : Val → Val
  | .fin q n => .fin (-q) (!n)
  | .inf n => .inf (!n)
  | .nan n => .nan (!n)

/-- The exact product. -/
def Val.mul (x y : Val) : Val :=
  let s := x.sign != y.sign
  match x, y with
  | .nan n, _ => .nan n
  | _, .nan n => .nan n
  | .fin p _, .fin q _ => .fin (p * q) s
  | .inf _, .fin q _ => if q = 0 then .nan false else .inf s
  | .fin p _, .inf _ => if p = 0 then .nan false else .inf s
  | .inf _, .inf _ => .inf s

/-- The magnitude. -/
def Val.mag : Val → Val
  | .fin q _ => .fin (if q < 0 then -q else q) false
  | .inf _ => .inf false
  | .nan n => .nan n

/-! ## Rounding -/

/-- A power of two. -/
def pow2 (e : Int) : Rat := if 0 ≤ e then (2 : Rat) ^ e.toNat else 1 / (2 : Rat) ^ (-e).toNat

/-- The floor of the binary logarithm of a positive number. -/
def ilog2 (q : Rat) : Int :=
  let e : Int := (Nat.log2 q.num.natAbs : Int) - Nat.log2 q.den
  if pow2 e ≤ q then e else e - 1

/-- The magnitude of a rational. -/
def ratAbs (q : Rat) : Rat := if q < 0 then -q else q

/-- The rounding directions that the manual uses. -/
inductive Dir | near | up | down
  deriving DecidableEq, Repr

/-- A number rounded to an integer. -/
def roundInt (d : Dir) (x : Rat) : Int :=
  let f := x.floor
  let r := x - f
  match d with
  | .down => f
  | .up => if r = 0 then f else f + 1
  | .near => if r < 1/2 then f else if 1/2 < r then f + 1 else if f % 2 = 0 then f else f + 1

/-- A number rounded to mb mantissa bits, with exponents from emin up without limit. -/
def roundTo (d : Dir) (emin : Int) (mb : Nat) (q : Rat) : Rat :=
  if q = 0 then 0
  else
    let u := pow2 (max (ilog2 (ratAbs q)) emin - mb)
    roundInt d (q / u) * u

/-! ## FP32 and BF16 -/

/-- A binary float of 8 exponent bits and mb mantissa bits as a value. -/
def wideVal (mb : Nat) (code : Nat) : Val :=
  let m := code % 2 ^ mb
  let e := code / 2 ^ mb % 256
  let s := code / 2 ^ (mb + 8) % 2 == 1
  if e = 255 then (if m = 0 then .inf s else .nan s)
  else
    let v : Rat := if e = 0 then m * pow2 (-126 - mb) else (2 ^ mb + m : Nat) * pow2 ((e : Int) - 127 - mb)
    .fin (if s then -v else v) s

/-- The code of an exactly representable magnitude. -/
def wideMag (mb : Nat) (r : Rat) : Nat :=
  if r = 0 then 0
  else
    let e := max (ilog2 r) (-126)
    (e + 126).toNat * 2 ^ mb + (r / pow2 (e - mb)).num.natAbs

/-- The code of a value, rounded to nearest, ties to even; overflow gives an infinity and every NaN is canonical (R140). -/
def wideCode (mb : Nat) (v : Val) : Nat :=
  let top := 255 * 2 ^ mb
  let sg := fun (s : Bool) => b2n s * 2 ^ (mb + 8)
  match v with
  | .nan _ => top + 2 ^ (mb - 1)
  | .inf s => sg s + top
  | .fin q n =>
    let r := ratAbs (roundTo .near (-126) mb q)
    sg (if q = 0 then n else decide (q < 0)) + min top (wideMag mb r)

/-- The value of FP32 bits. -/
def f32Val (w : Word) : Val := wideVal 23 w.toNat
/-- The FP32 bits of a value, rounded once. -/
def f32Of (v : Val) : Word := BitVec.ofNat 32 (wideCode 23 v)
/-- The value of BF16 bits. -/
def bf16Val (c : Nat) : Val := wideVal 7 c
/-- The BF16 bits of a value, rounded once. -/
def bf16Of (v : Val) : Nat := wideCode 7 v

/-- A value rounded to FP32, as a value. -/
def f32Rnd (v : Val) : Val := f32Val (f32Of v)

/-- A positive value rounded toward +∞ to FP32 (R146). -/
def f32Up (v : Val) : Val :=
  match v with
  | .fin q n => let r := roundTo .up (-126) 23 q; if pow2 128 ≤ r then .inf false else .fin r n
  | v => v

/-- A value that is not negative rounded toward −∞ to FP32 (R147). -/
def f32Down (v : Val) : Val :=
  match v with
  | .fin q n => let r := roundTo .down (-126) 23 q; if pow2 128 ≤ r then .fin (pow2 128 - pow2 104) n else .fin r n
  | v => v

/-- FP32 addition. -/
def f32Add (x y : Word) : Word := f32Of ((f32Val x).add (f32Val y))

/-- FADDBF16 on two lanes of 16 bits (R118, R119). -/
def faddBf16 (x y : Nat) : Nat :=
  let lane := fun (i : Nat) => bf16Of ((bf16Val (x / 2 ^ (16 * i) % 65536)).add (bf16Val (y / 2 ^ (16 * i) % 65536)))
  lane 0 + lane 1 * 65536

/-! ## Narrow formats (R130 to R134) -/

/-- The format codes of R130. -/
inductive Fmt | b1 | t2 | i3 | i4 | f4 | f6a | f6b | f8a | f8b | i8 | bf16 | fp32 | int32
  deriving DecidableEq, Repr

/-- The format of a code; none for 0xD to 0xF. -/
def fmtOf : Nat → Option Fmt
  | 0x0 => some .b1 | 0x1 => some .t2 | 0x2 => some .i3 | 0x3 => some .i4 | 0x4 => some .f4 | 0x5 => some .f6a
  | 0x6 => some .f6b | 0x7 => some .f8a | 0x8 => some .f8b | 0x9 => some .i8 | 0xA => some .bf16 | 0xB => some .fp32
  | 0xC => some .int32 | _ => none

/-- The width of an element in bits. -/
def Fmt.width : Fmt → Nat
  | .b1 => 1 | .t2 => 2 | .i3 => 4 | .i4 => 4 | .f4 => 4 | .f6a => 6 | .f6b => 6 | .f8a => 8 | .f8b => 8 | .i8 => 8
  | .bf16 => 16 | .fp32 => 32 | .int32 => 32

/-- Is a format block-scaled. -/
def Fmt.scaled (f : Fmt) : Bool := f.width ≤ 8

/-- Is a format an integer format of R132. -/
def Fmt.isInt (f : Fmt) : Bool := f ∈ [.b1, .t2, .i3, .i4, .i8]

/-- The formats that may carry a sidecar (R136). -/
def Fmt.sidecar (f : Fmt) : Bool := f ∈ [.f4, .f6a, .f6b, .f8a, .f8b]

/-- The element bytes of a block of 32. -/
def Fmt.blockBytes (f : Fmt) : Nat := f.width * 4

/-- Bias, mantissa bits and exponent bits of a narrow float (R133). -/
def Fmt.params : Fmt → Int × Nat × Nat
  | .f4 => (1, 1, 2) | .f6a => (3, 2, 3) | .f6b => (1, 3, 2) | .f8a => (7, 3, 4) | .f8b => (15, 2, 5) | _ => (127, 7, 8)

/-- A two's-complement number of w bits. -/
def sext (w v : Nat) : Int := if v < 2 ^ (w - 1) then v else (v : Int) - 2 ^ w

/-- The value of a narrow float by R133, infinities and NaNs apart; a negative zero is zero. -/
def narrowFin (bias : Int) (m eb c : Nat) : Rat :=
  let mm := c % 2 ^ m
  let e := c / 2 ^ m % 2 ^ eb
  let v : Rat := if e = 0 then mm * pow2 (1 - bias - m) else (2 ^ m + mm : Nat) * pow2 ((e : Int) - bias - m)
  if c / 2 ^ (m + eb) % 2 = 1 then -v else v

/-- The value of an element code (R132 to R134). -/
def elemVal (f : Fmt) (c : Nat) : Val :=
  match f with
  | .b1 => .num (if c % 2 = 0 then 1 else -1)
  | .t2 => .num (match c % 4 with | 1 => 1 | 3 => -1 | _ => 0)
  | .i3 => .num (sext 3 (c % 8))
  | .i4 => .num (sext 4 (c % 16))
  | .i8 => .num (sext 8 (c % 256))
  | .f4 => .num (narrowFin 1 1 2 (c % 16))
  | .f6a => .num (narrowFin 3 2 3 (c % 64))
  | .f6b => .num (narrowFin 1 3 2 (c % 64))
  | .f8a => if c % 128 = 0x7F then .nan (c / 128 % 2 == 1) else .num (narrowFin 7 3 4 (c % 256))
  | .f8b =>
    if c % 128 = 0x7C then .inf (c / 128 % 2 == 1)
    else if 0x7C < c % 128 then .nan (c / 128 % 2 == 1)
    else .num (narrowFin 15 2 5 (c % 256))
  | .bf16 => match bf16Val (c % 65536) with
    | .fin q _ => .num q
    | v => v
  | .fp32 => wideVal 23 c
  | .int32 => .num (sext 32 (c % 2 ^ 32))

/-- The code of element i in the bytes of a block (R131). -/
def elemCode (f : Fmt) (blk : Bytes) (i : Nat) : Nat := leNat blk / 2 ^ (f.width * i) % 2 ^ f.width

/-- The bytes of a block of codes. -/
def packCodes (f : Fmt) (codes : List Nat) : Bytes :=
  toLe (f.width * codes.length / 8) ((codes.zip (List.range codes.length)).map (fun x => x.1 % 2 ^ f.width * 2 ^ (f.width * x.2))).sum

/-- The largest finite value of a format (R133, R143). -/
def Fmt.maxf : Fmt → Rat
  | .b1 => 1 | .t2 => 1 | .i3 => 3 | .i4 => 7 | .i8 => 127 | .f4 => 6 | .f6a => 28 | .f6b => 15/2 | .f8a => 448
  | .f8b => 57344 | _ => pow2 128 - pow2 120

/-! ## Scales and sidecars (R135 to R137) -/

/-- The scale formats. -/
inductive SFmt | e8 | f8a
  deriving DecidableEq, Repr

/-- The value of a scale byte; a NaN-in-scale is a NaN. -/
def scaleVal (s : SFmt) (c : Nat) : Val :=
  match s with
  | .e8 => if c = 255 then .nan false else .num (pow2 ((c : Int) - 127))
  | .f8a => elemVal .f8a c

/-- A valid slot of a sidecar word: its lane and its F8A code; slot 1 is ignored where it names the lane of slot 0. -/
def sideSlots (w : Nat) : List (Nat × Nat) :=
  let s0 := if bit w 13 then [(fld w 12 8, fld w 7 0)] else []
  let s1 := if bit w 27 then [(fld w 26 22, fld w 21 14)] else []
  match s0, s1 with
  | [(l, _)], [(k, _)] => if l = k then s0 else s0 ++ s1
  | _, _ => s0 ++ s1

/-- A block of an operand: its element values before scaling, its scale, and its outlier lanes. -/
structure BlockVal where
  elems : List Val
  scale : Val
  outliers : List Nat
  deriving DecidableEq, Repr

/-- A block read from its element bytes, its scale byte and its sidecar word (R131, R135, R137). -/
def readBlock (f : Fmt) (s : SFmt) (bytes : Bytes) (scale : Nat) (side : Option Nat) : BlockVal :=
  let slots := (side.map sideSlots).getD []
  { elems := (List.range 32).map (fun i => match slots.find? (fun x => x.1 == i) with
      | some x => elemVal .f8a x.2
      | none => elemVal f (elemCode f bytes i))
    scale := if f.scaled then scaleVal s scale else .num 1
    outliers := slots.map (·.1) }

/-! ## Block partials (R138 to R140) -/

/-- Is a pair of a held and a broadcast format allowed (R138). -/
def pairOkFmt (w a : Fmt) : Bool :=
  match w with
  | .b1 | .t2 | .i3 | .i4 | .i8 => a == .i8
  | .f4 => a ∈ [.f4, .f8a, .f8b]
  | .f6a => a ∈ [.f6a, .f8a, .f8b]
  | .f6b => a ∈ [.f6b, .f8a, .f8b]
  | .f8a | .f8b => a ∈ [.f8a, .f8b]
  | .bf16 => a == .bf16
  | _ => false

/-- The block sum of two blocks: exact where both are 8 bits wide or narrower, otherwise in lane order with a rounding to FP32 at
each addition; and whether one of those additions overflowed from finite inputs (R139, R140). -/
def blockSum (exact : Bool) (w a : BlockVal) : Val × Bool :=
  let ps := List.zipWith Val.mul w.elems a.elems
  if exact then (match ps.foldl Val.add Val.zero with
    | .fin q _ => .num q
    | v => v, false)
  else ps.foldl (fun s p => let r := f32Rnd (s.1.add p); (r, s.2 || (r.isInf && s.1.isFin && p.isFin))) (Val.zero, false)

/-- The block partial, the exact product of the sum and the two scales rounded once to FP32, and whether it overflowed with
every input finite (R139, R140). The sum of an exact pair that is zero has no sign, so the partial is +0 whatever the signs of the scales;
with BF16 a zero partial has the sign of the product: DEDUCED, log 26. -/
def blockPartial (exact : Bool) (w a : BlockVal) : Word × Bool :=
  let s := blockSum exact w a
  let v := (s.1.mul w.scale).mul a.scale
  let v := match v with
    | .fin q _ => if q = 0 && exact then .num 0 else v
    | v => v
  let p := f32Of v
  (p, s.2 || ((f32Val p).isInf && s.1.isFin && w.scale.isFin && a.scale.isFin))

/-- An accumulation in FP32, and whether it overflowed with both inputs finite (R140). -/
def accumulate (acc p : Word) : Word × Bool :=
  let r := f32Add acc p
  (r, (f32Val r).isInf && (f32Val acc).isFin && (f32Val p).isFin)

/-! ## Conversion (R142) -/

/-- What a conversion gives: the code, and whether it counts in SAT_CNT and in NAN_DROP_CNT. -/
structure Conv where
  code : Nat
  sat : Bool := false
  drop : Bool := false
  deriving DecidableEq, Repr

/-- The code of a magnitude that a narrow float represents exactly. -/
def narrowMag (bias : Int) (m : Nat) (r : Rat) : Nat :=
  if r = 0 then 0
  else
    let e := max (ilog2 r) (1 - bias)
    (e - (1 - bias)).toNat * 2 ^ m + (r / pow2 (e - m)).num.natAbs

/-- A conversion of a value to a narrow float with a largest finite value: saturation beyond it (R142). DESIGN CHOICE (log entry 90): a value
that rounds to zero keeps its sign, so that a negative one gives the code of the negative zero. -/
def convNarrow (bias : Int) (m eb : Nat) (maxf : Rat) (q : Rat) (neg : Bool) : Conv :=
  let r := ratAbs (roundTo .near (1 - bias) m q)
  let s := b2n (if q = 0 then neg else decide (q < 0)) * 2 ^ (m + eb)
  if maxf < r then ⟨s + narrowMag bias m maxf, true, false⟩ else ⟨s + narrowMag bias m r, false, false⟩

/-- A conversion to an integer format of w bits within limits. -/
def convInt (w : Nat) (lo hi : Int) (v : Val) : Conv :=
  let code := fun (i : Int) => (i % 2 ^ w).toNat
  match v with
  | .nan _ => ⟨0, false, true⟩
  | .inf n => ⟨code (if n then lo else hi), true, false⟩
  | .fin q _ =>
    let i := roundInt .near q
    if i < lo then ⟨code lo, true, false⟩ else if hi < i then ⟨code hi, true, false⟩ else ⟨code i, false, false⟩

/-- A conversion to a format (R142). I3 codes have bit 3 equal to bit 2 (R132). -/
def convert (f : Fmt) (v : Val) : Conv :=
  match f with
  | .b1 => match v with
    | .nan _ => ⟨0, false, true⟩
    | v => ⟨b2n (match v with | .fin q _ => decide (q < 0) | v => v.sign), false, false⟩
  | .t2 => match v with
    | .nan _ => ⟨0, false, true⟩
    | .inf n => ⟨if n then 3 else 1, true, false⟩
    | .fin q _ =>
      let i := roundInt .near q
      if ratAbs q ≤ 1/2 then ⟨0, false, false⟩ else ⟨if q < 0 then 3 else 1, decide (i < -1) || decide (1 < i), false⟩
  | .i3 => convInt 4 (-4) 3 v
  | .i4 => convInt 4 (-8) 7 v
  | .i8 => convInt 8 (-128) 127 v
  | .int32 => convInt 32 (-2147483648) 2147483647 v
  | .fp32 => let w := f32Of v; ⟨w.toNat, v.isFin && (f32Val w).isInf, false⟩
  | .bf16 => let c := bf16Of v; ⟨c, v.isFin && (bf16Val c).isInf, false⟩
  | .f8a => match v with
    | .nan n => ⟨if n then 0xFF else 0x7F, false, false⟩
    | .inf n => ⟨if n then 0xFE else 0x7E, true, false⟩
    | .fin q n => convNarrow 7 3 4 448 q n
  | .f8b => match v with
    | .nan n => ⟨if n then 0xFF else 0x7F, false, false⟩
    | .inf n => ⟨if n then 0xFC else 0x7C, false, false⟩
    | .fin q n => convNarrow 15 2 5 57344 q n
  | f =>
    let p := f.params
    match v with
    | .nan _ => ⟨0, false, true⟩
    | .inf n => ⟨b2n n * 2 ^ (p.2.1 + p.2.2) + narrowMag p.1 p.2.1 f.maxf, true, false⟩
    | .fin q n => convNarrow p.1 p.2.1 p.2.2 f.maxf q n

/-! ## Choosing scales (R143, R144) -/

/-- The scale code that QUANT chooses for the largest magnitude of a block. -/
def quantScale (s : SFmt) (f : Fmt) (amax : Rat) : Nat :=
  match s with
  | .e8 =>
    if amax = 0 then 127
    else
      let x := amax / f.maxf
      let e := ilog2 x
      let c := if pow2 e = x then e else e + 1
      (max 0 (min 254 (127 + c))).toNat
  | .f8a =>
    if amax = 0 then 0x38
    else
      let r := roundTo .up (-6) 3 (amax / f.maxf)
      narrowMag 7 3 (if r < pow2 (-9) then pow2 (-9) else if 448 < r then 448 else r)

/-- The finite elements of a block that become its n outliers: the largest magnitudes, ties to the lower lane; none of magnitude
0 (R144). -/
def pickOutliers : Nat → List (Nat × Rat) → List Nat
  | 0, _ => []
  | n + 1, l =>
    match l.foldl (fun (best : Option (Nat × Rat)) x => match best with
      | none => if x.2 = 0 then none else some x
      | some y => if y.2 < x.2 then some x else some y) none with
    | none => []
    | some x => x.1 :: pickOutliers n (l.filter (fun y => y.1 != x.1))

/-- A value divided by a finite scale that is not 0. -/
def Val.divBy (v : Val) (s : Rat) : Val :=
  match v with
  | .fin q n => .fin (q / s) n
  | .inf n => .inf n
  | .nan n => .nan n

/-- A block quantised (R143, R144): the conversions of its lanes, its scale code, its outliers with their conversions, and its sidecar
word. -/
structure Quantised where
  lanes : List Conv
  scale : Nat
  outs : List (Nat × Conv)
  side : Nat
  deriving DecidableEq, Repr

/-- QUANT on one block of values. Of two outliers the larger magnitude takes slot 0 of the sidecar word, and of equal ones the lower lane:
DESIGN CHOICE, log 67. -/
def quantBlock (f : Fmt) (s : SFmt) (outliers : Nat) (vs : List Val) : Quantised :=
  let fins := (vs.zip (List.range vs.length)).filterMap (fun x => match x.1 with
    | .fin q _ => some (x.2, ratAbs q)
    | _ => none)
  let outs := (pickOutliers outliers fins)
  let amax := ((fins.filter (fun x => !outs.contains x.1)).map (·.2)).foldl (fun a c => if a < c then c else a) 0
  let sc := quantScale s f amax
  let sv := match scaleVal s sc with
    | .fin q _ => q
    | _ => 1
  let convs := (vs.zip (List.range vs.length)).map (fun x =>
    if outs.contains x.2 then { code := 0 } else convert f (x.1.divBy sv))
  let os := outs.map (fun i => (i, convert .f8a ((vs.getD i .zero).divBy sv)))
  let side := match os with
    | [] => 0
    | [(i, c)] => c.code + i * 2 ^ 8 + 2 ^ 13
    | (i, c) :: (j, d) :: _ => c.code + i * 2 ^ 8 + 2 ^ 13 + d.code * 2 ^ 14 + j * 2 ^ 22 + 2 ^ 27
  { lanes := convs, scale := sc, outs := os, side := side }

/-! ## The Awn guard (R145 to R148) -/

/-- The Awn control word (R145). -/
structure Awn where
  mode : Nat
  fail : Bool
  thresh : Nat
  deriving DecidableEq, Repr

/-- A control word read; none where it breaks R145. -/
def readAwn (w : Nat) (held : Fmt) : Option Awn :=
  let m := fld w 1 0
  let t := fld w 31 16
  let normal := 0x0080 ≤ t && t < 0x7F80
  if m != 3 && fld w 15 3 == 0 && (if m = 0 then t == 0 else normal) && (held != .bf16 || m == 0)
  then some ⟨m, bit w 2, t⟩ else none

/-- The half-spacing h(v) of a weight format (R146). -/
def halfSpacing (f : Fmt) (v : Rat) : Rat :=
  match f with
  | .b1 => 1
  | .t2 | .i3 | .i4 | .i8 => 1/2
  | f =>
    let p := f.params
    if v < pow2 (1 - p.1) then pow2 (1 - p.1 - p.2.1) / 2 else pow2 (ilog2 v - p.2.1 - 1)

/-- The bound B of a pair of blocks (R146). -/
def awnBound (f : Fmt) (w a : BlockVal) : Val :=
  let lanes := (List.range 32).filter (fun i => !w.outliers.contains i)
  let ws := lanes.map (fun i => (w.elems.getD i .zero).mag)
  let as_ := lanes.map (fun i => (a.elems.getD i .zero).mag)
  let all := ws ++ as_ ++ [w.scale, a.scale]
  if all.any Val.isNan then .nan false
  else if all.any Val.isInf then .inf false
  else
    let num := fun (v : Val) => match v with | .fin q _ => q | _ => 0
    let v := (ws.map num).foldl (fun x y => if x < y then y else x) 0
    let s := (as_.map num).foldl (· + ·) 0
    f32Up (.num (halfSpacing f v * s * ratAbs (num w.scale) * ratAbs (num a.scale)))

/-- Is one value greater than another; both finite or infinite. -/
def Val.gt : Val → Val → Bool
  | .fin p _, .fin q _ => decide (q < p)
  | .inf s, .fin _ _ => !s
  | .fin _ _, .inf s => s
  | .inf a, .inf b => !a && b
  | _, _ => false

/-- Is the verdict for a pair with bound B and partial P escalate (R147). -/
def escalates (c : Awn) (bound : Val) (p : Word) : Bool :=
  let pv := f32Val p
  let t := bf16Val c.thresh
  bound.isNan || bound.isInf || pv.isNan ||
  (c.mode == 1 && bound.gt t) || (c.mode == 2 && bound.gt (f32Down (t.mul pv.mag)))

/-- The shadow formats that a primary allows (R148). -/
def shadowOk (f s : Fmt) : Bool :=
  match f with
  | .b1 | .t2 | .i3 | .i4 => s ∈ [.i8, .bf16]
  | .i8 => s == .bf16
  | .f4 | .f6a | .f6b => s ∈ [.f8a, .f8b, .bf16]
  | .f8a | .f8b => s == .bf16
  | _ => false

end Sys2Proof.Machine
end

