-- ==== Sys2Proof/Machine/Crypto.lean ====
section
/-! DEFINITION. The published algorithms that the manual names: CRC-32 (R237), CRC-32C, SHA-256 and HMAC (R51, R383), ECDSA and
the curve P-256 (R51, R358), AES-256 and the key unwrap of RFC 3394 (R54, R61). PRESUMED: their definitions are those of the
standards that the manual names. -/

namespace Sys2Proof.Machine

/-! ## CRC -/

/-- One bit of a reflected CRC with polynomial p. -/
def crcBit (p c : BitVec 32) : BitVec 32 := if c.getLsbD 0 then (c >>> 1) ^^^ p else c >>> 1

/-- One byte of a reflected CRC. -/
def crcByte (p c : BitVec 32) (x : Byte) : BitVec 32 :=
  crcBit p (crcBit p (crcBit p (crcBit p (crcBit p (crcBit p (crcBit p (crcBit p (c ^^^ x.setWidth 32))))))))

/-- CRC-32 with the IEEE 802.3 polynomial (R237). -/
def crc32 (bs : Bytes) : BitVec 32 := ~~~ (bs.foldl (crcByte 0xEDB88320#32) 0xFFFFFFFF#32)

/-- CRC-32C: the polynomial 0x1EDC_6F41 (R271). -/
def crc32c (bs : Bytes) : BitVec 32 := ~~~ (bs.foldl (crcByte 0x82F63B78#32) 0xFFFFFFFF#32)

/-! ## SHA-256

The standard gives its constants as fractions of roots of primes, and they are computed here as it defines them. -/

/-- The first primes, as FIPS 180-4 takes them: n more above the ones found, newest first, tried from c on with some fuel. -/
def primesFrom : Nat → Nat → List Nat → List Nat
  | 0, _, found => found
  | fuel + 1, c, found =>
    if found.any (fun p => c % p == 0) then primesFrom fuel (c + 1) found else primesFrom fuel (c + 1) (c :: found)

/-- The 64 primes up to 311, rising. -/
def shaPrimes : List Nat := (primesFrom 310 2 []).reverse

/-- The greatest number below 2^n more than r whose k-th power is at most x, bit by bit from the top. -/
def rootFloor (k x : Nat) : Nat → Nat → Nat
  | 0, r => r
  | n + 1, r => rootFloor k x n (if (r + 2 ^ n) ^ k ≤ x then r + 2 ^ n else r)

/-- The first 32 bits of the fraction of the k-th root of a prime. -/
def rootFraction (k p : Nat) : Word := BitVec.ofNat 32 (rootFloor k (p * 2 ^ (32 * k)) 37 0)

/-- The constants that SHA-256 adds in its rounds: of the cube roots of the 64 primes. -/
def shaRoundConsts : List Word := shaPrimes.map (rootFraction 3)

/-- The words that SHA-256 starts from: of the square roots of the first eight. -/
def shaStart : List Word := (shaPrimes.take 8).map (rootFraction 2)

/-- A word rotated right by each of some amounts, and the results added bit by bit. -/
def rotSum (x : Word) (by_ : List Nat) : Word := by_.foldl (fun acc n => acc ^^^ x.rotateRight n) 0

/-- The message schedule, newest word first: each new word from those 2, 7, 15 and 16 before it. -/
def shaExtend : Nat → List Word → List Word
  | 0, w => w
  | n + 1, w =>
    let before := fun (k : Nat) => w.getD (k - 1) 0
    let low := rotSum (before 15) [7, 18] ^^^ (before 15 >>> 3)
    let high := rotSum (before 2) [17, 19] ^^^ (before 2 >>> 10)
    shaExtend n ((before 16 + low + before 7 + high) :: w)

/-- One round on the eight working words, under the sum of its constant and its schedule word. -/
def shaRound (v : List Word) (kw : Word) : List Word :=
  let at_ := fun (i : Nat) => v.getD i 0
  let pick := at_ 6 ^^^ (at_ 4 &&& (at_ 5 ^^^ at_ 6))
  let most := (at_ 0 &&& at_ 1) ||| (at_ 2 &&& (at_ 0 ||| at_ 1))
  let t := at_ 7 + kw + pick + rotSum (at_ 4) [6, 11, 25]
  (t + most + rotSum (at_ 0) [2, 13, 22]) :: (v.take 3 ++ (at_ 3 + t) :: (v.drop 4).take 3)

/-- A big-endian word of four bytes. -/
def beWord (bs : Bytes) : Word := BitVec.ofNat 32 (beNat bs)

/-- One block of 64 bytes. -/
def shaBlock (h : List Word) (blk : Bytes) : List Word :=
  let first := (List.range 16).map (fun i => beWord (sl blk (4 * (15 - i)) 4))
  let kws := List.zipWith (· + ·) shaRoundConsts (shaExtend 48 first).reverse
  List.zipWith (· + ·) (kws.foldl shaRound h) h

/-- The blocks of a padded message. -/
def shaLoop : Nat → List Word → Bytes → List Word
  | 0, h, _ => h
  | n + 1, h, bs => shaLoop n (shaBlock h (bs.take 64)) (bs.drop 64)

/-- The SHA-256 digest, 32 bytes in FIPS 180-4 byte order. -/
def sha256 (bs : Bytes) : Bytes :=
  let n := bs.length
  let m := bs ++ [0x80] ++ zeros ((119 - n % 64) % 64) ++ toBe 8 (8 * n)
  ((shaLoop (m.length / 64) shaStart m).map (fun w => toBe 4 w.toNat)).flatten

/-- HMAC with SHA-256. -/
def hmac256 (key msg : Bytes) : Bytes :=
  let k := fit 64 (if key.length > 64 then sha256 key else key)
  sha256 (k.map (· ^^^ 0x5c) ++ sha256 (k.map (· ^^^ 0x36) ++ msg))

/-! ## P-256 -/

/-- The prime of P-256. -/
def p256p : Nat := 0xffffffff00000001000000000000000000000000ffffffffffffffffffffffff
/-- The order of P-256. -/
def p256n : Nat := 0xffffffff00000000ffffffffffffffffbce6faada7179e84f3b9cac2fc632551
/-- The coefficient b of P-256. -/
def p256b : Nat := 0x5ac635d8aa3a93e7b3ebbd55769886bc651d06b0cc53b0f63bce3c3e27d2604b

/-- A power modulo m: n bits of the exponent. -/
def powMod (m : Nat) : Nat → Nat → Nat → Nat
  | 0, _, _ => 1 % m
  | n + 1, b, e => (if e % 2 = 1 then b else 1) * powMod m n (b * b % m) (e / 2) % m

/-- The inverse modulo a prime. -/
def invMod (m x : Nat) : Nat := powMod m 256 (x % m) (m - 2)

/-- The sum of two points; none is the point at infinity. -/
def p256Add (a b : Option (Nat × Nat)) : Option (Nat × Nat) :=
  match a, b with
  | none, q => q
  | p, none => p
  | some (x1, y1), some (x2, y2) =>
    let p := p256p
    if x1 = x2 && (y1 + y2) % p = 0 then none
    else
      let l := if x1 = x2 then (3 * x1 * x1 + (p - 3)) * invMod p (2 * y1) % p
               else (y2 + p - y1) * invMod p (x2 + p - x1) % p
      let x3 := (l * l + 2 * p - x1 - x2) % p
      some (x3, (l * (x1 + p - x3) + p - y1) % p)

/-- A multiple of a point: n bits of the scalar. -/
def p256Mul : Nat → Nat → Option (Nat × Nat) → Option (Nat × Nat)
  | 0, _, _ => none
  | n + 1, k, q => p256Add (if k % 2 = 1 then q else none) (p256Mul n (k / 2) (p256Add q q))

/-- The base point. -/
def p256G : Option (Nat × Nat) :=
  some (0x6b17d1f2e12c4247f8bce6e563a440f277037d812deb33a0f4a13945d898c296,
        0x4fe342e2fe1a7f9b8ee7eb4a7c0f9e162bce33576b315ececbb6406837bf51f5)

/-- Is a pair a point of the curve. -/
def p256On (x y : Nat) : Bool :=
  x < p256p && y < p256p && (y * y) % p256p = (x * x * x + (p256p - 3) * x + p256b) % p256p

/-- ECDSA P-256 over a SHA-256 digest: a public key of 64 bytes, x then y, and a signature of r then s, big-endian (R51). -/
def ecdsaVerify (pub digest sig : Bytes) : Bool :=
  let x := beNat (sl pub 0 32); let y := beNat (sl pub 32 32)
  let r := beNat (sl sig 0 32); let s := beNat (sl sig 32 32)
  let z := beNat digest % p256n
  let w := invMod p256n s
  p256On x y && decide (0 < r) && decide (r < p256n) && decide (0 < s) && decide (s < p256n) &&
  match p256Add (p256Mul 256 (z * w % p256n) p256G) (p256Mul 256 (r * w % p256n) (some (x, y))) with
  | none => false
  | some (x3, _) => x3 % p256n == r

/-! ## AES-256 -/

/-- Doubling in GF(2^8) of AES. -/
def aesDbl (x : Byte) : Byte := if x.getLsbD 7 then (x <<< 1) ^^^ 0x1b else x <<< 1

/-- A product in GF(2^8): n bits of the second factor. -/
def aesMulN : Nat → Byte → Byte → Byte
  | 0, _, _ => 0
  | n + 1, a, b => (if b.getLsbD 0 then a else 0) ^^^ aesMulN n (aesDbl a) (b >>> 1)

/-- A product in GF(2^8). -/
def aesMul (a b : Byte) : Byte := aesMulN 8 a b

/-- The inverse in GF(2^8), 0 for 0: the 254th power. -/
def aesInv (x : Byte) : Byte :=
  let x2 := aesMul x x; let x4 := aesMul x2 x2; let x8 := aesMul x4 x4; let x16 := aesMul x8 x8
  let x32 := aesMul x16 x16; let x64 := aesMul x32 x32; let x128 := aesMul x64 x64
  aesMul x2 (aesMul x4 (aesMul x8 (aesMul x16 (aesMul x32 (aesMul x64 x128)))))

/-- The S-box. -/
def aesSbox (x : Byte) : Byte :=
  let i := aesInv x
  i ^^^ i.rotateLeft 1 ^^^ i.rotateLeft 2 ^^^ i.rotateLeft 3 ^^^ i.rotateLeft 4 ^^^ 0x63

/-- The inverse S-box. -/
def aesSboxInv (y : Byte) : Byte :=
  aesInv (y.rotateLeft 1 ^^^ y.rotateLeft 3 ^^^ y.rotateLeft 6 ^^^ 0x05)

/-- The key schedule: words newest first, from the eight words of the key; n more words, with the round constant. -/
def aesExpand : Nat → Nat → Byte → List Bytes → List Bytes
  | 0, _, _, w => w
  | n + 1, i, rc, w =>
    let prev := w.headD []
    let t := if i % 8 = 0 then
               match (prev.drop 1 ++ prev.take 1).map aesSbox with
               | x :: r => (x ^^^ rc) :: r
               | [] => []
             else if i % 8 = 4 then prev.map aesSbox else prev
    aesExpand n (i + 1) (if i % 8 = 0 then aesDbl rc else rc) (xorBytes (w.getD 7 []) t :: w)

/-- The round keys of AES-256. -/
def aesKeys (key : Bytes) : List Bytes :=
  let w := (aesExpand 52 8 1 ((List.range 8).map (fun i => sl key (4 * i) 4)).reverse).reverse
  (List.range 15).map (fun r => (sl2 w (4 * r)).flatten)
where
  /-- Four words from an index. -/
  sl2 (w : List Bytes) (i : Nat) : List Bytes := (w.drop i).take 4

/-- The bytes of a block moved as InvShiftRows does. -/
def aesInvShift (s : Bytes) : Bytes :=
  (List.range 16).map (fun i => s.getD ((i / 4 + 4 - i % 4) % 4 * 4 + i % 4) 0)

/-- InvMixColumns. -/
def aesInvMix (s : Bytes) : Bytes :=
  (List.range 16).map (fun i =>
    let c := sl s (i / 4 * 4) 4
    let g := fun (k : Nat) => c.getD ((i % 4 + k) % 4) 0
    aesMul (g 0) 0x0e ^^^ aesMul (g 1) 0x0b ^^^ aesMul (g 2) 0x0d ^^^ aesMul (g 3) 0x09)

/-- A block deciphered with AES-256. -/
def aesDecrypt (key blk : Bytes) : Bytes :=
  match (aesKeys key).reverse with
  | [] => blk
  | k14 :: ks =>
    let s := xorBytes blk k14
    let mid := ks.dropLast.foldl (fun s k => aesInvMix (xorBytes ((aesInvShift s).map aesSboxInv) k)) s
    xorBytes ((aesInvShift mid).map aesSboxInv) (ks.getLastD [])

/-- One step of the unwrap of RFC 3394. -/
def unwrapStep (key : Bytes) (n : Nat) (st : Bytes × List Bytes) (t : Nat) : Bytes × List Bytes :=
  let i := (t - 1) % n
  let b := aesDecrypt key (xorBytes st.1 (toBe 8 t) ++ st.2.getD i [])
  (b.take 8, st.2.set i (b.drop 8))

/-- The key unwrap of RFC 3394; none where the integrity check fails. -/
def aesUnwrap (kek wrapped : Bytes) : Option Bytes :=
  let n := wrapped.length / 8 - 1
  let r := (List.range n).map (fun i => sl wrapped (8 * (i + 1)) 8)
  let st := ((List.range (6 * n)).map (fun i => 6 * n - i)).foldl (unwrapStep kek n) (wrapped.take 8, r)
  if st.1 = List.replicate 8 0xA6 then some st.2.flatten else none

end Sys2Proof.Machine
end

