-- ==== Sys2Proof/Machine/Cipher.lean ====
section
/-! DEFINITION. More of the published algorithms that the manual names: AES-256 encryption, AES-256-XTS over a line (R381, R382), AES-256-GCM,
HKDF-SHA-256 and ECDH on P-256 (R371, R375, R377). PRESUMED: their definitions are those of the standards that the manual names (log
entry 33). -/

namespace Sys2Proof.Machine

/-! ## AES-256 -/

/-- ShiftRows: row r of the state moves r columns to the left. -/
def aesShift (s : Bytes) : Bytes :=
  (List.range 16).map (fun i => s.getD ((i / 4 + i) % 4 * 4 + i % 4) 0)

/-- MixColumns. -/
def aesMix (s : Bytes) : Bytes :=
  (List.range 16).map (fun i =>
    let g := fun (k : Nat) => s.getD (i / 4 * 4 + (i + k) % 4) 0
    aesDbl (g 0 ^^^ g 1) ^^^ g 1 ^^^ g 2 ^^^ g 3)

/-- A block enciphered with AES-256. -/
def aesEncrypt (key blk : Bytes) : Bytes :=
  let ks := aesKeys key
  let turn := fun (mix : Bytes → Bytes) (s k : Bytes) => xorBytes (mix (aesShift (s.map aesSbox))) k
  turn id ((ks.dropLast.drop 1).foldl (turn aesMix) (xorBytes blk (ks.headD []))) (ks.getLastD [])

/-! ## XTS -/

/-- The next tweak of a data unit: doubled in GF(2^128), little-endian. -/
def xtsNext (t : Nat) : Nat := if t < 2 ^ 127 then 2 * t else (2 * t - 2 ^ 128) ^^^ 0x87

/-- Blocks of a data unit under a block function, from a tweak on. -/
def xtsBlocks (f : Bytes → Bytes) : Nat → Nat → Bytes → Bytes
  | 0, _, _ => []
  | n + 1, t, bs =>
    let w := toLe 16 t
    xorBytes (f (xorBytes (bs.take 16) w)) w ++ xtsBlocks f n (xtsNext t) (bs.drop 16)

/-- The first tweak of the data unit with a number, under the second half of an XTS key. -/
def xtsFirst (key : Bytes) (unit : Nat) : Nat := leNat (aesEncrypt (key.drop 32) (toLe 16 unit))

/-- A line of 128 bytes enciphered as the data unit with a number, under a key of 64 bytes (R382). -/
def xtsSeal (key : Bytes) (unit : Nat) (bs : Bytes) : Bytes := xtsBlocks (aesEncrypt (key.take 32)) 8 (xtsFirst key unit) bs

/-- A line deciphered. -/
def xtsOpen (key : Bytes) (unit : Nat) (bs : Bytes) : Bytes := xtsBlocks (aesDecrypt (key.take 32)) 8 (xtsFirst key unit) bs

/-! ## GCM -/

/-- A product in GF(2^128) as GCM orders its bits: the bits of x from the top, n still to come, with the running multiple of y. -/
def gcmMul : Nat → Nat → Nat → Nat
  | 0, _, _ => 0
  | n + 1, x, y =>
    let next := if y % 2 = 1 then y / 2 ^^^ 0xe1 * 2 ^ 120 else y / 2
    (if x.testBit n then y else 0) ^^^ gcmMul n x next

/-- GHASH of n blocks of 16 bytes under the hash key h. -/
def gcmHash (h : Nat) : Nat → Nat → Bytes → Nat
  | 0, a, _ => a
  | n + 1, a, bs => gcmHash h n (gcmMul 128 (a ^^^ beNat (bs.take 16)) h) (bs.drop 16)

/-- A string filled with zeros to whole blocks of 16 bytes. -/
def gcmPad (bs : Bytes) : Bytes := fit ((bs.length + 15) / 16 * 16) bs

/-- The key stream of n blocks from a counter on, after a 12-byte IV. -/
def gcmStream (key iv : Bytes) (from_ n : Nat) : Bytes :=
  ((List.range n).map (fun i => aesEncrypt key (iv ++ toBe 4 (from_ + i)))).flatten

/-- The tag of a ciphertext with additional data. -/
def gcmTag (key iv aad ct : Bytes) : Bytes :=
  let m := gcmPad aad ++ gcmPad ct ++ toBe 8 (8 * aad.length) ++ toBe 8 (8 * ct.length)
  xorBytes (toBe 16 (gcmHash (beNat (aesEncrypt key (zeros 16))) (m.length / 16) 0 m)) (gcmStream key iv 1 1)

/-- A ciphertext opened: its plaintext, where the tag verifies. -/
def gcmOpen (key iv aad ct tag : Bytes) : Option Bytes :=
  if gcmTag key iv aad ct == tag then some (xorBytes ct (gcmStream key iv 2 ((ct.length + 15) / 16))) else none

/-! ## HKDF and ECDH -/

/-- The blocks of HKDF's expansion: n more, numbered from i, after the last. -/
def hkdfBlocks (prk info : Bytes) : Nat → Nat → Bytes → Bytes
  | 0, _, _ => []
  | n + 1, i, last =>
    let t := hmac256 prk (last ++ info ++ [BitVec.ofNat 8 i])
    t ++ hkdfBlocks prk info n (i + 1) t

/-- HKDF with SHA-256 (RFC 5869): n bytes from a salt, key material and an info string. -/
def hkdf256 (salt ikm info : Bytes) (n : Nat) : Bytes :=
  (hkdfBlocks (hmac256 salt ikm) info ((n + 31) / 32) 1 []).take n

/-- The shared secret of ECDH on P-256: the x coordinate, from a private number and a public key of 64 bytes, x then y; none where that is no
point of the curve. -/
def ecdhSecret (d : Nat) (pub : Bytes) : Option Bytes :=
  let x := beNat (sl pub 0 32); let y := beNat (sl pub 32 32)
  if p256On x y then (p256Mul 256 d (some (x, y))).map (fun p => toBe 32 p.1) else none

/-- The ECDSA signature of a digest by a private number with a nonce: r then s, each 32 B big-endian (R369). -/
def ecdsaSign (d : Nat) (digest : Bytes) (nonce : Nat) : Bytes :=
  match p256Mul 256 nonce p256G with
  | none => zeros 64
  | some (x, _) => toBe 32 (x % p256n) ++ toBe 32 (invMod p256n nonce * (beNat digest + x % p256n * d) % p256n)

/-- The public key of a private number: x then y, 64 bytes. -/
def ecPublic (d : Nat) : Bytes := ((p256Mul 256 d p256G).map (fun p => toBe 32 p.1 ++ toBe 32 p.2)).getD (zeros 64)

end Sys2Proof.Machine
end

