-- ==== Sys2Proof/Config.lean ====
section
/-! DEFINITION. What the manual leaves open: free values, constants with no body, so that no proof can see what they are. -/

namespace Sys2Proof

/-- The bytes of the n-th random draw: keys, nonces, BOOT_ID (R62, R82, R383, R387). The manual fixes no value. -/
opaque Config.random : Nat → Bytes

/-- The rank on which a channel controller places a channel-local line; the manual leaves it to the controller (R78). -/
opaque Config.rankOf : Nat → Nat → Nat

/-- The 24 check symbols of the 136 information bytes of a codeword (R336): the manual gives no generator of the code. -/
opaque Config.checkSymbols : Bytes → Bytes

/-- What the information bytes of a data line at a place in its row add to the Q line of its stripe (R78, R338): the manual does not give the
second check of DEV_P. -/
opaque Config.qTerm : Nat → Bytes → Bytes

/-- The change of a data line's information bytes that a change of the Q line stands for, and of two data lines those that changes of P and Q
stand for (R349). -/
opaque Config.qSolve : Nat → Bytes → Bytes
/-- The same of two data lines, from P and Q together. -/
opaque Config.pqSolve : Nat → Nat → Bytes → Bytes → Bytes × Bytes

/-- The slots of a Grain channel in a 10 µs window, which M-step time decides (R31, R87, R127). -/
opaque Config.grainSlots : Nat → Nat

/-- Does a read of a directory set miss the directory cache, whose replacement the manual does not give (R106). -/
opaque Config.dirMiss : Nat → Bool

/-- LOAD for a host whose bucket has a burst of 0 (R102): the manual's quotient has no value there. -/
opaque Config.loadNoBurst : Nat → Nat

/-- How long a refresh of a Husk channel keeps it busy, ns; the DIMM decides (R301). -/
opaque Config.refreshTime : Nat → Nat

/-- The start of the next refresh of a Husk channel on its fixed timebase schedule after a timebase value (R301); the manual gives no
interval. -/
opaque Config.refreshNext : Nat → Nat → Nat

/-- The depth of a Grain channel's queue and its head delay, ns, at a sampling instant (R304): M-step time decides both, which is not modelled. -/
opaque Config.grainQueue : Nat → Nat × Nat

/-- The steps that the n-th wait at the contention point of an always-on counter adds (R231, R421): step times are not modelled. -/
opaque Config.waitSteps : Nat → Nat → Nat

/-- The steps of waiting in one period of TB_REF that a counter counts (R423, R425): step times are not modelled. -/
opaque Config.stepsOf : Nat → Nat

/-- The T-steps of the vector group for a row of a task (R162, R425), from the descriptor and the row: the manual gives the rate of each
operation, not how many a row takes. -/
opaque Config.rowWork : List (BitVec 8) → Nat → Nat

/-- Does a selective IDE stream, 1 to 4, take in the TLPs of a function (R380): the host associates them in configuration space, which the manual
does not lay out. -/
opaque Config.selStream : Nat → Nat → Bool

/-- The 16 B header of the n-th transfer unit of a packet on a die-to-die link (R32), from the packet's header: the manual gives no layout of
it. -/
opaque Config.unitHead : BitVec 256 → Nat → BitVec 128

/-- Is the result of exp (0), ln (1) or rsqrt (3) on an FP32 input, or of recip (2), the upper of the two FP32 values adjacent to an
exact value that is not representable (R162): the manual names both and leaves the algorithm open. -/
opaque Config.vecUp : Nat → Word → Bool

/-- STR_LOAD_TIME of a load (R64, R75): the steps that it takes are not modelled. -/
opaque Config.loadTime : Nat → Nat

/-- HUB_PCIE_STATUS.SPEED, FLIT and WIDTH as link training, which the PCIe base specification gives, leaves them (R307, R334). -/
opaque Config.pcieLink : Nat → Nat

/-- A reading of the input voltage, mV (R413, R415). -/
opaque Config.vin : Nat → Nat
/-- What PWR_READ shows of a die's temperature before the first reading (R413): free. -/
opaque Config.dieTemp : Nat → Nat → Byte

/-- A reading of the input current, mA (R413, R415). -/
opaque Config.iin : Nat → Nat

/-- A reading of VCORE, mV (R415, R431). -/
opaque Config.vcoreRead : Nat → Nat

/-- The SMBus address straps as the board ties them at the n-th sampling (R449). -/
opaque Config.straps : Nat → Nat

/-- SHA-256 of the boot ROM, measurement 1 (R379). -/
opaque Config.romDigest : Bytes

/-- K_CAL from UDS (R410): the manual does not give the derivation. -/
opaque Config.kCal : Bytes → Bytes

/-- The info strings of the two HKDF derivations, of the DeviceID key (R377) and of the key that opens an ownership blob (R375): the manual
gives neither. -/
opaque Config.deviceInfo : Bytes
opaque Config.ownerInfo : Bytes

/-- The private number of the DeviceID key from the 32 bytes that HKDF derives, and of the Alias key from the CDI (R377): the manual does not say
how bytes become a number of the curve. -/
opaque Config.deviceScalar : Bytes → Nat
opaque Config.aliasScalar : Bytes → Nat

/-- What the Alias certificate holds before its signature, from the Alias public key, the digest of the firmware image and its SVN (R377): the
manual does not lay it out. -/
opaque Config.aliasBody : Bytes → Bytes → Nat → Bytes

/-- The digest that a response of the SPDM responder signs (R378): its transcript is DSP0274's. -/
opaque Config.spdmDigest : Nat → Bytes

/-- The kind, 0 to 127, that a measurement block carries beside its form (R379): DSP0274 lists the kinds, and the manual assigns none. -/
opaque Config.measKind : Nat → Nat

/-- The training results of a composed calibration set (R412): bytes 0x0100 to 0x90FF. -/
opaque Config.training : Nat → Bytes

/-- The default trims, sensor offsets and current gain: bytes 0x9100 to 0xBA3F of a set composed while none is in force (R412). -/
opaque Config.calDefaults : Bytes

/-- WRITE_COUNT of a set composed while none is in force (R410, R412): the manual does not say from what it counts on. -/
opaque Config.calCount : Nat → Nat

/-- Is the FINISH verification data of an SPDM session right (R378): the key schedule is DSP0274's. -/
opaque Config.finishOk : Nat → Bytes → Bool

/-- SIG_KEY, TARGET_ID and BUILD of an image that STRUCT_READBACK writes (R50, R319): the manual fixes none of them. -/
opaque Config.readback : Nat → Nat

/-- The class, other than IDLE, of the last T-step of a Tiller that runs a task (R425, R437): T-step time is not modelled. -/
opaque Config.lastClass : Nat → Nat

/-- What an SPDM response holds that the manual leaves to DSP0274: nonces, exchange data (R378). -/
opaque Config.spdmData : Nat → Bytes

/-- What the boundary register captures on SAMPLE/PRELOAD and EXTEST (R450): the manual gives its cells in another file. -/
opaque Config.boundary : Nat → Word

/-- What the boundary register, holding some cells, drives on a land, by its number in SMBus command 0x01 (R449, R450). -/
opaque Config.landOf : Word → Nat → Nat

/-- What an access of debug level 2 that the manual does not describe shows (R388, R450). -/
opaque Config.jtagData : Nat → Word

end Sys2Proof
end

