-- ==== Sys2Proof/Machine/Ops.lean ====
section
/-! DEFINITION. The named operations over registers, counters, free values and replicated blocks that every meaning uses. -/

namespace Sys2Proof.Machine

/-! ## Registers (R22, R23) -/

/-- The value that a register holds. -/
def Blk.reg (b : Blk) (off : Nat) : Word := tget regReset b.regs off

/-- The block with a register at a value. -/
def Blk.setReg (b : Blk) (off : Nat) (v : Word) : Blk := { b with regs := tset regReset b.regs off v }

/-- A field of a register as a number: w bits from bit lo. -/
def Blk.field (b : Blk) (off lo w : Nat) : Nat := ((b.reg off) >>> lo).toNat % 2 ^ w

/-- The block with a bit of a register set by hardware (R22, W1C). -/
def Blk.flag (b : Blk) (off i : Nat) : Blk := b.setReg off (b.reg off ||| (1#32 <<< i))

/-- A counter register raised by n; it saturates at 0xFFFF_FFFF. -/
def Blk.count (b : Blk) (off n : Nat) : Blk := b.setReg off (BitVec.ofNat 32 (min ((b.reg off).toNat + n) 0xFFFFFFFF))

/-- A counter register raised by 1. -/
def Blk.incr (b : Blk) (off : Nat) : Blk := b.count off 1

/-- A word with a field of w bits from bit lo replaced. -/
def putField (r : Word) (lo w v : Nat) : Word :=
  let mask : Word := BitVec.ofNat 32 ((2 ^ w - 1) * 2 ^ lo)
  (r &&& ~~~ mask) ||| (BitVec.ofNat 32 (v % 2 ^ w * 2 ^ lo))

/-! ## Always-on and programmable counters (R421 to R424) -/

/-- An always-on counter raised by n; it saturates at 2^64 − 1 (R421). -/
def Blk.aonAdd (b : Blk) (i n : Nat) : Blk :=
  { b with aon := tmod (fun _ => 0) b.aon i (fun v => min (v + n) (2 ^ 64 - 1)) }

/-- The programmable counter i of a block (R422). -/
def Blk.pc (b : Blk) (unit i : Nat) : Pc := tget (fun _ => {}) b.pcs (unit * 8 + i)

/-- Is an event one of steps added by waiting (R231, R423): of a Thresher, a home agent, a Grain or Husk channel, or a port. -/
def stepEvent (unit code : Nat) : Bool :=
  if unit < 24 then false
  else if unit < 28 then code == 4
  else if unit < 32 then code == 5
  else if unit < 36 then code == 4
  else if unit < 60 then code == 3
  else 64 ≤ unit && unit < 112 && code == 3

/-- How often something may have waited at the contention point of an always-on counter (R231, R421): the requests accepted at a home agent,
the lines moved on a channel, the flits sent by the ports of a quadrant, the tasks dispatched, the unit retries, what the hub has sent on
PCIe, the Submits that have left admission; none for a counter that counts no steps. -/
def Blk.waitsAt (b : Blk) (i : Nat) : Option Nat :=
  let a := fun (j : Nat) => tget (fun _ => 0) b.aon j
  if 160 ≤ i && i < 164 then some (a (i - 12))
  else if 164 ≤ i && i < 168 then some (a (i - 20))
  else if 168 ≤ i && i < 192 then some (a (i - 48))
  else if 192 ≤ i && i < 196 then some ((List.range 12).map (fun j => a (72 + 12 * (i - 192) + j))).sum
  else if 200 ≤ i && i < 204 then some (a (i - 4))
  else if i = 231 then some (a i + b.hub.out.length)
  else if 227 ≤ i && i < 236 then some (a i)
  else none

/-- An always-on counter as it shows (R421): one that accumulates the steps of waiting shows a free number for each wait, log 75. -/
def Blk.aonShow (b : Blk) (i : Nat) : Nat :=
  match b.waitsAt i with
  | some n => min (((List.range n).map (Config.waitSteps i)).sum) (2 ^ 64 - 1)
  | none => tget (fun _ => 0) b.aon i

/-- A class of a Tiller's T-step account (R425). -/
def Blk.tdShow (b : Blk) (k c : Nat) : Nat := tget (fun _ => 0) b.work.tds (6 * k + c)

/-- A programmable counter raised by n, with its wrap (R424). -/
def pcAdd (c : Pc) (n : Nat) (chained : Bool) : Pc :=
  let v := c.value + n
  { c with value := v % 2 ^ 48, ovf := c.ovf || (decide (2 ^ 48 ≤ v) && !chained) }

/-- Is counter i chained with its neighbour: the odd counter of its pair has CHAIN = 1 (R424). -/
def Blk.pcChained (b : Blk) (unit i : Nat) : Bool := (b.pc unit (i / 2 * 2 + 1)).chain

/-- One counter of a block counts an event of a partition, and the odd counter of a chained pair the wraps of the even one
(R423, R424). -/
def Blk.pcEvent (b : Blk) (unit i code : Nat) (part : Option Nat) (n : Nat) : Blk :=
  let c := b.pc unit i
  let ch := b.pcChained unit i
  if (ch && i % 2 == 1) || c.event != code || !(c.all || part == some c.part) then b
  else
    let b1 := { b with pcs := tset (fun _ => {}) b.pcs (unit * 8 + i) (pcAdd c n ch) }
    if ch && decide (2 ^ 48 ≤ c.value + n) then
      { b1 with pcs := tmod (fun _ => {}) b1.pcs (unit * 8 + i + 1) (fun o => pcAdd o 1 false) }
    else b1

/-- An event of a block, counted by each of its programmable counters that names it (R423). -/
def Blk.event (b : Blk) (unit code : Nat) (part : Option Nat) (n : Nat := 1) : Blk :=
  (List.range 8).foldl (fun b i => b.pcEvent unit i code part n) b

/-! ## Free values -/

/-- A fresh index for a free value: nothing constrains what Config gives for it. -/
def Blk.draw (b : Blk) : Nat × Blk := (b.fresh, { b with fresh := b.fresh + 1 })

/-! ## Replicated blocks -/

/-- A Husk channel. -/
def Blk.husk (b : Blk) (c : Nat) : HuskChan := tget (fun _ => {}) b.chans.husk c
/-- A Husk channel changed. -/
def Blk.modHusk (b : Blk) (c : Nat) (f : HuskChan → HuskChan) : Blk :=
  { b with chans.husk := tmod (fun _ => {}) b.chans.husk c f }
/-- A Grain channel. -/
def Blk.grain (b : Blk) (c : Nat) : GrainChan := tget (fun _ => {}) b.chans.grain c
/-- A Grain channel changed. -/
def Blk.modGrain (b : Blk) (c : Nat) (f : GrainChan → GrainChan) : Blk :=
  { b with chans.grain := tmod (fun _ => {}) b.chans.grain c f }

/-- Is the DRAM of both tiers in self-refresh: from step 4 of the entry into HOLD until its exit (R399, R400). -/
def Blk.asleep (b : Blk) : Bool := b.pwr.state == 3

/-! ## Structures -/

/-- The structure under which a block of the device works: while a commit runs, a block that has taken the running phase works
under what that phase gives (R67, R68). -/
def Blk.view (b : Blk) (k : Block) : Struct :=
  match b.str.commit with
  | none => b.str.run
  | some c =>
    let done := c.taken.contains k
    if c.phase = 1 then (if done then c.afterA else b.str.run) else if done then c.afterB else c.afterA

/-- A live field changed by a register write (R73): at once in the running structure, and in what the phases of a running commit give, but for
a value of the delta that the block has still to take and that stays as the later one. inA, inB: does the delta change the field in that
phase; done: has the block taken the running phase. -/
def Blk.modLive (b : Blk) (done inA inB : Commit → Bool) (f : Struct → Struct) : Blk :=
  { b with
    str.run := f b.str.run
    str.commit := b.str.commit.map (fun c =>
      let a := inA c && c.phase == 1 && !done c
      let l := inB c && !(c.phase == 2 && done c)
      { c with afterA := if a then c.afterA else f c.afterA, afterB := if a || l then c.afterB else f c.afterB }) }

/-- Does a delta change a key in phase A: it deletes it, or replaces the entry there was at the commit point (R67). -/
def inPhaseA {α β : Type} (base : Map α) (dels : List Nat) (img : List (Nat × β)) (k : Nat) : Bool :=
  dels.contains k || (img.any (fun e => e.1 == k) && mhas base k)

/-- Does a delta add a key in phase B (R67). -/
def inPhaseB {α β : Type} (base : Map α) (dels : List Nat) (img : List (Nat × β)) (k : Nat) : Bool :=
  img.any (fun e => e.1 == k) && (dels.contains k || !mhas base k)

/-- The TRACE body changed by a register write (R73): the hub takes that of a commit in phase A. -/
def Blk.liveTrace (b : Blk) (f : TraceCfg → TraceCfg) : Blk :=
  b.modLive (fun c => c.taken.contains .hub) (fun c => c.img.trace.isSome) (fun _ => false) (fun s => { s with trace := f s.trace })

/-- The structure changed at once in everything that holds it: an entry that leaves at run time (R89, R94). -/
def Blk.modStruct (b : Blk) (f : Struct → Struct) : Blk :=
  { b with
    str.run := f b.str.run
    str.commit := b.str.commit.map (fun c => { c with afterA := f c.afterA, afterB := f c.afterB }) }

/-- The SELF EID; 0 where no structure is loaded (R235). -/
def Struct.self (s : Struct) : Nat := ((s.eids.find? (fun e => e.2.self)).map (·.1)).getD 0

/-- An element taken out of a list of pairs. -/
def without {α : Type} [DecidableEq α] (l : List α) (a : α) : List α := l.filter (fun x => x ≠ a)

/-- The element a, once. -/
def with1 {α : Type} [DecidableEq α] (l : List α) (a : α) : List α := if a ∈ l then l else l ++ [a]

end Sys2Proof.Machine
end

