-- ==== Sys2Proof/Machine/Image.lean ====
section
/-! DEFINITION. Structure images: their parsing by orders 1 to 4 of R62 (R49 to R60, R65), the whole-structure rules (R61, R69,
R81, R83, R295, R302, R353), and the structures that a full image and the two phases of a delta give (R65, R67). -/

namespace Sys2Proof.Machine

/-- A status of R74. -/
abbrev StrCode := Nat

/-- Go on where a condition holds, else stop with a status. -/
def need (c : Bool) (code : StrCode) : Except StrCode Unit := if c then .ok () else .error code

/-! ## Header and section table (orders 1 to 3 of R62) -/

/-- A section table entry (R52). -/
structure SecEnt where
  type : Nat
  flags : Nat
  rsv : Nat
  offset : Nat
  bytes : Nat
  count : Nat
  deriving DecidableEq, Repr

/-- The size of an entry of a section type; 0 for GATE (R53). -/
def secSize : Nat → Nat
  | 0x01 => 1552 | 0x02 => 16 | 0x03 => 16 | 0x04 => 32 | 0x05 => 8 | 0x06 => 8 | 0x07 => 32 | 0x08 => 8
  | 0x09 => 8 | 0x0A => 32 | 0x0C => 8 | 0x0D => 32 | 0x0E => 64 | _ => 0

/-- The most entries of a section type (R53). -/
def secMax : Nat → Nat
  | 0x01 => 1 | 0x02 => 63 | 0x03 => 4096 | 0x04 => 262144 | 0x05 => 1048576 | 0x06 => 24 | 0x07 => 1 | 0x08 => 4096
  | 0x09 => 512 | 0x0A => 8192 | 0x0B => 72 | 0x0C => 64 | 0x0D => 1 | 0x0E => 1 | _ => 0

/-- The types with one body (R53). -/
def secOne (t : Nat) : Bool := t ∈ [0x01, 0x07, 0x0D, 0x0E]

/-- The types that allow DELETE in a delta (R53). -/
def secDel (t : Nat) : Bool := t ∈ [0x02, 0x03, 0x04, 0x05, 0x08, 0x09, 0x0A, 0x0B, 0x0C]

/-- The section table of an image. -/
def secTable (bs : Bytes) : List SecEnt :=
  (List.range (le bs 0x0C 2)).map (fun i =>
    let e := sl bs (128 + 16 * i) 16
    ⟨u8 e 0, u8 e 1, le e 2 2, le e 4 4, le e 8 4, le e 12 4⟩)

/-- Order 1 of R62: MAGIC, LENGTH within R49, and LENGTH equal to the bytes supplied. -/
def imgOrder1 (bs : Bytes) (supplied : Nat) : Except StrCode Unit := do
  need (le bs 0 4 == 0x49525453) 0x01
  let l := le bs 8 4
  need (l % 64 == 0 && 1024 ≤ l && l ≤ 67108864) 0x02
  need (l == supplied && bs.length == l) 0x02

/-- Order 2 of R62: the signature of R51 under one of the two structure-signing keys; an all-zero key is absent (R370). -/
def imgSigned (keys : List Bytes) (bs : Bytes) : Bool :=
  let k := keys.getD (u8 bs 7) []
  let l := bs.length
  u8 bs 7 ≤ 1 && !allZero k && ecdsaVerify k (sha256 (bs.take (l - 64))) (bs.drop (l - 64))

/-- Do two byte ranges overlap. -/
def overlap (a b : Nat × Nat) : Bool := a.1 < b.1 + b.2 && b.1 < a.1 + a.2

/-- No two ranges of a list overlap. -/
def disjointAll : List (Nat × Nat) → Bool
  | [] => true
  | a :: t => t.all (fun b => !overlap a b) && disjointAll t

/-- The section table bounds of order 3 of R62. -/
def imgBounds (bs : Bytes) : Bool :=
  let n := le bs 0x0C 2
  let t := secTable bs
  let fixed := [(0, 128), (128, 16 * n), (bs.length - 64, 64)]
  1 ≤ n && n ≤ 64 && t.all (fun e => e.offset + e.bytes ≤ bs.length && e.offset % 64 == 0) &&
  disjointAll (fixed ++ (t.filter (fun e => e.bytes ≠ 0)).map (fun e => (e.offset, e.bytes))) &&
  t.all (fun e => secSize e.type == 0 || e.bytes == e.count * secSize e.type)

/-! ## Section bodies (order 4 of R62) -/

/-- The entries of a section of fixed-size entries. -/
def secEntries (bs : Bytes) (e : SecEnt) : List Bytes :=
  (List.range e.count).map (fun i => sl bs (e.offset + i * secSize e.type) (secSize e.type))

/-- A parsed entry with its key, or nothing where a field is out of range or a reserved field is not 0. -/
abbrev Parsed (α : Type) := Option (Nat × α)

/-- Something where a condition holds. -/
def when? {α : Type} (c : Bool) (a : α) : Option α := if c then some a else none

/-- A partition bound (R54); the fields of an entry with VALID = 0 are ignored (R61). -/
def parseBound (e : Bytes) : Option Bound :=
  let g := u8 e 9
  let v := bit g 7
  let ok := allZero (sl e 11 5) && fld g 6 2 == 0 &&
    (!v || (le e 0 4 ≤ 15872 && u8 e 8 ≤ 24 && u8 e 10 ≤ 64))
  when? ok ⟨le e 0 4, le e 4 4, u8 e 8, bit g 0, bit g 1, v, u8 e 10⟩

/-- An issuer entry (R54, R385). -/
def parseIssuer (e : Bytes) : Option Issuer :=
  let rights := le e 48 2
  let ok := match u8 e 50 with
    | 0 => allZero e
    | 1 => allZero (sl e 51 13) && rights < 512
    | _ => false
  when? ok ⟨sl e 0 40, BitVec.ofNat 64 (le e 40 8), BitVec.ofNat 16 rights, u8 e 50 == 1⟩

/-- A PARTITION entry (R55). -/
def parsePart (e : Bytes) : Parsed PartEnt :=
  when? (1 ≤ u8 e 0 && u8 e 0 ≤ 63 && u8 e 1 ≤ 1 && u8 e 2 ≤ 63 && u8 e 3 ≤ 7 && le e 4 2 ≤ 256 && allZero (sl e 6 10))
    (u8 e 0, ⟨bit (u8 e 1) 0, u8 e 2, u8 e 3, le e 4 2⟩)

/-- A HOST entry (R55). -/
def parseHost (e : Bytes) : Parsed HostEnt :=
  let ms := le e 8 4
  when? (1 ≤ u8 e 2 && u8 e 2 ≤ 63 && u8 e 3 ≤ 1 && (le e 4 2 ≤ 1023 || le e 4 2 == 0xFFFF) && allZero (sl e 6 2) &&
      (ms == 0 || (10 ≤ ms && ms ≤ 10000)) && allZero (sl e 12 4))
    (le e 0 2, ⟨u8 e 2, bit (u8 e 3) 0, le e 4 2, if ms = 0 then 500 else ms⟩)

/-- An EXTENT entry (R56). -/
def parseExt (e : Bytes) : Parsed ExtEnt :=
  when? (le e 0 4 ≤ 262143 && le e 4 4 < 2 ^ 27 && 1 ≤ le e 8 4 && le e 8 4 ≤ 524288 && u8 e 12 ≤ 63 && u8 e 13 ≤ 3 &&
      u8 e 14 ≤ 2 && u8 e 15 ≤ 1 && allZero (sl e 16 16))
    (le e 0 4, ⟨le e 4 4, le e 8 4, u8 e 12, u8 e 13, u8 e 14, bit (u8 e 15) 0⟩)

/-- The key of a grant: INDEX, GRANTEE and the GROUP bit (R53). -/
def grantKey (ext grantee : Nat) (group : Bool) : Nat := (ext * 65536 + grantee) * 2 + b2n group
/-- The extent of a grant key. -/
def grantExt (k : Nat) : Nat := k / 131072
/-- The grantee of a grant key. -/
def grantGrantee (k : Nat) : Nat := k / 2 % 65536
/-- The GROUP bit of a grant key. -/
def grantGroup (k : Nat) : Bool := k % 2 == 1

/-- A GRANT entry (R56). -/
def parseGrant (e : Bytes) : Parsed Rights :=
  let r := u8 e 6
  when? (le e 0 4 ≤ 262143 && fld r 6 3 == 0 && u8 e 7 == 0 && (!bit r 7 || le e 4 2 ≤ 1023))
    (grantKey (le e 0 4) (le e 4 2) (bit r 7), ⟨bit r 0, bit r 1, bit r 2⟩)

/-- A STOOK entry (R57). -/
def parseStook (e : Bytes) : Parsed StookEnt :=
  when? (u8 e 0 ≤ 23 && u8 e 1 ≤ 3 && le e 2 4 < 2 ^ 24 && allZero (sl e 6 2))
    (u8 e 0, ⟨u8 e 1, BitVec.ofNat 24 (le e 2 4)⟩)

/-- The TILLER body (R57). -/
def parseTillers (e : Bytes) : Option (List (Option Nat)) :=
  let own := (sl e 0 24).map (·.toNat)
  when? (own.all (fun p => (1 ≤ p && p ≤ 63) || p == 0xFF) && allZero (sl e 24 8))
    (own.map (fun p => if p = 0xFF then none else some p))

/-- An EID entry (R57, R234); its position is given when it enters the table. -/
def parseEid (e : Bytes) : Parsed EidEnt :=
  when? (1 ≤ le e 0 2 && le e 0 2 ≤ 0xFFFE && le e 2 2 ≤ 511 && u8 e 4 ≤ 1 && allZero (sl e 5 3))
    (le e 0 2, ⟨le e 2 2, bit (u8 e 4) 0, 0⟩)

/-- A SPRAY entry (R57). -/
def parseSpray (e : Bytes) : Parsed (BitVec 48) :=
  when? (le e 0 2 ≤ 511) (le e 0 2, BitVec.ofNat 48 (le e 2 6))

/-- The key of a traffic entry: TARGET and CLASS (R53, R295). -/
def trafKey (target cls : Nat) : Nat := target * 4 + cls

/-- A TRAFFIC entry (R58). -/
def parseTraf (e : Bytes) : Parsed TrafEnt :=
  let k := u8 e 3
  let two := k == 1 || k == 2
  when? (u8 e 2 ≤ 3 && k ≤ 3 && (two || (le e 8 4 == 0 && le e 16 4 == 0)) && u8 e 20 ≤ 63 && allZero (sl e 21 11))
    (trafKey (le e 0 2) (u8 e 2), ⟨le e 0 2, u8 e 2, k, le e 4 4, le e 8 4, le e 12 4, le e 16 4, u8 e 20⟩)

/-- The windows of a gate list: n entries of 16 bytes (R59). -/
def parseWins (bs : Bytes) (n : Nat) : Option (List GateWin) :=
  let es := (List.range n).map (fun i => sl bs (16 * i) 16)
  when? (es.all (fun e => 256 ≤ le e 0 4 && le e 0 4 ≤ 1000000000 && allZero (sl e 12 4)))
    (es.map (fun e => ⟨le e 0 4, BitVec.ofNat 64 (le e 4 8)⟩))

/-- A TARGET of a gate list (R59). -/
def gateTargetOk (t : Nat) : Bool := t ≤ 47 || (0x100 ≤ t && t ≤ 0x117)

/-- The lists of a GATE body: n of them, filling it (R59). -/
def parseGates : Nat → Bytes → Option (List (Nat × GateList))
  | 0, bs => when? bs.isEmpty []
  | n + 1, bs =>
    let k := u8 bs 2
    if gateTargetOk (le bs 0 2) && 1 ≤ k && k ≤ 64 && u8 bs 3 == 0 && allZero (sl bs 12 4) && 16 + 16 * k ≤ bs.length then
      match parseWins (sl bs 16 (16 * k)) k, parseGates n (bs.drop (16 + 16 * k)) with
      | some ws, some rest => some ((le bs 0 2, ⟨le bs 4 8, ws⟩) :: rest)
      | _, _ => none
    else none

/-- The headers of a GATE DELETE body: TARGET is the key and every other byte is reserved (R52). -/
def parseGateDel : Nat → Bytes → Option (List Nat)
  | 0, bs => when? bs.isEmpty []
  | n + 1, bs =>
    if gateTargetOk (le bs 0 2) && 16 ≤ bs.length && allZero (sl bs 2 14) then
      (parseGateDel n (bs.drop 16)).map (le bs 0 2 :: ·)
    else none

/-- A TIER entry (R55). -/
def parseTier (e : Bytes) : Parsed TierEnt :=
  when? (u8 e 0 ≤ 63 && u8 e 1 ≤ 2 && u8 e 2 ≤ 1 && u8 e 3 ≤ 50 && allZero (sl e 4 4))
    (u8 e 0, ⟨u8 e 1, u8 e 2, if u8 e 3 = 0 then 10 else u8 e 3⟩)

/-- The PAIR body (R60). -/
def parsePair (e : Bytes) : Option PairCfg :=
  when? (u8 e 4 ≤ 2 && allZero (sl e 5 3) && allZero (sl e 12 20)) ⟨le e 0 2, le e 2 2, u8 e 4, le e 8 4⟩

/-- An extent field of the TRACE body (R60). -/
def traceExt (v : Nat) : Option Nat := if v = 0xFFFFFFFF then none else some v

/-- The TRACE body (R60); bits 63:14 of TRACE_ENABLE are reserved (R432). -/
def parseTrace (e : Bytes) : Option TraceCfg :=
  let x := fun (o : Nat) => le e o 4 ≤ 262143 || le e o 4 == 0xFFFFFFFF
  when? (10 ≤ le e 0 4 && le e 0 4 ≤ 1000000 && x 4 && x 8 && x 12 && le e 16 8 < 2 ^ 14 && allZero (sl e 24 40))
    ⟨le e 0 4, traceExt (le e 4 4), traceExt (le e 8 4), traceExt (le e 12 4), BitVec.ofNat 64 (le e 16 8)⟩

/-- Every entry parsed, or nothing. -/
def parseAll {α : Type} (p : Bytes → Option α) : List Bytes → Option (List α)
  | [] => some []
  | e :: t => match p e, parseAll p t with
    | some a, some r => some (a :: r)
    | _, _ => none

/-- The key of an entry of a DELETE section, with its non-key bytes reserved (R52). -/
def parseDel (t : Nat) (e : Bytes) : Option Nat :=
  match t with
  | 0x02 => when? (1 ≤ u8 e 0 && u8 e 0 ≤ 63 && allZero (sl e 1 15)) (u8 e 0)
  | 0x03 => when? (allZero (sl e 2 14)) (le e 0 2)
  | 0x04 => when? (le e 0 4 ≤ 262143 && allZero (sl e 4 28)) (le e 0 4)
  | 0x05 => when? (le e 0 4 ≤ 262143 && fld (u8 e 6) 6 0 == 0 && u8 e 7 == 0) (grantKey (le e 0 4) (le e 4 2) (bit (u8 e 6) 7))
  | 0x08 => when? (1 ≤ le e 0 2 && le e 0 2 ≤ 0xFFFE && allZero (sl e 2 6)) (le e 0 2)
  | 0x09 => when? (le e 0 2 ≤ 511 && allZero (sl e 2 6)) (le e 0 2)
  | 0x0A => when? (u8 e 2 ≤ 3 && u8 e 3 == 0 && allZero (sl e 4 28)) (trafKey (le e 0 2) (u8 e 2))
  | 0x0C => when? (u8 e 0 ≤ 63 && allZero (sl e 1 7)) (u8 e 0)
  | _ => none

/-- The section of a type, with or without DELETE. -/
def findSec (t : List SecEnt) (ty : Nat) (del : Bool) : Option SecEnt :=
  t.find? (fun e => e.type == ty && bit e.flags 0 == del)

/-- How many sections of a type a table holds, with or without DELETE. -/
def countSec (t : List SecEnt) (ty : Nat) (del : Bool) : Nat :=
  (t.filter (fun e => e.type == ty && bit e.flags 0 == del)).length

/-- The use of sections in a full image (R53). -/
def fullUse (t : List SecEnt) : Bool :=
  t.all (fun e => 1 ≤ e.type && e.type ≤ 0x0E && !bit e.flags 0) &&
  [0x01, 0x02, 0x03, 0x06, 0x07, 0x08, 0x09].all (fun ty => countSec t ty false == 1) &&
  [0x04, 0x05, 0x0A, 0x0B, 0x0C, 0x0D, 0x0E].all (fun ty => countSec t ty false ≤ 1)

/-- The use of sections in a delta (R53). -/
def deltaUse (t : List SecEnt) : Bool :=
  t.all (fun e => 1 ≤ e.type && e.type ≤ 0x0E && (!bit e.flags 0 || secDel e.type)) &&
  (List.range 15).all (fun ty => countSec t ty false ≤ 1 && countSec t ty true ≤ 1)

/-- The reserved fields outside the bodies: the header, the flags and reserved bytes of the section table, and the padding
between bodies (R49, R50, R52). -/
def outerReserved (bs : Bytes) : Bool :=
  let t := secTable bs
  let l := bs.length
  let n := le bs 0x0C 2
  allZero (sl bs 0x0E 2) && allZero (sl bs 0x2C 84) && t.all (fun e => e.flags < 2 && e.rsv == 0) &&
  (List.range l).all (fun i => i < 128 + 16 * n || l - 64 ≤ i || t.any (fun e => e.offset ≤ i && i < e.offset + e.bytes) ||
    bs.getD i 0 == 0)

/-- The entries of a section of an image, parsed; none of them where the section is absent. -/
def secParse {α : Type} (bs : Bytes) (t : List SecEnt) (ty : Nat) (p : Bytes → Option α) : Option (List α) :=
  match findSec t ty false with
  | none => some []
  | some e => if e.count ≤ secMax ty && (!secOne ty || e.count == 1) then parseAll p (secEntries bs e) else none

/-- The keys of a DELETE section. -/
def secDels (bs : Bytes) (t : List SecEnt) (ty : Nat) : Option (List Nat) :=
  match findSec t ty true with
  | none => some []
  | some e => if e.count ≤ secMax ty then parseAll (parseDel ty) (secEntries bs e) else none

/-- The body of a section. -/
def secBody (bs : Bytes) (e : SecEnt) : Bytes := sl bs e.offset e.bytes

/-- The parts of the GUARD body (R54). -/
def parseGuard (e : Bytes) : Option (List Bound × List Issuer × Bool) := do
  let b ← parseAll parseBound ((List.range 64).map (fun i => sl e (16 * i) 16))
  let i ← parseAll parseIssuer ((List.range 8).map (fun k => sl e (0x400 + 64 * k) 64))
  let d := sl e 0x600 16
  let r ← when? (u8 d 0 ≤ 1 && allZero (sl d 1 15)) (b, i, u8 d 0 == 1)
  return r

/-- The bodies of an image, in range and with every reserved field 0. -/
def parseBodies (bs : Bytes) : Option Image := do
  let t := secTable bs
  let g ← secParse bs t 0x01 parseGuard
  let parts ← secParse bs t 0x02 parsePart
  let hosts ← secParse bs t 0x03 parseHost
  let exts ← secParse bs t 0x04 parseExt
  let grants ← secParse bs t 0x05 parseGrant
  let stooks ← secParse bs t 0x06 parseStook
  let tillers ← secParse bs t 0x07 parseTillers
  let eids ← secParse bs t 0x08 parseEid
  let sprays ← secParse bs t 0x09 parseSpray
  let traffic ← secParse bs t 0x0A parseTraf
  let gates ← match findSec t 0x0B false with
    | none => some []
    | some e => if e.count ≤ 72 then parseGates e.count (secBody bs e) else none
  let tiers ← secParse bs t 0x0C parseTier
  let pair ← secParse bs t 0x0D parsePair
  let trace ← secParse bs t 0x0E parseTrace
  let delParts ← secDels bs t 0x02
  let delHosts ← secDels bs t 0x03
  let delExts ← secDels bs t 0x04
  let delGrants ← secDels bs t 0x05
  let delEids ← secDels bs t 0x08
  let delSprays ← secDels bs t 0x09
  let delTraffic ← secDels bs t 0x0A
  let delGates ← match findSec t 0x0B true with
    | none => some []
    | some e => if e.count ≤ 72 then parseGateDel e.count (secBody bs e) else none
  let delTiers ← secDels bs t 0x0C
  return { kind := u8 bs 6, epoch := BitVec.ofNat 64 (le bs 0x10 8), baseEpoch := BitVec.ofNat 64 (le bs 0x18 8),
           targetId := BitVec.ofNat 64 (le bs 0x20 8),
           bounds := (g.map (·.1)).flatten, issuers := (g.map (·.2.1)).flatten,
           debugUnlockable := g.any (·.2.2),
           parts, hosts, exts, grants, stooks, tillers := tillers.head?, eids, sprays, traffic, gates, tiers,
           pair := pair.head?, trace := trace.head?,
           delParts, delHosts, delExts, delGrants, delEids, delSprays, delTraffic, delGates, delTiers }

/-- Orders 1 to 4 of R62 for a full image, but for the rules of R61: the parsed image or the status. -/
def parseFull (keys : List Bytes) (serial : DWord) (bs : Bytes) (supplied : Nat) : Except StrCode Image := do
  imgOrder1 bs supplied
  need (imgSigned keys bs) 0x03
  need (le bs 4 2 == 1 && u8 bs 6 == 0) 0x02
  need (le bs 0x20 8 == 0 || le bs 0x20 8 == serial.toNat) 0x05
  need (imgBounds bs) 0x02
  need (fullUse (secTable bs) && outerReserved bs && le bs 0x18 8 == 0) 0x04
  match parseBodies bs with
  | some i => .ok i
  | none => .error 0x04

/-- Orders 1 to 4 of R62 for a delta, with the checks of R65, but for the rules of R61. -/
def parseDelta (keys : List Bytes) (serial epoch : DWord) (bs : Bytes) (supplied : Nat) : Except StrCode Image := do
  imgOrder1 bs supplied
  need (imgSigned keys bs) 0x03
  need (le bs 4 2 == 1 && u8 bs 6 == 1) 0x02
  need (le bs 0x20 8 == serial.toNat) 0x05
  need (le bs 0x18 8 == epoch.toNat && le bs 0x10 8 == (epoch + 1).toNat) 0x06
  need (imgBounds bs) 0x02
  let t := secTable bs
  need (!t.any (fun e => e.type == 0x01 || e.type == 0x06)) 0x07
  need (deltaUse t && outerReserved bs) 0x04
  match parseBodies bs with
  | some i => .ok i
  | none => .error 0x04

/-! ## Structures -/

/-- No key stands twice. -/
def nodupKeys : List Nat → Bool
  | [] => true
  | k :: t => !t.contains k && nodupKeys t

/-- No section of an image holds two entries with one key (R53, R61). -/
def imgKeysOk (i : Image) : Bool :=
  [i.parts.map (·.1), i.hosts.map (·.1), i.exts.map (·.1), i.grants.map (·.1), i.stooks.map (·.1), i.eids.map (·.1),
   i.sprays.map (·.1), i.traffic.map (·.1), i.gates.map (·.1), i.tiers.map (·.1), i.delParts, i.delHosts, i.delExts,
   i.delGrants, i.delEids, i.delSprays, i.delTraffic, i.delGates, i.delTiers].all nodupKeys

/-- Every entry of a list put into a map. -/
def putAll {α : Type} (m : Map α) (es : List (Nat × α)) : Map α := es.foldl (fun m e => mput m e.1 e.2) m
/-- The entries whose keys a map holds already. -/
def oldKeys {α : Type} (m : Map α) (es : List (Nat × α)) : List (Nat × α) := es.filter (fun e => mhas m e.1)
/-- The entries whose keys a map does not hold. -/
def newKeys {α : Type} (m : Map α) (es : List (Nat × α)) : List (Nat × α) := es.filter (fun e => !mhas m e.1)
/-- Every key of a list taken out of a map. -/
def delAll {α : Type} (m : Map α) (ks : List Nat) : Map α := ks.foldl mdel m

/-- EID entries with the positions of R235: a full image places them in section order. -/
def placeEids (es : List (Nat × EidEnt)) : List (Nat × EidEnt) :=
  (es.zip (List.range es.length)).map (fun x => (x.1.1, { x.1.2 with pos := x.2 }))

/-- The lowest position below a bound that no entry has (R235). -/
def freePos (m : Map EidEnt) : Nat :=
  ((List.range (m.length + 1)).find? (fun p => !m.any (fun e => e.2.pos == p))).getD m.length

/-- A new EID entry at the lowest free position (R235). -/
def addEid (m : Map EidEnt) (e : Nat × EidEnt) : Map EidEnt := mput m e.1 { e.2 with pos := freePos m }

/-- The structure of a full image (R62 order 7). -/
def fullStruct (i : Image) : Struct :=
  { bounds := i.bounds, issuers := i.issuers, debugUnlockable := i.debugUnlockable,
    parts := putAll [] i.parts, hosts := putAll [] i.hosts, exts := putAll [] i.exts, grants := putAll [] i.grants,
    stooks := putAll [] i.stooks, tillers := i.tillers.getD (List.replicate 24 none), eids := putAll [] (placeEids i.eids),
    sprays := putAll [] i.sprays, traffic := putAll [] i.traffic, gates := putAll [] i.gates, tiers := putAll [] i.tiers,
    pair := i.pair.getD {}, trace := i.trace.getD {} }

/-- The Tillers that phase A releases: every byte that changes from a partition (R67). -/
def releasedTillers (s : Struct) (i : Image) : List Nat :=
  match i.tillers with
  | none => []
  | some new => (List.range 24).filter (fun k =>
      (s.tillers.getD k none).isSome && s.tillers.getD k none != new.getD k none)

/-- What a delta's phase A makes of a structure: every DELETE entry and every replacement (R65, R67). A deleted extent stays
until its zeroing ends (R89), and the bodies that replace whole bodies are replacements. -/
def deltaA (s : Struct) (i : Image) : Struct :=
  { s with
    parts := putAll (delAll s.parts i.delParts) (oldKeys s.parts i.parts)
    hosts := putAll (delAll s.hosts i.delHosts) (oldKeys s.hosts i.hosts)
    exts := putAll s.exts (oldKeys s.exts i.exts)
    grants := putAll (delAll s.grants i.delGrants) (oldKeys s.grants i.grants)
    tillers := (s.tillers.zip (List.range 24)).map (fun x => if x.2 ∈ releasedTillers s i then none else x.1)
    eids := putAll (delAll s.eids i.delEids)
      ((oldKeys s.eids i.eids).map (fun e => (e.1, { e.2 with pos := ((mget s.eids e.1).map (·.pos)).getD 0 })))
    sprays := putAll (delAll s.sprays i.delSprays) (oldKeys s.sprays i.sprays)
    traffic := putAll (delAll s.traffic i.delTraffic) (oldKeys s.traffic i.traffic)
    gates := putAll (delAll s.gates i.delGates) (oldKeys s.gates i.gates)
    tiers := putAll (delAll s.tiers i.delTiers) (oldKeys s.tiers i.tiers)
    pair := i.pair.getD s.pair
    trace := i.trace.getD s.trace }

/-- What phase B adds to the structure after phase A: every entry of a new key, and the Tillers that join a partition. -/
def deltaB (s : Struct) (i : Image) : Struct :=
  let a := deltaA s i
  { a with
    parts := putAll a.parts (newKeys a.parts i.parts)
    hosts := putAll a.hosts (newKeys a.hosts i.hosts)
    exts := putAll a.exts (newKeys a.exts i.exts)
    grants := putAll a.grants (newKeys a.grants i.grants)
    tillers := i.tillers.getD a.tillers
    eids := (newKeys a.eids i.eids).foldl addEid a.eids
    sprays := putAll a.sprays (newKeys a.sprays i.sprays)
    traffic := putAll a.traffic (newKeys a.traffic i.traffic)
    gates := putAll a.gates (newKeys a.gates i.gates)
    tiers := putAll a.tiers (newKeys a.tiers i.tiers) }

/-! ## The rules of R61 -/

/-- The bound of a partition. -/
def Struct.bound (s : Struct) (p : Nat) : Bound := s.bounds.getD p {}

/-- The valid partitions. -/
def Struct.validParts (s : Struct) : List Nat := (List.range 64).filter (fun p => (s.bound p).valid)

/-- The TIER entry that holds for a partition (R55): GRAIN_PREFER, write-through and 10 % where it has none. -/
def Struct.tier (s : Struct) (p : Nat) : TierEnt := (mget s.tiers p).getD ⟨1, 0, 10⟩

/-- The hint that holds for an extent: 0 GRAIN_PIN, 1 GRAIN_PREFER, 2 HUSK_ONLY (R56). -/
def Struct.hint (s : Struct) (e : ExtEnt) : Nat := if e.hint = 3 then (s.tier e.part).hint else e.hint

/-- Does an extent write back; a mirrored extent and one of partition 0 never do (R85, R86). -/
def Struct.writeBack (s : Struct) (e : ExtEnt) : Bool :=
  !e.mirror && e.part != 0 && (if e.wpolicy = 2 then (s.tier e.part).wpolicy else e.wpolicy) == 1

/-- The share of a partition on a quadrant (R83). -/
def Struct.share (s : Struct) (p q : Nat) : Nat :=
  let b := s.bound p
  if b.valid then b.grainQuota / 4 + b2n (q < b.grainQuota % 4) else 0

/-- How many granules of an extent are homed on a quadrant (R76). -/
def ExtEnt.onQuad (e : ExtEnt) (q : Nat) : Nat :=
  let f := fun (n : Nat) => (n + 3 - q) / 4
  f (e.base + e.granules) - f e.base

/-- The mode of the stooks (R81): 0 NONE, 1 MIRROR, 2 QUAD_P, 3 DEV_P. -/
def Struct.mode (s : Struct) : Nat := (s.stooks.head?.map (·.2.mode)).getD 0

/-- The grants to an extent. -/
def Struct.grantsOf (s : Struct) (ext : Nat) : List (Nat × Rights) := s.grants.filter (fun g => grantExt g.1 == ext)

/-- The shape that a stook must have in its mode (R61). -/
def stookOk (e : StookEnt) : Bool :=
  let m := e.channels.toNat
  match e.mode with
  | 0 => (List.range 24).any (fun c => m == 2 ^ c)
  | 1 => (List.range 12).any (fun p => m == 3 * 4 ^ p)
  | 2 => (List.range 4).any (fun q => m == 63 * 64 ^ q)
  | _ => m == 2 ^ 24 - 1

/-- Every Husk channel belongs to exactly one stook, each of its shape, all of one mode (R61, R81). -/
def stooksOk (s : Struct) : Bool :=
  s.stooks.all (fun e => stookOk e.2 && e.2.mode == s.mode) &&
  (List.range 24).all (fun c => (s.stooks.filter (fun e => e.2.channels.getLsbD c)).length == 1)

/-- No two extents of a list overlap. -/
def extsDisjoint (l : List ExtEnt) : Bool := disjointAll (l.map (fun e => (e.base, e.granules)))

/-- The grants of an extent: none, 1 to 16 individual ones, or one group grant and no other (R61). -/
def grantsShape (l : List (Nat × Rights)) : Bool :=
  let g := l.filter (fun x => grantGroup x.1)
  l.isEmpty || (g.isEmpty && l.length ≤ 16) || (g.length == 1 && l.length == 1)

/-- The rule of R302 for the gate lists. -/
def gatesOk (s : Struct) : Bool :=
  let iso := fun (p : Nat) => (s.bound p).valid && (s.bound p).isolate
  s.gates.all (fun g => g.2.wins.all (fun w =>
      (List.range 64).all (fun p => !w.opens.getLsbD p || (s.bound p).valid) &&
      (!(List.range 64).any (fun p => w.opens.getLsbD p && iso p) || (List.range 64).any (fun p => w.opens.toNat == 2 ^ p)))) &&
  s.gates.all (fun g => (0 :: s.validParts).all (fun p => g.2.wins.any (fun w => w.opens.getLsbD p))) &&
  (!(List.range 64).any iso || (List.range 24).all (fun c => mhas s.gates (0x100 + c)))

/-- The rules for traffic entries (R61, R295). -/
def trafficOk (s : Struct) (t : TrafEnt) : Bool :=
  if t.kind = 0 then mhas s.hosts t.target
  else (t.cls == 1 || t.cls == 2) && (s.bound t.target).valid && t.target ≤ 63 &&
    (t.target == 0 || mhas s.parts t.target) &&
    (t.kind == 3 || (t.cir ≤ t.pir && t.cbs ≤ t.pbs && s.validParts.length ≤ 16))

/-- The rules for the pair (R61, R353). -/
def pairOk (s : Struct) : Bool :=
  let mirrored := s.exts.filter (fun e => e.2.mirror)
  if s.pair.role = 0 then mirrored.isEmpty
  else
    let self := (s.eids.find? (fun e => e.2.self)).map (·.1)
    s.pair.witness != s.pair.peer && some s.pair.witness != self && mhas s.eids s.pair.peer && mhas s.eids s.pair.witness &&
    match mget s.exts s.pair.ckptExt with
    | some e => e.part == 0 && e.mirror && 0x15000 + 64 * mirrored.length ≤ e.granules * 2097152
    | none => false

/-- The extents of a ring name extents of partition 0 (R61). -/
def traceOk (s : Struct) : Bool :=
  [s.trace.dumpExt, s.trace.traceExt, s.trace.logExt].all (fun o => match o with
    | none => true
    | some i => ((mget s.exts i).map (·.part)) == some 0)

/-- The granules of GRAIN_PIN extents of a partition that are homed on a quadrant. -/
def Struct.pinnedOn (s : Struct) (p q : Nat) : Nat :=
  ((s.exts.filter (fun e => e.2.part == p && s.hint e.2 == 0)).map (fun e => e.2.onQuad q)).sum

/-- The rules for the Grain shares (R61, R83). -/
def grainOk (s : Struct) : Bool :=
  let v := s.validParts
  (v.map (fun p => (s.bound p).grainQuota)).sum ≤ 15872 &&
  (List.range 4).all (fun q => (v.map (fun p => s.share p q)).sum ≤ 3968 && v.all (fun p => s.pinnedOn p q ≤ s.share p q)) &&
  v.all (fun p => ((List.range 4).map (s.pinnedOn p)).sum ≤ (s.bound p).grainQuota) &&
  (s.trace.logExt.isSome || 2 ≤ s.share 0 0)

/-- The rules for key slots and partition 0 (R61). -/
def slotsOk (s : Struct) : Bool :=
  let b0 := s.bound 0
  b0.valid && !b0.isolate && !b0.determine && b0.keySlot == 64 &&
  s.validParts.all (fun p => p == 0 || ((s.bound p).keySlot != 64 &&
    s.validParts.all (fun r => r == p || (s.bound r).keySlot != (s.bound p).keySlot)))

/-- The whole-structure rules of R61, with the rules that other chapters check together with them. usable is 4U; dying are the
extents that are, or become, DRAINING or ZEROING and still hold their granules (R89); full tells a full image. -/
def rulesOk (s : Struct) (usable : Nat) (unwraps : Bytes → Bool) (dying : List Nat) (full : Bool) : Bool :=
  let es := s.exts.map (·.2)
  let living := s.exts.filter (fun e => !dying.contains e.1)
  let v := fun (p : Nat) => (s.bound p).valid
  let has := fun (p : Nat) => p == 0 || mhas s.parts p
  slotsOk s &&
  s.parts.all (fun e => v e.1) && (!full || s.validParts.all has) &&
  s.hosts.all (fun e => v e.2.part && has e.2.part) && es.all (fun e => v e.part) && living.all (fun e => has e.2.part) &&
  s.tillers.all (fun o => match o with | none => true | some p => v p && has p) && s.tiers.all (fun e => v e.1 && has e.1) &&
  s.parts.all (fun e => e.2.vf == 0 || s.parts.all (fun f => f.1 == e.1 || f.2.vf != e.2.vf)) &&
  s.issuers.all (fun i => !i.valid || unwraps i.wrapped) &&
  grainOk s && extsDisjoint es && es.all (fun e => e.base + e.granules ≤ usable) &&
  s.validParts.all (fun p => (s.bound p).poolLimit == 0 ||
    ((es.filter (fun e => e.part == p)).map (·.granules)).sum ≤ (s.bound p).poolLimit) &&
  s.grants.all (fun g => match mget s.exts (grantExt g.1) with
    | none => false
    | some e => e.part != 0 && if grantGroup g.1
        then s.hosts.all (fun h => h.2.group != grantGrantee g.1 || h.2.part == e.part)
        else ((mget s.hosts (grantGrantee g.1)).map (·.part)) == some e.part) &&
  s.exts.all (fun e => grantsShape (s.grantsOf e.1)) &&
  s.hosts.all (fun h => mhas s.eids h.1) && (s.hosts.filter (fun h => h.2.agent)).length ≤ 1024 &&
  s.hosts.all (fun h => h.2.group == 0xFFFF || s.hosts.all (fun k => k.2.group != h.2.group || k.2.part == h.2.part)) &&
  (List.range 64).all (fun p => (s.tillers.filter (· == some p)).length ≤ (s.bound p).tillerMax || !v p) &&
  stooksOk s &&
  (s.eids.filter (fun e => e.2.self)).length == 1 && s.eids.all (fun e => mhas s.sprays e.2.spray) &&
  s.sprays.all (fun e => e.2 != 0) && s.hosts.length ≤ 4096 && s.eids.length ≤ 4096 && s.traffic.length ≤ 8192 &&
  s.traffic.all (fun t => trafficOk s t.2) && gatesOk s && pairOk s && traceOk s

/-- The check of a delta against the running structure: no entry replaces BASE, GRANULES or PART of an extent, the keys are
single, and the resulting structure meets R61 (R65, R66, R69). An extent that the delta deletes stays in the structure that is judged, so
TRACE, PAIR and grants may still name it, and an entry that lists a deleted index again with its BASE, GRANULES and PART is a
replacement: DESIGN CHOICE (log entries 62, 63). -/
def deltaOk (s : Struct) (i : Image) (usable : Nat) (dying : List Nat) : Bool :=
  imgKeysOk i &&
  (oldKeys s.exts i.exts).all (fun e => match mget s.exts e.1 with
    | some o => o.base == e.2.base && o.granules == e.2.granules && o.part == e.2.part
    | none => true) &&
  rulesOk (deltaB s i) usable (fun _ => true) (dying ++ i.delExts) false

end Sys2Proof.Machine
end

