-- ==== Sys2Proof/Machine/Place.lean ====
section
/-! DEFINITION. Where a pool line lies: address decode, the placement of lines on Husk channels with its inverse, and the usable
granules (R76 to R79). Lines are numbered by pool address div 128. -/

namespace Sys2Proof.Machine

/-- The granule of a line (R76). -/
def granOf (l : Nat) : Nat := l / 16384
/-- The home quadrant of a line (R76). -/
def homeOf (l : Nat) : Nat := granOf l % 4
/-- The line within its granule (R76). -/
def lineIn (l : Nat) : Nat := l % 16384
/-- The data line index within the quadrant (R76). -/
def dataIx (l : Nat) : Nat := granOf l / 4 * 16384 + lineIn l
/-- The line of a quadrant with a data line index: the inverse of R76. -/
def lineAt (q d : Nat) : Nat := (d / 16384 * 4 + q) * 16384 + d % 16384
/-- The first line of a granule. -/
def lineOfGran (g : Nat) : Nat := g * 16384

/-- The line of a pool address. -/
def lineOf (a : Nat) : Nat := a / 128

/-- A place on a Husk channel: the channel and its channel-local line. -/
abbrev HuskPos := Nat × Nat

/-- The data slots that a quadrant has in 24 rows under DEV_P, in order: the row within the 24 and the channel of the quadrant
(R78). -/
def devSlots (q : Nat) : List (Nat × Nat) :=
  ((List.range 24).map (fun a => ((List.range 6).filter (fun k =>
    6 * q + k != a % 24 && 6 * q + k != (a + 1) % 24)).map (fun k => (a, k)))).flatten

/-- Where data line d of quadrant q lies under a mode (R78). -/
def huskPos (mode q d : Nat) : HuskPos :=
  match mode with
  | 0 => (6 * q + d % 6, d / 6)
  | 1 => (6 * q + 2 * (d % 3), d / 3)
  | 2 =>
    let s := d / 5; let k := d % 5; let p := s % 6
    (6 * q + (if k < p then k else k + 1), s)
  | _ =>
    let e := (devSlots q).getD (d % 132) (0, 0)
    (6 * q + e.2, 24 * (d / 132) + e.1)

/-- The second channel of a MIRROR pair, which holds the mirror at the same channel-local line (R78). -/
def mirrorPos (p : HuskPos) : HuskPos := (p.1 + 1, p.2)

/-- The channels that hold check lines of a data line's stripe: P, then Q (R78). -/
def checkChans (mode q : Nat) (p : HuskPos) : List Nat :=
  match mode with
  | 2 => [6 * q + p.2 % 6]
  | 3 => [p.2 % 24, (p.2 + 1) % 24]
  | _ => []

/-- What a channel-local line of a Husk channel holds: the first copy of a data line, the mirror copy, a check line (0 P, 1 Q),
or nothing. -/
inductive HuskHolds | data (l : Nat) | mirror (l : Nat) | check (ix : Nat) | nothing
  deriving DecidableEq, Repr

/-- The inverse of R78. -/
def huskHolds (mode c line : Nat) : HuskHolds :=
  let q := c / 6
  match mode with
  | 0 => .data (lineAt q (line * 6 + c % 6))
  | 1 =>
    let l := lineAt q (line * 3 + c % 6 / 2)
    if c % 2 = 0 then .data l else .mirror l
  | 2 =>
    let p := line % 6; let pos := c % 6
    if pos = p then .check 0 else .data (lineAt q (line * 5 + (if pos < p then pos else pos - 1)))
  | _ =>
    if c = line % 24 then .check 0
    else if c = (line + 1) % 24 then .check 1
    else match (devSlots q).findIdx? (· == (line % 24, c % 6)) with
      | some e => .data (lineAt q (line / 24 * 132 + e))
      | none => .nothing

/-- The data lines of the stripe at a channel-local line: all its lines, in channel order (R78). -/
def stripeLines (mode c line : Nat) : List Nat :=
  let chans := match mode with
    | 2 => (List.range 6).map (fun k => 6 * (c / 6) + k)
    | 3 => List.range 24
    | _ => []
  chans.filterMap (fun k => match huskHolds mode k line with
    | .data l => some l
    | _ => none)

/-- The lines of a channel of C GiB (R78): C / 128 bytes. -/
def lchOf (capGib : Nat) : Nat := capGib * 8388608

/-- The usable granules of each quadrant (R79). -/
def usableOf (mode lch : Nat) : Nat :=
  match mode with
  | 0 => 6 * lch / 16384
  | 1 => 3 * lch / 16384
  | 2 => 5 * lch / 16384
  | _ => (lch / 24) * 132 / 16384

/-- The place of line n of a granule in frame f: its Grain channel and channel-local line (R77). -/
def grainPos (l f : Nat) : Nat × Nat := (32 * homeOf l + lineIn l % 32, 65536 + f * 512 + lineIn l / 32)

/-- What a channel-local line of a Grain channel holds: a line of the directory reserve, or line n of frame f (R77). -/
inductive GrainHolds | reserve (q s : Nat) | frame (q f n : Nat)
  deriving DecidableEq, Repr

/-- The inverse of R77; the reserve lines of a quadrant are dealt over its 32 channels in ascending order. -/
def grainHolds (ch line : Nat) : GrainHolds :=
  if line < 65536 then .reserve (ch / 32) (line * 32 + ch % 32)
  else .frame (ch / 32) ((line - 65536) / 512) ((line - 65536) % 512 * 32 + ch % 32)

end Sys2Proof.Machine
end

