-- ==== Sys2Proof/Machine/Store.lean ====
section
/-! DEFINITION. Storage of pool lines: which copies exist, what a line reads as, and the writes that keep every copy in step
(R84 to R88, R98, R337, R338, R340, R349, R350, R382). A line is held in clear with its key slot, from which its stored ciphertext
follows. -/

namespace Sys2Proof.Machine

/-! ## Extents -/

/-- The extent that a granule lies in, with its index. -/
def Struct.extAt (s : Struct) (g : Nat) : Option (Nat × ExtEnt) :=
  s.exts.find? (fun e => e.2.base ≤ g && g < e.2.base + e.2.granules)

/-- The home agent of an extent's base granule: the extent home (R89). -/
def ExtEnt.home (e : ExtEnt) : Nat := e.base % 4

/-- Does an extent hold a line. -/
def ExtEnt.has (e : ExtEnt) (l : Nat) : Bool := e.base ≤ granOf l && granOf l < e.base + e.granules

/-- The runtime state of an extent. -/
def Blk.extRt (b : Blk) (i : Nat) : ExtRt := (mget b.ext.exts i).getD {}

/-- The runtime state of an extent changed. -/
def Blk.modExt (b : Blk) (i : Nat) (f : ExtRt → ExtRt) : Blk :=
  { b with ext.exts := mput b.ext.exts i (f (b.extRt i)) }

/-- The key slot bound to a partition (R381). -/
def Struct.slotOf (s : Struct) (p : Nat) : Nat := (s.bound p).keySlot

/-! ## Which copies exist (R349, R350) -/

/-- The mode of the running stooks. -/
def Blk.mode (b : Blk) : Nat := b.str.run.mode

/-- Does a Husk channel store its channel-local line: it is in service, or its rebuild has passed the line (R350). -/
def Blk.stored (b : Blk) (c line : Nat) : Bool :=
  let h := b.husk c
  !h.lost && (!h.rebuilding || line < h.cursor)

/-- Where a line lies on the Husk tier. -/
def Blk.pos (b : Blk) (l : Nat) : HuskPos := huskPos b.mode (homeOf l) (dataIx l)

/-- The channels that protect one another with a channel (R78, R349), and how many losses they serve. -/
def Blk.stookOf (b : Blk) (c : Nat) : List Nat × Nat :=
  match b.mode with
  | 0 => ([c], 0)
  | 1 => ([c / 2 * 2, c / 2 * 2 + 1], 1)
  | 2 => ((List.range 6).map (fun k => 6 * (c / 6) + k), 1)
  | _ => (List.range 24, 2)

/-- How many channels of a channel's stook do not store the line at a channel-local line. -/
def Blk.goneAt (b : Blk) (c line : Nat) : Nat := ((b.stookOf c).1.filter (fun k => !b.stored k line)).length

/-- Does the stook of a line serve it: its own channel stores it, or no more channels of the stook are gone than it serves (R349). -/
def Blk.inStook (b : Blk) (l : Nat) : Bool :=
  let p := b.pos l
  b.stored p.1 p.2 || b.goneAt p.1 p.2 ≤ (b.stookOf p.1).2

/-- Was a line lost for good that its channel does not store: more channels of its stripe were gone than its stook serves, and it has not been
written since (R349). -/
def Blk.isVoid (b : Blk) (l : Nat) : Bool :=
  let p := b.pos l
  2 ≤ b.mode && !b.stored p.1 p.2 && (b.husk p.1).void.any (· ≤ p.2) && !b.pool.revived.contains l

/-- Does a line have surviving Husk storage (R349). -/
def Blk.huskAlive (b : Blk) (l : Nat) : Bool := b.inStook l && !b.isVoid l

/-- Is the copy A of a line readable: stored, or rebuilt from its stripe. -/
def Blk.aliveA (b : Blk) (l : Nat) : Bool :=
  let p := b.pos l
  if b.mode = 1 then b.stored p.1 p.2 else b.huskAlive l

/-- Is the mirror copy of a line stored. -/
def Blk.aliveB (b : Blk) (l : Nat) : Bool :=
  let p := b.pos l
  b.mode == 1 && b.stored (p.1 + 1) p.2

/-- Is a line served from its Grain frame: its granule occupies one and, during a move, the line is on the Grain side of the
cursor (R85, R88). -/
def Blk.inGrain (b : Blk) (l : Nat) : Bool :=
  mhas b.pool.frames (granOf l) &&
  let side := fun (m : Mig) => match m.kind with
    | .into => decide (lineIn l < m.cursor)
    | .out => decide (m.cursor ≤ lineIn l)
    | .clean => true
  (match mget b.pool.migs (homeOf l) with
    | some m => if m.granule = granOf l then side m else true
    | none => true) &&
  (match mget b.pool.stopped (granOf l) with
    | some m => side m
    | none => true)

/-! ## Reading -/

/-- The bytes of a copy. -/
def Blk.copyBytes (b : Blk) (c : Copy) (l : Nat) : Bytes :=
  match c with
  | .huskA => cread b.pool.cellsA (l * 128) 128
  | .huskB => cread b.pool.cellsB (l * 128) 128
  | .grain => cread b.pool.cellsG (l * 128) 128

/-- The metadata of a copy. -/
def Blk.copyMeta (b : Blk) (c : Copy) (l : Nat) : LineMeta :=
  match c with
  | .huskA => tget (fun _ => {}) b.pool.metaA l
  | .huskB => tget (fun _ => {}) b.pool.metaB l
  | .grain => tget (fun _ => {}) b.pool.metaG l

/-- The copy that a read of a line is served from; none where no copy survives. -/
def Blk.source (b : Blk) (l : Nat) : Option Copy :=
  if b.inGrain l then some .grain
  else if b.aliveA l then some .huskA
  else if b.aliveB l then some .huskB
  else none

/-- The partition of the extent that holds a line, 0 where none does. -/
def Blk.partOf (b : Blk) (l : Nat) : Nat := ((b.str.run.extAt (granOf l)).map (·.2.part)).getD 0

/-- Is a line's stored KEY_SLOT neither the slot of its extent's partition nor 64 (R382). -/
def Blk.slotBad (b : Blk) (l : Nat) (m : LineMeta) : Bool := m.slot != 64 && m.slot != b.str.run.slotOf (b.partOf l)

/-- What a line reads as, with its poison flag: poisoned where no stored copy survives (R349) and where its key slot is wrong
(R382). -/
def Blk.lineVal (b : Blk) (l : Nat) : Bytes × Bool :=
  match b.source l with
  | some c =>
    let m := b.copyMeta c l
    if m.poison || b.slotBad l m then (zeros 128, true) else (b.copyBytes c l, false)
  | none => (zeros 128, true)

/-- The bytes that a line holds, whatever its poison bit; 0 where no copy survives. -/
def Blk.storedBytes (b : Blk) (l : Nat) : Bytes := ((b.source l).map (fun c => b.copyBytes c l)).getD (zeros 128)

/-- The Husk channels that store copies of a line, and those that store the check lines of its stripe. -/
def Blk.dataChans (b : Blk) (l : Nat) : List Nat :=
  let p := b.pos l
  (if b.stored p.1 p.2 then [p.1] else []) ++ (if b.aliveB l then [p.1 + 1] else [])
/-- The Husk channels that store check lines of a line's stripe. -/
def Blk.checkStores (b : Blk) (l : Nat) : List Nat :=
  let p := b.pos l
  (checkChans b.mode (homeOf l) p).filter (fun c => b.stored c p.2)

/-- The metadata of a line as it reads. -/
def Blk.lineMeta (b : Blk) (l : Nat) : LineMeta :=
  match b.source l with
  | some c => b.copyMeta c l
  | none => { poison := true }

/-! ## Writing -/

/-- A copy of a line set to bytes and metadata; any error pattern that stood on it is gone. -/
def Blk.putCopy (b : Blk) (c : Copy) (l : Nat) (bs : Bytes) (m : LineMeta) : Blk :=
  match c with
  | .huskA => { b with
      pool.cellsA := cwrite b.pool.cellsA (l * 128) (fit 128 bs)
      pool.metaA := tset (fun _ => {}) b.pool.metaA l { m with dirty := false }
      pool.inj := mdel b.pool.inj (l * 8) }
  | .huskB => { b with
      pool.cellsB := cwrite b.pool.cellsB (l * 128) (fit 128 bs)
      pool.metaB := tset (fun _ => {}) b.pool.metaB l { m with dirty := false }
      pool.inj := mdel b.pool.inj (l * 8 + 1) }
  | .grain => { b with
      pool.cellsG := cwrite b.pool.cellsG (l * 128) (fit 128 bs)
      pool.metaG := tset (fun _ => {}) b.pool.metaG l m
      pool.inj := mdel b.pool.inj (l * 8 + 2) }

/-- The key of the error pattern that stands on a check line, 0 P, 1 Q: under the first data line of its stripe. -/
def Blk.checkKey (b : Blk) (c line ix : Nat) : Nat := (stripeLines b.mode c line).headD 0 * 8 + 3 + ix

/-! ### Ciphertext (R336, R337, R382) -/

/-- The metadata of a line as a number (R337). -/
def LineMeta.word (m : LineMeta) : Nat := b2n m.poison + 2 * m.wepoch.toNat + 512 * (m.slot % 128) + 65536 * b2n m.dirty

/-- The metadata that a number gives. -/
def LineMeta.ofWord (w : Nat) : LineMeta :=
  { poison := bit w 0, wepoch := BitVec.ofNat 8 (fld w 8 1), slot := fld w 15 9, dirty := bit w 16 }

/-- The key of a slot (R381). -/
def Blk.slotKey (b : Blk) (slot : Nat) : Bytes := (mget b.sec.keySlots slot).getD (zeros 64)

/-- The stored ciphertext of a line's plaintext under a key slot: one XTS data unit, whose tweak is the pool address bits 47:7 (R382). -/
def Blk.sealLine (b : Blk) (l slot : Nat) (bs : Bytes) : Bytes := xtsSeal (b.slotKey slot) l (fit 128 bs)

/-- The 136 information bytes of the codeword of a copy: its ciphertext, then its metadata (R336). -/
def Blk.copyInfo (b : Blk) (c : Copy) (l : Nat) : Bytes :=
  let m := b.copyMeta c l
  b.sealLine l m.slot (b.copyBytes c l) ++ toLe 8 m.word

/-- A copy whose information bytes change by a pattern: what it then holds in clear. -/
def Blk.flipCopy (b : Blk) (c : Copy) (l : Nat) (p : Bytes) : Blk :=
  if allZero (p.take 136) then b
  else
    let i := xorBytes (b.copyInfo c l) (fit 136 p)
    let m := LineMeta.ofWord (le i 128 8)
    b.putCopy c l (xtsOpen (b.slotKey m.slot) l (i.take 128)) m

/-! ### Check lines (R78, R338, R346) -/

/-- By how much a check line differs from the parity of its data lines. -/
def Blk.checkDelta (b : Blk) (c line : Nat) : Bytes := (mget b.pool.badChecks (line * 24 + c)).getD (zeros 136)

/-- A check line that differs from the parity of its data lines by a pattern. -/
def Blk.setDelta (b : Blk) (c line : Nat) (d : Bytes) : Blk :=
  { b with pool.badChecks := if allZero d then mdel b.pool.badChecks (line * 24 + c) else mput b.pool.badChecks (line * 24 + c) (fit 136 d) }

/-- The data lines of the row of a channel's stook, with their channels. -/
def Blk.rowData (b : Blk) (c line : Nat) : List (Nat × Nat) :=
  (b.stookOf c).1.filterMap (fun k => match huskHolds b.mode k line with
    | .data l => some (k, l)
    | _ => none)

/-- The check lines of the row: their channels, P with 0 and Q with 1. -/
def Blk.rowChecks (b : Blk) (c line : Nat) : List (Nat × Nat) :=
  (b.stookOf c).1.filterMap (fun k => match huskHolds b.mode k line with
    | .check i => some (k, i)
    | _ => none)

/-- What a change of a data line's information bytes changes in a check line: P is their sum, and the manual does not give Q. pos: the place
of the data line in its row. -/
def checkTerm (ix pos : Nat) (d : Bytes) : Bytes :=
  if ix = 0 || allZero d then d else fit 136 (Config.qTerm pos d)

/-- A copy of a data line changed by a pattern while the check lines of its stripe stay: they disagree with it from then on (R346). -/
def Blk.flipData (b : Blk) (c line : Nat) (l : Nat) (p : Bytes) : Blk :=
  let pos := ((b.rowData c line).findIdx? (fun x => x.2 == l)).getD 0
  (b.rowChecks c line).foldl (fun b k => b.setDelta k.1 line (xorBytes (b.checkDelta k.1 line) (checkTerm k.2 pos (fit 136 p)))) (b.flipCopy .huskA l p)

/-- The lines of a row that their channels do not store, or whose codewords ks have not decoded, made what the rest of the stripe gives: from P,
from Q, or from both (R339, R349). A check line among them is what the data lines give. -/
def Blk.settleRow (b : Blk) (c line : Nat) (ks : List Nat) : Blk :=
  let ds := b.rowData c line
  let out := fun (k : Nat) => !b.stored k line || ks.contains k
  let gone := ds.filter (fun x => out x.1)
  let cs := b.rowChecks c line
  let keep := cs.filter (fun k => !out k.1)
  let pos := fun (x : Nat × Nat) => (ds.findIdx? (· == x)).getD 0
  let b1 := match gone, keep with
    | [x], k :: _ =>
      let e := b.checkDelta k.1 line
      let d := if k.2 = 0 || allZero e then e else fit 136 (Config.qSolve (pos x) e)
      (b.flipData c line x.2 d).setDelta k.1 line []
    | [x, y], [k, m] =>
      let e := b.checkDelta k.1 line; let f := b.checkDelta m.1 line
      if allZero e && allZero f then b
      else
        let s := Config.pqSolve (pos x) (pos y) e f
        ((((b.flipCopy .huskA x.2 (fit 136 s.1)).flipCopy .huskA y.2 (fit 136 s.2)).setDelta k.1 line []).setDelta m.1 line [])
    | _, _ => b
  (cs.filter (fun k => out k.1)).foldl (fun b k => b.setDelta k.1 line []) b1

/-- The check lines of a line's stripe written from its data lines: no pattern stands on them, and none disagrees (R338). -/
def Blk.freshChecks (b : Blk) (l : Nat) : Blk :=
  let p := b.pos l
  let cs := checkChans b.mode (homeOf l) p
  if cs.isEmpty then b
  else { b with
    pool.inj := mdel (mdel b.pool.inj (b.checkKey p.1 p.2 0)) (b.checkKey p.1 p.2 1)
    pool.badChecks := b.pool.badChecks.filter (fun k => !cs.contains (k.1 % 24) || k.1 / 24 != p.2) }

/-- Can copy A of a line be written: its channel stores it, or outside MIRROR its stripe takes it in (R349). -/
def Blk.takesA (b : Blk) (l : Nat) : Bool :=
  if b.mode = 1 then b.stored (b.pos l).1 (b.pos l).2 else b.inStook l

/-- A line of a void row that its stripe has taken in is there again. -/
def Blk.revive (b : Blk) (l : Nat) : Blk :=
  if b.isVoid l && b.takesA l then { b with pool.revived := with1 b.pool.revived l } else b

/-- The Husk copies of a line set to bytes and metadata: copy A where it is stored or held by the stripe, and the mirror copy
where it is stored; the check lines follow. -/
def Blk.putHusk (b : Blk) (l : Nat) (bs : Bytes) (m : LineMeta) : Blk :=
  let b1 := if b.takesA l then b.putCopy .huskA l bs m else b
  ((if b.aliveB l then b1.putCopy .huskB l bs m else b1).freshChecks l).revive l

/-- The key of the count of a channel's operations in the running 10 µs window. -/
def opsKey (c : Nat) : Nat := 5000 + c

/-- A line operation of a partition on a Husk channel, counted (R421, R423): code 1 read, 2 written. It enters the channel's queue of the
partition (R299, R301), and takes a line slot of the running window (R350). -/
def Blk.huskOp (b : Blk) (c code part : Nat) : Blk :=
  let b0 : Blk := { b with pool.used := tmod (fun _ => 0) b.pool.used (opsKey c) (· + 1) }
  let b1 := (b0.aonAdd (120 + c) 1).event (36 + c) code (some part)
  let w : HuskWait := ⟨b.tb, b.coh.serving⟩
  b1.modHusk c (fun h => if code = 1 then { h with reads := tmod (fun _ => []) h.reads part (· ++ [w]) }
    else { h with writes := tmod (fun _ => []) h.writes part (· ++ [w]) })

/-- One line operation on each of some Husk channels. -/
def Blk.huskOps (b : Blk) (code part : Nat) (cs : List Nat) : Blk := cs.foldl (fun b c => b.huskOp c code part) b

/-- The Husk channels that a write of a line writes: those of its copies and of the check lines of its stripe. -/
def Blk.huskWrites (b : Blk) (l : Nat) : List Nat := b.dataChans l ++ b.checkStores l

/-- The Husk operations of a line moved for a partition: a read (code 1) of the copy that serves it, or a write (code 2) of every copy and of
the check lines of its stripe. -/
def Blk.countHusk (b : Blk) (l code part : Nat) : Blk :=
  b.huskOps code part (if code = 1 then (b.dataChans l).take 1 else b.huskWrites l)

/-- The event counts of a line moved on the Grain tier. -/
def Blk.countGrain (b : Blk) (l code part : Nat) : Blk :=
  (b.aonAdd (144 + homeOf l) 1).event (32 + homeOf l) code (some part)

/-- Does the extent of a line write back, under the structure that its home agent works under (R68, R85). -/
def Blk.lineWb (b : Blk) (l : Nat) : Bool :=
  let s := b.view (.home (Fin.ofNat 4 (homeOf l)))
  match s.extAt (granOf l) with
  | some e => s.writeBack e.2
  | none => false

/-- A write of a line with its poison bit (R85, R338): WEPOCH rises by 1, every copy gets the same bytes and metadata, and a
line of a write-back extent that occupies a frame is marked dirty and left out of the Husk tier. wb: does the extent write back. -/
def Blk.writeLine (b : Blk) (l : Nat) (bs : Bytes) (poison : Bool) (wb : Bool := b.lineWb l) : Blk :=
  let part := b.partOf l
  let old := b.lineMeta l
  let m : LineMeta := { poison := poison, wepoch := old.wepoch + 1, slot := b.str.run.slotOf part }
  if b.inGrain l then
    if wb then (b.putCopy .grain l bs { m with dirty := true }).countGrain l 2 part
    else (((b.putCopy .grain l bs m).putHusk l bs m).countGrain l 2 part).countHusk l 2 part
  else (b.putHusk l bs m).countHusk l 2 part

/-- The bytes of a line written under a mask, from what the line reads as: a write of every byte clears POISON, and a partial
write of a poisoned line leaves it poisoned (R340). -/
def Blk.writeMasked (b : Blk) (l : Nat) (bs : Bytes) (mask : BitVec 128) (poison : Bool) (wb : Bool := b.lineWb l) : Blk :=
  let full := mask == BitVec.allOnes 128
  b.writeLine l (mergeMask mask (b.storedBytes l) bs) (if full then poison else ((b.lineVal l).2 || poison)) wb

/-- A line zeroed on the Husk tier: zero data under key slot 64, POISON clear and WEPOCH 0 (R98). -/
def Blk.zeroHusk (b : Blk) (l : Nat) : Blk :=
  b.putHusk l (zeros 128) {}

/-- A line zeroed in its frame (R98), counted as a line moved on the Grain tier (R421, R423). -/
def Blk.zeroGrain (b : Blk) (l : Nat) : Blk := (b.putCopy .grain l (zeros 128) {}).countGrain l 2 0

/-- The mask of n bytes from offset o of a line. -/
def lineMask (o n : Nat) : BitVec 128 := BitVec.ofNat 128 ((2 ^ n - 1) * 2 ^ o)

/-- One line's part of a write of bytes from an address: the line, the bytes in place and the mask. -/
def linePart (a : Nat) (bs : Bytes) (i : Nat) : Nat × Bytes × BitVec 128 :=
  let l := a / 128 + i
  let lo := max a (l * 128)
  let hi := min (a + bs.length) (l * 128 + 128)
  (l, zeros (lo - l * 128) ++ sl bs (lo - a) (hi - lo) ++ zeros (l * 128 + 128 - hi), lineMask (lo - l * 128) (hi - lo))

/-- The lines of a write of bytes from an address. -/
def lineParts (a : Nat) (bs : Bytes) : List (Nat × Bytes × BitVec 128) :=
  if bs.isEmpty then [] else (List.range ((a + bs.length + 127) / 128 - a / 128)).map (linePart a bs)

/-- The MOD_COUNT of the extent of a line raised by n (R456). -/
def Blk.bumpMod (b : Blk) (l n : Nat) : Blk :=
  match b.str.run.extAt (granOf l) with
  | some e => b.modExt e.1 (fun r => { r with modCount := r.modCount + BitVec.ofNat 64 n })
  | none => b

end Sys2Proof.Machine
end

