-- ==== Sys2Proof/Machine/Access.lean ====
section
/-! DEFINITION. The checks that every access to pool memory passes at its home agent, and the accesses of the hub's own writers: the log,
the dump and trace rings and the snapshot (R37, R38, R90, R91, R103, R112, R113, R117, R342, R353). -/

namespace Sys2Proof.Machine

/-! ## A zeroisation that has been taken (R388, R389) -/

/-- Does a DEBUG_UNLOCK pass: a nonce not older than 60 s, a level in range and the signature of DEBUG_KEY (R388). -/
def Blk.debugOk (b : Blk) (level : Nat) (sig : Bytes) : Bool :=
  match b.sec.nonce with
  | none => false
  | some (n, t) =>
    decide (b.tb ≤ t + 60000000000) && (level == 1 || level == 2) && !allZero b.sec.debugKey &&
    ecdsaVerify b.sec.debugKey (sha256 (n ++ toLe 8 b.sec.otp.serial.toNat ++ toLe 1 level)) sig

/-- Does the Guard set's debug word allow an unlock (R54, R388). -/
def Blk.unlockable (b : Blk) : Bool := (b.sec.guard.map (·.debugUnlockable)).getD false

/-- Has a ZEROIZE been taken, or a DEBUG_UNLOCK at level 2 that passes: until it has run, home agents accept no request and Threshers no Submit
(R389 step 1). -/
def Blk.closing (b : Blk) : Bool :=
  b.hub.inProg.any (fun r => u8 r.bytes 0 == 0x27 ||
    (u8 r.bytes 0 == 0x26 && u8 r.bytes 8 == 2 && b.unlockable && b.debugOk 2 (sl r.bytes 0x10 64)))

/-! ## Identity and checks (R90, R91) -/

/-- For whom an access is made (R91): a fabric host, a partition (Tillers, Threshers, VFs and their movers), the PF0 aperture, or
the device. -/
inductive Act | host (eid : Nat) | part (p : Nat) | pf0 | dev
  deriving DecidableEq, Repr

/-- The kinds of access that R90 tells apart: RdS, RdX, another read, a write, an atomic. -/
inductive AKind | rds | rdx | read | write | atomic
  deriving DecidableEq, Repr

/-- What the checks give: a status, and on ACCESS_OK whether the requester may write, and the partition and index of the
extent. -/
structure Checked where
  status : Nat
  canWrite : Bool := false
  part : Nat := 0
  ext : Nat := 0
  deriving DecidableEq, Repr

/-- The state of an extent as a home agent applies it: the state before a revocation that it has not taken (R89, R97). -/
def Blk.extStateAt (b : Blk) (q i : Nat) : ExtState :=
  let r := b.extRt i
  if b.ext.revPend.contains (q, .extent i) then r.prior else r.state

/-- The rights that a fabric host has on an extent, individually or through its group (R90). -/
def Struct.rightsOf (s : Struct) (i eid : Nat) : Option Rights :=
  match mget s.grants (grantKey i eid false) with
  | some r => some r
  | none => match mget s.hosts eid with
    | some h => if h.group = 0xFFFF then none else mget s.grants (grantKey i h.group true)
    | none => none

/-- The checks on a fabric host that come before those on the address (R90). A home agent takes a host's lease as live until it takes
the EXPIRE (R93, R94). -/
def Blk.hostStatus (b : Blk) (q eid : Nat) : Nat :=
  let s := b.view (.home (Fin.ofNat 4 q))
  if !mhas s.hosts eid then 0x10
  else if b.coh.suspended.contains (q, eid) then 0x18
  else if b.ext.dead.contains (q, eid) then 0x1A
  else match mget b.ext.leases eid with
    | some l => if l.live || b.ext.expPend.contains (q, eid) then 0 else if l.lapsed then 0x1A else 0x11
    | none => 0x11

/-- The pair statuses of R342, before any check of R90; 0 where none holds. -/
def Blk.pairStatus (b : Blk) (e : ExtEnt) : Nat :=
  if !e.mirror then 0
  else if b.pair.fenced then 0x93
  else if b.pair.role = 2 then 0x94
  else 0

/-- Is an extent one whose writes are turned away in a fail-over gap (R90, R362). -/
def Blk.inGap (b : Blk) (e : ExtEnt) : Bool := e.mirror && b.pair.gap

/-- Does the partition rule of R91 let a requester reach an extent. -/
def partOk (s : Struct) (a : Act) (e : ExtEnt) : Bool :=
  match a with
  | .host _ => true
  | .part p => e.part == p
  | .pf0 => e.part == 0 || !(s.bound e.part).isolate
  | .dev => e.part == 0

/-- The checks of R90 on an access to a line at its home agent, in order; the first that fails gives the status. -/
def Blk.checkHome (b : Blk) (a : Act) (k : AKind) (l : Nat) : Checked :=
  let q := homeOf l
  let s := b.view (.home (Fin.ofNat 4 q))
  let h := match a with | .host e => b.hostStatus q e | _ => 0
  if h ≠ 0 then ⟨h, false, 0, 0⟩
    else match s.extAt (granOf l) with
    | none => ⟨0x12, false, 0, 0⟩
    | some (i, e) =>
      let st := b.extStateAt q i
      let r := match a with
        | .host eid => s.rightsOf i eid
        | _ => some ⟨true, true, true⟩
      let gone := match a with
        | .host eid => r.isNone && ((b.extRt i).revoked.contains eid || (match mget s.hosts eid with
            | some h => h.group != 0xFFFF && (b.extRt i).revoked.contains (65536 + h.group)
            | none => false))
        | _ => false
      let agent := match a with | .host eid => ((mget s.hosts eid).map (·.agent)).getD false | _ => true
      let right := match r with
        | none => false
        | some r => match k with
          | .rds => r.read && agent
          | .rdx => r.write && agent
          | .read => r.read
          | .write => r.write
          | .atomic => r.atomic
      let writes := k == .rdx || k == .write || k == .atomic
      let status :=
        if st = .init then 0x1B
        else if st = .draining || st = .zeroing || gone then 0x16
        else if !partOk s a e then 0x13
        else if r.isNone then 0x14
        else if !right then 0x15
        else if writes && (st = .sealing || st = .published) then 0x17
        else if writes && b.inGap e then 0x19
        else 0
      ⟨status, (r.map (·.write)).getD false, e.part, i⟩

/-- The checks of an access to a line at its home agent, in order; the first that fails gives the status: PWR_HOLDING from the entry
into HOLD on, which turns away every requester but the device itself (R399), then those of R342, then those of R90. -/
def Blk.check (b : Blk) (a : Act) (k : AKind) (l : Nat) : Checked :=
  let p := match (b.view (.home (Fin.ofNat 4 (homeOf l)))).extAt (granOf l) with | some (_, e) => b.pairStatus e | none => 0
  if b.pwr.holding && a != .dev then ⟨0xB2, false, 0, 0⟩
  else if p ≠ 0 then ⟨p, false, 0, 0⟩
  else b.checkHome a k l

/-- For whom a requester of the model acts. -/
structure Requester where
  who : Who
  act : Act
  deriving DecidableEq, Repr

/-! ## Acceptance and refusal -/

/-- An acceptance counted (R90, R421, R423). -/
def Blk.countAccept (b : Blk) (q part : Nat) : Blk := (b.aonAdd (148 + q) 1).event (28 + q) 1 (some part)

/-- A refusal counted (R103): REFUSE_CNT, the always-on counter, the event, and REVOKED_REFUSE for EXTENT_REVOKED. -/
def Blk.countRefusal (b : Blk) (q status part : Nat) : Blk :=
  let b1 := ((b.incr (Reg.haRefuseCnt q)).aonAdd (152 + q) 1).event (28 + q) 2 (some part)
  let b2 := if status = 0x16 then b1.flag (Reg.haErr q) 2 else b1
  let b3 := if status = 0xB2 then b2.flag Reg.pwrErr 2 else b2
  if status = 0x19 then b3.incr Reg.hubRetryCnt else b3

/-! ## What a line waits for (R106, R110, R112, R113) -/

/-- The directory set of a line: its home quadrant and set number (R106). -/
def dirSet (l : Nat) : Nat × Nat := (homeOf l, dataIx l % 2097152)

/-- Does a transaction run on a line (R113). -/
def Blk.busy (b : Blk) (l : Nat) : Bool := b.coh.txns.any (fun t => t.line == l)

/-- The tracker entries of a home agent in use (R112). A WrBack belongs to class DATA, which uses no entry. -/
def Blk.trackers (b : Blk) (q : Nat) : Nat := (b.coh.txns.filter (fun t => homeOf t.line == q && t.op != .wrback)).length

/-- The requests that wait at the home agents, in the order of acceptance: a write of the hub carries the number that the next transaction
had when it was accepted. -/
def Blk.queued (b : Blk) : List QEnt :=
  b.rings.waits.foldr (fun h l => l.filter (fun e => e.txn.id < h.txn.id) ++ h :: l.filter (fun e => !decide (e.txn.id < h.txn.id)))
    b.coh.queue

/-- Must a request for a line wait in the request queue: the line is busy, an earlier request for it waits, every tracker entry of
the home agent is in use, or its directory set is being rebuilt (R110, R112, R113). -/
def Blk.mustWait (b : Blk) (l : Nat) : Bool :=
  b.busy l || b.queued.any (fun e => e.txn.line == l) ||
  1024 ≤ b.trackers (homeOf l) ||
  b.coh.setLost.any (fun s => (s.home, s.set) == dirSet l)

/-- A new transaction, not yet numbered. -/
def newTxn (l : Nat) (op : LineOp) (who : Who) (msgId traceId : Nat) (c : Checked) (job : Option Nat) : Txn :=
  { id := 0, line := l, op := op, who := who, msgId := msgId, traceId := traceId, canWrite := c.canWrite, part := c.part, job := job,
    snoops := [], data := none, stay := false, phase := .snoop }

/-- A transaction that MOD_COUNT has counted (R456). -/
def Txn.isCounted (t : Txn) : Txn := { t with counted := true }

/-! ## Mirrored lines (R353 to R355) -/

/-- Has the copy to a rejoining standby passed a line: it goes in ascending extent index and address (R364). -/
def Blk.copyPassed (b : Blk) (i l : Nat) : Bool :=
  match b.pair.copy with
  | some (j, m) => i < j || (i == j && l < m)
  | none => false

/-- Does a line lie in a mirrored extent, under the structure that its home agent works under (R68). -/
def Blk.twinned (b : Blk) (l : Nat) : Bool :=
  (((b.view (.home (Fin.ofNat 4 (homeOf l)))).extAt (granOf l)).map (·.2.mirror)).getD false

/-- Are the writes of a line mirrored to the peer, where its extent is mirrored: the controller is a primary that has accepted no SOLO order,
or a solo primary whose copy to a rejoining standby has passed the line (R353, R355, R364). -/
def Blk.mirrorsFor (b : Blk) (twin : Bool) (l : Nat) : Bool :=
  twin && b.pair.role == 1 &&
    (!b.pair.solo || ((b.str.run.extAt (granOf l)).map (fun e => b.copyPassed e.1 l)).getD false)

/-- Are the writes of a line mirrored to the peer. -/
def Blk.mirrors (b : Blk) (l : Nat) : Bool := b.mirrorsFor (b.twinned l) l

/-! ## Writes of the hub (R37, R38, R117) -/

/-- An acceptance that ends in a refusal is not an operation that MOD_COUNT counts (R456). -/
def Blk.unbump (b : Blk) (l : Nat) : Blk :=
  match b.str.run.extAt (granOf l) with
  | some e => b.modExt e.1 (fun r => { r with modCount := r.modCount - 1 })
  | none => b

/-- Is a part of a line taken in without reading the rest through the decoder: every byte is written, or the copies of the line hold no error
pattern, its channels store it and its key slot is right. -/
def Blk.plainLine (b : Blk) (l : Nat) (mask : BitVec 128) : Bool :=
  mask == BitVec.allOnes 128 ||
  (!b.pool.inj.any (fun e => decide (e.1 / 8 = l)) && !b.slotBad l (b.lineMeta l) && (b.inGrain l || b.stored (b.pos l).1 (b.pos l).2))

/-- The read of a line that a write of a part of it makes, counted (R421, R423). -/
def Blk.countMerge (b : Blk) (l : Nat) (mask : BitVec 128) : Blk :=
  if mask = BitVec.allOnes 128 then b
  else if b.inGrain l then b.countGrain l 1 (b.partOf l) else b.countHusk l 1 (b.partOf l)

/-- One line written by the hub, checked as partition 0 at its own instant (R38, R91, R117). A line that no agent caches, that is free, that
is not mirrored and whose other bytes need no decoder is written at once; any other waits in the request queue of its home agent as every
WrLine does. -/
def Blk.hubLine (b : Blk) (p : Nat × Bytes × BitVec 128) : Blk :=
  let c := b.check .dev .write p.1
  if c.status ≠ 0 then b.countRefusal (homeOf p.1) c.status c.part
  else
    let b1 := (b.countAccept (homeOf p.1) c.part).bumpMod p.1 1
    if b1.mustWait p.1 || (mget b1.coh.dir p.1).isSome || b1.mirrors p.1 || !b1.plainLine p.1 p.2.2 then
      let t : Txn := { newTxn p.1 (.wrline p.2.1 p.2.2 false) .dev 0 0 c none with
        id := b1.coh.nextTxn, acc := b1.tb, twin := b1.twinned p.1, wb := b1.lineWb p.1, counted := true }
      { b1 with rings.waits := b1.rings.waits ++ [{ home := homeOf p.1, txn := t, at_ := b1.tb }] }
    else if !b1.huskAlive p.1 then (b1.unbump p.1).countRefusal (homeOf p.1) 0x91 c.part
    else (b1.countMerge p.1 p.2.2).writeMasked p.1 p.2.1 p.2.2 false

/-- A write of the hub, line by line; a line that is refused is not written. -/
def Blk.hubWrite (b : Blk) (a : Nat) (bs : Bytes) : Blk := (lineParts a bs).foldl Blk.hubLine b

/-- The status that a line of a write of the hub is refused with: that of the checks, or CHANNEL_LOST. -/
def Blk.hubStatus (b : Blk) (l : Nat) : Nat :=
  let c := b.check .dev .write l
  if c.status ≠ 0 then c.status else if b.huskAlive l then 0 else 0x91

/-- A record written by the hub in some pieces, as addresses and bytes: all of it, or, where one of its lines is refused, nothing: the
refusals are counted, and the flag tells that the record is lost. -/
def Blk.hubPut (b : Blk) (ps : List (Nat × Bytes)) : Bool × Blk :=
  let bad := (ps.map (fun p => (lineParts p.1 p.2).map (·.1))).flatten.filter (fun l => b.hubStatus l != 0)
  if bad.isEmpty then (true, ps.foldl (fun b p => b.hubWrite p.1 p.2) b)
  else (false, bad.foldl (fun b l => b.countRefusal (homeOf l) (b.hubStatus l) 0) b)

end Sys2Proof.Machine
end

