-- ==== Sys2Proof/Machine/Log.lean ====
section
/-! DEFINITION. The device log and the trace: their rings in pool memory, the default log ring and the buffer on the hub
(R427 to R429, R432, R433, R438). -/

namespace Sys2Proof.Machine

/-- The size of the default log ring (R428). -/
def ring0Size : Nat := 4194304

/-- The first pool address of an extent. -/
def ExtEnt.addr (e : ExtEnt) : Nat := e.base * 2097152
/-- The length of an extent in bytes. -/
def ExtEnt.size (e : ExtEnt) : Nat := e.granules * 2097152

/-- An extent by index. -/
def Blk.extEnt (b : Blk) (i : Nat) : Option ExtEnt := mget b.str.run.exts i

/-- The free space of a ring of a size (R427). -/
def Ring.free (r : Ring) (size : Nat) : Nat := (r.tail + 2 * size - r.head - 1) % size

/-- Bytes written to storage at an offset modulo a size, from a first address: in one piece or wrapped in two (R427). -/
def ringParts (size head : Nat) (bs : Bytes) : List (Nat × Bytes) :=
  let n := size - head
  if bs.length ≤ n then [(head, bs)] else [(head, bs.take n), (0, bs.drop n)]

/-- A record written whole at HEAD of a ring that lies in an extent; HEAD moves on after it (R427). The flag tells that it was written: a
record of which a home agent refuses a line is not (R38). -/
def Blk.ringPut (b : Blk) (e : ExtEnt) (r : Ring) (bs : Bytes) : Bool × Blk × Ring :=
  let x := b.hubPut ((ringParts e.size r.head bs).map (fun p => (e.addr + p.1, p.2)))
  (x.1, x.2, if x.1 then { r with head := (r.head + bs.length) % e.size } else r)

/-- TAIL moved on in whole records until a record fits (R429, WRAP = 1). -/
def Ring.makeRoom (r : Ring) (size n : Nat) : Nat → Ring
  | 0 => r
  | k + 1 => if n ≤ r.free size then r else { r with tail := (r.tail + n) % size }.makeRoom size n k

/-- The bytes of a log record (R438). -/
def LogRec.bytes (r : LogRec) : Bytes :=
  toLe 8 r.time ++ toLe 2 r.code ++ toLe 1 r.unit ++ toLe 1 r.part ++ toLe 1 r.flags ++ zeros 3 ++ toLe 8 r.a ++ toLe 8 r.b

/-- Is the default log ring in use: no LOG_EXTENT is named (R60, R428). -/
def Blk.logDefault (b : Blk) : Bool := b.rings.log.ext.isNone

/-- Can the log be written to its ring: a structure is loaded and the default ring's frames are zero, or the named extent
exists and has left INIT (R428). -/
def Blk.logReady (b : Blk) : Bool :=
  b.str.loaded &&
  match b.rings.log.ext with
  | none => b.pool.zeroDoneG.contains 0 && b.pool.zeroDoneG.contains 1
  | some i => (b.extEnt i).isSome && (b.extRt i).state != .init

/-- The size of the log ring. -/
def Blk.logSize (b : Blk) : Nat :=
  match b.rings.log.ext with
  | none => ring0Size
  | some i => ((b.extEnt i).map ExtEnt.size).getD 0

/-- A log record's bytes written at HEAD, where they fit; the flag tells that they were written. -/
def Blk.logPut (b : Blk) (bs : Bytes) : Bool × Blk :=
  match b.rings.log.ext with
  | none =>
    let r := b.rings.log
    (true, { b with
      rings.ring0 := (ringParts ring0Size r.head bs).foldl (fun m p => cwrite m p.1 p.2) b.rings.ring0
      rings.log := { r with head := (r.head + bs.length) % ring0Size } })
  | some i => match b.extEnt i with
    | none => (true, b)
    | some e =>
      let x := b.ringPut e b.rings.log bs
      (x.1, { x.2.1 with rings.log := x.2.2 })

/-- A line of the default log ring poisoned (R340, R428). -/
def Blk.ringPoison (b : Blk) (n : Nat) : Blk :=
  { b with rings.ring0Bad := if b.rings.ring0Bad.contains n then b.rings.ring0Bad else b.rings.ring0Bad ++ [n] }

/-- The lines of a frame of the default log ring gone with the granule that the frame is filled with (R428). -/
def Blk.ringPlaced (b : Blk) (f : Nat) : Blk :=
  { b with rings.ring0 := b.rings.ring0.filter (fun c => c.1 / 2097152 != f),
           rings.ring0Bad := b.rings.ring0Bad.filter (fun n => n / 16384 != f) }

/-- A log record lost (R429): counted, flagged, and reported when room returns. -/
def Blk.logLose (b : Blk) : Blk :=
  ({ b with rings.log := { b.rings.log with lost := b.rings.log.lost + 1 } }.aonAdd 225 1).flag Reg.obsErr 2

/-- With WRAP = 1 the oldest log records make room for one (R429). -/
def Blk.logRoom (b : Blk) : Blk :=
  if b.rings.log.wrap then { b with rings.log := b.rings.log.makeRoom b.logSize 32 4 } else b

/-- The LOG_LOST record, written where records have been lost and room has returned for it (R429). -/
def Blk.logCatch (b : Blk) : Blk :=
  if b.rings.log.lost = 0 || !b.logReady || b.rings.log.free b.logSize < 32 then b
  else
    let l : LogRec := { time := b.tb, code := 0x1A, unit := 0xFF, part := 0, flags := 0, a := 0, b := b.rings.log.lost }
    let x := b.logPut l.bytes
    if x.1 then { x.2 with rings.log := { x.2.rings.log with lost := 0 } } else x.2

/-- A log record written to the ring, after the LOG_LOST record where one is due, or lost where it does not fit (R429). A record whose line is
refused is lost too (R38). -/
def Blk.logRing (b : Blk) (r : LogRec) : Blk :=
  let b1 := b.logRoom.logCatch.logRoom
  if b1.rings.log.lost ≠ 0 || b1.rings.log.free b1.logSize < 32 then b1.logLose
  else
    let y := b1.logPut r.bytes
    if y.1 then y.2 else y.2.logLose

/-- A log record raised: to the ring where one can be written, else to the 64-record buffer (R428). -/
def Blk.logRaise (b : Blk) (r : LogRec) : Blk :=
  if b.logReady then b.logRing r
  else if b.rings.buffer.length < 64 then { b with rings.buffer := b.rings.buffer ++ [r] }
  else b.logLose

/-- The buffered records written to the ring in order once it can be written, and LOG_LOST after them for those that the buffer could not
hold, which are later (R428, R429). -/
def Blk.logFlush (b : Blk) : Blk :=
  if b.logReady && !b.rings.buffer.isEmpty then
    let b1 := b.rings.buffer.foldl Blk.logRing { b with rings := { b.rings with buffer := [], log := { b.rings.log with lost := 0 } } }
    { b1 with rings.log := { b1.rings.log with lost := b1.rings.log.lost + b.rings.log.lost } }.logCatch
  else b

/-- A log record of a code, with its unit, partition, A and B, at the present timebase. -/
def Blk.log (b : Blk) (code unit part a bb : Nat) (flags : Nat := 0) : Blk :=
  b.logRaise ⟨b.tb, code, unit, part, flags, a, bb⟩

/-! ## Traces (R432, R433) -/

/-- The fields of a trace record. -/
structure TraceRec where
  source : Nat
  event : Nat
  part : Nat := 0
  unit : Nat := 0
  tag : Nat := 0
  eid : Nat := 0
  traceId : Nat := 0
  msgId : Nat := 0
  ty : Nat := 0
  a : Nat := 0
  detail : Bytes := []

/-- The bytes of a trace record (R433). -/
def TraceRec.bytes (r : TraceRec) (time : Nat) : Bytes :=
  toLe 8 time ++ toLe 1 r.source ++ toLe 1 r.event ++ toLe 1 r.part ++ toLe 1 r.unit ++ toLe 4 r.tag ++ toLe 2 r.eid ++
  toLe 2 r.traceId ++ toLe 2 r.msgId ++ toLe 1 r.ty ++ zeros 1 ++ toLe 8 r.a ++ fit 32 r.detail

/-- Is a trace source enabled (R432). -/
def Blk.traceOn (b : Blk) (source : Nat) : Bool := b.str.run.trace.enable.getLsbD source

/-- A trace record lost (R429): counted and flagged. -/
def Blk.traceLose (b : Blk) : Blk :=
  ({ b with rings.trace := { b.rings.trace with lost := b.rings.trace.lost + 1 } }.incr Reg.obsTraceLossCnt).flag Reg.obsErr 1

/-- With WRAP = 1 the oldest trace records make room for one (R429). -/
def Blk.traceRoom (b : Blk) (e : ExtEnt) : Blk :=
  if b.rings.trace.wrap then { b with rings.trace := b.rings.trace.makeRoom e.size 64 4 } else b

/-- The loss record, written where trace records have been lost and room has returned for it (R429, R433). -/
def Blk.traceCatch (b : Blk) (e : ExtEnt) : Blk :=
  let g := b.rings.trace
  if g.lost = 0 || g.free e.size < 64 then b
  else
    let l : TraceRec := { source := 0xFF, event := 0, a := g.lost }
    let x := b.ringPut e g (l.bytes b.tb)
    { x.2.1 with rings.trace := if x.1 then { x.2.2 with lost := 0 } else g }

/-- Bytes of a trace record written at HEAD of the trace ring, or the record lost where a line is refused (R38, R429). -/
def Blk.tracePut (b : Blk) (e : ExtEnt) (bs : Bytes) : Blk :=
  let x := b.ringPut e b.rings.trace bs
  if x.1 then { x.2.1 with rings.trace := x.2.2 } else x.2.1.traceLose

/-- A trace record put into the ring of an extent, after the loss record where one is due, or lost where it does not fit (R429, R433). -/
def Blk.traceTo (b : Blk) (e : ExtEnt) (r : TraceRec) : Blk :=
  let b1 := ((b.traceRoom e).traceCatch e).traceRoom e
  if b1.rings.trace.lost ≠ 0 || b1.rings.trace.free e.size < 64 then b1.traceLose else b1.tracePut e (r.bytes b1.tb)

/-- The extent of the trace ring that can be written: one that has left INIT. -/
def Blk.traceExt (b : Blk) : Option ExtEnt :=
  match b.rings.trace.ext with
  | none => none
  | some i => if (b.extRt i).state == .init then none else b.extEnt i

/-- A trace record written to the trace ring, where its source is enabled; one for a ring whose extent is in INIT is lost (R429, R433). -/
def Blk.trace (b : Blk) (r : TraceRec) : Blk :=
  if !b.traceOn r.source || (b.rings.trace.ext.bind b.extEnt).isNone then b
  else match b.traceExt with
  | none => b.traceLose
  | some e => b.traceTo e r

end Sys2Proof.Machine
end

