-- ==== Sys2Proof/Machine/Traffic.lean ====
section
/-! DEFINITION. Packet cost, shapers, policers, the traffic table and gate lists (R288 to R303). -/

namespace Sys2Proof.Machine

/-! ## Buckets (R288) -/

/-- The cost of a packet of LEN payload bytes under an entry. -/
def pktCost (e : TrafEnt) (len : Nat) : Nat := 32 + len + e.overhead

/-- The cost of a message from the LENs of its packets. -/
def msgCost (e : TrafEnt) (lens : List Nat) : Nat := (lens.map (pktCost e)).sum

/-- Has an entry a peak bucket. -/
def TrafEnt.twoRate (e : TrafEnt) : Bool := e.kind == 1 || e.kind == 2

/-- A level after dt nanoseconds of refill at a rate, up to a burst. -/
def refillLevel (lev : Int) (rate dt burst : Nat) : Int := min (lev + rate * dt) (burst * 1000)

/-- An entry with its buckets refilled to a timebase value. -/
def TrafRt.refill (r : TrafRt) (now : Nat) : TrafRt :=
  let dt := now - r.evalAt
  { r with
    levC := refillLevel r.levC r.ent.cir dt r.ent.cbs
    levP := if r.ent.twoRate then refillLevel r.levP r.ent.pir dt r.ent.pbs else r.levP
    evalAt := now }

/-- A new entry: its buckets start full (R296). -/
def TrafRt.fresh (e : TrafEnt) (now : Nat) : TrafRt :=
  { ent := e, levC := e.cbs * 1000, levP := if e.twoRate then e.pbs * 1000 else 0, evalAt := now }

/-- An entry replaced by another (R296): levels carry over within the new bursts where KIND stays, else they start full. Its counters go
on: they clear when an entry is added (R306). -/
def TrafRt.replace (r : TrafRt) (e : TrafEnt) (now : Nat) : TrafRt :=
  if r.ent.kind = e.kind then
    let q := r.refill now
    { q with ent := e, levC := min q.levC (e.cbs * 1000), levP := if e.twoRate then min q.levP (e.pbs * 1000) else 0 }
  else { TrafRt.fresh e now with green := r.green, yellow := r.yellow, red := r.red, waits := r.waits }

/-! ## The traffic table (R295) -/

/-- The index of the entry of a target and class. -/
def Blk.trafIx (b : Blk) (target cls : Nat) : Option Nat :=
  (b.traf.ents.find? (fun e => e.2.ent.target == target && e.2.ent.cls == cls)).map (·.1)

/-- The shaper of a host in a class (R289), with its index. -/
def Blk.shaper (b : Blk) (eid cls : Nat) : Option (Nat × TrafRt) :=
  b.traf.ents.find? (fun e => e.2.ent.kind == 0 && e.2.ent.target == eid && e.2.ent.cls == cls)

/-- The policer of a partition in a class (R291), with its index. -/
def Blk.policer (b : Blk) (part cls : Nat) : Option (Nat × TrafRt) :=
  b.traf.ents.find? (fun e => e.2.ent.kind != 0 && e.2.ent.target == part && e.2.ent.cls == cls)

/-- An entry of the table set. -/
def Blk.putTraf (b : Blk) (i : Nat) (r : TrafRt) : Blk := { b with traf.ents := mput b.traf.ents i r }

/-- The lowest index that holds no entry (R295). -/
def Blk.trafFree (b : Blk) : Nat :=
  ((List.range (b.traf.ents.length + 1)).find? (fun i => !mhas b.traf.ents i)).getD 0

/-- An entry of an image put into the table: it replaces the entry of its key or takes the lowest free index (R295, R296). -/
def Blk.addTraf (b : Blk) (e : TrafEnt) : Blk :=
  match b.trafIx e.target e.cls with
  | some i => match mget b.traf.ents i with
    | some r => b.putTraf i (r.replace e b.tb)
    | none => b
  | none => b.putTraf b.trafFree (TrafRt.fresh e b.tb)

/-- The entry of a key removed. -/
def Blk.delTraf (b : Blk) (key : Nat) : Blk :=
  match b.trafIx (key / 4) (key % 4) with
  | some i => { b with traf.ents := mdel b.traf.ents i }
  | none => b

/-! ## Shapers (R289, R290) -/

/-- The level of a host's shaper in a class at present; none where the host is unshaped. -/
def Blk.shaperLevel (b : Blk) (eid cls : Nat) : Option Int :=
  (b.shaper eid cls).map (fun e => (e.2.refill b.tb).levC)

/-- A host's shaper in a class tested: its refill is evaluated (R288). -/
def Blk.evalShaper (b : Blk) (eid cls : Nat) : Blk :=
  match b.shaper eid cls with
  | none => b
  | some (i, r) => b.putTraf i (r.refill b.tb)

/-- A charge of some packets to a host's shaper. -/
def Blk.chargeShaper (b : Blk) (eid cls : Nat) (lens : List Nat) : Blk :=
  match b.shaper eid cls with
  | none => b
  | some (i, r) =>
    let q := r.refill b.tb
    b.putTraf i { q with levC := q.levC - msgCost q.ent lens * 1000, green := min (q.green + lens.length) 0xFFFFFFFF }

/-- B of R102: how near a host's shaper is to empty. -/
def Blk.loadB (b : Blk) (eid cls : Nat) : Nat :=
  match b.shaper eid cls with
  | none => 0
  | some (i, r) =>
    let q := r.refill b.tb
    if q.ent.cbs = 0 then Config.loadNoBurst i % 8
    else (max 0 (min 7 (7 - (8 * q.levC) / (q.ent.cbs * 1000 : Int)))).toNat

/-! ## Policers (R291 to R294) -/

/-- The colours of a policer. -/
inductive Colour | green | yellow | red
  deriving DecidableEq, Repr

/-- The colour of a message of cost n bytes at refilled levels, and the entry after it (R292, R293). Levels are in milli-bytes.
pre: the pre-colour is yellow. sure: a Lease or Cancel, which takes the green outcome. -/
def TrafRt.judge (r : TrafRt) (n : Nat) (pre sure : Bool) : Colour × TrafRt :=
  let c : Int := n * 1000
  let green := { r with levC := r.levC - c, levP := if r.ent.twoRate then r.levP - c else r.levP,
                        green := min (r.green + 1) 0xFFFFFFFF }
  let red := { r with red := min (r.red + 1) 0xFFFFFFFF }
  if sure then (.green, green)
  else if r.ent.twoRate then
    if r.ent.pbs < n || r.levP < c then (.red, red)
    else if (r.ent.kind == 2 && pre) || r.levC < c then
      (.yellow, { r with levP := r.levP - c, yellow := min (r.yellow + 1) 0xFFFFFFFF })
    else (.green, green)
  else if r.ent.cbs < n || r.levC < c then (.red, red)
  else (.green, green)

/-- A completed request judged by the policer of its host's partition (R291, R294): is it dropped. -/
def Blk.police (b : Blk) (part src cls : Nat) (lens : List Nat) (sure : Bool) : Bool × Blk :=
  match b.policer part cls with
  | none => (false, b)
  | some (i, r) =>
    let b0 := if r.ent.kind = 2 then b.evalShaper src cls else b
    let q := r.refill b.tb
    let n := msgCost q.ent lens
    let pre := match b.shaperLevel src cls with
      | some v => decide (v ≤ 0)
      | none => false
    let big := if q.ent.twoRate then q.ent.pbs < n else q.ent.cbs < n
    let x := q.judge n pre sure
    let b1 := b0.putTraf i x.2
    let b2 := if big then b1.flag Reg.trfErr 2 else b1
    if x.1 = .red then (true, b2.flag Reg.trfErr 1) else (false, b2)

/-! ## Gates (R298 to R303) -/

/-- The length of a gate list's cycle. -/
def GateList.cycle (g : GateList) : Nat := (g.wins.map (·.duration)).sum

/-- The start of the cycle that a list which a full image loads runs from: BASE_TIME or, where that has passed, the start of the running
cycle (R298). -/
def GateList.startNow (g : GateList) (now : Nat) : Nat :=
  if now ≤ g.baseTime || g.cycle = 0 then g.baseTime else g.baseTime + (now - g.baseTime) / g.cycle * g.cycle

/-- The start of a list that comes into force at a time: BASE_TIME or, where that has passed, the next cycle start derived from
it (R68). -/
def GateList.startFrom (g : GateList) (now : Nat) : Nat :=
  if now ≤ g.baseTime || g.cycle = 0 then g.baseTime
  else g.baseTime + (now - g.baseTime + g.cycle - 1) / g.cycle * g.cycle

/-- The window at an offset into a cycle: its index, its OPEN bits and the offset of its end. -/
def winAt : List GateWin → Nat → Nat → Nat → Nat × BitVec 64 × Nat
  | [], i, t, _ => (i, 0, t)
  | w :: rest, i, t, acc => if t < acc + w.duration || rest.isEmpty then (i, w.opens, acc + w.duration)
      else winAt rest (i + 1) t (acc + w.duration)

/-- What a gate shows at a time: ungated, open to partition 0 only, or a window with its OPEN bits and its end. -/
inductive GateNow | ungated | zeroOnly (ends : Nat) | window (entry : Nat) (opens : BitVec 64) (ends : Nat)
  deriving DecidableEq, Repr

/-- What a list in force from a start shows at a time (R298). -/
def gateShow (list : Option GateList) (start now : Nat) : GateNow :=
  match list with
  | none => .ungated
  | some g =>
    if now < start then .zeroOnly start
    else
      let o := (now - start) % g.cycle
      let w := winAt g.wins 0 o 0
      .window w.1 w.2.1 (now - o + w.2.2)

/-- What the gate of a target shows at a time, a committed list included once the running cycle has ended. -/
def GateRt.now (r : GateRt) (t : Nat) : GateNow :=
  match r.next with
  | some (l, st) => if r.switchAt ≤ t then gateShow l st t
      else match gateShow r.list r.start t with
        | .window i o e => .window i o (min e r.switchAt)
        | x => x
  | none => gateShow r.list r.start t

/-- What the gate of a target shows now. -/
def Blk.gateNow (b : Blk) (target : Nat) : GateNow :=
  match mget b.traf.gates target with
  | none => .ungated
  | some r => r.now b.tb

/-- May a packet of a partition that takes ps picoseconds enter a target now (R300). -/
def Blk.gateFits (b : Blk) (target part ps : Nat) : Bool :=
  match b.gateNow target with
  | .ungated => true
  | .zeroOnly e => part == 0 && ps ≤ (e - b.tb) * 1000
  | .window _ o e => o.getLsbD part && ps ≤ (e - b.tb) * 1000

/-- A gate whose committed list has taken over, once the running cycle of the old one has ended. -/
def GateRt.settle (r : GateRt) (now : Nat) : GateRt :=
  match r.next with
  | some (l, st) => if r.switchAt ≤ now then { r with list := l, start := st, next := none } else r
  | none => r

/-- The end of the cycle that a gate runs (R68); the present time where none runs. -/
def GateRt.cycleEnd (r : GateRt) (now : Nat) : Nat :=
  match r.list with
  | none => now
  | some g => if now < r.start || g.cycle = 0 then now else r.start + ((now - r.start) / g.cycle + 1) * g.cycle

/-- A gate with the list that a phase gives its target (R68, R298): the old list runs to the end of its cycle. -/
def GateRt.take (r : GateRt) (new : Option GateList) (now : Nat) : GateRt :=
  let r1 := r.settle now
  if r1.list = new && r1.next.isNone then r1
  else
    let e := r1.cycleEnd now
    { r1 with next := some (new, (new.map (·.startFrom e)).getD 0), switchAt := e }

/-- The gate list of a target that a full image loads. -/
def Blk.loadGate (b : Blk) (target : Nat) (g : GateList) : Blk :=
  { b with traf.gates := mput b.traf.gates target { list := some g, start := g.startNow b.tb } }

/-- The changes of a phase taken by the gate of a target. -/
def Blk.takeGate (b : Blk) (target : Nat) (new : Option GateList) : Blk :=
  match mget b.traf.gates target, new with
  | none, none => b
  | none, some g => { b with traf.gates := mput b.traf.gates target { list := some g, start := g.startFrom b.tb } }
  | some r, n => { b with traf.gates := mput b.traf.gates target (r.take n b.tb) }

/-- GATE_WINDOW_BOUNDARY: the gate of a target moves to the window that the timebase is in, and a committed list whose time has
come replaces the old one (R298). A boundary that has not been reached changes nothing. -/
def gateBoundary (b : Blk) (target : Nat) : Blk :=
  match mget b.traf.gates target with
  | none => b
  | some r =>
    let r1 := r.settle b.tb
    match r1.list with
    | none => { b with traf.gates := mdel b.traf.gates target }
    | some _ =>
      let e := match r1.now b.tb with
        | .window i _ _ => i
        | _ => 0
      { b with traf.gates := mput b.traf.gates target { r1 with entry := e } }

/-! ## Husk schedulers (R301) -/

/-- The speed bins of R80, MT/s. -/
def speedBins : List Nat := [4800, 5200, 5600, 6000, 6400]

/-- The largest tRC that an in-service DIMM requires, in clocks (R301). -/
def Blk.maxTrc (b : Blk) : Nat :=
  ((List.range 24).map (fun c => if (b.husk c).up && !(b.husk c).lost then
    ((b.husk c).dimms.map (·.trc)).foldl max 0 else 0)).foldl max 0

/-- The time that an operation takes with its margin, ps: tRC + 8 tCK at the device speed. -/
def Blk.huskSpan (b : Blk) : Nat := (b.maxTrc + 8) * 2000000 / (speedBins.getD b.pool.speed 4800)

/-- Does a refresh of a channel overlap an operation that would start now (R301): one that runs, or the next on the schedule. While the
timebase reference is lost refresh is off that schedule, and one from held clocks takes no time of the timebase (R419; log entry 78). -/
def Blk.refreshBars (b : Blk) (c : Nat) : Bool :=
  !b.frozen && (b.tb < (b.husk c).refreshEnd || (b.husk c).refreshAt * 1000 < b.tb * 1000 + b.huskSpan)

/-- The start of the next refresh of a channel after a timebase value (R301). -/
def refreshAfter (c t : Nat) : Nat := max (t + 1) (Config.refreshNext c t)

/-- REFRESH: a channel refreshes when its timebase schedule says so, whatever the gate shows (R301). While the timebase is frozen it
refreshes from a counter of held clocks: the refreshes are counted, and take no timebase (R419). -/
def huskRefresh (b : Blk) (c : Nat) : Blk :=
  if b.frozen then b.modHusk c (fun h => { h with held := h.held + 1 })
  else if b.tb < (b.husk c).refreshAt then b
  else
    let d := b.draw
    d.2.modHusk c (fun h => { h with refreshEnd := b.tb + Config.refreshTime d.1, refreshAt := refreshAfter c b.tb })

/-! ## Register changes of the table (R297, R306) -/

/-- The values of an entry as the TRF_ENT_ registers show them (R306): KEY, CIR, PIR, CBS, PBS, OVH. -/
def trafWords (r : Option TrafRt) : List Word :=
  match r with
  | none => [0, 0, 0, 0, 0, 0]
  | some r =>
    let e := r.ent
    [BitVec.ofNat 32 (e.target + e.cls * 65536 + e.kind * 262144), BitVec.ofNat 32 e.cir, BitVec.ofNat 32 e.pir,
     BitVec.ofNat 32 e.cbs, BitVec.ofNat 32 e.pbs, BitVec.ofNat 32 e.overhead]

/-- The offsets of the TRF_ENT_ registers that hold staged values. -/
def trafStageOffs : List Nat := [Reg.trfEntKey, Reg.trfEntCir, Reg.trfEntPir, Reg.trfEntCbs, Reg.trfEntPbs, Reg.trfEntOvh]

/-- What a TRF_ENT_ register shows (R306): the staged value if it has been written since TRF_ENT_SEL last changed, else the
value in force for the selected entry. -/
def Blk.trafStaged (b : Blk) (off : Nat) : Word :=
  if b.traf.stagedRegs.contains off then b.reg off
  else (trafWords (mget b.traf.ents (b.field Reg.trfEntSel 0 13))).getD ((trafStageOffs.findIdx? (· == off)).getD 0) 0

/-- The entry that the staged values spell. -/
def Blk.stagedEnt (b : Blk) : TrafEnt :=
  let k := (b.trafStaged Reg.trfEntKey).toNat
  ⟨k % 65536, fld k 17 16, fld k 19 18, (b.trafStaged Reg.trfEntCir).toNat, (b.trafStaged Reg.trfEntPir).toNat,
   (b.trafStaged Reg.trfEntCbs).toNat, (b.trafStaged Reg.trfEntPbs).toNat, (b.trafStaged Reg.trfEntOvh).toNat % 64⟩

/-- Does an entry meet R58 by its fields: PIR and PBS are reserved but for KIND 1 and 2. -/
def trafFieldsOk (e : TrafEnt) : Bool := e.twoRate || (e.pir == 0 && e.pbs == 0)

/-- The TRAFFIC entry of a key changed by a register write (R73): the buckets take the entries of a commit. -/
def Blk.liveTraf (b : Blk) (k : Nat) (f : Map TrafEnt → Map TrafEnt) : Blk :=
  b.modLive (fun c => c.taken.contains .buckets) (fun c => inPhaseA c.base.traffic c.img.delTraffic c.img.traffic k)
    (fun c => inPhaseB c.base.traffic c.img.delTraffic c.img.traffic k) (fun s => { s with traffic := f s.traffic })

/-- TRF_ENT_CTL.APPLY: the staged values, where they pass R58, R61 and R295, replace or add the entry at the selected index;
otherwise TRF_ERR.CFG_REJECT is set (R297). -/
def trafApply (b : Blk) : Blk :=
  let i := b.field Reg.trfEntSel 0 13
  let e := b.stagedEnt
  let clash := match b.trafIx e.target e.cls with
    | some j => j != i
    | none => false
  if !trafFieldsOk e || !trafficOk b.str.run e || clash then b.flag Reg.trfErr 0
  else
    let old := mget b.traf.ents i
    let b1 := match old with
      | some r => b.putTraf i (r.replace e b.tb)
      | none => b.putTraf i (TrafRt.fresh e b.tb)
    let b2 := match old with
      | some r => b1.liveTraf (trafKey r.ent.target r.ent.cls) (fun t => mdel t (trafKey r.ent.target r.ent.cls))
      | none => b1
    b2.liveTraf (trafKey e.target e.cls) (fun t => mput t (trafKey e.target e.cls) e)

/-- TRF_ENT_CTL.REMOVE: the selected entry is removed, and the packets that wait on it are free (R296, R306). -/
def trafRemove (b : Blk) : Blk :=
  match mget b.traf.ents (b.field Reg.trfEntSel 0 13) with
  | none => b
  | some r =>
    let b1 := b.liveTraf (trafKey r.ent.target r.ent.cls) (fun t => mdel t (trafKey r.ent.target r.ent.cls))
    { b1 with traf.ents := mdel b1.traf.ents (b.field Reg.trfEntSel 0 13) }

end Sys2Proof.Machine
end

