-- ==== Sys2Proof/Machine/Send.lean ====
section
/-! DEFINITION. Messages that the controller originates: their classes, identifiers, LOAD and trace, and the injection queues
(R102, R235, R238 to R241, R246, R258, R299, R434). -/

namespace Sys2Proof.Machine

/-- The traffic class of a message type (R240): 0 LS, 1 BULK, 2 CTRL, 3 MGMT. -/
def tcOf (ty : Nat) : Nat :=
  if ty ∈ [0x06, 0xC5, 0xC6] then 1
  else if ty ∈ [0x48, 0x49, 0x4A, 0xD0, 0xD1, 0xD2, 0xD3, 0xD4, 0xD5, 0xD6] then 2
  else if ty ∈ [0x4B, 0x4C, 0x4D] then 3
  else 0

/-- The message types of R240. -/
def knownTypes : List Nat :=
  [0x00, 0x01, 0x02, 0x03, 0x04, 0x05, 0x06, 0x40, 0x41, 0x42, 0x43, 0x44, 0x45, 0x48, 0x49, 0x4A, 0x4B, 0x4C, 0x4D,
   0x80, 0x81, 0x82, 0x83, 0xC0, 0xC1, 0xC2, 0xC3, 0xC4, 0xC5, 0xC6, 0xD0, 0xD1, 0xD2, 0xD3, 0xD4, 0xD5, 0xD6]

/-- A number as an ARG field from a bit. -/
def argAt (v lo : Nat) : BitVec 96 := BitVec.ofNat 96 (v * 2 ^ lo)

/-- ARG of a home response: ADDR, RID, FAR and REPLAY (R241). -/
def argResp (addr rid : Nat) (far replay : Bool) : BitVec 96 :=
  argAt addr 0 ||| argAt rid 48 ||| argAt (b2n far) 88 ||| argAt (b2n replay) 89

/-- A packet without a route discarded and counted (R235). -/
def Blk.noRoute (b : Blk) (q : Nat) : Blk := (b.incr (Reg.nrmDropNorouteCnt q)).flag (Reg.nrmRtErr q) 1

/-- The TRACE_ID of a message that the controller originates (R434): the next value of a 16-bit counter, skipping 0, while bit 3
is set; else 0. -/
def Blk.newTrace (b : Blk) : Nat × Blk :=
  if b.traceOn 3 then
    let v := if b.fab.traceCtr + 1 < 65536 then b.fab.traceCtr + 1 else 1
    (v, { b with fab.traceCtr := v })
  else (0, b)

/-- The next MSG_ID toward a destination (R246). -/
def Blk.newMsgId (b : Blk) (dst : Nat) : Nat × Blk :=
  let v := tget (fun _ => 0) b.fab.msgIds dst
  (v, { b with fab.msgIds := tset (fun _ => 0) b.fab.msgIds dst ((v + 1) % 65536) })

/-- A message put into the injection queue of a quadrant, with the next MSG_ID of its destination, which is answered; one whose
destination has no EID entry has no route (R235). A lost device sends nothing (R35). -/
def Blk.send (b : Blk) (q : Nat) (m : Msg) : Nat × Blk :=
  if b.dead then (0, b)
  else if !mhas (b.view (.router (Fin.ofNat 4 q))).eids m.dst then (0, b.noRoute q)
  else
    let x := b.newMsgId m.dst
    (x.1, { x.2 with fab.inj := tmod (fun _ => []) x.2.fab.inj q (· ++ [{ m with msgId := x.1, at_ := b.tb }]) })

/-- A message of the controller's own, with a TRACE_ID of its own. -/
def Blk.sendOwn (b : Blk) (q : Nat) (m : Msg) : Nat × Blk :=
  let t := b.newTrace
  t.2.send q { m with traceId := t.1 }

/-- The partition of a fabric host, 0 where the EID has no HOST entry (R299). -/
def Blk.hostPart (b : Blk) (eid : Nat) : Nat := ((mget b.str.run.hosts eid).map (·.part)).getD 0

/-- The partition whose entry a waiting request is: its requester's (R91, R102). -/
def Blk.entPart (b : Blk) (t : Txn) : Nat :=
  match t.who with
  | .fabric s => b.hostPart s.toNat
  | .aperture _ | .dev => 0
  | .mover m => if m / 8 % 64 = 0 then 0 else t.part
  | .func f => if f = 0 then 0 else t.part
  | _ => t.part

/-- H of R102: how full the request queue of a home agent is, for a host of a partition. -/
def Blk.loadH (b : Blk) (q part : Nat) : Nat :=
  let es := b.queued.filter (fun e => e.home == q)
  let n := if (b.str.run.bound part).isolate then (es.filter (fun e => b.entPart e.txn == part)).length else es.length
  min 7 (8 * n / 2048)

/-- LOAD of a response of a home agent to a fabric host for a request of a class (R102); in the gap the value last sent to the host
before it (R363). -/
def Blk.loadOf (b : Blk) (q eid cls : Nat) : Nat :=
  if b.pair.gap then tget (fun _ => 0) b.fab.lastLoad eid else max (b.loadB eid cls) (b.loadH q (b.hostPart eid))

/-- A value of LOAD remembered as the last sent to a host (R363). -/
def Blk.noteLoad (b : Blk) (eid v : Nat) : Blk := { b with fab.lastLoad := tset (fun _ => 0) b.fab.lastLoad eid v }

/-- Header bytes 0 to 13 of a packet, as a number (R237): LAST and the two poison bits last. -/
def headLow (ty dst src msgId psn len traceId : Nat) (last p0 p1 : Bool) : Nat :=
  1 + ty / 64 * 4 + tcOf ty * 16 + b2n last * 2 ^ 6 + b2n p0 * 2 ^ 7 + ty * 2 ^ 8 + dst * 2 ^ 16 + src * 2 ^ 32 + msgId * 2 ^ 48 +
  psn * 2 ^ 64 + b2n p1 * 2 ^ 78 + len * 2 ^ 80 + traceId * 2 ^ 96

/-- A message accepted whose TRACE_ID is not 0 is traced (R432, R434). -/
def Blk.traceRx (b : Blk) (q src ty msgId traceId addr : Nat) : Blk :=
  if traceId = 0 then b
  else b.trace { source := 4, event := 1, part := b.hostPart src, unit := 28 + q, eid := src, traceId := traceId, msgId := msgId,
                 ty := ty, a := addr }

/-- The length of the payload of an Answer, by REQTYPE (R244). -/
def answerLen (ty : Nat) : Nat := if ty ∈ [0xD0, 0xD1, 0xD6] then 8 else if ty = 0xD4 then 64 else 0

/-- An Answer to a CTRL request (R241, R244), sent from a quadrant. Its payload has the length of its REQTYPE whatever its status. One of a
home agent carries LOAD (R102). -/
def Blk.answerCtrl (b : Blk) (q : Nat) (src msgId traceId ty status : Nat) (payload : Bytes) : Blk :=
  let home := ty ∈ [0xD0, 0xD2, 0xD3, 0xD4, 0xD6]
  let v := if home then b.loadOf q src 2 else 0
  ((if home then b.noteLoad src v else b).send q
    { ty := 0x48, dst := src, msgId := 0, traceId := traceId, status := status, load := v, arg := argAt msgId 48 ||| argAt ty 64,
      payload := fit (answerLen ty) payload, part := b.hostPart src }).2

/-- A POLICED notice sent (R241, R258). -/
def Blk.sendPoliced (b : Blk) (q src cls part n : Nat) : Blk :=
  ((b.sendOwn q ⟨0x4B, src, 0, 0, 0, 0, argAt cls 0 ||| argAt part 2 ||| argAt (min n 65535) 16, [], [], 0, 0, 0, false⟩).2).incr
    (Reg.nrmPolicedTxCnt q)

/-- A policer's drop reported to its source (R258): at once where no notice of this source and class was sent within 100 µs, and
otherwise counted until those end. -/
def Blk.notePoliced (b : Blk) (q src cls part packets : Nat) : Blk :=
  let k := src * 4 + cls
  match mget b.fab.policed k with
  | some p =>
    if b.tb < p.lastAt + 100000 then
      { b with fab.policed := mput b.fab.policed k { p with dropped := min (p.dropped + packets) 65535, part := part, home := q } }
    else { b.sendPoliced q src cls part (p.dropped + packets) with fab.policed := mput b.fab.policed k ⟨b.tb, 0, part, q⟩ }
  | none => { b.sendPoliced q src cls part packets with fab.policed := mput b.fab.policed k ⟨b.tb, 0, part, q⟩ }

/-- POLICED: the 100 µs after a notice have ended, and drops that were counted in them are reported at once (R258). -/
def policedDue (b : Blk) (src cls : Nat) : Blk :=
  let k := src * 4 + cls
  match mget b.fab.policed k with
  | some p =>
    if p.lastAt + 100000 ≤ b.tb && p.dropped != 0 then
      { b.sendPoliced p.home src cls p.part p.dropped with
        fab.policed := mput b.fab.policed k { p with lastAt := b.tb, dropped := 0 } }
    else b
  | none => b

end Sys2Proof.Machine
end

