-- ==== Sys2Proof/Machine/Ras.lean ====
section
/-! DEFINITION. Reading stored codewords: the decoder, correction, rebuilding, recovery, poison, device marks, the loss of channels
and layers, and copies that disagree (R35, R336 to R352). -/

namespace Sys2Proof.Machine

/-! ## The decoder (R336, R341) -/

/-- What the decoder makes of a codeword. -/
inductive Decoded | clean | corr (lane : Nat) | unc
  deriving DecidableEq, Repr

/-- The lanes in which an error pattern of 160 bytes has an error. -/
def lanesOf (p : Bytes) : List Nat := (List.range 20).filter (fun i => !allZero (sl p (8 * i) 8))

/-- The lanes that two lists name, each once. -/
def joinLanes (a b : List Nat) : List Nat := (List.range 20).filter (fun i => a.contains i || b.contains i)

/-- The decoder accepts errors that lie in one lane, and besides a marked device those of one further lane; every other pattern
is uncorrectable. -/
def decodeLanes (lanes : List Nat) (mark : Option Nat) : Decoded :=
  match lanes with
  | [] => .clean
  | _ =>
    let others := match mark with
      | some m => lanes.filter (· != m)
      | none => lanes
    match others, mark with
    | [], some m => .corr m
    | [x], _ => .corr x
    | _, _ => .unc

/-! ## Loss (R35, R348, R349, R352) -/

/-- A lost quadrant is loss of the device: DEV_FAULT_N, and no answer on any port (R35). -/
def Blk.loseDevice (b : Blk) : Blk := { b with dead := true, pins.devFault := true }

/-- The first row at which more channels of a channel's stook are gone than it serves; none where every row is served (R349). -/
def Blk.failRow (b : Blk) (c : Nat) : Option Nat :=
  let ks := (b.stookOf c).1
  let lost := (ks.filter (fun k => (b.husk k).lost)).length
  let cur := (ks.filter (fun k => !(b.husk k).lost && (b.husk k).rebuilding)).map (fun k => (b.husk k).cursor)
  let bad := cur.filter (fun r => (b.stookOf c).2 < lost + (cur.filter (· ≤ r)).length)
  if (b.stookOf c).2 < lost then some 0
  else match bad with
    | [] => none
    | r :: t => some (t.foldl min r)

/-- The lines of a stook that no copy and no stripe holds any more are lost for good: those from the first row that is not served on, which
their channels do not store (R349). -/
def Blk.markVoid (b : Blk) (c : Nat) : Blk :=
  if b.mode < 2 then b
  else match b.failRow c with
    | none => b
    | some t =>
      let ks := (b.stookOf c).1.filter (fun k => (b.husk k).lost || (b.husk k).rebuilding)
      let b1 := ks.foldl (fun b k => b.modHusk k (fun h => { h with void := some (min t (h.void.getD t)) })) b
      { b1 with pool.revived := b1.pool.revived.filter (fun l => !(ks.contains (b1.pos l).1 && t ≤ (b1.pos l).2)) }

/-- A Husk channel becomes lost for a cause (R348). What its stripes hold of it from then on is what their other lines give (R349). -/
def Blk.loseChannel (b : Blk) (c cause : Nat) : Blk :=
  if (b.husk c).lost then b
  else
    let b1 := b.modHusk c (fun h => { h with lost := true, up := false, cause := cause, rebuilding := false
                                             void := if h.rebuilding then h.void.map (max h.cursor) else none })
    let rows := if b.mode < 2 then [] else ((b.pool.badChecks.filter (fun e => (b.stookOf c).1.contains (e.1 % 24))).map (fun e => e.1 / 24)).dedup
    let b2 := (rows.foldl (fun b r => b.settleRow c r []) b1).markVoid c
    (b2.flag (Reg.hskErr c) 7).log 0x10 (36 + c) 0 c cause

/-- A Grain layer fails, and its quadrant is lost (R352). -/
def Blk.failLayer (b : Blk) (layer : Nat) : Blk :=
  { b with chans.layers := without b.chans.layers layer }.loseDevice

/-- How many distinct lines of a list of times and lines lie within 1 s of a time. -/
def within1s (l : List (Nat × Nat)) (now : Nat) : Nat :=
  ((l.filter (fun e => now ≤ e.1 + 1000000000)).map (·.2)).dedup.length

/-! ## Log helpers -/

/-- FLAGS of a log record for a line: INJECTED for one of the last 16 injected lines (R347). -/
def Blk.injFlag (b : Blk) (l : Nat) : Nat := b2n (b.pool.injected.contains l)

/-- The data line that a codeword at a channel-local line is logged under: its own, or for a check line the first of its stripe. -/
def Blk.lineAtChan (b : Blk) (c line : Nat) : Nat :=
  match huskHolds b.mode c line with
  | .data l | .mirror l => l
  | _ => (stripeLines b.mode c line).headD 0

/-- The name of a check line among the injected lines, apart from every data line. -/
def checkName (c line : Nat) : Nat := 2 ^ 48 + line * 24 + c

/-- FLAGS of a log record for the codeword at a channel-local line. -/
def Blk.injFlagAt (b : Blk) (c line : Nat) : Nat :=
  match huskHolds b.mode c line with
  | .check _ => b.injFlag (checkName c line)
  | _ => b.injFlag (b.lineAtChan c line)

/-- B of the records that name a channel and a lane (R438): the lane is 0xFF where the error does not lie in one lane. -/
def chanLane (chan : Nat) (lane : Option Nat) (grain : Bool) : Nat :=
  chan + (lane.getD 0xFF) * 256 + b2n grain * 65536

/-- A record about the read of a Grain line: its code, with the line address, the channel and the lane. -/
def Blk.logGrain (b : Blk) (code l chan : Nat) (lane : Option Nat) : Blk :=
  b.log code (32 + chan / 32) (b.partOf l) (l * 128) (chanLane chan lane true) (b.injFlag l)

/-- A record about the read of a Grain line outside every granule, which has no pool address; A has its line of the channel, in bytes
(DESIGN CHOICE, log entry 97). -/
def Blk.logReserve (b : Blk) (code chan line : Nat) (lane : Option Nat) : Blk :=
  b.log code (32 + chan / 32) 0 (line * 128) (chanLane chan lane true)

/-- A record about the read of a codeword of a Husk channel. -/
def Blk.logHusk (b : Blk) (code c line : Nat) (lane : Option Nat) : Blk :=
  let l := b.lineAtChan c line
  b.log code (36 + c) (b.partOf l) (l * 128) (chanLane c lane false) (b.injFlagAt c line)

/-! ## Husk codewords -/

/-- A correction of a Husk codeword counted: CE_CNT, the log, and the device of its rank; at 16 distinct lines the device is
marked, and a second one of the same rank makes the channel lost (R339, R341). -/
def Blk.huskCorr (b : Blk) (c line rank lane : Nat) : Blk :=
  let b1 := ((((b.incr (Reg.hskCeCnt c)).flag (Reg.hskErr c) 0).aonAdd 204 1).event (36 + c) 4 none).logHusk 0x07 c line (some lane)
  let h := b1.husk c
  if h.corr.contains (rank, lane, line) then b1
  else
    let h1 := { h with corr := h.corr ++ [(rank, lane, line)] }
    let b2 := b1.modHusk c (fun _ => h1)
    if (h1.corr.filter (fun e => e.1 == rank && e.2.1 == lane)).length < 16 then b2
    else match mget h1.marks rank with
      | some m => if m = lane then b2 else b2.loseChannel c 3
      | none => (b2.modHusk c (fun h => { h with marks := mput h.marks rank lane, lastMark := (rank, lane) })).flag (Reg.hskErr c) 6

/-- An uncorrectable Husk codeword counted; more than 8 distinct lines within 1 s make the channel lost (R339, R348). -/
def Blk.huskUnc (b : Blk) (c line : Nat) : Blk :=
  let b1 := ((b.incr (Reg.hskUeCnt c)).flag (Reg.hskErr c) 1).aonAdd 205 1
  let b2 := b1.modHusk c (fun h => { h with uncorr := (h.uncorr.filter (fun e => b.tb ≤ e.1 + 1000000000)) ++ [(b.tb, line)] })
  if 8 < within1s (b2.husk c).uncorr b.tb then b2.loseChannel c 2 else b2

/-- A line sent to the peer as a WrLine (R353). -/
def Blk.mirrorSend (b : Blk) (l : Nat) : Nat × Blk :=
  let v := b.lineVal l
  b.sendOwn (homeOf l) { ty := 0xC3, dst := b.str.run.pair.peer, msgId := 0, traceId := 0, arg := argAt (l * 128) 0,
                         payload := v.1 ++ toLe 16 (2 ^ 128 - 1), poisons := [v.2], part := b.partOf l }

/-- A line that has been poisoned sent to the peer where it is mirrored: a poisoning is a write (R338, R353). -/
def Blk.mirrorPoison (b : Blk) (l : Nat) : Blk :=
  if b.mirrors l then
    let x := b.mirrorSend l
    { x.2 with pair.poisons := b.pair.poisons ++ [(x.1, l, b.tb + 20000000)] }
  else b

/-- A line poisoned for a partition (R340): data 0 with POISON = 1 on every surviving copy, WEPOCH advanced; a DIRTY Grain line stays DIRTY and
carries the poison to the Husk tier later. Each write is an operation of its channel (R299). -/
def Blk.poisonLine (b : Blk) (l : Nat) (part : Nat) : Blk :=
  let old := b.lineMeta l
  let m : LineMeta := { old with poison := true, wepoch := old.wepoch + 1 }
  let stay := b.inGrain l && old.dirty
  let b1 := if b.inGrain l then (b.putCopy .grain l (zeros 128) m).countGrain l 2 part else b
  let b2 := if stay then b1 else (b1.putHusk l (zeros 128) { m with dirty := false }).countHusk l 2 part
  let cs := if (b.dataChans l).isEmpty then b.checkStores l else b.dataChans l
  let b3 := if stay then b2 else cs.foldl (fun b c => b.flag (Reg.hskErr c) 2) b2
  (b3.mirrorPoison l).log 0x0B 0xFF (b.partOf l) (l * 128) 0 (b.injFlag l)

/-- The error pattern that stands on a copy of a line (R347), as lanes. -/
def Blk.copyLanes (b : Blk) (c : Copy) (l : Nat) : List Nat :=
  let k := match c with | .huskA => 0 | .huskB => 1 | .grain => 2
  ((mget b.pool.inj (l * 8 + k)).map lanesOf).getD []

/-- The device marked in the rank that holds a channel-local line. -/
def Blk.markOf (b : Blk) (c rank : Nat) : Option Nat := mget (b.husk c).marks rank

/-- The rank of a channel-local line, which the channel controller places (R78). -/
def rankAt (c line : Nat) : Nat := Config.rankOf c line % 8

/-- The key of the error pattern that stands on the codeword at a channel-local line. -/
def Blk.injKey (b : Blk) (c line : Nat) : Option Nat :=
  match huskHolds b.mode c line with
  | .data l => some (l * 8)
  | .mirror l => some (l * 8 + 1)
  | .check ix => some (b.checkKey c line ix)
  | .nothing => none

/-- The lanes in which the codeword stored at a channel-local line has errors (R347). -/
def Blk.lanesAt (b : Blk) (c line : Nat) : List Nat := (((b.injKey c line).bind (mget b.pool.inj)).map lanesOf).getD []

/-- The codeword at a channel-local line written anew: no error stands on it. -/
def Blk.clearAt (b : Blk) (c line : Nat) : Blk :=
  match b.injKey c line with
  | some k => { b with pool.inj := mdel b.pool.inj k }
  | none => b

/-- A codeword of a channel decoded for a partition, with errors in some lanes besides those that stand on it (R339): a correctable one is
corrected and written back; the flag tells that it is uncorrectable, which is counted. -/
def Blk.decodeAt (b : Blk) (c line rank : Nat) (lanes : List Nat) (part : Nat) : Bool × Blk :=
  match decodeLanes (joinLanes lanes (b.lanesAt c line)) (b.markOf c rank) with
  | .clean => (false, b)
  | .corr lane => (false, ((b.clearAt c line).huskOp c 2 part).huskCorr c line rank lane)
  | .unc => (true, b.huskUnc c line)

/-- The other codewords of a stook at a channel-local line read and decoded for a partition, to rebuild that of a channel (R339, R349);
answered with the channels whose codeword is uncorrectable. -/
def Blk.readStook (b : Blk) (c line : Nat) (part : Nat) : Blk × List Nat :=
  (b.stookOf c).1.foldl (fun x k =>
    if k = c || !x.1.stored k line then x
    else
      let y := (x.1.huskOp k 1 part).decodeAt k line (rankAt k line) [] part
      (y.2, if y.1 then x.2 ++ [k] else x.2)) (b, [])

/-- A MIRROR copy written from the other one. -/
def Blk.copyOver (b : Blk) (c line : Nat) : Blk :=
  match huskHolds b.mode c line with
  | .data l => b.putCopy .huskA l (b.copyBytes .huskB l) (b.copyMeta .huskB l)
  | .mirror l => b.putCopy .huskB l (b.copyBytes .huskA l) (b.copyMeta .huskA l)
  | _ => b

/-- Codewords of some channels that did not decode (R339): rebuilt from the other copy, or from the rest of the stripe, and written back, where
the stook has enough left, and otherwise their lines poisoned. -/
def Blk.settleUnc (b : Blk) (c line : Nat) (ks : List Nat) (part : Nat) : Blk :=
  let bad := ks.filter (fun k => b.stored k line)
  if b.goneAt c line + bad.length ≤ (b.stookOf c).2 then
    let b1 := if b.mode = 1 then bad.foldl (fun b k => b.copyOver k line) b else b.settleRow c line bad
    bad.foldl (fun b k => ((b.clearAt k line).huskOp k 2 part).logHusk 0x08 k line none) b1
  else
    let b1 := ks.foldl (fun b k => b.clearAt k line) b
    ((ks.filterMap (fun k => match huskHolds b.mode k line with
      | .data l | .mirror l => some l
      | _ => none)).dedup).foldl (fun b l => b.poisonLine l part) b1

/-- A Husk channel's read of the codeword at a channel-local line for a partition, with errors in some lanes (R339): corrected in place, or
rebuilt from the other copy or the stripe and written back, or its line is poisoned. The flag tells that it was uncorrectable. -/
def Blk.readAt (b : Blk) (c line rank : Nat) (lanes : List Nat) (part : Nat) : Bool × Blk :=
  let d := b.decodeAt c line rank lanes part
  if d.1 then
    let x := d.2.readStook c line part
    (true, x.1.settleUnc c line (c :: x.2) part)
  else d

/-- The codewords of a line read from the Husk tier for a partition: of the copy that serves it, or of the rest of its stripe where its own
channel does not store it (R339, R349). The flag tells that a codeword was uncorrectable. -/
def Blk.readHusk (b : Blk) (l : Nat) (part : Nat) : Bool × Blk :=
  let p := b.pos l
  if b.stored p.1 p.2 then b.readAt p.1 p.2 (rankAt p.1 p.2) [] part
  else if b.aliveB l then b.readAt (p.1 + 1) p.2 (rankAt (p.1 + 1) p.2) [] part
  else if b.huskAlive l then
    let x := b.readStook p.1 p.2 part
    if x.2.isEmpty then (false, x.1) else (true, x.1.settleUnc p.1 p.2 (p.1 :: x.2) part)
  else (false, b)

/-- The Husk copy that a read of a line is served from; none where none survives. -/
def Blk.huskCopy (b : Blk) (l : Nat) : Option Copy :=
  if b.aliveA l then some .huskA else if b.aliveB l then some .huskB else none

/-- What a Husk read of a line delivers after R339, for a partition: the copy, where one survives, and whether a codeword was
uncorrectable. -/
def Blk.fetchHusk (b : Blk) (l : Nat) (part : Nat) : Blk × Option Copy × Bool :=
  let x := (b.countHusk l 1 part).readHusk l part
  (x.2, x.2.huskCopy l, x.1)

/-! ## Grain codewords -/

/-- A corrected Grain line: counted, and its row is to be spared at 4 distinct corrected lines (R339, R352). -/
def Blk.grainFix (b : Blk) (ch line : Nat) : Blk :=
  let q := ch / 32
  (((b.incr (Reg.grnCeCnt q)).flag (Reg.grnErr q) 0).aonAdd 204 1).modGrain ch (fun g =>
    let corr := with1 g.corr (line / 64, line)
    { g with corr := corr,
             pending := if 4 ≤ (corr.filter (fun e => e.1 == line / 64)).length then with1 g.pending (line / 64) else g.pending })

/-- A corrected Grain line counted and logged. -/
def Blk.grainCorr (b : Blk) (ch line l lane : Nat) : Blk := (b.grainFix ch line).logGrain 0x07 l ch (some lane)

/-- An uncorrectable Grain line: counted, its row is to be spared, and more than 64 distinct lines of a channel within 1 s fail
its layer (R339, R352). -/
def Blk.grainUnc (b : Blk) (ch line : Nat) : Blk :=
  let q := ch / 32
  let b1 := ((b.incr (Reg.grnUeCnt q)).flag (Reg.grnErr q) 7).aonAdd 205 1
  let b2 := b1.modGrain ch (fun g => { g with
    pending := with1 g.pending (line / 64)
    uncorr := (g.uncorr.filter (fun e => b.tb ≤ e.1 + 1000000000)) ++ [(b.tb, line)] })
  if 64 < within1s (b2.grain ch).uncorr b.tb then b2.failLayer (ch / 8) else b2

/-- A Grain line that no other copy can restore, poisoned (R339). -/
def Blk.grainLost (b : Blk) (ch l part : Nat) : Blk := (b.logGrain 0x0A l ch none).poisonLine l part

/-- A read of a line in its Grain frame for a partition, with errors in some lanes (R339): corrected in place, restored from the Husk copy
where it is not DIRTY, or poisoned. The flag tells that it was uncorrectable. -/
def Blk.readGrainCopy (b : Blk) (l : Nat) (lanes : List Nat) (part : Nat) : Bool × Blk :=
  let f := (mget b.pool.frames (granOf l)).getD 0
  let p := grainPos l f
  let q := homeOf l
  match decodeLanes (joinLanes lanes (b.copyLanes .grain l)) none with
  | .clean => (false, b)
  | .corr lane => (false, ((b.putCopy .grain l (b.copyBytes .grain l) (b.copyMeta .grain l)).countGrain l 2 part).grainCorr p.1 p.2 l lane)
  | .unc =>
    let b1 := b.grainUnc p.1 p.2
    if (b.copyMeta .grain l).dirty then (true, ((b1.incr (Reg.grnDirtyLostCnt q)).flag (Reg.grnErr q) 2).grainLost p.1 l part)
    else if !b.huskAlive l then (true, b1.grainLost p.1 l part)
    else
      let x := b1.fetchHusk l part
      match x.2.1 with
      | none => (true, x.1.grainLost p.1 l part)
      | some c =>
        let b2 := (x.1.putCopy .grain l (x.1.copyBytes c l) (x.1.copyMeta c l)).countGrain l 2 part
        (true, ((b2.incr (Reg.grnUeRecoveredCnt q)).flag (Reg.grnErr q) 1).logGrain 0x09 l p.1 none)

/-- A line whose key slot is wrong logged and counted as it is read (R382). -/
def Blk.noteSlot (b : Blk) (l : Nat) : Blk :=
  let m := b.lineMeta l
  if (b.source l).isSome && !m.poison && b.slotBad l m then
    ((b.incr Reg.secKeyMismatchCnt).flag Reg.secErr 2).log 0x14 0xFF (b.partOf l) (l * 128) m.slot (b.injFlag l)
  else b

/-- What a read of a line delivers: from its frame or from the Husk tier, after R339; it is counted where it is read. -/
def Blk.fetch (b : Blk) (l : Nat) : Blk × Bytes × Bool :=
  let part := b.partOf l
  let b1 := if b.inGrain l then ((b.countGrain l 1 part).readGrainCopy l [] part).2 else (b.fetchHusk l part).1
  let v := b1.lineVal l
  (b1.noteSlot l, v.1, v.2)

/-! ## Copies that disagree (R343) -/

/-- Two copies compared: the one whose write epoch is 1 to 127 ahead is newer. -/
def newerCopy (a c : Byte) : Option Bool :=
  let d := (a - c).toNat
  if d = 0 || d = 128 then none else some (d < 128)

/-- The MIRROR copies of a line, both decoded for a partition without an uncorrectable error, compared; differing copies are settled by their
epochs, or the line is poisoned. -/
def Blk.compareMirror (b : Blk) (l part : Nat) : Blk :=
  let p := b.pos l
  if !b.stored p.1 p.2 || !b.stored (p.1 + 1) p.2 then b
  else
    let ma := b.copyMeta .huskA l; let mb := b.copyMeta .huskB l
    if ma == mb && b.copyBytes .huskA l == b.copyBytes .huskB l then b
    else
      let ep := ma.wepoch.toNat + 256 * mb.wepoch.toNat
      let done := fun (b : Blk) (c : Nat) => (((b.huskOp c 2 part).incr (Reg.hskStaleCnt p.1)).flag (Reg.hskErr p.1) 3).log 0x0D (36 + p.1)
        (b.partOf l) (l * 128) ep (b.injFlag l)
      match newerCopy ma.wepoch mb.wepoch with
      | some true => done (b.copyOver (p.1 + 1) p.2) (p.1 + 1)
      | some false => done (b.copyOver p.1 p.2) p.1
      | none => (((b.incr (Reg.hskDivergeCnt p.1)).flag (Reg.hskErr p.1) 4).log 0x0E (36 + p.1) (b.partOf l) (l * 128) ep
          (b.injFlag l)).poisonLine l part

/-- A Grain line with DIRTY = 0, which has decoded without an uncorrectable error, compared for a partition with its Husk copy, which is read
and decoded first. -/
def Blk.compareGrain (b0 : Blk) (l part : Nat) : Blk :=
  let p := b0.pos l
  if !b0.inGrain l || (b0.copyMeta .grain l).dirty || !b0.huskAlive l then b0
  else
    let x := b0.fetchHusk l part
    let b := x.1
    match x.2.1 with
    | none => b
    | some hc =>
      let mg := b.copyMeta .grain l; let mh := b.copyMeta hc l
      let q := homeOf l
      if x.2.2 || ({ mg with dirty := false } == mh && b.copyBytes .grain l == b.copyBytes hc l) then b
      else
        let ep := mg.wepoch.toNat + 256 * mh.wepoch.toNat
        let rec1 := fun (x : Blk) (code : Nat) => x.log code (32 + q) (b.partOf l) (l * 128) ep (b.injFlag l)
        match newerCopy mg.wepoch mh.wepoch with
        | some true => rec1 ((((b.putHusk l (b.copyBytes .grain l) mg).countHusk l 2 part).flag (Reg.grnErr q) 3).incr (Reg.hskStaleCnt p.1)) 0x0D
        | some false => rec1 ((((b.putCopy .grain l (b.copyBytes hc l) mh).countGrain l 2 part).flag (Reg.grnErr q) 3).incr
            (Reg.hskStaleCnt p.1)) 0x0D
        | none => (rec1 ((b.flag (Reg.grnErr q) 4).incr (Reg.hskDivergeCnt p.1)) 0x0E).poisonLine l part

/-! ## Operations of a Husk scheduler (R301, R348) -/

/-- HUSK_OP_ISSUE: the scheduler issues the oldest waiting read or write of a partition, where the gate is open to it long
enough and no refresh overlaps it (R301); otherwise the operation waits. A write that cannot be completed loses the channel with cause PHY
(R348). -/
def huskOpIssue (b : Blk) (c : Nat) (op : HuskOp) : Blk :=
  if !b.gateFits (0x100 + c) op.part.val b.huskSpan || b.refreshBars c then b
  else
    let h := b.husk c
    let some_ := !(tget (fun _ => []) h.writes op.part.val).isEmpty
    let b1 := b.modHusk c (fun h =>
      if op.write then { h with writes := tmod (fun _ => []) h.writes op.part.val (·.drop 1) }
      else { h with reads := tmod (fun _ => []) h.reads op.part.val (·.drop 1) })
    if op.write && !op.ok && some_ then b1.loseChannel c 5 else b1

end Sys2Proof.Machine
end

