-- ==== Sys2Proof/Machine/Window.lean ====
section
/-! DEFINITION. Command windows: what the hub sends on PCIe, answers and events (R308, R311, R313 to R317, R320, R380). -/

namespace Sys2Proof.Machine

/-! ## PCIe (R308, R380) -/

/-- The command window of a function. -/
def Blk.win (b : Blk) (f : Nat) : Win := tget (fun _ => {}) b.hub.wins f

/-- The command window of a function changed. -/
def Blk.modWin (b : Blk) (f : Nat) (g : Win → Win) : Blk := { b with hub.wins := tmod (fun _ => {}) b.hub.wins f g }

/-- Is IDE required (R380). -/
def Blk.ideRequired (b : Blk) : Bool := (b.reg Reg.secIdeCfg).getLsbD 0

/-- Is a stream active that takes in the TLPs of a function: the link stream, number 0, takes in all, and a selective one those that the host
has associated with it (R380, log entry 98). -/
def Blk.streamUp (b : Blk) (f : Nat) : Bool :=
  b.sec.ideActive.contains 0 || b.sec.ideActive.any (fun s => s != 0 && Config.selStream s f)

/-- May the hub send a TLP of a function: IDE is not required, or its stream is active (R380). -/
def Blk.ideOk (b : Blk) (f : Nat := 0) : Bool := !b.ideRequired || b.streamUp f

/-- The function of a TLP that the hub sends. -/
def PcieOut.func : PcieOut → Nat
  | .write f _ _ _ _ | .read f _ _ _ | .msix f _ | .cfgUr f | .transReq f _ _ | .pageReq f _ _ _ _ | .invCpl f _ => f
  | .cpl _ _ _ | .cplAbort _ | .cplUr _ => 0

/-- Something sent on PCIe; while IDE is required and its stream is not active it waits (R380). -/
def Blk.pcie (b : Blk) (o : PcieOut) : Blk :=
  if b.ideOk o.func then { b with hub.out := b.hub.out ++ [o] } else { b with hub.held := b.hub.held ++ [o] }

/-- What waited for a stream that is active now, sent. -/
def Blk.pcieRelease (b : Blk) : Blk :=
  { b with hub.out := b.hub.out ++ b.hub.held.filter (fun o => b.ideOk o.func),
           hub.held := b.hub.held.filter (fun o => !b.ideOk o.func) }

/-- An AER uncorrectable error of a function noted, by its bit of the status (R307; log entry 82). -/
def Blk.aerSet (b : Blk) (f i : Nat) : Blk := { b with hub.aer := tmod (fun _ => 0) b.hub.aer f (fun v => v ||| 2 ^ i) }

/-- Does IDE let a TLP of a function in: it is not required, or the TLP came in a stream that is active and takes in the function's TLPs (R380). -/
def Blk.ideIn (b : Blk) (inStream : Bool) (f : Nat := 0) : Bool := !b.ideRequired || (inStream && b.streamUp f)

/-- A TLP discarded because it came outside an active stream while IDE is required (R380). -/
def Blk.ideDrop (b : Blk) : Blk := (b.incr Reg.secIdeDropCnt).flag Reg.secErr 5

/-- A non-posted request of a function discarded so: it is answered with UR, an error that AER notes (R307, R380). -/
def Blk.ideDropUr (b : Blk) (f : Nat) (ur : PcieOut) : Blk := (b.ideDrop.aerSet f 20).pcie ur

/-- What a TLP of the host that needs no answer does at a device that answers, where IDE lets it in: function f's message or memory write. -/
def Blk.taken (b : Blk) (f : Nat) (go : Blk → Blk) : Blk := if b.dead then b else if b.ideIn true f then go b else b.ideDrop

/-- What a write of a function's configuration space does: a request that is answered, with UR where IDE does not let it in (R380). -/
def Blk.configured (b : Blk) (f : Nat) (go : Blk → Blk) : Blk :=
  if b.dead then b else if b.ideIn true f then go b else b.ideDropUr f (.cfgUr f)

/-- May a function send requests: Bus Master Enable is 1, and it is in D0 (R307, R308). -/
def Win.master (w : Win) : Bool := w.busMaster && !w.d3hot

/-! ## Requests for host memory (R307, R327) -/

/-- The pages that a range of bytes touches. -/
def pagesOf (a n : Nat) : List Nat := (List.range ((a + n + 4095) / 4096 - a / 4096)).map (fun i => a / 4096 + i)

/-- Host addresses of n bytes from an address, cut at the translated pages: each piece with its PASID where it is untranslated. -/
def hostPieces : Nat → Nat → List (Nat × Bool) → List (Nat × Nat × Bool)
  | _, _, [] => []
  | a, n, (t, u) :: rest =>
    let k := min n (4096 - a % 4096)
    (t + a % 4096, k, u) :: hostPieces (a + k) (n - k) rest

/-- A piece cut into requests of at most s bytes. -/
def cutPiece (s : Nat) (p : Nat × Nat × Bool) : List (Nat × Nat × Bool) :=
  (List.range ((p.2.1 + s - 1) / s)).map (fun i => (p.1 + i * s, min s (p.2.1 - i * s), p.2.2))

/-- The read requests for some pieces, of at most Max_Read_Request_Size: PF0's serves every function. -/
def Blk.readCut (b : Blk) (ps : List (Nat × Nat × Bool)) : List (Nat × Nat × Bool) :=
  (ps.map (cutPiece (128 * 2 ^ (b.win 0).mrrs))).flatten

/-- Bytes written to a piece of host memory, in requests of at most Max_Payload_Size. -/
def Blk.putPiece (b : Blk) (f pasid : Nat) (ep : Bool) (p : Nat × Nat × Bool) (bs : Bytes) : Blk :=
  (cutPiece (128 * 2 ^ (b.win 0).mps) p).foldl (fun b c =>
    b.pcie (.write f (if c.2.2 then some pasid else none) c.1 (sl bs (c.1 - p.1) c.2.1) ep)) b

/-- Untranslated pieces of n bytes from an address, cut at pages: what the management controller reads and writes, under its record's PASID
(R319; log entry 68), or without one. -/
def plainPieces (a n : Nat) (withPasid : Bool := true) : List (Nat × Nat × Bool) :=
  hostPieces a n ((pagesOf a n).map (fun p => (p * 4096, withPasid)))

/-- Bytes written to host memory for a command, under its PASID (R319). -/
def Blk.hostPut (b : Blk) (f pasid a : Nat) (bs : Bytes) : Blk :=
  (plainPieces a bs.length).foldl (fun b p => b.putPiece f pasid false p (sl bs (p.1 - a) p.2.1)) b

/-- The non-posted requests of the hub that are outstanding (R307). -/
def Blk.nonPosted (b : Blk) : Nat := b.hub.trans.length + (b.hub.reads.map (·.sent)).sum

/-- The outstanding read of a transfer. -/
def Blk.readOf (b : Blk) (x : Xfer) : Option ReadOut := b.hub.reads.find? (fun r => r.x == x)

/-- The read of a transfer no longer outstanding. -/
def Blk.endRead (b : Blk) (x : Xfer) : Blk := { b with hub.reads := b.hub.reads.filter (fun r => r.x != x) }

/-- A completion that comes for a transfer that has been given up. -/
def Blk.strayRead (b : Blk) (x : Xfer) (host : HostResult) : Blk := if host = .pending then b else b.endRead x

/-- The requests of a transfer's read that are not sent yet, sent as far as 512 outstanding ones allow (R307); the flag tells that its
completions are there, which takes all of it to have been sent. -/
def Blk.askHost (b : Blk) (x : Xfer) (engine f pasid : Nat) (spans : List (Nat × Nat)) (ts : List (Nat × Nat × Bool)) (host : HostResult) :
    Bool × Blk :=
  let old := b.readOf x
  let go := match old with
    | some r => ts.drop (ts.length - r.left)
    | none => ts
  let room := 512 - b.nonPosted
  let now := if host = .pending then go.take room else go
  let b1 := now.foldl (fun b p => b.pcie (.read f (if p.2.2 then some pasid else none) p.1 p.2.1)) b
  if host = .pending then
    let r : ReadOut := { x := x, engine := engine, id := (old.map (·.id)).getD b.hub.stamp, f := f, pasid := pasid, spans := spans,
                         sent := (old.map (·.sent)).getD 0 + now.length, left := go.length - now.length }
    (false, { b1.endRead x with hub.reads := (b1.endRead x).hub.reads ++ [r], hub.stamp := b.hub.stamp + 1 })
  else if room = 0 && !go.isEmpty then (false, b)
  else (true, b1.endRead x)

/-- An MSI-X message of a function, sent while its Bus Master Enable is 1 and once CW_CONFIG has set a vector (R308, R313). -/
def Blk.msix (b : Blk) (f : Nat) (vec : Option Nat) : Blk :=
  match vec with
  | none => b
  | some v => if (b.win f).master then b.pcie (.msix f v) else b

/-- A mirror write to an untranslated host address, where a mirror is set and Bus Master Enable is 1 (R308, R316). -/
def Blk.mirrorOut (b : Blk) (f base off : Nat) (bs : Bytes) : Blk :=
  if base = 0 || !(b.win f).master then b else b.pcie (.write f none (base + off) bs false)

/-! ## Commands in progress (R314 to R316) -/

/-- A command in progress. -/
def Blk.cmd (b : Blk) (c : CmdId) : Option CmdRec := b.hub.inProg.find? (fun r => r.f == c.f.val && r.seq == c.seq.toNat)

/-- The opcode of a record. -/
def CmdRec.op (r : CmdRec) : Nat := u8 r.bytes 0

/-- A little-endian parameter of a record (R319). -/
def CmdRec.arg (r : CmdRec) (o n : Nat) : Nat := le r.bytes o n

/-- The name of a command in progress. -/
def CmdRec.id (r : CmdRec) : CmdId := ⟨Fin.ofNat 64 r.f, BitVec.ofNat 64 r.seq⟩

/-- The commands in progress of a function. -/
def Blk.inProgOf (b : Blk) (f : Nat) : List CmdRec := b.hub.inProg.filter (fun r => r.f == f && !r.lost)

/-- Is a record that of a command. -/
def CmdRec.is (r : CmdRec) (c : CmdId) : Bool := r.f == c.f.val && r.seq == c.seq.toNat

/-- A command taken off the list. -/
def Blk.dropCmd (b : Blk) (c : CmdId) : Blk := { b with hub.inProg := b.hub.inProg.eraseP (fun r => r.is c) }

/-- The first record of a command in a list marked as started. -/
def markStarted (c : CmdId) : List CmdRec → List CmdRec
  | [] => []
  | r :: t => if r.is c then { r with started := true } :: t else r :: markStarted c t

/-- A command marked as started by its executor. -/
def Blk.startCmd (b : Blk) (c : CmdId) : Blk := { b with hub.inProg := markStarted c b.hub.inProg }

/-- The 128 bytes of an answer (R316). -/
def answerBytes (r : CmdRec) (status : Nat) (res : Bytes) : Bytes :=
  sl r.bytes 4 4 ++ toLe 1 r.op ++ toLe 1 status ++ zeros 2 ++ fit 112 res ++ toLe 8 r.seq

/-- The answer to a command: its slot, its mirror and its MSI-X (R316); an answer with a non-zero STATUS counts as failed. -/
def Blk.answerRec (b : Blk) (r : CmdRec) (status : Nat) (res : Bytes) : Blk :=
  let w := b.win r.f
  let a := answerBytes r status res
  let b1 := (b.modWin r.f (fun w => { w with answers := mput w.answers (r.seq % 2048) a })).mirrorOut r.f w.ansMirror
    (r.seq % 2048 * 128) a
  let b2 := if (u8 r.bytes 1).testBit 0 then b1.msix r.f w.ansVec else b1
  if status = 0 then b2 else b2.incr Reg.hubCmdFailCnt

/-- A command in progress answered; one that an FLR has ended gets no answer (R325). -/
def Blk.answerCmd (b : Blk) (c : CmdId) (status : Nat) (res : Bytes) : Blk :=
  match b.cmd c with
  | none => b
  | some r => if r.lost then b.dropCmd c else (b.dropCmd c).answerRec r status res

/-! ## Events (R317) -/

/-- The function that serves a partition: PF0 for partition 0, else the VF of its PARTITION entry, 0 where it has none. -/
def Struct.vfOf (s : Struct) (part : Nat) : Nat := ((mget s.parts part).map (·.vf)).getD 0

/-- The partition that a function serves (R310). -/
def Struct.partOfFunc (s : Struct) (f : Nat) : Option Nat :=
  if f = 0 then some 0 else (s.parts.find? (fun e => e.2.vf == f)).map (·.1)

/-- An event for a partition: written to its slot, mirrored and signalled, or dropped (R317). body: bytes 0x00 to 0x37. -/
def Blk.eventDeliver (b : Blk) (part : Nat) (body : Bytes) : Blk :=
  let f := (b.view .hub).vfOf part
  if part != 0 && f = 0 then (b.incr Reg.hubEvtDropCnt).flag Reg.hubErr 1
  else
    let w := b.win f
    let slot := w.nextEvt % 1024
    if mhas w.events slot then
      (b.modWin f (fun w => { w with lost := min (w.lost + 1) 0xFFFFFFFF })).flag Reg.hubErr 1
    else
      let e := fit 56 body ++ toLe 8 w.nextEvt
      ((b.modWin f (fun w => { w with events := mput w.events slot e, nextEvt := w.nextEvt + 1 })).mirrorOut f w.evtMirror
        (slot * 64) e).msix f w.evtVec

/-! ## The aperture (R311) -/

/-- A refusal of an aperture line: HUB_APT_ERR with the status, the line address, and APT_REFUSE_CNT. -/
def Blk.aptRefuse (b : Blk) (write : Bool) (line status : Nat) : Blk :=
  let b1 := (b.flag Reg.hubAptErr (if write then 1 else 0)).incr Reg.hubAptRefuseCnt
  let b2 := b1.setReg Reg.hubAptErr (putField (b1.reg Reg.hubAptErr) 8 8 status)
  (b2.setReg Reg.hubAptErrAddrLo (BitVec.ofNat 32 (line * 128))).setReg Reg.hubAptErrAddrHi (BitVec.ofNat 32 (line * 128 / 2 ^ 32))

/-- The completions of an aperture read, in ascending address order, as far as its lines have ended; none is left after a refused
line. -/
def Blk.aptComplete (b : Blk) (r : AptRead) : List (Nat × Nat × Nat) → Blk × List (Nat × Nat × Nat)
  | [] => (b, [])
  | (l, lo, hi) :: rest =>
    match mget r.got l with
    | none => (b, (l, lo, hi) :: rest)
    | some (st, bs, p) =>
      if st ≠ 0 then ((b.aerSet 0 15).pcie (.cplAbort r.tag), [])
      else
        let b1 := b.pcie (.cpl r.tag (sl bs lo (hi - lo)) p)
        (if p then b1.flag Reg.hubAptErr 2 else b1).aptComplete r rest

/-- A line of an aperture read ended: each refusal is recorded and counted, those after the first included (R311). -/
def Blk.aptLand (b : Blk) (tag l status : Nat) (bs : Bytes) (poison : Bool) : Blk :=
  let b0 := if status = 0 then b else b.aptRefuse false l status
  match b0.hub.apt.find? (fun r => r.tag == tag) with
  | none => b0
  | some r =>
    let r1 : AptRead := { r with got := mput r.got l (status, bs, poison) }
    let x := b0.aptComplete r1 r1.left
    let rest := x.1.hub.apt.filter (fun r => r.tag != tag)
    { x.1 with hub.apt := if x.2.isEmpty then rest else rest ++ [{ r1 with left := x.2 }] }

end Sys2Proof.Machine
end

