-- ==== Sys2Proof/Machine/Home.lean ====
section
/-! DEFINITION. The home agents: the checks of every access, the directory, transactions on lines, atomics and snoops (R37, R38,
R89 to R92, R106 to R127, R242, R243, R342, R353 to R355, R456). -/

namespace Sys2Proof.Machine

/-! ## The directory (R106 to R110) -/

/-- The entries of a set. -/
def Blk.setEntries (b : Blk) (s : Nat × Nat) : List (Nat × DirEnt) := b.coh.dir.filter (fun e => dirSet e.1 == s)

/-- The agent with an index. -/
def Blk.agentAt (b : Blk) (i : Nat) : Option Nat := (b.coh.agents.find? (fun a => a.2.index == i)).map (·.1)

/-- The index of an agent (R108). -/
def Blk.agentIx (b : Blk) (eid : Nat) : Option Nat := (mget b.coh.agents eid).map (·.index)

/-- Does a home agent treat an agent as holding no line: it has taken the agent's suspension or its host's expiry (R126). -/
def Blk.deadAt (b : Blk) (q eid : Nat) : Bool := b.coh.suspended.contains (q, eid) || b.ext.dead.contains (q, eid)

/-- The agents that an entry names or, in the coarse form, covers (R107). -/
def Blk.entHolders (b : Blk) (e : DirEnt) : List Nat :=
  if e.coarse then (b.coh.agents.filter (fun a => e.bits.getLsbD (a.2.index / 16))).map (·.1)
  else e.ptrs.filterMap b.agentAt

/-- The holders of a line that a home agent may snoop: none that it treats as dead (R126). -/
def Blk.liveHolders (b : Blk) (l : Nat) : List Nat :=
  match mget b.coh.dir l with
  | none => []
  | some e => (b.entHolders e).filter (fun a => !b.deadAt (homeOf l) a)

/-- Is a line in X, and with which owner. -/
def Blk.ownerOf (b : Blk) (l : Nat) : Option Nat :=
  match mget b.coh.dir l with
  | some e => if e.state = .x then (e.ptrs.head?).bind b.agentAt else none
  | none => none

/-- A dead owner's line poisoned (R97, R126): DEAD_DIRTY is logged and counted, and the entry is freed. -/
def Blk.poisonDead (b : Blk) (l owner : Nat) : Blk :=
  let q := homeOf l
  let b1 := (((b.incr (Reg.haPoisonDeadCnt q)).flag (Reg.haErr q) 0).log 0x03 (28 + q) (b.partOf l) (l * 128) owner).poisonLine l (b.partOf l)
  { b1 with coh.dir := mdel b1.coh.dir l }

/-- An agent taken out of a line's entry, which is freed where it is left empty; a coarse bit stays set (R127). -/
def Blk.dropHolder (b : Blk) (l eid : Nat) : Blk :=
  match mget b.coh.dir l, b.agentIx eid with
  | some e, some i =>
    if e.coarse then b
    else
      let ps := e.ptrs.filter (· != i)
      if ps.isEmpty then { b with coh.dir := mdel b.coh.dir l }
      else { b with coh.dir := mput b.coh.dir l { e with ptrs := ps } }
  | _, _ => b

/-- One entry that a walk for an agent meets (R127). -/
def Blk.walkEntry (b : Blk) (eid l : Nat) : Blk :=
  if b.ownerOf l = some eid then b.poisonDead l eid else b.dropHolder l eid

/-- The lines that a host holds at a home agent, as its directory shows. -/
def Blk.heldLines (b : Blk) (q eid : Nat) : List Nat :=
  (b.coh.dir.filter (fun x => homeOf x.1 == q && (b.entHolders x.2).contains eid)).map (·.1)

/-- An entry's stamp of use renewed (R109). -/
def Blk.touch (b : Blk) (l : Nat) : Blk :=
  { b with coh.stamp := b.coh.stamp + 1, coh.dir := mmod b.coh.dir l (fun e => { e with stamp := b.coh.stamp + 1 }) }

/-- A line granted to an agent: X with the agent as owner (R114). -/
def Blk.grantX (b : Blk) (l part eid : Nat) : Blk :=
  match b.agentIx eid with
  | none => b
  | some i => { b with
    coh.stamp := b.coh.stamp + 1
    coh.dir := mput b.coh.dir l ⟨.x, part, false, [i], 0, b.coh.stamp + 1⟩ }

/-- The coarse bits of some agent indices (R107). -/
def coarseBits (is : List Nat) : BitVec 64 := is.foldl (fun w i => w ||| (1#64 <<< (i / 16))) 0

/-- An agent added to the sharers of a line: a fifth sharer converts the entry to the coarse form (R107). -/
def Blk.addSharer (b : Blk) (l part eid : Nat) : Blk :=
  match b.agentIx eid with
  | none => b
  | some i =>
    let st := b.coh.stamp + 1
    let e : DirEnt := match mget b.coh.dir l with
      | some e =>
        if e.coarse then { e with bits := e.bits ||| coarseBits [i], stamp := st, state := .s }
        else if e.ptrs.contains i then { e with stamp := st, state := .s }
        else if e.ptrs.length < 4 then { e with ptrs := e.ptrs ++ [i], stamp := st, state := .s }
        else { e with coarse := true, bits := coarseBits (i :: e.ptrs), ptrs := [], stamp := st, state := .s }
      | none => ⟨.s, part, false, [i], 0, st⟩
    { b with coh.stamp := st, coh.dir := mput b.coh.dir l e }

/-- A lookup of a line's set: a miss of the directory cache is counted and reads the set's reserve line (R106). -/
def Blk.dirLookup (b : Blk) (l : Nat) : Blk :=
  let q := homeOf l
  let d := b.draw
  if Config.dirMiss d.1 then ((d.2.incr (Reg.haDirMissCnt q)).aonAdd (156 + q) 1).event (32 + q) 3 none else d.2

/-! ## Transactions (R112 to R117) -/

/-- A snoop sent to an agent (R111, R241), with the partition of the extent that holds the line (R299). -/
def Blk.sendSnoop (b : Blk) (l eid snpId part : Nat) (k : SnpKind) : Blk :=
  let ty := match k with | .s => 0x80 | .i => 0x81 | .cur => 0x82
  let q := homeOf l
  ((b.sendOwn q { ty := ty, dst := eid, msgId := 0, traceId := 0, arg := argAt (l * 128) 0 ||| argAt snpId 48,
                  part := part }).2).event (28 + q) 3 (some part)

/-- Snoops of a kind sent to some agents for a transaction. -/
def Blk.snoopAll (b : Blk) (t : Txn) (k : SnpKind) : List Nat → Blk × List SnoopOut
  | [] => (b, [])
  | a :: rest =>
    let id := b.coh.nextSnp % 65536
    let b1 := { b with coh.nextSnp := (b.coh.nextSnp + 1) % 65536 }.sendSnoop t.line a id t.part k
    let r := b1.snoopAll t k rest
    (r.1, ⟨a, id, k, b.tb, false⟩ :: r.2)

/-- The size in bytes of a size code; none for 3 (R241). -/
def atmSize : Nat → Option Nat
  | 0 => some 4 | 1 => some 8 | 2 => some 16 | _ => none

/-- The type of the message that asked for a line operation, and the LEN of its payload (R240, R241); of the lines of a bulk message, that of the
bulk message, with how many lines it has. -/
def LineOp.form (op : LineOp) (bulk : Option Nat) : Nat × Nat :=
  match op with
  | .rds => (0xC0, 0)
  | .rdx => (0xC1, 0)
  | .rdonce => if bulk.isSome then (0xC5, 0) else (0xC2, 0)
  | .wrline _ _ _ | .mirrorWr _ _ _ => match bulk with
    | some n => (0xC6, 128 * min n 2)
    | none => (0xC3, 144)
  | .near a | .far a => (0xC4, (atmSize a.size).getD 0 * (if a.op = 9 then 2 else 1))
  | .wrback => (0x04, 128)
  | _ => (0, 0)

/-- Header bytes 0 to 15 of the request that a transaction serves, as far as it keeps it; 0 for one of the device's own. -/
def Blk.txnHead (b : Blk) (t : Txn) : Bytes :=
  let f := t.op.form (t.job.map (fun j => ((mget b.coh.jobs j).map (fun x => x.left.length + x.got.length)).getD 0))
  match t.who with
  | .fabric src => toLe 16 (headLow f.1 b.str.run.self src.toNat t.msgId 0 f.2 t.traceId (f.1 != 0xC6) false false)
  | _ => zeros 16

/-- What a transaction does, with its request named to the queues of the Husk channels that serve it (R437). -/
def Blk.serve (b : Blk) (t : Txn) (f : Blk → Blk) : Blk :=
  let y := f { b with coh.serving := b.txnHead t }
  { y with coh.serving := [] }

/-- The EID of a fabric requester. -/
def Who.eid : Who → Option Nat
  | .fabric s => some s.toNat
  | _ => none

/-- The snoops that a transaction needs (R114): their kind and the agents. -/
def Blk.snoopsFor (b : Blk) (t : Txn) : SnpKind × List Nat :=
  let hs := b.liveHolders t.line
  let owner := b.ownerOf t.line
  let a := t.who.eid
  match t.op with
  | .rds => (.s, match owner with | some o => if some o = a then [] else hs | none => [])
  | .rdx | .far _ => (.i, hs.filter (fun h => some h != a))
  | .rdonce => (.cur, if owner.isSome then hs else [])
  | .wrline _ _ _ | .mirrorWr _ _ _ | .near _ | .recall | .sweep => (.i, hs)
  | .wrback => (.i, [])
  | .recallOf e => (.i, hs.filter (· == e))

/-- A transaction put into its tracker entry. -/
def Blk.putTxn (b : Blk) (t : Txn) : Blk :=
  { b with coh.txns := b.coh.txns.filter (fun x => x.id != t.id) ++ [t] }

/-- A transaction's tracker entry freed. -/
def Blk.endTxn (b : Blk) (t : Txn) : Blk := { b with coh.txns := b.coh.txns.filter (fun x => x.id != t.id) }

/-- The ops that need a directory entry for the requester. -/
def LineOp.needsEntry : LineOp → Bool
  | .rds | .rdx | .far _ => true
  | _ => false

/-- May an entry be a victim for a request of a partition (R109). -/
def Blk.eligible (b : Blk) (part : Nat) (e : Nat × DirEnt) : Bool :=
  !b.busy e.1 && (e.2.part == part || (!(b.str.run.bound e.2.part).isolate && !(b.str.run.bound part).isolate))

/-- The least recently used eligible entry of a set (R109). -/
def Blk.victim (b : Blk) (part : Nat) (s : Nat × Nat) : Option Nat :=
  (((b.setEntries s).filter (b.eligible part)).foldl (fun (best : Option (Nat × Nat)) e => match best with
    | none => some (e.1, e.2.stamp)
    | some v => if e.2.stamp < v.2 then some (e.1, e.2.stamp) else some v) none).map (·.1)

/-! ## Atomics (R118 to R123) -/

/-- Are an operation and a size code in the table of R118. -/
def atmOk (op size : Nat) : Bool :=
  match atmSize size with
  | none => false
  | some n => op ≤ 9 || ((op == 0xA || op == 0xB) && n == 4)

/-- The new value of an atomic (R118, R119). -/
def atmNew (op n old x cmp : Nat) : Nat :=
  let m := 2 ^ (8 * n)
  let s := fun (v : Nat) => sext (8 * n) v
  match op with
  | 0x0 => (old + x) % m
  | 0x1 => if s old ≤ s x then old else x
  | 0x2 => if s old ≤ s x then x else old
  | 0x3 => min old x
  | 0x4 => max old x
  | 0x5 => old &&& x
  | 0x6 => old ||| x
  | 0x7 => old ^^^ x
  | 0x8 => x
  | 0x9 => if old = cmp then x else old
  | 0xA => (f32Add (BitVec.ofNat 32 old) (BitVec.ofNat 32 x)).toNat
  | 0xB => faddBf16 old x
  | _ => old

/-- The largest power of two that is not above a number that is not 0. -/
def pow2Below (n : Nat) : Nat := 2 ^ Nat.log2 n

/-- The counter of the contention predictor that serves a line of a partition (R121). -/
def Struct.predIx (s : Struct) (part d : Nat) : Nat :=
  let iso := (s.validParts.filter (fun p => (s.bound p).isolate))
  let g := iso.length + 1
  let w := pow2Below (16384 / g)
  let k := if (s.bound part).isolate then ((iso.findIdx? (· == part)).getD 0) + 1 else 0
  k * w + (d ^^^ (d >>> 14) ^^^ (d >>> 28)) % w

/-- The recorded window of R123: 10 ms. -/
def ratWindow : Nat := 10000000

/-- Is an entry of a recent-atomics table in use at a time: reserved, or recorded no more than 10 ms before. -/
def RatEnt.live (r : RatEnt) (now : Nat) : Bool := r.reserved || decide (now ≤ r.at_ + ratWindow)

/-- The entries in use of a quadrant's recent-atomics table. -/
def Blk.ratLive (b : Blk) (q : Nat) : List RatEnt := b.coh.rat.filter (fun r => r.home == q && r.live b.tb)

/-! ## Answers -/

/-- A response to a fabric request, with LOAD (R102, R241). -/
def Blk.respond (b : Blk) (q ty src msgId traceId addr status : Nat) (far replay : Bool) (payload : Bytes) (poison : Bool)
    (cls part : Nat) : Nat × Blk :=
  let v := b.loadOf q src cls
  let b1 := b.noteLoad src v
  b1.send q { ty := ty, dst := src, msgId := 0, traceId := traceId, status := status, load := v,
              arg := argResp addr msgId far replay, payload := payload, poisons := if payload.isEmpty then [] else [poison],
              part := part }

/-- A refusal of a fabric pool request: a Cmp with the status and no data (R243). -/
def Blk.refuse (b : Blk) (q src msgId traceId addr status cls : Nat) : Blk :=
  ((b.countRefusal q status (b.hostPart src)).respond q 0x40 src msgId traceId addr status false false [] false cls (b.hostPart src)).2

/-- A line operation of an internal requester ended: the aperture completes a read at once; a write ends silently unless it is
refused; a prefetch that has been discarded, a move that an FLR has ended and a NOTIFY of an aborted Sheaf take nothing; and for any other requester what a read, or a refused write, ended with
is kept until it is taken. -/
def Blk.land (b : Blk) (w : Who) (write : Bool) (l status : Nat) (bs : Bytes) (poison : Bool) : Blk :=
  let gone := match w with
    | .pre slot task => !b.work.tillers.any (fun t => t.2.pre.any (fun p => p.slot == slot && p.task == task))
    | .mover n => !b.hub.moves.any (fun m => m.f == n / 8 % 64 && m.seq == n / 33554432)
    | .notify slot task order _ => !((mget b.work.sheafs slot).bind (fun s => s.tasks[task]?)).any
        (fun t => t.order == order && t.state == .running none)
    | _ => false
  if gone || (write && status = 0) then b
  else match w with
  | .aperture tag => if write then b.aptRefuse true l status else b.aptLand tag l status bs poison
  | w => { b with coh.landed := b.coh.landed.filter (fun x => !(x.who == w && x.write == write && x.line == l)) ++
      [⟨w, write, l, status, bs, poison⟩] }

/-- A bulk message answered when its last line has ended: a DataBulk of its lines, or a Cmp (R242); one refused CHANNEL_LOST or PAIR_FENCED
counts as a refusal (R103), and one of which every line was refused is no write that MOD_COUNT counts (R456). -/
def Blk.endJob (b : Blk) (id : Nat) (j : Job) : Blk :=
  let l := lineOf j.addr
  let q := homeOf l
  let b2 := if j.status = 0x91 || j.status = 0x93 then b.countRefusal q j.status (b.partOf l) else b
  let b1 := if j.counted && j.bad = j.got.length then b2.unbump l else b2
  let b0 := { b1 with coh.jobs := mdel b1.coh.jobs id }
  match j.who.eid with
  | none => b0
  | some src =>
    if j.write || j.status ≠ 0 then
      (b0.respond q 0x40 src j.msgId j.traceId j.addr j.status false false [] false 1 (b.hostPart src)).2
    else
      let v := b.loadOf q src 1
      let b1 := b0.noteLoad src v
      (b1.send q { ty := 0x06, dst := src, msgId := 0, traceId := j.traceId, load := v,
                   arg := argResp j.addr j.msgId false false ||| argAt (j.got.length - 1) 64,
                   payload := (j.got.map (fun x => x.2.1)).flatten, poisons := j.got.map (fun x => x.2.2),
                   part := b.hostPart src }).2

/-- A line of a bulk message ended. -/
def Blk.jobLine (b : Blk) (id l status : Nat) (bs : Bytes) (poison : Bool) : Blk :=
  match mget b.coh.jobs id with
  | none => b
  | some j =>
    let j1 := { j with left := j.left.filter (· != l), got := mput j.got l (bs, poison),
                       status := if j.status = 0 then status else j.status
                       bad := j.bad + b2n (status = 0x91 || status = 0x93) }
    if j1.left.isEmpty then { b with coh.jobs := mput b.coh.jobs id j1 }.endJob id j1
    else { b with coh.jobs := mput b.coh.jobs id j1 }

/-- The answer of a transaction that grants nothing: to its bulk message, to the fabric requester, or to the internal one. -/
def Blk.answerTxn (b : Blk) (t : Txn) (ty status : Nat) (bs : Bytes) (poison replay : Bool) : Blk :=
  match t.job with
  | some id => b.jobLine id t.line status bs poison
  | none => match t.who with
    | .fabric src =>
      let addr := match t.op with | .near a => a.addr | _ => t.line * 128
      (b.respond (homeOf t.line) ty src.toNat t.msgId t.traceId addr status false replay bs poison 0 t.part).2
    | .dev => b
    | w => b.land w (match t.op with | .wrline _ _ _ => true | _ => false) t.line status bs poison

/-! ## Mirrored writes (R353 to R355) -/

/-- A transaction that has written its line: it waits for the peer's Cmp where the line is mirrored, 20 ms at most (R255, R353);
old is what its answer carries. The flag tells whether it waits. -/
def Blk.mirrorWait (b : Blk) (t : Txn) (old : Bytes) : Bool × Blk :=
  if b.mirrorsFor t.twin t.line then
    let x := b.mirrorSend t.line
    (true, x.2.putTxn { t with phase := .mirror x.1 (b.tb + 20000000) old })
  else (false, b)

/-! ## Operations that do not execute (R342, R360, R456) -/

/-- The reservation of a recording atomic freed where the atomic does not execute, unless a retry of it still waits (R122, R123). -/
def Blk.freeRat (b : Blk) (t : Txn) (a : AtmOp) : Blk :=
  if b.coh.queue.any (fun e => e.txn.who == t.who && e.txn.op == .near a) then b
  else { b with coh.rat := b.coh.rat.filter (fun r => !(r.home == homeOf t.line && r.reserved && some r.eid == t.who.eid && r.a == a)) }

/-- A transaction that is no operation that MOD_COUNT counts (R456). -/
def Blk.uncount (b : Blk) (t : Txn) : Blk := if t.counted then b.unbump t.line else b

/-- A transaction refused as it executes: its refusal is counted, that of a bulk message with the message, and nothing is written (R103,
R342). -/
def Blk.refuseTxn (b : Blk) (t : Txn) (status : Nat) : Blk :=
  let b1 := match t.op with
    | .near a => b.freeRat t a
    | _ => b
  let b2 := b1.uncount t
  ((if t.job.isSome then b2 else b2.countRefusal (homeOf t.line) status t.part).answerTxn t 0x40 status [] false false).endTxn t

/-- Is a transaction a request to a mirrored extent that a fenced controller refuses (R360). -/
def Blk.fencedTxn (b : Blk) (t : Txn) : Bool :=
  b.pair.fenced && t.twin && match t.op with
    | .rds | .rdx | .rdonce | .wrline _ _ _ | .near _ | .far _ => true
    | _ => false

/-! ## What a transaction does once its snoops are answered (R114) -/

/-- A grant sent: DataS, DataE or DataI with the line; a DataS or DataE waits for CmpAck (R113, R114), but not for that of an agent whose
suspension or expiry the home agent has taken (R126). -/
def Blk.sendGrant (b : Blk) (t : Txn) (ty : Nat) (far : Bool) (bs : Bytes) (poison : Bool) : Blk :=
  match t.who with
  | .fabric src =>
    let x := b.respond (homeOf t.line) ty src.toNat t.msgId t.traceId (t.line * 128) 0 far false bs poison 0 t.part
    if ty = 0x02 || b.deadAt (homeOf t.line) src.toNat then x.2.endTxn t
    else x.2.putTxn { t with phase := .ack x.1 b.tb }
  | _ => b.endTxn t

/-- The grant of an RdS, an RdX or a far atomic, with the directory's new state (R114). A far atomic to a line without Husk storage is refused
as it executes (R342). -/
def Blk.grantTxn (b : Blk) (t : Txn) : Blk :=
  match t.who with
  | .fabric s =>
    let src := s.toNat
    let v := b.fetch t.line
    let b1 := v.1
    match t.op with
    | .rds =>
      let own := b.ownerOf t.line
      if (mget b.coh.dir t.line).isNone && t.canWrite && !t.stay || own = some src then
        let b2 := b1.grantX t.line t.part src
        (if t.counted then b2 else b2.bumpMod t.line 1).sendGrant t 0x01 false v.2.1 v.2.2
      else (b1.addSharer t.line t.part src).sendGrant t 0x00 false v.2.1 v.2.2
    | .far _ =>
      if !b.huskAlive t.line then b.refuseTxn t 0x91
      else ((b1.grantX t.line t.part src).incr (Reg.haAtomicFarCnt (homeOf t.line))).sendGrant t 0x01 true v.2.1 v.2.2
    | _ => (b1.grantX t.line t.part src).sendGrant t 0x01 false v.2.1 v.2.2
  | _ => b.endTxn t

/-- Whom a POISON_CONSUMED record names: the EID of a fabric host, or the TAG of a NOTIFY (R344). -/
def Who.consumer : Who → Nat
  | .fabric s => s.toNat
  | .notify _ _ _ tag => tag
  | _ => 0

/-- A near atomic executed (R120, R123, R342): refused where the line has no Husk storage or is poisoned, else recorded, written and
answered with the old value. A retry that was accepted within the window of the atomic it repeats is answered REPLAY. -/
def Blk.execNear (b : Blk) (t : Txn) (a : AtmOp) : Blk :=
  let q := homeOf t.line
  let v := b.fetch t.line
  match b.coh.rat.find? (fun r => r.home == q && some r.eid == t.who.eid && r.a == a && a.record && !r.reserved &&
      decide (t.acc ≤ r.at_ + ratWindow)) with
  | some r => (((b.uncount t).incr (Reg.haRatHitCnt q)).answerTxn t 0x05 0 r.old false true).endTxn t
  | none =>
  if !b.huskAlive t.line then b.refuseTxn t 0x91
  else if v.2.2 then
    let id := (t.who.eid).getD 0
    let b1 := ((v.1.aonAdd 206 1).log 0x0C (28 + q) t.part (t.line * 128) t.who.consumer).trace
      { source := 6, event := 1, part := t.part, unit := 28 + q, eid := id, a := t.line * 128, detail := toLe 1 0x90 }
    b1.refuseTxn t 0x90
  else
    let n := (atmSize a.size).getD 4
    let o := a.addr % 128
    let old := le v.2.1 o n
    let new := atmNew a.op n old a.operand a.compare
    let oldB := toLe n old
    let b1 := (v.1.writeLine t.line (patch v.2.1 o (toLe n new)) false t.wb).incr (Reg.haAtomicNearCnt q)
    let b2 : Blk := { b1 with coh.rat := b1.coh.rat.map (fun (r : RatEnt) =>
      if r.home == q && r.reserved && some r.eid == t.who.eid && r.a == a
      then { r with reserved := false, old := oldB, at_ := b.tb } else r) }
    let m := b2.mirrorWait t oldB
    if m.1 then m.2 else (m.2.answerTxn t 0x05 0 oldB false false).endTxn t

/-- A standby's peer has written the line of the checkpoint's header (R356, R364). -/
def Blk.noteHeader (b : Blk) (l : Nat) : Blk :=
  if (b.extEnt b.str.run.pair.ckptExt).any (fun e => lineOf e.addr == l) then { b with pair.heard := true } else b

/-- The body of a transaction once every snoop is answered and, where needed, memory has been updated and mirrored. -/
def Blk.finishTxn (b0 : Blk) (t : Txn) : Blk :=
  b0.serve t (fun b =>
  let clear : Blk → Blk := fun b => { b with coh.dir := mdel b.coh.dir t.line }
  if b.fencedTxn t then b.refuseTxn t 0x93
  else match t.op with
  | .rds | .rdx | .far _ => b.grantTxn t
  | .wrback => (b.answerTxn t 0x40 0 [] false false).endTxn t
  | .rdonce =>
    match t.data with
    | some (d, p) => (b.answerTxn t 0x02 0 d p false).endTxn t
    | none => let v := b.fetch t.line; (v.1.answerTxn t 0x02 0 v.2.1 v.2.2 false).endTxn t
  | .wrline bs mask p =>
    let b1 := clear b
    if !b1.huskAlive t.line then b1.refuseTxn t 0x91
    else
      let b2 := if mask = BitVec.allOnes 128 then b1 else (b1.fetch t.line).1
      let m := (b2.writeMasked t.line bs mask p t.wb).mirrorWait t []
      if m.1 then m.2 else (m.2.answerTxn t 0x40 0 [] false false).endTxn t
  | .mirrorWr bs mask p =>
    let b1 := clear b
    if !b1.huskAlive t.line then b1.refuseTxn t 0x91
    else
      let b2 := if mask = BitVec.allOnes 128 then b1 else (b1.fetch t.line).1
      (((b2.writeMasked t.line bs mask p t.wb).noteHeader t.line).answerTxn t 0x40 0 [] false false).endTxn t
  | .near a => (clear b).execNear t a
  | .recall | .sweep => (clear b).endTxn t
  | .recallOf e => (b.dropHolder t.line e).endTxn t)

/-- A transaction whose snoops are answered: M data of the owner updates memory before anything else, and the mirror where the
extent is mirrored (R114); a RdOnce leaves memory as it is. -/
def Blk.advance (b0 : Blk) (t : Txn) : Blk :=
  b0.serve t (fun b => match t.op, t.data with
  | .rdonce, _ => b.finishTxn t
  | .wrline _ _ _, some (d, p) => (b.writeLine t.line d p t.wb).finishTxn t
  | .near _, some (d, p) => (b.writeLine t.line d p t.wb).finishTxn t
  | .mirrorWr _ _ _, some (d, p) => (b.writeLine t.line d p t.wb).finishTxn t
  | _, some (d, p) =>
    let b1 := b.writeLine t.line d p t.wb
    if b1.mirrorsFor t.twin t.line then
      let x := b1.mirrorSend t.line
      x.2.putTxn { t with data := none, phase := .mirror x.1 (b.tb + 20000000) [] }
    else b1.finishTxn { t with data := none }
  | _, none => b.finishTxn t)

/-- The snoops of a victim's recall, or its entry freed where nobody is to be snooped. -/
def Blk.evictSnoop (b : Blk) (l : Nat) (e : DirEnt) : Option Nat × Blk :=
  let w : Txn := { id := b.coh.nextTxn, line := l, op := .recall, who := .dev, msgId := 0, traceId := 0, canWrite := false,
                   part := e.part, job := none, snoops := [], data := none, stay := false, phase := .snoop, at_ := b.tb, acc := b.tb }
  let s := b.snoopAll w .i (b.liveHolders l)
  if s.2.isEmpty then (none, { s.1 with coh.dir := mdel s.1.coh.dir l })
  else (some w.id, { s.1 with coh.nextTxn := b.coh.nextTxn + 1 }.putTxn { w with snoops := s.2 })

/-- The recall of a victim's line (R109): with SnpI to every holder, as for a write; the entry stays until it ends. A dead owner's line is
poisoned instead (R126). The transaction that must end before the entry is free; none where it is free at once. -/
def Blk.evict (b : Blk) (l : Nat) : Option Nat × Blk :=
  let q := homeOf l
  let e := (mget b.coh.dir l).getD ⟨.s, 0, false, [], 0, 0⟩
  let b1 := (b.incr (Reg.haDirEvictCnt q)).event (28 + q) 4 (some e.part)
  match b1.ownerOf l with
  | some o => if b1.deadAt q o then (none, b1.poisonDead l o) else b1.evictSnoop l e
  | none => b1.evictSnoop l e

/-- Will a RdS that starts now be answered DataE: no agent holds the line and its sender may write, or its sender owns the line (R114). -/
def Blk.willOwn (b : Blk) (t : Txn) : Bool :=
  ((mget b.coh.dir t.line).isNone && t.canWrite) || ((b.ownerOf t.line).isSome && b.ownerOf t.line == t.who.eid)

/-- A RdS that was counted as one that may be answered DataE, and will not be, uncounted (R456). -/
def Blk.settleCount (b : Blk) (t : Txn) : Txn × Blk :=
  if t.op == .rds && t.counted && !b.willOwn t then ({ t with counted := false }, b.unbump t.line) else (t, b)

/-- A transaction whose directory entry, where it needs one, is there or can be made: it takes a tracker entry, and the snoops of R114 are
sent. -/
def Blk.runTxn (b0 : Blk) (t0 : Txn) : Blk :=
  let y := b0.settleCount t0
  let t := y.1; let b := y.2
  let k := b.snoopsFor t
  let s := b.snoopAll t k.1 k.2
  let t1 := { t with snoops := s.2, stay := (b.ownerOf t.line).isSome && !s.2.isEmpty }
  if s.2.isEmpty then (s.1.putTxn t1).advance t1 else s.1.putTxn t1

/-- A request served without an entry (R109): DataI in place of a grant, and a far atomic executes near. -/
def Txn.unallocated (t : Txn) : Txn := { t with op := match t.op with | .far a => .near a | _ => .rdonce, counted := t.counted && t.op != .rds }

/-- A RdS served without an entry is answered DataI, and MOD_COUNT does not count it (R109, R456). -/
def Blk.uncountRds (b : Blk) (t : Txn) : Blk := if t.op == .rds then b.uncount t else b

/-- A RdS that has to wait and may be answered DataE, counted at its acceptance (R456). DESIGN CHOICE (log entry 86): whether it will be is not
known yet; it is uncounted once it is known that it will not. -/
def Blk.countRds (b : Blk) (t : Txn) : Txn × Blk :=
  if t.op == .rds && t.canWrite && !t.counted then ({ t with counted := true }, b.bumpMod t.line 1) else (t, b)

/-- The lines of a set whose running transactions need an entry that is not there yet (R109). -/
def Blk.claims (b : Blk) (s : Nat × Nat) : Nat :=
  (b.coh.txns.filter (fun t => t.op.needsEntry && dirSet t.line == s && (mget b.coh.dir t.line).isNone)).length

/-- A transaction started: a dead owner's line is poisoned first (R126), and a set without a free entry gives up a victim, for whose recall
the request waits at the head of the queue, or the request is served without an entry (R109). again: it has waited for a recall. -/
def Blk.startTxn (b : Blk) (t0 : Txn) (again : Bool := false) : Blk :=
  let t : Txn := { t0 with at_ := b.tb }
  let q := homeOf t.line
  let b0 := if again then b else b.dirLookup t.line
  let b1 := match b0.ownerOf t.line with
    | some o => if b0.deadAt q o then b0.poisonDead t.line o else b0.touch t.line
    | none => b0.touch t.line
  if t.op.needsEntry && (mget b1.coh.dir t.line).isNone && 8 ≤ (b1.setEntries (dirSet t.line)).length + b1.claims (dirSet t.line) then
    match b1.victim t.part (dirSet t.line) with
    | none => ((b1.incr (Reg.haNoallocCnt q)).uncountRds t).runTxn t.unallocated
    | some l =>
      let x := b1.evict l
      match x.1 with
      | none => x.2.runTxn t
      | some w =>
        let y := x.2.countRds t
        { y.2 with coh.queue := { home := q, txn := y.1, at_ := t.acc, victim := some w } :: y.2.coh.queue }
  else b1.runTxn t

/-- A transaction that has been accepted: it starts or waits, and is completed under the structure that its home agent works under now
(R68). -/
def Blk.beginTxn (b : Blk) (t : Txn) : Blk :=
  let t1 := { t with id := b.coh.nextTxn, acc := b.tb, twin := b.twinned t.line, wb := b.lineWb t.line }
  let b1 := { b with coh.nextTxn := b.coh.nextTxn + 1 }
  if b1.mustWait t.line then
    let y := b1.countRds t1
    { y.2 with coh.queue := y.2.coh.queue ++ [{ home := homeOf t.line, txn := y.1, at_ := b.tb }] }
  else b1.startTxn t1

/-! ## Reads and writes of internal requesters (R37, R117) -/

/-- What a read of a line by an internal requester gives at once. -/
inductive LineRead | ok (bytes : Bytes) (poison : Bool) | refused (status : Nat) | wait
  deriving DecidableEq, Repr

/-- What an internal requester's read of a line ended with, taken. -/
def Blk.takeLanded (b : Blk) (w : Who) (l : Nat) : Option Landed × Blk :=
  (b.coh.landed.find? (fun x => x.who == w && !x.write && x.line == l),
   { b with coh.landed := b.coh.landed.filter (fun x => !(x.who == w && !x.write && x.line == l)) })

/-- Everything that is kept for an internal requester dropped. -/
def Blk.dropLanded (b : Blk) (w : Who) : Blk := { b with coh.landed := b.coh.landed.filter (fun x => x.who != w) }

/-- A Tiller. -/
def Blk.til (b : Blk) (k : Nat) : Tiller := tget (fun _ => {}) b.work.tillers k

/-- A Tiller changed. -/
def Blk.modTil (b : Blk) (k : Nat) (f : Tiller → Tiller) : Blk := { b with work.tillers := tmod (fun _ => {}) b.work.tillers k f }

/-- The prefetched data of some tasks discarded (R212). -/
def Blk.dropPre (b : Blk) (p : Prefetch → Bool) : Blk :=
  let gone := (b.work.tillers.map (fun t => t.2.pre.filter p)).flatten
  let b1 := (List.range 24).foldl (fun b k => b.modTil k (fun t => { t with pre := t.pre.filter (fun x => !p x) })) b
  gone.foldl (fun b x =>
    let part := ((mget b.work.sheafs x.slot).map (·.part)).getD 0
    ((b.dropLanded (.pre x.slot x.task)).incr (Reg.thrDiscardCnt (x.slot / 64))).event (24 + x.slot / 64) 3 (some part)) b1

/-- A write of an internal requester that was refused after its acceptance. -/
def Blk.badWrite (b : Blk) (w : Who) : Option Landed := b.coh.landed.find? (fun x => x.who == w && x.write)

/-- A read of a line by an internal requester, handled as RdOnce (R117): checked, and served at once unless a snoop must be
answered first or the line is busy; then the requester waits. -/
def Blk.readInt (b : Blk) (r : Requester) (l : Nat) : LineRead × Blk :=
  let x := b.takeLanded r.who l
  match x.1 with
  | some d => if d.status = 0 then (.ok d.bytes d.poison, x.2) else (.refused d.status, x.2)
  | none =>
    if b.coh.txns.any (fun t => t.who == r.who && t.line == l) || b.coh.queue.any (fun e => e.txn.who == r.who && e.txn.line == l) || b.closing
    then (.wait, b)
    else
      let c := b.check r.act .read l
      if c.status ≠ 0 then (.refused c.status, b.countRefusal (homeOf l) c.status c.part)
      else
        let b1 := (b.countAccept (homeOf l) c.part).beginTxn (newTxn l .rdonce r.who 0 0 c none)
        let y := b1.takeLanded r.who l
        match y.1 with
        | some d => if d.status = 0 then (.ok d.bytes d.poison, y.2) else (.refused d.status, y.2)
        | none => (.wait, b1)

/-- A write of a line by an internal requester, handled as WrLine (R117): its own checks and acceptance, counted in MOD_COUNT.
Status 0 tells that it was accepted; it has completed when no transaction of the requester for the line is left, and a status
that it ended with then stands in the landed list. -/
def Blk.writeInt (b : Blk) (r : Requester) (l : Nat) (bs : Bytes) (mask : BitVec 128) (poison : Bool) : Nat × Blk :=
  let c := b.check r.act .write l
  if c.status ≠ 0 then (c.status, b.countRefusal (homeOf l) c.status c.part)
  else (0, ((b.countAccept (homeOf l) c.part).bumpMod l 1).beginTxn (newTxn l (.wrline bs mask poison) r.who 0 0 c none).isCounted)

/-- A line that the hub reads for itself, a RdOnce of partition 0 that the checks of R90 may refuse (R38, R91, R117): its bytes, none where it
is refused or poisoned. The hub reads a standby's own checkpoint, so that the pair statuses, which turn requesters away, are not
among the checks (DEDUCED, log entry 89). -/
def Blk.hubFetch (b : Blk) (l : Nat) : Option Bytes × Blk :=
  let c := b.checkHome .dev .read l
  if c.status ≠ 0 then (none, b.countRefusal (homeOf l) c.status 0)
  else
    let v := (b.countAccept (homeOf l) c.part).fetch l
    (if v.2.2 then none else some v.2.1, v.1)

/-- Some lines that the hub reads for itself: those that it gets. -/
def Blk.hubLines (b : Blk) : List Nat → List (Nat × Bytes) × Blk
  | [] => ([], b)
  | l :: t =>
    let x := b.hubFetch l
    let y := x.2.hubLines t
    (match x.1 with
      | some bs => (l, bs) :: y.1
      | none => y.1, y.2)

/-- Has an internal requester an operation under way. -/
def Blk.pendingInt (b : Blk) (w : Who) : Bool :=
  b.coh.txns.any (fun t => t.who == w) || b.coh.queue.any (fun e => e.txn.who == w)

/-- A write of the controller's own into an extent of partition 0 (R91, R356), line by line, each a WrLine that is mirrored and waits for the
peer's Cmp as any other does (R255, R353). -/
def Blk.devWrite (b : Blk) (a : Nat) (bs : Bytes) : Blk :=
  (lineParts a bs).foldl (fun b p => (b.writeInt ⟨.dev, .dev⟩ p.1 p.2.1 p.2.2 false).2) b

end Sys2Proof.Machine
end

