-- ==== Sys2Proof/Machine/Coherence.lean ====
section
/-! DEFINITION. The fabric requests at the home agents and their answers, snoop responses, timeouts, suspension and the directory
walk (R110, R113 to R128, R242, R243, R353 to R355). -/

namespace Sys2Proof.Machine

/-! ## Before the checks (R235, R243, R289, R291) -/

/-- A complete request of a fabric source at a quadrant, before any check: nothing where the device is lost or holds no structure
(R35, R63), where no answer could be routed (R235), or where the policer drops it; otherwise it is charged to the host's shaper.
sure: a Lease or Cancel. -/
def Blk.reqIn (b : Blk) (q src ty : Nat) (lens : List Nat) (sure : Bool) : Bool × Blk :=
  let cls := tcOf ty
  if b.dead || !b.str.loaded || b.closing then (false, b)
  else if !mhas (b.view (.router (Fin.ofNat 4 q))).eids src then (false, b.noRoute q)
  else
    let j := if (cls == 1 || cls == 2) && mhas b.str.run.hosts src then b.police (b.hostPart src) src cls lens sure else (false, b)
    let b1 := j.2.chargeShaper src cls lens
    if j.1 then (false, b1.notePoliced q src cls (b.hostPart src) lens.length) else (true, b1)

/-- A complete response of an agent, which its shaper is charged for (R289). -/
def Blk.rspIn (b : Blk) (src len : Nat) : Blk := b.chargeShaper src 0 [len]

/-- An accepted request: counted, traced. -/
def Blk.accepted (b : Blk) (l src ty msgId traceId addr part : Nat) : Blk :=
  (b.countAccept (homeOf l) part).traceRx (homeOf l) src ty msgId traceId addr

/-- A malformed DATA or RSP message discarded and counted (R243). -/
def Blk.malformed (b : Blk) (q : Nat) : Blk := (b.incr (Reg.nrmDropMalformedCnt q)).flag (Reg.nrmRtErr q) 4

/-- Is a source the pair peer, whose pool writes are mirror writes (R353). -/
def Blk.isPeer (b : Blk) (src : Nat) : Bool := b.str.run.pair.role != 0 && b.str.run.pair.peer == src

/-- The status of a malformed request: PWR_HOLDING from the entry into HOLD on (R243, R399). -/
def Blk.badStatus (b : Blk) : Nat := if b.pwr.holding then 0xB2 else 0x60

/-! ## Requests -/

/-- RdS, RdX and RdOnce (R114): checked and admitted, or refused by a Cmp. -/
def reqRead (b : Blk) (ty : Nat) (op : LineOp) (k : AKind) (r : Req) (addr : Nat) : Blk :=
  let l := lineOf addr; let q := homeOf l; let src := r.src.toNat
  let x := b.reqIn q src ty [0] false
  if !x.1 then x.2
  else if r.reservedSet || addr % 128 ≠ 0 then x.2.refuse q src r.msgId.toNat r.traceId.toNat addr x.2.badStatus 0
  else
    let c := x.2.check (.host src) k l
    if c.status ≠ 0 then x.2.refuse q src r.msgId.toNat r.traceId.toNat addr c.status 0
    else
      let b1 := x.2.accepted l src ty r.msgId.toNat r.traceId.toNat addr c.part
      let t := newTxn l op (.fabric r.src) r.msgId.toNat r.traceId.toNat c none
      if k = .rdx then (b1.bumpMod l 1).beginTxn t.isCounted else b1.beginTxn t

/-- A mirror write of the peer (R353): only that the address lies in a mirrored extent is checked; every line is written. ty and lens: its type
and the LENs of its packets, for the policer and the shaper (R289, R291). -/
def reqMirror (b : Blk) (ty : Nat) (lens : List Nat) (r : Req) (addr : Nat) (mask : BitVec 128) (lines : List LineIn) : Blk :=
  let l := lineOf addr; let q := homeOf l; let src := r.src.toNat
  let x := b.reqIn q src ty lens false
  if !x.1 then x.2
  else
    let b := x.2
    let bad := r.reservedSet || addr % 128 ≠ 0 || 16384 < lineIn l + lines.length
    let ok := match (b.view (.home (Fin.ofNat 4 q))).extAt (granOf l) with
      | some (_, e) => e.mirror
      | none => false
    let answer := fun (b : Blk) (st : Nat) =>
      ((b.countRefusal q st (b.hostPart src)).respond q 0x40 src r.msgId.toNat r.traceId.toNat addr st false false [] false
        (if lines.length = 1 then 0 else 1) (b.hostPart src)).2
    if bad || b.pwr.holding then answer b b.badStatus
    else if !ok || lines.isEmpty then answer b 0x12
    else
      let c : Checked := ⟨0, true, b.partOf l, 0⟩
      let id := b.coh.nextJob
      let ls := (List.range lines.length).map (fun i => l + i)
      let b0 := b.accepted l src ty r.msgId.toNat r.traceId.toNat addr c.part
      let b1 : Blk := { b0 with
        coh.nextJob := id + 1
        coh.jobs := mput b0.coh.jobs id ⟨.fabric r.src, r.msgId.toNat, r.traceId.toNat, addr, true, ls, [], 0, 0, false⟩ }
      (ls.zip lines).foldl (fun b x => b.beginTxn (newTxn x.1 (.mirrorWr x.2.bytes (if lines.length = 1 then mask else BitVec.allOnes 128)
        x.2.poison) (.fabric r.src) r.msgId.toNat r.traceId.toNat c (some id))) b1

/-- WrLine (R114). -/
def reqWrLine (b : Blk) (r : Req) (addr : Nat) (bytes : Bytes) (mask : BitVec 128) (poison : Bool) : Blk :=
  let l := lineOf addr; let q := homeOf l; let src := r.src.toNat
  if b.isPeer src then reqMirror b 0xC3 [144] r addr mask [⟨bytes, poison⟩]
  else
    let x := b.reqIn q src 0xC3 [144] false
    if !x.1 then x.2
    else if r.reservedSet || addr % 128 ≠ 0 then x.2.refuse q src r.msgId.toNat r.traceId.toNat addr x.2.badStatus 0
    else
      let c := x.2.check (.host src) .write l
      if c.status ≠ 0 then x.2.refuse q src r.msgId.toNat r.traceId.toNat addr c.status 0
      else ((x.2.accepted l src 0xC3 r.msgId.toNat r.traceId.toNat addr c.part).bumpMod l 1).beginTxn
        (newTxn l (.wrline bytes mask poison) (.fabric r.src) r.msgId.toNat r.traceId.toNat c none).isCounted

/-- The predictor counter of a line read and updated at the acceptance of an atomic (R121). -/
def Blk.predict (b : Blk) (l part src : Nat) : Nat × Blk :=
  let q := homeOf l
  let k := q * 16384 + b.str.run.predIx part (dataIx l)
  let v := tget (fun _ => 0) b.coh.pred k
  let others := (b.liveHolders l).any (· != src)
  (v, { b with coh.pred := tset (fun _ => 0) b.coh.pred k (if others then min 3 (v + 1) else v - 1) })

/-- The checks of R122 and the gap rule for atomics, in order; 0 where an atomic passes. -/
def Blk.atmCheck (b : Blk) (q src : Nat) (a : AtmOp) (c : Checked) : Nat :=
  let seen := (b.ratLive q).find? (fun r => r.eid == src && r.a.atag == a.atag)
  if !atmOk a.op a.size then 0x32
  else if a.addr % (atmSize a.size).getD 1 ≠ 0 then 0x30
  else if 0xA ≤ a.op && (b.str.run.bound c.part).determine then 0x31
  else if a.record && (match seen with | some r => r.a != a | none => false) then 0x34
  else if a.record && seen.isNone && 4096 ≤ (b.ratLive q).length then 0x33
  else 0

/-- Atomic (R120 to R123): checked, answered from the recent-atomics table, or executed near or far. -/
def reqAtomic (b : Blk) (r : Req) (a : AtmOp) (lens : Nat) : Blk :=
  let l := lineOf a.addr; let q := homeOf l; let src := r.src.toNat
  let x := b.reqIn q src 0xC4 [lens] false
  let no := fun (b : Blk) (st : Nat) => b.refuse q src r.msgId.toNat r.traceId.toNat a.addr st 0
  if !x.1 then x.2
  else if r.reservedSet then no x.2 x.2.badStatus
  else
    let c := x.2.check (.host src) .atomic l
    if c.status = 0x19 && a.record then no x.2 0x92
    else if c.status ≠ 0 then no x.2 c.status
    else
      let st := x.2.atmCheck q src a c
      if st = 0x31 then (no x.2 st).flag (Reg.haCohErr q) 4
      else if st = 0x33 then ((no x.2 st).flag (Reg.haCohErr q) 5).incr (Reg.haRatFullCnt q)
      else if st ≠ 0 then no x.2 st
      else
        let b1 := x.2.accepted l src 0xC4 r.msgId.toNat r.traceId.toNat a.addr c.part
        let seen := if a.record then (b1.ratLive q).find? (fun e => e.eid == src && e.a == a) else none
        match seen with
        | some e =>
          let b1 := (b1.predict l c.part src).2
          if e.reserved then (b1.bumpMod l 1).beginTxn (newTxn l (.near a) (.fabric r.src) r.msgId.toNat r.traceId.toNat c none).isCounted
          else ((b1.incr (Reg.haRatHitCnt q)).respond q 0x05 src r.msgId.toNat r.traceId.toNat a.addr 0 false true e.old false 0 c.part).2
        | none =>
          let p := b1.predict l c.part src
          let reg := ((mget b1.coh.agents src).map (·.registered)).getD false
          let far := reg && c.canWrite && !a.record && a.op < 0xA && p.1 < 2
          let b2 := p.2.bumpMod l 1
          let b3 : Blk := if a.record then { b2 with coh.rat := b2.coh.rat ++ [⟨q, src, a, [], b.tb, true⟩] } else b2
          b3.beginTxn (newTxn l (if far then .far a else .near a) (.fabric r.src) r.msgId.toNat r.traceId.toNat c none).isCounted

/-- RdBulk (R242): L lines of one granule, checked at one instant and answered by one DataBulk. -/
def reqRdBulk (b : Blk) (r : Req) (addr n : Nat) : Blk :=
  let l := lineOf addr; let q := homeOf l; let src := r.src.toNat
  let x := b.reqIn q src 0xC5 [0] false
  if !x.1 then x.2
  else if r.reservedSet || addr % 128 ≠ 0 || 510 < n || 16384 < lineIn l + n then
    x.2.refuse q src r.msgId.toNat r.traceId.toNat addr x.2.badStatus 1
  else
    let c := x.2.check (.host src) .read l
    if c.status ≠ 0 then x.2.refuse q src r.msgId.toNat r.traceId.toNat addr c.status 1
    else
      let b1 := x.2.accepted l src 0xC5 r.msgId.toNat r.traceId.toNat addr c.part
      let id := b1.coh.nextJob
      let ls := (List.range n).map (fun i => l + i)
      let b2 : Blk := { b1 with
        coh.nextJob := id + 1
        coh.jobs := mput b1.coh.jobs id ⟨.fabric r.src, r.msgId.toNat, r.traceId.toNat, addr, false, ls, [], 0, 0, false⟩ }
      ls.foldl (fun b i => b.beginTxn (newTxn i .rdonce (.fabric r.src) r.msgId.toNat r.traceId.toNat c (some id))) b2

/-- The LENs of the packets of a bulk message of L lines (R239). -/
def bulkLens (n : Nat) : List Nat :=
  (List.range ((n + 1) / 2)).map (fun i => if 2 * i + 1 < n then 256 else 128)

/-- The type and the LENs of a peer's write of some lines: a WrLine of one, a WrBulk of more. -/
def mirrorKind (n : Nat) : Nat × List Nat := if n = 1 then (0xC3, [144]) else (0xC6, bulkLens n)

/-- WrBulk (R242): L whole lines of one granule, checked at one instant and answered by one Cmp. -/
def reqWrBulk (b : Blk) (r : Req) (addr n : Nat) (lens : List Nat) (lines : List LineIn) : Blk :=
  let l := lineOf addr; let q := homeOf l; let src := r.src.toNat
  if b.isPeer src then
    reqMirror b 0xC6 lens { r with reservedSet := r.reservedSet || 510 < n || lens != bulkLens n || lines.length != n } addr (BitVec.allOnes 128) lines
  else
    let x := b.reqIn q src 0xC6 lens false
    if !x.1 then x.2
    else if r.reservedSet || addr % 128 ≠ 0 || 510 < n || 16384 < lineIn l + n || lens != bulkLens n || lines.length != n then
      x.2.refuse q src r.msgId.toNat r.traceId.toNat addr x.2.badStatus 1
    else
      let c := x.2.check (.host src) .write l
      if c.status ≠ 0 then x.2.refuse q src r.msgId.toNat r.traceId.toNat addr c.status 1
      else
        let b1 := (x.2.accepted l src 0xC6 r.msgId.toNat r.traceId.toNat addr c.part).bumpMod l 1
        let id := b1.coh.nextJob
        let ls := (List.range n).map (fun i => l + i)
        let b2 : Blk := { b1 with
          coh.nextJob := id + 1
          coh.jobs := mput b1.coh.jobs id ⟨.fabric r.src, r.msgId.toNat, r.traceId.toNat, addr, true, ls, [], 0, 0, true⟩ }
        (ls.zip lines).foldl (fun b e => b.beginTxn (newTxn e.1 (.wrline e.2.bytes (BitVec.allOnes 128) e.2.poison) (.fabric r.src)
          r.msgId.toNat r.traceId.toNat c (some id))) b2

/-! ## Responses of agents (R114, R115, R125) -/

/-- Any response of an agent sets its timeout count at a home agent to 0 (R125). -/
def Blk.heard (b : Blk) (q eid : Nat) : Blk :=
  { b with coh.timeouts := tset (fun _ => 0) b.coh.timeouts (q * 65536 + eid) 0 }

/-- The transaction of a line that waits for a snoop response of an agent. -/
def Blk.snooped (b : Blk) (l eid snpId : Nat) : Option Txn :=
  b.coh.txns.find? (fun t => t.line == l && t.snoops.any (fun s => s.eid == eid && s.snpId == snpId))

/-- A snoop answered: it is taken off the transaction, which goes on when none is left. -/
def Blk.answered (b : Blk) (t : Txn) (eid : Nat) : Blk :=
  let t1 := { t with snoops := t.snoops.filter (fun s => s.eid != eid) }
  if t1.snoops.isEmpty then (b.putTxn t1).advance t1 else b.putTxn t1

/-- A directory set rewritten with free entries once every agent has answered its SnpSet (R110). DESIGN CHOICE (log entry 88): a transaction
that was running on a line of the set when it was lost goes on and may still grant the line; the rewrite then drops the entry of that
grant. -/
def Blk.setAnswered (b : Blk) (q eid snpId : Nat) : Blk :=
  match b.coh.setLost.find? (fun s => s.home == q && s.snpId == snpId && mhas s.left eid) with
  | none => b
  | some s =>
    let left := mdel s.left eid
    let rest := b.coh.setLost.filter (fun x => !(x.home == s.home && x.set == s.set))
    if left.isEmpty then
      let b1 : Blk := { b with
        coh.setLost := rest
        coh.dir := b.coh.dir.filter (fun e => dirSet e.1 != (s.home, s.set)) }
      (b1.flag (Reg.haCohErr q) 2).log 0x04 (28 + q) 0 s.set q
    else { b with coh.setLost := rest ++ [{ s with left := left }] }

/-- An agent of the sweep registered at its checkpoint index (R362). One that was suspended before the gap is so no longer, at any home
agent. DESIGN CHOICE (log entry 88): what its walks have still to read is read at once. -/
def Blk.sweptAgent (b : Blk) (eid : Nat) : Blk :=
  let left := (b.coh.walks.filter (fun w => w.eid == eid)).map (·.home)
  let b1 := left.foldl (fun b q => (b.heldLines q eid).foldl (fun b l => b.walkEntry eid l) b) b
  { b1 with
    coh.walks := b1.coh.walks.filter (fun w => w.eid != eid)
    coh.suspendPend := b1.coh.suspendPend.filter (fun s => s.2 != eid)
    coh.suspended := b1.coh.suspended.filter (fun s => s.2 != eid)
    coh.agents := mmod b1.coh.agents eid (fun a => { a with registered := true, suspended := false }) }

/-- A SnpSet of the gap answered (R362); when all four of an agent are answered, it is registered at its checkpoint index. -/
def Blk.sweepAnswered (b : Blk) (eid q : Nat) : Blk :=
  let e := if b.pair.sweep.contains (eid, q) then some (eid, q) else b.pair.sweep.find? (fun x => x.1 == eid)
  match e with
  | none => b
  | some e =>
    let left := without b.pair.sweep e
    let b1 : Blk := { b with pair.sweep := left }
    if left.any (fun x => x.1 == eid) then b1 else b1.sweptAgent eid

/-- Does an agent that answered a snoop keep the line in S: RspS or SnpData to a SnpS (R114, R115). -/
def Blk.stayShared (b : Blk) (l eid : Nat) : Blk :=
  match b.agentIx eid with
  | some i => { b with coh.dir := mmod b.coh.dir l (fun e =>
      if e.state = .x then { e with state := .s, ptrs := [i], coarse := false } else e) }
  | none => b

/-- The kinds of snoop response. -/
inductive SnpResp | i | s | cur | wbPend | data (bytes : Bytes) (poison : Bool)
  deriving DecidableEq, Repr

/-- LEN of a snoop response (R241). -/
def SnpResp.len : SnpResp → Nat
  | .data _ _ => 128
  | _ => 0

/-- The type of a snoop response (R240). -/
def SnpResp.ty : SnpResp → Nat
  | .data _ _ => 0x03
  | .i => 0x41
  | .s => 0x42
  | .cur => 0x43
  | .wbPend => 0x44

/-- A snoop response of an agent (R114, R115). A malformed one is discarded and counted (R243); one that answers no snoop that
waits is discarded (R125), and any other is accepted and traced (R434). DESIGN CHOICE (log entry 88): R241 gives no ADDR for the RspI that answers a SnpSet (R110); whatever its ADDR,
the set is found by SNPID at any home agent, and the timeout count of the agent is set to 0 at the home of ADDR. -/
def snoopResponse (b : Blk) (r : Req) (addr snpId : Nat) (k : SnpResp) : Blk :=
  let l := lineOf addr; let q := homeOf l; let eid := r.src.toNat
  if b.dead || !b.str.loaded then b
  else if r.reservedSet || addr % 128 ≠ 0 then (b.rspIn eid k.len).malformed q
  else
    let b1 := (b.rspIn eid k.len).heard q eid
    let rx := fun (b : Blk) => b.traceRx q eid k.ty r.msgId.toNat r.traceId.toNat addr
    match b1.snooped l eid snpId with
    | none => match k with
      | .i =>
        if snpId = 0xFFFF then (if b1.pair.sweep.any (fun x => x.1 == eid) then rx b1 else b1).sweepAnswered eid q
        else (List.range 4).foldl (fun b h => b.setAnswered h eid snpId)
          (if b1.coh.setLost.any (fun s => s.snpId == snpId && mhas s.left eid) then rx b1 else b1)
      | _ => b1
    | some t =>
      let b1 := rx b1
      let kind := ((t.snoops.find? (fun s => s.eid == eid)).map (·.kind)).getD .i
      match k with
      | .data d p =>
        let b2 := if kind = .s then b1.stayShared l eid else b1
        b2.answered { t with data := some (d, p) } eid
      | .s => (if kind = .s then b1.stayShared l eid else b1).answered t eid
      | .i => (if kind = .s || kind = .i then b1.dropHolder l eid else b1).answered t eid
      | .cur => b1.answered t eid
      | .wbPend =>
        if t.data.isSome then (b1.dropHolder l eid).answered t eid
        else b1.putTxn { t with snoops := t.snoops.map (fun s => if s.eid = eid then { s with wbPend := true } else s) }

/-- The Cmp that ends a WrBack. -/
def Blk.cmpWrBack (b : Blk) (r : Req) (addr st : Nat) : Blk :=
  let q := homeOf (lineOf addr)
  (b.respond q 0x40 r.src.toNat r.msgId.toNat r.traceId.toNat addr st false false [] false 0 (b.partOf (lineOf addr))).2

/-- A WrBack taken by its own row (R114): memory is updated, and the mirror where the extent is mirrored, the line goes to I, and the
answer is Cmp. One to a line without Husk storage is a write that is refused: memory is unchanged (R342). -/
def Blk.takeWrBack (b : Blk) (r : Req) (addr : Nat) (bytes : Bytes) (poison : Bool) : Blk :=
  let l := lineOf addr
  let w := if b.huskAlive l then b.writeLine l bytes poison else b
  let b1 : Blk := { w with coh.dir := mdel b.coh.dir l }
  if !b.huskAlive l then (b1.countRefusal (homeOf l) 0x91 (b.partOf l)).cmpWrBack r addr 0x91
  else if b1.mirrors l then
    let t := newTxn l .wrback (.fabric r.src) r.msgId.toNat r.traceId.toNat ⟨0, true, b.partOf l, 0⟩ none
    let x := b1.mirrorSend l
    { x.2 with coh.nextTxn := x.2.coh.nextTxn + 1 }.putTxn
      { t with id := x.2.coh.nextTxn, twin := true, phase := .mirror x.1 (b.tb + 20000000) [] }
  else b1.cmpWrBack r addr 0

/-- A WrBack that comes while a snoop of a transaction waits for its agent (R115): a RdOnce leaves memory as it is, so the WrBack
updates it here; any other transaction updates it with the data that it takes. -/
def Blk.snoopWrBack (b : Blk) (r : Req) (addr : Nat) (t : Txn) (pend : Bool) (bytes : Bytes) (poison : Bool) : Blk :=
  let l := lineOf addr; let eid := r.src.toNat
  let t1 := { t with data := some (bytes, poison) }
  let b1 := match t.op with
    | .rdonce => b.takeWrBack r addr bytes poison
    | _ => if b.huskAlive l then b.cmpWrBack r addr 0 else (b.countRefusal (homeOf l) 0x91 (b.partOf l)).cmpWrBack r addr 0x91
  if pend then (b1.dropHolder l eid).answered t1 eid else b1.putTxn t1

/-- WrBack (R114, R115): taken from the owner that the directory shows, or for a snoop that waits for it; any other is discarded and
logged as COH_PROTOCOL. -/
def reqWrBack (b : Blk) (r : Req) (addr : Nat) (bytes : Bytes) (poison : Bool) : Blk :=
  let l := lineOf addr; let q := homeOf l; let eid := r.src.toNat
  if b.dead || !b.str.loaded then b
  else if r.reservedSet || addr % 128 ≠ 0 then (b.rspIn eid 128).malformed q
  else
    let b := b.rspIn eid 128
    let swept := b.pair.gap && b.pair.sweep.any (fun e => e.1 == eid) &&
      ((b.str.run.extAt (granOf l)).map (·.2.mirror)).getD false
    let own := swept || (b.ownerOf l = some eid && !b.deadAt q eid)
    let wait := b.coh.txns.find? (fun t => t.line == l && t.snoops.any (fun s => s.eid == eid))
    let pend := match wait with
      | some t => t.snoops.any (fun s => s.eid == eid && s.wbPend)
      | none => false
    if own || pend then
      let b := b.traceRx q eid 0x04 r.msgId.toNat r.traceId.toNat addr
      match wait with
      | some t => b.snoopWrBack r addr t pend bytes poison
      | none => b.takeWrBack r addr bytes poison
    else (b.flag (Reg.haCohErr q) 3).log 0x05 (28 + q) (b.partOf l) addr eid

/-- CmpAck (R113): the transaction that granted the line ends. -/
def reqCmpAck (b : Blk) (r : Req) (addr rid : Nat) : Blk :=
  let l := lineOf addr; let q := homeOf l; let eid := r.src.toNat
  if b.dead || !b.str.loaded then b
  else if r.reservedSet || addr % 128 ≠ 0 then (b.rspIn eid 0).malformed q
  else
    let b1 := (b.rspIn eid 0).heard q eid
    match b1.coh.txns.find? (fun t => t.line == l && t.who == .fabric r.src &&
        (match t.phase with | .ack m _ => m == rid | _ => false)) with
    | some t => (b1.traceRx q eid 0x45 r.msgId.toNat r.traceId.toNat addr).endTxn t
    | none => b1

/-! ## The request queue (R113) -/

/-- The first waiting request of a home agent that may start: its line is free, no earlier request waits for the line, the recall it waits
for has ended, a tracker entry is free and its set is not being rebuilt. -/
def Blk.nextQueued (b : Blk) (q : Nat) : Option QEnt :=
  let es := b.queued.filter (fun e => e.home == q)
  es.find? (fun e =>
    !b.busy e.txn.line && es.find? (fun f => f.txn.line == e.txn.line) == some e &&
    (match e.victim with
      | some w => !b.coh.txns.any (fun t => t.id == w)
      | none => true) &&
    b.trackers q < 1024 &&
    !b.coh.setLost.any (fun s => (s.home, s.set) == dirSet e.txn.line))

/-- BUSY_LINE_SERVE: a waiting request starts, in the order of acceptance (R113). -/
def busyServe (b : Blk) (q : Nat) : Blk :=
  match b.nextQueued q with
  | none => b
  | some e =>
    if b.rings.waits.contains e then
      { b with rings.waits := b.rings.waits.erase e, coh.nextTxn := b.coh.nextTxn + 1 }.startTxn { e.txn with id := b.coh.nextTxn }
    else { b with coh.queue := b.coh.queue.filter (fun f => f.txn.id != e.txn.id) }.startTxn e.txn e.victim.isSome

/-- Does a retry that was accepted within the window of a recorded atomic still wait to be answered from its entry (R123). -/
def Blk.ratAwaited (b : Blk) (r : RatEnt) : Bool :=
  b.coh.queue.any (fun e => homeOf e.txn.line == r.home && e.txn.who.eid == some r.eid && e.txn.op == .near r.a &&
    decide (e.txn.acc ≤ r.at_ + ratWindow))

/-- RAT_ENTRY_EXPIRY: a recorded entry that is more than 10 ms old is free (R123). Its value is kept for a retry that was accepted within
the window and still waits for its line. -/
def ratExpiry (b : Blk) (q eid : Nat) (atag : Word) : Blk :=
  { b with coh.rat := b.coh.rat.filter (fun r =>
      !(r.home == q && r.eid == eid && r.a.atag == atag && !r.live b.tb) || b.ratAwaited r) }

/-! ## Timeouts and suspension (R125 to R127) -/

/-- The snoop and CmpAck timeout of a home agent, ns (R125). -/
def Blk.snoopTimeout (b : Blk) (q : Nat) : Nat := b.field (Reg.haSnoopCfg q) 0 14 * 1000

/-- A home agent suspends an agent: it sends SUSPEND to the four home agents and the registry, and each takes it at its quiesce point
(R125). -/
def Blk.suspend (b : Blk) (q eid : Nat) : Blk :=
  match mget b.coh.agents eid with
  | none => b
  | some a =>
    if a.suspended || b.coh.suspendPend.any (fun s => s.2 == eid) then b
    else
      let b1 : Blk := { b with
        coh.suspendPend := (List.range 4).foldl (fun l h => with1 l (h, eid)) b.coh.suspendPend }
      ((b1.flag (Reg.haCohErr q) 1).aonAdd 219 1).trace
        { source := 11, event := 1, part := b.hostPart eid, unit := 28 + q, eid := eid, a := a.index }

/-- A timeout of an agent at a home agent counted; the third in a row suspends it (R125). -/
def Blk.timeoutOf (b : Blk) (q eid : Nat) : Blk :=
  let k := q * 65536 + eid
  let n := tget (fun _ => 0) b.coh.timeouts k + 1
  let b1 := (({ b with coh.timeouts := tset (fun _ => 0) b.coh.timeouts k n }.incr (Reg.haSnoopTimeoutCnt q)).flag
    (Reg.haCohErr q) 0)
  if 3 ≤ n then b1.suspend q eid else b1

/-- SNOOP_TIMEOUT: a snoop or CmpAck of an agent that has been missing for the timeout (R125): the snoop is sent again with its
identifier, and the agent's count rises. One whose time has not come changes nothing. -/
def snoopTimeoutAt (b : Blk) (q l eid : Nat) : Blk :=
  let lim := b.snoopTimeout q
  match b.coh.txns.find? (fun t => t.line == l && homeOf t.line == q &&
      (t.snoops.any (fun s => s.eid == eid && !s.wbPend && s.sentAt + lim ≤ b.tb))) with
  | some t => match t.snoops.find? (fun s => s.eid == eid) with
    | some s =>
      let b1 := b.sendSnoop l eid s.snpId t.part s.kind
      (b1.putTxn { t with snoops := t.snoops.map (fun x => if x.eid = eid then { x with sentAt := b.tb } else x) }).timeoutOf q eid
    | none => b
  | none =>
    match b.coh.txns.find? (fun t => t.line == l && homeOf t.line == q && t.who.eid == some eid &&
        (match t.phase with | .ack _ at_ => at_ + lim ≤ b.tb | _ => false)) with
    | some t => match t.phase with
      | .ack m _ => (b.putTxn { t with phase := .ack m b.tb }).timeoutOf q eid
      | _ => b
    | none =>
      match b.coh.setLost.find? (fun s => s.home == q && s.left.any (fun a => a.1 == eid && a.2 + lim ≤ b.tb)) with
      | some s =>
        let b1 := (b.sendOwn q { ty := 0x83, dst := eid, msgId := 0, traceId := 0,
                                 arg := argAt q 0 ||| argAt s.set 2 ||| argAt s.snpId 48 }).2
        { b1 with coh.setLost := b1.coh.setLost.map (fun x => if x = s then { x with left := mput x.left eid b.tb } else x) }.timeoutOf q eid
      | none => b

/-- Everything at a home agent that waits on a dead agent goes on as if RspI or the CmpAck had come, an owned line poisoned first
(R126). -/
def Blk.resolveDead (b : Blk) (q eid : Nat) : Blk :=
  let ts := b.coh.txns.filter (fun t => homeOf t.line == q)
  let b1 := (ts.filter (fun t => t.snoops.any (fun s => s.eid == eid))).foldl (fun b t =>
    match b.coh.txns.find? (fun u => u.id == t.id) with
    | none => b
    | some u =>
      let b2 := if b.ownerOf t.line = some eid then b.poisonDead t.line eid else b.dropHolder t.line eid
      b2.answered u eid) b
  let b3 := (ts.filter (fun t => t.who.eid == some eid && (match t.phase with | .ack _ _ => true | _ => false))).foldl
    (fun b t => b.endTxn t) b1
  (b3.coh.setLost.filter (fun s => s.home == q && mhas s.left eid)).foldl (fun b s => b.setAnswered q eid s.snpId) b3

/-- SUSPEND_TAKE: a home agent takes a suspension at its quiesce point, and starts its walk (R126, R127); with home agent 0 the registry
takes it. -/
def suspendTakeAt (b : Blk) (q eid : Nat) : Blk :=
  if b.coh.suspendPend.contains (q, eid) then
    let b1 : Blk := { b with
      coh.suspendPend := without b.coh.suspendPend (q, eid)
      coh.suspended := with1 b.coh.suspended (q, eid)
      coh.agents := if q = 0 then mmod b.coh.agents eid (fun a => { a with registered := false, suspended := true }) else b.coh.agents
      coh.walks := b.coh.walks.filter (fun w => !(w.home == q && w.eid == eid)) ++ [⟨q, eid, 0⟩] }
    b1.resolveDead q eid
  else b

/-- A slot of an allowance taken in the running 10 µs window, where the allowance has one left (R87, R98, R127, R350). While the
timebase is frozen only idle slots serve (R419), which the model gives. -/
def Blk.takeSlot (b : Blk) (key limit : Nat) : Option Blk :=
  let n := tget (fun _ => 0) b.pool.used key
  if b.frozen || n < limit then some { b with pool.used := tset (fun _ => 0) b.pool.used key (n + 1) } else none

/-- The slots of one Grain channel in the running window (R31). -/
def Blk.grainSlots (b : Blk) : Nat := Config.grainSlots (b.tb / 10000)

/-- The slots of one Husk channel in a 10 µs window: a line is 16 transfers of 8 bytes (R80). -/
def Blk.huskSlots (b : Blk) : Nat := (speedBins.getD b.pool.speed 4800) * 10 / 16

/-- The sets of a directory slice (R106). -/
def dirSets : Nat := 2097152

/-- RECLAIM_WALK: the next set of a home agent's walk for an agent is read, within the reclaim cap; after the last set the walk
ends (R127). -/
def reclaimStep (b : Blk) (q eid : Nat) : Blk :=
  match b.coh.walks.find? (fun w => w.home == q && w.eid == eid) with
  | none => b
  | some w =>
    match b.takeSlot (1000 + q) (b.field (Reg.haReclaimCap q) 0 7 * b.grainSlots * 32 / 100) with
    | none => b
    | some b0 =>
      let rest := b0.coh.walks.filter (fun x => !(x.home == q && x.eid == eid))
      let ls := (b0.setEntries (q, w.cursor)).map (·.1)
      let b1 : Blk := { (b0.event (32 + q) 3 none) with
        coh.walks := if w.cursor + 1 = dirSets then rest else rest ++ [{ w with cursor := w.cursor + 1 }] }
      ls.foldl (fun b l => b.walkEntry eid l) b1

/-! ## The peer's answers (R355) -/

/-- A transaction that waited on the mirror ends with a status: 0, MIRROR_FAIL, or PAIR_FENCED (R355, R360). A memory update before
a grant goes on with the grant. -/
def Blk.mirrorEnd (b : Blk) (t : Txn) (status : Nat) (old : Bytes) : Blk :=
  let b := if status = 0x93 && t.job.isNone && (b.fencedTxn t || t.op == .wrback) then b.countRefusal (homeOf t.line) 0x93 t.part else b
  match t.op with
  | .wrline _ _ _ | .mirrorWr _ _ _ | .wrback => (b.answerTxn t 0x40 status [] false false).endTxn t
  | .near _ => (if status = 0 then b.answerTxn t 0x05 0 old false false else b.answerTxn t 0x40 status [] false false).endTxn t
  | _ => b.finishTxn { t with phase := .snoop }

/-- A failed mirror write of a line of a partition logged and counted (R355). -/
def Blk.failMirror (b : Blk) (l part peer : Nat) : Blk :=
  ((b.flag Reg.hubPairErr 4).incr Reg.hubMirrorFailCnt).log 0x11 (28 + homeOf l) part (l * 128) peer

/-- A failed mirror write of a transaction logged and counted (R355). -/
def Blk.mirrorFailed (b : Blk) (t : Txn) (peer : Nat) : Blk := b.failMirror t.line t.part peer

/-- A line of the copy to a rejoining standby that the peer has refused or not answered: the failure is noted and the line sent again
(R355, R364; log entry 65). -/
def Blk.copyAgain (b : Blk) (msgId peer : Nat) : Blk :=
  match b.pair.copies.find? (fun c => c.1 == msgId) with
  | none => b
  | some c =>
    let x := ((b.failMirror c.2.1 (b.partOf c.2.1) peer).fetch c.2.1).1.mirrorSend c.2.1
    { x.2 with pair.copies := x.2.pair.copies.filter (fun y => y.1 != msgId) ++ [(x.1, c.2.1, b.tb + 20000000)] }

/-- A poisoned line that the peer has taken, or with a failure noted has not (R353, R355). -/
def Blk.poisonEnd (b : Blk) (msgId peer : Nat) (failed : Bool) : Blk :=
  match b.pair.poisons.find? (fun c => c.1 == msgId) with
  | none => b
  | some c =>
    let b1 := if failed then b.failMirror c.2.1 (b.partOf c.2.1) peer else b
    { b1 with pair.poisons := b1.pair.poisons.filter (fun y => y.1 != msgId) }

/-- The transaction that waits for the peer's Cmp to a message, with what its answer carries and its time limit. -/
def Blk.mirrorTxn (b : Blk) (msgId : Nat) : Option (Txn × Nat × Bytes) :=
  (b.coh.txns.find? (fun t => match t.phase with | .mirror m _ _ => m == msgId | _ => false)).bind (fun t =>
    match t.phase with
    | .mirror _ d o => some (t, d, o)
    | _ => none)

/-- MIRROR_CMP: the peer's Cmp to a mirror write (R355), which the peer's shaper is charged for (R289); one that answers a write is accepted
and traced with the TRACE_ID that it copies (R434). -/
def mirrorCmpAt (b0 : Blk) (msgId traceId peer : Nat) : Blk :=
  let src := b0.str.run.pair.peer
  let b := b0.rspIn src 0
  let rx := fun (b : Blk) (l : Nat) => b.traceRx (homeOf l) src 0x40 msgId traceId (l * 128)
  match b.mirrorTxn msgId with
  | none => match b.pair.poisons.find? (fun c => c.1 == msgId) with
    | some c => (rx b c.2.1).poisonEnd msgId peer (peer != 0)
    | none => match b.pair.copies.find? (fun c => c.1 == msgId) with
      | none => b
      | some c =>
        let b1 := rx b c.2.1
        if b1.pair.copy.isNone then b1
        else if peer = 0 then { b1 with pair.copies := b1.pair.copies.filter (fun c => c.1 != msgId) } else b1.copyAgain msgId peer
  | some (t, _, o) => if peer = 0 then (rx b t.line).mirrorEnd t 0 o else ((rx b t.line).mirrorFailed t peer).mirrorEnd t 0x95 o

/-- MIRROR_TIMEOUT: no Cmp of the peer within 20 ms (R355). -/
def mirrorTimeoutAt (b : Blk) (msgId : Nat) : Blk :=
  match b.mirrorTxn msgId with
  | none =>
    if b.pair.poisons.any (fun c => c.1 == msgId && c.2.2 ≤ b.tb) then b.poisonEnd msgId 0 true
    else if b.pair.copy.isSome && b.pair.copies.any (fun c => c.1 == msgId && c.2.2 ≤ b.tb) then b.copyAgain msgId 0 else b
  | some (t, d, o) => if d ≤ b.tb then (b.mirrorFailed t 0).mirrorEnd t 0x95 o else b

/-- Every write that waits on the mirror ended with a status: 0 after a SOLO order (R355), PAIR_FENCED when the controller becomes
fenced (R360). -/
def Blk.endMirrors (b0 : Blk) (status : Nat) : Blk :=
  let b : Blk := { b0 with pair.poisons := [] }
  (b.coh.txns.filter (fun t => match t.phase with | .mirror _ _ _ => true | _ => false)).foldl (fun b t =>
    match t.phase with
    | .mirror _ _ o => b.mirrorEnd t status o
    | _ => b) b

end Sys2Proof.Machine
end

