-- ==== Sys2Proof/Machine/Ckpt.lean ====
section
/-! DEFINITION. The checkpoint of a pair's primary: its layout and the entries that a change of a lease or of a mirrored extent writes
before it takes effect; and the leases (R93 to R95, R356, R360). -/

namespace Sys2Proof.Machine

/-! ## The checkpoint (R356) -/

/-- Does the controller write the checkpoint: it is a primary and not fenced, and the checkpoint extent takes writes. -/
def Blk.ckptOn (b : Blk) : Bool :=
  b.pair.role == 1 && !b.pair.fenced && (b.extEnt b.str.run.pair.ckptExt).isSome && (b.extRt b.str.run.pair.ckptExt).state == .active

/-- The first pool address of the checkpoint. -/
def Blk.ckptBase (b : Blk) : Nat := ((b.extEnt b.str.run.pair.ckptExt).map ExtEnt.addr).getD 0

/-- Whole milliseconds from now to a time. -/
def Blk.msTo (b : Blk) (t : Nat) : Nat := (t - b.tb) / 1000000

/-- The bytes of a lease entry. -/
def ckptLease (eid : Nat) (l : Lease) (ms eseq : Nat) : Bytes :=
  toLe 2 eid ++ toLe 1 (b2n l.live + 2 * b2n l.lapsed) ++ zeros 1 ++ toLe 4 ms ++ toLe 8 eseq

/-- The bytes of an agent entry. -/
def ckptAgent (eid : Nat) (a : Agent) (eseq : Nat) : Bytes :=
  toLe 2 eid ++ toLe 2 (a.index + 32768 * b2n a.registered) ++ zeros 4 ++ toLe 8 eseq

/-- The code of an extent state (R103). -/
def ExtState.code : ExtState → Nat
  | .none => 0 | .init => 1 | .active => 2 | .sealing => 3 | .published => 4 | .draining => 5 | .zeroing => 6

/-- The extent state of a code. -/
def ExtState.ofCode : Nat → ExtState
  | 1 => .init | 2 => .active | 3 => .sealing | 4 => .published | 5 => .draining | 6 => .zeroing | _ => .none

/-- The bytes of an extent entry. -/
def ckptExtent (i : Nat) (r : ExtRt) (eseq : Nat) : Bytes :=
  toLe 4 i ++ toLe 1 r.state.code ++ zeros 3 ++ toLe 8 r.version.toNat ++ toLe 8 r.modCount.toNat ++ toLe 8 eseq ++ fit 32 r.digest

/-- The mirrored extents. -/
def Struct.mirrored (s : Struct) : List Nat := (s.exts.filter (fun e => e.2.mirror)).map (·.1)

/-- The place of a key in ascending order. -/
def rankIn (ks : List Nat) (k : Nat) : Nat := (ks.filter (· < k)).length

/-- One checkpoint entry written; ESEQ rises by 1. -/
def Blk.ckptEntry (b : Blk) (off : Nat) (e : Nat → Bytes) : Blk :=
  let n := b.pair.eseq + 1
  { b with pair.eseq := n }.devWrite (b.ckptBase + off) (e n)

/-- The entry of a host's lease written. -/
def Blk.ckptHost (b : Blk) (eid : Nat) (l : Lease) : Blk :=
  b.ckptEntry (0x1000 + 16 * rankIn (mkeys b.str.run.hosts) eid) (ckptLease eid l (if l.live then b.msTo l.deadline else 0))

/-- The entry of an agent written. -/
def Blk.ckptAgentAt (b : Blk) (eid : Nat) (a : Agent) : Blk :=
  b.ckptEntry (0x11000 + 16 * rankIn (mkeys b.coh.agents) eid) (ckptAgent eid a)

/-- The entry of a mirrored extent written. -/
def Blk.ckptExtAt (b : Blk) (i : Nat) (r : ExtRt) : Blk :=
  b.ckptEntry (0x15000 + 64 * rankIn b.str.run.mirrored i) (ckptExtent i r)

/-! ## Changes that the checkpoint follows -/

/-- An extent's runtime state changed; a change of a mirrored extent's STATE, VERSION or DIGEST writes its entry first (R356). -/
def Blk.setExt (b : Blk) (i : Nat) (f : ExtRt → ExtRt) : Blk :=
  let old := b.extRt i
  let new := f old
  let moved := old.state != new.state || old.version != new.version || old.digest != new.digest
  let b1 := if moved && b.ckptOn && ((b.extEnt i).map (·.mirror)).getD false then b.ckptExtAt i new else b
  b1.modExt i f

/-- A lease set; a change of LIVE or LAPSED writes its entry first (R356). -/
def Blk.setLease (b : Blk) (eid : Nat) (l : Lease) : Blk :=
  let old : Lease := (mget b.ext.leases eid).getD ⟨false, false, 0⟩
  let b1 := if (old.live != l.live || old.lapsed != l.lapsed) && b.ckptOn then b.ckptHost eid l else b
  { b1 with ext.leases := mput b1.ext.leases eid l }

/-- The lease period of a host, ns: LEASE_MS, 0 for 500 (R55). -/
def Struct.leaseNs (s : Struct) (eid : Nat) : Nat :=
  let ms := ((mget s.hosts eid).map (·.leaseMs)).getD 0
  (if ms = 0 then 500 else ms) * 1000000

/-- The lease period of a host as the lease master, in home agent 0, holds it, ns (R68, R93). -/
def Blk.leaseNs (b : Blk) (eid : Nat) : Nat := (b.view (.home 0)).leaseNs eid

/-- A host made lapsed, and EXPIRE sent to every home agent (R94, R95): the lease counts as expired or ended. event: 1 expired,
2 ended by PERIOD 0. -/
def Blk.lapse (b : Blk) (eid event : Nat) : Blk :=
  let b1 := b.setLease eid ⟨false, true, 0⟩
  let b2 : Blk := { b1 with ext.expPend := (List.range 4).foldl (fun l q => with1 l (q, eid)) b1.ext.expPend }
  ((b2.incr (Reg.haLeaseExpiredCnt 0)).aonAdd 220 1).trace
    { source := 10, event := event, part := b.hostPart eid, unit := 28, eid := eid }

/-! ## The whole checkpoint -/

/-- The header of a checkpoint. -/
def ckptHeader (flags seq hosts exts agents : Nat) : Bytes :=
  let h := toLe 4 0x54504B43 ++ toLe 2 1 ++ toLe 2 flags ++ toLe 8 seq ++ toLe 4 hosts ++ toLe 4 exts ++ toLe 2 agents ++ zeros 34
  h ++ toLe 4 (crc32 h).toNat

/-- A checkpoint written: every entry, then the header with the next SEQ. -/
def Blk.ckptWrite (b : Blk) (inSync : Bool) : Blk :=
  let b1 := (mkeys b.str.run.hosts).foldl (fun b e => b.ckptHost e ((mget b.ext.leases e).getD ⟨false, false, 0⟩)) b
  let b2 := b1.coh.agents.foldl (fun b a => b.ckptAgentAt a.1 a.2) b1
  let b3 := b2.str.run.mirrored.foldl (fun b i => b.ckptExtAt i (b.extRt i)) b2
  let b4 : Blk := { b3 with pair.ckptSeq := b3.pair.ckptSeq + 1, pair.ckptAt := b3.tb }
  b4.devWrite b4.ckptBase (ckptHeader (b2n inSync) b4.pair.ckptSeq b4.str.run.hosts.length b4.str.run.mirrored.length
    b4.coh.agents.length)

/-- CHECKPOINT: every 100 ms the primary writes a checkpoint (R356). -/
def checkpointTick (b : Blk) : Blk :=
  if b.ckptOn && !b.dead && b.pair.ckptAt + 100000000 ≤ b.tb then b.ckptWrite (!b.pair.solo) else b

end Sys2Proof.Machine
end

