-- ==== Sys2Proof/Machine/Placement.lean ====
section
/-! DEFINITION. Placement of granules in the Grain tier, their moves, cleaning passes and the zeroing of the pool after a load and of
revoked extents (R82 to R89, R98). -/

namespace Sys2Proof.Machine

/-! ## Frames (R83, R84) -/

/-- The first frame of a partition's share on a quadrant; the shares lie one after another in the order of the partitions. -/
def Struct.shareBase (s : Struct) (p q : Nat) : Nat := ((s.validParts.filter (· < p)).map (fun r => s.share r q)).sum

/-- The frames of a share that placement may use: all but the two that hold the default log ring while no LOG_EXTENT is named. -/
def Blk.shareFrames (b : Blk) (p q : Nat) : List Nat :=
  let s := b.str.run
  let keep := if p = 0 && q = 0 && b.rings.log.ext.isNone then 2 else 0
  (List.range (s.share p q - keep)).map (fun i => s.shareBase p q + keep + i)

/-- The frames of a quadrant that granules occupy. The two frames of the default log ring are not among them: DESIGN CHOICE (log entry 61). -/
def Blk.framesUsed (b : Blk) (q : Nat) : List Nat := (b.pool.frames.filter (fun e => e.1 % 4 == q)).map (·.2)

/-- A free frame of a share. -/
def Blk.freeFrame (b : Blk) (p q : Nat) : Option Nat := (b.shareFrames p q).find? (fun f => !(b.framesUsed q).contains f)

/-- The granules of an extent that are homed on a quadrant, rising. -/
def ExtEnt.granulesOn (e : ExtEnt) (q : Nat) : List Nat :=
  let first := e.base + (q + 4 - e.base % 4) % 4
  (List.range (e.onQuad q)).map (fun i => first + 4 * i)

/-- Is an extent in DRAINING or ZEROING. -/
def Blk.dying (b : Blk) (i : Nat) : Bool := (b.extRt i).state == .draining || (b.extRt i).state == .zeroing

/-- The extents in DRAINING or ZEROING. -/
def Blk.dyingExts (b : Blk) : List Nat := (mkeys b.str.run.exts).filter b.dying

/-- The granules of a partition on a quadrant under a hint, of extents that live, in ascending order of extent and granule. -/
def Blk.hinted (b : Blk) (p q hint : Nat) : List Nat :=
  ((b.str.run.exts.filter (fun e => e.2.part == p && b.str.run.hint e.2 == hint && !b.dying e.1)).map
    (fun e => e.2.granulesOn q)).flatten

/-- The granules of dying extents of a partition that hold frames on a quadrant: they keep them (R84). -/
def Blk.keptDying (b : Blk) (p q : Nat) : List Nat :=
  ((b.str.run.exts.filter (fun e => e.2.part == p && b.dying e.1)).map
    (fun e => (e.2.granulesOn q).filter (mhas b.pool.frames))).flatten

/-- The granules that R84 gives frames of a partition's share on a quadrant: those of dying extents that hold one, the GRAIN_PIN
granules, and as many GRAIN_PREFER granules as the rest of the share takes. A GRAIN_PREFER granule of a lower index that a commit adds
so displaces one of a higher index: DESIGN CHOICE (log entry 60). -/
def Blk.wanted (b : Blk) (p q : Nat) : List Nat :=
  let n := (b.shareFrames p q).length
  let kept := b.keptDying p q
  let pins := b.hinted p q 0
  kept ++ pins ++ (b.hinted p q 1).take (n - kept.length - pins.length)

/-- A granule's Grain copy given up. -/
def Blk.dropGrain (b : Blk) (g : Nat) : Blk :=
  let l := lineOfGran g
  let out := fun (k : Nat) => decide (k < l || l + 16384 ≤ k)
  { b with
    pool.frames := mdel b.pool.frames g
    pool.stopped := mdel b.pool.stopped g
    pool.cellsG := cclear b.pool.cellsG (l * 128) 2097152
    pool.metaG := b.pool.metaG.filter (fun e => out e.1)
    pool.inj := b.pool.inj.filter (fun e => e.1 % 8 != 2 || out (e.1 / 8)) }

/-- A granule's dirty lines, rising, from a line of the granule on. -/
def Blk.dirtyFrom (b : Blk) (g n : Nat) : Option Nat :=
  let l := lineOfGran g
  (b.pool.metaG.find? (fun e => l + n ≤ e.1 && e.1 < l + 16384 && e.2.dirty)).map (fun e => e.1 - l)

/-- The granules that occupy the frames of the default log ring give them up: they are of partition 0, whose lines are never DIRTY (R86,
R428). -/
def Blk.freeLogFrames (b : Blk) : Blk :=
  let f0 := b.str.run.shareBase 0 0
  (b.pool.frames.filter (fun f => f.1 % 4 == 0 && (f.2 == f0 || f.2 == f0 + 1))).foldl (fun b f => b.dropGrain f.1) b

/-! ## Moves (R85, R87, R88) -/

/-- What a quadrant moves next (R84): GRAIN_PIN moves, then evictions, then GRAIN_PREFER fills, then cleaning passes, whose place is a DESIGN
CHOICE (log entry 59). Each is the granule, its kind and, for a move in, its frame. -/
def Blk.nextMove (b : Blk) (q : Nat) : Option (Nat × MigKind × Nat) :=
  let ps := b.str.run.validParts
  let into := fun (hint : Nat) => ps.findSome? (fun p =>
    match ((b.hinted p q hint).filter (fun g => (b.wanted p q).contains g)).find? (fun g => !mhas b.pool.frames g) with
    | none => none
    | some g => (b.freeFrame p q).map (fun f => (g, MigKind.into, f)))
  let unwanted := (b.str.run.exts.map (fun e =>
    (e.2.granulesOn q).filter (fun g => mhas b.pool.frames g && !(b.wanted e.2.part q).contains g))).flatten
  match into 0 with
  | some m => some m
  | none => match unwanted.getLast? with
    | some g => some (g, .out, 0)
    | none => match into 1 with
      | some m => some m
      | none => (b.pool.cleanQ.find? (fun g => g % 4 == q)).map (fun g => (g, .clean, 0))

/-- A move or cleaning pass that ends: the granule's location changes, and MIG_CNT counts it. -/
def Blk.endMove (b : Blk) (q : Nat) (m : Mig) : Blk :=
  let b1 := ({ b with pool.migs := mdel b.pool.migs q }).incr (Reg.grnMigCnt q)
  match m.kind with
  | .into => b1
  | .out => b1.dropGrain m.granule
  | .clean => { b1 with pool.cleanQ := without b1.pool.cleanQ m.granule }

/-- A move that stopped because its extent started draining, where the extent drains no more (R44, R88). -/
def Blk.resumable (b : Blk) (q : Nat) : Option (Nat × Mig) :=
  b.pool.stopped.find? (fun m => m.1 % 4 == q && !((b.str.run.extAt m.1).map (fun e => b.dying e.1)).getD true)

/-- The quadrant's next move started where none runs; a granule without a dirty line leaves at once (R88).
A frame that a move fills is left out of the zeroing of R82, since the move writes every line of it. -/
def Blk.beginMove (b : Blk) (q : Nat) : Blk :=
  if mhas b.pool.migs q then b
  else match b.resumable q with
  | some m => { b with pool.migs := mput b.pool.migs q m.2, pool.stopped := mdel b.pool.stopped m.1 }
  | none => match b.nextMove q with
    | none => b
    | some (g, k, f) =>
      let m : Mig := ⟨g, k, 0⟩
      match k with
      | .into =>
        let b := if q = 0 && f < 2 then b.ringPlaced f else b
        { b with
          pool.frames := mput b.pool.frames g f
          pool.migs := mput b.pool.migs q m
          pool.zeroDoneG := with1 b.pool.zeroDoneG (q * 3968 + f)
          pool.zeroCur := if (mget b.pool.zeroCur (4 + q)).any (fun c => c.1 == f) then mdel b.pool.zeroCur (4 + q)
            else b.pool.zeroCur }
      | _ => if (b.dirtyFrom g 0).isNone then b.endMove q m else { b with pool.migs := mput b.pool.migs q m }

/-- MIGRATE_CAP of the partition of a granule, per cent (R55, R87). -/
def Blk.migrateCap (b : Blk) (g : Nat) : Nat :=
  let p := ((b.str.run.extAt g).map (·.2.part)).getD 0
  let c := (b.str.run.tier p).cap
  if c = 0 then 10 else c

/-- A slot taken on each of some Husk channels, where each has one left. -/
def Blk.takeSlots (b : Blk) (base limit : Nat) : List Nat → Option Blk
  | [] => some b
  | c :: t => (b.takeSlot (base + c) limit).bind (fun b1 => b1.takeSlots base limit t)

/-- The line slots that a move of a line needs, taken from the allowances of R87: one on each Husk channel that it reads (a move in) or
writes, the check lines of the stripe with them, and one on its Grain channel. -/
def Blk.takeMigSlots (b : Blk) (l : Nat) (into : Bool) : Option Blk :=
  let cap := b.migrateCap (granOf l)
  let gch := 32 * homeOf l + lineIn l % 32
  (b.takeSlots 2000 (cap * b.huskSlots / 100) (if into then (b.dataChans l).take 1 else b.huskWrites l)).bind
    (fun b1 => b1.takeSlot (3000 + gch) (cap * b1.grainSlots / 100))

/-- A line copied into its frame (R88, R382): its bytes and metadata as the Husk tier delivers them. -/
def Blk.copyIn (b : Blk) (l : Nat) : Blk :=
  let x := b.fetchHusk l (b.partOf l)
  let v : Bytes × LineMeta := match x.2.1 with
    | some c => (x.1.copyBytes c l, x.1.copyMeta c l)
    | none => (zeros 128, { poison := true })
  (x.1.putCopy .grain l v.1 { v.2 with dirty := false }).countGrain l 2 (b.partOf l)

/-- A dirty line written to the Husk tier; it is clean from then on (R85, R88). -/
def Blk.copyOut (b : Blk) (l : Nat) : Blk :=
  let b1 := ((b.countGrain l 1 (b.partOf l)).readGrainCopy l [] (b.partOf l)).2
  let m : LineMeta := { b1.copyMeta .grain l with dirty := false }
  let bs := b1.copyBytes .grain l
  ((b1.putHusk l bs m).countHusk l 2 (b.partOf l)).putCopy .grain l bs m

/-- The line that a running move copies next. -/
def Blk.moveNext (b : Blk) (m : Mig) : Option Nat :=
  match m.kind with
  | .into => if m.cursor < 16384 then some m.cursor else none
  | _ => b.dirtyFrom m.granule m.cursor

/-- One line of the running move of a quadrant copied, within the allowance; the move ends with its last line. A move in reads every
line, and a move out or a cleaning pass writes the dirty ones. -/
def Blk.moveLine (b : Blk) (q : Nat) (clean : Bool) : Blk :=
  match mget b.pool.migs q with
  | none => b
  | some m =>
    if (m.kind == .clean) != clean then b
    else match b.moveNext m with
      | none => b.endMove q m
      | some n =>
        let l := lineOfGran m.granule + n
        match b.takeMigSlots l (m.kind == .into) with
        | none => b
        | some b0 =>
          let b1 := if m.kind = .into then b0.copyIn l else b0.copyOut l
          let m1 : Mig := { m with cursor := n + 1 }
          let b2 : Blk := { b1 with pool.migs := mput b1.pool.migs q m1 }
          if (b2.moveNext m1).isNone then b2.endMove q m1 else b2

/-- MIGRATION_LINE: a quadrant copies the next line of a granule move (R88); in HOLD migration pauses (R399). -/
def migrationLine (b : Blk) (q : Nat) : Blk :=
  if b.dead || !b.str.loaded || b.asleep then b else (b.beginMove q).moveLine q false

/-- CLEANING_PASS_LINE: a cleaning pass writes the next dirty line to the Husk tier (R85, R87). -/
def cleaningPassLine (b : Blk) (q : Nat) : Blk :=
  if b.dead || !b.str.loaded || b.asleep then b else (b.beginMove q).moveLine q true

/-- ALLOWANCE_WINDOW: a new 10 µs window of the timebase renews every slot allowance (R87). -/
def allowanceWindow (b : Blk) : Blk :=
  if b.pool.window < b.tb / 10000 then { b with pool.used := [], pool.window := b.tb / 10000 } else b

/-- A cleaning pass queued for every granule of an extent that occupies a frame (R85). -/
def Blk.queueClean (b : Blk) (i : Nat) : Blk :=
  match b.extEnt i with
  | none => b
  | some e =>
    let gs := ((List.range 4).map (fun q => (e.granulesOn q).filter (mhas b.pool.frames))).flatten
    { b with pool.cleanQ := gs.foldl with1 b.pool.cleanQ }

/-- The placement of a load (R84): every granule that R84 gives a frame takes it at once, since every line is zero. -/
def Blk.placeAll (b : Blk) : Blk :=
  (List.range 4).foldl (fun b q => b.str.run.validParts.foldl (fun b p =>
    ((b.wanted p q).filter (fun g => !mhas b.pool.frames g)).foldl (fun b g => match b.freeFrame p q with
      | some f => { b with pool.frames := mput b.pool.frames g f }
      | none => b) b) b) b

/-! ## Zeroing after a load (R82) -/

/-- Is a granule zero after the reset zeroing: its Husk lines, and its frame where it holds one. -/
def Blk.granZero (b : Blk) (g : Nat) : Bool :=
  !b.pool.zeroOn || (b.pool.zeroDoneH.contains g &&
    (match mget b.pool.frames g with
      | some f => b.pool.zeroDoneG.contains (g % 4 * 3968 + f)
      | none => true))

/-- The granules of an extent. -/
def ExtEnt.all (e : ExtEnt) : List Nat := (List.range e.granules).map (fun i => e.base + i)

/-- Every extent in INIT whose granules are all zero becomes ACTIVE (R82, R89). -/
def Blk.initDone (b : Blk) : Blk :=
  b.str.run.exts.foldl (fun b e =>
    if (b.extRt e.1).state = .init && e.2.all.all b.granZero then b.setExt e.1 (fun r => { r with state := .active }) else b) b

/-- Has the zeroing ended on a quadrant: every usable granule and every frame is zero. -/
def Blk.zeroedQuad (b : Blk) (q : Nat) : Bool :=
  (b.pool.zeroDoneH.filter (· % 4 == q)).length == b.pool.usable &&
  (b.pool.zeroDoneG.filter (· / 3968 == q)).length == 3968

/-- The end of the zeroing of R82 noted, and the log buffer written once its ring can take it (R428). -/
def Blk.zeroStep (b : Blk) : Blk :=
  let b1 := b.initDone
  let b2 : Blk := if (List.range 4).all b1.zeroedQuad then { b1 with pool.zeroOn := false } else b1
  b2.logFlush

/-- The granule that a quadrant zeroes next: those that extents cover come first, in ascending order of extent and granule. -/
def Blk.zeroNextH (b : Blk) (q : Nat) : Option Nat :=
  let left := fun (g : Nat) => !b.pool.zeroDoneH.contains g
  match (b.str.run.exts.map (fun e => e.2.granulesOn q)).flatten.find? left with
  | some g => some g
  | none => ((List.range b.pool.usable).map (fun j => 4 * j + q)).find? left

/-- The frame that a quadrant zeroes next: those of covered granules come first. -/
def Blk.zeroNextG (b : Blk) (q : Nat) : Option Nat :=
  let left := fun (f : Nat) => !b.pool.zeroDoneG.contains (q * 3968 + f)
  match ((b.str.run.exts.map (fun e => (e.2.granulesOn q).filterMap (mget b.pool.frames))).flatten).find? left with
  | some f => some f
  | none => (List.range 3968).find? left

/-- The granule that occupies a frame of a quadrant. -/
def Blk.granInFrame (b : Blk) (q f : Nat) : Option Nat := (b.pool.frames.find? (fun e => e.1 % 4 == q && e.2 == f)).map (·.1)

/-- Has every in-service Husk channel trained since the last reset, so that zeroing may run (R82, R408). -/
def Blk.allTrained (b : Blk) : Bool := (List.range 24).all (fun c => (b.husk c).trained || (b.husk c).lost)

/-- The Husk channels that zeroing a line writes, where a set of lines is zeroed (R98): those of its copies, and of the check lines of its
stripe, which with a stripe that lies whole in the set are written once. -/
def Blk.zeroChans (b : Blk) (has : Nat → Bool) (l : Nat) : List Nat :=
  let p := b.pos l
  let ls := stripeLines b.mode p.1 p.2
  if ls.all has && ls.head? != some l then b.dataChans l else b.huskWrites l

/-- INIT_ZEROING_LINE: a home agent zeroes the next Husk line or Grain frame line in the order of R82, with a free slot. A granule
that is not yet zero and holds a frame is zeroed in its frame with its Husk line. -/
def initZeroingLine (b : Blk) (q : Nat) (t : Tier) : Blk :=
  if b.dead || !b.pool.zeroOn || b.asleep || !b.allTrained then b
  else match t with
    | .husk =>
      let cur := match mget b.pool.zeroCur q with
        | some c => some c
        | none => (b.zeroNextH q).map (fun g => (g, 0))
      match cur with
      | none => b.zeroStep
      | some (g, n) =>
        let b0 := (b.zeroHusk (lineOfGran g + n)).huskOps 2 0 (b.zeroChans (fun _ => true) (lineOfGran g + n))
        let b1 := if mhas b0.pool.frames g then b0.zeroGrain (lineOfGran g + n) else b0
        if n + 1 < 16384 then { b1 with pool.zeroCur := mput b1.pool.zeroCur q (g, n + 1) }
        else { b1 with pool.zeroCur := mdel b1.pool.zeroCur q, pool.zeroDoneH := with1 b1.pool.zeroDoneH g }.zeroStep
    | .grain =>
      let cur := match mget b.pool.zeroCur (4 + q) with
        | some c => some c
        | none => (b.zeroNextG q).map (fun f => (f, 0))
      match cur with
      | none => b.zeroStep
      | some (f, n) =>
        let b1 := match b.granInFrame q f with
          | some g => b.zeroGrain (lineOfGran g + n)
          | none => b
        if n + 1 < 16384 then { b1 with pool.zeroCur := mput b1.pool.zeroCur (4 + q) (f, n + 1) }
        else { b1 with pool.zeroCur := mdel b1.pool.zeroCur (4 + q), pool.zeroDoneG := with1 b1.pool.zeroDoneG (q * 3968 + f) }.zeroStep

/-! ## Zeroing of a revoked extent (R89, R98) -/

/-- The zeroing of an extent ends: its entry, its grants and its frames leave (R89). -/
def Blk.dropExt (b : Blk) (i : Nat) : Blk :=
  match b.extEnt i with
  | none => b
  | some e =>
    let b1 := (e.all.filter (fun g => mhas b.pool.frames g)).foldl (fun b g => b.dropGrain g) b
    let b2 := b1.modStruct (fun s => { s with exts := mdel s.exts i, grants := s.grants.filter (fun g => grantExt g.1 != i) })
    { b2 with ext.exts := mdel b2.ext.exts i, ext.revPend := b2.ext.revPend.filter (fun r => match r.2 with
        | .extent j => j != i
        | .grant j _ => j != i) }

/-- The line that a home agent zeroes next in an extent. -/
def ExtRt.zeroAt (r : ExtRt) (e : ExtEnt) (q : Nat) : Option (Nat × Nat) :=
  match mget r.zeroCur q with
  | some c => some c
  | none => ((e.granulesOn q).find? (fun g => !r.zeroed.contains g)).map (fun g => (g, 0))

/-- The slots that zeroing a line needs: within ZERO_CAP of each Husk channel that it writes, and within the migration allowance of its Grain
channel where its granule holds a frame (R98). -/
def Blk.takeZeroSlots (b : Blk) (q l : Nat) (e : ExtEnt) : Option Blk :=
  (b.takeSlots 4000 (b.field (Reg.haZeroCap q) 0 7 * b.huskSlots / 100) (b.zeroChans e.has l)).bind (fun b1 =>
    if mhas b1.pool.frames (granOf l) then b1.takeSlot (3000 + 32 * q + lineIn l % 32) (b1.migrateCap (granOf l) * b1.grainSlots / 100)
    else some b1)

/-- EXTENT_ZERO_LINE: a home agent zeroes the next line of an extent in ZEROING, in both tiers (R98). -/
def extentZeroLine (b : Blk) (q i : Nat) : Blk :=
  if b.dead || (b.extRt i).state != .zeroing || b.asleep then b
  else match b.extEnt i with
    | none => b
    | some e => match (b.extRt i).zeroAt e q with
      | none => b
      | some (g, n) =>
        let l := lineOfGran g + n
        match b.takeZeroSlots q l e with
        | none => b
        | some b0 =>
          let b1 := (b0.zeroHusk l).huskOps 2 0 (b.zeroChans e.has l)
          let b2 := if mhas b1.pool.frames g then b1.zeroGrain l else b1
          if n + 1 < 16384 then b2.modExt i (fun r => { r with zeroCur := mput r.zeroCur q (g, n + 1) })
          else
            let b3 := b2.modExt i (fun r => { r with zeroCur := mdel r.zeroCur q, zeroed := with1 r.zeroed g })
            if e.all.all (fun g => (b3.extRt i).zeroed.contains g) then b3.dropExt i else b3

end Sys2Proof.Machine
end

