-- ==== Sys2Proof/Machine/Extents.lean ====
section
/-! DEFINITION. Revocation, leases, publication and the agent registry (R89 to R101, R126, R128, R243, R244, R457). -/

namespace Sys2Proof.Machine

/-! ## Answers to whoever asked -/

/-- An answer to a fabric message or a command. -/
def Blk.answerAsker (b : Blk) (q : Nat) (w : Asker) (status : Nat) (payload : Bytes) : Blk :=
  match w with
  | .fabric src m t ty => b.answerCtrl q src.toNat m.toNat t.toNat ty status payload
  | .cmd c => b.answerCmd c status payload

/-! ## Revocation (R96, R97) -/

/-- An extent enters DRAINING, and its revocation goes to every home agent (R96): a move of its granules stops (R88) and its cleaning
passes are dropped. -/
def Blk.startDrain (b : Blk) (i : Nat) : Blk :=
  match b.extEnt i with
  | none => b
  | some e =>
    if b.dying i then b
    else
      let b1 := b.setExt i (fun r => { r with prior := r.state, state := .draining })
      let mine := fun (g : Nat) => decide (e.base ≤ g && g < e.base + e.granules)
      let stop := b1.pool.migs.filter (fun m => mine m.2.granule)
      { b1 with
        ext.revPend := (List.range 4).foldl (fun l q => with1 l (q, .extent i)) b1.ext.revPend
        pool.migs := b1.pool.migs.filter (fun m => !mine m.2.granule)
        pool.stopped := stop.foldl (fun s m => mput s m.2.granule m.2) b1.pool.stopped
        pool.cleanQ := b1.pool.cleanQ.filter (fun g => !mine g) }

/-- The lines homed at a home agent that an accepted request of some agents may still have granted, running or waiting. -/
def Blk.grantLines (b : Blk) (q : Nat) (who : Nat → Bool) : List Nat :=
  ((b.coh.txns ++ b.coh.queue.map (·.txn)).filter (fun t =>
    homeOf t.line == q && t.op.needsEntry && (t.who.eid.map who).getD false)).map (·.line)

/-- The lines of an extent that have a directory entry at a home agent, or that an accepted request may still give one. -/
def Blk.dirLines (b : Blk) (q : Nat) (e : ExtEnt) : List Nat :=
  ((b.coh.dir.filter (fun x => homeOf x.1 == q)).map (·.1) ++ b.grantLines q (fun _ => true)).dedup.filter e.has

/-- A recall of a line from its holders, or from one of them (R97 step 3); it waits its turn where the line is busy. -/
def Blk.recall (b : Blk) (l : Nat) (op : LineOp) : Blk :=
  b.beginTxn (newTxn l op .dev 0 0 ⟨0, false, b.partOf l, 0⟩ none)

/-- Every line with a property that a host caches at a home agent recalled from it, and every line that its accepted requests may still
have granted (R97 step 3). A host that the home agent treats as dead loses its lines at once, those that it owns poisoned (R126). -/
def Blk.recallHost (b : Blk) (q eid : Nat) (p : Nat → Bool) : Blk :=
  let ls := (b.heldLines q eid).filter p
  let more := (b.grantLines q (· == eid)).filter p
  if b.deadAt q eid then
    more.dedup.foldl (fun b l => b.recall l (.recallOf eid)) ((ls.filter (fun l => !more.contains l)).foldl (fun b l => b.walkEntry eid l) b)
  else (ls ++ more).dedup.foldl (fun b l => b.recall l (.recallOf eid)) b

/-- Pending publishers answered, and the pending publication gone. -/
def Blk.endPubs (b : Blk) (q i status : Nat) : Blk :=
  (b.extRt i).pubs.foldl (fun b p => b.answerAsker q p.who status []) (b.modExt i (fun r => { r with pubs := [] }))

/-- Does an EXTENT_REVOKE of an extent wait for the home agents (R319). -/
def Blk.revokeWaits (b : Blk) (i : Nat) : Bool := b.ext.revCmds.any (fun c => c.2 == i)

/-- The commands that wait for a revocation answered once every home agent has taken it (R319); the extent's pending publishers are answered
with them, since until then a management reset may still end the command without effect (R44, R97). -/
def Blk.answerRevokes (b : Blk) (i : Nat) : Blk :=
  if !b.revokeWaits i || b.ext.revPend.any (fun r => r.2 == .extent i) then b
  else
    let cs := b.ext.revCmds.filter (fun c => c.2 == i)
    cs.foldl (fun b c => b.answerCmd c.1 0 [])
      ({ b with ext.revCmds := b.ext.revCmds.filter (fun c => c.2 != i) }.endPubs (((b.extEnt i).map ExtEnt.home).getD 0) i 0x16)

/-- REVOCATION_TAKE: a home agent takes a revocation at its quiesce point, recalls the lines concerned and has the data prefetched from the
extent discarded (R97). The extent home answers the extent's pending publishers, where no command waits for the revocation. -/
def revocationTake (b : Blk) (q : Nat) (k : RevokeKey) : Blk :=
  if !b.ext.revPend.contains (q, k) then b
  else
    let b1 : Blk := { b with ext.revPend := without b.ext.revPend (q, k) }
    match k with
    | .extent i => match b1.extEnt i with
      | none => b1
      | some e =>
        let b0 := b1.dropPre (fun p => mhas p.mods i || p.lines.any (fun x => e.has x.1))
        let b2 := (b0.dirLines q e).foldl (fun b l => b.recall l .recall) b0
        (if q = e.home && !b2.revokeWaits i then b2.endPubs q i 0x16 else b2).answerRevokes i
    | .grant i eid => match b1.extEnt i with
      | none => b1
      | some e =>
        b1.recallHost q eid.toNat e.has

/-- Has an extent no accepted request, transaction or directory entry left: every home agent has ended its steps 1 and 3. -/
def Blk.drained (b : Blk) (i : Nat) : Bool :=
  match b.extEnt i with
  | none => false
  | some e =>
    !b.ext.revPend.any (fun r => r.2 == .extent i) && !b.coh.txns.any (fun t => e.has t.line) &&
    !b.queued.any (fun x => e.has x.txn.line) && !b.coh.dir.any (fun x => e.has x.1)

/-- DRAIN_END: draining ends, and the extent enters ZEROING (R97). -/
def drainEnd (b : Blk) (i : Nat) : Blk :=
  if (b.extRt i).state == .draining && b.drained i then
    b.setExt i (fun r => { r with state := .zeroing, zeroed := [], zeroCur := [] })
  else b

/-! ## Leases (R93 to R95) -/

/-- LEASE_EXPIRY: the timebase has passed a host's deadline (R94). A deadline that has not passed changes nothing, nor that of a host whose
HOST entry the lease master has seen leave (R69). -/
def leaseExpiry (b : Blk) (eid : Nat) : Blk :=
  match mget b.ext.leases eid with
  | some l =>
    if l.live && l.deadline < b.tb && !b.dead && !b.pwr.holding && mhas (b.view (.home 0)).hosts eid then b.lapse eid 1 else b
  | none => b

/-- Does a host hold a live lease, as a home agent knows it: a lease that has lapsed is live until the home agent takes the EXPIRE (R93,
R94). -/
def Blk.leaseLive (b : Blk) (q eid : Nat) : Bool :=
  !b.ext.dead.contains (q, eid) && (b.ext.expPend.contains (q, eid) || ((mget b.ext.leases eid).map (·.live)).getD false)

/-- Is a grantee of an extent dead at a home agent: a host that it takes as lapsed, or a group with no member that holds a live lease (R94). -/
def Blk.granteeDead (b : Blk) (q k : Nat) : Bool :=
  if grantGroup k then
    !(b.view (.home (Fin.ofNat 4 q))).hosts.any (fun h => h.2.group == grantGrantee k && b.leaseLive q h.1)
  else b.ext.dead.contains (q, grantGrantee k)

/-- Was a host a grantee of an extent, individually or through its group. -/
def Struct.isGrantee (s : Struct) (i eid : Nat) : Bool :=
  (s.rightsOf i eid).isSome

/-- An extent of an extent home that an expired host's lapse leaves without a live grantee starts draining (R94). -/
def Blk.expireExt (b : Blk) (q eid i : Nat) : Blk :=
  let s := b.view (.home (Fin.ofNat 4 q))
  if s.isGrantee i eid && (s.grantsOf i).all (fun g => b.granteeDead q g.1) then b.startDrain i else b

/-- The individual grants of a lapsed host leave the structure, their slots marked revoked, once every home agent has taken its EXPIRE; a
home agent that has taken it refuses the host whatever its grants (R94, R97). A grant that a running commit adds is none of them. -/
def Blk.dropGrants (b : Blk) (eid : Nat) : Blk :=
  if b.ext.expPend.any (fun x => x.2 == eid) then b
  else
    ((b.str.run.grants.filter (fun g => !grantGroup g.1 && grantGrantee g.1 == eid)).map (·.1)).foldl (fun b k =>
      (b.modLive (fun _ => false) (fun c => inPhaseA c.base.grants c.img.delGrants c.img.grants k)
        (fun c => inPhaseB c.base.grants c.img.delGrants c.img.grants k) (fun s => { s with grants := mdel s.grants k })).modExt
        (grantExt k) (fun r => { r with revoked := with1 r.revoked eid })) b

/-- EXPIRE_TAKE: a home agent takes EXPIRE at its quiesce point (R94, R97, R126). -/
def expireTake (b : Blk) (q eid : Nat) : Blk :=
  if !b.ext.expPend.contains (q, eid) then b
  else
    let b1 : Blk := { b with ext.expPend := without b.ext.expPend (q, eid), ext.dead := with1 b.ext.dead (q, eid) }
    let b2 := b1.resolveDead q eid
    let b3 := (b2.heldLines q eid).foldl (fun b l => b.walkEntry eid l) b2
    (((b3.str.run.exts.filter (fun e => e.2.home == q)).map (·.1)).foldl (fun b i => b.expireExt q eid i) b3).dropGrants eid

/-- A lease started for a host from now (R93, R95): a host that was lapsed is so no longer, at any home agent. A home agent that has still to
take its EXPIRE takes it before. -/
def Blk.startLease (b : Blk) (eid : Nat) : Blk :=
  let b1 := (List.range 4).foldl (fun b q => expireTake b q eid) b
  let b2 := b1.setLease eid ⟨true, false, b.tb + b1.leaseNs eid⟩
  { b2 with ext.dead := b2.ext.dead.filter (fun e => e.2 != eid) }

/-- The deadline of a host's live lease; 0 where no lease is live (R244). -/
def Blk.deadlineOf (b : Blk) (eid : Nat) : Nat :=
  match mget b.ext.leases eid with
  | some l => if l.live then l.deadline else 0
  | none => 0

/-- The pair status of a control message about an extent (R342, R354); 0 where none holds. -/
def Blk.pairExt (b : Blk) (q : Nat) (i : Option Nat) : Nat :=
  ((i.bind (mget (b.view (.home (Fin.ofNat 4 q))).exts)).map b.pairStatus).getD 0

/-- A control message of a fabric source that has come to its target (R35, R63, R235, R243, R291): about: the extent that it names. DESIGN
CHOICE (log entry 87): its refusals are counted neither in HA[q]_REFUSE_CNT nor in REVOKED_REFUSE, which R103 gives for refused pool
accesses. -/
def Blk.ctrlIn (b : Blk) (q : Nat) (r : Req) (ty len : Nat) (bad sure : Bool) (about : Option Nat) (go : Blk → Blk) : Blk :=
  let src := r.src.toNat
  let x := b.reqIn q src ty [len] sure
  let answer := fun (b : Blk) (st : Nat) =>
    b.answerCtrl q src r.msgId.toNat r.traceId.toNat ty st (if ty = 0xD0 then toLe 8 (b.deadlineOf src) else [])
  if !x.1 then x.2
  else if x.2.pwr.holding then (answer x.2 0xB2).flag Reg.pwrErr 2
  else if r.reservedSet || bad then answer x.2 0x60
  else if x.2.pairExt q about ≠ 0 then answer x.2 (x.2.pairExt q about)
  else if !mhas (x.2.view (.home (Fin.ofNat 4 q))).hosts src then answer x.2 0x10
  else go (x.2.traceRx q src ty r.msgId.toNat r.traceId.toNat 0)

/-- Lease at the lease master (R93, R95, R243, R244): the renewal of a live lease sends no Answer. -/
def leaseMsg (b : Blk) (r : Req) (renew : Bool) : Blk :=
  let src := r.src.toNat
  b.ctrlIn 0 r 0xD0 0 false true none (fun b =>
    let ans := fun (b : Blk) (st deadline : Nat) => b.answerCtrl 0 src r.msgId.toNat r.traceId.toNat 0xD0 st (toLe 8 deadline)
    let l : Lease := (mget b.ext.leases src).getD ⟨false, false, 0⟩
    if l.lapsed then ans b 0x1A 0
    else if l.live && l.deadline < b.tb then ans (b.lapse src 1) 0x1A 0
    else if renew then
      if l.live then b.setLease src { l with deadline := b.tb + b.leaseNs src }
      else
        let b1 := b.startLease src
        ans b1 0 (b.tb + b.leaseNs src)
    else if l.live then ans (b.lapse src 2) 0 0
    else ans b 0x11 0)

/-! ## Publication (R99 to R101, R457) -/

/-- Who publishes: a fabric host, a VF for its partition, or PF0. -/
inductive PubWho | host (eid : Nat) | vf (part : Nat) | pf0
  deriving DecidableEq, Repr

/-- The checks of R354 and R457 on an extent, before the extent home decides; 0 where they pass. -/
def Blk.pubCheck (b : Blk) (w : PubWho) (i : Nat) (write : Bool) : Nat :=
  let q := ((b.extEnt i).map ExtEnt.home).getD 0
  let s := b.view (.home (Fin.ofNat 4 q))
  let h := match w with | .host e => b.hostStatus q e | _ => 0
  if b.pairExt q (some i) ≠ 0 then b.pairExt q (some i)
  else if h ≠ 0 then h
  else match mget s.exts i with
    | none => 0x12
    | some e =>
      let ok := match w with
        | .host eid => match s.rightsOf i eid with
          | some r => if write then r.write else r.read
          | none => false
        | .vf p => e.part == p
        | .pf0 => e.part == 0 || !(s.bound e.part).isolate
      if ok then 0 else 0x23

/-- A Publish decided by the extent home (R99): the status to answer at once, or none where it waits for the settle window. -/
def Blk.pubDecide (b : Blk) (w : Asker) (i : Nat) (expected new modCount : DWord) (digest : Bytes) : Option Nat × Blk :=
  let r := b.extRt i
  let q := ((b.extEnt i).map ExtEnt.home).getD 0
  match r.state with
  | .init => (some 0x1B, b)
  | .draining | .zeroing => (some 0x16, b)
  | .active =>
    if r.version != expected then (some 0x21, b)
    else if r.modCount != modCount then (some 0x22, b)
    else (none, b.setExt i (fun r => { r with
      state := .sealing, newVersion := new, pubs := [⟨w, digest⟩]
      settleEnd := b.tb + b.field (Reg.haPublishSettle q) 0 10 * 1000 }))
  | .sealing =>
    if r.version != expected || r.newVersion != new || 16 ≤ r.pubs.length then (some 0x21, b)
    else (none, b.modExt i (fun r => { r with pubs := r.pubs ++ [⟨w, digest⟩] }))
  | _ => (some 0x21, b)

/-- An Unpublish decided (R101): its answer. -/
def Blk.unpubDecide (b : Blk) (i : Nat) (expected : DWord) : Nat × Blk :=
  let r := b.extRt i
  match r.state with
  | .init => (0x1B, b)
  | .draining | .zeroing => (0x16, b)
  | .published => if r.version = expected then (0x20, b.setExt i (fun r => { r with state := .active })) else (0x21, b)
  | _ => (0x24, b)

/-- The payload of a Query answer (R101, R244). -/
def Blk.queryBytes (b : Blk) (i : Nat) : Bytes :=
  let r := b.extRt i
  let z := r.state == .init
  toLe 1 r.state.code ++ zeros 7 ++ toLe 8 (if z then 0 else r.version.toNat) ++ toLe 8 (if z then 0 else r.modCount.toNat) ++
    zeros 8 ++ fit 32 r.digest

/-- The quadrant from which an extent's answers are sent. -/
def Blk.extHome (b : Blk) (i : Nat) : Nat := ((b.extEnt i).map ExtEnt.home).getD 0

/-- Publish from a fabric host (R99, R243). -/
def publishMsg (b : Blk) (r : Req) (i : Nat) (expected new modCount : DWord) (digest : Bytes) : Blk :=
  let src := r.src.toNat; let q := b.extHome i
  b.ctrlIn q r 0xD2 64 (expected == new || 262143 < i) false (some i) (fun b =>
    let w := Asker.fabric r.src r.msgId r.traceId 0xD2
    let st := b.pubCheck (.host src) i true
    if st ≠ 0 then b.answerAsker q w st []
    else match b.pubDecide w i expected new modCount digest with
      | (some st, b1) => b1.answerAsker q w st []
      | (none, b1) => b1)

/-- Unpublish from a fabric host (R101, R243). -/
def unpublishMsg (b : Blk) (r : Req) (i : Nat) (expected : DWord) : Blk :=
  let src := r.src.toNat; let q := b.extHome i
  b.ctrlIn q r 0xD3 8 (262143 < i) false (some i) (fun b =>
    let w := Asker.fabric r.src r.msgId r.traceId 0xD3
    let st := b.pubCheck (.host src) i true
    if st ≠ 0 then b.answerAsker q w st []
    else
      let x := b.unpubDecide i expected
      x.2.answerAsker q w x.1 [])

/-- Query from a fabric host (R101, R243, R244). -/
def queryMsg (b : Blk) (r : Req) (i : Nat) : Blk :=
  let src := r.src.toNat; let q := b.extHome i
  b.ctrlIn q r 0xD4 0 (262143 < i) false (some i) (fun b =>
    let w := Asker.fabric r.src r.msgId r.traceId 0xD4
    let st := b.pubCheck (.host src) i false
    b.answerAsker q w st (if st = 0 then b.queryBytes i else zeros 64))

/-- SETTLE_WINDOW_CLOSE: the window has ended, and the extent home publishes or answers every publisher with a conflict (R100). An
extent that a restored checkpoint shows SEALING has no publisher here, and goes back to ACTIVE. -/
def settleWindowClose (b : Blk) (i : Nat) : Blk :=
  let r := b.extRt i
  let q := b.extHome i
  if r.state != .sealing || b.tb < r.settleEnd || b.dead then b
  else match r.pubs with
    | [] => b.setExt i (fun r => { r with state := .active })
    | p :: rest =>
      if rest.all (fun x => x.digest == p.digest) then
        (b.setExt i (fun r => { r with state := .published, version := r.newVersion, digest := p.digest })).endPubs q i 0x20
      else ((b.setExt i (fun r => { r with state := .active })).endPubs q i 0x21).flag (Reg.haErr q) 1

/-! ## The agent registry (R108, R128) -/

/-- The lowest free agent index (R108). -/
def Blk.freeIndex (b : Blk) : Nat :=
  ((List.range (b.coh.agents.length + 1)).find? (fun i => !b.coh.agents.any (fun a => a.2.index == i))).getD 0

/-- An agent bound to the lowest free index, past some that are kept for others, and registered (R108), which is traced (R432). -/
def Blk.bindAgent (b : Blk) (eid : Nat) (past : Nat := 0) : Blk :=
  let free := (List.range (b.coh.agents.length + past + 1)).filter (fun i => !b.coh.agents.any (fun a => a.2.index == i))
  let i := free.getD past b.freeIndex
  { b with coh.agents := mput b.coh.agents eid ⟨i, true, false⟩ }.trace
    { source := 11, event := 2, part := b.hostPart eid, unit := 28, eid := eid, a := i }

/-- Is a walk for an agent still to be taken or running at some home agent (R128). -/
def Blk.walking (b : Blk) (eid : Nat) : Bool :=
  b.coh.walks.any (fun w => w.eid == eid) || b.coh.suspendPend.any (fun s => s.2 == eid)

/-- AgentRegister at the registry (R128, R243, R244). -/
def agentRegisterMsg (b : Blk) (r : Req) : Blk :=
  let src := r.src.toNat
  b.ctrlIn 0 r 0xD6 0 false false none (fun b =>
    let ans := fun (b : Blk) (st ix : Nat) => b.answerCtrl 0 src r.msgId.toNat r.traceId.toNat 0xD6 st (toLe 2 ix ++ zeros 6)
    let l : Lease := (mget b.ext.leases src).getD ⟨false, false, 0⟩
    let agent := ((mget (b.view (.home 0)).hosts src).map (·.agent)).getD false
    match if agent then mget b.coh.agents src else none with
    | none => ans b 0x15 0
    | some a =>
      if l.lapsed then ans b 0x1A 0
      else if !l.live then ans b 0x11 0
      else if b.walking src then ans b 0x18 0
      else
        let b1 : Blk := { b with
          coh.agents := mput b.coh.agents src { a with registered := true, suspended := false }
          coh.suspended := b.coh.suspended.filter (fun s => s.2 != src)
          coh.timeouts := (List.range 4).foldl (fun t q => mdel t (q * 65536 + src)) b.coh.timeouts }
        let b2 := if b1.ckptOn then b1.ckptAgentAt src ⟨a.index, true, false⟩ else b1
        ans (b2.trace { source := 11, event := 2, part := b.hostPart src, unit := 28, eid := src, a := a.index }) 0 a.index)

end Sys2Proof.Machine
end

