-- ==== Sys2Proof/Machine/Integrity.lean ====
section
/-! DEFINITION. Line reads of the channels, patrol scrub, row sparing, rebuild, the checker test mode, and the release and restore of
a Husk channel (R110, R345 to R352). -/

namespace Sys2Proof.Machine

/-! ## Reads (R339, R110) -/

/-- Is a channel-local line one of the channel's C bytes (R78, R80). -/
def Blk.inLch (b : Blk) (line : Nat) : Bool := line < lchOf b.pool.capGib

/-- HUSK_LINE_READ: a Husk channel completes a line read and acts on the outcome of the decoder (R339). A read that needs the other
copy of a MIRROR pair compares the two (R343). A lost channel is never read (R348). -/
def huskLineRead (b : Blk) (c line rank : Nat) (lanes : List Nat) : Blk :=
  if b.dead || !b.str.loaded || !b.stored c line || !b.inLch line then b
  else (b.readAt c line rank lanes (b.partOf (b.lineAtChan c line))).2

/-- A directory reserve line that cannot be corrected: SnpSet goes to every registered agent, and requests for the set wait until all
have answered (R110). -/
def Blk.loseSet (b : Blk) (q s : Nat) : Blk :=
  let ags := (b.coh.agents.filter (fun a => a.2.registered && !b.deadAt q a.1)).map (·.1)
  if b.coh.setLost.any (fun x => x.home == q && x.set == s) then b
  else if ags.isEmpty then
    ({ b with coh.dir := b.coh.dir.filter (fun e => dirSet e.1 != (q, s)) }.flag (Reg.haCohErr q) 2).log 0x04 (28 + q) 0 s q
  else
    let id := if b.coh.nextSnp % 65536 = 0xFFFF then 0 else b.coh.nextSnp % 65536
    let b1 := ags.foldl (fun b a => (b.sendOwn q { ty := 0x83, dst := a, msgId := 0, traceId := 0,
                                                   arg := argAt q 0 ||| argAt s 2 ||| argAt id 48 }).2) b
    { b1 with coh.nextSnp := (id + 1) % 65536, coh.setLost := b1.coh.setLost ++ [⟨q, s, id, ags.map (fun a => (a, b.tb))⟩] }

/-- A Grain line that holds no granule's line read with errors: counted, and nothing is delivered. -/
def Blk.readGrainOther (b : Blk) (ch line : Nat) (lanes : List Nat) : Blk :=
  match decodeLanes lanes none with
  | .clean => b
  | .corr lane => (b.grainFix ch line).logReserve 0x07 ch line (some lane)
  | .unc => b.grainUnc ch line

/-- A line of the default log ring found uncorrectable: it has no other copy, so it is poisoned, as any other Grain line is (R340, R428). -/
def Blk.ringLost (b : Blk) (ch line n : Nat) : Blk :=
  (b.logReserve 0x0A ch line none).ringPoison n

/-- A Grain channel's read of a channel-local line for a partition, 0 for scrub, with errors in some lanes (R299, R339, R110). The flag tells
that it was uncorrectable. -/
def Blk.readGrainAt (b : Blk) (ch line : Nat) (lanes : List Nat) (scrub : Bool) : Bool × Blk :=
  let unc := decodeLanes lanes none = .unc
  let other := b.readGrainOther ch line lanes
  match grainHolds ch line with
  | .reserve q s => (unc, if unc then other.loseSet q s else other)
  | .frame q f n =>
    match b.granInFrame q f with
    | some g =>
      let l := lineOfGran g + n
      if b.inGrain l then b.readGrainCopy l lanes (if scrub then 0 else b.partOf l) else (unc, other)
    | none => (unc, if unc && q = 0 && f < 2 then other.ringLost ch line (16384 * f + n) else other)

/-- GRAIN_LINE_READ: a Grain channel completes a line read and acts on the outcome of the decoder (R339, R110, R352). -/
def grainLineRead (b : Blk) (ch line : Nat) (lanes : List Nat) : Blk :=
  if b.dead || !b.str.loaded || 2097152 ≤ line then b else (b.readGrainAt ch line lanes false).2

/-! ## Scrub (R345, R346) -/

/-- A check line of a stripe row that disagrees with its data lines rewritten from them, in an operation of partition 0 (R299, R346). -/
def Blk.parityFix (b : Blk) (c line : Nat) : Blk :=
  if allZero (b.checkDelta c line) then b
  else (((b.setDelta c line []).huskOp c 2 0).flag (Reg.hskErr c) 5).log 0x0F (36 + c) 0 line c (b.injFlagAt c line)

/-- A read of patrol scrub, an operation of partition 0 (R299, R345). The flag tells that it was uncorrectable. -/
def Blk.scrubOne (b : Blk) (c line : Nat) (lanes : List Nat) : Bool × Blk :=
  if b.stored c line then (b.huskOp c 1 0).readAt c line (rankAt c line) lanes 0 else (false, b)

/-- The other channels of the stook of a channel read by scrub at its line; the flag tells that a codeword was uncorrectable. -/
def Blk.scrubRest (b : Blk) (c line : Nat) : Bool × Blk :=
  (b.stookOf c).1.foldl (fun x k =>
    if k = c then x
    else
      let y := x.2.scrubOne k line []
      (x.1 || y.1, y.2)) (false, b)

/-- Scrub of a Husk line: its own read, then in a stook the rest of the row. MIRROR copies that have decoded are compared, and check lines are
held against data lines that are all stored and have decoded (R343, R346). -/
def Blk.scrubHusk (b : Blk) (c line : Nat) (lanes : List Nat) : Blk :=
  let x := b.scrubOne c line lanes
  let y := x.2.scrubRest c line
  if b.mode = 0 || x.1 || y.1 then y.2
  else if b.mode = 1 then
    match huskHolds 1 c line with
    | .data l | .mirror l => y.2.compareMirror l 0
    | _ => y.2
  else if (y.2.rowData c line).all (fun d => y.2.stored d.1 line) then
    (b.stookOf c).1.foldl (fun b k => if b.stored k line then b.parityFix k line else b) y.2
  else y.2

/-- Is the next read of a scrub due (R345): its reads are spread evenly over a period of some ns in which it reads n lines. -/
def scrubDue (now last period n : Nat) : Bool := (now - last) * n ≥ period && period ≠ 0

/-- SCRUB_READ: patrol scrub reads and checks its next line or stripe when it is due; a pass that ends counts. A period of 0 stops scrub, and
in HOLD it pauses (R345, R346, R399). -/
def scrubRead (b : Blk) (t : ScrubTarget) (lanes : List Nat) : Blk :=
  if b.dead || !b.str.loaded || b.asleep then b
  else match t with
    | .husk cc =>
      let c := cc.val
      let n := (b.husk c).scrub
      if !scrubDue b.tb (b.husk c).scrubAt (b.field (Reg.hskCfg c) 0 8 * 3600000000000) (lchOf b.pool.capGib) || (b.husk c).lost || !b.inLch n
      then b
      else
        let b1 := if b.stored c n then b.scrubHusk c n lanes else b
        if b.inLch (n + 1) then b1.modHusk c (fun h => { h with scrub := n + 1, scrubAt := b.tb })
        else (b1.modHusk c (fun h => { h with scrub := 0, scrubAt := b.tb })).incr (Reg.hskScrubPassCnt c)
    | .grain qq =>
      let q := qq.val
      let n := tget (fun _ => 0) b.chans.scrubG q
      if !scrubDue b.tb (tget (fun _ => 0) b.chans.scrubGAt q) (b.field (Reg.grnCfg q) 0 8 * 60000000000) (32 * 2097152) then b
      else
        let ch := 32 * q + n % 32
        let x := b.readGrainAt ch (n / 32) lanes true
        let b1 := x.2
        let b2 := match grainHolds ch (n / 32) with
          | .frame q f i => match b1.granInFrame q f with
            | some g => if x.1 then b1 else b1.compareGrain (lineOfGran g + i) 0
            | none => b1
          | _ => b1
        let last := n + 1 = 32 * 2097152
        let b3 : Blk := { b2 with
          chans.scrubG := tset (fun _ => 0) b2.chans.scrubG q (if last then 0 else n + 1)
          chans.scrubGAt := tset (fun _ => 0) b2.chans.scrubGAt q b.tb }
        if last then b3.incr (Reg.grnScrubPassCnt q) else b3

/-! ## Row sparing (R352) -/

/-- ROW_SPARE: a row that has reached its error threshold is copied line by line, each decoded under R339, to a spare row, and
redirected; with no spare row left nothing more is spared on the channel. -/
def rowSpare (b : Blk) (ch row : Nat) : Blk :=
  let g := b.grain ch
  let q := ch / 32
  if b.dead || !b.str.loaded || b.asleep || !g.pending.contains row then b
  else if 1024 ≤ g.spared.length then
    (b.modGrain ch (fun g => { g with pending := without g.pending row })).flag (Reg.grnErr q) 6
  else
    let b1 := (List.range 64).foldl (fun b i => (b.readGrainAt ch (row * 64 + i) [] false).2) b
    let b2 := ((b1.modGrain ch (fun g => { g with
      pending := without g.pending row, spared := g.spared ++ [row],
      corr := g.corr.filter (fun e => e.1 != row) })).flag (Reg.grnErr q) 5).incr (Reg.grnSpareCnt q)
    if (b2.grain ch).spared.length = 1024 then b2.flag (Reg.grnErr q) 6 else b2

/-! ## Rebuild (R350) -/

/-- A channel-local line written on a channel that is being rebuilt, from the surviving copy or the stripe; a line with no surviving
copy is written poisoned. -/
def Blk.rebuildAt (b0 : Blk) (c line : Nat) : Blk :=
  let x := b0.readStook c line 0
  let b := (if x.2.isEmpty then x.1 else x.1.settleUnc c line x.2 0).huskOp c 2 0
  let lost := fun (b : Blk) (cp : Copy) (l : Nat) =>
    if b.inGrain l then b.putCopy cp l (b.copyBytes .grain l) (b.copyMeta .grain l)
    else b.putCopy cp l (zeros 128) { poison := true, wepoch := (b.copyMeta cp l).wepoch + 1 }
  match huskHolds b.mode c line with
  | .data l =>
    if b.mode = 1 then
      if b.aliveB l then b.copyOver c line else lost b .huskA l
    else if b.huskAlive l then b.clearAt c line else (lost b .huskA l).freshChecks l
  | .mirror l => if b.aliveA l then b.copyOver c line else lost b .huskB l
  | _ => b.clearAt c line

/-- Is a transaction running on the line that a channel-local line holds. -/
def Blk.busyAt (b : Blk) (c line : Nat) : Bool :=
  match huskHolds b.mode c line with
  | .data l | .mirror l => b.busy l
  | _ => false

/-- The key of a rebuild's slots on a channel in the running 10 µs window. -/
def rebuildKey (c : Nat) : Nat := 6000 + c

/-- The line slots that a rebuild takes on some channels: of its share of the window, or one that no other operation takes (R350). While the
timebase is frozen, only such a slot, which is not counted (R419). None where a channel has neither left. -/
def Blk.takeRebuild (b : Blk) (cap : Nat) : List Nat → Option Blk
  | [] => some b
  | c :: t =>
    let n := fun (k : Nat) => tget (fun _ => 0) b.pool.used k
    if b.frozen || n (rebuildKey c) < cap || n (opsKey c) < b.huskSlots then
      { b with pool.used := tmod (fun _ => 0) b.pool.used (rebuildKey c) (· + 1) }.takeRebuild cap t
    else none

/-- REBUILD_LINE: a rebuild writes its next channel-local line as one transaction, within its share of the slots of every channel of the stook,
and moves its cursor on; at Lch it has ended (R350). In HOLD it pauses, as everything that needs the DRAM (R399). -/
def rebuildLine (b : Blk) (c : Nat) : Blk :=
  let h := b.husk c
  if b.dead || !b.str.loaded || b.asleep || !h.rebuilding || b.busyAt c h.cursor then b
  else
    match b.takeRebuild (b.field (Reg.hskCfg c) 8 7 * b.huskSlots / 100) ((b.stookOf c).1.filter (fun k => !(b.husk k).lost)) with
    | none => b
    | some b0 =>
      let b1 := (b0.rebuildAt c h.cursor).modHusk c (fun h => { h with cursor := h.cursor + 1 })
      if (b1.husk c).lost || b.inLch (h.cursor + 1) then b1
      else (b1.modHusk c (fun h => { h with rebuilding := false, void := none })).flag (Reg.hskErr c) 8

/-! ## The checker test mode (R347) -/

/-- A pattern laid over a stored codeword with some information bytes, over the pattern that stands on it: FLIP adds BUF to it, DATA_ONLY makes
its data the enciphered ones of BUF, and CHECK_ONLY its check symbols those of BUF. -/
def injectPattern (mode : Nat) (old info sealed buf : Bytes) : Bytes :=
  match mode with
  | 0 => xorBytes old (fit 160 buf)
  | 1 => xorBytes (info.take 128) (fit 128 sealed) ++ sl old 128 32
  | _ => old.take 136 ++ xorBytes (fit 24 (Config.checkSymbols info)) (fit 24 (sl buf 136 24))

/-- Is an error pattern a codeword itself, which the decoder does not see: its check symbols are those of its information bytes, and it
touches four or more lanes, as every codeword but 0 does, whose symbols differ in 25 places (R336). -/
def isCodeword (p : Bytes) : Bool := 4 ≤ (lanesOf p).length && fit 24 (Config.checkSymbols (p.take 136)) == p.drop 136

/-- The information bytes of the check line at a channel-local line: P is the sum of the data lines, and by how much it differs from it; the
manual does not give Q (R338). -/
def Blk.checkInfo (b : Blk) (c line ix : Nat) : Bytes :=
  let ds := b.rowData c line
  ((ds.zip (List.range ds.length)).foldl (fun acc d => xorBytes acc (checkTerm ix d.2 (b.copyInfo .huskA d.1.2))) (zeros 136)).zipWith
    (· ^^^ ·) (b.checkDelta c line)

/-- A pattern stored: one that is a codeword changes what the codeword says, and any other stands as an error until the codeword is read or
written. What the stripe then gives for lines that no channel stores follows (R349). k: the key of the codeword; at_: its channel and
channel-local line, for a Husk copy. -/
def Blk.storePattern (b : Blk) (k l : Nat) (copy : Option Copy) (at_ : Nat × Nat) (p : Bytes) : Blk :=
  if isCodeword p then
    let b1 : Blk := { b with pool.inj := mdel b.pool.inj k }
    match copy with
    | some .huskA => (b1.flipData at_.1 at_.2 l p).settleRow at_.1 at_.2 []
    | some c => b1.flipCopy c l p
    | none => (b1.setDelta at_.1 at_.2 (xorBytes (b1.checkDelta at_.1 at_.2) (p.take 136))).settleRow at_.1 at_.2 []
  else { b with pool.inj := if allZero p then mdel b.pool.inj k else mput b.pool.inj k p }

/-- The copy that INTEGRITY_INJECT's TIER and COPY name, as the copy's number; none where the table does not allow it. -/
def Blk.injectCopy (b : Blk) (l tier copy : Nat) : Option Nat :=
  let p := b.pos l
  if tier = 1 then (if copy = 0 && b.inGrain l then some 2 else none)
  else match copy, b.mode with
    | 0, _ => if b.stored p.1 p.2 then some 0 else none
    | 1, 1 => if b.stored (p.1 + 1) p.2 then some 1 else none
    | 1, 2 | 1, 3 => if b.stored ((checkChans b.mode (homeOf l) p).getD 0 0) p.2 then some 3 else none
    | 2, 3 => if b.stored ((checkChans b.mode (homeOf l) p).getD 1 0) p.2 then some 4 else none
    | _, _ => none

/-- INTEGRITY_INJECT executed on a command (R347); it waits while a transaction runs on the line. -/
def integrityInject (b : Blk) (c : CmdId) : Blk :=
  match b.cmd c with
  | none => b
  | some r =>
    let addr := r.arg 0x08 8; let tier := r.arg 0x10 1; let copy := r.arg 0x11 1; let mode := r.arg 0x12 1; let buf := r.arg 0x18 8
    let l := lineOf addr
    if 2 ≤ tier || 3 ≤ copy || 3 ≤ mode then b.answerCmd c 0x71 []
    else if addr % 128 ≠ 0 || buf % 128 ≠ 0 || 2 ^ 48 ≤ addr || 2 ^ 48 ≤ buf + 160 then b.answerCmd c 0x96 []
    else
      let st := [l, lineOf buf, lineOf buf + 1].map (fun x => (b.check .dev .read x).status)
      match st.find? (· ≠ 0) with
      | some s => b.answerCmd c s []
      | none =>
        let i := (b.check .dev .read l).ext
        if (b.extRt i).state != .active then b.answerCmd c 0x96 []
        else match b.injectCopy l tier copy with
          | none => b.answerCmd c 0x96 []
          | some n =>
            if b.busy l then b.startCmd c
            else
              let cp : Option Copy := match n with | 0 => some .huskA | 1 => some .huskB | 2 => some .grain | _ => none
              let at_ := (if n < 3 then (b.pos l).1 else (checkChans b.mode (homeOf l) (b.pos l)).getD (n - 3) 0, (b.pos l).2)
              let key := if n < 3 then l * 8 + n else b.checkKey at_.1 at_.2 (n - 3)
              let x := b.fetch (lineOf buf); let y := x.1.fetch (lineOf buf + 1)
              let bytes := x.2.1 ++ y.2.1.take 32
              let b := y.1
              let old := (mget b.pool.inj key).getD (zeros 160)
              let info := match cp with | some x => b.copyInfo x l | none => b.checkInfo at_.1 at_.2 (n - 3)
              let enc := match cp with | some x => b.sealLine l (b.copyMeta x l).slot (bytes.take 128) | none => b.sealLine l 64 (bytes.take 128)
              let b1 := b.storePattern key l cp at_ (injectPattern mode old info enc bytes)
              let name := if n < 3 then l else checkName at_.1 at_.2
              let inj := (without b1.pool.injected name) ++ [name]
              let b2 : Blk := { b1 with pool.injected := inj.drop (inj.length - 16) }
              b2.answerCmd c 0 (toLe 1 (b2.lineMeta l).wepoch.toNat)

/-! ## Release and restore (R80, R349, R351) -/

/-- The speed bin of a value in MT/s: the index of the highest bin at or below it. -/
def speedBin (mts : Nat) : Option Nat := ((List.range 5).reverse).find? (fun i => speedBins.getD i 0 ≤ mts)

/-- The most that a channel's DIMMs allow (R80): 6400 for one DIMM, 5600 for two, and no more than either SPD gives. -/
def dimmsMts (ds : List Dimm) : Nat :=
  ds.foldl (fun m d => min m d.maxMts) (if ds.length ≤ 1 then 6400 else 5600)

/-- Are a channel's DIMMs accepted (R80). -/
def dimmsOk (ds : List Dimm) : Bool :=
  (ds.length == 1 || ds.length == 2) && ds.all (fun d => d.registered && 32 ≤ d.gib && d.gib ≤ 256) && (speedBin (dimmsMts ds)).isSome

/-- The capacity of a channel's DIMMs, GiB. -/
def dimmsGib (ds : List Dimm) : Nat := (ds.map (·.gib)).sum

/-- How many channels of a channel's stook do not store all their lines. -/
def Blk.stookGone (b : Blk) (c : Nat) : Nat := ((b.stookOf c).1.filter (fun k => (b.husk k).lost || (b.husk k).rebuilding)).length

/-- CHANNEL_RELEASE executed on a command (R351): refused where the stook would no longer serve every line; the channel's DIMM reset is then
driven low. -/
def channelRelease (b : Blk) (cm : CmdId) : Blk :=
  match b.cmd cm with
  | none => b
  | some r =>
    let c := r.arg 0x08 1
    let h := b.husk c
    if 23 < c then b.answerCmd cm 0x71 []
    else if (b.stookOf c).2 < b.stookGone c + b2n (!h.lost && !h.rebuilding) then b.answerCmd cm 0x96 []
    else
      let b1 := if h.lost then b.modHusk c (fun h => { h with cause := 4 }) else b.loseChannel c 4
      { b1 with pins.drst := with1 b1.pins.drst c }.answerCmd cm 0 []

/-- CHANNEL_RESTORE executed on a command, with what SPD and training gave (R351): refused, or the rebuild starts. Training has released the
DIMM reset; a channel that stays lost has it low again where it was. -/
def channelRestore (b : Blk) (cm : CmdId) (ds : List Dimm) (trained : Bool) : Blk :=
  match b.cmd cm with
  | none => b
  | some r =>
    let c := r.arg 0x08 1
    if 23 < c then b.answerCmd cm 0x71 []
    else if !(b.husk c).lost || !trained || !dimmsOk ds || dimmsGib ds < b.pool.capGib || dimmsMts ds < speedBins.getD b.pool.speed 4800
    then b.answerCmd cm 0x96 []
    else
      let b1 := b.modHusk c (fun h => { h with trained := true, up := true, lost := false, cause := 0, dimms := ds, rebuilding := true,
                                               cursor := 0 })
      { b1 with pins.drst := without b1.pins.drst c }.answerCmd cm 0 []

end Sys2Proof.Machine
end

