-- ==== Sys2Proof/Machine/Pair.lean ====
section
/-! DEFINITION. The pair: roles, Heartbeats, fencing, the witness's orders, the gap and the rejoining of a standby (R353 to R364,
R420). -/

namespace Sys2Proof.Machine

/-! ## Roles (R357, R363, R367) -/

/-- ROLE of HUB_PAIR_STATE (R367). -/
def Pair.code (p : Pair) : Nat :=
  if p.role = 0 then 0
  else if p.fenced then 4
  else if p.role = 1 then (if p.solo then 5 else 1)
  else if p.inSync then 2 else 3

/-- ROLE of the controller's Heartbeats (R357, R399). -/
def Blk.hbRole (b : Blk) : Nat :=
  if b.pair.fenced then 3
  else if b.pair.role = 1 then 1
  else if b.pair.inSync && !b.pwr.holding then 2 else 3

/-- What the PAIR_STATE pins encode: 00 unpaired, 01 primary, 10 standby, 11 a controller that is fenced or not eligible (R363, R448). -/
def Blk.pinCode (b : Blk) : Nat :=
  if b.pair.role = 0 then 0 else if b.hbRole = 3 then 3 else if b.pair.role = 1 then 1 else 2

/-- The pins driven anew; until a gap ends they keep the value from before it. -/
def Blk.setPairPins (b : Blk) : Blk := if b.pair.gap || !b.str.loaded then b else { b with pair.pins := b.pinCode }

/-- The controller becomes fenced (R360): every write that waits on a mirror is refused PAIR_FENCED. -/
def Blk.becomeFenced (b : Blk) : Blk :=
  if b.pair.role = 0 || b.pair.fenced then b
  else
    let b1 : Blk := { b with pair.fenced := true, pair.copy := none }
    (((b1.endMirrors 0x93).flag Reg.hubPairErr 1).trace { source := 12, event := 3, unit := 112, a := b.pair.term }).setPairPins

/-- The role that the PAIR body gives at a load (R364): a standby is resyncing, a primary mirrors. -/
def Blk.loadPair (b : Blk) : Blk :=
  { b with pair := { b.pair with
      role := b.str.run.pair.role, solo := false, fenced := false, gap := false, inSync := false, heard := false, sweep := [], copy := none,
      poisons := [], witSince := b.tb, ckptAt := b.tb } }.setPairPins

/-- The role that the PAIR body of a commit gives: ROLE 2 makes a resyncing standby, fenced or in a gap though it was (R360, R364); another
ROLE frees no fence and ends no gap (R360, R361), and leaves a controller as it is that has the role already. old: the PAIR body before;
body: has the delta one. -/
def Blk.setPair (b : Blk) (old : PairCfg) (body : Bool) : Blk :=
  let c := b.str.run.pair
  if !body then b
  else if c.role = 2 then
    if b.pair.role = 2 && !b.pair.fenced && c == old then b
    else b.loadPair
  else if b.pair.role = c.role then b
  else { b with pair := { b.pair with role := c.role, solo := false, inSync := false, heard := false, copy := none, witSince := b.tb,
                                      ckptAt := b.tb } }.setPairPins

/-! ## Heartbeats (R357) -/

/-- The header of the checkpoint as the hub reads it, where it is valid: MAGIC and CRC (R356). -/
def Blk.ckptHead (b : Blk) : Option Bytes × Blk :=
  let x := b.hubFetch (lineOf b.ckptBase)
  ((x.1.map (·.take 64)).filter (fun h => le h 0 4 == 0x54504B43 && le h 0x3C 4 == (crc32 (h.take 60)).toNat), x.2)

/-- Does a valid header say IN_SYNC (R356, R364). -/
def headInSync (h : Bytes) : Bool := le h 4 2 == 1 && bit (le h 6 2) 0

/-- A standby that reads IN_SYNC = 1 is in sync (R364). DEDUCED (log entry 76): the header is one that its peer has written since it became a
standby, or left HOLD (R401). -/
def Blk.syncCheck (b : Blk) : Blk :=
  if b.pair.role = 2 && !b.pair.inSync && !b.pair.fenced && b.pair.heard && (b.extEnt b.str.run.pair.ckptExt).isSome then
    let h := b.ckptHead
    if (h.1.map headInSync).getD false then { h.2 with pair.inSync := true }.setPairPins else h.2
  else b

/-- What a controller does once it has taken a write of a source: after one of its peer, a standby may be in sync (R364). -/
def Blk.afterWrite (b : Blk) (src : Nat) : Blk := if b.isPeer src then b.syncCheck else b

/-- A standby that leaves HOLD rejoins under the resync: it is out of sync until the copy has ended (R364, R401). -/
def Blk.rejoin (b : Blk) : Blk :=
  if b.pair.role = 2 then { b with pair.inSync := false, pair.heard := false }.setPairPins else b

/-- Do Heartbeats run: paired, the structure loaded, the management controller not failed (R45), not zeroised (R389), not in HOLD
(R399), nor past step 3 of its entry, the timebase not frozen (R418). -/
def Blk.hbOn (b : Blk) : Bool :=
  b.pair.role != 0 && b.str.loaded && !b.dead && !b.mgmt.failed && !b.sec.zeroised && b.pwr.state != 3 && !(b.pwr.move.map (·.closing)).getD false && !b.frozen

/-- The copy to a rejoining standby started from the first mirrored extent (R364). -/
def Blk.startCopy (b : Blk) : Blk :=
  match b.str.run.mirrored with
  | [] => b
  | i :: _ => { b with pair.copy := some (i, lineOfGran ((b.extEnt i).map (·.base) |>.getD 0)), pair.copyAt := b.tb * 1000,
                       pair.copies := [] }

/-- Is a source one that Heartbeats and orders are accepted from (R240). -/
def Blk.pairSource (b : Blk) (src : Nat) : Bool :=
  b.str.run.pair.role != 0 && (src == b.str.run.pair.peer || src == b.str.run.pair.witness)

/-- HEARTBEAT from the peer or the witness (R357, R364); from any other source it is malformed (R240). -/
def heartbeatMsg (b : Blk) (r : Req) (role : Nat) : Blk :=
  let src := r.src.toNat
  if b.dead || !b.str.loaded then b
  else if !b.pairSource src || r.reservedSet then b.malformed 0
  else
    let b1 := b.traceRx 0 src 0x4C r.msgId.toNat r.traceId.toNat 0
    if src = b1.str.run.pair.witness then { b1 with pair.witAt := some b1.tb }
    else
      let b2 := { b1 with pair.peerAt := some b1.tb }.syncCheck
      if role = 3 && b2.pair.role = 1 && b2.pair.solo && !b2.pair.fenced && !b2.pair.gap && b2.pair.copy.isNone then b2.startCopy
      else b2

/-- FENCE_TIMEOUT: a primary without a witness Heartbeat for 10 ms becomes fenced (R360). -/
def fenceTimeout (b : Blk) : Blk :=
  let last := max (b.pair.witAt.getD 0) b.pair.witSince
  if b.pair.role = 1 && !b.pair.fenced && !b.dead && last + 10000000 ≤ b.tb then b.becomeFenced else b

/-! ## The checkpoint restored (R356, R362) -/

/-- The entries of an area of the checkpoint: n slots of a size from an offset, as the hub reads them; those in lines that it does not get
and empty ones are left out. -/
def Blk.ckptSlots (b : Blk) (off size n eseqAt : Nat) : List Bytes × Blk :=
  let per := 128 / size
  let x := b.hubLines ((List.range ((n + per - 1) / per)).map (lineOf (b.ckptBase + off) + ·))
  ((x.1.map (fun l => ((List.range per).filter (fun i => (l.1 - lineOf (b.ckptBase + off)) * per + i < n)).map (fun i =>
      sl l.2 (size * i) size))).flatten.filter (fun e => le e eseqAt 8 != 0), x.2)

/-- For each key of some entries the one with the highest ESEQ. -/
def newestBy (key : Bytes → Nat) (eseqAt : Nat) (es : List Bytes) : Map Bytes :=
  es.foldl (fun m e => match mget m (key e) with
    | some o => if le o eseqAt 8 < le e eseqAt 8 then mput m (key e) e else m
    | none => mput m (key e) e) []

/-- A host's lease as a restore leaves it: every home agent refuses a lapsed host from then on, and no other. -/
def Blk.putLease (b : Blk) (eid : Nat) (l : Lease) : Blk :=
  let dead := b.ext.dead.filter (fun e => e.2 != eid)
  { b with
    ext.leases := mput b.ext.leases eid l
    ext.expPend := b.ext.expPend.filter (fun e => e.2 != eid)
    ext.dead := if l.lapsed then (List.range 4).foldl (fun d q => with1 d (q, eid)) dead else dead }

/-- Leases from the checkpoint (R362): a host LIVE there is live from t0, one LAPSED there is lapsed, any other holds none. -/
def Blk.restoreLeases (b : Blk) (m : Map Bytes) : Blk :=
  (mkeys b.str.run.hosts).foldl (fun b eid =>
    let fl := (mget m eid).map (fun e => u8 e 2)
    let l : Lease := match fl with
      | some v => if bit v 0 then ⟨true, false, b.tb + b.str.run.leaseNs eid⟩ else ⟨false, bit v 1, 0⟩
      | none => ⟨false, false, 0⟩
    b.putLease eid l) b

/-- Mirrored extents from the checkpoint (R362): STATE, VERSION, DIGEST, and MOD_COUNT raised by 2^32. -/
def Blk.restoreExts (b : Blk) (m : Map Bytes) : Blk :=
  b.str.run.mirrored.foldl (fun b i => match mget m i with
    | none => b
    | some e =>
      let st := ExtState.ofCode (u8 e 4)
      b.modExt i (fun r => { r with
        state := if st = .draining || st = .zeroing then .zeroing else if st = .none then r.state else st
        version := BitVec.ofNat 64 (le e 8 8), modCount := BitVec.ofNat 64 (le e 16 8 + 2 ^ 32), digest := sl e 32 32
        zeroed := [], zeroCur := [], pubs := [] })) b

/-- The directory entries of the agents whose index has changed follow it: was, now: the old and the new registry. -/
def Blk.reindex (b : Blk) (was now : Map Agent) : Blk :=
  let moved := was.filterMap (fun a => match mget now a.1 with
    | some n => if n.index = a.2.index then none else some (a.2.index, n.index)
    | none => none)
  { b with coh.dir := b.coh.dir.map (fun e => (e.1, { e.2 with
      ptrs := e.2.ptrs.map (fun i => ((moved.find? (fun m => m.1 == i)).map (·.2)).getD i)
      bits := e.2.bits ||| coarseBits ((moved.filter (fun m => e.2.bits.getLsbD (m.1 / 16))).map (·.2)) })) }

/-- Agents from the checkpoint (R362): those registered there are swept, and hold their checkpoint index. -/
def Blk.restoreAgents (b : Blk) (m : Map Bytes) : Blk :=
  let there := m.filter (fun e => bit (le e.2 2 2) 15)
  let taken := there.map (fun e => le e.2 2 2 % 1024)
  let b1 := b.coh.agents.foldl (fun b a =>
    if mhas there a.1 then { b with coh.agents := mput b.coh.agents a.1 ⟨le ((mget m a.1).getD []) 2 2 % 1024, false, false⟩ }
    else if taken.contains a.2.index then
      let free := ((List.range 1024).find? (fun i => !taken.contains i && !b.coh.agents.any (fun x => x.2.index == i))).getD 1023
      { b with coh.agents := mput b.coh.agents a.1 { a.2 with index := free } }
    else b) b
  let swept := (there.filter (fun e => mhas b1.coh.agents e.1)).map (·.1)
  let b2 : Blk := { b1.reindex b.coh.agents b1.coh.agents with pair.sweep := (swept.map (fun a => (List.range 4).map (fun q => (a, q)))).flatten }
  b2.pair.sweep.foldl (fun b s => (b.sendOwn s.2 { ty := 0x83, dst := s.1, msgId := 0, traceId := 0,
                                                   arg := argAt s.2 0 ||| argAt 0xFFFF 48 }).2) b2

/-- The checkpoint restored: from its entries, or where its header fails with every host live and every mirrored extent ACTIVE with
VERSION 0 (R356). -/
def Blk.restore (b : Blk) : Blk :=
  let hd := b.ckptHead
  match hd.1 with
  | some h =>
    let n := max (le h 0x14 4 % 262145) b.str.run.mirrored.length
    let x := hd.2.ckptSlots 0x1000 16 4096 8
    let y := x.2.ckptSlots 0x11000 16 1024 8
    let z := y.2.ckptSlots 0x15000 64 n 24
    let ls := newestBy (fun e => le e 0 2) 8 x.1
    let as := newestBy (fun e => le e 0 2) 8 y.1
    let es := newestBy (fun e => le e 0 4) 24 z.1
    let b := z.2
    let top := (ls.map (fun e => le e.2 8 8) ++ as.map (fun e => le e.2 8 8) ++ es.map (fun e => le e.2 24 8)).foldl max b.pair.eseq
    let b1 : Blk := { b with pair.ckptSeq := le h 8 8, pair.eseq := top }
    ((b1.restoreLeases ls).restoreExts es).restoreAgents as
  | none =>
    let b := hd.2
    let b1 := (mkeys b.str.run.hosts).foldl (fun b e => b.putLease e ⟨true, false, b.tb + b.str.run.leaseNs e⟩) b
    let b2 := b1.str.run.mirrored.foldl (fun b i => b.modExt i (fun r => { r with state := .active, version := 0 })) b1
    (b2.flag Reg.hubPairErr 5).log 0x12 112 0 0 0

/-! ## Orders (R358) -/

/-- An order discarded and counted. -/
def Blk.rejectOrder (b : Blk) : Blk := (b.incr Reg.hubOrderRejectCnt).flag Reg.hubPairErr 0

/-- Is a SEQ one of the last 16 that the controller has sent. -/
def Pair.sentSeq (p : Pair) (s : Nat) : Bool := (List.range p.hbSent).any (fun i => (p.hbSeq + 2 ^ 32 - i) % 2 ^ 32 == s)

/-- ORDER 1 accepted by NEW_PRIMARY: the gap starts (R362). -/
def Blk.takeOver (b : Blk) : Blk :=
  let b1 : Blk := { b with pair.role := 1, pair.solo := true, pair.gap := true, pair.t0 := b.tb, pair.witSince := b.tb,
                           pair.copy := none, pair.ckptAt := b.tb }
  (b1.flag Reg.hubPairErr 2).restore

/-- ORDER 2 accepted by NEW_PRIMARY: it runs unmirrored, and writes that wait on a mirror are answered (R355, R359). -/
def Blk.goSolo (b : Blk) : Blk :=
  let b1 : Blk := { b with pair.role := 1, pair.solo := true, pair.fenced := b.mgmt.failed, pair.witSince := b.tb, pair.copy := none }
  ((b1.endMirrors 0).flag Reg.hubPairErr 3).setPairPins

/-- TAKEOVER (R358): a signed order of the witness accepted, or discarded and counted. -/
def takeoverMsg (b : Blk) (r : Req) (p : Bytes) : Blk :=
  let src := r.src.toNat
  if b.dead || !b.str.loaded then b
  else if !b.pairSource src || r.reservedSet || p.length ≠ 96 then b.malformed 0
  else
    let self := b.str.run.self
    let term := le p 0 8; let order := u8 p 8; let old := le p 0x0A 2; let new := le p 0x0C 2
    let reserved := u8 p 9 == 0 && le p 0x0E 2 == 0 && allZero (sl p 0x14 12)
    let sig := !allZero b.sec.witnessKey && ecdsaVerify b.sec.witnessKey (sha256 (p.take 32)) (p.drop 32)
    let named := old == self || new == self
    let echo := new != self || b.pair.sentSeq (le p 0x10 4)
    let standby := b.pair.role == 2 && b.pair.inSync && !b.pair.fenced && !b.pwr.holding
    let primary := b.pair.role == 1 || b.pair.fenced
    let able := (order == 1 && (new != self || standby)) || (order == 2 && (new != self || primary))
    if !(sig && reserved && b.pair.term < term && named && echo && able) then b.rejectOrder
    else
      let b1 := ({ b with pair.term := term }.traceRx 0 src 0x4D r.msgId.toNat r.traceId.toNat 0).trace
        { source := 12, event := 1, unit := 112, a := term }
      if order = 1 then (if new = self then b1.takeOver else b1.becomeFenced)
      else if new = self then b1.goSolo else b1.flag Reg.hubPairErr 3

/-! ## The gap (R362, R363) -/

/-- SWEEP_CUT: at t0 + 48 ms every agent that has not answered all four SnpSets is suspended (R362). -/
def sweepCut (b : Blk) : Blk :=
  if !b.pair.gap || b.tb < b.pair.t0 + 48000000 || b.pair.sweep.isEmpty then b
  else
    let cut := (b.pair.sweep.map (·.1)).dedup
    let b1 := cut.foldl (fun b e => b.suspend (homeOf 0) e) b
    ({ b1 with pair.sweep := [] }.flag Reg.hubPairErr 6).log 0x13 112 0 0 cut.length

/-- GAP_END: the gap ends at the latest of t0 + 12 ms and the end of the sweep, and by t0 + 50 ms; the controller is then a solo
primary, and HUB_PAIR_GAP holds the length (R362). -/
def gapEnd (b : Blk) : Blk :=
  if !b.pair.gap || b.tb < b.pair.t0 + 12000000 || (!b.pair.sweep.isEmpty && b.tb < b.pair.t0 + 50000000) then b
  else
    let b1 : Blk := { b with pair.gap := false, pair.sweep := [], pair.witSince := b.tb }
    let b2 := b1.setReg Reg.hubPairGap (BitVec.ofNat 32 (min ((b.tb - b.pair.t0) / 1000) 65535))
    (b2.trace { source := 12, event := 2, unit := 112, a := b.pair.term }).setPairPins

/-! ## Rejoining (R364) -/

/-- The line that the copy reaches after one: the next of its extent, or the first of the next mirrored extent. -/
def Blk.copyStep (b : Blk) (i l : Nat) : Option (Nat × Nat) :=
  let stay := ((b.extEnt i).map (fun e => e.has (l + 1))).getD false
  if stay then some (i, l + 1)
  else (b.str.run.mirrored.find? (i < ·)).map (fun j => (j, lineOfGran (((b.extEnt j).map (·.base)).getD 0)))

/-- Where the copy stands when every line has been sent. -/
def copyDone : Nat × Nat := (2 ^ 18, 0)

/-- RESYNC_COPY_LINE: a solo primary copies the next line of its mirrored extents to the rejoining standby, at HUB_PAIR_RESYNC.RATE;
when the peer has taken every line it mirrors again and writes a checkpoint with IN_SYNC (R364). -/
def resyncCopyLine (b : Blk) : Blk :=
  match b.pair.copy with
  | none => b
  | some (i, l) =>
    if b.dead || !b.str.loaded || b.pair.fenced || b.tb * 1000 < b.pair.copyAt then b
    else if (i, l) = copyDone then
      if b.pair.copies.isEmpty then { b with pair.copy := none, pair.solo := false }.setPairPins.ckptWrite true else b
    else
      let x := (b.fetch l).1.mirrorSend l
      let b1 : Blk := if ((b.extEnt i).map (·.mirror)).getD false then
          { x.2 with pair.copies := b.pair.copies ++ [(x.1, l, b.tb + 20000000)] } else b
      { b1 with pair.copy := some ((b.copyStep i l).getD copyDone)
                pair.copyAt := max b.pair.copyAt (b.tb * 1000 - 1000000) + 1280000 / (b.field Reg.hubPairResync 0 10) }

end Sys2Proof.Machine
end

