-- ==== Sys2Proof/Machine/Mesh.lean ====
section
/-! DEFINITION. The die-to-die mesh with its transfer units, retry buffers and detours, and the ejection queues (R32 to R36, R247, R251). -/

namespace Sys2Proof.Machine

/-! ## Which links work (R33 to R35) -/

/-- The name of the link between two dies: the lower and the higher. -/
def d2dName (a c : Nat) : Nat × Nat := (min a c, max a c)

/-- Does the link between two dies work. -/
def Blk.d2dOk (b : Blk) (a c : Nat) : Bool := a != c && !b.fab.d2dFailed.contains (d2dName a c)

/-- The next die on the way from a quadrant to another one: the other end of a working link, else the lowest-numbered quadrant with
working links to both (R33). -/
def Blk.quadNext (b : Blk) (q t : Nat) : Option Nat :=
  if b.d2dOk q t then some t else (List.range 4).find? (fun x => b.d2dOk q x && b.d2dOk x t)

/-- The next die on the way from a die to another one, the hub (4) included: the other end of a working link; between a quadrant without
a hub link and the hub, the way leads through the lowest-numbered quadrant that still has one (R33, R34). -/
def Blk.d2dNext (b : Blk) (q t : Nat) : Option Nat :=
  if b.d2dOk q t then some t
  else if t = 4 then ((List.range 4).find? (fun x => b.d2dOk x 4)).bind (b.quadNext q)
  else if q = 4 then ((List.range 4).find? (fun x => b.d2dOk x 4)).filter (fun x => (b.quadNext x t).isSome)
  else b.quadNext q t

/-- Is a quadrant lost by its links, or every quadrant by the hub's (R35). -/
def Blk.d2dLost (b : Blk) : Bool :=
  (List.range 4).any (fun q => !b.d2dOk q 4 && (List.range 4).all (fun x => !b.d2dOk q x)) ||
  (List.range 4).all (fun q => !b.d2dOk q 4)

/-- The place of a die-to-die link in the bits of QD[q]_D2D_ERR: the peer's number, or 4 for the hub. -/
def Blk.d2dFlag (b : Blk) (q peer lo : Nat) : Blk := if q < 4 then b.flag (Reg.qdD2dErr q) (lo + peer) else b

/-! ## Transfer units (R32, R33) -/

/-- A direction of a link. -/
def Blk.d2d (b : Blk) (a c : Nat) : D2d := tget (fun _ => {}) b.fab.d2d (a * 5 + c)

/-- A direction of a link changed. -/
def Blk.modD2d (b : Blk) (a c : Nat) (f : D2d → D2d) : Blk := { b with fab.d2d := tmod (fun _ => {}) b.fab.d2d (a * 5 + c) f }

/-- The transfer units of a worm (R32): each a 16 B header and up to one line of the payload; a worm without a payload is one unit. DEDUCED (log
entry 24): the unit's header is what tells the receiver the packet's. -/
def Worm.units (w : Worm) : List (BitVec 128 × Bytes) :=
  (List.range (max 1 ((w.payload.length + 127) / 128))).map (fun i =>
    (Config.unitHead w.hdr i, sl w.payload (128 * i) (min 128 (w.payload.length - 128 * i))))

/-- A worm put on a link: its units enter the sender's retry buffer with the next sequence numbers. -/
def D2d.push (d : D2d) (w : Worm) : D2d :=
  let us := w.units
  { d with
    next := (d.next + us.length) % 4096
    buf := d.buf ++ (List.range us.length).map (fun i => ⟨(d.next + i) % 4096, d.count, (us.getD i (0, [])).1, (us.getD i (0, [])).2⟩)
    worms := mput d.worms d.count w
    count := d.count + 1 }

/-- A unit accepted by the receiver and acknowledged: it leaves the retry buffer; the number of a unit that carries no worm counts as used. -/
def D2d.accept (d : D2d) (seq : Nat) : D2d :=
  { d with
    tries := tset (fun _ => 0) d.tries seq 0
    accepted := d.accepted.filter (fun s => 2048 ≤ (s + 4096 - seq) % 4096) ++ [seq]
    next := if (seq + 4097 - d.next) % 4096 < 2048 then (seq + 1) % 4096 else d.next
    buf := d.buf.filter (fun u => u.seq != seq) }

/-- A worm whose every unit has come: it waits at the router's input, or enters the ejection queue of the hub. -/
def Blk.arrive (b : Blk) (src dst : Nat) (w : Worm) : Blk :=
  if dst = 4 then { b with fab.ejq := b.fab.ejq ++ [⟨4, w.hdr, w.payload⟩] }
  else { b with fab.arr := b.fab.arr ++ [⟨dst, src, w⟩] }

/-- D2D_UNIT_RECEIVE: a unit is accepted once; a duplicate or one whose CRC fails is discarded (R32). A unit that a failed link has left in its
sender's retry buffer comes along the detour, under its own number (R33, R34). -/
def d2dUnitReceive (b : Blk) (src dst seq : Nat) (crcOk : Bool) : Blk :=
  let d := b.d2d src dst
  let u := d.buf.find? (fun u => u.seq == seq)
  let way := b.d2dOk src dst || (src != dst && u.isSome && (b.d2dNext src dst).isSome)
  if !way || !crcOk || d.accepted.contains seq then b
  else
    let b1 := b.modD2d src dst (fun d => d.accept seq)
    match u with
    | none => b1
    | some u =>
      if (b1.d2d src dst).buf.any (fun v => v.worm == u.worm) then b1
      else match mget d.worms u.worm with
        | none => b1
        | some w => (b1.modD2d src dst (fun d => { d with worms := mdel d.worms u.worm })).arrive src dst w

/-- D2D_RETRY_REQUEST: the sender resends a unit, which its retry buffer keeps, and counts the retry; at the 8th failure in a row of one
unit it marks the link failed, and the device is lost where a quadrant has no link left (R32 to R35). -/
def d2dRetryRequest (b : Blk) (src dst seq : Nat) : Blk :=
  if !b.d2dOk src dst then b
  else
    let n := tget (fun _ => 0) (b.d2d src dst).tries seq + 1
    if n < 8 then
      let b1 := b.modD2d src dst (fun d => { d with tries := tset (fun _ => 0) d.tries seq n })
      let b2 := b1.aonAdd (227 + (if src < 4 then src else dst)) 1
      if src < 4 then (b2.incr (Reg.qdD2dRetryCnt src)).d2dFlag src dst 0 else b2.d2dFlag dst 4 0
    else
      let b1 : Blk := { b with fab.d2dFailed := b.fab.d2dFailed ++ [d2dName src dst] }
      let b2 := (b1.d2dFlag src dst 8).d2dFlag dst src 8
      if b2.d2dLost then b2.loseDevice else b2

/-! ## Outputs that are no external port (R36, R251) -/

/-- May a die-to-die or hub output (4) of a router take a worm: the link works, and no worm holds it until its tail. -/
def Blk.meshFree (b : Blk) (q x : Nat) : Bool :=
  b.d2dOk q x && !b.fab.holds.any (fun h => h.port / 12 == q && h.out == (if x = 4 then .hub else .d2d x))

/-- The ejection queue of a packet (R251): 0 the request queue of the home agent, which holds the REQ class but what a Thresher
takes (R240); else by its class. -/
def ejClass (h : BitVec 256) : Nat :=
  let ty := fld h.toNat 15 8
  if 0xC0 ≤ ty && ty != 0xD1 && ty != 0xD5 then 0 else 1 + ty / 64

/-- The packets that an ejection queue of a quadrant or of the hub (4) holds or has given an entry to. -/
def Blk.ejHeld (b : Blk) (t cls : Nat) : Nat :=
  (b.fab.ejq.filter (fun e => e.quad == t && ejClass e.hdr == cls)).length +
  (b.fab.holds.filter (fun h => h.out == (if t = 4 then .hub else .eject t) && ejClass h.hdr == cls)).length +
  (if t = 4 then ((List.range 4).map (fun q => ((b.d2d q 4).worms.filter (fun w => ejClass w.2.hdr == cls)).length)).sum else 0)

/-- A whole worm put on an output of a router that is no external port. -/
def Blk.deliver (b : Blk) (q : Nat) (o : RouterOut) (w : Worm) : Blk :=
  match o with
  | .d2d x => b.modD2d q x (fun d => d.push w)
  | .hub => b.modD2d q 4 (fun d => d.push w)
  | .eject t => { b with fab.ejq := b.fab.ejq ++ [⟨t, w.hdr, w.payload⟩] }
  | .ext _ | .drop => b

end Sys2Proof.Machine
end

