-- ==== Sys2Proof/Machine/Link.lean ====
section
/-! DEFINITION. The link layer of a Narmor port: training, link flits, acknowledgement and replay, truncation, link down, flush and the
orderly close (R263 to R287). -/

namespace Sys2Proof.Machine

/-- The link of a port. -/
def Blk.link (b : Blk) (n : Nat) : Link := tget (fun _ => {}) b.fab.links n

/-- The link of a port changed. -/
def Blk.modLink (b : Blk) (n : Nat) (f : Link → Link) : Blk := { b with fab.links := tmod (fun _ => {}) b.fab.links n f }

/-- TX_NEXT: the number after the last flit held (R274). -/
def Link.txNext (k : Link) : Nat := (k.txOldest + k.held.length) % 4096

/-- Is a link in UP or CLOSING, where flits flow (R267). -/
def Link.live (k : Link) : Bool := k.state == .up || k.state == .closing

/-- LNK[n]_CTL.ENABLE. -/
def Blk.linkOn (b : Blk) (n : Nat) : Bool := b.field (Reg.lnkCtl n) 0 1 == 1

/-- An event of a link traced (R432), with LNK_SEQ as it stands: 1 down, with the bit of LNK_ERR that its cause sets, 2 resumed,
3 flushed, 4 UP from TRAINING. -/
def Blk.traceLink (b : Blk) (n event cause : Nat) : Blk :=
  let k := b.link n
  b.trace { source := 7, event := event, unit := 64 + n, a := n + cause * 256, detail := toLe 4 (k.txNext + k.rxNext * 4096) }

/-! ## The link flit (R271) -/

/-- The 40 B of a flit. -/
def LFlit.bytes (f : LFlit) : Bytes :=
  let h := fit 32 f.payload ++ toLe 2 (f.seq + f.ty * 4096) ++ toLe 2 (f.ack + b2n f.ackV * 4096 + b2n f.reqAck * 8192)
  h ++ toLe 4 (crc32c h).toNat

/-! ## Sending (R273, R274, R277) -/

/-- A flit sent, m times in a row: it carries the current acknowledgement, and REQ_ACK from 1,528 held flits on. -/
def Blk.emit (b : Blk) (n ty seq : Nat) (payload : Bytes) (m : Nat := 1) : Blk :=
  (b.modLink n (fun k => { k with
    out := k.out ++ [{ ty := ty, seq := seq, ack := (k.rxNext + 4095) % 4096, reqAck := decide (1528 ≤ k.held.length),
                       payload := fit 32 payload, times := m }]
    unacked := 0
    credit := k.credit - 34 * m })).aonAdd (72 + n) m

/-- The flit times of a period of TB_REF, 40 ns, in 34ths: 4 lanes of 112 Gb/s, of which 514 parts in 544 are flits of 320 bits (R264). -/
def flitTimes : Nat := 1799

/-- A period of TB_REF on the link of a port: the flit times that nothing else has filled are filled with IDLE flits, also while a worm that
waits for its next flit holds the output (R273, R279). -/
def Blk.idleFill (b : Blk) (n : Nat) : Blk :=
  if !(b.link n).live then b
  else
    let m := (((b.link n).credit + flitTimes) / 34).toNat
    let b1 := b.modLink n (fun k => { k with credit := k.credit + flitTimes })
    if m = 0 then b1 else b1.emit n 0x0 0 [] m

/-- A sequenced flit put into the replay buffer; the buffer filled to 1,536 flits counts a stall. -/
def Blk.keepFlit (b : Blk) (n ty : Nat) (payload : Bytes) (req : Option (Nat × Nat)) : Blk :=
  let k := b.link n
  let b1 := b.modLink n (fun k => { k with
    ackAt := if k.held.isEmpty then b.tb else k.ackAt
    held := k.held ++ [⟨ty, fit 32 payload, req⟩] })
  if k.held.length + 1 = 1536 then b1.incr (Reg.lnkStallCnt n) else b1

/-- A sequenced flit put into the replay buffer and sent. -/
def Blk.putFlit (b : Blk) (n ty : Nat) (payload : Bytes) (req : Option (Nat × Nat)) : Blk :=
  (b.keepFlit n ty payload req).emit n ty (b.link n).txNext payload

/-- An acknowledgement sent in an IDLE flit. -/
def Blk.sendAck (b : Blk) (n : Nat) : Blk := b.emit n 0x0 0 []

/-- A NAK sent; the receiver is in replay wait (R275). -/
def Blk.sendNak (b : Blk) (n : Nat) : Blk :=
  ((b.incr (Reg.lnkNakTxCnt n)).emit n 0x4 0 []).modLink n (fun k => { k with wait := true, nakAt := b.tb })

/-- The held flits resent from the k-th on (R276), counted. -/
def Blk.resend (b : Blk) (n : Nat) : Blk :=
  let k := b.link n
  let fs := (List.range k.held.length).zip k.held
  ((fs.foldl (fun b f => b.emit n f.2.ty ((k.txOldest + f.1) % 4096) f.2.payload) b).count (Reg.lnkReplayFlitCnt n)
    k.held.length).event (64 + n) 4 none k.held.length

/-! ## Truncation and worms that hold an output (R248, R279 to R281) -/

/-- A worm from an external port, by the port. -/
def Blk.holdOf (b : Blk) (n : Nat) : Option Hold := b.fab.holds.find? (fun h => h.port == n)

/-- Does a worm hold a port's output. -/
def Blk.outHeld (b : Blk) (n : Nat) : Bool := b.fab.holds.any (fun h => h.out == .ext n)

/-- A packet sent on a port counted. -/
def Blk.countTx (b : Blk) (n : Nat) (part : Nat) : Blk := (b.incr (Reg.nrmTxPktCnt n)).event (64 + n) 1 (some part)

/-- The worm from a port ended with an ABORT on its output, and its output free (R279, R280). -/
def Blk.abortHold (b : Blk) (n : Nat) : Blk :=
  match b.holdOf n with
  | none => b
  | some h =>
    let b1 : Blk := { b with fab.holds := b.fab.holds.filter (fun x => x.port != n) }
    match h.out with
    | .ext p => if (b1.link p).live then b1.putFlit p 0x3 [] none else b1
    | _ => b1

/-- The packet in reception on a port truncated: its worm ends, and what follows up to the next ABORT is discarded (R280, R281). -/
def Blk.truncateRx (b : Blk) (n : Nat) : Blk :=
  if (b.link n).rx.any (fun p => p.left != 0) then
    let b1 := if (b.holdOf n).isSome then b.abortHold n else b
    (b1.incr (Reg.lnkTruncCnt n)).modLink n (fun k => { k with rx := k.rx.filter (fun p => p.left == 0), skip := true })
  else b

/-- The packet being sent on a port truncated (R280): the flits kept end with an ABORT, and the rest of the worm is discarded as the
router delivers it. -/
def Blk.truncateTx (b : Blk) (n : Nat) : Blk :=
  if b.outHeld n then
    let b1 : Blk := { b with fab.holds := b.fab.holds.map (fun h => if h.out = .ext n then { h with out := .drop } else h) }
    (b1.keepFlit n 0x3 [] none).incr (Reg.lnkTruncCnt n)
  else b

/-! ## Training (R267, R268) -/

/-- A link with no sequence state (R267, R284); whole packets that it has received stay until the router takes them. -/
def Link.cleared (k : Link) : Link :=
  { k with
    txOldest := 0, rxNext := 0, held := [], replayFrom := none, replays := 0, wait := false, unacked := 0, uncorr := [],
    uncorrRun := 0, rx := k.rx.filter (fun p => p.left == 0), skip := false, asked := false, sentClosing := false, gotClosing := false, sentClosed := false, gotClosed := false }

/-- A training attempt started. -/
def Link.attempt (k : Link) (full : Bool) (now : Nat) : Link :=
  { k with full := full || k.forceFull, forceFull := false, stage := 1, stageAt := now, good := 0, ready := false, gotReady := false,
           lanes := 0 }

/-- Does every port stay in DISABLED: in HOLD, once its entry closes the ports (R399), and in recovery (R372). -/
def Blk.portsOff (b : Blk) : Bool := b.pwr.state == 3 || (b.pwr.move.map (·.closing)).getD false || b.sec.recovery

/-- A port that enters TRAINING, or DISABLED where ENABLE is 0 or every port stays so, with no sequence state. -/
def Blk.linkIdle (b : Blk) (n : Nat) : Blk :=
  let on := b.linkOn n && !b.portsOff
  b.modLink n (fun k =>
    let c := { k.cleared with state := if on then LinkState.training else .disabled, tries := 0 }
    if on then c.attempt true b.tb else { c with lanes := 0 })

/-- A training attempt fails, and a new one starts at once (R268): in HELD, and at the exit from HOLD (R400), after up to three fast
retrains a full one. -/
def Blk.trainFail (b : Blk) (n : Nat) : Blk :=
  (b.flag (Reg.lnkErr n) 8).modLink n (fun k =>
    if k.state = .held || !k.full then { k with tries := k.tries + 1 }.attempt (decide (3 ≤ k.tries + 1)) b.tb else k.attempt true b.tb)

/-- The limit of a training stage, ns (R268). -/
def stageLimit (full : Bool) (stage : Nat) : Nat :=
  match stage with
  | 1 => if full then 1000000 else 10000
  | 2 => 20000000
  | 3 => if full then 2000000 else 20000
  | 4 => if full then 1000000 else 10000
  | _ => if full then 1000000 else 10000

/-! ## Flush (R284) -/

/-- A request of the controller lost with a flushed link: it completes LINK_LOST, and a mirror write fails (R255, R284, R355). -/
def Blk.linkLost (b : Blk) (n : Nat) (r : Nat × Nat) : Blk :=
  let mine := fun (x : OutReq) => x.dst == r.1 && x.msgId == r.2
  let peer := b.str.run.pair.peer == r.1
  let copy := peer && b.pair.copy.isSome && b.pair.copies.any (fun c => c.1 == r.2)
  if !b.fab.outReqs.any mine && !(peer && (b.mirrorTxn r.2).isSome) && !copy then b
  else
    let b1 := (b.incr (Reg.lnkLinkLostCnt n)).aonAdd 209 1
    let b2 : Blk := { b1 with fab.outReqs := b1.fab.outReqs.filter (fun x => !mine x), fab.ended := b1.fab.ended ++ [(r.1, r.2, 0x62)] }
    if !peer then b2
    else match b2.mirrorTxn r.2 with
      | some (t, _, o) => (b2.mirrorFailed t 0).mirrorEnd t 0x95 o
      | none => b2.copyAgain r.2 0

/-- What a flush discards (R284): the packets part-way, and the replay buffer with the requests of the controller in it. -/
def Blk.dropFlits (b : Blk) (n : Nat) : Blk :=
  let b0 := (b.truncateRx n).truncateTx n
  let reqs := ((b0.link n).held.filterMap (·.req)).dedup
  let b1 := reqs.foldl (fun b r => b.linkLost n r) b0
  (((b1.flag (Reg.lnkErr n) 5).aonAdd 208 1).traceLink n 3 0).modLink n Link.cleared

/-- A link flushed (R284). -/
def Blk.flush (b : Blk) (n : Nat) : Blk := (b.dropFlits n).linkIdle n

/-! ## The orderly close (R286) -/

/-- What a close in progress can do next: PORT_CLOSING once the worm being sent has ended and the replay buffer has room, with which the link
is in CLOSING, PORT_CLOSED once the replay buffer is empty and the partner's PORT_CLOSING has been accepted, and the end once PORT_CLOSED
has been sent and accepted. -/
def Blk.closeStep (b : Blk) (n : Nat) : Blk :=
  let k := b.link n
  if !k.live || !k.asked then b
  else
    let b1 := if !k.sentClosing && !b.outHeld n && k.held.length < 1536 then
        (b.modLink n (fun k => { k with state := .closing, sentClosing := true })).putFlit n 0x5 [0x01] none else b
    let k1 := b1.link n
    let b2 := if k1.sentClosing && k1.gotClosing && k1.held.isEmpty && !k1.sentClosed then
        (b1.modLink n (fun k => { k with sentClosed := true })).putFlit n 0x5 [0x02] none else b1
    let k2 := b2.link n
    if k2.sentClosed && k2.gotClosed then b2.linkIdle n else b2

/-- A link in UP begins to close: it takes no new worm. -/
def Blk.beginClose (b : Blk) (n : Nat) : Blk :=
  if (b.link n).state == .up && !(b.link n).asked then
    (b.modLink n (fun k => { k with asked := true, closeAt := b.tb })).closeStep n
  else b

/-! ## Link down (R280, R282, R283) -/

/-- The bit of LNK[n]_ERR of a cause. -/
def downBit : DownCause → Nat
  | .los => 0 | .lock => 1 | .uncorrBurst => 2 | .silent => 3 | .replayLimit => 4

/-- The grace period, ns (R283). -/
def Blk.grace (b : Blk) (n : Nat) : Nat := b.field (Reg.lnkCfg n) 0 9 * 100000

/-- A link goes down: from UP it enters HELD, with its packets truncated and its grace timer running, and retrains while ENABLE is 1; from
CLOSING, and where the entry into HOLD closes the ports, it flushes. -/
def Blk.goDown (b : Blk) (n : Nat) (c : DownCause) : Blk :=
  if !(b.link n).live then b
  else
    let b1 := ((b.flag (Reg.lnkErr n) (downBit c)).incr (Reg.lnkDownCnt n)).traceLink n 1 (downBit c)
    if (b1.link n).state = .closing || b.portsOff then b1.flush n
    else
      let b2 := (b1.truncateRx n).truncateTx n
      b2.modLink n (fun k =>
        let h : Link := { k with state := .held, tries := 0, graceEnd := b.tb + b.grace n, wait := false, unacked := 0, asked := false,
                                 uncorr := [], uncorrRun := 0 }
        if b.linkOn n then h.attempt false b.tb else { h with stage := 0, lanes := 0 })

/-- A replay from TX_OLDEST (R276): the 16th in a row from the same one takes the link down. -/
def Blk.replay (b : Blk) (n : Nat) : Blk :=
  let k := b.link n
  if k.held.isEmpty then b
  else
    let m := if k.replayFrom = some k.txOldest then k.replays + 1 else 1
    let b1 := b.modLink n (fun k => { k with replayFrom := some k.txOldest, replays := m, ackAt := b.tb })
    if 16 ≤ m then b1.goDown n .replayLimit else b1.resend n

/-! ## Receiving (R274, R275, R277) -/

/-- An acknowledgement taken: the held flits up to it are free; one out of range is ignored (R274). -/
def Blk.takeAck (b : Blk) (n a : Nat) : Blk :=
  let k := b.link n
  let m := (a + 4097 - k.txOldest) % 4096
  if k.held.length < m || m = 0 then b
  else (b.modLink n (fun k => { k with
    txOldest := (k.txOldest + m) % 4096, held := k.held.drop m, ackAt := b.tb, replayFrom := none, replays := 0 })).closeStep n

/-- Is a received flit free of reserved bits, for its type (R271, R272). -/
def flitOk (ty : Nat) (f : Flit) : Bool :=
  !f.reservedSet && (match ty with
    | 0x0 => f.seq == 0 && allZero f.payload
    | 0x3 => allZero f.payload
    | 0x4 => f.seq == 0 && f.ackV && allZero f.payload
    | 0x5 => allZero (f.payload.drop 1)
    | _ => true)

/-- FLIT_CRC_FAIL: a flit that fails its CRC, is marked bad or has a type that R272 does not list is discarded, and a NAK is sent (R275). -/
def flitCrcFail (b : Blk) (n : Nat) : Blk :=
  if !(b.link n).live then b
  else ((((b.incr (Reg.lnkCrcErrCnt n)).flag (Reg.lnkErr n) 7).aonAdd 207 1).aonAdd (24 + n) 1).sendNak n

/-- A flit with a valid CRC received in UP or CLOSING: counted, and the silence ends. -/
def Blk.flitIn (b : Blk) (n : Nat) : Blk := (b.aonAdd (24 + n) 1).modLink n (fun k => { k with goodAt := b.tb })

/-- An unsequenced flit received: its acknowledgement is taken. -/
def Blk.unsequenced (b : Blk) (n ty : Nat) (f : Flit) (go : Blk → Blk) : Blk :=
  if !(b.link n).live then b
  else if !flitOk ty f then flitCrcFail b n
  else
    let b1 := b.flitIn n
    go (if f.ackV then b1.takeAck n f.ack.toNat else b1)

/-- A sequenced flit classified by its number (R275): accepted, which may call for an acknowledgement (R277), discarded as a duplicate,
or discarded with a NAK. -/
def Blk.sequenced (b : Blk) (n ty : Nat) (f : Flit) (go : Blk → Blk) : Blk :=
  if !(b.link n).live then b
  else if !flitOk ty f then flitCrcFail b n
  else
    let b1 := b.flitIn n
    let k := b1.link n
    let d := (k.rxNext + 4096 - f.seq.toNat) % 4096
    if d = 0 then
      let b2 := b1.modLink n (fun k => { k with
        rxNext := (k.rxNext + 1) % 4096, wait := false, unacked := k.unacked + 1, unackAt := if k.unacked = 0 then b.tb else k.unackAt })
      let b3 := go (if f.ackV then b2.takeAck n f.ack.toNat else b2)
      if (b3.link n).live && (64 ≤ (b3.link n).unacked || f.reqAck) then b3.sendAck n else b3
    else if d ≤ 1536 || k.wait then b1
    else b1.sendNak n

/-- IDLE: its acknowledgement is taken (R273). -/
def idleFlit (b : Blk) (n : Nat) (f : Flit) : Blk := b.unsequenced n 0x0 f (fun b => b)

/-- NAK: it acknowledges up to its ACK and starts a replay from the next flit (R276); one out of range is ignored (R274). -/
def nakFlit (b : Blk) (n : Nat) (f : Flit) : Blk :=
  let k := b.link n
  let ok := (f.ack.toNat + 4097 - k.txOldest) % 4096 ≤ k.held.length
  b.unsequenced n 0x4 f (fun b => if ok then (b.incr (Reg.lnkNakRxCnt n)).replay n else b.incr (Reg.lnkNakRxCnt n))

/-- LEN of a header (R237). -/
def hdrLen (h : BitVec 256) : Nat := fld h.toNat 88 80

/-- The DATA flits of a packet (R273). -/
def hdrFlits (h : BitVec 256) : Nat := (hdrLen h + 31) / 32

/-- A whole packet received counted (R262). -/
def Blk.countRx (b : Blk) (n : Nat) : Blk := (b.incr (Reg.nrmRxPktCnt n)).event (64 + n) 2 none

/-- HEAD: it starts a packet (R273, R275). -/
def headFlit (b : Blk) (n : Nat) (f : Flit) : Blk :=
  b.sequenced n 0x1 f (fun b =>
    let h := BitVec.ofNat 256 (le f.payload 0 32)
    let b1 := b.modLink n (fun k => { k with rx := k.rx ++ [{ hdr := h, left := hdrFlits h }], rxAt := b.tb, skip := false })
    if hdrFlits h = 0 then b1.countRx n else b1)

/-- A flit of a worm forwarded to its output; with the tail the output is free (R248). -/
def Blk.forward (b : Blk) (n : Nat) (payload : Bytes) : Blk :=
  match b.holdOf n with
  | none => b
  | some h =>
    let rest := b.fab.holds.filter (fun x => x.port != n)
    let body := match h.out with
      | .ext _ => []
      | _ => h.body ++ fit 32 payload
    let b1 : Blk := { b with fab.holds := if h.flits ≤ 1 then rest else rest ++ [{ h with flits := h.flits - 1, body := body }] }
    match h.out with
    | .ext p =>
      let b2 := b1.putFlit p 0x2 payload none
      if h.flits ≤ 1 then (b2.countTx p 0).closeStep p else b2
    | o => if h.flits ≤ 1 then b1.deliver (n / 12) o { hdr := h.hdr, payload := fit (hdrLen h.hdr) body } else b1

/-- DATA: it is forwarded with its packet, or waits while its head has not been routed; after a truncation it is discarded (R275, R279,
R281). -/
def dataFlit (b : Blk) (n : Nat) (f : Flit) : Blk :=
  b.sequenced n 0x2 f (fun b =>
    let k := b.link n
    match k.rx.find? (fun p => p.left != 0) with
    | none => b
    | some p =>
      if k.skip then b
      else
        let last := p.left = 1
        let p1 : RxPkt := { p with left := p.left - 1, body := if p.routed then p.body else p.body ++ [fit 32 f.payload] }
        let rest := k.rx.filter (fun p => p.left == 0)
        let b1 := b.modLink n (fun k => { k with rx := if last && p.routed then rest else rest ++ [p1], rxAt := b.tb })
        let b2 := if p.routed then b1.forward n f.payload else b1
        if last then b2.countRx n else b2)

/-- ABORT: the packet that it ends is discarded (R281). -/
def abortFlit (b : Blk) (n : Nat) (f : Flit) : Blk :=
  b.sequenced n 0x3 f (fun b =>
    if (b.link n).skip then b.modLink n (fun k => { k with skip := false })
    else (b.truncateRx n).modLink n (fun k => { k with skip := false }))

/-- LCTL PORT_CLOSING (R286). -/
def portClosing (b : Blk) (n : Nat) (f : Flit) : Blk :=
  b.sequenced n 0x5 f (fun b =>
    let b1 := b.beginClose n
    (b1.modLink n (fun k => { k with gotClosing := true, state := .closing })).closeStep n)

/-- LCTL PORT_CLOSED (R286). -/
def portClosed (b : Blk) (n : Nat) (f : Flit) : Blk :=
  b.sequenced n 0x5 f (fun b => (b.modLink n (fun k => { k with gotClosed := true })).closeStep n)

/-- The flits that the next codeword of a link touches and that are not marked bad yet: 5,140 of its bits are flits, one after another without
alignment (R264, R265). -/
def Link.cwFlits (k : Link) : Nat := (k.cwPos + 5140 + 319) / 320 - (if k.cwBad then 1 else 0)

/-- The next codeword of a link counted off (R264): where it ends, the one after it begins. -/
def Link.cwNext (k : Link) (bad : Bool) : Link :=
  let p := (k.cwPos + 5140) % 320
  { k with cwPos := p, cwBad := bad && p != 0, corrRun := if bad || k.stage != 4 then 0 else k.corrRun + 1 }

/-- CODEWORD_RECEIVE: the codeword is decoded (R264). Corrected symbols are counted; an uncorrectable codeword marks its flits bad (R265). -/
def codewordReceive (b : Blk) (n : Nat) (c : Codeword) : Blk :=
  match cwDecode c with
  | some s => (b.count (Reg.lnkFecCorrCnt n) s).modLink n (fun k => { k.cwNext false with uncorrRun := 0 })
  | none =>
    let b1 := (b.incr (Reg.lnkFecUncorrCnt n)).modLink n (fun k => { k.cwNext true with
      uncorrRun := k.uncorrRun + 1
      uncorr := k.uncorr.filter (fun t => b.tb < t + 1000000) ++ [b.tb] })
    (List.replicate (b.link n).cwFlits ()).foldl (fun b _ => flitCrcFail b n) b1

/-- LINK_DOWN: loss of signal, or one of the other causes of R282 where its condition holds. -/
def linkDown (b : Blk) (n : Nat) (c : DownCause) : Blk :=
  let k := b.link n
  let ok := match c with
    | .los => true
    | .lock => decide (8 ≤ k.uncorrRun)
    | .uncorrBurst => decide (b.field (Reg.lnkCfg n) 16 8 < (k.uncorr.filter (fun t => b.tb < t + 1000000)).length)
    | .silent => decide (k.goodAt + 10000 ≤ b.tb)
    | .replayLimit => decide (16 ≤ k.replays)
  if ok then b.goDown n c else b

/-! ## Timers -/

/-- NAK_RESEND: RX_NEXT has not been accepted 1 µs after a NAK (R275). -/
def nakResend (b : Blk) (n : Nat) : Blk :=
  let k := b.link n
  if k.live && k.wait && k.nakAt + 1000 ≤ b.tb then b.sendNak n else b

/-- ACK_TIMEOUT: nothing has advanced TX_OLDEST for ACK_TIMEOUT_US while flits are held (R276). -/
def ackTimeout (b : Blk) (n : Nat) : Blk :=
  let k := b.link n
  if k.live && !k.held.isEmpty && k.ackAt + b.field (Reg.lnkCfg n) 9 7 * 1000 ≤ b.tb then b.replay n else b

/-- ACK_TIMER: 250 ns after the first flit accepted and not acknowledged (R277). -/
def ackTimer (b : Blk) (n : Nat) : Blk :=
  let k := b.link n
  if k.live && k.unacked != 0 && k.unackAt + 250 ≤ b.tb then b.sendAck n else b

/-- GRACE_EXPIRY: the grace timer of a HELD link ends, and it flushes (R284). -/
def graceExpiry (b : Blk) (n : Nat) : Blk :=
  let k := b.link n
  if k.state == .held && k.graceEnd ≤ b.tb then b.flush n else b

/-- WORM_GAP_TIMEOUT: the next flit of a worm being forwarded has not come within 4 µs (R279). -/
def wormGapTimeout (b : Blk) (n : Nat) : Blk :=
  if (b.holdOf n).isSome && (b.link n).rx.any (fun p => p.routed && p.left != 0) && (b.link n).rxAt + 4000 ≤ b.tb then b.truncateRx n
  else b

/-- CLOSE_TIMEOUT: a close has not ended within 100 µs (R286). -/
def closeTimeout (b : Blk) (n : Nat) : Blk :=
  let k := b.link n
  if k.live && k.asked && k.closeAt + 100000 ≤ b.tb then (b.flag (Reg.lnkErr n) 6).flush n else b

/-! ## The TRAIN exchange (R269, R270) -/

/-- Does a number lie in a window of sequence numbers, both ends included, modulo 4,096. -/
def inWindow (x lo hi : Nat) : Bool := (x + 4096 - lo) % 4096 ≤ (hi + 4096 - lo) % 4096

/-- A link enters UP (R269, R270): from HELD it resumes where every condition holds and otherwise flushes first; from TRAINING its
numbers start at 0. -/
def Blk.enterUp (b : Blk) (n : Nat) (t : TrainFlit) : Blk :=
  let k := b.link n
  let serial := (b.reg (Reg.lnkPeerSerialLo n)).toNat + (b.reg (Reg.lnkPeerSerialHi n)).toNat * 2 ^ 32
  let note : Blk → Blk := fun b =>
    (b.setReg (Reg.lnkPeerSerialLo n) (t.serial.setWidth 32)).setReg (Reg.lnkPeerSerialHi n) ((t.serial >>> 32).setWidth 32)
  let up : Bool → Link → Link := fun r k => { k with state := .up, resumed := r, goodAt := b.tb, good := 0, ready := false, gotReady := false, credit := 0 }
  if k.state = .held then
    let rn := t.rxNext.toNat
    if t.resume && t.serial.toNat == serial && inWindow rn k.txOldest k.txNext && inWindow k.rxNext t.txOldest.toNat t.txNext.toNat then
      let m := (rn + 4096 - k.txOldest) % 4096
      (((note b).modLink n (fun k => up true { k with
        txOldest := rn, held := k.held.drop m, ackAt := b.tb, replayFrom := none, replays := 0 })).traceLink n 2 0).resend n
    else ((note (b.dropFlits n)).modLink n (up false)).traceLink n 4 0
  else ((note b).modLink n (fun k => up false k.cleared)).traceLink n 4 0

/-- The payload of the TRAIN flits that a port sends (R269): RESUME while it holds retained sequence state. -/
def Blk.trainPayload (b : Blk) (n : Nat) : Bytes :=
  let k := b.link n
  toLe 1 1 ++ toLe 1 (b2n k.ready + 2 * b2n (k.state == .held)) ++ toLe 2 k.rxNext ++ toLe 2 k.txOldest ++ toLe 2 k.txNext ++
    toLe 8 b.sec.otp.serial.toNat ++ toLe 1 n ++ zeros 15

/-- TRAIN flits sent. -/
def Blk.sendTrain (b : Blk) (n count : Nat) : Blk := b.emit n 0x8 0 (b.trainPayload n) count

/-- TRAIN: the exchange of stage 5 (R269). READY is set after 8 flits in a row with valid CRC, with which 8 flits with READY = 1 go out, and
one more for each flit that comes (log entry 64). A link in UP ignores it. -/
def trainFlit (b : Blk) (n : Nat) (t : TrainFlit) (crcOk : Bool) : Blk :=
  let k := b.link n
  if !(k.state == .training || k.state == .held) || k.stage != 5 then b
  else if !crcOk || t.reservedSet then b.modLink n (fun k => { k with good := 0 })
  else if t.version != 0x01 then b.trainFail n
  else
    let ready := k.ready || decide (8 ≤ k.good + 1)
    let b1 := (b.modLink n (fun k => { k with good := k.good + 1, ready := ready, gotReady := k.gotReady || t.ready })).sendTrain n
      (if ready && !k.ready then 8 else 1)
    if ready && (b1.link n).gotReady then b1.enterUp n t else b1

/-- TRAINING_STAGE_DONE: a stage completes and the next one starts; a fast retrain skips stage 2, stage 1 needs every lane, and stage 4 has found
the boundaries of the codewords with 64 correctable ones in a row (R264, R266, R268). -/
def trainingStageDone (b : Blk) (n : Nat) (lanes polarity : Nat) (reversed : Bool) : Blk :=
  let k := b.link n
  if !(k.state == .training || k.state == .held) || 5 ≤ k.stage then b
  else if k.stage = 1 && lanes != 15 then b.modLink n (fun k => { k with lanes := lanes })
  else if k.stage = 0 || (k.stage = 4 && k.corrRun < 64) then b
  else (if k.stage = 4 then b.sendTrain n 1 else b).modLink n (fun k => { k with
    stage := if k.stage = 1 && !k.full then 3 else k.stage + 1
    stageAt := b.tb
    corrRun := 0
    cwPos := if k.stage = 4 then 0 else k.cwPos
    cwBad := k.cwBad && k.stage != 4
    lanes := if k.stage = 1 then lanes else k.lanes
    polarity := if k.stage = 3 then polarity else k.polarity
    reversed := if k.stage = 3 then reversed else k.reversed })

/-- TRAINING_STAGE_TIMEOUT: a stage exceeds its limit (R268). -/
def trainingStageTimeout (b : Blk) (n : Nat) : Blk :=
  let k := b.link n
  if (k.state == .training || k.state == .held) && k.stage != 0 && k.stageAt + stageLimit k.full k.stage ≤ b.tb then b.trainFail n else b

/-! ## LNK[n]_CTL (R287) -/

/-- LINK_ENABLE: ENABLE written 1; a HELD link that ENABLE has kept from training starts to. -/
def linkEnable (b : Blk) (n : Nat) : Blk :=
  let b1 := b.setReg (Reg.lnkCtl n) (b.reg (Reg.lnkCtl n) ||| 1#32)
  if (b1.link n).state = .disabled then b1.linkIdle n
  else if (b1.link n).state = .held && (b1.link n).stage = 0 then b1.modLink n (fun k => k.attempt false b.tb)
  else b1

/-- LINK_DISABLE: ENABLE written 0 closes a link in UP, flushes one in HELD and idles one in TRAINING (R284, R286). -/
def linkDisable (b : Blk) (n : Nat) : Blk :=
  let b1 := b.setReg (Reg.lnkCtl n) (b.reg (Reg.lnkCtl n) &&& ~~~ 1#32)
  match (b1.link n).state with
  | .up => b1.beginClose n
  | .held => b1.flush n
  | .training => b1.linkIdle n
  | _ => b1

/-- FORCE_FULL: the next attempt is a full training. -/
def forceFull (b : Blk) (n : Nat) : Blk := b.modLink n (fun k => { k with forceFull := true })

end Sys2Proof.Machine
end

