-- ==== Sys2Proof/Machine/Vec.lean ====
section
/-! DEFINITION. The vector group: FP32 operations with their counts, the four functions, and the row computations of the kinds that
use them (R140, R142, R162, R180, R182, R184 to R188). -/

namespace Sys2Proof.Machine

/-! ## Fixed-point approximations of the functions (R162)

Numbers are held as integers in units of 2^-320, so that an approximation tells between which two FP32 values the exact value lies. -/

/-- The units of the fixed-point numbers. -/
def fxOne : Int := 2 ^ 320

/-- The product of two fixed-point numbers. -/
def fxMul (a b : Int) : Int := a * b / fxOne

/-- The sum of 2/((2k+1)·n^(2k+1)) over n terms from k, for an integer n. -/
def atanhInv (n : Int) : Nat → Int → Int → Int → Int
  | 0, _, _, acc => acc
  | j + 1, k, p, acc => atanhInv n j (k + 1) (p * n * n) (acc + 2 * fxOne / ((2 * k + 1) * p))

/-- ln 2. -/
def fxLn2 : Int := atanhInv 3 110 0 3 0

/-- The Taylor sum of e^r: n terms from index i, with the last term formed. -/
def expSum (r : Int) : Nat → Int → Int → Int → Int
  | 0, _, _, acc => acc
  | n + 1, i, t, acc =>
    let t1 := fxMul t r / i
    expSum r n (i + 1) t1 (acc + t1)

/-- e^x for a rational of moderate size. -/
def expApprox (x : Rat) : Rat :=
  let fx := (x.num * fxOne) / x.den
  let k := fx / fxLn2
  (expSum (fx - k * fxLn2) 90 1 fxOne fxOne : Int) / (fxOne : Rat) * pow2 k

/-- 2·atanh z: n terms from index k, with z to the power 2k+1. -/
def atanhSum (z2 : Int) : Nat → Int → Int → Int → Int
  | 0, _, _, acc => acc
  | n + 1, k, p, acc => atanhSum z2 n (k + 1) (fxMul p z2) (acc + 2 * p / (2 * k + 1))

/-- ln x for a positive rational. -/
def lnApprox (x : Rat) : Rat :=
  let e := ilog2 x
  let m := x / pow2 e
  let z := (m - 1) / (m + 1)
  let fz := (z.num * fxOne) / z.den
  ((e * fxLn2 + atanhSum (fxMul fz fz) 110 0 fz 0 : Int) : Rat) / fxOne

/-- The integer square root of a number by Newton's method, from above. -/
def isqrt : Nat → Nat → Nat → Nat
  | 0, _, x => x
  | f + 1, n, x => if x = 0 then 0 else
      let y := (x + n / x) / 2
      if x ≤ y then x else isqrt f n y

/-- The floor of the square root of a number. -/
def natSqrt (n : Nat) : Nat := isqrt (Nat.log2 n + 8) n (2 ^ (Nat.log2 n / 2 + 1))

/-- 1/√x for a positive rational, and whether it is exact. -/
def rsqrtApprox (x : Rat) : Rat × Bool :=
  let n := x.num.natAbs; let d := x.den
  let s := natSqrt (n * d)
  if s * s = n * d then ((d : Rat) / s, true)
  else
    let t := natSqrt (d * 2 ^ 1024 / n)
    ((t : Rat) / pow2 512, false)

/-- The result of a function of R162: the exact value where it is representable, else one of the two adjacent FP32 values, which the
manual leaves open. -/
def pickNear (fn : Nat) (input : Word) (q : Rat) (exact : Bool) : Val :=
  let d := roundTo .down (-126) 23 q
  let u := roundTo .up (-126) 23 q
  let r := if exact && d = q then q
    else if Config.vecUp fn input then (if exact || d != u then u else d + pow2 (max (ilog2 (ratAbs d)) (-126) - 23)) else d
  if pow2 128 ≤ r then .inf false else if r ≤ -pow2 128 then .inf true else .fin r (decide (q < 0))

/-- exp. -/
def vExp (v : Val) : Val :=
  match v with
  | .nan _ => .nan false
  | .inf s => if s then .num 0 else .inf false
  | .fin q _ =>
    if q = 0 then .num 1
    else if 200 < q then .inf false
    else pickNear 0 (f32Of v) (expApprox (if q < -1000 then -1000 else q)) false

/-- ln. -/
def vLn (v : Val) : Val :=
  match v with
  | .nan _ => .nan false
  | .inf s => if s then .nan false else .inf false
  | .fin q _ =>
    if q = 0 then .inf true
    else if q < 0 then .nan false
    else if q = 1 then .num 0
    else pickNear 1 (f32Of v) (lnApprox q) false

/-- The reciprocal. -/
def vRecip (v : Val) : Val :=
  match v with
  | .nan _ => .nan false
  | .inf s => .fin 0 s
  | .fin q n => if q = 0 then .inf n else pickNear 2 (f32Of v) (1 / q) true

/-- The reciprocal square root. -/
def vRsqrt (v : Val) : Val :=
  match v with
  | .nan _ => .nan false
  | .inf s => if s then .nan false else .num 0
  | .fin q n =>
    if q = 0 then .inf n
    else if q < 0 then .nan false
    else
      let r := rsqrtApprox q
      pickNear 3 (f32Of v) r.1 r.2

/-- Is one value greater than another, a negative zero below a positive one (R162). -/
def Val.above (a b : Val) : Bool :=
  match a, b with
  | .fin p m, .fin q n => decide (q < p) || (p == 0 && q == 0 && !m && n)
  | _, _ => a.gt b

/-- max of R162. -/
def vMax (a b : Val) : Val := if a.isNan || b.isNan then .nan false else if b.above a then b else a

/-- min of R162. -/
def vMin (a b : Val) : Val := if a.isNan || b.isNan then .nan false else if a.above b then b else a

/-! ## Operations with their counts (R140, R142, R157) -/

/-- A computation that counts. -/
abbrev Calc := StateM Tally

/-- A count of saturations raised. -/
def tickSat (c : Bool) : Calc Unit := modify (fun t => if c then { t with sat := t.sat + 1 } else t)

/-- A result in FP32, rounded once; an infinity from finite inputs is counted (R140). -/
def rn (v : Val) (fin : Bool) : Calc Val := do
  let r := f32Rnd v
  tickSat (r.isInf && fin)
  return r

/-- A sum. -/
def cAdd (a b : Val) : Calc Val := rn (a.add b) (a.isFin && b.isFin)
/-- A difference. -/
def cSub (a b : Val) : Calc Val := rn (a.add b.negate) (a.isFin && b.isFin)
/-- A product. -/
def cMul (a b : Val) : Calc Val := rn (a.mul b) (a.isFin && b.isFin)

/-- A function of R162; an infinity from a finite input is counted. -/
def cFun (f : Val → Val) (a : Val) : Calc Val := do
  let r := f a
  tickSat (r.isInf && a.isFin)
  return r

/-- A function applied to each element, in order. -/
def cMap (f : Val → Calc Val) : List Val → Calc (List Val)
  | [] => return []
  | x :: t => do
    let y ← f x
    let r ← cMap f t
    return y :: r

/-- A sum over a list, in order from +0. -/
def cSum : List Val → Val → Calc Val
  | [], s => return s
  | x :: t, s => do
    let s1 ← cAdd s x
    cSum t s1

/-! ## Row computations -/

/-- The operations of ELEMWISE but ROPE on one element (R187). -/
def elemOp (op : Nat) (alpha beta a b : Val) : Calc Val :=
  let silu : Calc Val := do
    let e ← cFun vExp a.negate
    let d ← cAdd (.num 1) e
    let r ← cFun vRecip d
    cMul a r
  match op with
  | 0 => cAdd a b
  | 1 => cSub a b
  | 2 => cMul a b
  | 3 => return vMax a b
  | 4 => return vMin a b
  | 5 => cFun vExp a
  | 6 => cFun vRecip a
  | 7 => cFun vRsqrt a
  | 8 => silu
  | 9 => do
    let s ← silu
    cMul s b
  | _ => do
    let m ← cMul a alpha
    cAdd m beta

/-- The computations of a row of results, element by element. -/
abbrev Row := List (Calc Val)

/-- ROPE on a row (R187). -/
def ropeRow : List Val → List Val → Row
  | a0 :: a1 :: as_, c :: s :: bs =>
    let even : Calc Val := do
      let x ← cMul a0 c
      let y ← cMul a1 s
      cSub x y
    let odd : Calc Val := do
      let u ← cMul a0 s
      let v ← cMul a1 c
      cAdd u v
    even :: odd :: ropeRow as_ bs
  | _, _ => []

/-- ELEMWISE on a row. -/
def elemwiseRow (op : Nat) (alpha beta : Val) (a b : List Val) : Row :=
  if op = 11 then ropeRow a b else List.zipWith (elemOp op alpha beta) a b

/-- NORM on a row (R188): RMS, or LAYER with its β: what the row shares, and then its elements. -/
def normRow (layer : Bool) (eps : Val) (x gamma beta : List Val) : Calc Row := do
  let inv := f32Rnd (.num (1 / (x.length : Rat)))
  if layer then
    let s ← cSum x Val.zero
    let mu ← cMul s inv
    let d ← cMap (fun e => cSub e mu) x
    let dd ← cMap (fun e => cMul e e) d
    let s2 ← cSum dd Val.zero
    let v ← cMul s2 inv
    let ve ← cAdd v eps
    let r ← cFun vRsqrt ve
    return (d.zip (gamma.zip beta)).map (fun e => do
      let y ← cMul e.1 r
      let z ← cMul y e.2.1
      cAdd z e.2.2)
  else
    let xx ← cMap (fun e => cMul e e) x
    let s ← cSum xx Val.zero
    let m ← cMul s inv
    let me ← cAdd m eps
    let r ← cFun vRsqrt me
    return List.zipWith (fun e g => do
      let y ← cMul e r
      cMul y g) x gamma

/-- REDUCE on a column by ADD, MAX or MIN, in ascending row (R185). -/
def reduceCol (op : Nat) : List Val → Val → Calc Val
  | [], acc => return acc
  | x :: t, acc => do
    let a ← match op with
      | 0 => cAdd acc x
      | 1 => pure (vMax acc x)
      | _ => pure (vMin acc x)
    reduceCol op t a

/-- REDUCE on k columns of its rows. -/
def reduceRows (op k : Nat) (rows : List (List Val)) : Row :=
  (List.range k).map (fun i =>
    let col := rows.map (fun r => r.getD i Val.zero)
    reduceCol op (col.drop 1) (col.headD Val.zero))

/-- The weighted sum of the elements of a column of LSE_MERGE. -/
def mergeCol : List Val → List Val → Val → Calc Val
  | w :: ws, o :: os, a => do
    let p ← cMul w o
    let s ← cAdd a p
    mergeCol ws os s
  | _, _, a => return a

/-- LSE_MERGE (R185): what its results share, and then the merged row and the merged LSE. -/
def mergeRows (k : Nat) (rows : List (List Val)) (lse : List Val) : Calc (Row × Calc Val) := do
  let m := (lse.drop 1).foldl vMax (lse.headD (.inf true))
  if lse.all (fun v => v == .inf true) then return (List.replicate k (pure Val.zero), pure (.inf true))
  else
    let w ← cMap (fun e => do
      let d ← cSub e m
      cFun vExp d) lse
    let s ← cSum w Val.zero
    let r ← cFun vRecip s
    let out : Row := (List.range k).map (fun i => do
      let a ← mergeCol w (rows.map (fun o => o.getD i Val.zero)) Val.zero
      cMul a r)
    return (out, do
      let l ← cFun vLn s
      cAdd m l)

/-- Does an element rank before another in TOPK (R186): by value, descending; equal values and NaNs by the lower index. -/
def ranksBefore (a b : Nat × Val) : Bool :=
  match a.2.isNan, b.2.isNan with
  | true, true => a.1 < b.1
  | true, false => false
  | false, true => true
  | false, false => if a.2.gt b.2 then true else if b.2.gt a.2 then false else a.1 < b.1

/-- An element put into a ranked list. -/
def rankInsert (e : Nat × Val) : List (Nat × Val) → List (Nat × Val)
  | [] => [e]
  | x :: t => if ranksBefore e x then e :: x :: t else x :: rankInsert e t

/-- The k first of a row in rank order. -/
def topRow (k : Nat) (row : List Val) : List (Nat × Val) :=
  ((List.range row.length).zip row).foldl (fun acc e => (rankInsert e acc).take k) []

/-- SOFTMAX of the selected values of TOPK (R186). -/
def softRow (vs : List Val) : Calc Row := do
  let v0 := vs.headD Val.zero
  let es ← cMap (fun v => do
    let d ← cSub v v0
    cFun vExp d) vs
  let s ← cSum es Val.zero
  let r ← cFun vRecip s
  return es.map (fun e => cMul e r)

/-! ## The softmax update of ATTEND (R180) -/

/-- The output elements of a head after a token: o·c + p·v. -/
def attendOut (c p : Val) : List Val → List Val → Calc (List Val)
  | o :: os, v :: vs => do
    let x ← cMul o c
    let y ← cMul p v
    let z ← cAdd x y
    let r ← attendOut c p os vs
    return z :: r
  | _, _ => return []

/-- A head after a token with score dot·SM_SCALE and value row v. -/
def attendStep (h : Head) (dot scale : Word) (v : List Val) : Calc Head := do
  let m := f32Val h.m
  let s ← cMul (f32Val dot) (f32Val scale)
  let m2 := vMax m s
  let cp : Val × Val ← if m2 == .inf true then pure (Val.num 1, Val.zero)
    else do
      let d ← cSub m m2
      let c ← cFun vExp d
      let e ← cSub s m2
      let p ← cFun vExp e
      pure (c, p)
  let lc ← cMul (f32Val h.l) cp.1
  let l ← cAdd lc cp.2
  let o ← attendOut cp.1 cp.2 (h.o.map f32Val) v
  return ⟨f32Of m2, f32Of l, o.map f32Of⟩

/-- The output row of a head. -/
def attendRow (h : Head) : Calc Row := do
  let r ← cFun vRecip (f32Val h.l)
  return h.o.map (fun e => cMul (f32Val e) r)

/-- The LSE of a head, formed only where LSE_OUT asks for it. -/
def attendLse (h : Head) : Calc Val := do
  let l ← cFun vLn (f32Val h.l)
  cAdd (f32Val h.m) l

end Sys2Proof.Machine
end

