-- ==== Sys2Proof/Machine/Desc.lean ====
section
/-! DEFINITION. Task descriptors and Sheaf images: their fields, the legality of each kind, operand spans, read and write sets, the
edge lists and the determinism check (R130, R136, R138, R145, R148, R167 to R173, R176 to R190, R193 to R197, R201, R203 to R206). -/

namespace Sys2Proof.Machine

/-! ## Descriptors (R168, R169, R195) -/

/-- A task descriptor by its fields. -/
structure Desc where
  raw : Bytes
  kind : Nat
  prio : Nat
  safe : Bool
  noPre : Bool
  home : Nat
  tag : Nat
  succFirst : Nat
  succCount : Nat
  safeAddr : Nat
  dyn : Nat
  opa : Nat
  opb : Nat
  opc : Nat
  opd : Nat
  fmts : Nat
  awn : Nat
  m : Nat
  k : Nat
  n : Nat
  flags : Nat
  opt : Nat
  p0 : Nat
  p1 : Nat
  deriving DecidableEq, Repr

/-- A descriptor read from its 128 bytes. -/
def readDesc (r : Bytes) : Desc :=
  { raw := r, kind := fld (u8 r 0) 3 0, prio := fld (u8 r 0) 6 4, safe := bit (u8 r 1) 0, noPre := bit (u8 r 1) 1,
    home := u8 r 2, tag := le r 4 4, succFirst := le r 8 4, succCount := le r 0x0C 2, safeAddr := le r 0x10 8,
    dyn := le r 0x18 4, opa := le r 0x20 8, opb := le r 0x28 8, opc := le r 0x30 8, opd := le r 0x38 8, fmts := le r 0x40 4,
    awn := le r 0x44 4, m := le r 0x48 4, k := le r 0x4C 4, n := le r 0x50 2, flags := le r 0x52 2, opt := le r 0x54 4,
    p0 := le r 0x58 8, p1 := le r 0x60 8 }

/-- The code of format A. -/
def Desc.fa (d : Desc) : Nat := fld d.fmts 3 0
/-- The code of format B. -/
def Desc.fb (d : Desc) : Nat := fld d.fmts 7 4
/-- The code of format C. -/
def Desc.fc (d : Desc) : Nat := fld d.fmts 11 8
/-- The code of format D. -/
def Desc.fd (d : Desc) : Nat := fld d.fmts 15 12
/-- The scale bit of A. -/
def Desc.sa (d : Desc) : Bool := bit d.fmts 16
/-- The scale bit of B. -/
def Desc.sb (d : Desc) : Bool := bit d.fmts 17
/-- The scale bit of C. -/
def Desc.sc (d : Desc) : Bool := bit d.fmts 18
/-- The scale bit of D. -/
def Desc.sd (d : Desc) : Bool := bit d.fmts 19
/-- SIDE_A. -/
def Desc.sideA (d : Desc) : Bool := bit d.fmts 20
/-- SIDE_C. -/
def Desc.sideC (d : Desc) : Bool := bit d.fmts 21
/-- OUTLIERS. -/
def Desc.outliers (d : Desc) : Nat := fld d.fmts 23 22

/-- A format of a code; BF16 where the code is none, which an admitted descriptor never has. -/
def fmtAt (c : Nat) : Fmt := (fmtOf c).getD .bf16
/-- A scale format of a scale bit. -/
def sfmtAt (s : Bool) : SFmt := if s then .f8a else .e8

/-- FP32 or BF16. -/
def isFlt (c : Nat) : Bool := c == 0xA || c == 0xB
/-- Is a code one of the block formats 0x0 to 0x9, or BF16. -/
def isHeld (c : Nat) : Bool := c ≤ 0xA
/-- A K of a blocked operand. -/
def kBlocked (k : Nat) : Bool := 32 ≤ k && k ≤ 1048576 && k % 32 == 0
/-- Does GATHER or SCATTER move bytes: C repeats the format, scale format and sidecars of A (R182, R183). A GATHER of BF16 into BF16 fits
this and the decode form alike; it moves bytes, so it produces no safeguard record (R156): DESIGN CHOICE, log 70. -/
def Desc.byteCopy (d : Desc) : Bool := d.fc == d.fa && d.sc == d.sa && d.sideC == d.sideA
/-- Does an ELEMWISE operation read b (R187). -/
def Desc.usesB (d : Desc) : Bool := d.opt ∈ [0, 1, 2, 3, 4, 9, 11]
/-- Is an FP32 word finite. -/
def finite32 (w : Nat) : Bool := fld w 30 23 != 255

/-- The parts of a body that a kind names; every other part must be 0 (R170). -/
structure Named where
  opa : Bool := false
  opb : Bool := false
  opc : Bool := false
  opd : Bool := false
  fa : Bool := false
  fb : Bool := false
  fc : Bool := false
  fd : Bool := false
  sa : Bool := false
  sb : Bool := false
  sc : Bool := false
  sd : Bool := false
  sideA : Bool := false
  sideC : Bool := false
  outl : Bool := false
  awn : Bool := false
  m : Bool := false
  k : Bool := false
  n : Bool := false
  flags : Bool := false
  opt : Bool := false
  p0 : Bool := false
  p1 : Bool := false

/-- Is every part that a kind does not name 0. -/
def Named.restZero (u : Named) (d : Desc) : Bool :=
  let z := fun (named : Bool) (v : Nat) => named || v == 0
  z u.opa d.opa && z u.opb d.opb && z u.opc d.opc && z u.opd d.opd && z u.fa d.fa && z u.fb d.fb && z u.fc d.fc && z u.fd d.fd &&
  z u.sa (b2n d.sa) && z u.sb (b2n d.sb) && z u.sc (b2n d.sc) && z u.sd (b2n d.sd) && z u.sideA (b2n d.sideA) &&
  z u.sideC (b2n d.sideC) && z u.outl d.outliers && z u.awn d.awn && z u.m d.m && z u.k d.k && z u.n d.n && z u.flags d.flags &&
  z u.opt d.opt && z u.p0 d.p0 && z u.p1 d.p1

/-- The dot-product formats and control word of a task (R138, R145). -/
def Desc.dotOk (d : Desc) : Bool :=
  isHeld d.fa && pairOkFmt (fmtAt d.fa) (fmtAt d.fb) && d.fb ≤ 0xA && (readAwn d.awn (fmtAt d.fa)).isSome

/-- The legality of a kind's own fields, and the parts that it names; none where it is malformed (R176 to R190). DESIGN CHOICE (log entry 91):
DIM_K = 0 is malformed for QUANT, DEQUANT, REDUCE, ELEMWISE and NORM, to whose K the manual gives no lower bound. -/
def Desc.kindOk (d : Desc) : Option Named :=
  match d.kind with
  | 0 | 1 =>
    let shadow := bit d.flags 0; let bias := bit d.flags 1
    when? (d.dotOk && (isFlt d.fc || (d.fc == 0xC && (fmtAt d.fa).isInt)) && d.flags < 4 && 32 ≤ d.m && d.m ≤ 16777216 && d.m % 32 == 0 &&
        kBlocked d.k && (d.kind == 1 || d.n ≤ 64) && (!shadow || (d.fd ≤ 0xA && shadowOk (fmtAt d.fa) (fmtAt d.fd))) &&
        (!bias || (d.p0 < 2 ^ 48 && d.p0 % 128 == 0)))
      { opa := true, opb := true, opc := true, fa := true, fb := true, fc := true, sa := true, sb := true, sideA := true, awn := true,
        m := true, k := true, n := true, flags := true, opd := shadow, fd := shadow, sd := shadow, p0 := bias }
  | 2 =>
    when? (d.dotOk && isFlt d.fc && 2 ≤ d.fd && isHeld d.fd && 1 ≤ d.m && d.m ≤ 1024 && 32 ≤ d.k && d.k ≤ 512 && d.k % 32 == 0 &&
        1 ≤ d.n && d.m % d.n == 0 && d.m / d.n ≤ 64 && d.opt ∈ [16, 32, 64, 128] && (d.flags == 0 || d.flags == 4) &&
        1 ≤ d.p0 / 2 ^ 32 && d.p1 < 2 ^ 32 && finite32 d.p1)
      { opa := true, opb := true, opc := true, fa := true, fb := true, fc := true, fd := true, sa := true, sb := true, sd := true,
        awn := true, m := true, k := true, n := true, opt := true, flags := true, p0 := true, p1 := true, opd := bit d.flags 2 }
  | 3 =>
    when? (isHeld d.fa && 1 ≤ d.m && d.m ≤ 2147483648 && kBlocked d.k && (d.byteCopy || isFlt d.fc))
      { opa := true, opb := true, opc := true, fa := true, sa := true, sideA := true, fc := true, m := true, k := true, n := true,
        sc := d.byteCopy, sideC := d.byteCopy }
  | 4 =>
    when? (isHeld d.fa && 1 ≤ d.m && d.m ≤ 2147483648 && kBlocked d.k && d.byteCopy)
      { opa := true, opb := true, opc := true, fa := true, sa := true, sideA := true, fc := true, sc := true, sideC := true,
        m := true, k := true, n := true }
  | 5 =>
    when? (isFlt d.fa && d.fc ≤ 9 && d.outliers ≤ 2 && (d.outliers == 0 || d.sideC) && 32 ≤ d.k && d.k % 32 == 0)
      { opa := true, opc := true, fa := true, fc := true, sc := true, sideC := true, outl := true, k := true, n := true }
  | 6 =>
    when? (d.fa ≤ 9 && isFlt d.fc && 32 ≤ d.k && d.k % 32 == 0)
      { opa := true, opc := true, fa := true, sa := true, sideA := true, fc := true, k := true, n := true }
  | 7 =>
    when? (isFlt d.fa && isFlt d.fc && d.opt ≤ 3 && 1 ≤ d.k)
      { opa := true, opc := true, fa := true, fc := true, opt := true, k := true, n := true, opb := d.opt == 3, opd := d.opt == 3 }
  | 8 =>
    when? (isFlt d.fa && isFlt d.fc && d.fd == 0xC && 1 ≤ d.k && d.k ≤ 1048576 && 1 ≤ d.opt && d.opt ≤ 64 && d.opt ≤ d.k &&
        (d.flags == 0 || d.flags == 8))
      { opa := true, opc := true, opd := true, fa := true, fc := true, fd := true, opt := true, k := true, n := true, flags := true }
  | 9 =>
    when? (isFlt d.fa && isFlt d.fc && d.opt ≤ 11 && 1 ≤ d.k && (d.opt != 11 || d.k % 2 == 0) &&
        (!d.usesB || isFlt d.fb) && (d.flags == 0 || d.flags == 64))
      { opa := true, opc := true, fa := true, fc := true, opt := true, k := true, n := true, p0 := true, opb := d.usesB, fb := d.usesB,
        flags := true }
  | 0xA =>
    when? (isFlt d.fa && isFlt d.fb && isFlt d.fc && d.opt ≤ 1 && 1 ≤ d.k && d.p0 < 2 ^ 32 && finite32 d.p0 &&
        (d.p0 < 2 ^ 31 || d.p0 == 2 ^ 31) && (d.opt == 0 || isFlt d.fd))
      { opa := true, opb := true, opc := true, fa := true, fb := true, fc := true, opt := true, k := true, n := true, p0 := true,
        opd := d.opt == 1, fd := d.opt == 1 }
  | 0xB => when? (1 ≤ d.p0 && d.p0 ≤ 2 ^ 40) { opa := true, opc := true, p0 := true }
  | 0xC => when? (1 ≤ d.p0 && d.p0 ≤ 2 ^ 40) { opc := true, p0 := true, p1 := true }
  | 0xD => when? (1 ≤ d.p0 && d.p0 ≤ 2 ^ 40 && d.opc % 64 == 0) { opa := true, opc := true, p0 := true }
  | _ => none

/-! ## Spans (R171, R172) -/

/-- x rounded up to a multiple of 128. -/
def ceil128 (x : Nat) : Nat := (x + 127) / 128 * 128

/-- The start of the scale region of a blocked operand, from its address. -/
def scaleOff (rows k : Nat) (f : Fmt) : Nat := ceil128 (rows * (k / 32) * f.blockBytes)
/-- The start of its sidecar region. -/
def sideOff (rows k : Nat) (f : Fmt) : Nat := scaleOff rows k f + ceil128 (rows * (k / 32))

/-- The regions of a blocked operand: start and length of its elements, scales and sidecars. -/
def blockRegions (a rows k : Nat) (f : Fmt) (side : Bool) : List (Nat × Nat) :=
  let nb := rows * (k / 32)
  if f = .bf16 then [(a, nb * f.blockBytes)]
  else [(a, nb * f.blockBytes), (a + scaleOff rows k f, nb)] ++ (if side then [(a + sideOff rows k f, 4 * nb)] else [])

/-- The span of regions, rounded up to whole lines. -/
def regionSpan (rs : List (Nat × Nat)) : Nat × Nat :=
  match rs with
  | [] => (0, 0)
  | r :: _ => let e := (rs.map (fun x => x.1 + x.2)).foldl max 0
              (r.1, ceil128 (e - r.1))

/-- The span of a blocked operand. -/
def blockSpan (a rows k : Nat) (f : Fmt) (side : Bool) : Nat × Nat := regionSpan (blockRegions a rows k f side)

/-- The width of an unblocked element. -/
def flatWidth (f : Fmt) : Nat := if f = .bf16 then 2 else 4

/-- The span of an unblocked operand. -/
def flatSpan (a rows k : Nat) (f : Fmt) : Nat × Nat := (a, ceil128 (rows * k * flatWidth f))

/-- The input spans and the result spans of a descriptor (R173, R204), as start and length; the whole of DYN_EXTENT and the
safeguard record apart. -/
def Desc.spans (d : Desc) : List (Nat × Nat) × List (Nat × Nat) :=
  let A := fmtAt d.fa; let B := fmtAt d.fb; let C := fmtAt d.fc; let D := fmtAt d.fd
  match d.kind with
  | 0 | 1 =>
    ([blockSpan d.opa d.m d.k A d.sideA, blockSpan d.opb d.n d.k B false] ++
      (if bit d.flags 0 then [blockSpan d.opd d.m d.k D false] else []) ++ (if bit d.flags 1 then [flatSpan d.p0 1 d.m .fp32] else []),
     [flatSpan d.opc d.n d.m C])
  | 2 =>
    let t0 := d.p0 % 2 ^ 32; let n := d.p0 / 2 ^ 32
    let e0 := t0 / d.opt; let e1 := (t0 + n - 1) / d.opt
    ([(d.opa + 8 * e0, 8 * (e1 + 1 - e0)), blockSpan d.opb d.m d.k B false],
     [flatSpan d.opc d.m d.k C] ++ (if bit d.flags 2 then [flatSpan d.opd 1 d.m .fp32] else []))
  | 3 =>
    ([blockSpan d.opa d.m d.k A d.sideA, flatSpan d.opb 1 d.n .int32],
     [if d.byteCopy then blockSpan d.opc d.n d.k A d.sideA else flatSpan d.opc d.n d.k C])
  | 4 => ([blockSpan d.opa d.n d.k A d.sideA, flatSpan d.opb 1 d.n .int32], [blockSpan d.opc d.m d.k A d.sideA])
  | 5 => ([flatSpan d.opa d.n d.k A], [blockSpan d.opc d.n d.k C d.sideC])
  | 6 => ([blockSpan d.opa d.n d.k A d.sideA], [flatSpan d.opc d.n d.k C])
  | 7 =>
    ([flatSpan d.opa d.n d.k A] ++ (if d.opt = 3 then [flatSpan d.opb 1 d.n .fp32] else []),
     [flatSpan d.opc 1 d.k C] ++ (if d.opt = 3 then [flatSpan d.opd 1 1 .fp32] else []))
  | 8 => ([flatSpan d.opa d.n d.k A], [flatSpan d.opc d.n d.opt C, flatSpan d.opd d.n d.opt .int32])
  | 9 =>
    ([flatSpan d.opa d.n d.k A] ++ (if d.usesB then [flatSpan d.opb (if bit d.flags 6 then 1 else d.n) d.k B] else []),
     [flatSpan d.opc d.n d.k C])
  | 0xA =>
    ([flatSpan d.opa d.n d.k A, flatSpan d.opb 1 d.k B] ++ (if d.opt = 1 then [flatSpan d.opd 1 d.k D] else []),
     [flatSpan d.opc d.n d.k C])
  | 0xB => ([(d.opa, d.p0)], [(d.opc, d.p0)])
  | 0xC => ([], [(d.opc, d.p0)])
  | 0xD => ([(d.opa, d.p0)], [(d.opc, 64)])
  | 0xF => ([], if u8 d.raw 0x21 = 0 then [] else [(d.opb, 8)])
  | _ => ([], [])

/-- No result span overlaps an input span or another result span, but for an ELEMWISE in place (R173). -/
def Desc.spansOk (d : Desc) : Bool :=
  let s := d.spans
  let inPlace := d.kind == 9 && d.opc == d.opa && d.fc == d.fa
  s.2.all (fun o => (s.1.zip (List.range s.1.length)).all (fun i => !overlap o i.1 || (inPlace && i.2 == 0))) && disjointAll s.2

/-- The body of a NOTIFY (R197). -/
def Desc.notifyOk (d : Desc) (subs : Nat) : Bool :=
  let r := d.raw
  u8 r 0x20 < 2 ^ subs && u8 r 0x21 ≤ 2 && allZero (sl r 0x22 6) && allZero (sl r 0x40 0x28) &&
  (if u8 r 0x21 = 0 then d.opb == 0 && d.opc == 0 else d.opb < 2 ^ 48 && d.opb % 8 == 0)

/-- Is a kind one that produces a safeguard record (R156). -/
def Desc.safeKind (d : Desc) : Bool := d.kind ∈ [0, 1, 2, 5, 6, 7, 8, 9, 0xA] || (d.kind == 3 && !d.byteCopy)

/-- Is a descriptor well-formed in a Sheaf with some subscribers (R170, R173, R195, R197). -/
def Desc.ok (d : Desc) (subs : Nat) : Bool :=
  let r := d.raw
  u8 r 0 < 128 && u8 r 1 < 4 && fld d.home 6 2 == 0 && u8 r 3 == 0 && allZero (sl r 0x0E 2) && allZero (sl r 0x1C 4) &&
  (d.succCount != 0 || d.succFirst == 0) && (d.kind == 2 || d.dyn == 0) && fld d.dyn 30 18 == 0 &&
  allZero (sl r 0x68 24) &&
  (if d.safe then d.safeAddr < 2 ^ 48 && d.safeAddr % 32 == 0 && d.safeKind else d.safeAddr == 0) &&
  (match d.kind with
   | 0xE => d.home == 0 && allZero (sl r 0x20 0x48)
   | 0xF => d.home == 0 && d.notifyOk subs
   | _ => match d.kindOk with
     | none => false
     | some u =>
       let adr := fun (named : Bool) (a : Nat) => !named || (a < 2 ^ 48 && (d.kind ∈ [0xB, 0xC, 0xD] || a % 128 == 0))
       let scale := fun (s : Bool) (f : Nat) => !s || f ≤ 9
       u.restZero d && d.fmts < 2 ^ 24 && [d.fa, d.fb, d.fc, d.fd].all (· ≤ 0xC) && scale d.sa d.fa && scale d.sb d.fb &&
       scale d.sc d.fc && scale d.sd d.fd && (!d.sideA || (fmtAt d.fa).sidecar) && (!d.sideC || (fmtAt d.fc).sidecar) &&
       (!u.n || 1 ≤ d.n) && adr u.opa d.opa && adr u.opb d.opb && adr u.opc d.opc && adr u.opd d.opd && d.spansOk)

/-- The data home of a task (R195). -/
def Desc.homeQuad (d : Desc) : Nat :=
  if bit d.home 7 then (if d.kind = 0xC then d.opc else d.opa) / 2097152 % 4 else d.home % 4

/-! ## Sheaf images (R193, R194) -/

/-- A Sheaf header. -/
structure Header where
  policy : Nat
  doneMask : Nat
  tasks : Nat
  edges : Nat
  descOff : Nat
  edgeOff : Nat
  length : Nat
  wdogMs : Nat
  record : Nat
  statusArr : Nat
  subs : List Nat
  deriving DecidableEq, Repr

/-- A header read and checked (order 1 of R200); none where it is malformed. -/
def readHeader (h : Bytes) : Option Header :=
  let subs := u8 h 0x30
  let n := le h 8 4; let e := le h 0x0C 4; let dOff := le h 0x10 4; let eo := le h 0x14 4; let l := le h 0x18 4
  let dEnd := dOff + 128 * n; let ee := eo + 2 * e
  when? (le h 0 4 == 0x46414853 && le h 4 2 == 1 && u8 h 6 ≤ 2 && subs ≤ 8 && u8 h 7 < 2 ^ subs && 1 ≤ n && n ≤ 65536 && e ≤ 1048576 &&
      le h 0x1C 4 ≤ 3600000 && l % 128 == 0 && 256 ≤ l && l ≤ 10485888 && dOff % 128 == 0 && eo % 128 == 0 && 128 ≤ dOff && dEnd ≤ l &&
      ee ≤ l && (e == 0 || (128 ≤ eo && !overlap (dOff, 128 * n) (eo, 2 * e))) && le h 0x20 8 < 2 ^ 48 && le h 0x20 8 % 128 == 0 &&
      le h 0x28 8 < 2 ^ 48 && le h 0x28 8 % 128 == 0 && allZero (sl h 0x31 15) && allZero (sl h (0x40 + 2 * subs) (0x40 - 2 * subs)))
    { policy := u8 h 6, doneMask := u8 h 7, tasks := n, edges := e, descOff := dOff, edgeOff := eo, length := l, wdogMs := le h 0x1C 4,
      record := le h 0x20 8, statusArr := le h 0x28 8, subs := (List.range subs).map (fun i => le h (0x40 + 2 * i) 2) }

/-- Does a list rise strictly, from above a bound. -/
def risesFrom : Nat → List Nat → Bool
  | _, [] => true
  | b, x :: t => b < x && risesFrom x t

/-- The bytes of successor entries. -/
def succBytes (l : List Nat) : Bytes := (l.map (toLe 2)).flatten

/-- The check value of a task (R201). -/
def checkValue (desc : Bytes) (succ : List Nat) : Word := crc32 (desc ++ succBytes succ)

/-- The descriptor of task i of an image, with its successor list, where both are well-formed (order 4 of R200). -/
def imgTask (h : Header) (img : Bytes) (det : Bool) (i : Nat) : Option (Desc × List Nat) :=
  let d := readDesc (sl img (h.descOff + 128 * i) 128)
  let inside := d.succFirst + d.succCount ≤ h.edges
  let succ := if inside then (List.range d.succCount).map (fun j => le img (h.edgeOff + 2 * (d.succFirst + j)) 2) else []
  when? (inside && d.ok h.subs.length && risesFrom i succ && succ.all (· < h.tasks) && !(det && d.kind == 2 && !bit d.dyn 31)) (d, succ)

/-- The first task of an image that is malformed, or every task in order. -/
def imgTasks (h : Header) (img : Bytes) (det : Bool) : Nat → Nat → Except Nat (List (Desc × List Nat))
  | _, 0 => .ok []
  | i, n + 1 => match imgTask h img det i with
    | none => .error i
    | some t => match imgTasks h img det (i + 1) n with
      | .ok r => .ok (t :: r)
      | .error e => .error e

/-- Are the bytes of an image that lie in neither array 0 (R193). -/
def imgPadding (h : Header) (img : Bytes) : Bool :=
  let z := fun (lo hi : Nat) => allZero (sl img lo (hi - lo))
  let e1 := (h.descOff, h.descOff + 128 * h.tasks)
  let e2 := if h.edges = 0 then e1 else (h.edgeOff, h.edgeOff + 2 * h.edges)
  let lo := if e1.1 ≤ e2.1 then e1 else e2
  let hi := if e1.1 ≤ e2.1 then e2 else e1
  z 128 lo.1 && z lo.2 hi.1 && z hi.2 h.length

/-! ## The determinism check (R203 to R206) -/

/-- The read and write sets of a task, given the span of an extent by index (R204). -/
def Desc.sets (d : Desc) (ext : Nat → Option (Nat × Nat)) : List (Nat × Nat) × List (Nat × Nat) :=
  let s := d.spans
  (s.1 ++ (if d.kind = 2 && bit d.dyn 31 then ((ext (d.dyn % 2 ^ 18)).map (fun x => [x])).getD [] else []),
   s.2 ++ (if d.safe then [(d.safeAddr, 32)] else []))

/-- Do two tasks touch a byte that one of them writes, the atomics of two NOTIFY tasks of one kind on one word apart (R203). -/
def tasksClash (ext : Nat → Option (Nat × Nat)) (a c : Desc) : Bool :=
  let x := a.sets ext; let y := c.sets ext
  let hits := fun (l r : List (Nat × Nat)) => l.any (fun p => r.any (fun q => p.2 != 0 && q.2 != 0 && overlap p q))
  let same := a.kind == 0xF && c.kind == 0xF && u8 a.raw 0x21 == u8 c.raw 0x21 && u8 a.raw 0x21 != 0 && a.opb == c.opb
  !same && (hits x.2 y.1 || hits x.2 y.2 || hits x.1 y.2)

/-- The entries of one successor list examined: up to b; the visits, what joins the stack, and whether b was met. -/
def scanSucc (b : Nat) : List Nat → List Nat → List Nat → Nat → Nat × List Nat × List Nat × Bool
  | [], seen, stack, v => (v, seen, stack, false)
  | y :: t, seen, stack, v =>
    if b < y then (v, seen, stack, false)
    else if y = b then (v + 1, seen, stack, true)
    else if seen.contains y then scanSucc b t seen stack (v + 1)
    else scanSucc b t (y :: seen) (y :: stack) (v + 1)

/-- The forward search for b along successor lists, with the visits (R206). DESIGN CHOICE (log entry 93): it goes depth first, leaves a list at
the first entry above b without a visit, and ends when it meets b; the manual gives no order, on which the count of visits depends. -/
def searchFrom (succ : Nat → List Nat) (b : Nat) : Nat → List Nat → List Nat → Nat → Nat × Bool
  | 0, _, _, v => (v, false)
  | f + 1, seen, stack, v => match stack with
    | [] => (v, false)
    | x :: rest =>
      let r := scanSucc b (succ x) seen rest v
      if r.2.2.2 then (r.1, true) else searchFrom succ b f r.2.1 r.2.2.1 r.1

/-- The most visits of a check (R206). -/
def visitLimit : Nat := 16777216

/-- The clashing pairs of a Sheaf in ascending order, searched until a race or the limit: a status, TASK_A, TASK_B and the
visits. DESIGN CHOICE (log entry 93): the check ends at the first race, so that later pairs do not count for the limit. -/
def checkPairs (succ : Nat → List Nat) (n : Nat) : List (Nat × Nat) → Nat → Nat × Nat × Nat × Nat
  | [], v => (0, 0, 0, v)
  | (a, b) :: t, v =>
    let r := searchFrom succ b (n + 1) [a] [a] v
    if visitLimit < r.1 then (0x52, 0, 0, visitLimit)
    else if r.2 then checkPairs succ n t r.1
    else (0x51, a, b, r.1)

/-- The determinism check of a Sheaf (R203, R206). -/
def determinism (ts : List (Desc × List Nat)) (ext : Nat → Option (Nat × Nat)) : Nat × Nat × Nat × Nat :=
  let ix := List.range ts.length
  let dd := fun (i : Nat) => (ts[i]?).map (·.1)
  let pairs := (ix.map (fun a => (ix.filter (fun b => a < b && (match dd a, dd b with
    | some x, some y => tasksClash ext x y
    | _, _ => false))).map (fun b => (a, b)))).flatten
  checkPairs (fun i => ((ts[i]?).map (·.2)).getD []) ts.length pairs 0

end Sys2Proof.Machine
end

