-- ==== Sys2Proof/Machine/Tiller.lean ====
section
/-! DEFINITION. The Tillers: operand reads, the commit window of the dot-product kinds, the row kinds, result lines and the end of a
task (R148 to R192, R213, R344, R423, R425). -/

namespace Sys2Proof.Machine

/-! ## The running task -/

/-- The running task of a Tiller set. -/
def Blk.setRun (b : Blk) (k : Nat) (r : Run) : Blk := b.modTil k (fun t => { t with run := some r })

/-- The device is lost, a hang snapshot has stopped issue, or a zeroisation has been taken (R35, R389, R436). -/
def Blk.halted (b : Blk) : Bool := b.dead || b.rings.stopped || b.closing

/-- Does a power state with its mask gate a Tiller (R396). -/
def powerGates (state mask k : Nat) : Bool := 2 ≤ state || (state == 1 && bit mask k)

/-- The owner of a Tiller in the running structure; 0 where it is unallocated (R192). -/
def Blk.ownerOfTil (b : Blk) (k : Nat) : Nat := ((b.view (.tiller (Fin.ofNat 24 k))).tillers.getD k none).getD 0

/-- Is a Tiller power-gated: no structure is loaded, it is unallocated, or the power state gates it (R48, R164, R396). -/
def Blk.gated (b : Blk) (k : Nat) : Bool :=
  !b.str.loaded || ((b.view (.tiller (Fin.ofNat 24 k))).tillers.getD k none).isNone || powerGates b.pwr.state b.pwr.mask k

/-- A Tiller as a requester: non-caching, for the partition of its task (R38, R91). -/
def tilReq (k : Nat) (r : Run) : Requester := ⟨.tiller k, .part r.part⟩

/-- A class of a Tiller's T-step account raised, with its counters (R423, R425). The retired slots of R421 are read as the T-steps of the class
KEPT (DEDUCED, log entry 27). -/
def Blk.tick (b : Blk) (k cls n part : Nat) : Blk :=
  let b1 := { b with work.tds := tmod (fun _ => 0) b.work.tds (6 * k + cls) (· + n) }.event k (cls + 1) (some part) n
  if cls = 0 then b1.aonAdd k n else b1

/-- The run of a task that has ended with a status and FAIL_ADDR: the window, the accumulators and what has not been written are
discarded (R154, R174). -/
def Run.stop (r : Run) (status addr : Nat) : Run :=
  { r with ended := some (r.ended.getD (status, addr)), window := [], acc := [], heads := [], res := [] }

/-- A poisoned line consumed by a task: logged and counted, and the task ends POISON_CONSUMED (R175, R344). -/
def Blk.consumePoison (b : Blk) (k : Nat) (r : Run) (line : Nat) : Blk :=
  let b1 := (((b.flag (Reg.tilErr k) 0).aonAdd 206 1).log 0x0C k r.part (line * 128) r.tag).trace
    { source := 6, event := 1, part := r.part, unit := k, tag := r.tag, a := line * 128, detail := toLe 1 0x46 }
  b1.setRun k (r.stop 0x46 (line * 128))

/-- TIL_ERR.REFUSED for an access of a task that was refused under R90 (R192). -/
def Blk.noteRefusal (b : Blk) (k status : Nat) : Blk :=
  if 0x10 ≤ status && status ≤ 0x1B then b.flag (Reg.tilErr k) 3 else b

/-! ## The local store (R163, R166) -/

/-- The lines that a byte range touches. -/
def linesOf (a n : Nat) : List Nat :=
  if n = 0 then [] else (List.range ((a + n + 127) / 128 - a / 128)).map (fun i => a / 128 + i)

/-- Bytes of the local store. -/
def stBytes (s : Map StoreLine) (a n : Nat) : Bytes :=
  sl ((linesOf a n).map (fun l => ((mget s l).map (·.bytes)).getD (zeros 128))).flatten (a % 128) n

/-- Has an internal requester a read of a line under way. -/
def Blk.reading (b : Blk) (w : Who) (l : Nat) : Bool :=
  b.coh.txns.any (fun t => t.who == w && t.line == l) || b.coh.queue.any (fun e => e.txn.who == w && e.txn.line == l) ||
  b.coh.landed.any (fun x => x.who == w && !x.write && x.line == l)

/-- The MOD_COUNT of the extent of a line. -/
def Blk.modCountAt (b : Blk) (l : Nat) : Nat :=
  match b.str.run.extAt (granOf l) with
  | some e => (b.extRt e.1).modCount.toNat
  | none => 0

/-- A line read into the local store, where it is not there: at once, or later where a snoop must be answered first (R117, R166). -/
def Blk.loadLine (b : Blk) (k : Nat) (r : Run) (l : Nat) : Blk × Run :=
  if mhas r.store l then (b, r)
  else
    let first := !b.reading (.tiller k) l
    let x := b.readInt (tilReq k r) l
    let m := b.modCountAt l
    let r1 : Run := if first && r.kind == 0xD then { r with modFirst := some (r.modFirst.getD m), modLast := m } else r
    match x.1 with
    | .ok bs p => (x.2.event k 9 (some r.part), { r1 with store := mput r1.store l ⟨0, bs, p⟩ })
    | .refused s => (x.2.noteRefusal k s, { r1 with store := mput r1.store l ⟨s, [], false⟩ })
    | .wait => (x.2, r1)

/-- Lines read into the local store. -/
def Blk.loadLines (b : Blk) (k : Nat) (r : Run) (ls : List Nat) : Blk × Run :=
  ls.foldl (fun x l => x.1.loadLine k x.2 l) (b, r)

/-- Are lines all in the local store. -/
def Run.hasAll (r : Run) (ls : List Nat) : Bool := ls.all (mhas r.store)

/-- The first of some lines whose read was refused, with the status. -/
def Run.refused (r : Run) (ls : List Nat) : Option (Nat × Nat) :=
  ls.findSome? (fun l => match mget r.store l with
    | some s => if s.status = 0 then none else some (s.status, l * 128)
    | none => none)

/-- The first of some lines that is poisoned. -/
def Run.poisoned (r : Run) (ls : List Nat) : Option Nat := ls.find? (fun l => ((mget r.store l).map (·.poison)).getD false)

/-! ## Result lines (R174) -/

/-- The regions of the results of a descriptor: start and length of each. -/
def Desc.resRegions (d : Desc) : List (Nat × Nat) :=
  let A := fmtAt d.fa; let C := fmtAt d.fc
  let flat := fun (a rows cols : Nat) (f : Fmt) => [(a, rows * cols * flatWidth f)]
  match d.kind with
  | 0 | 1 => flat d.opc d.n d.m C
  | 2 => flat d.opc d.m d.k C ++ (if bit d.flags 2 then flat d.opd 1 d.m .fp32 else [])
  | 3 => if d.byteCopy then blockRegions d.opc d.n d.k A d.sideA else flat d.opc d.n d.k C
  | 4 => blockRegions d.opc d.m d.k A d.sideA
  | 5 => blockRegions d.opc d.n d.k C d.sideC
  | 6 => flat d.opc d.n d.k C
  | 7 => flat d.opc 1 d.k C ++ (if d.opt = 3 then flat d.opd 1 1 .fp32 else [])
  | 8 => flat d.opc d.n d.opt C ++ flat d.opd d.n d.opt .int32
  | 9 | 0xA => flat d.opc d.n d.k C
  | 0xD => [(d.opc, 64)]
  | _ => [(d.opc, d.p0)]

/-- The result bytes of a line. -/
def resMask (rs : List (Nat × Nat)) (l : Nat) : BitVec 128 :=
  rs.foldl (fun m r =>
    let lo := max r.1 (l * 128); let hi := min (r.1 + r.2) (l * 128 + 128)
    if lo < hi then m ||| lineMask (lo - l * 128) (hi - lo) else m) 0

/-- Bytes put into the result lines. -/
def Run.put (r : Run) (a : Nat) (bs : Bytes) (poison : Bool) : Run :=
  (lineParts a bs).foldl (fun r p =>
    let o : ResLine := (mget r.res p.1).getD {}
    let e : ResLine := { o with bytes := mergeMask p.2.2 o.bytes p.2.1, mask := o.mask ||| p.2.2, poison := o.poison || poison }
    { r with res := mput r.res p.1 e }) r

/-- Counts put beside the result byte at an address: they count once its line is written (R157). -/
def Run.count (r : Run) (a sat drop nans : Nat) : Run :=
  let o : ResLine := (mget r.res (a / 128)).getD {}
  { r with res := mput r.res (a / 128) { o with sat := o.sat + sat, drop := o.drop + drop, nans := o.nans + nans } }

/-- The counts of a conversion put beside the result byte at an address. -/
def Run.countConv (r : Run) (a : Nat) (c : Conv) : Run := r.count a (b2n c.sat) (b2n c.drop) 0

/-- A value converted to a format and put as the element at an address, with the overflows of what formed it (R140, R142, R172). -/
def Run.putVal (r : Run) (a : Nat) (f : Fmt) (v : Val) (sat : Nat) : Run :=
  let c := convert f v
  ((r.put a (toLe (flatWidth f) c.code) false).countConv a c).count a sat 0 0

/-- Values converted to a format and put as elements from an address. -/
def Run.putVals (r : Run) (a : Nat) (f : Fmt) (vs : List Val) : Run :=
  (vs.zip (List.range vs.length)).foldl (fun r x => r.putVal (a + x.2 * flatWidth f) f x.1 0) r

/-- A row of results computed, converted to a format and put as elements from an address. -/
def Run.putRow (r : Run) (a : Nat) (f : Fmt) (vs : Row) : Run :=
  (vs.zip (List.range vs.length)).foldl (fun r x =>
    let y := x.1.run {}
    r.putVal (a + x.2 * flatWidth f) f y.1 y.2.sat) r

/-- A row of n results that share a computation; the overflows of what they share count with the last of them: DESIGN CHOICE, log 66. -/
def Run.putShared (r : Run) (a : Nat) (f : Fmt) (n : Nat) (c : Calc Row) : Run :=
  let y := c.run {}
  (r.putRow a f y.1).count (a + (n - 1) * flatWidth f) y.2.sat 0 0

/-- One result line written; a refusal ends the task (R174). -/
def Blk.writeRes (b : Blk) (k : Nat) (r : Run) (l : Nat) (e : ResLine) : Blk × Run :=
  if r.ended.isSome then (b, r)
  else
    let x := b.writeInt (tilReq k r) l e.bytes e.mask e.poison
    if x.1 ≠ 0 then (x.2.noteRefusal k x.1, r.stop x.1 (l * 128))
    else (x.2.event k 0x0A (some r.part), { r with
      res := mdel r.res l
      wrote := mput r.wrote l (e.sat, e.drop, e.nans)
      tally := { r.tally with sat := r.tally.sat + e.sat, drop := r.tally.drop + e.drop, nanScale := r.tally.nanScale + e.nans } })

/-- The result lines that are final written, in ascending address; with all, every line as far as it has been filled. -/
def Blk.flushRes (b : Blk) (k : Nat) (r : Run) (d : Desc) (all : Bool) : Blk × Run :=
  let rs := d.resRegions
  (r.res.filter (fun e => all || e.2.mask == resMask rs e.1)).foldl (fun x e => x.1.writeRes k x.2 e.1 e.2) (b, r)

/-! ## Operands (R171, R172) -/

/-- The byte ranges of block (r, b) of a blocked operand. -/
def blockParts (a rows k : Nat) (f : Fmt) (side : Bool) (r b : Nat) : List (Nat × Nat) :=
  let i := r * (k / 32) + b
  let e := [(a + i * f.blockBytes, f.blockBytes)]
  if f = .bf16 then e
  else e ++ [(a + scaleOff rows k f + i, 1)] ++ (if side then [(a + sideOff rows k f + 4 * i, 4)] else [])

/-- The lines of some byte ranges, in order and each once. -/
def partLines (ps : List (Nat × Nat)) : List Nat := ((ps.map (fun p => linesOf p.1 p.2)).flatten).dedup

/-- Block (r, b) of a blocked operand from the local store. -/
def storeBlock (s : Map StoreLine) (a rows k : Nat) (f : Fmt) (sf : SFmt) (side : Bool) (r b : Nat) : BlockVal :=
  let ps := blockParts a rows k f side r b
  let at_ := fun (i : Nat) => let p := ps.getD i (0, 0); stBytes s p.1 p.2
  readBlock f sf (at_ 0) (u8 (at_ 1) 0) (if side then some (leNat (at_ 2)) else none)

/-- A word of an unblocked FP32 or BF16 operand as a value; BF16 widens exactly (R162). -/
def flatVal (f : Fmt) (c : Nat) : Val :=
  match f with
  | .bf16 => bf16Val c
  | _ => wideVal 23 c

/-- n elements of an unblocked operand from an address. -/
def storeVals (s : Map StoreLine) (a n : Nat) (f : Fmt) : List Val :=
  let w := flatWidth f
  let bs := stBytes s a (n * w)
  (List.range n).map (fun i => flatVal f (le bs (i * w) w))

/-! ## The dot-product kinds (R152 to R161, R177 to R181) -/

/-- Rows per pass, activation blocks per hold, and T per activation block, of a held format (R159). -/
def dotRate (f : Fmt) : Nat × Nat × Nat :=
  match f with
  | .b1 | .t2 => (2048, 64, 1)
  | .i3 | .i4 | .f4 => (1024, 64, 1)
  | .bf16 => (1024, 8, 8)
  | _ => (1024, 32, 2)

/-- x / y rounded up. -/
def ceilDiv (x y : Nat) : Nat := if y = 0 then 0 else (x + y - 1) / y

/-- How many block indices a task issues (R177, R181). -/
def Desc.indices (d : Desc) : Nat :=
  let rt := dotRate (fmtAt d.fa)
  let kb := d.k / 32
  match d.kind with
  | 0 => ceilDiv d.m rt.1 * kb
  | 1 => ceilDiv d.m rt.1 * ceilDiv d.n rt.2.1 * kb
  | _ => d.p0 / 2 ^ 32 * d.n * kb

/-- What a block index names: the held rows, the broadcast rows, the block of the row, and for ATTEND the token and the key/value
head. -/
structure Ix where
  rows : List Nat
  cols : List Nat
  b : Nat
  tok : Nat := 0
  g : Nat := 0

/-- The numbers from lo to below hi. -/
def span (lo hi : Nat) : List Nat := (List.range (hi - lo)).map (fun i => lo + i)

/-- A block index decoded. -/
def Desc.index (d : Desc) (i : Nat) : Ix :=
  let rt := dotRate (fmtAt d.fa)
  let kb := d.k / 32
  match d.kind with
  | 0 => let p := i / kb
         { rows := span (rt.1 * p) (min (rt.1 * (p + 1)) d.m), cols := List.range d.n, b := i % kb }
  | 1 => let c := i / kb % ceilDiv d.n rt.2.1; let p := i / kb / ceilDiv d.n rt.2.1
         { rows := span (rt.1 * p) (min (rt.1 * (p + 1)) d.m), cols := span (rt.2.1 * c) (min (rt.2.1 * (c + 1)) d.n), b := i % kb }
  | _ => let g := i / kb % d.n; let t := d.p0 % 2 ^ 32 + i / kb / d.n
         let per := d.m / d.n
         { rows := [g * d.opt + t % d.opt], cols := span (g * per) (g * per + per), b := i % kb, tok := t, g := g }

/-- The address of the page-table entry of a token (R179). -/
def Desc.pteAddr (d : Desc) (tok : Nat) : Nat := d.opa + 8 * (tok / d.opt)

/-- The span of a page's key operand. -/
def Desc.keySpan (d : Desc) : Nat := (blockSpan 0 (d.n * d.opt) d.k (fmtAt d.fa) false).2

/-- The span of a page. -/
def Desc.pageSpan (d : Desc) : Nat := d.keySpan + (blockSpan 0 (d.n * d.opt) d.k (fmtAt d.fd) false).2

/-- The held operand of a block index: its address and its rows in all. -/
def Desc.held (d : Desc) (s : Map StoreLine) (x : Ix) : Nat × Nat :=
  if d.kind = 2 then (le (stBytes s (d.pteAddr x.tok) 8) 0 6, d.n * d.opt) else (d.opa, d.m)

/-- What is wrong with the page-table entry of a token: PAGE_ENTRY (R181), or PAGE_OUTSIDE of the named extent (R196). -/
def Blk.pteStop (b : Blk) (d : Desc) (s : Map StoreLine) (tok : Nat) : Option (Nat × Nat) :=
  let a := d.pteAddr tok
  let e := le (stBytes s a 8) 0 8
  let line := a / 128 * 128
  if 2 ^ 48 ≤ e || e % 128 ≠ 0 then some (0x42, line)
  else if !bit d.dyn 31 then none
  else match b.extEnt (d.dyn % 2 ^ 18) with
    | none => some (0x45, line)
    | some x => if x.base * 2097152 ≤ e && e + d.pageSpan ≤ (x.base + x.granules) * 2097152 then none else some (0x45, line)

/-- The lines that an entry consumes, as far as the local store tells them: those of the page-table entry first, then the held and
the broadcast blocks, then the value row with the last block of a token and head, or the bias with the first block of a pass. -/
def Blk.entryLines (b : Blk) (d : Desc) (s : Map StoreLine) (i : Nat) : List Nat × Option (Nat × Nat) :=
  let x := d.index i
  let kb := d.k / 32
  let pt := if d.kind = 2 then linesOf (d.pteAddr x.tok) 8 else []
  let ready := pt.all (fun l => match mget s l with | some e => e.status == 0 && !e.poison | none => false)
  if !ready then (pt, none)
  else
    let stop := if d.kind = 2 then b.pteStop d s x.tok else none
    if stop.isSome then (pt, stop)
    else
      let h := d.held s x
      let A := fmtAt d.fa; let B := fmtAt d.fb
      let ws := (x.rows.map (fun r => blockParts h.1 h.2 d.k A d.sideA r x.b)).flatten
      let as_ := (x.cols.map (fun j => blockParts d.opb (if d.kind = 2 then d.m else d.n) d.k B false j x.b)).flatten
      let vs := if d.kind = 2 && x.b + 1 = kb then
          ((List.range kb).map (fun c => blockParts (h.1 + d.keySpan) h.2 d.k (fmtAt d.fd) false (x.rows.headD 0) c)).flatten
        else []
      let bias := if d.kind != 2 && bit d.flags 1 && x.b = 0 then [(d.p0 + 4 * x.rows.headD 0, 4 * x.rows.length)] else []
      ((pt ++ partLines (ws ++ as_ ++ vs ++ bias)).dedup, none)

/-- The pairs of a block index with their narrow partials and verdicts (R139, R146, R147). -/
def Desc.pairs (d : Desc) (s : Map StoreLine) (i : Nat) : List DotPair :=
  let x := d.index i
  let h := d.held s x
  let A := fmtAt d.fa; let B := fmtAt d.fb
  let awn : Awn := (readAwn d.awn A).getD ⟨0, false, 0⟩
  let exact := A.width ≤ 8 && B.width ≤ 8
  let acts := x.cols.map (fun j => (j, storeBlock s d.opb (if d.kind = 2 then d.m else d.n) d.k B (sfmtAt d.sb) false j x.b))
  (x.rows.map (fun r =>
    let w := storeBlock s h.1 h.2 d.k A (sfmtAt d.sa) d.sideA r x.b
    acts.map (fun a =>
      let p := blockPartial exact w a.2
      let esc := awn.mode != 0 && escalates awn (awnBound A w a.2) p.1
      { out := if d.kind = 2 then a.1 else a.1 * d.m + r, row := r, col := a.1, part := p.1, ovf := p.2,
        nans := b2n w.scale.isNan + b2n a.2.scale.isNan, checked := awn.mode != 0, esc := esc }))).flatten

/-- Does a task name a shadow. -/
def Desc.hasShadow (d : Desc) : Bool := d.kind != 2 && bit d.flags 0

/-- The lines of the shadow blocks that an entry's escalated pairs need (R149). -/
def Desc.shadowLines (d : Desc) (e : WinEnt) : List Nat :=
  let x := d.index e.index
  let rows := ((e.pairs.filter (·.esc)).map (·.row)).dedup
  partLines ((rows.map (fun r => blockParts d.opd d.m d.k (fmtAt d.fd) false r x.b)).flatten)

/-- BLOCK_ISSUE: the next block index is issued into the commit window: its operand lines are read, and once they are in the local
store its partials and verdicts are formed, and the shadow of escalated pairs is requested (R149, R152). While 64 entries are taken
issue stalls. -/
def blockIssue (b : Blk) (k : Nat) : Blk :=
  match (b.til k).run with
  | none => b
  | some r => match r.desc with
    | none => b
    | some db =>
      let d := readDesc db
      if b.halted || r.ended.isSome || 2 < r.kind || 64 ≤ r.window.length || d.indices ≤ r.next then b
      else
        let l1 := b.entryLines d r.store r.next
        let x1 := b.loadLines k r l1.1
        let l2 := x1.1.entryLines d x1.2.store r.next
        let x := x1.1.loadLines k x1.2 l2.1
        let r2 := x.2
        if !r2.hasAll l2.1 then x.1.setRun k r2
        else
          let stop := match r2.refused l2.1 with
            | some s => some s
            | none => l2.2
          let short := d.kind == 2 && (r2.poisoned (linesOf (d.pteAddr (d.index r.next).tok) 8)).isSome
          let ps := if stop.isSome || short then [] else d.pairs r2.store r.next
          let e : WinEnt := { index := r.next, pairs := ps, lines := l2.1, stop := stop, wait := d.hasShadow && ps.any (·.esc) }
          let y := if e.wait then x.1.loadLines k r2 (d.shadowLines e) else (x.1, r2)
          y.1.setRun k { y.2 with window := y.2.window ++ [e], next := r.next + 1 }

/-- OPERAND_LINE_ARRIVE: a line that a Tiller waits for has been read, and enters the local store (R166). -/
def operandLineArrive (b : Blk) (k addr : Nat) : Blk :=
  match (b.til k).run with
  | none => b
  | some r =>
    let l := lineOf addr
    if b.dead || r.ended.isSome || !b.coh.landed.any (fun x => x.who == .tiller k && !x.write && x.line == l) then b
    else
      let x := b.loadLine k r l
      x.1.setRun k x.2

/-- The shadow partials of an entry (R149). -/
def Desc.resolve (d : Desc) (s : Map StoreLine) (e : WinEnt) : WinEnt :=
  let x := d.index e.index
  let D := fmtAt d.fd; let B := fmtAt d.fb
  { e with wait := false, pairs := e.pairs.map (fun p =>
      if p.esc then
        let w := storeBlock s d.opd d.m d.k D (sfmtAt d.sd) false p.row x.b
        let a := storeBlock s d.opb d.n d.k B (sfmtAt d.sb) false p.col x.b
        { p with shadow := some (blockPartial (D.width ≤ 8 && B.width ≤ 8) w a) }
      else p) }

/-- SHADOW_BLOCK_ARRIVE: the shadow blocks of the oldest entry that waits for them have been read, and its shadow partials are formed;
a refused shadow line ends the task when the entry reaches the head (R149, R151). -/
def shadowBlockArrive (b : Blk) (k : Nat) : Blk :=
  match (b.til k).run with
  | none => b
  | some r => match r.desc, r.window.find? (·.wait) with
    | some db, some e =>
      let d := readDesc db
      let ls := d.shadowLines e
      if b.halted || r.ended.isSome then b
      else
        let x := b.loadLines k r ls
        if !x.2.hasAll ls then x.1.setRun k x.2
        else
          let e1 : WinEnt := match x.2.refused ls with
            | some s => { e with wait := false, stop := some s }
            | none => { d.resolve x.2.store e with lines := (e.lines ++ ls).dedup }
          x.1.setRun k { x.2 with window := x.2.window.map (fun f => if f.index = e.index then e1 else f) }
    | _, _ => b

/-- The counts of a folded entry (R156, R157). -/
def Tally.addEntry (t : Tally) (e : WinEnt) : Tally :=
  let esc := e.pairs.filter (·.esc)
  { t with
    sat := t.sat + (e.pairs.filter (fun p => match p.shadow with | some s => s.2 | none => p.ovf)).length
    nanScale := t.nanScale + (e.pairs.map (·.nans)).sum
    esc := t.esc + (esc.filter (·.shadow.isSome)).length
    unres := t.unres + (esc.filter (·.shadow.isNone)).length
    checked := t.checked + (e.pairs.filter (·.checked)).length
    firstEsc := if esc.isEmpty then t.firstEsc else some (min (t.firstEsc.getD e.index) e.index) }

/-- One pair's partial, or its shadow partial, added into its accumulator (R140, R153). -/
def Run.foldPair (r : Run) (d : Desc) (p : DotPair) : Run :=
  let start : Word := if d.kind != 2 && bit d.flags 1 then BitVec.ofNat 32 (le (stBytes r.store (d.p0 + 4 * p.row) 4) 0 4) else 0
  let x := accumulate ((mget r.acc p.out).getD start) (match p.shadow with | some s => s.1 | none => p.part)
  { r with acc := mput r.acc p.out x.1, tally := { r.tally with sat := r.tally.sat + b2n x.2 } }

/-- The outputs of a pass, or of a pass and chunk, converted and put (R177). -/
def Run.emitDot (r : Run) (d : Desc) (x : Ix) : Run :=
  let C := fmtAt d.fc
  x.cols.foldl (fun r j =>
    let vs := x.rows.map (fun i => f32Val ((mget r.acc (j * d.m + i)).getD 0))
    let r1 := r.putVals (d.opc + (j * d.m + x.rows.headD 0) * flatWidth C) C vs
    { r1 with acc := x.rows.foldl (fun m i => mdel m (j * d.m + i)) r1.acc }) r

/-- The value row of a token and head, each element the exact product with its scale rounded once to FP32 (R180). -/
def Desc.valueRow (d : Desc) (s : Map StoreLine) (x : Ix) : Calc (List Val) :=
  let h := d.held s x
  let D := fmtAt d.fd
  let vs := ((List.range (d.k / 32)).map (fun c =>
    let blk := storeBlock s (h.1 + d.keySpan) h.2 d.k D (sfmtAt d.sd) false (x.rows.headD 0) c
    blk.elems.map (fun e => (e, blk.scale)))).flatten
  go vs
where
  /-- The products, in order. -/
  go : List (Val × Val) → Calc (List Val)
    | [] => return []
    | (e, sc) :: t => do
      let y ← cMul e sc
      let r ← go t
      return y :: r

/-- The softmax update of every query head of a group for a token (R180). The value row of the token and its key/value head is formed
once for the heads that share it, so an overflow in it counts once: DESIGN CHOICE, log 69. -/
def Run.attendTok (r : Run) (d : Desc) (x : Ix) : Run :=
  let v := (d.valueRow r.store x).run r.tally
  let r0 := x.cols.foldl (fun (r : Run) h =>
    let hd : Head := (mget r.heads h).getD ⟨0xFF800000, 0, List.replicate d.k 0⟩
    let y := (attendStep hd ((mget r.acc h).getD 0) (BitVec.ofNat 32 d.p1) v.1).run r.tally
    { r with heads := mput r.heads h y.1, acc := mdel r.acc h, tally := y.2 }) { r with tally := v.2 }
  if x.tok + 1 < d.p0 % 2 ^ 32 + d.p0 / 2 ^ 32 then r0
  else x.cols.foldl (fun r h =>
    match mget r.heads h with
    | none => r
    | some hd =>
      let C := fmtAt d.fc
      let r1 := ({ r with heads := mdel r.heads h }).putShared (d.opc + h * d.k * flatWidth C) C d.k (attendRow hd)
      if bit d.flags 2 then r1.putRow (d.opd + 4 * h) .fp32 [attendLse hd] else r1) r0

/-- The T-steps of array work of an entry: n activation blocks at the interval of the held format, and for each shadow partial that has
been formed one interval of the shadow format (R161, R229). -/
def Desc.entrySteps (d : Desc) (e : WinEnt) : Nat :=
  (d.index e.index).cols.length * (dotRate (fmtAt d.fa)).2.2 +
  (e.pairs.filter (·.shadow.isSome)).length * (dotRate (fmtAt d.fd)).2.2

/-- ENTRY_FOLD: the head entry folds in block order, once it waits for no shadow: or it ends the task, with the status of a refused
read, with AWN_UNRESOLVED, or by consuming poison (R150, R151, R153, R154, R175). The outputs that have become final are written. -/
def entryFold (b : Blk) (k : Nat) : Blk :=
  match (b.til k).run with
  | none => b
  | some r => match r.desc, r.window with
    | some db, e :: rest =>
      let d := readDesc db
      let awn : Awn := (readAwn d.awn (fmtAt d.fa)).getD ⟨0, false, 0⟩
      if b.halted || r.ended.isSome then b
      else if e.wait then b
      else
        let lost := (r.window.map d.entrySteps).sum
        let quit := fun (b : Blk) => b.tick k 1 lost r.part
        match e.stop with
        | some s => quit (b.setRun k (r.stop s.1 s.2))
        | none =>
          if awn.fail && e.pairs.any (fun p => p.esc && p.shadow.isNone) then quit (b.setRun k (r.stop 0x41 0))
          else match r.poisoned e.lines with
            | some l => quit (b.consumePoison k r l)
            | none =>
              let x := d.index e.index
              let n := (e.pairs.filter (·.esc)).length
              let b1 := (((b.tick k 0 (d.entrySteps e) r.part).event k 7 (some r.part)))
              let b2 := if n = 0 then b1 else
                ((b1.event k 8 (some r.part) n).aonAdd 223 n).count (Reg.tilEscCnt k) (e.pairs.filter (·.shadow.isSome)).length
              let b3 := (List.range n).foldl (fun b _ => b.trace
                { source := 5, event := 1, part := r.part, unit := k, tag := r.tag, a := e.index }) b2
              let r1 := e.pairs.foldl (fun r p => r.foldPair d p) { r with window := rest, tally := r.tally.addEntry e }
              let last := x.b + 1 = d.k / 32
              let r2 := if !last then r1 else if d.kind = 2 then r1.attendTok d x else r1.emitDot d x
              let y := b3.flushRes k r2 d false
              let r3 := if y.2.ended.isNone && e.index + 1 = d.indices then { y.2 with ended := some (0, 0) } else y.2
              y.1.setRun k r3
    | _, _ => b

/-- A dot-product task carried on as far as it goes without waiting: entries fold, shadows are taken, blocks are issued. -/
def dotGo : Nat → Nat → Blk → Blk
  | 0, _, b => b
  | f + 1, k, b =>
    match (b.til k).run with
    | none => b
    | some r =>
      if r.ended.isSome then b
      else
        let head := match r.window with
          | e :: _ => !e.wait
          | [] => false
        let b1 := if head then entryFold b k
          else
            let s := shadowBlockArrive b k
            if (s.til k).run = some r then blockIssue b k else s
        if (b1.til k).run = some r then b1 else dotGo f k b1

/-- A dot-product task of a kind carried on (R177, R180). -/
def dotTask (b : Blk) (k kind : Nat) : Blk :=
  match (b.til k).run with
  | none => b
  | some r => match r.desc with
    | none => b
    | some db => if r.kind = kind && !b.halted then dotGo (6 * (readDesc db).indices + 8) k b else b

/-! ## The row kinds (R182 to R190) -/

/-- The lines of a row of an unblocked operand. -/
def flatRowLines (a j k : Nat) (f : Fmt) : List Nat := linesOf (a + j * k * flatWidth f) (k * flatWidth f)

/-- The byte ranges of a row of a blocked operand. -/
def blockRow (a rows k : Nat) (f : Fmt) (side : Bool) (r : Nat) : List (Nat × Nat) :=
  let kb := k / 32
  let e := [(a + r * kb * f.blockBytes, kb * f.blockBytes)]
  if f = .bf16 then e
  else e ++ [(a + scaleOff rows k f + r * kb, kb)] ++ (if side then [(a + sideOff rows k f + 4 * r * kb, 4 * kb)] else [])

/-- The elements of a row of a blocked operand times their scales, exactly, and which of its blocks have a NaN scale. DESIGN CHOICE (log entry
90): a product that is zero has the product of the two signs. -/
def rowVals (s : Map StoreLine) (a rows k : Nat) (f : Fmt) (sf : SFmt) (side : Bool) (r : Nat) : List Val × List Nat :=
  let bs := (List.range (k / 32)).map (fun c => (c, storeBlock s a rows k f sf side r c))
  ((bs.map (fun x => x.2.elems.map (fun e => e.mul x.2.scale))).flatten, (bs.filter (fun x => x.2.scale.isNan)).map (·.1))

/-- Bytes moved from the local store to a destination, source line by source line, each with its poison (R175). -/
def Run.move (r : Run) (src dst n : Nat) : Run :=
  (linesOf src n).foldl (fun (r : Run) l =>
    let lo := max src (l * 128); let hi := min (src + n) (l * 128 + 128)
    r.put (dst + (lo - src)) (stBytes r.store lo (hi - lo)) (((mget r.store l).map (·.poison)).getD false)) r

/-- The index of a row of GATHER or SCATTER. -/
def Desc.idx (d : Desc) (s : Map StoreLine) (j : Nat) : Int := sext 32 (le (stBytes s (d.opb + 4 * j) 4) 0 4)

/-- What a row step of a task reads first and consumes, and what it reads without consuming. -/
structure Need where
  use : List Nat
  move : List Nat := []

/-- How many row steps a task has. -/
def Desc.rowSteps (d : Desc) : Nat :=
  match d.kind with
  | 7 | 0xD => 1
  | 0xB | 0xC => (linesOf d.opc d.p0).length
  | _ => d.n

/-- The lines that row step j needs, given the local store (the row of an index once the index is there). -/
def Desc.need (d : Desc) (s : Map StoreLine) (j : Nat) : Need :=
  let A := fmtAt d.fa; let B := fmtAt d.fb; let D := fmtAt d.fd
  match d.kind with
  | 3 =>
    let il := linesOf (d.opb + 4 * j) 4
    if !il.all (fun l => match mget s l with | some e => e.status == 0 && !e.poison | none => false) then ⟨il, []⟩
    else
      let x := d.idx s j
      if x < 0 || (d.m : Int) ≤ x then ⟨il, []⟩
      else
        let ls := partLines (blockRow d.opa d.m d.k A d.sideA x.toNat)
        if d.byteCopy then ⟨il, ls⟩ else ⟨il ++ ls, []⟩
  | 4 =>
    let il := linesOf (d.opb + 4 * j) 4
    if !il.all (fun l => match mget s l with | some e => e.status == 0 && !e.poison | none => false) then ⟨il, []⟩
    else
      let x := d.idx s j
      if x < 0 || (d.m : Int) ≤ x then ⟨il, []⟩ else ⟨il, partLines (blockRow d.opa d.n d.k A d.sideA j)⟩
  | 6 => ⟨partLines (blockRow d.opa d.n d.k A d.sideA j), []⟩
  | 7 => ⟨(if d.opt = 3 then linesOf d.opb (4 * d.n) else []) ++ linesOf d.opa (d.n * d.k * flatWidth A), []⟩
  | 9 => ⟨flatRowLines d.opa j d.k A ++ (if d.usesB then flatRowLines d.opb (if bit d.flags 6 then 0 else j) d.k B else []), []⟩
  | 0xA => ⟨flatRowLines d.opa j d.k A ++ flatRowLines d.opb 0 d.k B ++ (if d.opt = 1 then flatRowLines d.opd 0 d.k D else []), []⟩
  | 0xB =>
    let l := d.opc / 128 + j
    let lo := max d.opc (l * 128); let hi := min (d.opc + d.p0) (l * 128 + 128)
    ⟨[], linesOf (d.opa + (lo - d.opc)) (hi - lo)⟩
  | 0xC => ⟨[], []⟩
  | 0xD => ⟨linesOf d.opa d.p0, []⟩
  | _ => ⟨flatRowLines d.opa j d.k A, []⟩

/-- A block quantised and put (R143, R144, R184). A lane's conversion counts with the byte that holds the last bit of its code, an
outlier's with its sidecar word (R157). -/
def Run.putQuant (r : Run) (d : Desc) (j : Nat) (vs : List Val) (c : Nat) : Run :=
  let C := fmtAt d.fc
  let q := quantBlock C (sfmtAt d.sc) d.outliers ((vs.drop (32 * c)).take 32)
  let ps := blockParts d.opc d.n d.k C d.sideC j c
  let at_ := fun (i : Nat) => (ps.getD i (0, 0)).1
  let r1 := (r.put (at_ 0) (packCodes C (q.lanes.map (·.code))) false).put (at_ 1) (toLe 1 q.scale) false
  let r2 := (q.lanes.zip (List.range 32)).foldl (fun r x =>
    r.countConv (at_ 0 + ((x.2 + 1) * C.width - 1) / 8) x.1) r1
  if d.sideC then q.outs.foldl (fun r x => r.countConv (at_ 2) x.2) (r2.put (at_ 2) (toLe 4 q.side) false) else r2

/-- The decoded blocks of a row put, each NaN scale counting with the last element of its block (R157). -/
def Run.putDecoded (r : Run) (a : Nat) (f : Fmt) (v : List Val × List Nat) : Run :=
  v.2.foldl (fun r c => r.count (a + (32 * c + 31) * flatWidth f) 0 0 1) (r.putVals a f v.1)

/-- The result of row step j put, its lines being in the local store; or the status and address that end the task. -/
def Run.rowStep (r : Run) (d : Desc) (j : Nat) : Except (Nat × Nat) Run :=
  let A := fmtAt d.fa; let B := fmtAt d.fb; let C := fmtAt d.fc; let D := fmtAt d.fd
  let rowA := fun (i : Nat) => storeVals r.store (d.opa + i * d.k * flatWidth A) d.k A
  let dst := d.opc + j * d.k * flatWidth C
  match d.kind with
  | 3 =>
    let x := d.idx r.store j
    if x = -1 then
      if d.byteCopy then .ok ((blockRow d.opc d.n d.k A d.sideA j).foldl (fun r p => r.put p.1 (zeros p.2) false) r)
      else .ok (r.putVals dst C (List.replicate d.k Val.zero))
    else if x < 0 || (d.m : Int) ≤ x then .error (0x43, (d.opb + 4 * j) / 128 * 128)
    else if d.byteCopy then
      .ok (((blockRow d.opa d.m d.k A d.sideA x.toNat).zip (blockRow d.opc d.n d.k A d.sideA j)).foldl
        (fun r p => r.move p.1.1 p.2.1 p.1.2) r)
    else
      .ok (r.putDecoded dst C (rowVals r.store d.opa d.m d.k A (sfmtAt d.sa) d.sideA x.toNat))
  | 4 =>
    let x := d.idx r.store j
    if x = -1 then .ok r
    else if x < 0 || (d.m : Int) ≤ x then .error (0x43, (d.opb + 4 * j) / 128 * 128)
    else .ok (((blockRow d.opa d.n d.k A d.sideA j).zip (blockRow d.opc d.m d.k A d.sideA x.toNat)).foldl
        (fun r p => r.move p.1.1 p.2.1 p.1.2) r)
  | 5 => .ok ((List.range (d.k / 32)).foldl (fun r c => r.putQuant d j (rowA j) c) r)
  | 6 =>
    .ok (r.putDecoded dst C (rowVals r.store d.opa d.n d.k A (sfmtAt d.sa) d.sideA j))
  | 7 =>
    let rows := (List.range d.n).map rowA
    if d.opt = 3 then
      let y := (mergeRows d.k rows (storeVals r.store d.opb d.n .fp32)).run {}
      .ok (((r.putRow d.opc C y.1.1).putRow d.opd .fp32 [y.1.2]).count (d.opc + (d.k - 1) * flatWidth C) y.2.sat 0 0)
    else .ok (r.putRow d.opc C (reduceRows d.opt d.k rows))
  | 8 =>
    let t := topRow d.opt (rowA j)
    let vs := t.map (·.2)
    let a := d.opc + j * d.opt * flatWidth C
    .ok ((if bit d.flags 3 then r.putShared a C d.opt (softRow vs) else r.putVals a C vs).put (d.opd + 4 * j * d.opt)
      ((t.map (fun (e : Nat × Val) => toLe 4 e.1)).flatten) false)
  | 9 =>
    let rb := if d.usesB then storeVals r.store (d.opb + (if bit d.flags 6 then 0 else j) * d.k * flatWidth B) d.k B
      else List.replicate d.k Val.zero
    .ok (r.putRow dst C (elemwiseRow d.opt (wideVal 23 (d.p0 % 2 ^ 32)) (wideVal 23 (d.p0 / 2 ^ 32)) (rowA j) rb))
  | 0xA =>
    .ok (r.putShared dst C d.k (normRow (d.opt == 1) (wideVal 23 (d.p0 % 2 ^ 32)) (rowA j) (storeVals r.store d.opb d.k B)
      (if d.opt = 1 then storeVals r.store d.opd d.k D else [])))
  | 0xB =>
    let l := d.opc / 128 + j
    let lo := max d.opc (l * 128); let hi := min (d.opc + d.p0) (l * 128 + 128)
    .ok (r.move (d.opa + (lo - d.opc)) lo (hi - lo))
  | 0xC =>
    let l := d.opc / 128 + j
    let lo := max d.opc (l * 128); let hi := min (d.opc + d.p0) (l * 128 + 128)
    .ok (r.put lo ((List.range (hi - lo)).map (fun i => BitVec.ofNat 8 (d.p1 / 256 ^ ((lo - d.opc + i) % 8)))) false)
  | _ =>
    .ok (r.put d.opc (sha256 (stBytes r.store d.opa d.p0) ++ toLe 8 (r.modFirst.getD 0) ++ toLe 8 r.modLast ++ toLe 4 (r.ext.getD 0) ++
      zeros 12) false)

/-- The extent in which the whole range of a DIGEST lies (R190). -/
def Blk.digestExt (b : Blk) (d : Desc) : Option Nat :=
  match b.str.run.extAt (d.opa / 2097152) with
  | some e => if d.opa + d.p0 ≤ (e.2.base + e.2.granules) * 2097152 then some e.1 else none
  | none => none

/-- The T-steps of the working stage for row step j of a task (R158, R161, R189): the write port takes 256 B in each, the digest unit 16 for
each block of the padded message; the manual gives the rate of each operation of the vector group, not how many a row takes, so that
this is a free value (log entry 95). -/
def Desc.workSteps (d : Desc) (r : Run) (j : Nat) : Nat :=
  match d.kind with
  | 0xB | 0xC => (j + 1) % 2
  | 3 => ceilDiv (if d.byteCopy then (blockRow 0 0 d.k (fmtAt d.fa) d.sideA 0).foldl (fun n p => n + p.2) 0 else d.k * flatWidth (fmtAt d.fc)) 256
  | 4 => if d.idx r.store j = -1 then 0 else ceilDiv ((blockRow 0 0 d.k (fmtAt d.fa) d.sideA 0).foldl (fun n p => n + p.2) 0) 256
  | 0xD => 16 * ((d.p0 + 72) / 64)
  | _ => Config.rowWork d.raw j

/-- One row step of a task: its lines are read, and once they are there the row is computed and its final lines are written. The
flag tells that the step was made. -/
def Blk.rowStep (b : Blk) (k : Nat) (r0 : Run) (d : Desc) : Bool × Blk :=
  let j := r0.next
  let r : Run := if d.kind = 0xD && r0.ext.isNone then { r0 with ext := b.digestExt d } else r0
  if d.kind = 0xD && r.ext.isNone then (true, b.setRun k (r.stop 0x44 0))
  else
    let n1 := d.need r.store j
    let x1 := b.loadLines k r (n1.use ++ n1.move)
    let n := d.need x1.2.store j
    let x := x1.1.loadLines k x1.2 (n.use ++ n.move)
    let r1 := x.2
    if !r1.hasAll (n.use ++ n.move) then (false, x.1.setRun k r1)
    else match r1.refused (n.use ++ n.move) with
      | some s => (true, x.1.setRun k (r1.stop s.1 s.2))
      | none => match r1.poisoned n.use with
        | some l => (true, x.1.consumePoison k r1 l)
        | none => match r1.rowStep d j with
          | .error s => (true, x.1.setRun k (r1.stop s.1 s.2))
          | .ok r2 =>
            let y := x.1.flushRes k { r2 with next := j + 1, spent := r2.spent + d.workSteps r1 j } d (d.kind == 4)
            let r3 := if y.2.ended.isNone && j + 1 = d.rowSteps then { y.2 with ended := some (0, 0) } else y.2
            (true, y.1.setRun k r3)

/-- The work of a row task classified once its fate is known (R425): kept when every result of it has been written, discarded when the task
has failed or been cancelled. -/
def Blk.settleWork (b : Blk) (k : Nat) : Blk :=
  match (b.til k).run with
  | none => b
  | some r =>
    let good := match r.ended with
      | none | some (0, _) => true
      | some _ => false
    if good && !r.res.isEmpty then b
    else (b.setRun k { r with spent := 0 }).tick k (b2n !good) r.spent r.part

/-- A row task carried on as far as it goes without waiting. -/
def rowGo : Nat → Nat → Blk → Blk
  | 0, _, b => b
  | f + 1, k, b =>
    match (b.til k).run with
    | none => b
    | some r => match r.desc with
      | none => b
      | some db =>
        if r.ended.isSome then b
        else
          let x := b.rowStep k r (readDesc db)
          if x.1 then rowGo f k (x.2.settleWork k) else x.2

/-- A row task of a kind carried on. -/
def rowTask (b : Blk) (k kind : Nat) : Blk :=
  match (b.til k).run with
  | none => b
  | some r => match r.desc with
    | none => b
    | some db => if r.kind = kind && !b.halted then rowGo ((readDesc db).rowSteps + 1) k b else b

/-! ## The end of a task (R156, R174, R195, R210) -/

/-- The counts of a result line taken back, its write having been refused after its acceptance: they cover what was written (R157). -/
def Run.unwrite (r : Run) (l : Nat) : Run :=
  let c := (mget r.wrote l).getD (0, 0, 0)
  { r with wrote := mdel r.wrote l,
           tally := { r.tally with sat := r.tally.sat - c.1, drop := r.tally.drop - c.2.1, nanScale := r.tally.nanScale - c.2.2 } }

/-- RESULT_WRITE_REFUSED: result writes that had been issued are refused after their acceptance: each refusal is noted, what they counted is
taken back, and the first ends the task (R157, R174, R192). -/
def resultWriteRefused (b : Blk) (k : Nat) : Blk :=
  match (b.til k).run, b.badWrite (.tiller k) with
  | some r0, some w =>
    let mine := fun (x : Landed) => x.who == .tiller k && x.write
    let b0 : Blk := { b with coh.landed := b.coh.landed.filter (fun x => !mine x) }
    let r := (b.coh.landed.filter mine).foldl (fun r x => r.unwrite x.line) r0
    let b1 := (b.coh.landed.filter mine).foldl (fun b x => b.noteRefusal k x.status) (b0.setRun k r)
    if r0.recSent then b
    else match r.ended with
      | some (0, _) => b1.setRun k { r with ended := some (w.status, w.line * 128) }
      | some _ => b1
      | none => (b1.setRun k (r.stop w.status (w.line * 128))).settleWork k
  | _, _ => b

/-- A task of a resident Sheaf. -/
def Blk.task (b : Blk) (slot i : Nat) : Option TaskRt := (mget b.work.sheafs slot).bind (fun s => s.tasks[i]?)

/-- The safeguard record's bytes (R156); of a FIRST_ESC_BLOCK of 2^32 or more the low 32 bits, as TIL[k]_HEAD shows a block index
(R192): DESIGN CHOICE, log 71. -/
def Tally.bytes (t : Tally) : Bytes :=
  let c := fun (n : Nat) => toLe 4 (min n 0xFFFFFFFF)
  c t.sat ++ c t.nanScale ++ c t.esc ++ c t.unres ++ c t.drop ++ c t.checked ++ toLe 4 (t.firstEsc.getD 0xFFFFFFFF) ++ zeros 4

/-- A safeguard record lost with a status (R195): logged, with THR_ERR.RECORD_FAIL, and with TIL_ERR.REFUSED for a refusal under R90. -/
def Blk.safeLost (b : Blk) (k : Nat) (r : Run) (addr status : Nat) : Blk :=
  let cookie := ((mget b.work.sheafs r.slot).map (·.cookie)).getD 0
  ((b.flag (Reg.thrErr (r.slot / 64)) 3).noteRefusal k status).log 0x06 (24 + r.slot / 64) r.part addr cookie

/-- The TIL_ERR bit that the status of an ended task sets; POISON and REFUSED are set when they happen (R192). DESIGN CHOICE (log entry 92):
CANCELLED is set for the statuses 0x47 and 0x48 alone, not for a task that R154 stops for a refusal or an unresolved block. -/
def tilErrBit (status : Nat) : Option Nat :=
  if status = 0x47 || status = 0x48 then some 1
  else if status = 0x41 then some 2
  else if status = 0x42 || status = 0x43 || status = 0x44 then some 4
  else none

/-- A Tiller freed, its task's end sent to the owning Thresher (R210). -/
def Blk.freeTiller (b : Blk) (k : Nat) (r : Run) (status addr : Nat) : Blk :=
  let q := r.slot / 64
  let b1 := (b.dropLanded (.tiller k)).incr (Reg.tilTaskCnt k)
  let b2 := match tilErrBit status with
    | some i => b1.flag (Reg.tilErr k) i
    | none => b1
  let e : EndRec := { slot := r.slot, task := r.task, status := status, failAddr := addr, tally := r.tally, at_ := b.tb }
  let b3 := b2.modTil k (fun t => { t with run := none })
  { b3 with work.thr := tmod (fun _ => {}) b3.work.thr q (fun t => { t with ends := t.ends ++ [e] }) }

/-- TASK_END: the last result write of a task has completed; its safeguard record is written where SAFE asks for it in the descriptor as it
was admitted, whether or not that has been read again, and once that has completed too the Tiller is free (R195, R210). -/
def tillerTaskEnd (b : Blk) (k : Nat) : Blk :=
  match (b.til k).run with
  | none => b
  | some r0 => match r0.ended with
    | none => b
    | some _ =>
      if b.halted || b.pendingInt (.tiller k) then b
      else
        let b1 := if r0.recSent then b else resultWriteRefused b k
        match (b1.til k).run with
        | none => b
        | some r => match r.ended with
          | none => b
          | some (st, addr) =>
            let d := ((b1.task r.slot r.task).map (·.desc)).map readDesc
            let safe := (d.map (·.safe)).getD false
            let sa := (d.map (·.safeAddr)).getD 0
            if safe && !r.recSent then
              let x := b1.writeInt (tilReq k r) (lineOf sa) (patch (zeros 128) (sa % 128) r.tally.bytes) (lineMask (sa % 128) 32) false
              if x.1 ≠ 0 then (x.2.safeLost k r sa x.1).freeTiller k r st addr
              else if x.2.pendingInt (.tiller k) then x.2.setRun k { r with recSent := true }
              else (match x.2.badWrite (.tiller k) with
                | some w => x.2.safeLost k r sa w.status
                | none => x.2).freeTiller k r st addr
            else if r.recSent then
              (match b1.badWrite (.tiller k) with
                | some w => b1.safeLost k r sa w.status
                | none => b1).freeTiller k r st addr
            else b1.freeTiller k r st addr

/-- A running task cancelled with a status (R154). -/
def Blk.cancelRun (b : Blk) (k status : Nat) : Blk :=
  match (b.til k).run with
  | none => b
  | some r =>
    let lost := match r.desc with
      | some db => (r.window.map (readDesc db).entrySteps).sum
      | none => 0
    ((b.setRun k (r.stop status 0)).settleWork k).tick k 1 lost r.part

end Sys2Proof.Machine
end

