-- ==== Sys2Proof/Machine/Clock.lean ====
section
/-! DEFINITION. The passing of time: what a step does where no command waits (R231, R417, R418, R423, R425). -/

namespace Sys2Proof.Machine

/-- The T-steps of one class that a Tiller spends without work in a period: a free number (log entry 75). -/
def Blk.waste (b : Blk) (k cls part : Nat) : Blk :=
  let d := b.draw
  d.2.tick k cls (Config.stepsOf d.1) part

/-- A period of a Tiller's T-step account (R425): a gated Tiller counts nothing; one without a task, or stopped by a snapshot, is IDLE; one
with a task waits for operands or for its commit window, what its stage works being counted with the work itself. -/
def Blk.tillerTime (b : Blk) (k : Nat) : Blk :=
  if b.gated k then b
  else match (b.til k).run with
  | none => b.waste k 2 (b.ownerOfTil k)
  | some r => if b.rings.stopped then b.waste k 2 (b.ownerOfTil k) else (b.waste k 4 r.part).waste k 5 r.part

/-- A period of a programmable counter, by its key, that counts steps added by waiting: a free number of them (R231, R423, log entry 75). -/
def Blk.counterTime (b : Blk) (key : Nat) : Blk :=
  let c := b.pc (key / 8) (key % 8)
  if stepEvent (key / 8) c.event then
    let d := b.draw
    d.2.pcEvent (key / 8) (key % 8) c.event (some c.part) (Config.stepsOf d.1)
  else b

/-- One period of TB_REF, 40 ns: the timebase counts it unless its reference is lost, the counters of waiting count, and the links fill what
they have not sent with IDLE flits (R273, R417, R418, R421). -/
def Blk.period (b : Blk) : Blk :=
  let b1 : Blk := { b with tb := if b.frozen then b.tb else b.tb + 40 }
  if b.dead then b1 else (List.range 48).foldl Blk.idleFill ((mkeys b1.pcs).dedup.foldl Blk.counterTime ((List.range 24).foldl Blk.tillerTime b1))

/-- What a step does where no command waits: one period passes. DESIGN CHOICE: the table has no row for the passing of time. -/
def tick (s : State) : Out := .next { s with blk := s.blk.period }

end Sys2Proof.Machine
end

