-- ==== Sys2Proof/Machine/Cmd.lean ====
section
/-! DEFINITION. Who executes a command in progress, and when it may (R35, R43 to R45, R318, R321). -/

namespace Sys2Proof.Machine

/-- Is an opcode one that the management controller executes (R318). -/
def isMgmt (op : Nat) : Bool := (0x10 ≤ op && op ≤ 0x15) || (0x20 ≤ op && op < 0x50) || (0x60 ≤ op && op < 0x70)

/-- May the management controller go on with a command: it has started it, or it is the first that it has not (R318). -/
def Blk.mgmtTurn (b : Blk) (r : CmdRec) : Bool :=
  r.started || (b.hub.inProg.find? (fun x => isMgmt x.op && !x.started)) == some r

/-- A command in progress of an opcode executed by the management controller, while it accepts commands (R43, R45). -/
def Blk.mgmtCmd (b : Blk) (c : CmdId) (op : Nat) (go : CmdRec → Blk → Blk) : Blk :=
  match b.cmd c with
  | none => b
  | some r => if b.dead || b.mgmt.resetting || b.mgmt.failed || r.op != op || !b.mgmtTurn r then b else go r b

/-- A command in progress of an opcode that the management controller does not execute. -/
def Blk.hubCmd (b : Blk) (c : CmdId) (op : Nat) (go : CmdRec → Blk → Blk) : Blk :=
  match b.cmd c with
  | none => b
  | some r => if b.dead || r.op != op then b else go r b

/-- May the management controller read host memory for a command of PF0: its Bus Master Enable is 1, and its IDE stream active where that is
required, else the read waits (R308, R380). -/
def Blk.mayRead (b : Blk) : Bool := (b.win 0).master && b.ideOk

/-- What a command's read of host memory gave, with the status of a failed one: MOVE_FAULT or MOVE_HOST_ERR (R320, R331). -/
def hostStatus : HostResult → Nat
  | .data _ _ => 0
  | .fault => 0x80
  | .hostErr => 0x81
  | .pending => 0

/-- The bytes that a host read gave, cut or filled to a length. -/
def hostBytes (h : HostResult) (n : Nat) : Bytes :=
  match h with
  | .data bs _ => fit n bs
  | _ => []

/-- Did a host read arrive with EP = 1. -/
def hostEp : HostResult → Bool
  | .data _ e => e
  | _ => false

/-- A command's read of n bytes of host memory at ADDR under its PASID (R319): untranslated with the PASID, since only the movers and the
sequencers translate (DEDUCED, log entry 68); FW_RECOVER names no PASID (R372). The flag tells that its completions are there. -/
def Blk.mgmtRead (b : Blk) (r : CmdRec) (a pasid n : Nat) (host : HostResult) : Bool × Blk :=
  if !b.mayRead then (false, b)
  else b.askHost (.mgmt r.f r.seq) 12 r.f pasid [] (b.readCut (plainPieces a n (r.op != 0x29))) host

/-- What a command does with what its read of n bytes at record offset 8 under the PASID at 0x10 gave, once the completions are there. -/
def Blk.withHost (b : Blk) (r : CmdRec) (n : Nat) (host : HostResult) (go : Blk → Blk) : Blk :=
  let x := b.mgmtRead r (r.arg 0x08 8) (r.arg 0x10 4) n host
  if x.1 then go x.2 else x.2

/-- A consumption of poison by the hub for a command of PF0, logged, counted and traced (R344). status: what the consumer reports. -/
def Blk.hubPoison (b : Blk) (line status : Nat) : Blk :=
  ((b.aonAdd 206 1).log 0x0C 112 0 (line * 128) 0).trace
    { source := 6, event := 1, unit := 112, a := line * 128, detail := toLe 1 status }

end Sys2Proof.Machine
end

