-- ==== Sys2Proof/Machine/Xlt.lean ====
section
/-! DEFINITION. Address translation: the ATC and the micro-TLBs, Translation Requests, faults, page requests and the parked list,
invalidations (R308, R326 to R333). -/

namespace Sys2Proof.Machine

/-! ## Translations held (R326) -/

/-- Does an entry translate a page of a function and PASID. -/
def AtcEnt.covers (e : AtcEnt) (f pasid page : Nat) : Bool := e.f == f && e.pasid == pasid && e.page >>> e.k == page >>> e.k

/-- Does an entry grant an access. -/
def AtcEnt.grants (e : AtcEnt) (write : Bool) : Bool := if write then e.w else e.r

/-- The set of the ATC that an entry lies in. -/
def AtcEnt.set (e : AtcEnt) : Nat := (e.page >>> e.k) % 1024

/-- The least recently used of some entries. -/
def lruAtc (l : List AtcEnt) : Option AtcEnt :=
  l.foldl (fun (best : Option AtcEnt) e => match best with
    | none => some e
    | some v => if e.stamp < v.stamp then some e else some v) none

/-- An entry put into a list of at most n entries of one set, the least recently used giving way. -/
def putAtc (n : Nat) (same : AtcEnt → Bool) (l : List AtcEnt) (e : AtcEnt) : List AtcEnt :=
  let l1 := l.filter (fun x => !(x.covers e.f e.pasid e.page && x.k == e.k))
  let s := l1.filter same
  let l2 := if s.length < n then l1 else match lruAtc s with
    | some v => without l1 v
    | none => l1
  l2 ++ [e]

/-- A translation that a completion gives entered in the ATC: 8 ways, 1,024 sets; one larger than 1 GiB as the 1 GiB piece that
holds the page asked for (R326). -/
def Blk.enterAtc (b : Blk) (f pasid page addr k : Nat) (r w u : Bool) : Blk :=
  let k1 := min k 18
  let piece := (page % 2 ^ k) / 2 ^ k1
  let e : AtcEnt := ⟨f, pasid, page / 2 ^ k1 * 2 ^ k1, k1, addr + piece * 2 ^ k1 * 4096, r, w, u, b.hub.stamp⟩
  { b with hub.atc := putAtc 8 (fun x => x.set == e.set) b.hub.atc e, hub.stamp := b.hub.stamp + 1 }

/-- The micro-TLB of an engine; a mover has none (R326). -/
def Blk.tlbOf (b : Blk) (engine : Nat) : List AtcEnt := if engine < 8 then [] else tget (fun _ => []) b.hub.tlb engine

/-- A translation entered in a sequencer's micro-TLB of 32 entries. -/
def Blk.enterTlb (b : Blk) (engine : Nat) (e : AtcEnt) : Blk :=
  if engine < 8 then b
  else { b with hub.tlb := tmod (fun _ => []) b.hub.tlb engine (fun l => putAtc 32 (fun _ => true) l { e with stamp := b.hub.stamp }),
                hub.stamp := b.hub.stamp + 1 }

/-! ## Faults (R328 to R331) -/

/-- How a transfer's use of a page stands: translated (to an address, or untranslated under U = 1), waiting, or failed with a
status. -/
inductive Xl | ok (addr : Nat) (untrans : Bool) | wait | fail (status : Nat)
  deriving DecidableEq, Repr

/-- The status with which a failed fault ends a transfer (R324, R331). -/
def Xfer.faultStatus : Xfer → Nat
  | .desc _ _ _ | .list _ _ => 0x80
  | _ => 0x58

/-- The status with which a UR or CA ends a transfer (R320, R202). -/
def Xfer.errStatus : Xfer → Nat
  | .desc _ _ _ | .list _ _ => 0x81
  | _ => 0x58

/-- A transfer's wait forgotten. -/
def Blk.dropWait (b : Blk) (x : Xfer) : Blk := { b with hub.waits := b.hub.waits.filter (fun w => w.x != x) }

/-- A transfer's count of faults forgotten. -/
def Blk.dropFaults (b : Blk) (x : Xfer) : Blk := { b with hub.faults := b.hub.faults.filter (fun e => e.1 != x) }

/-- How often in a row a transfer has faulted on a page. -/
def Blk.faultsOf (b : Blk) (x : Xfer) (page : Nat) : Nat :=
  ((b.hub.faults.find? (fun e => e.1 == x && e.2.1 == page)).map (·.2.2)).getD 0

/-- Is a page request for a page outstanding or waiting to be sent. -/
def Blk.prqFor (b : Blk) (f pasid page : Nat) : Bool :=
  b.hub.prqs.any (fun r => r.f == f && r.pasid == pasid && r.page == page && !r.gone)

/-- How many transfers are parked. -/
def Blk.parkedCount (b : Blk) : Nat := (b.hub.waits.filter (·.parked)).length

/-- A transfer faults on a page: it fails where the function cannot ask for pages or it has faulted 8 times in a row on the page;
otherwise it is parked, and its fault merges into the page request for the page or raises one (R328 to R331). -/
def Blk.fault (b : Blk) (x : Xfer) (engine f pasid page : Nat) (write : Bool) : Xl × Blk :=
  let n := b.faultsOf x page + 1
  let b0 := (b.dropWait x).dropFaults x
  if !b.hub.priOn.contains f || b.hub.stopped.contains f then (.fail x.faultStatus, b0)
  else if 8 ≤ n then (.fail x.faultStatus, b0.flag Reg.xltErr 6)
  else
    let b1 : Blk := { b0 with hub.faults := b0.hub.faults ++ [(x, page, n)],
                              hub.waits := b0.hub.waits ++ [⟨x, engine, f, pasid, page, write, true, b.tb⟩] }
    let b2 := if b1.parkedCount = 1024 then b1.flag Reg.xltErr 3 else b1
    let b3 : Blk :=
      if b2.prqFor f pasid page then
        { b2.incr Reg.xltPrqMergedCnt with hub.prqs := b2.hub.prqs.map (fun (r : PageReq) =>
          if r.f == f && r.pasid == pasid && r.page == page && !r.gone && r.sent.isNone then { r with write := r.write || write } else r) }
      else { b2 with hub.prqs := b2.hub.prqs ++ [{ f := f, pasid := pasid, page := page, write := write }] }
    (.wait, b3)

/-- A transfer's use of a page translated (R308, R326, R327): it waits while Bus Master Enable is 0 or while it waits for a
completion or a response; a hit is used where it grants the access; a miss joins or sends a Translation Request, at most 64 of
which are outstanding, or faults where a page request for the page is outstanding. -/
def Blk.xlate (b : Blk) (x : Xfer) (engine f pasid page : Nat) (write : Bool) : Xl × Blk :=
  if !(b.win f).master || b.hub.waits.any (fun w => w.x == x) then (.wait, b)
  else
    let use := fun (e : AtcEnt) => Xl.ok (if e.u then page * 4096 else e.addr + page % 2 ^ e.k * 4096) e.u
    let hit := fun (l : List AtcEnt) => l.find? (fun e => e.covers f pasid page && e.grants write)
    match hit (b.tlbOf engine) with
    | some e => (use e, (b.enterTlb engine e).dropFaults x)
    | none => match hit b.hub.atc with
      | some e =>
        let b1 := (b.incr Reg.xltAtcHitCnt).dropFaults x
        let b2 : Blk := { b1 with hub.atc := b1.hub.atc.map (fun (y : AtcEnt) => if y = e then { y with stamp := b1.hub.stamp } else y),
                                  hub.stamp := b1.hub.stamp + 1 }
        (use e, b2.enterTlb engine e)
      | none =>
        let b1 := (b.incr Reg.xltAtcMissCnt).event 112 3 none
        if b1.prqFor f pasid page then b1.fault x engine f pasid page write
        else
          let w : XferWait := ⟨x, engine, f, pasid, page, write, false, b.tb⟩
          if b1.hub.trans.any (fun t => t.f == f && t.pasid == pasid && t.page == page && !t.stale) then
            (.wait, { b1 with hub.waits := b1.hub.waits ++ [w] })
          else if 64 ≤ b1.hub.trans.length || 512 ≤ b1.nonPosted then (.wait, b)
          else
            let b2 : Blk := { b1 with hub.waits := b1.hub.waits ++ [w], hub.trans := b1.hub.trans ++ [⟨f, pasid, page, false⟩] }
            (.wait, (b2.incr Reg.xltTransReqCnt).pcie (.transReq f pasid page))

/-- Every page of a range of host memory translated for a transfer, in order: what the first that is not translated gives, or the
translations. -/
def Blk.xlateAll (b : Blk) (x : Xfer) (engine f pasid : Nat) (write : Bool) : List Nat → Except Xl (List (Nat × Bool)) × Blk
  | [] => (.ok [], b)
  | p :: t =>
    let r := b.xlate x engine f pasid p write
    match r.1 with
    | .ok a u =>
      let s := r.2.xlateAll x engine f pasid write t
      (s.1.map (fun l => (a, u) :: l), s.2)
    | o => (.error o, r.2)

/-- The range of pages that the translation of a page takes in, where the page is translated and not used under U = 1: that of the entry that an
engine's micro-TLB or the ATC holds (R327, R332). -/
def Blk.spanOf (b : Blk) (engine f pasid : Nat) (p : Nat × Nat × Bool) : List (Nat × Nat) :=
  if p.2.2 then []
  else match (b.tlbOf engine ++ b.hub.atc).find? (fun e => e.covers f pasid p.1 && e.r) with
    | some e => [(e.page, 2 ^ e.k)]
    | none => [(p.1, 1)]

/-- A transfer's read of a range of host memory (R327, R333): its pages are translated and its requests sent, untranslated with PASID under an
entry with U = 1; it is done once its completions are there. One of which every request is outstanding needs no translation any more. -/
def Blk.hostFetch (b : Blk) (x : Xfer) (engine f pasid a n : Nat) (host : HostResult) : Except Xl Unit × Blk :=
  if !b.ideOk f then (.error .wait, b)
  else if (b.readOf x).any (fun r => r.left == 0) then
    if host = .pending then (.error .wait, b) else (.ok (), b.endRead x)
  else
    let t := b.xlateAll x engine f pasid false (pagesOf a n)
    match t.1 with
    | .error e => (.error e, t.2)
    | .ok ps =>
      let spans := (((pagesOf a n).zip ps).map (t.2.spanOf engine f pasid)).flatten
      let y := t.2.askHost x engine f pasid spans (t.2.readCut (hostPieces a n ps)) host
      (if y.1 then .ok () else .error .wait, y.2)

/-- Has a sequencer room for a transfer: it holds it already, or fewer than 4 (R330). -/
def Blk.seqRoom (b : Blk) (engine : Nat) (x : Xfer) : Bool :=
  b.hub.waits.any (fun w => w.x == x) || (b.hub.waits.filter (fun w => w.engine == engine)).length < 4

/-- Some waiting transfers try again; those that fail at once are told with their status. -/
def Blk.retry (b : Blk) : List XferWait → List (Xfer × Nat) × Blk
  | [] => ([], b)
  | w :: t =>
    let r := (b.dropWait w.x).xlate w.x w.engine w.f w.pasid w.page w.write
    let s := r.2.retry t
    match r.1 with
    | .fail st => ((w.x, st) :: s.1, s.2)
    | _ => s

/-- Some waiting transfers leave the list, failed. -/
def Blk.failWaits (b : Blk) (ws : List XferWait) (err : Bool) : List (Xfer × Nat) × Blk :=
  (ws.map (fun w => (w.x, if err then w.x.errStatus else w.x.faultStatus)), ws.foldl (fun b w => (b.dropWait w.x).dropFaults w.x) b)

/-- The transfers parked on a page. -/
def Blk.parkedOn (b : Blk) (f pasid page : Nat) : List XferWait :=
  b.hub.waits.filter (fun w => w.parked && w.f == f && w.pasid == pasid && w.page == page)

/-- A Translation Completion handled (R326, R327, R332): discarded where an invalidation has made it stale, and its waiters ask
again; an error fails its waiters; a page is entered unless it grants nothing, and a waiter whose right it lacks faults. The first
part tells the transfers that failed. -/
def Blk.transDone (b : Blk) (f pasid page : Nat) (res : TransResult) : List (Xfer × Nat) × Blk :=
  match b.hub.trans.find? (fun t => t.f == f && t.pasid == pasid && t.page == page) with
  | none => ([], b)
  | some t =>
    let b1 : Blk := { b with hub.trans := b.hub.trans.erase t }
    let ws := b1.hub.waits.filter (fun w => !w.parked && w.f == f && w.pasid == pasid && w.page == page)
    if t.stale then (b1.incr Reg.xltStaleTransCnt).retry ws
    else match res with
    | .err => (b1.flag Reg.xltErr 5).failWaits ws true
    | .page addr k r w u =>
      let b2 := if r || w then b1.enterAtc f pasid page addr.toNat k r w u else b1
      ws.foldl (fun (x : List (Xfer × Nat) × Blk) e =>
        if if e.write then w else r then (x.1, x.2.dropWait e.x)
        else
          let y := x.2.fault e.x e.engine f pasid page e.write
          match y.1 with
          | .fail st => (x.1 ++ [(e.x, st)], y.2)
          | _ => (x.1, y.2)) ([], b2)

/-! ## Page requests (R328, R330, R331) -/

/-- The page requests of a function that have been sent and whose index is in use. -/
def Blk.prqSent (b : Blk) (f : Nat) : List PageReq := b.hub.prqs.filter (fun r => r.f == f && r.sent.isSome)

/-- The lowest PRG index that a function does not use. -/
def Blk.prgIndex (b : Blk) (f : Nat) : Nat :=
  let used := (b.prqSent f).filterMap (fun r => r.sent.map (·.1))
  ((List.range 513).find? (fun i => !used.contains i)).getD 512

/-- PAGE_REQUEST: the first page request that waits and that the limits leave room for is sent, with Last, R, and W where a write
needs it (R328, R330). -/
def pageRequest (b : Blk) : Blk :=
  let total := (b.hub.prqs.filter (fun r => r.sent.isSome)).length
  match b.hub.prqs.find? (fun r => r.sent.isNone && (b.win r.f).master && (b.prqSent r.f).length < tget (fun _ => 0) b.hub.alloc r.f) with
  | none => b
  | some r =>
    if b.dead || 512 ≤ total then b
    else
      let i := b.prgIndex r.f
      let r1 : PageReq := { r with sent := some (i, b.tb), limit := b.field Reg.xltPriCfg 0 16 }
      let b1 : Blk := { b with hub.prqs := b.hub.prqs.map (fun x => if x = r then r1 else x) }
      ((b1.incr Reg.xltPrqSentCnt).event 112 4 none).pcie (.pageReq r.f r.pasid r.page r.write i)

/-- A page request that failed: its waiters fail (R331). -/
def Blk.prqFail (b : Blk) (r : PageReq) : List (Xfer × Nat) × Blk :=
  (b.incr Reg.xltPrqFailCnt).failWaits (b.parkedOn r.f r.pasid r.page) false

/-- A PRG Response handled (R331): success, failure of the request, or failure of the function, whose PRI stops. -/
def Blk.prgDone (b : Blk) (f index : Nat) (code : PrgCode) : List (Xfer × Nat) × Blk :=
  match b.hub.prqs.find? (fun r => r.f == f && (r.sent.map (·.1)) == some index) with
  | none => ([], (b.incr Reg.xltStrayCnt).flag Reg.xltErr 4)
  | some r =>
    let b1 : Blk := { b with hub.prqs := b.hub.prqs.erase r }
    match code with
    | .success => if r.gone then ([], b1) else b1.retry (b1.parkedOn f r.pasid r.page)
    | .invalid => if r.gone then ([], b1) else (b1.flag Reg.xltErr 2).prqFail r
    | .failure =>
      let b2 := b1.flag Reg.xltErr 0
      let mine := b2.hub.waits.filter (fun w => w.parked && w.f == f)
      let b3 : Blk := { b2 with
        hub.stopped := with1 b2.hub.stopped f
        hub.prqs := (b2.hub.prqs.filter (fun x => x.f != f || x.sent.isSome)).map (fun (x : PageReq) =>
          if x.f = f then { x with gone := true } else x) }
      (b3.incr Reg.xltPrqFailCnt).failWaits mine false

/-- A page request's time limit has passed (R331): its waiters fail, and its index stays in use. -/
def Blk.priExpire (b : Blk) (f index : Nat) : List (Xfer × Nat) × Blk :=
  match b.hub.prqs.find? (fun r => r.f == f && (r.sent.map (·.1)) == some index && !r.gone) with
  | none => ([], b)
  | some r =>
    if b.dead || b.tb ≤ ((r.sent.map (·.2)).getD 0) + r.limit * 1000000 then ([], b)
    else
      let b1 : Blk := { b with hub.prqs := b.hub.prqs.map (fun x => if x = r then { r with gone := true } else x) }
      (b1.flag Reg.xltErr 1).prqFail r

/-- A function's PRI enabled with an allocation, or disabled: its indices are no longer in use, and what waits on its page requests
fails (R328, R331). -/
def Blk.priSet (b : Blk) (f : Nat) (on : Bool) (allocation : Nat) : List (Xfer × Nat) × Blk :=
  if on then
    ([], { b with
      hub.priOn := with1 b.hub.priOn f
      hub.alloc := tset (fun _ => 0) b.hub.alloc f (min allocation 512)
      hub.stopped := if b.hub.priOn.contains f then b.hub.stopped else without b.hub.stopped f })
  else
    let b1 : Blk := { b with hub.priOn := without b.hub.priOn f, hub.prqs := b.hub.prqs.filter (fun r => r.f != f) }
    b1.failWaits (b1.hub.waits.filter (fun w => w.parked && w.f == f)) false

/-! ## Invalidation (R332, R333) -/

/-- Does a range of pages from lo overlap an entry. -/
def AtcEnt.hits (e : AtcEnt) (f : Nat) (pasid : Option Nat) (lo n : Nat) : Bool :=
  e.f == f && (pasid.isNone || pasid == some e.pasid) && lo < e.page + 2 ^ e.k && e.page < lo + n

/-- The outstanding reads of an engine under translations of a function that overlap a range of pages (R332). -/
def Blk.engineReads (b : Blk) (e f : Nat) (pasid : Option Nat) (lo n : Nat) : List Nat :=
  (b.hub.reads.filter (fun r => r.engine == e && r.f == f && (pasid.isNone || pasid == some r.pasid) &&
    r.spans.any (fun s => lo < s.1 + s.2 && s.1 < lo + n))).map (·.id)

/-- The Invalidation Completion sent once every engine has acknowledged (R332). -/
def Blk.invEnd (b : Blk) : Blk :=
  let done := b.hub.invs.filter (fun v => v.left.isEmpty)
  done.foldl (fun b v => b.pcie (.invCpl v.f v.itag)) { b with hub.invs := b.hub.invs.filter (fun v => !v.left.isEmpty) }

/-- An Invalidate Request taken: overlapping translations are dropped everywhere, requests under way become stale, and every engine is told;
an engine without a read under way acknowledges at once (R332). -/
def Blk.invTake (b : Blk) (f itag : Nat) (pasid : Option Nat) (lo bytes : Nat) : Blk :=
  if 32 ≤ b.hub.invs.length then b
  else
    let p := lo / 4096
    let n := (lo + bytes + 4095) / 4096 - p
    let keep := fun (l : List AtcEnt) => l.filter (fun e => !e.hits f pasid p n)
    let b1 : Blk := { b.incr Reg.xltInvRxCnt with
      hub.atc := keep b.hub.atc
      hub.tlb := (b.hub.tlb.map (fun (e : Nat × List AtcEnt) => (e.1, keep e.2))).filter (fun e => !e.2.isEmpty)
      hub.trans := b.hub.trans.map (fun (t : TransOut) =>
        if t.f == f && (pasid.isNone || pasid == some t.pasid) && p ≤ t.page && t.page < p + n then { t with stale := true } else t)
      hub.invs := b.hub.invs ++ [⟨f, itag, (List.range 12).filter (fun e => !(b.engineReads e f pasid p n).isEmpty),
                                  ((List.range 12).map (fun e => b.engineReads e f pasid p n)).flatten⟩] }
    b1.invEnd

/-- INVALIDATION_ACK: an engine acknowledges an invalidation once every read that it waits for has its completions (R332). -/
def invalidationAck (b : Blk) (f itag e : Nat) : Blk :=
  let open_ := fun (v : Inval) => b.hub.reads.any (fun r => r.engine == e && v.reads.contains r.id)
  { b with hub.invs := b.hub.invs.map (fun (v : Inval) =>
      if v.f == f && v.itag == itag && !open_ v then { v with left := v.left.filter (· != e) } else v) }.invEnd

end Sys2Proof.Machine
end

