-- ==== Sys2Proof/Machine/Thresher.lean ====
section
/-! DEFINITION. The Threshers: submission, admission, readiness, dispatch, descriptor re-reads, JOIN and NOTIFY, task ends, errors,
cancellation, the watchdog, completion and prefetch (R193 to R219). -/

namespace Sys2Proof.Machine

/-! ## Sheafs and tasks -/

/-- A Thresher. -/
def Blk.thr (b : Blk) (q : Nat) : Thresher := tget (fun _ => {}) b.work.thr q

/-- A Thresher changed. -/
def Blk.modThr (b : Blk) (q : Nat) (f : Thresher → Thresher) : Blk := { b with work.thr := tmod (fun _ => {}) b.work.thr q f }

/-- A resident Sheaf changed. -/
def Blk.modSheaf (b : Blk) (slot : Nat) (f : Sheaf → Sheaf) : Blk := { b with work.sheafs := mmod b.work.sheafs slot f }

/-- A task of a resident Sheaf changed. -/
def Blk.modTask (b : Blk) (slot i : Nat) (f : TaskRt → TaskRt) : Blk :=
  b.modSheaf slot (fun s => { s with tasks := s.tasks.modify i f })

/-- A Thresher as a requester, for a partition (R91). -/
def thrReq (q part : Nat) : Requester := ⟨.thresher q, .part part⟩

/-- The atomic of a NOTIFY as a requester: its Thresher acts for the Sheaf's partition (R91, R198). -/
def notifyReq (slot task part : Nat) (t : TaskRt) : Requester := ⟨.notify slot task t.order t.tag, .part part⟩

/-- The Sheafs of a Thresher. -/
def Blk.owned (b : Blk) (q : Nat) : Map Sheaf := b.work.sheafs.filter (fun e => e.1 / 64 == q)

/-- The task entries reserved for the Submit in admission (R200). -/
def Thresher.reserved (t : Thresher) : Nat := ((t.room.bind (fun r => readHeader r.2)).map (·.tasks)).getD 0

/-- The free task entries of a Thresher (R200, R201). -/
def Blk.taskFree (b : Blk) (q : Nat) : Nat :=
  262144 - ((b.owned q).map (fun e => e.2.tasks.length)).sum - (b.thr q).reserved

/-- The Sheafs of a partition that count against its SHEAF_MAX: those resident, and the places reserved on the Threshers (R55, R200). -/
def Blk.sheafsHeld (b : Blk) (part : Nat) : Nat :=
  (b.work.sheafs.filter (fun e => e.2.part == part)).length +
  ((List.range 4).filter (fun q => (b.thr q).room.isSome && ((b.thr q).wait.head?).any (fun r => r.part == part))).length

/-- The tasks of every Sheaf, each with its slot and index, that satisfy a condition. -/
def Blk.tasksWhere (b : Blk) (p : Nat → Sheaf → Nat → TaskRt → Bool) : List (Nat × Nat × TaskRt) :=
  (b.work.sheafs.map (fun e => ((e.2.tasks.zip (List.range e.2.tasks.length)).filter (fun t => p e.1 e.2 t.2 t.1)).map
    (fun t => (e.1, t.2, t.1)))).flatten

/-- Does a task run on a Tiller (R167). -/
def TaskRt.onTiller (t : TaskRt) : Bool := t.kind < 0xE

/-- The entries of the ready queue of a quadrant (R207). -/
def Blk.readyQ (b : Blk) (q : Nat) : List (Nat × Nat × TaskRt) :=
  b.tasksWhere (fun _ _ _ t => t.state == .ready && t.onTiller && t.home == q)

/-- The share of a ready queue that a partition may take (R208). -/
def Blk.queueShare (b : Blk) (q part : Nat) : Nat :=
  4096 * ((b.view (.thresher (Fin.ofNat 4 q))).tillers.filter (· == some part)).length / 24

/-- Has the ready queue of a quadrant room for a task of a partition (R208). -/
def Blk.queueRoom (b : Blk) (q part : Nat) : Bool :=
  let es := b.readyQ q
  es.length < 4096 && (es.filter (fun e => ((mget b.work.sheafs e.1).map (·.part)) == some part)).length < b.queueShare q part

/-- A consumption of poison by a Thresher logged, counted and traced (R344). -/
def Blk.thrPoison (b : Blk) (q part line who : Nat) : Blk :=
  ((b.aonAdd 206 1).log 0x0C (24 + q) part (line * 128) who).trace
    { source := 6, event := 1, part := part, unit := 24 + q, a := line * 128, detail := toLe 1 0x46 }

/-! ## Submission (R199, R200, R219) -/

/-- The RESULT of a Submit: SLOT, TASK_A and TASK_B (R244, R319). -/
def submitResult (slot a c : Nat) : Bytes := toLe 1 slot ++ zeros 1 ++ toLe 2 a ++ toLe 2 c ++ zeros 2

/-- A Submit rejected (R200, R219, R220). -/
def Blk.reject (b : Blk) (q : Nat) (r : SubmitReq) (status a c : Nat) : Blk :=
  let b1 := (b.incr (Reg.thrRejectCnt q)).flag (Reg.thrErr q) 0
  let b2 := (b1.setReg (Reg.thrLastReject q) (BitVec.ofNat 32 (status + a * 65536))).setReg (Reg.thrLastRejectB q) (BitVec.ofNat 32 c)
  let b3 := b2.trace { source := 2, event := 2, part := r.part, unit := 24 + q, a := r.cookie * 256 }
  b3.answerAsker q r.who status (submitResult 0 a c)

/-- The Thresher with the fewest resident Sheafs, the lowest on a tie (R199). -/
def Blk.leastThr (b : Blk) : Nat :=
  (List.range 4).foldl (fun best q => if (b.owned q).length < (b.owned best).length then q else best) 0

/-- A Submit that has come to a Thresher: it waits for admission, or is answered at once (R199, R200). lease: what the lease of a fabric host
that submits answers; 0 where that passes. -/
def Blk.submit (b : Blk) (r : SubmitReq) (code lease : Nat) : Blk :=
  let q := if code < 4 then code else b.leastThr
  let b1 := b.incr (Reg.thrSubmitCnt q)
  if lease ≠ 0 then b1.reject q r lease 0 0
  else if !b1.str.loaded then b1.reject q r 0x5F 0 0
  else if 16 ≤ (b1.thr q).wait.length then b1.reject q r 0x54 0 0
  else b1.modThr q (fun t => { t with wait := t.wait ++ [r] })

/-- The lease checks on a fabric host that submits or cancels (R199, R215); 0 where they pass. -/
def Blk.leaseStatus (b : Blk) (eid : Nat) : Nat :=
  match mget b.ext.leases eid with
  | some l => if l.lapsed then 0x1A else if l.live then 0 else 0x11
  | none => 0x11

/-- Submit from a fabric host (R199, R243). -/
def submitMsg (b : Blk) (r : Req) (addr thr cookie : Nat) : Blk :=
  let q := if thr < 4 then thr else 0
  let src := r.src.toNat
  b.ctrlIn q r 0xD1 0 ((4 ≤ thr && thr != 0xF) || addr % 128 != 0) false none (fun b =>
    let w := Asker.fabric r.src r.msgId r.traceId 0xD1
    b.submit ⟨w, some src, b.hostPart src, .pool, addr, cookie, b.tb⟩ thr (b.leaseStatus src))

/-! ## Reads of a Sheaf image (R199, R202) -/

/-- What a read of a part of an image gave: its bytes, a status that ends the Sheaf or the Submit, or nothing yet. -/
inductive Got | bytes (bs : Bytes) | bad (status : Nat) | wait
  deriving DecidableEq, Repr

/-- Pool lines read into a list of lines already read. -/
def Blk.readLines (b : Blk) (w : Requester) (have_ : Map StoreLine) : List Nat → Blk × Map StoreLine
  | [] => (b, have_)
  | l :: t =>
    if mhas have_ l then b.readLines w have_ t
    else
      let x := b.readInt w l
      let h := match x.1 with
        | .ok bs p => mput have_ l ⟨0, bs, p⟩
        | .refused s => mput have_ l ⟨s, [], false⟩
        | .wait => have_
      x.2.readLines w h t

/-- What some pool lines that have been read give: the first that was refused, or that is poisoned, ends it. -/
def Blk.judgeLines (b : Blk) (q part who : Nat) (h : Map StoreLine) (a n : Nat) : Got × Blk :=
  let ls := linesOf a n
  if !ls.all (mhas h) then (.wait, b)
  else
    let bad := ls.find? (fun l => match mget h l with | some s => s.status != 0 || s.poison | none => false)
    match bad with
    | none => (.bytes (stBytes h a n), b)
    | some l => match mget h l with
      | some s => if s.status = 0 then (.bad 0x46, b.thrPoison q part l who) else (.bad s.status, b)
      | none => (.wait, b)

/-- A part of a host image, of a partition: while its sequencer has room for the transfer its pages are translated, the reads are sent, and
the bytes are what they returned (R199, R327, R330, R331). who: what a record of consumed poison names (R344). -/
def Blk.hostPartOf (b : Blk) (x : Xfer) (q part who f pasid a n : Nat) (host : HostResult) : Got × Blk :=
  if !b.seqRoom (8 + q) x then (.wait, b)
  else
    let r := b.hostFetch x (8 + q) f pasid a n host
    match r.1 with
    | .error (.fail s) => (.bad s, r.2)
    | .error _ => (.wait, r.2)
    | .ok _ => match host with
      | .data bs ep => if ep then (.bad 0x46, r.2.thrPoison q part 0 who) else (.bytes (fit n bs), r.2)
      | .fault | .hostErr => (.bad 0x58, r.2)
      | .pending => (.wait, r.2)

/-- The number that names a Submit's transfer. -/
def SubmitReq.seq (r : SubmitReq) : Nat :=
  match r.who with
  | .cmd c => c.seq.toNat
  | .fabric _ _ _ _ => 0

/-- The first bytes of the image of a Submit in admission. -/
def Blk.imageBytes (b : Blk) (q : Nat) (r : SubmitReq) (n : Nat) (host : HostResult) : Got × Blk :=
  match r.src with
  | .host f pasid => b.hostPartOf (.image q f r.seq) q r.part 0 f pasid r.addr n host
  | .pool =>
    let x := b.readLines (thrReq q r.part) (b.thr q).fetched (linesOf r.addr n)
    let b1 := x.1.modThr q (fun t => { t with fetched := x.2 })
    b1.judgeLines q r.part (r.eid.getD 0) x.2 r.addr n

/-! ## Readiness (R207, R208) -/

/-- May a Tiller take a task: it is idle, its owner stays, and no power transition gates it (R68, R165, R209, R397, R398). -/
def Blk.idleFor (b : Blk) (k : Nat) : Option Nat :=
  let t := b.til k
  let owner := (b.view (.tiller (Fin.ofNat 24 k))).tillers.getD k none
  let seen := (b.view (.thresher (Fin.ofNat 4 (k / 6)))).tillers.getD k none
  let leaving := match b.pwr.move with
    | some m => powerGates m.state m.mask k
    | none => false
  if t.run.isSome || t.clearing || b.gated k || leaving || owner != seen then none else owner

/-- The ready tasks of a partition for a Tiller, with the Tiller that each goes to, where that can still take it. -/
def Blk.readyOf (b : Blk) (part : Nat) : List (Option Nat × Nat × Nat × TaskRt) :=
  (b.tasksWhere (fun _ s _ t => t.state == .ready && t.onTiller && s.part == part && s.abort.isNone)).map (fun e =>
    (e.2.2.goes.filter (fun k => b.idleFor k == some part), e))

/-- The Tiller that a task which becomes ready goes to: the lowest-numbered idle one of its partition on its home quadrant, else the
lowest-numbered idle one (R209); none while other tasks wait in a queue for the idle Tillers. -/
def Blk.goesTo (b : Blk) (part home : Nat) : Option Nat :=
  let es := b.readyOf part
  let idle := (List.range 24).filter (fun k => b.idleFor k == some part && !es.any (fun e => e.1 == some k))
  if es.any (·.1.isNone) then none
  else match idle.find? (fun k => k / 6 == home) with
    | some k => some k
    | none => idle.head?

/-- A task that is ready takes its place: JOIN and NOTIFY on the owning Thresher, any other in the ready queue of its home quadrant,
or held in its entry where that has no room (R207 to R209). -/
def Blk.makeReady (b : Blk) (slot i : Nat) : Blk :=
  match mget b.work.sheafs slot, b.task slot i with
  | some s, some t =>
    let room := !t.onTiller || b.queueRoom t.home s.part
    let goes := if room && t.onTiller && s.abort.isNone then b.goesTo s.part t.home else none
    let put := fun (t : TaskRt) => { t with state := if room then .ready else .held, stamp := b.tb, queuedAt := b.tb,
                                            order := b.work.order, goes := goes }
    let b1 : Blk := { b.modTask slot i put with work.order := b.work.order + 1 }
    if room then b1
    else ((b1.incr (Reg.thrHeldCnt t.home)).flag (Reg.thrErr t.home) 4).event (24 + t.home) 2 (some s.part)
  | _, _ => b

/-- HELD_TASK_ENQUEUE: held tasks enter the ready queue of a quadrant in the order of their stamps, as far as there is room (R208); each keeps
the stamp of the moment at which it became ready (R207). -/
def heldTaskEnqueue (b : Blk) (q : Nat) : Blk :=
  if b.dead then b
  else
    let hs := (b.tasksWhere (fun _ s _ t => t.state == .held && t.home == q && s.abort.isNone)).mergeSort
      (fun x y => x.2.2.order ≤ y.2.2.order)
    hs.foldl (fun b e => match mget b.work.sheafs e.1 with
      | some s => if b.queueRoom q s.part then b.modTask e.1 e.2.1 (fun t => { t with state := .ready, queuedAt := b.tb }) else b
      | none => b) b

/-! ## Admission (R200, R201) -/

/-- The structure that a Thresher works under (R68). -/
def Blk.thrView (b : Blk) (q : Nat) : Struct := b.view (.thresher (Fin.ofNat 4 q))

/-- Do all lines of a span lie in ACTIVE extents of a partition, as a Thresher sees them (order 2 of R200). -/
def Blk.spanActive (b : Blk) (q part a n : Nat) : Bool :=
  (linesOf a n).all (fun l => match (b.thrView q).extAt (granOf l) with
    | some e => e.2.part == part && b.extStateAt (homeOf l) e.1 == .active
    | none => false)

/-- The extent by index as a span of addresses. -/
def Struct.extSpan (s : Struct) (i : Nat) : Option (Nat × Nat) := (mget s.exts i).map (fun e => (e.addr, e.size))

/-- Does an image lie in one extent (R199). -/
def Struct.inOneExt (s : Struct) (a n : Nat) : Bool :=
  match s.extAt (a / 2097152) with
  | some e => a + n ≤ e.2.addr + e.2.size
  | none => false

/-- The dependence count of task i: how many lists name it (R194). -/
def inDegree (ts : List (Desc × List Nat)) (i : Nat) : Nat := (ts.filter (fun t => t.2.contains i)).length

/-- The dependence counts of every task. -/
def inDegrees (ts : List (Desc × List Nat)) : Map Nat :=
  ts.foldl (fun m t => t.2.foldl (fun m i => mput m i ((mget m i).getD 0 + 1)) m) []

/-- The task entries of an admitted image (R201). -/
def taskEntries (ts : List (Desc × List Nat)) : List TaskRt :=
  let deg := inDegrees ts
  (ts.zip (List.range ts.length)).map (fun x =>
    let d := x.1.1
    { kind := d.kind, prio := d.prio, home := d.homeQuad, tag := d.tag, noPre := d.noPre, desc := d.raw, succ := x.1.2,
      check := checkValue d.raw x.1.2, deps := (mget deg x.2).getD 0 })

/-- A Submit taken out of admission. -/
def Blk.endAdmission (b : Blk) (q : Nat) : Blk :=
  (b.aonAdd (232 + q) 1).modThr q (fun t => { t with wait := t.wait.drop 1, fetched := [], room := none })

/-- Orders 4 to 7 of R200 on an image, under the structure that the Thresher works under (R68): a failure with TASK_A and TASK_B, or the
tasks with the visits of the check. -/
def Blk.judgeImage (b : Blk) (q : Nat) (r : SubmitReq) (h : Header) (img : Bytes) :
    Except (Nat × Nat × Nat) (List (Desc × List Nat) × Nat) :=
  let s := b.thrView q
  let det := (s.bound r.part).determine
  let prioMax := if r.part = 0 then 7 else ((mget s.parts r.part).map (·.prioMax)).getD 0
  match imgTasks h img det 0 h.tasks with
  | .error i => .error (0x50, i, 0)
  | .ok ts =>
    if !imgPadding h img || (r.src == .pool && !s.inOneExt r.addr h.length) then .error (0x50, 0, 0)
    else match (ts.zip (List.range ts.length)).find? (fun t => prioMax < t.1.1.prio) with
      | some t => .error (0x55, t.2, 0)
      | none =>
        if ts.any (fun t => t.1.kind < 0xE) && !s.tillers.contains (some r.part) then .error (0x56, 0, 0)
        else if det then
          let v := determinism ts s.extSpan
          if v.1 = 0 then .ok (ts, v.2.2.2) else .error (v.1, v.2.1, v.2.2.1)
        else .ok (ts, 0)

/-- Order 8 of R200: the Sheaf becomes resident, its tasks with no predecessor ready, and the Submit is answered. -/
def Blk.admitSheaf (b : Blk) (q slot : Nat) (r : SubmitReq) (h : Header) (ts : List (Desc × List Nat)) (visits : Nat) : Blk :=
  let es := taskEntries ts
  let s : Sheaf := { part := r.part, src := r.src, addr := r.addr, cookie := r.cookie, policy := h.policy, doneMask := h.doneMask,
                     descOff := h.descOff, edgeOff := h.edgeOff, wdogMs := h.wdogMs, record := h.record, statusArr := h.statusArr,
                     subs := h.subs, admitAt := b.tb, visits := visits, tasks := es }
  let b1 := ({ b.endAdmission q with work.sheafs := mput b.work.sheafs slot s }).aonAdd 221 1
  let b2 := ((es.zip (List.range es.length)).filter (fun t => t.1.deps == 0)).foldl (fun b t => b.makeReady slot t.2) b1
  let b3 := b2.trace { source := 2, event := 1, part := r.part, unit := 24 + q, a := slot + r.cookie * 256 }
  b3.answerAsker q r.who 0 (submitResult slot 0 0)

/-- The lowest free slot of a Thresher (R201). -/
def Blk.freeSlot (b : Blk) (q : Nat) : Option Nat := ((List.range 64).map (64 * q + ·)).find? (fun k => !mhas b.work.sheafs k)

/-- Orders 1 to 3 of R200 for the Submit in admission: the status of the first that fails; or the slot and the header that are reserved for
it, from then until its admission ends; or nothing while the header's fetch waits. -/
def Blk.reserve (b : Blk) (q : Nat) (r : SubmitReq) (host : HostResult) : Option (Except Nat (Nat × Header)) × Blk :=
  match (b.thr q).room.bind (fun x => (readHeader x.2).map (fun h => (x.1, h))) with
  | some x => (some (.ok x), b)
  | none =>
    let g := b.imageBytes q r 128 host
    match g.1 with
    | .wait => (none, g.2)
    | .bad st => (some (.error st), g.2)
    | .bytes hb => match readHeader (hb.take 128) with
      | none => (some (.error 0x50), g.2)
      | some h =>
        let max := if r.part = 0 then 16 else ((mget (g.2.thrView q).parts r.part).map (·.sheafMax)).getD 0
        if !g.2.spanActive q r.part h.record 128 || (h.statusArr != 0 && !g.2.spanActive q r.part h.statusArr h.tasks) then
          (some (.error 0x57), g.2)
        else match g.2.freeSlot q with
          | none => (some (.error 0x53), g.2)
          | some slot =>
            if g.2.taskFree q < h.tasks || max ≤ g.2.sheafsHeld r.part then (some (.error 0x53), g.2)
            else (some (.ok (slot, h)), g.2.modThr q (fun t => { t with room := some (slot, hb.take 128) }))

/-- SHEAF_ADMISSION: a Thresher admits the Submit that has waited longest, or rejects it at the first order that fails (R200). -/
def sheafAdmission (b : Blk) (q : Nat) (host : HostResult) : Blk :=
  match (b.thr q).wait with
  | [] => b
  | r :: _ =>
    let no := fun (b : Blk) (st a c : Nat) => (b.endAdmission q).reject q r st a c
    if b.dead || b.closing then b
    else
      let g := b.reserve q r host
      match g.1 with
      | none => g.2
      | some (.error st) => no g.2 st 0 0
      | some (.ok (slot, h)) =>
        let i := g.2.imageBytes q r h.length host
        match i.1 with
        | .wait => i.2
        | .bad st => no i.2 st 0 0
        | .bytes img => match i.2.judgeImage q r h img with
          | .error e => no i.2 e.1 e.2.1 e.2.2
          | .ok v => i.2.admitSheaf q slot r h v.1 v.2

/-! ## Completion (R217 to R219) -/

/-- Is a task status a failure (R213). -/
def isFailure (st : Nat) : Bool := st != 0 && st != 0x48 && st != 0x49

/-- The status with which a Sheaf ends (R214 to R219). -/
def Sheaf.final (s : Sheaf) : Nat := s.abort.getD (if s.failed then 0x5C else 0)

/-- The completion record (R218). -/
def Sheaf.recordBytes (s : Sheaf) (slot : Nat) : Bytes :=
  let n := fun (p : Nat → Bool) => (s.tasks.filter (fun t => p t.status)).length
  let ff := (s.tasks.zip (List.range s.tasks.length)).find? (fun t => isFailure t.1.status)
  let c := fun (n : Nat) => toLe 4 (min n 0xFFFFFFFF)
  toLe 1 s.final ++ toLe 1 s.policy ++ toLe 1 slot ++ zeros 1 ++ toLe 4 s.cookie ++ toLe 4 (n (· == 0)) ++ toLe 4 (n isFailure) ++
  toLe 4 (n (· == 0x49)) ++ toLe 4 (n (· == 0x48)) ++ toLe 4 ((ff.map (·.2)).getD 0xFFFFFFFF) ++ toLe 1 ((ff.map (·.1.status)).getD 0) ++
  zeros 3 ++ toLe 4 ((ff.map (·.1.tag)).getD 0) ++ zeros 4 ++ toLe 8 ((ff.map (·.1.failAddr)).getD 0) ++ toLe 8 s.admitAt ++
  toLe 8 s.endAt ++ c s.sums.sat ++ c s.sums.nanScale ++ c s.sums.esc ++ c s.sums.unres ++ c s.sums.drop ++ c s.sums.checked ++
  toLe 4 (s.sums.firstEsc.getD 0xFFFFFFFF) ++ zeros 4 ++ toLe 4 s.visits ++ zeros 28

/-- The status array as whole lines (R217). -/
def Sheaf.statusBytes (s : Sheaf) : Bytes := fit (ceil128 s.tasks.length) (s.tasks.map (fun t => BitVec.ofNat 8 t.status))

/-- A record or status-array write of a Sheaf lost (R217). -/
def Blk.recordLost (b : Blk) (slot : Nat) (s : Sheaf) : Blk :=
  (b.flag (Reg.thrErr (slot / 64)) 3).log 0x06 (24 + slot / 64) s.part s.record s.cookie

/-- Whole lines written by a Thresher; the flag tells whether one was refused. -/
def Blk.thrWrite (b : Blk) (q part a : Nat) (bs : Bytes) : Bool × Blk :=
  (lineParts a bs).foldl (fun x p =>
    let y := x.2.writeInt (thrReq q part) p.1 p.2.1 (BitVec.allOnes 128) false
    (x.1 || y.1 != 0, y.2)) (false, b)

/-- Is a write of some lines by a Thresher under way. -/
def Blk.thrWriting (b : Blk) (q : Nat) (ls : List Nat) : Bool :=
  b.coh.txns.any (fun t => t.who == .thresher q && ls.contains t.line) ||
  b.coh.queue.any (fun e => e.txn.who == .thresher q && ls.contains e.txn.line)

/-- A refusal that came after acceptance for some lines that a Thresher wrote, taken. -/
def Blk.thrBad (b : Blk) (q : Nat) (ls : List Nat) : Bool × Blk :=
  let mine := fun (x : Landed) => x.who == .thresher q && x.write && ls.contains x.line
  (b.coh.landed.any mine, { b with coh.landed := b.coh.landed.filter (fun x => !mine x) })

/-- A notice or a done notice sent to a subscriber: as an event of the partition's window for the SELF EID, else over the fabric
(R193, R198, R217, R259, R317). -/
def Blk.notify (b : Blk) (q eid part : Nat) (event : Bytes) (m : Msg) : Blk :=
  if eid = b.str.run.self then b.eventDeliver part event else (b.sendOwn q { m with dst := eid, part := part }).2

/-- The done notices of a Sheaf, in ascending subscriber (R217). -/
def Blk.doneNotices (b : Blk) (slot : Nat) (s : Sheaf) (st : Nat) : Blk :=
  ((s.subs.zip (List.range s.subs.length)).filter (fun x => bit s.doneMask x.2)).foldl (fun b x =>
    b.notify (slot / 64) x.1 s.part (toLe 1 2 ++ toLe 1 st ++ toLe 1 slot ++ zeros 1 ++ toLe 4 s.cookie)
      { ty := 0x4A, dst := 0, msgId := 0, traceId := 0, status := st, arg := argAt s.cookie 0 ||| argAt slot 32 }) b

/-- The lines of what stage of a Sheaf's end writes: the status array, then the completion record. -/
def Sheaf.endLines (s : Sheaf) : List Nat :=
  if s.stage ≤ 1 then (if s.statusArr = 0 then [] else linesOf s.statusArr s.tasks.length) else [lineOf s.record]

/-- A Sheaf whose tasks have all ended carried on: the status array, the completion record, the done notices, and the slot freed
(R217). n bounds the stages. -/
def Blk.endStep (b : Blk) (slot : Nat) : Nat → Blk
  | 0 => b
  | n + 1 => match mget b.work.sheafs slot with
    | none => b
    | some s =>
      let q := slot / 64
      let st := s.closed.getD 0
      let put := fun (b : Blk) (bad : Bool) (k : Nat) => (if bad then b.recordLost slot s else b).modSheaf slot (fun s => { s with stage := k })
      match s.stage with
      | 0 =>
        let x := if s.statusArr = 0 then (false, b) else b.thrWrite q s.part s.statusArr s.statusBytes
        (put x.2 x.1 1).endStep slot n
      | 1 =>
        if b.thrWriting q s.endLines then b
        else
          let y := b.thrBad q s.endLines
          let x := (if y.1 then y.2.recordLost slot s else y.2).thrWrite q s.part s.record (s.recordBytes slot)
          (put x.2 x.1 2).endStep slot n
      | _ =>
        if b.thrWriting q s.endLines then b
        else
          let y := b.thrBad q s.endLines
          let b1 := (if y.1 then y.2.recordLost slot s else y.2).doneNotices slot s st
          let b2 := b1.trace { source := 2, event := 3, part := s.part, unit := 24 + q, a := slot + s.cookie * 256,
                               detail := (s.recordBytes slot).take 32 }
          { b2 with work.sheafs := mdel b2.work.sheafs slot }

/-- A Sheaf whose every task has ended ends (R217). -/
def Blk.checkEnd (b : Blk) (slot : Nat) : Blk :=
  match mget b.work.sheafs slot with
  | none => b
  | some s =>
    if s.closed.isSome then b.endStep slot 4
    else if !s.tasks.all (fun t => t.state == .ended) || (b.thr (slot / 64)).ends.any (fun e => e.slot == slot) then b
    else
      let q := slot / 64
      let st := s.final
      let b1 := b.modSheaf slot (fun s => { s with closed := some st })
      let b2 := if st = 0x59 then b1.flag (Reg.thrErr q) 1 else if st = 0x5B then b1.flag (Reg.thrErr q) 2 else b1
      let b3 := if st = 0 then b2 else b2.aonAdd 222 1
      (b3.dropPre (fun p => p.slot == slot)).endStep slot 4

/-! ## Task ends and policies (R207, R213, R214) -/

/-- A task ended with a status at a time: counted, traced with the record that its kind produces, and its counts added to the Sheaf's sums
(R156, R213, R218, R220). -/
def Blk.endTask (b : Blk) (slot i st addr at_ : Nat) (t : Tally) : Blk :=
  match mget b.work.sheafs slot, b.task slot i with
  | some s, some tk =>
    let q := slot / 64
    let fail := isFailure st
    let f := fun (s : Sheaf) => { s with
      failed := s.failed || fail
      endAt := max s.endAt at_
      sums := { sat := s.sums.sat + t.sat, nanScale := s.sums.nanScale + t.nanScale, esc := s.sums.esc + t.esc,
                unres := s.sums.unres + t.unres, drop := s.sums.drop + t.drop, checked := s.sums.checked + t.checked,
                firstEsc := if t.firstEsc.isSome then some (min (s.sums.firstEsc.getD i) i) else s.sums.firstEsc } }
    let b1 := (b.modTask slot i (fun x => { x with state := .ended, status := st, failAddr := addr })).modSheaf slot f
    let b2 := if fail then (b1.incr (Reg.thrFailCnt q)).flag (Reg.thrErr q) 5 else b1
    b2.trace { source := 1, event := 1, part := s.part, unit := 24 + q, tag := tk.tag, a := slot + i * 256 + st * 16777216,
               detail := if (readDesc tk.desc).safeKind then t.bytes else [] }
  | _, _ => b

/-- A Sheaf ended early (R202, R214 to R216): nothing more of it is dispatched, its running tasks are cancelled, and every other
task that has not ended ends TASK_CANCELLED. The first cause stands. -/
def Blk.abortSheaf (b : Blk) (slot why : Nat) : Blk :=
  match mget b.work.sheafs slot with
  | none => b
  | some s =>
    if s.abort.isSome || s.closed.isSome then b
    else
      let b1 := b.modSheaf slot (fun s => { s with abort := some why })
      let b2 := (List.range 24).foldl (fun b k => match (b.til k).run with
        | some r => if r.slot = slot then b.cancelRun k 0x48 else b
        | none => b) b1
      let queued := fun (i : Nat) => ((b.thr (slot / 64)).ends.any (fun e => e.slot == slot && e.task == i))
      let b3 := (List.range s.tasks.length).foldl (fun b i => match s.tasks[i]? with
        | some t => match t.state with
          | .ended => b
          | .running (some _) => b
          | .running none => if queued i then b else b.endTask slot i 0x48 0 b.tb {}
          | _ => b.endTask slot i 0x48 0 b.tb {}
        | none => b) b2
      b3.dropPre (fun p => p.slot == slot)

/-- The tasks of a successor list that have not ended end TASK_PRUNED (R214); each joins the ends to process, where its own list is read
again before pruning goes on along it (R202). -/
def Blk.prune (b : Blk) (slot : Nat) (succ : List Nat) : Blk :=
  succ.foldl (fun b i => match b.task slot i with
    | some t =>
      if t.state == .ended then b
      else (b.endTask slot i 0x49 0 b.tb {}).modThr (slot / 64) (fun h =>
        { h with ends := h.ends ++ [{ slot := slot, task := i, status := 0x49, failAddr := 0, tally := {}, at_ := b.tb }] })
    | none => b) b

/-- The successors of a task that has ended decremented in list order; those that reach 0 become ready (R207). -/
def Blk.decrement (b : Blk) (slot : Nat) (succ : List Nat) : Blk :=
  succ.foldl (fun b i =>
    let b1 := b.modTask slot i (fun t => { t with deps := t.deps - 1 })
    match b1.task slot i with
    | some t => if t.deps = 0 && t.state == .waiting then b1.makeReady slot i else b1
    | none => b1) b

/-- A task end processed (R207, R214); a pruned task has ended already. -/
def Blk.takeEnd (b : Blk) (e : EndRec) : Blk :=
  match mget b.work.sheafs e.slot, b.task e.slot e.task with
  | some s, some t =>
    let b1 := if e.status = 0x49 then b else b.endTask e.slot e.task e.status e.failAddr e.at_ e.tally
    let b2 :=
      if s.abort.isSome then b1
      else if e.status = 0 then b1.decrement e.slot t.succ
      else if e.status = 0x49 then b1.prune e.slot t.succ
      else if !isFailure e.status then b1
      else match s.policy with
        | 0 => b1.abortSheaf e.slot 0x5D
        | 1 => b1.prune e.slot t.succ
        | _ => b1.decrement e.slot t.succ
    b2.checkEnd e.slot
  | _, _ => b

/-- Must the successor list of an ended task be read again before its end is processed (R202): it has one, and the Sheaf is not being ended
early already. -/
def Blk.needsReread (b : Blk) (e : EndRec) : Bool :=
  match mget b.work.sheafs e.slot, b.task e.slot e.task with
  | some s, some t => !t.succ.isEmpty && s.abort.isNone
  | _, _ => false

/-- TASK_END_REPORT: a Thresher goes on with the Sheafs that are ending, and processes the next task end, once the successor list that
it acts on has been read again (R202, R207, R214, R217). -/
def taskEndReport (b : Blk) (q : Nat) : Blk :=
  if b.dead then b
  else
    let b1 := (b.owned q).foldl (fun b s => b.checkEnd s.1) b
    match (b1.thr q).ends with
    | [] => b1
    | e :: rest =>
      if b1.needsReread e && !e.reread then b1
      else (b1.modThr q (fun t => { t with ends := rest })).takeEnd e

/-! ## Dispatch (R208, R209, R397) -/

/-- Is a ready task before another for a Tiller of a quadrant (R209). -/
def taskBefore (q : Nat) (x y : Nat × Nat × TaskRt) : Bool :=
  let key := fun (e : Nat × Nat × TaskRt) => [7 - e.2.2.prio, b2n (e.2.2.home != q), e.2.2.stamp, e.1, e.2.1]
  decide (key x < key y)

/-- The first ready task of a partition for an idle Tiller (R209): the task that goes to it, else the first in the order of the rule of
those that go to no other. -/
def Blk.firstReady (b : Blk) (k part : Nat) : Option (Nat × Nat × TaskRt) :=
  let es := b.readyOf part
  match es.find? (fun e => e.1 == some k) with
  | some e => some e.2
  | none => ((es.filter (·.1.isNone)).map (·.2)).foldl (fun (best : Option (Nat × Nat × TaskRt)) e => match best with
      | none => some e
      | some y => if taskBefore (k / 6) e y then some e else some y) none

/-- What a prefetch has read so far, with the lines that have landed for it. -/
def Blk.preLines (b : Blk) (p : Prefetch) : Map StoreLine :=
  (b.coh.landed.filter (fun x => x.who == .pre p.slot p.task && !x.write)).foldl (fun m x => mput m x.line ⟨x.status, x.bytes, x.poison⟩) p.lines

/-- Has a read of a prefetch been refused or returned poison: what it has read is discarded (R212). -/
def badLines (m : Map StoreLine) : Bool := m.any (fun e => e.2.status != 0 || e.2.poison)

/-- The prefetched lines that a task may use: of an extent whose MOD_COUNT has not changed, where no read was refused or poisoned (R212). -/
def Blk.usable (b : Blk) (p : Prefetch) : Map StoreLine :=
  if badLines (b.preLines p) then []
  else (b.preLines p).filter (fun e => match b.str.run.extAt (granOf e.1) with
    | some x => mget p.mods x.1 == some (b.extRt x.1).modCount.toNat
    | none => false)

/-- TASK_DISPATCH: an idle Tiller takes the first ready task of its partition; prefetched data for it is used as far as it still holds,
and every other prefetch into that Tiller or for that task is discarded (R39, R209, R212). -/
def taskDispatch (b : Blk) (k : Nat) : Blk :=
  if b.halted then b
  else match b.idleFor k with
  | none => b
  | some part => match b.firstReady k part with
    | none => b
    | some (slot, i, t) =>
      let q := t.home
      let p := (b.til k).pre.find? (fun p => p.slot == slot && p.task == i)
      let lines := (p.map b.usable).getD []
      let m := (lines.head?).map (fun e => b.modCountAt e.1)
      let dig := t.kind == 0xD && m.isSome
      let r : Run := { slot := slot, task := i, part := part, kind := t.kind, tag := t.tag, store := lines,
                       modFirst := if dig then m else none, modLast := if dig then m.getD 0 else 0 }
      let mine := fun (y : Prefetch) => y.slot == slot && y.task == i && !badLines (b.preLines y)
      let b0 := b.modTil k (fun x => { x with pre := x.pre.filter (fun y => !mine y) })
      let b1 := (b0.dropLanded (.pre slot i)).dropPre (fun y => y.slot == slot && y.task == i)
      let other := (b1.til k).pre
      let b2 := b1.dropPre (fun y => other.contains y)
      let b3 := (b2.modTil k (fun x => { x with run := some r })).modTask slot i (fun x => { x with state := .running (some k) })
      let b4 := ((b3.incr (Reg.thrDispatchCnt q)).aonAdd (196 + q) 1).event (24 + q) 1 (some part)
      b4.trace { source := 0, event := 1, part := part, unit := 24 + slot / 64, tag := t.tag, a := slot + i * 256 + k * 16777216 }

/-! ## Re-reads (R202) -/

/-- The host fetch or the pool lines of a part of a resident Sheaf's image read again. -/
def Blk.rereadPart (b : Blk) (slot task : Nat) (s : Sheaf) (have_ : Map StoreLine) (off n : Nat) (host : HostResult) :
    Got × Map StoreLine × Blk :=
  let q := slot / 64
  match s.src with
  | .host f pasid =>
    let x := b.hostPartOf (.reread slot task) q s.part ((b.task slot task).elim 0 (·.tag)) f pasid (s.addr + off) n host
    (x.1, [], x.2)
  | .pool =>
    let x := b.readLines (thrReq q s.part) have_ (linesOf (s.addr + off) n)
    let y := x.1.judgeLines q s.part ((b.task slot task).elim 0 (·.tag)) x.2 (s.addr + off) n
    (y.1, x.2, y.2)

/-- DESCRIPTOR_REREAD: the descriptor of a dispatched task, or the successor list of an ended one, is read again and compared with the
stored check value; a mismatch or a failed read aborts the Sheaf (R202, R344). In the stop of a snapshot no task takes its descriptor (R436). -/
def descriptorReread (b : Blk) (slot task : Nat) (what : Reread) (host : HostResult) : Blk :=
  match mget b.work.sheafs slot, b.task slot task with
  | some s, some t =>
    let q := slot / 64
    let lost := b.strayRead (.reread slot task) host
    if b.dead then b
    else if s.abort.isSome || s.closed.isSome then lost
    else match what with
    | .descriptor =>
      let onTil : Option Nat := match t.state with
        | .running (some k) => match (b.til k).run with
          | some r => if r.slot = slot && r.task = task && r.desc.isNone && r.ended.isNone then some k else none
          | none => none
        | _ => none
      let onThr := !t.onTiller && t.state == .ready && !t.reread
      if b.halted then b
      else if onTil.isNone && !onThr then lost
      else
        let x := b.rereadPart slot task s [] (s.descOff + 128 * task) 128 host
        match x.1 with
        | .wait => x.2.2
        | .bad st => (x.2.2.abortSheaf slot st).checkEnd slot
        | .bytes d =>
          if checkValue d t.succ != t.check then (x.2.2.abortSheaf slot 0x59).checkEnd slot
          else match onTil with
            | none => x.2.2.modTask slot task (fun t => { t with reread := true })
            | some k => ((x.2.2.modTil k (fun t => { t with run := t.run.map (fun r => { r with desc := some d }) })).tick k 3 6 s.part)
    | .successors =>
      match (b.thr q).ends.find? (fun e => e.slot == slot && e.task == task && !e.reread) with
      | none => b
      | some e =>
        if !b.needsReread e then b
        else
          let d := readDesc t.desc
          let x := b.rereadPart slot task s e.lines (s.edgeOff + 2 * d.succFirst) (2 * t.succ.length) host
          let put := fun (b : Blk) (f : EndRec → EndRec) => b.modThr q (fun h => { h with ends := h.ends.map (fun y =>
            if y.slot == slot && y.task == task then f y else y) })
          match x.1 with
          | .wait => put x.2.2 (fun y => { y with lines := x.2.1 })
          | .bad st => (x.2.2.abortSheaf slot st).checkEnd slot
          | .bytes l =>
            if crc32 (t.desc ++ l) != t.check then (x.2.2.abortSheaf slot 0x59).checkEnd slot
            else put x.2.2 (fun y => { y with reread := true, lines := [] })
  | _, _ => b.strayRead (.reread slot task) host

/-! ## JOIN and NOTIFY (R197, R198, R207) -/

/-- The first task of a Thresher that it runs itself, in the order of readiness: ready, or begun and not yet at its end (R207). -/
def Blk.thrNext (b : Blk) (q : Nat) : Option (Nat × Nat × TaskRt) :=
  let es := (b.thr q).ends
  (b.tasksWhere (fun slot s i t => slot / 64 == q && !t.onTiller && s.abort.isNone && (t.state == .ready || t.state == .running none) &&
    !es.any (fun e => e.slot == slot && e.task == i))).foldl
    (fun (best : Option (Nat × Nat × TaskRt)) e => match best with
      | none => some e
      | some y => if e.2.2.order < y.2.2.order then some e else some y) none

/-- May a Thresher run JOIN or NOTIFY tasks (R397, R436). -/
def Blk.thrRuns (b : Blk) : Bool := !b.halted && b.pwr.state < 2

/-- A task that the Thresher ran has ended: its end joins those to process. -/
def Blk.thrEnd (b : Blk) (slot i st addr : Nat) : Blk :=
  (b.modTask slot i (fun t => { t with state := .running none })).modThr (slot / 64) (fun t =>
    { t with ends := t.ends ++ [{ slot := slot, task := i, status := st, failAddr := addr, tally := {}, at_ := b.tb }] })

/-- A task that the Thresher runs itself dispatched: counted and traced (R421, R423, R432). It goes to no Tiller, so that byte of A is 0
(DESIGN CHOICE, log entry 94). -/
def Blk.thrStart (b : Blk) (slot i part : Nat) (t : TaskRt) : Blk :=
  let q := slot / 64
  ((b.aonAdd (196 + q) 1).event (24 + q) 1 (some part)).trace
    { source := 0, event := 1, part := part, unit := 24 + q, tag := t.tag, a := slot + i * 256 }

/-- JOIN: it ends as soon as it is dispatched (R197). -/
def joinTask (b : Blk) (slot task : Nat) : Blk :=
  match b.thrNext (slot / 64), mget b.work.sheafs slot with
  | some (sl, i, t), some s =>
    if b.thrRuns && sl = slot && i = task && t.kind = 0xE && t.reread then (b.thrStart slot task s.part t).thrEnd slot task 0 0 else b
  | _, _ => b

/-- The notices of a NOTIFY, in ascending subscriber (R198, R241, R317). -/
def Blk.notices (b : Blk) (slot task : Nat) (s : Sheaf) (d : Desc) : Blk :=
  ((s.subs.zip (List.range s.subs.length)).filter (fun x => bit (u8 d.raw 0x20) x.2)).foldl (fun b x =>
    b.notify (slot / 64) x.1 s.part
      (toLe 1 1 ++ zeros 1 ++ toLe 1 slot ++ zeros 1 ++ toLe 4 s.cookie ++ toLe 2 task ++ zeros 2 ++ toLe 4 d.tag ++ toLe 8 d.opd)
      { ty := 0x49, dst := 0, msgId := 0, traceId := 0, arg := argAt s.cookie 0 ||| argAt task 32 ||| argAt slot 48,
        payload := toLe 4 d.tag ++ zeros 4 ++ toLe 8 d.opd }) b

/-- A near atomic of a Thresher for a partition: 8 bytes, RECORD 0 (R91, R122, R198). Status 0 tells that it was accepted. -/
def Blk.atomicInt (b : Blk) (r : Requester) (a : AtmOp) : Nat × Blk :=
  let l := lineOf a.addr
  let c := b.check r.act .atomic l
  if c.status ≠ 0 then (c.status, b.countRefusal (homeOf l) c.status c.part)
  else
    let st := b.atmCheck (homeOf l) 0x10000 a c
    if st ≠ 0 then (st, b.countRefusal (homeOf l) st c.part)
    else
      let p := (b.countAccept (homeOf l) c.part).predict l c.part 0x10000
      (0, (p.2.bumpMod l 1).beginTxn (newTxn l (.near a) r.who 0 0 c none))

/-- NOTIFY: its atomic, then its notices, then its end (R198); a refused atomic ends it, and no notice is sent. -/
def notifyTask (b : Blk) (slot task : Nat) : Blk :=
  match b.thrNext (slot / 64), mget b.work.sheafs slot with
  | some (sl, i, t), some s =>
    let d := readDesc t.desc
    let op := u8 d.raw 0x21
    if !(b.thrRuns && sl = slot && i = task && t.kind = 0xF && t.reread) then b
    else
      let go := fun (b : Blk) => (b.notices slot task s d).thrEnd slot task 0 0
      let l := lineOf d.opb
      let r := notifyReq slot task s.part t
      let b0 := if t.state == .running none then b else b.thrStart slot task s.part t
      if op = 0 then go b0
      else
        let take := fun (b : Blk) =>
          let y := b.takeLanded r.who l
          match y.1 with
          | some e => if e.status = 0 then go y.2 else y.2.thrEnd slot task e.status (l * 128)
          | none => b
        if t.state == .running none then take b0
        else
          let a : AtmOp := { addr := d.opb, op := if op = 1 then 0 else 6, size := 1, operand := d.opc, compare := 0, record := false, atag := 0 }
          let x := (b0.modTask slot task (fun t => { t with state := .running none })).atomicInt r a
          if x.1 ≠ 0 then x.2.thrEnd slot task x.1 (l * 128) else take x.2
  | _, _ => b

/-! ## Cancel and the watchdog (R215, R216) -/

/-- The final status of a Sheaf whose last task has ended, its ends processed or not; none while a task has not ended (R215, R219). -/
def Blk.lastEnded (b : Blk) (slot : Nat) (s : Sheaf) : Option Nat :=
  let ends := (b.thr (slot / 64)).ends.filter (fun e => e.slot == slot)
  let allOver := (s.tasks.zip (List.range s.tasks.length)).all (fun t => t.1.state == .ended || ends.any (fun e => e.task == t.2))
  let fails := ends.any (fun e => isFailure e.status)
  match s.closed with
  | some st => some st
  | none =>
    if !allOver then none
    else some (s.abort.getD (if fails && s.policy = 0 then 0x5D else if s.failed || fails then 0x5C else 0))

/-- A Cancel decided (R215): its answer; once the last task has ended it has no effect. part: the partition whose Sheafs the sender may
cancel; none for PF0. -/
def Blk.cancel (b : Blk) (slot cookie : Nat) (part : Option Nat) : Nat × Blk :=
  match mget b.work.sheafs slot with
  | none => (0x5E, b)
  | some s =>
    if s.cookie != cookie || (part.isSome && part != some s.part) then (0x5E, b)
    else match b.lastEnded slot s with
      | some st => (st, b)
      | none => (0, (b.abortSheaf slot 0x5A).checkEnd slot)

/-- Cancel from a fabric host (R215, R243). -/
def cancelMsg (b : Blk) (r : Req) (slot cookie : Nat) : Blk :=
  let q := slot / 64
  let src := r.src.toNat
  b.ctrlIn q r 0xD5 0 false true none (fun b =>
    let w := Asker.fabric r.src r.msgId r.traceId 0xD5
    let st := b.leaseStatus src
    if st ≠ 0 then b.answerAsker q w st []
    else
      let x := b.cancel slot cookie (some (b.hostPart src))
      x.2.answerAsker q w x.1 [])

/-- Has the watchdog of a Sheaf expired (R216). -/
def Blk.wdogDue (b : Blk) (slot : Nat) : Bool :=
  match mget b.work.sheafs slot with
  | none => false
  | some s =>
    let ms := if s.wdogMs = 0 then b.field (Reg.thrWdogDefault (slot / 64)) 0 22 else s.wdogMs
    ms != 0 && (b.lastEnded slot s).isNone && s.abort.isNone && decide (s.admitAt + ms * 1000000 < b.tb)

/-! ## Prefetch (R211, R212) -/

/-- How many prefetches of a Thresher are in progress or held. -/
def Blk.preCount (b : Blk) (q : Nat) : Nat := ((b.work.tillers.map (fun t => (t.2.pre.filter (fun p => p.slot / 64 == q)).length))).sum

/-- The lowest Tiller that runs a predecessor of a task, where every predecessor that has not ended is running (R211). -/
def Blk.preTiller (b : Blk) (slot : Nat) (s : Sheaf) (i : Nat) : Option Nat :=
  let ps := ((s.tasks.zip (List.range s.tasks.length)).filter (fun t => t.1.succ.contains i && t.1.state != .ended))
  let runs := fun (t : TaskRt) => match t.state with | .running _ => true | _ => false
  if !ps.all (fun t => runs t.1) then none
  else (List.range 24).find? (fun k => match (b.til k).run with
    | some r => r.slot == slot && ps.any (fun t => t.2 == r.task)
    | none => false)

/-- The spans of a task's read set that do not depend on data (R211): not the rows that an index list picks, nor pages. -/
def Desc.preSpans (d : Desc) : List (Nat × Nat) := if d.kind = 3 then d.spans.1.drop 1 else d.spans.1

/-- A prefetch for task i of a Sheaf begun in the local store of Tiller k: its lines, with the MOD_COUNT of every extent they lie in, are read
(R211, R212); answered with the lines that are there. -/
def Blk.preRead (b : Blk) (q slot i k : Nat) (s : Sheaf) (t : TaskRt) : Blk × Map StoreLine :=
  let lim := b.field (Reg.thrPrefetchCfg q) 6 9 * 1024
  let ls := (((readDesc t.desc).preSpans.map (fun x => linesOf x.1 (min x.2 lim))).flatten).dedup
  let exts := (ls.filterMap (fun l => (b.str.run.extAt (granOf l)).map (·.1))).dedup
  let mods := exts.foldl (fun m e => mput m e (b.extRt e).modCount.toNat) ([] : Map Nat)
  let b1 := b.modTil k (fun x => { x with pre := x.pre ++ [⟨slot, i, [], mods⟩] })
  let x := b1.readLines ⟨.pre slot i, .part s.part⟩ [] ls
  ((x.1.modTil k (fun y => { y with pre := y.pre.map (fun p =>
    if p.slot == slot && p.task == i then { p with lines := x.2 } else p) })).incr (Reg.thrPrefetchCnt q), x.2)

/-- PREFETCH: a Thresher prefetches for its first candidate into the local store of the lowest Tiller that runs a predecessor; one of whose
reads is refused or poisoned is discarded (R211, R212). -/
def prefetch (b : Blk) (q : Nat) : Blk :=
  if b.halted || b.field (Reg.thrPrefetchCfg q) 0 6 ≤ b.preCount q then b
  else
    let done := fun (slot i : Nat) => b.work.tillers.any (fun t => t.2.pre.any (fun p => p.slot == slot && p.task == i))
    let cs := b.tasksWhere (fun slot s i t => slot / 64 == q && s.abort.isNone && t.state == .waiting && !t.noPre && t.onTiller &&
      !done slot i && (b.preTiller slot s i).isSome)
    match cs.foldl (fun (best : Option (Nat × Nat × TaskRt)) e => match best with
      | none => some e
      | some y => if taskBefore q e y then some e else some y) none with
    | none => b
    | some (slot, i, t) => match mget b.work.sheafs slot with
      | none => b
      | some s => match b.preTiller slot s i with
        | none => b
        | some k =>
          let x := b.preRead q slot i k s t
          if badLines x.2 then x.1.dropPre (fun p => p.slot == slot && p.task == i) else x.1

/-! ## Transfers of the sequencers that failed (R200, R202, R331) -/

/-- An image fetch or a re-read that could not be translated: its Submit is rejected, or its Sheaf aborts. -/
def Blk.thrXferFail (b : Blk) (x : Xfer) (st : Nat) : Blk :=
  match x with
  | .image q f seq => match (b.thr q).wait with
    | r :: _ => if r.seq == seq && (match r.src with | .host g _ => g == f | .pool => false) then (b.endAdmission q).reject q r st 0 0 else b
    | [] => b
  | .reread slot _ => (b.abortSheaf slot st).checkEnd slot
  | _ => b

end Sys2Proof.Machine
end

