-- ==== Sys2Proof/Machine/Mover.lean ====
section
/-! DEFINITION. Host movers, and what the answers of translations and page requests do to the transfers that wait for them (R322 to
R324, R327 to R331). -/

namespace Sys2Proof.Machine

/-! ## Moves and descriptors (R322, R323) -/

/-- A MOVE in progress. -/
def Blk.moveOf (b : Blk) (f seq : Nat) : Option MoveRt := b.hub.moves.find? (fun m => m.f == f && m.seq == seq)

/-- A MOVE in progress changed. -/
def Blk.modMove (b : Blk) (f seq : Nat) (g : MoveRt → MoveRt) : Blk :=
  { b with hub.moves := b.hub.moves.map (fun m => if m.f == f && m.seq == seq then g m else m) }

/-- A descriptor of a MOVE changed. -/
def Blk.modDesc (b : Blk) (f seq i : Nat) (g : DescRt → DescRt) : Blk :=
  b.modMove f seq (fun m => { m with descs := mmod m.descs i g })

/-- Does a descriptor run. -/
def DescRt.running (d : DescRt) : Bool := d.started && !d.ended

/-- The transfers that a mover has in flight: its running descriptors, and a fetch of a next descriptor that waits (R322, R330). -/
def Blk.inFlight (b : Blk) (m : Nat) : Nat :=
  ((b.hub.moves.filter (fun x => x.mover == m)).map (fun x => (x.descs.filter (fun d => d.2.running)).length)).sum +
  (b.hub.waits.filter (fun w => w.engine == m && (match w.x with | .list _ _ => true | _ => false))).length

/-- DIR: 1 pool to host. -/
def DescRt.toHost (d : DescRt) : Bool := bit (u8 d.bytes 0) 0
/-- FENCE. -/
def DescRt.fence (d : DescRt) : Bool := bit (u8 d.bytes 0) 1
/-- LEN. -/
def DescRt.len (d : DescRt) : Nat := le d.bytes 4 4
/-- HOST. -/
def DescRt.host (d : DescRt) : Nat := le d.bytes 8 8
/-- POOL. -/
def DescRt.pool (d : DescRt) : Nat := le d.bytes 0x10 8

/-- Is a descriptor well-formed (R323). -/
def DescRt.ok (d : DescRt) : Bool :=
  u8 d.bytes 0 < 4 && allZero (sl d.bytes 1 3) && 1 ≤ d.len && d.len ≤ 2 ^ 31 && d.pool < 2 ^ 48 && allZero (sl d.bytes 0x18 40)

/-- A descriptor as a requester of pool lines: for the partition of its command (R91, R322). -/
def MoveRt.req (m : MoveRt) (i : Nat) : Requester := ⟨.mover (m.mover + 8 * (m.f + 64 * (i + 65536 * m.seq))), .part m.part⟩

/-! ## The end of descriptors and of a MOVE (R324) -/

/-- The result of a MOVE (R324). -/
def MoveRt.result (m : MoveRt) : Bytes :=
  let good := (m.descs.filter (fun d => d.2.ended && d.2.status == 0)).length
  let bad := m.descs.find? (fun d => d.2.status != 0)
  let poi := m.descs.find? (fun d => d.2.poison.isSome)
  toLe 4 good ++ toLe 4 ((bad.map (·.1)).getD 0xFFFFFFFF) ++ toLe 8 ((bad.map (·.2.off)).getD 0) ++
    toLe 1 ((bad.map (·.2.status)).getD 0) ++ zeros 3 ++ toLe 4 ((poi.map (·.1)).getD 0xFFFFFFFF) ++
    toLe 8 ((poi.bind (·.2.poison)).getD 0)

/-- The status of a MOVE: that of its lowest failed descriptor, MOVE_POISONED where poison was moved, else CMD_OK (R320, R324). -/
def MoveRt.status (m : MoveRt) : Nat :=
  match m.descs.find? (fun d => d.2.status != 0) with
  | some d => d.2.status
  | none => if m.descs.any (fun d => d.2.poison.isSome) then 0x82 else 0

/-- Has a MOVE ended: it starts nothing more, and every descriptor that it started has ended. -/
def MoveRt.done (m : MoveRt) : Bool :=
  m.descs.all (fun d => d.2.ended || (m.failed && !d.2.started)) && (m.failed || m.fetched == m.count)

/-- A MOVE that has ended answered. -/
def Blk.moveEnd (b : Blk) (f seq : Nat) : Blk :=
  match b.moveOf f seq with
  | none => b
  | some m =>
    if !m.done then b
    else
      let b1 : Blk := { b with hub.moves := b.hub.moves.filter (fun x => !(x.f == f && x.seq == seq)) }
      ((b1.dropWait (.list f seq)).dropFaults (.list f seq)).answerCmd ⟨Fin.ofNat 64 f, BitVec.ofNat 64 seq⟩ m.status m.result

/-- A descriptor that fails stops where it stands, and its mover starts no further one of the command (R324). -/
def Blk.descFail (b : Blk) (f seq i status : Nat) : Blk :=
  b.modMove f seq (fun m => { m with failed := true, descs := mmod m.descs i (fun d => { d with status := status }) })

/-- A descriptor ended and counted. -/
def Blk.descEnd (b : Blk) (f seq i : Nat) : Blk :=
  ((b.modDesc f seq i (fun d => { d with started := true, ended := true })).incr Reg.hubDescCnt).moveEnd f seq

/-- The fetch of a MOVE's next descriptor failed: that descriptor fails at its first byte. -/
def Blk.fetchFail (b : Blk) (f seq status : Nat) : Blk :=
  match b.moveOf f seq with
  | none => b
  | some m =>
    ((b.modMove f seq (fun m => { m with
      fetched := m.fetched + 1
      descs := mput m.descs m.fetched { bytes := zeros 64 } })).descFail f seq m.fetched status).descEnd f seq m.fetched

/-! ## The rows -/

/-- The mover that a MOVE names: 0xF is the one with the fewest transfers in flight (R319). -/
def Blk.pickMover (b : Blk) (m : Nat) : Nat :=
  if m < 8 then m else (List.range 8).foldl (fun best k => if b.inFlight k < b.inFlight best then k else best) 0

/-- MOVE: a mover takes the command (R319, R322). -/
def moveCmd (b : Blk) (c : CmdId) : Blk :=
  b.hubCmd c 0x07 (fun r b =>
    if r.started then b
    else
      let m : MoveRt := { f := r.f, seq := r.seq, mover := b.pickMover (r.arg 0x18 1), list := r.arg 0x08 8, pasid := r.arg 0x10 4,
                          count := r.arg 0x14 4, part := r.part.getD 0 }
      { b.startCmd c with hub.moves := b.hub.moves ++ [m] })

/-- A completion that comes for a descriptor fetch of a mover whose command has failed or gone. -/
def Blk.strayList (b : Blk) (k : Nat) (host : HostResult) : Blk :=
  match b.hub.reads.find? (fun r => r.engine == k && (match r.x with | .list _ _ => true | _ => false)) with
  | some r => b.strayRead r.x host
  | none => b

/-- MOVER_DESCRIPTOR_FETCH: a mover fetches the next descriptor of its first command that has one left, unless the parked list is
full (R322, R330). -/
def moverFetch (b : Blk) (k : Nat) (host : HostResult) : Blk :=
  match b.hub.moves.find? (fun m => m.mover == k && !m.failed && m.fetched < m.count) with
  | none => b.strayList k host
  | some m =>
    if b.dead || 1024 ≤ b.parkedCount || 126 ≤ b.inFlight k then b
    else
      let x := b.hostFetch (.list m.f m.seq) k m.f m.pasid (m.list + 64 * m.fetched) 64 host
      match x.1 with
      | .error (.fail st) => x.2.fetchFail m.f m.seq st
      | .error _ => x.2
      | .ok _ =>
        let b1 := x.2
        if hostStatus host ≠ 0 then b1.fetchFail m.f m.seq (hostStatus host)
        else if hostEp host then b1.fetchFail m.f m.seq 0x81
        else b1.modMove m.f m.seq (fun m => { m with
          fetched := m.fetched + 1
          descs := mput m.descs m.fetched { bytes := hostBytes host 64 } })

/-- The first descriptor of a mover that has been fetched and not started, of a command that has not failed. -/
def Blk.nextDesc (b : Blk) (k : Nat) : Option (MoveRt × Nat × DescRt) :=
  b.hub.moves.findSome? (fun m =>
    if m.mover == k && !m.failed then (m.descs.find? (fun d => !d.2.started)).map (fun d => (m, d.1, d.2)) else none)

/-- MOVER_DESCRIPTOR_START: a mover starts its next descriptor, at most 126 at a time; a fence waits for every earlier descriptor of
the command, and a malformed one fails before a byte of it is moved (R322, R324). From the entry into HOLD on none starts (R399). -/
def moverStart (b : Blk) (k : Nat) : Blk :=
  match b.nextDesc k with
  | none => b
  | some (m, i, d) =>
    if b.dead || b.pwr.holding || 126 ≤ b.inFlight k || (d.fence && !(m.descs.all (fun e => i ≤ e.1 || e.2.ended))) then b
    else if !d.ok then (b.descFail m.f m.seq i 0x71).descEnd m.f m.seq i
    else b.modDesc m.f m.seq i (fun d => { d with started := true })

/-- Bytes written to translated host memory, piece by piece (R324, R327). -/
def Blk.hostWrites (b : Blk) (f pasid : Nat) (ep : Bool) : List (Nat × Nat × Bool) → Bytes → Blk
  | [], _ => b
  | (a, n, u) :: t, bs =>
    (b.putPiece f pasid ep (a, n, u) (bs.take n)).hostWrites f pasid ep t (bs.drop n)

/-- A line of a descriptor moved: the offset rises, and the first poisoned byte is noted (R324). -/
def Blk.descMoved (b : Blk) (m : MoveRt) (i n : Nat) (poison : Bool) : Blk :=
  (b.modDesc m.f m.seq i (fun d => { d with
    off := d.off + n
    poison := if poison && d.poison.isNone then some d.off else d.poison })).event 112 2 (some m.part)

/-- A pool write of a descriptor that was refused after its acceptance fails it at its line: nothing above is copied (R324). -/
def Blk.lateFail (b : Blk) (m : MoveRt) (i : Nat) (d : DescRt) : Blk :=
  match b.badWrite (m.req i).who with
  | some x => if d.status = 0 then
      (b.modDesc m.f m.seq i (fun d => { d with off := x.line * 128 - d.pool })).descFail m.f m.seq i x.status else b
  | none => b

/-- MOVER_LINE: a running descriptor moves the bytes of its next pool line, once its host pages are translated and its last pool write has
completed (R322, R324, R327). -/
def moverLine (b : Blk) (k : Nat) (c : CmdId) (i : Nat) (host : HostResult) : Blk :=
  match b.moveOf c.f.val c.seq.toNat with
  | none => b.strayRead (.desc c.f.val c.seq.toNat i) host
  | some m => match mget m.descs i with
    | none => b
    | some d =>
      let who := (m.req i).who
      if d.status != 0 then b.strayRead (.desc m.f m.seq i) host
      else if b.dead || b.closing || m.mover != k || !d.running || d.len ≤ d.off || (!d.toHost && b.pendingInt who) then b
      else if !d.toHost && (b.badWrite who).isSome then b.lateFail m i d
      else
        let a := d.pool + d.off
        let n := min (128 - a % 128) (d.len - d.off)
        let ha := d.host + d.off
        if d.toHost then
          let x := b.xlateAll (.desc m.f m.seq i) k m.f m.pasid true (pagesOf ha n)
          match x.1 with
          | .error (.fail st) => x.2.descFail m.f m.seq i st
          | .error _ => x.2
          | .ok ps =>
            let y := b.readInt (m.req i) (a / 128)
            match y.1 with
            | .wait => y.2
            | .refused st => y.2.descFail m.f m.seq i st
            | .ok bs p =>
              let z := y.2.xlateAll (.desc m.f m.seq i) k m.f m.pasid true (pagesOf ha n)
              (z.2.hostWrites m.f m.pasid p (hostPieces ha n ps) (sl bs (a % 128) n)).descMoved m i n p
        else
          let x := b.hostFetch (.desc m.f m.seq i) k m.f m.pasid ha n host
          match x.1 with
          | .error (.fail st) => x.2.descFail m.f m.seq i st
          | .error _ => x.2
          | .ok _ =>
            let b1 := x.2
            if hostStatus host ≠ 0 then b1.descFail m.f m.seq i (hostStatus host)
            else
              let w := b1.writeInt (m.req i) (a / 128) (zeros (a % 128) ++ fit (128 - a % 128) (hostBytes host n))
                (lineMask (a % 128) n) (hostEp host)
              if w.1 ≠ 0 then w.2.descFail m.f m.seq i w.1
              else if (w.2.badWrite who).isSome then w.2.lateFail m i d
              else w.2.descMoved m i n (hostEp host)

/-- MOVER_DESCRIPTOR_END: a descriptor that has moved its last byte, or has failed, ends once its pool writes have completed; one of
them that was refused late fails it (R324). -/
def moverEnd (b : Blk) (k : Nat) (c : CmdId) (i : Nat) : Blk :=
  match b.moveOf c.f.val c.seq.toNat with
  | none => b
  | some m => match mget m.descs i with
    | none => b
    | some d =>
      let w := (m.req i).who
      if b.dead || m.mover != k || !d.running || (d.status = 0 && d.off < d.len) || b.pendingInt w then b
      else
        (((b.lateFail m i d).dropLanded w).dropFaults (.desc m.f m.seq i)).descEnd m.f m.seq i

/-! ## Translations and page requests (R327, R331) -/

/-- A transfer that could not be translated fails. -/
def Blk.xferFail (b : Blk) (x : Xfer) (st : Nat) : Blk :=
  match x with
  | .desc f seq i => b.descFail f seq i st
  | .list f seq => b.fetchFail f seq st
  | y => b.thrXferFail y st

/-- Transfers that could not be translated, handed to their engines. -/
def Blk.xferFails (r : List (Xfer × Nat) × Blk) : Blk := r.1.foldl (fun b e => b.xferFail e.1 e.2) r.2

/-- PRI_TIMEOUT (R331). -/
def priTimeout (b : Blk) (f index : Nat) : Blk := Blk.xferFails (b.priExpire f index)

end Sys2Proof.Machine
end

