-- ==== Sys2Proof/Machine/Host.lean ====
section
/-! DEFINITION. The aperture, the command windows and the commands that the hub hands to the quadrants (R308, R310 to R321, R325, R333,
R372, R380, R383 to R385, R389, R399). -/

namespace Sys2Proof.Machine

/-! ## Functions and TLPs (R308, R309, R380) -/

/-- Does a function exist: PF0, or a VF that VF Enable has enabled (R307). -/
def Blk.funcOn (b : Blk) (f : Nat) : Bool := f = 0 || (b.win f).enabled

/-- What a posted write of the host to PF0 does, where the device answers and IDE lets it in. -/
def Blk.posted (b : Blk) (go : Blk → Blk) : Blk := b.taken 0 go

/-- Bits of the AER status of a function cleared by writing ones (R307). -/
def Blk.aerClear (b : Blk) (f v : Nat) : Blk := { b with hub.aer := tmod (fun _ => 0) b.hub.aer f (fun x => x - (x &&& v)) }

/-- BUS_MASTER_ENABLE: the host sets or clears a function's Bus Master Enable, and what stands beside it in its configuration space (R307,
R308). -/
def busMasterEnable (b : Blk) (f : Nat) (cfg : FuncCfg) : Blk :=
  b.configured f (fun b =>
    if !b.funcOn f then b
    else (b.modWin f (fun w => { w with busMaster := cfg.busMaster, memory := cfg.memory, d3hot := cfg.d3hot, mps := cfg.mps, mrrs := cfg.mrrs })
      ).aerClear f cfg.aerClear.toNat)

/-! ## Translations, page requests and invalidations as they come over PCIe (R326 to R333, R380) -/

/-- TRANSLATION_COMPLETION (R327). -/
def translationCompletion (b : Blk) (f pasid page : Nat) (res : TransResult) : Blk :=
  b.taken f (fun b => Blk.xferFails (b.transDone f pasid page res))

/-- PRG_RESPONSE (R331). -/
def prgResponse (b : Blk) (f index : Nat) (code : PrgCode) : Blk := b.taken f (fun b => Blk.xferFails (b.prgDone f index code))

/-- PRI_ENABLE: the host enables a function's PRI with an allocation, or disables it (R328, R331). -/
def priEnable (b : Blk) (f : Nat) (on : Bool) (allocation : Nat) : Blk :=
  b.configured f (fun b => Blk.xferFails (b.priSet f on allocation))

/-- INVALIDATE_REQUEST (R332). -/
def invalidateRequest (b : Blk) (f itag : Nat) (pasid : Option Nat) (lo bytes : Nat) : Blk :=
  b.taken f (fun b => b.invTake f itag pasid lo bytes)

/-! ## The aperture (R311, R312) -/

/-- The pool line that an offset of BAR4 reaches, and whether its window is enabled (R311). -/
def Blk.aptLine (b : Blk) (o : Nat) : Nat × Bool :=
  let r := (b.reg (Reg.hubAptBase (o / 2 ^ 32 % 16))).toNat
  ((r % 65536 * 2 ^ 32 + o % 2 ^ 32) / 128, bit r 31)

/-- The lines of an access of n bytes from an offset: the offset, and the bytes of the line from lo to below hi. -/
def aptParts (o n : Nat) : List (Nat × Nat × Nat) :=
  (List.range ((o + n + 127) / 128 - o / 128)).map (fun i =>
    let l := o / 128 + i
    (l * 128, if i = 0 then o % 128 else 0, min 128 (o + n - l * 128)))

/-- One line of an aperture read (R311). -/
def Blk.aptReadLine (b : Blk) (tag : Nat) (x : Nat × Bool) : Blk :=
  if !x.2 then b.aptLand tag x.1 0x12 [] false
  else
    let r := b.readInt ⟨.aperture tag, .pf0⟩ x.1
    match r.1 with
    | .refused st => r.2.aptLand tag x.1 st [] false
    | .ok bs p => r.2.aptLand tag x.1 0 bs p
    | .wait => r.2

/-- APERTURE_READ: a PF0 read of BAR4, line by line as RdOnce (R311). -/
def apertureRead (b : Blk) (off len tag : Nat) (tlp : TlpInfo) : Blk :=
  if b.dead || b.sec.recovery then b
  else if !b.ideIn tlp.inStream then b.ideDropUr 0 (.cplUr tag)
  else
    let ps := aptParts off len
    let b1 : Blk := { b with hub.apt := b.hub.apt ++ [⟨tag, ps.map (fun p => ((b.aptLine p.1).1, p.2)), []⟩] }
    ps.foldl (fun b p => b.aptReadLine tag (b.aptLine p.1)) b1

/-- One line of an aperture write (R311). -/
def Blk.aptWriteLine (b : Blk) (x : Nat × Bool) (bs : Bytes) (mask : BitVec 128) (ep : Bool) : Blk :=
  if !x.2 then b.aptRefuse true x.1 0x12
  else
    let w := b.writeInt ⟨.aperture 0, .pf0⟩ x.1 bs mask ep
    if w.1 ≠ 0 then w.2.aptRefuse true x.1 w.1 else if ep then w.2.flag Reg.hubAptErr 3 else w.2

/-- APERTURE_WRITE: a PF0 write of BAR4, line by line as WrLine (R311). -/
def apertureWrite (b : Blk) (off : Nat) (bytes : Bytes) (ep : Bool) (tlp : TlpInfo) : Blk :=
  if b.dead || b.sec.recovery then b
  else if !b.ideIn tlp.inStream then b.ideDrop
  else if b.closing then b
  else (aptParts off bytes.length).foldl (fun b p =>
    (if ep then b.aerSet 0 12 else b).aptWriteLine (b.aptLine p.1) (zeros p.2.1 ++ fit (128 - p.2.1) (sl bytes (p.1 + p.2.1 - off) (p.2.2 - p.2.1)))
      (lineMask p.2.1 (p.2.2 - p.2.1)) ep) b

/-! ## Submission and answer slots (R315 to R317) -/

/-- SEQ_WRITE: the host writes a record and then its SEQ word (R315). A SEQ out of place is ignored and counted. -/
def seqWrite (b : Blk) (f slot seq : Nat) (rec : Bytes) : Blk :=
  b.taken f (fun b =>
    let next := (b.win f).nextSeq
    if !b.funcOn f then b
    else if seq % 2048 ≠ slot || seq < next || next + 2047 < seq then (b.flag Reg.hubErr 0).incr Reg.hubBadseqCnt
    else b.modWin f (fun w => { w with subs := mput w.subs slot (seq, fit 120 rec) }))

/-- The SEQ word that frees a slot (R316). -/
def freeWord : Nat := 0xFFFFFFFFFFFFFFFF

/-- ANSWER_SLOT_FREE: the host writes the SEQ word of an answer slot; only the free value has an effect (R316). -/
def answerSlotFree (b : Blk) (f slot v : Nat) : Blk :=
  b.taken f (fun b => if b.funcOn f && v = freeWord then b.modWin f (fun w => { w with answers := mdel w.answers slot }) else b)

/-- EVENT_SLOT_FREE: the host writes the ESEQ word of an event slot (R317). -/
def eventSlotFree (b : Blk) (f slot v : Nat) : Blk :=
  b.taken f (fun b => if b.funcOn f && v = freeWord then b.modWin f (fun w => { w with events := mdel w.events slot }) else b)

/-! ## Records (R314, R318 to R321) -/

/-- The defined opcodes (R318, R347, R351, R386, R413, R435). -/
def opcodes : List Nat :=
  [0x00, 0x01, 0x02, 0x03, 0x04, 0x05, 0x06, 0x07, 0x10, 0x11, 0x12, 0x13, 0x14, 0x15,
   0x20, 0x21, 0x22, 0x23, 0x24, 0x25, 0x26, 0x27, 0x28, 0x29, 0x2A, 0x40, 0x41, 0x42, 0x43, 0x48, 0x49,
   0x50, 0x51, 0x52, 0x53, 0x54, 0x60, 0x61, 0x62]

/-- The opcodes that a VF may use (R318, R386, R435). -/
def vfOpcodes : List Nat := [0x00, 0x01, 0x02, 0x03, 0x04, 0x05, 0x06, 0x07, 0x20, 0x50, 0x51, 0x52]

/-- The class of an opcode in RIGHTS (R385): exactly the opcodes that require AUTH have one. -/
def opClass : Nat → Option Nat
  | 0x12 => some 0
  | 0x15 => some 1
  | 0x60 | 0x61 | 0x62 => some 2
  | 0x21 | 0x22 | 0x24 => some 3
  | 0x26 => some 4
  | 0x27 => some 5
  | 0x40 | 0x41 | 0x42 => some 6
  | 0x49 => some 7
  | 0x53 => some 8
  | _ => none

/-- The parameters that an opcode uses, as record offset and size (R319, R347, R351, R386, R413, R435). -/
def opParams : Nat → List (Nat × Nat)
  | 0x01 => [(8, 8), (0x10, 8), (0x18, 2), (0x1A, 2)]
  | 0x02 => [(8, 8), (0x10, 4), (0x14, 4), (0x18, 1), (0x19, 1)]
  | 0x03 => [(8, 1), (0x0C, 4)]
  | 0x04 => [(8, 4), (0x10, 8), (0x18, 8), (0x20, 8), (0x28, 32)]
  | 0x05 => [(8, 4), (0x10, 8)]
  | 0x06 | 0x15 => [(8, 4)]
  | 0x07 | 0x11 | 0x14 => [(8, 8), (0x10, 4), (0x14, 4), (0x18, 1)]
  | 0x10 | 0x21 | 0x28 => [(8, 8), (0x10, 4), (0x14, 4)]
  | 0x12 | 0x54 => [(8, 8)]
  | 0x23 | 0x24 | 0x48 => [(8, 8), (0x10, 4)]
  | 0x26 => [(8, 1), (0x10, 64)]
  | 0x29 => [(8, 8), (0x14, 4)]
  | 0x40 => [(8, 1), (0x0C, 4), (0x10, 4)]
  | 0x41 | 0x51 => [(8, 2)]
  | 0x49 => [(8, 1), (0x10, 8), (0x18, 4)]
  | 0x50 => [(8, 1), (9, 1), (0x0A, 1)]
  | 0x52 | 0x61 | 0x62 => [(8, 1)]
  | 0x53 => [(8, 8), (0x10, 4)]
  | 0x60 => [(8, 8), (0x10, 1), (0x11, 1), (0x12, 1), (0x18, 8)]
  | _ => []

/-- Is every byte of PARAMS that an opcode does not use 0 (R314). -/
def paramsRest (op : Nat) (r : Bytes) : Bool :=
  (List.range 80).all (fun i => r.getD (8 + i) 0 == 0 || (opParams op).any (fun p => p.1 ≤ 8 + i && 8 + i < p.1 + p.2))

/-- Are the parameters of an opcode within the ranges that R319, R199, R99, R404 and R413 give them. -/
def paramsOk (f op : Nat) (r : Bytes) : Bool :=
  let vecs := if f = 0 then 64 else 4
  let pasid := le r 0x10 4 < 2 ^ 20
  match op with
  | 0x01 => le r 8 8 % 128 == 0 && le r 0x10 8 % 64 == 0 && le r 0x18 2 < vecs && le r 0x1A 2 < vecs
  | 0x02 => le r 8 8 % 128 == 0 && pasid && u8 r 0x18 ≤ 1 && (u8 r 0x19 ≤ 3 || u8 r 0x19 == 0xF) &&
      (u8 r 0x18 == 1 || le r 8 8 < 2 ^ 48)
  | 0x04 => le r 8 4 ≤ 262143 && le r 0x10 8 != le r 0x18 8
  | 0x05 | 0x06 | 0x15 => le r 8 4 ≤ 262143
  | 0x07 => le r 8 8 % 64 == 0 && pasid && 1 ≤ le r 0x14 4 && le r 0x14 4 ≤ 65536 && (u8 r 0x18 ≤ 7 || u8 r 0x18 == 0xF)
  | 0x10 | 0x21 | 0x23 | 0x24 | 0x28 | 0x48 => pasid
  | 0x11 | 0x14 => pasid && u8 r 0x18 ≤ 1
  | 0x40 => u8 r 8 ≤ 4 && le r 0x0C 4 < 2 ^ 24 && ((u8 r 8 == 1) == (le r 0x0C 4 != 0)) && 1 ≤ le r 0x10 4 && le r 0x10 4 ≤ 60000
  | 0x41 => 680 ≤ le r 8 2 && le r 8 2 ≤ 820 && le r 8 2 % 5 == 0
  | 0x49 => u8 r 8 ≤ 1 && le r 0x18 4 < 2 ^ 20
  | 0x50 => u8 r 8 ≤ 112 && 1 ≤ u8 r 0x0A && u8 r 9 + u8 r 0x0A ≤ 8
  | 0x51 => le r 8 2 < 2048
  | 0x52 => u8 r 8 < 24
  | _ => true

/-- Are the fields of a record that every opcode shares well-formed (R314). -/
def recordOk (f op : Nat) (r : Bytes) : Bool :=
  u8 r 1 < 4 && u8 r 3 == 0 && allZero (sl r 0x70 8) && paramsRest op r && paramsOk f op r &&
  (bit (u8 r 1) 1 || (u8 r 2 == 0 && allZero (sl r 0x58 24)))

/-- The MAC of a record (R383). -/
def recordMac (key : Bytes) (serial : DWord) (bootId : Bytes) (f : Nat) (r : Bytes) : Bytes :=
  (hmac256 key (toLe 8 serial.toNat ++ bootId ++ toLe 1 f ++ sl r 0 0x60)).take 16

/-- The first check of R384 that a record fails, as the bit of SEC_AUTH_ERR; none where it passes. -/
def Blk.authBad (b : Blk) (f op : Nat) (r : Bytes) : Option Nat :=
  let i := u8 r 2
  match b.sec.guard.bind (fun g => g.issuers[i]?) with
  | none => some 0
  | some e =>
    if !e.valid then some 0
    else match aesUnwrap b.sec.kek e.wrapped with
      | none => some 0
      | some key =>
        let n := le r 0x58 8
        if recordMac key b.sec.otp.serial b.sec.bootId f r != sl r 0x60 16 then some 1
        else if n < max 1 e.floor.toNat || n ≤ tget (fun _ => 0) b.sec.last i then some 2
        else match opClass op with
          | some k => if e.rights.getLsbD k then none else some 3
          | none => none

/-- A record that fails authentication noted (R384, R421). -/
def Blk.authFailed (b : Blk) (k issuer : Nat) : Blk :=
  let b1 := ((b.flag Reg.secAuthErr k).incr Reg.secAuthFailCnt).aonAdd 218 1
  b1.setReg Reg.secAuthErr (putField (b1.reg Reg.secAuthErr) 8 3 issuer)

/-- A record with AUTH = 1 verified (R384): its counter is consumed, or it is answered AUTH_FAILED; a DEBUG_UNLOCK has then failed (R388). -/
def Blk.authenticate (b : Blk) (f op : Nat) (r : Bytes) : Nat × Blk :=
  if !bit (u8 r 1) 1 then (0, b)
  else match b.authBad f op r with
    | some k =>
      let b1 := b.authFailed k (u8 r 2)
      (0x75, if op = 0x26 then b1.flag Reg.secErr 4 else b1)
    | none => (0, { b with sec.last := tset (fun _ => 0) b.sec.last (u8 r 2) (le r 0x58 8) })

/-- Is an opcode served in HOLD (R399). -/
def holdServes (op : Nat) : Bool := op ≤ 1 || (0x20 ≤ op && op < 0x50)

/-- The status with which a record is turned away as it is taken, after its authentication; 0 where it becomes a command in progress
(R310, R318, R321, R372, R399). -/
def Blk.takeStatus (b : Blk) (f op : Nat) (part : Option Nat) (r : Bytes) : Nat :=
  if !opcodes.contains op then 0x70
  else if f ≠ 0 && !vfOpcodes.contains op then 0x72
  else if part.isNone && 1 < op then 0x73
  else if (opClass op).isSome && !bit (u8 r 1) 1 then 0x74
  else if op = 0x29 && !b.sec.recovery then 0xA7
  else if b.pwr.state = 3 && !holdServes op then 0xB2
  else if !recordOk f op r then 0x71
  else 0

/-- A record taken: the answers that come before everything else, its authentication, and its place among the commands in progress
(R45, R316, R321, R372, R389). -/
def Blk.takeRecord (b : Blk) (f seq : Nat) (r : Bytes) : Blk :=
  let op := u8 r 0
  let part := (b.view .hub).partOfFunc f
  let c : CmdRec := { f := f, seq := seq, bytes := r, part := part, at_ := b.tb }
  if b.mgmt.failed then b.answerRec c 0x77 []
  else if b.sec.recovery && op != 0x20 && op != 0x29 then b.answerRec c 0xA5 []
  else if b.sec.zeroised && op != 0x20 then b.answerRec c 0xA6 []
  else
    let x := b.authenticate f op r
    let st := if x.1 ≠ 0 then x.1 else x.2.takeStatus f op part r
    if st = 0 then { x.2 with hub.inProg := x.2.hub.inProg ++ [c] }
    else if st = 0xB2 then (x.2.answerRec c st []).flag Reg.pwrErr 2
    else x.2.answerRec c st []

/-- RECORD_TAKE: a window takes its next record, where its slot holds it, its answer slot is free and the limit of 64 allows (R315). A
record of the management controller waits, with every later one, while a management reset runs (R321). -/
def recordTake (b : Blk) (f : Nat) : Blk :=
  let w := b.win f
  match mget w.subs (w.nextSeq % 2048) with
  | none => b
  | some (seq, r) =>
    if b.dead || !b.funcOn f || seq != w.nextSeq || mhas w.answers (seq % 2048) || 64 ≤ (b.inProgOf f).length then b
    else if b.mgmt.resetting && isMgmt (u8 r 0) && opcodes.contains (u8 r 0) then b.modWin f (fun w => { w with mgmtWait := true })
    else
      (((b.modWin f (fun w => { w with nextSeq := w.nextSeq + 1 })).incr Reg.hubCmdCnt).event 112 1 ((b.view .hub).partOfFunc f)).takeRecord f seq r

/-! ## Commands of the hub (R319) -/

/-- NOP (R318). -/
def nopCmd (b : Blk) (c : CmdId) : Blk := b.hubCmd c 0x00 (fun _ b => b.answerCmd c 0 [])

/-- CW_CONFIG: what it sets applies after its answer (R319). -/
def cwConfigCmd (b : Blk) (c : CmdId) : Blk :=
  b.hubCmd c 0x01 (fun r b => (b.answerCmd c 0 []).modWin r.f (fun w => { w with
    ansMirror := r.arg 0x08 8, evtMirror := r.arg 0x10 8, ansVec := some (r.arg 0x18 2), evtVec := some (r.arg 0x1A 2) }))

/-- SUBMIT as a command (R199, R319): it goes to its Thresher, and is answered when admission ends. -/
def submitCmd (b : Blk) (c : CmdId) : Blk :=
  b.hubCmd c 0x02 (fun r b =>
    if r.started || b.closing then b
    else
      let src := if r.arg 0x18 1 = 1 then SheafSrc.host r.f (r.arg 0x10 4) else .pool
      (b.startCmd c).submit ⟨.cmd c, none, r.part.getD 0, src, r.arg 0x08 8, r.arg 0x14 4, b.tb⟩ (r.arg 0x19 1) 0)

/-- CANCEL as a command (R215, R319). -/
def cancelCmd (b : Blk) (c : CmdId) : Blk :=
  b.hubCmd c 0x03 (fun r b =>
    let x := b.cancel (r.arg 0x08 1) (r.arg 0x0C 4) (if r.f = 0 then none else r.part)
    x.2.answerCmd c x.1 [])

/-- Who publishes by a command (R457). -/
def CmdRec.pubWho (r : CmdRec) : PubWho := if r.f = 0 then .pf0 else .vf (r.part.getD 0)

/-- PUBLISH as a command (R99, R457). -/
def publishCmd (b : Blk) (c : CmdId) : Blk :=
  b.hubCmd c 0x04 (fun r b =>
    if r.started then b
    else
      let i := r.arg 0x08 4
      let st := b.pubCheck r.pubWho i true
      if st ≠ 0 then b.answerCmd c st []
      else
        let x := b.pubDecide (.cmd c) i (BitVec.ofNat 64 (r.arg 0x10 8)) (BitVec.ofNat 64 (r.arg 0x18 8))
          (BitVec.ofNat 64 (r.arg 0x20 8)) (sl r.bytes 0x28 32)
        match x.1 with
        | some st => x.2.answerCmd c st []
        | none => x.2.startCmd c)

/-- UNPUBLISH as a command (R101, R457). -/
def unpublishCmd (b : Blk) (c : CmdId) : Blk :=
  b.hubCmd c 0x05 (fun r b =>
    let i := r.arg 0x08 4
    let st := b.pubCheck r.pubWho i true
    if st ≠ 0 then b.answerCmd c st []
    else
      let x := b.unpubDecide i (BitVec.ofNat 64 (r.arg 0x10 8))
      x.2.answerCmd c x.1 [])

/-- QUERY as a command (R101, R457). -/
def queryCmd (b : Blk) (c : CmdId) : Blk :=
  b.hubCmd c 0x06 (fun r b =>
    let i := r.arg 0x08 4
    let st := b.pubCheck r.pubWho i false
    b.answerCmd c st (if st = 0 then b.queryBytes i else []))

/-! ## Function-level resets (R325, R333, R407) -/

/-- Is a Submit one of a function. -/
def SubmitReq.of (r : SubmitReq) (f : Nat) : Bool :=
  match r.who with
  | .cmd c => c.f.val == f
  | .fabric _ _ _ _ => false

/-- The Submits of a function that are in admission fail (R325). -/
def Blk.failSubmits (b : Blk) (f q : Nat) : Blk :=
  ((b.thr q).wait.filter (fun r => r.of f)).foldl (fun b r => b.reject q r 0x58 0 0)
    (b.modThr q (fun t => { t with
      fetched := if (t.wait.head?.map (fun r => r.of f)).getD false then [] else t.fetched
      room := if (t.wait.head?.map (fun r => r.of f)).getD false then none else t.room
      wait := t.wait.filter (fun r => !r.of f) }))

/-- An FLR of a function: its window is reset, its moves stop, its page requests, translations and waiting transfers go, its Submits in
admission fail, its management commands go on without an answer, and its invalidations are completed (R325, R333). -/
def Blk.flr (b : Blk) (f : Nat) : Blk :=
  let b0 := if (b.inProgOf f).isEmpty then b else b.flag Reg.hubErr 2
  let b1 := b0.modWin f (fun w => { enabled := w.enabled })
  let b2 : Blk := { b1 with
    hub.inProg := (b1.hub.inProg.filter (fun r => r.f != f || isMgmt r.op)).map (fun (r : CmdRec) => if r.f = f then { r with lost := true } else r)
    hub.moves := b1.hub.moves.filter (fun m => m.f != f)
    hub.prqs := b1.hub.prqs.filter (fun r => r.f != f)
    hub.trans := b1.hub.trans.filter (fun t => t.f != f)
    hub.reads := b1.hub.reads.filter (fun r => r.f != f || r.engine == 12)
    hub.atc := b1.hub.atc.filter (fun e => e.f != f)
    hub.tlb := (b1.hub.tlb.map (fun (e : Nat × List AtcEnt) => (e.1, e.2.filter (fun x => x.f != f)))).filter (fun e => !e.2.isEmpty)
    hub.priOn := without b1.hub.priOn f
    hub.alloc := tset (fun _ => 0) b1.hub.alloc f 0
    hub.stopped := without b1.hub.stopped f
    hub.invs := b1.hub.invs.map (fun (v : Inval) => if v.f = f then { v with left := [] } else v)
    coh.landed := b1.coh.landed.filter (fun x => match x.who with
      | .mover n => n / 8 % 64 != f
      | _ => true) }
  let b3 := (List.range 4).foldl (fun b q => b.failSubmits f q) b2.invEnd
  let mine := b3.hub.waits.filter (fun w => w.f == f)
  let parked := mine.filter (fun w => w.parked)
  let b4 := mine.foldl (fun b w => (b.dropWait w.x).dropFaults w.x) b3
  parked.foldl (fun b w => b.thrXferFail w.x w.x.faultStatus) b4

/-- A staged delta discarded, unless a commit is running (R407). -/
def Blk.dropStaged (b : Blk) : Blk := if b.str.commit.isSome then b else { b with str.staged := none }

/-- An FLR of PF0 also resets every VF, whose enable it clears, and HUB_APT[w]_BASE, and discards a staged delta (R407). -/
def Blk.flrPf0 (b : Blk) : Blk :=
  let b1 := (List.range 64).foldl (fun b f => if b.funcOn f then b.flr f else b) b
  let b2 : Blk := { b1 with
    hub.numVfs := 0
    hub.apt := []
    hub.wins := b1.hub.wins.filter (fun e => e.1 == 0) }
  ((List.range 16).foldl (fun b w => b.setReg (Reg.hubAptBase w) 0) b2).dropStaged

/-- FLR of a function that exists (R325, R407). -/
def flrFunc (b : Blk) (f : Nat) : Blk :=
  b.configured f (fun b => if !b.funcOn f then b else if f = 0 then b.flrPf0 else b.flr f)

/-- VF_ENABLE: the host sets VF Enable with a number of VFs, or clears it, which acts as an FLR of every VF (R307, R407). In recovery
TotalVFs is 0 (R372). -/
def vfEnable (b : Blk) (on : Bool) (num : Nat) : Blk :=
  b.configured 0 (fun b =>
    if b.sec.recovery then b
    else if on then
      if b.hub.numVfs ≠ 0 || num = 0 || 63 < num then b
      else { (List.range num).foldl (fun b i => b.modWin (i + 1) (fun w => { w with enabled := true })) b with hub.numVfs := num }
    else
      let b1 := (List.range 63).foldl (fun b i => if b.funcOn (i + 1) then b.flr (i + 1) else b) b
      { b1 with hub.numVfs := 0, hub.wins := b1.hub.wins.filter (fun e => e.1 == 0) })

end Sys2Proof.Machine
end

