-- ==== Sys2Proof/Machine/Commit.lean ====
section
/-! DEFINITION. Loading a structure, staging a delta, and the two phases of a commit (R62 to R75, R80 to R82, R85, R93, R95, R96,
R108, R376). -/

namespace Sys2Proof.Machine

/-! ## Loading (R62, R63, R80 to R84, R376) -/

/-- The channels in service: not lost, with accepted DIMMs (R80). -/
def Blk.serving (b : Blk) : List Nat := (List.range 24).filter (fun c => !(b.husk c).lost && dimmsOk (b.husk c).dimms)

/-- The least number of a list; 0 of none. -/
def leastOf : List Nat → Nat
  | [] => 0
  | a :: t => t.foldl min a

/-- C: the smallest capacity of any in-service channel, GiB (R80). -/
def Blk.leastGib (b : Blk) : Nat := leastOf (b.serving.map (fun c => dimmsGib (b.husk c).dimms))

/-- The speed bin that all in-service channels run at (R80). -/
def Blk.commonSpeed (b : Blk) : Nat := (speedBin (leastOf (b.serving.map (fun c => dimmsMts (b.husk c).dimms)))).getD 0

/-- The GUARD body of an image. -/
def guardBody (bs : Bytes) : Bytes := ((findSec (secTable bs) 0x01 false).map (secBody bs)).getD []

/-- Orders 1 to 4 of R62 on the bytes of a full image, and the comparison of R376 where the Guard set is locked: a status, with the
flag of a guard mismatch, or the image. -/
def Blk.loadCheck (b : Blk) (bs : Bytes) (supplied : Nat) : Except (Nat × Bool) Image :=
  match parseFull b.sec.structKeys b.sec.otp.serial bs supplied with
  | .error c => .error (c, false)
  | .ok i =>
    let usable := 4 * usableOf (fullStruct i).mode (lchOf b.leastGib)
    if !imgKeysOk i || !rulesOk (fullStruct i) usable (fun w => (aesUnwrap b.sec.kek w).isSome) [] true then .error (0x08, false)
    else if b.sec.guard.isSome && mget b.sec.meas 8 != some (sha256 (guardBody bs)) then .error (0x08, true)
    else .ok i

/-- The Guard set written and locked, with LAST of each issuer one below its floor (orders 5 and 8 of R62, R376, R384); a locked one
stays. -/
def Blk.setGuard (b : Blk) (i : Image) (bs : Bytes) : Blk :=
  if b.sec.guard.isSome then b
  else
    let last := (i.issuers.zip (List.range 8)).foldl (fun (t : Tab Nat) x => tset (fun _ => 0) t x.2 (x.1.floor.toNat - 1)) []
    { b with sec.guard := some ⟨i.bounds, i.issuers, i.debugUnlockable⟩, sec.last := last
             sec.meas := mput b.sec.meas 8 (sha256 (guardBody bs)) }

/-- A fresh key drawn for each bound key slot (order 6 of R62, R381). -/
def Blk.drawKeys (b : Blk) (s : Struct) : Blk :=
  s.validParts.foldl (fun b p =>
    let d := b.draw
    { d.2 with sec.keySlots := mput d.2.sec.keySlots (s.slotOf p) (fit 64 (Config.random d.1)) }) { b with sec.keySlots := [] }

/-- A ring set to what the TRACE body names, with both pointers 0 (R427). -/
def Ring.named (r : Ring) (ext : Option Nat) : Ring := { r with ext := ext, head := 0, tail := 0 }

/-- The rings as a TRACE body names them; a ring whose extent stays keeps its pointers (R60, R427). -/
def Blk.setRings (b : Blk) (t : TraceCfg) (all : Bool) : Blk :=
  let r := b.rings
  let put := fun (g : Ring) (e : Option Nat) => if all || g.ext != e then g.named e else g
  { b with rings.log := put r.log t.logExt, rings.dump := put r.dump t.dumpExt, rings.trace := put r.trace t.traceExt }

/-- The hosts of a structure get their leases, and its agents their indices in the order of some keys (R93, R108). -/
def Blk.startHosts (b : Blk) (ks : List Nat) : Blk :=
  ks.foldl (fun b e => match mget (b.view (.home 0)).hosts e with
    | some h => if h.agent then (b.startLease e).bindAgent e else b.startLease e
    | none => b) b

/-- Orders 5 to 9 of R62: the Guard set, the keys, the tables of every block, the lock, and the release of the Tillers. Every extent
is in INIT until its granules are zero (R82), and placement happens at once (R84). -/
def Blk.loadStruct (b : Blk) (i : Image) (bs : Bytes) : Blk :=
  let s := fullStruct i
  let d := sha256 bs
  let b1 := (b.setGuard i bs).drawKeys s
  let b2 : Blk := { b1 with
    str := { b1.str with loaded := true, locked := true, last := 0, epoch := i.epoch, run := s, staged := none, commit := none }
    sec.meas := mput (mput b1.sec.meas 6 d) 7 d
    pool := { capGib := b1.leastGib, speed := b1.commonSpeed, usable := usableOf s.mode (lchOf b1.leastGib), zeroOn := true,
              window := b1.tb / 10000 }
    ext := { exts := s.exts.map (fun e => (e.1, { state := .init })) }
    traf := { b1.traf with ents := [], gates := [] }
    pins.devReady := true }
  let b3 := i.traffic.foldl (fun b t => b.addTraf t.2) b2
  let b4 := s.gates.foldl (fun b g => b.loadGate g.1 g.2) b3
  let b5 := (b4.setRings s.trace true).placeAll.startHosts (i.hosts.map (·.1))
  let t := b5.draw
  ((t.2.setReg Reg.strLoadTime (BitVec.ofNat 32 (Config.loadTime t.1))).loadPair).zeroStep

/-- A full image loaded, or the failure noted: the controller stays unconfigured (R62, R63). -/
def Blk.load (b : Blk) (bs : Bytes) (supplied : Nat) : Nat × Blk :=
  match b.loadCheck bs supplied with
  | .ok i => (0, b.loadStruct i bs)
  | .error (c, mismatch) =>
    let b1 := { b with str.last := c }.flag Reg.strErr 2
    (c, if mismatch then (b1.flag Reg.secErr 6).log 0x15 0xFF 0 0 0 else b1)

/-- An answer to a structure command with a code of R74; a rejected stage or commit sets STR_ERR.STAGE_FAIL (R75). -/
def Blk.strAnswer (b : Blk) (c : CmdId) (st : Nat) (bad : Bool) : Blk :=
  let b1 : Blk := { b with str.last := st }
  (if bad then b1.flag Reg.strErr 3 else b1).answerCmd c st []

/-- STRUCT_LOAD: an unconfigured controller loads a full image from host memory (R63), once every Husk channel has read its SPD and
trained (R80; log entry 57). -/
def structLoad (b : Blk) (c : CmdId) (img : HostResult) : Blk :=
  b.mgmtCmd c 0x10 (fun r b =>
    if b.str.loaded then b.strAnswer c 0x0B false
    else if b.str.boot.isSome || !b.allTrained then b
    else b.withHost r (r.arg 0x14 4) img (fun b =>
      if hostStatus img ≠ 0 then (b.flag Reg.strErr 2).answerCmd c (hostStatus img) []
      else if b.sec.ownerless then (b.flag Reg.strErr 2).strAnswer c 0x03 false
      else if hostEp img then ((b.hubPoison 0 0x04).flag Reg.strErr 2).strAnswer c 0x04 false
      else
        let x := b.load (hostBytes img (r.arg 0x14 4)) (r.arg 0x14 4)
        x.2.answerCmd c x.1 []))

/-! ## Staging (R65, R66) -/

/-- The keys of extents that a delta touches. -/
def Image.extKeys (i : Image) : List Nat := i.exts.map (·.1) ++ i.delExts
/-- The keys of hosts that a delta touches. -/
def Image.hostKeys (i : Image) : List Nat := i.hosts.map (·.1) ++ i.delHosts
/-- The grant keys that a delta touches. -/
def Image.grantKeys (i : Image) : List Nat := i.grants.map (·.1) ++ i.delGrants
/-- The extents whose state a delta's keys have: those it touches, and those of the grants it touches (R66). -/
def Image.extsOf (i : Image) : List Nat := i.extKeys ++ i.grantKeys.map grantExt
/-- The hosts whose state a delta's keys have: those it touches, and the hosts that the grants it touches name (R66). -/
def Image.hostsOf (i : Image) : List Nat := i.hostKeys ++ (i.grantKeys.filter (fun k => !grantGroup k)).map grantGrantee

/-- Is an extent being revoked, and which of its granules hold which frames. -/
def Blk.extDigest (b : Blk) (ks : List Nat) : Map (Bool × List (Nat × Nat)) :=
  ks.map (fun k => (k, b.dying k, match b.extEnt k with
    | some e => b.pool.frames.filter (fun f => e.base ≤ f.1 && f.1 < e.base + e.granules)
    | none => []))

/-- Is a host's lease live, is it lapsed, and is its agent suspended. -/
def Blk.hostDigest (b : Blk) (ks : List Nat) : Map (Bool × Bool × Bool) :=
  ks.map (fun k =>
    let l : Lease := (mget b.ext.leases k).getD ⟨false, false, 0⟩
    (k, l.live, l.lapsed, ((mget b.coh.agents k).map (·.suspended)).getD false))

/-- Do two maps hold the same at some keys. -/
def sameAt {α : Type} [DecidableEq α] (m n : Map α) (ks : List Nat) : Bool := ks.all (fun k => mget m k = mget n k)

/-- Has every key that a delta touches the same entry in two structures. -/
def sameKeys (s t : Struct) (i : Image) : Bool :=
  sameAt s.parts t.parts (i.parts.map (·.1) ++ i.delParts) && sameAt s.hosts t.hosts i.hostKeys &&
  sameAt s.exts t.exts i.extKeys && sameAt s.grants t.grants i.grantKeys &&
  (i.tillers.isNone || s.tillers == t.tillers) && sameAt s.eids t.eids (i.eids.map (·.1) ++ i.delEids) &&
  sameAt s.sprays t.sprays (i.sprays.map (·.1) ++ i.delSprays) && sameAt s.traffic t.traffic (i.traffic.map (·.1) ++ i.delTraffic) &&
  sameAt s.gates t.gates (i.gates.map (·.1) ++ i.delGates) && sameAt s.tiers t.tiers (i.tiers.map (·.1) ++ i.delTiers) &&
  (i.pair.isNone || s.pair == t.pair) && (i.trace.isNone || s.trace == t.trace)

/-- Has a key that a staged delta touches changed since staging (R66). -/
def Blk.stale (b : Blk) (s : Staged) : Bool :=
  !sameKeys s.base b.str.run s.img || s.exts != b.extDigest s.img.extsOf || s.leases != b.hostDigest s.img.hostsOf

/-- A delta checked and staged: the status of R74. -/
def Blk.stageDelta (b : Blk) (bs : Bytes) (supplied : Nat) : Nat × Blk :=
  match parseDelta b.sec.structKeys b.sec.otp.serial b.str.epoch bs supplied with
  | .error c => (c, b)
  | .ok i =>
    if !deltaOk b.str.run i (4 * b.pool.usable) b.dyingExts then (0x08, b)
    else (0, { b with str.staged := some ⟨i, b.str.run, b.extDigest i.extsOf, b.hostDigest i.hostsOf, sha256 bs⟩ })

/-- Partition 0 as the requester of the management controller's reads of pool memory (R91). -/
def mgmtReq : Requester := ⟨.func 0, .part 0⟩

/-- How much of an object the management controller reads before it checks it: its LENGTH, or the header of one whose LENGTH R49 does
not allow. -/
def readSpan (len : Nat) : Nat := if len % 64 = 0 && 1024 ≤ len && len ≤ 67108864 then len else min len 128

/-- A delta read from partition-0 pool memory (R66): bytes, a status, or nothing yet. -/
def Blk.poolObject (b : Blk) (a n : Nat) : Got × Blk :=
  let x := b.readLines mgmtReq b.mgmt.fetched (linesOf a n)
  let b1 : Blk := { x.1 with mgmt.fetched := x.2 }
  if !(linesOf a n).all (mhas x.2) then (.wait, b1)
  else
    let b2 : Blk := { b1 with mgmt.fetched := [] }
    match x.2.find? (fun s => s.2.status != 0 || s.2.poison) with
    | none => (.bytes (stBytes x.2 a n), b2)
    | some s => if s.2.status = 0 then (.bad 0x04, b2.hubPoison s.1 0x04) else (.bad s.2.status, b2)

/-- STRUCT_STAGE: a delta from host or pool memory is checked and held (R65, R66, R71). -/
def structStage (b : Blk) (c : CmdId) (img : HostResult) : Blk :=
  b.mgmtCmd c 0x11 (fun r b =>
    let len := r.arg 0x14 4
    let finish := fun (b : Blk) (bs : Bytes) =>
      let x := b.stageDelta bs len
      x.2.strAnswer c x.1 (x.1 != 0)
    if !b.str.loaded then b.strAnswer c 0x0C true
    else if b.str.staged.isSome || b.str.commit.isSome then b.strAnswer c 0x0A true
    else if 2 ≤ r.arg 0x18 1 then (b.flag Reg.strErr 3).answerCmd c 0x71 []
    else if r.arg 0x18 1 = 1 then
      b.withHost r (readSpan len) img (fun b =>
        if hostStatus img ≠ 0 then (b.flag Reg.strErr 3).answerCmd c (hostStatus img) []
        else if hostEp img then (b.hubPoison 0 0x04).strAnswer c 0x04 true
        else finish b (hostBytes img (readSpan len)))
    else
      let g := (b.startCmd c).poolObject (r.arg 0x08 8) (readSpan len)
      match g.1 with
      | .wait => g.2
      | .bad st => if st = 0x04 then g.2.strAnswer c st true else (g.2.flag Reg.strErr 3).answerCmd c st []
      | .bytes bs => finish g.2 bs)

/-- STRUCT_DISCARD: the staged delta is dropped (R66). -/
def structDiscard (b : Blk) (c : CmdId) : Blk :=
  b.mgmtCmd c 0x13 (fun _ b =>
    if b.str.commit.isSome then b.answerCmd c 0x0A []
    else { b with str.staged := none }.answerCmd c 0 [])

/-- EXTENT_REVOKE: an extent starts draining; the answer comes once every home agent has taken the revocation (R96, R319). -/
def extentRevoke (b : Blk) (c : CmdId) : Blk :=
  b.mgmtCmd c 0x15 (fun r b =>
    let i := r.arg 0x08 4
    if 262143 < i then b.answerCmd c 0x71 []
    else if (b.extEnt i).isNone then b.answerCmd c 0x12 []
    else if b.dying i then b.answerCmd c 0x16 []
    else if b.ext.revCmds.any (fun x => x.1 == c) then b
    else { (b.startCmd c).startDrain i with ext.revCmds := b.ext.revCmds ++ [(c, i)] })

/-! ## The commit point (R66, R67, R69, R96) -/

/-- The slot of a deleted grant of an extent marked revoked; the mark stands in the slot that the grant leaves (R97). -/
def Blk.markRevoked (b : Blk) (i who : Nat) : Blk :=
  b.modExt i (fun r => { r with revoked := with1 (r.revoked.filter (· != who)) who })

/-- The marks of an extent after a commit has placed grants in it (R97): a new grant takes the marked slot of its own grantee, and where no
slot is free and unmarked, the one that has been marked longest. -/
def Blk.placeMarks (b : Blk) (i : Nat) (grants : List Nat) (whos : List Nat) : Blk :=
  b.modExt i (fun r =>
    let l := r.revoked.filter (fun m => !whos.contains m)
    { r with revoked := l.drop (l.length + grants.length - 16) })

/-- The grants that a delta deletes and does not place again. -/
def Image.goneGrants (i : Image) : List Nat := i.delGrants.filter (fun k => !i.grants.any (fun g => g.1 == k))

/-- How a revoked grantee is marked: a host by its EID, a group by 65,536 plus its number. -/
def revMark (k : Nat) : Nat := grantGrantee k + 65536 * b2n (grantGroup k)

/-- STRUCT_COMMIT: the staged delta is checked again and the commit point issued: phase A runs (R66, R67). The extents that it deletes
start draining, and the slots of the grants that it deletes are marked revoked (R69, R96, R97). -/
def structCommit (b : Blk) (c : CmdId) : Blk :=
  b.mgmtCmd c 0x12 (fun r b =>
    if (b.str.commit.map (·.cmd)) == some c then b
    else if !b.str.loaded then b.strAnswer c 0x0C true
    else if b.str.commit.isSome then b.strAnswer c 0x0A true
    else match b.str.staged with
      | none => b.strAnswer c 0x06 true
      | some s =>
        if s.img.epoch.toNat != r.arg 0x08 8 then b.strAnswer c 0x06 true
        else if b.stale s then { b with str.staged := none }.strAnswer c 0x09 true
        else
          let i := s.img
          let k : Commit := { img := i, digest := s.digest, cmd := c, base := b.str.run, afterA := deltaA b.str.run i, afterB := deltaB b.str.run i, phase := 1,
                              point := b.tb, taken := [], clearing := [], cleared := [] }
          let b1 := i.goneGrants.foldl (fun b g => if mhas b.str.run.grants g then b.markRevoked (grantExt g) (revMark g) else b) b
          let b2 := i.delExts.foldl Blk.startDrain b1
          ({ b2.startCmd c with str.commit := some k }).trace { source := 8, event := 1, unit := 112, a := i.epoch.toNat })

/-! ## Taking a phase (R67, R68) -/

/-- The Tillers that a phase concerns: A releases, B assigns (R67). -/
def Blk.phaseTillers (b : Blk) (c : Commit) : List Nat :=
  if c.phase = 1 then releasedTillers b.str.run c.img
  else (List.range 24).filter (fun k => c.afterA.tillers.getD k none != c.afterB.tillers.getD k none)

/-- The structure before and after the running phase. -/
def Commit.ends (c : Commit) (run : Struct) : Struct × Struct := if c.phase = 1 then (run, c.afterA) else (c.afterA, c.afterB)

/-- The targets whose gate list a phase changes. -/
def Blk.phaseGates (b : Blk) (c : Commit) : List Nat :=
  let e := c.ends b.str.run
  ((mkeys e.1.gates ++ mkeys e.2.gates).dedup).filter (fun t => decide (mget e.1.gates t ≠ mget e.2.gates t))

/-- The blocks that take a phase (R68, R310). -/
def Blk.phaseBlocks (b : Blk) (c : Commit) : List Block :=
  (List.range 4).map (fun q => .home (Fin.ofNat 4 q)) ++ (List.range 4).map (fun q => .router (Fin.ofNat 4 q)) ++
  (List.range 4).map (fun q => .thresher (Fin.ofNat 4 q)) ++ (List.range 24).map (fun c => .husk (Fin.ofNat 24 c)) ++
  (List.range 4).map (fun q => .grain (Fin.ofNat 4 q)) ++ [.buckets, .hub] ++ (b.phaseGates c).map .gate ++
  (b.phaseTillers c).map (fun k => .tiller (Fin.ofNat 24 k))

/-- The hosts that lose their agent index in phase A: removed, or replaced by an entry with AGENT = 0 (R108). -/
def Commit.leaving (c : Commit) (run : Struct) : List Nat :=
  (run.hosts.filter (fun h => h.2.agent && !((mget c.afterA.hosts h.1).map (·.agent)).getD false)).map (·.1)

/-- The grantees of a grant key at a structure: the host, or the members of the group. -/
def Struct.grantees (s : Struct) (k : Nat) : List Nat :=
  if grantGroup k then (s.hosts.filter (fun h => h.2.group == grantGrantee k)).map (·.1) else [grantGrantee k]

/-- How many agents that a delta adds stand before a host in its HOST section: the lower indices are theirs, though they take effect in phase
B (R67, R108). -/
def Commit.newBefore (c : Commit) (eid : Nat) : Nat :=
  ((c.img.hosts.takeWhile (fun h => h.1 != eid)).filter (fun h => h.2.agent && !mhas c.afterA.hosts h.1)).length

/-- A home agent takes phase A: it takes the revocations of the commit, recalls the lines of the hosts that leave, and on home agent 0
the lease master and the registry take the HOST entries (R69, R93, R95 to R97, R108). -/
def Blk.homeTakeA (b : Blk) (c : Commit) (q : Nat) : Blk :=
  let run := b.str.run
  let b1 := c.img.delExts.foldl (fun b i => revocationTake b q (.extent i)) b
  let b2 := (c.img.goneGrants.filter (mhas run.grants)).foldl (fun b g =>
    match run.exts.find? (fun e => e.1 == grantExt g) with
    | none => b
    | some e => (run.grantees g).foldl (fun b eid =>
        if (c.afterA.rightsOf e.1 eid).isSome then b else b.recallHost q eid e.2.has) b) b1
  let b3 := (c.leaving run).foldl (fun b eid => b.recallHost q eid (fun _ => true)) b2
  if q ≠ 0 then b3
  else
    let stay := (c.img.hosts.map (·.1)).filter (fun e => mhas run.hosts e && mhas c.afterA.hosts e)
    let b4 := stay.foldl (fun b e => if ((mget b.ext.leases e).map (·.lapsed)).getD false then b.startLease e else b) b3
    stay.foldl (fun b e =>
      if ((mget c.afterA.hosts e).map (·.agent)).getD false && (mget b.coh.agents e).isNone then b.bindAgent e (c.newBefore e) else b) b4

/-- A home agent takes phase B; on home agent 0 the new hosts get their leases and indices (R93, R108). -/
def Blk.homeTakeB (b : Blk) (c : Commit) (q : Nat) : Blk :=
  if q ≠ 0 then b else b.startHosts ((c.img.hosts.map (·.1)).filter (fun e => !mhas c.afterA.hosts e))

/-- The buckets take a phase: entries leave, are replaced with their levels, or start full (R68, R296). -/
def Blk.bucketsTake (b : Blk) (c : Commit) : Blk :=
  let e := c.ends b.str.run
  let gone := (mkeys e.1.traffic).filter (fun k => !mhas e.2.traffic k)
  let put := c.img.traffic.filterMap (fun t => match mget e.2.traffic t.1 with
    | some v => if mget e.1.traffic t.1 ≠ some v then some (t.1, v) else none
    | none => none)
  put.foldl (fun b t => b.addTraf t.2) (gone.foldl Blk.delTraf b)

/-- A Tiller takes a phase: released in phase A, it discards its local store and starts clearing, and its T-step account starts
anew (R67, R165, R425). -/
def Blk.tillerTake (b : Blk) (c : Commit) (k : Nat) : Blk :=
  if c.phase ≠ 1 then b
  else
    let b1 := b.dropPre (fun p => (b.til k).pre.contains p)
    { b1.modTil k (fun t => { t with clearing := true }) with
      work.tds := b1.work.tds.filter (fun e => e.1 / 6 != k)
      str.commit := b1.str.commit.map (fun c => { c with clearing := with1 c.clearing k }) }

/-- PHASE_TAKE: a block takes the changes of the running phase at its own quiesce point (R67, R68). A Tiller's point is the end of its
running task. -/
def phaseTake (b : Blk) (k : Block) : Blk :=
  match b.str.commit with
  | none => b
  | some c =>
    let busyTil := match k with
      | .tiller t => (b.til t.val).run.isSome
      | _ => false
    if b.dead || c.taken.contains k || !(b.phaseBlocks c).contains k || busyTil then b
    else
      let b1 : Blk := { b with str.commit := some { c with taken := c.taken ++ [k] } }
      match k with
      | .home q => if c.phase = 1 then b1.homeTakeA c q.val else b1.homeTakeB c q.val
      | .buckets => b1.bucketsTake c
      | .gate t => b1.takeGate t (mget (c.ends b.str.run).2.gates t)
      | .tiller t => b1.tillerTake c t.val
      | .hub =>
        if c.phase = 1 then
          let old := b1.str.run.pair
          let named := b1.rings.log.ext.isSome
          let b2 := b1.modStruct (fun s => { s with pair := c.afterA.pair, trace := c.afterA.trace })
          let b3 := b2.setRings c.afterA.trace false
          ((if named && b3.rings.log.ext.isNone then b3.freeLogFrames else b3).logFlush).setPair old c.img.pair.isSome
        else b1
      | .router _ | .thresher _ | .husk _ | .grain _ => b1

/-- TILLER_CLEAR_DONE: a released Tiller has been cleared and becomes unallocated (R67, R165). -/
def tillerClearDone (b : Blk) (k : Nat) : Blk :=
  if b.dead || !(b.til k).clearing then b
  else
    let b1 := (b.modTil k (fun t => { t with clearing := false })).incr (Reg.tilZeroCnt k)
    { b1 with str.commit := b1.str.commit.map (fun c => { c with cleared := with1 c.cleared k }) }

/-- COMMIT_PREEMPT: a Tiller that has not reached its quiesce point within STR_COMMIT_LIMIT loses its task (R70). -/
def commitPreempt (b : Blk) (k : Nat) : Blk :=
  match b.str.commit, (b.til k).run with
  | some c, some r =>
    if b.dead || c.phase ≠ 1 || !(b.phaseTillers c).contains k || r.ended.isSome ||
        b.tb < c.point + b.field Reg.strCommitLimit 0 14 * 1000000 then b
    else (b.cancelRun k 0x47).flag Reg.strErr 4
  | _, _ => b

/-! ## The ends of the phases (R67) -/

/-- Does a home agent still recall lines from a host that leaves in phase A (R67, R108). -/
def Blk.recalling (b : Blk) (c : Commit) (q : Nat) : Bool :=
  c.phase == 1 && (c.leaving b.str.run).any (fun e =>
    (b.coh.txns ++ b.coh.queue.map (·.txn)).any (fun t => homeOf t.line == q && t.op == .recallOf e))

/-- Has every block taken the running phase and ended it: no gate waits for the end of a cycle, no Tiller clears, and the recalls from
hosts that leave have ended (R67, R68, R108). -/
def Blk.phaseDone (b : Blk) (c : Commit) : Bool :=
  (b.phaseBlocks c).all c.taken.contains && c.clearing.all c.cleared.contains &&
  (b.phaseGates c).all (fun t => ((mget b.traf.gates t).map (·.next.isNone)).getD true) &&
  (List.range 4).all (fun q => !b.recalling c q)

/-- The extents whose lines become write-through: each gets a cleaning pass (R85). -/
def Blk.cleanChanged (b : Blk) (old : Struct) : Blk :=
  ((old.exts.filter (fun e => old.writeBack e.2 && (match mget b.str.run.exts e.1 with
    | some n => !b.str.run.writeBack n
    | none => false))).map (·.1)).foldl Blk.queueClean b

/-- The runtime state of an extent that a commit adds: INIT while one of its granules is not zero (R82, R89). -/
def Blk.newExt (b : Blk) (e : Nat × ExtEnt) : Blk :=
  { b with ext.exts := mput b.ext.exts e.1 { state := if e.2.all.all b.granZero then .active else .init } }

/-- PHASE_A_END: every block has reported the end of phase A. What it removes is gone; the indices of agents that left are free, and
phase B begins (R67, R108). -/
def phaseAEnd (b : Blk) : Blk :=
  match b.str.commit with
  | none => b
  | some c =>
    if b.dead || c.phase ≠ 1 || !b.phaseDone c then b
    else
      let old := b.str.run
      let out := c.leaving old
      let gone := (mkeys old.hosts).filter (fun e => !mhas c.afterA.hosts e)
      let new := newKeys c.afterA.exts c.img.exts
      let marks := newKeys c.afterA.grants c.img.grants
      let b1 : Blk := { b with
        str.run := { c.afterA with exts := putAll c.afterA.exts new }
        str.commit := some { c with phase := 2, taken := [], clearing := [], cleared := [] }
        coh.agents := delAll b.coh.agents out
        coh.suspended := b.coh.suspended.filter (fun s => !out.contains s.2)
        coh.suspendPend := b.coh.suspendPend.filter (fun s => !out.contains s.2)
        coh.walks := b.coh.walks.filter (fun w => !out.contains w.eid)
        ext.leases := delAll b.ext.leases gone
        ext.expPend := b.ext.expPend.filter (fun e => !gone.contains e.2)
        ext.dead := b.ext.dead.filter (fun e => !gone.contains e.2) }
      let b2 := new.foldl Blk.newExt (b1.cleanChanged old)
      let b3 := (marks.map (fun g => grantExt g.1)).dedup.foldl (fun b i =>
        b.placeMarks i ((c.afterB.grantsOf i).map (·.1)) ((marks.filter (fun g => grantExt g.1 == i)).map (fun g => revMark g.1))) b2
      b3.trace { source := 8, event := 2, unit := 112, a := c.img.epoch.toNat }

/-- A commit's command answered STR_OK, at once or after a management reset (R44, R67). -/
def Blk.commitAnswer (b : Blk) (c : CmdId) : Blk :=
  if b.mgmt.resetting || b.mgmt.failed || b.mgmt.reanswer.isSome then b else b.strAnswer c 0 false

/-- PHASE_B_END: every block has taken phase B: the new structure is in force, STR_EPOCH is its EPOCH, and the command is answered
(R67, R379). -/
def phaseBEnd (b : Blk) : Blk :=
  match b.str.commit with
  | none => b
  | some c =>
    if b.dead || c.phase ≠ 2 || !b.phaseDone c then b
    else
      let h := sha256 ((mget b.sec.meas 7).getD [] ++ c.digest)
      let b1 : Blk := { b with
        str := { b.str with run := c.afterB, epoch := c.img.epoch, staged := none, commit := none, last := 0 }
        sec.meas := mput b.sec.meas 7 h }
      (b1.trace { source := 8, event := 3, unit := 112, a := c.img.epoch.toNat }).commitAnswer c.cmd

/-- COMMIT_REANSWER: the management controller accepts commands again after a reset, the commit has ended, and its command is answered
STR_OK (R44). A controller in the failed state never accepts commands again (R45), and the command stays in progress: DESIGN CHOICE
(log entry 58). -/
def commitReanswer (b : Blk) : Blk :=
  match b.mgmt.reanswer with
  | none => b
  | some c =>
    if b.dead || b.mgmt.resetting || b.mgmt.failed || b.str.commit.isSome then b
    else { b with mgmt.reanswer := none }.strAnswer c 0 false

/-! ## STR_TIER (R75) -/

/-- STR_TIER_WRITE: the TIER entry of the selected partition changed at once, or the write ignored (R73, R75). -/
def strTierWrite (b : Blk) (v : Word) : Blk :=
  let p := b.field Reg.strTierSel 0 6
  let old := b.str.run.tier p
  let n := v.toNat
  let cap := if fld n 8 3 = 0 then 10 else min 50 (fld n 8 3)
  let new : TierEnt := ⟨if fld n 1 0 = 3 then old.hint else fld n 1 0, fld n 2 2, cap⟩
  let s : Struct := { b.str.run with tiers := mput b.str.run.tiers p new }
  if !(s.bound p).valid || (List.range 4).any (fun q => s.share p q < s.pinnedOn p q) then b.flag Reg.strErr 5
  else
    let was := b.str.run
    (b.modLive (fun _ => false) (fun c => inPhaseA c.base.tiers c.img.delTiers c.img.tiers p)
      (fun c => inPhaseB c.base.tiers c.img.delTiers c.img.tiers p) (fun s => { s with tiers := mput s.tiers p new })).cleanChanged was

end Sys2Proof.Machine
end

