-- ==== Sys2Proof/Machine/Flash.lean ====
section
/-! DEFINITION. The boot flash: its directory, the signed objects and the calibration set (R369, R370, R410, R411). -/

namespace Sys2Proof.Machine

/-! ## The directory (R369) -/

/-- An entry of the directory: TYPE, OFFSET and LENGTH. -/
structure DirEntry where
  type : Nat
  offset : Nat
  length : Nat
  deriving DecidableEq, Repr

/-- The 16 entries of the directory. -/
def flashDir (m : Cells) : List DirEntry :=
  (List.range 16).map (fun i =>
    let e := cread m (16 * i) 16
    ⟨u8 e 0, le e 4 4, le e 8 4⟩)

/-- The one entry of a TYPE; a TYPE that appears twice has no usable entry. -/
def dirFind (m : Cells) (ty : Nat) : Option DirEntry :=
  match (flashDir m).filter (fun e => e.type == ty) with
  | [e] => some e
  | _ => none

/-- The object of a TYPE. -/
def flashObj (m : Cells) (ty : Nat) : Option Bytes := (dirFind m ty).map (fun e => cread m e.offset e.length)

/-- Bytes written to the flash from an offset: its device takes none above its capacity (R451). -/
def Blk.flashWrite (b : Blk) (m : Cells) (o : Nat) (bs : Bytes) : Cells := cwrite m o (bs.take (b.mgmt.spi.mib * 2 ^ 20 - o))

/-- LENGTH of the entry of a TYPE set. -/
def dirSetLength (m : Cells) (ty n : Nat) : Cells :=
  match (List.range 16).find? (fun i => (cget m (16 * i)).toNat == ty) with
  | some i => cwrite m (16 * i + 8) (toLe 4 n)
  | none => m

/-! ## Signed objects (R370) -/

/-- Is the signature in the last 64 bytes of an object that of a key over every byte before it; an absent key verifies nothing. -/
def signedBy (key bs : Bytes) : Bool :=
  !allZero key && ecdsaVerify key (sha256 (bs.take (bs.length - 64))) (bs.drop (bs.length - 64))

/-- Is a vendor manifest valid against VENDOR_ROOT_HASH. -/
def vendorOk (o : Otp) (bs : Bytes) : Bool :=
  bs.length == 256 && le bs 0 4 == 0x4E4D4456 && le bs 4 2 == 1 && allZero (sl bs 6 58) &&
  sha256 (sl bs 0x80 64) == o.vendorHash && signedBy (sl bs 0x80 64) bs

/-- Is a firmware image valid under a key, with an SVN of at least MIN_SVN. -/
def firmwareOk (minSvn : Nat) (fwKey bs : Bytes) : Bool :=
  let l := le bs 8 4
  le bs 0 4 == 0x57464E4F && le bs 4 2 == 1 && u8 bs 6 ≤ 63 && u8 bs 7 == 0 && l == bs.length && l % 64 == 0 && 4096 ≤ l &&
  l ≤ 1572864 && le bs 0x0C 4 < l && allZero (sl bs 0x10 48) && minSvn ≤ u8 bs 6 && signedBy fwKey bs

/-- Is an owner manifest valid against OWNER_HASH. -/
def ownerOk (ownerHash bs : Bytes) : Bool :=
  bs.length == 512 && le bs 0 4 == 0x4E574F4F && le bs 4 2 == 1 && allZero (sl bs 6 58) && allZero (sl bs 0x180 64) &&
  sha256 (sl bs 0x40 64) == ownerHash && signedBy (sl bs 0x40 64) bs

/-! ## The calibration set (R410, R411) -/

/-- The length of a calibration set. -/
def calLen : Nat := 65536

/-- Does a calibration set verify: MAGIC, FORMAT, SERIAL and MAC. -/
def calOk (serial : DWord) (kCal bs : Bytes) : Bool :=
  bs.length == calLen && le bs 0 4 == 0x4C414343 && le bs 4 2 == 1 && le bs 8 8 == serial.toNat &&
  hmac256 kCal (bs.take 0xFFE0) == bs.drop 0xFFE0

/-- TRIM_VALID of a set. -/
def calTrim (bs : Bytes) : Bool := bit (u8 bs 6) 0

/-- WRITE_COUNT of a set. -/
def calCountOf (bs : Bytes) : Nat := le bs 0x10 4

/-- The slot of the calibration set: the offset of the usable TYPE 5 entry. -/
def calSlot (m : Cells) : Option Nat := (dirFind m 5).map (·.offset)

/-- The flash with the slot of the calibration set erased. -/
def calErase (m : Cells) : Cells :=
  match calSlot m with
  | some o => cclear m o calLen
  | none => m

/-- The flash after something that ends every write that runs (R373, R394, R412): a set that was being written is lost, and the firmware slot
was erased before its image was to be written. -/
def Blk.flashCut (b : Blk) (m : Cells) : Cells := if b.pwr.calWriting.isSome then calErase m else m

end Sys2Proof.Machine
end

