-- ==== Sys2Proof/Machine/Power.lean ====
section
/-! DEFINITION. Power states, the VCORE setpoint, temperature, and the calibration commands (R71, R393 to R405, R412 to R416). -/

namespace Sys2Proof.Machine

/-! ## Power states (R396 to R403) -/

/-- Is a transition allowed (R396). -/
def pwrAllowed (s m t n : Nat) : Bool :=
  match s, t with
  | 0, 1 | 1, 0 | 0, 2 | 1, 2 | 2, 0 | 2, 1 | 2, 3 | 3, 2 | 3, 4 => true
  | 1, 1 => m != n
  | _, _ => false

/-- The state and mask set; a Tiller that is gated, or comes back, starts with an empty local store (R397). -/
def Blk.setPower (b : Blk) (s m : Nat) : Blk :=
  let old := b.pwr
  let turns := fun (k : Nat) => powerGates old.state old.mask k != powerGates s m k
  let b1 := b.dropPre (fun p => (List.range 24).any (fun k => turns k && (b.til k).pre.contains p))
  { b1 with pwr.state := s, pwr.mask := m, pwr.move := none }

/-- A PWR_STATE command answered: the state reached (R413). -/
def Blk.pwrAnswer (b : Blk) (c : CmdId) (s : Nat) : Blk := b.answerCmd c 0 (toLe 1 s)

/-- A transition begun (1) or ended (2) traced (R432), with the state and the mask that it goes to or has come to. -/
def Blk.tracePower (b : Blk) (event s m : Nat) : Blk := b.trace { source := 9, event := event, unit := 112, a := s + m * 256 }

/-- POWER_DRAIN_DONE: no Tiller that the running transition gates runs a task, and the transition completes (R398). -/
def Blk.powerDrainDone (b : Blk) : Blk :=
  match b.pwr.move with
  | none => b
  | some m =>
    if m.state = 3 || (List.range 24).any (fun k => (b.til k).run.isSome && powerGates m.state m.mask k) then b
    else ((b.setPower m.state m.mask).tracePower 2 m.state m.mask).pwrAnswer m.cmd m.state

/-- Step 1 of the entry into HOLD: every live lease is frozen with the time left (R399). -/
def Blk.holdBegin (b : Blk) : Blk :=
  let b1 : Blk := { b with
    pwr.holding := true
    pwr.frozenLeases := (b.ext.leases.filter (fun l => l.2.live)).map (fun l => (l.1, l.2.deadline - b.tb)) }
  b1.setPairPins

/-- Exit from HOLD (R400, R401): frozen leases get their deadlines, each port with ENABLE = 1 makes fast retrains first, and a standby rejoins
its pair. -/
def Blk.holdEnd (b : Blk) : Blk :=
  let b1 : Blk := { (b.setPower 2 0) with
    pwr.holding := false
    pwr.frozenLeases := []
    ext.leases := b.pwr.frozenLeases.foldl (fun m f => mmod m f.1 (fun l => { l with deadline := b.tb + f.2 })) b.ext.leases }
  (List.range 48).foldl (fun b n =>
    if b.linkOn n && (b.link n).state == .disabled then
      b.modLink n (fun k => { k with state := .training, tries := 0 }.attempt false b.tb)
    else b) b1.rejoin

/-- OFF: only VAUX stays on, and the device answers nothing (R402). -/
def Blk.powerOff (b : Blk) : Blk := { b.setPower 4 0 with dead := true }

/-- PWR_STATE (R396 to R403). It waits while a commit runs. A transition to HOLD begins; one that gates Tillers waits for their tasks;
any other ends at once. -/
def pwrState (b : Blk) (c : CmdId) : Blk :=
  b.mgmtCmd c 0x40 (fun r b =>
    let s := r.arg 0x08 1; let m := r.arg 0x0C 4
    if (b.pwr.move.map (·.cmd)) == some c then b
    else if b.pwr.move.isSome then b.answerCmd c 0xB0 []
    else if b.str.commit.isSome then b
    else if !pwrAllowed b.pwr.state b.pwr.mask s m || (s = 3 && (b.pair.code = 1 || b.pair.code = 5)) then b.answerCmd c 0xB1 []
    else
      let mv : PwrMove := { cmd := c, state := s, mask := m, deadline := r.at_ + r.arg 0x10 4 * 1000000 }
      let b0 : Blk := { b.startCmd c with pwr.move := some mv }
      let b1 := b0.tracePower 1 s m
      if s = 3 then b1.holdBegin
      else if s = 4 then ((b1.tracePower 2 4 0).pwrAnswer c 4).powerOff
      else if b.pwr.state = 3 then ((b1.holdEnd).tracePower 2 2 0).pwrAnswer c 2
      else b1.powerDrainDone)

/-- Is no tracker entry in use and no accepted request waiting (R399 step 2). -/
def Blk.trackersFree (b : Blk) : Bool := b.coh.txns.isEmpty && b.queued.isEmpty

/-- Is every port closed (R399 step 3). -/
def Blk.portsClosed (b : Blk) : Bool := (List.range 48).all (fun n => (b.link n).state == .disabled)

/-- The ports on the way to DISABLED: one in UP is closed, one in HELD is flushed, one in TRAINING stops. -/
def Blk.closePorts (b : Blk) : Blk :=
  (List.range 48).foldl (fun b n => match (b.link n).state with
    | .up => b.beginClose n
    | .held => b.flush n
    | .training => b.linkIdle n
    | _ => b) b

/-- The end of the entry into HOLD, once every port is closed: Grain and Husk are in self-refresh, and the command is answered (R399
step 4). -/
def Blk.holdDone (b : Blk) (m : PwrMove) : Blk := if b.portsClosed then ((b.setPower 3 0).tracePower 2 3 0).pwrAnswer m.cmd 3 else b

/-- HOLD_ENTRY_DRAINED: with every tracker entry free the ports close; once they are closed the entry into HOLD ends (R399). -/
def holdEntryDrained (b : Blk) : Blk :=
  match b.pwr.move with
  | none => b
  | some m =>
    if b.dead || m.state ≠ 3 || !b.trackersFree then b
    else if m.closing then b.holdDone m
    else
      let b1 : Blk := { b with pwr.move := some { m with closing := true } }
      b1.closePorts.holdDone m

/-- POWER_TIMEOUT: a transition that still waits for a task after TIMEOUT_MS is reverted and answered PWR_BUSY (R398). -/
def powerTimeout (b : Blk) : Blk :=
  match b.pwr.move with
  | none => b
  | some m =>
    if b.dead || m.state = 3 || b.tb < m.deadline then b
    else (({ b with pwr.move := none }.flag Reg.pwrErr 0).tracePower 2 b.pwr.state b.pwr.mask).answerCmd m.cmd 0xB0 []

/-- TASK_END with the end of a power transition that waited for the task (R210, R398). -/
def taskEndRow (b : Blk) (k : Nat) : Blk := (tillerTaskEnd b k).powerDrainDone

/-! ## VCORE (R404) -/

/-- PWR_VCORE: the setpoint changes and the rail slews at 1 mV per µs. One command moves the rail at a time. -/
def pwrVcore (b : Blk) (c : CmdId) : Blk :=
  b.mgmtCmd c 0x41 (fun r b =>
    let mv := r.arg 0x08 2
    if b.pwr.vcoreCmd.isSome then b
    else
      let d := (mv - b.pwr.vcore) + (b.pwr.vcore - mv)
      { b.startCmd c with pwr.vcore := mv, pwr.vcoreCmd := some (c, b.pwr.vcore, b.tb + d * 1000) })

/-- VCORE_SETTLED: the rail reaches the setpoint, and the command is answered. -/
def vcoreSettled (b : Blk) : Blk :=
  match b.pwr.vcoreCmd with
  | none => b
  | some (c, _, t) => if b.dead || b.tb < t then b else { b with pwr.vcoreCmd := none }.answerCmd c 0 []

/-! ## Reset and readings (R405, R406, R413) -/

/-- PWR_WARM_RESET: answered, and the reset begins 1 ms later (R406). -/
def pwrWarmReset (b : Blk) (c : CmdId) : Blk :=
  b.mgmtCmd c 0x42 (fun _ b => { b.answerCmd c 0 [] with pwr.warm := some (b.tb + 1000000) })

/-- The highest of some readings. -/
def maxTemp : List Int → Int
  | [] => -128
  | a :: t => t.foldl max a

/-- A signed byte. -/
def sbyte (v : Int) : Byte := BitVec.ofInt 8 v

/-- The highest reading of each die: the quadrants, then the hub (R405, R413). Before the first scan there is none. -/
def Pwr.dieTemps (p : Pwr) : List Int :=
  (List.range 4).map (fun q => maxTemp ((p.temps.drop (8 * q)).take 8)) ++ [maxTemp (p.temps.drop 32)]

/-- PWR_READ: the input voltage, the input current and the temperatures of the dies, free ones before the first reading (R413). -/
def pwrRead (b : Blk) (c : CmdId) : Blk :=
  b.mgmtCmd c 0x43 (fun _ b =>
    let d := b.draw
    d.2.answerCmd c 0 (toLe 4 (Config.vin d.1) ++ toLe 4 (Config.iin d.1) ++
      if b.pwr.temps.isEmpty then (List.range 5).map (Config.dieTemp d.1) else b.pwr.dieTemps.map sbyte))

/-- Are the trims, offsets and gain the defaults: the set is lost or has TRIM_VALID = 0 (R411). -/
def Pwr.trimLost (p : Pwr) : Bool := p.calLost || !((p.calSet.map calTrim).getD false)

/-- The thermal thresholds: WARN and the trip point, 5 °C lower while the set is lost (R405). -/
def Blk.thermLimits (b : Blk) : Int × Int :=
  let w : Int := b.field Reg.pwrThermCfg 0 7
  if b.pwr.trimLost then (w - 5, 110) else (w, 115)

/-- THERMAL_SCAN: every sensor is read, THERM_WARN_N follows the highest reading, and a trip asserts THERM_TRIP_N and DEV_FAULT_N
(R405). The monitor runs from VAUX. The input and VCORE are read with it (R415). A reading comes 100 µs after the last, and none while the
timebase is frozen (R418). -/
def thermalScan (b : Blk) (readings : List Int) : Blk :=
  if !b.pwr.on || b.frozen || !(b.pwr.scanAt.all (fun t => decide (t + 100000 ≤ b.tb))) then b
  else
    let ts := readings.take 34
    let lim := b.thermLimits
    let hot := maxTemp ts
    let warn := decide (lim.1 ≤ hot) || (b.pwr.warn && !ts.all (fun t => decide (t + 3 ≤ lim.1)))
    let b1 := if warn && !b.pwr.warn then b.flag Reg.pwrErr 1 else b
    let trip := b.pwr.trip || decide (lim.2 ≤ hot)
    let d := b1.draw
    let b2 : Blk := { d.2 with
      pwr.temps := ts
      pwr.scanAt := some d.2.tb
      pwr.scanned := true
      pwr.warn := warn
      pwr.trip := trip
      pins.devFault := d.2.pins.devFault || trip }
    let b3 := b2.setReg Reg.pwrInput (BitVec.ofNat 32 (Config.vin d.1 / 10 % 65536 + Config.iin d.1 % 65536 * 65536))
    b3.setReg Reg.pwrVcore (putField (b3.reg Reg.pwrVcore) 10 10 (Config.vcoreRead d.1))

/-! ## Calibration commands (R410 to R413) -/

/-- CAL_READ: the calibration set in flash is copied to host memory; where no TYPE 5 entry is usable there is nothing to copy. -/
def calRead (b : Blk) (m : Cells) (c : CmdId) : Blk :=
  b.mgmtCmd c 0x48 (fun r b =>
    match calSlot m with
    | none => b.answerCmd c 0 (toLe 4 0)
    | some o =>
      if !(b.win r.f).master then b
      else (b.hostPut r.f (r.arg 0x10 4) (r.arg 0x08 8) (cread m o calLen)).answerCmd c 0 (toLe 4 calLen))

/-- A set composed from the training results in force, with the trims of the set in force or the defaults; its WRITE_COUNT follows that of the
set in flash, where one has verified or has been written (R410, R412). -/
def Blk.composeCal (b : Blk) (train count : Nat) : Bytes :=
  let old := if b.pwr.calLost then none else b.pwr.calSet
  let trim := (old.map calTrim).getD false
  let n := if mhas b.sec.meas 10 then (b.reg Reg.calWriteCount).toNat + 1 else Config.calCount count
  let tail := match old with
    | some s => sl s 0x9100 0x2940
    | none => fit 0x2940 Config.calDefaults
  let body := toLe 4 0x4C414343 ++ toLe 2 1 ++ toLe 1 (b2n trim) ++ zeros 1 ++ toLe 8 b.sec.otp.serial.toNat ++ toLe 4 n ++ zeros 236 ++
    fit 0x9000 (Config.training train) ++ tail ++ zeros 17824
  body ++ hmac256 b.sec.kCal body

/-- CAL_WRITE: a set from host memory that verifies, or a composed one, is written to the slot: its flash write starts (R412). -/
def calWrite (b : Blk) (m : Cells) (c : CmdId) (img : HostResult) : Blk :=
  b.mgmtCmd c 0x49 (fun r b =>
    let begin := fun (b : Blk) (bs : Bytes) =>
      if (calSlot m).isNone then (b.flag Reg.calErr 2).answerCmd c 0xB4 []
      else { b.startCmd c with pwr.calWriting := some (c, bs) }
    if b.pwr.calWriting.isSome then b
    else if r.arg 0x08 1 = 1 then
      let d := b.draw; let e := d.2.draw
      begin e.2 (b.composeCal d.1 e.1)
    else
      let x := b.mgmtRead r (r.arg 0x10 8) (r.arg 0x18 4) calLen img
      let b := x.2
      if !x.1 then b
      else if hostStatus img ≠ 0 then b.answerCmd c (hostStatus img) []
      else if hostEp img then ((b.hubPoison 0 0xB3).flag Reg.calErr 1).answerCmd c 0xB3 []
      else if calOk b.sec.otp.serial b.sec.kCal (hostBytes img calLen) then begin b (hostBytes img calLen)
      else (b.flag Reg.calErr 1).answerCmd c 0xB3 [])

/-- CAL_WRITE_DONE: the flash write ends: the set stands in its slot and measurement 10 is its digest, or it is lost and the command is
answered CAL_WRITE_FAIL (R412). -/
def calWriteDone (b : Blk) (ok : Bool) : Blk :=
  match b.pwr.calWriting with
  | none => b
  | some (c, bs) =>
    if b.dead then b
    else
      let b1 : Blk := { b with pwr.calWriting := none }
      if ok then
        ({ b1 with sec.meas := mput b1.sec.meas 10 (sha256 bs) }.setReg Reg.calWriteCount (BitVec.ofNat 32 (calCountOf bs))).answerCmd c 0 []
      else (b1.flag Reg.calErr 2).answerCmd c 0xB4 []

/-- The flash after CAL_WRITE_DONE. -/
def Blk.calFlash (b : Blk) (m : Cells) (ok : Bool) : Cells :=
  match b.pwr.calWriting, calSlot m with
  | some (_, bs), some o => if b.dead then m else if ok then b.flashWrite m o bs else calErase m
  | _, _ => m

end Sys2Proof.Machine
end

