-- ==== Sys2Proof/Machine/Boot.lean ====
section
/-! DEFINITION. The boot chain, the reset kinds, training at reset, and management resets (R41 to R45, R80, R325, R352, R371 to R374,
R376, R377, R379, R394, R406 to R411). -/

namespace Sys2Proof.Machine

/-! ## The boot chain (R371, R372, R376, R377, R408) -/

/-- The calibration set read and checked before order 1 (R408, R411). -/
def Blk.readCal (b : Blk) (m : Cells) : Blk :=
  let kCal := Config.kCal (b.sec.readUds.getD [])
  let slot := (calSlot m).map (fun o => cread m o calLen)
  let b1 : Blk := { b with sec.kCal := kCal }
  let b2 := match slot with
    | some s => b1.setReg Reg.calWriteCount (BitVec.ofNat 32 (calCountOf s))
    | none => b1
  match slot.filter (calOk b.sec.otp.serial kCal) with
  | some s => { b2 with pwr.calSet := some s, pwr.calLost := false, sec.meas := mput b2.sec.meas 10 (sha256 s) }
  | none => ({ b2 with pwr.calSet := none, pwr.calLost := true }.flag Reg.calErr 0).log 0x17 0xFF 0 0 0

/-- Recovery (R372). -/
def Blk.recover (b : Blk) : Blk := { b.flag Reg.secErr 0 with sec.recovery := true, pins.devFault := true }

/-- Order 6: the full structure image of the flash is to be loaded, once every Husk channel has read its SPD and trained, since order 4 of
R62 needs C (R80, R371); a zeroised controller loads none (R389). DESIGN CHOICE (log entry 57). -/
def Blk.bootLoad (b : Blk) (m : Cells) : Blk :=
  if b.sec.zeroised then b else { b with str.boot := some ((flashObj m 4).getD []) }

/-- The flash image loaded that has waited for the Husk channels, once every channel has trained or is lost (R62, R80). -/
def Blk.bootLoadNow (b : Blk) : Blk :=
  match b.str.boot with
  | none => b
  | some img => if b.allTrained then ({ b with str.boot := none }.load img img.length).2 else b

/-- The private number of the DeviceID key: from UDS alone, with HKDF-SHA-256 (R377). -/
def deviceKeyOf (uds : Bytes) : Nat := Config.deviceScalar (hkdf256 [] uds Config.deviceInfo 32)

/-- The compound device identifier: HMAC-SHA-256 under UDS of the firmware's digest (R371). -/
def cdiOf (uds fwDigest : Bytes) : Bytes := hmac256 uds fwDigest

/-- The Alias certificate: what it holds, and the signature of the DeviceID key over it, with the n-th random draw as nonce (R377). -/
def aliasCert (deviceKey aliasKey n : Nat) (fwDigest : Bytes) (svn : Nat) : Bytes :=
  let body := Config.aliasBody (ecPublic aliasKey) fwDigest svn
  body ++ ecdsaSign deviceKey (sha256 body) (beNat (Config.random n))

/-- Orders 3 to 6 with a verified firmware image: measurements, the DeviceID key and the CDI from UDS, which then closes, the Alias key from the
CDI and its certificate, the owner manifest and the structure (R371, R377). -/
def Blk.bootGo (b : Blk) (m : Cells) (vendor fw : Bytes) : Blk :=
  let d := b.draw
  let fh := sha256 fw
  let svn := u8 fw 6
  let uds := b.sec.readUds.getD []
  let cdi := cdiOf uds fh
  let dk := deviceKeyOf uds
  let ak := Config.aliasScalar cdi
  let b1 : Blk := { d.2 with
    sec.svn := svn
    sec.meas := mput (mput (mput b.sec.meas 1 Config.romDigest) 2 fh) 4 (sha256 vendor)
    sec.udsOpen := false
    sec.deviceKey := some dk
    sec.cdi := some cdi
    sec.aliasKey := some ak
    sec.chain := (flashObj m 6).getD [] ++ aliasCert dk ak d.1 fh svn
    mgmt.fwImage := fw }
  match (flashObj m 3).filter (fun o => b.sec.otp.ownerSet && ownerOk b.sec.otp.ownerHash o) with
  | none => { b1.flag Reg.secErr 0 with sec.ownerless := true }
  | some o =>
    let b2 : Blk := { b1 with
      sec.ownerless := false
      sec.structKeys := [sl o 0x80 64, sl o 0xC0 64]
      sec.witnessKey := sl o 0x100 64
      sec.debugKey := sl o 0x140 64
      sec.meas := mput b1.sec.meas 5 (sha256 (o ++ b.sec.otp.ownerHash)) }
    b2.bootLoad m

/-- The boot chain of a cold or warm reset (R371). -/
def Blk.boot (b : Blk) (m : Cells) : Blk :=
  match (flashObj m 1).filter (vendorOk b.sec.otp) with
  | none => b.recover
  | some v =>
    let b1 : Blk := { b with sec.fwKey := sl v 0x40 64 }
    match (flashObj m 2).filter (firmwareOk b.sec.otp.minSvn b1.sec.fwKey) with
    | none => b1.recover
    | some fw => b1.bootGo m v fw

/-! ## Cold and warm resets (R406 to R408) -/

/-- A channel of the Husk tier as a reset leaves it: its SPD is to be read again (R80), and the corrected lines of R341 are those since the
last cold reset. -/
def resetHusk (cold : Bool) (t : Tab HuskChan) : Tab HuskChan :=
  if cold then []
  else (t.map (fun (e : Nat × HuskChan) => (e.1, ({ corr := e.2.corr } : HuskChan)))).filter (fun e => e.2 ≠ {})

/-- The security block as a reset leaves it: the OTP bits are read again, and KEK with them; BOOT_ID is new (R368, R383). -/
def resetSec (o : Otp) (bootId : Bytes) : Sec := { otp := o, kek := if o.ownerSet then o.kek else [], bootId := bootId }

/-- What every cold and warm reset leaves, before the boot chain: every register at its Reset value, every window, task, lease and pool
line gone (R407). DESIGN CHOICE (log entry 87): HA0_LEASE_EXPIRED_CNT is one of them at a warm reset too, though R103 calls it a count since
cold reset. f: the SFDP of the flash, from which its commands are selected (R451). links: what the ports have sent. -/
def Blk.resetAll (b : Blk) (o : Otp) (f : Sfdp) (cause : Nat) (links : Tab Link) : Blk :=
  let d0 := b.draw; let d1 := d0.2.draw
  let n : Blk :=
    { tb := b.tb, frozen := b.frozen, fresh := d1.2.fresh
      aon := if b.hub.out.isEmpty then b.aon else (b.aonAdd 231 b.hub.out.length).aon
      pins := { b.pins with devFault := b.pwr.trip, devReady := false, drst := [] }
      chans := { husk := resetHusk (cause != 3 && cause != 4) b.chans.husk }
      fab := { links := links, d2dFailed := if cause = 3 || cause = 4 then b.fab.d2dFailed else [] }
      pair := { pins := 3 }
      rings := { dumpAt := b.tb, dumpSeq := if cause = 3 || cause = 4 then b.rings.dumpSeq else 0 }
      sec := resetSec o (fit 8 (Config.random d0.1))
      mgmt := { wdAt := b.tb, spi := f }
      pwr := { temps := b.pwr.temps, scanAt := b.pwr.scanAt, warn := b.pwr.warn, trip := b.pwr.trip, vcore := b.pwr.vcore, cause := cause } }
  let n1 := n.setReg Reg.hubPcieStatus (BitVec.ofNat 32 (Config.pcieLink d1.1 % 128))
  let n2 := n1.setReg Reg.pwrResetCause (BitVec.ofNat 32 cause)
  n2.setReg Reg.pwrVcore (putField (n2.reg Reg.pwrVcore) 0 10 b.pwr.vcore)

/-- Ports that stay in DISABLED after a boot that ends in recovery (R372). -/
def Blk.stopPorts (b : Blk) : Blk :=
  if b.portsOff then (List.range 48).foldl (fun b n => b.modLink n (fun k => { k with state := .disabled })) b else b

/-- Does a cold reset begin: RESET_N acts only while the rails are on (R394, R406). -/
def Blk.coldActs (b : Blk) (cause : ColdCause) : Bool := cause == .powerUp || b.pwr.on

/-- COLD_RESET: the timebase and the always-on counters restart, and everything is read again (R406, R407). The input rising through
60 V after a lockout has cause 5. The SMBus straps are sampled (R449). m: the flash as the reset leaves it. -/
def coldReset (b : Blk) (o : Otp) (f : Sfdp) (m : Cells) (cause : ColdCause) : Blk :=
  let c := match cause with
    | .powerUp => if b.pwr.on then 1 else 5
    | .resetN => 2
  if !b.coldActs cause then b
  else
    let d := b.draw
    let b1 : Blk := { d.2 with
      tb := 0, frozen := false, aon := [], hub.out := []
      pins := { b.pins with straps := Config.straps d.1 % 4 }
      pwr := { b.pwr with vcore := 750, temps := [], scanAt := none, warn := false, trip := if cause == .powerUp then false else b.pwr.trip } }
    (((b1.resetAll o f c []).readCal m).boot m).stopPorts

/-- A port in UP is closed before a warm reset begins (R286, R406); what it has sent stays sent. -/
def Blk.closeForReset (b : Blk) : Tab Link :=
  ((List.range 48).map (fun n => (n, (b.beginClose n).link n))).foldl (fun t e =>
    tset (fun _ => {}) t e.1 { stageAt := b.tb, out := e.2.out }) []

/-- Does a warm reset begin: the delayed start of PWR_WARM_RESET comes when its time has come, and in OFF only a cold reset has an effect
(R402, R406). -/
def Blk.warmActs (b : Blk) (cause : WarmCause) : Bool :=
  let due := match cause with
    | .pin => true
    | .command => match b.pwr.warm with
      | some t => decide (t ≤ b.tb)
      | none => false
  b.pwr.on && b.pwr.state != 4 && due

/-- WARM_RESET: as a cold reset, but the timebase, the always-on counters, the VCORE setpoint, the Guard set with LAST, the debug level,
the zeroised state, IDE REQUIRE and the pair's TERM are kept (R406, R407). The die-to-die links that have failed stay failed (R33), so that a
device whose quadrant they cut off is lost again (R35). m: the flash as the reset leaves it. -/
def warmReset (b : Blk) (o : Otp) (f : Sfdp) (m : Cells) (cause : WarmCause) : Blk :=
  if !b.warmActs cause then b
  else
    let c := if cause == .pin then 3 else 4
    let b1 := b.resetAll o f c b.closeForReset
    let meas8 := (mget b.sec.meas 8).map (fun h => [(8, h)])
    let b2 : Blk := { b1 with
      sec.guard := b.sec.guard, sec.last := b.sec.last, sec.meas := meas8.getD [], sec.debug := b.sec.debug
      sec.zeroised := b.sec.zeroised, sec.kek := if b.sec.zeroised then [] else b1.sec.kek
      str.locked := b.sec.guard.isSome
      pins.devFault := b1.pins.devFault || b.sec.zeroised
      pair.term := b.pair.term }
    let b3 := if b.ideRequired then b2.flag Reg.secIdeCfg 0 else b2
    let b4 := ((b3.readCal m).boot m).stopPorts
    if b4.d2dLost then b4.loseDevice else b4

/-- HOST_PORT_RESET: an FLR of every function, the configuration space reset, and the link trained again (R406, R407). -/
def hostPortReset (b : Blk) : Blk :=
  if b.dead then b
  else
    let d := b.flrPf0.draw
    d.2.setReg Reg.hubPcieStatus (BitVec.ofNat 32 (Config.pcieLink d.1 % 128))

/-- Is an input voltage, mV, one at which every rail is off (R394). -/
def lockedOut (mv : Nat) : Bool := mv < 58000 || 84000 < mv

/-- INPUT_LOCKOUT: the input, in mV, below 58 V or above 84 V turns every rail off, and every open-drain output is released (R394,
R448). -/
def inputLockout (b : Blk) (mv : Nat) : Blk :=
  if !lockedOut mv then b
  else { b with
    dead := true
    pins := {}
    pair.pins := 3
    pwr := { b.pwr with on := false, warn := false, trip := false, warm := none, calWriting := none, move := none, vcoreCmd := none }
    mgmt.fwWriting := none }

/-! ## Training and tests at reset (R80, R352, R408) -/

/-- HUSK_TRAINING_DONE: a channel ends its SPD read and its training. It is in service, or lost where it does not train or its DIMMs
are not accepted, or do not hold C or reach the speed of a structure that is loaded (R80, R348). With the last channel the flash image
is loaded that has waited for the SPD (R62). The training of a channel that has trained is a DDR5 retraining: one that fails loses the channel
with cause PHY (R348; DESIGN CHOICE, log entry 85). -/
def huskTrainingDone (b : Blk) (c : Nat) (ds : List Dimm) (trained : Bool) : Blk :=
  if b.dead || (b.husk c).lost then b
  else if (b.husk c).trained then (if trained then b else b.loseChannel c 5)
  else
    let short := b.str.loaded && (dimmsGib ds < b.pool.capGib || dimmsMts ds < speedBins.getD b.pool.speed 4800)
    let b1 := b.modHusk c (fun h => { h with dimms := ds, trained := true, up := true, refreshAt := refreshAfter c b.tb, scrubAt := b.tb })
    (if trained && dimmsOk ds && !short then b1 else b1.loseChannel c 1).bootLoadNow

/-- GRAIN_LAYER_TEST_DONE: a layer ends its test, and is in service or failed (R352, R408). -/
def grainLayerTestDone (b : Blk) (layer : Nat) (ok : Bool) : Blk :=
  if b.dead || b.chans.layersTested.contains layer then b
  else
    let b1 : Blk := { b with chans.layersTested := with1 b.chans.layersTested layer }
    if ok then { b1 with chans.layers := with1 b1.chans.layers layer } else b1.failLayer layer

/-! ## The management controller (R41 to R45, R373) -/

/-- An EXTENT_REVOKE that a management reset ends has no effect (R44): the extent goes back to the state that it drained from, no home agent
has a revocation of it left to take, and its stopped moves and cleaning passes go on. -/
def Blk.undoRevoke (b : Blk) (c : CmdId) : Blk :=
  match b.ext.revCmds.find? (fun x => x.1 == c) with
  | none => b
  | some (_, i) =>
    let b1 := b.setExt i (fun r => { r with state := r.prior })
    let b2 : Blk := { b1 with
      ext.revPend := b1.ext.revPend.filter (fun r => r.2 != .extent i)
      ext.revCmds := b1.ext.revCmds.filter (fun x => x.1 != c) }
    match b2.extEnt i with
    | some e => if b2.str.run.writeBack e then b2 else b2.queueClean i
    | none => b2

/-- A STRUCT_READBACK that a management reset ends has no effect (R44): its writes that wait write no byte, and count in no MOD_COUNT, and a line
that it has written gets back what it held before, where nothing else has written or owns it since. -/
def Blk.undoReadback (b : Blk) : Blk :=
  let own := fun (t : Txn) => t.who == .func 0 && mhas b.mgmt.saved t.line
  let mine := fun (t : Txn) => own t && t.phase == .snoop
  let waits := (b.coh.txns ++ b.coh.queue.map (·.txn)).filter mine
  let void := fun (t : Txn) => match t.op with
    | .wrline bs _ p => if mine t then { t with op := .wrline bs 0 p, who := .dev, counted := false } else if own t then { t with who := .dev } else t
    | _ => t
  let b1 : Blk := { b with coh.txns := b.coh.txns.map void, coh.queue := b.coh.queue.map (fun e => { e with txn := void e.txn })
                           mgmt.saved := [] }
  let b2 := (waits.filter (·.counted)).foldl (fun b t => b.unbump t.line) b1
  (b.mgmt.saved.filter (fun e => !waits.any (fun t => t.line == e.1))).foldl (fun b e =>
    if b.storedBytes e.1 == e.2.2.2 && (b.ownerOf e.1).isNone then
      (b.unbump e.1).beginTxn (newTxn e.1 (.wrline e.2.1 (BitVec.allOnes 128) e.2.2.1) .dev 0 0 ⟨0, true, b.partOf e.1, 0⟩ none)
    else b) b2

/-- A command in progress at a management reset ends MGMT_RESTARTED, and what it had begun is undone, but for the entry into HOLD and
for a STRUCT_COMMIT (R44, R399). A flash write that it cuts short leaves its slot erased (R373, R412). -/
def Blk.mgmtRestart (b : Blk) (r : CmdRec) : Blk :=
  let c := r.id
  if r.op = 0x12 then
    if (b.str.commit.map (·.cmd)) == some c || b.mgmt.reanswer == some c then { b with mgmt.reanswer := some c }
    else { b with str.staged := none, str.last := 0x0D }.answerCmd c 0x0D []
  else if r.op = 0x40 && (b.pwr.move.map (fun m => m.cmd == c && m.state == 3)).getD false then b
  else
    let b1 : Blk := if r.op = 0x40 && (b.pwr.move.map (·.cmd)) == some c then { b with pwr.move := none } else b
    let b2 : Blk := match b1.pwr.vcoreCmd with
      | some (k, old, _) => if k == c then { b1 with pwr.vcoreCmd := none, pwr.vcore := old } else b1
      | none => b1
    let b3 : Blk := match b2.pwr.calWriting with
      | some (k, _) => if k == c then { b2 with pwr.calWriting := none } else b2
      | none => b2
    let b3 : Blk := match b3.mgmt.fwWriting with
      | some (k, _) => if k == c then { b3 with mgmt.fwWriting := none } else b3
      | none => b3
    let b4 := if r.op = 0x14 && r.started then b3.undoReadback else b3
    (b4.undoRevoke c).answerCmd c 0x76 []

/-- The failed state (R45): DEV_FAULT_N, no Heartbeats, fenced at once. -/
def Blk.mgmtFail (b : Blk) : Blk := { b with mgmt.failed := true, pins.devFault := true }.becomeFenced

/-- The firmware loaded again from the slot and verified (R373). -/
def Blk.reloadFw (b : Blk) (m : Cells) : Option Bytes := (flashObj m 2).filter (firmwareOk b.sec.otp.minSvn b.sec.fwKey)

/-- The firmware that a management reset starts: measurement 2, and FW_SWITCH where the digest has changed (R373). -/
def Blk.startFw (b : Blk) (fw : Bytes) : Blk :=
  let old := mget b.sec.meas 2
  let b1 : Blk := { b with sec.meas := mput b.sec.meas 2 (sha256 fw), sec.svn := u8 fw 6, mgmt.fwImage := fw }
  if old == some (sha256 fw) then b1 else (b1.flag Reg.secErr 1).log 0x16 0xFF 0 0 (u8 fw 6)

/-- May a management reset begin. -/
def Blk.mgmtActs (b : Blk) : Bool := !(b.dead || b.mgmt.resetting || b.mgmt.failed || b.sec.recovery)

/-- Has a period of the watchdog passed since it last started anew (R42): 100 ms of the timebase, which stands still while its reference is
lost (R418). When the firmware services it is not shown: that a period passes without a service is what the row says, log 3. -/
def Blk.wdDue (b : Blk) : Bool := !b.frozen && decide (b.mgmt.wdAt + 100000000 ≤ b.tb)

/-- A management reset begins (R43, R44): cause 1 watchdog, 2 ECC. One within 1 s of the end of the last, or whose firmware does not
verify, leads to the failed state (R45, R373). While one runs, in recovery or after a failure it changes nothing more. -/
def Blk.mgmtReset (b : Blk) (m : Cells) (cause : Nat) : Blk :=
  if !b.mgmtActs then b
  else
    let b1 := (b.aonAdd 214 1).log 0x1B 0xFF 0 0 cause
    let b2 := (b1.hub.inProg.filter (fun r => isMgmt r.op)).foldl Blk.mgmtRestart b1
    let b3 : Blk := { b2 with mgmt.fetched := [], mgmt.wdAt := b2.tb }
    let soon := match b3.mgmt.ended with
      | some t => decide (b3.tb ≤ t + 1000000000)
      | none => false
    if soon then b3.mgmtFail
    else match b3.reloadFw m with
      | none => b3.mgmtFail
      | some fw => { b3.startFw fw with mgmt.resetting := true }

/-- MGMT_ECC_SINGLE_BIT: corrected and counted (R41). -/
def mgmtEccSingleBit (b : Blk) : Blk := if b.dead then b else b.aonAdd 215 1

/-- MGMT_RESET_END: the management controller accepts commands again, and records that waited may be taken (R43, R321). -/
def mgmtResetEnd (b : Blk) : Blk :=
  if b.dead || !b.mgmt.resetting then b
  else { b with
    mgmt.resetting := false
    mgmt.ended := some b.tb
    hub.wins := (b.hub.wins.map (fun (e : Nat × Win) => (e.1, { e.2 with mgmtWait := false }))).filter (fun e => e.2 ≠ {}) }

end Sys2Proof.Machine
end

