-- ==== Sys2Proof/Machine/Router.lean ====
section
/-! DEFINITION. The routers and the injection queues (R36, R102, R235 to R238, R246 to R251, R255, R289,
R290, R299, R300). -/

namespace Sys2Proof.Machine

/-! ## Headers (R237) -/

/-- A field of a header. -/
def hfld (h : BitVec 256) (hi lo : Nat) : Nat := fld h.toNat hi lo

/-- ARG of a header. -/
def hdrArg (h : BitVec 256) : BitVec 96 := BitVec.ofNat 96 (hfld h 223 128)

/-- HOPS of a header. -/
def hdrHops (h : BitVec 256) : Nat := hfld h 77 72

/-- The header with HOPS one higher (R238). -/
def hopOn (h : BitVec 256) : BitVec 256 :=
  BitVec.ofNat 256 (h.toNat - hdrHops h * 2 ^ 72 + (hdrHops h + 1) % 64 * 2 ^ 72)

/-- The pool messages that eject at the home agent of ADDR (R240). -/
def poolTypes : List Nat := [0x03, 0x04, 0x40, 0x41, 0x42, 0x43, 0x44, 0x45, 0xC0, 0xC1, 0xC2, 0xC3, 0xC4, 0xC5, 0xC6]

/-- Where a message for SELF ejects (R240): a quadrant, or none for the hub. -/
def ejectAt (q : Nat) (h : BitVec 256) : Option Nat :=
  let ty := hfld h 15 8
  let arg := (hdrArg h).toNat
  if poolTypes.contains ty then some (homeOf (lineOf (arg % 2 ^ 48)))
  else if ty = 0xD0 || ty = 0xD6 then some 0
  else if ty = 0xD1 then some (let t := fld arg 51 48; if t < 4 then t else 0)
  else if ty = 0xD5 then some (arg % 256 / 64)
  else if ty = 0x4C || ty = 0x4D then none
  else some q

/-! ## Outputs (R247, R248, R251, R277, R300) -/

/-- May an external port take a new worm of a partition and of some flits now. -/
def Blk.portFree (b : Blk) (n part flits : Nat) : Bool :=
  let k := b.link n
  k.state == .up && !k.asked && k.held.length ≤ 1527 && !b.outHeld n && b.gateFits n part (flits * 756)

/-- The ports of a destination's spray set whose links are UP, rising (R247); none where it has no EID entry. -/
def Blk.sprayUp (b : Blk) (q dst : Nat) : Option (List Nat) :=
  let s := b.view (.router (Fin.ofNat 4 q))
  (mget s.eids dst).map (fun e =>
    let ports := (mget s.sprays e.spray).getD 0
    (List.range 48).filter (fun p => ports.getLsbD p && (b.link p).state == .up))

/-- The preferred port of a packet, with the ports of its set from there on in rotation (R247). -/
def spread (ps : List Nat) (i : Nat) : List Nat := ps.drop (i % ps.length) ++ ps.take (i % ps.length)

/-- Has the ejection queue of a quadrant or of the hub (4) room for a worm (R251): the REQ queue is the request queue of the home agent, and
every other holds 128 packets. -/
def Blk.ejectRoom (b : Blk) (t : Nat) (h : BitVec 256) : Bool :=
  let resv := if hdrHops h < b.field Reg.nrmHopCfg 8 6 then b.field Reg.nrmHopCfg 16 4 else 0
  let cls := ejClass h
  if cls = 0 then (b.queued.filter (fun e => e.home == t)).length + b.ejHeld t 0 + resv < 2048 else b.ejHeld t cls + resv < 128

/-- A deflection counted (R248). -/
def Blk.countDeflect (b : Blk) (q : Nat) (port : Option Nat) : Blk :=
  let b1 := ((b.incr (Reg.nrmDeflectCnt q)).aonAdd 210 1).event (60 + q) 1 none
  match port with
  | some p => b1.incr (Reg.nrmDeflectOutCnt p)
  | none => b1

/-- A worm that may not take its preferred output (R248): to the first free port of a set on this quadrant, else the first free
die-to-die link, else the first free port that accepts deflections; with none it is discarded. -/
def Blk.deflect (b : Blk) (q : Nat) (h : BitVec 256) (part flits : Nat) (set : List Nat) : Blk × RouterOut × BitVec 256 :=
  match set.find? (fun p => p / 12 == q && b.portFree p part flits) with
  | some p => (b.countDeflect q (some p), .ext p, hopOn h)
  | none => match (List.range 4).find? (fun t => b.meshFree q t) with
    | some t => (b.countDeflect q none, .d2d t, hopOn h)
    | none => match ((List.range 12).map (fun i => 12 * q + i)).find? (fun p =>
        (b.reg (Reg.nrmPortCtl p)).getLsbD 0 && b.portFree p part flits) with
      | some p => (b.countDeflect q (some p), .ext p, hopOn h)
      | none => ((b.incr (Reg.nrmDropNooutCnt q)).flag (Reg.nrmRtErr q) 2, .drop, h)

/-- A worm on its way to another quadrant: the die-to-die link to it or to the first die of its detour, where the link is free (R33, R36). -/
def Blk.toward (b : Blk) (q t : Nat) (h : BitVec 256) (part flits : Nat) (set : List Nat) : Blk × RouterOut × BitVec 256 :=
  match b.d2dNext q t with
  | some x => if b.meshFree q x then (b, .d2d x, hopOn h) else b.deflect q h part flits set
  | none => b.deflect q h part flits set

/-- A worm for an ejection queue that a router gives an entry to, or that is deflected where it finds none (R251). -/
def Blk.ejectTo (b : Blk) (q t : Nat) (h : BitVec 256) (part flits : Nat) (o : RouterOut) : Blk × RouterOut × BitVec 256 :=
  if b.ejectRoom t h then (b, o, h) else (b.incr (Reg.nrmEjectFullCnt q)).deflect q h part flits []

/-- Where a router sends a worm head (R235, R247, R248, R250, R251): the output, and the header as it leaves. part and flits: the worm's
partition and length for the gates. -/
def Blk.routeHead (b : Blk) (q : Nat) (h : BitVec 256) (part flits : Nat) : Blk × RouterOut × BitVec 256 :=
  if b.field Reg.nrmHopCfg 0 6 ≤ hdrHops h then
    (((b.incr (Reg.nrmDropHopCnt q)).flag (Reg.nrmRtErr q) 0).aonAdd 211 1, .drop, h)
  else
    let dst := hfld h 31 16
    let self := (b.view (.router (Fin.ofNat 4 q))).self
    if self ≠ 0 && dst = self then
      match ejectAt q h with
      | some t => if t = q then b.ejectTo q q h part flits (.eject q) else b.toward q t h part flits []
      | none =>
        if !b.d2dOk q 4 then b.toward q 4 h part flits []
        else if b.meshFree q 4 then b.ejectTo q 4 h part flits .hub
        else b.deflect q h part flits []
    else match b.sprayUp q dst with
      | none => (b.noRoute q, .drop, h)
      | some [] => (b.noRoute q, .drop, h)
      | some ps =>
        let r := spread ps (hfld h 63 48 + hfld h 71 64)
        let p := r.headD 0
        if p / 12 ≠ q then b.toward q (p / 12) h part flits (r.drop 1)
        else if b.portFree p part flits then (b, .ext p, hopOn h)
        else b.deflect q h part flits (r.drop 1)

/-- A whole worm put on a port: its HEAD and DATA flits (R273). -/
def Blk.sendWorm (b : Blk) (p : Nat) (h : BitVec 256) (payload : Bytes) (part : Nat) (req : Option (Nat × Nat)) : Blk :=
  let b1 := b.putFlit p 0x1 (toLe 32 h.toNat) req
  let b2 := (List.range (hdrFlits h)).foldl (fun b i => b.putFlit p 0x2 (sl payload (32 * i) 32) req) b1
  (b2.countTx p part).closeStep p

/-- Does SRC_CHECK stop a packet that came on a port (R236). -/
def Blk.srcBad (b : Blk) (n : Nat) (h : BitVec 256) : Bool :=
  let s := b.view (.router (Fin.ofNat 4 (n / 12)))
  (b.reg (Reg.nrmPortCtl n)).getLsbD 1 &&
  !(((mget s.eids (hfld h 47 32)).bind (fun e => mget s.sprays e.spray)).getD 0).getLsbD n

/-- WORM_HEAD_ROUTE at an external port: the first accepted head that has not been routed. Its worm holds its output until the tail;
the DATA flits that have come follow at once. -/
def Blk.routeExt (b : Blk) (q n : Nat) : Blk :=
  let k := b.link n
  match k.rx.find? (fun p => !p.routed) with
  | none => b
  | some p =>
    let flits := hdrFlits p.hdr
    let x := if b.srcBad n p.hdr then (b.incr (Reg.nrmDropSrcCnt n), RouterOut.drop, p.hdr) else b.routeHead q p.hdr 0 (flits + 1)
    let b1 := x.1.modLink n (fun k => { k with rx := k.rx.filterMap (fun r =>
      if r = p then (if p.left = 0 then none else some { p with routed := true, body := [] }) else some r) })
    let b2 := match x.2.1 with
      | .ext o =>
        let c := b1.putFlit o 0x1 (toLe 32 x.2.2.toNat) none
        if flits = 0 then c.countTx o 0 else c
      | o => if flits = 0 then b1.deliver q o { hdr := x.2.2, payload := [] } else b1
    if flits = 0 then b2
    else
      let b3 : Blk := { b2 with fab.holds := b2.fab.holds ++ [{ port := n, out := x.2.1, flits := flits, hdr := x.2.2 }] }
      p.body.foldl (fun b f => b.forward n f) b3

/-- A worm put whole on the output that a router has given it. -/
def Blk.putWorm (b : Blk) (q : Nat) (o : RouterOut) (w : Worm) : Blk :=
  match o with
  | .ext p => b.sendWorm p w.hdr w.payload w.part w.req
  | o => b.deliver q o w

/-- A worm that a die-to-die link or the hub link (4) has brought routed on: one that waits at the input is taken from it. -/
def Blk.routeWorm (b : Blk) (q src : Nat) (k : Packet) : Blk :=
  let e := b.fab.arr.find? (fun a => a.quad == q && a.src == src && a.worm.hdr == k.hdr && a.worm.payload == k.payload)
  let w : Worm := (e.map (·.worm)).getD { hdr := k.hdr, payload := k.payload }
  let b1 : Blk := match e with
    | some a => { b with fab.arr := b.fab.arr.erase a }
    | none => b
  let x := b1.routeHead q w.hdr w.part (hdrFlits w.hdr + 1)
  x.1.putWorm q x.2.1 { w with hdr := x.2.2 }

/-- A router input by its index (R248): an external port, a die-to-die link by quadrant, or the hub link. -/
def inputIndex : RouterIn → Nat
  | .ext p => p.val
  | .d2d s _ => 12 + s.val
  | .hub _ => 16

/-- The order of a head among those of one router (R248): the highest HOPS first, then the lowest input index. -/
def headKey (h : BitVec 256) (input : Nat) : Nat := (63 - hdrHops h) * 32 + input

/-- The heads that wait at the inputs of a router, oldest first, by their keys (R248): at each input the first that has no output. -/
def Blk.heads (b : Blk) (q : Nat) : Map RouterIn :=
  let ext := (List.finRange 12).filterMap (fun p =>
    ((b.link (12 * q + p.val)).rx.find? (fun r => !r.routed)).map (fun r => (headKey r.hdr p.val, RouterIn.ext p)))
  let mesh := (List.range 5).filterMap (fun s =>
    (b.fab.arr.find? (fun a => a.quad == q && a.src == s)).map (fun a =>
      let k : Packet := ⟨a.worm.hdr, a.worm.payload⟩
      let i : RouterIn := if h : s < 4 then .d2d ⟨s, h⟩ k else .hub k
      (headKey a.worm.hdr (inputIndex i), i)))
  (ext ++ mesh).foldl (fun m e => mput m e.1 e.2) []

/-- One head assigned its output. -/
def Blk.routeOne (b : Blk) (q : Nat) (i : RouterIn) : Blk :=
  match i with
  | .ext p => b.routeExt q (12 * q + p.val)
  | .d2d s k => b.routeWorm q s k
  | .hub k => b.routeWorm q 4 k

/-- The heads of a router that are older than a key assigned their outputs, oldest first (R248). -/
def Blk.routeOlder (b : Blk) (q key : Nat) : Blk :=
  ((b.heads q).filter (fun e => e.1 < key)).foldl (fun b e => b.routeOne q e.2) b

/-- The key of the head that a command names, where one stands there. -/
def Blk.keyOf (b : Blk) (q : Nat) (i : RouterIn) : Option Nat :=
  match i with
  | .ext p => ((b.link (12 * q + p.val)).rx.find? (fun r => !r.routed)).map (fun r => headKey r.hdr (inputIndex i))
  | .d2d _ k => some (headKey k.hdr (inputIndex i))
  | .hub k => some (headKey k.hdr (inputIndex i))

/-- WORM_HEAD_ROUTE: a worm head at a router input is assigned its preferred output or deflected, and before it every older head that waits
at an input of the router (R235, R236, R247, R248, R250). -/
def wormHeadRoute (b : Blk) (q : Nat) (i : RouterIn) : Blk :=
  if b.dead then b
  else match b.keyOf q i with
    | none => b
    | some key => (b.routeOlder q key).routeOne q i

/-! ## Injection (R246, R248, R289, R290, R299, R300) -/

/-- The packets of a message (R239). -/
def Msg.packets (m : Msg) : Nat := if m.ty = 0x06 then (m.payload.length + 255) / 256 else 1

/-- The payload of the next packet of a message. -/
def Msg.chunk (m : Msg) : Bytes := if m.ty = 0x06 then sl m.payload (256 * m.psn) 256 else m.payload

/-- E2E_CRC of a packet (R237). -/
def e2eCrc (h : BitVec 256) (payload : Bytes) : Nat :=
  let z := h.toNat - hdrHops h * 2 ^ 72
  (crc32 (toLe 28 z ++ payload)).toNat

/-- The header of the next packet of a message from an EID (R237, R238, R239). -/
def Msg.header (m : Msg) (self : Nat) : BitVec 256 :=
  let pl := m.chunk
  let i := if m.ty = 0x06 then 2 * m.psn else 0
  let h := headLow m.ty m.dst self m.msgId m.psn pl.length m.traceId (m.psn + 1 == m.packets) (m.poisons.getD i false)
    (m.ty == 0x06 && m.poisons.getD (i + 1) false) + m.status * 2 ^ 112 + m.load * 2 ^ 120 + m.arg.toNat * 2 ^ 128
  let hb : BitVec 256 := BitVec.ofNat 256 h
  BitVec.ofNat 256 (h + e2eCrc hb pl * 2 ^ 224)

/-- Is a message shaped: not a snoop, and not of the MGMT class (R289). -/
def Msg.shaped (m : Msg) : Bool := !(0x80 ≤ m.ty && m.ty ≤ 0x83) && tcOf m.ty != 3

/-- Does the shaper of a message let its next packet enter (R290). -/
def Blk.shaperOpen (b : Blk) (m : Msg) : Bool :=
  !m.shaped || (match b.shaperLevel m.dst (tcOf m.ty) with
    | some v => decide (0 < v)
    | none => true)

/-- What the next packet of a message may do now: leave on a port of the quadrant, cross to another quadrant, find no route, or
wait. -/
inductive InjectNow | port (p : Nat) | cross (q : Nat) | noRoute | wait
  deriving DecidableEq, Repr

/-- The preferred output of the next packet of a message, where it is free (R247, R248). -/
def Blk.injectOut (b : Blk) (q : Nat) (m : Msg) : InjectNow :=
  match b.sprayUp q m.dst with
  | none => .noRoute
  | some [] => .noRoute
  | some ps =>
    let p := ps.getD ((m.msgId + m.psn) % ps.length) 0
    if p / 12 = q then
      if b.portFree p m.part ((m.chunk.length + 31) / 32 + 1) then .port p else .wait
    else match b.d2dNext q (p / 12) with
      | some x => if b.meshFree q x then .cross x else .wait
      | none => .wait

/-- The first message of a list whose next packet may enter: a packet that waits for its shaper holds back those of the same host and
class, and no other (R290). -/
def Blk.injectPick (b : Blk) (q : Nat) : List (Nat × Nat) → List Msg → Option (Msg × InjectNow)
  | _, [] => none
  | held, m :: rest =>
    let k := (m.dst, tcOf m.ty)
    if m.shaped && held.contains k then b.injectPick q held rest
    else if !b.shaperOpen m then b.injectPick q (k :: held) rest
    else match b.injectOut q m with
      | .wait => b.injectPick q held rest
      | o => some (m, o)

/-- The shapers of a quadrant's waiting packets tested (R288), and the packets that wait for their shaper counted once each (R306). -/
def Blk.noteWaits (b0 : Blk) (q : Nat) : Blk :=
  let ms := tget (fun _ => []) b0.fab.inj q
  let b := ms.foldl (fun b m => if m.shaped then b.evalShaper m.dst (tcOf m.ty) else b) b0
  let b1 := (ms.filter (fun m => !m.waited && !b.shaperOpen m)).foldl (fun b m => match b.shaper m.dst (tcOf m.ty) with
    | some (i, r) => b.putTraf i { r with waits := min (r.waits + 1) 0xFFFFFFFF }
    | none => b) b
  { b1 with fab.inj := tset (fun _ => []) b1.fab.inj q (ms.map (fun m => { m with waited := m.waited || !b.shaperOpen m })) }

/-- PACKET_INJECT: transit heads take their outputs first (R248). Then the first packet of a quadrant's injection queue that its shaper, its gate and its output allow enters; it is charged
at that instant, and a message's first packet is traced (R289, R290, R300, R434). -/
def packetInject (b : Blk) (q : Nat) : Blk :=
  if b.dead then b
  else
    let b0 := (b.routeOlder q 2048).noteWaits q
    let ms := tget (fun _ => []) b0.fab.inj q
    match b0.injectPick q [] ms with
    | none => b0
    | some (m, o) =>
      let pl := m.chunk
      let h := m.header (b0.view (.router (Fin.ofNat 4 q))).self
      let req := if 0xC0 ≤ m.ty then some (m.dst, m.msgId) else none
      let left := if m.psn + 1 < m.packets then
          ms.map (fun x => if x = m then { m with psn := m.psn + 1, waited := false } else x)
        else ms.filter (· != m)
      let b2 : Blk := { b0 with fab.inj := tset (fun _ => []) b0.fab.inj q left }
      let adr := if poolTypes.contains m.ty || m.ty ≤ 0x06 || (0x80 ≤ m.ty && m.ty ≤ 0x82) then m.arg.toNat % 2 ^ 48 else 0
      let b1 := if m.psn = 0 then b2.trace
          { source := 3, event := 1, part := m.part, unit := 60 + q, eid := m.dst, traceId := m.traceId, msgId := m.msgId, ty := m.ty,
            a := adr } else b2
      let charge : Blk → Blk := fun b => if m.shaped then b.chargeShaper m.dst (tcOf m.ty) [pl.length] else b
      match o with
      | .port p => (charge b1).sendWorm p h pl m.part req
      | .cross x => (charge b1).deliver q (.d2d x) { hdr := h, payload := pl, part := m.part, req := req }
      | _ => b1.noRoute q

/-- REQUEST_TIMEOUT: a request of the controller has no answer within its time, and ends FAB_TIMEOUT (R255, R256). -/
def requestTimeout (b : Blk) (dst msgId : Nat) : Blk :=
  match b.fab.outReqs.find? (fun r => r.dst == dst && r.msgId == msgId && r.deadline ≤ b.tb) with
  | none => b
  | some r => (({ b with fab.outReqs := b.fab.outReqs.filter (· != r), fab.ended := b.fab.ended ++ [(dst, msgId, 0x61)] }).incr
      (Reg.nrmReqTimeoutCnt r.home)).flag (Reg.nrmRtErr r.home) 7

/-- REORDER_TIMEOUT: a reorder context times out (R253). -/
def reorderTimeout (b : Blk) (q src msgId : Nat) : Blk :=
  match b.fab.ctxs.find? (fun c => c.home == q && c.src == src && c.msgId == msgId && c.openedAt + c.timeoutUs * 1000 ≤ b.tb) with
  | none => b
  | some c => ((({ b with fab.ctxs := b.fab.ctxs.filter (· != c) }).incr (Reg.nrmCtxTimeoutCnt q)).flag (Reg.nrmRtErr q) 5).aonAdd 213 1

end Sys2Proof.Machine
end

