-- ==== Sys2Proof/Machine/Sample.lean ====
section
/-! DEFINITION. The queue samplers (R304 to R306). -/

namespace Sys2Proof.Machine

/-- A sampler slot. -/
def Blk.smp (b : Blk) (i : Nat) : Sampler := tget (fun _ => {}) b.traf.smp i

/-- The fields of a sampler's queue word: TYPE, QUAD, UNIT, PART, ALL, ENABLE (R306). -/
def Sampler.ty (s : Sampler) : Nat := fld s.queue.toNat 3 0
/-- QUAD. -/
def Sampler.quad (s : Sampler) : Nat := fld s.queue.toNat 5 4
/-- UNIT. -/
def Sampler.unit (s : Sampler) : Nat := fld s.queue.toNat 11 6
/-- PART. -/
def Sampler.part (s : Sampler) : Nat := fld s.queue.toNat 17 12
/-- ALL. -/
def Sampler.all (s : Sampler) : Bool := s.queue.getLsbD 18

/-- Does a slot sample: it is enabled, and its TYPE and UNIT name a queue (R304). -/
def Sampler.on (s : Sampler) : Bool :=
  s.queue.getLsbD 19 && (match s.ty with
    | 0 | 1 | 6 => s.unit == 0
    | 2 => s.unit < 12
    | 3 | 4 => s.unit < 6
    | 5 => s.unit < 32
    | _ => false)

/-- The packets of an injection queue that a message still has to send: their partition and when they entered, with the place of each in its
message. -/
def Msg.waiting (m : Msg) : List (Nat × Nat × Nat) := (List.range (m.packets - m.psn)).map (fun j => (m.psn + j, m.part, m.at_))

/-- The preferred port of a packet of a message: the port of its place in the spray set (R247). -/
def Blk.packetPort (b : Blk) (q : Nat) (m : Msg) (psn : Nat) : Option Nat :=
  match b.sprayUp q m.dst with
  | some (p :: ps) => some ((p :: ps).getD ((m.msgId + psn) % (ps.length + 1)) 0)
  | _ => none

/-- The entries of the queue that a slot names, but for a Grain channel: the partition of each and when it entered. -/
def Blk.smpEntries (b : Blk) (s : Sampler) : List (Nat × Nat) :=
  let q := s.quad
  let husk := fun (t : Tab (List HuskWait)) => (t.map (fun (e : Nat × List HuskWait) => e.2.map (fun x => (e.1, x.at_)))).flatten
  match s.ty with
  | 0 => (b.queued.filter (fun e => e.home == q)).map (fun e => (e.txn.part, e.at_))
  | 1 => ((tget (fun _ => []) b.fab.inj q).map (fun m => m.waiting.map (·.2))).flatten
  | 2 => ((tget (fun _ => []) b.fab.inj q).map (fun m =>
      (m.waiting.filter (fun w => b.packetPort q m w.1 == some (12 * q + s.unit))).map (·.2))).flatten
  | 3 => husk (b.husk (6 * q + s.unit)).reads
  | 4 => husk (b.husk (6 * q + s.unit)).writes
  | 6 => (b.readyQ q).map (fun e => (((mget b.work.sheafs e.1).map (·.part)).getD 0, e.2.2.queuedAt))
  | _ => []

/-- The depth bin of R305. -/
def depthBin (n : Nat) : Nat := if n = 0 then 0 else min 15 (Nat.log2 n + 1)

/-- The delay bin of R305. -/
def delayBin (d : Nat) : Nat := if d < 64 then 0 else min 15 (Nat.log2 d - 5)

/-- A bin raised by 1; it saturates at 0xFFFF_FFFF. -/
def binUp (t : Tab Nat) (i : Nat) : Tab Nat := tmod (fun _ => 0) t i (fun v => min (v + 1) 0xFFFFFFFF)

/-- A depth and a head delay entered in a slot's bins (R305): an empty queue has no delay. -/
def Sampler.note (s : Sampler) (n d : Nat) : Sampler :=
  let s1 : Sampler := { s with depth := binUp s.depth (depthBin n), maxDepth := max s.maxDepth n }
  if n = 0 then s1 else { s1 with delay := binUp s1.delay (delayBin d), maxDelay := max s1.maxDelay (min d 0xFFFFFFFF) }

/-- A slot samples a queue (R305). -/
def Sampler.take (s : Sampler) (es : List (Nat × Nat)) (now : Nat) : Sampler :=
  let mine := es.filter (fun e => s.all || e.1 == s.part)
  s.note mine.length (match mine with
    | [] => 0
    | e :: t => now - (t.map (·.2)).foldl min e.2)

/-- An enabled slot samples its queue; the depth of a Grain channel's queue is a free value (log entry 50). -/
def Blk.sampleSlot (b : Blk) (i : Nat) (s : Sampler) : Blk :=
  if !s.on then b
  else if s.ty = 5 then
    let d := b.draw
    let g := Config.grainQueue d.1
    { d.2 with traf.smp := tset (fun _ => {}) d.2.traf.smp i (s.note g.1 g.2) }
  else { b with traf.smp := tset (fun _ => {}) b.traf.smp i (s.take (b.smpEntries s) b.tb) }

/-- SAMPLE_TICK: at a multiple of the sampling period every enabled slot samples its queue (R305). -/
def sampleTick (b : Blk) : Blk :=
  let p := b.field Reg.trfSampleCfg 0 10 * 1000
  if b.dead || b.traf.smpAt == some b.tb || p = 0 || b.tb % p ≠ 0 then b
  else
    { (mkeys b.traf.smp).dedup.foldl (fun x i => x.sampleSlot i (x.smp i)) b with traf.smpAt := some b.tb }

/-- TRF_SMP_QUEUE written: the selected slot names its queue anew, with clear bins and maxima; reserved bits stay 0 (R305, R306). -/
def smpQueueWrite (b : Blk) (v : Word) : Blk :=
  { b with traf.smp := tset (fun _ => {}) b.traf.smp (b.field Reg.trfSmpSel 0 11) { queue := v &&& 0xFFFFF } }

/-- TRF_SMP_CTL.CLEAR: the selected slot's bins and maxima cleared (R305, R306). -/
def smpClear (b : Blk) : Blk :=
  { b with traf.smp := tmod (fun _ => {}) b.traf.smp (b.field Reg.trfSmpSel 0 11) (fun s => { queue := s.queue }) }

end Sys2Proof.Machine
end

