-- ==== Sys2Proof/Machine/View.lean ====
section
/-! DEFINITION. What a read of a register returns (R22, R23): the registers that show state held elsewhere, block by block, and every other
register as it stands. -/

namespace Sys2Proof.Machine

/-- A word from its fields: each as its lowest bit, width and value. -/
def pack : List (Nat × Nat × Nat) → Nat
  | [] => 0
  | (lo, w, v) :: t => v % 2 ^ w * 2 ^ lo + pack t

/-- A number for a list of flags, bit 0 first. -/
def flagBits : List Bool → Nat
  | [] => 0
  | x :: t => b2n x + 2 * flagBits t

/-- The low or the high word of a 64-bit value. -/
def half (hi : Bool) (v : Nat) : Nat := if hi then v / 2 ^ 32 % 2 ^ 32 else v % 2 ^ 32

/-- A signed number as two's complement of w bits. -/
def twos (w : Nat) (v : Int) : Nat := (BitVec.ofInt w v).toNat

/-! ## Dies, structure, pool (R48, R75, R103 to R105, R129, R365, R366) -/

/-- Does the device accept pool requests and Sheafs: a structure is loaded and the device is not lost. -/
def Blk.ready (b : Blk) : Bool := b.str.loaded && !b.dead

/-- Have the setup phases of a reset gone so far that the links between the dies are up: the manual gives them no event of their own, and
they are up with the first Husk channel or Grain layer that has ended its setup (R48, R408). DESIGN CHOICE (log entry 13). -/
def Blk.begun (b : Blk) : Bool :=
  b.str.loaded || !b.chans.layersTested.isEmpty || b.chans.husk.any (fun h => h.2.trained || h.2.lost)

/-- The QD registers of a quadrant (R48). -/
def Blk.viewQd (b : Blk) (q o : Nat) : Option Nat :=
  match o with
  | 0x000 => some (pack [(0, 2, q), (8, 8, 0xB0)])
  | 0x004 => some (pack [(0, 6, flagBits ((List.range 6).map (fun k => b.gated (6 * q + k)))),
      (6, 6, flagBits ((List.range 6).map (fun k => (b.husk (6 * q + k)).up && !(b.husk (6 * q + k)).lost))),
      (12, 4, flagBits ((List.range 4).map (fun k => b.chans.layers.contains (4 * q + k)))),
      (16, 1, b2n b.ready), (17, 1, b2n b.ready)])
  | 0x008 => some (pack [(0, 4, flagBits ((List.range 4).map (fun p => p != q && b.d2dOk q p && !b.dead && b.begun))),
      (4, 1, b2n (b.d2dOk q 4 && !b.dead && b.begun)),
      (8, 4, flagBits ((List.range 4).map (fun p => p != q && !b.d2dOk q p))), (12, 1, b2n !(b.d2dOk q 4))])
  | _ => none

/-- The blocks of a kind that have not ended the running phase (R75). -/
def Blk.phasePending (b : Blk) (mk : Nat → Block) (n : Nat) : Nat :=
  match b.str.commit with
  | none => 0
  | some c => flagBits ((List.range n).map (fun i => (b.phaseBlocks c).contains (mk i) && !c.taken.contains (mk i)))

/-- The STR registers (R75). -/
def Blk.viewStr (b : Blk) (o : Nat) : Option Nat :=
  let staged := ((b.str.staged.map (fun (s : Staged) => s.img.epoch)).getD 0).toNat
  let clearing := (b.str.commit.map (fun c => c.clearing.filter (fun k => !c.cleared.contains k))).getD []
  let recalls := (List.range 4).map (fun q => (b.str.commit.map (fun c => b.recalling c q)).getD false)
  match o with
  | 0x000 => some (pack [(0, 1, b2n b.str.loaded), (1, 1, b2n b.str.locked), (2, 1, b2n b.str.staged.isSome),
      (3, 2, (b.str.commit.map (·.phase)).getD 0), (8, 8, b.str.last)])
  | 0x008 => some (half false b.str.epoch.toNat)
  | 0x00C => some (half true b.str.epoch.toNat)
  | 0x010 => some (half false staged)
  | 0x014 => some (half true staged)
  | 0x018 => some (pack [(0, 24, b.phasePending (fun k => .tiller (Fin.ofNat 24 k)) 24 ||| flagBits ((List.range 24).map (clearing.contains ·))),
      (24, 4, b.phasePending (fun q => .home (Fin.ofNat 4 q)) 4 ||| flagBits recalls), (28, 4, b.phasePending (fun q => .thresher (Fin.ofNat 4 q)) 4)])
  | 0x034 =>
    let p := b.field Reg.strTierSel 0 6
    let t := b.str.run.tier p
    some (pack [(0, 2, t.hint), (2, 1, t.wpolicy), (3, 6, t.cap), (9, 1, b2n (mhas b.str.run.tiers p))])
  | _ => none

/-- The extents of a quadrant that satisfy a condition. -/
def Blk.extsAt (b : Blk) (q : Nat) (p : ExtState → Bool) : Nat :=
  (b.str.run.exts.filter (fun e => e.2.home == q && p (b.extRt e.1).state)).length

/-- The lease of the host that HA[0]_LEASE_SEL names (R103). -/
def Blk.viewLease (b : Blk) : Nat :=
  let eid := b.field (Reg.haLeaseSel 0) 0 16
  match mget b.ext.leases eid with
  | none => pack [(0, 1, b2n (mhas b.str.run.hosts eid))]
  | some l => pack [(0, 1, b2n (mhas b.str.run.hosts eid)), (1, 1, b2n l.live), (2, 1, b2n l.lapsed),
      (8, 24, if l.live then b.msTo l.deadline else 0)]

/-- The agent that HA[0]_AGENT_SEL names (R129). -/
def Blk.viewAgent (b : Blk) : Nat :=
  let eid := b.field (Reg.haAgentSel 0) 0 16
  match mget b.coh.agents eid with
  | none => 0
  | some a => pack [(0, 10, a.index), (10, 1, b2n a.registered), (11, 1, b2n a.suspended), (12, 1, b2n (b.coh.walks.any (·.eid == eid)))]

/-- The HA registers of a quadrant (R103, R129). DESIGN CHOICE (log entry 87): EXT_VERSION and EXT_MODCNT of an extent that is not homed on the
quadrant read 0; the manual says so of EXT_STATE alone. -/
def Blk.viewHa (b : Blk) (q o : Nat) : Option Nat :=
  let i := b.field (Reg.haExtSel q) 0 18
  let here := (b.extEnt i).any (fun e => e.home == q)
  let r := b.extRt i
  let lapsed := fun (g : Nat × Rights) => !grantGroup g.1 && b.ext.dead.contains (q, grantGrantee g.1)
  let all := b.str.run.grantsOf i
  let gs := all.filter (fun g => !lapsed g)
  match o with
  | 0x000 => some (pack [(0, 1, b2n (b.str.loaded && b.zeroedQuad q)), (1, 1, b2n (b.extsAt q (· == .sealing) != 0))])
  | 0x004 => some (b.extsAt q (· == .draining))
  | 0x008 => some (b.extsAt q (fun s => s == .init || s == .zeroing))
  | 0x014 => some (match b.extEnt i with
    | none => 0
    | some e => if e.home ≠ q then 7 else pack [(0, 3, r.state.code), (3, 5, (gs.filter (fun g => !grantGroup g.1)).length),
        (8, 1, b2n (gs.any (fun g => grantGroup g.1))), (9, 5, r.revoked.length + (all.length - gs.length))])
  | 0x018 => some (if here then half false r.version.toNat else 0)
  | 0x01C => some (if here then half true r.version.toNat else 0)
  | 0x020 => some (if here then half false r.modCount.toNat else 0)
  | 0x024 => some (if here then half true r.modCount.toNat else 0)
  | 0x04C => some (b.queued.filter (fun e => e.home == q)).length
  | 0x050 => if q = 0 then none else some 0
  | 0x054 => some (if q = 0 then b.viewLease else 0)
  | 0x058 => if q = 0 then none else some 0
  | 0x108 => some (pack [(0, 11, b.trackers q), (11, 1, b2n (b.coh.walks.any (·.home == q))),
      (12, 1, b2n (b.coh.setLost.any (·.home == q)))])
  | 0x120 => some ((b.ratLive q).filter (fun r => !r.reserved)).length
  | 0x140 => if q = 0 then none else some 0
  | 0x144 => some (if q = 0 then b.viewAgent else 0)
  | _ => none

/-- The GRN registers of a quadrant (R104, R366). -/
def Blk.viewGrn (b : Blk) (q o : Nat) : Option Nat :=
  let p := b.field (Reg.grnPartSel q) 0 6
  let base := b.str.run.shareBase p q
  let used := b.framesUsed q
  let pinned := b.pool.frames.filter (fun f => homeOf (lineOfGran f.1) == q &&
    ((b.str.run.extAt f.1).map (fun e => b.str.run.hint e.2 == 0)).getD false)
  let mig := mget b.pool.migs q
  match o with
  | 0x000 => some (pack [(0, 12, used.length), (12, 12, pinned.length), (24, 1, b2n mig.isSome)])
  | 0x008 => some (pack [(0, 12, b.str.run.share p q),
      (12, 12, (used.filter (fun f => base ≤ f && f < base + b.str.run.share p q)).length)])
  | 0x00C => some (match mig with
    | none => 0
    | some m => pack [(0, 27, m.granule), (27, 2, match m.kind with
      | .into => 0
      | .out => 1
      | .clean => 2)])
  | 0x010 => some ((mig.map (·.cursor)).getD 0)
  | 0x10C => some (b.grain (32 * q + b.field (Reg.grnSpareSel q) 0 5)).spared.length
  | _ => none

/-- STOOK_STATE of a channel (R349). -/
def Blk.stookState (b : Blk) (c : Nat) : Nat :=
  let gone := b.stookGone c
  if gone = 0 then 0 else if gone ≤ (b.stookOf c).2 then 1 else 2

/-- The HSK registers of a Husk channel (R105, R365). -/
def Blk.viewHsk (b : Blk) (c o : Nat) : Option Nat :=
  let h := b.husk c
  let gib := fun (i : Nat) => (h.dimms[i]?.map (·.gib)).getD 0
  match o with
  | 0x000 => some (pack [(0, 1, b2n (h.up && !h.lost)), (1, 1, b2n h.lost), (2, 2, if h.trained && dimmsOk h.dimms then h.dimms.length else 0),
      (4, 3, if b.str.loaded then b.pool.speed else b.commonSpeed)])
  | 0x004 => some (pack [(0, 9, gib 0), (16, 9, gib 1)])
  | 0x008 => some (if b.str.loaded then b.pool.capGib else b.leastGib)
  | 0x00C => some b.pool.usable
  | 0x100 => some (pack [(0, 2, if h.lost then (if h.cause = 4 then 3 else 1) else if h.rebuilding then 2 else 0),
      (2, 2, b.stookState c), (4, 3, h.cause)])
  | 0x104 => some (pack [(0, 8, flagBits ((List.range 8).map (mhas h.marks ·))), (8, 5, h.lastMark.2), (13, 3, h.lastMark.1)])
  | 0x108 => some (half false h.cursor)
  | 0x10C => some (half true h.cursor)
  | _ => none

/-! ## Tillers and Threshers (R192, R220) -/

/-- STATE of a Tiller (R192): 0 gated, 1 idle, 2 running, 3 finishing before an owner change, 4 clearing. -/
def Blk.tilState (b : Blk) (k : Nat) : Nat :=
  let t := b.til k
  if t.clearing then 4
  else if t.run.isSome then
    (match b.str.commit with
    | some c => if (b.phaseTillers c).contains k && !c.taken.contains (.tiller (Fin.ofNat 24 k)) then 3 else 2
    | none => 2)
  else if b.gated k then 0 else 1

/-- The TIL registers of a Tiller (R192). -/
def Blk.viewTil (b : Blk) (k o : Nat) : Option Nat :=
  let run := (b.til k).run
  match o with
  | 0x000 => some (pack [(0, 6, b.ownerOfTil k), (6, 3, b.tilState k), (9, 4, (run.map (·.kind)).getD 0),
      (13, 7, (run.map (·.window.length)).getD 0)])
  | 0x004 => some (pack [(0, 16, (run.map (·.task)).getD 0), (16, 8, (run.map (·.slot)).getD 0)])
  | 0x008 => some ((run.map (·.tag)).getD 0)
  | 0x00C => some ((run.map (fun r => ((r.window.head?.map (·.index)).getD r.next) % 2 ^ 32)).getD 0)
  | _ => none

/-- The tasks of a Sheaf that have not ended. -/
def Sheaf.left (s : Sheaf) : Nat := (s.tasks.filter (fun t => t.state != .ended)).length

/-- The THR registers of a Thresher (R220). -/
def Blk.viewThr (b : Blk) (q o : Nat) : Option Nat :=
  let slot := 64 * q + b.field (Reg.thrSlotSel q) 0 6
  let s := mget b.work.sheafs slot
  let adm : Option (SubmitReq × Header) := match (b.thr q).room, (b.thr q).wait with
    | some x, r :: _ => if x.1 = slot then (readHeader x.2).map (fun h => (r, h)) else none
    | _, _ => none
  match o with
  | 0x000 => some (pack [(0, 7, (b.owned q).length), (7, 5, (b.thr q).wait.length)])
  | 0x004 => some (b.taskFree q)
  | 0x008 => some (pack [(0, 13, (b.readyQ q).length), (13, 6, b.preCount q)])
  | 0x010 => some (match s, adm with
    | some s, _ => pack [(0, 3, if s.closed.isSome then 4 else 3), (3, 6, s.part), (9, 2, s.policy), (11, 17, s.left)]
    | none, some a => pack [(0, 3, 1), (3, 6, a.1.part), (9, 2, a.2.policy), (11, 17, a.2.tasks)]
    | none, none => 0)
  | 0x014 => some (match s, adm with
    | some s, _ => s.cookie
    | none, some a => a.1.cookie
    | none, none => 0)
  | _ => none

/-! ## Fabric, links, traffic (R260 to R262, R287, R306) -/

/-- The device-wide NRM registers (R260). -/
def Blk.viewNrm (b : Blk) (o : Nat) : Option Nat :=
  let e := b.str.run.eids.find? (fun e => e.2.pos == b.field Reg.nrmEidSel 0 12)
  let ports := ((mget b.str.run.sprays (b.field Reg.nrmSpraySel 0 9)).getD 0).toNat
  match o with
  | 0x00C => some b.str.run.self
  | 0x014 => some (match e with
    | none => 0
    | some e => pack [(0, 16, e.1), (16, 9, e.2.spray), (25, 1, b2n e.2.self), (26, 1, 1)])
  | 0x020 => some (half false ports)
  | 0x024 => some (half true ports)
  | _ => none

/-- The code of a link state (R287). -/
def LinkState.code : LinkState → Nat
  | .disabled => 0
  | .training => 1
  | .up => 2
  | .held => 3
  | .closing => 4

/-- The LNK registers of a port (R287). A replay ends in the step that starts it, so REPLAYING reads 0. -/
def Blk.viewLnk (b : Blk) (n o : Nat) : Option Nat :=
  let k := b.link n
  match o with
  | 0x008 => some (pack [(0, 3, k.state.code), (3, 1, b2n k.full), (4, 4, k.lanes), (8, 1, b2n k.reversed), (9, 4, k.polarity),
      (13, 1, b2n k.resumed)])
  | 0x00C => some (pack [(0, 12, k.txNext), (12, 12, k.rxNext)])
  | 0x010 => some (pack [(0, 11, k.held.length), (12, 1, b2n (1536 ≤ k.held.length)), (13, 1, b2n k.wait)])
  | _ => none

/-- The count of a bin of the selected sampler (R306). -/
def Blk.smpBin (b : Blk) : Nat :=
  let s := b.smp (b.field Reg.trfSmpSel 0 11)
  tget (fun _ => 0) (if b.field Reg.trfSmpSel 15 1 = 1 then s.delay else s.depth) (b.field Reg.trfSmpSel 11 4)

/-- TRF_GATE_STATE of the selected target (R306). -/
def Blk.viewGate (b : Blk) : Nat :=
  match mget b.traf.gates (b.field Reg.trfGateSel 0 9) with
  | none => 0
  | some r =>
    let g := r.settle b.tb
    let now := g.now b.tb
    let list := g.list
    pack [(0, 6, match now with
        | .window i _ _ => i
        | _ => 0), (6, 1, b2n list.isSome), (7, 1, b2n (match now with
        | .zeroOnly _ => true
        | _ => false)), (8, 1, b2n (match g.next with
        | some (some _, _) => true
        | some (none, _) => false
        | none => g.list.isSome && b.tb < g.start)), (9, 7, (list.map (·.wins.length)).getD 0)]

/-- The TRF registers (R306). -/
def Blk.viewTrf (b : Blk) (o : Nat) : Option Nat :=
  let r := mget b.traf.ents (b.field Reg.trfEntSel 0 13)
  let levC := twos 64 ((r.map (·.levC)).getD 0)
  let levP := twos 64 ((r.map (fun r => if r.ent.twoRate then r.levP else 0)).getD 0)
  let s := b.smp (b.field Reg.trfSmpSel 0 11)
  match o with
  | 0x004 => some ((b.trafStaged Reg.trfEntKey).toNat % 2 ^ 20 + b2n r.isSome * 2 ^ 20)
  | 0x008 => some (b.trafStaged Reg.trfEntCir).toNat
  | 0x00C => some (b.trafStaged Reg.trfEntPir).toNat
  | 0x010 => some (b.trafStaged Reg.trfEntCbs).toNat
  | 0x014 => some (b.trafStaged Reg.trfEntPbs).toNat
  | 0x018 => some (b.trafStaged Reg.trfEntOvh).toNat
  | 0x020 => some (half false levC)
  | 0x024 => some (half true levC)
  | 0x028 => some (half false levP)
  | 0x02C => some (half true levP)
  | 0x030 => some ((r.map (·.green)).getD 0)
  | 0x034 => some ((r.map (·.yellow)).getD 0)
  | 0x038 => some ((r.map (·.red)).getD 0)
  | 0x03C => some ((r.map (·.waits)).getD 0)
  | 0x04C => some b.viewGate
  | 0x058 => some (if s.on then s.queue.toNat else s.queue.toNat % 2 ^ 19)
  | 0x05C => some b.smpBin
  | 0x060 => some s.maxDepth
  | 0x064 => some s.maxDelay
  | _ => none

/-! ## Host interface and pair (R334, R335, R367) -/

/-- HUB_MOVER[m]_STATUS (R334, R330). -/
def Blk.viewMover (b : Blk) (m : Nat) : Nat :=
  let mine := b.hub.waits.filter (fun w => w.engine == m)
  pack [(0, 7, b.inFlight m), (8, 7, (mine.filter (·.parked)).length), (15, 1, b2n (decide (1024 ≤ b.parkedCount)))]

/-- STATE of a command window, with the partition in bits 15:10 (R310, R313, R334). -/
def Blk.windowState (b : Blk) (f : Nat) : Nat :=
  let w := b.win f
  let part := (b.view .hub).partOfFunc f
  pack [(0, 1, b2n (b.funcOn f && w.memory)), (1, 1, b2n w.mgmtWait), (2, 1, b2n (b.funcOn f && part.isNone)),
    (3, 7, (b.inProgOf f).length), (10, 6, part.getD 0)]

/-- The HUB registers (R334, R367). -/
def Blk.viewHub (b : Blk) (o : Nat) : Option Nat :=
  let f := b.field Reg.hubCwSel 0 6
  let w := b.win f
  let heard := fun (t : Option Nat) => b2n ((t.map (fun t => decide (b.tb ≤ t + 2000000))).getD false)
  if 0x080 ≤ o && o < 0x0A0 then some (b.viewMover ((o - 0x080) / 4))
  else match o with
  | 0x004 => some (b.field Reg.hubPcieStatus 0 7 + b.hub.numVfs * 256)
  | 0x064 => some (b.windowState f)
  | 0x068 => some (half false w.nextSeq)
  | 0x06C => some (half true w.nextSeq)
  | 0x100 => some (pack [(0, 3, b.pair.code), (3, 1, b2n b.pair.gap), (4, 1, heard b.pair.witAt), (5, 1, heard b.pair.peerAt)])
  | 0x108 => some (half false b.pair.term)
  | 0x10C => some (half true b.pair.term)
  | 0x118 => some (half false b.pair.ckptSeq)
  | 0x11C => some (half true b.pair.ckptSeq)
  | _ => none

/-! ## BARs and the command window (R309, R313) -/

/-- A BAR: its size in bytes, and whether it is 64-bit and prefetchable. -/
structure Bar where
  size : Nat := 0
  wide : Bool := false
  prefetch : Bool := false
  deriving DecidableEq, Repr

/-- The BARs of a function: BAR0 and BAR4 of PF0, BAR2 of every function; every other has size 0 (R309). -/
def barOf (f n : Nat) : Bar :=
  if n = 2 then ⟨2 ^ 20, true, false⟩
  else if f = 0 && n = 0 then ⟨2 ^ 28, true, false⟩
  else if f = 0 && n = 4 then ⟨2 ^ 36, true, true⟩
  else {}

/-- A byte of a ring slot: of what stands in it, else of a slot whose last 8 bytes read as all ones where that marks it free, and as 0
elsewhere: DESIGN CHOICE, log 74. -/
def slotByte (m : Option Bytes) (size o : Nat) (freed : Bool) : Byte :=
  match m with
  | some bs => bs.getD o 0
  | none => if freed && size ≤ o + 8 then 0xFF else 0

/-- A byte of a function's command window as a read of BAR2 shows it (R313, R315 to R317). -/
def Blk.readBar2 (b : Blk) (f o : Nat) : Byte :=
  let w := b.win f
  if o < 0x40000 then
    slotByte ((mget w.subs (o / 128)).map (fun x => fit 120 x.2 ++ toLe 8 x.1)) 128 (o % 128) false
  else if o < 0x80000 then slotByte (mget w.answers ((o - 0x40000) / 128)) 128 (o % 128) true
  else if o < 0x90000 then slotByte (mget w.events ((o - 0x80000) / 64)) 64 (o % 64) true
  else (toLe 8 w.nextSeq ++ toLe 8 w.nextEvt ++ toLe 4 w.lost ++ toLe 4 (b.windowState f % 1024)).getD (o - 0x90000) 0

/-- The XLT registers (R335). -/
def Blk.viewXlt (b : Blk) (o : Nat) : Option Nat :=
  let f := b.field Reg.xltPriSel 0 6
  let out := fun (p : PageReq → Bool) => (b.hub.prqs.filter (fun r => r.sent.isSome && p r)).length
  match o with
  | 0x000 => some (pack [(0, 14, b.hub.atc.length), (14, 7, b.hub.trans.length)])
  | 0x008 => some (pack [(0, 10, out (fun _ => true)), (10, 11, b.parkedCount), (21, 1, b2n (decide (1024 ≤ b.parkedCount)))])
  | 0x00C => some (pack [(0, 6, b.hub.invs.length), (6, 12, flagBits ((List.range 12).map (fun e => b.hub.invs.any (·.left.contains e))))])
  | 0x014 => some (pack [(0, 10, tget (fun _ => 0) b.hub.alloc f), (10, 10, out (fun r => r.f == f)), (20, 1, b2n (b.hub.stopped.contains f))])
  | _ => none

/-! ## Security, power, calibration (R392, R415, R416) -/

/-- SEC_STATUS bits 7:0 (R379, R386, R392). -/
def Blk.secBits (b : Blk) : Nat :=
  pack [(0, 1, b2n b.sec.otp.ownerSet), (1, 1, b2n b.sec.recovery), (2, 1, b2n b.sec.zeroised), (3, 2, b.sec.debug),
    (5, 1, b2n ((b.sec.guard.map (·.debugUnlockable)).getD false)), (6, 1, b2n b.sec.ownerless), (7, 1, b2n b.ideRequired)]

/-- SEC_IDE_STATUS (R392): the streams that are active, and the sessions that are open. -/
def Blk.ideStatus (b : Blk) : Nat :=
  pack [(0, 5, flagBits ((List.range 5).map (b.sec.ideActive.contains ·))), (5, 2, (b.sec.sessions.filter (·.finished)).length)]

/-- The SEC registers (R392). -/
def Blk.viewSec (b : Blk) (o : Nat) : Option Nat :=
  let i := b.field Reg.secIssuerSel 0 3
  let iss := b.sec.guard.bind (fun g => g.issuers[i]?)
  let floor := ((iss.map (fun (e : Issuer) => e.floor)).getD 0).toNat
  let last := tget (fun _ => 0) b.sec.last i
  let bound := (b.sec.guard.bind (fun g => g.bounds[b.field Reg.secPartSel 0 6]?)).getD {}
  match o with
  | 0x000 => some (pack [(0, 8, b.secBits), (8, 6, b.sec.svn), (14, 6, b.sec.otp.minSvn)])
  | 0x008 => some (le b.sec.bootId 0 4)
  | 0x00C => some (le b.sec.bootId 4 4)
  | 0x010 => some (half false b.sec.otp.serial.toNat)
  | 0x014 => some (half true b.sec.otp.serial.toNat)
  | 0x024 => some (match iss with
    | none => 0
    | some e => pack [(0, 16, e.rights.toNat), (16, 1, b2n e.valid)])
  | 0x028 => some (half false floor)
  | 0x02C => some (half true floor)
  | 0x030 => some (half false last)
  | 0x034 => some (half true last)
  | 0x044 => some (pack [(0, 7, bound.keySlot), (7, 1, b2n bound.valid), (8, 1, b2n bound.isolate), (9, 1, b2n bound.determine),
      (10, 5, bound.tillerMax)])
  | 0x054 => some b.ideStatus
  | _ => none

/-- The PWR registers (R415). -/
def Blk.viewPwr (b : Blk) (o : Nat) : Option Nat :=
  match o with
  | 0x000 => some (pack [(0, 24, if b.pwr.state = 1 then b.pwr.mask else 0), (24, 3, b.pwr.state), (27, 1, b2n b.pwr.move.isSome)])
  | 0x004 => some (pack [(0, 10, b.pwr.vcore), (10, 10, b.field Reg.pwrVcore 10 10)])
  | 0x010 => some (if !b.pwr.scanned || b.pwr.temps.isEmpty then pack [(16, 1, b2n b.pwr.warn), (17, 1, b2n b.pwr.trip)]
    else pack [(0, 8, twos 8 (b.pwr.temps.getD (b.field Reg.pwrTempSel 0 6) 0)), (8, 8, twos 8 (maxTemp b.pwr.temps)),
      (16, 1, b2n b.pwr.warn), (17, 1, b2n b.pwr.trip)])
  | _ => none

/-- The CAL registers (R416). SLOW_SAFE is set by the reset that takes the set over (R411). -/
def Blk.viewCal (b : Blk) (o : Nat) : Option Nat :=
  match o with
  | 0x000 => some (pack [(0, 1, b2n b.pwr.calLost), (1, 1, b2n !b.pwr.trimLost), 
      (2, 1, b2n (b.pwr.trimLost && (b.pwr.calLost || b.pwr.calSet.isSome))), (3, 1, b2n b.pwr.calWriting.isSome)])
  | _ => none

/-! ## Observation (R439) -/

/-- The ring that OBS_RING_SEL names. -/
def Blk.ringSel (b : Blk) : Option Ring :=
  match b.field Reg.obsRingSel 0 2 with
  | 0 => some b.rings.log
  | 1 => some b.rings.dump
  | 2 => some b.rings.trace
  | _ => none

/-- The size of the ring that OBS_RING_SEL names; 0 where it is not set. -/
def Blk.ringSize (b : Blk) : Nat :=
  match b.field Reg.obsRingSel 0 2, b.ringSel with
  | 0, some r => if r.ext.isNone then ring0Size else b.logSize
  | _, some r => ((r.ext.bind b.extEnt).map ExtEnt.size).getD 0
  | _, none => 0

/-- The programmable counter that OBS_PC_SEL names. -/
def Blk.pcSel (b : Blk) : Option (Nat × Nat) :=
  let u := b.field Reg.obsPcSel 0 7
  if u ≤ 112 then some (u, b.field Reg.obsPcSel 8 3) else none

/-- The T-step count that OBS_TD_SEL names. -/
def Blk.tdSel (b : Blk) : Nat :=
  let k := b.field Reg.obsTdSel 0 5
  let c := b.field Reg.obsTdSel 5 3
  if k < 24 && c < 6 then b.tdShow k c else 0

/-- The OBS registers (R439). DESIGN CHOICE (log entry 96): REF_OK, which resets to 0, reads 1 once a period of the reference has been counted. -/
def Blk.viewObs (b : Blk) (o : Nat) : Option Nat :=
  let aon := b.aonShow (b.field Reg.obsAonSel 0 8)
  let pc := (b.pcSel.map (fun p => b.pc p.1 p.2)).getD {}
  let ring := b.ringSel.getD {}
  let enable := b.str.run.trace.enable.toNat
  match o with
  | 0x000 => some (half false b.tb)
  | 0x004 => some (half true b.tb)
  | 0x008 => some (pack [(0, 1, b2n (!b.frozen && b.tb != 0)), (1, 1, b2n b.frozen)])
  | 0x014 => some (half false aon)
  | 0x018 => some (half true aon)
  | 0x024 => some (pack [(0, 8, pc.event), (8, 6, pc.part), (14, 1, b2n pc.all), (15, 1, b2n pc.chain), (16, 1, b2n pc.ovf)])
  | 0x028 => some (half false pc.value)
  | 0x02C => some (half true pc.value)
  | 0x034 => some (half false b.tdSel)
  | 0x038 => some (half true b.tdSel)
  | 0x040 => some (half false enable)
  | 0x044 => some (half true enable)
  | 0x048 => some (b.str.run.trace.dumpUs + b.field Reg.obsDumpCfg 20 1 * 2 ^ 20)
  | 0x054 => some (pack [(0, 1, b2n ring.wrap), (1, 1, b2n ring.ext.isSome)])
  | 0x058 => some (half false ring.head)
  | 0x05C => some (half true ring.head)
  | 0x060 => some (half false ring.tail)
  | 0x064 => some (half true ring.tail)
  | 0x068 => some (half false b.ringSize)
  | 0x06C => some (half true b.ringSize)
  | 0x070 => some (b.field Reg.obsSnapCfg 0 3 + pack [(3, 1, b2n b.rings.snap.isSome), (4, 1, b2n b.rings.stopped)])
  | 0x074 => some (match ring.ext with
    | none => 0
    | some i => pack [(0, 18, i), (31, 1, 1)])
  | _ => none

/-! ## A read -/

/-- What a register shows of state held elsewhere; none where it is held as a register. -/
def Blk.shown (b : Blk) (off : Nat) : Option Nat :=
  if off < 0x1000 then b.viewHub off
  else if off < 0x10000 then none
  else if off < 0x11000 then b.viewStr (off - 0x10000)
  else if off < 0x20000 then none
  else if off < 0x21000 then b.viewXlt (off - 0x20000)
  else if off < 0x30000 then none
  else if off < 0x31000 then b.viewSec (off - 0x30000)
  else if off < 0x40000 then none
  else if off < 0x41000 then b.viewPwr (off - 0x40000)
  else if off < 0x50000 then none
  else if off < 0x51000 then b.viewCal (off - 0x50000)
  else if off < 0x60000 then none
  else if off < 0x61000 then b.viewObs (off - 0x60000)
  else if off < 0x2000000 then none
  else if off < 0x2100000 then b.viewQd ((off - 0x2000000) / 0x40000) (off % 0x40000)
  else if off < 0x3000000 then none
  else if off < 0x3040000 then b.viewHa ((off - 0x3000000) / 0x10000) (off % 0x10000)
  else if off < 0x3400000 then none
  else if off < 0x3440000 then b.viewGrn ((off - 0x3400000) / 0x10000) (off % 0x10000)
  else if off < 0x3800000 then none
  else if off < 0x3818000 then b.viewHsk ((off - 0x3800000) / 0x1000) (off % 0x1000)
  else if off < 0x4000000 then none
  else if off < 0x4018000 then b.viewTil ((off - 0x4000000) / 0x1000) (off % 0x1000)
  else if off < 0x4100000 then none
  else if off < 0x4104000 then b.viewThr ((off - 0x4100000) / 0x1000) (off % 0x1000)
  else if off < 0x5000000 then none
  else if off < 0x5030000 then
    if off % 0x1000 = 4 then some (pack [(0, 1, b2n (b.link ((off - 0x5000000) / 0x1000)).live), (1, 2, (off - 0x5000000) / 0x1000 / 12)])
    else none
  else if off < 0x5080000 then none
  else if off < 0x5084000 then
    if off % 0x1000 = 0 then some (b.fab.ctxs.filter (fun c => c.home == (off - 0x5080000) / 0x1000)).length else none
  else if off < 0x5090000 then none
  else if off < 0x5091000 then b.viewNrm (off - 0x5090000)
  else if off < 0x5200000 then none
  else if off < 0x5230000 then b.viewLnk ((off - 0x5200000) / 0x1000) (off % 0x1000)
  else if off < 0x5400000 then none
  else if off < 0x5401000 then b.viewTrf (off - 0x5400000)
  else none

/-- A read of a register by its BAR0 offset (R22, R428): the window of the default log ring, what the register shows, or the value it
holds. -/
def Blk.readReg (b : Blk) (off : Nat) : Word :=
  if 0xFC00000 ≤ off && off < 0x10000000 then BitVec.ofNat 32 (leNat (cread b.rings.ring0 (off - 0xFC00000) 4))
  else match b.shown off with
  | some v => BitVec.ofNat 32 v
  | none => b.reg off

end Sys2Proof.Machine
end

