-- ==== Sys2Proof/Machine/Observe.lean ====
section
/-! DEFINITION. The loss of the reference, counter dumps, the counter and trace commands, hang snapshots, and the registers of the rings and
counters (R216, R418 to R420, R422 to R431, R435 to R439). -/

namespace Sys2Proof.Machine

/-! ## The reference (R418 to R420) -/

/-- REFERENCE_LOST: the timebase holds its value, and a primary or standby becomes fenced (R418, R420). -/
def referenceLost (b : Blk) : Blk :=
  if b.frozen then b else ({ b with frozen := true }.flag Reg.obsErr 5).becomeFenced

/-- REFERENCE_RESTORED: the timebase resumes, and TB_GAP is logged with the H-steps counted (R418). -/
def referenceRestored (b : Blk) (hSteps : Nat) : Blk :=
  if !b.frozen then b else ({ b with frozen := false }.aonAdd 224 1).log 0x18 112 0 b.tb hSteps

/-! ## Counter dumps (R430, R431) -/

/-- A programmable counter in the form of a dump record; top: bit 63. -/
def pcWord (c : Pc) (top : Bool) : Nat := pack [(0, 48, c.value), (48, 8, c.event), (56, 6, c.part), (62, 1, b2n c.all), (63, 1, b2n top)]

/-- The sampler slots that are enabled, rising. -/
def Blk.smpOn (b : Blk) : List (Nat × Sampler) := b.traf.smp.filter (fun e => e.2.on)

/-- The bins of a histogram as words of n bytes, each saturating. -/
def binBytes (t : Tab Nat) (n : Nat) : Bytes := ((List.range 16).map (fun i => toLe n (min (tget (fun _ => 0) t i) (2 ^ (8 * n) - 1)))).flatten

/-- A sampler entry of a dump record. -/
def smpEntry (e : Nat × Sampler) : Bytes :=
  toLe 2 e.1 ++ zeros 2 ++ toLe 4 e.2.maxDepth ++ toLe 4 e.2.maxDelay ++ zeros 4 ++ binBytes e.2.depth 4 ++ binBytes e.2.delay 4

/-- The dump record of an instant (R431). -/
def Blk.dumpBytes (b : Blk) (time : Nat) : Bytes :=
  let smps := if b.field Reg.obsDumpCfg 20 1 = 1 then b.smpOn else []
  let len := (0x2900 + 144 * smps.length + 127) / 128 * 128
  fit len (toLe 8 time ++ toLe 8 b.rings.dumpSeq ++ toLe 4 len ++ toLe 2 smps.length ++ zeros 2 ++ toLe 4 b.rings.dumpSkip ++ zeros 4 ++
    toLe 8 b.str.epoch.toNat ++ toLe 2 (b.field Reg.pwrVcore 10 10) ++ toLe 1 (if b.pwr.temps.isEmpty then 0 else twos 8 (maxTemp b.pwr.temps)) ++
    toLe 1 b.pwr.state ++ zeros 20 ++
    ((List.range 256).map (fun i => toLe 8 (b.aonShow i))).flatten ++
    ((List.range 144).map (fun i => toLe 8 (b.tdShow (i / 6) (i % 6)))).flatten ++
    ((List.range 904).map (fun i => toLe 8 (pcWord (b.pc (i / 8) (i % 8)) (b.pc (i / 8) (i % 8)).chain))).flatten ++
    (smps.map smpEntry).flatten)

/-- A dump skipped and counted (R429). -/
def Blk.dumpLose (b : Blk) : Blk :=
  { (b.incr Reg.obsDumpSkipCnt).flag Reg.obsErr 0 with rings := { b.rings with dumpSeq := b.rings.dumpSeq + 1, dumpSkip := b.rings.dumpSkip + 1 } }

/-- A dump written to its ring, or skipped where it does not fit (R429) or a home agent refuses a line of it (R38). -/
def Blk.dump (b : Blk) (e : ExtEnt) (time : Nat) : Blk :=
  let bs := b.dumpBytes time
  if b.rings.dump.free e.size < bs.length then b.dumpLose
  else
    let x := b.ringPut e b.rings.dump bs
    if x.1 then { x.2.1 with rings := { x.2.1.rings with dump := x.2.2, dumpSeq := b.rings.dumpSeq + 1, dumpSkip := 0 } }
    else x.2.1.dumpLose

/-- COUNTER_DUMP: at a multiple of the dump period every counter is latched and one record is written to the dump ring; in HOLD the dump is
skipped without count (R399, R430). -/
def counterDump (b : Blk) : Blk :=
  let p := b.str.run.trace.dumpUs * 1000
  let t := if p = 0 then 0 else b.tb / p * p
  if b.dead || b.frozen || t ≤ b.rings.dumpAt then b
  else
    let b1 : Blk := { b with rings.dumpAt := t }
    if b.pwr.state = 3 then b1
    else match b1.rings.dump.ext.bind (fun i => (b1.extEnt i).map (fun e => (i, e))) with
    | none => b1
    | some (i, e) => if (b1.extRt i).state == .init then b1.dumpLose else b1.dump e t

/-! ## Counter and trace commands (R426, R435) -/

/-- May a command read counters: PF0 may, and a VF whose partition has COUNTER_READ (R426). -/
def Blk.mayCount (b : Blk) (r : CmdRec) : Bool :=
  r.f = 0 || ((r.part.bind (mget (b.view .hub).parts)).map (·.counterRead)).getD false

/-- Does an item of a partition belong to a command's function; everything does for PF0 (R426). -/
def CmdRec.owns (r : CmdRec) (part : Nat) (all : Bool) : Bool := r.f = 0 || (r.part == some part && !all)

/-- CTR_READ (R435). -/
def ctrRead (b : Blk) (c : CmdId) : Blk :=
  b.hubCmd c 0x50 (fun r b =>
    if !b.mayCount r then b.answerCmd c 0xC0 []
    else b.answerCmd c 0 ((List.range (r.arg 0x0A 1)).map (fun i =>
      let k := b.pc (r.arg 0x08 1) (r.arg 0x09 1 + i)
      toLe 8 (if r.owns k.part k.all then pcWord k true else 0))).flatten)

/-- SMP_READ (R435). -/
def smpRead (b : Blk) (c : CmdId) : Blk :=
  b.hubCmd c 0x51 (fun r b =>
    let s := b.smp (r.arg 0x08 2)
    if !b.mayCount r then b.answerCmd c 0xC0 []
    else if r.owns s.part s.all then
      b.answerCmd c 0 (toLe 4 s.maxDepth ++ toLe 4 s.maxDelay ++ binBytes s.depth 2 ++ binBytes s.delay 2 ++ toLe 1 1)
    else b.answerCmd c 0 [])

/-- TSTEP_READ (R435). -/
def tstepRead (b : Blk) (c : CmdId) : Blk :=
  b.hubCmd c 0x52 (fun r b =>
    let k := r.arg 0x08 1
    if !b.mayCount r then b.answerCmd c 0xC0 []
    else if r.owns (b.ownerOfTil k) false then
      b.answerCmd c 0 (((List.range 6).map (fun i => toLe 8 (b.tdShow k i))).flatten ++ toLe 1 1)
    else b.answerCmd c 0 [])

/-- TRACE_MARK (R432, R435). -/
def traceMark (b : Blk) (c : CmdId) : Blk :=
  b.hubCmd c 0x54 (fun r b => (b.trace { source := 13, event := 1, unit := 112, a := r.arg 0x08 8 }).answerCmd c 0 [])

/-! ## Hang snapshots (R436, R437) -/

/-- An entry of a snapshot's section. -/
def snapEnt (bs : Bytes) : Bytes := fit 32 bs

/-- Section 1: the Tillers. -/
def Blk.snapTillers (b : Blk) (free : Nat) : List Bytes :=
  (List.range 24).map (fun k =>
    let reg := fun (o : Nat) => (b.viewTil k o).getD 0
    let head := ((b.til k).run.map (fun r => (r.window.head?.map (·.index)).getD r.next)).getD 0
    snapEnt (toLe 4 (reg 0) ++ toLe 4 (reg 4) ++ toLe 4 (reg 8) ++ toLe 8 head ++
      toLe 1 (if (b.til k).run.isNone then 2 else Config.lastClass (free + k) % 6)))

/-- Section 2: the resident Sheafs. -/
def Blk.snapSheafs (b : Blk) : List Bytes :=
  b.work.sheafs.map (fun (e : Nat × Sheaf) => snapEnt (toLe 1 e.1 ++ toLe 1 e.2.part ++ zeros 2 ++ toLe 4 e.2.cookie ++ toLe 4 e.2.left ++ zeros 4 ++
    toLe 8 e.2.admitAt))

/-- The lowest predecessor of a task that has not ended. -/
def Sheaf.lowestPred (s : Sheaf) (i : Nat) : Nat :=
  ((List.range s.tasks.length).find? (fun j => ((s.tasks[j]?).map (fun t => t.state != .ended && t.succ.contains i)).getD false)).getD 0xFFFF

/-- Section 3: tasks of running Sheafs that wait for predecessors. -/
def Blk.snapWaits (b : Blk) : List Bytes :=
  (b.tasksWhere (fun _ s _ t => t.deps != 0 && t.state == .waiting && s.abort.isNone && s.closed.isNone)).map (fun x =>
    snapEnt (toLe 1 x.1 ++ zeros 1 ++ toLe 2 x.2.1 ++ toLe 4 x.2.2.deps ++ toLe 4 x.2.2.tag ++
      toLe 2 (((mget b.work.sheafs x.1).map (fun (s : Sheaf) => s.lowestPred x.2.1)).getD 0xFFFF)))

/-- Section 4: ready and held tasks. -/
def Blk.snapReady (b : Blk) : List Bytes :=
  (b.tasksWhere (fun _ _ _ t => t.state == .ready || t.state == .held)).map (fun x =>
    snapEnt (toLe 1 x.2.2.home ++ toLe 1 x.1 ++ toLe 2 x.2.1 ++ toLe 1 x.2.2.prio ++ zeros 3 ++ toLe 8 x.2.2.stamp))

/-- Header bytes 0 to 15 of a message from an EID. -/
def Msg.head16 (m : Msg) (src : Nat) : Bytes := toLe 16 ((m.header src).toNat % 2 ^ 128)

/-- Header bytes 0 to 15 of a Submit that waits for admission; 0 for one that came by a command window. -/
def Blk.submitHead (b : Blk) (r : SubmitReq) : Bytes :=
  match r.who with
  | .fabric src msgId traceId ty => toLe 16 (headLow ty b.str.run.self src.toNat msgId.toNat 0 0 traceId.toNat true false false)
  | .cmd _ => zeros 16

/-- One queue of section 5: its code, the times at which its entries came, and the head's header. -/
def Blk.snapQueue (b : Blk) (code : Nat) (ts : List Nat) (head : Bytes) : List Bytes :=
  match ts with
  | [] => []
  | t :: rest => [snapEnt (toLe 4 code ++ toLe 4 ts.length ++ toLe 8 (b.tb - rest.foldl min t) ++ fit 16 head)]

/-- The queue of a partition on a Husk channel, with the header of the request that its head serves. -/
def Blk.snapHusk (b : Blk) (code : Nat) (e : Nat × List HuskWait) : List Bytes :=
  b.snapQueue (code + e.1 * 65536) (e.2.map (·.at_)) ((e.2.head?.map (·.head)).getD [])

/-- Section 5: the heads of the queues that are not empty; an ejection queue empties in the step that fills it. The code is the kind, with
the quadrant or channel and the partition. -/
def Blk.snapQueues (b : Blk) : List Bytes :=
  let qs := List.range 4
  (qs.map (fun q =>
    let es := b.queued.filter (fun e => e.home == q)
    b.snapQueue (q * 256) (es.map (·.at_)) ((es.head?.map (fun e => b.txnHead e.txn)).getD []))).flatten ++
  (qs.map (fun q =>
    let es := tget (fun _ => []) b.fab.inj q
    b.snapQueue (1 + q * 256) (es.map (·.at_)) ((es.head?.map (fun (m : Msg) => m.head16 b.str.run.self)).getD []))).flatten ++
  ((List.range 24).map (fun c =>
    (((b.husk c).reads.map (b.snapHusk (3 + c * 256))).flatten ++ ((b.husk c).writes.map (b.snapHusk (4 + c * 256))).flatten))).flatten ++
  (qs.map (fun q =>
    let rs := (b.thr q).wait
    b.snapQueue (5 + q * 256) (rs.map (·.at_)) ((rs.head?.map b.submitHead).getD []))).flatten

/-- Section 6: the tracker entries in use. -/
def Blk.snapTrackers (b : Blk) : List Bytes :=
  b.coh.txns.map (fun (t : Txn) =>
    let st := match mget b.coh.dir t.line with
      | none => 0
      | some e => if e.state == .x then 2 else 1
    let tmo := (t.snoops.map (fun s => tget (fun _ => 0) b.coh.timeouts (homeOf t.line * 65536 + s.eid))).foldl max 0
    snapEnt (toLe 8 (t.line * 128) ++ toLe 1 st ++ zeros 3 ++ toLe 4 t.snoops.length ++ toLe 8 (b.tb - t.at_) ++ toLe 4 tmo))

/-- Section 7: the traffic entries in force. -/
def Blk.snapBuckets (b : Blk) : List Bytes :=
  b.traf.ents.map (fun (e : Nat × TrafRt) => snapEnt (toLe 2 e.1 ++ toLe 2 e.2.ent.target ++ toLe 1 e.2.ent.cls ++ toLe 1 e.2.ent.kind ++ zeros 2 ++
    toLe 8 (twos 64 e.2.levC) ++ toLe 8 (twos 64 e.2.levP)))

/-- Section 8: the ports' replay windows. -/
def Blk.snapLinks (b : Blk) : List Bytes :=
  (List.range 48).map (fun n =>
    let k := b.link n
    snapEnt (toLe 4 ((b.viewLnk n 8).getD 0) ++ toLe 2 k.txOldest ++ toLe 2 k.txNext ++ toLe 2 k.rxNext ++ toLe 2 k.held.length ++
      toLe 8 (if k.state == .held then k.graceEnd - b.tb else 0)))

/-- Section 9: the reorder contexts. -/
def Blk.snapCtxs (b : Blk) : List Bytes :=
  b.fab.ctxs.map (fun (c : Ctx) => snapEnt (toLe 2 c.src ++ toLe 2 c.msgId ++ toLe 4 c.got.length ++ toLe 4 (c.expected.getD 0) ++ zeros 4 ++
    toLe 8 (b.tb - c.openedAt)))

/-- Section 10: the parked transfers and the page requests outstanding. -/
def Blk.snapParked (b : Blk) : List Bytes :=
  (b.hub.waits.filter (fun w => w.parked)).map (fun (w : XferWait) =>
    snapEnt (toLe 1 w.engine ++ toLe 1 w.f ++ zeros 2 ++ toLe 4 w.pasid ++ toLe 8 w.page ++ toLe 2 0xFFFF ++ zeros 6 ++ toLe 8 (b.tb - w.at_))) ++
  (b.hub.prqs.filterMap (fun (r : PageReq) => r.sent.map (fun (s : Nat × Nat) =>
    snapEnt (toLe 1 0xFF ++ toLe 1 r.f ++ zeros 2 ++ toLe 4 r.pasid ++ toLe 8 r.page ++ toLe 2 s.1 ++ zeros 6 ++ toLe 8 (b.tb - s.2)))))

/-- Sections as far as they fit into LIMIT bytes: the table and the entries; a section that does not fit is cut, and every later one is
empty (R437). -/
def snapLay (limit time : Nat) : Nat → Nat → Bool → List (List Bytes) → Bytes × Bytes × Bool
  | _, _, cut, [] => ([], [], cut)
  | ty, off, cut, es :: t =>
    let n := if cut then 0 else min es.length ((limit - off) / 32)
    let cut1 := cut || decide (n < es.length)
    let r := snapLay limit time (ty + 1) (off + 32 * n) cut1 t
    (toLe 1 ty ++ toLe 1 (b2n cut1) ++ zeros 2 ++ toLe 4 off ++ toLe 4 n ++ toLe 4 (time % 2 ^ 32) ++ r.1, (es.take n).flatten ++ r.2.1, r.2.2)

/-- The bytes of a snapshot, and whether it was cut. -/
def Blk.snapBytes (b : Blk) (s : Snap) : Bytes × Bool :=
  let rest := [b.snapQueues, b.snapTrackers, b.snapBuckets, b.snapLinks, b.snapCtxs, b.snapParked]
  let x := snapLay s.limit b.tb 1 224 (decide (s.limit < 224)) (s.secs ++ rest)
  let len := 224 + x.2.1.length
  ((toLe 8 s.t0 ++ toLe 1 s.trigger ++ toLe 1 s.slot ++ toLe 2 10 ++ toLe 4 len ++ zeros 48 ++ x.1 ++ x.2.1).take s.limit, x.2.2)

/-- The status of a snapshot's destination: its R90 code where it does not lie in one ACTIVE extent of partition 0 (R436). -/
def Blk.snapDest (b : Blk) (a n : Nat) : Nat :=
  let first := b.check mgmtReq.act .write (a / 128)
  if first.status ≠ 0 then first.status
  else
    let last := b.check mgmtReq.act .write ((a + n - 1) / 128)
    if last.status ≠ 0 then last.status else if b.str.run.inOneExt a n then 0 else 0x12

/-- A snapshot triggered (R436): issue stops, and what the sections of the Tillers and Threshers show is latched; or it is turned away. The
status is that of the command. -/
def Blk.snapTrigger (b : Blk) (trigger slot addr limit : Nat) (cmd : Option CmdId) : Nat × Blk :=
  if b.rings.snap.isSome then
    (0xC1, if cmd.isSome then b else (b.incr Reg.obsSnapIgnoredCnt).flag Reg.obsErr 3)
  else
    let st := b.snapDest addr (max 1 limit)
    if st ≠ 0 then (st, b)
    else
      let d := b.draw
      let secs := [d.2.snapTillers (24 * d.1), d.2.snapSheafs, d.2.snapWaits, d.2.snapReady]
      (0, { d.2 with rings := { d.2.rings with snap := some ⟨trigger, slot, b.tb, addr, limit, cmd, secs⟩, stopped := true } })

/-- OBS_SNAP_ADDR. -/
def Blk.snapAddr (b : Blk) : Nat := (b.reg Reg.obsSnapAddrLo).toNat + b.field Reg.obsSnapAddrHi 0 16 * 2 ^ 32

/-- A snapshot triggered by the controller itself, where its bit of OBS_SNAP_CFG is set. -/
def Blk.autoSnap (b : Blk) (bit trigger slot : Nat) : Blk :=
  if b.field Reg.obsSnapCfg bit 1 = 1 then (b.snapTrigger trigger slot b.snapAddr (b.reg Reg.obsSnapLimit).toNat none).2 else b

/-- SNAPSHOT: the command is answered once the snapshot has been written (R435, R436). -/
def snapshotCmd (b : Blk) (c : CmdId) : Blk :=
  b.hubCmd c 0x53 (fun r b =>
    if r.started then b
    else
      let a := if r.arg 0x08 8 = 0 then b.snapAddr else r.arg 0x08 8
      let x := (b.startCmd c).snapTrigger 1 0xFF a (r.arg 0x10 4) (some c)
      if x.1 ≠ 0 then x.2.answerCmd c x.1 [] else x.2)

/-- SNAPSHOT_END: the last section has been written, the snapshot is logged and counted, and issue resumes unless HOLD is set (R436). -/
def snapshotEnd (b : Blk) : Blk :=
  match b.rings.snap with
  | none => b
  | some s =>
    if b.dead then b
    else
      let x := b.snapBytes s
      let b1 := b.hubWrite s.addr x.1
      let b2 : Blk := { b1 with rings := { b1.rings with snap := none, stopped := decide (b.field Reg.obsSnapCfg 2 1 = 1) } }
      let b3 := (b2.aonAdd 226 1).log 0x19 112 0 s.addr s.trigger
      let b4 := if x.2 then b3.flag Reg.obsErr 4 else b3
      match s.cmd with
      | none => b4
      | some c => b4.answerCmd c 0 (toLe 4 x.1.length ++ toLe 1 (b2n x.2))

/-- SNAP_RELEASE: OBS_SNAP_CFG.RELEASE resumes issue that HOLD keeps stopped (R436, R439). -/
def Blk.snapRelease (b : Blk) : Blk := if b.rings.snap.isSome then b else { b with rings.stopped := false }

/-- SHEAF_WATCHDOG: the watchdog of a Sheaf expires; it takes effect as a Cancel, in HOLD at its exit, and may take a hang snapshot (R216,
R399, R436). -/
def sheafWatchdog (b : Blk) (slot : Nat) : Blk :=
  if b.dead || b.frozen || b.pwr.state = 3 || !b.wdogDue slot then b
  else ((b.autoSnap 0 2 slot).abortSheaf slot 0x5B).checkEnd slot

/-- A management reset with the hang snapshot that entry into the failed state may take (R43, R45, R436). -/
def Blk.mgmtResetSnap (b : Blk) (m : Cells) (cause : Nat) : Blk :=
  let b1 := b.mgmtReset m cause
  if b1.mgmt.failed && !b.mgmt.failed then b1.autoSnap 1 3 0xFF else b1

/-! ## Registers of counters and rings (R424, R427, R439) -/

/-- PC_CTL_WRITE: OBS_PC_CTL written: the selected counter takes its settings and starts at 0; the even counter of a chained pair takes the
odd one with it (R424). -/
def pcCtlWrite (b : Blk) (v : Word) : Blk :=
  match b.pcSel with
  | none => b
  | some (u, i) =>
    let n := v.toNat
    let c := b.pc u i
    let new : Pc := ⟨fld n 7 0, fld n 13 8, bit n 14, bit n 15 && i % 2 == 1, c.ovf && !bit n 16, 0⟩
    let b1 : Blk := { b with pcs := tset (fun _ => {}) b.pcs (u * 8 + i) new }
    if i % 2 = 0 && b.pcChained u i then { b1 with pcs := tmod (fun _ => {}) b1.pcs (u * 8 + i + 1) (fun o => { o with value := 0 }) } else b1

/-- A ring changed by its number. -/
def Blk.modRing (b : Blk) (k : Nat) (f : Ring → Ring) : Blk :=
  match k with
  | 0 => { b with rings.log := f b.rings.log }
  | 1 => { b with rings.dump := f b.rings.dump }
  | 2 => { b with rings.trace := f b.rings.trace }
  | _ => b

/-- A trace configuration with the extent of a ring. -/
def TraceCfg.withExt (t : TraceCfg) (k : Nat) (e : Option Nat) : TraceCfg :=
  match k with
  | 0 => { t with logExt := e }
  | 1 => { t with dumpExt := e }
  | _ => { t with traceExt := e }

/-- RING_EXTENT_WRITE: the selected ring uses another extent or none, with both pointers 0, or the write is ignored (R427, R428, R439). -/
def ringExtentWrite (b : Blk) (v : Word) : Blk :=
  let k := b.field Reg.obsRingSel 0 2
  let e := if v.getLsbD 31 then some (v.toNat % 2 ^ 18) else none
  let ok := match e with
    | some i => ((b.extEnt i).map (·.part)) == some 0 && (b.extRt i).state == .active
    | none => k != 0 || 2 ≤ b.str.run.share 0 0
  if k = 3 then b
  else if !ok then b.flag Reg.obsErr 6
  else
    let b1 := (b.liveTrace (fun t => t.withExt k e)).modRing k (fun r => r.named e)
    (if k = 0 && e.isNone then b1.freeLogFrames else b1).logFlush

/-- The record that tells of lost records, written as soon as room has returned in the log ring (0) or the trace ring (2) (R429). -/
def Blk.catchUp (b : Blk) (k : Nat) : Blk :=
  match k with
  | 0 => b.logCatch
  | 2 => match b.traceExt with
    | some e => b.traceCatch e
    | none => b
  | _ => b

/-- TAIL_WRITE: one word of TAIL of the selected ring; a value outside the ring is ignored. Room that it gives lets a record of lost records
out (R429, R439). -/
def tailWrite (b : Blk) (hi : Bool) (v : Word) : Blk :=
  let k := b.field Reg.obsRingSel 0 2
  (b.modRing k (fun r =>
    let t := if hi then r.tail % 2 ^ 32 + v.toNat % 256 * 2 ^ 32 else r.tail / 2 ^ 32 * 2 ^ 32 + v.toNat
    if t < b.ringSize then { r with tail := t } else r)).catchUp k

end Sys2Proof.Machine
end

