-- ==== Sys2Proof/Machine/Secure.lean ====
section
/-! DEFINITION. The security commands (R368 to R389). -/

namespace Sys2Proof.Machine

/-- A command that the management controller may go on with now: what mgmtCmd runs. -/
def Blk.mgmtRec (b : Blk) (c : CmdId) (op : Nat) : Option CmdRec :=
  match b.cmd c with
  | none => none
  | some r => if b.dead || b.mgmt.resetting || b.mgmt.failed || r.op != op || !b.mgmtTurn r then none else some r

/-- SEC_INFO (R386). -/
def secInfo (b : Blk) (c : CmdId) : Blk :=
  b.mgmtCmd c 0x20 (fun _ b => b.answerCmd c 0
    (toLe 8 b.sec.otp.serial.toNat ++ fit 8 b.sec.bootId ++ toLe 1 b.sec.svn ++ toLe 1 b.sec.otp.minSvn ++ toLe 1 b.secBits))

/-! ## Firmware (R372 to R374) -/

/-- What a command's read of n bytes gave, where its completions are there and are good. -/
def Blk.readGood (b : Blk) (r : CmdRec) (n : Nat) (host : HostResult) : Option Bytes :=
  if (b.mgmtRead r (r.arg 0x08 8) (r.arg 0x10 4) n host).1 && Machine.hostStatus host = 0 && !hostEp host then some (hostBytes host n) else none

/-- What a command does with its read of n bytes: a read that failed, or that is poisoned, is answered with its status or the one given. -/
def Blk.withGood (b : Blk) (r : CmdRec) (n : Nat) (host : HostResult) (bad : Nat) (go : Blk → Blk) : Blk :=
  b.withHost r n host (fun b =>
    if Machine.hostStatus host ≠ 0 then b.answerCmd r.id (Machine.hostStatus host) []
    else if hostEp host then (b.hubPoison 0 bad).answerCmd r.id bad []
    else go b)

/-- The image that FW_UPDATE accepts (R373): one that verifies as in order 2 of R371, for a slot that the directory names. -/
def Blk.fwAccepted (b : Blk) (m : Cells) (r : CmdRec) (img : HostResult) : Option Bytes :=
  (b.readGood r (r.arg 0x14 4) img).filter (fun bs => (dirFind m 2).isSome && firmwareOk b.sec.otp.minSvn b.sec.fwKey bs)

/-- FW_UPDATE: an image that fails is answered FW_REJECTED. Otherwise the slot is erased, and the command is answered once its image is
written, when it goes on; the running firmware goes on too (R373). One at a time writes. -/
def fwUpdate (b : Blk) (m : Cells) (c : CmdId) (img : HostResult) : Blk :=
  b.mgmtCmd c 0x21 (fun r b =>
    match b.mgmt.fwWriting with
    | some (k, _) => if k == c then { b with mgmt.fwWriting := none }.answerCmd c 0 [] else b
    | none => b.withGood r (r.arg 0x14 4) img 0xA0 (fun x =>
        match b.fwAccepted m r img with
        | some bs => { x.startCmd c with mgmt.fwWriting := some (c, bs) }
        | none => x.answerCmd c 0xA0 []))

/-- The flash after FW_UPDATE: an accepted image's slot is erased, and then holds the image. -/
def fwUpdateFlash (b : Blk) (m : Cells) (c : CmdId) (img : HostResult) : Cells :=
  match b.mgmtRec c 0x21, dirFind m 2 with
  | some r, some e =>
    match b.mgmt.fwWriting with
    | some (k, bs) => if k == c then dirSetLength (b.flashWrite (cclear m e.offset (max e.length bs.length)) e.offset bs) 2 bs.length else m
    | none => match b.fwAccepted m r img with
      | some bs => cclear m e.offset (max e.length bs.length)
      | none => m
  | _, _ => m

/-- OTP bits with MIN_SVN raised to an SVN; it is never lowered (R374). -/
def Otp.raiseSvn (o : Otp) (svn : Nat) : Otp := { o with minSvn := max o.minSvn svn }

/-- FW_SVN_COMMIT: MIN_SVN is raised to the SVN of the running firmware (R374). -/
def fwSvnCommit (b : Blk) (c : CmdId) : Blk :=
  b.mgmtCmd c 0x22 (fun _ b =>
    let o := b.sec.otp.raiseSvn b.sec.svn
    { b with sec.otp := o }.answerCmd c 0 (toLe 1 o.minSvn))

/-- The OTP bits after FW_SVN_COMMIT. -/
def fwSvnOtp (b : Blk) (o : Otp) (c : CmdId) : Otp := if (b.mgmtRec c 0x22).isSome then o.raiseSvn b.sec.svn else o

/-! ## Ownership (R375) -/

/-- An ownership blob opened (R375): the ECDH secret of E and the DeviceID key, an AES-256-GCM key from it by HKDF-SHA-256 with SERIAL as salt,
and the ciphertext deciphered with SERIAL as additional data, where the tag verifies. -/
def openBlob (deviceKey : Nat) (serial : DWord) (bs : Bytes) : Option Bytes :=
  let sn := toLe 8 serial.toNat
  (ecdhSecret deviceKey (sl bs 0 64)).bind (fun secret =>
    gcmOpen (hkdf256 sn secret Config.ownerInfo 32) (sl bs 0x40 12) sn (sl bs 0x50 64) (sl bs 0x90 16))

/-- What a command's ownership blob carries, where it is one that the security block accepts: OWNER_HASH followed by KEK. -/
def Blk.blobOpened (b : Blk) (r : CmdRec) (blob : HostResult) : Option Bytes :=
  (b.readGood r 160 blob).bind (fun bs => b.sec.deviceKey.bind (fun k => openBlob k b.sec.otp.serial bs))

/-- OTP bits with the owner programmed: ownership is set once (R368, R375). -/
def Otp.setOwner (o : Otp) (body : Bytes) : Otp :=
  if o.ownerSet then o else { o with ownerSet := true, ownerHash := sl body 0 32, kek := sl body 32 32 }

/-- OWNER_PROVISION: the first blob accepted sets the owner, who takes effect at the next cold or warm reset (R375). -/
def ownerProvision (b : Blk) (c : CmdId) (blob : HostResult) : Blk :=
  b.mgmtCmd c 0x23 (fun r b =>
    if b.sec.otp.ownerSet then b.answerCmd c 0xA1 []
    else b.withGood r 160 blob 0xA2 (fun x =>
      match b.blobOpened r blob with
      | none => x.answerCmd c 0xA2 []
      | some body => { x with sec.otp := b.sec.otp.setOwner body }.answerCmd c 0 []))

/-- The OTP bits after OWNER_PROVISION. -/
def ownerOtp (b : Blk) (o : Otp) (c : CmdId) (blob : HostResult) : Otp :=
  match (b.mgmtRec c 0x23).bind (fun r => b.blobOpened r blob) with
  | some body => if b.sec.otp.ownerSet then o else o.setOwner body
  | none => o

/-- The owner manifest that MANIFEST_UPDATE accepts (R386): one that verifies, for a slot that the directory names. -/
def Blk.manifestAccepted (b : Blk) (m : Cells) (r : CmdRec) (man : HostResult) : Option Bytes :=
  (b.readGood r 512 man).filter (fun bs => (dirFind m 3).isSome && b.sec.otp.ownerSet && ownerOk b.sec.otp.ownerHash bs)

/-- MANIFEST_UPDATE: the owner manifest is in force from the next reset (R386). -/
def manifestUpdate (b : Blk) (m : Cells) (c : CmdId) (man : HostResult) : Blk :=
  b.mgmtCmd c 0x24 (fun r b => b.withGood r 512 man 0xA0 (fun x =>
    x.answerCmd c (if (b.manifestAccepted m r man).isSome then 0 else 0xA0) []))

/-- The flash after MANIFEST_UPDATE. -/
def manifestFlash (b : Blk) (m : Cells) (c : CmdId) (man : HostResult) : Cells :=
  match (b.mgmtRec c 0x24).bind (fun r => b.manifestAccepted m r man), dirFind m 3 with
  | some bs, some e => dirSetLength (b.flashWrite (cclear m e.offset (max e.length 512)) e.offset bs) 3 512
  | _, _ => m

/-! ## Debug and zeroisation (R388, R389) -/

/-- Every other command in progress of a controller that is zeroised is answered ZEROIZED, but for SEC_INFO. -/
def Blk.answerZeroised (b : Blk) : Blk :=
  (b.hub.inProg.filter (fun r => r.op != 0x20)).foldl (fun b r => b.answerCmd r.id 0xA6 []) b

/-- The work of every block ended, as in an unconfigured controller (R63, R389): no request, task, move, message or lease is left. -/
def Blk.dropWork (b : Blk) : Blk :=
  let b1 := b.hub.apt.foldl (fun b a => b.pcie (.cplAbort a.tag)) b
  { b1 with
    str := { b1.str with loaded := false, run := {}, staged := none, commit := none }
    pool := { b1.pool with migs := [], stopped := [], cleanQ := [], zeroOn := false }
    ext := {}
    coh := {}
    work := { tds := b1.work.tds }
    fab := { b1.fab with inj := [], ctxs := [], outReqs := [], holds := [], arr := [], ejq := [] }
    traf := { b1.traf with ents := [], gates := [], stagedRegs := [] }
    rings := { b1.rings with snap := none, stopped := false }
    pair := { pins := 3, term := b1.pair.term }
    hub := { b1.hub with moves := [], waits := [], faults := [], tlb := [], apt := [],
                         invs := b1.hub.invs.map (fun (v : Inval) => { v with left := [] }) }
    mgmt := { b1.mgmt with reanswer := none, fetched := [], fwWriting := none }
    pwr := { b1.pwr with move := none, vcoreCmd := none, calWriting := none, holding := false, frozenLeases := [] }
    pins := { b1.pins with devFault := true } }

/-- Every key overwritten with zeros (R389 step 3), the Alias private key, the SPDM session keys and the IDE keys among them. -/
def Blk.zeroKeys (b : Blk) : Blk :=
  { b with
    sec.keySlots := []
    sec.kek := zeros32
    sec.guard := b.sec.guard.map (fun (g : Guard) =>
      { g with issuers := g.issuers.map (fun (e : Issuer) => { e with wrapped := zeros e.wrapped.length }) })
    sec.sessions := []
    sec.ideKeys := []
    sec.ideActive := []
    sec.aliasKey := none
    sec.zeroised := true }

/-- Zeroisation, after the command's answer (R389): the controller then behaves as unconfigured, with DEV_FAULT_N asserted. -/
def Blk.zeroise (b : Blk) : Blk := b.answerZeroised.dropWork.invEnd.zeroKeys

/-- DEBUG_CHALLENGE: a fresh nonce replaces any earlier one (R388). -/
def debugChallenge (b : Blk) (c : CmdId) : Blk :=
  b.mgmtCmd c 0x25 (fun _ b =>
    let d := b.draw
    let n := fit 32 (Config.random d.1)
    { d.2 with sec.nonce := some (n, b.tb) }.answerCmd c 0 n)

/-- DEBUG_UNLOCK (R388): every attempt uses up the nonce; level 2 zeroises first. -/
def debugUnlock (b : Blk) (c : CmdId) : Blk :=
  b.mgmtCmd c 0x26 (fun r b =>
    let level := r.arg 0x08 1
    let used : Blk := { b with sec.nonce := none }
    if !b.unlockable then (used.flag Reg.secErr 4).answerCmd c 0xA3 []
    else if !b.debugOk level (sl r.bytes 0x10 64) then (used.flag Reg.secErr 4).answerCmd c 0xA4 []
    else
      let b1 := (used.flag Reg.secErr 3).answerCmd c 0 []
      let b2 := if level = 2 then b1.zeroise else b1
      { b2 with sec.debug := level })

/-- ZEROIZE (R389). -/
def zeroizeCmd (b : Blk) (c : CmdId) : Blk := b.mgmtCmd c 0x27 (fun _ b => (b.answerCmd c 0 []).zeroise)

/-! ## Certificates, recovery and IDE (R372, R378, R380) -/

/-- CERT_READ: the slot 0 chain is written to host memory, where LIMIT allows (R386). -/
def certRead (b : Blk) (c : CmdId) : Blk :=
  b.mgmtCmd c 0x28 (fun r b =>
    let n := b.sec.chain.length
    if r.arg 0x14 4 < n then b.answerCmd c 0x78 (toLe 4 n)
    else if !(b.win r.f).master then b
    else (b.hostPut r.f (r.arg 0x10 4) (r.arg 0x08 8) b.sec.chain).answerCmd c 0 (toLe 4 n))

/-- The ports with ENABLE = 1 that stand in DISABLED start a full training. -/
def Blk.startPorts (b : Blk) : Blk :=
  (List.range 48).foldl (fun b n =>
    if b.linkOn n && (b.link n).state == .disabled then
      b.modLink n (fun k => { k with state := .training, tries := 0 }.attempt true b.tb)
    else b) b

/-- FW_RECOVER: outside recovery it is answered RECOVERY_ONLY. An image that verifies is started from the management controller's memory, and
the boot chain goes on at order 3; the flash slot is not written; the structure is loaded at once where every Husk channel has trained
meanwhile (R62, R372). -/
def fwRecover (b : Blk) (m : Cells) (c : CmdId) (img : HostResult) : Blk :=
  b.mgmtCmd c 0x29 (fun r b =>
    let bs := hostBytes img (r.arg 0x14 4)
    if !b.sec.recovery then b.answerCmd c 0xA7 []
    else b.withGood r (r.arg 0x14 4) img 0xA0 (fun b =>
      if !firmwareOk b.sec.otp.minSvn b.sec.fwKey bs then b.answerCmd c 0xA0 []
      else
        let b1 := b.answerCmd c 0 []
        ({ b1 with sec.recovery := false, pins.devFault := b1.pwr.trip }.bootGo m ((flashObj m 1).getD []) bs).bootLoadNow.startPorts))

/-- IDE_INFO (R386). -/
def ideInfo (b : Blk) (c : CmdId) : Blk := b.mgmtCmd c 0x2A (fun _ b => b.answerCmd c 0 (toLe 4 b.ideStatus))

/-- IDE_REQUIRE_WRITE: REQUIRE is sticky (R380, R392). -/
def ideRequireWrite (b : Blk) (v : Word) : Blk := b.posted (fun b => if v.getLsbD 0 then b.flag Reg.secIdeCfg 0 else b)

end Sys2Proof.Machine
end

