-- ==== Sys2Proof/Machine/Regs.lean ====
section
/-! DEFINITION. Writes of registers (R22, R72, R73, R287, R297, R305, R306, R439). -/

namespace Sys2Proof.Machine

/-! ## Access codes (R22) -/

/-- The value that a write of a field stores: a value outside the field's range is clamped into it. -/
def RField.clamped (f : RField) (n : Nat) : Nat :=
  match f.clamp with
  | some (lo, hi) => max lo (min hi n)
  | none => n

/-- A register after a write has reached one of its fields (R22). RO, WO, RWL and EP fields store nothing here. -/
def RField.write (f : RField) (v old : Word) : Word :=
  match f.acc with
  | .rw => putField old f.lo f.width (f.clamped ((v >>> f.lo).toNat % 2 ^ f.width))
  | .w1c => old &&& ~~~ (putField 0 f.lo f.width ((v >>> f.lo).toNat % 2 ^ f.width))
  | .ro | .wo | .rwl | .ep => old

/-- A register written field by field. -/
def Blk.fieldWrite (b : Blk) (off : Nat) (v : Word) : Blk :=
  b.setReg off ((regFields off).foldl (fun r f => f.write v r) (b.reg off))

/-- Has a register a field with an access code. -/
def hasAcc (off : Nat) (a : Acc) : Bool := (regFields off).any (fun f => f.acc == a)

/-- GUARD_LOCKED_WRITE: a write to an RWL field after the lock is ignored and logged; before it only boot code may write (R22). -/
def Blk.guardWrite (b : Blk) (off : Nat) : Blk :=
  if b.str.locked then ((b.flag Reg.strErr 1).log 0x02 0xFF 0 off 0).aonAdd 217 1 else b

/-- STRUCT_LIVE_WRITE: a write to an EP field is ignored, logged and counted, and its offset is kept (R22, R72). -/
def Blk.liveWrite (b : Blk) (off : Nat) : Blk :=
  let b1 := ((b.flag Reg.strErr 0).log 0x01 0xFF 0 off 0).aonAdd 216 1
  (b1.incr Reg.strLiveWriteCnt).setReg Reg.strLiveWriteAddr (BitVec.ofNat 32 off)

/-- A register written under its access codes. -/
def Blk.accWrite (b : Blk) (off : Nat) (v : Word) : Blk :=
  let b1 := if hasAcc off .rwl then b.guardWrite off else b
  let b2 := if hasAcc off .ep then b1.liveWrite off else b1
  if (regFields off).isEmpty then b2 else b2.fieldWrite off v

/-! ## Registers whose write does more -/

/-- A TRF_ENT_ register staged for APPLY (R306). -/
def Blk.stageTraf (b : Blk) (off : Nat) (v : Word) : Blk :=
  { b.fieldWrite off v with traf.stagedRegs := with1 b.traf.stagedRegs off }

/-- TRF_ENT_SEL: another entry drops what has been staged (R306). -/
def Blk.trfSelWrite (b : Blk) (v : Word) : Blk :=
  let b1 := b.fieldWrite Reg.trfEntSel v
  if b1.reg Reg.trfEntSel = b.reg Reg.trfEntSel then b1 else { b1 with traf.stagedRegs := [] }

/-- TRF_ENT_CTL: APPLY, then REMOVE (R297, R306). -/
def Blk.trfCtlWrite (b : Blk) (v : Word) : Blk :=
  let b1 := if v.getLsbD 0 then trafApply b else b
  if v.getLsbD 1 then trafRemove b1 else b1

/-- LNK[n]_CTL: FORCE_FULL, then ENABLE (R287). -/
def Blk.lnkCtlWrite (b : Blk) (n : Nat) (v : Word) : Blk :=
  let b1 := if v.getLsbD 1 then forceFull b n else b
  if v.getLsbD 0 then linkEnable b1 n else linkDisable b1 n

/-- OBS_TRACE_ENABLE: one word of ENABLE (R60, R439). There are 14 sources; the bits above are reserved. -/
def Blk.traceEnableWrite (b : Blk) (hi : Bool) (v : Word) : Blk :=
  if hi then b
  else b.liveTrace (fun t => { t with enable := BitVec.ofNat 64 (v.toNat % 2 ^ 14) })

/-- OBS_DUMP_CFG: PERIOD_US is the live field of the TRACE body (R73, R439). -/
def Blk.dumpCfgWrite (b : Blk) (v : Word) : Blk :=
  let b1 := b.fieldWrite Reg.obsDumpCfg v
  b1.liveTrace (fun t => { t with dumpUs := max 10 (min 1000000 (v.toNat % 2 ^ 20)) })

/-- OBS_RING_CFG: WRAP of the selected ring (R429, R439). -/
def Blk.ringCfgWrite (b : Blk) (v : Word) : Blk :=
  b.modRing (b.field Reg.obsRingSel 0 2) (fun r => { r with wrap := v.getLsbD 0 })

/-- OBS_SNAP_CFG: the enables and HOLD, then RELEASE (R436, R439). -/
def Blk.snapCfgWrite (b : Blk) (v : Word) : Blk :=
  let b1 := b.fieldWrite Reg.obsSnapCfg v
  if v.getLsbD 5 then b1.snapRelease else b1

/-- The port whose LNK[n]_CTL lies at an offset. -/
def lnkCtlPort (off : Nat) : Option Nat :=
  if 0x5200000 ≤ off && off < 0x5230000 && off % 0x1000 == 0 then some ((off - 0x5200000) / 0x1000) else none

/-- What a write of a register does (R22). -/
def Blk.writeReg (b : Blk) (off : Nat) (v : Word) : Blk :=
  if off = Reg.strTier then strTierWrite b v
  else if off = Reg.trfEntSel then b.trfSelWrite v
  else if off = Reg.trfEntKey || off = Reg.trfEntCir || off = Reg.trfEntPir || off = Reg.trfEntCbs || off = Reg.trfEntPbs ||
      off = Reg.trfEntOvh then b.stageTraf off v
  else if off = Reg.trfEntCtl then b.trfCtlWrite v
  else if off = Reg.trfSmpQueue then smpQueueWrite b v
  else if off = Reg.trfSmpCtl then (if v.getLsbD 0 then smpClear b else b)
  else if off = Reg.secIdeCfg then (if v.getLsbD 0 then b.flag Reg.secIdeCfg 0 else b)
  else if off = Reg.obsPcCtl then pcCtlWrite b v
  else if off = Reg.obsTraceEnableLo then b.traceEnableWrite false v
  else if off = Reg.obsTraceEnableHi then b.traceEnableWrite true v
  else if off = Reg.obsDumpCfg then b.dumpCfgWrite v
  else if off = Reg.obsRingCfg then b.ringCfgWrite v
  else if off = Reg.obsRingTailLo then tailWrite b false v
  else if off = Reg.obsRingTailHi then tailWrite b true v
  else if off = Reg.obsSnapCfg then b.snapCfgWrite v
  else if off = Reg.obsRingExtent then ringExtentWrite b v
  else match lnkCtlPort off with
    | some n => b.lnkCtlWrite n v
    | none => b.accWrite off v

/-- REGISTER_WRITE: the host writes a register of BAR0 (R22, R24). -/
def registerWrite (b : Blk) (off : Nat) (v : Word) : Blk := b.posted (fun b => b.writeReg off v)

end Sys2Proof.Machine
end

