-- ==== Sys2Proof/Machine/Counters.lean ====
section
/-! DEFINITION. The meanings of the commands: The timebase, counters, rings and snapshots (R417 to R439). -/

namespace Sys2Proof.Machine

/-- REFERENCE_LOST (R418): 200 ns without a TB_REF edge freezes the timebase and every timer. -/
def execReferenceLost (s : State) : Out := act (fun b => Machine.referenceLost b) s

/-- REFERENCE_RESTORED (R418): After 100 µs of unbroken edges the timebase resumes from its held value. -/
def execReferenceRestored (hSteps : DWord) (s : State) : Out := act (fun b => Machine.referenceRestored b hSteps.toNat) s

/-- COUNTER_DUMP (R430): At each dump period every counter is latched and one record is written to the dump ring, or skipped. -/
def execCounterDump (s : State) : Out := live (fun b => Machine.counterDump b) s

/-- PC_CTL_WRITE (R424): A write of OBS_PC_CTL programs the selected counter and resets it at the next event boundary. -/
def execPcCtlWrite (v : Word) (s : State) : Out := live (fun b => b.posted (fun b => Machine.pcCtlWrite b v)) s

/-- CTR_READ (R435): The command returns programmable counters, with VALID only for those of the partition. -/
def execCtrRead (c : CmdId) (s : State) : Out := live (fun b => Machine.ctrRead b c) s

/-- SMP_READ (R435): The command returns a sampler slot's maxima and bins. -/
def execSmpRead (c : CmdId) (s : State) : Out := live (fun b => Machine.smpRead b c) s

/-- TSTEP_READ (R435): The command returns a Tiller's six T-step counts. -/
def execTstepRead (c : CmdId) (s : State) : Out := live (fun b => Machine.tstepRead b c) s

/-- SNAPSHOT (R436): The command stops dispatch and issue and starts writing a hang snapshot. -/
def execSnapshot (c : CmdId) (s : State) : Out := live (fun b => snapshotCmd b c) s

/-- SNAPSHOT_END (R436): The last snapshot section is written, and issue resumes unless HOLD is set. -/
def execSnapshotEnd (s : State) : Out := live (fun b => Machine.snapshotEnd b) s

/-- SNAP_RELEASE (R439): A write of OBS_SNAP_CFG.RELEASE resumes issue stopped by a snapshot. -/
def execSnapRelease (s : State) : Out := live (fun b => b.posted Blk.snapRelease) s

/-- TRACE_MARK (R434): The command writes a marker trace record carrying VALUE. -/
def execTraceMark (c : CmdId) (s : State) : Out := live (fun b => Machine.traceMark b c) s

/-- RING_EXTENT_WRITE (R439): A write of OBS_RING_EXTENT names or unnames a ring's extent at its next record boundary, or is
rejected. -/
def execRingExtentWrite (v : Word) (s : State) : Out := live (fun b => b.posted (fun b => Machine.ringExtentWrite b v)) s

/-- TAIL_WRITE (R427): Software writes a ring's TAIL, which frees space for new records. -/
def execTailWrite (hi : Bool) (v : Word) (s : State) : Out := live (fun b => b.posted (fun b => Machine.tailWrite b hi v)) s

end Sys2Proof.Machine
end

