-- ==== Sys2Proof/Machine/Eject.lean ====
section
/-! DEFINITION. Ejection: the checks of a packet, reorder contexts, and the hand-over of complete messages to their targets (R238 to
R243, R252 to R254). -/

namespace Sys2Proof.Machine

/-! ## What a packet holds (R237, R240, R241) -/

/-- The ARG bits that a type uses; every other is reserved (R241). -/
def argMask (ty : Nat) : Nat :=
  let addr := 2 ^ 48 - 1
  if ty = 0x40 then 2 ^ 64 - 1 + 3 * 2 ^ 88
  else if ty ∈ [0x03, 0x41, 0x42, 0x43, 0x44, 0x45] then 2 ^ 64 - 1
  else if ty ∈ [0x04, 0xC0, 0xC1, 0xC2, 0xC3] then addr
  else if ty = 0xC4 then 2 ^ 55 - 1 + (2 ^ 32 - 1) * 2 ^ 64
  else if ty = 0xC5 || ty = 0xC6 then addr + 511 * 2 ^ 64
  else if ty = 0xD0 then 1
  else if ty = 0xD1 then 2 ^ 52 - 1 + (2 ^ 32 - 1) * 2 ^ 64
  else if ty ∈ [0xD2, 0xD3, 0xD4] then 2 ^ 18 - 1
  else if ty = 0xD5 then 255 + (2 ^ 32 - 1) * 2 ^ 64
  else if ty = 0x4C then 2 ^ 34 - 1
  else 0

/-- Is a payload length one that R240 allows for a type. -/
def lenOk (ty len arg : Nat) : Bool :=
  if ty = 0x03 || ty = 0x04 then len == 128
  else if ty = 0xC3 then len == 144
  else if ty = 0xC6 then len == 128 || len == 256
  else if ty = 0xC4 then match atmSize (fld arg 53 52) with
    | none => len ≤ 32
    | some n => len == if fld arg 51 48 = 9 then 2 * n else n
  else if ty = 0xD2 then len == 64
  else if ty = 0xD3 || ty = 0x4C then len == 8
  else if ty = 0x4D then len == 96
  else len == 0

/-- The types that the controller receives (R240). -/
def receivedTypes : List Nat :=
  [0x03, 0x04, 0x41, 0x42, 0x43, 0x44, 0x45, 0x4C, 0x4D, 0xC0, 0xC1, 0xC2, 0xC3, 0xC4, 0xC5, 0xC6,
   0xD0, 0xD1, 0xD2, 0xD3, 0xD4, 0xD5, 0xD6]

/-- Is a packet well-formed at ejection (R238, R240): a Cmp comes from the peer alone, and Heartbeats and orders from the peer and
the witness. -/
def Blk.packetOk (b : Blk) (h : BitVec 256) : Bool :=
  let ty := hfld h 15 8; let arg := (hdrArg h).toNat; let src := hfld h 47 32; let psn := hfld h 71 64
  hfld h 1 0 == 1 && hfld h 3 2 == ty / 64 && hfld h 5 4 == tcOf ty &&
  (receivedTypes.contains ty || (ty == 0x40 && b.isPeer src)) && ((ty != 0x4C && ty != 0x4D) || b.pairSource src) &&
  hfld h 79 79 == 0 && hfld h 95 89 == 0 && hfld h 127 123 == 0 && lenOk ty (hfld h 88 80) arg &&
  psn != 255 && (ty == 0xC6 || (psn == 0 && hfld h 6 6 == 1))

/-! ## Complete messages -/

/-- The request that a header names, with a reserved bit seen elsewhere. -/
def hdrReq (h : BitVec 256) (more : Bool) : Req :=
  let ty := hfld h 15 8; let arg := (hdrArg h).toNat
  ⟨BitVec.ofNat 16 (hfld h 47 32), BitVec.ofNat 16 (hfld h 63 48), BitVec.ofNat 16 (hfld h 111 96),
   arg &&& argMask ty != arg || more⟩

/-- The lines of a bulk payload. -/
def bulkLines (bs : Bytes) (p0 p1 : Bool) : List LineIn :=
  if bs.length ≤ 128 then [⟨bs, p0⟩] else [⟨bs.take 128, p0⟩, ⟨bs.drop 128, p1⟩]

/-- An atomic from its fields (R118, R241). -/
def atmOp (addr op size : Nat) (record : Bool) (atag : Word) (payload : Bytes) : AtmOp :=
  let n := (atmSize size).getD 0
  { addr := addr, op := op, size := size, operand := le payload 0 n, compare := if op = 9 then le payload n n else 0,
    record := record, atag := atag }

/-- A complete single-packet message handed to its target (R240 to R243). -/
def Blk.handOver (b : Blk) (q : Nat) (h : BitVec 256) (pl : Bytes) : Blk :=
  let ty := hfld h 15 8; let arg := (hdrArg h).toNat
  let addr := arg % 2 ^ 48; let snp := fld arg 63 48; let p0 := hfld h 7 7 == 1
  let r := hdrReq h false
  let cookie := fld arg 95 64
  if ty = 0x03 then snoopResponse b r addr snp (.data pl p0)
  else if ty = 0x04 then reqWrBack b r addr pl p0
  else if ty = 0x40 then (if r.reservedSet then (b.rspIn b.str.run.pair.peer 0).malformed q else mirrorCmpAt b snp r.traceId.toNat (hfld h 119 112))
  else if ty = 0x41 then snoopResponse b r addr snp .i
  else if ty = 0x42 then snoopResponse b r addr snp .s
  else if ty = 0x43 then snoopResponse b r addr snp .cur
  else if ty = 0x44 then snoopResponse b r addr snp .wbPend
  else if ty = 0x45 then reqCmpAck b r addr snp
  else if ty = 0x4C then heartbeatMsg b r (fld arg 33 32)
  else if ty = 0x4D then takeoverMsg b r pl
  else if ty = 0xC0 then reqRead b 0xC0 .rds .rds r addr
  else if ty = 0xC1 then reqRead b 0xC1 .rdx .rdx r addr
  else if ty = 0xC2 then reqRead b 0xC2 .rdonce .read r addr
  else if ty = 0xC3 then (reqWrLine b r addr (pl.take 128) (BitVec.ofNat 128 (le pl 128 16)) p0).afterWrite r.src.toNat
  else if ty = 0xC4 then
    reqAtomic b r (atmOp addr (fld arg 51 48) (fld arg 53 52) (bit arg 54) (BitVec.ofNat 32 cookie) pl) pl.length
  else if ty = 0xC5 then reqRdBulk b r addr (fld arg 72 64 + 1)
  else if ty = 0xD0 then leaseMsg b r (bit arg 0)
  else if ty = 0xD1 then submitMsg b r addr (fld arg 51 48) cookie
  else if ty = 0xD2 then
    publishMsg b (hdrReq h (!allZero (sl pl 0x18 8))) (arg % 2 ^ 18) (BitVec.ofNat 64 (le pl 0 8)) (BitVec.ofNat 64 (le pl 8 8))
      (BitVec.ofNat 64 (le pl 16 8)) (sl pl 32 32)
  else if ty = 0xD3 then unpublishMsg b r (arg % 2 ^ 18) (BitVec.ofNat 64 (le pl 0 8))
  else if ty = 0xD4 then queryMsg b r (arg % 2 ^ 18)
  else if ty = 0xD5 then cancelMsg b r (arg % 256) cookie
  else agentRegisterMsg b r

/-- A complete WrBulk handed to its home agent (R242). -/
def Blk.bulkOver (b : Blk) (h : BitVec 256) (got : List (Nat × Nat × Bytes × List Bool × Bool)) : Blk :=
  let arg := (hdrArg h).toNat
  let lens := got.map (fun (e : Nat × Nat × Bytes × List Bool × Bool) => e.2.1)
  let lines := (got.map (fun (e : Nat × Nat × Bytes × List Bool × Bool) =>
    bulkLines e.2.2.1 (e.2.2.2.1.getD 0 false) (e.2.2.2.1.getD 1 false))).flatten
  (reqWrBulk b (hdrReq h false) (arg % 2 ^ 48) (fld arg 72 64 + 1) lens lines).afterWrite (hfld h 47 32)

/-! ## Reorder contexts (R252, R253) -/

/-- Does a packet break a check of R253 against its context. -/
def Ctx.clashes (c : Ctx) (h : BitVec 256) : Bool :=
  let psn := hfld h 71 64; let last := hfld h 6 6 == 1
  c.ty != hfld h 15 8 || c.dst != hfld h 31 16 || c.arg != hdrArg h ||
  (last && c.expected.isSome && c.expected != some (psn + 1)) ||
  (match mget c.got psn with
    | some (_, _, _, l) => l != last
    | none => false) ||
  (match c.expected with
    | some e => decide (e ≤ psn)
    | none => false) ||
  (last && c.got.any (fun e => decide (psn < e.1)))

/-- A packet of a WrBulk: it opens, joins or ends its context; a message of one packet is complete on arrival (R252, R253). -/
def Blk.bulkPacket (b : Blk) (q : Nat) (h : BitVec 256) (pl : Bytes) : Blk :=
  let src := hfld h 47 32; let id := hfld h 63 48; let psn := hfld h 71 64; let last := hfld h 6 6 == 1
  let e : Nat × Bytes × List Bool × Bool := (hfld h 88 80, pl, [hfld h 7 7 == 1, hfld h 78 78 == 1], last)
  match b.fab.ctxs.find? (fun c => c.home == q && c.src == src && c.msgId == id) with
  | none =>
    if psn = 0 && last then b.bulkOver h [(psn, e)]
    else if 1024 ≤ (b.fab.ctxs.filter (fun c => c.home == q)).length then (b.incr (Reg.nrmCtxFullCnt q)).flag (Reg.nrmRtErr q) 6
    else
      let c : Ctx := { home := q, src := src, msgId := id, ty := hfld h 15 8, dst := hfld h 31 16, arg := hdrArg h,
                       traceId := hfld h 111 96, openedAt := b.tb, timeoutUs := b.field Reg.nrmReorderCfg 0 14,
                       expected := if last then some (psn + 1) else none, got := [(psn, e)] }
      { b with fab.ctxs := b.fab.ctxs ++ [c] }.event (60 + q) 3 none
  | some c =>
    let rest := b.fab.ctxs.filter (· != c)
    if c.clashes h then { b with fab.ctxs := rest }.malformed q
    else if mhas c.got psn then b.incr (Reg.nrmDupCnt q)
    else
      let got := mput c.got psn e
      let expected := if last then some (psn + 1) else c.expected
      if expected = some got.length then { b with fab.ctxs := rest }.bulkOver h got
      else { b with fab.ctxs := b.fab.ctxs.map (fun x => if x = c then { c with got := got, expected := expected } else x) }

/-- A packet taken out of the ejection queue of a quadrant, or of the hub, where it stands in one. -/
def Blk.takeEjected (b : Blk) (q : Nat) (p : Packet) : Blk :=
  match b.fab.ejq.find? (fun e => (e.quad == q || e.quad == 4) && e.hdr == p.hdr && e.payload == p.payload) with
  | some e => { b with fab.ejq := b.fab.ejq.erase e }
  | none => b

/-- Is a packet a request about an extent whose source has no EID entry: the router of the quadrant where it ejects counts it (R235). -/
def Blk.lostSource (b : Blk) (q : Nat) (h : BitVec 256) : Bool :=
  [0xD2, 0xD3, 0xD4].contains (hfld h 15 8) && !mhas (b.view (.router (Fin.ofNat 4 q))).eids (hfld h 47 32)

/-- PACKET_EJECT: a packet for SELF reaches its ejection point: E2E_CRC first, then the checks of R238, then reassembly (R252, R254). A
device without a structure answers nothing (R63). -/
def packetEject (b0 : Blk) (q : Nat) (p : Packet) : Blk :=
  let h := p.hdr
  let pl := fit (hfld h 88 80) p.payload
  if b0.dead then b0
  else
  let b := b0.takeEjected q p
  if !b.str.loaded then b
  else
    let b1 := b.event (60 + q) 2 (some (b.hostPart (hfld h 47 32)))
    if e2eCrc h pl ≠ hfld h 255 224 then ((b1.incr (Reg.nrmDropCrcCnt q)).flag (Reg.nrmRtErr q) 3).aonAdd 212 1
    else if !b1.packetOk h then b1.malformed q
    else if b1.lostSource q h then b1.noRoute q
    else if hfld h 15 8 = 0xC6 then b1.bulkPacket q h pl
    else b1.handOver q h pl

end Sys2Proof.Machine
end

