-- ==== Sys2Proof/Machine/Fabric.lean ====
section
/-! DEFINITION. The meanings of the commands: Die-to-die links, routing, ejection and injection (R32 to R36, R236 to R258). -/

namespace Sys2Proof.Machine

/-- D2D_UNIT_RECEIVE (R32): A die-to-die transfer unit arrives; it is accepted, discarded as a duplicate, or discarded and requested
again if its CRC fails. -/
def execD2dUnitReceive (src dst : Die) (seq : BitVec 12) (crcOk : Bool) (s : State) : Out :=
  live (fun b => Machine.d2dUnitReceive b src dst seq.toNat crcOk) s

/-- D2D_RETRY_REQUEST (R32): The sender resends a unit from its retry buffer and counts the retry. -/
def execD2dRetryRequest (src dst : Die) (seq : BitVec 12) (s : State) : Out :=
  live (fun b => Machine.d2dRetryRequest b src dst seq.toNat) s

/-- WORM_HEAD_ROUTE (R248): A worm head at a router input is assigned its preferred output or deflected, in order of age. -/
def execWormHeadRoute (q : Quad) (input : RouterIn) (s : State) : Out := live (fun b => Machine.wormHeadRoute b q input) s

/-- PACKET_EJECT (R252): An ejected packet is checked and reassembled, and a complete message is handed to its target. -/
def execPacketEject (q : Quad) (pkt : Packet) (s : State) : Out := live (fun b => Machine.packetEject b q pkt) s

/-- PACKET_INJECT (R290): A packet in an injection queue enters its output once the output is free and its shaper and gate allow it.
-/
def execPacketInject (q : Quad) (s : State) : Out := live (fun b => Machine.packetInject b q) s

/-- REORDER_TIMEOUT (R253): A reorder context times out and its packets are discarded. -/
def execReorderTimeout (q : Quad) (src : Eid) (msgId : BitVec 16) (s : State) : Out :=
  live (fun b => Machine.reorderTimeout b q src.toNat msgId.toNat) s

/-- REQUEST_TIMEOUT (R255): A request of the controller without an answer completes with FAB_TIMEOUT. -/
def execRequestTimeout (dst : Eid) (msgId : BitVec 16) (s : State) : Out :=
  live (fun b => Machine.requestTimeout b dst.toNat msgId.toNat) s

/-- POLICED (R258): A POLICED notice carrying the drop count is sent when a drop occurs or its 100 µs interval ends. -/
def execPoliced (eid : Eid) (cls : BitVec 2) (s : State) : Out := live (fun b => policedDue b eid.toNat cls.toNat) s

end Sys2Proof.Machine
end

