-- ==== Sys2Proof/Machine/HomeWork.lean ====
section
/-! DEFINITION. The meanings of the commands: The work of the home agents (R113, R123, R125 to R127). -/

namespace Sys2Proof.Machine

/-- BUSY_LINE_SERVE (R113): A request waiting for a busy line is served in acceptance order once the line's transaction ends. -/
def execBusyLineServe (q : Quad) (s : State) : Out := live (fun b => busyServe b q) s

/-- RAT_ENTRY_EXPIRY (R123): A recent-atomics entry becomes free 10 ms after it was recorded. -/
def execRatEntryExpiry (q : Quad) (eid : Eid) (atag : Word) (s : State) : Out := live (fun b => ratExpiry b q eid.toNat atag) s

/-- SNOOP_TIMEOUT (R125): An unanswered snoop or missing CmpAck times out; the snoop is sent again and the agent's timeout count
rises. -/
def execSnoopTimeout (q : Quad) (addr : Addr) (eid : Eid) (s : State) : Out :=
  live (fun b => snoopTimeoutAt b q (lineOf addr.toNat) eid.toNat) s

/-- SUSPEND_TAKE (R126): A home agent takes SUSPEND at its quiesce point and from then treats the agent as holding no line. -/
def execSuspendTake (q : Quad) (eid : Eid) (s : State) : Out := live (fun b => suspendTakeAt b q eid.toNat) s

/-- RECLAIM_WALK (R127): A home agent reads the next directory set of its walk for a suspended agent, within the reclaim cap. -/
def execReclaimWalk (q : Quad) (eid : Eid) (s : State) : Out := live (fun b => reclaimStep b q eid.toNat) s

end Sys2Proof.Machine
end

