-- ==== Sys2Proof/Machine/Links.lean ====
section
/-! DEFINITION. The meanings of the commands: The link layer (R265 to R287). -/

namespace Sys2Proof.Machine

/-- CODEWORD_RECEIVE (R265): A KP4 codeword is decoded, corrected or marked uncorrectable, which marks its flits bad. -/
def execCodewordReceive (n : PortIx) (cw : Codeword) (s : State) : Out := live (fun b => Machine.codewordReceive b n cw) s

/-- IDLE_FLIT (R273): An IDLE flit is received and its acknowledgement is taken. -/
def execIdleFlit (n : PortIx) (f : Flit) (s : State) : Out := live (fun b => Machine.idleFlit b n f) s

/-- HEAD_FLIT (R275): A HEAD flit is accepted, discarded as a duplicate, or discarded with a NAK, and starts a packet. -/
def execHeadFlit (n : PortIx) (f : Flit) (s : State) : Out := live (fun b => Machine.headFlit b n f) s

/-- DATA_FLIT (R275): A DATA flit is accepted in sequence and forwarded with its packet. -/
def execDataFlit (n : PortIx) (f : Flit) (s : State) : Out := live (fun b => Machine.dataFlit b n f) s

/-- ABORT (R281): An ABORT flit ends a truncated packet, which is discarded. -/
def execAbort (n : PortIx) (f : Flit) (s : State) : Out := live (fun b => abortFlit b n f) s

/-- NAK (R276): A NAK acknowledges up to its ACK value and starts a replay from the next flit. -/
def execNak (n : PortIx) (f : Flit) (s : State) : Out := live (fun b => nakFlit b n f) s

/-- PORT_CLOSING (R286): An LCTL PORT_CLOSING puts the side into CLOSING and stops it taking new worms. -/
def execPortClosing (n : PortIx) (f : Flit) (s : State) : Out := live (fun b => Machine.portClosing b n f) s

/-- PORT_CLOSED (R286): An LCTL PORT_CLOSED completes the orderly close, and the link leaves UP. -/
def execPortClosed (n : PortIx) (f : Flit) (s : State) : Out := live (fun b => Machine.portClosed b n f) s

/-- TRAIN (R269): A TRAIN flit advances the stage 5 exchange towards READY and entry into UP. -/
def execTrain (n : PortIx) (t : TrainFlit) (crcOk : Bool) (s : State) : Out := live (fun b => trainFlit b n t crcOk) s

/-- FLIT_CRC_FAIL (R275): A flit that fails its CRC or is marked bad is discarded, a NAK is sent, and the receiver enters replay
wait. -/
def execFlitCrcFail (n : PortIx) (s : State) : Out := live (fun b => Machine.flitCrcFail b n) s

/-- NAK_RESEND (R275): RX_NEXT has not been accepted 1 µs after a NAK, so the NAK is sent again. -/
def execNakResend (n : PortIx) (s : State) : Out := live (fun b => Machine.nakResend b n) s

/-- ACK_TIMEOUT (R276): No acknowledgement has advanced TX_OLDEST for ACK_TIMEOUT_US, so the sender replays from TX_OLDEST. -/
def execAckTimeout (n : PortIx) (s : State) : Out := live (fun b => Machine.ackTimeout b n) s

/-- ACK_TIMER (R277): 250 ns after an unacknowledged accepted flit, the receiver returns an acknowledgement. -/
def execAckTimer (n : PortIx) (s : State) : Out := live (fun b => Machine.ackTimer b n) s

/-- LINK_DOWN (R282): A link in UP goes down for LOS, LOCK, UNCORR_BURST, SILENT or REPLAY_LIMIT, and enters HELD. -/
def execLinkDown (n : PortIx) (cause : DownCause) (s : State) : Out := live (fun b => Machine.linkDown b n cause) s

/-- GRACE_EXPIRY (R284): The grace timer of a HELD link ends. -/
def execGraceExpiry (n : PortIx) (s : State) : Out := live (fun b => Machine.graceExpiry b n) s

/-- TRAINING_STAGE_DONE (R268): A training stage completes and the next stage starts. -/
def execTrainingStageDone (n : PortIx) (lanes polarity : BitVec 4) (reversed : Bool) (s : State) : Out :=
  live (fun b => Machine.trainingStageDone b n lanes.toNat polarity.toNat reversed) s

/-- TRAINING_STAGE_TIMEOUT (R268): A training stage exceeds its limit, and a new attempt starts. -/
def execTrainingStageTimeout (n : PortIx) (s : State) : Out := live (fun b => Machine.trainingStageTimeout b n) s

/-- WORM_GAP_TIMEOUT (R279): A forwarded worm's next flit has not arrived within 4 µs, so the router ends it with an ABORT. -/
def execWormGapTimeout (n : PortIx) (s : State) : Out := live (fun b => Machine.wormGapTimeout b n) s

/-- CLOSE_TIMEOUT (R286): An orderly close has not ended within 100 µs, so the side flushes. -/
def execCloseTimeout (n : PortIx) (s : State) : Out := live (fun b => Machine.closeTimeout b n) s

/-- LINK_ENABLE (R287): ENABLE written 1 starts training of the port. -/
def execLinkEnable (n : PortIx) (s : State) : Out := live (fun b => b.posted (fun b => Machine.linkEnable b n)) s

/-- LINK_DISABLE (R286): ENABLE written 0 starts an orderly close, or flushes a HELD link. -/
def execLinkDisable (n : PortIx) (s : State) : Out := live (fun b => b.posted (fun b => Machine.linkDisable b n)) s

/-- FORCE_FULL (R287): A write of FORCE_FULL makes the next training attempt a full training. -/
def execForceFull (n : PortIx) (s : State) : Out := live (fun b => b.posted (fun b => Machine.forceFull b n)) s

end Sys2Proof.Machine
end

