-- ==== Sys2Proof/Machine/Beat.lean ====
section
/-! DEFINITION. What the hub sends: worms on its links, and the Heartbeats of the pair engine (R32 to R34, R357). -/

namespace Sys2Proof.Machine

/-- A message of the hub's own: its packet leaves on the hub link of quadrant 0, whose units detour while that link has failed (R34), and is
routed as a worm of that input (R248). DESIGN CHOICE (log entry 24): the manual does not say which quadrant the hub sends by. -/
def Blk.hubSend (b : Blk) (m : Msg) : Blk :=
  let s := b.view (.router 0)
  if b.dead then b
  else if !mhas s.eids m.dst then b.noRoute 0
  else
    let t := b.newTrace
    let x := t.2.newMsgId m.dst
    let n : Msg := { m with traceId := t.1, msgId := x.1, at_ := b.tb }
    (x.2.trace { source := 3, event := 1, part := n.part, unit := 112, eid := n.dst, traceId := n.traceId, msgId := n.msgId, ty := n.ty }).modD2d 4 0
      (fun d => d.push { hdr := n.header s.self, payload := n.chunk, part := n.part })

/-- A Heartbeat to one destination (R357). -/
def Blk.sendHeartbeat (b : Blk) (dst : Nat) : Blk :=
  b.hubSend { ty := 0x4C, dst := dst, msgId := 0, traceId := 0, arg := argAt b.pair.hbSeq 0 ||| argAt b.hbRole 32,
                 payload := toLe 8 b.tb, poisons := [false] }

/-- HEARTBEAT_SEND: every 1 ms a Heartbeat with the next SEQ goes to the peer and the witness, and a millisecond without a witness
Heartbeat is counted (R357, R367). -/
def heartbeatSend (b : Blk) : Blk :=
  let due := match b.pair.hbAt with
    | none => true
    | some t => t + 1000000 ≤ b.tb
  if !b.hbOn || !due then b
  else
    let b0 := b.syncCheck
    let heard : Bool := match b0.pair.witAt with
      | some t => b0.tb < t + 1000000
      | none => false
    let b1 := if heard then b0 else b0.incr Reg.hubHbMissCnt
    let b2 : Blk := { b1 with
      pair.hbSeq := (b1.pair.hbSeq + 1) % 2 ^ 32, pair.hbSent := min 16 (b1.pair.hbSent + 1), pair.hbAt := some b1.tb }
    (b2.sendHeartbeat b2.str.run.pair.peer).sendHeartbeat b2.str.run.pair.witness

end Sys2Proof.Machine
end

