-- ==== Sys2Proof/Machine/PairWork.lean ====
section
/-! DEFINITION. The meanings of the commands: The pair (R353 to R364). -/

namespace Sys2Proof.Machine

/-- MIRROR_CMP (R353): The peer's Cmp for a mirror write arrives, and the host's write completes. -/
def execMirrorCmp (msgId : BitVec 16) (cmp : PeerCmp) (s : State) : Out :=
  live (fun b => mirrorCmpAt b msgId.toNat cmp.traceId.toNat cmp.status.toNat) s

/-- MIRROR_TIMEOUT (R355): With no Cmp within 20 ms, the primary answers the write MIRROR_FAIL. -/
def execMirrorTimeout (msgId : BitVec 16) (s : State) : Out := live (fun b => mirrorTimeoutAt b msgId.toNat) s

/-- CHECKPOINT (R356): Every 100 ms the primary writes its lease, agent and extent checkpoint. -/
def execCheckpoint (s : State) : Out := live (fun b => checkpointTick b) s

/-- HEARTBEAT_SEND (R357): Every 1 ms the controller sends a Heartbeat with its SEQ and ROLE to the peer and the witness. -/
def execHeartbeatSend (s : State) : Out := live (fun b => Machine.heartbeatSend b) s

/-- FENCE_TIMEOUT (R360): A primary without a witness Heartbeat for 10 ms becomes fenced. -/
def execFenceTimeout (s : State) : Out := live (fun b => Machine.fenceTimeout b) s

/-- SWEEP_CUT (R362): At t0 + 48 ms, agents that have not answered the sweep are suspended. -/
def execSweepCut (s : State) : Out := live (fun b => Machine.sweepCut b) s

/-- GAP_END (R362): The gap ends at the latest of 12 ms, restore end and sweep end, and the controller becomes a solo primary. -/
def execGapEnd (s : State) : Out := live (fun b => Machine.gapEnd b) s

/-- RESYNC_COPY_LINE (R364): A solo primary copies the next line of a mirrored extent to a rejoining standby. -/
def execResyncCopyLine (s : State) : Out := live (fun b => Machine.resyncCopyLine b) s

end Sys2Proof.Machine
end

