-- ==== Sys2Proof/Machine/PoolWork.lean ====
section
/-! DEFINITION. The meanings of the commands: Migration, leases, revocation, zeroing and publication (R84 to R100). -/

namespace Sys2Proof.Machine

/-- MIGRATION_LINE (R88): A quadrant copies the next line of a granule move between tiers and advances its cursor. -/
def execMigrationLine (q : Quad) (s : State) : Out := live (fun b => Machine.migrationLine b q) s

/-- CLEANING_PASS_LINE (R85): A cleaning pass writes the next dirty write-back line to the Husk tier. -/
def execCleaningPassLine (q : Quad) (s : State) : Out := live (fun b => Machine.cleaningPassLine b q) s

/-- ALLOWANCE_WINDOW (R87): A new 10 µs timebase window renews the slot allowances of migration, zeroing, reclaim and rebuild. -/
def execAllowanceWindow (s : State) : Out := live (fun b => Machine.allowanceWindow b) s

/-- LEASE_EXPIRY (R94): The timebase passes a host's lease deadline; the lease master makes the host lapsed and sends EXPIRE. -/
def execLeaseExpiry (eid : Eid) (s : State) : Out := live (fun b => Machine.leaseExpiry b eid.toNat) s

/-- EXPIRE_TAKE (R94): A home agent takes EXPIRE at its quiesce point: it refuses the host, removes its grants, recalls its lines
and drains orphaned extents. -/
def execExpireTake (q : Quad) (eid : Eid) (s : State) : Out := live (fun b => Machine.expireTake b q eid.toNat) s

/-- REVOCATION_TAKE (R97): A home agent takes an extent or grant revocation at its quiesce point and recalls the lines concerned. -/
def execRevocationTake (q : Quad) (key : RevokeKey) (s : State) : Out := live (fun b => Machine.revocationTake b q key) s

/-- DRAIN_END (R97): Every home agent has completed the draining steps for an extent, and the extent enters ZEROING. -/
def execDrainEnd (ext : Nat) (s : State) : Out := live (fun b => Machine.drainEnd b ext) s

/-- EXTENT_ZERO_LINE (R98): A home agent zeroes the next line of a revoked extent within the ZERO_CAP allowance. -/
def execExtentZeroLine (q : Quad) (ext : Nat) (s : State) : Out := live (fun b => Machine.extentZeroLine b q ext) s

/-- SETTLE_WINDOW_CLOSE (R100): A publish settle window closes, and the extent home publishes or answers every joined publisher with
a conflict. -/
def execSettleWindowClose (ext : Nat) (s : State) : Out := live (fun b => Machine.settleWindowClose b ext) s

end Sys2Proof.Machine
end

