-- ==== Sys2Proof/Machine/PowerRows.lean ====
section
/-! DEFINITION. The meanings of the commands: Power, temperature and calibration (R396 to R413). -/

namespace Sys2Proof.Machine

/-- PWR_STATE (R396): The command moves the controller between RUN, TRIM, QUIET, HOLD and OFF. -/
def execPwrState (c : CmdId) (s : State) : Out := live (fun b => Machine.pwrState b c) s

/-- HOLD_ENTRY_DRAINED (R399): Once every tracker entry is free, HOLD entry closes the ports and puts the DRAM into self-refresh. -/
def execHoldEntryDrained (s : State) : Out := live (fun b => Machine.holdEntryDrained b) s

/-- POWER_TIMEOUT (R398): A transition still waiting on running tasks after TIMEOUT_MS reverts and is answered PWR_BUSY. -/
def execPowerTimeout (s : State) : Out := live (fun b => Machine.powerTimeout b) s

/-- PWR_VCORE (R404): The command sets a new VCORE setpoint and starts the rail slewing. -/
def execPwrVcore (c : CmdId) (s : State) : Out := live (fun b => Machine.pwrVcore b c) s

/-- VCORE_SETTLED (R404): The rail reaches the setpoint and the PWR_VCORE command is answered. -/
def execVcoreSettled (s : State) : Out := live (fun b => Machine.vcoreSettled b) s

/-- PWR_WARM_RESET (R406): The command writes its answer and starts a warm reset 1 ms later. -/
def execPwrWarmReset (c : CmdId) (s : State) : Out := live (fun b => Machine.pwrWarmReset b c) s

/-- PWR_READ (R413): The command returns input voltage, current and die temperatures. -/
def execPwrRead (c : CmdId) (s : State) : Out := live (fun b => Machine.pwrRead b c) s

/-- CAL_READ (R413): The command copies the calibration set to host memory. -/
def execCalRead (c : CmdId) (s : State) : Out :=
  .next { s with blk := if s.blk.dead then s.blk else Machine.calRead s.blk s.nv.flash c }

/-- CAL_WRITE (R412): The command verifies or composes a calibration set and starts writing it to flash. -/
def execCalWrite (c : CmdId) (img : HostResult) (s : State) : Out :=
  .next { s with blk := if s.blk.dead then s.blk else Machine.calWrite s.blk s.nv.flash c img }

/-- CAL_WRITE_DONE (R412): The flash write of a calibration set ends, successfully or with CAL_WRITE_FAIL. -/
def execCalWriteDone (ok : Bool) (s : State) : Out :=
  .next { s with
    blk := if s.blk.dead then s.blk else Machine.calWriteDone s.blk ok
    nv.flash := s.blk.calFlash s.nv.flash ok }

/-- THERMAL_SCAN (R405): Every 100 µs the thermal monitor reads every sensor and drives THERM_WARN_N. -/
def execThermalScan (readings : List Int) (s : State) : Out := act (fun b => Machine.thermalScan b readings) s

end Sys2Proof.Machine
end

