-- ==== Sys2Proof/Machine/Reliability.lean ====
section
/-! DEFINITION. The meanings of the commands: Reads of the two tiers, scrub, spare rows and the integrity commands (R339 to R352). -/

namespace Sys2Proof.Machine

/-- HUSK_LINE_READ (R339): A Husk channel completes a line read, decodes it and delivers, corrects, rebuilds or poisons it. -/
def execHuskLineRead (c : HuskCh) (line : Nat) (rank : Fin 8) (lanes : List LaneIx) (s : State) : Out :=
  live (fun b => Machine.huskLineRead b c line rank (lanes.map (·.val))) s

/-- GRAIN_LINE_READ (R339): A Grain channel completes a line read, decodes it and delivers, corrects, recovers or poisons it. -/
def execGrainLineRead (ch : GrainCh) (line : Nat) (lanes : List LaneIx) (s : State) : Out :=
  live (fun b => Machine.grainLineRead b ch line (lanes.map (·.val))) s

/-- SCRUB_READ (R345): Patrol scrub reads and checks the next line or stripe of a Husk channel or Grain quadrant. -/
def execScrubRead (t : ScrubTarget) (lanes : List LaneIx) (s : State) : Out :=
  live (fun b => Machine.scrubRead b t (lanes.map (·.val))) s

/-- ROW_SPARE (R352): A Grain row that reached its error threshold is copied to a spare row and redirected. -/
def execRowSpare (ch : GrainCh) (row : Nat) (s : State) : Out := live (fun b => Machine.rowSpare b ch row) s

/-- REBUILD_LINE (R350): A rebuild writes the next channel-local line of a restored channel and advances its cursor. -/
def execRebuildLine (c : HuskCh) (s : State) : Out := live (fun b => Machine.rebuildLine b c) s

/-- INTEGRITY_INJECT (R347): The authenticated command stores a deliberately wrong codeword in a chosen line and copy. -/
def execIntegrityInject (c : CmdId) (s : State) : Out := live (fun b => b.mgmtCmd c 0x60 (fun _ b => Machine.integrityInject b c)) s

/-- CHANNEL_RELEASE (R351): The authenticated command takes a Husk channel out of service, if its stook can still serve every line.
-/
def execChannelRelease (c : CmdId) (s : State) : Out := live (fun b => b.mgmtCmd c 0x61 (fun _ b => Machine.channelRelease b c)) s

/-- CHANNEL_RESTORE (R351): The authenticated command trains a released channel and starts its rebuild. -/
def execChannelRestore (c : CmdId) (dimms : List Dimm) (trained : Bool) (s : State) : Out :=
  live (fun b => b.mgmtCmd c 0x62 (fun _ b => Machine.channelRestore b c dimms trained)) s

end Sys2Proof.Machine
end

