-- ==== Sys2Proof/Machine/Requests.lean ====
section
/-! DEFINITION. The meanings of the commands: Fabric requests at the home agents and control messages (R90 to R129, R199, R215, R239 to R243, R353, R357, R358). -/

namespace Sys2Proof.Machine

/-- RDS (R114): A RdS from an agent is checked, snoops are sent if needed, and the line is granted in S or E. -/
def execRds (r : Req) (addr : Addr) (s : State) : Out := live (fun b => reqRead b 0xC0 .rds .rds r addr.toNat) s

/-- RDX (R114): A RdX invalidates the other holders and grants the line in E. -/
def execRdx (r : Req) (addr : Addr) (s : State) : Out := live (fun b => reqRead b 0xC1 .rdx .rdx r addr.toNat) s

/-- RDONCE (R114): A RdOnce returns the current line as DataI without changing the directory. -/
def execRdonce (r : Req) (addr : Addr) (s : State) : Out := live (fun b => reqRead b 0xC2 .rdonce .read r addr.toNat) s

/-- WRLINE (R114): A WrLine invalidates every holder, merges the owner's data under its byte mask and writes the line. -/
def execWrline (r : Req) (addr : Addr) (bytes : Bytes) (mask : BitVec 128) (poison : Bool) (s : State) : Out :=
  live (fun b => (reqWrLine b r addr.toNat bytes mask poison).afterWrite r.src.toNat) s

/-- ATOMIC (R120): An Atomic is checked and then executes near or far, or is answered from the recent-atomics table. -/
def execAtomic (r : Req) (addr : Addr) (op : BitVec 4) (size : BitVec 2) (record : Bool) (atag : Word) (payload : Bytes) (s : State) : Out :=
  live (fun b => reqAtomic b r (atmOp addr.toNat op.toNat size.toNat record atag payload) payload.length) s

/-- RDBULK (R242): A RdBulk reads up to 510 lines of one granule and is answered with one DataBulk. -/
def execRdbulk (r : Req) (addr : Addr) (linesM1 : BitVec 9) (s : State) : Out :=
  live (fun b => reqRdBulk b r addr.toNat (linesM1.toNat + 1)) s

/-- WRBULK (R242): A WrBulk writes up to 510 whole lines of one granule, after its packet count and LEN values are checked. -/
def execWrbulk (r : Req) (addr : Addr) (linesM1 : BitVec 9) (packetLens : List Nat) (lines : List LineIn) (s : State) : Out :=
  live (fun b => (reqWrBulk b r addr.toNat (linesM1.toNat + 1) packetLens lines).afterWrite r.src.toNat) s

/-- WRBACK (R114): An owner's WrBack writes the M line back, frees the entry and is answered Cmp, or is discarded as COH_PROTOCOL.
-/
def execWrback (r : Req) (addr : Addr) (bytes : Bytes) (poison : Bool) (s : State) : Out :=
  live (fun b => reqWrBack b r addr.toNat bytes poison) s

/-- SNPDATA (R115): An agent answers a snoop with its M data, which the home writes and forwards. -/
def execSnpdata (r : Req) (addr : Addr) (snpId : BitVec 16) (bytes : Bytes) (poison : Bool) (s : State) : Out :=
  live (fun b => snoopResponse b r addr.toNat snpId.toNat (.data bytes poison)) s

/-- RSPI (R115): An agent answers a snoop with RspI, and the waiting transaction continues. -/
def execRspi (r : Req) (addr : Addr) (snpId : BitVec 16) (s : State) : Out :=
  live (fun b => snoopResponse b r addr.toNat snpId.toNat .i) s

/-- RSPS (R115): An agent answers a snoop with RspS and keeps the line shared. -/
def execRsps (r : Req) (addr : Addr) (snpId : BitVec 16) (s : State) : Out :=
  live (fun b => snoopResponse b r addr.toNat snpId.toNat .s) s

/-- RSPCUR (R115): An agent answers a SnpCur without data. -/
def execRspcur (r : Req) (addr : Addr) (snpId : BitVec 16) (s : State) : Out :=
  live (fun b => snoopResponse b r addr.toNat snpId.toNat .cur) s

/-- RSPWBPEND (R115): An agent reports a WrBack in flight, and the home takes the line from that WrBack. -/
def execRspwbpend (r : Req) (addr : Addr) (snpId : BitVec 16) (s : State) : Out :=
  live (fun b => snoopResponse b r addr.toNat snpId.toNat .wbPend) s

/-- CMPACK (R113): A requester acknowledges DataS or DataE, which ends the line's transaction. -/
def execCmpack (r : Req) (addr : Addr) (rid : BitVec 16) (s : State) : Out := live (fun b => reqCmpAck b r addr.toNat rid.toNat) s

/-- LEASE (R93): A Lease packet at the lease master renews, starts or ends a host's lease, or is refused. -/
def execLease (r : Req) (renew : Bool) (s : State) : Out := live (fun b => leaseMsg b r renew) s

/-- SUBMIT (R199): A Submit packet from a fabric host queues a pool-resident Sheaf for admission at a Thresher. -/
def execSubmit (r : Req) (addr : Addr) (thresher : BitVec 4) (cookie : Word) (s : State) : Out :=
  live (fun b => submitMsg b r addr.toNat thresher.toNat cookie.toNat) s

/-- PUBLISH (R99): A Publish packet is checked and decided by the extent home: it opens or joins a settle window, or is refused. -/
def execPublish (r : Req) (ext : Nat) (expected new modCount : DWord) (digest : Bytes) (s : State) : Out :=
  live (fun b => publishMsg b r ext expected new modCount digest) s

/-- UNPUBLISH (R101): An Unpublish packet returns a PUBLISHED extent to ACTIVE, or is refused. -/
def execUnpublish (r : Req) (ext : Nat) (expected : DWord) (s : State) : Out := live (fun b => unpublishMsg b r ext expected) s

/-- QUERY (R101): A Query packet returns an extent's state, VERSION, DIGEST and MOD_COUNT. -/
def execQuery (r : Req) (ext : Nat) (s : State) : Out := live (fun b => queryMsg b r ext) s

/-- CANCEL (R215): A Cancel packet aborts a resident Sheaf, or is answered with its final status or SHEAF_UNKNOWN. -/
def execCancel (r : Req) (slot : SlotIx) (cookie : Word) (s : State) : Out := live (fun b => cancelMsg b r slot cookie.toNat) s

/-- AGENT_REGISTER (R128): An AgentRegister packet re-registers a suspended agent under its old index, or is refused. -/
def execAgentRegister (r : Req) (s : State) : Out := live (fun b => agentRegisterMsg b r) s

/-- HEARTBEAT (R357): A Heartbeat from the peer or the witness is received by the pair engine. -/
def execHeartbeat (r : Req) (_seq : Word) (role : BitVec 2) (_time : DWord) (s : State) : Out :=
  live (fun b => heartbeatMsg b r role.toNat) s

/-- TAKEOVER (R358): A signed witness order is verified and accepted or discarded, changing the controller's pair role. -/
def execTakeover (r : Req) (payload : Bytes) (s : State) : Out := live (fun b => takeoverMsg b r payload) s

/-- MIRROR_WRITE (R353): A pool write from PEER_EID is written as a mirror write, with only the mirrored-extent check. -/
def execMirrorWrite (r : Req) (addr : Addr) (mask : BitVec 128) (lines : List LineIn) (s : State) : Out :=
  live (fun b => (reqMirror b (mirrorKind lines.length).1 (mirrorKind lines.length).2 r addr.toNat mask lines).syncCheck) s

end Sys2Proof.Machine
end

