-- ==== Sys2Proof/Machine/Resets.lean ====
section
/-! DEFINITION. The meanings of the commands: Resets, the input, training at reset, and the management controller (R41 to R45, R325, R394, R406 to R408). -/

namespace Sys2Proof.Machine

/-- The flash as a cold reset finds it: a calibration set that was being written is lost (R412). -/
def coldFlash (b : Blk) (m : Cells) (cause : ColdCause) : Cells := if b.coldActs cause then b.flashCut m else m
/-- The flash as a warm reset finds it. -/
def warmFlash (b : Blk) (m : Cells) (cause : WarmCause) : Cells := if b.warmActs cause then b.flashCut m else m
/-- The flash after an input lockout (R394). -/
def lockFlash (b : Blk) (m : Cells) (mv : Nat) : Cells := if lockedOut mv then b.flashCut m else m
/-- The flash after a management reset, which undoes a calibration write (R44). -/
def mgmtFlash (b : Blk) (m : Cells) : Cells := if b.mgmtActs then b.flashCut m else m

/-- COLD_RESET (R406): The input rising through 60 V, or RESET_N held low for at least 10 µs, starts a cold reset of the whole
controller. -/
def execColdReset (cause : ColdCause) (s : State) : Out :=
  .next { s with
    blk := Machine.coldReset s.blk s.nv.otp s.nv.sfdp (coldFlash s.blk s.nv.flash cause) cause
    nv.flash := coldFlash s.blk s.nv.flash cause }

/-- WARM_RESET (R406): WARM_RESET_N held low, or the delayed start after PWR_WARM_RESET, closes the ports in UP and starts a warm
reset. -/
def execWarmReset (cause : WarmCause) (s : State) : Out :=
  .next { s with
    blk := Machine.warmReset s.blk s.nv.otp s.nv.sfdp (warmFlash s.blk s.nv.flash cause) cause
    nv.flash := warmFlash s.blk s.nv.flash cause }

/-- HOST_PORT_RESET (R407): PERST_N, a PCIe Hot Reset, Link Disable or link-down resets configuration space and acts as an FLR of
every function. -/
def execHostPortReset (_cause : HostPortCause) (s : State) : Out := live (fun b => Machine.hostPortReset b) s

/-- FLR (R325): An FLR of one function resets its command window, stops its mover transfers, forgets its page requests and drops its
translations. -/
def execFlr (f : Func) (s : State) : Out := live (fun b => flrFunc b f) s

/-- INPUT_LOCKOUT (R394): The input falling below 58 V or rising above 84 V turns every rail off within 50 µs, as removal of power.
-/
def execInputLockout (mv : Nat) (s : State) : Out :=
  .next { s with blk := Machine.inputLockout s.blk mv, nv.flash := lockFlash s.blk s.nv.flash mv }

/-- HUSK_TRAINING_DONE (R80): A Husk channel ends its SPD read and training, and the channel is either in service or lost. -/
def execHuskTrainingDone (c : HuskCh) (dimms : List Dimm) (trained : Bool) (s : State) : Out :=
  live (fun b => Machine.huskTrainingDone b c dimms trained) s

/-- GRAIN_LAYER_TEST_DONE (R408): A Grain layer ends its test at reset and is either in service or failed. -/
def execGrainLayerTestDone (layer : Fin 16) (ok : Bool) (s : State) : Out := live (fun b => Machine.grainLayerTestDone b layer ok) s

/-- INIT_ZEROING_LINE (R82): A home agent zeroes the next line in the reset zeroing order, using a free channel slot. -/
def execInitZeroingLine (q : Quad) (tier : Tier) (s : State) : Out := live (fun b => Machine.initZeroingLine b q tier) s

/-- MGMT_WATCHDOG_EXPIRY (R42): A 100 ms watchdog period passes without service by the firmware, which causes a management reset. -/
def execMgmtWatchdogExpiry (s : State) : Out :=
  if !s.blk.wdDue then .next s
  else .next { s with
    blk := s.blk.mgmtResetSnap (mgmtFlash s.blk s.nv.flash) 1
    nv.flash := mgmtFlash s.blk s.nv.flash }

/-- MGMT_ECC_SINGLE_BIT (R41): The management controller corrects a single-bit memory error, writes the word back and counts it. -/
def execMgmtEccSingleBit (s : State) : Out := live (fun b => Machine.mgmtEccSingleBit b) s

/-- MGMT_ECC_DOUBLE_BIT (R41): A double-bit error in the management controller's memory causes a management reset. -/
def execMgmtEccDoubleBit (s : State) : Out :=
  .next { s with
    blk := s.blk.mgmtResetSnap (mgmtFlash s.blk s.nv.flash) 2
    nv.flash := mgmtFlash s.blk s.nv.flash }

/-- MGMT_RESET_END (R43): The management controller accepts commands again and processes the commands that waited in the window. -/
def execMgmtResetEnd (s : State) : Out := live (fun b => Machine.mgmtResetEnd b) s

/-- COMMIT_REANSWER (R44): After a management reset, the controller waits for STR_STATUS.PHASE to read 0 and then answers the
interrupted STRUCT_COMMIT with STR_OK. -/
def execCommitReanswer (s : State) : Out := live (fun b => Machine.commitReanswer b) s

end Sys2Proof.Machine
end

