-- ==== Sys2Proof/Machine/Security.lean ====
section
/-! DEFINITION. The meanings of the commands: The security commands (R368 to R389). -/

namespace Sys2Proof.Machine

/-- SEC_INFO (R386): The command returns SERIAL, BOOT_ID, SVN, MIN_SVN and security status. -/
def execSecInfo (c : CmdId) (s : State) : Out := live (fun b => Machine.secInfo b c) s

/-- FW_UPDATE (R373): The command verifies a new firmware image and writes it into the flash slot. -/
def execFwUpdate (c : CmdId) (img : HostResult) (s : State) : Out :=
  .next { s with
    blk := if s.blk.dead then s.blk else Machine.fwUpdate s.blk s.nv.flash c img
    nv.flash := fwUpdateFlash s.blk s.nv.flash c img }

/-- FW_SVN_COMMIT (R374): The command raises MIN_SVN to the running firmware's SVN. -/
def execFwSvnCommit (c : CmdId) (s : State) : Out :=
  .next { s with
    blk := if s.blk.dead then s.blk else Machine.fwSvnCommit s.blk c
    nv.otp := fwSvnOtp s.blk s.nv.otp c }

/-- OWNER_PROVISION (R375): The command decrypts an owner blob and programs OWNER_HASH, KEK and OWNER_SET. -/
def execOwnerProvision (c : CmdId) (blob : HostResult) (s : State) : Out :=
  .next { s with
    blk := if s.blk.dead then s.blk else Machine.ownerProvision s.blk c blob
    nv.otp := ownerOtp s.blk s.nv.otp c blob }

/-- MANIFEST_UPDATE (R386): The command verifies and writes a new owner manifest, in force from the next reset. -/
def execManifestUpdate (c : CmdId) (man : HostResult) (s : State) : Out :=
  .next { s with
    blk := if s.blk.dead then s.blk else Machine.manifestUpdate s.blk s.nv.flash c man
    nv.flash := manifestFlash s.blk s.nv.flash c man }

/-- DEBUG_CHALLENGE (R388): The command draws a fresh debug NONCE. -/
def execDebugChallenge (c : CmdId) (s : State) : Out := live (fun b => Machine.debugChallenge b c) s

/-- DEBUG_UNLOCK (R388): The command opens JTAG at level 1 or 2 if the signature over the nonce verifies. -/
def execDebugUnlock (c : CmdId) (s : State) : Out := live (fun b => Machine.debugUnlock b c) s

/-- ZEROIZE (R389): The command stops service, erases every key and leaves the controller zeroised. -/
def execZeroize (c : CmdId) (s : State) : Out := live (fun b => zeroizeCmd b c) s

/-- CERT_READ (R386): The command writes the slot 0 certificate chain to host memory. -/
def execCertRead (c : CmdId) (s : State) : Out := live (fun b => Machine.certRead b c) s

/-- FW_RECOVER (R372): In recovery, the command checks a host-supplied firmware image and starts it. -/
def execFwRecover (c : CmdId) (img : HostResult) (s : State) : Out :=
  .next { s with blk := if s.blk.dead then s.blk else Machine.fwRecover s.blk s.nv.flash c img }

/-- IDE_INFO (R386): The command returns SEC_IDE_STATUS. -/
def execIdeInfo (c : CmdId) (s : State) : Out := live (fun b => Machine.ideInfo b c) s

/-- IDE_REQUIRE_WRITE (R380): Writing SEC_IDE_CFG.REQUIRE = 1 makes IDE mandatory until the next cold reset. -/
def execIdeRequireWrite (v : Word) (s : State) : Out := live (fun b => Machine.ideRequireWrite b v) s

end Sys2Proof.Machine
end

