-- ==== Sys2Proof/Machine/Shaping.lean ====
section
/-! DEFINITION. The meanings of the commands: Shaping, gates, samplers and the Husk scheduler (R296 to R306). -/

namespace Sys2Proof.Machine

/-- APPLY (R297): TRF_ENT_CTL.APPLY checks the staged traffic entry and replaces or adds it at the next boundary. -/
def execApply (s : State) : Out := live (fun b => b.posted trafApply) s

/-- REMOVE (R306): TRF_ENT_CTL.REMOVE removes the selected traffic entry at the next boundary. -/
def execRemove (s : State) : Out := live (fun b => b.posted trafRemove) s

/-- SMP_QUEUE_WRITE (R305): A write of TRF_SMP_QUEUE names a slot's queue and clears its bins and maxima. -/
def execSmpQueueWrite (v : Word) (s : State) : Out := live (fun b => b.posted (fun b => Machine.smpQueueWrite b v)) s

/-- SMP_CLEAR (R305): TRF_SMP_CTL.CLEAR clears the selected slot's bins and maxima. -/
def execSmpClear (s : State) : Out := live (fun b => b.posted Machine.smpClear) s

/-- SAMPLE_TICK (R305): At each sampling period every enabled slot samples its queue's depth and head delay. -/
def execSampleTick (s : State) : Out := live (fun b => Machine.sampleTick b) s

/-- GATE_WINDOW_BOUNDARY (R298): A gate list entry closes and the next opens, at a new list's start or at a cycle boundary. -/
def execGateWindowBoundary (target : Nat) (s : State) : Out := live (fun b => gateBoundary b target) s

/-- HUSK_OP_ISSUE (R301): A gated Husk scheduler issues a closed-page operation of a partition whose window allows it. -/
def execHuskOpIssue (c : HuskCh) (op : HuskOp) (s : State) : Out := live (fun b => Machine.huskOpIssue b c op) s

/-- REFRESH (R301): A Husk channel runs a refresh on its fixed timebase schedule. -/
def execRefresh (c : HuskCh) (s : State) : Out := live (fun b => huskRefresh b c) s

end Sys2Proof.Machine
end

