-- ==== Sys2Proof/Machine/Sheafs.lean ====
section
/-! DEFINITION. The meanings of the commands: Task ends, admission, watchdogs and prefetch (R199 to R217). -/

namespace Sys2Proof.Machine

/-- TASK_END_REPORT (R207): The owning Thresher processes a task end and decrements the successors in list order. -/
def execTaskEndReport (q : Quad) (s : State) : Out := live (fun b => Machine.taskEndReport b q) s

/-- HELD_TASK_ENQUEUE (R208): A held ready task enters its queue in stamp order once room frees. -/
def execHeldTaskEnqueue (q : Quad) (s : State) : Out := live (fun b => Machine.heldTaskEnqueue b q) s

/-- SHEAF_ADMISSION (R200): A Thresher takes the next waiting Submit and admits it by orders 1 to 8, or rejects it. -/
def execSheafAdmission (q : Quad) (host : HostResult) (s : State) : Out := live (fun b => Machine.sheafAdmission b q host) s

/-- SHEAF_WATCHDOG (R216): The watchdog expires after ADMIT_TIME + WATCHDOG_MS and acts as a Cancel. -/
def execSheafWatchdog (slot : SlotIx) (s : State) : Out := live (fun b => Machine.sheafWatchdog b slot) s

/-- PREFETCH (R211): A Thresher prefetches the first LIMIT_KIB of a candidate task's spans into a Tiller's local store. -/
def execPrefetch (q : Quad) (s : State) : Out := live (fun b => Machine.prefetch b q) s

end Sys2Proof.Machine
end

