-- ==== Sys2Proof/Machine/Sideband.lean ====
section
/-! DEFINITION. The SMBus status target and the JTAG port (R388, R448 to R450). -/

namespace Sys2Proof.Machine

/-- The 7-bit address of the SMBus target (R449). -/
def Blk.smbAddr (b : Blk) : Nat := 0x4C + b.pins.straps % 4

/-- Does EXTEST drive the lands: it acts as BYPASS once the structure is loaded (R450). -/
def Blk.extestOn (b : Blk) : Bool := b.pins.extest && !b.str.loaded

/-- What a land shows, by its number in command code 0x01: what the controller drives, or what EXTEST drives from the boundary register. -/
def Blk.padShow (b : Blk) (i w own : Nat) : Nat := if b.extestOn then Config.landOf b.pins.boundary i % 2 ^ w else own

/-- The byte of command code 0x01: the pins, and CAL_STATUS.LOST (R449). -/
def Blk.smbPins (b : Blk) : Nat :=
  pack [(0, 1, b.padShow 0 1 (b2n b.pins.devReady)), (1, 1, b.padShow 1 1 (b2n b.pins.devFault)), (2, 1, b.padShow 2 1 (b2n b.pwr.warn)),
    (3, 1, b.padShow 3 1 (b2n b.pwr.trip)), (4, 2, b.padShow 4 2 b.pair.pins), (6, 1, b2n b.pwr.calLost)]

/-- SMBUS_READ_BYTE: the target runs from VAUX; an address that is not its own, any other command code and any other transaction get NACK
(R449). The highest temperature is 0x80 until the first reading after a cold reset. -/
def smbusReadByte (b : Blk) (addr : Nat) (op : SmbOp) : Blk :=
  if !b.pwr.on || addr ≠ b.smbAddr then { b with pins.smb := none }
  else match op with
    | .readByte 0 =>
      { b with pins.smb := some (if b.pwr.temps.isEmpty then 0x80 else sbyte (maxTemp b.pwr.temps)) }
    | .readByte 1 => { b with pins.smb := some (BitVec.ofNat 8 b.smbPins) }
    | .readByte 2 => { b with pins.smb := some (BitVec.ofNat 8 b.pwr.state) }
    | .readByte 3 =>
      let d := b.draw
      { d.2 with pins.smb := some (BitVec.ofNat 8 (min 255 (Config.vin d.1 / 500))) }
    | _ => { b with pins.smb := none }

/-- IDCODE (R450). -/
def idcode : Word := 0x12400D1B

/-- The TAP with an instruction and what its data register shows; the lands are the controller's again. -/
def Blk.tapTo (b : Blk) (ir : Nat) (v : Word) : Blk := { b with pins.tap := ir, pins.tdo := v, pins.extest := false }

/-- A word of some bytes. -/
def wordAt (bs : Bytes) (i : Nat) : Word := BitVec.ofNat 32 (le bs (4 * i) 4)

/-- The trace state of a ring: HEAD, TAIL and the records lost (R388, R427). -/
def Ring.stateBytes (r : Ring) : Bytes := toLe 8 r.head ++ toLe 8 r.tail ++ toLe 4 r.lost

/-- Does level 1 open a register: the window of the default log ring lies in a local store of the device, and is not among its reads (R388,
R428; DESIGN CHOICE, log entry 40). -/
def Blk.tapReads (b : Blk) (off : Nat) : Bool := b.sec.debug == 2 || (b.sec.debug == 1 && decide (off < 0xFC00000))

/-- A TAP operation (R388, R450). The model numbers the instructions: 0 BYPASS, 1 IDCODE, which a test reset selects, 2 SAMPLE/PRELOAD, 3
EXTEST, 4 a read that levels 1 and 2 offer, 5 what level 2 offers beside. An instruction that the level does not offer acts as BYPASS. -/
def jtagAccess (b : Blk) (op : JtagOp) : Blk :=
  let open_ := fun (level ir : Nat) (v : Word) => if b.sec.debug < level then b.tapTo 0 0 else b.tapTo ir v
  if !b.pwr.on || b.pwr.state = 4 then b
  else match op with
    | .testReset | .idcode => b.tapTo 1 idcode
    | .bypass => b.tapTo 0 0
    | .samplePreload cells =>
      let d := b.draw
      { d.2 with pins.boundary := cells }.tapTo 2 (Config.boundary d.1)
    | .extest =>
      if b.str.loaded then b.tapTo 0 0
      else
        let d := b.draw
        { d.2.tapTo 3 (Config.boundary d.1) with pins.extest := true }
    | .readRegister off => if b.tapReads off.toNat then b.tapTo 4 (b.readReg off.toNat) else b.tapTo 0 0
    | .readQueue i => open_ 1 4 (wordAt b.snapQueues.flatten i)
    | .readTrace ring i => open_ 1 4 (wordAt (if ring = 0 then b.rings.log else if ring = 1 then b.rings.dump else b.rings.trace).stateBytes i)
    | .writeRegister off v => if b.sec.debug < 2 then b.tapTo 0 0 else (b.writeReg off.toNat v).tapTo 5 0
    | .fullAccess =>
      let d := b.draw
      if b.sec.debug < 2 then b.tapTo 0 0 else d.2.tapTo 5 (Config.jtagData d.1)

end Sys2Proof.Machine
end

