-- ==== Sys2Proof/Machine/Side.lean ====
section
/-! DEFINITION. The meanings of the commands: The sideband (R447 to R450). -/

namespace Sys2Proof.Machine

/-- SMBUS_READ_BYTE (R449): An SMBus Read Byte returns temperature, pin status, power state or input voltage. -/
def execSmbusReadByte (addr : BitVec 7) (op : SmbOp) (s : State) : Out :=
  act (fun b => Machine.smbusReadByte b addr.toNat op) s

/-- JTAG_ACCESS (R450): A TAP operation on the JTAG pins runs BYPASS, IDCODE, SAMPLE/PRELOAD or EXTEST, or the debug access that
R388 grants at the current debug level. -/
def execJtagAccess (op : JtagOp) (s : State) : Out :=
  act (fun b => Machine.jtagAccess b op) s

end Sys2Proof.Machine
end

