-- ==== Sys2Proof/Machine/Spdm.lean ====
section
/-! DEFINITION. The SPDM responder and IDE_KM (R378 to R380). PRESUMED: the order of the negotiation and the error codes are those of
DSP0274, which the manual names. -/

namespace Sys2Proof.Machine

/-- The responder's answer, on the transport that the request came by. -/
def Blk.spdmSend (b : Blk) (via : SpdmVia) (r : SpdmRsp) : Blk := { b with sec.spdmOut := b.sec.spdmOut ++ [(via.mctp, r)] }

/-- The responder's ERROR. -/
def Blk.spdmError (b : Blk) (via : SpdmVia) (code : Nat) : Blk := b.spdmSend via (.error code)

/-- Does the responder answer: it is firmware of the management controller (R43, R45), and IDE lets in the TLPs that carry the request (R380). -/
def Blk.spdmUp (b : Blk) : Bool := !b.dead && !b.mgmt.resetting && !b.mgmt.failed && b.ideIn true

/-- A request that the responder does not answer: TLPs that IDE does not let in are dropped, the configuration requests of the DOE mailbox with
UR (R380). -/
def Blk.spdmLost (b : Blk) (via : SpdmVia) : Blk :=
  if b.dead || b.ideIn true then b else if via.mctp then b.ideDrop else b.ideDropUr 0 (.cfgUr 0)

/-- A session by its place, 0 or 1. -/
def Blk.session (b : Blk) (s : Nat) : Option Session := b.sec.sessions.find? (fun x => x.id / 65536 == s)

/-- A session changed. -/
def Blk.modSession (b : Blk) (s : Nat) (f : Session → Session) : Blk :=
  { b with sec.sessions := b.sec.sessions.map (fun (x : Session) => if x.id / 65536 = s then f x else x) }

/-- A session dropped. -/
def Blk.dropSession (b : Blk) (s : Nat) : Blk :=
  { b with sec.sessions := b.sec.sessions.filter (fun (x : Session) => x.id / 65536 != s) }

/-- A request that needs the algorithms to be negotiated: in a session it needs one whose handshake has finished. -/
def Blk.spdmReq (b : Blk) (via : SpdmVia) (go : Blk → Blk) : Blk :=
  if !b.spdmUp then b.spdmLost via
  else if b.sec.spdm ≠ 3 then b.spdmError via 0x04
  else match via.session with
    | none => go b
    | some s => match b.session s with
      | none => b.spdmError via 0x02
      | some x => if x.finished then go b else b.spdmError via 0x04

/-- A request that is allowed in a finished session only. -/
def Blk.spdmIn (b : Blk) (via : SpdmVia) (go : Nat → Session → Blk → Blk) : Blk :=
  b.spdmReq via (fun b => match via.session with
    | none => b.spdmError via 0x0B
    | some s => match b.session s with
      | none => b.spdmError via 0x02
      | some x => go s x b)

/-- A step of the negotiation, which runs outside a session. -/
def Blk.spdmStep (b : Blk) (via : SpdmVia) (ok : Bool) (next : Nat) (r : SpdmRsp) : Blk :=
  if !b.spdmUp then b.spdmLost via
  else if via.session.isSome || !ok then b.spdmError via 0x04
  else { b with sec.spdm := next }.spdmSend via r

/-- The capability flags of R378, at the places that DSP0274 gives them (PRESUMED, log entry 99): CERT 1, CHAL 2, MEAS with signatures 4,
ENCRYPT 6, MAC 7, KEY_EX 9, HBEAT 13, KEY_UPD 14. -/
def spdmFlags : Nat := ([1, 2, 4, 6, 7, 9, 13, 14].map (fun i => 2 ^ i)).sum

/-- GET_VERSION starts the negotiation: SPDM 1.2 alone (R378). -/
def getVersion (b : Blk) (via : SpdmVia) : Blk := b.spdmStep via true 1 (.version [0x1200])

/-- GET_CAPABILITIES. -/
def getCapabilities (b : Blk) (via : SpdmVia) : Blk := b.spdmStep via (b.sec.spdm == 1) 2 (.capabilities spdmFlags)

/-- NEGOTIATE_ALGORITHMS (R378), in DSP0274's codes (PRESUMED, log entry 99): the DMTF measurement format, SHA-256 for measurements, ECDSA P-256,
SHA-256, secp256r1 and AES-256-GCM. -/
def negotiateAlgorithms (b : Blk) (via : SpdmVia) : Blk :=
  b.spdmStep via (b.sec.spdm == 2) 3 (.algorithms 1 (2 ^ 1) (2 ^ 4) (2 ^ 0) (2 ^ 3) (2 ^ 1))

/-- A signature of the Alias key over the transcript of a response, with the n-th random draw as nonce (R378); the transcript is DSP0274's. -/
def Blk.aliasSign (b : Blk) (n : Nat) : Bytes :=
  ecdsaSign (b.sec.aliasKey.getD 0) (Config.spdmDigest n) (beNat (Config.random n))

/-- GET_DIGESTS: only slot 0 holds a chain. -/
def getDigests (b : Blk) (via : SpdmVia) : Blk := b.spdmReq via (fun b => b.spdmSend via (.digests 1 (sha256 b.sec.chain)))

/-- GET_CERTIFICATE: a part of the slot 0 chain, and how much follows. -/
def getCertificate (b : Blk) (via : SpdmVia) (slot offset length : Nat) : Blk :=
  b.spdmReq via (fun b =>
    if slot ≠ 0 || b.sec.chain.length ≤ offset then b.spdmError via 0x01
    else
      let part := (b.sec.chain.drop offset).take length
      b.spdmSend via (.certificate 0 part (b.sec.chain.length - offset - part.length)))

/-- CHALLENGE: signed with the Alias key, where there is one. -/
def challengeReq (b : Blk) (via : SpdmVia) (slot : Nat) : Blk :=
  b.spdmReq via (fun b =>
    if slot ≠ 0 then b.spdmError via 0x01
    else if !b.sec.aliasUp then b.spdmError via 0x05
    else
      let d := b.draw; let e := d.2.draw
      e.2.spdmSend via (.challengeAuth 0 (sha256 b.sec.chain) (Config.spdmData d.1) (b.aliasSign e.1)))

/-- A measurement block (R379); a digest that has not been recorded is absent. -/
def Blk.measurement (b : Blk) (i : Nat) : Option Bytes :=
  match i with
  | 3 => some (toLe 1 b.sec.svn ++ toLe 1 b.sec.otp.minSvn)
  | 7 => (mget b.sec.meas 7).map (fun h => h ++ toLe 8 b.str.epoch.toNat)
  | 9 => some (toLe 1 b.secBits)
  | 11 => some (((List.range 4).map (fun q => toLe 4 ((b.viewQd q 0x000).getD 0))).flatten)
  | 1 | 2 | 4 | 5 | 6 | 8 | 10 => mget b.sec.meas i
  | _ => none

/-- Is a measurement a digest: the others are raw bit streams (R379), and so is index 7, whose digest STR_EPOCH follows (DESIGN CHOICE, log
entry 99). -/
def measDigest (i : Nat) : Bool := [1, 2, 4, 5, 6, 8, 10].contains i

/-- A measurement as a block of the DMTF format (R379): the index, the specification 1, the size, the kind with bit 7 set for a raw bit stream,
the value's size and the value. -/
def measBlock (i : Nat) (m : Bytes) : Bytes :=
  toLe 1 i ++ [1] ++ toLe 2 (3 + m.length) ++ toLe 1 (Config.measKind i % 128 + (if measDigest i then 0 else 128)) ++ toLe 2 m.length ++ m

/-- Every measurement block there is, with its index. -/
def Blk.measurements (b : Blk) : List (Nat × Bytes) :=
  (List.range 12).filterMap (fun i => (b.measurement i).map (fun m => (i, measBlock i m)))

/-- GET_MEASUREMENTS: the count (index 0), one block, or all of them (0xFF), signed with the Alias key where that is asked for. -/
def getMeasurements (b : Blk) (via : SpdmVia) (index : Nat) (sign : Bool) : Blk :=
  b.spdmReq via (fun b =>
    let blocks := if index = 0 then [] else if index = 0xFF then b.measurements else b.measurements.filter (fun m => m.1 == index)
    if index ≠ 0 && blocks.isEmpty then b.spdmError via 0x01
    else if sign && !b.sec.aliasUp then b.spdmError via 0x05
    else
      let d := b.draw; let e := d.2.draw
      e.2.spdmSend via (.measurements b.measurements.length (blocks.map (·.2)) (Config.spdmData d.1) (if sign then b.aliasSign e.1 else [])))

/-- KEY_EXCHANGE starts a session, of which there are at most two; the answer is signed with the Alias key. -/
def keyExchange (b : Blk) (via : SpdmVia) (reqSession : Nat) (exchange : Bytes) : Blk :=
  b.spdmReq via (fun b =>
    if via.session.isSome then b.spdmError via 0x04
    else if exchange.length ≠ 64 then b.spdmError via 0x01
    else if !b.sec.aliasUp then b.spdmError via 0x05
    else match [0, 1].find? (fun s => (b.session s).isNone) with
      | none => b.spdmError via 0x0A
      | some s =>
        let id := reqSession + 65536 * s
        let d := b.draw; let e := d.2.draw
        let b1 : Blk := { e.2 with sec.sessions := e.2.sec.sessions ++ [({ id := id } : Session)] }
        b1.spdmSend via (.keyExchange id (Config.spdmData d.1) (b.aliasSign e.1)))

/-- FINISH completes the handshake of the session that it comes in, or ends it where its verification data is wrong. -/
def finishReq (b : Blk) (via : SpdmVia) (verify : Bytes) : Blk :=
  if !b.spdmUp then b.spdmLost via
  else match via.session with
    | none => b.spdmError via 0x0B
    | some s => match b.session s with
      | none => b.spdmError via 0x02
      | some x =>
        if x.finished then b.spdmError via 0x04
        else
          let d := b.draw
          if Config.finishOk d.1 verify then (d.2.modSession s (fun y => { y with finished := true })).spdmSend via (.finish x.id)
          else (d.2.dropSession s).spdmError via 0x06

/-- HEARTBEAT of a session. -/
def spdmHeartbeat (b : Blk) (via : SpdmVia) : Blk := b.spdmIn via (fun _ _ b => b.spdmSend via .heartbeatAck)

/-- KEY_UPDATE: the session's keys change (operations 1 and 2), or the new key is verified (3). -/
def keyUpdate (b : Blk) (via : SpdmVia) (op : Nat) : Blk :=
  b.spdmIn via (fun s _ b =>
    if op = 1 || op = 2 then (b.modSession s (fun y => { y with keys := y.keys + 1 })).spdmSend via (.keyUpdateAck op)
    else if op = 3 then b.spdmSend via (.keyUpdateAck op)
    else b.spdmError via 0x01)

/-- END_SESSION. -/
def endSession (b : Blk) (via : SpdmVia) : Blk := b.spdmIn via (fun s x b => (b.dropSession s).spdmSend via (.endSessionAck x.id))

/-- VENDOR_DEFINED_REQUEST: IDE_KM, in a secured session only (R380). A stream that becomes active lets out what waited for it. -/
def vendorDefined (b : Blk) (via : SpdmVia) (req : IdeKm) : Blk :=
  b.spdmIn via (fun _ _ b =>
    let ack := SpdmRsp.ideKm req 5
    match req with
    | .query => b.spdmSend via ack
    | .keyProg s key => { b with sec.ideKeys := mput b.sec.ideKeys s.val key }.spdmSend via ack
    | .kSetGo s =>
      if mhas b.sec.ideKeys s.val then ({ b with sec.ideActive := with1 b.sec.ideActive s.val }.spdmSend via ack).pcieRelease
      else b.spdmError via 0x01
    | .kSetStop s =>
      { b with sec.ideActive := without b.sec.ideActive s.val, sec.ideKeys := mdel b.sec.ideKeys s.val }.spdmSend via ack)

/-- UNSUPPORTED_REQUEST: a request that R378 does not list is answered ERROR UnsupportedRequest. -/
def unsupportedRequest (b : Blk) (via : SpdmVia) : Blk := if b.spdmUp then b.spdmError via 0x07 else b.spdmLost via

end Sys2Proof.Machine
end

