-- ==== Sys2Proof/Machine/SpdmRows.lean ====
section
/-! DEFINITION. The meanings of the commands: The SPDM responder (R378 to R380). -/

namespace Sys2Proof.Machine

/-- GET_VERSION (R378): The SPDM responder answers GET_VERSION. -/
def execGetVersion (via : SpdmVia) (s : State) : Out := live (fun b => Machine.getVersion b via) s

/-- GET_CAPABILITIES (R378): The SPDM responder reports its capabilities. -/
def execGetCapabilities (via : SpdmVia) (s : State) : Out := live (fun b => Machine.getCapabilities b via) s

/-- NEGOTIATE_ALGORITHMS (R378): The SPDM responder selects its algorithms. -/
def execNegotiateAlgorithms (via : SpdmVia) (s : State) : Out := live (fun b => Machine.negotiateAlgorithms b via) s

/-- GET_DIGESTS (R378): The SPDM responder returns the certificate chain digests. -/
def execGetDigests (via : SpdmVia) (s : State) : Out := live (fun b => Machine.getDigests b via) s

/-- GET_CERTIFICATE (R378): The SPDM responder returns part of the slot 0 chain. -/
def execGetCertificate (via : SpdmVia) (slot : Nat) (offset length : Nat) (s : State) : Out :=
  live (fun b => Machine.getCertificate b via slot offset length) s

/-- CHALLENGE (R378): The SPDM responder signs a challenge response with the Alias key. -/
def execChallenge (via : SpdmVia) (slot : Nat) (_nonce : Bytes) (s : State) : Out := live (fun b => challengeReq b via slot) s

/-- GET_MEASUREMENTS (R379): The SPDM responder returns the signed measurement blocks. -/
def execGetMeasurements (via : SpdmVia) (index : Nat) (sign : Bool) (_nonce : Bytes) (s : State) : Out :=
  live (fun b => Machine.getMeasurements b via index sign) s

/-- KEY_EXCHANGE (R378): The SPDM responder starts a secured session by DHE. -/
def execKeyExchange (via : SpdmVia) (reqSession : BitVec 16) (_random exchange : Bytes) (s : State) : Out :=
  live (fun b => Machine.keyExchange b via reqSession.toNat exchange) s

/-- FINISH (R378): The SPDM responder completes a secured session handshake. -/
def execFinish (via : SpdmVia) (verify : Bytes) (s : State) : Out := live (fun b => finishReq b via verify) s

/-- SPDM_HEARTBEAT (R378): The SPDM responder answers a session HEARTBEAT. -/
def execSpdmHeartbeat (via : SpdmVia) (s : State) : Out := live (fun b => Machine.spdmHeartbeat b via) s

/-- KEY_UPDATE (R378): The SPDM responder updates the session keys. -/
def execKeyUpdate (via : SpdmVia) (op : Nat) (s : State) : Out := live (fun b => Machine.keyUpdate b via op) s

/-- END_SESSION (R378): The SPDM responder ends a secured session. -/
def execEndSession (via : SpdmVia) (s : State) : Out := live (fun b => Machine.endSession b via) s

/-- VENDOR_DEFINED_REQUEST (R380): An IDE_KM request in a secured session programs or controls IDE keys. -/
def execVendorDefinedRequest (via : SpdmVia) (req : IdeKm) (s : State) : Out := live (fun b => vendorDefined b via req) s

/-- UNSUPPORTED_REQUEST (R378): An SPDM request outside the supported subset is answered ERROR UnsupportedRequest. -/
def execUnsupportedRequest (via : SpdmVia) (_code : Byte) (s : State) : Out := live (fun b => Machine.unsupportedRequest b via) s

end Sys2Proof.Machine
end

