-- ==== Sys2Proof/Machine/Readback.lean ====
section
/-! DEFINITION. STRUCT_READBACK: the running structure written as an image in the layout of R49 to R60 (R319). -/

namespace Sys2Proof.Machine

/-! ## Section bodies -/

/-- A GUARD body, with every WRAPPED_KEY 0 (R54, R319). -/
def guardOut (s : Struct) : Bytes :=
  (s.bounds.map (fun b => toLe 4 b.grainQuota ++ toLe 4 b.poolLimit ++ toLe 1 b.tillerMax ++
    toLe 1 (b2n b.isolate + 2 * b2n b.determine + 128 * b2n b.valid) ++ toLe 1 b.keySlot ++ zeros 5)).flatten ++
  (s.issuers.map (fun i => zeros 40 ++ toLe 8 i.floor.toNat ++ toLe 2 i.rights.toNat ++ toLe 1 (b2n i.valid) ++ zeros 13)).flatten ++
  toLe 1 (b2n s.debugUnlockable) ++ zeros 15

/-- A PARTITION entry (R55). -/
def partOut (e : Nat × PartEnt) : Bytes :=
  toLe 1 e.1 ++ toLe 1 (b2n e.2.counterRead) ++ toLe 1 e.2.vf ++ toLe 1 e.2.prioMax ++ toLe 2 e.2.sheafMax ++ zeros 10

/-- A HOST entry (R55). -/
def hostOut (e : Nat × HostEnt) : Bytes :=
  toLe 2 e.1 ++ toLe 1 e.2.part ++ toLe 1 (b2n e.2.agent) ++ toLe 2 e.2.group ++ zeros 2 ++ toLe 4 e.2.leaseMs ++ zeros 4

/-- An EXTENT entry (R56). -/
def extOut (e : Nat × ExtEnt) : Bytes :=
  toLe 4 e.1 ++ toLe 4 e.2.base ++ toLe 4 e.2.granules ++ toLe 1 e.2.part ++ toLe 1 e.2.hint ++ toLe 1 e.2.wpolicy ++
    toLe 1 (b2n e.2.mirror) ++ zeros 16

/-- A GRANT entry (R56). -/
def grantOut (e : Nat × Rights) : Bytes :=
  toLe 4 (grantExt e.1) ++ toLe 2 (grantGrantee e.1) ++
    toLe 1 (b2n e.2.read + 2 * b2n e.2.write + 4 * b2n e.2.atomic + 128 * b2n (grantGroup e.1)) ++ zeros 1

/-- A STOOK entry (R57). -/
def stookOut (e : Nat × StookEnt) : Bytes := toLe 1 e.1 ++ toLe 1 e.2.mode ++ toLe 4 e.2.channels.toNat ++ zeros 2

/-- The TILLER body (R57). -/
def tillersOut (s : Struct) : Bytes := fit 24 (s.tillers.map (fun o => BitVec.ofNat 8 (o.getD 0xFF))) ++ zeros 8

/-- An EID entry (R57). -/
def eidOut (e : Nat × EidEnt) : Bytes := toLe 2 e.1 ++ toLe 2 e.2.spray ++ toLe 1 (b2n e.2.self) ++ zeros 3

/-- A SPRAY entry (R57). -/
def sprayOut (e : Nat × BitVec 48) : Bytes := toLe 2 e.1 ++ toLe 6 e.2.toNat

/-- A TRAFFIC entry (R58). -/
def trafOut (e : Nat × TrafEnt) : Bytes :=
  toLe 2 e.2.target ++ toLe 1 e.2.cls ++ toLe 1 e.2.kind ++ toLe 4 e.2.cir ++ toLe 4 e.2.pir ++ toLe 4 e.2.cbs ++ toLe 4 e.2.pbs ++
    toLe 1 e.2.overhead ++ zeros 11

/-- A list of a GATE body (R59). -/
def gateOut (e : Nat × GateList) : Bytes :=
  toLe 2 e.1 ++ toLe 1 e.2.wins.length ++ zeros 1 ++ toLe 8 e.2.baseTime ++ zeros 4 ++
    (e.2.wins.map (fun w => toLe 4 w.duration ++ toLe 8 w.opens.toNat ++ zeros 4)).flatten

/-- A TIER entry (R55). -/
def tierOut (e : Nat × TierEnt) : Bytes := toLe 1 e.1 ++ toLe 1 e.2.hint ++ toLe 1 e.2.wpolicy ++ toLe 1 e.2.cap ++ zeros 4

/-- The PAIR body (R60). -/
def pairOut (p : PairCfg) : Bytes := toLe 2 p.peer ++ toLe 2 p.witness ++ toLe 1 p.role ++ zeros 3 ++ toLe 4 p.ckptExt ++ zeros 20

/-- The TRACE body (R60). -/
def traceOut (t : TraceCfg) : Bytes :=
  let x := fun (o : Option Nat) => toLe 4 (o.getD 0xFFFFFFFF)
  toLe 4 t.dumpUs ++ x t.dumpExt ++ x t.traceExt ++ x t.logExt ++ toLe 8 t.enable.toNat ++ zeros 40

/-- An entry of the section of TYPE 0x0F: the state of an extent (R319). -/
def Blk.stateOut (b : Blk) (e : Nat × ExtEnt) : Bytes :=
  let r := b.extRt e.1
  toLe 4 e.1 ++ toLe 1 r.state.code ++ zeros 3 ++ toLe 8 r.version.toNat ++ toLe 8 r.modCount.toNat ++ zeros 8

/-! ## The image -/

/-- The sections of the image in the order of their types: type, entries and body. -/
def Blk.secsOut (b : Blk) : List (Nat × Nat × Bytes) :=
  let s := b.str.run
  [(0x01, 1, guardOut s), (0x02, s.parts.length, (s.parts.map partOut).flatten), (0x03, s.hosts.length, (s.hosts.map hostOut).flatten),
   (0x04, s.exts.length, (s.exts.map extOut).flatten), (0x05, s.grants.length, (s.grants.map grantOut).flatten),
   (0x06, s.stooks.length, (s.stooks.map stookOut).flatten), (0x07, 1, tillersOut s),
   (0x08, s.eids.length, (s.eids.map eidOut).flatten), (0x09, s.sprays.length, (s.sprays.map sprayOut).flatten),
   (0x0A, s.traffic.length, (s.traffic.map trafOut).flatten), (0x0B, s.gates.length, (s.gates.map gateOut).flatten),
   (0x0C, s.tiers.length, (s.tiers.map tierOut).flatten), (0x0D, 1, pairOut s.pair), (0x0E, 1, traceOut s.trace),
   (0x0F, s.exts.length, (s.exts.map b.stateOut).flatten)]

/-- A number rounded up to a multiple of 64. -/
def ceil64 (n : Nat) : Nat := (n + 63) / 64 * 64

/-- Bodies laid one after another from an offset, each on a 64 B boundary: the section table entries and the bodies. -/
def laySecs : Nat → List (Nat × Nat × Bytes) → Bytes × Bytes
  | _, [] => ([], [])
  | o, (ty, n, body) :: t =>
    let r := laySecs (o + ceil64 body.length) t
    (toLe 1 ty ++ zeros 3 ++ toLe 4 o ++ toLe 4 body.length ++ toLe 4 n ++ r.1, fit (ceil64 body.length) body ++ r.2)

/-- The image that STRUCT_READBACK writes: KIND 2 and a signature of zeros (R319). SIG_KEY, TARGET_ID and BUILD are free. -/
def Blk.readback (b : Blk) (sigKey target build : Nat) : Bytes :=
  let secs := b.secsOut
  let first := ceil64 (128 + 16 * secs.length)
  let x := laySecs first secs
  let len := first + x.2.length + 64
  toLe 4 0x49525453 ++ toLe 2 1 ++ toLe 1 2 ++ toLe 1 sigKey ++ toLe 4 len ++ toLe 2 secs.length ++ zeros 2 ++
    toLe 8 b.str.epoch.toNat ++ zeros 8 ++ toLe 8 target ++ toLe 4 build ++ zeros 84 ++
    fit (first - 128) x.1 ++ x.2 ++ zeros 64

/-- Bytes written to the pool for partition 0 by the management controller (R91): the status of the first refused line, after which
nothing more is written. -/
def Blk.mgmtWrite (b : Blk) : List (Nat × Bytes × BitVec 128) → Nat × Blk
  | [] => (0, b)
  | p :: t =>
    let x := b.writeInt mgmtReq p.1 p.2.1 p.2.2 false
    if x.1 = 0 then x.2.mgmtWrite t else x

/-- What some lines hold before they are written, with their poison flags and what they hold after. -/
def Blk.savedLines (b : Blk) (ps : List (Nat × Bytes × BitVec 128)) : Map (Bytes × Bool × Bytes) :=
  ps.map (fun p => (p.1, b.storedBytes p.1, (b.lineVal p.1).2, mergeMask p.2.2 (b.storedBytes p.1) p.2.1))

/-- Are writes of the management controller to the lines of a range under way. -/
def Blk.mgmtWriting (b : Blk) (a n : Nat) : Bool :=
  let ls := linesOf a n
  b.coh.txns.any (fun t => t.who == .func 0 && ls.contains t.line) ||
  b.coh.queue.any (fun e => e.txn.who == .func 0 && ls.contains e.txn.line)

/-- A refusal that came after acceptance for some lines that the management controller wrote, taken: its status, 0 for none. -/
def Blk.mgmtBad (b : Blk) (a n : Nat) : Nat × Blk :=
  let mine := fun (x : Landed) => x.who == .func 0 && x.write && (linesOf a n).contains x.line
  (((b.coh.landed.find? mine).map (·.status)).getD 0, { b with coh.landed := b.coh.landed.filter (fun x => !mine x) })

/-- STRUCT_READBACK: the image is written to pool or host memory, or the answer tells the length that it needs (R319). It is
answered once its writes have completed. A controller that holds no structure answers STR_NOT_LOADED. -/
def structReadback (b : Blk) (c : CmdId) : Blk :=
  b.mgmtCmd c 0x14 (fun r b =>
    let a := r.arg 0x08 8
    let n := (b.readback 0 0 0).length
    let res := toLe 4 n
    if r.started then
      if b.mgmtWriting a b.mgmt.wrote then b
      else
        let x := b.mgmtBad a b.mgmt.wrote
        x.2.answerCmd c x.1 (if x.1 = 0 then toLe 4 b.mgmt.wrote else [])
    else if b.hub.inProg.any (fun x => x.op == 0x14 && x.started) then b
    else if !b.str.loaded then b.answerCmd c 0x0C []
    else if 2 ≤ r.arg 0x18 1 then b.answerCmd c 0x71 []
    else if r.arg 0x14 4 < n then b.answerCmd c 0x78 res
    else
      let d0 := b.draw; let d1 := d0.2.draw; let d2 := d1.2.draw
      let img := b.readback (Config.readback d0.1 % 2) (Config.readback d1.1) (Config.readback d2.1)
      if r.arg 0x18 1 = 1 then
        if (b.win r.f).master then (d2.2.hostPut r.f (r.arg 0x10 4) a img).answerCmd c 0 res else b
      else
        let x := { d2.2.startCmd c with mgmt.wrote := n, mgmt.saved := b.savedLines (lineParts a img) }.mgmtWrite (lineParts a img)
        if x.1 ≠ 0 then x.2.answerCmd c x.1 []
        else if x.2.mgmtWriting a n then x.2
        else
          let y := x.2.mgmtBad a n
          y.2.answerCmd c y.1 (if y.1 = 0 then res else []))

end Sys2Proof.Machine
end

