-- ==== Sys2Proof/Machine/Structure.lean ====
section
/-! DEFINITION. The meanings of the commands: Structure images, commits and register writes (R22, R62 to R75, R96). -/

namespace Sys2Proof.Machine

/-- STRUCT_LOAD (R63): The PF0 command loads a full image from host memory into an unconfigured controller. -/
def execStructLoad (c : CmdId) (img : HostResult) (s : State) : Out := live (fun b => Machine.structLoad b c img) s

/-- STRUCT_STAGE (R66): The command copies a delta image, checks it against the running structure and holds it as the staged delta.
-/
def execStructStage (c : CmdId) (img : HostResult) (s : State) : Out := live (fun b => Machine.structStage b c img) s

/-- STRUCT_COMMIT (R66): The authenticated command re-checks the staged delta and issues the commit point, or rejects the commit
with STR_STALE. -/
def execStructCommit (c : CmdId) (s : State) : Out := live (fun b => Machine.structCommit b c) s

/-- STRUCT_DISCARD (R66): The command drops the staged delta. -/
def execStructDiscard (c : CmdId) (s : State) : Out := live (fun b => Machine.structDiscard b c) s

/-- STRUCT_READBACK (R319): The command writes the current structure, live values and extent state to host or pool memory as a
readback image. -/
def execStructReadback (c : CmdId) (s : State) : Out := live (fun b => Machine.structReadback b c) s

/-- EXTENT_REVOKE (R96): The authenticated command revokes an extent and sends it into DRAINING. -/
def execExtentRevoke (c : CmdId) (s : State) : Out := live (fun b => Machine.extentRevoke b c) s

/-- PHASE_TAKE (R68): A block reaches its quiesce point and takes the changes of the running commit phase. -/
def execPhaseTake (k : Block) (s : State) : Out := live (fun b => Machine.phaseTake b k) s

/-- PHASE_A_END (R67): Every block has reported the end of phase A, and phase B begins. -/
def execPhaseAEnd (s : State) : Out := live (fun b => Machine.phaseAEnd b) s

/-- PHASE_B_END (R67): Phase B ends: STR_EPOCH takes the new epoch and PHASE returns to 0. -/
def execPhaseBEnd (s : State) : Out := live (fun b => Machine.phaseBEnd b) s

/-- COMMIT_PREEMPT (R70): STR_COMMIT_LIMIT passes before a Tiller reaches its quiesce point, so its task is cancelled with
EPOCH_PREEMPTED. -/
def execCommitPreempt (k : TillerIx) (s : State) : Out := live (fun b => Machine.commitPreempt b k) s

/-- TILLER_CLEAR_DONE (R165): A Tiller that leaves its owner finishes zeroing its state and becomes unallocated. -/
def execTillerClearDone (k : TillerIx) (s : State) : Out := live (fun b => Machine.tillerClearDone b k) s

/-- REGISTER_WRITE (R22): A write to a register without a row of its own acts under its access code, with clamping where the field
defines it. -/
def execRegisterWrite (off : BitVec 28) (v : Word) (s : State) : Out := live (fun b => Machine.registerWrite b off.toNat v) s

/-- STR_TIER_WRITE (R75): A write to STR_TIER changes a partition's tier defaults at each home agent's next quiesce point. -/
def execStrTierWrite (v : Word) (s : State) : Out := live (fun b => b.posted (fun b => Machine.strTierWrite b v)) s

end Sys2Proof.Machine
end

