-- ==== Sys2Proof/Machine/Tasks.lean ====
section
/-! DEFINITION. The meanings of the commands: Tasks on the Tillers (R164 to R198, R209). -/

namespace Sys2Proof.Machine

/-- TASK_DISPATCH (R209): An idle Tiller takes the first ready task of its partition in priority, quadrant, stamp, slot and index
order. -/
def execTaskDispatch (k : TillerIx) (s : State) : Out := live (fun b => Machine.taskDispatch b k) s

/-- DESCRIPTOR_REREAD (R202): The re-read descriptor or successor list arrives and its CRC is compared with the stored check value.
-/
def execDescriptorReread (slot : SlotIx) (task : Nat) (what : Reread) (host : HostResult) (s : State) : Out :=
  live (fun b => Machine.descriptorReread b slot task what host) s

/-- MATVEC (R177): A Tiller runs a matrix-vector task over passes and block indices. -/
def execMatvec (k : TillerIx) (s : State) : Out := live (fun b => dotTask b k 0x0) s

/-- MATMUL (R177): A Tiller runs a matrix-matrix task over passes, chunks and block indices. -/
def execMatmul (k : TillerIx) (s : State) : Out := live (fun b => dotTask b k 0x1) s

/-- ATTEND (R180): A Tiller runs paged decode attention over a token range. -/
def execAttend (k : TillerIx) (s : State) : Out := live (fun b => dotTask b k 0x2) s

/-- GATHER (R182): A Tiller copies or decodes indexed table rows into a destination. -/
def execGather (k : TillerIx) (s : State) : Out := live (fun b => rowTask b k 0x3) s

/-- SCATTER (R183): A Tiller writes source rows into indexed table rows. -/
def execScatter (k : TillerIx) (s : State) : Out := live (fun b => rowTask b k 0x4) s

/-- QUANT (R184): A Tiller quantises FP32 or BF16 rows into a block-scaled format. -/
def execQuant (k : TillerIx) (s : State) : Out := live (fun b => rowTask b k 0x5) s

/-- DEQUANT (R184): A Tiller decodes block-scaled rows into FP32 or BF16. -/
def execDequant (k : TillerIx) (s : State) : Out := live (fun b => rowTask b k 0x6) s

/-- REDUCE (R185): A Tiller reduces rows by ADD, MAX, MIN or LSE_MERGE. -/
def execReduce (k : TillerIx) (s : State) : Out := live (fun b => rowTask b k 0x7) s

/-- TOPK (R186): A Tiller selects the k largest values of each row, with optional softmax. -/
def execTopk (k : TillerIx) (s : State) : Out := live (fun b => rowTask b k 0x8) s

/-- ELEMWISE (R187): A Tiller applies an elementwise operation selected by OPT. -/
def execElemwise (k : TillerIx) (s : State) : Out := live (fun b => rowTask b k 0x9) s

/-- NORM (R188): A Tiller applies RMS or layer normalisation. -/
def execNorm (k : TillerIx) (s : State) : Out := live (fun b => rowTask b k 0xA) s

/-- COPY (R189): A Tiller copies LEN bytes between pool addresses. -/
def execCopy (k : TillerIx) (s : State) : Out := live (fun b => rowTask b k 0xB) s

/-- FILL (R189): A Tiller fills LEN bytes with a repeated 8 B pattern. -/
def execFill (k : TillerIx) (s : State) : Out := live (fun b => rowTask b k 0xC) s

/-- DIGEST (R190): A Tiller computes SHA-256 over a range of one extent and writes the digest record with MOD_COUNT bounds. -/
def execDigest (k : TillerIx) (s : State) : Out := live (fun b => rowTask b k 0xD) s

/-- JOIN (R197): A JOIN task on the Thresher ends as soon as it is dispatched. -/
def execJoin (slot : SlotIx) (task : Nat) (s : State) : Out := live (fun b => joinTask b slot task) s

/-- NOTIFY (R198): A NOTIFY task on the Thresher executes its optional atomic and sends notices to its subscribers. -/
def execNotify (slot : SlotIx) (task : Nat) (s : State) : Out := live (fun b => notifyTask b slot task) s

/-- BLOCK_ISSUE (R152): A Tiller issues the next block index into a free commit-window entry and computes its partials and verdicts.
-/
def execBlockIssue (k : TillerIx) (s : State) : Out := live (fun b => Machine.blockIssue b k) s

/-- OPERAND_LINE_ARRIVE (R166): An operand line read by a task arrives in the Tiller's local store. -/
def execOperandLineArrive (k : TillerIx) (addr : Addr) (s : State) : Out :=
  live (fun b => Machine.operandLineArrive b k addr.toNat) s

/-- SHADOW_BLOCK_ARRIVE (R149): A shadow block arrives, and the shadow partial replaces the escalated narrow partial. -/
def execShadowBlockArrive (k : TillerIx) (s : State) : Out := live (fun b => Machine.shadowBlockArrive b k) s

/-- ENTRY_FOLD (R153): The head commit-window entry folds its partials into the accumulators in block order. -/
def execEntryFold (k : TillerIx) (s : State) : Out := live (fun b => Machine.entryFold b k) s

/-- RESULT_WRITE_REFUSED (R174): A refused result write ends the task with the refusal status, and no further result line is issued.
-/
def execResultWriteRefused (k : TillerIx) (s : State) : Out := live (fun b => Machine.resultWriteRefused b k) s

/-- TASK_END (R210): A task's last result write completes, the task ends with its status and the Tiller is free. -/
def execTaskEnd (k : TillerIx) (s : State) : Out := live (fun b => taskEndRow b k) s

end Sys2Proof.Machine
end

