-- ==== Sys2Proof/Machine/Transfers.lean ====
section
/-! DEFINITION. The meanings of the commands: The aperture, the movers and address translation (R311, R312, R322 to R333). -/

namespace Sys2Proof.Machine

/-- The number of an engine: movers 0 to 7, sequencers from 8 (R332). -/
def engineNo : Engine → Nat
  | .mover m => m.val
  | .sequencer q => 8 + q.val

/-- APERTURE_READ (R311): A PF0 read of BAR4 is split into line reads and completed in address order. -/
def execApertureRead (off : BitVec 36) (len : Nat) (tag : Nat) (tlp : TlpInfo) (s : State) : Out :=
  live (fun b => Machine.apertureRead b off.toNat len tag tlp) s

/-- APERTURE_WRITE (R311): A PF0 write of BAR4 is split into line writes, each checked and written on its own. -/
def execApertureWrite (off : BitVec 36) (bytes : Bytes) (ep : Bool) (tlp : TlpInfo) (s : State) : Out :=
  live (fun b => Machine.apertureWrite b off.toNat bytes ep tlp) s

/-- MOVER_DESCRIPTOR_FETCH (R322): A mover fetches the next descriptor of a MOVE list through the ATC. -/
def execMoverDescriptorFetch (m : MoverIx) (host : HostResult) (s : State) : Out := live (fun b => moverFetch b m host) s

/-- MOVER_DESCRIPTOR_START (R322): A mover starts a fetched descriptor when it has a transfer free and any FENCE is satisfied. -/
def execMoverDescriptorStart (m : MoverIx) (s : State) : Out := live (fun b => moverStart b m) s

/-- MOVER_LINE (R322): A mover copies the next line of a transfer between host memory and the pool. -/
def execMoverLine (m : MoverIx) (c : CmdId) (desc : Nat) (host : HostResult) (s : State) : Out :=
  live (fun b => Machine.moverLine b m c desc host) s

/-- MOVER_DESCRIPTOR_END (R324): A descriptor ends or fails, and the MOVE is answered once its descriptors have ended. -/
def execMoverDescriptorEnd (m : MoverIx) (c : CmdId) (desc : Nat) (s : State) : Out := live (fun b => moverEnd b m c desc) s

/-- TRANSLATION_COMPLETION (R327): An ATS Translation Completion arrives and is entered in the ATC, or its waiters fault. -/
def execTranslationCompletion (f : Func) (pasid : BitVec 20) (page : BitVec 52) (res : TransResult) (s : State) : Out :=
  live (fun b => Machine.translationCompletion b f pasid.toNat page.toNat res) s

/-- PAGE_REQUEST (R328): A parked fault's Page Request is sent once the PRI limits leave room. -/
def execPageRequest (s : State) : Out := live (fun b => Machine.pageRequest b) s

/-- PRG_RESPONSE (R331): A PRG Response releases its waiting transfers to translate again, or fails them. -/
def execPrgResponse (f : Func) (index : Nat) (code : PrgCode) (s : State) : Out :=
  live (fun b => Machine.prgResponse b f index code) s

/-- PRI_TIMEOUT (R331): A page request without a response within TIMEOUT_MS fails its waiters. -/
def execPriTimeout (f : Func) (index : Nat) (s : State) : Out := live (fun b => Machine.priTimeout b f index) s

/-- INVALIDATE_REQUEST (R332): An ATS Invalidate Request removes overlapping ATC entries and is sent to all 12 engines. -/
def execInvalidateRequest (f : Func) (itag : Fin 32) (pasid : Option (BitVec 20)) (lo : DWord) (bytes : Nat) (s : State) : Out :=
  live (fun b => Machine.invalidateRequest b f itag (pasid.map (·.toNat)) lo.toNat bytes) s

/-- INVALIDATION_ACK (R332): An engine acknowledges the invalidation once its translated reads under it have completed. -/
def execInvalidationAck (f : Func) (itag : Fin 32) (e : Engine) (s : State) : Out :=
  live (fun b => Machine.invalidationAck b f itag (engineNo e)) s

/-- BUS_MASTER_ENABLE (R308): A change of a function's Bus Master Enable holds or releases its transfers, fetches and MSI-X. -/
def execBusMasterEnable (f : Func) (cfg : FuncCfg) (s : State) : Out := live (fun b => Machine.busMasterEnable b f cfg) s

/-- PRI_ENABLE (R331): Software clearing and setting PRI Enable restarts a Stopped PRI. -/
def execPriEnable (f : Func) (on : Bool) (allocation : Nat) (s : State) : Out :=
  live (fun b => Machine.priEnable b f on allocation) s

end Sys2Proof.Machine
end

