-- ==== Sys2Proof/Machine/Windows.lean ====
section
/-! DEFINITION. The meanings of the commands: Command windows and the commands of the hub (R308, R313 to R321, R332). -/

namespace Sys2Proof.Machine

/-- SEQ_WRITE (R315): A host write of a submission slot's SEQ word submits a record, or is ignored as BADSEQ. -/
def execSeqWrite (f : Func) (slot : Fin 2048) (seq : DWord) (rec : Record) (s : State) : Out :=
  live (fun b => Machine.seqWrite b f slot seq.toNat rec.bytes) s

/-- RECORD_TAKE (R315): The window takes the next record when room and answer slot allow, and verifies AUTH. -/
def execRecordTake (f : Func) (s : State) : Out := live (fun b => Machine.recordTake b f) s

/-- NOP (R318): The NOP command is answered with no effect. -/
def execNop (c : CmdId) (s : State) : Out := live (fun b => nopCmd b c) s

/-- CW_CONFIG (R319): The command sets the window's answer and event mirrors and MSI-X vectors. -/
def execCwConfig (c : CmdId) (s : State) : Out := live (fun b => cwConfigCmd b c) s

/-- SUBMIT_COMMAND (R199): The SUBMIT command queues a Sheaf from pool or host memory for admission. -/
def execSubmitCommand (c : CmdId) (s : State) : Out := live (fun b => submitCmd b c) s

/-- CANCEL_COMMAND (R215): The CANCEL command cancels a Sheaf by slot and COOKIE. -/
def execCancelCommand (c : CmdId) (s : State) : Out := live (fun b => cancelCmd b c) s

/-- PUBLISH_COMMAND (R99): The PUBLISH command publishes an extent version on behalf of the window's partition. -/
def execPublishCommand (c : CmdId) (s : State) : Out := live (fun b => publishCmd b c) s

/-- UNPUBLISH_COMMAND (R101): The UNPUBLISH command unpublishes an extent. -/
def execUnpublishCommand (c : CmdId) (s : State) : Out := live (fun b => unpublishCmd b c) s

/-- QUERY_COMMAND (R101): The QUERY command returns an extent's publication state. -/
def execQueryCommand (c : CmdId) (s : State) : Out := live (fun b => queryCmd b c) s

/-- MOVE (R322): The MOVE command hands a descriptor list to a host mover. -/
def execMove (c : CmdId) (s : State) : Out := live (fun b => moveCmd b c) s

/-- ANSWER_SLOT_FREE (R316): The host frees an answer slot by writing all ones to its SEQ word. -/
def execAnswerSlotFree (f : Func) (slot : Fin 2048) (v : DWord) (s : State) : Out :=
  live (fun b => Machine.answerSlotFree b f slot v.toNat) s

/-- EVENT_SLOT_FREE (R317): The host frees an event slot by writing all ones to its ESEQ word. -/
def execEventSlotFree (f : Func) (slot : Fin 1024) (v : DWord) (s : State) : Out :=
  live (fun b => Machine.eventSlotFree b f slot v.toNat) s

/-- VF_ENABLE (R407): A host write of the SR-IOV VF Enable bit creates the VFs and their command windows, or removes them with the
effect of an FLR of every VF. -/
def execVfEnable (on : Bool) (num : Nat) (s : State) : Out := live (fun b => Machine.vfEnable b on num) s

end Sys2Proof.Machine
end

