-- ==== Sys2Proof/Machine/Dispatch.lean ====
section
/-! DEFINITION. The dispatch: one arm per command of the table, each a direct call of its meaning. -/

namespace Sys2Proof.Machine

/-- The effect of a command on everything but the queue. -/
def exec (i : Instr) (s : State) : Host.Outcome State Fault Refusal :=
  match i with
  | .coldReset cause => Sys2Proof.Machine.execColdReset cause s
  | .warmReset cause => Sys2Proof.Machine.execWarmReset cause s
  | .hostPortReset cause => Sys2Proof.Machine.execHostPortReset cause s
  | .flr f => Sys2Proof.Machine.execFlr f s
  | .inputLockout mv => Sys2Proof.Machine.execInputLockout mv s
  | .huskTrainingDone c dimms trained => Sys2Proof.Machine.execHuskTrainingDone c dimms trained s
  | .grainLayerTestDone layer ok => Sys2Proof.Machine.execGrainLayerTestDone layer ok s
  | .initZeroingLine q tier => Sys2Proof.Machine.execInitZeroingLine q tier s
  | .mgmtWatchdogExpiry => Sys2Proof.Machine.execMgmtWatchdogExpiry s
  | .mgmtEccSingleBit => Sys2Proof.Machine.execMgmtEccSingleBit s
  | .mgmtEccDoubleBit => Sys2Proof.Machine.execMgmtEccDoubleBit s
  | .mgmtResetEnd => Sys2Proof.Machine.execMgmtResetEnd s
  | .commitReanswer => Sys2Proof.Machine.execCommitReanswer s
  | .d2dUnitReceive src dst seq crcOk => Sys2Proof.Machine.execD2dUnitReceive src dst seq crcOk s
  | .d2dRetryRequest src dst seq => Sys2Proof.Machine.execD2dRetryRequest src dst seq s
  | .structLoad c img => Sys2Proof.Machine.execStructLoad c img s
  | .structStage c img => Sys2Proof.Machine.execStructStage c img s
  | .structCommit c => Sys2Proof.Machine.execStructCommit c s
  | .structDiscard c => Sys2Proof.Machine.execStructDiscard c s
  | .structReadback c => Sys2Proof.Machine.execStructReadback c s
  | .extentRevoke c => Sys2Proof.Machine.execExtentRevoke c s
  | .phaseTake b => Sys2Proof.Machine.execPhaseTake b s
  | .phaseAEnd => Sys2Proof.Machine.execPhaseAEnd s
  | .phaseBEnd => Sys2Proof.Machine.execPhaseBEnd s
  | .commitPreempt k => Sys2Proof.Machine.execCommitPreempt k s
  | .tillerClearDone k => Sys2Proof.Machine.execTillerClearDone k s
  | .registerWrite off v => Sys2Proof.Machine.execRegisterWrite off v s
  | .strTierWrite v => Sys2Proof.Machine.execStrTierWrite v s
  | .migrationLine q => Sys2Proof.Machine.execMigrationLine q s
  | .cleaningPassLine q => Sys2Proof.Machine.execCleaningPassLine q s
  | .allowanceWindow => Sys2Proof.Machine.execAllowanceWindow s
  | .leaseExpiry eid => Sys2Proof.Machine.execLeaseExpiry eid s
  | .expireTake q eid => Sys2Proof.Machine.execExpireTake q eid s
  | .revocationTake q key => Sys2Proof.Machine.execRevocationTake q key s
  | .drainEnd ext => Sys2Proof.Machine.execDrainEnd ext s
  | .extentZeroLine q ext => Sys2Proof.Machine.execExtentZeroLine q ext s
  | .settleWindowClose ext => Sys2Proof.Machine.execSettleWindowClose ext s
  | .rds r addr => Sys2Proof.Machine.execRds r addr s
  | .rdx r addr => Sys2Proof.Machine.execRdx r addr s
  | .rdonce r addr => Sys2Proof.Machine.execRdonce r addr s
  | .wrline r addr bytes mask poison => Sys2Proof.Machine.execWrline r addr bytes mask poison s
  | .atomic r addr op size record atag payload => Sys2Proof.Machine.execAtomic r addr op size record atag payload s
  | .rdbulk r addr linesM1 => Sys2Proof.Machine.execRdbulk r addr linesM1 s
  | .wrbulk r addr linesM1 packetLens lines => Sys2Proof.Machine.execWrbulk r addr linesM1 packetLens lines s
  | .wrback r addr bytes poison => Sys2Proof.Machine.execWrback r addr bytes poison s
  | .snpdata r addr snpId bytes poison => Sys2Proof.Machine.execSnpdata r addr snpId bytes poison s
  | .rspi r addr snpId => Sys2Proof.Machine.execRspi r addr snpId s
  | .rsps r addr snpId => Sys2Proof.Machine.execRsps r addr snpId s
  | .rspcur r addr snpId => Sys2Proof.Machine.execRspcur r addr snpId s
  | .rspwbpend r addr snpId => Sys2Proof.Machine.execRspwbpend r addr snpId s
  | .cmpack r addr rid => Sys2Proof.Machine.execCmpack r addr rid s
  | .lease r renew => Sys2Proof.Machine.execLease r renew s
  | .submit r addr thresher cookie => Sys2Proof.Machine.execSubmit r addr thresher cookie s
  | .publish r ext expected new modCount digest => Sys2Proof.Machine.execPublish r ext expected new modCount digest s
  | .unpublish r ext expected => Sys2Proof.Machine.execUnpublish r ext expected s
  | .query r ext => Sys2Proof.Machine.execQuery r ext s
  | .cancel r slot cookie => Sys2Proof.Machine.execCancel r slot cookie s
  | .agentRegister r => Sys2Proof.Machine.execAgentRegister r s
  | .heartbeat r seq role time => Sys2Proof.Machine.execHeartbeat r seq role time s
  | .takeover r payload => Sys2Proof.Machine.execTakeover r payload s
  | .mirrorWrite r addr mask lines => Sys2Proof.Machine.execMirrorWrite r addr mask lines s
  | .busyLineServe q => Sys2Proof.Machine.execBusyLineServe q s
  | .ratEntryExpiry q eid atag => Sys2Proof.Machine.execRatEntryExpiry q eid atag s
  | .snoopTimeout q addr eid => Sys2Proof.Machine.execSnoopTimeout q addr eid s
  | .suspendTake q eid => Sys2Proof.Machine.execSuspendTake q eid s
  | .reclaimWalk q eid => Sys2Proof.Machine.execReclaimWalk q eid s
  | .huskLineRead c line rank lanes => Sys2Proof.Machine.execHuskLineRead c line rank lanes s
  | .grainLineRead ch line lanes => Sys2Proof.Machine.execGrainLineRead ch line lanes s
  | .scrubRead t lanes => Sys2Proof.Machine.execScrubRead t lanes s
  | .rowSpare ch row => Sys2Proof.Machine.execRowSpare ch row s
  | .rebuildLine c => Sys2Proof.Machine.execRebuildLine c s
  | .integrityInject c => Sys2Proof.Machine.execIntegrityInject c s
  | .channelRelease c => Sys2Proof.Machine.execChannelRelease c s
  | .channelRestore c dimms trained => Sys2Proof.Machine.execChannelRestore c dimms trained s
  | .taskDispatch k => Sys2Proof.Machine.execTaskDispatch k s
  | .descriptorReread slot task what host => Sys2Proof.Machine.execDescriptorReread slot task what host s
  | .matvec k => Sys2Proof.Machine.execMatvec k s
  | .matmul k => Sys2Proof.Machine.execMatmul k s
  | .attend k => Sys2Proof.Machine.execAttend k s
  | .gather k => Sys2Proof.Machine.execGather k s
  | .scatter k => Sys2Proof.Machine.execScatter k s
  | .quant k => Sys2Proof.Machine.execQuant k s
  | .dequant k => Sys2Proof.Machine.execDequant k s
  | .reduce k => Sys2Proof.Machine.execReduce k s
  | .topk k => Sys2Proof.Machine.execTopk k s
  | .elemwise k => Sys2Proof.Machine.execElemwise k s
  | .norm k => Sys2Proof.Machine.execNorm k s
  | .copy k => Sys2Proof.Machine.execCopy k s
  | .fill k => Sys2Proof.Machine.execFill k s
  | .digest k => Sys2Proof.Machine.execDigest k s
  | .join slot task => Sys2Proof.Machine.execJoin slot task s
  | .notify slot task => Sys2Proof.Machine.execNotify slot task s
  | .blockIssue k => Sys2Proof.Machine.execBlockIssue k s
  | .operandLineArrive k addr => Sys2Proof.Machine.execOperandLineArrive k addr s
  | .shadowBlockArrive k => Sys2Proof.Machine.execShadowBlockArrive k s
  | .entryFold k => Sys2Proof.Machine.execEntryFold k s
  | .resultWriteRefused k => Sys2Proof.Machine.execResultWriteRefused k s
  | .taskEnd k => Sys2Proof.Machine.execTaskEnd k s
  | .taskEndReport q => Sys2Proof.Machine.execTaskEndReport q s
  | .heldTaskEnqueue q => Sys2Proof.Machine.execHeldTaskEnqueue q s
  | .sheafAdmission q host => Sys2Proof.Machine.execSheafAdmission q host s
  | .sheafWatchdog slot => Sys2Proof.Machine.execSheafWatchdog slot s
  | .prefetch q => Sys2Proof.Machine.execPrefetch q s
  | .wormHeadRoute q input => Sys2Proof.Machine.execWormHeadRoute q input s
  | .packetEject q pkt => Sys2Proof.Machine.execPacketEject q pkt s
  | .packetInject q => Sys2Proof.Machine.execPacketInject q s
  | .reorderTimeout q src msgId => Sys2Proof.Machine.execReorderTimeout q src msgId s
  | .requestTimeout dst msgId => Sys2Proof.Machine.execRequestTimeout dst msgId s
  | .policed eid cls => Sys2Proof.Machine.execPoliced eid cls s
  | .codewordReceive n cw => Sys2Proof.Machine.execCodewordReceive n cw s
  | .idleFlit n f => Sys2Proof.Machine.execIdleFlit n f s
  | .headFlit n f => Sys2Proof.Machine.execHeadFlit n f s
  | .dataFlit n f => Sys2Proof.Machine.execDataFlit n f s
  | .abort n f => Sys2Proof.Machine.execAbort n f s
  | .nak n f => Sys2Proof.Machine.execNak n f s
  | .portClosing n f => Sys2Proof.Machine.execPortClosing n f s
  | .portClosed n f => Sys2Proof.Machine.execPortClosed n f s
  | .train n t crcOk => Sys2Proof.Machine.execTrain n t crcOk s
  | .flitCrcFail n => Sys2Proof.Machine.execFlitCrcFail n s
  | .nakResend n => Sys2Proof.Machine.execNakResend n s
  | .ackTimeout n => Sys2Proof.Machine.execAckTimeout n s
  | .ackTimer n => Sys2Proof.Machine.execAckTimer n s
  | .linkDown n cause => Sys2Proof.Machine.execLinkDown n cause s
  | .graceExpiry n => Sys2Proof.Machine.execGraceExpiry n s
  | .trainingStageDone n lanes polarity reversed => Sys2Proof.Machine.execTrainingStageDone n lanes polarity reversed s
  | .trainingStageTimeout n => Sys2Proof.Machine.execTrainingStageTimeout n s
  | .wormGapTimeout n => Sys2Proof.Machine.execWormGapTimeout n s
  | .closeTimeout n => Sys2Proof.Machine.execCloseTimeout n s
  | .linkEnable n => Sys2Proof.Machine.execLinkEnable n s
  | .linkDisable n => Sys2Proof.Machine.execLinkDisable n s
  | .forceFull n => Sys2Proof.Machine.execForceFull n s
  | .apply => Sys2Proof.Machine.execApply s
  | .remove => Sys2Proof.Machine.execRemove s
  | .smpQueueWrite v => Sys2Proof.Machine.execSmpQueueWrite v s
  | .smpClear => Sys2Proof.Machine.execSmpClear s
  | .sampleTick => Sys2Proof.Machine.execSampleTick s
  | .gateWindowBoundary target => Sys2Proof.Machine.execGateWindowBoundary target s
  | .huskOpIssue c op => Sys2Proof.Machine.execHuskOpIssue c op s
  | .refresh c => Sys2Proof.Machine.execRefresh c s
  | .seqWrite f slot seq rec => Sys2Proof.Machine.execSeqWrite f slot seq rec s
  | .recordTake f => Sys2Proof.Machine.execRecordTake f s
  | .nop c => Sys2Proof.Machine.execNop c s
  | .cwConfig c => Sys2Proof.Machine.execCwConfig c s
  | .submitCommand c => Sys2Proof.Machine.execSubmitCommand c s
  | .cancelCommand c => Sys2Proof.Machine.execCancelCommand c s
  | .publishCommand c => Sys2Proof.Machine.execPublishCommand c s
  | .unpublishCommand c => Sys2Proof.Machine.execUnpublishCommand c s
  | .queryCommand c => Sys2Proof.Machine.execQueryCommand c s
  | .move c => Sys2Proof.Machine.execMove c s
  | .answerSlotFree f slot v => Sys2Proof.Machine.execAnswerSlotFree f slot v s
  | .eventSlotFree f slot v => Sys2Proof.Machine.execEventSlotFree f slot v s
  | .apertureRead off len tag tlp => Sys2Proof.Machine.execApertureRead off len tag tlp s
  | .apertureWrite off bytes ep tlp => Sys2Proof.Machine.execApertureWrite off bytes ep tlp s
  | .moverDescriptorFetch m host => Sys2Proof.Machine.execMoverDescriptorFetch m host s
  | .moverDescriptorStart m => Sys2Proof.Machine.execMoverDescriptorStart m s
  | .moverLine m c desc host => Sys2Proof.Machine.execMoverLine m c desc host s
  | .moverDescriptorEnd m c desc => Sys2Proof.Machine.execMoverDescriptorEnd m c desc s
  | .translationCompletion f pasid page res => Sys2Proof.Machine.execTranslationCompletion f pasid page res s
  | .pageRequest => Sys2Proof.Machine.execPageRequest s
  | .prgResponse f index code => Sys2Proof.Machine.execPrgResponse f index code s
  | .priTimeout f index => Sys2Proof.Machine.execPriTimeout f index s
  | .invalidateRequest f itag pasid lo bytes => Sys2Proof.Machine.execInvalidateRequest f itag pasid lo bytes s
  | .invalidationAck f itag e => Sys2Proof.Machine.execInvalidationAck f itag e s
  | .busMasterEnable f cfg => Sys2Proof.Machine.execBusMasterEnable f cfg s
  | .priEnable f on allocation => Sys2Proof.Machine.execPriEnable f on allocation s
  | .mirrorCmp msgId cmp => Sys2Proof.Machine.execMirrorCmp msgId cmp s
  | .mirrorTimeout msgId => Sys2Proof.Machine.execMirrorTimeout msgId s
  | .checkpoint => Sys2Proof.Machine.execCheckpoint s
  | .heartbeatSend => Sys2Proof.Machine.execHeartbeatSend s
  | .fenceTimeout => Sys2Proof.Machine.execFenceTimeout s
  | .sweepCut => Sys2Proof.Machine.execSweepCut s
  | .gapEnd => Sys2Proof.Machine.execGapEnd s
  | .resyncCopyLine => Sys2Proof.Machine.execResyncCopyLine s
  | .secInfo c => Sys2Proof.Machine.execSecInfo c s
  | .fwUpdate c img => Sys2Proof.Machine.execFwUpdate c img s
  | .fwSvnCommit c => Sys2Proof.Machine.execFwSvnCommit c s
  | .ownerProvision c blob => Sys2Proof.Machine.execOwnerProvision c blob s
  | .manifestUpdate c man => Sys2Proof.Machine.execManifestUpdate c man s
  | .debugChallenge c => Sys2Proof.Machine.execDebugChallenge c s
  | .debugUnlock c => Sys2Proof.Machine.execDebugUnlock c s
  | .zeroize c => Sys2Proof.Machine.execZeroize c s
  | .certRead c => Sys2Proof.Machine.execCertRead c s
  | .fwRecover c img => Sys2Proof.Machine.execFwRecover c img s
  | .ideInfo c => Sys2Proof.Machine.execIdeInfo c s
  | .ideRequireWrite v => Sys2Proof.Machine.execIdeRequireWrite v s
  | .getVersion via => Sys2Proof.Machine.execGetVersion via s
  | .getCapabilities via => Sys2Proof.Machine.execGetCapabilities via s
  | .negotiateAlgorithms via => Sys2Proof.Machine.execNegotiateAlgorithms via s
  | .getDigests via => Sys2Proof.Machine.execGetDigests via s
  | .getCertificate via slot offset length => Sys2Proof.Machine.execGetCertificate via slot offset length s
  | .challenge via slot nonce => Sys2Proof.Machine.execChallenge via slot nonce s
  | .getMeasurements via index sign nonce => Sys2Proof.Machine.execGetMeasurements via index sign nonce s
  | .keyExchange via reqSession random exchange => Sys2Proof.Machine.execKeyExchange via reqSession random exchange s
  | .finish via verify => Sys2Proof.Machine.execFinish via verify s
  | .spdmHeartbeat via => Sys2Proof.Machine.execSpdmHeartbeat via s
  | .keyUpdate via op => Sys2Proof.Machine.execKeyUpdate via op s
  | .endSession via => Sys2Proof.Machine.execEndSession via s
  | .vendorDefinedRequest via req => Sys2Proof.Machine.execVendorDefinedRequest via req s
  | .unsupportedRequest via code => Sys2Proof.Machine.execUnsupportedRequest via code s
  | .pwrState c => Sys2Proof.Machine.execPwrState c s
  | .holdEntryDrained => Sys2Proof.Machine.execHoldEntryDrained s
  | .powerTimeout => Sys2Proof.Machine.execPowerTimeout s
  | .pwrVcore c => Sys2Proof.Machine.execPwrVcore c s
  | .vcoreSettled => Sys2Proof.Machine.execVcoreSettled s
  | .pwrWarmReset c => Sys2Proof.Machine.execPwrWarmReset c s
  | .pwrRead c => Sys2Proof.Machine.execPwrRead c s
  | .calRead c => Sys2Proof.Machine.execCalRead c s
  | .calWrite c img => Sys2Proof.Machine.execCalWrite c img s
  | .calWriteDone ok => Sys2Proof.Machine.execCalWriteDone ok s
  | .thermalScan readings => Sys2Proof.Machine.execThermalScan readings s
  | .referenceLost => Sys2Proof.Machine.execReferenceLost s
  | .referenceRestored hSteps => Sys2Proof.Machine.execReferenceRestored hSteps s
  | .counterDump => Sys2Proof.Machine.execCounterDump s
  | .pcCtlWrite v => Sys2Proof.Machine.execPcCtlWrite v s
  | .ctrRead c => Sys2Proof.Machine.execCtrRead c s
  | .smpRead c => Sys2Proof.Machine.execSmpRead c s
  | .tstepRead c => Sys2Proof.Machine.execTstepRead c s
  | .snapshot c => Sys2Proof.Machine.execSnapshot c s
  | .snapshotEnd => Sys2Proof.Machine.execSnapshotEnd s
  | .snapRelease => Sys2Proof.Machine.execSnapRelease s
  | .traceMark c => Sys2Proof.Machine.execTraceMark c s
  | .ringExtentWrite v => Sys2Proof.Machine.execRingExtentWrite v s
  | .tailWrite hi v => Sys2Proof.Machine.execTailWrite hi v s
  | .smbusReadByte addr op => Sys2Proof.Machine.execSmbusReadByte addr op s
  | .jtagAccess op => Sys2Proof.Machine.execJtagAccess op s
  | .vfEnable on num => Sys2Proof.Machine.execVfEnable on num s

end Sys2Proof.Machine
end

