-- ==== Sys2Proof/Safety.lean ====
section
/-! DEFINITION. What the claims speak of: how a command runs, who may answer it, and the invariants of the non-volatile memory. -/

namespace Sys2Proof.Machine

/-- A command is executed, and the state it leaves has a property. -/
def Does (i : Instr) (s : State) (p : State → Prop) : Prop := ∃ t, exec i s = .next t ∧ p t

/-- A command is executed, and leaves a block; the non-volatile memory and the queue stay. -/
def Gives (i : Instr) (s : State) (b : Blk) : Prop := exec i s = .next { s with blk := b }

/-- A command in progress of an opcode that the management controller executes, in its turn (R318), on a device that is up, while the
controller accepts commands (R43, R45) and no FLR has taken the answer away (R325). -/
structure MgmtRuns (b : Blk) (c : CmdId) (op : Nat) (r : CmdRec) : Prop where
  up : b.dead = false
  accepts : b.mgmt.resetting = false
  works : b.mgmt.failed = false
  found : b.cmd c = some r
  code : r.op = op
  turn : b.mgmtTurn r = true
  kept : r.lost = false

/-- A command in progress of an opcode that the hub or a quadrant executes (R318). -/
structure HubRuns (b : Blk) (c : CmdId) (op : Nat) (r : CmdRec) : Prop where
  up : b.dead = false
  found : b.cmd c = some r
  code : r.op = op
  kept : r.lost = false

/-- A posted write of the host takes effect: the device is up, and IDE lets the TLP in (R380). -/
structure HostWrites (b : Blk) : Prop where
  up : b.dead = false
  letIn : b.ideIn true = true

/-- An answer stands in its slot (R316). -/
def Answered (t : State) (r : CmdRec) (status : Nat) (res : Bytes) : Prop :=
  mget (t.blk.win r.f).answers (r.seq % 2048) = some (answerBytes r status res)

/-- The parts of the block, for claims of what a command leaves as it is. -/
inductive Region
  | regs | dead | pins | tb | frozen | fresh | aon | pcs | str | pool | chans | ext | coh | fab | traf | work | rings | pair | hub | mgmt
  | sec | pwr
  deriving DecidableEq, Repr

/-- A part of the block is the same in two blocks. -/
def Region.same (x y : Blk) : Region → Prop
  | .regs => y.regs = x.regs
  | .dead => y.dead = x.dead
  | .pins => y.pins = x.pins
  | .tb => y.tb = x.tb
  | .frozen => y.frozen = x.frozen
  | .fresh => y.fresh = x.fresh
  | .aon => y.aon = x.aon
  | .pcs => y.pcs = x.pcs
  | .str => y.str = x.str
  | .pool => y.pool = x.pool
  | .chans => y.chans = x.chans
  | .ext => y.ext = x.ext
  | .coh => y.coh = x.coh
  | .fab => y.fab = x.fab
  | .traf => y.traf = x.traf
  | .work => y.work = x.work
  | .rings => y.rings = x.rings
  | .pair => y.pair = x.pair
  | .hub => y.hub = x.hub
  | .mgmt => y.mgmt = x.mgmt
  | .sec => y.sec = x.sec
  | .pwr => y.pwr = x.pwr

/-- A change of the block that reaches no part but those listed. -/
def OnlyBlk (l : List Region) (x y : Blk) : Prop := ∀ p, p ∉ l → Region.same x y p

/-- A command that reaches no part of the block but those listed, and neither the non-volatile memory nor the queue: its frame. -/
def Only (l : List Region) (s t : State) : Prop := t.nv = s.nv ∧ t.pending = s.pending ∧ OnlyBlk l s.blk t.blk

/-- What a log or trace record may reach: the registers of its losses, the counters, and the rings in pool memory. -/
def quietRegions : List Region := [.regs, .aon, .pcs, .pool, .chans, .ext, .rings]

/-- What a write of the controller's own into the pool may reach beside these: the home agents, the fabric to the peer, the free values, and,
where a Grain layer fails as a line is read, the device (R352, R353, R356). -/
def devRegions : List Region := [.coh, .fab, .fresh, .dead, .pins] ++ quietRegions

/-- A command in progress ends: it is no longer in progress, and its answer stands in its slot (R315, R316). -/
def Ends (s t : State) (c : CmdId) (r : CmdRec) (status : Nat) (res : Bytes) : Prop :=
  Answered t r status res ∧ t.blk.hub.inProg = s.blk.hub.inProg.eraseP (fun x => x.is c)

/-- A command in progress ends, and does nothing more than l: beside its answer, the answer's mirror and MSI-X message, and the count of
failed commands. -/
def EndsOnly (l : List Region) (s t : State) (c : CmdId) (r : CmdRec) (status : Nat) (res : Bytes) : Prop :=
  Only ([.hub, .regs] ++ l) s t ∧ Ends s t c r status res

/-- A control message of a fabric host passes the checks that every one is put to, and reaches its target on the block b (R35, R63, R235,
R243, R291, R399). -/
structure CtrlIn (b0 b : Blk) (q : Nat) (r : Req) (ty len : Nat) (sure : Bool) : Prop where
  enters : (b0.reqIn q r.src.toNat ty [len] sure).1 = true
  open_ : (b0.reqIn q r.src.toNat ty [len] sure).2.pwr.holding = false
  formed : r.reservedSet = false
  host : mhas ((b0.reqIn q r.src.toNat ty [len] sure).2.view (.home (Fin.ofNat 4 q))).hosts r.src.toNat = true
  at_ : b = (b0.reqIn q r.src.toNat ty [len] sure).2.traceRx q r.src.toNat ty r.msgId.toNat r.traceId.toNat 0

/-- The last message in a quadrant's injection queue: its type, destination, status and payload (R239, R241). -/
def Sends (t : State) (q ty dst status : Nat) (payload : Bytes) : Prop :=
  ∃ m, (tget (fun _ => []) t.blk.fab.inj q).getLast? = some m ∧ m.ty = ty ∧ m.dst = dst ∧ m.status = status ∧ m.payload = payload

/-- The same, where the device is still up: one that loses a quadrant on the way answers nothing (R35). -/
def SendsUp (t : State) (q ty dst status : Nat) (payload : Bytes) : Prop := t.blk.dead = false → Sends t q ty dst status payload

/-- A request of a fabric host passes every check of R90 with an answer c, and is accepted on the block b. -/
structure ReqIn (b0 b : Blk) (r : Req) (a : Addr) (ty : Nat) (lens : List Nat) (k : AKind) (c : Checked) : Prop where
  enters : (b0.reqIn (homeOf (lineOf a.toNat)) r.src.toNat ty lens false).1 = true
  formed : r.reservedSet = false
  checked : (b0.reqIn (homeOf (lineOf a.toNat)) r.src.toNat ty lens false).2.check (.host r.src.toNat) k (lineOf a.toNat) = c
  passes : c.status = 0
  at_ : b = (b0.reqIn (homeOf (lineOf a.toNat)) r.src.toNat ty lens false).2.accepted (lineOf a.toNat) r.src.toNat ty r.msgId.toNat
    r.traceId.toNat a.toNat c.part

/-- A well-formed request of a fabric host fails a check of R90 with a status. -/
structure ReqFails (b0 : Blk) (r : Req) (a : Addr) (ty : Nat) (lens : List Nat) (k : AKind) (st : Nat) : Prop where
  enters : (b0.reqIn (homeOf (lineOf a.toNat)) r.src.toNat ty lens false).1 = true
  formed : r.reservedSet = false
  checked : ((b0.reqIn (homeOf (lineOf a.toNat)) r.src.toNat ty lens false).2.check (.host r.src.toNat) k (lineOf a.toNat)).status = st
  fails : st ≠ 0

/-- A line that a request may start on at once and that nobody holds, in a pool with no wrong codeword. -/
structure LineFree (b : Blk) (l : Nat) : Prop where
  idle : b.mustWait l = false
  noEntry : mget b.coh.dir l = none
  room : (b.setEntries (dirSet l)).length + b.claims (dirSet l) < 8
  sound : b.pool.inj = []

/-- A line's directory entry: its state and its pointers (R107). -/
def Held (t : State) (l : Nat) (st : DirState) (ptrs : List Nat) : Prop :=
  ∃ e, mget t.blk.coh.dir l = some e ∧ e.state = st ∧ e.coarse = false ∧ e.ptrs = ptrs

/-- A transaction on a line waits for the CmpAck of a requester (R113). -/
def Acking (t : State) (l : Nat) (r : Req) : Prop := ∃ x ∈ t.blk.coh.txns, x.line = l ∧ x.who = .fabric r.src ∧ ∃ m n, x.phase = .ack m n

/-- A well-formed response of an agent answers a snoop of a transaction that waits for it. -/
structure SnoopWaits (b : Blk) (r : Req) (a : Addr) (id : BitVec 16) (x : Txn) : Prop where
  up : b.dead = false
  loaded : b.str.loaded = true
  formed : r.reservedSet = false
  aligned : a.toNat % 128 = 0
  waits : b.snooped (lineOf a.toNat) r.src.toNat id.toNat = some x

/-- What an accepted response of an agent may reach: the coherence state and the agent's shaper, and with a TRACE_ID the trace (R289, R434). -/
def rspReach (r : Req) : List Region := if r.traceId = 0 then [.coh, .traf] else [.coh, .traf] ++ quietRegions

/-- The OTP bits have not lost a bit: MIN_SVN has not fallen, an owner that was set is the same, and what the factory wrote stands
(R368, R374, R375). -/
structure OtpKept (o n : Otp) : Prop where
  vendor : n.vendorHash = o.vendorHash
  uds : n.uds = o.uds
  serial : n.serial = o.serial
  svn : o.minSvn ≤ n.minSvn
  owner : o.ownerSet = true → n.ownerSet = true ∧ n.ownerHash = o.ownerHash ∧ n.kek = o.kek

/-- The commands whose effect reaches the non-volatile memory (R368, R369, R394, R406, R412). -/
def touchesNv : Instr → Bool
  | .coldReset _ | .warmReset _ | .inputLockout _ | .mgmtWatchdogExpiry | .mgmtEccDoubleBit | .fwUpdate _ _ | .fwSvnCommit _
  | .ownerProvision _ _ | .manifestUpdate _ _ | .calWriteDone _ => true
  | _ => false

/-- What a period of TB_REF sends on a live link (R273): as many IDLE flits as its unfilled flit times take, with the acknowledgement. -/
def idleFlits (k : Link) : LFlit :=
  { ty := 0, seq := 0, ack := (k.rxNext + 4095) % 4096, reqAck := decide (1528 ≤ k.held.length), payload := zeros 32,
    times := ((k.credit + 1799) / 34).toNat }

/-- What a cold or a warm reset leaves before the boot chain runs: registers at their Reset values but those that the reset itself sets, no
structure, window, task, lease, pool line, Sheaf or transaction, BOOT_ID drawn anew, and the commands of the flash as its SFDP names them
(R407, R383, R451). -/
structure Afresh (b : Blk) (o : Otp) (f : Sfdp) (cause : Nat) : Prop where
  regs : ∀ off, off ≠ Reg.hubPcieStatus → off ≠ Reg.pwrResetCause → off ≠ Reg.pwrVcore → off ≠ Reg.secIdeCfg → b.reg off = regReset off
  cause : b.reg Reg.pwrResetCause = BitVec.ofNat 32 cause
  notLoaded : b.str.loaded = false ∧ b.str.run = {} ∧ b.str.staged = none ∧ b.str.commit = none ∧ b.str.epoch = 0
  pool : b.pool = {} ∧ b.ext = {} ∧ b.coh = {}
  work : b.work = {} ∧ b.traf = {} ∧ b.hub = {} ∧ b.mgmt = { wdAt := b.tb, spi := f }
  up : b.dead = false
  otp : b.sec.otp = o
  bootId : b.sec.bootId.length = 8
  noKeys : b.sec.keySlots = [] ∧ b.sec.sessions = [] ∧ b.sec.ideKeys = [] ∧ b.sec.ideActive = [] ∧ b.sec.nonce = none
  pairPins : b.pair.pins = 3 ∧ b.pair.role = 0

/-- The offsets whose write does more than its access codes say: they have rows of their own, or stage, sample or select. -/
def ownRow (off : Nat) : Bool :=
  [Reg.strTier, Reg.trfEntSel, Reg.trfEntKey, Reg.trfEntCir, Reg.trfEntPir, Reg.trfEntCbs, Reg.trfEntPbs, Reg.trfEntOvh, Reg.trfEntCtl,
   Reg.trfSmpQueue, Reg.trfSmpCtl, Reg.secIdeCfg, Reg.obsPcCtl, Reg.obsTraceEnableLo, Reg.obsTraceEnableHi, Reg.obsDumpCfg,
   Reg.obsRingCfg, Reg.obsRingTailLo, Reg.obsRingTailHi, Reg.obsSnapCfg, Reg.obsRingExtent].contains off || (lnkCtlPort off).isSome

/-- An unconfigured controller may load a structure: no flash image waits, every Husk channel has ended its training (R80, log entry 57), and
PF0 may read host memory (R308). -/
structure LoadMay (b : Blk) : Prop where
  empty : b.str.loaded = false
  noBoot : b.str.boot = none
  trained : b.allTrained = true
  reads : b.mayRead = true

/-- There is room among the outstanding non-posted requests for the read of a command, or all of it has been sent (R307). -/
def ReadRoom (b : Blk) (r : CmdRec) : Prop :=
  b.nonPosted < 512 ∨ (b.readOf (.mgmt r.f r.seq)).any (fun x => x.left == 0) = true

/-- A log record is raised (R428, R429): where the log is not ready, it goes into the buffer while that has room; and in a default ring that
has lost nothing and has room, it stands at HEAD, which moves on. -/
def Logged (x y : Blk) (r : LogRec) : Prop :=
  (x.logReady = false → x.rings.buffer.length < 64 → y.rings.buffer = x.rings.buffer ++ [r]) ∧
  (x.logReady = true → x.rings.log.ext = none → x.rings.log.lost = 0 → x.rings.log.head % 32 = 0 → x.rings.log.head < ring0Size →
    32 ≤ x.rings.log.free ring0Size →
    cread y.rings.ring0 x.rings.log.head 32 = r.bytes ∧ y.rings.log.head = (x.rings.log.head + 32) % ring0Size)

/-- The block where a block of the device has noted that it has taken the running phase of a commit. -/
def takenBy (b : Blk) (m : Commit) (k : Block) : Blk := { b with str.commit := some { m with taken := m.taken ++ [k] } }

/-- The commit that STRUCT_COMMIT issues for a staged delta: in phase A, from the present timebase, with no block that has taken it. -/
def commitOf (b : Blk) (g : Staged) (c : CmdId) : Commit :=
  { img := g.img, digest := g.digest, cmd := c, base := b.str.run, afterA := deltaA b.str.run g.img, afterB := deltaB b.str.run g.img,
    phase := 1, point := b.tb, taken := [], clearing := [], cleared := [] }

/-- The device log goes to its default ring or its buffer, and no trace is taken: no record reaches a line of the pool. -/
def RingsApart (b : Blk) : Prop := b.rings.log.ext = none ∧ b.rings.trace.ext = none

/-- What a line reads as after a write of the bytes of a mask: a write of every byte sets its poison flag, and any other leaves a poisoned
line poisoned (R340). -/
def lineAfter (b : Blk) (l : Nat) (bs : Bytes) (mask : BitVec 128) (p : Bool) : Bytes × Bool :=
  let old := b.lineVal l
  let bad := if mask = BitVec.allOnes 128 then p else old.2 || p
  (if bad then zeros 128 else mergeMask mask old.1 bs, bad)

/-- A write of a line by an internal requester is accepted and completes at once (R37, R117). -/
structure WritesNow (b : Blk) (r : Requester) (l : Nat) : Prop where
  passes : (b.check r.act .write l).status = 0
  free : LineFree b l
  alive : b.huskAlive l = true
  alone : b.mirrors l = false
  apart : RingsApart b

/-- A well-formed order of the witness that is newer than TERM and names the controller; its signature is not judged here (R358). -/
structure OrderIn (b : Blk) (r : Req) (p : Bytes) : Prop where
  up : b.dead = false
  loaded : b.str.loaded = true
  source : b.pairSource r.src.toNat = true
  formed : r.reservedSet = false
  length : p.length = 96
  reserved : u8 p 9 = 0 ∧ le p 0x0E 2 = 0 ∧ allZero (sl p 0x14 12) = true
  newer : b.pair.term < le p 0 8
  new_ : le p 0x0C 2 = b.str.run.self
  echo : b.pair.sentSeq (le p 0x10 4) = true

/-- Does the witness's key verify an order (R358). -/
def orderSigned (b : Blk) (p : Bytes) : Bool :=
  !allZero b.sec.witnessKey && ecdsaVerify b.sec.witnessKey (sha256 (p.take 32)) (p.drop 32)

/-- The tasks that a Thresher may prefetch for: waiting, with every predecessor that has not ended running (R211). -/
def prefetchable (b : Blk) (q : Nat) : List (Nat × Nat × TaskRt) :=
  b.tasksWhere (fun slot s i t => slot / 64 == q && s.abort.isNone && t.state == .waiting && !t.noPre && t.onTiller &&
    !b.work.tillers.any (fun t => t.2.pre.any (fun p => p.slot == slot && p.task == i)) && (b.preTiller slot s i).isSome)

/-- The held tasks of a quadrant (R208). -/
def heldTasks (b : Blk) (q : Nat) : List (Nat × Nat × TaskRt) :=
  b.tasksWhere (fun _ s _ t => t.state == .held && t.home == q && s.abort.isNone)

/-- A Tiller runs a task whose descriptor it has read, and that has not ended. -/
structure Runs (b : Blk) (k : Nat) (r : Run) (db : Bytes) : Prop where
  going : b.halted = false
  run : (b.til k).run = some r
  desc : r.desc = some db
  open_ : r.ended = none

/-- The run of a task as a row step has it: a DIGEST notes its extent before any read (R190). -/
def ranged (b : Blk) (r : Run) (d : Desc) : Run := if d.kind = 0xD && r.ext.isNone then { r with ext := b.digestExt d } else r

/-- The last row step of a task has its lines in the local store, none refused or poisoned, and gives the run r2 (R182 to R190). -/
structure LastRow (b : Blk) (r r2 : Run) (d : Desc) : Prop where
  last : r.next + 1 = d.rowSteps
  range : d.kind = 0xD → (ranged b r d).ext.isSome = true
  have_ : r.hasAll ((d.need r.store r.next).use ++ (d.need r.store r.next).move) = true
  granted : r.refused ((d.need r.store r.next).use ++ (d.need r.store r.next).move) = none
  sound : r.poisoned (d.need r.store r.next).use = none
  step : (ranged b r d).rowStep d r.next = .ok r2
  open_ : r2.ended = none

/-- The head entry of a commit window may fold: it waits for no shadow, nothing ends its task, its lines are sound, and no unresolved
escalation does (R150, R151, R153). -/
structure HeadFolds (r : Run) (d : Desc) (e : WinEnt) (rest : List WinEnt) : Prop where
  head : r.window = e :: rest
  ready : e.wait = false
  goes : e.stop = none
  sound : r.poisoned e.lines = none
  resolved : (((readAwn d.awn (fmtAt d.fa)).getD ⟨0, false, 0⟩).fail && e.pairs.any (fun p => p.esc && p.shadow.isNone)) = false

/-- The next sequenced flit of a live link: it is free of reserved bits, carries no acknowledgement and asks for none, and calls for none
yet (R275, R277). -/
structure FlitNext (b : Blk) (n ty : Nat) (f : Flit) : Prop where
  up : b.dead = false
  live : (b.link n).live = true
  formed : flitOk ty f = true
  noAck : f.ackV = false
  noReq : f.reqAck = false
  next_ : f.seq.toNat = (b.link n).rxNext
  range : (b.link n).rxNext < 4096
  few : (b.link n).unacked < 63

/-- A complete packet passes every check of ejection (R238, R240, R254), on a device that has a structure. -/
structure PacketIn (b : Blk) (q : Nat) (p : Packet) (ty : Nat) : Prop where
  up : b.dead = false
  loaded : b.str.loaded = true
  crc : e2eCrc p.hdr (fit (hfld p.hdr 88 80) p.payload) = hfld p.hdr 255 224
  formed : (b.event (60 + q) 2 (some (b.hostPart (hfld p.hdr 47 32)))).packetOk p.hdr = true
  type : hfld p.hdr 15 8 = ty

/-- A window may take its next record: its slot holds that record, its answer slot is free, and the limit of 64 leaves room (R315). -/
structure TakesNext (b : Blk) (f seq : Nat) (r : Bytes) : Prop where
  up : b.dead = false
  here : b.funcOn f = true
  next_ : (b.win f).nextSeq = seq
  stands : mget (b.win f).subs (seq % 2048) = some (seq, r)
  slotFree : mget (b.win f).answers (seq % 2048) = none
  room : (b.inProgOf f).length < 64

/-- The controller accepts records: no management reset holds this one back, and it is neither failed, in recovery nor zeroised (R45, R321,
R372, R389). -/
structure Serves (b : Blk) (r : Bytes) : Prop where
  served : (b.mgmt.resetting && isMgmt (u8 r 0) && opcodes.contains (u8 r 0)) = false
  works : b.mgmt.failed = false
  booted : b.sec.recovery = false
  keyed : b.sec.zeroised = false

/-- The command that a record becomes as it is taken. -/
def takenAs (b : Blk) (f seq : Nat) (r : Bytes) : CmdRec :=
  { f := f, seq := seq, bytes := r, part := (b.view .hub).partOfFunc f, at_ := b.tb }

/-- A descriptor of a MOVE runs on a mover. -/
structure DescRuns (b : Blk) (k : Nat) (c : CmdId) (i : Nat) (m : MoveRt) (d : DescRt) : Prop where
  up : b.dead = false
  move : b.moveOf c.f.val c.seq.toNat = some m
  mover : m.mover = k
  desc : mget m.descs i = some d
  started : d.started = true
  open_ : d.ended = false

/-- The descriptor of a MOVE after a block. -/
def descAt (t : State) (c : CmdId) (i : Nat) : Option DescRt := (t.blk.moveOf c.f.val c.seq.toNat).bind (fun m => mget m.descs i)

/-- The SPDM responder answers with a response, on the transport of the request. -/
def SpdmSays (s t : State) (via : SpdmVia) (r : SpdmRsp) : Prop := t.blk.sec.spdmOut = s.blk.sec.spdmOut ++ [(via.mctp, r)]

/-- The algorithms are negotiated, and the session that a request comes in, if any, has finished its handshake (R378). -/
structure SpdmOpen (b : Blk) (via : SpdmVia) : Prop where
  up : b.spdmUp = true
  negotiated : b.sec.spdm = 3
  session : ∀ k, via.session = some k → ∃ x, b.session k = some x ∧ x.finished = true

/-- The writes of a piece of host memory, in requests of at most Max_Payload_Size (R307), with their PASID where the page is untranslated
(R327). -/
def Blk.pieceWrites (b : Blk) (f pasid : Nat) (ep : Bool) (p : Nat × Nat × Bool) (bs : Bytes) : List PcieOut :=
  (cutPiece (128 * 2 ^ (b.win 0).mps) p).map (fun c => .write f (if c.2.2 then some pasid else none) c.1 (sl bs (c.1 - p.1) c.2.1) ep)

/-- The writes to host memory that carry some bytes, piece by piece (R324). -/
def Blk.writesOf (b : Blk) (f pasid : Nat) (ep : Bool) : List (Nat × Nat × Bool) → Bytes → List PcieOut
  | [], _ => []
  | p :: t, bs => b.pieceWrites f pasid ep p (bs.take p.2.1) ++ b.writesOf f pasid ep t (bs.drop p.2.1)

/-- The writes of what a command puts into host memory under its PASID (R319). -/
def Blk.putWrites (b : Blk) (f pasid a : Nat) (bs : Bytes) : List PcieOut :=
  ((plainPieces a bs.length).map (fun p => b.pieceWrites f pasid false p (sl bs (p.1 - a) p.2.1))).flatten

end Sys2Proof.Machine
end

