-- ==== Sys2Proof/WellFormed.lean ====
section
/-! DEFINITION. Which terms of Instr are commands that can reach the package: the sizes that the manual gives to messages, records,
flits, readings and indices. A meaning runs on every term; the encoder of each sender makes only well-formed ones. -/

namespace Sys2Proof

/-- The extents have indices below 2^18 (R56). -/
def extents : Nat := 2 ^ 18

/-- The payload of an atomic: the operand, and for CAS (0x9) the compare value after it (R118, R241). -/
def atmLen (op : BitVec 4) (size : BitVec 2) : Nat := (if op = 9 then 2 else 1) * 2 ^ (size.toNat + 2)

/-- A line of a bulk message has 128 bytes (R239). -/
def wfLine (l : LineIn) : Bool := l.bytes.length = 128

/-- A gate stands before an egress port or a Husk channel: targets are below 512 (R59). -/
def wfBlock : Block → Bool
  | .gate target => target < 512
  | _ => true

/-- A revocation names an extent index (R96). -/
def wfKey : RevokeKey → Bool
  | .extent i => i < extents
  | .grant i _ => i < extents

/-- A packet has at most 256 payload bytes (R237). -/
def wfRouterIn : RouterIn → Bool
  | .ext _ => true
  | .d2d _ p => p.payload.length ≤ 256
  | .hub p => p.payload.length ≤ 256

/-- An IDE key has 32 bytes (R380). -/
def wfIdeKm : IdeKm → Bool
  | .keyProg _ key => key.length = 32
  | _ => true

/-- Is a term a command that can reach the package. -/
def wellFormed : Instr → Bool
  | .coldReset _ => true
  | .warmReset _ => true
  | .hostPortReset _ => true
  | .flr _ => true
  | .inputLockout _ => true
  | .huskTrainingDone _ dimms _ => dimms.length ≤ 2
  | .grainLayerTestDone _ _ => true
  | .initZeroingLine _ _ => true
  | .mgmtWatchdogExpiry => true
  | .mgmtEccSingleBit => true
  | .mgmtEccDoubleBit => true
  | .mgmtResetEnd => true
  | .commitReanswer => true
  | .d2dUnitReceive src dst _ _ => src ≠ dst
  | .d2dRetryRequest src dst _ => src ≠ dst
  | .structLoad _ _ => true
  | .structStage _ _ => true
  | .structCommit _ => true
  | .structDiscard _ => true
  | .structReadback _ => true
  | .extentRevoke _ => true
  | .phaseTake b => wfBlock b
  | .phaseAEnd => true
  | .phaseBEnd => true
  | .commitPreempt _ => true
  | .tillerClearDone _ => true
  | .registerWrite _ _ => true
  | .strTierWrite _ => true
  | .migrationLine _ => true
  | .cleaningPassLine _ => true
  | .allowanceWindow => true
  | .leaseExpiry _ => true
  | .expireTake _ _ => true
  | .revocationTake _ key => wfKey key
  | .drainEnd ext => ext < extents
  | .extentZeroLine _ ext => ext < extents
  | .settleWindowClose ext => ext < extents
  | .rds _ _ => true
  | .rdx _ _ => true
  | .rdonce _ _ => true
  | .wrline _ _ bytes _ _ => bytes.length = 128
  | .atomic _ _ op size _ _ payload => payload.length = atmLen op size
  | .rdbulk _ _ _ => true
  | .wrbulk _ _ linesM1 _ lines => lines.length = linesM1.toNat + 1 && lines.all wfLine
  | .wrback _ _ bytes _ => bytes.length = 128
  | .snpdata _ _ _ bytes _ => bytes.length = 128
  | .rspi _ _ _ => true
  | .rsps _ _ _ => true
  | .rspcur _ _ _ => true
  | .rspwbpend _ _ _ => true
  | .cmpack _ _ _ => true
  | .lease _ _ => true
  | .submit _ _ _ _ => true
  | .publish _ ext _ _ _ digest => ext < extents && digest.length = 32
  | .unpublish _ ext _ => ext < extents
  | .query _ ext => ext < extents
  | .cancel _ _ _ => true
  | .agentRegister _ => true
  | .heartbeat _ _ _ _ => true
  | .takeover _ payload => payload.length = 96
  | .mirrorWrite _ _ _ lines => !lines.isEmpty && lines.length ≤ 510 && lines.all wfLine
  | .busyLineServe _ => true
  | .ratEntryExpiry _ _ _ => true
  | .snoopTimeout _ _ _ => true
  | .suspendTake _ _ => true
  | .reclaimWalk _ _ => true
  | .huskLineRead _ line _ lanes => line < 2 ^ 32 && lanes.Nodup
  | .grainLineRead _ line lanes => line < 2 ^ 32 && lanes.Nodup
  | .scrubRead _ lanes => lanes.Nodup
  | .rowSpare _ row => row < 2 ^ 16
  | .rebuildLine _ => true
  | .integrityInject _ => true
  | .channelRelease _ => true
  | .channelRestore _ dimms _ => dimms.length ≤ 2
  | .taskDispatch _ => true
  | .descriptorReread _ task _ _ => task < 65536
  | .matvec _ => true
  | .matmul _ => true
  | .attend _ => true
  | .gather _ => true
  | .scatter _ => true
  | .quant _ => true
  | .dequant _ => true
  | .reduce _ => true
  | .topk _ => true
  | .elemwise _ => true
  | .norm _ => true
  | .copy _ => true
  | .fill _ => true
  | .digest _ => true
  | .join _ task => task < 65536
  | .notify _ task => task < 65536
  | .blockIssue _ => true
  | .operandLineArrive _ _ => true
  | .shadowBlockArrive _ => true
  | .entryFold _ => true
  | .resultWriteRefused _ => true
  | .taskEnd _ => true
  | .taskEndReport _ => true
  | .heldTaskEnqueue _ => true
  | .sheafAdmission _ _ => true
  | .sheafWatchdog _ => true
  | .prefetch _ => true
  | .wormHeadRoute _ input => wfRouterIn input
  | .packetEject _ pkt => pkt.payload.length ≤ 256
  | .packetInject _ => true
  | .reorderTimeout _ _ _ => true
  | .requestTimeout _ _ => true
  | .policed _ _ => true
  | .codewordReceive _ cw => cw.lanes.length = 4 && cw.lanes.all (fun l => l.length = 136)
  | .idleFlit _ f => f.payload.length = 32
  | .headFlit _ f => f.payload.length = 32
  | .dataFlit _ f => f.payload.length = 32
  | .abort _ f => f.payload.length = 32
  | .nak _ f => f.payload.length = 32
  | .portClosing _ f => f.payload.length = 32
  | .portClosed _ f => f.payload.length = 32
  | .train _ _ _ => true
  | .flitCrcFail _ => true
  | .nakResend _ => true
  | .ackTimeout _ => true
  | .ackTimer _ => true
  | .linkDown _ _ => true
  | .graceExpiry _ => true
  | .trainingStageDone _ _ _ _ => true
  | .trainingStageTimeout _ => true
  | .wormGapTimeout _ => true
  | .closeTimeout _ => true
  | .linkEnable _ => true
  | .linkDisable _ => true
  | .forceFull _ => true
  | .apply => true
  | .remove => true
  | .smpQueueWrite _ => true
  | .smpClear => true
  | .sampleTick => true
  | .gateWindowBoundary target => target < 512
  | .huskOpIssue _ _ => true
  | .refresh _ => true
  | .seqWrite _ _ _ rec => rec.bytes.length = 120
  | .recordTake _ => true
  | .nop _ => true
  | .cwConfig _ => true
  | .submitCommand _ => true
  | .cancelCommand _ => true
  | .publishCommand _ => true
  | .unpublishCommand _ => true
  | .queryCommand _ => true
  | .move _ => true
  | .answerSlotFree _ _ _ => true
  | .eventSlotFree _ _ _ => true
  | .apertureRead off len _ _ => 1 ≤ len && off.toNat + len ≤ 2 ^ 36
  | .apertureWrite off bytes _ _ => !bytes.isEmpty && off.toNat + bytes.length ≤ 2 ^ 36
  | .moverDescriptorFetch _ _ => true
  | .moverDescriptorStart _ => true
  | .moverLine _ _ desc _ => desc < 65536
  | .moverDescriptorEnd _ _ desc => desc < 65536
  | .translationCompletion _ _ _ _ => true
  | .pageRequest => true
  | .prgResponse _ index _ => index < 512
  | .priTimeout _ index => index < 512
  | .invalidateRequest _ _ _ lo bytes => 4096 ≤ bytes && lo.toNat % bytes = 0
  | .invalidationAck _ _ _ => true
  | .busMasterEnable _ _ => true
  | .priEnable _ _ allocation => allocation ≤ 512
  | .mirrorCmp _ _ => true
  | .mirrorTimeout _ => true
  | .checkpoint => true
  | .heartbeatSend => true
  | .fenceTimeout => true
  | .sweepCut => true
  | .gapEnd => true
  | .resyncCopyLine => true
  | .secInfo _ => true
  | .fwUpdate _ _ => true
  | .fwSvnCommit _ => true
  | .ownerProvision _ _ => true
  | .manifestUpdate _ _ => true
  | .debugChallenge _ => true
  | .debugUnlock _ => true
  | .zeroize _ => true
  | .certRead _ => true
  | .fwRecover _ _ => true
  | .ideInfo _ => true
  | .ideRequireWrite _ => true
  | .getVersion _ => true
  | .getCapabilities _ => true
  | .negotiateAlgorithms _ => true
  | .getDigests _ => true
  | .getCertificate _ slot offset length => slot < 8 && offset < 65536 && length < 65536
  | .challenge _ _ nonce => nonce.length = 32
  | .getMeasurements _ index _ nonce => index < 256 && nonce.length = 32
  | .keyExchange _ _ random exchange => random.length = 32 && exchange.length = 64
  | .finish _ verify => verify.length = 32
  | .spdmHeartbeat _ => true
  | .keyUpdate _ op => op < 256
  | .endSession _ => true
  | .vendorDefinedRequest _ req => wfIdeKm req
  | .unsupportedRequest _ _ => true
  | .pwrState _ => true
  | .holdEntryDrained => true
  | .powerTimeout => true
  | .pwrVcore _ => true
  | .vcoreSettled => true
  | .pwrWarmReset _ => true
  | .pwrRead _ => true
  | .calRead _ => true
  | .calWrite _ _ => true
  | .calWriteDone _ => true
  | .thermalScan readings => readings.length = 34 && readings.all (fun t => -128 ≤ t && t ≤ 127)
  | .referenceLost => true
  | .referenceRestored _ => true
  | .counterDump => true
  | .pcCtlWrite _ => true
  | .ctrRead _ => true
  | .smpRead _ => true
  | .tstepRead _ => true
  | .snapshot _ => true
  | .snapshotEnd => true
  | .snapRelease => true
  | .traceMark _ => true
  | .ringExtentWrite _ => true
  | .tailWrite _ _ => true
  | .smbusReadByte _ _ => true
  | .jtagAccess _ => true
  | .vfEnable _ num => num ≤ 63

end Sys2Proof
end

