-- ==== Sys2Proof/Certificates/Slice0/Obligations.lean ====
section
/-! DEFINITION. The statements for the provers. A statement that names a log entry rests on a choice of the model there. -/

open Sys2Proof Sys2Proof.Machine

/-! ## The queue, time and outcomes -/

/-- A step runs the command at the front of the queue, on the state with the queue's rest. (The model's own rule of the queue.) -/
def Obligations.StepRunsTheFrontCommand : Prop :=
  ∀ (c : Instr) (rest : List Instr) (s : State), step { s with pending := c :: rest } = exec c { s with pending := rest }

/-- On an empty queue a step is one period of TB_REF: the timebase counts 40 ns, unless its reference is lost, a live link fills what it has
not sent with IDLE flits, and beside the counters of waiting nothing else changes; on a device that is down, only the timebase does (R273,
R417, R418). That time passes so is the model's choice (log entry 2), and so is the count of flit times (log entry 64). -/
def Obligations.IdleStepCountsOnePeriod : Prop :=
  ∀ s : State, s.pending = [] →
    ∃ t, step s = .next t ∧ t.nv = s.nv ∧ t.pending = [] ∧ OnlyBlk [.tb, .fresh, .aon, .pcs, .fab, .work] s.blk t.blk ∧
      (s.blk.frozen = false → t.blk.tb = s.blk.tb + 40) ∧ (s.blk.frozen = true → t.blk.tb = s.blk.tb) ∧
      (s.blk.dead = true → OnlyBlk [.tb] s.blk t.blk) ∧
      t.blk.work = { s.blk.work with tds := t.blk.work.tds } ∧ t.blk.fab = { s.blk.fab with links := t.blk.fab.links } ∧
      (∀ n, (s.blk.link n).live = false → t.blk.link n = s.blk.link n) ∧
      (∀ n, n < 48 → s.blk.dead = false → (s.blk.link n).live = true → 34 ≤ (s.blk.link n).credit + 1799 →
        t.blk.link n = { s.blk.link n with
          credit := ((s.blk.link n).credit + 1799) % 34, unacked := 0, out := (s.blk.link n).out ++ [idleFlits (s.blk.link n)] })

/-- Every command is executed, in every state and for all operands: the queue is not changed, and neither are the OTP bits and the flash, but
by the commands of touchesNv (R368, R369). -/
def Obligations.EveryCommandIsExecuted : Prop :=
  ∀ (i : Instr) (s : State),
    ∃ t, exec i s = .next t ∧ t.pending = s.pending ∧ (touchesNv i = false → t.nv = s.nv)

/-- No step takes an OTP bit back: what the factory wrote stands, MIN_SVN does not fall, and an owner that is set stays (R368). -/
def Obligations.OtpBitsAreNeverTakenBack : Prop :=
  ∀ s t : State, step s = .next t → OtpKept s.nv.otp t.nv.otp

/-- The flash keeps its one form through every step: addresses rise, and no cell holds the value of an unlisted one. -/
def Obligations.FlashKeepsItsForm : Prop :=
  ∀ s t : State, Cells.wf s.nv.flash = true → step s = .next t → Cells.wf t.nv.flash = true

/-- The machine right after reset is in canonical form in all that is held as storage or as a table, and every pin is as R448 leaves
it: no fault, not ready, PAIR_STATE 3. -/
def Obligations.ResetStateIsInForm : Prop :=
  let b := State.reset.blk
  Cells.wf State.reset.nv.flash = true ∧ Cells.wf b.pool.cellsA = true ∧ Cells.wf b.pool.cellsB = true ∧ Cells.wf b.pool.cellsG = true ∧
  Cells.wf b.rings.ring0 = true ∧ Tab.wf regReset b.regs = true ∧ State.reset.pending = [] ∧
  b.pins.devFault = false ∧ b.pins.devReady = false ∧ b.pwr.warn = false ∧ b.pwr.trip = false ∧ b.pair.pins = 3

/-- The storage of pool, ring and flash bytes reads as it was written: inside the written bytes the new ones, and every other byte as
before; and its form is kept. -/
def Obligations.StorageReadsWhatWasWritten : Prop :=
  ∀ (m : Cells) (a : Nat) (bs : Bytes), Cells.wf m = true →
    Cells.wf (cwrite m a bs) = true ∧
    (∀ i (h : i < bs.length), cget (cwrite m a bs) (a + i) = bs[i]) ∧
    (∀ x, x < a ∨ a + bs.length ≤ x → cget (cwrite m a bs) x = cget m x)

/-- A line written reads back as it was written, with its poison, WEPOCH raised by one, and every other line of the pool reads as before,
where the line has a stored copy and its partition's key slot is bound (R85, R337, R338). -/
def Obligations.LineReadsWhatWasWritten : Prop :=
  ∀ (b : Blk) (l : Nat) (bs : Bytes) (p : Bool), (b.source l).isSome = true → bs.length = 128 →
    (b.writeLine l bs p).lineVal l = (if p then zeros 128 else bs, p) ∧
    ((b.writeLine l bs p).lineMeta l).wepoch = (b.lineMeta l).wepoch + 1 ∧
    (∀ k, k ≠ l → (b.writeLine l bs p).lineVal k = b.lineVal k)

/-! ## Resets and the input -/

/-- A cold reset begins at power-up, and by RESET_N while the rails are on. It restarts the timebase and the always-on counters, clears the
debug level, LAST and the Guard set, samples the SMBus straps and the flash's SFDP, and then runs the calibration read and the boot chain;
where it does not begin, nothing changes (R406, R407, R394, R449, R451).
A warm reset keeps the timebase, the always-on counters, the failed die-to-die links, the VCORE setpoint, the Guard set with LAST, the
debug level, the zeroised state, IDE REQUIRE, the straps and the pair's TERM, and is else as a cold reset; a device whose quadrant the
failed links cut off is lost again; where its time has not come, nothing changes (R33, R35, R406, R407, R449). The counter of the steps that
the hub waited on PCIe takes what waited so far (R231).
Each of these completes, that is, exec answers a next state wherever the hypotheses on the state and the operands hold: coldReset, warmReset. -/
def Obligations.ResetsStartAnew : Prop :=
  (∀ (cause : ColdCause) (s : State), s.blk.coldActs cause = true →
    ∃ (t : State) (b : Blk) (n : Nat), exec (.coldReset cause) s = .next t ∧ t.blk = ((b.readCal t.nv.flash).boot t.nv.flash).stopPorts ∧
      Afresh b s.nv.otp s.nv.sfdp n ∧ b.tb = 0 ∧ b.frozen = false ∧ b.aon = [] ∧ b.pcs = [] ∧ b.sec.guard = none ∧ b.sec.last = [] ∧ b.sec.debug = 0 ∧
      b.pair.term = 0 ∧ b.pwr.vcore = 750 ∧ b.fab.d2dFailed = [] ∧ b.reg Reg.secIdeCfg = regReset Reg.secIdeCfg ∧
      n = (match cause with | .powerUp => if s.blk.pwr.on then 1 else 5 | .resetN => 2) ∧ b.pins.straps = Config.straps s.blk.fresh % 4 ∧
      t.nv = { s.nv with flash := s.blk.flashCut s.nv.flash }) ∧
  (∀ (cause : ColdCause) (s : State), s.blk.coldActs cause = false → exec (.coldReset cause) s = .next s) ∧
  (∀ (cause : WarmCause) (s : State), s.blk.warmActs cause = true →
    ∃ (t : State) (b e : Blk), exec (.warmReset cause) s = .next t ∧ e = ((b.readCal t.nv.flash).boot t.nv.flash).stopPorts ∧
      t.blk = (if e.d2dLost then e.loseDevice else e) ∧
      Afresh b s.nv.otp s.nv.sfdp (if cause = .pin then 3 else 4) ∧ b.tb = s.blk.tb ∧ b.frozen = s.blk.frozen ∧
      (∀ i, i ≠ 231 → tget (fun _ => 0) b.aon i = tget (fun _ => 0) s.blk.aon i) ∧ (s.blk.hub.out = [] → b.aon = s.blk.aon) ∧ b.pcs = [] ∧
      b.fab.d2dFailed = s.blk.fab.d2dFailed ∧
      b.sec.guard = s.blk.sec.guard ∧ b.sec.last = s.blk.sec.last ∧ b.sec.debug = s.blk.sec.debug ∧
      b.sec.zeroised = s.blk.sec.zeroised ∧ b.pair.term = s.blk.pair.term ∧ b.pwr.vcore = s.blk.pwr.vcore ∧
      b.ideRequired = (s.blk.ideRequired || (regReset Reg.secIdeCfg).getLsbD 0) ∧ b.pins.straps = s.blk.pins.straps ∧
      t.nv = { s.nv with flash := s.blk.flashCut s.nv.flash }) ∧
  (∀ (cause : WarmCause) (s : State), s.blk.warmActs cause = false → exec (.warmReset cause) s = .next s)

/-- An input outside 58 V to 84 V turns the device off at once: it answers nothing, every pin is released, a flash write that runs is
lost, and nothing else changes; an input within leaves everything (R394, R448).
Each of these completes, that is, exec answers a next state wherever the hypotheses on the state and the operands hold: inputLockout. -/
def Obligations.LockoutTurnsEverythingOff : Prop :=
  (∀ (mv : Nat) (s : State), (mv < 58000 ∨ 84000 < mv) →
    Does (.inputLockout mv) s (fun t => t.blk.dead = true ∧ t.blk.pins = {} ∧ t.blk.pair.pins = 3 ∧ t.blk.pwr.on = false ∧
      t.blk.pwr.warn = false ∧ t.blk.pwr.trip = false ∧ t.blk.pwr.calWriting = none ∧
      t.blk.mgmt = { s.blk.mgmt with fwWriting := none } ∧ OnlyBlk [.dead, .pins, .pair, .pwr, .mgmt] s.blk t.blk ∧
      t.nv.otp = s.nv.otp ∧ t.pending = s.pending ∧
      t.nv.flash = (if s.blk.pwr.calWriting.isSome then calErase s.nv.flash else s.nv.flash))) ∧
  (∀ (mv : Nat) (s : State), 58000 ≤ mv → mv ≤ 84000 → exec (.inputLockout mv) s = .next s)

/-- A host-port reset completes from every state of a device that is up: it is an FLR of PF0, which is one of every function, and trains the
link again. An FLR of a VF that exists completes: the VF keeps its enable and loses Bus Master Enable and the records that wait in its
window; its moves, page requests and translations go, those of the other functions stay, and its commands in progress are answered no more.
An FLR of PF0 resets every function, disables the VFs and clears the aperture's bases and a staged delta. An FLR of a function that does not
exist changes nothing, and one that IDE does not let in is answered with UR (R325, R380, R407). That the FLR of one VF keeps its enable and
clears its Bus Master Enable is the model's choice (log entry 41).
Each of these completes, that is, exec answers a next state wherever the hypotheses on the state and the operands hold: hostPortReset, flr. -/
def Obligations.FunctionResetsReachTheirFunctions : Prop :=
  (∀ (cause : HostPortCause) (s : State), s.blk.dead = false →
    Does (.hostPortReset cause) s (fun t => t.nv = s.nv ∧ ∃ v, t.blk = { s.blk.flrPf0 with fresh := s.blk.flrPf0.fresh + 1 }.setReg Reg.hubPcieStatus v ∧
      t.blk.hub.numVfs = 0 ∧ t.blk.hub.apt = [] ∧ (∀ m ∈ t.blk.hub.moves, 64 ≤ m.f ∨ s.blk.funcOn m.f = false) ∧
      (∀ w, w < 16 → t.blk.reg (Reg.hubAptBase w) = 0))) ∧
  (∀ (f : Func) (s : State), s.blk.dead = false → s.blk.ideIn true f = true → f ≠ 0 → s.blk.funcOn f = true →
    Gives (.flr f) s (s.blk.flr f) ∧
    Does (.flr f) s (fun t => (t.blk.win f).enabled = true ∧ (t.blk.win f).busMaster = false ∧ (t.blk.win f).subs = [] ∧
      t.blk.hub.numVfs = s.blk.hub.numVfs ∧ t.blk.hub.moves = s.blk.hub.moves.filter (fun m => m.f != f.toNat) ∧
      t.blk.hub.prqs = s.blk.hub.prqs.filter (fun r => r.f != f.toNat) ∧ t.blk.hub.atc = s.blk.hub.atc.filter (fun e => e.f != f.toNat) ∧
      t.blk.hub.trans = s.blk.hub.trans.filter (fun o => o.f != f.toNat) ∧ (∀ r ∈ t.blk.hub.reads, r.f ≠ f.toNat ∨ r.engine = 12) ∧
      (∀ r ∈ t.blk.hub.inProg, r.f = f.toNat → r.lost = true))) ∧
  (∀ s : State, s.blk.dead = false → s.blk.ideIn true = true →
    Does (.flr 0) s (fun t => t.blk = s.blk.flrPf0 ∧ t.blk.hub.numVfs = 0 ∧ t.blk.hub.apt = [] ∧
      (∀ m ∈ t.blk.hub.moves, 64 ≤ m.f ∨ s.blk.funcOn m.f = false) ∧
      (s.blk.flrPf0.str.commit = none → t.blk.str.staged = none) ∧ (∀ w, w < 16 → t.blk.reg (Reg.hubAptBase w) = 0))) ∧
  (∀ (f : Func) (s : State), s.blk.ideIn true f = true → s.blk.funcOn f = false → exec (.flr f) s = .next s) ∧
  (∀ (f : Func) (s : State), s.blk.dead = false → s.blk.ideIn true f = false → Gives (.flr f) s (s.blk.ideDropUr f (.cfgUr f)))

/-! ## Training and zeroing at reset, and the management controller -/

/-- A Husk channel that trains with two or one accepted DIMMs, large and fast enough for a loaded structure, is in service; any other
becomes lost with its log record, and the flash image that waits for the last channel is then loaded, which is the model's choice (log entry
57). A channel that has trained retrains, and is lost with cause PHY where that fails (the model's reading of the row, log entry 85). A
Grain layer whose test passes is in service, and one that fails takes the device down. Each counts once (R62, R80, R348, R352, R408).
The zeroing of reset zeroes its line in the tier that is named, and moves its cursor on; a line of a granule that is not the granule's
last. In self-refresh nothing is zeroed (R82, R399).
Each of these completes, that is, exec answers a next state wherever the hypotheses on the state and the operands hold: huskTrainingDone,
grainLayerTestDone, initZeroingLine. -/
def Obligations.TrainingAndZeroingBringThePoolUp : Prop :=
  (∀ (c : HuskCh) (ds : List Dimm) (s : State), s.blk.dead = false → (s.blk.husk c).trained = false → (s.blk.husk c).lost = false →
    dimmsOk ds = true → (s.blk.str.loaded = true → s.blk.pool.capGib ≤ dimmsGib ds ∧ speedBins.getD s.blk.pool.speed 4800 ≤ dimmsMts ds) →
    ∃ b : Blk, OnlyBlk [.chans] s.blk b ∧ (∀ d, d ≠ c.val → b.husk d = s.blk.husk d) ∧
      b.husk c = { s.blk.husk c with dimms := ds, trained := true, up := true, refreshAt := refreshAfter c s.blk.tb, scrubAt := s.blk.tb } ∧
      Gives (.huskTrainingDone c ds true) s b.bootLoadNow ∧ (s.blk.str.boot = none → b.bootLoadNow = b)) ∧
  (∀ (c : HuskCh) (ds : List Dimm) (trained : Bool) (s : State), s.blk.dead = false → (s.blk.husk c).trained = false →
    (s.blk.husk c).lost = false → (trained = false ∨ dimmsOk ds = false ∨
      s.blk.str.loaded = true ∧ (dimmsGib ds < s.blk.pool.capGib ∨ dimmsMts ds < speedBins.getD s.blk.pool.speed 4800)) →
    ∃ b : Blk, b.husk c = { s.blk.husk c with
        dimms := ds, trained := true, lost := true, cause := 1, rebuilding := false, up := false, void := (b.husk c).void,
        refreshAt := refreshAfter c s.blk.tb, scrubAt := s.blk.tb } ∧
      OnlyBlk [.chans, .regs, .pool] s.blk b ∧ (s.blk.mode < 2 → b.pool = s.blk.pool) ∧ b.reg (Reg.hskErr c) = s.blk.reg (Reg.hskErr c) ||| 0x80#32 ∧
      Gives (.huskTrainingDone c ds trained) s (b.log 0x10 (36 + c) 0 c 1).bootLoadNow) ∧
  (∀ (c : HuskCh) (ds : List Dimm) (s : State), s.blk.dead = false → (s.blk.husk c).trained = true → (s.blk.husk c).lost = false →
    exec (.huskTrainingDone c ds true) s = .next s ∧
    ∃ b : Blk, b.husk c = { s.blk.husk c with lost := true, cause := 5, rebuilding := false, up := false, void := (b.husk c).void } ∧
      OnlyBlk [.chans, .regs, .pool] s.blk b ∧ (s.blk.mode < 2 → b.pool = s.blk.pool) ∧ b.reg (Reg.hskErr c) = s.blk.reg (Reg.hskErr c) ||| 0x80#32 ∧
      Gives (.huskTrainingDone c ds false) s (b.log 0x10 (36 + c) 0 c 5)) ∧
  (∀ (l : Fin 16) (s : State), s.blk.dead = false → l.val ∉ s.blk.chans.layersTested →
    Does (.grainLayerTestDone l true) s (fun t => Only [.chans] s t ∧ l.val ∈ t.blk.chans.layers ∧ l.val ∈ t.blk.chans.layersTested) ∧
    Does (.grainLayerTestDone l false) s (fun t => Only [.chans, .dead, .pins] s t ∧ l.val ∉ t.blk.chans.layers ∧ t.blk.dead = true ∧
      t.blk.pins.devFault = true)) ∧
  (∀ (q : Quad) (s : State) (g n : Nat), s.blk.dead = false → s.blk.pool.zeroOn = true → s.blk.asleep = false →
    s.blk.allTrained = true → mget s.blk.pool.zeroCur q = some (g, n) → n + 1 < 16384 →
    Does (.initZeroingLine q .husk) s (fun t => Only [.pool, .chans, .aon, .pcs] s t ∧ mget t.blk.pool.zeroCur q = some (g, n + 1) ∧
      (s.blk.aliveA (lineOfGran g + n) = true → t.blk.copyBytes .huskA (lineOfGran g + n) = zeros 128 ∧
        t.blk.copyMeta .huskA (lineOfGran g + n) = {}))) ∧
  (∀ (q : Quad) (s : State) (f n g : Nat), s.blk.dead = false → s.blk.pool.zeroOn = true → s.blk.asleep = false →
    s.blk.allTrained = true → mget s.blk.pool.zeroCur (4 + q) = some (f, n) → n + 1 < 16384 → s.blk.granInFrame q f = some g →
    Does (.initZeroingLine q .grain) s (fun t => Only [.pool, .aon, .pcs] s t ∧ mget t.blk.pool.zeroCur (4 + q) = some (f, n + 1) ∧
      t.blk.copyBytes .grain (lineOfGran g + n) = zeros 128 ∧ t.blk.copyMeta .grain (lineOfGran g + n) = {})) ∧
  (∀ (q : Quad) (t : Tier) (s : State), s.blk.asleep = true → exec (.initZeroingLine q t) s = .next s)

/-- A single-bit error is corrected and counted, and changes nothing else.
A watchdog period of 100 ms that ends without service or a double-bit error leaves the management controller in a reset or failed, with
DEV_FAULT_N asserted in the failed state; a second reset within 1 s of the end of the last fails it. Fabric, tasks and the structure that
runs go on (R41 to R45).
The end of a management reset lets commands be taken again and notes its time; a STRUCT_COMMIT that the reset interrupted is then
answered STR_OK, once no commit runs (R43, R44).
Each of these completes, that is, exec answers a next state wherever the hypotheses on the state and the operands hold: mgmtEccSingleBit,
mgmtResetEnd, commitReanswer, mgmtWatchdogExpiry, mgmtEccDoubleBit. -/
def Obligations.ManagementControllerErrsAndRestarts : Prop :=
  (∀ s : State, s.blk.dead = false →
    Does .mgmtEccSingleBit s (fun t => Only [.aon] s t ∧
      tget (fun _ => 0) t.blk.aon 215 = min (tget (fun _ => 0) s.blk.aon 215 + 1) (2 ^ 64 - 1) ∧
      (∀ i, i ≠ 215 → tget (fun _ => 0) t.blk.aon i = tget (fun _ => 0) s.blk.aon i))) ∧
  (∀ (i : Instr) (s : State), i = .mgmtWatchdogExpiry ∧ s.blk.wdDue = true ∨ i = .mgmtEccDoubleBit → s.blk.mgmtActs = true →
    Does i s (fun t => (t.blk.mgmt.resetting = true ∨ t.blk.mgmt.failed = true) ∧
      (t.blk.mgmt.failed = true → t.blk.pins.devFault = true) ∧ t.blk.work = s.blk.work ∧ t.blk.str.run = s.blk.str.run ∧
      (s.blk.pool.inj = [] → t.blk.dead = false) ∧
      t.blk.str.commit = s.blk.str.commit ∧ t.nv.otp = s.nv.otp)) ∧
  (∀ (i : Instr) (s : State) (e : Nat), i = .mgmtWatchdogExpiry ∧ s.blk.wdDue = true ∨ i = .mgmtEccDoubleBit → s.blk.mgmtActs = true →
    s.blk.mgmt.ended = some e → s.blk.tb ≤ e + 1000000000 → Does i s (fun t => t.blk.mgmt.failed = true)) ∧
  (∀ (i : Instr) (s : State), i = .mgmtWatchdogExpiry ∨ i = .mgmtEccDoubleBit → s.blk.mgmtActs = false → exec i s = .next s) ∧
  (∀ s : State, s.blk.wdDue = false → exec .mgmtWatchdogExpiry s = .next s) ∧
  (∀ s : State, s.blk.dead = false → s.blk.mgmt.resetting = true →
    Does .mgmtResetEnd s (fun t => Only [.mgmt, .hub] s t ∧ t.blk.mgmt = { s.blk.mgmt with resetting := false, ended := some s.blk.tb } ∧
      (∀ f, t.blk.win f = { s.blk.win f with mgmtWait := false }))) ∧
  (∀ (s : State) (c : CmdId) (r : CmdRec), s.blk.dead = false → s.blk.mgmt.resetting = false → s.blk.mgmt.failed = false →
    s.blk.mgmt.reanswer = some c → s.blk.str.commit = none → s.blk.cmd c = some r → r.lost = false →
    Does .commitReanswer s (fun t => t.blk.mgmt.reanswer = none ∧ t.blk.str.last = 0 ∧ Ends s t c r 0 []))

/-! ## Structure images, commits and register writes -/

/-- STRUCT_LOAD loads a full image that passes the checks of R62: the structure runs, STR_EPOCH is the image's EPOCH, the Guard set and
the structure are locked and DEV_READY is asserted; an image that fails leaves the controller unconfigured with the code of R74, and a
controller that holds a structure answers STR_LOADED (0x0B) and changes nothing but the last status. A read of the image that fails, and a
controller without an owner, set STR_ERR.LOAD_FAIL (R62, R63, R74, R75). The command waits for the Husk channels (the model's choice, log
entry 57), for PF0's Bus Master Enable (R308) and for the completions of its read (R307, R319; log entry 68).
Each of these completes, that is, exec answers a next state wherever the hypotheses on the state and the operands hold: structLoad. -/
def Obligations.StructureLoadsOnce : Prop :=
  (∀ (s : State) (c : CmdId) (r : CmdRec) (img : HostResult), MgmtRuns s.blk c 0x10 r → s.blk.str.loaded = true →
    Does (.structLoad c img) s (fun t => EndsOnly [.str] s t c r 0x0B [] ∧ t.blk.str = { s.blk.str with last := 0x0B })) ∧
  (∀ (s : State) (c : CmdId) (r : CmdRec), MgmtRuns s.blk c 0x10 r → LoadMay s.blk → ReadRoom s.blk r →
    Does (.structLoad c .fault) s (fun t => EndsOnly [] s t c r 0x80 [] ∧ (t.blk.reg Reg.strErr).getLsbD 2 = true) ∧
    Does (.structLoad c .hostErr) s (fun t => EndsOnly [] s t c r 0x81 [] ∧ (t.blk.reg Reg.strErr).getLsbD 2 = true)) ∧
  (∀ (s : State) (c : CmdId) (r : CmdRec) (bs : Bytes), MgmtRuns s.blk c 0x10 r → LoadMay s.blk → ReadRoom s.blk r →
    s.blk.sec.ownerless = true →
    Does (.structLoad c (.data bs false)) s (fun t => EndsOnly [.str] s t c r 0x03 [] ∧ (t.blk.reg Reg.strErr).getLsbD 2 = true)) ∧
  (∀ (s : State) (c : CmdId) (r : CmdRec) (bs : Bytes), MgmtRuns s.blk c 0x10 r → LoadMay s.blk → ReadRoom s.blk r →
    s.blk.sec.ownerless = false →
    Does (.structLoad c (.data bs false)) s (fun t =>
      match s.blk.loadCheck (fit (r.arg 0x14 4) bs) (r.arg 0x14 4) with
      | .ok i => Answered t r 0 [] ∧ t.blk.str.loaded = true ∧ t.blk.str.locked = true ∧ t.blk.str.epoch = i.epoch ∧
          t.blk.str.run = fullStruct i ∧ t.blk.str.staged = none ∧ t.blk.str.commit = none ∧ t.blk.pins.devReady = true ∧
          t.blk.sec.guard.isSome = true
      | .error (code, _) => Answered t r code [] ∧ t.blk.str = { s.blk.str with last := code } ∧ t.blk.sec = s.blk.sec ∧
          t.blk.pins = s.blk.pins)) ∧
  (∀ (s : State) (c : CmdId) (r : CmdRec) (bs : Bytes), MgmtRuns s.blk c 0x10 r → LoadMay s.blk → ReadRoom s.blk r →
    s.blk.sec.ownerless = false →
    Does (.structLoad c (.data bs true)) s (fun t => EndsOnly ([.str] ++ quietRegions) s t c r 0x04 [] ∧ t.blk.str.loaded = false)) ∧
  (∀ (s : State) (c : CmdId) (r : CmdRec), MgmtRuns s.blk c 0x10 r → LoadMay s.blk →
    Does (.structLoad c .pending) s (fun t => Only [.hub] s t ∧ t.blk.hub.inProg = s.blk.hub.inProg ∧ t.blk.hub.wins = s.blk.hub.wins ∧
      t.blk.nonPosted ≤ max 512 s.blk.nonPosted ∧ ∃ o ∈ t.blk.hub.reads, o.x = .mgmt r.f r.seq)) ∧
  (∀ (s : State) (c : CmdId) (r : CmdRec) (img : HostResult), MgmtRuns s.blk c 0x10 r → s.blk.str.loaded = false → ¬ LoadMay s.blk →
    exec (.structLoad c img) s = .next s)

/-- STRUCT_STAGE holds a delta that passes its checks and answers STR_OK; one that fails is answered its code and is not held. While a delta
is staged or a commit runs the answer is 0x0A; without a structure it is 0x0C (R65, R66, R74).
STRUCT_DISCARD drops the staged delta, and is refused while a commit runs; STRUCT_READBACK of an unconfigured controller is refused,
and one whose buffer is too small is told the length that it needs; to host memory the image goes in writes of at most Max_Payload_Size
(R66, R307, R319).
Each of these completes, that is, exec answers a next state wherever the hypotheses on the state and the operands hold: structStage, structDiscard,
structReadback. -/
def Obligations.StagingDiscardAndReadbackAnswer : Prop :=
  (∀ (s : State) (c : CmdId) (r : CmdRec) (bs : Bytes), MgmtRuns s.blk c 0x11 r → s.blk.str.loaded = true → s.blk.str.staged = none →
    s.blk.str.commit = none → r.arg 0x18 1 = 1 → s.blk.mayRead = true → ReadRoom s.blk r →
    let x := s.blk.stageDelta (fit (readSpan (r.arg 0x14 4)) bs) (r.arg 0x14 4)
    Does (.structStage c (.data bs false)) s (fun t => EndsOnly [.str] s t c r x.1 [] ∧ t.blk.str.run = s.blk.str.run ∧
      t.blk.str.epoch = s.blk.str.epoch ∧ t.blk.str.last = x.1 ∧ t.blk.str.staged = x.2.str.staged ∧
      (x.1 = 0 ↔ t.blk.str.staged.isSome = true))) ∧
  (∀ (s : State) (c : CmdId) (r : CmdRec) (img : HostResult), MgmtRuns s.blk c 0x11 r → s.blk.str.loaded = false →
    Does (.structStage c img) s (fun t => EndsOnly [.str] s t c r 0x0C [] ∧ t.blk.str.staged = s.blk.str.staged)) ∧
  (∀ (s : State) (c : CmdId) (r : CmdRec) (img : HostResult), MgmtRuns s.blk c 0x11 r → s.blk.str.loaded = true →
    (s.blk.str.staged.isSome = true ∨ s.blk.str.commit.isSome = true) →
    Does (.structStage c img) s (fun t => EndsOnly [.str] s t c r 0x0A [] ∧ t.blk.str = { s.blk.str with last := 0x0A })) ∧
  (∀ (s : State) (c : CmdId) (r : CmdRec), MgmtRuns s.blk c 0x13 r →
    (s.blk.str.commit = none → Does (.structDiscard c) s (fun t => EndsOnly [.str] s t c r 0 [] ∧
      t.blk.str = { s.blk.str with staged := none })) ∧
    (s.blk.str.commit.isSome = true → Does (.structDiscard c) s (fun t => EndsOnly [] s t c r 0x0A []))) ∧
  (∀ (s : State) (c : CmdId) (r : CmdRec), MgmtRuns s.blk c 0x14 r → r.started = false → s.blk.str.loaded = false →
    Does (.structReadback c) s (fun t => EndsOnly [] s t c r 0x0C [])) ∧
  (∀ (s : State) (c : CmdId) (r : CmdRec), MgmtRuns s.blk c 0x14 r → r.started = false → s.blk.str.loaded = true → r.arg 0x18 1 ≤ 1 →
    r.arg 0x14 4 < (s.blk.readback 0 0 0).length →
    Does (.structReadback c) s (fun t => EndsOnly [] s t c r 0x78 (toLe 4 (s.blk.readback 0 0 0).length))) ∧
  (∀ (s : State) (c : CmdId) (r : CmdRec), MgmtRuns s.blk c 0x14 r → r.started = false → s.blk.str.loaded = true → r.arg 0x18 1 = 1 →
    (s.blk.readback 0 0 0).length ≤ r.arg 0x14 4 → (s.blk.win r.f).master = true → s.blk.ideOk r.f = true →
    Does (.structReadback c) s (fun t => Ends s t c r 0 (toLe 4 (s.blk.readback 0 0 0).length) ∧ Only [.hub, .regs, .fresh] s t ∧
      ∃ k g i rest, t.blk.hub.out = s.blk.hub.out ++ s.blk.putWrites r.f (r.arg 0x10 4) (r.arg 0x08 8) (s.blk.readback k g i) ++ rest))

/-- STRUCT_COMMIT issues the commit point of a staged delta whose EPOCH the command names and whose keys have not changed: phase A runs, and
the structure in force stays. A command that names another epoch is answered 0x06, and so is one that finds nothing staged, which is the
model's reading (log entry 15); a changed key drops the delta and is answered 0x09 (R66, R67, R74).
Each of these completes, that is, exec answers a next state wherever the hypotheses on the state and the operands hold: structCommit. -/
def Obligations.CommitPointStartsPhaseA : Prop :=
  (∀ (s : State) (c : CmdId) (r : CmdRec) (g : Staged), MgmtRuns s.blk c 0x12 r → s.blk.str.loaded = true → s.blk.str.commit = none →
    s.blk.str.staged = some g → g.img.epoch.toNat = r.arg 0x08 8 → s.blk.stale g = false →
    Does (.structCommit c) s (fun t => t.blk.str = { s.blk.str with commit := some (commitOf s.blk g c) } ∧
      t.blk.hub.wins = s.blk.hub.wins ∧ t.blk.hub.inProg = markStarted c s.blk.hub.inProg)) ∧
  (∀ (s : State) (c : CmdId) (r : CmdRec), MgmtRuns s.blk c 0x12 r → s.blk.str.loaded = true → s.blk.str.commit = none →
    s.blk.str.staged = none → Does (.structCommit c) s (fun t => EndsOnly [.str] s t c r 0x06 [])) ∧
  (∀ (s : State) (c : CmdId) (r : CmdRec) (g : Staged), MgmtRuns s.blk c 0x12 r → s.blk.str.loaded = true → s.blk.str.commit = none →
    s.blk.str.staged = some g → g.img.epoch.toNat ≠ r.arg 0x08 8 →
    Does (.structCommit c) s (fun t => EndsOnly [.str] s t c r 0x06 [] ∧ t.blk.str.staged = some g)) ∧
  (∀ (s : State) (c : CmdId) (r : CmdRec) (g : Staged), MgmtRuns s.blk c 0x12 r → s.blk.str.loaded = true → s.blk.str.commit = none →
    s.blk.str.staged = some g → g.img.epoch.toNat = r.arg 0x08 8 → s.blk.stale g = true →
    Does (.structCommit c) s (fun t => EndsOnly [.str] s t c r 0x09 [] ∧ t.blk.str.staged = none))

/-- A block takes a running phase once, and only one that the phase concerns: a router, a Thresher, a memory tier, and the hub with PAIR and
TRACE in phase A; a Tiller that phase A releases starts clearing and its T-step account starts anew; a gate takes its list; the
buckets take their entries; a home agent's taking is its own operation (R67, R68).
When every block has ended phase A, what it removes is gone and phase B runs with no block having taken it; when every block has ended
phase B, the new structure is in force, STR_EPOCH is its EPOCH, the delta is no longer staged and the command is answered STR_OK; while
a block has not ended its phase nothing changes (R67, R379).
Each of these completes, that is, exec answers a next state wherever the hypotheses on the state and the operands hold: phaseTake, phaseAEnd,
phaseBEnd. -/
def Obligations.PhasesAreTakenAndEndInOrder : Prop :=
  (∀ (s : State) (k : Block) (m : Commit), s.blk.dead = false → s.blk.str.commit = some m → k ∉ m.taken →
    k ∈ s.blk.phaseBlocks m → (match k with | .router _ | .thresher _ | .husk _ | .grain _ => True | _ => False) →
    Gives (.phaseTake k) s (takenBy s.blk m k)) ∧
  (∀ (s : State) (m : Commit), s.blk.dead = false → s.blk.str.commit = some m → Block.hub ∉ m.taken → Block.hub ∈ s.blk.phaseBlocks m →
    m.phase = 1 → Does (.phaseTake .hub) s (fun t => Only ([.str, .pair] ++ quietRegions) s t ∧ t.blk.str.run.pair = m.afterA.pair ∧
      t.blk.str.run.trace = m.afterA.trace ∧ (t.blk.str.commit.map (·.taken)) = some (m.taken ++ [Block.hub]))) ∧
  (∀ (s : State) (k : TillerIx) (m : Commit), s.blk.dead = false → s.blk.str.commit = some m → Block.tiller k ∉ m.taken →
    Block.tiller k ∈ s.blk.phaseBlocks m → (s.blk.til k).run = none → m.phase = 1 →
    Does (.phaseTake (.tiller k)) s (fun t => (t.blk.til k).clearing = true ∧ (∀ e ∈ t.blk.work.tds, e.1 / 6 ≠ k.val) ∧
      (t.blk.str.commit.map (·.clearing)) = some (with1 m.clearing k.val))) ∧
  (∀ (s : State) (k : TillerIx) (m : Commit), s.blk.str.commit = some m → (s.blk.til k).run.isSome = true →
    exec (.phaseTake (.tiller k)) s = .next s) ∧
  (∀ (s : State) (g : Nat) (m : Commit), s.blk.dead = false → s.blk.str.commit = some m → Block.gate g ∉ m.taken →
    Block.gate g ∈ s.blk.phaseBlocks m → Gives (.phaseTake (.gate g)) s
      ((takenBy s.blk m (.gate g)).takeGate g (mget (m.ends s.blk.str.run).2.gates g))) ∧
  (∀ (s : State) (m : Commit), s.blk.dead = false → s.blk.str.commit = some m → Block.buckets ∉ m.taken →
    Block.buckets ∈ s.blk.phaseBlocks m → Gives (.phaseTake .buckets) s ((takenBy s.blk m .buckets).bucketsTake m)) ∧
  (∀ (s : State) (q : Quad) (m : Commit), s.blk.dead = false → s.blk.str.commit = some m → Block.home q ∉ m.taken →
    Block.home q ∈ s.blk.phaseBlocks m → Gives (.phaseTake (.home q)) s
      (if m.phase = 1 then (takenBy s.blk m (.home q)).homeTakeA m q
      else (takenBy s.blk m (.home q)).homeTakeB m q)) ∧
  (∀ (s : State) (k : Block) (m : Commit), s.blk.str.commit = some m → (k ∈ m.taken ∨ k ∉ s.blk.phaseBlocks m) →
    exec (.phaseTake k) s = .next s) ∧
  (∀ (s : State) (m : Commit), s.blk.dead = false → s.blk.str.commit = some m → m.phase = 1 → s.blk.phaseDone m = true →
    Does .phaseAEnd s (fun t => t.blk.str.run = { m.afterA with exts := putAll m.afterA.exts (newKeys m.afterA.exts m.img.exts) } ∧
      t.blk.str.commit = some { m with phase := 2, taken := [], clearing := [], cleared := [] } ∧ t.blk.str.epoch = s.blk.str.epoch ∧
      t.blk.hub = s.blk.hub ∧ t.blk.sec = s.blk.sec)) ∧
  (∀ (s : State) (m : Commit) (r : CmdRec), s.blk.dead = false → s.blk.str.commit = some m → m.phase = 2 → s.blk.phaseDone m = true →
    s.blk.mgmt.resetting = false → s.blk.mgmt.failed = false → s.blk.mgmt.reanswer = none → s.blk.cmd m.cmd = some r → r.lost = false →
    Does .phaseBEnd s (fun t => t.blk.str.run = m.afterB ∧ t.blk.str.epoch = m.img.epoch ∧ t.blk.str.staged = none ∧
      t.blk.str.commit = none ∧ t.blk.str.last = 0 ∧ Ends s t m.cmd r 0 [] ∧
      mget t.blk.sec.meas 7 = some (sha256 ((mget s.blk.sec.meas 7).getD [] ++ m.digest)))) ∧
  (∀ (s : State) (m : Commit), s.blk.str.commit = some m → s.blk.phaseDone m = false →
    exec .phaseAEnd s = .next s ∧ exec .phaseBEnd s = .next s)

/-- A Tiller that has not reached its quiesce point within STR_COMMIT_LIMIT loses its task with EPOCH_PREEMPTED (0x47), and
STR_ERR.COMMIT_PREEMPT is set; before that nothing changes (R70). A cleared Tiller is unallocated, and its clearing is counted (R165).
Each of these completes, that is, exec answers a next state wherever the hypotheses on the state and the operands hold: commitPreempt,
tillerClearDone. -/
def Obligations.CommitTakesTheTillers : Prop :=
  (∀ (s : State) (k : TillerIx) (m : Commit) (r : Run), s.blk.dead = false → s.blk.str.commit = some m → m.phase = 1 →
    k.val ∈ s.blk.phaseTillers m → (s.blk.til k).run = some r → r.ended = none →
    m.point + s.blk.field Reg.strCommitLimit 0 14 * 1000000 ≤ s.blk.tb →
    Does (.commitPreempt k) s (fun t => (t.blk.reg Reg.strErr).getLsbD 4 = true ∧
      ((t.blk.til k).run.bind (·.ended)).map (·.1) = some 0x47 ∧ t.blk.str = s.blk.str)) ∧
  (∀ (s : State) (k : TillerIx) (m : Commit), s.blk.str.commit = some m →
    s.blk.tb < m.point + s.blk.field Reg.strCommitLimit 0 14 * 1000000 → exec (.commitPreempt k) s = .next s) ∧
  (∀ (s : State) (k : TillerIx), s.blk.dead = false → (s.blk.til k).clearing = true →
    Does (.tillerClearDone k) s (fun t => Only [.work, .regs, .str] s t ∧ t.blk.til k = { s.blk.til k with clearing := false } ∧
      (t.blk.reg (Reg.tilZeroCnt k)).toNat = min ((s.blk.reg (Reg.tilZeroCnt k)).toNat + 1) 0xFFFFFFFF ∧
      (t.blk.str.commit.map (·.cleared)) = s.blk.str.commit.map (fun m => with1 m.cleared k.val)))

/-- The access codes of R22 bit by bit: a write of an RW field without a clamp stores the written bits, and a clamped one the value of its
range; a W1C field loses exactly the bits written 1; RO, WO, RWL and EP fields keep what they hold; and no bit outside the field
changes.
A register write of the host acts by the access codes of the register's fields and changes no other register; a write that reaches an EP
field is ignored there, counted and logged with its offset, and one that reaches an RWL field after the lock is ignored and logged
(R22, R72, R421). One that IDE does not let in is dropped and counted (R380).
A write of STR_TIER changes the tier defaults of the selected partition, where it has a bound and the rule of shares and pinned granules
still holds; else it is ignored and flagged (R73, R75).
Each of these completes, that is, exec answers a next state wherever the hypotheses on the state and the operands hold: registerWrite, strTierWrite. -/
def Obligations.RegistersActByTheirCodes : Prop :=
  (∀ (f : RField) (v old : Word) (i : Nat), f.lo + f.width ≤ 32 → i < 32 →
    let inside := f.lo ≤ i ∧ i < f.lo + f.width
    let n := f.clamped ((v >>> f.lo).toNat % 2 ^ f.width)
    (¬ inside → (f.write v old).getLsbD i = old.getLsbD i) ∧
    (inside → f.acc = .rw → (f.write v old).getLsbD i = n.testBit (i - f.lo)) ∧
    (inside → f.acc = .rw → f.clamp = none → (f.write v old).getLsbD i = v.getLsbD i) ∧
    (inside → f.acc = .w1c → (f.write v old).getLsbD i = (old.getLsbD i && !v.getLsbD i)) ∧
    (f.acc = .ro ∨ f.acc = .wo ∨ f.acc = .rwl ∨ f.acc = .ep → f.write v old = old)) ∧
  (∀ (s : State) (off : BitVec 28) (v : Word), HostWrites s.blk → ownRow off.toNat = false → hasAcc off.toNat .ep = false →
    hasAcc off.toNat .rwl = false → (regFields off.toNat).isEmpty = false →
    Does (.registerWrite off v) s (fun t => Only [.regs] s t ∧
      t.blk.reg off.toNat = (regFields off.toNat).foldl (fun r f => f.write v r) (s.blk.reg off.toNat) ∧
      (∀ o, o ≠ off.toNat → t.blk.reg o = s.blk.reg o))) ∧
  (∀ (s : State) (off : BitVec 28) (v : Word), HostWrites s.blk → ownRow off.toNat = false → hasAcc off.toNat .ep = true →
    hasAcc off.toNat .rwl = false → off.toNat ≠ Reg.strErr → off.toNat ≠ Reg.strLiveWriteCnt → off.toNat ≠ Reg.strLiveWriteAddr →
    Does (.registerWrite off v) s (fun t => Only quietRegions s t ∧ t.blk.reg off.toNat = s.blk.reg off.toNat ∧
      t.blk.reg Reg.strLiveWriteAddr = BitVec.ofNat 32 off.toNat ∧ (t.blk.reg Reg.strErr).getLsbD 0 = true ∧
      (t.blk.reg Reg.strLiveWriteCnt).toNat = min ((s.blk.reg Reg.strLiveWriteCnt).toNat + 1) 0xFFFFFFFF ∧
      tget (fun _ => 0) t.blk.aon 216 = min (tget (fun _ => 0) s.blk.aon 216 + 1) (2 ^ 64 - 1) ∧
      Logged s.blk t.blk ⟨s.blk.tb, 0x01, 0xFF, 0, 0, off.toNat, 0⟩)) ∧
  (∀ (s : State) (off : BitVec 28) (v : Word), HostWrites s.blk → ownRow off.toNat = false → hasAcc off.toNat .rwl = true →
    s.blk.str.locked = true →
    Does (.registerWrite off v) s (fun t => Only quietRegions s t ∧ t.blk.reg off.toNat = s.blk.reg off.toNat ∧
      (t.blk.reg Reg.strErr).getLsbD 1 = true ∧
      tget (fun _ => 0) t.blk.aon 217 = min (tget (fun _ => 0) s.blk.aon 217 + 1) (2 ^ 64 - 1) ∧
      Logged s.blk t.blk ⟨s.blk.tb, 0x02, 0xFF, 0, 0, off.toNat, 0⟩)) ∧
  (∀ (s : State) (off : BitVec 28) (v : Word), HostWrites s.blk → ownRow off.toNat = false → hasAcc off.toNat .rwl = true →
    s.blk.str.locked = false →
    Does (.registerWrite off v) s (fun t => Only [.regs] s t ∧ ∀ o, t.blk.reg o = s.blk.reg o)) ∧
  (∀ (s : State) (off : BitVec 28) (v : Word), s.blk.dead = false → s.blk.ideIn true = false →
    Does (.registerWrite off v) s (fun t => Only [.regs] s t ∧ (t.blk.reg Reg.secErr).getLsbD 5 = true ∧
      (t.blk.reg Reg.secIdeDropCnt).toNat = min ((s.blk.reg Reg.secIdeDropCnt).toNat + 1) 0xFFFFFFFF ∧
      (∀ o, o ≠ Reg.secErr → o ≠ Reg.secIdeDropCnt → t.blk.reg o = s.blk.reg o))) ∧
  (∀ (s : State) (v : Word), HostWrites s.blk →
    let p := s.blk.field Reg.strTierSel 0 6
    let old := s.blk.str.run.tier p
    let hint := v.toNat % 4
    let cap := v.toNat / 8 % 64
    let new : TierEnt := ⟨if hint = 3 then old.hint else hint, v.toNat / 4 % 2, if cap = 0 then 10 else min 50 cap⟩
    let run : Struct := { s.blk.str.run with tiers := mput s.blk.str.run.tiers p new }
    let ok := (run.bound p).valid && (List.range 4).all (fun q => run.pinnedOn p q ≤ run.share p q)
    (ok = true → Does (.strTierWrite v) s (fun t => Only [.str, .pool] s t ∧ t.blk.str.run = run)) ∧
    (ok = false → Does (.strTierWrite v) s (fun t => Only [.regs] s t ∧ (t.blk.reg Reg.strErr).getLsbD 5 = true)))

/-! ## Pool memory: moves, revocation, zeroing, leases and publication -/

/-- A granule move into a frame copies its next line from the Husk tier and advances its cursor by one; a move out copies its next dirty line to
the Husk tier; a cleaning pass writes its next dirty line to the Husk tier and leaves it clean. A move whose allowance is used up waits, and in
self-refresh nothing moves (R85, R87, R88, R399).
A new 10 µs window of the timebase renews every allowance, once (R87).
Each of these completes, that is, exec answers a next state wherever the hypotheses on the state and the operands hold: migrationLine,
cleaningPassLine, allowanceWindow. -/
def Obligations.MovesAdvanceWithinRenewedAllowances : Prop :=
  (∀ (s : State) (q : Quad) (m : Mig) (b0 : Blk), s.blk.dead = false → s.blk.str.loaded = true → s.blk.asleep = false →
    mget s.blk.pool.migs q = some m → m.kind = .into → m.cursor + 1 < 16384 →
    s.blk.takeMigSlots (lineOfGran m.granule + m.cursor) true = some b0 →
    Does (.migrationLine q) s (fun t => mget t.blk.pool.migs q = some { m with cursor := m.cursor + 1 } ∧
      (t.blk.copyMeta .grain (lineOfGran m.granule + m.cursor)).dirty = false ∧ t.blk.pool.frames = s.blk.pool.frames ∧
      (s.blk.pool.inj = [] → s.blk.aliveA (lineOfGran m.granule + m.cursor) = true →
        (s.blk.copyMeta .huskA (lineOfGran m.granule + m.cursor)).poison = false →
        t.blk.copyBytes .grain (lineOfGran m.granule + m.cursor) = s.blk.copyBytes .huskA (lineOfGran m.granule + m.cursor)))) ∧
  (∀ (s : State) (q : Quad) (m : Mig) (n : Nat) (b0 : Blk), s.blk.dead = false → s.blk.str.loaded = true → s.blk.asleep = false →
    mget s.blk.pool.migs q = some m → m.kind = .out → s.blk.moveNext m = some n →
    s.blk.takeMigSlots (lineOfGran m.granule + n) false = some b0 →
    Does (.migrationLine q) s (fun t => s.blk.pool.inj = [] → s.blk.aliveA (lineOfGran m.granule + n) = true →
      t.blk.copyBytes .huskA (lineOfGran m.granule + n) = s.blk.copyBytes .grain (lineOfGran m.granule + n))) ∧
  (∀ (s : State) (q : Quad) (m : Mig) (n : Nat) (b0 : Blk), s.blk.dead = false → s.blk.str.loaded = true → s.blk.asleep = false →
    mget s.blk.pool.migs q = some m → m.kind = .clean → s.blk.moveNext m = some n →
    s.blk.takeMigSlots (lineOfGran m.granule + n) false = some b0 →
    Does (.cleaningPassLine q) s (fun t => (t.blk.copyMeta .grain (lineOfGran m.granule + n)).dirty = false ∧
      t.blk.pool.frames = s.blk.pool.frames ∧
      (s.blk.pool.inj = [] → s.blk.aliveA (lineOfGran m.granule + n) = true →
        t.blk.copyBytes .huskA (lineOfGran m.granule + n) = s.blk.copyBytes .grain (lineOfGran m.granule + n)))) ∧
  (∀ (s : State) (q : Quad) (m : Mig) (n : Nat), mget s.blk.pool.migs q = some m → s.blk.moveNext m = some n →
    s.blk.takeMigSlots (lineOfGran m.granule + n) (m.kind == .into) = none →
    exec (.migrationLine q) s = .next s ∧ exec (.cleaningPassLine q) s = .next s) ∧
  (∀ (s : State) (q : Quad), s.blk.asleep = true →
    exec (.migrationLine q) s = .next s ∧ exec (.cleaningPassLine q) s = .next s) ∧
  (∀ s : State, s.blk.dead = false → s.blk.pool.window < s.blk.tb / 10000 →
    Does .allowanceWindow s (fun t => Only [.pool] s t ∧ t.blk.pool = { s.blk.pool with used := [], window := s.blk.tb / 10000 })) ∧
  (∀ s : State, s.blk.tb / 10000 ≤ s.blk.pool.window → exec .allowanceWindow s = .next s)

/-- EXTENT_REVOKE sends an extent that is not being revoked into DRAINING, and its revocation to the four home agents; it is answered once they
have taken it. An extent that does not exist is answered 0x12, and one already being revoked 0x16 (R96, R319).
A line of an extent in ZEROING becomes zero in both tiers, under key slot 64 with POISON and WEPOCH clear, within its allowance, and the
cursor moves on (R98). A line that is not the last of its granule.
Each of these completes, that is, exec answers a next state wherever the hypotheses on the state and the operands hold: extentRevoke, extentZeroLine. -/
def Obligations.RevocationDrainsAndZeroes : Prop :=
  (∀ (s : State) (c : CmdId) (r : CmdRec) (e : ExtEnt), MgmtRuns s.blk c 0x15 r → r.arg 0x08 4 ≤ 262143 →
    s.blk.extEnt (r.arg 0x08 4) = some e → s.blk.dying (r.arg 0x08 4) = false → (∀ x ∈ s.blk.ext.revCmds, x.1 ≠ c) →
    Does (.extentRevoke c) s (fun t => (t.blk.extRt (r.arg 0x08 4)).state = .draining ∧
      (t.blk.extRt (r.arg 0x08 4)).prior = (s.blk.extRt (r.arg 0x08 4)).state ∧
      (∀ q, q < 4 → (q, RevokeKey.extent (r.arg 0x08 4)) ∈ t.blk.ext.revPend) ∧ (c, r.arg 0x08 4) ∈ t.blk.ext.revCmds ∧
      t.blk.hub.wins = s.blk.hub.wins ∧ t.blk.str = s.blk.str)) ∧
  (∀ (s : State) (c : CmdId) (r : CmdRec), MgmtRuns s.blk c 0x15 r → r.arg 0x08 4 ≤ 262143 → s.blk.extEnt (r.arg 0x08 4) = none →
    Does (.extentRevoke c) s (fun t => EndsOnly [] s t c r 0x12 [])) ∧
  (∀ (s : State) (c : CmdId) (r : CmdRec) (e : ExtEnt), MgmtRuns s.blk c 0x15 r → r.arg 0x08 4 ≤ 262143 →
    s.blk.extEnt (r.arg 0x08 4) = some e → s.blk.dying (r.arg 0x08 4) = true →
    Does (.extentRevoke c) s (fun t => EndsOnly [] s t c r 0x16 [])) ∧
  (∀ (s : State) (q : Quad) (i g n : Nat) (e : ExtEnt) (b0 : Blk), s.blk.dead = false → (s.blk.extRt i).state = .zeroing →
    s.blk.asleep = false → s.blk.extEnt i = some e → (s.blk.extRt i).zeroAt e q = some (g, n) → n + 1 < 16384 →
    s.blk.takeZeroSlots q (lineOfGran g + n) e = some b0 →
    Does (.extentZeroLine q i) s (fun t => Only [.pool, .ext, .chans, .aon, .pcs] s t ∧ mget (t.blk.extRt i).zeroCur q = some (g, n + 1) ∧
      (s.blk.aliveA (lineOfGran g + n) = true → t.blk.copyBytes .huskA (lineOfGran g + n) = zeros 128 ∧
        t.blk.copyMeta .huskA (lineOfGran g + n) = {}) ∧
      (mhas s.blk.pool.frames g = true → t.blk.copyBytes .grain (lineOfGran g + n) = zeros 128 ∧
        t.blk.copyMeta .grain (lineOfGran g + n) = {}))) ∧
  (∀ (s : State) (q : Quad) (i : Nat), (s.blk.extRt i).state ≠ .zeroing → exec (.extentZeroLine q i) s = .next s)

/-- A home agent takes a revocation or an expiry that waits for it, and then it waits no longer; one that does not wait changes nothing. Only
when every home agent has ended its steps does an extent go from DRAINING to ZEROING (R94, R96, R97).
Each of these completes, that is, exec answers a next state wherever the hypotheses on the state and the operands hold: revocationTake, expireTake,
drainEnd. -/
def Obligations.HomeAgentsTakeWhatWaits : Prop :=
  (∀ (s : State) (q : Quad) (k : RevokeKey), s.blk.dead = false → (q.val, k) ∈ s.blk.ext.revPend →
    Does (.revocationTake q k) s (fun t => (q.val, k) ∉ t.blk.ext.revPend)) ∧
  (∀ (s : State) (q : Quad) (k : RevokeKey), (q.val, k) ∉ s.blk.ext.revPend → exec (.revocationTake q k) s = .next s) ∧
  (∀ (s : State) (q : Quad) (e : Eid), s.blk.dead = false → (q.val, e.toNat) ∈ s.blk.ext.expPend →
    Does (.expireTake q e) s (fun t => (q.val, e.toNat) ∉ t.blk.ext.expPend ∧ (q.val, e.toNat) ∈ t.blk.ext.dead)) ∧
  (∀ (s : State) (q : Quad) (e : Eid), (q.val, e.toNat) ∉ s.blk.ext.expPend → exec (.expireTake q e) s = .next s) ∧
  (∀ (s : State) (i : Nat), s.blk.dead = false → (s.blk.extRt i).state = .draining → s.blk.drained i = true →
    Does (.drainEnd i) s (fun t => (t.blk.extRt i).state = .zeroing ∧ Only ([.pair] ++ devRegions) s t ∧
      (s.blk.ckptOn = false → Only [.ext] s t))) ∧
  (∀ (s : State) (i : Nat), ((s.blk.extRt i).state ≠ .draining ∨ s.blk.drained i = false) → exec (.drainEnd i) s = .next s)

/-- Lease at the lease master: a renewal in time sets the deadline to its acceptance plus the host's LEASE_MS and sends no Answer, one where no
lease is live starts it, one after the lapse is refused HOST_LAPSED, a period of 0 ends a live lease and where none is live finds NO_LEASE, and
these are answered with the deadline (R93, R95, R243, R244).
A lease lapses once the timebase has passed its deadline, and EXPIRE goes to the four home agents; before that, and in HOLD, nothing
happens (R94, R399). A primary of a pair writes the host's checkpoint entry first (R356).
Each of these completes, that is, exec answers a next state wherever the hypotheses on the state and the operands hold: lease, leaseExpiry. -/
def Obligations.LeasesAreAnsweredAndLapse : Prop :=
  (∀ (s : State) (r : Req) (b : Blk) (l : Lease), CtrlIn s.blk b 0 r 0xD0 0 true → mget b.ext.leases r.src.toNat = some l →
    l.lapsed = false → l.live = true → b.tb ≤ l.deadline →
    Does (.lease r true) s (fun t => t.blk.tb = s.blk.tb ∧
      mget t.blk.ext.leases r.src.toNat = some { l with deadline := s.blk.tb + s.blk.leaseNs r.src.toNat } ∧
      t.blk.fab = b.fab)) ∧
  (∀ (s : State) (r : Req) (b : Blk), CtrlIn s.blk b 0 r 0xD0 0 true → mget b.ext.leases r.src.toNat = none →
    Does (.lease r true) s (fun t =>
      mget t.blk.ext.leases r.src.toNat = some ⟨true, false, s.blk.tb + s.blk.leaseNs r.src.toNat⟩ ∧
      SendsUp t 0 0x48 r.src.toNat 0 (toLe 8 (s.blk.tb + s.blk.leaseNs r.src.toNat)))) ∧
  (∀ (s : State) (r : Req) (b : Blk) (l : Lease) (renew : Bool), CtrlIn s.blk b 0 r 0xD0 0 true →
    mget b.ext.leases r.src.toNat = some l → l.lapsed = true →
    Does (.lease r renew) s (fun t => t.blk.ext.leases = b.ext.leases ∧ Sends t 0 0x48 r.src.toNat 0x1A (toLe 8 0))) ∧
  (∀ (s : State) (r : Req) (b : Blk) (l : Lease), CtrlIn s.blk b 0 r 0xD0 0 true → mget b.ext.leases r.src.toNat = some l →
    l.lapsed = false → l.live = true → b.tb ≤ l.deadline →
    Does (.lease r false) s (fun t => mget t.blk.ext.leases r.src.toNat = some ⟨false, true, 0⟩ ∧
      (∀ q, q < 4 → (q, r.src.toNat) ∈ t.blk.ext.expPend) ∧ SendsUp t 0 0x48 r.src.toNat 0 (toLe 8 0))) ∧
  (∀ (s : State) (r : Req) (b : Blk), CtrlIn s.blk b 0 r 0xD0 0 true → mget b.ext.leases r.src.toNat = none →
    Does (.lease r false) s (fun t => t.blk.ext = b.ext ∧ Sends t 0 0x48 r.src.toNat 0x11 (toLe 8 0))) ∧
  (∀ (s : State) (e : Eid) (l : Lease), s.blk.dead = false → s.blk.pwr.holding = false → mget s.blk.ext.leases e.toNat = some l →
    mhas (s.blk.view (.home 0)).hosts e.toNat = true → l.live = true → l.deadline < s.blk.tb →
    Does (.leaseExpiry e) s (fun t => mget t.blk.ext.leases e.toNat = some ⟨false, true, 0⟩ ∧
      (∀ q, q < 4 → (q, e.toNat) ∈ t.blk.ext.expPend) ∧ (∀ k, k ≠ e.toNat → mget t.blk.ext.leases k = mget s.blk.ext.leases k) ∧
      Only ([.pair] ++ devRegions) s t)) ∧
  (∀ (s : State) (e : Eid), (∀ l, mget s.blk.ext.leases e.toNat = some l → l.live = false ∨ s.blk.tb ≤ l.deadline) →
    exec (.leaseExpiry e) s = .next s) ∧
  (∀ (s : State) (e : Eid), s.blk.pwr.holding = true → exec (.leaseExpiry e) s = .next s)

/-- A Publish of an ACTIVE extent that names its VERSION and MOD_COUNT opens the settle window; a stale VERSION is answered 0x21 and a
changed MOD_COUNT 0x22, and the extent stays ACTIVE. The PUBLISH command does the same for a function (R99, R457).
When the settle window of a SEALING extent has ended, the extent is PUBLISHED with the new VERSION and the publishers' DIGEST if every
joined publisher gave the same one; else it is ACTIVE again with its VERSION, and the conflict is flagged; no publisher waits
longer (R100).
Unpublish returns a PUBLISHED extent whose VERSION it names to ACTIVE and answers 0x20; Query answers the extent's state, VERSION,
MOD_COUNT and DIGEST and changes nothing; both as a message and as a command (R101, R244, R457).
Each of these completes, that is, exec answers a next state wherever the hypotheses on the state and the operands hold: publish, publishCommand,
settleWindowClose, unpublish, query, unpublishCommand, queryCommand. -/
def Obligations.ExtentsArePublishedAndUnpublished : Prop :=
  (∀ (s : State) (r : Req) (b : Blk) (i : Nat) (x n m : DWord) (d : Bytes), CtrlIn s.blk b (s.blk.extHome i) r 0xD2 64 false →
    x ≠ n → i ≤ 262143 → b.pubCheck (.host r.src.toNat) i true = 0 → (b.extRt i).state = .active → (b.extRt i).version = x →
    (b.extRt i).modCount = m →
    Does (.publish r i x n m d) s (fun t => (t.blk.extRt i).state = .sealing ∧ (t.blk.extRt i).newVersion = n ∧
      (t.blk.extRt i).pubs = [⟨.fabric r.src r.msgId r.traceId 0xD2, d⟩] ∧
      (t.blk.extRt i).settleEnd = b.tb + b.field (Reg.haPublishSettle (((b.extEnt i).map ExtEnt.home).getD 0)) 0 10 * 1000)) ∧
  (∀ (s : State) (r : Req) (b : Blk) (i : Nat) (x n m : DWord) (d : Bytes), CtrlIn s.blk b (s.blk.extHome i) r 0xD2 64 false →
    x ≠ n → i ≤ 262143 → b.pubCheck (.host r.src.toNat) i true = 0 → (b.extRt i).state = .active → (b.extRt i).version ≠ x →
    Does (.publish r i x n m d) s (fun t => (t.blk.extRt i).state = .active ∧ Sends t (s.blk.extHome i) 0x48 r.src.toNat 0x21 [])) ∧
  (∀ (s : State) (c : CmdId) (r : CmdRec), HubRuns s.blk c 0x04 r → r.started = false →
    s.blk.pubCheck r.pubWho (r.arg 0x08 4) true = 0 → (s.blk.extRt (r.arg 0x08 4)).state = .active →
    (s.blk.extRt (r.arg 0x08 4)).version.toNat = r.arg 0x10 8 → (s.blk.extRt (r.arg 0x08 4)).modCount.toNat = r.arg 0x20 8 →
    Does (.publishCommand c) s (fun t => (t.blk.extRt (r.arg 0x08 4)).state = .sealing ∧
      (t.blk.extRt (r.arg 0x08 4)).pubs = [⟨.cmd c, sl r.bytes 0x28 32⟩] ∧ t.blk.hub.wins = s.blk.hub.wins)) ∧
  (∀ (s : State) (c : CmdId) (r : CmdRec), HubRuns s.blk c 0x04 r → r.started = false →
    s.blk.pubCheck r.pubWho (r.arg 0x08 4) true = 0 → (s.blk.extRt (r.arg 0x08 4)).state = .active →
    (s.blk.extRt (r.arg 0x08 4)).version.toNat = r.arg 0x10 8 → (s.blk.extRt (r.arg 0x08 4)).modCount.toNat ≠ r.arg 0x20 8 →
    Does (.publishCommand c) s (fun t => EndsOnly [] s t c r 0x22 [])) ∧
  (∀ (s : State) (i : Nat) (p : Publisher) (rest : List Publisher), s.blk.dead = false → (s.blk.extRt i).state = .sealing →
    (s.blk.extRt i).settleEnd ≤ s.blk.tb → (s.blk.extRt i).pubs = p :: rest → (∀ x ∈ rest, x.digest = p.digest) →
    Does (.settleWindowClose i) s (fun t => (t.blk.extRt i).state = .published ∧ (t.blk.extRt i).version = (s.blk.extRt i).newVersion ∧
      (t.blk.extRt i).digest = p.digest ∧ (t.blk.extRt i).pubs = [])) ∧
  (∀ (s : State) (i : Nat) (p x : Publisher) (rest : List Publisher), s.blk.dead = false → (s.blk.extRt i).state = .sealing →
    (s.blk.extRt i).settleEnd ≤ s.blk.tb → (s.blk.extRt i).pubs = p :: rest → x ∈ rest → x.digest ≠ p.digest →
    Does (.settleWindowClose i) s (fun t => (t.blk.extRt i).state = .active ∧ (t.blk.extRt i).version = (s.blk.extRt i).version ∧
      (t.blk.extRt i).pubs = [] ∧ (t.blk.reg (Reg.haErr (s.blk.extHome i))).getLsbD 1 = true)) ∧
  (∀ (s : State) (i : Nat), s.blk.tb < (s.blk.extRt i).settleEnd → exec (.settleWindowClose i) s = .next s) ∧
  (∀ (s : State) (r : Req) (b : Blk) (i : Nat) (x : DWord), CtrlIn s.blk b (s.blk.extHome i) r 0xD3 8 false → i ≤ 262143 →
    b.pubCheck (.host r.src.toNat) i true = 0 → (b.extRt i).state = .published → (b.extRt i).version = x →
    Does (.unpublish r i x) s (fun t => (t.blk.extRt i).state = .active ∧ SendsUp t (s.blk.extHome i) 0x48 r.src.toNat 0x20 [])) ∧
  (∀ (s : State) (r : Req) (b : Blk) (i : Nat), CtrlIn s.blk b (s.blk.extHome i) r 0xD4 0 false → i ≤ 262143 →
    b.pubCheck (.host r.src.toNat) i false = 0 →
    Does (.query r i) s (fun t => t.blk.ext = b.ext ∧ Sends t (s.blk.extHome i) 0x48 r.src.toNat 0 (b.queryBytes i))) ∧
  (∀ (s : State) (c : CmdId) (r : CmdRec), HubRuns s.blk c 0x05 r → s.blk.pubCheck r.pubWho (r.arg 0x08 4) true = 0 →
    (s.blk.extRt (r.arg 0x08 4)).state = .published → (s.blk.extRt (r.arg 0x08 4)).version.toNat = r.arg 0x10 8 →
    Does (.unpublishCommand c) s (fun t => (t.blk.extRt (r.arg 0x08 4)).state = .active ∧ Ends s t c r 0x20 [])) ∧
  (∀ (s : State) (c : CmdId) (r : CmdRec), HubRuns s.blk c 0x06 r → s.blk.pubCheck r.pubWho (r.arg 0x08 4) false = 0 →
    Does (.queryCommand c) s (fun t => EndsOnly [] s t c r 0 (s.blk.queryBytes (r.arg 0x08 4))))

/-! ## Requests at the home agents -/

/-- A request of a fabric host that fails a check is answered by a Cmp with that status, carries no data, and changes nothing in the pool, the
directory, the transactions or the extents: RdS, RdX, RdOnce, WrLine, RdBulk, WrBulk. An RdS that is not formed as R243 asks is answered
MSG_MALFORMED in the same way (R90, R103).
Each of these completes, that is, exec answers a next state wherever the hypotheses on the state and the operands hold: rds, rdx, rdonce, wrline,
rdbulk, wrbulk. -/
def Obligations.RefusedRequestsChangeNothing : Prop :=
  let frame : List Region := [.regs, .aon, .pcs, .fab, .traf]
  let q : Addr → Nat := fun a => homeOf (lineOf a.toNat)
  (∀ (s : State) (r : Req) (a : Addr) (st : Nat), a.toNat % 128 = 0 → ReqFails s.blk r a 0xC0 [0] .rds st →
    Does (.rds r a) s (fun t => Only frame s t ∧ Sends t (q a) 0x40 r.src.toNat st [])) ∧
  (∀ (s : State) (r : Req) (a : Addr) (st : Nat), a.toNat % 128 = 0 → ReqFails s.blk r a 0xC1 [0] .rdx st →
    Does (.rdx r a) s (fun t => Only frame s t ∧ Sends t (q a) 0x40 r.src.toNat st [])) ∧
  (∀ (s : State) (r : Req) (a : Addr) (st : Nat), a.toNat % 128 = 0 → ReqFails s.blk r a 0xC2 [0] .read st →
    Does (.rdonce r a) s (fun t => Only frame s t ∧ Sends t (q a) 0x40 r.src.toNat st [])) ∧
  (∀ (s : State) (r : Req) (a : Addr) (bs : Bytes) (m : BitVec 128) (p : Bool) (st : Nat), s.blk.isPeer r.src.toNat = false →
    a.toNat % 128 = 0 → ReqFails s.blk r a 0xC3 [144] .write st →
    Does (.wrline r a bs m p) s (fun t => Only frame s t ∧ Sends t (q a) 0x40 r.src.toNat st [])) ∧
  (∀ (s : State) (r : Req) (a : Addr) (n : BitVec 9) (st : Nat), n.toNat + 1 ≤ 510 → lineIn (lineOf a.toNat) + n.toNat + 1 ≤ 16384 →
    a.toNat % 128 = 0 → ReqFails s.blk r a 0xC5 [0] .read st →
    Does (.rdbulk r a n) s (fun t => Only frame s t ∧ Sends t (q a) 0x40 r.src.toNat st [])) ∧
  (∀ (s : State) (r : Req) (a : Addr) (n : BitVec 9) (ls : List LineIn) (st : Nat), s.blk.isPeer r.src.toNat = false →
    n.toNat + 1 ≤ 510 → lineIn (lineOf a.toNat) + n.toNat + 1 ≤ 16384 → ls.length = n.toNat + 1 →
    a.toNat % 128 = 0 → ReqFails s.blk r a 0xC6 (bulkLens (n.toNat + 1)) .write st →
    Does (.wrbulk r a n (bulkLens (n.toNat + 1)) ls) s (fun t => Only frame s t ∧ Sends t (q a) 0x40 r.src.toNat st [])) ∧
  (∀ (s : State) (r : Req) (a : Addr), (s.blk.reqIn (q a) r.src.toNat 0xC0 [0] false).1 = true →
    (s.blk.reqIn (q a) r.src.toNat 0xC0 [0] false).2.pwr.holding = false → (r.reservedSet = true ∨ a.toNat % 128 ≠ 0) →
    Does (.rds r a) s (fun t => Only frame s t ∧ Sends t (q a) 0x40 r.src.toNat 0x60 []))

/-- An agent's read of a line that nobody holds is granted at once: RdS under a grant with WRITE, and RdX, in X with the agent as owner
(DataE), RdS without WRITE in S (DataS); the data is the line's, and the grant waits for CmpAck. RdOnce is answered DataI and leaves the
directory as it is (R92, R113, R114).
Each of these completes, that is, exec answers a next state wherever the hypotheses on the state and the operands hold: rds, rdx, rdonce, rdbulk. -/
def Obligations.ReadsOfAFreeLineAreGranted : Prop :=
  (∀ (s : State) (b : Blk) (r : Req) (a : Addr) (c : Checked) (i : Nat), ReqIn s.blk b r a 0xC0 [0] .rds c → a.toNat % 128 = 0 →
    LineFree b (lineOf a.toNat) → b.agentIx r.src.toNat = some i → c.canWrite = true →
    Does (.rds r a) s (fun t => Held t (lineOf a.toNat) .x [i] ∧
      Sends t (homeOf (lineOf a.toNat)) 0x01 r.src.toNat 0 (b.lineVal (lineOf a.toNat)).1 ∧ Acking t (lineOf a.toNat) r)) ∧
  (∀ (s : State) (b : Blk) (r : Req) (a : Addr) (c : Checked) (i : Nat), ReqIn s.blk b r a 0xC0 [0] .rds c → a.toNat % 128 = 0 →
    LineFree b (lineOf a.toNat) → b.agentIx r.src.toNat = some i → c.canWrite = false →
    Does (.rds r a) s (fun t => Held t (lineOf a.toNat) .s [i] ∧
      Sends t (homeOf (lineOf a.toNat)) 0x00 r.src.toNat 0 (b.lineVal (lineOf a.toNat)).1 ∧ Acking t (lineOf a.toNat) r)) ∧
  (∀ (s : State) (b : Blk) (r : Req) (a : Addr) (c : Checked) (i : Nat), ReqIn s.blk b r a 0xC1 [0] .rdx c → a.toNat % 128 = 0 →
    LineFree b (lineOf a.toNat) → b.agentIx r.src.toNat = some i →
    Does (.rdx r a) s (fun t => Held t (lineOf a.toNat) .x [i] ∧
      Sends t (homeOf (lineOf a.toNat)) 0x01 r.src.toNat 0 (b.lineVal (lineOf a.toNat)).1 ∧ Acking t (lineOf a.toNat) r)) ∧
  (∀ (s : State) (b : Blk) (r : Req) (a : Addr) (c : Checked), ReqIn s.blk b r a 0xC2 [0] .read c → a.toNat % 128 = 0 →
    LineFree b (lineOf a.toNat) →
    Does (.rdonce r a) s (fun t => mget t.blk.coh.dir (lineOf a.toNat) = none ∧ t.blk.busy (lineOf a.toNat) = false ∧
      Sends t (homeOf (lineOf a.toNat)) 0x02 r.src.toNat 0 (b.lineVal (lineOf a.toNat)).1)) ∧
  (∀ (s : State) (b : Blk) (r : Req) (a : Addr) (n : BitVec 9) (c : Checked), ReqIn s.blk b r a 0xC5 [0] .read c → a.toNat % 128 = 0 →
    n.toNat + 1 ≤ 510 → lineIn (lineOf a.toNat) + n.toNat + 1 ≤ 16384 →
    Does (.rdbulk r a n) s (fun t => t.blk.coh.nextJob = b.coh.nextJob + 1)) ∧
  (∀ (s : State) (b : Blk) (r : Req) (a : Addr) (c : Checked), ReqIn s.blk b r a 0xC5 [0] .read c → a.toNat % 128 = 0 →
    LineFree b (lineOf a.toNat) → b.coh.jobs = [] →
    Does (.rdbulk r a 0) s (fun t => t.blk.busy (lineOf a.toNat) = false ∧ t.blk.coh.jobs = [] ∧
      Sends t (homeOf (lineOf a.toNat)) 0x06 r.src.toNat 0 (b.lineVal (lineOf a.toNat)).1))

/-- A write of a host to a line that nobody holds stands in the pool when it is answered: the bytes of the mask are the new ones and the others
the line's, a write of every byte clears POISON, and the answer is a Cmp with status 0 (R111, R114, R340); where the extent is not mirrored, and
where the log that a wrong key slot may call for goes to its default ring, not to the pool (R428).
A bulk write of one line does the same; any bulk write is one job (R242).
Each of these completes, that is, exec answers a next state wherever the hypotheses on the state and the operands hold: wrline, wrbulk. -/
def Obligations.WritesOfAFreeLineStand : Prop :=
  (∀ (s : State) (b : Blk) (r : Req) (a : Addr) (bs : Bytes) (m : BitVec 128) (p : Bool) (c : Checked), s.blk.isPeer r.src.toNat = false →
    ReqIn s.blk b r a 0xC3 [144] .write c → a.toNat % 128 = 0 → LineFree b (lineOf a.toNat) → b.huskAlive (lineOf a.toNat) = true →
    b.mirrors (lineOf a.toNat) = false → b.rings.log.ext = none →
    let old := b.lineVal (lineOf a.toNat)
    let bad := if m = BitVec.allOnes 128 then p else old.2 || p
    Does (.wrline r a bs m p) s (fun t => t.blk.lineVal (lineOf a.toNat) = (if bad then zeros 128 else mergeMask m old.1 bs, bad) ∧
      mget t.blk.coh.dir (lineOf a.toNat) = none ∧ t.blk.busy (lineOf a.toNat) = false ∧
      Sends t (homeOf (lineOf a.toNat)) 0x40 r.src.toNat 0 [])) ∧
  (∀ (s : State) (b : Blk) (r : Req) (a : Addr) (x : LineIn) (c : Checked), s.blk.isPeer r.src.toNat = false →
    ReqIn s.blk b r a 0xC6 [128] .write c → a.toNat % 128 = 0 → LineFree b (lineOf a.toNat) → b.huskAlive (lineOf a.toNat) = true →
    b.mirrors (lineOf a.toNat) = false → b.coh.jobs = [] → x.bytes.length = 128 →
    Does (.wrbulk r a 0 [128] [x]) s (fun t =>
      t.blk.lineVal (lineOf a.toNat) = (if x.poison then zeros 128 else x.bytes, x.poison) ∧ t.blk.coh.jobs = [] ∧
      Sends t (homeOf (lineOf a.toNat)) 0x40 r.src.toNat 0 [])) ∧
  (∀ (s : State) (b : Blk) (r : Req) (a : Addr) (n : BitVec 9) (ls : List LineIn) (c : Checked), s.blk.isPeer r.src.toNat = false →
    ReqIn s.blk b r a 0xC6 (bulkLens (n.toNat + 1)) .write c → a.toNat % 128 = 0 → n.toNat + 1 ≤ 510 →
    lineIn (lineOf a.toNat) + n.toNat + 1 ≤ 16384 → ls.length = n.toNat + 1 →
    Does (.wrbulk r a n (bulkLens (n.toNat + 1)) ls) s (fun t => t.blk.coh.nextJob = b.coh.nextJob + 1))

/-- The peer's write to a line of a mirrored extent is written as it comes, whatever the extent's leases and grants, and answered Cmp 0; one
outside the mirrored extents is answered NO_EXTENT (0x12), and reaches no line, unless the standby then reads its checkpoint's header (R353,
R364).
An owner's WrBack writes the line, frees its entry and is answered Cmp; a WrBack of an agent that does not own the line, and that no snoop
waits for, leaves the line and the directory as they are and sets HA_COH_ERR.PROTOCOL. One to a line without Husk storage leaves the pool as it
is, counts as a refusal and is answered CHANNEL_LOST (R103, R114, R115, R342). One that is taken is traced first (R434).
Each of these completes, that is, exec answers a next state wherever the hypotheses on the state and the operands hold: mirrorWrite, wrback. -/
def Obligations.MirrorWritesAndWriteBacksAreTaken : Prop :=
  (∀ (s : State) (r : Req) (a : Addr) (m : BitVec 128) (x : LineIn) (e : Nat × ExtEnt), s.blk.dead = false → s.blk.str.loaded = true →
    s.blk.closing = false →
    mhas (s.blk.view (.router (Fin.ofNat 4 (homeOf (lineOf a.toNat))))).eids r.src.toNat = true → r.reservedSet = false →
    a.toNat % 128 = 0 → s.blk.pwr.holding = false →
    (s.blk.view (.home (Fin.ofNat 4 (homeOf (lineOf a.toNat))))).extAt (granOf (lineOf a.toNat)) = some e → e.2.mirror = true →
    let y := (s.blk.reqIn (homeOf (lineOf a.toNat)) r.src.toNat 0xC3 [144] false).2
    let b := y.accepted (lineOf a.toNat) r.src.toNat 0xC3 r.msgId.toNat r.traceId.toNat a.toNat (s.blk.partOf (lineOf a.toNat))
    LineFree b (lineOf a.toNat) → b.huskAlive (lineOf a.toNat) = true → b.coh.jobs = [] → b.rings.log.ext = none →
    let old := b.lineVal (lineOf a.toNat)
    let bad := if m = BitVec.allOnes 128 then x.poison else old.2 || x.poison
    Does (.mirrorWrite r a m [x]) s (fun t =>
      t.blk.lineVal (lineOf a.toNat) = (if bad then zeros 128 else mergeMask m old.1 x.bytes, bad) ∧
      Sends t (homeOf (lineOf a.toNat)) 0x40 r.src.toNat 0 [])) ∧
  (∀ (s : State) (r : Req) (a : Addr) (m : BitVec 128) (x : LineIn), s.blk.dead = false → s.blk.str.loaded = true →
    s.blk.closing = false →
    mhas (s.blk.view (.router (Fin.ofNat 4 (homeOf (lineOf a.toNat))))).eids r.src.toNat = true → r.reservedSet = false →
    a.toNat % 128 = 0 → s.blk.pwr.holding = false →
    (∀ e, (s.blk.view (.home (Fin.ofNat 4 (homeOf (lineOf a.toNat))))).extAt (granOf (lineOf a.toNat)) = some e → e.2.mirror = false) →
    Does (.mirrorWrite r a m [x]) s (fun t => (s.blk.pair.heard = false → Only [.fab, .regs, .traf, .aon, .pcs] s t) ∧
      Sends t (homeOf (lineOf a.toNat)) 0x40 r.src.toNat 0x12 [])) ∧
  (∀ (s : State) (r : Req) (a : Addr) (bs : Bytes) (p : Bool), s.blk.dead = false → s.blk.str.loaded = true → r.reservedSet = false →
    a.toNat % 128 = 0 → s.blk.busy (lineOf a.toNat) = false → s.blk.ownerOf (lineOf a.toNat) = some r.src.toNat →
    s.blk.deadAt (homeOf (lineOf a.toNat)) r.src.toNat = false →
    let b := (s.blk.rspIn r.src.toNat 128).traceRx (homeOf (lineOf a.toNat)) r.src.toNat 0x04 r.msgId.toNat r.traceId.toNat a.toNat
    b.mirrors (lineOf a.toNat) = false → b.huskAlive (lineOf a.toNat) = true → bs.length = 128 →
    mhas (s.blk.view (.router (Fin.ofNat 4 (homeOf (lineOf a.toNat))))).eids r.src.toNat = true →
    Does (.wrback r a bs p) s (fun t => t.blk.lineVal (lineOf a.toNat) = (if p then zeros 128 else bs, p) ∧
      mget t.blk.coh.dir (lineOf a.toNat) = none ∧ Sends t (homeOf (lineOf a.toNat)) 0x40 r.src.toNat 0 [])) ∧
  (∀ (s : State) (r : Req) (a : Addr) (bs : Bytes) (p : Bool), s.blk.dead = false → s.blk.str.loaded = true → r.reservedSet = false →
    a.toNat % 128 = 0 → s.blk.busy (lineOf a.toNat) = false → s.blk.ownerOf (lineOf a.toNat) ≠ some r.src.toNat → s.blk.pair.gap = false →
    Does (.wrback r a bs p) s (fun t => t.blk.coh = s.blk.coh ∧ Only (.traf :: quietRegions) s t ∧
      (t.blk.reg (Reg.haCohErr (homeOf (lineOf a.toNat)))).getLsbD 3 = true)) ∧
  (∀ (s : State) (r : Req) (a : Addr) (bs : Bytes) (p : Bool), s.blk.dead = false → s.blk.str.loaded = true → r.reservedSet = false →
    a.toNat % 128 = 0 → s.blk.busy (lineOf a.toNat) = false → s.blk.ownerOf (lineOf a.toNat) = some r.src.toNat →
    s.blk.deadAt (homeOf (lineOf a.toNat)) r.src.toNat = false →
    let b := (s.blk.rspIn r.src.toNat 128).traceRx (homeOf (lineOf a.toNat)) r.src.toNat 0x04 r.msgId.toNat r.traceId.toNat a.toNat
    b.huskAlive (lineOf a.toNat) = false →
    mhas (s.blk.view (.router (Fin.ofNat 4 (homeOf (lineOf a.toNat))))).eids r.src.toNat = true →
    Does (.wrback r a bs p) s (fun t => t.blk.pool = b.pool ∧ mget t.blk.coh.dir (lineOf a.toNat) = none ∧
      (t.blk.reg (Reg.haRefuseCnt (homeOf (lineOf a.toNat)))).toNat =
        min ((b.reg (Reg.haRefuseCnt (homeOf (lineOf a.toNat)))).toNat + 1) 0xFFFFFFFF ∧
      Sends t (homeOf (lineOf a.toNat)) 0x40 r.src.toNat 0x91 []))

/-- A near atomic on a line that nobody holds writes the operation's result at its address and answers the old value; nothing else of the line
changes; where the extent is not mirrored. One that asks to be recorded, and whose tag no entry of its source has, leaves its entry in the
recent-atomics table. A far atomic grants the line in X to the agent (R118, R120, R121, R123).
Each of these completes, that is, exec answers a next state wherever the hypotheses on the state and the operands hold: atomic. -/
def Obligations.AtomicsExecuteNearOrFar : Prop :=
  (∀ (s : State) (b : Blk) (r : Req) (a : Addr) (op : BitVec 4) (sz : BitVec 2) (rec : Bool) (tag : Word) (pl : Bytes) (c : Checked),
    ReqIn s.blk b r a 0xC4 [pl.length] .atomic c → LineFree b (lineOf a.toNat) → b.huskAlive (lineOf a.toNat) = true →
    b.mirrors (lineOf a.toNat) = false → (b.lineVal (lineOf a.toNat)).2 = false →
    (rec = false → ((mget b.coh.agents r.src.toNat).map (·.registered)).getD false = true → c.canWrite = true → op.toNat < 10 →
      2 ≤ (b.predict (lineOf a.toNat) c.part r.src.toNat).1) →
    (rec = true → ∀ e ∈ b.ratLive (homeOf (lineOf a.toNat)), e.eid = r.src.toNat → e.a.atag ≠ tag) →
    let m := atmOp a.toNat op.toNat sz.toNat rec tag pl
    let n := (atmSize sz.toNat).getD 4
    let old := le (b.lineVal (lineOf a.toNat)).1 (a.toNat % 128) n
    let x := (s.blk.reqIn (homeOf (lineOf a.toNat)) r.src.toNat 0xC4 [pl.length] false).2
    x.atmCheck (homeOf (lineOf a.toNat)) r.src.toNat m c = 0 →
    Does (.atomic r a op sz rec tag pl) s (fun t =>
      (rec = true → ∃ e ∈ t.blk.coh.rat, e.eid = r.src.toNat ∧ e.a = m ∧ e.old = toLe n old ∧ e.reserved = false ∧ e.at_ = s.blk.tb) ∧
      t.blk.lineVal (lineOf a.toNat) = (fit 128 (patch (b.lineVal (lineOf a.toNat)).1 (a.toNat % 128)
        (toLe n (atmNew op.toNat n old m.operand m.compare))), false) ∧
      Sends t (homeOf (lineOf a.toNat)) 0x05 r.src.toNat 0 (toLe n old))) ∧
  (∀ (s : State) (b : Blk) (r : Req) (a : Addr) (op : BitVec 4) (sz : BitVec 2) (tag : Word) (pl : Bytes) (c : Checked) (g : Agent),
    ReqIn s.blk b r a 0xC4 [pl.length] .atomic c → LineFree b (lineOf a.toNat) → mget b.coh.agents r.src.toNat = some g →
    b.huskAlive (lineOf a.toNat) = true → g.registered = true → c.canWrite = true → op.toNat < 10 →
      (b.predict (lineOf a.toNat) c.part r.src.toNat).1 < 2 →
    let m := atmOp a.toNat op.toNat sz.toNat false tag pl
    let x := (s.blk.reqIn (homeOf (lineOf a.toNat)) r.src.toNat 0xC4 [pl.length] false).2
    x.atmCheck (homeOf (lineOf a.toNat)) r.src.toNat m c = 0 →
    Does (.atomic r a op sz false tag pl) s (fun t => Held t (lineOf a.toNat) .x [g.index] ∧
      Sends t (homeOf (lineOf a.toNat)) 0x01 r.src.toNat 0 (b.lineVal (lineOf a.toNat)).1 ∧ Acking t (lineOf a.toNat) r)) ∧
  (∀ (s : State) (r : Req) (a : Addr) (op : BitVec 4) (sz : BitVec 2) (tag : Word) (pl : Bytes) (rec : Bool) (st : Nat),
    ReqFails s.blk r a 0xC4 [pl.length] .atomic st → st ≠ 0x19 →
    Does (.atomic r a op sz rec tag pl) s (fun t => Only [.regs, .aon, .pcs, .fab, .traf] s t ∧
      Sends t (homeOf (lineOf a.toNat)) 0x40 r.src.toNat st []))

/-- What an atomic computes: the table of R118 on numbers of n bytes, with signed and unsigned minimum and maximum, and compare and swap. -/
def Obligations.AtomicOperationsCompute : Prop :=
  ∀ (n old x cmp : Nat), 0 < n → old < 2 ^ (8 * n) → x < 2 ^ (8 * n) → cmp < 2 ^ (8 * n) →
    atmNew 0x0 n old x cmp = (old + x) % 2 ^ (8 * n) ∧
    sext (8 * n) (atmNew 0x1 n old x cmp) = min (sext (8 * n) old) (sext (8 * n) x) ∧
    sext (8 * n) (atmNew 0x2 n old x cmp) = max (sext (8 * n) old) (sext (8 * n) x) ∧
    atmNew 0x3 n old x cmp = min old x ∧ atmNew 0x4 n old x cmp = max old x ∧
    (∀ i, (atmNew 0x5 n old x cmp).testBit i = (old.testBit i && x.testBit i)) ∧
    (∀ i, (atmNew 0x6 n old x cmp).testBit i = (old.testBit i || x.testBit i)) ∧
    (∀ i, (atmNew 0x7 n old x cmp).testBit i = (old.testBit i != x.testBit i)) ∧
    atmNew 0x8 n old x cmp = x ∧ atmNew 0x9 n old x cmp = (if old = cmp then x else old)

/-- A response to a snoop takes that snoop off the transaction that waits for it, and while others are outstanding the transaction goes on
waiting: with SnpData's data, with a WrBack announced, or without more. It sets the agent's timeout count to 0, and reaches nothing but the
coherence state, the agent's shaper and the trace (R115, R125, R289, R434). A response that is not formed as R243 asks is counted and
discarded.
Each of these completes, that is, exec answers a next state wherever the hypotheses on the state and the operands hold: rspi, rsps, rspcur, snpdata,
rspwbpend, cmpack. -/
def Obligations.SnoopResponsesAreTaken : Prop :=
  (∀ (s : State) (r : Req) (a : Addr) (id : BitVec 16) (x : Txn), SnoopWaits s.blk r a id x →
    let rest := x.snoops.filter (fun y => y.eid != r.src.toNat)
    let k := homeOf (lineOf a.toNat) * 65536 + r.src.toNat
    rest ≠ [] →
    Does (.rspi r a id) s (fun t => Only (rspReach r) s t ∧ { x with snoops := rest } ∈ t.blk.coh.txns ∧ tget (fun _ => 0) t.blk.coh.timeouts k = 0) ∧
    Does (.rsps r a id) s (fun t => Only (rspReach r) s t ∧ { x with snoops := rest } ∈ t.blk.coh.txns ∧ tget (fun _ => 0) t.blk.coh.timeouts k = 0) ∧
    Does (.rspcur r a id) s (fun t => Only (rspReach r) s t ∧ { x with snoops := rest } ∈ t.blk.coh.txns ∧ t.blk.coh.dir = s.blk.coh.dir) ∧
    (∀ (bs : Bytes) (p : Bool), Does (.snpdata r a id bs p) s (fun t => Only (rspReach r) s t ∧
      { x with snoops := rest, data := some (bs, p) } ∈ t.blk.coh.txns)) ∧
    (x.data = none → Does (.rspwbpend r a id) s (fun t => Only (rspReach r) s t ∧
      { x with snoops := x.snoops.map (fun y => if y.eid = r.src.toNat then { y with wbPend := true } else y) } ∈ t.blk.coh.txns))) ∧
  (∀ (s : State) (i : Instr) (r : Req) (a : Addr) (id : BitVec 16), s.blk.dead = false → s.blk.str.loaded = true →
    (r.reservedSet = true ∨ a.toNat % 128 ≠ 0) → (i = .rspi r a id ∨ i = .rsps r a id ∨ i = .rspcur r a id ∨ i = .rspwbpend r a id ∨
      i = .cmpack r a id) →
    Does i s (fun t => Only [.regs, .traf] s t ∧ (t.blk.reg (Reg.nrmRtErr (homeOf (lineOf a.toNat)))).getLsbD 4 = true)) ∧
  (∀ (s : State) (r : Req) (a : Addr) (id : BitVec 16) (x : Txn), s.blk.dead = false → s.blk.str.loaded = true → r.reservedSet = false →
    a.toNat % 128 = 0 → s.blk.coh.txns = [x] → x.line = lineOf a.toNat → x.who = .fabric r.src → (∃ n, x.phase = .ack id.toNat n) →
    Does (.cmpack r a id) s (fun t => Only (rspReach r) s t ∧ t.blk.busy (lineOf a.toNat) = false ∧ t.blk.coh.dir = s.blk.coh.dir))

/-- The work of a home agent on its own: the first request that may start leaves the queue, unless it waits for a victim's recall: a RdOnce
of a line that nobody holds is then answered with the line, and a write of the hub stands in the pool; an entry of the recent-atomics table
is free 10 ms after it was recorded; a snoop that is missing for the timeout is counted against its agent; a suspension that waits is taken
and starts a walk, which reads one set at a time (R109, R113, R117, R123, R125 to R127).
Each of these completes, that is, exec answers a next state wherever the hypotheses on the state and the operands hold: busyLineServe, ratEntryExpiry,
snoopTimeout, suspendTake, reclaimWalk. -/
def Obligations.HomeAgentsWorkOn : Prop :=
  (∀ (s : State) (q : Quad) (e : QEnt), s.blk.dead = false → s.blk.nextQueued q = some e → s.blk.rings.waits.contains e = false →
    Does (.busyLineServe q) s (fun t => ∀ f ∈ t.blk.coh.queue, f.txn.id = e.txn.id → f.victim.isSome = true)) ∧
  (∀ (s : State) (q : Quad) (e : QEnt) (src : Eid), s.blk.dead = false → s.blk.nextQueued q = some e → s.blk.rings.waits.contains e = false →
    e.txn.op = .rdonce → e.txn.who = .fabric src → e.txn.job = none → e.txn.data = none → mget s.blk.coh.dir e.txn.line = none →
    s.blk.fencedTxn e.txn = false →
    s.blk.pool.inj = [] → mhas (s.blk.view (.router (Fin.ofNat 4 (homeOf e.txn.line)))).eids src.toNat = true →
    Does (.busyLineServe q) s (fun t => t.blk.busy e.txn.line = false ∧
      Sends t (homeOf e.txn.line) 0x02 src.toNat 0 (s.blk.lineVal e.txn.line).1)) ∧
  (∀ (s : State) (q : Quad) (e : QEnt) (bs : Bytes) (m : BitVec 128), s.blk.dead = false → s.blk.nextQueued q = some e →
    s.blk.rings.waits.contains e = true → e.txn.op = .wrline bs m false → e.txn.who = .dev → e.txn.job = none → e.txn.data = none →
    mget s.blk.coh.dir e.txn.line = none → s.blk.pool.inj = [] → s.blk.huskAlive e.txn.line = true →
    s.blk.mirrorsFor e.txn.twin e.txn.line = false → s.blk.fencedTxn e.txn = false → RingsApart s.blk →
    Does (.busyLineServe q) s (fun t => t.blk.busy e.txn.line = false ∧
      t.blk.lineVal e.txn.line = lineAfter s.blk e.txn.line bs m false)) ∧
  (∀ (s : State) (q : Quad), s.blk.nextQueued q = none → exec (.busyLineServe q) s = .next s) ∧
  (∀ (s : State) (q : Quad) (e : Eid) (tag : Word), s.blk.dead = false →
    Does (.ratEntryExpiry q e tag) s (fun t => Only [.coh] s t ∧ (∀ x ∈ t.blk.coh.rat, x ∈ s.blk.coh.rat) ∧
      (∀ x ∈ s.blk.coh.rat, x ∈ t.blk.coh.rat ∨ (x.reserved = false ∧ x.at_ + 10000000 < s.blk.tb)))) ∧
  (∀ (s : State) (q : Quad) (a : Addr) (e : Eid) (x : Txn) (y : SnoopOut), s.blk.dead = false → s.blk.coh.txns = [x] →
    x.line = lineOf a.toNat → homeOf x.line = q.val → x.snoops = [y] → y.eid = e.toNat → y.wbPend = false →
      y.sentAt + s.blk.snoopTimeout q ≤ s.blk.tb →
    tget (fun _ => 0) s.blk.coh.timeouts (q * 65536 + e.toNat) < 2 →
    Does (.snoopTimeout q a e) s (fun t =>
      tget (fun _ => 0) t.blk.coh.timeouts (q * 65536 + e.toNat) = tget (fun _ => 0) s.blk.coh.timeouts (q * 65536 + e.toNat) + 1 ∧
      t.blk.coh.txns = [{ x with snoops := [{ y with sentAt := s.blk.tb }] }] ∧ (t.blk.reg (Reg.haCohErr q)).getLsbD 0 = true ∧
      t.blk.coh.agents = s.blk.coh.agents)) ∧
  (∀ (s : State) (q : Quad) (e : Eid), s.blk.dead = false → (q.val, e.toNat) ∈ s.blk.coh.suspendPend →
    Does (.suspendTake q e) s (fun t => (q.val, e.toNat) ∉ t.blk.coh.suspendPend ∧ (q.val, e.toNat) ∈ t.blk.coh.suspended ∧
      (⟨q, e.toNat, 0⟩ : Walk) ∈ t.blk.coh.walks)) ∧
  (∀ (s : State) (q : Quad) (e : Eid) (w : Walk) (b0 : Blk), s.blk.dead = false → w.home = q.val → w.eid = e.toNat →
    s.blk.coh.walks = [w] → s.blk.takeSlot (1000 + q) (s.blk.field (Reg.haReclaimCap q) 0 7 * s.blk.grainSlots * 32 / 100) = some b0 →
    Does (.reclaimWalk q e) s (fun t =>
      t.blk.coh.walks = if w.cursor + 1 = dirSets then [] else [{ w with cursor := w.cursor + 1 }]))

/-! ## Control messages -/

/-- Submit and Cancel of a fabric host with a live lease: a Submit waits for admission at its Thresher, or is rejected 0x54 while 16 wait; a
Cancel aborts its partition's Sheaf, is answered 0 and the Sheaf ends SHEAF_CANCELLED; once its last task has ended a Cancel has no effect and
answers its final status; and one that names no Sheaf is answered 0x5E. One
whose lease does not live is answered with the lease's status. AgentRegister registers a suspended agent anew under its index (R128,
R199, R215, R219).
A Heartbeat of the witness or the peer is noted with its time, and one of any other source is discarded and counted. An order of the
witness takes effect only where its signature verifies: order 1 that names the controller, an in-sync standby, starts the gap with it as
solo primary; order 2 makes a primary a solo one; an order that does not verify leaves the pair as it is and sets HUB_PAIR_ERR bit 0. TERM
of an accepted order is kept (R240, R357 to R359, R362).
Each of these completes, that is, exec answers a next state wherever the hypotheses on the state and the operands hold: submit, cancel, agentRegister,
heartbeat, takeover. -/
def Obligations.ControlMessagesAreTaken : Prop :=
  (∀ (s : State) (r : Req) (b : Blk) (a : Addr) (thr : BitVec 4) (ck : Word), thr.toNat < 4 → a.toNat % 128 = 0 →
    CtrlIn s.blk b thr.toNat r 0xD1 0 false → b.str.loaded = true →
    (b.leaseStatus r.src.toNat = 0 → (b.thr thr.toNat).wait.length < 16 →
      Does (.submit r a thr ck) s (fun t => (t.blk.thr thr.toNat).wait = (b.thr thr.toNat).wait ++
        [⟨.fabric r.src r.msgId r.traceId 0xD1, some r.src.toNat, b.hostPart r.src.toNat, .pool, a.toNat, ck.toNat, b.tb⟩])) ∧
    (b.leaseStatus r.src.toNat = 0 → 16 ≤ (b.thr thr.toNat).wait.length →
      Does (.submit r a thr ck) s (fun t => t.blk.work = b.work ∧ Sends t thr.toNat 0x48 r.src.toNat 0x54 (submitResult 0 0 0))) ∧
    (b.leaseStatus r.src.toNat ≠ 0 →
      Does (.submit r a thr ck) s (fun t => t.blk.work = b.work ∧
        Sends t thr.toNat 0x48 r.src.toNat (b.leaseStatus r.src.toNat) (submitResult 0 0 0)))) ∧
  (∀ (s : State) (r : Req) (b : Blk) (slot : SlotIx) (ck : Word) (z : Sheaf), CtrlIn s.blk b (slot.val / 64) r 0xD5 0 true →
    b.leaseStatus r.src.toNat = 0 → mget b.work.sheafs slot = some z → z.cookie = ck.toNat → z.part = b.hostPart r.src.toNat →
    (b.lastEnded slot.val z = none → z.abort = none →
      Does (.cancel r slot ck) s (fun t => SendsUp t (slot.val / 64) 0x48 r.src.toNat 0 [] ∧
        (∀ y, mget t.blk.work.sheafs slot = some y → y.abort = some 0x5A))) ∧
    (∀ st, b.lastEnded slot.val z = some st →
      Does (.cancel r slot ck) s (fun t => t.blk.work = b.work ∧ Sends t (slot.val / 64) 0x48 r.src.toNat st []))) ∧
  (∀ (s : State) (r : Req) (b : Blk) (slot : SlotIx) (ck : Word), CtrlIn s.blk b (slot.val / 64) r 0xD5 0 true →
    b.leaseStatus r.src.toNat = 0 → mget b.work.sheafs slot = none →
    Does (.cancel r slot ck) s (fun t => t.blk.work = b.work ∧ Sends t (slot.val / 64) 0x48 r.src.toNat 0x5E [])) ∧
  (∀ (s : State) (r : Req) (b : Blk) (g : Agent) (l : Lease), CtrlIn s.blk b 0 r 0xD6 0 false →
    ((mget (b.view (.home 0)).hosts r.src.toNat).map (·.agent)).getD false = true → mget b.coh.agents r.src.toNat = some g →
    mget b.ext.leases r.src.toNat = some l → l.lapsed = false → l.live = true → b.walking r.src.toNat = false →
    Does (.agentRegister r) s (fun t =>
      mget t.blk.coh.agents r.src.toNat = some { g with registered := true, suspended := false } ∧
      (∀ q, (q, r.src.toNat) ∉ t.blk.coh.suspended) ∧ SendsUp t 0 0x48 r.src.toNat 0 (toLe 2 g.index ++ zeros 6))) ∧
  (∀ (s : State) (r : Req) (b : Blk), CtrlIn s.blk b 0 r 0xD6 0 false →
    (mget b.coh.agents r.src.toNat = none ∨ ((mget (b.view (.home 0)).hosts r.src.toNat).map (·.agent)).getD false = false) →
    Does (.agentRegister r) s (fun t => t.blk.coh = b.coh ∧ Sends t 0 0x48 r.src.toNat 0x15 (zeros 8))) ∧
  (∀ (s : State) (r : Req) (n : Word) (ro : BitVec 2) (tm : DWord), s.blk.dead = false → s.blk.str.loaded = true →
    s.blk.pairSource r.src.toNat = true → r.reservedSet = false →
    (r.src.toNat = s.blk.str.run.pair.witness →
      Does (.heartbeat r n ro tm) s (fun t => t.blk.pair = { s.blk.pair with witAt := some s.blk.tb })) ∧
    (r.src.toNat ≠ s.blk.str.run.pair.witness →
      Does (.heartbeat r n ro tm) s (fun t => t.blk.pair.peerAt = some s.blk.tb ∧ t.blk.pair.witAt = s.blk.pair.witAt))) ∧
  (∀ (s : State) (r : Req) (n : Word) (ro : BitVec 2) (tm : DWord), s.blk.dead = false → s.blk.str.loaded = true →
    s.blk.pairSource r.src.toNat = false →
    Does (.heartbeat r n ro tm) s (fun t => Only [.regs] s t ∧ (t.blk.reg (Reg.nrmRtErr 0)).getLsbD 4 = true)) ∧
  (∀ (s : State) (r : Req) (p : Bytes), OrderIn s.blk r p → u8 p 8 = 1 → s.blk.pair.role = 2 → s.blk.pair.inSync = true →
    s.blk.pair.fenced = false → s.blk.pwr.holding = false →
    Does (.takeover r p) s (fun t => if orderSigned s.blk p then
        t.blk.pair.term = le p 0 8 ∧ t.blk.pair.role = 1 ∧ t.blk.pair.solo = true ∧ t.blk.pair.gap = true ∧ t.blk.pair.t0 = s.blk.tb
      else t.blk.pair = s.blk.pair ∧ Only [.regs] s t ∧ (t.blk.reg Reg.hubPairErr).getLsbD 0 = true)) ∧
  (∀ (s : State) (r : Req) (p : Bytes), OrderIn s.blk r p → u8 p 8 = 2 → s.blk.pair.role = 1 → s.blk.mgmt.failed = false →
    Does (.takeover r p) s (fun t => if orderSigned s.blk p then
        t.blk.pair.term = le p 0 8 ∧ t.blk.pair.role = 1 ∧ t.blk.pair.solo = true ∧ t.blk.pair.fenced = false
      else t.blk.pair = s.blk.pair ∧ Only [.regs] s t ∧ (t.blk.reg Reg.hubPairErr).getLsbD 0 = true))

/-! ## Integrity -/

/-- A read with errors in one lane of a sound line is corrected: the line reads as before, and the correction is counted and flagged. A Husk
read with errors in two lanes of a line of mode NONE that no frame holds poisons the line (R339, R340). The log and trace lie
outside the pool in these clauses.
Each of these completes, that is, exec answers a next state wherever the hypotheses on the state and the operands hold: huskLineRead, grainLineRead. -/
def Obligations.ReadErrorsAreCorrectedOrPoisoned : Prop :=
  (∀ (s : State) (c : HuskCh) (line l : Nat) (rank : Fin 8) (x : LaneIx), s.blk.dead = false → s.blk.str.loaded = true → RingsApart s.blk →
    s.blk.stored c line = true → s.blk.inLch line = true → huskHolds s.blk.mode c line = .data l → s.blk.pos l = (c.val, line) →
    s.blk.pool.inj = [] → s.blk.markOf c rank = none →
    Does (.huskLineRead c line rank [x]) s (fun t => t.blk.lineVal l = s.blk.lineVal l ∧ (t.blk.reg (Reg.hskErr c)).getLsbD 0 = true ∧
      tget (fun _ => 0) t.blk.aon 204 = min (tget (fun _ => 0) s.blk.aon 204 + 1) (2 ^ 64 - 1))) ∧
  (∀ (s : State) (c : HuskCh) (line l : Nat) (rank : Fin 8) (x y : LaneIx), s.blk.dead = false → s.blk.str.loaded = true →
    RingsApart s.blk → s.blk.mode = 0 → s.blk.stored c line = true → s.blk.inLch line = true → huskHolds 0 c line = .data l →
    s.blk.pos l = (c.val, line) → s.blk.pool.inj = [] → s.blk.markOf c rank = none → x ≠ y → s.blk.inGrain l = false →
    Does (.huskLineRead c line rank [x, y]) s (fun t => t.blk.lineVal l = (zeros 128, true) ∧
      (t.blk.reg (Reg.hskErr c)).getLsbD 1 = true)) ∧
  (∀ (s : State) (ch : GrainCh) (line q f n g : Nat) (x : LaneIx), s.blk.dead = false → s.blk.str.loaded = true → RingsApart s.blk →
    line < 2097152 → grainHolds ch line = .frame q f n → s.blk.granInFrame q f = some g → s.blk.inGrain (lineOfGran g + n) = true →
    s.blk.pool.inj = [] →
    Does (.grainLineRead ch line [x]) s (fun t => t.blk.lineVal (lineOfGran g + n) = s.blk.lineVal (lineOfGran g + n) ∧
      (t.blk.reg (Reg.grnErr (homeOf (lineOfGran g + n)))).getLsbD 0 = true ∧
      tget (fun _ => 0) t.blk.aon 204 = min (tget (fun _ => 0) s.blk.aon 204 + 1) (2 ^ 64 - 1)))

/-- Patrol scrub reads its next line once it is due and moves on by one where it finds no error; a row that is to be spared leaves the list
of those and takes a spare row; and a rebuild writes its next line, where its share of the slots or an idle slot allows it, in mode MIRROR
from the other copy (R345, R350, R352).
INTEGRITY_INJECT answers the WEPOCH of its line, which, or the check line that it names, joins the injected lines; CHANNEL_RELEASE makes its
channel lost with cause 4, its DIMM reset low, where the stook can still serve every line, and is refused 0x96 where it cannot;
CHANNEL_RESTORE puts a lost channel into service with its new DIMMs, their reset high, and starts its rebuild at line 0 (R347, R351, R445).
Each of these completes, that is, exec answers a next state wherever the hypotheses on the state and the operands hold: scrubRead, rowSpare,
rebuildLine, integrityInject, channelRelease, channelRestore. -/
def Obligations.ScrubSparingAndIntegrityCommandsAct : Prop :=
  (∀ (s : State) (c : HuskCh), s.blk.dead = false → s.blk.str.loaded = true → s.blk.asleep = false → s.blk.mode = 0 →
    scrubDue s.blk.tb (s.blk.husk c).scrubAt (s.blk.field (Reg.hskCfg c) 0 8 * 3600000000000) (lchOf s.blk.pool.capGib) = true →
    (s.blk.husk c).lost = false → s.blk.inLch ((s.blk.husk c).scrub + 1) = true → s.blk.pool.inj = [] →
    Does (.scrubRead (.husk c) []) s (fun t => Only [.chans, .aon, .pcs, .pool] s t ∧
      t.blk.pool = { s.blk.pool with used := t.blk.pool.used } ∧ (t.blk.husk c).scrub = (s.blk.husk c).scrub + 1 ∧
      (t.blk.husk c).scrubAt = s.blk.tb)) ∧
  (∀ (s : State) (c : HuskCh),
    scrubDue s.blk.tb (s.blk.husk c).scrubAt (s.blk.field (Reg.hskCfg c) 0 8 * 3600000000000) (lchOf s.blk.pool.capGib) = false →
    exec (.scrubRead (.husk c) []) s = .next s) ∧
  (∀ (s : State) (q : Quad), let n := tget (fun _ => 0) s.blk.chans.scrubG q
    s.blk.dead = false → s.blk.str.loaded = true → s.blk.asleep = false →
    scrubDue s.blk.tb (tget (fun _ => 0) s.blk.chans.scrubGAt q) (s.blk.field (Reg.grnCfg q) 0 8 * 60000000000) (32 * 2097152) = true →
    s.blk.pool.inj = [] → (∀ k f i, grainHolds (32 * q.val + n % 32) (n / 32) = .frame k f i → s.blk.granInFrame k f = none) →
    n + 1 < 32 * 2097152 →
    Does (.scrubRead (.grain q) []) s (fun t => Only [.chans] s t ∧ tget (fun _ => 0) t.blk.chans.scrubG q = n + 1 ∧
      tget (fun _ => 0) t.blk.chans.scrubGAt q = s.blk.tb)) ∧
  (∀ (s : State) (ch : GrainCh) (row : Nat), s.blk.dead = false → s.blk.str.loaded = true → s.blk.asleep = false → s.blk.pool.inj = [] →
    row ∈ (s.blk.grain ch).pending → (s.blk.grain ch).spared.length < 1024 →
    Does (.rowSpare ch row) s (fun t => Only [.chans, .regs] s t ∧ (t.blk.grain ch).spared = (s.blk.grain ch).spared ++ [row] ∧
      row ∉ (t.blk.grain ch).pending)) ∧
  (∀ (s : State) (c : HuskCh), s.blk.dead = false → s.blk.str.loaded = true → s.blk.asleep = false → s.blk.pool.inj = [] →
    (s.blk.husk c).rebuilding = true → s.blk.busyAt c (s.blk.husk c).cursor = false → s.blk.inLch ((s.blk.husk c).cursor + 1) = true →
    (s.blk.takeRebuild (s.blk.field (Reg.hskCfg c) 8 7 * s.blk.huskSlots / 100)
      ((s.blk.stookOf c).1.filter (fun k => !(s.blk.husk k).lost))).isSome = true →
    Does (.rebuildLine c) s (fun t => Only [.chans, .pool, .aon, .pcs] s t ∧ (t.blk.husk c).cursor = (s.blk.husk c).cursor + 1 ∧
      (∀ l, s.blk.mode = 1 → huskHolds 1 c (s.blk.husk c).cursor = .data l → s.blk.aliveB l = true →
        t.blk.copyBytes .huskA l = s.blk.copyBytes .huskB l))) ∧
  (∀ (s : State) (c : CmdId) (r : CmdRec) (n : Nat), MgmtRuns s.blk c 0x60 r →
    let l := lineOf (r.arg 0x08 8)
    r.arg 0x10 1 < 2 → r.arg 0x11 1 < 3 → r.arg 0x12 1 < 3 → r.arg 0x08 8 % 128 = 0 → r.arg 0x18 8 % 128 = 0 → r.arg 0x08 8 < 2 ^ 48 →
    r.arg 0x18 8 + 160 < 2 ^ 48 → (s.blk.check .dev .read l).status = 0 → (s.blk.check .dev .read (lineOf (r.arg 0x18 8))).status = 0 →
    (s.blk.check .dev .read (lineOf (r.arg 0x18 8) + 1)).status = 0 → (s.blk.extRt (s.blk.check .dev .read l).ext).state = .active →
    s.blk.injectCopy l (r.arg 0x10 1) (r.arg 0x11 1) = some n → s.blk.busy l = false →
    Does (.integrityInject c) s (fun t => t.blk.pool.injected.getLast? = some (if n < 3 then l
        else checkName ((checkChans s.blk.mode (homeOf l) (s.blk.pos l)).getD (n - 3) 0) (s.blk.pos l).2) ∧
      Ends s t c r 0 (toLe 1 (t.blk.lineMeta l).wepoch.toNat))) ∧
  (∀ (s : State) (c : CmdId) (r : CmdRec), MgmtRuns s.blk c 0x61 r → r.arg 0x08 1 < 24 →
    let ch := r.arg 0x08 1
    let gone := s.blk.stookGone ch + b2n (!(s.blk.husk ch).lost && !(s.blk.husk ch).rebuilding)
    (gone ≤ (s.blk.stookOf ch).2 → Does (.channelRelease c) s (fun t => (t.blk.husk ch).lost = true ∧ (t.blk.husk ch).cause = 4 ∧
      ch ∈ t.blk.pins.drst ∧ Ends s t c r 0 [])) ∧
    ((s.blk.stookOf ch).2 < gone → Does (.channelRelease c) s (fun t => EndsOnly [] s t c r 0x96 []))) ∧
  (∀ (s : State) (c : CmdId) (r : CmdRec) (ds : List Dimm), MgmtRuns s.blk c 0x62 r → r.arg 0x08 1 < 24 →
    (s.blk.husk (r.arg 0x08 1)).lost = true → dimmsOk ds = true → s.blk.pool.capGib ≤ dimmsGib ds →
    speedBins.getD s.blk.pool.speed 4800 ≤ dimmsMts ds →
    Does (.channelRestore c ds true) s (fun t => EndsOnly [.chans, .pins] s t c r 0 [] ∧
      r.arg 0x08 1 ∉ t.blk.pins.drst ∧ t.blk.pins = { s.blk.pins with drst := t.blk.pins.drst } ∧
      t.blk.husk (r.arg 0x08 1) = { s.blk.husk (r.arg 0x08 1) with trained := true, up := true, lost := false, cause := 0, dimms := ds,
                                                                     rebuilding := true, cursor := 0 }))

/-! ## Tasks and Sheafs -/

/-- An idle Tiller takes the first ready task of its partition. The descriptor that is read again enters the run where its check value is the
stored one, and aborts the Sheaf SHEAF_ALTERED (0x59) where it is not. A JOIN whose turn it is ends with status 0; a NOTIFY without an
atomic does too, and one whose atomic is refused ends with that status and the line's address (R197, R198, R202, R209, R219). That the
descriptor of a JOIN or NOTIFY is read again first is the model's reading (log entry 28).
Each of these completes, that is, exec answers a next state wherever the hypotheses on the state and the operands hold: taskDispatch,
descriptorReread, join, notify. -/
def Obligations.TasksAreDispatched : Prop :=
  (∀ (s : State) (k : TillerIx) (part slot i : Nat) (x : TaskRt), s.blk.halted = false → s.blk.idleFor k = some part →
    s.blk.firstReady k.val part = some (slot, i, x) → s.blk.task slot i = some x →
    Does (.taskDispatch k) s (fun t => t.blk.task slot i = some { x with state := .running (some k.val) } ∧
      ∃ r, (t.blk.til k).run = some r ∧ r.slot = slot ∧ r.task = i ∧ r.part = part ∧ r.kind = x.kind ∧ r.tag = x.tag ∧ r.desc = none ∧
        r.ended = none ∧ r.next = 0 ∧ r.window = [] ∧ r.acc = [])) ∧
  (∀ (s : State) (k : TillerIx), s.blk.idleFor k = none → exec (.taskDispatch k) s = .next s) ∧
  (∀ (s : State) (k : TillerIx) (slot : SlotIx) (i : Nat) (h : HostResult) (z : Sheaf) (x : TaskRt) (r : Run) (d : Bytes)
    (m : Map StoreLine) (b : Blk), s.blk.halted = false → mget s.blk.work.sheafs slot = some z → s.blk.task slot i = some x →
    z.abort = none → z.closed = none → x.state = .running (some k.val) → (s.blk.til k).run = some r → r.slot = slot.val → r.task = i →
    r.desc = none → r.ended = none → s.blk.rereadPart slot i z [] (z.descOff + 128 * i) 128 h = (.bytes d, m, b) →
    (checkValue d x.succ = x.check → Does (.descriptorReread slot i .descriptor h) s (fun t =>
      ∃ r', (t.blk.til k).run = some r' ∧ r'.desc = some d ∧ r'.ended = none)) ∧
    (checkValue d x.succ ≠ x.check → Does (.descriptorReread slot i .descriptor h) s (fun t =>
      ∀ y, mget t.blk.work.sheafs slot = some y → y.abort = some 0x59))) ∧
  (∀ (s : State) (slot : SlotIx) (i : Nat) (x : TaskRt) (z : Sheaf), s.blk.dead = false → s.blk.thrRuns = true →
    mget s.blk.work.sheafs slot = some z → s.blk.thrNext (slot.val / 64) = some (slot.val, i, x) → x.reread = true →
    (x.kind = 0xE → Does (.join slot i) s (fun t => (t.blk.thr (slot.val / 64)).ends = (s.blk.thr (slot.val / 64)).ends ++
      [{ slot := slot, task := i, status := 0, failAddr := 0, tally := {}, at_ := s.blk.tb }])) ∧
    (x.kind = 0xF → u8 (readDesc x.desc).raw 0x21 = 0 → Does (.notify slot i) s (fun t => (t.blk.thr (slot.val / 64)).ends =
      (s.blk.thr (slot.val / 64)).ends ++ [{ slot := slot, task := i, status := 0, failAddr := 0, tally := {}, at_ := s.blk.tb }])) ∧
    (x.kind = 0xF → x.state = .ready →
      let d := readDesc x.desc
      let a : AtmOp := { addr := d.opb, op := if u8 d.raw 0x21 = 1 then 0 else 6, size := 1, operand := d.opc, compare := 0,
                         record := false, atag := 0 }
      let st := (s.blk.atomicInt (notifyReq slot i z.part x) a).1
      u8 d.raw 0x21 ≠ 0 → st ≠ 0 →
      Does (.notify slot i) s (fun t => t.blk.fab = s.blk.fab ∧ (t.blk.thr (slot.val / 64)).ends = (s.blk.thr (slot.val / 64)).ends ++
        [{ slot := slot, task := i, status := st, failAddr := lineOf d.opb * 128, tally := {}, at_ := s.blk.tb }])))

/-- A row task makes its last row step and ends with status 0 once its lines are in the local store, and the result line that becomes final is
written: GATHER, SCATTER, QUANT, DEQUANT, REDUCE, TOPK, ELEMWISE, NORM, COPY, FILL and DIGEST; where the results lie in one line
(R174, R182 to R190).
Each of these completes, that is, exec answers a next state wherever the hypotheses on the state and the operands hold: gather, scatter, quant,
dequant, reduce, topk, elemwise, norm, copy, fill, digest. -/
def Obligations.RowTasksWriteTheirResults : Prop :=
  ∀ (s : State) (k : TillerIx) (i : Instr) (r r2 : Run) (db : Bytes) (l : Nat) (e : ResLine),
    (i, r.kind) ∈ [(Instr.gather k, 0x3), (Instr.scatter k, 0x4), (Instr.quant k, 0x5), (Instr.dequant k, 0x6), (Instr.reduce k, 0x7),
      (Instr.topk k, 0x8), (Instr.elemwise k, 0x9), (Instr.norm k, 0xA), (Instr.copy k, 0xB), (Instr.fill k, 0xC), (Instr.digest k, 0xD)] →
    Runs s.blk k r db → (readDesc db).kind = r.kind → LastRow s.blk r r2 (readDesc db) → r2.res = [(l, e)] →
    (r.kind = 0x4 ∨ e.mask = resMask (readDesc db).resRegions l) → WritesNow s.blk (tilReq k r2) l →
    Does i s (fun t => t.blk.lineVal l = lineAfter s.blk l e.bytes e.mask e.poison ∧
      ∃ r3, (t.blk.til k).run = some r3 ∧ r3.ended = some (0, 0) ∧ r3.res = [])

/-- A dot-product task folds its entries in block order. ENTRY_FOLD adds the partial of an entry to its accumulator as R140 gives it, or the
shadow partial where it has one; the last entry ends the task, by MATVEC, MATMUL, ATTEND or ENTRY_FOLD; an unresolved escalation ends it
AWN_UNRESOLVED where the control word says so, and an entry that names a stop ends it with that (R140, R150 to R154).
The commit window and the end of a task: an issued block enters the window once its lines are in the local store; a line that has landed
enters the store; the shadow of the entry that waits is taken; a refused result write ends the task with its status, and what it had counted
is taken back; and a task whose
writes have completed frees its Tiller and reports its end to its Thresher (R149, R152, R166, R174, R210).
Each of these completes, that is, exec answers a next state wherever the hypotheses on the state and the operands hold: entryFold, blockIssue,
operandLineArrive, shadowBlockArrive, resultWriteRefused, taskEnd, matvec, matmul, attend. -/
def Obligations.TillersIssueFoldAndEnd : Prop :=
  (∀ (s : State) (k : TillerIx) (i : Instr) (r : Run) (db : Bytes) (e : WinEnt),
    (i = .entryFold k ∨ (i, r.kind) ∈ [(Instr.matvec k, 0x0), (Instr.matmul k, 0x1), (Instr.attend k, 0x2)]) →
    Runs s.blk k r db → HeadFolds r (readDesc db) e [] → e.index + 1 = (readDesc db).indices →
    Does i s (fun t => tget (fun _ => 0) t.blk.aon k = min (tget (fun _ => 0) s.blk.aon k + (readDesc db).entrySteps e) (2 ^ 64 - 1) ∧
      ∃ r3, (t.blk.til k).run = some r3 ∧ r3.window = [] ∧ r3.ended.isSome = true)) ∧
  (∀ (s : State) (k : TillerIx) (r : Run) (db : Bytes) (e : WinEnt) (rest : List WinEnt) (p : DotPair) (a : Word),
    Runs s.blk k r db → HeadFolds r (readDesc db) e rest → ((readDesc db).index e.index).b + 1 ≠ (readDesc db).k / 32 →
    e.index + 1 ≠ (readDesc db).indices → e.pairs = [p] → mget r.acc p.out = some a → r.res = [] →
    Does (.entryFold k) s (fun t => ∃ r3, (t.blk.til k).run = some r3 ∧ r3.window = rest ∧ r3.ended = none ∧
      mget r3.acc p.out = some (accumulate a (match p.shadow with | some x => x.1 | none => p.part)).1 ∧
      (∀ o, o ≠ p.out → mget r3.acc o = mget r.acc o))) ∧
  (∀ (s : State) (k : TillerIx) (r : Run) (db : Bytes) (e : WinEnt) (rest : List WinEnt) (st : Nat × Nat),
    Runs s.blk k r db → r.window = e :: rest → e.wait = false → e.stop = some st →
    Does (.entryFold k) s (fun t => ∃ r3, (t.blk.til k).run = some r3 ∧ r3.ended = some st ∧ r3.window = [] ∧ r3.acc = [])) ∧
  (∀ (s : State) (k : TillerIx) (r : Run) (db : Bytes) (e : WinEnt) (rest : List WinEnt) (w : Awn), Runs s.blk k r db →
    r.window = e :: rest → e.wait = false → e.stop = none → readAwn (readDesc db).awn (fmtAt (readDesc db).fa) = some w → w.fail = true →
    e.pairs.any (fun p => p.esc && p.shadow.isNone) = true →
    Does (.entryFold k) s (fun t => ∃ r3, (t.blk.til k).run = some r3 ∧ r3.ended = some (0x41, 0))) ∧
  (∀ (s : State) (k : TillerIx) (r : Run) (db : Bytes), Runs s.blk k r db → r.kind ≤ 2 → r.window.length < 64 →
    r.next < (readDesc db).indices → r.hasAll (s.blk.entryLines (readDesc db) r.store r.next).1 = true →
    Does (.blockIssue k) s (fun t => ∃ r3 e, (t.blk.til k).run = some r3 ∧ r3.next = r.next + 1 ∧ r3.window = r.window ++ [e] ∧
      e.index = r.next ∧ e.lines = (s.blk.entryLines (readDesc db) r.store r.next).1)) ∧
  (∀ (s : State) (k : TillerIx) (a : Addr) (r : Run) (x : Landed), s.blk.dead = false → (s.blk.til k).run = some r → r.ended = none →
    mget r.store (lineOf a.toNat) = none → s.blk.coh.landed = [x] → x.who = .tiller k → x.write = false → x.line = lineOf a.toNat →
    Does (.operandLineArrive k a) s (fun t => t.blk.coh.landed = [] ∧ ∃ r3, (t.blk.til k).run = some r3 ∧
      mget r3.store (lineOf a.toNat) = some (if x.status = 0 then ⟨0, x.bytes, x.poison⟩ else ⟨x.status, [], false⟩))) ∧
  (∀ (s : State) (k : TillerIx) (r : Run) (db : Bytes) (e : WinEnt), Runs s.blk k r db → r.window = [e] → e.wait = true →
    r.hasAll ((readDesc db).shadowLines e) = true → r.refused ((readDesc db).shadowLines e) = none →
    Does (.shadowBlockArrive k) s (fun t => ∃ r3 e3, (t.blk.til k).run = some r3 ∧ r3.window = [e3] ∧ e3.wait = false ∧
      (∀ p ∈ e3.pairs, p.esc = true → p.shadow.isSome = true))) ∧
  (∀ (s : State) (k : TillerIx) (r : Run) (x : Landed) (a : Nat), s.blk.dead = false → (s.blk.til k).run = some r → r.recSent = false →
    r.ended = some (0, a) → s.blk.coh.landed = [x] → x.who = .tiller k → x.write = true →
    Does (.resultWriteRefused k) s (fun t => Only [.coh, .work, .regs] s t ∧ t.blk.coh.landed = [] ∧
      (t.blk.til k).run = some { r.unwrite x.line with ended := some (x.status, x.line * 128) })) ∧
  (∀ (s : State) (k : TillerIx) (r : Run) (st a : Nat), s.blk.halted = false → (s.blk.til k).run = some r → r.ended = some (st, a) →
    s.blk.pwr.move = none → s.blk.pendingInt (.tiller k) = false → s.blk.badWrite (.tiller k) = none → r.recSent = false →
    ((s.blk.task r.slot r.task).map (fun x => (readDesc x.desc).safe)).getD false = false →
    Does (.taskEnd k) s (fun t => Only [.coh, .work, .regs] s t ∧ (t.blk.til k).run = none ∧
      (t.blk.thr (r.slot / 64)).ends = (s.blk.thr (r.slot / 64)).ends ++
        [{ slot := r.slot, task := r.task, status := st, failAddr := a, tally := r.tally, at_ := s.blk.tb }]))

/-- A Thresher admits the Submit that has waited longest where its image passes orders 1 to 7, and answers its slot; an image whose header
does not read is rejected SHEAF_MALFORMED. A task end that is processed ends the task with its status; with status 0 a successor whose last
predecessor it was becomes ready or is held; under policy 0 a failure aborts the Sheaf. A held task enters its queue where there is room,
with the stamp of the moment at which it became ready, an expired watchdog aborts its Sheaf, and a prefetch goes to the Tiller that runs a
predecessor, unless a read of it is refused or poisoned (R200, R207, R208, R211, R212, R214, R216). A reservation stands while the image's
fetch waits.
Each of these completes, that is, exec answers a next state wherever the hypotheses on the state and the operands hold: sheafAdmission, taskEndReport,
heldTaskEnqueue, sheafWatchdog, prefetch. -/
def Obligations.SheafsAreAdmittedAndEnd : Prop :=
  (∀ (s : State) (q : Quad) (h : HostResult) (r : SubmitReq) (rest : List SubmitReq) (hb : Bytes) (g : Blk), s.blk.dead = false →
    s.blk.closing = false →
    (s.blk.thr q).wait = r :: rest → (s.blk.thr q).room = none → s.blk.imageBytes q r 128 h = (.bytes hb, g) →
    readHeader (hb.take 128) = none →
    Does (.sheafAdmission q h) s (fun t => (t.blk.thr q).wait = rest ∧ t.blk.work.sheafs = s.blk.work.sheafs ∧
      (t.blk.reg (Reg.thrErr q)).getLsbD 0 = true ∧ (t.blk.reg (Reg.thrLastReject q)).toNat % 65536 = 0x50)) ∧
  (∀ (s : State) (q : Quad) (h : HostResult) (r : SubmitReq) (rest : List SubmitReq) (hb img : Bytes) (g i : Blk) (hd : Header)
    (slot v : Nat) (ts : List (Desc × List Nat)), s.blk.dead = false → s.blk.closing = false → (s.blk.thr q).wait = r :: rest →
      (s.blk.thr q).room = none →
    s.blk.imageBytes q r 128 h = (.bytes hb, g) → readHeader (hb.take 128) = some hd → g.spanActive q r.part hd.record 128 = true →
    hd.statusArr = 0 → g.freeSlot q = some slot → hd.tasks ≤ g.taskFree q →
    g.sheafsHeld r.part < (if r.part = 0 then 16 else ((mget (g.thrView q).parts r.part).map (·.sheafMax)).getD 0) →
    let held := (g.modThr q (fun t => { t with room := some (slot, hb.take 128) })).imageBytes q r hd.length h
    (held = (.wait, i) → Gives (.sheafAdmission q h) s i) ∧
    (held = (.bytes img, i) → i.judgeImage q r hd img = .ok (ts, v) →
      Does (.sheafAdmission q h) s (fun t => (t.blk.thr q).wait = rest ∧ ∃ z, mget t.blk.work.sheafs slot = some z ∧ z.part = r.part ∧
      z.cookie = r.cookie ∧ z.tasks.length = ts.length ∧ z.abort = none ∧ z.closed = none ∧ z.visits = v))) ∧
  (∀ (s : State) (q : Quad) (e : EndRec) (rest : List EndRec) (z : Sheaf) (x : TaskRt), s.blk.dead = false →
    (∀ y ∈ s.blk.owned q, y.2.closed = none ∧ ∃ u ∈ y.2.tasks, u.state ≠ .ended) → (s.blk.thr q).ends = e :: rest →
    s.blk.needsReread e = false ∨ e.reread = true → mget s.blk.work.sheafs e.slot = some z → s.blk.task e.slot e.task = some x →
    z.abort = none → z.closed = none → e.status ≠ 0x49 →
    Does (.taskEndReport q) s (fun t =>
      (∃ l, (t.blk.thr q).ends = rest ++ l ∧ (∀ y ∈ l, y.slot = e.slot ∧ y.status = 0x49) ∧
        ((isFailure e.status = true → z.policy ≠ 1) → l = [])) ∧
      (∀ u, t.blk.task e.slot e.task = some u → u.state = .ended) ∧
      (∀ (j : Nat) (u : TaskRt), e.status = 0 → x.succ = [j] → j ≠ e.task → s.blk.task e.slot j = some u → u.deps = 1 → u.state = .waiting →
        ∃ w, t.blk.task e.slot j = some w ∧ w.deps = 0 ∧ (w.state = .ready ∨ w.state = .held)) ∧
      (isFailure e.status = true → z.policy = 0 → ∀ y, mget t.blk.work.sheafs e.slot = some y → y.abort = some 0x5D))) ∧
  (∀ (s : State) (q : Quad) (slot i : Nat) (z : Sheaf) (x : TaskRt), s.blk.dead = false → heldTasks s.blk q = [(slot, i, x)] →
    mget s.blk.work.sheafs slot = some z → s.blk.task slot i = some x → s.blk.queueRoom q z.part = true →
    Does (.heldTaskEnqueue q) s (fun t => Only [.work] s t ∧ t.blk.task slot i = some { x with state := .ready, queuedAt := s.blk.tb })) ∧
  (∀ (s : State) (slot : SlotIx), s.blk.dead = false → s.blk.frozen = false → s.blk.pwr.state ≠ 3 → s.blk.wdogDue slot = true →
    Does (.sheafWatchdog slot) s (fun t => ∀ z, mget t.blk.work.sheafs slot = some z → z.abort = some 0x5B)) ∧
  (∀ (s : State) (slot : SlotIx), s.blk.wdogDue slot = false → exec (.sheafWatchdog slot) s = .next s) ∧
  (∀ (s : State) (q : Quad) (slot i k : Nat) (z : Sheaf) (x : TaskRt), s.blk.halted = false →
    s.blk.preCount q < s.blk.field (Reg.thrPrefetchCfg q) 0 6 → prefetchable s.blk q = [(slot, i, x)] →
    mget s.blk.work.sheafs slot = some z → s.blk.preTiller slot z i = some k →
    Does (.prefetch q) s (fun t =>
      (badLines (s.blk.preRead q slot i k z x).2 = false →
        ∃ p ∈ (t.blk.til k).pre, p.slot = slot ∧ p.task = i ∧ p.lines = (s.blk.preRead q slot i k z x).2) ∧
      (badLines (s.blk.preRead q slot i k z x).2 = true → ∀ p ∈ (t.blk.til k).pre, ¬ (p.slot = slot ∧ p.task = i))))

/-! ## Placement, policing and codewords: rules of the manual as they stand -/

/-- Pool address decode, the Grain frames and their placement: a quadrant's Grain channels hold 3,968 frames above the directory reserve, and
nothing else. -/
def Obligations.PoolAddressesDecodeAndLieInFrames : Prop :=
  (∀ a, a < 2 ^ 48 → granOf (lineOf a) = a / 2 ^ 21 ∧ homeOf (lineOf a) = a / 2 ^ 21 % 4 ∧ lineIn (lineOf a) = a / 2 ^ 7 % 2 ^ 14 ∧
    dataIx (lineOf a) = a / 2 ^ 21 / 4 * 16384 + a / 2 ^ 7 % 2 ^ 14) ∧
  (∀ g, homeOf (lineOfGran (g + 1)) = (homeOf (lineOfGran g) + 1) % 4) ∧
  (∀ l f, f < 3968 → grainPos l f = (32 * homeOf l + lineIn l % 32, 65536 + f * 512 + lineIn l / 32) ∧
    (grainPos l f).2 < 2097152 ∧ grainHolds (grainPos l f).1 (grainPos l f).2 = .frame (homeOf l) f (lineIn l)) ∧
  (∀ ch line, ch < 128 → line < 2097152 →
    match grainHolds ch line with
    | .reserve q s => line < 65536 ∧ q = ch / 32 ∧ s = line * 32 + ch % 32
    | .frame q f n => 65536 ≤ line ∧ q = ch / 32 ∧ f < 3968 ∧ n < 16384 ∧ ch = 32 * q + n % 32 ∧ line = 65536 + f * 512 + n / 32)

/-- The placement of data line d of quadrant q on the Husk channels, with its protection lines, in each mode; under DEV_P the slots of 24 rows
are taken in the order of rows and channels, without the check channels of each row. The placement is one to one: a channel's line holds the
data line that is placed on it, under MIRROR on both channels of the pair, and a check line of QUAD_P or DEV_P holds no data line. A channel
of C GiB has C GiB / 128 B lines. -/
def Obligations.HuskPlacementIsOneToOne : Prop :=
  (∀ gib, lchOf gib = gib * 2 ^ 30 / 128) ∧
  (∀ q d, q < 4 →
    homeOf (lineAt q d) = q ∧ dataIx (lineAt q d) = d ∧
    huskPos 0 q d = (6 * q + d % 6, d / 6) ∧ checkChans 0 q (huskPos 0 q d) = [] ∧
    huskPos 1 q d = (6 * q + 2 * (d % 3), d / 3) ∧ mirrorPos (huskPos 1 q d) = (6 * q + 2 * (d % 3) + 1, d / 3) ∧
    huskPos 2 q d = (6 * q + (if d % 5 < d / 5 % 6 then d % 5 else d % 5 + 1), d / 5) ∧
    checkChans 2 q (huskPos 2 q d) = [6 * q + d / 5 % 6] ∧
    (let p := huskPos 3 q d;
      24 * (d / 132) ≤ p.2 ∧ p.2 < 24 * (d / 132) + 24 ∧ p.1 ≠ p.2 % 24 ∧ p.1 ≠ (p.2 + 1) % 24 ∧
      checkChans 3 q p = [p.2 % 24, (p.2 + 1) % 24] ∧
      (∀ e, e < d → (huskPos 3 q e).2 < p.2 ∨ ((huskPos 3 q e).2 = p.2 ∧ (huskPos 3 q e).1 < p.1)) ∧
      (∀ k a, 6 * q ≤ k → k < 6 * q + 6 → k ≠ a % 24 → k ≠ (a + 1) % 24 → ∃ e, huskPos 3 q e = (k, a))) ∧
    (∀ mode, mode < 4 → huskHolds mode (huskPos mode q d).1 (huskPos mode q d).2 = .data (lineAt q d) ∧
      6 * q ≤ (huskPos mode q d).1 ∧ (huskPos mode q d).1 < 6 * q + 6) ∧
    huskHolds 1 (mirrorPos (huskPos 1 q d)).1 (mirrorPos (huskPos 1 q d)).2 = .mirror (lineAt q d) ∧
    (∀ mode c, mode = 2 ∨ mode = 3 → c ∈ checkChans mode q (huskPos mode q d) →
      ∃ ix, huskHolds mode c (huskPos mode q d).2 = .check ix))

/-- A KIND 3 policer, at levels refilled to the present: a message whose cost does not exceed the level is green and charged; any other is red
and charges nothing. Levels are in thousandths of a byte (R288). -/
def Obligations.SingleRatePolicerJudges : Prop :=
  ∀ (r : TrafRt) (now n : Nat) (pre : Bool), r.ent.kind = 3 →
    let q := r.refill now
    q.levC = min (r.levC + r.ent.cir * (now - r.evalAt : Nat)) (r.ent.cbs * 1000) ∧
    ((n : Int) * 1000 ≤ q.levC → (q.judge n pre false).1 = .green ∧ (q.judge n pre false).2.levC = q.levC - n * 1000) ∧
    (q.levC < (n : Int) * 1000 → (q.judge n pre false).1 = .red ∧ (q.judge n pre false).2.levC = q.levC)

/-- A received codeword is decoded: corrected symbols, 15 at most, are counted, and an uncorrectable one is counted and marks the flits that it
touches bad, each of which then fails its CRC: it is discarded, counted and answered with a NAK (R265, R275). One NAK for each bad flit is the
model's reading (log entry 22); the field, the generator and the order of symbols of the code are the model's too, and that a
codeword holds 5,140 bits of flits one after another (R264, log entry 83).
Each of these completes, that is, exec answers a next state wherever the hypotheses on the state and the operands hold: codewordReceive. -/
def Obligations.CodewordsAreCountedAndMarked : Prop :=
  (∀ (s : State) (n : PortIx) (c : Codeword) (k : Nat), s.blk.dead = false → cwDecode c = some k →
    k ≤ 15 ∧ Does (.codewordReceive n c) s (fun t => Only [.regs, .fab] s t ∧
      (t.blk.reg (Reg.lnkFecCorrCnt n)).toNat = min ((s.blk.reg (Reg.lnkFecCorrCnt n)).toNat + k) 0xFFFFFFFF ∧
      t.blk.link n = { (s.blk.link n).cwNext false with uncorrRun := 0 } ∧
      ∀ m : PortIx, m ≠ n → t.blk.link m = s.blk.link m)) ∧
  (∀ (s : State) (n : PortIx) (c : Codeword), s.blk.dead = false → (s.blk.link n).live = true → cwDecode c = none →
    let k := (s.blk.link n).cwFlits
    Does (.codewordReceive n c) s (fun t => Only [.regs, .fab, .aon] s t ∧
      (t.blk.reg (Reg.lnkFecUncorrCnt n)).toNat = min ((s.blk.reg (Reg.lnkFecUncorrCnt n)).toNat + 1) 0xFFFFFFFF ∧
      (t.blk.reg (Reg.lnkCrcErrCnt n)).toNat = min ((s.blk.reg (Reg.lnkCrcErrCnt n)).toNat + k) 0xFFFFFFFF ∧
      (t.blk.link n).rx = (s.blk.link n).rx ∧ (t.blk.link n).rxNext = (s.blk.link n).rxNext ∧
      (t.blk.link n).out.length = (s.blk.link n).out.length + k ∧ 16 ≤ k ∧ (t.blk.link n).wait = true))

/-! ## The fabric -/

/-- A die-to-die unit with a good CRC is accepted once, and one with a bad CRC changes nothing; a retry is counted, and the 8th failure in a row
fails the link. The last unit of a worm brings it to its die. A worm that passes the hop limit is discarded, and one whose preferred port is
free leaves there whole, where no older head waits at its router. A request packet that passes the checks of ejection does what the command of
its message does: an RdOnce of a free line is answered with its data. The first packet of a WrBulk opens its reorder context. One whose
E2E_CRC is wrong is discarded and counted.
A message that may enter leaves on its port. Time limits discard reorder contexts and requests, and a POLICED notice that is due is sent
(R32, R33, R247, R248, R250, R252 to R255, R258, R290).
Each of these completes, that is, exec answers a next state wherever the hypotheses on the state and the operands hold: d2dUnitReceive,
d2dRetryRequest, wormHeadRoute, packetEject, packetInject, reorderTimeout, requestTimeout, policed. -/
def Obligations.FabricMovesMessages : Prop :=
  (∀ (s : State) (x y : Die) (n : BitVec 12), s.blk.dead = false → s.blk.d2dOk x y = true →
    Does (.d2dUnitReceive x y n true) s (fun t => Only [.fab] s t ∧
      n.toNat ∈ (t.blk.d2d x y).accepted)) ∧
  (∀ (s : State) (x y : Die) (n : BitVec 12) (u : D2dUnit) (w : Worm), s.blk.dead = false → s.blk.d2dOk x y = true →
    (s.blk.d2d x y).buf = [u] → u.seq = n.toNat → n.toNat ∉ (s.blk.d2d x y).accepted → mget (s.blk.d2d x y).worms u.worm = some w →
    Does (.d2dUnitReceive x y n true) s (fun t => Only [.fab] s t ∧ (t.blk.d2d x y).buf = [] ∧
      (y.val ≠ 4 → t.blk.fab.arr = s.blk.fab.arr ++ [⟨y.val, x.val, w⟩]) ∧
      (y.val = 4 → t.blk.fab.ejq = s.blk.fab.ejq ++ [⟨4, w.hdr, w.payload⟩]))) ∧
  (∀ (s : State) (x y : Die) (n : BitVec 12), exec (.d2dUnitReceive x y n false) s = .next s) ∧
  (∀ (s : State) (x y : Die) (n : BitVec 12), s.blk.dead = false → s.blk.d2dOk x y = true →
    let k := tget (fun _ => 0) (s.blk.d2d x y).tries n.toNat
    (k < 7 → Does (.d2dRetryRequest x y n) s (fun t => Only [.fab, .regs, .aon] s t ∧ t.blk.fab.d2dFailed = s.blk.fab.d2dFailed ∧
      (t.blk.d2d x y).buf = (s.blk.d2d x y).buf ∧ tget (fun _ => 0) (t.blk.d2d x y).tries n.toNat = k + 1)) ∧
    (7 ≤ k → Does (.d2dRetryRequest x y n) s (fun t => t.blk.fab.d2dFailed = s.blk.fab.d2dFailed ++ [d2dName x y] ∧
      t.blk.dead = t.blk.d2dLost))) ∧
  (∀ (s : State) (q : Quad) (src : Quad) (p : Packet), s.blk.dead = false → s.blk.field Reg.nrmHopCfg 0 6 ≤ hdrHops p.hdr →
    (∀ e ∈ s.blk.heads q, headKey p.hdr (12 + src.val) ≤ e.1) →
    Does (.wormHeadRoute q (.d2d src p)) s (fun t => Only [.fab, .regs, .aon] s t ∧ t.blk.fab.links = s.blk.fab.links ∧
      (t.blk.reg (Reg.nrmRtErr q)).getLsbD 0 = true ∧ (t.blk.reg (Reg.nrmDropHopCnt q)).toNat = min ((s.blk.reg (Reg.nrmDropHopCnt q)).toNat + 1) 0xFFFFFFFF)) ∧
  (∀ (s : State) (q : Quad) (src : Quad) (p : Packet) (n : Nat), s.blk.dead = false → hdrHops p.hdr < s.blk.field Reg.nrmHopCfg 0 6 →
    hfld p.hdr 31 16 ≠ (s.blk.view (.router q)).self → s.blk.sprayUp q (hfld p.hdr 31 16) = some [n] → n / 12 = q.val →
    (∀ part, s.blk.portFree n part (hdrFlits p.hdr + 1) = true) → (∀ e ∈ s.blk.heads q, headKey p.hdr (12 + src.val) ≤ e.1) →
    Does (.wormHeadRoute q (.d2d src p)) s (fun t => (t.blk.link n).held.length = (s.blk.link n).held.length + 1 + hdrFlits p.hdr ∧
      (t.blk.link n).held.take (s.blk.link n).held.length = (s.blk.link n).held ∧
      ((t.blk.link n).held.drop (s.blk.link n).held.length).map (·.ty) = 0x1 :: List.replicate (hdrFlits p.hdr) 0x2)) ∧
  (∀ (s : State) (q : Quad) (p : Packet) (ty : Nat) (i : Instr), PacketIn s.blk q p ty →
    let a : Addr := BitVec.ofNat 48 ((hdrArg p.hdr).toNat % 2 ^ 48)
    let id : BitVec 16 := BitVec.ofNat 16 (fld (hdrArg p.hdr).toNat 63 48)
    let r := hdrReq p.hdr false
    (ty, i) ∈ [(0xC0, .rds r a), (0xC1, .rdx r a), (0xC2, .rdonce r a), (0x41, .rspi r a id), (0x42, .rsps r a id), (0x43, .rspcur r a id),
      (0x44, .rspwbpend r a id), (0x45, .cmpack r a id), (0xD0, .lease r (bit (hdrArg p.hdr).toNat 0)), (0xD6, .agentRegister r)] →
    exec (.packetEject q p) s =
      exec i { s with blk := (s.blk.takeEjected q p).event (60 + q) 2 (some (s.blk.hostPart (hfld p.hdr 47 32))) }) ∧
  (∀ (s : State) (q : Quad) (p : Packet) (b : Blk) (c : Checked), PacketIn s.blk q p 0xC2 →
    let a : Addr := BitVec.ofNat 48 ((hdrArg p.hdr).toNat % 2 ^ 48)
    let r := hdrReq p.hdr false
    ReqIn ((s.blk.takeEjected q p).event (60 + q) 2 (some (s.blk.hostPart (hfld p.hdr 47 32)))) b r a 0xC2 [0] .read c →
    a.toNat % 128 = 0 → LineFree b (lineOf a.toNat) →
    Does (.packetEject q p) s (fun t => Sends t (homeOf (lineOf a.toNat)) 0x02 r.src.toNat 0 (b.lineVal (lineOf a.toNat)).1)) ∧
  (∀ (s : State) (q : Quad) (p : Packet), PacketIn s.blk q p 0xC6 → s.blk.fab.ctxs = [] → hfld p.hdr 71 64 = 0 → hfld p.hdr 6 6 = 0 →
    Does (.packetEject q p) s (fun t => ∃ x, t.blk.fab.ctxs = [x] ∧ x.home = q ∧ x.src = hfld p.hdr 47 32 ∧ x.msgId = hfld p.hdr 63 48 ∧
      x.arg = hdrArg p.hdr ∧ x.openedAt = s.blk.tb ∧ x.expected = none ∧ x.got.map (·.1) = [0] ∧ t.blk.pool = s.blk.pool ∧
      t.blk.coh = s.blk.coh)) ∧
  (∀ (s : State) (q : Quad) (p : Packet), s.blk.dead = false → s.blk.str.loaded = true →
    e2eCrc p.hdr (fit (hfld p.hdr 88 80) p.payload) ≠ hfld p.hdr 255 224 →
    Does (.packetEject q p) s (fun t => Only [.fab, .regs, .aon, .pcs] s t ∧ t.blk.fab.links = s.blk.fab.links ∧
      (t.blk.reg (Reg.nrmRtErr q)).getLsbD 3 = true)) ∧
  (∀ (s : State) (q : Quad) (m : Msg) (n : Nat), s.blk.dead = false → tget (fun _ => []) s.blk.fab.inj q = [m] → m.ty ≠ 0x06 →
    m.psn = 0 → s.blk.shaper m.dst (tcOf m.ty) = none → s.blk.injectOut q m = .port n → s.blk.heads q = [] →
    Does (.packetInject q) s (fun t => tget (fun _ => []) t.blk.fab.inj q = [] ∧
      (s.blk.link n).held.length < (t.blk.link n).held.length)) ∧
  (∀ (s : State) (q : Quad) (src : Eid) (id : BitVec 16) (c : Ctx), s.blk.dead = false → s.blk.fab.ctxs = [c] → c.home = q.val →
    c.src = src.toNat → c.msgId = id.toNat →
    (c.openedAt + c.timeoutUs * 1000 ≤ s.blk.tb → Does (.reorderTimeout q src id) s (fun t => Only [.fab, .regs, .aon] s t ∧
      t.blk.fab.ctxs = [] ∧ (t.blk.reg (Reg.nrmRtErr q)).getLsbD 5 = true)) ∧
    (s.blk.tb < c.openedAt + c.timeoutUs * 1000 → exec (.reorderTimeout q src id) s = .next s)) ∧
  (∀ (s : State) (dst : Eid) (id : BitVec 16) (r : OutReq), s.blk.dead = false → s.blk.fab.outReqs = [r] → r.dst = dst.toNat →
    r.msgId = id.toNat →
    (r.deadline ≤ s.blk.tb → Does (.requestTimeout dst id) s (fun t => Only [.fab, .regs] s t ∧ t.blk.fab.outReqs = [] ∧
      (t.blk.reg (Reg.nrmRtErr r.home)).getLsbD 7 = true)) ∧
    (s.blk.tb < r.deadline → exec (.requestTimeout dst id) s = .next s)) ∧
  (∀ (s : State) (e : Eid) (c : BitVec 2) (p : Policed), s.blk.dead = false → mget s.blk.fab.policed (e.toNat * 4 + c.toNat) = some p →
    p.lastAt + 100000 ≤ s.blk.tb → p.dropped ≠ 0 → mhas (s.blk.view (.router (Fin.ofNat 4 p.home))).eids e.toNat = true →
    Does (.policed e c) s (fun t => Sends t p.home 0x4B e.toNat 0 [] ∧
      mget t.blk.fab.policed (e.toNat * 4 + c.toNat) = some { p with lastAt := s.blk.tb, dropped := 0 }))

/-! ## The link layer -/

/-- Flits received on a link that is UP. An acknowledgement frees the flits up to it and one out of range is ignored; a HEAD starts a packet
and a DATA flit joins the one that waits for its route, and each advances RX_NEXT; a duplicate changes neither; an ABORT discards the
packet that it ends; a NAK frees the flits up to its ACK and resends the rest; PORT_CLOSING closes the link, and PORT_CLOSED ends the
close; a flit that fails its CRC is answered with a NAK (R273 to R276, R281, R286).
Each of these completes, that is, exec answers a next state wherever the hypotheses on the state and the operands hold: idleFlit, headFlit, dataFlit,
abort, nak, portClosing, portClosed, flitCrcFail. -/
def Obligations.LinkFlitsAreReceived : Prop :=
  (∀ (s : State) (n : PortIx) (f : Flit), s.blk.dead = false → (s.blk.link n).state = .up → (s.blk.link n).asked = false → flitOk 0x0 f = true →
    f.ackV = true →
    let m := (f.ack.toNat + 4097 - (s.blk.link n).txOldest) % 4096
    (m ≤ (s.blk.link n).held.length → 0 < m → Does (.idleFlit n f) s (fun t => Only [.fab, .aon] s t ∧
      (t.blk.link n).held = (s.blk.link n).held.drop m ∧ (t.blk.link n).txOldest = ((s.blk.link n).txOldest + m) % 4096)) ∧
    ((s.blk.link n).held.length < m ∨ m = 0 → Does (.idleFlit n f) s (fun t => (t.blk.link n).held = (s.blk.link n).held ∧
      (t.blk.link n).txOldest = (s.blk.link n).txOldest))) ∧
  (∀ (s : State) (n : PortIx) (f : Flit), FlitNext s.blk n 0x1 f →
    let h : BitVec 256 := BitVec.ofNat 256 (le f.payload 0 32)
    Does (.headFlit n f) s (fun t => (t.blk.link n).rxNext = ((s.blk.link n).rxNext + 1) % 4096 ∧
      (t.blk.link n).rx = (s.blk.link n).rx ++ [{ hdr := h, left := hdrFlits h }] ∧ (t.blk.link n).skip = false)) ∧
  (∀ (s : State) (n : PortIx) (f : Flit), s.blk.dead = false → (s.blk.link n).live = true → flitOk 0x1 f = true →
    let d := ((s.blk.link n).rxNext + 4096 - f.seq.toNat) % 4096
    d ≠ 0 → d ≤ 1536 → Does (.headFlit n f) s (fun t => Only [.fab, .aon] s t ∧ (t.blk.link n).rxNext = (s.blk.link n).rxNext ∧
      (t.blk.link n).rx = (s.blk.link n).rx)) ∧
  (∀ (s : State) (n : PortIx) (f : Flit) (p : RxPkt), FlitNext s.blk n 0x2 f → (s.blk.link n).skip = false → (s.blk.link n).rx = [p] →
    1 < p.left → p.routed = false →
    Does (.dataFlit n f) s (fun t => (t.blk.link n).rxNext = ((s.blk.link n).rxNext + 1) % 4096 ∧
      (t.blk.link n).rx = [{ p with left := p.left - 1, body := p.body ++ [fit 32 f.payload] }])) ∧
  (∀ (s : State) (n : PortIx) (f : Flit) (p : RxPkt), FlitNext s.blk n 0x3 f → (s.blk.link n).skip = false → (s.blk.link n).rx = [p] →
    p.left ≠ 0 → s.blk.holdOf n = none →
    Does (.abort n f) s (fun t => (t.blk.link n).rxNext = ((s.blk.link n).rxNext + 1) % 4096 ∧ (t.blk.link n).rx = [] ∧
      (t.blk.link n).skip = false ∧
      (t.blk.reg (Reg.lnkTruncCnt n)).toNat = min ((s.blk.reg (Reg.lnkTruncCnt n)).toNat + 1) 0xFFFFFFFF)) ∧
  (∀ (s : State) (n : PortIx) (f : Flit), s.blk.dead = false → (s.blk.link n).state = .up → (s.blk.link n).asked = false → flitOk 0x4 f = true →
    let m := (f.ack.toNat + 4097 - (s.blk.link n).txOldest) % 4096
    m ≤ (s.blk.link n).held.length → 0 < m →
    Does (.nak n f) s (fun t => (t.blk.link n).state = .up ∧ (t.blk.link n).held = (s.blk.link n).held.drop m ∧
      (t.blk.link n).out.length = (s.blk.link n).out.length + ((s.blk.link n).held.length - m))) ∧
  (∀ (s : State) (n : PortIx) (f : Flit), FlitNext s.blk n 0x5 f → (s.blk.link n).state = .up → (s.blk.link n).gotClosed = false →
    Does (.portClosing n f) s (fun t => (t.blk.link n).state = .closing ∧ (t.blk.link n).gotClosing = true)) ∧
  (∀ (s : State) (n : PortIx) (f : Flit), FlitNext s.blk n 0x5 f → (s.blk.link n).asked = true → (s.blk.link n).sentClosing = true →
    (s.blk.link n).sentClosed = true →
    Does (.portClosed n f) s (fun t => (t.blk.link n).held = [] ∧ (t.blk.link n).rxNext = 0 ∧
      (t.blk.link n).state = (if s.blk.linkOn n && !s.blk.portsOff then .training else .disabled))) ∧
  (∀ (s : State) (n : PortIx), s.blk.dead = false → (s.blk.link n).live = true →
    Does (.flitCrcFail n) s (fun t => Only [.fab, .regs, .aon] s t ∧ (t.blk.link n).wait = true ∧ (t.blk.link n).nakAt = s.blk.tb ∧
      (t.blk.link n).rxNext = (s.blk.link n).rxNext ∧ ∃ x, (t.blk.link n).out = (s.blk.link n).out ++ [x] ∧ x.ty = 0x4 ∧
        (t.blk.reg (Reg.lnkErr n)).getLsbD 7 = true))

/-- The timers of a link act when their time has come and change nothing before: a NAK is sent again, held flits are resent, an
acknowledgement is sent, a HELD link flushes, a worm that stalls is truncated, and a close that does not end flushes. A lost signal
puts an UP link into HELD with its grace period running. ENABLE starts training; its clearing closes, once the worm being sent has ended and
the replay buffer has room, flushes or idles; and FORCE_FULL marks the next attempt (R275 to R277, R279, R282 to R287).
Training: a stage that completes starts the next one, stage 1 only with every lane, stage 4 only after 64 correctable codewords in a row, and
a fast retrain skips stage 2; a stage that takes too
long starts the attempt anew, in HELD a full one after three fast retrains; the exchange of stage 5 answers every TRAIN flit, with READY from
the 8th in a row on, and brings a link from TRAINING to UP with its numbers at 0, while a TRAIN flit with a wrong CRC starts its count anew
and one of another VERSION fails the attempt (R266, R268 to R270). The number of TRAIN flits sent, one for each received and eight on
READY, is the model's choice (log entry 64).
Each of these completes, that is, exec answers a next state wherever the hypotheses on the state and the operands hold: nakResend, ackTimeout,
ackTimer, linkDown, graceExpiry, wormGapTimeout, closeTimeout, linkEnable, linkDisable, forceFull, trainingStageDone, trainingStageTimeout, train. -/
def Obligations.LinkTimersAndTrainingAct : Prop :=
  (∀ (s : State) (n : PortIx), s.blk.dead = false → (s.blk.link n).live = true → (s.blk.link n).wait = true →
    ((s.blk.link n).nakAt + 1000 ≤ s.blk.tb → Does (.nakResend n) s (fun t => (t.blk.link n).nakAt = s.blk.tb ∧
      ∃ x, (t.blk.link n).out = (s.blk.link n).out ++ [x] ∧ x.ty = 0x4)) ∧
    (s.blk.tb < (s.blk.link n).nakAt + 1000 → exec (.nakResend n) s = .next s)) ∧
  (∀ (s : State) (n : PortIx), s.blk.dead = false → (s.blk.link n).live = true → (s.blk.link n).held ≠ [] →
    ((s.blk.link n).ackAt + s.blk.field (Reg.lnkCfg n) 9 7 * 1000 ≤ s.blk.tb → (s.blk.link n).replays < 15 →
      Does (.ackTimeout n) s (fun t => (t.blk.link n).held = (s.blk.link n).held ∧
        (t.blk.link n).out.length = (s.blk.link n).out.length + (s.blk.link n).held.length)) ∧
    (s.blk.tb < (s.blk.link n).ackAt + s.blk.field (Reg.lnkCfg n) 9 7 * 1000 → exec (.ackTimeout n) s = .next s)) ∧
  (∀ (s : State) (n : PortIx), s.blk.dead = false → (s.blk.link n).live = true → (s.blk.link n).unacked ≠ 0 →
    ((s.blk.link n).unackAt + 250 ≤ s.blk.tb → Does (.ackTimer n) s (fun t => (t.blk.link n).unacked = 0 ∧
      ∃ x, (t.blk.link n).out = (s.blk.link n).out ++ [x] ∧ x.ty = 0x0 ∧ x.ack = ((s.blk.link n).rxNext + 4095) % 4096)) ∧
    (s.blk.tb < (s.blk.link n).unackAt + 250 → exec (.ackTimer n) s = .next s)) ∧
  (∀ (s : State) (n : PortIx), s.blk.dead = false → (s.blk.link n).state = .up → s.blk.portsOff = false →
    Does (.linkDown n .los) s (fun t => (t.blk.link n).state = .held ∧ (t.blk.link n).graceEnd = s.blk.tb + s.blk.grace n ∧
      (t.blk.reg (Reg.lnkErr n)).getLsbD 0 = true ∧ (t.blk.link n).stage = (if s.blk.linkOn n then 1 else 0))) ∧
  (∀ (s : State) (n : PortIx), s.blk.tb < (s.blk.link n).goodAt + 10000 → exec (.linkDown n .silent) s = .next s) ∧
  (∀ (s : State) (n : PortIx), s.blk.dead = false → (s.blk.link n).state = .held →
    ((s.blk.link n).graceEnd ≤ s.blk.tb → Does (.graceExpiry n) s (fun t => (t.blk.link n).held = [] ∧
      (t.blk.link n).state = (if s.blk.linkOn n && !s.blk.portsOff then .training else .disabled) ∧
      (t.blk.reg (Reg.lnkErr n)).getLsbD 5 = true)) ∧
    (s.blk.tb < (s.blk.link n).graceEnd → exec (.graceExpiry n) s = .next s)) ∧
  (∀ (s : State) (n : PortIx), s.blk.dead = false → (s.blk.holdOf n).isSome = true →
    (s.blk.link n).rx.any (fun p => p.routed && p.left != 0) = true →
    ((s.blk.link n).rxAt + 4000 ≤ s.blk.tb → Does (.wormGapTimeout n) s (fun t => t.blk.holdOf n = none ∧ (t.blk.link n).skip = true ∧
      (t.blk.link n).rx = (s.blk.link n).rx.filter (fun p => p.left == 0))) ∧
    (s.blk.tb < (s.blk.link n).rxAt + 4000 → exec (.wormGapTimeout n) s = .next s)) ∧
  (∀ (s : State) (n : PortIx), s.blk.dead = false → (s.blk.link n).live = true → (s.blk.link n).asked = true →
    ((s.blk.link n).closeAt + 100000 ≤ s.blk.tb → Does (.closeTimeout n) s (fun t => (t.blk.link n).held = [] ∧
      (t.blk.link n).state = (if s.blk.linkOn n && !s.blk.portsOff then .training else .disabled) ∧
      (t.blk.reg (Reg.lnkErr n)).getLsbD 6 = true)) ∧
    (s.blk.tb < (s.blk.link n).closeAt + 100000 → exec (.closeTimeout n) s = .next s)) ∧
  (∀ (s : State) (n : PortIx), HostWrites s.blk → (s.blk.link n).state = .disabled → s.blk.portsOff = false →
    Does (.linkEnable n) s (fun t => Only [.regs, .fab] s t ∧ (t.blk.link n).state = .training ∧ t.blk.linkOn n = true)) ∧
  (∀ (s : State) (n : PortIx), HostWrites s.blk →
    ((s.blk.link n).state = .up → (s.blk.link n).gotClosed = false → (s.blk.link n).asked = false → (s.blk.link n).sentClosing = false →
      Does (.linkDisable n) s (fun t => t.blk.linkOn n = false ∧ (t.blk.link n).asked = true ∧
        (t.blk.link n).state = if s.blk.outHeld n = false ∧ (s.blk.link n).held.length < 1536 then .closing else .up)) ∧
    ((s.blk.link n).state = .held ∨ (s.blk.link n).state = .training →
      Does (.linkDisable n) s (fun t => (t.blk.link n).state = .disabled ∧ (t.blk.link n).held = [] ∧ t.blk.linkOn n = false))) ∧
  (∀ (s : State) (n : PortIx), HostWrites s.blk → Does (.forceFull n) s (fun t => Only [.fab] s t ∧
    t.blk.link n = { s.blk.link n with forceFull := true })) ∧
  (∀ (s : State) (n : PortIx) (l p : BitVec 4) (v : Bool), s.blk.dead = false →
    (s.blk.link n).state = .training ∨ (s.blk.link n).state = .held → 1 ≤ (s.blk.link n).stage →
    (s.blk.link n).stage < 5 →
    ((s.blk.link n).stage ≠ 1 ∨ l.toNat = 15 → ((s.blk.link n).stage = 4 → 64 ≤ (s.blk.link n).corrRun) →
      Does (.trainingStageDone n l p v) s (fun t => Only [.fab, .aon] s t ∧
      (t.blk.link n).stage = (if (s.blk.link n).stage = 1 ∧ (s.blk.link n).full = false then 3 else (s.blk.link n).stage + 1) ∧
      (t.blk.link n).stageAt = s.blk.tb)) ∧
    ((s.blk.link n).stage = 1 → l.toNat ≠ 15 → Does (.trainingStageDone n l p v) s (fun t => (t.blk.link n).stage = 1)) ∧
    ((s.blk.link n).stage = 4 → (s.blk.link n).corrRun < 64 → exec (.trainingStageDone n l p v) s = .next s)) ∧
  (∀ (s : State) (n : PortIx), s.blk.dead = false → (s.blk.link n).state = .training ∨ (s.blk.link n).state = .held →
    1 ≤ (s.blk.link n).stage →
    ((s.blk.link n).stageAt + stageLimit (s.blk.link n).full (s.blk.link n).stage ≤ s.blk.tb →
      Does (.trainingStageTimeout n) s (fun t => Only [.fab, .regs] s t ∧ (t.blk.link n).stage = 1 ∧ (t.blk.link n).stageAt = s.blk.tb ∧
        (t.blk.link n).state = (s.blk.link n).state ∧ (t.blk.reg (Reg.lnkErr n)).getLsbD 8 = true ∧
        (t.blk.link n).full = (((s.blk.link n).full && (s.blk.link n).state != .held) || decide (3 ≤ (s.blk.link n).tries + 1) ||
          (s.blk.link n).forceFull))) ∧
    (s.blk.tb < (s.blk.link n).stageAt + stageLimit (s.blk.link n).full (s.blk.link n).stage →
      exec (.trainingStageTimeout n) s = .next s)) ∧
  (∀ (s : State) (n : PortIx) (f : TrainFlit), s.blk.dead = false → (s.blk.link n).state = .training → (s.blk.link n).stage = 5 →
    f.reservedSet = false → f.version = 0x01 → (s.blk.link n).ready = true ∨ 7 ≤ (s.blk.link n).good →
    (s.blk.link n).gotReady = true ∨ f.ready = true →
    Does (.train n f true) s (fun t => Only ([.fab] ++ quietRegions) s t ∧ (t.blk.link n).state = .up ∧ (t.blk.link n).txOldest = 0 ∧
      (t.blk.link n).rxNext = 0 ∧ (t.blk.link n).held = [] ∧ (t.blk.link n).resumed = false)) ∧
  (∀ (s : State) (n : PortIx) (f : TrainFlit), s.blk.dead = false → (s.blk.link n).state = .training ∨ (s.blk.link n).state = .held →
    (s.blk.link n).stage = 5 → f.reservedSet = false → f.version = 0x01 → (s.blk.link n).ready = false → (s.blk.link n).gotReady = false →
    f.ready = false →
    let ready := decide (7 ≤ (s.blk.link n).good)
    Does (.train n f true) s (fun t => Only [.fab, .aon] s t ∧ (t.blk.link n).state = (s.blk.link n).state ∧
      (t.blk.link n).good = (s.blk.link n).good + 1 ∧ (t.blk.link n).ready = ready ∧
      ∃ x, (t.blk.link n).out = (s.blk.link n).out ++ [x] ∧ x.ty = 0x8 ∧ x.times = (if ready then 8 else 1) ∧ x.ackV = true ∧
        u8 x.payload 1 = b2n ready + 2 * b2n ((s.blk.link n).state == .held))) ∧
  (∀ (s : State) (n : PortIx) (f : TrainFlit), s.blk.dead = false → (s.blk.link n).state = .training ∨ (s.blk.link n).state = .held →
    (s.blk.link n).stage = 5 → f.reservedSet = false → f.version ≠ 0x01 →
    Does (.train n f true) s (fun t => Only [.fab, .regs] s t ∧ (t.blk.link n).stage = 1 ∧ (t.blk.link n).state = (s.blk.link n).state ∧
      (t.blk.reg (Reg.lnkErr n)).getLsbD 8 = true)) ∧
  (∀ (s : State) (n : PortIx) (f : TrainFlit), s.blk.dead = false → (s.blk.link n).state = .training ∨ (s.blk.link n).state = .held →
    (s.blk.link n).stage = 5 →
    Does (.train n f false) s (fun t => t.blk.link n = { s.blk.link n with good := 0 }))

/-! ## Shaping, gates, samplers and the Husk scheduler -/

/-- TRF_ENT_CTL.APPLY puts the staged entry in force where it passes its checks, and otherwise sets TRF_ERR bit 0 and changes nothing else;
REMOVE takes the selected entry out. A write of a sampler's queue word or its CLEAR leaves clear bins, and at a sampling period every enabled
slot samples its queue. A gate shows the window that the timebase is in, and takes a committed list whose time has come. A Husk scheduler
issues the oldest operation of a partition where its gate is open long enough and no refresh runs or falls due in the time that it takes; a
write that cannot be completed loses the channel (R348). A refresh goes ahead when its schedule says so, whatever the gate shows, and in a
freeze from held clocks, which bar nothing (R419; log entry 78; R68, R296 to R301, R305, R306). The depth of a Grain channel's
queue is a free value (log entry 50).
Each of these completes, that is, exec answers a next state wherever the hypotheses on the state and the operands hold: apply, remove, smpQueueWrite,
smpClear, sampleTick, gateWindowBoundary, huskOpIssue, refresh. -/
def Obligations.ShapersGatesAndSamplersAct : Prop :=
  (∀ s : State, HostWrites s.blk →
    let i := s.blk.field Reg.trfEntSel 0 13
    let e := s.blk.stagedEnt
    let fits := trafFieldsOk e = true ∧ trafficOk s.blk.str.run e = true ∧ (∀ j, s.blk.trafIx e.target e.cls = some j → j = i)
    (fits → Does .apply s (fun t => Only [.traf, .str] s t ∧ mget t.blk.str.run.traffic (trafKey e.target e.cls) = some e ∧
      mget t.blk.traf.ents i = some (match mget s.blk.traf.ents i with
        | some r => r.replace e s.blk.tb
        | none => TrafRt.fresh e s.blk.tb))) ∧
    (¬ fits → Does .apply s (fun t => Only [.regs] s t ∧ (t.blk.reg Reg.trfErr).getLsbD 0 = true)) ∧
    Does .remove s (fun t => Only [.traf, .str] s t ∧ mget t.blk.traf.ents i = none ∧
      (∀ j, j ≠ i → mget t.blk.traf.ents j = mget s.blk.traf.ents j)) ∧
    (∀ v : Word, Does (.smpQueueWrite v) s (fun t => Only [.traf] s t ∧
      t.blk.smp (s.blk.field Reg.trfSmpSel 0 11) = { queue := v &&& 0xFFFFF })) ∧
    Does .smpClear s (fun t => Only [.traf] s t ∧
      t.blk.smp (s.blk.field Reg.trfSmpSel 0 11) = { queue := (s.blk.smp (s.blk.field Reg.trfSmpSel 0 11)).queue })) ∧
  (∀ s : State, s.blk.dead = false → s.blk.field Reg.trfSampleCfg 0 10 ≠ 0 → s.blk.traf.smpAt ≠ some s.blk.tb →
    (s.blk.tb % (s.blk.field Reg.trfSampleCfg 0 10 * 1000) = 0 → Does .sampleTick s (fun t => Only [.traf, .fresh] s t ∧ ∀ i,
      ((s.blk.smp i).on = false → t.blk.smp i = s.blk.smp i) ∧
      ((s.blk.smp i).on = true → (s.blk.smp i).ty ≠ 5 → t.blk.smp i = (s.blk.smp i).take (s.blk.smpEntries (s.blk.smp i)) s.blk.tb) ∧
      ((s.blk.smp i).on = true → (s.blk.smp i).ty = 5 → ∃ n d, t.blk.smp i = (s.blk.smp i).note n d))) ∧
    (s.blk.tb % (s.blk.field Reg.trfSampleCfg 0 10 * 1000) ≠ 0 → exec .sampleTick s = .next s)) ∧
  (∀ (s : State) (target : Nat) (r : GateRt) (g : GateList), s.blk.dead = false → mget s.blk.traf.gates target = some r →
    let shows := fun (x : GateRt) => match x.now s.blk.tb with
      | .window i _ _ => i
      | _ => 0
    (r.next = none → r.list = some g → Does (.gateWindowBoundary target) s (fun t => Only [.traf] s t ∧
      mget t.blk.traf.gates target = some { r with entry := shows r })) ∧
    (∀ st : Nat, r.next = some (some g, st) → r.switchAt ≤ s.blk.tb → Does (.gateWindowBoundary target) s (fun t => Only [.traf] s t ∧
      ∃ x, mget t.blk.traf.gates target = some x ∧ x.list = some g ∧ x.start = st ∧ x.next = none ∧
        x.entry = shows { r with list := some g, start := st, next := none }))) ∧
  (∀ (s : State) (c : HuskCh) (op : HuskOp), s.blk.dead = false →
    let goes := s.blk.gateFits (0x100 + c) op.part.val s.blk.huskSpan = true ∧ s.blk.refreshBars c = false
    let l := tget (fun _ => []) (if op.write then (s.blk.husk c).writes else (s.blk.husk c).reads) op.part.val
    let sticks := op.write = true ∧ op.ok = false ∧ l ≠ []
    (goes → ¬ sticks → Does (.huskOpIssue c op) s (fun t => Only [.chans] s t ∧
      tget (fun _ => []) (if op.write then (t.blk.husk c).writes else (t.blk.husk c).reads) op.part.val = l.drop 1)) ∧
    (goes → sticks → (s.blk.husk c).lost = false → Does (.huskOpIssue c op) s (fun t => (t.blk.husk c).lost = true ∧
      (t.blk.husk c).up = false ∧ (t.blk.husk c).cause = 5 ∧ (t.blk.reg (Reg.hskErr c)).getLsbD 7 = true)) ∧
    (¬ goes → exec (.huskOpIssue c op) s = .next s)) ∧
  (∀ (s : State) (c : HuskCh), (s.blk.refreshBars c = true ↔ s.blk.frozen = false ∧ (s.blk.tb < (s.blk.husk c).refreshEnd ∨
    (s.blk.husk c).refreshAt * 1000 < s.blk.tb * 1000 + s.blk.huskSpan))) ∧
  (∀ (s : State) (c : HuskCh), s.blk.dead = false → s.blk.frozen = true → Does (.refresh c) s (fun t => Only [.chans] s t ∧
    t.blk.husk c = { s.blk.husk c with held := (s.blk.husk c).held + 1 })) ∧
  (∀ (s : State) (c : HuskCh), s.blk.dead = false → s.blk.frozen = false →
    ((s.blk.husk c).refreshAt ≤ s.blk.tb → Does (.refresh c) s (fun t => Only [.chans, .fresh] s t ∧
      t.blk.husk c = { s.blk.husk c with refreshEnd := s.blk.tb + Config.refreshTime s.blk.draw.1,
                                         refreshAt := refreshAfter c s.blk.tb } ∧ s.blk.tb < (t.blk.husk c).refreshAt)) ∧
    (s.blk.tb < (s.blk.husk c).refreshAt → exec (.refresh c) s = .next s))

/-! ## Command windows -/

/-- A write of a SEQ word in its place submits a record, and any other is ignored and counted. The next record becomes a command in progress, or
is answered with the status that turns it away; one with AUTH = 1 uses its counter up or is answered 0x75. A record of the management
controller waits while a management reset runs. All ones in a SEQ or ESEQ word free its slot and any other value changes nothing.
Bus Master Enable and what stands beside it in a function's configuration space, and VF Enable, take effect at once; outside a stream that IDE
requires such a write is answered UR (R45, R307, R308, R314 to R318, R321, R372, R384, R389, R407).
Each of these completes, that is, exec answers a next state wherever the hypotheses on the state and the operands hold: seqWrite, recordTake,
answerSlotFree, eventSlotFree, busMasterEnable, vfEnable. -/
def Obligations.WindowsTakeRecords : Prop :=
  (∀ (s : State) (f : Func) (slot : Fin 2048) (seq : DWord) (rec : Record), HostWrites s.blk → s.blk.funcOn f = true →
    let next := (s.blk.win f).nextSeq
    let placed := seq.toNat % 2048 = slot.val ∧ next ≤ seq.toNat ∧ seq.toNat ≤ next + 2047
    (placed → Does (.seqWrite f slot seq rec) s (fun t => Only [.hub] s t ∧
      t.blk.win f = { s.blk.win f with subs := mput (s.blk.win f).subs slot (seq.toNat, fit 120 rec.bytes) })) ∧
    (¬ placed → Does (.seqWrite f slot seq rec) s (fun t => Only [.regs] s t ∧ (t.blk.reg Reg.hubErr).getLsbD 0 = true ∧
      (t.blk.reg Reg.hubBadseqCnt).toNat = min ((s.blk.reg Reg.hubBadseqCnt).toNat + 1) 0xFFFFFFFF))) ∧
  (∀ (s : State) (f : Func) (seq : Nat) (r : Bytes), TakesNext s.blk f seq r → Serves s.blk r →
    let c := takenAs s.blk f seq r
    let st := s.blk.takeStatus f (u8 r 0) c.part r
    (bit (u8 r 1) 1 = false → st = 0 → Does (.recordTake f) s (fun t => Only [.hub, .regs, .pcs] s t ∧
      t.blk.hub.inProg = s.blk.hub.inProg ++ [c] ∧ (t.blk.win f).nextSeq = seq + 1 ∧
      (t.blk.reg Reg.hubCmdCnt).toNat = min ((s.blk.reg Reg.hubCmdCnt).toNat + 1) 0xFFFFFFFF)) ∧
    (bit (u8 r 1) 1 = false → st ≠ 0 → Does (.recordTake f) s (fun t => Only [.hub, .regs, .pcs] s t ∧ Answered t c st [] ∧
      t.blk.hub.inProg = s.blk.hub.inProg ∧ (t.blk.win f).nextSeq = seq + 1)) ∧
    (bit (u8 r 1) 1 = true → Does (.recordTake f) s (fun t => (t.blk.win f).nextSeq = seq + 1 ∧
      match s.blk.authBad f (u8 r 0) r with
      | some k => Answered t c 0x75 [] ∧ t.blk.sec = s.blk.sec ∧ (t.blk.reg Reg.secAuthErr).getLsbD k = true ∧
          t.blk.hub.inProg = s.blk.hub.inProg
      | none => tget (fun _ => 0) t.blk.sec.last (u8 r 2) = le r 0x58 8 ∧
          (st = 0 → t.blk.hub.inProg = s.blk.hub.inProg ++ [c]) ∧ (st ≠ 0 → Answered t c st [])))) ∧
  (∀ (s : State) (f : Func) (seq : Nat) (r : Bytes), TakesNext s.blk f seq r → s.blk.mgmt.resetting = true →
    isMgmt (u8 r 0) = true → opcodes.contains (u8 r 0) = true →
    Does (.recordTake f) s (fun t => Only [.hub] s t ∧ t.blk.win f = { s.blk.win f with mgmtWait := true } ∧
      t.blk.hub.inProg = s.blk.hub.inProg)) ∧
  (∀ (s : State) (f : Func) (seq : Nat) (r : Bytes), TakesNext s.blk f seq r → s.blk.mgmt.resetting = false →
    let c := takenAs s.blk f seq r
    (s.blk.mgmt.failed = true → Does (.recordTake f) s (fun t => Only [.hub, .regs, .pcs] s t ∧ Answered t c 0x77 [])) ∧
    (s.blk.mgmt.failed = false → s.blk.sec.recovery = true → u8 r 0 ≠ 0x20 → u8 r 0 ≠ 0x29 →
      Does (.recordTake f) s (fun t => Only [.hub, .regs, .pcs] s t ∧ Answered t c 0xA5 [])) ∧
    (s.blk.mgmt.failed = false → s.blk.sec.recovery = false → s.blk.sec.zeroised = true → u8 r 0 ≠ 0x20 →
      Does (.recordTake f) s (fun t => Only [.hub, .regs, .pcs] s t ∧ Answered t c 0xA6 []))) ∧
  (∀ (s : State) (f : Func) (slot : Fin 2048) (e : Fin 1024) (v : DWord), HostWrites s.blk → s.blk.funcOn f = true →
    (v = BitVec.allOnes 64 → Does (.answerSlotFree f slot v) s (fun t => Only [.hub] s t ∧
      t.blk.win f = { s.blk.win f with answers := mdel (s.blk.win f).answers slot }) ∧
      Does (.eventSlotFree f e v) s (fun t => Only [.hub] s t ∧
        t.blk.win f = { s.blk.win f with events := mdel (s.blk.win f).events e })) ∧
    (v ≠ BitVec.allOnes 64 → exec (.answerSlotFree f slot v) s = .next s ∧ exec (.eventSlotFree f e v) s = .next s)) ∧
  (∀ (s : State) (f : Func) (cfg : FuncCfg), s.blk.dead = false → s.blk.funcOn f = true →
    let seen := fun (b : Blk) => tget (fun _ => 0) b.hub.aer f
    (s.blk.ideIn true f = true → Does (.busMasterEnable f cfg) s (fun t => Only [.hub] s t ∧
      t.blk.win f = { s.blk.win f with busMaster := cfg.busMaster, memory := cfg.memory, d3hot := cfg.d3hot, mps := cfg.mps, mrrs := cfg.mrrs } ∧
      seen t.blk = seen s.blk - (seen s.blk &&& cfg.aerClear.toNat) ∧ (∀ g : Nat, g ≠ f → t.blk.win g = s.blk.win g))) ∧
    (s.blk.ideIn true f = false → Does (.busMasterEnable f cfg) s (fun t => Only [.hub, .regs] s t ∧ t.blk.hub.wins = s.blk.hub.wins ∧
      (t.blk.reg Reg.secErr).getLsbD 5 = true ∧ bit (seen t.blk) 20 = true ∧
      ((s.blk.ideOk f = true ∧ t.blk.hub.out = s.blk.hub.out ++ [.cfgUr f]) ∨
       (s.blk.ideOk f = false ∧ t.blk.hub.held = s.blk.hub.held ++ [.cfgUr f]))))) ∧
  (∀ (s : State) (n : Nat), s.blk.dead = false → s.blk.ideIn true = true → s.blk.sec.recovery = false →
    (s.blk.hub.numVfs = 0 → 1 ≤ n → n ≤ 63 → Does (.vfEnable true n) s (fun t => Only [.hub] s t ∧ t.blk.hub.numVfs = n ∧
      ∀ g : Nat, 1 ≤ g → g ≤ n → t.blk.funcOn g = true)) ∧
    Does (.vfEnable false n) s (fun t => t.blk.hub.numVfs = 0 ∧ ∀ g : Nat, g ≠ 0 → t.blk.funcOn g = false))

/-- NOP is answered 0 with no other effect. CW_CONFIG sets what its parameters give after its answer. SUBMIT waits for admission at its
Thresher and CANCEL ends its Sheaf, is answered the final status of one whose last task has ended, or 0x5E where there is none. MOVE goes to
its mover. Each acts once (R199, R215, R318, R319, R322).
Each of these completes, that is, exec answers a next state wherever the hypotheses on the state and the operands hold: nop, cwConfig, submitCommand,
cancelCommand, move. -/
def Obligations.HubCommandsAct : Prop :=
  (∀ (s : State) (c : CmdId) (r : CmdRec), HubRuns s.blk c 0x00 r → Does (.nop c) s (fun t => EndsOnly [] s t c r 0 [])) ∧
  (∀ (s : State) (c : CmdId) (r : CmdRec), HubRuns s.blk c 0x01 r → Does (.cwConfig c) s (fun t => EndsOnly [] s t c r 0 [] ∧
    (t.blk.win r.f).ansMirror = r.arg 0x08 8 ∧ (t.blk.win r.f).evtMirror = r.arg 0x10 8 ∧ (t.blk.win r.f).ansVec = some (r.arg 0x18 2) ∧
    (t.blk.win r.f).evtVec = some (r.arg 0x1A 2))) ∧
  (∀ (s : State) (c : CmdId) (r : CmdRec), HubRuns s.blk c 0x02 r → r.started = false → r.arg 0x19 1 < 4 → s.blk.str.loaded = true →
    s.blk.closing = false → (s.blk.thr (r.arg 0x19 1)).wait.length < 16 →
    Does (.submitCommand c) s (fun t => Only [.hub, .regs, .work] s t ∧ (∀ x, t.blk.cmd c = some x → x.started = true) ∧
      (t.blk.thr (r.arg 0x19 1)).wait = (s.blk.thr (r.arg 0x19 1)).wait ++ [⟨.cmd c, none, r.part.getD 0,
        if r.arg 0x18 1 = 1 then SheafSrc.host r.f (r.arg 0x10 4) else .pool, r.arg 0x08 8, r.arg 0x14 4, s.blk.tb⟩])) ∧
  (∀ (s : State) (c : CmdId) (r : CmdRec), HubRuns s.blk c 0x03 r →
    (mget s.blk.work.sheafs (r.arg 0x08 1) = none → Does (.cancelCommand c) s (fun t => EndsOnly [] s t c r 0x5E [])) ∧
    (∀ z, mget s.blk.work.sheafs (r.arg 0x08 1) = some z → z.cookie = r.arg 0x0C 4 → (r.f ≠ 0 → r.part = some z.part) →
      (s.blk.lastEnded (r.arg 0x08 1) z = none → z.abort = none → Does (.cancelCommand c) s (fun t => Answered t r 0 [] ∧
        ∀ y, mget t.blk.work.sheafs (r.arg 0x08 1) = some y → y.abort = some 0x5A)) ∧
      (∀ st, s.blk.lastEnded (r.arg 0x08 1) z = some st → Does (.cancelCommand c) s (fun t => EndsOnly [] s t c r st [])))) ∧
  (∀ (s : State) (c : CmdId) (r : CmdRec), HubRuns s.blk c 0x07 r → r.started = false →
    Does (.move c) s (fun t => Only [.hub] s t ∧ (∀ x, t.blk.cmd c = some x → x.started = true) ∧
      t.blk.hub.moves = s.blk.hub.moves ++ [{ f := r.f, seq := r.seq, mover := s.blk.pickMover (r.arg 0x18 1), list := r.arg 0x08 8,
                                              pasid := r.arg 0x10 4, count := r.arg 0x14 4, part := r.part.getD 0 }])) ∧
  (∀ (s : State) (c : CmdId) (r : CmdRec), r.started = true → (HubRuns s.blk c 0x02 r → exec (.submitCommand c) s = .next s) ∧
    (HubRuns s.blk c 0x07 r → exec (.move c) s = .next s))

/-! ## The aperture and the movers -/

/-- An access of the aperture that lies in one line. A read of a disabled window is completer-aborted, and one whose line is read at once is
completed with its bytes; a write that is accepted merges its bytes into the line, and one to a disabled window is dropped, counted and
kept in HUB_APT_ERR. A write outside a stream while IDE is required changes nothing but its count, and a read is answered UR as well; in
recovery the aperture does not act, nor does a write while a ZEROIZE waits (R307, R311, R312, R372, R380, R389).
Each of these completes, that is, exec answers a next state wherever the hypotheses on the state and the operands hold: apertureRead, apertureWrite. -/
def Obligations.ApertureReadsAndWritesLines : Prop :=
  (∀ (s : State) (off : BitVec 36) (len tag : Nat) (x : TlpInfo), s.blk.dead = false → s.blk.sec.recovery = false →
    s.blk.ideIn x.inStream = true → s.blk.ideOk = true → 1 ≤ len → off.toNat % 128 + len ≤ 128 → (∀ a ∈ s.blk.hub.apt, a.tag ≠ tag) →
    let w := s.blk.aptLine (off.toNat / 128 * 128)
    (w.2 = false → Does (.apertureRead off len tag x) s (fun t => Only [.hub, .regs] s t ∧ t.blk.hub.apt = s.blk.hub.apt ∧
      t.blk.hub.out = s.blk.hub.out ++ [.cplAbort tag] ∧ (t.blk.reg Reg.hubAptErr).getLsbD 0 = true ∧
      bit (tget (fun _ => 0) t.blk.hub.aer 0) 15 = true ∧
      (t.blk.reg Reg.hubAptRefuseCnt).toNat = min ((s.blk.reg Reg.hubAptRefuseCnt).toNat + 1) 0xFFFFFFFF)) ∧
    (w.2 = true → s.blk.closing = false → (s.blk.check .pf0 .read w.1).status = 0 → LineFree s.blk w.1 →
      (∀ y ∈ s.blk.coh.landed, y.who ≠ .aperture tag) →
      Does (.apertureRead off len tag x) s (fun t => t.blk.hub.apt = s.blk.hub.apt ∧ t.blk.hub.out = s.blk.hub.out ++
        [.cpl tag (sl (s.blk.lineVal w.1).1 (off.toNat % 128) len) (s.blk.lineVal w.1).2]))) ∧
  (∀ (s : State) (off : BitVec 36) (bs : Bytes) (ep : Bool) (x : TlpInfo), s.blk.dead = false → s.blk.sec.recovery = false →
    s.blk.ideIn x.inStream = true → s.blk.closing = false → 1 ≤ bs.length → off.toNat % 128 + bs.length ≤ 128 →
    let w := s.blk.aptLine (off.toNat / 128 * 128)
    (w.2 = true → WritesNow s.blk ⟨.aperture 0, .pf0⟩ w.1 → Does (.apertureWrite off bs ep x) s (fun t =>
      t.blk.lineVal w.1 = lineAfter s.blk w.1 (zeros (off.toNat % 128) ++ fit (128 - off.toNat % 128) bs)
        (lineMask (off.toNat % 128) bs.length) ep ∧ (∀ l, l ≠ w.1 → t.blk.lineVal l = s.blk.lineVal l))) ∧
    (w.2 = false → Does (.apertureWrite off bs ep x) s (fun t => Only (if ep then [.regs, .hub] else [.regs]) s t ∧
      (t.blk.reg Reg.hubAptErr).getLsbD 1 = true ∧
      (t.blk.reg Reg.hubAptErrAddrLo).toNat = w.1 * 128 % 2 ^ 32 ∧
      (t.blk.reg Reg.hubAptRefuseCnt).toNat = min ((s.blk.reg Reg.hubAptRefuseCnt).toNat + 1) 0xFFFFFFFF))) ∧
  (∀ (s : State) (off : BitVec 36) (bs : Bytes) (ep : Bool) (len tag : Nat) (x : TlpInfo), s.blk.dead = false → s.blk.sec.recovery = false →
    s.blk.ideIn x.inStream = false →
    let dropped := fun (t : State) => (t.blk.reg Reg.secErr).getLsbD 5 = true ∧
      (t.blk.reg Reg.secIdeDropCnt).toNat = min ((s.blk.reg Reg.secIdeDropCnt).toNat + 1) 0xFFFFFFFF
    Does (.apertureWrite off bs ep x) s (fun t => Only [.regs] s t ∧ dropped t) ∧
    Does (.apertureRead off len tag x) s (fun t => Only [.hub, .regs] s t ∧ dropped t ∧ t.blk.hub.apt = s.blk.hub.apt ∧
      bit (tget (fun _ => 0) t.blk.hub.aer 0) 20 = true ∧ (s.blk.ideOk = true → t.blk.hub.out = s.blk.hub.out ++ [.cplUr tag]) ∧
      (s.blk.ideOk = false → t.blk.hub.held = s.blk.hub.held ++ [.cplUr tag]))) ∧
  (∀ (s : State) (off : BitVec 36) (bs : Bytes) (ep : Bool) (x : TlpInfo), s.blk.ideIn x.inStream = true → s.blk.closing = true →
    exec (.apertureWrite off bs ep x) s = .next s) ∧
  (∀ (s : State) (off : BitVec 36) (bs : Bytes) (ep : Bool) (len tag : Nat) (x : TlpInfo), s.blk.sec.recovery = true →
    exec (.apertureRead off len tag x) s = .next s ∧ exec (.apertureWrite off bs ep x) s = .next s)

/-- A mover fetches the next descriptor of its first MOVE once its page is translated and its completions are there; starts it where its
fence is satisfied and a transfer is free, and fails it 0x71 where it is malformed; moves its next line, or fails it with the status of a
failed translation; and ends it once its writes have completed, answering the MOVE with the last (R322 to R324, R399).
Each of these completes, that is, exec answers a next state wherever the hypotheses on the state and the operands hold: moverDescriptorFetch,
moverDescriptorStart, moverLine, moverDescriptorEnd. -/
def Obligations.MoversRunDescriptors : Prop :=
  (∀ (s : State) (k : MoverIx) (m : MoveRt) (bs : Bytes) (g : Blk), s.blk.dead = false →
    s.blk.hub.moves.find? (fun m => m.mover == k.val && !m.failed && m.fetched < m.count) = some m →
    s.blk.parkedCount < 1024 → s.blk.inFlight k < 126 → g.moveOf m.f m.seq = some m →
    s.blk.hostFetch (.list m.f m.seq) k m.f m.pasid (m.list + 64 * m.fetched) 64 (.data bs false) = (.ok (), g) →
    Does (.moverDescriptorFetch k (.data bs false)) s (fun t => t.blk.moveOf m.f m.seq =
      some { m with fetched := m.fetched + 1, descs := mput m.descs m.fetched { bytes := fit 64 bs } } ∧
      t.blk.hub.out = g.hub.out)) ∧
  (∀ (s : State) (k : MoverIx) (h : HostResult) (m : MoveRt) (g : Blk), s.blk.dead = false →
    s.blk.hub.moves.find? (fun m => m.mover == k.val && !m.failed && m.fetched < m.count) = some m → s.blk.parkedCount < 1024 →
    s.blk.inFlight k < 126 → s.blk.hostFetch (.list m.f m.seq) k m.f m.pasid (m.list + 64 * m.fetched) 64 h = (.error .wait, g) →
    Gives (.moverDescriptorFetch k h) s g) ∧
  (∀ (s : State) (k : MoverIx) (m : MoveRt) (i : Nat) (d : DescRt), s.blk.dead = false → s.blk.nextDesc k = some (m, i, d) →
    s.blk.moveOf m.f m.seq = some m → mget m.descs i = some d → s.blk.pwr.holding = false → s.blk.inFlight k < 126 →
    let fenced := d.fence = true ∧ ∃ e ∈ m.descs, e.1 < i ∧ e.2.ended = false
    (¬ fenced → d.ok = true → Does (.moverDescriptorStart k) s (fun t => Only [.hub] s t ∧
      t.blk.moveOf m.f m.seq = some { m with descs := mmod m.descs i (fun d => { d with started := true }) })) ∧
    (¬ fenced → d.ok = false → Does (.moverDescriptorStart k) s (fun t => ∀ y, t.blk.moveOf m.f m.seq = some y → y.failed = true ∧
      mget y.descs i = some { d with started := true, ended := true, status := 0x71 })) ∧
    (fenced → exec (.moverDescriptorStart k) s = .next s)) ∧
  (∀ (s : State) (k : MoverIx) (c : CmdId) (i : Nat) (m : MoveRt) (d : DescRt) (bs : Bytes) (g : Blk),
    DescRuns s.blk k c i m d → s.blk.closing = false → d.status = 0 → d.off < d.len → d.toHost = false → s.blk.pendingInt (m.req i).who = false →
    s.blk.badWrite (m.req i).who = none → g.badWrite (m.req i).who = none →
    let a := d.pool + d.off
    let n := min (128 - a % 128) (d.len - d.off)
    s.blk.hostFetch (.desc m.f m.seq i) k m.f m.pasid (d.host + d.off) n (.data bs false) = (.ok (), g) →
    g.moveOf c.f.val c.seq.toNat = some m → WritesNow g (m.req i) (a / 128) →
    Does (.moverLine k c i (.data bs false)) s (fun t =>
      t.blk.lineVal (a / 128) = lineAfter g (a / 128) (zeros (a % 128) ++ fit (128 - a % 128) (fit n bs)) (lineMask (a % 128) n) false ∧
      descAt t c i = some { d with off := d.off + n })) ∧
  (∀ (s : State) (k : MoverIx) (c : CmdId) (i : Nat) (m : MoveRt) (d : DescRt) (h : HostResult) (bs : Bytes) (ps qs : List (Nat × Bool))
    (g y z : Blk) (p : Bool), DescRuns s.blk k c i m d → s.blk.closing = false → d.status = 0 → d.off < d.len → d.toHost = true →
    let a := d.pool + d.off
    let n := min (128 - a % 128) (d.len - d.off)
    s.blk.xlateAll (.desc m.f m.seq i) k m.f m.pasid true (pagesOf (d.host + d.off) n) = (.ok ps, g) →
    s.blk.readInt (m.req i) (a / 128) = (.ok bs p, y) →
    y.xlateAll (.desc m.f m.seq i) k m.f m.pasid true (pagesOf (d.host + d.off) n) = (.ok qs, z) → z.ideOk m.f = true →
    z.moveOf c.f.val c.seq.toNat = some m →
    Does (.moverLine k c i h) s (fun t => t.blk.hub.out = z.hub.out ++ z.writesOf m.f m.pasid p
        (hostPieces (d.host + d.off) n ps) (sl bs (a % 128) n) ∧
      descAt t c i = some { d with off := d.off + n, poison := if p && d.poison.isNone then some d.off else d.poison })) ∧
  (∀ (s : State) (k : MoverIx) (c : CmdId) (i : Nat) (m : MoveRt) (d : DescRt) (h : HostResult) (st : Nat) (g : Blk),
    DescRuns s.blk k c i m d → s.blk.closing = false → d.status = 0 → d.off < d.len →
    let n := min (128 - (d.pool + d.off) % 128) (d.len - d.off)
    (d.toHost = true ∧
      s.blk.xlateAll (.desc m.f m.seq i) k m.f m.pasid true (pagesOf (d.host + d.off) n) = (.error (.fail st), g)) ∨
    (d.toHost = false ∧ s.blk.pendingInt (m.req i).who = false ∧ s.blk.badWrite (m.req i).who = none ∧
      s.blk.hostFetch (.desc m.f m.seq i) k m.f m.pasid (d.host + d.off) n h = (.error (.fail st), g)) →
    g.moveOf c.f.val c.seq.toNat = some m →
    Does (.moverLine k c i h) s (fun t => descAt t c i = some { d with status := st } ∧
      ∀ y, t.blk.moveOf m.f m.seq = some y → y.failed = true)) ∧
  (∀ (s : State) (k : MoverIx) (c : CmdId) (i : Nat) (m : MoveRt) (d : DescRt) (r : CmdRec), DescRuns s.blk k c i m d →
    d.status ≠ 0 ∨ d.len ≤ d.off → s.blk.pendingInt (m.req i).who = false → s.blk.badWrite (m.req i).who = none →
    m.descs = [(i, d)] → m.failed = true ∨ m.fetched = m.count → s.blk.cmd c = some r → r.lost = false →
    let e : MoveRt := { m with descs := [(i, { d with ended := true })] }
    Does (.moverDescriptorEnd k c i) s (fun t => Only [.hub, .regs, .coh] s t ∧ Ends s t c r e.status e.result ∧
      (t.blk.reg Reg.hubDescCnt).toNat = min ((s.blk.reg Reg.hubDescCnt).toNat + 1) 0xFFFFFFFF ∧
      t.blk.moveOf c.f.val c.seq.toNat = none))

/-! ## Translations and page requests -/

/-- A Translation Completion enters its page in the ATC, and one that arrives stale or for no request does not; an error fails the transfer that
waits. A page request is sent where the limits leave room. A PRG Response that answers none is counted, a failure stops the function's
PRI, and a request without a response in time fails its waiter. An Invalidate Request leaves no overlapping translation and is
completed once every engine has acknowledged, at once by one that reads nothing under an overlapping translation, and by another once those
reads have their completions. What comes outside a stream while IDE is required is dropped and counted (R326 to R328, R330 to R332, R380).
Each of these completes, that is, exec answers a next state wherever the hypotheses on the state and the operands hold: translationCompletion,
pageRequest, prgResponse, priTimeout, invalidateRequest, invalidationAck, priEnable. -/
def Obligations.TranslationsComeAndGo : Prop :=
  (∀ (s : State) (f : Func) (pasid : BitVec 20) (page : BitVec 52) (o : TransOut), s.blk.dead = false → s.blk.ideIn true f = true →
    s.blk.hub.trans.find? (fun t => t.f == f.val && t.pasid == pasid.toNat && t.page == page.toNat) = some o →
    let mine := fun (w : XferWait) => !w.parked && w.f == f.val && w.pasid == pasid.toNat && w.page == page.toNat
    (∀ (addr : DWord) (k : Nat) (r w u : Bool), o.stale = false → (r || w) = true → (∀ x ∈ s.blk.hub.waits, mine x = false) →
      Does (.translationCompletion f pasid page (.page addr k r w u)) s (fun t => Only [.hub] s t ∧ t.blk.hub.trans = s.blk.hub.trans.erase o ∧
        ∃ e ∈ t.blk.hub.atc, e.covers f pasid.toNat page.toNat = true ∧ e.k = min k 18 ∧ e.r = r ∧ e.w = w ∧ e.u = u ∧
          (k ≤ 18 → e.addr = addr.toNat))) ∧
    (∀ (res : TransResult), o.stale = true → (∀ x ∈ s.blk.hub.waits, mine x = false) →
      Does (.translationCompletion f pasid page res) s (fun t => Only [.hub, .regs] s t ∧ t.blk.hub.atc = s.blk.hub.atc ∧
        t.blk.hub.trans = s.blk.hub.trans.erase o ∧
        (t.blk.reg Reg.xltStaleTransCnt).toNat = min ((s.blk.reg Reg.xltStaleTransCnt).toNat + 1) 0xFFFFFFFF)) ∧
    (∀ (w : XferWait) (c : CmdId) (i : Nat) (m : MoveRt) (d : DescRt), o.stale = false → s.blk.hub.waits = [w] → mine w = true →
      w.x = .desc c.f c.seq.toNat i → DescRuns s.blk m.mover c i m d →
      Does (.translationCompletion f pasid page .err) s (fun t => t.blk.hub.waits = [] ∧ (t.blk.reg Reg.xltErr).getLsbD 5 = true ∧
        descAt t c i = some { d with status := 0x81 }))) ∧
  (∀ (s : State) (f : Func) (pasid : BitVec 20) (page : BitVec 52) (res : TransResult), s.blk.ideIn true f = true →
    s.blk.hub.trans.find? (fun t => t.f == f.val && t.pasid == pasid.toNat && t.page == page.toNat) = none →
    exec (.translationCompletion f pasid page res) s = .next s) ∧
  (∀ (s : State) (r : PageReq), s.blk.dead = false → s.blk.hub.prqs = [r] → r.sent = none → (s.blk.win r.f).master = true →
    0 < tget (fun _ => 0) s.blk.hub.alloc r.f → s.blk.ideOk r.f = true →
    Does .pageRequest s (fun t => t.blk.hub.out = s.blk.hub.out ++ [.pageReq r.f r.pasid r.page r.write 0] ∧
      t.blk.hub.prqs = [{ r with sent := some (0, s.blk.tb), limit := s.blk.field Reg.xltPriCfg 0 16 }] ∧
      (t.blk.reg Reg.xltPrqSentCnt).toNat = min ((s.blk.reg Reg.xltPrqSentCnt).toNat + 1) 0xFFFFFFFF)) ∧
  (∀ (s : State) (f : Func) (i : Nat) (code : PrgCode), s.blk.dead = false → s.blk.ideIn true f = true →
    s.blk.hub.prqs.find? (fun r => r.f == f.val && (r.sent.map (·.1)) == some i) = none →
    Does (.prgResponse f i code) s (fun t => Only [.regs] s t ∧ (t.blk.reg Reg.xltErr).getLsbD 4 = true ∧
      (t.blk.reg Reg.xltStrayCnt).toNat = min ((s.blk.reg Reg.xltStrayCnt).toNat + 1) 0xFFFFFFFF)) ∧
  (∀ (s : State) (f : Func) (i : Nat) (r : PageReq), s.blk.dead = false → s.blk.ideIn true f = true →
    s.blk.hub.prqs.find? (fun r => r.f == f.val && (r.sent.map (·.1)) == some i) = some r → r.gone = false →
    (∀ w ∈ s.blk.hub.waits, w.parked = false) →
    Does (.prgResponse f i .success) s (fun t => Only [.hub] s t ∧ t.blk.hub.prqs = s.blk.hub.prqs.erase r) ∧
    Does (.prgResponse f i .failure) s (fun t => Only [.hub, .regs] s t ∧ t.blk.hub.stopped.contains f.val = true ∧
      (t.blk.reg Reg.xltErr).getLsbD 0 = true)) ∧
  (∀ (s : State) (f : Func) (i a n : Nat) (r : PageReq) (w : XferWait) (c : CmdId) (j : Nat) (m : MoveRt) (d : DescRt), s.blk.dead = false →
    s.blk.hub.prqs = [r] → r.f = f.val → r.sent = some (i, a) → r.gone = false → s.blk.hub.waits = [w] → w.parked = true → w.f = r.f →
    w.pasid = r.pasid → w.page = r.page → w.x = .desc c.f c.seq.toNat j → DescRuns s.blk m.mover c j m d → n = r.limit * 1000000 →
    (a + n < s.blk.tb → Does (.priTimeout f i) s (fun t => t.blk.hub.waits = [] ∧ t.blk.hub.prqs = [{ r with gone := true }] ∧
      descAt t c j = some { d with status := 0x80 } ∧ (t.blk.reg Reg.xltErr).getLsbD 1 = true ∧
      (t.blk.reg Reg.xltPrqFailCnt).toNat = min ((s.blk.reg Reg.xltPrqFailCnt).toNat + 1) 0xFFFFFFFF)) ∧
    (s.blk.tb ≤ a + n → exec (.priTimeout f i) s = .next s)) ∧
  (∀ (s : State) (f : Func) (itag : Fin 32) (pasid : Option (BitVec 20)) (lo : DWord) (bytes : Nat), s.blk.dead = false →
    s.blk.hub.invs = [] → s.blk.ideIn true f = true → s.blk.ideOk f = true →
    let n := (lo.toNat + bytes + 4095) / 4096 - lo.toNat / 4096
    Does (.invalidateRequest f itag pasid lo bytes) s (fun t => Only [.hub, .regs] s t ∧
      (∀ e ∈ t.blk.hub.atc, e ∈ s.blk.hub.atc ∧ e.hits f (pasid.map (·.toNat)) (lo.toNat / 4096) n = false) ∧
      (∀ x ∈ t.blk.hub.tlb, ∀ e ∈ x.2, e.hits f (pasid.map (·.toNat)) (lo.toNat / 4096) n = false) ∧
      ((∀ e, s.blk.engineReads e f (pasid.map (·.toNat)) (lo.toNat / 4096) n = []) → t.blk.hub.out = s.blk.hub.out ++ [.invCpl f itag] ∧
        t.blk.hub.invs = []))) ∧
  (∀ (s : State) (f : Func) (itag : Fin 32) (e : Engine) (l : List Nat), s.blk.dead = false →
    s.blk.hub.invs = [⟨f, itag, [engineNo e], l⟩] → s.blk.ideOk f = true →
    let reads := ∃ r ∈ s.blk.hub.reads, r.engine = engineNo e ∧ r.id ∈ l
    (¬ reads → Does (.invalidationAck f itag e) s (fun t => Only [.hub] s t ∧ t.blk.hub.out = s.blk.hub.out ++ [.invCpl f itag] ∧
      t.blk.hub.invs = [])) ∧
    (reads → exec (.invalidationAck f itag e) s = .next s)) ∧
  (∀ (s : State) (f : Func) (pasid : BitVec 20) (page : BitVec 52) (res : TransResult) (i : Nat) (code : PrgCode) (itag : Fin 32)
    (p : Option (BitVec 20)) (lo : DWord) (bytes n : Nat) (on : Bool), s.blk.dead = false → s.blk.ideIn true f = false →
    let dropped := fun (t : State) => (t.blk.reg Reg.secErr).getLsbD 5 = true ∧
      (t.blk.reg Reg.secIdeDropCnt).toNat = min ((s.blk.reg Reg.secIdeDropCnt).toNat + 1) 0xFFFFFFFF
    Does (.translationCompletion f pasid page res) s (fun t => Only [.regs] s t ∧ dropped t) ∧
    Does (.prgResponse f i code) s (fun t => Only [.regs] s t ∧ dropped t) ∧
    Does (.invalidateRequest f itag p lo bytes) s (fun t => Only [.regs] s t ∧ dropped t) ∧
    Does (.priEnable f on n) s (fun t => Only [.hub, .regs] s t ∧ dropped t ∧ t.blk.hub.priOn = s.blk.hub.priOn)) ∧
  (∀ (s : State) (f : Func) (n : Nat), s.blk.dead = false → s.blk.ideIn true f = true →
    Does (.priEnable f true n) s (fun t => Only [.hub] s t ∧ f.val ∈ t.blk.hub.priOn ∧ tget (fun _ => 0) t.blk.hub.alloc f = min n 512 ∧
      (f.val ∉ s.blk.hub.priOn → f.val ∉ t.blk.hub.stopped)) ∧
    ((∀ w ∈ s.blk.hub.waits, w.parked = false) → Does (.priEnable f false n) s (fun t => Only [.hub] s t ∧ f.val ∉ t.blk.hub.priOn ∧
      ∀ r ∈ t.blk.hub.prqs, r.f ≠ f)))

/-! ## The pair -/

/-- A write that waits on the mirror is answered by the peer's Cmp: 0, or 0x95 where the peer failed it or did not answer in 20 ms, or 0x93
where the controller becomes fenced. A primary writes a checkpoint every 100 ms. Heartbeats go to the peer and the witness every
millisecond, on the link to quadrant 0 (log entry 24). A primary that has not heard the witness for 10 ms is fenced, which ends no gap. The
cut of the sweep and the end of the gap take effect at their times. A copy to a rejoining standby sends its lines one by one, a line that
the peer does not take again (log entry 65), and ends solo operation once the peer has taken the last (R353, R355 to R357, R360, R362,
R364).
Each of these completes, that is, exec answers a next state wherever the hypotheses on the state and the operands hold: mirrorCmp, mirrorTimeout,
fenceTimeout, checkpoint, heartbeatSend, sweepCut, gapEnd, resyncCopyLine. -/
def Obligations.PairTimersAct : Prop :=
  (∀ (s : State) (id : BitVec 16) (x : Txn) (d : Nat) (o bs : Bytes) (mask : BitVec 128) (p : Bool) (src : Eid), s.blk.dead = false →
    s.blk.coh.txns = [x] → x.phase = .mirror id.toNat d o → x.op = .wrline bs mask p → x.who = .fabric src → x.job = none →
    mhas (s.blk.view (.router (Fin.ofNat 4 (homeOf x.line)))).eids src.toNat = true →
    Does (.mirrorCmp id ⟨0, 0⟩) s (fun t => Only [.coh, .fab, .traf] s t ∧ t.blk.coh.txns = [] ∧ Sends t (homeOf x.line) 0x40 src.toNat 0 []) ∧
    (∀ (tr : BitVec 16) (st : Byte), st ≠ 0 → Does (.mirrorCmp id ⟨st, tr⟩) s (fun t => t.blk.coh.txns = [] ∧
      Sends t (homeOf x.line) 0x40 src.toNat 0x95 [] ∧
      (t.blk.reg Reg.hubMirrorFailCnt).toNat = min ((s.blk.reg Reg.hubMirrorFailCnt).toNat + 1) 0xFFFFFFFF)) ∧
    (d ≤ s.blk.tb → Does (.mirrorTimeout id) s (fun t => t.blk.coh.txns = [] ∧ Sends t (homeOf x.line) 0x40 src.toNat 0x95 [])) ∧
    (s.blk.tb < d → exec (.mirrorTimeout id) s = .next s) ∧
    (s.blk.pair.role = 1 → s.blk.pair.fenced = false → max (s.blk.pair.witAt.getD 0) s.blk.pair.witSince + 10000000 ≤ s.blk.tb →
      Does .fenceTimeout s (fun t => t.blk.pair.fenced = true ∧ t.blk.coh.txns = [] ∧ Sends t (homeOf x.line) 0x40 src.toNat 0x93 []))) ∧
  (∀ s : State, s.blk.dead = false → s.blk.pool.inj = [] → s.blk.ckptOn = true →
    (s.blk.pair.ckptAt + 100000000 ≤ s.blk.tb → Does .checkpoint s (fun t => t.blk.pair.ckptSeq = s.blk.pair.ckptSeq + 1 ∧
      t.blk.pair.ckptAt = s.blk.tb ∧ t.blk.pair.eseq = s.blk.pair.eseq + s.blk.str.run.hosts.length + s.blk.coh.agents.length +
        s.blk.str.run.mirrored.length)) ∧
    (s.blk.tb < s.blk.pair.ckptAt + 100000000 → exec .checkpoint s = .next s)) ∧
  (∀ (s : State) (w v : Nat), s.blk.hbOn = true → s.blk.pool.inj = [] → s.blk.pair.hbAt = none ∨ (s.blk.pair.hbAt = some w ∧ w + 1000000 ≤ s.blk.tb) →
    mhas (s.blk.view (.router 0)).eids s.blk.str.run.pair.peer = true → mhas (s.blk.view (.router 0)).eids s.blk.str.run.pair.witness = true →
    v = (s.blk.pair.hbSeq + 1) % 2 ^ 32 →
    let d := s.blk.d2d 4 0
    Does .heartbeatSend s (fun t => t.blk.pair.hbSeq = v ∧ t.blk.pair.hbAt = some s.blk.tb ∧
      (t.blk.d2d 4 0).count = d.count + 2 ∧
      ∃ x, mget (t.blk.d2d 4 0).worms d.count = some x ∧ ∃ y, mget (t.blk.d2d 4 0).worms (d.count + 1) = some y ∧
        (t.blk.d2d 4 0).worms = mput (mput d.worms d.count x) (d.count + 1) y ∧ (∀ w ∈ [x, y], hfld w.hdr 15 8 = 0x4C ∧
          hfld w.hdr 159 128 = v ∧ w.payload = toLe 8 s.blk.tb) ∧
        hfld x.hdr 31 16 = s.blk.str.run.pair.peer % 2 ^ 16 ∧ hfld y.hdr 31 16 = s.blk.str.run.pair.witness % 2 ^ 16)) ∧
  (∀ (s : State) (w : Nat), s.blk.pair.hbAt = some w → s.blk.tb < w + 1000000 → exec .heartbeatSend s = .next s) ∧
  (∀ s : State, s.blk.dead = false → s.blk.pair.role = 1 → s.blk.pair.fenced = false →
    let last := max (s.blk.pair.witAt.getD 0) s.blk.pair.witSince
    ((∀ x ∈ s.blk.coh.txns, ∀ m d o, x.phase ≠ .mirror m d o) → last + 10000000 ≤ s.blk.tb →
      Does .fenceTimeout s (fun t => t.blk.pair.fenced = true ∧ t.blk.pair.gap = s.blk.pair.gap ∧
      (s.blk.pair.gap = false → s.blk.str.loaded = true → t.blk.pair.pins = 3))) ∧
    (s.blk.tb < last + 10000000 → exec .fenceTimeout s = .next s)) ∧
  (∀ s : State, s.blk.dead = false → s.blk.str.loaded = true → s.blk.pair.gap = true →
    (s.blk.pair.sweep ≠ [] → s.blk.pair.t0 + 48000000 ≤ s.blk.tb → Does .sweepCut s (fun t => t.blk.pair.sweep = [] ∧
      (t.blk.reg Reg.hubPairErr).getLsbD 6 = true ∧
      (∀ x ∈ s.blk.pair.sweep, ∀ g, mget s.blk.coh.agents x.1 = some g → g.suspended = false →
        (∀ y ∈ s.blk.coh.suspendPend, y.2 ≠ x.1) → ∀ q, q < 4 → (q, x.1) ∈ t.blk.coh.suspendPend))) ∧
    (s.blk.pair.sweep = [] → s.blk.pair.t0 + 12000000 ≤ s.blk.tb → Does .gapEnd s (fun t => t.blk.pair.gap = false ∧
      t.blk.pair.pins = t.blk.pinCode ∧
      (t.blk.reg Reg.hubPairGap).toNat = min ((s.blk.tb - s.blk.pair.t0) / 1000) 65535)) ∧
    (s.blk.tb < s.blk.pair.t0 + 12000000 → exec .gapEnd s = .next s ∧ exec .sweepCut s = .next s)) ∧
  (∀ (s : State) (i l : Nat), s.blk.dead = false → s.blk.str.loaded = true → s.blk.pair.fenced = false → s.blk.pair.copy = some (i, l) →
    s.blk.pool.inj = [] → s.blk.pair.copyAt ≤ s.blk.tb * 1000 →
    ((i, l) ≠ copyDone → ((s.blk.extEnt i).map (·.mirror)).getD false = true →
      mhas (s.blk.view (.router (Fin.ofNat 4 (homeOf l)))).eids s.blk.str.run.pair.peer = true →
      Does .resyncCopyLine s (fun t => t.blk.pair.copy = some ((s.blk.copyStep i l).getD copyDone) ∧ t.blk.pair.solo = s.blk.pair.solo ∧
        (∃ id, t.blk.pair.copies = s.blk.pair.copies ++ [(id, l, s.blk.tb + 20000000)]) ∧
        Sends t (homeOf l) 0xC3 s.blk.str.run.pair.peer 0 ((s.blk.lineVal l).1 ++ toLe 16 (2 ^ 128 - 1)))) ∧
    ((i, l) = copyDone → s.blk.pair.copies = [] → Does .resyncCopyLine s (fun t => t.blk.pair.copy = none ∧ t.blk.pair.solo = false ∧
      t.blk.pair.ckptSeq = s.blk.pair.ckptSeq + 1)) ∧
    ((i, l) = copyDone → s.blk.pair.copies ≠ [] → exec .resyncCopyLine s = .next s)) ∧
  (∀ (s : State) (id : BitVec 16) (l at_ : Nat), s.blk.dead = false → s.blk.mirrorTxn id.toNat = none → s.blk.pair.copy ≠ none →
    s.blk.pair.copies = [(id.toNat, l, at_)] → s.blk.pair.poisons = [] →
    Does (.mirrorCmp id ⟨0, 0⟩) s (fun t => Only [.pair, .traf] s t ∧ t.blk.pair.copies = []) ∧
    (at_ ≤ s.blk.tb → Does (.mirrorTimeout id) s (fun t => (t.blk.reg Reg.hubPairErr).getLsbD 4 = true ∧
      ∃ n, t.blk.pair.copies = [(n, l, s.blk.tb + 20000000)])) ∧
    (s.blk.tb < at_ → exec (.mirrorTimeout id) s = .next s))

/-! ## Security -/

/-- SEC_INFO and IDE_INFO answer what the security block shows. FW_UPDATE erases the slot for an image that verifies, and once it is written
is answered 0; MANIFEST_UPDATE writes an object that verifies; either otherwise answers 0xA0 and leaves the flash; FW_SVN_COMMIT raises
MIN_SVN to the SVN of the running firmware; OWNER_PROVISION sets the owner once, from a blob that opens. DEBUG_CHALLENGE draws a nonce,
which DEBUG_UNLOCK uses up: a signature that does not verify is answered 0xA4, and one that does sets the level. ZEROIZE erases every key
and leaves the controller unconfigured. CERT_READ writes the chain where LIMIT allows, FW_RECOVER in recovery starts an image that verifies
and outside it is answered 0xA7, and REQUIRE is set by a write of 1 (R372 to R375, R380, R386 to R389). That a DEBUG_UNLOCK answered 0xA3
uses up the nonce too and sets SEC_ERR bit 4 is the model's reading (log entry 34).
Each of these completes, that is, exec answers a next state wherever the hypotheses on the state and the operands hold: secInfo, ideInfo, fwUpdate,
manifestUpdate, fwSvnCommit, ownerProvision, debugChallenge, debugUnlock, zeroize, certRead, fwRecover, ideRequireWrite. -/
def Obligations.SecurityCommandsAct : Prop :=
  (∀ (s : State) (c : CmdId) (r : CmdRec), MgmtRuns s.blk c 0x20 r → Does (.secInfo c) s (fun t => EndsOnly [] s t c r 0
    (toLe 8 s.blk.sec.otp.serial.toNat ++ fit 8 s.blk.sec.bootId ++ toLe 1 s.blk.sec.svn ++ toLe 1 s.blk.sec.otp.minSvn ++
      toLe 1 s.blk.secBits))) ∧
  (∀ (s : State) (c : CmdId) (r : CmdRec), MgmtRuns s.blk c 0x2A r →
    Does (.ideInfo c) s (fun t => EndsOnly [] s t c r 0 (toLe 4 s.blk.ideStatus))) ∧
  (∀ (s : State) (c : CmdId) (r : CmdRec) (bs : Bytes), MgmtRuns s.blk c 0x21 r → s.blk.mgmt.fwWriting = none →
    (s.blk.mayRead = false → exec (.fwUpdate c (.data bs false)) s = .next s) ∧
    (s.blk.mayRead = true → ReadRoom s.blk r → Does (.fwUpdate c (.data bs false)) s (fun t =>
    match s.blk.fwAccepted s.nv.flash r (.data bs false), dirFind s.nv.flash 2 with
    | some x, some e => OnlyBlk [.hub, .mgmt] s.blk t.blk ∧ t.blk.mgmt = { s.blk.mgmt with fwWriting := some (c, x) } ∧ t.nv.otp = s.nv.otp ∧
        t.nv.flash = cclear s.nv.flash e.offset (max e.length x.length)
    | _, _ => EndsOnly [] s t c r 0xA0 []))) ∧
  (∀ (s : State) (c : CmdId) (r : CmdRec) (h : HostResult) (x : Bytes) (e : DirEntry), MgmtRuns s.blk c 0x21 r →
    s.blk.mgmt.fwWriting = some (c, x) → dirFind s.nv.flash 2 = some e → Does (.fwUpdate c h) s (fun t =>
      OnlyBlk [.hub, .regs, .mgmt] s.blk t.blk ∧ t.blk.mgmt = { s.blk.mgmt with fwWriting := none } ∧ Ends s t c r 0 [] ∧
      t.nv.otp = s.nv.otp ∧ t.nv.flash = dirSetLength (s.blk.flashWrite (cclear s.nv.flash e.offset (max e.length x.length)) e.offset x) 2
        x.length)) ∧
  (∀ (s : State) (c : CmdId) (r : CmdRec) (bs : Bytes), MgmtRuns s.blk c 0x24 r →
    (s.blk.mayRead = false → exec (.manifestUpdate c (.data bs false)) s = .next s) ∧
    (s.blk.mayRead = true → ReadRoom s.blk r → Does (.manifestUpdate c (.data bs false)) s (fun t =>
    match s.blk.manifestAccepted s.nv.flash r (.data bs false), dirFind s.nv.flash 3 with
    | some x, some e => OnlyBlk [.hub, .regs] s.blk t.blk ∧ Ends s t c r 0 [] ∧ t.nv.otp = s.nv.otp ∧
        t.nv.flash = dirSetLength (s.blk.flashWrite (cclear s.nv.flash e.offset (max e.length 512)) e.offset x) 3 512
    | _, _ => EndsOnly [] s t c r 0xA0 []))) ∧
  (∀ (s : State) (c : CmdId) (r : CmdRec), MgmtRuns s.blk c 0x22 r → Does (.fwSvnCommit c) s (fun t =>
    t.nv.flash = s.nv.flash ∧ t.nv.otp = { s.nv.otp with minSvn := max s.nv.otp.minSvn s.blk.sec.svn } ∧ OnlyBlk [.hub, .regs, .sec] s.blk t.blk ∧
    t.blk.sec = { s.blk.sec with otp := { s.blk.sec.otp with minSvn := max s.blk.sec.otp.minSvn s.blk.sec.svn } } ∧
    Ends s t c r 0 (toLe 1 (max s.blk.sec.otp.minSvn s.blk.sec.svn)))) ∧
  (∀ (s : State) (c : CmdId) (r : CmdRec) (bs : Bytes), MgmtRuns s.blk c 0x23 r →
    (s.blk.sec.otp.ownerSet = true → Does (.ownerProvision c (.data bs false)) s (fun t => EndsOnly [] s t c r 0xA1 [])) ∧
    (s.blk.sec.otp.ownerSet = false → s.blk.mayRead = false → exec (.ownerProvision c (.data bs false)) s = .next s) ∧
    (s.blk.sec.otp.ownerSet = false → s.nv.otp.ownerSet = false → s.blk.mayRead = true → ReadRoom s.blk r →
      Does (.ownerProvision c (.data bs false)) s (fun t =>
      match s.blk.blobOpened r (.data bs false) with
      | some body => t.nv.flash = s.nv.flash ∧ OnlyBlk [.hub, .regs, .sec] s.blk t.blk ∧ Ends s t c r 0 [] ∧ t.nv.otp.ownerSet = true ∧
          t.nv.otp.ownerHash = sl body 0 32 ∧ t.nv.otp.kek = sl body 32 32 ∧ t.blk.sec.kek = s.blk.sec.kek
      | none => EndsOnly [] s t c r 0xA2 []))) ∧
  (∀ (s : State) (c : CmdId) (r : CmdRec), MgmtRuns s.blk c 0x25 r → let n := fit 32 (Config.random s.blk.fresh)
    Does (.debugChallenge c) s (fun t => EndsOnly [.sec, .fresh] s t c r 0 n ∧
      t.blk.sec = { s.blk.sec with nonce := some (n, s.blk.tb) })) ∧
  (∀ (s : State) (c : CmdId) (r : CmdRec), MgmtRuns s.blk c 0x26 r →
    (s.blk.unlockable = false → Does (.debugUnlock c) s (fun t => EndsOnly [.sec] s t c r 0xA3 [] ∧ t.blk.sec = { s.blk.sec with nonce := none } ∧
      (t.blk.reg Reg.secErr).getLsbD 4 = true)) ∧
    (s.blk.unlockable = true → Does (.debugUnlock c) s (fun t => t.blk.sec.nonce = none ∧
      if s.blk.debugOk (r.arg 0x08 1) (sl r.bytes 0x10 64) then
        t.blk.sec.debug = r.arg 0x08 1 ∧ (r.arg 0x08 1 = 1 → EndsOnly [.sec] s t c r 0 []) ∧ (r.arg 0x08 1 = 2 → t.blk.sec.zeroised = true)
      else EndsOnly [.sec] s t c r 0xA4 [] ∧ (t.blk.reg Reg.secErr).getLsbD 4 = true ∧ t.blk.sec.debug = s.blk.sec.debug))) ∧
  (∀ (s : State) (c : CmdId) (r : CmdRec), MgmtRuns s.blk c 0x27 r → Does (.zeroize c) s (fun t =>
    t.blk.sec.zeroised = true ∧ t.blk.sec.keySlots = [] ∧ t.blk.sec.kek = zeros32 ∧ t.blk.sec.sessions = [] ∧ t.blk.sec.ideKeys = [] ∧
    t.blk.sec.ideActive = [] ∧ t.blk.sec.aliasKey = none ∧ t.blk.str.loaded = false ∧ t.blk.ext = {} ∧ t.blk.coh = {} ∧
    t.blk.pins.devFault = true ∧ t.nv = s.nv)) ∧
  (∀ (s : State) (c : CmdId) (r : CmdRec), MgmtRuns s.blk c 0x28 r → let n := s.blk.sec.chain.length
    (r.arg 0x14 4 < n → Does (.certRead c) s (fun t => EndsOnly [] s t c r 0x78 (toLe 4 n))) ∧
    (n ≤ r.arg 0x14 4 → (s.blk.win r.f).master = true → s.blk.ideOk r.f = true → Does (.certRead c) s (fun t =>
      EndsOnly [] s t c r 0 (toLe 4 n) ∧
      ∃ l, t.blk.hub.out = s.blk.hub.out ++ s.blk.putWrites r.f (r.arg 0x10 4) (r.arg 0x08 8) s.blk.sec.chain ++ l)) ∧
    (n ≤ r.arg 0x14 4 → (s.blk.win r.f).master = false → exec (.certRead c) s = .next s)) ∧
  (∀ (s : State) (c : CmdId) (r : CmdRec) (bs : Bytes), MgmtRuns s.blk c 0x29 r → s.blk.sec.recovery = true →
    s.blk.sec.otp.ownerSet = false → s.blk.mayRead = true → ReadRoom s.blk r → s.blk.str.boot = none →
      Does (.fwRecover c (.data bs false)) s (fun t => t.nv = s.nv ∧
      if firmwareOk s.blk.sec.otp.minSvn s.blk.sec.fwKey (fit (r.arg 0x14 4) bs) then
        Ends s t c r 0 [] ∧ t.blk.sec.recovery = false ∧ t.blk.sec.ownerless = true ∧ t.blk.mgmt.fwImage = fit (r.arg 0x14 4) bs ∧
          t.blk.sec.svn = u8 (fit (r.arg 0x14 4) bs) 6
      else EndsOnly [] s t c r 0xA0 [])) ∧
  (∀ (s : State) (c : CmdId) (r : CmdRec) (h : HostResult), MgmtRuns s.blk c 0x29 r → s.blk.sec.recovery = false →
    Does (.fwRecover c h) s (fun t => EndsOnly [] s t c r 0xA7 [])) ∧
  (∀ (s : State) (v : Word), HostWrites s.blk →
    (v.getLsbD 0 = true → Does (.ideRequireWrite v) s (fun t => Only [.regs] s t ∧ t.blk.reg Reg.secIdeCfg = s.blk.reg Reg.secIdeCfg ||| 1)) ∧
    (v.getLsbD 0 = false → exec (.ideRequireWrite v) s = .next s))

/-- The SPDM responder. The negotiation goes step by step and starts anew with GET_VERSION; a request out of order is answered with an error
and changes nothing. Slot 0 holds the certificate chain. A session is opened by KEY_EXCHANGE, counts once FINISH has verified, and ends
with END_SESSION; IDE_KM is served in such a session only, and programs, starts and stops the IDE streams. The error codes, the order and the
codes of what is supported are the model's (log entries 31 and 99, PRESUMED); nonces and digests of transcripts are free values, and signatures
are those of the Alias key over these (R378 to R380).
Each of these completes, that is, exec answers a next state wherever the hypotheses on the state and the operands hold: getVersion, getCapabilities,
negotiateAlgorithms, getDigests, getCertificate, challenge, getMeasurements, keyExchange, finish, spdmHeartbeat, keyUpdate, endSession,
vendorDefinedRequest, unsupportedRequest. -/
def Obligations.SpdmResponderAnswers : Prop :=
  (∀ (s : State) (v : SpdmVia), s.blk.spdmUp = true → v.session = none →
    Does (.getVersion v) s (fun t => Only [.sec] s t ∧ SpdmSays s t v (.version [0x1200]) ∧ t.blk.sec.spdm = 1) ∧
    (s.blk.sec.spdm = 1 → Does (.getCapabilities v) s (fun t => Only [.sec] s t ∧ SpdmSays s t v (.capabilities spdmFlags) ∧ t.blk.sec.spdm = 2)) ∧
    (s.blk.sec.spdm = 2 → Does (.negotiateAlgorithms v) s (fun t => Only [.sec] s t ∧ SpdmSays s t v (.algorithms 1 2 16 1 8 2) ∧
      t.blk.sec.spdm = 3)) ∧
    (s.blk.sec.spdm ≠ 1 → Does (.getCapabilities v) s (fun t => Only [.sec] s t ∧ SpdmSays s t v (.error 0x04) ∧
      t.blk.sec.spdm = s.blk.sec.spdm)) ∧
    (s.blk.sec.spdm ≠ 3 → Does (.getDigests v) s (fun t => Only [.sec] s t ∧ SpdmSays s t v (.error 0x04)))) ∧
  (∀ (s : State) (v : SpdmVia), SpdmOpen s.blk v → let chain := s.blk.sec.chain
    Does (.getDigests v) s (fun t => Only [.sec] s t ∧ SpdmSays s t v (.digests 1 (sha256 chain))) ∧
    (∀ o n : Nat, o < chain.length → Does (.getCertificate v 0 o n) s (fun t => Only [.sec] s t ∧
      SpdmSays s t v (.certificate 0 ((chain.drop o).take n) (chain.length - o - min n (chain.length - o))))) ∧
    (∀ slot o n : Nat, slot ≠ 0 ∨ chain.length ≤ o → Does (.getCertificate v slot o n) s (fun t => Only [.sec] s t ∧
      SpdmSays s t v (.error 0x01))) ∧
    (∀ nonce : Bytes, s.blk.sec.aliasUp = true → Does (.challenge v 0 nonce) s (fun t => Only [.sec, .fresh] s t ∧
      SpdmSays s t v (.challengeAuth 0 (sha256 chain) (Config.spdmData s.blk.fresh) (s.blk.aliasSign (s.blk.fresh + 1))))) ∧
    (∀ (i : Nat) (m nonce : Bytes), i ∈ [1, 2, 3, 4, 5, 6, 7, 8, 9, 10, 11] → s.blk.measurement i = some m →
      Does (.getMeasurements v i false nonce) s (fun t => Only [.sec, .fresh] s t ∧
        SpdmSays s t v (.measurements s.blk.measurements.length [measBlock i m] (Config.spdmData s.blk.fresh) []))) ∧
    (∀ nonce : Bytes, s.blk.sec.aliasUp = false → Does (.challenge v 0 nonce) s (fun t => Only [.sec] s t ∧
      SpdmSays s t v (.error 0x05)))) ∧
  (∀ (s : State) (v : SpdmVia) (id : BitVec 16) (random exchange : Bytes), SpdmOpen s.blk v → v.session = none → exchange.length = 64 →
    s.blk.sec.aliasUp = true →
    (s.blk.sec.sessions = [] → Does (.keyExchange v id random exchange) s (fun t => Only [.sec, .fresh] s t ∧
      t.blk.sec.sessions = [{ id := id.toNat }] ∧
      SpdmSays s t v (.keyExchange id.toNat (Config.spdmData s.blk.fresh) (s.blk.aliasSign (s.blk.fresh + 1))))) ∧
    ((s.blk.session 0).isSome = true → (s.blk.session 1).isSome = true → Does (.keyExchange v id random exchange) s (fun t => Only [.sec] s t ∧
      SpdmSays s t v (.error 0x0A)))) ∧
  (∀ (s : State) (v : SpdmVia) (k : Fin 2) (x : Session) (verify : Bytes), s.blk.spdmUp = true → v.session = some k →
    s.blk.session k = some x → x.finished = false → Does (.finish v verify) s (fun t => Only [.sec, .fresh] s t ∧
      if Config.finishOk s.blk.fresh verify then t.blk.session k = some { x with finished := true } ∧ SpdmSays s t v (.finish x.id)
      else t.blk.session k = none ∧ SpdmSays s t v (.error 0x06))) ∧
  (∀ (s : State) (v : SpdmVia) (k : Fin 2) (x : Session), SpdmOpen s.blk v → v.session = some k → s.blk.session k = some x →
    Does (.spdmHeartbeat v) s (fun t => Only [.sec] s t ∧ SpdmSays s t v .heartbeatAck) ∧
    (∀ op : Nat, op = 1 ∨ op = 2 → Does (.keyUpdate v op) s (fun t => Only [.sec] s t ∧ SpdmSays s t v (.keyUpdateAck op) ∧
      t.blk.session k = some { x with keys := x.keys + 1 })) ∧
    Does (.endSession v) s (fun t => Only [.sec] s t ∧ SpdmSays s t v (.endSessionAck x.id) ∧ t.blk.session k = none) ∧
    (∀ (n : Fin 5) (key : Bytes), Does (.vendorDefinedRequest v (.keyProg n key)) s (fun t => Only [.sec] s t ∧
      mget t.blk.sec.ideKeys n = some key ∧ SpdmSays s t v (.ideKm (.keyProg n key) 5))) ∧
    (∀ n : Fin 5, mhas s.blk.sec.ideKeys n = true → Does (.vendorDefinedRequest v (.kSetGo n)) s (fun t => Only [.sec, .hub] s t ∧
      n.val ∈ t.blk.sec.ideActive ∧ (n = 0 → t.blk.hub.held = []) ∧
      t.blk.hub.held = s.blk.hub.held.filter (fun o => !t.blk.ideOk o.func) ∧
      t.blk.hub.out = s.blk.hub.out ++ s.blk.hub.held.filter (fun o => t.blk.ideOk o.func) ∧
      SpdmSays s t v (.ideKm (.kSetGo n) 5))) ∧
    (∀ n : Fin 5, Does (.vendorDefinedRequest v (.kSetStop n)) s (fun t => Only [.sec] s t ∧ n.val ∉ t.blk.sec.ideActive ∧
      mget t.blk.sec.ideKeys n = none ∧ SpdmSays s t v (.ideKm (.kSetStop n) 5)))) ∧
  (∀ (s : State) (v : SpdmVia) (q : IdeKm) (code : Byte), SpdmOpen s.blk v →
    Does (.unsupportedRequest v code) s (fun t => Only [.sec] s t ∧ SpdmSays s t v (.error 0x07)) ∧
    (v.session = none → Does (.vendorDefinedRequest v q) s (fun t => Only [.sec] s t ∧ SpdmSays s t v (.error 0x0B)))) ∧
  (∀ (s : State) (v : SpdmVia), s.blk.mgmt.resetting = true → s.blk.ideIn true = true →
    exec (.getVersion v) s = .next s ∧ exec (.getDigests v) s = .next s) ∧
  (∀ (s : State) (k : Option (Fin 2)), s.blk.dead = false → s.blk.ideIn true = false →
    Does (.getVersion ⟨true, k⟩) s (fun t => Only [.regs] s t ∧ (t.blk.reg Reg.secErr).getLsbD 5 = true) ∧
    Does (.getVersion ⟨false, k⟩) s (fun t => Only [.hub, .regs] s t ∧ (t.blk.reg Reg.secErr).getLsbD 5 = true ∧
      bit (tget (fun _ => 0) t.blk.hub.aer 0) 20 = true))

/-! ## Power, temperature and calibration -/

/-- PWR_STATE is answered PWR_BUSY while a transition runs and 0xB1 where the transition is not allowed; one between RUN, TRIM and QUIET that gates no
Tiller with a task ends at once, and one that does waits. The entry into HOLD freezes the leases, and ends once the tracker is free and
the ports are closed; QUIET comes back from it, and OFF answers before the device is silent. A wait past TIMEOUT_MS reverts (R396 to R402,
R413).
Each of these completes, that is, exec answers a next state wherever the hypotheses on the state and the operands hold: pwrState, holdEntryDrained,
powerTimeout. -/
def Obligations.PowerStatesChange : Prop :=
  (∀ (s : State) (c : CmdId) (r : CmdRec), MgmtRuns s.blk c 0x40 r →
    let st := r.arg 0x08 1
    let m := r.arg 0x0C 4
    let ok := pwrAllowed s.blk.pwr.state s.blk.pwr.mask st m = true
    let mv : PwrMove := { cmd := c, state := st, mask := m, deadline := r.at_ + r.arg 0x10 4 * 1000000 }
    (∀ x, s.blk.pwr.move = some x → x.cmd ≠ c → Does (.pwrState c) s (fun t => EndsOnly [] s t c r 0xB0 [])) ∧
    (s.blk.pwr.move = none → s.blk.str.commit = none → ¬ ok → Does (.pwrState c) s (fun t => EndsOnly [] s t c r 0xB1 [])) ∧
    (s.blk.pwr.move = none → s.blk.str.commit = none → ok → st ≤ 2 → s.blk.pwr.state ≤ 2 →
      (∀ k, k < 24 → powerGates st m k = true → (s.blk.til k).run = none) →
      Does (.pwrState c) s (fun t => Ends s t c r 0 (toLe 1 st) ∧ t.blk.pwr = { s.blk.pwr with state := st, mask := m })) ∧
    (s.blk.pwr.move = none → s.blk.str.commit = none → ok → st ≤ 2 → s.blk.pwr.state ≤ 2 →
      (∃ k, k < 24 ∧ powerGates st m k = true ∧ (s.blk.til k).run ≠ none) →
      Does (.pwrState c) s (fun t => Only ([.hub, .pwr] ++ quietRegions) s t ∧ t.blk.pwr = { s.blk.pwr with move := some mv })) ∧
    (s.blk.pwr.move = none → s.blk.str.commit = none → s.blk.pwr.state = 2 → st = 3 → s.blk.pair.code ≠ 1 → s.blk.pair.code ≠ 5 →
      Does (.pwrState c) s (fun t => Only ([.hub, .pwr, .pair] ++ quietRegions) s t ∧ t.blk.pwr.holding = true ∧ t.blk.pwr.move = some mv ∧
        t.blk.pwr.frozenLeases = (s.blk.ext.leases.filter (fun l => l.2.live)).map (fun l => (l.1, l.2.deadline - s.blk.tb)))) ∧
    (s.blk.pwr.move = none → s.blk.str.commit = none → s.blk.pwr.state = 3 → st = 2 →
      Does (.pwrState c) s (fun t => Ends s t c r 0 [2] ∧ t.blk.pwr.state = 2 ∧ t.blk.pwr.holding = false ∧ t.blk.pwr.move = none ∧
        t.blk.ext.leases = s.blk.pwr.frozenLeases.foldl (fun m f => mmod m f.1 (fun l => { l with deadline := s.blk.tb + f.2 }))
          s.blk.ext.leases)) ∧
    (s.blk.pwr.move = none → s.blk.str.commit = none → s.blk.pwr.state = 3 → st = 4 →
      Does (.pwrState c) s (fun t => Ends s t c r 0 [4] ∧ t.blk.pwr.state = 4 ∧ t.blk.dead = true))) ∧
  (∀ (s : State) (m : PwrMove), s.blk.dead = false → s.blk.pwr.move = some m →
    (∀ r, m.state = 3 → s.blk.trackersFree = true → s.blk.portsClosed = true → s.blk.cmd m.cmd = some r → r.lost = false →
      Does .holdEntryDrained s (fun t => Ends s t m.cmd r 0 [3] ∧ t.blk.pwr.state = 3 ∧ t.blk.pwr.mask = 0 ∧ t.blk.pwr.move = none)) ∧
    (m.state = 3 → s.blk.trackersFree = false → exec .holdEntryDrained s = .next s) ∧
    (∀ r, m.state ≠ 3 → m.deadline ≤ s.blk.tb → s.blk.cmd m.cmd = some r → r.lost = false →
      Does .powerTimeout s (fun t => EndsOnly ([.pwr] ++ quietRegions) s t m.cmd r 0xB0 [] ∧ t.blk.pwr = { s.blk.pwr with move := none } ∧
        (t.blk.reg Reg.pwrErr).getLsbD 0 = true)) ∧
    (s.blk.tb < m.deadline → exec .powerTimeout s = .next s))

/-- PWR_VCORE moves the setpoint and is answered when the rail has slewed 1 mV per µs; PWR_WARM_RESET is answered 1 ms before its reset. PWR_READ and
CAL_READ answer their readings and copy. CAL_WRITE takes a set that verifies or composes one, and its end stands in flash or erases the
slot. A thermal scan keeps the readings, warns at the threshold and trips for good (R404 to R406, R410 to R413). That CAL_READ answers
LENGTH 0 where flash holds no TYPE 5 entry, and PWR_READ free temperatures before a scan, is the model's reading (log entry 38).
Each of these completes, that is, exec answers a next state wherever the hypotheses on the state and the operands hold: pwrVcore, vcoreSettled,
pwrWarmReset, pwrRead, calRead, calWrite, calWriteDone, thermalScan. -/
def Obligations.RailsHeatAndCalibrationAct : Prop :=
  (∀ (s : State) (c : CmdId) (r : CmdRec), MgmtRuns s.blk c 0x41 r → s.blk.pwr.vcoreCmd = none →
    let mv := r.arg 0x08 2
    Does (.pwrVcore c) s (fun t => Only [.hub, .pwr] s t ∧ t.blk.pwr = { s.blk.pwr with
      vcore := mv, vcoreCmd := some (c, s.blk.pwr.vcore, s.blk.tb + ((mv - s.blk.pwr.vcore) + (s.blk.pwr.vcore - mv)) * 1000) })) ∧
  (∀ (s : State) (c : CmdId) (r : CmdRec) (o x : Nat), s.blk.dead = false → s.blk.pwr.vcoreCmd = some (c, o, x) → s.blk.cmd c = some r →
    r.lost = false → (x ≤ s.blk.tb → Does .vcoreSettled s (fun t => EndsOnly [.pwr] s t c r 0 [] ∧
      t.blk.pwr = { s.blk.pwr with vcoreCmd := none })) ∧ (s.blk.tb < x → exec .vcoreSettled s = .next s)) ∧
  (∀ (s : State) (c : CmdId) (r : CmdRec), MgmtRuns s.blk c 0x42 r → Does (.pwrWarmReset c) s (fun t => EndsOnly [.pwr] s t c r 0 [] ∧
    t.blk.pwr = { s.blk.pwr with warm := some (s.blk.tb + 1000000) })) ∧
  (∀ (s : State) (c : CmdId) (r : CmdRec), MgmtRuns s.blk c 0x43 r → Does (.pwrRead c) s (fun t => EndsOnly [.fresh] s t c r 0
    (toLe 4 (Config.vin s.blk.fresh) ++ toLe 4 (Config.iin s.blk.fresh) ++
      if s.blk.pwr.temps.isEmpty then (List.range 5).map (Config.dieTemp s.blk.fresh) else s.blk.pwr.dieTemps.map sbyte))) ∧
  (∀ (s : State) (c : CmdId) (r : CmdRec), MgmtRuns s.blk c 0x48 r →
    (∀ o, calSlot s.nv.flash = some o → (s.blk.win r.f).master = true → s.blk.ideOk r.f = true → Does (.calRead c) s (fun t =>
      EndsOnly [] s t c r 0 (toLe 4 65536) ∧
      ∃ l, t.blk.hub.out = s.blk.hub.out ++ s.blk.putWrites r.f (r.arg 0x10 4) (r.arg 0x08 8) (cread s.nv.flash o 65536) ++ l)) ∧
    (∀ o, calSlot s.nv.flash = some o → (s.blk.win r.f).master = false → exec (.calRead c) s = .next s) ∧
    (calSlot s.nv.flash = none → Does (.calRead c) s (fun t => EndsOnly [] s t c r 0 (toLe 4 0)))) ∧
  (∀ (s : State) (c : CmdId) (r : CmdRec) (bs : Bytes), MgmtRuns s.blk c 0x49 r → s.blk.pwr.calWriting = none →
    (calSlot s.nv.flash).isSome = true →
    (r.arg 0x08 1 = 1 → Does (.calWrite c (.data bs false)) s (fun t => Only [.hub, .pwr, .fresh] s t ∧
      t.blk.pwr = { s.blk.pwr with calWriting := some (c, s.blk.composeCal s.blk.fresh (s.blk.fresh + 1)) })) ∧
    (r.arg 0x08 1 ≠ 1 → s.blk.mayRead = false → exec (.calWrite c (.data bs false)) s = .next s) ∧
    (r.arg 0x08 1 ≠ 1 → s.blk.mayRead = true → ReadRoom s.blk r → Does (.calWrite c (.data bs false)) s (fun t =>
      if calOk s.blk.sec.otp.serial s.blk.sec.kCal (fit calLen bs) then Only [.hub, .pwr] s t ∧
        t.blk.pwr = { s.blk.pwr with calWriting := some (c, fit calLen bs) }
      else EndsOnly [] s t c r 0xB3 [] ∧ (t.blk.reg Reg.calErr).getLsbD 1 = true))) ∧
  (∀ (s : State) (c : CmdId) (r : CmdRec) (bs : Bytes) (o : Nat), s.blk.dead = false → s.blk.pwr.calWriting = some (c, bs) →
    s.blk.cmd c = some r → r.lost = false → calSlot s.nv.flash = some o →
    Does (.calWriteDone true) s (fun t => Ends s t c r 0 [] ∧ t.nv = { s.nv with flash := s.blk.flashWrite s.nv.flash o bs } ∧
      t.blk.pwr = { s.blk.pwr with calWriting := none } ∧ mget t.blk.sec.meas 10 = some (sha256 bs) ∧
      t.blk.reg Reg.calWriteCount = BitVec.ofNat 32 (calCountOf bs)) ∧
    Does (.calWriteDone false) s (fun t => Ends s t c r 0xB4 [] ∧ t.nv = { s.nv with flash := cclear s.nv.flash o calLen } ∧
      t.blk.pwr = { s.blk.pwr with calWriting := none } ∧ (t.blk.reg Reg.calErr).getLsbD 2 = true)) ∧
  (∀ (s : State) (ts : List Int), s.blk.pwr.on = true → s.blk.frozen = false →
    (∀ x, s.blk.pwr.scanAt = some x → s.blk.tb < x + 100000 → exec (.thermalScan ts) s = .next s) ∧
    (ts.length = 34 → (∀ x, s.blk.pwr.scanAt = some x → x + 100000 ≤ s.blk.tb) →
      Does (.thermalScan ts) s (fun t => Only [.regs, .pwr, .pins, .fresh] s t ∧ t.blk.pwr.temps = ts ∧
      t.blk.pwr.scanAt = some s.blk.tb ∧
      (s.blk.thermLimits.1 ≤ maxTemp ts → t.blk.pwr.warn = true) ∧
      ((∀ x ∈ ts, x + 3 ≤ s.blk.thermLimits.1) → t.blk.pwr.warn = false) ∧
      t.blk.pwr.trip = (s.blk.pwr.trip || decide (s.blk.thermLimits.2 ≤ maxTemp ts)) ∧
      t.blk.pins.devFault = (s.blk.pins.devFault || t.blk.pwr.trip))))

/-! ## Counters, rings and snapshots -/

/-- The loss of the reference holds the timebase and fences a paired controller, and its return resumes it. A counter dump is taken at its period,
written where it fits and skipped and counted where it does not. OBS_PC_CTL programs the selected counter, which starts at 0. CTR_READ,
SMP_READ and TSTEP_READ answer what belongs to the partition, and 0xC0 where COUNTER_READ is missing (R418, R420, R424, R426,
R429 to R431, R435).
Each of these completes, that is, exec answers a next state wherever the hypotheses on the state and the operands hold: referenceLost,
referenceRestored, counterDump, pcCtlWrite, ctrRead, smpRead, tstepRead. -/
def Obligations.CountersAndDumpsAct : Prop :=
  (∀ s : State, s.blk.frozen = false → (∀ x ∈ s.blk.coh.txns, ∀ m d o, x.phase ≠ .mirror m d o) →
    Does .referenceLost s (fun t => t.blk.frozen = true ∧ t.blk.tb = s.blk.tb ∧
    (t.blk.reg Reg.obsErr).getLsbD 5 = true ∧ (s.blk.pair.role ≠ 0 → t.blk.pair.fenced = true))) ∧
  (∀ (s : State) (n : DWord), s.blk.frozen = true → Does (.referenceRestored n) s (fun t => t.blk.frozen = false ∧ t.blk.tb = s.blk.tb)) ∧
  (∀ (s : State) (n : DWord), s.blk.frozen = false → exec (.referenceRestored n) s = .next s) ∧
  (∀ s : State, s.blk.dead = false → s.blk.frozen = false →
    let p := s.blk.str.run.trace.dumpUs * 1000
    let at_ := s.blk.tb / p * p
    p ≠ 0 →
    (at_ ≤ s.blk.rings.dumpAt → exec .counterDump s = .next s) ∧
    (s.blk.rings.dumpAt < at_ → s.blk.pwr.state = 3 ∨ s.blk.rings.dump.ext = none → Does .counterDump s (fun t => Only [.rings] s t ∧
      t.blk.rings = { s.blk.rings with dumpAt := at_ })) ∧
    (∀ i e, s.blk.rings.dumpAt < at_ → s.blk.pwr.state ≠ 3 → s.blk.rings.dump.ext = some i → s.blk.extEnt i = some e →
      (s.blk.extRt i).state ≠ .init → s.blk.rings.dump.free e.size < (s.blk.dumpBytes at_).length →
      Does .counterDump s (fun t => Only [.rings, .regs] s t ∧ t.blk.rings.dumpSkip = s.blk.rings.dumpSkip + 1 ∧
        t.blk.rings.dumpSeq = s.blk.rings.dumpSeq + 1 ∧ t.blk.rings.dump = s.blk.rings.dump ∧ (t.blk.reg Reg.obsErr).getLsbD 0 = true)) ∧
    (∀ i e, s.blk.rings.dumpAt < at_ → s.blk.pwr.state ≠ 3 → s.blk.rings.dump.ext = some i → s.blk.extEnt i = some e →
      (s.blk.extRt i).state ≠ .init → (s.blk.dumpBytes at_).length ≤ s.blk.rings.dump.free e.size →
      let b1 : Blk := { s.blk with rings := { s.blk.rings with dumpAt := at_ } }
      (b1.ringPut e s.blk.rings.dump (b1.dumpBytes at_)).1 = true →
      Does .counterDump s (fun t => Only quietRegions s t ∧ t.blk.rings.dumpSeq = s.blk.rings.dumpSeq + 1 ∧ t.blk.rings.dumpSkip = 0 ∧
        t.blk.rings.dump = { s.blk.rings.dump with head := (s.blk.rings.dump.head + (s.blk.dumpBytes at_).length) % e.size }))) ∧
  (∀ (s : State) (v : Word) (u i : Nat), HostWrites s.blk → s.blk.pcSel = some (u, i) →
    Does (.pcCtlWrite v) s (fun t => Only [.pcs] s t ∧ t.blk.pc u i = ⟨v.toNat % 256, v.toNat / 256 % 64, v.getLsbD 14,
      v.getLsbD 15 && i % 2 == 1, (s.blk.pc u i).ovf && !v.getLsbD 16, 0⟩)) ∧
  (∀ (s : State) (c : CmdId) (r : CmdRec),
    (HubRuns s.blk c 0x50 r → s.blk.mayCount r = true → Does (.ctrRead c) s (fun t => EndsOnly [] s t c r 0
      ((List.range (r.arg 0x0A 1)).map (fun i =>
        let k := s.blk.pc (r.arg 0x08 1) (r.arg 0x09 1 + i);
        toLe 8 (if r.owns k.part k.all then pcWord k true else 0))).flatten)) ∧
    (HubRuns s.blk c 0x51 r → s.blk.mayCount r = true → let z := s.blk.smp (r.arg 0x08 2)
      Does (.smpRead c) s (fun t => EndsOnly [] s t c r 0 (if r.owns z.part z.all then
        toLe 4 z.maxDepth ++ toLe 4 z.maxDelay ++ binBytes z.depth 2 ++ binBytes z.delay 2 ++ toLe 1 1 else []))) ∧
    (HubRuns s.blk c 0x52 r → s.blk.mayCount r = true → let k := r.arg 0x08 1
      Does (.tstepRead c) s (fun t => EndsOnly [] s t c r 0 (if r.owns (s.blk.ownerOfTil k) false then
        ((List.range 6).map (fun i => toLe 8 (s.blk.tdShow k i))).flatten ++ toLe 1 1 else []))) ∧
    (s.blk.mayCount r = false → (HubRuns s.blk c 0x50 r → Does (.ctrRead c) s (fun t => EndsOnly [] s t c r 0xC0 [])) ∧
      (HubRuns s.blk c 0x51 r → Does (.smpRead c) s (fun t => EndsOnly [] s t c r 0xC0 [])) ∧
      (HubRuns s.blk c 0x52 r → Does (.tstepRead c) s (fun t => EndsOnly [] s t c r 0xC0 []))))

/-- SNAPSHOT stops issue and latches what its first sections show, or is turned away with 0xC1 while one runs and with its status where the
destination does not lie in one ACTIVE extent of partition 0; its end writes it, answers, and resumes issue unless HOLD is set; RELEASE
resumes what HOLD kept stopped, and changes nothing while a snapshot runs, which is the model's choice (log entry 45). TRACE_MARK writes a
marker record. OBS_RING_EXTENT names a ring's extent anew, with both pointers 0, or is ignored; a TAIL inside its ring is taken (R427, R429,
R433 to R437, R439).
Each of these completes, that is, exec answers a next state wherever the hypotheses on the state and the operands hold: snapshot, snapshotEnd,
snapRelease, traceMark, ringExtentWrite, tailWrite. -/
def Obligations.SnapshotsAndRingsAct : Prop :=
  (∀ (s : State) (c : CmdId) (r : CmdRec), HubRuns s.blk c 0x53 r → r.started = false →
    let a := if r.arg 0x08 8 = 0 then s.blk.snapAddr else r.arg 0x08 8
    let st := s.blk.snapDest a (max 1 (r.arg 0x10 4))
    (s.blk.rings.snap ≠ none → Does (.snapshot c) s (fun t => EndsOnly [] s t c r 0xC1 [])) ∧
    (s.blk.rings.snap = none → st ≠ 0 → Does (.snapshot c) s (fun t => EndsOnly [] s t c r st [])) ∧
    (s.blk.rings.snap = none → st = 0 → Does (.snapshot c) s (fun t => Only [.hub, .rings, .fresh] s t ∧ t.blk.rings.stopped = true ∧
      ∃ z, t.blk.rings.snap = some z ∧ z.trigger = 1 ∧ z.t0 = s.blk.tb ∧ z.addr = a ∧ z.limit = r.arg 0x10 4 ∧ z.cmd = some c))) ∧
  (∀ (s : State) (z : Snap) (c : CmdId) (r : CmdRec), s.blk.dead = false → s.blk.rings.snap = some z → z.cmd = some c →
    s.blk.cmd c = some r → r.lost = false → let x := s.blk.snapBytes z
    Does .snapshotEnd s (fun t => Ends s t c r 0 (toLe 4 x.1.length ++ toLe 1 (b2n x.2)) ∧ t.blk.rings.snap = none ∧
      t.blk.rings.stopped = decide (s.blk.field Reg.obsSnapCfg 2 1 = 1))) ∧
  (∀ s : State, HostWrites s.blk →
    (s.blk.rings.snap = none → Does .snapRelease s (fun t => Only [.rings] s t ∧ t.blk.rings = { s.blk.rings with stopped := false })) ∧
    (s.blk.rings.snap ≠ none → exec .snapRelease s = .next s)) ∧
  (∀ (s : State) (c : CmdId) (r : CmdRec) (i : Nat) (e : ExtEnt), HubRuns s.blk c 0x54 r → s.blk.traceOn 13 = true →
    s.blk.rings.trace.ext = some i → s.blk.extEnt i = some e → (s.blk.extRt i).state ≠ .init → s.blk.rings.trace.wrap = false →
    s.blk.rings.trace.lost = 0 → 64 ≤ s.blk.rings.trace.free e.size →
    let m : TraceRec := { source := 13, event := 1, unit := 112, a := r.arg 0x08 8 }
    (s.blk.ringPut e s.blk.rings.trace (m.bytes s.blk.tb)).1 = true →
    Does (.traceMark c) s (fun t => Only (.hub :: quietRegions) s t ∧ Ends s t c r 0 [] ∧
      t.blk.rings.trace = { s.blk.rings.trace with head := (s.blk.rings.trace.head + 64) % e.size })) ∧
  (∀ (s : State) (c : CmdId) (r : CmdRec), HubRuns s.blk c 0x54 r → s.blk.traceOn 13 = false →
    Does (.traceMark c) s (fun t => EndsOnly [] s t c r 0 [])) ∧
  (∀ (s : State) (v : Word), HostWrites s.blk → s.blk.field Reg.obsRingSel 0 2 = 1 →
    let e := if v.getLsbD 31 then some (v.toNat % 2 ^ 18) else none
    let ok := ∀ i, e = some i → ((s.blk.extEnt i).map (·.part)) = some 0 ∧ (s.blk.extRt i).state = .active
    (ok → Does (.ringExtentWrite v) s (fun t => t.blk.rings.dump = { s.blk.rings.dump with ext := e, head := 0, tail := 0 } ∧
      t.blk.str.run.trace.dumpExt = e)) ∧
    (¬ ok → Does (.ringExtentWrite v) s (fun t => Only [.regs] s t ∧ (t.blk.reg Reg.obsErr).getLsbD 6 = true))) ∧
  (∀ (s : State) (hi : Bool) (v : Word), HostWrites s.blk → s.blk.field Reg.obsRingSel 0 2 = 1 →
    let r := s.blk.rings.dump
    let x := if hi then r.tail % 2 ^ 32 + v.toNat % 256 * 2 ^ 32 else r.tail / 2 ^ 32 * 2 ^ 32 + v.toNat
    (x < s.blk.ringSize → Does (.tailWrite hi v) s (fun t => Only [.rings] s t ∧ t.blk.rings = { s.blk.rings with dump := { r with tail := x } })) ∧
    (s.blk.ringSize ≤ x → exec (.tailWrite hi v) s = .next s))

/-! ## The sideband -/

/-- An SMBus Read Byte of the target's address returns the highest temperature, the pins, the power state or the input voltage, and any other command
code, address or transaction gets NACK. The TAP shows its ID, and drives the lands by EXTEST until a structure is loaded; at a debug level of 1
or 2 it shows the register, the word of the queue heads or of the trace state that it reads, and at level 2 it writes registers and does what
else there is, whose data are free; an instruction that the level does not offer acts as BYPASS (R388, R448 to R450). That a level 1 read of the
default log ring acts as BYPASS, and how the instructions are numbered, are the model's choices (log entry 40).
Each of these completes, that is, exec answers a next state wherever the hypotheses on the state and the operands hold: smbusReadByte, jtagAccess. -/
def Obligations.SidebandShowsTheDevice : Prop :=
  (∀ s : State, s.blk.pwr.on = true → let a := BitVec.ofNat 7 s.blk.smbAddr
    (s.blk.pwr.temps = [] → Does (.smbusReadByte a (.readByte 0)) s (fun t => Only [.pins] s t ∧ t.blk.pins = { s.blk.pins with smb := some 0x80 })) ∧
    (s.blk.pwr.temps ≠ [] → Does (.smbusReadByte a (.readByte 0)) s (fun t => Only [.pins] s t ∧
      t.blk.pins = { s.blk.pins with smb := some (sbyte (maxTemp s.blk.pwr.temps)) })) ∧
    Does (.smbusReadByte a (.readByte 1)) s (fun t => Only [.pins] s t ∧ t.blk.pins = { s.blk.pins with smb := some (BitVec.ofNat 8 s.blk.smbPins) }) ∧
    Does (.smbusReadByte a (.readByte 2)) s (fun t => Only [.pins] s t ∧
      t.blk.pins = { s.blk.pins with smb := some (BitVec.ofNat 8 s.blk.pwr.state) }) ∧
    Does (.smbusReadByte a (.readByte 3)) s (fun t => Only [.pins, .fresh] s t ∧ t.blk.pins = { s.blk.pins with
      smb := some (BitVec.ofNat 8 (min 255 (Config.vin s.blk.fresh / 500))) }) ∧
    (∀ (b : BitVec 7) (w : SmbOp), b ≠ a ∨ (∀ k : Byte, w = .readByte k → 3 < k.toNat) → Does (.smbusReadByte b w) s (fun t => Only [.pins] s t ∧
      t.blk.pins = { s.blk.pins with smb := none }))) ∧
  (∀ s : State, s.blk.pwr.on = true → s.blk.pwr.state ≠ 4 →
    let shows := fun (ir : Nat) (v : Word) (t : State) => Only [.pins] s t ∧ t.blk.pins = { s.blk.pins with tap := ir, tdo := v, extest := false }
    let free := fun (t : State) => Only [.pins, .fresh] s t ∧ t.blk.pins.tdo = Config.boundary s.blk.fresh
    Does (.jtagAccess .testReset) s (shows 1 0x12400D1B) ∧ Does (.jtagAccess .idcode) s (shows 1 0x12400D1B) ∧
    Does (.jtagAccess .bypass) s (shows 0 0) ∧
    (∀ w : Word, Does (.jtagAccess (.samplePreload w)) s (fun t => free t ∧ t.blk.pins.tap = 2 ∧ t.blk.pins.boundary = w ∧
      t.blk.pins.extest = false)) ∧
    (s.blk.str.loaded = true → Does (.jtagAccess .extest) s (shows 0 0)) ∧
    (s.blk.str.loaded = false → Does (.jtagAccess .extest) s (fun t => free t ∧ t.blk.pins.tap = 3 ∧ t.blk.pins.extest = true ∧
      ∀ i w own, t.blk.padShow i w own = Config.landOf s.blk.pins.boundary i % 2 ^ w)) ∧
    (∀ off : BitVec 28,
      (s.blk.sec.debug = 2 ∨ (s.blk.sec.debug = 1 ∧ off.toNat < 0xFC00000) → Does (.jtagAccess (.readRegister off)) s
        (shows 4 (s.blk.readReg off.toNat))) ∧
      (s.blk.sec.debug = 0 ∨ (s.blk.sec.debug = 1 ∧ 0xFC00000 ≤ off.toNat) → Does (.jtagAccess (.readRegister off)) s (shows 0 0))) ∧
    (∀ (i : Nat) (k : Fin 3), let g := match k with
        | 0 => s.blk.rings.log
        | 1 => s.blk.rings.dump
        | 2 => s.blk.rings.trace
      (1 ≤ s.blk.sec.debug → Does (.jtagAccess (.readQueue i)) s (shows 4 (wordAt s.blk.snapQueues.flatten i)) ∧
        Does (.jtagAccess (.readTrace k i)) s (shows 4 (wordAt g.stateBytes i))) ∧
      (s.blk.sec.debug = 0 → Does (.jtagAccess (.readQueue i)) s (shows 0 0) ∧ Does (.jtagAccess (.readTrace k i)) s (shows 0 0))) ∧
    (∀ (off : BitVec 28) (v : Word),
      (s.blk.sec.debug = 2 → Does (.jtagAccess (.writeRegister off v)) s (fun t => t.nv = s.nv ∧ t.pending = s.pending ∧
          OnlyBlk [.pins] (s.blk.writeReg off.toNat v) t.blk ∧ t.blk.pins.tap = 5) ∧
        Does (.jtagAccess .fullAccess) s (fun t => Only [.pins, .fresh] s t ∧ t.blk.pins.tap = 5 ∧
          t.blk.pins.tdo = Config.jtagData s.blk.fresh)) ∧
      (s.blk.sec.debug < 2 → Does (.jtagAccess (.writeRegister off v)) s (shows 0 0) ∧ Does (.jtagAccess .fullAccess) s (shows 0 0))))
end

