-- ==== Sys2Proof/Laws/Cells.lean ====
section
/-! SUPPORT. Byte storage: every operation keeps its canonical form, and a range that has been cleared reads as unlisted. -/

namespace Sys2Proof.Machine

theorem Cells.wf_iff (m : Cells) :
    m.wf = true ↔ m.Pairwise (fun x y => x.1 < y.1) ∧ ∀ c ∈ m, c.2 ≠ Cells.unlisted := by
  simp [Cells.wf]

theorem cellsOf_mem (a : Nat) (bs : Bytes) (c : Host.Cell) (h : c ∈ cellsOf a bs) :
    a ≤ c.1 ∧ c.1 < a + bs.length ∧ c.2 ≠ Cells.unlisted := by
  induction bs generalizing a with
  | nil => simp [cellsOf] at h
  | cons x t ih =>
    simp only [cellsOf] at h
    split at h
    · have := ih (a + 1) h
      simp only [List.length_cons]
      refine ⟨by omega, by omega, this.2.2⟩
    · rename_i hx
      rcases List.mem_cons.1 h with h | h
      · subst h
        simp only [List.length_cons]
        exact ⟨by omega, by omega, hx⟩
      · have := ih (a + 1) h
        simp only [List.length_cons]
        refine ⟨by omega, by omega, this.2.2⟩

theorem cellsOf_sorted (a : Nat) (bs : Bytes) : (cellsOf a bs).Pairwise (fun x y => x.1 < y.1) := by
  induction bs generalizing a with
  | nil => simp [cellsOf]
  | cons x t ih =>
    simp only [cellsOf]
    split
    · exact ih (a + 1)
    · rw [List.pairwise_cons]
      refine ⟨fun c hc => ?_, ih (a + 1)⟩
      have := cellsOf_mem (a + 1) t c hc
      show a < c.1
      omega

theorem cwrite_wf (m : Cells) (a : Nat) (bs : Bytes) (h : m.wf = true) : Cells.wf (cwrite m a bs) = true := by
  rw [Cells.wf_iff] at *
  obtain ⟨hp, hv⟩ := h
  unfold cwrite
  refine ⟨?_, ?_⟩
  · rw [List.pairwise_append, List.pairwise_append]
    refine ⟨⟨hp.filter _, cellsOf_sorted a bs, ?_⟩, hp.filter _, ?_⟩
    · intro x hx y hy
      have h1 := (List.mem_filter.1 hx).2
      have h2 := cellsOf_mem a bs y hy
      simp at h1
      omega
    · intro x hx y hy
      have h2 := (List.mem_filter.1 hy).2
      simp at h2
      rcases List.mem_append.1 hx with hx | hx
      · have h1 := (List.mem_filter.1 hx).2
        simp at h1
        omega
      · have h1 := cellsOf_mem a bs x hx
        omega
  · intro c hc
    rcases List.mem_append.1 hc with hc | hc
    · rcases List.mem_append.1 hc with hc | hc
      · exact hv c (List.mem_filter.1 hc).1
      · exact (cellsOf_mem a bs c hc).2.2
    · exact hv c (List.mem_filter.1 hc).1

theorem cclear_wf (m : Cells) (a n : Nat) (h : m.wf = true) : Cells.wf (cclear m a n) = true := by
  rw [Cells.wf_iff] at *
  obtain ⟨hp, hv⟩ := h
  unfold cclear
  refine ⟨?_, ?_⟩
  · rw [List.pairwise_append]
    refine ⟨hp.filter _, hp.filter _, ?_⟩
    intro x hx y hy
    have h1 := (List.mem_filter.1 hx).2
    have h2 := (List.mem_filter.1 hy).2
    simp at h1 h2
    omega
  · intro c hc
    rcases List.mem_append.1 hc with hc | hc
    · exact hv c (List.mem_filter.1 hc).1
    · exact hv c (List.mem_filter.1 hc).1

end Sys2Proof.Machine
end

