-- ==== Sys2Proof/Laws/Tab.lean ====
section
/-! SUPPORT. Reading and writing of maps and tables, and that every operation keeps their canonical form. -/

namespace Sys2Proof.Machine

@[simp] theorem mget_mput_self {α : Type} (m : Map α) (k : Nat) (v : α) : mget (mput m k v) k = some v := by
  induction m with
  | nil => simp [mput, mget]
  | cons a t ih =>
    simp only [mput]
    split
    · simp [mget]
    · split
      · simp [mget]
      · rename_i h1 h2
        simp [mget, Ne.symm h2, ih]

theorem mget_mput_ne {α : Type} (m : Map α) (k j : Nat) (v : α) (h : j ≠ k) : mget (mput m k v) j = mget m j := by
  induction m with
  | nil => simp [mput, mget, Ne.symm h]
  | cons a t ih =>
    simp only [mput]
    split
    · simp [mget, Ne.symm h]
    · split
      · rename_i h1 h2
        subst h2
        simp [mget, Ne.symm h]
      · simp [mget, ih]

theorem mget_mput {α : Type} (m : Map α) (k j : Nat) (v : α) : mget (mput m k v) j = if j = k then some v else mget m j := by
  by_cases h : j = k
  · subst h; simp
  · simp [h, mget_mput_ne m k j v h]

@[simp] theorem mget_mdel_self {α : Type} (m : Map α) (k : Nat) : mget (mdel m k) k = none := by
  induction m with
  | nil => rfl
  | cons a t ih => by_cases h : a.1 = k <;> simp [mdel, mget, h, ih]

theorem mget_mdel_ne {α : Type} (m : Map α) (k j : Nat) (h : j ≠ k) : mget (mdel m k) j = mget m j := by
  induction m with
  | nil => rfl
  | cons a t ih =>
    by_cases h1 : a.1 = k
    · simp [mdel, mget, h1, ih, Ne.symm h]
    · simp [mdel, mget, h1, ih]

@[simp] theorem tget_tset_self {α : Type} [DecidableEq α] (d : Nat → α) (t : Tab α) (k : Nat) (v : α) :
    tget d (tset d t k v) k = v := by
  unfold tget tset
  split
  · rename_i h; simp [h]
  · simp

theorem tget_tset_ne {α : Type} [DecidableEq α] (d : Nat → α) (t : Tab α) (k j : Nat) (v : α) (h : j ≠ k) :
    tget d (tset d t k v) j = tget d t j := by
  unfold tget tset
  split
  · rw [mget_mdel_ne t k j h]
  · rw [mget_mput_ne t k j v h]

@[simp] theorem tget_tmod_self {α : Type} [DecidableEq α] (d : Nat → α) (t : Tab α) (k : Nat) (f : α → α) :
    tget d (tmod d t k f) k = f (tget d t k) := by
  unfold tmod; simp

theorem tget_tmod_ne {α : Type} [DecidableEq α] (d : Nat → α) (t : Tab α) (k j : Nat) (f : α → α) (h : j ≠ k) :
    tget d (tmod d t k f) j = tget d t j := tget_tset_ne d t k j _ h

/-! ## The canonical form -/

theorem Map.wf_iff {α : Type} (m : Map α) : m.wf = true ↔ m.Pairwise (fun a b => a.1 < b.1) := by
  simp [Map.wf]

theorem mput_mem {α : Type} (m : Map α) (k : Nat) (v : α) (e : Nat × α) (h : e ∈ mput m k v) : e = (k, v) ∨ e ∈ m := by
  induction m with
  | nil => simpa [mput] using h
  | cons a t ih =>
    simp only [mput] at h
    split at h
    · simpa using h
    · split at h
      · rcases List.mem_cons.1 h with h | h
        · exact .inl h
        · exact .inr (List.mem_cons_of_mem _ h)
      · rcases List.mem_cons.1 h with h | h
        · exact .inr (h ▸ List.mem_cons_self)
        · rcases ih h with h | h
          · exact .inl h
          · exact .inr (List.mem_cons_of_mem _ h)

theorem mput_wf {α : Type} (m : Map α) (k : Nat) (v : α) (h : m.wf = true) : Map.wf (mput m k v) = true := by
  rw [Map.wf_iff] at *
  induction m with
  | nil => simp [mput]
  | cons a t ih =>
    rw [List.pairwise_cons] at h
    simp only [mput]
    split
    · rename_i h1
      rw [List.pairwise_cons, List.pairwise_cons]
      refine ⟨fun e he => ?_, h⟩
      rcases List.mem_cons.1 he with he | he
      · subst he; exact h1
      · exact Nat.lt_trans h1 (h.1 e he)
    · split
      · rename_i h1 h2
        subst h2
        rw [List.pairwise_cons]
        exact h
      · rename_i h1 h2
        rw [List.pairwise_cons]
        refine ⟨fun e he => ?_, ih h.2⟩
        rcases mput_mem t k v e he with he | he
        · subst he; show a.1 < k; omega
        · exact h.1 e he

theorem mdel_sublist {α : Type} (m : Map α) (k : Nat) : (mdel m k).Sublist m := by
  induction m with
  | nil => exact .slnil
  | cons a t ih =>
    simp only [mdel]
    split
    · exact .cons _ ih
    · exact .cons_cons _ ih

theorem mdel_wf {α : Type} (m : Map α) (k : Nat) (h : m.wf = true) : Map.wf (mdel m k) = true := by
  rw [Map.wf_iff] at *
  exact h.sublist (mdel_sublist m k)

theorem tset_wf {α : Type} [DecidableEq α] (d : Nat → α) (t : Tab α) (k : Nat) (v : α) (h : Tab.wf d t = true) :
    Tab.wf d (tset d t k v) = true := by
  simp only [Tab.wf, Bool.and_eq_true, List.all_eq_true, decide_eq_true_eq] at *
  unfold tset
  split
  · refine ⟨mdel_wf t k h.1, fun e he => h.2 e ((mdel_sublist t k).subset he)⟩
  · rename_i hv
    refine ⟨mput_wf t k v h.1, fun e he => ?_⟩
    rcases mput_mem t k v e he with he | he
    · subst he; simpa using hv
    · exact h.2 e he

theorem tmod_wf {α : Type} [DecidableEq α] (d : Nat → α) (t : Tab α) (k : Nat) (f : α → α) (h : Tab.wf d t = true) :
    Tab.wf d (tmod d t k f) = true := tset_wf d t k _ h

end Sys2Proof.Machine
end

