-- ==== Sys2Proof/Laws/State.lean ====
section
/-! SUPPORT. What the named updates of the block leave as it is, field by field, and what they write. -/

namespace Sys2Proof.Machine

/-! ## setReg -/

@[simp] theorem Blk.setReg_dead (b : Blk) (off : Nat) (v : Word) : (b.setReg off v).dead = b.dead := rfl
@[simp] theorem Blk.setReg_pins (b : Blk) (off : Nat) (v : Word) : (b.setReg off v).pins = b.pins := rfl
@[simp] theorem Blk.setReg_tb (b : Blk) (off : Nat) (v : Word) : (b.setReg off v).tb = b.tb := rfl
@[simp] theorem Blk.setReg_frozen (b : Blk) (off : Nat) (v : Word) : (b.setReg off v).frozen = b.frozen := rfl
@[simp] theorem Blk.setReg_fresh (b : Blk) (off : Nat) (v : Word) : (b.setReg off v).fresh = b.fresh := rfl
@[simp] theorem Blk.setReg_aon (b : Blk) (off : Nat) (v : Word) : (b.setReg off v).aon = b.aon := rfl
@[simp] theorem Blk.setReg_pcs (b : Blk) (off : Nat) (v : Word) : (b.setReg off v).pcs = b.pcs := rfl
@[simp] theorem Blk.setReg_str (b : Blk) (off : Nat) (v : Word) : (b.setReg off v).str = b.str := rfl
@[simp] theorem Blk.setReg_pool (b : Blk) (off : Nat) (v : Word) : (b.setReg off v).pool = b.pool := rfl
@[simp] theorem Blk.setReg_chans (b : Blk) (off : Nat) (v : Word) : (b.setReg off v).chans = b.chans := rfl
@[simp] theorem Blk.setReg_ext (b : Blk) (off : Nat) (v : Word) : (b.setReg off v).ext = b.ext := rfl
@[simp] theorem Blk.setReg_coh (b : Blk) (off : Nat) (v : Word) : (b.setReg off v).coh = b.coh := rfl
@[simp] theorem Blk.setReg_fab (b : Blk) (off : Nat) (v : Word) : (b.setReg off v).fab = b.fab := rfl
@[simp] theorem Blk.setReg_traf (b : Blk) (off : Nat) (v : Word) : (b.setReg off v).traf = b.traf := rfl
@[simp] theorem Blk.setReg_work (b : Blk) (off : Nat) (v : Word) : (b.setReg off v).work = b.work := rfl
@[simp] theorem Blk.setReg_rings (b : Blk) (off : Nat) (v : Word) : (b.setReg off v).rings = b.rings := rfl
@[simp] theorem Blk.setReg_pair (b : Blk) (off : Nat) (v : Word) : (b.setReg off v).pair = b.pair := rfl
@[simp] theorem Blk.setReg_hub (b : Blk) (off : Nat) (v : Word) : (b.setReg off v).hub = b.hub := rfl
@[simp] theorem Blk.setReg_mgmt (b : Blk) (off : Nat) (v : Word) : (b.setReg off v).mgmt = b.mgmt := rfl
@[simp] theorem Blk.setReg_sec (b : Blk) (off : Nat) (v : Word) : (b.setReg off v).sec = b.sec := rfl
@[simp] theorem Blk.setReg_pwr (b : Blk) (off : Nat) (v : Word) : (b.setReg off v).pwr = b.pwr := rfl

/-! ## flag -/

@[simp] theorem Blk.flag_dead (b : Blk) (off i : Nat) : (b.flag off i).dead = b.dead := rfl
@[simp] theorem Blk.flag_pins (b : Blk) (off i : Nat) : (b.flag off i).pins = b.pins := rfl
@[simp] theorem Blk.flag_tb (b : Blk) (off i : Nat) : (b.flag off i).tb = b.tb := rfl
@[simp] theorem Blk.flag_frozen (b : Blk) (off i : Nat) : (b.flag off i).frozen = b.frozen := rfl
@[simp] theorem Blk.flag_fresh (b : Blk) (off i : Nat) : (b.flag off i).fresh = b.fresh := rfl
@[simp] theorem Blk.flag_aon (b : Blk) (off i : Nat) : (b.flag off i).aon = b.aon := rfl
@[simp] theorem Blk.flag_pcs (b : Blk) (off i : Nat) : (b.flag off i).pcs = b.pcs := rfl
@[simp] theorem Blk.flag_str (b : Blk) (off i : Nat) : (b.flag off i).str = b.str := rfl
@[simp] theorem Blk.flag_pool (b : Blk) (off i : Nat) : (b.flag off i).pool = b.pool := rfl
@[simp] theorem Blk.flag_chans (b : Blk) (off i : Nat) : (b.flag off i).chans = b.chans := rfl
@[simp] theorem Blk.flag_ext (b : Blk) (off i : Nat) : (b.flag off i).ext = b.ext := rfl
@[simp] theorem Blk.flag_coh (b : Blk) (off i : Nat) : (b.flag off i).coh = b.coh := rfl
@[simp] theorem Blk.flag_fab (b : Blk) (off i : Nat) : (b.flag off i).fab = b.fab := rfl
@[simp] theorem Blk.flag_traf (b : Blk) (off i : Nat) : (b.flag off i).traf = b.traf := rfl
@[simp] theorem Blk.flag_work (b : Blk) (off i : Nat) : (b.flag off i).work = b.work := rfl
@[simp] theorem Blk.flag_rings (b : Blk) (off i : Nat) : (b.flag off i).rings = b.rings := rfl
@[simp] theorem Blk.flag_pair (b : Blk) (off i : Nat) : (b.flag off i).pair = b.pair := rfl
@[simp] theorem Blk.flag_hub (b : Blk) (off i : Nat) : (b.flag off i).hub = b.hub := rfl
@[simp] theorem Blk.flag_mgmt (b : Blk) (off i : Nat) : (b.flag off i).mgmt = b.mgmt := rfl
@[simp] theorem Blk.flag_sec (b : Blk) (off i : Nat) : (b.flag off i).sec = b.sec := rfl
@[simp] theorem Blk.flag_pwr (b : Blk) (off i : Nat) : (b.flag off i).pwr = b.pwr := rfl

/-! ## count -/

@[simp] theorem Blk.count_dead (b : Blk) (off n : Nat) : (b.count off n).dead = b.dead := rfl
@[simp] theorem Blk.count_pins (b : Blk) (off n : Nat) : (b.count off n).pins = b.pins := rfl
@[simp] theorem Blk.count_tb (b : Blk) (off n : Nat) : (b.count off n).tb = b.tb := rfl
@[simp] theorem Blk.count_frozen (b : Blk) (off n : Nat) : (b.count off n).frozen = b.frozen := rfl
@[simp] theorem Blk.count_fresh (b : Blk) (off n : Nat) : (b.count off n).fresh = b.fresh := rfl
@[simp] theorem Blk.count_aon (b : Blk) (off n : Nat) : (b.count off n).aon = b.aon := rfl
@[simp] theorem Blk.count_pcs (b : Blk) (off n : Nat) : (b.count off n).pcs = b.pcs := rfl
@[simp] theorem Blk.count_str (b : Blk) (off n : Nat) : (b.count off n).str = b.str := rfl
@[simp] theorem Blk.count_pool (b : Blk) (off n : Nat) : (b.count off n).pool = b.pool := rfl
@[simp] theorem Blk.count_chans (b : Blk) (off n : Nat) : (b.count off n).chans = b.chans := rfl
@[simp] theorem Blk.count_ext (b : Blk) (off n : Nat) : (b.count off n).ext = b.ext := rfl
@[simp] theorem Blk.count_coh (b : Blk) (off n : Nat) : (b.count off n).coh = b.coh := rfl
@[simp] theorem Blk.count_fab (b : Blk) (off n : Nat) : (b.count off n).fab = b.fab := rfl
@[simp] theorem Blk.count_traf (b : Blk) (off n : Nat) : (b.count off n).traf = b.traf := rfl
@[simp] theorem Blk.count_work (b : Blk) (off n : Nat) : (b.count off n).work = b.work := rfl
@[simp] theorem Blk.count_rings (b : Blk) (off n : Nat) : (b.count off n).rings = b.rings := rfl
@[simp] theorem Blk.count_pair (b : Blk) (off n : Nat) : (b.count off n).pair = b.pair := rfl
@[simp] theorem Blk.count_hub (b : Blk) (off n : Nat) : (b.count off n).hub = b.hub := rfl
@[simp] theorem Blk.count_mgmt (b : Blk) (off n : Nat) : (b.count off n).mgmt = b.mgmt := rfl
@[simp] theorem Blk.count_sec (b : Blk) (off n : Nat) : (b.count off n).sec = b.sec := rfl
@[simp] theorem Blk.count_pwr (b : Blk) (off n : Nat) : (b.count off n).pwr = b.pwr := rfl

/-! ## incr -/

@[simp] theorem Blk.incr_dead (b : Blk) (off : Nat) : (b.incr off).dead = b.dead := rfl
@[simp] theorem Blk.incr_pins (b : Blk) (off : Nat) : (b.incr off).pins = b.pins := rfl
@[simp] theorem Blk.incr_tb (b : Blk) (off : Nat) : (b.incr off).tb = b.tb := rfl
@[simp] theorem Blk.incr_frozen (b : Blk) (off : Nat) : (b.incr off).frozen = b.frozen := rfl
@[simp] theorem Blk.incr_fresh (b : Blk) (off : Nat) : (b.incr off).fresh = b.fresh := rfl
@[simp] theorem Blk.incr_aon (b : Blk) (off : Nat) : (b.incr off).aon = b.aon := rfl
@[simp] theorem Blk.incr_pcs (b : Blk) (off : Nat) : (b.incr off).pcs = b.pcs := rfl
@[simp] theorem Blk.incr_str (b : Blk) (off : Nat) : (b.incr off).str = b.str := rfl
@[simp] theorem Blk.incr_pool (b : Blk) (off : Nat) : (b.incr off).pool = b.pool := rfl
@[simp] theorem Blk.incr_chans (b : Blk) (off : Nat) : (b.incr off).chans = b.chans := rfl
@[simp] theorem Blk.incr_ext (b : Blk) (off : Nat) : (b.incr off).ext = b.ext := rfl
@[simp] theorem Blk.incr_coh (b : Blk) (off : Nat) : (b.incr off).coh = b.coh := rfl
@[simp] theorem Blk.incr_fab (b : Blk) (off : Nat) : (b.incr off).fab = b.fab := rfl
@[simp] theorem Blk.incr_traf (b : Blk) (off : Nat) : (b.incr off).traf = b.traf := rfl
@[simp] theorem Blk.incr_work (b : Blk) (off : Nat) : (b.incr off).work = b.work := rfl
@[simp] theorem Blk.incr_rings (b : Blk) (off : Nat) : (b.incr off).rings = b.rings := rfl
@[simp] theorem Blk.incr_pair (b : Blk) (off : Nat) : (b.incr off).pair = b.pair := rfl
@[simp] theorem Blk.incr_hub (b : Blk) (off : Nat) : (b.incr off).hub = b.hub := rfl
@[simp] theorem Blk.incr_mgmt (b : Blk) (off : Nat) : (b.incr off).mgmt = b.mgmt := rfl
@[simp] theorem Blk.incr_sec (b : Blk) (off : Nat) : (b.incr off).sec = b.sec := rfl
@[simp] theorem Blk.incr_pwr (b : Blk) (off : Nat) : (b.incr off).pwr = b.pwr := rfl

/-! ## aonAdd -/

@[simp] theorem Blk.aonAdd_regs (b : Blk) (i n : Nat) : (b.aonAdd i n).regs = b.regs := rfl
@[simp] theorem Blk.aonAdd_dead (b : Blk) (i n : Nat) : (b.aonAdd i n).dead = b.dead := rfl
@[simp] theorem Blk.aonAdd_pins (b : Blk) (i n : Nat) : (b.aonAdd i n).pins = b.pins := rfl
@[simp] theorem Blk.aonAdd_tb (b : Blk) (i n : Nat) : (b.aonAdd i n).tb = b.tb := rfl
@[simp] theorem Blk.aonAdd_frozen (b : Blk) (i n : Nat) : (b.aonAdd i n).frozen = b.frozen := rfl
@[simp] theorem Blk.aonAdd_fresh (b : Blk) (i n : Nat) : (b.aonAdd i n).fresh = b.fresh := rfl
@[simp] theorem Blk.aonAdd_pcs (b : Blk) (i n : Nat) : (b.aonAdd i n).pcs = b.pcs := rfl
@[simp] theorem Blk.aonAdd_str (b : Blk) (i n : Nat) : (b.aonAdd i n).str = b.str := rfl
@[simp] theorem Blk.aonAdd_pool (b : Blk) (i n : Nat) : (b.aonAdd i n).pool = b.pool := rfl
@[simp] theorem Blk.aonAdd_chans (b : Blk) (i n : Nat) : (b.aonAdd i n).chans = b.chans := rfl
@[simp] theorem Blk.aonAdd_ext (b : Blk) (i n : Nat) : (b.aonAdd i n).ext = b.ext := rfl
@[simp] theorem Blk.aonAdd_coh (b : Blk) (i n : Nat) : (b.aonAdd i n).coh = b.coh := rfl
@[simp] theorem Blk.aonAdd_fab (b : Blk) (i n : Nat) : (b.aonAdd i n).fab = b.fab := rfl
@[simp] theorem Blk.aonAdd_traf (b : Blk) (i n : Nat) : (b.aonAdd i n).traf = b.traf := rfl
@[simp] theorem Blk.aonAdd_work (b : Blk) (i n : Nat) : (b.aonAdd i n).work = b.work := rfl
@[simp] theorem Blk.aonAdd_rings (b : Blk) (i n : Nat) : (b.aonAdd i n).rings = b.rings := rfl
@[simp] theorem Blk.aonAdd_pair (b : Blk) (i n : Nat) : (b.aonAdd i n).pair = b.pair := rfl
@[simp] theorem Blk.aonAdd_hub (b : Blk) (i n : Nat) : (b.aonAdd i n).hub = b.hub := rfl
@[simp] theorem Blk.aonAdd_mgmt (b : Blk) (i n : Nat) : (b.aonAdd i n).mgmt = b.mgmt := rfl
@[simp] theorem Blk.aonAdd_sec (b : Blk) (i n : Nat) : (b.aonAdd i n).sec = b.sec := rfl
@[simp] theorem Blk.aonAdd_pwr (b : Blk) (i n : Nat) : (b.aonAdd i n).pwr = b.pwr := rfl

/-! ## draw -/

@[simp] theorem Blk.draw_regs (b : Blk) : (b.draw.2).regs = b.regs := rfl
@[simp] theorem Blk.draw_dead (b : Blk) : (b.draw.2).dead = b.dead := rfl
@[simp] theorem Blk.draw_pins (b : Blk) : (b.draw.2).pins = b.pins := rfl
@[simp] theorem Blk.draw_tb (b : Blk) : (b.draw.2).tb = b.tb := rfl
@[simp] theorem Blk.draw_frozen (b : Blk) : (b.draw.2).frozen = b.frozen := rfl
@[simp] theorem Blk.draw_aon (b : Blk) : (b.draw.2).aon = b.aon := rfl
@[simp] theorem Blk.draw_pcs (b : Blk) : (b.draw.2).pcs = b.pcs := rfl
@[simp] theorem Blk.draw_str (b : Blk) : (b.draw.2).str = b.str := rfl
@[simp] theorem Blk.draw_pool (b : Blk) : (b.draw.2).pool = b.pool := rfl
@[simp] theorem Blk.draw_chans (b : Blk) : (b.draw.2).chans = b.chans := rfl
@[simp] theorem Blk.draw_ext (b : Blk) : (b.draw.2).ext = b.ext := rfl
@[simp] theorem Blk.draw_coh (b : Blk) : (b.draw.2).coh = b.coh := rfl
@[simp] theorem Blk.draw_fab (b : Blk) : (b.draw.2).fab = b.fab := rfl
@[simp] theorem Blk.draw_traf (b : Blk) : (b.draw.2).traf = b.traf := rfl
@[simp] theorem Blk.draw_work (b : Blk) : (b.draw.2).work = b.work := rfl
@[simp] theorem Blk.draw_rings (b : Blk) : (b.draw.2).rings = b.rings := rfl
@[simp] theorem Blk.draw_pair (b : Blk) : (b.draw.2).pair = b.pair := rfl
@[simp] theorem Blk.draw_hub (b : Blk) : (b.draw.2).hub = b.hub := rfl
@[simp] theorem Blk.draw_mgmt (b : Blk) : (b.draw.2).mgmt = b.mgmt := rfl
@[simp] theorem Blk.draw_sec (b : Blk) : (b.draw.2).sec = b.sec := rfl
@[simp] theorem Blk.draw_pwr (b : Blk) : (b.draw.2).pwr = b.pwr := rfl

/-! ## modHusk -/

@[simp] theorem Blk.modHusk_regs (b : Blk) (c : Nat) (f : HuskChan → HuskChan) : (b.modHusk c f).regs = b.regs := rfl
@[simp] theorem Blk.modHusk_dead (b : Blk) (c : Nat) (f : HuskChan → HuskChan) : (b.modHusk c f).dead = b.dead := rfl
@[simp] theorem Blk.modHusk_pins (b : Blk) (c : Nat) (f : HuskChan → HuskChan) : (b.modHusk c f).pins = b.pins := rfl
@[simp] theorem Blk.modHusk_tb (b : Blk) (c : Nat) (f : HuskChan → HuskChan) : (b.modHusk c f).tb = b.tb := rfl
@[simp] theorem Blk.modHusk_frozen (b : Blk) (c : Nat) (f : HuskChan → HuskChan) : (b.modHusk c f).frozen = b.frozen := rfl
@[simp] theorem Blk.modHusk_fresh (b : Blk) (c : Nat) (f : HuskChan → HuskChan) : (b.modHusk c f).fresh = b.fresh := rfl
@[simp] theorem Blk.modHusk_aon (b : Blk) (c : Nat) (f : HuskChan → HuskChan) : (b.modHusk c f).aon = b.aon := rfl
@[simp] theorem Blk.modHusk_pcs (b : Blk) (c : Nat) (f : HuskChan → HuskChan) : (b.modHusk c f).pcs = b.pcs := rfl
@[simp] theorem Blk.modHusk_str (b : Blk) (c : Nat) (f : HuskChan → HuskChan) : (b.modHusk c f).str = b.str := rfl
@[simp] theorem Blk.modHusk_pool (b : Blk) (c : Nat) (f : HuskChan → HuskChan) : (b.modHusk c f).pool = b.pool := rfl
@[simp] theorem Blk.modHusk_ext (b : Blk) (c : Nat) (f : HuskChan → HuskChan) : (b.modHusk c f).ext = b.ext := rfl
@[simp] theorem Blk.modHusk_coh (b : Blk) (c : Nat) (f : HuskChan → HuskChan) : (b.modHusk c f).coh = b.coh := rfl
@[simp] theorem Blk.modHusk_fab (b : Blk) (c : Nat) (f : HuskChan → HuskChan) : (b.modHusk c f).fab = b.fab := rfl
@[simp] theorem Blk.modHusk_traf (b : Blk) (c : Nat) (f : HuskChan → HuskChan) : (b.modHusk c f).traf = b.traf := rfl
@[simp] theorem Blk.modHusk_work (b : Blk) (c : Nat) (f : HuskChan → HuskChan) : (b.modHusk c f).work = b.work := rfl
@[simp] theorem Blk.modHusk_rings (b : Blk) (c : Nat) (f : HuskChan → HuskChan) : (b.modHusk c f).rings = b.rings := rfl
@[simp] theorem Blk.modHusk_pair (b : Blk) (c : Nat) (f : HuskChan → HuskChan) : (b.modHusk c f).pair = b.pair := rfl
@[simp] theorem Blk.modHusk_hub (b : Blk) (c : Nat) (f : HuskChan → HuskChan) : (b.modHusk c f).hub = b.hub := rfl
@[simp] theorem Blk.modHusk_mgmt (b : Blk) (c : Nat) (f : HuskChan → HuskChan) : (b.modHusk c f).mgmt = b.mgmt := rfl
@[simp] theorem Blk.modHusk_sec (b : Blk) (c : Nat) (f : HuskChan → HuskChan) : (b.modHusk c f).sec = b.sec := rfl
@[simp] theorem Blk.modHusk_pwr (b : Blk) (c : Nat) (f : HuskChan → HuskChan) : (b.modHusk c f).pwr = b.pwr := rfl

/-! ## modGrain -/

@[simp] theorem Blk.modGrain_regs (b : Blk) (c : Nat) (f : GrainChan → GrainChan) : (b.modGrain c f).regs = b.regs := rfl
@[simp] theorem Blk.modGrain_dead (b : Blk) (c : Nat) (f : GrainChan → GrainChan) : (b.modGrain c f).dead = b.dead := rfl
@[simp] theorem Blk.modGrain_pins (b : Blk) (c : Nat) (f : GrainChan → GrainChan) : (b.modGrain c f).pins = b.pins := rfl
@[simp] theorem Blk.modGrain_tb (b : Blk) (c : Nat) (f : GrainChan → GrainChan) : (b.modGrain c f).tb = b.tb := rfl
@[simp] theorem Blk.modGrain_frozen (b : Blk) (c : Nat) (f : GrainChan → GrainChan) : (b.modGrain c f).frozen = b.frozen := rfl
@[simp] theorem Blk.modGrain_fresh (b : Blk) (c : Nat) (f : GrainChan → GrainChan) : (b.modGrain c f).fresh = b.fresh := rfl
@[simp] theorem Blk.modGrain_aon (b : Blk) (c : Nat) (f : GrainChan → GrainChan) : (b.modGrain c f).aon = b.aon := rfl
@[simp] theorem Blk.modGrain_pcs (b : Blk) (c : Nat) (f : GrainChan → GrainChan) : (b.modGrain c f).pcs = b.pcs := rfl
@[simp] theorem Blk.modGrain_str (b : Blk) (c : Nat) (f : GrainChan → GrainChan) : (b.modGrain c f).str = b.str := rfl
@[simp] theorem Blk.modGrain_pool (b : Blk) (c : Nat) (f : GrainChan → GrainChan) : (b.modGrain c f).pool = b.pool := rfl
@[simp] theorem Blk.modGrain_ext (b : Blk) (c : Nat) (f : GrainChan → GrainChan) : (b.modGrain c f).ext = b.ext := rfl
@[simp] theorem Blk.modGrain_coh (b : Blk) (c : Nat) (f : GrainChan → GrainChan) : (b.modGrain c f).coh = b.coh := rfl
@[simp] theorem Blk.modGrain_fab (b : Blk) (c : Nat) (f : GrainChan → GrainChan) : (b.modGrain c f).fab = b.fab := rfl
@[simp] theorem Blk.modGrain_traf (b : Blk) (c : Nat) (f : GrainChan → GrainChan) : (b.modGrain c f).traf = b.traf := rfl
@[simp] theorem Blk.modGrain_work (b : Blk) (c : Nat) (f : GrainChan → GrainChan) : (b.modGrain c f).work = b.work := rfl
@[simp] theorem Blk.modGrain_rings (b : Blk) (c : Nat) (f : GrainChan → GrainChan) : (b.modGrain c f).rings = b.rings := rfl
@[simp] theorem Blk.modGrain_pair (b : Blk) (c : Nat) (f : GrainChan → GrainChan) : (b.modGrain c f).pair = b.pair := rfl
@[simp] theorem Blk.modGrain_hub (b : Blk) (c : Nat) (f : GrainChan → GrainChan) : (b.modGrain c f).hub = b.hub := rfl
@[simp] theorem Blk.modGrain_mgmt (b : Blk) (c : Nat) (f : GrainChan → GrainChan) : (b.modGrain c f).mgmt = b.mgmt := rfl
@[simp] theorem Blk.modGrain_sec (b : Blk) (c : Nat) (f : GrainChan → GrainChan) : (b.modGrain c f).sec = b.sec := rfl
@[simp] theorem Blk.modGrain_pwr (b : Blk) (c : Nat) (f : GrainChan → GrainChan) : (b.modGrain c f).pwr = b.pwr := rfl

/-! ## modStruct -/

@[simp] theorem Blk.modStruct_regs (b : Blk) (f : Struct → Struct) : (b.modStruct f).regs = b.regs := rfl
@[simp] theorem Blk.modStruct_dead (b : Blk) (f : Struct → Struct) : (b.modStruct f).dead = b.dead := rfl
@[simp] theorem Blk.modStruct_pins (b : Blk) (f : Struct → Struct) : (b.modStruct f).pins = b.pins := rfl
@[simp] theorem Blk.modStruct_tb (b : Blk) (f : Struct → Struct) : (b.modStruct f).tb = b.tb := rfl
@[simp] theorem Blk.modStruct_frozen (b : Blk) (f : Struct → Struct) : (b.modStruct f).frozen = b.frozen := rfl
@[simp] theorem Blk.modStruct_fresh (b : Blk) (f : Struct → Struct) : (b.modStruct f).fresh = b.fresh := rfl
@[simp] theorem Blk.modStruct_aon (b : Blk) (f : Struct → Struct) : (b.modStruct f).aon = b.aon := rfl
@[simp] theorem Blk.modStruct_pcs (b : Blk) (f : Struct → Struct) : (b.modStruct f).pcs = b.pcs := rfl
@[simp] theorem Blk.modStruct_pool (b : Blk) (f : Struct → Struct) : (b.modStruct f).pool = b.pool := rfl
@[simp] theorem Blk.modStruct_chans (b : Blk) (f : Struct → Struct) : (b.modStruct f).chans = b.chans := rfl
@[simp] theorem Blk.modStruct_ext (b : Blk) (f : Struct → Struct) : (b.modStruct f).ext = b.ext := rfl
@[simp] theorem Blk.modStruct_coh (b : Blk) (f : Struct → Struct) : (b.modStruct f).coh = b.coh := rfl
@[simp] theorem Blk.modStruct_fab (b : Blk) (f : Struct → Struct) : (b.modStruct f).fab = b.fab := rfl
@[simp] theorem Blk.modStruct_traf (b : Blk) (f : Struct → Struct) : (b.modStruct f).traf = b.traf := rfl
@[simp] theorem Blk.modStruct_work (b : Blk) (f : Struct → Struct) : (b.modStruct f).work = b.work := rfl
@[simp] theorem Blk.modStruct_rings (b : Blk) (f : Struct → Struct) : (b.modStruct f).rings = b.rings := rfl
@[simp] theorem Blk.modStruct_pair (b : Blk) (f : Struct → Struct) : (b.modStruct f).pair = b.pair := rfl
@[simp] theorem Blk.modStruct_hub (b : Blk) (f : Struct → Struct) : (b.modStruct f).hub = b.hub := rfl
@[simp] theorem Blk.modStruct_mgmt (b : Blk) (f : Struct → Struct) : (b.modStruct f).mgmt = b.mgmt := rfl
@[simp] theorem Blk.modStruct_sec (b : Blk) (f : Struct → Struct) : (b.modStruct f).sec = b.sec := rfl
@[simp] theorem Blk.modStruct_pwr (b : Blk) (f : Struct → Struct) : (b.modStruct f).pwr = b.pwr := rfl

/-! ## modExt -/

@[simp] theorem Blk.modExt_regs (b : Blk) (i : Nat) (f : ExtRt → ExtRt) : (b.modExt i f).regs = b.regs := rfl
@[simp] theorem Blk.modExt_dead (b : Blk) (i : Nat) (f : ExtRt → ExtRt) : (b.modExt i f).dead = b.dead := rfl
@[simp] theorem Blk.modExt_pins (b : Blk) (i : Nat) (f : ExtRt → ExtRt) : (b.modExt i f).pins = b.pins := rfl
@[simp] theorem Blk.modExt_tb (b : Blk) (i : Nat) (f : ExtRt → ExtRt) : (b.modExt i f).tb = b.tb := rfl
@[simp] theorem Blk.modExt_frozen (b : Blk) (i : Nat) (f : ExtRt → ExtRt) : (b.modExt i f).frozen = b.frozen := rfl
@[simp] theorem Blk.modExt_fresh (b : Blk) (i : Nat) (f : ExtRt → ExtRt) : (b.modExt i f).fresh = b.fresh := rfl
@[simp] theorem Blk.modExt_aon (b : Blk) (i : Nat) (f : ExtRt → ExtRt) : (b.modExt i f).aon = b.aon := rfl
@[simp] theorem Blk.modExt_pcs (b : Blk) (i : Nat) (f : ExtRt → ExtRt) : (b.modExt i f).pcs = b.pcs := rfl
@[simp] theorem Blk.modExt_str (b : Blk) (i : Nat) (f : ExtRt → ExtRt) : (b.modExt i f).str = b.str := rfl
@[simp] theorem Blk.modExt_pool (b : Blk) (i : Nat) (f : ExtRt → ExtRt) : (b.modExt i f).pool = b.pool := rfl
@[simp] theorem Blk.modExt_chans (b : Blk) (i : Nat) (f : ExtRt → ExtRt) : (b.modExt i f).chans = b.chans := rfl
@[simp] theorem Blk.modExt_coh (b : Blk) (i : Nat) (f : ExtRt → ExtRt) : (b.modExt i f).coh = b.coh := rfl
@[simp] theorem Blk.modExt_fab (b : Blk) (i : Nat) (f : ExtRt → ExtRt) : (b.modExt i f).fab = b.fab := rfl
@[simp] theorem Blk.modExt_traf (b : Blk) (i : Nat) (f : ExtRt → ExtRt) : (b.modExt i f).traf = b.traf := rfl
@[simp] theorem Blk.modExt_work (b : Blk) (i : Nat) (f : ExtRt → ExtRt) : (b.modExt i f).work = b.work := rfl
@[simp] theorem Blk.modExt_rings (b : Blk) (i : Nat) (f : ExtRt → ExtRt) : (b.modExt i f).rings = b.rings := rfl
@[simp] theorem Blk.modExt_pair (b : Blk) (i : Nat) (f : ExtRt → ExtRt) : (b.modExt i f).pair = b.pair := rfl
@[simp] theorem Blk.modExt_hub (b : Blk) (i : Nat) (f : ExtRt → ExtRt) : (b.modExt i f).hub = b.hub := rfl
@[simp] theorem Blk.modExt_mgmt (b : Blk) (i : Nat) (f : ExtRt → ExtRt) : (b.modExt i f).mgmt = b.mgmt := rfl
@[simp] theorem Blk.modExt_sec (b : Blk) (i : Nat) (f : ExtRt → ExtRt) : (b.modExt i f).sec = b.sec := rfl
@[simp] theorem Blk.modExt_pwr (b : Blk) (i : Nat) (f : ExtRt → ExtRt) : (b.modExt i f).pwr = b.pwr := rfl

/-! ## modWin -/

@[simp] theorem Blk.modWin_regs (b : Blk) (f : Nat) (g : Win → Win) : (b.modWin f g).regs = b.regs := rfl
@[simp] theorem Blk.modWin_dead (b : Blk) (f : Nat) (g : Win → Win) : (b.modWin f g).dead = b.dead := rfl
@[simp] theorem Blk.modWin_pins (b : Blk) (f : Nat) (g : Win → Win) : (b.modWin f g).pins = b.pins := rfl
@[simp] theorem Blk.modWin_tb (b : Blk) (f : Nat) (g : Win → Win) : (b.modWin f g).tb = b.tb := rfl
@[simp] theorem Blk.modWin_frozen (b : Blk) (f : Nat) (g : Win → Win) : (b.modWin f g).frozen = b.frozen := rfl
@[simp] theorem Blk.modWin_fresh (b : Blk) (f : Nat) (g : Win → Win) : (b.modWin f g).fresh = b.fresh := rfl
@[simp] theorem Blk.modWin_aon (b : Blk) (f : Nat) (g : Win → Win) : (b.modWin f g).aon = b.aon := rfl
@[simp] theorem Blk.modWin_pcs (b : Blk) (f : Nat) (g : Win → Win) : (b.modWin f g).pcs = b.pcs := rfl
@[simp] theorem Blk.modWin_str (b : Blk) (f : Nat) (g : Win → Win) : (b.modWin f g).str = b.str := rfl
@[simp] theorem Blk.modWin_pool (b : Blk) (f : Nat) (g : Win → Win) : (b.modWin f g).pool = b.pool := rfl
@[simp] theorem Blk.modWin_chans (b : Blk) (f : Nat) (g : Win → Win) : (b.modWin f g).chans = b.chans := rfl
@[simp] theorem Blk.modWin_ext (b : Blk) (f : Nat) (g : Win → Win) : (b.modWin f g).ext = b.ext := rfl
@[simp] theorem Blk.modWin_coh (b : Blk) (f : Nat) (g : Win → Win) : (b.modWin f g).coh = b.coh := rfl
@[simp] theorem Blk.modWin_fab (b : Blk) (f : Nat) (g : Win → Win) : (b.modWin f g).fab = b.fab := rfl
@[simp] theorem Blk.modWin_traf (b : Blk) (f : Nat) (g : Win → Win) : (b.modWin f g).traf = b.traf := rfl
@[simp] theorem Blk.modWin_work (b : Blk) (f : Nat) (g : Win → Win) : (b.modWin f g).work = b.work := rfl
@[simp] theorem Blk.modWin_rings (b : Blk) (f : Nat) (g : Win → Win) : (b.modWin f g).rings = b.rings := rfl
@[simp] theorem Blk.modWin_pair (b : Blk) (f : Nat) (g : Win → Win) : (b.modWin f g).pair = b.pair := rfl
@[simp] theorem Blk.modWin_mgmt (b : Blk) (f : Nat) (g : Win → Win) : (b.modWin f g).mgmt = b.mgmt := rfl
@[simp] theorem Blk.modWin_sec (b : Blk) (f : Nat) (g : Win → Win) : (b.modWin f g).sec = b.sec := rfl
@[simp] theorem Blk.modWin_pwr (b : Blk) (f : Nat) (g : Win → Win) : (b.modWin f g).pwr = b.pwr := rfl

/-! ## modLink -/

@[simp] theorem Blk.modLink_regs (b : Blk) (n : Nat) (f : Link → Link) : (b.modLink n f).regs = b.regs := rfl
@[simp] theorem Blk.modLink_dead (b : Blk) (n : Nat) (f : Link → Link) : (b.modLink n f).dead = b.dead := rfl
@[simp] theorem Blk.modLink_pins (b : Blk) (n : Nat) (f : Link → Link) : (b.modLink n f).pins = b.pins := rfl
@[simp] theorem Blk.modLink_tb (b : Blk) (n : Nat) (f : Link → Link) : (b.modLink n f).tb = b.tb := rfl
@[simp] theorem Blk.modLink_frozen (b : Blk) (n : Nat) (f : Link → Link) : (b.modLink n f).frozen = b.frozen := rfl
@[simp] theorem Blk.modLink_fresh (b : Blk) (n : Nat) (f : Link → Link) : (b.modLink n f).fresh = b.fresh := rfl
@[simp] theorem Blk.modLink_aon (b : Blk) (n : Nat) (f : Link → Link) : (b.modLink n f).aon = b.aon := rfl
@[simp] theorem Blk.modLink_pcs (b : Blk) (n : Nat) (f : Link → Link) : (b.modLink n f).pcs = b.pcs := rfl
@[simp] theorem Blk.modLink_str (b : Blk) (n : Nat) (f : Link → Link) : (b.modLink n f).str = b.str := rfl
@[simp] theorem Blk.modLink_pool (b : Blk) (n : Nat) (f : Link → Link) : (b.modLink n f).pool = b.pool := rfl
@[simp] theorem Blk.modLink_chans (b : Blk) (n : Nat) (f : Link → Link) : (b.modLink n f).chans = b.chans := rfl
@[simp] theorem Blk.modLink_ext (b : Blk) (n : Nat) (f : Link → Link) : (b.modLink n f).ext = b.ext := rfl
@[simp] theorem Blk.modLink_coh (b : Blk) (n : Nat) (f : Link → Link) : (b.modLink n f).coh = b.coh := rfl
@[simp] theorem Blk.modLink_traf (b : Blk) (n : Nat) (f : Link → Link) : (b.modLink n f).traf = b.traf := rfl
@[simp] theorem Blk.modLink_work (b : Blk) (n : Nat) (f : Link → Link) : (b.modLink n f).work = b.work := rfl
@[simp] theorem Blk.modLink_rings (b : Blk) (n : Nat) (f : Link → Link) : (b.modLink n f).rings = b.rings := rfl
@[simp] theorem Blk.modLink_pair (b : Blk) (n : Nat) (f : Link → Link) : (b.modLink n f).pair = b.pair := rfl
@[simp] theorem Blk.modLink_hub (b : Blk) (n : Nat) (f : Link → Link) : (b.modLink n f).hub = b.hub := rfl
@[simp] theorem Blk.modLink_mgmt (b : Blk) (n : Nat) (f : Link → Link) : (b.modLink n f).mgmt = b.mgmt := rfl
@[simp] theorem Blk.modLink_sec (b : Blk) (n : Nat) (f : Link → Link) : (b.modLink n f).sec = b.sec := rfl
@[simp] theorem Blk.modLink_pwr (b : Blk) (n : Nat) (f : Link → Link) : (b.modLink n f).pwr = b.pwr := rfl

/-! ## pcie -/

@[simp] theorem Blk.pcie_regs (b : Blk) (o : PcieOut) : (b.pcie o).regs = b.regs := by unfold Blk.pcie; split <;> rfl
@[simp] theorem Blk.pcie_dead (b : Blk) (o : PcieOut) : (b.pcie o).dead = b.dead := by unfold Blk.pcie; split <;> rfl
@[simp] theorem Blk.pcie_pins (b : Blk) (o : PcieOut) : (b.pcie o).pins = b.pins := by unfold Blk.pcie; split <;> rfl
@[simp] theorem Blk.pcie_tb (b : Blk) (o : PcieOut) : (b.pcie o).tb = b.tb := by unfold Blk.pcie; split <;> rfl
@[simp] theorem Blk.pcie_frozen (b : Blk) (o : PcieOut) : (b.pcie o).frozen = b.frozen := by unfold Blk.pcie; split <;> rfl
@[simp] theorem Blk.pcie_fresh (b : Blk) (o : PcieOut) : (b.pcie o).fresh = b.fresh := by unfold Blk.pcie; split <;> rfl
@[simp] theorem Blk.pcie_aon (b : Blk) (o : PcieOut) : (b.pcie o).aon = b.aon := by unfold Blk.pcie; split <;> rfl
@[simp] theorem Blk.pcie_pcs (b : Blk) (o : PcieOut) : (b.pcie o).pcs = b.pcs := by unfold Blk.pcie; split <;> rfl
@[simp] theorem Blk.pcie_str (b : Blk) (o : PcieOut) : (b.pcie o).str = b.str := by unfold Blk.pcie; split <;> rfl
@[simp] theorem Blk.pcie_pool (b : Blk) (o : PcieOut) : (b.pcie o).pool = b.pool := by unfold Blk.pcie; split <;> rfl
@[simp] theorem Blk.pcie_chans (b : Blk) (o : PcieOut) : (b.pcie o).chans = b.chans := by unfold Blk.pcie; split <;> rfl
@[simp] theorem Blk.pcie_ext (b : Blk) (o : PcieOut) : (b.pcie o).ext = b.ext := by unfold Blk.pcie; split <;> rfl
@[simp] theorem Blk.pcie_coh (b : Blk) (o : PcieOut) : (b.pcie o).coh = b.coh := by unfold Blk.pcie; split <;> rfl
@[simp] theorem Blk.pcie_fab (b : Blk) (o : PcieOut) : (b.pcie o).fab = b.fab := by unfold Blk.pcie; split <;> rfl
@[simp] theorem Blk.pcie_traf (b : Blk) (o : PcieOut) : (b.pcie o).traf = b.traf := by unfold Blk.pcie; split <;> rfl
@[simp] theorem Blk.pcie_work (b : Blk) (o : PcieOut) : (b.pcie o).work = b.work := by unfold Blk.pcie; split <;> rfl
@[simp] theorem Blk.pcie_rings (b : Blk) (o : PcieOut) : (b.pcie o).rings = b.rings := by unfold Blk.pcie; split <;> rfl
@[simp] theorem Blk.pcie_pair (b : Blk) (o : PcieOut) : (b.pcie o).pair = b.pair := by unfold Blk.pcie; split <;> rfl
@[simp] theorem Blk.pcie_mgmt (b : Blk) (o : PcieOut) : (b.pcie o).mgmt = b.mgmt := by unfold Blk.pcie; split <;> rfl
@[simp] theorem Blk.pcie_sec (b : Blk) (o : PcieOut) : (b.pcie o).sec = b.sec := by unfold Blk.pcie; split <;> rfl
@[simp] theorem Blk.pcie_pwr (b : Blk) (o : PcieOut) : (b.pcie o).pwr = b.pwr := by unfold Blk.pcie; split <;> rfl

/-! ## pcieRelease -/

@[simp] theorem Blk.pcieRelease_regs (b : Blk) : (b.pcieRelease).regs = b.regs := rfl
@[simp] theorem Blk.pcieRelease_dead (b : Blk) : (b.pcieRelease).dead = b.dead := rfl
@[simp] theorem Blk.pcieRelease_pins (b : Blk) : (b.pcieRelease).pins = b.pins := rfl
@[simp] theorem Blk.pcieRelease_tb (b : Blk) : (b.pcieRelease).tb = b.tb := rfl
@[simp] theorem Blk.pcieRelease_frozen (b : Blk) : (b.pcieRelease).frozen = b.frozen := rfl
@[simp] theorem Blk.pcieRelease_fresh (b : Blk) : (b.pcieRelease).fresh = b.fresh := rfl
@[simp] theorem Blk.pcieRelease_aon (b : Blk) : (b.pcieRelease).aon = b.aon := rfl
@[simp] theorem Blk.pcieRelease_pcs (b : Blk) : (b.pcieRelease).pcs = b.pcs := rfl
@[simp] theorem Blk.pcieRelease_str (b : Blk) : (b.pcieRelease).str = b.str := rfl
@[simp] theorem Blk.pcieRelease_pool (b : Blk) : (b.pcieRelease).pool = b.pool := rfl
@[simp] theorem Blk.pcieRelease_chans (b : Blk) : (b.pcieRelease).chans = b.chans := rfl
@[simp] theorem Blk.pcieRelease_ext (b : Blk) : (b.pcieRelease).ext = b.ext := rfl
@[simp] theorem Blk.pcieRelease_coh (b : Blk) : (b.pcieRelease).coh = b.coh := rfl
@[simp] theorem Blk.pcieRelease_fab (b : Blk) : (b.pcieRelease).fab = b.fab := rfl
@[simp] theorem Blk.pcieRelease_traf (b : Blk) : (b.pcieRelease).traf = b.traf := rfl
@[simp] theorem Blk.pcieRelease_work (b : Blk) : (b.pcieRelease).work = b.work := rfl
@[simp] theorem Blk.pcieRelease_rings (b : Blk) : (b.pcieRelease).rings = b.rings := rfl
@[simp] theorem Blk.pcieRelease_pair (b : Blk) : (b.pcieRelease).pair = b.pair := rfl
@[simp] theorem Blk.pcieRelease_mgmt (b : Blk) : (b.pcieRelease).mgmt = b.mgmt := rfl
@[simp] theorem Blk.pcieRelease_sec (b : Blk) : (b.pcieRelease).sec = b.sec := rfl
@[simp] theorem Blk.pcieRelease_pwr (b : Blk) : (b.pcieRelease).pwr = b.pwr := rfl

/-! ## msix -/

@[simp] theorem Blk.msix_regs (b : Blk) (f : Nat) (vec : Option Nat) : (b.msix f vec).regs = b.regs := by unfold Blk.msix; split <;> (try split) <;> simp
@[simp] theorem Blk.msix_dead (b : Blk) (f : Nat) (vec : Option Nat) : (b.msix f vec).dead = b.dead := by unfold Blk.msix; split <;> (try split) <;> simp
@[simp] theorem Blk.msix_pins (b : Blk) (f : Nat) (vec : Option Nat) : (b.msix f vec).pins = b.pins := by unfold Blk.msix; split <;> (try split) <;> simp
@[simp] theorem Blk.msix_tb (b : Blk) (f : Nat) (vec : Option Nat) : (b.msix f vec).tb = b.tb := by unfold Blk.msix; split <;> (try split) <;> simp
@[simp] theorem Blk.msix_frozen (b : Blk) (f : Nat) (vec : Option Nat) : (b.msix f vec).frozen = b.frozen := by unfold Blk.msix; split <;> (try split) <;> simp
@[simp] theorem Blk.msix_fresh (b : Blk) (f : Nat) (vec : Option Nat) : (b.msix f vec).fresh = b.fresh := by unfold Blk.msix; split <;> (try split) <;> simp
@[simp] theorem Blk.msix_aon (b : Blk) (f : Nat) (vec : Option Nat) : (b.msix f vec).aon = b.aon := by unfold Blk.msix; split <;> (try split) <;> simp
@[simp] theorem Blk.msix_pcs (b : Blk) (f : Nat) (vec : Option Nat) : (b.msix f vec).pcs = b.pcs := by unfold Blk.msix; split <;> (try split) <;> simp
@[simp] theorem Blk.msix_str (b : Blk) (f : Nat) (vec : Option Nat) : (b.msix f vec).str = b.str := by unfold Blk.msix; split <;> (try split) <;> simp
@[simp] theorem Blk.msix_pool (b : Blk) (f : Nat) (vec : Option Nat) : (b.msix f vec).pool = b.pool := by unfold Blk.msix; split <;> (try split) <;> simp
@[simp] theorem Blk.msix_chans (b : Blk) (f : Nat) (vec : Option Nat) : (b.msix f vec).chans = b.chans := by unfold Blk.msix; split <;> (try split) <;> simp
@[simp] theorem Blk.msix_ext (b : Blk) (f : Nat) (vec : Option Nat) : (b.msix f vec).ext = b.ext := by unfold Blk.msix; split <;> (try split) <;> simp
@[simp] theorem Blk.msix_coh (b : Blk) (f : Nat) (vec : Option Nat) : (b.msix f vec).coh = b.coh := by unfold Blk.msix; split <;> (try split) <;> simp
@[simp] theorem Blk.msix_fab (b : Blk) (f : Nat) (vec : Option Nat) : (b.msix f vec).fab = b.fab := by unfold Blk.msix; split <;> (try split) <;> simp
@[simp] theorem Blk.msix_traf (b : Blk) (f : Nat) (vec : Option Nat) : (b.msix f vec).traf = b.traf := by unfold Blk.msix; split <;> (try split) <;> simp
@[simp] theorem Blk.msix_work (b : Blk) (f : Nat) (vec : Option Nat) : (b.msix f vec).work = b.work := by unfold Blk.msix; split <;> (try split) <;> simp
@[simp] theorem Blk.msix_rings (b : Blk) (f : Nat) (vec : Option Nat) : (b.msix f vec).rings = b.rings := by unfold Blk.msix; split <;> (try split) <;> simp
@[simp] theorem Blk.msix_pair (b : Blk) (f : Nat) (vec : Option Nat) : (b.msix f vec).pair = b.pair := by unfold Blk.msix; split <;> (try split) <;> simp
@[simp] theorem Blk.msix_mgmt (b : Blk) (f : Nat) (vec : Option Nat) : (b.msix f vec).mgmt = b.mgmt := by unfold Blk.msix; split <;> (try split) <;> simp
@[simp] theorem Blk.msix_sec (b : Blk) (f : Nat) (vec : Option Nat) : (b.msix f vec).sec = b.sec := by unfold Blk.msix; split <;> (try split) <;> simp
@[simp] theorem Blk.msix_pwr (b : Blk) (f : Nat) (vec : Option Nat) : (b.msix f vec).pwr = b.pwr := by unfold Blk.msix; split <;> (try split) <;> simp

/-! ## mirrorOut -/

@[simp] theorem Blk.mirrorOut_regs (b : Blk) (f base off : Nat) (bs : Bytes) : (b.mirrorOut f base off bs).regs = b.regs := by unfold Blk.mirrorOut; split <;> simp
@[simp] theorem Blk.mirrorOut_dead (b : Blk) (f base off : Nat) (bs : Bytes) : (b.mirrorOut f base off bs).dead = b.dead := by unfold Blk.mirrorOut; split <;> simp
@[simp] theorem Blk.mirrorOut_pins (b : Blk) (f base off : Nat) (bs : Bytes) : (b.mirrorOut f base off bs).pins = b.pins := by unfold Blk.mirrorOut; split <;> simp
@[simp] theorem Blk.mirrorOut_tb (b : Blk) (f base off : Nat) (bs : Bytes) : (b.mirrorOut f base off bs).tb = b.tb := by unfold Blk.mirrorOut; split <;> simp
@[simp] theorem Blk.mirrorOut_frozen (b : Blk) (f base off : Nat) (bs : Bytes) : (b.mirrorOut f base off bs).frozen = b.frozen := by unfold Blk.mirrorOut; split <;> simp
@[simp] theorem Blk.mirrorOut_fresh (b : Blk) (f base off : Nat) (bs : Bytes) : (b.mirrorOut f base off bs).fresh = b.fresh := by unfold Blk.mirrorOut; split <;> simp
@[simp] theorem Blk.mirrorOut_aon (b : Blk) (f base off : Nat) (bs : Bytes) : (b.mirrorOut f base off bs).aon = b.aon := by unfold Blk.mirrorOut; split <;> simp
@[simp] theorem Blk.mirrorOut_pcs (b : Blk) (f base off : Nat) (bs : Bytes) : (b.mirrorOut f base off bs).pcs = b.pcs := by unfold Blk.mirrorOut; split <;> simp
@[simp] theorem Blk.mirrorOut_str (b : Blk) (f base off : Nat) (bs : Bytes) : (b.mirrorOut f base off bs).str = b.str := by unfold Blk.mirrorOut; split <;> simp
@[simp] theorem Blk.mirrorOut_pool (b : Blk) (f base off : Nat) (bs : Bytes) : (b.mirrorOut f base off bs).pool = b.pool := by unfold Blk.mirrorOut; split <;> simp
@[simp] theorem Blk.mirrorOut_chans (b : Blk) (f base off : Nat) (bs : Bytes) : (b.mirrorOut f base off bs).chans = b.chans := by unfold Blk.mirrorOut; split <;> simp
@[simp] theorem Blk.mirrorOut_ext (b : Blk) (f base off : Nat) (bs : Bytes) : (b.mirrorOut f base off bs).ext = b.ext := by unfold Blk.mirrorOut; split <;> simp
@[simp] theorem Blk.mirrorOut_coh (b : Blk) (f base off : Nat) (bs : Bytes) : (b.mirrorOut f base off bs).coh = b.coh := by unfold Blk.mirrorOut; split <;> simp
@[simp] theorem Blk.mirrorOut_fab (b : Blk) (f base off : Nat) (bs : Bytes) : (b.mirrorOut f base off bs).fab = b.fab := by unfold Blk.mirrorOut; split <;> simp
@[simp] theorem Blk.mirrorOut_traf (b : Blk) (f base off : Nat) (bs : Bytes) : (b.mirrorOut f base off bs).traf = b.traf := by unfold Blk.mirrorOut; split <;> simp
@[simp] theorem Blk.mirrorOut_work (b : Blk) (f base off : Nat) (bs : Bytes) : (b.mirrorOut f base off bs).work = b.work := by unfold Blk.mirrorOut; split <;> simp
@[simp] theorem Blk.mirrorOut_rings (b : Blk) (f base off : Nat) (bs : Bytes) : (b.mirrorOut f base off bs).rings = b.rings := by unfold Blk.mirrorOut; split <;> simp
@[simp] theorem Blk.mirrorOut_pair (b : Blk) (f base off : Nat) (bs : Bytes) : (b.mirrorOut f base off bs).pair = b.pair := by unfold Blk.mirrorOut; split <;> simp
@[simp] theorem Blk.mirrorOut_mgmt (b : Blk) (f base off : Nat) (bs : Bytes) : (b.mirrorOut f base off bs).mgmt = b.mgmt := by unfold Blk.mirrorOut; split <;> simp
@[simp] theorem Blk.mirrorOut_sec (b : Blk) (f base off : Nat) (bs : Bytes) : (b.mirrorOut f base off bs).sec = b.sec := by unfold Blk.mirrorOut; split <;> simp
@[simp] theorem Blk.mirrorOut_pwr (b : Blk) (f base off : Nat) (bs : Bytes) : (b.mirrorOut f base off bs).pwr = b.pwr := by unfold Blk.mirrorOut; split <;> simp

/-! ## aerSet -/

@[simp] theorem Blk.aerSet_regs (b : Blk) (f i : Nat) : (b.aerSet f i).regs = b.regs := rfl
@[simp] theorem Blk.aerSet_dead (b : Blk) (f i : Nat) : (b.aerSet f i).dead = b.dead := rfl
@[simp] theorem Blk.aerSet_pins (b : Blk) (f i : Nat) : (b.aerSet f i).pins = b.pins := rfl
@[simp] theorem Blk.aerSet_tb (b : Blk) (f i : Nat) : (b.aerSet f i).tb = b.tb := rfl
@[simp] theorem Blk.aerSet_frozen (b : Blk) (f i : Nat) : (b.aerSet f i).frozen = b.frozen := rfl
@[simp] theorem Blk.aerSet_fresh (b : Blk) (f i : Nat) : (b.aerSet f i).fresh = b.fresh := rfl
@[simp] theorem Blk.aerSet_aon (b : Blk) (f i : Nat) : (b.aerSet f i).aon = b.aon := rfl
@[simp] theorem Blk.aerSet_pcs (b : Blk) (f i : Nat) : (b.aerSet f i).pcs = b.pcs := rfl
@[simp] theorem Blk.aerSet_str (b : Blk) (f i : Nat) : (b.aerSet f i).str = b.str := rfl
@[simp] theorem Blk.aerSet_pool (b : Blk) (f i : Nat) : (b.aerSet f i).pool = b.pool := rfl
@[simp] theorem Blk.aerSet_chans (b : Blk) (f i : Nat) : (b.aerSet f i).chans = b.chans := rfl
@[simp] theorem Blk.aerSet_ext (b : Blk) (f i : Nat) : (b.aerSet f i).ext = b.ext := rfl
@[simp] theorem Blk.aerSet_coh (b : Blk) (f i : Nat) : (b.aerSet f i).coh = b.coh := rfl
@[simp] theorem Blk.aerSet_fab (b : Blk) (f i : Nat) : (b.aerSet f i).fab = b.fab := rfl
@[simp] theorem Blk.aerSet_traf (b : Blk) (f i : Nat) : (b.aerSet f i).traf = b.traf := rfl
@[simp] theorem Blk.aerSet_work (b : Blk) (f i : Nat) : (b.aerSet f i).work = b.work := rfl
@[simp] theorem Blk.aerSet_rings (b : Blk) (f i : Nat) : (b.aerSet f i).rings = b.rings := rfl
@[simp] theorem Blk.aerSet_pair (b : Blk) (f i : Nat) : (b.aerSet f i).pair = b.pair := rfl
@[simp] theorem Blk.aerSet_mgmt (b : Blk) (f i : Nat) : (b.aerSet f i).mgmt = b.mgmt := rfl
@[simp] theorem Blk.aerSet_sec (b : Blk) (f i : Nat) : (b.aerSet f i).sec = b.sec := rfl
@[simp] theorem Blk.aerSet_pwr (b : Blk) (f i : Nat) : (b.aerSet f i).pwr = b.pwr := rfl

/-! ## ideDrop -/

@[simp] theorem Blk.ideDrop_dead (b : Blk) : (b.ideDrop).dead = b.dead := rfl
@[simp] theorem Blk.ideDrop_pins (b : Blk) : (b.ideDrop).pins = b.pins := rfl
@[simp] theorem Blk.ideDrop_tb (b : Blk) : (b.ideDrop).tb = b.tb := rfl
@[simp] theorem Blk.ideDrop_frozen (b : Blk) : (b.ideDrop).frozen = b.frozen := rfl
@[simp] theorem Blk.ideDrop_fresh (b : Blk) : (b.ideDrop).fresh = b.fresh := rfl
@[simp] theorem Blk.ideDrop_aon (b : Blk) : (b.ideDrop).aon = b.aon := rfl
@[simp] theorem Blk.ideDrop_pcs (b : Blk) : (b.ideDrop).pcs = b.pcs := rfl
@[simp] theorem Blk.ideDrop_str (b : Blk) : (b.ideDrop).str = b.str := rfl
@[simp] theorem Blk.ideDrop_pool (b : Blk) : (b.ideDrop).pool = b.pool := rfl
@[simp] theorem Blk.ideDrop_chans (b : Blk) : (b.ideDrop).chans = b.chans := rfl
@[simp] theorem Blk.ideDrop_ext (b : Blk) : (b.ideDrop).ext = b.ext := rfl
@[simp] theorem Blk.ideDrop_coh (b : Blk) : (b.ideDrop).coh = b.coh := rfl
@[simp] theorem Blk.ideDrop_fab (b : Blk) : (b.ideDrop).fab = b.fab := rfl
@[simp] theorem Blk.ideDrop_traf (b : Blk) : (b.ideDrop).traf = b.traf := rfl
@[simp] theorem Blk.ideDrop_work (b : Blk) : (b.ideDrop).work = b.work := rfl
@[simp] theorem Blk.ideDrop_rings (b : Blk) : (b.ideDrop).rings = b.rings := rfl
@[simp] theorem Blk.ideDrop_pair (b : Blk) : (b.ideDrop).pair = b.pair := rfl
@[simp] theorem Blk.ideDrop_hub (b : Blk) : (b.ideDrop).hub = b.hub := rfl
@[simp] theorem Blk.ideDrop_mgmt (b : Blk) : (b.ideDrop).mgmt = b.mgmt := rfl
@[simp] theorem Blk.ideDrop_sec (b : Blk) : (b.ideDrop).sec = b.sec := rfl
@[simp] theorem Blk.ideDrop_pwr (b : Blk) : (b.ideDrop).pwr = b.pwr := rfl

/-! ## ideDropUr -/

@[simp] theorem Blk.ideDropUr_dead (b : Blk) (f : Nat) (ur : PcieOut) : (b.ideDropUr f ur).dead = b.dead := by simp [Blk.ideDropUr]
@[simp] theorem Blk.ideDropUr_pins (b : Blk) (f : Nat) (ur : PcieOut) : (b.ideDropUr f ur).pins = b.pins := by simp [Blk.ideDropUr]
@[simp] theorem Blk.ideDropUr_tb (b : Blk) (f : Nat) (ur : PcieOut) : (b.ideDropUr f ur).tb = b.tb := by simp [Blk.ideDropUr]
@[simp] theorem Blk.ideDropUr_frozen (b : Blk) (f : Nat) (ur : PcieOut) : (b.ideDropUr f ur).frozen = b.frozen := by simp [Blk.ideDropUr]
@[simp] theorem Blk.ideDropUr_fresh (b : Blk) (f : Nat) (ur : PcieOut) : (b.ideDropUr f ur).fresh = b.fresh := by simp [Blk.ideDropUr]
@[simp] theorem Blk.ideDropUr_aon (b : Blk) (f : Nat) (ur : PcieOut) : (b.ideDropUr f ur).aon = b.aon := by simp [Blk.ideDropUr]
@[simp] theorem Blk.ideDropUr_pcs (b : Blk) (f : Nat) (ur : PcieOut) : (b.ideDropUr f ur).pcs = b.pcs := by simp [Blk.ideDropUr]
@[simp] theorem Blk.ideDropUr_str (b : Blk) (f : Nat) (ur : PcieOut) : (b.ideDropUr f ur).str = b.str := by simp [Blk.ideDropUr]
@[simp] theorem Blk.ideDropUr_pool (b : Blk) (f : Nat) (ur : PcieOut) : (b.ideDropUr f ur).pool = b.pool := by simp [Blk.ideDropUr]
@[simp] theorem Blk.ideDropUr_chans (b : Blk) (f : Nat) (ur : PcieOut) : (b.ideDropUr f ur).chans = b.chans := by simp [Blk.ideDropUr]
@[simp] theorem Blk.ideDropUr_ext (b : Blk) (f : Nat) (ur : PcieOut) : (b.ideDropUr f ur).ext = b.ext := by simp [Blk.ideDropUr]
@[simp] theorem Blk.ideDropUr_coh (b : Blk) (f : Nat) (ur : PcieOut) : (b.ideDropUr f ur).coh = b.coh := by simp [Blk.ideDropUr]
@[simp] theorem Blk.ideDropUr_fab (b : Blk) (f : Nat) (ur : PcieOut) : (b.ideDropUr f ur).fab = b.fab := by simp [Blk.ideDropUr]
@[simp] theorem Blk.ideDropUr_traf (b : Blk) (f : Nat) (ur : PcieOut) : (b.ideDropUr f ur).traf = b.traf := by simp [Blk.ideDropUr]
@[simp] theorem Blk.ideDropUr_work (b : Blk) (f : Nat) (ur : PcieOut) : (b.ideDropUr f ur).work = b.work := by simp [Blk.ideDropUr]
@[simp] theorem Blk.ideDropUr_rings (b : Blk) (f : Nat) (ur : PcieOut) : (b.ideDropUr f ur).rings = b.rings := by simp [Blk.ideDropUr]
@[simp] theorem Blk.ideDropUr_pair (b : Blk) (f : Nat) (ur : PcieOut) : (b.ideDropUr f ur).pair = b.pair := by simp [Blk.ideDropUr]
@[simp] theorem Blk.ideDropUr_mgmt (b : Blk) (f : Nat) (ur : PcieOut) : (b.ideDropUr f ur).mgmt = b.mgmt := by simp [Blk.ideDropUr]
@[simp] theorem Blk.ideDropUr_sec (b : Blk) (f : Nat) (ur : PcieOut) : (b.ideDropUr f ur).sec = b.sec := by simp [Blk.ideDropUr]
@[simp] theorem Blk.ideDropUr_pwr (b : Blk) (f : Nat) (ur : PcieOut) : (b.ideDropUr f ur).pwr = b.pwr := by simp [Blk.ideDropUr]

/-! ## endRead -/

@[simp] theorem Blk.endRead_regs (b : Blk) (x : Xfer) : (b.endRead x).regs = b.regs := rfl
@[simp] theorem Blk.endRead_dead (b : Blk) (x : Xfer) : (b.endRead x).dead = b.dead := rfl
@[simp] theorem Blk.endRead_pins (b : Blk) (x : Xfer) : (b.endRead x).pins = b.pins := rfl
@[simp] theorem Blk.endRead_tb (b : Blk) (x : Xfer) : (b.endRead x).tb = b.tb := rfl
@[simp] theorem Blk.endRead_frozen (b : Blk) (x : Xfer) : (b.endRead x).frozen = b.frozen := rfl
@[simp] theorem Blk.endRead_fresh (b : Blk) (x : Xfer) : (b.endRead x).fresh = b.fresh := rfl
@[simp] theorem Blk.endRead_aon (b : Blk) (x : Xfer) : (b.endRead x).aon = b.aon := rfl
@[simp] theorem Blk.endRead_pcs (b : Blk) (x : Xfer) : (b.endRead x).pcs = b.pcs := rfl
@[simp] theorem Blk.endRead_str (b : Blk) (x : Xfer) : (b.endRead x).str = b.str := rfl
@[simp] theorem Blk.endRead_pool (b : Blk) (x : Xfer) : (b.endRead x).pool = b.pool := rfl
@[simp] theorem Blk.endRead_chans (b : Blk) (x : Xfer) : (b.endRead x).chans = b.chans := rfl
@[simp] theorem Blk.endRead_ext (b : Blk) (x : Xfer) : (b.endRead x).ext = b.ext := rfl
@[simp] theorem Blk.endRead_coh (b : Blk) (x : Xfer) : (b.endRead x).coh = b.coh := rfl
@[simp] theorem Blk.endRead_fab (b : Blk) (x : Xfer) : (b.endRead x).fab = b.fab := rfl
@[simp] theorem Blk.endRead_traf (b : Blk) (x : Xfer) : (b.endRead x).traf = b.traf := rfl
@[simp] theorem Blk.endRead_work (b : Blk) (x : Xfer) : (b.endRead x).work = b.work := rfl
@[simp] theorem Blk.endRead_rings (b : Blk) (x : Xfer) : (b.endRead x).rings = b.rings := rfl
@[simp] theorem Blk.endRead_pair (b : Blk) (x : Xfer) : (b.endRead x).pair = b.pair := rfl
@[simp] theorem Blk.endRead_mgmt (b : Blk) (x : Xfer) : (b.endRead x).mgmt = b.mgmt := rfl
@[simp] theorem Blk.endRead_sec (b : Blk) (x : Xfer) : (b.endRead x).sec = b.sec := rfl
@[simp] theorem Blk.endRead_pwr (b : Blk) (x : Xfer) : (b.endRead x).pwr = b.pwr := rfl

/-! ## startCmd -/

@[simp] theorem Blk.startCmd_regs (b : Blk) (c : CmdId) : (b.startCmd c).regs = b.regs := rfl
@[simp] theorem Blk.startCmd_dead (b : Blk) (c : CmdId) : (b.startCmd c).dead = b.dead := rfl
@[simp] theorem Blk.startCmd_pins (b : Blk) (c : CmdId) : (b.startCmd c).pins = b.pins := rfl
@[simp] theorem Blk.startCmd_tb (b : Blk) (c : CmdId) : (b.startCmd c).tb = b.tb := rfl
@[simp] theorem Blk.startCmd_frozen (b : Blk) (c : CmdId) : (b.startCmd c).frozen = b.frozen := rfl
@[simp] theorem Blk.startCmd_fresh (b : Blk) (c : CmdId) : (b.startCmd c).fresh = b.fresh := rfl
@[simp] theorem Blk.startCmd_aon (b : Blk) (c : CmdId) : (b.startCmd c).aon = b.aon := rfl
@[simp] theorem Blk.startCmd_pcs (b : Blk) (c : CmdId) : (b.startCmd c).pcs = b.pcs := rfl
@[simp] theorem Blk.startCmd_str (b : Blk) (c : CmdId) : (b.startCmd c).str = b.str := rfl
@[simp] theorem Blk.startCmd_pool (b : Blk) (c : CmdId) : (b.startCmd c).pool = b.pool := rfl
@[simp] theorem Blk.startCmd_chans (b : Blk) (c : CmdId) : (b.startCmd c).chans = b.chans := rfl
@[simp] theorem Blk.startCmd_ext (b : Blk) (c : CmdId) : (b.startCmd c).ext = b.ext := rfl
@[simp] theorem Blk.startCmd_coh (b : Blk) (c : CmdId) : (b.startCmd c).coh = b.coh := rfl
@[simp] theorem Blk.startCmd_fab (b : Blk) (c : CmdId) : (b.startCmd c).fab = b.fab := rfl
@[simp] theorem Blk.startCmd_traf (b : Blk) (c : CmdId) : (b.startCmd c).traf = b.traf := rfl
@[simp] theorem Blk.startCmd_work (b : Blk) (c : CmdId) : (b.startCmd c).work = b.work := rfl
@[simp] theorem Blk.startCmd_rings (b : Blk) (c : CmdId) : (b.startCmd c).rings = b.rings := rfl
@[simp] theorem Blk.startCmd_pair (b : Blk) (c : CmdId) : (b.startCmd c).pair = b.pair := rfl
@[simp] theorem Blk.startCmd_mgmt (b : Blk) (c : CmdId) : (b.startCmd c).mgmt = b.mgmt := rfl
@[simp] theorem Blk.startCmd_sec (b : Blk) (c : CmdId) : (b.startCmd c).sec = b.sec := rfl
@[simp] theorem Blk.startCmd_pwr (b : Blk) (c : CmdId) : (b.startCmd c).pwr = b.pwr := rfl

/-! ## dropCmd -/

@[simp] theorem Blk.dropCmd_regs (b : Blk) (c : CmdId) : (b.dropCmd c).regs = b.regs := rfl
@[simp] theorem Blk.dropCmd_dead (b : Blk) (c : CmdId) : (b.dropCmd c).dead = b.dead := rfl
@[simp] theorem Blk.dropCmd_pins (b : Blk) (c : CmdId) : (b.dropCmd c).pins = b.pins := rfl
@[simp] theorem Blk.dropCmd_tb (b : Blk) (c : CmdId) : (b.dropCmd c).tb = b.tb := rfl
@[simp] theorem Blk.dropCmd_frozen (b : Blk) (c : CmdId) : (b.dropCmd c).frozen = b.frozen := rfl
@[simp] theorem Blk.dropCmd_fresh (b : Blk) (c : CmdId) : (b.dropCmd c).fresh = b.fresh := rfl
@[simp] theorem Blk.dropCmd_aon (b : Blk) (c : CmdId) : (b.dropCmd c).aon = b.aon := rfl
@[simp] theorem Blk.dropCmd_pcs (b : Blk) (c : CmdId) : (b.dropCmd c).pcs = b.pcs := rfl
@[simp] theorem Blk.dropCmd_str (b : Blk) (c : CmdId) : (b.dropCmd c).str = b.str := rfl
@[simp] theorem Blk.dropCmd_pool (b : Blk) (c : CmdId) : (b.dropCmd c).pool = b.pool := rfl
@[simp] theorem Blk.dropCmd_chans (b : Blk) (c : CmdId) : (b.dropCmd c).chans = b.chans := rfl
@[simp] theorem Blk.dropCmd_ext (b : Blk) (c : CmdId) : (b.dropCmd c).ext = b.ext := rfl
@[simp] theorem Blk.dropCmd_coh (b : Blk) (c : CmdId) : (b.dropCmd c).coh = b.coh := rfl
@[simp] theorem Blk.dropCmd_fab (b : Blk) (c : CmdId) : (b.dropCmd c).fab = b.fab := rfl
@[simp] theorem Blk.dropCmd_traf (b : Blk) (c : CmdId) : (b.dropCmd c).traf = b.traf := rfl
@[simp] theorem Blk.dropCmd_work (b : Blk) (c : CmdId) : (b.dropCmd c).work = b.work := rfl
@[simp] theorem Blk.dropCmd_rings (b : Blk) (c : CmdId) : (b.dropCmd c).rings = b.rings := rfl
@[simp] theorem Blk.dropCmd_pair (b : Blk) (c : CmdId) : (b.dropCmd c).pair = b.pair := rfl
@[simp] theorem Blk.dropCmd_mgmt (b : Blk) (c : CmdId) : (b.dropCmd c).mgmt = b.mgmt := rfl
@[simp] theorem Blk.dropCmd_sec (b : Blk) (c : CmdId) : (b.dropCmd c).sec = b.sec := rfl
@[simp] theorem Blk.dropCmd_pwr (b : Blk) (c : CmdId) : (b.dropCmd c).pwr = b.pwr := rfl

/-! ## answerRec -/

@[simp] theorem Blk.answerRec_dead (b : Blk) (r : CmdRec) (st : Nat) (res : Bytes) : (b.answerRec r st res).dead = b.dead := by simp only [Blk.answerRec]; split <;> split <;> simp
@[simp] theorem Blk.answerRec_pins (b : Blk) (r : CmdRec) (st : Nat) (res : Bytes) : (b.answerRec r st res).pins = b.pins := by simp only [Blk.answerRec]; split <;> split <;> simp
@[simp] theorem Blk.answerRec_tb (b : Blk) (r : CmdRec) (st : Nat) (res : Bytes) : (b.answerRec r st res).tb = b.tb := by simp only [Blk.answerRec]; split <;> split <;> simp
@[simp] theorem Blk.answerRec_frozen (b : Blk) (r : CmdRec) (st : Nat) (res : Bytes) : (b.answerRec r st res).frozen = b.frozen := by simp only [Blk.answerRec]; split <;> split <;> simp
@[simp] theorem Blk.answerRec_fresh (b : Blk) (r : CmdRec) (st : Nat) (res : Bytes) : (b.answerRec r st res).fresh = b.fresh := by simp only [Blk.answerRec]; split <;> split <;> simp
@[simp] theorem Blk.answerRec_aon (b : Blk) (r : CmdRec) (st : Nat) (res : Bytes) : (b.answerRec r st res).aon = b.aon := by simp only [Blk.answerRec]; split <;> split <;> simp
@[simp] theorem Blk.answerRec_pcs (b : Blk) (r : CmdRec) (st : Nat) (res : Bytes) : (b.answerRec r st res).pcs = b.pcs := by simp only [Blk.answerRec]; split <;> split <;> simp
@[simp] theorem Blk.answerRec_str (b : Blk) (r : CmdRec) (st : Nat) (res : Bytes) : (b.answerRec r st res).str = b.str := by simp only [Blk.answerRec]; split <;> split <;> simp
@[simp] theorem Blk.answerRec_pool (b : Blk) (r : CmdRec) (st : Nat) (res : Bytes) : (b.answerRec r st res).pool = b.pool := by simp only [Blk.answerRec]; split <;> split <;> simp
@[simp] theorem Blk.answerRec_chans (b : Blk) (r : CmdRec) (st : Nat) (res : Bytes) : (b.answerRec r st res).chans = b.chans := by simp only [Blk.answerRec]; split <;> split <;> simp
@[simp] theorem Blk.answerRec_ext (b : Blk) (r : CmdRec) (st : Nat) (res : Bytes) : (b.answerRec r st res).ext = b.ext := by simp only [Blk.answerRec]; split <;> split <;> simp
@[simp] theorem Blk.answerRec_coh (b : Blk) (r : CmdRec) (st : Nat) (res : Bytes) : (b.answerRec r st res).coh = b.coh := by simp only [Blk.answerRec]; split <;> split <;> simp
@[simp] theorem Blk.answerRec_fab (b : Blk) (r : CmdRec) (st : Nat) (res : Bytes) : (b.answerRec r st res).fab = b.fab := by simp only [Blk.answerRec]; split <;> split <;> simp
@[simp] theorem Blk.answerRec_traf (b : Blk) (r : CmdRec) (st : Nat) (res : Bytes) : (b.answerRec r st res).traf = b.traf := by simp only [Blk.answerRec]; split <;> split <;> simp
@[simp] theorem Blk.answerRec_work (b : Blk) (r : CmdRec) (st : Nat) (res : Bytes) : (b.answerRec r st res).work = b.work := by simp only [Blk.answerRec]; split <;> split <;> simp
@[simp] theorem Blk.answerRec_rings (b : Blk) (r : CmdRec) (st : Nat) (res : Bytes) : (b.answerRec r st res).rings = b.rings := by simp only [Blk.answerRec]; split <;> split <;> simp
@[simp] theorem Blk.answerRec_pair (b : Blk) (r : CmdRec) (st : Nat) (res : Bytes) : (b.answerRec r st res).pair = b.pair := by simp only [Blk.answerRec]; split <;> split <;> simp
@[simp] theorem Blk.answerRec_mgmt (b : Blk) (r : CmdRec) (st : Nat) (res : Bytes) : (b.answerRec r st res).mgmt = b.mgmt := by simp only [Blk.answerRec]; split <;> split <;> simp
@[simp] theorem Blk.answerRec_sec (b : Blk) (r : CmdRec) (st : Nat) (res : Bytes) : (b.answerRec r st res).sec = b.sec := by simp only [Blk.answerRec]; split <;> split <;> simp
@[simp] theorem Blk.answerRec_pwr (b : Blk) (r : CmdRec) (st : Nat) (res : Bytes) : (b.answerRec r st res).pwr = b.pwr := by simp only [Blk.answerRec]; split <;> split <;> simp

/-! ## answerCmd -/

@[simp] theorem Blk.answerCmd_dead (b : Blk) (c : CmdId) (st : Nat) (res : Bytes) : (b.answerCmd c st res).dead = b.dead := by
  unfold Blk.answerCmd; split
  · rfl
  · split <;> simp
@[simp] theorem Blk.answerCmd_pins (b : Blk) (c : CmdId) (st : Nat) (res : Bytes) : (b.answerCmd c st res).pins = b.pins := by
  unfold Blk.answerCmd; split
  · rfl
  · split <;> simp
@[simp] theorem Blk.answerCmd_tb (b : Blk) (c : CmdId) (st : Nat) (res : Bytes) : (b.answerCmd c st res).tb = b.tb := by
  unfold Blk.answerCmd; split
  · rfl
  · split <;> simp
@[simp] theorem Blk.answerCmd_frozen (b : Blk) (c : CmdId) (st : Nat) (res : Bytes) : (b.answerCmd c st res).frozen = b.frozen := by
  unfold Blk.answerCmd; split
  · rfl
  · split <;> simp
@[simp] theorem Blk.answerCmd_fresh (b : Blk) (c : CmdId) (st : Nat) (res : Bytes) : (b.answerCmd c st res).fresh = b.fresh := by
  unfold Blk.answerCmd; split
  · rfl
  · split <;> simp
@[simp] theorem Blk.answerCmd_aon (b : Blk) (c : CmdId) (st : Nat) (res : Bytes) : (b.answerCmd c st res).aon = b.aon := by
  unfold Blk.answerCmd; split
  · rfl
  · split <;> simp
@[simp] theorem Blk.answerCmd_pcs (b : Blk) (c : CmdId) (st : Nat) (res : Bytes) : (b.answerCmd c st res).pcs = b.pcs := by
  unfold Blk.answerCmd; split
  · rfl
  · split <;> simp
@[simp] theorem Blk.answerCmd_str (b : Blk) (c : CmdId) (st : Nat) (res : Bytes) : (b.answerCmd c st res).str = b.str := by
  unfold Blk.answerCmd; split
  · rfl
  · split <;> simp
@[simp] theorem Blk.answerCmd_pool (b : Blk) (c : CmdId) (st : Nat) (res : Bytes) : (b.answerCmd c st res).pool = b.pool := by
  unfold Blk.answerCmd; split
  · rfl
  · split <;> simp
@[simp] theorem Blk.answerCmd_chans (b : Blk) (c : CmdId) (st : Nat) (res : Bytes) : (b.answerCmd c st res).chans = b.chans := by
  unfold Blk.answerCmd; split
  · rfl
  · split <;> simp
@[simp] theorem Blk.answerCmd_ext (b : Blk) (c : CmdId) (st : Nat) (res : Bytes) : (b.answerCmd c st res).ext = b.ext := by
  unfold Blk.answerCmd; split
  · rfl
  · split <;> simp
@[simp] theorem Blk.answerCmd_coh (b : Blk) (c : CmdId) (st : Nat) (res : Bytes) : (b.answerCmd c st res).coh = b.coh := by
  unfold Blk.answerCmd; split
  · rfl
  · split <;> simp
@[simp] theorem Blk.answerCmd_fab (b : Blk) (c : CmdId) (st : Nat) (res : Bytes) : (b.answerCmd c st res).fab = b.fab := by
  unfold Blk.answerCmd; split
  · rfl
  · split <;> simp
@[simp] theorem Blk.answerCmd_traf (b : Blk) (c : CmdId) (st : Nat) (res : Bytes) : (b.answerCmd c st res).traf = b.traf := by
  unfold Blk.answerCmd; split
  · rfl
  · split <;> simp
@[simp] theorem Blk.answerCmd_work (b : Blk) (c : CmdId) (st : Nat) (res : Bytes) : (b.answerCmd c st res).work = b.work := by
  unfold Blk.answerCmd; split
  · rfl
  · split <;> simp
@[simp] theorem Blk.answerCmd_rings (b : Blk) (c : CmdId) (st : Nat) (res : Bytes) : (b.answerCmd c st res).rings = b.rings := by
  unfold Blk.answerCmd; split
  · rfl
  · split <;> simp
@[simp] theorem Blk.answerCmd_pair (b : Blk) (c : CmdId) (st : Nat) (res : Bytes) : (b.answerCmd c st res).pair = b.pair := by
  unfold Blk.answerCmd; split
  · rfl
  · split <;> simp
@[simp] theorem Blk.answerCmd_mgmt (b : Blk) (c : CmdId) (st : Nat) (res : Bytes) : (b.answerCmd c st res).mgmt = b.mgmt := by
  unfold Blk.answerCmd; split
  · rfl
  · split <;> simp
@[simp] theorem Blk.answerCmd_sec (b : Blk) (c : CmdId) (st : Nat) (res : Bytes) : (b.answerCmd c st res).sec = b.sec := by
  unfold Blk.answerCmd; split
  · rfl
  · split <;> simp
@[simp] theorem Blk.answerCmd_pwr (b : Blk) (c : CmdId) (st : Nat) (res : Bytes) : (b.answerCmd c st res).pwr = b.pwr := by
  unfold Blk.answerCmd; split
  · rfl
  · split <;> simp

/-! ## spdmSend -/

@[simp] theorem Blk.spdmSend_regs (b : Blk) (via : SpdmVia) (r : SpdmRsp) : (b.spdmSend via r).regs = b.regs := rfl
@[simp] theorem Blk.spdmSend_dead (b : Blk) (via : SpdmVia) (r : SpdmRsp) : (b.spdmSend via r).dead = b.dead := rfl
@[simp] theorem Blk.spdmSend_pins (b : Blk) (via : SpdmVia) (r : SpdmRsp) : (b.spdmSend via r).pins = b.pins := rfl
@[simp] theorem Blk.spdmSend_tb (b : Blk) (via : SpdmVia) (r : SpdmRsp) : (b.spdmSend via r).tb = b.tb := rfl
@[simp] theorem Blk.spdmSend_frozen (b : Blk) (via : SpdmVia) (r : SpdmRsp) : (b.spdmSend via r).frozen = b.frozen := rfl
@[simp] theorem Blk.spdmSend_fresh (b : Blk) (via : SpdmVia) (r : SpdmRsp) : (b.spdmSend via r).fresh = b.fresh := rfl
@[simp] theorem Blk.spdmSend_aon (b : Blk) (via : SpdmVia) (r : SpdmRsp) : (b.spdmSend via r).aon = b.aon := rfl
@[simp] theorem Blk.spdmSend_pcs (b : Blk) (via : SpdmVia) (r : SpdmRsp) : (b.spdmSend via r).pcs = b.pcs := rfl
@[simp] theorem Blk.spdmSend_str (b : Blk) (via : SpdmVia) (r : SpdmRsp) : (b.spdmSend via r).str = b.str := rfl
@[simp] theorem Blk.spdmSend_pool (b : Blk) (via : SpdmVia) (r : SpdmRsp) : (b.spdmSend via r).pool = b.pool := rfl
@[simp] theorem Blk.spdmSend_chans (b : Blk) (via : SpdmVia) (r : SpdmRsp) : (b.spdmSend via r).chans = b.chans := rfl
@[simp] theorem Blk.spdmSend_ext (b : Blk) (via : SpdmVia) (r : SpdmRsp) : (b.spdmSend via r).ext = b.ext := rfl
@[simp] theorem Blk.spdmSend_coh (b : Blk) (via : SpdmVia) (r : SpdmRsp) : (b.spdmSend via r).coh = b.coh := rfl
@[simp] theorem Blk.spdmSend_fab (b : Blk) (via : SpdmVia) (r : SpdmRsp) : (b.spdmSend via r).fab = b.fab := rfl
@[simp] theorem Blk.spdmSend_traf (b : Blk) (via : SpdmVia) (r : SpdmRsp) : (b.spdmSend via r).traf = b.traf := rfl
@[simp] theorem Blk.spdmSend_work (b : Blk) (via : SpdmVia) (r : SpdmRsp) : (b.spdmSend via r).work = b.work := rfl
@[simp] theorem Blk.spdmSend_rings (b : Blk) (via : SpdmVia) (r : SpdmRsp) : (b.spdmSend via r).rings = b.rings := rfl
@[simp] theorem Blk.spdmSend_pair (b : Blk) (via : SpdmVia) (r : SpdmRsp) : (b.spdmSend via r).pair = b.pair := rfl
@[simp] theorem Blk.spdmSend_hub (b : Blk) (via : SpdmVia) (r : SpdmRsp) : (b.spdmSend via r).hub = b.hub := rfl
@[simp] theorem Blk.spdmSend_mgmt (b : Blk) (via : SpdmVia) (r : SpdmRsp) : (b.spdmSend via r).mgmt = b.mgmt := rfl
@[simp] theorem Blk.spdmSend_pwr (b : Blk) (via : SpdmVia) (r : SpdmRsp) : (b.spdmSend via r).pwr = b.pwr := rfl

/-! ## spdmError -/

@[simp] theorem Blk.spdmError_regs (b : Blk) (via : SpdmVia) (code : Nat) : (b.spdmError via code).regs = b.regs := rfl
@[simp] theorem Blk.spdmError_dead (b : Blk) (via : SpdmVia) (code : Nat) : (b.spdmError via code).dead = b.dead := rfl
@[simp] theorem Blk.spdmError_pins (b : Blk) (via : SpdmVia) (code : Nat) : (b.spdmError via code).pins = b.pins := rfl
@[simp] theorem Blk.spdmError_tb (b : Blk) (via : SpdmVia) (code : Nat) : (b.spdmError via code).tb = b.tb := rfl
@[simp] theorem Blk.spdmError_frozen (b : Blk) (via : SpdmVia) (code : Nat) : (b.spdmError via code).frozen = b.frozen := rfl
@[simp] theorem Blk.spdmError_fresh (b : Blk) (via : SpdmVia) (code : Nat) : (b.spdmError via code).fresh = b.fresh := rfl
@[simp] theorem Blk.spdmError_aon (b : Blk) (via : SpdmVia) (code : Nat) : (b.spdmError via code).aon = b.aon := rfl
@[simp] theorem Blk.spdmError_pcs (b : Blk) (via : SpdmVia) (code : Nat) : (b.spdmError via code).pcs = b.pcs := rfl
@[simp] theorem Blk.spdmError_str (b : Blk) (via : SpdmVia) (code : Nat) : (b.spdmError via code).str = b.str := rfl
@[simp] theorem Blk.spdmError_pool (b : Blk) (via : SpdmVia) (code : Nat) : (b.spdmError via code).pool = b.pool := rfl
@[simp] theorem Blk.spdmError_chans (b : Blk) (via : SpdmVia) (code : Nat) : (b.spdmError via code).chans = b.chans := rfl
@[simp] theorem Blk.spdmError_ext (b : Blk) (via : SpdmVia) (code : Nat) : (b.spdmError via code).ext = b.ext := rfl
@[simp] theorem Blk.spdmError_coh (b : Blk) (via : SpdmVia) (code : Nat) : (b.spdmError via code).coh = b.coh := rfl
@[simp] theorem Blk.spdmError_fab (b : Blk) (via : SpdmVia) (code : Nat) : (b.spdmError via code).fab = b.fab := rfl
@[simp] theorem Blk.spdmError_traf (b : Blk) (via : SpdmVia) (code : Nat) : (b.spdmError via code).traf = b.traf := rfl
@[simp] theorem Blk.spdmError_work (b : Blk) (via : SpdmVia) (code : Nat) : (b.spdmError via code).work = b.work := rfl
@[simp] theorem Blk.spdmError_rings (b : Blk) (via : SpdmVia) (code : Nat) : (b.spdmError via code).rings = b.rings := rfl
@[simp] theorem Blk.spdmError_pair (b : Blk) (via : SpdmVia) (code : Nat) : (b.spdmError via code).pair = b.pair := rfl
@[simp] theorem Blk.spdmError_hub (b : Blk) (via : SpdmVia) (code : Nat) : (b.spdmError via code).hub = b.hub := rfl
@[simp] theorem Blk.spdmError_mgmt (b : Blk) (via : SpdmVia) (code : Nat) : (b.spdmError via code).mgmt = b.mgmt := rfl
@[simp] theorem Blk.spdmError_pwr (b : Blk) (via : SpdmVia) (code : Nat) : (b.spdmError via code).pwr = b.pwr := rfl

/-! ## modD2d -/

@[simp] theorem Blk.modD2d_regs (b : Blk) (x c : Nat) (f : D2d → D2d) : (b.modD2d x c f).regs = b.regs := rfl
@[simp] theorem Blk.modD2d_dead (b : Blk) (x c : Nat) (f : D2d → D2d) : (b.modD2d x c f).dead = b.dead := rfl
@[simp] theorem Blk.modD2d_pins (b : Blk) (x c : Nat) (f : D2d → D2d) : (b.modD2d x c f).pins = b.pins := rfl
@[simp] theorem Blk.modD2d_tb (b : Blk) (x c : Nat) (f : D2d → D2d) : (b.modD2d x c f).tb = b.tb := rfl
@[simp] theorem Blk.modD2d_frozen (b : Blk) (x c : Nat) (f : D2d → D2d) : (b.modD2d x c f).frozen = b.frozen := rfl
@[simp] theorem Blk.modD2d_fresh (b : Blk) (x c : Nat) (f : D2d → D2d) : (b.modD2d x c f).fresh = b.fresh := rfl
@[simp] theorem Blk.modD2d_aon (b : Blk) (x c : Nat) (f : D2d → D2d) : (b.modD2d x c f).aon = b.aon := rfl
@[simp] theorem Blk.modD2d_pcs (b : Blk) (x c : Nat) (f : D2d → D2d) : (b.modD2d x c f).pcs = b.pcs := rfl
@[simp] theorem Blk.modD2d_str (b : Blk) (x c : Nat) (f : D2d → D2d) : (b.modD2d x c f).str = b.str := rfl
@[simp] theorem Blk.modD2d_pool (b : Blk) (x c : Nat) (f : D2d → D2d) : (b.modD2d x c f).pool = b.pool := rfl
@[simp] theorem Blk.modD2d_chans (b : Blk) (x c : Nat) (f : D2d → D2d) : (b.modD2d x c f).chans = b.chans := rfl
@[simp] theorem Blk.modD2d_ext (b : Blk) (x c : Nat) (f : D2d → D2d) : (b.modD2d x c f).ext = b.ext := rfl
@[simp] theorem Blk.modD2d_coh (b : Blk) (x c : Nat) (f : D2d → D2d) : (b.modD2d x c f).coh = b.coh := rfl
@[simp] theorem Blk.modD2d_traf (b : Blk) (x c : Nat) (f : D2d → D2d) : (b.modD2d x c f).traf = b.traf := rfl
@[simp] theorem Blk.modD2d_work (b : Blk) (x c : Nat) (f : D2d → D2d) : (b.modD2d x c f).work = b.work := rfl
@[simp] theorem Blk.modD2d_rings (b : Blk) (x c : Nat) (f : D2d → D2d) : (b.modD2d x c f).rings = b.rings := rfl
@[simp] theorem Blk.modD2d_pair (b : Blk) (x c : Nat) (f : D2d → D2d) : (b.modD2d x c f).pair = b.pair := rfl
@[simp] theorem Blk.modD2d_hub (b : Blk) (x c : Nat) (f : D2d → D2d) : (b.modD2d x c f).hub = b.hub := rfl
@[simp] theorem Blk.modD2d_mgmt (b : Blk) (x c : Nat) (f : D2d → D2d) : (b.modD2d x c f).mgmt = b.mgmt := rfl
@[simp] theorem Blk.modD2d_sec (b : Blk) (x c : Nat) (f : D2d → D2d) : (b.modD2d x c f).sec = b.sec := rfl
@[simp] theorem Blk.modD2d_pwr (b : Blk) (x c : Nat) (f : D2d → D2d) : (b.modD2d x c f).pwr = b.pwr := rfl

/-! ## putTxn -/

@[simp] theorem Blk.putTxn_regs (b : Blk) (t : Txn) : (b.putTxn t).regs = b.regs := rfl
@[simp] theorem Blk.putTxn_dead (b : Blk) (t : Txn) : (b.putTxn t).dead = b.dead := rfl
@[simp] theorem Blk.putTxn_pins (b : Blk) (t : Txn) : (b.putTxn t).pins = b.pins := rfl
@[simp] theorem Blk.putTxn_tb (b : Blk) (t : Txn) : (b.putTxn t).tb = b.tb := rfl
@[simp] theorem Blk.putTxn_frozen (b : Blk) (t : Txn) : (b.putTxn t).frozen = b.frozen := rfl
@[simp] theorem Blk.putTxn_fresh (b : Blk) (t : Txn) : (b.putTxn t).fresh = b.fresh := rfl
@[simp] theorem Blk.putTxn_aon (b : Blk) (t : Txn) : (b.putTxn t).aon = b.aon := rfl
@[simp] theorem Blk.putTxn_pcs (b : Blk) (t : Txn) : (b.putTxn t).pcs = b.pcs := rfl
@[simp] theorem Blk.putTxn_str (b : Blk) (t : Txn) : (b.putTxn t).str = b.str := rfl
@[simp] theorem Blk.putTxn_pool (b : Blk) (t : Txn) : (b.putTxn t).pool = b.pool := rfl
@[simp] theorem Blk.putTxn_chans (b : Blk) (t : Txn) : (b.putTxn t).chans = b.chans := rfl
@[simp] theorem Blk.putTxn_ext (b : Blk) (t : Txn) : (b.putTxn t).ext = b.ext := rfl
@[simp] theorem Blk.putTxn_fab (b : Blk) (t : Txn) : (b.putTxn t).fab = b.fab := rfl
@[simp] theorem Blk.putTxn_traf (b : Blk) (t : Txn) : (b.putTxn t).traf = b.traf := rfl
@[simp] theorem Blk.putTxn_work (b : Blk) (t : Txn) : (b.putTxn t).work = b.work := rfl
@[simp] theorem Blk.putTxn_rings (b : Blk) (t : Txn) : (b.putTxn t).rings = b.rings := rfl
@[simp] theorem Blk.putTxn_pair (b : Blk) (t : Txn) : (b.putTxn t).pair = b.pair := rfl
@[simp] theorem Blk.putTxn_hub (b : Blk) (t : Txn) : (b.putTxn t).hub = b.hub := rfl
@[simp] theorem Blk.putTxn_mgmt (b : Blk) (t : Txn) : (b.putTxn t).mgmt = b.mgmt := rfl
@[simp] theorem Blk.putTxn_sec (b : Blk) (t : Txn) : (b.putTxn t).sec = b.sec := rfl
@[simp] theorem Blk.putTxn_pwr (b : Blk) (t : Txn) : (b.putTxn t).pwr = b.pwr := rfl

/-! ## modTil -/

@[simp] theorem Blk.modTil_regs (b : Blk) (k : Nat) (f : Tiller → Tiller) : (b.modTil k f).regs = b.regs := rfl
@[simp] theorem Blk.modTil_dead (b : Blk) (k : Nat) (f : Tiller → Tiller) : (b.modTil k f).dead = b.dead := rfl
@[simp] theorem Blk.modTil_pins (b : Blk) (k : Nat) (f : Tiller → Tiller) : (b.modTil k f).pins = b.pins := rfl
@[simp] theorem Blk.modTil_tb (b : Blk) (k : Nat) (f : Tiller → Tiller) : (b.modTil k f).tb = b.tb := rfl
@[simp] theorem Blk.modTil_frozen (b : Blk) (k : Nat) (f : Tiller → Tiller) : (b.modTil k f).frozen = b.frozen := rfl
@[simp] theorem Blk.modTil_fresh (b : Blk) (k : Nat) (f : Tiller → Tiller) : (b.modTil k f).fresh = b.fresh := rfl
@[simp] theorem Blk.modTil_aon (b : Blk) (k : Nat) (f : Tiller → Tiller) : (b.modTil k f).aon = b.aon := rfl
@[simp] theorem Blk.modTil_pcs (b : Blk) (k : Nat) (f : Tiller → Tiller) : (b.modTil k f).pcs = b.pcs := rfl
@[simp] theorem Blk.modTil_str (b : Blk) (k : Nat) (f : Tiller → Tiller) : (b.modTil k f).str = b.str := rfl
@[simp] theorem Blk.modTil_pool (b : Blk) (k : Nat) (f : Tiller → Tiller) : (b.modTil k f).pool = b.pool := rfl
@[simp] theorem Blk.modTil_chans (b : Blk) (k : Nat) (f : Tiller → Tiller) : (b.modTil k f).chans = b.chans := rfl
@[simp] theorem Blk.modTil_ext (b : Blk) (k : Nat) (f : Tiller → Tiller) : (b.modTil k f).ext = b.ext := rfl
@[simp] theorem Blk.modTil_coh (b : Blk) (k : Nat) (f : Tiller → Tiller) : (b.modTil k f).coh = b.coh := rfl
@[simp] theorem Blk.modTil_fab (b : Blk) (k : Nat) (f : Tiller → Tiller) : (b.modTil k f).fab = b.fab := rfl
@[simp] theorem Blk.modTil_traf (b : Blk) (k : Nat) (f : Tiller → Tiller) : (b.modTil k f).traf = b.traf := rfl
@[simp] theorem Blk.modTil_rings (b : Blk) (k : Nat) (f : Tiller → Tiller) : (b.modTil k f).rings = b.rings := rfl
@[simp] theorem Blk.modTil_pair (b : Blk) (k : Nat) (f : Tiller → Tiller) : (b.modTil k f).pair = b.pair := rfl
@[simp] theorem Blk.modTil_hub (b : Blk) (k : Nat) (f : Tiller → Tiller) : (b.modTil k f).hub = b.hub := rfl
@[simp] theorem Blk.modTil_mgmt (b : Blk) (k : Nat) (f : Tiller → Tiller) : (b.modTil k f).mgmt = b.mgmt := rfl
@[simp] theorem Blk.modTil_sec (b : Blk) (k : Nat) (f : Tiller → Tiller) : (b.modTil k f).sec = b.sec := rfl
@[simp] theorem Blk.modTil_pwr (b : Blk) (k : Nat) (f : Tiller → Tiller) : (b.modTil k f).pwr = b.pwr := rfl

/-! ## modThr -/

@[simp] theorem Blk.modThr_regs (b : Blk) (q : Nat) (f : Thresher → Thresher) : (b.modThr q f).regs = b.regs := rfl
@[simp] theorem Blk.modThr_dead (b : Blk) (q : Nat) (f : Thresher → Thresher) : (b.modThr q f).dead = b.dead := rfl
@[simp] theorem Blk.modThr_pins (b : Blk) (q : Nat) (f : Thresher → Thresher) : (b.modThr q f).pins = b.pins := rfl
@[simp] theorem Blk.modThr_tb (b : Blk) (q : Nat) (f : Thresher → Thresher) : (b.modThr q f).tb = b.tb := rfl
@[simp] theorem Blk.modThr_frozen (b : Blk) (q : Nat) (f : Thresher → Thresher) : (b.modThr q f).frozen = b.frozen := rfl
@[simp] theorem Blk.modThr_fresh (b : Blk) (q : Nat) (f : Thresher → Thresher) : (b.modThr q f).fresh = b.fresh := rfl
@[simp] theorem Blk.modThr_aon (b : Blk) (q : Nat) (f : Thresher → Thresher) : (b.modThr q f).aon = b.aon := rfl
@[simp] theorem Blk.modThr_pcs (b : Blk) (q : Nat) (f : Thresher → Thresher) : (b.modThr q f).pcs = b.pcs := rfl
@[simp] theorem Blk.modThr_str (b : Blk) (q : Nat) (f : Thresher → Thresher) : (b.modThr q f).str = b.str := rfl
@[simp] theorem Blk.modThr_pool (b : Blk) (q : Nat) (f : Thresher → Thresher) : (b.modThr q f).pool = b.pool := rfl
@[simp] theorem Blk.modThr_chans (b : Blk) (q : Nat) (f : Thresher → Thresher) : (b.modThr q f).chans = b.chans := rfl
@[simp] theorem Blk.modThr_ext (b : Blk) (q : Nat) (f : Thresher → Thresher) : (b.modThr q f).ext = b.ext := rfl
@[simp] theorem Blk.modThr_coh (b : Blk) (q : Nat) (f : Thresher → Thresher) : (b.modThr q f).coh = b.coh := rfl
@[simp] theorem Blk.modThr_fab (b : Blk) (q : Nat) (f : Thresher → Thresher) : (b.modThr q f).fab = b.fab := rfl
@[simp] theorem Blk.modThr_traf (b : Blk) (q : Nat) (f : Thresher → Thresher) : (b.modThr q f).traf = b.traf := rfl
@[simp] theorem Blk.modThr_rings (b : Blk) (q : Nat) (f : Thresher → Thresher) : (b.modThr q f).rings = b.rings := rfl
@[simp] theorem Blk.modThr_pair (b : Blk) (q : Nat) (f : Thresher → Thresher) : (b.modThr q f).pair = b.pair := rfl
@[simp] theorem Blk.modThr_hub (b : Blk) (q : Nat) (f : Thresher → Thresher) : (b.modThr q f).hub = b.hub := rfl
@[simp] theorem Blk.modThr_mgmt (b : Blk) (q : Nat) (f : Thresher → Thresher) : (b.modThr q f).mgmt = b.mgmt := rfl
@[simp] theorem Blk.modThr_sec (b : Blk) (q : Nat) (f : Thresher → Thresher) : (b.modThr q f).sec = b.sec := rfl
@[simp] theorem Blk.modThr_pwr (b : Blk) (q : Nat) (f : Thresher → Thresher) : (b.modThr q f).pwr = b.pwr := rfl

/-! ## modSheaf -/

@[simp] theorem Blk.modSheaf_regs (b : Blk) (slot : Nat) (f : Sheaf → Sheaf) : (b.modSheaf slot f).regs = b.regs := rfl
@[simp] theorem Blk.modSheaf_dead (b : Blk) (slot : Nat) (f : Sheaf → Sheaf) : (b.modSheaf slot f).dead = b.dead := rfl
@[simp] theorem Blk.modSheaf_pins (b : Blk) (slot : Nat) (f : Sheaf → Sheaf) : (b.modSheaf slot f).pins = b.pins := rfl
@[simp] theorem Blk.modSheaf_tb (b : Blk) (slot : Nat) (f : Sheaf → Sheaf) : (b.modSheaf slot f).tb = b.tb := rfl
@[simp] theorem Blk.modSheaf_frozen (b : Blk) (slot : Nat) (f : Sheaf → Sheaf) : (b.modSheaf slot f).frozen = b.frozen := rfl
@[simp] theorem Blk.modSheaf_fresh (b : Blk) (slot : Nat) (f : Sheaf → Sheaf) : (b.modSheaf slot f).fresh = b.fresh := rfl
@[simp] theorem Blk.modSheaf_aon (b : Blk) (slot : Nat) (f : Sheaf → Sheaf) : (b.modSheaf slot f).aon = b.aon := rfl
@[simp] theorem Blk.modSheaf_pcs (b : Blk) (slot : Nat) (f : Sheaf → Sheaf) : (b.modSheaf slot f).pcs = b.pcs := rfl
@[simp] theorem Blk.modSheaf_str (b : Blk) (slot : Nat) (f : Sheaf → Sheaf) : (b.modSheaf slot f).str = b.str := rfl
@[simp] theorem Blk.modSheaf_pool (b : Blk) (slot : Nat) (f : Sheaf → Sheaf) : (b.modSheaf slot f).pool = b.pool := rfl
@[simp] theorem Blk.modSheaf_chans (b : Blk) (slot : Nat) (f : Sheaf → Sheaf) : (b.modSheaf slot f).chans = b.chans := rfl
@[simp] theorem Blk.modSheaf_ext (b : Blk) (slot : Nat) (f : Sheaf → Sheaf) : (b.modSheaf slot f).ext = b.ext := rfl
@[simp] theorem Blk.modSheaf_coh (b : Blk) (slot : Nat) (f : Sheaf → Sheaf) : (b.modSheaf slot f).coh = b.coh := rfl
@[simp] theorem Blk.modSheaf_fab (b : Blk) (slot : Nat) (f : Sheaf → Sheaf) : (b.modSheaf slot f).fab = b.fab := rfl
@[simp] theorem Blk.modSheaf_traf (b : Blk) (slot : Nat) (f : Sheaf → Sheaf) : (b.modSheaf slot f).traf = b.traf := rfl
@[simp] theorem Blk.modSheaf_rings (b : Blk) (slot : Nat) (f : Sheaf → Sheaf) : (b.modSheaf slot f).rings = b.rings := rfl
@[simp] theorem Blk.modSheaf_pair (b : Blk) (slot : Nat) (f : Sheaf → Sheaf) : (b.modSheaf slot f).pair = b.pair := rfl
@[simp] theorem Blk.modSheaf_hub (b : Blk) (slot : Nat) (f : Sheaf → Sheaf) : (b.modSheaf slot f).hub = b.hub := rfl
@[simp] theorem Blk.modSheaf_mgmt (b : Blk) (slot : Nat) (f : Sheaf → Sheaf) : (b.modSheaf slot f).mgmt = b.mgmt := rfl
@[simp] theorem Blk.modSheaf_sec (b : Blk) (slot : Nat) (f : Sheaf → Sheaf) : (b.modSheaf slot f).sec = b.sec := rfl
@[simp] theorem Blk.modSheaf_pwr (b : Blk) (slot : Nat) (f : Sheaf → Sheaf) : (b.modSheaf slot f).pwr = b.pwr := rfl

/-! ## modTask -/

@[simp] theorem Blk.modTask_regs (b : Blk) (slot i : Nat) (f : TaskRt → TaskRt) : (b.modTask slot i f).regs = b.regs := rfl
@[simp] theorem Blk.modTask_dead (b : Blk) (slot i : Nat) (f : TaskRt → TaskRt) : (b.modTask slot i f).dead = b.dead := rfl
@[simp] theorem Blk.modTask_pins (b : Blk) (slot i : Nat) (f : TaskRt → TaskRt) : (b.modTask slot i f).pins = b.pins := rfl
@[simp] theorem Blk.modTask_tb (b : Blk) (slot i : Nat) (f : TaskRt → TaskRt) : (b.modTask slot i f).tb = b.tb := rfl
@[simp] theorem Blk.modTask_frozen (b : Blk) (slot i : Nat) (f : TaskRt → TaskRt) : (b.modTask slot i f).frozen = b.frozen := rfl
@[simp] theorem Blk.modTask_fresh (b : Blk) (slot i : Nat) (f : TaskRt → TaskRt) : (b.modTask slot i f).fresh = b.fresh := rfl
@[simp] theorem Blk.modTask_aon (b : Blk) (slot i : Nat) (f : TaskRt → TaskRt) : (b.modTask slot i f).aon = b.aon := rfl
@[simp] theorem Blk.modTask_pcs (b : Blk) (slot i : Nat) (f : TaskRt → TaskRt) : (b.modTask slot i f).pcs = b.pcs := rfl
@[simp] theorem Blk.modTask_str (b : Blk) (slot i : Nat) (f : TaskRt → TaskRt) : (b.modTask slot i f).str = b.str := rfl
@[simp] theorem Blk.modTask_pool (b : Blk) (slot i : Nat) (f : TaskRt → TaskRt) : (b.modTask slot i f).pool = b.pool := rfl
@[simp] theorem Blk.modTask_chans (b : Blk) (slot i : Nat) (f : TaskRt → TaskRt) : (b.modTask slot i f).chans = b.chans := rfl
@[simp] theorem Blk.modTask_ext (b : Blk) (slot i : Nat) (f : TaskRt → TaskRt) : (b.modTask slot i f).ext = b.ext := rfl
@[simp] theorem Blk.modTask_coh (b : Blk) (slot i : Nat) (f : TaskRt → TaskRt) : (b.modTask slot i f).coh = b.coh := rfl
@[simp] theorem Blk.modTask_fab (b : Blk) (slot i : Nat) (f : TaskRt → TaskRt) : (b.modTask slot i f).fab = b.fab := rfl
@[simp] theorem Blk.modTask_traf (b : Blk) (slot i : Nat) (f : TaskRt → TaskRt) : (b.modTask slot i f).traf = b.traf := rfl
@[simp] theorem Blk.modTask_rings (b : Blk) (slot i : Nat) (f : TaskRt → TaskRt) : (b.modTask slot i f).rings = b.rings := rfl
@[simp] theorem Blk.modTask_pair (b : Blk) (slot i : Nat) (f : TaskRt → TaskRt) : (b.modTask slot i f).pair = b.pair := rfl
@[simp] theorem Blk.modTask_hub (b : Blk) (slot i : Nat) (f : TaskRt → TaskRt) : (b.modTask slot i f).hub = b.hub := rfl
@[simp] theorem Blk.modTask_mgmt (b : Blk) (slot i : Nat) (f : TaskRt → TaskRt) : (b.modTask slot i f).mgmt = b.mgmt := rfl
@[simp] theorem Blk.modTask_sec (b : Blk) (slot i : Nat) (f : TaskRt → TaskRt) : (b.modTask slot i f).sec = b.sec := rfl
@[simp] theorem Blk.modTask_pwr (b : Blk) (slot i : Nat) (f : TaskRt → TaskRt) : (b.modTask slot i f).pwr = b.pwr := rfl

/-! ## tapTo -/

@[simp] theorem Blk.tapTo_regs (b : Blk) (ir : Nat) (v : Word) : (b.tapTo ir v).regs = b.regs := rfl
@[simp] theorem Blk.tapTo_dead (b : Blk) (ir : Nat) (v : Word) : (b.tapTo ir v).dead = b.dead := rfl
@[simp] theorem Blk.tapTo_tb (b : Blk) (ir : Nat) (v : Word) : (b.tapTo ir v).tb = b.tb := rfl
@[simp] theorem Blk.tapTo_frozen (b : Blk) (ir : Nat) (v : Word) : (b.tapTo ir v).frozen = b.frozen := rfl
@[simp] theorem Blk.tapTo_fresh (b : Blk) (ir : Nat) (v : Word) : (b.tapTo ir v).fresh = b.fresh := rfl
@[simp] theorem Blk.tapTo_aon (b : Blk) (ir : Nat) (v : Word) : (b.tapTo ir v).aon = b.aon := rfl
@[simp] theorem Blk.tapTo_pcs (b : Blk) (ir : Nat) (v : Word) : (b.tapTo ir v).pcs = b.pcs := rfl
@[simp] theorem Blk.tapTo_str (b : Blk) (ir : Nat) (v : Word) : (b.tapTo ir v).str = b.str := rfl
@[simp] theorem Blk.tapTo_pool (b : Blk) (ir : Nat) (v : Word) : (b.tapTo ir v).pool = b.pool := rfl
@[simp] theorem Blk.tapTo_chans (b : Blk) (ir : Nat) (v : Word) : (b.tapTo ir v).chans = b.chans := rfl
@[simp] theorem Blk.tapTo_ext (b : Blk) (ir : Nat) (v : Word) : (b.tapTo ir v).ext = b.ext := rfl
@[simp] theorem Blk.tapTo_coh (b : Blk) (ir : Nat) (v : Word) : (b.tapTo ir v).coh = b.coh := rfl
@[simp] theorem Blk.tapTo_fab (b : Blk) (ir : Nat) (v : Word) : (b.tapTo ir v).fab = b.fab := rfl
@[simp] theorem Blk.tapTo_traf (b : Blk) (ir : Nat) (v : Word) : (b.tapTo ir v).traf = b.traf := rfl
@[simp] theorem Blk.tapTo_work (b : Blk) (ir : Nat) (v : Word) : (b.tapTo ir v).work = b.work := rfl
@[simp] theorem Blk.tapTo_rings (b : Blk) (ir : Nat) (v : Word) : (b.tapTo ir v).rings = b.rings := rfl
@[simp] theorem Blk.tapTo_pair (b : Blk) (ir : Nat) (v : Word) : (b.tapTo ir v).pair = b.pair := rfl
@[simp] theorem Blk.tapTo_hub (b : Blk) (ir : Nat) (v : Word) : (b.tapTo ir v).hub = b.hub := rfl
@[simp] theorem Blk.tapTo_mgmt (b : Blk) (ir : Nat) (v : Word) : (b.tapTo ir v).mgmt = b.mgmt := rfl
@[simp] theorem Blk.tapTo_sec (b : Blk) (ir : Nat) (v : Word) : (b.tapTo ir v).sec = b.sec := rfl
@[simp] theorem Blk.tapTo_pwr (b : Blk) (ir : Nat) (v : Word) : (b.tapTo ir v).pwr = b.pwr := rfl

/-! ## What they write -/

@[simp] theorem Blk.reg_setReg_self (b : Blk) (off : Nat) (v : Word) : (b.setReg off v).reg off = v := by
  simp [Blk.setReg, Blk.reg]

theorem Blk.reg_setReg_ne (b : Blk) (off o : Nat) (v : Word) (h : o ≠ off) : (b.setReg off v).reg o = b.reg o := by
  simp [Blk.setReg, Blk.reg, tget_tset_ne _ _ _ _ _ h]

@[simp] theorem Blk.reg_flag_self (b : Blk) (off i : Nat) : (b.flag off i).reg off = b.reg off ||| (1#32 <<< i) := by
  simp [Blk.flag]

theorem Blk.reg_flag_ne (b : Blk) (off i o : Nat) (h : o ≠ off) : (b.flag off i).reg o = b.reg o :=
  Blk.reg_setReg_ne b off o _ h

@[simp] theorem Blk.win_modWin_self (b : Blk) (f : Nat) (g : Win → Win) : (b.modWin f g).win f = g (b.win f) := by
  simp [Blk.modWin, Blk.win]

theorem Blk.win_modWin_ne (b : Blk) (f k : Nat) (g : Win → Win) (h : k ≠ f) : (b.modWin f g).win k = b.win k := by
  simp [Blk.modWin, Blk.win, tget_tmod_ne _ _ _ _ _ h]

@[simp] theorem Blk.husk_modHusk_self (b : Blk) (c : Nat) (f : HuskChan → HuskChan) : (b.modHusk c f).husk c = f (b.husk c) := by
  simp [Blk.modHusk, Blk.husk]

@[simp] theorem Blk.link_modLink_self (b : Blk) (n : Nat) (f : Link → Link) : (b.modLink n f).link n = f (b.link n) := by
  simp [Blk.modLink, Blk.link]

@[simp] theorem Blk.d2d_modD2d_self (b : Blk) (x c : Nat) (f : D2d → D2d) : (b.modD2d x c f).d2d x c = f (b.d2d x c) := by
  simp [Blk.modD2d, Blk.d2d]

@[simp] theorem Blk.til_modTil_self (b : Blk) (k : Nat) (f : Tiller → Tiller) : (b.modTil k f).til k = f (b.til k) := by
  simp [Blk.modTil, Blk.til]

@[simp] theorem Blk.thr_modThr_self (b : Blk) (q : Nat) (f : Thresher → Thresher) : (b.modThr q f).thr q = f (b.thr q) := by
  simp [Blk.modThr, Blk.thr]

@[simp] theorem Blk.win_setReg (b : Blk) (off : Nat) (v : Word) (f : Nat) : (b.setReg off v).win f = b.win f := rfl

@[simp] theorem Blk.win_pcie (b : Blk) (o : PcieOut) (f : Nat) : (b.pcie o).win f = b.win f := by
  unfold Blk.pcie; split <;> rfl

@[simp] theorem Blk.win_msix (b : Blk) (g : Nat) (vec : Option Nat) (f : Nat) : (b.msix g vec).win f = b.win f := by
  unfold Blk.msix; split <;> (try split) <;> simp

@[simp] theorem Blk.win_mirrorOut (b : Blk) (g base off : Nat) (bs : Bytes) (f : Nat) : (b.mirrorOut g base off bs).win f = b.win f := by
  unfold Blk.mirrorOut; split <;> simp

@[simp] theorem Blk.win_dropCmd (b : Blk) (c : CmdId) (f : Nat) : (b.dropCmd c).win f = b.win f := rfl

@[simp] theorem Blk.win_startCmd (b : Blk) (c : CmdId) (f : Nat) : (b.startCmd c).win f = b.win f := rfl

/-- An answer stands in its slot (R316). -/
theorem Blk.answerRec_slot (b : Blk) (r : CmdRec) (st : Nat) (res : Bytes) :
    mget ((b.answerRec r st res).win r.f).answers (r.seq % 2048) = some (answerBytes r st res) := by
  simp only [Blk.answerRec]
  split <;> split <;> simp [Blk.incr, Blk.count]

/-- The command that an answer ends is the first of its name. -/
theorem Blk.answerCmd_slot (b : Blk) (c : CmdId) (r : CmdRec) (st : Nat) (res : Bytes) (h : b.cmd c = some r) (hl : r.lost = false) :
    mget ((b.answerCmd c st res).win r.f).answers (r.seq % 2048) = some (answerBytes r st res) := by
  simp [Blk.answerCmd, h, hl, Blk.answerRec_slot]

end Sys2Proof.Machine
end

