-- ==== Sys2Proof/Laws/Quiet.lean ====
section
/-! SUPPORT. What logging, tracing, counting and writing of pool lines leave as it is: everything but the registers, the counters, the
pool, the channels' queues, the extents' MOD_COUNT and the rings. -/

namespace Sys2Proof.Machine

/-- A change of the block that reaches only the registers, the counters, the pool with its channels and extents, and the rings. -/
structure Quiet (b b' : Blk) : Prop where
  dead : b'.dead = b.dead
  pins : b'.pins = b.pins
  tb : b'.tb = b.tb
  frozen : b'.frozen = b.frozen
  fresh : b'.fresh = b.fresh
  str : b'.str = b.str
  coh : b'.coh = b.coh
  fab : b'.fab = b.fab
  traf : b'.traf = b.traf
  work : b'.work = b.work
  pair : b'.pair = b.pair
  hub : b'.hub = b.hub
  mgmt : b'.mgmt = b.mgmt
  sec : b'.sec = b.sec
  pwr : b'.pwr = b.pwr

theorem Quiet.rfl' (b : Blk) : Quiet b b := by constructor <;> rfl

theorem Quiet.trans {a b c : Blk} (h : Quiet a b) (k : Quiet b c) : Quiet a c := by
  constructor
  · exact k.dead.trans h.dead
  · exact k.pins.trans h.pins
  · exact k.tb.trans h.tb
  · exact k.frozen.trans h.frozen
  · exact k.fresh.trans h.fresh
  · exact k.str.trans h.str
  · exact k.coh.trans h.coh
  · exact k.fab.trans h.fab
  · exact k.traf.trans h.traf
  · exact k.work.trans h.work
  · exact k.pair.trans h.pair
  · exact k.hub.trans h.hub
  · exact k.mgmt.trans h.mgmt
  · exact k.sec.trans h.sec
  · exact k.pwr.trans h.pwr

theorem Quiet.foldl {α : Type} (f : Blk → α → Blk) (h : ∀ b a, Quiet b (f b a)) (l : List α) (b : Blk) : Quiet b (l.foldl f b) := by
  induction l generalizing b with
  | nil => exact Quiet.rfl' b
  | cons a t ih => exact (h b a).trans (ih (f b a))

theorem quiet_setReg (b : Blk) (off : Nat) (v : Word) : Quiet b (b.setReg off v) := by constructor <;> rfl
theorem quiet_flag (b : Blk) (off i : Nat) : Quiet b (b.flag off i) := by constructor <;> rfl
theorem quiet_incr (b : Blk) (off : Nat) : Quiet b (b.incr off) := by constructor <;> rfl
theorem quiet_aonAdd (b : Blk) (i n : Nat) : Quiet b (b.aonAdd i n) := by constructor <;> rfl
theorem quiet_modHusk (b : Blk) (c : Nat) (f : HuskChan → HuskChan) : Quiet b (b.modHusk c f) := by constructor <;> rfl
theorem quiet_modExt (b : Blk) (i : Nat) (f : ExtRt → ExtRt) : Quiet b (b.modExt i f) := by constructor <;> rfl
theorem quiet_rings (b : Blk) (r : Rings) : Quiet b { b with rings := r } := by constructor <;> rfl

theorem quiet_pcEvent (b : Blk) (unit i code : Nat) (part : Option Nat) (n : Nat) : Quiet b (b.pcEvent unit i code part n) := by
  unfold Blk.pcEvent
  simp only []
  split
  · exact Quiet.rfl' b
  · split <;> constructor <;> rfl

theorem quiet_event (b : Blk) (unit code : Nat) (part : Option Nat) (n : Nat) : Quiet b (b.event unit code part n) :=
  Quiet.foldl _ (fun b i => quiet_pcEvent b unit i code part n) _ b

theorem quiet_putCopy (b : Blk) (c : Copy) (l : Nat) (bs : Bytes) (m : LineMeta) : Quiet b (b.putCopy c l bs m) := by
  cases c <;> constructor <;> rfl

theorem quiet_ite {b x y : Blk} {c : Prop} [Decidable c] (hx : Quiet b x) (hy : Quiet b y) : Quiet b (if c then x else y) := by
  split
  · exact hx
  · exact hy

theorem quiet_freshChecks (b : Blk) (l : Nat) : Quiet b (b.freshChecks l) := by
  unfold Blk.freshChecks
  exact quiet_ite (Quiet.rfl' b) (by constructor <;> rfl)

theorem quiet_pool (b : Blk) (p : Pool) : Quiet b { b with pool := p } := by constructor <;> rfl

theorem quiet_revive (b : Blk) (l : Nat) : Quiet b (b.revive l) := quiet_ite (quiet_pool b _) (Quiet.rfl' b)

theorem quiet_putHusk (b : Blk) (l : Nat) (bs : Bytes) (m : LineMeta) : Quiet b (b.putHusk l bs m) := by
  have h : Quiet b (if b.takesA l then b.putCopy .huskA l bs m else b) := quiet_ite (quiet_putCopy b _ l bs m) (Quiet.rfl' b)
  exact ((quiet_ite (h.trans (quiet_putCopy _ _ l bs m)) h).trans (quiet_freshChecks _ l)).trans (quiet_revive _ l)

theorem quiet_huskOp (b : Blk) (c code part : Nat) : Quiet b (b.huskOp c code part) := by
  unfold Blk.huskOp
  exact (((quiet_pool b _).trans (quiet_aonAdd _ _ 1)).trans (quiet_event _ _ code (some part) 1)).trans (quiet_modHusk _ c _)

theorem quiet_huskOps (b : Blk) (code part : Nat) (cs : List Nat) : Quiet b (b.huskOps code part cs) :=
  Quiet.foldl _ (fun b c => quiet_huskOp b c code part) cs b

theorem quiet_countHusk (b : Blk) (l code part : Nat) : Quiet b (b.countHusk l code part) := quiet_huskOps b code part _

theorem quiet_countGrain (b : Blk) (l code part : Nat) : Quiet b (b.countGrain l code part) :=
  (quiet_aonAdd b _ 1).trans (quiet_event _ _ code (some part) 1)

theorem quiet_writeLine (b : Blk) (l : Nat) (bs : Bytes) (p wb : Bool) : Quiet b (b.writeLine l bs p wb) := by
  unfold Blk.writeLine
  simp only []
  split
  · split
    · exact (quiet_putCopy b _ l bs _).trans (quiet_countGrain _ l 2 _)
    · exact (((quiet_putCopy b _ l bs _).trans (quiet_putHusk _ l bs _)).trans (quiet_countGrain _ l 2 _)).trans
        (quiet_countHusk _ l 2 _)
  · exact (quiet_putHusk b l bs _).trans (quiet_countHusk _ l 2 _)

theorem quiet_bumpMod (b : Blk) (l n : Nat) : Quiet b (b.bumpMod l n) := by
  unfold Blk.bumpMod
  split
  · exact quiet_modExt b _ _
  · exact Quiet.rfl' b

theorem quiet_writeMasked (b : Blk) (l : Nat) (bs : Bytes) (mask : BitVec 128) (p wb : Bool) : Quiet b (b.writeMasked l bs mask p wb) :=
  quiet_writeLine b l _ _ wb

theorem quiet_countMerge (b : Blk) (l : Nat) (mask : BitVec 128) : Quiet b (b.countMerge l mask) :=
  quiet_ite (Quiet.rfl' b) (quiet_ite (quiet_countGrain b l 1 _) (quiet_countHusk b l 1 _))

theorem quiet_unbump (b : Blk) (l : Nat) : Quiet b (b.unbump l) := by
  unfold Blk.unbump
  split
  · exact quiet_modExt b _ _
  · exact Quiet.rfl' b

theorem quiet_countAccept (b : Blk) (q part : Nat) : Quiet b (b.countAccept q part) :=
  (quiet_aonAdd b _ 1).trans (quiet_event _ _ 1 (some part) 1)

theorem quiet_countRefusal (b : Blk) (q status part : Nat) : Quiet b (b.countRefusal q status part) := by
  have h1 : Quiet b (((b.incr (Reg.haRefuseCnt q)).aonAdd (152 + q) 1).event (28 + q) 2 (some part)) :=
    ((quiet_incr b _).trans (quiet_aonAdd _ _ 1)).trans (quiet_event _ _ 2 (some part) 1)
  have h2 := h1.trans (quiet_ite (c := status = 0x16) (quiet_flag _ (Reg.haErr q) 2) (Quiet.rfl' _))
  have h3 := h2.trans (quiet_ite (c := status = 0xB2) (quiet_flag _ Reg.pwrErr 2) (Quiet.rfl' _))
  exact h3.trans (quiet_ite (c := status = 0x19) (quiet_incr _ Reg.hubRetryCnt) (Quiet.rfl' _))

/-- A write of the hub reaches no queue but that of its own writes. -/
theorem quiet_hubLine (b : Blk) (p : Nat × Bytes × BitVec 128) : Quiet b (b.hubLine p) := by
  unfold Blk.hubLine
  have h := fun (c : Checked) => (quiet_countAccept b (homeOf p.1) c.part).trans (quiet_bumpMod _ p.1 1)
  refine quiet_ite (quiet_countRefusal b _ _ _) (quiet_ite ((h _).trans (quiet_rings _ _)) (quiet_ite ?_ ?_))
  · exact ((h _).trans (quiet_unbump _ _)).trans (quiet_countRefusal _ _ _ _)
  · exact ((h _).trans (quiet_countMerge _ p.1 p.2.2)).trans (quiet_writeMasked _ _ _ _ _ _)

theorem quiet_hubWrite (b : Blk) (a : Nat) (bs : Bytes) : Quiet b (b.hubWrite a bs) := Quiet.foldl _ quiet_hubLine _ b

theorem quiet_hubPut (b : Blk) (ps : List (Nat × Bytes)) : Quiet b (b.hubPut ps).2 := by
  unfold Blk.hubPut
  simp only []
  split
  · exact Quiet.foldl _ (fun b (p : Nat × Bytes) => quiet_hubWrite b p.1 p.2) _ b
  · exact Quiet.foldl _ (fun b l => quiet_countRefusal b _ _ 0) _ b

theorem quiet_ringPut (b : Blk) (e : ExtEnt) (r : Ring) (bs : Bytes) : Quiet b (b.ringPut e r bs).2.1 := quiet_hubPut b _

theorem quiet_logPut (b : Blk) (bs : Bytes) : Quiet b (b.logPut bs).2 := by
  unfold Blk.logPut
  split
  · exact quiet_rings b _
  · split
    · exact Quiet.rfl' b
    · exact (quiet_ringPut b _ _ bs).trans (quiet_rings _ _)

theorem quiet_logLose (b : Blk) : Quiet b b.logLose :=
  ((quiet_rings b _).trans (quiet_aonAdd _ 225 1)).trans (quiet_flag _ Reg.obsErr 2)

theorem quiet_logRoom (b : Blk) : Quiet b b.logRoom := quiet_ite (quiet_rings b _) (Quiet.rfl' b)

theorem quiet_logCatch (b : Blk) : Quiet b b.logCatch := by
  unfold Blk.logCatch
  exact quiet_ite (Quiet.rfl' b) (quiet_ite ((quiet_logPut b _).trans (quiet_rings _ _)) (quiet_logPut b _))

theorem quiet_logRing (b : Blk) (r : LogRec) : Quiet b (b.logRing r) := by
  have h : Quiet b b.logRoom.logCatch.logRoom := ((quiet_logRoom b).trans (quiet_logCatch _)).trans (quiet_logRoom _)
  unfold Blk.logRing
  exact quiet_ite (h.trans (quiet_logLose _)) (quiet_ite (h.trans (quiet_logPut _ _)) ((h.trans (quiet_logPut _ _)).trans (quiet_logLose _)))

theorem quiet_logRaise (b : Blk) (r : LogRec) : Quiet b (b.logRaise r) := by
  unfold Blk.logRaise
  split
  · exact quiet_logRing b r
  · split
    · exact quiet_rings b _
    · exact quiet_logLose b

/-- What a log record leaves as it is. -/
theorem quiet_log (b : Blk) (code unit part a bb flags : Nat) : Quiet b (b.log code unit part a bb flags) := quiet_logRaise b _

theorem quiet_logFlush (b : Blk) : Quiet b b.logFlush := by
  unfold Blk.logFlush
  split
  · exact (((quiet_rings b _).trans (Quiet.foldl _ (fun b r => quiet_logRing b r) _ _)).trans (quiet_rings _ _)).trans (quiet_logCatch _)
  · exact Quiet.rfl' b

theorem quiet_traceLose (b : Blk) : Quiet b b.traceLose := by constructor <;> rfl

theorem quiet_traceRoom (b : Blk) (e : ExtEnt) : Quiet b (b.traceRoom e) := quiet_ite (quiet_rings b _) (Quiet.rfl' b)

theorem quiet_traceCatch (b : Blk) (e : ExtEnt) : Quiet b (b.traceCatch e) := by
  unfold Blk.traceCatch
  exact quiet_ite (Quiet.rfl' b) ((quiet_ringPut b e _ _).trans (quiet_rings _ _))

theorem quiet_tracePut (b : Blk) (e : ExtEnt) (bs : Bytes) : Quiet b (b.tracePut e bs) :=
  quiet_ite ((quiet_ringPut b e _ bs).trans (quiet_rings _ _)) ((quiet_ringPut b e _ bs).trans (quiet_traceLose _))

theorem quiet_traceTo (b : Blk) (e : ExtEnt) (r : TraceRec) : Quiet b (b.traceTo e r) := by
  have h : Quiet b (((b.traceRoom e).traceCatch e).traceRoom e) :=
    ((quiet_traceRoom b e).trans (quiet_traceCatch _ e)).trans (quiet_traceRoom _ e)
  unfold Blk.traceTo
  exact quiet_ite (h.trans (quiet_traceLose _)) (h.trans (quiet_tracePut _ e _))

/-- What a trace record leaves as it is. -/
theorem quiet_trace (b : Blk) (r : TraceRec) : Quiet b (b.trace r) := by
  unfold Blk.trace
  split
  · exact Quiet.rfl' b
  · split
    · exact quiet_traceLose b
    · exact quiet_traceTo b _ r

end Sys2Proof.Machine
end

