-- ==== Sys2Proof/Tests/Slice0.lean ====
section
/-! SUPPORT. Tests of this sitting: the worked examples of the manual, ill-formed terms, and for each statement with hypotheses a
concrete state and operands that meet them, clause by clause. -/

set_option linter.unusedVariables false
set_option Elab.async false

namespace Sys2Proof.Tests

open Sys2Proof.Machine

/-! ## The small states of the witnesses -/

/-- A structure: hosts 1 and 2 of partition 1, both agents; extent 0 of partition 1, extent 1 of partition 0, extent 2 of partition 1 mirrored and
extent 3 of partition 0 at the top; SELF 7, witness 8, peer 9; every Tiller of partition 1. -/
def wStr : Struct :=
  { bounds := List.replicate 64 { valid := true, grainQuota := 8, keySlot := 64 }
    parts := [(1, ⟨true, 1, 7, 4⟩)]
    hosts := [(1, ⟨1, true, 0xFFFF, 500⟩), (2, ⟨1, true, 0xFFFF, 500⟩)]
    exts := [(0, ⟨0, 4, 1, 0, 0, false⟩), (1, ⟨4, 4, 0, 0, 0, false⟩), (2, ⟨8, 4, 1, 0, 0, true⟩), (3, ⟨12, 4, 0, 0, 0, false⟩)]
    grants := [(grantKey 0 1 false, ⟨true, true, true⟩), (grantKey 0 2 false, ⟨true, false, false⟩), (grantKey 2 1 false, ⟨true, true, true⟩)]
    tillers := List.replicate 24 (some 1)
    eids := [(1, ⟨0, false, 0⟩), (2, ⟨0, false, 1⟩), (7, ⟨0, true, 2⟩), (8, ⟨0, false, 3⟩), (9, ⟨0, false, 4⟩)]
    sprays := [(0, 1#48)]
    pair := { peer := 9, witness := 8, role := 0, ckptExt := 1 } }

/-- The block: the structure loaded, the leases of both hosts live, both agents registered, functions 0 and 1 enabled as bus masters. -/
def wBlk : Blk :=
  { str := { loaded := true, locked := true, run := wStr }
    ext := { leases := [(1, ⟨true, false, 500000000⟩), (2, ⟨true, false, 500000000⟩)] }
    coh := { agents := [(1, ⟨0, true, false⟩), (2, ⟨1, true, false⟩)] }
    hub := { wins := [(0, { busMaster := true }), (1, { enabled := true, busMaster := true })] }
    tb := 1000000 }

/-- The same, off: no period changes more than its timebase. -/
def wOff : Blk := { wBlk with dead := true }

/-- A state of a block. -/
def wS (b : Blk) : State := { blk := b }

/-- A record with an opcode and parameters by offset. -/
def wBytes (op : Nat) (ps : List (Nat × Bytes)) : Bytes := ps.foldl (fun b p => patch b p.1 p.2) (toLe 1 op ++ zeros 119)

/-- A command of PF0 in progress. -/
def wRec (op : Nat) (ps : List (Nat × Bytes)) : CmdRec := { f := 0, seq := 1, bytes := wBytes op ps, part := some 0 }

/-- Its name. -/
def wC : CmdId := ⟨0, 1⟩

/-- A block with a command in progress. -/
def wCmd (b : Blk) (r : CmdRec) : State := { blk := { b with hub.inProg := [r] } }

/-- A request of an EID. -/
def wReq (e : Eid) : Req := ⟨e, 3, 0, false⟩

/-- A register of a block set. -/
def wReg (b : Blk) (off : Nat) (v : Word) : Blk := b.setReg off v

/-- Every Husk channel trained. -/
def wTrained : Blk := { wBlk with chans := { husk := (List.range 24).map (fun c => (c, { trained := true, up := true })) } }

/-- A staged delta of epoch 2 that touches no key, and one that has gone stale. -/
def wStaged : Staged := { img := { kind := 1, epoch := 2, baseEpoch := 1 }, base := wStr, exts := [], leases := [], digest := [] }

/-- The same, gone stale. -/
def wStale : Staged := { wStaged with exts := [(5, (true, []))] }

/-- A commit in phase A. -/
def wCommit : Commit :=
  { img := {}, digest := [], cmd := wC, afterA := wStr, afterB := wStr, phase := 1, point := 0, taken := [], clearing := [], cleared := [] }

/-- The block on which a control message of host 1 reaches its target. -/
def wCtrl (b : Blk) (q ty len : Nat) (sure : Bool) : Blk := (b.reqIn q 1 ty [len] sure).2.traceRx q 1 ty 3 0 0

/-- The block on which a request of host 1 to an address in partition 1 is accepted. -/
def wAcc (b : Blk) (a ty : Nat) (lens : List Nat) : Blk :=
  (b.reqIn (homeOf (lineOf a)) 1 ty lens false).2.accepted (lineOf a) 1 ty 3 0 a 1

/-- An extent's run-time state. -/
def wExt (b : Blk) (i : Nat) (r : ExtRt) : Blk := { b with ext.exts := mput b.ext.exts i r }

/-- A commit in phase A that takes Tiller 3 from its partition, one that changes the gates of target 5, and one whose phase p is done. -/
def wTilCommit : Commit := { wCommit with img := { tillers := some ((List.replicate 24 (some 1)).set 3 none) } }

/-- The gates of target 5 change. -/
def wGateCommit : Commit := { wCommit with afterA := { wStr with gates := [(5, ⟨0, [⟨1000, 1⟩]⟩)] } }

/-- Phase p has been taken by every block. -/
def wDone (p : Nat) : Commit := { wCommit with phase := p, taken := wBlk.phaseBlocks { wCommit with phase := p } }

/-- A task of kind 0 that runs, its descriptor not read yet. -/
def wRun : Run := { slot := 0, task := 0, part := 1, kind := 0, tag := 0 }

/-- A move of granule 0, without its reference, so that no allowance counts. -/
def wMig (m : Mig) : Blk :=
  { wBlk with frozen := true, pool := { migs := [(0, m)], frames := [(0, 0)], metaG := [(7, { dirty := true })] } }

/-- Extent 0 in ZEROING, at line 5 of granule 1. -/
def wZero : Blk := wExt { wBlk with frozen := true } 0 { state := .zeroing, zeroCur := [(1, (1, 5))] }

/-- The block on which a request of host 2 to an address in partition 1 is accepted. -/
def wAcc2 (b : Blk) (a ty : Nat) (lens : List Nat) : Blk :=
  (b.reqIn (homeOf (lineOf a)) 2 ty lens false).2.accepted (lineOf a) 2 ty 3 0 a 1

/-- No agent is registered. -/
def wNone : Blk := { wBlk with coh.agents := [] }

/-- Agent 1 owns line 0. -/
def wOwned : Blk := { wBlk with coh.dir := [(0, ⟨.x, 1, false, [0], 0, 0⟩)] }

/-- A transaction of host 2 on line 0 that waits for the answers of some agents to snoop 9. -/
def wSnp (es : List Nat) : Txn := { id := 0, line := 0, op := .rdx, who := .fabric 2, msgId := 4, traceId := 0, canWrite := true, part := 1, job := none, snoops := es.map (fun e => ⟨e, 9, .i, 0, false⟩), data := none, stay := false, phase := .snoop }

/-- The same, waiting for its CmpAck. -/
def wAck : Txn := { wSnp [] with phase := .ack 4 0 }

/-- The block with one transaction. -/
def wTxn (t : Txn) : Blk := { wBlk with coh.txns := [t] }

/-- A Submit that waits. -/
def wSub : SubmitReq := ⟨.fabric 1 3 0 0xD1, some 1, 1, .pool, 0, 0, 0⟩

/-- A task entry, and a Sheaf of partition 1 with it. -/
def wTask : TaskRt := { kind := 0, prio := 0, home := 0, tag := 0, noPre := false, desc := zeros 128, succ := [], check := 0, deps := 0 }

/-- A Sheaf of partition 1 with its tasks. -/
def wSheaf (ts : List TaskRt) : Sheaf :=
  { part := 1, src := .pool, addr := 0, cookie := 5, policy := 0, doneMask := 0, descOff := 128, edgeOff := 256, wdogMs := 1, record := 0,
    statusArr := 0, subs := [], admitAt := 0, tasks := ts }

/-- The pair as a primary or a standby in force. -/
def wPair (role : Nat) : Blk := { wBlk with str.run.pair.role := 1, pair := { role := role, inSync := true, hbSeq := 5, hbSent := 5 } }

/-- A witness order: TERM 1, a role, for controller 7, echoing Heartbeat 5. -/
def wOrder (role : Nat) : Bytes := toLe 8 1 ++ toLe 2 role ++ toLe 2 0 ++ toLe 2 7 ++ toLe 2 0 ++ toLe 4 5 ++ zeros 76

/-- Tiller 0 runs task 0 of the Sheaf in slot 0, and line 1 has been read for Thresher 0. -/
def wTil (r : Run) (ts : List TaskRt) : Blk :=
  { wBlk with work := { tillers := [(0, { run := some r })], sheafs := [(0, wSheaf ts)] }
              coh.landed := [⟨.thresher 0, false, 1, 0, zeros 128, false⟩] }

/-- A task that runs on Tiller 0, and the same with the check value of its descriptor or another. -/
def wRunning : TaskRt := { wTask with state := .running (some 0) }

/-- The same with a check value. -/
def wChecked (v : Word) : TaskRt := { wRunning with check := v }

/-- Two check values that differ. -/
theorem wNe (v : Word) : v ≠ v + 1 := by
  intro h
  have h := congrArg BitVec.toNat h
  simp only [BitVec.toNat_add] at h
  have := v.isLt
  simp at h
  omega

/-- What the re-read of its descriptor gives. -/
def wReread (x : TaskRt) : Got × Map StoreLine × Blk := (wTil wRun [x]).rereadPart 0 0 (wSheaf [x]) [] 128 128 .fault

/-- The bytes of a pool read. -/
def Got.get : Got → Bytes
  | .bytes bs => bs
  | _ => []

/-- A descriptor of a kind with fields at their offsets. -/
def wDesc (kind : Nat) (ps : List (Nat × Bytes)) : Bytes := ps.foldl (fun b p => patch b p.1 p.2) (toLe 1 kind ++ zeros 127)

/-- A run of a kind with its descriptor and a local store that holds lines 0 to 7. -/
def wGo (kind : Nat) (d : Bytes) : Run :=
  { wRun with kind := kind, desc := some d, store := (List.range 8).map (fun i => (i, ⟨0, zeros 128, false⟩)) }

/-- A MATVEC of one row and some blocks. -/
def wMat (blocks awn : Nat) : Bytes := wDesc 0 [(0x44, toLe 4 awn), (0x48, [1]), (0x4C, toLe 4 (32 * blocks)), (0x50, [1])]

/-- A commit-window entry with one pair. -/
def wEnt (esc : Bool) : WinEnt := ⟨0, [⟨0, 0, 0, 0, false, 0, esc, esc, none⟩], [0], none, false⟩

/-- A FILL of 16 bytes from address 256, and its run after its one row step. -/
def wFill : Bytes := wDesc 0xC [(0x30, toLe 8 256), (0x58, [16]), (0x60, [0xAB])]

/-- The run after the row step. -/
def wFilled : Run :=
  match (wGo 0xC wFill).rowStep (readDesc wFill) 0 with
  | .ok r => r
  | .error _ => wRun

/-- A Sheaf image of one JOIN. -/
def wImage : Bytes :=
  toLe 4 0x46414853 ++ toLe 2 1 ++ toLe 2 0 ++ toLe 4 1 ++ toLe 4 0 ++ toLe 4 128 ++ toLe 4 0 ++ toLe 4 256 ++ toLe 4 0 ++
    toLe 8 2048 ++ zeros 88 ++ toLe 1 0xE ++ zeros 127

/-- The block with a Submit of an image of two lines, which Thresher 0 has read. -/
def wImgOf (bs : Bytes) : Blk :=
  { wBlk with work := { thr := [(0, { wait := [wSub], fetched := [(0, ⟨0, bs.take 128, false⟩), (1, ⟨0, bs.drop 128, false⟩)] })] } }

/-- The same, of the image of one JOIN. -/
def wImg : Blk := wImgOf wImage

/-- What the reads of its first bytes give. -/
def wImgRead (n : Nat) : Got × Blk := wImg.imageBytes 0 wSub n .fault

/-- Its header. -/
def wHdr : Header := (readHeader wImage).getD ⟨0, 0, 0, 0, 0, 0, 0, 0, 0, 0, []⟩

/-- The tasks it holds. -/
def wJudged : List (Desc × List Nat) × Nat :=
  match (wImgRead 256).2.judgeImage 0 wSub wHdr wImage with
  | .ok x => x
  | .error _ => ([], 0)

/-- A header with its CRC: a message type of one packet from EID 1 to EID 7, with an ARG. -/
def wHead (ty tc cls len arg : Nat) : BitVec 256 :=
  let h := BitVec.ofNat 256 (1 + cls * 4 + tc * 16 + 64 + ty * 256 + 7 * 65536 + 1 * 2 ^ 32 + 3 * 2 ^ 48 + len * 2 ^ 80 + arg * 2 ^ 128)
  h ||| BitVec.ofNat 256 (e2eCrc h (zeros len) * 2 ^ 224)

/-- The first packet of a WrBulk of two packets: not the last, with a payload of 256 bytes. -/
def wPart : BitVec 256 :=
  let h := BitVec.ofNat 256 (1 + 3 * 4 + 1 * 16 + 0xC6 * 256 + 7 * 65536 + 1 * 2 ^ 32 + 3 * 2 ^ 48 + 256 * 2 ^ 80 + 512 * 2 ^ 192)
  h ||| BitVec.ofNat 256 (e2eCrc h (zeros 256) * 2 ^ 224)

/-- The block once quadrant 0 has taken a packet of host 1. -/
def wEjected (h : BitVec 256) : Blk := (wBlk.takeEjected 0 ⟨h, []⟩).event 60 2 (some (wBlk.hostPart 1))

/-- A codeword of zeros but for its last symbols, n on each lane. -/
def wCw (n : Nat) : Codeword := ⟨List.replicate 4 (List.replicate (136 - n) 0 ++ List.replicate n 1)⟩

/-- Port 0 in UP. -/
def wUp (k : Link) : Blk := { wBlk with fab.links := [(0, k)] }

/-- A flit of zeros with a sequence number. -/
def wFlit (seq : Nat) : Flit := ⟨BitVec.ofNat 12 seq, 0, false, false, zeros 32, false⟩

/-- A HELD link. -/
def wHeldLink : Link := { state := .held, graceEnd := 5 }

/-- A NOTIFY with an atomic to an address of no extent. -/
def wNotify : TaskRt := { wTask with kind := 0xF, state := .ready, reread := true, desc := wDesc 0xF [(0x21, [1]), (0x28, toLe 8 33554432)] }

/-- An entry of the translation cache: page 0 of function 0, readable and writable. -/
def wAtc : AtcEnt := ⟨0, 0, 0, 0, 65536, true, true, false, 0⟩

/-- A descriptor of 128 bytes to pool address 8388608, from or to host address 0. -/
def wDescRt (dir : Nat) : DescRt := { bytes := toLe 4 dir ++ toLe 4 128 ++ toLe 8 0 ++ toLe 8 8388608 ++ zeros 40 }

/-- A MOVE of function 0 on mover 0. -/
def wMove (ds : Map DescRt) : MoveRt := { f := 0, seq := 1, mover := 0, list := 0, pasid := 0, count := 2, part := 0, fetched := ds.length, descs := ds }

/-- The block with that MOVE and a translation. -/
def wMov (ds : Map DescRt) : Blk := { wBlk with hub.moves := [wMove ds], hub.atc := [wAtc] }

/-- A transfer that waits for page 0. -/
def wWait (parked : Bool) : XferWait := ⟨.desc 0 1 0, 0, 0, 0, 0, false, parked, 0⟩

/-- A descriptor that has started. -/
def wRuns (dir : Nat) : DescRt := { wDescRt dir with started := true }

/-- A write that waits for the peer. -/
def wMirror : Txn := { wSnp [] with op := .wrline (zeros 128) 1 false, who := .fabric 1, phase := .mirror 4 1000000 [] }

/-- Flash with a slot for the calibration set at 4096. -/
def wFlash : Cells := [(0, 5), (5, 16)]

/-- A string made n bytes long has n bytes. -/
theorem wFit (n : Nat) (bs : Bytes) : (fit n bs).length = n := by
  simp only [fit, zeros, List.length_append, List.length_take, List.length_replicate]
  omega

/-- A command in its place with flash that holds a calibration set. -/
def wCal (r : CmdRec) (n : Nat) : State := { wCmd { wBlk with pwr.calWriting := if n = 1 then some (wC, []) else none } r with nv := { flash := wFlash } }

/-- An SPDM responder that has negotiated, with a session that has finished its handshake or not. -/
def wSpdm (done : Bool) : Blk := { wBlk with sec := { spdm := 3, sessions := [⟨5, done, 0⟩], chain := [1, 2], meas := [(1, [1])], ideKeys := [(2, [1])] } }

/-- The block with a descriptor to the host whose line has been read. -/
def wOut : Blk :=
  { wMov [(0, wRuns 1)] with coh.landed := [⟨((wMove [(0, wRuns 1)]).req 0).who, false, 65536, 0, zeros 128, false⟩] }

/-- The block where the page of a descriptor has a page request, and its function asks for none. -/
def wFaults : Blk := { wMov [(0, wRuns 0)] with hub.atc := [], hub.prqs := [⟨0, 0, 0, false, none, 0, false⟩] }

/-- A write of the hub that waits for its line. -/
def wDevEnt : QEnt := ⟨0, { wSnp [] with op := .wrline (zeros 128) 1 false, who := .dev }, 0, none⟩

/-- A Sheaf that has ended. -/
def wClosed : Sheaf := { wSheaf [wTask] with closed := some 0 }

/-- A task end of task 0 in slot 0. -/
def wEndRec : EndRec := { slot := 0, task := 0, status := 0, failAddr := 0, tally := {} }

/-- The image of one JOIN of which the second line is busy. -/
def wImgBusy : Blk :=
  { wBlk with work := { thr := [(0, { wait := [wSub], fetched := [(0, ⟨0, wImage.take 128, false⟩)] })] }
              coh.txns := [{ wAck with line := 1 }] }

/-- What the reads of its image give, once order 3 has reserved a slot. -/
def wHeld (b : Blk) : Got × Blk :=
  let g := b.imageBytes 0 wSub 128 .fault
  (g.2.modThr 0 (fun t => { t with room := some (0, (Got.get g.1).take 128) })).imageBytes 0 wSub 256 .fault

/-! ## Ill-formed and well-formed terms -/

/-- One term for each check of wellFormed that it refuses. -/
def illFormed : List Instr :=
  let d : Dimm := ⟨32, true, 4800, 40, 40, 80⟩
  let r : Req := ⟨1, 3, 0, false⟩
  let f : Flit := ⟨0, 0, false, false, [], false⟩
  [.huskTrainingDone 0 [d, d, d] true, .channelRestore ⟨0, 1⟩ [d, d, d] true, .d2dUnitReceive 1 1 0 true, .d2dRetryRequest 2 2 0,
   .phaseTake (.gate 512), .gateWindowBoundary 512, .revocationTake 0 (.extent 262144), .revocationTake 0 (.grant 262144 1),
   .drainEnd 262144, .extentZeroLine 0 262144, .settleWindowClose 262144, .wrline r 0 [1] 1 false, .atomic r 0 9 1 false 0 (zeros 8),
   .wrbulk r 0 1 [256] [⟨zeros 128, false⟩], .wrbulk r 0 0 [128] [⟨[], false⟩], .wrback r 0 [] false, .snpdata r 0 0 [] false,
   .publish r 262144 0 1 0 (zeros 32), .publish r 0 0 1 0 [], .unpublish r 262144 0, .query r 262144, .takeover r [], .mirrorWrite r 0 1 [],
   .huskLineRead 0 (2 ^ 32) 0 [], .huskLineRead 0 0 0 [1, 1], .grainLineRead 0 0 [1, 1], .scrubRead (.husk 0) [1, 1], .rowSpare 0 65536,
   .descriptorReread 0 65536 .descriptor .fault, .join 0 65536, .notify 0 65536, .packetEject 0 ⟨0, zeros 257⟩,
   .wormHeadRoute 0 (.hub ⟨0, zeros 257⟩), .wormHeadRoute 0 (.d2d 0 ⟨0, zeros 257⟩), .idleFlit 0 f, .headFlit 0 f, .dataFlit 0 f, .codewordReceive 0 ⟨List.replicate 4 []⟩, .abort 0 f,
   .nak 0 f, .portClosing 0 f, .portClosed 0 f, .seqWrite 0 0 0 ⟨[]⟩, .apertureRead 0 0 0 ⟨true⟩, .apertureRead 0xFFFFFFFFF 2 0 ⟨true⟩,
   .apertureWrite 0 [] false ⟨true⟩, .moverLine 0 ⟨0, 1⟩ 65536 .fault, .moverDescriptorEnd 0 ⟨0, 1⟩ 65536, .prgResponse 0 512 .success,
   .priTimeout 0 512, .invalidateRequest 0 0 none 0 1, .invalidateRequest 0 0 none 4096 8192, .priEnable 0 true 513,
   .getCertificate ⟨true, none⟩ 8 0 0, .challenge ⟨true, none⟩ 0 [], .getMeasurements ⟨true, none⟩ 256 false (zeros 32),
   .keyExchange ⟨true, none⟩ 0 (zeros 32) [], .finish ⟨true, none⟩ [], .keyUpdate ⟨true, none⟩ 256,
   .vendorDefinedRequest ⟨true, none⟩ (.keyProg 0 []), .thermalScan [], .thermalScan (List.replicate 34 128), .vfEnable true 64]

/-- Every one of them is refused. -/
theorem test_ill_formed : illFormed.all (fun i => !wellFormed i) = true := by decide +kernel

/-- Terms at the edge of their checks pass. -/
theorem test_well_formed :
    [Instr.drainEnd 262143, .atomic ⟨1, 3, 0, false⟩ 0 9 1 false 0 (zeros 16), .wrbulk ⟨1, 3, 0, false⟩ 0 0 [128] [⟨zeros 128, false⟩],
     .apertureRead 0xFFFFFFFFF 1 0 ⟨true⟩, .gateWindowBoundary 511, .thermalScan (List.replicate 34 (-128)), .vfEnable true 63].all
      wellFormed = true := by decide +kernel

/-- No row of the table has bits, so no word spells a command. -/
theorem test_no_word : decodeTableWord 8 0 = none := by decide

/-! ## Worked examples of the manual -/

/-- R79: the granules of a quadrant with 64 GiB on each channel, in the four modes. -/
theorem test_usable_granules : [0, 1, 2, 3].map (fun m => usableOf m (lchOf 64)) = [196608, 98304, 163840, 180223] := by decide

/-- R238: the header of a RdS, field by field, and the home quadrant of its address. -/
theorem test_header :
    let h := BitVec.ofNat 256 (leNat [0x4D, 0xC0, 0x01, 0x00, 0x21, 0x0A, 0x05, 0x03, 0, 0, 0, 0, 0, 0, 0, 0, 0x00, 0xF4, 0xA1, 0x68, 0x24])
    (hfld h 1 0, hfld h 3 2, hfld h 5 4, hfld h 15 8, hfld h 31 16, hfld h 47 32, hfld h 63 48) = (1, 3, 0, 0xC0, 1, 0x0A21, 0x0305) ∧
      hfld h 6 6 = 1 ∧ hdrArg h = 0x002468A1F400 ∧ homeOf (lineOf 0x002468A1F400) = 1 := by decide +kernel

/-- R119: the predictor counter of line 305,415,144 of partition 9, where partitions 3, 9 and 20 select ISOLATE. -/
theorem test_predictor :
    ({ bounds := (List.range 64).map (fun p => { valid := true, isolate := p == 3 || p == 9 || p == 20 }) } : Struct).predIx 9 305415144 =
      11064 := by decide +kernel

/-- R102: a bucket of 65,536 B that holds 20,000 tokens, and a queue of 300 entries. -/
theorem test_load :
    let e : Map TrafRt := [(0, ⟨⟨1, 0, 0, 0, 0, 65536, 0, 0⟩, 20000000, 0, 0, 0, 0, 0, 0⟩)]
    let b : Blk := { traf.ents := e, coh.queue := List.replicate 300 ⟨0, wAck, 0, none⟩ }
    (b.loadB 1 0, b.loadH 0 0) = (5, 1) := by decide +kernel

/-- R343: of write epochs 0x03 and 0xFE the copy with 0x03 is newer, across the wrap. -/
theorem test_newer_copy : newerCopy 0x03 0xFE = some true ∧ newerCopy 0xFE 0x03 = some false := by decide

/-- R304: depth 37 is in bin 6, and a delay of 1,500 ns in bin 5. -/
theorem test_sampler_bins : depthBin 37 = 6 ∧ delayBin 1500 = 5 := by decide

/-- R208: a partition with 4 Tillers may occupy 682 entries of a queue, and one with 24 Tillers all of them. -/
theorem test_queue_share :
    ({ str.run.tillers := List.replicate 4 (some 1) } : Blk).queueShare 0 1 = 682 ∧
      ({ str.run.tillers := List.replicate 24 (some 1) } : Blk).queueShare 0 1 = 4096 := by decide +kernel

/-- R94: at its deadline a lease stands, and one nanosecond later it lapses. -/
theorem test_lease_lapse :
    (match exec (.leaseExpiry 1) (wS { wBlk with tb := 500000000 }) with
     | .next t => mget t.blk.ext.leases 1
     | _ => none) = some ⟨true, false, 500000000⟩ ∧
    (match exec (.leaseExpiry 1) (wS { wBlk with tb := 500000001 }) with
     | .next t => mget t.blk.ext.leases 1
     | _ => none) = some ⟨false, true, 0⟩ := by decide +kernel

/-- R93, R243: the renewal of a live lease sets its deadline and sends no Answer; one of a lapsed host is answered HOST_LAPSED. -/
theorem test_lease_renewal :
    (match exec (.lease (wReq 1) true) (wS wBlk) with
     | .next t => (mget t.blk.ext.leases 1, t.blk.fab.inj)
     | _ => (none, [])) = (some ⟨true, false, 501000000⟩, []) := by decide +kernel

/-! ## Witnesses -/

/-- The hypotheses of IdleStepCountsOnePeriod are met, clause by clause. -/
theorem witness_IdleStepCountsOnePeriod :
    ∃ s : State, (s.pending = []) :=
  ⟨wS wBlk, by decide +kernel⟩

/-- The hypotheses of OtpBitsAreNeverTakenBack are met, clause by clause. -/
theorem witness_OtpBitsAreNeverTakenBack :
    ∃ s : State, ∃ t : State, (step s = .next t) :=
  ⟨wS wOff, wS { wOff with tb := 1000040 }, rfl⟩

/-- The hypotheses of FlashKeepsItsForm are met, clause by clause. -/
theorem witness_FlashKeepsItsForm :
    ∃ s : State, ∃ t : State, (Cells.wf s.nv.flash = true) ∧ (step s = .next t) :=
  ⟨{ blk := wOff, nv := { flash := [(5, 7)] } }, { blk := { wOff with tb := 1000040 }, nv := { flash := [(5, 7)] } }, by decide +kernel, rfl⟩

/-- The hypotheses of StorageReadsWhatWasWritten are met, clause by clause. -/
theorem witness_StorageReadsWhatWasWritten :
    (∃ m : Cells, ∃ a : Nat, ∃ bs : Bytes, (Cells.wf m = true) ∧ ∃ i : Nat, ∃ h : i < bs.length, True) ∧
    (∃ m : Cells, ∃ a : Nat, ∃ bs : Bytes, (Cells.wf m = true) ∧ ∃ x : Nat, (x < a ∨ a + bs.length ≤ x)) :=
  ⟨⟨[(3, 9)], 3, [0, 5], by decide +kernel, 1, by decide +kernel, trivial⟩,
   ⟨[(3, 9)], 3, [0, 5], by decide +kernel, 5, by decide +kernel⟩⟩

/-- The hypotheses of LineReadsWhatWasWritten are met, clause by clause. -/
theorem witness_LineReadsWhatWasWritten :
    ∃ b : Blk, ∃ l : Nat, ∃ bs : Bytes, ∃ p : Bool, ((b.source l).isSome = true) ∧ (bs.length = 128) ∧ ∃ k : Nat, (k ≠ l) :=
  ⟨wBlk, 0, List.replicate 128 1, false, by decide +kernel, by decide +kernel, 1, by decide +kernel⟩

/-- The hypotheses of ResetsStartAnew are met, clause by clause. -/
theorem witness_ResetsStartAnew :
    (∃ cause : ColdCause, ∃ s : State, (s.blk.coldActs cause = true)) ∧
    (∃ cause : ColdCause, ∃ s : State, (s.blk.coldActs cause = false)) ∧
    (∃ cause : WarmCause, ∃ s : State, (s.blk.warmActs cause = true)) ∧
    (∃ cause : WarmCause, ∃ s : State, (s.blk.warmActs cause = false)) :=
  ⟨⟨.powerUp, wS wBlk, by decide +kernel⟩,
   ⟨.resetN, wS { wBlk with pwr.on := false }, by decide +kernel⟩,
   ⟨.command, wS { wBlk with pwr.warm := some 1000000 }, by decide +kernel⟩,
   ⟨.command, wS wBlk, by decide +kernel⟩⟩

/-- The hypotheses of LockoutTurnsEverythingOff are met, clause by clause. -/
theorem witness_LockoutTurnsEverythingOff :
    (∃ mv : Nat, ∃ s : State, (mv < 58000 ∨ 84000 < mv)) ∧
    (∃ mv : Nat, ∃ s : State, (58000 ≤ mv) ∧ (mv ≤ 84000)) :=
  ⟨⟨57999, wS wBlk, by decide +kernel⟩,
   ⟨58000, wS wBlk, by decide +kernel⟩⟩

/-- The hypotheses of FunctionResetsReachTheirFunctions are met, clause by clause. -/
theorem witness_FunctionResetsReachTheirFunctions :
    (∃ cause : HostPortCause, ∃ s : State, (s.blk.dead = false)) ∧
    (∃ f : Func, ∃ s : State, (s.blk.dead = false) ∧ (s.blk.ideIn true f = true) ∧ (f ≠ 0) ∧ (s.blk.funcOn f = true)) ∧
    (∃ s : State, (s.blk.dead = false) ∧ (s.blk.ideIn true = true)) ∧
    (∃ f : Func, ∃ s : State, (s.blk.ideIn true f = true) ∧ (s.blk.funcOn f = false)) ∧
    (∃ f : Func, ∃ s : State, (s.blk.dead = false) ∧ (s.blk.ideIn true f = false)) :=
  ⟨⟨.perst, wS wBlk, by decide +kernel⟩,
   ⟨1, wS { wBlk with hub.numVfs := 1 }, by decide +kernel⟩,
   ⟨wS wBlk, by decide +kernel⟩,
   ⟨2, wS wBlk, by decide +kernel⟩,
   ⟨1, wS (wReg wBlk Reg.secIdeCfg 1), by decide +kernel⟩⟩

/-- The hypotheses of TrainingAndZeroingBringThePoolUp are met, clause by clause. -/
theorem witness_TrainingAndZeroingBringThePoolUp :
    (∃ c : HuskCh, ∃ ds : List Dimm, ∃ s : State, (s.blk.dead = false) ∧ ((s.blk.husk c).trained = false) ∧ ((s.blk.husk c).lost = false) ∧ (dimmsOk ds = true) ∧ (s.blk.str.loaded = true → s.blk.pool.capGib ≤ dimmsGib ds ∧ speedBins.getD s.blk.pool.speed 4800 ≤ dimmsMts ds)) ∧
    (∃ c : HuskCh, ∃ ds : List Dimm, ∃ trained : Bool, ∃ s : State, (s.blk.dead = false) ∧ ((s.blk.husk c).trained = false) ∧ ((s.blk.husk c).lost = false) ∧ (trained = false ∨ dimmsOk ds = false ∨ s.blk.str.loaded = true ∧ (dimmsGib ds < s.blk.pool.capGib ∨ dimmsMts ds < speedBins.getD s.blk.pool.speed 4800))) ∧
    (∃ c : HuskCh, ∃ ds : List Dimm, ∃ s : State, (s.blk.dead = false) ∧ ((s.blk.husk c).trained = true) ∧ ((s.blk.husk c).lost = false)) ∧
    (∃ l : Fin 16, ∃ s : State, (s.blk.dead = false) ∧ (l.val ∉ s.blk.chans.layersTested)) ∧
    (∃ q : Quad, ∃ s : State, ∃ g : Nat, ∃ n : Nat, (s.blk.dead = false) ∧ (s.blk.pool.zeroOn = true) ∧ (s.blk.asleep = false) ∧ (s.blk.allTrained = true) ∧ (mget s.blk.pool.zeroCur q = some (g, n)) ∧ (n + 1 < 16384)) ∧
    (∃ q : Quad, ∃ s : State, ∃ f : Nat, ∃ n : Nat, ∃ g : Nat, (s.blk.dead = false) ∧ (s.blk.pool.zeroOn = true) ∧ (s.blk.asleep = false) ∧ (s.blk.allTrained = true) ∧ (mget s.blk.pool.zeroCur (4 + q) = some (f, n)) ∧ (n + 1 < 16384) ∧ (s.blk.granInFrame q f = some g)) ∧
    (∃ q : Quad, ∃ t : Tier, ∃ s : State, (s.blk.asleep = true)) :=
  ⟨⟨0, [⟨256, true, 6400, 40, 40, 80⟩, ⟨256, true, 6400, 40, 40, 80⟩], wS { wBlk with str.loaded := false }, by decide +kernel⟩,
   ⟨0, [⟨256, true, 6400, 40, 40, 80⟩, ⟨256, true, 6400, 40, 40, 80⟩], false, wS { wBlk with str.loaded := false }, by decide +kernel⟩,
   ⟨0, [], wS wTrained, by decide +kernel⟩,
   ⟨3, wS wBlk, by decide +kernel⟩,
   ⟨0, wS { wTrained with pool.zeroOn := true, pool.zeroCur := [(0, (16, 3))] }, 16, 3, by decide +kernel⟩,
   ⟨0, wS { wTrained with pool.zeroOn := true, pool.zeroCur := [(4, (0, 3))], pool.frames := [(16, 0)] }, 0, 3, 16, by decide +kernel⟩,
   ⟨0, .husk, wS { wBlk with pwr.state := 3 }, by decide +kernel⟩⟩

/-- The hypotheses of ManagementControllerErrsAndRestarts are met, clause by clause. -/
theorem witness_ManagementControllerErrsAndRestarts :
    (∃ i : Instr, ∃ s : State, (i = .mgmtWatchdogExpiry ∧ s.blk.wdDue = true ∨ i = .mgmtEccDoubleBit) ∧ (s.blk.mgmtActs = true)) ∧
    (∃ i : Instr, ∃ s : State, ∃ e : Nat, (i = .mgmtWatchdogExpiry ∧ s.blk.wdDue = true ∨ i = .mgmtEccDoubleBit) ∧ (s.blk.mgmtActs = true) ∧ (s.blk.mgmt.ended = some e) ∧ (s.blk.tb ≤ e + 1000000000)) ∧
    (∃ i : Instr, ∃ s : State, (i = .mgmtWatchdogExpiry ∨ i = .mgmtEccDoubleBit) ∧ (s.blk.mgmtActs = false)) ∧
    (∃ s : State, (s.blk.wdDue = false)) ∧
    (∃ s : State, (s.blk.dead = false) ∧ (s.blk.mgmt.resetting = true)) ∧
    (∃ s : State, ∃ c : CmdId, ∃ r : CmdRec, (s.blk.dead = false) ∧ (s.blk.mgmt.resetting = false) ∧ (s.blk.mgmt.failed = false) ∧ (s.blk.mgmt.reanswer = some c) ∧ (s.blk.str.commit = none) ∧ (s.blk.cmd c = some r) ∧ (r.lost = false)) :=
  ⟨⟨.mgmtEccDoubleBit, wS wBlk, by decide +kernel⟩,
   ⟨.mgmtEccDoubleBit, wS { wBlk with mgmt.ended := some 0 }, 0, by decide +kernel⟩,
   ⟨.mgmtEccDoubleBit, wS { wBlk with mgmt.resetting := true }, by decide +kernel⟩,
   ⟨wS wBlk, by decide +kernel⟩,
   ⟨wS { wBlk with mgmt.resetting := true }, by decide +kernel⟩,
   ⟨wCmd { wBlk with mgmt.reanswer := some wC } (wRec 0x12 []), wC, wRec 0x12 [], by decide +kernel⟩⟩

/-- The hypotheses of StructureLoadsOnce are met, clause by clause. -/
theorem witness_StructureLoadsOnce :
    (∃ s : State, ∃ c : CmdId, ∃ r : CmdRec, ∃ img : HostResult, (MgmtRuns s.blk c 0x10 r) ∧ (s.blk.str.loaded = true)) ∧
    (∃ s : State, ∃ c : CmdId, ∃ r : CmdRec, (MgmtRuns s.blk c 0x10 r) ∧ (LoadMay s.blk) ∧ (ReadRoom s.blk r)) ∧
    (∃ s : State, ∃ c : CmdId, ∃ r : CmdRec, ∃ bs : Bytes, (MgmtRuns s.blk c 0x10 r) ∧ (LoadMay s.blk) ∧ (ReadRoom s.blk r) ∧ (s.blk.sec.ownerless = true)) ∧
    (∃ s : State, ∃ c : CmdId, ∃ r : CmdRec, ∃ bs : Bytes, (MgmtRuns s.blk c 0x10 r) ∧ (LoadMay s.blk) ∧ (ReadRoom s.blk r) ∧ (s.blk.sec.ownerless = false)) ∧
    (∃ s : State, ∃ c : CmdId, ∃ r : CmdRec, ∃ img : HostResult, (MgmtRuns s.blk c 0x10 r) ∧ (s.blk.str.loaded = false) ∧ (¬ LoadMay s.blk)) :=
  ⟨⟨wCmd wBlk (wRec 0x10 []), wC, wRec 0x10 [], .fault, by constructor <;> decide +kernel, by decide +kernel⟩,
   ⟨wCmd { wTrained with str.loaded := false } (wRec 0x10 []), wC, wRec 0x10 [], by constructor <;> decide +kernel, by constructor <;> decide +kernel, Or.inl (by decide +kernel)⟩,
   ⟨wCmd { wTrained with str.loaded := false, sec.ownerless := true } (wRec 0x10 []), wC, wRec 0x10 [], [], by constructor <;> decide +kernel, by constructor <;> decide +kernel, Or.inl (by decide +kernel), by decide +kernel⟩,
   ⟨wCmd { wTrained with str.loaded := false, sec.ownerless := false } (wRec 0x10 []), wC, wRec 0x10 [], [], by constructor <;> decide +kernel, by constructor <;> decide +kernel, Or.inl (by decide +kernel), by decide +kernel⟩,
   ⟨wCmd { wBlk with str.loaded := false } (wRec 0x10 []), wC, wRec 0x10 [], .fault, by constructor <;> decide +kernel, by decide +kernel, fun h => absurd h.trained (by decide +kernel)⟩⟩

/-- The hypotheses of StagingDiscardAndReadbackAnswer are met, clause by clause. -/
theorem witness_StagingDiscardAndReadbackAnswer :
    (∃ s : State, ∃ c : CmdId, ∃ r : CmdRec, ∃ bs : Bytes, (MgmtRuns s.blk c 0x11 r) ∧ (s.blk.str.loaded = true) ∧ (s.blk.str.staged = none) ∧ (s.blk.str.commit = none) ∧ (r.arg 0x18 1 = 1) ∧ (s.blk.mayRead = true) ∧ (ReadRoom s.blk r)) ∧
    (∃ s : State, ∃ c : CmdId, ∃ r : CmdRec, ∃ img : HostResult, (MgmtRuns s.blk c 0x11 r) ∧ (s.blk.str.loaded = false)) ∧
    (∃ s : State, ∃ c : CmdId, ∃ r : CmdRec, ∃ img : HostResult, (MgmtRuns s.blk c 0x11 r) ∧ (s.blk.str.loaded = true) ∧ (s.blk.str.staged.isSome = true ∨ s.blk.str.commit.isSome = true)) ∧
    (∃ s : State, ∃ c : CmdId, ∃ r : CmdRec, (MgmtRuns s.blk c 0x13 r) ∧ (s.blk.str.commit = none)) ∧
    (∃ s : State, ∃ c : CmdId, ∃ r : CmdRec, (MgmtRuns s.blk c 0x13 r) ∧ (s.blk.str.commit.isSome = true)) ∧
    (∃ s : State, ∃ c : CmdId, ∃ r : CmdRec, (MgmtRuns s.blk c 0x14 r) ∧ (r.started = false) ∧ (s.blk.str.loaded = false)) ∧
    (∃ s : State, ∃ c : CmdId, ∃ r : CmdRec, (MgmtRuns s.blk c 0x14 r) ∧ (r.started = false) ∧ (s.blk.str.loaded = true) ∧ (r.arg 0x18 1 ≤ 1) ∧ (r.arg 0x14 4 < (s.blk.readback 0 0 0).length)) ∧
    (∃ s : State, ∃ c : CmdId, ∃ r : CmdRec, (MgmtRuns s.blk c 0x14 r) ∧ (r.started = false) ∧ (s.blk.str.loaded = true) ∧ (r.arg 0x18 1 = 1) ∧ ((s.blk.readback 0 0 0).length ≤ r.arg 0x14 4) ∧ ((s.blk.win r.f).master = true) ∧ (s.blk.ideOk r.f = true)) :=
  ⟨⟨wCmd wBlk (wRec 0x11 [(0x18, [1])]), wC, wRec 0x11 [(0x18, [1])], [], by constructor <;> decide +kernel, by decide +kernel, by decide +kernel, by decide +kernel, (by decide +kernel), by decide +kernel, Or.inl (by decide +kernel)⟩,
   ⟨wCmd { wBlk with str.loaded := false } (wRec 0x11 []), wC, wRec 0x11 [], .fault, by constructor <;> decide +kernel, by decide +kernel⟩,
   ⟨wCmd { wBlk with str.staged := some wStaged } (wRec 0x11 []), wC, wRec 0x11 [], .fault, by constructor <;> decide +kernel, by decide +kernel⟩,
   ⟨wCmd { wBlk with str.staged := some wStaged } (wRec 0x13 []), wC, wRec 0x13 [], by constructor <;> decide +kernel, by decide +kernel⟩,
   ⟨wCmd { wBlk with str.commit := some wCommit } (wRec 0x13 []), wC, wRec 0x13 [], by constructor <;> decide +kernel, by decide +kernel⟩,
   ⟨wCmd { wBlk with str.loaded := false } (wRec 0x14 []), wC, wRec 0x14 [], by constructor <;> decide +kernel, by decide +kernel⟩,
   ⟨wCmd wBlk (wRec 0x14 [(0x14, [63])]), wC, wRec 0x14 [(0x14, [63])], by constructor <;> decide +kernel, by decide +kernel⟩,
   ⟨wCmd wBlk (wRec 0x14 [(0x14, toLe 4 65536), (0x18, [1])]), wC, wRec 0x14 [(0x14, toLe 4 65536), (0x18, [1])], by constructor <;> decide +kernel, by decide +kernel⟩⟩

/-- The hypotheses of CommitPointStartsPhaseA are met, clause by clause. -/
theorem witness_CommitPointStartsPhaseA :
    (∃ s : State, ∃ c : CmdId, ∃ r : CmdRec, ∃ g : Staged, (MgmtRuns s.blk c 0x12 r) ∧ (s.blk.str.loaded = true) ∧ (s.blk.str.commit = none) ∧ (s.blk.str.staged = some g) ∧ (g.img.epoch.toNat = r.arg 0x08 8) ∧ (s.blk.stale g = false)) ∧
    (∃ s : State, ∃ c : CmdId, ∃ r : CmdRec, (MgmtRuns s.blk c 0x12 r) ∧ (s.blk.str.loaded = true) ∧ (s.blk.str.commit = none) ∧ (s.blk.str.staged = none)) ∧
    (∃ s : State, ∃ c : CmdId, ∃ r : CmdRec, ∃ g : Staged, (MgmtRuns s.blk c 0x12 r) ∧ (s.blk.str.loaded = true) ∧ (s.blk.str.commit = none) ∧ (s.blk.str.staged = some g) ∧ (g.img.epoch.toNat ≠ r.arg 0x08 8)) ∧
    (∃ s : State, ∃ c : CmdId, ∃ r : CmdRec, ∃ g : Staged, (MgmtRuns s.blk c 0x12 r) ∧ (s.blk.str.loaded = true) ∧ (s.blk.str.commit = none) ∧ (s.blk.str.staged = some g) ∧ (g.img.epoch.toNat = r.arg 0x08 8) ∧ (s.blk.stale g = true)) :=
  ⟨⟨wCmd { wBlk with str.staged := some wStaged } (wRec 0x12 [(8, [2])]), wC, wRec 0x12 [(8, [2])], wStaged, by constructor <;> decide +kernel, by decide +kernel⟩,
   ⟨wCmd wBlk (wRec 0x12 []), wC, wRec 0x12 [], by constructor <;> decide +kernel, by decide +kernel⟩,
   ⟨wCmd { wBlk with str.staged := some wStaged } (wRec 0x12 [(8, [3])]), wC, wRec 0x12 [(8, [3])], wStaged, by constructor <;> decide +kernel, by decide +kernel⟩,
   ⟨wCmd { wBlk with str.staged := some wStale } (wRec 0x12 [(8, [2])]), wC, wRec 0x12 [(8, [2])], wStale, by constructor <;> decide +kernel, by decide +kernel⟩⟩

/-- The hypotheses of PhasesAreTakenAndEndInOrder are met, clause by clause. -/
theorem witness_PhasesAreTakenAndEndInOrder :
    (∃ s : State, ∃ k : Block, ∃ m : Commit, (s.blk.dead = false) ∧ (s.blk.str.commit = some m) ∧ (k ∉ m.taken) ∧ (k ∈ s.blk.phaseBlocks m) ∧ (match k with | .router _ | .thresher _ | .husk _ | .grain _ => True | _ => False)) ∧
    (∃ s : State, ∃ m : Commit, (s.blk.dead = false) ∧ (s.blk.str.commit = some m) ∧ (Block.hub ∉ m.taken) ∧ (Block.hub ∈ s.blk.phaseBlocks m) ∧ (m.phase = 1)) ∧
    (∃ s : State, ∃ k : TillerIx, ∃ m : Commit, (s.blk.dead = false) ∧ (s.blk.str.commit = some m) ∧ (Block.tiller k ∉ m.taken) ∧ (Block.tiller k ∈ s.blk.phaseBlocks m) ∧ ((s.blk.til k).run = none) ∧ (m.phase = 1)) ∧
    (∃ s : State, ∃ k : TillerIx, ∃ m : Commit, (s.blk.str.commit = some m) ∧ ((s.blk.til k).run.isSome = true)) ∧
    (∃ s : State, ∃ g : Nat, ∃ m : Commit, (s.blk.dead = false) ∧ (s.blk.str.commit = some m) ∧ (Block.gate g ∉ m.taken) ∧ (Block.gate g ∈ s.blk.phaseBlocks m)) ∧
    (∃ s : State, ∃ m : Commit, (s.blk.dead = false) ∧ (s.blk.str.commit = some m) ∧ (Block.buckets ∉ m.taken) ∧ (Block.buckets ∈ s.blk.phaseBlocks m)) ∧
    (∃ s : State, ∃ q : Quad, ∃ m : Commit, (s.blk.dead = false) ∧ (s.blk.str.commit = some m) ∧ (Block.home q ∉ m.taken) ∧ (Block.home q ∈ s.blk.phaseBlocks m)) ∧
    (∃ s : State, ∃ k : Block, ∃ m : Commit, (s.blk.str.commit = some m) ∧ (k ∈ m.taken ∨ k ∉ s.blk.phaseBlocks m)) ∧
    (∃ s : State, ∃ m : Commit, (s.blk.dead = false) ∧ (s.blk.str.commit = some m) ∧ (m.phase = 1) ∧ (s.blk.phaseDone m = true)) ∧
    (∃ s : State, ∃ m : Commit, ∃ r : CmdRec, (s.blk.dead = false) ∧ (s.blk.str.commit = some m) ∧ (m.phase = 2) ∧ (s.blk.phaseDone m = true) ∧ (s.blk.mgmt.resetting = false) ∧ (s.blk.mgmt.failed = false) ∧ (s.blk.mgmt.reanswer = none) ∧ (s.blk.cmd m.cmd = some r) ∧ (r.lost = false)) ∧
    (∃ s : State, ∃ m : Commit, (s.blk.str.commit = some m) ∧ (s.blk.phaseDone m = false)) :=
  ⟨⟨wS { wBlk with str.commit := some wCommit }, .thresher 0, wCommit, by decide +kernel, by decide +kernel, by decide +kernel, (by decide +kernel), trivial⟩,
   ⟨wS { wBlk with str.commit := some wCommit }, wCommit, by decide +kernel⟩,
   ⟨wS { wBlk with str.commit := some wTilCommit }, 3, wTilCommit, by decide +kernel⟩,
   ⟨wS { wBlk with str.commit := some wTilCommit, work.tillers := [(3, { run := some wRun })] }, 3, wTilCommit, by decide +kernel⟩,
   ⟨wS { wBlk with str.commit := some wGateCommit }, 5, wGateCommit, by decide +kernel⟩,
   ⟨wS { wBlk with str.commit := some wCommit }, wCommit, by decide +kernel⟩,
   ⟨wS { wBlk with str.commit := some wCommit }, 2, wCommit, by decide +kernel⟩,
   ⟨wS { wBlk with str.commit := some wCommit }, .tiller 3, wCommit, by decide +kernel⟩,
   ⟨wS { wBlk with str.commit := some (wDone 1) }, wDone 1, by decide +kernel⟩,
   ⟨wCmd { wBlk with str.commit := some (wDone 2) } (wRec 0x12 []), wDone 2, wRec 0x12 [], by decide +kernel⟩,
   ⟨wS { wBlk with str.commit := some wCommit }, wCommit, by decide +kernel⟩⟩

/-- The hypotheses of CommitTakesTheTillers are met, clause by clause. -/
theorem witness_CommitTakesTheTillers :
    (∃ s : State, ∃ k : TillerIx, ∃ m : Commit, ∃ r : Run, (s.blk.dead = false) ∧ (s.blk.str.commit = some m) ∧ (m.phase = 1) ∧ (k.val ∈ s.blk.phaseTillers m) ∧ ((s.blk.til k).run = some r) ∧ (r.ended = none) ∧ (m.point + s.blk.field Reg.strCommitLimit 0 14 * 1000000 ≤ s.blk.tb)) ∧
    (∃ s : State, ∃ k : TillerIx, ∃ m : Commit, (s.blk.str.commit = some m) ∧ (s.blk.tb < m.point + s.blk.field Reg.strCommitLimit 0 14 * 1000000)) ∧
    (∃ s : State, ∃ k : TillerIx, (s.blk.dead = false) ∧ ((s.blk.til k).clearing = true)) :=
  ⟨⟨wS { wBlk with str.commit := some wTilCommit, tb := 2000000000, work.tillers := [(3, { run := some wRun })] }, 3, wTilCommit, wRun, by decide +kernel⟩,
   ⟨wS { wBlk with str.commit := some wTilCommit }, 3, wTilCommit, by decide +kernel⟩,
   ⟨wS { wBlk with work.tillers := [(3, { clearing := true })] }, 3, by decide +kernel⟩⟩

/-- The hypotheses of RegistersActByTheirCodes are met, clause by clause. -/
theorem witness_RegistersActByTheirCodes :
    (∃ f : RField, ∃ v : Word, ∃ old : Word, ∃ i : Nat, (f.lo + f.width ≤ 32) ∧ (i < 32) ∧ let inside := f.lo ≤ i ∧ i < f.lo + f.width; (¬ inside)) ∧
    (∃ f : RField, ∃ v : Word, ∃ old : Word, ∃ i : Nat, (f.lo + f.width ≤ 32) ∧ (i < 32) ∧ let inside := f.lo ≤ i ∧ i < f.lo + f.width; (inside) ∧ (f.acc = .rw) ∧ (f.clamp = none)) ∧
    (∃ f : RField, ∃ v : Word, ∃ old : Word, ∃ i : Nat, (f.lo + f.width ≤ 32) ∧ (i < 32) ∧ let inside := f.lo ≤ i ∧ i < f.lo + f.width; (inside) ∧ (f.acc = .w1c)) ∧
    (∃ f : RField, ∃ v : Word, ∃ old : Word, ∃ i : Nat, (f.lo + f.width ≤ 32) ∧ (i < 32) ∧ (f.acc = .ro ∨ f.acc = .wo ∨ f.acc = .rwl ∨ f.acc = .ep)) ∧
    (∃ s : State, ∃ off : BitVec 28, ∃ v : Word, (HostWrites s.blk) ∧ (ownRow off.toNat = false) ∧ (hasAcc off.toNat .ep = false) ∧ (hasAcc off.toNat .rwl = false) ∧ ((regFields off.toNat).isEmpty = false)) ∧
    (∃ s : State, ∃ off : BitVec 28, ∃ v : Word, (HostWrites s.blk) ∧ (ownRow off.toNat = false) ∧ (hasAcc off.toNat .ep = true) ∧ (hasAcc off.toNat .rwl = false) ∧ (off.toNat ≠ Reg.strErr) ∧ (off.toNat ≠ Reg.strLiveWriteCnt) ∧ (off.toNat ≠ Reg.strLiveWriteAddr)) ∧
    (∃ s : State, ∃ off : BitVec 28, ∃ v : Word, (HostWrites s.blk) ∧ (ownRow off.toNat = false) ∧ (hasAcc off.toNat .rwl = true) ∧ (s.blk.str.locked = true)) ∧
    (∃ s : State, ∃ off : BitVec 28, ∃ v : Word, (HostWrites s.blk) ∧ (ownRow off.toNat = false) ∧ (hasAcc off.toNat .rwl = true) ∧ (s.blk.str.locked = false)) ∧
    (∃ s : State, ∃ off : BitVec 28, ∃ v : Word, (s.blk.dead = false) ∧ (s.blk.ideIn true = false)) ∧
    (∃ s : State, ∃ v : Word, (HostWrites s.blk) ∧ let p := s.blk.field Reg.strTierSel 0 6; let old := s.blk.str.run.tier p; let hint := v.toNat % 4; let cap := v.toNat / 8 % 64; let new : TierEnt := ⟨if hint = 3 then old.hint else hint, v.toNat / 4 % 2, if cap = 0 then 10 else min 50 cap⟩; let run : Struct := { s.blk.str.run with tiers := mput s.blk.str.run.tiers p new }; let ok := (run.bound p).valid && (List.range 4).all (fun q => run.pinnedOn p q ≤ run.share p q); (ok = true)) ∧
    (∃ s : State, ∃ v : Word, (HostWrites s.blk) ∧ let p := s.blk.field Reg.strTierSel 0 6; let old := s.blk.str.run.tier p; let hint := v.toNat % 4; let cap := v.toNat / 8 % 64; let new : TierEnt := ⟨if hint = 3 then old.hint else hint, v.toNat / 4 % 2, if cap = 0 then 10 else min 50 cap⟩; let run : Struct := { s.blk.str.run with tiers := mput s.blk.str.run.tiers p new }; let ok := (run.bound p).valid && (List.range 4).all (fun q => run.pinnedOn p q ≤ run.share p q); (ok = false)) :=
  ⟨⟨⟨4, 6, .rw, 0, none⟩, 0xFFFFFFFF, 0, 10, by and_intros <;> decide +kernel⟩,
   ⟨⟨4, 6, .rw, 0, none⟩, 0xFFFFFFFF, 0, 4, by and_intros <;> decide +kernel⟩,
   ⟨⟨0, 32, .w1c, 0, none⟩, 0x80000000, 0xFFFFFFFF, 31, by and_intros <;> decide +kernel⟩,
   ⟨⟨0, 32, .ro, 0, none⟩, 0x80000000, 0xFFFFFFFF, 31, by and_intros <;> decide +kernel⟩,
   ⟨wS wBlk, 0x3800128, 0xFFFFFFFF, by constructor <;> decide +kernel, by decide +kernel⟩,
   ⟨wS wBlk, 0x509000C, 0xFFFFFFFF, by constructor <;> decide +kernel, by decide +kernel⟩,
   ⟨wS wBlk, 0x30028, 9, by constructor <;> decide +kernel, by decide +kernel⟩,
   ⟨wS { wBlk with str.locked := false }, 0x30028, 9, by constructor <;> decide +kernel, by decide +kernel⟩,
   ⟨wS (wReg wBlk Reg.secIdeCfg 1), 0x3800128, 1, by decide +kernel⟩,
   ⟨wS { wBlk with str.run.bounds := List.replicate 64 { valid := true, grainQuota := 3968, keySlot := 64 } }, 0x53, by constructor <;> decide +kernel, by decide +kernel⟩,
   ⟨wS { wBlk with str.run.bounds := [] }, 0, by constructor <;> decide +kernel, by decide +kernel⟩⟩

/-- The hypotheses of MovesAdvanceWithinRenewedAllowances are met, clause by clause. -/
theorem witness_MovesAdvanceWithinRenewedAllowances :
    (∃ s : State, ∃ q : Quad, ∃ m : Mig, ∃ b0 : Blk, (s.blk.dead = false) ∧ (s.blk.str.loaded = true) ∧ (s.blk.asleep = false) ∧ (mget s.blk.pool.migs q = some m) ∧ (m.kind = .into) ∧ (m.cursor + 1 < 16384) ∧ (s.blk.takeMigSlots (lineOfGran m.granule + m.cursor) true = some b0)) ∧
    (∃ s : State, ∃ q : Quad, ∃ m : Mig, ∃ n : Nat, ∃ b0 : Blk, (s.blk.dead = false) ∧ (s.blk.str.loaded = true) ∧ (s.blk.asleep = false) ∧ (mget s.blk.pool.migs q = some m) ∧ (m.kind = .out) ∧ (s.blk.moveNext m = some n) ∧ (s.blk.takeMigSlots (lineOfGran m.granule + n) false = some b0)) ∧
    (∃ s : State, ∃ q : Quad, ∃ m : Mig, ∃ n : Nat, ∃ b0 : Blk, (s.blk.dead = false) ∧ (s.blk.str.loaded = true) ∧ (s.blk.asleep = false) ∧ (mget s.blk.pool.migs q = some m) ∧ (m.kind = .clean) ∧ (s.blk.moveNext m = some n) ∧ (s.blk.takeMigSlots (lineOfGran m.granule + n) false = some b0)) ∧
    (∃ s : State, ∃ q : Quad, ∃ m : Mig, ∃ n : Nat, (mget s.blk.pool.migs q = some m) ∧ (s.blk.moveNext m = some n) ∧ (s.blk.takeMigSlots (lineOfGran m.granule + n) (m.kind == .into) = none)) ∧
    (∃ s : State, ∃ q : Quad, (s.blk.asleep = true)) ∧
    (∃ s : State, (s.blk.dead = false) ∧ (s.blk.pool.window < s.blk.tb / 10000)) ∧
    (∃ s : State, (s.blk.tb / 10000 ≤ s.blk.pool.window)) :=
  ⟨⟨wS (wMig ⟨0, .into, 5⟩), 0, ⟨0, .into, 5⟩, ((wMig ⟨0, .into, 5⟩).takeMigSlots 5 true).getD {}, by decide +kernel⟩,
   ⟨wS (wMig ⟨0, .out, 5⟩), 0, ⟨0, .out, 5⟩, 7, ((wMig ⟨0, .out, 5⟩).takeMigSlots 7 false).getD {}, by decide +kernel⟩,
   ⟨wS (wMig ⟨0, .clean, 5⟩), 0, ⟨0, .clean, 5⟩, 7, ((wMig ⟨0, .clean, 5⟩).takeMigSlots 7 false).getD {}, by decide +kernel⟩,
   ⟨wS { wBlk with pool.migs := [(0, ⟨0, .into, 5⟩)], pool.used := (List.range 24).map (fun c => (2000 + c, 1000000)) }, 0, ⟨0, .into, 5⟩, 5, by decide +kernel⟩,
   ⟨wS { wBlk with pwr.state := 3 }, 0, by decide +kernel⟩,
   ⟨wS wBlk, by decide +kernel⟩,
   ⟨wS { wBlk with pool.window := 100 }, by decide +kernel⟩⟩

/-- The hypotheses of RevocationDrainsAndZeroes are met, clause by clause. -/
theorem witness_RevocationDrainsAndZeroes :
    (∃ s : State, ∃ c : CmdId, ∃ r : CmdRec, ∃ e : ExtEnt, (MgmtRuns s.blk c 0x15 r) ∧ (r.arg 0x08 4 ≤ 262143) ∧ (s.blk.extEnt (r.arg 0x08 4) = some e) ∧ (s.blk.dying (r.arg 0x08 4) = false) ∧ (∀ x ∈ s.blk.ext.revCmds, x.1 ≠ c)) ∧
    (∃ s : State, ∃ c : CmdId, ∃ r : CmdRec, (MgmtRuns s.blk c 0x15 r) ∧ (r.arg 0x08 4 ≤ 262143) ∧ (s.blk.extEnt (r.arg 0x08 4) = none)) ∧
    (∃ s : State, ∃ c : CmdId, ∃ r : CmdRec, ∃ e : ExtEnt, (MgmtRuns s.blk c 0x15 r) ∧ (r.arg 0x08 4 ≤ 262143) ∧ (s.blk.extEnt (r.arg 0x08 4) = some e) ∧ (s.blk.dying (r.arg 0x08 4) = true)) ∧
    (∃ s : State, ∃ q : Quad, ∃ i : Nat, ∃ g : Nat, ∃ n : Nat, ∃ e : ExtEnt, ∃ b0 : Blk, (s.blk.dead = false) ∧ ((s.blk.extRt i).state = .zeroing) ∧ (s.blk.asleep = false) ∧ (s.blk.extEnt i = some e) ∧ (s.blk.extRt i).zeroAt e q = some (g, n) ∧ (n + 1 < 16384) ∧ (s.blk.takeZeroSlots q (lineOfGran g + n) e = some b0)) ∧
    (∃ s : State, ∃ q : Quad, ∃ i : Nat, ((s.blk.extRt i).state ≠ .zeroing)) :=
  ⟨⟨wCmd wBlk (wRec 0x15 [(8, [0])]), wC, wRec 0x15 [(8, [0])], ⟨0, 4, 1, 0, 0, false⟩, by constructor <;> decide +kernel, by decide +kernel⟩,
   ⟨wCmd wBlk (wRec 0x15 [(8, [9])]), wC, wRec 0x15 [(8, [9])], by constructor <;> decide +kernel, by decide +kernel⟩,
   ⟨wCmd (wExt wBlk 0 { state := .draining }) (wRec 0x15 [(8, [0])]), wC, wRec 0x15 [(8, [0])], ⟨0, 4, 1, 0, 0, false⟩, by constructor <;> decide +kernel, by decide +kernel⟩,
   ⟨wS wZero, 1, 0, 1, 5, ⟨0, 4, 1, 0, 0, false⟩, (wZero.takeZeroSlots 1 16389 ⟨0, 4, 1, 0, 0, false⟩).getD {}, by decide +kernel⟩,
   ⟨wS wBlk, 1, 0, by decide +kernel⟩⟩

/-- The hypotheses of HomeAgentsTakeWhatWaits are met, clause by clause. -/
theorem witness_HomeAgentsTakeWhatWaits :
    (∃ s : State, ∃ q : Quad, ∃ k : RevokeKey, (s.blk.dead = false) ∧ ((q.val, k) ∈ s.blk.ext.revPend)) ∧
    (∃ s : State, ∃ q : Quad, ∃ k : RevokeKey, ((q.val, k) ∉ s.blk.ext.revPend)) ∧
    (∃ s : State, ∃ q : Quad, ∃ e : Eid, (s.blk.dead = false) ∧ ((q.val, e.toNat) ∈ s.blk.ext.expPend)) ∧
    (∃ s : State, ∃ q : Quad, ∃ e : Eid, ((q.val, e.toNat) ∉ s.blk.ext.expPend)) ∧
    (∃ s : State, ∃ i : Nat, (s.blk.dead = false) ∧ ((s.blk.extRt i).state = .draining) ∧ (s.blk.drained i = true)) ∧
    (∃ s : State, ∃ i : Nat, ((s.blk.extRt i).state ≠ .draining ∨ s.blk.drained i = false)) :=
  ⟨⟨wS { wBlk with ext.revPend := [(1, .extent 0)] }, 1, .extent 0, by decide +kernel⟩,
   ⟨wS wBlk, 1, .extent 0, by decide +kernel⟩,
   ⟨wS { wBlk with ext.expPend := [(1, 2)] }, 1, 2, by decide +kernel⟩,
   ⟨wS wBlk, 1, 2, by decide +kernel⟩,
   ⟨wS (wExt wBlk 0 { state := .draining }), 0, by decide +kernel⟩,
   ⟨wS wBlk, 0, by decide +kernel⟩⟩

/-- The hypotheses of LeasesAreAnsweredAndLapse are met, clause by clause. -/
theorem witness_LeasesAreAnsweredAndLapse :
    (∃ s : State, ∃ r : Req, ∃ b : Blk, ∃ l : Lease, (CtrlIn s.blk b 0 r 0xD0 0 true) ∧ (mget b.ext.leases r.src.toNat = some l) ∧ (l.lapsed = false) ∧ (l.live = true) ∧ (b.tb ≤ l.deadline)) ∧
    (∃ s : State, ∃ r : Req, ∃ b : Blk, (CtrlIn s.blk b 0 r 0xD0 0 true) ∧ (mget b.ext.leases r.src.toNat = none)) ∧
    (∃ s : State, ∃ r : Req, ∃ b : Blk, ∃ l : Lease, ∃ renew : Bool, (CtrlIn s.blk b 0 r 0xD0 0 true) ∧ (mget b.ext.leases r.src.toNat = some l) ∧ (l.lapsed = true)) ∧
    (∃ s : State, ∃ e : Eid, ∃ l : Lease, (s.blk.dead = false) ∧ (s.blk.pwr.holding = false) ∧ (mget s.blk.ext.leases e.toNat = some l) ∧ (mhas (s.blk.view (.home 0)).hosts e.toNat = true) ∧ (l.live = true) ∧ (l.deadline < s.blk.tb)) ∧
    (∃ s : State, ∃ e : Eid, (∀ l, mget s.blk.ext.leases e.toNat = some l → l.live = false ∨ s.blk.tb ≤ l.deadline)) ∧
    (∃ s : State, ∃ e : Eid, (s.blk.pwr.holding = true)) :=
  ⟨⟨wS wBlk, wReq 1, wCtrl wBlk 0 0xD0 0 true, ⟨true, false, 500000000⟩, by constructor <;> decide +kernel, by decide +kernel⟩,
   ⟨wS { wBlk with ext.leases := [] }, wReq 1, wCtrl { wBlk with ext.leases := [] } 0 0xD0 0 true, by constructor <;> decide +kernel, by decide +kernel⟩,
   ⟨wS { wBlk with ext.leases := [(1, ⟨false, true, 5⟩)] }, wReq 1, wCtrl { wBlk with ext.leases := [(1, ⟨false, true, 5⟩)] } 0 0xD0 0 true, ⟨false, true, 5⟩, true, by constructor <;> decide +kernel, by decide +kernel⟩,
   ⟨wS { wBlk with tb := 500000001 }, 1, ⟨true, false, 500000000⟩, by decide +kernel⟩,
   ⟨wS { wBlk with tb := 500000000 }, 1, by decide +kernel⟩,
   ⟨wS { wBlk with pwr.holding := true }, 1, by decide +kernel⟩⟩

/-- The hypotheses of ExtentsArePublishedAndUnpublished are met, clause by clause. -/
theorem witness_ExtentsArePublishedAndUnpublished :
    (∃ s : State, ∃ r : Req, ∃ b : Blk, ∃ i : Nat, ∃ x : DWord, ∃ n : DWord, ∃ m : DWord, ∃ d : Bytes, (CtrlIn s.blk b (s.blk.extHome i) r 0xD2 64 false) ∧ (x ≠ n) ∧ (i ≤ 262143) ∧ (b.pubCheck (.host r.src.toNat) i true = 0) ∧ ((b.extRt i).state = .active) ∧ ((b.extRt i).version = x) ∧ ((b.extRt i).modCount = m)) ∧
    (∃ s : State, ∃ r : Req, ∃ b : Blk, ∃ i : Nat, ∃ x : DWord, ∃ n : DWord, ∃ m : DWord, ∃ d : Bytes, (CtrlIn s.blk b (s.blk.extHome i) r 0xD2 64 false) ∧ (x ≠ n) ∧ (i ≤ 262143) ∧ (b.pubCheck (.host r.src.toNat) i true = 0) ∧ ((b.extRt i).state = .active) ∧ ((b.extRt i).version ≠ x)) ∧
    (∃ s : State, ∃ c : CmdId, ∃ r : CmdRec, (HubRuns s.blk c 0x04 r) ∧ (r.started = false) ∧ (s.blk.pubCheck r.pubWho (r.arg 0x08 4) true = 0) ∧ ((s.blk.extRt (r.arg 0x08 4)).state = .active) ∧ ((s.blk.extRt (r.arg 0x08 4)).version.toNat = r.arg 0x10 8) ∧ ((s.blk.extRt (r.arg 0x08 4)).modCount.toNat = r.arg 0x20 8)) ∧
    (∃ s : State, ∃ c : CmdId, ∃ r : CmdRec, (HubRuns s.blk c 0x04 r) ∧ (r.started = false) ∧ (s.blk.pubCheck r.pubWho (r.arg 0x08 4) true = 0) ∧ ((s.blk.extRt (r.arg 0x08 4)).state = .active) ∧ ((s.blk.extRt (r.arg 0x08 4)).version.toNat = r.arg 0x10 8) ∧ ((s.blk.extRt (r.arg 0x08 4)).modCount.toNat ≠ r.arg 0x20 8)) ∧
    (∃ s : State, ∃ i : Nat, ∃ p : Publisher, ∃ rest : List Publisher, (s.blk.dead = false) ∧ ((s.blk.extRt i).state = .sealing) ∧ ((s.blk.extRt i).settleEnd ≤ s.blk.tb) ∧ ((s.blk.extRt i).pubs = p :: rest) ∧ (∀ x ∈ rest, x.digest = p.digest)) ∧
    (∃ s : State, ∃ i : Nat, ∃ p : Publisher, ∃ x : Publisher, ∃ rest : List Publisher, (s.blk.dead = false) ∧ ((s.blk.extRt i).state = .sealing) ∧ ((s.blk.extRt i).settleEnd ≤ s.blk.tb) ∧ ((s.blk.extRt i).pubs = p :: rest) ∧ (x ∈ rest) ∧ (x.digest ≠ p.digest)) ∧
    (∃ s : State, ∃ i : Nat, (s.blk.tb < (s.blk.extRt i).settleEnd)) ∧
    (∃ s : State, ∃ r : Req, ∃ b : Blk, ∃ i : Nat, ∃ x : DWord, (CtrlIn s.blk b (s.blk.extHome i) r 0xD3 8 false) ∧ (i ≤ 262143) ∧ (b.pubCheck (.host r.src.toNat) i true = 0) ∧ ((b.extRt i).state = .published) ∧ ((b.extRt i).version = x)) ∧
    (∃ s : State, ∃ r : Req, ∃ b : Blk, ∃ i : Nat, (CtrlIn s.blk b (s.blk.extHome i) r 0xD4 0 false) ∧ (i ≤ 262143) ∧ (b.pubCheck (.host r.src.toNat) i false = 0)) ∧
    (∃ s : State, ∃ c : CmdId, ∃ r : CmdRec, (HubRuns s.blk c 0x05 r) ∧ (s.blk.pubCheck r.pubWho (r.arg 0x08 4) true = 0) ∧ ((s.blk.extRt (r.arg 0x08 4)).state = .published) ∧ ((s.blk.extRt (r.arg 0x08 4)).version.toNat = r.arg 0x10 8)) ∧
    (∃ s : State, ∃ c : CmdId, ∃ r : CmdRec, (HubRuns s.blk c 0x06 r) ∧ (s.blk.pubCheck r.pubWho (r.arg 0x08 4) false = 0)) :=
  ⟨⟨wS wBlk, wReq 1, wCtrl wBlk 0 0xD2 64 false, 0, 0, 1, 0, zeros 32, by constructor <;> decide +kernel, by decide +kernel⟩,
   ⟨wS wBlk, wReq 1, wCtrl wBlk 0 0xD2 64 false, 0, 5, 1, 0, zeros 32, by constructor <;> decide +kernel, by decide +kernel⟩,
   ⟨wCmd wBlk (wRec 0x04 [(8, [1])]), wC, wRec 0x04 [(8, [1])], by constructor <;> decide +kernel, by decide +kernel⟩,
   ⟨wCmd wBlk (wRec 0x04 [(8, [1]), (0x20, [9])]), wC, wRec 0x04 [(8, [1]), (0x20, [9])], by constructor <;> decide +kernel, by decide +kernel⟩,
   ⟨wS (wExt wBlk 0 { state := .sealing, settleEnd := 1000000, pubs := [⟨.cmd wC, [1]⟩, ⟨.fabric 1 3 0 0xD2, [1]⟩] }), 0, ⟨.cmd wC, [1]⟩, [⟨.fabric 1 3 0 0xD2, [1]⟩], by decide +kernel⟩,
   ⟨wS (wExt wBlk 0 { state := .sealing, settleEnd := 1000000, pubs := [⟨.cmd wC, [1]⟩, ⟨.fabric 1 3 0 0xD2, [2]⟩] }), 0, ⟨.cmd wC, [1]⟩, ⟨.fabric 1 3 0 0xD2, [2]⟩, [⟨.fabric 1 3 0 0xD2, [2]⟩], by decide +kernel⟩,
   ⟨wS (wExt wBlk 0 { state := .sealing, settleEnd := 1000001 }), 0, by decide +kernel⟩,
   ⟨wS (wExt wBlk 0 { state := .published }), wReq 1, wCtrl (wExt wBlk 0 { state := .published }) 0 0xD3 8 false, 0, 0, by constructor <;> decide +kernel, by decide +kernel⟩,
   ⟨wS wBlk, wReq 1, wCtrl wBlk 0 0xD4 0 false, 0, by constructor <;> decide +kernel, by decide +kernel⟩,
   ⟨wCmd (wExt wBlk 1 { state := .published }) (wRec 0x05 [(8, [1])]), wC, wRec 0x05 [(8, [1])], by constructor <;> decide +kernel, by decide +kernel⟩,
   ⟨wCmd wBlk (wRec 0x06 [(8, [1])]), wC, wRec 0x06 [(8, [1])], by constructor <;> decide +kernel, by decide +kernel⟩⟩

/-- The hypotheses of RefusedRequestsChangeNothing are met, clause by clause. -/
theorem witness_RefusedRequestsChangeNothing :
    (∃ s : State, ∃ r : Req, ∃ a : Addr, ∃ st : Nat, (a.toNat % 128 = 0) ∧ (ReqFails s.blk r a 0xC0 [0] .rds st)) ∧
    (∃ s : State, ∃ r : Req, ∃ a : Addr, ∃ st : Nat, (a.toNat % 128 = 0) ∧ (ReqFails s.blk r a 0xC1 [0] .rdx st)) ∧
    (∃ s : State, ∃ r : Req, ∃ a : Addr, ∃ st : Nat, (a.toNat % 128 = 0) ∧ (ReqFails s.blk r a 0xC2 [0] .read st)) ∧
    (∃ s : State, ∃ r : Req, ∃ a : Addr, ∃ bs : Bytes, ∃ m : BitVec 128, ∃ p : Bool, ∃ st : Nat, (s.blk.isPeer r.src.toNat = false) ∧ (a.toNat % 128 = 0) ∧ (ReqFails s.blk r a 0xC3 [144] .write st)) ∧
    (∃ s : State, ∃ r : Req, ∃ a : Addr, ∃ n : BitVec 9, ∃ st : Nat, (n.toNat + 1 ≤ 510) ∧ (lineIn (lineOf a.toNat) + n.toNat + 1 ≤ 16384) ∧ (a.toNat % 128 = 0) ∧ (ReqFails s.blk r a 0xC5 [0] .read st)) ∧
    (∃ s : State, ∃ r : Req, ∃ a : Addr, ∃ n : BitVec 9, ∃ ls : List LineIn, ∃ st : Nat, (s.blk.isPeer r.src.toNat = false) ∧ (n.toNat + 1 ≤ 510) ∧ (lineIn (lineOf a.toNat) + n.toNat + 1 ≤ 16384) ∧ (ls.length = n.toNat + 1) ∧ (a.toNat % 128 = 0) ∧ (ReqFails s.blk r a 0xC6 (bulkLens (n.toNat + 1)) .write st)) ∧
    (∃ s : State, ∃ r : Req, ∃ a : Addr, let q : Addr → Nat := fun a => homeOf (lineOf a.toNat); ((s.blk.reqIn (q a) r.src.toNat 0xC0 [0] false).1 = true) ∧ ((s.blk.reqIn (q a) r.src.toNat 0xC0 [0] false).2.pwr.holding = false) ∧ (r.reservedSet = true ∨ a.toNat % 128 ≠ 0)) :=
  ⟨⟨wS wBlk, wReq 1, 0x2000000, 0x12, by decide +kernel, by constructor <;> decide +kernel⟩,
   ⟨wS wBlk, wReq 1, 0x2000000, 0x12, by decide +kernel, by constructor <;> decide +kernel⟩,
   ⟨wS wBlk, wReq 1, 0x2000000, 0x12, by decide +kernel, by constructor <;> decide +kernel⟩,
   ⟨wS wBlk, wReq 1, 0x2000000, zeros 128, 1, false, 0x12, by and_intros <;> first | decide +kernel | (constructor <;> decide +kernel)⟩,
   ⟨wS wBlk, wReq 1, 0x2000000, 1, 0x12, by and_intros <;> first | decide +kernel | (constructor <;> decide +kernel)⟩,
   ⟨wS wBlk, wReq 1, 0x2000000, 1, [⟨zeros 128, false⟩, ⟨zeros 128, false⟩], 0x12, by and_intros <;> first | decide +kernel | (constructor <;> decide +kernel)⟩,
   ⟨wS wBlk, ⟨1, 3, 0, true⟩, 0, by decide +kernel⟩⟩

/-- The hypotheses of ReadsOfAFreeLineAreGranted are met, clause by clause. -/
theorem witness_ReadsOfAFreeLineAreGranted :
    (∃ s : State, ∃ b : Blk, ∃ r : Req, ∃ a : Addr, ∃ c : Checked, ∃ i : Nat, (ReqIn s.blk b r a 0xC0 [0] .rds c) ∧ (a.toNat % 128 = 0) ∧ (LineFree b (lineOf a.toNat)) ∧ (b.agentIx r.src.toNat = some i) ∧ (c.canWrite = true)) ∧
    (∃ s : State, ∃ b : Blk, ∃ r : Req, ∃ a : Addr, ∃ c : Checked, ∃ i : Nat, (ReqIn s.blk b r a 0xC0 [0] .rds c) ∧ (a.toNat % 128 = 0) ∧ (LineFree b (lineOf a.toNat)) ∧ (b.agentIx r.src.toNat = some i) ∧ (c.canWrite = false)) ∧
    (∃ s : State, ∃ b : Blk, ∃ r : Req, ∃ a : Addr, ∃ c : Checked, ∃ i : Nat, (ReqIn s.blk b r a 0xC1 [0] .rdx c) ∧ (a.toNat % 128 = 0) ∧ (LineFree b (lineOf a.toNat)) ∧ (b.agentIx r.src.toNat = some i)) ∧
    (∃ s : State, ∃ b : Blk, ∃ r : Req, ∃ a : Addr, ∃ c : Checked, (ReqIn s.blk b r a 0xC2 [0] .read c) ∧ (a.toNat % 128 = 0) ∧ (LineFree b (lineOf a.toNat))) ∧
    (∃ s : State, ∃ b : Blk, ∃ r : Req, ∃ a : Addr, ∃ n : BitVec 9, ∃ c : Checked, (ReqIn s.blk b r a 0xC5 [0] .read c) ∧ (a.toNat % 128 = 0) ∧ (n.toNat + 1 ≤ 510) ∧ (lineIn (lineOf a.toNat) + n.toNat + 1 ≤ 16384)) ∧
    (∃ s : State, ∃ b : Blk, ∃ r : Req, ∃ a : Addr, ∃ c : Checked, (ReqIn s.blk b r a 0xC5 [0] .read c) ∧ (a.toNat % 128 = 0) ∧ (LineFree b (lineOf a.toNat)) ∧ (b.coh.jobs = [])) :=
  ⟨⟨wS wBlk, wAcc wBlk 0 0xC0 [0], wReq 1, 0, ⟨0, true, 1, 0⟩, 0, by and_intros <;> first | decide +kernel | (constructor <;> decide +kernel)⟩,
   ⟨wS wBlk, wAcc2 wBlk 0 0xC0 [0], wReq 2, 0, ⟨0, false, 1, 0⟩, 1, by and_intros <;> first | decide +kernel | (constructor <;> decide +kernel)⟩,
   ⟨wS wBlk, wAcc wBlk 0 0xC1 [0], wReq 1, 0, ⟨0, true, 1, 0⟩, 0, by and_intros <;> first | decide +kernel | (constructor <;> decide +kernel)⟩,
   ⟨wS wBlk, wAcc wBlk 0 0xC2 [0], wReq 1, 0, ⟨0, true, 1, 0⟩, by and_intros <;> first | decide +kernel | (constructor <;> decide +kernel)⟩,
   ⟨wS wBlk, wAcc wBlk 0 0xC5 [0], wReq 1, 0, 1, ⟨0, true, 1, 0⟩, by constructor <;> decide +kernel, by decide +kernel⟩,
   ⟨wS wBlk, wAcc wBlk 0 0xC5 [0], wReq 1, 0, ⟨0, true, 1, 0⟩, by and_intros <;> first | decide +kernel | (constructor <;> decide +kernel)⟩⟩

/-- The hypotheses of WritesOfAFreeLineStand are met, clause by clause. -/
theorem witness_WritesOfAFreeLineStand :
    (∃ s : State, ∃ b : Blk, ∃ r : Req, ∃ a : Addr, ∃ bs : Bytes, ∃ m : BitVec 128, ∃ p : Bool, ∃ c : Checked, (s.blk.isPeer r.src.toNat = false) ∧ (ReqIn s.blk b r a 0xC3 [144] .write c) ∧ (a.toNat % 128 = 0) ∧ (LineFree b (lineOf a.toNat)) ∧ (b.huskAlive (lineOf a.toNat) = true) ∧ (b.mirrors (lineOf a.toNat) = false) ∧ (b.rings.log.ext = none)) ∧
    (∃ s : State, ∃ b : Blk, ∃ r : Req, ∃ a : Addr, ∃ x : LineIn, ∃ c : Checked, (s.blk.isPeer r.src.toNat = false) ∧ (ReqIn s.blk b r a 0xC6 [128] .write c) ∧ (a.toNat % 128 = 0) ∧ (LineFree b (lineOf a.toNat)) ∧ (b.huskAlive (lineOf a.toNat) = true) ∧ (b.mirrors (lineOf a.toNat) = false) ∧ (b.coh.jobs = []) ∧ (x.bytes.length = 128)) ∧
    (∃ s : State, ∃ b : Blk, ∃ r : Req, ∃ a : Addr, ∃ n : BitVec 9, ∃ ls : List LineIn, ∃ c : Checked, (s.blk.isPeer r.src.toNat = false) ∧ (ReqIn s.blk b r a 0xC6 (bulkLens (n.toNat + 1)) .write c) ∧ (a.toNat % 128 = 0) ∧ (n.toNat + 1 ≤ 510) ∧ (lineIn (lineOf a.toNat) + n.toNat + 1 ≤ 16384) ∧ (ls.length = n.toNat + 1)) :=
  ⟨⟨wS wBlk, wAcc wBlk 0 0xC3 [144], wReq 1, 0, List.replicate 128 7, 1, false, ⟨0, true, 1, 0⟩, by and_intros <;> first | decide +kernel | (constructor <;> decide +kernel)⟩,
   ⟨wS wBlk, wAcc wBlk 0 0xC6 [128], wReq 1, 0, ⟨List.replicate 128 7, false⟩, ⟨0, true, 1, 0⟩, by and_intros <;> first | decide +kernel | (constructor <;> decide +kernel)⟩,
   ⟨wS wBlk, wAcc wBlk 0 0xC6 (bulkLens 2), wReq 1, 0, 1, [⟨zeros 128, false⟩, ⟨zeros 128, false⟩], ⟨0, true, 1, 0⟩, by and_intros <;> first | decide +kernel | (constructor <;> decide +kernel)⟩⟩

/-- The hypotheses of MirrorWritesAndWriteBacksAreTaken are met, clause by clause. -/
theorem witness_MirrorWritesAndWriteBacksAreTaken :
    (∃ s : State, ∃ r : Req, ∃ a : Addr, ∃ m : BitVec 128, ∃ x : LineIn, ∃ e : Nat × ExtEnt, (s.blk.dead = false) ∧ (s.blk.str.loaded = true) ∧ (s.blk.closing = false) ∧ (mhas (s.blk.view (.router (Fin.ofNat 4 (homeOf (lineOf a.toNat))))).eids r.src.toNat = true) ∧ (r.reservedSet = false) ∧ (a.toNat % 128 = 0) ∧ (s.blk.pwr.holding = false) ∧ ((s.blk.view (.home (Fin.ofNat 4 (homeOf (lineOf a.toNat))))).extAt (granOf (lineOf a.toNat)) = some e) ∧ (e.2.mirror = true) ∧ let y := (s.blk.reqIn (homeOf (lineOf a.toNat)) r.src.toNat 0xC3 [144] false).2; let b := y.accepted (lineOf a.toNat) r.src.toNat 0xC3 r.msgId.toNat r.traceId.toNat a.toNat (s.blk.partOf (lineOf a.toNat)); (LineFree b (lineOf a.toNat)) ∧ (b.huskAlive (lineOf a.toNat) = true) ∧ (b.coh.jobs = []) ∧ (b.rings.log.ext = none)) ∧
    (∃ s : State, ∃ r : Req, ∃ a : Addr, ∃ m : BitVec 128, ∃ x : LineIn, (s.blk.dead = false) ∧ (s.blk.str.loaded = true) ∧ (s.blk.closing = false) ∧ (mhas (s.blk.view (.router (Fin.ofNat 4 (homeOf (lineOf a.toNat))))).eids r.src.toNat = true) ∧ (r.reservedSet = false) ∧ (a.toNat % 128 = 0) ∧ (s.blk.pwr.holding = false) ∧ (∀ e, (s.blk.view (.home (Fin.ofNat 4 (homeOf (lineOf a.toNat))))).extAt (granOf (lineOf a.toNat)) = some e → e.2.mirror = false)) ∧
    (∃ s : State, ∃ r : Req, ∃ a : Addr, ∃ bs : Bytes, ∃ p : Bool, (s.blk.dead = false) ∧ (s.blk.str.loaded = true) ∧ (r.reservedSet = false) ∧ (a.toNat % 128 = 0) ∧ (s.blk.busy (lineOf a.toNat) = false) ∧ (s.blk.ownerOf (lineOf a.toNat) = some r.src.toNat) ∧ (s.blk.deadAt (homeOf (lineOf a.toNat)) r.src.toNat = false) ∧ let b := (s.blk.rspIn r.src.toNat 128).traceRx (homeOf (lineOf a.toNat)) r.src.toNat 0x04 r.msgId.toNat r.traceId.toNat a.toNat; (b.mirrors (lineOf a.toNat) = false) ∧ (b.huskAlive (lineOf a.toNat) = true) ∧ (bs.length = 128) ∧ (mhas (s.blk.view (.router (Fin.ofNat 4 (homeOf (lineOf a.toNat))))).eids r.src.toNat = true)) ∧
    (∃ s : State, ∃ r : Req, ∃ a : Addr, ∃ bs : Bytes, ∃ p : Bool, (s.blk.dead = false) ∧ (s.blk.str.loaded = true) ∧ (r.reservedSet = false) ∧ (a.toNat % 128 = 0) ∧ (s.blk.busy (lineOf a.toNat) = false) ∧ (s.blk.ownerOf (lineOf a.toNat) ≠ some r.src.toNat) ∧ (s.blk.pair.gap = false)) ∧
    (∃ s : State, ∃ r : Req, ∃ a : Addr, ∃ bs : Bytes, ∃ p : Bool, (s.blk.dead = false) ∧ (s.blk.str.loaded = true) ∧ (r.reservedSet = false) ∧ (a.toNat % 128 = 0) ∧ (s.blk.busy (lineOf a.toNat) = false) ∧ (s.blk.ownerOf (lineOf a.toNat) = some r.src.toNat) ∧ (s.blk.deadAt (homeOf (lineOf a.toNat)) r.src.toNat = false) ∧ let b := (s.blk.rspIn r.src.toNat 128).traceRx (homeOf (lineOf a.toNat)) r.src.toNat 0x04 r.msgId.toNat r.traceId.toNat a.toNat; (b.huskAlive (lineOf a.toNat) = false) ∧ (mhas (s.blk.view (.router (Fin.ofNat 4 (homeOf (lineOf a.toNat))))).eids r.src.toNat = true)) :=
  ⟨⟨wS wBlk, wReq 9, 16777216, 1, ⟨List.replicate 128 7, false⟩, (2, ⟨8, 4, 1, 0, 0, true⟩), by and_intros <;> first | decide +kernel | (constructor <;> decide +kernel)⟩,
   ⟨wS wBlk, wReq 9, 0, 1, ⟨List.replicate 128 7, false⟩, by decide +kernel⟩,
   ⟨wS wOwned, wReq 1, 0, List.replicate 128 7, false, by and_intros <;> decide +kernel⟩,
   ⟨wS wBlk, wReq 1, 0, List.replicate 128 7, false, by decide +kernel⟩,
   ⟨wS { wOwned with chans.husk := (List.range 24).map (fun c => (c, { lost := true })) }, wReq 1, 0, List.replicate 128 7, false, by and_intros <;> decide +kernel⟩⟩

/-- The hypotheses of AtomicsExecuteNearOrFar are met, clause by clause. -/
theorem witness_AtomicsExecuteNearOrFar :
    (∃ s : State, ∃ b : Blk, ∃ r : Req, ∃ a : Addr, ∃ op : BitVec 4, ∃ sz : BitVec 2, ∃ rec : Bool, ∃ tag : Word, ∃ pl : Bytes, ∃ c : Checked, (ReqIn s.blk b r a 0xC4 [pl.length] .atomic c) ∧ (LineFree b (lineOf a.toNat)) ∧ (b.huskAlive (lineOf a.toNat) = true) ∧ (b.mirrors (lineOf a.toNat) = false) ∧ ((b.lineVal (lineOf a.toNat)).2 = false) ∧ (rec = false → ((mget b.coh.agents r.src.toNat).map (·.registered)).getD false = true → c.canWrite = true → op.toNat < 10 → 2 ≤ (b.predict (lineOf a.toNat) c.part r.src.toNat).1) ∧ (rec = true → ∀ e ∈ b.ratLive (homeOf (lineOf a.toNat)), e.eid = r.src.toNat → e.a.atag ≠ tag) ∧ let m := atmOp a.toNat op.toNat sz.toNat rec tag pl; let x := (s.blk.reqIn (homeOf (lineOf a.toNat)) r.src.toNat 0xC4 [pl.length] false).2; (x.atmCheck (homeOf (lineOf a.toNat)) r.src.toNat m c = 0)) ∧
    (∃ s : State, ∃ b : Blk, ∃ r : Req, ∃ a : Addr, ∃ op : BitVec 4, ∃ sz : BitVec 2, ∃ tag : Word, ∃ pl : Bytes, ∃ c : Checked, ∃ g : Agent, (ReqIn s.blk b r a 0xC4 [pl.length] .atomic c) ∧ (LineFree b (lineOf a.toNat)) ∧ (mget b.coh.agents r.src.toNat = some g) ∧ (b.huskAlive (lineOf a.toNat) = true) ∧ (g.registered = true) ∧ (c.canWrite = true) ∧ (op.toNat < 10) ∧ ((b.predict (lineOf a.toNat) c.part r.src.toNat).1 < 2) ∧ let m := atmOp a.toNat op.toNat sz.toNat false tag pl; let x := (s.blk.reqIn (homeOf (lineOf a.toNat)) r.src.toNat 0xC4 [pl.length] false).2; (x.atmCheck (homeOf (lineOf a.toNat)) r.src.toNat m c = 0)) ∧
    (∃ s : State, ∃ r : Req, ∃ a : Addr, ∃ op : BitVec 4, ∃ sz : BitVec 2, ∃ tag : Word, ∃ pl : Bytes, ∃ rec : Bool, ∃ st : Nat, (ReqFails s.blk r a 0xC4 [pl.length] .atomic st) ∧ (st ≠ 0x19)) :=
  ⟨⟨wS wNone, wAcc wNone 0 0xC4 [16], wReq 1, 0, 0, 1, false, 0, zeros 16, ⟨0, true, 1, 0⟩, by and_intros <;> first | decide +kernel | (constructor <;> decide +kernel)⟩,
   ⟨wS wBlk, wAcc wBlk 0 0xC4 [16], wReq 1, 0, 9, 1, 0, zeros 16, ⟨0, true, 1, 0⟩, ⟨0, true, false⟩, by and_intros <;> first | decide +kernel | (constructor <;> decide +kernel)⟩,
   ⟨wS wBlk, wReq 1, 0x2000000, 9, 1, 0, zeros 16, false, 0x12, by constructor <;> decide +kernel, by decide +kernel⟩⟩

/-- The hypotheses of AtomicOperationsCompute are met, clause by clause. -/
theorem witness_AtomicOperationsCompute :
    ∃ n : Nat, ∃ old : Nat, ∃ x : Nat, ∃ cmp : Nat, (0 < n) ∧ (old < 2 ^ (8 * n)) ∧ (x < 2 ^ (8 * n)) ∧ (cmp < 2 ^ (8 * n)) ∧ ∃ i : Nat, True :=
  ⟨1, 255, 1, 128, by decide +kernel, by decide +kernel, by decide +kernel, (by decide +kernel), 0, trivial⟩

/-- The hypotheses of SnoopResponsesAreTaken are met, clause by clause. -/
theorem witness_SnoopResponsesAreTaken :
    (∃ s : State, ∃ r : Req, ∃ a : Addr, ∃ id : BitVec 16, ∃ x : Txn, (SnoopWaits s.blk r a id x) ∧ let rest := x.snoops.filter (fun y => y.eid != r.src.toNat); (rest ≠ []) ∧ ∃ bs : Bytes, ∃ p : Bool, True) ∧
    (∃ s : State, ∃ r : Req, ∃ a : Addr, ∃ id : BitVec 16, ∃ x : Txn, (SnoopWaits s.blk r a id x) ∧ let rest := x.snoops.filter (fun y => y.eid != r.src.toNat); (rest ≠ []) ∧ (x.data = none)) ∧
    (∃ s : State, ∃ i : Instr, ∃ r : Req, ∃ a : Addr, ∃ id : BitVec 16, (s.blk.dead = false) ∧ (s.blk.str.loaded = true) ∧ (r.reservedSet = true ∨ a.toNat % 128 ≠ 0) ∧ (i = .rspi r a id ∨ i = .rsps r a id ∨ i = .rspcur r a id ∨ i = .rspwbpend r a id ∨ i = .cmpack r a id)) ∧
    (∃ s : State, ∃ r : Req, ∃ a : Addr, ∃ id : BitVec 16, ∃ x : Txn, (s.blk.dead = false) ∧ (s.blk.str.loaded = true) ∧ (r.reservedSet = false) ∧ (a.toNat % 128 = 0) ∧ (s.blk.coh.txns = [x]) ∧ (x.line = lineOf a.toNat) ∧ (x.who = .fabric r.src) ∧ (∃ n, x.phase = .ack id.toNat n)) :=
  ⟨⟨wS (wTxn (wSnp [1, 2])), wReq 1, 0, 9, wSnp [1, 2], by constructor <;> decide +kernel, by decide +kernel, zeros 128, false, trivial⟩,
   ⟨wS (wTxn (wSnp [1, 2])), wReq 1, 0, 9, wSnp [1, 2], by constructor <;> decide +kernel, by decide +kernel⟩,
   ⟨wS wBlk, .rspi (wReq 1) 1 9, wReq 1, 1, 9, by decide +kernel⟩,
   ⟨wS (wTxn wAck), wReq 2, 0, 4, wAck, by decide +kernel, by decide +kernel, by decide +kernel, (by decide +kernel), by decide +kernel, by decide +kernel, by decide +kernel, ⟨0, rfl⟩⟩⟩

/-- The hypotheses of HomeAgentsWorkOn are met, clause by clause. -/
theorem witness_HomeAgentsWorkOn :
    (∃ s : State, ∃ q : Quad, ∃ e : QEnt, (s.blk.dead = false) ∧ (s.blk.nextQueued q = some e) ∧ (s.blk.rings.waits.contains e = false)) ∧
    (∃ s : State, ∃ q : Quad, ∃ e : QEnt, ∃ src : Eid, (s.blk.dead = false) ∧ (s.blk.nextQueued q = some e) ∧ (s.blk.rings.waits.contains e = false) ∧ (e.txn.op = .rdonce) ∧ (e.txn.who = .fabric src) ∧ (e.txn.job = none) ∧ (e.txn.data = none) ∧ (mget s.blk.coh.dir e.txn.line = none) ∧ (s.blk.fencedTxn e.txn = false) ∧ (s.blk.pool.inj = []) ∧ (mhas (s.blk.view (.router (Fin.ofNat 4 (homeOf e.txn.line)))).eids src.toNat = true)) ∧
    (∃ s : State, ∃ q : Quad, ∃ e : QEnt, ∃ bs : Bytes, ∃ m : BitVec 128, (s.blk.dead = false) ∧ (s.blk.nextQueued q = some e) ∧ (s.blk.rings.waits.contains e = true) ∧ (e.txn.op = .wrline bs m false) ∧ (e.txn.who = .dev) ∧ (e.txn.job = none) ∧ (e.txn.data = none) ∧ (mget s.blk.coh.dir e.txn.line = none) ∧ (s.blk.pool.inj = []) ∧ (s.blk.huskAlive e.txn.line = true) ∧ (s.blk.mirrorsFor e.txn.twin e.txn.line = false) ∧ (s.blk.fencedTxn e.txn = false) ∧ (RingsApart s.blk)) ∧
    (∃ s : State, ∃ q : Quad, (s.blk.nextQueued q = none)) ∧
    (∃ s : State, ∃ q : Quad, ∃ e : Eid, ∃ tag : Word, (s.blk.dead = false)) ∧
    (∃ s : State, ∃ q : Quad, ∃ a : Addr, ∃ e : Eid, ∃ x : Txn, ∃ y : SnoopOut, (s.blk.dead = false) ∧ (s.blk.coh.txns = [x]) ∧ (x.line = lineOf a.toNat) ∧ (homeOf x.line = q.val) ∧ (x.snoops = [y]) ∧ (y.eid = e.toNat) ∧ (y.wbPend = false) ∧ (y.sentAt + s.blk.snoopTimeout q ≤ s.blk.tb) ∧ (tget (fun _ => 0) s.blk.coh.timeouts (q * 65536 + e.toNat) < 2)) ∧
    (∃ s : State, ∃ q : Quad, ∃ e : Eid, (s.blk.dead = false) ∧ ((q.val, e.toNat) ∈ s.blk.coh.suspendPend)) ∧
    (∃ s : State, ∃ q : Quad, ∃ e : Eid, ∃ w : Walk, ∃ b0 : Blk, (s.blk.dead = false) ∧ (w.home = q.val) ∧ (w.eid = e.toNat) ∧ (s.blk.coh.walks = [w]) ∧ (s.blk.takeSlot (1000 + q) (s.blk.field (Reg.haReclaimCap q) 0 7 * s.blk.grainSlots * 32 / 100) = some b0)) :=
  ⟨⟨wS { wBlk with coh.queue := [⟨0, wSnp [], 0, none⟩] }, 0, ⟨0, wSnp [], 0, none⟩, by decide +kernel⟩,
   ⟨wS { wBlk with coh.queue := [⟨0, { wSnp [] with op := .rdonce }, 0, none⟩] }, 0, ⟨0, { wSnp [] with op := .rdonce }, 0, none⟩, 2, by decide +kernel⟩,
   ⟨wS { wBlk with rings.waits := [wDevEnt] }, 0, wDevEnt, zeros 128, 1, by and_intros <;> first | decide +kernel | (constructor <;> decide +kernel)⟩,
   ⟨wS wBlk, 0, by decide +kernel⟩,
   ⟨wS wBlk, 0, 1, 0, by decide +kernel⟩,
   ⟨wS { wTxn (wSnp [1]) with tb := 1000000000 }, 0, 0, 1, wSnp [1], ⟨1, 9, .i, 0, false⟩, by decide +kernel⟩,
   ⟨wS { wBlk with coh.suspendPend := [(2, 1)] }, 2, 1, by decide +kernel⟩,
   ⟨wS { wBlk with frozen := true, coh.walks := [⟨0, 1, 0⟩] }, 0, 1, ⟨0, 1, 0⟩, (({ wBlk with frozen := true, coh.walks := [⟨0, 1, 0⟩] } : Blk).takeSlot 1000 0).getD {}, by decide +kernel, by decide +kernel, by decide +kernel, (by decide +kernel), rfl⟩⟩

/-- The hypotheses of ControlMessagesAreTaken are met, clause by clause. -/
theorem witness_ControlMessagesAreTaken :
    (∃ s : State, ∃ r : Req, ∃ b : Blk, ∃ a : Addr, ∃ thr : BitVec 4, ∃ ck : Word, (thr.toNat < 4) ∧ (a.toNat % 128 = 0) ∧ (CtrlIn s.blk b thr.toNat r 0xD1 0 false) ∧ (b.str.loaded = true) ∧ (b.leaseStatus r.src.toNat = 0) ∧ ((b.thr thr.toNat).wait.length < 16)) ∧
    (∃ s : State, ∃ r : Req, ∃ b : Blk, ∃ a : Addr, ∃ thr : BitVec 4, ∃ ck : Word, (thr.toNat < 4) ∧ (a.toNat % 128 = 0) ∧ (CtrlIn s.blk b thr.toNat r 0xD1 0 false) ∧ (b.str.loaded = true) ∧ (b.leaseStatus r.src.toNat = 0) ∧ (16 ≤ (b.thr thr.toNat).wait.length)) ∧
    (∃ s : State, ∃ r : Req, ∃ b : Blk, ∃ a : Addr, ∃ thr : BitVec 4, ∃ ck : Word, (thr.toNat < 4) ∧ (a.toNat % 128 = 0) ∧ (CtrlIn s.blk b thr.toNat r 0xD1 0 false) ∧ (b.str.loaded = true) ∧ (b.leaseStatus r.src.toNat ≠ 0)) ∧
    (∃ s : State, ∃ r : Req, ∃ b : Blk, ∃ slot : SlotIx, ∃ ck : Word, ∃ z : Sheaf, (CtrlIn s.blk b (slot.val / 64) r 0xD5 0 true) ∧ (b.leaseStatus r.src.toNat = 0) ∧ (mget b.work.sheafs slot = some z) ∧ (z.cookie = ck.toNat) ∧ (z.part = b.hostPart r.src.toNat) ∧ (b.lastEnded slot.val z = none) ∧ (z.abort = none)) ∧
    (∃ s : State, ∃ r : Req, ∃ b : Blk, ∃ slot : SlotIx, ∃ ck : Word, ∃ z : Sheaf, (CtrlIn s.blk b (slot.val / 64) r 0xD5 0 true) ∧ (b.leaseStatus r.src.toNat = 0) ∧ (mget b.work.sheafs slot = some z) ∧ (z.cookie = ck.toNat) ∧ (z.part = b.hostPart r.src.toNat) ∧ ∃ st : Nat, (b.lastEnded slot.val z = some st)) ∧
    (∃ s : State, ∃ r : Req, ∃ b : Blk, ∃ slot : SlotIx, ∃ ck : Word, (CtrlIn s.blk b (slot.val / 64) r 0xD5 0 true) ∧ (b.leaseStatus r.src.toNat = 0) ∧ (mget b.work.sheafs slot = none)) ∧
    (∃ s : State, ∃ r : Req, ∃ b : Blk, ∃ g : Agent, ∃ l : Lease, (CtrlIn s.blk b 0 r 0xD6 0 false) ∧ (((mget (b.view (.home 0)).hosts r.src.toNat).map (·.agent)).getD false = true) ∧ (mget b.coh.agents r.src.toNat = some g) ∧ (mget b.ext.leases r.src.toNat = some l) ∧ (l.lapsed = false) ∧ (l.live = true) ∧ (b.walking r.src.toNat = false)) ∧
    (∃ s : State, ∃ r : Req, ∃ b : Blk, (CtrlIn s.blk b 0 r 0xD6 0 false) ∧ (mget b.coh.agents r.src.toNat = none ∨ ((mget (b.view (.home 0)).hosts r.src.toNat).map (·.agent)).getD false = false)) ∧
    (∃ s : State, ∃ r : Req, ∃ n : Word, ∃ ro : BitVec 2, ∃ tm : DWord, (s.blk.dead = false) ∧ (s.blk.str.loaded = true) ∧ (s.blk.pairSource r.src.toNat = true) ∧ (r.reservedSet = false) ∧ (r.src.toNat = s.blk.str.run.pair.witness)) ∧
    (∃ s : State, ∃ r : Req, ∃ n : Word, ∃ ro : BitVec 2, ∃ tm : DWord, (s.blk.dead = false) ∧ (s.blk.str.loaded = true) ∧ (s.blk.pairSource r.src.toNat = true) ∧ (r.reservedSet = false) ∧ (r.src.toNat ≠ s.blk.str.run.pair.witness)) ∧
    (∃ s : State, ∃ r : Req, ∃ n : Word, ∃ ro : BitVec 2, ∃ tm : DWord, (s.blk.dead = false) ∧ (s.blk.str.loaded = true) ∧ (s.blk.pairSource r.src.toNat = false)) ∧
    (∃ s : State, ∃ r : Req, ∃ p : Bytes, (OrderIn s.blk r p) ∧ (u8 p 8 = 1) ∧ (s.blk.pair.role = 2) ∧ (s.blk.pair.inSync = true) ∧ (s.blk.pair.fenced = false) ∧ (s.blk.pwr.holding = false)) ∧
    (∃ s : State, ∃ r : Req, ∃ p : Bytes, (OrderIn s.blk r p) ∧ (u8 p 8 = 2) ∧ (s.blk.pair.role = 1) ∧ (s.blk.mgmt.failed = false)) :=
  ⟨⟨wS wBlk, wReq 1, wCtrl wBlk 3 0xD1 0 false, 0, 3, 5, by and_intros <;> first | decide +kernel | (constructor <;> decide +kernel)⟩,
   ⟨wS { wBlk with work.thr := [(3, { wait := List.replicate 16 wSub })] }, wReq 1, wCtrl { wBlk with work.thr := [(3, { wait := List.replicate 16 wSub })] } 3 0xD1 0 false, 0, 3, 5, by and_intros <;> first | decide +kernel | (constructor <;> decide +kernel)⟩,
   ⟨wS { wBlk with ext.leases := [] }, wReq 1, wCtrl { wBlk with ext.leases := [] } 3 0xD1 0 false, 0, 3, 5, by and_intros <;> first | decide +kernel | (constructor <;> decide +kernel)⟩,
   ⟨wS { wBlk with work.sheafs := [(64, wSheaf [wTask])] }, wReq 1, wCtrl { wBlk with work.sheafs := [(64, wSheaf [wTask])] } 1 0xD5 0 true, 64, 5, wSheaf [wTask], by constructor <;> decide +kernel, by decide +kernel⟩,
   ⟨wS { wBlk with work.sheafs := [(64, wClosed)] }, wReq 1, wCtrl { wBlk with work.sheafs := [(64, wClosed)] } 1 0xD5 0 true, 64, 5, wClosed, by constructor <;> decide +kernel, by decide +kernel, by decide +kernel, by decide +kernel, (by decide +kernel), 0, by decide +kernel⟩,
   ⟨wS wBlk, wReq 1, wCtrl wBlk 1 0xD5 0 true, 64, 5, by constructor <;> decide +kernel, by decide +kernel⟩,
   ⟨wS wBlk, wReq 1, wCtrl wBlk 0 0xD6 0 false, ⟨0, true, false⟩, ⟨true, false, 500000000⟩, by constructor <;> decide +kernel, by decide +kernel⟩,
   ⟨wS wNone, wReq 1, wCtrl wNone 0 0xD6 0 false, by constructor <;> decide +kernel, by decide +kernel⟩,
   ⟨wS (wPair 1), wReq 8, 1, 0, 0, by decide +kernel⟩,
   ⟨wS (wPair 1), wReq 9, 1, 0, 0, by decide +kernel⟩,
   ⟨wS (wPair 1), wReq 1, 1, 0, 0, by decide +kernel⟩,
   ⟨wS (wPair 2), wReq 8, wOrder 1, by constructor <;> decide +kernel, by decide +kernel⟩,
   ⟨wS (wPair 1), wReq 8, wOrder 2, by constructor <;> decide +kernel, by decide +kernel⟩⟩

/-- The hypotheses of ReadErrorsAreCorrectedOrPoisoned are met, clause by clause. -/
theorem witness_ReadErrorsAreCorrectedOrPoisoned :
    (∃ s : State, ∃ c : HuskCh, ∃ line : Nat, ∃ l : Nat, ∃ rank : Fin 8, ∃ x : LaneIx, (s.blk.dead = false) ∧ (s.blk.str.loaded = true) ∧ (RingsApart s.blk) ∧ (s.blk.stored c line = true) ∧ (s.blk.inLch line = true) ∧ (huskHolds s.blk.mode c line = .data l) ∧ (s.blk.pos l = (c.val, line)) ∧ (s.blk.pool.inj = []) ∧ (s.blk.markOf c rank = none)) ∧
    (∃ s : State, ∃ c : HuskCh, ∃ line : Nat, ∃ l : Nat, ∃ rank : Fin 8, ∃ x : LaneIx, ∃ y : LaneIx, (s.blk.dead = false) ∧ (s.blk.str.loaded = true) ∧ (RingsApart s.blk) ∧ (s.blk.mode = 0) ∧ (s.blk.stored c line = true) ∧ (s.blk.inLch line = true) ∧ (huskHolds 0 c line = .data l) ∧ (s.blk.pos l = (c.val, line)) ∧ (s.blk.pool.inj = []) ∧ (s.blk.markOf c rank = none) ∧ (x ≠ y) ∧ (s.blk.inGrain l = false)) ∧
    (∃ s : State, ∃ ch : GrainCh, ∃ line : Nat, ∃ q : Nat, ∃ f : Nat, ∃ n : Nat, ∃ g : Nat, ∃ x : LaneIx, (s.blk.dead = false) ∧ (s.blk.str.loaded = true) ∧ (RingsApart s.blk) ∧ (line < 2097152) ∧ (grainHolds ch line = .frame q f n) ∧ (s.blk.granInFrame q f = some g) ∧ (s.blk.inGrain (lineOfGran g + n) = true) ∧ (s.blk.pool.inj = [])) :=
  ⟨⟨wS { wBlk with pool.capGib := 512 }, 0, 0, 0, 0, 3, by and_intros <;> first | decide +kernel | (constructor <;> decide +kernel)⟩,
   ⟨wS { wBlk with pool.capGib := 512 }, 0, 0, 0, 0, 3, 4, by and_intros <;> first | decide +kernel | (constructor <;> decide +kernel)⟩,
   ⟨wS { wBlk with pool.frames := [(0, 0)] }, 0, 65536, 0, 0, 0, 0, 3, by and_intros <;> first | decide +kernel | (constructor <;> decide +kernel)⟩⟩

/-- The hypotheses of ScrubSparingAndIntegrityCommandsAct are met, clause by clause. -/
theorem witness_ScrubSparingAndIntegrityCommandsAct :
    (∃ s : State, ∃ c : HuskCh, (s.blk.dead = false) ∧ (s.blk.str.loaded = true) ∧ (s.blk.asleep = false) ∧ (s.blk.mode = 0) ∧ (scrubDue s.blk.tb (s.blk.husk c).scrubAt (s.blk.field (Reg.hskCfg c) 0 8 * 3600000000000) (lchOf s.blk.pool.capGib) = true) ∧ ((s.blk.husk c).lost = false) ∧ (s.blk.inLch ((s.blk.husk c).scrub + 1) = true) ∧ (s.blk.pool.inj = [])) ∧
    (∃ s : State, ∃ c : HuskCh, (scrubDue s.blk.tb (s.blk.husk c).scrubAt (s.blk.field (Reg.hskCfg c) 0 8 * 3600000000000) (lchOf s.blk.pool.capGib) = false)) ∧
    (∃ s : State, ∃ q : Quad, (s.blk.dead = false) ∧ (s.blk.str.loaded = true) ∧ (s.blk.asleep = false) ∧ (scrubDue s.blk.tb (tget (fun _ => 0) s.blk.chans.scrubGAt q) (s.blk.field (Reg.grnCfg q) 0 8 * 60000000000) (32 * 2097152) = true) ∧ (s.blk.pool.inj = []) ∧ let n := tget (fun _ => 0) s.blk.chans.scrubG q; (∀ k f i, grainHolds (32 * q.val + n % 32) (n / 32) = .frame k f i → s.blk.granInFrame k f = none) ∧ (n + 1 < 32 * 2097152)) ∧
    (∃ s : State, ∃ ch : GrainCh, ∃ row : Nat, (s.blk.dead = false) ∧ (s.blk.str.loaded = true) ∧ (s.blk.asleep = false) ∧ (s.blk.pool.inj = []) ∧ (row ∈ (s.blk.grain ch).pending) ∧ ((s.blk.grain ch).spared.length < 1024)) ∧
    (∃ s : State, ∃ c : HuskCh, (s.blk.dead = false) ∧ (s.blk.str.loaded = true) ∧ (s.blk.asleep = false) ∧ (s.blk.pool.inj = []) ∧ ((s.blk.husk c).rebuilding = true) ∧ (s.blk.busyAt c (s.blk.husk c).cursor = false) ∧ (s.blk.inLch ((s.blk.husk c).cursor + 1) = true) ∧ ((s.blk.takeRebuild (s.blk.field (Reg.hskCfg c) 8 7 * s.blk.huskSlots / 100) ((s.blk.stookOf c).1.filter (fun k => !(s.blk.husk k).lost))).isSome = true)) ∧
    (∃ s : State, ∃ c : CmdId, ∃ r : CmdRec, ∃ n : Nat, (MgmtRuns s.blk c 0x60 r) ∧ (r.arg 0x10 1 < 2) ∧ (r.arg 0x11 1 < 3) ∧ (r.arg 0x12 1 < 3) ∧ (r.arg 0x08 8 % 128 = 0) ∧ (r.arg 0x18 8 % 128 = 0) ∧ (r.arg 0x08 8 < 2 ^ 48) ∧ (r.arg 0x18 8 + 160 < 2 ^ 48) ∧ let l := lineOf (r.arg 0x08 8); ((s.blk.check .dev .read l).status = 0) ∧ ((s.blk.check .dev .read (lineOf (r.arg 0x18 8))).status = 0) ∧ ((s.blk.check .dev .read (lineOf (r.arg 0x18 8) + 1)).status = 0) ∧ ((s.blk.extRt (s.blk.check .dev .read l).ext).state = .active) ∧ (s.blk.injectCopy l (r.arg 0x10 1) (r.arg 0x11 1) = some n) ∧ (s.blk.busy l = false)) ∧
    (∃ s : State, ∃ c : CmdId, ∃ r : CmdRec, (MgmtRuns s.blk c 0x61 r) ∧ (r.arg 0x08 1 < 24) ∧ let ch := r.arg 0x08 1; let gone := s.blk.stookGone ch + b2n (!(s.blk.husk ch).lost && !(s.blk.husk ch).rebuilding); (gone ≤ (s.blk.stookOf ch).2)) ∧
    (∃ s : State, ∃ c : CmdId, ∃ r : CmdRec, (MgmtRuns s.blk c 0x61 r) ∧ (r.arg 0x08 1 < 24) ∧ let ch := r.arg 0x08 1; let gone := s.blk.stookGone ch + b2n (!(s.blk.husk ch).lost && !(s.blk.husk ch).rebuilding); ((s.blk.stookOf ch).2 < gone)) ∧
    (∃ s : State, ∃ c : CmdId, ∃ r : CmdRec, ∃ ds : List Dimm, (MgmtRuns s.blk c 0x62 r) ∧ (r.arg 0x08 1 < 24) ∧ ((s.blk.husk (r.arg 0x08 1)).lost = true) ∧ (dimmsOk ds = true) ∧ (s.blk.pool.capGib ≤ dimmsGib ds) ∧ (speedBins.getD s.blk.pool.speed 4800 ≤ dimmsMts ds)) :=
  ⟨⟨wS (wReg { wBlk with pool.capGib := 512 } (Reg.hskCfg 0) 1), 0, by decide +kernel⟩,
   ⟨wS wBlk, 0, by decide +kernel⟩,
   ⟨wS (wReg wBlk (Reg.grnCfg 0) 1), 0, by decide +kernel, by decide +kernel, by decide +kernel, (by decide +kernel), by decide +kernel, fun _ _ _ _ => rfl, by decide +kernel⟩,
   ⟨wS { wBlk with chans.grain := [(2, { pending := [5] })] }, 2, 5, by decide +kernel⟩,
   ⟨wS { wBlk with pool.capGib := 512, chans.husk := [(1, { rebuilding := true, cursor := 4 })] }, 1, by decide +kernel⟩,
   ⟨wCmd wBlk (wRec 0x60 [(8, toLe 8 25165824), (0x18, toLe 8 8388608)]), wC, wRec 0x60 [(8, toLe 8 25165824), (0x18, toLe 8 8388608)], 0, by constructor <;> decide +kernel, by decide +kernel⟩,
   ⟨wCmd { wBlk with str.run.stooks := [(0, ⟨1, 0⟩)] } (wRec 0x61 []), wC, wRec 0x61 [], by and_intros <;> first | decide +kernel | (constructor <;> decide +kernel)⟩,
   ⟨wCmd wBlk (wRec 0x61 []), wC, wRec 0x61 [], by and_intros <;> first | decide +kernel | (constructor <;> decide +kernel)⟩,
   ⟨wCmd { wBlk with chans.husk := [(0, { lost := true })] } (wRec 0x62 []), wC, wRec 0x62 [], [⟨256, true, 6400, 40, 40, 80⟩, ⟨256, true, 6400, 40, 40, 80⟩], by constructor <;> decide +kernel, by decide +kernel⟩⟩

/-- The hypotheses of TasksAreDispatched are met, clause by clause. -/
theorem witness_TasksAreDispatched :
    (∃ s : State, ∃ k : TillerIx, ∃ part : Nat, ∃ slot : Nat, ∃ i : Nat, ∃ x : TaskRt, (s.blk.halted = false) ∧ (s.blk.idleFor k = some part) ∧ (s.blk.firstReady k.val part = some (slot, i, x)) ∧ (s.blk.task slot i = some x)) ∧
    (∃ s : State, ∃ k : TillerIx, (s.blk.idleFor k = none)) ∧
    (∃ s : State, ∃ k : TillerIx, ∃ slot : SlotIx, ∃ i : Nat, ∃ h : HostResult, ∃ z : Sheaf, ∃ x : TaskRt, ∃ r : Run, ∃ d : Bytes, ∃ m : Map StoreLine, ∃ b : Blk, (s.blk.halted = false) ∧ (mget s.blk.work.sheafs slot = some z) ∧ (s.blk.task slot i = some x) ∧ (z.abort = none) ∧ (z.closed = none) ∧ (x.state = .running (some k.val)) ∧ ((s.blk.til k).run = some r) ∧ (r.slot = slot.val) ∧ (r.task = i) ∧ (r.desc = none) ∧ (r.ended = none) ∧ (s.blk.rereadPart slot i z [] (z.descOff + 128 * i) 128 h = (.bytes d, m, b)) ∧ (checkValue d x.succ = x.check)) ∧
    (∃ s : State, ∃ k : TillerIx, ∃ slot : SlotIx, ∃ i : Nat, ∃ h : HostResult, ∃ z : Sheaf, ∃ x : TaskRt, ∃ r : Run, ∃ d : Bytes, ∃ m : Map StoreLine, ∃ b : Blk, (s.blk.halted = false) ∧ (mget s.blk.work.sheafs slot = some z) ∧ (s.blk.task slot i = some x) ∧ (z.abort = none) ∧ (z.closed = none) ∧ (x.state = .running (some k.val)) ∧ ((s.blk.til k).run = some r) ∧ (r.slot = slot.val) ∧ (r.task = i) ∧ (r.desc = none) ∧ (r.ended = none) ∧ (s.blk.rereadPart slot i z [] (z.descOff + 128 * i) 128 h = (.bytes d, m, b)) ∧ (checkValue d x.succ ≠ x.check)) ∧
    (∃ s : State, ∃ slot : SlotIx, ∃ i : Nat, ∃ x : TaskRt, ∃ z : Sheaf, (s.blk.dead = false) ∧ (s.blk.thrRuns = true) ∧ (mget s.blk.work.sheafs slot = some z) ∧ (s.blk.thrNext (slot.val / 64) = some (slot.val, i, x)) ∧ (x.reread = true) ∧ (x.kind = 0xE)) ∧
    (∃ s : State, ∃ slot : SlotIx, ∃ i : Nat, ∃ x : TaskRt, ∃ z : Sheaf, (s.blk.dead = false) ∧ (s.blk.thrRuns = true) ∧ (mget s.blk.work.sheafs slot = some z) ∧ (s.blk.thrNext (slot.val / 64) = some (slot.val, i, x)) ∧ (x.reread = true) ∧ (x.kind = 0xF) ∧ (u8 (readDesc x.desc).raw 0x21 = 0)) ∧
    (∃ s : State, ∃ slot : SlotIx, ∃ i : Nat, ∃ x : TaskRt, ∃ z : Sheaf, (s.blk.dead = false) ∧ (s.blk.thrRuns = true) ∧ (mget s.blk.work.sheafs slot = some z) ∧ (s.blk.thrNext (slot.val / 64) = some (slot.val, i, x)) ∧ (x.reread = true) ∧ (x.kind = 0xF) ∧ (x.state = .ready) ∧ let d := readDesc x.desc; (u8 d.raw 0x21 ≠ 0) ∧ let a : AtmOp := { addr := d.opb, op := if u8 d.raw 0x21 = 1 then 0 else 6, size := 1, operand := d.opc, compare := 0, record := false, atag := 0 }; let st := (s.blk.atomicInt (notifyReq slot i z.part x) a).1; (st ≠ 0)) :=
  ⟨⟨wS { wBlk with work.sheafs := [(0, wSheaf [{ wTask with state := .ready }])] }, 0, 1, 0, 0, { wTask with state := .ready }, by decide +kernel⟩,
   ⟨wS { wBlk with work.tillers := [(0, { clearing := true })] }, 0, by decide +kernel⟩,
   ⟨wS (wTil wRun [wChecked (checkValue (zeros 128) [])]), 0, 0, 0, .fault, wSheaf [wChecked (checkValue (zeros 128) [])], wChecked (checkValue (zeros 128) []), wRun, zeros 128, (wReread (wChecked (checkValue (zeros 128) []))).2.1, (wReread (wChecked (checkValue (zeros 128) []))).2.2, by decide +kernel, rfl, rfl, by decide +kernel, by decide +kernel, by decide +kernel, (by decide +kernel), by decide +kernel, by decide +kernel, by decide +kernel, (by decide +kernel), rfl, rfl⟩,
   ⟨wS (wTil wRun [wChecked (checkValue (zeros 128) [] + 1)]), 0, 0, 0, .fault, wSheaf [wChecked (checkValue (zeros 128) [] + 1)], wChecked (checkValue (zeros 128) [] + 1), wRun, zeros 128, (wReread (wChecked (checkValue (zeros 128) [] + 1))).2.1, (wReread (wChecked (checkValue (zeros 128) [] + 1))).2.2, by decide +kernel, rfl, rfl, by decide +kernel, by decide +kernel, by decide +kernel, (by decide +kernel), by decide +kernel, by decide +kernel, by decide +kernel, (by decide +kernel), rfl, wNe _⟩,
   ⟨wS { wBlk with work.sheafs := [(0, wSheaf [{ wTask with kind := 0xE, state := .ready, reread := true }])] }, 0, 0, { wTask with kind := 0xE, state := .ready, reread := true }, wSheaf [{ wTask with kind := 0xE, state := .ready, reread := true }], by decide +kernel⟩,
   ⟨wS { wBlk with work.sheafs := [(0, wSheaf [{ wTask with kind := 0xF, state := .ready, reread := true }])] }, 0, 0, { wTask with kind := 0xF, state := .ready, reread := true }, wSheaf [{ wTask with kind := 0xF, state := .ready, reread := true }], by decide +kernel⟩,
   ⟨wS { wBlk with work.sheafs := [(0, wSheaf [wNotify])] }, 0, 0, wNotify, wSheaf [wNotify], by and_intros <;> decide +kernel⟩⟩

/-- The hypotheses of RowTasksWriteTheirResults are met, clause by clause. -/
theorem witness_RowTasksWriteTheirResults :
    ∃ s : State, ∃ k : TillerIx, ∃ i : Instr, ∃ r : Run, ∃ r2 : Run, ∃ db : Bytes, ∃ l : Nat, ∃ e : ResLine, ((i, r.kind) ∈ [(Instr.gather k, 0x3), (Instr.scatter k, 0x4), (Instr.quant k, 0x5), (Instr.dequant k, 0x6), (Instr.reduce k, 0x7), (Instr.topk k, 0x8), (Instr.elemwise k, 0x9), (Instr.norm k, 0xA), (Instr.copy k, 0xB), (Instr.fill k, 0xC), (Instr.digest k, 0xD)]) ∧ (Runs s.blk k r db) ∧ ((readDesc db).kind = r.kind) ∧ (LastRow s.blk r r2 (readDesc db)) ∧ (r2.res = [(l, e)]) ∧ (r.kind = 0x4 ∨ e.mask = resMask (readDesc db).resRegions l) ∧ (WritesNow s.blk (tilReq k r2) l) :=
  ⟨wS (wTil (wGo 0xC wFill) [wRunning]), 0, .fill 0, wGo 0xC wFill, wFilled, wFill, 2, ((wFilled.res.head?.map (·.2)).getD {}), by decide +kernel, by constructor <;> decide +kernel, by decide +kernel, by constructor <;> decide +kernel, by decide +kernel, by decide +kernel, ⟨by decide +kernel, by constructor <;> decide +kernel, by decide +kernel, by decide +kernel, by constructor <;> decide +kernel⟩⟩

/-- The hypotheses of TillersIssueFoldAndEnd are met, clause by clause. -/
theorem witness_TillersIssueFoldAndEnd :
    (∃ s : State, ∃ k : TillerIx, ∃ i : Instr, ∃ r : Run, ∃ db : Bytes, ∃ e : WinEnt, (i = .entryFold k ∨ (i, r.kind) ∈ [(Instr.matvec k, 0x0), (Instr.matmul k, 0x1), (Instr.attend k, 0x2)]) ∧ (Runs s.blk k r db) ∧ (HeadFolds r (readDesc db) e []) ∧ (e.index + 1 = (readDesc db).indices)) ∧
    (∃ s : State, ∃ k : TillerIx, ∃ r : Run, ∃ db : Bytes, ∃ e : WinEnt, ∃ rest : List WinEnt, ∃ p : DotPair, ∃ a : Word, (Runs s.blk k r db) ∧ (HeadFolds r (readDesc db) e rest) ∧ (((readDesc db).index e.index).b + 1 ≠ (readDesc db).k / 32) ∧ (e.index + 1 ≠ (readDesc db).indices) ∧ (e.pairs = [p]) ∧ (mget r.acc p.out = some a) ∧ (r.res = [])) ∧
    (∃ s : State, ∃ k : TillerIx, ∃ r : Run, ∃ db : Bytes, ∃ e : WinEnt, ∃ rest : List WinEnt, ∃ st : Nat × Nat, (Runs s.blk k r db) ∧ (r.window = e :: rest) ∧ (e.wait = false) ∧ (e.stop = some st)) ∧
    (∃ s : State, ∃ k : TillerIx, ∃ r : Run, ∃ db : Bytes, ∃ e : WinEnt, ∃ rest : List WinEnt, ∃ w : Awn, (Runs s.blk k r db) ∧ (r.window = e :: rest) ∧ (e.wait = false) ∧ (e.stop = none) ∧ (readAwn (readDesc db).awn (fmtAt (readDesc db).fa) = some w) ∧ (w.fail = true) ∧ (e.pairs.any (fun p => p.esc && p.shadow.isNone) = true)) ∧
    (∃ s : State, ∃ k : TillerIx, ∃ r : Run, ∃ db : Bytes, (Runs s.blk k r db) ∧ (r.kind ≤ 2) ∧ (r.window.length < 64) ∧ (r.next < (readDesc db).indices) ∧ (r.hasAll (s.blk.entryLines (readDesc db) r.store r.next).1 = true)) ∧
    (∃ s : State, ∃ k : TillerIx, ∃ a : Addr, ∃ r : Run, ∃ x : Landed, (s.blk.dead = false) ∧ ((s.blk.til k).run = some r) ∧ (r.ended = none) ∧ (mget r.store (lineOf a.toNat) = none) ∧ (s.blk.coh.landed = [x]) ∧ (x.who = .tiller k) ∧ (x.write = false) ∧ (x.line = lineOf a.toNat)) ∧
    (∃ s : State, ∃ k : TillerIx, ∃ r : Run, ∃ db : Bytes, ∃ e : WinEnt, (Runs s.blk k r db) ∧ (r.window = [e]) ∧ (e.wait = true) ∧ (r.hasAll ((readDesc db).shadowLines e) = true) ∧ (r.refused ((readDesc db).shadowLines e) = none)) ∧
    (∃ s : State, ∃ k : TillerIx, ∃ r : Run, ∃ x : Landed, ∃ a : Nat, (s.blk.dead = false) ∧ ((s.blk.til k).run = some r) ∧ (r.recSent = false) ∧ (r.ended = some (0, a)) ∧ (s.blk.coh.landed = [x]) ∧ (x.who = .tiller k) ∧ (x.write = true)) ∧
    (∃ s : State, ∃ k : TillerIx, ∃ r : Run, ∃ st : Nat, ∃ a : Nat, (s.blk.halted = false) ∧ ((s.blk.til k).run = some r) ∧ (r.ended = some (st, a)) ∧ (s.blk.pwr.move = none) ∧ (s.blk.pendingInt (.tiller k) = false) ∧ (s.blk.badWrite (.tiller k) = none) ∧ (r.recSent = false) ∧ (((s.blk.task r.slot r.task).map (fun x => (readDesc x.desc).safe)).getD false = false)) :=
  ⟨⟨wS (wTil { wGo 0 (wMat 1 0) with window := [wEnt false] } [wRunning]), 0, .matvec 0, { wGo 0 (wMat 1 0) with window := [wEnt false] }, wMat 1 0, wEnt false, by and_intros <;> first | decide +kernel | (constructor <;> decide +kernel)⟩,
   ⟨wS (wTil { wGo 0 (wMat 2 0) with window := [wEnt false], acc := [(0, 0)] } [wRunning]), 0, { wGo 0 (wMat 2 0) with window := [wEnt false], acc := [(0, 0)] }, wMat 2 0, wEnt false, [], ⟨0, 0, 0, 0, false, 0, false, false, none⟩, 0, by and_intros <;> first | decide +kernel | (constructor <;> decide +kernel)⟩,
   ⟨wS (wTil { wGo 0 (wMat 2 0) with window := [{ wEnt false with stop := some (0x42, 128) }] } [wRunning]), 0, { wGo 0 (wMat 2 0) with window := [{ wEnt false with stop := some (0x42, 128) }] }, wMat 2 0, { wEnt false with stop := some (0x42, 128) }, [], (0x42, 128), by constructor <;> decide +kernel, by decide +kernel⟩,
   ⟨wS (wTil { wGo 0 (wMat 2 4) with window := [wEnt true] } [wRunning]), 0, { wGo 0 (wMat 2 4) with window := [wEnt true] }, wMat 2 4, wEnt true, [], ⟨0, true, 0⟩, by constructor <;> decide +kernel, by decide +kernel⟩,
   ⟨wS (wTil (wGo 0 (wMat 2 0)) [wRunning]), 0, wGo 0 (wMat 2 0), wMat 2 0, by constructor <;> decide +kernel, by decide +kernel⟩,
   ⟨wS { wTil (wGo 0 (wMat 2 0)) [wRunning] with coh.landed := [⟨.tiller 0, false, 9, 0, zeros 128, false⟩] }, 0, 1152, wGo 0 (wMat 2 0), ⟨.tiller 0, false, 9, 0, zeros 128, false⟩, by decide +kernel⟩,
   ⟨wS (wTil { wGo 0 (wMat 2 4) with window := [{ wEnt true with wait := true }] } [wRunning]), 0, { wGo 0 (wMat 2 4) with window := [{ wEnt true with wait := true }] }, wMat 2 4, { wEnt true with wait := true }, by constructor <;> decide +kernel, by decide +kernel⟩,
   ⟨wS { wTil { wGo 0 (wMat 2 0) with ended := some (0, 0) } [wRunning] with coh.landed := [⟨.tiller 0, true, 9, 0x16, [], false⟩] }, 0, { wGo 0 (wMat 2 0) with ended := some (0, 0) }, ⟨.tiller 0, true, 9, 0x16, [], false⟩, 0, by decide +kernel⟩,
   ⟨wS (wTil { wGo 0 (wMat 2 0) with ended := some (0, 0) } [wRunning]), 0, { wGo 0 (wMat 2 0) with ended := some (0, 0) }, 0, 0, by decide +kernel⟩⟩

/-- The hypotheses of SheafsAreAdmittedAndEnd are met, clause by clause. -/
theorem witness_SheafsAreAdmittedAndEnd :
    (∃ s : State, ∃ q : Quad, ∃ h : HostResult, ∃ r : SubmitReq, ∃ rest : List SubmitReq, ∃ hb : Bytes, ∃ g : Blk, (s.blk.dead = false) ∧ (s.blk.closing = false) ∧ ((s.blk.thr q).wait = r :: rest) ∧ ((s.blk.thr q).room = none) ∧ (s.blk.imageBytes q r 128 h = (.bytes hb, g)) ∧ (readHeader (hb.take 128) = none)) ∧
    (∃ s : State, ∃ q : Quad, ∃ h : HostResult, ∃ r : SubmitReq, ∃ rest : List SubmitReq, ∃ hb : Bytes, ∃ img : Bytes, ∃ g : Blk, ∃ i : Blk, ∃ hd : Header, ∃ slot : Nat, ∃ v : Nat, ∃ ts : List (Desc × List Nat), (s.blk.dead = false) ∧ (s.blk.closing = false) ∧ ((s.blk.thr q).wait = r :: rest) ∧ ((s.blk.thr q).room = none) ∧ (s.blk.imageBytes q r 128 h = (.bytes hb, g)) ∧ (readHeader (hb.take 128) = some hd) ∧ (g.spanActive q r.part hd.record 128 = true) ∧ (hd.statusArr = 0) ∧ (g.freeSlot q = some slot) ∧ (hd.tasks ≤ g.taskFree q) ∧ (g.sheafsHeld r.part < (if r.part = 0 then 16 else ((mget (g.thrView q).parts r.part).map (·.sheafMax)).getD 0)) ∧ let held := (g.modThr q (fun t => { t with room := some (slot, hb.take 128) })).imageBytes q r hd.length h; (held = (.wait, i))) ∧
    (∃ s : State, ∃ q : Quad, ∃ h : HostResult, ∃ r : SubmitReq, ∃ rest : List SubmitReq, ∃ hb : Bytes, ∃ img : Bytes, ∃ g : Blk, ∃ i : Blk, ∃ hd : Header, ∃ slot : Nat, ∃ v : Nat, ∃ ts : List (Desc × List Nat), (s.blk.dead = false) ∧ (s.blk.closing = false) ∧ ((s.blk.thr q).wait = r :: rest) ∧ ((s.blk.thr q).room = none) ∧ (s.blk.imageBytes q r 128 h = (.bytes hb, g)) ∧ (readHeader (hb.take 128) = some hd) ∧ (g.spanActive q r.part hd.record 128 = true) ∧ (hd.statusArr = 0) ∧ (g.freeSlot q = some slot) ∧ (hd.tasks ≤ g.taskFree q) ∧ (g.sheafsHeld r.part < (if r.part = 0 then 16 else ((mget (g.thrView q).parts r.part).map (·.sheafMax)).getD 0)) ∧ let held := (g.modThr q (fun t => { t with room := some (slot, hb.take 128) })).imageBytes q r hd.length h; (held = (.bytes img, i)) ∧ (i.judgeImage q r hd img = .ok (ts, v))) ∧
    (∃ s : State, ∃ q : Quad, ∃ e : EndRec, ∃ rest : List EndRec, ∃ z : Sheaf, ∃ x : TaskRt, (s.blk.dead = false) ∧ (∀ y ∈ s.blk.owned q, y.2.closed = none ∧ ∃ u ∈ y.2.tasks, u.state ≠ .ended) ∧ ((s.blk.thr q).ends = e :: rest) ∧ (s.blk.needsReread e = false ∨ e.reread = true) ∧ (mget s.blk.work.sheafs e.slot = some z) ∧ (s.blk.task e.slot e.task = some x) ∧ (z.abort = none) ∧ (z.closed = none) ∧ (e.status ≠ 0x49)) ∧
    (∃ s : State, ∃ q : Quad, ∃ slot : Nat, ∃ i : Nat, ∃ z : Sheaf, ∃ x : TaskRt, (s.blk.dead = false) ∧ (heldTasks s.blk q = [(slot, i, x)]) ∧ (mget s.blk.work.sheafs slot = some z) ∧ (s.blk.task slot i = some x) ∧ (s.blk.queueRoom q z.part = true)) ∧
    (∃ s : State, ∃ slot : SlotIx, (s.blk.dead = false) ∧ (s.blk.frozen = false) ∧ (s.blk.pwr.state ≠ 3) ∧ (s.blk.wdogDue slot = true)) ∧
    (∃ s : State, ∃ slot : SlotIx, (s.blk.wdogDue slot = false)) ∧
    (∃ s : State, ∃ q : Quad, ∃ slot : Nat, ∃ i : Nat, ∃ k : Nat, ∃ z : Sheaf, ∃ x : TaskRt, (s.blk.halted = false) ∧ (s.blk.preCount q < s.blk.field (Reg.thrPrefetchCfg q) 0 6) ∧ (prefetchable s.blk q = [(slot, i, x)]) ∧ (mget s.blk.work.sheafs slot = some z) ∧ (s.blk.preTiller slot z i = some k)) :=
  ⟨⟨wS (wImgOf (zeros 256)), 0, .fault, wSub, [], (Got.get ((wImgOf (zeros 256)).imageBytes 0 wSub 128 .fault).1), ((wImgOf (zeros 256)).imageBytes 0 wSub 128 .fault).2, by decide +kernel⟩,
   ⟨wS wImgBusy, 0, .fault, wSub, [], (Got.get (wImgBusy.imageBytes 0 wSub 128 .fault).1), [], (wImgBusy.imageBytes 0 wSub 128 .fault).2, (wHeld wImgBusy).2, wHdr, 0, 0, [], by decide +kernel, by decide +kernel, by decide +kernel, (by decide +kernel), by decide +kernel, by decide +kernel, by decide +kernel, (by decide +kernel), by decide +kernel, by decide +kernel, by decide +kernel, rfl⟩,
   ⟨wS wImg, 0, .fault, wSub, [], (Got.get (wImgRead 128).1), (Got.get (wHeld wImg).1), (wImgRead 128).2, (wHeld wImg).2, wHdr, 0, 0, wJudged.1, by and_intros <;> decide +kernel⟩,
   ⟨wS { wBlk with work := { sheafs := [(0, wSheaf [wRunning, wTask])], thr := [(0, { ends := [wEndRec] })] } }, 0, wEndRec, [], wSheaf [wRunning, wTask], wRunning, by decide +kernel⟩,
   ⟨wS { wBlk with work.sheafs := [(0, wSheaf [{ wTask with state := .held }])] }, 0, 0, 0, wSheaf [{ wTask with state := .held }], { wTask with state := .held }, by decide +kernel⟩,
   ⟨wS { wBlk with tb := 1000001, work.sheafs := [(0, wSheaf [wTask])] }, 0, by decide +kernel⟩,
   ⟨wS { wBlk with work.sheafs := [(0, wSheaf [wTask])] }, 0, by decide +kernel⟩,
   ⟨wS (wTil wRun [{ wRunning with succ := [1] }, wTask]), 0, 0, 1, 0, wSheaf [{ wRunning with succ := [1] }, wTask], wTask, by decide +kernel⟩⟩

/-- The hypotheses of PoolAddressesDecodeAndLieInFrames are met, clause by clause. -/
theorem witness_PoolAddressesDecodeAndLieInFrames :
    (∃ a : Nat, (a < 2 ^ 48)) ∧
    (∃ l : Nat, ∃ f : Nat, (f < 3968)) ∧
    (∃ ch : Nat, ∃ line : Nat, (ch < 128) ∧ (line < 2097152)) :=
  ⟨⟨281474976710655, by decide +kernel⟩,
   ⟨16384, 3967, by decide +kernel⟩,
   ⟨127, 65536, by decide +kernel⟩⟩

/-- The hypotheses of HuskPlacementIsOneToOne are met, clause by clause. -/
theorem witness_HuskPlacementIsOneToOne :
    (∃ q : Nat, ∃ d : Nat, (q < 4) ∧ ∃ e : Nat, (e < d)) ∧
    (∃ q : Nat, ∃ d : Nat, (q < 4) ∧ ∃ k : Nat, ∃ a : Nat, (6 * q ≤ k) ∧ (k < 6 * q + 6) ∧ (k ≠ a % 24) ∧ (k ≠ (a + 1) % 24)) ∧
    (∃ q : Nat, ∃ d : Nat, (q < 4) ∧ ∃ mode : Nat, (mode < 4)) ∧
    (∃ q : Nat, ∃ d : Nat, (q < 4) ∧ ∃ mode : Nat, ∃ c : Nat, (mode = 2 ∨ mode = 3) ∧ (c ∈ checkChans mode q (huskPos mode q d))) :=
  ⟨⟨3, 5, by decide +kernel, 4, by decide +kernel⟩,
   ⟨3, 5, by decide +kernel, 18, 0, by decide +kernel⟩,
   ⟨3, 5, by decide +kernel, 3, by decide +kernel⟩,
   ⟨3, 5, by decide +kernel, 3, ((checkChans 3 3 (huskPos 3 3 5)).headD 0), by decide +kernel⟩⟩

/-- The hypotheses of SingleRatePolicerJudges are met, clause by clause. -/
theorem witness_SingleRatePolicerJudges :
    (∃ r : TrafRt, ∃ now : Nat, ∃ n : Nat, ∃ pre : Bool, (r.ent.kind = 3) ∧ let q := r.refill now; ((n : Int) * 1000 ≤ q.levC)) ∧
    (∃ r : TrafRt, ∃ now : Nat, ∃ n : Nat, ∃ pre : Bool, (r.ent.kind = 3) ∧ let q := r.refill now; (q.levC < (n : Int) * 1000)) :=
  ⟨⟨⟨⟨1, 1, 3, 0, 0, 0, 0, 0⟩, 0, 0, 0, 0, 0, 0, 0⟩, 5, 0, false, by decide +kernel, by decide +kernel⟩,
   ⟨⟨⟨1, 1, 3, 0, 0, 0, 0, 0⟩, 0, 0, 0, 0, 0, 0, 0⟩, 5, 1, false, by decide +kernel, by decide +kernel⟩⟩

/-- The hypotheses of CodewordsAreCountedAndMarked are met, clause by clause. -/
theorem witness_CodewordsAreCountedAndMarked :
    (∃ s : State, ∃ n : PortIx, ∃ c : Codeword, ∃ k : Nat, (s.blk.dead = false) ∧ (cwDecode c = some k)) ∧
    (∃ s : State, ∃ n : PortIx, ∃ c : Codeword, (s.blk.dead = false) ∧ ((s.blk.link n).live = true) ∧ (cwDecode c = none)) :=
  ⟨⟨wS wBlk, 0, wCw 0, 0, by decide +kernel⟩,
   ⟨wS (wUp { state := .closing }), 0, wCw 4, by and_intros <;> decide +kernel⟩⟩

set_option maxRecDepth 20000 in
/-- The hypotheses of FabricMovesMessages are met, clause by clause. -/
theorem witness_FabricMovesMessages :
    (∃ s : State, ∃ x : Die, ∃ y : Die, ∃ n : BitVec 12, ∃ u : D2dUnit, ∃ w : Worm, (s.blk.dead = false) ∧ (s.blk.d2dOk x y = true) ∧ ((s.blk.d2d x y).buf = [u]) ∧ (u.seq = n.toNat) ∧ (n.toNat ∉ (s.blk.d2d x y).accepted) ∧ (mget (s.blk.d2d x y).worms u.worm = some w)) ∧
    (∃ s : State, ∃ x : Die, ∃ y : Die, ∃ n : BitVec 12, (s.blk.dead = false) ∧ (s.blk.d2dOk x y = true) ∧ let k := tget (fun _ => 0) (s.blk.d2d x y).tries n.toNat; (k < 7)) ∧
    (∃ s : State, ∃ x : Die, ∃ y : Die, ∃ n : BitVec 12, (s.blk.dead = false) ∧ (s.blk.d2dOk x y = true) ∧ let k := tget (fun _ => 0) (s.blk.d2d x y).tries n.toNat; (7 ≤ k)) ∧
    (∃ s : State, ∃ q : Quad, ∃ src : Quad, ∃ p : Packet, (s.blk.dead = false) ∧ (s.blk.field Reg.nrmHopCfg 0 6 ≤ hdrHops p.hdr) ∧ (∀ e ∈ s.blk.heads q, headKey p.hdr (12 + src.val) ≤ e.1)) ∧
    (∃ s : State, ∃ q : Quad, ∃ src : Quad, ∃ p : Packet, ∃ n : Nat, (s.blk.dead = false) ∧ (hdrHops p.hdr < s.blk.field Reg.nrmHopCfg 0 6) ∧ (hfld p.hdr 31 16 ≠ (s.blk.view (.router q)).self) ∧ (s.blk.sprayUp q (hfld p.hdr 31 16) = some [n]) ∧ (n / 12 = q.val) ∧ (∀ part, s.blk.portFree n part (hdrFlits p.hdr + 1) = true) ∧ (∀ e ∈ s.blk.heads q, headKey p.hdr (12 + src.val) ≤ e.1)) ∧
    (∃ s : State, ∃ q : Quad, ∃ p : Packet, ∃ ty : Nat, ∃ i : Instr, (PacketIn s.blk q p ty) ∧ let a : Addr := BitVec.ofNat 48 ((hdrArg p.hdr).toNat % 2 ^ 48); let id : BitVec 16 := BitVec.ofNat 16 (fld (hdrArg p.hdr).toNat 63 48); let r := hdrReq p.hdr false; ((ty, i) ∈ [(0xC0, .rds r a), (0xC1, .rdx r a), (0xC2, .rdonce r a), (0x41, .rspi r a id), (0x42, .rsps r a id), (0x43, .rspcur r a id), (0x44, .rspwbpend r a id), (0x45, .cmpack r a id), (0xD0, .lease r (bit (hdrArg p.hdr).toNat 0)), (0xD6, .agentRegister r)])) ∧
    (∃ s : State, ∃ q : Quad, ∃ p : Packet, ∃ b : Blk, ∃ c : Checked, (PacketIn s.blk q p 0xC2) ∧ let a : Addr := BitVec.ofNat 48 ((hdrArg p.hdr).toNat % 2 ^ 48); let r := hdrReq p.hdr false; (ReqIn ((s.blk.takeEjected q p).event (60 + q) 2 (some (s.blk.hostPart (hfld p.hdr 47 32)))) b r a 0xC2 [0] .read c) ∧ (a.toNat % 128 = 0) ∧ (LineFree b (lineOf a.toNat))) ∧
    (∃ s : State, ∃ q : Quad, ∃ p : Packet, (PacketIn s.blk q p 0xC6) ∧ (s.blk.fab.ctxs = []) ∧ (hfld p.hdr 71 64 = 0) ∧ (hfld p.hdr 6 6 = 0)) ∧
    (∃ s : State, ∃ q : Quad, ∃ p : Packet, (s.blk.dead = false) ∧ (s.blk.str.loaded = true) ∧ (e2eCrc p.hdr (fit (hfld p.hdr 88 80) p.payload) ≠ hfld p.hdr 255 224)) ∧
    (∃ s : State, ∃ q : Quad, ∃ m : Msg, ∃ n : Nat, (s.blk.dead = false) ∧ (tget (fun _ => []) s.blk.fab.inj q = [m]) ∧ (m.ty ≠ 0x06) ∧ (m.psn = 0) ∧ (s.blk.shaper m.dst (tcOf m.ty) = none) ∧ (s.blk.injectOut q m = .port n) ∧ (s.blk.heads q = [])) ∧
    (∃ s : State, ∃ q : Quad, ∃ src : Eid, ∃ id : BitVec 16, ∃ c : Ctx, (s.blk.dead = false) ∧ (s.blk.fab.ctxs = [c]) ∧ (c.home = q.val) ∧ (c.src = src.toNat) ∧ (c.msgId = id.toNat) ∧ (c.openedAt + c.timeoutUs * 1000 ≤ s.blk.tb)) ∧
    (∃ s : State, ∃ q : Quad, ∃ src : Eid, ∃ id : BitVec 16, ∃ c : Ctx, (s.blk.dead = false) ∧ (s.blk.fab.ctxs = [c]) ∧ (c.home = q.val) ∧ (c.src = src.toNat) ∧ (c.msgId = id.toNat) ∧ (s.blk.tb < c.openedAt + c.timeoutUs * 1000)) ∧
    (∃ s : State, ∃ dst : Eid, ∃ id : BitVec 16, ∃ r : OutReq, (s.blk.dead = false) ∧ (s.blk.fab.outReqs = [r]) ∧ (r.dst = dst.toNat) ∧ (r.msgId = id.toNat) ∧ (r.deadline ≤ s.blk.tb)) ∧
    (∃ s : State, ∃ dst : Eid, ∃ id : BitVec 16, ∃ r : OutReq, (s.blk.dead = false) ∧ (s.blk.fab.outReqs = [r]) ∧ (r.dst = dst.toNat) ∧ (r.msgId = id.toNat) ∧ (s.blk.tb < r.deadline)) ∧
    (∃ s : State, ∃ e : Eid, ∃ c : BitVec 2, ∃ p : Policed, (s.blk.dead = false) ∧ (mget s.blk.fab.policed (e.toNat * 4 + c.toNat) = some p) ∧ (p.lastAt + 100000 ≤ s.blk.tb) ∧ (p.dropped ≠ 0) ∧ (mhas (s.blk.view (.router (Fin.ofNat 4 p.home))).eids e.toNat = true)) :=
  ⟨⟨wS { wBlk with fab.d2d := [(4, { buf := [⟨5, 0, 0, []⟩], worms := [(0, ⟨0, [], 0, none⟩)] })] }, 0, 4, 5, ⟨5, 0, 0, []⟩, ⟨0, [], 0, none⟩, by decide +kernel⟩,
   ⟨wS { wBlk with fab.d2d := [(4, { tries := [(5, 6)] })] }, 0, 4, 5, by and_intros <;> decide +kernel⟩,
   ⟨wS { wBlk with fab.d2d := [(4, { tries := [(5, 7)] })] }, 0, 4, 5, by and_intros <;> decide +kernel⟩,
   ⟨wS wBlk, 0, 1, ⟨BitVec.ofNat 256 (63 * 2 ^ 72), []⟩, by decide +kernel⟩,
   ⟨wS (wUp { state := .up }), 0, 1, ⟨BitVec.ofNat 256 (65536 + 4 * 2 ^ 32), []⟩, 0, by decide +kernel, by decide +kernel, by decide +kernel, (by decide +kernel), by decide +kernel, fun _ => rfl, by decide +kernel⟩,
   ⟨wS wBlk, 0, ⟨wHead 0xC0 0 3 0 0, []⟩, 0xC0, .rds ⟨1, 3, 0, false⟩ 0, by constructor <;> decide +kernel, by decide +kernel⟩,
   ⟨wS wBlk, 0, ⟨wHead 0xC2 0 3 0 0, []⟩, wAcc (wEjected (wHead 0xC2 0 3 0 0)) 0 0xC2 [0], ⟨0, true, 1, 0⟩, by and_intros <;> first | decide +kernel | (constructor <;> decide +kernel)⟩,
   ⟨wS wBlk, 0, ⟨wPart, zeros 256⟩, by constructor <;> decide +kernel, by decide +kernel⟩,
   ⟨wS wBlk, 0, ⟨0, []⟩, by decide +kernel⟩,
   ⟨wS { wUp { state := .up } with fab.inj := [(0, [{ ty := 0x48, dst := 1, msgId := 3, traceId := 0 }])] }, 0, { ty := 0x48, dst := 1, msgId := 3, traceId := 0 }, 0, by decide +kernel⟩,
   ⟨wS { wBlk with fab.ctxs := [⟨0, 1, 3, 0xC6, 7, 0, 0, 0, 1000, none, []⟩] }, 0, 1, 3, ⟨0, 1, 3, 0xC6, 7, 0, 0, 0, 1000, none, []⟩, by decide +kernel⟩,
   ⟨wS { wBlk with fab.ctxs := [⟨0, 1, 3, 0xC6, 7, 0, 0, 1, 1000, none, []⟩] }, 0, 1, 3, ⟨0, 1, 3, 0xC6, 7, 0, 0, 1, 1000, none, []⟩, by decide +kernel⟩,
   ⟨wS { wBlk with fab.outReqs := [⟨0, 1, 3, 1000000⟩] }, 1, 3, ⟨0, 1, 3, 1000000⟩, by decide +kernel⟩,
   ⟨wS { wBlk with fab.outReqs := [⟨0, 1, 3, 1000001⟩] }, 1, 3, ⟨0, 1, 3, 1000001⟩, by decide +kernel⟩,
   ⟨wS { wBlk with fab.policed := [(5, ⟨900000, 2, 1, 0⟩)] }, 1, 1, ⟨900000, 2, 1, 0⟩, by decide +kernel⟩⟩

/-- The hypotheses of LinkFlitsAreReceived are met, clause by clause. -/
theorem witness_LinkFlitsAreReceived :
    (∃ s : State, ∃ n : PortIx, ∃ f : Flit, (s.blk.dead = false) ∧ ((s.blk.link n).state = .up) ∧ ((s.blk.link n).asked = false) ∧ (flitOk 0x0 f = true) ∧ (f.ackV = true) ∧ let m := (f.ack.toNat + 4097 - (s.blk.link n).txOldest) % 4096; (m ≤ (s.blk.link n).held.length) ∧ (0 < m)) ∧
    (∃ s : State, ∃ n : PortIx, ∃ f : Flit, (s.blk.dead = false) ∧ ((s.blk.link n).state = .up) ∧ ((s.blk.link n).asked = false) ∧ (flitOk 0x0 f = true) ∧ (f.ackV = true) ∧ let m := (f.ack.toNat + 4097 - (s.blk.link n).txOldest) % 4096; ((s.blk.link n).held.length < m ∨ m = 0)) ∧
    (∃ s : State, ∃ n : PortIx, ∃ f : Flit, (FlitNext s.blk n 0x1 f)) ∧
    (∃ s : State, ∃ n : PortIx, ∃ f : Flit, (s.blk.dead = false) ∧ ((s.blk.link n).live = true) ∧ (flitOk 0x1 f = true) ∧ let d := ((s.blk.link n).rxNext + 4096 - f.seq.toNat) % 4096; (d ≠ 0) ∧ (d ≤ 1536)) ∧
    (∃ s : State, ∃ n : PortIx, ∃ f : Flit, ∃ p : RxPkt, (FlitNext s.blk n 0x2 f) ∧ ((s.blk.link n).skip = false) ∧ ((s.blk.link n).rx = [p]) ∧ (1 < p.left) ∧ (p.routed = false)) ∧
    (∃ s : State, ∃ n : PortIx, ∃ f : Flit, ∃ p : RxPkt, (FlitNext s.blk n 0x3 f) ∧ ((s.blk.link n).skip = false) ∧ ((s.blk.link n).rx = [p]) ∧ (p.left ≠ 0) ∧ (s.blk.holdOf n = none)) ∧
    (∃ s : State, ∃ n : PortIx, ∃ f : Flit, (s.blk.dead = false) ∧ ((s.blk.link n).state = .up) ∧ ((s.blk.link n).asked = false) ∧ (flitOk 0x4 f = true) ∧ let m := (f.ack.toNat + 4097 - (s.blk.link n).txOldest) % 4096; (m ≤ (s.blk.link n).held.length) ∧ (0 < m)) ∧
    (∃ s : State, ∃ n : PortIx, ∃ f : Flit, (FlitNext s.blk n 0x5 f) ∧ ((s.blk.link n).state = .up) ∧ ((s.blk.link n).gotClosed = false)) ∧
    (∃ s : State, ∃ n : PortIx, ∃ f : Flit, (FlitNext s.blk n 0x5 f) ∧ ((s.blk.link n).asked = true) ∧ ((s.blk.link n).sentClosing = true) ∧ ((s.blk.link n).sentClosed = true)) ∧
    (∃ s : State, ∃ n : PortIx, (s.blk.dead = false) ∧ ((s.blk.link n).live = true)) :=
  ⟨⟨wS (wUp { state := .up, held := [⟨1, [], none⟩] }), 0, ⟨0, 0, true, false, zeros 32, false⟩, by and_intros <;> decide +kernel⟩,
   ⟨wS (wUp { state := .up }), 0, ⟨0, 0, true, false, zeros 32, false⟩, by and_intros <;> decide +kernel⟩,
   ⟨wS (wUp { state := .up }), 0, wFlit 0, by constructor <;> decide +kernel⟩,
   ⟨wS (wUp { state := .up, rxNext := 1536 }), 0, wFlit 0, by and_intros <;> decide +kernel⟩,
   ⟨wS (wUp { state := .up, rx := [⟨0, 2, [], false⟩] }), 0, wFlit 0, ⟨0, 2, [], false⟩, by constructor <;> decide +kernel, by decide +kernel⟩,
   ⟨wS (wUp { state := .up, rx := [⟨0, 2, [], false⟩] }), 0, wFlit 0, ⟨0, 2, [], false⟩, by constructor <;> decide +kernel, by decide +kernel⟩,
   ⟨wS (wUp { state := .up, held := [⟨1, [], none⟩] }), 0, ⟨0, 0, true, false, zeros 32, false⟩, by and_intros <;> decide +kernel⟩,
   ⟨wS (wUp { state := .up }), 0, wFlit 0, by constructor <;> decide +kernel, by decide +kernel⟩,
   ⟨wS (wUp { state := .closing, asked := true, sentClosing := true, sentClosed := true }), 0, wFlit 0, by constructor <;> decide +kernel, by decide +kernel⟩,
   ⟨wS (wUp { state := .closing }), 0, by decide +kernel⟩⟩

/-- The hypotheses of LinkTimersAndTrainingAct are met, clause by clause. -/
theorem witness_LinkTimersAndTrainingAct :
    (∃ s : State, ∃ n : PortIx, (s.blk.dead = false) ∧ ((s.blk.link n).live = true) ∧ ((s.blk.link n).wait = true) ∧ ((s.blk.link n).nakAt + 1000 ≤ s.blk.tb)) ∧
    (∃ s : State, ∃ n : PortIx, (s.blk.dead = false) ∧ ((s.blk.link n).live = true) ∧ ((s.blk.link n).wait = true) ∧ (s.blk.tb < (s.blk.link n).nakAt + 1000)) ∧
    (∃ s : State, ∃ n : PortIx, (s.blk.dead = false) ∧ ((s.blk.link n).live = true) ∧ ((s.blk.link n).held ≠ []) ∧ ((s.blk.link n).ackAt + s.blk.field (Reg.lnkCfg n) 9 7 * 1000 ≤ s.blk.tb) ∧ ((s.blk.link n).replays < 15)) ∧
    (∃ s : State, ∃ n : PortIx, (s.blk.dead = false) ∧ ((s.blk.link n).live = true) ∧ ((s.blk.link n).held ≠ []) ∧ (s.blk.tb < (s.blk.link n).ackAt + s.blk.field (Reg.lnkCfg n) 9 7 * 1000)) ∧
    (∃ s : State, ∃ n : PortIx, (s.blk.dead = false) ∧ ((s.blk.link n).live = true) ∧ ((s.blk.link n).unacked ≠ 0) ∧ ((s.blk.link n).unackAt + 250 ≤ s.blk.tb)) ∧
    (∃ s : State, ∃ n : PortIx, (s.blk.dead = false) ∧ ((s.blk.link n).live = true) ∧ ((s.blk.link n).unacked ≠ 0) ∧ (s.blk.tb < (s.blk.link n).unackAt + 250)) ∧
    (∃ s : State, ∃ n : PortIx, (s.blk.dead = false) ∧ ((s.blk.link n).state = .up) ∧ (s.blk.portsOff = false)) ∧
    (∃ s : State, ∃ n : PortIx, (s.blk.tb < (s.blk.link n).goodAt + 10000)) ∧
    (∃ s : State, ∃ n : PortIx, (s.blk.dead = false) ∧ ((s.blk.link n).state = .held) ∧ ((s.blk.link n).graceEnd ≤ s.blk.tb)) ∧
    (∃ s : State, ∃ n : PortIx, (s.blk.dead = false) ∧ ((s.blk.link n).state = .held) ∧ (s.blk.tb < (s.blk.link n).graceEnd)) ∧
    (∃ s : State, ∃ n : PortIx, (s.blk.dead = false) ∧ ((s.blk.holdOf n).isSome = true) ∧ ((s.blk.link n).rx.any (fun p => p.routed && p.left != 0) = true) ∧ ((s.blk.link n).rxAt + 4000 ≤ s.blk.tb)) ∧
    (∃ s : State, ∃ n : PortIx, (s.blk.dead = false) ∧ ((s.blk.holdOf n).isSome = true) ∧ ((s.blk.link n).rx.any (fun p => p.routed && p.left != 0) = true) ∧ (s.blk.tb < (s.blk.link n).rxAt + 4000)) ∧
    (∃ s : State, ∃ n : PortIx, (s.blk.dead = false) ∧ ((s.blk.link n).live = true) ∧ ((s.blk.link n).asked = true) ∧ ((s.blk.link n).closeAt + 100000 ≤ s.blk.tb)) ∧
    (∃ s : State, ∃ n : PortIx, (s.blk.dead = false) ∧ ((s.blk.link n).live = true) ∧ ((s.blk.link n).asked = true) ∧ (s.blk.tb < (s.blk.link n).closeAt + 100000)) ∧
    (∃ s : State, ∃ n : PortIx, (HostWrites s.blk) ∧ ((s.blk.link n).state = .disabled) ∧ (s.blk.portsOff = false)) ∧
    (∃ s : State, ∃ n : PortIx, (HostWrites s.blk) ∧ ((s.blk.link n).state = .up) ∧ ((s.blk.link n).gotClosed = false) ∧ ((s.blk.link n).asked = false) ∧ ((s.blk.link n).sentClosing = false)) ∧
    (∃ s : State, ∃ n : PortIx, (HostWrites s.blk) ∧ ((s.blk.link n).state = .held ∨ (s.blk.link n).state = .training)) ∧
    (∃ s : State, ∃ n : PortIx, ∃ l : BitVec 4, ∃ p : BitVec 4, ∃ v : Bool, (s.blk.dead = false) ∧ ((s.blk.link n).state = .training ∨ (s.blk.link n).state = .held) ∧ (1 ≤ (s.blk.link n).stage) ∧ ((s.blk.link n).stage < 5) ∧ ((s.blk.link n).stage ≠ 1 ∨ l.toNat = 15) ∧ ((s.blk.link n).stage = 4 → 64 ≤ (s.blk.link n).corrRun)) ∧
    (∃ s : State, ∃ n : PortIx, ∃ l : BitVec 4, ∃ p : BitVec 4, ∃ v : Bool, (s.blk.dead = false) ∧ ((s.blk.link n).state = .training ∨ (s.blk.link n).state = .held) ∧ (1 ≤ (s.blk.link n).stage) ∧ ((s.blk.link n).stage < 5) ∧ ((s.blk.link n).stage = 1) ∧ (l.toNat ≠ 15)) ∧
    (∃ s : State, ∃ n : PortIx, ∃ l : BitVec 4, ∃ p : BitVec 4, ∃ v : Bool, (s.blk.dead = false) ∧ ((s.blk.link n).state = .training ∨ (s.blk.link n).state = .held) ∧ (1 ≤ (s.blk.link n).stage) ∧ ((s.blk.link n).stage < 5) ∧ ((s.blk.link n).stage = 4) ∧ ((s.blk.link n).corrRun < 64)) ∧
    (∃ s : State, ∃ n : PortIx, (s.blk.dead = false) ∧ ((s.blk.link n).state = .training ∨ (s.blk.link n).state = .held) ∧ (1 ≤ (s.blk.link n).stage) ∧ ((s.blk.link n).stageAt + stageLimit (s.blk.link n).full (s.blk.link n).stage ≤ s.blk.tb)) ∧
    (∃ s : State, ∃ n : PortIx, (s.blk.dead = false) ∧ ((s.blk.link n).state = .training ∨ (s.blk.link n).state = .held) ∧ (1 ≤ (s.blk.link n).stage) ∧ (s.blk.tb < (s.blk.link n).stageAt + stageLimit (s.blk.link n).full (s.blk.link n).stage)) ∧
    (∃ s : State, ∃ n : PortIx, ∃ f : TrainFlit, (s.blk.dead = false) ∧ ((s.blk.link n).state = .training) ∧ ((s.blk.link n).stage = 5) ∧ (f.reservedSet = false) ∧ (f.version = 0x01) ∧ ((s.blk.link n).ready = true ∨ 7 ≤ (s.blk.link n).good) ∧ ((s.blk.link n).gotReady = true ∨ f.ready = true)) ∧
    (∃ s : State, ∃ n : PortIx, ∃ f : TrainFlit, (s.blk.dead = false) ∧ ((s.blk.link n).state = .training ∨ (s.blk.link n).state = .held) ∧ ((s.blk.link n).stage = 5) ∧ (f.reservedSet = false) ∧ (f.version = 0x01) ∧ ((s.blk.link n).ready = false) ∧ ((s.blk.link n).gotReady = false) ∧ (f.ready = false)) ∧
    (∃ s : State, ∃ n : PortIx, ∃ f : TrainFlit, (s.blk.dead = false) ∧ ((s.blk.link n).state = .training ∨ (s.blk.link n).state = .held) ∧ ((s.blk.link n).stage = 5) ∧ (f.reservedSet = false) ∧ (f.version ≠ 0x01)) :=
  ⟨⟨wS (wUp { state := .up, wait := true, nakAt := 999000 }), 0, by decide +kernel⟩,
   ⟨wS (wUp { state := .up, wait := true, nakAt := 999001 }), 0, by decide +kernel⟩,
   ⟨wS (wUp { state := .up, held := [⟨1, [], none⟩], ackAt := 0, replays := 14 }), 0, by decide +kernel⟩,
   ⟨wS (wUp { state := .up, held := [⟨1, [], none⟩], ackAt := 999999 }), 0, by decide +kernel⟩,
   ⟨wS (wUp { state := .up, unacked := 1, unackAt := 999750 }), 0, by decide +kernel⟩,
   ⟨wS (wUp { state := .up, unacked := 1, unackAt := 999751 }), 0, by decide +kernel⟩,
   ⟨wS (wUp { state := .up }), 0, by decide +kernel⟩,
   ⟨wS (wUp { state := .up, goodAt := 999999 }), 0, by decide +kernel⟩,
   ⟨wS (wUp { state := .held, graceEnd := 1000000 }), 0, by decide +kernel⟩,
   ⟨wS (wUp { state := .held, graceEnd := 1000001 }), 0, by decide +kernel⟩,
   ⟨wS { wUp { state := .up, rx := [⟨0, 2, [], true⟩], rxAt := 996000 } with fab.holds := [{ port := 0, out := .hub, flits := 2 }] }, 0, by decide +kernel⟩,
   ⟨wS { wUp { state := .up, rx := [⟨0, 2, [], true⟩], rxAt := 996001 } with fab.holds := [{ port := 0, out := .hub, flits := 2 }] }, 0, by decide +kernel⟩,
   ⟨wS (wUp { state := .closing, asked := true, closeAt := 900000 }), 0, by decide +kernel⟩,
   ⟨wS (wUp { state := .closing, asked := true, closeAt := 900001 }), 0, by decide +kernel⟩,
   ⟨wS (wUp { state := .disabled }), 0, by constructor <;> decide +kernel, by decide +kernel⟩,
   ⟨wS (wUp { state := .up }), 0, by constructor <;> decide +kernel, by decide +kernel⟩,
   ⟨wS (wUp { state := .training }), 0, by constructor <;> decide +kernel, by decide +kernel⟩,
   ⟨wS (wUp { state := .training, stage := 1 }), 0, 15, 0, false, by decide +kernel⟩,
   ⟨wS (wUp { state := .training, stage := 1 }), 0, 7, 0, false, by decide +kernel⟩,
   ⟨wS (wUp { state := .training, stage := 4, corrRun := 63 }), 0, 15, 0, false, by decide +kernel⟩,
   ⟨wS { wUp { state := .held, graceEnd := 9, stage := 3 } with tb := 10000000000000 }, 0, by decide +kernel⟩,
   ⟨wS (wUp { state := .held, graceEnd := 9, stage := 3, stageAt := 1000000 }), 0, by decide +kernel⟩,
   ⟨wS (wUp { state := .training, stage := 5, ready := true }), 0, ⟨1, true, false, 0, 0, 0, 0, 0, false⟩, by decide +kernel⟩,
   ⟨wS (wUp { state := .held, stage := 5, graceEnd := 9 }), 0, ⟨1, false, false, 0, 0, 0, 0, 0, false⟩, by and_intros <;> decide +kernel⟩,
   ⟨wS (wUp { state := .held, stage := 5, graceEnd := 9 }), 0, ⟨2, false, false, 0, 0, 0, 0, 0, false⟩, by decide +kernel⟩⟩

/-- The hypotheses of ShapersGatesAndSamplersAct are met, clause by clause. -/
theorem witness_ShapersGatesAndSamplersAct :
    (∃ s : State, (HostWrites s.blk) ∧ let i := s.blk.field Reg.trfEntSel 0 13; let e := s.blk.stagedEnt; let fits := trafFieldsOk e = true ∧ trafficOk s.blk.str.run e = true ∧ (∀ j, s.blk.trafIx e.target e.cls = some j → j = i); (fits)) ∧
    (∃ s : State, (HostWrites s.blk) ∧ let i := s.blk.field Reg.trfEntSel 0 13; let e := s.blk.stagedEnt; let fits := trafFieldsOk e = true ∧ trafficOk s.blk.str.run e = true ∧ (∀ j, s.blk.trafIx e.target e.cls = some j → j = i); (¬ fits)) ∧
    (∃ s : State, (HostWrites s.blk) ∧ ∃ v : Word, True) ∧
    (∃ s : State, (s.blk.dead = false) ∧ (s.blk.field Reg.trfSampleCfg 0 10 ≠ 0) ∧ (s.blk.traf.smpAt ≠ some s.blk.tb) ∧ (s.blk.tb % (s.blk.field Reg.trfSampleCfg 0 10 * 1000) = 0)) ∧
    (∃ s : State, (s.blk.dead = false) ∧ (s.blk.field Reg.trfSampleCfg 0 10 ≠ 0) ∧ (s.blk.traf.smpAt ≠ some s.blk.tb) ∧ (s.blk.tb % (s.blk.field Reg.trfSampleCfg 0 10 * 1000) ≠ 0)) ∧
    (∃ s : State, ∃ target : Nat, ∃ r : GateRt, ∃ g : GateList, (s.blk.dead = false) ∧ (mget s.blk.traf.gates target = some r) ∧ (r.next = none) ∧ (r.list = some g)) ∧
    (∃ s : State, ∃ target : Nat, ∃ r : GateRt, ∃ g : GateList, (s.blk.dead = false) ∧ (mget s.blk.traf.gates target = some r) ∧ ∃ st : Nat, (r.next = some (some g, st)) ∧ (r.switchAt ≤ s.blk.tb)) ∧
    (∃ s : State, ∃ c : HuskCh, ∃ op : HuskOp, (s.blk.dead = false) ∧ let goes := s.blk.gateFits (0x100 + c) op.part.val s.blk.huskSpan = true ∧ s.blk.refreshBars c = false; (goes) ∧ let l := tget (fun _ => []) (if op.write then (s.blk.husk c).writes else (s.blk.husk c).reads) op.part.val; let sticks := op.write = true ∧ op.ok = false ∧ l ≠ []; (¬ sticks)) ∧
    (∃ s : State, ∃ c : HuskCh, ∃ op : HuskOp, (s.blk.dead = false) ∧ let goes := s.blk.gateFits (0x100 + c) op.part.val s.blk.huskSpan = true ∧ s.blk.refreshBars c = false; (goes) ∧ let l := tget (fun _ => []) (if op.write then (s.blk.husk c).writes else (s.blk.husk c).reads) op.part.val; let sticks := op.write = true ∧ op.ok = false ∧ l ≠ []; (sticks) ∧ ((s.blk.husk c).lost = false)) ∧
    (∃ s : State, ∃ c : HuskCh, ∃ op : HuskOp, (s.blk.dead = false) ∧ let goes := s.blk.gateFits (0x100 + c) op.part.val s.blk.huskSpan = true ∧ s.blk.refreshBars c = false; (¬ goes)) ∧
    (∃ s : State, ∃ c : HuskCh, (s.blk.dead = false) ∧ (s.blk.frozen = true)) ∧
    (∃ s : State, ∃ c : HuskCh, (s.blk.dead = false) ∧ (s.blk.frozen = false) ∧ ((s.blk.husk c).refreshAt ≤ s.blk.tb)) ∧
    (∃ s : State, ∃ c : HuskCh, (s.blk.dead = false) ∧ (s.blk.frozen = false) ∧ (s.blk.tb < (s.blk.husk c).refreshAt)) :=
  ⟨⟨wS { (wReg wBlk Reg.trfEntKey 1) with traf.stagedRegs := [Reg.trfEntKey] }, by constructor <;> decide +kernel, by decide +kernel⟩,
   ⟨wS wBlk, by constructor <;> decide +kernel, by decide +kernel⟩,
   ⟨wS { (wReg wBlk Reg.trfEntKey 1) with traf.stagedRegs := [Reg.trfEntKey] }, by constructor <;> decide +kernel, 1, trivial⟩,
   ⟨wS (wReg wBlk Reg.trfSampleCfg 100), by decide +kernel⟩,
   ⟨wS { wReg wBlk Reg.trfSampleCfg 100 with tb := 1000040 }, by decide +kernel⟩,
   ⟨wS { wBlk with traf.gates := [(5, { list := some ⟨0, [⟨1000, 1⟩]⟩ })] }, 5, { list := some ⟨0, [⟨1000, 1⟩]⟩ }, ⟨0, [⟨1000, 1⟩]⟩, by and_intros <;> decide +kernel⟩,
   ⟨wS { wBlk with traf.gates := [(5, { list := none, next := some (some ⟨0, [⟨1000, 1⟩]⟩, 1000000), switchAt := 1000000 })] }, 5, { list := none, next := some (some ⟨0, [⟨1000, 1⟩]⟩, 1000000), switchAt := 1000000 }, ⟨0, [⟨1000, 1⟩]⟩, by decide +kernel, by decide +kernel, 1000000, by decide +kernel⟩,
   ⟨wS { wBlk with chans.husk := [(0, { refreshAt := 100000000 })] }, 0, { part := 1, write := true }, by and_intros <;> decide +kernel⟩,
   ⟨wS { wBlk with chans.husk := [(0, { refreshAt := 100000000, writes := [(1, [⟨0, []⟩])] })] }, 0, { part := 1, write := true, ok := false }, by and_intros <;> decide +kernel⟩,
   ⟨wS wBlk, 0, { part := 1, write := true }, by decide +kernel, by decide +kernel⟩,
   ⟨wS { wBlk with frozen := true }, 0, by decide +kernel⟩,
   ⟨wS wBlk, 0, by decide +kernel⟩,
   ⟨wS { wBlk with chans.husk := [(0, { refreshAt := 1000001 })] }, 0, by decide +kernel⟩⟩

/-- The hypotheses of WindowsTakeRecords are met, clause by clause. -/
theorem witness_WindowsTakeRecords :
    (∃ s : State, ∃ f : Func, ∃ slot : Fin 2048, ∃ seq : DWord, ∃ rec : Record, (HostWrites s.blk) ∧ (s.blk.funcOn f = true) ∧ let next := (s.blk.win f).nextSeq; let placed := seq.toNat % 2048 = slot.val ∧ next ≤ seq.toNat ∧ seq.toNat ≤ next + 2047; (placed)) ∧
    (∃ s : State, ∃ f : Func, ∃ slot : Fin 2048, ∃ seq : DWord, ∃ rec : Record, (HostWrites s.blk) ∧ (s.blk.funcOn f = true) ∧ let next := (s.blk.win f).nextSeq; let placed := seq.toNat % 2048 = slot.val ∧ next ≤ seq.toNat ∧ seq.toNat ≤ next + 2047; (¬ placed)) ∧
    (∃ s : State, ∃ f : Func, ∃ seq : Nat, ∃ r : Bytes, (TakesNext s.blk f seq r) ∧ (Serves s.blk r) ∧ (bit (u8 r 1) 1 = false) ∧ let c := takenAs s.blk f seq r; let st := s.blk.takeStatus f (u8 r 0) c.part r; (st = 0)) ∧
    (∃ s : State, ∃ f : Func, ∃ seq : Nat, ∃ r : Bytes, (TakesNext s.blk f seq r) ∧ (Serves s.blk r) ∧ (bit (u8 r 1) 1 = false) ∧ let c := takenAs s.blk f seq r; let st := s.blk.takeStatus f (u8 r 0) c.part r; (st ≠ 0)) ∧
    (∃ s : State, ∃ f : Func, ∃ seq : Nat, ∃ r : Bytes, (TakesNext s.blk f seq r) ∧ (Serves s.blk r) ∧ (bit (u8 r 1) 1 = true)) ∧
    (∃ s : State, ∃ f : Func, ∃ seq : Nat, ∃ r : Bytes, (TakesNext s.blk f seq r) ∧ (s.blk.mgmt.resetting = true) ∧ (isMgmt (u8 r 0) = true) ∧ (opcodes.contains (u8 r 0) = true)) ∧
    (∃ s : State, ∃ f : Func, ∃ seq : Nat, ∃ r : Bytes, (TakesNext s.blk f seq r) ∧ (s.blk.mgmt.resetting = false) ∧ (s.blk.mgmt.failed = true)) ∧
    (∃ s : State, ∃ f : Func, ∃ seq : Nat, ∃ r : Bytes, (TakesNext s.blk f seq r) ∧ (s.blk.mgmt.resetting = false) ∧ (s.blk.mgmt.failed = false) ∧ (s.blk.sec.recovery = true) ∧ (u8 r 0 ≠ 0x20) ∧ (u8 r 0 ≠ 0x29)) ∧
    (∃ s : State, ∃ f : Func, ∃ seq : Nat, ∃ r : Bytes, (TakesNext s.blk f seq r) ∧ (s.blk.mgmt.resetting = false) ∧ (s.blk.mgmt.failed = false) ∧ (s.blk.sec.recovery = false) ∧ (s.blk.sec.zeroised = true) ∧ (u8 r 0 ≠ 0x20)) ∧
    (∃ s : State, ∃ f : Func, ∃ slot : Fin 2048, ∃ e : Fin 1024, ∃ v : DWord, (HostWrites s.blk) ∧ (s.blk.funcOn f = true) ∧ (v = BitVec.allOnes 64)) ∧
    (∃ s : State, ∃ f : Func, ∃ slot : Fin 2048, ∃ e : Fin 1024, ∃ v : DWord, (HostWrites s.blk) ∧ (s.blk.funcOn f = true) ∧ (v ≠ BitVec.allOnes 64)) ∧
    (∃ s : State, ∃ f : Func, ∃ cfg : FuncCfg, (s.blk.dead = false) ∧ (s.blk.funcOn f = true) ∧ (s.blk.ideIn true f = true)) ∧
    (∃ s : State, ∃ f : Func, ∃ cfg : FuncCfg, (s.blk.dead = false) ∧ (s.blk.funcOn f = true) ∧ (s.blk.ideIn true f = false)) ∧
    (∃ s : State, ∃ n : Nat, (s.blk.dead = false) ∧ (s.blk.ideIn true = true) ∧ (s.blk.sec.recovery = false) ∧ (s.blk.hub.numVfs = 0) ∧ (1 ≤ n) ∧ (n ≤ 63)) :=
  ⟨⟨wS wBlk, 0, 0, 2048, ⟨zeros 120⟩, by and_intros <;> first | decide +kernel | (constructor <;> decide +kernel)⟩,
   ⟨wS wBlk, 0, 0, 2049, ⟨zeros 120⟩, by and_intros <;> first | decide +kernel | (constructor <;> decide +kernel)⟩,
   ⟨wS { wBlk with hub.wins := [(0, { busMaster := true, subs := [(1, (1, wBytes 0 []))] })] }, 0, 1, wBytes 0 [], by and_intros <;> first | decide +kernel | (constructor <;> decide +kernel)⟩,
   ⟨wS { wBlk with hub.wins := [(0, { busMaster := true, subs := [(1, (1, wBytes 0x7F []))] })] }, 0, 1, wBytes 0x7F [], by and_intros <;> first | decide +kernel | (constructor <;> decide +kernel)⟩,
   ⟨wS { wBlk with hub.wins := [(0, { busMaster := true, subs := [(1, (1, wBytes 0x15 [(1, [2])]))] })] }, 0, 1, wBytes 0x15 [(1, [2])], by and_intros <;> first | decide +kernel | (constructor <;> decide +kernel)⟩,
   ⟨wS { wBlk with mgmt.resetting := true, hub.wins := [(0, { busMaster := true, subs := [(1, (1, wBytes 0x10 []))] })] }, 0, 1, wBytes 0x10 [], by constructor <;> decide +kernel, by decide +kernel⟩,
   ⟨wS { wBlk with mgmt.failed := true, hub.wins := [(0, { busMaster := true, subs := [(1, (1, wBytes 0x10 []))] })] }, 0, 1, wBytes 0x10 [], by and_intros <;> first | decide +kernel | (constructor <;> decide +kernel)⟩,
   ⟨wS { wBlk with sec.recovery := true, hub.wins := [(0, { busMaster := true, subs := [(1, (1, wBytes 0x10 []))] })] }, 0, 1, wBytes 0x10 [], by and_intros <;> first | decide +kernel | (constructor <;> decide +kernel)⟩,
   ⟨wS { wBlk with sec.zeroised := true, hub.wins := [(0, { busMaster := true, subs := [(1, (1, wBytes 0x10 []))] })] }, 0, 1, wBytes 0x10 [], by and_intros <;> first | decide +kernel | (constructor <;> decide +kernel)⟩,
   ⟨wS wBlk, 1, 2047, 1023, BitVec.allOnes 64, by constructor <;> decide +kernel, by decide +kernel⟩,
   ⟨wS wBlk, 1, 2047, 1023, 0, by constructor <;> decide +kernel, by decide +kernel⟩,
   ⟨wS wBlk, 1, { busMaster := false, d3hot := true }, by and_intros <;> decide +kernel⟩,
   ⟨wS (wReg wBlk Reg.secIdeCfg 1), 1, { busMaster := true }, by and_intros <;> decide +kernel⟩,
   ⟨wS wBlk, 63, by decide +kernel⟩⟩

/-- The hypotheses of HubCommandsAct are met, clause by clause. -/
theorem witness_HubCommandsAct :
    (∃ s : State, ∃ c : CmdId, ∃ r : CmdRec, (HubRuns s.blk c 0x00 r)) ∧
    (∃ s : State, ∃ c : CmdId, ∃ r : CmdRec, (HubRuns s.blk c 0x01 r)) ∧
    (∃ s : State, ∃ c : CmdId, ∃ r : CmdRec, (HubRuns s.blk c 0x02 r) ∧ (r.started = false) ∧ (r.arg 0x19 1 < 4) ∧ (s.blk.str.loaded = true) ∧ (s.blk.closing = false) ∧ ((s.blk.thr (r.arg 0x19 1)).wait.length < 16)) ∧
    (∃ s : State, ∃ c : CmdId, ∃ r : CmdRec, (HubRuns s.blk c 0x03 r) ∧ (mget s.blk.work.sheafs (r.arg 0x08 1) = none)) ∧
    (∃ s : State, ∃ c : CmdId, ∃ r : CmdRec, (HubRuns s.blk c 0x03 r) ∧ ∃ z : Sheaf, (mget s.blk.work.sheafs (r.arg 0x08 1) = some z) ∧ (z.cookie = r.arg 0x0C 4) ∧ (r.f ≠ 0 → r.part = some z.part) ∧ (s.blk.lastEnded (r.arg 0x08 1) z = none) ∧ (z.abort = none)) ∧
    (∃ s : State, ∃ c : CmdId, ∃ r : CmdRec, (HubRuns s.blk c 0x03 r) ∧ ∃ z : Sheaf, (mget s.blk.work.sheafs (r.arg 0x08 1) = some z) ∧ (z.cookie = r.arg 0x0C 4) ∧ (r.f ≠ 0 → r.part = some z.part) ∧ ∃ st : Nat, (s.blk.lastEnded (r.arg 0x08 1) z = some st)) ∧
    (∃ s : State, ∃ c : CmdId, ∃ r : CmdRec, (HubRuns s.blk c 0x07 r) ∧ (r.started = false)) ∧
    (∃ s : State, ∃ c : CmdId, ∃ r : CmdRec, (r.started = true) ∧ (HubRuns s.blk c 0x02 r)) ∧
    (∃ s : State, ∃ c : CmdId, ∃ r : CmdRec, (r.started = true) ∧ (HubRuns s.blk c 0x07 r)) :=
  ⟨⟨wCmd wBlk (wRec 0x00 []), wC, wRec 0x00 [], by constructor <;> decide +kernel⟩,
   ⟨wCmd wBlk (wRec 0x01 []), wC, wRec 0x01 [], by constructor <;> decide +kernel⟩,
   ⟨wCmd wBlk (wRec 0x02 [(0x19, [3])]), wC, wRec 0x02 [(0x19, [3])], by constructor <;> decide +kernel, by decide +kernel⟩,
   ⟨wCmd wBlk (wRec 0x03 []), wC, wRec 0x03 [], by constructor <;> decide +kernel, by decide +kernel⟩,
   ⟨wCmd { wBlk with work.sheafs := [(0, wSheaf [wTask])] } (wRec 0x03 [(0x0C, [5])]), wC, wRec 0x03 [(0x0C, [5])], by constructor <;> decide +kernel, wSheaf [wTask], by decide +kernel, by decide +kernel, (fun h => absurd rfl h), by decide +kernel⟩,
   ⟨wCmd { wBlk with work.sheafs := [(0, wClosed)] } (wRec 0x03 [(0x0C, [5])]), wC, wRec 0x03 [(0x0C, [5])], by constructor <;> decide +kernel, wClosed, by decide +kernel, by decide +kernel, (fun h => absurd rfl h), 0, by decide +kernel⟩,
   ⟨wCmd wBlk (wRec 0x07 []), wC, wRec 0x07 [], by constructor <;> decide +kernel, by decide +kernel⟩,
   ⟨wCmd wBlk { wRec 0x02 [] with started := true }, wC, { wRec 0x02 [] with started := true }, by decide +kernel, by constructor <;> decide +kernel⟩,
   ⟨wCmd wBlk { wRec 0x07 [] with started := true }, wC, { wRec 0x07 [] with started := true }, by decide +kernel, by constructor <;> decide +kernel⟩⟩

/-- The hypotheses of ApertureReadsAndWritesLines are met, clause by clause. -/
theorem witness_ApertureReadsAndWritesLines :
    (∃ s : State, ∃ off : BitVec 36, ∃ len : Nat, ∃ tag : Nat, ∃ x : TlpInfo, (s.blk.dead = false) ∧ (s.blk.sec.recovery = false) ∧ (s.blk.ideIn x.inStream = true) ∧ (s.blk.ideOk = true) ∧ (1 ≤ len) ∧ (off.toNat % 128 + len ≤ 128) ∧ (∀ a ∈ s.blk.hub.apt, a.tag ≠ tag) ∧ let w := s.blk.aptLine (off.toNat / 128 * 128); (w.2 = false)) ∧
    (∃ s : State, ∃ off : BitVec 36, ∃ len : Nat, ∃ tag : Nat, ∃ x : TlpInfo, (s.blk.dead = false) ∧ (s.blk.sec.recovery = false) ∧ (s.blk.ideIn x.inStream = true) ∧ (s.blk.ideOk = true) ∧ (1 ≤ len) ∧ (off.toNat % 128 + len ≤ 128) ∧ (∀ a ∈ s.blk.hub.apt, a.tag ≠ tag) ∧ let w := s.blk.aptLine (off.toNat / 128 * 128); (w.2 = true) ∧ (s.blk.closing = false) ∧ ((s.blk.check .pf0 .read w.1).status = 0) ∧ (LineFree s.blk w.1) ∧ (∀ y ∈ s.blk.coh.landed, y.who ≠ .aperture tag)) ∧
    (∃ s : State, ∃ off : BitVec 36, ∃ bs : Bytes, ∃ ep : Bool, ∃ x : TlpInfo, (s.blk.dead = false) ∧ (s.blk.sec.recovery = false) ∧ (s.blk.ideIn x.inStream = true) ∧ (s.blk.closing = false) ∧ (1 ≤ bs.length) ∧ (off.toNat % 128 + bs.length ≤ 128) ∧ let w := s.blk.aptLine (off.toNat / 128 * 128); (w.2 = true) ∧ (WritesNow s.blk ⟨.aperture 0, .pf0⟩ w.1)) ∧
    (∃ s : State, ∃ off : BitVec 36, ∃ bs : Bytes, ∃ ep : Bool, ∃ x : TlpInfo, (s.blk.dead = false) ∧ (s.blk.sec.recovery = false) ∧ (s.blk.ideIn x.inStream = true) ∧ (s.blk.closing = false) ∧ (1 ≤ bs.length) ∧ (off.toNat % 128 + bs.length ≤ 128) ∧ let w := s.blk.aptLine (off.toNat / 128 * 128); (w.2 = false)) ∧
    (∃ s : State, ∃ off : BitVec 36, ∃ bs : Bytes, ∃ ep : Bool, ∃ len : Nat, ∃ tag : Nat, ∃ x : TlpInfo, (s.blk.dead = false) ∧ (s.blk.sec.recovery = false) ∧ (s.blk.ideIn x.inStream = false)) ∧
    (∃ s : State, ∃ off : BitVec 36, ∃ bs : Bytes, ∃ ep : Bool, ∃ x : TlpInfo, (s.blk.ideIn x.inStream = true) ∧ (s.blk.closing = true)) ∧
    (∃ s : State, ∃ off : BitVec 36, ∃ bs : Bytes, ∃ ep : Bool, ∃ len : Nat, ∃ tag : Nat, ∃ x : TlpInfo, (s.blk.sec.recovery = true)) :=
  ⟨⟨wS wBlk, 127, 1, 5, ⟨true⟩, by and_intros <;> decide +kernel⟩,
   ⟨wS (wReg wBlk (Reg.hubAptBase 0) 0x80000000), 127, 1, 5, ⟨true⟩, by and_intros <;> first | decide +kernel | (constructor <;> decide +kernel)⟩,
   ⟨wS (wReg wBlk (Reg.hubAptBase 0) 0x80000000), 126, [1, 2], false, ⟨true⟩, by decide +kernel, by decide +kernel, by decide +kernel, (by decide +kernel), by decide +kernel, by decide +kernel, by decide +kernel, ⟨by decide +kernel, by constructor <;> decide +kernel, by decide +kernel, by decide +kernel, by constructor <;> decide +kernel⟩⟩,
   ⟨wS wBlk, 126, [1, 2], false, ⟨true⟩, by and_intros <;> decide +kernel⟩,
   ⟨wS (wReg wBlk Reg.secIdeCfg 1), 126, [1, 2], false, 1, 5, ⟨false⟩, by and_intros <;> decide +kernel⟩,
   ⟨wCmd wBlk (wRec 0x27 []), 0, [1], false, ⟨true⟩, by decide +kernel⟩,
   ⟨wS { wBlk with sec.recovery := true }, 0, [1], false, 1, 5, ⟨true⟩, by decide +kernel⟩⟩

/-- The hypotheses of MoversRunDescriptors are met, clause by clause. -/
theorem witness_MoversRunDescriptors :
    (∃ s : State, ∃ k : MoverIx, ∃ m : MoveRt, ∃ bs : Bytes, ∃ g : Blk, (s.blk.dead = false) ∧ (s.blk.hub.moves.find? (fun m => m.mover == k.val && !m.failed && m.fetched < m.count) = some m) ∧ (s.blk.parkedCount < 1024) ∧ (s.blk.inFlight k < 126) ∧ (g.moveOf m.f m.seq = some m) ∧ (s.blk.hostFetch (.list m.f m.seq) k m.f m.pasid (m.list + 64 * m.fetched) 64 (.data bs false) = (.ok (), g))) ∧
    (∃ s : State, ∃ k : MoverIx, ∃ h : HostResult, ∃ m : MoveRt, ∃ g : Blk, (s.blk.dead = false) ∧ (s.blk.hub.moves.find? (fun m => m.mover == k.val && !m.failed && m.fetched < m.count) = some m) ∧ (s.blk.parkedCount < 1024) ∧ (s.blk.inFlight k < 126) ∧ (s.blk.hostFetch (.list m.f m.seq) k m.f m.pasid (m.list + 64 * m.fetched) 64 h = (.error .wait, g))) ∧
    (∃ s : State, ∃ k : MoverIx, ∃ m : MoveRt, ∃ i : Nat, ∃ d : DescRt, (s.blk.dead = false) ∧ (s.blk.nextDesc k = some (m, i, d)) ∧ (s.blk.moveOf m.f m.seq = some m) ∧ (mget m.descs i = some d) ∧ (s.blk.pwr.holding = false) ∧ (s.blk.inFlight k < 126) ∧ let fenced := d.fence = true ∧ ∃ e ∈ m.descs, e.1 < i ∧ e.2.ended = false; (¬ fenced) ∧ (d.ok = true)) ∧
    (∃ s : State, ∃ k : MoverIx, ∃ m : MoveRt, ∃ i : Nat, ∃ d : DescRt, (s.blk.dead = false) ∧ (s.blk.nextDesc k = some (m, i, d)) ∧ (s.blk.moveOf m.f m.seq = some m) ∧ (mget m.descs i = some d) ∧ (s.blk.pwr.holding = false) ∧ (s.blk.inFlight k < 126) ∧ let fenced := d.fence = true ∧ ∃ e ∈ m.descs, e.1 < i ∧ e.2.ended = false; (¬ fenced) ∧ (d.ok = false)) ∧
    (∃ s : State, ∃ k : MoverIx, ∃ m : MoveRt, ∃ i : Nat, ∃ d : DescRt, (s.blk.dead = false) ∧ (s.blk.nextDesc k = some (m, i, d)) ∧ (s.blk.moveOf m.f m.seq = some m) ∧ (mget m.descs i = some d) ∧ (s.blk.pwr.holding = false) ∧ (s.blk.inFlight k < 126) ∧ let fenced := d.fence = true ∧ ∃ e ∈ m.descs, e.1 < i ∧ e.2.ended = false; (fenced)) ∧
    (∃ s : State, ∃ k : MoverIx, ∃ c : CmdId, ∃ i : Nat, ∃ m : MoveRt, ∃ d : DescRt, ∃ bs : Bytes, ∃ g : Blk, (DescRuns s.blk k c i m d) ∧ (s.blk.closing = false) ∧ (d.status = 0) ∧ (d.off < d.len) ∧ (d.toHost = false) ∧ (s.blk.pendingInt (m.req i).who = false) ∧ (s.blk.badWrite (m.req i).who = none) ∧ (g.badWrite (m.req i).who = none) ∧ let a := d.pool + d.off; let n := min (128 - a % 128) (d.len - d.off); (s.blk.hostFetch (.desc m.f m.seq i) k m.f m.pasid (d.host + d.off) n (.data bs false) = (.ok (), g)) ∧ (g.moveOf c.f.val c.seq.toNat = some m) ∧ (WritesNow g (m.req i) (a / 128))) ∧
    (∃ s : State, ∃ k : MoverIx, ∃ c : CmdId, ∃ i : Nat, ∃ m : MoveRt, ∃ d : DescRt, ∃ h : HostResult, ∃ bs : Bytes, ∃ ps : List (Nat × Bool), ∃ qs : List (Nat × Bool), ∃ g : Blk, ∃ y : Blk, ∃ z : Blk, ∃ p : Bool, (DescRuns s.blk k c i m d) ∧ (s.blk.closing = false) ∧ (d.status = 0) ∧ (d.off < d.len) ∧ (d.toHost = true) ∧ let a := d.pool + d.off; let n := min (128 - a % 128) (d.len - d.off); (s.blk.xlateAll (.desc m.f m.seq i) k m.f m.pasid true (pagesOf (d.host + d.off) n) = (.ok ps, g)) ∧ (s.blk.readInt (m.req i) (a / 128) = (.ok bs p, y)) ∧ (y.xlateAll (.desc m.f m.seq i) k m.f m.pasid true (pagesOf (d.host + d.off) n) = (.ok qs, z)) ∧ (z.ideOk m.f = true) ∧ (z.moveOf c.f.val c.seq.toNat = some m)) ∧
    (∃ s : State, ∃ k : MoverIx, ∃ c : CmdId, ∃ i : Nat, ∃ m : MoveRt, ∃ d : DescRt, ∃ h : HostResult, ∃ st : Nat, ∃ g : Blk, (DescRuns s.blk k c i m d) ∧ (s.blk.closing = false) ∧ (d.status = 0) ∧ (d.off < d.len) ∧ let n := min (128 - (d.pool + d.off) % 128) (d.len - d.off); (d.toHost = true ∧ s.blk.xlateAll (.desc m.f m.seq i) k m.f m.pasid true (pagesOf (d.host + d.off) n) = (.error (.fail st), g)) ∨ (d.toHost = false ∧ s.blk.pendingInt (m.req i).who = false ∧ s.blk.badWrite (m.req i).who = none ∧ s.blk.hostFetch (.desc m.f m.seq i) k m.f m.pasid (d.host + d.off) n h = (.error (.fail st), g)) ∧ (g.moveOf c.f.val c.seq.toNat = some m)) ∧
    (∃ s : State, ∃ k : MoverIx, ∃ c : CmdId, ∃ i : Nat, ∃ m : MoveRt, ∃ d : DescRt, ∃ r : CmdRec, (DescRuns s.blk k c i m d) ∧ (d.status ≠ 0 ∨ d.len ≤ d.off) ∧ (s.blk.pendingInt (m.req i).who = false) ∧ (s.blk.badWrite (m.req i).who = none) ∧ (m.descs = [(i, d)]) ∧ (m.failed = true ∨ m.fetched = m.count) ∧ (s.blk.cmd c = some r) ∧ (r.lost = false)) :=
  ⟨⟨wS (wMov []), 0, wMove [], zeros 64, ((wMov []).hostFetch (.list 0 1) 0 0 0 0 64 (.data (zeros 64) false)).2, by decide +kernel⟩,
   ⟨wS { wMov [] with hub.atc := [] }, 0, .pending, wMove [], (({ wMov [] with hub.atc := [] } : Blk).hostFetch (.list 0 1) 0 0 0 0 64 .pending).2, by decide +kernel⟩,
   ⟨wS (wMov [(0, wDescRt 0)]), 0, wMove [(0, wDescRt 0)], 0, wDescRt 0, by and_intros <;> decide +kernel⟩,
   ⟨wS (wMov [(0, {wDescRt 0 with bytes := zeros 64})]), 0, wMove [(0, {wDescRt 0 with bytes := zeros 64})], 0, {wDescRt 0 with bytes := zeros 64}, by and_intros <;> decide +kernel⟩,
   ⟨wS (wMov [(0, wRuns 0), (1, wDescRt 2)]), 0, wMove [(0, wRuns 0), (1, wDescRt 2)], 1, wDescRt 2, by and_intros <;> decide +kernel⟩,
   ⟨wS (wMov [(0, wRuns 0)]), 0, wC, 0, wMove [(0, wRuns 0)], wRuns 0, zeros 128, ((wMov [(0, wRuns 0)]).hostFetch (.desc 0 1 0) 0 0 0 0 128 (.data (zeros 128) false)).2, by constructor <;> decide +kernel, by decide +kernel, by decide +kernel, by decide +kernel, (by decide +kernel), by decide +kernel, by decide +kernel, by decide +kernel, (by decide +kernel), by decide +kernel, ⟨by decide +kernel, by constructor <;> decide +kernel, by decide +kernel, by decide +kernel, by constructor <;> decide +kernel⟩⟩,
   ⟨wS (wOut), 0, wC, 0, wMove [(0, wRuns 1)], wRuns 1, .fault, zeros 128, [(65536, false)], [(65536, false)], (wOut.xlate (.desc 0 1 0) 0 0 0 0 true).2, (wOut.readInt ((wMove [(0, wRuns 1)]).req 0) 65536).2, ((wOut.readInt ((wMove [(0, wRuns 1)]).req 0) 65536).2.xlate (.desc 0 1 0) 0 0 0 0 true).2, false, by and_intros <;> first | decide +kernel | (constructor <;> decide +kernel)⟩,
   ⟨wS wFaults, 0, wC, 0, wMove [(0, wRuns 0)], wRuns 0, .fault, 0x80, (wFaults.hostFetch (.desc 0 1 0) 0 0 0 0 128 .fault).2, by and_intros <;> first | decide +kernel | (constructor <;> decide +kernel)⟩,
   ⟨wCmd { wBlk with hub.moves := [{ wMove [(0, { wRuns 0 with off := 128 })] with fetched := 2 }] } (wRec 0x07 []), 0, wC, 0, { wMove [(0, { wRuns 0 with off := 128 })] with fetched := 2 }, { wRuns 0 with off := 128 }, wRec 0x07 [], by and_intros <;> first | decide +kernel | (constructor <;> decide +kernel)⟩⟩

/-- The hypotheses of TranslationsComeAndGo are met, clause by clause. -/
theorem witness_TranslationsComeAndGo :
    (∃ s : State, ∃ f : Func, ∃ pasid : BitVec 20, ∃ page : BitVec 52, ∃ o : TransOut, (s.blk.dead = false) ∧ (s.blk.ideIn true f = true) ∧ (s.blk.hub.trans.find? (fun t => t.f == f.val && t.pasid == pasid.toNat && t.page == page.toNat) = some o) ∧ ∃ addr : DWord, ∃ k : Nat, ∃ r : Bool, ∃ w : Bool, ∃ u : Bool, (o.stale = false) ∧ ((r || w) = true) ∧ let mine := fun (w : XferWait) => !w.parked && w.f == f.val && w.pasid == pasid.toNat && w.page == page.toNat; (∀ x ∈ s.blk.hub.waits, mine x = false)) ∧
    (∃ s : State, ∃ f : Func, ∃ pasid : BitVec 20, ∃ page : BitVec 52, ∃ o : TransOut, (s.blk.dead = false) ∧ (s.blk.ideIn true f = true) ∧ (s.blk.hub.trans.find? (fun t => t.f == f.val && t.pasid == pasid.toNat && t.page == page.toNat) = some o) ∧ ∃ res : TransResult, (o.stale = true) ∧ let mine := fun (w : XferWait) => !w.parked && w.f == f.val && w.pasid == pasid.toNat && w.page == page.toNat; (∀ x ∈ s.blk.hub.waits, mine x = false)) ∧
    (∃ s : State, ∃ f : Func, ∃ pasid : BitVec 20, ∃ page : BitVec 52, ∃ o : TransOut, (s.blk.dead = false) ∧ (s.blk.ideIn true f = true) ∧ (s.blk.hub.trans.find? (fun t => t.f == f.val && t.pasid == pasid.toNat && t.page == page.toNat) = some o) ∧ ∃ w : XferWait, ∃ c : CmdId, ∃ i : Nat, ∃ m : MoveRt, ∃ d : DescRt, (o.stale = false) ∧ (s.blk.hub.waits = [w]) ∧ let mine := fun (w : XferWait) => !w.parked && w.f == f.val && w.pasid == pasid.toNat && w.page == page.toNat; (mine w = true) ∧ (w.x = .desc c.f c.seq.toNat i) ∧ (DescRuns s.blk m.mover c i m d)) ∧
    (∃ s : State, ∃ f : Func, ∃ pasid : BitVec 20, ∃ page : BitVec 52, ∃ res : TransResult, (s.blk.ideIn true f = true) ∧ (s.blk.hub.trans.find? (fun t => t.f == f.val && t.pasid == pasid.toNat && t.page == page.toNat) = none)) ∧
    (∃ s : State, ∃ r : PageReq, (s.blk.dead = false) ∧ (s.blk.hub.prqs = [r]) ∧ (r.sent = none) ∧ ((s.blk.win r.f).master = true) ∧ (0 < tget (fun _ => 0) s.blk.hub.alloc r.f) ∧ (s.blk.ideOk r.f = true)) ∧
    (∃ s : State, ∃ f : Func, ∃ i : Nat, ∃ code : PrgCode, (s.blk.dead = false) ∧ (s.blk.ideIn true f = true) ∧ (s.blk.hub.prqs.find? (fun r => r.f == f.val && (r.sent.map (·.1)) == some i) = none)) ∧
    (∃ s : State, ∃ f : Func, ∃ i : Nat, ∃ r : PageReq, (s.blk.dead = false) ∧ (s.blk.ideIn true f = true) ∧ (s.blk.hub.prqs.find? (fun r => r.f == f.val && (r.sent.map (·.1)) == some i) = some r) ∧ (r.gone = false) ∧ (∀ w ∈ s.blk.hub.waits, w.parked = false)) ∧
    (∃ s : State, ∃ f : Func, ∃ i : Nat, ∃ a : Nat, ∃ n : Nat, ∃ r : PageReq, ∃ w : XferWait, ∃ c : CmdId, ∃ j : Nat, ∃ m : MoveRt, ∃ d : DescRt, (s.blk.dead = false) ∧ (s.blk.hub.prqs = [r]) ∧ (r.f = f.val) ∧ (r.sent = some (i, a)) ∧ (r.gone = false) ∧ (s.blk.hub.waits = [w]) ∧ (w.parked = true) ∧ (w.f = r.f) ∧ (w.pasid = r.pasid) ∧ (w.page = r.page) ∧ (w.x = .desc c.f c.seq.toNat j) ∧ (DescRuns s.blk m.mover c j m d) ∧ (n = r.limit * 1000000) ∧ (a + n < s.blk.tb)) ∧
    (∃ s : State, ∃ f : Func, ∃ i : Nat, ∃ a : Nat, ∃ n : Nat, ∃ r : PageReq, ∃ w : XferWait, ∃ c : CmdId, ∃ j : Nat, ∃ m : MoveRt, ∃ d : DescRt, (s.blk.dead = false) ∧ (s.blk.hub.prqs = [r]) ∧ (r.f = f.val) ∧ (r.sent = some (i, a)) ∧ (r.gone = false) ∧ (s.blk.hub.waits = [w]) ∧ (w.parked = true) ∧ (w.f = r.f) ∧ (w.pasid = r.pasid) ∧ (w.page = r.page) ∧ (w.x = .desc c.f c.seq.toNat j) ∧ (DescRuns s.blk m.mover c j m d) ∧ (n = r.limit * 1000000) ∧ (s.blk.tb ≤ a + n)) ∧
    (∃ s : State, ∃ f : Func, ∃ itag : Fin 32, ∃ pasid : Option (BitVec 20), ∃ lo : DWord, ∃ bytes : Nat, (s.blk.dead = false) ∧ (s.blk.hub.invs = []) ∧ (s.blk.ideIn true f = true) ∧ (s.blk.ideOk f = true)) ∧
    (∃ s : State, ∃ f : Func, ∃ itag : Fin 32, ∃ e : Engine, ∃ l : List Nat, (s.blk.dead = false) ∧ (s.blk.hub.invs = [⟨f, itag, [engineNo e], l⟩]) ∧ (s.blk.ideOk f = true) ∧ let reads := ∃ r ∈ s.blk.hub.reads, r.engine = engineNo e ∧ r.id ∈ l; (¬ reads)) ∧
    (∃ s : State, ∃ f : Func, ∃ itag : Fin 32, ∃ e : Engine, ∃ l : List Nat, (s.blk.dead = false) ∧ (s.blk.hub.invs = [⟨f, itag, [engineNo e], l⟩]) ∧ (s.blk.ideOk f = true) ∧ let reads := ∃ r ∈ s.blk.hub.reads, r.engine = engineNo e ∧ r.id ∈ l; (reads)) ∧
    (∃ s : State, ∃ f : Func, ∃ pasid : BitVec 20, ∃ page : BitVec 52, ∃ res : TransResult, ∃ i : Nat, ∃ code : PrgCode, ∃ itag : Fin 32, ∃ p : Option (BitVec 20), ∃ lo : DWord, ∃ bytes : Nat, ∃ n : Nat, ∃ on : Bool, (s.blk.dead = false) ∧ (s.blk.ideIn true f = false)) ∧
    (∃ s : State, ∃ f : Func, ∃ n : Nat, (s.blk.dead = false) ∧ (s.blk.ideIn true f = true) ∧ (∀ w ∈ s.blk.hub.waits, w.parked = false)) :=
  ⟨⟨wS { wMov [] with hub.trans := [⟨0, 0, 0, false⟩] }, 0, 0, 0, ⟨0, 0, 0, false⟩, by decide +kernel, by decide +kernel, by decide +kernel, 65536, 0, true, false, false, by decide +kernel⟩,
   ⟨wS { wMov [] with hub.trans := [⟨0, 0, 0, true⟩] }, 0, 0, 0, ⟨0, 0, 0, true⟩, by decide +kernel, by decide +kernel, by decide +kernel, .err, by decide +kernel⟩,
   ⟨wS { wMov [(0, wRuns 0)] with hub.trans := [⟨0, 0, 0, false⟩], hub.waits := [wWait false] }, 0, 0, 0, ⟨0, 0, 0, false⟩, by decide +kernel, by decide +kernel, by decide +kernel, wWait false, wC, 0, wMove [(0, wRuns 0)], wRuns 0, by and_intros <;> first | decide +kernel | (constructor <;> decide +kernel)⟩,
   ⟨wS wBlk, 0, 0, 0, .err, by decide +kernel⟩,
   ⟨wS { wBlk with hub.prqs := [⟨0, 0, 5, false, none, 0, false⟩], hub.alloc := [(0, 1)] }, ⟨0, 0, 5, false, none, 0, false⟩, by decide +kernel⟩,
   ⟨wS wBlk, 0, 3, .success, by decide +kernel⟩,
   ⟨wS { wBlk with hub.prqs := [⟨0, 0, 5, false, some (3, 0), 1, false⟩] }, 0, 3, ⟨0, 0, 5, false, some (3, 0), 1, false⟩, by decide +kernel⟩,
   ⟨wS { wMov [(0, wRuns 0)] with tb := 1000001, hub.prqs := [⟨0, 0, 0, false, some (3, 0), 1, false⟩], hub.waits := [wWait true] }, 0, 3, 0, 1000000, ⟨0, 0, 0, false, some (3, 0), 1, false⟩, wWait true, wC, 0, wMove [(0, wRuns 0)], wRuns 0, by and_intros <;> first | decide +kernel | (constructor <;> decide +kernel)⟩,
   ⟨wS { wMov [(0, wRuns 0)] with tb := 1000000, hub.prqs := [⟨0, 0, 0, false, some (3, 0), 1, false⟩], hub.waits := [wWait true] }, 0, 3, 0, 1000000, ⟨0, 0, 0, false, some (3, 0), 1, false⟩, wWait true, wC, 0, wMove [(0, wRuns 0)], wRuns 0, by and_intros <;> first | decide +kernel | (constructor <;> decide +kernel)⟩,
   ⟨wS wBlk, 0, 31, none, 8192, 8192, by and_intros <;> decide +kernel⟩,
   ⟨wS { wBlk with hub.invs := [⟨0, 31, [3], []⟩] }, 0, 31, .mover 3, [], by and_intros <;> decide +kernel⟩,
   ⟨wS { wBlk with hub.invs := [⟨0, 31, [3], [7]⟩], hub.reads := [⟨.desc 0 1 0, 3, 7, 0, 0, [], 1, 0⟩] }, 0, 31, .mover 3, [7], by and_intros <;> decide +kernel⟩,
   ⟨wS (wReg wBlk Reg.secIdeCfg 1), 0, 0, 0, .err, 0, .success, 0, none, 0, 4096, 8, true, by decide +kernel, by decide +kernel⟩,
   ⟨wS wBlk, 0, 8, by decide +kernel⟩⟩

/-- The hypotheses of PairTimersAct are met, clause by clause. -/
theorem witness_PairTimersAct :
    (∃ s : State, ∃ id : BitVec 16, ∃ x : Txn, ∃ d : Nat, ∃ o : Bytes, ∃ bs : Bytes, ∃ mask : BitVec 128, ∃ p : Bool, ∃ src : Eid, (s.blk.dead = false) ∧ (s.blk.coh.txns = [x]) ∧ (x.phase = .mirror id.toNat d o) ∧ (x.op = .wrline bs mask p) ∧ (x.who = .fabric src) ∧ (x.job = none) ∧ (mhas (s.blk.view (.router (Fin.ofNat 4 (homeOf x.line)))).eids src.toNat = true) ∧ ∃ tr : BitVec 16, ∃ st : Byte, (st ≠ 0)) ∧
    (∃ s : State, ∃ id : BitVec 16, ∃ x : Txn, ∃ d : Nat, ∃ o : Bytes, ∃ bs : Bytes, ∃ mask : BitVec 128, ∃ p : Bool, ∃ src : Eid, (s.blk.dead = false) ∧ (s.blk.coh.txns = [x]) ∧ (x.phase = .mirror id.toNat d o) ∧ (x.op = .wrline bs mask p) ∧ (x.who = .fabric src) ∧ (x.job = none) ∧ (mhas (s.blk.view (.router (Fin.ofNat 4 (homeOf x.line)))).eids src.toNat = true) ∧ (d ≤ s.blk.tb)) ∧
    (∃ s : State, ∃ id : BitVec 16, ∃ x : Txn, ∃ d : Nat, ∃ o : Bytes, ∃ bs : Bytes, ∃ mask : BitVec 128, ∃ p : Bool, ∃ src : Eid, (s.blk.dead = false) ∧ (s.blk.coh.txns = [x]) ∧ (x.phase = .mirror id.toNat d o) ∧ (x.op = .wrline bs mask p) ∧ (x.who = .fabric src) ∧ (x.job = none) ∧ (mhas (s.blk.view (.router (Fin.ofNat 4 (homeOf x.line)))).eids src.toNat = true) ∧ (s.blk.tb < d)) ∧
    (∃ s : State, ∃ id : BitVec 16, ∃ x : Txn, ∃ d : Nat, ∃ o : Bytes, ∃ bs : Bytes, ∃ mask : BitVec 128, ∃ p : Bool, ∃ src : Eid, (s.blk.dead = false) ∧ (s.blk.coh.txns = [x]) ∧ (x.phase = .mirror id.toNat d o) ∧ (x.op = .wrline bs mask p) ∧ (x.who = .fabric src) ∧ (x.job = none) ∧ (mhas (s.blk.view (.router (Fin.ofNat 4 (homeOf x.line)))).eids src.toNat = true) ∧ (s.blk.pair.role = 1) ∧ (s.blk.pair.fenced = false) ∧ (max (s.blk.pair.witAt.getD 0) s.blk.pair.witSince + 10000000 ≤ s.blk.tb)) ∧
    (∃ s : State, (s.blk.dead = false) ∧ (s.blk.pool.inj = []) ∧ (s.blk.ckptOn = true) ∧ (s.blk.pair.ckptAt + 100000000 ≤ s.blk.tb)) ∧
    (∃ s : State, (s.blk.dead = false) ∧ (s.blk.pool.inj = []) ∧ (s.blk.ckptOn = true) ∧ (s.blk.tb < s.blk.pair.ckptAt + 100000000)) ∧
    (∃ s : State, ∃ w : Nat, ∃ v : Nat, (s.blk.hbOn = true) ∧ (s.blk.pool.inj = []) ∧ (s.blk.pair.hbAt = none ∨ (s.blk.pair.hbAt = some w ∧ w + 1000000 ≤ s.blk.tb)) ∧ (mhas (s.blk.view (.router 0)).eids s.blk.str.run.pair.peer = true) ∧ (mhas (s.blk.view (.router 0)).eids s.blk.str.run.pair.witness = true) ∧ (v = (s.blk.pair.hbSeq + 1) % 2 ^ 32)) ∧
    (∃ s : State, ∃ w : Nat, (s.blk.pair.hbAt = some w) ∧ (s.blk.tb < w + 1000000)) ∧
    (∃ s : State, (s.blk.dead = false) ∧ (s.blk.pair.role = 1) ∧ (s.blk.pair.fenced = false) ∧ (∀ x ∈ s.blk.coh.txns, ∀ m d o, x.phase ≠ .mirror m d o) ∧ let last := max (s.blk.pair.witAt.getD 0) s.blk.pair.witSince; (last + 10000000 ≤ s.blk.tb)) ∧
    (∃ s : State, (s.blk.dead = false) ∧ (s.blk.pair.role = 1) ∧ (s.blk.pair.fenced = false) ∧ let last := max (s.blk.pair.witAt.getD 0) s.blk.pair.witSince; (s.blk.tb < last + 10000000)) ∧
    (∃ s : State, (s.blk.dead = false) ∧ (s.blk.str.loaded = true) ∧ (s.blk.pair.gap = true) ∧ (s.blk.pair.sweep ≠ []) ∧ (s.blk.pair.t0 + 48000000 ≤ s.blk.tb)) ∧
    (∃ s : State, (s.blk.dead = false) ∧ (s.blk.str.loaded = true) ∧ (s.blk.pair.gap = true) ∧ (s.blk.pair.sweep = []) ∧ (s.blk.pair.t0 + 12000000 ≤ s.blk.tb)) ∧
    (∃ s : State, (s.blk.dead = false) ∧ (s.blk.str.loaded = true) ∧ (s.blk.pair.gap = true) ∧ (s.blk.tb < s.blk.pair.t0 + 12000000)) ∧
    (∃ s : State, ∃ i : Nat, ∃ l : Nat, (s.blk.dead = false) ∧ (s.blk.str.loaded = true) ∧ (s.blk.pair.fenced = false) ∧ (s.blk.pair.copy = some (i, l)) ∧ (s.blk.pool.inj = []) ∧ (s.blk.pair.copyAt ≤ s.blk.tb * 1000) ∧ ((i, l) ≠ copyDone) ∧ (((s.blk.extEnt i).map (·.mirror)).getD false = true) ∧ (mhas (s.blk.view (.router (Fin.ofNat 4 (homeOf l)))).eids s.blk.str.run.pair.peer = true)) ∧
    (∃ s : State, ∃ i : Nat, ∃ l : Nat, (s.blk.dead = false) ∧ (s.blk.str.loaded = true) ∧ (s.blk.pair.fenced = false) ∧ (s.blk.pair.copy = some (i, l)) ∧ (s.blk.pool.inj = []) ∧ (s.blk.pair.copyAt ≤ s.blk.tb * 1000) ∧ ((i, l) = copyDone) ∧ (s.blk.pair.copies = [])) ∧
    (∃ s : State, ∃ i : Nat, ∃ l : Nat, (s.blk.dead = false) ∧ (s.blk.str.loaded = true) ∧ (s.blk.pair.fenced = false) ∧ (s.blk.pair.copy = some (i, l)) ∧ (s.blk.pool.inj = []) ∧ (s.blk.pair.copyAt ≤ s.blk.tb * 1000) ∧ ((i, l) = copyDone) ∧ (s.blk.pair.copies ≠ [])) ∧
    (∃ s : State, ∃ id : BitVec 16, ∃ l : Nat, ∃ at_ : Nat, (s.blk.dead = false) ∧ (s.blk.mirrorTxn id.toNat = none) ∧ (s.blk.pair.copy ≠ none) ∧ (s.blk.pair.copies = [(id.toNat, l, at_)]) ∧ (s.blk.pair.poisons = []) ∧ (at_ ≤ s.blk.tb)) ∧
    (∃ s : State, ∃ id : BitVec 16, ∃ l : Nat, ∃ at_ : Nat, (s.blk.dead = false) ∧ (s.blk.mirrorTxn id.toNat = none) ∧ (s.blk.pair.copy ≠ none) ∧ (s.blk.pair.copies = [(id.toNat, l, at_)]) ∧ (s.blk.pair.poisons = []) ∧ (s.blk.tb < at_)) :=
  ⟨⟨wS (wTxn wMirror), 4, wMirror, 1000000, [], zeros 128, 1, false, 1, by decide +kernel, by decide +kernel, by decide +kernel, (by decide +kernel), by decide +kernel, by decide +kernel, by decide +kernel, 0, 0x12, by decide +kernel⟩,
   ⟨wS (wTxn wMirror), 4, wMirror, 1000000, [], zeros 128, 1, false, 1, by decide +kernel⟩,
   ⟨wS { wTxn wMirror with tb := 999999 }, 4, wMirror, 1000000, [], zeros 128, 1, false, 1, by decide +kernel⟩,
   ⟨wS { wTxn wMirror with tb := 10000000, pair.role := 1 }, 4, wMirror, 1000000, [], zeros 128, 1, false, 1, by decide +kernel⟩,
   ⟨wS { wPair 1 with tb := 100000000 }, by decide +kernel⟩,
   ⟨wS { wPair 1 with tb := 99999999 }, by decide +kernel⟩,
   ⟨wS { wBlk with pair := { role := 1, hbAt := some 0, hbSeq := 4294967295 } }, 0, 0, by and_intros <;> decide +kernel⟩,
   ⟨wS { wBlk with tb := 999999, pair := { role := 1, hbAt := some 0 } }, 0, by decide +kernel⟩,
   ⟨wS { wPair 1 with tb := 10000000 }, by decide +kernel, by decide +kernel, by decide +kernel, (fun _ h => nomatch h), by decide +kernel⟩,
   ⟨wS { wPair 1 with tb := 9999999 }, by and_intros <;> decide +kernel⟩,
   ⟨wS { wBlk with tb := 48000000, pair := { role := 1, gap := true, sweep := [(1, 0)] } }, by decide +kernel⟩,
   ⟨wS { wBlk with tb := 12000000, pair := { role := 1, gap := true } }, by decide +kernel⟩,
   ⟨wS { wBlk with tb := 11999999, pair := { role := 1, gap := true } }, by decide +kernel⟩,
   ⟨wS { wBlk with pair := { role := 1, solo := true, copy := some (2, 131072) } }, 2, 131072, by decide +kernel⟩,
   ⟨wS { wBlk with pair := { role := 1, solo := true, copy := some copyDone } }, copyDone.1, copyDone.2, by decide +kernel⟩,
   ⟨wS { wBlk with pair := { role := 1, solo := true, copy := some copyDone, copies := [(4, 5, 9)] } }, copyDone.1, copyDone.2, by decide +kernel⟩,
   ⟨wS { wBlk with pair := { role := 1, solo := true, copy := some (2, 131073), copies := [(4, 131072, 1000000)] } }, 4, 131072, 1000000, by decide +kernel⟩,
   ⟨wS { wBlk with pair := { role := 1, solo := true, copy := some (2, 131073), copies := [(4, 131072, 1000001)] } }, 4, 131072, 1000001, by decide +kernel⟩⟩

/-- The hypotheses of SecurityCommandsAct are met, clause by clause. -/
theorem witness_SecurityCommandsAct :
    (∃ s : State, ∃ c : CmdId, ∃ r : CmdRec, (MgmtRuns s.blk c 0x20 r)) ∧
    (∃ s : State, ∃ c : CmdId, ∃ r : CmdRec, (MgmtRuns s.blk c 0x2A r)) ∧
    (∃ s : State, ∃ c : CmdId, ∃ r : CmdRec, ∃ bs : Bytes, (MgmtRuns s.blk c 0x21 r) ∧ (s.blk.mgmt.fwWriting = none) ∧ (s.blk.mayRead = false)) ∧
    (∃ s : State, ∃ c : CmdId, ∃ r : CmdRec, ∃ bs : Bytes, (MgmtRuns s.blk c 0x21 r) ∧ (s.blk.mgmt.fwWriting = none) ∧ (s.blk.mayRead = true) ∧ (ReadRoom s.blk r)) ∧
    (∃ s : State, ∃ c : CmdId, ∃ r : CmdRec, ∃ h : HostResult, ∃ x : Bytes, ∃ e : DirEntry, (MgmtRuns s.blk c 0x21 r) ∧ (s.blk.mgmt.fwWriting = some (c, x)) ∧ (dirFind s.nv.flash 2 = some e)) ∧
    (∃ s : State, ∃ c : CmdId, ∃ r : CmdRec, ∃ bs : Bytes, (MgmtRuns s.blk c 0x24 r) ∧ (s.blk.mayRead = false)) ∧
    (∃ s : State, ∃ c : CmdId, ∃ r : CmdRec, ∃ bs : Bytes, (MgmtRuns s.blk c 0x24 r) ∧ (s.blk.mayRead = true) ∧ (ReadRoom s.blk r)) ∧
    (∃ s : State, ∃ c : CmdId, ∃ r : CmdRec, (MgmtRuns s.blk c 0x22 r)) ∧
    (∃ s : State, ∃ c : CmdId, ∃ r : CmdRec, ∃ bs : Bytes, (MgmtRuns s.blk c 0x23 r) ∧ (s.blk.sec.otp.ownerSet = true)) ∧
    (∃ s : State, ∃ c : CmdId, ∃ r : CmdRec, ∃ bs : Bytes, (MgmtRuns s.blk c 0x23 r) ∧ (s.blk.sec.otp.ownerSet = false) ∧ (s.blk.mayRead = false)) ∧
    (∃ s : State, ∃ c : CmdId, ∃ r : CmdRec, ∃ bs : Bytes, (MgmtRuns s.blk c 0x23 r) ∧ (s.blk.sec.otp.ownerSet = false) ∧ (s.nv.otp.ownerSet = false) ∧ (s.blk.mayRead = true) ∧ (ReadRoom s.blk r)) ∧
    (∃ s : State, ∃ c : CmdId, ∃ r : CmdRec, (MgmtRuns s.blk c 0x25 r)) ∧
    (∃ s : State, ∃ c : CmdId, ∃ r : CmdRec, (MgmtRuns s.blk c 0x26 r) ∧ (s.blk.unlockable = false)) ∧
    (∃ s : State, ∃ c : CmdId, ∃ r : CmdRec, (MgmtRuns s.blk c 0x26 r) ∧ (s.blk.unlockable = true)) ∧
    (∃ s : State, ∃ c : CmdId, ∃ r : CmdRec, (MgmtRuns s.blk c 0x27 r)) ∧
    (∃ s : State, ∃ c : CmdId, ∃ r : CmdRec, (MgmtRuns s.blk c 0x28 r) ∧ let n := s.blk.sec.chain.length; (r.arg 0x14 4 < n)) ∧
    (∃ s : State, ∃ c : CmdId, ∃ r : CmdRec, (MgmtRuns s.blk c 0x28 r) ∧ let n := s.blk.sec.chain.length; (n ≤ r.arg 0x14 4) ∧ ((s.blk.win r.f).master = true) ∧ (s.blk.ideOk r.f = true)) ∧
    (∃ s : State, ∃ c : CmdId, ∃ r : CmdRec, (MgmtRuns s.blk c 0x28 r) ∧ let n := s.blk.sec.chain.length; (n ≤ r.arg 0x14 4) ∧ ((s.blk.win r.f).master = false)) ∧
    (∃ s : State, ∃ c : CmdId, ∃ r : CmdRec, ∃ bs : Bytes, (MgmtRuns s.blk c 0x29 r) ∧ (s.blk.sec.recovery = true) ∧ (s.blk.sec.otp.ownerSet = false) ∧ (s.blk.mayRead = true) ∧ (ReadRoom s.blk r) ∧ (s.blk.str.boot = none)) ∧
    (∃ s : State, ∃ c : CmdId, ∃ r : CmdRec, ∃ h : HostResult, (MgmtRuns s.blk c 0x29 r) ∧ (s.blk.sec.recovery = false)) ∧
    (∃ s : State, ∃ v : Word, (HostWrites s.blk) ∧ (v.getLsbD 0 = true)) ∧
    (∃ s : State, ∃ v : Word, (HostWrites s.blk) ∧ (v.getLsbD 0 = false)) :=
  ⟨⟨wCmd wBlk (wRec 0x20 []), wC, wRec 0x20 [], by constructor <;> decide +kernel⟩,
   ⟨wCmd wBlk (wRec 0x2A []), wC, wRec 0x2A [], by constructor <;> decide +kernel⟩,
   ⟨wCmd { wBlk with hub.wins := [] } (wRec 0x21 []), wC, wRec 0x21 [], zeros 4096, by constructor <;> decide +kernel, by decide +kernel⟩,
   ⟨wCmd wBlk (wRec 0x21 []), wC, wRec 0x21 [], zeros 4096, by constructor <;> decide +kernel, by decide +kernel, by decide +kernel, Or.inl (by decide +kernel)⟩,
   ⟨{ wCmd { wBlk with mgmt.fwWriting := some (wC, [1]) } (wRec 0x21 []) with nv := { flash := [(0, 2), (5, 16)] } }, wC, wRec 0x21 [], .fault, [1], ⟨2, 4096, 0⟩, by constructor <;> decide +kernel, by decide +kernel⟩,
   ⟨wCmd { wBlk with hub.wins := [] } (wRec 0x24 []), wC, wRec 0x24 [], zeros 512, by constructor <;> decide +kernel, by decide +kernel⟩,
   ⟨wCmd wBlk (wRec 0x24 []), wC, wRec 0x24 [], zeros 512, by constructor <;> decide +kernel, by decide +kernel, Or.inl (by decide +kernel)⟩,
   ⟨wCmd wBlk (wRec 0x22 []), wC, wRec 0x22 [], by constructor <;> decide +kernel⟩,
   ⟨wCmd { wBlk with sec.otp := { ownerSet := true } } (wRec 0x23 []), wC, wRec 0x23 [], zeros 128, by constructor <;> decide +kernel, by decide +kernel⟩,
   ⟨wCmd { wBlk with hub.wins := [] } (wRec 0x23 []), wC, wRec 0x23 [], zeros 128, by constructor <;> decide +kernel, by decide +kernel⟩,
   ⟨wCmd wBlk (wRec 0x23 []), wC, wRec 0x23 [], zeros 128, by constructor <;> decide +kernel, by decide +kernel, by decide +kernel, by decide +kernel, Or.inl (by decide +kernel)⟩,
   ⟨wCmd wBlk (wRec 0x25 []), wC, wRec 0x25 [], by constructor <;> decide +kernel⟩,
   ⟨wCmd wBlk (wRec 0x26 []), wC, wRec 0x26 [], by constructor <;> decide +kernel, by decide +kernel⟩,
   ⟨wCmd { wBlk with sec.guard := some ⟨[], [], true⟩ } (wRec 0x26 []), wC, wRec 0x26 [], by constructor <;> decide +kernel, by decide +kernel⟩,
   ⟨wCmd wBlk (wRec 0x27 []), wC, wRec 0x27 [], by constructor <;> decide +kernel⟩,
   ⟨wCmd { wBlk with sec.chain := [1, 2] } (wRec 0x28 [(0x14, [1])]), wC, wRec 0x28 [(0x14, [1])], by constructor <;> decide +kernel, by decide +kernel⟩,
   ⟨wCmd { wBlk with sec.chain := [1, 2] } (wRec 0x28 [(0x14, [2])]), wC, wRec 0x28 [(0x14, [2])], by constructor <;> decide +kernel, by decide +kernel⟩,
   ⟨wCmd { wBlk with sec.chain := [1, 2], hub.wins := [] } (wRec 0x28 [(0x14, [2])]), wC, wRec 0x28 [(0x14, [2])], by constructor <;> decide +kernel, by decide +kernel⟩,
   ⟨wCmd { wBlk with sec.recovery := true } (wRec 0x29 []), wC, wRec 0x29 [], zeros 4096, by constructor <;> decide +kernel, by decide +kernel, by decide +kernel, by decide +kernel, Or.inl (by decide +kernel), by decide +kernel⟩,
   ⟨wCmd wBlk (wRec 0x29 []), wC, wRec 0x29 [], .fault, by constructor <;> decide +kernel, by decide +kernel⟩,
   ⟨wS wBlk, 1, by constructor <;> decide +kernel, by decide +kernel⟩,
   ⟨wS wBlk, 0, by constructor <;> decide +kernel, by decide +kernel⟩⟩

/-- The hypotheses of SpdmResponderAnswers are met, clause by clause. -/
theorem witness_SpdmResponderAnswers :
    (∃ s : State, ∃ v : SpdmVia, (s.blk.spdmUp = true) ∧ (v.session = none) ∧ (s.blk.sec.spdm = 1)) ∧
    (∃ s : State, ∃ v : SpdmVia, (s.blk.spdmUp = true) ∧ (v.session = none) ∧ (s.blk.sec.spdm = 2)) ∧
    (∃ s : State, ∃ v : SpdmVia, (s.blk.spdmUp = true) ∧ (v.session = none) ∧ (s.blk.sec.spdm ≠ 1)) ∧
    (∃ s : State, ∃ v : SpdmVia, (s.blk.spdmUp = true) ∧ (v.session = none) ∧ (s.blk.sec.spdm ≠ 3)) ∧
    (∃ s : State, ∃ v : SpdmVia, (SpdmOpen s.blk v) ∧ ∃ o : Nat, ∃ n : Nat, let chain := s.blk.sec.chain; (o < chain.length)) ∧
    (∃ s : State, ∃ v : SpdmVia, (SpdmOpen s.blk v) ∧ ∃ slot : Nat, ∃ o : Nat, ∃ n : Nat, let chain := s.blk.sec.chain; (slot ≠ 0 ∨ chain.length ≤ o)) ∧
    (∃ s : State, ∃ v : SpdmVia, (SpdmOpen s.blk v) ∧ ∃ nonce : Bytes, (s.blk.sec.aliasUp = true)) ∧
    (∃ s : State, ∃ v : SpdmVia, (SpdmOpen s.blk v) ∧ ∃ i : Nat, ∃ m : Bytes, ∃ nonce : Bytes, (i ∈ [1, 2, 3, 4, 5, 6, 7, 8, 9, 10, 11]) ∧ (s.blk.measurement i = some m)) ∧
    (∃ s : State, ∃ v : SpdmVia, (SpdmOpen s.blk v) ∧ ∃ nonce : Bytes, (s.blk.sec.aliasUp = false)) ∧
    (∃ s : State, ∃ v : SpdmVia, ∃ id : BitVec 16, ∃ random : Bytes, ∃ exchange : Bytes, (SpdmOpen s.blk v) ∧ (v.session = none) ∧ (exchange.length = 64) ∧ (s.blk.sec.aliasUp = true) ∧ (s.blk.sec.sessions = [])) ∧
    (∃ s : State, ∃ v : SpdmVia, ∃ id : BitVec 16, ∃ random : Bytes, ∃ exchange : Bytes, (SpdmOpen s.blk v) ∧ (v.session = none) ∧ (exchange.length = 64) ∧ (s.blk.sec.aliasUp = true) ∧ ((s.blk.session 0).isSome = true) ∧ ((s.blk.session 1).isSome = true)) ∧
    (∃ s : State, ∃ v : SpdmVia, ∃ k : Fin 2, ∃ x : Session, ∃ verify : Bytes, (s.blk.spdmUp = true) ∧ (v.session = some k) ∧ (s.blk.session k = some x) ∧ (x.finished = false)) ∧
    (∃ s : State, ∃ v : SpdmVia, ∃ k : Fin 2, ∃ x : Session, (SpdmOpen s.blk v) ∧ (v.session = some k) ∧ (s.blk.session k = some x) ∧ ∃ op : Nat, (op = 1 ∨ op = 2)) ∧
    (∃ s : State, ∃ v : SpdmVia, ∃ k : Fin 2, ∃ x : Session, (SpdmOpen s.blk v) ∧ (v.session = some k) ∧ (s.blk.session k = some x) ∧ ∃ n : Fin 5, ∃ key : Bytes, True) ∧
    (∃ s : State, ∃ v : SpdmVia, ∃ k : Fin 2, ∃ x : Session, (SpdmOpen s.blk v) ∧ (v.session = some k) ∧ (s.blk.session k = some x) ∧ ∃ n : Fin 5, (mhas s.blk.sec.ideKeys n = true)) ∧
    (∃ s : State, ∃ v : SpdmVia, ∃ q : IdeKm, ∃ code : Byte, (SpdmOpen s.blk v) ∧ (v.session = none)) ∧
    (∃ s : State, ∃ v : SpdmVia, (s.blk.mgmt.resetting = true) ∧ (s.blk.ideIn true = true)) ∧
    (∃ s : State, ∃ k : Option (Fin 2), (s.blk.dead = false) ∧ (s.blk.ideIn true = false)) :=
  ⟨⟨wS { wBlk with sec.spdm := 1 }, ⟨true, none⟩, by decide +kernel⟩,
   ⟨wS { wBlk with sec.spdm := 2 }, ⟨true, none⟩, by decide +kernel⟩,
   ⟨wS wBlk, ⟨true, none⟩, by decide +kernel⟩,
   ⟨wS wBlk, ⟨true, none⟩, by decide +kernel⟩,
   ⟨wS (wSpdm true), ⟨false, some 0⟩, ⟨by decide +kernel, by decide +kernel, fun k h => by cases h; exact ⟨_, rfl, rfl⟩⟩, 1, 5, by decide +kernel⟩,
   ⟨wS (wSpdm true), ⟨false, some 0⟩, ⟨by decide +kernel, by decide +kernel, fun k h => by cases h; exact ⟨_, rfl, rfl⟩⟩, 0, 2, 5, by decide +kernel⟩,
   ⟨wS { wSpdm true with sec.aliasKey := some 1 }, ⟨false, some 0⟩, ⟨by decide +kernel, by decide +kernel, fun k h => by cases h; exact ⟨_, rfl, rfl⟩⟩, zeros 32, by decide +kernel⟩,
   ⟨wS (wSpdm true), ⟨false, some 0⟩, ⟨by decide +kernel, by decide +kernel, fun k h => by cases h; exact ⟨_, rfl, rfl⟩⟩, 1, [1], zeros 32, by decide +kernel⟩,
   ⟨wS (wSpdm true), ⟨false, some 0⟩, ⟨by decide +kernel, by decide +kernel, fun k h => by cases h; exact ⟨_, rfl, rfl⟩⟩, zeros 32, by decide +kernel⟩,
   ⟨wS { wBlk with sec.spdm := 3, sec.aliasKey := some 1 }, ⟨false, none⟩, 5, zeros 32, zeros 64, ⟨by decide +kernel, by decide +kernel, fun k h => by cases h⟩, by decide +kernel⟩,
   ⟨wS { wBlk with sec.spdm := 3, sec.aliasKey := some 1, sec.sessions := [⟨5, true, 0⟩, ⟨65541, true, 0⟩] }, ⟨false, none⟩, 5, zeros 32, zeros 64, ⟨by decide +kernel, by decide +kernel, fun k h => by cases h⟩, by decide +kernel⟩,
   ⟨wS (wSpdm false), ⟨false, some 0⟩, 0, ⟨5, false, 0⟩, zeros 32, by decide +kernel⟩,
   ⟨wS (wSpdm true), ⟨false, some 0⟩, 0, ⟨5, true, 0⟩, ⟨by decide +kernel, by decide +kernel, fun k h => by cases h; exact ⟨_, rfl, rfl⟩⟩, by decide +kernel, by decide +kernel, 2, by decide +kernel⟩,
   ⟨wS (wSpdm true), ⟨false, some 0⟩, 0, ⟨5, true, 0⟩, ⟨by decide +kernel, by decide +kernel, fun k h => by cases h; exact ⟨_, rfl, rfl⟩⟩, by decide +kernel, by decide +kernel, 4, zeros 32, trivial⟩,
   ⟨wS (wSpdm true), ⟨false, some 0⟩, 0, ⟨5, true, 0⟩, ⟨by decide +kernel, by decide +kernel, fun k h => by cases h; exact ⟨_, rfl, rfl⟩⟩, by decide +kernel, by decide +kernel, 2, by decide +kernel⟩,
   ⟨wS { wBlk with sec.spdm := 3, sec.aliasKey := some 1 }, ⟨false, none⟩, .query, 0xE0, ⟨by decide +kernel, by decide +kernel, fun k h => by cases h⟩, by decide +kernel⟩,
   ⟨wS { wBlk with mgmt.resetting := true }, ⟨true, none⟩, by decide +kernel⟩,
   ⟨wS (wReg wBlk Reg.secIdeCfg 1), none, by decide +kernel⟩⟩

/-- The hypotheses of PowerStatesChange are met, clause by clause. -/
theorem witness_PowerStatesChange :
    (∃ s : State, ∃ c : CmdId, ∃ r : CmdRec, (MgmtRuns s.blk c 0x40 r) ∧ ∃ x : PwrMove, (s.blk.pwr.move = some x) ∧ (x.cmd ≠ c)) ∧
    (∃ s : State, ∃ c : CmdId, ∃ r : CmdRec, (MgmtRuns s.blk c 0x40 r) ∧ (s.blk.pwr.move = none) ∧ (s.blk.str.commit = none) ∧ let st := r.arg 0x08 1; let m := r.arg 0x0C 4; let ok := pwrAllowed s.blk.pwr.state s.blk.pwr.mask st m = true; (¬ ok)) ∧
    (∃ s : State, ∃ c : CmdId, ∃ r : CmdRec, (MgmtRuns s.blk c 0x40 r) ∧ (s.blk.pwr.move = none) ∧ (s.blk.str.commit = none) ∧ let st := r.arg 0x08 1; let m := r.arg 0x0C 4; let ok := pwrAllowed s.blk.pwr.state s.blk.pwr.mask st m = true; (ok) ∧ (st ≤ 2) ∧ (s.blk.pwr.state ≤ 2) ∧ (∀ k, k < 24 → powerGates st m k = true → (s.blk.til k).run = none)) ∧
    (∃ s : State, ∃ c : CmdId, ∃ r : CmdRec, (MgmtRuns s.blk c 0x40 r) ∧ (s.blk.pwr.move = none) ∧ (s.blk.str.commit = none) ∧ let st := r.arg 0x08 1; let m := r.arg 0x0C 4; let ok := pwrAllowed s.blk.pwr.state s.blk.pwr.mask st m = true; (ok) ∧ (st ≤ 2) ∧ (s.blk.pwr.state ≤ 2) ∧ (∃ k, k < 24 ∧ powerGates st m k = true ∧ (s.blk.til k).run ≠ none)) ∧
    (∃ s : State, ∃ c : CmdId, ∃ r : CmdRec, (MgmtRuns s.blk c 0x40 r) ∧ (s.blk.pwr.move = none) ∧ (s.blk.str.commit = none) ∧ (s.blk.pwr.state = 2) ∧ let st := r.arg 0x08 1; (st = 3) ∧ (s.blk.pair.code ≠ 1) ∧ (s.blk.pair.code ≠ 5)) ∧
    (∃ s : State, ∃ c : CmdId, ∃ r : CmdRec, (MgmtRuns s.blk c 0x40 r) ∧ (s.blk.pwr.move = none) ∧ (s.blk.str.commit = none) ∧ (s.blk.pwr.state = 3) ∧ let st := r.arg 0x08 1; (st = 2)) ∧
    (∃ s : State, ∃ c : CmdId, ∃ r : CmdRec, (MgmtRuns s.blk c 0x40 r) ∧ (s.blk.pwr.move = none) ∧ (s.blk.str.commit = none) ∧ (s.blk.pwr.state = 3) ∧ let st := r.arg 0x08 1; (st = 4)) ∧
    (∃ s : State, ∃ m : PwrMove, (s.blk.dead = false) ∧ (s.blk.pwr.move = some m) ∧ ∃ r : CmdRec, (m.state = 3) ∧ (s.blk.trackersFree = true) ∧ (s.blk.portsClosed = true) ∧ (s.blk.cmd m.cmd = some r) ∧ (r.lost = false)) ∧
    (∃ s : State, ∃ m : PwrMove, (s.blk.dead = false) ∧ (s.blk.pwr.move = some m) ∧ (m.state = 3) ∧ (s.blk.trackersFree = false)) ∧
    (∃ s : State, ∃ m : PwrMove, (s.blk.dead = false) ∧ (s.blk.pwr.move = some m) ∧ ∃ r : CmdRec, (m.state ≠ 3) ∧ (m.deadline ≤ s.blk.tb) ∧ (s.blk.cmd m.cmd = some r) ∧ (r.lost = false)) ∧
    (∃ s : State, ∃ m : PwrMove, (s.blk.dead = false) ∧ (s.blk.pwr.move = some m) ∧ (s.blk.tb < m.deadline)) :=
  ⟨⟨wCmd { wBlk with pwr.move := some ⟨⟨0, 9⟩, 2, 0, 5, false⟩ } (wRec 0x40 [(8, [2])]), wC, wRec 0x40 [(8, [2])], by constructor <;> decide +kernel, ⟨⟨0, 9⟩, 2, 0, 5, false⟩, by decide +kernel⟩,
   ⟨wCmd wBlk (wRec 0x40 [(8, [3])]), wC, wRec 0x40 [(8, [3])], by constructor <;> decide +kernel, by decide +kernel⟩,
   ⟨wCmd wBlk (wRec 0x40 [(8, [2])]), wC, wRec 0x40 [(8, [2])], by constructor <;> decide +kernel, by decide +kernel⟩,
   ⟨wCmd { wBlk with work.tillers := [(5, { run := some wRun })] } (wRec 0x40 [(8, [2])]), wC, wRec 0x40 [(8, [2])], by constructor <;> decide +kernel, by decide +kernel, by decide +kernel, by decide +kernel, (by decide +kernel), by decide +kernel, ⟨5, by decide +kernel, by decide +kernel, by decide +kernel⟩⟩,
   ⟨wCmd { wBlk with pwr.state := 2 } (wRec 0x40 [(8, [3])]), wC, wRec 0x40 [(8, [3])], by constructor <;> decide +kernel, by decide +kernel⟩,
   ⟨wCmd { wBlk with pwr.state := 3 } (wRec 0x40 [(8, [2])]), wC, wRec 0x40 [(8, [2])], by constructor <;> decide +kernel, by decide +kernel⟩,
   ⟨wCmd { wBlk with pwr.state := 3 } (wRec 0x40 [(8, [4])]), wC, wRec 0x40 [(8, [4])], by constructor <;> decide +kernel, by decide +kernel⟩,
   ⟨wCmd { wBlk with pwr.move := some ⟨wC, 3, 0, 5, true⟩, fab.links := (List.range 48).map (fun n => (n, { state := .disabled })) } (wRec 0x40 [(8, [3])]), ⟨wC, 3, 0, 5, true⟩, by decide +kernel, by decide +kernel, wRec 0x40 [(8, [3])], by decide +kernel⟩,
   ⟨wS { wTxn wAck with pwr.move := some ⟨wC, 3, 0, 5, false⟩ }, ⟨wC, 3, 0, 5, false⟩, by decide +kernel⟩,
   ⟨wCmd { wBlk with pwr.move := some ⟨wC, 2, 0, 1000000, false⟩ } (wRec 0x40 [(8, [2])]), ⟨wC, 2, 0, 1000000, false⟩, by decide +kernel, by decide +kernel, wRec 0x40 [(8, [2])], by decide +kernel⟩,
   ⟨wS { wBlk with pwr.move := some ⟨wC, 2, 0, 1000001, false⟩ }, ⟨wC, 2, 0, 1000001, false⟩, by decide +kernel⟩⟩

/-- The hypotheses of RailsHeatAndCalibrationAct are met, clause by clause. -/
theorem witness_RailsHeatAndCalibrationAct :
    (∃ s : State, ∃ c : CmdId, ∃ r : CmdRec, (MgmtRuns s.blk c 0x41 r) ∧ (s.blk.pwr.vcoreCmd = none)) ∧
    (∃ s : State, ∃ c : CmdId, ∃ r : CmdRec, ∃ o : Nat, ∃ x : Nat, (s.blk.dead = false) ∧ (s.blk.pwr.vcoreCmd = some (c, o, x)) ∧ (s.blk.cmd c = some r) ∧ (r.lost = false) ∧ (x ≤ s.blk.tb)) ∧
    (∃ s : State, ∃ c : CmdId, ∃ r : CmdRec, ∃ o : Nat, ∃ x : Nat, (s.blk.dead = false) ∧ (s.blk.pwr.vcoreCmd = some (c, o, x)) ∧ (s.blk.cmd c = some r) ∧ (r.lost = false) ∧ (s.blk.tb < x)) ∧
    (∃ s : State, ∃ c : CmdId, ∃ r : CmdRec, (MgmtRuns s.blk c 0x42 r)) ∧
    (∃ s : State, ∃ c : CmdId, ∃ r : CmdRec, (MgmtRuns s.blk c 0x43 r)) ∧
    (∃ s : State, ∃ c : CmdId, ∃ r : CmdRec, (MgmtRuns s.blk c 0x48 r) ∧ ∃ o : Nat, (calSlot s.nv.flash = some o) ∧ ((s.blk.win r.f).master = true) ∧ (s.blk.ideOk r.f = true)) ∧
    (∃ s : State, ∃ c : CmdId, ∃ r : CmdRec, (MgmtRuns s.blk c 0x48 r) ∧ ∃ o : Nat, (calSlot s.nv.flash = some o) ∧ ((s.blk.win r.f).master = false)) ∧
    (∃ s : State, ∃ c : CmdId, ∃ r : CmdRec, (MgmtRuns s.blk c 0x48 r) ∧ (calSlot s.nv.flash = none)) ∧
    (∃ s : State, ∃ c : CmdId, ∃ r : CmdRec, ∃ bs : Bytes, (MgmtRuns s.blk c 0x49 r) ∧ (s.blk.pwr.calWriting = none) ∧ ((calSlot s.nv.flash).isSome = true) ∧ (r.arg 0x08 1 = 1)) ∧
    (∃ s : State, ∃ c : CmdId, ∃ r : CmdRec, ∃ bs : Bytes, (MgmtRuns s.blk c 0x49 r) ∧ (s.blk.pwr.calWriting = none) ∧ ((calSlot s.nv.flash).isSome = true) ∧ (r.arg 0x08 1 ≠ 1) ∧ (s.blk.mayRead = false)) ∧
    (∃ s : State, ∃ c : CmdId, ∃ r : CmdRec, ∃ bs : Bytes, (MgmtRuns s.blk c 0x49 r) ∧ (s.blk.pwr.calWriting = none) ∧ ((calSlot s.nv.flash).isSome = true) ∧ (r.arg 0x08 1 ≠ 1) ∧ (s.blk.mayRead = true) ∧ (ReadRoom s.blk r)) ∧
    (∃ s : State, ∃ c : CmdId, ∃ r : CmdRec, ∃ bs : Bytes, ∃ o : Nat, (s.blk.dead = false) ∧ (s.blk.pwr.calWriting = some (c, bs)) ∧ (s.blk.cmd c = some r) ∧ (r.lost = false) ∧ (calSlot s.nv.flash = some o)) ∧
    (∃ s : State, ∃ ts : List Int, (s.blk.pwr.on = true) ∧ (s.blk.frozen = false) ∧ ∃ x : Nat, (s.blk.pwr.scanAt = some x) ∧ (s.blk.tb < x + 100000)) ∧
    (∃ s : State, ∃ ts : List Int, (s.blk.pwr.on = true) ∧ (s.blk.frozen = false) ∧ (ts.length = 34) ∧ (∀ x, s.blk.pwr.scanAt = some x → x + 100000 ≤ s.blk.tb)) :=
  ⟨⟨wCmd wBlk (wRec 0x41 [(8, toLe 2 800)]), wC, wRec 0x41 [(8, toLe 2 800)], by constructor <;> decide +kernel, by decide +kernel⟩,
   ⟨wCmd { wBlk with pwr.vcoreCmd := some (wC, 750, 1000000) } (wRec 0x41 [(8, toLe 2 800)]), wC, wRec 0x41 [(8, toLe 2 800)], 750, 1000000, by decide +kernel⟩,
   ⟨wCmd { wBlk with pwr.vcoreCmd := some (wC, 750, 1000001) } (wRec 0x41 [(8, toLe 2 800)]), wC, wRec 0x41 [(8, toLe 2 800)], 750, 1000001, by decide +kernel⟩,
   ⟨wCmd wBlk (wRec 0x42 []), wC, wRec 0x42 [], by constructor <;> decide +kernel⟩,
   ⟨wCmd wBlk (wRec 0x43 []), wC, wRec 0x43 [], by constructor <;> decide +kernel⟩,
   ⟨wCal (wRec 0x48 []) 0, wC, wRec 0x48 [], by constructor <;> decide +kernel, 4096, by decide +kernel⟩,
   ⟨{ wCal (wRec 0x48 []) 0 with blk.hub.wins := [] }, wC, wRec 0x48 [], by constructor <;> decide +kernel, 4096, by decide +kernel⟩,
   ⟨wCmd wBlk (wRec 0x48 []), wC, wRec 0x48 [], by constructor <;> decide +kernel, by decide +kernel⟩,
   ⟨wCal (wRec 0x49 [(8, [1])]) 0, wC, wRec 0x49 [(8, [1])], zeros 4, by constructor <;> decide +kernel, by decide +kernel⟩,
   ⟨{ wCal (wRec 0x49 []) 0 with blk.hub.wins := [] }, wC, wRec 0x49 [], zeros 4, by constructor <;> decide +kernel, by decide +kernel⟩,
   ⟨wCal (wRec 0x49 []) 0, wC, wRec 0x49 [], zeros 4, by constructor <;> decide +kernel, by decide +kernel, by decide +kernel, by decide +kernel, (by decide +kernel), Or.inl (by decide +kernel)⟩,
   ⟨wCal (wRec 0x49 []) 1, wC, wRec 0x49 [], [], 4096, by decide +kernel⟩,
   ⟨wS { wBlk with pwr.scanAt := some 900001 }, List.replicate 34 40, by decide +kernel, by decide +kernel, 900001, by decide +kernel⟩,
   ⟨wS { wBlk with pwr.scanAt := some 900000 }, List.replicate 34 40, by decide +kernel⟩⟩

/-- The hypotheses of CountersAndDumpsAct are met, clause by clause. -/
theorem witness_CountersAndDumpsAct :
    (∃ s : State, (s.blk.frozen = false) ∧ (∀ x ∈ s.blk.coh.txns, ∀ m d o, x.phase ≠ .mirror m d o)) ∧
    (∃ s : State, ∃ n : DWord, (s.blk.frozen = true)) ∧
    (∃ s : State, ∃ n : DWord, (s.blk.frozen = false)) ∧
    (∃ s : State, (s.blk.dead = false) ∧ (s.blk.frozen = false) ∧ let p := s.blk.str.run.trace.dumpUs * 1000; (p ≠ 0) ∧ let at_ := s.blk.tb / p * p; (at_ ≤ s.blk.rings.dumpAt)) ∧
    (∃ s : State, (s.blk.dead = false) ∧ (s.blk.frozen = false) ∧ let p := s.blk.str.run.trace.dumpUs * 1000; (p ≠ 0) ∧ let at_ := s.blk.tb / p * p; (s.blk.rings.dumpAt < at_) ∧ (s.blk.pwr.state = 3 ∨ s.blk.rings.dump.ext = none)) ∧
    (∃ s : State, (s.blk.dead = false) ∧ (s.blk.frozen = false) ∧ let p := s.blk.str.run.trace.dumpUs * 1000; (p ≠ 0) ∧ ∃ i : Nat, ∃ e : ExtEnt, let at_ := s.blk.tb / p * p; (s.blk.rings.dumpAt < at_) ∧ (s.blk.pwr.state ≠ 3) ∧ (s.blk.rings.dump.ext = some i) ∧ (s.blk.extEnt i = some e) ∧ ((s.blk.extRt i).state ≠ .init) ∧ (s.blk.rings.dump.free e.size < (s.blk.dumpBytes at_).length)) ∧
    (∃ s : State, (s.blk.dead = false) ∧ (s.blk.frozen = false) ∧ let p := s.blk.str.run.trace.dumpUs * 1000; (p ≠ 0) ∧ ∃ i : Nat, ∃ e : ExtEnt, let at_ := s.blk.tb / p * p; (s.blk.rings.dumpAt < at_) ∧ (s.blk.pwr.state ≠ 3) ∧ (s.blk.rings.dump.ext = some i) ∧ (s.blk.extEnt i = some e) ∧ ((s.blk.extRt i).state ≠ .init) ∧ ((s.blk.dumpBytes at_).length ≤ s.blk.rings.dump.free e.size) ∧ let b1 : Blk := { s.blk with rings := { s.blk.rings with dumpAt := at_ } }; ((b1.ringPut e s.blk.rings.dump (b1.dumpBytes at_)).1 = true)) ∧
    (∃ s : State, ∃ v : Word, ∃ u : Nat, ∃ i : Nat, (HostWrites s.blk) ∧ (s.blk.pcSel = some (u, i))) ∧
    (∃ s : State, ∃ c : CmdId, ∃ r : CmdRec, (HubRuns s.blk c 0x50 r) ∧ (s.blk.mayCount r = true)) ∧
    (∃ s : State, ∃ c : CmdId, ∃ r : CmdRec, (HubRuns s.blk c 0x51 r) ∧ (s.blk.mayCount r = true)) ∧
    (∃ s : State, ∃ c : CmdId, ∃ r : CmdRec, (HubRuns s.blk c 0x52 r) ∧ (s.blk.mayCount r = true)) ∧
    (∃ s : State, ∃ c : CmdId, ∃ r : CmdRec, (s.blk.mayCount r = false) ∧ (HubRuns s.blk c 0x50 r)) ∧
    (∃ s : State, ∃ c : CmdId, ∃ r : CmdRec, (s.blk.mayCount r = false) ∧ (HubRuns s.blk c 0x51 r)) ∧
    (∃ s : State, ∃ c : CmdId, ∃ r : CmdRec, (s.blk.mayCount r = false) ∧ (HubRuns s.blk c 0x52 r)) :=
  ⟨⟨wS wBlk, by decide +kernel, (fun _ h => nomatch h)⟩,
   ⟨wS { wBlk with frozen := true }, 5, by decide +kernel⟩,
   ⟨wS wBlk, 5, by decide +kernel⟩,
   ⟨wS { wBlk with str.run.trace.dumpUs := 1000, rings.dumpAt := 1000000 }, by and_intros <;> decide +kernel⟩,
   ⟨wS { wBlk with str.run.trace.dumpUs := 1000, rings.dumpAt := 0 }, by and_intros <;> decide +kernel⟩,
   ⟨wS { wBlk with rings.dump := { ext := some 1, tail := 1 } }, by decide +kernel, by decide +kernel, by decide +kernel, 1, ⟨4, 4, 0, 0, 0, false⟩, by decide +kernel, by decide +kernel, by decide +kernel, (by decide +kernel), by decide +kernel, by show _ < (fit _ _).length; rw [wFit]; decide +kernel⟩,
   ⟨wS { wBlk with rings.dump := { ext := some 1 } }, by decide +kernel, by decide +kernel, by decide +kernel, 1, ⟨4, 4, 0, 0, 0, false⟩, by decide +kernel, by decide +kernel, by decide +kernel, (by decide +kernel), by decide +kernel, by show (fit _ _).length ≤ _; rw [wFit]; decide +kernel, by decide +kernel⟩,
   ⟨wS (wReg wBlk Reg.obsPcSel 112), 1, 112, 0, by constructor <;> decide +kernel, by decide +kernel⟩,
   ⟨wCmd wBlk (wRec 0x50 []), wC, wRec 0x50 [], by constructor <;> decide +kernel, by decide +kernel⟩,
   ⟨wCmd wBlk (wRec 0x51 []), wC, wRec 0x51 [], by constructor <;> decide +kernel, by decide +kernel⟩,
   ⟨wCmd wBlk (wRec 0x52 []), wC, wRec 0x52 [], by constructor <;> decide +kernel, by decide +kernel⟩,
   ⟨wCmd wBlk { wRec 0x50 [] with f := 1, part := some 5 }, ⟨1, 1⟩, { wRec 0x50 [] with f := 1, part := some 5 }, by decide +kernel, by constructor <;> decide +kernel⟩,
   ⟨wCmd wBlk { wRec 0x51 [] with f := 1, part := some 5 }, ⟨1, 1⟩, { wRec 0x51 [] with f := 1, part := some 5 }, by decide +kernel, by constructor <;> decide +kernel⟩,
   ⟨wCmd wBlk { wRec 0x52 [] with f := 1, part := some 5 }, ⟨1, 1⟩, { wRec 0x52 [] with f := 1, part := some 5 }, by decide +kernel, by constructor <;> decide +kernel⟩⟩

/-- The hypotheses of SnapshotsAndRingsAct are met, clause by clause. -/
theorem witness_SnapshotsAndRingsAct :
    (∃ s : State, ∃ c : CmdId, ∃ r : CmdRec, (HubRuns s.blk c 0x53 r) ∧ (r.started = false) ∧ (s.blk.rings.snap ≠ none)) ∧
    (∃ s : State, ∃ c : CmdId, ∃ r : CmdRec, (HubRuns s.blk c 0x53 r) ∧ (r.started = false) ∧ (s.blk.rings.snap = none) ∧ let a := if r.arg 0x08 8 = 0 then s.blk.snapAddr else r.arg 0x08 8; let st := s.blk.snapDest a (max 1 (r.arg 0x10 4)); (st ≠ 0)) ∧
    (∃ s : State, ∃ c : CmdId, ∃ r : CmdRec, (HubRuns s.blk c 0x53 r) ∧ (r.started = false) ∧ (s.blk.rings.snap = none) ∧ let a := if r.arg 0x08 8 = 0 then s.blk.snapAddr else r.arg 0x08 8; let st := s.blk.snapDest a (max 1 (r.arg 0x10 4)); (st = 0)) ∧
    (∃ s : State, ∃ z : Snap, ∃ c : CmdId, ∃ r : CmdRec, (s.blk.dead = false) ∧ (s.blk.rings.snap = some z) ∧ (z.cmd = some c) ∧ (s.blk.cmd c = some r) ∧ (r.lost = false)) ∧
    (∃ s : State, (HostWrites s.blk) ∧ (s.blk.rings.snap = none)) ∧
    (∃ s : State, (HostWrites s.blk) ∧ (s.blk.rings.snap ≠ none)) ∧
    (∃ s : State, ∃ c : CmdId, ∃ r : CmdRec, ∃ i : Nat, ∃ e : ExtEnt, (HubRuns s.blk c 0x54 r) ∧ (s.blk.traceOn 13 = true) ∧ (s.blk.rings.trace.ext = some i) ∧ (s.blk.extEnt i = some e) ∧ ((s.blk.extRt i).state ≠ .init) ∧ (s.blk.rings.trace.wrap = false) ∧ (s.blk.rings.trace.lost = 0) ∧ (64 ≤ s.blk.rings.trace.free e.size) ∧ let m : TraceRec := { source := 13, event := 1, unit := 112, a := r.arg 0x08 8 }; ((s.blk.ringPut e s.blk.rings.trace (m.bytes s.blk.tb)).1 = true)) ∧
    (∃ s : State, ∃ c : CmdId, ∃ r : CmdRec, (HubRuns s.blk c 0x54 r) ∧ (s.blk.traceOn 13 = false)) ∧
    (∃ s : State, ∃ v : Word, (HostWrites s.blk) ∧ (s.blk.field Reg.obsRingSel 0 2 = 1) ∧ let e := if v.getLsbD 31 then some (v.toNat % 2 ^ 18) else none; let ok := ∀ i, e = some i → ((s.blk.extEnt i).map (·.part)) = some 0 ∧ (s.blk.extRt i).state = .active; (ok)) ∧
    (∃ s : State, ∃ v : Word, (HostWrites s.blk) ∧ (s.blk.field Reg.obsRingSel 0 2 = 1) ∧ let e := if v.getLsbD 31 then some (v.toNat % 2 ^ 18) else none; let ok := ∀ i, e = some i → ((s.blk.extEnt i).map (·.part)) = some 0 ∧ (s.blk.extRt i).state = .active; (¬ ok)) ∧
    (∃ s : State, ∃ hi : Bool, ∃ v : Word, (HostWrites s.blk) ∧ (s.blk.field Reg.obsRingSel 0 2 = 1) ∧ let r := s.blk.rings.dump; let x := if hi then r.tail % 2 ^ 32 + v.toNat % 256 * 2 ^ 32 else r.tail / 2 ^ 32 * 2 ^ 32 + v.toNat; (x < s.blk.ringSize)) ∧
    (∃ s : State, ∃ hi : Bool, ∃ v : Word, (HostWrites s.blk) ∧ (s.blk.field Reg.obsRingSel 0 2 = 1) ∧ let r := s.blk.rings.dump; let x := if hi then r.tail % 2 ^ 32 + v.toNat % 256 * 2 ^ 32 else r.tail / 2 ^ 32 * 2 ^ 32 + v.toNat; (s.blk.ringSize ≤ x)) :=
  ⟨⟨wCmd { wBlk with rings.snap := some ⟨0, 0, 0, 8388608, 4096, none, []⟩ } (wRec 0x53 []), wC, wRec 0x53 [], by and_intros <;> first | decide +kernel | (constructor <;> decide +kernel)⟩,
   ⟨wCmd wBlk (wRec 0x53 []), wC, wRec 0x53 [], by and_intros <;> first | decide +kernel | (constructor <;> decide +kernel)⟩,
   ⟨wCmd wBlk (wRec 0x53 [(8, toLe 8 8388608), (0x10, toLe 4 4096)]), wC, wRec 0x53 [(8, toLe 8 8388608), (0x10, toLe 4 4096)], by and_intros <;> first | decide +kernel | (constructor <;> decide +kernel)⟩,
   ⟨wCmd { wBlk with rings.snap := some ⟨0, 0, 0, 8388608, 4096, some wC, []⟩ } { wRec 0x53 [] with started := true }, ⟨0, 0, 0, 8388608, 4096, some wC, []⟩, wC, { wRec 0x53 [] with started := true }, by and_intros <;> decide +kernel⟩,
   ⟨wS wBlk, by constructor <;> decide +kernel, by decide +kernel⟩,
   ⟨wS { wBlk with rings.snap := some ⟨0, 0, 0, 8388608, 4096, none, []⟩ }, by constructor <;> decide +kernel, by decide +kernel⟩,
   ⟨wCmd { wBlk with str.run.trace := { traceExt := some 1, enable := 0x2000 }, rings.trace := { ext := some 1 } } (wRec 0x54 []), wC, wRec 0x54 [], 1, ⟨4, 4, 0, 0, 0, false⟩, by and_intros <;> first | decide +kernel | (constructor <;> decide +kernel)⟩,
   ⟨wCmd wBlk (wRec 0x54 []), wC, wRec 0x54 [], by constructor <;> decide +kernel, by decide +kernel⟩,
   ⟨wS (wReg wBlk Reg.obsRingSel 1), 0x80000001, by constructor <;> decide +kernel, by decide +kernel, fun i h => by have h' : some 1 = some i := h; cases h'; decide +kernel⟩,
   ⟨wS (wReg wBlk Reg.obsRingSel 1), 0x80000000, by constructor <;> decide +kernel, by decide +kernel, fun h => absurd (h 0 rfl).1 (by decide +kernel)⟩,
   ⟨wS { wReg wBlk Reg.obsRingSel 1 with rings.dump := { ext := some 1 } }, false, 8388607, by and_intros <;> first | decide +kernel | (constructor <;> decide +kernel)⟩,
   ⟨wS { wReg wBlk Reg.obsRingSel 1 with rings.dump := { ext := some 1 } }, false, 8388608, by and_intros <;> first | decide +kernel | (constructor <;> decide +kernel)⟩⟩

/-- The hypotheses of SidebandShowsTheDevice are met, clause by clause. -/
theorem witness_SidebandShowsTheDevice :
    (∃ s : State, (s.blk.pwr.on = true) ∧ (s.blk.pwr.temps = [])) ∧
    (∃ s : State, (s.blk.pwr.on = true) ∧ (s.blk.pwr.temps ≠ [])) ∧
    (∃ s : State, (s.blk.pwr.on = true) ∧ ∃ b : BitVec 7, ∃ w : SmbOp, let a := BitVec.ofNat 7 s.blk.smbAddr; (b ≠ a ∨ (∀ k : Byte, w = .readByte k → 3 < k.toNat))) ∧
    (∃ s : State, (s.blk.pwr.on = true) ∧ (s.blk.pwr.state ≠ 4) ∧ ∃ w : Word, True) ∧
    (∃ s : State, (s.blk.pwr.on = true) ∧ (s.blk.pwr.state ≠ 4) ∧ (s.blk.str.loaded = true)) ∧
    (∃ s : State, (s.blk.pwr.on = true) ∧ (s.blk.pwr.state ≠ 4) ∧ (s.blk.str.loaded = false)) ∧
    (∃ s : State, (s.blk.pwr.on = true) ∧ (s.blk.pwr.state ≠ 4) ∧ ∃ off : BitVec 28, (s.blk.sec.debug = 2 ∨ (s.blk.sec.debug = 1 ∧ off.toNat < 0xFC00000))) ∧
    (∃ s : State, (s.blk.pwr.on = true) ∧ (s.blk.pwr.state ≠ 4) ∧ ∃ off : BitVec 28, (s.blk.sec.debug = 0 ∨ (s.blk.sec.debug = 1 ∧ 0xFC00000 ≤ off.toNat))) ∧
    (∃ s : State, (s.blk.pwr.on = true) ∧ (s.blk.pwr.state ≠ 4) ∧ ∃ i : Nat, ∃ k : Fin 3, (1 ≤ s.blk.sec.debug)) ∧
    (∃ s : State, (s.blk.pwr.on = true) ∧ (s.blk.pwr.state ≠ 4) ∧ ∃ i : Nat, ∃ k : Fin 3, (s.blk.sec.debug = 0)) ∧
    (∃ s : State, (s.blk.pwr.on = true) ∧ (s.blk.pwr.state ≠ 4) ∧ ∃ off : BitVec 28, ∃ v : Word, (s.blk.sec.debug = 2)) ∧
    (∃ s : State, (s.blk.pwr.on = true) ∧ (s.blk.pwr.state ≠ 4) ∧ ∃ off : BitVec 28, ∃ v : Word, (s.blk.sec.debug < 2)) :=
  ⟨⟨wS wBlk, by decide +kernel, by decide +kernel⟩,
   ⟨wS { wBlk with pwr.temps := [40] }, by decide +kernel, by decide +kernel⟩,
   ⟨wS wBlk, by decide +kernel, 0x4C, .readByte 4, Or.inr (fun _ h => by cases h; decide)⟩,
   ⟨wS wBlk, by decide +kernel, by decide +kernel, 5, trivial⟩,
   ⟨wS wBlk, by and_intros <;> decide +kernel⟩,
   ⟨wS { wBlk with str.loaded := false }, by and_intros <;> decide +kernel⟩,
   ⟨wS { wBlk with sec.debug := 1 }, by decide +kernel, by decide +kernel, 0xFBFFFFF, by decide +kernel⟩,
   ⟨wS { wBlk with sec.debug := 1 }, by decide +kernel, by decide +kernel, 0xFC00000, by decide +kernel⟩,
   ⟨wS { wBlk with sec.debug := 1 }, by decide +kernel, by decide +kernel, 3, 1, by decide +kernel⟩,
   ⟨wS wBlk, by decide +kernel, by decide +kernel, 3, 1, by decide +kernel⟩,
   ⟨wS { wBlk with sec.debug := 2 }, by decide +kernel, by decide +kernel, 0, 0, by decide +kernel⟩,
   ⟨wS wBlk, by decide +kernel, by decide +kernel, 0, 0, by decide +kernel⟩⟩

end Sys2Proof.Tests
end

/-! ## Placement of pool lines in the Grain tier (R76, R77)

Address decode, and `grainHolds` as the inverse of `grainPos`. -/
section
namespace Sys2Proof.Proofs

open Sys2Proof.Machine

/-! ### Address decode -/

theorem granOf_lineOf (a : Nat) : granOf (lineOf a) = a / 2 ^ 21 :=
  Nat.div_div_eq_div_mul a 128 16384

theorem homeOf_lineOf (a : Nat) : homeOf (lineOf a) = a / 2 ^ 21 % 4 := by
  rw [homeOf, granOf_lineOf]

theorem lineIn_lineOf (a : Nat) : lineIn (lineOf a) = a / 2 ^ 7 % 2 ^ 14 := rfl

theorem dataIx_lineOf (a : Nat) :
    dataIx (lineOf a) = a / 2 ^ 21 / 4 * 16384 + a / 2 ^ 7 % 2 ^ 14 := by
  rw [dataIx, granOf_lineOf, lineIn_lineOf]

@[simp] theorem granOf_lineOfGran (g : Nat) : granOf (lineOfGran g) = g :=
  Nat.mul_div_cancel g (by decide)

theorem homeOf_lineOfGran_succ (g : Nat) :
    homeOf (lineOfGran (g + 1)) = (homeOf (lineOfGran g) + 1) % 4 := by
  simp only [homeOf, granOf_lineOfGran, Nat.mod_add_mod]

theorem homeOf_lt (l : Nat) : homeOf l < 4 := Nat.mod_lt _ (by decide)

theorem lineIn_lt (l : Nat) : lineIn l < 16384 := Nat.mod_lt _ (by decide)

/-! ### Grain channels -/

/-- The last line of frame 3,967 is the last line of a Grain channel. -/
theorem grainPos_line_lt {f : Nat} (l : Nat) (hf : f < 3968) : (grainPos l f).2 < 2097152 := by
  have hn := lineIn_lt l
  simp only [grainPos]
  omega

theorem grainHolds_reserve {line : Nat} (ch : Nat) (h : line < 65536) :
    grainHolds ch line = .reserve (ch / 32) (line * 32 + ch % 32) := if_pos h

theorem grainHolds_frame {line : Nat} (ch : Nat) (h : 65536 ≤ line) :
    grainHolds ch line =
      .frame (ch / 32) ((line - 65536) / 512) ((line - 65536) % 512 * 32 + ch % 32) :=
  if_neg (Nat.not_lt.mpr h)

theorem grainHolds_grainPos (l f : Nat) :
    grainHolds (grainPos l f).1 (grainPos l f).2 = .frame (homeOf l) f (lineIn l) := by
  have hn := lineIn_lt l
  have hframe : 65536 ≤ (grainPos l f).2 := by simp only [grainPos]; omega
  rw [grainHolds_frame _ hframe, GrainHolds.frame.injEq]
  simp only [grainPos]
  omega

/-- Settles O40: the decode by the equations of R76; the frames because `grainHolds` splits a
channel's lines at 65,536 and inverts `grainPos` above it. -/
theorem poolAddressesDecodeAndLieInFrames : Obligations.PoolAddressesDecodeAndLieInFrames := by
  refine ⟨fun a _ => ⟨granOf_lineOf a, homeOf_lineOf a, lineIn_lineOf a, dataIx_lineOf a⟩,
    homeOf_lineOfGran_succ,
    fun l f hf => ⟨rfl, grainPos_line_lt l hf, grainHolds_grainPos l f⟩, fun ch line _ hline => ?_⟩
  obtain hres | hframe := Nat.lt_or_ge line 65536
  · rw [grainHolds_reserve ch hres]
    exact ⟨hres, rfl, rfl⟩
  · rw [grainHolds_frame ch hframe]
    dsimp only
    omega

end Sys2Proof.Proofs
end

/-! ## Placement of pool lines in the Husk tier (R78)

`huskHolds` inverts `huskPos` in each mode. Under DEV_P both rest on three facts about `devSlots q`:
its members, its length and its strictly ascending order. -/
section
namespace Sys2Proof.Proofs

open Sys2Proof.Machine

/-! ### Line numbers and channel numbers -/

theorem lchOf_eq (gib : Nat) : lchOf gib = gib * 2 ^ 30 / 128 := by
  unfold lchOf
  omega

theorem homeOf_lineAt {q : Nat} (d : Nat) (hq : q < 4) : homeOf (lineAt q d) = q := by
  unfold homeOf granOf lineAt
  omega

theorem dataIx_lineAt {q : Nat} (d : Nat) (hq : q < 4) : dataIx (lineAt q d) = d := by
  unfold dataIx lineIn granOf lineAt
  omega

theorem chan_div {k : Nat} (q : Nat) (hk : k < 6) : (6 * q + k) / 6 = q := by omega

theorem chan_mod {k : Nat} (q : Nat) (hk : k < 6) : (6 * q + k) % 6 = k := by omega

/-! ### NONE and MIRROR -/

theorem huskHolds_huskPos_none (q d : Nat) :
    huskHolds 0 (huskPos 0 q d).1 (huskPos 0 q d).2 = .data (lineAt q d) := by
  have hk : d % 6 < 6 := Nat.mod_lt d (by decide)
  simp only [huskHolds, huskPos, chan_div q hk, chan_mod q hk, Nat.div_add_mod']

theorem huskHolds_huskPos_mirror (q d : Nat) :
    huskHolds 1 (huskPos 1 q d).1 (huskPos 1 q d).2 = .data (lineAt q d) := by
  have hk : 2 * (d % 3) < 6 := by omega
  have heven : (6 * q + 2 * (d % 3)) % 2 = 0 := by omega
  simp only [huskHolds, huskPos, chan_div q hk, chan_mod q hk, if_pos heven,
    Nat.mul_div_cancel_left _ (show 0 < 2 by decide), Nat.div_add_mod']

theorem huskHolds_mirrorPos (q d : Nat) :
    huskHolds 1 (mirrorPos (huskPos 1 q d)).1 (mirrorPos (huskPos 1 q d)).2 =
      .mirror (lineAt q d) := by
  have hk : 2 * (d % 3) + 1 < 6 := by omega
  have hodd : (6 * q + (2 * (d % 3) + 1)) % 2 ≠ 0 := by omega
  have hpair : (2 * (d % 3) + 1) / 2 = d % 3 := by omega
  simp only [huskHolds, huskPos, mirrorPos, Nat.add_assoc, chan_div q hk, chan_mod q hk,
    if_neg hodd, hpair, Nat.div_add_mod']

/-! ### QUAD_P: the data lines of a stripe pass over its parity channel -/

/-- The channel within the quadrant of the data line with number k, past the parity channel p. -/
def quadChan (k p : Nat) : Nat := if k < p then k else k + 1

theorem huskPos_quadP (q d : Nat) :
    huskPos 2 q d = (6 * q + quadChan (d % 5) (d / 5 % 6), d / 5) := rfl

theorem quadChan_lt {k : Nat} (p : Nat) (hk : k < 5) : quadChan k p < 6 := by
  unfold quadChan
  split <;> omega

theorem quadChan_ne (k p : Nat) : quadChan k p ≠ p := by
  unfold quadChan
  split <;> omega

/-- The data line's number in the stripe is read back from its channel. -/
theorem quadChan_inv (k p : Nat) :
    (if quadChan k p < p then quadChan k p else quadChan k p - 1) = k := by
  unfold quadChan
  split_ifs <;> omega

theorem huskHolds_huskPos_quadP (q d : Nat) :
    huskHolds 2 (huskPos 2 q d).1 (huskPos 2 q d).2 = .data (lineAt q d) := by
  have hk : quadChan (d % 5) (d / 5 % 6) < 6 := quadChan_lt _ (Nat.mod_lt d (by decide))
  simp only [huskPos_quadP, huskHolds, chan_div q hk, chan_mod q hk, if_neg (quadChan_ne _ _),
    quadChan_inv, Nat.div_add_mod']

theorem huskHolds_quadP_check (q line : Nat) :
    huskHolds 2 (6 * q + line % 6) line = .check 0 := by
  simp only [huskHolds, chan_mod q (Nat.mod_lt line (show 6 > 0 by decide)), if_true]

/-! ### DEV_P: the data slots of 24 rows -/

theorem mem_devSlots {q a k : Nat} :
    (a, k) ∈ devSlots q ↔ a < 24 ∧ k < 6 ∧ 6 * q + k ≠ a % 24 ∧ 6 * q + k ≠ (a + 1) % 24 := by
  simp [devSlots]

/-- The slots are in ascending order of rows, and of channels within a row. -/
theorem devSlots_pairwise (q : Nat) : (devSlots q).Pairwise (Prod.Lex (· < ·) (· < ·)) := by
  rw [devSlots, List.pairwise_flatten]
  constructor
  case left =>
    intro row hrow
    obtain ⟨a, -, rfl⟩ := List.mem_map.mp hrow
    refine List.pairwise_map.mpr ((List.pairwise_lt_range.filter _).imp fun hlt => ?_)
    exact Prod.Lex.right a hlt
  case right =>
    refine List.pairwise_map.mpr (List.pairwise_lt_range.imp fun hlt x hx y hy => ?_)
    obtain ⟨k, -, rfl⟩ := List.mem_map.mp hx
    obtain ⟨m, -, rfl⟩ := List.mem_map.mp hy
    exact Prod.Lex.left k m hlt

theorem devSlots_length {q : Nat} (hq : q < 4) : (devSlots q).length = 132 := by
  interval_cases q <;> rfl

/-- The slot of data line d of quadrant q: the row within the 24 and the channel in the quadrant. -/
def devSlot (q d : Nat) : Nat × Nat := (devSlots q).getD (d % 132) (0, 0)

theorem huskPos_devP (q d : Nat) :
    huskPos 3 q d = (6 * q + (devSlot q d).2, 24 * (d / 132) + (devSlot q d).1) := rfl

section
variable {q : Nat} (hq : q < 4)
include hq

theorem mod_lt_devSlots_length (d : Nat) : d % 132 < (devSlots q).length :=
  (devSlots_length hq).symm ▸ Nat.mod_lt d (by decide)

theorem devSlot_eq_getElem (d : Nat) :
    devSlot q d = (devSlots q)[d % 132]'(mod_lt_devSlots_length hq d) :=
  List.getD_eq_getElem _ _ _

theorem devSlot_spec (d : Nat) :
    (devSlot q d).1 < 24 ∧ (devSlot q d).2 < 6 ∧
      6 * q + (devSlot q d).2 ≠ (devSlot q d).1 ∧
      6 * q + (devSlot q d).2 ≠ ((devSlot q d).1 + 1) % 24 := by
  have hmem : devSlot q d ∈ devSlots q := devSlot_eq_getElem hq d ▸ List.getElem_mem _
  obtain ⟨hrow, hchan, hP, hQ⟩ := mem_devSlots.mp hmem
  exact ⟨hrow, hchan, Nat.mod_eq_of_lt hrow ▸ hP, hQ⟩

theorem devSlot_lex {e d : Nat} (h : e % 132 < d % 132) :
    Prod.Lex (· < ·) (· < ·) (devSlot q e) (devSlot q d) := by
  rw [devSlot_eq_getElem hq, devSlot_eq_getElem hq]
  exact List.pairwise_iff_getElem.mp (devSlots_pairwise q) _ _ _ _ h

/-- A slot's place in the list is found again: no earlier slot equals it. -/
theorem findIdx?_devSlot (d : Nat) :
    (devSlots q).findIdx? (· == devSlot q d) = some (d % 132) := by
  refine List.findIdx?_eq_some_iff_getElem.mpr
    ⟨mod_lt_devSlots_length hq d, beq_iff_eq.mpr (devSlot_eq_getElem hq d).symm, ?_⟩
  intro j hj heq
  have hlex := List.pairwise_iff_getElem.mp (devSlots_pairwise q) j (d % 132)
    (hj.trans (mod_lt_devSlots_length hq d)) (mod_lt_devSlots_length hq d) hj
  rw [beq_iff_eq.mp heq, devSlot_eq_getElem hq] at hlex
  simp [Prod.lex_def] at hlex

/-- Every slot that is not a check channel's is the slot of one of the 132 data lines. -/
theorem exists_devSlot_eq {a k : Nat} (ha : a < 24) (hk : k < 6) (hP : 6 * q + k ≠ a)
    (hQ : 6 * q + k ≠ (a + 1) % 24) : ∃ e, e < 132 ∧ ∀ c, devSlot q (132 * c + e) = (a, k) := by
  have hmem : (a, k) ∈ devSlots q :=
    mem_devSlots.mpr ⟨ha, hk, (Nat.mod_eq_of_lt ha).symm ▸ hP, hQ⟩
  obtain ⟨e, he, heq⟩ := List.mem_iff_getElem.mp hmem
  have he' : e < 132 := devSlots_length hq ▸ he
  refine ⟨e, he', fun c => ?_⟩
  simp only [devSlot_eq_getElem hq, Nat.mul_add_mod, Nat.mod_eq_of_lt he', heq]

/-! ### DEV_P: the placement -/

/-- A data line lies in the 24 rows of its group, off the row's check channels. -/
theorem huskPos_devP_spec (d : Nat) :
    let p := huskPos 3 q d
    24 * (d / 132) ≤ p.2 ∧ p.2 < 24 * (d / 132) + 24 ∧ p.1 ≠ p.2 % 24 ∧ p.1 ≠ (p.2 + 1) % 24 := by
  obtain ⟨hrow, -, hP, hQ⟩ := devSlot_spec hq d
  simp only [huskPos_devP, Nat.add_assoc, Nat.mul_add_mod, Nat.mod_eq_of_lt hrow]
  exact ⟨Nat.le_add_right _ _, Nat.add_lt_add_left hrow _, hP, hQ⟩

theorem huskPos_devP_lex {e d : Nat} (h : e < d) :
    (huskPos 3 q e).2 < (huskPos 3 q d).2 ∨
      ((huskPos 3 q e).2 = (huskPos 3 q d).2 ∧ (huskPos 3 q e).1 < (huskPos 3 q d).1) := by
  simp only [huskPos_devP]
  obtain hgroup | hgroup := (Nat.div_le_div_right (c := 132) h.le).lt_or_eq
  · obtain ⟨hrow, -⟩ := devSlot_spec hq e
    left
    omega
  · have hslot : e % 132 < d % 132 := by omega
    obtain hrow | ⟨hrow, hchan⟩ := Prod.lex_def.mp (devSlot_lex hq hslot)
    · left
      omega
    · right
      omega

theorem huskPos_devP_surj {k a : Nat} (hlo : 6 * q ≤ k) (hhi : k < 6 * q + 6)
    (hP : k ≠ a % 24) (hQ : k ≠ (a + 1) % 24) : ∃ d, huskPos 3 q d = (k, a) := by
  obtain ⟨j, rfl⟩ := Nat.exists_eq_add_of_le hlo
  obtain ⟨e, he, hslot⟩ := exists_devSlot_eq hq (Nat.mod_lt a (by decide))
    (Nat.lt_of_add_lt_add_left hhi) hP (by rwa [Nat.mod_add_mod])
  refine ⟨132 * (a / 24) + e, ?_⟩
  have hgroup : (132 * (a / 24) + e) / 132 = a / 24 := by omega
  rw [huskPos_devP, hslot, hgroup, Nat.div_add_mod]

theorem huskHolds_huskPos_devP (d : Nat) :
    huskHolds 3 (huskPos 3 q d).1 (huskPos 3 q d).2 = .data (lineAt q d) := by
  obtain ⟨hrow, hk, -⟩ := devSlot_spec hq d
  obtain ⟨-, -, hP, hQ⟩ := huskPos_devP_spec hq d
  have hgroup : (24 * (d / 132) + (devSlot q d).1) / 24 = d / 132 := by omega
  simp only [huskHolds, if_neg hP, if_neg hQ]
  simp only [huskPos_devP, chan_div q hk, chan_mod q hk, Nat.mul_add_mod, Nat.mod_eq_of_lt hrow,
    hgroup, findIdx?_devSlot hq, Nat.div_add_mod']

end

theorem huskHolds_devP_checkP (line : Nat) : huskHolds 3 (line % 24) line = .check 0 := by
  simp only [huskHolds, if_true]

theorem huskHolds_devP_checkQ (line : Nat) : huskHolds 3 ((line + 1) % 24) line = .check 1 := by
  have hne : (line + 1) % 24 ≠ line % 24 := by omega
  simp only [huskHolds, if_neg hne, if_true]

/-! ### The modes together -/

theorem huskHolds_huskPos {q mode : Nat} (d : Nat) (hq : q < 4) (hm : mode < 4) :
    huskHolds mode (huskPos mode q d).1 (huskPos mode q d).2 = .data (lineAt q d) := by
  match mode, hm with
  | 0, _ => exact huskHolds_huskPos_none q d
  | 1, _ => exact huskHolds_huskPos_mirror q d
  | 2, _ => exact huskHolds_huskPos_quadP q d
  | 3, _ => exact huskHolds_huskPos_devP hq d

/-- A data line stays on the six channels of its quadrant. -/
theorem huskPos_chan {q mode : Nat} (d : Nat) (hq : q < 4) (hm : mode < 4) :
    ∃ k < 6, (huskPos mode q d).1 = 6 * q + k := by
  match mode, hm with
  | 0, _ => exact ⟨d % 6, Nat.mod_lt d (by decide), rfl⟩
  | 1, _ => exact ⟨2 * (d % 3), by omega, rfl⟩
  | 2, _ => exact ⟨_, quadChan_lt _ (Nat.mod_lt d (by decide)), rfl⟩
  | 3, _ =>
    obtain ⟨-, hk, -⟩ := devSlot_spec hq d
    exact ⟨_, hk, rfl⟩

theorem huskHolds_checkChans {mode q c : Nat} (p : HuskPos) (hm : mode = 2 ∨ mode = 3)
    (hc : c ∈ checkChans mode q p) : ∃ ix, huskHolds mode c p.2 = .check ix := by
  obtain rfl | rfl := hm
  · obtain rfl := List.mem_singleton.mp hc
    exact ⟨0, huskHolds_quadP_check q p.2⟩
  · obtain rfl | rfl := List.mem_pair.mp hc
    · exact ⟨0, huskHolds_devP_checkP p.2⟩
    · exact ⟨1, huskHolds_devP_checkQ p.2⟩

/-- Settles O41, mode by mode: the closed forms of NONE, MIRROR and QUAD_P are the model's own, those
of DEV_P come from the ascending list of slots, and `huskHolds` inverts each. -/
theorem huskPlacementIsOneToOne : Obligations.HuskPlacementIsOneToOne := by
  refine ⟨lchOf_eq, fun q d hq => ⟨homeOf_lineAt d hq, dataIx_lineAt d hq, rfl, rfl, rfl, rfl, rfl,
    rfl, ?_, fun mode hm => ⟨huskHolds_huskPos d hq hm, ?_⟩, huskHolds_mirrorPos q d,
    fun mode c => huskHolds_checkChans (huskPos mode q d)⟩⟩
  · obtain ⟨hlo, hhi, hP, hQ⟩ := huskPos_devP_spec hq d
    exact ⟨hlo, hhi, hP, hQ, rfl, fun e => huskPos_devP_lex hq, fun k a => huskPos_devP_surj hq⟩
  · obtain ⟨k, hk, hchan⟩ := huskPos_chan d hq hm
    omega

end Sys2Proof.Proofs
end

/-! ## Single-rate policers (R288, R293, R294)

A bucket never stands above its burst, so a cost within the level is never oversize (R294). -/
section
namespace Sys2Proof.Proofs

open Sys2Proof.Machine

theorem twoRate_eq_false_of_kind {e : TrafEnt} (h : e.kind = 3) : e.twoRate = false := by
  simp [TrafEnt.twoRate, h]

theorem refillLevel_le_burst (lev : Int) (rate dt burst : Nat) :
    refillLevel lev rate dt burst ≤ burst * 1000 :=
  min_le_right _ _

@[simp] theorem refill_ent (r : TrafRt) (now : Nat) : (r.refill now).ent = r.ent := rfl

@[simp] theorem refill_levC (r : TrafRt) (now : Nat) :
    (r.refill now).levC = refillLevel r.levC r.ent.cir (now - r.evalAt) r.ent.cbs := rfl

/-- Green for an entry at any level: the cost is within the burst (R294) and within the level (R293). -/
theorem judge_green_of_le {r : TrafRt} {n : Nat} (pre : Bool) (hrate : r.ent.twoRate = false)
    (hburst : n ≤ r.ent.cbs) (hlev : (n : Int) * 1000 ≤ r.levC) :
    (r.judge n pre false).1 = .green ∧ (r.judge n pre false).2.levC = r.levC - n * 1000 := by
  have hfits : ¬ (r.ent.cbs < n ∨ r.levC < (n : Int) * 1000) := by omega
  simp [TrafRt.judge, hrate, hfits]

theorem judge_red_of_lt {r : TrafRt} {n : Nat} (pre : Bool) (hrate : r.ent.twoRate = false)
    (hlev : r.levC < (n : Int) * 1000) :
    (r.judge n pre false).1 = .red ∧ (r.judge n pre false).2.levC = r.levC := by
  simp [TrafRt.judge, hrate, hlev]

/-- Settles O42: a KIND 3 entry has no peak bucket, and after a refill the level bounds the cost by the
burst, which leaves the comparison with the level alone. -/
theorem singleRatePolicerJudges : Obligations.SingleRatePolicerJudges := by
  intro r now n pre hkind
  have hrate : (r.refill now).ent.twoRate = false := twoRate_eq_false_of_kind hkind
  refine ⟨refill_levC r now, fun hlev => judge_green_of_le pre hrate ?_ hlev, judge_red_of_lt pre hrate⟩
  have hcap := refillLevel_le_burst r.levC r.ent.cir (now - r.evalAt) r.ent.cbs
  rw [refill_levC] at hlev
  rw [refill_ent]
  omega

end Sys2Proof.Proofs
end

/-! ## Commands and the non-volatile memory (R368, R369)

What `exec` does to the OTP bits, the flash and the queue: nothing but by the commands of `touchesNv`. -/
section
namespace Sys2Proof.Proofs

open Sys2Proof.Machine

/-! ### Which commands reach the non-volatile memory -/

/-- The commands outside `touchesNv` change the block alone: each meaning is `act` or `live` of its operation. -/
theorem exec_changes_block_only (i : Instr) (s : State) (h : touchesNv i = false) :
    ∃ b, exec i s = .next { s with blk := b } := by
  cases i with
  | coldReset | warmReset | inputLockout | mgmtWatchdogExpiry | mgmtEccDoubleBit | fwUpdate | fwSvnCommit
  | ownerProvision | manifestUpdate | calWriteDone => cases h
  | _ => exact ⟨_, rfl⟩

/-- What a command may do to the non-volatile memory: one of the writes of the flash, or of the OTP bits. -/
inductive NvChange (b : Blk) (v : Nv) : Nv → Prop
  | keeps : NvChange b v v
  | cut : NvChange b v { v with flash := b.flashCut v.flash }
  | fwSlot (c : CmdId) (img : HostResult) : NvChange b v { v with flash := fwUpdateFlash b v.flash c img }
  | manifest (c : CmdId) (man : HostResult) : NvChange b v { v with flash := manifestFlash b v.flash c man }
  | cal (ok : Bool) : NvChange b v { v with flash := b.calFlash v.flash ok }
  | svn (c : CmdId) : NvChange b v { v with otp := fwSvnOtp b v.otp c }
  | owner (c : CmdId) (blob : HostResult) : NvChange b v { v with otp := ownerOtp b v.otp c blob }

theorem NvChange.cut_if (b : Blk) (v : Nv) (p : Bool) :
    NvChange b v { v with flash := if p then b.flashCut v.flash else v.flash } := by
  cases p
  · exact .keeps
  · exact .cut

/-- Every command is executed; what it does to the non-volatile memory is one of the changes of `NvChange`. -/
theorem exec_nvChange (i : Instr) (s : State) :
    ∃ b v, exec i s = .next { s with blk := b, nv := v } ∧ NvChange s.blk s.nv v := by
  cases i with
  | coldReset cause => exact ⟨_, _, rfl, .cut_if _ _ (s.blk.coldActs cause)⟩
  | warmReset cause => exact ⟨_, _, rfl, .cut_if _ _ (s.blk.warmActs cause)⟩
  | inputLockout mv => exact ⟨_, _, rfl, .cut_if _ _ (lockedOut mv)⟩
  | mgmtEccDoubleBit => exact ⟨_, _, rfl, .cut_if _ _ s.blk.mgmtActs⟩
  | mgmtWatchdogExpiry =>
    by_cases hdue : s.blk.wdDue = true
    · have hex : exec .mgmtWatchdogExpiry s = .next { s with
          blk := s.blk.mgmtResetSnap (mgmtFlash s.blk s.nv.flash) 1,
          nv := { s.nv with flash := mgmtFlash s.blk s.nv.flash } } := by
        simp [exec, execMgmtWatchdogExpiry, hdue]
      exact ⟨_, _, hex, .cut_if _ _ s.blk.mgmtActs⟩
    · have hex : exec .mgmtWatchdogExpiry s = .next s := by
        simp [exec, execMgmtWatchdogExpiry, hdue]
      exact ⟨_, _, hex, .keeps⟩
  | fwUpdate c img => exact ⟨_, _, rfl, .fwSlot c img⟩
  | fwSvnCommit c => exact ⟨_, _, rfl, .svn c⟩
  | ownerProvision c blob => exact ⟨_, _, rfl, .owner c blob⟩
  | manifestUpdate c man => exact ⟨_, _, rfl, .manifest c man⟩
  | calWriteDone ok => exact ⟨_, _, rfl, .cal ok⟩
  | _ => exact ⟨_, _, rfl, .keeps⟩

/-- A step changes the non-volatile memory by one of the changes of `NvChange`. -/
theorem step_nvChange {s t : State} (h : step s = .next t) : NvChange s.blk s.nv t.nv := by
  match hq : s.pending with
  | [] =>
    simp only [step, hq, tick, Host.Outcome.next.injEq] at h
    exact h ▸ .keeps
  | c :: rest =>
    simp only [step, hq] at h
    obtain ⟨b, v, hex, hv⟩ := exec_nvChange c { s with pending := rest }
    rw [hex, Host.Outcome.next.injEq] at h
    exact h ▸ hv

/-- Settles O3: a command outside `touchesNv` changes the block alone, and every other the block and the
non-volatile memory. -/
theorem everyCommandIsExecuted : Obligations.EveryCommandIsExecuted := by
  intro i s
  by_cases htouch : touchesNv i = false
  · obtain ⟨b, hex⟩ := exec_changes_block_only i s htouch
    exact ⟨_, hex, rfl, fun _ => rfl⟩
  · obtain ⟨b, v, hex, -⟩ := exec_nvChange i s
    exact ⟨_, hex, rfl, fun h => absurd h htouch⟩

/-! ### OTP bits -/

theorem otpKept_refl (o : Otp) : OtpKept o o :=
  ⟨rfl, rfl, rfl, Nat.le_refl _, fun h => ⟨h, rfl, rfl⟩⟩

theorem otpKept_raiseSvn (o : Otp) (svn : Nat) : OtpKept o (o.raiseSvn svn) :=
  ⟨rfl, rfl, rfl, Nat.le_max_left _ _, fun h => ⟨h, rfl, rfl⟩⟩

theorem otpKept_setOwner (o : Otp) (body : Bytes) : OtpKept o (o.setOwner body) := by
  unfold Otp.setOwner
  split
  · exact otpKept_refl o
  · next hfree => exact ⟨rfl, rfl, rfl, Nat.le_refl _, fun hset => absurd hset hfree⟩

theorem otpKept_fwSvnOtp (b : Blk) (o : Otp) (c : CmdId) : OtpKept o (fwSvnOtp b o c) := by
  unfold fwSvnOtp
  split
  · exact otpKept_raiseSvn o _
  · exact otpKept_refl o

theorem otpKept_ownerOtp (b : Blk) (o : Otp) (c : CmdId) (blob : HostResult) :
    OtpKept o (ownerOtp b o c blob) := by
  unfold ownerOtp
  split
  · split
    · exact otpKept_refl o
    · exact otpKept_setOwner o _
  · exact otpKept_refl o

theorem NvChange.otpKept {b : Blk} {v w : Nv} (h : NvChange b v w) : OtpKept v.otp w.otp := by
  cases h with
  | svn c => exact otpKept_fwSvnOtp b v.otp c
  | owner c blob => exact otpKept_ownerOtp b v.otp c blob
  | _ => exact otpKept_refl v.otp

/-- Settles O4: of the changes of the non-volatile memory only two reach the OTP bits; one raises MIN_SVN
by a maximum, the other asks first whether an owner is set. -/
theorem otpBitsAreNeverTakenBack : Obligations.OtpBitsAreNeverTakenBack :=
  fun _ _ hstep => (step_nvChange hstep).otpKept

/-! ### The form of the flash -/

section
variable {m : Cells} (hm : m.wf = true)
include hm

theorem calErase_wf : (calErase m).wf = true := by
  unfold calErase
  split
  · exact cclear_wf m _ _ hm
  · exact hm

theorem flashCut_wf (b : Blk) : (b.flashCut m).wf = true := by
  unfold Blk.flashCut
  split
  · exact calErase_wf hm
  · exact hm

theorem flashWrite_wf (b : Blk) (o : Nat) (bs : Bytes) : (b.flashWrite m o bs).wf = true :=
  cwrite_wf m o _ hm

theorem dirSetLength_wf (ty n : Nat) : (dirSetLength m ty n).wf = true := by
  unfold dirSetLength
  split
  · exact cwrite_wf m _ _ hm
  · exact hm

theorem calFlash_wf (b : Blk) (ok : Bool) : (b.calFlash m ok).wf = true := by
  unfold Blk.calFlash
  split
  · split
    · exact hm
    · split
      · exact flashWrite_wf hm b _ _
      · exact calErase_wf hm
  · exact hm

theorem fwUpdateFlash_wf (b : Blk) (c : CmdId) (img : HostResult) : (fwUpdateFlash b m c img).wf = true := by
  unfold fwUpdateFlash
  split
  · split
    · split
      · exact dirSetLength_wf (flashWrite_wf (cclear_wf m _ _ hm) b _ _) _ _
      · exact hm
    · split
      · exact cclear_wf m _ _ hm
      · exact hm
  · exact hm

theorem manifestFlash_wf (b : Blk) (c : CmdId) (man : HostResult) : (manifestFlash b m c man).wf = true := by
  unfold manifestFlash
  split
  · exact dirSetLength_wf (flashWrite_wf (cclear_wf m _ _ hm) b _ _) _ _
  · exact hm

end

theorem NvChange.flash_wf {b : Blk} {v w : Nv} (h : NvChange b v w) (hv : v.flash.wf = true) :
    w.flash.wf = true := by
  cases h with
  | cut => exact flashCut_wf hv b
  | fwSlot c img => exact fwUpdateFlash_wf hv b c img
  | manifest c man => exact manifestFlash_wf hv b c man
  | cal ok => exact calFlash_wf hv b ok
  | _ => exact hv

/-- Settles O5: every write of the flash is made of `cwrite` and `cclear`, which keep the form. -/
theorem flashKeepsItsForm : Obligations.FlashKeepsItsForm :=
  fun _ _ hv hstep => (step_nvChange hstep).flash_wf hv

end Sys2Proof.Proofs
end

/-! ## Frames

The calculus of `OnlyBlk` and `Only`, and how a command on a device that is up becomes a claim about its operation. -/
section
namespace Sys2Proof.Proofs

open Sys2Proof.Machine

/-! ### Parts of the block that a change leaves -/

/-- A frame, part by part: what `simp` needs to check one on a record update. -/
theorem onlyBlk_iff (l : List Region) (x y : Blk) :
    OnlyBlk l x y ↔
      (.regs ∈ l ∨ y.regs = x.regs) ∧ (.dead ∈ l ∨ y.dead = x.dead) ∧ (.pins ∈ l ∨ y.pins = x.pins) ∧
      (.tb ∈ l ∨ y.tb = x.tb) ∧ (.frozen ∈ l ∨ y.frozen = x.frozen) ∧ (.fresh ∈ l ∨ y.fresh = x.fresh) ∧
      (.aon ∈ l ∨ y.aon = x.aon) ∧ (.pcs ∈ l ∨ y.pcs = x.pcs) ∧ (.str ∈ l ∨ y.str = x.str) ∧
      (.pool ∈ l ∨ y.pool = x.pool) ∧ (.chans ∈ l ∨ y.chans = x.chans) ∧ (.ext ∈ l ∨ y.ext = x.ext) ∧
      (.coh ∈ l ∨ y.coh = x.coh) ∧ (.fab ∈ l ∨ y.fab = x.fab) ∧ (.traf ∈ l ∨ y.traf = x.traf) ∧
      (.work ∈ l ∨ y.work = x.work) ∧ (.rings ∈ l ∨ y.rings = x.rings) ∧ (.pair ∈ l ∨ y.pair = x.pair) ∧
      (.hub ∈ l ∨ y.hub = x.hub) ∧ (.mgmt ∈ l ∨ y.mgmt = x.mgmt) ∧ (.sec ∈ l ∨ y.sec = x.sec) ∧
      (.pwr ∈ l ∨ y.pwr = x.pwr) := by
  constructor
  · intro h
    have part (p : Region) : p ∈ l ∨ Region.same x y p := or_iff_not_imp_left.mpr (h p)
    exact ⟨part _, part _, part _, part _, part _, part _, part _, part _, part _, part _, part _, part _,
      part _, part _, part _, part _, part _, part _, part _, part _, part _, part _⟩
  · rintro ⟨h1, h2, h3, h4, h5, h6, h7, h8, h9, h10, h11, h12, h13, h14, h15, h16, h17, h18, h19, h20, h21, h22⟩ p hp
    cases p with
    | regs => exact h1.resolve_left hp
    | dead => exact h2.resolve_left hp
    | pins => exact h3.resolve_left hp
    | tb => exact h4.resolve_left hp
    | frozen => exact h5.resolve_left hp
    | fresh => exact h6.resolve_left hp
    | aon => exact h7.resolve_left hp
    | pcs => exact h8.resolve_left hp
    | str => exact h9.resolve_left hp
    | pool => exact h10.resolve_left hp
    | chans => exact h11.resolve_left hp
    | ext => exact h12.resolve_left hp
    | coh => exact h13.resolve_left hp
    | fab => exact h14.resolve_left hp
    | traf => exact h15.resolve_left hp
    | work => exact h16.resolve_left hp
    | rings => exact h17.resolve_left hp
    | pair => exact h18.resolve_left hp
    | hub => exact h19.resolve_left hp
    | mgmt => exact h20.resolve_left hp
    | sec => exact h21.resolve_left hp
    | pwr => exact h22.resolve_left hp

theorem onlyBlk_refl (l : List Region) (x : Blk) : OnlyBlk l x x := fun p _ => by cases p <;> rfl

theorem onlyBlk_trans {l : List Region} {x y z : Blk} (h : OnlyBlk l x y) (k : OnlyBlk l y z) : OnlyBlk l x z := by
  intro p hp
  have hxy := h p hp
  have hyz := k p hp
  cases p <;> exact hyz.trans hxy

theorem onlyBlk_mono {l m : List Region} {x y : Blk} (hlm : l ⊆ m) (h : OnlyBlk l x y) : OnlyBlk m x y :=
  fun p hp => h p fun hl => hp (hlm hl)

/-- One change after another reaches what either may. -/
theorem onlyBlk_append {l m : List Region} {x y z : Blk} (h : OnlyBlk l x y) (k : OnlyBlk m y z) :
    OnlyBlk (l ++ m) x z :=
  onlyBlk_trans (onlyBlk_mono (List.subset_append_left l m) h) (onlyBlk_mono (List.subset_append_right l m) k)

theorem onlyBlk_ite {l : List Region} {b x y : Blk} {c : Prop} [Decidable c] (hx : OnlyBlk l b x) (hy : OnlyBlk l b y) :
    OnlyBlk l b (if c then x else y) := by
  split
  · exact hx
  · exact hy

theorem onlyBlk_foldl {α : Type} {l : List Region} (f : Blk → α → Blk) (h : ∀ b a, OnlyBlk l b (f b a)) (as : List α)
    (b : Blk) : OnlyBlk l b (as.foldl f b) := by
  induction as generalizing b with
  | nil => exact onlyBlk_refl l b
  | cons a t ih => exact onlyBlk_trans (h b a) (ih (f b a))

/-- What a log or trace record and its like may reach (`Quiet`), as a frame. -/
theorem onlyBlk_of_quiet {x y : Blk} (h : Quiet x y) : OnlyBlk quietRegions x y := by
  simp [onlyBlk_iff, quietRegions, h.dead, h.pins, h.tb, h.frozen, h.fresh, h.str, h.coh, h.fab, h.traf, h.work, h.pair,
    h.hub, h.mgmt, h.sec, h.pwr]

/-- A frame of the block is one of the state, where the rest of the state stays. -/
theorem only_of_blk {l : List Region} {s : State} {b : Blk} (h : OnlyBlk l s.blk b) : Only l s { s with blk := b } :=
  ⟨rfl, rfl, h⟩

theorem onlyBlk_setReg (b : Blk) (off : Nat) (v : Word) : OnlyBlk [.regs] b (b.setReg off v) := by simp [onlyBlk_iff]

theorem onlyBlk_flag (b : Blk) (off i : Nat) : OnlyBlk [.regs] b (b.flag off i) := onlyBlk_setReg b off _

theorem onlyBlk_count (b : Blk) (off n : Nat) : OnlyBlk [.regs] b (b.count off n) := onlyBlk_setReg b off _

theorem onlyBlk_incr (b : Blk) (off : Nat) : OnlyBlk [.regs] b (b.incr off) := onlyBlk_count b off 1

theorem onlyBlk_aonAdd (b : Blk) (i n : Nat) : OnlyBlk [.aon] b (b.aonAdd i n) := by simp [onlyBlk_iff, Blk.aonAdd]

theorem onlyBlk_pcEvent (b : Blk) (unit i code : Nat) (part : Option Nat) (n : Nat) :
    OnlyBlk [.pcs] b (b.pcEvent unit i code part n) := by
  unfold Blk.pcEvent
  dsimp only
  split
  · exact onlyBlk_refl _ b
  · split <;> simp [onlyBlk_iff]

theorem onlyBlk_event (b : Blk) (unit code : Nat) (part : Option Nat) (n : Nat) :
    OnlyBlk [.pcs] b (b.event unit code part n) :=
  onlyBlk_foldl _ (fun b i => onlyBlk_pcEvent b unit i code part n) _ b

/-! ### Commands on a device that is up -/

theorem live_of_up {s : State} (f : Blk → Blk) (hup : s.blk.dead = false) : live f s = .next { s with blk := f s.blk } := by
  simp [live, hup]

/-- A command whose meaning is `live f` does on a device that is up what f does to its block. -/
theorem does_of_live {i : Instr} {s : State} {f : Blk → Blk} {p : State → Prop} (hex : exec i s = live f s)
    (hup : s.blk.dead = false) (hp : p { s with blk := f s.blk }) : Does i s p :=
  ⟨_, hex.trans (live_of_up f hup), hp⟩

theorem gives_of_live {i : Instr} {s : State} {f : Blk → Blk} {b : Blk} (hex : exec i s = live f s)
    (hup : s.blk.dead = false) (hb : f s.blk = b) : Gives i s b :=
  hb ▸ hex.trans (live_of_up f hup)

/-- A command whose operation leaves the block leaves the state, on a device that is down too. -/
theorem stays_of_live {i : Instr} {s : State} {f : Blk → Blk} (hex : exec i s = live f s)
    (hf : s.blk.dead = false → f s.blk = s.blk) : exec i s = .next s := by
  rw [hex, live]
  split
  · rfl
  · next hup => rw [hf (Bool.eq_false_iff.mpr hup)]

end Sys2Proof.Proofs
end

/-! ## The queue, time, storage and the input (R273, R394, R417, R418) -/
section
namespace Sys2Proof.Proofs

open Sys2Proof.Machine

/-- Settles O1: the rule of `step` for a queue that is not empty. -/
theorem stepRunsTheFrontCommand : Obligations.StepRunsTheFrontCommand :=
  fun _ _ _ => rfl

/-- Settles O6: each part of the reset state is empty, or at its value. -/
theorem resetStateIsInForm : Obligations.ResetStateIsInForm := by
  refine ⟨?_, ?_, ?_, ?_, ?_, ?_, rfl, rfl, rfl, rfl, rfl, rfl⟩ <;> decide

/-! ### What waiting counts -/

/-- What a period of waiting may change of the work: the T-step accounts alone. -/
structure Waited (x y : Blk) : Prop where
  frame : OnlyBlk [.fresh, .aon, .pcs, .work] x y
  work : y.work = { x.work with tds := y.work.tds }

theorem waited_refl (b : Blk) : Waited b b := ⟨onlyBlk_refl _ b, rfl⟩

theorem waited_trans {x y z : Blk} (h : Waited x y) (k : Waited y z) : Waited x z where
  frame := onlyBlk_trans h.frame k.frame
  work := by rw [k.work, h.work]

theorem waited_foldl {α : Type} (f : Blk → α → Blk) (h : ∀ b a, Waited b (f b a)) (as : List α) (b : Blk) :
    Waited b (as.foldl f b) := by
  induction as generalizing b with
  | nil => exact waited_refl b
  | cons a t ih => exact waited_trans (h b a) (ih (f b a))

/-- A change of the counters alone is one of waiting. -/
theorem waited_of_counters {x y : Blk} (h : OnlyBlk [.fresh, .aon, .pcs] x y) : Waited x y where
  frame := onlyBlk_mono (by simp) h
  work := by rw [show y.work = x.work from h .work (by simp)]

theorem waited_event (b : Blk) (unit code : Nat) (part : Option Nat) (n : Nat) : Waited b (b.event unit code part n) :=
  waited_of_counters (onlyBlk_mono (by simp) (onlyBlk_event b unit code part n))

theorem waited_tick (b : Blk) (k cls n part : Nat) : Waited b (b.tick k cls n part) := by
  have hadd : Waited b { b with work.tds := tmod (fun _ => 0) b.work.tds (6 * k + cls) (· + n) } :=
    ⟨by simp [onlyBlk_iff], rfl⟩
  unfold Blk.tick
  dsimp only
  split
  · exact waited_trans (waited_trans hadd (waited_event _ _ _ _ _)) (waited_of_counters (onlyBlk_mono (by simp) (onlyBlk_aonAdd _ k n)))
  · exact waited_trans hadd (waited_event _ _ _ _ _)

theorem waited_draw (b : Blk) : Waited b b.draw.2 := waited_of_counters (by simp [onlyBlk_iff, Blk.draw])

theorem waited_waste (b : Blk) (k cls part : Nat) : Waited b (b.waste k cls part) :=
  waited_trans (waited_draw b) (waited_tick _ k cls _ part)

theorem waited_tillerTime (b : Blk) (k : Nat) : Waited b (b.tillerTime k) := by
  unfold Blk.tillerTime
  split
  · exact waited_refl b
  · split
    · exact waited_waste b _ _ _
    · split
      · exact waited_waste b _ _ _
      · exact waited_trans (waited_waste b _ _ _) (waited_waste _ _ _ _)

theorem waited_counterTime (b : Blk) (key : Nat) : Waited b (b.counterTime key) := by
  unfold Blk.counterTime
  dsimp only
  split
  · exact waited_trans (waited_draw b) (waited_of_counters (onlyBlk_mono (by simp) (onlyBlk_pcEvent _ _ _ _ _ _)))
  · exact waited_refl b

/-! ### The idle flits of a link -/

/-- The link of a port after the flit times of a period have been filled. -/
def idleLink (k : Link) : Link :=
  if k.live = true then
    let m := ((k.credit + 1799) / 34).toNat
    if m = 0 then { k with credit := k.credit + 1799 }
    else { k with
      credit := k.credit + 1799 - 34 * m, unacked := 0
      out := k.out ++ [{ ty := 0, seq := 0, ack := (k.rxNext + 4095) % 4096, reqAck := decide (1528 ≤ k.held.length),
                         payload := zeros 32, times := m }] }
  else k

theorem link_modLink_ne (b : Blk) {n m : Nat} (f : Link → Link) (h : m ≠ n) : (b.modLink n f).link m = b.link m := by
  simp [Blk.modLink, Blk.link, tget_tmod_ne _ _ _ _ _ h]

@[simp] theorem link_aonAdd (b : Blk) (i n m : Nat) : (b.aonAdd i n).link m = b.link m := rfl

theorem link_idleFill_self (b : Blk) (n : Nat) : (b.idleFill n).link n = idleLink (b.link n) := by
  unfold Blk.idleFill idleLink
  by_cases hlive : (b.link n).live = true
  · simp only [hlive, Bool.not_true, Bool.false_eq_true, if_false, if_true]
    by_cases hm : (((b.link n).credit + 1799) / 34).toNat = 0
    · simp [hm, flitTimes]
    · simp [hm, flitTimes, Blk.emit, fit, zeros]
  · simp [hlive]

theorem link_idleFill_ne (b : Blk) {n m : Nat} (h : m ≠ n) : (b.idleFill n).link m = b.link m := by
  unfold Blk.idleFill
  dsimp only
  split
  · rfl
  · split
    · exact link_modLink_ne b _ h
    · simp [Blk.emit, link_modLink_ne _ _ h]

theorem idleFill_frame (b : Blk) (n : Nat) :
    OnlyBlk [.aon, .fab] b (b.idleFill n) ∧ (b.idleFill n).fab = { b.fab with links := (b.idleFill n).fab.links } := by
  unfold Blk.idleFill
  dsimp only
  split
  · exact ⟨onlyBlk_refl _ b, rfl⟩
  · split
    · exact ⟨by simp [onlyBlk_iff, Blk.modLink], rfl⟩
    · exact ⟨by simp [onlyBlk_iff, Blk.emit, Blk.modLink, Blk.aonAdd], rfl⟩

theorem idleFills_frame (b : Blk) (ns : List Nat) :
    OnlyBlk [.aon, .fab] b (ns.foldl Blk.idleFill b) ∧
      (ns.foldl Blk.idleFill b).fab = { b.fab with links := (ns.foldl Blk.idleFill b).fab.links } := by
  induction ns generalizing b with
  | nil => exact ⟨onlyBlk_refl _ b, rfl⟩
  | cons n t ih =>
    obtain ⟨hframe, hfab⟩ := idleFill_frame b n
    obtain ⟨hframes, hfabs⟩ := ih (b.idleFill n)
    refine ⟨onlyBlk_trans hframe hframes, ?_⟩
    rw [List.foldl_cons, hfabs, hfab]

theorem link_idleFills (b : Blk) (k n : Nat) :
    ((List.range k).foldl Blk.idleFill b).link n = if n < k then idleLink (b.link n) else b.link n := by
  induction k with
  | zero => rfl
  | succ k ih =>
    rw [List.range_succ, List.foldl_append, List.foldl_cons, List.foldl_nil]
    obtain hlt | rfl | hgt := Nat.lt_trichotomy n k
    · rw [link_idleFill_ne _ hlt.ne, ih, if_pos hlt, if_pos (by omega)]
    · rw [link_idleFill_self, ih, if_neg (Nat.lt_irrefl _), if_pos (Nat.lt_succ_self _)]
    · rw [link_idleFill_ne _ hgt.ne', ih, if_neg (by omega), if_neg (by omega)]

theorem idleLink_of_dead {k : Link} (h : k.live = false) : idleLink k = k := by
  simp [idleLink, h]

theorem idleLink_of_live {k : Link} (h : k.live = true) (hroom : 34 ≤ k.credit + 1799) :
    idleLink k = { k with credit := (k.credit + 1799) % 34, unacked := 0, out := k.out ++ [idleFlits k] } := by
  have hm : ((k.credit + 1799) / 34).toNat ≠ 0 := by omega
  have hrest : k.credit + 1799 - 34 * ((k.credit + 1799) / 34).toNat = (k.credit + 1799) % 34 := by omega
  simp only [idleLink, h, if_true, hm, if_false, hrest, idleFlits]

/-- The block as the waiting of a period leaves it, before the links fill their flit times. -/
def waitedBlk (b : Blk) : Blk :=
  let b1 : Blk := { b with tb := if b.frozen then b.tb else b.tb + 40 }
  (mkeys b1.pcs).dedup.foldl Blk.counterTime ((List.range 24).foldl Blk.tillerTime b1)

theorem waited_waitedBlk (b : Blk) : Waited { b with tb := if b.frozen then b.tb else b.tb + 40 } (waitedBlk b) :=
  waited_trans (waited_foldl _ waited_tillerTime _ _) (waited_foldl _ waited_counterTime _ _)

theorem onlyBlk_waitedBlk (b : Blk) : OnlyBlk [.tb, .fresh, .aon, .pcs, .work] b (waitedBlk b) := by
  have htime : OnlyBlk [.tb] b { b with tb := if b.frozen then b.tb else b.tb + 40 } := by simp [onlyBlk_iff]
  exact onlyBlk_append htime (waited_waitedBlk b).frame

theorem period_of_dead {b : Blk} (h : b.dead = true) :
    b.period = { b with tb := if b.frozen then b.tb else b.tb + 40 } := by
  simp [Blk.period, h]

theorem period_of_up {b : Blk} (h : b.dead = false) : b.period = (List.range 48).foldl Blk.idleFill (waitedBlk b) := by
  simp [Blk.period, h, waitedBlk]

theorem tb_period_of_up (b : Blk) :
    ((List.range 48).foldl Blk.idleFill (waitedBlk b)).tb = if b.frozen then b.tb else b.tb + 40 :=
  ((idleFills_frame (waitedBlk b) _).1 .tb (by simp)).trans ((waited_waitedBlk b).frame .tb (by simp))

/-- Settles O2: waiting reaches the counters and the T-step accounts, and the links are filled one by one. -/
theorem idleStepCountsOnePeriod : Obligations.IdleStepCountsOnePeriod := by
  intro s hq
  refine ⟨{ s with blk := s.blk.period }, by simp only [step, hq, tick], rfl, hq, ?_⟩
  cases hdead : s.blk.dead with
  | true =>
    rw [period_of_dead hdead]
    refine ⟨by simp [onlyBlk_iff], fun hf => by simp [hf], fun hf => by simp [hf], fun _ => by simp [onlyBlk_iff],
      rfl, rfl, fun _ _ => rfl, fun _ _ h => absurd h (by decide)⟩
  | false =>
    obtain ⟨-, hwork⟩ := waited_waitedBlk s.blk
    have hwait := onlyBlk_waitedBlk s.blk
    obtain ⟨hfill, hfab⟩ := idleFills_frame (waitedBlk s.blk) (List.range 48)
    have hlinks := link_idleFills (waitedBlk s.blk) 48
    rw [← period_of_up hdead] at hfill hfab hlinks
    have htb : s.blk.period.tb = if s.blk.frozen then s.blk.tb else s.blk.tb + 40 := by
      rw [period_of_up hdead]
      exact tb_period_of_up s.blk
    have hfab0 : (waitedBlk s.blk).fab = s.blk.fab := hwait .fab (by simp)
    have hlink0 (n : Nat) : (waitedBlk s.blk).link n = s.blk.link n := by rw [Blk.link, hfab0, Blk.link]
    refine ⟨onlyBlk_mono (by simp) (onlyBlk_append hwait hfill), fun hf => by simp [htb, hf], fun hf => by simp [htb, hf],
      fun h => absurd h (by decide), ?_, ?_, ?_, ?_⟩
    · rw [show s.blk.period.work = (waitedBlk s.blk).work from hfill .work (by simp)]
      exact hwork
    · rw [hfab, hfab0]
    · intro n hidle
      rw [hlinks, hlink0, idleLink_of_dead hidle, ite_self]
    · intro n hn _ hlive hroom
      rw [hlinks, if_pos hn, hlink0, idleLink_of_live hlive hroom]

/-! ### Storage -/

theorem cget_of_forall_ne {m : Cells} {x : Nat} (h : ∀ c ∈ m, c.1 ≠ x) : cget m x = Cells.unlisted := by
  induction m with
  | nil => rfl
  | cons c t ih =>
    rw [cget, if_neg (h c List.mem_cons_self), ih fun d hd => h d (List.mem_cons_of_mem _ hd)]

/-- A part of the storage without a cell at an address does not hide what follows it. -/
theorem cget_append_of_forall_ne {m n : Cells} {x : Nat} (h : ∀ c ∈ m, c.1 ≠ x) : cget (m ++ n) x = cget n x := by
  induction m with
  | nil => rfl
  | cons c t ih =>
    rw [List.cons_append, cget, if_neg (h c List.mem_cons_self), ih fun d hd => h d (List.mem_cons_of_mem _ hd)]

theorem cget_append_of_forall_ne_right {m n : Cells} {x : Nat} (h : ∀ c ∈ n, c.1 ≠ x) : cget (m ++ n) x = cget m x := by
  induction m with
  | nil => exact cget_of_forall_ne h
  | cons c t ih => rw [List.cons_append, cget, cget, ih]

theorem cget_filter {m : Cells} {x : Nat} (p : Host.Cell → Bool) (h : ∀ v, p (x, v) = true) :
    cget (m.filter p) x = cget m x := by
  induction m with
  | nil => rfl
  | cons c t ih =>
    obtain ⟨k, v⟩ := c
    by_cases hp : p (k, v) = true
    · rw [List.filter_cons_of_pos hp, cget, cget, ih]
    · have hk : k ≠ x := fun heq => hp (heq ▸ h v)
      rw [List.filter_cons_of_neg hp, cget, if_neg hk, ih]

theorem cget_cellsOf (a : Nat) (bs : Bytes) {i : Nat} (h : i < bs.length) : cget (cellsOf a bs) (a + i) = bs[i] := by
  induction bs generalizing a i with
  | nil => simp at h
  | cons x t ih =>
    have hlater : ∀ c ∈ cellsOf (a + 1) t, c.1 ≠ a := fun c hc => by
      have := (cellsOf_mem (a + 1) t c hc).1
      omega
    rw [cellsOf]
    cases i with
    | zero =>
      split
      · next hx => exact (cget_of_forall_ne hlater).trans hx.symm
      · rw [cget, if_pos (Nat.add_zero a).symm, List.getElem_cons_zero]
    | succ j =>
      have hj : j < t.length := by simpa using h
      have hstep := ih (a + 1) hj
      rw [Nat.add_right_comm] at hstep
      split
      · exact hstep
      · rw [cget, if_neg (by omega)]
        exact hstep

theorem cget_cwrite_inside (m : Cells) (a : Nat) (bs : Bytes) {i : Nat} (h : i < bs.length) :
    cget (cwrite m a bs) (a + i) = bs[i] := by
  rw [cwrite, List.append_assoc, cget_append_of_forall_ne, cget_append_of_forall_ne_right, cget_cellsOf a bs h]
  · intro c hc
    have := (List.mem_filter.mp hc).2
    simp only [decide_eq_true_eq] at this
    omega
  · intro c hc
    have := (List.mem_filter.mp hc).2
    simp only [decide_eq_true_eq] at this
    omega

theorem cget_cwrite_outside (m : Cells) (a : Nat) (bs : Bytes) {x : Nat} (h : x < a ∨ a + bs.length ≤ x) :
    cget (cwrite m a bs) x = cget m x := by
  have hmid : ∀ c ∈ cellsOf a bs, c.1 ≠ x := fun c hc => by
    have := cellsOf_mem a bs c hc
    omega
  rw [cwrite]
  obtain hlow | hhigh := h
  · rw [cget_append_of_forall_ne_right, cget_append_of_forall_ne_right hmid, cget_filter _ (by simpa using hlow)]
    intro c hc
    have := (List.mem_filter.mp hc).2
    simp only [decide_eq_true_eq] at this
    omega
  · rw [List.append_assoc, cget_append_of_forall_ne, cget_append_of_forall_ne hmid, cget_filter _ (by simpa using hhigh)]
    intro c hc
    have := (List.mem_filter.mp hc).2
    simp only [decide_eq_true_eq] at this
    omega

/-- Settles O7: the cells below, of and above the written range are searched apart. -/
theorem storageReadsWhatWasWritten : Obligations.StorageReadsWhatWasWritten :=
  fun m a bs hm => ⟨cwrite_wf m a bs hm, fun _ => cget_cwrite_inside m a bs, fun _ => cget_cwrite_outside m a bs⟩

/-! ### The input -/

theorem lockedOut_iff (mv : Nat) : lockedOut mv = true ↔ mv < 58000 ∨ 84000 < mv := by
  simp [lockedOut]

/-- Settles O10: the input is judged once, for the block and for the flash. -/
theorem lockoutTurnsEverythingOff : Obligations.LockoutTurnsEverythingOff := by
  constructor
  · intro mv s hout
    have hlock : lockedOut mv = true := (lockedOut_iff mv).mpr hout
    refine ⟨_, rfl, ?_⟩
    simp [inputLockout, lockFlash, hlock, Blk.flashCut, onlyBlk_iff]
  · intro mv s hlo hhi
    have hlock : ¬ lockedOut mv = true := fun h => by
      have := (lockedOut_iff mv).mp h
      omega
    have hexec : exec (.inputLockout mv) s =
      .next { s with blk := inputLockout s.blk mv, nv.flash := lockFlash s.blk s.nv.flash mv } := rfl
    rw [hexec, inputLockout, lockFlash, if_neg hlock, if_pos (by simpa using hlock)]

/-! ### Atomics -/

/-- Settles O30: each operation of the table is its own equation; the signed minimum and maximum are those of the
values that `sext` gives. -/
theorem atomicOperationsCompute : Obligations.AtomicOperationsCompute := by
  intro n old x cmp _ _ _ _
  refine ⟨rfl, ?_, ?_, rfl, rfl, fun i => Nat.testBit_and _ _ _, fun i => Nat.testBit_or _ _ _,
    fun i => Nat.testBit_xor _ _ _, rfl, rfl⟩
  · simp only [atmNew, min_def]
    split <;> rfl
  · simp only [atmNew, max_def]
    split <;> rfl

end Sys2Proof.Proofs
end

/-! ## Lines of the pool (R84 to R88, R337, R338, R349)

What a line reads as depends on how it is stored (`SameWays`) and on its copies; what a write changes of either. -/
section
namespace Sys2Proof.Proofs

open Sys2Proof.Machine

/-! ### How lines are stored -/

/-- Two blocks store their lines in the same places: the same structure runs, the same channels store the same rows, and the
same granules occupy frames. -/
structure SameWays (x y : Blk) : Prop where
  run : y.str.run = x.str.run
  lost : ∀ c, (y.husk c).lost = (x.husk c).lost
  rebuilding : ∀ c, (y.husk c).rebuilding = (x.husk c).rebuilding
  cursor : ∀ c, (y.husk c).cursor = (x.husk c).cursor
  void : ∀ c, (y.husk c).void = (x.husk c).void
  frames : y.pool.frames = x.pool.frames
  migs : y.pool.migs = x.pool.migs
  stopped : y.pool.stopped = x.pool.stopped

/-- Two blocks hold the same lines in the same places. -/
structure SameLines (x y : Blk) : Prop extends SameWays x y where
  revived : y.pool.revived = x.pool.revived
  cellsA : y.pool.cellsA = x.pool.cellsA
  cellsB : y.pool.cellsB = x.pool.cellsB
  cellsG : y.pool.cellsG = x.pool.cellsG
  metaA : y.pool.metaA = x.pool.metaA
  metaB : y.pool.metaB = x.pool.metaB
  metaG : y.pool.metaG = x.pool.metaG

theorem sameWays_trans {x y z : Blk} (h : SameWays x y) (k : SameWays y z) : SameWays x z where
  run := k.run.trans h.run
  lost c := (k.lost c).trans (h.lost c)
  rebuilding c := (k.rebuilding c).trans (h.rebuilding c)
  cursor c := (k.cursor c).trans (h.cursor c)
  void c := (k.void c).trans (h.void c)
  frames := k.frames.trans h.frames
  migs := k.migs.trans h.migs
  stopped := k.stopped.trans h.stopped

theorem sameLines_trans {x y z : Blk} (h : SameLines x y) (k : SameLines y z) : SameLines x z where
  toSameWays := sameWays_trans h.toSameWays k.toSameWays
  revived := k.revived.trans h.revived
  cellsA := k.cellsA.trans h.cellsA
  cellsB := k.cellsB.trans h.cellsB
  cellsG := k.cellsG.trans h.cellsG
  metaA := k.metaA.trans h.metaA
  metaB := k.metaB.trans h.metaB
  metaG := k.metaG.trans h.metaG

/-- A change that reaches neither the structure, nor the pool, nor its channels leaves every line. -/
theorem sameLines_of_frame {l : List Region} {x y : Blk} (h : OnlyBlk l x y) (hstr : .str ∉ l) (hpool : .pool ∉ l)
    (hchans : .chans ∉ l) : SameLines x y := by
  have hs : y.str = x.str := h .str hstr
  have hp : y.pool = x.pool := h .pool hpool
  have hc (c : Nat) : y.husk c = x.husk c := by rw [Blk.husk, Blk.husk, show y.chans = x.chans from h .chans hchans]
  have hways : SameWays x y := by constructor <;> simp [hs, hp, hc]
  exact ⟨hways, by rw [hp], by rw [hp], by rw [hp], by rw [hp], by rw [hp], by rw [hp], by rw [hp]⟩

theorem sameLines_refl (x : Blk) : SameLines x x := sameLines_of_frame (onlyBlk_refl [] x) (by simp) (by simp) (by simp)

theorem sameLines_foldl {α : Type} (f : Blk → α → Blk) (h : ∀ b a, SameLines b (f b a)) (as : List α) (b : Blk) :
    SameLines b (as.foldl f b) := by
  induction as generalizing b with
  | nil => exact sameLines_refl b
  | cons a t ih => exact sameLines_trans (h b a) (ih (f b a))

section
variable {x y : Blk} (h : SameWays x y)
include h

theorem mode_congr : y.mode = x.mode := by rw [Blk.mode, Blk.mode, h.run]

theorem pos_congr (k : Nat) : y.pos k = x.pos k := by rw [Blk.pos, Blk.pos, mode_congr h]

theorem stored_congr (c line : Nat) : y.stored c line = x.stored c line := by
  simp only [Blk.stored, h.lost, h.rebuilding, h.cursor]

theorem stookOf_congr (c : Nat) : y.stookOf c = x.stookOf c := by rw [Blk.stookOf, Blk.stookOf, mode_congr h]

theorem goneAt_congr (c line : Nat) : y.goneAt c line = x.goneAt c line := by
  simp only [Blk.goneAt, stookOf_congr h, stored_congr h]

theorem inStook_congr (k : Nat) : y.inStook k = x.inStook k := by
  unfold Blk.inStook; dsimp only
  rw [pos_congr h, stored_congr h, goneAt_congr h, stookOf_congr h]

theorem inGrain_congr (k : Nat) : y.inGrain k = x.inGrain k := by
  simp only [Blk.inGrain, h.frames, h.migs, h.stopped]

theorem aliveB_congr (k : Nat) : y.aliveB k = x.aliveB k := by
  simp only [Blk.aliveB, pos_congr h, mode_congr h, stored_congr h]

theorem takesA_congr (k : Nat) : y.takesA k = x.takesA k := by
  simp only [Blk.takesA, pos_congr h, mode_congr h, stored_congr h, inStook_congr h]

theorem slotBad_congr (k : Nat) (m : LineMeta) : y.slotBad k m = x.slotBad k m := by
  simp only [Blk.slotBad, Blk.partOf, h.run]

section
variable {k : Nat} (hr : y.pool.revived.contains k = x.pool.revived.contains k)
include hr

theorem isVoid_congr : y.isVoid k = x.isVoid k := by
  simp only [Blk.isVoid, pos_congr h, mode_congr h, stored_congr h, h.void, hr]

theorem huskAlive_congr : y.huskAlive k = x.huskAlive k := by
  simp only [Blk.huskAlive, inStook_congr h, isVoid_congr h hr]

theorem aliveA_congr : y.aliveA k = x.aliveA k := by
  simp only [Blk.aliveA, pos_congr h, mode_congr h, stored_congr h, huskAlive_congr h hr]

theorem source_congr : y.source k = x.source k := by
  simp only [Blk.source, inGrain_congr h, aliveA_congr h hr, aliveB_congr h]

end
end

section
variable {x y : Blk} (h : SameLines x y)
include h

theorem copyBytes_congr (c : Copy) (k : Nat) : y.copyBytes c k = x.copyBytes c k := by
  cases c <;> simp only [Blk.copyBytes, h.cellsA, h.cellsB, h.cellsG]

theorem copyMeta_congr (c : Copy) (k : Nat) : y.copyMeta c k = x.copyMeta c k := by
  cases c <;> simp only [Blk.copyMeta, h.metaA, h.metaB, h.metaG]

theorem lineVal_congr (k : Nat) : y.lineVal k = x.lineVal k := by
  simp only [Blk.lineVal, source_congr h.toSameWays (congrArg (·.contains k) h.revived), copyMeta_congr h,
    copyBytes_congr h, slotBad_congr h.toSameWays]

theorem lineMeta_congr (k : Nat) : y.lineMeta k = x.lineMeta k := by
  simp only [Blk.lineMeta, source_congr h.toSameWays (congrArg (·.contains k) h.revived), copyMeta_congr h]

theorem storedBytes_congr (k : Nat) : y.storedBytes k = x.storedBytes k := by
  have hsrc := source_congr h.toSameWays (k := k) (congrArg (·.contains k) h.revived)
  have hbytes : (fun c => y.copyBytes c k) = fun c => x.copyBytes c k := funext fun c => copyBytes_congr h c k
  rw [Blk.storedBytes, Blk.storedBytes, hsrc, hbytes]

end

/-! ### Counts and queues of the channels -/

theorem husk_modHusk_ne (b : Blk) {c d : Nat} (f : HuskChan → HuskChan) (h : d ≠ c) : (b.modHusk c f).husk d = b.husk d := by
  simp [Blk.modHusk, Blk.husk, tget_tmod_ne _ _ _ _ _ h]

/-- A change of a channel that keeps what it stores. -/
theorem sameLines_modHusk (b : Blk) (c : Nat) (f : HuskChan → HuskChan) (hl : ∀ h, (f h).lost = h.lost)
    (hr : ∀ h, (f h).rebuilding = h.rebuilding) (hc : ∀ h, (f h).cursor = h.cursor) (hv : ∀ h, (f h).void = h.void) :
    SameLines b (b.modHusk c f) := by
  have chan (g : HuskChan → Bool × Bool × Nat × Option Nat) (hg : ∀ h, g (f h) = g h) (d : Nat) :
      g ((b.modHusk c f).husk d) = g (b.husk d) := by
    by_cases hd : d = c
    · rw [hd, Blk.husk_modHusk_self, hg]
    · rw [husk_modHusk_ne b f hd]
  have hkept := chan (fun h => (h.lost, h.rebuilding, h.cursor, h.void)) (fun h => by rw [hl, hr, hc, hv])
  simp only [Prod.mk.injEq] at hkept
  exact ⟨⟨rfl, fun d => (hkept d).1, fun d => (hkept d).2.1, fun d => (hkept d).2.2.1, fun d => (hkept d).2.2.2, rfl, rfl, rfl⟩,
    rfl, rfl, rfl, rfl, rfl, rfl, rfl⟩

theorem sameLines_aonAdd (b : Blk) (i n : Nat) : SameLines b (b.aonAdd i n) :=
  sameLines_of_frame (onlyBlk_aonAdd b i n) (by simp) (by simp) (by simp)

theorem sameLines_event (b : Blk) (unit code : Nat) (part : Option Nat) (n : Nat) : SameLines b (b.event unit code part n) :=
  sameLines_of_frame (onlyBlk_event b unit code part n) (by simp) (by simp) (by simp)

theorem sameLines_used (b : Blk) (u : Tab Nat) : SameLines b { b with pool.used := u } :=
  ⟨⟨rfl, fun _ => rfl, fun _ => rfl, fun _ => rfl, fun _ => rfl, rfl, rfl, rfl⟩, rfl, rfl, rfl, rfl, rfl, rfl, rfl⟩

theorem sameLines_huskOp (b : Blk) (c code part : Nat) : SameLines b (b.huskOp c code part) := by
  have hcount := sameLines_trans (sameLines_trans (sameLines_used b (tmod (fun _ => 0) b.pool.used (opsKey c) (· + 1)))
    (sameLines_aonAdd _ (120 + c) 1)) (sameLines_event _ (36 + c) code (some part) 1)
  refine sameLines_trans hcount (sameLines_modHusk _ c _ ?_ ?_ ?_ ?_) <;> intro h <;> split <;> rfl

theorem sameLines_huskOps (b : Blk) (code part : Nat) (cs : List Nat) : SameLines b (b.huskOps code part cs) :=
  sameLines_foldl _ (fun b c => sameLines_huskOp b c code part) cs b

theorem sameLines_countHusk (b : Blk) (l code part : Nat) : SameLines b (b.countHusk l code part) :=
  sameLines_huskOps b code part _

theorem sameLines_countGrain (b : Blk) (l code part : Nat) : SameLines b (b.countGrain l code part) :=
  sameLines_trans (sameLines_aonAdd b _ 1) (sameLines_event _ _ code (some part) 1)

/-! ### Copies written -/

theorem cread_cwrite_self (m : Cells) (a : Nat) {bs : Bytes} {n : Nat} (hn : bs.length = n) : cread (cwrite m a bs) a n = bs := by
  subst hn
  refine List.ext_getElem (by simp [cread]) fun i hi hj => ?_
  simp only [cread, List.getElem_map, List.getElem_range]
  exact cget_cwrite_inside m a bs hj

theorem cread_cwrite_apart (m : Cells) {a c n : Nat} {bs : Bytes} (h : c + n ≤ a ∨ a + bs.length ≤ c) :
    cread (cwrite m a bs) c n = cread m c n := by
  refine List.map_congr_left fun i hi => cget_cwrite_outside m a bs ?_
  have := List.mem_range.mp hi
  omega

@[simp] theorem length_zeros (n : Nat) : (zeros n).length = n := by simp [zeros]

@[simp] theorem length_fit (n : Nat) (bs : Bytes) : (fit n bs).length = n := by
  simp only [fit, List.length_append, List.length_take, length_zeros]
  omega

theorem fit_of_length {n : Nat} {bs : Bytes} (h : bs.length = n) : fit n bs = bs := by
  simp [fit, zeros, ← h]

theorem cread_line_cwrite_ne (m : Cells) {l k : Nat} (bs : Bytes) (h : k ≠ l) :
    cread (cwrite m (l * 128) (fit 128 bs)) (k * 128) 128 = cread m (k * 128) 128 :=
  cread_cwrite_apart m (by rw [length_fit]; omega)

/-- The metadata that a copy keeps of what it is given: only a Grain line may be dirty. -/
def copyMetaOf (c : Copy) (m : LineMeta) : LineMeta := match c with
  | .grain => m
  | _ => { m with dirty := false }

theorem copyBytes_putCopy (b : Blk) (c d : Copy) (l k : Nat) (bs : Bytes) (m : LineMeta) :
    (b.putCopy c l bs m).copyBytes d k = if d = c ∧ k = l then fit 128 bs else b.copyBytes d k := by
  by_cases hk : k = l
  · subst hk
    cases c <;> cases d <;> simp [Blk.putCopy, Blk.copyBytes, cread_cwrite_self]
  · cases c <;> cases d <;> simp [Blk.putCopy, Blk.copyBytes, hk, cread_line_cwrite_ne]

theorem copyMeta_putCopy (b : Blk) (c d : Copy) (l k : Nat) (bs : Bytes) (m : LineMeta) :
    (b.putCopy c l bs m).copyMeta d k = if d = c ∧ k = l then copyMetaOf c m else b.copyMeta d k := by
  by_cases hk : k = l
  · subst hk
    cases c <;> cases d <;> simp [Blk.putCopy, Blk.copyMeta, copyMetaOf]
  · cases c <;> cases d <;> simp [Blk.putCopy, Blk.copyMeta, hk, tget_tset_ne]

theorem sameWays_putCopy (b : Blk) (c : Copy) (l : Nat) (bs : Bytes) (m : LineMeta) : SameWays b (b.putCopy c l bs m) := by
  cases c <;> exact ⟨rfl, fun _ => rfl, fun _ => rfl, fun _ => rfl, fun _ => rfl, rfl, rfl, rfl⟩

theorem revived_putCopy (b : Blk) (c : Copy) (l : Nat) (bs : Bytes) (m : LineMeta) :
    (b.putCopy c l bs m).pool.revived = b.pool.revived := by
  cases c <;> rfl

theorem sameLines_freshChecks (b : Blk) (l : Nat) : SameLines b (b.freshChecks l) := by
  unfold Blk.freshChecks
  dsimp only
  split
  · exact sameLines_refl b
  · exact ⟨⟨rfl, fun _ => rfl, fun _ => rfl, fun _ => rfl, fun _ => rfl, rfl, rfl, rfl⟩, rfl, rfl, rfl, rfl, rfl, rfl, rfl⟩

/-- Reviving a line changes nothing but the list of revived lines. -/
theorem revive_eq (b : Blk) (l : Nat) :
    b.revive l = { b with pool.revived := if b.isVoid l && b.takesA l then with1 b.pool.revived l else b.pool.revived } := by
  unfold Blk.revive
  split <;> rfl

theorem sameWays_revive (b : Blk) (l : Nat) : SameWays b (b.revive l) := by
  rw [revive_eq]
  exact ⟨rfl, fun _ => rfl, fun _ => rfl, fun _ => rfl, fun _ => rfl, rfl, rfl, rfl⟩

theorem contains_with1_ne (xs : List Nat) {l k : Nat} (h : k ≠ l) : (with1 xs l).contains k = xs.contains k := by
  unfold with1
  split
  · rfl
  · simp [h]

/-- The Husk copies of a line written, before the check lines of its stripe follow. -/
def huskPut (b : Blk) (l : Nat) (bs : Bytes) (m : LineMeta) : Blk :=
  let b1 := if b.takesA l then b.putCopy .huskA l bs m else b
  if b.aliveB l then b1.putCopy .huskB l bs m else b1

theorem putHusk_eq (b : Blk) (l : Nat) (bs : Bytes) (m : LineMeta) :
    b.putHusk l bs m = ((huskPut b l bs m).freshChecks l).revive l := rfl

theorem sameWays_huskPut (b : Blk) (l : Nat) (bs : Bytes) (m : LineMeta) : SameWays b (huskPut b l bs m) := by
  have hA : SameWays b (if b.takesA l then b.putCopy .huskA l bs m else b) := by
    split
    · exact sameWays_putCopy b _ l bs m
    · exact (sameLines_refl b).toSameWays
  unfold huskPut
  dsimp only
  split
  · exact sameWays_trans hA (sameWays_putCopy _ _ l bs m)
  · exact hA

theorem revived_huskPut (b : Blk) (l : Nat) (bs : Bytes) (m : LineMeta) :
    (huskPut b l bs m).pool.revived = b.pool.revived := by
  unfold huskPut
  dsimp only
  split <;> split <;> simp [revived_putCopy]

theorem sameWays_putHusk (b : Blk) (l : Nat) (bs : Bytes) (m : LineMeta) : SameWays b (b.putHusk l bs m) :=
  sameWays_trans (sameWays_trans (sameWays_huskPut b l bs m) (sameLines_freshChecks _ l).toSameWays) (sameWays_revive _ l)

theorem revived_putHusk (b : Blk) (l : Nat) (bs : Bytes) (m : LineMeta) :
    (b.putHusk l bs m).pool.revived = if b.isVoid l && b.takesA l then with1 b.pool.revived l else b.pool.revived := by
  have hways := sameWays_trans (sameWays_huskPut b l bs m) (sameLines_freshChecks (huskPut b l bs m) l).toSameWays
  have hrev : ((huskPut b l bs m).freshChecks l).pool.revived = b.pool.revived :=
    (sameLines_freshChecks _ l).revived.trans (revived_huskPut b l bs m)
  rw [putHusk_eq, revive_eq]
  simp only [takesA_congr hways, isVoid_congr hways (congrArg (·.contains l) hrev), hrev]

/-- Does a write of the Husk copies of a line write a copy. -/
def huskTakes (b : Blk) (l : Nat) : Copy → Bool
  | .huskA => b.takesA l
  | .huskB => b.aliveB l
  | .grain => false

theorem copyBytes_putHusk (b : Blk) (d : Copy) (l k : Nat) (bs : Bytes) (m : LineMeta) :
    (b.putHusk l bs m).copyBytes d k = if huskTakes b l d = true ∧ k = l then fit 128 bs else b.copyBytes d k := by
  have hrest : (b.putHusk l bs m).copyBytes d k = (huskPut b l bs m).copyBytes d k := by
    rw [putHusk_eq, revive_eq, ← copyBytes_congr (sameLines_freshChecks (huskPut b l bs m) l)]
    cases d <;> rfl
  rw [hrest]
  unfold huskPut
  dsimp only
  cases d <;> split <;> split <;> simp_all [copyBytes_putCopy, huskTakes]

theorem copyMeta_putHusk (b : Blk) (d : Copy) (l k : Nat) (bs : Bytes) (m : LineMeta) :
    (b.putHusk l bs m).copyMeta d k = if huskTakes b l d = true ∧ k = l then { m with dirty := false } else b.copyMeta d k := by
  have hrest : (b.putHusk l bs m).copyMeta d k = (huskPut b l bs m).copyMeta d k := by
    rw [putHusk_eq, revive_eq, ← copyMeta_congr (sameLines_freshChecks (huskPut b l bs m) l)]
    cases d <;> rfl
  rw [hrest]
  unfold huskPut
  dsimp only
  cases d <;> split <;> split <;> simp_all [copyMeta_putCopy, huskTakes, copyMetaOf]

/-! ### What a write leaves to be read -/

/-- A write of the line l between two blocks: lines are stored in the same places, l has the copies that serve it at the given
bytes and metadata, and no copy of another line has changed. -/
structure Wrote (x y : Blk) (l : Nat) (bs : Bytes) (p : Bool) (e : Byte) (slot : Nat) : Prop where
  ways : SameWays x y
  revived : ∀ k, k ≠ l → y.pool.revived.contains k = x.pool.revived.contains k
  source : y.source l = x.source l
  bytes : ∀ c, x.source l = some c → y.copyBytes c l = fit 128 bs
  poison : ∀ c, x.source l = some c → (y.copyMeta c l).poison = p
  wepoch : ∀ c, x.source l = some c → (y.copyMeta c l).wepoch = e
  slot : ∀ c, x.source l = some c → (y.copyMeta c l).slot = slot
  otherBytes : ∀ c k, k ≠ l → y.copyBytes c k = x.copyBytes c k
  otherMeta : ∀ c k, k ≠ l → y.copyMeta c k = x.copyMeta c k

section
variable {x y : Blk} {l : Nat} {bs : Bytes} {p : Bool} {e : Byte} {slot : Nat} (h : Wrote x y l bs p e slot)
include h

theorem Wrote.then {z : Blk} (k : SameLines y z) : Wrote x z l bs p e slot where
  ways := sameWays_trans h.ways k.toSameWays
  revived j hj := by rw [k.revived, h.revived j hj]
  source := by rw [source_congr k.toSameWays (congrArg (·.contains l) k.revived), h.source]
  bytes c hc := by rw [copyBytes_congr k, h.bytes c hc]
  poison c hc := by rw [copyMeta_congr k, h.poison c hc]
  wepoch c hc := by rw [copyMeta_congr k, h.wepoch c hc]
  slot c hc := by rw [copyMeta_congr k, h.slot c hc]
  otherBytes c j hj := by rw [copyBytes_congr k, h.otherBytes c j hj]
  otherMeta c j hj := by rw [copyMeta_congr k, h.otherMeta c j hj]

theorem Wrote.lineVal_other {k : Nat} (hk : k ≠ l) : y.lineVal k = x.lineVal k := by
  simp only [Blk.lineVal, source_congr h.ways (h.revived k hk), h.otherMeta _ k hk, h.otherBytes _ k hk, slotBad_congr h.ways]

theorem Wrote.lineVal (hs : (x.source l).isSome = true) (hslot : slot = 64 ∨ slot = x.str.run.slotOf (x.partOf l)) :
    y.lineVal l = (if p then zeros 128 else fit 128 bs, p) := by
  obtain ⟨c, hc⟩ := Option.isSome_iff_exists.mp hs
  have hgood : y.slotBad l (y.copyMeta c l) = false := by
    rw [slotBad_congr h.ways, Blk.slotBad, h.slot c hc]
    obtain rfl | rfl := hslot <;> simp
  simp only [Blk.lineVal, h.source, hc, h.poison c hc, h.bytes c hc, hgood, Bool.or_false]
  cases p <;> rfl

theorem Wrote.lineMeta_wepoch (hs : (x.source l).isSome = true) : (y.lineMeta l).wepoch = e := by
  obtain ⟨c, hc⟩ := Option.isSome_iff_exists.mp hs
  simp only [Blk.lineMeta, h.source, hc, h.wepoch c hc]

end

theorem source_grain {b : Blk} {l : Nat} : b.inGrain l = true ↔ b.source l = some .grain := by
  unfold Blk.source
  constructor
  · intro h
    rw [if_pos h]
  · intro h
    split at h
    · assumption
    · split at h
      · cases h
      · split at h <;> cases h

theorem huskTakes_of_source {b : Blk} {l : Nat} {c : Copy} (h : b.source l = some c) (hg : b.inGrain l = false) :
    huskTakes b l c = true := by
  simp only [Blk.source, hg, Bool.false_eq_true, if_false] at h
  split at h
  · next hA =>
    cases h
    simp only [huskTakes, Blk.takesA]
    simp only [Blk.aliveA, Blk.huskAlive] at hA
    split at hA
    · next hmode => rw [if_pos hmode]; exact hA
    · next hmode => rw [if_neg hmode]; exact (Bool.and_eq_true _ _ ▸ hA).1
  · split at h
    · next hB => cases h; exact hB
    · cases h

/-- A line with a stored copy is not one that a write brings back. -/
theorem not_revived_of_source {b : Blk} {l : Nat} {c : Copy} (h : b.source l = some c) (hg : b.inGrain l = false) :
    b.isVoid l = false := by
  by_cases hmode : 2 ≤ b.mode
  · simp only [Blk.source, hg, Bool.false_eq_true, if_false] at h
    have hne : b.mode ≠ 1 := by omega
    have hB : b.aliveB l = false := by simp [Blk.aliveB, hne]
    have hA : b.aliveA l = true := by
      by_contra hA
      simp [hA, hB] at h
    simp only [Blk.aliveA, if_neg hne, Blk.huskAlive, Bool.and_eq_true, Bool.not_eq_true'] at hA
    exact hA.2
  · simp [Blk.isVoid, hmode]

theorem source_putHusk (b : Blk) (l : Nat) (bs : Bytes) (m : LineMeta) (hs : (b.source l).isSome = true) :
    (b.putHusk l bs m).source l = b.source l := by
  have hways := sameWays_putHusk b l bs m
  cases hg : b.inGrain l with
  | true => rw [source_grain.mp hg, source_grain.mp (by rw [inGrain_congr hways, hg])]
  | false =>
    obtain ⟨c, hc⟩ := Option.isSome_iff_exists.mp hs
    refine source_congr hways ?_
    rw [revived_putHusk, not_revived_of_source hc hg, Bool.false_and, if_neg Bool.false_ne_true]

/-- The Husk copies of a line written where no frame serves it. -/
theorem wrote_putHusk {b : Blk} {l : Nat} (bs : Bytes) (m : LineMeta) (hg : b.inGrain l = false)
    (hs : (b.source l).isSome = true) : Wrote b (b.putHusk l bs m) l bs m.poison m.wepoch m.slot where
  ways := sameWays_putHusk b l bs m
  revived k hk := by
    rw [revived_putHusk]
    split
    · exact contains_with1_ne _ hk
    · rfl
  source := source_putHusk b l bs m hs
  bytes c hc := by rw [copyBytes_putHusk, if_pos ⟨huskTakes_of_source hc hg, rfl⟩]
  poison c hc := by rw [copyMeta_putHusk, if_pos ⟨huskTakes_of_source hc hg, rfl⟩]
  wepoch c hc := by rw [copyMeta_putHusk, if_pos ⟨huskTakes_of_source hc hg, rfl⟩]
  slot c hc := by rw [copyMeta_putHusk, if_pos ⟨huskTakes_of_source hc hg, rfl⟩]
  otherBytes c k hk := by rw [copyBytes_putHusk, if_neg fun h => hk h.2]
  otherMeta c k hk := by rw [copyMeta_putHusk, if_neg fun h => hk h.2]

/-- The Grain copy of a line that its frame serves written. -/
theorem wrote_putCopy_grain {b : Blk} {l : Nat} (bs : Bytes) (m : LineMeta) (hg : b.inGrain l = true) :
    Wrote b (b.putCopy .grain l bs m) l bs m.poison m.wepoch m.slot := by
  have hsrc : b.source l = some .grain := source_grain.mp hg
  have grain {c : Copy} (hc : b.source l = some c) : c = .grain := (Option.some.inj (hsrc.symm.trans hc)).symm
  exact {
    ways := sameWays_putCopy b _ l bs m
    revived := fun k _ => rfl
    source := source_congr (sameWays_putCopy b _ l bs m) rfl
    bytes := fun c hc => by rw [grain hc, copyBytes_putCopy, if_pos ⟨rfl, rfl⟩]
    poison := fun c hc => by rw [grain hc, copyMeta_putCopy, if_pos ⟨rfl, rfl⟩]; rfl
    wepoch := fun c hc => by rw [grain hc, copyMeta_putCopy, if_pos ⟨rfl, rfl⟩]; rfl
    slot := fun c hc => by rw [grain hc, copyMeta_putCopy, if_pos ⟨rfl, rfl⟩]; rfl
    otherBytes := fun c k hk => by rw [copyBytes_putCopy, if_neg fun h => hk h.2]
    otherMeta := fun c k hk => by rw [copyMeta_putCopy, if_neg fun h => hk h.2] }

/-- The Husk copies of a line written too, after its Grain copy. -/
theorem Wrote.putHusk_grain {x y : Blk} {l : Nat} {bs : Bytes} {p : Bool} {e : Byte} {slot : Nat}
    (h : Wrote x y l bs p e slot) (hg : x.inGrain l = true) (bs' : Bytes) (m : LineMeta) :
    Wrote x (y.putHusk l bs' m) l bs p e slot := by
  have hsrc : x.source l = some .grain := source_grain.mp hg
  have grain {c : Copy} (hc : x.source l = some c) : c = .grain := (Option.some.inj (hsrc.symm.trans hc)).symm
  have hnot : ¬ (huskTakes y l .grain = true ∧ l = l) := fun hc => by cases hc.1
  exact {
    ways := sameWays_trans h.ways (sameWays_putHusk y l bs' m)
    revived := fun k hk => by
      rw [revived_putHusk, ← h.revived k hk]
      split
      · exact contains_with1_ne _ hk
      · rfl
    source := by rw [source_putHusk y l bs' m (by rw [h.source, hsrc]; rfl), h.source]
    bytes := fun c hc => by rw [grain hc, copyBytes_putHusk, if_neg hnot, h.bytes _ hsrc]
    poison := fun c hc => by rw [grain hc, copyMeta_putHusk, if_neg hnot, h.poison _ hsrc]
    wepoch := fun c hc => by rw [grain hc, copyMeta_putHusk, if_neg hnot, h.wepoch _ hsrc]
    slot := fun c hc => by rw [grain hc, copyMeta_putHusk, if_neg hnot, h.slot _ hsrc]
    otherBytes := fun c k hk => by rw [copyBytes_putHusk, if_neg fun h => hk h.2, h.otherBytes c k hk]
    otherMeta := fun c k hk => by rw [copyMeta_putHusk, if_neg fun h => hk h.2, h.otherMeta c k hk] }

/-- A write of a line with a stored copy writes the copies that serve it, with WEPOCH raised by one, under the key slot of its
partition. -/
theorem wrote_writeLine {b : Blk} {l : Nat} (bs : Bytes) (p wb : Bool) (hs : (b.source l).isSome = true) :
    Wrote b (b.writeLine l bs p wb) l bs p ((b.lineMeta l).wepoch + 1) (b.str.run.slotOf (b.partOf l)) := by
  unfold Blk.writeLine
  dsimp only
  cases hg : b.inGrain l with
  | true =>
    simp only [if_true]
    cases wb with
    | true => exact (wrote_putCopy_grain bs _ hg).then (sameLines_countGrain _ _ _ _)
    | false =>
      exact (((wrote_putCopy_grain bs _ hg).putHusk_grain hg bs _).then (sameLines_countGrain _ _ _ _)).then
        (sameLines_countHusk _ _ _ _)
  | false => exact (wrote_putHusk bs _ hg hs).then (sameLines_countHusk _ _ _ _)

/-- Settles O8: the written copies are those that serve the line, and their key slot is the partition's. -/
theorem lineReadsWhatWasWritten : Obligations.LineReadsWhatWasWritten := by
  intro b l bs p hs hlen
  have hw := wrote_writeLine bs p (b.lineWb l) hs
  refine ⟨?_, hw.lineMeta_wepoch hs, fun k hk => hw.lineVal_other hk⟩
  rw [hw.lineVal hs (.inr rfl), fit_of_length hlen]

end Sys2Proof.Proofs
end

/-! ## Frames by rewriting

`rest L b` is the block without the parts L. A frame is then an equation, and simp composes the frames of
operations that follow one another. -/
section
namespace Sys2Proof.Proofs

open Sys2Proof.Machine

/-- The block with the parts of a list emptied: what a frame that names these parts speaks of. -/
def rest (L : List Region) (b : Blk) : Blk where
  regs := if .regs ∈ L then [] else b.regs
  dead := if .dead ∈ L then false else b.dead
  pins := if .pins ∈ L then {} else b.pins
  tb := if .tb ∈ L then 0 else b.tb
  frozen := if .frozen ∈ L then false else b.frozen
  fresh := if .fresh ∈ L then 0 else b.fresh
  aon := if .aon ∈ L then [] else b.aon
  pcs := if .pcs ∈ L then [] else b.pcs
  str := if .str ∈ L then {} else b.str
  pool := if .pool ∈ L then {} else b.pool
  chans := if .chans ∈ L then {} else b.chans
  ext := if .ext ∈ L then {} else b.ext
  coh := if .coh ∈ L then {} else b.coh
  fab := if .fab ∈ L then {} else b.fab
  traf := if .traf ∈ L then {} else b.traf
  work := if .work ∈ L then {} else b.work
  rings := if .rings ∈ L then {} else b.rings
  pair := if .pair ∈ L then {} else b.pair
  hub := if .hub ∈ L then {} else b.hub
  mgmt := if .mgmt ∈ L then {} else b.mgmt
  sec := if .sec ∈ L then {} else b.sec
  pwr := if .pwr ∈ L then {} else b.pwr

theorem ite_eq_ite_iff_or {α : Type} (p : Prop) [Decidable p] (d a b : α) :
    (if p then d else a) = (if p then d else b) ↔ p ∨ a = b := by
  by_cases hp : p <;> simp [hp]

theorem rest_eq_iff (L : List Region) (x y : Blk) : rest L y = rest L x ↔ OnlyBlk L x y := by
  simp only [rest, Blk.mk.injEq, onlyBlk_iff, ite_eq_ite_iff_or]

theorem onlyBlk_of_rest {L : List Region} {x y : Blk} (h : rest L y = rest L x) : OnlyBlk L x y := (rest_eq_iff L x y).mp h

theorem rest_of_onlyBlk {L : List Region} {x y : Blk} (h : OnlyBlk L x y) : rest L y = rest L x := (rest_eq_iff L x y).mpr h

theorem rest_foldl {α : Type} {L : List Region} {f : Blk → α → Blk} (h : ∀ b a, rest L (f b a) = rest L b) (as : List α)
    (b : Blk) : rest L (as.foldl f b) = rest L b :=
  rest_of_onlyBlk (onlyBlk_foldl f (fun b a => onlyBlk_of_rest (h b a)) as b)

end Sys2Proof.Proofs
end

/-! ## What the coherence protocol leaves of the state of extents, agents and the pair -/
section
namespace Sys2Proof.Proofs

open Sys2Proof.Machine

/-- A part of the state of extents and leases that a change of an extent's MOD_COUNT leaves as it is: the coherence protocol changes
nothing else of this state. -/
structure ModProj {γ : Type} (P : ExtSt → γ) : Prop where
  eq : ∀ (e : ExtSt) (i : Nat) (m : DWord), P { e with exts := mput e.exts i { (mget e.exts i).getD {} with modCount := m } } = P e

/-- A part that speaks neither of the runtime state of an extent nor of the commands that wait for a revocation. -/
structure ExtProj {γ : Type} (P : ExtSt → γ) : Prop where
  exts : ∀ (e : ExtSt) (x : Map ExtRt), P { e with exts := x } = P e
  cmds : ∀ (e : ExtSt) (c : List (CmdId × Nat)), P { e with revCmds := c } = P e

theorem ExtProj.mod {γ : Type} {P : ExtSt → γ} (hP : ExtProj P) : ModProj P := ⟨fun e _ _ => hP.exts e _⟩

theorem extProj_revPend : ExtProj (fun e => e.revPend) := ⟨fun _ _ => rfl, fun _ _ => rfl⟩

theorem extProj_expPend : ExtProj (fun e => e.expPend) := ⟨fun _ _ => rfl, fun _ _ => rfl⟩

theorem extProj_dead : ExtProj (fun e => e.dead) := ⟨fun _ _ => rfl, fun _ _ => rfl⟩

theorem extProj_leases : ExtProj (fun e => e.leases) := ⟨fun _ _ => rfl, fun _ _ => rfl⟩

/-- The runtime state of an extent but its MOD_COUNT. -/
def extShown (i : Nat) (e : ExtSt) : ExtRt := { (mget e.exts i).getD {} with modCount := 0 }

theorem modProj_extShown (i : Nat) : ModProj (extShown i) :=
  ⟨fun e j m => by
    by_cases h : i = j
    · subst h
      simp [extShown]
    · simp [extShown, mget_mput_ne _ _ _ _ h]⟩

/-- A part of the pair's state that no transaction and no restored checkpoint changes: it speaks neither of what has been written and
copied nor of the pins. -/
structure PairProj {γ : Type} (P : Pair → γ) : Prop where
  eq : ∀ (p : Pair) poisons heard pins ckptSeq eseq sweep,
    P { p with poisons := poisons, heard := heard, pins := pins, ckptSeq := ckptSeq, eseq := eseq, sweep := sweep } = P p

/-- A part of the home agents' state that no transaction changes: it speaks of the agents registered, suspended and walked for. -/
structure AgentProj {γ : Type} (P : Coh → γ) : Prop where
  eq : ∀ (c : Coh) txns queue jobs landed dir stamp timeouts rat setLost nextTxn nextSnp nextJob serving,
    P { c with txns := txns, queue := queue, jobs := jobs, landed := landed, dir := dir, stamp := stamp, timeouts := timeouts, rat := rat,
               setLost := setLost, nextTxn := nextTxn, nextSnp := nextSnp, nextJob := nextJob, serving := serving } = P c

end Sys2Proof.Proofs
end

/-! ## What each operation leaves alone

One lemma per operation of the blocks that later proofs use: with the parts that it can write emptied, the block
after it is the block before it. -/
section
namespace Sys2Proof.Proofs

open Sys2Proof.Machine

variable {L : List Region}

theorem rest_with_regs (h : .regs ∈ L) (b : Blk) (x : Tab Word) : rest L { b with regs := x } = rest L b := by
  simp [rest, h]

theorem rest_with_dead (h : .dead ∈ L) (b : Blk) (x : Bool) : rest L { b with dead := x } = rest L b := by
  simp [rest, h]

theorem rest_with_pins (h : .pins ∈ L) (b : Blk) (x : Pins) : rest L { b with pins := x } = rest L b := by
  simp [rest, h]

theorem rest_with_tb (h : .tb ∈ L) (b : Blk) (x : Nat) : rest L { b with tb := x } = rest L b := by
  simp [rest, h]

theorem rest_with_frozen (h : .frozen ∈ L) (b : Blk) (x : Bool) : rest L { b with frozen := x } = rest L b := by
  simp [rest, h]

theorem rest_with_fresh (h : .fresh ∈ L) (b : Blk) (x : Nat) : rest L { b with fresh := x } = rest L b := by
  simp [rest, h]

theorem rest_with_aon (h : .aon ∈ L) (b : Blk) (x : Tab Nat) : rest L { b with aon := x } = rest L b := by
  simp [rest, h]

theorem rest_with_pcs (h : .pcs ∈ L) (b : Blk) (x : Tab Pc) : rest L { b with pcs := x } = rest L b := by
  simp [rest, h]

theorem rest_with_str (h : .str ∈ L) (b : Blk) (x : StrSt) : rest L { b with str := x } = rest L b := by
  simp [rest, h]

theorem rest_with_pool (h : .pool ∈ L) (b : Blk) (x : Pool) : rest L { b with pool := x } = rest L b := by
  simp [rest, h]

theorem rest_with_chans (h : .chans ∈ L) (b : Blk) (x : Chans) : rest L { b with chans := x } = rest L b := by
  simp [rest, h]

theorem rest_with_ext (h : .ext ∈ L) (b : Blk) (x : ExtSt) : rest L { b with ext := x } = rest L b := by
  simp [rest, h]

theorem rest_with_coh (h : .coh ∈ L) (b : Blk) (x : Coh) : rest L { b with coh := x } = rest L b := by
  simp [rest, h]

theorem rest_with_fab (h : .fab ∈ L) (b : Blk) (x : Fab) : rest L { b with fab := x } = rest L b := by
  simp [rest, h]

theorem rest_with_traf (h : .traf ∈ L) (b : Blk) (x : Traf) : rest L { b with traf := x } = rest L b := by
  simp [rest, h]

theorem rest_with_work (h : .work ∈ L) (b : Blk) (x : Work) : rest L { b with work := x } = rest L b := by
  simp [rest, h]

theorem rest_with_rings (h : .rings ∈ L) (b : Blk) (x : Rings) : rest L { b with rings := x } = rest L b := by
  simp [rest, h]

theorem rest_with_pair (h : .pair ∈ L) (b : Blk) (x : Pair) : rest L { b with pair := x } = rest L b := by
  simp [rest, h]

theorem rest_with_hub (h : .hub ∈ L) (b : Blk) (x : Hub) : rest L { b with hub := x } = rest L b := by
  simp [rest, h]

theorem rest_with_mgmt (h : .mgmt ∈ L) (b : Blk) (x : Mgmt) : rest L { b with mgmt := x } = rest L b := by
  simp [rest, h]

theorem rest_with_sec (h : .sec ∈ L) (b : Blk) (x : Sec) : rest L { b with sec := x } = rest L b := by
  simp [rest, h]

theorem rest_with_pwr (h : .pwr ∈ L) (b : Blk) (x : Pwr) : rest L { b with pwr := x } = rest L b := by
  simp [rest, h]

theorem rest_of_quiet (h0 : .regs ∈ L) (h1 : .aon ∈ L) (h2 : .pcs ∈ L) (h3 : .pool ∈ L) (h4 : .chans ∈ L) (h5 : .ext ∈ L)
    (h6 : .rings ∈ L) {x y : Blk} (h : Quiet x y) : rest L y = rest L x :=
  rest_of_onlyBlk (onlyBlk_mono (by simp [quietRegions, *]) (onlyBlk_of_quiet h))

theorem rest_foldl_fst {α β : Type} {f : Blk × β → α → Blk × β} (h : ∀ x a, rest L (f x a).1 = rest L x.1) (as : List α)
    (x : Blk × β) : rest L (as.foldl f x).1 = rest L x.1 := by
  induction as generalizing x with
  | nil => rfl
  | cons a t ih => rw [List.foldl_cons, ih, h]

theorem rest_foldl_snd {α β : Type} {f : β × Blk → α → β × Blk} (h : ∀ x a, rest L (f x a).2 = rest L x.2) (as : List α)
    (x : β × Blk) : rest L (as.foldl f x).2 = rest L x.2 := by
  induction as generalizing x with
  | nil => rfl
  | cons a t ih => rw [List.foldl_cons, ih, h]

theorem rest_setReg (h0 : .regs ∈ L) (b : Blk) (off : Nat) (v : Word) :
    rest L (b.setReg off v) = rest L b := by
  simp [Blk.setReg, rest_with_regs, *]

theorem rest_flag (h0 : .regs ∈ L) (b : Blk) (off i : Nat) :
    rest L (b.flag off i) = rest L b := by
  simp [Blk.flag, rest_setReg, *]

theorem rest_count (h0 : .regs ∈ L) (b : Blk) (off n : Nat) :
    rest L (b.count off n) = rest L b := by
  simp [Blk.count, rest_setReg, *]

theorem rest_incr (h0 : .regs ∈ L) (b : Blk) (off : Nat) :
    rest L (b.incr off) = rest L b := by
  simp [Blk.incr, rest_count, *]

theorem rest_aonAdd (h0 : .aon ∈ L) (b : Blk) (i n : Nat) :
    rest L (b.aonAdd i n) = rest L b := by
  simp [Blk.aonAdd, rest_with_aon, *]

theorem rest_pcEvent (h0 : .pcs ∈ L) (b : Blk) (unit i code : Nat) (part : Option Nat) (n : Nat) :
    rest L (b.pcEvent unit i code part n) = rest L b := by
  unfold Blk.pcEvent
  dsimp only
  repeat' split
  all_goals simp [rest_with_pcs, *]

theorem rest_event (h0 : .pcs ∈ L) (b : Blk) (unit code : Nat) (part : Option Nat) (n : Nat) :
    rest L (b.event unit code part n) = rest L b := by
  simp [Blk.event, rest_foldl, rest_pcEvent, *]

theorem rest_draw (h0 : .fresh ∈ L) (b : Blk) :
    rest L (b.draw).2 = rest L b := by
  simp [Blk.draw, rest_with_fresh, *]

theorem rest_modHusk (h0 : .chans ∈ L) (b : Blk) (c : Nat) (f : HuskChan → HuskChan) :
    rest L (b.modHusk c f) = rest L b := by
  simp [Blk.modHusk, rest_with_chans, *]

theorem rest_modGrain (h0 : .chans ∈ L) (b : Blk) (c : Nat) (f : GrainChan → GrainChan) :
    rest L (b.modGrain c f) = rest L b := by
  simp [Blk.modGrain, rest_with_chans, *]

theorem rest_modLive (h0 : .str ∈ L) (b : Blk) (done inA inB : Commit → Bool) (f : Struct → Struct) :
    rest L (b.modLive done inA inB f) = rest L b := by
  simp [Blk.modLive, rest_with_str, *]

theorem rest_modStruct (h0 : .str ∈ L) (b : Blk) (f : Struct → Struct) :
    rest L (b.modStruct f) = rest L b := by
  simp [Blk.modStruct, rest_with_str, *]

theorem rest_modExt (h0 : .ext ∈ L) (b : Blk) (i : Nat) (f : ExtRt → ExtRt) :
    rest L (b.modExt i f) = rest L b := by
  simp [Blk.modExt, rest_with_ext, *]

theorem rest_putCopy (h0 : .pool ∈ L) (b : Blk) (c : Copy) (l : Nat) (bs : Bytes) (m : LineMeta) :
    rest L (b.putCopy c l bs m) = rest L b := by
  unfold Blk.putCopy
  split <;> simp [rest_with_pool, *]

theorem rest_flipCopy (h0 : .pool ∈ L) (b : Blk) (c : Copy) (l : Nat) (p : Bytes) :
    rest L (b.flipCopy c l p) = rest L b := by
  unfold Blk.flipCopy
  split <;> simp [rest_putCopy, *]

theorem rest_setDelta (h0 : .pool ∈ L) (b : Blk) (c line : Nat) (d : Bytes) :
    rest L (b.setDelta c line d) = rest L b := by
  simp [Blk.setDelta, rest_with_pool, *]

theorem rest_flipData (h0 : .pool ∈ L) (b : Blk) (c line : Nat) (l : Nat) (p : Bytes) :
    rest L (b.flipData c line l p) = rest L b := by
  simp [Blk.flipData, rest_foldl, rest_flipCopy, rest_setDelta, *]

theorem rest_settleRow (h0 : .pool ∈ L) (b : Blk) (c line : Nat) (ks : List Nat) :
    rest L (b.settleRow c line ks) = rest L b := by
  unfold Blk.settleRow
  dsimp only
  repeat' split
  all_goals simp [rest_foldl, rest_foldl_fst, rest_foldl_snd, apply_ite (rest L), rest_flipCopy, rest_setDelta,
      rest_flipData, *]

theorem rest_freshChecks (h0 : .pool ∈ L) (b : Blk) (l : Nat) :
    rest L (b.freshChecks l) = rest L b := by
  unfold Blk.freshChecks
  dsimp only
  repeat' split
  all_goals simp [rest_with_pool, *]

theorem rest_revive (h0 : .pool ∈ L) (b : Blk) (l : Nat) :
    rest L (b.revive l) = rest L b := by
  unfold Blk.revive
  split <;> simp [rest_with_pool, *]

theorem rest_putHusk (h0 : .pool ∈ L) (b : Blk) (l : Nat) (bs : Bytes) (m : LineMeta) :
    rest L (b.putHusk l bs m) = rest L b := by
  unfold Blk.putHusk
  dsimp only
  repeat' split
  all_goals simp [rest_putCopy, rest_freshChecks, rest_revive, *]

theorem rest_huskOp (h0 : .aon ∈ L) (h1 : .pcs ∈ L) (h2 : .pool ∈ L) (h3 : .chans ∈ L) (b : Blk) (c code part : Nat) :
    rest L (b.huskOp c code part) = rest L b := by
  simp [Blk.huskOp, rest_with_pool, rest_aonAdd, rest_event, rest_modHusk, *]

theorem rest_huskOps (h0 : .aon ∈ L) (h1 : .pcs ∈ L) (h2 : .pool ∈ L) (h3 : .chans ∈ L) (b : Blk) (code part : Nat)
    (cs : List Nat) :
    rest L (b.huskOps code part cs) = rest L b := by
  simp [Blk.huskOps, rest_foldl, rest_huskOp, *]

theorem rest_countHusk (h0 : .aon ∈ L) (h1 : .pcs ∈ L) (h2 : .pool ∈ L) (h3 : .chans ∈ L) (b : Blk) (l code part :
    Nat) :
    rest L (b.countHusk l code part) = rest L b := by
  simp [Blk.countHusk, rest_huskOps, *]

theorem rest_countGrain (h0 : .aon ∈ L) (h1 : .pcs ∈ L) (b : Blk) (l code part : Nat) :
    rest L (b.countGrain l code part) = rest L b := by
  simp [Blk.countGrain, rest_aonAdd, rest_event, *]

theorem rest_writeLine (h0 : .aon ∈ L) (h1 : .pcs ∈ L) (h2 : .pool ∈ L) (h3 : .chans ∈ L) (b : Blk) (l : Nat) (bs :
    Bytes) (poison : Bool) (wb : Bool) :
    rest L (b.writeLine l bs poison wb) = rest L b := by
  unfold Blk.writeLine
  dsimp only
  repeat' split
  all_goals simp [rest_putCopy, rest_putHusk, rest_countHusk, rest_countGrain, *]

theorem rest_writeMasked (h0 : .aon ∈ L) (h1 : .pcs ∈ L) (h2 : .pool ∈ L) (h3 : .chans ∈ L) (b : Blk) (l : Nat) (bs :
    Bytes) (mask : BitVec 128) (poison : Bool) (wb : Bool) :
    rest L (b.writeMasked l bs mask poison wb) = rest L b := by
  simp [Blk.writeMasked, rest_writeLine, *]

theorem rest_zeroGrain (h0 : .aon ∈ L) (h1 : .pcs ∈ L) (h2 : .pool ∈ L) (b : Blk) (l : Nat) :
    rest L (b.zeroGrain l) = rest L b := by
  simp [Blk.zeroGrain, rest_putCopy, rest_countGrain, *]

theorem rest_bumpMod (h0 : .ext ∈ L) (b : Blk) (l n : Nat) :
    rest L (b.bumpMod l n) = rest L b := by
  unfold Blk.bumpMod
  split <;> simp [rest_modExt, *]

theorem rest_countAccept (h0 : .aon ∈ L) (h1 : .pcs ∈ L) (b : Blk) (q part : Nat) :
    rest L (b.countAccept q part) = rest L b := by
  simp [Blk.countAccept, rest_aonAdd, rest_event, *]

theorem rest_countRefusal (h0 : .regs ∈ L) (h1 : .aon ∈ L) (h2 : .pcs ∈ L) (b : Blk) (q status part : Nat) :
    rest L (b.countRefusal q status part) = rest L b := by
  unfold Blk.countRefusal
  dsimp only
  repeat' split
  all_goals simp [rest_flag, rest_incr, rest_aonAdd, rest_event, *]

theorem rest_unbump (h0 : .ext ∈ L) (b : Blk) (l : Nat) :
    rest L (b.unbump l) = rest L b := by
  unfold Blk.unbump
  split <;> simp [rest_modExt, *]

theorem rest_countMerge (h0 : .aon ∈ L) (h1 : .pcs ∈ L) (h2 : .pool ∈ L) (h3 : .chans ∈ L) (b : Blk) (l : Nat) (mask
    : BitVec 128) :
    rest L (b.countMerge l mask) = rest L b := by
  simp [Blk.countMerge, rest_foldl, rest_foldl_fst, rest_foldl_snd, apply_ite (rest L), rest_countHusk,
      rest_countGrain, *]

theorem rest_hubLine (h0 : .regs ∈ L) (h1 : .aon ∈ L) (h2 : .pcs ∈ L) (h3 : .pool ∈ L) (h4 : .chans ∈ L) (h5 : .ext ∈
    L) (h6 : .rings ∈ L) (b : Blk) (p : Nat × Bytes × BitVec 128) :
    rest L (b.hubLine p) = rest L b := by
  exact rest_of_quiet h0 h1 h2 h3 h4 h5 h6 (quiet_hubLine ..)

theorem rest_hubWrite (h0 : .regs ∈ L) (h1 : .aon ∈ L) (h2 : .pcs ∈ L) (h3 : .pool ∈ L) (h4 : .chans ∈ L) (h5 : .ext
    ∈ L) (h6 : .rings ∈ L) (b : Blk) (a : Nat) (bs : Bytes) :
    rest L (b.hubWrite a bs) = rest L b := by
  simp [Blk.hubWrite, rest_foldl, rest_hubLine, *]

theorem rest_ringPut (h0 : .regs ∈ L) (h1 : .aon ∈ L) (h2 : .pcs ∈ L) (h3 : .pool ∈ L) (h4 : .chans ∈ L) (h5 : .ext ∈
    L) (h6 : .rings ∈ L) (b : Blk) (e : ExtEnt) (r : Ring) (bs : Bytes) :
    rest L (b.ringPut e r bs).2.1 = rest L b := by
  exact rest_of_quiet h0 h1 h2 h3 h4 h5 h6 (quiet_ringPut ..)

theorem rest_logLose (h0 : .regs ∈ L) (h1 : .aon ∈ L) (h2 : .rings ∈ L) (b : Blk) :
    rest L (b.logLose) = rest L b := by
  simp [Blk.logLose, rest_with_rings, rest_flag, rest_aonAdd, *]

theorem rest_logRoom (h0 : .rings ∈ L) (b : Blk) :
    rest L (b.logRoom) = rest L b := by
  unfold Blk.logRoom
  split <;> simp [rest_with_rings, *]

theorem rest_logFlush (h0 : .regs ∈ L) (h1 : .aon ∈ L) (h2 : .pcs ∈ L) (h3 : .pool ∈ L) (h4 : .chans ∈ L) (h5 : .ext
    ∈ L) (h6 : .rings ∈ L) (b : Blk) :
    rest L (b.logFlush) = rest L b := by
  exact rest_of_quiet h0 h1 h2 h3 h4 h5 h6 (quiet_logFlush ..)

theorem rest_log (h0 : .regs ∈ L) (h1 : .aon ∈ L) (h2 : .pcs ∈ L) (h3 : .pool ∈ L) (h4 : .chans ∈ L) (h5 : .ext ∈ L)
    (h6 : .rings ∈ L) (b : Blk) (code unit part a bb : Nat) (flags : Nat) :
    rest L (b.log code unit part a bb flags) = rest L b := by
  exact rest_of_quiet h0 h1 h2 h3 h4 h5 h6 (quiet_log ..)

theorem rest_traceLose (h0 : .regs ∈ L) (h1 : .rings ∈ L) (b : Blk) :
    rest L (b.traceLose) = rest L b := by
  simp [Blk.traceLose, rest_with_rings, rest_flag, rest_incr, *]

theorem rest_traceRoom (h0 : .rings ∈ L) (b : Blk) (e : ExtEnt) :
    rest L (b.traceRoom e) = rest L b := by
  unfold Blk.traceRoom
  split <;> simp [rest_with_rings, *]

theorem rest_trace (h0 : .regs ∈ L) (h1 : .aon ∈ L) (h2 : .pcs ∈ L) (h3 : .pool ∈ L) (h4 : .chans ∈ L) (h5 : .ext ∈
    L) (h6 : .rings ∈ L) (b : Blk) (r : TraceRec) :
    rest L (b.trace r) = rest L b := by
  exact rest_of_quiet h0 h1 h2 h3 h4 h5 h6 (quiet_trace ..)

theorem rest_putTraf (h0 : .traf ∈ L) (b : Blk) (i : Nat) (r : TrafRt) :
    rest L (b.putTraf i r) = rest L b := by
  simp [Blk.putTraf, rest_with_traf, *]

theorem rest_addTraf (h0 : .traf ∈ L) (b : Blk) (e : TrafEnt) :
    rest L (b.addTraf e) = rest L b := by
  unfold Blk.addTraf
  split
  · split <;> simp [rest_putTraf, *]
  · simp [rest_putTraf, *]

theorem rest_evalShaper (h0 : .traf ∈ L) (b : Blk) (eid cls : Nat) :
    rest L (b.evalShaper eid cls) = rest L b := by
  unfold Blk.evalShaper
  split <;> simp [rest_putTraf, *]

theorem rest_chargeShaper (h0 : .traf ∈ L) (b : Blk) (eid cls : Nat) (lens : List Nat) :
    rest L (b.chargeShaper eid cls lens) = rest L b := by
  unfold Blk.chargeShaper
  split <;> simp [rest_putTraf, *]

theorem rest_police (h0 : .regs ∈ L) (h1 : .traf ∈ L) (b : Blk) (part src cls : Nat) (lens : List Nat) (sure : Bool) :
    rest L (b.police part src cls lens sure).2 = rest L b := by
  unfold Blk.police
  dsimp only
  repeat' split
  all_goals simp [rest_flag, rest_putTraf, rest_evalShaper, *]

theorem rest_loadGate (h0 : .traf ∈ L) (b : Blk) (target : Nat) (g : GateList) :
    rest L (b.loadGate target g) = rest L b := by
  simp [Blk.loadGate, rest_with_traf, *]

theorem rest_liveTraf (h0 : .str ∈ L) (b : Blk) (k : Nat) (f : Map TrafEnt → Map TrafEnt) :
    rest L (b.liveTraf k f) = rest L b := by
  simp [Blk.liveTraf, rest_modLive, *]

theorem rest_noRoute (h0 : .regs ∈ L) (b : Blk) (q : Nat) :
    rest L (b.noRoute q) = rest L b := by
  simp [Blk.noRoute, rest_flag, rest_incr, *]

theorem rest_newTrace (h0 : .fab ∈ L) (b : Blk) :
    rest L (b.newTrace).2 = rest L b := by
  unfold Blk.newTrace
  split <;> simp [rest_with_fab, *]

theorem rest_newMsgId (h0 : .fab ∈ L) (b : Blk) (dst : Nat) :
    rest L (b.newMsgId dst).2 = rest L b := by
  simp [Blk.newMsgId, rest_with_fab, *]

theorem rest_send (h0 : .regs ∈ L) (h1 : .fab ∈ L) (b : Blk) (q : Nat) (m : Msg) :
    rest L (b.send q m).2 = rest L b := by
  unfold Blk.send
  dsimp only
  repeat' split
  all_goals simp [rest_with_fab, rest_noRoute, rest_newMsgId, *]

theorem rest_sendOwn (h0 : .regs ∈ L) (h1 : .fab ∈ L) (b : Blk) (q : Nat) (m : Msg) :
    rest L (b.sendOwn q m).2 = rest L b := by
  simp [Blk.sendOwn, rest_newTrace, rest_send, *]

theorem rest_noteLoad (h0 : .fab ∈ L) (b : Blk) (eid v : Nat) :
    rest L (b.noteLoad eid v) = rest L b := by
  simp [Blk.noteLoad, rest_with_fab, *]

theorem rest_traceRx (h0 : .regs ∈ L) (h1 : .aon ∈ L) (h2 : .pcs ∈ L) (h3 : .pool ∈ L) (h4 : .chans ∈ L) (h5 : .ext ∈
    L) (h6 : .rings ∈ L) (b : Blk) (q src ty msgId traceId addr : Nat) :
    rest L (b.traceRx q src ty msgId traceId addr) = rest L b := by
  unfold Blk.traceRx
  split <;> simp [rest_trace, *]

theorem rest_answerCtrl (h0 : .regs ∈ L) (h1 : .fab ∈ L) (b : Blk) (q : Nat) (src msgId traceId ty status : Nat)
    (payload : Bytes) :
    rest L (b.answerCtrl q src msgId traceId ty status payload) = rest L b := by
  unfold Blk.answerCtrl
  dsimp only
  repeat' split
  all_goals simp [rest_send, rest_noteLoad, *]

theorem rest_sendPoliced (h0 : .regs ∈ L) (h1 : .fab ∈ L) (b : Blk) (q src cls part n : Nat) :
    rest L (b.sendPoliced q src cls part n) = rest L b := by
  simp [Blk.sendPoliced, rest_incr, rest_sendOwn, *]

theorem rest_notePoliced (h0 : .regs ∈ L) (h1 : .fab ∈ L) (b : Blk) (q src cls part packets : Nat) :
    rest L (b.notePoliced q src cls part packets) = rest L b := by
  unfold Blk.notePoliced
  dsimp only
  repeat' split
  all_goals simp [rest_with_fab, rest_sendPoliced, *]

theorem rest_loseDevice (h0 : .dead ∈ L) (h1 : .pins ∈ L) (b : Blk) :
    rest L (b.loseDevice) = rest L b := by
  simp [Blk.loseDevice, rest, *]

theorem rest_markVoid (h0 : .pool ∈ L) (h1 : .chans ∈ L) (b : Blk) (c : Nat) :
    rest L (b.markVoid c) = rest L b := by
  unfold Blk.markVoid
  dsimp only
  repeat' split
  all_goals simp [rest_foldl, rest_foldl_fst, rest_foldl_snd, apply_ite (rest L), rest_with_pool, rest_modHusk, *]

theorem rest_loseChannel (h0 : .regs ∈ L) (h1 : .aon ∈ L) (h2 : .pcs ∈ L) (h3 : .pool ∈ L) (h4 : .chans ∈ L) (h5 :
    .ext ∈ L) (h6 : .rings ∈ L) (b : Blk) (c cause : Nat) :
    rest L (b.loseChannel c cause) = rest L b := by
  unfold Blk.loseChannel
  dsimp only
  repeat' split
  all_goals simp [rest_foldl, rest_foldl_fst, rest_foldl_snd, apply_ite (rest L), rest_flag, rest_modHusk,
      rest_settleRow, rest_log, rest_markVoid, *]

theorem rest_failLayer (h0 : .dead ∈ L) (h1 : .pins ∈ L) (h2 : .chans ∈ L) (b : Blk) (layer : Nat) :
    rest L (b.failLayer layer) = rest L b := by
  simp [Blk.failLayer, rest_with_chans, rest_loseDevice, *]

theorem rest_logGrain (h0 : .regs ∈ L) (h1 : .aon ∈ L) (h2 : .pcs ∈ L) (h3 : .pool ∈ L) (h4 : .chans ∈ L) (h5 : .ext
    ∈ L) (h6 : .rings ∈ L) (b : Blk) (code l chan : Nat) (lane : Option Nat) :
    rest L (b.logGrain code l chan lane) = rest L b := by
  simp [Blk.logGrain, rest_log, *]

theorem rest_logHusk (h0 : .regs ∈ L) (h1 : .aon ∈ L) (h2 : .pcs ∈ L) (h3 : .pool ∈ L) (h4 : .chans ∈ L) (h5 : .ext ∈
    L) (h6 : .rings ∈ L) (b : Blk) (code c line : Nat) (lane : Option Nat) :
    rest L (b.logHusk code c line lane) = rest L b := by
  simp [Blk.logHusk, rest_log, *]

theorem rest_huskCorr (h0 : .regs ∈ L) (h1 : .aon ∈ L) (h2 : .pcs ∈ L) (h3 : .pool ∈ L) (h4 : .chans ∈ L) (h5 : .ext
    ∈ L) (h6 : .rings ∈ L) (b : Blk) (c line rank lane : Nat) :
    rest L (b.huskCorr c line rank lane) = rest L b := by
  unfold Blk.huskCorr
  dsimp only
  repeat' split
  all_goals simp [rest_flag, rest_incr, rest_aonAdd, rest_event, rest_modHusk, rest_loseChannel, rest_logHusk, *]

theorem rest_huskUnc (h0 : .regs ∈ L) (h1 : .aon ∈ L) (h2 : .pcs ∈ L) (h3 : .pool ∈ L) (h4 : .chans ∈ L) (h5 : .ext ∈
    L) (h6 : .rings ∈ L) (b : Blk) (c line : Nat) :
    rest L (b.huskUnc c line) = rest L b := by
  unfold Blk.huskUnc
  dsimp only
  repeat' split
  all_goals simp [rest_flag, rest_incr, rest_aonAdd, rest_modHusk, rest_loseChannel, *]

theorem rest_mirrorSend (h0 : .regs ∈ L) (h1 : .fab ∈ L) (b : Blk) (l : Nat) :
    rest L (b.mirrorSend l).2 = rest L b := by
  simp [Blk.mirrorSend, rest_sendOwn, *]

theorem rest_mirrorPoison (h0 : .regs ∈ L) (h1 : .fab ∈ L) (h2 : .pair ∈ L) (b : Blk) (l : Nat) :
    rest L (b.mirrorPoison l) = rest L b := by
  unfold Blk.mirrorPoison
  split <;> simp [rest_with_pair, rest_mirrorSend, *]

theorem rest_poisonLine (h0 : .regs ∈ L) (h1 : .aon ∈ L) (h2 : .pcs ∈ L) (h3 : .pool ∈ L) (h4 : .chans ∈ L) (h5 :
    .ext ∈ L) (h6 : .fab ∈ L) (h7 : .rings ∈ L) (h8 : .pair ∈ L) (b : Blk) (l : Nat) (part : Nat) :
    rest L (b.poisonLine l part) = rest L b := by
  unfold Blk.poisonLine
  dsimp only
  repeat' split
  all_goals simp [rest_foldl, rest_foldl_fst, rest_foldl_snd, apply_ite (rest L), rest_flag, rest_putCopy,
      rest_putHusk, rest_countHusk, rest_countGrain, rest_log, rest_mirrorPoison, *]

theorem rest_clearAt (h0 : .pool ∈ L) (b : Blk) (c line : Nat) :
    rest L (b.clearAt c line) = rest L b := by
  unfold Blk.clearAt
  split <;> simp [rest_with_pool, *]

theorem rest_decodeAt (h0 : .regs ∈ L) (h1 : .aon ∈ L) (h2 : .pcs ∈ L) (h3 : .pool ∈ L) (h4 : .chans ∈ L) (h5 : .ext
    ∈ L) (h6 : .rings ∈ L) (b : Blk) (c line rank : Nat) (lanes : List Nat) (part : Nat) :
    rest L (b.decodeAt c line rank lanes part).2 = rest L b := by
  unfold Blk.decodeAt
  split <;> simp [rest_huskOp, rest_huskCorr, rest_huskUnc, rest_clearAt, *]

theorem rest_readStook (h0 : .regs ∈ L) (h1 : .aon ∈ L) (h2 : .pcs ∈ L) (h3 : .pool ∈ L) (h4 : .chans ∈ L) (h5 : .ext
    ∈ L) (h6 : .rings ∈ L) (b : Blk) (c line : Nat) (part : Nat) :
    rest L (b.readStook c line part).1 = rest L b := by
  unfold Blk.readStook
  refine rest_foldl_fst (fun x k => ?_) _ _
  split
  · rfl
  · simp [rest_decodeAt, rest_huskOp, *]

theorem rest_copyOver (h0 : .pool ∈ L) (b : Blk) (c line : Nat) :
    rest L (b.copyOver c line) = rest L b := by
  unfold Blk.copyOver
  split <;> simp [rest_putCopy, *]

theorem rest_settleUnc (h0 : .regs ∈ L) (h1 : .aon ∈ L) (h2 : .pcs ∈ L) (h3 : .pool ∈ L) (h4 : .chans ∈ L) (h5 : .ext
    ∈ L) (h6 : .fab ∈ L) (h7 : .rings ∈ L) (h8 : .pair ∈ L) (b : Blk) (c line : Nat) (ks : List Nat) (part : Nat) :
    rest L (b.settleUnc c line ks part) = rest L b := by
  unfold Blk.settleUnc
  dsimp only
  repeat' split
  all_goals simp [rest_foldl, rest_foldl_fst, rest_foldl_snd, apply_ite (rest L), rest_settleRow, rest_huskOp,
      rest_logHusk, rest_poisonLine, rest_clearAt, rest_copyOver, *]

theorem rest_readAt (h0 : .regs ∈ L) (h1 : .aon ∈ L) (h2 : .pcs ∈ L) (h3 : .pool ∈ L) (h4 : .chans ∈ L) (h5 : .ext ∈
    L) (h6 : .fab ∈ L) (h7 : .rings ∈ L) (h8 : .pair ∈ L) (b : Blk) (c line rank : Nat) (lanes : List Nat) (part :
    Nat) :
    rest L (b.readAt c line rank lanes part).2 = rest L b := by
  unfold Blk.readAt
  dsimp only
  repeat' split
  all_goals simp [rest_decodeAt, rest_readStook, rest_settleUnc, *]

theorem rest_readHusk (h0 : .regs ∈ L) (h1 : .aon ∈ L) (h2 : .pcs ∈ L) (h3 : .pool ∈ L) (h4 : .chans ∈ L) (h5 : .ext
    ∈ L) (h6 : .fab ∈ L) (h7 : .rings ∈ L) (h8 : .pair ∈ L) (b : Blk) (l : Nat) (part : Nat) :
    rest L (b.readHusk l part).2 = rest L b := by
  unfold Blk.readHusk
  dsimp only
  repeat' split
  all_goals simp [rest_readStook, rest_settleUnc, rest_readAt, *]

theorem rest_fetchHusk (h0 : .regs ∈ L) (h1 : .aon ∈ L) (h2 : .pcs ∈ L) (h3 : .pool ∈ L) (h4 : .chans ∈ L) (h5 : .ext
    ∈ L) (h6 : .fab ∈ L) (h7 : .rings ∈ L) (h8 : .pair ∈ L) (b : Blk) (l : Nat) (part : Nat) :
    rest L (b.fetchHusk l part).1 = rest L b := by
  simp [Blk.fetchHusk, rest_countHusk, rest_readHusk, *]

theorem rest_grainFix (h0 : .regs ∈ L) (h1 : .aon ∈ L) (h2 : .chans ∈ L) (b : Blk) (ch line : Nat) :
    rest L (b.grainFix ch line) = rest L b := by
  simp [Blk.grainFix, rest_flag, rest_incr, rest_aonAdd, rest_modGrain, *]

theorem rest_grainCorr (h0 : .regs ∈ L) (h1 : .aon ∈ L) (h2 : .pcs ∈ L) (h3 : .pool ∈ L) (h4 : .chans ∈ L) (h5 : .ext
    ∈ L) (h6 : .rings ∈ L) (b : Blk) (ch line l lane : Nat) :
    rest L (b.grainCorr ch line l lane) = rest L b := by
  simp [Blk.grainCorr, rest_logGrain, rest_grainFix, *]

theorem rest_grainUnc (h0 : .regs ∈ L) (h1 : .dead ∈ L) (h2 : .pins ∈ L) (h3 : .aon ∈ L) (h4 : .chans ∈ L) (b : Blk)
    (ch line : Nat) :
    rest L (b.grainUnc ch line) = rest L b := by
  unfold Blk.grainUnc
  dsimp only
  repeat' split
  all_goals simp only [rest_foldl, rest_flag, rest_incr, rest_aonAdd, rest_modGrain, rest_failLayer, *]

theorem rest_grainLost (h0 : .regs ∈ L) (h1 : .aon ∈ L) (h2 : .pcs ∈ L) (h3 : .pool ∈ L) (h4 : .chans ∈ L) (h5 : .ext
    ∈ L) (h6 : .fab ∈ L) (h7 : .rings ∈ L) (h8 : .pair ∈ L) (b : Blk) (ch l part : Nat) :
    rest L (b.grainLost ch l part) = rest L b := by
  simp [Blk.grainLost, rest_logGrain, rest_poisonLine, *]

theorem rest_readGrainCopy (h0 : .regs ∈ L) (h1 : .dead ∈ L) (h2 : .pins ∈ L) (h3 : .aon ∈ L) (h4 : .pcs ∈ L) (h5 :
    .pool ∈ L) (h6 : .chans ∈ L) (h7 : .ext ∈ L) (h8 : .fab ∈ L) (h9 : .rings ∈ L) (h10 : .pair ∈ L) (b : Blk) (l :
    Nat) (lanes : List Nat) (part : Nat) :
    rest L (b.readGrainCopy l lanes part).2 = rest L b := by
  unfold Blk.readGrainCopy
  dsimp only
  repeat' split
  all_goals simp only [rest_foldl, rest_flag, rest_incr, rest_putCopy, rest_countGrain, rest_logGrain,
      rest_fetchHusk, rest_grainCorr, rest_grainUnc, rest_grainLost, *]

theorem rest_noteSlot (h0 : .regs ∈ L) (h1 : .aon ∈ L) (h2 : .pcs ∈ L) (h3 : .pool ∈ L) (h4 : .chans ∈ L) (h5 : .ext
    ∈ L) (h6 : .rings ∈ L) (b : Blk) (l : Nat) :
    rest L (b.noteSlot l) = rest L b := by
  unfold Blk.noteSlot
  dsimp only
  repeat' split
  all_goals simp only [rest_foldl, rest_flag, rest_incr, rest_log, *]

theorem rest_fetch (h0 : .regs ∈ L) (h1 : .dead ∈ L) (h2 : .pins ∈ L) (h3 : .aon ∈ L) (h4 : .pcs ∈ L) (h5 : .pool ∈
    L) (h6 : .chans ∈ L) (h7 : .ext ∈ L) (h8 : .fab ∈ L) (h9 : .rings ∈ L) (h10 : .pair ∈ L) (b : Blk) (l : Nat) :
    rest L (b.fetch l).1 = rest L b := by
  unfold Blk.fetch
  dsimp only
  repeat' split
  all_goals simp only [rest_foldl, rest_countGrain, rest_fetchHusk, rest_readGrainCopy, rest_noteSlot, *]

theorem rest_modWin (h0 : .hub ∈ L) (b : Blk) (f : Nat) (g : Win → Win) :
    rest L (b.modWin f g) = rest L b := by
  simp [Blk.modWin, rest_with_hub, *]

theorem rest_pcie (h0 : .hub ∈ L) (b : Blk) (o : PcieOut) :
    rest L (b.pcie o) = rest L b := by
  unfold Blk.pcie
  dsimp only
  repeat' split
  all_goals simp only [rest_foldl, rest_with_hub, *]

theorem rest_aerSet (h0 : .hub ∈ L) (b : Blk) (f i : Nat) :
    rest L (b.aerSet f i) = rest L b := by
  simp [Blk.aerSet, rest_with_hub, *]

theorem rest_ideDrop (h0 : .regs ∈ L) (b : Blk) :
    rest L (b.ideDrop) = rest L b := by
  simp [Blk.ideDrop, rest_flag, rest_incr, *]

theorem rest_ideDropUr (h0 : .regs ∈ L) (h1 : .hub ∈ L) (b : Blk) (f : Nat) (ur : PcieOut) :
    rest L (b.ideDropUr f ur) = rest L b := by
  simp [Blk.ideDropUr, rest_pcie, rest_aerSet, rest_ideDrop, *]

theorem rest_putPiece (h0 : .hub ∈ L) (b : Blk) (f pasid : Nat) (ep : Bool) (p : Nat × Nat × Bool) (bs : Bytes) :
    rest L (b.putPiece f pasid ep p bs) = rest L b := by
  simp [Blk.putPiece, rest_foldl, rest_pcie, *]

theorem rest_hostPut (h0 : .hub ∈ L) (b : Blk) (f pasid a : Nat) (bs : Bytes) :
    rest L (b.hostPut f pasid a bs) = rest L b := by
  simp [Blk.hostPut, rest_foldl, rest_putPiece, *]

theorem rest_endRead (h0 : .hub ∈ L) (b : Blk) (x : Xfer) :
    rest L (b.endRead x) = rest L b := by
  simp [Blk.endRead, rest_with_hub, *]

theorem rest_askHost (h0 : .hub ∈ L) (b : Blk) (x : Xfer) (engine f pasid : Nat) (spans : List (Nat × Nat)) (ts :
    List (Nat × Nat × Bool)) (host : HostResult) :
    rest L (b.askHost x engine f pasid spans ts host).2 = rest L b := by
  unfold Blk.askHost
  dsimp only
  repeat' split
  all_goals simp [rest_foldl, rest_foldl_fst, rest_foldl_snd, apply_ite (rest L), rest_with_hub, rest_pcie,
      rest_endRead, *]

theorem rest_msix (h0 : .hub ∈ L) (b : Blk) (f : Nat) (vec : Option Nat) :
    rest L (b.msix f vec) = rest L b := by
  unfold Blk.msix
  split
  · rfl
  · split <;> simp [rest_pcie, *]

theorem rest_mirrorOut (h0 : .hub ∈ L) (b : Blk) (f base off : Nat) (bs : Bytes) :
    rest L (b.mirrorOut f base off bs) = rest L b := by
  unfold Blk.mirrorOut
  split <;> simp [rest_pcie, *]

theorem rest_dropCmd (h0 : .hub ∈ L) (b : Blk) (c : CmdId) :
    rest L (b.dropCmd c) = rest L b := by
  simp [Blk.dropCmd, rest_with_hub, *]

theorem rest_startCmd (h0 : .hub ∈ L) (b : Blk) (c : CmdId) :
    rest L (b.startCmd c) = rest L b := by
  simp [Blk.startCmd, rest_with_hub, *]

theorem rest_answerRec (h0 : .regs ∈ L) (h1 : .hub ∈ L) (b : Blk) (r : CmdRec) (status : Nat) (res : Bytes) :
    rest L (b.answerRec r status res) = rest L b := by
  unfold Blk.answerRec
  dsimp only
  repeat' split
  all_goals simp only [rest_foldl, rest_incr, rest_modWin, rest_msix, rest_mirrorOut, *]

theorem rest_answerCmd (h0 : .regs ∈ L) (h1 : .hub ∈ L) (b : Blk) (c : CmdId) (status : Nat) (res : Bytes) :
    rest L (b.answerCmd c status res) = rest L b := by
  unfold Blk.answerCmd
  split
  · rfl
  · split <;> simp [rest_dropCmd, rest_answerRec, *]

theorem rest_eventDeliver (h0 : .regs ∈ L) (h1 : .hub ∈ L) (b : Blk) (part : Nat) (body : Bytes) :
    rest L (b.eventDeliver part body) = rest L b := by
  unfold Blk.eventDeliver
  dsimp only
  repeat' split
  all_goals simp only [rest_foldl, rest_flag, rest_incr, rest_modWin, rest_msix, rest_mirrorOut, *]

theorem rest_aptRefuse (h0 : .regs ∈ L) (b : Blk) (write : Bool) (line status : Nat) :
    rest L (b.aptRefuse write line status) = rest L b := by
  simp [Blk.aptRefuse, rest_setReg, rest_flag, rest_incr, *]

theorem rest_aptComplete (h0 : .regs ∈ L) (h1 : .hub ∈ L) (b : Blk) (r : AptRead) (x0 : List (Nat × Nat × Nat)) :
    rest L (b.aptComplete r x0).1 = rest L b := by
  induction x0 generalizing b with
  | nil => rfl
  | cons x t ih =>
    obtain ⟨l, lo, hi⟩ := x
    simp only [Blk.aptComplete]
    split
    · rfl
    · split
      · simp [rest_pcie, rest_aerSet, *]
      · rw [ih]
        split <;> simp [rest_pcie, rest_flag, *]

theorem rest_aptLand (h0 : .regs ∈ L) (h1 : .hub ∈ L) (b : Blk) (tag l status : Nat) (bs : Bytes) (poison : Bool) :
    rest L (b.aptLand tag l status bs poison) = rest L b := by
  unfold Blk.aptLand
  dsimp only
  repeat' split
  all_goals simp only [rest_foldl, rest_with_hub, rest_aptRefuse, rest_aptComplete, *]

theorem rest_poisonDead (h0 : .regs ∈ L) (h1 : .aon ∈ L) (h2 : .pcs ∈ L) (h3 : .pool ∈ L) (h4 : .chans ∈ L) (h5 :
    .ext ∈ L) (h6 : .coh ∈ L) (h7 : .fab ∈ L) (h8 : .rings ∈ L) (h9 : .pair ∈ L) (b : Blk) (l owner : Nat) :
    rest L (b.poisonDead l owner) = rest L b := by
  simp [Blk.poisonDead, rest_with_coh, rest_flag, rest_incr, rest_log, rest_poisonLine, *]

theorem rest_dropHolder (h0 : .coh ∈ L) (b : Blk) (l eid : Nat) :
    rest L (b.dropHolder l eid) = rest L b := by
  unfold Blk.dropHolder
  dsimp only
  repeat' split
  all_goals simp only [rest_foldl, rest_with_coh, *]

theorem rest_walkEntry (h0 : .regs ∈ L) (h1 : .aon ∈ L) (h2 : .pcs ∈ L) (h3 : .pool ∈ L) (h4 : .chans ∈ L) (h5 : .ext
    ∈ L) (h6 : .coh ∈ L) (h7 : .fab ∈ L) (h8 : .rings ∈ L) (h9 : .pair ∈ L) (b : Blk) (eid l : Nat) :
    rest L (b.walkEntry eid l) = rest L b := by
  unfold Blk.walkEntry
  split <;> simp [rest_poisonDead, rest_dropHolder, *]

theorem rest_touch (h0 : .coh ∈ L) (b : Blk) (l : Nat) :
    rest L (b.touch l) = rest L b := by
  simp [Blk.touch, rest_with_coh, *]

theorem rest_grantX (h0 : .coh ∈ L) (b : Blk) (l part eid : Nat) :
    rest L (b.grantX l part eid) = rest L b := by
  unfold Blk.grantX
  dsimp only
  repeat' split
  all_goals simp only [rest_foldl, rest_with_coh, *]

theorem rest_addSharer (h0 : .coh ∈ L) (b : Blk) (l part eid : Nat) :
    rest L (b.addSharer l part eid) = rest L b := by
  unfold Blk.addSharer
  dsimp only
  repeat' split
  all_goals simp only [rest_foldl, rest_with_coh, *]

theorem rest_dirLookup (h0 : .regs ∈ L) (h1 : .fresh ∈ L) (h2 : .aon ∈ L) (h3 : .pcs ∈ L) (b : Blk) (l : Nat) :
    rest L (b.dirLookup l) = rest L b := by
  unfold Blk.dirLookup
  dsimp only
  repeat' split
  all_goals simp only [rest_foldl, rest_incr, rest_aonAdd, rest_event, rest_draw, *]

theorem rest_sendSnoop (h0 : .regs ∈ L) (h1 : .pcs ∈ L) (h2 : .fab ∈ L) (b : Blk) (l eid snpId part : Nat) (k :
    SnpKind) :
    rest L (b.sendSnoop l eid snpId part k) = rest L b := by
  simp [Blk.sendSnoop, rest_event, rest_sendOwn, *]

theorem rest_snoopAll (h0 : .regs ∈ L) (h1 : .pcs ∈ L) (h2 : .coh ∈ L) (h3 : .fab ∈ L) (b : Blk) (t : Txn) (k :
    SnpKind) (x0 : List Nat) :
    rest L (b.snoopAll t k x0).1 = rest L b := by
  induction x0 generalizing b with
  | nil => rfl
  | cons a as ih => simp [Blk.snoopAll, ih, rest_sendSnoop, rest_with_coh, *]

theorem rest_serve (h0 : .coh ∈ L) (b : Blk) (t : Txn) (f : Blk → Blk) (hgo : ∀  x, rest L (f  x) = rest L x) :
    rest L (b.serve t f) = rest L b := by
  simp [Blk.serve, rest_with_coh, *]

theorem rest_putTxn (h0 : .coh ∈ L) (b : Blk) (t : Txn) :
    rest L (b.putTxn t) = rest L b := by
  simp [Blk.putTxn, rest_with_coh, *]

theorem rest_endTxn (h0 : .coh ∈ L) (b : Blk) (t : Txn) :
    rest L (b.endTxn t) = rest L b := by
  simp [Blk.endTxn, rest_with_coh, *]

theorem rest_respond (h0 : .regs ∈ L) (h1 : .fab ∈ L) (b : Blk) (q ty src msgId traceId addr status : Nat) (far
    replay : Bool) (payload : Bytes) (poison : Bool) (cls part : Nat) :
    rest L (b.respond q ty src msgId traceId addr status far replay payload poison cls part).2 = rest L b := by
  simp [Blk.respond, rest_send, rest_noteLoad, *]

theorem rest_refuse (h0 : .regs ∈ L) (h1 : .aon ∈ L) (h2 : .pcs ∈ L) (h3 : .fab ∈ L) (b : Blk) (q src msgId traceId
    addr status cls : Nat) :
    rest L (b.refuse q src msgId traceId addr status cls) = rest L b := by
  simp [Blk.refuse, rest_countRefusal, rest_respond, *]

theorem rest_land (h0 : .regs ∈ L) (h1 : .coh ∈ L) (h2 : .hub ∈ L) (b : Blk) (w : Who) (write : Bool) (l status :
    Nat) (bs : Bytes) (poison : Bool) :
    rest L (b.land w write l status bs poison) = rest L b := by
  unfold Blk.land
  dsimp only
  repeat' split
  all_goals simp only [rest_foldl, rest_with_coh, rest_aptRefuse, rest_aptLand, *]

theorem rest_endJob (h0 : .regs ∈ L) (h1 : .aon ∈ L) (h2 : .pcs ∈ L) (h3 : .ext ∈ L) (h4 : .coh ∈ L) (h5 : .fab ∈ L)
    (b : Blk) (id : Nat) (j : Job) :
    rest L (b.endJob id j) = rest L b := by
  unfold Blk.endJob
  dsimp only
  repeat' split
  all_goals simp only [rest_foldl, rest_with_coh, rest_countRefusal, rest_unbump, rest_send, rest_noteLoad,
      rest_respond, *]

theorem rest_jobLine (h0 : .regs ∈ L) (h1 : .aon ∈ L) (h2 : .pcs ∈ L) (h3 : .ext ∈ L) (h4 : .coh ∈ L) (h5 : .fab ∈ L)
    (b : Blk) (id l status : Nat) (bs : Bytes) (poison : Bool) :
    rest L (b.jobLine id l status bs poison) = rest L b := by
  unfold Blk.jobLine
  dsimp only
  repeat' split
  all_goals simp only [rest_foldl, rest_with_coh, rest_endJob, *]

theorem rest_answerTxn (h0 : .regs ∈ L) (h1 : .aon ∈ L) (h2 : .pcs ∈ L) (h3 : .ext ∈ L) (h4 : .coh ∈ L) (h5 : .fab ∈
    L) (h6 : .hub ∈ L) (b : Blk) (t : Txn) (ty status : Nat) (bs : Bytes) (poison replay : Bool) :
    rest L (b.answerTxn t ty status bs poison replay) = rest L b := by
  unfold Blk.answerTxn
  cases hj : t.job with
  | some id => simp [rest_jobLine, *]
  | none => cases hw : t.who <;> simp [rest_respond, rest_land, *]

theorem rest_mirrorWait (h0 : .regs ∈ L) (h1 : .coh ∈ L) (h2 : .fab ∈ L) (b : Blk) (t : Txn) (old : Bytes) :
    rest L (b.mirrorWait t old).2 = rest L b := by
  unfold Blk.mirrorWait
  dsimp only
  repeat' split
  all_goals simp only [rest_foldl, rest_mirrorSend, rest_putTxn, *]

theorem rest_freeRat (h0 : .coh ∈ L) (b : Blk) (t : Txn) (a : AtmOp) :
    rest L (b.freeRat t a) = rest L b := by
  unfold Blk.freeRat
  dsimp only
  repeat' split
  all_goals simp only [rest_foldl, rest_with_coh, *]

theorem rest_uncount (h0 : .ext ∈ L) (b : Blk) (t : Txn) :
    rest L (b.uncount t) = rest L b := by
  unfold Blk.uncount
  split <;> simp [rest_unbump, *]

theorem rest_refuseTxn (h0 : .regs ∈ L) (h1 : .aon ∈ L) (h2 : .pcs ∈ L) (h3 : .ext ∈ L) (h4 : .coh ∈ L) (h5 : .fab ∈
    L) (h6 : .hub ∈ L) (b : Blk) (t : Txn) (status : Nat) :
    rest L (b.refuseTxn t status) = rest L b := by
  unfold Blk.refuseTxn
  dsimp only
  repeat' split
  all_goals simp only [rest_foldl, rest_countRefusal, rest_endTxn, rest_answerTxn, rest_freeRat, rest_uncount, *]

theorem rest_sendGrant (h0 : .regs ∈ L) (h1 : .coh ∈ L) (h2 : .fab ∈ L) (b : Blk) (t : Txn) (ty : Nat) (far : Bool)
    (bs : Bytes) (poison : Bool) :
    rest L (b.sendGrant t ty far bs poison) = rest L b := by
  unfold Blk.sendGrant
  dsimp only
  repeat' split
  all_goals simp only [rest_foldl, rest_putTxn, rest_endTxn, rest_respond, *]

theorem rest_grantTxn (h0 : .regs ∈ L) (h1 : .dead ∈ L) (h2 : .pins ∈ L) (h3 : .aon ∈ L) (h4 : .pcs ∈ L) (h5 : .pool
    ∈ L) (h6 : .chans ∈ L) (h7 : .ext ∈ L) (h8 : .coh ∈ L) (h9 : .fab ∈ L) (h10 : .rings ∈ L) (h11 : .pair ∈ L) (h12
    : .hub ∈ L) (b : Blk) (t : Txn) :
    rest L (b.grantTxn t) = rest L b := by
  unfold Blk.grantTxn
  dsimp only
  repeat' split
  all_goals simp only [rest_foldl, rest_incr, rest_bumpMod, rest_fetch, rest_grantX, rest_addSharer, rest_endTxn,
      rest_refuseTxn, rest_sendGrant, *]

theorem rest_execNear (h0 : .regs ∈ L) (h1 : .dead ∈ L) (h2 : .pins ∈ L) (h3 : .aon ∈ L) (h4 : .pcs ∈ L) (h5 : .pool
    ∈ L) (h6 : .chans ∈ L) (h7 : .ext ∈ L) (h8 : .coh ∈ L) (h9 : .fab ∈ L) (h10 : .rings ∈ L) (h11 : .pair ∈ L) (h12
    : .hub ∈ L) (b : Blk) (t : Txn) (a : AtmOp) :
    rest L (b.execNear t a) = rest L b := by
  unfold Blk.execNear
  dsimp only
  repeat' split
  all_goals simp only [rest_foldl, rest_with_coh, rest_incr, rest_aonAdd, rest_writeLine, rest_log, rest_trace,
      rest_fetch, rest_endTxn, rest_answerTxn, rest_mirrorWait, rest_uncount, rest_refuseTxn, *]

theorem rest_noteHeader (h0 : .pair ∈ L) (b : Blk) (l : Nat) :
    rest L (b.noteHeader l) = rest L b := by
  unfold Blk.noteHeader
  dsimp only
  repeat' split
  all_goals simp only [rest_foldl, rest_with_pair, *]

theorem rest_finishTxn (h0 : .regs ∈ L) (h1 : .dead ∈ L) (h2 : .pins ∈ L) (h3 : .aon ∈ L) (h4 : .pcs ∈ L) (h5 : .pool
    ∈ L) (h6 : .chans ∈ L) (h7 : .ext ∈ L) (h8 : .coh ∈ L) (h9 : .fab ∈ L) (h10 : .rings ∈ L) (h11 : .pair ∈ L) (h12
    : .hub ∈ L) (b0 : Blk) (t : Txn) :
    rest L (b0.finishTxn t) = rest L b0 := by
  unfold Blk.finishTxn
  dsimp only
  repeat' split
  all_goals simp [rest_foldl, rest_foldl_fst, rest_foldl_snd, apply_ite (rest L), rest_with_coh, rest_writeMasked,
      rest_fetch, rest_dropHolder, rest_serve, rest_endTxn, rest_answerTxn, rest_mirrorWait, rest_refuseTxn,
      rest_grantTxn, rest_execNear, rest_noteHeader, *]

theorem rest_advance (h0 : .regs ∈ L) (h1 : .dead ∈ L) (h2 : .pins ∈ L) (h3 : .aon ∈ L) (h4 : .pcs ∈ L) (h5 : .pool ∈
    L) (h6 : .chans ∈ L) (h7 : .ext ∈ L) (h8 : .coh ∈ L) (h9 : .fab ∈ L) (h10 : .rings ∈ L) (h11 : .pair ∈ L) (h12 :
    .hub ∈ L) (b0 : Blk) (t : Txn) :
    rest L (b0.advance t) = rest L b0 := by
  unfold Blk.advance
  dsimp only
  repeat' split
  all_goals simp [rest_foldl, rest_foldl_fst, rest_foldl_snd, apply_ite (rest L), rest_writeLine, rest_mirrorSend,
      rest_serve, rest_putTxn, rest_finishTxn, *]

theorem rest_evictSnoop (h0 : .regs ∈ L) (h1 : .pcs ∈ L) (h2 : .coh ∈ L) (h3 : .fab ∈ L) (b : Blk) (l : Nat) (e :
    DirEnt) :
    rest L (b.evictSnoop l e).2 = rest L b := by
  unfold Blk.evictSnoop
  dsimp only
  repeat' split
  all_goals simp only [rest_foldl, rest_with_coh, rest_snoopAll, rest_putTxn, *]

theorem rest_evict (h0 : .regs ∈ L) (h1 : .aon ∈ L) (h2 : .pcs ∈ L) (h3 : .pool ∈ L) (h4 : .chans ∈ L) (h5 : .ext ∈
    L) (h6 : .coh ∈ L) (h7 : .fab ∈ L) (h8 : .rings ∈ L) (h9 : .pair ∈ L) (b : Blk) (l : Nat) :
    rest L (b.evict l).2 = rest L b := by
  unfold Blk.evict
  dsimp only
  repeat' split
  all_goals simp only [rest_foldl, rest_incr, rest_event, rest_poisonDead, rest_evictSnoop, *]

theorem rest_settleCount (h0 : .ext ∈ L) (b : Blk) (t : Txn) :
    rest L (b.settleCount t).2 = rest L b := by
  unfold Blk.settleCount
  split <;> simp [rest_unbump, *]

theorem rest_runTxn (h0 : .regs ∈ L) (h1 : .dead ∈ L) (h2 : .pins ∈ L) (h3 : .aon ∈ L) (h4 : .pcs ∈ L) (h5 : .pool ∈
    L) (h6 : .chans ∈ L) (h7 : .ext ∈ L) (h8 : .coh ∈ L) (h9 : .fab ∈ L) (h10 : .rings ∈ L) (h11 : .pair ∈ L) (h12 :
    .hub ∈ L) (b0 : Blk) (t0 : Txn) :
    rest L (b0.runTxn t0) = rest L b0 := by
  unfold Blk.runTxn
  dsimp only
  repeat' split
  all_goals simp only [rest_foldl, rest_snoopAll, rest_putTxn, rest_advance, rest_settleCount, *]

theorem rest_uncountRds (h0 : .ext ∈ L) (b : Blk) (t : Txn) :
    rest L (b.uncountRds t) = rest L b := by
  unfold Blk.uncountRds
  split <;> simp [rest_uncount, *]

theorem rest_countRds (h0 : .ext ∈ L) (b : Blk) (t : Txn) :
    rest L (b.countRds t).2 = rest L b := by
  unfold Blk.countRds
  split <;> simp [rest_bumpMod, *]

theorem rest_startTxn (h0 : .regs ∈ L) (h1 : .dead ∈ L) (h2 : .pins ∈ L) (h3 : .fresh ∈ L) (h4 : .aon ∈ L) (h5 : .pcs
    ∈ L) (h6 : .pool ∈ L) (h7 : .chans ∈ L) (h8 : .ext ∈ L) (h9 : .coh ∈ L) (h10 : .fab ∈ L) (h11 : .rings ∈ L) (h12
    : .pair ∈ L) (h13 : .hub ∈ L) (b : Blk) (t0 : Txn) (again : Bool) :
    rest L (b.startTxn t0 again) = rest L b := by
  unfold Blk.startTxn
  dsimp only
  repeat' split
  all_goals simp only [rest_foldl, rest_with_coh, rest_incr, rest_poisonDead, rest_touch, rest_dirLookup, rest_evict,
      rest_runTxn, rest_uncountRds, rest_countRds, *]

theorem rest_beginTxn (h0 : .regs ∈ L) (h1 : .dead ∈ L) (h2 : .pins ∈ L) (h3 : .fresh ∈ L) (h4 : .aon ∈ L) (h5 : .pcs
    ∈ L) (h6 : .pool ∈ L) (h7 : .chans ∈ L) (h8 : .ext ∈ L) (h9 : .coh ∈ L) (h10 : .fab ∈ L) (h11 : .rings ∈ L) (h12
    : .pair ∈ L) (h13 : .hub ∈ L) (b : Blk) (t : Txn) :
    rest L (b.beginTxn t) = rest L b := by
  unfold Blk.beginTxn
  dsimp only
  repeat' split
  all_goals simp only [rest_foldl, rest_with_coh, rest_countRds, rest_startTxn, *]

theorem rest_takeLanded (h0 : .coh ∈ L) (b : Blk) (w : Who) (l : Nat) :
    rest L (b.takeLanded w l).2 = rest L b := by
  simp [Blk.takeLanded, rest_with_coh, *]

theorem rest_dropLanded (h0 : .coh ∈ L) (b : Blk) (w : Who) :
    rest L (b.dropLanded w) = rest L b := by
  simp [Blk.dropLanded, rest_with_coh, *]

theorem rest_modTil (h0 : .work ∈ L) (b : Blk) (k : Nat) (f : Tiller → Tiller) :
    rest L (b.modTil k f) = rest L b := by
  simp [Blk.modTil, rest_with_work, *]

theorem rest_dropPre (h0 : .regs ∈ L) (h1 : .pcs ∈ L) (h2 : .coh ∈ L) (h3 : .work ∈ L) (b : Blk) (p : Prefetch → Bool) :
    rest L (b.dropPre p) = rest L b := by
  simp [Blk.dropPre, rest_foldl, rest_incr, rest_event, rest_dropLanded, rest_modTil, *]

theorem rest_readInt (h0 : .regs ∈ L) (h1 : .dead ∈ L) (h2 : .pins ∈ L) (h3 : .fresh ∈ L) (h4 : .aon ∈ L) (h5 : .pcs
    ∈ L) (h6 : .pool ∈ L) (h7 : .chans ∈ L) (h8 : .ext ∈ L) (h9 : .coh ∈ L) (h10 : .fab ∈ L) (h11 : .rings ∈ L) (h12
    : .pair ∈ L) (h13 : .hub ∈ L) (b : Blk) (r : Requester) (l : Nat) :
    rest L (b.readInt r l).2 = rest L b := by
  unfold Blk.readInt
  dsimp only
  repeat' split
  all_goals simp only [rest_foldl, rest_countAccept, rest_countRefusal, rest_beginTxn, rest_takeLanded, *]

theorem rest_writeInt (h0 : .regs ∈ L) (h1 : .dead ∈ L) (h2 : .pins ∈ L) (h3 : .fresh ∈ L) (h4 : .aon ∈ L) (h5 : .pcs
    ∈ L) (h6 : .pool ∈ L) (h7 : .chans ∈ L) (h8 : .ext ∈ L) (h9 : .coh ∈ L) (h10 : .fab ∈ L) (h11 : .rings ∈ L) (h12
    : .pair ∈ L) (h13 : .hub ∈ L) (b : Blk) (r : Requester) (l : Nat) (bs : Bytes) (mask : BitVec 128) (poison : Bool) :
    rest L (b.writeInt r l bs mask poison).2 = rest L b := by
  unfold Blk.writeInt
  dsimp only
  repeat' split
  all_goals simp only [rest_foldl, rest_bumpMod, rest_countAccept, rest_countRefusal, rest_beginTxn, *]

theorem rest_devWrite (h0 : .regs ∈ L) (h1 : .dead ∈ L) (h2 : .pins ∈ L) (h3 : .fresh ∈ L) (h4 : .aon ∈ L) (h5 : .pcs
    ∈ L) (h6 : .pool ∈ L) (h7 : .chans ∈ L) (h8 : .ext ∈ L) (h9 : .coh ∈ L) (h10 : .fab ∈ L) (h11 : .rings ∈ L) (h12
    : .pair ∈ L) (h13 : .hub ∈ L) (b : Blk) (a : Nat) (bs : Bytes) :
    rest L (b.devWrite a bs) = rest L b := by
  simp [Blk.devWrite, rest_foldl, rest_writeInt, *]

theorem rest_reqIn (h0 : .regs ∈ L) (h1 : .fab ∈ L) (h2 : .traf ∈ L) (b : Blk) (q src ty : Nat) (lens : List Nat)
    (sure : Bool) :
    rest L (b.reqIn q src ty lens sure).2 = rest L b := by
  unfold Blk.reqIn
  dsimp only
  repeat' split
  all_goals simp only [rest_foldl, rest_chargeShaper, rest_police, rest_noRoute, rest_notePoliced, *]

theorem rest_rspIn (h0 : .traf ∈ L) (b : Blk) (src len : Nat) :
    rest L (b.rspIn src len) = rest L b := by
  simp [Blk.rspIn, rest_chargeShaper, *]

theorem rest_malformed (h0 : .regs ∈ L) (b : Blk) (q : Nat) :
    rest L (b.malformed q) = rest L b := by
  simp [Blk.malformed, rest_flag, rest_incr, *]

theorem rest_answered (h0 : .regs ∈ L) (h1 : .dead ∈ L) (h2 : .pins ∈ L) (h3 : .aon ∈ L) (h4 : .pcs ∈ L) (h5 : .pool
    ∈ L) (h6 : .chans ∈ L) (h7 : .ext ∈ L) (h8 : .coh ∈ L) (h9 : .fab ∈ L) (h10 : .rings ∈ L) (h11 : .pair ∈ L) (h12
    : .hub ∈ L) (b : Blk) (t : Txn) (eid : Nat) :
    rest L (b.answered t eid) = rest L b := by
  unfold Blk.answered
  dsimp only
  repeat' split
  all_goals simp only [rest_foldl, rest_putTxn, rest_advance, *]

theorem rest_setAnswered (h0 : .regs ∈ L) (h1 : .aon ∈ L) (h2 : .pcs ∈ L) (h3 : .pool ∈ L) (h4 : .chans ∈ L) (h5 :
    .ext ∈ L) (h6 : .coh ∈ L) (h7 : .rings ∈ L) (b : Blk) (q eid snpId : Nat) :
    rest L (b.setAnswered q eid snpId) = rest L b := by
  unfold Blk.setAnswered
  dsimp only
  repeat' split
  all_goals simp only [rest_foldl, rest_with_coh, rest_flag, rest_log, *]

theorem rest_resolveDead (h0 : .regs ∈ L) (h1 : .dead ∈ L) (h2 : .pins ∈ L) (h3 : .aon ∈ L) (h4 : .pcs ∈ L) (h5 :
    .pool ∈ L) (h6 : .chans ∈ L) (h7 : .ext ∈ L) (h8 : .coh ∈ L) (h9 : .fab ∈ L) (h10 : .rings ∈ L) (h11 : .pair ∈ L)
    (h12 : .hub ∈ L) (b : Blk) (q eid : Nat) :
    rest L (b.resolveDead q eid) = rest L b := by
  unfold Blk.resolveDead
  refine (rest_foldl (fun x s => ?_) _ _).trans ((rest_foldl (fun x t => ?_) _ _).trans (rest_foldl (fun x t => ?_) _
      _))
  · simp [rest_setAnswered, *]
  · simp [rest_endTxn, *]
  · dsimp only
    split
    · rfl
    · rw [rest_answered (by assumption) (by assumption) (by assumption) (by assumption) (by assumption) (by assumption)
        (by assumption) (by assumption) (by assumption) (by assumption) (by assumption) (by assumption) (by assumption)]
      split
      · simp [rest_poisonDead, *]
      · simp [rest_dropHolder, *]

theorem rest_mirrorEnd (h0 : .regs ∈ L) (h1 : .dead ∈ L) (h2 : .pins ∈ L) (h3 : .aon ∈ L) (h4 : .pcs ∈ L) (h5 : .pool
    ∈ L) (h6 : .chans ∈ L) (h7 : .ext ∈ L) (h8 : .coh ∈ L) (h9 : .fab ∈ L) (h10 : .rings ∈ L) (h11 : .pair ∈ L) (h12
    : .hub ∈ L) (b : Blk) (t : Txn) (status : Nat) (old : Bytes) :
    rest L (b.mirrorEnd t status old) = rest L b := by
  unfold Blk.mirrorEnd
  dsimp only
  repeat' split
  all_goals simp only [rest_foldl, rest_countRefusal, rest_endTxn, rest_answerTxn, rest_finishTxn, *]

theorem rest_failMirror (h0 : .regs ∈ L) (h1 : .aon ∈ L) (h2 : .pcs ∈ L) (h3 : .pool ∈ L) (h4 : .chans ∈ L) (h5 :
    .ext ∈ L) (h6 : .rings ∈ L) (b : Blk) (l part peer : Nat) :
    rest L (b.failMirror l part peer) = rest L b := by
  simp [Blk.failMirror, rest_flag, rest_incr, rest_log, *]

theorem rest_mirrorFailed (h0 : .regs ∈ L) (h1 : .aon ∈ L) (h2 : .pcs ∈ L) (h3 : .pool ∈ L) (h4 : .chans ∈ L) (h5 :
    .ext ∈ L) (h6 : .rings ∈ L) (b : Blk) (t : Txn) (peer : Nat) :
    rest L (b.mirrorFailed t peer) = rest L b := by
  simp [Blk.mirrorFailed, rest_failMirror, *]

theorem rest_copyAgain (h0 : .regs ∈ L) (h1 : .dead ∈ L) (h2 : .pins ∈ L) (h3 : .aon ∈ L) (h4 : .pcs ∈ L) (h5 : .pool
    ∈ L) (h6 : .chans ∈ L) (h7 : .ext ∈ L) (h8 : .fab ∈ L) (h9 : .rings ∈ L) (h10 : .pair ∈ L) (b : Blk) (msgId peer
    : Nat) :
    rest L (b.copyAgain msgId peer) = rest L b := by
  unfold Blk.copyAgain
  dsimp only
  repeat' split
  all_goals simp only [rest_foldl, rest_with_pair, rest_mirrorSend, rest_fetch, rest_failMirror, *]

theorem rest_ckptEntry (h0 : .regs ∈ L) (h1 : .dead ∈ L) (h2 : .pins ∈ L) (h3 : .fresh ∈ L) (h4 : .aon ∈ L) (h5 :
    .pcs ∈ L) (h6 : .pool ∈ L) (h7 : .chans ∈ L) (h8 : .ext ∈ L) (h9 : .coh ∈ L) (h10 : .fab ∈ L) (h11 : .rings ∈ L)
    (h12 : .pair ∈ L) (h13 : .hub ∈ L) (b : Blk) (off : Nat) (e : Nat → Bytes) :
    rest L (b.ckptEntry off e) = rest L b := by
  simp [Blk.ckptEntry, rest_with_pair, rest_devWrite, *]

theorem rest_ckptHost (h0 : .regs ∈ L) (h1 : .dead ∈ L) (h2 : .pins ∈ L) (h3 : .fresh ∈ L) (h4 : .aon ∈ L) (h5 : .pcs
    ∈ L) (h6 : .pool ∈ L) (h7 : .chans ∈ L) (h8 : .ext ∈ L) (h9 : .coh ∈ L) (h10 : .fab ∈ L) (h11 : .rings ∈ L) (h12
    : .pair ∈ L) (h13 : .hub ∈ L) (b : Blk) (eid : Nat) (l : Lease) :
    rest L (b.ckptHost eid l) = rest L b := by
  simp [Blk.ckptHost, rest_ckptEntry, *]

theorem rest_ckptAgentAt (h0 : .regs ∈ L) (h1 : .dead ∈ L) (h2 : .pins ∈ L) (h3 : .fresh ∈ L) (h4 : .aon ∈ L) (h5 :
    .pcs ∈ L) (h6 : .pool ∈ L) (h7 : .chans ∈ L) (h8 : .ext ∈ L) (h9 : .coh ∈ L) (h10 : .fab ∈ L) (h11 : .rings ∈ L)
    (h12 : .pair ∈ L) (h13 : .hub ∈ L) (b : Blk) (eid : Nat) (a : Agent) :
    rest L (b.ckptAgentAt eid a) = rest L b := by
  simp [Blk.ckptAgentAt, rest_ckptEntry, *]

theorem rest_ckptExtAt (h0 : .regs ∈ L) (h1 : .dead ∈ L) (h2 : .pins ∈ L) (h3 : .fresh ∈ L) (h4 : .aon ∈ L) (h5 :
    .pcs ∈ L) (h6 : .pool ∈ L) (h7 : .chans ∈ L) (h8 : .ext ∈ L) (h9 : .coh ∈ L) (h10 : .fab ∈ L) (h11 : .rings ∈ L)
    (h12 : .pair ∈ L) (h13 : .hub ∈ L) (b : Blk) (i : Nat) (r : ExtRt) :
    rest L (b.ckptExtAt i r) = rest L b := by
  simp [Blk.ckptExtAt, rest_ckptEntry, *]

theorem rest_setExt (h0 : .regs ∈ L) (h1 : .dead ∈ L) (h2 : .pins ∈ L) (h3 : .fresh ∈ L) (h4 : .aon ∈ L) (h5 : .pcs ∈
    L) (h6 : .pool ∈ L) (h7 : .chans ∈ L) (h8 : .ext ∈ L) (h9 : .coh ∈ L) (h10 : .fab ∈ L) (h11 : .rings ∈ L) (h12 :
    .pair ∈ L) (h13 : .hub ∈ L) (b : Blk) (i : Nat) (f : ExtRt → ExtRt) :
    rest L (b.setExt i f) = rest L b := by
  unfold Blk.setExt
  dsimp only
  repeat' split
  all_goals simp only [rest_foldl, rest_modExt, rest_ckptExtAt, *]

theorem rest_setLease (h0 : .regs ∈ L) (h1 : .dead ∈ L) (h2 : .pins ∈ L) (h3 : .fresh ∈ L) (h4 : .aon ∈ L) (h5 : .pcs
    ∈ L) (h6 : .pool ∈ L) (h7 : .chans ∈ L) (h8 : .ext ∈ L) (h9 : .coh ∈ L) (h10 : .fab ∈ L) (h11 : .rings ∈ L) (h12
    : .pair ∈ L) (h13 : .hub ∈ L) (b : Blk) (eid : Nat) (l : Lease) :
    rest L (b.setLease eid l) = rest L b := by
  unfold Blk.setLease
  dsimp only
  repeat' split
  all_goals simp only [rest_foldl, rest_with_ext, rest_ckptHost, *]

theorem rest_dropGrain (h0 : .pool ∈ L) (b : Blk) (g : Nat) :
    rest L (b.dropGrain g) = rest L b := by
  simp [Blk.dropGrain, rest_with_pool, *]

theorem rest_freeLogFrames (h0 : .pool ∈ L) (b : Blk) :
    rest L (b.freeLogFrames) = rest L b := by
  simp [Blk.freeLogFrames, rest_foldl, rest_dropGrain, *]

theorem rest_queueClean (h0 : .pool ∈ L) (b : Blk) (i : Nat) :
    rest L (b.queueClean i) = rest L b := by
  unfold Blk.queueClean
  dsimp only
  repeat' split
  all_goals simp only [rest_foldl, rest_with_pool, *]

theorem rest_placeAll (h0 : .pool ∈ L) (b : Blk) :
    rest L (b.placeAll) = rest L b := by
  unfold Blk.placeAll
  refine rest_foldl (fun x q => rest_foldl (fun y p => rest_foldl (fun z g => ?_) _ _) _ _) _ _
  dsimp only
  split
  · exact rest_with_pool (by assumption) _ _
  · rfl

theorem rest_answerAsker (h0 : .regs ∈ L) (h1 : .fab ∈ L) (h2 : .hub ∈ L) (b : Blk) (q : Nat) (w : Asker) (status :
    Nat) (payload : Bytes) :
    rest L (b.answerAsker q w status payload) = rest L b := by
  unfold Blk.answerAsker
  split <;> simp [rest_answerCtrl, rest_answerCmd, *]

theorem rest_startDrain (h0 : .regs ∈ L) (h1 : .dead ∈ L) (h2 : .pins ∈ L) (h3 : .fresh ∈ L) (h4 : .aon ∈ L) (h5 :
    .pcs ∈ L) (h6 : .pool ∈ L) (h7 : .chans ∈ L) (h8 : .ext ∈ L) (h9 : .coh ∈ L) (h10 : .fab ∈ L) (h11 : .rings ∈ L)
    (h12 : .pair ∈ L) (h13 : .hub ∈ L) (b : Blk) (i : Nat) :
    rest L (b.startDrain i) = rest L b := by
  unfold Blk.startDrain
  split
  · rfl
  · split
    · rfl
    · refine Eq.trans ?_ (rest_setExt (by assumption) (by assumption) (by assumption) (by assumption) (by assumption)
        (by assumption) (by assumption) (by assumption) (by assumption) (by assumption) (by assumption) (by assumption)
        (by assumption) (by assumption) b i (fun r => { r with prior := r.state, state := .draining }))
      simp [rest, *]

theorem rest_expireExt (h0 : .regs ∈ L) (h1 : .dead ∈ L) (h2 : .pins ∈ L) (h3 : .fresh ∈ L) (h4 : .aon ∈ L) (h5 :
    .pcs ∈ L) (h6 : .pool ∈ L) (h7 : .chans ∈ L) (h8 : .ext ∈ L) (h9 : .coh ∈ L) (h10 : .fab ∈ L) (h11 : .rings ∈ L)
    (h12 : .pair ∈ L) (h13 : .hub ∈ L) (b : Blk) (q eid i : Nat) :
    rest L (b.expireExt q eid i) = rest L b := by
  unfold Blk.expireExt
  dsimp only
  repeat' split
  all_goals simp only [rest_foldl, rest_startDrain, *]

theorem rest_bindAgent (h0 : .regs ∈ L) (h1 : .aon ∈ L) (h2 : .pcs ∈ L) (h3 : .pool ∈ L) (h4 : .chans ∈ L) (h5 : .ext
    ∈ L) (h6 : .coh ∈ L) (h7 : .rings ∈ L) (b : Blk) (eid : Nat) (past : Nat) :
    rest L (b.bindAgent eid past) = rest L b := by
  simp [Blk.bindAgent, rest_with_coh, rest_trace, *]

theorem rest_storePattern (h0 : .pool ∈ L) (b : Blk) (k l : Nat) (copy : Option Copy) (at_ : Nat × Nat) (p : Bytes) :
    rest L (b.storePattern k l copy at_ p) = rest L b := by
  unfold Blk.storePattern
  dsimp only
  repeat' split
  all_goals simp only [rest_foldl, rest_with_pool, rest_flipCopy, rest_setDelta, rest_flipData, rest_settleRow, *]

theorem rest_setPairPins (h0 : .pair ∈ L) (b : Blk) :
    rest L (b.setPairPins) = rest L b := by
  unfold Blk.setPairPins
  dsimp only
  repeat' split
  all_goals simp only [rest_foldl, rest_with_pair, *]

theorem rest_loadPair (h0 : .pair ∈ L) (b : Blk) :
    rest L (b.loadPair) = rest L b := by
  simp [Blk.loadPair, rest_with_pair, rest_setPairPins, *]

theorem rest_setPair (h0 : .pair ∈ L) (b : Blk) (old : PairCfg) (body : Bool) :
    rest L (b.setPair old body) = rest L b := by
  unfold Blk.setPair
  dsimp only
  repeat' split
  all_goals simp only [rest_foldl, rest_with_pair, rest_setPairPins, rest_loadPair, *]

theorem rest_rejoin (h0 : .pair ∈ L) (b : Blk) :
    rest L (b.rejoin) = rest L b := by
  unfold Blk.rejoin
  dsimp only
  repeat' split
  all_goals simp only [rest_foldl, rest_with_pair, rest_setPairPins, *]

theorem rest_putLease (h0 : .ext ∈ L) (b : Blk) (eid : Nat) (l : Lease) :
    rest L (b.putLease eid l) = rest L b := by
  simp [Blk.putLease, rest_foldl, rest_with_ext, *]

theorem rest_restoreLeases (h0 : .ext ∈ L) (b : Blk) (m : Map Bytes) :
    rest L (b.restoreLeases m) = rest L b := by
  simp [Blk.restoreLeases, rest_foldl, rest_putLease, *]

theorem rest_restoreExts (h0 : .ext ∈ L) (b : Blk) (m : Map Bytes) :
    rest L (b.restoreExts m) = rest L b := by
  unfold Blk.restoreExts
  refine rest_foldl (fun x i => ?_) _ _
  dsimp only
  split
  · rfl
  · exact rest_modExt (by assumption) ..

theorem rest_reindex (h0 : .coh ∈ L) (b : Blk) (was now : Map Agent) :
    rest L (b.reindex was now) = rest L b := by
  simp [Blk.reindex, rest_with_coh, *]

theorem rest_rejectOrder (h0 : .regs ∈ L) (b : Blk) :
    rest L (b.rejectOrder) = rest L b := by
  simp [Blk.rejectOrder, rest_flag, rest_incr, *]

theorem rest_d2dFlag (h0 : .regs ∈ L) (b : Blk) (q peer lo : Nat) :
    rest L (b.d2dFlag q peer lo) = rest L b := by
  unfold Blk.d2dFlag
  split <;> simp [rest_flag, *]

theorem rest_modD2d (h0 : .fab ∈ L) (b : Blk) (a c : Nat) (f : D2d → D2d) :
    rest L (b.modD2d a c f) = rest L b := by
  simp [Blk.modD2d, rest_with_fab, *]

theorem rest_arrive (h0 : .fab ∈ L) (b : Blk) (src dst : Nat) (w : Worm) :
    rest L (b.arrive src dst w) = rest L b := by
  unfold Blk.arrive
  dsimp only
  repeat' split
  all_goals simp only [rest_foldl, rest_with_fab, *]

theorem rest_modLink (h0 : .fab ∈ L) (b : Blk) (n : Nat) (f : Link → Link) :
    rest L (b.modLink n f) = rest L b := by
  simp [Blk.modLink, rest_with_fab, *]

theorem rest_traceLink (h0 : .regs ∈ L) (h1 : .aon ∈ L) (h2 : .pcs ∈ L) (h3 : .pool ∈ L) (h4 : .chans ∈ L) (h5 : .ext
    ∈ L) (h6 : .rings ∈ L) (b : Blk) (n event cause : Nat) :
    rest L (b.traceLink n event cause) = rest L b := by
  simp [Blk.traceLink, rest_trace, *]

theorem rest_emit (h0 : .aon ∈ L) (h1 : .fab ∈ L) (b : Blk) (n ty seq : Nat) (payload : Bytes) (m : Nat) :
    rest L (b.emit n ty seq payload m) = rest L b := by
  simp [Blk.emit, rest_aonAdd, rest_modLink, *]

theorem rest_keepFlit (h0 : .regs ∈ L) (h1 : .fab ∈ L) (b : Blk) (n ty : Nat) (payload : Bytes) (req : Option (Nat ×
    Nat)) :
    rest L (b.keepFlit n ty payload req) = rest L b := by
  unfold Blk.keepFlit
  dsimp only
  repeat' split
  all_goals simp only [rest_foldl, rest_incr, rest_modLink, *]

theorem rest_putFlit (h0 : .regs ∈ L) (h1 : .aon ∈ L) (h2 : .fab ∈ L) (b : Blk) (n ty : Nat) (payload : Bytes) (req :
    Option (Nat × Nat)) :
    rest L (b.putFlit n ty payload req) = rest L b := by
  simp [Blk.putFlit, rest_emit, rest_keepFlit, *]

theorem rest_sendNak (h0 : .regs ∈ L) (h1 : .aon ∈ L) (h2 : .fab ∈ L) (b : Blk) (n : Nat) :
    rest L (b.sendNak n) = rest L b := by
  simp [Blk.sendNak, rest_incr, rest_modLink, rest_emit, *]

theorem rest_abortHold (h0 : .regs ∈ L) (h1 : .aon ∈ L) (h2 : .fab ∈ L) (b : Blk) (n : Nat) :
    rest L (b.abortHold n) = rest L b := by
  unfold Blk.abortHold
  dsimp only
  repeat' split
  all_goals simp only [rest_foldl, rest_with_fab, rest_putFlit, *]

theorem rest_truncateRx (h0 : .regs ∈ L) (h1 : .aon ∈ L) (h2 : .fab ∈ L) (b : Blk) (n : Nat) :
    rest L (b.truncateRx n) = rest L b := by
  unfold Blk.truncateRx
  dsimp only
  repeat' split
  all_goals simp only [rest_foldl, rest_incr, rest_modLink, rest_abortHold, *]

theorem rest_truncateTx (h0 : .regs ∈ L) (h1 : .fab ∈ L) (b : Blk) (n : Nat) :
    rest L (b.truncateTx n) = rest L b := by
  unfold Blk.truncateTx
  dsimp only
  repeat' split
  all_goals simp only [rest_foldl, rest_with_fab, rest_incr, rest_keepFlit, *]

theorem rest_linkIdle (h0 : .fab ∈ L) (b : Blk) (n : Nat) :
    rest L (b.linkIdle n) = rest L b := by
  simp [Blk.linkIdle, rest_modLink, *]

theorem rest_trainFail (h0 : .regs ∈ L) (h1 : .fab ∈ L) (b : Blk) (n : Nat) :
    rest L (b.trainFail n) = rest L b := by
  simp [Blk.trainFail, rest_flag, rest_modLink, *]

theorem rest_linkLost (h0 : .regs ∈ L) (h1 : .dead ∈ L) (h2 : .pins ∈ L) (h3 : .aon ∈ L) (h4 : .pcs ∈ L) (h5 : .pool
    ∈ L) (h6 : .chans ∈ L) (h7 : .ext ∈ L) (h8 : .coh ∈ L) (h9 : .fab ∈ L) (h10 : .rings ∈ L) (h11 : .pair ∈ L) (h12
    : .hub ∈ L) (b : Blk) (n : Nat) (r : Nat × Nat) :
    rest L (b.linkLost n r) = rest L b := by
  unfold Blk.linkLost
  dsimp only
  repeat' split
  all_goals simp only [rest_foldl, rest_with_fab, rest_incr, rest_aonAdd, rest_mirrorEnd, rest_mirrorFailed,
      rest_copyAgain, *]

theorem rest_dropFlits (h0 : .regs ∈ L) (h1 : .dead ∈ L) (h2 : .pins ∈ L) (h3 : .aon ∈ L) (h4 : .pcs ∈ L) (h5 : .pool
    ∈ L) (h6 : .chans ∈ L) (h7 : .ext ∈ L) (h8 : .coh ∈ L) (h9 : .fab ∈ L) (h10 : .rings ∈ L) (h11 : .pair ∈ L) (h12
    : .hub ∈ L) (b : Blk) (n : Nat) :
    rest L (b.dropFlits n) = rest L b := by
  simp [Blk.dropFlits, rest_foldl, rest_flag, rest_aonAdd, rest_modLink, rest_traceLink, rest_truncateRx,
      rest_truncateTx, rest_linkLost, *]

theorem rest_flitCrcFail (h0 : .regs ∈ L) (h1 : .aon ∈ L) (h2 : .fab ∈ L) (b : Blk) (n : Nat) :
    rest L (flitCrcFail b n) = rest L b := by
  unfold flitCrcFail
  split <;> simp [rest_flag, rest_incr, rest_aonAdd, rest_sendNak, *]

theorem rest_flitIn (h0 : .aon ∈ L) (h1 : .fab ∈ L) (b : Blk) (n : Nat) :
    rest L (b.flitIn n) = rest L b := by
  simp [Blk.flitIn, rest_aonAdd, rest_modLink, *]

theorem rest_countRx (h0 : .regs ∈ L) (h1 : .pcs ∈ L) (b : Blk) (n : Nat) :
    rest L (b.countRx n) = rest L b := by
  simp [Blk.countRx, rest_incr, rest_event, *]

theorem rest_sendTrain (h0 : .aon ∈ L) (h1 : .fab ∈ L) (b : Blk) (n count : Nat) :
    rest L (b.sendTrain n count) = rest L b := by
  simp [Blk.sendTrain, rest_emit, *]

theorem rest_setRun (h0 : .work ∈ L) (b : Blk) (k : Nat) (r : Run) :
    rest L (b.setRun k r) = rest L b := by
  simp [Blk.setRun, rest_modTil, *]

theorem rest_tick (h0 : .aon ∈ L) (h1 : .pcs ∈ L) (h2 : .work ∈ L) (b : Blk) (k cls n part : Nat) :
    rest L (b.tick k cls n part) = rest L b := by
  unfold Blk.tick
  dsimp only
  repeat' split
  all_goals simp only [rest_foldl, rest_with_work, rest_aonAdd, rest_event, *]

theorem rest_noteRefusal (h0 : .regs ∈ L) (b : Blk) (k status : Nat) :
    rest L (b.noteRefusal k status) = rest L b := by
  unfold Blk.noteRefusal
  split <;> simp [rest_flag, *]

theorem rest_settleWork (h0 : .aon ∈ L) (h1 : .pcs ∈ L) (h2 : .work ∈ L) (b : Blk) (k : Nat) :
    rest L (b.settleWork k) = rest L b := by
  unfold Blk.settleWork
  dsimp only
  repeat' split
  all_goals simp only [rest_foldl, rest_setRun, rest_tick, *]

theorem rest_cancelRun (h0 : .aon ∈ L) (h1 : .pcs ∈ L) (h2 : .work ∈ L) (b : Blk) (k status : Nat) :
    rest L (b.cancelRun k status) = rest L b := by
  unfold Blk.cancelRun
  dsimp only
  repeat' split
  all_goals simp only [rest_foldl, rest_setRun, rest_tick, rest_settleWork, *]

theorem rest_hubPoison (h0 : .regs ∈ L) (h1 : .aon ∈ L) (h2 : .pcs ∈ L) (h3 : .pool ∈ L) (h4 : .chans ∈ L) (h5 : .ext
    ∈ L) (h6 : .rings ∈ L) (b : Blk) (line status : Nat) :
    rest L (b.hubPoison line status) = rest L b := by
  simp [Blk.hubPoison, rest_aonAdd, rest_log, rest_trace, *]

theorem rest_enterTlb (h0 : .hub ∈ L) (b : Blk) (engine : Nat) (e : AtcEnt) :
    rest L (b.enterTlb engine e) = rest L b := by
  unfold Blk.enterTlb
  dsimp only
  repeat' split
  all_goals simp only [rest_foldl, rest_with_hub, *]

theorem rest_dropWait (h0 : .hub ∈ L) (b : Blk) (x : Xfer) :
    rest L (b.dropWait x) = rest L b := by
  simp [Blk.dropWait, rest_with_hub, *]

theorem rest_dropFaults (h0 : .hub ∈ L) (b : Blk) (x : Xfer) :
    rest L (b.dropFaults x) = rest L b := by
  simp [Blk.dropFaults, rest_with_hub, *]

theorem rest_fault (h0 : .regs ∈ L) (h1 : .hub ∈ L) (b : Blk) (x : Xfer) (engine f pasid page : Nat) (write : Bool) :
    rest L (b.fault x engine f pasid page write).2 = rest L b := by
  unfold Blk.fault
  dsimp only
  repeat' split
  all_goals simp only [rest_foldl, rest_with_hub, rest_flag, rest_incr, rest_dropWait, rest_dropFaults, *]

theorem rest_xlate (h0 : .regs ∈ L) (h1 : .pcs ∈ L) (h2 : .hub ∈ L) (b : Blk) (x : Xfer) (engine f pasid page : Nat)
    (write : Bool) :
    rest L (b.xlate x engine f pasid page write).2 = rest L b := by
  unfold Blk.xlate
  dsimp only
  repeat' split
  all_goals simp only [rest_foldl, rest_with_hub, rest_incr, rest_event, rest_pcie, rest_enterTlb, rest_dropFaults,
      rest_fault, *]

theorem rest_xlateAll (h0 : .regs ∈ L) (h1 : .pcs ∈ L) (h2 : .hub ∈ L) (b : Blk) (x : Xfer) (engine f pasid : Nat)
    (write : Bool) (x0 : List Nat) :
    rest L (b.xlateAll x engine f pasid write x0).2 = rest L b := by
  induction x0 generalizing b with
  | nil => rfl
  | cons p t ih =>
    simp only [Blk.xlateAll]
    split <;> simp [rest_xlate, *]

theorem rest_hostFetch (h0 : .regs ∈ L) (h1 : .pcs ∈ L) (h2 : .hub ∈ L) (b : Blk) (x : Xfer) (engine f pasid a n :
    Nat) (host : HostResult) :
    rest L (b.hostFetch x engine f pasid a n host).2 = rest L b := by
  unfold Blk.hostFetch
  dsimp only
  repeat' split
  all_goals simp only [rest_foldl, rest_endRead, rest_askHost, rest_xlateAll, *]

theorem rest_invEnd (h0 : .hub ∈ L) (b : Blk) :
    rest L (b.invEnd) = rest L b := by
  simp [Blk.invEnd, rest_foldl, rest_with_hub, rest_pcie, *]

theorem rest_modThr (h0 : .work ∈ L) (b : Blk) (q : Nat) (f : Thresher → Thresher) :
    rest L (b.modThr q f) = rest L b := by
  simp [Blk.modThr, rest_with_work, *]

theorem rest_modSheaf (h0 : .work ∈ L) (b : Blk) (slot : Nat) (f : Sheaf → Sheaf) :
    rest L (b.modSheaf slot f) = rest L b := by
  simp [Blk.modSheaf, rest_with_work, *]

theorem rest_modTask (h0 : .work ∈ L) (b : Blk) (slot i : Nat) (f : TaskRt → TaskRt) :
    rest L (b.modTask slot i f) = rest L b := by
  simp [Blk.modTask, rest_modSheaf, *]

theorem rest_thrPoison (h0 : .regs ∈ L) (h1 : .aon ∈ L) (h2 : .pcs ∈ L) (h3 : .pool ∈ L) (h4 : .chans ∈ L) (h5 : .ext
    ∈ L) (h6 : .rings ∈ L) (b : Blk) (q part line who : Nat) :
    rest L (b.thrPoison q part line who) = rest L b := by
  simp [Blk.thrPoison, rest_aonAdd, rest_log, rest_trace, *]

theorem rest_reject (h0 : .regs ∈ L) (h1 : .aon ∈ L) (h2 : .pcs ∈ L) (h3 : .pool ∈ L) (h4 : .chans ∈ L) (h5 : .ext ∈
    L) (h6 : .fab ∈ L) (h7 : .rings ∈ L) (h8 : .hub ∈ L) (b : Blk) (q : Nat) (r : SubmitReq) (status a c : Nat) :
    rest L (b.reject q r status a c) = rest L b := by
  simp [Blk.reject, rest_setReg, rest_flag, rest_incr, rest_trace, rest_answerAsker, *]

theorem rest_readLines (h0 : .regs ∈ L) (h1 : .dead ∈ L) (h2 : .pins ∈ L) (h3 : .fresh ∈ L) (h4 : .aon ∈ L) (h5 :
    .pcs ∈ L) (h6 : .pool ∈ L) (h7 : .chans ∈ L) (h8 : .ext ∈ L) (h9 : .coh ∈ L) (h10 : .fab ∈ L) (h11 : .rings ∈ L)
    (h12 : .pair ∈ L) (h13 : .hub ∈ L) (b : Blk) (w : Requester) (have_ : Map StoreLine) (x0 : List Nat) :
    rest L (b.readLines w have_ x0).1 = rest L b := by
  induction x0 generalizing b have_ with
  | nil => rfl
  | cons l t ih =>
    simp only [Blk.readLines]
    split <;> simp [rest_readInt, *]

theorem rest_judgeLines (h0 : .regs ∈ L) (h1 : .aon ∈ L) (h2 : .pcs ∈ L) (h3 : .pool ∈ L) (h4 : .chans ∈ L) (h5 :
    .ext ∈ L) (h6 : .rings ∈ L) (b : Blk) (q part who : Nat) (h : Map StoreLine) (a n : Nat) :
    rest L (b.judgeLines q part who h a n).2 = rest L b := by
  unfold Blk.judgeLines
  dsimp only
  repeat' split
  all_goals simp only [rest_foldl, rest_thrPoison, *]

theorem rest_hostPartOf (h0 : .regs ∈ L) (h1 : .aon ∈ L) (h2 : .pcs ∈ L) (h3 : .pool ∈ L) (h4 : .chans ∈ L) (h5 :
    .ext ∈ L) (h6 : .rings ∈ L) (h7 : .hub ∈ L) (b : Blk) (x : Xfer) (q part who f pasid a n : Nat) (host :
    HostResult) :
    rest L (b.hostPartOf x q part who f pasid a n host).2 = rest L b := by
  unfold Blk.hostPartOf
  dsimp only
  repeat' split
  all_goals simp only [rest_foldl, rest_hostFetch, rest_thrPoison, *]

theorem rest_endAdmission (h0 : .aon ∈ L) (h1 : .work ∈ L) (b : Blk) (q : Nat) :
    rest L (b.endAdmission q) = rest L b := by
  simp [Blk.endAdmission, rest_aonAdd, rest_modThr, *]

theorem rest_recordLost (h0 : .regs ∈ L) (h1 : .aon ∈ L) (h2 : .pcs ∈ L) (h3 : .pool ∈ L) (h4 : .chans ∈ L) (h5 :
    .ext ∈ L) (h6 : .rings ∈ L) (b : Blk) (slot : Nat) (s : Sheaf) :
    rest L (b.recordLost slot s) = rest L b := by
  simp [Blk.recordLost, rest_flag, rest_log, *]

theorem rest_thrWrite (h0 : .regs ∈ L) (h1 : .dead ∈ L) (h2 : .pins ∈ L) (h3 : .fresh ∈ L) (h4 : .aon ∈ L) (h5 : .pcs
    ∈ L) (h6 : .pool ∈ L) (h7 : .chans ∈ L) (h8 : .ext ∈ L) (h9 : .coh ∈ L) (h10 : .fab ∈ L) (h11 : .rings ∈ L) (h12
    : .pair ∈ L) (h13 : .hub ∈ L) (b : Blk) (q part a : Nat) (bs : Bytes) :
    rest L (b.thrWrite q part a bs).2 = rest L b := by
  unfold Blk.thrWrite
  dsimp only
  repeat' split
  all_goals simp [rest_foldl, rest_foldl_fst, rest_foldl_snd, apply_ite (rest L), rest_writeInt, *]

theorem rest_thrBad (h0 : .coh ∈ L) (b : Blk) (q : Nat) (ls : List Nat) :
    rest L (b.thrBad q ls).2 = rest L b := by
  simp [Blk.thrBad, rest_with_coh, *]

theorem rest_notify (h0 : .regs ∈ L) (h1 : .fab ∈ L) (h2 : .hub ∈ L) (b : Blk) (q eid part : Nat) (event : Bytes) (m
    : Msg) :
    rest L (b.notify q eid part event m) = rest L b := by
  unfold Blk.notify
  split <;> simp [rest_sendOwn, rest_eventDeliver, *]

theorem rest_doneNotices (h0 : .regs ∈ L) (h1 : .fab ∈ L) (h2 : .hub ∈ L) (b : Blk) (slot : Nat) (s : Sheaf) (st :
    Nat) :
    rest L (b.doneNotices slot s st) = rest L b := by
  simp [Blk.doneNotices, rest_foldl, rest_notify, *]

theorem rest_endStep (h0 : .regs ∈ L) (h1 : .dead ∈ L) (h2 : .pins ∈ L) (h3 : .fresh ∈ L) (h4 : .aon ∈ L) (h5 : .pcs
    ∈ L) (h6 : .pool ∈ L) (h7 : .chans ∈ L) (h8 : .ext ∈ L) (h9 : .coh ∈ L) (h10 : .fab ∈ L) (h11 : .work ∈ L) (h12 :
    .rings ∈ L) (h13 : .pair ∈ L) (h14 : .hub ∈ L) (b : Blk) (slot : Nat) (x0 : Nat) :
    rest L (b.endStep slot x0) = rest L b := by
  induction x0 generalizing b with
  | zero => rfl
  | succ n ih =>
    simp only [Blk.endStep]
    split
    · rfl
    · split
      · rw [ih]
        split <;> split <;> simp [rest_modSheaf, rest_recordLost, rest_thrWrite, *]
      · split
        · rfl
        · rw [ih]
          split <;> split <;> simp [rest_modSheaf, rest_recordLost, rest_thrWrite, rest_thrBad, *]
      · split
        · rfl
        · split <;> simp [rest_with_work, rest_trace, rest_doneNotices, rest_recordLost, rest_thrBad, *]

theorem rest_checkEnd (h0 : .regs ∈ L) (h1 : .dead ∈ L) (h2 : .pins ∈ L) (h3 : .fresh ∈ L) (h4 : .aon ∈ L) (h5 : .pcs
    ∈ L) (h6 : .pool ∈ L) (h7 : .chans ∈ L) (h8 : .ext ∈ L) (h9 : .coh ∈ L) (h10 : .fab ∈ L) (h11 : .work ∈ L) (h12 :
    .rings ∈ L) (h13 : .pair ∈ L) (h14 : .hub ∈ L) (b : Blk) (slot : Nat) :
    rest L (b.checkEnd slot) = rest L b := by
  unfold Blk.checkEnd
  dsimp only
  repeat' split
  all_goals simp only [rest_foldl, rest_flag, rest_aonAdd, rest_dropPre, rest_modSheaf, rest_endStep, *]

theorem rest_endTask (h0 : .regs ∈ L) (h1 : .aon ∈ L) (h2 : .pcs ∈ L) (h3 : .pool ∈ L) (h4 : .chans ∈ L) (h5 : .ext ∈
    L) (h6 : .work ∈ L) (h7 : .rings ∈ L) (b : Blk) (slot i st addr at_ : Nat) (t : Tally) :
    rest L (b.endTask slot i st addr at_ t) = rest L b := by
  unfold Blk.endTask
  dsimp only
  repeat' split
  all_goals simp only [rest_foldl, rest_flag, rest_incr, rest_trace, rest_modSheaf, rest_modTask, *]

theorem rest_abortSheaf (h0 : .regs ∈ L) (h1 : .aon ∈ L) (h2 : .pcs ∈ L) (h3 : .pool ∈ L) (h4 : .chans ∈ L) (h5 :
    .ext ∈ L) (h6 : .coh ∈ L) (h7 : .work ∈ L) (h8 : .rings ∈ L) (b : Blk) (slot why : Nat) :
    rest L (b.abortSheaf slot why) = rest L b := by
  unfold Blk.abortSheaf
  split
  · rfl
  · split
    · rfl
    · dsimp only
      rw [rest_dropPre (by assumption) (by assumption) (by assumption) (by assumption)]
      rw [rest_foldl (fun b i => ?_), rest_foldl (fun b k => ?_)]
      · simp [rest_modSheaf, *]
      · split
        · split <;> simp [rest_cancelRun, *]
        · rfl
      · split
        · split
          · rfl
          · rfl
          · split <;> simp [rest_endTask, *]
          · simp [rest_endTask, *]
        · rfl

theorem rest_rereadPart (h0 : .regs ∈ L) (h1 : .dead ∈ L) (h2 : .pins ∈ L) (h3 : .fresh ∈ L) (h4 : .aon ∈ L) (h5 :
    .pcs ∈ L) (h6 : .pool ∈ L) (h7 : .chans ∈ L) (h8 : .ext ∈ L) (h9 : .coh ∈ L) (h10 : .fab ∈ L) (h11 : .rings ∈ L)
    (h12 : .pair ∈ L) (h13 : .hub ∈ L) (b : Blk) (slot task : Nat) (s : Sheaf) (have_ : Map StoreLine) (off n : Nat)
    (host : HostResult) :
    rest L (b.rereadPart slot task s have_ off n host).2.2 = rest L b := by
  unfold Blk.rereadPart
  dsimp only
  repeat' split
  all_goals simp only [rest_foldl, rest_readLines, rest_judgeLines, rest_hostPartOf, *]

theorem rest_thrEnd (h0 : .work ∈ L) (b : Blk) (slot i st addr : Nat) :
    rest L (b.thrEnd slot i st addr) = rest L b := by
  simp [Blk.thrEnd, rest_modThr, rest_modTask, *]

theorem rest_thrStart (h0 : .regs ∈ L) (h1 : .aon ∈ L) (h2 : .pcs ∈ L) (h3 : .pool ∈ L) (h4 : .chans ∈ L) (h5 : .ext
    ∈ L) (h6 : .rings ∈ L) (b : Blk) (slot i part : Nat) (t : TaskRt) :
    rest L (b.thrStart slot i part t) = rest L b := by
  simp [Blk.thrStart, rest_aonAdd, rest_event, rest_trace, *]

theorem rest_notices (h0 : .regs ∈ L) (h1 : .fab ∈ L) (h2 : .hub ∈ L) (b : Blk) (slot task : Nat) (s : Sheaf) (d :
    Desc) :
    rest L (b.notices slot task s d) = rest L b := by
  simp [Blk.notices, rest_foldl, rest_notify, *]

theorem rest_modMove (h0 : .hub ∈ L) (b : Blk) (f seq : Nat) (g : MoveRt → MoveRt) :
    rest L (b.modMove f seq g) = rest L b := by
  simp [Blk.modMove, rest_with_hub, *]

theorem rest_modDesc (h0 : .hub ∈ L) (b : Blk) (f seq i : Nat) (g : DescRt → DescRt) :
    rest L (b.modDesc f seq i g) = rest L b := by
  simp [Blk.modDesc, rest_modMove, *]

theorem rest_descMoved (h0 : .pcs ∈ L) (h1 : .hub ∈ L) (b : Blk) (m : MoveRt) (i n : Nat) (poison : Bool) :
    rest L (b.descMoved m i n poison) = rest L b := by
  simp [Blk.descMoved, rest_event, rest_modDesc, *]

theorem rest_setGuard (h0 : .sec ∈ L) (b : Blk) (i : Image) (bs : Bytes) :
    rest L (b.setGuard i bs) = rest L b := by
  unfold Blk.setGuard
  dsimp only
  repeat' split
  all_goals simp only [rest_foldl, rest_with_sec, *]

theorem rest_drawKeys (h0 : .fresh ∈ L) (h1 : .sec ∈ L) (b : Blk) (s : Struct) :
    rest L (b.drawKeys s) = rest L b := by
  unfold Blk.drawKeys
  refine (rest_foldl (fun x p => ?_) _ _).trans (rest_with_sec (by assumption) _ _)
  exact (rest_with_sec (by assumption) _ _).trans (rest_with_fresh (by assumption) _ _)

theorem rest_setRings (h0 : .rings ∈ L) (b : Blk) (t : TraceCfg) (all : Bool) :
    rest L (b.setRings t all) = rest L b := by
  simp [Blk.setRings, rest_with_rings, *]

theorem rest_strAnswer (h0 : .regs ∈ L) (h1 : .str ∈ L) (h2 : .hub ∈ L) (b : Blk) (c : CmdId) (st : Nat) (bad : Bool) :
    rest L (b.strAnswer c st bad) = rest L b := by
  unfold Blk.strAnswer
  dsimp only
  repeat' split
  all_goals simp only [rest_foldl, rest_with_str, rest_flag, rest_answerCmd, *]

theorem rest_markRevoked (h0 : .ext ∈ L) (b : Blk) (i who : Nat) :
    rest L (b.markRevoked i who) = rest L b := by
  simp [Blk.markRevoked, rest_modExt, *]

theorem rest_placeMarks (h0 : .ext ∈ L) (b : Blk) (i : Nat) (grants : List Nat) (whos : List Nat) :
    rest L (b.placeMarks i grants whos) = rest L b := by
  simp [Blk.placeMarks, rest_modExt, *]

theorem rest_cleanChanged (h0 : .pool ∈ L) (b : Blk) (old : Struct) :
    rest L (b.cleanChanged old) = rest L b := by
  simp [Blk.cleanChanged, rest_foldl, rest_queueClean, *]

theorem rest_newExt (h0 : .ext ∈ L) (b : Blk) (e : Nat × ExtEnt) :
    rest L (b.newExt e) = rest L b := by
  simp [Blk.newExt, rest_with_ext, *]

theorem rest_setPower (h0 : .regs ∈ L) (h1 : .pcs ∈ L) (h2 : .coh ∈ L) (h3 : .work ∈ L) (h4 : .pwr ∈ L) (b : Blk) (s
    m : Nat) :
    rest L (b.setPower s m) = rest L b := by
  simp [Blk.setPower, rest_with_pwr, rest_dropPre, *]

theorem rest_tracePower (h0 : .regs ∈ L) (h1 : .aon ∈ L) (h2 : .pcs ∈ L) (h3 : .pool ∈ L) (h4 : .chans ∈ L) (h5 :
    .ext ∈ L) (h6 : .rings ∈ L) (b : Blk) (event s m : Nat) :
    rest L (b.tracePower event s m) = rest L b := by
  simp [Blk.tracePower, rest_trace, *]

theorem rest_holdBegin (h0 : .pair ∈ L) (h1 : .pwr ∈ L) (b : Blk) :
    rest L (b.holdBegin) = rest L b := by
  simp [Blk.holdBegin, rest_with_pwr, rest_setPairPins, *]

theorem rest_dumpLose (h0 : .regs ∈ L) (h1 : .rings ∈ L) (b : Blk) :
    rest L (b.dumpLose) = rest L b := by
  unfold Blk.dumpLose
  dsimp only
  repeat' split
  all_goals simp only [rest_foldl, rest_with_rings, rest_flag, rest_incr, *]

theorem rest_dump (h0 : .regs ∈ L) (h1 : .aon ∈ L) (h2 : .pcs ∈ L) (h3 : .pool ∈ L) (h4 : .chans ∈ L) (h5 : .ext ∈ L)
    (h6 : .rings ∈ L) (b : Blk) (e : ExtEnt) (time : Nat) :
    rest L (b.dump e time) = rest L b := by
  unfold Blk.dump
  dsimp only
  repeat' split
  all_goals simp only [rest_foldl, rest_with_rings, rest_ringPut, rest_dumpLose, *]

theorem rest_answerZeroised (h0 : .regs ∈ L) (h1 : .hub ∈ L) (b : Blk) :
    rest L (b.answerZeroised) = rest L b := by
  simp [Blk.answerZeroised, rest_foldl, rest_answerCmd, *]

theorem rest_fieldWrite (h0 : .regs ∈ L) (b : Blk) (off : Nat) (v : Word) :
    rest L (b.fieldWrite off v) = rest L b := by
  simp [Blk.fieldWrite, rest_foldl, rest_setReg, *]

theorem rest_spdmSend (h0 : .sec ∈ L) (b : Blk) (via : SpdmVia) (r : SpdmRsp) :
    rest L (b.spdmSend via r) = rest L b := by
  simp [Blk.spdmSend, rest_with_sec, *]

end Sys2Proof.Proofs
end

/-! ## Cold and warm resets (R406, R407, R449) -/
section
namespace Sys2Proof.Proofs

open Sys2Proof.Machine

/-- What a reset sets among the registers, after all have gone back to their Reset values. -/
theorem reg_resetAll (b : Blk) (o : Otp) (f : Sfdp) (cause : Nat) (links : Tab Link) {off : Nat}
    (hpcie : off ≠ Reg.hubPcieStatus) (hcause : off ≠ Reg.pwrResetCause) (hvcore : off ≠ Reg.pwrVcore) :
    (b.resetAll o f cause links).reg off = regReset off := by
  unfold Blk.resetAll
  dsimp only
  rw [Blk.reg_setReg_ne _ _ _ _ hvcore, Blk.reg_setReg_ne _ _ _ _ hcause, Blk.reg_setReg_ne _ _ _ _ hpcie]
  rfl

theorem cause_resetAll (b : Blk) (o : Otp) (f : Sfdp) (cause : Nat) (links : Tab Link) :
    (b.resetAll o f cause links).reg Reg.pwrResetCause = BitVec.ofNat 32 cause := by
  unfold Blk.resetAll
  dsimp only
  rw [Blk.reg_setReg_ne _ _ _ _ (by decide), Blk.reg_setReg_self]

theorem afresh_resetAll (b : Blk) (o : Otp) (f : Sfdp) (cause : Nat) (links : Tab Link) :
    Afresh (b.resetAll o f cause links) o f cause where
  regs off hpcie hcause hvcore _ := reg_resetAll b o f cause links hpcie hcause hvcore
  cause := cause_resetAll b o f cause links
  notLoaded := ⟨rfl, rfl, rfl, rfl, rfl⟩
  pool := ⟨rfl, rfl, rfl⟩
  work := ⟨rfl, rfl, rfl, rfl⟩
  up := rfl
  otp := rfl
  bootId := length_fit 8 _
  noKeys := ⟨rfl, rfl, rfl, rfl, rfl⟩
  pairPins := ⟨rfl, rfl⟩

theorem aon_resetAll (b : Blk) (o : Otp) (f : Sfdp) (cause : Nat) (links : Tab Link) :
    (b.resetAll o f cause links).aon = if b.hub.out.isEmpty then b.aon else (b.aonAdd 231 b.hub.out.length).aon := rfl

theorem aon_aonAdd_ne (b : Blk) (i n : Nat) {j : Nat} (h : j ≠ i) :
    tget (fun _ => 0) (b.aonAdd i n).aon j = tget (fun _ => 0) b.aon j := by
  simp [Blk.aonAdd, tget_tmod_ne _ _ _ _ _ h]

/-- Everything that a warm reset keeps beside what `resetAll` leaves, before the boot chain runs. -/
def warmStart (b : Blk) (o : Otp) (f : Sfdp) (cause : WarmCause) : Blk :=
  let b1 := b.resetAll o f (if cause == .pin then 3 else 4) b.closeForReset
  let b2 : Blk := { b1 with
    sec.guard := b.sec.guard, sec.last := b.sec.last
    sec.meas := ((mget b.sec.meas 8).map (fun h => [(8, h)])).getD [], sec.debug := b.sec.debug
    sec.zeroised := b.sec.zeroised, sec.kek := if b.sec.zeroised then [] else b1.sec.kek
    str.locked := b.sec.guard.isSome
    pins.devFault := b1.pins.devFault || b.sec.zeroised
    pair.term := b.pair.term }
  if b.ideRequired then b2.flag Reg.secIdeCfg 0 else b2

/-- A warm reset is the boot chain from `warmStart`, and the loss of the device where the failed links cut a quadrant off. -/
theorem warmReset_eq {b : Blk} {o : Otp} {f : Sfdp} {m : Cells} {cause : WarmCause} (h : b.warmActs cause = true) :
    warmReset b o f m cause =
      let e := (((warmStart b o f cause).readCal m).boot m).stopPorts
      if e.d2dLost then e.loseDevice else e := by
  simp only [warmReset, h, Bool.not_true, Bool.false_eq_true, if_false]
  rfl

theorem afresh_flag_secIdeCfg {b : Blk} {o : Otp} {f : Sfdp} {cause : Nat} (h : Afresh b o f cause) :
    Afresh (b.flag Reg.secIdeCfg 0) o f cause where
  regs off h1 h2 h3 h4 := (Blk.reg_flag_ne b _ 0 off h4).trans (h.regs off h1 h2 h3 h4)
  cause := (Blk.reg_flag_ne b _ 0 _ (by decide)).trans h.cause
  notLoaded := h.notLoaded
  pool := h.pool
  work := h.work
  up := h.up
  otp := h.otp
  bootId := h.bootId
  noKeys := h.noKeys
  pairPins := h.pairPins

theorem afresh_warmStart (b : Blk) (o : Otp) (f : Sfdp) (cause : WarmCause) :
    Afresh (warmStart b o f cause) o f (if cause = .pin then 3 else 4) := by
  have hcause : (if cause == .pin then 3 else 4) = if cause = .pin then 3 else 4 := by cases cause <;> rfl
  have hall := afresh_resetAll b o f (if cause = .pin then 3 else 4) b.closeForReset
  unfold warmStart
  rw [hcause]
  dsimp only
  split
  · apply afresh_flag_secIdeCfg
    exact ⟨hall.regs, hall.cause, ⟨rfl, rfl, rfl, rfl, rfl⟩, hall.pool, hall.work, hall.up, hall.otp, hall.bootId,
      ⟨rfl, rfl, rfl, rfl, rfl⟩, ⟨rfl, rfl⟩⟩
  · exact ⟨hall.regs, hall.cause, ⟨rfl, rfl, rfl, rfl, rfl⟩, hall.pool, hall.work, hall.up, hall.otp, hall.bootId,
      ⟨rfl, rfl, rfl, rfl, rfl⟩, ⟨rfl, rfl⟩⟩

theorem ideRequired_warmStart (b : Blk) (o : Otp) (f : Sfdp) (cause : WarmCause) :
    (warmStart b o f cause).ideRequired = (b.ideRequired || (regReset Reg.secIdeCfg).getLsbD 0) := by
  have hreg (c : Nat) : (b.resetAll o f c b.closeForReset).reg Reg.secIdeCfg = regReset Reg.secIdeCfg :=
    reg_resetAll b o f c _ (by decide) (by decide) (by decide)
  unfold warmStart
  dsimp only
  cases hide : b.ideRequired with
  | true => simp [Blk.ideRequired]
  | false =>
    simp only [Bool.false_eq_true, if_false, Bool.false_or]
    exact congrArg (·.getLsbD 0) (hreg _)

/-- What a warm reset keeps, part by part. -/
theorem warmStart_keeps (b : Blk) (o : Otp) (f : Sfdp) (cause : WarmCause) :
    let w := warmStart b o f cause
    w.tb = b.tb ∧ w.frozen = b.frozen ∧ w.aon = (if b.hub.out.isEmpty then b.aon else (b.aonAdd 231 b.hub.out.length).aon) ∧
    w.pcs = [] ∧ w.fab.d2dFailed = b.fab.d2dFailed ∧ w.sec.guard = b.sec.guard ∧ w.sec.last = b.sec.last ∧
    w.sec.debug = b.sec.debug ∧ w.sec.zeroised = b.sec.zeroised ∧ w.pair.term = b.pair.term ∧ w.pwr.vcore = b.pwr.vcore ∧
    w.pins.straps = b.pins.straps := by
  unfold warmStart
  cases cause <;> dsimp only <;> split <;>
    exact ⟨rfl, rfl, rfl, rfl, rfl, rfl, rfl, rfl, rfl, rfl, rfl, rfl⟩

/-- The block from which a cold reset starts `resetAll`: the timebase and the counters at 0, the straps sampled. -/
def coldStart (b : Blk) (cause : ColdCause) : Blk :=
  let d := b.draw
  { d.2 with
    tb := 0, frozen := false, aon := [], hub.out := []
    pins := { b.pins with straps := Config.straps d.1 % 4 }
    pwr := { b.pwr with vcore := 750, temps := [], scanAt := none, warn := false, trip := if cause == .powerUp then false else b.pwr.trip } }

/-- The cause of a cold reset that PWR_RESET_CAUSE shows. -/
def coldCode (b : Blk) : ColdCause → Nat
  | .powerUp => if b.pwr.on then 1 else 5
  | .resetN => 2

theorem coldReset_eq {b : Blk} {o : Otp} {f : Sfdp} {m : Cells} {cause : ColdCause} (h : b.coldActs cause = true) :
    coldReset b o f m cause = (((((coldStart b cause).resetAll o f (coldCode b cause) []).readCal m).boot m).stopPorts) := by
  simp only [coldReset, h, Bool.not_true, Bool.false_eq_true, if_false]
  cases cause <;> rfl

/-- The cause of a cold reset is none of a warm one's, which keep the failed links. -/
theorem coldCode_ne (b : Blk) (cause : ColdCause) : coldCode b cause ≠ 3 ∧ coldCode b cause ≠ 4 := by
  cases cause
  · by_cases hon : b.pwr.on = true <;> simp [coldCode, hon]
  · simp [coldCode]

/-- Settles O9: a cold reset is `resetAll` on `coldStart`, a warm reset begins at `warmStart`; the boot chain follows both. -/
theorem resetsStartAnew : Obligations.ResetsStartAnew := by
  refine ⟨?_, ?_, ?_, ?_⟩
  · intro cause s hacts
    obtain ⟨hne3, hne4⟩ := coldCode_ne s.blk cause
    have hfail : ((coldStart s.blk cause).resetAll s.nv.otp s.nv.sfdp (coldCode s.blk cause) []).fab.d2dFailed = [] := by
      simp [Blk.resetAll, hne3, hne4]
    refine ⟨_, (coldStart s.blk cause).resetAll s.nv.otp s.nv.sfdp (coldCode s.blk cause) [], coldCode s.blk cause, rfl,
      coldReset_eq hacts, afresh_resetAll _ _ _ _ _, rfl, rfl, rfl, rfl, rfl, rfl, rfl, rfl, rfl, hfail,
      reg_resetAll _ _ _ _ _ (by decide) (by decide) (by decide), by cases cause <;> rfl, rfl, ?_⟩
    simp only [coldFlash, hacts, if_true]
  · intro cause s hacts
    have hexec : exec (.coldReset cause) s = .next { s with
      blk := coldReset s.blk s.nv.otp s.nv.sfdp (coldFlash s.blk s.nv.flash cause) cause
      nv.flash := coldFlash s.blk s.nv.flash cause } := rfl
    simp [hexec, coldReset, coldFlash, hacts]
  · intro cause s hacts
    obtain ⟨htb, hfrozen, haon, hpcs, hfail, hguard, hlast, hdebug, hzero, hterm, hvcore, hstraps⟩ :=
      warmStart_keeps s.blk s.nv.otp s.nv.sfdp cause
    refine ⟨_, warmStart s.blk s.nv.otp s.nv.sfdp cause, _, rfl, rfl, warmReset_eq hacts, afresh_warmStart _ _ _ _,
      htb, hfrozen, fun i hi => ?_, fun hout => ?_, hpcs, hfail, hguard, hlast, hdebug, hzero, hterm, hvcore,
      ideRequired_warmStart _ _ _ _, hstraps, ?_⟩
    · rw [haon]
      split
      · rfl
      · exact aon_aonAdd_ne _ _ _ hi
    · rw [haon, hout, List.isEmpty_nil, if_pos rfl]
    · simp only [warmFlash, hacts, if_true]
  · intro cause s hacts
    have hexec : exec (.warmReset cause) s = .next { s with
      blk := warmReset s.blk s.nv.otp s.nv.sfdp (warmFlash s.blk s.nv.flash cause) cause
      nv.flash := warmFlash s.blk s.nv.flash cause } := rfl
    simp [hexec, warmReset, warmFlash, hacts]

end Sys2Proof.Proofs
end

/-! ## Training and tests at reset, and the zeroing of reset (R80, R82, R348, R352, R408) -/
section
namespace Sys2Proof.Proofs

open Sys2Proof.Machine

/-! ### A channel that is lost -/

/-- A lost channel before its log record: its state, what its stripes hold of it, and its error flag (R348, R349). -/
def lostChannel (b : Blk) (c cause : Nat) : Blk :=
  let b1 := b.modHusk c (fun h => { h with lost := true, up := false, cause := cause, rebuilding := false
                                           void := if h.rebuilding then h.void.map (max h.cursor) else none })
  let rows := if b.mode < 2 then [] else ((b.pool.badChecks.filter (fun e => (b.stookOf c).1.contains (e.1 % 24))).map (fun e => e.1 / 24)).dedup
  ((rows.foldl (fun b r => b.settleRow c r []) b1).markVoid c).flag (Reg.hskErr c) 7

theorem loseChannel_eq {b : Blk} {c : Nat} (cause : Nat) (h : (b.husk c).lost = false) :
    b.loseChannel c cause = (lostChannel b c cause).log 0x10 (36 + c) 0 c cause := by
  simp [Blk.loseChannel, h, lostChannel]

theorem onlyBlk_lostChannel (b : Blk) (c cause : Nat) : OnlyBlk [.chans, .regs, .pool] b (lostChannel b c cause) := by
  apply onlyBlk_of_rest
  simp [lostChannel, rest_flag, rest_markVoid, rest_foldl, rest_settleRow, rest_modHusk]

theorem markVoid_of_mode {b : Blk} (c : Nat) (h : b.mode < 2) : b.markVoid c = b := if_pos h

theorem pool_lostChannel {b : Blk} (c cause : Nat) (h : b.mode < 2) : (lostChannel b c cause).pool = b.pool := by
  unfold lostChannel
  dsimp only
  rw [if_pos h, List.foldl_nil, markVoid_of_mode c (by exact h)]
  rfl

theorem husk_settleRow (b : Blk) (c line : Nat) (ks : List Nat) (d : Nat) : (b.settleRow c line ks).husk d = b.husk d := by
  have hchans : (b.settleRow c line ks).chans = b.chans :=
    onlyBlk_of_rest (L := [.pool]) (rest_settleRow (by simp) b c line ks) .chans (by simp)
  rw [Blk.husk, hchans, Blk.husk]

theorem husk_settleRows (b : Blk) (c : Nat) (rows : List Nat) (d : Nat) :
    (rows.foldl (fun b r => b.settleRow c r []) b).husk d = b.husk d := by
  induction rows generalizing b with
  | nil => rfl
  | cons r t ih => rw [List.foldl_cons, ih, husk_settleRow]

/-- Marking void rows changes nothing of a channel but its void mark. -/
theorem husk_markVoid (b : Blk) (c d : Nat) : ∃ v, (b.markVoid c).husk d = { b.husk d with void := v } := by
  have hmark (t : Nat) (ks : List Nat) (x : Blk) :
      ∃ v, (ks.foldl (fun b k => b.modHusk k (fun h => { h with void := some (min t (h.void.getD t)) })) x).husk d =
        { x.husk d with void := v } := by
    induction ks generalizing x with
    | nil => exact ⟨_, rfl⟩
    | cons k ks ih =>
      obtain ⟨v, hv⟩ := ih (x.modHusk k fun h => { h with void := some (min t (h.void.getD t)) })
      refine ⟨v, ?_⟩
      rw [List.foldl_cons, hv]
      by_cases hk : d = k
      · rw [hk, Blk.husk_modHusk_self]
      · rw [husk_modHusk_ne _ _ hk]
  unfold Blk.markVoid
  split
  · exact ⟨_, rfl⟩
  · split
    · exact ⟨_, rfl⟩
    · exact hmark _ _ b

theorem husk_lostChannel (b : Blk) (c cause : Nat) :
    (lostChannel b c cause).husk c = { b.husk c with
      lost := true, up := false, cause := cause, rebuilding := false, void := ((lostChannel b c cause).husk c).void } := by
  unfold lostChannel
  dsimp only
  obtain ⟨v, hv⟩ := husk_markVoid ((if b.mode < 2 then [] else ((b.pool.badChecks.filter (fun e =>
    (b.stookOf c).1.contains (e.1 % 24))).map (fun e => e.1 / 24)).dedup).foldl (fun b r => b.settleRow c r [])
    (b.modHusk c (fun h => { h with lost := true, up := false, cause := cause, rebuilding := false
                                    void := if h.rebuilding then h.void.map (max h.cursor) else none }))) c c
  rw [husk_settleRows, Blk.husk_modHusk_self] at hv
  rw [show ∀ x : Blk, (x.flag (Reg.hskErr c) 7).husk c = x.husk c from fun _ => rfl, hv]

theorem reg_lostChannel (b : Blk) (c cause : Nat) :
    (lostChannel b c cause).reg (Reg.hskErr c) = b.reg (Reg.hskErr c) ||| 0x80#32 := by
  unfold lostChannel
  dsimp only
  rw [Blk.reg_flag_self]
  congr 1
  have hregs := onlyBlk_of_rest (L := [.chans, .pool]) (x := b) (y := ((if b.mode < 2 then [] else
    ((b.pool.badChecks.filter (fun e => (b.stookOf c).1.contains (e.1 % 24))).map (fun e => e.1 / 24)).dedup).foldl
    (fun b r => b.settleRow c r []) (b.modHusk c (fun h => { h with
      lost := true, up := false, cause := cause, rebuilding := false
      void := if h.rebuilding then h.void.map (max h.cursor) else none }))).markVoid c)
    (by simp [rest_markVoid, rest_foldl, rest_settleRow, rest_modHusk]) .regs (by simp)
  exact congrArg (tget regReset · _) hregs

/-! ### The end of a channel's training -/

/-- A channel whose training has ended, before it is judged. -/
def trainedChannel (b : Blk) (c : Nat) (ds : List Dimm) : Blk :=
  b.modHusk c (fun h => { h with dimms := ds, trained := true, up := true, refreshAt := refreshAfter c b.tb, scrubAt := b.tb })

/-- Do the DIMMs of a channel fall short of a structure that is loaded: of its capacity or of its speed (R80). -/
def shortFor (b : Blk) (ds : List Dimm) : Bool :=
  b.str.loaded && (dimmsGib ds < b.pool.capGib || dimmsMts ds < speedBins.getD b.pool.speed 4800)

theorem huskTrainingDone_eq {b : Blk} {c : Nat} {ds : List Dimm} {trained : Bool} (hup : b.dead = false)
    (hlost : (b.husk c).lost = false) (htrained : (b.husk c).trained = false) :
    huskTrainingDone b c ds trained =
      (if trained && dimmsOk ds && !shortFor b ds then trainedChannel b c ds
        else (trainedChannel b c ds).loseChannel c 1).bootLoadNow := by
  simp [huskTrainingDone, hup, hlost, htrained, shortFor, trainedChannel]

theorem onlyBlk_trainedChannel (b : Blk) (c : Nat) (ds : List Dimm) : OnlyBlk [.chans] b (trainedChannel b c ds) := by
  simp [onlyBlk_iff, trainedChannel, Blk.modHusk]

theorem husk_trainedChannel (b : Blk) (c : Nat) (ds : List Dimm) :
    (trainedChannel b c ds).husk c =
      { b.husk c with dimms := ds, trained := true, up := true, refreshAt := refreshAfter c b.tb, scrubAt := b.tb } :=
  Blk.husk_modHusk_self b c _

/-! ### Zeroing -/

theorem onlyBlk_putHusk (b : Blk) (l : Nat) (bs : Bytes) (m : LineMeta) : OnlyBlk [.pool] b (b.putHusk l bs m) :=
  onlyBlk_of_rest (rest_putHusk (by simp) b l bs m)

theorem takesA_of_aliveA {b : Blk} {l : Nat} (h : b.aliveA l = true) : b.takesA l = true := by
  unfold Blk.takesA
  unfold Blk.aliveA at h
  dsimp only at h
  split at h
  · next hmode => rw [if_pos hmode, h]
  · next hmode =>
    rw [if_neg hmode]
    exact ((Bool.and_eq_true _ _).mp h).1

/-- A line zeroed on the Husk tier by INIT_ZEROING_LINE: its Husk copies, its frame where its granule has one, and the count of both. -/
def zeroedHusk (b : Blk) (g n : Nat) : Blk :=
  let b0 := (b.zeroHusk (lineOfGran g + n)).huskOps 2 0 (b.zeroChans (fun _ => true) (lineOfGran g + n))
  if mhas b0.pool.frames g then b0.zeroGrain (lineOfGran g + n) else b0

theorem onlyBlk_zeroedHusk (b : Blk) (g n : Nat) : OnlyBlk [.pool, .chans, .aon, .pcs] b (zeroedHusk b g n) := by
  apply onlyBlk_of_rest
  unfold zeroedHusk
  dsimp only
  split <;> simp [Blk.zeroHusk, rest_zeroGrain, rest_huskOps, rest_putHusk]

theorem zeroedHusk_copyA (b : Blk) (g n : Nat) :
    (zeroedHusk b g n).copyBytes .huskA = (b.zeroHusk (lineOfGran g + n)).copyBytes .huskA ∧
      (zeroedHusk b g n).copyMeta .huskA = (b.zeroHusk (lineOfGran g + n)).copyMeta .huskA := by
  have hops := sameLines_huskOps (b.zeroHusk (lineOfGran g + n)) 2 0 (b.zeroChans (fun _ => true) (lineOfGran g + n))
  unfold zeroedHusk
  dsimp only
  split
  · have hcount (x : Blk) (l : Nat) := sameLines_countGrain (x.putCopy .grain l (zeros 128) {}) l 2 0
    constructor <;> funext k
    · rw [Blk.zeroGrain, copyBytes_congr (hcount _ _), copyBytes_putCopy, if_neg (by simp), copyBytes_congr hops]
    · rw [Blk.zeroGrain, copyMeta_congr (hcount _ _), copyMeta_putCopy, if_neg (by simp), copyMeta_congr hops]
  · constructor <;> funext k
    · rw [copyBytes_congr hops]
    · rw [copyMeta_congr hops]

theorem zeroGrain_copy (b : Blk) (l : Nat) :
    (b.zeroGrain l).copyBytes .grain l = zeros 128 ∧ (b.zeroGrain l).copyMeta .grain l = {} := by
  have hcount := sameLines_countGrain (b.putCopy .grain l (zeros 128) {}) l 2 0
  constructor
  · rw [Blk.zeroGrain, copyBytes_congr hcount, copyBytes_putCopy, if_pos ⟨rfl, rfl⟩, fit_of_length (length_zeros 128)]
  · rw [Blk.zeroGrain, copyMeta_congr hcount, copyMeta_putCopy, if_pos ⟨rfl, rfl⟩]
    rfl

theorem zeroHusk_copyA {b : Blk} {l : Nat} (h : b.aliveA l = true) :
    (b.zeroHusk l).copyBytes .huskA l = zeros 128 ∧ (b.zeroHusk l).copyMeta .huskA l = {} := by
  have hput : huskTakes b l .huskA = true ∧ l = l := ⟨takesA_of_aliveA h, rfl⟩
  constructor
  · rw [Blk.zeroHusk, copyBytes_putHusk, if_pos hput, fit_of_length (length_zeros 128)]
  · rw [Blk.zeroHusk, copyMeta_putHusk, if_pos hput]

/-- The pool with the zeroing of a quadrant's tier moved on. -/
def zeroMoved (b : Blk) (k g n : Nat) : Blk := { b with pool.zeroCur := mput b.pool.zeroCur k (g, n) }

@[simp] theorem zeroCur_zeroMoved (b : Blk) (k g n : Nat) : mget (zeroMoved b k g n).pool.zeroCur k = some (g, n) :=
  mget_mput_self _ _ _

@[simp] theorem copyBytes_zeroMoved (b : Blk) (k g n : Nat) (c : Copy) (l : Nat) :
    (zeroMoved b k g n).copyBytes c l = b.copyBytes c l := by cases c <;> rfl

@[simp] theorem copyMeta_zeroMoved (b : Blk) (k g n : Nat) (c : Copy) (l : Nat) :
    (zeroMoved b k g n).copyMeta c l = b.copyMeta c l := by cases c <;> rfl

theorem rest_zeroMoved {L : List Region} (h : .pool ∈ L) (b : Blk) (k g n : Nat) : rest L (zeroMoved b k g n) = rest L b :=
  rest_with_pool h b _

theorem zeroing_runs {b : Blk} (hup : b.dead = false) (hon : b.pool.zeroOn = true) (hawake : b.asleep = false)
    (htrained : b.allTrained = true) : (b.dead || !b.pool.zeroOn || b.asleep || !b.allTrained) = false := by
  simp [hup, hon, hawake, htrained]

theorem initZeroingLine_husk {b : Blk} {q g n : Nat} (hrun : (b.dead || !b.pool.zeroOn || b.asleep || !b.allTrained) = false)
    (hcur : mget b.pool.zeroCur q = some (g, n)) (hn : n + 1 < 16384) :
    initZeroingLine b q .husk = zeroMoved (zeroedHusk b g n) q g (n + 1) := by
  simp [initZeroingLine, hrun, hcur, hn, zeroMoved, zeroedHusk]

theorem initZeroingLine_grain {b : Blk} {q f n g : Nat} (hrun : (b.dead || !b.pool.zeroOn || b.asleep || !b.allTrained) = false)
    (hcur : mget b.pool.zeroCur (4 + q) = some (f, n)) (hn : n + 1 < 16384) (hg : b.granInFrame q f = some g) :
    initZeroingLine b q .grain = zeroMoved (b.zeroGrain (lineOfGran g + n)) (4 + q) f (n + 1) := by
  simp [initZeroingLine, hrun, hcur, hn, hg, zeroMoved]

theorem mem_with1 {α : Type} [DecidableEq α] (xs : List α) (a : α) : a ∈ with1 xs a := by
  unfold with1
  split <;> simp [*]

/-- Settles O12: a channel's training ends in `trainedChannel` or, from there, in `lostChannel`; a zeroed line is written in the
copies of its tier. -/
theorem trainingAndZeroingBringThePoolUp : Obligations.TrainingAndZeroingBringThePoolUp := by
  refine ⟨?_, ?_, ?_, ?_, ?_, ?_, ?_⟩
  · intro c ds s hup htrained hlost hok hfits
    have hshort : shortFor s.blk ds = false := by
      simp only [shortFor, Bool.and_eq_false_iff, Bool.or_eq_false_iff, decide_eq_false_iff_not, Nat.not_lt]
      cases hload : s.blk.str.loaded with
      | false => exact .inl rfl
      | true => exact .inr (hfits hload)
    have hgo : (true && dimmsOk ds && !shortFor s.blk ds) = true := by simp [hok, hshort]
    refine ⟨trainedChannel s.blk c ds, onlyBlk_trainedChannel _ _ _, fun d hd => husk_modHusk_ne _ _ hd,
      husk_trainedChannel _ _ _, gives_of_live (f := fun b => huskTrainingDone b c ds true) rfl hup ?_, fun hboot => ?_⟩
    · rw [huskTrainingDone_eq hup hlost htrained, if_pos hgo]
    · have hboot' : (trainedChannel s.blk c ds).str.boot = none := hboot
      rw [Blk.bootLoadNow, hboot']
  · intro c ds trained s hup htrained hlost hbad
    have hstop : (trained && dimmsOk ds && !shortFor s.blk ds) = false := by
      obtain h | h | ⟨hload, hless⟩ := hbad
      · simp [h]
      · simp [h]
      · have : shortFor s.blk ds = true := by simpa [shortFor, hload] using hless
        simp [this]
    have hopen : ((trainedChannel s.blk c ds).husk c).lost = false := by rw [husk_trainedChannel]; exact hlost
    refine ⟨lostChannel (trainedChannel s.blk c ds) c 1, ?_, ?_, fun hmode => pool_lostChannel c 1 hmode, ?_,
      gives_of_live (f := fun b => huskTrainingDone b c ds trained) rfl hup ?_⟩
    · rw [husk_lostChannel, husk_trainedChannel]
    · exact onlyBlk_trans (onlyBlk_mono (by simp) (onlyBlk_trainedChannel s.blk c ds)) (onlyBlk_lostChannel _ _ _)
    · exact reg_lostChannel _ _ _
    · rw [huskTrainingDone_eq hup hlost htrained, hstop, if_neg Bool.false_ne_true, loseChannel_eq 1 hopen]
  · intro c ds s hup htrained hlost
    refine ⟨stays_of_live (f := fun b => huskTrainingDone b c ds true) rfl fun _ => by simp [huskTrainingDone, htrained],
      lostChannel s.blk c 5, husk_lostChannel _ _ _, onlyBlk_lostChannel _ _ _, pool_lostChannel c 5, reg_lostChannel _ _ _,
      gives_of_live (f := fun b => huskTrainingDone b c ds false) rfl hup ?_⟩
    rw [← loseChannel_eq 5 hlost]
    simp [huskTrainingDone, hup, hlost, htrained]
  · intro l s hup hnew
    constructor
    · refine does_of_live (f := fun b => grainLayerTestDone b l true) rfl hup ⟨only_of_blk ?_, ?_, ?_⟩
      all_goals simp [grainLayerTestDone, hup, hnew, onlyBlk_iff, mem_with1]
    · refine does_of_live (f := fun b => grainLayerTestDone b l false) rfl hup ⟨only_of_blk ?_, ?_, ?_, ?_⟩
      all_goals simp [grainLayerTestDone, hup, hnew, Blk.failLayer, Blk.loseDevice, onlyBlk_iff, without]
  · intro q s g n hup hon hawake htrained hcur hn
    have hline := initZeroingLine_husk (zeroing_runs hup hon hawake htrained) hcur hn
    refine does_of_live (f := fun b => initZeroingLine b q .husk) rfl hup ?_
    simp only [hline, zeroCur_zeroMoved, copyBytes_zeroMoved, copyMeta_zeroMoved, true_and]
    obtain ⟨hbytes, hmeta⟩ := zeroedHusk_copyA s.blk g n
    refine ⟨only_of_blk (onlyBlk_of_rest ?_), fun halive => ?_⟩
    · rw [rest_zeroMoved (by simp), rest_of_onlyBlk (onlyBlk_zeroedHusk _ _ _)]
    · rw [hbytes, hmeta]
      exact zeroHusk_copyA halive
  · intro q s f n g hup hon hawake htrained hcur hn hg
    have hline := initZeroingLine_grain (zeroing_runs hup hon hawake htrained) hcur hn hg
    refine does_of_live (f := fun b => initZeroingLine b q .grain) rfl hup ?_
    simp only [hline, zeroCur_zeroMoved, copyBytes_zeroMoved, copyMeta_zeroMoved, true_and]
    refine ⟨only_of_blk (onlyBlk_of_rest ?_), zeroGrain_copy _ _⟩
    rw [rest_zeroMoved (by simp), rest_zeroGrain (by simp) (by simp) (by simp)]
  · intro q t s hasleep
    exact stays_of_live (f := fun b => initZeroingLine b q t) rfl fun _ => by simp [initZeroingLine, hasleep]

end Sys2Proof.Proofs
end

/-! ## What loops keep, and the parts that a frame keeps -/
section
namespace Sys2Proof.Proofs

open Sys2Proof.Machine

/-! A part of the block, or a part of such a part, that every step of a loop keeps is kept by the loop. -/

theorem keeps_foldl {α γ : Type} (P : Blk → γ) {f : Blk → α → Blk} (h : ∀ x a, P (f x a) = P x) (as : List α) (b : Blk) :
    P (as.foldl f b) = P b := by
  induction as generalizing b with
  | nil => rfl
  | cons a t ih => rw [List.foldl_cons, ih, h]

theorem keeps_foldl_fst {α β γ : Type} (P : Blk → γ) {f : Blk × β → α → Blk × β} (h : ∀ x a, P (f x a).1 = P x.1)
    (as : List α) (x : Blk × β) : P (as.foldl f x).1 = P x.1 := by
  induction as generalizing x with
  | nil => rfl
  | cons a t ih => rw [List.foldl_cons, ih, h]

theorem keeps_foldl_snd {α β γ : Type} (P : Blk → γ) {f : β × Blk → α → β × Blk} (h : ∀ x a, P (f x a).2 = P x.2)
    (as : List α) (x : β × Blk) : P (as.foldl f x).2 = P x.2 := by
  induction as generalizing x with
  | nil => rfl
  | cons a t ih => rw [List.foldl_cons, ih, h]

/-! Blocks that are the same but for the parts L have the same other parts. -/

theorem regs_of_rest {L : List Region} {x y : Blk} (h : rest L x = rest L y) (hp : .regs ∉ L) : x.regs = y.regs := by
  simpa [rest, hp] using congrArg Blk.regs h

theorem dead_of_rest {L : List Region} {x y : Blk} (h : rest L x = rest L y) (hp : .dead ∉ L) : x.dead = y.dead := by
  simpa [rest, hp] using congrArg Blk.dead h

theorem pins_of_rest {L : List Region} {x y : Blk} (h : rest L x = rest L y) (hp : .pins ∉ L) : x.pins = y.pins := by
  simpa [rest, hp] using congrArg Blk.pins h

theorem tb_of_rest {L : List Region} {x y : Blk} (h : rest L x = rest L y) (hp : .tb ∉ L) : x.tb = y.tb := by
  simpa [rest, hp] using congrArg Blk.tb h

theorem frozen_of_rest {L : List Region} {x y : Blk} (h : rest L x = rest L y) (hp : .frozen ∉ L) : x.frozen = y.frozen := by
  simpa [rest, hp] using congrArg Blk.frozen h

theorem fresh_of_rest {L : List Region} {x y : Blk} (h : rest L x = rest L y) (hp : .fresh ∉ L) : x.fresh = y.fresh := by
  simpa [rest, hp] using congrArg Blk.fresh h

theorem aon_of_rest {L : List Region} {x y : Blk} (h : rest L x = rest L y) (hp : .aon ∉ L) : x.aon = y.aon := by
  simpa [rest, hp] using congrArg Blk.aon h

theorem pcs_of_rest {L : List Region} {x y : Blk} (h : rest L x = rest L y) (hp : .pcs ∉ L) : x.pcs = y.pcs := by
  simpa [rest, hp] using congrArg Blk.pcs h

theorem str_of_rest {L : List Region} {x y : Blk} (h : rest L x = rest L y) (hp : .str ∉ L) : x.str = y.str := by
  simpa [rest, hp] using congrArg Blk.str h

theorem pool_of_rest {L : List Region} {x y : Blk} (h : rest L x = rest L y) (hp : .pool ∉ L) : x.pool = y.pool := by
  simpa [rest, hp] using congrArg Blk.pool h

theorem chans_of_rest {L : List Region} {x y : Blk} (h : rest L x = rest L y) (hp : .chans ∉ L) : x.chans = y.chans := by
  simpa [rest, hp] using congrArg Blk.chans h

theorem ext_of_rest {L : List Region} {x y : Blk} (h : rest L x = rest L y) (hp : .ext ∉ L) : x.ext = y.ext := by
  simpa [rest, hp] using congrArg Blk.ext h

theorem coh_of_rest {L : List Region} {x y : Blk} (h : rest L x = rest L y) (hp : .coh ∉ L) : x.coh = y.coh := by
  simpa [rest, hp] using congrArg Blk.coh h

theorem fab_of_rest {L : List Region} {x y : Blk} (h : rest L x = rest L y) (hp : .fab ∉ L) : x.fab = y.fab := by
  simpa [rest, hp] using congrArg Blk.fab h

theorem traf_of_rest {L : List Region} {x y : Blk} (h : rest L x = rest L y) (hp : .traf ∉ L) : x.traf = y.traf := by
  simpa [rest, hp] using congrArg Blk.traf h

theorem work_of_rest {L : List Region} {x y : Blk} (h : rest L x = rest L y) (hp : .work ∉ L) : x.work = y.work := by
  simpa [rest, hp] using congrArg Blk.work h

theorem rings_of_rest {L : List Region} {x y : Blk} (h : rest L x = rest L y) (hp : .rings ∉ L) : x.rings = y.rings := by
  simpa [rest, hp] using congrArg Blk.rings h

theorem pair_of_rest {L : List Region} {x y : Blk} (h : rest L x = rest L y) (hp : .pair ∉ L) : x.pair = y.pair := by
  simpa [rest, hp] using congrArg Blk.pair h

theorem hub_of_rest {L : List Region} {x y : Blk} (h : rest L x = rest L y) (hp : .hub ∉ L) : x.hub = y.hub := by
  simpa [rest, hp] using congrArg Blk.hub h

theorem mgmt_of_rest {L : List Region} {x y : Blk} (h : rest L x = rest L y) (hp : .mgmt ∉ L) : x.mgmt = y.mgmt := by
  simpa [rest, hp] using congrArg Blk.mgmt h

theorem sec_of_rest {L : List Region} {x y : Blk} (h : rest L x = rest L y) (hp : .sec ∉ L) : x.sec = y.sec := by
  simpa [rest, hp] using congrArg Blk.sec h

theorem pwr_of_rest {L : List Region} {x y : Blk} (h : rest L x = rest L y) (hp : .pwr ∉ L) : x.pwr = y.pwr := by
  simpa [rest, hp] using congrArg Blk.pwr h

/-! Counters saturate. -/

theorem toNat_reg_count (b : Blk) (off n : Nat) : ((b.count off n).reg off).toNat = min ((b.reg off).toNat + n) 0xFFFFFFFF := by
  simp only [Blk.count, Blk.reg_setReg_self, BitVec.toNat_ofNat]
  omega

theorem toNat_reg_incr (b : Blk) (off : Nat) : ((b.incr off).reg off).toNat = min ((b.reg off).toNat + 1) 0xFFFFFFFF :=
  toNat_reg_count b off 1

theorem reg_congr {x y : Blk} (h : x.regs = y.regs) (off : Nat) : x.reg off = y.reg off := by
  simp [Blk.reg, h]

theorem reg_count_ne (b : Blk) {off o : Nat} (n : Nat) (h : o ≠ off) : (b.count off n).reg o = b.reg o :=
  Blk.reg_setReg_ne b off o _ h

theorem reg_incr_ne (b : Blk) {off o : Nat} (h : o ≠ off) : (b.incr off).reg o = b.reg o := reg_count_ne b 1 h

end Sys2Proof.Proofs
end

/-! ## Commands in progress

How a command of a window runs and ends: what its executor does is done to the block, its answer stands in its slot,
and it is taken off the list. -/
section
namespace Sys2Proof.Proofs

open Sys2Proof.Machine

theorem mgmtCmd_of_runs {b : Blk} {c : CmdId} {op : Nat} {r : CmdRec} (h : MgmtRuns b c op r) (go : CmdRec → Blk → Blk) :
    b.mgmtCmd c op go = go r b := by
  obtain ⟨hup, hacc, hworks, hfound, hcode, hturn, -⟩ := h
  simp [Blk.mgmtCmd, hfound, hup, hacc, hworks, hcode, hturn]

theorem hubCmd_of_runs {b : Blk} {c : CmdId} {op : Nat} {r : CmdRec} (h : HubRuns b c op r) (go : CmdRec → Blk → Blk) :
    b.hubCmd c op go = go r b := by
  obtain ⟨hup, hfound, hcode, -⟩ := h
  simp [Blk.hubCmd, hfound, hup, hcode]

theorem cmd_congr {x y : Blk} (h : x.hub.inProg = y.hub.inProg) (c : CmdId) : x.cmd c = y.cmd c := by
  simp [Blk.cmd, h]

@[simp] theorem inProg_modWin (b : Blk) (f : Nat) (g : Win → Win) : (b.modWin f g).hub.inProg = b.hub.inProg := rfl

@[simp] theorem inProg_pcie (b : Blk) (x : PcieOut) : (b.pcie x).hub.inProg = b.hub.inProg := by
  unfold Blk.pcie
  split <;> rfl

@[simp] theorem inProg_setReg (b : Blk) (off : Nat) (v : Word) : (b.setReg off v).hub.inProg = b.hub.inProg := rfl

@[simp] theorem inProg_incr (b : Blk) (off : Nat) : (b.incr off).hub.inProg = b.hub.inProg := rfl

@[simp] theorem inProg_mirrorOut (b : Blk) (f base off : Nat) (bs : Bytes) :
    (b.mirrorOut f base off bs).hub.inProg = b.hub.inProg := by
  unfold Blk.mirrorOut
  split <;> simp

@[simp] theorem inProg_msix (b : Blk) (f : Nat) (vec : Option Nat) : (b.msix f vec).hub.inProg = b.hub.inProg := by
  unfold Blk.msix
  split
  · rfl
  · split <;> simp

@[simp] theorem inProg_answerRec (b : Blk) (r : CmdRec) (st : Nat) (res : Bytes) :
    (b.answerRec r st res).hub.inProg = b.hub.inProg := by
  simp only [Blk.answerRec]
  split <;> split <;> simp

theorem inProg_answerCmd {b : Blk} {c : CmdId} {r : CmdRec} (h : b.cmd c = some r) (st : Nat) (res : Bytes) :
    (b.answerCmd c st res).hub.inProg = b.hub.inProg.eraseP (fun x => x.is c) := by
  simp only [Blk.answerCmd, h]
  split <;> simp [Blk.dropCmd]

/-- A command is answered after work that has left the list of commands as it was. -/
theorem ends_answerCmd {s : State} {x : Blk} {c : CmdId} {r : CmdRec} (hc : s.blk.cmd c = some r) (hl : r.lost = false)
    (hx : x.hub.inProg = s.blk.hub.inProg) (st : Nat) (res : Bytes) :
    Ends s { s with blk := x.answerCmd c st res } c r st res := by
  have hcx : x.cmd c = some r := (cmd_congr hx c).trans hc
  exact ⟨Blk.answerCmd_slot x c r st res hcx hl, (inProg_answerCmd hcx st res).trans (by rw [hx])⟩

theorem endsOnly_answerCmd {s : State} {x : Blk} {c : CmdId} {r : CmdRec} {l : List Region} (hc : s.blk.cmd c = some r)
    (hl : r.lost = false) (hx : x.hub.inProg = s.blk.hub.inProg)
    (hr : rest ([.hub, .regs] ++ l) x = rest ([.hub, .regs] ++ l) s.blk) (st : Nat) (res : Bytes) :
    EndsOnly l s { s with blk := x.answerCmd c st res } c r st res :=
  ⟨only_of_blk (onlyBlk_of_rest ((rest_answerCmd (by simp) (by simp) x c st res).trans hr)),
    ends_answerCmd hc hl hx st res⟩

/-- A command that is answered at once does nothing else. -/
theorem endsOnly_answer {s : State} {c : CmdId} {r : CmdRec} (hc : s.blk.cmd c = some r) (hl : r.lost = false)
    (l : List Region) (st : Nat) (res : Bytes) : EndsOnly l s { s with blk := s.blk.answerCmd c st res } c r st res :=
  endsOnly_answerCmd hc hl rfl rfl st res

theorem mem_of_cmd {b : Blk} {c : CmdId} {r : CmdRec} (h : b.cmd c = some r) : r ∈ b.hub.inProg ∧ r.is c = true := by
  have his := List.find?_some (show b.hub.inProg.find? (fun x => x.is c) = some r from h)
  exact ⟨List.mem_of_find?_eq_some h, his⟩

theorem find?_markStarted {c : CmdId} {p : List CmdRec} {x : CmdRec} (h : (markStarted c p).find? (·.is c) = some x) :
    x.started = true := by
  induction p with
  | nil => simp [markStarted] at h
  | cons r t ih =>
    by_cases hr : r.is c = true
    · have hr' : ({ r with started := true } : CmdRec).is c = true := hr
      simp only [markStarted, hr, if_true, List.find?_cons, hr'] at h
      exact (Option.some.inj h) ▸ rfl
    · simp only [markStarted, hr, List.find?_cons, if_false, Bool.false_eq_true] at h
      exact ih h

theorem started_of_cmd_startCmd {b : Blk} {c : CmdId} {x : CmdRec} (h : (b.startCmd c).cmd c = some x) :
    x.started = true := find?_markStarted h

end Sys2Proof.Proofs
end

/-! ## What operations keep of a part

The parts of the block, and of these parts, that an operation keeps though it may write elsewhere in them. -/
section
namespace Sys2Proof.Proofs

open Sys2Proof.Machine

theorem hub_flag (b : Blk) (off i : Nat) :
    (b.flag off i).hub = b.hub := by
  exact hub_of_rest (L := [.regs]) (rest_flag (by decide) ..) (by decide)

theorem hub_incr (b : Blk) (off : Nat) :
    (b.incr off).hub = b.hub := by
  exact hub_of_rest (L := [.regs]) (rest_incr (by decide) ..) (by decide)

theorem hub_aonAdd (b : Blk) (i n : Nat) :
    (b.aonAdd i n).hub = b.hub := by
  exact hub_of_rest (L := [.aon]) (rest_aonAdd (by decide) ..) (by decide)

theorem hub_modExt (b : Blk) (i : Nat) (f : ExtRt → ExtRt) :
    (b.modExt i f).hub = b.hub := by
  exact hub_of_rest (L := [.ext]) (rest_modExt (by decide) ..) (by decide)

theorem hub_writeLine (b : Blk) (l : Nat) (bs : Bytes) (poison : Bool) (wb : Bool) :
    (b.writeLine l bs poison wb).hub = b.hub := by
  exact hub_of_rest (L := [.aon, .pcs, .pool, .chans]) (rest_writeLine (by decide) (by decide) (by decide) (by
      decide) ..) (by decide)

theorem hub_writeMasked (b : Blk) (l : Nat) (bs : Bytes) (mask : BitVec 128) (poison : Bool) (wb : Bool) :
    (b.writeMasked l bs mask poison wb).hub = b.hub := by
  exact hub_of_rest (L := [.aon, .pcs, .pool, .chans]) (rest_writeMasked (by decide) (by decide) (by decide) (by
      decide) ..) (by decide)

theorem hub_bumpMod (b : Blk) (l n : Nat) :
    (b.bumpMod l n).hub = b.hub := by
  exact hub_of_rest (L := [.ext]) (rest_bumpMod (by decide) ..) (by decide)

theorem hub_countAccept (b : Blk) (q part : Nat) :
    (b.countAccept q part).hub = b.hub := by
  exact hub_of_rest (L := [.aon, .pcs]) (rest_countAccept (by decide) (by decide) ..) (by decide)

theorem hub_countRefusal (b : Blk) (q status part : Nat) :
    (b.countRefusal q status part).hub = b.hub := by
  exact hub_of_rest (L := [.regs, .aon, .pcs]) (rest_countRefusal (by decide) (by decide) (by decide) ..) (by decide)

theorem hub_log (b : Blk) (code unit part a bb : Nat) (flags : Nat) :
    (b.log code unit part a bb flags).hub = b.hub := by
  exact hub_of_rest (L := [.regs, .aon, .pcs, .pool, .chans, .ext, .rings]) (rest_log (by decide) (by decide) (by
      decide) (by decide) (by decide) (by decide) (by decide) ..) (by decide)

theorem hub_trace (b : Blk) (r : TraceRec) :
    (b.trace r).hub = b.hub := by
  exact hub_of_rest (L := [.regs, .aon, .pcs, .pool, .chans, .ext, .rings]) (rest_trace (by decide) (by decide) (by
      decide) (by decide) (by decide) (by decide) (by decide) ..) (by decide)

theorem hub_sendOwn (b : Blk) (q : Nat) (m : Msg) :
    (b.sendOwn q m).2.hub = b.hub := by
  exact hub_of_rest (L := [.regs, .fab]) (rest_sendOwn (by decide) (by decide) ..) (by decide)

theorem hub_mirrorSend (b : Blk) (l : Nat) :
    (b.mirrorSend l).2.hub = b.hub := by
  exact hub_of_rest (L := [.regs, .fab]) (rest_mirrorSend (by decide) (by decide) ..) (by decide)

theorem hub_fetch (b : Blk) (l : Nat) :
    (b.fetch l).1.hub = b.hub := by
  exact hub_of_rest (L := [.regs, .dead, .pins, .aon, .pcs, .pool, .chans, .ext, .fab, .rings, .pair]) (rest_fetch
      (by decide) (by decide) (by decide) (by decide) (by decide) (by decide) (by decide) (by decide) (by decide) (by
      decide) (by decide) ..) (by decide)

theorem inProg_aerSet (b : Blk) (f i : Nat) :
    (b.aerSet f i).hub.inProg = b.hub.inProg := by
  simp [Blk.aerSet, *]

theorem inProg_eventDeliver (b : Blk) (part : Nat) (body : Bytes) :
    (b.eventDeliver part body).hub.inProg = b.hub.inProg := by
  unfold Blk.eventDeliver
  dsimp only
  repeat' split
  all_goals simp only [keeps_foldl (fun x : Blk => x.hub.inProg), hub_flag, hub_incr, inProg_modWin, inProg_msix,
      inProg_mirrorOut, *]

theorem hub_aptRefuse (b : Blk) (write : Bool) (line status : Nat) :
    (b.aptRefuse write line status).hub = b.hub := by
  exact hub_of_rest (L := [.regs]) (rest_aptRefuse (by decide) ..) (by decide)

theorem inProg_aptComplete (b : Blk) (r : AptRead) (x0 : List (Nat × Nat × Nat)) :
    (b.aptComplete r x0).1.hub.inProg = b.hub.inProg := by
  induction x0 generalizing b with
  | nil => rfl
  | cons x t ih =>
    obtain ⟨l, lo, hi⟩ := x
    simp only [Blk.aptComplete]
    split
    · rfl
    · split
      · simp [inProg_pcie, inProg_aerSet, *]
      · rw [ih]
        split <;> simp [inProg_pcie, hub_flag, *]

theorem inProg_aptLand (b : Blk) (tag l status : Nat) (bs : Bytes) (poison : Bool) :
    (b.aptLand tag l status bs poison).hub.inProg = b.hub.inProg := by
  unfold Blk.aptLand
  dsimp only
  repeat' split
  all_goals simp only [keeps_foldl (fun x : Blk => x.hub.inProg), hub_aptRefuse, inProg_aptComplete, *]

theorem hub_poisonDead (b : Blk) (l owner : Nat) :
    (b.poisonDead l owner).hub = b.hub := by
  exact hub_of_rest (L := [.regs, .aon, .pcs, .pool, .chans, .ext, .coh, .fab, .rings, .pair]) (rest_poisonDead (by
      decide) (by decide) (by decide) (by decide) (by decide) (by decide) (by decide) (by decide) (by decide) (by
      decide) ..) (by decide)

theorem hub_dropHolder (b : Blk) (l eid : Nat) :
    (b.dropHolder l eid).hub = b.hub := by
  exact hub_of_rest (L := [.coh]) (rest_dropHolder (by decide) ..) (by decide)

theorem hub_touch (b : Blk) (l : Nat) :
    (b.touch l).hub = b.hub := by
  exact hub_of_rest (L := [.coh]) (rest_touch (by decide) ..) (by decide)

theorem hub_grantX (b : Blk) (l part eid : Nat) :
    (b.grantX l part eid).hub = b.hub := by
  exact hub_of_rest (L := [.coh]) (rest_grantX (by decide) ..) (by decide)

theorem hub_addSharer (b : Blk) (l part eid : Nat) :
    (b.addSharer l part eid).hub = b.hub := by
  exact hub_of_rest (L := [.coh]) (rest_addSharer (by decide) ..) (by decide)

theorem hub_dirLookup (b : Blk) (l : Nat) :
    (b.dirLookup l).hub = b.hub := by
  exact hub_of_rest (L := [.regs, .fresh, .aon, .pcs]) (rest_dirLookup (by decide) (by decide) (by decide) (by
      decide) ..) (by decide)

theorem hub_snoopAll (b : Blk) (t : Txn) (k : SnpKind) (x0 : List Nat) :
    (b.snoopAll t k x0).1.hub = b.hub := by
  exact hub_of_rest (L := [.regs, .pcs, .coh, .fab]) (rest_snoopAll (by decide) (by decide) (by decide) (by decide)
      ..) (by decide)

theorem inProg_serve (b : Blk) (t : Txn) (f : Blk → Blk) (hgo : ∀  x, (f  x).hub.inProg = x.hub.inProg) :
    (b.serve t f).hub.inProg = b.hub.inProg := by
  simp [Blk.serve, *]

theorem hub_putTxn (b : Blk) (t : Txn) :
    (b.putTxn t).hub = b.hub := by
  exact hub_of_rest (L := [.coh]) (rest_putTxn (by decide) ..) (by decide)

theorem hub_endTxn (b : Blk) (t : Txn) :
    (b.endTxn t).hub = b.hub := by
  exact hub_of_rest (L := [.coh]) (rest_endTxn (by decide) ..) (by decide)

theorem hub_respond (b : Blk) (q ty src msgId traceId addr status : Nat) (far replay : Bool) (payload : Bytes)
    (poison : Bool) (cls part : Nat) :
    (b.respond q ty src msgId traceId addr status far replay payload poison cls part).2.hub = b.hub := by
  exact hub_of_rest (L := [.regs, .fab]) (rest_respond (by decide) (by decide) ..) (by decide)

theorem inProg_land (b : Blk) (w : Who) (write : Bool) (l status : Nat) (bs : Bytes) (poison : Bool) :
    (b.land w write l status bs poison).hub.inProg = b.hub.inProg := by
  unfold Blk.land
  dsimp only
  repeat' split
  all_goals simp only [keeps_foldl (fun x : Blk => x.hub.inProg), hub_aptRefuse, inProg_aptLand, *]

theorem hub_jobLine (b : Blk) (id l status : Nat) (bs : Bytes) (poison : Bool) :
    (b.jobLine id l status bs poison).hub = b.hub := by
  exact hub_of_rest (L := [.regs, .aon, .pcs, .ext, .coh, .fab]) (rest_jobLine (by decide) (by decide) (by decide)
      (by decide) (by decide) (by decide) ..) (by decide)

theorem inProg_answerTxn (b : Blk) (t : Txn) (ty status : Nat) (bs : Bytes) (poison replay : Bool) :
    (b.answerTxn t ty status bs poison replay).hub.inProg = b.hub.inProg := by
  unfold Blk.answerTxn
  cases hj : t.job with
  | some id => simp [hub_jobLine, *]
  | none => cases hw : t.who <;> simp [hub_respond, inProg_land, *]

theorem hub_mirrorWait (b : Blk) (t : Txn) (old : Bytes) :
    (b.mirrorWait t old).2.hub = b.hub := by
  exact hub_of_rest (L := [.regs, .coh, .fab]) (rest_mirrorWait (by decide) (by decide) (by decide) ..) (by decide)

theorem hub_freeRat (b : Blk) (t : Txn) (a : AtmOp) :
    (b.freeRat t a).hub = b.hub := by
  exact hub_of_rest (L := [.coh]) (rest_freeRat (by decide) ..) (by decide)

theorem hub_uncount (b : Blk) (t : Txn) :
    (b.uncount t).hub = b.hub := by
  exact hub_of_rest (L := [.ext]) (rest_uncount (by decide) ..) (by decide)

theorem inProg_refuseTxn (b : Blk) (t : Txn) (status : Nat) :
    (b.refuseTxn t status).hub.inProg = b.hub.inProg := by
  unfold Blk.refuseTxn
  dsimp only
  repeat' split
  all_goals simp only [keeps_foldl (fun x : Blk => x.hub.inProg), hub_countRefusal, hub_endTxn, inProg_answerTxn,
      hub_freeRat, hub_uncount, *]

theorem hub_sendGrant (b : Blk) (t : Txn) (ty : Nat) (far : Bool) (bs : Bytes) (poison : Bool) :
    (b.sendGrant t ty far bs poison).hub = b.hub := by
  exact hub_of_rest (L := [.regs, .coh, .fab]) (rest_sendGrant (by decide) (by decide) (by decide) ..) (by decide)

theorem inProg_grantTxn (b : Blk) (t : Txn) :
    (b.grantTxn t).hub.inProg = b.hub.inProg := by
  unfold Blk.grantTxn
  dsimp only
  repeat' split
  all_goals simp only [keeps_foldl (fun x : Blk => x.hub.inProg), hub_incr, hub_bumpMod, hub_fetch, hub_grantX,
      hub_addSharer, hub_endTxn, inProg_refuseTxn, hub_sendGrant, *]

theorem inProg_execNear (b : Blk) (t : Txn) (a : AtmOp) :
    (b.execNear t a).hub.inProg = b.hub.inProg := by
  unfold Blk.execNear
  dsimp only
  repeat' split
  all_goals simp only [keeps_foldl (fun x : Blk => x.hub.inProg), hub_incr, hub_aonAdd, hub_writeLine, hub_log,
      hub_trace, hub_fetch, hub_endTxn, inProg_answerTxn, hub_mirrorWait, hub_uncount, inProg_refuseTxn, *]

theorem hub_noteHeader (b : Blk) (l : Nat) :
    (b.noteHeader l).hub = b.hub := by
  exact hub_of_rest (L := [.pair]) (rest_noteHeader (by decide) ..) (by decide)

theorem inProg_finishTxn (b0 : Blk) (t : Txn) :
    (b0.finishTxn t).hub.inProg = b0.hub.inProg := by
  unfold Blk.finishTxn
  dsimp only
  repeat' split
  all_goals simp [keeps_foldl (fun x : Blk => x.hub.inProg), keeps_foldl_fst (fun x : Blk => x.hub.inProg),
      keeps_foldl_snd (fun x : Blk => x.hub.inProg), apply_ite (fun x : Blk => x.hub.inProg), hub_writeMasked,
      hub_fetch, hub_dropHolder, inProg_serve, hub_endTxn, inProg_answerTxn, hub_mirrorWait, inProg_refuseTxn,
      inProg_grantTxn, inProg_execNear, hub_noteHeader, *]

theorem inProg_advance (b0 : Blk) (t : Txn) :
    (b0.advance t).hub.inProg = b0.hub.inProg := by
  unfold Blk.advance
  dsimp only
  repeat' split
  all_goals simp [keeps_foldl (fun x : Blk => x.hub.inProg), keeps_foldl_fst (fun x : Blk => x.hub.inProg),
      keeps_foldl_snd (fun x : Blk => x.hub.inProg), apply_ite (fun x : Blk => x.hub.inProg), hub_writeLine,
      hub_mirrorSend, inProg_serve, hub_putTxn, inProg_finishTxn, *]

theorem hub_evict (b : Blk) (l : Nat) :
    (b.evict l).2.hub = b.hub := by
  exact hub_of_rest (L := [.regs, .aon, .pcs, .pool, .chans, .ext, .coh, .fab, .rings, .pair]) (rest_evict (by
      decide) (by decide) (by decide) (by decide) (by decide) (by decide) (by decide) (by decide) (by decide) (by
      decide) ..) (by decide)

theorem hub_settleCount (b : Blk) (t : Txn) :
    (b.settleCount t).2.hub = b.hub := by
  exact hub_of_rest (L := [.ext]) (rest_settleCount (by decide) ..) (by decide)

theorem inProg_runTxn (b0 : Blk) (t0 : Txn) :
    (b0.runTxn t0).hub.inProg = b0.hub.inProg := by
  unfold Blk.runTxn
  dsimp only
  repeat' split
  all_goals simp only [keeps_foldl (fun x : Blk => x.hub.inProg), hub_snoopAll, hub_putTxn, inProg_advance,
      hub_settleCount, *]

theorem hub_uncountRds (b : Blk) (t : Txn) :
    (b.uncountRds t).hub = b.hub := by
  exact hub_of_rest (L := [.ext]) (rest_uncountRds (by decide) ..) (by decide)

theorem hub_countRds (b : Blk) (t : Txn) :
    (b.countRds t).2.hub = b.hub := by
  exact hub_of_rest (L := [.ext]) (rest_countRds (by decide) ..) (by decide)

theorem inProg_startTxn (b : Blk) (t0 : Txn) (again : Bool) :
    (b.startTxn t0 again).hub.inProg = b.hub.inProg := by
  unfold Blk.startTxn
  dsimp only
  repeat' split
  all_goals simp only [keeps_foldl (fun x : Blk => x.hub.inProg), hub_incr, hub_poisonDead, hub_touch, hub_dirLookup,
      hub_evict, inProg_runTxn, hub_uncountRds, hub_countRds, *]

theorem inProg_beginTxn (b : Blk) (t : Txn) :
    (b.beginTxn t).hub.inProg = b.hub.inProg := by
  unfold Blk.beginTxn
  dsimp only
  repeat' split
  all_goals simp only [keeps_foldl (fun x : Blk => x.hub.inProg), hub_countRds, inProg_startTxn, *]

theorem hub_dropPre (b : Blk) (p : Prefetch → Bool) :
    (b.dropPre p).hub = b.hub := by
  exact hub_of_rest (L := [.regs, .pcs, .coh, .work]) (rest_dropPre (by decide) (by decide) (by decide) (by decide)
      ..) (by decide)

theorem inProg_writeInt (b : Blk) (r : Requester) (l : Nat) (bs : Bytes) (mask : BitVec 128) (poison : Bool) :
    (b.writeInt r l bs mask poison).2.hub.inProg = b.hub.inProg := by
  unfold Blk.writeInt
  dsimp only
  repeat' split
  all_goals simp only [keeps_foldl (fun x : Blk => x.hub.inProg), hub_bumpMod, hub_countAccept, hub_countRefusal,
      inProg_beginTxn, *]

theorem inProg_devWrite (b : Blk) (a : Nat) (bs : Bytes) :
    (b.devWrite a bs).hub.inProg = b.hub.inProg := by
  simp [Blk.devWrite, keeps_foldl (fun x : Blk => x.hub.inProg), inProg_writeInt, *]

theorem inProg_ckptEntry (b : Blk) (off : Nat) (e : Nat → Bytes) :
    (b.ckptEntry off e).hub.inProg = b.hub.inProg := by
  simp [Blk.ckptEntry, inProg_devWrite, *]

theorem inProg_ckptExtAt (b : Blk) (i : Nat) (r : ExtRt) :
    (b.ckptExtAt i r).hub.inProg = b.hub.inProg := by
  simp [Blk.ckptExtAt, inProg_ckptEntry, *]

theorem inProg_setExt (b : Blk) (i : Nat) (f : ExtRt → ExtRt) :
    (b.setExt i f).hub.inProg = b.hub.inProg := by
  unfold Blk.setExt
  dsimp only
  repeat' split
  all_goals simp only [keeps_foldl (fun x : Blk => x.hub.inProg), hub_modExt, inProg_ckptExtAt, *]

theorem inProg_startDrain (b : Blk) (i : Nat) :
    (b.startDrain i).hub.inProg = b.hub.inProg := by
  unfold Blk.startDrain
  split
  · rfl
  · split <;> simp [inProg_setExt, *]

theorem hub_modSheaf (b : Blk) (slot : Nat) (f : Sheaf → Sheaf) :
    (b.modSheaf slot f).hub = b.hub := by
  exact hub_of_rest (L := [.work]) (rest_modSheaf (by decide) ..) (by decide)

theorem hub_recordLost (b : Blk) (slot : Nat) (s : Sheaf) :
    (b.recordLost slot s).hub = b.hub := by
  exact hub_of_rest (L := [.regs, .aon, .pcs, .pool, .chans, .ext, .rings]) (rest_recordLost (by decide) (by decide)
      (by decide) (by decide) (by decide) (by decide) (by decide) ..) (by decide)

theorem inProg_thrWrite (b : Blk) (q part a : Nat) (bs : Bytes) :
    (b.thrWrite q part a bs).2.hub.inProg = b.hub.inProg := by
  unfold Blk.thrWrite
  dsimp only
  repeat' split
  all_goals simp [keeps_foldl (fun x : Blk => x.hub.inProg), keeps_foldl_fst (fun x : Blk => x.hub.inProg),
      keeps_foldl_snd (fun x : Blk => x.hub.inProg), apply_ite (fun x : Blk => x.hub.inProg), inProg_writeInt, *]

theorem hub_thrBad (b : Blk) (q : Nat) (ls : List Nat) :
    (b.thrBad q ls).2.hub = b.hub := by
  exact hub_of_rest (L := [.coh]) (rest_thrBad (by decide) ..) (by decide)

theorem inProg_notify (b : Blk) (q eid part : Nat) (event : Bytes) (m : Msg) :
    (b.notify q eid part event m).hub.inProg = b.hub.inProg := by
  unfold Blk.notify
  split <;> simp [hub_sendOwn, inProg_eventDeliver, *]

theorem inProg_doneNotices (b : Blk) (slot : Nat) (s : Sheaf) (st : Nat) :
    (b.doneNotices slot s st).hub.inProg = b.hub.inProg := by
  simp [Blk.doneNotices, keeps_foldl (fun x : Blk => x.hub.inProg), inProg_notify, *]

theorem inProg_endStep (b : Blk) (slot : Nat) (x0 : Nat) :
    (b.endStep slot x0).hub.inProg = b.hub.inProg := by
  induction x0 generalizing b with
  | zero => rfl
  | succ n ih =>
    simp only [Blk.endStep]
    split
    · rfl
    · split
      · rw [ih]
        split <;> split <;> simp [hub_modSheaf, hub_recordLost, inProg_thrWrite, *]
      · split
        · rfl
        · rw [ih]
          split <;> split <;> simp [hub_modSheaf, hub_recordLost, inProg_thrWrite, hub_thrBad, *]
      · split
        · rfl
        · split <;> simp [hub_trace, inProg_doneNotices, hub_recordLost, hub_thrBad, *]

theorem inProg_checkEnd (b : Blk) (slot : Nat) :
    (b.checkEnd slot).hub.inProg = b.hub.inProg := by
  unfold Blk.checkEnd
  dsimp only
  repeat' split
  all_goals simp only [keeps_foldl (fun x : Blk => x.hub.inProg), hub_flag, hub_aonAdd, hub_dropPre, hub_modSheaf,
      inProg_endStep, *]

theorem hub_abortSheaf (b : Blk) (slot why : Nat) :
    (b.abortSheaf slot why).hub = b.hub := by
  exact hub_of_rest (L := [.regs, .aon, .pcs, .pool, .chans, .ext, .coh, .work, .rings]) (rest_abortSheaf (by decide)
      (by decide) (by decide) (by decide) (by decide) (by decide) (by decide) (by decide) (by decide) ..) (by decide)

theorem hub_markRevoked (b : Blk) (i who : Nat) :
    (b.markRevoked i who).hub = b.hub := by
  simp [Blk.markRevoked]

theorem work_flag (b : Blk) (off i : Nat) :
    (b.flag off i).work = b.work := by
  exact work_of_rest (L := [.regs]) (rest_flag (by decide) ..) (by decide)

theorem work_incr (b : Blk) (off : Nat) :
    (b.incr off).work = b.work := by
  exact work_of_rest (L := [.regs]) (rest_incr (by decide) ..) (by decide)

theorem work_aonAdd (b : Blk) (i n : Nat) :
    (b.aonAdd i n).work = b.work := by
  exact work_of_rest (L := [.aon]) (rest_aonAdd (by decide) ..) (by decide)

theorem work_event (b : Blk) (unit code : Nat) (part : Option Nat) (n : Nat) :
    (b.event unit code part n).work = b.work := by
  exact work_of_rest (L := [.pcs]) (rest_event (by decide) ..) (by decide)

theorem work_trace (b : Blk) (r : TraceRec) :
    (b.trace r).work = b.work := by
  exact work_of_rest (L := [.regs, .aon, .pcs, .pool, .chans, .ext, .rings]) (rest_trace (by decide) (by decide) (by
      decide) (by decide) (by decide) (by decide) (by decide) ..) (by decide)

theorem work_answerCmd (b : Blk) (c : CmdId) (status : Nat) (res : Bytes) :
    (b.answerCmd c status res).work = b.work := by
  exact work_of_rest (L := [.regs, .hub]) (rest_answerCmd (by decide) (by decide) ..) (by decide)

theorem work_dropLanded (b : Blk) (w : Who) :
    (b.dropLanded w).work = b.work := by
  exact work_of_rest (L := [.coh]) (rest_dropLanded (by decide) ..) (by decide)

theorem sheafs_modTil (b : Blk) (k : Nat) (f : Tiller → Tiller) :
    (b.modTil k f).work.sheafs = b.work.sheafs := by
  simp [Blk.modTil, *]

theorem sheafs_dropPre (b : Blk) (p : Prefetch → Bool) :
    (b.dropPre p).work.sheafs = b.work.sheafs := by
  simp [Blk.dropPre, keeps_foldl (fun x : Blk => x.work.sheafs), work_incr, work_event, work_dropLanded,
      sheafs_modTil, *]

theorem sheafs_setRun (b : Blk) (k : Nat) (r : Run) :
    (b.setRun k r).work.sheafs = b.work.sheafs := by
  simp [Blk.setRun, sheafs_modTil, *]

theorem sheafs_tick (b : Blk) (k cls n part : Nat) :
    (b.tick k cls n part).work.sheafs = b.work.sheafs := by
  unfold Blk.tick
  dsimp only
  repeat' split
  all_goals simp only [keeps_foldl (fun x : Blk => x.work.sheafs), work_aonAdd, work_event, *]

theorem sheafs_settleWork (b : Blk) (k : Nat) :
    (b.settleWork k).work.sheafs = b.work.sheafs := by
  unfold Blk.settleWork
  dsimp only
  repeat' split
  all_goals simp only [keeps_foldl (fun x : Blk => x.work.sheafs), sheafs_setRun, sheafs_tick, *]

theorem sheafs_cancelRun (b : Blk) (k status : Nat) :
    (b.cancelRun k status).work.sheafs = b.work.sheafs := by
  unfold Blk.cancelRun
  dsimp only
  repeat' split
  all_goals simp only [keeps_foldl (fun x : Blk => x.work.sheafs), sheafs_setRun, sheafs_tick, sheafs_settleWork, *]

theorem work_recordLost (b : Blk) (slot : Nat) (s : Sheaf) :
    (b.recordLost slot s).work = b.work := by
  exact work_of_rest (L := [.regs, .aon, .pcs, .pool, .chans, .ext, .rings]) (rest_recordLost (by decide) (by decide)
      (by decide) (by decide) (by decide) (by decide) (by decide) ..) (by decide)

theorem work_thrWrite (b : Blk) (q part a : Nat) (bs : Bytes) :
    (b.thrWrite q part a bs).2.work = b.work := by
  exact work_of_rest (L := [.regs, .dead, .pins, .fresh, .aon, .pcs, .pool, .chans, .ext, .coh, .fab, .rings, .pair,
      .hub]) (rest_thrWrite (by decide) (by decide) (by decide) (by decide) (by decide) (by decide) (by decide) (by
      decide) (by decide) (by decide) (by decide) (by decide) (by decide) (by decide) ..) (by decide)

theorem work_thrBad (b : Blk) (q : Nat) (ls : List Nat) :
    (b.thrBad q ls).2.work = b.work := by
  exact work_of_rest (L := [.coh]) (rest_thrBad (by decide) ..) (by decide)

theorem wins_pcie (b : Blk) (o : PcieOut) :
    (b.pcie o).hub.wins = b.hub.wins := by
  unfold Blk.pcie
  dsimp only
  repeat' split
  all_goals simp only [keeps_foldl (fun x : Blk => x.hub.wins), *]

theorem wins_aerSet (b : Blk) (f i : Nat) :
    (b.aerSet f i).hub.wins = b.hub.wins := by
  simp [Blk.aerSet, *]

theorem wins_aptComplete (b : Blk) (r : AptRead) (x0 : List (Nat × Nat × Nat)) :
    (b.aptComplete r x0).1.hub.wins = b.hub.wins := by
  induction x0 generalizing b with
  | nil => rfl
  | cons x t ih =>
    obtain ⟨l, lo, hi⟩ := x
    simp only [Blk.aptComplete]
    split
    · rfl
    · split
      · simp [wins_pcie, wins_aerSet, *]
      · rw [ih]
        split <;> simp [wins_pcie, hub_flag, *]

theorem wins_aptLand (b : Blk) (tag l status : Nat) (bs : Bytes) (poison : Bool) :
    (b.aptLand tag l status bs poison).hub.wins = b.hub.wins := by
  unfold Blk.aptLand
  dsimp only
  repeat' split
  all_goals simp only [keeps_foldl (fun x : Blk => x.hub.wins), hub_aptRefuse, wins_aptComplete, *]

theorem wins_serve (b : Blk) (t : Txn) (f : Blk → Blk) (hgo : ∀  x, (f  x).hub.wins = x.hub.wins) :
    (b.serve t f).hub.wins = b.hub.wins := by
  simp [Blk.serve, *]

theorem wins_land (b : Blk) (w : Who) (write : Bool) (l status : Nat) (bs : Bytes) (poison : Bool) :
    (b.land w write l status bs poison).hub.wins = b.hub.wins := by
  unfold Blk.land
  dsimp only
  repeat' split
  all_goals simp only [keeps_foldl (fun x : Blk => x.hub.wins), hub_aptRefuse, wins_aptLand, *]

theorem wins_answerTxn (b : Blk) (t : Txn) (ty status : Nat) (bs : Bytes) (poison replay : Bool) :
    (b.answerTxn t ty status bs poison replay).hub.wins = b.hub.wins := by
  unfold Blk.answerTxn
  cases hj : t.job with
  | some id => simp [hub_jobLine, *]
  | none => cases hw : t.who <;> simp [hub_respond, wins_land, *]

theorem wins_refuseTxn (b : Blk) (t : Txn) (status : Nat) :
    (b.refuseTxn t status).hub.wins = b.hub.wins := by
  unfold Blk.refuseTxn
  dsimp only
  repeat' split
  all_goals simp only [keeps_foldl (fun x : Blk => x.hub.wins), hub_countRefusal, hub_endTxn, wins_answerTxn,
      hub_freeRat, hub_uncount, *]

theorem wins_grantTxn (b : Blk) (t : Txn) :
    (b.grantTxn t).hub.wins = b.hub.wins := by
  unfold Blk.grantTxn
  dsimp only
  repeat' split
  all_goals simp only [keeps_foldl (fun x : Blk => x.hub.wins), hub_incr, hub_bumpMod, hub_fetch, hub_grantX,
      hub_addSharer, hub_endTxn, wins_refuseTxn, hub_sendGrant, *]

theorem wins_execNear (b : Blk) (t : Txn) (a : AtmOp) :
    (b.execNear t a).hub.wins = b.hub.wins := by
  unfold Blk.execNear
  dsimp only
  repeat' split
  all_goals simp only [keeps_foldl (fun x : Blk => x.hub.wins), hub_incr, hub_aonAdd, hub_writeLine, hub_log,
      hub_trace, hub_fetch, hub_endTxn, wins_answerTxn, hub_mirrorWait, hub_uncount, wins_refuseTxn, *]

theorem wins_finishTxn (b0 : Blk) (t : Txn) :
    (b0.finishTxn t).hub.wins = b0.hub.wins := by
  unfold Blk.finishTxn
  dsimp only
  repeat' split
  all_goals simp [keeps_foldl (fun x : Blk => x.hub.wins), keeps_foldl_fst (fun x : Blk => x.hub.wins),
      keeps_foldl_snd (fun x : Blk => x.hub.wins), apply_ite (fun x : Blk => x.hub.wins), hub_writeMasked, hub_fetch,
      hub_dropHolder, wins_serve, hub_endTxn, wins_answerTxn, hub_mirrorWait, wins_refuseTxn, wins_grantTxn,
      wins_execNear, hub_noteHeader, *]

theorem wins_advance (b0 : Blk) (t : Txn) :
    (b0.advance t).hub.wins = b0.hub.wins := by
  unfold Blk.advance
  dsimp only
  repeat' split
  all_goals simp [keeps_foldl (fun x : Blk => x.hub.wins), keeps_foldl_fst (fun x : Blk => x.hub.wins),
      keeps_foldl_snd (fun x : Blk => x.hub.wins), apply_ite (fun x : Blk => x.hub.wins), hub_writeLine,
      hub_mirrorSend, wins_serve, hub_putTxn, wins_finishTxn, *]

theorem wins_runTxn (b0 : Blk) (t0 : Txn) :
    (b0.runTxn t0).hub.wins = b0.hub.wins := by
  unfold Blk.runTxn
  dsimp only
  repeat' split
  all_goals simp only [keeps_foldl (fun x : Blk => x.hub.wins), hub_snoopAll, hub_putTxn, wins_advance,
      hub_settleCount, *]

theorem wins_startTxn (b : Blk) (t0 : Txn) (again : Bool) :
    (b.startTxn t0 again).hub.wins = b.hub.wins := by
  unfold Blk.startTxn
  dsimp only
  repeat' split
  all_goals simp only [keeps_foldl (fun x : Blk => x.hub.wins), hub_incr, hub_poisonDead, hub_touch, hub_dirLookup,
      hub_evict, wins_runTxn, hub_uncountRds, hub_countRds, *]

theorem wins_beginTxn (b : Blk) (t : Txn) :
    (b.beginTxn t).hub.wins = b.hub.wins := by
  unfold Blk.beginTxn
  dsimp only
  repeat' split
  all_goals simp only [keeps_foldl (fun x : Blk => x.hub.wins), hub_countRds, wins_startTxn, *]

theorem wins_writeInt (b : Blk) (r : Requester) (l : Nat) (bs : Bytes) (mask : BitVec 128) (poison : Bool) :
    (b.writeInt r l bs mask poison).2.hub.wins = b.hub.wins := by
  unfold Blk.writeInt
  dsimp only
  repeat' split
  all_goals simp only [keeps_foldl (fun x : Blk => x.hub.wins), hub_bumpMod, hub_countAccept, hub_countRefusal,
      wins_beginTxn, *]

theorem wins_devWrite (b : Blk) (a : Nat) (bs : Bytes) :
    (b.devWrite a bs).hub.wins = b.hub.wins := by
  simp [Blk.devWrite, keeps_foldl (fun x : Blk => x.hub.wins), wins_writeInt, *]

theorem wins_ckptEntry (b : Blk) (off : Nat) (e : Nat → Bytes) :
    (b.ckptEntry off e).hub.wins = b.hub.wins := by
  simp [Blk.ckptEntry, wins_devWrite, *]

theorem wins_ckptExtAt (b : Blk) (i : Nat) (r : ExtRt) :
    (b.ckptExtAt i r).hub.wins = b.hub.wins := by
  simp [Blk.ckptExtAt, wins_ckptEntry, *]

theorem wins_setExt (b : Blk) (i : Nat) (f : ExtRt → ExtRt) :
    (b.setExt i f).hub.wins = b.hub.wins := by
  unfold Blk.setExt
  dsimp only
  repeat' split
  all_goals simp only [keeps_foldl (fun x : Blk => x.hub.wins), hub_modExt, wins_ckptExtAt, *]

theorem wins_startDrain (b : Blk) (i : Nat) :
    (b.startDrain i).hub.wins = b.hub.wins := by
  unfold Blk.startDrain
  split
  · rfl
  · split <;> simp [wins_setExt, *]

theorem str_logFlush (b : Blk) :
    (b.logFlush).str = b.str := by
  exact str_of_rest (L := [.regs, .aon, .pcs, .pool, .chans, .ext, .rings]) (rest_logFlush (by decide) (by decide)
      (by decide) (by decide) (by decide) (by decide) (by decide) ..) (by decide)

theorem str_dropPre (b : Blk) (p : Prefetch → Bool) :
    (b.dropPre p).str = b.str := by
  exact str_of_rest (L := [.regs, .pcs, .coh, .work]) (rest_dropPre (by decide) (by decide) (by decide) (by decide)
      ..) (by decide)

theorem str_freeLogFrames (b : Blk) :
    (b.freeLogFrames).str = b.str := by
  exact str_of_rest (L := [.pool]) (rest_freeLogFrames (by decide) ..) (by decide)

theorem str_startDrain (b : Blk) (i : Nat) :
    (b.startDrain i).str = b.str := by
  exact str_of_rest (L := [.regs, .dead, .pins, .fresh, .aon, .pcs, .pool, .chans, .ext, .coh, .fab, .rings, .pair,
      .hub]) (rest_startDrain (by decide) (by decide) (by decide) (by decide) (by decide) (by decide) (by decide) (by
      decide) (by decide) (by decide) (by decide) (by decide) (by decide) (by decide) ..) (by decide)

theorem str_setPair (b : Blk) (old : PairCfg) (body : Bool) :
    (b.setPair old body).str = b.str := by
  exact str_of_rest (L := [.pair]) (rest_setPair (by decide) ..) (by decide)

theorem str_cancelRun (b : Blk) (k status : Nat) :
    (b.cancelRun k status).str = b.str := by
  exact str_of_rest (L := [.aon, .pcs, .work]) (rest_cancelRun (by decide) (by decide) (by decide) ..) (by decide)

theorem str_setRings (b : Blk) (t : TraceCfg) (all : Bool) :
    (b.setRings t all).str = b.str := by
  exact str_of_rest (L := [.rings]) (rest_setRings (by decide) ..) (by decide)

theorem str_markRevoked (b : Blk) (i who : Nat) :
    (b.markRevoked i who).str = b.str := by
  exact str_of_rest (L := [.ext]) (rest_markRevoked (by decide) ..) (by decide)

theorem str_placeMarks (b : Blk) (i : Nat) (grants : List Nat) (whos : List Nat) :
    (b.placeMarks i grants whos).str = b.str := by
  exact str_of_rest (L := [.ext]) (rest_placeMarks (by decide) ..) (by decide)

theorem str_cleanChanged (b : Blk) (old : Struct) :
    (b.cleanChanged old).str = b.str := by
  exact str_of_rest (L := [.pool]) (rest_cleanChanged (by decide) ..) (by decide)

theorem str_newExt (b : Blk) (e : Nat × ExtEnt) :
    (b.newExt e).str = b.str := by
  exact str_of_rest (L := [.ext]) (rest_newExt (by decide) ..) (by decide)

theorem hub_placeMarks (b : Blk) (i : Nat) (grants : List Nat) (whos : List Nat) :
    (b.placeMarks i grants whos).hub = b.hub := by
  exact hub_of_rest (L := [.ext]) (rest_placeMarks (by decide) ..) (by decide)

theorem hub_cleanChanged (b : Blk) (old : Struct) :
    (b.cleanChanged old).hub = b.hub := by
  exact hub_of_rest (L := [.pool]) (rest_cleanChanged (by decide) ..) (by decide)

theorem hub_newExt (b : Blk) (e : Nat × ExtEnt) :
    (b.newExt e).hub = b.hub := by
  exact hub_of_rest (L := [.ext]) (rest_newExt (by decide) ..) (by decide)

theorem sec_trace (b : Blk) (r : TraceRec) :
    (b.trace r).sec = b.sec := by
  exact sec_of_rest (L := [.regs, .aon, .pcs, .pool, .chans, .ext, .rings]) (rest_trace (by decide) (by decide) (by
      decide) (by decide) (by decide) (by decide) (by decide) ..) (by decide)

theorem sec_strAnswer (b : Blk) (c : CmdId) (st : Nat) (bad : Bool) :
    (b.strAnswer c st bad).sec = b.sec := by
  exact sec_of_rest (L := [.regs, .str, .hub]) (rest_strAnswer (by decide) (by decide) (by decide) ..) (by decide)

theorem sec_placeMarks (b : Blk) (i : Nat) (grants : List Nat) (whos : List Nat) :
    (b.placeMarks i grants whos).sec = b.sec := by
  exact sec_of_rest (L := [.ext]) (rest_placeMarks (by decide) ..) (by decide)

theorem sec_cleanChanged (b : Blk) (old : Struct) :
    (b.cleanChanged old).sec = b.sec := by
  exact sec_of_rest (L := [.pool]) (rest_cleanChanged (by decide) ..) (by decide)

theorem sec_newExt (b : Blk) (e : Nat × ExtEnt) :
    (b.newExt e).sec = b.sec := by
  exact sec_of_rest (L := [.ext]) (rest_newExt (by decide) ..) (by decide)

theorem str_trace (b : Blk) (r : TraceRec) :
    (b.trace r).str = b.str := by
  exact str_of_rest (L := [.regs, .aon, .pcs, .pool, .chans, .ext, .rings]) (rest_trace (by decide) (by decide) (by
      decide) (by decide) (by decide) (by decide) (by decide) ..) (by decide)

theorem mgmt_trace (b : Blk) (r : TraceRec) :
    (b.trace r).mgmt = b.mgmt := by
  exact mgmt_of_rest (L := [.regs, .aon, .pcs, .pool, .chans, .ext, .rings]) (rest_trace (by decide) (by decide) (by
      decide) (by decide) (by decide) (by decide) (by decide) ..) (by decide)

theorem fab_event (b : Blk) (unit code : Nat) (part : Option Nat) (n : Nat) :
    (b.event unit code part n).fab = b.fab := by
  exact fab_of_rest (L := [.pcs]) (rest_event (by decide) ..) (by decide)

theorem fab_trace (b : Blk) (r : TraceRec) :
    (b.trace r).fab = b.fab := by
  exact fab_of_rest (L := [.regs, .aon, .pcs, .pool, .chans, .ext, .rings]) (rest_trace (by decide) (by decide) (by
      decide) (by decide) (by decide) (by decide) (by decide) ..) (by decide)

theorem fab_traceLink (b : Blk) (n event cause : Nat) :
    (b.traceLink n event cause).fab = b.fab := by
  exact fab_of_rest (L := [.regs, .aon, .pcs, .pool, .chans, .ext, .rings]) (rest_traceLink (by decide) (by decide)
      (by decide) (by decide) (by decide) (by decide) (by decide) ..) (by decide)

theorem fab_countRx (b : Blk) (n : Nat) :
    (b.countRx n).fab = b.fab := by
  exact fab_of_rest (L := [.regs, .pcs]) (rest_countRx (by decide) (by decide) ..) (by decide)

theorem pwr_dropFlits (b : Blk) (n : Nat) :
    (b.dropFlits n).pwr = b.pwr := by
  exact pwr_of_rest (L := [.regs, .dead, .pins, .aon, .pcs, .pool, .chans, .ext, .coh, .fab, .rings, .pair, .hub])
      (rest_dropFlits (by decide) (by decide) (by decide) (by decide) (by decide) (by decide) (by decide) (by decide)
      (by decide) (by decide) (by decide) (by decide) (by decide) ..) (by decide)

theorem sec_dropFlits (b : Blk) (n : Nat) :
    (b.dropFlits n).sec = b.sec := by
  exact sec_of_rest (L := [.regs, .dead, .pins, .aon, .pcs, .pool, .chans, .ext, .coh, .fab, .rings, .pair, .hub])
      (rest_dropFlits (by decide) (by decide) (by decide) (by decide) (by decide) (by decide) (by decide) (by decide)
      (by decide) (by decide) (by decide) (by decide) (by decide) ..) (by decide)

theorem leases_modExt (b : Blk) (i : Nat) (f : ExtRt → ExtRt) :
    (b.modExt i f).ext.leases = b.ext.leases := by
  simp [Blk.modExt, *]

theorem ext_writeMasked (b : Blk) (l : Nat) (bs : Bytes) (mask : BitVec 128) (poison : Bool) (wb : Bool) :
    (b.writeMasked l bs mask poison wb).ext = b.ext := by
  exact ext_of_rest (L := [.aon, .pcs, .pool, .chans]) (rest_writeMasked (by decide) (by decide) (by decide) (by
      decide) ..) (by decide)

theorem leases_bumpMod (b : Blk) (l n : Nat) :
    (b.bumpMod l n).ext.leases = b.ext.leases := by
  unfold Blk.bumpMod
  split <;> simp [leases_modExt, *]

theorem ext_countAccept (b : Blk) (q part : Nat) :
    (b.countAccept q part).ext = b.ext := by
  exact ext_of_rest (L := [.aon, .pcs]) (rest_countAccept (by decide) (by decide) ..) (by decide)

theorem ext_countRefusal (b : Blk) (q status part : Nat) :
    (b.countRefusal q status part).ext = b.ext := by
  exact ext_of_rest (L := [.regs, .aon, .pcs]) (rest_countRefusal (by decide) (by decide) (by decide) ..) (by decide)

theorem leases_unbump (b : Blk) (l : Nat) :
    (b.unbump l).ext.leases = b.ext.leases := by
  unfold Blk.unbump
  split <;> simp [leases_modExt, *]

theorem ext_countMerge (b : Blk) (l : Nat) (mask : BitVec 128) :
    (b.countMerge l mask).ext = b.ext := by
  exact ext_of_rest (L := [.aon, .pcs, .pool, .chans]) (rest_countMerge (by decide) (by decide) (by decide) (by
      decide) ..) (by decide)

theorem leases_hubLine (b : Blk) (p : Nat × Bytes × BitVec 128) :
    (b.hubLine p).ext.leases = b.ext.leases := by
  unfold Blk.hubLine
  dsimp only
  repeat' split
  all_goals simp [ext_writeMasked, leases_bumpMod, ext_countAccept, ext_countRefusal, leases_unbump, ext_countMerge, *]

theorem leases_hubWrite (b : Blk) (a : Nat) (bs : Bytes) :
    (b.hubWrite a bs).ext.leases = b.ext.leases := by
  simp [Blk.hubWrite, keeps_foldl (fun x : Blk => x.ext.leases), leases_hubLine, *]

theorem leases_hubPut (b : Blk) (ps : List (Nat × Bytes)) :
    (b.hubPut ps).2.ext.leases = b.ext.leases := by
  unfold Blk.hubPut
  dsimp only
  repeat' split
  all_goals simp [keeps_foldl (fun x : Blk => x.ext.leases), keeps_foldl_fst (fun x : Blk => x.ext.leases),
      keeps_foldl_snd (fun x : Blk => x.ext.leases), ext_countRefusal, leases_hubWrite, *]

theorem leases_ringPut (b : Blk) (e : ExtEnt) (r : Ring) (bs : Bytes) :
    (b.ringPut e r bs).2.1.ext.leases = b.ext.leases := by
  simp [Blk.ringPut, leases_hubPut, *]

theorem ext_traceLose (b : Blk) :
    (b.traceLose).ext = b.ext := by
  exact ext_of_rest (L := [.regs, .rings]) (rest_traceLose (by decide) (by decide) ..) (by decide)

theorem ext_traceRoom (b : Blk) (e : ExtEnt) :
    (b.traceRoom e).ext = b.ext := by
  exact ext_of_rest (L := [.rings]) (rest_traceRoom (by decide) ..) (by decide)

theorem leases_traceCatch (b : Blk) (e : ExtEnt) :
    (b.traceCatch e).ext.leases = b.ext.leases := by
  have hr (x : Blk) (y : Rings) : ({ x with rings := y } : Blk).ext.leases = x.ext.leases := rfl
  unfold Blk.traceCatch
  dsimp only
  split
  · rfl
  · rw [hr, leases_ringPut]

theorem leases_tracePut (b : Blk) (e : ExtEnt) (bs : Bytes) :
    (b.tracePut e bs).ext.leases = b.ext.leases := by
  unfold Blk.tracePut
  dsimp only
  repeat' split
  all_goals simp [leases_ringPut, ext_traceLose, *]

theorem leases_traceTo (b : Blk) (e : ExtEnt) (r : TraceRec) :
    (b.traceTo e r).ext.leases = b.ext.leases := by
  unfold Blk.traceTo
  dsimp only
  repeat' split
  all_goals simp [ext_traceLose, ext_traceRoom, leases_traceCatch, leases_tracePut, *]

theorem leases_trace (b : Blk) (r : TraceRec) :
    (b.trace r).ext.leases = b.ext.leases := by
  unfold Blk.trace
  split
  · rfl
  · split
    · rw [ext_traceLose]
    · exact leases_traceTo ..

theorem ext_rejoin (b : Blk) :
    (b.rejoin).ext = b.ext := by
  exact ext_of_rest (L := [.pair]) (rest_rejoin (by decide) ..) (by decide)

theorem leases_tracePower (b : Blk) (event s m : Nat) :
    (b.tracePower event s m).ext.leases = b.ext.leases := by
  simp [Blk.tracePower, leases_trace, *]

theorem hub_rejoin (b : Blk) :
    (b.rejoin).hub = b.hub := by
  exact hub_of_rest (L := [.pair]) (rest_rejoin (by decide) ..) (by decide)

theorem hub_setPower (b : Blk) (s m : Nat) :
    (b.setPower s m).hub = b.hub := by
  exact hub_of_rest (L := [.regs, .pcs, .coh, .work, .pwr]) (rest_setPower (by decide) (by decide) (by decide) (by
      decide) (by decide) ..) (by decide)

theorem hub_tracePower (b : Blk) (event s m : Nat) :
    (b.tracePower event s m).hub = b.hub := by
  exact hub_of_rest (L := [.regs, .aon, .pcs, .pool, .chans, .ext, .rings]) (rest_tracePower (by decide) (by decide)
      (by decide) (by decide) (by decide) (by decide) (by decide) ..) (by decide)

theorem rings_flag (b : Blk) (off i : Nat) :
    (b.flag off i).rings = b.rings := by
  exact rings_of_rest (L := [.regs]) (rest_flag (by decide) ..) (by decide)

theorem rings_aonAdd (b : Blk) (i n : Nat) :
    (b.aonAdd i n).rings = b.rings := by
  exact rings_of_rest (L := [.aon]) (rest_aonAdd (by decide) ..) (by decide)

theorem rings_writeMasked (b : Blk) (l : Nat) (bs : Bytes) (mask : BitVec 128) (poison : Bool) (wb : Bool) :
    (b.writeMasked l bs mask poison wb).rings = b.rings := by
  exact rings_of_rest (L := [.aon, .pcs, .pool, .chans]) (rest_writeMasked (by decide) (by decide) (by decide) (by
      decide) ..) (by decide)

theorem rings_bumpMod (b : Blk) (l n : Nat) :
    (b.bumpMod l n).rings = b.rings := by
  exact rings_of_rest (L := [.ext]) (rest_bumpMod (by decide) ..) (by decide)

theorem rings_countAccept (b : Blk) (q part : Nat) :
    (b.countAccept q part).rings = b.rings := by
  exact rings_of_rest (L := [.aon, .pcs]) (rest_countAccept (by decide) (by decide) ..) (by decide)

theorem rings_countRefusal (b : Blk) (q status part : Nat) :
    (b.countRefusal q status part).rings = b.rings := by
  exact rings_of_rest (L := [.regs, .aon, .pcs]) (rest_countRefusal (by decide) (by decide) (by decide) ..) (by decide)

theorem rings_unbump (b : Blk) (l : Nat) :
    (b.unbump l).rings = b.rings := by
  exact rings_of_rest (L := [.ext]) (rest_unbump (by decide) ..) (by decide)

theorem rings_countMerge (b : Blk) (l : Nat) (mask : BitVec 128) :
    (b.countMerge l mask).rings = b.rings := by
  exact rings_of_rest (L := [.aon, .pcs, .pool, .chans]) (rest_countMerge (by decide) (by decide) (by decide) (by
      decide) ..) (by decide)

theorem snap_hubLine (b : Blk) (p : Nat × Bytes × BitVec 128) :
    (b.hubLine p).rings.snap = b.rings.snap := by
  unfold Blk.hubLine
  dsimp only
  repeat' split
  all_goals simp [rings_writeMasked, rings_bumpMod, rings_countAccept, rings_countRefusal, rings_unbump,
      rings_countMerge, *]

theorem snap_hubWrite (b : Blk) (a : Nat) (bs : Bytes) :
    (b.hubWrite a bs).rings.snap = b.rings.snap := by
  simp [Blk.hubWrite, keeps_foldl (fun x : Blk => x.rings.snap), snap_hubLine, *]

theorem snap_hubPut (b : Blk) (ps : List (Nat × Bytes)) :
    (b.hubPut ps).2.rings.snap = b.rings.snap := by
  unfold Blk.hubPut
  dsimp only
  repeat' split
  all_goals simp [keeps_foldl (fun x : Blk => x.rings.snap), keeps_foldl_fst (fun x : Blk => x.rings.snap),
      keeps_foldl_snd (fun x : Blk => x.rings.snap), rings_countRefusal, snap_hubWrite, *]

theorem snap_ringPut (b : Blk) (e : ExtEnt) (r : Ring) (bs : Bytes) :
    (b.ringPut e r bs).2.1.rings.snap = b.rings.snap := by
  simp [Blk.ringPut, snap_hubPut, *]

theorem snap_logPut (b : Blk) (bs : Bytes) :
    (b.logPut bs).2.rings.snap = b.rings.snap := by
  unfold Blk.logPut
  dsimp only
  repeat' split
  all_goals simp [snap_ringPut, *]

theorem snap_logLose (b : Blk) :
    (b.logLose).rings.snap = b.rings.snap := by
  simp [Blk.logLose, rings_flag, rings_aonAdd, *]

theorem snap_logRoom (b : Blk) :
    (b.logRoom).rings.snap = b.rings.snap := by
  unfold Blk.logRoom
  split <;> simp [*]

theorem snap_logCatch (b : Blk) :
    (b.logCatch).rings.snap = b.rings.snap := by
  unfold Blk.logCatch
  dsimp only
  repeat' split
  all_goals simp [snap_logPut, *]

theorem snap_logRing (b : Blk) (r : LogRec) :
    (b.logRing r).rings.snap = b.rings.snap := by
  unfold Blk.logRing
  dsimp only
  repeat' split
  all_goals simp [snap_logPut, snap_logLose, snap_logRoom, snap_logCatch, *]

theorem snap_logRaise (b : Blk) (r : LogRec) :
    (b.logRaise r).rings.snap = b.rings.snap := by
  unfold Blk.logRaise
  dsimp only
  repeat' split
  all_goals simp [snap_logLose, snap_logRing, *]

theorem snap_log (b : Blk) (code unit part a bb : Nat) (flags : Nat) :
    (b.log code unit part a bb flags).rings.snap = b.rings.snap := by
  simp [Blk.log, snap_logRaise, *]

theorem rings_answerCmd (b : Blk) (c : CmdId) (status : Nat) (res : Bytes) :
    (b.answerCmd c status res).rings = b.rings := by
  exact rings_of_rest (L := [.regs, .hub]) (rest_answerCmd (by decide) (by decide) ..) (by decide)

theorem stopped_hubLine (b : Blk) (p : Nat × Bytes × BitVec 128) :
    (b.hubLine p).rings.stopped = b.rings.stopped := by
  unfold Blk.hubLine
  dsimp only
  repeat' split
  all_goals simp [rings_writeMasked, rings_bumpMod, rings_countAccept, rings_countRefusal, rings_unbump,
      rings_countMerge, *]

theorem stopped_hubWrite (b : Blk) (a : Nat) (bs : Bytes) :
    (b.hubWrite a bs).rings.stopped = b.rings.stopped := by
  simp [Blk.hubWrite, keeps_foldl (fun x : Blk => x.rings.stopped), stopped_hubLine, *]

theorem stopped_hubPut (b : Blk) (ps : List (Nat × Bytes)) :
    (b.hubPut ps).2.rings.stopped = b.rings.stopped := by
  unfold Blk.hubPut
  dsimp only
  repeat' split
  all_goals simp [keeps_foldl (fun x : Blk => x.rings.stopped), keeps_foldl_fst (fun x : Blk => x.rings.stopped),
      keeps_foldl_snd (fun x : Blk => x.rings.stopped), rings_countRefusal, stopped_hubWrite, *]

theorem stopped_ringPut (b : Blk) (e : ExtEnt) (r : Ring) (bs : Bytes) :
    (b.ringPut e r bs).2.1.rings.stopped = b.rings.stopped := by
  simp [Blk.ringPut, stopped_hubPut, *]

theorem stopped_logPut (b : Blk) (bs : Bytes) :
    (b.logPut bs).2.rings.stopped = b.rings.stopped := by
  unfold Blk.logPut
  dsimp only
  repeat' split
  all_goals simp [stopped_ringPut, *]

theorem stopped_logLose (b : Blk) :
    (b.logLose).rings.stopped = b.rings.stopped := by
  simp [Blk.logLose, rings_flag, rings_aonAdd, *]

theorem stopped_logRoom (b : Blk) :
    (b.logRoom).rings.stopped = b.rings.stopped := by
  unfold Blk.logRoom
  split <;> simp [*]

theorem stopped_logCatch (b : Blk) :
    (b.logCatch).rings.stopped = b.rings.stopped := by
  unfold Blk.logCatch
  dsimp only
  repeat' split
  all_goals simp [stopped_logPut, *]

theorem stopped_logRing (b : Blk) (r : LogRec) :
    (b.logRing r).rings.stopped = b.rings.stopped := by
  unfold Blk.logRing
  dsimp only
  repeat' split
  all_goals simp [stopped_logPut, stopped_logLose, stopped_logRoom, stopped_logCatch, *]

theorem stopped_logRaise (b : Blk) (r : LogRec) :
    (b.logRaise r).rings.stopped = b.rings.stopped := by
  unfold Blk.logRaise
  dsimp only
  repeat' split
  all_goals simp [stopped_logLose, stopped_logRing, *]

theorem stopped_log (b : Blk) (code unit part a bb : Nat) (flags : Nat) :
    (b.log code unit part a bb flags).rings.stopped = b.rings.stopped := by
  simp [Blk.log, stopped_logRaise, *]

theorem ringDump_hubLine (b : Blk) (p : Nat × Bytes × BitVec 128) :
    (b.hubLine p).rings.dump = b.rings.dump := by
  unfold Blk.hubLine
  dsimp only
  repeat' split
  all_goals simp [rings_writeMasked, rings_bumpMod, rings_countAccept, rings_countRefusal, rings_unbump,
      rings_countMerge, *]

theorem ringDump_hubWrite (b : Blk) (a : Nat) (bs : Bytes) :
    (b.hubWrite a bs).rings.dump = b.rings.dump := by
  simp [Blk.hubWrite, keeps_foldl (fun x : Blk => x.rings.dump), ringDump_hubLine, *]

theorem ringDump_hubPut (b : Blk) (ps : List (Nat × Bytes)) :
    (b.hubPut ps).2.rings.dump = b.rings.dump := by
  unfold Blk.hubPut
  dsimp only
  repeat' split
  all_goals simp [keeps_foldl (fun x : Blk => x.rings.dump), keeps_foldl_fst (fun x : Blk => x.rings.dump),
      keeps_foldl_snd (fun x : Blk => x.rings.dump), rings_countRefusal, ringDump_hubWrite, *]

theorem ringDump_ringPut (b : Blk) (e : ExtEnt) (r : Ring) (bs : Bytes) :
    (b.ringPut e r bs).2.1.rings.dump = b.rings.dump := by
  simp [Blk.ringPut, ringDump_hubPut, *]

theorem ringDump_logPut (b : Blk) (bs : Bytes) :
    (b.logPut bs).2.rings.dump = b.rings.dump := by
  unfold Blk.logPut
  dsimp only
  repeat' split
  all_goals simp [ringDump_ringPut, *]

theorem ringDump_logLose (b : Blk) :
    (b.logLose).rings.dump = b.rings.dump := by
  simp [Blk.logLose, rings_flag, rings_aonAdd, *]

theorem ringDump_logRoom (b : Blk) :
    (b.logRoom).rings.dump = b.rings.dump := by
  unfold Blk.logRoom
  split <;> simp [*]

theorem ringDump_logCatch (b : Blk) :
    (b.logCatch).rings.dump = b.rings.dump := by
  unfold Blk.logCatch
  dsimp only
  repeat' split
  all_goals simp [ringDump_logPut, *]

theorem ringDump_logRing (b : Blk) (r : LogRec) :
    (b.logRing r).rings.dump = b.rings.dump := by
  unfold Blk.logRing
  dsimp only
  repeat' split
  all_goals simp [ringDump_logPut, ringDump_logLose, ringDump_logRoom, ringDump_logCatch, *]

theorem ringDump_logFlush (b : Blk) :
    (b.logFlush).rings.dump = b.rings.dump := by
  unfold Blk.logFlush
  dsimp only
  repeat' split
  all_goals simp [keeps_foldl (fun x : Blk => x.rings.dump), keeps_foldl_fst (fun x : Blk => x.rings.dump),
      keeps_foldl_snd (fun x : Blk => x.rings.dump), ringDump_logCatch, ringDump_logRing, *]

theorem ext_flag (b : Blk) (off i : Nat) :
    (b.flag off i).ext = b.ext := by
  exact ext_of_rest (L := [.regs]) (rest_flag (by decide) ..) (by decide)

theorem ext_incr (b : Blk) (off : Nat) :
    (b.incr off).ext = b.ext := by
  exact ext_of_rest (L := [.regs]) (rest_incr (by decide) ..) (by decide)

theorem ext_aonAdd (b : Blk) (i n : Nat) :
    (b.aonAdd i n).ext = b.ext := by
  exact ext_of_rest (L := [.aon]) (rest_aonAdd (by decide) ..) (by decide)

theorem ext_event (b : Blk) (unit code : Nat) (part : Option Nat) (n : Nat) :
    (b.event unit code part n).ext = b.ext := by
  exact ext_of_rest (L := [.pcs]) (rest_event (by decide) ..) (by decide)

theorem ext_modHusk (b : Blk) (c : Nat) (f : HuskChan → HuskChan) :
    (b.modHusk c f).ext = b.ext := by
  exact ext_of_rest (L := [.chans]) (rest_modHusk (by decide) ..) (by decide)

theorem ext_putCopy (b : Blk) (c : Copy) (l : Nat) (bs : Bytes) (m : LineMeta) :
    (b.putCopy c l bs m).ext = b.ext := by
  exact ext_of_rest (L := [.pool]) (rest_putCopy (by decide) ..) (by decide)

theorem ext_settleRow (b : Blk) (c line : Nat) (ks : List Nat) :
    (b.settleRow c line ks).ext = b.ext := by
  exact ext_of_rest (L := [.pool]) (rest_settleRow (by decide) ..) (by decide)

theorem ext_putHusk (b : Blk) (l : Nat) (bs : Bytes) (m : LineMeta) :
    (b.putHusk l bs m).ext = b.ext := by
  exact ext_of_rest (L := [.pool]) (rest_putHusk (by decide) ..) (by decide)

theorem ext_huskOp (b : Blk) (c code part : Nat) :
    (b.huskOp c code part).ext = b.ext := by
  exact ext_of_rest (L := [.aon, .pcs, .pool, .chans]) (rest_huskOp (by decide) (by decide) (by decide) (by decide)
      ..) (by decide)

theorem ext_countHusk (b : Blk) (l code part : Nat) :
    (b.countHusk l code part).ext = b.ext := by
  exact ext_of_rest (L := [.aon, .pcs, .pool, .chans]) (rest_countHusk (by decide) (by decide) (by decide) (by
      decide) ..) (by decide)

theorem ext_countGrain (b : Blk) (l code part : Nat) :
    (b.countGrain l code part).ext = b.ext := by
  exact ext_of_rest (L := [.aon, .pcs]) (rest_countGrain (by decide) (by decide) ..) (by decide)

theorem ext_writeLine (b : Blk) (l : Nat) (bs : Bytes) (poison : Bool) (wb : Bool) :
    (b.writeLine l bs poison wb).ext = b.ext := by
  exact ext_of_rest (L := [.aon, .pcs, .pool, .chans]) (rest_writeLine (by decide) (by decide) (by decide) (by
      decide) ..) (by decide)

theorem kept_bumpMod {γ : Type} {P : ExtSt → γ} (hP : ModProj P) (b : Blk) (l n : Nat) :
    P (b.bumpMod l n).ext = P b.ext := by
  unfold Blk.bumpMod
  split
  · exact hP.eq ..
  · rfl

theorem kept_unbump {γ : Type} {P : ExtSt → γ} (hP : ModProj P) (b : Blk) (l : Nat) :
    P (b.unbump l).ext = P b.ext := by
  unfold Blk.unbump
  split
  · exact hP.eq ..
  · rfl

theorem kept_hubLine {γ : Type} {P : ExtSt → γ} (hP : ModProj P) (b : Blk) (p : Nat × Bytes × BitVec 128) :
    P (b.hubLine p).ext = P b.ext := by
  unfold Blk.hubLine
  dsimp only
  repeat' split
  all_goals simp [ext_writeMasked, kept_bumpMod hP, ext_countAccept, ext_countRefusal, kept_unbump hP,
      ext_countMerge, hP.eq]

theorem kept_hubWrite {γ : Type} {P : ExtSt → γ} (hP : ModProj P) (b : Blk) (a : Nat) (bs : Bytes) :
    P (b.hubWrite a bs).ext = P b.ext := by
  simp [Blk.hubWrite, keeps_foldl (fun x : Blk => P x.ext), kept_hubLine hP, *]

theorem kept_hubPut {γ : Type} {P : ExtSt → γ} (hP : ModProj P) (b : Blk) (ps : List (Nat × Bytes)) :
    P ((b.hubPut ps).2).ext = P b.ext := by
  unfold Blk.hubPut
  dsimp only
  repeat' split
  all_goals simp [keeps_foldl (fun x : Blk => P x.ext), keeps_foldl_fst (fun x : Blk => P x.ext), keeps_foldl_snd
      (fun x : Blk => P x.ext), ext_countRefusal, kept_hubWrite hP, hP.eq, *]

theorem kept_ringPut {γ : Type} {P : ExtSt → γ} (hP : ModProj P) (b : Blk) (e : ExtEnt) (r : Ring) (bs : Bytes) :
    P ((b.ringPut e r bs).2.1).ext = P b.ext := by
  simp [Blk.ringPut, kept_hubPut hP, hP.eq]

theorem kept_logPut {γ : Type} {P : ExtSt → γ} (hP : ModProj P) (b : Blk) (bs : Bytes) :
    P ((b.logPut bs).2).ext = P b.ext := by
  unfold Blk.logPut
  dsimp only
  repeat' split
  all_goals simp [kept_ringPut hP, hP.eq]

theorem ext_logLose (b : Blk) :
    (b.logLose).ext = b.ext := by
  exact ext_of_rest (L := [.regs, .aon, .rings]) (rest_logLose (by decide) (by decide) (by decide) ..) (by decide)

theorem ext_logRoom (b : Blk) :
    (b.logRoom).ext = b.ext := by
  exact ext_of_rest (L := [.rings]) (rest_logRoom (by decide) ..) (by decide)

theorem kept_logCatch {γ : Type} {P : ExtSt → γ} (hP : ModProj P) (b : Blk) :
    P (b.logCatch).ext = P b.ext := by
  unfold Blk.logCatch
  dsimp only
  repeat' split
  all_goals simp [kept_logPut hP, hP.eq]

theorem kept_logRing {γ : Type} {P : ExtSt → γ} (hP : ModProj P) (b : Blk) (r : LogRec) :
    P (b.logRing r).ext = P b.ext := by
  unfold Blk.logRing
  dsimp only
  repeat' split
  all_goals simp [kept_logPut hP, ext_logLose, ext_logRoom, kept_logCatch hP, hP.eq]

theorem kept_logRaise {γ : Type} {P : ExtSt → γ} (hP : ModProj P) (b : Blk) (r : LogRec) :
    P (b.logRaise r).ext = P b.ext := by
  unfold Blk.logRaise
  dsimp only
  repeat' split
  all_goals simp [ext_logLose, kept_logRing hP, hP.eq]

theorem kept_log {γ : Type} {P : ExtSt → γ} (hP : ModProj P) (b : Blk) (code unit part a bb : Nat) (flags : Nat) :
    P (b.log code unit part a bb flags).ext = P b.ext := by
  simp [Blk.log, kept_logRaise hP, hP.eq]

theorem kept_traceCatch {γ : Type} {P : ExtSt → γ} (hP : ModProj P) (b : Blk) (e : ExtEnt) :
    P (b.traceCatch e).ext = P b.ext := by
  have hr (x : Blk) (y : Rings) : P ({ x with rings := y } : Blk).ext = P x.ext := rfl
  unfold Blk.traceCatch
  dsimp only
  split
  · rfl
  · rw [hr, kept_ringPut hP]

theorem kept_tracePut {γ : Type} {P : ExtSt → γ} (hP : ModProj P) (b : Blk) (e : ExtEnt) (bs : Bytes) :
    P (b.tracePut e bs).ext = P b.ext := by
  unfold Blk.tracePut
  dsimp only
  repeat' split
  all_goals simp [kept_ringPut hP, ext_traceLose, hP.eq]

theorem kept_traceTo {γ : Type} {P : ExtSt → γ} (hP : ModProj P) (b : Blk) (e : ExtEnt) (r : TraceRec) :
    P (b.traceTo e r).ext = P b.ext := by
  unfold Blk.traceTo
  dsimp only
  repeat' split
  all_goals simp [ext_traceLose, ext_traceRoom, kept_traceCatch hP, kept_tracePut hP, hP.eq]

theorem kept_trace {γ : Type} {P : ExtSt → γ} (hP : ModProj P) (b : Blk) (r : TraceRec) :
    P (b.trace r).ext = P b.ext := by
  unfold Blk.trace
  split
  · rfl
  · split
    · rw [ext_traceLose]
    · exact kept_traceTo hP ..

theorem ext_send (b : Blk) (q : Nat) (m : Msg) :
    ((b.send q m).2).ext = b.ext := by
  exact ext_of_rest (L := [.regs, .fab]) (rest_send (by decide) (by decide) ..) (by decide)

theorem ext_noteLoad (b : Blk) (eid v : Nat) :
    (b.noteLoad eid v).ext = b.ext := by
  exact ext_of_rest (L := [.fab]) (rest_noteLoad (by decide) ..) (by decide)

theorem ext_markVoid (b : Blk) (c : Nat) :
    (b.markVoid c).ext = b.ext := by
  exact ext_of_rest (L := [.pool, .chans]) (rest_markVoid (by decide) (by decide) ..) (by decide)

theorem kept_loseChannel {γ : Type} {P : ExtSt → γ} (hP : ModProj P) (b : Blk) (c cause : Nat) :
    P (b.loseChannel c cause).ext = P b.ext := by
  unfold Blk.loseChannel
  dsimp only
  repeat' split
  all_goals simp [keeps_foldl (fun x : Blk => P x.ext), keeps_foldl_fst (fun x : Blk => P x.ext), keeps_foldl_snd
      (fun x : Blk => P x.ext), apply_ite (fun x : Blk => P x.ext), ext_flag, ext_modHusk, ext_settleRow, kept_log
      hP, ext_markVoid, *]

theorem kept_logGrain {γ : Type} {P : ExtSt → γ} (hP : ModProj P) (b : Blk) (code l chan : Nat) (lane : Option Nat) :
    P (b.logGrain code l chan lane).ext = P b.ext := by
  simp [Blk.logGrain, kept_log hP, *]

theorem kept_logHusk {γ : Type} {P : ExtSt → γ} (hP : ModProj P) (b : Blk) (code c line : Nat) (lane : Option Nat) :
    P (b.logHusk code c line lane).ext = P b.ext := by
  simp [Blk.logHusk, kept_log hP, *]

theorem kept_huskCorr {γ : Type} {P : ExtSt → γ} (hP : ModProj P) (b : Blk) (c line rank lane : Nat) :
    P (b.huskCorr c line rank lane).ext = P b.ext := by
  unfold Blk.huskCorr
  dsimp only
  repeat' split
  all_goals simp [ext_flag, ext_incr, ext_aonAdd, ext_event, ext_modHusk, kept_loseChannel hP, kept_logHusk hP, *]

theorem kept_huskUnc {γ : Type} {P : ExtSt → γ} (hP : ModProj P) (b : Blk) (c line : Nat) :
    P (b.huskUnc c line).ext = P b.ext := by
  unfold Blk.huskUnc
  dsimp only
  repeat' split
  all_goals simp [ext_flag, ext_incr, ext_aonAdd, ext_modHusk, kept_loseChannel hP, *]

theorem ext_mirrorSend (b : Blk) (l : Nat) :
    ((b.mirrorSend l).2).ext = b.ext := by
  exact ext_of_rest (L := [.regs, .fab]) (rest_mirrorSend (by decide) (by decide) ..) (by decide)

theorem ext_mirrorPoison (b : Blk) (l : Nat) :
    (b.mirrorPoison l).ext = b.ext := by
  exact ext_of_rest (L := [.regs, .fab, .pair]) (rest_mirrorPoison (by decide) (by decide) (by decide) ..) (by decide)

theorem kept_poisonLine {γ : Type} {P : ExtSt → γ} (hP : ModProj P) (b : Blk) (l : Nat) (part : Nat) :
    P (b.poisonLine l part).ext = P b.ext := by
  have hf (x : Blk) (cs : List Nat) : (cs.foldl (fun b c => b.flag (Reg.hskErr c) 2) x).ext = x.ext :=
    keeps_foldl (fun x : Blk => x.ext) (fun x c => by simp [ext_flag]) cs x
  unfold Blk.poisonLine
  rw [kept_log hP, ext_mirrorPoison]
  dsimp only
  split
  · split <;> simp [ext_countGrain, ext_putCopy]
  · rw [hf, ext_countHusk, ext_putHusk]
    split <;> simp [ext_countGrain, ext_putCopy]

theorem ext_clearAt (b : Blk) (c line : Nat) :
    (b.clearAt c line).ext = b.ext := by
  exact ext_of_rest (L := [.pool]) (rest_clearAt (by decide) ..) (by decide)

theorem kept_decodeAt {γ : Type} {P : ExtSt → γ} (hP : ModProj P) (b : Blk) (c line rank : Nat) (lanes : List Nat)
    (part : Nat) :
    P ((b.decodeAt c line rank lanes part).2).ext = P b.ext := by
  unfold Blk.decodeAt
  split <;> simp [ext_huskOp, kept_huskCorr hP, kept_huskUnc hP, ext_clearAt, *]

theorem kept_readStook {γ : Type} {P : ExtSt → γ} (hP : ModProj P) (b : Blk) (c line : Nat) (part : Nat) :
    P ((b.readStook c line part).1).ext = P b.ext := by
  unfold Blk.readStook
  refine keeps_foldl_fst (fun x : Blk => P x.ext) (fun x k => ?_) _ _
  split
  · rfl
  · simp [kept_decodeAt hP, ext_huskOp, *]

theorem ext_copyOver (b : Blk) (c line : Nat) :
    (b.copyOver c line).ext = b.ext := by
  exact ext_of_rest (L := [.pool]) (rest_copyOver (by decide) ..) (by decide)

theorem kept_settleUnc {γ : Type} {P : ExtSt → γ} (hP : ModProj P) (b : Blk) (c line : Nat) (ks : List Nat) (part :
    Nat) :
    P (b.settleUnc c line ks part).ext = P b.ext := by
  unfold Blk.settleUnc
  dsimp only
  repeat' split
  all_goals simp [keeps_foldl (fun x : Blk => P x.ext), keeps_foldl_fst (fun x : Blk => P x.ext), keeps_foldl_snd
      (fun x : Blk => P x.ext), apply_ite (fun x : Blk => P x.ext), ext_settleRow, ext_huskOp, kept_logHusk hP,
      kept_poisonLine hP, ext_clearAt, ext_copyOver, *]

theorem kept_readAt {γ : Type} {P : ExtSt → γ} (hP : ModProj P) (b : Blk) (c line rank : Nat) (lanes : List Nat)
    (part : Nat) :
    P ((b.readAt c line rank lanes part).2).ext = P b.ext := by
  unfold Blk.readAt
  dsimp only
  repeat' split
  all_goals simp [kept_decodeAt hP, kept_readStook hP, kept_settleUnc hP, *]

theorem kept_readHusk {γ : Type} {P : ExtSt → γ} (hP : ModProj P) (b : Blk) (l : Nat) (part : Nat) :
    P ((b.readHusk l part).2).ext = P b.ext := by
  unfold Blk.readHusk
  dsimp only
  repeat' split
  all_goals simp [kept_readStook hP, kept_settleUnc hP, kept_readAt hP, *]

theorem kept_fetchHusk {γ : Type} {P : ExtSt → γ} (hP : ModProj P) (b : Blk) (l : Nat) (part : Nat) :
    P ((b.fetchHusk l part).1).ext = P b.ext := by
  simp [Blk.fetchHusk, ext_countHusk, kept_readHusk hP, *]

theorem ext_grainFix (b : Blk) (ch line : Nat) :
    (b.grainFix ch line).ext = b.ext := by
  exact ext_of_rest (L := [.regs, .aon, .chans]) (rest_grainFix (by decide) (by decide) (by decide) ..) (by decide)

theorem kept_grainCorr {γ : Type} {P : ExtSt → γ} (hP : ModProj P) (b : Blk) (ch line l lane : Nat) :
    P (b.grainCorr ch line l lane).ext = P b.ext := by
  simp [Blk.grainCorr, kept_logGrain hP, ext_grainFix, *]

theorem ext_grainUnc (b : Blk) (ch line : Nat) :
    (b.grainUnc ch line).ext = b.ext := by
  exact ext_of_rest (L := [.regs, .dead, .pins, .aon, .chans]) (rest_grainUnc (by decide) (by decide) (by decide) (by
      decide) (by decide) ..) (by decide)

theorem kept_grainLost {γ : Type} {P : ExtSt → γ} (hP : ModProj P) (b : Blk) (ch l part : Nat) :
    P (b.grainLost ch l part).ext = P b.ext := by
  simp [Blk.grainLost, kept_logGrain hP, kept_poisonLine hP, *]

theorem kept_readGrainCopy {γ : Type} {P : ExtSt → γ} (hP : ModProj P) (b : Blk) (l : Nat) (lanes : List Nat) (part :
    Nat) :
    P ((b.readGrainCopy l lanes part).2).ext = P b.ext := by
  unfold Blk.readGrainCopy
  dsimp only
  repeat' split
  all_goals simp only [keeps_foldl (fun x : Blk => P x.ext), ext_flag, ext_incr, ext_putCopy, ext_countGrain,
      kept_logGrain hP, kept_fetchHusk hP, kept_grainCorr hP, ext_grainUnc, kept_grainLost hP, *]

theorem kept_noteSlot {γ : Type} {P : ExtSt → γ} (hP : ModProj P) (b : Blk) (l : Nat) :
    P (b.noteSlot l).ext = P b.ext := by
  unfold Blk.noteSlot
  dsimp only
  repeat' split
  all_goals simp only [keeps_foldl (fun x : Blk => P x.ext), ext_flag, ext_incr, kept_log hP, *]

theorem kept_fetch {γ : Type} {P : ExtSt → γ} (hP : ModProj P) (b : Blk) (l : Nat) :
    P ((b.fetch l).1).ext = P b.ext := by
  unfold Blk.fetch
  dsimp only
  repeat' split
  all_goals simp only [keeps_foldl (fun x : Blk => P x.ext), ext_countGrain, kept_fetchHusk hP, kept_readGrainCopy
      hP, kept_noteSlot hP, *]

theorem kept_poisonDead {γ : Type} {P : ExtSt → γ} (hP : ModProj P) (b : Blk) (l owner : Nat) :
    P (b.poisonDead l owner).ext = P b.ext := by
  simp [Blk.poisonDead, ext_flag, ext_incr, kept_log hP, kept_poisonLine hP, *]

theorem ext_dropHolder (b : Blk) (l eid : Nat) :
    (b.dropHolder l eid).ext = b.ext := by
  exact ext_of_rest (L := [.coh]) (rest_dropHolder (by decide) ..) (by decide)

theorem kept_walkEntry {γ : Type} {P : ExtSt → γ} (hP : ModProj P) (b : Blk) (eid l : Nat) :
    P (b.walkEntry eid l).ext = P b.ext := by
  unfold Blk.walkEntry
  split <;> simp [kept_poisonDead hP, ext_dropHolder, *]

theorem ext_touch (b : Blk) (l : Nat) :
    (b.touch l).ext = b.ext := by
  exact ext_of_rest (L := [.coh]) (rest_touch (by decide) ..) (by decide)

theorem ext_grantX (b : Blk) (l part eid : Nat) :
    (b.grantX l part eid).ext = b.ext := by
  exact ext_of_rest (L := [.coh]) (rest_grantX (by decide) ..) (by decide)

theorem ext_addSharer (b : Blk) (l part eid : Nat) :
    (b.addSharer l part eid).ext = b.ext := by
  exact ext_of_rest (L := [.coh]) (rest_addSharer (by decide) ..) (by decide)

theorem ext_dirLookup (b : Blk) (l : Nat) :
    (b.dirLookup l).ext = b.ext := by
  exact ext_of_rest (L := [.regs, .fresh, .aon, .pcs]) (rest_dirLookup (by decide) (by decide) (by decide) (by
      decide) ..) (by decide)

theorem ext_snoopAll (b : Blk) (t : Txn) (k : SnpKind) (x0 : List Nat) :
    ((b.snoopAll t k x0).1).ext = b.ext := by
  exact ext_of_rest (L := [.regs, .pcs, .coh, .fab]) (rest_snoopAll (by decide) (by decide) (by decide) (by decide)
      ..) (by decide)

theorem kept_serve {γ : Type} {P : ExtSt → γ} (hP : ModProj P) (b : Blk) (t : Txn) (f : Blk → Blk) (hgo : ∀  x, P (f
    x).ext = P (x).ext) :
    P (b.serve t f).ext = P b.ext := by
  simp [Blk.serve, *]

theorem ext_putTxn (b : Blk) (t : Txn) :
    (b.putTxn t).ext = b.ext := by
  exact ext_of_rest (L := [.coh]) (rest_putTxn (by decide) ..) (by decide)

theorem ext_endTxn (b : Blk) (t : Txn) :
    (b.endTxn t).ext = b.ext := by
  exact ext_of_rest (L := [.coh]) (rest_endTxn (by decide) ..) (by decide)

theorem ext_respond (b : Blk) (q ty src msgId traceId addr status : Nat) (far replay : Bool) (payload : Bytes)
    (poison : Bool) (cls part : Nat) :
    ((b.respond q ty src msgId traceId addr status far replay payload poison cls part).2).ext = b.ext := by
  exact ext_of_rest (L := [.regs, .fab]) (rest_respond (by decide) (by decide) ..) (by decide)

theorem ext_land (b : Blk) (w : Who) (write : Bool) (l status : Nat) (bs : Bytes) (poison : Bool) :
    (b.land w write l status bs poison).ext = b.ext := by
  exact ext_of_rest (L := [.regs, .coh, .hub]) (rest_land (by decide) (by decide) (by decide) ..) (by decide)

theorem kept_endJob {γ : Type} {P : ExtSt → γ} (hP : ModProj P) (b : Blk) (id : Nat) (j : Job) :
    P (b.endJob id j).ext = P b.ext := by
  unfold Blk.endJob
  dsimp only
  repeat' split
  all_goals simp only [keeps_foldl (fun x : Blk => P x.ext), ext_countRefusal, kept_unbump hP, ext_send,
      ext_noteLoad, ext_respond, *]

theorem kept_jobLine {γ : Type} {P : ExtSt → γ} (hP : ModProj P) (b : Blk) (id l status : Nat) (bs : Bytes) (poison :
    Bool) :
    P (b.jobLine id l status bs poison).ext = P b.ext := by
  unfold Blk.jobLine
  dsimp only
  repeat' split
  all_goals simp only [keeps_foldl (fun x : Blk => P x.ext), kept_endJob hP, *]

theorem kept_answerTxn {γ : Type} {P : ExtSt → γ} (hP : ModProj P) (b : Blk) (t : Txn) (ty status : Nat) (bs : Bytes)
    (poison replay : Bool) :
    P (b.answerTxn t ty status bs poison replay).ext = P b.ext := by
  unfold Blk.answerTxn
  cases hj : t.job with
  | some id => simp [kept_jobLine hP, *]
  | none => cases hw : t.who <;> simp [ext_respond, ext_land, *]

theorem ext_mirrorWait (b : Blk) (t : Txn) (old : Bytes) :
    ((b.mirrorWait t old).2).ext = b.ext := by
  exact ext_of_rest (L := [.regs, .coh, .fab]) (rest_mirrorWait (by decide) (by decide) (by decide) ..) (by decide)

theorem ext_freeRat (b : Blk) (t : Txn) (a : AtmOp) :
    (b.freeRat t a).ext = b.ext := by
  exact ext_of_rest (L := [.coh]) (rest_freeRat (by decide) ..) (by decide)

theorem kept_uncount {γ : Type} {P : ExtSt → γ} (hP : ModProj P) (b : Blk) (t : Txn) :
    P (b.uncount t).ext = P b.ext := by
  unfold Blk.uncount
  split <;> simp [kept_unbump hP, *]

theorem kept_refuseTxn {γ : Type} {P : ExtSt → γ} (hP : ModProj P) (b : Blk) (t : Txn) (status : Nat) :
    P (b.refuseTxn t status).ext = P b.ext := by
  unfold Blk.refuseTxn
  dsimp only
  repeat' split
  all_goals simp only [keeps_foldl (fun x : Blk => P x.ext), ext_countRefusal, ext_endTxn, kept_answerTxn hP,
      ext_freeRat, kept_uncount hP, *]

theorem ext_sendGrant (b : Blk) (t : Txn) (ty : Nat) (far : Bool) (bs : Bytes) (poison : Bool) :
    (b.sendGrant t ty far bs poison).ext = b.ext := by
  exact ext_of_rest (L := [.regs, .coh, .fab]) (rest_sendGrant (by decide) (by decide) (by decide) ..) (by decide)

theorem kept_grantTxn {γ : Type} {P : ExtSt → γ} (hP : ModProj P) (b : Blk) (t : Txn) :
    P (b.grantTxn t).ext = P b.ext := by
  unfold Blk.grantTxn
  dsimp only
  repeat' split
  all_goals simp only [keeps_foldl (fun x : Blk => P x.ext), ext_incr, kept_bumpMod hP, kept_fetch hP, ext_grantX,
      ext_addSharer, ext_endTxn, kept_refuseTxn hP, ext_sendGrant, *]

theorem kept_execNear {γ : Type} {P : ExtSt → γ} (hP : ModProj P) (b : Blk) (t : Txn) (a : AtmOp) :
    P (b.execNear t a).ext = P b.ext := by
  unfold Blk.execNear
  dsimp only
  repeat' split
  all_goals simp only [keeps_foldl (fun x : Blk => P x.ext), ext_incr, ext_aonAdd, ext_writeLine, kept_log hP,
      kept_trace hP, kept_fetch hP, ext_endTxn, kept_answerTxn hP, ext_mirrorWait, kept_uncount hP, kept_refuseTxn
      hP, *]

theorem ext_noteHeader (b : Blk) (l : Nat) :
    (b.noteHeader l).ext = b.ext := by
  exact ext_of_rest (L := [.pair]) (rest_noteHeader (by decide) ..) (by decide)

theorem kept_finishTxn {γ : Type} {P : ExtSt → γ} (hP : ModProj P) (b0 : Blk) (t : Txn) :
    P (b0.finishTxn t).ext = P b0.ext := by
  unfold Blk.finishTxn
  dsimp only
  repeat' split
  all_goals simp [keeps_foldl (fun x : Blk => P x.ext), keeps_foldl_fst (fun x : Blk => P x.ext), keeps_foldl_snd
      (fun x : Blk => P x.ext), apply_ite (fun x : Blk => P x.ext), ext_writeMasked, kept_fetch hP, ext_dropHolder,
      kept_serve hP, ext_endTxn, kept_answerTxn hP, ext_mirrorWait, kept_refuseTxn hP, kept_grantTxn hP,
      kept_execNear hP, ext_noteHeader, *]

theorem kept_advance {γ : Type} {P : ExtSt → γ} (hP : ModProj P) (b0 : Blk) (t : Txn) :
    P (b0.advance t).ext = P b0.ext := by
  unfold Blk.advance
  dsimp only
  repeat' split
  all_goals simp [keeps_foldl (fun x : Blk => P x.ext), keeps_foldl_fst (fun x : Blk => P x.ext), keeps_foldl_snd
      (fun x : Blk => P x.ext), apply_ite (fun x : Blk => P x.ext), ext_writeLine, ext_mirrorSend, kept_serve hP,
      ext_putTxn, kept_finishTxn hP, *]

theorem ext_evictSnoop (b : Blk) (l : Nat) (e : DirEnt) :
    ((b.evictSnoop l e).2).ext = b.ext := by
  exact ext_of_rest (L := [.regs, .pcs, .coh, .fab]) (rest_evictSnoop (by decide) (by decide) (by decide) (by decide)
      ..) (by decide)

theorem kept_evict {γ : Type} {P : ExtSt → γ} (hP : ModProj P) (b : Blk) (l : Nat) :
    P ((b.evict l).2).ext = P b.ext := by
  unfold Blk.evict
  dsimp only
  repeat' split
  all_goals simp only [keeps_foldl (fun x : Blk => P x.ext), ext_incr, ext_event, kept_poisonDead hP, ext_evictSnoop, *]

theorem kept_settleCount {γ : Type} {P : ExtSt → γ} (hP : ModProj P) (b : Blk) (t : Txn) :
    P ((b.settleCount t).2).ext = P b.ext := by
  unfold Blk.settleCount
  split <;> simp [kept_unbump hP, *]

theorem kept_runTxn {γ : Type} {P : ExtSt → γ} (hP : ModProj P) (b0 : Blk) (t0 : Txn) :
    P (b0.runTxn t0).ext = P b0.ext := by
  unfold Blk.runTxn
  dsimp only
  repeat' split
  all_goals simp only [keeps_foldl (fun x : Blk => P x.ext), ext_snoopAll, ext_putTxn, kept_advance hP,
      kept_settleCount hP, *]

theorem kept_uncountRds {γ : Type} {P : ExtSt → γ} (hP : ModProj P) (b : Blk) (t : Txn) :
    P (b.uncountRds t).ext = P b.ext := by
  unfold Blk.uncountRds
  split <;> simp [kept_uncount hP, *]

theorem kept_countRds {γ : Type} {P : ExtSt → γ} (hP : ModProj P) (b : Blk) (t : Txn) :
    P ((b.countRds t).2).ext = P b.ext := by
  unfold Blk.countRds
  split <;> simp [kept_bumpMod hP, *]

theorem kept_startTxn {γ : Type} {P : ExtSt → γ} (hP : ModProj P) (b : Blk) (t0 : Txn) (again : Bool) :
    P (b.startTxn t0 again).ext = P b.ext := by
  unfold Blk.startTxn
  dsimp only
  repeat' split
  all_goals simp only [keeps_foldl (fun x : Blk => P x.ext), ext_incr, kept_poisonDead hP, ext_touch, ext_dirLookup,
      kept_evict hP, kept_runTxn hP, kept_uncountRds hP, kept_countRds hP, *]

theorem kept_beginTxn {γ : Type} {P : ExtSt → γ} (hP : ModProj P) (b : Blk) (t : Txn) :
    P (b.beginTxn t).ext = P b.ext := by
  unfold Blk.beginTxn
  dsimp only
  repeat' split
  all_goals simp only [keeps_foldl (fun x : Blk => P x.ext), kept_countRds hP, kept_startTxn hP, *]

theorem ext_dropPre (b : Blk) (p : Prefetch → Bool) :
    (b.dropPre p).ext = b.ext := by
  exact ext_of_rest (L := [.regs, .pcs, .coh, .work]) (rest_dropPre (by decide) (by decide) (by decide) (by decide)
      ..) (by decide)

theorem kept_writeInt {γ : Type} {P : ExtSt → γ} (hP : ModProj P) (b : Blk) (r : Requester) (l : Nat) (bs : Bytes)
    (mask : BitVec 128) (poison : Bool) :
    P ((b.writeInt r l bs mask poison).2).ext = P b.ext := by
  unfold Blk.writeInt
  dsimp only
  repeat' split
  all_goals simp only [keeps_foldl (fun x : Blk => P x.ext), kept_bumpMod hP, ext_countAccept, ext_countRefusal,
      kept_beginTxn hP, *]

theorem kept_devWrite {γ : Type} {P : ExtSt → γ} (hP : ModProj P) (b : Blk) (a : Nat) (bs : Bytes) :
    P (b.devWrite a bs).ext = P b.ext := by
  simp [Blk.devWrite, keeps_foldl (fun x : Blk => P x.ext), kept_writeInt hP, *]

theorem kept_answered {γ : Type} {P : ExtSt → γ} (hP : ModProj P) (b : Blk) (t : Txn) (eid : Nat) :
    P (b.answered t eid).ext = P b.ext := by
  unfold Blk.answered
  dsimp only
  repeat' split
  all_goals simp only [keeps_foldl (fun x : Blk => P x.ext), ext_putTxn, kept_advance hP, *]

theorem kept_setAnswered {γ : Type} {P : ExtSt → γ} (hP : ModProj P) (b : Blk) (q eid snpId : Nat) :
    P (b.setAnswered q eid snpId).ext = P b.ext := by
  unfold Blk.setAnswered
  dsimp only
  repeat' split
  all_goals simp only [keeps_foldl (fun x : Blk => P x.ext), ext_flag, kept_log hP, *]

theorem kept_resolveDead {γ : Type} {P : ExtSt → γ} (hP : ModProj P) (b : Blk) (q eid : Nat) :
    P (b.resolveDead q eid).ext = P b.ext := by
  unfold Blk.resolveDead
  refine (keeps_foldl (fun x : Blk => P x.ext) (fun x s => ?_) _ _).trans
    ((keeps_foldl (fun x : Blk => P x.ext) (fun x t => ?_) _ _).trans (keeps_foldl (fun x : Blk => P x.ext) (fun x t
        => ?_) _ _))
  · exact kept_setAnswered hP ..
  · exact congrArg P (ext_endTxn ..)
  · dsimp only
    split
    · rfl
    · rw [kept_answered hP]
      split
      · exact kept_poisonDead hP ..
      · rw [ext_dropHolder]

theorem kept_ckptEntry {γ : Type} {P : ExtSt → γ} (hP : ModProj P) (b : Blk) (off : Nat) (e : Nat → Bytes) :
    P (b.ckptEntry off e).ext = P b.ext := by
  simp [Blk.ckptEntry, kept_devWrite hP, *]

theorem kept_ckptExtAt {γ : Type} {P : ExtSt → γ} (hP : ModProj P) (b : Blk) (i : Nat) (r : ExtRt) :
    P (b.ckptExtAt i r).ext = P b.ext := by
  simp [Blk.ckptExtAt, kept_ckptEntry hP, *]

theorem kept_recall {γ : Type} {P : ExtSt → γ} (hP : ModProj P) (b : Blk) (l : Nat) (op : LineOp) :
    P (b.recall l op).ext = P b.ext := by
  simp [Blk.recall, kept_beginTxn hP, *]

theorem kept_recallHost {γ : Type} {P : ExtSt → γ} (hP : ModProj P) (b : Blk) (q eid : Nat) (p : Nat → Bool) :
    P (b.recallHost q eid p).ext = P b.ext := by
  unfold Blk.recallHost
  dsimp only
  repeat' split
  all_goals simp [keeps_foldl (fun x : Blk => P x.ext), keeps_foldl_fst (fun x : Blk => P x.ext), keeps_foldl_snd
      (fun x : Blk => P x.ext), apply_ite (fun x : Blk => P x.ext), kept_walkEntry hP, kept_recall hP, *]

theorem pair_flag (b : Blk) (off i : Nat) :
    (b.flag off i).pair = b.pair := by
  exact pair_of_rest (L := [.regs]) (rest_flag (by decide) ..) (by decide)

theorem pair_incr (b : Blk) (off : Nat) :
    (b.incr off).pair = b.pair := by
  exact pair_of_rest (L := [.regs]) (rest_incr (by decide) ..) (by decide)

theorem pair_aonAdd (b : Blk) (i n : Nat) :
    (b.aonAdd i n).pair = b.pair := by
  exact pair_of_rest (L := [.aon]) (rest_aonAdd (by decide) ..) (by decide)

theorem pair_modExt (b : Blk) (i : Nat) (f : ExtRt → ExtRt) :
    (b.modExt i f).pair = b.pair := by
  exact pair_of_rest (L := [.ext]) (rest_modExt (by decide) ..) (by decide)

theorem pair_putCopy (b : Blk) (c : Copy) (l : Nat) (bs : Bytes) (m : LineMeta) :
    (b.putCopy c l bs m).pair = b.pair := by
  exact pair_of_rest (L := [.pool]) (rest_putCopy (by decide) ..) (by decide)

theorem pair_settleRow (b : Blk) (c line : Nat) (ks : List Nat) :
    (b.settleRow c line ks).pair = b.pair := by
  exact pair_of_rest (L := [.pool]) (rest_settleRow (by decide) ..) (by decide)

theorem pair_putHusk (b : Blk) (l : Nat) (bs : Bytes) (m : LineMeta) :
    (b.putHusk l bs m).pair = b.pair := by
  exact pair_of_rest (L := [.pool]) (rest_putHusk (by decide) ..) (by decide)

theorem pair_huskOp (b : Blk) (c code part : Nat) :
    (b.huskOp c code part).pair = b.pair := by
  exact pair_of_rest (L := [.aon, .pcs, .pool, .chans]) (rest_huskOp (by decide) (by decide) (by decide) (by decide)
      ..) (by decide)

theorem pair_countHusk (b : Blk) (l code part : Nat) :
    (b.countHusk l code part).pair = b.pair := by
  exact pair_of_rest (L := [.aon, .pcs, .pool, .chans]) (rest_countHusk (by decide) (by decide) (by decide) (by
      decide) ..) (by decide)

theorem pair_countGrain (b : Blk) (l code part : Nat) :
    (b.countGrain l code part).pair = b.pair := by
  exact pair_of_rest (L := [.aon, .pcs]) (rest_countGrain (by decide) (by decide) ..) (by decide)

theorem pair_writeLine (b : Blk) (l : Nat) (bs : Bytes) (poison : Bool) (wb : Bool) :
    (b.writeLine l bs poison wb).pair = b.pair := by
  exact pair_of_rest (L := [.aon, .pcs, .pool, .chans]) (rest_writeLine (by decide) (by decide) (by decide) (by
      decide) ..) (by decide)

theorem pair_writeMasked (b : Blk) (l : Nat) (bs : Bytes) (mask : BitVec 128) (poison : Bool) (wb : Bool) :
    (b.writeMasked l bs mask poison wb).pair = b.pair := by
  exact pair_of_rest (L := [.aon, .pcs, .pool, .chans]) (rest_writeMasked (by decide) (by decide) (by decide) (by
      decide) ..) (by decide)

theorem pair_bumpMod (b : Blk) (l n : Nat) :
    (b.bumpMod l n).pair = b.pair := by
  exact pair_of_rest (L := [.ext]) (rest_bumpMod (by decide) ..) (by decide)

theorem pair_countAccept (b : Blk) (q part : Nat) :
    (b.countAccept q part).pair = b.pair := by
  exact pair_of_rest (L := [.aon, .pcs]) (rest_countAccept (by decide) (by decide) ..) (by decide)

theorem pair_countRefusal (b : Blk) (q status part : Nat) :
    (b.countRefusal q status part).pair = b.pair := by
  exact pair_of_rest (L := [.regs, .aon, .pcs]) (rest_countRefusal (by decide) (by decide) (by decide) ..) (by decide)

theorem pair_log (b : Blk) (code unit part a bb : Nat) (flags : Nat) :
    (b.log code unit part a bb flags).pair = b.pair := by
  exact pair_of_rest (L := [.regs, .aon, .pcs, .pool, .chans, .ext, .rings]) (rest_log (by decide) (by decide) (by
      decide) (by decide) (by decide) (by decide) (by decide) ..) (by decide)

theorem pair_trace (b : Blk) (r : TraceRec) :
    (b.trace r).pair = b.pair := by
  exact pair_of_rest (L := [.regs, .aon, .pcs, .pool, .chans, .ext, .rings]) (rest_trace (by decide) (by decide) (by
      decide) (by decide) (by decide) (by decide) (by decide) ..) (by decide)

theorem pair_sendOwn (b : Blk) (q : Nat) (m : Msg) :
    ((b.sendOwn q m).2).pair = b.pair := by
  exact pair_of_rest (L := [.regs, .fab]) (rest_sendOwn (by decide) (by decide) ..) (by decide)

theorem pair_logGrain (b : Blk) (code l chan : Nat) (lane : Option Nat) :
    (b.logGrain code l chan lane).pair = b.pair := by
  exact pair_of_rest (L := [.regs, .aon, .pcs, .pool, .chans, .ext, .rings]) (rest_logGrain (by decide) (by decide)
      (by decide) (by decide) (by decide) (by decide) (by decide) ..) (by decide)

theorem pair_logHusk (b : Blk) (code c line : Nat) (lane : Option Nat) :
    (b.logHusk code c line lane).pair = b.pair := by
  exact pair_of_rest (L := [.regs, .aon, .pcs, .pool, .chans, .ext, .rings]) (rest_logHusk (by decide) (by decide)
      (by decide) (by decide) (by decide) (by decide) (by decide) ..) (by decide)

theorem pair_mirrorSend (b : Blk) (l : Nat) :
    ((b.mirrorSend l).2).pair = b.pair := by
  exact pair_of_rest (L := [.regs, .fab]) (rest_mirrorSend (by decide) (by decide) ..) (by decide)

theorem pairKept_mirrorPoison {γ : Type} {P : Pair → γ} (hP : PairProj P) (b : Blk) (l : Nat) :
    P (b.mirrorPoison l).pair = P b.pair := by
  unfold Blk.mirrorPoison
  dsimp only
  repeat' split
  all_goals simp [pair_mirrorSend, hP.eq]

theorem pairKept_poisonLine {γ : Type} {P : Pair → γ} (hP : PairProj P) (b : Blk) (l : Nat) (part : Nat) :
    P (b.poisonLine l part).pair = P b.pair := by
  unfold Blk.poisonLine
  dsimp only
  repeat' split
  all_goals simp [keeps_foldl (fun x : Blk => P x.pair), keeps_foldl_fst (fun x : Blk => P x.pair), keeps_foldl_snd
      (fun x : Blk => P x.pair), pair_flag, pair_putCopy, pair_putHusk, pair_countHusk, pair_countGrain, pair_log,
      pairKept_mirrorPoison hP, hP.eq, *]

theorem pair_clearAt (b : Blk) (c line : Nat) :
    (b.clearAt c line).pair = b.pair := by
  exact pair_of_rest (L := [.pool]) (rest_clearAt (by decide) ..) (by decide)

theorem pair_decodeAt (b : Blk) (c line rank : Nat) (lanes : List Nat) (part : Nat) :
    ((b.decodeAt c line rank lanes part).2).pair = b.pair := by
  exact pair_of_rest (L := [.regs, .aon, .pcs, .pool, .chans, .ext, .rings]) (rest_decodeAt (by decide) (by decide)
      (by decide) (by decide) (by decide) (by decide) (by decide) ..) (by decide)

theorem pair_readStook (b : Blk) (c line : Nat) (part : Nat) :
    ((b.readStook c line part).1).pair = b.pair := by
  exact pair_of_rest (L := [.regs, .aon, .pcs, .pool, .chans, .ext, .rings]) (rest_readStook (by decide) (by decide)
      (by decide) (by decide) (by decide) (by decide) (by decide) ..) (by decide)

theorem pair_copyOver (b : Blk) (c line : Nat) :
    (b.copyOver c line).pair = b.pair := by
  exact pair_of_rest (L := [.pool]) (rest_copyOver (by decide) ..) (by decide)

theorem pairKept_settleUnc {γ : Type} {P : Pair → γ} (hP : PairProj P) (b : Blk) (c line : Nat) (ks : List Nat) (part
    : Nat) :
    P (b.settleUnc c line ks part).pair = P b.pair := by
  unfold Blk.settleUnc
  dsimp only
  repeat' split
  all_goals simp [keeps_foldl (fun x : Blk => P x.pair), keeps_foldl_fst (fun x : Blk => P x.pair), keeps_foldl_snd
      (fun x : Blk => P x.pair), apply_ite (fun x : Blk => P x.pair), pair_settleRow, pair_huskOp, pair_logHusk,
      pairKept_poisonLine hP, pair_clearAt, pair_copyOver, *]

theorem pairKept_readAt {γ : Type} {P : Pair → γ} (hP : PairProj P) (b : Blk) (c line rank : Nat) (lanes : List Nat)
    (part : Nat) :
    P ((b.readAt c line rank lanes part).2).pair = P b.pair := by
  unfold Blk.readAt
  dsimp only
  repeat' split
  all_goals simp [pair_decodeAt, pair_readStook, pairKept_settleUnc hP, *]

theorem pairKept_readHusk {γ : Type} {P : Pair → γ} (hP : PairProj P) (b : Blk) (l : Nat) (part : Nat) :
    P ((b.readHusk l part).2).pair = P b.pair := by
  unfold Blk.readHusk
  dsimp only
  repeat' split
  all_goals simp [pair_readStook, pairKept_settleUnc hP, pairKept_readAt hP, *]

theorem pairKept_fetchHusk {γ : Type} {P : Pair → γ} (hP : PairProj P) (b : Blk) (l : Nat) (part : Nat) :
    P ((b.fetchHusk l part).1).pair = P b.pair := by
  simp [Blk.fetchHusk, pair_countHusk, pairKept_readHusk hP, *]

theorem pair_grainCorr (b : Blk) (ch line l lane : Nat) :
    (b.grainCorr ch line l lane).pair = b.pair := by
  exact pair_of_rest (L := [.regs, .aon, .pcs, .pool, .chans, .ext, .rings]) (rest_grainCorr (by decide) (by decide)
      (by decide) (by decide) (by decide) (by decide) (by decide) ..) (by decide)

theorem pair_grainUnc (b : Blk) (ch line : Nat) :
    (b.grainUnc ch line).pair = b.pair := by
  exact pair_of_rest (L := [.regs, .dead, .pins, .aon, .chans]) (rest_grainUnc (by decide) (by decide) (by decide)
      (by decide) (by decide) ..) (by decide)

theorem pairKept_grainLost {γ : Type} {P : Pair → γ} (hP : PairProj P) (b : Blk) (ch l part : Nat) :
    P (b.grainLost ch l part).pair = P b.pair := by
  simp [Blk.grainLost, pair_logGrain, pairKept_poisonLine hP, *]

theorem pairKept_readGrainCopy {γ : Type} {P : Pair → γ} (hP : PairProj P) (b : Blk) (l : Nat) (lanes : List Nat)
    (part : Nat) :
    P ((b.readGrainCopy l lanes part).2).pair = P b.pair := by
  unfold Blk.readGrainCopy
  dsimp only
  repeat' split
  all_goals simp only [keeps_foldl (fun x : Blk => P x.pair), pair_flag, pair_incr, pair_putCopy, pair_countGrain,
      pair_logGrain, pairKept_fetchHusk hP, pair_grainCorr, pair_grainUnc, pairKept_grainLost hP, *]

theorem pair_noteSlot (b : Blk) (l : Nat) :
    (b.noteSlot l).pair = b.pair := by
  exact pair_of_rest (L := [.regs, .aon, .pcs, .pool, .chans, .ext, .rings]) (rest_noteSlot (by decide) (by decide)
      (by decide) (by decide) (by decide) (by decide) (by decide) ..) (by decide)

theorem pairKept_fetch {γ : Type} {P : Pair → γ} (hP : PairProj P) (b : Blk) (l : Nat) :
    P ((b.fetch l).1).pair = P b.pair := by
  unfold Blk.fetch
  dsimp only
  repeat' split
  all_goals simp only [keeps_foldl (fun x : Blk => P x.pair), pair_countGrain, pairKept_fetchHusk hP,
      pairKept_readGrainCopy hP, pair_noteSlot, *]

theorem pair_dropHolder (b : Blk) (l eid : Nat) :
    (b.dropHolder l eid).pair = b.pair := by
  exact pair_of_rest (L := [.coh]) (rest_dropHolder (by decide) ..) (by decide)

theorem pair_grantX (b : Blk) (l part eid : Nat) :
    (b.grantX l part eid).pair = b.pair := by
  exact pair_of_rest (L := [.coh]) (rest_grantX (by decide) ..) (by decide)

theorem pair_addSharer (b : Blk) (l part eid : Nat) :
    (b.addSharer l part eid).pair = b.pair := by
  exact pair_of_rest (L := [.coh]) (rest_addSharer (by decide) ..) (by decide)

theorem pairKept_serve {γ : Type} {P : Pair → γ} (hP : PairProj P) (b : Blk) (t : Txn) (f : Blk → Blk) (hgo : ∀  x, P
    (f  x).pair = P (x).pair) :
    P (b.serve t f).pair = P b.pair := by
  simp [Blk.serve, *]

theorem pair_endTxn (b : Blk) (t : Txn) :
    (b.endTxn t).pair = b.pair := by
  exact pair_of_rest (L := [.coh]) (rest_endTxn (by decide) ..) (by decide)

theorem pair_answerTxn (b : Blk) (t : Txn) (ty status : Nat) (bs : Bytes) (poison replay : Bool) :
    (b.answerTxn t ty status bs poison replay).pair = b.pair := by
  exact pair_of_rest (L := [.regs, .aon, .pcs, .ext, .coh, .fab, .hub]) (rest_answerTxn (by decide) (by decide) (by
      decide) (by decide) (by decide) (by decide) (by decide) ..) (by decide)

theorem pair_mirrorWait (b : Blk) (t : Txn) (old : Bytes) :
    ((b.mirrorWait t old).2).pair = b.pair := by
  exact pair_of_rest (L := [.regs, .coh, .fab]) (rest_mirrorWait (by decide) (by decide) (by decide) ..) (by decide)

theorem pair_uncount (b : Blk) (t : Txn) :
    (b.uncount t).pair = b.pair := by
  exact pair_of_rest (L := [.ext]) (rest_uncount (by decide) ..) (by decide)

theorem pair_refuseTxn (b : Blk) (t : Txn) (status : Nat) :
    (b.refuseTxn t status).pair = b.pair := by
  exact pair_of_rest (L := [.regs, .aon, .pcs, .ext, .coh, .fab, .hub]) (rest_refuseTxn (by decide) (by decide) (by
      decide) (by decide) (by decide) (by decide) (by decide) ..) (by decide)

theorem pair_sendGrant (b : Blk) (t : Txn) (ty : Nat) (far : Bool) (bs : Bytes) (poison : Bool) :
    (b.sendGrant t ty far bs poison).pair = b.pair := by
  exact pair_of_rest (L := [.regs, .coh, .fab]) (rest_sendGrant (by decide) (by decide) (by decide) ..) (by decide)

theorem pairKept_grantTxn {γ : Type} {P : Pair → γ} (hP : PairProj P) (b : Blk) (t : Txn) :
    P (b.grantTxn t).pair = P b.pair := by
  unfold Blk.grantTxn
  dsimp only
  repeat' split
  all_goals simp only [keeps_foldl (fun x : Blk => P x.pair), pair_incr, pair_bumpMod, pairKept_fetch hP,
      pair_grantX, pair_addSharer, pair_endTxn, pair_refuseTxn, pair_sendGrant, *]

theorem pairKept_execNear {γ : Type} {P : Pair → γ} (hP : PairProj P) (b : Blk) (t : Txn) (a : AtmOp) :
    P (b.execNear t a).pair = P b.pair := by
  unfold Blk.execNear
  dsimp only
  repeat' split
  all_goals simp only [keeps_foldl (fun x : Blk => P x.pair), pair_incr, pair_aonAdd, pair_writeLine, pair_log,
      pair_trace, pairKept_fetch hP, pair_endTxn, pair_answerTxn, pair_mirrorWait, pair_uncount, pair_refuseTxn, *]

theorem pairKept_noteHeader {γ : Type} {P : Pair → γ} (hP : PairProj P) (b : Blk) (l : Nat) :
    P (b.noteHeader l).pair = P b.pair := by
  unfold Blk.noteHeader
  dsimp only
  repeat' split
  all_goals simp [keeps_foldl (fun x : Blk => P x.pair), keeps_foldl_fst (fun x : Blk => P x.pair), keeps_foldl_snd
      (fun x : Blk => P x.pair), hP.eq, *]

theorem pairKept_finishTxn {γ : Type} {P : Pair → γ} (hP : PairProj P) (b0 : Blk) (t : Txn) :
    P (b0.finishTxn t).pair = P b0.pair := by
  unfold Blk.finishTxn
  dsimp only
  repeat' split
  all_goals simp [keeps_foldl (fun x : Blk => P x.pair), keeps_foldl_fst (fun x : Blk => P x.pair), keeps_foldl_snd
      (fun x : Blk => P x.pair), apply_ite (fun x : Blk => P x.pair), pair_writeMasked, pairKept_fetch hP,
      pair_dropHolder, pairKept_serve hP, pair_endTxn, pair_answerTxn, pair_mirrorWait, pair_refuseTxn,
      pairKept_grantTxn hP, pairKept_execNear hP, pairKept_noteHeader hP, *]

theorem pairKept_hubFetch {γ : Type} {P : Pair → γ} (hP : PairProj P) (b : Blk) (l : Nat) :
    P ((b.hubFetch l).2).pair = P b.pair := by
  unfold Blk.hubFetch
  dsimp only
  repeat' split
  all_goals simp only [keeps_foldl (fun x : Blk => P x.pair), pair_countAccept, pair_countRefusal, pairKept_fetch hP, *]

theorem pairKept_hubLines {γ : Type} {P : Pair → γ} (hP : PairProj P) (b : Blk) (x0 : List Nat) :
    P ((b.hubLines x0).2).pair = P b.pair := by
  induction x0 generalizing b with
  | nil => rfl
  | cons l t ih => simp [Blk.hubLines, ih, pairKept_hubFetch hP, *]

theorem pairKept_mirrorEnd {γ : Type} {P : Pair → γ} (hP : PairProj P) (b : Blk) (t : Txn) (status : Nat) (old :
    Bytes) :
    P (b.mirrorEnd t status old).pair = P b.pair := by
  unfold Blk.mirrorEnd
  dsimp only
  repeat' split
  all_goals simp only [keeps_foldl (fun x : Blk => P x.pair), pair_countRefusal, pair_endTxn, pair_answerTxn,
      pairKept_finishTxn hP, *]

theorem pairKept_endMirrors {γ : Type} {P : Pair → γ} (hP : PairProj P) (b0 : Blk) (status : Nat) :
    P (b0.endMirrors status).pair = P b0.pair := by
  unfold Blk.endMirrors
  refine (keeps_foldl (fun x : Blk => P x.pair) (fun x t => ?_) _ _).trans (hP.eq ..)
  split
  · exact pairKept_mirrorEnd hP ..
  · rfl

theorem pairKept_setPairPins {γ : Type} {P : Pair → γ} (hP : PairProj P) (b : Blk) :
    P (b.setPairPins).pair = P b.pair := by
  unfold Blk.setPairPins
  dsimp only
  repeat' split
  all_goals simp [keeps_foldl (fun x : Blk => P x.pair), keeps_foldl_fst (fun x : Blk => P x.pair), keeps_foldl_snd
      (fun x : Blk => P x.pair), hP.eq, *]

theorem pairKept_ckptHead {γ : Type} {P : Pair → γ} (hP : PairProj P) (b : Blk) :
    P ((b.ckptHead).2).pair = P b.pair := by
  simp [Blk.ckptHead, pairKept_hubFetch hP, *]

theorem pairKept_ckptSlots {γ : Type} {P : Pair → γ} (hP : PairProj P) (b : Blk) (off size n eseqAt : Nat) :
    P ((b.ckptSlots off size n eseqAt).2).pair = P b.pair := by
  simp [Blk.ckptSlots, pairKept_hubLines hP, *]

theorem pair_putLease (b : Blk) (eid : Nat) (l : Lease) :
    (b.putLease eid l).pair = b.pair := by
  exact pair_of_rest (L := [.ext]) (rest_putLease (by decide) ..) (by decide)

theorem pair_restoreLeases (b : Blk) (m : Map Bytes) :
    (b.restoreLeases m).pair = b.pair := by
  exact pair_of_rest (L := [.ext]) (rest_restoreLeases (by decide) ..) (by decide)

theorem pair_restoreExts (b : Blk) (m : Map Bytes) :
    (b.restoreExts m).pair = b.pair := by
  exact pair_of_rest (L := [.ext]) (rest_restoreExts (by decide) ..) (by decide)

theorem pair_reindex (b : Blk) (was now : Map Agent) :
    (b.reindex was now).pair = b.pair := by
  exact pair_of_rest (L := [.coh]) (rest_reindex (by decide) ..) (by decide)

theorem pairKept_restoreAgents {γ : Type} {P : Pair → γ} (hP : PairProj P) (b : Blk) (m : Map Bytes) :
    P (b.restoreAgents m).pair = P b.pair := by
  simp [Blk.restoreAgents, apply_ite (fun x : Blk => P x.pair), keeps_foldl (fun x : Blk => P x.pair),
      keeps_foldl_fst (fun x : Blk => P x.pair), keeps_foldl_snd (fun x : Blk => P x.pair), pair_sendOwn,
      pair_reindex, hP.eq, *]

theorem pairKept_restore {γ : Type} {P : Pair → γ} (hP : PairProj P) (b : Blk) :
    P (b.restore).pair = P b.pair := by
  unfold Blk.restore
  dsimp only
  repeat' split
  all_goals simp [keeps_foldl (fun x : Blk => P x.pair), keeps_foldl_fst (fun x : Blk => P x.pair), keeps_foldl_snd
      (fun x : Blk => P x.pair), pair_flag, pair_modExt, pair_log, pairKept_ckptHead hP, pairKept_ckptSlots hP,
      pair_putLease, pair_restoreLeases, pair_restoreExts, pairKept_restoreAgents hP, hP.eq, *]

theorem coh_flag (b : Blk) (off i : Nat) :
    (b.flag off i).coh = b.coh := by
  exact coh_of_rest (L := [.regs]) (rest_flag (by decide) ..) (by decide)

theorem coh_incr (b : Blk) (off : Nat) :
    (b.incr off).coh = b.coh := by
  exact coh_of_rest (L := [.regs]) (rest_incr (by decide) ..) (by decide)

theorem coh_aonAdd (b : Blk) (i n : Nat) :
    (b.aonAdd i n).coh = b.coh := by
  exact coh_of_rest (L := [.aon]) (rest_aonAdd (by decide) ..) (by decide)

theorem coh_event (b : Blk) (unit code : Nat) (part : Option Nat) (n : Nat) :
    (b.event unit code part n).coh = b.coh := by
  exact coh_of_rest (L := [.pcs]) (rest_event (by decide) ..) (by decide)

theorem coh_writeLine (b : Blk) (l : Nat) (bs : Bytes) (poison : Bool) (wb : Bool) :
    (b.writeLine l bs poison wb).coh = b.coh := by
  exact coh_of_rest (L := [.aon, .pcs, .pool, .chans]) (rest_writeLine (by decide) (by decide) (by decide) (by
      decide) ..) (by decide)

theorem coh_writeMasked (b : Blk) (l : Nat) (bs : Bytes) (mask : BitVec 128) (poison : Bool) (wb : Bool) :
    (b.writeMasked l bs mask poison wb).coh = b.coh := by
  exact coh_of_rest (L := [.aon, .pcs, .pool, .chans]) (rest_writeMasked (by decide) (by decide) (by decide) (by
      decide) ..) (by decide)

theorem coh_bumpMod (b : Blk) (l n : Nat) :
    (b.bumpMod l n).coh = b.coh := by
  exact coh_of_rest (L := [.ext]) (rest_bumpMod (by decide) ..) (by decide)

theorem coh_countAccept (b : Blk) (q part : Nat) :
    (b.countAccept q part).coh = b.coh := by
  exact coh_of_rest (L := [.aon, .pcs]) (rest_countAccept (by decide) (by decide) ..) (by decide)

theorem coh_countRefusal (b : Blk) (q status part : Nat) :
    (b.countRefusal q status part).coh = b.coh := by
  exact coh_of_rest (L := [.regs, .aon, .pcs]) (rest_countRefusal (by decide) (by decide) (by decide) ..) (by decide)

theorem coh_unbump (b : Blk) (l : Nat) :
    (b.unbump l).coh = b.coh := by
  exact coh_of_rest (L := [.ext]) (rest_unbump (by decide) ..) (by decide)

theorem coh_log (b : Blk) (code unit part a bb : Nat) (flags : Nat) :
    (b.log code unit part a bb flags).coh = b.coh := by
  exact coh_of_rest (L := [.regs, .aon, .pcs, .pool, .chans, .ext, .rings]) (rest_log (by decide) (by decide) (by
      decide) (by decide) (by decide) (by decide) (by decide) ..) (by decide)

theorem coh_trace (b : Blk) (r : TraceRec) :
    (b.trace r).coh = b.coh := by
  exact coh_of_rest (L := [.regs, .aon, .pcs, .pool, .chans, .ext, .rings]) (rest_trace (by decide) (by decide) (by
      decide) (by decide) (by decide) (by decide) (by decide) ..) (by decide)

theorem coh_send (b : Blk) (q : Nat) (m : Msg) :
    ((b.send q m).2).coh = b.coh := by
  exact coh_of_rest (L := [.regs, .fab]) (rest_send (by decide) (by decide) ..) (by decide)

theorem coh_noteLoad (b : Blk) (eid v : Nat) :
    (b.noteLoad eid v).coh = b.coh := by
  exact coh_of_rest (L := [.fab]) (rest_noteLoad (by decide) ..) (by decide)

theorem coh_answerCtrl (b : Blk) (q : Nat) (src msgId traceId ty status : Nat) (payload : Bytes) :
    (b.answerCtrl q src msgId traceId ty status payload).coh = b.coh := by
  exact coh_of_rest (L := [.regs, .fab]) (rest_answerCtrl (by decide) (by decide) ..) (by decide)

theorem coh_mirrorSend (b : Blk) (l : Nat) :
    ((b.mirrorSend l).2).coh = b.coh := by
  exact coh_of_rest (L := [.regs, .fab]) (rest_mirrorSend (by decide) (by decide) ..) (by decide)

theorem coh_poisonLine (b : Blk) (l : Nat) (part : Nat) :
    (b.poisonLine l part).coh = b.coh := by
  exact coh_of_rest (L := [.regs, .aon, .pcs, .pool, .chans, .ext, .fab, .rings, .pair]) (rest_poisonLine (by decide)
      (by decide) (by decide) (by decide) (by decide) (by decide) (by decide) (by decide) (by decide) ..) (by decide)

theorem coh_fetch (b : Blk) (l : Nat) :
    ((b.fetch l).1).coh = b.coh := by
  exact coh_of_rest (L := [.regs, .dead, .pins, .aon, .pcs, .pool, .chans, .ext, .fab, .rings, .pair]) (rest_fetch
      (by decide) (by decide) (by decide) (by decide) (by decide) (by decide) (by decide) (by decide) (by decide) (by
      decide) (by decide) ..) (by decide)

theorem coh_aptRefuse (b : Blk) (write : Bool) (line status : Nat) :
    (b.aptRefuse write line status).coh = b.coh := by
  exact coh_of_rest (L := [.regs]) (rest_aptRefuse (by decide) ..) (by decide)

theorem coh_aptLand (b : Blk) (tag l status : Nat) (bs : Bytes) (poison : Bool) :
    (b.aptLand tag l status bs poison).coh = b.coh := by
  exact coh_of_rest (L := [.regs, .hub]) (rest_aptLand (by decide) (by decide) ..) (by decide)

theorem agents_poisonDead {γ : Type} {P : Coh → γ} (hP : AgentProj P) (b : Blk) (l owner : Nat) :
    P (b.poisonDead l owner).coh = P b.coh := by
  simp [Blk.poisonDead, coh_flag, coh_incr, coh_log, coh_poisonLine, hP.eq]

theorem agents_dropHolder {γ : Type} {P : Coh → γ} (hP : AgentProj P) (b : Blk) (l eid : Nat) :
    P (b.dropHolder l eid).coh = P b.coh := by
  unfold Blk.dropHolder
  dsimp only
  repeat' split
  all_goals simp [keeps_foldl (fun x : Blk => P x.coh), keeps_foldl_fst (fun x : Blk => P x.coh), keeps_foldl_snd
      (fun x : Blk => P x.coh), hP.eq, *]

theorem agents_touch {γ : Type} {P : Coh → γ} (hP : AgentProj P) (b : Blk) (l : Nat) :
    P (b.touch l).coh = P b.coh := by
  simp [Blk.touch, hP.eq]

theorem agents_grantX {γ : Type} {P : Coh → γ} (hP : AgentProj P) (b : Blk) (l part eid : Nat) :
    P (b.grantX l part eid).coh = P b.coh := by
  unfold Blk.grantX
  dsimp only
  repeat' split
  all_goals simp [keeps_foldl (fun x : Blk => P x.coh), keeps_foldl_fst (fun x : Blk => P x.coh), keeps_foldl_snd
      (fun x : Blk => P x.coh), hP.eq, *]

theorem agents_addSharer {γ : Type} {P : Coh → γ} (hP : AgentProj P) (b : Blk) (l part eid : Nat) :
    P (b.addSharer l part eid).coh = P b.coh := by
  unfold Blk.addSharer
  dsimp only
  repeat' split
  all_goals simp [keeps_foldl (fun x : Blk => P x.coh), keeps_foldl_fst (fun x : Blk => P x.coh), keeps_foldl_snd
      (fun x : Blk => P x.coh), hP.eq, *]

theorem coh_dirLookup (b : Blk) (l : Nat) :
    (b.dirLookup l).coh = b.coh := by
  exact coh_of_rest (L := [.regs, .fresh, .aon, .pcs]) (rest_dirLookup (by decide) (by decide) (by decide) (by
      decide) ..) (by decide)

theorem coh_sendSnoop (b : Blk) (l eid snpId part : Nat) (k : SnpKind) :
    (b.sendSnoop l eid snpId part k).coh = b.coh := by
  exact coh_of_rest (L := [.regs, .pcs, .fab]) (rest_sendSnoop (by decide) (by decide) (by decide) ..) (by decide)

theorem agents_snoopAll {γ : Type} {P : Coh → γ} (hP : AgentProj P) (b : Blk) (t : Txn) (k : SnpKind) (x0 : List Nat) :
    P ((b.snoopAll t k x0).1).coh = P b.coh := by
  induction x0 generalizing b with
  | nil => rfl
  | cons a l ih =>
    simp only [Blk.snoopAll]
    rw [ih, coh_sendSnoop]
    exact hP.eq ..

theorem agents_serve {γ : Type} {P : Coh → γ} (hP : AgentProj P) (b : Blk) (t : Txn) (f : Blk → Blk) (hgo : ∀  x, P
    (f  x).coh = P (x).coh) :
    P (b.serve t f).coh = P b.coh := by
  simp [Blk.serve, keeps_foldl (fun x : Blk => P x.coh), keeps_foldl_fst (fun x : Blk => P x.coh), keeps_foldl_snd
      (fun x : Blk => P x.coh), hP.eq, *]

theorem agents_putTxn {γ : Type} {P : Coh → γ} (hP : AgentProj P) (b : Blk) (t : Txn) :
    P (b.putTxn t).coh = P b.coh := by
  simp [Blk.putTxn, hP.eq]

theorem agents_endTxn {γ : Type} {P : Coh → γ} (hP : AgentProj P) (b : Blk) (t : Txn) :
    P (b.endTxn t).coh = P b.coh := by
  simp [Blk.endTxn, hP.eq]

theorem coh_respond (b : Blk) (q ty src msgId traceId addr status : Nat) (far replay : Bool) (payload : Bytes)
    (poison : Bool) (cls part : Nat) :
    ((b.respond q ty src msgId traceId addr status far replay payload poison cls part).2).coh = b.coh := by
  exact coh_of_rest (L := [.regs, .fab]) (rest_respond (by decide) (by decide) ..) (by decide)

theorem agents_land {γ : Type} {P : Coh → γ} (hP : AgentProj P) (b : Blk) (w : Who) (write : Bool) (l status : Nat)
    (bs : Bytes) (poison : Bool) :
    P (b.land w write l status bs poison).coh = P b.coh := by
  unfold Blk.land
  dsimp only
  repeat' split
  all_goals simp [coh_aptRefuse, coh_aptLand, hP.eq]

theorem agents_endJob {γ : Type} {P : Coh → γ} (hP : AgentProj P) (b : Blk) (id : Nat) (j : Job) :
    P (b.endJob id j).coh = P b.coh := by
  unfold Blk.endJob
  dsimp only
  repeat' split
  all_goals simp [coh_countRefusal, coh_unbump, coh_send, coh_noteLoad, coh_respond, hP.eq]

theorem agents_jobLine {γ : Type} {P : Coh → γ} (hP : AgentProj P) (b : Blk) (id l status : Nat) (bs : Bytes) (poison
    : Bool) :
    P (b.jobLine id l status bs poison).coh = P b.coh := by
  unfold Blk.jobLine
  dsimp only
  repeat' split
  all_goals simp [agents_endJob hP, hP.eq]

theorem agents_answerTxn {γ : Type} {P : Coh → γ} (hP : AgentProj P) (b : Blk) (t : Txn) (ty status : Nat) (bs :
    Bytes) (poison replay : Bool) :
    P (b.answerTxn t ty status bs poison replay).coh = P b.coh := by
  unfold Blk.answerTxn
  cases hj : t.job with
  | some id => simp [agents_jobLine hP, *]
  | none => cases hw : t.who <;> simp [coh_respond, agents_land hP, *]

theorem agents_mirrorWait {γ : Type} {P : Coh → γ} (hP : AgentProj P) (b : Blk) (t : Txn) (old : Bytes) :
    P ((b.mirrorWait t old).2).coh = P b.coh := by
  unfold Blk.mirrorWait
  dsimp only
  repeat' split
  all_goals simp only [keeps_foldl (fun x : Blk => P x.coh), coh_mirrorSend, agents_putTxn hP, *]

theorem agents_freeRat {γ : Type} {P : Coh → γ} (hP : AgentProj P) (b : Blk) (t : Txn) (a : AtmOp) :
    P (b.freeRat t a).coh = P b.coh := by
  unfold Blk.freeRat
  dsimp only
  repeat' split
  all_goals simp [keeps_foldl (fun x : Blk => P x.coh), keeps_foldl_fst (fun x : Blk => P x.coh), keeps_foldl_snd
      (fun x : Blk => P x.coh), hP.eq, *]

theorem coh_uncount (b : Blk) (t : Txn) :
    (b.uncount t).coh = b.coh := by
  exact coh_of_rest (L := [.ext]) (rest_uncount (by decide) ..) (by decide)

theorem agents_refuseTxn {γ : Type} {P : Coh → γ} (hP : AgentProj P) (b : Blk) (t : Txn) (status : Nat) :
    P (b.refuseTxn t status).coh = P b.coh := by
  unfold Blk.refuseTxn
  dsimp only
  repeat' split
  all_goals simp only [keeps_foldl (fun x : Blk => P x.coh), coh_countRefusal, agents_endTxn hP, agents_answerTxn hP,
      agents_freeRat hP, coh_uncount, *]

theorem agents_sendGrant {γ : Type} {P : Coh → γ} (hP : AgentProj P) (b : Blk) (t : Txn) (ty : Nat) (far : Bool) (bs
    : Bytes) (poison : Bool) :
    P (b.sendGrant t ty far bs poison).coh = P b.coh := by
  unfold Blk.sendGrant
  dsimp only
  repeat' split
  all_goals simp only [keeps_foldl (fun x : Blk => P x.coh), agents_putTxn hP, agents_endTxn hP, coh_respond, *]

theorem agents_grantTxn {γ : Type} {P : Coh → γ} (hP : AgentProj P) (b : Blk) (t : Txn) :
    P (b.grantTxn t).coh = P b.coh := by
  unfold Blk.grantTxn
  dsimp only
  repeat' split
  all_goals simp only [keeps_foldl (fun x : Blk => P x.coh), coh_incr, coh_bumpMod, coh_fetch, agents_grantX hP,
      agents_addSharer hP, agents_endTxn hP, agents_refuseTxn hP, agents_sendGrant hP, *]

theorem agents_execNear {γ : Type} {P : Coh → γ} (hP : AgentProj P) (b : Blk) (t : Txn) (a : AtmOp) :
    P (b.execNear t a).coh = P b.coh := by
  unfold Blk.execNear
  dsimp only
  repeat' split
  all_goals simp [coh_incr, coh_aonAdd, coh_writeLine, coh_log, coh_trace, coh_fetch, agents_endTxn hP,
      agents_answerTxn hP, agents_mirrorWait hP, coh_uncount, agents_refuseTxn hP, hP.eq]

theorem coh_noteHeader (b : Blk) (l : Nat) :
    (b.noteHeader l).coh = b.coh := by
  exact coh_of_rest (L := [.pair]) (rest_noteHeader (by decide) ..) (by decide)

theorem agents_finishTxn {γ : Type} {P : Coh → γ} (hP : AgentProj P) (b0 : Blk) (t : Txn) :
    P (b0.finishTxn t).coh = P b0.coh := by
  unfold Blk.finishTxn
  dsimp only
  repeat' split
  all_goals simp [apply_ite (fun x : Blk => P x.coh), keeps_foldl (fun x : Blk => P x.coh), keeps_foldl_fst (fun x :
      Blk => P x.coh), keeps_foldl_snd (fun x : Blk => P x.coh), coh_writeMasked, coh_fetch, agents_dropHolder hP,
      agents_serve hP, agents_endTxn hP, agents_answerTxn hP, agents_mirrorWait hP, agents_refuseTxn hP,
      agents_grantTxn hP, agents_execNear hP, coh_noteHeader, hP.eq, *]

theorem agents_advance {γ : Type} {P : Coh → γ} (hP : AgentProj P) (b0 : Blk) (t : Txn) :
    P (b0.advance t).coh = P b0.coh := by
  unfold Blk.advance
  dsimp only
  repeat' split
  all_goals simp [keeps_foldl (fun x : Blk => P x.coh), keeps_foldl_fst (fun x : Blk => P x.coh), keeps_foldl_snd
      (fun x : Blk => P x.coh), apply_ite (fun x : Blk => P x.coh), coh_writeLine, coh_mirrorSend, agents_serve hP,
      agents_putTxn hP, agents_finishTxn hP, *]

theorem agents_evictSnoop {γ : Type} {P : Coh → γ} (hP : AgentProj P) (b : Blk) (l : Nat) (e : DirEnt) :
    P ((b.evictSnoop l e).2).coh = P b.coh := by
  unfold Blk.evictSnoop
  dsimp only
  repeat' split
  all_goals simp [agents_snoopAll hP, agents_putTxn hP, hP.eq]

theorem agents_evict {γ : Type} {P : Coh → γ} (hP : AgentProj P) (b : Blk) (l : Nat) :
    P ((b.evict l).2).coh = P b.coh := by
  unfold Blk.evict
  dsimp only
  repeat' split
  all_goals simp only [keeps_foldl (fun x : Blk => P x.coh), coh_incr, coh_event, agents_poisonDead hP,
      agents_evictSnoop hP, *]

theorem coh_settleCount (b : Blk) (t : Txn) :
    ((b.settleCount t).2).coh = b.coh := by
  exact coh_of_rest (L := [.ext]) (rest_settleCount (by decide) ..) (by decide)

theorem agents_runTxn {γ : Type} {P : Coh → γ} (hP : AgentProj P) (b0 : Blk) (t0 : Txn) :
    P (b0.runTxn t0).coh = P b0.coh := by
  unfold Blk.runTxn
  dsimp only
  repeat' split
  all_goals simp only [keeps_foldl (fun x : Blk => P x.coh), agents_snoopAll hP, agents_putTxn hP, agents_advance hP,
      coh_settleCount, *]

theorem coh_uncountRds (b : Blk) (t : Txn) :
    (b.uncountRds t).coh = b.coh := by
  exact coh_of_rest (L := [.ext]) (rest_uncountRds (by decide) ..) (by decide)

theorem coh_countRds (b : Blk) (t : Txn) :
    ((b.countRds t).2).coh = b.coh := by
  exact coh_of_rest (L := [.ext]) (rest_countRds (by decide) ..) (by decide)

theorem agents_startTxn {γ : Type} {P : Coh → γ} (hP : AgentProj P) (b : Blk) (t0 : Txn) (again : Bool) :
    P (b.startTxn t0 again).coh = P b.coh := by
  unfold Blk.startTxn
  dsimp only
  repeat' split
  all_goals simp [coh_incr, agents_poisonDead hP, agents_touch hP, coh_dirLookup, agents_evict hP, agents_runTxn hP,
      coh_uncountRds, coh_countRds, hP.eq]

theorem agents_beginTxn {γ : Type} {P : Coh → γ} (hP : AgentProj P) (b : Blk) (t : Txn) :
    P (b.beginTxn t).coh = P b.coh := by
  unfold Blk.beginTxn
  dsimp only
  repeat' split
  all_goals simp [coh_countRds, agents_startTxn hP, hP.eq]

theorem agents_writeInt {γ : Type} {P : Coh → γ} (hP : AgentProj P) (b : Blk) (r : Requester) (l : Nat) (bs : Bytes)
    (mask : BitVec 128) (poison : Bool) :
    P ((b.writeInt r l bs mask poison).2).coh = P b.coh := by
  unfold Blk.writeInt
  dsimp only
  repeat' split
  all_goals simp only [keeps_foldl (fun x : Blk => P x.coh), coh_bumpMod, coh_countAccept, coh_countRefusal,
      agents_beginTxn hP, *]

theorem agents_devWrite {γ : Type} {P : Coh → γ} (hP : AgentProj P) (b : Blk) (a : Nat) (bs : Bytes) :
    P (b.devWrite a bs).coh = P b.coh := by
  simp [Blk.devWrite, keeps_foldl (fun x : Blk => P x.coh), agents_writeInt hP, *]

theorem agents_answered {γ : Type} {P : Coh → γ} (hP : AgentProj P) (b : Blk) (t : Txn) (eid : Nat) :
    P (b.answered t eid).coh = P b.coh := by
  unfold Blk.answered
  dsimp only
  repeat' split
  all_goals simp only [keeps_foldl (fun x : Blk => P x.coh), agents_putTxn hP, agents_advance hP, *]

theorem agents_setAnswered {γ : Type} {P : Coh → γ} (hP : AgentProj P) (b : Blk) (q eid snpId : Nat) :
    P (b.setAnswered q eid snpId).coh = P b.coh := by
  unfold Blk.setAnswered
  dsimp only
  repeat' split
  all_goals simp [coh_flag, coh_log, hP.eq]

theorem agents_resolveDead {γ : Type} {P : Coh → γ} (hP : AgentProj P) (b : Blk) (q eid : Nat) :
    P (b.resolveDead q eid).coh = P b.coh := by
  unfold Blk.resolveDead
  refine (keeps_foldl (fun x : Blk => P x.coh) (fun x s => ?_) _ _).trans ((keeps_foldl (fun x : Blk => P x.coh) (fun
      x t => ?_) _ _).trans (keeps_foldl (fun x : Blk => P x.coh) (fun x t => ?_) _ _))
  · simp [agents_setAnswered hP, *]
  · simp [agents_endTxn hP, *]
  · dsimp only
    split
    · rfl
    · rw [agents_answered hP      
              ]
      split
      · simp [agents_poisonDead hP, *]
      · simp [agents_dropHolder hP, *]

theorem pins_flag (b : Blk) (off i : Nat) :
    (b.flag off i).pins = b.pins := by
  exact pins_of_rest (L := [.regs]) (rest_flag (by decide) ..) (by decide)

theorem pins_incr (b : Blk) (off : Nat) :
    (b.incr off).pins = b.pins := by
  exact pins_of_rest (L := [.regs]) (rest_incr (by decide) ..) (by decide)

theorem pins_aonAdd (b : Blk) (i n : Nat) :
    (b.aonAdd i n).pins = b.pins := by
  exact pins_of_rest (L := [.aon]) (rest_aonAdd (by decide) ..) (by decide)

theorem pins_modGrain (b : Blk) (c : Nat) (f : GrainChan → GrainChan) :
    (b.modGrain c f).pins = b.pins := by
  exact pins_of_rest (L := [.chans]) (rest_modGrain (by decide) ..) (by decide)

theorem pins_putCopy (b : Blk) (c : Copy) (l : Nat) (bs : Bytes) (m : LineMeta) :
    (b.putCopy c l bs m).pins = b.pins := by
  exact pins_of_rest (L := [.pool]) (rest_putCopy (by decide) ..) (by decide)

theorem pins_countGrain (b : Blk) (l code part : Nat) :
    (b.countGrain l code part).pins = b.pins := by
  exact pins_of_rest (L := [.aon, .pcs]) (rest_countGrain (by decide) (by decide) ..) (by decide)

theorem pins_writeLine (b : Blk) (l : Nat) (bs : Bytes) (poison : Bool) (wb : Bool) :
    (b.writeLine l bs poison wb).pins = b.pins := by
  exact pins_of_rest (L := [.aon, .pcs, .pool, .chans]) (rest_writeLine (by decide) (by decide) (by decide) (by
      decide) ..) (by decide)

theorem pins_writeMasked (b : Blk) (l : Nat) (bs : Bytes) (mask : BitVec 128) (poison : Bool) (wb : Bool) :
    (b.writeMasked l bs mask poison wb).pins = b.pins := by
  exact pins_of_rest (L := [.aon, .pcs, .pool, .chans]) (rest_writeMasked (by decide) (by decide) (by decide) (by
      decide) ..) (by decide)

theorem pins_bumpMod (b : Blk) (l n : Nat) :
    (b.bumpMod l n).pins = b.pins := by
  exact pins_of_rest (L := [.ext]) (rest_bumpMod (by decide) ..) (by decide)

theorem pins_countAccept (b : Blk) (q part : Nat) :
    (b.countAccept q part).pins = b.pins := by
  exact pins_of_rest (L := [.aon, .pcs]) (rest_countAccept (by decide) (by decide) ..) (by decide)

theorem pins_countRefusal (b : Blk) (q status part : Nat) :
    (b.countRefusal q status part).pins = b.pins := by
  exact pins_of_rest (L := [.regs, .aon, .pcs]) (rest_countRefusal (by decide) (by decide) (by decide) ..) (by decide)

theorem pins_log (b : Blk) (code unit part a bb : Nat) (flags : Nat) :
    (b.log code unit part a bb flags).pins = b.pins := by
  exact pins_of_rest (L := [.regs, .aon, .pcs, .pool, .chans, .ext, .rings]) (rest_log (by decide) (by decide) (by
      decide) (by decide) (by decide) (by decide) (by decide) ..) (by decide)

theorem pins_trace (b : Blk) (r : TraceRec) :
    (b.trace r).pins = b.pins := by
  exact pins_of_rest (L := [.regs, .aon, .pcs, .pool, .chans, .ext, .rings]) (rest_trace (by decide) (by decide) (by
      decide) (by decide) (by decide) (by decide) (by decide) ..) (by decide)

theorem ready_loseDevice (b : Blk) :
    (b.loseDevice).pins.devReady = b.pins.devReady := by
  simp [Blk.loseDevice, rest, *]

theorem ready_failLayer (b : Blk) (layer : Nat) :
    (b.failLayer layer).pins.devReady = b.pins.devReady := by
  simp [Blk.failLayer, ready_loseDevice, *]

theorem pins_logGrain (b : Blk) (code l chan : Nat) (lane : Option Nat) :
    (b.logGrain code l chan lane).pins = b.pins := by
  exact pins_of_rest (L := [.regs, .aon, .pcs, .pool, .chans, .ext, .rings]) (rest_logGrain (by decide) (by decide)
      (by decide) (by decide) (by decide) (by decide) (by decide) ..) (by decide)

theorem pins_mirrorSend (b : Blk) (l : Nat) :
    (b.mirrorSend l).2.pins = b.pins := by
  exact pins_of_rest (L := [.regs, .fab]) (rest_mirrorSend (by decide) (by decide) ..) (by decide)

theorem pins_fetchHusk (b : Blk) (l : Nat) (part : Nat) :
    (b.fetchHusk l part).1.pins = b.pins := by
  exact pins_of_rest (L := [.regs, .aon, .pcs, .pool, .chans, .ext, .fab, .rings, .pair]) (rest_fetchHusk (by decide)
      (by decide) (by decide) (by decide) (by decide) (by decide) (by decide) (by decide) (by decide) ..) (by decide)

theorem pins_grainCorr (b : Blk) (ch line l lane : Nat) :
    (b.grainCorr ch line l lane).pins = b.pins := by
  exact pins_of_rest (L := [.regs, .aon, .pcs, .pool, .chans, .ext, .rings]) (rest_grainCorr (by decide) (by decide)
      (by decide) (by decide) (by decide) (by decide) (by decide) ..) (by decide)

theorem ready_grainUnc (b : Blk) (ch line : Nat) :
    (b.grainUnc ch line).pins.devReady = b.pins.devReady := by
  unfold Blk.grainUnc
  dsimp only
  repeat' split
  all_goals simp only [keeps_foldl (fun x : Blk => x.pins.devReady), pins_flag, pins_incr, pins_aonAdd,
      pins_modGrain, ready_failLayer, *]

theorem pins_grainLost (b : Blk) (ch l part : Nat) :
    (b.grainLost ch l part).pins = b.pins := by
  exact pins_of_rest (L := [.regs, .aon, .pcs, .pool, .chans, .ext, .fab, .rings, .pair]) (rest_grainLost (by decide)
      (by decide) (by decide) (by decide) (by decide) (by decide) (by decide) (by decide) (by decide) ..) (by decide)

theorem ready_readGrainCopy (b : Blk) (l : Nat) (lanes : List Nat) (part : Nat) :
    (b.readGrainCopy l lanes part).2.pins.devReady = b.pins.devReady := by
  unfold Blk.readGrainCopy
  dsimp only
  repeat' split
  all_goals simp only [keeps_foldl (fun x : Blk => x.pins.devReady), pins_flag, pins_incr, pins_putCopy,
      pins_countGrain, pins_logGrain, pins_fetchHusk, pins_grainCorr, ready_grainUnc, pins_grainLost, *]

theorem pins_noteSlot (b : Blk) (l : Nat) :
    (b.noteSlot l).pins = b.pins := by
  exact pins_of_rest (L := [.regs, .aon, .pcs, .pool, .chans, .ext, .rings]) (rest_noteSlot (by decide) (by decide)
      (by decide) (by decide) (by decide) (by decide) (by decide) ..) (by decide)

theorem ready_fetch (b : Blk) (l : Nat) :
    (b.fetch l).1.pins.devReady = b.pins.devReady := by
  unfold Blk.fetch
  dsimp only
  repeat' split
  all_goals simp only [keeps_foldl (fun x : Blk => x.pins.devReady), pins_countGrain, pins_fetchHusk,
      ready_readGrainCopy, pins_noteSlot, *]

theorem pins_poisonDead (b : Blk) (l owner : Nat) :
    (b.poisonDead l owner).pins = b.pins := by
  exact pins_of_rest (L := [.regs, .aon, .pcs, .pool, .chans, .ext, .coh, .fab, .rings, .pair]) (rest_poisonDead (by
      decide) (by decide) (by decide) (by decide) (by decide) (by decide) (by decide) (by decide) (by decide) (by
      decide) ..) (by decide)

theorem pins_dropHolder (b : Blk) (l eid : Nat) :
    (b.dropHolder l eid).pins = b.pins := by
  exact pins_of_rest (L := [.coh]) (rest_dropHolder (by decide) ..) (by decide)

theorem pins_touch (b : Blk) (l : Nat) :
    (b.touch l).pins = b.pins := by
  exact pins_of_rest (L := [.coh]) (rest_touch (by decide) ..) (by decide)

theorem pins_grantX (b : Blk) (l part eid : Nat) :
    (b.grantX l part eid).pins = b.pins := by
  exact pins_of_rest (L := [.coh]) (rest_grantX (by decide) ..) (by decide)

theorem pins_addSharer (b : Blk) (l part eid : Nat) :
    (b.addSharer l part eid).pins = b.pins := by
  exact pins_of_rest (L := [.coh]) (rest_addSharer (by decide) ..) (by decide)

theorem pins_dirLookup (b : Blk) (l : Nat) :
    (b.dirLookup l).pins = b.pins := by
  exact pins_of_rest (L := [.regs, .fresh, .aon, .pcs]) (rest_dirLookup (by decide) (by decide) (by decide) (by
      decide) ..) (by decide)

theorem pins_snoopAll (b : Blk) (t : Txn) (k : SnpKind) (x0 : List Nat) :
    (b.snoopAll t k x0).1.pins = b.pins := by
  exact pins_of_rest (L := [.regs, .pcs, .coh, .fab]) (rest_snoopAll (by decide) (by decide) (by decide) (by decide)
      ..) (by decide)

theorem ready_serve (b : Blk) (t : Txn) (f : Blk → Blk) (hgo : ∀  x, (f  x).pins.devReady = x.pins.devReady) :
    (b.serve t f).pins.devReady = b.pins.devReady := by
  simp [Blk.serve, *]

theorem pins_putTxn (b : Blk) (t : Txn) :
    (b.putTxn t).pins = b.pins := by
  exact pins_of_rest (L := [.coh]) (rest_putTxn (by decide) ..) (by decide)

theorem pins_endTxn (b : Blk) (t : Txn) :
    (b.endTxn t).pins = b.pins := by
  exact pins_of_rest (L := [.coh]) (rest_endTxn (by decide) ..) (by decide)

theorem pins_answerTxn (b : Blk) (t : Txn) (ty status : Nat) (bs : Bytes) (poison replay : Bool) :
    (b.answerTxn t ty status bs poison replay).pins = b.pins := by
  exact pins_of_rest (L := [.regs, .aon, .pcs, .ext, .coh, .fab, .hub]) (rest_answerTxn (by decide) (by decide) (by
      decide) (by decide) (by decide) (by decide) (by decide) ..) (by decide)

theorem pins_mirrorWait (b : Blk) (t : Txn) (old : Bytes) :
    (b.mirrorWait t old).2.pins = b.pins := by
  exact pins_of_rest (L := [.regs, .coh, .fab]) (rest_mirrorWait (by decide) (by decide) (by decide) ..) (by decide)

theorem pins_uncount (b : Blk) (t : Txn) :
    (b.uncount t).pins = b.pins := by
  exact pins_of_rest (L := [.ext]) (rest_uncount (by decide) ..) (by decide)

theorem pins_refuseTxn (b : Blk) (t : Txn) (status : Nat) :
    (b.refuseTxn t status).pins = b.pins := by
  exact pins_of_rest (L := [.regs, .aon, .pcs, .ext, .coh, .fab, .hub]) (rest_refuseTxn (by decide) (by decide) (by
      decide) (by decide) (by decide) (by decide) (by decide) ..) (by decide)

theorem pins_sendGrant (b : Blk) (t : Txn) (ty : Nat) (far : Bool) (bs : Bytes) (poison : Bool) :
    (b.sendGrant t ty far bs poison).pins = b.pins := by
  exact pins_of_rest (L := [.regs, .coh, .fab]) (rest_sendGrant (by decide) (by decide) (by decide) ..) (by decide)

theorem ready_grantTxn (b : Blk) (t : Txn) :
    (b.grantTxn t).pins.devReady = b.pins.devReady := by
  unfold Blk.grantTxn
  dsimp only
  repeat' split
  all_goals simp only [keeps_foldl (fun x : Blk => x.pins.devReady), pins_incr, pins_bumpMod, ready_fetch,
      pins_grantX, pins_addSharer, pins_endTxn, pins_refuseTxn, pins_sendGrant, *]

theorem ready_execNear (b : Blk) (t : Txn) (a : AtmOp) :
    (b.execNear t a).pins.devReady = b.pins.devReady := by
  unfold Blk.execNear
  dsimp only
  repeat' split
  all_goals simp only [keeps_foldl (fun x : Blk => x.pins.devReady), pins_incr, pins_aonAdd, pins_writeLine,
      pins_log, pins_trace, ready_fetch, pins_endTxn, pins_answerTxn, pins_mirrorWait, pins_uncount, pins_refuseTxn, *]

theorem pins_noteHeader (b : Blk) (l : Nat) :
    (b.noteHeader l).pins = b.pins := by
  exact pins_of_rest (L := [.pair]) (rest_noteHeader (by decide) ..) (by decide)

theorem ready_finishTxn (b0 : Blk) (t : Txn) :
    (b0.finishTxn t).pins.devReady = b0.pins.devReady := by
  unfold Blk.finishTxn
  dsimp only
  repeat' split
  all_goals simp [keeps_foldl (fun x : Blk => x.pins.devReady), keeps_foldl_fst (fun x : Blk => x.pins.devReady),
      keeps_foldl_snd (fun x : Blk => x.pins.devReady), apply_ite (fun x : Blk => x.pins.devReady), pins_writeMasked,
      ready_fetch, pins_dropHolder, ready_serve, pins_endTxn, pins_answerTxn, pins_mirrorWait, pins_refuseTxn,
      ready_grantTxn, ready_execNear, pins_noteHeader, *]

theorem ready_advance (b0 : Blk) (t : Txn) :
    (b0.advance t).pins.devReady = b0.pins.devReady := by
  unfold Blk.advance
  dsimp only
  repeat' split
  all_goals simp [keeps_foldl (fun x : Blk => x.pins.devReady), keeps_foldl_fst (fun x : Blk => x.pins.devReady),
      keeps_foldl_snd (fun x : Blk => x.pins.devReady), apply_ite (fun x : Blk => x.pins.devReady), pins_writeLine,
      pins_mirrorSend, ready_serve, pins_putTxn, ready_finishTxn, *]

theorem pins_evict (b : Blk) (l : Nat) :
    (b.evict l).2.pins = b.pins := by
  exact pins_of_rest (L := [.regs, .aon, .pcs, .pool, .chans, .ext, .coh, .fab, .rings, .pair]) (rest_evict (by
      decide) (by decide) (by decide) (by decide) (by decide) (by decide) (by decide) (by decide) (by decide) (by
      decide) ..) (by decide)

theorem pins_settleCount (b : Blk) (t : Txn) :
    (b.settleCount t).2.pins = b.pins := by
  exact pins_of_rest (L := [.ext]) (rest_settleCount (by decide) ..) (by decide)

theorem ready_runTxn (b0 : Blk) (t0 : Txn) :
    (b0.runTxn t0).pins.devReady = b0.pins.devReady := by
  unfold Blk.runTxn
  dsimp only
  repeat' split
  all_goals simp only [keeps_foldl (fun x : Blk => x.pins.devReady), pins_snoopAll, pins_putTxn, ready_advance,
      pins_settleCount, *]

theorem pins_uncountRds (b : Blk) (t : Txn) :
    (b.uncountRds t).pins = b.pins := by
  exact pins_of_rest (L := [.ext]) (rest_uncountRds (by decide) ..) (by decide)

theorem pins_countRds (b : Blk) (t : Txn) :
    (b.countRds t).2.pins = b.pins := by
  exact pins_of_rest (L := [.ext]) (rest_countRds (by decide) ..) (by decide)

theorem ready_startTxn (b : Blk) (t0 : Txn) (again : Bool) :
    (b.startTxn t0 again).pins.devReady = b.pins.devReady := by
  unfold Blk.startTxn
  dsimp only
  repeat' split
  all_goals simp only [keeps_foldl (fun x : Blk => x.pins.devReady), pins_incr, pins_poisonDead, pins_touch,
      pins_dirLookup, pins_evict, ready_runTxn, pins_uncountRds, pins_countRds, *]

theorem ready_beginTxn (b : Blk) (t : Txn) :
    (b.beginTxn t).pins.devReady = b.pins.devReady := by
  unfold Blk.beginTxn
  dsimp only
  repeat' split
  all_goals simp only [keeps_foldl (fun x : Blk => x.pins.devReady), pins_countRds, ready_startTxn, *]

theorem ready_writeInt (b : Blk) (r : Requester) (l : Nat) (bs : Bytes) (mask : BitVec 128) (poison : Bool) :
    (b.writeInt r l bs mask poison).2.pins.devReady = b.pins.devReady := by
  unfold Blk.writeInt
  dsimp only
  repeat' split
  all_goals simp only [keeps_foldl (fun x : Blk => x.pins.devReady), pins_bumpMod, pins_countAccept,
      pins_countRefusal, ready_beginTxn, *]

theorem ready_devWrite (b : Blk) (a : Nat) (bs : Bytes) :
    (b.devWrite a bs).pins.devReady = b.pins.devReady := by
  simp [Blk.devWrite, keeps_foldl (fun x : Blk => x.pins.devReady), ready_writeInt, *]

theorem ready_ckptEntry (b : Blk) (off : Nat) (e : Nat → Bytes) :
    (b.ckptEntry off e).pins.devReady = b.pins.devReady := by
  simp [Blk.ckptEntry, ready_devWrite, *]

theorem nextJob_poisonDead (b : Blk) (l owner : Nat) :
    (b.poisonDead l owner).coh.nextJob = b.coh.nextJob := by
  simp [Blk.poisonDead, coh_flag, coh_incr, coh_log, coh_poisonLine, *]

theorem nextJob_dropHolder (b : Blk) (l eid : Nat) :
    (b.dropHolder l eid).coh.nextJob = b.coh.nextJob := by
  unfold Blk.dropHolder
  dsimp only
  repeat' split
  all_goals simp only [keeps_foldl (fun x : Blk => x.coh.nextJob), *]

theorem nextJob_touch (b : Blk) (l : Nat) :
    (b.touch l).coh.nextJob = b.coh.nextJob := by
  simp [Blk.touch, *]

theorem nextJob_grantX (b : Blk) (l part eid : Nat) :
    (b.grantX l part eid).coh.nextJob = b.coh.nextJob := by
  unfold Blk.grantX
  dsimp only
  repeat' split
  all_goals simp only [keeps_foldl (fun x : Blk => x.coh.nextJob), *]

theorem nextJob_addSharer (b : Blk) (l part eid : Nat) :
    (b.addSharer l part eid).coh.nextJob = b.coh.nextJob := by
  unfold Blk.addSharer
  dsimp only
  repeat' split
  all_goals simp only [keeps_foldl (fun x : Blk => x.coh.nextJob), *]

theorem nextJob_snoopAll (b : Blk) (t : Txn) (k : SnpKind) (x0 : List Nat) :
    (b.snoopAll t k x0).1.coh.nextJob = b.coh.nextJob := by
  induction x0 generalizing b with
  | nil => rfl
  | cons a as ih => simp [Blk.snoopAll, ih, coh_sendSnoop, *]

theorem nextJob_serve (b : Blk) (t : Txn) (f : Blk → Blk) (hgo : ∀  x, (f  x).coh.nextJob = x.coh.nextJob) :
    (b.serve t f).coh.nextJob = b.coh.nextJob := by
  simp [Blk.serve, *]

theorem nextJob_putTxn (b : Blk) (t : Txn) :
    (b.putTxn t).coh.nextJob = b.coh.nextJob := by
  simp [Blk.putTxn, *]

theorem nextJob_endTxn (b : Blk) (t : Txn) :
    (b.endTxn t).coh.nextJob = b.coh.nextJob := by
  simp [Blk.endTxn, *]

theorem nextJob_land (b : Blk) (w : Who) (write : Bool) (l status : Nat) (bs : Bytes) (poison : Bool) :
    (b.land w write l status bs poison).coh.nextJob = b.coh.nextJob := by
  unfold Blk.land
  dsimp only
  repeat' split
  all_goals simp only [keeps_foldl (fun x : Blk => x.coh.nextJob), coh_aptRefuse, coh_aptLand, *]

theorem nextJob_endJob (b : Blk) (id : Nat) (j : Job) :
    (b.endJob id j).coh.nextJob = b.coh.nextJob := by
  unfold Blk.endJob
  dsimp only
  repeat' split
  all_goals simp only [keeps_foldl (fun x : Blk => x.coh.nextJob), coh_countRefusal, coh_unbump, coh_send,
      coh_noteLoad, coh_respond, *]

theorem nextJob_jobLine (b : Blk) (id l status : Nat) (bs : Bytes) (poison : Bool) :
    (b.jobLine id l status bs poison).coh.nextJob = b.coh.nextJob := by
  unfold Blk.jobLine
  dsimp only
  repeat' split
  all_goals simp only [keeps_foldl (fun x : Blk => x.coh.nextJob), nextJob_endJob, *]

theorem nextJob_answerTxn (b : Blk) (t : Txn) (ty status : Nat) (bs : Bytes) (poison replay : Bool) :
    (b.answerTxn t ty status bs poison replay).coh.nextJob = b.coh.nextJob := by
  unfold Blk.answerTxn
  cases hj : t.job with
  | some id => simp [nextJob_jobLine, *]
  | none => cases hw : t.who <;> simp [coh_respond, nextJob_land, *]

theorem nextJob_mirrorWait (b : Blk) (t : Txn) (old : Bytes) :
    (b.mirrorWait t old).2.coh.nextJob = b.coh.nextJob := by
  unfold Blk.mirrorWait
  dsimp only
  repeat' split
  all_goals simp only [keeps_foldl (fun x : Blk => x.coh.nextJob), coh_mirrorSend, nextJob_putTxn, *]

theorem nextJob_freeRat (b : Blk) (t : Txn) (a : AtmOp) :
    (b.freeRat t a).coh.nextJob = b.coh.nextJob := by
  unfold Blk.freeRat
  dsimp only
  repeat' split
  all_goals simp only [keeps_foldl (fun x : Blk => x.coh.nextJob), *]

theorem nextJob_refuseTxn (b : Blk) (t : Txn) (status : Nat) :
    (b.refuseTxn t status).coh.nextJob = b.coh.nextJob := by
  unfold Blk.refuseTxn
  dsimp only
  repeat' split
  all_goals simp only [keeps_foldl (fun x : Blk => x.coh.nextJob), coh_countRefusal, nextJob_endTxn,
      nextJob_answerTxn, nextJob_freeRat, coh_uncount, *]

theorem nextJob_sendGrant (b : Blk) (t : Txn) (ty : Nat) (far : Bool) (bs : Bytes) (poison : Bool) :
    (b.sendGrant t ty far bs poison).coh.nextJob = b.coh.nextJob := by
  unfold Blk.sendGrant
  dsimp only
  repeat' split
  all_goals simp only [keeps_foldl (fun x : Blk => x.coh.nextJob), nextJob_putTxn, nextJob_endTxn, coh_respond, *]

theorem nextJob_grantTxn (b : Blk) (t : Txn) :
    (b.grantTxn t).coh.nextJob = b.coh.nextJob := by
  unfold Blk.grantTxn
  dsimp only
  repeat' split
  all_goals simp only [keeps_foldl (fun x : Blk => x.coh.nextJob), coh_incr, coh_bumpMod, coh_fetch, nextJob_grantX,
      nextJob_addSharer, nextJob_endTxn, nextJob_refuseTxn, nextJob_sendGrant, *]

theorem nextJob_execNear (b : Blk) (t : Txn) (a : AtmOp) :
    (b.execNear t a).coh.nextJob = b.coh.nextJob := by
  unfold Blk.execNear
  dsimp only
  repeat' split
  all_goals simp only [keeps_foldl (fun x : Blk => x.coh.nextJob), coh_incr, coh_aonAdd, coh_writeLine, coh_log,
      coh_trace, coh_fetch, nextJob_endTxn, nextJob_answerTxn, nextJob_mirrorWait, coh_uncount, nextJob_refuseTxn, *]

theorem nextJob_finishTxn (b0 : Blk) (t : Txn) :
    (b0.finishTxn t).coh.nextJob = b0.coh.nextJob := by
  unfold Blk.finishTxn
  dsimp only
  repeat' split
  all_goals simp [keeps_foldl (fun x : Blk => x.coh.nextJob), keeps_foldl_fst (fun x : Blk => x.coh.nextJob),
      keeps_foldl_snd (fun x : Blk => x.coh.nextJob), apply_ite (fun x : Blk => x.coh.nextJob), coh_writeMasked,
      coh_fetch, nextJob_dropHolder, nextJob_serve, nextJob_endTxn, nextJob_answerTxn, nextJob_mirrorWait,
      nextJob_refuseTxn, nextJob_grantTxn, nextJob_execNear, coh_noteHeader, *]

theorem nextJob_advance (b0 : Blk) (t : Txn) :
    (b0.advance t).coh.nextJob = b0.coh.nextJob := by
  unfold Blk.advance
  dsimp only
  repeat' split
  all_goals simp [keeps_foldl (fun x : Blk => x.coh.nextJob), keeps_foldl_fst (fun x : Blk => x.coh.nextJob),
      keeps_foldl_snd (fun x : Blk => x.coh.nextJob), apply_ite (fun x : Blk => x.coh.nextJob), coh_writeLine,
      coh_mirrorSend, nextJob_serve, nextJob_putTxn, nextJob_finishTxn, *]

theorem nextJob_evictSnoop (b : Blk) (l : Nat) (e : DirEnt) :
    (b.evictSnoop l e).2.coh.nextJob = b.coh.nextJob := by
  unfold Blk.evictSnoop
  dsimp only
  repeat' split
  all_goals simp only [keeps_foldl (fun x : Blk => x.coh.nextJob), nextJob_snoopAll, nextJob_putTxn, *]

theorem nextJob_evict (b : Blk) (l : Nat) :
    (b.evict l).2.coh.nextJob = b.coh.nextJob := by
  unfold Blk.evict
  dsimp only
  repeat' split
  all_goals simp only [keeps_foldl (fun x : Blk => x.coh.nextJob), coh_incr, coh_event, nextJob_poisonDead,
      nextJob_evictSnoop, *]

theorem nextJob_runTxn (b0 : Blk) (t0 : Txn) :
    (b0.runTxn t0).coh.nextJob = b0.coh.nextJob := by
  unfold Blk.runTxn
  dsimp only
  repeat' split
  all_goals simp only [keeps_foldl (fun x : Blk => x.coh.nextJob), nextJob_snoopAll, nextJob_putTxn, nextJob_advance,
      coh_settleCount, *]

theorem nextJob_startTxn (b : Blk) (t0 : Txn) (again : Bool) :
    (b.startTxn t0 again).coh.nextJob = b.coh.nextJob := by
  unfold Blk.startTxn
  dsimp only
  repeat' split
  all_goals simp only [keeps_foldl (fun x : Blk => x.coh.nextJob), coh_incr, nextJob_poisonDead, nextJob_touch,
      coh_dirLookup, nextJob_evict, nextJob_runTxn, coh_uncountRds, coh_countRds, *]

theorem nextJob_beginTxn (b : Blk) (t : Txn) :
    (b.beginTxn t).coh.nextJob = b.coh.nextJob := by
  unfold Blk.beginTxn
  dsimp only
  repeat' split
  all_goals simp only [keeps_foldl (fun x : Blk => x.coh.nextJob), coh_countRds, nextJob_startTxn, *]

theorem queue_poisonDead (b : Blk) (l owner : Nat) :
    (b.poisonDead l owner).coh.queue = b.coh.queue := by
  simp [Blk.poisonDead, coh_flag, coh_incr, coh_log, coh_poisonLine, *]

theorem queue_dropHolder (b : Blk) (l eid : Nat) :
    (b.dropHolder l eid).coh.queue = b.coh.queue := by
  unfold Blk.dropHolder
  dsimp only
  repeat' split
  all_goals simp only [keeps_foldl (fun x : Blk => x.coh.queue), *]

theorem queue_touch (b : Blk) (l : Nat) :
    (b.touch l).coh.queue = b.coh.queue := by
  simp [Blk.touch, *]

theorem queue_grantX (b : Blk) (l part eid : Nat) :
    (b.grantX l part eid).coh.queue = b.coh.queue := by
  unfold Blk.grantX
  dsimp only
  repeat' split
  all_goals simp only [keeps_foldl (fun x : Blk => x.coh.queue), *]

theorem queue_addSharer (b : Blk) (l part eid : Nat) :
    (b.addSharer l part eid).coh.queue = b.coh.queue := by
  unfold Blk.addSharer
  dsimp only
  repeat' split
  all_goals simp only [keeps_foldl (fun x : Blk => x.coh.queue), *]

theorem queue_snoopAll (b : Blk) (t : Txn) (k : SnpKind) (x0 : List Nat) :
    (b.snoopAll t k x0).1.coh.queue = b.coh.queue := by
  induction x0 generalizing b with
  | nil => rfl
  | cons a as ih => simp [Blk.snoopAll, ih, coh_sendSnoop, *]

theorem queue_serve (b : Blk) (t : Txn) (f : Blk → Blk) (hgo : ∀  x, (f  x).coh.queue = x.coh.queue) :
    (b.serve t f).coh.queue = b.coh.queue := by
  simp [Blk.serve, *]

theorem queue_putTxn (b : Blk) (t : Txn) :
    (b.putTxn t).coh.queue = b.coh.queue := by
  simp [Blk.putTxn, *]

theorem queue_endTxn (b : Blk) (t : Txn) :
    (b.endTxn t).coh.queue = b.coh.queue := by
  simp [Blk.endTxn, *]

theorem queue_land (b : Blk) (w : Who) (write : Bool) (l status : Nat) (bs : Bytes) (poison : Bool) :
    (b.land w write l status bs poison).coh.queue = b.coh.queue := by
  unfold Blk.land
  dsimp only
  repeat' split
  all_goals simp only [keeps_foldl (fun x : Blk => x.coh.queue), coh_aptRefuse, coh_aptLand, *]

theorem queue_endJob (b : Blk) (id : Nat) (j : Job) :
    (b.endJob id j).coh.queue = b.coh.queue := by
  unfold Blk.endJob
  dsimp only
  repeat' split
  all_goals simp only [keeps_foldl (fun x : Blk => x.coh.queue), coh_countRefusal, coh_unbump, coh_send,
      coh_noteLoad, coh_respond, *]

theorem queue_jobLine (b : Blk) (id l status : Nat) (bs : Bytes) (poison : Bool) :
    (b.jobLine id l status bs poison).coh.queue = b.coh.queue := by
  unfold Blk.jobLine
  dsimp only
  repeat' split
  all_goals simp only [keeps_foldl (fun x : Blk => x.coh.queue), queue_endJob, *]

theorem queue_answerTxn (b : Blk) (t : Txn) (ty status : Nat) (bs : Bytes) (poison replay : Bool) :
    (b.answerTxn t ty status bs poison replay).coh.queue = b.coh.queue := by
  unfold Blk.answerTxn
  cases hj : t.job with
  | some id => simp [queue_jobLine, *]
  | none => cases hw : t.who <;> simp [coh_respond, queue_land, *]

theorem queue_mirrorWait (b : Blk) (t : Txn) (old : Bytes) :
    (b.mirrorWait t old).2.coh.queue = b.coh.queue := by
  unfold Blk.mirrorWait
  dsimp only
  repeat' split
  all_goals simp only [keeps_foldl (fun x : Blk => x.coh.queue), coh_mirrorSend, queue_putTxn, *]

theorem queue_freeRat (b : Blk) (t : Txn) (a : AtmOp) :
    (b.freeRat t a).coh.queue = b.coh.queue := by
  unfold Blk.freeRat
  dsimp only
  repeat' split
  all_goals simp only [keeps_foldl (fun x : Blk => x.coh.queue), *]

theorem queue_refuseTxn (b : Blk) (t : Txn) (status : Nat) :
    (b.refuseTxn t status).coh.queue = b.coh.queue := by
  unfold Blk.refuseTxn
  dsimp only
  repeat' split
  all_goals simp only [keeps_foldl (fun x : Blk => x.coh.queue), coh_countRefusal, queue_endTxn, queue_answerTxn,
      queue_freeRat, coh_uncount, *]

theorem queue_sendGrant (b : Blk) (t : Txn) (ty : Nat) (far : Bool) (bs : Bytes) (poison : Bool) :
    (b.sendGrant t ty far bs poison).coh.queue = b.coh.queue := by
  unfold Blk.sendGrant
  dsimp only
  repeat' split
  all_goals simp only [keeps_foldl (fun x : Blk => x.coh.queue), queue_putTxn, queue_endTxn, coh_respond, *]

theorem queue_grantTxn (b : Blk) (t : Txn) :
    (b.grantTxn t).coh.queue = b.coh.queue := by
  unfold Blk.grantTxn
  dsimp only
  repeat' split
  all_goals simp only [keeps_foldl (fun x : Blk => x.coh.queue), coh_incr, coh_bumpMod, coh_fetch, queue_grantX,
      queue_addSharer, queue_endTxn, queue_refuseTxn, queue_sendGrant, *]

theorem queue_execNear (b : Blk) (t : Txn) (a : AtmOp) :
    (b.execNear t a).coh.queue = b.coh.queue := by
  unfold Blk.execNear
  dsimp only
  repeat' split
  all_goals simp only [keeps_foldl (fun x : Blk => x.coh.queue), coh_incr, coh_aonAdd, coh_writeLine, coh_log,
      coh_trace, coh_fetch, queue_endTxn, queue_answerTxn, queue_mirrorWait, coh_uncount, queue_refuseTxn, *]

theorem queue_finishTxn (b0 : Blk) (t : Txn) :
    (b0.finishTxn t).coh.queue = b0.coh.queue := by
  unfold Blk.finishTxn
  dsimp only
  repeat' split
  all_goals simp [keeps_foldl (fun x : Blk => x.coh.queue), keeps_foldl_fst (fun x : Blk => x.coh.queue),
      keeps_foldl_snd (fun x : Blk => x.coh.queue), apply_ite (fun x : Blk => x.coh.queue), coh_writeMasked,
      coh_fetch, queue_dropHolder, queue_serve, queue_endTxn, queue_answerTxn, queue_mirrorWait, queue_refuseTxn,
      queue_grantTxn, queue_execNear, coh_noteHeader, *]

theorem queue_advance (b0 : Blk) (t : Txn) :
    (b0.advance t).coh.queue = b0.coh.queue := by
  unfold Blk.advance
  dsimp only
  repeat' split
  all_goals simp [keeps_foldl (fun x : Blk => x.coh.queue), keeps_foldl_fst (fun x : Blk => x.coh.queue),
      keeps_foldl_snd (fun x : Blk => x.coh.queue), apply_ite (fun x : Blk => x.coh.queue), coh_writeLine,
      coh_mirrorSend, queue_serve, queue_putTxn, queue_finishTxn, *]

theorem queue_evictSnoop (b : Blk) (l : Nat) (e : DirEnt) :
    (b.evictSnoop l e).2.coh.queue = b.coh.queue := by
  unfold Blk.evictSnoop
  dsimp only
  repeat' split
  all_goals simp only [keeps_foldl (fun x : Blk => x.coh.queue), queue_snoopAll, queue_putTxn, *]

theorem queue_evict (b : Blk) (l : Nat) :
    (b.evict l).2.coh.queue = b.coh.queue := by
  unfold Blk.evict
  dsimp only
  repeat' split
  all_goals simp only [keeps_foldl (fun x : Blk => x.coh.queue), coh_incr, coh_event, queue_poisonDead,
      queue_evictSnoop, *]

theorem queue_runTxn (b0 : Blk) (t0 : Txn) :
    (b0.runTxn t0).coh.queue = b0.coh.queue := by
  unfold Blk.runTxn
  dsimp only
  repeat' split
  all_goals simp only [keeps_foldl (fun x : Blk => x.coh.queue), queue_snoopAll, queue_putTxn, queue_advance,
      coh_settleCount, *]

theorem agents_walkEntry {γ : Type} {P : Coh → γ} (hP : AgentProj P) (b : Blk) (eid l : Nat) :
    P (b.walkEntry eid l).coh = P b.coh := by
  unfold Blk.walkEntry
  split <;> simp [agents_poisonDead hP, agents_dropHolder hP, *]

theorem pool_flag (b : Blk) (off i : Nat) :
    (b.flag off i).pool = b.pool := by
  exact pool_of_rest (L := [.regs]) (rest_flag (by decide) ..) (by decide)

theorem pool_incr (b : Blk) (off : Nat) :
    (b.incr off).pool = b.pool := by
  exact pool_of_rest (L := [.regs]) (rest_incr (by decide) ..) (by decide)

theorem pool_aonAdd (b : Blk) (i n : Nat) :
    (b.aonAdd i n).pool = b.pool := by
  exact pool_of_rest (L := [.aon]) (rest_aonAdd (by decide) ..) (by decide)

theorem pool_event (b : Blk) (unit code : Nat) (part : Option Nat) (n : Nat) :
    (b.event unit code part n).pool = b.pool := by
  exact pool_of_rest (L := [.pcs]) (rest_event (by decide) ..) (by decide)

theorem pool_modHusk (b : Blk) (c : Nat) (f : HuskChan → HuskChan) :
    (b.modHusk c f).pool = b.pool := by
  exact pool_of_rest (L := [.chans]) (rest_modHusk (by decide) ..) (by decide)

theorem frames_putCopy (b : Blk) (c : Copy) (l : Nat) (bs : Bytes) (m : LineMeta) :
    (b.putCopy c l bs m).pool.frames = b.pool.frames := by
  unfold Blk.putCopy
  split <;> simp [*]

theorem frames_flipCopy (b : Blk) (c : Copy) (l : Nat) (p : Bytes) :
    (b.flipCopy c l p).pool.frames = b.pool.frames := by
  unfold Blk.flipCopy
  split <;> simp [frames_putCopy, *]

theorem frames_setDelta (b : Blk) (c line : Nat) (d : Bytes) :
    (b.setDelta c line d).pool.frames = b.pool.frames := by
  simp [Blk.setDelta, *]

theorem frames_flipData (b : Blk) (c line : Nat) (l : Nat) (p : Bytes) :
    (b.flipData c line l p).pool.frames = b.pool.frames := by
  simp [Blk.flipData, keeps_foldl (fun x : Blk => x.pool.frames), frames_flipCopy, frames_setDelta, *]

theorem frames_settleRow (b : Blk) (c line : Nat) (ks : List Nat) :
    (b.settleRow c line ks).pool.frames = b.pool.frames := by
  unfold Blk.settleRow
  dsimp only
  repeat' split
  all_goals simp [keeps_foldl (fun x : Blk => x.pool.frames), keeps_foldl_fst (fun x : Blk => x.pool.frames),
      keeps_foldl_snd (fun x : Blk => x.pool.frames), apply_ite (fun x : Blk => x.pool.frames), frames_flipCopy,
      frames_setDelta, frames_flipData, *]

theorem frames_freshChecks (b : Blk) (l : Nat) :
    (b.freshChecks l).pool.frames = b.pool.frames := by
  unfold Blk.freshChecks
  dsimp only
  repeat' split
  all_goals simp [*]

theorem frames_revive (b : Blk) (l : Nat) :
    (b.revive l).pool.frames = b.pool.frames := by
  unfold Blk.revive
  split <;> simp [*]

theorem frames_putHusk (b : Blk) (l : Nat) (bs : Bytes) (m : LineMeta) :
    (b.putHusk l bs m).pool.frames = b.pool.frames := by
  unfold Blk.putHusk
  dsimp only
  repeat' split
  all_goals simp [frames_putCopy, frames_freshChecks, frames_revive, *]

theorem frames_huskOp (b : Blk) (c code part : Nat) :
    (b.huskOp c code part).pool.frames = b.pool.frames := by
  simp [Blk.huskOp, pool_aonAdd, pool_event, pool_modHusk, *]

theorem frames_huskOps (b : Blk) (code part : Nat) (cs : List Nat) :
    (b.huskOps code part cs).pool.frames = b.pool.frames := by
  simp [Blk.huskOps, keeps_foldl (fun x : Blk => x.pool.frames), frames_huskOp, *]

theorem frames_countHusk (b : Blk) (l code part : Nat) :
    (b.countHusk l code part).pool.frames = b.pool.frames := by
  simp [Blk.countHusk, frames_huskOps, *]

theorem pool_countGrain (b : Blk) (l code part : Nat) :
    (b.countGrain l code part).pool = b.pool := by
  exact pool_of_rest (L := [.aon, .pcs]) (rest_countGrain (by decide) (by decide) ..) (by decide)

theorem frames_writeLine (b : Blk) (l : Nat) (bs : Bytes) (poison : Bool) (wb : Bool) :
    (b.writeLine l bs poison wb).pool.frames = b.pool.frames := by
  unfold Blk.writeLine
  dsimp only
  repeat' split
  all_goals simp [frames_putCopy, frames_putHusk, frames_countHusk, pool_countGrain, *]

theorem frames_writeMasked (b : Blk) (l : Nat) (bs : Bytes) (mask : BitVec 128) (poison : Bool) (wb : Bool) :
    (b.writeMasked l bs mask poison wb).pool.frames = b.pool.frames := by
  simp [Blk.writeMasked, frames_writeLine, *]

theorem pool_bumpMod (b : Blk) (l n : Nat) :
    (b.bumpMod l n).pool = b.pool := by
  exact pool_of_rest (L := [.ext]) (rest_bumpMod (by decide) ..) (by decide)

theorem pool_countAccept (b : Blk) (q part : Nat) :
    (b.countAccept q part).pool = b.pool := by
  exact pool_of_rest (L := [.aon, .pcs]) (rest_countAccept (by decide) (by decide) ..) (by decide)

theorem pool_countRefusal (b : Blk) (q status part : Nat) :
    (b.countRefusal q status part).pool = b.pool := by
  exact pool_of_rest (L := [.regs, .aon, .pcs]) (rest_countRefusal (by decide) (by decide) (by decide) ..) (by decide)

theorem pool_unbump (b : Blk) (l : Nat) :
    (b.unbump l).pool = b.pool := by
  exact pool_of_rest (L := [.ext]) (rest_unbump (by decide) ..) (by decide)

theorem frames_countMerge (b : Blk) (l : Nat) (mask : BitVec 128) :
    (b.countMerge l mask).pool.frames = b.pool.frames := by
  simp [Blk.countMerge, keeps_foldl (fun x : Blk => x.pool.frames), keeps_foldl_fst (fun x : Blk => x.pool.frames),
      keeps_foldl_snd (fun x : Blk => x.pool.frames), apply_ite (fun x : Blk => x.pool.frames), frames_countHusk,
      pool_countGrain, *]

theorem frames_hubLine (b : Blk) (p : Nat × Bytes × BitVec 128) :
    (b.hubLine p).pool.frames = b.pool.frames := by
  unfold Blk.hubLine
  dsimp only
  repeat' split
  all_goals simp [frames_writeMasked, pool_bumpMod, pool_countAccept, pool_countRefusal, pool_unbump,
      frames_countMerge, *]

theorem frames_hubWrite (b : Blk) (a : Nat) (bs : Bytes) :
    (b.hubWrite a bs).pool.frames = b.pool.frames := by
  simp [Blk.hubWrite, keeps_foldl (fun x : Blk => x.pool.frames), frames_hubLine, *]

theorem frames_hubPut (b : Blk) (ps : List (Nat × Bytes)) :
    (b.hubPut ps).2.pool.frames = b.pool.frames := by
  unfold Blk.hubPut
  dsimp only
  repeat' split
  all_goals simp [keeps_foldl (fun x : Blk => x.pool.frames), keeps_foldl_fst (fun x : Blk => x.pool.frames),
      keeps_foldl_snd (fun x : Blk => x.pool.frames), pool_countRefusal, frames_hubWrite, *]

theorem frames_ringPut (b : Blk) (e : ExtEnt) (r : Ring) (bs : Bytes) :
    (b.ringPut e r bs).2.1.pool.frames = b.pool.frames := by
  simp [Blk.ringPut, frames_hubPut, *]

theorem frames_logPut (b : Blk) (bs : Bytes) :
    (b.logPut bs).2.pool.frames = b.pool.frames := by
  unfold Blk.logPut
  dsimp only
  repeat' split
  all_goals simp [frames_ringPut, *]

theorem pool_logLose (b : Blk) :
    (b.logLose).pool = b.pool := by
  exact pool_of_rest (L := [.regs, .aon, .rings]) (rest_logLose (by decide) (by decide) (by decide) ..) (by decide)

theorem pool_logRoom (b : Blk) :
    (b.logRoom).pool = b.pool := by
  exact pool_of_rest (L := [.rings]) (rest_logRoom (by decide) ..) (by decide)

theorem frames_logCatch (b : Blk) :
    (b.logCatch).pool.frames = b.pool.frames := by
  unfold Blk.logCatch
  dsimp only
  repeat' split
  all_goals simp [frames_logPut, *]

theorem frames_logRing (b : Blk) (r : LogRec) :
    (b.logRing r).pool.frames = b.pool.frames := by
  unfold Blk.logRing
  dsimp only
  repeat' split
  all_goals simp [frames_logPut, pool_logLose, pool_logRoom, frames_logCatch, *]

theorem frames_logRaise (b : Blk) (r : LogRec) :
    (b.logRaise r).pool.frames = b.pool.frames := by
  unfold Blk.logRaise
  dsimp only
  repeat' split
  all_goals simp [pool_logLose, frames_logRing, *]

theorem frames_log (b : Blk) (code unit part a bb : Nat) (flags : Nat) :
    (b.log code unit part a bb flags).pool.frames = b.pool.frames := by
  simp [Blk.log, frames_logRaise, *]

theorem frames_markVoid (b : Blk) (c : Nat) :
    (b.markVoid c).pool.frames = b.pool.frames := by
  have hv (x : Blk) (t : Nat) (ks : List Nat) :
      (ks.foldl (fun b k =>
        b.modHusk k (fun h => { h with void := some (min t (h.void.getD t)) })) x).pool.frames = x.pool.frames :=
    keeps_foldl (fun x : Blk => x.pool.frames) (fun x k => by rw [pool_modHusk]) ks x
  unfold Blk.markVoid
  split
  · rfl
  · split
    · rfl
    · exact hv ..

theorem frames_loseChannel (b : Blk) (c cause : Nat) :
    (b.loseChannel c cause).pool.frames = b.pool.frames := by
  unfold Blk.loseChannel
  dsimp only
  repeat' split
  all_goals simp [keeps_foldl (fun x : Blk => x.pool.frames), keeps_foldl_fst (fun x : Blk => x.pool.frames),
      keeps_foldl_snd (fun x : Blk => x.pool.frames), apply_ite (fun x : Blk => x.pool.frames), pool_flag,
      pool_modHusk, frames_settleRow, frames_log, frames_markVoid, *]

theorem frames_logGrain (b : Blk) (code l chan : Nat) (lane : Option Nat) :
    (b.logGrain code l chan lane).pool.frames = b.pool.frames := by
  simp [Blk.logGrain, frames_log, *]

theorem frames_logHusk (b : Blk) (code c line : Nat) (lane : Option Nat) :
    (b.logHusk code c line lane).pool.frames = b.pool.frames := by
  simp [Blk.logHusk, frames_log, *]

theorem frames_huskCorr (b : Blk) (c line rank lane : Nat) :
    (b.huskCorr c line rank lane).pool.frames = b.pool.frames := by
  unfold Blk.huskCorr
  dsimp only
  repeat' split
  all_goals simp [pool_flag, pool_incr, pool_aonAdd, pool_event, pool_modHusk, frames_loseChannel, frames_logHusk, *]

theorem frames_huskUnc (b : Blk) (c line : Nat) :
    (b.huskUnc c line).pool.frames = b.pool.frames := by
  unfold Blk.huskUnc
  dsimp only
  repeat' split
  all_goals simp [pool_flag, pool_incr, pool_aonAdd, pool_modHusk, frames_loseChannel, *]

theorem pool_mirrorPoison (b : Blk) (l : Nat) :
    (b.mirrorPoison l).pool = b.pool := by
  exact pool_of_rest (L := [.regs, .fab, .pair]) (rest_mirrorPoison (by decide) (by decide) (by decide) ..) (by decide)

theorem frames_poisonLine (b : Blk) (l : Nat) (part : Nat) :
    (b.poisonLine l part).pool.frames = b.pool.frames := by
  have hf (x : Blk) (cs : List Nat) : (cs.foldl (fun b c => b.flag (Reg.hskErr c) 2) x).pool.frames = x.pool.frames :=
    keeps_foldl (fun x : Blk => x.pool.frames) (fun x c => by rw [pool_flag]) cs x
  unfold Blk.poisonLine
  rw [frames_log, pool_mirrorPoison]
  dsimp only
  split
  · split <;> simp [pool_countGrain, frames_putCopy]
  · rw [hf, frames_countHusk, frames_putHusk]
    split <;> simp [pool_countGrain, frames_putCopy]

theorem frames_clearAt (b : Blk) (c line : Nat) :
    (b.clearAt c line).pool.frames = b.pool.frames := by
  unfold Blk.clearAt
  split <;> simp [*]

theorem frames_decodeAt (b : Blk) (c line rank : Nat) (lanes : List Nat) (part : Nat) :
    (b.decodeAt c line rank lanes part).2.pool.frames = b.pool.frames := by
  unfold Blk.decodeAt
  split <;> simp [frames_huskOp, frames_huskCorr, frames_huskUnc, frames_clearAt, *]

theorem frames_readStook (b : Blk) (c line : Nat) (part : Nat) :
    (b.readStook c line part).1.pool.frames = b.pool.frames := by
  unfold Blk.readStook
  refine keeps_foldl_fst (fun x : Blk => x.pool.frames) (fun x k => ?_) _ _
  split
  · rfl
  · simp [frames_decodeAt, frames_huskOp, *]

theorem frames_copyOver (b : Blk) (c line : Nat) :
    (b.copyOver c line).pool.frames = b.pool.frames := by
  unfold Blk.copyOver
  split <;> simp [frames_putCopy, *]

theorem frames_settleUnc (b : Blk) (c line : Nat) (ks : List Nat) (part : Nat) :
    (b.settleUnc c line ks part).pool.frames = b.pool.frames := by
  unfold Blk.settleUnc
  dsimp only
  repeat' split
  all_goals simp [keeps_foldl (fun x : Blk => x.pool.frames), keeps_foldl_fst (fun x : Blk => x.pool.frames),
      keeps_foldl_snd (fun x : Blk => x.pool.frames), apply_ite (fun x : Blk => x.pool.frames), frames_settleRow,
      frames_huskOp, frames_logHusk, frames_poisonLine, frames_clearAt, frames_copyOver, *]

theorem frames_readAt (b : Blk) (c line rank : Nat) (lanes : List Nat) (part : Nat) :
    (b.readAt c line rank lanes part).2.pool.frames = b.pool.frames := by
  unfold Blk.readAt
  dsimp only
  repeat' split
  all_goals simp [frames_decodeAt, frames_readStook, frames_settleUnc, *]

theorem frames_readHusk (b : Blk) (l : Nat) (part : Nat) :
    (b.readHusk l part).2.pool.frames = b.pool.frames := by
  unfold Blk.readHusk
  dsimp only
  repeat' split
  all_goals simp [frames_readStook, frames_settleUnc, frames_readAt, *]

theorem frames_fetchHusk (b : Blk) (l : Nat) (part : Nat) :
    (b.fetchHusk l part).1.pool.frames = b.pool.frames := by
  simp [Blk.fetchHusk, frames_countHusk, frames_readHusk, *]

theorem pool_grainFix (b : Blk) (ch line : Nat) :
    (b.grainFix ch line).pool = b.pool := by
  exact pool_of_rest (L := [.regs, .aon, .chans]) (rest_grainFix (by decide) (by decide) (by decide) ..) (by decide)

theorem frames_grainCorr (b : Blk) (ch line l lane : Nat) :
    (b.grainCorr ch line l lane).pool.frames = b.pool.frames := by
  simp [Blk.grainCorr, frames_logGrain, pool_grainFix, *]

theorem pool_grainUnc (b : Blk) (ch line : Nat) :
    (b.grainUnc ch line).pool = b.pool := by
  exact pool_of_rest (L := [.regs, .dead, .pins, .aon, .chans]) (rest_grainUnc (by decide) (by decide) (by decide)
      (by decide) (by decide) ..) (by decide)

theorem frames_grainLost (b : Blk) (ch l part : Nat) :
    (b.grainLost ch l part).pool.frames = b.pool.frames := by
  simp [Blk.grainLost, frames_logGrain, frames_poisonLine, *]

theorem frames_readGrainCopy (b : Blk) (l : Nat) (lanes : List Nat) (part : Nat) :
    (b.readGrainCopy l lanes part).2.pool.frames = b.pool.frames := by
  unfold Blk.readGrainCopy
  dsimp only
  repeat' split
  all_goals simp only [keeps_foldl (fun x : Blk => x.pool.frames), pool_flag, pool_incr, frames_putCopy,
      pool_countGrain, frames_logGrain, frames_fetchHusk, frames_grainCorr, pool_grainUnc, frames_grainLost, *]

end Sys2Proof.Proofs
end

/-! ## NOP, CW_CONFIG, SUBMIT, CANCEL and MOVE as commands (R199, R215, R318, R319, R322) -/
section
namespace Sys2Proof.Proofs

open Sys2Proof.Machine

theorem mget_mmod_self {α : Type} (m : Map α) (k : Nat) (f : α → α) : mget (mmod m k f) k = (mget m k).map f := by
  unfold mmod
  cases h : mget m k <;> simp [h]

theorem mget_mmod_ne {α : Type} (m : Map α) {k j : Nat} (f : α → α) (h : j ≠ k) : mget (mmod m k f) j = mget m j := by
  unfold mmod
  cases hk : mget m k <;> simp [mget_mput_ne _ _ _ _ h]

/-! ### A Sheaf that has been aborted stays so while it is there -/

/-- The Sheaf of a slot, if there is one, is aborted with a cause. -/
def Aborted (b : Blk) (slot why : Nat) : Prop := ∀ y, mget b.work.sheafs slot = some y → y.abort = some why

theorem aborted_congr {x y : Blk} {slot why : Nat} (h : x.work.sheafs = y.work.sheafs) :
    Aborted x slot why ↔ Aborted y slot why := by
  simp [Aborted, h]

theorem aborted_modSheaf {b : Blk} {slot why : Nat} (k : Nat) {f : Sheaf → Sheaf} (hf : ∀ x, (f x).abort = x.abort)
    (h : Aborted b slot why) : Aborted (b.modSheaf k f) slot why := by
  intro y hy
  by_cases hk : slot = k
  · subst hk
    simp only [Blk.modSheaf, mget_mmod_self, Option.map_eq_some_iff] at hy
    obtain ⟨x, hx, rfl⟩ := hy
    exact (hf x).trans (h x hx)
  · exact h y (by simpa [Blk.modSheaf, mget_mmod_ne _ f hk] using hy)

theorem aborted_endTask {b : Blk} {slot why : Nat} (k i st addr at_ : Nat) (t : Tally) (h : Aborted b slot why) :
    Aborted (b.endTask k i st addr at_ t) slot why := by
  unfold Blk.endTask
  split
  · dsimp only
    split <;> simp only [aborted_congr (congrArg Work.sheafs (work_trace _ _)),
      aborted_congr (congrArg Work.sheafs (work_flag _ _ _)), aborted_congr (congrArg Work.sheafs (work_incr _ _))] <;>
      exact aborted_modSheaf _ (fun _ => rfl) (aborted_modSheaf _ (fun _ => rfl) h)
  · exact h

theorem aborted_foldl {α : Type} {slot why : Nat} {f : Blk → α → Blk} (hf : ∀ b a, Aborted b slot why → Aborted (f b a) slot why)
    (as : List α) {b : Blk} (h : Aborted b slot why) : Aborted (as.foldl f b) slot why := by
  induction as generalizing b with
  | nil => exact h
  | cons a t ih => exact ih (hf b a h)

/-- The first abort of a Sheaf that has not ended stands (R214 to R216). -/
theorem aborted_abortSheaf {b : Blk} {slot : Nat} (why : Nat) {z : Sheaf} (hz : mget b.work.sheafs slot = some z)
    (ha : z.abort = none) (hc : z.closed = none) : Aborted (b.abortSheaf slot why) slot why := by
  have hfirst : Aborted (b.modSheaf slot (fun s => { s with abort := some why })) slot why := by
    intro y hy
    simp only [Blk.modSheaf, mget_mmod_self, hz, Option.map_some, Option.some.injEq] at hy
    exact hy ▸ rfl
  simp only [Blk.abortSheaf, hz, ha, hc, Option.isSome_none, Bool.or_self, Bool.false_eq_true, if_false]
  rw [aborted_congr (sheafs_dropPre _ _)]
  refine aborted_foldl (fun x i hx => ?_) _ (aborted_foldl (fun x k hx => ?_) _ hfirst)
  · split
    · split
      · exact hx
      · exact hx
      · split
        · exact hx
        · exact aborted_endTask _ _ _ _ _ _ hx
      · exact aborted_endTask _ _ _ _ _ _ hx
    · exact hx
  · split
    · split
      · exact (aborted_congr (sheafs_cancelRun _ _ _)).2 hx
      · exact hx
    · exact hx

theorem aborted_mdel (b : Blk) (slot why : Nat) :
    Aborted { b with work.sheafs := mdel b.work.sheafs slot } slot why := by
  simp [Aborted]

theorem aborted_recordLost {b : Blk} {slot why : Nat} (c : Bool) (k : Nat) (s : Sheaf) (h : Aborted b slot why) :
    Aborted (if c then b.recordLost k s else b) slot why := by
  split
  · exact (aborted_congr (congrArg Work.sheafs (work_recordLost _ _ _))).2 h
  · exact h

theorem aborted_endStep {b : Blk} {slot why : Nat} (n : Nat) (h : Aborted b slot why) : Aborted (b.endStep slot n) slot why := by
  induction n generalizing b with
  | zero => exact h
  | succ n ih =>
    simp only [Blk.endStep]
    split
    · exact h
    · split
      · refine ih (aborted_modSheaf _ (fun _ => rfl) (aborted_recordLost _ _ _ ?_))
        split
        · exact h
        · exact (aborted_congr (congrArg Work.sheafs (work_thrWrite ..))).2 h
      · split
        · exact h
        · refine ih (aborted_modSheaf _ (fun _ => rfl) (aborted_recordLost _ _ _ ?_))
          refine (aborted_congr (congrArg Work.sheafs (work_thrWrite ..))).2 (aborted_recordLost _ _ _ ?_)
          exact (aborted_congr (congrArg Work.sheafs (work_thrBad ..))).2 h
      · split
        · exact h
        · exact aborted_mdel _ _ _

theorem aborted_checkEnd {b : Blk} {slot why : Nat} (h : Aborted b slot why) : Aborted (b.checkEnd slot) slot why := by
  unfold Blk.checkEnd
  split
  · exact h
  · split
    · exact aborted_endStep 4 h
    · split
      · exact h
      · refine aborted_endStep 4 ((aborted_congr (sheafs_dropPre _ _)).2 ?_)
        have hclosed := fun st => aborted_modSheaf (f := fun s => { s with closed := some st }) slot (fun _ => rfl) h
        split
        · split
          · exact hclosed _
          · split <;> exact hclosed _
        · refine (aborted_congr (congrArg Work.sheafs (work_aonAdd _ _ _))).2 ?_
          split
          · exact hclosed _
          · split <;> exact hclosed _

theorem closed_of_lastEnded {b : Blk} {slot : Nat} {z : Sheaf} (h : b.lastEnded slot z = none) : z.closed = none := by
  unfold Blk.lastEnded at h
  cases hc : z.closed with
  | none => rfl
  | some st => simp [hc] at h

/-! ### The commands -/

theorem cancel_of_ended {b : Blk} {slot st : Nat} {z : Sheaf} {part : Option Nat} (hz : mget b.work.sheafs slot = some z)
    (hp : part = none ∨ part = some z.part) (hend : b.lastEnded slot z = some st) : b.cancel slot z.cookie part = (st, b) := by
  rcases hp with rfl | rfl <;> simp [Blk.cancel, hz, hend]

theorem cancel_of_open {b : Blk} {slot : Nat} {z : Sheaf} {part : Option Nat} (hz : mget b.work.sheafs slot = some z)
    (hp : part = none ∨ part = some z.part) (hend : b.lastEnded slot z = none) :
    b.cancel slot z.cookie part = (0, (b.abortSheaf slot 0x5A).checkEnd slot) := by
  rcases hp with rfl | rfl <;> simp [Blk.cancel, hz, hend]

theorem cancel_none {b : Blk} {slot : Nat} (cookie : Nat) (part : Option Nat) (h : mget b.work.sheafs slot = none) :
    b.cancel slot cookie part = (0x5E, b) := by
  simp [Blk.cancel, h]

theorem submit_waits {b : Blk} (r : SubmitReq) {code : Nat} (hcode : code < 4) (hload : b.str.loaded = true)
    (hroom : (b.thr code).wait.length < 16) :
    b.submit r code 0 = (b.incr (Reg.thrSubmitCnt code)).modThr code (fun t => { t with wait := t.wait ++ [r] }) := by
  have hl : ¬ 16 ≤ ((b.incr (Reg.thrSubmitCnt code)).thr code).wait.length := not_le.2 hroom
  have hs : ¬ (!(b.incr (Reg.thrSubmitCnt code)).str.loaded) = true := by simpa [Blk.incr, Blk.count] using hload
  simp only [Blk.submit, if_pos hcode]
  rw [if_neg (by decide), if_neg hs, if_neg hl]

/-- Settles O49: each command runs once, by the equation of its executor. -/
theorem hubCommandsAct : Obligations.HubCommandsAct := by
  unfold Obligations.HubCommandsAct
  refine ⟨fun s c r h => ?_, fun s c r h => ?_, fun s c r h hs hq hload hopen hroom => ?_, fun s c r h => ⟨fun hz => ?_,
    fun z hz hcookie hpart => ⟨fun hend habort => ?_, fun st hend => ?_⟩⟩, fun s c r h hs => ?_,
    fun s c r hs => ⟨fun h => ?_, fun h => ?_⟩⟩
  · refine does_of_live (f := fun b => nopCmd b c) rfl h.up ?_
    rw [nopCmd, hubCmd_of_runs h]
    exact endsOnly_answer h.found h.kept [] 0 []
  · refine does_of_live (f := fun b => cwConfigCmd b c) rfl h.up ?_
    rw [cwConfigCmd, hubCmd_of_runs h]
    obtain ⟨⟨hnv, hpend, honly⟩, hans, hgone⟩ := endsOnly_answer (s := s) h.found h.kept [] 0 []
    refine ⟨⟨⟨hnv, hpend, onlyBlk_of_rest ?_⟩, ?_, hgone⟩, ?_⟩
    · rw [rest_modWin (by simp)]
      exact rest_of_onlyBlk honly
    · simpa [Answered] using hans
    · simp
  · refine does_of_live (f := fun b => submitCmd b c) rfl h.up ?_
    have hsub := submit_waits (b := s.blk.startCmd c) ⟨.cmd c, none, r.part.getD 0,
        if r.arg 0x18 1 = 1 then SheafSrc.host r.f (r.arg 0x10 4) else .pool, r.arg 0x08 8, r.arg 0x14 4, s.blk.tb⟩ hq hload hroom
    rw [submitCmd, hubCmd_of_runs h]
    simp only [hs, hopen, Bool.or_self, Bool.false_eq_true, if_false, hsub]
    refine ⟨only_of_blk (onlyBlk_of_rest ?_), fun x hx => started_of_cmd_startCmd (b := s.blk) hx, ?_⟩
    · simp [rest_modThr, rest_incr, rest_startCmd]
    · simp [Blk.thr, Blk.modThr, Blk.incr, Blk.count, Blk.setReg, Blk.startCmd]
  · refine does_of_live (f := fun b => cancelCmd b c) rfl h.up ?_
    rw [cancelCmd, hubCmd_of_runs h]
    simp only [cancel_none _ _ hz]
    exact endsOnly_answer h.found h.kept [] 0x5E []
  · refine does_of_live (f := fun b => cancelCmd b c) rfl h.up ?_
    rw [cancelCmd, hubCmd_of_runs h]
    have hown : (if r.f = 0 then none else r.part) = none ∨ (if r.f = 0 then none else r.part) = some z.part := by
      split <;> simp_all
    simp only [← hcookie, cancel_of_open hz hown hend]
    have hprog : ((s.blk.abortSheaf (r.arg 0x08 1) 0x5A).checkEnd (r.arg 0x08 1)).hub.inProg = s.blk.hub.inProg := by
      rw [inProg_checkEnd, hub_abortSheaf]
    refine ⟨(ends_answerCmd h.found h.kept hprog 0 []).1, ?_⟩
    have hab := aborted_checkEnd (aborted_abortSheaf 0x5A hz habort (closed_of_lastEnded hend))
    exact (aborted_congr (congrArg Work.sheafs (work_answerCmd ..))).2 hab
  · refine does_of_live (f := fun b => cancelCmd b c) rfl h.up ?_
    rw [cancelCmd, hubCmd_of_runs h]
    have hown : (if r.f = 0 then none else r.part) = none ∨ (if r.f = 0 then none else r.part) = some z.part := by
      split <;> simp_all
    simp only [← hcookie, cancel_of_ended hz hown hend]
    exact endsOnly_answer h.found h.kept [] st []
  · refine does_of_live (f := fun b => moveCmd b c) rfl h.up ?_
    rw [moveCmd, hubCmd_of_runs h]
    simp only [hs, Bool.false_eq_true, if_false]
    refine ⟨only_of_blk (onlyBlk_of_rest ?_), fun x hx => started_of_cmd_startCmd (b := s.blk) hx, ?_⟩
    · simp [rest_with_hub, rest_startCmd]
    · trivial
  · refine stays_of_live (f := fun b => submitCmd b c) rfl fun _ => ?_
    rw [submitCmd, hubCmd_of_runs h]
    simp [hs]
  · refine stays_of_live (f := fun b => moveCmd b c) rfl fun _ => ?_
    rw [moveCmd, hubCmd_of_runs h]
    simp [hs]

end Sys2Proof.Proofs
end

/-! ## The commit of a delta: its commit point, its phases, and the Tillers that it takes (R66 to R70, R165, R379) -/
section
namespace Sys2Proof.Proofs

open Sys2Proof.Machine

/-! ### The commit point -/

theorem endsOnly_strAnswer {s : State} {x : Blk} {c : CmdId} {r : CmdRec} {l : List Region} (hc : s.blk.cmd c = some r)
    (hl : r.lost = false) (hx : x.hub.inProg = s.blk.hub.inProg) (hstr : .str ∈ l)
    (hr : rest ([.hub, .regs] ++ l) x = rest ([.hub, .regs] ++ l) s.blk) (st : Nat) (bad : Bool) :
    EndsOnly l s { s with blk := x.strAnswer c st bad } c r st [] := by
  unfold Blk.strAnswer
  refine endsOnly_answerCmd hc hl ?_ ?_ st []
  · split <;> exact hx
  · split
    · rw [rest_flag (by simp), rest_with_str (by simp [hstr]), hr]
    · rw [rest_with_str (by simp [hstr]), hr]

@[simp] theorem staged_strAnswer (b : Blk) (c : CmdId) (st : Nat) (bad : Bool) : (b.strAnswer c st bad).str.staged = b.str.staged := by
  unfold Blk.strAnswer
  split <;> simp

/-- The block where the extents that a delta deletes have started draining and the grants that it deletes are marked (R96, R97). -/
def commitDrains (b : Blk) (i : Image) : Blk :=
  i.delExts.foldl Blk.startDrain
    (i.goneGrants.foldl (fun x g => if mhas x.str.run.grants g then x.markRevoked (grantExt g) (revMark g) else x) b)

theorem keeps_commitDrains {γ : Type} (P : Blk → γ) (hmark : ∀ b i w, P (b.markRevoked i w) = P b)
    (hdrain : ∀ b i, P (b.startDrain i) = P b) (b : Blk) (i : Image) : P (commitDrains b i) = P b := by
  rw [commitDrains, keeps_foldl P hdrain]
  refine keeps_foldl P (fun x g => ?_) _ _
  split
  · exact hmark _ _ _
  · rfl

/-- STRUCT_COMMIT while a structure is loaded and no commit runs, by what is staged (R66). -/
theorem structCommit_of_runs {b : Blk} {c : CmdId} {r : CmdRec} (h : MgmtRuns b c 0x12 r) (hload : b.str.loaded = true)
    (hidle : b.str.commit = none) :
    structCommit b c = match b.str.staged with
      | none => b.strAnswer c 0x06 true
      | some g =>
        if g.img.epoch.toNat != r.arg 0x08 8 then b.strAnswer c 0x06 true
        else if b.stale g then { b with str.staged := none }.strAnswer c 0x09 true
        else
          ({ (commitDrains b g.img).startCmd c with str.commit := some (commitOf b g c) }).trace
            { source := 8, event := 1, unit := 112, a := g.img.epoch.toNat } := by
  have hnone : ((b.str.commit.map (·.cmd)) == some c) = false := by rw [hidle]; rfl
  have hload' : (!b.str.loaded) = false := by rw [hload]; rfl
  have hidle' : b.str.commit.isSome = false := by rw [hidle]; rfl
  rw [structCommit, mgmtCmd_of_runs h]
  simp only [hnone, hload', hidle', Bool.false_eq_true, if_false]
  cases b.str.staged with
  | none => rfl
  | some g => rfl

/-- Settles O16, by the cases of what is staged. -/
theorem commitPointStartsPhaseA : Obligations.CommitPointStartsPhaseA := by
  unfold Obligations.CommitPointStartsPhaseA
  refine ⟨fun s c r g h hload hidle hg hep hst => ?_, fun s c r h hload hidle hg => ?_, fun s c r g h hload hidle hg hep => ?_,
    fun s c r g h hload hidle hg hep hst => ?_⟩
  all_goals
    refine does_of_live (f := fun b => structCommit b c) rfl h.up ?_
    rw [structCommit_of_runs h hload hidle, hg]
  · simp only [hep, bne_self_eq_false, Bool.false_eq_true, if_false, hst]
    have hstr := keeps_commitDrains (fun x => x.str) str_markRevoked str_startDrain s.blk g.img
    have hwins := keeps_commitDrains (fun x => x.hub.wins) (fun x i w => by rw [hub_markRevoked]) wins_startDrain s.blk g.img
    have hprog := keeps_commitDrains (fun x => x.hub.inProg) (fun x i w => by rw [hub_markRevoked]) inProg_startDrain s.blk g.img
    generalize commitDrains s.blk g.img = z at hstr hwins hprog ⊢
    simp only [str_trace, hub_trace, Blk.startCmd, hstr, hwins, hprog, and_self]
  · exact endsOnly_strAnswer h.found h.kept rfl (by simp) rfl 0x06 true
  · simp only [bne_iff_ne, ne_eq, hep, not_false_eq_true, if_true]
    exact ⟨endsOnly_strAnswer h.found h.kept rfl (by simp) rfl 0x06 true, by simp [hg]⟩
  · simp only [hep, bne_self_eq_false, Bool.false_eq_true, if_false, hst, if_true]
    exact ⟨endsOnly_strAnswer (x := { s.blk with str.staged := none }) h.found h.kept rfl (by simp)
      (rest_with_str (by simp) ..) 0x09 true, by simp⟩

/-! ### The Tillers that a commit takes -/

theorem til_congr {x y : Blk} (h : x.work.tillers = y.work.tillers) (k : Nat) : x.til k = y.til k := by
  simp [Blk.til, h]

theorem work_pcEvent (b : Blk) (unit i code : Nat) (part : Option Nat) (n : Nat) :
    (b.pcEvent unit i code part n).work = b.work := work_of_rest (rest_pcEvent (L := [.pcs]) (by simp) ..) (by simp)

@[simp] theorem til_tick (b : Blk) (k cls n part j : Nat) : (b.tick k cls n part).til j = b.til j := by
  apply til_congr
  unfold Blk.tick
  dsimp only
  split <;> simp [work_event]

@[simp] theorem til_setRun_self (b : Blk) (k : Nat) (r : Run) : (b.setRun k r).til k = { b.til k with run := some r } := by
  simp [Blk.setRun]

theorem ended_settleWork {b : Blk} {k : Nat} {r : Run} (h : (b.til k).run = some r) :
    ((b.settleWork k).til k).run.bind (·.ended) = r.ended := by
  simp only [Blk.settleWork, h]
  split <;> split <;> simp [h]

/-- A cancelled task ends with the status, unless it had ended before (R154). -/
theorem ended_cancelRun {b : Blk} {k : Nat} {r : Run} (st : Nat) (h : (b.til k).run = some r) (hopen : r.ended = none) :
    ((b.cancelRun k st).til k).run.bind (·.ended) = some (st, 0) := by
  simp only [Blk.cancelRun, h, til_tick]
  rw [ended_settleWork (r := r.stop st 0) (by simp)]
  simp [Run.stop, hopen]

/-- Settles O18. -/
theorem commitTakesTheTillers : Obligations.CommitTakesTheTillers := by
  unfold Obligations.CommitTakesTheTillers
  refine ⟨fun s k m r hup hm hph hk hrun hopen hlate => ?_, fun s k m hm hearly => ?_, fun s k hup hclr => ?_⟩
  · refine does_of_live (f := fun b => commitPreempt b k) rfl hup ?_
    have hgo : commitPreempt s.blk k = (s.blk.cancelRun k 0x47).flag Reg.strErr 4 := by
      simp [commitPreempt, hm, hrun, hup, hph, hk, hopen, not_lt.2 hlate]
    rw [hgo]
    refine ⟨?_, ?_, ?_⟩
    · simp [Blk.flag, BitVec.getLsbD_or]
    · have hend := ended_cancelRun 0x47 hrun hopen
      rw [til_congr (y := s.blk.cancelRun k 0x47) (by simp)]
      simp [hend]
    · simp [str_cancelRun]
  · refine stays_of_live (f := fun b => commitPreempt b k) rfl fun _ => ?_
    unfold commitPreempt
    split
    · next c r hc hr =>
      obtain rfl : m = c := Option.some.inj (hm.symm.trans hc)
      rw [if_pos (by simp [hearly])]
    · rfl
  · refine does_of_live (f := fun b => tillerClearDone b k) rfl hup ?_
    have hgo : tillerClearDone s.blk k =
        { (s.blk.modTil k (fun t => { t with clearing := false })).incr (Reg.tilZeroCnt k) with
          str.commit := s.blk.str.commit.map (fun c => { c with cleared := with1 c.cleared k.val }) } := by
      simp [tillerClearDone, hup, hclr]
    rw [hgo]
    refine ⟨only_of_blk (onlyBlk_of_rest ?_), ?_, ?_, ?_⟩
    · exact (rest_with_str (by simp) _ _).trans (by rw [rest_incr (by simp), rest_modTil (by simp)])
    · rw [til_congr (y := s.blk.modTil k (fun t => { t with clearing := false })) (by simp)]
      simp
    · exact toNat_reg_incr (s.blk.modTil k (fun t => { t with clearing := false })) (Reg.tilZeroCnt k)
    · cases s.blk.str.commit <;> rfl

end Sys2Proof.Proofs
end

/-! ## Taking the phases of a commit, and their ends (R67, R68, R379) -/
section
namespace Sys2Proof.Proofs

open Sys2Proof.Machine

/-- Is a block a Tiller whose task runs: it has not reached its quiesce point (R67). -/
def busyBlock (b : Blk) : Block → Bool
  | .tiller t => (b.til t.val).run.isSome
  | _ => false

/-- A block that has taken the running phase, that the phase does not concern or that runs a task takes nothing. -/
theorem phaseTake_stays {b : Blk} {k : Block} {m : Commit} (hm : b.str.commit = some m)
    (h : k ∈ m.taken ∨ k ∉ b.phaseBlocks m ∨ busyBlock b k = true) : phaseTake b k = b := by
  have hstay : (b.dead || m.taken.contains k || !(b.phaseBlocks m).contains k || busyBlock b k) = true := by
    rcases h with h | h | h <;> simp [h]
  simp only [phaseTake, hm]
  exact if_pos hstay

/-- What a block does that takes a phase: it notes that it has, and then changes what is its own (R68). -/
def takePhase (b b1 : Blk) (m : Commit) : Block → Blk
  | .home q => if m.phase = 1 then b1.homeTakeA m q.val else b1.homeTakeB m q.val
  | .buckets => b1.bucketsTake m
  | .gate t => b1.takeGate t (mget (m.ends b.str.run).2.gates t)
  | .tiller t => b1.tillerTake m t.val
  | .hub =>
    if m.phase = 1 then
      let named := b1.rings.log.ext.isSome
      let b3 := (b1.modStruct (fun s => { s with pair := m.afterA.pair, trace := m.afterA.trace })).setRings m.afterA.trace false
      ((if named && b3.rings.log.ext.isNone then b3.freeLogFrames else b3).logFlush).setPair b1.str.run.pair m.img.pair.isSome
    else b1
  | _ => b1

theorem phaseTake_takes {b : Blk} {k : Block} {m : Commit} (hup : b.dead = false) (hm : b.str.commit = some m)
    (hk : k ∉ m.taken) (hin : k ∈ b.phaseBlocks m) (hidle : busyBlock b k = false) :
    phaseTake b k = takePhase b (takenBy b m k) m k := by
  have hgo : (b.dead || m.taken.contains k || !(b.phaseBlocks m).contains k || busyBlock b k) = false := by
    simp [hup, hk, hin, hidle]
  simp only [phaseTake, hm]
  refine (if_neg (Bool.eq_false_iff.1 hgo)).trans ?_
  cases k <;> rfl

theorem phaseAEnd_stays {b : Blk} {m : Commit} (hm : b.str.commit = some m) (h : b.phaseDone m = false) : phaseAEnd b = b := by
  simp [phaseAEnd, hm, h]

theorem phaseBEnd_stays {b : Blk} {m : Commit} (hm : b.str.commit = some m) (h : b.phaseDone m = false) : phaseBEnd b = b := by
  simp [phaseBEnd, hm, h]

/-- The block at the end of phase A before the extents that it adds are entered: what the phase removes is gone, and phase B begins
(R67, R108). -/
def afterPhaseA (b : Blk) (c : Commit) : Blk :=
  let out := c.leaving b.str.run
  let gone := (mkeys b.str.run.hosts).filter (fun e => !mhas c.afterA.hosts e)
  { b with
    str.run := { c.afterA with exts := putAll c.afterA.exts (newKeys c.afterA.exts c.img.exts) }
    str.commit := some { c with phase := 2, taken := [], clearing := [], cleared := [] }
    coh.agents := delAll b.coh.agents out
    coh.suspended := b.coh.suspended.filter (fun s => !out.contains s.2)
    coh.suspendPend := b.coh.suspendPend.filter (fun s => !out.contains s.2)
    coh.walks := b.coh.walks.filter (fun w => !out.contains w.eid)
    ext.leases := delAll b.ext.leases gone
    ext.expPend := b.ext.expPend.filter (fun e => !gone.contains e.2)
    ext.dead := b.ext.dead.filter (fun e => !gone.contains e.2) }

/-- The extents that phase A adds entered with their marks (R82, R85, R97). -/
def enterExts (b : Blk) (old : Struct) (c : Commit) : Blk :=
  let marks := newKeys c.afterA.grants c.img.grants
  (marks.map (fun g => grantExt g.1)).dedup.foldl (fun b i =>
    b.placeMarks i ((c.afterB.grantsOf i).map (·.1)) ((marks.filter (fun g => grantExt g.1 == i)).map (fun g => revMark g.1)))
    ((newKeys c.afterA.exts c.img.exts).foldl Blk.newExt (b.cleanChanged old))

theorem keeps_enterExts {γ : Type} (P : Blk → γ) (hmarks : ∀ b i g w, P (Blk.placeMarks b i g w) = P b)
    (hnew : ∀ b e, P (Blk.newExt b e) = P b) (hclean : ∀ b s, P (Blk.cleanChanged b s) = P b) (b : Blk) (old : Struct)
    (c : Commit) : P (enterExts b old c) = P b := by
  unfold enterExts
  dsimp only
  rw [keeps_foldl P (fun x i => hmarks ..), keeps_foldl P hnew, hclean]

theorem phaseAEnd_ends {b : Blk} {m : Commit} (hup : b.dead = false) (hm : b.str.commit = some m) (hph : m.phase = 1)
    (hdone : b.phaseDone m = true) :
    phaseAEnd b = (enterExts (afterPhaseA b m) b.str.run m).trace { source := 8, event := 2, unit := 112, a := m.img.epoch.toNat } := by
  simp only [phaseAEnd, hm]
  exact if_neg (by simp [hup, hph, hdone])

/-- The block at the end of phase B before the commit's record and answer: the new structure is in force (R67, R379). -/
def afterPhaseB (b : Blk) (c : Commit) : Blk :=
  { b with
    str := { b.str with run := c.afterB, epoch := c.img.epoch, staged := none, commit := none, last := 0 }
    sec.meas := mput b.sec.meas 7 (sha256 ((mget b.sec.meas 7).getD [] ++ c.digest)) }

theorem phaseBEnd_ends {b : Blk} {m : Commit} (hup : b.dead = false) (hm : b.str.commit = some m) (hph : m.phase = 2)
    (hdone : b.phaseDone m = true) :
    phaseBEnd b = ((afterPhaseB b m).trace { source := 8, event := 3, unit := 112, a := m.img.epoch.toNat }).commitAnswer m.cmd := by
  simp only [phaseBEnd, hm]
  exact if_neg (by simp [hup, hph, hdone])

theorem commitAnswer_of_accepts {b : Blk} (c : CmdId) (h : b.mgmt.resetting = false) (h1 : b.mgmt.failed = false)
    (h2 : b.mgmt.reanswer = none) : b.commitAnswer c = b.strAnswer c 0 false := by
  simp [Blk.commitAnswer, h, h1, h2]

theorem ends_strAnswer {s : State} {x : Blk} {c : CmdId} {r : CmdRec} (hc : s.blk.cmd c = some r) (hl : r.lost = false)
    (hx : x.hub.inProg = s.blk.hub.inProg) (st : Nat) (bad : Bool) : Ends s { s with blk := x.strAnswer c st bad } c r st [] := by
  unfold Blk.strAnswer
  exact ends_answerCmd hc hl (by split <;> exact hx) st []

theorem str_strAnswer (b : Blk) (c : CmdId) (st : Nat) (bad : Bool) : (b.strAnswer c st bad).str = { b.str with last := st } := by
  unfold Blk.strAnswer
  split <;> simp

theorem taken_modStruct (b : Blk) (f : Struct → Struct) :
    (b.modStruct f).str.commit.map (·.taken) = b.str.commit.map (·.taken) := by
  cases h : b.str.commit <;> simp [Blk.modStruct, h]

/-- Settles O17, by the equations of the taking of a phase and of the two ends. -/
theorem phasesAreTakenAndEndInOrder : Obligations.PhasesAreTakenAndEndInOrder := by
  unfold Obligations.PhasesAreTakenAndEndInOrder
  refine ⟨fun s k m hup hm hk hin hkind => ?_, fun s m hup hm hk hin hph => ?_, fun s k m hup hm hk hin hrun hph => ?_,
    fun s k m hm hrun => ?_, fun s g m hup hm hk hin => ?_, fun s m hup hm hk hin => ?_, fun s q m hup hm hk hin => ?_,
    fun s k m hm h => ?_, fun s m hup hm hph hdone => ?_, fun s m r hup hm hph hdone hres hfail hre hcmd hlost => ?_,
    fun s m hm hdone => ⟨?_, ?_⟩⟩
  · refine gives_of_live (f := fun b => phaseTake b k) rfl hup ?_
    have hbusy : busyBlock s.blk k = false := by cases k <;> simp_all [busyBlock]
    rw [phaseTake_takes hup hm hk hin hbusy]
    cases k <;> simp_all [takePhase]
  · refine does_of_live (f := fun b => phaseTake b .hub) rfl hup ?_
    rw [phaseTake_takes hup hm hk hin rfl]
    simp only [takePhase, if_pos hph]
    have hpair : ((takenBy s.blk m .hub).modStruct
      (fun s => { s with pair := m.afterA.pair, trace := m.afterA.trace })).str.run.pair = m.afterA.pair := rfl
    have htrace : ((takenBy s.blk m .hub).modStruct
      (fun s => { s with pair := m.afterA.pair, trace := m.afterA.trace })).str.run.trace = m.afterA.trace := rfl
    have htaken := taken_modStruct (takenBy s.blk m .hub) (fun s => { s with pair := m.afterA.pair, trace := m.afterA.trace })
    have hkeep : rest ([.str, .pair] ++ quietRegions) ((takenBy s.blk m .hub).modStruct
        (fun s => { s with pair := m.afterA.pair, trace := m.afterA.trace })) = rest ([.str, .pair] ++ quietRegions) s.blk := by
      rw [rest_modStruct (by simp), takenBy, rest_with_str (by simp)]
    generalize (takenBy s.blk m .hub).modStruct (fun s => { s with pair := m.afterA.pair, trace := m.afterA.trace }) = y
      at hpair htrace htaken hkeep ⊢
    refine ⟨only_of_blk (onlyBlk_of_rest ?_), ?_⟩
    · rw [rest_setPair (by simp), rest_logFlush (by simp [quietRegions]) (by simp [quietRegions]) (by simp [quietRegions])
        (by simp [quietRegions]) (by simp [quietRegions]) (by simp [quietRegions]) (by simp [quietRegions])]
      split
      · rw [rest_freeLogFrames (by simp [quietRegions]), rest_setRings (by simp [quietRegions]), hkeep]
      · rw [rest_setRings (by simp [quietRegions]), hkeep]
    · have hstr : (((if (takenBy s.blk m .hub).rings.log.ext.isSome && (y.setRings m.afterA.trace false).rings.log.ext.isNone
          then (y.setRings m.afterA.trace false).freeLogFrames else y.setRings m.afterA.trace false).logFlush).setPair
            (takenBy s.blk m .hub).str.run.pair m.img.pair.isSome).str = y.str := by
        rw [str_setPair, str_logFlush]
        split <;> simp only [str_freeLogFrames, str_setRings]
      rw [hstr]
      exact ⟨hpair, htrace, htaken⟩
  · refine does_of_live (f := fun b => phaseTake b (.tiller k)) rfl hup ?_
    rw [phaseTake_takes hup hm hk hin (by simp [busyBlock, hrun])]
    simp only [takePhase, Blk.tillerTake, hph, ne_eq, not_true_eq_false, if_false, str_dropPre]
    refine ⟨?_, fun e he => ?_, rfl⟩
    · exact congrArg Tiller.clearing (Blk.til_modTil_self ((takenBy s.blk m (.tiller k)).dropPre fun p =>
        ((takenBy s.blk m (.tiller k)).til k).pre.contains p) k (fun t => { t with clearing := true }))
    · simpa using (List.mem_filter.1 he).2
  · exact stays_of_live (f := fun b => phaseTake b (.tiller k)) rfl fun _ => phaseTake_stays hm (.inr (.inr hrun))
  · exact gives_of_live (f := fun b => phaseTake b (.gate g)) rfl hup (phaseTake_takes hup hm hk hin rfl)
  · exact gives_of_live (f := fun b => phaseTake b .buckets) rfl hup (phaseTake_takes hup hm hk hin rfl)
  · exact gives_of_live (f := fun b => phaseTake b (.home q)) rfl hup (phaseTake_takes hup hm hk hin rfl)
  · exact stays_of_live (f := fun b => phaseTake b k) rfl fun _ => phaseTake_stays hm (h.imp_right .inl)
  · refine does_of_live (f := phaseAEnd) rfl hup ?_
    rw [phaseAEnd_ends hup hm hph hdone]
    have hstr := keeps_enterExts (fun x => x.str) str_placeMarks str_newExt str_cleanChanged (afterPhaseA s.blk m) s.blk.str.run m
    have hhub := keeps_enterExts (fun x => x.hub) hub_placeMarks hub_newExt hub_cleanChanged (afterPhaseA s.blk m) s.blk.str.run m
    have hsec := keeps_enterExts (fun x => x.sec) sec_placeMarks sec_newExt sec_cleanChanged (afterPhaseA s.blk m) s.blk.str.run m
    simp only [str_trace, hub_trace, sec_trace, hstr, hhub, hsec]
    exact ⟨rfl, rfl, rfl, rfl, rfl⟩
  · refine does_of_live (f := phaseBEnd) rfl hup ?_
    rw [phaseBEnd_ends hup hm hph hdone, commitAnswer_of_accepts _ (by rw [mgmt_trace]; exact hres) (by rw [mgmt_trace]; exact hfail)
      (by rw [mgmt_trace]; exact hre)]
    simp only [str_strAnswer, str_trace, sec_strAnswer, sec_trace]
    refine ⟨rfl, rfl, rfl, rfl, trivial, ends_strAnswer hcmd hlost ?_ 0 false, by simp [afterPhaseB]⟩
    rw [hub_trace]
    rfl
  · exact stays_of_live (f := phaseAEnd) rfl fun _ => phaseAEnd_stays hm hdone
  · exact stays_of_live (f := phaseBEnd) rfl fun _ => phaseBEnd_stays hm hdone

end Sys2Proof.Proofs
end

/-! ## Links: what each operation of a port does to its link (R264, R265, R273 to R277, R286) -/
section
namespace Sys2Proof.Proofs

open Sys2Proof.Machine

theorem link_congr {x y : Blk} (h : x.fab = y.fab) (n : Nat) : x.link n = y.link n := by
  simp [Blk.link, h]

@[simp] theorem link_setReg (b : Blk) (off : Nat) (v : Word) (n : Nat) : (b.setReg off v).link n = b.link n := rfl

@[simp] theorem link_flag (b : Blk) (off i n : Nat) : (b.flag off i).link n = b.link n := rfl

@[simp] theorem link_count (b : Blk) (off k n : Nat) : (b.count off k).link n = b.link n := rfl

@[simp] theorem link_incr (b : Blk) (off n : Nat) : (b.incr off).link n = b.link n := rfl

@[simp] theorem link_event (b : Blk) (unit code : Nat) (part : Option Nat) (k n : Nat) :
    (b.event unit code part k).link n = b.link n := link_congr (fab_event ..) n

@[simp] theorem link_trace (b : Blk) (r : TraceRec) (n : Nat) : (b.trace r).link n = b.link n := link_congr (fab_trace ..) n

@[simp] theorem link_traceLink (b : Blk) (k event cause n : Nat) : (b.traceLink k event cause).link n = b.link n :=
  link_congr (fab_traceLink ..) n

@[simp] theorem link_countRx (b : Blk) (k n : Nat) : (b.countRx k).link n = b.link n := link_congr (fab_countRx ..) n

/-- A link after a flit has been sent on it. -/
def Link.sent (k : Link) (ty seq : Nat) (payload : Bytes) (m : Nat) : Link :=
  { k with
    out := k.out ++ [{ ty := ty, seq := seq, ack := (k.rxNext + 4095) % 4096, reqAck := decide (1528 ≤ k.held.length),
                       payload := fit 32 payload, times := m }]
    unacked := 0, credit := k.credit - 34 * m }

@[simp] theorem link_emit (b : Blk) (n ty seq : Nat) (payload : Bytes) (m : Nat) :
    (b.emit n ty seq payload m).link n = Link.sent (b.link n) ty seq payload m := by
  simp [Blk.emit, Link.sent]

/-- A link after a sequenced flit has entered its replay buffer at a time. -/
def Link.kept (k : Link) (now ty : Nat) (payload : Bytes) (req : Option (Nat × Nat)) : Link :=
  { k with ackAt := if k.held.isEmpty then now else k.ackAt, held := k.held ++ [⟨ty, fit 32 payload, req⟩] }

@[simp] theorem link_keepFlit (b : Blk) (n ty : Nat) (payload : Bytes) (req : Option (Nat × Nat)) :
    (b.keepFlit n ty payload req).link n = Link.kept (b.link n) b.tb ty payload req := by
  simp only [Blk.keepFlit]
  split <;> simp [Link.kept]

@[simp] theorem link_putFlit (b : Blk) (n ty : Nat) (payload : Bytes) (req : Option (Nat × Nat)) :
    (b.putFlit n ty payload req).link n =
      Link.sent (Link.kept (b.link n) b.tb ty payload req) ty (b.link n).txNext payload 1 := by
  simp [Blk.putFlit]

@[simp] theorem link_sendNak (b : Blk) (n : Nat) :
    (b.sendNak n).link n = { Link.sent (b.link n) 0x4 0 [] 1 with wait := true, nakAt := b.tb } := by
  simp [Blk.sendNak]

theorem link_resends (b : Blk) (n o : Nat) (fs : List (Nat × TxFlit)) :
    let k := (fs.foldl (fun b f => b.emit n f.2.ty ((o + f.1) % 4096) f.2.payload) b).link n
    k.out.length = (b.link n).out.length + fs.length ∧ k.held = (b.link n).held ∧ k.state = (b.link n).state := by
  induction fs generalizing b with
  | nil => simp
  | cons f t ih =>
    have h := ih (b.emit n f.2.ty ((o + f.1) % 4096) f.2.payload)
    simp only [link_emit, Link.sent, List.length_append, List.length_singleton] at h
    obtain ⟨hout, hheld, hstate⟩ := h
    exact ⟨by rw [List.foldl_cons, hout, List.length_cons]; omega, hheld, hstate⟩

/-- A link resends what it holds, and goes on holding it (R276). -/
theorem link_resend (b : Blk) (n : Nat) :
    ((b.resend n).link n).out.length = (b.link n).out.length + (b.link n).held.length ∧
      ((b.resend n).link n).held = (b.link n).held ∧ ((b.resend n).link n).state = (b.link n).state := by
  have h := link_resends b n (b.link n).txOldest ((List.range (b.link n).held.length).zip (b.link n).held)
  simpa [Blk.resend] using h

/-- A link after the acknowledgement of its first m held flits at a time. -/
def Link.acked (k : Link) (now m : Nat) : Link :=
  { k with txOldest := (k.txOldest + m) % 4096, held := k.held.drop m, ackAt := now, replayFrom := none, replays := 0 }

theorem closeStep_of_not_asked {b : Blk} {n : Nat} (h : (b.link n).asked = false) : b.closeStep n = b := by
  simp [Blk.closeStep, h]

/-- An acknowledgement in range frees what it covers, on a link that does not close (R274). -/
theorem takeAck_of_range {b : Blk} {n a m : Nat} (hm : (a + 4097 - (b.link n).txOldest) % 4096 = m)
    (hle : m ≤ (b.link n).held.length) (hpos : 0 < m) (hask : (b.link n).asked = false) :
    b.takeAck n a = b.modLink n (fun k => Link.acked k b.tb m) := by
  simp only [Blk.takeAck, hm]
  rw [if_neg (by simp; omega)]
  exact closeStep_of_not_asked (by simpa using hask)

theorem takeAck_out_of_range {b : Blk} {n a m : Nat} (hm : (a + 4097 - (b.link n).txOldest) % 4096 = m)
    (h : (b.link n).held.length < m ∨ m = 0) : b.takeAck n a = b := by
  simp only [Blk.takeAck, hm]
  rw [if_pos (by simpa using h)]

@[simp] theorem link_flitIn (b : Blk) (n : Nat) : (b.flitIn n).link n = { b.link n with goodAt := b.tb } := by
  simp [Blk.flitIn]

/-- A link after a sequenced flit has been accepted at a time. -/
def Link.accepted (k : Link) (now : Nat) : Link :=
  { k with goodAt := now, rxNext := (k.rxNext + 1) % 4096, wait := false, unacked := k.unacked + 1,
           unackAt := if k.unacked = 0 then now else k.unackAt }

/-- The block where a port has accepted a sequenced flit, before what the flit does. -/
def acceptFlit (b : Blk) (n : Nat) : Blk :=
  (b.flitIn n).modLink n (fun k => { k with
    rxNext := (k.rxNext + 1) % 4096, wait := false, unacked := k.unacked + 1, unackAt := if k.unacked = 0 then b.tb else k.unackAt })

@[simp] theorem link_acceptFlit (b : Blk) (n : Nat) : (acceptFlit b n).link n = Link.accepted (b.link n) b.tb := by
  simp [acceptFlit, Link.accepted]

@[simp] theorem tb_acceptFlit (b : Blk) (n : Nat) : (acceptFlit b n).tb = b.tb := rfl

/-- A sequenced flit that is the next one is accepted; no acknowledgement is sent while few are owed (R275, R277). -/
theorem sequenced_of_next {b : Blk} {n ty : Nat} {f : Flit} (h : FlitNext b n ty f) {go : Blk → Blk}
    (hfew : ((go (acceptFlit b n)).link n).unacked < 64) : b.sequenced n ty f go = go (acceptFlit b n) := by
  obtain ⟨-, hlive, hform, hack, hreq, hnext, hrange, -⟩ := h
  have hd : ((b.link n).rxNext + 4096 - f.seq.toNat) % 4096 = 0 := by rw [hnext]; omega
  simp only [Blk.sequenced, hlive, hform, hack, hreq, link_flitIn, hd, Bool.not_true, Bool.false_eq_true, if_false, if_true,
    Bool.or_false]
  refine if_neg (?_ : ¬ (((go (acceptFlit b n)).link n).live && decide (64 ≤ ((go (acceptFlit b n)).link n).unacked)) = true)
  simp [hfew]

/-- A flit that has come before is discarded (R275). -/
theorem sequenced_of_duplicate {b : Blk} {n ty : Nat} {f : Flit} (hlive : (b.link n).live = true) (hform : flitOk ty f = true)
    (h0 : ((b.link n).rxNext + 4096 - f.seq.toNat) % 4096 ≠ 0) (h1 : ((b.link n).rxNext + 4096 - f.seq.toNat) % 4096 ≤ 1536)
    (go : Blk → Blk) : b.sequenced n ty f go = b.flitIn n := by
  simp [Blk.sequenced, hlive, hform, h0, h1]

theorem unsequenced_of_live {b : Blk} {n ty : Nat} {f : Flit} (hlive : (b.link n).live = true) (hform : flitOk ty f = true)
    (hack : f.ackV = true) (go : Blk → Blk) :
    b.unsequenced n ty f go = go ((b.flitIn n).takeAck n f.ack.toNat) := by
  simp [Blk.unsequenced, hlive, hform, hack]

theorem live_of_up_state {k : Link} (h : k.state = .up) : k.live = true := by
  simp [Link.live, h]

/-- A flit that fails its CRC on a live link (R275). -/
theorem flitCrcFail_of_live {b : Blk} {n : Nat} (hlive : (b.link n).live = true) :
    flitCrcFail b n = ((((b.incr (Reg.lnkCrcErrCnt n)).flag (Reg.lnkErr n) 7).aonAdd 207 1).aonAdd (24 + n) 1).sendNak n := by
  simp [flitCrcFail, hlive]

/-! ### The orderly close (R286) -/

/-- A close where PORT_CLOSING may still be due: it is sent where it can be, and the close does not end before PORT_CLOSED has come. -/
theorem link_closeStep_open {b : Blk} {n : Nat} (hg : (b.link n).gotClosed = false) :
    ((b.closeStep n).link n).gotClosed = false ∧ ((b.closeStep n).link n).gotClosing = (b.link n).gotClosing ∧
      ((b.closeStep n).link n).unacked ≤ (b.link n).unacked ∧
      (((b.closeStep n).link n).state = (b.link n).state ∨ ((b.closeStep n).link n).state = .closing) ∧
      ((b.closeStep n).link n).asked = (b.link n).asked := by
  unfold Blk.closeStep
  dsimp only
  repeat' split
  all_goals simp_all [Link.sent, Link.kept]

/-! ### Registers through the operations of a port -/

@[simp] theorem reg_modLink (b : Blk) (n : Nat) (f : Link → Link) (o : Nat) : (b.modLink n f).reg o = b.reg o := rfl

@[simp] theorem reg_aonAdd (b : Blk) (i k o : Nat) : (b.aonAdd i k).reg o = b.reg o := rfl

@[simp] theorem reg_emit (b : Blk) (n ty seq : Nat) (payload : Bytes) (m o : Nat) : (b.emit n ty seq payload m).reg o = b.reg o := rfl

@[simp] theorem reg_acceptFlit (b : Blk) (n o : Nat) : (acceptFlit b n).reg o = b.reg o := rfl

theorem bit_reg_flag (b : Blk) (off i : Nat) (h : i < 32) : ((b.flag off i).reg off).getLsbD i = true := by
  simp [Blk.flag, BitVec.getLsbD_or, h]

/-! ### What each flit does -/

theorem ackV_of_nak {f : Flit} (h : flitOk 0x4 f = true) : f.ackV = true := by
  simp only [flitOk, Bool.and_eq_true] at h
  exact h.2.1.2

/-- HEAD: its packet is in reception (R273). -/
theorem headFlit_of_next {b : Blk} {n : Nat} {f : Flit} (h : FlitNext b n 0x1 f) :
    (headFlit b n f).link n = { Link.accepted (b.link n) b.tb with
      rx := (b.link n).rx ++ [{ hdr := BitVec.ofNat 256 (le f.payload 0 32), left := hdrFlits (BitVec.ofNat 256 (le f.payload 0 32)) }]
      rxAt := b.tb, skip := false } := by
  have hfew := h.few
  rw [headFlit, sequenced_of_next h]
  · dsimp only
    split <;> simp [Link.accepted]
  · dsimp only
    split <;> simp [Link.accepted] <;> omega

/-- DATA of a packet that waits for its route (R275). -/
theorem dataFlit_of_next {b : Blk} {n : Nat} {f : Flit} {p : RxPkt} (h : FlitNext b n 0x2 f) (hskip : (b.link n).skip = false)
    (hrx : (b.link n).rx = [p]) (hleft : 1 < p.left) (hrouted : p.routed = false) :
    (dataFlit b n f).link n = { Link.accepted (b.link n) b.tb with
      rx := [{ p with left := p.left - 1, body := p.body ++ [fit 32 f.payload] }], rxAt := b.tb } := by
  have hfew := h.few
  have hl0 : p.left ≠ 0 := by omega
  have hl1 : p.left ≠ 1 := by omega
  rw [dataFlit, sequenced_of_next h]
  · simp [Link.accepted, hrx, hl0, hl1, hskip, hrouted]
  · simp [Link.accepted, hrx, hl0, hl1, hskip, hrouted]
    omega

/-- ABORT of a packet that no worm has taken on (R281). -/
theorem abortFlit_of_next {b : Blk} {n : Nat} {f : Flit} {p : RxPkt} (h : FlitNext b n 0x3 f) (hskip : (b.link n).skip = false)
    (hrx : (b.link n).rx = [p]) (hleft : p.left ≠ 0) (hhold : b.holdOf n = none) :
    abortFlit b n f = (((acceptFlit b n).incr (Reg.lnkTruncCnt n)).modLink n
      (fun k => { k with rx := k.rx.filter (fun p => p.left == 0), skip := true })).modLink n (fun k => { k with skip := false }) := by
  have hfew := h.few
  have hh : (acceptFlit b n).holdOf n = none := hhold
  have htr : (acceptFlit b n).truncateRx n = ((acceptFlit b n).incr (Reg.lnkTruncCnt n)).modLink n
      (fun k => { k with rx := k.rx.filter (fun p => p.left == 0), skip := true }) := by
    simp [Blk.truncateRx, Link.accepted, hrx, hleft, hh]
  have hs : ((acceptFlit b n).link n).skip = false := by simpa [Link.accepted] using hskip
  rw [abortFlit, sequenced_of_next h]
  · simp only [hs, Bool.false_eq_true, if_false, htr]
  · simp only [hs, Bool.false_eq_true, if_false, htr]
    simp only [Blk.link_modLink_self, link_incr, link_acceptFlit, Link.accepted]
    omega

/-- A replay that is not the 16th from the same flit leaves what is held and resends it (R276). -/
theorem link_replay {b : Blk} {n : Nat} (h : (b.link n).replays < 15) :
    ((b.replay n).link n).state = (b.link n).state ∧ ((b.replay n).link n).held = (b.link n).held ∧
      ((b.replay n).link n).out.length = (b.link n).out.length + (b.link n).held.length := by
  unfold Blk.replay
  dsimp only
  split
  · next hempty => simp [List.isEmpty_iff.1 hempty]
  · have hm : ¬ 16 ≤ if (b.link n).replayFrom = some (b.link n).txOldest then (b.link n).replays + 1 else 1 := by
      split <;> omega
    rw [if_neg hm]
    obtain ⟨hout, hheld, hstate⟩ := link_resend (b.modLink n (fun k => { k with
      replayFrom := some (b.link n).txOldest
      replays := if (b.link n).replayFrom = some (b.link n).txOldest then (b.link n).replays + 1 else 1, ackAt := b.tb })) n
    simp only [Blk.link_modLink_self] at hout hheld hstate
    exact ⟨hstate, hheld, hout⟩

/-- PORT_CLOSING (R286). -/
theorem portClosing_of_next {b : Blk} {n : Nat} {f : Flit} (h : FlitNext b n 0x5 f) (hgot : (b.link n).gotClosed = false) :
    ((portClosing b n f).link n).state = .closing ∧ ((portClosing b n f).link n).gotClosing = true := by
  have hfew := h.few
  generalize hx : acceptFlit b n = x
  have hxg : (x.link n).gotClosed = false := by rw [← hx]; simpa [Link.accepted] using hgot
  have hxu : (x.link n).unacked < 64 := by rw [← hx]; simp [Link.accepted]; omega
  have hbegin : ((x.beginClose n).link n).gotClosed = false ∧ ((x.beginClose n).link n).unacked < 64 := by
    unfold Blk.beginClose
    split
    · obtain ⟨hg, -, hu, -⟩ := link_closeStep_open
        (b := x.modLink n (fun k => { k with asked := true, closeAt := x.tb })) (n := n) (by simpa using hxg)
      simp only [Blk.link_modLink_self] at hu
      exact ⟨hg, by omega⟩
    · exact ⟨hxg, hxu⟩
  obtain ⟨hbg, hbu⟩ := hbegin
  obtain ⟨-, hclosing, hu, hstate, -⟩ := link_closeStep_open
    (b := (x.beginClose n).modLink n (fun k => { k with gotClosing := true, state := .closing })) (n := n) (by simpa using hbg)
  simp only [Blk.link_modLink_self, or_self] at hclosing hu hstate
  rw [portClosing, sequenced_of_next h]
  · rw [hx]
    exact ⟨hstate, hclosing⟩
  · rw [hx]
    exact lt_of_le_of_lt hu hbu

theorem link_linkIdle (b : Blk) (n : Nat) :
    ((b.linkIdle n).link n).held = [] ∧ ((b.linkIdle n).link n).rxNext = 0 ∧
      ((b.linkIdle n).link n).state = (if b.linkOn n && !b.portsOff then .training else .disabled) ∧
      ((b.linkIdle n).link n).unacked = 0 := by
  unfold Blk.linkIdle
  dsimp only
  rw [Blk.link_modLink_self]
  split <;> simp [Link.attempt, Link.cleared]

/-- PORT_CLOSED after both sides' PORT_CLOSING ends the close (R286). -/
theorem portClosed_of_next {b : Blk} {n : Nat} {f : Flit} (h : FlitNext b n 0x5 f) (hask : (b.link n).asked = true)
    (hsent : (b.link n).sentClosing = true) (hclosed : (b.link n).sentClosed = true) :
    ((portClosed b n f).link n).held = [] ∧ ((portClosed b n f).link n).rxNext = 0 ∧
      ((portClosed b n f).link n).state = (if b.linkOn n && !b.portsOff then .training else .disabled) := by
  have hlive : (Link.accepted (b.link n) b.tb).live = true := h.live
  have hend : ((acceptFlit b n).modLink n (fun k => { k with gotClosed := true })).closeStep n =
      ((acceptFlit b n).modLink n (fun k => { k with gotClosed := true })).linkIdle n := by
    have hl : ({ Link.accepted (b.link n) b.tb with gotClosed := true } : Link).live = true := hlive
    simp only [Blk.closeStep, Blk.link_modLink_self, link_acceptFlit, hl]
    simp [Link.accepted, hask, hsent, hclosed]
  obtain ⟨hheld, hnext, hstate, hun⟩ := link_linkIdle ((acceptFlit b n).modLink n (fun k => { k with gotClosed := true })) n
  rw [portClosed, sequenced_of_next h]
  · rw [hend]
    exact ⟨hheld, hnext, hstate⟩
  · rw [hend, hun]
    decide

/-- Settles O45, by the classification of a received flit and what its type does to the link. -/
theorem linkFlitsAreReceived : Obligations.LinkFlitsAreReceived := by
  unfold Obligations.LinkFlitsAreReceived
  refine ⟨fun s n f hup hst hask hform hack => ⟨fun hle hpos => ?_, fun hout => ?_⟩, fun s n f h => ?_,
    fun s n f hup hlive hform h0 h1 => ?_, fun s n f p h hskip hrx hleft hrouted => ?_,
    fun s n f p h hskip hrx hleft hhold => ?_, fun s n f hup hst hask hform hle hpos => ?_, fun s n f h hst hgot => ?_,
    fun s n f h hask hsent hclosed => ?_, fun s n hup hlive => ?_⟩
  · refine does_of_live (f := fun b => idleFlit b n f) rfl hup ?_
    rw [idleFlit, unsequenced_of_live (live_of_up_state hst) hform hack,
      takeAck_of_range (b := s.blk.flitIn n) (by rw [link_flitIn]) (by simpa using hle) hpos (by simpa using hask)]
    refine ⟨only_of_blk (onlyBlk_of_rest ?_), ?_⟩
    · simp [rest_modLink, rest_flitIn]
    · simp [Link.acked]
  · refine does_of_live (f := fun b => idleFlit b n f) rfl hup ?_
    rw [idleFlit, unsequenced_of_live (live_of_up_state hst) hform hack,
      takeAck_out_of_range (b := s.blk.flitIn n) (by rw [link_flitIn]) (by simpa using hout)]
    simp
  · refine does_of_live (f := fun b => headFlit b n f) rfl h.up ?_
    simp [headFlit_of_next h, Link.accepted]
  · refine does_of_live (f := fun b => headFlit b n f) rfl hup ?_
    rw [headFlit, sequenced_of_duplicate hlive hform h0 h1]
    exact ⟨only_of_blk (onlyBlk_of_rest (by simp [rest_flitIn])), by simp⟩
  · refine does_of_live (f := fun b => dataFlit b n f) rfl h.up ?_
    simp [dataFlit_of_next h hskip hrx hleft hrouted, Link.accepted]
  · refine does_of_live (f := fun b => abortFlit b n f) rfl h.up ?_
    rw [abortFlit_of_next h hskip hrx hleft hhold]
    simp [Link.accepted, hrx, hleft, toNat_reg_incr]
  · refine does_of_live (f := fun b => nakFlit b n f) rfl hup ?_
    rw [nakFlit, unsequenced_of_live (live_of_up_state hst) hform (ackV_of_nak hform),
      takeAck_of_range (b := s.blk.flitIn n) (by rw [link_flitIn]) (by simpa using hle) hpos (by simpa using hask)]
    simp only [hle, decide_true, if_true]
    obtain ⟨hstate, hheld, hout⟩ := link_replay (n := n) (b := ((s.blk.flitIn n).modLink n
      (fun k => Link.acked k (s.blk.flitIn n).tb ((f.ack.toNat + 4097 - (s.blk.link n).txOldest) % 4096))).incr (Reg.lnkNakRxCnt n))
      (by simp [Link.acked])
    simp only [link_incr, Blk.link_modLink_self, link_flitIn, Link.acked, List.length_drop] at hstate hheld hout
    exact ⟨hstate.trans hst, hheld, hout⟩
  · exact does_of_live (f := fun b => portClosing b n f) rfl h.up (portClosing_of_next h hgot)
  · exact does_of_live (f := fun b => portClosed b n f) rfl h.up (portClosed_of_next h hask hsent hclosed)
  · refine does_of_live (f := fun b => flitCrcFail b n) rfl hup ?_
    rw [flitCrcFail_of_live hlive]
    refine ⟨only_of_blk (onlyBlk_of_rest ?_), ?_⟩
    · simp [rest_sendNak, rest_aonAdd, rest_flag, rest_incr]
    · refine ⟨by simp, by simp, by simp [Link.sent], _, by simp [Link.sent]; rfl, rfl, ?_⟩
      simp only [Blk.sendNak, reg_modLink, reg_emit]
      rw [reg_incr_ne _ (by simp [Reg.lnkErr, Reg.lnkNakTxCnt])]
      exact bit_reg_flag _ _ _ (by decide)

/-! ### Codewords (R264, R265) -/

theorem cwDecode_le {c : Codeword} {k : Nat} (h : cwDecode c = some k) : k ≤ 15 := by
  unfold cwDecode at h
  dsimp only at h
  split at h
  · cases h
    omega
  · split at h
    · next hok =>
      simp only [Bool.and_eq_true, decide_eq_true_eq] at hok
      exact (Option.some.inj h) ▸ hok.1
    · exact absurd h (by simp)

/-- A flit that fails its CRC on a live link: a NAK more, and the link else as it was. -/
theorem link_flitCrcFail {b : Blk} {n : Nat} (hlive : (b.link n).live = true) :
    (flitCrcFail b n).link n = { Link.sent (b.link n) 0x4 0 [] 1 with wait := true, nakAt := b.tb } := by
  simp [flitCrcFail_of_live hlive]

theorem reg_flitCrcFail {b : Blk} {n : Nat} (hlive : (b.link n).live = true) :
    ((flitCrcFail b n).reg (Reg.lnkCrcErrCnt n)).toNat = min ((b.reg (Reg.lnkCrcErrCnt n)).toNat + 1) 0xFFFFFFFF ∧
      (flitCrcFail b n).reg (Reg.lnkFecUncorrCnt n) = b.reg (Reg.lnkFecUncorrCnt n) := by
  rw [flitCrcFail_of_live hlive]
  simp only [Blk.sendNak, reg_modLink, reg_emit]
  constructor
  · rw [reg_incr_ne _ (by simp [Reg.lnkCrcErrCnt, Reg.lnkNakTxCnt])]
    simp only [reg_aonAdd]
    rw [Blk.flag, Blk.reg_setReg_ne _ _ _ _ (by simp [Reg.lnkCrcErrCnt, Reg.lnkErr]), toNat_reg_incr]
  · rw [reg_incr_ne _ (by simp [Reg.lnkFecUncorrCnt, Reg.lnkNakTxCnt])]
    simp only [reg_aonAdd]
    rw [Blk.flag, Blk.reg_setReg_ne _ _ _ _ (by simp [Reg.lnkFecUncorrCnt, Reg.lnkErr]),
      reg_incr_ne _ (by simp [Reg.lnkFecUncorrCnt, Reg.lnkCrcErrCnt])]

/-- What some flits marked bad leave on a live link: a NAK for each, each counted, and nothing received. -/
theorem flitCrcFails (n m : Nat) {b : Blk} (hlive : (b.link n).live = true) :
    let y := (List.replicate m ()).foldl (fun b _ => flitCrcFail b n) b
    (y.link n).rx = (b.link n).rx ∧ (y.link n).rxNext = (b.link n).rxNext ∧
      (y.link n).out.length = (b.link n).out.length + m ∧ (0 < m → (y.link n).wait = true) ∧
      (y.reg (Reg.lnkCrcErrCnt n)).toNat = min ((b.reg (Reg.lnkCrcErrCnt n)).toNat + m) 0xFFFFFFFF ∧
      y.reg (Reg.lnkFecUncorrCnt n) = b.reg (Reg.lnkFecUncorrCnt n) := by
  induction m generalizing b with
  | zero =>
    have := (b.reg (Reg.lnkCrcErrCnt n)).isLt
    simp
    omega
  | succ m ih =>
    have hk := link_flitCrcFail hlive
    have hlive1 : ((flitCrcFail b n).link n).live = true := by rw [hk]; exact hlive
    obtain ⟨hrx, hnext, hout, hwait, hcrc, hunc⟩ := ih hlive1
    obtain ⟨hcrc1, hunc1⟩ := reg_flitCrcFail hlive
    refine ⟨hrx.trans (by rw [hk]; rfl), hnext.trans (by rw [hk]; rfl), hout.trans ?_, fun _ => ?_, hcrc.trans ?_, hunc.trans hunc1⟩
    · rw [hk]
      simp [Link.sent]
      omega
    · rcases Nat.eq_zero_or_pos m with rfl | hm
      · rw [List.replicate_one, List.foldl_cons, List.foldl_nil, hk]
      · exact hwait hm
    · omega

theorem exec_codewordReceive (s : State) (n : PortIx) (c : Codeword) :
    exec (.codewordReceive n c) s = live (fun b => codewordReceive b n c) s := rfl

theorem codewordReceive_of_some {b : Blk} (n : Nat) {c : Codeword} {k : Nat} (h : cwDecode c = some k) :
    codewordReceive b n c = (b.count (Reg.lnkFecCorrCnt n) k).modLink n (fun k => { k.cwNext false with uncorrRun := 0 }) := by
  unfold codewordReceive
  rw [h]

/-- The block where a bad codeword has been counted, before its flits are (R265). -/
def badCodeword (b : Blk) (n : Nat) : Blk :=
  (b.incr (Reg.lnkFecUncorrCnt n)).modLink n (fun k => { k.cwNext true with
    uncorrRun := k.uncorrRun + 1
    uncorr := k.uncorr.filter (fun t => b.tb < t + 1000000) ++ [b.tb] })

theorem codewordReceive_of_none {b : Blk} (n : Nat) {c : Codeword} (h : cwDecode c = none) :
    codewordReceive b n c = (List.replicate (b.link n).cwFlits ()).foldl (fun b _ => flitCrcFail b n) (badCodeword b n) := by
  unfold codewordReceive
  rw [h]
  rfl

/-- Settles O43, by the flits that a bad codeword touches. -/
theorem codewordsAreCountedAndMarked : Obligations.CodewordsAreCountedAndMarked := by
  unfold Obligations.CodewordsAreCountedAndMarked
  refine ⟨fun s n c k hup hc => ⟨cwDecode_le hc, ?_⟩, fun s n c hup hlive hc => ?_⟩
  · apply does_of_live (exec_codewordReceive s n c) hup
    rw [codewordReceive_of_some n hc]
    refine ⟨only_of_blk (onlyBlk_of_rest (by simp [rest_modLink, rest_count])), ?_, by simp, fun m hm => ?_⟩
    · rw [reg_modLink, toNat_reg_count]
    · rw [link_modLink_ne _ _ (by simpa [Fin.ext_iff] using hm), link_count]
  · apply does_of_live (exec_codewordReceive s n c) hup
    rw [codewordReceive_of_none n hc]
    have hk : 16 ≤ (s.blk.link n).cwFlits := by
      unfold Link.cwFlits
      split <;> omega
    have hxl : ((badCodeword s.blk n).link n).live = true := by simpa [badCodeword, Link.live, Link.cwNext] using hlive
    obtain ⟨hrx, hnext, hout, hwait, hcrc, hunc⟩ := flitCrcFails n (s.blk.link n).cwFlits hxl
    refine ⟨only_of_blk (onlyBlk_of_rest ?_), ?_, ?_, hrx.trans ?_, hnext.trans ?_, hout.trans ?_, hk, hwait (by omega)⟩
    · rw [rest_foldl (fun b _ => rest_flitCrcFail (by simp) (by simp) (by simp) b n)]
      simp [badCodeword, rest_modLink, rest_incr]
    · rw [hunc, badCodeword, reg_modLink, toNat_reg_incr]
    · rw [hcrc, badCodeword, reg_modLink, reg_incr_ne _ (by simp [Reg.lnkFecUncorrCnt, Reg.lnkCrcErrCnt])]
    all_goals simp [badCodeword, Link.cwNext]

end Sys2Proof.Proofs
end

/-! ## The control and error words of a link, which only the link and the host write -/
section
namespace Sys2Proof.Proofs

open Sys2Proof.Machine

/-- Is an offset one where, in every page of registers, only a unit's control word or a link's error word can stand. -/
def LinkWord (o : Nat) : Prop := o % 0x1000 = 0 ∨ o % 0x1000 = 0x20

theorem word_setReg {o : Nat} (ho : LinkWord o) (b : Blk) {off : Nat} (h : ¬ LinkWord off) (v : Word) :
    (b.setReg off v).reg o = b.reg o := Blk.reg_setReg_ne b off o v (by rintro rfl; exact h ho)

theorem word_flag {o : Nat} (ho : LinkWord o) (b : Blk) {off : Nat} (h : ¬ LinkWord off) (i : Nat) :
    (b.flag off i).reg o = b.reg o := word_setReg ho b h _

theorem word_count {o : Nat} (ho : LinkWord o) (b : Blk) {off : Nat} (h : ¬ LinkWord off) (n : Nat) :
    (b.count off n).reg o = b.reg o := word_setReg ho b h _

theorem word_incr {o : Nat} (ho : LinkWord o) (b : Blk) {off : Nat} (h : ¬ LinkWord off) :
    (b.incr off).reg o = b.reg o := word_setReg ho b h _

/-! The registers are one part of the block. -/

theorem reg_with_dead (b : Blk) (x : Bool) (o : Nat) : ({ b with dead := x } : Blk).reg o = b.reg o := rfl

theorem reg_with_pins (b : Blk) (x : Pins) (o : Nat) : ({ b with pins := x } : Blk).reg o = b.reg o := rfl

theorem reg_with_tb (b : Blk) (x : Nat) (o : Nat) : ({ b with tb := x } : Blk).reg o = b.reg o := rfl

theorem reg_with_frozen (b : Blk) (x : Bool) (o : Nat) : ({ b with frozen := x } : Blk).reg o = b.reg o := rfl

theorem reg_with_fresh (b : Blk) (x : Nat) (o : Nat) : ({ b with fresh := x } : Blk).reg o = b.reg o := rfl

theorem reg_with_aon (b : Blk) (x : Tab Nat) (o : Nat) : ({ b with aon := x } : Blk).reg o = b.reg o := rfl

theorem reg_with_pcs (b : Blk) (x : Tab Pc) (o : Nat) : ({ b with pcs := x } : Blk).reg o = b.reg o := rfl

theorem reg_with_str (b : Blk) (x : StrSt) (o : Nat) : ({ b with str := x } : Blk).reg o = b.reg o := rfl

theorem reg_with_pool (b : Blk) (x : Pool) (o : Nat) : ({ b with pool := x } : Blk).reg o = b.reg o := rfl

theorem reg_with_chans (b : Blk) (x : Chans) (o : Nat) : ({ b with chans := x } : Blk).reg o = b.reg o := rfl

theorem reg_with_ext (b : Blk) (x : ExtSt) (o : Nat) : ({ b with ext := x } : Blk).reg o = b.reg o := rfl

theorem reg_with_coh (b : Blk) (x : Coh) (o : Nat) : ({ b with coh := x } : Blk).reg o = b.reg o := rfl

theorem reg_with_fab (b : Blk) (x : Fab) (o : Nat) : ({ b with fab := x } : Blk).reg o = b.reg o := rfl

theorem reg_with_traf (b : Blk) (x : Traf) (o : Nat) : ({ b with traf := x } : Blk).reg o = b.reg o := rfl

theorem reg_with_work (b : Blk) (x : Work) (o : Nat) : ({ b with work := x } : Blk).reg o = b.reg o := rfl

theorem reg_with_rings (b : Blk) (x : Rings) (o : Nat) : ({ b with rings := x } : Blk).reg o = b.reg o := rfl

theorem reg_with_pair (b : Blk) (x : Pair) (o : Nat) : ({ b with pair := x } : Blk).reg o = b.reg o := rfl

theorem reg_with_hub (b : Blk) (x : Hub) (o : Nat) : ({ b with hub := x } : Blk).reg o = b.reg o := rfl

theorem reg_with_mgmt (b : Blk) (x : Mgmt) (o : Nat) : ({ b with mgmt := x } : Blk).reg o = b.reg o := rfl

theorem reg_with_sec (b : Blk) (x : Sec) (o : Nat) : ({ b with sec := x } : Blk).reg o = b.reg o := rfl

theorem reg_with_pwr (b : Blk) (x : Pwr) (o : Nat) : ({ b with pwr := x } : Blk).reg o = b.reg o := rfl

end Sys2Proof.Proofs
end

/-! ## No other operation writes the control and error words of a link -/
section
namespace Sys2Proof.Proofs

open Sys2Proof.Machine

theorem offWord_grnCeCnt (q : Nat) : ¬ LinkWord (Reg.grnCeCnt q) := by
  simp only [LinkWord, Reg.grnCeCnt]
  omega

theorem offWord_grnDirtyLostCnt (q : Nat) : ¬ LinkWord (Reg.grnDirtyLostCnt q) := by
  simp only [LinkWord, Reg.grnDirtyLostCnt]
  omega

theorem offWord_grnErr (q : Nat) : ¬ LinkWord (Reg.grnErr q) := by
  simp only [LinkWord, Reg.grnErr]
  omega

theorem offWord_grnUeCnt (q : Nat) : ¬ LinkWord (Reg.grnUeCnt q) := by
  simp only [LinkWord, Reg.grnUeCnt]
  omega

theorem offWord_grnUeRecoveredCnt (q : Nat) : ¬ LinkWord (Reg.grnUeRecoveredCnt q) := by
  simp only [LinkWord, Reg.grnUeRecoveredCnt]
  omega

theorem offWord_haAtomicFarCnt (q : Nat) : ¬ LinkWord (Reg.haAtomicFarCnt q) := by
  simp only [LinkWord, Reg.haAtomicFarCnt]
  omega

theorem offWord_haAtomicNearCnt (q : Nat) : ¬ LinkWord (Reg.haAtomicNearCnt q) := by
  simp only [LinkWord, Reg.haAtomicNearCnt]
  omega

theorem offWord_haErr (q : Nat) : ¬ LinkWord (Reg.haErr q) := by
  simp only [LinkWord, Reg.haErr]
  omega

theorem offWord_haRatHitCnt (q : Nat) : ¬ LinkWord (Reg.haRatHitCnt q) := by
  simp only [LinkWord, Reg.haRatHitCnt]
  omega

theorem offWord_haRefuseCnt (q : Nat) : ¬ LinkWord (Reg.haRefuseCnt q) := by
  simp only [LinkWord, Reg.haRefuseCnt]
  omega

theorem offWord_hskCeCnt (c : Nat) : ¬ LinkWord (Reg.hskCeCnt c) := by
  simp only [LinkWord, Reg.hskCeCnt]
  omega

theorem offWord_hskErr (c : Nat) : ¬ LinkWord (Reg.hskErr c) := by
  simp only [LinkWord, Reg.hskErr]
  omega

theorem offWord_hskUeCnt (c : Nat) : ¬ LinkWord (Reg.hskUeCnt c) := by
  simp only [LinkWord, Reg.hskUeCnt]
  omega

theorem offWord_hubAptErr : ¬ LinkWord (Reg.hubAptErr) := by
  simp only [LinkWord, Reg.hubAptErr]
  omega

theorem offWord_hubAptErrAddrHi : ¬ LinkWord (Reg.hubAptErrAddrHi) := by
  simp only [LinkWord, Reg.hubAptErrAddrHi]
  omega

theorem offWord_hubAptErrAddrLo : ¬ LinkWord (Reg.hubAptErrAddrLo) := by
  simp only [LinkWord, Reg.hubAptErrAddrLo]
  omega

theorem offWord_hubAptRefuseCnt : ¬ LinkWord (Reg.hubAptRefuseCnt) := by
  simp only [LinkWord, Reg.hubAptRefuseCnt]
  omega

theorem offWord_hubMirrorFailCnt : ¬ LinkWord (Reg.hubMirrorFailCnt) := by
  simp only [LinkWord, Reg.hubMirrorFailCnt]
  omega

theorem offWord_hubPairErr : ¬ LinkWord (Reg.hubPairErr) := by
  simp only [LinkWord, Reg.hubPairErr]
  omega

theorem offWord_hubRetryCnt : ¬ LinkWord (Reg.hubRetryCnt) := by
  simp only [LinkWord, Reg.hubRetryCnt]
  omega

theorem offWord_lnkLinkLostCnt (n : Nat) : ¬ LinkWord (Reg.lnkLinkLostCnt n) := by
  simp only [LinkWord, Reg.lnkLinkLostCnt]
  omega

theorem offWord_lnkStallCnt (n : Nat) : ¬ LinkWord (Reg.lnkStallCnt n) := by
  simp only [LinkWord, Reg.lnkStallCnt]
  omega

theorem offWord_lnkTruncCnt (n : Nat) : ¬ LinkWord (Reg.lnkTruncCnt n) := by
  simp only [LinkWord, Reg.lnkTruncCnt]
  omega

theorem offWord_nrmDropNorouteCnt (q : Nat) : ¬ LinkWord (Reg.nrmDropNorouteCnt q) := by
  simp only [LinkWord, Reg.nrmDropNorouteCnt]
  omega

theorem offWord_nrmRtErr (q : Nat) : ¬ LinkWord (Reg.nrmRtErr q) := by
  simp only [LinkWord, Reg.nrmRtErr]
  omega

theorem offWord_obsErr : ¬ LinkWord (Reg.obsErr) := by
  simp only [LinkWord, Reg.obsErr]
  omega

theorem offWord_obsTraceLossCnt : ¬ LinkWord (Reg.obsTraceLossCnt) := by
  simp only [LinkWord, Reg.obsTraceLossCnt]
  omega

theorem offWord_pwrErr : ¬ LinkWord (Reg.pwrErr) := by
  simp only [LinkWord, Reg.pwrErr]
  omega

theorem offWord_secErr : ¬ LinkWord (Reg.secErr) := by
  simp only [LinkWord, Reg.secErr]
  omega

theorem offWord_secKeyMismatchCnt : ¬ LinkWord (Reg.secKeyMismatchCnt) := by
  simp only [LinkWord, Reg.secKeyMismatchCnt]
  omega

theorem word_aonAdd {wd : Nat} (ho : LinkWord wd) (b : Blk) (i n : Nat) :
    (b.aonAdd i n).reg wd = b.reg wd := by
  exact reg_congr (regs_of_rest (L := [.aon]) (rest_aonAdd (by decide) ..) (by decide)) wd

theorem word_event {wd : Nat} (ho : LinkWord wd) (b : Blk) (unit code : Nat) (part : Option Nat) (n : Nat) :
    (b.event unit code part n).reg wd = b.reg wd := by
  exact reg_congr (regs_of_rest (L := [.pcs]) (rest_event (by decide) ..) (by decide)) wd

theorem word_modHusk {wd : Nat} (ho : LinkWord wd) (b : Blk) (c : Nat) (f : HuskChan → HuskChan) :
    (b.modHusk c f).reg wd = b.reg wd := by
  exact reg_congr (regs_of_rest (L := [.chans]) (rest_modHusk (by decide) ..) (by decide)) wd

theorem word_modGrain {wd : Nat} (ho : LinkWord wd) (b : Blk) (c : Nat) (f : GrainChan → GrainChan) :
    (b.modGrain c f).reg wd = b.reg wd := by
  exact reg_congr (regs_of_rest (L := [.chans]) (rest_modGrain (by decide) ..) (by decide)) wd

theorem word_putCopy {wd : Nat} (ho : LinkWord wd) (b : Blk) (c : Copy) (l : Nat) (bs : Bytes) (m : LineMeta) :
    (b.putCopy c l bs m).reg wd = b.reg wd := by
  exact reg_congr (regs_of_rest (L := [.pool]) (rest_putCopy (by decide) ..) (by decide)) wd

theorem word_settleRow {wd : Nat} (ho : LinkWord wd) (b : Blk) (c line : Nat) (ks : List Nat) :
    (b.settleRow c line ks).reg wd = b.reg wd := by
  exact reg_congr (regs_of_rest (L := [.pool]) (rest_settleRow (by decide) ..) (by decide)) wd

theorem word_putHusk {wd : Nat} (ho : LinkWord wd) (b : Blk) (l : Nat) (bs : Bytes) (m : LineMeta) :
    (b.putHusk l bs m).reg wd = b.reg wd := by
  exact reg_congr (regs_of_rest (L := [.pool]) (rest_putHusk (by decide) ..) (by decide)) wd

theorem word_huskOp {wd : Nat} (ho : LinkWord wd) (b : Blk) (c code part : Nat) :
    (b.huskOp c code part).reg wd = b.reg wd := by
  exact reg_congr (regs_of_rest (L := [.aon, .pcs, .pool, .chans]) (rest_huskOp (by decide) (by decide) (by decide)
      (by decide) ..) (by decide)) wd

theorem word_countHusk {wd : Nat} (ho : LinkWord wd) (b : Blk) (l code part : Nat) :
    (b.countHusk l code part).reg wd = b.reg wd := by
  exact reg_congr (regs_of_rest (L := [.aon, .pcs, .pool, .chans]) (rest_countHusk (by decide) (by decide) (by
      decide) (by decide) ..) (by decide)) wd

theorem word_countGrain {wd : Nat} (ho : LinkWord wd) (b : Blk) (l code part : Nat) :
    (b.countGrain l code part).reg wd = b.reg wd := by
  exact reg_congr (regs_of_rest (L := [.aon, .pcs]) (rest_countGrain (by decide) (by decide) ..) (by decide)) wd

theorem word_writeLine {wd : Nat} (ho : LinkWord wd) (b : Blk) (l : Nat) (bs : Bytes) (poison : Bool) (wb : Bool) :
    (b.writeLine l bs poison wb).reg wd = b.reg wd := by
  exact reg_congr (regs_of_rest (L := [.aon, .pcs, .pool, .chans]) (rest_writeLine (by decide) (by decide) (by
      decide) (by decide) ..) (by decide)) wd

theorem word_writeMasked {wd : Nat} (ho : LinkWord wd) (b : Blk) (l : Nat) (bs : Bytes) (mask : BitVec 128) (poison :
    Bool) (wb : Bool) :
    (b.writeMasked l bs mask poison wb).reg wd = b.reg wd := by
  exact reg_congr (regs_of_rest (L := [.aon, .pcs, .pool, .chans]) (rest_writeMasked (by decide) (by decide) (by
      decide) (by decide) ..) (by decide)) wd

theorem word_bumpMod {wd : Nat} (ho : LinkWord wd) (b : Blk) (l n : Nat) :
    (b.bumpMod l n).reg wd = b.reg wd := by
  exact reg_congr (regs_of_rest (L := [.ext]) (rest_bumpMod (by decide) ..) (by decide)) wd

theorem word_countAccept {wd : Nat} (ho : LinkWord wd) (b : Blk) (q part : Nat) :
    (b.countAccept q part).reg wd = b.reg wd := by
  exact reg_congr (regs_of_rest (L := [.aon, .pcs]) (rest_countAccept (by decide) (by decide) ..) (by decide)) wd

theorem word_countRefusal {wd : Nat} (ho : LinkWord wd) (b : Blk) (q status part : Nat) :
    (b.countRefusal q status part).reg wd = b.reg wd := by
  unfold Blk.countRefusal
  dsimp only
  repeat' split
  all_goals simp [word_flag, word_incr, word_aonAdd, word_event, offWord_haErr, offWord_haRefuseCnt,
      offWord_hubRetryCnt, offWord_pwrErr, *]

theorem word_unbump {wd : Nat} (ho : LinkWord wd) (b : Blk) (l : Nat) :
    (b.unbump l).reg wd = b.reg wd := by
  exact reg_congr (regs_of_rest (L := [.ext]) (rest_unbump (by decide) ..) (by decide)) wd

theorem word_countMerge {wd : Nat} (ho : LinkWord wd) (b : Blk) (l : Nat) (mask : BitVec 128) :
    (b.countMerge l mask).reg wd = b.reg wd := by
  exact reg_congr (regs_of_rest (L := [.aon, .pcs, .pool, .chans]) (rest_countMerge (by decide) (by decide) (by
      decide) (by decide) ..) (by decide)) wd

theorem word_hubLine {wd : Nat} (ho : LinkWord wd) (b : Blk) (p : Nat × Bytes × BitVec 128) :
    (b.hubLine p).reg wd = b.reg wd := by
  unfold Blk.hubLine
  dsimp only
  repeat' split
  all_goals simp [word_writeMasked, word_bumpMod, word_countAccept, word_countRefusal, word_unbump, word_countMerge,
      reg_with_rings, *]

theorem word_hubWrite {wd : Nat} (ho : LinkWord wd) (b : Blk) (a : Nat) (bs : Bytes) :
    (b.hubWrite a bs).reg wd = b.reg wd := by
  simp [Blk.hubWrite, keeps_foldl (fun x : Blk => x.reg wd), word_hubLine, *]

theorem word_hubPut {wd : Nat} (ho : LinkWord wd) (b : Blk) (ps : List (Nat × Bytes)) :
    (b.hubPut ps).2.reg wd = b.reg wd := by
  unfold Blk.hubPut
  dsimp only
  repeat' split
  all_goals simp [keeps_foldl (fun x : Blk => x.reg wd), keeps_foldl_fst (fun x : Blk => x.reg wd), keeps_foldl_snd
      (fun x : Blk => x.reg wd), word_countRefusal, word_hubWrite, *]

theorem word_ringPut {wd : Nat} (ho : LinkWord wd) (b : Blk) (e : ExtEnt) (r : Ring) (bs : Bytes) :
    (b.ringPut e r bs).2.1.reg wd = b.reg wd := by
  simp [Blk.ringPut, word_hubPut, *]

theorem word_logPut {wd : Nat} (ho : LinkWord wd) (b : Blk) (bs : Bytes) :
    (b.logPut bs).2.reg wd = b.reg wd := by
  unfold Blk.logPut
  dsimp only
  repeat' split
  all_goals simp [word_ringPut, reg_with_rings, *]

theorem word_logLose {wd : Nat} (ho : LinkWord wd) (b : Blk) :
    (b.logLose).reg wd = b.reg wd := by
  simp [Blk.logLose, reg_with_rings, word_flag, word_aonAdd, offWord_obsErr, *]

theorem word_logRoom {wd : Nat} (ho : LinkWord wd) (b : Blk) :
    (b.logRoom).reg wd = b.reg wd := by
  exact reg_congr (regs_of_rest (L := [.rings]) (rest_logRoom (by decide) ..) (by decide)) wd

theorem word_logCatch {wd : Nat} (ho : LinkWord wd) (b : Blk) :
    (b.logCatch).reg wd = b.reg wd := by
  unfold Blk.logCatch
  dsimp only
  repeat' split
  all_goals simp [word_logPut, reg_with_rings, *]

theorem word_logRing {wd : Nat} (ho : LinkWord wd) (b : Blk) (r : LogRec) :
    (b.logRing r).reg wd = b.reg wd := by
  unfold Blk.logRing
  dsimp only
  repeat' split
  all_goals simp [word_logPut, word_logLose, word_logRoom, word_logCatch, *]

theorem word_logRaise {wd : Nat} (ho : LinkWord wd) (b : Blk) (r : LogRec) :
    (b.logRaise r).reg wd = b.reg wd := by
  unfold Blk.logRaise
  dsimp only
  repeat' split
  all_goals simp [word_logLose, word_logRing, reg_with_rings, *]

theorem word_log {wd : Nat} (ho : LinkWord wd) (b : Blk) (code unit part a bb : Nat) (flags : Nat) :
    (b.log code unit part a bb flags).reg wd = b.reg wd := by
  simp [Blk.log, word_logRaise, *]

theorem word_traceLose {wd : Nat} (ho : LinkWord wd) (b : Blk) :
    (b.traceLose).reg wd = b.reg wd := by
  simp [Blk.traceLose, reg_with_rings, word_flag, word_incr, offWord_obsErr, offWord_obsTraceLossCnt, *]

theorem word_traceRoom {wd : Nat} (ho : LinkWord wd) (b : Blk) (e : ExtEnt) :
    (b.traceRoom e).reg wd = b.reg wd := by
  exact reg_congr (regs_of_rest (L := [.rings]) (rest_traceRoom (by decide) ..) (by decide)) wd

theorem word_traceCatch {wd : Nat} (ho : LinkWord wd) (b : Blk) (e : ExtEnt) :
    (b.traceCatch e).reg wd = b.reg wd := by
  unfold Blk.traceCatch
  dsimp only
  split
  · rfl
  · rw [reg_with_rings, word_ringPut ho]

theorem word_tracePut {wd : Nat} (ho : LinkWord wd) (b : Blk) (e : ExtEnt) (bs : Bytes) :
    (b.tracePut e bs).reg wd = b.reg wd := by
  unfold Blk.tracePut
  dsimp only
  repeat' split
  all_goals simp [word_ringPut, word_traceLose, reg_with_rings, *]

theorem word_traceTo {wd : Nat} (ho : LinkWord wd) (b : Blk) (e : ExtEnt) (r : TraceRec) :
    (b.traceTo e r).reg wd = b.reg wd := by
  unfold Blk.traceTo
  dsimp only
  repeat' split
  all_goals simp [word_traceLose, word_traceRoom, word_traceCatch, word_tracePut, *]

theorem word_trace {wd : Nat} (ho : LinkWord wd) (b : Blk) (r : TraceRec) :
    (b.trace r).reg wd = b.reg wd := by
  unfold Blk.trace
  split
  · rfl
  · split
    · simp [word_traceLose, *]
    · simp [word_traceTo, *]

theorem word_noRoute {wd : Nat} (ho : LinkWord wd) (b : Blk) (q : Nat) :
    (b.noRoute q).reg wd = b.reg wd := by
  simp [Blk.noRoute, word_flag, word_incr, offWord_nrmDropNorouteCnt, offWord_nrmRtErr, *]

theorem word_newTrace {wd : Nat} (ho : LinkWord wd) (b : Blk) :
    (b.newTrace).2.reg wd = b.reg wd := by
  exact reg_congr (regs_of_rest (L := [.fab]) (rest_newTrace (by decide) ..) (by decide)) wd

theorem word_newMsgId {wd : Nat} (ho : LinkWord wd) (b : Blk) (dst : Nat) :
    (b.newMsgId dst).2.reg wd = b.reg wd := by
  exact reg_congr (regs_of_rest (L := [.fab]) (rest_newMsgId (by decide) ..) (by decide)) wd

theorem word_send {wd : Nat} (ho : LinkWord wd) (b : Blk) (q : Nat) (m : Msg) :
    (b.send q m).2.reg wd = b.reg wd := by
  unfold Blk.send
  dsimp only
  repeat' split
  all_goals simp [reg_with_fab, word_noRoute, word_newMsgId, *]

theorem word_sendOwn {wd : Nat} (ho : LinkWord wd) (b : Blk) (q : Nat) (m : Msg) :
    (b.sendOwn q m).2.reg wd = b.reg wd := by
  simp [Blk.sendOwn, word_newTrace, word_send, *]

theorem word_noteLoad {wd : Nat} (ho : LinkWord wd) (b : Blk) (eid v : Nat) :
    (b.noteLoad eid v).reg wd = b.reg wd := by
  exact reg_congr (regs_of_rest (L := [.fab]) (rest_noteLoad (by decide) ..) (by decide)) wd

theorem word_markVoid {wd : Nat} (ho : LinkWord wd) (b : Blk) (c : Nat) :
    (b.markVoid c).reg wd = b.reg wd := by
  exact reg_congr (regs_of_rest (L := [.pool, .chans]) (rest_markVoid (by decide) (by decide) ..) (by decide)) wd

theorem word_loseChannel {wd : Nat} (ho : LinkWord wd) (b : Blk) (c cause : Nat) :
    (b.loseChannel c cause).reg wd = b.reg wd := by
  unfold Blk.loseChannel
  dsimp only
  repeat' split
  all_goals simp [keeps_foldl (fun x : Blk => x.reg wd), keeps_foldl_fst (fun x : Blk => x.reg wd), keeps_foldl_snd
      (fun x : Blk => x.reg wd), apply_ite (fun x : Blk => x.reg wd), word_flag, word_modHusk, word_settleRow,
      word_log, word_markVoid, offWord_hskErr, *]

theorem word_failLayer {wd : Nat} (ho : LinkWord wd) (b : Blk) (layer : Nat) :
    (b.failLayer layer).reg wd = b.reg wd := by
  exact reg_congr (regs_of_rest (L := [.dead, .pins, .chans]) (rest_failLayer (by decide) (by decide) (by decide) ..)
      (by decide)) wd

theorem word_logGrain {wd : Nat} (ho : LinkWord wd) (b : Blk) (code l chan : Nat) (lane : Option Nat) :
    (b.logGrain code l chan lane).reg wd = b.reg wd := by
  simp [Blk.logGrain, word_log, *]

theorem word_logHusk {wd : Nat} (ho : LinkWord wd) (b : Blk) (code c line : Nat) (lane : Option Nat) :
    (b.logHusk code c line lane).reg wd = b.reg wd := by
  simp [Blk.logHusk, word_log, *]

theorem word_huskCorr {wd : Nat} (ho : LinkWord wd) (b : Blk) (c line rank lane : Nat) :
    (b.huskCorr c line rank lane).reg wd = b.reg wd := by
  unfold Blk.huskCorr
  dsimp only
  repeat' split
  all_goals simp [word_flag, word_incr, word_aonAdd, word_event, word_modHusk, word_loseChannel, word_logHusk,
      offWord_hskCeCnt, offWord_hskErr, *]

theorem word_huskUnc {wd : Nat} (ho : LinkWord wd) (b : Blk) (c line : Nat) :
    (b.huskUnc c line).reg wd = b.reg wd := by
  unfold Blk.huskUnc
  dsimp only
  repeat' split
  all_goals simp [word_flag, word_incr, word_aonAdd, word_modHusk, word_loseChannel, offWord_hskErr,
      offWord_hskUeCnt, *]

theorem word_mirrorSend {wd : Nat} (ho : LinkWord wd) (b : Blk) (l : Nat) :
    (b.mirrorSend l).2.reg wd = b.reg wd := by
  simp [Blk.mirrorSend, word_sendOwn, *]

theorem word_mirrorPoison {wd : Nat} (ho : LinkWord wd) (b : Blk) (l : Nat) :
    (b.mirrorPoison l).reg wd = b.reg wd := by
  unfold Blk.mirrorPoison
  split <;> simp [reg_with_pair, word_mirrorSend, *]

theorem word_poisonLine {wd : Nat} (ho : LinkWord wd) (b : Blk) (l : Nat) (part : Nat) :
    (b.poisonLine l part).reg wd = b.reg wd := by
  unfold Blk.poisonLine
  dsimp only
  repeat' split
  all_goals simp [keeps_foldl (fun x : Blk => x.reg wd), keeps_foldl_fst (fun x : Blk => x.reg wd), keeps_foldl_snd
      (fun x : Blk => x.reg wd), apply_ite (fun x : Blk => x.reg wd), word_flag, word_putCopy, word_putHusk,
      word_countHusk, word_countGrain, word_log, word_mirrorPoison, offWord_hskErr, *]

theorem word_clearAt {wd : Nat} (ho : LinkWord wd) (b : Blk) (c line : Nat) :
    (b.clearAt c line).reg wd = b.reg wd := by
  exact reg_congr (regs_of_rest (L := [.pool]) (rest_clearAt (by decide) ..) (by decide)) wd

theorem word_decodeAt {wd : Nat} (ho : LinkWord wd) (b : Blk) (c line rank : Nat) (lanes : List Nat) (part : Nat) :
    (b.decodeAt c line rank lanes part).2.reg wd = b.reg wd := by
  unfold Blk.decodeAt
  split <;> simp [word_huskOp, word_huskCorr, word_huskUnc, word_clearAt, *]

theorem word_readStook {wd : Nat} (ho : LinkWord wd) (b : Blk) (c line : Nat) (part : Nat) :
    (b.readStook c line part).1.reg wd = b.reg wd := by
  unfold Blk.readStook
  refine keeps_foldl_fst (fun x : Blk => x.reg wd) (fun x k => ?_) _ _
  split
  · rfl
  · simp [word_decodeAt, word_huskOp, *]

theorem word_copyOver {wd : Nat} (ho : LinkWord wd) (b : Blk) (c line : Nat) :
    (b.copyOver c line).reg wd = b.reg wd := by
  exact reg_congr (regs_of_rest (L := [.pool]) (rest_copyOver (by decide) ..) (by decide)) wd

theorem word_settleUnc {wd : Nat} (ho : LinkWord wd) (b : Blk) (c line : Nat) (ks : List Nat) (part : Nat) :
    (b.settleUnc c line ks part).reg wd = b.reg wd := by
  unfold Blk.settleUnc
  dsimp only
  repeat' split
  all_goals simp [keeps_foldl (fun x : Blk => x.reg wd), keeps_foldl_fst (fun x : Blk => x.reg wd), keeps_foldl_snd
      (fun x : Blk => x.reg wd), apply_ite (fun x : Blk => x.reg wd), word_settleRow, word_huskOp, word_logHusk,
      word_poisonLine, word_clearAt, word_copyOver, *]

theorem word_readAt {wd : Nat} (ho : LinkWord wd) (b : Blk) (c line rank : Nat) (lanes : List Nat) (part : Nat) :
    (b.readAt c line rank lanes part).2.reg wd = b.reg wd := by
  unfold Blk.readAt
  dsimp only
  repeat' split
  all_goals simp [word_decodeAt, word_readStook, word_settleUnc, *]

theorem word_readHusk {wd : Nat} (ho : LinkWord wd) (b : Blk) (l : Nat) (part : Nat) :
    (b.readHusk l part).2.reg wd = b.reg wd := by
  unfold Blk.readHusk
  dsimp only
  repeat' split
  all_goals simp [word_readStook, word_settleUnc, word_readAt, *]

theorem word_fetchHusk {wd : Nat} (ho : LinkWord wd) (b : Blk) (l : Nat) (part : Nat) :
    (b.fetchHusk l part).1.reg wd = b.reg wd := by
  simp [Blk.fetchHusk, word_countHusk, word_readHusk, *]

theorem word_grainFix {wd : Nat} (ho : LinkWord wd) (b : Blk) (ch line : Nat) :
    (b.grainFix ch line).reg wd = b.reg wd := by
  simp [Blk.grainFix, word_flag, word_incr, word_aonAdd, word_modGrain, offWord_grnCeCnt, offWord_grnErr, *]

theorem word_grainCorr {wd : Nat} (ho : LinkWord wd) (b : Blk) (ch line l lane : Nat) :
    (b.grainCorr ch line l lane).reg wd = b.reg wd := by
  simp [Blk.grainCorr, word_logGrain, word_grainFix, *]

theorem word_grainUnc {wd : Nat} (ho : LinkWord wd) (b : Blk) (ch line : Nat) :
    (b.grainUnc ch line).reg wd = b.reg wd := by
  unfold Blk.grainUnc
  dsimp only
  repeat' split
  all_goals simp [word_flag, word_incr, word_aonAdd, word_modGrain, word_failLayer, offWord_grnErr, offWord_grnUeCnt, *]

theorem word_grainLost {wd : Nat} (ho : LinkWord wd) (b : Blk) (ch l part : Nat) :
    (b.grainLost ch l part).reg wd = b.reg wd := by
  simp [Blk.grainLost, word_logGrain, word_poisonLine, *]

theorem word_readGrainCopy {wd : Nat} (ho : LinkWord wd) (b : Blk) (l : Nat) (lanes : List Nat) (part : Nat) :
    (b.readGrainCopy l lanes part).2.reg wd = b.reg wd := by
  unfold Blk.readGrainCopy
  dsimp only
  repeat' split
  all_goals simp [word_flag, word_incr, word_putCopy, word_countGrain, word_logGrain, word_fetchHusk, word_grainCorr,
      word_grainUnc, word_grainLost, offWord_grnDirtyLostCnt, offWord_grnErr, offWord_grnUeRecoveredCnt, *]

theorem word_noteSlot {wd : Nat} (ho : LinkWord wd) (b : Blk) (l : Nat) :
    (b.noteSlot l).reg wd = b.reg wd := by
  unfold Blk.noteSlot
  dsimp only
  repeat' split
  all_goals simp [word_flag, word_incr, word_log, offWord_secErr, offWord_secKeyMismatchCnt, *]

theorem word_fetch {wd : Nat} (ho : LinkWord wd) (b : Blk) (l : Nat) :
    (b.fetch l).1.reg wd = b.reg wd := by
  unfold Blk.fetch
  dsimp only
  repeat' split
  all_goals simp only [keeps_foldl (fun x : Blk => x.reg wd), word_countGrain, word_fetchHusk, word_readGrainCopy,
      word_noteSlot, *]

theorem word_pcie {wd : Nat} (ho : LinkWord wd) (b : Blk) (o : PcieOut) :
    (b.pcie o).reg wd = b.reg wd := by
  exact reg_congr (regs_of_rest (L := [.hub]) (rest_pcie (by decide) ..) (by decide)) wd

theorem word_aerSet {wd : Nat} (ho : LinkWord wd) (b : Blk) (f i : Nat) :
    (b.aerSet f i).reg wd = b.reg wd := by
  exact reg_congr (regs_of_rest (L := [.hub]) (rest_aerSet (by decide) ..) (by decide)) wd

theorem word_aptRefuse {wd : Nat} (ho : LinkWord wd) (b : Blk) (write : Bool) (line status : Nat) :
    (b.aptRefuse write line status).reg wd = b.reg wd := by
  simp [Blk.aptRefuse, word_setReg, word_flag, word_incr, offWord_hubAptErr, offWord_hubAptErrAddrHi,
      offWord_hubAptErrAddrLo, offWord_hubAptRefuseCnt, *]

theorem word_aptComplete {wd : Nat} (ho : LinkWord wd) (b : Blk) (r : AptRead) (x0 : List (Nat × Nat × Nat)) :
    (b.aptComplete r x0).1.reg wd = b.reg wd := by
  induction x0 generalizing b with
  | nil => rfl
  | cons x t ih =>
    obtain ⟨l, lo, hi⟩ := x
    simp only [Blk.aptComplete]
    split
    · rfl
    · split
      · simp [word_pcie, word_aerSet, offWord_hubAptErr, *]
      · rw [ih]
        split <;> simp [word_pcie, word_flag, offWord_hubAptErr, *]

theorem word_aptLand {wd : Nat} (ho : LinkWord wd) (b : Blk) (tag l status : Nat) (bs : Bytes) (poison : Bool) :
    (b.aptLand tag l status bs poison).reg wd = b.reg wd := by
  unfold Blk.aptLand
  dsimp only
  repeat' split
  all_goals simp only [keeps_foldl (fun x : Blk => x.reg wd), reg_with_hub, word_aptRefuse, word_aptComplete, *]

theorem word_dropHolder {wd : Nat} (ho : LinkWord wd) (b : Blk) (l eid : Nat) :
    (b.dropHolder l eid).reg wd = b.reg wd := by
  exact reg_congr (regs_of_rest (L := [.coh]) (rest_dropHolder (by decide) ..) (by decide)) wd

theorem word_grantX {wd : Nat} (ho : LinkWord wd) (b : Blk) (l part eid : Nat) :
    (b.grantX l part eid).reg wd = b.reg wd := by
  exact reg_congr (regs_of_rest (L := [.coh]) (rest_grantX (by decide) ..) (by decide)) wd

theorem word_addSharer {wd : Nat} (ho : LinkWord wd) (b : Blk) (l part eid : Nat) :
    (b.addSharer l part eid).reg wd = b.reg wd := by
  exact reg_congr (regs_of_rest (L := [.coh]) (rest_addSharer (by decide) ..) (by decide)) wd

theorem word_serve {wd : Nat} (ho : LinkWord wd) (b : Blk) (t : Txn) (f : Blk → Blk) (hgo : ∀  x, (f  x).reg wd =
    x.reg wd) :
    (b.serve t f).reg wd = b.reg wd := by
  simp [Blk.serve, reg_with_coh, *]

theorem word_putTxn {wd : Nat} (ho : LinkWord wd) (b : Blk) (t : Txn) :
    (b.putTxn t).reg wd = b.reg wd := by
  exact reg_congr (regs_of_rest (L := [.coh]) (rest_putTxn (by decide) ..) (by decide)) wd

theorem word_endTxn {wd : Nat} (ho : LinkWord wd) (b : Blk) (t : Txn) :
    (b.endTxn t).reg wd = b.reg wd := by
  exact reg_congr (regs_of_rest (L := [.coh]) (rest_endTxn (by decide) ..) (by decide)) wd

theorem word_respond {wd : Nat} (ho : LinkWord wd) (b : Blk) (q ty src msgId traceId addr status : Nat) (far replay :
    Bool) (payload : Bytes) (poison : Bool) (cls part : Nat) :
    (b.respond q ty src msgId traceId addr status far replay payload poison cls part).2.reg wd = b.reg wd := by
  simp [Blk.respond, word_send, word_noteLoad, *]

theorem word_land {wd : Nat} (ho : LinkWord wd) (b : Blk) (w : Who) (write : Bool) (l status : Nat) (bs : Bytes)
    (poison : Bool) :
    (b.land w write l status bs poison).reg wd = b.reg wd := by
  unfold Blk.land
  dsimp only
  repeat' split
  all_goals simp only [keeps_foldl (fun x : Blk => x.reg wd), reg_with_coh, word_aptRefuse, word_aptLand, *]

theorem word_endJob {wd : Nat} (ho : LinkWord wd) (b : Blk) (id : Nat) (j : Job) :
    (b.endJob id j).reg wd = b.reg wd := by
  unfold Blk.endJob
  dsimp only
  repeat' split
  all_goals simp only [keeps_foldl (fun x : Blk => x.reg wd), reg_with_coh, word_countRefusal, word_unbump,
      word_send, word_noteLoad, word_respond, *]

theorem word_jobLine {wd : Nat} (ho : LinkWord wd) (b : Blk) (id l status : Nat) (bs : Bytes) (poison : Bool) :
    (b.jobLine id l status bs poison).reg wd = b.reg wd := by
  unfold Blk.jobLine
  dsimp only
  repeat' split
  all_goals simp only [keeps_foldl (fun x : Blk => x.reg wd), reg_with_coh, word_endJob, *]

theorem word_answerTxn {wd : Nat} (ho : LinkWord wd) (b : Blk) (t : Txn) (ty status : Nat) (bs : Bytes) (poison
    replay : Bool) :
    (b.answerTxn t ty status bs poison replay).reg wd = b.reg wd := by
  unfold Blk.answerTxn
  cases hj : t.job with
  | some id => simp [word_jobLine, *]
  | none => cases hw : t.who <;> simp [word_respond, word_land, *]

theorem word_mirrorWait {wd : Nat} (ho : LinkWord wd) (b : Blk) (t : Txn) (old : Bytes) :
    (b.mirrorWait t old).2.reg wd = b.reg wd := by
  unfold Blk.mirrorWait
  dsimp only
  repeat' split
  all_goals simp only [keeps_foldl (fun x : Blk => x.reg wd), word_mirrorSend, word_putTxn, *]

theorem word_freeRat {wd : Nat} (ho : LinkWord wd) (b : Blk) (t : Txn) (a : AtmOp) :
    (b.freeRat t a).reg wd = b.reg wd := by
  exact reg_congr (regs_of_rest (L := [.coh]) (rest_freeRat (by decide) ..) (by decide)) wd

theorem word_uncount {wd : Nat} (ho : LinkWord wd) (b : Blk) (t : Txn) :
    (b.uncount t).reg wd = b.reg wd := by
  exact reg_congr (regs_of_rest (L := [.ext]) (rest_uncount (by decide) ..) (by decide)) wd

theorem word_refuseTxn {wd : Nat} (ho : LinkWord wd) (b : Blk) (t : Txn) (status : Nat) :
    (b.refuseTxn t status).reg wd = b.reg wd := by
  unfold Blk.refuseTxn
  dsimp only
  repeat' split
  all_goals simp only [keeps_foldl (fun x : Blk => x.reg wd), word_countRefusal, word_endTxn, word_answerTxn,
      word_freeRat, word_uncount, *]

theorem word_sendGrant {wd : Nat} (ho : LinkWord wd) (b : Blk) (t : Txn) (ty : Nat) (far : Bool) (bs : Bytes) (poison
    : Bool) :
    (b.sendGrant t ty far bs poison).reg wd = b.reg wd := by
  unfold Blk.sendGrant
  dsimp only
  repeat' split
  all_goals simp only [keeps_foldl (fun x : Blk => x.reg wd), word_putTxn, word_endTxn, word_respond, *]

theorem word_grantTxn {wd : Nat} (ho : LinkWord wd) (b : Blk) (t : Txn) :
    (b.grantTxn t).reg wd = b.reg wd := by
  unfold Blk.grantTxn
  dsimp only
  repeat' split
  all_goals simp [word_incr, word_bumpMod, word_fetch, word_grantX, word_addSharer, word_endTxn, word_refuseTxn,
      word_sendGrant, offWord_haAtomicFarCnt, *]

theorem word_execNear {wd : Nat} (ho : LinkWord wd) (b : Blk) (t : Txn) (a : AtmOp) :
    (b.execNear t a).reg wd = b.reg wd := by
  unfold Blk.execNear
  dsimp only
  split
  · rw [word_endTxn ho, word_answerTxn ho, word_incr ho _ (offWord_haRatHitCnt _), word_uncount ho]
  · split
    · exact word_refuseTxn ho ..
    · split
      · rw [word_refuseTxn ho, word_trace ho, word_log ho, word_aonAdd ho, word_fetch ho]
      · have hput : ∀ x : Blk, ((x.writeLine t.line (patch (b.fetch t.line).2.1 (a.addr % 128) (toLe ((atmSize
          a.size).getD 4)
            (atmNew a.op ((atmSize a.size).getD 4) (le (b.fetch t.line).2.1 (a.addr % 128) ((atmSize a.size).getD 4))
                a.operand
              a.compare))) false t.wb).incr (Reg.haAtomicNearCnt (homeOf t.line))).reg wd = x.reg wd := fun x => by
          rw [word_incr ho _ (offWord_haAtomicNearCnt _), word_writeLine ho]
        split
        · rw [word_mirrorWait ho, reg_with_coh, hput, word_fetch ho]
        · rw [word_endTxn ho, word_answerTxn ho, word_mirrorWait ho, reg_with_coh, hput, word_fetch ho]

theorem word_noteHeader {wd : Nat} (ho : LinkWord wd) (b : Blk) (l : Nat) :
    (b.noteHeader l).reg wd = b.reg wd := by
  exact reg_congr (regs_of_rest (L := [.pair]) (rest_noteHeader (by decide) ..) (by decide)) wd

theorem word_finishTxn {wd : Nat} (ho : LinkWord wd) (b0 : Blk) (t : Txn) :
    (b0.finishTxn t).reg wd = b0.reg wd := by
  unfold Blk.finishTxn
  dsimp only
  repeat' split
  all_goals simp [keeps_foldl (fun x : Blk => x.reg wd), keeps_foldl_fst (fun x : Blk => x.reg wd), keeps_foldl_snd
      (fun x : Blk => x.reg wd), apply_ite (fun x : Blk => x.reg wd), reg_with_coh, word_writeMasked, word_fetch,
      word_dropHolder, word_serve, word_endTxn, word_answerTxn, word_mirrorWait, word_refuseTxn, word_grantTxn,
      word_execNear, word_noteHeader, *]

theorem word_mirrorEnd {wd : Nat} (ho : LinkWord wd) (b : Blk) (t : Txn) (status : Nat) (old : Bytes) :
    (b.mirrorEnd t status old).reg wd = b.reg wd := by
  unfold Blk.mirrorEnd
  dsimp only
  repeat' split
  all_goals simp only [keeps_foldl (fun x : Blk => x.reg wd), word_countRefusal, word_endTxn, word_answerTxn,
      word_finishTxn, *]

theorem word_failMirror {wd : Nat} (ho : LinkWord wd) (b : Blk) (l part peer : Nat) :
    (b.failMirror l part peer).reg wd = b.reg wd := by
  simp [Blk.failMirror, word_flag, word_incr, word_log, offWord_hubMirrorFailCnt, offWord_hubPairErr, *]

theorem word_mirrorFailed {wd : Nat} (ho : LinkWord wd) (b : Blk) (t : Txn) (peer : Nat) :
    (b.mirrorFailed t peer).reg wd = b.reg wd := by
  simp [Blk.mirrorFailed, word_failMirror, *]

theorem word_copyAgain {wd : Nat} (ho : LinkWord wd) (b : Blk) (msgId peer : Nat) :
    (b.copyAgain msgId peer).reg wd = b.reg wd := by
  unfold Blk.copyAgain
  dsimp only
  repeat' split
  all_goals simp only [keeps_foldl (fun x : Blk => x.reg wd), reg_with_pair, word_mirrorSend, word_fetch,
      word_failMirror, *]

theorem word_modLink {wd : Nat} (ho : LinkWord wd) (b : Blk) (n : Nat) (f : Link → Link) :
    (b.modLink n f).reg wd = b.reg wd := by
  exact reg_congr (regs_of_rest (L := [.fab]) (rest_modLink (by decide) ..) (by decide)) wd

theorem word_traceLink {wd : Nat} (ho : LinkWord wd) (b : Blk) (n event cause : Nat) :
    (b.traceLink n event cause).reg wd = b.reg wd := by
  simp [Blk.traceLink, word_trace, *]

theorem word_emit {wd : Nat} (ho : LinkWord wd) (b : Blk) (n ty seq : Nat) (payload : Bytes) (m : Nat) :
    (b.emit n ty seq payload m).reg wd = b.reg wd := by
  exact reg_congr (regs_of_rest (L := [.aon, .fab]) (rest_emit (by decide) (by decide) ..) (by decide)) wd

theorem word_keepFlit {wd : Nat} (ho : LinkWord wd) (b : Blk) (n ty : Nat) (payload : Bytes) (req : Option (Nat ×
    Nat)) :
    (b.keepFlit n ty payload req).reg wd = b.reg wd := by
  unfold Blk.keepFlit
  dsimp only
  repeat' split
  all_goals simp [word_incr, word_modLink, offWord_lnkStallCnt, *]

theorem word_putFlit {wd : Nat} (ho : LinkWord wd) (b : Blk) (n ty : Nat) (payload : Bytes) (req : Option (Nat × Nat)) :
    (b.putFlit n ty payload req).reg wd = b.reg wd := by
  simp [Blk.putFlit, word_emit, word_keepFlit, *]

theorem word_abortHold {wd : Nat} (ho : LinkWord wd) (b : Blk) (n : Nat) :
    (b.abortHold n).reg wd = b.reg wd := by
  unfold Blk.abortHold
  dsimp only
  repeat' split
  all_goals simp only [keeps_foldl (fun x : Blk => x.reg wd), reg_with_fab, word_putFlit, *]

theorem word_truncateRx {wd : Nat} (ho : LinkWord wd) (b : Blk) (n : Nat) :
    (b.truncateRx n).reg wd = b.reg wd := by
  unfold Blk.truncateRx
  dsimp only
  repeat' split
  all_goals simp [word_incr, word_modLink, word_abortHold, offWord_lnkTruncCnt, *]

theorem word_truncateTx {wd : Nat} (ho : LinkWord wd) (b : Blk) (n : Nat) :
    (b.truncateTx n).reg wd = b.reg wd := by
  unfold Blk.truncateTx
  dsimp only
  repeat' split
  all_goals simp [word_incr, word_keepFlit, offWord_lnkTruncCnt, reg_with_fab, *]

theorem word_linkLost {wd : Nat} (ho : LinkWord wd) (b : Blk) (n : Nat) (r : Nat × Nat) :
    (b.linkLost n r).reg wd = b.reg wd := by
  unfold Blk.linkLost
  dsimp only
  split
  · rfl
  · split
    · rw [reg_with_fab, word_aonAdd ho, word_incr ho _ (offWord_lnkLinkLostCnt _)]
    · split
      · rw [word_mirrorEnd ho, word_mirrorFailed ho, reg_with_fab, word_aonAdd ho, word_incr ho _
          (offWord_lnkLinkLostCnt _)]
      · rw [word_copyAgain ho, reg_with_fab, word_aonAdd ho, word_incr ho _ (offWord_lnkLinkLostCnt _)]

end Sys2Proof.Proofs
end

/-! ## Links: timers, training, and the loss and flush of a link (R264 to R270, R275 to R287) -/
section
namespace Sys2Proof.Proofs

open Sys2Proof.Machine

theorem linkWord_ctl (n : Nat) : LinkWord (Reg.lnkCtl n) := by
  simp only [LinkWord, Reg.lnkCtl]
  omega

theorem linkWord_err (n : Nat) : LinkWord (Reg.lnkErr n) := by
  simp only [LinkWord, Reg.lnkErr]
  omega

theorem linkOn_congr {x y : Blk} {n : Nat} (h : x.reg (Reg.lnkCtl n) = y.reg (Reg.lnkCtl n)) : x.linkOn n = y.linkOn n := by
  simp [Blk.linkOn, Blk.field, h]

theorem portsOff_congr {x y : Blk} (hp : x.pwr = y.pwr) (hs : x.sec = y.sec) : x.portsOff = y.portsOff := by
  simp [Blk.portsOff, hp, hs]

/-- A bit of a link's error word stays set while other flags of it are raised. -/
theorem bit_reg_flag_mono (b : Blk) {off i : Nat} (j : Nat) (h : (b.reg off).getLsbD i = true) :
    ((b.flag off j).reg off).getLsbD i = true := by
  simp [Blk.flag, BitVec.getLsbD_or, h]

/-! ### Truncation -/

theorem holds_keepFlit (b : Blk) (n ty : Nat) (payload : Bytes) (req : Option (Nat × Nat)) :
    (b.keepFlit n ty payload req).fab.holds = b.fab.holds := by
  unfold Blk.keepFlit
  dsimp only
  split <;> rfl

theorem holds_putFlit (b : Blk) (n ty : Nat) (payload : Bytes) (req : Option (Nat × Nat)) :
    (b.putFlit n ty payload req).fab.holds = b.fab.holds := by
  unfold Blk.putFlit
  exact holds_keepFlit b n ty payload req

/-- What another port's flits leave of a link: what it has received. -/
theorem received_putFlit (b : Blk) (n m ty : Nat) (payload : Bytes) (req : Option (Nat × Nat)) :
    ((b.putFlit n ty payload req).link m).rx = (b.link m).rx := by
  by_cases h : m = n
  · subst h
    simp [Link.sent, Link.kept]
  · have hk : (b.keepFlit n ty payload req).link m = b.link m := by
      unfold Blk.keepFlit
      dsimp only
      split <;> simp [link_modLink_ne _ _ h]
    unfold Blk.putFlit Blk.emit
    rw [link_aonAdd, link_modLink_ne _ _ h, hk]

theorem abortHold_frees (b : Blk) (n : Nat) :
    (b.abortHold n).holdOf n = none ∧ ((b.abortHold n).link n).rx = (b.link n).rx := by
  have hnone : ∀ x : Blk, x.fab.holds = b.fab.holds.filter (fun h => h.port != n) → x.holdOf n = none := fun x hx => by
    simp [Blk.holdOf, hx]
  unfold Blk.abortHold
  split
  · next h => exact ⟨h, rfl⟩
  · split
    · dsimp only
      split
      · exact ⟨hnone _ (holds_putFlit ..), received_putFlit ..⟩
      · exact ⟨hnone _ rfl, rfl⟩
    · exact ⟨hnone _ rfl, rfl⟩

/-- The truncation of a packet in reception (R279 to R281). -/
theorem truncateRx_of_open {b : Blk} {n : Nat} (hrx : (b.link n).rx.any (fun p => p.left != 0) = true) (hhold : (b.holdOf n).isSome = true) :
    (b.truncateRx n).holdOf n = none ∧ ((b.truncateRx n).link n).skip = true ∧
      ((b.truncateRx n).link n).rx = (b.link n).rx.filter (fun p => p.left == 0) := by
  obtain ⟨hfree, hkeep⟩ := abortHold_frees b n
  unfold Blk.truncateRx
  rw [if_pos hrx, if_pos hhold]
  refine ⟨hfree, by simp, by simp [hkeep]⟩

/-! ### A flush (R284) -/

theorem reg_flag_congr {x y : Blk} {off o : Nat} (i : Nat) (h : x.reg off = y.reg off) (ho : x.reg o = y.reg o) :
    (x.flag off i).reg o = (y.flag off i).reg o := by
  by_cases hoff : o = off
  · subst hoff
    simp [Blk.flag, h]
  · simp only [Blk.flag, Blk.reg_setReg_ne _ _ _ _ hoff, ho]

/-- The requests of the controller that a flush loses write no control or error word of a link. -/
theorem word_dropFlits {o : Nat} (ho : LinkWord o) (b : Blk) (n : Nat) :
    (b.dropFlits n).reg o = (b.flag (Reg.lnkErr n) 5).reg o := by
  have hlost : ∀ {w : Nat}, LinkWord w → (((((b.truncateRx n).truncateTx n).link n).held.filterMap (·.req)).dedup.foldl
      (fun b r => b.linkLost n r) ((b.truncateRx n).truncateTx n)).reg w = b.reg w := fun {w} hw => by
    rw [keeps_foldl (fun x : Blk => x.reg w) (fun x r => word_linkLost hw x n r), word_truncateTx hw, word_truncateRx hw]
  unfold Blk.dropFlits
  dsimp only
  rw [reg_modLink, word_traceLink ho, reg_aonAdd]
  exact reg_flag_congr 5 (hlost (linkWord_err n)) (hlost ho)

theorem linkOn_dropFlits (b : Blk) (n : Nat) : (b.dropFlits n).linkOn n = b.linkOn n :=
  linkOn_congr (by
    rw [word_dropFlits (linkWord_ctl n), Blk.flag, Blk.reg_setReg_ne _ _ _ _ (by simp [Reg.lnkCtl, Reg.lnkErr])])

theorem portsOff_dropFlits (b : Blk) (n : Nat) : (b.dropFlits n).portsOff = b.portsOff :=
  portsOff_congr (pwr_dropFlits b n) (sec_dropFlits b n)

/-- A flushed link holds nothing, and trains or is disabled (R284). -/
theorem link_flush (b : Blk) (n : Nat) :
    ((b.flush n).link n).held = [] ∧
      ((b.flush n).link n).state = (if b.linkOn n && !b.portsOff then .training else .disabled) := by
  obtain ⟨hheld, -, hstate, -⟩ := link_linkIdle (b.dropFlits n) n
  rw [linkOn_dropFlits, portsOff_dropFlits] at hstate
  exact ⟨hheld, hstate⟩

theorem reg_linkIdle (b : Blk) (n o : Nat) : (b.linkIdle n).reg o = b.reg o := rfl

theorem reg_flush {o : Nat} (ho : LinkWord o) (b : Blk) (n : Nat) : (b.flush n).reg o = (b.flag (Reg.lnkErr n) 5).reg o :=
  word_dropFlits ho b n

/-! ### The loss of a link (R282, R283) -/

/-- A link in UP goes down into HELD, with its grace period running (R283). -/
theorem goDown_of_up {b : Blk} {n : Nat} (c : DownCause) (hst : (b.link n).state = .up) (hoff : b.portsOff = false) :
    let y := b.goDown n c
    (y.link n).state = .held ∧ (y.link n).graceEnd = b.tb + b.grace n ∧
      y.reg (Reg.lnkErr n) = (b.flag (Reg.lnkErr n) (downBit c)).reg (Reg.lnkErr n) ∧
      (y.link n).stage = (if b.linkOn n then 1 else 0) := by
  have hst1 : ((((b.flag (Reg.lnkErr n) (downBit c)).incr (Reg.lnkDownCnt n)).traceLink n 1 (downBit c)).link n).state = .up := by
    simpa using hst
  simp only [Blk.goDown, live_of_up_state hst, hst1, hoff, Bool.not_true, Bool.false_eq_true, if_false, reduceCtorEq, decide_false,
    Bool.or_false, Blk.link_modLink_self, reg_modLink]
  refine ⟨?_, ?_, ?_, ?_⟩
  · split <;> simp [Link.attempt]
  · split <;> simp [Link.attempt]
  · rw [word_truncateTx (linkWord_err n), word_truncateRx (linkWord_err n), word_traceLink (linkWord_err n),
      reg_incr_ne _ (by simp [Reg.lnkErr, Reg.lnkDownCnt])]
  · split <;> simp [Link.attempt]

/-! ### Training (R266, R268 to R270) -/

/-- A training attempt that fails starts anew: in HELD, and in a fast retrain, a full one from the third on (R268). -/
theorem link_trainFail (b : Blk) (n : Nat) :
    let k := b.link n
    let y := (b.trainFail n).link n
    y.stage = 1 ∧ y.stageAt = b.tb ∧ y.state = k.state ∧
      y.full = ((k.full && k.state != .held) || decide (3 ≤ k.tries + 1) || k.forceFull) := by
  simp only [Blk.trainFail, Blk.link_modLink_self, link_flag]
  rcases Bool.eq_false_or_eq_true (b.link n).full with hf | hf <;> by_cases hs : (b.link n).state = .held <;>
    simp [hf, hs, Link.attempt]

theorem reg_trainFail (b : Blk) (n : Nat) : ((b.trainFail n).reg (Reg.lnkErr n)).getLsbD 8 = true := by
  unfold Blk.trainFail
  rw [reg_modLink]
  exact bit_reg_flag _ _ _ (by decide)

@[simp] theorem link_sendTrain (b : Blk) (n m : Nat) : (b.sendTrain n m).link n = Link.sent (b.link n) 0x8 0 (b.trainPayload n) m := by
  simp [Blk.sendTrain]

/-- The payload of a TRAIN flit tells READY, and RESUME in HELD (R269). -/
theorem u8_trainPayload (b : Blk) (n : Nat) :
    u8 (fit 32 (b.trainPayload n)) 1 = b2n (b.link n).ready + 2 * b2n ((b.link n).state == .held) := by
  have hlt : b2n (b.link n).ready + 2 * b2n ((b.link n).state == .held) < 256 := by
    unfold b2n
    split <;> split <;> decide
  simp [u8, fit, Blk.trainPayload, toLe, Nat.mod_eq_of_lt hlt]

theorem trainFlit_of_stage {b : Blk} {n : Nat} (f : TrainFlit) (ok : Bool)
    (hst : (b.link n).state = .training ∨ (b.link n).state = .held) (h5 : (b.link n).stage = 5) :
    trainFlit b n f ok =
      if !ok || f.reservedSet then b.modLink n (fun k => { k with good := 0 })
      else if f.version != 0x01 then b.trainFail n
      else
        let k := b.link n
        let ready := k.ready || decide (8 ≤ k.good + 1)
        let b1 := (b.modLink n (fun k => { k with good := k.good + 1, ready := ready, gotReady := k.gotReady || f.ready })).sendTrain n
          (if ready && !k.ready then 8 else 1)
        if ready && (b1.link n).gotReady then b1.enterUp n f else b1 := by
  have hgo : (!((b.link n).state == .training || (b.link n).state == .held) || (b.link n).stage != 5) = false := by
    rcases hst with h | h <;> simp [h, h5]
  simp only [trainFlit, hgo, Bool.false_eq_true, if_false]

/-- The block where a valid TRAIN flit has been counted (R269). -/
def heardTrain (b : Blk) (n : Nat) (f : TrainFlit) (ready : Bool) : Blk :=
  b.modLink n (fun k => { k with good := k.good + 1, ready := ready, gotReady := k.gotReady || f.ready })

theorem trainFlit_of_valid {b : Blk} {n : Nat} {f : TrainFlit} {ready : Bool}
    (hst : (b.link n).state = .training ∨ (b.link n).state = .held) (h5 : (b.link n).stage = 5) (hres : f.reservedSet = false)
    (hver : f.version = 0x01) (hr : ((b.link n).ready || decide (7 ≤ (b.link n).good)) = ready) :
    trainFlit b n f true =
      let b1 := (heardTrain b n f ready).sendTrain n (if ready && !(b.link n).ready then 8 else 1)
      if ready && (b1.link n).gotReady then b1.enterUp n f else b1 := by
  subst hr
  rw [trainFlit_of_stage f true hst h5, if_neg (by simp [hres]), if_neg (by simpa using hver)]
  simp only [Nat.reduceLeDiff, Nat.reduceAdd]
  rfl

theorem link_heardTrain (b : Blk) (n : Nat) (f : TrainFlit) (ready : Bool) : (heardTrain b n f ready).link n = { b.link n with
    good := (b.link n).good + 1, ready := ready, gotReady := (b.link n).gotReady || f.ready } := by
  simp [heardTrain]

theorem rest_heardTrain {L : List Region} (h : .fab ∈ L) (b : Blk) (n : Nat) (f : TrainFlit) (ready : Bool) :
    rest L (heardTrain b n f ready) = rest L b := rest_modLink h b n _

/-- A link in TRAINING enters UP with its numbers at 0 (R269). -/
theorem enterUp_of_training {b : Blk} {n : Nat} (f : TrainFlit) (h : (b.link n).state = .training) :
    let y := (b.enterUp n f).link n
    y.state = .up ∧ y.txOldest = 0 ∧ y.rxNext = 0 ∧ y.held = [] ∧ y.resumed = false := by
  simp [Blk.enterUp, h, Link.cleared]

/-- A training stage that may complete (R266, R268). -/
theorem trainingStageDone_of_may {b : Blk} {n l p : Nat} {v : Bool}
    (hst : (b.link n).state = .training ∨ (b.link n).state = .held) (h1 : 1 ≤ (b.link n).stage) (h5 : (b.link n).stage < 5)
    (hlanes : (b.link n).stage ≠ 1 ∨ l = 15) (hrun : (b.link n).stage = 4 → 64 ≤ (b.link n).corrRun) :
    ((trainingStageDone b n l p v).link n).stage = (if (b.link n).stage = 1 ∧ (b.link n).full = false then 3 else (b.link n).stage + 1) ∧
      ((trainingStageDone b n l p v).link n).stageAt = b.tb ∧ rest [.fab, .aon] (trainingStageDone b n l p v) = rest [.fab, .aon] b := by
  have hgo : (!((b.link n).state == .training || (b.link n).state == .held) || decide (5 ≤ (b.link n).stage)) = false := by
    rcases hst with h | h <;> simp [h, h5]
  have hl : ((b.link n).stage = 1 && l != 15) = false := by
    rcases hlanes with h | h <;> simp [h]
  have hr : ((b.link n).stage = 0 || ((b.link n).stage = 4 && decide ((b.link n).corrRun < 64))) = false := by
    have h0 : (b.link n).stage ≠ 0 := by omega
    simp only [Bool.or_eq_false_iff, decide_eq_false_iff_not, h0, not_false_eq_true, Bool.and_eq_false_imp, decide_eq_true_eq, true_and]
    intro h4
    have := hrun h4
    omega
  simp only [trainingStageDone, hgo, hl, hr, Bool.false_eq_true, if_false]
  refine ⟨?_, ?_, ?_⟩
  · split <;> simp [Link.sent]
  · split <;> simp
  · rw [rest_modLink (by simp)]
    split
    · exact rest_sendTrain (by simp) (by simp) ..
    · rfl

/-! ### The control register (R286, R287) -/

theorem posted_of_hostWrites {b : Blk} (h : HostWrites b) (go : Blk → Blk) : b.posted go = go b := by
  simp [Blk.posted, Blk.taken, h.up, h.letIn]

theorem linkOn_setReg (b : Blk) (n : Nat) (v : Word) : (b.setReg (Reg.lnkCtl n) v).linkOn n = v.getLsbD 0 := by
  simp [Blk.linkOn, Blk.field, BitVec.getLsbD, Nat.testBit_zero]
  rfl

/-- The block with ENABLE written 0. -/
def enableOff (b : Blk) (n : Nat) : Blk := b.setReg (Reg.lnkCtl n) (b.reg (Reg.lnkCtl n) &&& ~~~ 1#32)

theorem linkOn_enableOff (b : Blk) (n : Nat) : (enableOff b n).linkOn n = false := by
  simp [enableOff, linkOn_setReg]

/-- A close that has just begun sends PORT_CLOSING where it can (R286). -/
theorem closeStep_of_begun {b : Blk} {n : Nat} (hst : (b.link n).state = .up) (hask : (b.link n).asked = true)
    (hsent : (b.link n).sentClosing = false) (hg : (b.link n).gotClosed = false) :
    b.closeStep n = if b.outHeld n = false ∧ (b.link n).held.length < 1536 then
      (b.modLink n (fun k => { k with state := .closing, sentClosing := true })).putFlit n 0x5 [0x01] none else b := by
  by_cases hcan : b.outHeld n = false ∧ (b.link n).held.length < 1536
  · simp [Blk.closeStep, live_of_up_state hst, hask, hsent, hg, hcan, Link.sent, Link.kept]
  · have hno : (!b.outHeld n && decide ((b.link n).held.length < 1536)) = false := by
      cases ho : b.outHeld n <;> simp_all
    simp [Blk.closeStep, live_of_up_state hst, hask, hsent, hg, hcan, hno]

theorem linkOn_putFlit (b : Blk) (n ty : Nat) (payload : Bytes) (req : Option (Nat × Nat)) :
    (b.putFlit n ty payload req).linkOn n = b.linkOn n :=
  linkOn_congr (by rw [Blk.putFlit, reg_emit, word_keepFlit (linkWord_ctl n)])

/-- A link in UP that begins to close (R286). -/
theorem beginClose_of_up {b : Blk} {n : Nat} (hst : (b.link n).state = .up) (hg : (b.link n).gotClosed = false)
    (hask : (b.link n).asked = false) (hsent : (b.link n).sentClosing = false) :
    ((b.beginClose n).link n).asked = true ∧
      ((b.beginClose n).link n).state = (if b.outHeld n = false ∧ (b.link n).held.length < 1536 then .closing else .up) ∧
      (b.beginClose n).linkOn n = b.linkOn n := by
  have hbegin : b.beginClose n = (b.modLink n (fun k => { k with asked := true, closeAt := b.tb })).closeStep n := by
    simp [Blk.beginClose, hst, hask]
  rw [hbegin, closeStep_of_begun (by simpa using hst) (by simp) (by simpa using hsent) (by simpa using hg)]
  have hout : (b.modLink n (fun k => { k with asked := true, closeAt := b.tb })).outHeld n = b.outHeld n := rfl
  simp only [hout, Blk.link_modLink_self]
  by_cases hcan : b.outHeld n = false ∧ (b.link n).held.length < 1536
  · simp only [if_pos hcan]
    exact ⟨by simp [Link.sent, Link.kept], by simp [Link.sent, Link.kept], linkOn_putFlit ..⟩
  · simp only [if_neg hcan]
    exact ⟨by simp, by simpa using hst, rfl⟩

/-- Settles O46. -/
theorem linkTimersAndTrainingAct : Obligations.LinkTimersAndTrainingAct := by
  unfold Obligations.LinkTimersAndTrainingAct
  refine ⟨fun s n hup hlive hwait => ⟨fun hdue => ?_, fun hearly => ?_⟩, fun s n hup hlive hheld => ⟨fun hdue hfew => ?_, fun hearly => ?_⟩,
    fun s n hup hlive hun => ⟨fun hdue => ?_, fun hearly => ?_⟩, fun s n hup hst hoff => ?_, fun s n hearly => ?_,
    fun s n hup hst => ⟨fun hdue => ?_, fun hearly => ?_⟩, fun s n hup hhold hrx => ⟨fun hdue => ?_, fun hearly => ?_⟩,
    fun s n hup hlive hask => ⟨fun hdue => ?_, fun hearly => ?_⟩, fun s n h hst hoff => ?_,
    fun s n h => ⟨fun hst hg hask hsent => ?_, fun hst => ?_⟩, fun s n h => ?_,
    fun s n l p v hup hst h1 h5 => ⟨fun hl hr => ?_, fun hs hl => ?_, fun hs hr => ?_⟩,
    fun s n hup hst h1 => ⟨fun hdue => ?_, fun hearly => ?_⟩, fun s n f hup hst h5 hres hver hready hgot => ?_,
    fun s n f hup hst h5 hres hver hready hgot hf => ?_, fun s n f hup hst h5 hres hver => ?_, fun s n f hup hst h5 => ?_⟩
  · refine does_of_live (f := fun b => nakResend b n) rfl hup ?_
    have hgo : nakResend s.blk n = s.blk.sendNak n := by simp [nakResend, hlive, hwait, hdue]
    rw [hgo]
    exact ⟨by simp, _, by simp [Link.sent]; rfl, rfl⟩
  · refine stays_of_live (f := fun b => nakResend b n) rfl fun _ => ?_
    simp [nakResend, not_le.2 hearly]
  · refine does_of_live (f := fun b => ackTimeout b n) rfl hup ?_
    have hgo : ackTimeout s.blk n = s.blk.replay n := by simp [ackTimeout, hlive, hheld, hdue]
    rw [hgo]
    obtain ⟨-, hh, hout⟩ := link_replay hfew
    exact ⟨hh, hout⟩
  · refine stays_of_live (f := fun b => ackTimeout b n) rfl fun _ => ?_
    simp [ackTimeout, not_le.2 hearly]
  · refine does_of_live (f := fun b => ackTimer b n) rfl hup ?_
    have hgo : ackTimer s.blk n = s.blk.sendAck n := by simp [ackTimer, hlive, hun, hdue]
    rw [hgo, Blk.sendAck]
    exact ⟨by simp [Link.sent], _, congrArg Link.out (link_emit s.blk n 0x0 0 [] 1), rfl, rfl⟩
  · refine stays_of_live (f := fun b => ackTimer b n) rfl fun _ => ?_
    simp [ackTimer, not_le.2 hearly]
  · refine does_of_live (f := fun b => linkDown b n .los) rfl hup ?_
    obtain ⟨hs, hg, hr, hstage⟩ := goDown_of_up .los hst hoff
    exact ⟨hs, hg, (congrArg (·.getLsbD 0) hr).trans (bit_reg_flag _ _ _ (by decide)), hstage⟩
  · refine stays_of_live (f := fun b => linkDown b n .silent) rfl fun _ => ?_
    simp [linkDown, not_le.2 hearly]
  · refine does_of_live (f := fun b => graceExpiry b n) rfl hup ?_
    have hgo : graceExpiry s.blk n = s.blk.flush n := by simp [graceExpiry, hst, hdue]
    rw [hgo]
    obtain ⟨hh, hs⟩ := link_flush s.blk n
    exact ⟨hh, hs, by rw [reg_flush (linkWord_err n)]; exact bit_reg_flag _ _ _ (by decide)⟩
  · refine stays_of_live (f := fun b => graceExpiry b n) rfl fun _ => ?_
    simp [graceExpiry, not_le.2 hearly]
  · refine does_of_live (f := fun b => wormGapTimeout b n) rfl hup ?_
    have hgo : wormGapTimeout s.blk n = s.blk.truncateRx n := by simp only [wormGapTimeout, hhold, hrx, hdue]; rfl
    rw [hgo]
    refine truncateRx_of_open ?_ hhold
    obtain ⟨p, hp, hleft⟩ := List.any_eq_true.1 hrx
    exact List.any_eq_true.2 ⟨p, hp, (Bool.and_eq_true_iff.1 hleft).2⟩
  · refine stays_of_live (f := fun b => wormGapTimeout b n) rfl fun _ => ?_
    simp [wormGapTimeout, not_le.2 hearly]
  · refine does_of_live (f := fun b => closeTimeout b n) rfl hup ?_
    have hgo : closeTimeout s.blk n = (s.blk.flag (Reg.lnkErr n) 6).flush n := by simp [closeTimeout, hlive, hask, hdue]
    rw [hgo]
    obtain ⟨hh, hs⟩ := link_flush (s.blk.flag (Reg.lnkErr n) 6) n
    refine ⟨hh, hs.trans ?_, ?_⟩
    · rw [linkOn_congr (y := s.blk) (by
        rw [Blk.flag, Blk.reg_setReg_ne _ _ _ _ (by simp [Reg.lnkCtl, Reg.lnkErr])]), portsOff_congr (y := s.blk) (by simp) (by simp)]
    · rw [reg_flush (linkWord_err n)]
      exact bit_reg_flag_mono _ 5 (bit_reg_flag _ _ _ (by decide))
  · refine stays_of_live (f := fun b => closeTimeout b n) rfl fun _ => ?_
    simp [closeTimeout, not_le.2 hearly]
  · refine does_of_live (f := fun b => b.posted (fun b => linkEnable b n)) rfl h.up ?_
    rw [posted_of_hostWrites h]
    have hst1 : ((s.blk.setReg (Reg.lnkCtl n) (s.blk.reg (Reg.lnkCtl n) ||| 1#32)).link n).state = .disabled := by simpa using hst
    have hon : (s.blk.setReg (Reg.lnkCtl n) (s.blk.reg (Reg.lnkCtl n) ||| 1#32)).linkOn n = true := by simp [linkOn_setReg]
    have hoff1 : (s.blk.setReg (Reg.lnkCtl n) (s.blk.reg (Reg.lnkCtl n) ||| 1#32)).portsOff = false := hoff
    obtain ⟨-, -, hs, -⟩ := link_linkIdle (s.blk.setReg (Reg.lnkCtl n) (s.blk.reg (Reg.lnkCtl n) ||| 1#32)) n
    simp only [linkEnable, hst1, if_true]
    refine ⟨only_of_blk (onlyBlk_of_rest ?_), ?_, hon⟩
    · rw [rest_linkIdle (by simp), rest_setReg (by simp)]
    · rw [hs, hon, hoff1]
      rfl
  · refine does_of_live (f := fun b => b.posted (fun b => linkDisable b n)) rfl h.up ?_
    have hgo : linkDisable s.blk n = (enableOff s.blk n).beginClose n := by
      simp only [linkDisable, link_setReg, hst]
      rfl
    obtain ⟨ha, hs, ho⟩ := beginClose_of_up (b := enableOff s.blk n) (n := n) hst hg hask hsent
    rw [posted_of_hostWrites h, hgo]
    exact ⟨ho.trans (linkOn_enableOff _ _), ha, hs⟩
  · refine does_of_live (f := fun b => b.posted (fun b => linkDisable b n)) rfl h.up ?_
    have hgo : linkDisable s.blk n = (enableOff s.blk n).flush n ∨ linkDisable s.blk n = (enableOff s.blk n).linkIdle n := by
      rcases hst with hst | hst
      · left
        simp only [linkDisable, link_setReg, hst]
        rfl
      · right
        simp only [linkDisable, link_setReg, hst]
        rfl
    rw [posted_of_hostWrites h]
    rcases hgo with hgo | hgo <;> rw [hgo]
    · obtain ⟨hh, hs⟩ := link_flush (enableOff s.blk n) n
      rw [linkOn_enableOff] at hs
      refine ⟨hs, hh, ?_⟩
      rw [← linkOn_enableOff s.blk n]
      exact (linkOn_congr (reg_linkIdle _ _ _)).trans (linkOn_dropFlits _ _)
    · obtain ⟨hh, -, hs, -⟩ := link_linkIdle (enableOff s.blk n) n
      rw [linkOn_enableOff] at hs
      exact ⟨hs, hh, linkOn_enableOff _ _⟩
  · refine does_of_live (f := fun b => b.posted (fun b => forceFull b n)) rfl h.up ?_
    rw [posted_of_hostWrites h, forceFull]
    exact ⟨only_of_blk (onlyBlk_of_rest (rest_modLink (by simp) ..)), by simp⟩
  · refine does_of_live (f := fun b => trainingStageDone b n l.toNat p.toNat v) rfl hup ?_
    obtain ⟨hs, hat, hr⟩ := trainingStageDone_of_may (p := p.toNat) (v := v) hst h1 h5 hl hr
    exact ⟨only_of_blk (onlyBlk_of_rest hr), hs, hat⟩
  · refine does_of_live (f := fun b => trainingStageDone b n l.toNat p.toNat v) rfl hup ?_
    have hgo : trainingStageDone s.blk n l.toNat p.toNat v = s.blk.modLink n (fun k => { k with lanes := l.toNat }) := by
      rcases hst with h | h <;> simp [trainingStageDone, h, hs, hl]
    rw [hgo]
    simpa using hs
  · refine stays_of_live (f := fun b => trainingStageDone b n l.toNat p.toNat v) rfl fun _ => ?_
    simp [trainingStageDone, hs, hr]
  · refine does_of_live (f := fun b => trainingStageTimeout b n) rfl hup ?_
    have hgo : trainingStageTimeout s.blk n = s.blk.trainFail n := by
      have h0 : (s.blk.link n).stage ≠ 0 := by omega
      rcases hst with h | h <;> simp [trainingStageTimeout, h, h0, hdue]
    rw [hgo]
    obtain ⟨hs, hat, hstate, hfull⟩ := link_trainFail s.blk n
    exact ⟨only_of_blk (onlyBlk_of_rest (rest_trainFail (by simp) (by simp) ..)), hs, hat, hstate, reg_trainFail _ _, hfull⟩
  · refine stays_of_live (f := fun b => trainingStageTimeout b n) rfl fun _ => ?_
    simp [trainingStageTimeout, not_le.2 hearly]
  · refine does_of_live (f := fun b => trainFlit b n f true) rfl hup ?_
    have hr : ((s.blk.link n).ready || decide (7 ≤ (s.blk.link n).good)) = true := by
      rcases hready with h | h <;> simp [h]
    rw [trainFlit_of_valid (.inl hst) h5 hres hver hr]
    generalize hx : (heardTrain s.blk n f true).sendTrain n (if true && !(s.blk.link n).ready then 8 else 1) = x
    have hxg : (x.link n).gotReady = true := by
      rw [← hx]
      simpa [Link.sent, link_heardTrain] using hgot
    have hxs : (x.link n).state = .training := by
      rw [← hx]
      simpa [Link.sent, link_heardTrain] using hst
    have hxr : rest ([.fab] ++ quietRegions) x = rest ([.fab] ++ quietRegions) s.blk := by
      rw [← hx, rest_sendTrain (by simp [quietRegions]) (by simp), rest_heardTrain (by simp)]
    simp only [hxg, Bool.and_self, if_true]
    refine ⟨only_of_blk (onlyBlk_of_rest ?_), enterUp_of_training f hxs⟩
    rw [← hxr]
    simp only [Blk.enterUp, hxs, reduceCtorEq, if_false]
    rw [rest_traceLink (by simp [quietRegions]) (by simp [quietRegions]) (by simp [quietRegions]) (by simp [quietRegions])
      (by simp [quietRegions]) (by simp [quietRegions]) (by simp [quietRegions]), rest_modLink (by simp),
      rest_setReg (by simp [quietRegions]), rest_setReg (by simp [quietRegions])]
  · refine does_of_live (f := fun b => trainFlit b n f true) rfl hup ?_
    have hr : ((s.blk.link n).ready || decide (7 ≤ (s.blk.link n).good)) = decide (7 ≤ (s.blk.link n).good) := by simp [hready]
    rw [trainFlit_of_valid hst h5 hres hver hr, hready]
    simp only [Bool.not_false, Bool.and_true]
    have hxl := link_heardTrain s.blk n f (decide (7 ≤ (s.blk.link n).good))
    have hxr := rest_heardTrain (L := [.fab, .aon]) (by simp) s.blk n f (decide (7 ≤ (s.blk.link n).good))
    generalize heardTrain s.blk n f (decide (7 ≤ (s.blk.link n).good)) = x at hxl hxr ⊢
    rw [hgot, hf] at hxl
    have hno : ((x.sendTrain n (if decide (7 ≤ (s.blk.link n).good) = true then 8 else 1)).link n).gotReady = false := by
      simp [hxl, Link.sent]
    simp only [hno, Bool.and_false, Bool.false_eq_true, if_false]
    have hout := congrArg Link.out (link_sendTrain x n (if decide (7 ≤ (s.blk.link n).good) = true then 8 else 1))
    simp only [Link.sent] at hout
    rw [hxl] at hout
    refine ⟨only_of_blk (onlyBlk_of_rest ((rest_sendTrain (by simp) (by simp) ..).trans hxr)), by simp [hxl, Link.sent],
      by simp [hxl, Link.sent], by simp [hxl, Link.sent], _, hout, rfl, rfl, rfl, ?_⟩
    rw [u8_trainPayload, hxl]
  · refine does_of_live (f := fun b => trainFlit b n f true) rfl hup ?_
    have hgo : trainFlit s.blk n f true = s.blk.trainFail n := by
      rw [trainFlit_of_stage f true hst h5, if_neg (by simp [hres]), if_pos (by simpa using hver)]
    rw [hgo]
    obtain ⟨hs, -, hstate, -⟩ := link_trainFail s.blk n
    exact ⟨only_of_blk (onlyBlk_of_rest (rest_trainFail (by simp) (by simp) ..)), hs, hstate, reg_trainFail _ _⟩
  · refine does_of_live (f := fun b => trainFlit b n f false) rfl hup ?_
    rw [trainFlit_of_stage f false hst h5]
    simp

end Sys2Proof.Proofs
end

/-! ## What commands read from host memory and write to it (R307, R308, R319, R380) -/
section
namespace Sys2Proof.Proofs

open Sys2Proof.Machine

/-! ### Requests sent on PCIe -/

@[simp] theorem ideOk_pcie (b : Blk) (o : PcieOut) (f : Nat) : (b.pcie o).ideOk f = b.ideOk f := by
  unfold Blk.pcie
  split <;> rfl

/-- While the stream of a function is up, what is sent for it goes out in order. -/
theorem pcie_foldl {b : Blk} (os : List PcieOut) (h : ∀ o ∈ os, b.ideOk o.func = true) :
    os.foldl Blk.pcie b = { b with hub.out := b.hub.out ++ os } := by
  induction os generalizing b with
  | nil => simp
  | cons o t ih =>
    have ho : b.pcie o = { b with hub.out := b.hub.out ++ [o] } := by
      simp [Blk.pcie, h o List.mem_cons_self]
    rw [List.foldl_cons, ih fun x hx => by rw [ideOk_pcie]; exact h x (List.mem_cons_of_mem _ hx), ho]
    simp

theorem out_pcie (b : Blk) (o : PcieOut) : ∃ l, (b.pcie o).hub.out = b.hub.out ++ l := by
  unfold Blk.pcie
  split
  · exact ⟨_, rfl⟩
  · exact ⟨[], (List.append_nil _).symm⟩

/-- What has been sent stays sent as a command is answered. -/
theorem out_answerCmd (b : Blk) (c : CmdId) (st : Nat) (res : Bytes) : ∃ l, (b.answerCmd c st res).hub.out = b.hub.out ++ l := by
  have same (x : Blk) : ∃ l, x.hub.out = x.hub.out ++ l := ⟨[], (List.append_nil _).symm⟩
  have mirror (x : Blk) (f base off : Nat) (bs : Bytes) : ∃ l, (x.mirrorOut f base off bs).hub.out = x.hub.out ++ l := by
    unfold Blk.mirrorOut
    split
    · exact same x
    · exact out_pcie x _
  have message (x : Blk) (f : Nat) (v : Option Nat) : ∃ l, (x.msix f v).hub.out = x.hub.out ++ l := by
    unfold Blk.msix
    split
    · exact same x
    · split
      · exact out_pcie x _
      · exact same x
  unfold Blk.answerCmd
  split
  · exact same b
  · next r _ =>
    split
    · exact same b
    · obtain ⟨l, hl⟩ := mirror ((b.dropCmd c).modWin r.f (fun w => { w with answers := mput w.answers (r.seq % 2048) (answerBytes r st res) }))
        r.f ((b.dropCmd c).win r.f).ansMirror (r.seq % 2048 * 128) (answerBytes r st res)
      have hans (x : Blk) (hx : ∃ l, x.hub.out = b.hub.out ++ l) :
          ∃ l, (if st = 0 then x else x.incr Reg.hubCmdFailCnt).hub.out = b.hub.out ++ l := by
        split <;> exact hx
      refine hans _ ?_
      split
      · obtain ⟨m, hm⟩ := message (((b.dropCmd c).modWin r.f
          (fun w => { w with answers := mput w.answers (r.seq % 2048) (answerBytes r st res) })).mirrorOut
          r.f ((b.dropCmd c).win r.f).ansMirror (r.seq % 2048 * 128) (answerBytes r st res)) r.f ((b.dropCmd c).win r.f).ansVec
        exact ⟨l ++ m, by rw [hm, hl, List.append_assoc]; rfl⟩
      · exact ⟨l, hl⟩

/-- An answer counts a failure, and writes no other register (R316). -/
theorem reg_answerCmd_ne (b : Blk) {off : Nat} (c : CmdId) (st : Nat) (res : Bytes) (h : off ≠ Reg.hubCmdFailCnt) :
    (b.answerCmd c st res).reg off = b.reg off := by
  have sent (x : Blk) (o : PcieOut) : (x.pcie o).reg off = x.reg off := by
    unfold Blk.pcie
    split <;> rfl
  unfold Blk.answerCmd
  split
  · rfl
  · split
    · rfl
    · have mirror (x : Blk) (f base o : Nat) (bs : Bytes) : (x.mirrorOut f base o bs).reg off = x.reg off := by
        unfold Blk.mirrorOut
        split
        · rfl
        · exact sent x _
      have message (x : Blk) (f : Nat) (v : Option Nat) : (x.msix f v).reg off = x.reg off := by
        unfold Blk.msix
        split
        · rfl
        · split
          · exact sent x _
          · rfl
      simp only [Blk.answerRec]
      split <;> split <;> simp only [reg_incr_ne _ h, message, mirror] <;> rfl

/-! ### Writes to host memory -/

theorem putPiece_eq (b : Blk) (f pasid : Nat) (ep : Bool) (p : Nat × Nat × Bool) (bs : Bytes) :
    b.putPiece f pasid ep p bs = (b.pieceWrites f pasid ep p bs).foldl Blk.pcie b := by
  rw [Blk.pieceWrites, List.foldl_map]
  rfl

theorem pieceWrites_congr {x y : Blk} (h : x.win 0 = y.win 0) (f pasid : Nat) (ep : Bool) (p : Nat × Nat × Bool) (bs : Bytes) :
    x.pieceWrites f pasid ep p bs = y.pieceWrites f pasid ep p bs := by
  simp [Blk.pieceWrites, h]

theorem win_pcie_foldl (b : Blk) (os : List PcieOut) (f : Nat) : (os.foldl Blk.pcie b).win f = b.win f :=
  keeps_foldl (fun x : Blk => x.win f) (fun _ _ => Blk.win_pcie ..) os b

/-- What a command writes into host memory is sent piece by piece. -/
theorem hostPut_eq (b : Blk) (f pasid a : Nat) (bs : Bytes) :
    b.hostPut f pasid a bs = (b.putWrites f pasid a bs).foldl Blk.pcie b := by
  rw [Blk.hostPut, Blk.putWrites]
  generalize plainPieces a bs.length = ps
  suffices h : ∀ x : Blk, x.win 0 = b.win 0 → ps.foldl (fun b p => b.putPiece f pasid false p (sl bs (p.1 - a) p.2.1)) x =
      ((ps.map (fun p => b.pieceWrites f pasid false p (sl bs (p.1 - a) p.2.1))).flatten).foldl Blk.pcie x from h b rfl
  induction ps with
  | nil => exact fun _ _ => rfl
  | cons p t ih =>
    intro x hx
    rw [List.foldl_cons, List.map_cons, List.flatten_cons, List.foldl_append, putPiece_eq, pieceWrites_congr hx]
    exact ih _ ((win_pcie_foldl _ _ 0).trans hx)

theorem func_of_mem_putWrites {b : Blk} {f pasid a : Nat} {bs : Bytes} {o : PcieOut} (h : o ∈ b.putWrites f pasid a bs) : o.func = f := by
  simp only [Blk.putWrites, List.mem_flatten, List.mem_map] at h
  obtain ⟨l, ⟨p, -, rfl⟩, hl⟩ := h
  obtain ⟨c, -, rfl⟩ := List.mem_map.1 hl
  rfl

/-- While the function's stream is up, what a command writes into host memory goes out at once. -/
theorem hostPut_of_ideOk {b : Blk} {f : Nat} (h : b.ideOk f = true) (pasid a : Nat) (bs : Bytes) :
    b.hostPut f pasid a bs = { b with hub.out := b.hub.out ++ b.putWrites f pasid a bs } := by
  rw [hostPut_eq, pcie_foldl _ fun o ho => by rw [func_of_mem_putWrites ho]; exact h]

@[simp] theorem inProg_hostPut (b : Blk) (f pasid a : Nat) (bs : Bytes) : (b.hostPut f pasid a bs).hub.inProg = b.hub.inProg := by
  rw [hostPut_eq]
  exact keeps_foldl (fun x : Blk => x.hub.inProg) (fun _ _ => inProg_pcie ..) _ b

/-! ### Reads of host memory -/

/-- A read whose completions are there is ended; it has touched nothing but what is sent. -/
structure ReadDone (b x : Blk) : Prop where
  rest : rest [.hub] x = rest [.hub] b
  inProg : x.hub.inProg = b.hub.inProg
  wins : x.hub.wins = b.hub.wins

theorem readDone_pcie_foldl {α : Type} (g : α → PcieOut) (as : List α) (b : Blk) : ReadDone b (as.foldl (fun b p => b.pcie (g p)) b) where
  rest := rest_foldl (fun _ _ => rest_pcie (by simp) ..) as b
  inProg := keeps_foldl (fun x : Blk => x.hub.inProg) (fun _ _ => inProg_pcie ..) as b
  wins := keeps_foldl (fun x : Blk => x.hub.wins) (fun x a => by unfold Blk.pcie; split <;> rfl) as b

/-- With room among the outstanding requests, or all of it sent, a read whose result is there is over (R307). -/
theorem mgmtRead_of_room {b : Blk} {r : CmdRec} {host : HostResult} (hmay : b.mayRead = true) (hroom : ReadRoom b r)
    (hhost : host ≠ .pending) (a pasid n : Nat) : ∃ x, b.mgmtRead r a pasid n host = (true, x) ∧ ReadDone b x := by
  unfold Blk.mgmtRead
  rw [if_neg (by simp [hmay])]
  unfold Blk.askHost
  simp only [hhost, if_false]
  generalize b.readCut (plainPieces a n (r.op != 0x29)) = ts
  cases hold : b.readOf (.mgmt r.f r.seq) with
  | none =>
    have h512 : b.nonPosted < 512 := by simpa [ReadRoom, hold] using hroom
    rw [if_neg (by simp; omega)]
    have hd := readDone_pcie_foldl (fun p : Nat × Nat × Bool => PcieOut.read r.f (if p.2.2 then some pasid else none) p.1 p.2.1) ts b
    exact ⟨_, rfl, (rest_endRead (by simp) ..).trans hd.rest, hd.inProg, hd.wins⟩
  | some o =>
    have hgo : b.nonPosted < 512 ∨ o.left = 0 := by simpa [ReadRoom, hold] using hroom
    have hnot : ¬ (((512 - b.nonPosted = 0 : Prop) && !(ts.drop (ts.length - o.left)).isEmpty) = true) := by
      rcases hgo with h | h
      · simp; omega
      · simp [h]
    rw [if_neg hnot]
    have hd := readDone_pcie_foldl (fun p : Nat × Nat × Bool => PcieOut.read r.f (if p.2.2 then some pasid else none) p.1 p.2.1)
      (ts.drop (ts.length - o.left)) b
    exact ⟨_, rfl, (rest_endRead (by simp) ..).trans hd.rest, hd.inProg, hd.wins⟩

theorem mgmtRead_of_not_may {b : Blk} (h : b.mayRead = false) (r : CmdRec) (a pasid n : Nat) (host : HostResult) :
    b.mgmtRead r a pasid n host = (false, b) := by
  simp [Blk.mgmtRead, h]

end Sys2Proof.Proofs
end

/-! ## The rails, the thermal monitor and the calibration set (R404 to R406, R410 to R413) -/
section
namespace Sys2Proof.Proofs

open Sys2Proof.Machine

/-- A flag raised before a command is answered stands after it. -/
theorem bit_reg_answerCmd_flag (b : Blk) {off i : Nat} (c : CmdId) (st : Nat) (res : Bytes) (h : off ≠ Reg.hubCmdFailCnt) (hi : i < 32) :
    (((b.flag off i).answerCmd c st res).reg off).getLsbD i = true := by
  rw [reg_answerCmd_ne _ c st res h]
  exact bit_reg_flag b off i hi

/-- A command that leaves a block known by an equation. -/
theorem does_of_blk {i : Instr} {s : State} {g b : Blk} {p : State → Prop} (hex : exec i s = .next { s with blk := g }) (hg : g = b)
    (hp : p { s with blk := b }) : Does i s p :=
  ⟨_, hg ▸ hex, hp⟩

/-! ### Calibration -/

theorem exec_calRead {s : State} (hup : s.blk.dead = false) (c : CmdId) :
    exec (.calRead c) s = .next { s with blk := calRead s.blk s.nv.flash c } := by
  simp [exec, execCalRead, hup]

theorem exec_calWrite {s : State} (hup : s.blk.dead = false) (c : CmdId) (img : HostResult) :
    exec (.calWrite c img) s = .next { s with blk := calWrite s.blk s.nv.flash c img } := by
  simp [exec, execCalWrite, hup]

theorem exec_calWriteDone {s : State} {x : Blk} {m : Cells} (hup : s.blk.dead = false) (ok : Bool) (hx : calWriteDone s.blk ok = x)
    (hm : s.blk.calFlash s.nv.flash ok = m) :
    exec (.calWriteDone ok) s = .next { s with blk := x, nv := { s.nv with flash := m } } := by
  simp [exec, execCalWriteDone, hup, hx, hm]

theorem calRead_of_slot {b : Blk} {m : Cells} {c : CmdId} {r : CmdRec} {o : Nat} (h : MgmtRuns b c 0x48 r) (ho : calSlot m = some o) :
    calRead b m c = if !(b.win r.f).master then b
      else (b.hostPut r.f (r.arg 0x10 4) (r.arg 0x08 8) (cread m o calLen)).answerCmd c 0 (toLe 4 calLen) := by
  rw [calRead, mgmtCmd_of_runs h]
  simp only [ho]

/-- A set taken or composed goes to the slot of the calibration set (R412). -/
theorem calWrite_composed {b : Blk} {m : Cells} {c : CmdId} {r : CmdRec} (h : MgmtRuns b c 0x49 r) (hfree : b.pwr.calWriting = none)
    (hslot : (calSlot m).isSome = true) (hop : r.arg 0x08 1 = 1) (img : HostResult) :
    calWrite b m c img = { ({ b with fresh := b.fresh + 2 } : Blk).startCmd c with
      pwr.calWriting := some (c, b.composeCal b.fresh (b.fresh + 1)) } := by
  have hs : (calSlot m).isNone = false := by simpa using hslot
  rw [calWrite, mgmtCmd_of_runs h]
  simp only [hfree, Option.isSome_none, Bool.false_eq_true, if_false, hop, if_true, hs, Blk.draw]

/-- What CAL_WRITE does with a set read from host memory (R412). -/
def calTake (b : Blk) (c : CmdId) (bs : Bytes) : Blk :=
  if calOk b.sec.otp.serial b.sec.kCal bs then { b.startCmd c with pwr.calWriting := some (c, bs) }
  else (b.flag Reg.calErr 1).answerCmd c 0xB3 []

theorem calWrite_read {b x : Blk} {m : Cells} {c : CmdId} {r : CmdRec} {bs : Bytes} (h : MgmtRuns b c 0x49 r) (hfree : b.pwr.calWriting = none)
    (hslot : (calSlot m).isSome = true) (hop : r.arg 0x08 1 ≠ 1)
    (hread : b.mgmtRead r (r.arg 0x10 8) (r.arg 0x18 4) calLen (.data bs false) = (true, x)) :
    calWrite b m c (.data bs false) = calTake x c (fit calLen bs) := by
  have hs : (calSlot m).isNone = false := by simpa using hslot
  rw [calWrite, mgmtCmd_of_runs h]
  simp only [hfree, Option.isSome_none, Bool.false_eq_true, if_false, hop, hread, Bool.not_true, hs, hostStatus, hostEp, hostBytes,
    ne_eq, not_true_eq_false, calTake]

/-- The block where a calibration set has been written: measurement 10 is its digest (R412). -/
def calWritten (b : Blk) (bs : Bytes) : Blk :=
  ({ b with pwr.calWriting := none, sec.meas := mput b.sec.meas 10 (sha256 bs) } : Blk).setReg Reg.calWriteCount
    (BitVec.ofNat 32 (calCountOf bs))

theorem calWriteDone_written {b : Blk} {c : CmdId} {bs : Bytes} (hup : b.dead = false) (hw : b.pwr.calWriting = some (c, bs)) :
    calWriteDone b true = (calWritten b bs).answerCmd c 0 [] := by
  simp [calWriteDone, hw, hup, calWritten]

theorem calWriteDone_lost {b : Blk} {c : CmdId} {bs : Bytes} (hup : b.dead = false) (hw : b.pwr.calWriting = some (c, bs)) :
    calWriteDone b false = (({ b with pwr.calWriting := none } : Blk).flag Reg.calErr 2).answerCmd c 0xB4 [] := by
  simp [calWriteDone, hw, hup]

/-! ### The thermal monitor -/

/-- THERMAL_SCAN when a reading is due (R405, R418). -/
theorem thermalScan_of_due {b : Blk} {ts : List Int} (hon : b.pwr.on = true) (hrun : b.frozen = false) (hlen : ts.length = 34)
    (hdue : ∀ x, b.pwr.scanAt = some x → x + 100000 ≤ b.tb) :
    rest [.regs, .pwr, .pins, .fresh] (thermalScan b ts) = rest [.regs, .pwr, .pins, .fresh] b ∧
    (thermalScan b ts).pwr = { b.pwr with
      temps := ts, scanAt := some b.tb, scanned := true,
      warn := decide (b.thermLimits.1 ≤ maxTemp ts) || (b.pwr.warn && !ts.all (fun t => decide (t + 3 ≤ b.thermLimits.1))),
      trip := b.pwr.trip || decide (b.thermLimits.2 ≤ maxTemp ts) } ∧
    (thermalScan b ts).pins.devFault = (b.pins.devFault || (b.pwr.trip || decide (b.thermLimits.2 ≤ maxTemp ts))) := by
  have hd : b.pwr.scanAt.all (fun t => decide (t + 100000 ≤ b.tb)) = true := by
    cases h : b.pwr.scanAt with
    | none => rfl
    | some x => simpa using hdue x h
  have htake : ts.take 34 = ts := List.take_of_length_le hlen.le
  have hnot : ¬ (!b.pwr.on || b.frozen || !(b.pwr.scanAt.all (fun t => decide (t + 100000 ≤ b.tb)))) = true := by simp [hon, hrun, hd]
  unfold thermalScan
  rw [if_neg hnot]
  simp only [htake, Blk.draw]
  generalize hx : (if ((decide (b.thermLimits.1 ≤ maxTemp ts) || b.pwr.warn && !ts.all fun t => decide (t + 3 ≤ b.thermLimits.1)) &&
    !b.pwr.warn) = true then b.flag Reg.pwrErr 1 else b) = x
  have hr : rest [.regs] x = rest [.regs] b := by
    rw [← hx]
    split
    · exact rest_flag (by simp) ..
    · rfl
  have hp : x.pwr = b.pwr := pwr_of_rest hr (by simp)
  have htb : x.tb = b.tb := tb_of_rest hr (by simp)
  have hpins : x.pins = b.pins := pins_of_rest hr (by simp)
  refine ⟨?_, ?_, ?_⟩
  · rw [rest_setReg (by simp), rest_setReg (by simp)]
    refine Eq.trans ?_ (rest_of_onlyBlk (onlyBlk_mono (by simp) (onlyBlk_of_rest hr)))
    simp [rest]
  · simp [hp, htb]
  · simp [hp, hpins]

theorem warn_of_cool {ts : List Int} {lim : Int} (hlen : ts.length = 34) (h : ∀ x ∈ ts, x + 3 ≤ lim) : ¬ lim ≤ maxTemp ts := by
  have hmax (as : List Int) (a : Int) (ha : a < lim) (has : ∀ x ∈ as, x < lim) : as.foldl max a < lim := by
    induction as generalizing a with
    | nil => exact ha
    | cons x t ih =>
      exact ih _ (max_lt ha (has x List.mem_cons_self)) fun y hy => has y (List.mem_cons_of_mem _ hy)
  cases ts with
  | nil => simp at hlen
  | cons a t =>
    have hall : ∀ x ∈ a :: t, x < lim := fun x hx => by have := h x hx; omega
    exact not_le.2 (hmax t a (hall a List.mem_cons_self) fun x hx => hall x (List.mem_cons_of_mem _ hx))

/-- Settles O57, command by command. -/
theorem railsHeatAndCalibrationAct : Obligations.RailsHeatAndCalibrationAct := by
  unfold Obligations.RailsHeatAndCalibrationAct
  refine ⟨fun s c r h hidle => ?_, fun s c r o x hup hmv hc hl => ⟨fun hx => ?_, fun hx => ?_⟩, fun s c r h => ?_, fun s c r h => ?_,
    fun s c r h => ⟨fun o ho hmaster hide => ?_, fun o ho hmaster => ?_, fun ho => ?_⟩,
    fun s c r bs h hfree hslot => ⟨fun hop => ?_, fun hop hmay => ?_, fun hop hmay hroom => ?_⟩,
    fun s c r bs o hup hw hc hl ho => ⟨?_, ?_⟩,
    fun s ts hon hrun => ⟨fun x hx hearly => ?_, fun hlen hdue => ?_⟩⟩
  · refine does_of_live (f := fun b => pwrVcore b c) rfl h.up ?_
    rw [pwrVcore, mgmtCmd_of_runs h]
    simp only [hidle, Option.isSome_none, Bool.false_eq_true, if_false]
    exact ⟨only_of_blk (onlyBlk_of_rest (by simp [rest_with_pwr, rest_startCmd, rest])), rfl⟩
  · refine does_of_live (f := vcoreSettled) rfl hup ?_
    have hgo : vcoreSettled s.blk = ({ s.blk with pwr.vcoreCmd := none } : Blk).answerCmd c 0 [] := by
      simp [vcoreSettled, hmv, hup, not_lt.2 hx]
    rw [hgo]
    exact ⟨endsOnly_answerCmd (x := { s.blk with pwr.vcoreCmd := none }) hc hl rfl (rest_with_pwr (by simp) ..) 0 [], by simp⟩
  · exact stays_of_live (f := vcoreSettled) rfl fun _ => by simp [vcoreSettled, hmv, hx]
  · refine does_of_live (f := fun b => pwrWarmReset b c) rfl h.up ?_
    rw [pwrWarmReset, mgmtCmd_of_runs h]
    obtain ⟨⟨hnv, hpend, honly⟩, hans, hgone⟩ := endsOnly_answer (s := s) h.found h.kept [.pwr] 0 []
    refine ⟨⟨⟨hnv, hpend, onlyBlk_of_rest ((rest_with_pwr (by simp) _ _).trans (rest_of_onlyBlk honly))⟩, hans, hgone⟩, by simp⟩
  · refine does_of_live (f := fun b => pwrRead b c) rfl h.up ?_
    rw [pwrRead, mgmtCmd_of_runs h]
    exact endsOnly_answerCmd (x := s.blk.draw.2) h.found h.kept rfl (by simp [rest, Blk.draw]) 0 _
  · have hgo := calRead_of_slot h ho
    simp only [hmaster, Bool.not_true, Bool.false_eq_true, if_false] at hgo
    refine does_of_blk (exec_calRead h.up c) hgo ?_
    refine ⟨endsOnly_answerCmd h.found h.kept (inProg_hostPut ..) (rest_hostPut (by simp) ..) 0 _, ?_⟩
    obtain ⟨l, hl⟩ := out_answerCmd (s.blk.hostPut r.f (r.arg 0x10 4) (r.arg 0x08 8) (cread s.nv.flash o calLen)) c 0 (toLe 4 calLen)
    exact ⟨l, hl.trans (by rw [hostPut_of_ideOk hide]; rfl)⟩
  · have hgo := calRead_of_slot h ho
    simp only [hmaster, Bool.not_false, if_true] at hgo
    rw [exec_calRead h.up, hgo]
  · have hgo : calRead s.blk s.nv.flash c = s.blk.answerCmd c 0 (toLe 4 0) := by
      rw [calRead, mgmtCmd_of_runs h]
      simp only [ho]
    exact does_of_blk (exec_calRead h.up c) hgo (endsOnly_answer h.found h.kept [] 0 _)
  · have hgo := calWrite_composed h hfree hslot hop (.data bs false)
    refine does_of_blk (exec_calWrite h.up c _) hgo ?_
    exact ⟨only_of_blk (onlyBlk_of_rest (by simp [rest, Blk.startCmd])), rfl⟩
  · have hgo : calWrite s.blk s.nv.flash c (.data bs false) = s.blk := by
      rw [calWrite, mgmtCmd_of_runs h]
      simp [hfree, hop, mgmtRead_of_not_may hmay]
    rw [exec_calWrite h.up, hgo]
  · obtain ⟨x, hx, hd⟩ := mgmtRead_of_room hmay hroom (host := .data bs false) (by simp) (r.arg 0x10 8) (r.arg 0x18 4) calLen
    have hgo := calWrite_read h hfree hslot hop hx
    refine does_of_blk (exec_calWrite h.up c _) hgo ?_
    have hsec : x.sec = s.blk.sec := sec_of_rest hd.rest (by simp)
    have hpwr : x.pwr = s.blk.pwr := pwr_of_rest hd.rest (by simp)
    rw [calTake, hsec]
    split
    · refine ⟨only_of_blk (onlyBlk_of_rest ?_), by simp [Blk.startCmd, hpwr]⟩
      refine (rest_with_pwr (by simp) _ _).trans ((rest_startCmd (by simp) ..).trans ?_)
      exact rest_of_onlyBlk (onlyBlk_mono (by simp) (onlyBlk_of_rest hd.rest))
    · refine ⟨endsOnly_answerCmd (x := x.flag Reg.calErr 1) h.found h.kept hd.inProg ?_ 0xB3 [], bit_reg_answerCmd_flag _ _ _ _ (by decide) (by decide)⟩
      rw [rest_flag (by simp)]
      exact rest_of_onlyBlk (onlyBlk_mono (by simp) (onlyBlk_of_rest hd.rest))
  · have hgo := calWriteDone_written hup hw
    have hfl : s.blk.calFlash s.nv.flash true = s.blk.flashWrite s.nv.flash o bs := by simp [Blk.calFlash, hw, ho, hup]
    refine ⟨_, exec_calWriteDone hup true hgo hfl, ends_answerCmd (x := calWritten s.blk bs) hc hl rfl 0 [], rfl,
      by simp [calWritten], by simp [calWritten], ?_⟩
    exact (reg_answerCmd_ne _ c 0 [] (by decide)).trans (Blk.reg_setReg_self ..)
  · have hgo := calWriteDone_lost hup hw
    have hfl : s.blk.calFlash s.nv.flash false = cclear s.nv.flash o calLen := by simp [Blk.calFlash, hw, ho, hup, calErase]
    refine ⟨_, exec_calWriteDone hup false hgo hfl, ends_answerCmd (x := ({ s.blk with pwr.calWriting := none } : Blk).flag Reg.calErr 2)
      hc hl rfl 0xB4 [], rfl, by simp, bit_reg_answerCmd_flag _ _ _ _ (by decide) (by decide)⟩
  · have hgo : thermalScan s.blk ts = s.blk := by simp [thermalScan, hx, hearly]
    simp only [exec, execThermalScan, act, hgo]
  · obtain ⟨hrest, hpwr, hfault⟩ := thermalScan_of_due hon hrun hlen hdue
    refine ⟨_, rfl, only_of_blk (onlyBlk_of_rest hrest), by simp only [hpwr], by simp only [hpwr], fun hhot => by simp [hpwr, hhot],
      fun hcool => ?_, by simp only [hpwr], by simp only [hpwr, hfault]⟩
    have hall : ts.all (fun t => decide (t + 3 ≤ s.blk.thermLimits.1)) = true := by simpa using hcool
    simp [hpwr, warn_of_cool hlen hcool, hall]

end Sys2Proof.Proofs
end

/-! ## Error bits that log and trace records leave

A record may be refused or lost, which counts and flags it; every other bit of an error word stays as it is. -/
section
namespace Sys2Proof.Proofs

open Sys2Proof.Machine

/-- A bit of a register. -/
def bitAt (b : Blk) (wd i : Nat) : Bool := (b.reg wd).getLsbD i

/-- A bit of a register that no log or trace record writes: in none of the counters and none of the flags of refused and lost records. -/
structure QuietBit (wd i : Nat) : Prop where
  refuse : ∀ q < 4, wd ≠ Reg.haRefuseCnt q
  retry : wd ≠ Reg.hubRetryCnt
  lossCnt : wd ≠ Reg.obsTraceLossCnt
  revoked : ∀ q < 4, wd ≠ Reg.haErr q ∨ i ≠ 2
  hold : wd ≠ Reg.pwrErr ∨ i ≠ 2
  logLost : wd ≠ Reg.obsErr ∨ i ≠ 2
  traceLost : wd ≠ Reg.obsErr ∨ i ≠ 1

theorem bitAt_of_regs {x y : Blk} (h : x.regs = y.regs) (wd i : Nat) : bitAt x wd i = bitAt y wd i := by
  rw [bitAt, reg_congr h, bitAt]

theorem bitAt_with_rings (b : Blk) (x : Rings) (wd i : Nat) : bitAt { b with rings := x } wd i = bitAt b wd i := rfl

theorem bitAt_incr {wd i off : Nat} (h : wd ≠ off) (b : Blk) : bitAt (b.incr off) wd i = bitAt b wd i := by
  rw [bitAt, reg_incr_ne b h, bitAt]

/-- A flag sets its bit and leaves every other. -/
theorem bitAt_flag {wd i off k : Nat} (h : wd ≠ off ∨ i ≠ k) (b : Blk) : bitAt (b.flag off k) wd i = bitAt b wd i := by
  unfold bitAt Blk.flag
  by_cases hw : wd = off
  · subst hw
    have hi : i ≠ k := h.resolve_left fun hn => hn rfl
    rw [Blk.reg_setReg_self, BitVec.getLsbD_or]
    simp [BitVec.getLsbD_shiftLeft, BitVec.getLsbD_one]
    omega
  · rw [Blk.reg_setReg_ne _ _ _ _ hw]

theorem bitAt_aonAdd (b : Blk) (k n wd i : Nat) : bitAt (b.aonAdd k n) wd i = bitAt b wd i := rfl

theorem bitAt_event (b : Blk) (unit code : Nat) (part : Option Nat) (n wd i : Nat) :
    bitAt (b.event unit code part n) wd i = bitAt b wd i :=
  bitAt_of_regs (regs_of_rest (L := [.pcs]) (rest_event (by decide) ..) (by decide)) wd i

theorem qbit_aonAdd {wd j : Nat} (ho : QuietBit wd j) (b : Blk) (i n : Nat) :
    bitAt (b.aonAdd i n) wd j = bitAt b wd j := by
  rfl

theorem qbit_event {wd j : Nat} (ho : QuietBit wd j) (b : Blk) (unit code : Nat) (part : Option Nat) (n : Nat) :
    bitAt (b.event unit code part n) wd j = bitAt b wd j := by
  exact bitAt_event ..

theorem qbit_modHusk {wd j : Nat} (ho : QuietBit wd j) (b : Blk) (c : Nat) (f : HuskChan → HuskChan) :
    bitAt (b.modHusk c f) wd j = bitAt b wd j := by
  exact bitAt_of_regs (regs_of_rest (L := [.chans]) (rest_modHusk (by decide) ..) (by decide)) wd j

theorem qbit_putCopy {wd j : Nat} (ho : QuietBit wd j) (b : Blk) (c : Copy) (l : Nat) (bs : Bytes) (m : LineMeta) :
    bitAt (b.putCopy c l bs m) wd j = bitAt b wd j := by
  exact bitAt_of_regs (regs_of_rest (L := [.pool]) (rest_putCopy (by decide) ..) (by decide)) wd j

theorem qbit_putHusk {wd j : Nat} (ho : QuietBit wd j) (b : Blk) (l : Nat) (bs : Bytes) (m : LineMeta) :
    bitAt (b.putHusk l bs m) wd j = bitAt b wd j := by
  exact bitAt_of_regs (regs_of_rest (L := [.pool]) (rest_putHusk (by decide) ..) (by decide)) wd j

theorem qbit_huskOp {wd j : Nat} (ho : QuietBit wd j) (b : Blk) (c code part : Nat) :
    bitAt (b.huskOp c code part) wd j = bitAt b wd j := by
  exact bitAt_of_regs (regs_of_rest (L := [.aon, .pcs, .pool, .chans]) (rest_huskOp (by decide) (by decide) (by decide) (by decide) ..) (by decide)) wd j

theorem qbit_countHusk {wd j : Nat} (ho : QuietBit wd j) (b : Blk) (l code part : Nat) :
    bitAt (b.countHusk l code part) wd j = bitAt b wd j := by
  exact bitAt_of_regs (regs_of_rest (L := [.aon, .pcs, .pool, .chans]) (rest_countHusk (by decide) (by decide) (by decide) (by decide) ..) (by decide)) wd j

theorem qbit_countGrain {wd j : Nat} (ho : QuietBit wd j) (b : Blk) (l code part : Nat) :
    bitAt (b.countGrain l code part) wd j = bitAt b wd j := by
  exact bitAt_of_regs (regs_of_rest (L := [.aon, .pcs]) (rest_countGrain (by decide) (by decide) ..) (by decide)) wd j

theorem qbit_writeLine {wd j : Nat} (ho : QuietBit wd j) (b : Blk) (l : Nat) (bs : Bytes) (poison : Bool) (wb : Bool) :
    bitAt (b.writeLine l bs poison wb) wd j = bitAt b wd j := by
  exact bitAt_of_regs (regs_of_rest (L := [.aon, .pcs, .pool, .chans]) (rest_writeLine (by decide) (by decide) (by decide) (by decide) ..) (by decide)) wd j

theorem qbit_writeMasked {wd j : Nat} (ho : QuietBit wd j) (b : Blk) (l : Nat) (bs : Bytes) (mask : BitVec 128) (poison : Bool) (wb : Bool) :
    bitAt (b.writeMasked l bs mask poison wb) wd j = bitAt b wd j := by
  exact bitAt_of_regs (regs_of_rest (L := [.aon, .pcs, .pool, .chans]) (rest_writeMasked (by decide) (by decide) (by decide) (by decide) ..) (by decide)) wd j

theorem qbit_bumpMod {wd j : Nat} (ho : QuietBit wd j) (b : Blk) (l n : Nat) :
    bitAt (b.bumpMod l n) wd j = bitAt b wd j := by
  exact bitAt_of_regs (regs_of_rest (L := [.ext]) (rest_bumpMod (by decide) ..) (by decide)) wd j

theorem qbit_countAccept {wd j : Nat} (ho : QuietBit wd j) (b : Blk) (q part : Nat) :
    bitAt (b.countAccept q part) wd j = bitAt b wd j := by
  exact bitAt_of_regs (regs_of_rest (L := [.aon, .pcs]) (rest_countAccept (by decide) (by decide) ..) (by decide)) wd j

theorem qbit_countRefusal {wd j : Nat} (ho : QuietBit wd j) (b : Blk) {q : Nat} (hq : q < 4) (status part : Nat) :
    bitAt (b.countRefusal q status part) wd j = bitAt b wd j := by
  have hcnt := ho.refuse q hq
  simp only [Blk.countRefusal]
  split <;> split <;> split <;> simp only [bitAt_incr ho.retry, bitAt_flag ho.hold, bitAt_flag (ho.revoked q hq), bitAt_event,
    bitAt_aonAdd, bitAt_incr hcnt]

theorem qbit_unbump {wd j : Nat} (ho : QuietBit wd j) (b : Blk) (l : Nat) :
    bitAt (b.unbump l) wd j = bitAt b wd j := by
  exact bitAt_of_regs (regs_of_rest (L := [.ext]) (rest_unbump (by decide) ..) (by decide)) wd j

theorem qbit_countMerge {wd j : Nat} (ho : QuietBit wd j) (b : Blk) (l : Nat) (mask : BitVec 128) :
    bitAt (b.countMerge l mask) wd j = bitAt b wd j := by
  exact bitAt_of_regs (regs_of_rest (L := [.aon, .pcs, .pool, .chans]) (rest_countMerge (by decide) (by decide) (by decide) (by decide) ..) (by decide)) wd j

theorem qbit_hubLine {wd j : Nat} (ho : QuietBit wd j) (b : Blk) (p : Nat × Bytes × BitVec 128) :
    bitAt (b.hubLine p) wd j = bitAt b wd j := by
  unfold Blk.hubLine
  dsimp only
  repeat' split
  all_goals simp [qbit_writeMasked, qbit_bumpMod, qbit_countAccept, qbit_countRefusal ho _ (homeOf_lt _), qbit_unbump, qbit_countMerge, bitAt_with_rings, *]

theorem qbit_hubWrite {wd j : Nat} (ho : QuietBit wd j) (b : Blk) (a : Nat) (bs : Bytes) :
    bitAt (b.hubWrite a bs) wd j = bitAt b wd j := by
  simp [Blk.hubWrite, keeps_foldl (fun x : Blk => bitAt x wd j), qbit_hubLine, *]

theorem qbit_hubPut {wd j : Nat} (ho : QuietBit wd j) (b : Blk) (ps : List (Nat × Bytes)) :
    bitAt (b.hubPut ps).2 wd j = bitAt b wd j := by
  unfold Blk.hubPut
  dsimp only
  repeat' split
  all_goals simp [keeps_foldl (fun x : Blk => bitAt x wd j), keeps_foldl_fst (fun x : Blk => bitAt x wd j), keeps_foldl_snd (fun x : Blk => bitAt x wd j), qbit_countRefusal ho _ (homeOf_lt _), qbit_hubWrite, *]

theorem qbit_ringPut {wd j : Nat} (ho : QuietBit wd j) (b : Blk) (e : ExtEnt) (r : Ring) (bs : Bytes) :
    bitAt (b.ringPut e r bs).2.1 wd j = bitAt b wd j := by
  simp [Blk.ringPut, qbit_hubPut, *]

theorem qbit_logPut {wd j : Nat} (ho : QuietBit wd j) (b : Blk) (bs : Bytes) :
    bitAt (b.logPut bs).2 wd j = bitAt b wd j := by
  unfold Blk.logPut
  dsimp only
  repeat' split
  all_goals simp [qbit_ringPut, bitAt_with_rings, *]

theorem qbit_logLose {wd j : Nat} (ho : QuietBit wd j) (b : Blk) :
    bitAt (b.logLose) wd j = bitAt b wd j := by
  simp [Blk.logLose, bitAt_with_rings, bitAt_flag ho.logLost, bitAt_aonAdd]

theorem qbit_logRoom {wd j : Nat} (ho : QuietBit wd j) (b : Blk) :
    bitAt (b.logRoom) wd j = bitAt b wd j := by
  exact bitAt_of_regs (regs_of_rest (L := [.rings]) (rest_logRoom (by decide) ..) (by decide)) wd j

theorem qbit_logCatch {wd j : Nat} (ho : QuietBit wd j) (b : Blk) :
    bitAt (b.logCatch) wd j = bitAt b wd j := by
  unfold Blk.logCatch
  dsimp only
  repeat' split
  all_goals simp [qbit_logPut, bitAt_with_rings, *]

theorem qbit_logRing {wd j : Nat} (ho : QuietBit wd j) (b : Blk) (r : LogRec) :
    bitAt (b.logRing r) wd j = bitAt b wd j := by
  unfold Blk.logRing
  dsimp only
  repeat' split
  all_goals simp [qbit_logPut, qbit_logLose, qbit_logRoom, qbit_logCatch, *]

theorem qbit_logRaise {wd j : Nat} (ho : QuietBit wd j) (b : Blk) (r : LogRec) :
    bitAt (b.logRaise r) wd j = bitAt b wd j := by
  unfold Blk.logRaise
  dsimp only
  repeat' split
  all_goals simp [qbit_logLose, qbit_logRing, bitAt_with_rings, *]

theorem qbit_log {wd j : Nat} (ho : QuietBit wd j) (b : Blk) (code unit part a bb : Nat) (flags : Nat) :
    bitAt (b.log code unit part a bb flags) wd j = bitAt b wd j := by
  simp [Blk.log, qbit_logRaise, *]

theorem qbit_traceLose {wd j : Nat} (ho : QuietBit wd j) (b : Blk) :
    bitAt (b.traceLose) wd j = bitAt b wd j := by
  simp [Blk.traceLose, bitAt_flag ho.traceLost, bitAt_incr ho.lossCnt, bitAt_with_rings]

theorem qbit_traceRoom {wd j : Nat} (ho : QuietBit wd j) (b : Blk) (e : ExtEnt) :
    bitAt (b.traceRoom e) wd j = bitAt b wd j := by
  exact bitAt_of_regs (regs_of_rest (L := [.rings]) (rest_traceRoom (by decide) ..) (by decide)) wd j

theorem qbit_traceCatch {wd j : Nat} (ho : QuietBit wd j) (b : Blk) (e : ExtEnt) :
    bitAt (b.traceCatch e) wd j = bitAt b wd j := by
  unfold Blk.traceCatch
  dsimp only
  split
  · rfl
  · rw [bitAt_with_rings, qbit_ringPut ho]

theorem qbit_tracePut {wd j : Nat} (ho : QuietBit wd j) (b : Blk) (e : ExtEnt) (bs : Bytes) :
    bitAt (b.tracePut e bs) wd j = bitAt b wd j := by
  unfold Blk.tracePut
  dsimp only
  repeat' split
  all_goals simp [qbit_ringPut, qbit_traceLose, bitAt_with_rings, *]

theorem qbit_traceTo {wd j : Nat} (ho : QuietBit wd j) (b : Blk) (e : ExtEnt) (r : TraceRec) :
    bitAt (b.traceTo e r) wd j = bitAt b wd j := by
  unfold Blk.traceTo
  dsimp only
  repeat' split
  all_goals simp [qbit_traceLose, qbit_traceRoom, qbit_traceCatch, qbit_tracePut, *]

theorem qbit_trace {wd j : Nat} (ho : QuietBit wd j) (b : Blk) (r : TraceRec) :
    bitAt (b.trace r) wd j = bitAt b wd j := by
  unfold Blk.trace
  split
  · rfl
  · split
    · simp [qbit_traceLose, *]
    · simp [qbit_traceTo, *]

end Sys2Proof.Proofs
end

/-! ## Changes of the power state (R396 to R402, R413) -/
section
namespace Sys2Proof.Proofs

open Sys2Proof.Machine

/-! ### A command that has been marked as started is answered as it was taken -/

theorem eraseP_markStarted (c : CmdId) (p : List CmdRec) :
    (markStarted c p).eraseP (fun x => x.is c) = p.eraseP (fun x => x.is c) := by
  induction p with
  | nil => rfl
  | cons r t ih =>
    by_cases hr : r.is c = true
    · have hr' : ({ r with started := true } : CmdRec).is c = true := hr
      simp [markStarted, hr, List.eraseP_cons, hr']
    · simp [markStarted, hr, List.eraseP_cons, ih]

theorem find?_markStarted_self {c : CmdId} {p : List CmdRec} {r : CmdRec} (h : p.find? (·.is c) = some r) :
    (markStarted c p).find? (·.is c) = some { r with started := true } := by
  induction p with
  | nil => simp at h
  | cons a t ih =>
    by_cases ha : a.is c = true
    · have ha' : ({ a with started := true } : CmdRec).is c = true := ha
      simp only [List.find?_cons, ha] at h
      obtain rfl := Option.some.inj h
      simp [markStarted, ha, ha']
    · simp only [List.find?_cons, ha] at h
      simp [markStarted, ha, ih h]

theorem ends_answerCmd_started {s : State} {x : Blk} {c : CmdId} {r : CmdRec} (hc : s.blk.cmd c = some r) (hl : r.lost = false)
    (hx : x.hub.inProg = markStarted c s.blk.hub.inProg) (st : Nat) (res : Bytes) :
    Ends s { s with blk := x.answerCmd c st res } c r st res := by
  have hcx : x.cmd c = some { r with started := true } := by
    rw [Blk.cmd, hx]
    exact find?_markStarted_self hc
  exact ⟨Blk.answerCmd_slot x c { r with started := true } st res hcx hl,
    (inProg_answerCmd hcx st res).trans (by rw [hx, eraseP_markStarted])⟩

/-! ### PWR_STATE -/

theorem pwr_tracePower (b : Blk) (event s m : Nat) : (b.tracePower event s m).pwr = b.pwr :=
  pwr_of_rest (L := quietRegions) (rest_tracePower (by decide) (by decide) (by decide) (by decide) (by decide) (by decide) (by decide) ..)
    (by decide)

theorem tb_tracePower (b : Blk) (event s m : Nat) : (b.tracePower event s m).tb = b.tb :=
  tb_of_rest (L := quietRegions) (rest_tracePower (by decide) (by decide) (by decide) (by decide) (by decide) (by decide) (by decide) ..)
    (by decide)

theorem work_tracePower (b : Blk) (event s m : Nat) : (b.tracePower event s m).work = b.work :=
  work_of_rest (L := quietRegions) (rest_tracePower (by decide) (by decide) (by decide) (by decide) (by decide) (by decide) (by decide) ..)
    (by decide)

theorem pwr_setPower (b : Blk) (s m : Nat) : (b.setPower s m).pwr = { b.pwr with state := s, mask := m, move := none } := by
  have h (p : Prefetch → Bool) : (b.dropPre p).pwr = b.pwr :=
    pwr_of_rest (L := [.regs, .pcs, .coh, .work]) (rest_dropPre (by decide) (by decide) (by decide) (by decide) ..) (by decide)
  simp only [Blk.setPower, h]

/-- The block where a transition has begun: it is noted and traced. -/
def begun (b : Blk) (c : CmdId) (mv : PwrMove) : Blk :=
  ({ b.startCmd c with pwr.move := some mv } : Blk).tracePower 1 mv.state mv.mask

theorem pwr_begun (b : Blk) (c : CmdId) (mv : PwrMove) : (begun b c mv).pwr = { b.pwr with move := some mv } := pwr_tracePower ..

theorem inProg_begun (b : Blk) (c : CmdId) (mv : PwrMove) : (begun b c mv).hub.inProg = markStarted c b.hub.inProg := by
  rw [begun, hub_tracePower]
  rfl

theorem tb_begun (b : Blk) (c : CmdId) (mv : PwrMove) : (begun b c mv).tb = b.tb := tb_tracePower ..

theorem move_begun (b : Blk) (c : CmdId) (mv : PwrMove) : (begun b c mv).pwr.move = some mv := by rw [pwr_begun]

theorem leases_begun (b : Blk) (c : CmdId) (mv : PwrMove) : (begun b c mv).ext.leases = b.ext.leases := leases_tracePower ..

theorem rest_begun (b : Blk) (c : CmdId) (mv : PwrMove) :
    rest ([.hub, .pwr] ++ quietRegions) (begun b c mv) = rest ([.hub, .pwr] ++ quietRegions) b := by
  rw [begun, rest_tracePower (by decide) (by decide) (by decide) (by decide) (by decide) (by decide) (by decide)]
  exact (rest_with_pwr (by decide) _ _).trans (rest_startCmd (by decide) ..)

/-- PWR_STATE where no transition and no commit runs, and the transition is allowed (R396). -/
theorem pwrState_of_allowed {b : Blk} {c : CmdId} {r : CmdRec} {mv : PwrMove} (h : MgmtRuns b c 0x40 r) (hmove : b.pwr.move = none)
    (hcommit : b.str.commit = none) (hok : pwrAllowed b.pwr.state b.pwr.mask (r.arg 0x08 1) (r.arg 0x0C 4) = true)
    (hpair : r.arg 0x08 1 = 3 → b.pair.code ≠ 1 ∧ b.pair.code ≠ 5)
    (hmv : mv = { cmd := c, state := r.arg 0x08 1, mask := r.arg 0x0C 4, deadline := r.at_ + r.arg 0x10 4 * 1000000 }) :
    pwrState b c = if mv.state = 3 then (begun b c mv).holdBegin
      else if mv.state = 4 then (((begun b c mv).tracePower 2 4 0).pwrAnswer c 4).powerOff
      else if b.pwr.state = 3 then ((begun b c mv).holdEnd.tracePower 2 2 0).pwrAnswer c 2
      else (begun b c mv).powerDrainDone := by
  have hno : ¬ (!pwrAllowed b.pwr.state b.pwr.mask (r.arg 0x08 1) (r.arg 0x0C 4) ||
      (decide (r.arg 0x08 1 = 3) && (decide (b.pair.code = 1) || decide (b.pair.code = 5)))) = true := by
    by_cases h3 : r.arg 0x08 1 = 3
    · simp [hok, hpair h3]
    · simp [hok, h3]
  subst hmv
  rw [pwrState, mgmtCmd_of_runs h]
  simp only [hmove, hcommit, Option.map_none, Option.isSome_none, Bool.false_eq_true, if_false, hno]
  rfl

/-- Is no Tiller that a transition gates running a task. -/
def gatesIdle (b : Blk) (mv : PwrMove) : Prop := ∀ k, k < 24 → powerGates mv.state mv.mask k = true → (b.til k).run = none

theorem til_begun (b : Blk) (c : CmdId) (mv : PwrMove) (k : Nat) : (begun b c mv).til k = b.til k :=
  til_congr (congrArg Work.tillers (work_tracePower ..)) k

theorem powerDrainDone_of_idle {b : Blk} {mv : PwrMove} (hm : b.pwr.move = some mv) (hst : mv.state ≠ 3) (hidle : gatesIdle b mv) :
    b.powerDrainDone = ((b.setPower mv.state mv.mask).tracePower 2 mv.state mv.mask).pwrAnswer mv.cmd mv.state := by
  have hno : (List.range 24).any (fun k => (b.til k).run.isSome && powerGates mv.state mv.mask k) = false := by
    rw [List.any_eq_false]
    intro k hk
    by_cases hg : powerGates mv.state mv.mask k = true
    · simp [hidle k (List.mem_range.1 hk) hg]
    · simp [hg]
  unfold Blk.powerDrainDone
  simp only [hm, hst, hno, decide_false, Bool.or_self, Bool.false_eq_true, if_false]

theorem powerDrainDone_of_busy {b : Blk} {mv : PwrMove} {k : Nat} (hm : b.pwr.move = some mv) (hk : k < 24)
    (hg : powerGates mv.state mv.mask k = true) (hrun : (b.til k).run ≠ none) : b.powerDrainDone = b := by
  have hyes : (List.range 24).any (fun k => (b.til k).run.isSome && powerGates mv.state mv.mask k) = true :=
    List.any_eq_true.2 ⟨k, List.mem_range.2 hk, by simp [hg, Option.isSome_iff_ne_none.2 hrun]⟩
  unfold Blk.powerDrainDone
  simp only [hm, hyes, Bool.or_true, if_true]

/-- The block that has left HOLD, before its ports train and a standby rejoins (R400, R401). -/
def outOfHold (b : Blk) : Blk :=
  { b.setPower 2 0 with
    pwr.holding := false
    pwr.frozenLeases := []
    ext.leases := b.pwr.frozenLeases.foldl (fun m f => mmod m f.1 (fun l => { l with deadline := b.tb + f.2 })) b.ext.leases }

theorem keeps_holdEnd {γ : Type} (P : Blk → γ) (hlink : ∀ (b : Blk) n f, P (b.modLink n f) = P b) (b : Blk) :
    P b.holdEnd = P (outOfHold b).rejoin := by
  unfold Blk.holdEnd outOfHold
  dsimp only
  refine keeps_foldl P (fun x n => ?_) _ _
  split
  · exact hlink ..
  · rfl

theorem pwr_rejoin (b : Blk) : b.rejoin.pwr = b.pwr := pwr_of_rest (L := [.pair]) (rest_rejoin (by decide) b) (by decide)

theorem pwr_holdEnd (b : Blk) : b.holdEnd.pwr = { b.pwr with state := 2, mask := 0, move := none, holding := false, frozenLeases := [] } := by
  rw [keeps_holdEnd (fun x => x.pwr) (fun _ _ _ => rfl), pwr_rejoin]
  simp only [outOfHold, pwr_setPower]

theorem hub_holdEnd (b : Blk) : b.holdEnd.hub = b.hub := by
  rw [keeps_holdEnd (fun x => x.hub) (fun _ _ _ => rfl), hub_rejoin]
  exact hub_setPower ..

theorem leases_holdEnd (b : Blk) : b.holdEnd.ext.leases =
    b.pwr.frozenLeases.foldl (fun m f => mmod m f.1 (fun l => { l with deadline := b.tb + f.2 })) b.ext.leases := by
  rw [keeps_holdEnd (fun x => x.ext) (fun _ _ _ => rfl), ext_rejoin]
  rfl

theorem pwr_setPairPins (b : Blk) : b.setPairPins.pwr = b.pwr := pwr_of_rest (L := [.pair]) (rest_setPairPins (by decide) b) (by decide)

/-! ### The end of the entry into HOLD -/

theorem closePorts_of_closed {b : Blk} (h : b.portsClosed = true) : b.closePorts = b := by
  have hd : ∀ n ∈ List.range 48, (b.link n).state = .disabled := by simpa [Blk.portsClosed] using h
  unfold Blk.closePorts
  generalize List.range 48 = ns at hd ⊢
  induction ns with
  | nil => rfl
  | cons n t ih =>
    rw [List.foldl_cons, hd n List.mem_cons_self]
    exact ih fun k hk => hd k (List.mem_cons_of_mem _ hk)

theorem holdEntryDrained_of_closed {b : Blk} {m : PwrMove} (hup : b.dead = false) (hm : b.pwr.move = some m) (hst : m.state = 3)
    (hfree : b.trackersFree = true) (hclosed : b.portsClosed = true) :
    ∃ x : Blk, holdEntryDrained b = ((x.setPower 3 0).tracePower 2 3 0).pwrAnswer m.cmd 3 ∧ x.hub = b.hub := by
  have hgo : ¬ (b.dead || decide (m.state ≠ 3) || !b.trackersFree) = true := by simp [hup, hst, hfree]
  unfold holdEntryDrained
  simp only [hm, hgo, Bool.false_eq_true, if_false]
  by_cases hc : m.closing = true
  · exact ⟨b, by simp only [hc, if_true, Blk.holdDone, hclosed], rfl⟩
  · refine ⟨{ b with pwr.move := some { m with closing := true } }, ?_, rfl⟩
    have hclosed' : ({ b with pwr.move := some { m with closing := true } } : Blk).portsClosed = true := hclosed
    simp only [hc, Bool.false_eq_true, if_false, closePorts_of_closed hclosed', Blk.holdDone, hclosed', if_true]

theorem powerTimeout_of_late {b : Blk} {m : PwrMove} (hup : b.dead = false) (hm : b.pwr.move = some m) (hst : m.state ≠ 3)
    (hlate : m.deadline ≤ b.tb) :
    powerTimeout b = (({ b with pwr.move := none }.flag Reg.pwrErr 0).tracePower 2 b.pwr.state b.pwr.mask).answerCmd m.cmd 0xB0 [] := by
  have hgo : ¬ (b.dead || decide (m.state = 3) || decide (b.tb < m.deadline)) = true := by simp [hup, hst, hlate]
  unfold powerTimeout
  simp only [hm, hgo, Bool.false_eq_true, if_false]

theorem quietBit_pwrErr : QuietBit Reg.pwrErr 0 where
  refuse q _ := by simp only [Reg.pwrErr, Reg.haRefuseCnt]; omega
  retry := by decide
  lossCnt := by decide
  revoked q _ := .inr (by decide)
  hold := .inr (by decide)
  logLost := .inl (by decide)
  traceLost := .inl (by decide)

/-- Settles O56, by the cases of the transition. -/
theorem powerStatesChange : Obligations.PowerStatesChange := by
  unfold Obligations.PowerStatesChange
  refine ⟨fun s c r h => ?_, fun s m hup hm => ⟨fun r hst hfree hclosed hc hl => ?_, fun hst hbusy => ?_,
    fun r hst hlate hc hl => ?_, fun hearly => ?_⟩⟩
  · intro st mask ok mv
    have hrun {p : State → Prop} (hp : p { s with blk := pwrState s.blk c }) : Does (.pwrState c) s p :=
      does_of_live (f := fun b => pwrState b c) rfl h.up hp
    refine ⟨fun x hx hne => hrun ?_, fun hmove hcommit hno => hrun ?_, fun hmove hcommit hok h2 hs2 hidle => hrun ?_,
      fun hmove hcommit hok h2 hs2 hbusy => hrun ?_, fun hmove hcommit hs2 h3 hp1 hp5 => hrun ?_,
      fun hmove hcommit hs3 h2 => hrun ?_, fun hmove hcommit hs3 h4 => hrun ?_⟩
    · have hgo : pwrState s.blk c = s.blk.answerCmd c 0xB0 [] := by
        rw [pwrState, mgmtCmd_of_runs h]
        simp [hx, hne]
      rw [hgo]
      exact endsOnly_answer h.found h.kept [] 0xB0 []
    · have hgo : pwrState s.blk c = s.blk.answerCmd c 0xB1 [] := by
        have hno' : pwrAllowed s.blk.pwr.state s.blk.pwr.mask (r.arg 0x08 1) (r.arg 0x0C 4) = false := Bool.eq_false_iff.2 hno
        rw [pwrState, mgmtCmd_of_runs h]
        simp [hmove, hcommit, hno']
      rw [hgo]
      exact endsOnly_answer h.found h.kept [] 0xB1 []
    · rw [pwrState_of_allowed (mv := mv) h hmove hcommit hok (fun h3 => absurd h2 (by simp only [st, h3]; decide)) rfl,
        if_neg (by show ¬ st = 3; omega), if_neg (by show ¬ st = 4; omega), if_neg (by omega),
        powerDrainDone_of_idle (mv := mv) (move_begun ..) (by show st ≠ 3; omega) fun k hk hg => by rw [til_begun]; exact hidle k hk hg]
      refine ⟨ends_answerCmd_started h.found h.kept ?_ 0 _, ?_⟩
      · rw [hub_tracePower, hub_setPower, inProg_begun]
      · simp [Blk.pwrAnswer, pwr_tracePower, pwr_setPower, pwr_begun, hmove, mv, st, mask]
    · obtain ⟨k, hk, hg, hrunning⟩ := hbusy
      rw [pwrState_of_allowed (mv := mv) h hmove hcommit hok (fun h3 => absurd h2 (by simp only [st, h3]; decide)) rfl,
        if_neg (by show ¬ st = 3; omega), if_neg (by show ¬ st = 4; omega), if_neg (by omega),
        powerDrainDone_of_busy (mv := mv) (move_begun ..) hk hg (by rw [til_begun]; exact hrunning)]
      exact ⟨only_of_blk (onlyBlk_of_rest (rest_begun ..)), pwr_begun ..⟩
    · have hok : pwrAllowed s.blk.pwr.state s.blk.pwr.mask (r.arg 0x08 1) (r.arg 0x0C 4) = true := by
        rw [hs2, show r.arg 0x08 1 = 3 from h3]
        rfl
      rw [pwrState_of_allowed (mv := mv) h hmove hcommit hok (fun _ => ⟨hp1, hp5⟩) rfl, if_pos (show st = 3 from h3)]
      refine ⟨only_of_blk (onlyBlk_of_rest ?_), ?_, ?_, ?_⟩
      · rw [rest_holdBegin (by decide) (by decide)]
        exact rest_of_onlyBlk (onlyBlk_mono (by decide) (onlyBlk_of_rest (rest_begun s.blk c mv)))
      · simp [Blk.holdBegin, pwr_setPairPins]
      · simp [Blk.holdBegin, pwr_setPairPins, pwr_begun]
      · simp [Blk.holdBegin, pwr_setPairPins, leases_begun, tb_begun]
    · have hok : pwrAllowed s.blk.pwr.state s.blk.pwr.mask (r.arg 0x08 1) (r.arg 0x0C 4) = true := by
        rw [hs3, show r.arg 0x08 1 = 2 from h2]
        rfl
      rw [pwrState_of_allowed (mv := mv) h hmove hcommit hok (fun h3 => absurd (h2.symm.trans h3) (by decide)) rfl,
        if_neg (by show ¬ st = 3; omega), if_neg (by show ¬ st = 4; omega), if_pos hs3]
      refine ⟨ends_answerCmd_started h.found h.kept ?_ 0 _, ?_, ?_, ?_, ?_⟩
      · rw [hub_tracePower, hub_holdEnd, inProg_begun]
      · simp [Blk.pwrAnswer, pwr_tracePower, pwr_holdEnd]
      · simp [Blk.pwrAnswer, pwr_tracePower, pwr_holdEnd]
      · simp [Blk.pwrAnswer, pwr_tracePower, pwr_holdEnd]
      · simp [Blk.pwrAnswer, leases_tracePower, leases_holdEnd, pwr_begun, leases_begun, tb_begun]
    · have hok : pwrAllowed s.blk.pwr.state s.blk.pwr.mask (r.arg 0x08 1) (r.arg 0x0C 4) = true := by
        rw [hs3, show r.arg 0x08 1 = 4 from h4]
        rfl
      rw [pwrState_of_allowed (mv := mv) h hmove hcommit hok (fun h3 => absurd (h4.symm.trans h3) (by decide)) rfl,
        if_neg (by show ¬ st = 3; omega), if_pos (show st = 4 from h4)]
      obtain ⟨hans, hgone⟩ := ends_answerCmd_started (s := s) (x := (begun s.blk c mv).tracePower 2 4 0) h.found h.kept
        (by rw [hub_tracePower, inProg_begun]) 0 (toLe 1 4)
      have hhub (x : Blk) : x.powerOff.hub = x.hub := hub_setPower ..
      refine ⟨⟨?_, ?_⟩, ?_, rfl⟩
      · simp only [Answered, Blk.win, hhub]
        exact hans
      · simp only [hhub]
        exact hgone
      · simp [Blk.powerOff, pwr_setPower]
  · refine does_of_live (f := holdEntryDrained) rfl hup ?_
    obtain ⟨x, hx, hhub⟩ := holdEntryDrained_of_closed hup hm hst hfree hclosed
    rw [hx]
    refine ⟨ends_answerCmd hc hl (by rw [hub_tracePower, hub_setPower, hhub]) 0 _, ?_, ?_, ?_⟩ <;>
      simp [Blk.pwrAnswer, pwr_tracePower, pwr_setPower]
  · exact stays_of_live (f := holdEntryDrained) rfl fun _ => by simp [holdEntryDrained, hm, hbusy]
  · refine does_of_live (f := powerTimeout) rfl hup ?_
    rw [powerTimeout_of_late hup hm hst hlate]
    refine ⟨endsOnly_answerCmd hc hl (by rw [hub_tracePower]; rfl) ?_ 0xB0 [], ?_, ?_⟩
    · rw [rest_tracePower (by decide) (by decide) (by decide) (by decide) (by decide) (by decide) (by decide), rest_flag (by decide)]
      exact rest_with_pwr (by decide) ..
    · simp [pwr_tracePower]
    · rw [reg_answerCmd_ne _ _ _ _ (by decide)]
      exact (qbit_trace quietBit_pwrErr _ _).trans (bit_reg_flag _ _ _ (by decide))
  · exact stays_of_live (f := powerTimeout) rfl fun _ => by simp [powerTimeout, hm, hearly]

end Sys2Proof.Proofs
end

/-! ## The timebase's reference, counter dumps, and the counters that a partition reads (R418 to R435) -/
section
namespace Sys2Proof.Proofs

open Sys2Proof.Machine

theorem quietBit_obsErr {i : Nat} (h1 : i ≠ 1) (h2 : i ≠ 2) : QuietBit Reg.obsErr i where
  refuse q _ := by simp only [Reg.obsErr, Reg.haRefuseCnt]; omega
  retry := by decide
  lossCnt := by decide
  revoked q _ := .inl (by simp only [Reg.obsErr, Reg.haErr]; omega)
  hold := .inl (by decide)
  logLost := .inr h2
  traceLost := .inr h1

/-! ### The reference -/

/-- With no write that waits on the mirror, fencing ends none (R360). -/
theorem endMirrors_of_none {b : Blk} (h : ∀ x ∈ b.coh.txns, ∀ m d o, x.phase ≠ .mirror m d o) (status : Nat) :
    b.endMirrors status = { b with pair.poisons := [] } := by
  unfold Blk.endMirrors
  dsimp only
  rw [List.filter_eq_nil_iff.2]
  · rfl
  · intro t ht
    have hp := h t ht
    cases hph : t.phase with
    | mirror m d o => exact absurd hph (hp m d o)
    | _ => simp

theorem becomeFenced_of_none {b : Blk} (h : ∀ x ∈ b.coh.txns, ∀ m d o, x.phase ≠ .mirror m d o)
    (hact : ¬ (b.pair.role = 0 || b.pair.fenced) = true) :
    b.becomeFenced = ((({ b with pair.fenced := true, pair.copy := none, pair.poisons := [] } : Blk).flag Reg.hubPairErr 1).trace
      { source := 12, event := 3, unit := 112, a := b.pair.term }).setPairPins := by
  have hm := endMirrors_of_none (b := { b with pair.fenced := true, pair.copy := none }) h 0x93
  unfold Blk.becomeFenced
  rw [if_neg hact]
  simp only [hm]

/-- Fencing sets neither the timebase nor its error bits. -/
theorem becomeFenced_keeps {b : Blk} (h : ∀ x ∈ b.coh.txns, ∀ m d o, x.phase ≠ .mirror m d o) {wd i : Nat} (hq : QuietBit wd i)
    (hne : wd ≠ Reg.hubPairErr) :
    b.becomeFenced.frozen = b.frozen ∧ b.becomeFenced.tb = b.tb ∧ bitAt b.becomeFenced wd i = bitAt b wd i ∧
      (b.pair.role ≠ 0 → b.becomeFenced.pair.fenced = true) := by
  by_cases hact : (b.pair.role = 0 || b.pair.fenced) = true
  · have hgo : b.becomeFenced = b := by
      unfold Blk.becomeFenced
      rw [if_pos hact]
    rw [hgo]
    refine ⟨rfl, rfl, rfl, fun hr => ?_⟩
    simpa [hr] using hact
  · rw [becomeFenced_of_none h hact]
    set x := ((({ b with pair.fenced := true, pair.copy := none, pair.poisons := [] } : Blk).flag Reg.hubPairErr 1).trace
      { source := 12, event := 3, unit := 112, a := b.pair.term })
    have hx : rest ([.regs, .pair] ++ quietRegions) x = rest ([.regs, .pair] ++ quietRegions) b := by
      rw [rest_trace (by decide) (by decide) (by decide) (by decide) (by decide) (by decide) (by decide), rest_flag (by decide)]
      exact rest_with_pair (by decide) ..
    have hpins := rest_setPairPins (L := [.pair]) (by decide) x
    have hbit : bitAt x wd i = bitAt b wd i := (qbit_trace hq ..).trans (bitAt_flag (.inl hne) _)
    have hpair : x.pair.fenced = true := by
      rw [pair_of_rest (L := quietRegions) (rest_trace (by decide) (by decide) (by decide) (by decide) (by decide) (by decide) (by decide) ..) (by decide)]
      rfl
    refine ⟨(frozen_of_rest hpins (by decide)).trans (frozen_of_rest hx (by decide)),
      (tb_of_rest hpins (by decide)).trans (tb_of_rest hx (by decide)),
      (bitAt_of_regs (regs_of_rest hpins (by decide)) ..).trans hbit, fun _ => ?_⟩
    unfold Blk.setPairPins
    split <;> exact hpair

theorem referenceLost_runs {b : Blk} (hrun : b.frozen = false) (h : ∀ x ∈ b.coh.txns, ∀ m d o, x.phase ≠ .mirror m d o) :
    (referenceLost b).frozen = true ∧ (referenceLost b).tb = b.tb ∧ bitAt (referenceLost b) Reg.obsErr 5 = true ∧
      (b.pair.role ≠ 0 → (referenceLost b).pair.fenced = true) := by
  have hgo : referenceLost b = (({ b with frozen := true } : Blk).flag Reg.obsErr 5).becomeFenced := by simp [referenceLost, hrun]
  obtain ⟨hf, ht, hb, hp⟩ := becomeFenced_keeps (b := ({ b with frozen := true } : Blk).flag Reg.obsErr 5) h
    (quietBit_obsErr (i := 5) (by decide) (by decide)) (by decide)
  rw [hgo]
  exact ⟨hf, ht, hb.trans (bit_reg_flag _ _ _ (by decide)), hp⟩

/-! ### Counter dumps -/

/-- A counter dump that is due (R430). -/
theorem counterDump_of_due {b : Blk} (hup : b.dead = false) (hrun : b.frozen = false) {p t : Nat} (hp : b.str.run.trace.dumpUs * 1000 = p)
    (ht : b.tb / p * p = t) (hpos : p ≠ 0) (hdue : b.rings.dumpAt < t) :
    counterDump b = if b.pwr.state = 3 then { b with rings := { b.rings with dumpAt := t } }
      else match b.rings.dump.ext.bind (fun i => (b.extEnt i).map (fun e => (i, e))) with
        | none => { b with rings := { b.rings with dumpAt := t } }
        | some (i, e) =>
          if (b.extRt i).state == .init then ({ b with rings := { b.rings with dumpAt := t } } : Blk).dumpLose
          else ({ b with rings := { b.rings with dumpAt := t } } : Blk).dump e t := by
  subst hp ht
  unfold counterDump
  simp only [hup, hrun, hpos, if_false, not_le.2 hdue, decide_false, Bool.or_self, Bool.false_eq_true]
  rfl

theorem length_dumpBytes (b : Blk) (t : Nat) : (b.dumpBytes t).length =
    (0x2900 + 144 * (if b.field Reg.obsDumpCfg 20 1 = 1 then b.smpOn else []).length + 127) / 128 * 128 :=
  length_fit ..

theorem length_dumpBytes_with_rings (b : Blk) (t : Nat) (x : Rings) :
    (({ b with rings := x } : Blk).dumpBytes t).length = (b.dumpBytes t).length := by
  rw [length_dumpBytes, length_dumpBytes]
  rfl

theorem dump_of_full {b : Blk} {e : ExtEnt} {t : Nat} (h : b.rings.dump.free e.size < (b.dumpBytes t).length) : b.dump e t = b.dumpLose := by
  unfold Blk.dump
  exact if_pos h

theorem ringPut_written {b : Blk} {e : ExtEnt} {r : Ring} {bs : Bytes} (h : (b.ringPut e r bs).1 = true) :
    (b.ringPut e r bs).2.2 = { r with head := (r.head + bs.length) % e.size } :=
  if_pos h

theorem dump_of_put {b y : Blk} {e : ExtEnt} {t : Nat} {r : Ring} (h : (b.dumpBytes t).length ≤ b.rings.dump.free e.size)
    (hput : b.ringPut e b.rings.dump (b.dumpBytes t) = (true, y, r)) :
    b.dump e t = { y with rings := { y.rings with dump := r, dumpSeq := b.rings.dumpSeq + 1, dumpSkip := 0 } } := by
  unfold Blk.dump
  generalize b.dumpBytes t = bs at h hput ⊢
  simp only [hput, not_lt.2 h, if_false, if_true]

theorem dump_of_written {b : Blk} {e : ExtEnt} {t : Nat} (h : (b.dumpBytes t).length ≤ b.rings.dump.free e.size)
    (hput : (b.ringPut e b.rings.dump (b.dumpBytes t)).1 = true) :
    (b.dump e t).rings.dumpSeq = b.rings.dumpSeq + 1 ∧ (b.dump e t).rings.dumpSkip = 0 ∧
      (b.dump e t).rings.dump = { b.rings.dump with head := (b.rings.dump.head + (b.dumpBytes t).length) % e.size } := by
  have hring := ringPut_written hput
  rcases hx : b.ringPut e b.rings.dump (b.dumpBytes t) with ⟨ok, y, r⟩
  rw [hx] at hput hring
  obtain rfl : ok = true := hput
  rw [dump_of_put h hx]
  exact ⟨rfl, rfl, hring⟩

/-! ### The settings of a programmable counter -/

theorem pc_pcCtlWrite {b : Blk} {v : Word} {u i : Nat} (h : b.pcSel = some (u, i)) :
    (pcCtlWrite b v).pc u i = ⟨v.toNat % 256, v.toNat / 256 % 64, v.getLsbD 14, v.getLsbD 15 && i % 2 == 1,
      (b.pc u i).ovf && !v.getLsbD 16, 0⟩ := by
  have h0 : fld v.toNat 7 0 = v.toNat % 256 := rfl
  have h8 : fld v.toNat 13 8 = v.toNat / 256 % 64 := by simp [fld, Nat.shiftRight_eq_div_pow]
  unfold pcCtlWrite
  simp only [h, h0, h8]
  split
  · rw [Blk.pc, tget_tmod_ne _ _ _ _ _ (by omega), tget_tset_self]
    rfl
  · rw [Blk.pc, tget_tset_self]
    rfl

/-- Settles O58. -/
theorem countersAndDumpsAct : Obligations.CountersAndDumpsAct := by
  unfold Obligations.CountersAndDumpsAct
  refine ⟨fun s hrun hm => ⟨_, rfl, referenceLost_runs hrun hm⟩, fun s n hf => ?_, fun s n hf => ?_,
    fun s hup hrun => ?_, fun s v u i h hsel => ?_, fun s c r => ⟨fun h hmay => ?_, fun h hmay => ?_, fun h hmay => ?_,
    fun hno => ⟨fun h => ?_, fun h => ?_, fun h => ?_⟩⟩⟩
  · have hgo : referenceRestored s.blk n.toNat = (({ s.blk with frozen := false } : Blk).aonAdd 224 1).log 0x18 112 0 s.blk.tb n.toNat := by
      simp [referenceRestored, hf]
    have hr := rest_log (L := quietRegions) (by decide) (by decide) (by decide) (by decide) (by decide) (by decide) (by decide)
      (({ s.blk with frozen := false } : Blk).aonAdd 224 1) 0x18 112 0 s.blk.tb n.toNat 0
    exact does_of_blk (g := referenceRestored s.blk n.toNat) rfl hgo ⟨frozen_of_rest hr (by decide), (tb_of_rest hr (by decide)).trans rfl⟩
  · have hgo : referenceRestored s.blk n.toNat = s.blk := by simp [referenceRestored, hf]
    simp only [exec, execReferenceRestored, act, hgo]
  · intro p at_ hp
    have hrunning (hdue : s.blk.rings.dumpAt < at_) := counterDump_of_due hup hrun (p := p) (t := at_) rfl rfl hp hdue
    refine ⟨fun hnot => ?_, fun hdue hskip => ?_, fun i e hdue hpwr hi he hinit hfull => ?_,
      fun i e hdue hpwr hi he hinit hroom => ?_⟩
    · refine stays_of_live (f := counterDump) rfl fun _ => ?_
      unfold counterDump
      simp only [show s.blk.str.run.trace.dumpUs * 1000 ≠ 0 from hp, if_false]
      rw [if_pos (by simp only [Bool.or_eq_true, decide_eq_true_eq]; exact .inr hnot)]
    · refine does_of_live (f := counterDump) rfl hup ?_
      have hgo : counterDump s.blk = { s.blk with rings := { s.blk.rings with dumpAt := at_ } } := by
        rw [hrunning hdue]
        rcases hskip with h3 | hnone
        · rw [if_pos h3]
        · split
          · rfl
          · simp [hnone]
      rw [hgo]
      exact ⟨only_of_blk (onlyBlk_of_rest (rest_with_rings (by decide) ..)), rfl⟩
    · refine does_of_live (f := counterDump) rfl hup ?_
      have hgo : counterDump s.blk = ({ s.blk with rings := { s.blk.rings with dumpAt := at_ } } : Blk).dumpLose := by
        rw [hrunning hdue]
        simp only [hpwr, if_false, hi, he, Option.bind_some, Option.map_some, beq_iff_eq, hinit]
        exact dump_of_full (by rw [length_dumpBytes_with_rings]; exact hfull)
      rw [hgo]
      refine ⟨only_of_blk (onlyBlk_of_rest ?_), rfl, rfl, rfl, bit_reg_flag _ _ _ (by decide)⟩
      rw [rest_dumpLose (by decide) (by decide)]
      exact rest_with_rings (by decide) ..
    · intro b1 hput
      refine does_of_live (f := counterDump) rfl hup ?_
      have hgo : counterDump s.blk = b1.dump e at_ := by
        rw [hrunning hdue]
        simp only [hpwr, if_false, hi, he, Option.bind_some, Option.map_some, beq_iff_eq, hinit]
        rfl
      have hlen : (b1.dumpBytes at_).length = (s.blk.dumpBytes at_).length := length_dumpBytes_with_rings ..
      obtain ⟨hseq, hskip, hdump⟩ := dump_of_written (b := b1) (e := e) (t := at_) (by rw [hlen]; exact hroom) hput
      rw [hgo]
      refine ⟨only_of_blk (onlyBlk_of_rest ?_), hseq, hskip, hdump.trans (by rw [hlen])⟩
      rw [rest_dump (by decide) (by decide) (by decide) (by decide) (by decide) (by decide) (by decide)]
      exact rest_with_rings (by decide) ..
  · refine does_of_live (f := fun b => b.posted (fun b => pcCtlWrite b v)) rfl h.up ?_
    rw [posted_of_hostWrites h]
    refine ⟨only_of_blk (onlyBlk_of_rest ?_), pc_pcCtlWrite hsel⟩
    simp only [pcCtlWrite, hsel]
    split <;> simp [rest]
  · refine does_of_live (f := fun b => ctrRead b c) rfl h.up ?_
    rw [ctrRead, hubCmd_of_runs h]
    simp only [hmay, Bool.not_true, Bool.false_eq_true, if_false]
    exact endsOnly_answer h.found h.kept [] 0 _
  · refine does_of_live (f := fun b => smpRead b c) rfl h.up ?_
    rw [smpRead, hubCmd_of_runs h]
    simp only [hmay, Bool.not_true, Bool.false_eq_true, if_false]
    split
    · exact endsOnly_answer h.found h.kept [] 0 _
    · exact endsOnly_answer h.found h.kept [] 0 _
  · refine does_of_live (f := fun b => tstepRead b c) rfl h.up ?_
    rw [tstepRead, hubCmd_of_runs h]
    simp only [hmay, Bool.not_true, Bool.false_eq_true, if_false]
    split
    · exact endsOnly_answer h.found h.kept [] 0 _
    · exact endsOnly_answer h.found h.kept [] 0 _
  · refine does_of_live (f := fun b => ctrRead b c) rfl h.up ?_
    rw [ctrRead, hubCmd_of_runs h]
    simp only [hno, Bool.not_false, if_true]
    exact endsOnly_answer h.found h.kept [] 0xC0 []
  · refine does_of_live (f := fun b => smpRead b c) rfl h.up ?_
    rw [smpRead, hubCmd_of_runs h]
    simp only [hno, Bool.not_false, if_true]
    exact endsOnly_answer h.found h.kept [] 0xC0 []
  · refine does_of_live (f := fun b => tstepRead b c) rfl h.up ?_
    rw [tstepRead, hubCmd_of_runs h]
    simp only [hno, Bool.not_false, if_true]
    exact endsOnly_answer h.found h.kept [] 0xC0 []

end Sys2Proof.Proofs
end

/-! ## The commands of the security block (R372 to R375, R380, R386 to R389) -/
section
namespace Sys2Proof.Proofs

open Sys2Proof.Machine

/-! ### Reads of images -/

theorem mgmtRec_of_runs {b : Blk} {c : CmdId} {op : Nat} {r : CmdRec} (h : MgmtRuns b c op r) : b.mgmtRec c op = some r := by
  obtain ⟨hup, hacc, hworks, hfound, hcode, hturn, -⟩ := h
  simp [Blk.mgmtRec, hfound, hup, hacc, hworks, hcode, hturn]

theorem withGood_of_not_may {b : Blk} (h : b.mayRead = false) (r : CmdRec) (n : Nat) (host : HostResult) (bad : Nat) (go : Blk → Blk) :
    b.withGood r n host bad go = b := by
  simp [Blk.withGood, Blk.withHost, mgmtRead_of_not_may h]

theorem readGood_of_not_may {b : Blk} (h : b.mayRead = false) (r : CmdRec) (n : Nat) (host : HostResult) : b.readGood r n host = none := by
  simp [Blk.readGood, mgmtRead_of_not_may h]

/-- A read of n bytes that is over hands on what came, cut or filled to n. -/
theorem read_of_room {b : Blk} {r : CmdRec} (hmay : b.mayRead = true) (hroom : ReadRoom b r) (n : Nat) (bs : Bytes) (bad : Nat) :
    b.readGood r n (.data bs false) = some (fit n bs) ∧
    ∃ x, ReadDone b x ∧ ∀ go, b.withGood r n (.data bs false) bad go = go x := by
  obtain ⟨x, hx, hd⟩ := mgmtRead_of_room hmay hroom (host := .data bs false) (by simp) (r.arg 0x08 8) (r.arg 0x10 4) n
  refine ⟨?_, x, hd, fun go => ?_⟩
  · simp [Blk.readGood, hx, hostStatus, hostEp, hostBytes]
  · simp [Blk.withGood, Blk.withHost, hx, hostStatus, hostEp]

theorem ReadDone.only {b x : Blk} (h : ReadDone b x) {L : List Region} (hL : .hub ∈ L) : Sys2Proof.Proofs.rest L x = Sys2Proof.Proofs.rest L b :=
  rest_of_onlyBlk (onlyBlk_mono (by simpa using hL) (onlyBlk_of_rest h.rest))

/-- A command answered once its read is over does nothing else. -/
theorem endsOnly_answer_read {s : State} {x : Blk} {c : CmdId} {r : CmdRec} (hc : s.blk.cmd c = some r) (hl : r.lost = false)
    (hd : ReadDone s.blk x) (st : Nat) (res : Bytes) : EndsOnly [] s { s with blk := x.answerCmd c st res } c r st res :=
  endsOnly_answerCmd hc hl hd.inProg (hd.only (by simp)) st res

/-! ### Firmware and manifest -/

theorem exec_fwUpdate {s : State} {x : Blk} {m : Cells} (hup : s.blk.dead = false) (c : CmdId) (img : HostResult)
    (hx : fwUpdate s.blk s.nv.flash c img = x) (hm : fwUpdateFlash s.blk s.nv.flash c img = m) :
    exec (.fwUpdate c img) s = .next { s with blk := x, nv := { s.nv with flash := m } } := by
  simp [exec, execFwUpdate, hup, hx, hm]

theorem exec_manifestUpdate {s : State} {x : Blk} {m : Cells} (hup : s.blk.dead = false) (c : CmdId) (man : HostResult)
    (hx : manifestUpdate s.blk s.nv.flash c man = x) (hm : manifestFlash s.blk s.nv.flash c man = m) :
    exec (.manifestUpdate c man) s = .next { s with blk := x, nv := { s.nv with flash := m } } := by
  simp [exec, execManifestUpdate, hup, hx, hm]

theorem fwUpdate_taken {b x : Blk} {m : Cells} {c : CmdId} {r : CmdRec} {bs img : Bytes} (h : MgmtRuns b c 0x21 r)
    (hidle : b.mgmt.fwWriting = none) (hread : ∀ go, b.withGood r (r.arg 0x14 4) (.data bs false) 0xA0 go = go x)
    (hacc : b.fwAccepted m r (.data bs false) = some img) :
    fwUpdate b m c (.data bs false) = { x.startCmd c with mgmt.fwWriting := some (c, img) } := by
  rw [fwUpdate, mgmtCmd_of_runs h]
  simp only [hidle, hread, hacc]

theorem fwUpdate_refused {b x : Blk} {m : Cells} {c : CmdId} {r : CmdRec} {bs : Bytes} (h : MgmtRuns b c 0x21 r)
    (hidle : b.mgmt.fwWriting = none) (hread : ∀ go, b.withGood r (r.arg 0x14 4) (.data bs false) 0xA0 go = go x)
    (hacc : b.fwAccepted m r (.data bs false) = none) : fwUpdate b m c (.data bs false) = x.answerCmd c 0xA0 [] := by
  rw [fwUpdate, mgmtCmd_of_runs h]
  simp only [hidle, hread, hacc]

theorem fwUpdateFlash_taken {b : Blk} {m : Cells} {c : CmdId} {r : CmdRec} {img : Bytes} {host : HostResult} {e : DirEntry}
    (h : MgmtRuns b c 0x21 r) (hidle : b.mgmt.fwWriting = none) (hacc : b.fwAccepted m r host = some img) (he : dirFind m 2 = some e) :
    fwUpdateFlash b m c host = cclear m e.offset (max e.length img.length) := by
  unfold fwUpdateFlash
  simp only [mgmtRec_of_runs h, hidle, hacc, he]

theorem fwUpdateFlash_refused {b : Blk} {m : Cells} {c : CmdId} {r : CmdRec} {host : HostResult} (h : MgmtRuns b c 0x21 r)
    (hidle : b.mgmt.fwWriting = none) (hacc : b.fwAccepted m r host = none) : fwUpdateFlash b m c host = m := by
  unfold fwUpdateFlash
  rw [mgmtRec_of_runs h]
  cases dirFind m 2 with
  | none => rfl
  | some e => simp only [hidle, hacc]

/-- An image is accepted only for a slot that the directory names (R373). -/
theorem slot_of_fwAccepted {b : Blk} {m : Cells} {r : CmdRec} {img : HostResult} {x : Bytes} (h : b.fwAccepted m r img = some x) :
    ∃ e, dirFind m 2 = some e := by
  simp only [Blk.fwAccepted, Option.filter_eq_some_iff, Bool.and_eq_true] at h
  exact Option.isSome_iff_exists.1 h.2.1

theorem slot_of_manifestAccepted {b : Blk} {m : Cells} {r : CmdRec} {man : HostResult} {x : Bytes} (h : b.manifestAccepted m r man = some x) :
    ∃ e, dirFind m 3 = some e := by
  simp only [Blk.manifestAccepted, Option.filter_eq_some_iff, Bool.and_eq_true] at h
  exact Option.isSome_iff_exists.1 h.2.1.1

theorem fwAccepted_of_not_may {b : Blk} (h : b.mayRead = false) (m : Cells) (r : CmdRec) (img : HostResult) : b.fwAccepted m r img = none := by
  simp [Blk.fwAccepted, readGood_of_not_may h]

theorem manifestAccepted_of_not_may {b : Blk} (h : b.mayRead = false) (m : Cells) (r : CmdRec) (man : HostResult) :
    b.manifestAccepted m r man = none := by
  simp [Blk.manifestAccepted, readGood_of_not_may h]

/-! ### Zeroisation and recovery -/

/-- A controller that is zeroised has no work, no structure and no key (R389). -/
theorem zeroise_clears (b : Blk) :
    b.zeroise.sec = { b.sec with
      keySlots := [], kek := zeros32, sessions := [], ideKeys := [], ideActive := [], aliasKey := none, zeroised := true,
      guard := b.sec.guard.map (fun (g : Guard) =>
        { g with issuers := g.issuers.map (fun (e : Issuer) => { e with wrapped := zeros e.wrapped.length }) }) } ∧
    b.zeroise.str.loaded = false ∧ b.zeroise.ext = {} ∧ b.zeroise.coh = {} ∧ b.zeroise.pins.devFault = true := by
  have hans : b.answerZeroised.sec = b.sec :=
    sec_of_rest (L := [.regs, .hub]) (rest_answerZeroised (by decide) (by decide) b) (by decide)
  set x := b.answerZeroised with hx
  have hsent : ((x.hub.apt.foldl (fun b a => b.pcie (.cplAbort a.tag)) x)).sec = x.sec :=
    keeps_foldl (fun y : Blk => y.sec) (fun y a => sec_of_rest (L := [.hub]) (rest_pcie (by decide) ..) (by decide)) _ x
  have hend := rest_invEnd (L := [.hub]) (by decide) x.dropWork
  have hz : b.zeroise = x.dropWork.invEnd.zeroKeys := rfl
  have hsec : x.dropWork.invEnd.sec = b.sec := (sec_of_rest hend (by decide)).trans (hsent.trans hans)
  rw [hz]
  refine ⟨?_, ?_, ?_, ?_, ?_⟩
  · simp only [Blk.zeroKeys, hsec]
  · exact congrArg StrSt.loaded (str_of_rest hend (by decide))
  · exact ext_of_rest hend (by decide)
  · exact coh_of_rest hend (by decide)
  · exact congrArg Pins.devFault (pins_of_rest hend (by decide))

/-- The boot chain of a controller without an owner ends before the structure (R371, R372). -/
theorem bootGo_unowned {b : Blk} (h : b.sec.otp.ownerSet = false) (m : Cells) (vendor fw : Bytes) :
    (b.bootGo m vendor fw).hub = b.hub ∧ (b.bootGo m vendor fw).str = b.str ∧
    (b.bootGo m vendor fw).sec.recovery = b.sec.recovery ∧ (b.bootGo m vendor fw).sec.ownerless = true ∧
    (b.bootGo m vendor fw).mgmt.fwImage = fw ∧ (b.bootGo m vendor fw).sec.svn = u8 fw 6 := by
  have hnone : (flashObj m 3).filter (fun o => b.sec.otp.ownerSet && ownerOk b.sec.otp.ownerHash o) = none := by
    cases flashObj m 3 <;> simp [h]
  simp [Blk.bootGo, hnone, Blk.draw]

theorem bootLoadNow_of_none {b : Blk} (h : b.str.boot = none) : b.bootLoadNow = b := by
  unfold Blk.bootLoadNow
  simp only [h]

theorem keeps_startPorts {γ : Type} (P : Blk → γ) (hlink : ∀ (b : Blk) n f, P (b.modLink n f) = P b) (b : Blk) : P b.startPorts = P b := by
  unfold Blk.startPorts
  refine keeps_foldl P (fun x n => ?_) _ _
  split
  · exact hlink ..
  · rfl

/-- The block where FW_RECOVER has answered and left recovery, before its boot chain goes on (R372). -/
def outOfRecovery (b : Blk) (c : CmdId) : Blk :=
  { b.answerCmd c 0 [] with sec.recovery := false, pins.devFault := (b.answerCmd c 0 []).pwr.trip }

theorem fwRecover_of_read {b x : Blk} {m : Cells} {c : CmdId} {r : CmdRec} {bs : Bytes} (h : MgmtRuns b c 0x29 r)
    (hrec : b.sec.recovery = true) (hread : ∀ go, b.withGood r (r.arg 0x14 4) (.data bs false) 0xA0 go = go x) (hsec : x.sec = b.sec) :
    fwRecover b m c (.data bs false) =
      if firmwareOk b.sec.otp.minSvn b.sec.fwKey (fit (r.arg 0x14 4) bs) then
        ((outOfRecovery x c).bootGo m ((flashObj m 1).getD []) (fit (r.arg 0x14 4) bs)).bootLoadNow.startPorts
      else x.answerCmd c 0xA0 [] := by
  rw [fwRecover, mgmtCmd_of_runs h]
  simp only [hrec, Bool.not_true, Bool.false_eq_true, if_false, hread, hsec, hostBytes]
  by_cases hok : firmwareOk b.sec.otp.minSvn b.sec.fwKey (fit (r.arg 0x14 4) bs) = true
  · simp only [hok, Bool.not_true, Bool.false_eq_true, if_false, if_true]
    rfl
  · simp only [hok, Bool.not_false, if_true, Bool.false_eq_true, if_false]

/-! ### The commands -/

theorem exec_ownerProvision {s : State} {x : Blk} {o : Otp} (hup : s.blk.dead = false) (c : CmdId) (blob : HostResult)
    (hx : ownerProvision s.blk c blob = x) (ho : ownerOtp s.blk s.nv.otp c blob = o) :
    exec (.ownerProvision c blob) s = .next { s with blk := x, nv := { s.nv with otp := o } } := by
  simp [exec, execOwnerProvision, hup, hx, ho]

theorem exec_fwSvnCommit {s : State} {x : Blk} {o : Otp} (hup : s.blk.dead = false) (c : CmdId) (hx : fwSvnCommit s.blk c = x)
    (ho : fwSvnOtp s.blk s.nv.otp c = o) : exec (.fwSvnCommit c) s = .next { s with blk := x, nv := { s.nv with otp := o } } := by
  simp [exec, execFwSvnCommit, hup, hx, ho]

theorem exec_fwRecover {s : State} (hup : s.blk.dead = false) (c : CmdId) (img : HostResult) :
    exec (.fwRecover c img) s = .next { s with blk := fwRecover s.blk s.nv.flash c img } := by
  simp [exec, execFwRecover, hup]

theorem certRead_of_room {b : Blk} {c : CmdId} {r : CmdRec} (h : MgmtRuns b c 0x28 r) (hn : b.sec.chain.length ≤ r.arg 0x14 4) :
    certRead b c = if !(b.win r.f).master then b
      else (b.hostPut r.f (r.arg 0x10 4) (r.arg 0x08 8) b.sec.chain).answerCmd c 0 (toLe 4 b.sec.chain.length) := by
  rw [certRead, mgmtCmd_of_runs h]
  simp only [not_lt.2 hn, if_false]

/-- The OTP bits that OWNER_PROVISION leaves where its blob opens (R368, R375). -/
theorem ownerOtp_opened {b : Blk} {c : CmdId} {r : CmdRec} {host : HostResult} {body : Bytes} (h : MgmtRuns b c 0x23 r)
    (hset : b.sec.otp.ownerSet = false) (hopen : b.blobOpened r host = some body) (o : Otp) :
    ownerOtp b o c host = o.setOwner body := by
  simp [ownerOtp, mgmtRec_of_runs h, hopen, hset]

theorem ownerOtp_shut {b : Blk} {c : CmdId} {r : CmdRec} {host : HostResult} (h : MgmtRuns b c 0x23 r)
    (hopen : b.blobOpened r host = none) (o : Otp) : ownerOtp b o c host = o := by
  simp [ownerOtp, mgmtRec_of_runs h, hopen]

theorem ownerOtp_set {b : Blk} (hset : b.sec.otp.ownerSet = true) (c : CmdId) (host : HostResult) (o : Otp) : ownerOtp b o c host = o := by
  unfold ownerOtp
  split <;> simp [hset]

/-- Settles O54, command by command. -/
theorem securityCommandsAct : Obligations.SecurityCommandsAct := by
  unfold Obligations.SecurityCommandsAct
  refine ⟨fun s c r h => ?_, fun s c r h => ?_, fun s c r bs h hidle => ⟨fun hno => ?_, fun hmay hroom => ?_⟩,
    fun s c r host x e h hw he => ?_, fun s c r bs h => ⟨fun hno => ?_, fun hmay hroom => ?_⟩, fun s c r h => ?_,
    fun s c r bs h => ⟨fun hset => ?_, fun hset hno => ?_, fun hset hnv hmay hroom => ?_⟩, fun s c r h => ?_,
    fun s c r h => ⟨fun hno => ?_, fun hok => ?_⟩, fun s c r h => ?_, fun s c r h => ?_,
    fun s c r bs h hrec hown hmay hroom hboot => ?_, fun s c r host h hrec => ?_, fun s v h => ⟨fun hv => ?_, fun hv => ?_⟩⟩
  · refine does_of_live (f := fun b => secInfo b c) rfl h.up ?_
    rw [secInfo, mgmtCmd_of_runs h]
    exact endsOnly_answer h.found h.kept [] 0 _
  · refine does_of_live (f := fun b => ideInfo b c) rfl h.up ?_
    rw [ideInfo, mgmtCmd_of_runs h]
    exact endsOnly_answer h.found h.kept [] 0 _
  · have hgo : fwUpdate s.blk s.nv.flash c (.data bs false) = s.blk := by
      rw [fwUpdate, mgmtCmd_of_runs h]
      simp only [hidle, withGood_of_not_may hno]
    exact exec_fwUpdate h.up c _ hgo (fwUpdateFlash_refused h hidle (fwAccepted_of_not_may hno ..))
  · obtain ⟨-, x, hd, hread⟩ := read_of_room hmay hroom (r.arg 0x14 4) bs 0xA0
    cases hacc : s.blk.fwAccepted s.nv.flash r (.data bs false) with
    | none =>
      refine ⟨_, exec_fwUpdate h.up c _ (fwUpdate_refused h hidle hread hacc) (fwUpdateFlash_refused h hidle hacc), ?_⟩
      exact endsOnly_answer_read h.found h.kept hd 0xA0 []
    | some img =>
      obtain ⟨e, he⟩ := slot_of_fwAccepted hacc
      refine ⟨_, exec_fwUpdate h.up c _ (fwUpdate_taken h hidle hread hacc) (fwUpdateFlash_taken h hidle hacc he), ?_⟩
      simp only [he]
      refine ⟨onlyBlk_of_rest ?_, ?_, trivial, trivial⟩
      · refine (rest_with_mgmt (by decide) _ _).trans ((rest_startCmd (by decide) ..).trans (hd.only (by decide)))
      · simp only [Blk.startCmd, mgmt_of_rest hd.rest (by decide)]
  · have hgo : fwUpdate s.blk s.nv.flash c host = ({ s.blk with mgmt.fwWriting := none } : Blk).answerCmd c 0 [] := by
      rw [fwUpdate, mgmtCmd_of_runs h]
      simp only [hw, beq_self_eq_true, if_true]
    have hfl : fwUpdateFlash s.blk s.nv.flash c host = dirSetLength (s.blk.flashWrite (cclear s.nv.flash e.offset
        (max e.length x.length)) e.offset x) 2 x.length := by
      unfold fwUpdateFlash
      simp only [mgmtRec_of_runs h, hw, he, beq_self_eq_true, if_true]
    refine ⟨_, exec_fwUpdate h.up c _ hgo hfl, onlyBlk_of_rest ?_, by simp, ends_answerCmd h.found h.kept (by rfl) 0 [], rfl, rfl⟩
    exact (rest_answerCmd (by decide) (by decide) ..).trans (rest_with_mgmt (by decide) ..)
  · have hgo : manifestUpdate s.blk s.nv.flash c (.data bs false) = s.blk := by
      rw [manifestUpdate, mgmtCmd_of_runs h]
      simp only [withGood_of_not_may hno]
    have hfl : manifestFlash s.blk s.nv.flash c (.data bs false) = s.nv.flash := by
      simp [manifestFlash, mgmtRec_of_runs h, manifestAccepted_of_not_may hno]
    exact exec_manifestUpdate h.up c _ hgo hfl
  · obtain ⟨-, x, hd, hread⟩ := read_of_room hmay hroom 512 bs 0xA0
    cases hacc : s.blk.manifestAccepted s.nv.flash r (.data bs false) with
    | none =>
      have hgo : manifestUpdate s.blk s.nv.flash c (.data bs false) = x.answerCmd c 0xA0 [] := by
        rw [manifestUpdate, mgmtCmd_of_runs h]
        simp only [hread, hacc, Option.isSome_none, Bool.false_eq_true, if_false]
      have hfl : manifestFlash s.blk s.nv.flash c (.data bs false) = s.nv.flash := by
        simp [manifestFlash, mgmtRec_of_runs h, hacc]
      exact ⟨_, exec_manifestUpdate h.up c _ hgo hfl, endsOnly_answer_read h.found h.kept hd 0xA0 []⟩
    | some man =>
      obtain ⟨e, he⟩ := slot_of_manifestAccepted hacc
      have hgo : manifestUpdate s.blk s.nv.flash c (.data bs false) = x.answerCmd c 0 [] := by
        rw [manifestUpdate, mgmtCmd_of_runs h]
        simp only [hread, hacc, Option.isSome_some, if_true]
      have hfl : manifestFlash s.blk s.nv.flash c (.data bs false) =
          dirSetLength (s.blk.flashWrite (cclear s.nv.flash e.offset (max e.length 512)) e.offset man) 3 512 := by
        simp [manifestFlash, mgmtRec_of_runs h, hacc, he]
      refine ⟨_, exec_manifestUpdate h.up c _ hgo hfl, ?_⟩
      simp only [he]
      refine ⟨onlyBlk_of_rest ?_, ends_answerCmd h.found h.kept hd.inProg 0 [], trivial, trivial⟩
      exact (rest_answerCmd (by decide) (by decide) ..).trans (hd.only (by decide))
  · have hgo : fwSvnCommit s.blk c = ({ s.blk with sec.otp := s.blk.sec.otp.raiseSvn s.blk.sec.svn } : Blk).answerCmd c 0
        (toLe 1 (max s.blk.sec.otp.minSvn s.blk.sec.svn)) := by
      rw [fwSvnCommit, mgmtCmd_of_runs h]
      rfl
    refine ⟨_, exec_fwSvnCommit (o := s.nv.otp.raiseSvn s.blk.sec.svn) h.up c hgo (by simp [fwSvnOtp, mgmtRec_of_runs h]), rfl, rfl, onlyBlk_of_rest ?_, ?_,
      ends_answerCmd h.found h.kept (by rfl) 0 _⟩
    · exact (rest_answerCmd (by decide) (by decide) ..).trans (rest_with_sec (by decide) ..)
    · simp [Otp.raiseSvn]
  · have hgo : ownerProvision s.blk c (.data bs false) = s.blk.answerCmd c 0xA1 [] := by
      rw [ownerProvision, mgmtCmd_of_runs h]
      simp only [hset, if_true]
    exact ⟨_, exec_ownerProvision h.up c _ hgo (ownerOtp_set hset ..), endsOnly_answer h.found h.kept [] 0xA1 []⟩
  · have hgo : ownerProvision s.blk c (.data bs false) = s.blk := by
      rw [ownerProvision, mgmtCmd_of_runs h]
      simp only [hset, Bool.false_eq_true, if_false, withGood_of_not_may hno]
    exact exec_ownerProvision h.up c _ hgo (ownerOtp_shut h (by simp [Blk.blobOpened, readGood_of_not_may hno]) _)
  · obtain ⟨-, x, hd, hread⟩ := read_of_room hmay hroom 160 bs 0xA2
    cases hopen : s.blk.blobOpened r (.data bs false) with
    | none =>
      have hgo : ownerProvision s.blk c (.data bs false) = x.answerCmd c 0xA2 [] := by
        rw [ownerProvision, mgmtCmd_of_runs h]
        simp only [hset, Bool.false_eq_true, if_false, hread, hopen]
      exact ⟨_, exec_ownerProvision h.up c _ hgo (ownerOtp_shut h hopen _), endsOnly_answer_read h.found h.kept hd 0xA2 []⟩
    | some body =>
      have hgo : ownerProvision s.blk c (.data bs false) =
          ({ x with sec.otp := s.blk.sec.otp.setOwner body } : Blk).answerCmd c 0 [] := by
        rw [ownerProvision, mgmtCmd_of_runs h]
        simp only [hset, Bool.false_eq_true, if_false, hread, hopen]
      refine ⟨_, exec_ownerProvision h.up c _ hgo (ownerOtp_opened h hset hopen _), rfl, onlyBlk_of_rest ?_,
        ends_answerCmd h.found h.kept (by exact hd.inProg) 0 [], ?_, ?_, ?_, ?_⟩
      · exact (rest_answerCmd (by decide) (by decide) ..).trans ((rest_with_sec (by decide) _ _).trans (hd.only (by decide)))
      · simp [Otp.setOwner, hnv]
      · simp [Otp.setOwner, hnv]
      · simp [Otp.setOwner, hnv]
      · simp [sec_of_rest hd.rest (by decide)]
  · intro n
    refine does_of_live (f := fun b => debugChallenge b c) rfl h.up ?_
    rw [debugChallenge, mgmtCmd_of_runs h]
    refine ⟨endsOnly_answerCmd h.found h.kept (by rfl) ?_ 0 _, by simp [Blk.draw, n]⟩
    simp [rest, Blk.draw]
  · refine does_of_live (f := fun b => debugUnlock b c) rfl h.up ?_
    have hgo : debugUnlock s.blk c = (({ s.blk with sec.nonce := none } : Blk).flag Reg.secErr 4).answerCmd c 0xA3 [] := by
      rw [debugUnlock, mgmtCmd_of_runs h]
      simp only [hno, Bool.not_false, if_true]
    rw [hgo]
    refine ⟨endsOnly_answerCmd h.found h.kept (by rfl) ?_ 0xA3 [], by simp, bit_reg_answerCmd_flag _ _ _ _ (by decide) (by decide)⟩
    exact (rest_flag (by decide) ..).trans (rest_with_sec (by decide) ..)
  · refine does_of_live (f := fun b => debugUnlock b c) rfl h.up ?_
    rw [debugUnlock, mgmtCmd_of_runs h]
    simp only [hok, Bool.not_true, Bool.false_eq_true, if_false]
    by_cases hsig : s.blk.debugOk (r.arg 0x08 1) (sl r.bytes 0x10 64) = true
    · simp only [hsig, Bool.not_true, Bool.false_eq_true, if_false, if_true]
      have hclear := (zeroise_clears ((({ s.blk with sec.nonce := none } : Blk).flag Reg.secErr 3).answerCmd c 0 [])).1
      refine ⟨?_, trivial, fun h1 => ?_, fun h2 => ?_⟩
      · split
        · simp [hclear]
        · simp
      · have hne : r.arg 0x08 1 ≠ 2 := by omega
        simp only [hne, if_false]
        obtain ⟨⟨hnv, hpend, honly⟩, hans, hgone⟩ := endsOnly_answerCmd (l := [.sec])
          (x := ({ s.blk with sec.nonce := none } : Blk).flag Reg.secErr 3) h.found h.kept (by rfl)
          ((rest_flag (by decide) ..).trans (rest_with_sec (by decide) ..)) 0 []
        exact ⟨⟨hnv, hpend, onlyBlk_of_rest ((rest_with_sec (by decide) _ _).trans (rest_of_onlyBlk honly))⟩, hans, hgone⟩
      · simp only [h2, if_true]
        simp [hclear]
    · simp only [hsig, Bool.not_false, if_true, Bool.false_eq_true, if_false]
      refine ⟨by simp, endsOnly_answerCmd h.found h.kept (by rfl) ?_ 0xA4 [], bit_reg_answerCmd_flag _ _ _ _ (by decide) (by decide), by simp⟩
      exact (rest_flag (by decide) ..).trans (rest_with_sec (by decide) ..)
  · refine does_of_live (f := fun b => zeroizeCmd b c) rfl h.up ?_
    rw [zeroizeCmd, mgmtCmd_of_runs h]
    obtain ⟨hsec, hload, hext, hcoh, hpins⟩ := zeroise_clears (s.blk.answerCmd c 0 [])
    simp only [hsec, hload, hext, hcoh, hpins, and_self]
  · intro n
    refine ⟨fun hn => ?_, fun hn hmaster hide => ?_, fun hn hmaster => ?_⟩
    · refine does_of_live (f := fun b => certRead b c) rfl h.up ?_
      rw [certRead, mgmtCmd_of_runs h]
      simp only [show s.blk.sec.chain.length > r.arg 0x14 4 from hn, if_true]
      exact endsOnly_answer h.found h.kept [] 0x78 _
    · refine does_of_live (f := fun b => certRead b c) rfl h.up ?_
      rw [certRead_of_room h hn]
      simp only [hmaster, Bool.not_true, Bool.false_eq_true, if_false]
      refine ⟨endsOnly_answerCmd h.found h.kept (inProg_hostPut ..) (rest_hostPut (by simp) ..) 0 _, ?_⟩
      obtain ⟨l, hl⟩ := out_answerCmd (s.blk.hostPut r.f (r.arg 0x10 4) (r.arg 0x08 8) s.blk.sec.chain) c 0 (toLe 4 s.blk.sec.chain.length)
      exact ⟨l, hl.trans (by rw [hostPut_of_ideOk hide])⟩
    · refine stays_of_live (f := fun b => certRead b c) rfl fun _ => ?_
      rw [certRead_of_room h hn]
      simp [hmaster]
  · obtain ⟨-, x, hd, hread⟩ := read_of_room hmay hroom (r.arg 0x14 4) bs 0xA0
    have hsec : x.sec = s.blk.sec := sec_of_rest hd.rest (by decide)
    refine does_of_blk (exec_fwRecover h.up c _) (fwRecover_of_read h hrec hread hsec) ⟨rfl, ?_⟩
    split
    · have hown' : (outOfRecovery x c).sec.otp.ownerSet = false := by simp [outOfRecovery, hsec, hown]
      obtain ⟨hhub, hstr, hrecov, hless, hfw, hsvn⟩ := bootGo_unowned hown' s.nv.flash ((flashObj s.nv.flash 1).getD []) (fit (r.arg 0x14 4) bs)
      have hstr' : ((outOfRecovery x c).bootGo s.nv.flash ((flashObj s.nv.flash 1).getD []) (fit (r.arg 0x14 4) bs)).str.boot = none := by
        rw [hstr]
        simp [outOfRecovery, str_of_rest hd.rest (by decide), hboot]
      rw [bootLoadNow_of_none hstr']
      obtain ⟨hans, hgone⟩ := ends_answerCmd (s := s) h.found h.kept hd.inProg 0 []
      refine ⟨⟨?_, ?_⟩, ?_, ?_, ?_, ?_⟩
      · simp only [Answered, Blk.win, keeps_startPorts (fun x => x.hub) (fun _ _ _ => rfl), hhub]
        exact hans
      · simp only [keeps_startPorts (fun x => x.hub) (fun _ _ _ => rfl), hhub]
        exact hgone
      · simp only [keeps_startPorts (fun x => x.sec) (fun _ _ _ => rfl), hrecov]
        rfl
      · simp only [keeps_startPorts (fun x => x.sec) (fun _ _ _ => rfl), hless]
      · simp only [keeps_startPorts (fun x => x.mgmt) (fun _ _ _ => rfl), hfw]
      · simp only [keeps_startPorts (fun x => x.sec) (fun _ _ _ => rfl), hsvn]
    · exact endsOnly_answer_read h.found h.kept hd 0xA0 []
  · have hgo : fwRecover s.blk s.nv.flash c host = s.blk.answerCmd c 0xA7 [] := by
      rw [fwRecover, mgmtCmd_of_runs h]
      simp only [hrec, Bool.not_false, if_true]
    exact does_of_blk (exec_fwRecover h.up c _) hgo (endsOnly_answer h.found h.kept [] 0xA7 [])
  · refine does_of_live (f := fun b => ideRequireWrite b v) rfl h.up ?_
    have hgo : ideRequireWrite s.blk v = s.blk.flag Reg.secIdeCfg 0 := by
      rw [ideRequireWrite, posted_of_hostWrites h]
      simp only [hv, if_true]
    rw [hgo]
    exact ⟨only_of_blk (onlyBlk_flag _ _ _), Blk.reg_setReg_self ..⟩
  · refine stays_of_live (f := fun b => ideRequireWrite b v) rfl fun _ => ?_
    rw [ideRequireWrite, posted_of_hostWrites h]
    simp only [hv, Bool.false_eq_true, if_false]

end Sys2Proof.Proofs
end

/-! ## The SMBus target and the TAP (R388, R448 to R450) -/
section
namespace Sys2Proof.Proofs

open Sys2Proof.Machine

/-- A command whose meaning is `act f` does f to the block, on a device that is down too. -/
theorem does_of_act {i : Instr} {s : State} {f : Blk → Blk} {b : Blk} {p : State → Prop} (hex : exec i s = act f s) (hb : f s.blk = b)
    (hp : p { s with blk := b }) : Does i s p :=
  does_of_blk hex hb hp

/-- What the SMBus target shows on SDA after a transaction. -/
def smbShows (s : State) (v : Option Byte) (t : State) : Prop := Only [.pins] s t ∧ t.blk.pins = { s.blk.pins with smb := v }

theorem smbShows_with (s : State) (v : Option Byte) : smbShows s v { s with blk := { s.blk with pins.smb := v } } :=
  ⟨only_of_blk (onlyBlk_of_rest (rest_with_pins (by decide) ..)), rfl⟩

theorem toNat_smbAddr (b : Blk) : (BitVec.ofNat 7 b.smbAddr).toNat = b.smbAddr := by
  have hlt : b.smbAddr < 2 ^ 7 := by
    simp only [Blk.smbAddr]
    omega
  rw [BitVec.toNat_ofNat, Nat.mod_eq_of_lt hlt]

/-- The target answers at its own address while VAUX is on (R449). -/
theorem smbusReadByte_of_addr {b : Blk} (hon : b.pwr.on = true) : ¬ (!b.pwr.on || decide ((BitVec.ofNat 7 b.smbAddr).toNat ≠ b.smbAddr)) = true := by
  rw [toNat_smbAddr]
  simp [hon]

theorem smbusReadByte_nack {b : Blk} {a : BitVec 7} {w : SmbOp}
    (h : a ≠ BitVec.ofNat 7 b.smbAddr ∨ ∀ k : Byte, w = .readByte k → 3 < k.toNat) :
    smbusReadByte b a.toNat w = { b with pins.smb := none } := by
  unfold smbusReadByte
  split
  · rfl
  · next hmine =>
    have ha : a = BitVec.ofNat 7 b.smbAddr := by
      apply BitVec.eq_of_toNat_eq
      rw [toNat_smbAddr]
      exact (show b.pwr.on = true ∧ a.toNat = b.smbAddr by simpa using hmine).2
    have hk := h.resolve_left (not_not.2 ha)
    split
    · exact absurd (hk _ rfl) (by decide)
    · exact absurd (hk _ rfl) (by decide)
    · exact absurd (hk _ rfl) (by decide)
    · exact absurd (hk _ rfl) (by decide)
    · rfl

/-- What the TAP shows after an instruction. -/
def tapShows (s : State) (ir : Nat) (v : Word) (t : State) : Prop :=
  Only [.pins] s t ∧ t.blk.pins = { s.blk.pins with tap := ir, tdo := v, extest := false }

theorem tapShows_tapTo (s : State) (ir : Nat) (v : Word) : tapShows s ir v { s with blk := s.blk.tapTo ir v } :=
  ⟨only_of_blk (onlyBlk_of_rest (rest_with_pins (by decide) ..)), rfl⟩

/-- The TAP runs while VAUX is on and the device is not in OFF (R450). -/
theorem tap_runs {b : Blk} (hon : b.pwr.on = true) (hoff : b.pwr.state ≠ 4) : ¬ (!b.pwr.on || decide (b.pwr.state = 4)) = true := by
  simp [hon, hoff]

/-- Settles O60, operation by operation. -/
theorem sidebandShowsTheDevice : Obligations.SidebandShowsTheDevice := by
  unfold Obligations.SidebandShowsTheDevice
  refine ⟨fun s hon => ?_, fun s hon hoff => ?_⟩
  · have hmine := smbusReadByte_of_addr hon
    have hrun {w : SmbOp} {v : Option Byte}
        (hv : smbusReadByte s.blk (BitVec.ofNat 7 s.blk.smbAddr).toNat w = { s.blk with pins.smb := v }) :
        Does (.smbusReadByte (BitVec.ofNat 7 s.blk.smbAddr) w) s (smbShows s v) :=
      does_of_act (f := fun b => smbusReadByte b (BitVec.ofNat 7 s.blk.smbAddr).toNat w) rfl hv (smbShows_with s v)
    refine ⟨fun hnone => hrun ?_, fun hsome => hrun ?_, hrun ?_, hrun ?_, ?_, fun a w hw => ?_⟩
    · unfold smbusReadByte
      rw [if_neg hmine]
      simp [hnone]
    · unfold smbusReadByte
      rw [if_neg hmine]
      simp [hsome]
    · unfold smbusReadByte
      rw [if_neg hmine]
      rfl
    · unfold smbusReadByte
      rw [if_neg hmine]
      rfl
    · have hgo : smbusReadByte s.blk (BitVec.ofNat 7 s.blk.smbAddr).toNat (.readByte 3) =
          { s.blk with fresh := s.blk.fresh + 1, pins.smb := some (BitVec.ofNat 8 (min 255 (Config.vin s.blk.fresh / 500))) } := by
        unfold smbusReadByte
        rw [if_neg hmine]
        rfl
      exact does_of_act (f := fun b => smbusReadByte b (BitVec.ofNat 7 s.blk.smbAddr).toNat (.readByte 3)) rfl hgo
        ⟨only_of_blk (onlyBlk_of_rest (by simp [rest])), rfl⟩
    · exact does_of_act (f := fun b => smbusReadByte b a.toNat w) rfl (smbusReadByte_nack hw) (smbShows_with s none)
  · intro shows free
    have hon' := tap_runs hon hoff
    have hrun {op : JtagOp} {ir : Nat} {v : Word} (hv : jtagAccess s.blk op = s.blk.tapTo ir v) : Does (.jtagAccess op) s (tapShows s ir v) :=
      does_of_act (f := fun b => jtagAccess b op) rfl hv (tapShows_tapTo s ir v)
    refine ⟨hrun ?_, hrun ?_, hrun ?_, fun w => ?_, fun hload => hrun ?_, fun hload => ?_,
      fun off => ⟨fun hd => hrun ?_, fun hd => hrun ?_⟩, fun i k => ?_, fun off v => ⟨fun hd => ⟨?_, ?_⟩, fun hd => ⟨hrun ?_, hrun ?_⟩⟩⟩
    · rw [jtagAccess, if_neg hon']
      rfl
    · rw [jtagAccess, if_neg hon']
      rfl
    · rw [jtagAccess, if_neg hon']
    · have hgo : jtagAccess s.blk (.samplePreload w) =
          { s.blk with
            fresh := s.blk.fresh + 1, pins.boundary := w, pins.tap := 2, pins.tdo := Config.boundary s.blk.fresh, pins.extest := false } := by
        rw [jtagAccess, if_neg hon']
        rfl
      exact does_of_act (f := fun b => jtagAccess b (.samplePreload w)) rfl hgo
        ⟨⟨only_of_blk (onlyBlk_of_rest (by simp [rest])), rfl⟩, rfl, rfl, rfl⟩
    · rw [jtagAccess, if_neg hon']
      simp only [hload, if_true]
    · have hgo : jtagAccess s.blk .extest =
          { s.blk with
            fresh := s.blk.fresh + 1, pins.tap := 3, pins.tdo := Config.boundary s.blk.fresh, pins.extest := true } := by
        rw [jtagAccess, if_neg hon']
        simp only [hload, Bool.false_eq_true, if_false]
        rfl
      refine does_of_act (f := fun b => jtagAccess b .extest) rfl hgo
        ⟨⟨only_of_blk (onlyBlk_of_rest (by simp [rest])), rfl⟩, rfl, rfl, fun i w own => ?_⟩
      simp [Blk.padShow, Blk.extestOn, hload]
    · have ht : s.blk.tapReads off.toNat = true := by simpa [Blk.tapReads] using hd
      rw [jtagAccess, if_neg hon']
      simp only [ht, if_true]
    · have ht : s.blk.tapReads off.toNat = false := by
        rcases hd with h0 | ⟨h1, hoff⟩
        · simp [Blk.tapReads, h0]
        · simp [Blk.tapReads, h1, hoff]
      rw [jtagAccess, if_neg hon']
      simp only [ht, Bool.false_eq_true, if_false]
    · intro g
      have hg : (if k = 0 then s.blk.rings.log else if k = 1 then s.blk.rings.dump else s.blk.rings.trace) = g := by
        fin_cases k <;> rfl
      refine ⟨fun hd => ⟨hrun ?_, hrun ?_⟩, fun hd => ⟨hrun ?_, hrun ?_⟩⟩
      · rw [jtagAccess, if_neg hon']
        simp only [not_lt.2 hd, if_false]
      · rw [jtagAccess, if_neg hon']
        simp only [not_lt.2 hd, if_false, hg]
      · rw [jtagAccess, if_neg hon']
        simp only [hd, Nat.zero_lt_one, if_true]
      · rw [jtagAccess, if_neg hon']
        simp only [hd, Nat.zero_lt_one, if_true]
    · have hgo : jtagAccess s.blk (.writeRegister off v) = (s.blk.writeReg off.toNat v).tapTo 5 0 := by
        rw [jtagAccess, if_neg hon']
        simp only [hd, Nat.lt_irrefl, if_false]
      exact does_of_act (f := fun b => jtagAccess b (.writeRegister off v)) rfl hgo
        ⟨rfl, rfl, onlyBlk_of_rest (rest_with_pins (by decide) ..), rfl⟩
    · have hgo : jtagAccess s.blk .fullAccess =
          { s.blk with fresh := s.blk.fresh + 1, pins.tap := 5, pins.tdo := Config.jtagData s.blk.fresh, pins.extest := false } := by
        rw [jtagAccess, if_neg hon']
        simp only [hd, Nat.lt_irrefl, if_false]
        rfl
      exact does_of_act (f := fun b => jtagAccess b .fullAccess) rfl hgo
        ⟨only_of_blk (onlyBlk_of_rest (by simp [rest])), rfl, rfl⟩
    · rw [jtagAccess, if_neg hon']
      simp only [hd, if_true]
    · rw [jtagAccess, if_neg hon']
      simp only [hd, if_true]

end Sys2Proof.Proofs
end

/-! ## Snapshots, markers and the rings (R427, R429, R433 to R439) -/
section
namespace Sys2Proof.Proofs

open Sys2Proof.Machine

/-! ### Snapshots -/

theorem snapDest_startCmd (b : Blk) (c : CmdId) (a n : Nat) : (b.startCmd c).snapDest a n = b.snapDest a n := rfl

theorem endsOnly_answerCmd_started {s : State} {c : CmdId} {r : CmdRec} (hc : s.blk.cmd c = some r) (hl : r.lost = false) (st : Nat)
    (res : Bytes) : EndsOnly [] s { s with blk := (s.blk.startCmd c).answerCmd c st res } c r st res :=
  ⟨only_of_blk (onlyBlk_of_rest ((rest_answerCmd (by decide) (by decide) ..).trans (rest_startCmd (by decide) ..))),
    ends_answerCmd_started hc hl rfl st res⟩

/-- SNAPSHOT as it is taken up (R435, R436). -/
theorem snapshotCmd_of_new {b : Blk} {c : CmdId} {r : CmdRec} (h : HubRuns b c 0x53 r) (hnew : r.started = false) {a : Nat}
    (ha : (if r.arg 0x08 8 = 0 then b.snapAddr else r.arg 0x08 8) = a) :
    snapshotCmd b c = if ((b.startCmd c).snapTrigger 1 0xFF a (r.arg 0x10 4) (some c)).1 ≠ 0 then
      ((b.startCmd c).snapTrigger 1 0xFF a (r.arg 0x10 4) (some c)).2.answerCmd c
        ((b.startCmd c).snapTrigger 1 0xFF a (r.arg 0x10 4) (some c)).1 []
      else ((b.startCmd c).snapTrigger 1 0xFF a (r.arg 0x10 4) (some c)).2 := by
  subst ha
  rw [snapshotCmd, hubCmd_of_runs h]
  simp only [hnew, Bool.false_eq_true, if_false]

theorem snapTrigger_busy {b : Blk} (h : b.rings.snap ≠ none) (trigger slot addr limit : Nat) (c : CmdId) :
    b.snapTrigger trigger slot addr limit (some c) = (0xC1, b) := by
  simp [Blk.snapTrigger, Option.isSome_iff_ne_none.2 h]

theorem snapTrigger_astray {b : Blk} {addr limit : Nat} (h : b.rings.snap = none) (hst : b.snapDest addr (max 1 limit) ≠ 0)
    (trigger slot : Nat) (c : Option CmdId) :
    b.snapTrigger trigger slot addr limit c = (b.snapDest addr (max 1 limit), b) := by
  simp only [Blk.snapTrigger, h, Option.isSome_none, Bool.false_eq_true, if_false, hst, ne_eq, not_false_eq_true, if_true]

theorem snapTrigger_taken {b : Blk} {addr limit : Nat} (h : b.rings.snap = none) (hst : b.snapDest addr (max 1 limit) = 0)
    (trigger slot : Nat) (c : Option CmdId) :
    ∃ secs, b.snapTrigger trigger slot addr limit c = (0, { b with
      fresh := b.fresh + 1
      rings := { b.rings with snap := some ⟨trigger, slot, b.tb, addr, limit, c, secs⟩, stopped := true } }) := by
  simp only [Blk.snapTrigger, h, Option.isSome_none, Bool.false_eq_true, if_false, hst, ne_eq, not_true_eq_false]
  exact ⟨_, rfl⟩

/-- The block where a snapshot has been written and issue goes on, unless HOLD is set (R436). -/
def snapWritten (b : Blk) (z : Snap) (bs : Bytes) : Blk :=
  { b.hubWrite z.addr bs with rings := { (b.hubWrite z.addr bs).rings with snap := none, stopped := decide (b.field Reg.obsSnapCfg 2 1 = 1) } }

/-- The block where the end of a snapshot is counted and logged, and flagged where it was cut (R436). -/
def snapLogged (b : Blk) (z : Snap) (cut : Bool) : Blk :=
  if cut then ((b.aonAdd 226 1).log 0x19 112 0 z.addr z.trigger).flag Reg.obsErr 4 else (b.aonAdd 226 1).log 0x19 112 0 z.addr z.trigger

theorem snapshotEnd_of_cmd {b : Blk} {z : Snap} {c : CmdId} (hup : b.dead = false) (hz : b.rings.snap = some z) (hc : z.cmd = some c) :
    snapshotEnd b = (snapLogged (snapWritten b z (b.snapBytes z).1) z (b.snapBytes z).2).answerCmd c 0
      (toLe 4 (b.snapBytes z).1.length ++ toLe 1 (b2n (b.snapBytes z).2)) := by
  unfold snapshotEnd
  simp only [hz, hup, hc, Bool.false_eq_true, if_false]
  rfl

theorem keeps_snapLogged {γ : Type} (P : Blk → γ) (haon : ∀ b i n, P (Blk.aonAdd b i n) = P b)
    (hlog : ∀ b code unit part a v f, P (Blk.log b code unit part a v f) = P b) (hflag : ∀ b off i, P (Blk.flag b off i) = P b)
    (b : Blk) (z : Snap) (cut : Bool) : P (snapLogged b z cut) = P b := by
  unfold snapLogged
  split
  · rw [hflag, hlog, haon]
  · rw [hlog, haon]

theorem hub_hubWrite (b : Blk) (a : Nat) (bs : Bytes) : (b.hubWrite a bs).hub = b.hub :=
  hub_of_rest (L := quietRegions) (rest_hubWrite (by decide) (by decide) (by decide) (by decide) (by decide) (by decide) (by decide) ..)
    (by decide)

/-! ### A marker in the trace ring -/

theorem length_traceBytes (r : TraceRec) (t : Nat) : (r.bytes t).length = 64 := by
  simp [TraceRec.bytes, toLe]

/-- A trace record goes to the head of its ring where that has room and has lost nothing (R433). -/
theorem trace_of_room {b : Blk} {r : TraceRec} {i : Nat} {e : ExtEnt} (hon : b.traceOn r.source = true) (hext : b.rings.trace.ext = some i)
    (he : b.extEnt i = some e) (hrt : (b.extRt i).state ≠ .init) (hwrap : b.rings.trace.wrap = false) (hlost : b.rings.trace.lost = 0)
    (hroom : 64 ≤ b.rings.trace.free e.size) (hput : (b.ringPut e b.rings.trace (r.bytes b.tb)).1 = true) :
    (b.trace r).rings.trace = { b.rings.trace with head := (b.rings.trace.head + 64) % e.size } := by
  have hex : b.traceExt = some e := by simp [Blk.traceExt, hext, he, hrt]
  have hroomed : b.traceRoom e = b := by simp [Blk.traceRoom, hwrap]
  have hcaught : b.traceCatch e = b := by simp [Blk.traceCatch, hlost]
  have hto : b.traceTo e r = b.tracePut e (r.bytes b.tb) := by
    unfold Blk.traceTo
    simp only [hroomed, hcaught, hlost, not_lt.2 hroom, ne_eq, not_true_eq_false, decide_false, Bool.or_self, Bool.false_eq_true, if_false]
  have htrace : b.trace r = b.tracePut e (r.bytes b.tb) := by
    unfold Blk.trace
    simp only [hon, hext, he, Option.bind_some, Option.isNone_some, Bool.not_true, Bool.or_self, Bool.false_eq_true, if_false, hex, hto]
  rw [htrace, ← length_traceBytes r b.tb]
  unfold Blk.tracePut
  simp only [hput, if_true]
  exact ringPut_written hput

theorem trace_off {b : Blk} {r : TraceRec} (hoff : b.traceOn r.source = false) : b.trace r = b := by
  unfold Blk.trace
  simp only [hoff, Bool.not_false, Bool.true_or, if_true]

/-! ### The rings -/

/-- May the dump ring use an extent: it is none, or an ACTIVE one of partition 0 (R439). -/
def dumpMayUse (b : Blk) (e : Option Nat) : Prop :=
  ∀ i, e = some i → (b.extEnt i).map (·.part) = some 0 ∧ (b.extRt i).state = .active

/-- OBS_RING_EXTENT names the extent of the dump ring, or is ignored (R427, R439). -/
theorem ringExtentWrite_dump {b : Blk} {v : Word} {e : Option Nat} (hsel : b.field Reg.obsRingSel 0 2 = 1)
    (he : (if v.getLsbD 31 then some (v.toNat % 2 ^ 18) else none) = e) :
    (dumpMayUse b e → ringExtentWrite b v = ((b.liveTrace (fun t => t.withExt 1 e)).modRing 1 (fun r => r.named e)).logFlush) ∧
    (¬ dumpMayUse b e → ringExtentWrite b v = b.flag Reg.obsErr 6) := by
  unfold ringExtentWrite
  simp only [hsel, he]
  cases e with
  | none => exact ⟨fun _ => rfl, fun hno => absurd (fun i hi => nomatch hi) hno⟩
  | some i =>
    have hiff : dumpMayUse b (some i) ↔ (((b.extEnt i).map (·.part)) == some 0 && (b.extRt i).state == .active) = true := by
      simp only [dumpMayUse, Bool.and_eq_true, beq_iff_eq]
      exact ⟨fun h => h i rfl, fun h j hj => Option.some.inj hj ▸ h⟩
    rw [hiff]
    refine ⟨fun h => ?_, fun h => ?_⟩
    · simp only [h]
      rfl
    · simp only [Bool.eq_false_iff.2 h]
      rfl

/-- The two words of TAIL of the dump ring (R427). -/
theorem tailWrite_dump {b : Blk} {hi : Bool} {v : Word} {x : Nat} (hsel : b.field Reg.obsRingSel 0 2 = 1)
    (hx : (if hi then b.rings.dump.tail % 2 ^ 32 + v.toNat % 256 * 2 ^ 32 else b.rings.dump.tail / 2 ^ 32 * 2 ^ 32 + v.toNat) = x) :
    tailWrite b hi v = { b with rings := { b.rings with dump := if x < b.ringSize then { b.rings.dump with tail := x } else b.rings.dump } } := by
  unfold tailWrite
  simp only [hsel, Blk.modRing, hx]
  rfl

/-- Settles O59. -/
theorem snapshotsAndRingsAct : Obligations.SnapshotsAndRingsAct := by
  unfold Obligations.SnapshotsAndRingsAct
  refine ⟨fun s c r h hnew => ?_, fun s z c r hup hz hcmd hc hl => ?_, fun s h => ⟨fun hnone => ?_, fun hsome => ?_⟩,
    fun s c r i e h hon hext he hrt hwrap hlost hroom => ?_, fun s c r h hoff => ?_, fun s v h hsel => ?_, fun s hi v h hsel => ?_⟩
  · intro a st
    have hrun {p : State → Prop} (hp : p { s with blk := snapshotCmd s.blk c }) : Does (.snapshot c) s p :=
      does_of_live (f := fun b => snapshotCmd b c) rfl h.up hp
    have heq := snapshotCmd_of_new h hnew (a := a) rfl
    refine ⟨fun hbusy => hrun ?_, fun hnone hst => hrun ?_, fun hnone hst => hrun ?_⟩
    · rw [heq, snapTrigger_busy (b := s.blk.startCmd c) hbusy]
      exact endsOnly_answerCmd_started h.found h.kept 0xC1 []
    · rw [heq, snapTrigger_astray (b := s.blk.startCmd c) hnone (by rw [snapDest_startCmd]; exact hst), snapDest_startCmd, if_pos hst]
      exact endsOnly_answerCmd_started h.found h.kept st []
    · obtain ⟨secs, hsecs⟩ := snapTrigger_taken (b := s.blk.startCmd c) (addr := a) (limit := r.arg 0x10 4) hnone
        (by rw [snapDest_startCmd]; exact hst) 1 0xFF (some c)
      rw [heq, hsecs, if_neg (by simp)]
      exact ⟨only_of_blk (onlyBlk_of_rest (by simp [rest, Blk.startCmd])), rfl, _, rfl, rfl, rfl, rfl, rfl, rfl⟩
  · intro x
    refine does_of_live (f := snapshotEnd) rfl hup ?_
    rw [snapshotEnd_of_cmd hup hz hcmd]
    refine ⟨ends_answerCmd hc hl ?_ 0 _, ?_, ?_⟩
    · rw [keeps_snapLogged (fun y => y.hub) (fun _ _ _ => rfl) hub_log (fun _ _ _ => rfl)]
      exact congrArg Hub.inProg (hub_hubWrite ..)
    · simp only [rings_answerCmd]
      rw [keeps_snapLogged (fun y => y.rings.snap) (fun _ _ _ => rfl) snap_log (fun _ _ _ => rfl)]
      rfl
    · simp only [rings_answerCmd]
      rw [keeps_snapLogged (fun y => y.rings.stopped) (fun _ _ _ => rfl) stopped_log (fun _ _ _ => rfl)]
      rfl
  · refine does_of_live (f := fun b => b.posted Blk.snapRelease) rfl h.up ?_
    rw [posted_of_hostWrites h]
    have hgo : s.blk.snapRelease = { s.blk with rings := { s.blk.rings with stopped := false } } := by simp [Blk.snapRelease, hnone]
    rw [hgo]
    exact ⟨only_of_blk (onlyBlk_of_rest (rest_with_rings (by decide) ..)), rfl⟩
  · refine stays_of_live (f := fun b => b.posted Blk.snapRelease) rfl fun _ => ?_
    rw [posted_of_hostWrites h]
    simp [Blk.snapRelease, Option.isSome_iff_ne_none.2 hsome]
  · intro m hput
    refine does_of_live (f := fun b => traceMark b c) rfl h.up ?_
    rw [traceMark, hubCmd_of_runs h]
    refine ⟨only_of_blk (onlyBlk_of_rest ?_), ends_answerCmd h.found h.kept (by rw [hub_trace]) 0 [], ?_⟩
    · rw [rest_answerCmd (by decide) (by decide)]
      exact rest_trace (by decide) (by decide) (by decide) (by decide) (by decide) (by decide) (by decide) ..
    · simp only [rings_answerCmd]
      exact trace_of_room hon hext he hrt hwrap hlost hroom hput
  · refine does_of_live (f := fun b => traceMark b c) rfl h.up ?_
    rw [traceMark, hubCmd_of_runs h]
    simp only [trace_off (b := s.blk) (r := { source := 13, event := 1, unit := 112, a := r.arg 0x08 8 }) hoff]
    exact endsOnly_answer h.found h.kept [] 0 []
  · intro e ok
    have hrun {p : State → Prop} (hp : p { s with blk := ringExtentWrite s.blk v }) : Does (.ringExtentWrite v) s p := by
      refine does_of_live (f := fun b => b.posted (fun b => ringExtentWrite b v)) rfl h.up ?_
      rw [posted_of_hostWrites h]
      exact hp
    obtain ⟨hyes, hno⟩ := ringExtentWrite_dump (b := s.blk) (v := v) (e := e) hsel rfl
    refine ⟨fun hok => hrun ?_, fun hok => hrun ?_⟩
    · rw [hyes hok]
      refine ⟨?_, ?_⟩
      · rw [ringDump_logFlush]
        rfl
      · rw [str_logFlush]
        rfl
    · rw [hno hok]
      exact ⟨only_of_blk (onlyBlk_flag _ _ _), bit_reg_flag _ _ _ (by decide)⟩
  · intro r x
    have hgo := tailWrite_dump (b := s.blk) (hi := hi) (v := v) (x := x) hsel rfl
    refine ⟨fun hin => ?_, fun hout => ?_⟩
    · refine does_of_live (f := fun b => b.posted (fun b => tailWrite b hi v)) rfl h.up ?_
      rw [posted_of_hostWrites h, hgo, if_pos hin]
      exact ⟨only_of_blk (onlyBlk_of_rest (rest_with_rings (by decide) ..)), rfl⟩
    · refine stays_of_live (f := fun b => b.posted (fun b => tailWrite b hi v)) rfl fun _ => ?_
      rw [posted_of_hostWrites h, hgo, if_neg (not_lt.2 hout)]

end Sys2Proof.Proofs
end

/-! ## Translations, page requests and invalidations (R326 to R328, R330 to R332, R380) -/
section
namespace Sys2Proof.Proofs

open Sys2Proof.Machine

/-! ### MOVEs in progress -/

theorem find?_map_of_key {α : Type} {p : α → Bool} {g : α → α} {l : List α} {a : α} (h : l.find? p = some a)
    (hg : ∀ x, p (g x) = p x) : (l.map (fun x => if p x then g x else x)).find? p = some (g a) := by
  induction l with
  | nil => simp at h
  | cons x t ih =>
    by_cases hx : p x = true
    · simp only [List.find?_cons, hx] at h
      obtain rfl := Option.some.inj h
      simp [hx, hg]
    · simp only [List.find?_cons, hx] at h
      simp [hx, ih h]

/-- A MOVE that is changed under its own name. -/
theorem moveOf_modMove {b : Blk} {f seq : Nat} {m : MoveRt} {g : MoveRt → MoveRt} (h : b.moveOf f seq = some m)
    (hg : ∀ x, (g x).f = x.f ∧ (g x).seq = x.seq) : (b.modMove f seq g).moveOf f seq = some (g m) :=
  find?_map_of_key (p := fun x : MoveRt => x.f == f && x.seq == seq) (g := g) (l := b.hub.moves) h fun x => by simp [hg x]

theorem moveOf_congr {x y : Blk} (h : x.hub.moves = y.hub.moves) (f seq : Nat) : x.moveOf f seq = y.moveOf f seq := by
  simp [Blk.moveOf, h]

/-- A descriptor that fails keeps all but its status. -/
theorem descAt_descFail {s : State} {x : Blk} {c : CmdId} {i : Nat} {m : MoveRt} {d : DescRt}
    (hm : x.moveOf c.f.val c.seq.toNat = some m) (hd : mget m.descs i = some d) (st : Nat) :
    descAt { s with blk := x.descFail c.f c.seq.toNat i st } c i = some { d with status := st } := by
  simp only [descAt, Blk.descFail]
  rw [moveOf_modMove (g := fun m => { m with failed := true, descs := mmod m.descs i (fun d => { d with status := st }) }) hm
    fun _ => ⟨rfl, rfl⟩]
  simp [mget_mmod_self, hd]

/-! ### The list of what waits -/

/-- Dropping the only transfer that waits leaves none. -/
theorem failWaits_single {b : Blk} {w : XferWait} (h : b.hub.waits = [w]) (err : Bool) :
    b.failWaits [w] err = ([(w.x, if err then w.x.errStatus else w.x.faultStatus)],
      { b with hub.waits := [], hub.faults := b.hub.faults.filter (fun e => e.1 != w.x) }) := by
  simp [Blk.failWaits, Blk.dropWait, Blk.dropFaults, h]

theorem failWaits_nil (b : Blk) (err : Bool) : b.failWaits [] err = ([], b) := rfl

/-! ### Translation Completions -/

theorem translationCompletion_in {b : Blk} {f : Nat} (hup : b.dead = false) (hin : b.ideIn true f = true) (pasid page : Nat)
    (res : TransResult) : translationCompletion b f pasid page res = Blk.xferFails (b.transDone f pasid page res) := by
  simp [translationCompletion, Blk.taken, hup, hin]

theorem mem_putAtc (n : Nat) (same : AtcEnt → Bool) (l : List AtcEnt) (e : AtcEnt) : e ∈ putAtc n same l e := by
  simp [putAtc]

/-- A page that a completion gives is in the ATC, and no transfer that waits takes it (R326). -/
theorem transDone_page {b : Blk} {f pasid page : Nat} {o : TransOut} {addr : DWord} {k : Nat} {r w u : Bool}
    (hfind : b.hub.trans.find? (fun t => t.f == f && t.pasid == pasid && t.page == page) = some o) (hfresh : o.stale = false)
    (hright : (r || w) = true)
    (hnone : b.hub.waits.filter (fun x => !x.parked && x.f == f && x.pasid == pasid && x.page == page) = []) :
    b.transDone f pasid page (.page addr k r w u) =
      ([], ({ b with hub.trans := b.hub.trans.erase o } : Blk).enterAtc f pasid page addr.toNat k r w u) := by
  unfold Blk.transDone
  simp only [hfind, hfresh, Bool.false_eq_true, if_false, hnone, hright, if_true, List.foldl_nil]

theorem covers_enterAtc (b : Blk) (f pasid page addr k : Nat) (r w u : Bool) :
    ∃ e ∈ (b.enterAtc f pasid page addr k r w u).hub.atc, e.covers f pasid page = true ∧ e.k = min k 18 ∧ e.r = r ∧ e.w = w ∧ e.u = u ∧
      (k ≤ 18 → e.addr = addr) := by
  refine ⟨_, mem_putAtc .., ?_, rfl, rfl, rfl, rfl, fun hk => ?_⟩
  · simp [AtcEnt.covers, Nat.shiftRight_eq_div_pow]
  · have hmin : min k 18 = k := min_eq_left hk
    simp only [hmin, Nat.div_eq_of_lt (Nat.mod_lt page (Nat.two_pow_pos k))]
    omega

theorem transDone_stale {b : Blk} {f pasid page : Nat} {o : TransOut}
    (hfind : b.hub.trans.find? (fun t => t.f == f && t.pasid == pasid && t.page == page) = some o) (hstale : o.stale = true)
    (hnone : b.hub.waits.filter (fun x => !x.parked && x.f == f && x.pasid == pasid && x.page == page) = []) (res : TransResult) :
    b.transDone f pasid page res = ([], ({ b with hub.trans := b.hub.trans.erase o } : Blk).incr Reg.xltStaleTransCnt) := by
  unfold Blk.transDone
  simp only [hfind, hstale, if_true, hnone]
  rfl

theorem transDone_err {b : Blk} {f pasid page : Nat} {o : TransOut} {w : XferWait}
    (hfind : b.hub.trans.find? (fun t => t.f == f && t.pasid == pasid && t.page == page) = some o) (hfresh : o.stale = false)
    (hw : b.hub.waits = [w]) (hmine : (!w.parked && w.f == f && w.pasid == pasid && w.page == page) = true) :
    b.transDone f pasid page .err = (({ b with hub.trans := b.hub.trans.erase o } : Blk).flag Reg.xltErr 5).failWaits [w] true := by
  unfold Blk.transDone
  simp only [hfind, hfresh, Bool.false_eq_true, if_false, hw, List.filter_cons, hmine, if_true, List.filter_nil]

/-! ### Page requests -/

/-- The block where a page request has been noted as sent, with PRG index 0 (R330). -/
def prqNoted (b : Blk) (r : PageReq) : Blk :=
  ({ b with hub.prqs := [{ r with sent := some (0, b.tb), limit := b.field Reg.xltPriCfg 0 16 }] } : Blk).incr Reg.xltPrqSentCnt

theorem pageRequest_single {b : Blk} {r : PageReq} (hup : b.dead = false) (hr : b.hub.prqs = [r]) (hsent : r.sent = none)
    (hmaster : (b.win r.f).master = true) (halloc : 0 < tget (fun _ => 0) b.hub.alloc r.f) :
    pageRequest b = ((prqNoted b r).event 112 4 none).pcie (.pageReq r.f r.pasid r.page r.write 0) := by
  have hfind : b.hub.prqs.find? (fun x => x.sent.isNone && (b.win x.f).master && (b.prqSent x.f).length < tget (fun _ => 0) b.hub.alloc x.f) =
      some r := by
    simp [hr, hsent, hmaster, halloc, Blk.prqSent]
  have hno : b.prgIndex r.f = 0 := by
    have hfree : b.prqSent r.f = [] := by simp [Blk.prqSent, hr, hsent]
    unfold Blk.prgIndex
    rw [hfree, show (513 : Nat) = 512 + 1 from rfl, List.range_succ_eq_map]
    rfl
  unfold pageRequest
  simp only [hfind]
  simp only [hup, hno, hr, List.filter_cons, hsent, Option.isSome_none, Bool.false_eq_true, if_false, List.filter_nil, List.length_nil,
    Bool.false_or, List.map_cons, if_true, List.map_nil, prqNoted]
  rw [if_neg (by decide)]

theorem prgResponse_in {b : Blk} {f : Nat} (hup : b.dead = false) (hin : b.ideIn true f = true) (i : Nat) (code : PrgCode) :
    prgResponse b f i code = Blk.xferFails (b.prgDone f i code) := by
  simp [prgResponse, Blk.taken, hup, hin]

theorem parkedOn_of_none {b : Blk} (h : ∀ w ∈ b.hub.waits, w.parked = false) (f pasid page : Nat) : b.parkedOn f pasid page = [] :=
  List.filter_eq_nil_iff.2 fun w hw => by simp [h w hw]

theorem prgDone_success {b : Blk} {f i : Nat} {r : PageReq}
    (hfind : b.hub.prqs.find? (fun r => r.f == f && (r.sent.map (·.1)) == some i) = some r) (hgone : r.gone = false)
    (hnone : ∀ w ∈ b.hub.waits, w.parked = false) : b.prgDone f i .success = ([], { b with hub.prqs := b.hub.prqs.erase r }) := by
  unfold Blk.prgDone
  simp only [hfind, hgone, Bool.false_eq_true, if_false, parkedOn_of_none (b := { b with hub.prqs := b.hub.prqs.erase r }) hnone]
  rfl

/-- A failure response stops the function's PRI, and what it has asked for is gone (R331). -/
theorem prgDone_failure {b : Blk} {f i : Nat} {r : PageReq}
    (hfind : b.hub.prqs.find? (fun r => r.f == f && (r.sent.map (·.1)) == some i) = some r)
    (hnone : ∀ w ∈ b.hub.waits, w.parked = false) :
    b.prgDone f i .failure = ([], ({ b.flag Reg.xltErr 0 with
      hub.stopped := with1 b.hub.stopped f
      hub.prqs := ((b.hub.prqs.erase r).filter (fun x => x.f != f || x.sent.isSome)).map (fun (x : PageReq) =>
        if x.f = f then { x with gone := true } else x) } : Blk).incr Reg.xltPrqFailCnt) := by
  have hmine : b.hub.waits.filter (fun w => w.parked && w.f == f) = [] :=
    List.filter_eq_nil_iff.2 fun w hw => by simp [hnone w hw]
  unfold Blk.prgDone
  simp only [hfind, Blk.flag, Blk.setReg, hmine]
  rfl

theorem priExpire_late {b : Blk} {f i a : Nat} {r : PageReq} {w : XferWait} (hup : b.dead = false) (hr : b.hub.prqs = [r]) (hf : r.f = f)
    (hsent : r.sent = some (i, a)) (hgone : r.gone = false) (hw : b.hub.waits = [w])
    (hpark : w.parked = true ∧ w.f = r.f ∧ w.pasid = r.pasid ∧ w.page = r.page) (hlate : a + r.limit * 1000000 < b.tb) :
    b.priExpire f i = ((({ b with hub.prqs := [{ r with gone := true }] } : Blk).flag Reg.xltErr 1).incr Reg.xltPrqFailCnt).failWaits [w] false := by
  obtain ⟨hp, hwf, hwp, hwg⟩ := hpark
  have hfind : b.hub.prqs.find? (fun r => r.f == f && (r.sent.map (·.1)) == some i && !r.gone) = some r := by
    simp [hr, hf, hsent, hgone]
  have hpo : ∀ x : Blk, x.hub.waits = [w] → x.parkedOn r.f r.pasid r.page = [w] := fun x hx => by simp [Blk.parkedOn, hx, hp, hwf, hwp, hwg]
  unfold Blk.priExpire
  simp only [hfind]
  simp only [hup, hsent, Option.map_some, Option.getD_some, not_le.2 hlate, decide_false, Bool.false_or, Bool.false_eq_true, if_false,
    hr, List.map_cons, if_true, List.map_nil, Blk.prqFail]
  exact congrArg (fun l => Blk.failWaits _ l false) (hpo _ (by exact hw))

theorem priExpire_early {b : Blk} {f i a : Nat} {r : PageReq} (hr : b.hub.prqs = [r]) (hf : r.f = f) (hsent : r.sent = some (i, a))
    (hgone : r.gone = false) (hearly : b.tb ≤ a + r.limit * 1000000) : b.priExpire f i = ([], b) := by
  have hfind : b.hub.prqs.find? (fun r => r.f == f && (r.sent.map (·.1)) == some i && !r.gone) = some r := by
    simp [hr, hf, hsent, hgone]
  unfold Blk.priExpire
  simp only [hfind]
  simp only [hsent, Option.map_some, Option.getD_some, hearly, decide_true, Bool.or_true, if_true]

/-! ### Invalidations -/

/-- An invalidation taken, before those that every engine has acknowledged are completed (R332). -/
def invNoted (b : Blk) (f itag : Nat) (pasid : Option Nat) (p n : Nat) : Blk :=
  { b.incr Reg.xltInvRxCnt with
    hub.atc := b.hub.atc.filter (fun e => !e.hits f pasid p n)
    hub.tlb := (b.hub.tlb.map (fun (e : Nat × List AtcEnt) => (e.1, e.2.filter (fun e => !e.hits f pasid p n)))).filter (fun e => !e.2.isEmpty)
    hub.trans := b.hub.trans.map (fun (t : TransOut) =>
      if t.f == f && (pasid.isNone || pasid == some t.pasid) && p ≤ t.page && t.page < p + n then { t with stale := true } else t)
    hub.invs := b.hub.invs ++ [⟨f, itag, (List.range 12).filter (fun e => !(b.engineReads e f pasid p n).isEmpty),
      ((List.range 12).map (fun e => b.engineReads e f pasid p n)).flatten⟩] }

theorem invTake_of_room {b : Blk} (h : b.hub.invs.length < 32) (f itag : Nat) (pasid : Option Nat) (lo bytes : Nat) :
    b.invTake f itag pasid lo bytes =
      (invNoted b f itag pasid (lo / 4096) ((lo + bytes + 4095) / 4096 - lo / 4096)).invEnd := by
  unfold Blk.invTake
  rw [if_neg (not_le.2 h)]
  rfl

theorem keeps_invEnd {γ : Type} (P : Hub → γ) (hinvs : ∀ (h : Hub) l, P { h with invs := l } = P h)
    (hout : ∀ (h : Hub) l, P { h with out := l } = P h) (hheld : ∀ (h : Hub) l, P { h with held := l } = P h) (b : Blk) :
    P b.invEnd.hub = P b.hub := by
  unfold Blk.invEnd
  refine (keeps_foldl (fun x : Blk => P x.hub) (fun x v => ?_) _ _).trans (hinvs ..)
  unfold Blk.pcie
  split
  · exact hout ..
  · exact hheld ..

/-- An invalidation that every engine has acknowledged is completed (R332). -/
theorem invEnd_done {b : Blk} {f itag : Nat} {l : List Nat} (hi : b.hub.invs = [⟨f, itag, [], l⟩]) (hide : b.ideOk f = true) :
    b.invEnd = { b with hub.invs := [], hub.out := b.hub.out ++ [.invCpl f itag] } := by
  have hide' : ({ b with hub.invs := [] } : Blk).ideOk f = true := hide
  simp [Blk.invEnd, hi, Blk.pcie, PcieOut.func, hide']

theorem invEnd_open {b : Blk} {v : Inval} (hi : b.hub.invs = [v]) (hleft : v.left ≠ []) : b.invEnd = b := by
  have hb : ({ b with hub.invs := [v] } : Blk) = b := by rw [← hi]
  simp [Blk.invEnd, hi, hleft, hb]

/-! ### What IDE does not let in -/

/-- What is dropped because it came outside an active stream is counted and flagged (R380). -/
theorem ideDrop_counts (b : Blk) :
    (b.ideDrop.reg Reg.secErr).getLsbD 5 = true ∧
      (b.ideDrop.reg Reg.secIdeDropCnt).toNat = min ((b.reg Reg.secIdeDropCnt).toNat + 1) 0xFFFFFFFF := by
  refine ⟨bit_reg_flag _ _ _ (by decide), ?_⟩
  rw [Blk.ideDrop, Blk.flag, Blk.reg_setReg_ne _ _ _ _ (by decide)]
  exact toNat_reg_incr ..

theorem regs_ideDropUr (b : Blk) (f : Nat) (ur : PcieOut) : (b.ideDropUr f ur).regs = b.ideDrop.regs := by
  have hp : ∀ (x : Blk) o, (x.pcie o).regs = x.regs := fun x o => regs_of_rest (L := [.hub]) (rest_pcie (by decide) ..) (by decide)
  rw [Blk.ideDropUr, hp]
  rfl

/-- A page request that has room is sent, and noted with its time and its time limit (R328, R330). -/
theorem pageRequest_sends {b : Blk} {r : PageReq} (hup : b.dead = false) (hr : b.hub.prqs = [r]) (hsent : r.sent = none)
    (hmaster : (b.win r.f).master = true) (halloc : 0 < tget (fun _ => 0) b.hub.alloc r.f) (hide : b.ideOk r.f = true) :
    (pageRequest b).hub.out = b.hub.out ++ [.pageReq r.f r.pasid r.page r.write 0] ∧
    (pageRequest b).hub.prqs = [{ r with sent := some (0, b.tb), limit := b.field Reg.xltPriCfg 0 16 }] ∧
    ((pageRequest b).reg Reg.xltPrqSentCnt).toNat = min ((b.reg Reg.xltPrqSentCnt).toNat + 1) 0xFFFFFFFF := by
  rw [pageRequest_single hup hr hsent hmaster halloc]
  have hr := rest_event (L := [.pcs]) (by decide) (prqNoted b r) 112 4 none 1
  generalize (prqNoted b r).event 112 4 none = x at hr ⊢
  have hhub := hub_of_rest hr (by decide)
  have hregs := regs_of_rest hr (by decide)
  have hideReg : x.reg Reg.secIdeCfg = b.reg Reg.secIdeCfg := by
    rw [reg_congr hregs, prqNoted, reg_incr_ne _ (by decide)]
    rfl
  have hidex : x.ideOk r.f = true := by
    simpa [Blk.ideOk, Blk.ideRequired, hideReg, Blk.streamUp, sec_of_rest hr (by decide), prqNoted, Blk.incr, Blk.count, Blk.setReg] using hide
  have hout : x.pcie (.pageReq r.f r.pasid r.page r.write 0) = { x with hub.out := x.hub.out ++ [.pageReq r.f r.pasid r.page r.write 0] } := by
    simp [Blk.pcie, PcieOut.func, hidex]
  rw [hout]
  refine ⟨?_, ?_, ?_⟩
  · simp only [hhub]
    rfl
  · simp only [hhub]
    rfl
  · have hreg : (x.reg Reg.xltPrqSentCnt).toNat = min ((b.reg Reg.xltPrqSentCnt).toNat + 1) 0xFFFFFFFF := by
      rw [reg_congr hregs, prqNoted, toNat_reg_incr, reg_with_hub]
    exact hreg

theorem invalidateRequest_in {b : Blk} {f : Nat} (hup : b.dead = false) (hin : b.ideIn true f = true) (hinvs : b.hub.invs = [])
    (itag : Nat) (pasid : Option Nat) (lo bytes : Nat) : invalidateRequest b f itag pasid lo bytes =
      (invNoted b f itag pasid (lo / 4096) ((lo + bytes + 4095) / 4096 - lo / 4096)).invEnd := by
  have hlen : b.hub.invs.length < 32 := by simp [hinvs]
  simp [invalidateRequest, Blk.taken, hup, hin, invTake_of_room hlen]

/-- After an Invalidate Request no overlapping translation is left, and one under which no engine reads is completed at once (R332). -/
theorem invNoted_ends (b : Blk) (f itag : Nat) (pasid : Option Nat) (p n : Nat) :
    (∀ e ∈ (invNoted b f itag pasid p n).invEnd.hub.atc, e ∈ b.hub.atc ∧ e.hits f pasid p n = false) ∧
    (∀ x ∈ (invNoted b f itag pasid p n).invEnd.hub.tlb, ∀ e ∈ x.2, e.hits f pasid p n = false) ∧
    (b.hub.invs = [] → b.ideOk f = true → (∀ e, b.engineReads e f pasid p n = []) →
      (invNoted b f itag pasid p n).invEnd.hub.out = b.hub.out ++ [.invCpl f itag] ∧ (invNoted b f itag pasid p n).invEnd.hub.invs = []) := by
  refine ⟨fun e he => ?_, fun x hx e he => ?_, fun hinvs hide hfree => ?_⟩
  · rw [keeps_invEnd (fun h => h.atc) (fun _ _ => rfl) (fun _ _ => rfl) (fun _ _ => rfl)] at he
    simpa [invNoted] using he
  · rw [keeps_invEnd (fun h => h.tlb) (fun _ _ => rfl) (fun _ _ => rfl) (fun _ _ => rfl)] at hx
    simp only [invNoted, List.mem_filter, List.mem_map] at hx
    obtain ⟨⟨y, -, rfl⟩, -⟩ := hx
    simpa using (List.mem_filter.1 he).2
  · have hleft : (invNoted b f itag pasid p n).hub.invs = [⟨f, itag, [], ((List.range 12).map (fun e => b.engineReads e f pasid p n)).flatten⟩] := by
      simp [invNoted, hinvs, hfree]
    have hide' : (invNoted b f itag pasid p n).ideOk f = true := by
      have hreg : (invNoted b f itag pasid p n).reg Reg.secIdeCfg = b.reg Reg.secIdeCfg := reg_incr_ne b (by decide)
      have hsec : (invNoted b f itag pasid p n).sec = b.sec := rfl
      simpa [Blk.ideOk, Blk.ideRequired, hreg, Blk.streamUp, hsec] using hide
    rw [invEnd_done hleft hide']
    exact ⟨rfl, rfl⟩

/-- The last engine's acknowledgement completes the invalidation where no read of it is open. -/
theorem invalidationAck_last {b : Blk} {f itag e : Nat} {l : List Nat} (hi : b.hub.invs = [⟨f, itag, [e], l⟩]) (hide : b.ideOk f = true)
    (hno : b.hub.reads.any (fun r => r.engine == e && l.contains r.id) = false) :
    invalidationAck b f itag e = { b with hub.invs := [], hub.out := b.hub.out ++ [.invCpl f itag] } := by
  rw [invalidationAck]
  simp only [hi, List.map_cons, List.map_nil, hno, beq_self_eq_true, Bool.not_false, Bool.and_self, if_true]
  exact invEnd_done (l := l) (by simp) hide

theorem invalidationAck_open {b : Blk} {f itag e : Nat} {l : List Nat} (hi : b.hub.invs = [⟨f, itag, [e], l⟩])
    (hyes : b.hub.reads.any (fun r => r.engine == e && l.contains r.id) = true) : invalidationAck b f itag e = b := by
  rw [invalidationAck]
  simp only [hi, List.map_cons, List.map_nil, hyes, Bool.not_true, Bool.and_false, Bool.false_eq_true, if_false]
  have hb : ({ b with hub.invs := [⟨f, itag, [e], l⟩] } : Blk) = b := by rw [← hi]
  rw [hb]
  exact invEnd_open hi (by simp)

theorem priEnable_out {b : Blk} {f : Nat} (hup : b.dead = false) (hout : b.ideIn true f = false) (on : Bool) (n : Nat) :
    priEnable b f on n = b.ideDropUr f (.cfgUr f) := by
  simp [priEnable, Blk.configured, hup, hout]

theorem priEnable_on {b : Blk} {f : Nat} (hup : b.dead = false) (hin : b.ideIn true f = true) (n : Nat) :
    priEnable b f true n = { b with
      hub.priOn := with1 b.hub.priOn f
      hub.alloc := tset (fun _ => 0) b.hub.alloc f (min n 512)
      hub.stopped := if b.hub.priOn.contains f then b.hub.stopped else without b.hub.stopped f } := by
  simp [priEnable, Blk.configured, hup, hin, Blk.priSet, Blk.xferFails]

theorem priEnable_off {b : Blk} {f : Nat} (hup : b.dead = false) (hin : b.ideIn true f = true) (n : Nat)
    (hpark : ∀ w ∈ b.hub.waits, (w.parked && w.f == f) = false) :
    priEnable b f false n = { b with
      hub.priOn := without b.hub.priOn f, hub.prqs := b.hub.prqs.filter (fun r => r.f != f) } := by
  have hmine : b.hub.waits.filter (fun w => w.parked && w.f == f) = [] :=
    List.filter_eq_nil_iff.2 fun w hw => by simp [hpark w hw]
  simp [priEnable, Blk.configured, hup, hin, Blk.priSet, Blk.xferFails, hmine, failWaits_nil]

/-- What comes outside a stream that IDE requires is dropped and counted (R380). -/
theorem outside_dropped {b : Blk} {f : Nat} (hup : b.dead = false) (hout : b.ideIn true f = false) :
    (∀ pasid page res, translationCompletion b f pasid page res = b.ideDrop) ∧ (∀ i code, prgResponse b f i code = b.ideDrop) ∧
      (∀ itag pasid lo bytes, invalidateRequest b f itag pasid lo bytes = b.ideDrop) :=
  ⟨fun _ _ _ => by simp [translationCompletion, Blk.taken, hup, hout], fun _ _ => by simp [prgResponse, Blk.taken, hup, hout],
    fun _ _ _ _ => by simp [invalidateRequest, Blk.taken, hup, hout]⟩

/-- The registers that note what is dropped, and nothing else. -/
theorem only_ideDrop (s : State) : Only [.regs] s { s with blk := s.blk.ideDrop } :=
  only_of_blk (onlyBlk_of_rest (rest_ideDrop (by decide) _))

/-- A completion with an error fails the descriptor that waits for it (R326). -/
theorem transDone_err_fails {s : State} {f pasid page : Nat} {o : TransOut} {w : XferWait} {c : CmdId} {k i : Nat} {m : MoveRt} {d : DescRt}
    (hfind : s.blk.hub.trans.find? (fun t => t.f == f && t.pasid == pasid && t.page == page) = some o) (hfresh : o.stale = false)
    (hw : s.blk.hub.waits = [w]) (hmine : (!w.parked && w.f == f && w.pasid == pasid && w.page == page) = true)
    (hx : w.x = .desc c.f c.seq.toNat i) (hdesc : DescRuns s.blk k c i m d) :
    let t := { s with blk := Blk.xferFails (s.blk.transDone f pasid page .err) }
    t.blk.hub.waits = [] ∧ (t.blk.reg Reg.xltErr).getLsbD 5 = true ∧ descAt t c i = some { d with status := 0x81 } := by
  intro t
  simp only [t]
  rw [transDone_err hfind hfresh hw hmine]
  rw [failWaits_single (by exact hw)]
  simp only [Blk.xferFails, List.foldl_cons, List.foldl_nil, hx, Blk.xferFail, Xfer.errStatus, if_true]
  refine ⟨rfl, bit_reg_flag _ _ _ (by decide), ?_⟩
  exact descAt_descFail (by exact hdesc.move) hdesc.desc 0x81

/-- A page request that is not answered in time fails the descriptor that waits for it (R331). -/
theorem priTimeout_fails {s : State} {f i a j k : Nat} {r : PageReq} {w : XferWait} {c : CmdId} {m : MoveRt} {d : DescRt}
    (hup : s.blk.dead = false) (hr : s.blk.hub.prqs = [r]) (hf : r.f = f) (hsent : r.sent = some (i, a)) (hgone : r.gone = false)
    (hw : s.blk.hub.waits = [w]) (hpark : w.parked = true ∧ w.f = r.f ∧ w.pasid = r.pasid ∧ w.page = r.page)
    (hlate : a + r.limit * 1000000 < s.blk.tb) (hx : w.x = .desc c.f c.seq.toNat j) (hrun : DescRuns s.blk k c j m d) :
    let t := { s with blk := priTimeout s.blk f i }
    t.blk.hub.waits = [] ∧ t.blk.hub.prqs = [{ r with gone := true }] ∧
      descAt t c j = some { d with status := 0x80 } ∧ (t.blk.reg Reg.xltErr).getLsbD 1 = true ∧
      (t.blk.reg Reg.xltPrqFailCnt).toNat = min ((s.blk.reg Reg.xltPrqFailCnt).toNat + 1) 0xFFFFFFFF := by
  intro t
  simp only [t]
  rw [priTimeout, priExpire_late hup hr hf hsent hgone hw hpark hlate, failWaits_single (by exact hw)]
  simp only [Blk.xferFails, List.foldl_cons, List.foldl_nil, hx, Blk.xferFail, Xfer.faultStatus, Bool.false_eq_true, if_false]
  refine ⟨rfl, rfl, ?_, ?_, ?_⟩
  · exact descAt_descFail (by exact hrun.move) hrun.desc 0x80
  · refine (congrArg (fun v : Word => v.getLsbD 1) (reg_incr_ne _ (by decide))).trans ?_
    exact bit_reg_flag _ _ _ (by decide)
  · refine (toNat_reg_incr ..).trans ?_
    rw [Blk.flag, Blk.reg_setReg_ne _ _ _ _ (by decide)]
    rfl

/-- A function whose PRI a failure response stops (R331). -/
theorem priStopped_effect (b : Blk) (f : Nat) (l : List PageReq) :
    let x := Blk.xferFails ([], ({ b.flag Reg.xltErr 0 with
      hub.stopped := with1 b.hub.stopped f
      hub.prqs := l.map (fun (x : PageReq) => if x.f = f then { x with gone := true } else x) } : Blk).incr Reg.xltPrqFailCnt)
    rest [.hub, .regs] x = rest [.hub, .regs] b ∧ x.hub.stopped.contains f = true ∧ (x.reg Reg.xltErr).getLsbD 0 = true := by
  refine ⟨?_, ?_, ?_⟩
  · exact (rest_incr (by decide) ..).trans ((rest_with_hub (by decide) _ _).trans (rest_flag (by decide) ..))
  · simpa [Blk.xferFails] using mem_with1 b.hub.stopped f
  · refine (congrArg (fun v : Word => v.getLsbD 0) (reg_incr_ne _ (by decide))).trans ?_
    exact bit_reg_flag b _ _ (by decide)

theorem exec_invalidateRequest (s : State) (f : Func) (itag : Fin 32) (pasid : Option (BitVec 20)) (lo : DWord) (bytes : Nat) :
    exec (.invalidateRequest f itag pasid lo bytes) s =
      live (fun b => invalidateRequest b f itag (pasid.map (·.toNat)) lo.toNat bytes) s := by
  rfl

/-- Settles O52, by what arrives. -/
theorem translationsComeAndGo : Obligations.TranslationsComeAndGo := by
  unfold Obligations.TranslationsComeAndGo
  refine ⟨fun s f pasid page o hup hin hfind => ?_, fun s f pasid page res hin hfind => ?_,
    fun s r hup hr hsent hmaster halloc hide => ?_, fun s f i code hup hin hfind => ?_,
    fun s f i r hup hin hfind hgone hpark => ⟨?_, ?_⟩,
    fun s f i a n r w c j m d hup hr hf hsent hgone hw hpark hwf hwp hwg hx hrun hn => ⟨fun hlate => ?_, fun hearly => ?_⟩,
    fun s f itag pasid lo bytes hup hinvs hin hide => ?_, fun s f itag e l hup hinvs hide => ?_,
    fun s f pasid page res i code itag p lo bytes n on hup hout => ?_, fun s f n hup hin => ⟨?_, fun hpark => ?_⟩⟩
  · intro mine
    have hnone (h : ∀ x ∈ s.blk.hub.waits, mine x = false) : s.blk.hub.waits.filter mine = [] :=
      List.filter_eq_nil_iff.2 fun x hx => by simp [h x hx]
    have hrun {res : TransResult} {p : State → Prop}
        (hp : p { s with blk := Blk.xferFails (s.blk.transDone f pasid.toNat page.toNat res) }) :
        Does (.translationCompletion f pasid page res) s p := by
      refine does_of_live (f := fun b => translationCompletion b f pasid.toNat page.toNat res) rfl hup ?_
      rw [translationCompletion_in hup hin]
      exact hp
    refine ⟨fun addr k r w u hfresh hright h => hrun ?_, fun res hstale h => hrun ?_, fun w c i m d hfresh hw hmine hx hdesc => hrun ?_⟩
    · rw [transDone_page hfind hfresh hright (hnone h)]
      exact ⟨only_of_blk (onlyBlk_of_rest (by simp [rest, Blk.xferFails, Blk.enterAtc])), rfl, covers_enterAtc ..⟩
    · rw [transDone_stale hfind hstale (hnone h)]
      refine ⟨only_of_blk (onlyBlk_of_rest ?_), rfl, rfl, toNat_reg_incr ..⟩
      exact (rest_incr (by decide) ..).trans (rest_with_hub (by decide) ..)
    · exact transDone_err_fails hfind hfresh hw hmine hx hdesc
  · refine stays_of_live (f := fun b => translationCompletion b f pasid.toNat page.toNat res) rfl fun hup => ?_
    rw [translationCompletion_in hup hin]
    unfold Blk.transDone
    simp only [hfind]
    rfl
  · refine does_of_live (f := pageRequest) rfl hup ?_
    exact pageRequest_sends hup hr hsent hmaster halloc hide
  · refine does_of_live (f := fun b => prgResponse b f i code) rfl hup ?_
    have hgo : prgResponse s.blk f i code = (s.blk.incr Reg.xltStrayCnt).flag Reg.xltErr 4 := by
      rw [prgResponse_in hup hin]
      unfold Blk.prgDone
      simp only [hfind]
      rfl
    rw [hgo]
    refine ⟨only_of_blk (onlyBlk_of_rest ?_), bit_reg_flag _ _ _ (by decide), ?_⟩
    · exact (rest_flag (by decide) ..).trans (rest_incr (by decide) ..)
    · rw [Blk.flag, Blk.reg_setReg_ne _ _ _ _ (by decide)]
      exact toNat_reg_incr ..
  · refine does_of_live (f := fun b => prgResponse b f i .success) rfl hup ?_
    rw [prgResponse_in hup hin, prgDone_success hfind hgone hpark]
    exact ⟨only_of_blk (onlyBlk_of_rest (rest_with_hub (by decide) ..)), rfl⟩
  · refine does_of_live (f := fun b => prgResponse b f i .failure) rfl hup ?_
    rw [prgResponse_in hup hin, prgDone_failure hfind hpark]
    obtain ⟨hrest, hstop, herr⟩ := priStopped_effect s.blk f.val ((s.blk.hub.prqs.erase r).filter (fun x => x.f != f || x.sent.isSome))
    exact ⟨only_of_blk (onlyBlk_of_rest hrest), hstop, herr⟩
  · subst hn
    refine does_of_live (f := fun b => priTimeout b f i) rfl hup ?_
    exact priTimeout_fails hup hr hf hsent hgone hw ⟨hpark, hwf, hwp, hwg⟩ hlate hx hrun
  · subst hn
    refine stays_of_live (f := fun b => priTimeout b f i) rfl fun _ => ?_
    rw [priTimeout, priExpire_early hr hf hsent hgone hearly]
    rfl
  · intro n
    refine does_of_live (exec_invalidateRequest s f itag pasid lo bytes) hup ?_
    rw [invalidateRequest_in hup hin hinvs]
    obtain ⟨hatc, htlb, hend⟩ := invNoted_ends s.blk f itag (pasid.map (·.toNat)) (lo.toNat / 4096) n
    refine ⟨only_of_blk (onlyBlk_of_rest ?_), hatc, htlb, fun hfree => hend hinvs hide hfree⟩
    rw [rest_invEnd (by decide)]
    exact (rest_with_hub (by decide) _ _).trans (rest_incr (by decide) ..)
  · intro reads
    have hopen : s.blk.hub.reads.any (fun r => r.engine == engineNo e && l.contains r.id) = true ↔ reads := by simp [reads]
    refine ⟨fun hno => ?_, fun hyes => ?_⟩
    · refine does_of_live (f := fun b => invalidationAck b f itag (engineNo e)) rfl hup ?_
      rw [invalidationAck_last hinvs hide (Bool.eq_false_iff.2 fun h => hno (hopen.1 h))]
      exact ⟨only_of_blk (onlyBlk_of_rest (rest_with_hub (by decide) ..)), rfl, rfl⟩
    · refine stays_of_live (f := fun b => invalidationAck b f itag (engineNo e)) rfl fun _ => ?_
      rw [invalidationAck_open hinvs (hopen.2 hyes)]
  · intro dropped
    have hdrop : dropped { s with blk := s.blk.ideDrop } := ideDrop_counts s.blk
    obtain ⟨htrans, hprg, hinv⟩ := outside_dropped hup hout
    refine ⟨?_, ?_, ?_, ?_⟩
    · refine does_of_live (f := fun b => translationCompletion b f pasid.toNat page.toNat res) rfl hup ?_
      rw [htrans]
      exact ⟨only_ideDrop s, hdrop⟩
    · refine does_of_live (f := fun b => prgResponse b f i code) rfl hup ?_
      rw [hprg]
      exact ⟨only_ideDrop s, hdrop⟩
    · refine does_of_live (exec_invalidateRequest s f itag p lo bytes) hup ?_
      rw [hinv]
      exact ⟨only_ideDrop s, hdrop⟩
    · refine does_of_live (f := fun b => priEnable b f on n) rfl hup ?_
      rw [priEnable_out hup hout]
      refine ⟨only_of_blk (onlyBlk_of_rest (rest_ideDropUr (by decide) (by decide) ..)), ?_, ?_⟩
      · simp only [dropped, reg_congr (regs_ideDropUr ..)]
        exact hdrop
      · unfold Blk.ideDropUr Blk.pcie
        split <;> rfl
  · refine does_of_live (f := fun b => priEnable b f true n) rfl hup ?_
    rw [priEnable_on hup hin]
    refine ⟨only_of_blk (onlyBlk_of_rest (rest_with_hub (by decide) ..)), mem_with1 .., tget_tset_self .., fun hoff => ?_⟩
    simp [hoff, without]
  · refine does_of_live (f := fun b => priEnable b f false n) rfl hup ?_
    rw [priEnable_off hup hin n fun w hw => by simp [hpark w hw]]
    refine ⟨only_of_blk (onlyBlk_of_rest (rest_with_hub (by decide) ..)), by simp [without], fun r hr => ?_⟩
    simpa using (List.mem_filter.1 hr).2

end Sys2Proof.Proofs
end

/-! ## The controller's own writes: what a transaction without an internal requester to wake leaves of the hub -/
section
namespace Sys2Proof.Proofs

open Sys2Proof.Machine

/-- A transaction of the controller itself, which nobody waits for. -/
def OfDev (t : Txn) : Prop := t.who = .dev ∧ t.job = none

theorem answerTxn_dev {t : Txn} (ht : OfDev t) (b : Blk) (ty status : Nat) (bs : Bytes) (poison replay : Bool) :
    b.answerTxn t ty status bs poison replay = b := by
  obtain ⟨hwho, hjob⟩ := ht
  simp [Blk.answerTxn, hwho, hjob]

theorem grantTxn_dev {t : Txn} (ht : OfDev t) (b : Blk) : b.grantTxn t = b.endTxn t := by
  simp [Blk.grantTxn, ht.1]

theorem hub_refuseTxn_dev {t : Txn} (ht : OfDev t) (b : Blk) (status : Nat) : (b.refuseTxn t status).hub = b.hub := by
  unfold Blk.refuseTxn
  rw [hub_endTxn, answerTxn_dev ht]
  have hfree : ∀ x : Blk, (match t.op with | .near a => x.freeRat t a | _ => x).hub = x.hub := fun x => by
    split
    · exact hub_freeRat ..
    · rfl
  split
  · exact (hub_uncount ..).trans (hfree _)
  · exact (hub_countRefusal ..).trans ((hub_uncount ..).trans (hfree _))

theorem hub_execNear_dev {t : Txn} (ht : OfDev t) (b : Blk) (a : AtmOp) : (b.execNear t a).hub = b.hub := by
  unfold Blk.execNear
  dsimp only
  split
  · rw [hub_endTxn, answerTxn_dev ht, hub_incr, hub_uncount]
  · split
    · exact hub_refuseTxn_dev ht ..
    · split
      · rw [hub_refuseTxn_dev ht, hub_trace, hub_log, hub_aonAdd, hub_fetch]
      · split
        · exact (hub_mirrorWait ..).trans (by simp [hub_incr, hub_writeLine, hub_fetch])
        · rw [hub_endTxn, answerTxn_dev ht, hub_mirrorWait]
          simp [hub_incr, hub_writeLine, hub_fetch]

/-- A line written, which waits for its mirror or ends. -/
theorem hub_writeEnd_dev {t : Txn} (ht : OfDev t) (x : Blk) (old : Bytes) (ty : Nat) (bs : Bytes) :
    (if (x.mirrorWait t old).1 then (x.mirrorWait t old).2
      else ((x.mirrorWait t old).2.answerTxn t ty 0 bs false false).endTxn t).hub = x.hub := by
  split
  · exact hub_mirrorWait ..
  · rw [hub_endTxn, answerTxn_dev ht, hub_mirrorWait]

theorem hub_serve {t : Txn} {f : Blk → Blk} (hf : ∀ x : Blk, (f x).hub = x.hub) (b : Blk) : (b.serve t f).hub = b.hub :=
  hf { b with coh.serving := b.txnHead t }

theorem hub_finishTxn_dev {t : Txn} (ht : OfDev t) (b : Blk) : (b.finishTxn t).hub = b.hub := by
  unfold Blk.finishTxn
  refine hub_serve (fun x => ?_) b
  dsimp only
  split
  · exact hub_refuseTxn_dev ht ..
  · split
    · rw [grantTxn_dev ht, hub_endTxn]
    · rw [grantTxn_dev ht, hub_endTxn]
    · rw [grantTxn_dev ht, hub_endTxn]
    · rw [hub_endTxn, answerTxn_dev ht]
    · split
      · rw [hub_endTxn, answerTxn_dev ht]
      · rw [hub_endTxn, answerTxn_dev ht, hub_fetch]
    · split
      · exact hub_refuseTxn_dev ht ..
      · refine (hub_writeEnd_dev ht ..).trans ?_
        rw [hub_writeMasked]
        split
        · rfl
        · exact hub_fetch ..
    · split
      · exact hub_refuseTxn_dev ht ..
      · rw [hub_endTxn, answerTxn_dev ht, hub_noteHeader, hub_writeMasked]
        split <;> simp [hub_fetch]
    · exact hub_execNear_dev ht ..
    · rfl
    · rfl
    · rw [hub_endTxn, hub_dropHolder]

theorem hub_advance_dev {t : Txn} (ht : OfDev t) (b : Blk) : (b.advance t).hub = b.hub := by
  unfold Blk.advance
  refine hub_serve (fun x => ?_) b
  dsimp only
  split
  · exact hub_finishTxn_dev ht ..
  · rw [hub_finishTxn_dev ht, hub_writeLine]
  · rw [hub_finishTxn_dev ht, hub_writeLine]
  · rw [hub_finishTxn_dev ht, hub_writeLine]
  · split
    · rw [hub_putTxn, hub_mirrorSend, hub_writeLine]
    · rw [hub_finishTxn_dev (by exact ht), hub_writeLine]
  · exact hub_finishTxn_dev ht ..

theorem ofDev_settleCount {t : Txn} (ht : OfDev t) (b : Blk) : OfDev (b.settleCount t).1 := by
  unfold Blk.settleCount
  split
  · exact ht
  · exact ht

theorem ofDev_countRds {t : Txn} (ht : OfDev t) (b : Blk) : OfDev (b.countRds t).1 := by
  unfold Blk.countRds
  split
  · exact ht
  · exact ht

theorem hub_runTxn_dev {t : Txn} (ht : OfDev t) (b : Blk) : (b.runTxn t).hub = b.hub := by
  have hs := ofDev_settleCount ht b
  unfold Blk.runTxn
  dsimp only
  split
  · rw [hub_advance_dev (by exact hs), hub_putTxn, hub_snoopAll, hub_settleCount]
  · rw [hub_putTxn, hub_snoopAll, hub_settleCount]

/-- The block in which a transaction's line is touched, and a dead owner's line poisoned. -/
def lineTouched (b : Blk) (l : Nat) : Blk :=
  match b.ownerOf l with
  | some o => if b.deadAt (homeOf l) o then b.poisonDead l o else b.touch l
  | none => b.touch l

/-- The block in which a transaction starts: its set looked up, and its line touched. -/
def opened (b : Blk) (t : Txn) (again : Bool) : Blk :=
  lineTouched (if again then b else b.dirLookup t.line) t.line

/-- A transaction started in its opened block: at once, unless its set is full. -/
def startedIn (b : Blk) (t : Txn) : Blk :=
  if t.op.needsEntry && (mget b.coh.dir t.line).isNone && 8 ≤ (b.setEntries (dirSet t.line)).length + b.claims (dirSet t.line) then
    match b.victim t.part (dirSet t.line) with
    | none => ((b.incr (Reg.haNoallocCnt (homeOf t.line))).uncountRds t).runTxn t.unallocated
    | some l =>
      let x := b.evict l
      match x.1 with
      | none => x.2.runTxn t
      | some w =>
        let y := x.2.countRds t
        { y.2 with coh.queue := { home := homeOf t.line, txn := y.1, at_ := t.acc, victim := some w } :: y.2.coh.queue }
  else b.runTxn t

theorem startTxn_eq (b : Blk) (t : Txn) (again : Bool) :
    b.startTxn t again = startedIn (opened b t again) { t with at_ := b.tb } := by
  unfold Blk.startTxn
  extract_lets u q b0 b1
  have hb : b1 = opened b t again := rfl
  rw [← hb]
  clear_value b1
  have hu : u = { t with at_ := b.tb } := rfl
  rw [← hu]
  have hq : q = homeOf u.line := rfl
  clear_value q u
  subst hq
  unfold startedIn
  split
  · cases b1.victim u.part (dirSet u.line) with
    | none => rfl
    | some l => dsimp only <;> cases (b1.evict l).1 <;> rfl
  · rfl

theorem hub_lineTouched (b : Blk) (l : Nat) : (lineTouched b l).hub = b.hub := by
  unfold lineTouched
  split
  · split
    · exact hub_poisonDead ..
    · exact hub_touch ..
  · exact hub_touch ..

theorem hub_opened (b : Blk) (t : Txn) (again : Bool) : (opened b t again).hub = b.hub := by
  refine (hub_lineTouched ..).trans ?_
  split
  · rfl
  · exact hub_dirLookup ..

theorem hub_startedIn_dev {t : Txn} (ht : OfDev t) (b : Blk) : (startedIn b t).hub = b.hub := by
  unfold startedIn
  split
  · split
    · rw [hub_runTxn_dev (by exact ht), hub_uncountRds, hub_incr]
    · dsimp only
      split
      · rw [hub_runTxn_dev ht, hub_evict]
      · exact (hub_countRds ..).trans (hub_evict ..)
  · exact hub_runTxn_dev ht _

theorem hub_startTxn_dev {t : Txn} (ht : OfDev t) (b : Blk) (again : Bool) : (b.startTxn t again).hub = b.hub := by
  rw [startTxn_eq, hub_startedIn_dev (by exact ht), hub_opened]

theorem hub_beginTxn_dev {t : Txn} (ht : OfDev t) (b : Blk) : (b.beginTxn t).hub = b.hub := by
  unfold Blk.beginTxn
  dsimp only
  split
  · exact hub_countRds ..
  · exact hub_startTxn_dev (by exact ht) ..

theorem hub_devWrite (b : Blk) (a : Nat) (bs : Bytes) : (b.devWrite a bs).hub = b.hub := by
  unfold Blk.devWrite
  refine keeps_foldl (fun x : Blk => x.hub) (fun x p => ?_) _ _
  unfold Blk.writeInt
  dsimp only
  split
  · exact hub_countRefusal ..
  · rw [hub_beginTxn_dev ⟨rfl, rfl⟩, hub_bumpMod, hub_countAccept]

theorem hub_ckptEntry (b : Blk) (off : Nat) (e : Nat → Bytes) : (b.ckptEntry off e).hub = b.hub :=
  hub_devWrite ..

theorem hub_ckptExtAt (b : Blk) (i : Nat) (r : ExtRt) : (b.ckptExtAt i r).hub = b.hub :=
  hub_ckptEntry ..

theorem hub_ckptHost (b : Blk) (eid : Nat) (l : Lease) : (b.ckptHost eid l).hub = b.hub :=
  hub_ckptEntry ..

/-- A part that is kept after all leaves the frame. -/
theorem rest_of_hub {L : List Region} {x y : Blk} (h : rest (.hub :: L) y = rest (.hub :: L) x) (hh : y.hub = x.hub) :
    rest L y = rest L x := by
  refine rest_of_onlyBlk ?_
  have hl := onlyBlk_of_rest h
  simp only [onlyBlk_iff, List.mem_cons, reduceCtorEq, false_or, true_or, true_and] at hl ⊢
  simp only [hl, hh, or_true, and_true, and_self]

end Sys2Proof.Proofs
end

/-! ## Home agents take revocations and expiries (R94, R96, R97) -/
section
namespace Sys2Proof.Proofs

open Sys2Proof.Machine

theorem kept_modExt {γ : Type} {P : ExtSt → γ} (hP : ExtProj P) (b : Blk) (i : Nat) (f : ExtRt → ExtRt) :
    P (b.modExt i f).ext = P b.ext :=
  hP.exts ..

theorem ext_answerAsker (b : Blk) (q : Nat) (w : Asker) (status : Nat) (payload : Bytes) :
    (b.answerAsker q w status payload).ext = b.ext :=
  ext_of_rest (L := [.regs, .fab, .hub]) (rest_answerAsker (by decide) (by decide) (by decide) ..) (by decide)

theorem ext_endPubs (b : Blk) (q i status : Nat) :
    (b.endPubs q i status).ext = (b.modExt i (fun r => { r with pubs := [] })).ext :=
  keeps_foldl (fun x : Blk => x.ext) (fun x p => ext_answerAsker ..) _ _

theorem kept_endPubs {γ : Type} {P : ExtSt → γ} (hP : ExtProj P) (b : Blk) (q i status : Nat) :
    P (b.endPubs q i status).ext = P b.ext := by
  rw [ext_endPubs]
  exact hP.exts ..

theorem kept_answerRevokes {γ : Type} {P : ExtSt → γ} (hP : ExtProj P) (b : Blk) (i : Nat) :
    P (b.answerRevokes i).ext = P b.ext := by
  unfold Blk.answerRevokes
  split
  · rfl
  · refine (keeps_foldl (fun x : Blk => P x.ext) (fun x c => congrArg P ?_) _ _).trans ?_
    · exact ext_of_rest (L := [.hub, .regs]) (rest_answerCmd (by decide) (by decide) ..) (by decide)
    · exact (kept_endPubs hP ..).trans (hP.cmds ..)

theorem revPend_recall (b : Blk) (l : Nat) (op : LineOp) : (b.recall l op).ext.revPend = b.ext.revPend :=
  kept_recall extProj_revPend.mod ..

theorem revPend_revocationTake {b : Blk} {q : Nat} {k : RevokeKey} (h : (q, k) ∈ b.ext.revPend) :
    (revocationTake b q k).ext.revPend = without b.ext.revPend (q, k) := by
  have hc : (!b.ext.revPend.contains (q, k)) = false := by simpa using h
  unfold revocationTake
  rw [hc]
  simp only [Bool.false_eq_true, if_false]
  split
  · split
    · rfl
    · refine (kept_answerRevokes extProj_revPend ..).trans ?_
      have hrecalls (x : Blk) (ls : List Nat) : (ls.foldl (fun b l => b.recall l .recall) x).ext.revPend = x.ext.revPend :=
        keeps_foldl (fun x : Blk => x.ext.revPend) (fun x l => revPend_recall ..) ls x
      split
      · rw [kept_endPubs extProj_revPend, hrecalls, ext_dropPre]
      · rw [hrecalls, ext_dropPre]
  · split
    · rfl
    · exact kept_recallHost extProj_revPend.mod ..

theorem revocationTake_of_not {b : Blk} {q : Nat} {k : RevokeKey} (h : (q, k) ∉ b.ext.revPend) : revocationTake b q k = b := by
  have hc : (!b.ext.revPend.contains (q, k)) = true := by simpa using h
  unfold revocationTake
  rw [if_pos hc]

/-- What an expiry leaves of the extents' state: the expiries that wait and those that have been taken. -/
def expiries (b : Blk) : List (Nat × Nat) × List (Nat × Nat) := (b.ext.expPend, b.ext.dead)

theorem extProj_expiries : ExtProj (fun e => (e.expPend, e.dead)) := ⟨fun _ _ => rfl, fun _ _ => rfl⟩

theorem expiries_congr {x y : Blk} (h : x.ext = y.ext) : expiries x = expiries y := by
  simp [expiries, h]

theorem expiries_setExt (b : Blk) (i : Nat) (f : ExtRt → ExtRt) : expiries (b.setExt i f) = expiries b := by
  unfold Blk.setExt
  dsimp only
  split
  · exact kept_ckptExtAt extProj_expiries.mod ..
  · rfl

theorem expiries_startDrain (b : Blk) (i : Nat) : expiries (b.startDrain i) = expiries b := by
  unfold Blk.startDrain
  split
  · rfl
  · split
    · rfl
    · have hset := expiries_setExt b i (fun r => { r with prior := r.state, state := .draining })
      generalize b.setExt i (fun r => { r with prior := r.state, state := .draining }) = x at hset ⊢
      exact hset

theorem expiries_expireExt (b : Blk) (q eid i : Nat) : expiries (b.expireExt q eid i) = expiries b := by
  unfold Blk.expireExt
  dsimp only
  split
  · exact expiries_startDrain ..
  · rfl

theorem expiries_dropGrants (b : Blk) (eid : Nat) : expiries (b.dropGrants eid) = expiries b := by
  unfold Blk.dropGrants
  split
  · rfl
  · refine keeps_foldl expiries (fun x k => ?_) _ _
    rfl

theorem expiries_expireTake {b : Blk} {q eid : Nat} (h : (q, eid) ∈ b.ext.expPend) :
    expiries (expireTake b q eid) = (without b.ext.expPend (q, eid), with1 b.ext.dead (q, eid)) := by
  have hc : (!b.ext.expPend.contains (q, eid)) = false := by simpa using h
  unfold expireTake
  rw [hc]
  simp only [Bool.false_eq_true, if_false]
  rw [expiries_dropGrants]
  refine (keeps_foldl expiries (fun x i => expiries_expireExt ..) _ _).trans ?_
  refine (keeps_foldl expiries (fun x l => kept_walkEntry extProj_expiries.mod ..) _ _).trans ?_
  exact kept_resolveDead extProj_expiries.mod ..

theorem expireTake_of_not {b : Blk} {q eid : Nat} (h : (q, eid) ∉ b.ext.expPend) : expireTake b q eid = b := by
  have hc : (!b.ext.expPend.contains (q, eid)) = true := by simpa using h
  unfold expireTake
  rw [if_pos hc]

theorem extRt_modExt (b : Blk) (i : Nat) (f : ExtRt → ExtRt) : (b.modExt i f).extRt i = f (b.extRt i) := by
  simp [Blk.extRt, Blk.modExt]

theorem hub_setExt (b : Blk) (i : Nat) (f : ExtRt → ExtRt) : (b.setExt i f).hub = b.hub := by
  unfold Blk.setExt
  dsimp only
  split
  · exact hub_ckptExtAt ..
  · rfl

/-- A change of an extent's runtime state reaches no further than the checkpoint entry that it may write. -/
theorem onlyBlk_setExt (b : Blk) (i : Nat) (f : ExtRt → ExtRt) : OnlyBlk ([.pair] ++ devRegions) b (b.setExt i f) := by
  refine onlyBlk_of_rest (rest_of_hub ?_ (hub_setExt ..))
  exact rest_setExt (by decide) (by decide) (by decide) (by decide) (by decide) (by decide) (by decide) (by decide) (by decide)
    (by decide) (by decide) (by decide) (by decide) (by decide) ..

theorem onlyBlk_setExt_of_off {b : Blk} (h : b.ckptOn = false) (i : Nat) (f : ExtRt → ExtRt) : OnlyBlk [.ext] b (b.setExt i f) := by
  have hgo : b.setExt i f = b.modExt i f := by simp [Blk.setExt, h]
  rw [hgo]
  exact onlyBlk_of_rest (rest_modExt (by decide) ..)

/-- Settles O22, by what takes what waits. -/
theorem homeAgentsTakeWhatWaits : Obligations.HomeAgentsTakeWhatWaits := by
  unfold Obligations.HomeAgentsTakeWhatWaits
  refine ⟨fun s q k hup h => ?_, fun s q k h => ?_, fun s q e hup h => ?_, fun s q e h => ?_, fun s i hup hst hdr => ?_,
    fun s i h => ?_⟩
  · refine does_of_live (f := fun b => revocationTake b q k) rfl hup ?_
    rw [revPend_revocationTake h]
    simp [without]
  · refine stays_of_live (f := fun b => revocationTake b q k) rfl fun _ => ?_
    exact revocationTake_of_not h
  · refine does_of_live (f := fun b => expireTake b q e.toNat) rfl hup ?_
    obtain ⟨hpend, hdead⟩ := Prod.mk.inj (expiries_expireTake h)
    exact ⟨by simp [hpend, without], by simpa [hdead] using mem_with1 s.blk.ext.dead (q.val, e.toNat)⟩
  · refine stays_of_live (f := fun b => expireTake b q e.toNat) rfl fun _ => ?_
    exact expireTake_of_not h
  · refine does_of_live (f := fun b => drainEnd b i) rfl hup ?_
    have hgo : drainEnd s.blk i = s.blk.setExt i (fun r => { r with state := .zeroing, zeroed := [], zeroCur := [] }) := by
      simp [drainEnd, hst, hdr]
    rw [hgo]
    refine ⟨?_, only_of_blk (onlyBlk_setExt _ _ _), fun hoff => only_of_blk (onlyBlk_setExt_of_off hoff _ _)⟩
    rw [Blk.setExt, extRt_modExt]
  · refine stays_of_live (f := fun b => drainEnd b i) rfl fun _ => ?_
    have hno : ((s.blk.extRt i).state == .draining && s.blk.drained i) = false := by
      obtain h | h := h <;> simp [h]
    simp [drainEnd, hno]

end Sys2Proof.Proofs
end

/-! ## Leases (R93 to R95, R243, R244) -/
section
namespace Sys2Proof.Proofs

open Sys2Proof.Machine

/-! ### Control messages and their answers -/

theorem dead_noteLoad (b : Blk) (src v : Nat) : (b.noteLoad src v).dead = b.dead := rfl

theorem view_congr {x y : Blk} (h : x.str = y.str) (k : Block) : x.view k = y.view k := by
  simp [Blk.view, h]

/-- A message with a route goes to the end of its injection queue, with its MSG_ID. -/
theorem sends_send {b : Blk} {q : Nat} (hup : b.dead = false) (m : Msg)
    (hroute : mhas (b.view (.router (Fin.ofNat 4 q))).eids m.dst = true) (s : State) :
    Sends { s with blk := (b.send q m).2 } q m.ty m.dst m.status m.payload := by
  have hgo : (b.send q m).2 = { b with
      fab.msgIds := tset (fun _ => 0) b.fab.msgIds m.dst ((tget (fun _ => 0) b.fab.msgIds m.dst + 1) % 65536)
      fab.inj := tmod (fun _ => []) b.fab.inj q (· ++ [{ m with msgId := tget (fun _ => 0) b.fab.msgIds m.dst, at_ := b.tb }]) } := by
    unfold Blk.send
    rw [if_neg (by simp [hup]), if_neg (by rw [hroute]; decide)]
    rfl
  simp only [Sends, hgo, tget_tmod_self]
  exact ⟨_, List.getLast?_concat .., rfl, rfl, rfl, rfl⟩

theorem sends_answerCtrl {b : Blk} {q src : Nat} (hup : b.dead = false)
    (hroute : mhas (b.view (.router (Fin.ofNat 4 q))).eids src = true) (s : State) (msgId traceId ty status : Nat) (payload : Bytes) :
    Sends { s with blk := b.answerCtrl q src msgId traceId ty status payload } q 0x48 src status (fit (answerLen ty) payload) := by
  unfold Blk.answerCtrl
  dsimp only
  split
  · exact sends_send (b := b.noteLoad src _) hup _ (by exact hroute) s
  · exact sends_send hup _ (by exact hroute) s

theorem dead_answerCtrl (b : Blk) (q src msgId traceId ty status : Nat) (payload : Bytes) :
    (b.answerCtrl q src msgId traceId ty status payload).dead = b.dead :=
  dead_of_rest (L := [.regs, .fab]) (rest_answerCtrl (by decide) (by decide) ..) (by decide)

/-- An answer is sent where the device is still up once it has been. -/
theorem sendsUp_answerCtrl {b : Blk} {q src : Nat} (hroute : mhas (b.view (.router (Fin.ofNat 4 q))).eids src = true) (s : State)
    (msgId traceId ty status : Nat) (payload : Bytes) :
    SendsUp { s with blk := b.answerCtrl q src msgId traceId ty status payload } q 0x48 src status (fit (answerLen ty) payload) :=
  fun hup => sends_answerCtrl (by rwa [dead_answerCtrl] at hup) hroute ..

theorem ext_answerCtrl (b : Blk) (q src msgId traceId ty status : Nat) (payload : Bytes) :
    (b.answerCtrl q src msgId traceId ty status payload).ext = b.ext :=
  ext_of_rest (L := [.regs, .fab]) (rest_answerCtrl (by decide) (by decide) ..) (by decide)

/-- A request that enters comes from a device that is up, and its answer has a route. -/
theorem reqIn_enters {b : Blk} {q src ty : Nat} {lens : List Nat} {sure : Bool} (h : (b.reqIn q src ty lens sure).1 = true) :
    b.dead = false ∧ b.str.loaded = true ∧ mhas (b.view (.router (Fin.ofNat 4 q))).eids src = true := by
  unfold Blk.reqIn at h
  dsimp only at h
  split at h
  · cases h
  · next hd =>
    simp only [Bool.or_eq_true, not_or, Bool.not_eq_true, Bool.not_eq_false'] at hd
    split at h
    · cases h
    · next hr => exact ⟨hd.1.1, hd.1.2, by simpa using hr⟩

/-- What the checks that every control message is put to leave as it was. -/
structure CtrlKept (b0 b : Blk) (q src : Nat) : Prop where
  up0 : b0.dead = false
  up : b.dead = false
  tb : b.tb = b0.tb
  str : b.str = b0.str
  route : mhas (b.view (.router (Fin.ofNat 4 q))).eids src = true

theorem ctrlIn_kept {b0 b : Blk} {q ty len : Nat} {r : Req} {sure : Bool} (h : CtrlIn b0 b q r ty len sure) :
    CtrlKept b0 b q r.src.toNat := by
  obtain ⟨hup, -, hroute⟩ := reqIn_enters h.enters
  have hr : rest [.regs, .aon, .pcs, .pool, .chans, .ext, .rings, .fab, .traf] b =
      rest [.regs, .aon, .pcs, .pool, .chans, .ext, .rings, .fab, .traf] b0 := by
    rw [h.at_, rest_traceRx (by decide) (by decide) (by decide) (by decide) (by decide) (by decide) (by decide),
      rest_reqIn (by decide) (by decide) (by decide)]
  have hstr := str_of_rest hr (by decide)
  exact ⟨hup, (dead_of_rest hr (by decide)).trans hup, tb_of_rest hr (by decide), hstr, by rw [view_congr hstr]; exact hroute⟩

/-- A control message that passes the checks reaches its target. -/
theorem ctrlIn_eq {b0 b : Blk} {q ty len : Nat} {r : Req} {sure : Bool} (h : CtrlIn b0 b q r ty len sure) {about : Option Nat}
    (hpair : (b0.reqIn q r.src.toNat ty [len] sure).2.pairExt q about = 0) (go : Blk → Blk) :
    b0.ctrlIn q r ty len false sure about go = go b := by
  unfold Blk.ctrlIn
  dsimp only
  rw [h.enters, h.open_, h.formed, hpair, h.host, h.at_]
  rfl

theorem ctrlIn_none {b0 b : Blk} {q ty len : Nat} {r : Req} {sure : Bool} (h : CtrlIn b0 b q r ty len sure) (go : Blk → Blk) :
    b0.ctrlIn q r ty len false sure none go = go b :=
  ctrlIn_eq h rfl go

/-! ### The lease master -/

theorem mget_setLease_self (b : Blk) (eid : Nat) (l : Lease) : mget (b.setLease eid l).ext.leases eid = some l := by
  simp [Blk.setLease]

theorem leases_ckptHost (b : Blk) (eid : Nat) (l : Lease) : (b.ckptHost eid l).ext.leases = b.ext.leases :=
  kept_ckptEntry extProj_leases.mod ..

theorem mget_setLease_ne (b : Blk) {eid k : Nat} (h : k ≠ eid) (l : Lease) :
    mget (b.setLease eid l).ext.leases k = mget b.ext.leases k := by
  unfold Blk.setLease
  dsimp only
  rw [mget_mput_ne _ _ _ _ h]
  split
  · rw [leases_ckptHost]
  · rfl

/-- A lease of which neither LIVE nor LAPSED changes writes no checkpoint entry (R356). -/
theorem setLease_of_same {b : Blk} {eid : Nat} {l m : Lease} (h : mget b.ext.leases eid = some l) (hlive : m.live = l.live)
    (hlap : m.lapsed = l.lapsed) : b.setLease eid m = { b with ext.leases := mput b.ext.leases eid m } := by
  simp [Blk.setLease, h, hlive, hlap]

theorem hub_setLease (b : Blk) (eid : Nat) (l : Lease) : (b.setLease eid l).hub = b.hub := by
  unfold Blk.setLease
  dsimp only
  split
  · exact hub_ckptHost ..
  · rfl

theorem mem_with1_of_mem {α : Type} [DecidableEq α] {l : List α} {a : α} (h : a ∈ l) (c : α) : a ∈ with1 l c := by
  unfold with1
  split
  · exact h
  · exact List.mem_append_left _ h

theorem mem_foldl_with1_of_mem {α β : Type} [DecidableEq α] (g : β → α) {l : List α} {a : α} (h : a ∈ l) (qs : List β) :
    a ∈ qs.foldl (fun l q => with1 l (g q)) l := by
  induction qs generalizing l with
  | nil => exact h
  | cons q qs ih => exact ih (mem_with1_of_mem h _)

theorem mem_foldl_with1 {α β : Type} [DecidableEq α] (g : β → α) (l : List α) {q : β} {qs : List β} (hq : q ∈ qs) :
    g q ∈ qs.foldl (fun l q => with1 l (g q)) l := by
  induction qs generalizing l with
  | nil => cases hq
  | cons x qs ih =>
    obtain rfl | hq := List.mem_cons.1 hq
    · exact mem_foldl_with1_of_mem g (mem_with1 ..) qs
    · exact ih _ hq

theorem leases_lapse (b : Blk) (eid event : Nat) :
    (b.lapse eid event).ext.leases = (b.setLease eid ⟨false, true, 0⟩).ext.leases := by
  unfold Blk.lapse
  exact (kept_trace extProj_leases.mod ..).trans rfl

theorem expPend_lapse (b : Blk) (eid event : Nat) (q : Nat) (hq : q < 4) : (q, eid) ∈ (b.lapse eid event).ext.expPend := by
  unfold Blk.lapse
  have hk := kept_trace extProj_expPend.mod ((({ b.setLease eid ⟨false, true, 0⟩ with
    ext.expPend := (List.range 4).foldl (fun l q => with1 l (q, eid)) (b.setLease eid ⟨false, true, 0⟩).ext.expPend } : Blk).incr
      (Reg.haLeaseExpiredCnt 0)).aonAdd 220 1)
    { source := 10, event := event, part := b.hostPart eid, unit := 28, eid := eid }
  dsimp only at hk ⊢
  rw [hk]
  exact mem_foldl_with1 (fun q => (q, eid)) _ (List.mem_range.2 hq)

/-! ### A lease starts -/

/-- What an expiry leaves of the block's hosts and routes, of its leases and of its time. -/
structure LeaseKept (x y : Blk) : Prop where
  tb : y.tb = x.tb
  leases : y.ext.leases = x.ext.leases
  hosts : (y.view (.home 0)).hosts = (x.view (.home 0)).hosts
  routes : ∀ k, (y.view k).eids = (x.view k).eids

theorem LeaseKept.trans {x y z : Blk} (h : LeaseKept y z) (g : LeaseKept x y) : LeaseKept x z :=
  ⟨h.tb.trans g.tb, h.leases.trans g.leases, h.hosts.trans g.hosts, fun k => (h.routes k).trans (g.routes k)⟩

theorem leaseKept_of_str {x y : Blk} (htb : y.tb = x.tb) (hl : y.ext.leases = x.ext.leases) (hs : y.str = x.str) : LeaseKept x y :=
  ⟨htb, hl, by rw [view_congr hs], fun k => by rw [view_congr hs]⟩

theorem leaseKept_foldl {α : Type} {f : Blk → α → Blk} (h : ∀ x a, LeaseKept x (f x a)) (as : List α) (x : Blk) :
    LeaseKept x (as.foldl f x) := by
  induction as generalizing x with
  | nil => exact ⟨rfl, rfl, rfl, fun _ => rfl⟩
  | cons a as ih => exact (ih (f x a)).trans (h x a)

/-- A change of the grants leaves hosts and routes of every view. -/
theorem leaseKept_modLive (x : Blk) (inA inB : Commit → Bool) (k i : Nat) (g : ExtRt → ExtRt) :
    LeaseKept x ((x.modLive (fun _ => false) inA inB (fun s => { s with grants := mdel s.grants k })).modExt i g) := by
  have hview : ∀ j, ∃ grants, ((x.modLive (fun _ => false) inA inB (fun s => { s with grants := mdel s.grants k })).modExt i g).view j =
      { x.view j with grants := grants } := fun j => by
    cases hc : x.str.commit with
    | none => exact ⟨mdel x.str.run.grants k, by simp [Blk.view, Blk.modLive, Blk.modExt, hc]⟩
    | some c =>
      refine ⟨(((x.modLive (fun _ => false) inA inB (fun s => { s with grants := mdel s.grants k })).modExt i g).view j).grants, ?_⟩
      simp only [Blk.view, Blk.modLive, Blk.modExt, hc, Option.map_some]
      split
      · split
        · split <;> rfl
        · rfl
      · split
        · split <;> rfl
        · split <;> rfl
  refine ⟨rfl, rfl, ?_, fun j => ?_⟩
  · obtain ⟨gr, h⟩ := hview (.home 0)
    rw [h]
  · obtain ⟨gr, h⟩ := hview j
    rw [h]

theorem leaseKept_dropGrants (x : Blk) (eid : Nat) : LeaseKept x (x.dropGrants eid) := by
  unfold Blk.dropGrants
  split
  · exact ⟨rfl, rfl, rfl, fun _ => rfl⟩
  · exact leaseKept_foldl (fun x k => leaseKept_modLive ..) _ _

theorem leases_setExt (b : Blk) (i : Nat) (f : ExtRt → ExtRt) : (b.setExt i f).ext.leases = b.ext.leases := by
  unfold Blk.setExt
  dsimp only
  split
  · exact kept_ckptExtAt extProj_leases.mod ..
  · rfl

theorem leases_startDrain (b : Blk) (i : Nat) : (b.startDrain i).ext.leases = b.ext.leases := by
  unfold Blk.startDrain
  split
  · rfl
  · split
    · rfl
    · have hset := leases_setExt b i (fun r => { r with prior := r.state, state := .draining })
      generalize b.setExt i (fun r => { r with prior := r.state, state := .draining }) = x at hset ⊢
      exact hset

theorem leases_expireExt (b : Blk) (q eid i : Nat) : (b.expireExt q eid i).ext.leases = b.ext.leases := by
  unfold Blk.expireExt
  dsimp only
  split
  · exact leases_startDrain ..
  · rfl

theorem leaseKept_expireTake (b : Blk) (q eid : Nat) : LeaseKept b (expireTake b q eid) := by
  unfold expireTake
  split
  · exact ⟨rfl, rfl, rfl, fun _ => rfl⟩
  · refine (leaseKept_dropGrants ..).trans ((leaseKept_foldl (fun x i => ?_) _ _).trans ((leaseKept_foldl (fun x l => ?_) _ _).trans ?_))
    · have hr := rest_expireExt (L := [.regs, .dead, .pins, .fresh, .aon, .pcs, .pool, .chans, .ext, .coh, .fab, .rings, .pair, .hub])
        (by decide) (by decide) (by decide) (by decide) (by decide) (by decide) (by decide) (by decide) (by decide) (by decide)
        (by decide) (by decide) (by decide) (by decide) x q eid i
      exact leaseKept_of_str (tb_of_rest hr (by decide)) (leases_expireExt ..) (str_of_rest hr (by decide))
    · have hr := rest_walkEntry (L := [.regs, .aon, .pcs, .pool, .chans, .ext, .coh, .fab, .rings, .pair])
        (by decide) (by decide) (by decide) (by decide) (by decide) (by decide) (by decide) (by decide) (by decide) (by decide) x eid l
      exact leaseKept_of_str (tb_of_rest hr (by decide)) (kept_walkEntry extProj_leases.mod ..) (str_of_rest hr (by decide))
    · have hr (x : Blk) := rest_resolveDead (L := [.regs, .dead, .pins, .aon, .pcs, .pool, .chans, .ext, .coh, .fab, .rings, .pair, .hub])
        (by decide) (by decide) (by decide) (by decide) (by decide) (by decide) (by decide) (by decide) (by decide) (by decide)
        (by decide) (by decide) (by decide) x q eid
      exact leaseKept_of_str ((tb_of_rest (hr _) (by decide)).trans rfl) ((kept_resolveDead extProj_leases.mod ..).trans rfl)
        ((str_of_rest (hr _) (by decide)).trans rfl)

theorem rest_setLease_dev (b : Blk) (eid : Nat) (l : Lease) :
    rest ([.pair] ++ devRegions) (b.setLease eid l) = rest ([.pair] ++ devRegions) b := by
  refine rest_of_hub ?_ (hub_setLease ..)
  exact rest_setLease (by decide) (by decide) (by decide) (by decide) (by decide) (by decide) (by decide) (by decide) (by decide)
    (by decide) (by decide) (by decide) (by decide) (by decide) ..

theorem rest_lapse_dev (b : Blk) (eid event : Nat) :
    rest ([.pair] ++ devRegions) (b.lapse eid event) = rest ([.pair] ++ devRegions) b := by
  unfold Blk.lapse
  rw [rest_trace (by decide) (by decide) (by decide) (by decide) (by decide) (by decide) (by decide), rest_aonAdd (by decide),
    rest_incr (by decide)]
  exact (rest_with_ext (by decide) _ _).trans (rest_setLease_dev ..)

theorem leaseNs_congr {x y : Blk} (h : (y.view (.home 0)).hosts = (x.view (.home 0)).hosts) (eid : Nat) : y.leaseNs eid = x.leaseNs eid := by
  simp [Blk.leaseNs, Struct.leaseNs, h]

/-- A lease that starts runs from now, for the host's period (R93, R95). -/
theorem startLease_starts (b : Blk) (eid : Nat) :
    mget (b.startLease eid).ext.leases eid = some ⟨true, false, b.tb + b.leaseNs eid⟩ ∧
      ∀ k, ((b.startLease eid).view k).eids = (b.view k).eids := by
  have h := leaseKept_foldl (fun x q => leaseKept_expireTake x q eid) (List.range 4) b
  unfold Blk.startLease
  generalize (List.range 4).foldl (fun b q => expireTake b q eid) b = b1 at h ⊢
  refine ⟨?_, fun k => ?_⟩
  · rw [← leaseNs_congr h.hosts]
    exact mget_setLease_self ..
  · have hstr : (b1.setLease eid ⟨true, false, b.tb + b1.leaseNs eid⟩).str = b1.str := str_of_rest (rest_setLease_dev ..) (by decide)
    rw [← h.routes k]
    exact congrArg Struct.eids (view_congr hstr k)

/-- A lapse takes the lease, and every home agent has an EXPIRE to take (R94). -/
theorem lapse_lapses (b : Blk) (eid event : Nat) : mget (b.lapse eid event).ext.leases eid = some ⟨false, true, 0⟩ ∧
    (∀ q, q < 4 → (q, eid) ∈ (b.lapse eid event).ext.expPend) ∧
    ∀ k, k ≠ eid → mget (b.lapse eid event).ext.leases k = mget b.ext.leases k :=
  ⟨by rw [leases_lapse, mget_setLease_self], fun q hq => expPend_lapse _ _ _ _ hq, fun k hk => by
    rw [leases_lapse, mget_setLease_ne _ hk]⟩

/-- What the lease master does with a Lease that has passed the checks. -/
theorem leaseMsg_of_none {b0 b : Blk} {r : Req} (h : CtrlIn b0 b 0 r 0xD0 0 true) (hnone : mget b.ext.leases r.src.toNat = none)
    (renew : Bool) : leaseMsg b0 r renew =
      if renew then (b.startLease r.src.toNat).answerCtrl 0 r.src.toNat r.msgId.toNat r.traceId.toNat 0xD0 0
        (toLe 8 (b.tb + b.leaseNs r.src.toNat))
      else b.answerCtrl 0 r.src.toNat r.msgId.toNat r.traceId.toNat 0xD0 0x11 (toLe 8 0) := by
  unfold leaseMsg
  rw [ctrlIn_none h]
  simp only [hnone, Option.getD_none, Bool.false_eq_true, if_false, Bool.false_and]

theorem leaseMsg_of_lapsed {b0 b : Blk} {r : Req} {l : Lease} (h : CtrlIn b0 b 0 r 0xD0 0 true)
    (hl : mget b.ext.leases r.src.toNat = some l) (hlap : l.lapsed = true) (renew : Bool) :
    leaseMsg b0 r renew = b.answerCtrl 0 r.src.toNat r.msgId.toNat r.traceId.toNat 0xD0 0x1A (toLe 8 0) := by
  unfold leaseMsg
  rw [ctrlIn_none h]
  simp only [hl, Option.getD_some, hlap, if_true]

theorem leaseMsg_of_live {b0 b : Blk} {r : Req} {l : Lease} (h : CtrlIn b0 b 0 r 0xD0 0 true)
    (hl : mget b.ext.leases r.src.toNat = some l) (hlap : l.lapsed = false) (hlive : l.live = true) (hin : b.tb ≤ l.deadline)
    (renew : Bool) : leaseMsg b0 r renew =
      if renew then { b with ext.leases := mput b.ext.leases r.src.toNat { l with deadline := b.tb + b.leaseNs r.src.toNat } }
      else (b.lapse r.src.toNat 2).answerCtrl 0 r.src.toNat r.msgId.toNat r.traceId.toNat 0xD0 0 (toLe 8 0) := by
  unfold leaseMsg
  rw [ctrlIn_none h]
  have hlate : decide (l.deadline < b.tb) = false := by simpa using hin
  simp only [hl, Option.getD_some, hlap, hlive, hlate, Bool.and_false, Bool.false_eq_true, if_false, if_true]
  rw [setLease_of_same (l := l) hl hlive.symm hlap.symm]

theorem leaseExpiry_late {b : Blk} {eid : Nat} {l : Lease} (hup : b.dead = false) (hrun : b.pwr.holding = false)
    (hl : mget b.ext.leases eid = some l) (hhost : mhas (b.view (.home 0)).hosts eid = true) (hlive : l.live = true)
    (hlate : l.deadline < b.tb) : leaseExpiry b eid = b.lapse eid 1 := by
  unfold leaseExpiry
  simp only [hl, hup, hrun, hhost, hlive, hlate, decide_true, Bool.not_false, Bool.and_self, if_true]

theorem leaseExpiry_early {b : Blk} {eid : Nat} (h : ∀ l, mget b.ext.leases eid = some l → l.live = false ∨ b.tb ≤ l.deadline) :
    leaseExpiry b eid = b := by
  unfold leaseExpiry
  cases hl : mget b.ext.leases eid with
  | none => rfl
  | some l =>
    dsimp only
    rw [if_neg]
    obtain h | h := h l hl
    · simp [h]
    · simp [not_lt.2 h]

theorem leaseExpiry_hold {b : Blk} (h : b.pwr.holding = true) (eid : Nat) : leaseExpiry b eid = b := by
  unfold leaseExpiry
  split
  · rw [if_neg (by simp [h])]
  · rfl

theorem length_toLe (n v : Nat) : (toLe n v).length = n := by
  induction n generalizing v with
  | zero => rfl
  | succ n ih => simp [toLe, ih]

theorem fit_lease (n : Nat) : fit (answerLen 0xD0) (toLe 8 n) = toLe 8 n := by
  have h8 : (toLe 8 n).length = 8 := length_toLe 8 n
  simp only [fit, show answerLen 0xD0 = 8 from rfl, h8]
  simp [zeros, List.take_of_length_le h8.le]

/-- Settles O23, by the state of the lease. -/
theorem leasesAreAnsweredAndLapse : Obligations.LeasesAreAnsweredAndLapse := by
  unfold Obligations.LeasesAreAnsweredAndLapse
  refine ⟨fun s r b l h hl hlap hlive hin => ?_, fun s r b h hnone => ?_, fun s r b l renew h hl hlap => ?_,
    fun s r b l h hl hlap hlive hin => ?_, fun s r b h hnone => ?_, fun s e l hup hrun hl hhost hlive hlate => ?_,
    fun s e h => ?_, fun s e h => ?_⟩
  · have hk := ctrlIn_kept h
    refine does_of_live (f := fun b => leaseMsg b r true) rfl hk.up0 ?_
    rw [leaseMsg_of_live h hl hlap hlive hin, if_pos rfl]
    refine ⟨hk.tb, ?_, rfl⟩
    have hns : b.leaseNs r.src.toNat = s.blk.leaseNs r.src.toNat := leaseNs_congr (by rw [view_congr hk.str]) _
    rw [← hk.tb, ← hns]
    exact mget_mput_self ..
  · have hk := ctrlIn_kept h
    obtain ⟨hstart, hroute⟩ := startLease_starts b r.src.toNat
    refine does_of_live (f := fun b => leaseMsg b r true) rfl hk.up0 ?_
    have hns : b.leaseNs r.src.toNat = s.blk.leaseNs r.src.toNat := leaseNs_congr (by rw [view_congr hk.str]) _
    rw [leaseMsg_of_none h hnone, if_pos rfl, ← hk.tb, ← hns]
    refine ⟨by rw [ext_answerCtrl]; exact hstart, ?_⟩
    have hsend := sendsUp_answerCtrl (b := b.startLease r.src.toNat) (q := 0) (src := r.src.toNat) (by rw [hroute]; exact hk.route) s
      r.msgId.toNat r.traceId.toNat 0xD0 0 (toLe 8 (b.tb + b.leaseNs r.src.toNat))
    rwa [fit_lease] at hsend
  · have hk := ctrlIn_kept h
    refine does_of_live (f := fun b => leaseMsg b r renew) rfl hk.up0 ?_
    rw [leaseMsg_of_lapsed h hl hlap]
    refine ⟨by rw [ext_answerCtrl], ?_⟩
    have hsend := sends_answerCtrl (q := 0) hk.up hk.route s r.msgId.toNat r.traceId.toNat 0xD0 0x1A (toLe 8 0)
    rwa [fit_lease] at hsend
  · have hk := ctrlIn_kept h
    obtain ⟨hlease, hpend, -⟩ := lapse_lapses b r.src.toNat 2
    refine does_of_live (f := fun b => leaseMsg b r false) rfl hk.up0 ?_
    rw [leaseMsg_of_live h hl hlap hlive hin, if_neg (by decide)]
    refine ⟨by rw [ext_answerCtrl]; exact hlease, fun q hq => by rw [ext_answerCtrl]; exact hpend q hq, ?_⟩
    have hstr : (b.lapse r.src.toNat 2).str = b.str := str_of_rest (rest_lapse_dev ..) (by decide)
    have hsend := sendsUp_answerCtrl (b := b.lapse r.src.toNat 2) (q := 0) (src := r.src.toNat)
      (by rw [view_congr hstr]; exact hk.route) s r.msgId.toNat r.traceId.toNat 0xD0 0 (toLe 8 0)
    rwa [fit_lease] at hsend
  · have hk := ctrlIn_kept h
    refine does_of_live (f := fun b => leaseMsg b r false) rfl hk.up0 ?_
    rw [leaseMsg_of_none h hnone, if_neg (by decide)]
    refine ⟨ext_answerCtrl .., ?_⟩
    have hsend := sends_answerCtrl (q := 0) hk.up hk.route s r.msgId.toNat r.traceId.toNat 0xD0 0x11 (toLe 8 0)
    rwa [fit_lease] at hsend
  · refine does_of_live (f := fun b => leaseExpiry b e.toNat) rfl hup ?_
    rw [leaseExpiry_late hup hrun hl hhost hlive hlate]
    obtain ⟨hlease, hpend, hother⟩ := lapse_lapses s.blk e.toNat 1
    exact ⟨hlease, hpend, hother, only_of_blk (onlyBlk_of_rest (rest_lapse_dev ..))⟩
  · refine stays_of_live (f := fun b => leaseExpiry b e.toNat) rfl fun _ => ?_
    exact leaseExpiry_early h
  · refine stays_of_live (f := fun b => leaseExpiry b e.toNat) rfl fun _ => ?_
    exact leaseExpiry_hold h _

end Sys2Proof.Proofs
end

/-! ## Extents are published and unpublished (R99 to R101, R457) -/
section
namespace Sys2Proof.Proofs

open Sys2Proof.Machine

/-! ### Little-endian fields -/

theorem leNat_lt (bs : Bytes) : leNat bs < 256 ^ bs.length := by
  induction bs with
  | nil => simp [leNat]
  | cons x bs ih =>
    have hx := x.isLt
    simp only [leNat, List.length_cons, Nat.pow_succ]
    omega

theorem length_sl (bs : Bytes) (o n : Nat) : (sl bs o n).length ≤ n := by
  simp only [sl, List.length_take]
  exact min_le_left ..

theorem arg_lt (r : CmdRec) (o n : Nat) : r.arg o n < 256 ^ n :=
  (leNat_lt _).trans_le (Nat.pow_le_pow_right (by decide) (length_sl ..))

/-- A word is an argument of 8 bytes exactly where its number is. -/
theorem eq_ofNat_arg_iff (v : DWord) (r : CmdRec) (o : Nat) : v = BitVec.ofNat 64 (r.arg o 8) ↔ v.toNat = r.arg o 8 := by
  have hlt : r.arg o 8 < 2 ^ 64 := arg_lt r o 8
  rw [← BitVec.toNat_inj, BitVec.toNat_ofNat, Nat.mod_eq_of_lt hlt]

/-! ### An extent's runtime state -/

theorem extRt_congr {x y : Blk} (h : x.ext = y.ext) (i : Nat) : x.extRt i = y.extRt i := by
  simp [Blk.extRt, h]

/-- The checkpoint entry that a change writes first may change no more than a MOD_COUNT. -/
theorem extRt_setExt (b : Blk) (i : Nat) (f : ExtRt → ExtRt) : ∃ m, (b.setExt i f).extRt i = f { b.extRt i with modCount := m } := by
  have hshow (x : Blk) (h : extShown i x.ext = extShown i b.ext) : x.extRt i = { b.extRt i with modCount := (x.extRt i).modCount } := by
    have hx : extShown i x.ext = { x.extRt i with modCount := 0 } := rfl
    have hb : extShown i b.ext = { b.extRt i with modCount := 0 } := rfl
    rw [hx, hb] at h
    generalize x.extRt i = u at h ⊢
    generalize b.extRt i = v at h ⊢
    cases u
    cases v
    simp only [ExtRt.mk.injEq] at h ⊢
    simp [h]
  unfold Blk.setExt
  dsimp only
  rw [extRt_modExt]
  split
  · exact ⟨_, congrArg f (hshow _ (kept_ckptExtAt (modProj_extShown i) ..))⟩
  · exact ⟨_, congrArg f (hshow _ rfl)⟩

theorem extRt_endPubs (b : Blk) (q i status : Nat) : (b.endPubs q i status).extRt i = { b.extRt i with pubs := [] } := by
  rw [extRt_congr (ext_endPubs ..), extRt_modExt]

theorem str_setExt (b : Blk) (i : Nat) (f : ExtRt → ExtRt) : (b.setExt i f).str = b.str :=
  str_of_rest (rest_of_onlyBlk (onlyBlk_setExt b i f)) (by decide)

/-! ### Decisions -/

/-- An extent that a Publish takes into its settle window. -/
def sealed (n : DWord) (p : Publisher) (settleEnd : Nat) (r : ExtRt) : ExtRt :=
  { r with state := .sealing, newVersion := n, pubs := [p], settleEnd := settleEnd }

/-- When the settle window of an extent that is published now ends. -/
def settlesAt (b : Blk) (i : Nat) : Nat := b.tb + b.field (Reg.haPublishSettle (((b.extEnt i).map ExtEnt.home).getD 0)) 0 10 * 1000

theorem pubDecide_active {b : Blk} {i : Nat} {x n m : DWord} (hst : (b.extRt i).state = .active) (hv : (b.extRt i).version = x)
    (hm : (b.extRt i).modCount = m) (w : Asker) (d : Bytes) :
    b.pubDecide w i x n m d = (none, b.setExt i (sealed n ⟨w, d⟩ (settlesAt b i))) := by
  subst hv hm
  simp only [Blk.pubDecide, hst, bne_self_eq_false, Bool.false_eq_true, if_false]
  rfl

theorem pubDecide_stale {b : Blk} {i : Nat} {x : DWord} (hst : (b.extRt i).state = .active) (hv : (b.extRt i).version ≠ x)
    (w : Asker) (n m : DWord) (d : Bytes) : b.pubDecide w i x n m d = (some 0x21, b) := by
  simp [Blk.pubDecide, hst, hv]

theorem pubDecide_modified {b : Blk} {i : Nat} {x m : DWord} (hst : (b.extRt i).state = .active) (hv : (b.extRt i).version = x)
    (hm : (b.extRt i).modCount ≠ m) (w : Asker) (n : DWord) (d : Bytes) : b.pubDecide w i x n m d = (some 0x22, b) := by
  simp [Blk.pubDecide, hst, hv, hm]

theorem unpubDecide_published {b : Blk} {i : Nat} {x : DWord} (hst : (b.extRt i).state = .published) (hv : (b.extRt i).version = x) :
    b.unpubDecide i x = (0x20, b.setExt i (fun r => { r with state := .active })) := by
  simp [Blk.unpubDecide, hst, hv]

/-- An extent's own checks pass only where no pair status holds. -/
theorem pairExt_of_pubCheck {b : Blk} {w : PubWho} {i : Nat} {write : Bool} (h : b.pubCheck w i write = 0) :
    b.pairExt (b.extHome i) (some i) = 0 := by
  by_contra hne
  have hval : b.pubCheck w i write = b.pairExt (b.extHome i) (some i) := if_pos hne
  exact hne (hval ▸ h)

theorem extHome_congr {x y : Blk} (h : x.str = y.str) (i : Nat) : x.extHome i = y.extHome i := by
  simp [Blk.extHome, Blk.extEnt, h]

theorem pairExt_congr {x y : Blk} (hs : x.str = y.str) (hp : x.pair = y.pair) (q : Nat) (about : Option Nat) :
    x.pairExt q about = y.pairExt q about := by
  have hstat : x.pairStatus = y.pairStatus := funext fun e => by simp [Blk.pairStatus, hp]
  simp [Blk.pairExt, view_congr hs, hstat]

/-- A control message about an extent whose checks pass reaches its target. -/
theorem ctrlIn_pub {b0 b : Blk} {ty len i : Nat} {r : Req} {w : PubWho} {write bad : Bool}
    (h : CtrlIn b0 b (b0.extHome i) r ty len false) (hpub : b.pubCheck w i write = 0) (hbad : bad = false) (go : Blk → Blk) :
    b0.ctrlIn (b0.extHome i) r ty len bad false (some i) go = go b := by
  subst hbad
  refine ctrlIn_eq h ?_ go
  have hr : rest [.regs, .aon, .pcs, .pool, .chans, .ext, .rings] b = rest [.regs, .aon, .pcs, .pool, .chans, .ext, .rings]
      (b0.reqIn (b0.extHome i) r.src.toNat ty [len] false).2 := by
    rw [h.at_, rest_traceRx (by decide) (by decide) (by decide) (by decide) (by decide) (by decide) (by decide)]
  have hpair := pairExt_of_pubCheck hpub
  rw [extHome_congr (ctrlIn_kept h).str] at hpair
  rw [← pairExt_congr (str_of_rest hr (by decide)) (pair_of_rest hr (by decide))]
  exact hpair

/-! ### The operations -/

theorem publishMsg_decided {b0 b : Blk} {i : Nat} {r : Req} {x n : DWord} (h : CtrlIn b0 b (b0.extHome i) r 0xD2 64 false) (hxn : x ≠ n)
    (hi : i ≤ 262143) (hpub : b.pubCheck (.host r.src.toNat) i true = 0) {m : DWord} {d : Bytes} {y : Option Nat × Blk}
    (hdec : b.pubDecide (.fabric r.src r.msgId r.traceId 0xD2) i x n m d = y) : publishMsg b0 r i x n m d =
      (y.1.map (fun st => y.2.answerAsker (b0.extHome i) (.fabric r.src r.msgId r.traceId 0xD2) st [])).getD y.2 := by
  unfold publishMsg
  dsimp only
  rw [ctrlIn_pub h hpub (by simp [hxn, hi])]
  simp only [hpub, ne_eq, not_true_eq_false, if_false, hdec]
  obtain ⟨st, b1⟩ := y
  cases st <;> rfl

theorem publishCmd_decided {b : Blk} {c : CmdId} {r : CmdRec} (h : HubRuns b c 0x04 r) (hfresh : r.started = false)
    (hpub : b.pubCheck r.pubWho (r.arg 0x08 4) true = 0) {y : Option Nat × Blk}
    (hdec : b.pubDecide (.cmd c) (r.arg 0x08 4) (BitVec.ofNat 64 (r.arg 0x10 8)) (BitVec.ofNat 64 (r.arg 0x18 8))
      (BitVec.ofNat 64 (r.arg 0x20 8)) (sl r.bytes 0x28 32) = y) :
    publishCmd b c = (y.1.map (fun st => y.2.answerCmd c st [])).getD (y.2.startCmd c) := by
  unfold publishCmd
  rw [hubCmd_of_runs h]
  simp only [hfresh, Bool.false_eq_true, if_false, hpub, ne_eq, not_true_eq_false, hdec]
  cases y.1 <;> rfl

theorem unpublishMsg_published {b0 b : Blk} {i : Nat} {r : Req} {x : DWord} (h : CtrlIn b0 b (b0.extHome i) r 0xD3 8 false)
    (hi : i ≤ 262143) (hpub : b.pubCheck (.host r.src.toNat) i true = 0) (hst : (b.extRt i).state = .published)
    (hv : (b.extRt i).version = x) : unpublishMsg b0 r i x =
      (b.setExt i (fun r => { r with state := .active })).answerCtrl (b0.extHome i) r.src.toNat r.msgId.toNat r.traceId.toNat 0xD3 0x20 [] := by
  unfold unpublishMsg
  dsimp only
  rw [ctrlIn_pub h hpub (by simp [hi])]
  simp only [hpub, ne_eq, not_true_eq_false, if_false, unpubDecide_published hst hv]
  rfl

theorem queryMsg_read {b0 b : Blk} {i : Nat} {r : Req} (h : CtrlIn b0 b (b0.extHome i) r 0xD4 0 false)
    (hi : i ≤ 262143) (hpub : b.pubCheck (.host r.src.toNat) i false = 0) : queryMsg b0 r i =
      b.answerCtrl (b0.extHome i) r.src.toNat r.msgId.toNat r.traceId.toNat 0xD4 0 (b.queryBytes i) := by
  unfold queryMsg
  dsimp only
  rw [ctrlIn_pub h hpub (by simp [hi])]
  simp only [hpub, if_true]
  rfl

theorem unpublishCmd_published {b : Blk} {c : CmdId} {r : CmdRec} (h : HubRuns b c 0x05 r)
    (hpub : b.pubCheck r.pubWho (r.arg 0x08 4) true = 0) (hst : (b.extRt (r.arg 0x08 4)).state = .published)
    (hv : (b.extRt (r.arg 0x08 4)).version = BitVec.ofNat 64 (r.arg 0x10 8)) :
    unpublishCmd b c = (b.setExt (r.arg 0x08 4) (fun r => { r with state := .active })).answerCmd c 0x20 [] := by
  unfold unpublishCmd
  rw [hubCmd_of_runs h]
  simp only [hpub, ne_eq, not_true_eq_false, if_false, unpubDecide_published hst hv]

theorem queryCmd_read {b : Blk} {c : CmdId} {r : CmdRec} (h : HubRuns b c 0x06 r)
    (hpub : b.pubCheck r.pubWho (r.arg 0x08 4) false = 0) : queryCmd b c = b.answerCmd c 0 (b.queryBytes (r.arg 0x08 4)) := by
  unfold queryCmd
  rw [hubCmd_of_runs h]
  simp only [hpub, if_true]

theorem settle_agreed {b : Blk} {i : Nat} {p : Publisher} {ps : List Publisher} (hup : b.dead = false)
    (hst : (b.extRt i).state = .sealing) (hend : (b.extRt i).settleEnd ≤ b.tb) (hpubs : (b.extRt i).pubs = p :: ps)
    (hsame : ∀ x ∈ ps, x.digest = p.digest) : settleWindowClose b i =
      (b.setExt i (fun r => { r with state := .published, version := r.newVersion, digest := p.digest })).endPubs (b.extHome i) i 0x20 := by
  have hall : ps.all (fun x => x.digest == p.digest) = true := by simpa using hsame
  unfold settleWindowClose
  simp only [hst, bne_self_eq_false, not_lt.2 hend, decide_false, hup, Bool.or_self, Bool.false_eq_true, if_false, hpubs, hall, if_true]

theorem settle_conflict {b : Blk} {i : Nat} {p x : Publisher} {ps : List Publisher} (hup : b.dead = false)
    (hst : (b.extRt i).state = .sealing) (hend : (b.extRt i).settleEnd ≤ b.tb) (hpubs : (b.extRt i).pubs = p :: ps)
    (hx : x ∈ ps) (hdiff : x.digest ≠ p.digest) : settleWindowClose b i =
      ((b.setExt i (fun r => { r with state := .active })).endPubs (b.extHome i) i 0x21).flag (Reg.haErr (b.extHome i)) 1 := by
  have hall : ps.all (fun x => x.digest == p.digest) = false := by
    rw [List.all_eq_false]
    exact ⟨x, hx, by simpa using hdiff⟩
  unfold settleWindowClose
  simp only [hst, bne_self_eq_false, not_lt.2 hend, decide_false, hup, Bool.or_self, Bool.false_eq_true, if_false, hpubs, hall]

theorem settle_early {b : Blk} {i : Nat} (h : b.tb < (b.extRt i).settleEnd) : settleWindowClose b i = b := by
  unfold settleWindowClose
  rw [if_pos (by simp [h])]

theorem length_queryBytes (b : Blk) (i : Nat) : (b.queryBytes i).length = 64 := by
  simp [Blk.queryBytes, length_toLe, zeros, fit]
  omega

/-- settlesAt O24, by what is decided. -/
theorem extentsArePublishedAndUnpublished : Obligations.ExtentsArePublishedAndUnpublished := by
  unfold Obligations.ExtentsArePublishedAndUnpublished
  refine ⟨fun s r b i x n m d h hxn hi hpub hst hv hm => ?_, fun s r b i x n m d h hxn hi hpub hst hv => ?_,
    fun s c r h hfresh hpub hst hv hm => ?_, fun s c r h hfresh hpub hst hv hm => ?_,
    fun s i p ps hup hst hend hpubs hsame => ?_, fun s i p x ps hup hst hend hpubs hx hdiff => ?_, fun s i h => ?_,
    fun s r b i x h hi hpub hst hv => ?_, fun s r b i h hi hpub => ?_, fun s c r h hpub hst hv => ?_, fun s c r h hpub => ?_⟩
  · refine does_of_live (f := fun b => publishMsg b r i x n m d) rfl (ctrlIn_kept h).up0 ?_
    rw [publishMsg_decided h hxn hi hpub (pubDecide_active hst hv hm ..)]
    obtain ⟨k, hk⟩ := extRt_setExt b i (sealed n ⟨.fabric r.src r.msgId r.traceId 0xD2, d⟩ (settlesAt b i))
    simp only [Option.map_none, Option.getD_none]
    rw [hk]
    exact ⟨rfl, rfl, rfl, rfl⟩
  · have hk := ctrlIn_kept h
    refine does_of_live (f := fun b => publishMsg b r i x n m d) rfl hk.up0 ?_
    rw [publishMsg_decided h hxn hi hpub (pubDecide_stale hst hv ..)]
    simp only [Option.map_some, Option.getD_some]
    refine ⟨by rw [extRt_congr (ext_answerAsker ..), hst], ?_⟩
    exact sends_answerCtrl hk.up hk.route s r.msgId.toNat r.traceId.toNat 0xD2 0x21 []
  · refine does_of_live (f := fun b => publishCmd b c) rfl h.up ?_
    rw [publishCmd_decided h hfresh hpub (pubDecide_active hst ((eq_ofNat_arg_iff ..).2 hv) ((eq_ofNat_arg_iff ..).2 hm) ..)]
    simp only [Option.map_none, Option.getD_none]
    obtain ⟨k, hk⟩ := extRt_setExt s.blk (r.arg 0x08 4)
      (sealed (BitVec.ofNat 64 (r.arg 0x18 8)) ⟨.cmd c, sl r.bytes 0x28 32⟩ (settlesAt s.blk (r.arg 0x08 4)))
    have hext (x : Blk) : (x.startCmd c).extRt (r.arg 0x08 4) = x.extRt (r.arg 0x08 4) := rfl
    rw [hext, hk]
    have hwins (x : Blk) : (x.startCmd c).hub.wins = x.hub.wins := rfl
    exact ⟨rfl, rfl, by rw [hwins, hub_setExt]⟩
  · refine does_of_live (f := fun b => publishCmd b c) rfl h.up ?_
    have hm' := fun he => hm ((eq_ofNat_arg_iff ..).1 he)
    rw [publishCmd_decided h hfresh hpub (pubDecide_modified hst ((eq_ofNat_arg_iff ..).2 hv) hm' ..)]
    exact endsOnly_answer h.found h.kept [] 0x22 []
  · refine does_of_live (f := fun b => settleWindowClose b i) rfl hup ?_
    rw [settle_agreed hup hst hend hpubs hsame]
    obtain ⟨k, hk⟩ := extRt_setExt s.blk i (fun r => { r with state := .published, version := r.newVersion, digest := p.digest })
    simp only [extRt_endPubs, hk, and_self]
  · refine does_of_live (f := fun b => settleWindowClose b i) rfl hup ?_
    rw [settle_conflict hup hst hend hpubs hx hdiff]
    obtain ⟨k, hk⟩ := extRt_setExt s.blk i (fun r => { r with state := .active })
    refine ⟨?_, ?_, ?_, ?_⟩
    · rw [extRt_congr (ext_flag ..), extRt_endPubs, hk]
    · rw [extRt_congr (ext_flag ..), extRt_endPubs, hk]
    · rw [extRt_congr (ext_flag ..), extRt_endPubs]
    · exact bit_reg_flag _ _ _ (by decide)
  · refine stays_of_live (f := fun b => settleWindowClose b i) rfl fun _ => ?_
    exact settle_early h
  · have hk := ctrlIn_kept h
    refine does_of_live (f := fun b => unpublishMsg b r i x) rfl hk.up0 ?_
    rw [unpublishMsg_published h hi hpub hst hv]
    obtain ⟨k, hset⟩ := extRt_setExt b i (fun r => { r with state := .active })
    refine ⟨by rw [extRt_congr (ext_answerCtrl ..), hset], ?_⟩
    refine sendsUp_answerCtrl (b := b.setExt i _) ?_ s r.msgId.toNat r.traceId.toNat 0xD3 0x20 []
    rw [view_congr (str_setExt ..)]
    exact hk.route
  · have hk := ctrlIn_kept h
    refine does_of_live (f := fun b => queryMsg b r i) rfl hk.up0 ?_
    rw [queryMsg_read h hi hpub]
    refine ⟨ext_answerCtrl .., ?_⟩
    have hsend := sends_answerCtrl hk.up hk.route s r.msgId.toNat r.traceId.toNat 0xD4 0 (b.queryBytes i)
    rwa [show answerLen 0xD4 = 64 from rfl, fit_of_length (length_queryBytes ..)] at hsend
  · refine does_of_live (f := fun b => unpublishCmd b c) rfl h.up ?_
    rw [unpublishCmd_published h hpub hst ((eq_ofNat_arg_iff ..).2 hv)]
    obtain ⟨k, hset⟩ := extRt_setExt s.blk (r.arg 0x08 4) (fun r => { r with state := .active })
    refine ⟨?_, ends_answerCmd h.found h.kept (by rw [hub_setExt]) 0x20 []⟩
    have hext (x : Blk) : (x.answerCmd c 0x20 []).ext = x.ext :=
      ext_of_rest (L := [.hub, .regs]) (rest_answerCmd (by decide) (by decide) ..) (by decide)
    rw [extRt_congr (hext _), hset]
  · refine does_of_live (f := fun b => queryCmd b c) rfl h.up ?_
    rw [queryCmd_read h hpub]
    exact endsOnly_answer h.found h.kept [] 0 _

end Sys2Proof.Proofs
end

/-! ## Control messages: Submit, Cancel, AgentRegister, Heartbeats and orders (R128, R199, R215, R240, R357 to R362) -/
section
namespace Sys2Proof.Proofs

open Sys2Proof.Machine

/-! ### Submit -/

theorem submitMsg_in {b0 b : Blk} {r : Req} {a thr : Nat} (hthr : thr < 4) (ha : a % 128 = 0) (h : CtrlIn b0 b thr r 0xD1 0 false)
    (ck : Nat) : submitMsg b0 r a thr ck =
      b.submit ⟨.fabric r.src r.msgId r.traceId 0xD1, some r.src.toNat, b.hostPart r.src.toNat, .pool, a, ck, b.tb⟩ thr
        (b.leaseStatus r.src.toNat) := by
  have hbad : ((decide (4 ≤ thr) && thr != 0xF) || a % 128 != 0) = false := by simp [hthr, ha]
  unfold submitMsg
  rw [if_pos hthr]
  dsimp only
  rw [hbad, ctrlIn_none h]

theorem submit_full {b : Blk} {thr : Nat} (hthr : thr < 4) (hl : b.str.loaded = true) (hfull : 16 ≤ (b.thr thr).wait.length)
    (r : SubmitReq) : b.submit r thr 0 = (b.incr (Reg.thrSubmitCnt thr)).reject thr r 0x54 0 0 := by
  have hl' : (b.incr (Reg.thrSubmitCnt thr)).str.loaded = true := hl
  have hfull' : 16 ≤ ((b.incr (Reg.thrSubmitCnt thr)).thr thr).wait.length := hfull
  unfold Blk.submit
  simp only [hthr, if_true, ne_eq, not_true_eq_false, if_false, hl', Bool.not_true, Bool.false_eq_true, hfull']

theorem submit_lapsed {b : Blk} {thr st : Nat} (hthr : thr < 4) (hst : st ≠ 0) (r : SubmitReq) :
    b.submit r thr st = (b.incr (Reg.thrSubmitCnt thr)).reject thr r st 0 0 := by
  unfold Blk.submit
  simp only [hthr, if_true, ne_eq, hst, not_false_eq_true]

theorem length_submitResult (a b c : Nat) : (submitResult a b c).length = 8 := by
  simp [submitResult, length_toLe, zeros]

/-- A Submit of a fabric host that is rejected is answered, and leaves the Threshers as they are. -/
theorem reject_fabric {b : Blk} {q src : Nat} (hup : b.dead = false) (hroute : mhas (b.view (.router (Fin.ofNat 4 q))).eids src = true)
    (s : State) {r : SubmitReq} {e : Eid} {m t : BitVec 16} (hwho : r.who = .fabric e m t 0xD1) (hsrc : e.toNat = src)
    (st : Nat) :
    (b.reject q r st 0 0).work = b.work ∧ Sends { s with blk := b.reject q r st 0 0 } q 0x48 src st (submitResult 0 0 0) := by
  have hwork : (b.reject q r st 0 0).work = b.work :=
    work_of_rest (L := [.regs, .aon, .pcs, .pool, .chans, .ext, .fab, .rings, .hub]) (rest_reject (by decide) (by decide) (by decide)
      (by decide) (by decide) (by decide) (by decide) (by decide) (by decide) ..) (by decide)
  refine ⟨hwork, ?_⟩
  subst hsrc
  unfold Blk.reject
  have hr := rest_trace (L := [.regs, .aon, .pcs, .pool, .chans, .ext, .rings]) (by decide) (by decide) (by decide) (by decide)
    (by decide) (by decide) (by decide) ((((b.incr (Reg.thrRejectCnt q)).flag (Reg.thrErr q) 0).setReg (Reg.thrLastReject q)
      (BitVec.ofNat 32 (st + 0 * 65536))).setReg (Reg.thrLastRejectB q) (BitVec.ofNat 32 0))
      { source := 2, event := 2, part := r.part, unit := 24 + q, a := r.cookie * 256 }
  dsimp only
  generalize Blk.trace _ _ = x at hr ⊢
  rw [hwho]
  have hupx : x.dead = false := (dead_of_rest hr (by decide)).trans hup
  have hsend := sends_answerCtrl (b := x) (q := q) (src := e.toNat) hupx (by
    rw [view_congr (str_of_rest hr (by decide))]
    exact hroute) s m.toNat t.toNat 0xD1 st (submitResult 0 0 0)
  rwa [show answerLen 0xD1 = 8 from rfl, fit_of_length (length_submitResult ..)] at hsend

theorem thr_modThr_self (b : Blk) (q : Nat) (f : Thresher → Thresher) : (b.modThr q f).thr q = f (b.thr q) :=
  tget_tmod_self ..

/-! ### Cancel -/

/-- A Cancel that finds its Sheaf open aborts it (R215). -/
def aborted (b : Blk) (slot : Nat) : Blk := (b.abortSheaf slot 0x5A).checkEnd slot

theorem str_aborted (b : Blk) (slot : Nat) : (aborted b slot).str = b.str := by
  have hend := rest_checkEnd (L := [.regs, .dead, .pins, .fresh, .aon, .pcs, .pool, .chans, .ext, .coh, .fab, .work, .rings, .pair, .hub])
    (by decide) (by decide) (by decide) (by decide) (by decide) (by decide) (by decide) (by decide) (by decide) (by decide) (by decide)
    (by decide) (by decide) (by decide) (by decide) (b.abortSheaf slot 0x5A) slot
  have habort := rest_abortSheaf (L := [.regs, .aon, .pcs, .pool, .chans, .ext, .coh, .work, .rings])
    (by decide) (by decide) (by decide) (by decide) (by decide) (by decide) (by decide) (by decide) (by decide) b slot 0x5A
  exact (str_of_rest hend (by decide)).trans (str_of_rest habort (by decide))

theorem cancelMsg_in {b0 b : Blk} {r : Req} {slot : Nat} (h : CtrlIn b0 b (slot / 64) r 0xD5 0 true)
    (hl : b.leaseStatus r.src.toNat = 0) {ck st : Nat} {x : Blk} (hx : b.cancel slot ck (some (b.hostPart r.src.toNat)) = (st, x)) :
    cancelMsg b0 r slot ck = x.answerCtrl (slot / 64) r.src.toNat r.msgId.toNat r.traceId.toNat 0xD5 st [] := by
  unfold cancelMsg
  dsimp only
  rw [ctrlIn_none h]
  simp only [hl, ne_eq, not_true_eq_false, if_false, hx]
  rfl

theorem work_answerCtrl (b : Blk) (q src msgId traceId ty status : Nat) (payload : Bytes) :
    (b.answerCtrl q src msgId traceId ty status payload).work = b.work :=
  work_of_rest (L := [.regs, .fab]) (rest_answerCtrl (by decide) (by decide) ..) (by decide)

/-! ### AgentRegister -/

theorem agentProj_agents : AgentProj (fun c => (c.agents, c.suspended)) := ⟨fun _ _ _ _ _ _ _ _ _ _ _ _ _ _ => rfl⟩

/-- The home agents where a suspended agent has been registered anew (R128). -/
def registeredIn (b : Blk) (src : Nat) (g : Agent) : Blk :=
  { b with
    coh.agents := mput b.coh.agents src { g with registered := true, suspended := false }
    coh.suspended := b.coh.suspended.filter (fun s => s.2 != src)
    coh.timeouts := (List.range 4).foldl (fun t q => mdel t (q * 65536 + src)) b.coh.timeouts }

/-- The same with the checkpoint entry and the trace record. -/
def registrationNoted (b : Blk) (src : Nat) (g : Agent) : Blk :=
  (if (registeredIn b src g).ckptOn then (registeredIn b src g).ckptAgentAt src ⟨g.index, true, false⟩ else registeredIn b src g).trace
    { source := 11, event := 2, part := b.hostPart src, unit := 28, eid := src, a := g.index }

theorem agentRegisterMsg_in {b0 b : Blk} {r : Req} {g : Agent} {l : Lease} (h : CtrlIn b0 b 0 r 0xD6 0 false)
    (hag : ((mget (b.view (.home 0)).hosts r.src.toNat).map (·.agent)).getD false = true) (hg : mget b.coh.agents r.src.toNat = some g)
    (hl : mget b.ext.leases r.src.toNat = some l) (hlap : l.lapsed = false) (hlive : l.live = true)
    (hwalk : b.walking r.src.toNat = false) : agentRegisterMsg b0 r =
      (registrationNoted b r.src.toNat g).answerCtrl 0 r.src.toNat r.msgId.toNat r.traceId.toNat 0xD6 0 (toLe 2 g.index ++ zeros 6) := by
  unfold agentRegisterMsg
  dsimp only
  rw [ctrlIn_none h]
  simp only [hag, if_true, hg, hl, Option.getD_some, hlap, hlive, hwalk, Bool.not_true, Bool.false_eq_true, if_false]
  rfl

theorem agentRegisterMsg_unknown {b0 b : Blk} {r : Req} (h : CtrlIn b0 b 0 r 0xD6 0 false)
    (hno : mget b.coh.agents r.src.toNat = none ∨ ((mget (b.view (.home 0)).hosts r.src.toNat).map (·.agent)).getD false = false) :
    agentRegisterMsg b0 r = b.answerCtrl 0 r.src.toNat r.msgId.toNat r.traceId.toNat 0xD6 0x15 (toLe 2 0 ++ zeros 6) := by
  unfold agentRegisterMsg
  dsimp only
  rw [ctrlIn_none h]
  have hnone : (if ((mget (b.view (.home 0)).hosts r.src.toNat).map (·.agent)).getD false = true then
      mget b.coh.agents r.src.toNat else none) = none := by
    obtain hno | hno := hno
    · simp [hno]
    · simp [hno]
  simp only [hnone]

/-- A registration shows in the registry, and no home agent holds the agent suspended. -/
theorem registrationNoted_registers (b : Blk) (src : Nat) (g : Agent) :
    mget (registrationNoted b src g).coh.agents src = some { g with registered := true, suspended := false } ∧
      (∀ q, (q, src) ∉ (registrationNoted b src g).coh.suspended) ∧ (registrationNoted b src g).str = b.str := by
  have hcoh : ((registrationNoted b src g).coh.agents, (registrationNoted b src g).coh.suspended) =
      ((registeredIn b src g).coh.agents, (registeredIn b src g).coh.suspended) := by
    unfold registrationNoted
    rw [coh_trace]
    split
    · exact agents_devWrite agentProj_agents ..
    · rfl
  have hstr : (registrationNoted b src g).str = b.str := by
    unfold registrationNoted
    refine (str_of_rest (L := [.regs, .aon, .pcs, .pool, .chans, .ext, .rings]) (rest_trace (by decide) (by decide) (by decide)
      (by decide) (by decide) (by decide) (by decide) ..) (by decide)).trans ?_
    split
    · exact str_of_rest (L := [.regs, .dead, .pins, .fresh, .aon, .pcs, .pool, .chans, .ext, .coh, .fab, .rings, .pair, .hub])
        (rest_ckptAgentAt (by decide) (by decide) (by decide) (by decide) (by decide) (by decide) (by decide) (by decide) (by decide)
          (by decide) (by decide) (by decide) (by decide) (by decide) ..) (by decide)
    · rfl
  obtain ⟨hagents, hsusp⟩ := Prod.mk.inj hcoh
  refine ⟨?_, fun q => ?_, hstr⟩
  · rw [hagents]
    exact mget_mput_self ..
  · rw [hsusp]
    simp [registeredIn]

/-! ### Heartbeats -/

theorem pairProj_heard : PairProj (fun p => (p.peerAt, p.witAt)) := ⟨fun _ _ _ _ _ _ _ => rfl⟩

theorem pair_traceRx (b : Blk) (q src ty msgId traceId addr : Nat) : (b.traceRx q src ty msgId traceId addr).pair = b.pair :=
  pair_of_rest (L := [.regs, .aon, .pcs, .pool, .chans, .ext, .rings]) (rest_traceRx (by decide) (by decide) (by decide) (by decide)
    (by decide) (by decide) (by decide) ..) (by decide)

theorem rest_traceRx_quiet (b : Blk) (q src ty msgId traceId addr : Nat) :
    rest quietRegions (b.traceRx q src ty msgId traceId addr) = rest quietRegions b :=
  rest_traceRx (by decide) (by decide) (by decide) (by decide) (by decide) (by decide) (by decide) ..

theorem heartbeatMsg_witness {b : Blk} {r : Req} (hup : b.dead = false) (hl : b.str.loaded = true) (hsrc : b.pairSource r.src.toNat = true)
    (hform : r.reservedSet = false) (hwit : r.src.toNat = b.str.run.pair.witness) (role : Nat) :
    (heartbeatMsg b r role).pair = { b.pair with witAt := some b.tb } := by
  have hr := rest_traceRx_quiet b 0 r.src.toNat 0x4C r.msgId.toNat r.traceId.toNat 0
  unfold heartbeatMsg
  simp only [hup, hl, hsrc, hform, Bool.not_true, Bool.or_self, Bool.false_eq_true, if_false]
  generalize b.traceRx 0 r.src.toNat 0x4C r.msgId.toNat r.traceId.toNat 0 = x at hr ⊢
  rw [if_pos (by rw [str_of_rest hr (by decide)]; exact hwit)]
  simp only [pair_of_rest hr (by decide), tb_of_rest hr (by decide)]

theorem heard_syncCheck (b : Blk) : (b.syncCheck.pair.peerAt, b.syncCheck.pair.witAt) = (b.pair.peerAt, b.pair.witAt) := by
  have hd := pairKept_ckptHead pairProj_heard b
  unfold Blk.syncCheck
  split
  · dsimp only
    split
    · exact (pairKept_setPairPins pairProj_heard ..).trans hd
    · exact hd
  · rfl

theorem heard_startCopy (b : Blk) : (b.startCopy.pair.peerAt, b.startCopy.pair.witAt) = (b.pair.peerAt, b.pair.witAt) := by
  unfold Blk.startCopy
  split <;> rfl

theorem heartbeatMsg_peer {b : Blk} {r : Req} (hup : b.dead = false) (hl : b.str.loaded = true) (hsrc : b.pairSource r.src.toNat = true)
    (hform : r.reservedSet = false) (hwit : r.src.toNat ≠ b.str.run.pair.witness) (role : Nat) :
    ((heartbeatMsg b r role).pair.peerAt, (heartbeatMsg b r role).pair.witAt) = (some b.tb, b.pair.witAt) := by
  have hr := rest_traceRx_quiet b 0 r.src.toNat 0x4C r.msgId.toNat r.traceId.toNat 0
  unfold heartbeatMsg
  simp only [hup, hl, hsrc, hform, Bool.not_true, Bool.or_self, Bool.false_eq_true, if_false]
  generalize b.traceRx 0 r.src.toNat 0x4C r.msgId.toNat r.traceId.toNat 0 = x at hr ⊢
  rw [if_neg (by rw [str_of_rest hr (by decide)]; exact hwit)]
  have hnote : ((({ x with pair.peerAt := some x.tb } : Blk)).syncCheck.pair.peerAt,
      (({ x with pair.peerAt := some x.tb } : Blk)).syncCheck.pair.witAt) = (some b.tb, b.pair.witAt) := by
    rw [heard_syncCheck]
    simp only [pair_of_rest hr (by decide), tb_of_rest hr (by decide)]
  split
  · exact (heard_startCopy ..).trans hnote
  · exact hnote

theorem heartbeatMsg_other {b : Blk} {r : Req} (hup : b.dead = false) (hl : b.str.loaded = true)
    (hsrc : b.pairSource r.src.toNat = false) (role : Nat) : heartbeatMsg b r role = b.malformed 0 := by
  simp [heartbeatMsg, hup, hl, hsrc]

/-! ### Orders of the witness -/

/-- The block where an order has been accepted, its TERM kept and the order traced. -/
def orderNoted (b : Blk) (r : Req) (p : Bytes) : Blk :=
  (({ b with pair.term := le p 0 8 } : Blk).traceRx 0 r.src.toNat 0x4D r.msgId.toNat r.traceId.toNat 0).trace
    { source := 12, event := 1, unit := 112, a := le p 0 8 }

theorem rest_orderNoted (b : Blk) (r : Req) (p : Bytes) :
    rest quietRegions (orderNoted b r p) = rest quietRegions { b with pair.term := le p 0 8 } := by
  unfold orderNoted
  rw [rest_trace (by decide) (by decide) (by decide) (by decide) (by decide) (by decide) (by decide), rest_traceRx_quiet]

/-- An order that the controller can carry out takes effect where its signature verifies, and is discarded and counted otherwise. -/
theorem takeoverMsg_able {b : Blk} {r : Req} {p : Bytes} (h : OrderIn b r p)
    (hable : (u8 p 8 = 1 ∧ (b.pair.role == 2 && b.pair.inSync && !b.pair.fenced && !b.pwr.holding) = true) ∨
      (u8 p 8 = 2 ∧ b.pair.role = 1)) : takeoverMsg b r p =
      if orderSigned b p then (if u8 p 8 = 1 then (orderNoted b r p).takeOver else (orderNoted b r p).goSolo) else b.rejectOrder := by
  obtain ⟨hup, hl, hsrc, hform, hlen, ⟨hr9, hre, hr14⟩, hnew, hself, hecho⟩ := h
  have hcan : ((u8 p 8 == 1 && (le p 0x0C 2 != b.str.run.self || (b.pair.role == 2 && b.pair.inSync && !b.pair.fenced && !b.pwr.holding))) ||
      (u8 p 8 == 2 && (le p 0x0C 2 != b.str.run.self || (b.pair.role == 1 || b.pair.fenced)))) = true := by
    obtain ⟨ho, hst⟩ | ⟨ho, hr⟩ := hable
    · simp [ho, hst]
    · simp [ho, hr]
  unfold takeoverMsg
  dsimp only
  rw [if_neg (by simp [hup, hl]), if_neg (by simp [hsrc, hform, hlen])]
  cases hs : orderSigned b p with
  | true =>
    rw [orderSigned] at hs
    rw [hcan, if_neg (by simp [hs, hr9, hre, hr14, hnew, hself, hecho])]
    simp only [hself, if_true]
    rfl
  | false =>
    rw [orderSigned] at hs
    rw [if_pos (by simp [hs])]
    simp

theorem pairProj_order : PairProj (fun p => (p.term, p.role, p.solo, p.gap, p.t0, p.fenced)) := ⟨fun _ _ _ _ _ _ _ => rfl⟩

/-- Order 1 makes the controller a solo primary in the gap (R362). -/
theorem takeOver_gap (b : Blk) : b.takeOver.pair.term = b.pair.term ∧ b.takeOver.pair.role = 1 ∧ b.takeOver.pair.solo = true ∧
    b.takeOver.pair.gap = true ∧ b.takeOver.pair.t0 = b.tb := by
  have h := (pairKept_restore pairProj_order (({ b with
    pair.role := 1, pair.solo := true, pair.gap := true, pair.t0 := b.tb, pair.witSince := b.tb, pair.copy := none,
    pair.ckptAt := b.tb } : Blk).flag Reg.hubPairErr 2))
  simp only [Prod.mk.injEq] at h
  obtain ⟨hterm, hrole, hsolo, hgap, ht0, -⟩ := h
  exact ⟨hterm, hrole, hsolo, hgap, ht0⟩

/-- Order 2 makes the controller a solo primary at once (R355). -/
theorem goSolo_solo (b : Blk) : b.goSolo.pair.term = b.pair.term ∧ b.goSolo.pair.role = 1 ∧ b.goSolo.pair.solo = true ∧
    b.goSolo.pair.fenced = b.mgmt.failed := by
  have h := (pairKept_setPairPins pairProj_order ((({ b with
    pair.role := 1, pair.solo := true, pair.fenced := b.mgmt.failed, pair.witSince := b.tb, pair.copy := none } : Blk).endMirrors 0).flag
      Reg.hubPairErr 3)).trans (pairKept_endMirrors pairProj_order ({ b with
    pair.role := 1, pair.solo := true, pair.fenced := b.mgmt.failed, pair.witSince := b.tb, pair.copy := none } : Blk) 0)
  simp only [Prod.mk.injEq] at h
  obtain ⟨hterm, hrole, hsolo, -, -, hfenced⟩ := h
  exact ⟨hterm, hrole, hsolo, hfenced⟩

theorem rejectOrder_effect (s : State) :
    s.blk.rejectOrder.pair = s.blk.pair ∧ Only [.regs] s { s with blk := s.blk.rejectOrder } ∧
      (s.blk.rejectOrder.reg Reg.hubPairErr).getLsbD 0 = true :=
  ⟨rfl, only_of_blk (onlyBlk_of_rest (rest_rejectOrder (by decide) _)), bit_reg_flag _ _ _ (by decide)⟩

/-- Settles O33, by the message. -/
theorem controlMessagesAreTaken : Obligations.ControlMessagesAreTaken := by
  unfold Obligations.ControlMessagesAreTaken
  refine ⟨fun s r b a thr ck hthr ha h hload => ⟨fun hl hroom => ?_, fun hl hfull => ?_, fun hl => ?_⟩,
    fun s r b slot ck z h hl hz hck hpart => ⟨fun hend hab => ?_, fun st hend => ?_⟩, fun s r b slot ck h hl hz => ?_,
    fun s r b g l h hag hg hlease hlap hlive hwalk => ?_, fun s r b h hno => ?_,
    fun s r n ro tm hup hload hsrc hform => ⟨fun hwit => ?_, fun hwit => ?_⟩, fun s r n ro tm hup hload hsrc => ?_,
    fun s r p h hone hrole hsync hfree hrun => ?_, fun s r p h htwo hrole hmgmt => ?_⟩
  · refine does_of_live (f := fun b => submitMsg b r a.toNat thr.toNat ck.toNat) rfl (ctrlIn_kept h).up0 ?_
    rw [submitMsg_in hthr ha h, hl, submit_waits _ hthr hload hroom]
    simp only [thr_modThr_self]
    rfl
  · have hk := ctrlIn_kept h
    refine does_of_live (f := fun b => submitMsg b r a.toNat thr.toNat ck.toNat) rfl hk.up0 ?_
    rw [submitMsg_in hthr ha h, hl, submit_full hthr hload hfull]
    exact reject_fabric (b := b.incr _) hk.up hk.route s rfl rfl 0x54
  · have hk := ctrlIn_kept h
    refine does_of_live (f := fun b => submitMsg b r a.toNat thr.toNat ck.toNat) rfl hk.up0 ?_
    rw [submitMsg_in hthr ha h, submit_lapsed hthr hl]
    exact reject_fabric (b := b.incr _) hk.up hk.route s rfl rfl _
  · have hk := ctrlIn_kept h
    refine does_of_live (f := fun b => cancelMsg b r slot.val ck.toNat) rfl hk.up0 ?_
    rw [cancelMsg_in h hl (st := 0) (x := aborted b slot.val) (by rw [← hck, ← hpart]; exact cancel_of_open hz (.inr rfl) hend)]
    refine ⟨?_, ?_⟩
    · refine sendsUp_answerCtrl (b := aborted b slot.val) ?_ s r.msgId.toNat r.traceId.toNat 0xD5 0 []
      rw [view_congr (str_aborted ..)]
      exact hk.route
    · have hab := aborted_checkEnd (aborted_abortSheaf 0x5A hz hab (closed_of_lastEnded hend))
      exact (aborted_congr (congrArg Work.sheafs (work_answerCtrl ..))).2 hab
  · have hk := ctrlIn_kept h
    refine does_of_live (f := fun b => cancelMsg b r slot.val ck.toNat) rfl hk.up0 ?_
    rw [cancelMsg_in h hl (st := st) (x := b) (by rw [← hck, ← hpart]; exact cancel_of_ended hz (.inr rfl) hend)]
    exact ⟨work_answerCtrl .., sends_answerCtrl hk.up hk.route s r.msgId.toNat r.traceId.toNat 0xD5 st []⟩
  · have hk := ctrlIn_kept h
    refine does_of_live (f := fun b => cancelMsg b r slot.val ck.toNat) rfl hk.up0 ?_
    rw [cancelMsg_in h hl (cancel_none _ _ hz)]
    exact ⟨work_answerCtrl .., sends_answerCtrl hk.up hk.route s r.msgId.toNat r.traceId.toNat 0xD5 0x5E []⟩
  · have hk := ctrlIn_kept h
    refine does_of_live (f := fun b => agentRegisterMsg b r) rfl hk.up0 ?_
    rw [agentRegisterMsg_in h hag hg hlease hlap hlive hwalk]
    obtain ⟨hagent, hsusp, hstr⟩ := registrationNoted_registers b r.src.toNat g
    have hcoh : ∀ x : Blk, (x.answerCtrl 0 r.src.toNat r.msgId.toNat r.traceId.toNat 0xD6 0 (toLe 2 g.index ++ zeros 6)).coh = x.coh :=
      fun x => coh_answerCtrl ..
    refine ⟨by rw [hcoh]; exact hagent, fun q => by rw [hcoh]; exact hsusp q, ?_⟩
    have hsend := sendsUp_answerCtrl (b := registrationNoted b r.src.toNat g) (q := 0) (src := r.src.toNat)
      (by rw [view_congr hstr]; exact hk.route) s r.msgId.toNat r.traceId.toNat 0xD6 0 (toLe 2 g.index ++ zeros 6)
    rwa [show answerLen 0xD6 = 8 from rfl, fit_of_length (by simp [length_toLe, zeros])] at hsend
  · have hk := ctrlIn_kept h
    refine does_of_live (f := fun b => agentRegisterMsg b r) rfl hk.up0 ?_
    rw [agentRegisterMsg_unknown h hno]
    refine ⟨coh_answerCtrl .., ?_⟩
    exact sends_answerCtrl hk.up hk.route s r.msgId.toNat r.traceId.toNat 0xD6 0x15 (toLe 2 0 ++ zeros 6)
  · refine does_of_live (f := fun b => heartbeatMsg b r ro.toNat) rfl hup ?_
    exact heartbeatMsg_witness hup hload hsrc hform hwit _
  · refine does_of_live (f := fun b => heartbeatMsg b r ro.toNat) rfl hup ?_
    exact Prod.mk.inj (heartbeatMsg_peer hup hload hsrc hform hwit _)
  · refine does_of_live (f := fun b => heartbeatMsg b r ro.toNat) rfl hup ?_
    rw [heartbeatMsg_other hup hload hsrc]
    exact ⟨only_of_blk (onlyBlk_of_rest (rest_malformed (by decide) ..)), bit_reg_flag _ _ _ (by decide)⟩
  · refine does_of_live (f := fun b => takeoverMsg b r p) rfl h.up ?_
    rw [takeoverMsg_able h (.inl ⟨hone, by simp [hrole, hsync, hfree, hrun]⟩)]
    cases hs : orderSigned s.blk p with
    | true =>
      rw [if_pos rfl, if_pos hone, if_pos rfl]
      have hr := rest_orderNoted s.blk r p
      obtain ⟨hterm, hone, hsolo, hgap, ht0⟩ := takeOver_gap (orderNoted s.blk r p)
      exact ⟨hterm.trans (congrArg Pair.term (pair_of_rest hr (by decide))), hone, hsolo, hgap, ht0.trans ((tb_of_rest hr (by decide)).trans rfl)⟩
    | false => exact rejectOrder_effect s
  · refine does_of_live (f := fun b => takeoverMsg b r p) rfl h.up ?_
    rw [takeoverMsg_able h (.inr ⟨htwo, hrole⟩)]
    cases hs : orderSigned s.blk p with
    | true =>
      rw [if_pos rfl, if_neg (by rw [htwo]; decide : ¬ u8 p 8 = 1), if_pos rfl]
      have hr := rest_orderNoted s.blk r p
      obtain ⟨hterm, hone, hsolo, hfenced⟩ := goSolo_solo (orderNoted s.blk r p)
      exact ⟨hterm.trans (congrArg Pair.term (pair_of_rest hr (by decide))), hone, hsolo,
        hfenced.trans ((congrArg Mgmt.failed (mgmt_of_rest hr (by decide))).trans hmgmt)⟩
    | false => exact rejectOrder_effect s

end Sys2Proof.Proofs
end

/-! ## A structure loads (R62, R63, R74, R75) -/
section
namespace Sys2Proof.Proofs

open Sys2Proof.Machine

/-! ### What the steps of a load leave -/

/-- What the steps that follow the tables' load leave as it is. -/
structure LoadKept (x y : Blk) : Prop where
  str : y.str = x.str
  ready : y.pins.devReady = x.pins.devReady
  guard : y.sec.guard = x.sec.guard
  hub : y.hub = x.hub

theorem LoadKept.refl (x : Blk) : LoadKept x x := ⟨rfl, rfl, rfl, rfl⟩

theorem LoadKept.trans {x y z : Blk} (h : LoadKept y z) (g : LoadKept x y) : LoadKept x z :=
  ⟨h.str.trans g.str, h.ready.trans g.ready, h.guard.trans g.guard, h.hub.trans g.hub⟩

theorem loadKept_of_rest {L : List Region} {x y : Blk} (h : rest L y = rest L x) (hs : .str ∉ L) (hp : .pins ∉ L) (hg : .sec ∉ L)
    (hh : .hub ∉ L) : LoadKept x y :=
  ⟨str_of_rest h hs, congrArg Pins.devReady (pins_of_rest h hp), congrArg Sec.guard (sec_of_rest h hg), hub_of_rest h hh⟩

theorem loadKept_foldl {α : Type} {f : Blk → α → Blk} (h : ∀ x a, LoadKept x (f x a)) (as : List α) (x : Blk) :
    LoadKept x (as.foldl f x) := by
  induction as generalizing x with
  | nil => exact .refl x
  | cons a as ih => exact (ih _).trans (h x a)

theorem loadKept_ckptEntry (b : Blk) (off : Nat) (e : Nat → Bytes) : LoadKept b (b.ckptEntry off e) := by
  have hr := rest_ckptEntry (L := [.pair] ++ .hub :: devRegions) (by decide) (by decide) (by decide) (by decide) (by decide) (by decide)
    (by decide) (by decide) (by decide) (by decide) (by decide) (by decide) (by decide) (by decide) b off e
  exact ⟨str_of_rest hr (by decide), ready_ckptEntry .., congrArg Sec.guard (sec_of_rest hr (by decide)), hub_ckptEntry ..⟩

theorem loadKept_setExt (b : Blk) (i : Nat) (f : ExtRt → ExtRt) : LoadKept b (b.setExt i f) := by
  have hk : LoadKept b (b.ckptExtAt i (f (b.extRt i))) := loadKept_ckptEntry ..
  unfold Blk.setExt
  dsimp only
  split
  · exact ⟨hk.str, hk.ready, hk.guard, hk.hub⟩
  · exact ⟨rfl, rfl, rfl, rfl⟩

theorem loadKept_setLease (b : Blk) (eid : Nat) (l : Lease) : LoadKept b (b.setLease eid l) := by
  have hk : LoadKept b (b.ckptHost eid l) := loadKept_ckptEntry ..
  unfold Blk.setLease
  dsimp only
  split
  · exact ⟨hk.str, hk.ready, hk.guard, hk.hub⟩
  · exact ⟨rfl, rfl, rfl, rfl⟩

theorem expPend_setLease (b : Blk) (eid : Nat) (l : Lease) : (b.setLease eid l).ext.expPend = b.ext.expPend := by
  unfold Blk.setLease
  dsimp only
  split
  · exact kept_ckptEntry extProj_expPend.mod ..
  · rfl

/-- Where no expiry waits, a lease that starts changes no more than the leases and the checkpoint. -/
theorem startLease_of_none {b : Blk} (h : b.ext.expPend = []) (eid : Nat) :
    LoadKept b (b.startLease eid) ∧ (b.startLease eid).ext.expPend = [] := by
  have htake : (List.range 4).foldl (fun b q => expireTake b q eid) b = b := by
    have hone (q : Nat) : expireTake b q eid = b := expireTake_of_not (by simp [h])
    have hall (l : List Nat) : l.foldl (fun b q => expireTake b q eid) b = b := by
      induction l with
      | nil => rfl
      | cons q l ih => rw [List.foldl_cons, hone, ih]
    exact hall _
  unfold Blk.startLease
  rw [htake]
  have hk := loadKept_setLease b eid ⟨true, false, b.tb + b.leaseNs eid⟩
  exact ⟨⟨hk.str, hk.ready, hk.guard, hk.hub⟩, (expPend_setLease ..).trans h⟩

theorem bindAgent_kept (b : Blk) (eid past : Nat) :
    LoadKept b (b.bindAgent eid past) ∧ (b.bindAgent eid past).ext.expPend = b.ext.expPend := by
  have hr := rest_bindAgent (L := [.regs, .aon, .pcs, .pool, .chans, .ext, .coh, .rings]) (by decide) (by decide) (by decide) (by decide)
    (by decide) (by decide) (by decide) (by decide) b eid past
  exact ⟨loadKept_of_rest hr (by decide) (by decide) (by decide) (by decide), kept_trace extProj_expPend.mod ..⟩

theorem startHosts_kept {b : Blk} (h : b.ext.expPend = []) (ks : List Nat) : LoadKept b (b.startHosts ks) := by
  unfold Blk.startHosts
  suffices hall : ∀ x : Blk, LoadKept b x ∧ x.ext.expPend = [] → LoadKept b (ks.foldl (fun b e => match mget (b.view (.home 0)).hosts e with
      | some h => if h.agent then (b.startLease e).bindAgent e else b.startLease e
      | none => b) x) from hall b ⟨.refl b, h⟩
  induction ks with
  | nil => exact fun x hx => hx.1
  | cons e ks ih =>
    intro x hx
    obtain ⟨hk, hnone⟩ := hx
    refine ih _ ?_
    obtain ⟨hlease, hpend⟩ := startLease_of_none hnone e
    dsimp only
    split
    · split
      · obtain ⟨hbind, hbp⟩ := bindAgent_kept (x.startLease e) e 0
        exact ⟨hbind.trans (hlease.trans hk), hbp.trans hpend⟩
      · exact ⟨hlease.trans hk, hpend⟩
    · exact ⟨hk, hnone⟩

theorem loadKept_zeroStep (b : Blk) : LoadKept b b.zeroStep := by
  have hinit : LoadKept b b.initDone := by
    unfold Blk.initDone
    refine loadKept_foldl (fun x e => ?_) _ _
    split
    · exact loadKept_setExt ..
    · exact .refl x
  have hflush (x : Blk) : LoadKept x x.logFlush :=
    loadKept_of_rest (rest_logFlush (L := quietRegions) (by decide) (by decide) (by decide) (by decide) (by decide) (by decide)
      (by decide) x) (by decide) (by decide) (by decide) (by decide)
  unfold Blk.zeroStep
  refine (hflush _).trans ?_
  dsimp only
  split
  · exact ⟨hinit.str, hinit.ready, hinit.guard, hinit.hub⟩
  · exact hinit

/-! ### The load -/

/-- The tables of every block as a full image gives them (orders 5 to 7 of R62). -/
def tablesLoaded (b : Blk) (i : Image) (bs : Bytes) : Blk :=
  let s := fullStruct i
  let d := sha256 bs
  let b1 := (b.setGuard i bs).drawKeys s
  { b1 with
    str := { b1.str with loaded := true, locked := true, last := 0, epoch := i.epoch, run := s, staged := none, commit := none }
    sec.meas := mput (mput b1.sec.meas 6 d) 7 d
    pool := { capGib := b1.leastGib, speed := b1.commonSpeed, usable := usableOf s.mode (lchOf b1.leastGib), zeroOn := true,
              window := b1.tb / 10000 }
    ext := { exts := s.exts.map (fun e => (e.1, { state := .init })) }
    traf := { b1.traf with ents := [], gates := [] }
    pins.devReady := true }

theorem loadKept_loadStruct (b : Blk) (i : Image) (bs : Bytes) : LoadKept (tablesLoaded b i bs) (b.loadStruct i bs) := by
  have hbufs : LoadKept (tablesLoaded b i bs) (((fullStruct i).gates.foldl (fun b g => b.loadGate g.1 g.2)
      (i.traffic.foldl (fun b t => b.addTraf t.2) (tablesLoaded b i bs))).setRings (fullStruct i).trace true).placeAll ∧
      (((fullStruct i).gates.foldl (fun b g => b.loadGate g.1 g.2)
      (i.traffic.foldl (fun b t => b.addTraf t.2) (tablesLoaded b i bs))).setRings (fullStruct i).trace true).placeAll.ext =
        (tablesLoaded b i bs).ext := by
    have hr : rest [.traf, .rings, .pool] (((fullStruct i).gates.foldl (fun b g => b.loadGate g.1 g.2)
        (i.traffic.foldl (fun b t => b.addTraf t.2) (tablesLoaded b i bs))).setRings (fullStruct i).trace true).placeAll =
          rest [.traf, .rings, .pool] (tablesLoaded b i bs) := by
      rw [rest_placeAll (by decide), rest_setRings (by decide), rest_foldl (fun x g => rest_loadGate (by decide) ..),
        rest_foldl (fun x t => rest_addTraf (by decide) ..)]
    exact ⟨loadKept_of_rest hr (by decide) (by decide) (by decide) (by decide), ext_of_rest hr (by decide)⟩
  obtain ⟨hk, hext⟩ := hbufs
  have hnone : (((fullStruct i).gates.foldl (fun b g => b.loadGate g.1 g.2)
      (i.traffic.foldl (fun b t => b.addTraf t.2) (tablesLoaded b i bs))).setRings (fullStruct i).trace true).placeAll.ext.expPend = [] := by
    rw [hext]
    rfl
  have hhosts := startHosts_kept hnone (i.hosts.map (·.1))
  have hpair (x : Blk) (v : Word) : LoadKept x ((x.setReg Reg.strLoadTime v).loadPair) :=
    loadKept_of_rest (L := [.pair, .regs]) ((rest_loadPair (by decide) _).trans (rest_setReg (by decide) ..)) (by decide) (by decide)
      (by decide) (by decide)
  have hdraw (x : Blk) : LoadKept x x.draw.2 := ⟨rfl, rfl, rfl, rfl⟩
  exact (loadKept_zeroStep _).trans ((hpair _ _).trans ((hdraw _).trans (hhosts.trans hk)))

theorem guard_drawKeys (b : Blk) (s : Struct) : (b.drawKeys s).sec.guard = b.sec.guard := by
  unfold Blk.drawKeys
  refine keeps_foldl (fun x : Blk => x.sec.guard) (fun x p => ?_) _ _
  rfl

theorem guard_setGuard (b : Blk) (i : Image) (bs : Bytes) : (b.setGuard i bs).sec.guard.isSome = true := by
  unfold Blk.setGuard
  split
  · next h => exact h
  · rfl

theorem rest_tables (b : Blk) (i : Image) (bs : Bytes) :
    rest [.fresh, .sec] ((b.setGuard i bs).drawKeys (fullStruct i)) = rest [.fresh, .sec] b := by
  rw [rest_drawKeys (by decide) (by decide), rest_setGuard (by decide)]

/-- A full image that has passed its checks: the structure runs (R62, R63). -/
theorem loadStruct_runs (b : Blk) (i : Image) (bs : Bytes) :
    (b.loadStruct i bs).str = { b.str with loaded := true, locked := true, last := 0, epoch := i.epoch, run := fullStruct i,
                                           staged := none, commit := none } ∧
      (b.loadStruct i bs).pins.devReady = true ∧ (b.loadStruct i bs).sec.guard.isSome = true ∧ (b.loadStruct i bs).hub = b.hub := by
  have h := loadKept_loadStruct b i bs
  have hr := rest_tables b i bs
  refine ⟨h.str.trans ?_, h.ready, ?_, h.hub.trans ((hub_of_rest hr (by decide)).symm ▸ rfl)⟩
  · simp only [tablesLoaded, str_of_rest hr (by decide)]
  · rw [h.guard]
    exact (congrArg Option.isSome (guard_drawKeys (b.setGuard i bs) (fullStruct i))).trans (guard_setGuard b i bs)

/-! ### STRUCT_LOAD -/

theorem eq_with_hub_of_rest {x b : Blk} (h : rest [.hub] x = rest [.hub] b) : x = { b with hub := x.hub } := by
  cases x
  cases b
  simpa [rest] using h

theorem withHost_of_room {b : Blk} {r : CmdRec} {host : HostResult} (hmay : b.mayRead = true) (hroom : ReadRoom b r)
    (hhost : host ≠ .pending) (n : Nat) : ∃ x, ReadDone b x ∧ ∀ go, b.withHost r n host go = go x := by
  obtain ⟨x, hx, hd⟩ := mgmtRead_of_room hmay hroom hhost (r.arg 0x08 8) (r.arg 0x10 4) n
  exact ⟨x, hd, fun go => by simp [Blk.withHost, hx]⟩

/-- What STRUCT_LOAD does with an image that has been read. -/
def loadRead (b : Blk) (c : CmdId) (r : CmdRec) (img : HostResult) : Blk :=
  if hostStatus img ≠ 0 then (b.flag Reg.strErr 2).answerCmd c (hostStatus img) []
  else if b.sec.ownerless then (b.flag Reg.strErr 2).strAnswer c 0x03 false
  else if hostEp img then ((b.hubPoison 0 0x04).flag Reg.strErr 2).strAnswer c 0x04 false
  else (b.load (hostBytes img (r.arg 0x14 4)) (r.arg 0x14 4)).2.answerCmd c (b.load (hostBytes img (r.arg 0x14 4)) (r.arg 0x14 4)).1 []

theorem structLoad_open {b : Blk} {c : CmdId} {r : CmdRec} (h : MgmtRuns b c 0x10 r) (hm : LoadMay b) (img : HostResult) :
    structLoad b c img = b.withHost r (r.arg 0x14 4) img (fun b => loadRead b c r img) := by
  obtain ⟨hempty, hboot, htr, -⟩ := hm
  rw [structLoad, mgmtCmd_of_runs h]
  simp only [hempty, hboot, htr, Option.isSome_none, Bool.not_true, Bool.or_self, Bool.false_eq_true, if_false]
  rfl

theorem structLoad_read {b : Blk} {c : CmdId} {r : CmdRec} {img : HostResult} (h : MgmtRuns b c 0x10 r) (hm : LoadMay b)
    (hroom : ReadRoom b r) (himg : img ≠ .pending) : ∃ x, ReadDone b x ∧ structLoad b c img = loadRead x c r img := by
  obtain ⟨x, hd, hx⟩ := withHost_of_room hm.reads hroom himg (r.arg 0x14 4)
  exact ⟨x, hd, (structLoad_open h hm img).trans (hx _)⟩

theorem strAnswer_good (b : Blk) (c : CmdId) (st : Nat) : b.strAnswer c st false = ({ b with str.last := st } : Blk).answerCmd c st [] := by
  simp [Blk.strAnswer]

theorem structLoad_loaded {b : Blk} {c : CmdId} {r : CmdRec} (h : MgmtRuns b c 0x10 r) (hl : b.str.loaded = true) (img : HostResult) :
    structLoad b c img = ({ b with str.last := 0x0B } : Blk).answerCmd c 0x0B [] := by
  rw [structLoad, mgmtCmd_of_runs h]
  simp only [hl, if_true, strAnswer_good]

theorem structLoad_waits {b : Blk} {c : CmdId} {r : CmdRec} (h : MgmtRuns b c 0x10 r) (hempty : b.str.loaded = false) (hm : ¬ LoadMay b)
    (img : HostResult) : structLoad b c img = b := by
  rw [structLoad, mgmtCmd_of_runs h]
  simp only [hempty, Bool.false_eq_true, if_false]
  split
  · rfl
  · next hopen =>
    simp only [Bool.or_eq_true, Option.isSome_iff_ne_none, ne_eq, Bool.not_eq_true', not_or, not_not, Bool.not_eq_false] at hopen
    have hmay : b.mayRead = false := by
      by_contra hr
      exact hm ⟨hempty, hopen.1, hopen.2, by simpa using hr⟩
    simp [Blk.withHost, mgmtRead_of_not_may hmay]

/-! ### A read that is still to come -/

theorem sum_filter_le (l : List ReadOut) (x : Xfer) :
    ((l.filter (fun r => r.x != x)).map (·.sent)).sum + ((l.find? (fun r => r.x == x)).map (·.sent)).getD 0 ≤ (l.map (·.sent)).sum := by
  induction l with
  | nil => simp
  | cons o l ih =>
    by_cases ho : o.x = x
    · have hle : ((l.filter (fun r => r.x != x)).map (·.sent)).sum ≤ (l.map (·.sent)).sum := le_trans (Nat.le_add_right ..) ih
      simp only [List.filter_cons, ho, bne_self_eq_false, Bool.false_eq_true, if_false, List.find?_cons, beq_self_eq_true, Option.map_some,
        Option.getD_some, List.map_cons, List.sum_cons]
      omega
    · simp only [List.filter_cons, bne_iff_ne, ne_eq, ho, not_false_eq_true, if_true, List.find?_cons, beq_eq_false_iff_ne.2 ho,
        List.map_cons, List.sum_cons]
      omega

theorem hub_pcie (b : Blk) (o : PcieOut) :
    ((b.pcie o).hub.reads, (b.pcie o).hub.trans, (b.pcie o).hub.inProg, (b.pcie o).hub.wins) =
      (b.hub.reads, b.hub.trans, b.hub.inProg, b.hub.wins) := by
  unfold Blk.pcie
  split <;> rfl

/-- The block where the requests of a read have been sent as far as there was room, and the read is outstanding. -/
def readAsked (b : Blk) (x : Xfer) (f pasid : Nat) (now : List (Nat × Nat × Bool)) (r : ReadOut) : Blk :=
  let b1 := now.foldl (fun b p => b.pcie (.read f (if p.2.2 then some pasid else none) p.1 p.2.1)) b
  { b1.endRead x with hub.reads := (b1.endRead x).hub.reads ++ [r], hub.stamp := b.hub.stamp + 1 }

/-- A read whose completions are still to come is outstanding, and no more requests are sent than 512 allow (R307). -/
theorem readAsked_waits {b : Blk} {x : Xfer} {r : ReadOut} {now : List (Nat × Nat × Bool)} (hx : r.x = x)
    (hsent : r.sent = ((b.readOf x).map (·.sent)).getD 0 + now.length) (hroom : now.length ≤ 512 - b.nonPosted) (f pasid : Nat) :
    rest [.hub] (readAsked b x f pasid now r) = rest [.hub] b ∧ (readAsked b x f pasid now r).hub.inProg = b.hub.inProg ∧
      (readAsked b x f pasid now r).hub.wins = b.hub.wins ∧ (readAsked b x f pasid now r).nonPosted ≤ max 512 b.nonPosted ∧
      ∃ o ∈ (readAsked b x f pasid now r).hub.reads, o.x = x := by
  have hd := readDone_pcie_foldl (fun p : Nat × Nat × Bool => PcieOut.read f (if p.2.2 then some pasid else none) p.1 p.2.1) now b
  have hreads := keeps_foldl (fun y : Blk => (y.hub.reads, y.hub.trans, y.hub.inProg, y.hub.wins))
    (f := fun b (p : Nat × Nat × Bool) => b.pcie (PcieOut.read f (if p.2.2 then some pasid else none) p.1 p.2.1))
    (fun y p => hub_pcie ..) now b
  unfold readAsked
  generalize now.foldl (fun b p => b.pcie (PcieOut.read f (if p.2.2 then some pasid else none) p.1 p.2.1)) b = b1 at hd hreads ⊢
  simp only [Prod.mk.injEq] at hreads
  obtain ⟨hr1, ht1, hp1, hw1⟩ := hreads
  refine ⟨(rest_with_hub (by simp) _ _).trans ((rest_endRead (by simp) ..).trans hd.rest), hp1, hw1, ?_, ?_⟩
  · have hsum := sum_filter_le b.hub.reads x
    simp only [Blk.readOf] at hsent
    simp only [Blk.nonPosted, Blk.endRead, hr1, ht1, List.map_append, List.sum_append, List.map_cons, List.map_nil, List.sum_cons,
      List.sum_nil] at hroom ⊢
    omega
  · exact ⟨r, List.mem_append_right _ (List.mem_singleton.2 rfl), hx⟩

theorem askHost_pending (b : Blk) (x : Xfer) (engine f pasid : Nat) (spans : List (Nat × Nat)) (ts : List (Nat × Nat × Bool)) :
    ∃ now r, r.x = x ∧ r.sent = ((b.readOf x).map (·.sent)).getD 0 + now.length ∧ now.length ≤ 512 - b.nonPosted ∧
      b.askHost x engine f pasid spans ts .pending = (false, readAsked b x f pasid now r) := by
  unfold Blk.askHost
  simp only [if_true]
  refine ⟨_, _, ?_, ?_, ?_, rfl⟩
  · rfl
  · rfl
  · simp

/-! ### The end of the command -/

theorem rest_answerCmd_hub (b : Blk) (c : CmdId) (st : Nat) (res : Bytes) : rest [.hub, .regs] (b.answerCmd c st res) = rest [.hub, .regs] b :=
  rest_answerCmd (by decide) (by decide) ..

theorem answered_of_inProg {s : State} {x : Blk} {c : CmdId} {r : CmdRec} (hc : s.blk.cmd c = some r) (hl : r.lost = false)
    (hx : x.hub.inProg = s.blk.hub.inProg) (st : Nat) (res : Bytes) : Answered { s with blk := x.answerCmd c st res } r st res :=
  (ends_answerCmd hc hl hx st res).1

theorem load_ok {b : Blk} {bs : Bytes} {n : Nat} {i : Image} (h : b.loadCheck bs n = .ok i) : b.load bs n = (0, b.loadStruct i bs) := by
  simp [Blk.load, h]

/-- A load that fails its checks notes the code, and changes no structure, key or pin (R62, R74). -/
theorem load_error {b : Blk} {bs : Bytes} {n code : Nat} {m : Bool} (h : b.loadCheck bs n = .error (code, m)) :
    (b.load bs n).1 = code ∧ rest quietRegions (b.load bs n).2 = rest quietRegions { b with str.last := code } := by
  unfold Blk.load
  simp only [h, true_and]
  split
  · rw [rest_log (by decide) (by decide) (by decide) (by decide) (by decide) (by decide) (by decide), rest_flag (by decide),
      rest_flag (by decide)]
  · rw [rest_flag (by decide)]

/-- The checks of a load read no more of the block than a read of host memory leaves. -/
theorem loadCheck_of_readDone {b x : Blk} (h : ReadDone b x) (bs : Bytes) (n : Nat) : x.loadCheck bs n = b.loadCheck bs n := by
  rw [eq_with_hub_of_rest h.rest]
  rfl

/-- A load that fails on what has been read sets STR_ERR.LOAD_FAIL, and is answered its code (R75). -/
theorem strAnswer_fails {s : State} {x : Blk} {c : CmdId} {r : CmdRec} (hc : s.blk.cmd c = some r) (hl : r.lost = false)
    (hd : ReadDone s.blk x) (st : Nat) :
    EndsOnly [.str] s { s with blk := (x.flag Reg.strErr 2).strAnswer c st false } c r st [] ∧
      (((x.flag Reg.strErr 2).strAnswer c st false).reg Reg.strErr).getLsbD 2 = true := by
  rw [strAnswer_good]
  refine ⟨endsOnly_answerCmd hc hl (by exact hd.inProg) ?_ .., ?_⟩
  · exact (rest_with_str (by decide) _ _).trans ((rest_flag (by decide) ..).trans (hd.only (by decide)))
  · rw [reg_answerCmd_ne _ _ _ _ (by decide)]
    exact bit_reg_flag x _ _ (by decide)

/-- Settles O14, by the checks of a load. -/
theorem structureLoadsOnce : Obligations.StructureLoadsOnce := by
  unfold Obligations.StructureLoadsOnce
  refine ⟨fun s c r img h hl => ?_, fun s c r h hm hroom => ⟨?_, ?_⟩, fun s c r bs h hm hroom hown => ?_,
    fun s c r bs h hm hroom hown => ?_, fun s c r bs h hm hroom hown => ?_, fun s c r h hm => ?_, fun s c r img h hempty hm => ?_⟩
  · refine does_of_live (f := fun b => structLoad b c img) rfl h.up ?_
    rw [structLoad_loaded h hl]
    refine ⟨endsOnly_answerCmd (x := { s.blk with str.last := 0x0B }) h.found h.kept rfl (rest_with_str (by decide) _ _) .., ?_⟩
    exact str_of_rest (rest_answerCmd_hub { s.blk with str.last := 0x0B } c 0x0B []) (by decide)
  · obtain ⟨x, hd, hx⟩ := structLoad_read h hm hroom (img := .fault) (by simp)
    refine does_of_live (f := fun b => structLoad b c .fault) rfl h.up ?_
    have hgo : loadRead x c r .fault = (x.flag Reg.strErr 2).answerCmd c 0x80 [] := by simp [loadRead, hostStatus]
    rw [hx, hgo]
    exact ⟨endsOnly_answerCmd (x := x.flag Reg.strErr 2) h.found h.kept hd.inProg ((rest_flag (by decide) ..).trans (hd.only (by decide))) ..,
      bit_reg_answerCmd_flag _ _ _ _ (by decide) (by decide)⟩
  · obtain ⟨x, hd, hx⟩ := structLoad_read h hm hroom (img := .hostErr) (by simp)
    refine does_of_live (f := fun b => structLoad b c .hostErr) rfl h.up ?_
    have hgo : loadRead x c r .hostErr = (x.flag Reg.strErr 2).answerCmd c 0x81 [] := by simp [loadRead, hostStatus]
    rw [hx, hgo]
    exact ⟨endsOnly_answerCmd (x := x.flag Reg.strErr 2) h.found h.kept hd.inProg ((rest_flag (by decide) ..).trans (hd.only (by decide))) ..,
      bit_reg_answerCmd_flag _ _ _ _ (by decide) (by decide)⟩
  · obtain ⟨x, hd, hx⟩ := structLoad_read h hm hroom (img := .data bs false) (by simp)
    refine does_of_live (f := fun b => structLoad b c (.data bs false)) rfl h.up ?_
    have hox : x.sec.ownerless = true := by rw [sec_of_rest hd.rest (by decide), hown]
    have hgo : loadRead x c r (.data bs false) = (x.flag Reg.strErr 2).strAnswer c 0x03 false := by
      simp only [loadRead, hostStatus, ne_eq, not_true_eq_false, if_false, hox, if_true]
    rw [hx, hgo]
    exact strAnswer_fails h.found h.kept hd 0x03
  · obtain ⟨x, hd, hx⟩ := structLoad_read h hm hroom (img := .data bs false) (by simp)
    refine does_of_live (f := fun b => structLoad b c (.data bs false)) rfl h.up ?_
    have hox : x.sec.ownerless = false := by rw [sec_of_rest hd.rest (by decide), hown]
    have hgo : loadRead x c r (.data bs false) = (x.load (fit (r.arg 0x14 4) bs) (r.arg 0x14 4)).2.answerCmd c
        (x.load (fit (r.arg 0x14 4) bs) (r.arg 0x14 4)).1 [] := by
      simp only [loadRead, hostStatus, hostEp, hostBytes, ne_eq, not_true_eq_false, if_false, hox, Bool.false_eq_true]
    rw [hx, hgo, ← loadCheck_of_readDone hd]
    cases hchk : x.loadCheck (fit (r.arg 0x14 4) bs) (r.arg 0x14 4) with
    | ok i =>
      rw [load_ok hchk]
      obtain ⟨hstr, hready, hguard, hhub⟩ := loadStruct_runs x i (fit (r.arg 0x14 4) bs)
      have hr := rest_answerCmd_hub (x.loadStruct i (fit (r.arg 0x14 4) bs)) c 0 []
      refine ⟨answered_of_inProg h.found h.kept (by rw [hhub, hd.inProg]) .., ?_⟩
      dsimp only
      rw [str_of_rest hr (by decide), pins_of_rest hr (by decide), sec_of_rest hr (by decide), hstr]
      exact ⟨rfl, rfl, rfl, rfl, rfl, rfl, hready, hguard⟩
    | error e =>
      obtain ⟨code, m⟩ := e
      obtain ⟨hcode, hrest⟩ := load_error hchk
      rw [hcode]
      have hr := rest_answerCmd_hub (x.load (fit (r.arg 0x14 4) bs) (r.arg 0x14 4)).2 c code []
      refine ⟨answered_of_inProg h.found h.kept ?_ .., ?_⟩
      · rw [hub_of_rest hrest (by decide)]
        exact hd.inProg
      · dsimp only
        rw [str_of_rest hr (by decide), pins_of_rest hr (by decide), sec_of_rest hr (by decide), str_of_rest hrest (by decide),
          pins_of_rest hrest (by decide), sec_of_rest hrest (by decide)]
        simp only [str_of_rest hd.rest (by decide), pins_of_rest hd.rest (by decide), sec_of_rest hd.rest (by decide), and_self]
  · obtain ⟨x, hd, hx⟩ := structLoad_read h hm hroom (img := .data bs true) (by simp)
    refine does_of_live (f := fun b => structLoad b c (.data bs true)) rfl h.up ?_
    have hox : x.sec.ownerless = false := by rw [sec_of_rest hd.rest (by decide), hown]
    have hgo : loadRead x c r (.data bs true) =
        ({ (x.hubPoison 0 0x04).flag Reg.strErr 2 with str.last := 0x04 } : Blk).answerCmd c 0x04 [] := by
      simp only [loadRead, hostStatus, hostEp, ne_eq, not_true_eq_false, if_false, hox, Bool.false_eq_true, if_true, strAnswer_good]
    have hpoison := rest_hubPoison (L := quietRegions) (by decide) (by decide) (by decide) (by decide) (by decide) (by decide)
      (by decide) x 0 0x04
    have hwide := rest_of_onlyBlk (onlyBlk_mono (m := [.hub, .regs] ++ ([.str] ++ quietRegions)) (by decide) (onlyBlk_of_rest hpoison))
    rw [hx, hgo]
    refine ⟨endsOnly_answerCmd (x := { (x.hubPoison 0 0x04).flag Reg.strErr 2 with str.last := 0x04 }) h.found h.kept ?_ ?_ .., ?_⟩
    · exact (congrArg Hub.inProg (hub_of_rest hpoison (by decide))).trans hd.inProg
    · exact (rest_with_str (by decide) _ _).trans ((rest_flag (by decide) ..).trans (hwide.trans (hd.only (by decide))))
    · dsimp only
      rw [str_of_rest (rest_answerCmd_hub ..) (by decide)]
      refine (congrArg StrSt.loaded (str_of_rest hpoison (by decide))).trans ?_
      rw [str_of_rest hd.rest (by decide)]
      exact hm.empty
  · refine does_of_live (f := fun b => structLoad b c .pending) rfl h.up ?_
    obtain ⟨now, o, hx, hsent, hnow, hask⟩ := askHost_pending s.blk (.mgmt r.f r.seq) 12 r.f (r.arg 0x10 4) []
      (s.blk.readCut (plainPieces (r.arg 0x08 8) (r.arg 0x14 4) (r.op != 0x29)))
    obtain ⟨hrest, hprog, hwins, hnp, hreads⟩ := readAsked_waits hx hsent hnow r.f (r.arg 0x10 4)
    have hgo : structLoad s.blk c .pending = readAsked s.blk (.mgmt r.f r.seq) r.f (r.arg 0x10 4) now o := by
      rw [structLoad_open h hm]
      simp [Blk.withHost, Blk.mgmtRead, hm.reads, hask]
    rw [hgo]
    exact ⟨only_of_blk (onlyBlk_of_rest hrest), hprog, hwins, hnp, hreads⟩
  · refine stays_of_live (f := fun b => structLoad b c img) rfl fun _ => ?_
    exact structLoad_waits h hempty hm img

end Sys2Proof.Proofs
end

/-! ## A second readback waits (R66, R319) -/
section
namespace Sys2Proof.Proofs

open Sys2Proof.Machine

/-- A readback that comes while another is being written waits for it, whatever its answer will be. -/
theorem structReadback_waits {b : Blk} {c : CmdId} {r : CmdRec} (h : MgmtRuns b c 0x14 r) (hfresh : r.started = false)
    (hbusy : b.hub.inProg.any (fun x => x.op == 0x14 && x.started) = true) : structReadback b c = b := by
  rw [structReadback, mgmtCmd_of_runs h]
  simp only [hfresh, Bool.false_eq_true, if_false, hbusy, if_true]

/-- A STRUCT_READBACK into pool memory that has been started. -/
def firstReadback : CmdRec := { f := 0, seq := 1, bytes := [0x14], part := none, started := true }

/-- The STRUCT_READBACK that follows it. -/
def secondReadback : CmdRec := { f := 0, seq := 2, bytes := [0x14], part := none }

/-- A device that has just been reset, with both commands in progress. -/
def twoReadbacks : State := { blk := { hub := { inProg := [firstReadback, secondReadback] } } }

theorem twoReadbacks_runs : MgmtRuns twoReadbacks.blk ⟨0, 2⟩ 0x14 secondReadback where
  up := rfl
  accepts := rfl
  works := rfl
  found := by decide
  code := by decide
  turn := by decide
  kept := rfl

/-- Refutes O15: its fifth clause says that a STRUCT_READBACK of an unconfigured controller is answered STR_NOT_LOADED at once, but one
that comes while another readback has been started is not answered in that step (the sixth and the seventh leave out the same case). -/
theorem not_stagingDiscardAndReadbackAnswer : ¬ Obligations.StagingDiscardAndReadbackAnswer := by
  unfold Obligations.StagingDiscardAndReadbackAnswer
  intro h
  obtain ⟨-, -, -, -, hnotLoaded, -⟩ := h
  obtain ⟨t, hexec, -, -, hprog⟩ := hnotLoaded twoReadbacks ⟨0, 2⟩ secondReadback twoReadbacks_runs rfl rfl
  have hstay : exec (.structReadback ⟨0, 2⟩) twoReadbacks = .next twoReadbacks := by
    refine stays_of_live (f := fun b => structReadback b ⟨0, 2⟩) rfl fun _ => ?_
    exact structReadback_waits twoReadbacks_runs rfl (by decide)
  rw [hstay] at hexec
  cases hexec
  exact absurd hprog (by decide)

end Sys2Proof.Proofs
end

/-! ## Refused requests (R90, R103, R243) -/
section
namespace Sys2Proof.Proofs

open Sys2Proof.Machine

/-- What a refusal may reach beside what the request's acceptance has reached. -/
def refusalRegions : List Region := [.regs, .aon, .pcs, .fab, .traf]

theorem rest_reqIn_refusal (b : Blk) (q src ty : Nat) (lens : List Nat) (sure : Bool) :
    rest refusalRegions (b.reqIn q src ty lens sure).2 = rest refusalRegions b :=
  rest_reqIn (by decide) (by decide) (by decide) ..

/-- A refusal is a Cmp with the status and no data, and changes nothing in the pool. -/
theorem refuse_answers {b0 : Blk} {q src ty : Nat} {lens : List Nat} (hin : (b0.reqIn q src ty lens false).1 = true) (s : State)
    (msgId traceId addr st cls : Nat) :
    rest refusalRegions ((b0.reqIn q src ty lens false).2.refuse q src msgId traceId addr st cls) = rest refusalRegions b0 ∧
      Sends { s with blk := (b0.reqIn q src ty lens false).2.refuse q src msgId traceId addr st cls } q 0x40 src st [] := by
  obtain ⟨hup, -, hroute⟩ := reqIn_enters hin
  have hr := rest_reqIn_refusal b0 q src ty lens false
  generalize (b0.reqIn q src ty lens false).2 = x at hr ⊢
  refine ⟨(rest_refuse (by decide) (by decide) (by decide) (by decide) ..).trans hr, ?_⟩
  have hc := rest_countRefusal (L := refusalRegions) (by decide) (by decide) (by decide) x q st (x.hostPart src)
  unfold Blk.refuse Blk.respond
  generalize x.countRefusal q st (x.hostPart src) = y at hc ⊢
  have hy := hc.trans hr
  refine sends_send (b := y.noteLoad src _) ((dead_of_rest hy (by decide)).trans hup) _ ?_ s
  refine (congrArg (fun v : Struct => mhas v.eids src) (view_congr (y := b0) ?_ _)).trans hroute
  exact str_of_rest hy (by decide)

theorem reqRead_refused {b : Blk} {ty : Nat} {k : AKind} {r : Req} {a : Addr} {st : Nat} (ha : a.toNat % 128 = 0)
    (h : ReqFails b r a ty [0] k st) (op : LineOp) : reqRead b ty op k r a.toNat =
      (b.reqIn (homeOf (lineOf a.toNat)) r.src.toNat ty [0] false).2.refuse (homeOf (lineOf a.toNat)) r.src.toNat r.msgId.toNat
        r.traceId.toNat a.toNat st 0 := by
  obtain ⟨hin, hform, hchk, hfail⟩ := h
  unfold reqRead
  dsimp only
  rw [if_neg (by simp [hin]), if_neg (by simp [hform, ha]), hchk, if_pos hfail]

theorem reqRead_malformed {b : Blk} {ty : Nat} {r : Req} {addr : Nat}
    (hin : (b.reqIn (homeOf (lineOf addr)) r.src.toNat ty [0] false).1 = true)
    (hrun : (b.reqIn (homeOf (lineOf addr)) r.src.toNat ty [0] false).2.pwr.holding = false)
    (hbad : r.reservedSet = true ∨ addr % 128 ≠ 0) (op : LineOp) (k : AKind) : reqRead b ty op k r addr =
      (b.reqIn (homeOf (lineOf addr)) r.src.toNat ty [0] false).2.refuse (homeOf (lineOf addr)) r.src.toNat r.msgId.toNat
        r.traceId.toNat addr 0x60 0 := by
  unfold reqRead
  dsimp only
  rw [if_neg (by simp [hin]), if_pos (by simpa using hbad), Blk.badStatus, hrun]
  rfl

theorem reqWrLine_refused {b : Blk} {r : Req} {a : Addr} {st : Nat} (hpeer : b.isPeer r.src.toNat = false) (ha : a.toNat % 128 = 0)
    (h : ReqFails b r a 0xC3 [144] .write st) (bs : Bytes) (m : BitVec 128) (p : Bool) : reqWrLine b r a.toNat bs m p =
      (b.reqIn (homeOf (lineOf a.toNat)) r.src.toNat 0xC3 [144] false).2.refuse (homeOf (lineOf a.toNat)) r.src.toNat r.msgId.toNat
        r.traceId.toNat a.toNat st 0 := by
  obtain ⟨hin, hform, hchk, hfail⟩ := h
  unfold reqWrLine
  dsimp only
  rw [if_neg (by simp [hpeer]), if_neg (by simp [hin]), if_neg (by simp [hform, ha]), hchk, if_pos hfail]

theorem reqRdBulk_refused {b : Blk} {r : Req} {a : Addr} {n st : Nat} (hn : n ≤ 510) (hgran : lineIn (lineOf a.toNat) + n ≤ 16384)
    (ha : a.toNat % 128 = 0) (h : ReqFails b r a 0xC5 [0] .read st) : reqRdBulk b r a.toNat n =
      (b.reqIn (homeOf (lineOf a.toNat)) r.src.toNat 0xC5 [0] false).2.refuse (homeOf (lineOf a.toNat)) r.src.toNat r.msgId.toNat
        r.traceId.toNat a.toNat st 1 := by
  obtain ⟨hin, hform, hchk, hfail⟩ := h
  unfold reqRdBulk
  dsimp only
  rw [if_neg (by simp [hin]), if_neg (by simp [hform, ha, hn, hgran]), hchk, if_pos hfail]

theorem reqWrBulk_refused {b : Blk} {r : Req} {a : Addr} {n st : Nat} {ls : List LineIn} (hpeer : b.isPeer r.src.toNat = false)
    (hn : n ≤ 510) (hgran : lineIn (lineOf a.toNat) + n ≤ 16384) (hls : ls.length = n)
    (ha : a.toNat % 128 = 0) (h : ReqFails b r a 0xC6 (bulkLens n) .write st) : reqWrBulk b r a.toNat n (bulkLens n) ls =
      (b.reqIn (homeOf (lineOf a.toNat)) r.src.toNat 0xC6 (bulkLens n) false).2.refuse (homeOf (lineOf a.toNat)) r.src.toNat r.msgId.toNat
        r.traceId.toNat a.toNat st 1 := by
  obtain ⟨hin, hform, hchk, hfail⟩ := h
  unfold reqWrBulk
  dsimp only
  rw [if_neg (by simp [hpeer]), if_neg (by simp [hin]), if_neg (by simp [hform, ha, hn, hgran, hls]), hchk, if_pos hfail]

theorem isPeer_congr {x y : Blk} (h : x.str = y.str) (src : Nat) : x.isPeer src = y.isPeer src := by
  simp [Blk.isPeer, h]

theorem afterWrite_of_not_peer {b : Blk} {src : Nat} (h : b.isPeer src = false) : b.afterWrite src = b := by
  simp [Blk.afterWrite, h]

/-- After a refusal of a host that is not the peer nothing is left to be done. -/
theorem afterWrite_refused {b x : Blk} {src : Nat} (hr : rest refusalRegions x = rest refusalRegions b) (hpeer : b.isPeer src = false) :
    x.afterWrite src = x :=
  afterWrite_of_not_peer ((isPeer_congr (str_of_rest hr (by decide)) src).trans hpeer)

theorem up_of_reqFails {b : Blk} {r : Req} {a : Addr} {ty : Nat} {lens : List Nat} {k : AKind} {st : Nat} (h : ReqFails b r a ty lens k st) :
    b.dead = false :=
  (reqIn_enters h.enters).1

/-- Settles O25: every refusal is the same answer. -/
theorem refusedRequestsChangeNothing : Obligations.RefusedRequestsChangeNothing := by
  unfold Obligations.RefusedRequestsChangeNothing
  intro frame q
  have hands {s : State} {x : Blk} {st : Nat} {r : Req} {a : Addr} (hr : rest refusalRegions x = rest refusalRegions s.blk ∧
      Sends { s with blk := x } (homeOf (lineOf a.toNat)) 0x40 r.src.toNat st []) :
      Only frame s { s with blk := x } ∧ Sends { s with blk := x } (q a) 0x40 r.src.toNat st [] :=
    ⟨only_of_blk (onlyBlk_of_rest hr.1), hr.2⟩
  refine ⟨fun s r a st ha h => ?_, fun s r a st ha h => ?_, fun s r a st ha h => ?_, fun s r a bs m p st hpeer ha h => ?_,
    fun s r a n st hn hgran ha h => ?_, fun s r a n ls st hpeer hn hgran hls ha h => ?_, fun s r a hin hrun hbad => ?_⟩
  · refine does_of_live (f := fun b => reqRead b 0xC0 .rds .rds r a.toNat) rfl (up_of_reqFails h) ?_
    rw [reqRead_refused ha h]
    exact hands (refuse_answers h.enters s ..)
  · refine does_of_live (f := fun b => reqRead b 0xC1 .rdx .rdx r a.toNat) rfl (up_of_reqFails h) ?_
    rw [reqRead_refused ha h]
    exact hands (refuse_answers h.enters s ..)
  · refine does_of_live (f := fun b => reqRead b 0xC2 .rdonce .read r a.toNat) rfl (up_of_reqFails h) ?_
    rw [reqRead_refused ha h]
    exact hands (refuse_answers h.enters s ..)
  · refine does_of_live (f := fun b => (reqWrLine b r a.toNat bs m p).afterWrite r.src.toNat) rfl (up_of_reqFails h) ?_
    have hans := refuse_answers h.enters s r.msgId.toNat r.traceId.toNat a.toNat st 0
    rw [reqWrLine_refused hpeer ha h, afterWrite_refused hans.1 hpeer]
    exact hands hans
  · refine does_of_live (f := fun b => reqRdBulk b r a.toNat (n.toNat + 1)) rfl (up_of_reqFails h) ?_
    rw [reqRdBulk_refused hn hgran ha h]
    exact hands (refuse_answers h.enters s ..)
  · refine does_of_live (f := fun b => (reqWrBulk b r a.toNat (n.toNat + 1) (bulkLens (n.toNat + 1)) ls).afterWrite r.src.toNat) rfl (up_of_reqFails h) ?_
    have hans := refuse_answers h.enters s r.msgId.toNat r.traceId.toNat a.toNat st 1
    rw [reqWrBulk_refused hpeer hn hgran hls ha h, afterWrite_refused hans.1 hpeer]
    exact hands hans
  · refine does_of_live (f := fun b => reqRead b 0xC0 .rds .rds r a.toNat) rfl (reqIn_enters hin).1 ?_
    rw [reqRead_malformed hin hrun hbad]
    exact hands (refuse_answers hin s ..)

end Sys2Proof.Proofs
end

/-! ## Reads in a pool with no wrong codeword (R339) -/
section
namespace Sys2Proof.Proofs

open Sys2Proof.Machine

/-- What the count of a line operation may reach. -/
def lineOpRegions : List Region := [.aon, .pcs, .pool, .chans]

/-- A read that finds no error: it counts its line operations, and leaves every line and every stored codeword. -/
structure Calm (x y : Blk) : Prop where
  lines : SameLines x y
  inj : y.pool.inj = x.pool.inj
  rest : rest lineOpRegions y = rest lineOpRegions x

theorem calm_refl (x : Blk) : Calm x x := ⟨sameLines_refl x, rfl, rfl⟩

theorem calm_trans {x y z : Blk} (h : Calm x y) (k : Calm y z) : Calm x z :=
  ⟨sameLines_trans h.lines k.lines, k.inj.trans h.inj, k.rest.trans h.rest⟩

theorem inj_huskOp (b : Blk) (c code part : Nat) : (b.huskOp c code part).pool.inj = b.pool.inj := by
  unfold Blk.huskOp Blk.modHusk
  dsimp only
  rw [pool_event, pool_aonAdd]

theorem calm_huskOp (b : Blk) (c code part : Nat) : Calm b (b.huskOp c code part) :=
  ⟨sameLines_huskOp b c code part, inj_huskOp b c code part, rest_huskOp (by decide) (by decide) (by decide) (by decide) ..⟩

theorem calm_countHusk (b : Blk) (l code part : Nat) : Calm b (b.countHusk l code part) := by
  unfold Blk.countHusk Blk.huskOps
  generalize (if code = 1 then (b.dataChans l).take 1 else b.huskWrites l) = cs
  induction cs generalizing b with
  | nil => exact calm_refl b
  | cons c cs ih =>
    rw [List.foldl_cons]
    exact calm_trans (calm_huskOp b c code part) (ih (b.huskOp c code part))

theorem inj_countGrain (b : Blk) (l code part : Nat) : (b.countGrain l code part).pool.inj = b.pool.inj := by
  rw [Blk.countGrain, pool_event, pool_aonAdd]

theorem calm_countGrain (b : Blk) (l code part : Nat) : Calm b (b.countGrain l code part) :=
  ⟨sameLines_countGrain b l code part, inj_countGrain b l code part,
    rest_countGrain (by decide) (by decide) ..⟩

theorem joinLanes_nil : joinLanes [] [] = [] := by decide

theorem lanesAt_sound {b : Blk} (h : b.pool.inj = []) (c line : Nat) : b.lanesAt c line = [] := by
  unfold Blk.lanesAt
  rw [h]
  cases b.injKey c line <;> rfl

theorem decodeAt_sound {b : Blk} (h : b.pool.inj = []) (c line rank part : Nat) : b.decodeAt c line rank [] part = (false, b) := by
  unfold Blk.decodeAt
  rw [lanesAt_sound h, joinLanes_nil]
  rfl

theorem readAt_sound {b : Blk} (h : b.pool.inj = []) (c line rank part : Nat) : b.readAt c line rank [] part = (false, b) := by
  unfold Blk.readAt
  rw [decodeAt_sound h]
  rfl

theorem readStook_sound {b : Blk} (h : b.pool.inj = []) (c line part : Nat) :
    Calm b (b.readStook c line part).1 ∧ (b.readStook c line part).2 = [] := by
  unfold Blk.readStook
  generalize (b.stookOf c).1 = ks
  have all (ks : List Nat) (x : Blk × List Nat) (hx : Calm b x.1 ∧ x.2 = []) :
      Calm b (ks.foldl (fun x k =>
        if k = c || !x.1.stored k line then x
        else
          let y := (x.1.huskOp k 1 part).decodeAt k line (rankAt k line) [] part
          (y.2, if y.1 then x.2 ++ [k] else x.2)) x).1 ∧ (ks.foldl (fun x k =>
        if k = c || !x.1.stored k line then x
        else
          let y := (x.1.huskOp k 1 part).decodeAt k line (rankAt k line) [] part
          (y.2, if y.1 then x.2 ++ [k] else x.2)) x).2 = [] := by
    induction ks generalizing x with
    | nil => exact hx
    | cons k ks ih =>
      refine ih _ ?_
      dsimp only
      split
      · exact hx
      · have hk := calm_trans hx.1 (calm_huskOp x.1 k 1 part)
        rw [decodeAt_sound (hk.inj.trans h)]
        exact ⟨hk, hx.2⟩
  exact all ks (b, []) ⟨calm_refl b, rfl⟩

theorem readHusk_sound {b : Blk} (h : b.pool.inj = []) (l part : Nat) : (b.readHusk l part).1 = false ∧ Calm b (b.readHusk l part).2 := by
  unfold Blk.readHusk
  dsimp only
  split
  · rw [readAt_sound h]
    exact ⟨rfl, calm_refl b⟩
  · split
    · rw [readAt_sound h]
      exact ⟨rfl, calm_refl b⟩
    · split
      · obtain ⟨hcalm, hnone⟩ := readStook_sound h (b.pos l).1 (b.pos l).2 part
        rw [hnone]
        exact ⟨rfl, hcalm⟩
      · exact ⟨rfl, calm_refl b⟩

theorem calm_fetchHusk {b : Blk} (h : b.pool.inj = []) (l part : Nat) : Calm b (b.fetchHusk l part).1 := by
  have hc := calm_countHusk b l 1 part
  exact calm_trans hc (readHusk_sound (hc.inj.trans h) l part).2

theorem copyLanes_sound {b : Blk} (h : b.pool.inj = []) (c : Copy) (l : Nat) : b.copyLanes c l = [] := by
  unfold Blk.copyLanes
  rw [h]
  rfl

theorem readGrainCopy_sound {b : Blk} (h : b.pool.inj = []) (l part : Nat) : b.readGrainCopy l [] part = (false, b) := by
  unfold Blk.readGrainCopy
  dsimp only
  rw [copyLanes_sound h, joinLanes_nil]
  rfl

/-- The block in which a line has been read, before a wrong key slot is noted. -/
def lineRead (b : Blk) (l : Nat) : Blk :=
  if b.inGrain l then ((b.countGrain l 1 (b.partOf l)).readGrainCopy l [] (b.partOf l)).2 else (b.fetchHusk l (b.partOf l)).1

theorem calm_lineRead {b : Blk} (h : b.pool.inj = []) (l : Nat) : Calm b (lineRead b l) := by
  unfold lineRead
  split
  · have hc := calm_countGrain b l 1 (b.partOf l)
    rw [readGrainCopy_sound (hc.inj.trans h)]
    generalize b.countGrain l 1 (b.partOf l) = x at hc ⊢
    exact hc
  · exact calm_fetchHusk h l _

theorem fetch_eq (b : Blk) (l : Nat) : b.fetch l = ((lineRead b l).noteSlot l, (lineRead b l).lineVal l) := rfl

theorem fetch_sound {b : Blk} (h : b.pool.inj = []) (l : Nat) : (b.fetch l).2 = b.lineVal l :=
  lineVal_congr (calm_lineRead h l).lines l

theorem rest_fetch_sound {b : Blk} (h : b.pool.inj = []) (l : Nat) :
    rest quietRegions (b.fetch l).1 = rest quietRegions b := by
  rw [fetch_eq]
  refine (rest_noteSlot (by decide) (by decide) (by decide) (by decide) (by decide) (by decide) (by decide) ..).trans ?_
  exact rest_of_onlyBlk (onlyBlk_mono (by decide) (onlyBlk_of_rest (calm_lineRead h l).rest))

end Sys2Proof.Proofs
end

/-! ## A request on a line that nobody holds starts at once (R109, R113, R114) -/
section
namespace Sys2Proof.Proofs

open Sys2Proof.Machine

/-- What the start of a request on a free line may reach. -/
def startRegions : List Region := [.fresh, .regs, .aon, .pcs, .coh, .ext]

/-- The line's set has an entry to give. -/
structure EntryFree (b : Blk) (l : Nat) : Prop where
  noEntry : mget b.coh.dir l = none
  room : (b.setEntries (dirSet l)).length + b.claims (dirSet l) < 8

theorem ownerOf_free {b : Blk} {l : Nat} (h : mget b.coh.dir l = none) : b.ownerOf l = none := by
  simp [Blk.ownerOf, h]

theorem liveHolders_free {b : Blk} {l : Nat} (h : mget b.coh.dir l = none) : b.liveHolders l = [] := by
  simp [Blk.liveHolders, h]

theorem snoopsFor_free {b : Blk} {t : Txn} (h : mget b.coh.dir t.line = none) : (b.snoopsFor t).2 = [] := by
  unfold Blk.snoopsFor
  rw [ownerOf_free h, liveHolders_free h]
  cases t.op <;> rfl

/-- A transaction that has started with nothing to wait for. -/
structure Started (b : Blk) (t : Txn) (x : Blk) (u : Txn) : Prop where
  txn : u = { t with at_ := b.tb, snoops := [], stay := false, counted := u.counted }
  coh : x.coh = { b.coh with stamp := b.coh.stamp + 1, txns := b.coh.txns.filter (fun y => y.id != t.id) ++ [u] }
  rest : rest startRegions x = rest startRegions b
  kept : ∀ {γ : Type} {P : ExtSt → γ}, ModProj P → P x.ext = P b.ext
  regs : ∀ wd, (∀ q, wd ≠ Reg.haDirMissCnt q) → x.reg wd = b.reg wd

theorem reg_dirLookup {wd : Nat} (h : ∀ q, wd ≠ Reg.haDirMissCnt q) (b : Blk) (l : Nat) : (b.dirLookup l).reg wd = b.reg wd := by
  unfold Blk.dirLookup
  dsimp only
  have hd : b.draw.2.reg wd = b.reg wd := rfl
  split
  · rw [reg_congr (regs_of_rest (L := [.pcs]) (rest_event (by decide) ..) (by decide)),
      reg_congr (regs_of_rest (L := [.aon]) (rest_aonAdd (by decide) ..) (by decide)), reg_incr_ne _ (h _), hd]
  · exact hd

theorem reg_lineTouched {b : Blk} {l : Nat} (h : mget b.coh.dir l = none) (wd : Nat) : (lineTouched b l).reg wd = b.reg wd := by
  unfold lineTouched
  rw [ownerOf_free h]
  exact reg_congr (regs_of_rest (L := [.coh]) (rest_touch (by decide) ..) (by decide)) _

theorem reg_opened {b : Blk} {t : Txn} {wd : Nat} (h : mget b.coh.dir t.line = none) (hwd : ∀ q, wd ≠ Reg.haDirMissCnt q) (again : Bool) :
    (opened b t again).reg wd = b.reg wd := by
  have hlook : mget (b.dirLookup t.line).coh.dir t.line = none := by rw [coh_dirLookup, h]
  unfold opened
  cases again
  · exact (reg_lineTouched hlook wd).trans (reg_dirLookup hwd ..)
  · exact reg_lineTouched h wd

theorem coh_lineTouched {b : Blk} {l : Nat} (h : mget b.coh.dir l = none) :
    (lineTouched b l).coh = { b.coh with stamp := b.coh.stamp + 1 } := by
  unfold lineTouched
  rw [ownerOf_free h]
  simp only [Blk.touch, mmod, h]

theorem opened_free {b : Blk} {t : Txn} (h : mget b.coh.dir t.line = none) (again : Bool) :
    (opened b t again).coh = { b.coh with stamp := b.coh.stamp + 1 } ∧
      rest [.fresh, .regs, .aon, .pcs, .coh] (opened b t again) = rest [.fresh, .regs, .aon, .pcs, .coh] b := by
  have hlook (x : Blk) : x.coh = b.coh → (lineTouched x t.line).coh = { b.coh with stamp := b.coh.stamp + 1 } ∧
      rest [.fresh, .regs, .aon, .pcs, .coh] (lineTouched x t.line) = rest [.fresh, .regs, .aon, .pcs, .coh] x := fun hx => by
    have hn : mget x.coh.dir t.line = none := by rw [hx, h]
    refine ⟨by rw [coh_lineTouched hn, hx], ?_⟩
    unfold lineTouched
    rw [ownerOf_free hn]
    exact rest_touch (by decide) ..
  unfold opened
  cases again
  · obtain ⟨hcoh, hrest⟩ := hlook (b.dirLookup t.line) (coh_dirLookup ..)
    exact ⟨hcoh, hrest.trans (rest_dirLookup (by decide) (by decide) (by decide) (by decide) ..)⟩
  · exact hlook b rfl

theorem line_settleCount (b : Blk) (t : Txn) : (b.settleCount t).1 = { t with counted := (b.settleCount t).1.counted } := by
  unfold Blk.settleCount
  split <;> rfl

theorem runTxn_free {b : Blk} {t : Txn} (h : mget b.coh.dir t.line = none) : b.runTxn t =
    ((b.settleCount t).2.putTxn { (b.settleCount t).1 with snoops := [], stay := false }).advance
      { (b.settleCount t).1 with snoops := [], stay := false } := by
  have hline : (b.settleCount t).1.line = t.line := by rw [line_settleCount]
  have hs := snoopsFor_free (b := (b.settleCount t).2) (t := (b.settleCount t).1) (by rw [coh_settleCount, hline, h])
  have ho := ownerOf_free (b := (b.settleCount t).2) (l := (b.settleCount t).1.line) (by rw [coh_settleCount, hline, h])
  unfold Blk.runTxn
  dsimp only
  rw [hs, ho]
  rfl

/-- A transaction that needs no entry of its line's set, or finds one to take. -/
def Roomy (b : Blk) (t : Txn) : Prop := t.op.needsEntry = true → (b.setEntries (dirSet t.line)).length + b.claims (dirSet t.line) < 8

theorem startedIn_free {b : Blk} {t : Txn} (h : Roomy b t) : startedIn b t = b.runTxn t := by
  unfold startedIn
  rw [if_neg]
  intro hc
  simp only [Bool.and_eq_true, decide_eq_true_eq] at hc
  exact absurd hc.2 (Nat.not_le.mpr (h hc.1.1))

theorem startTxn_free {b : Blk} {t : Txn} (h : mget b.coh.dir t.line = none) (hroom : Roomy b t) (again : Bool) :
    ∃ x u, Started b t x u ∧ b.startTxn t again = x.advance u := by
  obtain ⟨hcoh, hrest⟩ := opened_free (b := b) (t := t) h again
  have hregs := fun wd hwd => reg_opened (b := b) (t := t) (wd := wd) h hwd again
  rw [startTxn_eq]
  generalize hv : ({ t with at_ := b.tb } : Txn) = v
  have hvl : v.line = t.line := by rw [← hv]
  have hvo : v.op = t.op := by rw [← hv]
  generalize opened b t again = o at hcoh hrest hregs
  have hn : mget o.coh.dir v.line = none := by rw [hcoh, hvl, h]
  have ho : Roomy o v := fun hneed => by
    rw [hvl]
    unfold Blk.setEntries Blk.claims
    rw [hcoh]
    exact hroom (by rw [← hvo]; exact hneed)
  rw [startedIn_free ho, runTxn_free hn]
  refine ⟨_, _, ?_, rfl⟩
  have hset := rest_settleCount (L := [.ext]) (by decide) o v
  have hc := coh_settleCount o v
  have hk := fun {γ : Type} {P : ExtSt → γ} (hP : ModProj P) => kept_settleCount hP o v
  have hu := line_settleCount o v
  generalize (o.settleCount v).2 = y at hset hc hk ⊢
  generalize (o.settleCount v).1 = u at hu ⊢
  refine ⟨?_, ?_, ?_, ?_, ?_⟩
  · rw [hu, ← hv]
  · have hid : u.id = t.id := by rw [hu, ← hv]
    unfold Blk.putTxn
    rw [hc, hcoh]
    simp only [hid]
  · refine (rest_putTxn (by decide) ..).trans ?_
    exact (rest_of_onlyBlk (onlyBlk_mono (by decide) (onlyBlk_of_rest hset))).trans
      (rest_of_onlyBlk (onlyBlk_mono (by decide) (onlyBlk_of_rest hrest)))
  · intro γ P hP
    exact (hk hP).trans (congrArg P (ext_of_rest hrest (by decide)))
  · intro wd hwd
    exact (reg_congr (regs_of_rest hset (by decide)) wd).trans (hregs wd hwd)

/-- A request as its home agent accepts it. -/
def numbered (b : Blk) (t : Txn) : Txn :=
  { t with id := b.coh.nextTxn, acc := b.tb, twin := b.twinned t.line, wb := b.lineWb t.line }

/-- The block in which a request has its number. -/
def numberGiven (b : Blk) : Blk := { b with coh.nextTxn := b.coh.nextTxn + 1 }

theorem beginTxn_free {b : Blk} {t : Txn} (hidle : b.mustWait t.line = false) (h : EntryFree b t.line) :
    ∃ x u, Started (numberGiven b) (numbered b t) x u ∧ b.beginTxn t = x.advance u := by
  have hstart : b.beginTxn t = (numberGiven b).startTxn (numbered b t) := by
    unfold Blk.beginTxn
    have hw : ({ b with coh.nextTxn := b.coh.nextTxn + 1 } : Blk).mustWait t.line = false := hidle
    rw [if_neg (by rw [hw]; decide)]
    rfl
  rw [hstart]
  have hn : mget (numberGiven b).coh.dir (numbered b t).line = none := h.noEntry
  have hroom : Roomy (numberGiven b) (numbered b t) := fun _ => h.room
  exact startTxn_free hn hroom false

/-! ### A transaction without snoops ends at once -/

theorem advance_eq {x : Blk} {u : Txn} (hdata : u.data = none) : x.advance u = x.serve u (fun b => b.finishTxn u) := by
  unfold Blk.advance
  rw [hdata]
  cases u.op <;> rfl

theorem advance_grants {x : Blk} {u : Txn} (hdata : u.data = none) (hf : x.fencedTxn u = false)
    (hop : u.op = .rds ∨ u.op = .rdx ∨ ∃ a, u.op = .far a) :
    ∃ s, x.advance u = { ({ x with coh.serving := s } : Blk).grantTxn u with coh.serving := [] } := by
  refine ⟨x.txnHead u, ?_⟩
  rw [advance_eq hdata]
  unfold Blk.finishTxn Blk.serve
  dsimp only
  have hf' (s : Bytes) : ({ x with coh.serving := s } : Blk).fencedTxn u = false := hf
  rw [if_neg (by rw [hf']; decide)]
  obtain h | h | ⟨a, h⟩ := hop <;> rw [h] <;> rfl

theorem advance_rdonce {x : Blk} {u : Txn} (hdata : u.data = none) (hf : x.fencedTxn u = false) (hop : u.op = .rdonce) :
    ∃ s, x.advance u = { ((({ x with coh.serving := s } : Blk).fetch u.line).1.answerTxn u 0x02 0
      (({ x with coh.serving := s } : Blk).fetch u.line).2.1 (({ x with coh.serving := s } : Blk).fetch u.line).2.2 false).endTxn u with
      coh.serving := [] } := by
  refine ⟨x.txnHead u, ?_⟩
  rw [advance_eq hdata]
  unfold Blk.finishTxn Blk.serve
  dsimp only
  have hf' (s : Bytes) : ({ x with coh.serving := s } : Blk).fencedTxn u = false := hf
  rw [if_neg (by rw [hf']; decide), hop, hdata]
  rfl

end Sys2Proof.Proofs
end

/-! ## Reads of a free line (R92, R113, R114) -/
section
namespace Sys2Proof.Proofs

open Sys2Proof.Machine

/-! ### A requester that can be answered -/

/-- A home agent can answer a host that asks for a line. -/
structure CanAnswer (b : Blk) (l src : Nat) : Prop where
  up : b.dead = false
  route : mhas (b.view (.router (Fin.ofNat 4 (homeOf l)))).eids src = true

/-- The same for an agent, which the home agent does not take as gone, and a line whose extent is not fenced. -/
structure CanGrant (b : Blk) (l src : Nat) : Prop extends CanAnswer b l src where
  live : b.deadAt (homeOf l) src = false
  unfenced : (b.pair.fenced && b.twinned l) = false

theorem CanAnswer.of_rest {L : List Region} {x y : Blk} {l src : Nat} (h : CanAnswer x l src) (hr : rest L y = rest L x)
    (hd : .dead ∉ L) (hs : .str ∉ L) : CanAnswer y l src :=
  ⟨(dead_of_rest hr hd).trans h.up, by rw [view_congr (str_of_rest hr hs)]; exact h.route⟩

theorem twinned_congr {x y : Blk} (h : y.str = x.str) (l : Nat) : y.twinned l = x.twinned l := by
  unfold Blk.twinned
  rw [view_congr h]

theorem deadAt_congr {x y : Blk} (hs : y.coh.suspended = x.coh.suspended) (hd : y.ext.dead = x.ext.dead) (q eid : Nat) :
    y.deadAt q eid = x.deadAt q eid := by
  unfold Blk.deadAt
  rw [hs, hd]

theorem CanGrant.of_rest {L : List Region} {x y : Blk} {l src : Nat} (h : CanGrant x l src) (hr : rest L y = rest L x)
    (hd : .dead ∉ L) (hs : .str ∉ L) (hp : .pair ∉ L) (hsus : y.coh.suspended = x.coh.suspended) (hdead : y.ext.dead = x.ext.dead) :
    CanGrant y l src :=
  ⟨h.toCanAnswer.of_rest hr hd hs, (deadAt_congr hsus hdead ..).trans h.live, by
    rw [pair_of_rest hr hp, twinned_congr (str_of_rest hr hs)]
    exact h.unfenced⟩

theorem CanGrant.bumpMod {x : Blk} {l src : Nat} (h : CanGrant x l src) (k n : Nat) : CanGrant (x.bumpMod k n) l src :=
  h.of_rest (rest_bumpMod (L := [.ext]) (by decide) x k n) (by decide) (by decide) (by decide) (by rw [coh_bumpMod])
    (kept_bumpMod extProj_dead.mod ..)

theorem check_passes {b : Blk} {a : Act} {k : AKind} {l : Nat} (h : (b.check a k l).status = 0) :
    (∀ e, (b.view (.home (Fin.ofNat 4 (homeOf l)))).extAt (granOf l) = some e → b.pairStatus e.2 = 0) ∧
      (b.checkHome a k l).status = 0 := by
  unfold Blk.check at h
  extract_lets p at h
  split at h
  · cases h
  · split at h
    · next hp => exact absurd h hp
    · next hp =>
      refine ⟨fun e he => ?_, h⟩
      have hpe : p = b.pairStatus e.2 := by
        dsimp only [p]
        rw [he]
      rw [← hpe]
      simpa using hp

/-- A host whose request passes the checks can be answered, and where it is an agent granted the line. -/
theorem canGrant_of_check {b : Blk} {k : AKind} {l src : Nat} (hin : CanAnswer b l src)
    (h : (b.check (.host src) k l).status = 0) : CanGrant b l src := by
  have hhost : b.hostStatus (homeOf l) src = 0 := by
    have hhome := (check_passes h).2
    unfold Blk.checkHome at hhome
    dsimp only at hhome
    split at hhome
    · next hh => exact absurd hhome hh
    · next hh => simpa using hh
  refine ⟨hin, ?_, ?_⟩
  · unfold Blk.hostStatus at hhost
    dsimp only at hhost
    split at hhost
    · cases hhost
    · split at hhost
      · cases hhost
      · split at hhost
        · cases hhost
        · next hs hd => simpa [Blk.deadAt] using ⟨by simpa using hs, by simpa using hd⟩
  · unfold Blk.twinned
    cases hx : (b.view (.home (Fin.ofNat 4 (homeOf l)))).extAt (granOf l) with
    | none => simp
    | some e =>
      have hp := (check_passes h).1 e hx
      simp only [Option.map_some, Option.getD_some]
      unfold Blk.pairStatus at hp
      cases hm : e.2.mirror <;> cases hf : b.pair.fenced <;> simp [hm, hf] at hp ⊢

theorem rest_accepted_quiet (b : Blk) (l src ty msgId traceId addr part : Nat) :
    rest quietRegions (b.accepted l src ty msgId traceId addr part) = rest quietRegions b :=
  (rest_traceRx (by decide) (by decide) (by decide) (by decide) (by decide) (by decide) (by decide) ..).trans
    (rest_countAccept (by decide) (by decide) ..)

theorem extDead_accepted (b : Blk) (l src ty msgId traceId addr part : Nat) :
    (b.accepted l src ty msgId traceId addr part).ext.dead = b.ext.dead := by
  unfold Blk.accepted Blk.traceRx
  split
  · rw [ext_countAccept]
  · exact (kept_trace extProj_dead.mod ..).trans (by rw [ext_countAccept])

theorem CanGrant.accepted {b : Blk} {l src : Nat} (h : CanGrant b l src) (k who ty msgId traceId addr part : Nat) :
    CanGrant (b.accepted k who ty msgId traceId addr part) l src := by
  have hr := rest_accepted_quiet b k who ty msgId traceId addr part
  exact h.of_rest hr (by decide) (by decide) (by decide) (by rw [coh_of_rest hr (by decide)]) (extDead_accepted ..)

theorem canAnswer_of_enters {b0 : Blk} {q src ty : Nat} {lens : List Nat} (h : (b0.reqIn q src ty lens false).1 = true) {l : Nat}
    (hq : q = homeOf l) : CanAnswer (b0.reqIn q src ty lens false).2 l src := by
  subst hq
  obtain ⟨hup, -, hroute⟩ := reqIn_enters h
  have hin : CanAnswer b0 l src := ⟨hup, hroute⟩
  exact hin.of_rest (rest_reqIn_refusal b0 (homeOf l) src ty lens false) (by decide) (by decide)

theorem canGrant_of_reqIn {b0 b : Blk} {r : Req} {a : Addr} {ty : Nat} {lens : List Nat} {k : AKind} {c : Checked}
    (h : ReqIn b0 b r a ty lens k c) : CanGrant b (lineOf a.toNat) r.src.toNat := by
  have hg := canGrant_of_check (k := k) (canAnswer_of_enters h.enters rfl) (by rw [h.checked]; exact h.passes)
  rw [h.at_]
  exact hg.accepted ..

theorem up_of_reqIn {b0 b : Blk} {r : Req} {a : Addr} {ty : Nat} {lens : List Nat} {k : AKind} {c : Checked}
    (h : ReqIn b0 b r a ty lens k c) : b0.dead = false :=
  (reqIn_enters h.enters).1

/-! ### Answers and grants sent -/

theorem sends_respond {b : Blk} {l src : Nat} (h : CanAnswer b l src) (s : State) (ty msgId traceId addr status : Nat) (far replay : Bool)
    (payload : Bytes) (poison : Bool) (cls part : Nat) :
    Sends { s with blk := (b.respond (homeOf l) ty src msgId traceId addr status far replay payload poison cls part).2 } (homeOf l) ty src status
      payload := by
  unfold Blk.respond
  have hn : CanAnswer (b.noteLoad src (b.loadOf (homeOf l) src cls)) l src := ⟨h.up, h.route⟩
  exact sends_send hn.up _ hn.route s

theorem sends_of_fab {s t : State} {x : Blk} {q ty dst status : Nat} {payload : Bytes} (h : Sends { s with blk := x } q ty dst status payload)
    (hf : t.blk.fab = x.fab) : Sends t q ty dst status payload := by
  obtain ⟨m, hm⟩ := h
  exact ⟨m, by rw [hf]; exact hm⟩

/-- A grant is sent, and waits for its CmpAck. -/
theorem sendGrant_grants {x : Blk} {u : Txn} {r : Req} (hwho : u.who = .fabric r.src) (h : CanGrant x u.line r.src.toNat) {ty : Nat}
    (hty : ty ≠ 0x02) (s : State) (far : Bool) (bs : Bytes) (p : Bool) :
    Sends { s with blk := x.sendGrant u ty far bs p } (homeOf u.line) ty r.src.toNat 0 bs ∧
      Acking { s with blk := x.sendGrant u ty far bs p } u.line r ∧ (x.sendGrant u ty far bs p).coh.dir = x.coh.dir := by
  have hsend := sends_respond h.toCanAnswer s ty u.msgId u.traceId (u.line * 128) 0 far false bs p 0 u.part
  have hrest := rest_respond (L := [.regs, .fab]) (by decide) (by decide) x (homeOf u.line) ty r.src.toNat u.msgId u.traceId (u.line * 128) 0 far
    false bs p 0 u.part
  have hgo : x.sendGrant u ty far bs p =
      (x.respond (homeOf u.line) ty r.src.toNat u.msgId u.traceId (u.line * 128) 0 far false bs p 0 u.part).2.putTxn
        { u with phase := .ack (x.respond (homeOf u.line) ty r.src.toNat u.msgId u.traceId (u.line * 128) 0 far false bs p 0 u.part).1 x.tb } := by
    unfold Blk.sendGrant
    rw [hwho]
    dsimp only
    rw [if_neg (by simp [hty, h.live])]
  rw [hgo]
  generalize x.respond (homeOf u.line) ty r.src.toNat u.msgId u.traceId (u.line * 128) 0 far false bs p 0 u.part = y at hsend hrest ⊢
  refine ⟨sends_of_fab hsend rfl, ⟨{ u with phase := .ack y.1 x.tb }, ?_, rfl, hwho, _, _, rfl⟩, ?_⟩
  · simp [Blk.putTxn]
  · show y.2.coh.dir = x.coh.dir
    rw [coh_of_rest hrest (by decide)]

theorem grantX_eq {b : Blk} {eid i : Nat} (h : b.agentIx eid = some i) (l part : Nat) : b.grantX l part eid = { b with
    coh.stamp := b.coh.stamp + 1
    coh.dir := mput b.coh.dir l ⟨.x, part, false, [i], 0, b.coh.stamp + 1⟩ } := by
  simp only [Blk.grantX, h]

theorem addSharer_eq {b : Blk} {l eid i : Nat} (h : b.agentIx eid = some i) (hn : mget b.coh.dir l = none) (part : Nat) :
    b.addSharer l part eid = { b with
      coh.stamp := b.coh.stamp + 1
      coh.dir := mput b.coh.dir l ⟨.s, part, false, [i], 0, b.coh.stamp + 1⟩ } := by
  simp only [Blk.addSharer, h, hn]

theorem agentIx_congr {x y : Blk} (h : y.coh.agents = x.coh.agents) (eid : Nat) : y.agentIx eid = x.agentIx eid := by
  rw [Blk.agentIx, Blk.agentIx, h]

/-- What a grant of a free line leaves: the line held, the grant sent with the line's bytes and waiting for its CmpAck. -/
def Granted (t : State) (l : Nat) (r : Req) (st : DirState) (i ty : Nat) (bs : Bytes) : Prop :=
  Held t l st [i] ∧ Sends t (homeOf l) ty r.src.toNat 0 bs ∧ Acking t l r

theorem granted_of_parts {s t : State} {x : Blk} {l : Nat} {r : Req} {st : DirState} {i ty : Nat} {bs : Bytes}
    (h : Granted { s with blk := x } l r st i ty bs) (hf : t.blk.fab = x.fab) (hd : t.blk.coh.dir = x.coh.dir)
    (ht : t.blk.coh.txns = x.coh.txns) : Granted t l r st i ty bs := by
  obtain ⟨⟨e, he, hstate⟩, hs, y, hy, hack⟩ := h
  exact ⟨⟨e, by rw [hd]; exact he, hstate⟩, sends_of_fab hs hf, y, by rw [ht]; exact hy, hack⟩

/-- The block a grant is made on: its line's bytes are fetched, and its directory has no entry for the line. -/
structure GrantAt (x : Blk) (u : Txn) (r : Req) (i : Nat) : Prop extends CanGrant x u.line r.src.toNat where
  who : u.who = .fabric r.src
  free : mget x.coh.dir u.line = none
  agent : x.agentIx r.src.toNat = some i
  stay : u.stay = false
  sound : x.pool.inj = []

theorem GrantAt.fetched {x : Blk} {u : Txn} {r : Req} {i : Nat} (h : GrantAt x u r i) :
    (x.fetch u.line).1.coh = x.coh ∧ CanGrant (x.fetch u.line).1 u.line r.src.toNat ∧ (x.fetch u.line).1.agentIx r.src.toNat = some i := by
  have hr := rest_fetch_sound h.sound u.line
  have hc : (x.fetch u.line).1.coh = x.coh := coh_of_rest hr (by decide)
  exact ⟨hc, h.toCanGrant.of_rest hr (by decide) (by decide) (by decide) (by rw [hc]) (kept_fetch extProj_dead.mod ..),
    (agentIx_congr (by rw [hc]) _).trans h.agent⟩

/-- The block from which a grant is sent has the line's entry. -/
theorem granted_of_entry {y : Blk} {u : Txn} {r : Req} (hwho : u.who = .fabric r.src) (hg : CanGrant y u.line r.src.toNat) {e : DirEnt}
    (he : mget y.coh.dir u.line = some e) (hc : e.coarse = false) {i : Nat} (hp : e.ptrs = [i]) {ty : Nat} (hty : ty ≠ 0x02) (s : State)
    (far : Bool) (bs : Bytes) (p : Bool) : Granted { s with blk := y.sendGrant u ty far bs p } u.line r e.state i ty bs := by
  obtain ⟨hs, hack, hdir⟩ := sendGrant_grants hwho hg hty s far bs p
  exact ⟨⟨e, by rw [hdir]; exact he, rfl, hc, hp⟩, hs, hack⟩

theorem CanGrant.with_entry {y : Blk} {l src : Nat} (h : CanGrant y l src) (stamp : Nat) (dir : Map DirEnt) :
    CanGrant ({ y with coh.stamp := stamp, coh.dir := dir } : Blk) l src :=
  ⟨⟨h.up, h.route⟩, h.live, h.unfenced⟩

theorem GrantAt.rdx {x : Blk} {u : Txn} {r : Req} {i : Nat} (h : GrantAt x u r i) (hop : u.op = .rdx) (s : State) :
    Granted { s with blk := x.grantTxn u } u.line r .x i 0x01 (x.lineVal u.line).1 := by
  obtain ⟨-, hg, hi⟩ := h.fetched
  unfold Blk.grantTxn
  rw [h.who, hop]
  dsimp only
  rw [fetch_sound h.sound, grantX_eq hi]
  exact granted_of_entry h.who (hg.with_entry ..) (mget_mput_self ..) rfl rfl (by decide) ..

theorem GrantAt.far {x : Blk} {u : Txn} {r : Req} {i : Nat} {m : AtmOp} (h : GrantAt x u r i) (hop : u.op = .far m)
    (ha : x.huskAlive u.line = true) (s : State) :
    Granted { s with blk := x.grantTxn u } u.line r .x i 0x01 (x.lineVal u.line).1 := by
  obtain ⟨-, hg, hi⟩ := h.fetched
  unfold Blk.grantTxn
  rw [h.who, hop]
  dsimp only
  rw [if_neg (by rw [ha]; decide), fetch_sound h.sound, grantX_eq hi]
  have hz := (hg.with_entry ((x.fetch u.line).1.coh.stamp + 1)
    (mput (x.fetch u.line).1.coh.dir u.line ⟨.x, u.part, false, [i], 0, (x.fetch u.line).1.coh.stamp + 1⟩)).of_rest
      (rest_incr (L := [.regs]) (by decide) _ (Reg.haAtomicFarCnt (homeOf u.line))) (by decide) (by decide) (by decide) rfl rfl
  exact granted_of_entry h.who hz (mget_mput_self ..) rfl rfl (by decide) ..

theorem GrantAt.rdsX {x : Blk} {u : Txn} {r : Req} {i : Nat} (h : GrantAt x u r i) (hop : u.op = .rds) (hw : u.canWrite = true) (s : State) :
    Granted { s with blk := x.grantTxn u } u.line r .x i 0x01 (x.lineVal u.line).1 := by
  obtain ⟨-, hg, hi⟩ := h.fetched
  unfold Blk.grantTxn
  rw [h.who, hop]
  dsimp only
  rw [ownerOf_free h.free, h.free, hw, h.stay, fetch_sound h.sound, grantX_eq hi, if_pos (by simp)]
  split
  · exact granted_of_entry h.who (hg.with_entry ..) (mget_mput_self ..) rfl rfl (by decide) ..
  · refine granted_of_entry (e := ⟨.x, u.part, false, [i], 0, (x.fetch u.line).1.coh.stamp + 1⟩) h.who ((hg.with_entry ..).bumpMod ..)
      ?_ rfl rfl (by decide) ..
    rw [coh_bumpMod]
    exact mget_mput_self ..

theorem GrantAt.rdsS {x : Blk} {u : Txn} {r : Req} {i : Nat} (h : GrantAt x u r i) (hop : u.op = .rds) (hw : u.canWrite = false) (s : State) :
    Granted { s with blk := x.grantTxn u } u.line r .s i 0x00 (x.lineVal u.line).1 := by
  obtain ⟨hc, hg, hi⟩ := h.fetched
  unfold Blk.grantTxn
  rw [h.who, hop]
  dsimp only
  rw [ownerOf_free h.free, hw, fetch_sound h.sound, addSharer_eq hi (by rw [hc]; exact h.free), if_neg (by simp)]
  exact granted_of_entry h.who (hg.with_entry ..) (mget_mput_self ..) rfl rfl (by decide) ..

/-! ### From the start to the answer -/

theorem sameLines_coh (x : Blk) (c : Coh) : SameLines x { x with coh := c } :=
  ⟨⟨rfl, fun _ => rfl, fun _ => rfl, fun _ => rfl, fun _ => rfl, rfl, rfl, rfl⟩, rfl, rfl, rfl, rfl, rfl, rfl, rfl⟩

theorem sameLines_started {b x : Blk} {t u : Txn} (h : Started b t x u) : SameLines b x :=
  sameLines_of_frame (onlyBlk_of_rest h.rest) (by decide) (by decide) (by decide)

theorem CanGrant.started {b x : Blk} {t u : Txn} {src : Nat} (hg : CanGrant b t.line src) (h : Started b t x u) : CanGrant x u.line src := by
  have hl : u.line = t.line := by rw [h.txn]
  rw [hl]
  exact hg.of_rest h.rest (by decide) (by decide) (by decide) (by rw [h.coh]) (h.kept extProj_dead.mod)

theorem fencedTxn_started {b x : Blk} {t u : Txn} (h : Started b t x u) : x.fencedTxn u = b.fencedTxn t := by
  unfold Blk.fencedTxn
  rw [pair_of_rest h.rest (by decide), h.txn]

theorem unfenced_of_twin {b : Blk} {t : Txn} (h : (b.pair.fenced && t.twin) = false) : b.fencedTxn t = false := by
  unfold Blk.fencedTxn
  rw [h]
  rfl

theorem busy_started {b x : Blk} {t u : Txn} (h : Started b t x u) (hb : b.busy t.line = false) (s : Bytes) :
    ({ x with coh.serving := s, coh.txns := x.coh.txns.filter (fun y => y.id != u.id) } : Blk).busy t.line = false := by
  unfold Blk.busy at hb ⊢
  have hid : u.id = t.id := by rw [h.txn]
  rw [h.coh]
  simp only [List.any_eq_false, List.mem_filter, List.mem_append, List.mem_singleton, bne_iff_ne, ne_eq] at hb ⊢
  rintro y ⟨⟨hy, -⟩ | rfl, hne⟩
  · exact hb y hy
  · exact absurd rfl hne

/-- A grant to an agent whose request begins on a free line. -/
theorem begin_grants {b : Blk} {t : Txn} {r : Req} {i : Nat} {st : DirState} {ty : Nat} (hidle : b.mustWait t.line = false)
    (hfree : EntryFree b t.line) (hsound : b.pool.inj = []) (hg : CanGrant b t.line r.src.toNat) (hwho : t.who = .fabric r.src)
    (hdata : t.data = none) (hix : b.agentIx r.src.toNat = some i) (hop : t.op = .rds ∨ t.op = .rdx ∨ ∃ a, t.op = .far a)
    (hgrant : ∀ x u, SameLines b x → u.line = t.line → u.op = t.op → u.canWrite = t.canWrite → GrantAt x u r i →
      ∀ s : State, Granted { s with blk := x.grantTxn u } u.line r st i ty (x.lineVal u.line).1) (s : State) :
    Granted { s with blk := b.beginTxn t } t.line r st i ty (b.lineVal t.line).1 := by
  obtain ⟨x, u, hst, hgo⟩ := beginTxn_free hidle hfree
  have hnum : CanGrant (numberGiven b) (numbered b t).line r.src.toNat := ⟨⟨hg.up, hg.route⟩, hg.live, hg.unfenced⟩
  have hf : x.fencedTxn u = false := (fencedTxn_started hst).trans (unfenced_of_twin (t := numbered b t) hg.unfenced)
  have hline : u.line = t.line := by rw [hst.txn]; rfl
  obtain ⟨sv, hadv⟩ := advance_grants (u := u) (by rw [hst.txn]; exact hdata) hf (by rw [hst.txn]; exact hop)
  have hx := hnum.started hst
  have hat : GrantAt ({ x with coh.serving := sv } : Blk) u r i :=
    { up := hx.up, route := hx.route, live := hx.live, unfenced := hx.unfenced
      who := by rw [hst.txn]; exact hwho
      free := by
        show mget x.coh.dir u.line = none
        rw [hst.coh, hline]
        exact hfree.noEntry
      agent := (agentIx_congr (by show x.coh.agents = b.coh.agents; rw [hst.coh]; rfl) _).trans hix
      stay := by rw [hst.txn]
      sound := by
        show x.pool.inj = []
        rw [pool_of_rest hst.rest (by decide)]
        exact hsound }
  have hlines : SameLines b ({ x with coh.serving := sv } : Blk) :=
    sameLines_trans (sameLines_coh b _) (sameLines_trans (sameLines_started hst) (sameLines_coh x _))
  have hfin := hgrant _ u hlines hline (by rw [hst.txn]; rfl) (by rw [hst.txn]; rfl) hat s
  rw [lineVal_congr hlines, hline] at hfin
  rw [hgo, hadv]
  exact granted_of_parts hfin rfl rfl rfl

theorem bitAt_fetch {b : Blk} (h : b.pool.inj = []) {wd i : Nat} (ho : QuietBit wd i) (hc : wd ≠ Reg.secKeyMismatchCnt) (he : wd ≠ Reg.secErr)
    (l : Nat) : bitAt (b.fetch l).1 wd i = bitAt b wd i := by
  have hread : bitAt (lineRead b l) wd i = bitAt b wd i := bitAt_of_regs (regs_of_rest (calm_lineRead h l).rest (by decide)) wd i
  rw [fetch_eq]
  unfold Blk.noteSlot
  dsimp only
  split
  · rw [qbit_log ho, bitAt_flag (.inl he), bitAt_incr hc, hread]
  · exact hread

/-- A RdOnce that has started: its line's bytes are answered. -/
theorem started_fetched {b x : Blk} {t u : Txn} (h : Started b t x u) (hop : t.op = .rdonce) (hdata : t.data = none)
    (hf : b.fencedTxn t = false) (hsound : b.pool.inj = []) :
    ∃ (y : Blk) (sv : Bytes), rest quietRegions y = rest quietRegions ({ x with coh.serving := sv } : Blk) ∧
      (∀ wd i, QuietBit wd i → wd ≠ Reg.secKeyMismatchCnt → wd ≠ Reg.secErr → bitAt y wd i = bitAt x wd i) ∧
      x.advance u = { (y.answerTxn u 0x02 0 (b.lineVal t.line).1 (b.lineVal t.line).2 false).endTxn u with coh.serving := [] } := by
  obtain ⟨sv, hadv⟩ := advance_rdonce (x := x) (u := u) (by rw [h.txn]; exact hdata) ((fencedTxn_started h).trans hf) (by rw [h.txn]; exact hop)
  have hline : u.line = t.line := by rw [h.txn]
  have hi : ({ x with coh.serving := sv } : Blk).pool.inj = [] := (congrArg Pool.inj (pool_of_rest h.rest (by decide))).trans hsound
  have hv : ({ x with coh.serving := sv } : Blk).lineVal t.line = b.lineVal t.line :=
    lineVal_congr (sameLines_trans (sameLines_started h) (sameLines_coh x _)) _
  have hr := rest_fetch_sound hi u.line
  rw [fetch_sound hi, hline, hv] at hadv
  rw [hline] at hr
  exact ⟨_, sv, hr, fun wd i ho hc he => bitAt_fetch hi ho hc he t.line, hadv⟩

/-- The same for a host that can be answered. -/
theorem started_rdonce {b x : Blk} {t u : Txn} {src : Nat} (h : Started b t x u) (hop : t.op = .rdonce) (hdata : t.data = none)
    (hf : b.fencedTxn t = false) (hsound : b.pool.inj = []) (hans : CanAnswer b t.line src) :
    ∃ (y : Blk) (sv : Bytes), y.coh = { x.coh with serving := sv } ∧ CanAnswer y t.line src ∧
      x.advance u = { (y.answerTxn u 0x02 0 (b.lineVal t.line).1 (b.lineVal t.line).2 false).endTxn u with coh.serving := [] } := by
  obtain ⟨y, sv, hr, _, hadv⟩ := started_fetched h hop hdata hf hsound
  refine ⟨y, sv, (coh_of_rest hr (by decide)).trans rfl, ?_, hadv⟩
  have hx : CanAnswer ({ x with coh.serving := sv } : Blk) t.line src :=
    have hx := hans.of_rest h.rest (by decide) (by decide)
    ⟨hx.up, hx.route⟩
  exact hx.of_rest hr (by decide) (by decide)

/-- The block in which a bulk message has been taken from the table. -/
def jobTaken (y : Blk) (id : Nat) : Blk := { y with coh.jobs := mdel y.coh.jobs id }

theorem CanAnswer.jobTaken {y : Blk} {l src : Nat} (h : CanAnswer y l src) (id : Nat) : CanAnswer (jobTaken y id) l src := ⟨h.up, h.route⟩

theorem CanAnswer.with_jobs {y : Blk} {l src : Nat} (h : CanAnswer y l src) (jobs : Map Job) :
    CanAnswer ({ y with coh.jobs := jobs } : Blk) l src := ⟨h.up, h.route⟩

/-- The last line of a bulk read ends the message. -/
theorem endJob_read {y : Blk} {j : Job} {l src : Nat} (hans : CanAnswer y l src) (hl : lineOf j.addr = l) (hwho : j.who.eid = some src)
    (hw : j.write = false) (hst : j.status = 0) (hc : j.counted = false) (s : State) (id : Nat) :
    (y.endJob id j).coh = { y.coh with jobs := mdel y.coh.jobs id } ∧
      Sends { s with blk := y.endJob id j } (homeOf l) 0x06 src 0 (j.got.map (fun x => x.2.1)).flatten := by
  have hgo : y.endJob id j = (((jobTaken y id).noteLoad src (y.loadOf (homeOf l) src 1)).send (homeOf l)
      { ty := 0x06, dst := src, msgId := 0, traceId := j.traceId, load := y.loadOf (homeOf l) src 1,
        arg := argResp j.addr j.msgId false false ||| argAt (j.got.length - 1) 64,
        payload := (j.got.map (fun x => x.2.1)).flatten, poisons := j.got.map (fun x => x.2.2), part := y.hostPart src }).2 := by
    unfold Blk.endJob
    simp only [hwho, hw, hst, hc, hl]
    rfl
  rw [hgo]
  have hn : CanAnswer ((jobTaken y id).noteLoad src (y.loadOf (homeOf l) src 1)) l src := ⟨hans.up, hans.route⟩
  exact ⟨by rw [coh_send, coh_noteLoad]; rfl, sends_send hn.up _ hn.route s⟩

/-- The last line of a bulk write ends the message. -/
theorem endJob_write {y : Blk} {j : Job} {l src : Nat} (hl : lineOf j.addr = l) (hwho : j.who.eid = some src)
    (hw : j.write = true) (hst : j.status = 0) (hbad : j.bad ≠ j.got.length) (id : Nat) :
    y.endJob id j = ((jobTaken y id).respond (homeOf l) 0x40 src j.msgId j.traceId j.addr 0 false false [] false 1 (y.hostPart src)).2 := by
  unfold Blk.endJob
  simp only [hwho, hw, hst, hl, hbad]
  simp
  rfl

/-- An RdOnce of a host without a bulk message. -/
theorem started_rdonce_answers {b x : Blk} {t u : Txn} {src : Eid} (h : Started b t x u) (hop : t.op = .rdonce) (hwho : t.who = .fabric src)
    (hjob : t.job = none) (hdata : t.data = none) (hf : b.fencedTxn t = false) (hsound : b.pool.inj = [])
    (hans : CanAnswer b t.line src.toNat) (hfree : mget b.coh.dir t.line = none) (hbusy : b.busy t.line = false) (s : State) :
    mget (x.advance u).coh.dir t.line = none ∧ (x.advance u).busy t.line = false ∧
      Sends { s with blk := x.advance u } (homeOf t.line) 0x02 src.toNat 0 (b.lineVal t.line).1 := by
  obtain ⟨y, sv, hy, hcan, hadv⟩ := started_rdonce h hop hdata hf hsound hans
  have hgo : y.answerTxn u 0x02 0 (b.lineVal t.line).1 (b.lineVal t.line).2 false =
      (y.respond (homeOf t.line) 0x02 src.toNat u.msgId u.traceId (t.line * 128) 0 false false (b.lineVal t.line).1 (b.lineVal t.line).2 0
        u.part).2 := by
    have hline : u.line = t.line := by rw [h.txn]
    have huop : u.op = .rdonce := by rw [h.txn]; exact hop
    have hujob : u.job = none := by rw [h.txn]; exact hjob
    have huwho : u.who = .fabric src := by rw [h.txn]; exact hwho
    unfold Blk.answerTxn
    rw [hujob, huwho, huop, hline]
  rw [hadv, hgo]
  have hs := sends_respond hcan s 0x02 u.msgId u.traceId (t.line * 128) 0 false false (b.lineVal t.line).1 (b.lineVal t.line).2 0 u.part
  have hc := coh_respond y (homeOf t.line) 0x02 src.toNat u.msgId u.traceId (t.line * 128) 0 false false (b.lineVal t.line).1
    (b.lineVal t.line).2 0 u.part
  generalize (y.respond (homeOf t.line) 0x02 src.toNat u.msgId u.traceId (t.line * 128) 0 false false (b.lineVal t.line).1
    (b.lineVal t.line).2 0 u.part).2 = z at hs hc ⊢
  refine ⟨?_, ?_, sends_of_fab hs rfl⟩
  · show mget z.coh.dir t.line = none
    rw [hc, hy, h.coh]
    exact hfree
  · have hb := busy_started h hbusy []
    unfold Blk.busy Blk.endTxn at *
    rw [hc, hy]
    exact hb

/-- The state of a bulk message whose last line has ended with status 0. -/
def lastGot (j : Job) (l : Nat) (bs : Bytes) (p : Bool) : Job := { j with left := [], got := mput j.got l (bs, p) }

theorem jobLine_last {y : Blk} {id l : Nat} {j : Job} (hj : mget y.coh.jobs id = some j) (hleft : j.left = [l]) (hst : j.status = 0) (bs : Bytes)
    (p : Bool) : y.jobLine id l 0 bs p =
      ({ y with coh.jobs := mput y.coh.jobs id (lastGot j l bs p) } : Blk).endJob id (lastGot j l bs p) := by
  unfold Blk.jobLine
  simp only [hj, hleft, hst]
  simp [lastGot, hst, b2n]

/-! ### Requests accepted -/

theorem reqRead_begins {b0 b : Blk} {ty : Nat} {k : AKind} {r : Req} {a : Addr} {c : Checked} (h : ReqIn b0 b r a ty [0] k c)
    (ha : a.toNat % 128 = 0) (op : LineOp) : reqRead b0 ty op k r a.toNat =
      if k = .rdx then (b.bumpMod (lineOf a.toNat) 1).beginTxn
        (newTxn (lineOf a.toNat) op (.fabric r.src) r.msgId.toNat r.traceId.toNat c none).isCounted
      else b.beginTxn (newTxn (lineOf a.toNat) op (.fabric r.src) r.msgId.toNat r.traceId.toNat c none) := by
  obtain ⟨hin, hform, hchk, hpass, hat⟩ := h
  unfold reqRead
  dsimp only
  rw [if_neg (by simp [hin]), if_neg (by simp [hform, ha]), hchk, if_neg (by simp [hpass]), ← hat]

/-- The block in which a bulk message of n lines has its entry in the table. -/
def jobPut (b : Blk) (r : Req) (addr n : Nat) (write : Bool) : Blk :=
  { b with
    coh.nextJob := b.coh.nextJob + 1
    coh.jobs := mput b.coh.jobs b.coh.nextJob ⟨.fabric r.src, r.msgId.toNat, r.traceId.toNat, addr, write,
      (List.range n).map (fun i => lineOf addr + i), [], 0, 0, write⟩ }

/-- A line of a bulk read. -/
def bulkRead (r : Req) (c : Checked) (id i : Nat) : Txn :=
  newTxn i .rdonce (.fabric r.src) r.msgId.toNat r.traceId.toNat c (some id)

theorem reqRdBulk_begins {b0 b : Blk} {r : Req} {a : Addr} {c : Checked} (h : ReqIn b0 b r a 0xC5 [0] .read c) (ha : a.toNat % 128 = 0)
    {n : Nat} (hn : n ≤ 510) (hgran : lineIn (lineOf a.toNat) + n ≤ 16384) : reqRdBulk b0 r a.toNat n =
      ((List.range n).map (fun i => lineOf a.toNat + i)).foldl (fun x i => x.beginTxn (bulkRead r c b.coh.nextJob i))
        (jobPut b r a.toNat n false) := by
  obtain ⟨hin, hform, hchk, hpass, hat⟩ := h
  unfold reqRdBulk
  dsimp only
  rw [if_neg (by simp [hin]), if_neg (by simp [hform, ha, hn, hgran]), hchk, if_neg (by simp [hpass]), ← hat]
  rfl

theorem nextJob_bulk (f : Nat → Txn) (ls : List Nat) (x : Blk) :
    (ls.foldl (fun x i => x.beginTxn (f i)) x).coh.nextJob = x.coh.nextJob :=
  keeps_foldl (fun x : Blk => x.coh.nextJob) (fun x i => nextJob_beginTxn x (f i)) ls x

theorem lineFree_of_rest {L : List Region} {x y : Blk} {l : Nat} (h : LineFree x l) (hr : rest L y = rest L x) (hc : .coh ∉ L)
    (hg : .rings ∉ L) (hp : .pool ∉ L) : LineFree y l := by
  have hcoh := coh_of_rest hr hc
  have hrings := rings_of_rest hr hg
  refine ⟨?_, ?_, ?_, ?_⟩
  · rw [← h.idle]
    unfold Blk.mustWait Blk.busy Blk.queued Blk.trackers
    rw [hcoh, hrings]
  · rw [hcoh]
    exact h.noEntry
  · have := h.room
    unfold Blk.setEntries Blk.claims at *
    rw [hcoh]
    exact this
  · rw [pool_of_rest hr hp]
    exact h.sound

theorem entryFree_of_lineFree {b : Blk} {l : Nat} (h : LineFree b l) : EntryFree b l := ⟨h.noEntry, h.room⟩

theorem lineFree_bumpMod {b : Blk} {l : Nat} (h : LineFree b l) (k n : Nat) : LineFree (b.bumpMod k n) l :=
  lineFree_of_rest h (rest_bumpMod (L := [.ext]) (by decide) b k n) (by decide) (by decide) (by decide)

theorem sameLines_bumpMod (b : Blk) (k n : Nat) : SameLines b (b.bumpMod k n) :=
  sameLines_of_frame (onlyBlk_of_rest (rest_bumpMod (L := [.ext]) (by decide) b k n)) (by decide) (by decide) (by decide)

theorem busy_of_lineFree {b : Blk} {l : Nat} (h : LineFree b l) : b.busy l = false := by
  have hi := h.idle
  unfold Blk.mustWait at hi
  simp only [Bool.or_eq_false_iff] at hi
  exact hi.1.1.1

theorem CanAnswer.numberGiven {b : Blk} {l src : Nat} (h : CanAnswer b l src) : CanAnswer (numberGiven b) l src := ⟨h.up, h.route⟩

theorem sameLines_numberGiven (b : Blk) : SameLines b (numberGiven b) := sameLines_coh b _

/-- A bulk read of one free line is answered, and leaves no bulk message. -/
theorem begin_bulkRead {b : Blk} {r : Req} {a : Addr} {c : Checked} (hg : CanGrant b (lineOf a.toNat) r.src.toNat)
    (hfree : LineFree b (lineOf a.toNat)) (hjobs : b.coh.jobs = []) (s : State) :
    let x := (jobPut b r a.toNat 1 false).beginTxn (bulkRead r c b.coh.nextJob (lineOf a.toNat))
    x.busy (lineOf a.toNat) = false ∧ x.coh.jobs = [] ∧
      Sends { s with blk := x } (homeOf (lineOf a.toNat)) 0x06 r.src.toNat 0 (b.lineVal (lineOf a.toNat)).1 := by
  have hput : EntryFree (jobPut b r a.toNat 1 false) (bulkRead r c b.coh.nextJob (lineOf a.toNat)).line := ⟨hfree.noEntry, hfree.room⟩
  obtain ⟨x, u, hst, hgo⟩ := beginTxn_free (t := bulkRead r c b.coh.nextJob (lineOf a.toNat)) (b := jobPut b r a.toNat 1 false) hfree.idle hput
  obtain ⟨y, sv, hy, hcan, hadv⟩ := started_rdonce (src := r.src.toNat) hst rfl rfl
    (unfenced_of_twin (b := numberGiven (jobPut b r a.toNat 1 false)) (t := numbered _ (bulkRead r c b.coh.nextJob (lineOf a.toNat))) hg.unfenced)
    hfree.sound ⟨hg.up, hg.route⟩
  have hlines : (numberGiven (jobPut b r a.toNat 1 false)).lineVal (lineOf a.toNat) = b.lineVal (lineOf a.toNat) :=
    lineVal_congr (sameLines_coh b _) _
  have hl : (numbered (jobPut b r a.toNat 1 false) (bulkRead r c b.coh.nextJob (lineOf a.toNat))).line = lineOf a.toNat := rfl
  rw [hl] at hcan hadv
  rw [hlines] at hadv
  have huline : u.line = lineOf a.toNat := by rw [hst.txn]; rfl
  have hujob : u.job = some b.coh.nextJob := by rw [hst.txn]; rfl
  generalize hjob : (⟨.fabric r.src, r.msgId.toNat, r.traceId.toNat, a.toNat, false, [lineOf a.toNat], [], 0, 0, false⟩ : Job) = j at *
  have hyjobs : y.coh.jobs = [(b.coh.nextJob, j)] := by
    rw [hy, hst.coh]
    show mput b.coh.jobs b.coh.nextJob _ = _
    rw [hjobs, ← hjob]
    rfl
  have hans : y.answerTxn u 0x02 0 (b.lineVal (lineOf a.toNat)).1 (b.lineVal (lineOf a.toNat)).2 false =
      y.jobLine b.coh.nextJob (lineOf a.toNat) 0 (b.lineVal (lineOf a.toNat)).1 (b.lineVal (lineOf a.toNat)).2 := by
    unfold Blk.answerTxn
    rw [hujob, huline]
  rw [jobLine_last (j := j) (by rw [hyjobs]; simp [mget]) (by rw [← hjob]) (by rw [← hjob])] at hans
  have hz := hcan.with_jobs (mput y.coh.jobs b.coh.nextJob
    (lastGot j (lineOf a.toNat) (b.lineVal (lineOf a.toNat)).1 (b.lineVal (lineOf a.toNat)).2))
  obtain ⟨hc, hs⟩ := endJob_read hz (j := lastGot j (lineOf a.toNat) (b.lineVal (lineOf a.toNat)).1 (b.lineVal (lineOf a.toNat)).2)
    (by rw [← hjob]; rfl) (by rw [← hjob]; rfl) (by rw [← hjob]; rfl) (by rw [← hjob]; rfl) (by rw [← hjob]; rfl) s b.coh.nextJob
  rw [← hans] at hc hs
  dsimp only
  rw [hgo, hadv]
  generalize y.answerTxn u 0x02 0 (b.lineVal (lineOf a.toNat)).1 (b.lineVal (lineOf a.toNat)).2 false = z at hc hs ⊢
  refine ⟨?_, ?_, ?_⟩
  · have hb := busy_started hst (busy_of_lineFree (b := b) hfree) []
    unfold Blk.busy Blk.endTxn at *
    rw [hc]
    dsimp only
    rw [hy]
    exact hb
  · show z.coh.jobs = []
    rw [hc]
    simp [hyjobs, mput, mdel]
  · refine sends_of_fab (s := s) (x := z) ?_ rfl
    have hgot : ((lastGot j (lineOf a.toNat) (b.lineVal (lineOf a.toNat)).1 (b.lineVal (lineOf a.toNat)).2).got.map (fun x => x.2.1)).flatten =
        (b.lineVal (lineOf a.toNat)).1 := by
      rw [← hjob]
      simp [lastGot, mput]
    rw [hgot] at hs
    exact hs

/-- Settles O26: a request on a free line starts at once and has nothing to wait for. -/
theorem readsOfAFreeLineAreGranted : Obligations.ReadsOfAFreeLineAreGranted := by
  unfold Obligations.ReadsOfAFreeLineAreGranted
  refine ⟨fun s b r a c i h ha hfree hix hw => ?_, fun s b r a c i h ha hfree hix hw => ?_, fun s b r a c i h ha hfree hix => ?_,
    fun s b r a c h ha hfree => ?_, fun s b r a n c h ha hn hgran => ?_, fun s b r a c h ha hfree hjobs => ?_⟩
  · refine does_of_live (f := fun b => reqRead b 0xC0 .rds .rds r a.toNat) rfl (up_of_reqIn h) ?_
    rw [reqRead_begins h ha, if_neg (by decide)]
    exact begin_grants (t := newTxn (lineOf a.toNat) .rds (.fabric r.src) r.msgId.toNat r.traceId.toNat c none) hfree.idle
      ⟨hfree.noEntry, hfree.room⟩ hfree.sound (canGrant_of_reqIn h) rfl rfl hix (.inl rfl)
      (fun x u _ _ hop hcw hat => hat.rdsX hop (hcw.trans hw)) s
  · refine does_of_live (f := fun b => reqRead b 0xC0 .rds .rds r a.toNat) rfl (up_of_reqIn h) ?_
    rw [reqRead_begins h ha, if_neg (by decide)]
    exact begin_grants (t := newTxn (lineOf a.toNat) .rds (.fabric r.src) r.msgId.toNat r.traceId.toNat c none) hfree.idle
      ⟨hfree.noEntry, hfree.room⟩ hfree.sound (canGrant_of_reqIn h) rfl rfl hix (.inl rfl)
      (fun x u _ _ hop hcw hat => hat.rdsS hop (hcw.trans hw)) s
  · refine does_of_live (f := fun b => reqRead b 0xC1 .rdx .rdx r a.toNat) rfl (up_of_reqIn h) ?_
    rw [reqRead_begins h ha, if_pos rfl]
    have hbump := lineFree_bumpMod hfree (lineOf a.toNat) 1
    have hb := begin_grants (t := (newTxn (lineOf a.toNat) .rdx (.fabric r.src) r.msgId.toNat r.traceId.toNat c none).isCounted)
      hbump.idle (entryFree_of_lineFree hbump) hbump.sound ((canGrant_of_reqIn h).bumpMod (lineOf a.toNat) 1) rfl rfl
      ((agentIx_congr (by rw [coh_bumpMod]) _).trans hix) (.inr (.inl rfl)) (fun x u _ _ hop _ hat => hat.rdx hop) s
    rw [lineVal_congr (sameLines_bumpMod ..)] at hb
    exact hb
  · refine does_of_live (f := fun b => reqRead b 0xC2 .rdonce .read r a.toNat) rfl (up_of_reqIn h) ?_
    rw [reqRead_begins h ha, if_neg (by decide)]
    have hg := canGrant_of_reqIn h
    obtain ⟨x, u, hst, hgo⟩ := beginTxn_free (t := newTxn (lineOf a.toNat) .rdonce (.fabric r.src) r.msgId.toNat r.traceId.toNat c none)
      hfree.idle (entryFree_of_lineFree hfree)
    rw [hgo]
    have hend := started_rdonce_answers (src := r.src) hst rfl rfl rfl rfl
      (unfenced_of_twin (b := numberGiven b) (t := numbered _ (newTxn (lineOf a.toNat) .rdonce (.fabric r.src) r.msgId.toNat r.traceId.toNat c none))
        hg.unfenced)
      hfree.sound hg.toCanAnswer.numberGiven hfree.noEntry (busy_of_lineFree (b := b) hfree) s
    rw [lineVal_congr (sameLines_numberGiven b)] at hend
    exact hend
  · refine does_of_live (f := fun b => reqRdBulk b r a.toNat (n.toNat + 1)) rfl (up_of_reqIn h) ?_
    rw [reqRdBulk_begins h ha hn hgran]
    exact nextJob_bulk _ _ _
  · refine does_of_live (f := fun b => reqRdBulk b r a.toNat 1) rfl (up_of_reqIn h) ?_
    have hgran : lineIn (lineOf a.toNat) + 1 ≤ 16384 := Nat.mod_lt _ (by decide)
    rw [reqRdBulk_begins h ha (by decide) hgran]
    exact begin_bulkRead (canGrant_of_reqIn h) hfree hjobs s

end Sys2Proof.Proofs
end

/-! ## Writes of a free line (R111, R114, R340) -/
section
namespace Sys2Proof.Proofs

open Sys2Proof.Machine

/-! ### A log that lies outside the pool -/

/-- A change outside the pool of what lies there: the rings' places stay. -/
structure OffPool (x y : Blk) : Prop where
  rest : rest [.regs, .aon, .rings] y = rest [.regs, .aon, .rings] x
  log : y.rings.log.ext = x.rings.log.ext
  trace : y.rings.trace.ext = x.rings.trace.ext

theorem offPool_refl (x : Blk) : OffPool x x := ⟨rfl, rfl, rfl⟩

theorem offPool_trans {x y z : Blk} (h : OffPool x y) (k : OffPool y z) : OffPool x z :=
  ⟨k.rest.trans h.rest, k.log.trans h.log, k.trace.trans h.trace⟩

theorem offPool_of_rest {L : List Region} {x y : Blk} (h : Proofs.rest L y = Proofs.rest L x) (hL : L ⊆ [.regs, .aon])
    (hr : .rings ∉ L) : OffPool x y := by
  have hrings := rings_of_rest h hr
  exact ⟨rest_of_onlyBlk (onlyBlk_mono (fun x hx => show x ∈ [.regs, .aon] ++ [Region.rings] from List.mem_append_left _ (hL hx)) (onlyBlk_of_rest h)), by rw [hrings], by rw [hrings]⟩

theorem makeRoom_ext (r : Ring) (size n k : Nat) : (r.makeRoom size n k).ext = r.ext := by
  induction k generalizing r with
  | zero => rfl
  | succ k ih =>
    unfold Ring.makeRoom
    split
    · rfl
    · exact ih _

theorem offPool_logRoom (b : Blk) : OffPool b b.logRoom := by
  unfold Blk.logRoom
  split
  · exact ⟨rest_with_rings (by decide) .., makeRoom_ext .., rfl⟩
  · exact offPool_refl b

theorem offPool_logLose (b : Blk) : OffPool b b.logLose := by
  have hlost : OffPool b { b with rings.log := { b.rings.log with lost := b.rings.log.lost + 1 } } :=
    ⟨rest_with_rings (by decide) .., rfl, rfl⟩
  refine offPool_trans hlost (offPool_trans (offPool_of_rest (rest_aonAdd (L := [.aon]) (by decide) _ 225 1) (by decide) (by decide)) ?_)
  exact offPool_of_rest (rest_flag (L := [.regs]) (by decide) _ Reg.obsErr 2) (by decide) (by decide)

theorem offPool_logPut {b : Blk} (h : b.rings.log.ext = none) (bs : Bytes) : OffPool b (b.logPut bs).2 := by
  unfold Blk.logPut
  rw [h]
  exact ⟨rest_with_rings (by decide) .., rfl, rfl⟩

theorem offPool_logCatch {b : Blk} (h : b.rings.log.ext = none) : OffPool b b.logCatch := by
  unfold Blk.logCatch
  split
  · exact offPool_refl b
  · dsimp only
    have hp := offPool_logPut h (LogRec.bytes { time := b.tb, code := 0x1A, unit := 0xFF, part := 0, flags := 0, a := 0, b := b.rings.log.lost })
    split
    · exact offPool_trans hp ⟨rest_with_rings (by decide) .., rfl, rfl⟩
    · exact hp

theorem offPool_logRing {b : Blk} (h : b.rings.log.ext = none) (r : LogRec) : OffPool b (b.logRing r) := by
  have hroom := offPool_logRoom b
  have hcatch := offPool_trans hroom (offPool_logCatch (hroom.log.trans h))
  have hall := offPool_trans hcatch (offPool_logRoom _)
  unfold Blk.logRing
  dsimp only
  split
  · exact offPool_trans hall (offPool_logLose _)
  · have hput := offPool_trans hall (offPool_logPut (hall.log.trans h) r.bytes)
    split
    · exact hput
    · exact offPool_trans hput (offPool_logLose _)

theorem offPool_logRaise {b : Blk} (h : b.rings.log.ext = none) (r : LogRec) : OffPool b (b.logRaise r) := by
  unfold Blk.logRaise
  split
  · exact offPool_logRing h r
  · split
    · exact ⟨rest_with_rings (by decide) .., rfl, rfl⟩
    · exact offPool_logLose b

theorem offPool_log {b : Blk} (h : b.rings.log.ext = none) (code unit part a bb flags : Nat) :
    OffPool b (b.log code unit part a bb flags) :=
  offPool_logRaise h _

theorem offPool_trace {b : Blk} (h : b.rings.trace.ext = none) (r : TraceRec) : b.trace r = b := by
  simp [Blk.trace, h]

theorem sameLines_of_offPool {x y : Blk} (h : OffPool x y) : SameLines x y :=
  sameLines_of_frame (onlyBlk_of_rest h.rest) (by decide) (by decide) (by decide)

theorem offPool_noteSlot {b : Blk} (h : b.rings.log.ext = none) (l : Nat) : OffPool b (b.noteSlot l) := by
  unfold Blk.noteSlot
  dsimp only
  split
  · have hincr := offPool_of_rest (rest_incr (L := [.regs]) (by decide) b Reg.secKeyMismatchCnt) (by decide) (by decide)
    have hflag := offPool_trans hincr (offPool_of_rest (rest_flag (L := [.regs]) (by decide) _ Reg.secErr 2) (by decide) (by decide))
    exact offPool_trans hflag (offPool_log (hflag.log.trans h) ..)
  · exact offPool_refl b

theorem sameLines_fetch {b : Blk} (h : b.pool.inj = []) (hlog : b.rings.log.ext = none) (l : Nat) : SameLines b (b.fetch l).1 := by
  have hc := calm_lineRead h l
  rw [fetch_eq]
  exact sameLines_trans hc.lines (sameLines_of_offPool (offPool_noteSlot (by rw [rings_of_rest hc.rest (by decide)]; exact hlog) l))

/-! ### What a write leaves to be read -/

theorem source_of_huskAlive {b : Blk} {l : Nat} (h : b.huskAlive l = true) : (b.source l).isSome = true := by
  unfold Blk.source
  split
  · rfl
  · by_cases hmode : b.mode = 1
    · have hs : b.aliveA l = true ∨ b.aliveB l = true := by
        simp only [Blk.huskAlive, Blk.inStook, Bool.and_eq_true, Bool.or_eq_true, decide_eq_true_eq] at h
        simp only [Blk.aliveA, Blk.aliveB, hmode, if_true]
        obtain hst | hgone := h.1
        · exact .inl hst
        · have heven : (b.pos l).1 / 2 * 2 = (b.pos l).1 := by
            simp only [Blk.pos, huskPos, hmode]
            omega
          simp only [Blk.goneAt, Blk.stookOf, hmode, heven] at hgone
          cases hA : b.stored (b.pos l).1 (b.pos l).2
          · cases hB : b.stored ((b.pos l).1 + 1) (b.pos l).2
            · simp [hA, hB] at hgone
            · exact .inr (by simp)
          · exact .inl rfl
      obtain hA | hB := hs
      · rw [if_pos hA]; rfl
      · split
        · rfl
        · simp [hB]
    · have hA : b.aliveA l = true := by
        simp only [Blk.aliveA, if_neg hmode]
        exact h
      rw [if_pos hA]
      rfl

theorem length_mergeMask (m : BitVec 128) (x y : Bytes) : (mergeMask m x y).length = 128 := by
  simp [mergeMask]

theorem mergeMask_all (x y z : Bytes) : mergeMask (BitVec.allOnes 128) x z = mergeMask (BitVec.allOnes 128) y z := by
  unfold mergeMask
  refine List.map_congr_left (fun i hi => ?_)
  rw [BitVec.getLsbD_allOnes, decide_eq_true (List.mem_range.1 hi)]
  rfl

theorem mergeMask_all_of_length {x y : Bytes} (h : y.length = 128) : mergeMask (BitVec.allOnes 128) x y = y := by
  refine List.ext_getElem (by rw [length_mergeMask, h]) (fun i h1 h2 => ?_)
  simp only [mergeMask, List.getElem_map, List.getElem_range]
  rw [BitVec.getLsbD_allOnes, decide_eq_true (by omega), if_pos rfl]
  simp [h2]

/-- A line that a write is merged into holds the bytes that it reads as, unless it is poisoned. -/
theorem storedBytes_of_lineVal {b : Blk} {l : Nat} (h : (b.lineVal l).2 = false) : b.storedBytes l = (b.lineVal l).1 := by
  unfold Blk.lineVal Blk.storedBytes at *
  cases hs : b.source l with
  | none => simp [hs] at h
  | some c =>
    simp only [hs] at h ⊢
    split at h
    · cases h
    · next hg => rw [if_neg hg]; rfl

theorem lineVal_writeMasked {b : Blk} {l : Nat} (hs : (b.source l).isSome = true) (bs : Bytes) (m : BitVec 128) (p wb : Bool) :
    (b.writeMasked l bs m p wb).lineVal l = lineAfter b l bs m p := by
  unfold Blk.writeMasked lineAfter
  dsimp only
  rw [(wrote_writeLine _ _ wb hs).lineVal hs (.inr rfl)]
  have hbad : (if (m == BitVec.allOnes 128) = true then p else ((b.lineVal l).2 || p)) =
      (if m = BitVec.allOnes 128 then p else ((b.lineVal l).2 || p)) := by simp
  rw [hbad, fit_of_length (length_mergeMask ..)]
  by_cases hm : m = BitVec.allOnes 128
  · rw [if_pos hm, hm, mergeMask_all _ (b.lineVal l).1]
  · rw [if_neg hm]
    cases hv : (b.lineVal l).2
    · rw [storedBytes_of_lineVal hv]
    · simp

/-! ### A write of a free line -/

/-- The block in which a write's line has no directory entry. -/
def entryFreed (b : Blk) (l : Nat) : Blk := { b with coh.dir := mdel b.coh.dir l }

/-- The block in which the bytes of a write are merged into its line. -/
def lineMerged (b : Blk) (l : Nat) (bs : Bytes) (m : BitVec 128) (p wb : Bool) : Blk :=
  (if m = BitVec.allOnes 128 then b else (b.fetch l).1).writeMasked l bs m p wb

theorem rest_lineMerged {b : Blk} (hi : b.pool.inj = []) (l : Nat) (bs : Bytes) (m : BitVec 128) (p wb : Bool) :
    rest quietRegions (lineMerged b l bs m p wb) = rest quietRegions b := by
  unfold lineMerged
  refine (rest_writeMasked (by decide) (by decide) (by decide) (by decide) ..).trans ?_
  split
  · rfl
  · exact rest_fetch_sound hi l

theorem mirrorsFor_congr {x y : Blk} (hp : y.pair = x.pair) (hs : y.str = x.str) (twin : Bool) (l : Nat) :
    y.mirrorsFor twin l = x.mirrorsFor twin l := by
  unfold Blk.mirrorsFor Blk.copyPassed
  rw [hp, hs]

theorem mirrorWait_off {b : Blk} {t : Txn} (h : b.mirrorsFor t.twin t.line = false) (old : Bytes) : b.mirrorWait t old = (false, b) := by
  unfold Blk.mirrorWait
  rw [if_neg (by simp [h])]

/-- The block in which a transaction's request is named to the queues of the Husk channels, and the one in which none is. -/
def served (b : Blk) (t : Txn) : Blk := { b with coh.serving := b.txnHead t }
def quieted (b : Blk) : Blk := { b with coh.serving := [] }

theorem serve_eq (b : Blk) (t : Txn) (f : Blk → Blk) : b.serve t f = quieted (f (served b t)) := rfl

theorem advance_served {x : Blk} {u : Txn} (hdata : u.data = none) : x.advance u = quieted ((served x u).finishTxn u) := by
  rw [advance_eq hdata, serve_eq]

theorem finishTxn_wrline {x : Blk} {u : Txn} {bs : Bytes} {m : BitVec 128} {p : Bool} (hf : x.fencedTxn u = false)
    (hop : u.op = .wrline bs m p) (ha : x.huskAlive u.line = true) (hmir : x.mirrorsFor u.twin u.line = false) (hi : x.pool.inj = []) :
    x.finishTxn u = quieted (((lineMerged (entryFreed (served x u) u.line) u.line bs m p u.wb).answerTxn u 0x40 0 [] false false).endTxn u) := by
  have hf' : (served x u).fencedTxn u = false := hf
  have hal : (entryFreed (served x u) u.line).huskAlive u.line = true := ha
  have hi' : (entryFreed (served x u) u.line).pool.inj = [] := hi
  have hm' : (entryFreed (served x u) u.line).mirrorsFor u.twin u.line = false := hmir
  unfold Blk.finishTxn
  rw [serve_eq]
  refine congrArg quieted ?_
  generalize served x u = y at hf' hal hi' hm' ⊢
  have hr := rest_lineMerged hi' u.line bs m p u.wb
  have hw := mirrorWait_off (t := u) ((mirrorsFor_congr (pair_of_rest hr (by decide)) (str_of_rest hr (by decide)) _ _).trans hm') []
  dsimp only
  rw [if_neg (by rw [hf']; decide), hop]
  unfold lineMerged entryFreed at *
  dsimp only at hw ⊢
  rw [if_neg (by rw [hal]; decide), hw]
  rfl

theorem inj_putCopy {b : Blk} (h : b.pool.inj = []) (c : Copy) (l : Nat) (bs : Bytes) (m : LineMeta) : (b.putCopy c l bs m).pool.inj = [] := by
  cases c <;> simp [Blk.putCopy, h, mdel]

theorem inj_putHusk {b : Blk} (h : b.pool.inj = []) (l : Nat) (bs : Bytes) (m : LineMeta) : (b.putHusk l bs m).pool.inj = [] := by
  have hfresh {x : Blk} (hx : x.pool.inj = []) : ((x.freshChecks l).revive l).pool.inj = [] := by
    have hf : (x.freshChecks l).pool.inj = [] := by
      unfold Blk.freshChecks
      dsimp only
      split
      · exact hx
      · simp [hx, mdel]
    rw [revive_eq]
    exact hf
  have hA : (if b.takesA l then b.putCopy .huskA l bs m else b).pool.inj = [] := by
    split
    · exact inj_putCopy h ..
    · exact h
  unfold Blk.putHusk
  dsimp only
  split
  · exact hfresh (inj_putCopy hA ..)
  · exact hfresh hA

theorem inj_writeLine {b : Blk} (h : b.pool.inj = []) (l : Nat) (bs : Bytes) (p wb : Bool) : (b.writeLine l bs p wb).pool.inj = [] := by
  unfold Blk.writeLine
  dsimp only
  split
  · split
    · exact (inj_countGrain ..).trans (inj_putCopy h ..)
    · exact ((calm_countHusk ..).inj.trans (inj_countGrain ..)).trans (inj_putHusk (inj_putCopy h ..) ..)
  · exact (calm_countHusk ..).inj.trans (inj_putHusk h ..)

theorem inj_fetch {b : Blk} (h : b.pool.inj = []) (hlog : b.rings.log.ext = none) (l : Nat) : (b.fetch l).1.pool.inj = [] := by
  have hc := calm_lineRead h l
  have hnote := offPool_noteSlot (b := lineRead b l) (by rw [rings_of_rest hc.rest (by decide)]; exact hlog) l
  rw [fetch_eq]
  exact (congrArg Pool.inj (pool_of_rest hnote.rest (by decide))).trans (hc.inj.trans h)

theorem logExt_fetch {b : Blk} (h : b.pool.inj = []) (hlog : b.rings.log.ext = none) (l : Nat) : (b.fetch l).1.rings.log.ext = none := by
  have hc := calm_lineRead h l
  have hl : (lineRead b l).rings.log.ext = none := by rw [rings_of_rest hc.rest (by decide)]; exact hlog
  rw [fetch_eq]
  exact (offPool_noteSlot hl l).log.trans hl

theorem inj_lineMerged {b : Blk} (h : b.pool.inj = []) {m : BitVec 128} (hlog : m = BitVec.allOnes 128 ∨ b.rings.log.ext = none) (l : Nat)
    (bs : Bytes) (p wb : Bool) : (lineMerged b l bs m p wb).pool.inj = [] := by
  unfold lineMerged Blk.writeMasked
  by_cases hm : m = BitVec.allOnes 128
  · rw [if_pos hm]
    exact inj_writeLine h ..
  · rw [if_neg hm]
    exact inj_writeLine (inj_fetch h (hlog.resolve_left hm) l) ..

theorem logExt_lineMerged {b : Blk} (h : b.pool.inj = []) {m : BitVec 128} (hlog : m = BitVec.allOnes 128 ∨ b.rings.log.ext = none) (l : Nat)
    (bs : Bytes) (p wb : Bool) : (lineMerged b l bs m p wb).rings.log.ext = b.rings.log.ext := by
  unfold lineMerged
  rw [rings_writeMasked]
  split
  · rfl
  · next hm =>
    have hl := hlog.resolve_left hm
    rw [logExt_fetch h hl, hl]

theorem lineAfter_congr {x y : Blk} {l : Nat} (h : y.lineVal l = x.lineVal l) (bs : Bytes) (m : BitVec 128) (p : Bool) :
    lineAfter y l bs m p = lineAfter x l bs m p := by
  unfold lineAfter
  rw [h]

theorem source_isSome_congr {x y : Blk} (h : SameLines x y) {l : Nat} (hs : (x.source l).isSome = true) : (y.source l).isSome = true := by
  rw [source_congr h.toSameWays (by rw [h.revived])]
  exact hs

theorem lineVal_lineMerged {b : Blk} {l : Nat} {m : BitVec 128} (hs : (b.source l).isSome = true) (hi : b.pool.inj = [])
    (hlog : m = BitVec.allOnes 128 ∨ b.rings.log.ext = none) (bs : Bytes) (p wb : Bool) :
    (lineMerged b l bs m p wb).lineVal l = lineAfter b l bs m p := by
  unfold lineMerged
  by_cases hm : m = BitVec.allOnes 128
  · rw [if_pos hm]
    exact lineVal_writeMasked hs ..
  · rw [if_neg hm]
    have hsame := sameLines_fetch hi (hlog.resolve_left hm) l
    rw [lineVal_writeMasked (source_isSome_congr hsame hs)]
    exact lineAfter_congr (lineVal_congr hsame l) ..

/-- The block in which a started transaction's line has no directory entry any more. -/
def freedAt (x : Blk) (u : Txn) : Blk := entryFreed (served (served x u) u) u.line

theorem rest_freedAt {L : List Region} (hL : .coh ∈ L) (x : Blk) (u : Txn) : rest L (freedAt x u) = rest L x := by
  unfold freedAt entryFreed served
  rw [rest_with_coh hL, rest_with_coh hL, rest_with_coh hL]

theorem coh_freedAt (x : Blk) (u : Txn) :
    (freedAt x u).coh = { x.coh with serving := (served x u).txnHead u, dir := mdel x.coh.dir u.line } := rfl

/-- The block in which the write of a started transaction has been merged. -/
def mergedIn (x : Blk) (u : Txn) (bs : Bytes) (m : BitVec 128) (p : Bool) : Blk := lineMerged (freedAt x u) u.line bs m p u.wb

/-- A write merged into a free line: its bytes stand in the line. -/
theorem mergedIn_started {b x : Blk} {t u : Txn} (h : Started b t x u) {m : BitVec 128} (ha : b.huskAlive t.line = true)
    (hi : b.pool.inj = []) (hlog : m = BitVec.allOnes 128 ∨ b.rings.log.ext = none) (bs : Bytes) (p : Bool) :
    (mergedIn x u bs m p).lineVal t.line = lineAfter b t.line bs m p ∧
      (mergedIn x u bs m p).coh = { x.coh with serving := (served x u).txnHead u, dir := mdel b.coh.dir t.line } ∧
      rest (startRegions ++ quietRegions) (mergedIn x u bs m p) = rest (startRegions ++ quietRegions) b ∧
      (mergedIn x u bs m p).pool.inj = [] ∧ (mergedIn x u bs m p).rings.log.ext = b.rings.log.ext := by
  have hline : u.line = t.line := by rw [h.txn]
  have hzr : rest startRegions (freedAt x u) = rest startRegions b := (rest_freedAt (by decide) x u).trans h.rest
  have hzc := coh_freedAt x u
  rw [h.coh, hline] at hzc
  unfold mergedIn
  rw [h.coh]
  generalize (served x u).txnHead u = sv at hzc ⊢
  generalize freedAt x u = z at *
  have hz : SameLines b z := sameLines_of_frame (onlyBlk_of_rest hzr) (by decide) (by decide) (by decide)
  have hzi : z.pool.inj = [] := (congrArg Pool.inj (pool_of_rest hzr (by decide))).trans hi
  have hzrings : z.rings = b.rings := rings_of_rest hzr (by decide)
  have hzlog : m = BitVec.allOnes 128 ∨ z.rings.log.ext = none := hlog.imp_right (by rw [hzrings]; exact id)
  have hr := rest_lineMerged hzi t.line bs m p u.wb
  have hval := lineVal_lineMerged (source_isSome_congr hz (source_of_huskAlive ha)) hzi hzlog bs p u.wb
  rw [hline]
  refine ⟨hval.trans (lineAfter_congr (lineVal_congr hz _) ..), (coh_of_rest hr (by decide)).trans hzc,
    (rest_of_onlyBlk (onlyBlk_mono (by decide) (onlyBlk_of_rest hr))).trans (rest_of_onlyBlk (onlyBlk_mono (by decide) (onlyBlk_of_rest hzr))),
    inj_lineMerged hzi hzlog .., ?_⟩
  rw [logExt_lineMerged hzi hzlog, hzrings]

/-- A write that has started on a free line is merged into it, and then answered. -/
theorem started_wrline {b x : Blk} {t u : Txn} {bs : Bytes} {m : BitVec 128} {p : Bool} (h : Started b t x u) (hop : t.op = .wrline bs m p)
    (hdata : t.data = none) (hf : b.fencedTxn t = false) (ha : b.huskAlive t.line = true) (hmir : b.mirrorsFor t.twin t.line = false)
    (hi : b.pool.inj = []) :
    x.advance u = quieted (quieted (((mergedIn x u bs m p).answerTxn u 0x40 0 [] false false).endTxn u)) := by
  have hline : u.line = t.line := by rw [h.txn]
  have htwin : u.twin = t.twin := by rw [h.txn]
  have hsame := sameLines_started h
  have hax : (served x u).huskAlive u.line = true := by
    rw [hline]
    exact (huskAlive_congr (hsame.toSameWays) (by rw [hsame.revived])).trans ha
  have hmx : (served x u).mirrorsFor u.twin u.line = false := by
    rw [hline, htwin]
    exact (mirrorsFor_congr (x := b) ((pair_of_rest h.rest (by decide))) (str_of_rest h.rest (by decide)) _ _).trans hmir
  rw [advance_served (by rw [h.txn]; exact hdata), finishTxn_wrline (x := served x u) (bs := bs) (m := m) (p := p) ((fencedTxn_started h).trans hf) (by rw [h.txn]; exact hop) hax hmx
    ((congrArg Pool.inj (pool_of_rest h.rest (by decide))).trans hi)]
  rfl

theorem answerTxn_write {b : Blk} {u : Txn} {bs : Bytes} {m : BitVec 128} {p : Bool} {src : Eid} (hop : u.op = .wrline bs m p)
    (hwho : u.who = .fabric src) (hjob : u.job = none) : b.answerTxn u 0x40 0 [] false false =
      (b.respond (homeOf u.line) 0x40 src.toNat u.msgId u.traceId (u.line * 128) 0 false false [] false 0 u.part).2 := by
  unfold Blk.answerTxn
  rw [hjob, hwho, hop]

theorem sameLines_respond (b : Blk) (q ty src msgId traceId addr status : Nat) (far replay : Bool) (payload : Bytes) (poison : Bool)
    (cls part : Nat) : SameLines b (b.respond q ty src msgId traceId addr status far replay payload poison cls part).2 :=
  sameLines_of_frame (onlyBlk_of_rest (rest_respond (L := [.regs, .fab]) (by decide) (by decide) ..)) (by decide) (by decide) (by decide)

/-- The end of a transaction whose request is answered. -/
def endedTxn (b : Blk) (u : Txn) : Blk := quieted (quieted (b.endTxn u))

theorem sameLines_endedTxn (b : Blk) (u : Txn) : SameLines b (endedTxn b u) := sameLines_coh b _

theorem busy_endedTxn {b x y : Blk} {t u : Txn} (h : Started b t x u) (hb : b.busy t.line = false) (hy : y.coh.txns = x.coh.txns) :
    (endedTxn y u).busy t.line = false := by
  have hbusy := busy_started h hb []
  unfold endedTxn quieted Blk.endTxn Blk.busy at *
  dsimp only at hbusy ⊢
  rw [hy]
  exact hbusy

/-- A write of a host without a bulk message is answered once it stands. -/
theorem started_wrline_answers {b x : Blk} {t u : Txn} {bs : Bytes} {m : BitVec 128} {p : Bool} {src : Eid} (h : Started b t x u)
    (hop : t.op = .wrline bs m p) (hwho : t.who = .fabric src) (hjob : t.job = none)
    (hdata : t.data = none) (hf : b.fencedTxn t = false) (ha : b.huskAlive t.line = true) (hmir : b.mirrorsFor t.twin t.line = false)
    (hi : b.pool.inj = []) (hlog : m = BitVec.allOnes 128 ∨ b.rings.log.ext = none) (hans : CanAnswer b t.line src.toNat)
    (hbusy : b.busy t.line = false) (s : State) :
    (x.advance u).lineVal t.line = lineAfter b t.line bs m p ∧ mget (x.advance u).coh.dir t.line = none ∧ (x.advance u).busy t.line = false ∧
      Sends { s with blk := x.advance u } (homeOf t.line) 0x40 src.toNat 0 [] := by
  obtain ⟨hval, hcoh, hrest, -, -⟩ := mergedIn_started h ha hi hlog bs p
  have hadv := started_wrline h hop hdata hf ha hmir hi
  generalize mergedIn x u bs m p = y at *
  have hline : u.line = t.line := by rw [h.txn]
  rw [answerTxn_write (by rw [h.txn]; exact hop) (by rw [h.txn]; exact hwho) (by rw [h.txn]; exact hjob), hline] at hadv
  have hs := sends_respond (hans.of_rest hrest (by decide) (by decide)) s 0x40 u.msgId u.traceId (t.line * 128) 0 false false [] false 0 u.part
  have hsame := sameLines_respond y (homeOf t.line) 0x40 src.toNat u.msgId u.traceId (t.line * 128) 0 false false [] false 0 u.part
  have hc := coh_respond y (homeOf t.line) 0x40 src.toNat u.msgId u.traceId (t.line * 128) 0 false false [] false 0 u.part
  generalize (y.respond (homeOf t.line) 0x40 src.toNat u.msgId u.traceId (t.line * 128) 0 false false [] false 0 u.part).2 = z at *
  have hgo : x.advance u = endedTxn z u := hadv
  rw [hgo]
  refine ⟨(lineVal_congr (sameLines_trans hsame (sameLines_endedTxn z u)) _).trans hval, ?_, busy_endedTxn h hbusy (by rw [hc, hcoh]),
    sends_of_fab hs rfl⟩
  show mget z.coh.dir t.line = none
  rw [hc, hcoh]
  exact mget_mdel_self ..

/-! ### Requests accepted -/

/-- The write of a line that a host asks for. -/
def hostWrite (r : Req) (c : Checked) (l : Nat) (bs : Bytes) (m : BitVec 128) (p : Bool) (job : Option Nat) : Txn :=
  newTxn l (.wrline bs m p) (.fabric r.src) r.msgId.toNat r.traceId.toNat c job

theorem reqWrLine_begins {b0 b : Blk} {r : Req} {a : Addr} {c : Checked} (hpeer : b0.isPeer r.src.toNat = false)
    (h : ReqIn b0 b r a 0xC3 [144] .write c) (ha : a.toNat % 128 = 0) (bs : Bytes) (m : BitVec 128) (p : Bool) :
    reqWrLine b0 r a.toNat bs m p =
      (b.bumpMod (lineOf a.toNat) 1).beginTxn (hostWrite r c (lineOf a.toNat) bs m p none).isCounted := by
  obtain ⟨hin, hform, hchk, hpass, hat⟩ := h
  unfold reqWrLine
  dsimp only
  rw [if_neg (by simp [hpeer]), if_neg (by simp [hin]), if_neg (by simp [hform, ha]), hchk, if_neg (by simp [hpass]), ← hat]
  rfl

theorem reqWrBulk_begins {b0 b : Blk} {r : Req} {a : Addr} {c : Checked} {n : Nat} {ls : List LineIn} (hpeer : b0.isPeer r.src.toNat = false)
    (h : ReqIn b0 b r a 0xC6 (bulkLens n) .write c) (ha : a.toNat % 128 = 0)
    (hn : n ≤ 510) (hgran : lineIn (lineOf a.toNat) + n ≤ 16384) (hls : ls.length = n) : reqWrBulk b0 r a.toNat n (bulkLens n) ls =
      (((List.range n).map (fun i => lineOf a.toNat + i)).zip ls).foldl (fun x e => x.beginTxn
        (hostWrite r c e.1 e.2.bytes (BitVec.allOnes 128) e.2.poison (some b.coh.nextJob)))
        (jobPut (b.bumpMod (lineOf a.toNat) 1) r a.toNat n true) := by
  obtain ⟨hin, hform, hchk, hpass, hat⟩ := h
  unfold reqWrBulk
  dsimp only
  rw [if_neg (by simp [hpeer]), if_neg (by simp [hin]), if_neg (by simp [hform, ha, hn, hgran, hls]), hchk, if_neg (by simp [hpass]), ← hat]
  unfold jobPut
  rw [coh_bumpMod]
  rfl

theorem str_beginTxn (b : Blk) (t : Txn) : (b.beginTxn t).str = b.str :=
  str_of_rest (rest_beginTxn (L := devRegions ++ [.hub, .pair]) (by decide) (by decide) (by decide) (by decide) (by decide) (by decide) (by decide)
    (by decide) (by decide) (by decide) (by decide) (by decide) (by decide) (by decide) b t) (by decide)

theorem str_of_reqIn {b0 b : Blk} {r : Req} {a : Addr} {ty : Nat} {lens : List Nat} {k : AKind} {c : Checked}
    (h : ReqIn b0 b r a ty lens k c) : b.str = b0.str := by
  rw [h.at_, str_of_rest (rest_accepted_quiet ..) (by decide)]
  exact str_of_rest (rest_reqIn_refusal ..) (by decide)

theorem str_bumpMod (b : Blk) (l n : Nat) : (b.bumpMod l n).str = b.str :=
  str_of_rest (rest_bumpMod (L := [.ext]) (by decide) ..) (by decide)

theorem mirrors_congr {x y : Blk} (hp : y.pair = x.pair) (hs : y.str = x.str) (l : Nat) : y.mirrors l = x.mirrors l := by
  unfold Blk.mirrors
  rw [twinned_congr hs, mirrorsFor_congr hp hs]

/-- A host's write of one line begins on a free line. -/
theorem begin_hostWrite {b : Blk} {r : Req} {l : Nat} (hfree : LineFree b l) (hg : CanGrant b l r.src.toNat) (ha : b.huskAlive l = true)
    (hmir : b.mirrors l = false) {m : BitVec 128} (hlog : m = BitVec.allOnes 128 ∨ b.rings.log.ext = none) (bs : Bytes) (p : Bool) (c : Checked)
    (s : State) :
    let z := b.beginTxn (hostWrite r c l bs m p none).isCounted
    z.lineVal l = lineAfter b l bs m p ∧ mget z.coh.dir l = none ∧ z.busy l = false ∧
      Sends { s with blk := z } (homeOf l) 0x40 r.src.toNat 0 [] := by
  generalize ht : (hostWrite r c l bs m p none).isCounted = t
  have hl : t.line = l := by rw [← ht]; rfl
  subst hl
  obtain ⟨x, u, hst, hgo⟩ := beginTxn_free hfree.idle (entryFree_of_lineFree hfree)
  have hend := started_wrline_answers (bs := bs) (m := m) (p := p) (src := r.src) hst (by rw [← ht]; rfl) (by rw [← ht]; rfl) (by rw [← ht]; rfl)
    (by rw [← ht]; rfl) (unfenced_of_twin (b := numberGiven b) (t := numbered b t) hg.unfenced) ha hmir hfree.sound hlog
    hg.toCanAnswer.numberGiven (busy_of_lineFree (b := b) hfree) s
  rw [lineAfter_congr (lineVal_congr (sameLines_numberGiven b) _)] at hend
  dsimp only
  rw [hgo]
  exact hend

/-- The last line of a bulk write has been written: the message is answered, and is there no more. -/
theorem bulkWrite_ends {y : Blk} {u : Txn} {j : Job} {id l src : Nat} (hjobs : y.coh.jobs = [(id, j)]) (hleft : j.left = [l])
    (hwho : j.who.eid = some src) (hw : j.write = true) (hst : j.status = 0) (hgot : j.bad = 0 ∧ j.got = []) (haddr : lineOf j.addr = l)
    (hujob : u.job = some id) (huline : u.line = l) (hcan : CanAnswer y l src) (s : State) :
    let z := endedTxn (y.answerTxn u 0x40 0 [] false false) u
    SameLines y z ∧ z.coh.jobs = [] ∧ Sends { s with blk := z } (homeOf l) 0x40 src 0 [] ∧ z.pool = y.pool ∧ z.rings = y.rings := by
  have hans : y.answerTxn u 0x40 0 [] false false = y.jobLine id l 0 [] false := by
    unfold Blk.answerTxn
    rw [hujob, huline]
  rw [jobLine_last (j := j) (by rw [hjobs]; simp [mget]) hleft hst,
    endJob_write (j := lastGot j l [] false) (l := l) (src := src) haddr hwho hw hst (by simp [lastGot, hgot, mput])] at hans
  have hz := (hcan.with_jobs (mput y.coh.jobs id (lastGot j l [] false))).jobTaken id
  have hsz : SameLines y (jobTaken ({ y with coh.jobs := mput y.coh.jobs id (lastGot j l [] false) } : Blk) id) := sameLines_coh y _
  have hjz : (jobTaken ({ y with coh.jobs := mput y.coh.jobs id (lastGot j l [] false) } : Blk) id).coh.jobs = [] := by
    simp [jobTaken, hjobs, mput, mdel]
  have hpz : (jobTaken ({ y with coh.jobs := mput y.coh.jobs id (lastGot j l [] false) } : Blk) id).pool = y.pool ∧
      (jobTaken ({ y with coh.jobs := mput y.coh.jobs id (lastGot j l [] false) } : Blk) id).rings = y.rings := ⟨rfl, rfl⟩
  generalize jobTaken ({ y with coh.jobs := mput y.coh.jobs id (lastGot j l [] false) } : Blk) id = v at *
  have hgoal := sends_respond hz s 0x40 (lastGot j l [] false).msgId (lastGot j l [] false).traceId (lastGot j l [] false).addr 0 false false [] false 1
    (Blk.hostPart { y with coh.jobs := mput y.coh.jobs id (lastGot j l [] false) } src)
  have hr := rest_respond (L := [.regs, .fab]) (by decide) (by decide) v (homeOf l) 0x40 src (lastGot j l [] false).msgId
    (lastGot j l [] false).traceId (lastGot j l [] false).addr 0 false false [] false 1
    (Blk.hostPart { y with coh.jobs := mput y.coh.jobs id (lastGot j l [] false) } src)
  rw [← hans] at hgoal hr
  generalize y.answerTxn u 0x40 0 [] false false = q at *
  have hsame : SameLines v q := sameLines_of_frame (onlyBlk_of_rest hr) (by decide) (by decide) (by decide)
  refine ⟨sameLines_trans hsz (sameLines_trans hsame (sameLines_endedTxn q u)), ?_, sends_of_fab hgoal rfl, ?_, ?_⟩
  · show q.coh.jobs = []
    rw [coh_of_rest hr (by decide), hjz]
  · exact (pool_of_rest hr (by decide)).trans hpz.1
  · exact (rings_of_rest hr (by decide)).trans hpz.2

/-- A bulk write of one free line stands when its message is answered, and leaves no bulk message. -/
theorem begin_bulkWrite {b : Blk} {r : Req} {a : Addr} {c : Checked} {x : LineIn} (hg : CanGrant b (lineOf a.toNat) r.src.toNat)
    (hfree : LineFree b (lineOf a.toNat)) (hjobs : b.coh.jobs = []) (ha : b.huskAlive (lineOf a.toNat) = true)
    (hmir : b.mirrors (lineOf a.toNat) = false) (hlen : x.bytes.length = 128) (s : State) :
    let z := (jobPut b r a.toNat 1 true).beginTxn
      (hostWrite r c (lineOf a.toNat) x.bytes (BitVec.allOnes 128) x.poison (some b.coh.nextJob))
    z.lineVal (lineOf a.toNat) = (if x.poison then zeros 128 else x.bytes, x.poison) ∧ z.coh.jobs = [] ∧
      Sends { s with blk := z } (homeOf (lineOf a.toNat)) 0x40 r.src.toNat 0 [] := by
  generalize ht : hostWrite r c (lineOf a.toNat) x.bytes (BitVec.allOnes 128) x.poison (some b.coh.nextJob) = t
  have hl : t.line = lineOf a.toNat := by rw [← ht]; rfl
  have hput : EntryFree (jobPut b r a.toNat 1 true) t.line := by rw [hl]; exact ⟨hfree.noEntry, hfree.room⟩
  obtain ⟨w, u, hst, hgo⟩ := beginTxn_free (t := t) (b := jobPut b r a.toNat 1 true) (by rw [hl]; exact hfree.idle) hput
  have halt : b.huskAlive t.line = true := by rw [hl]; exact ha
  obtain ⟨hval, hcoh, hrest, -, -⟩ := mergedIn_started (m := BitVec.allOnes 128) hst halt hfree.sound (.inl rfl) x.bytes x.poison
  have hadv := started_wrline (bs := x.bytes) (m := BitVec.allOnes 128) (p := x.poison) hst (by rw [← ht]; rfl)
    (by rw [← ht]; rfl) (unfenced_of_twin (b := numberGiven (jobPut b r a.toNat 1 true)) (t := numbered _ t) (by
      show (b.pair.fenced && b.twinned t.line) = false
      rw [hl]; exact hg.unfenced))
    halt (by show b.mirrors t.line = false; rw [hl]; exact hmir) hfree.sound
  generalize mergedIn w u x.bytes (BitVec.allOnes 128) x.poison = y at *
  have hnl : (numbered (jobPut b r a.toNat 1 true) t).line = lineOf a.toNat := hl
  rw [hnl] at hval hcoh
  have hsame : SameLines b (numberGiven (jobPut b r a.toNat 1 true)) := sameLines_coh b _
  have hafter : lineAfter (numberGiven (jobPut b r a.toNat 1 true)) (lineOf a.toNat) x.bytes (BitVec.allOnes 128) x.poison =
      (if x.poison then zeros 128 else x.bytes, x.poison) := by
    unfold lineAfter
    dsimp only
    rw [if_pos rfl, mergeMask_all_of_length hlen]
  rw [hafter] at hval
  have huline : u.line = lineOf a.toNat := by rw [hst.txn]; exact hl
  have hujob : u.job = some b.coh.nextJob := by rw [hst.txn, ← ht]; rfl
  have hcan : CanAnswer y (lineOf a.toNat) r.src.toNat :=
    (CanAnswer.of_rest (x := b) ⟨hg.up, hg.route⟩ (hrest.trans (rest_with_coh (L := startRegions ++ quietRegions) (by decide) b _)) (by decide)
      (by decide))
  generalize hjob : (⟨.fabric r.src, r.msgId.toNat, r.traceId.toNat, a.toNat, true, [lineOf a.toNat], [], 0, 0, true⟩ : Job) = j at *
  have hyjobs : y.coh.jobs = [(b.coh.nextJob, j)] := by
    rw [hcoh, hst.coh]
    show mput b.coh.jobs b.coh.nextJob _ = _
    rw [hjobs, ← hjob]
    rfl
  obtain ⟨hsame, hend, hs, -, -⟩ := bulkWrite_ends hyjobs (by rw [← hjob]) (src := r.src.toNat) (by rw [← hjob]; rfl) (by rw [← hjob])
    (by rw [← hjob]) (by rw [← hjob]; exact ⟨rfl, rfl⟩) (by rw [← hjob]) hujob huline hcan s
  dsimp only
  have hadv' : w.advance u = endedTxn (y.answerTxn u 0x40 0 [] false false) u := hadv
  rw [hgo, hadv']
  exact ⟨(lineVal_congr hsame _).trans hval, hend, hs⟩

/-- Settles O27: a write of a free line is merged, and then answered. -/
theorem writesOfAFreeLineStand : Obligations.WritesOfAFreeLineStand := by
  unfold Obligations.WritesOfAFreeLineStand
  refine ⟨fun s b r a bs m p c hpeer h ha hfree hal hmir hlog => ?_, fun s b r a x c hpeer h ha hfree hal hmir hjobs hlen => ?_,
    fun s b r a n ls c hpeer h ha hn hgran hls => ?_⟩
  · refine does_of_live (f := fun b => (reqWrLine b r a.toNat bs m p).afterWrite r.src.toNat) rfl (up_of_reqIn h) ?_
    rw [reqWrLine_begins hpeer h ha, afterWrite_of_not_peer ((isPeer_congr (by rw [str_beginTxn, str_bumpMod, str_of_reqIn h]) _).trans hpeer)]
    have hbump := lineFree_bumpMod hfree (lineOf a.toNat) 1
    have hg := (canGrant_of_reqIn h).bumpMod (lineOf a.toNat) 1
    have hsame := sameLines_bumpMod b (lineOf a.toNat) 1
    have hfin := begin_hostWrite (m := m) hbump hg ((huskAlive_congr hsame.toSameWays (by rw [hsame.revived])).trans hal)
      ((mirrors_congr (pair_bumpMod ..) (str_bumpMod ..) _).trans hmir) (.inr ((congrArg (fun r : Rings => r.log.ext)
        (rings_bumpMod b (lineOf a.toNat) 1)).trans hlog)) bs p c s
    rw [lineAfter_congr (lineVal_congr hsame _)] at hfin
    exact hfin
  · refine does_of_live (f := fun b => (reqWrBulk b r a.toNat 1 [128] [x]).afterWrite r.src.toNat) rfl (up_of_reqIn h) ?_
    have hgran : lineIn (lineOf a.toNat) + 1 ≤ 16384 := Nat.mod_lt _ (by decide)
    have hbegins := reqWrBulk_begins (n := 1) (ls := [x]) hpeer h ha (by decide) hgran rfl
    have hbump := lineFree_bumpMod hfree (lineOf a.toNat) 1
    have hsame := sameLines_bumpMod b (lineOf a.toNat) 1
    have hfin := begin_bulkWrite (c := c) (a := a) (x := x) ((canGrant_of_reqIn h).bumpMod (lineOf a.toNat) 1) hbump (by rw [coh_bumpMod]; exact hjobs)
      ((huskAlive_congr hsame.toSameWays (by rw [hsame.revived])).trans hal)
      ((mirrors_congr (pair_bumpMod ..) (str_bumpMod ..) _).trans hmir) hlen s
    rw [coh_bumpMod] at hfin
    have hgo : reqWrBulk s.blk r a.toNat 1 [128] [x] = (jobPut (b.bumpMod (lineOf a.toNat) 1) r a.toNat 1 true).beginTxn
        (hostWrite r c (lineOf a.toNat) x.bytes (BitVec.allOnes 128) x.poison (some b.coh.nextJob)) := hbegins
    have hstr : ((jobPut (b.bumpMod (lineOf a.toNat) 1) r a.toNat 1 true).beginTxn
        (hostWrite r c (lineOf a.toNat) x.bytes (BitVec.allOnes 128) x.poison (some b.coh.nextJob))).str = s.blk.str :=
      (str_beginTxn ..).trans ((str_bumpMod b (lineOf a.toNat) 1).trans (str_of_reqIn h))
    rw [hgo, afterWrite_of_not_peer ((isPeer_congr hstr _).trans hpeer)]
    exact hfin
  · refine does_of_live (f := fun b => (reqWrBulk b r a.toNat (n.toNat + 1) (bulkLens (n.toNat + 1)) ls).afterWrite r.src.toNat) rfl (up_of_reqIn h) ?_
    rw [reqWrBulk_begins hpeer h ha hn hgran hls]
    have hkept := keeps_foldl (fun x : Blk => (x.coh.nextJob, x.str))
      (fun x e => Prod.ext (nextJob_beginTxn x (hostWrite r c e.1 e.2.bytes (BitVec.allOnes 128) e.2.poison (some b.coh.nextJob))) (str_beginTxn x _))
      (((List.range (n.toNat + 1)).map (fun i => lineOf a.toNat + i)).zip ls) (jobPut (b.bumpMod (lineOf a.toNat) 1) r a.toNat (n.toNat + 1) true)
    obtain ⟨hjob, hstr⟩ := Prod.mk.inj hkept
    rw [afterWrite_of_not_peer ((isPeer_congr (hstr.trans ((str_bumpMod b _ _).trans (str_of_reqIn h))) _).trans hpeer)]
    refine hjob.trans ?_
    show (b.bumpMod (lineOf a.toNat) 1).coh.nextJob + 1 = _
    rw [coh_bumpMod]

end Sys2Proof.Proofs
end

/-! ## Mirror writes of the peer and write-backs (R114, R115, R342, R353, R364) -/
section
namespace Sys2Proof.Proofs

open Sys2Proof.Machine

/-! ### A standby sends nothing as it reads a line -/

/-- A controller that is a standby and has sent what it has sent. -/
def Standby (f : Fab) (b : Blk) : Prop := b.pair.role = 2 ∧ b.fab = f

theorem standby_of_rest {f : Fab} {L : List Region} {x y : Blk} (h : Standby f x) (hr : rest L y = rest L x) (hp : .pair ∉ L)
    (hf : .fab ∉ L) : Standby f y :=
  ⟨by rw [pair_of_rest hr hp]; exact h.1, (fab_of_rest hr hf).trans h.2⟩

theorem standby_foldl {α : Type} {f : Fab} {g : Blk → α → Blk} (hg : ∀ x a, Standby f x → Standby f (g x a)) (as : List α) {b : Blk}
    (h : Standby f b) : Standby f (as.foldl g b) := by
  induction as generalizing b with
  | nil => exact h
  | cons a as ih => exact ih (hg b a h)

theorem standby_mirrorPoison {f : Fab} {b : Blk} (h : Standby f b) (l : Nat) : Standby f (b.mirrorPoison l) := by
  have hoff : b.mirrors l = false := by simp [Blk.mirrors, Blk.mirrorsFor, h.1]
  unfold Blk.mirrorPoison
  rw [if_neg (by simp [hoff])]
  exact h

/-- What the reads and writes of lines and the log may reach beside the pair and the fabric. -/
def readRegions : List Region := [.dead, .pins] ++ quietRegions

theorem Standby.quiet {f : Fab} {x y : Blk} (h : Standby f x) (hr : rest readRegions y = rest readRegions x) : Standby f y :=
  standby_of_rest h hr (by decide) (by decide)

theorem standby_poisonLine {f : Fab} {b : Blk} (h : Standby f b) (l part : Nat) : Standby f (b.poisonLine l part) := by
  unfold Blk.poisonLine
  extract_lets old m stay b1 b2 cs b3
  have h1 : Standby f b1 := by
    dsimp only [b1]
    split
    · exact h.quiet ((rest_countGrain (by decide) (by decide) ..).trans (rest_putCopy (by decide) ..))
    · exact h
  have h2 : Standby f b2 := by
    dsimp only [b2]
    split
    · exact h1
    · exact h1.quiet ((rest_countHusk (by decide) (by decide) (by decide) (by decide) ..).trans (rest_putHusk (by decide) ..))
  have h3 : Standby f b3 := by
    dsimp only [b3]
    split
    · exact h2
    · exact standby_foldl (fun x c hx => hx.quiet (rest_flag (by decide) ..)) cs h2
  exact (standby_mirrorPoison h3 l).quiet (rest_log (by decide) (by decide) (by decide) (by decide) (by decide) (by decide) (by decide) ..)

theorem standby_settleUnc {f : Fab} {b : Blk} (h : Standby f b) (c line : Nat) (ks : List Nat) (part : Nat) :
    Standby f (b.settleUnc c line ks part) := by
  unfold Blk.settleUnc
  extract_lets bad b1 b2
  split
  · have h1 : Standby f b1 := by
      dsimp only [b1]
      split
      · exact standby_foldl (fun x k hx => hx.quiet (rest_copyOver (by decide) ..)) bad h
      · exact h.quiet (rest_settleRow (by decide) ..)
    refine standby_foldl (fun x k hx => ?_) bad h1
    refine hx.quiet ?_
    exact (rest_logHusk (by decide) (by decide) (by decide) (by decide) (by decide) (by decide) (by decide) ..).trans
      ((rest_huskOp (by decide) (by decide) (by decide) (by decide) ..).trans (rest_clearAt (by decide) ..))
  · refine standby_foldl (fun x l hx => standby_poisonLine hx l part) _ ?_
    exact standby_foldl (fun x k hx => hx.quiet (rest_clearAt (by decide) ..)) ks h

theorem standby_readStook {f : Fab} {b : Blk} (h : Standby f b) (c line part : Nat) : Standby f (b.readStook c line part).1 :=
  h.quiet (rest_readStook (by decide) (by decide) (by decide) (by decide) (by decide) (by decide) (by decide) ..)

theorem standby_readAt {f : Fab} {b : Blk} (h : Standby f b) (c line rank : Nat) (lanes : List Nat) (part : Nat) :
    Standby f (b.readAt c line rank lanes part).2 := by
  have hd : Standby f (b.decodeAt c line rank lanes part).2 :=
    h.quiet (rest_decodeAt (by decide) (by decide) (by decide) (by decide) (by decide) (by decide) (by decide) ..)
  unfold Blk.readAt
  dsimp only
  split
  · exact standby_settleUnc (standby_readStook hd ..) ..
  · exact hd

theorem standby_readHusk {f : Fab} {b : Blk} (h : Standby f b) (l part : Nat) : Standby f (b.readHusk l part).2 := by
  unfold Blk.readHusk
  dsimp only
  split
  · exact standby_readAt h ..
  · split
    · exact standby_readAt h ..
    · split
      · split
        · exact standby_readStook h ..
        · exact standby_settleUnc (standby_readStook h ..) ..
      · exact h

theorem standby_fetchHusk {f : Fab} {b : Blk} (h : Standby f b) (l part : Nat) : Standby f (b.fetchHusk l part).1 :=
  standby_readHusk (h.quiet (rest_countHusk (by decide) (by decide) (by decide) (by decide) ..)) l part

theorem standby_grainLost {f : Fab} {b : Blk} (h : Standby f b) (ch l part : Nat) : Standby f (b.grainLost ch l part) :=
  standby_poisonLine (h.quiet (rest_logGrain (by decide) (by decide) (by decide) (by decide) (by decide) (by decide) (by decide) ..)) l part

theorem standby_grainUnc {f : Fab} {b : Blk} (h : Standby f b) (ch line : Nat) : Standby f (b.grainUnc ch line) :=
  h.quiet (rest_grainUnc (by decide) (by decide) (by decide) (by decide) (by decide) ..)

theorem standby_reg {f : Fab} {b : Blk} (h : Standby f b) (off bit : Nat) (cnt : Nat) : Standby f ((b.incr cnt).flag off bit) :=
  h.quiet ((rest_flag (by decide) ..).trans (rest_incr (by decide) ..))

theorem standby_putCopy {f : Fab} {b : Blk} (h : Standby f b) (c : Copy) (l : Nat) (bs : Bytes) (m : LineMeta) :
    Standby f (b.putCopy c l bs m) := h.quiet (rest_putCopy (by decide) ..)

theorem standby_countGrain {f : Fab} {b : Blk} (h : Standby f b) (l code part : Nat) : Standby f (b.countGrain l code part) :=
  h.quiet (rest_countGrain (by decide) (by decide) ..)

theorem standby_countAccept {f : Fab} {b : Blk} (h : Standby f b) (q part : Nat) : Standby f (b.countAccept q part) :=
  h.quiet (rest_countAccept (by decide) (by decide) ..)

theorem standby_logGrain {f : Fab} {b : Blk} (h : Standby f b) (code l chan : Nat) (lane : Option Nat) :
    Standby f (b.logGrain code l chan lane) :=
  h.quiet (rest_logGrain (by decide) (by decide) (by decide) (by decide) (by decide) (by decide) (by decide) ..)

theorem standby_grainCorr {f : Fab} {b : Blk} (h : Standby f b) (ch line l lane : Nat) : Standby f (b.grainCorr ch line l lane) :=
  h.quiet (rest_grainCorr (by decide) (by decide) (by decide) (by decide) (by decide) (by decide) (by decide) ..)

theorem standby_readGrainCopy {f : Fab} {b : Blk} (h : Standby f b) (l : Nat) (lanes : List Nat) (part : Nat) :
    Standby f (b.readGrainCopy l lanes part).2 := by
  unfold Blk.readGrainCopy
  dsimp only
  split
  · exact h
  · dsimp only
    exact standby_grainCorr (standby_countGrain (standby_putCopy h ..) ..) ..
  · split
    · dsimp only
      exact standby_grainLost (standby_reg (standby_grainUnc h ..) ..) ..
    · split
      · dsimp only
        exact standby_grainLost (standby_grainUnc h ..) ..
      · have hread := standby_fetchHusk (standby_grainUnc h (grainPos l ((mget b.pool.frames (granOf l)).getD 0)).1
          (grainPos l ((mget b.pool.frames (granOf l)).getD 0)).2) l part
        split
        · dsimp only
          exact standby_grainLost hread ..
        · dsimp only
          exact standby_logGrain (standby_reg (standby_countGrain (standby_putCopy hread ..) ..) ..) ..

theorem standby_fetch {f : Fab} {b : Blk} (h : Standby f b) (l : Nat) : Standby f (b.fetch l).1 := by
  have hread : Standby f (lineRead b l) := by
    unfold lineRead
    split
    · exact standby_readGrainCopy (standby_countGrain h ..) ..
    · exact standby_fetchHusk h ..
  rw [fetch_eq]
  exact hread.quiet (rest_noteSlot (by decide) (by decide) (by decide) (by decide) (by decide) (by decide) (by decide) ..)

theorem standby_hubFetch {f : Fab} {b : Blk} (h : Standby f b) (l : Nat) : Standby f (b.hubFetch l).2 := by
  unfold Blk.hubFetch
  dsimp only
  split
  · exact h.quiet (rest_countRefusal (by decide) (by decide) (by decide) ..)
  · dsimp only
    exact standby_fetch (standby_countAccept h ..) l

/-- What a standby that reads its checkpoint's header then does: it may be in sync. -/
theorem syncCheck_cases (b : Blk) : b.syncCheck = b ∨ (b.pair.role = 2 ∧ b.pair.heard = true ∧
    (b.syncCheck = (b.hubFetch (lineOf b.ckptBase)).2 ∨
      b.syncCheck = { (b.hubFetch (lineOf b.ckptBase)).2 with pair.inSync := true }.setPairPins)) := by
  unfold Blk.syncCheck
  split
  · next h =>
    simp only [Bool.and_eq_true, decide_eq_true_eq] at h
    refine .inr ⟨h.1.1.1.1, h.1.2, ?_⟩
    dsimp only
    split
    · exact .inr rfl
    · exact .inl rfl
  · exact .inl rfl

theorem fab_setPairPins (b : Blk) : b.setPairPins.fab = b.fab := by
  unfold Blk.setPairPins
  split <;> rfl

theorem fab_syncCheck (b : Blk) : b.syncCheck.fab = b.fab := by
  obtain h | ⟨hrole, -, hread⟩ := syncCheck_cases b
  · rw [h]
  · have hkept : (b.hubFetch (lineOf b.ckptBase)).2.fab = b.fab := (standby_hubFetch (f := b.fab) ⟨hrole, rfl⟩ _).2
    obtain h | h := hread
    · rw [h, hkept]
    · rw [h, fab_setPairPins]
      exact hkept

theorem syncCheck_of_unheard {b : Blk} (h : b.pair.heard = false) : b.syncCheck = b := by
  obtain h' | ⟨-, hheard, -⟩ := syncCheck_cases b
  · exact h'
  · rw [h] at hheard
    cases hheard

theorem sends_syncCheck {s : State} {x : Blk} {q ty dst status : Nat} {payload : Bytes} (h : Sends { s with blk := x } q ty dst status payload) :
    Sends { s with blk := x.syncCheck } q ty dst status payload :=
  sends_of_fab (s := s) h (fab_syncCheck x)

theorem sameLines_setPairPins (b : Blk) : SameLines b b.setPairPins :=
  sameLines_of_frame (onlyBlk_of_rest (L := [.pair]) (by
    unfold Blk.setPairPins
    split
    · rfl
    · exact rest_with_pair (by decide) ..)) (by decide) (by decide) (by decide)

theorem sameLines_hubFetch {b : Blk} (hi : b.pool.inj = []) (hlog : b.rings.log.ext = none) (l : Nat) : SameLines b (b.hubFetch l).2 := by
  unfold Blk.hubFetch
  dsimp only
  split
  · exact sameLines_of_frame (onlyBlk_of_rest (L := [.regs, .aon, .pcs]) (rest_countRefusal (by decide) (by decide) (by decide) ..)) (by decide)
      (by decide) (by decide)
  · have hc := rest_countAccept (L := [.aon, .pcs]) (by decide) (by decide) b (homeOf l) (b.checkHome .dev .read l).part
    generalize b.countAccept (homeOf l) (b.checkHome .dev .read l).part = x at hc ⊢
    refine sameLines_trans (sameLines_of_frame (onlyBlk_of_rest hc) (by decide) (by decide) (by decide)) (sameLines_fetch ?_ ?_ l)
    · rw [pool_of_rest hc (by decide)]
      exact hi
    · rw [rings_of_rest hc (by decide)]
      exact hlog

theorem sameLines_syncCheck {b : Blk} (hi : b.pool.inj = []) (hlog : b.rings.log.ext = none) : SameLines b b.syncCheck := by
  have hread := sameLines_hubFetch hi hlog (lineOf b.ckptBase)
  obtain h | ⟨-, -, h | h⟩ := syncCheck_cases b
  · rw [h]
    exact sameLines_refl b
  · rw [h]
    exact hread
  · rw [h]
    refine sameLines_trans (sameLines_trans hread ?_) (sameLines_setPairPins _)
    exact sameLines_of_frame (onlyBlk_of_rest (L := [.pair]) (rest_with_pair (by decide) ..)) (by decide) (by decide) (by decide)

/-! ### The peer's write of a line -/

theorem finishTxn_mirrorWr {x : Blk} {u : Txn} {bs : Bytes} {m : BitVec 128} {p : Bool}
    (hop : u.op = .mirrorWr bs m p) (ha : x.huskAlive u.line = true) :
    x.finishTxn u = quieted ((((lineMerged (entryFreed (served x u) u.line) u.line bs m p u.wb).noteHeader u.line).answerTxn u 0x40 0 [] false
      false).endTxn u) := by
  have hf' : (served x u).fencedTxn u = false := by simp [Blk.fencedTxn, hop]
  have hal : (entryFreed (served x u) u.line).huskAlive u.line = true := ha
  unfold Blk.finishTxn
  rw [serve_eq]
  refine congrArg quieted ?_
  generalize served x u = y at hf' hal ⊢
  dsimp only
  rw [if_neg (by rw [hf']; decide), hop]
  unfold lineMerged entryFreed at *
  dsimp only
  rw [if_neg (by rw [hal]; decide)]

theorem rest_noteHeader_pair (b : Blk) (l : Nat) : rest [.pair] (b.noteHeader l) = rest [.pair] b := by
  unfold Blk.noteHeader
  split
  · exact rest_with_pair (by decide) ..
  · rfl

theorem started_mirrorWr {b x : Blk} {t u : Txn} {bs : Bytes} {m : BitVec 128} {p : Bool} (h : Started b t x u) (hop : t.op = .mirrorWr bs m p)
    (hdata : t.data = none) (ha : b.huskAlive t.line = true) :
    x.advance u = endedTxn (((mergedIn x u bs m p).noteHeader u.line).answerTxn u 0x40 0 [] false false) u := by
  have hline : u.line = t.line := by rw [h.txn]
  have hsame := sameLines_started h
  have hax : (served x u).huskAlive u.line = true := by
    rw [hline]
    exact (huskAlive_congr (hsame.toSameWays) (by rw [hsame.revived])).trans ha
  rw [advance_served (by rw [h.txn]; exact hdata),
    finishTxn_mirrorWr (x := served x u) (bs := bs) (m := m) (p := p) (by rw [h.txn]; exact hop) hax]
  rfl

/-- The peer's write of a line. -/
def peerWrite (b : Blk) (r : Req) (l : Nat) (bs : Bytes) (m : BitVec 128) (p : Bool) (job : Nat) : Txn :=
  newTxn l (.mirrorWr bs m p) (.fabric r.src) r.msgId.toNat r.traceId.toNat ⟨0, true, b.partOf l, 0⟩ (some job)

/-- The block in which a mirror write of one line has its entry in the table. -/
def mirrorPut (b : Blk) (r : Req) (addr : Nat) : Blk :=
  { b with
    coh.nextJob := b.coh.nextJob + 1
    coh.jobs := mput b.coh.jobs b.coh.nextJob ⟨.fabric r.src, r.msgId.toNat, r.traceId.toNat, addr, true, [lineOf addr], [], 0, 0, false⟩ }

/-- A mirror write is one that every check of R235 and R291 lets in. -/
theorem reqIn_ls {b : Blk} {q src ty : Nat} {lens : List Nat} (hup : b.dead = false) (hl : b.str.loaded = true) (hc : b.closing = false)
    (hroute : mhas (b.view (.router (Fin.ofNat 4 q))).eids src = true) (hty : tcOf ty = 0) : (b.reqIn q src ty lens false).1 = true := by
  unfold Blk.reqIn
  dsimp only
  rw [if_neg (by simp [hup, hl, hc]), if_neg (by rw [hroute]; decide), hty]
  rfl

theorem partOf_congr {x y : Blk} (h : y.str = x.str) (l : Nat) : y.partOf l = x.partOf l := by
  unfold Blk.partOf
  rw [h]

/-- A mirror write of one line in a mirrored extent is accepted. -/
theorem reqMirror_begins {b0 : Blk} {r : Req} {a : Addr} {e : Nat × ExtEnt} {x : LineIn}
    (hin : (b0.reqIn (homeOf (lineOf a.toNat)) r.src.toNat 0xC3 [144] false).1 = true) (hform : r.reservedSet = false) (ha : a.toNat % 128 = 0)
    (hrun : b0.pwr.holding = false) (hext : (b0.view (.home (Fin.ofNat 4 (homeOf (lineOf a.toNat))))).extAt (granOf (lineOf a.toNat)) = some e)
    (hm : e.2.mirror = true) (m : BitVec 128) {y b : Blk} (hy : y = (b0.reqIn (homeOf (lineOf a.toNat)) r.src.toNat 0xC3 [144] false).2)
    (hb : b = y.accepted (lineOf a.toNat) r.src.toNat 0xC3 r.msgId.toNat r.traceId.toNat a.toNat (b0.partOf (lineOf a.toNat))) :
    reqMirror b0 0xC3 [144] r a.toNat m [x] =
      (mirrorPut b r a.toNat).beginTxn (peerWrite b r (lineOf a.toNat) x.bytes m x.poison b.coh.nextJob) := by
  have hr := rest_reqIn_refusal b0 (homeOf (lineOf a.toNat)) r.src.toNat 0xC3 [144] false
  rw [← hy] at hr
  have hstr := str_of_rest hr (by decide)
  have hacc : rest quietRegions b = rest quietRegions y := by rw [hb]; exact rest_accepted_quiet ..
  have hbad : (r.reservedSet || decide (a.toNat % 128 ≠ 0) || decide (16384 < lineIn (lineOf a.toNat) + 1)) = false := by
    have hgran : lineIn (lineOf a.toNat) < 16384 := Nat.mod_lt _ (by decide)
    simp [hform, ha, hgran]
  unfold reqMirror
  dsimp only
  rw [if_neg (by simp [hin]), ← hy, view_congr hstr, hext, partOf_congr hstr, ← hb, ← coh_of_rest hacc (by decide)]
  have hhold : y.pwr.holding = false := by rw [pwr_of_rest hr (by decide)]; exact hrun
  have hlen : [x].length = 1 := rfl
  obtain ⟨i, e⟩ := e
  have hm' : e.mirror = true := hm
  dsimp only
  rw [hlen, hbad, hhold, if_neg (by decide), if_neg (by simp [hm'])]
  unfold peerWrite
  rw [partOf_congr ((str_of_rest hacc (by decide)).trans hstr)]
  rfl

/-- A mirror write of one free line stands when it is answered. -/
theorem begin_mirrorWrite {b : Blk} {r : Req} {a : Addr} {x : LineIn} {m : BitVec 128} (hcan : CanAnswer b (lineOf a.toNat) r.src.toNat)
    (hfree : LineFree b (lineOf a.toNat)) (hjobs : b.coh.jobs = []) (ha : b.huskAlive (lineOf a.toNat) = true)
    (hlog : b.rings.log.ext = none) (s : State) :
    let z := (mirrorPut b r a.toNat).beginTxn (peerWrite b r (lineOf a.toNat) x.bytes m x.poison b.coh.nextJob)
    z.lineVal (lineOf a.toNat) = lineAfter b (lineOf a.toNat) x.bytes m x.poison ∧
      Sends { s with blk := z } (homeOf (lineOf a.toNat)) 0x40 r.src.toNat 0 [] ∧ z.pool.inj = [] ∧ z.rings.log.ext = none := by
  generalize ht : peerWrite b r (lineOf a.toNat) x.bytes m x.poison b.coh.nextJob = t
  have hl : t.line = lineOf a.toNat := by rw [← ht]; rfl
  have hput : EntryFree (mirrorPut b r a.toNat) t.line := by rw [hl]; exact ⟨hfree.noEntry, hfree.room⟩
  obtain ⟨w, u, hst, hgo⟩ := beginTxn_free (t := t) (b := mirrorPut b r a.toNat) (by rw [hl]; exact hfree.idle) hput
  have halt : b.huskAlive t.line = true := by rw [hl]; exact ha
  obtain ⟨hval, hcoh, hrest, hinj, hext⟩ := mergedIn_started (m := m) hst halt hfree.sound (.inr hlog) x.bytes x.poison
  have hadv := started_mirrorWr (bs := x.bytes) (m := m) (p := x.poison) hst (by rw [← ht]; rfl) (by rw [← ht]; rfl) halt
  have hnote := rest_noteHeader_pair (mergedIn w u x.bytes m x.poison) u.line
  generalize mergedIn w u x.bytes m x.poison = y at *
  have hnl : (numbered (mirrorPut b r a.toNat) t).line = lineOf a.toNat := hl
  rw [hnl] at hval hcoh
  have hsame : SameLines b (numberGiven (mirrorPut b r a.toNat)) := sameLines_coh b _
  rw [lineAfter_congr (lineVal_congr hsame _)] at hval
  have huline : u.line = lineOf a.toNat := by rw [hst.txn]; exact hl
  have hujob : u.job = some b.coh.nextJob := by rw [hst.txn, ← ht]; rfl
  have hcany : CanAnswer y (lineOf a.toNat) r.src.toNat :=
    hcan.of_rest (hrest.trans (rest_with_coh (L := startRegions ++ quietRegions) (by decide) b _)) (by decide) (by decide)
  have hcanz := hcany.of_rest hnote (by decide) (by decide)
  generalize hjob : (⟨.fabric r.src, r.msgId.toNat, r.traceId.toNat, a.toNat, true, [lineOf a.toNat], [], 0, 0, false⟩ : Job) = j at *
  have hyjobs : (y.noteHeader u.line).coh.jobs = [(b.coh.nextJob, j)] := by
    rw [coh_of_rest hnote (by decide), hcoh, hst.coh]
    show mput b.coh.jobs b.coh.nextJob _ = _
    rw [hjobs, ← hjob]
    rfl
  have hsy : SameLines y (y.noteHeader u.line) := sameLines_of_frame (onlyBlk_of_rest hnote) (by decide) (by decide) (by decide)
  have hpy := pool_of_rest hnote (by decide)
  have hry := rings_of_rest hnote (by decide)
  generalize y.noteHeader u.line = v at *
  obtain ⟨hsame', -, hs, hpool, hrings⟩ := bulkWrite_ends hyjobs (by rw [← hjob]) (src := r.src.toNat) (by rw [← hjob]; rfl) (by rw [← hjob])
    (by rw [← hjob]) (by rw [← hjob]; exact ⟨rfl, rfl⟩) (by rw [← hjob]) hujob huline hcanz s
  dsimp only
  rw [hgo, hadv]
  refine ⟨(lineVal_congr (sameLines_trans hsy hsame') _).trans hval, hs, by rw [hpool, hpy, hinj], ?_⟩
  rw [hrings, hry, hext]
  exact hlog

/-- A mirror write outside the mirrored extents is refused. -/
theorem reqMirror_outside {b0 : Blk} {r : Req} {a : Addr} {x : LineIn}
    (hin : (b0.reqIn (homeOf (lineOf a.toNat)) r.src.toNat 0xC3 [144] false).1 = true) (hform : r.reservedSet = false) (ha : a.toNat % 128 = 0)
    (hrun : b0.pwr.holding = false)
    (hext : ∀ e, (b0.view (.home (Fin.ofNat 4 (homeOf (lineOf a.toNat))))).extAt (granOf (lineOf a.toNat)) = some e → e.2.mirror = false)
    (m : BitVec 128) : reqMirror b0 0xC3 [144] r a.toNat m [x] =
      (b0.reqIn (homeOf (lineOf a.toNat)) r.src.toNat 0xC3 [144] false).2.refuse (homeOf (lineOf a.toNat)) r.src.toNat r.msgId.toNat
        r.traceId.toNat a.toNat 0x12 0 := by
  have hr := rest_reqIn_refusal b0 (homeOf (lineOf a.toNat)) r.src.toNat 0xC3 [144] false
  have hbad : (r.reservedSet || decide (a.toNat % 128 ≠ 0) || decide (16384 < lineIn (lineOf a.toNat) + 1)) = false := by
    have hgran : lineIn (lineOf a.toNat) < 16384 := Nat.mod_lt _ (by decide)
    simp [hform, ha, hgran]
  unfold reqMirror
  dsimp only
  rw [if_neg (by simp [hin])]
  generalize (b0.reqIn (homeOf (lineOf a.toNat)) r.src.toNat 0xC3 [144] false).2 = y at hr ⊢
  have hhold : y.pwr.holding = false := by rw [pwr_of_rest hr (by decide)]; exact hrun
  have hlen : [x].length = 1 := rfl
  rw [hlen, hbad, hhold, if_neg (by decide), view_congr (str_of_rest hr (by decide))]
  cases hx : (b0.view (.home (Fin.ofNat 4 (homeOf (lineOf a.toNat))))).extAt (granOf (lineOf a.toNat)) with
  | none => rfl
  | some e =>
    obtain ⟨i, e⟩ := e
    have hm : e.mirror = false := hext _ hx
    dsimp only
    rw [if_pos (by simp [hm])]
    rfl

/-! ### Write-backs -/

theorem ownerOf_congr {x y : Blk} (h : y.coh = x.coh) (l : Nat) : y.ownerOf l = x.ownerOf l := by
  unfold Blk.ownerOf Blk.agentAt
  rw [h]

/-- A write-back on a line that no transaction serves is taken by its own row where its sender owns the line. -/
theorem reqWrBack_idle {b : Blk} {r : Req} {a : Addr} (hup : b.dead = false) (hl : b.str.loaded = true) (hform : r.reservedSet = false)
    (ha : a.toNat % 128 = 0) (hbusy : b.busy (lineOf a.toNat) = false) (bs : Bytes) (p : Bool) {y : Blk}
    (hy : y = b.rspIn r.src.toNat 128) : reqWrBack b r a.toNat bs p =
      if (y.pair.gap && y.pair.sweep.any (fun e => e.1 == r.src.toNat) && ((y.str.run.extAt (granOf (lineOf a.toNat))).map (·.2.mirror)).getD false ||
        decide (y.ownerOf (lineOf a.toNat) = some r.src.toNat) && !y.deadAt (homeOf (lineOf a.toNat)) r.src.toNat || false) = true then
        (y.traceRx (homeOf (lineOf a.toNat)) r.src.toNat 0x04 r.msgId.toNat r.traceId.toNat a.toNat).takeWrBack r a.toNat bs p
      else (y.flag (Reg.haCohErr (homeOf (lineOf a.toNat))) 3).log 0x05 (28 + homeOf (lineOf a.toNat)) (y.partOf (lineOf a.toNat)) a.toNat
        r.src.toNat := by
  have hnone : y.coh.txns.find? (fun t => t.line == lineOf a.toNat && t.snoops.any (fun s => s.eid == r.src.toNat)) = none := by
    rw [hy, Blk.rspIn, coh_of_rest (rest_chargeShaper (L := [.traf]) (by decide) b r.src.toNat 0 [128]) (by decide)]
    unfold Blk.busy at hbusy
    simp only [List.any_eq_false, List.find?_eq_none, Bool.and_eq_true, not_and] at hbusy ⊢
    exact fun t ht hline => absurd hline (hbusy t ht)
  unfold reqWrBack
  dsimp only
  rw [if_neg (by simp [hup, hl]), if_neg (by simp [hform, ha]), ← hy, hnone]

theorem reqWrBack_taken {b : Blk} {r : Req} {a : Addr} (hup : b.dead = false) (hl : b.str.loaded = true) (hform : r.reservedSet = false)
    (ha : a.toNat % 128 = 0) (hbusy : b.busy (lineOf a.toNat) = false) (hown : b.ownerOf (lineOf a.toNat) = some r.src.toNat)
    (hlive : b.deadAt (homeOf (lineOf a.toNat)) r.src.toNat = false) (bs : Bytes) (p : Bool) : reqWrBack b r a.toNat bs p =
      ((b.rspIn r.src.toNat 128).traceRx (homeOf (lineOf a.toNat)) r.src.toNat 0x04 r.msgId.toNat r.traceId.toNat a.toNat).takeWrBack r a.toNat
        bs p := by
  have hr := rest_rspIn (L := [.traf]) (by decide) b r.src.toNat 128
  rw [reqWrBack_idle hup hl hform ha hbusy bs p rfl, if_pos]
  rw [ownerOf_congr (coh_of_rest hr (by decide)), hown,
    deadAt_congr (x := b) (by rw [coh_of_rest hr (by decide)]) (by rw [ext_of_rest hr (by decide)]), hlive]
  simp

theorem reqWrBack_stray {b : Blk} {r : Req} {a : Addr} (hup : b.dead = false) (hl : b.str.loaded = true) (hform : r.reservedSet = false)
    (ha : a.toNat % 128 = 0) (hbusy : b.busy (lineOf a.toNat) = false) (hown : b.ownerOf (lineOf a.toNat) ≠ some r.src.toNat)
    (hgap : b.pair.gap = false) (bs : Bytes) (p : Bool) : reqWrBack b r a.toNat bs p =
      ((b.rspIn r.src.toNat 128).flag (Reg.haCohErr (homeOf (lineOf a.toNat))) 3).log 0x05 (28 + homeOf (lineOf a.toNat))
        ((b.rspIn r.src.toNat 128).partOf (lineOf a.toNat)) a.toNat r.src.toNat := by
  have hr := rest_rspIn (L := [.traf]) (by decide) b r.src.toNat 128
  rw [reqWrBack_idle hup hl hform ha hbusy bs p rfl, if_neg]
  rw [ownerOf_congr (coh_of_rest hr (by decide)), pair_of_rest hr (by decide), hgap]
  simp [hown]

/-- A write-back of an owner that reaches Husk storage stands, frees its entry, and is answered. -/
theorem takeWrBack_stands {b : Blk} {r : Req} {a : Addr} (hcan : CanAnswer b (lineOf a.toNat) r.src.toNat)
    (ha : b.huskAlive (lineOf a.toNat) = true) (hmir : b.mirrors (lineOf a.toNat) = false) {bs : Bytes} (hlen : bs.length = 128) (p : Bool)
    (s : State) :
    let z := b.takeWrBack r a.toNat bs p
    z.lineVal (lineOf a.toNat) = (if p then zeros 128 else bs, p) ∧ mget z.coh.dir (lineOf a.toNat) = none ∧
      Sends { s with blk := z } (homeOf (lineOf a.toNat)) 0x40 r.src.toNat 0 [] := by
  have hr := rest_writeLine (L := lineOpRegions) (by decide) (by decide) (by decide) (by decide) b (lineOf a.toNat) bs p (b.lineWb (lineOf a.toNat))
  have hs := source_of_huskAlive ha
  have hval := (wrote_writeLine (b := b) (l := lineOf a.toNat) bs p (b.lineWb (lineOf a.toNat)) hs).lineVal hs (.inr rfl)
  rw [fit_of_length hlen] at hval
  have hgo : b.takeWrBack r a.toNat bs p = (Blk.cmpWrBack ({ b.writeLine (lineOf a.toNat) bs p with coh.dir := mdel b.coh.dir (lineOf a.toNat) } : Blk)
      r a.toNat 0) := by
    unfold Blk.takeWrBack
    dsimp only
    rw [if_pos ha, if_neg (by simp [ha]), if_neg]
    have hm : ({ b.writeLine (lineOf a.toNat) bs p with coh.dir := mdel b.coh.dir (lineOf a.toNat) } : Blk).mirrors (lineOf a.toNat) = false :=
      (mirrors_congr (x := b) (pair_of_rest hr (by decide)) (str_of_rest hr (by decide)) _).trans hmir
    rw [hm]
    decide
  rw [hgo]
  have hy : CanAnswer ({ b.writeLine (lineOf a.toNat) bs p with coh.dir := mdel b.coh.dir (lineOf a.toNat) } : Blk) (lineOf a.toNat)
      r.src.toNat := have h := hcan.of_rest hr (by decide) (by decide); ⟨h.up, h.route⟩
  have hsame : SameLines (b.writeLine (lineOf a.toNat) bs p)
      ({ b.writeLine (lineOf a.toNat) bs p with coh.dir := mdel b.coh.dir (lineOf a.toNat) } : Blk) := sameLines_coh _ _
  have hdir : mget ({ b.writeLine (lineOf a.toNat) bs p with coh.dir := mdel b.coh.dir (lineOf a.toNat) } : Blk).coh.dir (lineOf a.toNat) = none :=
    mget_mdel_self ..
  generalize ({ b.writeLine (lineOf a.toNat) bs p with coh.dir := mdel b.coh.dir (lineOf a.toNat) } : Blk) = y at *
  unfold Blk.cmpWrBack
  refine ⟨(lineVal_congr (sameLines_trans hsame (sameLines_respond ..)) _).trans hval, ?_, sends_respond hy s ..⟩
  rw [coh_respond]
  exact hdir

/-- An answer that has a route reaches the fabric alone. -/
theorem rest_respond_routed {b : Blk} {l src : Nat} (h : CanAnswer b l src) (ty msgId traceId addr status : Nat) (far replay : Bool)
    (payload : Bytes) (poison : Bool) (cls part : Nat) :
    rest [.fab] (b.respond (homeOf l) ty src msgId traceId addr status far replay payload poison cls part).2 = rest [.fab] b := by
  unfold Blk.respond
  have hn := rest_noteLoad (L := [.fab]) (by decide) b src (b.loadOf (homeOf l) src cls)
  have hy : CanAnswer (b.noteLoad src (b.loadOf (homeOf l) src cls)) l src := ⟨h.up, h.route⟩
  dsimp only
  generalize b.noteLoad src (b.loadOf (homeOf l) src cls) = y at *
  unfold Blk.send
  rw [if_neg (by simp [hy.up])]
  dsimp only
  rw [if_neg (by rw [hy.route]; decide)]
  refine Eq.trans ?_ hn
  exact (rest_with_fab (L := [.fab]) (by decide) ..).trans (rest_newMsgId (by decide) ..)

/-- One to a line without Husk storage is refused. -/
theorem takeWrBack_refused {b : Blk} {r : Req} {a : Addr} (hcan : CanAnswer b (lineOf a.toNat) r.src.toNat)
    (ha : b.huskAlive (lineOf a.toNat) = false) (bs : Bytes) (p : Bool) (s : State) :
    let z := b.takeWrBack r a.toNat bs p
    z.pool = b.pool ∧ mget z.coh.dir (lineOf a.toNat) = none ∧
      (z.reg (Reg.haRefuseCnt (homeOf (lineOf a.toNat)))).toNat = min ((b.reg (Reg.haRefuseCnt (homeOf (lineOf a.toNat)))).toNat + 1) 0xFFFFFFFF ∧
      Sends { s with blk := z } (homeOf (lineOf a.toNat)) 0x40 r.src.toNat 0x91 [] := by
  have hgo : b.takeWrBack r a.toNat bs p =
      ((entryFreed b (lineOf a.toNat)).countRefusal (homeOf (lineOf a.toNat)) 0x91 (b.partOf (lineOf a.toNat))).cmpWrBack r a.toNat 0x91 := by
    unfold Blk.takeWrBack entryFreed
    dsimp only
    rw [if_neg (c := b.huskAlive (lineOf a.toNat) = true) (by simp [ha]), if_pos (c := (!b.huskAlive (lineOf a.toNat)) = true) (by simp [ha])]
  have hcount : ((entryFreed b (lineOf a.toNat)).countRefusal (homeOf (lineOf a.toNat)) 0x91 (b.partOf (lineOf a.toNat))) =
      (((entryFreed b (lineOf a.toNat)).incr (Reg.haRefuseCnt (homeOf (lineOf a.toNat)))).aonAdd (152 + homeOf (lineOf a.toNat)) 1).event
        (28 + homeOf (lineOf a.toNat)) 2 (some (b.partOf (lineOf a.toNat))) := rfl
  have hreg : (((entryFreed b (lineOf a.toNat)).countRefusal (homeOf (lineOf a.toNat)) 0x91 (b.partOf (lineOf a.toNat))).reg
      (Reg.haRefuseCnt (homeOf (lineOf a.toNat)))).toNat = min ((b.reg (Reg.haRefuseCnt (homeOf (lineOf a.toNat)))).toNat + 1) 0xFFFFFFFF := by
    rw [hcount]
    refine Eq.trans (congrArg BitVec.toNat (reg_congr ?_ _)) (toNat_reg_incr (entryFreed b (lineOf a.toNat)) _)
    exact (regs_of_rest (L := [.aon, .pcs]) ((rest_event (by decide) ..).trans (rest_aonAdd (by decide) ..)) (by decide))
  have hr := rest_countRefusal (L := [.regs, .aon, .pcs]) (by decide) (by decide) (by decide) (entryFreed b (lineOf a.toNat))
    (homeOf (lineOf a.toNat)) 0x91 (b.partOf (lineOf a.toNat))
  dsimp only
  rw [hgo]
  generalize (entryFreed b (lineOf a.toNat)).countRefusal (homeOf (lineOf a.toNat)) 0x91 (b.partOf (lineOf a.toNat)) = y at *
  have hy : CanAnswer y (lineOf a.toNat) r.src.toNat :=
    (CanAnswer.of_rest (x := entryFreed b (lineOf a.toNat)) ⟨hcan.up, hcan.route⟩ hr (by decide) (by decide))
  have hsend := sends_respond hy s 0x40 r.msgId.toNat r.traceId.toNat a.toNat 0x91 false false [] false 0 (y.partOf (lineOf a.toNat))
  have hfab : (y.respond (homeOf (lineOf a.toNat)) 0x40 r.src.toNat r.msgId.toNat r.traceId.toNat a.toNat 0x91 false false [] false 0
      (y.partOf (lineOf a.toNat))).2 = y.cmpWrBack r a.toNat 0x91 := rfl
  have hrest := rest_respond_routed hy 0x40 r.msgId.toNat r.traceId.toNat a.toNat 0x91 false false [] false 0 (y.partOf (lineOf a.toNat))
  rw [hfab] at hsend hrest
  refine ⟨(pool_of_rest hrest (by decide)).trans ((pool_of_rest hr (by decide)).trans rfl), ?_, ?_, hsend⟩
  · rw [coh_of_rest hrest (by decide), coh_of_rest hr (by decide)]
    exact mget_mdel_self ..
  · rw [reg_congr (regs_of_rest hrest (by decide)) _]
    exact hreg

theorem rest_traceRx_rspIn (b : Blk) (q src len ty msgId traceId addr : Nat) :
    rest (.traf :: quietRegions) ((b.rspIn src len).traceRx q src ty msgId traceId addr) = rest (.traf :: quietRegions) b :=
  (rest_traceRx (by decide) (by decide) (by decide) (by decide) (by decide) (by decide) (by decide) ..).trans (rest_rspIn (by decide) ..)

theorem quietBit_haCohErr (q i : Nat) : QuietBit (Reg.haCohErr q) i where
  refuse k _ := by simp only [Reg.haCohErr, Reg.haRefuseCnt]; omega
  retry := by simp only [Reg.haCohErr, Reg.hubRetryCnt]; omega
  lossCnt := by simp only [Reg.haCohErr, Reg.obsTraceLossCnt]; omega
  revoked k _ := .inl (by simp only [Reg.haCohErr, Reg.haErr]; omega)
  hold := .inl (by simp only [Reg.haCohErr, Reg.pwrErr]; omega)
  logLost := .inl (by simp only [Reg.haCohErr, Reg.obsErr]; omega)
  traceLost := .inl (by simp only [Reg.haCohErr, Reg.obsErr]; omega)

/-- A write-back of an agent that does not own the line is flagged, and changes nothing else. -/
theorem stray_flagged (b : Blk) (r : Req) (a : Addr) (s : State) (hs : s.blk = b) :
    let z := ((b.rspIn r.src.toNat 128).flag (Reg.haCohErr (homeOf (lineOf a.toNat))) 3).log 0x05 (28 + homeOf (lineOf a.toNat))
        ((b.rspIn r.src.toNat 128).partOf (lineOf a.toNat)) a.toNat r.src.toNat
    z.coh = b.coh ∧ Only (.traf :: quietRegions) s { s with blk := z } ∧
      (z.reg (Reg.haCohErr (homeOf (lineOf a.toNat)))).getLsbD 3 = true := by
  have hquiet := quietBit_haCohErr (homeOf (lineOf a.toNat)) 3
  have hrest : rest (.traf :: quietRegions) (((b.rspIn r.src.toNat 128).flag (Reg.haCohErr (homeOf (lineOf a.toNat))) 3).log 0x05
      (28 + homeOf (lineOf a.toNat)) ((b.rspIn r.src.toNat 128).partOf (lineOf a.toNat)) a.toNat r.src.toNat) = rest (.traf :: quietRegions) b :=
    (rest_log (by decide) (by decide) (by decide) (by decide) (by decide) (by decide) (by decide) ..).trans
      ((rest_flag (by decide) ..).trans (rest_rspIn (by decide) ..))
  refine ⟨coh_of_rest hrest (by decide), only_of_blk (by rw [hs]; exact onlyBlk_of_rest hrest), ?_⟩
  exact (qbit_log hquiet ..).trans (bit_reg_flag _ _ _ (by decide))

/-- Settles O28: mirror writes and write-backs go their ways by the line's extent, its owner and its storage. -/
theorem mirrorWritesAndWriteBacksAreTaken : Obligations.MirrorWritesAndWriteBacksAreTaken := by
  unfold Obligations.MirrorWritesAndWriteBacksAreTaken
  refine ⟨?_, ?_, ?_, fun s r a bs p hup hl hform ha hbusy hown hgap => ?_, ?_⟩
  · intro s r a m x e hup hl hc hroute hform ha hrun hext hm y b hfree hal hjobs hlog
    refine does_of_live (f := fun b => (reqMirror b 0xC3 [144] r a.toNat m [x]).syncCheck) rfl hup ?_
    have hin := reqIn_ls (ty := 0xC3) (lens := [144]) hup hl hc hroute rfl
    have hcan : CanAnswer b (lineOf a.toNat) r.src.toNat :=
      (canAnswer_of_enters hin rfl).of_rest (rest_accepted_quiet ..) (by decide) (by decide)
    rw [reqMirror_begins hin hform ha hrun hext hm m rfl rfl]
    obtain ⟨hval, hs, hinj, hext⟩ := begin_mirrorWrite (x := x) (m := m) hcan hfree hjobs hal hlog s
    exact ⟨(lineVal_congr (sameLines_syncCheck hinj hext) _).trans hval, sends_syncCheck hs⟩
  · intro s r a m x hup hl hc hroute hform ha hrun hext
    refine does_of_live (f := fun b => (reqMirror b 0xC3 [144] r a.toNat m [x]).syncCheck) rfl hup ?_
    have hin := reqIn_ls (ty := 0xC3) (lens := [144]) hup hl hc hroute rfl
    obtain ⟨hrest, hs⟩ := refuse_answers hin s r.msgId.toNat r.traceId.toNat a.toNat 0x12 0
    rw [reqMirror_outside hin hform ha hrun hext m]
    refine ⟨fun hheard => ?_, sends_syncCheck hs⟩
    rw [syncCheck_of_unheard (by rw [pair_of_rest hrest (by decide)]; exact hheard)]
    exact only_of_blk (onlyBlk_mono (by decide) (onlyBlk_of_rest hrest))
  · intro s r a bs p hup hl hform ha hbusy hown hlive b hmir hal hlen hroute
    refine does_of_live (f := fun b => reqWrBack b r a.toNat bs p) rfl hup ?_
    rw [reqWrBack_taken hup hl hform ha hbusy hown hlive]
    exact takeWrBack_stands ((CanAnswer.of_rest (x := s.blk) ⟨hup, hroute⟩ (rest_traceRx_rspIn ..) (by decide) (by decide))) hal hmir hlen p s
  · refine does_of_live (f := fun b => reqWrBack b r a.toNat bs p) rfl hup ?_
    rw [reqWrBack_stray hup hl hform ha hbusy hown hgap]
    exact stray_flagged s.blk r a s rfl
  · intro s r a bs p hup hl hform ha hbusy hown hlive b hal hroute
    refine does_of_live (f := fun b => reqWrBack b r a.toNat bs p) rfl hup ?_
    rw [reqWrBack_taken hup hl hform ha hbusy hown hlive]
    exact takeWrBack_refused ((CanAnswer.of_rest (x := s.blk) ⟨hup, hroute⟩ (rest_traceRx_rspIn ..) (by decide) (by decide))) hal bs p s

end Sys2Proof.Proofs
end

/-! ## Atomics on a free line (R118, R120 to R123) -/
section
namespace Sys2Proof.Proofs

open Sys2Proof.Machine

/-! ### An atomic accepted -/

/-- The block of an accepted atomic: its predictor counter is updated, it is counted, and where it records its entry is reserved. -/
def atomicPut (b : Blk) (l part src : Nat) (m : AtmOp) : Blk :=
  let b2 := (b.predict l part src).2.bumpMod l 1
  if m.record then { b2 with coh.rat := b2.coh.rat ++ [⟨homeOf l, src, m, [], b.tb, true⟩] } else b2

theorem rest_atomicPut (b : Blk) (l part src : Nat) (m : AtmOp) : rest [.ext, .coh] (atomicPut b l part src m) = rest [.ext, .coh] b := by
  have hb := (rest_bumpMod (L := [.ext, .coh]) (by decide) (b.predict l part src).2 l 1).trans (rest_with_coh (by decide) ..)
  unfold atomicPut
  dsimp only
  split
  · exact (rest_with_coh (L := [.ext, .coh]) (by decide) ..).trans hb
  · exact hb

theorem coh_atomicPut (b : Blk) (l part src : Nat) (m : AtmOp) : (atomicPut b l part src m).coh =
    { b.coh with pred := (b.predict l part src).2.coh.pred,
                 rat := if m.record then b.coh.rat ++ [⟨homeOf l, src, m, [], b.tb, true⟩] else b.coh.rat } := by
  have hc := coh_bumpMod (b.predict l part src).2 l 1
  unfold atomicPut
  dsimp only
  split <;> rw [hc] <;> rfl

theorem extDead_atomicPut (b : Blk) (l part src : Nat) (m : AtmOp) : (atomicPut b l part src m).ext.dead = b.ext.dead := by
  have hk := kept_bumpMod extProj_dead.mod (b.predict l part src).2 l 1
  unfold atomicPut
  dsimp only
  split
  · exact hk
  · exact hk

theorem lineFree_atomicPut {b : Blk} {l : Nat} (h : LineFree b l) (part src : Nat) (m : AtmOp) : LineFree (atomicPut b l part src m) l := by
  have hr := rest_atomicPut b l part src m
  have hc := coh_atomicPut b l part src m
  have hrings := rings_of_rest hr (by decide)
  refine ⟨?_, ?_, ?_, ?_⟩
  · rw [← h.idle]
    unfold Blk.mustWait Blk.busy Blk.queued Blk.trackers
    rw [hc, hrings]
  · rw [hc]
    exact h.noEntry
  · have := h.room
    unfold Blk.setEntries Blk.claims at *
    rw [hc]
    exact this
  · rw [pool_of_rest hr (by decide)]
    exact h.sound

theorem CanGrant.atomicPut {b : Blk} {l src : Nat} (h : CanGrant b l src) (part : Nat) (m : AtmOp) : CanGrant (atomicPut b l part src m) l src :=
  h.of_rest (rest_atomicPut b l part src m) (by decide) (by decide) (by decide) (by rw [coh_atomicPut]) (extDead_atomicPut ..)

theorem sameLines_atomicPut (b : Blk) (l part src : Nat) (m : AtmOp) : SameLines b (atomicPut b l part src m) :=
  sameLines_of_frame (onlyBlk_of_rest (rest_atomicPut b l part src m)) (by decide) (by decide) (by decide)

/-- The transaction of an atomic that executes at its home, or far away. -/
def atomicTxn (r : Req) (c : Checked) (m : AtmOp) (far : Bool) : Txn :=
  (newTxn (lineOf m.addr) (if far then .far m else .near m) (.fabric r.src) r.msgId.toNat r.traceId.toNat c none).isCounted

/-- Does an atomic execute at its agent: one that may hold the line, of an operation that agents execute, which its line's predictor leaves to
it (R121). -/
def goesFar (b : Blk) (r : Req) (c : Checked) (m : AtmOp) : Bool :=
  ((mget b.coh.agents r.src.toNat).map (·.registered)).getD false && c.canWrite && !m.record && decide (m.op < 0xA) &&
    decide ((b.predict (lineOf m.addr) c.part r.src.toNat).1 < 2)

theorem tb_of_reqIn {b0 b : Blk} {r : Req} {a : Addr} {ty : Nat} {lens : List Nat} {k : AKind} {c : Checked}
    (h : ReqIn b0 b r a ty lens k c) : b.tb = b0.tb := by
  rw [h.at_, tb_of_rest (rest_accepted_quiet ..) (by decide)]
  exact tb_of_rest (rest_reqIn_refusal ..) (by decide)

theorem reqAtomic_begins {b0 b : Blk} {r : Req} {a : Addr} {m : AtmOp} {n : Nat} {c : Checked} (hm : m.addr = a.toNat)
    (h : ReqIn b0 b r a 0xC4 [n] .atomic c)
    (hcheck : (b0.reqIn (homeOf (lineOf a.toNat)) r.src.toNat 0xC4 [n] false).2.atmCheck (homeOf (lineOf a.toNat)) r.src.toNat m c = 0)
    (hnew : m.record = true → ∀ e ∈ b.ratLive (homeOf (lineOf a.toNat)), e.eid = r.src.toNat → e.a ≠ m) :
    reqAtomic b0 r m n = (atomicPut b (lineOf a.toNat) c.part r.src.toNat m).beginTxn (atomicTxn r c m (goesFar b r c m)) := by
  have htb := tb_of_reqIn h
  obtain ⟨hin, hform, hchk, hpass, hat⟩ := h
  have hseen : (if m.record then (b.ratLive (homeOf (lineOf a.toNat))).find? (fun e => e.eid == r.src.toNat && e.a == m) else none) = none := by
    split
    · next hrec =>
      rw [List.find?_eq_none]
      intro e he
      simp only [Bool.and_eq_true, beq_iff_eq, not_and]
      exact fun heid => hnew hrec e he heid
    · rfl
  unfold reqAtomic
  dsimp only
  rw [hm]
  rw [if_neg (by simp [hin]), if_neg (by simp [hform]), hchk, if_neg (by simp [hpass]), if_neg (by simp [hpass]), hcheck,
    if_neg (by decide), if_neg (by decide), if_neg (by decide), ← hat, hseen, ← htb]
  unfold atomicPut atomicTxn goesFar
  rw [hm]

/-! ### A near atomic -/

theorem noteSlot_of_lineVal {b : Blk} {l : Nat} (h : (b.lineVal l).2 = false) : b.noteSlot l = b := by
  unfold Blk.lineVal at h
  unfold Blk.noteSlot Blk.lineMeta
  cases hs : b.source l with
  | none => simp
  | some c =>
    simp only [hs] at h ⊢
    split at h
    · cases h
    · next hg =>
      simp only [Bool.or_eq_true, not_or, Bool.not_eq_true] at hg
      simp [hg]

theorem fetch_clean {b : Blk} (hi : b.pool.inj = []) {l : Nat} (h : (b.lineVal l).2 = false) : b.fetch l = (lineRead b l, b.lineVal l) := by
  have hv := lineVal_congr (calm_lineRead hi l).lines l
  rw [fetch_eq, noteSlot_of_lineVal (by rw [hv]; exact h), hv]

/-- The line with the result of a near atomic written at its address. -/
def atomicBytes (bs : Bytes) (m : AtmOp) : Bytes :=
  patch bs (m.addr % 128) (toLe ((atmSize m.size).getD 4) (atmNew m.op ((atmSize m.size).getD 4) (le bs (m.addr % 128) ((atmSize m.size).getD 4))
    m.operand m.compare))

/-- What a near atomic answers: the value that it has found. -/
def atomicOld (bs : Bytes) (m : AtmOp) : Bytes := toLe ((atmSize m.size).getD 4) (le bs (m.addr % 128) ((atmSize m.size).getD 4))

/-- The entry of a recording atomic as it stands once it has executed. -/
def recorded (u : Txn) (m : AtmOp) (old : Bytes) (tb : Nat) (e : RatEnt) : RatEnt :=
  if e.home == homeOf u.line && e.reserved && some e.eid == u.who.eid && e.a == m then { e with reserved := false, old := old, at_ := tb } else e

/-- The block in which a near atomic has been written and recorded. -/
def atomicDone (y : Blk) (u : Txn) (m : AtmOp) : Blk :=
  let z := ((lineRead y u.line).writeLine u.line (atomicBytes (y.lineVal u.line).1 m) false u.wb).incr (Reg.haAtomicNearCnt (homeOf u.line))
  { z with coh.rat := z.coh.rat.map (recorded u m (atomicOld (y.lineVal u.line).1 m) y.tb) }

theorem execNear_clean {y : Blk} {u : Txn} {m : AtmOp} (hi : y.pool.inj = []) (ha : y.huskAlive u.line = true)
    (hv : (y.lineVal u.line).2 = false) (hmir : y.mirrorsFor u.twin u.line = false)
    (hnew : ∀ e ∈ y.coh.rat, e.home = homeOf u.line → some e.eid = u.who.eid → e.a = m → m.record = true → e.reserved = false →
      u.acc ≤ e.at_ + ratWindow → False) : y.execNear u m =
      ((atomicDone y u m).answerTxn u 0x05 0 (atomicOld (y.lineVal u.line).1 m) false false).endTxn u := by
  have hfind : y.coh.rat.find? (fun r => r.home == homeOf u.line && some r.eid == u.who.eid && r.a == m && m.record && !r.reserved &&
      decide (u.acc ≤ r.at_ + ratWindow)) = none := by
    rw [List.find?_eq_none]
    intro e he
    simp only [Bool.and_eq_true, beq_iff_eq, Bool.not_eq_true', decide_eq_true_eq]
    rintro ⟨⟨⟨⟨⟨hhome, heid⟩, hea⟩, hrec⟩, hres⟩, hwin⟩
    exact hnew e he hhome heid hea hrec hres hwin
  have hr : rest ([.regs, .coh] ++ lineOpRegions) (atomicDone y u m) = rest ([.regs, .coh] ++ lineOpRegions) y := by
    have hread := rest_of_onlyBlk (onlyBlk_mono (m := [.regs, .coh] ++ lineOpRegions) (by decide) (onlyBlk_of_rest (calm_lineRead hi u.line).rest))
    unfold atomicDone
    dsimp only
    generalize lineRead y u.line = w at *
    refine (rest_with_coh (L := [.regs, .coh] ++ lineOpRegions) (by decide) ..).trans ((rest_incr (by decide) ..).trans
      ((rest_writeLine (by decide) (by decide) (by decide) (by decide) ..).trans hread))
  have hw := mirrorWait_off (b := atomicDone y u m) (t := u)
    ((mirrorsFor_congr (pair_of_rest hr (by decide)) (str_of_rest hr (by decide)) _ _).trans hmir) (atomicOld (y.lineVal u.line).1 m)
  unfold Blk.execNear
  rw [fetch_clean hi hv]
  dsimp only
  rw [hfind]
  dsimp only
  rw [if_neg (by simp [ha]), hv, if_neg (by decide)]
  have hgo : ∀ w : Bool × Blk, w = (false, atomicDone y u m) →
      (if w.1 then w.2 else (w.2.answerTxn u 0x05 0 (atomicOld (y.lineVal u.line).1 m) false false).endTxn u) =
        ((atomicDone y u m).answerTxn u 0x05 0 (atomicOld (y.lineVal u.line).1 m) false false).endTxn u := fun w h => by rw [h]; rfl
  exact hgo _ hw

/-- What a near atomic leaves before it is answered. -/
theorem atomicDone_spec {y : Blk} {u : Txn} {m : AtmOp} (hi : y.pool.inj = []) (ha : y.huskAlive u.line = true) :
    (atomicDone y u m).lineVal u.line = (fit 128 (atomicBytes (y.lineVal u.line).1 m), false) ∧
      (atomicDone y u m).coh.rat = y.coh.rat.map (recorded u m (atomicOld (y.lineVal u.line).1 m) y.tb) ∧
      rest ([.regs, .coh] ++ lineOpRegions) (atomicDone y u m) = rest ([.regs, .coh] ++ lineOpRegions) y := by
  have hcalm := calm_lineRead hi u.line
  have hs : ((lineRead y u.line).source u.line).isSome = true := source_isSome_congr hcalm.lines (source_of_huskAlive ha)
  have hread := rest_of_onlyBlk (onlyBlk_mono (m := [.regs, .coh] ++ lineOpRegions) (by decide) (onlyBlk_of_rest hcalm.rest))
  have hc := coh_of_rest hcalm.rest (by decide)
  unfold atomicDone
  dsimp only
  generalize lineRead y u.line = w at *
  have hval := (wrote_writeLine (atomicBytes (y.lineVal u.line).1 m) false u.wb hs).lineVal hs (.inr rfl)
  have hw := rest_writeLine (L := [.regs, .coh] ++ lineOpRegions) (by decide) (by decide) (by decide) (by decide) w u.line
    (atomicBytes (y.lineVal u.line).1 m) false u.wb
  have hwc : (w.writeLine u.line (atomicBytes (y.lineVal u.line).1 m) false u.wb).coh = w.coh := coh_writeLine ..
  generalize w.writeLine u.line (atomicBytes (y.lineVal u.line).1 m) false u.wb = z at *
  have hz := rest_incr (L := [.regs]) (by decide) z (Reg.haAtomicNearCnt (homeOf u.line))
  have hzs : SameLines z (z.incr (Reg.haAtomicNearCnt (homeOf u.line))) :=
    sameLines_of_frame (onlyBlk_of_rest hz) (by decide) (by decide) (by decide)
  have hzc := coh_of_rest hz (by decide)
  refine ⟨?_, ?_, ?_⟩
  · exact (lineVal_congr (sameLines_trans hzs (sameLines_coh _ _)) _).trans hval
  · show (z.incr _).coh.rat.map _ = _
    rw [hzc, hwc, hc]
  · exact (rest_with_coh (L := [.regs, .coh] ++ lineOpRegions) (by decide) ..).trans ((rest_incr (by decide) ..).trans (hw.trans hread))

theorem finishTxn_near {x : Blk} {u : Txn} {m : AtmOp} (hf : x.fencedTxn u = false) (hop : u.op = .near m) :
    x.finishTxn u = quieted ((entryFreed (served x u) u.line).execNear u m) := by
  have hf' : (served x u).fencedTxn u = false := hf
  unfold Blk.finishTxn
  rw [serve_eq]
  refine congrArg quieted ?_
  generalize served x u = y at hf' ⊢
  dsimp only
  rw [if_neg (by rw [hf']; decide), hop]
  rfl

theorem answerTxn_near {b : Blk} {u : Txn} {m : AtmOp} {src : Eid} (hop : u.op = .near m) (hwho : u.who = .fabric src) (hjob : u.job = none)
    (bs : Bytes) : b.answerTxn u 0x05 0 bs false false =
      (b.respond (homeOf u.line) 0x05 src.toNat u.msgId u.traceId m.addr 0 false false bs false 0 u.part).2 := by
  unfold Blk.answerTxn
  rw [hjob, hwho, hop]

/-- A near atomic that has started on a free line is written, recorded, and answered the old value. -/
theorem started_near {b x : Blk} {t u : Txn} {m : AtmOp} {src : Eid} (h : Started b t x u) (hop : t.op = .near m) (hwho : t.who = .fabric src)
    (hjob : t.job = none) (hdata : t.data = none) (hf : b.fencedTxn t = false) (ha : b.huskAlive t.line = true)
    (hmir : b.mirrorsFor t.twin t.line = false) (hi : b.pool.inj = []) (hv : (b.lineVal t.line).2 = false)
    (hans : CanAnswer b t.line src.toNat)
    (hnew : ∀ e ∈ b.coh.rat, e.home = homeOf t.line → some e.eid = t.who.eid → e.a = m → m.record = true → e.reserved = false →
      t.acc ≤ e.at_ + ratWindow → False) (s : State) :
    (x.advance u).lineVal t.line = (fit 128 (atomicBytes (b.lineVal t.line).1 m), false) ∧
      (x.advance u).coh.rat = b.coh.rat.map (recorded t m (atomicOld (b.lineVal t.line).1 m) b.tb) ∧
      Sends { s with blk := x.advance u } (homeOf t.line) 0x05 src.toNat 0 (atomicOld (b.lineVal t.line).1 m) := by
  have hline : u.line = t.line := by rw [h.txn]
  have hutwin : u.twin = t.twin := by rw [h.txn]
  have huwho : u.who = t.who := by rw [h.txn]
  have huacc : u.acc = t.acc := by rw [h.txn]
  have hadv := advance_served (x := x) (u := u) (by rw [h.txn]; exact hdata)
  rw [finishTxn_near (x := served x u) (m := m) ((fencedTxn_started h).trans hf) (by rw [h.txn]; exact hop)] at hadv
  have hzr : rest startRegions (freedAt x u) = rest startRegions b := (rest_freedAt (by decide) x u).trans h.rest
  have hrat : (freedAt x u).coh.rat = b.coh.rat := by rw [coh_freedAt, h.coh]
  have hadv' : x.advance u = quieted (quieted ((freedAt x u).execNear u m)) := hadv
  generalize freedAt x u = z at *
  have hz : SameLines b z := sameLines_of_frame (onlyBlk_of_rest hzr) (by decide) (by decide) (by decide)
  have hzi : z.pool.inj = [] := (congrArg Pool.inj (pool_of_rest hzr (by decide))).trans hi
  have hzv : z.lineVal u.line = b.lineVal t.line := by rw [hline]; exact lineVal_congr hz _
  have hza : z.huskAlive u.line = true := by
    rw [hline]
    exact (huskAlive_congr hz.toSameWays (by rw [hz.revived])).trans ha
  rw [execNear_clean hzi hza (by rw [hzv]; exact hv) (by
    rw [hline, hutwin]
    exact (mirrorsFor_congr (pair_of_rest hzr (by decide)) (str_of_rest hzr (by decide)) _ _).trans hmir) (by
    rw [hrat, hline, huwho, huacc]
    exact hnew)] at hadv'
  obtain ⟨hval, hr, hrest⟩ := atomicDone_spec (m := m) hzi hza
  rw [hzv, tb_of_rest hzr (by decide), hrat] at hr
  rw [hzv] at hval hadv'
  generalize atomicDone z u m = y at *
  rw [answerTxn_near (by rw [h.txn]; exact hop) (huwho.trans hwho) (by rw [h.txn]; exact hjob), hline] at hadv'
  have hcan : CanAnswer y t.line src.toNat := (hans.of_rest hzr (by decide) (by decide)).of_rest hrest (by decide) (by decide)
  have hs := sends_respond hcan s 0x05 u.msgId u.traceId m.addr 0 false false (atomicOld (b.lineVal t.line).1 m) false 0 u.part
  have hsame := sameLines_respond y (homeOf t.line) 0x05 src.toNat u.msgId u.traceId m.addr 0 false false (atomicOld (b.lineVal t.line).1 m) false 0
    u.part
  have hc := coh_respond y (homeOf t.line) 0x05 src.toNat u.msgId u.traceId m.addr 0 false false (atomicOld (b.lineVal t.line).1 m) false 0 u.part
  generalize (y.respond (homeOf t.line) 0x05 src.toNat u.msgId u.traceId m.addr 0 false false (atomicOld (b.lineVal t.line).1 m) false 0 u.part).2 = w at *
  have hgo : x.advance u = endedTxn w u := hadv'
  rw [hgo]
  rw [hline] at hval
  refine ⟨(lineVal_congr (sameLines_trans hsame (sameLines_endedTxn w u)) _).trans hval, ?_, sends_of_fab hs rfl⟩
  show w.coh.rat = _
  rw [hc, hr]
  refine List.map_congr_left (fun e _ => ?_)
  unfold recorded
  rw [hline, huwho]

/-- A near atomic begins on a free line. -/
theorem begin_near {b : Blk} {r : Req} {c : Checked} {m : AtmOp} (hfree : LineFree b (lineOf m.addr)) (hg : CanGrant b (lineOf m.addr) r.src.toNat)
    (ha : b.huskAlive (lineOf m.addr) = true) (hmir : b.mirrors (lineOf m.addr) = false) (hv : (b.lineVal (lineOf m.addr)).2 = false)
    (hnew : m.record = true → ∀ e ∈ b.ratLive (homeOf (lineOf m.addr)), e.eid = r.src.toNat → e.a ≠ m) (s : State) :
    let z := (atomicPut b (lineOf m.addr) c.part r.src.toNat m).beginTxn (atomicTxn r c m false)
    (m.record = true → ∃ e ∈ z.coh.rat, e.eid = r.src.toNat ∧ e.a = m ∧ e.old = atomicOld (b.lineVal (lineOf m.addr)).1 m ∧ e.reserved = false ∧
        e.at_ = b.tb) ∧
      z.lineVal (lineOf m.addr) = (fit 128 (atomicBytes (b.lineVal (lineOf m.addr)).1 m), false) ∧
      Sends { s with blk := z } (homeOf (lineOf m.addr)) 0x05 r.src.toNat 0 (atomicOld (b.lineVal (lineOf m.addr)).1 m) := by
  generalize ht : atomicTxn r c m false = t
  have hl : t.line = lineOf m.addr := by rw [← ht]; rfl
  have hput := lineFree_atomicPut hfree c.part r.src.toNat m
  have hgp := hg.atomicPut c.part m
  have hrp := rest_atomicPut b (lineOf m.addr) c.part r.src.toNat m
  have hcp := coh_atomicPut b (lineOf m.addr) c.part r.src.toNat m
  have hsame := sameLines_atomicPut b (lineOf m.addr) c.part r.src.toNat m
  generalize atomicPut b (lineOf m.addr) c.part r.src.toNat m = y at *
  have hrat : y.coh.rat = if m.record then b.coh.rat ++ [⟨homeOf (lineOf m.addr), r.src.toNat, m, [], b.tb, true⟩] else b.coh.rat := by rw [hcp]
  have htb : y.tb = b.tb := tb_of_rest hrp (by decide)
  generalize lineOf m.addr = l at *
  subst hl
  obtain ⟨x, u, hst, hgo⟩ := beginTxn_free hput.idle (entryFree_of_lineFree hput)
  have hend := started_near (m := m) (src := r.src) hst (by rw [← ht]; rfl) (by rw [← ht]; rfl) (by rw [← ht]; rfl) (by rw [← ht]; rfl)
    (unfenced_of_twin (b := numberGiven y) (t := numbered y t) hgp.unfenced)
    ((huskAlive_congr hsame.toSameWays (by rw [hsame.revived])).trans ha)
    ((mirrors_congr (pair_of_rest hrp (by decide)) (str_of_rest hrp (by decide)) _).trans hmir) hput.sound
    (by
      rw [lineVal_congr (sameLines_trans hsame (sameLines_numberGiven y))]
      exact hv)
    hgp.toCanAnswer.numberGiven (by
      intro e he hhome heid hea hrec hres hwin
      have he' : e ∈ y.coh.rat := he
      rw [hrat, if_pos hrec, List.mem_append, List.mem_singleton] at he'
      obtain hold | rfl := he'
      · have heid' : e.eid = r.src.toNat := by
          have : some e.eid = some r.src.toNat := by rw [heid, ← ht]; rfl
          exact Option.some.inj this
        have hwin' : b.tb ≤ e.at_ + ratWindow := by rw [← htb]; exact hwin
        refine hnew hrec e ?_ heid' hea
        simp only [Blk.ratLive, List.mem_filter, hold, true_and, Bool.and_eq_true, beq_iff_eq, RatEnt.live, Bool.or_eq_true, decide_eq_true_eq]
        exact ⟨hhome, .inr hwin'⟩
      · cases hres) s
  rw [lineVal_congr (sameLines_trans hsame (sameLines_numberGiven y))] at hend
  obtain ⟨hval, hratz, hs⟩ := hend
  dsimp only
  rw [hgo]
  refine ⟨fun hrec => ?_, hval, hs⟩
  have hmem : (⟨homeOf t.line, r.src.toNat, m, [], b.tb, true⟩ : RatEnt) ∈ (numberGiven y).coh.rat := by
    show _ ∈ y.coh.rat
    rw [hrat, if_pos hrec]
    simp
  refine ⟨_, by rw [hratz]; exact List.mem_map_of_mem hmem, ?_⟩
  have hwho : (numbered y t).who.eid = some r.src.toNat := by rw [← ht]; rfl
  have hnl : (numbered y t).line = t.line := rfl
  unfold recorded
  rw [hnl, hwho, if_pos (by simp)]
  exact ⟨rfl, rfl, rfl, rfl, htb⟩

/-- A far atomic begins on a free line. -/
theorem begin_far {b : Blk} {r : Req} {c : Checked} {m : AtmOp} {g : Agent} (hfree : LineFree b (lineOf m.addr))
    (hg : CanGrant b (lineOf m.addr) r.src.toNat) (hag : mget b.coh.agents r.src.toNat = some g) (ha : b.huskAlive (lineOf m.addr) = true)
    (s : State) :
    Granted { s with blk := (atomicPut b (lineOf m.addr) c.part r.src.toNat m).beginTxn (atomicTxn r c m true) } (lineOf m.addr) r .x g.index 0x01
      (b.lineVal (lineOf m.addr)).1 := by
  have hput := lineFree_atomicPut hfree c.part r.src.toNat m
  have hsame := sameLines_atomicPut b (lineOf m.addr) c.part r.src.toNat m
  have hix : (atomicPut b (lineOf m.addr) c.part r.src.toNat m).agentIx r.src.toNat = some g.index := by
    rw [agentIx_congr (by rw [coh_atomicPut]) (x := b), Blk.agentIx, hag]
    rfl
  have hb := begin_grants (t := atomicTxn r c m true) (st := .x) (ty := 0x01) hput.idle (entryFree_of_lineFree hput) hput.sound
    (hg.atomicPut c.part m) rfl rfl hix (.inr (.inr ⟨m, rfl⟩)) (fun x u hx hline hop _ hat s => ?_) s
  · rw [show (atomicTxn r c m true).line = lineOf m.addr from rfl, lineVal_congr hsame] at hb
    exact hb
  · refine hat.far hop ?_ s
    rw [hline]
    exact (huskAlive_congr (sameLines_trans hsame hx).toSameWays (by rw [(sameLines_trans hsame hx).revived])).trans ha

theorem reqAtomic_refused {b : Blk} {r : Req} {a : Addr} {m : AtmOp} {n st : Nat} (hm : m.addr = a.toNat) (hst : st ≠ 0x19)
    (h : ReqFails b r a 0xC4 [n] .atomic st) : reqAtomic b r m n =
      (b.reqIn (homeOf (lineOf a.toNat)) r.src.toNat 0xC4 [n] false).2.refuse (homeOf (lineOf a.toNat)) r.src.toNat r.msgId.toNat
        r.traceId.toNat a.toNat st 0 := by
  obtain ⟨hin, hform, hchk, hfail⟩ := h
  unfold reqAtomic
  dsimp only
  rw [hm]
  rw [if_neg (by simp [hin]), if_neg (by simp [hform]), hchk, if_neg (by simp [hst]), if_pos hfail]

/-- Settles O29: a near atomic is written where it stands, and a far one granted to its agent. -/
theorem atomicsExecuteNearOrFar : Obligations.AtomicsExecuteNearOrFar := by
  unfold Obligations.AtomicsExecuteNearOrFar
  refine ⟨?_, ?_, fun s r a op sz tag pl rec st h hst => ?_⟩
  · intro s b r a op sz rec tag pl c h hfree hal hmir hv hnear hnew m n old x hcheck
    refine does_of_live (f := fun b => reqAtomic b r (atmOp a.toNat op.toNat sz.toNat rec tag pl) pl.length) rfl (up_of_reqIn h) ?_
    have hnew' : m.record = true → ∀ e ∈ b.ratLive (homeOf (lineOf a.toNat)), e.eid = r.src.toNat → e.a ≠ m :=
      fun hrec e he heid hea => hnew hrec e he heid (by rw [hea]; rfl)
    have hfar : goesFar b r c m = false := by
      by_contra hc
      simp only [goesFar, Bool.not_eq_false, Bool.and_eq_true, Bool.not_eq_true', decide_eq_true_eq] at hc
      obtain ⟨⟨⟨⟨hreg, hcw⟩, hrec⟩, hop⟩, hlt⟩ := hc
      exact absurd hlt (Nat.not_lt.2 (hnear hrec hreg hcw hop))
    rw [reqAtomic_begins (m := m) rfl h hcheck hnew', hfar]
    have hb := begin_near (m := m) (c := c) hfree (canGrant_of_reqIn h) hal hmir hv hnew' s
    rw [tb_of_reqIn h] at hb
    exact hb
  · intro s b r a op sz tag pl c g h hfree hag hal hreg hcw hop hpred m x hcheck
    refine does_of_live (f := fun b => reqAtomic b r (atmOp a.toNat op.toNat sz.toNat false tag pl) pl.length) rfl (up_of_reqIn h) ?_
    have hfar : goesFar b r c m = true := by
      simp only [goesFar, Bool.and_eq_true, Bool.not_eq_true', decide_eq_true_eq, hag, Option.map_some, Option.getD_some]
      exact ⟨⟨⟨⟨hreg, hcw⟩, rfl⟩, hop⟩, hpred⟩
    rw [reqAtomic_begins (m := m) rfl h hcheck (fun hrec => by cases hrec), hfar]
    exact begin_far (m := m) (c := c) hfree (canGrant_of_reqIn h) hag hal s
  · refine does_of_live (f := fun b => reqAtomic b r (atmOp a.toNat op.toNat sz.toNat rec tag pl) pl.length) rfl (up_of_reqFails h) ?_
    rw [reqAtomic_refused rfl hst h]
    obtain ⟨hrest, hs⟩ := refuse_answers h.enters s r.msgId.toNat r.traceId.toNat a.toNat st 0
    exact ⟨only_of_blk (onlyBlk_of_rest hrest), hs⟩

end Sys2Proof.Proofs
end

/-! ## The work of a home agent on its own (R109, R113, R123, R125 to R127) -/
section
namespace Sys2Proof.Proofs

open Sys2Proof.Machine

/-! ### The next request that waits -/

theorem id_settleCount (b : Blk) (t : Txn) : (b.settleCount t).1.id = t.id := by rw [line_settleCount]

theorem id_countRds (b : Blk) (t : Txn) : (b.countRds t).1.id = t.id := by
  unfold Blk.countRds
  split <;> rfl

theorem queue_lineTouched (b : Blk) (l : Nat) : (lineTouched b l).coh.queue = b.coh.queue := by
  unfold lineTouched
  split
  · split
    · exact queue_poisonDead ..
    · exact queue_touch ..
  · exact queue_touch ..

theorem queue_opened (b : Blk) (t : Txn) (again : Bool) : (opened b t again).coh.queue = b.coh.queue := by
  refine (queue_lineTouched ..).trans ?_
  split
  · rfl
  · rw [coh_dirLookup]

/-- A transaction that starts leaves the queue as it is, or waits in it for the recall of a victim. -/
theorem queue_startTxn (b : Blk) (t : Txn) (again : Bool) (f : QEnt) (hf : f ∈ (b.startTxn t again).coh.queue) :
    f ∈ b.coh.queue ∨ (f.txn.id = t.id ∧ f.victim.isSome = true) := by
  rw [startTxn_eq] at hf
  have ho := queue_opened b t again
  generalize opened b t again = o at hf ho
  generalize hv : ({ t with at_ := b.tb } : Txn) = v at hf
  have hid : v.id = t.id := by rw [← hv]
  rw [← ho]
  unfold startedIn at hf
  split at hf
  · split at hf
    · rw [queue_runTxn, coh_uncountRds, coh_incr] at hf
      exact .inl hf
    · dsimp only at hf
      split at hf
      · rw [queue_runTxn, queue_evict] at hf
        exact .inl hf
      · obtain rfl | hf := List.mem_cons.1 hf
        · exact .inr ⟨(id_countRds ..).trans hid, rfl⟩
        · rw [coh_countRds, queue_evict] at hf
          exact .inl hf
  · rw [queue_runTxn] at hf
    exact .inl hf

/-- The block in which the next request has left the queue. -/
def dequeued (b : Blk) (e : QEnt) : Blk := { b with coh.queue := b.coh.queue.filter (fun f => f.txn.id != e.txn.id) }

/-- The block in which the next write of the hub has left its queue, with its number. -/
def waitTaken (b : Blk) (e : QEnt) : Blk := { b with rings.waits := b.rings.waits.erase e, coh.nextTxn := b.coh.nextTxn + 1 }

theorem busyServe_queue {b : Blk} {q : Nat} {e : QEnt} (h : b.nextQueued q = some e) (hw : b.rings.waits.contains e = false) :
    busyServe b q = (dequeued b e).startTxn e.txn e.victim.isSome := by
  unfold busyServe dequeued
  rw [h]
  dsimp only
  rw [if_neg (by rw [hw]; decide)]

theorem busyServe_wait {b : Blk} {q : Nat} {e : QEnt} (h : b.nextQueued q = some e) (hw : b.rings.waits.contains e = true) :
    busyServe b q = (waitTaken b e).startTxn { e.txn with id := b.coh.nextTxn } := by
  unfold busyServe waitTaken
  rw [h]
  dsimp only
  rw [if_pos hw]

theorem not_busy_of_next {b : Blk} {q : Nat} {e : QEnt} (h : b.nextQueued q = some e) : b.busy e.txn.line = false := by
  unfold Blk.nextQueued at h
  have hp := List.find?_some h
  simp only [Bool.and_eq_true, Bool.not_eq_true'] at hp
  exact hp.1.1.1.1

theorem sameLines_waitTaken (b : Blk) (e : QEnt) : SameLines b (waitTaken b e) :=
  ⟨⟨rfl, fun _ => rfl, fun _ => rfl, fun _ => rfl, fun _ => rfl, rfl, rfl, rfl⟩, rfl, rfl, rfl, rfl, rfl, rfl, rfl⟩

theorem serve_rdonce {b : Blk} {q : Nat} {e : QEnt} {src : Eid} (hup : b.dead = false) (h : b.nextQueued q = some e)
    (hw : b.rings.waits.contains e = false) (hop : e.txn.op = .rdonce) (hwho : e.txn.who = .fabric src) (hjob : e.txn.job = none)
    (hdata : e.txn.data = none) (hfree : mget b.coh.dir e.txn.line = none) (hf : b.fencedTxn e.txn = false) (hi : b.pool.inj = [])
    (hroute : mhas (b.view (.router (Fin.ofNat 4 (homeOf e.txn.line)))).eids src.toNat = true) (s : State) :
    (busyServe b q).busy e.txn.line = false ∧
      Sends { s with blk := busyServe b q } (homeOf e.txn.line) 0x02 src.toNat 0 (b.lineVal e.txn.line).1 := by
  rw [busyServe_queue h hw]
  have hroom : Roomy (dequeued b e) e.txn := fun hn => by rw [hop] at hn; cases hn
  have hn : mget (dequeued b e).coh.dir e.txn.line = none := hfree
  obtain ⟨x, u, hst, hgo⟩ := startTxn_free hn hroom e.victim.isSome
  have hcan : CanAnswer (dequeued b e) e.txn.line src.toNat := ⟨hup, hroute⟩
  have hend := started_rdonce_answers hst hop hwho hjob hdata hf hi hcan hn (not_busy_of_next (b := b) h) s
  have hsame : SameLines b (dequeued b e) := sameLines_coh b _
  rw [lineVal_congr hsame] at hend
  rw [hgo]
  exact hend.2

theorem serve_hubWrite {b : Blk} {q : Nat} {e : QEnt} {bs : Bytes} {m : BitVec 128} (h : b.nextQueued q = some e)
    (hw : b.rings.waits.contains e = true) (hop : e.txn.op = .wrline bs m false) (hwho : e.txn.who = .dev) (hjob : e.txn.job = none)
    (hdata : e.txn.data = none) (hfree : mget b.coh.dir e.txn.line = none) (hi : b.pool.inj = []) (ha : b.huskAlive e.txn.line = true)
    (hmir : b.mirrorsFor e.txn.twin e.txn.line = false) (hf : b.fencedTxn e.txn = false) (hlog : b.rings.log.ext = none) :
    (busyServe b q).busy e.txn.line = false ∧ (busyServe b q).lineVal e.txn.line = lineAfter b e.txn.line bs m false := by
  rw [busyServe_wait h hw]
  generalize ht : ({ e.txn with id := b.coh.nextTxn } : Txn) = t
  have htl : t.line = e.txn.line := by rw [← ht]
  have htop : t.op = .wrline bs m false := by rw [← ht]; exact hop
  have htd : OfDev t := by rw [← ht]; exact ⟨hwho, hjob⟩
  have hroom : Roomy (waitTaken b e) t := fun hn => by rw [htop] at hn; cases hn
  have hn : mget (waitTaken b e).coh.dir t.line = none := by rw [htl]; exact hfree
  obtain ⟨x, u, hst, hgo⟩ := startTxn_free hn hroom false
  have hat : (waitTaken b e).huskAlive t.line = true := by rw [htl]; exact ha
  obtain ⟨hval, hcoh, -, -, -⟩ := mergedIn_started (m := m) hst hat hi (.inr hlog) bs false
  have hadv := started_wrline (bs := bs) (m := m) (p := false) hst htop (by rw [← ht]; exact hdata) (by rw [← ht]; exact hf) hat
    (by rw [← ht]; exact hmir) hi
  have hdev : OfDev u := by rw [hst.txn]; exact htd
  rw [answerTxn_dev hdev] at hadv
  generalize mergedIn x u bs m false = y at *
  have hgo' : x.advance u = endedTxn y u := hadv
  rw [hgo, hgo', ← htl]
  refine ⟨busy_endedTxn hst (by rw [htl]; exact not_busy_of_next (b := b) h) (by rw [hcoh]), ?_⟩
  rw [lineVal_congr (sameLines_endedTxn y u), hval]
  exact lineAfter_congr (lineVal_congr (sameLines_waitTaken b e) _) ..

/-! ### A snoop that is missing -/

/-- A first or second timeout in a row is counted. -/
theorem timeoutOf_counts {b : Blk} {q eid : Nat} (h : tget (fun _ => 0) b.coh.timeouts (q * 65536 + eid) < 2) :
    tget (fun _ => 0) (b.timeoutOf q eid).coh.timeouts (q * 65536 + eid) = tget (fun _ => 0) b.coh.timeouts (q * 65536 + eid) + 1 ∧
      (b.timeoutOf q eid).coh.txns = b.coh.txns ∧ (b.timeoutOf q eid).coh.agents = b.coh.agents ∧
      ((b.timeoutOf q eid).reg (Reg.haCohErr q)).getLsbD 0 = true := by
  unfold Blk.timeoutOf
  dsimp only
  rw [if_neg (by omega)]
  refine ⟨?_, ?_, ?_, bit_reg_flag _ _ _ (by decide)⟩
  · rw [coh_flag, coh_incr]
    simp
  · rw [coh_flag, coh_incr]
  · rw [coh_flag, coh_incr]

theorem snoopTimeoutAt_missing {b : Blk} {q l eid : Nat} {x : Txn} {y : SnoopOut} (htx : b.coh.txns = [x]) (hl : x.line = l)
    (hq : homeOf x.line = q) (hsn : x.snoops = [y]) (hy : y.eid = eid) (hwb : y.wbPend = false) (hlate : y.sentAt + b.snoopTimeout q ≤ b.tb) :
    snoopTimeoutAt b q l eid =
      ((b.sendSnoop l eid y.snpId x.part y.kind).putTxn { x with snoops := [{ y with sentAt := b.tb }] }).timeoutOf q eid := by
  have hfind : b.coh.txns.find? (fun t => t.line == l && homeOf t.line == q &&
      (t.snoops.any (fun s => s.eid == eid && !s.wbPend && s.sentAt + b.snoopTimeout q ≤ b.tb))) = some x := by
    have hany : x.snoops.any (fun s => s.eid == eid && !s.wbPend && decide (s.sentAt + b.snoopTimeout q ≤ b.tb)) = true := by
      rw [hsn]
      simp [hy, hwb, hlate]
    subst hl hq
    rw [htx, List.find?_cons_of_pos]
    rw [hany]
    simp
  have hsnoop : x.snoops.find? (fun s => s.eid == eid) = some y := by
    rw [hsn]
    simp [hy]
  unfold snoopTimeoutAt
  dsimp only
  rw [hfind]
  dsimp only
  rw [hsnoop, hsn]
  simp [hy]

theorem snoopTimeoutAt_counts {b : Blk} {q l eid : Nat} {x : Txn} {y : SnoopOut} (htx : b.coh.txns = [x]) (hl : x.line = l)
    (hq : homeOf x.line = q) (hsn : x.snoops = [y]) (hy : y.eid = eid) (hwb : y.wbPend = false) (hlate : y.sentAt + b.snoopTimeout q ≤ b.tb)
    (hcnt : tget (fun _ => 0) b.coh.timeouts (q * 65536 + eid) < 2) :
    let z := snoopTimeoutAt b q l eid
    tget (fun _ => 0) z.coh.timeouts (q * 65536 + eid) = tget (fun _ => 0) b.coh.timeouts (q * 65536 + eid) + 1 ∧
      z.coh.txns = [{ x with snoops := [{ y with sentAt := b.tb }] }] ∧ (z.reg (Reg.haCohErr q)).getLsbD 0 = true ∧
      z.coh.agents = b.coh.agents := by
  have hc : ((b.sendSnoop l eid y.snpId x.part y.kind).putTxn { x with snoops := [{ y with sentAt := b.tb }] }).coh =
      { b.coh with txns := [{ x with snoops := [{ y with sentAt := b.tb }] }] } := by
    unfold Blk.putTxn
    rw [coh_sendSnoop, htx]
    simp
  rw [snoopTimeoutAt_missing htx hl hq hsn hy hwb hlate]
  generalize (b.sendSnoop l eid y.snpId x.part y.kind).putTxn { x with snoops := [{ y with sentAt := b.tb }] } = w at hc ⊢
  obtain ⟨h1, h2, h3, h4⟩ := timeoutOf_counts (b := w) (q := q) (eid := eid) (by rw [hc]; exact hcnt)
  rw [hc] at h1 h2 h3
  exact ⟨h1, h2, h4, h3⟩

/-! ### Suspensions and walks -/

/-- The agents that a home agent is to suspend, those suspended, and the walks for them. -/
def suspensions (c : Coh) : List (Nat × Nat) × List (Nat × Nat) × List Walk := (c.suspendPend, c.suspended, c.walks)

theorem agentProj_suspensions : AgentProj suspensions := ⟨fun _ _ _ _ _ _ _ _ _ _ _ _ _ _ => rfl⟩

theorem suspendTakeAt_takes {b : Blk} {q eid : Nat} (h : (q, eid) ∈ b.coh.suspendPend) :
    let z := suspendTakeAt b q eid
    (q, eid) ∉ z.coh.suspendPend ∧ (q, eid) ∈ z.coh.suspended ∧ (⟨q, eid, 0⟩ : Walk) ∈ z.coh.walks := by
  unfold suspendTakeAt
  dsimp only
  rw [if_pos (by simpa using h)]
  have hk := agents_resolveDead agentProj_suspensions ({ b with
      coh.suspendPend := without b.coh.suspendPend (q, eid)
      coh.suspended := with1 b.coh.suspended (q, eid)
      coh.agents := if q = 0 then mmod b.coh.agents eid (fun a => { a with registered := false, suspended := true }) else b.coh.agents
      coh.walks := b.coh.walks.filter (fun w => !(w.home == q && w.eid == eid)) ++ [⟨q, eid, 0⟩] } : Blk) q eid
  obtain ⟨h1, h2, h3⟩ : _ ∧ _ ∧ _ := by simpa only [suspensions, Prod.mk.injEq] using hk
  rw [h1, h2, h3]
  refine ⟨by simp [without], by unfold with1; split <;> simp_all, by simp⟩

theorem walks_foldl (eid : Nat) (ls : List Nat) (x : Blk) : (ls.foldl (fun b l => b.walkEntry eid l) x).coh.walks = x.coh.walks :=
  keeps_foldl (fun x : Blk => x.coh.walks)
    (fun x l => congrArg (fun w : List (Nat × Nat) × List (Nat × Nat) × List Walk => w.2.2) (agents_walkEntry agentProj_suspensions x eid l)) ls x

theorem reclaimStep_walks {b b0 : Blk} {q eid : Nat} {w : Walk} (hq : w.home = q) (he : w.eid = eid) (hw : b.coh.walks = [w])
    (hslot : b.takeSlot (1000 + q) (b.field (Reg.haReclaimCap q) 0 7 * b.grainSlots * 32 / 100) = some b0) :
    (reclaimStep b q eid).coh.walks = if w.cursor + 1 = dirSets then [] else [{ w with cursor := w.cursor + 1 }] := by
  have hc : b0.coh = b.coh := by
    unfold Blk.takeSlot at hslot
    dsimp only at hslot
    split at hslot
    · cases hslot
      rfl
    · cases hslot
  unfold reclaimStep
  rw [hw, show [w].find? (fun w => w.home == q && w.eid == eid) = some w by simp [hq, he]]
  dsimp only
  rw [hslot]
  dsimp only
  rw [walks_foldl, hc, hw]
  simp [hq, he]

/-- Settles O32: the requests that wait, the snoops that are missing, and the walks for agents that are gone. -/
theorem homeAgentsWorkOn : Obligations.HomeAgentsWorkOn := by
  unfold Obligations.HomeAgentsWorkOn
  refine ⟨fun s q e hup h hw => ?_, fun s q e src hup h hw hop hwho hjob hdata hfree hf hi hroute => ?_,
    fun s q e bs m hup h hw hop hwho hjob hdata hfree hi ha hmir hf hrings => ?_, fun s q h => ?_, fun s q e tag hup => ?_,
    fun s q a e x y hup htx hl hq hsn hy hwb hlate hcnt => ?_, fun s q e hup hmem => ?_, fun s q e w b0 hup hq he hw hslot => ?_⟩
  · refine does_of_live (f := fun b => busyServe b q) rfl hup (fun f hf hid => ?_)
    rw [busyServe_queue h hw] at hf
    obtain hin | ⟨-, hv⟩ := queue_startTxn _ _ _ f hf
    · have hne := (List.mem_filter.1 hin).2
      simp [hid] at hne
    · exact hv
  · exact does_of_live (f := fun b => busyServe b q) rfl hup (serve_rdonce hup h hw hop hwho hjob hdata hfree hf hi hroute s)
  · exact does_of_live (f := fun b => busyServe b q) rfl hup (serve_hubWrite h hw hop hwho hjob hdata hfree hi ha hmir hf hrings.1)
  · have hnone : busyServe s.blk q = s.blk := by
      unfold busyServe
      rw [h]
    exact stays_of_live (f := fun b => busyServe b q) rfl (fun _ => hnone)
  · refine does_of_live (f := fun b => ratExpiry b q e.toNat tag) rfl hup ⟨?_, fun x hx => (List.mem_filter.1 hx).1, fun x hx => ?_⟩
    · exact only_of_blk (onlyBlk_of_rest (L := [.coh]) (rest_with_coh (by decide) ..))
    · by_cases hlive : x.live s.blk.tb = true
      · exact .inl (List.mem_filter.2 ⟨hx, by simp [hlive]⟩)
      · simp only [RatEnt.live, Bool.or_eq_true, decide_eq_true_eq, not_or, Bool.not_eq_true, Nat.not_le] at hlive
        exact .inr hlive
  · refine does_of_live (f := fun b => snoopTimeoutAt b q (lineOf a.toNat) e.toNat) rfl hup ?_
    exact snoopTimeoutAt_counts htx hl hq hsn hy hwb hlate hcnt
  · exact does_of_live (f := fun b => suspendTakeAt b q e.toNat) rfl hup (suspendTakeAt_takes hmem)
  · exact does_of_live (f := fun b => reclaimStep b q e.toNat) rfl hup (reclaimStep_walks hq he hw hslot)

end Sys2Proof.Proofs
end

/-! ## Reads with errors in some lanes (R339, R340) -/
section
namespace Sys2Proof.Proofs

open Sys2Proof.Machine

/-! ### What a log outside the pool leaves of the always-on counters -/

/-- An always-on counter. -/
def aonAt (b : Blk) (k : Nat) : Nat := tget (fun _ => 0) b.aon k

theorem aonAt_congr {x y : Blk} (h : y.aon = x.aon) (k : Nat) : aonAt y k = aonAt x k := by rw [aonAt, h, aonAt]

theorem aonAt_aonAdd_self (b : Blk) (k n : Nat) : aonAt (b.aonAdd k n) k = min (aonAt b k + n) (2 ^ 64 - 1) :=
  tget_tmod_self (fun _ => 0) b.aon k (fun v => min (v + n) (2 ^ 64 - 1))

theorem aonAt_aonAdd_ne (b : Blk) {k j : Nat} (n : Nat) (h : k ≠ j) : aonAt (b.aonAdd j n) k = aonAt b k :=
  tget_tmod_ne (fun _ => 0) b.aon j k (fun v => min (v + n) (2 ^ 64 - 1)) h

theorem aonAt_event (b : Blk) (unit code : Nat) (part : Option Nat) (n k : Nat) : aonAt (b.event unit code part n) k = aonAt b k :=
  aonAt_congr (aon_of_rest (L := [.pcs]) (rest_event (by decide) ..) (by decide)) k

section
variable {k : Nat} (hk : k ≠ 225)
include hk

theorem aonAt_logLose (b : Blk) : aonAt b.logLose k = aonAt b k :=
  (aonAt_congr (aon_of_rest (L := [.regs]) (rest_flag (by decide) ..) (by decide)) k).trans (aonAt_aonAdd_ne _ 1 hk)

omit hk in
theorem aonAt_logRoom (b : Blk) : aonAt b.logRoom k = aonAt b k :=
  aonAt_congr (aon_of_rest (L := [.rings]) (rest_logRoom (by decide) b) (by decide)) k

omit hk in
theorem aonAt_logPut {b : Blk} (h : b.rings.log.ext = none) (bs : Bytes) : aonAt (b.logPut bs).2 k = aonAt b k := by
  unfold Blk.logPut
  rw [h]
  rfl

omit hk in
theorem aonAt_logCatch {b : Blk} (h : b.rings.log.ext = none) : aonAt b.logCatch k = aonAt b k := by
  unfold Blk.logCatch
  split
  · rfl
  · dsimp only
    split
    · exact aonAt_logPut h _
    · exact aonAt_logPut h _

theorem aonAt_logRing {b : Blk} (h : b.rings.log.ext = none) (r : LogRec) : aonAt (b.logRing r) k = aonAt b k := by
  have hroom := offPool_logRoom b
  have hcatch := offPool_trans hroom (offPool_logCatch (hroom.log.trans h))
  have hall := offPool_trans hcatch (offPool_logRoom _)
  have hsame : aonAt b.logRoom.logCatch.logRoom k = aonAt b k :=
    (aonAt_logRoom _).trans ((aonAt_logCatch (hroom.log.trans h)).trans (aonAt_logRoom b))
  have hput := (aonAt_logPut (k := k) (hall.log.trans h) r.bytes).trans hsame
  unfold Blk.logRing
  dsimp only
  split
  · exact (aonAt_logLose hk _).trans hsame
  · split
    · exact hput
    · exact (aonAt_logLose hk _).trans hput

/-- A record in a log outside the pool counts its loss at most. -/
theorem aonAt_log {b : Blk} (h : b.rings.log.ext = none) (code unit part a bb flags : Nat) :
    aonAt (b.log code unit part a bb flags) k = aonAt b k := by
  unfold Blk.log Blk.logRaise
  split
  · exact aonAt_logRing hk h _
  · split
    · rfl
    · exact aonAt_logLose hk b

end

/-! ### A codeword corrected -/

theorem quietBit_hskErr (c i : Nat) : QuietBit (Reg.hskErr c) i where
  refuse k _ := by simp only [Reg.hskErr, Reg.haRefuseCnt]; omega
  retry := by simp only [Reg.hskErr, Reg.hubRetryCnt]; omega
  lossCnt := by simp only [Reg.hskErr, Reg.obsTraceLossCnt]; omega
  revoked k _ := .inl (by simp only [Reg.hskErr, Reg.haErr]; omega)
  hold := .inl (by simp only [Reg.hskErr, Reg.pwrErr]; omega)
  logLost := .inl (by simp only [Reg.hskErr, Reg.obsErr]; omega)
  traceLost := .inl (by simp only [Reg.hskErr, Reg.obsErr]; omega)

theorem quietBit_grnErr (q i : Nat) : QuietBit (Reg.grnErr q) i where
  refuse k _ := by simp only [Reg.grnErr, Reg.haRefuseCnt]; omega
  retry := by simp only [Reg.grnErr, Reg.hubRetryCnt]; omega
  lossCnt := by simp only [Reg.grnErr, Reg.obsTraceLossCnt]; omega
  revoked k _ := .inl (by simp only [Reg.grnErr, Reg.haErr]; omega)
  hold := .inl (by simp only [Reg.grnErr, Reg.pwrErr]; omega)
  logLost := .inl (by simp only [Reg.grnErr, Reg.obsErr]; omega)
  traceLost := .inl (by simp only [Reg.grnErr, Reg.obsErr]; omega)

theorem joinLanes_single (x : LaneIx) : joinLanes [x.val] [] = [x.val] := by
  revert x
  decide

theorem joinLanes_pair {x y : LaneIx} (h : x ≠ y) : ∃ a b, joinLanes [x.val, y.val] [] = [a, b] := by
  have hlen : ∀ x y : LaneIx, x ≠ y → (joinLanes [x.val, y.val] []).length = 2 := by decide
  exact List.length_eq_two.mp (hlen x y h)

/-- The block in which the correction of a Husk codeword has been counted and logged. -/
def corrNoted (b : Blk) (c line lane : Nat) : Blk :=
  ((((b.incr (Reg.hskCeCnt c)).flag (Reg.hskErr c) 0).aonAdd 204 1).event (36 + c) 4 none).logHusk 0x07 c line (some lane)

/-- What the correction of a codeword leaves: the lines, an error bit set, and one more correction counted. -/
structure Corrected (x y : Blk) (wd : Nat) : Prop where
  lines : SameLines x y
  flagged : (y.reg wd).getLsbD 0 = true
  counted : aonAt y 204 = min (aonAt x 204 + 1) (2 ^ 64 - 1)

theorem Corrected.after {x y z : Blk} {wd : Nat} (hl : SameLines x y) (ha : aonAt y 204 = aonAt x 204) (h : Corrected y z wd) :
    Corrected x z wd :=
  ⟨sameLines_trans hl h.lines, h.flagged, by rw [h.counted, ha]⟩

theorem Corrected.then {x y z : Blk} {wd : Nat} (h : Corrected x y wd) (hl : SameLines y z) (hr : bitAt z wd 0 = bitAt y wd 0)
    (ha : aonAt z 204 = aonAt y 204) : Corrected x z wd :=
  ⟨sameLines_trans h.lines hl, hr.trans h.flagged, by rw [ha, h.counted]⟩

theorem corrNoted_spec {b : Blk} (hlog : b.rings.log.ext = none) (c line lane : Nat) :
    Corrected b (corrNoted b c line lane) (Reg.hskErr c) ∧ (corrNoted b c line lane).chans = b.chans := by
  have hcount : rest [.regs, .aon, .pcs] ((((b.incr (Reg.hskCeCnt c)).flag (Reg.hskErr c) 0).aonAdd 204 1).event (36 + c) 4 none) =
      rest [.regs, .aon, .pcs] b := by
    rw [rest_event (by decide), rest_aonAdd (by decide), rest_flag (by decide), rest_incr (by decide)]
  have hbit : bitAt ((((b.incr (Reg.hskCeCnt c)).flag (Reg.hskErr c) 0).aonAdd 204 1).event (36 + c) 4 none) (Reg.hskErr c) 0 = true := by
    rw [bitAt_event, bitAt_aonAdd]
    exact bit_reg_flag _ _ _ (by decide)
  have haon : aonAt ((((b.incr (Reg.hskCeCnt c)).flag (Reg.hskErr c) 0).aonAdd 204 1).event (36 + c) 4 none) 204 =
      min (aonAt b 204 + 1) (2 ^ 64 - 1) := by
    rw [aonAt_event, aonAt_aonAdd_self]
    rfl
  unfold corrNoted Blk.logHusk
  generalize (((b.incr (Reg.hskCeCnt c)).flag (Reg.hskErr c) 0).aonAdd 204 1).event (36 + c) 4 none = y at hcount hbit haon ⊢
  have hext : y.rings.log.ext = none := by rw [rings_of_rest hcount (by decide)]; exact hlog
  have hoff (code unit part a bb flags : Nat) := offPool_log hext code unit part a bb flags
  have hlines : SameLines b y := sameLines_of_frame (onlyBlk_of_rest hcount) (by decide) (by decide) (by decide)
  refine ⟨⟨sameLines_trans hlines (sameLines_of_offPool (hoff ..)), ?_, ?_⟩, ?_⟩
  · exact (qbit_log (quietBit_hskErr c 0) ..).trans hbit
  · exact (aonAt_log (by decide) hext ..).trans haon
  · exact (chans_of_rest (hoff ..).rest (by decide)).trans (chans_of_rest hcount (by decide))

theorem corrected_flag {x y : Blk} {c : Nat} (h : Corrected x y (Reg.hskErr c)) (i : Nat) (hi : 0 ≠ i) :
    Corrected x (y.flag (Reg.hskErr c) i) (Reg.hskErr c) :=
  h.then (sameLines_of_frame (l := [.regs]) (onlyBlk_of_rest (rest_flag (by decide) ..)) (by decide) (by decide) (by decide))
    (bitAt_flag (.inr hi) y) rfl

theorem corrected_modHusk {x y : Blk} {wd : Nat} (h : Corrected x y wd) (c : Nat) (f : HuskChan → HuskChan) (hl : ∀ h, (f h).lost = h.lost)
    (hr : ∀ h, (f h).rebuilding = h.rebuilding) (hc : ∀ h, (f h).cursor = h.cursor) (hv : ∀ h, (f h).void = h.void) :
    Corrected x (y.modHusk c f) wd :=
  h.then (sameLines_modHusk y c f hl hr hc hv)
    (bitAt_of_regs (regs_of_rest (L := [.chans]) (rest_modHusk (by decide) ..) (by decide)) wd 0) rfl

/-- A channel noting that a device has corrected a line more stores what it stored. -/
theorem corrected_huskSet {x y : Blk} {wd : Nat} (h : Corrected x y wd) (c : Nat) (corr : List (Nat × Nat × Nat)) :
    Corrected x (y.modHusk c (fun _ => { y.husk c with corr := corr })) wd := by
  have heq : y.modHusk c (fun _ => { y.husk c with corr := corr }) = y.modHusk c (fun h => { h with corr := corr }) := by
    simp [Blk.modHusk, Blk.husk, tmod]
  rw [heq]
  exact corrected_modHusk h c _ (fun _ => rfl) (fun _ => rfl) (fun _ => rfl) (fun _ => rfl)

/-- A codeword corrected on a rank without a marked device. -/
theorem huskCorr_spec {b : Blk} (hlog : b.rings.log.ext = none) {c rank : Nat} (hmark : b.markOf c rank = none) (line lane : Nat) :
    Corrected b (b.huskCorr c line rank lane) (Reg.hskErr c) := by
  obtain ⟨hnoted, hchans⟩ := corrNoted_spec hlog c line lane
  have hmarks : mget ((corrNoted b c line lane).husk c).marks rank = none := by
    rw [Blk.husk, hchans]
    exact hmark
  unfold corrNoted at hnoted hmarks
  unfold Blk.huskCorr
  dsimp only
  generalize ((((b.incr (Reg.hskCeCnt c)).flag (Reg.hskErr c) 0).aonAdd 204 1).event (36 + c) 4 none).logHusk 0x07 c line (some lane) = y
    at hnoted hmarks ⊢
  have hset := corrected_huskSet hnoted c ((y.husk c).corr ++ [(rank, lane, line)])
  split
  · exact hnoted
  · split
    · exact hset
    · rw [hmarks]
      refine corrected_flag (corrected_modHusk hset c _ ?_ ?_ ?_ ?_) 6 (by decide) <;> exact fun _ => rfl

theorem aonAt_huskOp {c : Nat} (hc : c < 24) (b : Blk) (code part : Nat) : aonAt (b.huskOp c code part) 204 = aonAt b 204 := by
  unfold Blk.huskOp
  dsimp only
  refine (aonAt_congr (aon_of_rest (L := [.chans]) (rest_modHusk (by decide) ..) (by decide)) 204).trans ?_
  rw [aonAt_event, aonAt_aonAdd_ne _ 1 (by omega)]
  rfl

theorem husk_huskOp_marks (b : Blk) (c code part : Nat) : ((b.huskOp c code part).husk c).marks = (b.husk c).marks := by
  unfold Blk.huskOp
  dsimp only
  rw [Blk.husk_modHusk_self]
  have hchans := chans_of_rest (L := [.pool, .aon, .pcs]) (x := (({ b with pool.used := tmod (fun _ => 0) b.pool.used (opsKey c) (· + 1) } :
    Blk).aonAdd (120 + c) 1).event (36 + c) code (some part)) (y := b) (by
      rw [rest_event (by decide), rest_aonAdd (by decide)]; exact rest_with_pool (by decide) ..) (by decide)
  generalize (({ b with pool.used := tmod (fun _ => 0) b.pool.used (opsKey c) (· + 1) } : Blk).aonAdd (120 + c) 1).event (36 + c) code (some part) = y
    at hchans
  split <;> simp only [Blk.husk, hchans]

theorem readAt_of_decoded {b y : Blk} {c line rank part : Nat} {lanes : List Nat} (h : b.decodeAt c line rank lanes part = (false, y)) :
    b.readAt c line rank lanes part = (false, y) := by
  unfold Blk.readAt
  rw [h]
  rfl

/-- A codeword without an injected error, wrong in one lane of a rank without a marked device, is corrected. -/
theorem readAt_corrects {b : Blk} (hlog : b.rings.log.ext = none) {c line rank : Nat} (hc : c < 24) (hinj : b.pool.inj = [])
    (hmark : b.markOf c rank = none) (x : LaneIx) (part : Nat) :
    Corrected b (b.readAt c line rank [x.val] part).2 (Reg.hskErr c) := by
  have hdec : b.decodeAt c line rank [x.val] part = (false, ((b.clearAt c line).huskOp c 2 part).huskCorr c line rank x.val) := by
    unfold Blk.decodeAt
    rw [lanesAt_sound hinj, joinLanes_single, hmark]
    rfl
  have hclear : SameLines b (b.clearAt c line) ∧ rest [.pool] (b.clearAt c line) = rest [.pool] b := by
    unfold Blk.clearAt
    split
    · exact ⟨⟨⟨rfl, fun _ => rfl, fun _ => rfl, fun _ => rfl, fun _ => rfl, rfl, rfl, rfl⟩, rfl, rfl, rfl, rfl, rfl, rfl, rfl⟩,
        rest_with_pool (by decide) ..⟩
    · exact ⟨sameLines_refl b, rfl⟩
  have hop := sameLines_trans hclear.1 (sameLines_huskOp (b.clearAt c line) c 2 part)
  have hmark2 : ((b.clearAt c line).huskOp c 2 part).markOf c rank = none := by
    rw [Blk.markOf, husk_huskOp_marks, Blk.husk, chans_of_rest hclear.2 (by decide)]
    exact hmark
  have hlog2 : ((b.clearAt c line).huskOp c 2 part).rings.log.ext = none := by
    rw [rings_of_rest (L := lineOpRegions) (rest_huskOp (by decide) (by decide) (by decide) (by decide) ..) (by decide),
      rings_of_rest hclear.2 (by decide)]
    exact hlog
  have haon : aonAt ((b.clearAt c line).huskOp c 2 part) 204 = aonAt b 204 := by
    rw [aonAt_huskOp hc, aonAt_congr (aon_of_rest hclear.2 (by decide))]
  rw [readAt_of_decoded hdec]
  dsimp only
  generalize (b.clearAt c line).huskOp c 2 part = y at hop hmark2 hlog2 haon
  exact Corrected.after hop haon (huskCorr_spec hlog2 hmark2 line x.val)

/-! ### A line of the Grain tier corrected -/

theorem lineVal_putCopy_grain {b : Blk} {l : Nat} (h : b.inGrain l = true) :
    (b.putCopy .grain l (b.copyBytes .grain l) (b.copyMeta .grain l)).lineVal l = b.lineVal l := by
  have hways := sameWays_putCopy b .grain l (b.copyBytes .grain l) (b.copyMeta .grain l)
  have hsrc := source_grain.mp (show (b.putCopy .grain l (b.copyBytes .grain l) (b.copyMeta .grain l)).inGrain l = true by
    rw [inGrain_congr hways, h])
  have hlen : (b.copyBytes .grain l).length = 128 := by simp [Blk.copyBytes, cread]
  simp only [Blk.lineVal, hsrc, source_grain.mp h, copyMeta_putCopy, copyBytes_putCopy, slotBad_congr hways, and_self, if_true, copyMetaOf,
    fit_of_length hlen]

theorem grainPos_chan (l f : Nat) : (grainPos l f).1 / 32 = homeOf l := by
  simp only [grainPos]
  omega

theorem aonAt_countGrain (b : Blk) (l code part : Nat) : aonAt (b.countGrain l code part) 204 = aonAt b 204 := by
  have hq := homeOf_lt l
  rw [Blk.countGrain, aonAt_event, aonAt_aonAdd_ne _ 1 (by omega)]

theorem sameLines_modGrain (b : Blk) (c : Nat) (f : GrainChan → GrainChan) : SameLines b (b.modGrain c f) :=
  ⟨⟨rfl, fun _ => rfl, fun _ => rfl, fun _ => rfl, fun _ => rfl, rfl, rfl, rfl⟩, rfl, rfl, rfl, rfl, rfl, rfl, rfl⟩

theorem grainFix_spec (b : Blk) (ch line : Nat) : Corrected b (b.grainFix ch line) (Reg.grnErr (ch / 32)) := by
  have hcount : rest [.regs, .aon] ((((b.incr (Reg.grnCeCnt (ch / 32))).flag (Reg.grnErr (ch / 32)) 0).aonAdd 204 1)) = rest [.regs, .aon] b := by
    rw [rest_aonAdd (by decide), rest_flag (by decide), rest_incr (by decide)]
  have hcorr : Corrected b (((b.incr (Reg.grnCeCnt (ch / 32))).flag (Reg.grnErr (ch / 32)) 0).aonAdd 204 1) (Reg.grnErr (ch / 32)) :=
    ⟨sameLines_of_frame (onlyBlk_of_rest hcount) (by decide) (by decide) (by decide), bit_reg_flag _ _ _ (by decide),
      aonAt_aonAdd_self _ _ _⟩
  unfold Blk.grainFix
  dsimp only
  generalize ((b.incr (Reg.grnCeCnt (ch / 32))).flag (Reg.grnErr (ch / 32)) 0).aonAdd 204 1 = y at hcorr ⊢
  exact hcorr.then (sameLines_modGrain y ch _) rfl rfl

theorem grainCorr_spec {b : Blk} (hlog : b.rings.log.ext = none) (ch line l lane : Nat) :
    Corrected b (b.grainCorr ch line l lane) (Reg.grnErr (ch / 32)) := by
  have hfix := grainFix_spec b ch line
  have hext : (b.grainFix ch line).rings.log.ext = none := by
    rw [rings_of_rest (L := [.regs, .aon, .chans]) (rest_grainFix (by decide) (by decide) (by decide) ..) (by decide)]
    exact hlog
  unfold Blk.grainCorr Blk.logGrain
  generalize b.grainFix ch line = y at hfix hext ⊢
  exact hfix.then (sameLines_of_offPool (offPool_log hext ..)) (qbit_log (quietBit_grnErr _ 0) ..) (aonAt_log (by decide) hext ..)

/-- A Grain line without an injected error, wrong in one lane, is corrected. -/
theorem readGrainCopy_corrects {b : Blk} (hlog : b.rings.log.ext = none) {l : Nat} (hinj : b.pool.inj = []) (hg : b.inGrain l = true)
    (x : LaneIx) (part : Nat) (t : Blk) (ht : t = (b.readGrainCopy l [x.val] part).2) :
    t.lineVal l = b.lineVal l ∧ (t.reg (Reg.grnErr (homeOf l))).getLsbD 0 = true ∧ aonAt t 204 = min (aonAt b 204 + 1) (2 ^ 64 - 1) := by
  have hdec : (b.readGrainCopy l [x.val] part).2 = ((b.putCopy .grain l (b.copyBytes .grain l) (b.copyMeta .grain l)).countGrain l 2 part).grainCorr
      (grainPos l ((mget b.pool.frames (granOf l)).getD 0)).1 (grainPos l ((mget b.pool.frames (granOf l)).getD 0)).2 l x.val := by
    have hl : decodeLanes (joinLanes [x.val] (b.copyLanes .grain l)) none = .corr x.val := by
      rw [copyLanes_sound hinj, joinLanes_single]
      rfl
    unfold Blk.readGrainCopy
    simp only [hl]
  have hval := lineVal_putCopy_grain hg
  have hrest : rest [.pool] (b.putCopy .grain l (b.copyBytes .grain l) (b.copyMeta .grain l)) = rest [.pool] b := rest_putCopy (by decide) ..
  rw [hdec] at ht
  generalize b.putCopy .grain l (b.copyBytes .grain l) (b.copyMeta .grain l) = y at hval hrest ht
  have hlines := sameLines_countGrain y l 2 part
  have haon := aonAt_countGrain y l 2 part
  have hext : (y.countGrain l 2 part).rings.log.ext = none := by
    rw [rings_of_rest (L := [.aon, .pcs]) (rest_countGrain (by decide) (by decide) ..) (by decide), rings_of_rest hrest (by decide)]
    exact hlog
  generalize y.countGrain l 2 part = z at hlines haon hext ht
  have hcorr := grainCorr_spec hext (grainPos l ((mget b.pool.frames (granOf l)).getD 0)).1
    (grainPos l ((mget b.pool.frames (granOf l)).getD 0)).2 l x.val
  rw [grainPos_chan] at hcorr
  subst ht
  refine ⟨(lineVal_congr (sameLines_trans hlines hcorr.lines) l).trans hval, hcorr.flagged, ?_⟩
  rw [hcorr.counted, haon, aonAt_congr (aon_of_rest hrest (by decide))]

/-! ### A line poisoned in mode NONE -/

theorem lineVal_putHusk_poisoned {b : Blk} {l : Nat} (hg : b.inGrain l = false) (bs : Bytes) {m : LineMeta} (hp : m.poison = true) :
    (b.putHusk l bs m).lineVal l = (zeros 128, true) := by
  have hways := sameWays_putHusk b l bs m
  have hg' : (b.putHusk l bs m).inGrain l = false := by rw [inGrain_congr hways, hg]
  unfold Blk.lineVal
  split
  · next c hc =>
    have htakes : huskTakes b l c = true := by
      have := huskTakes_of_source hc hg'
      cases c <;> simpa only [huskTakes, takesA_congr hways, aliveB_congr hways] using this
    have hbad : ((b.putHusk l bs m).copyMeta c l).poison = true := by
      rw [copyMeta_putHusk, if_pos ⟨htakes, rfl⟩]
      exact hp
    simp only [hbad, Bool.true_or, if_true]
  · rfl

theorem inGrain_of_pool {x y : Blk} (h : y.pool = x.pool) (l : Nat) : y.inGrain l = x.inGrain l := by
  rw [Blk.inGrain, h, Blk.inGrain]

theorem bitAt_flag_mono {b : Blk} {wd i : Nat} (off k : Nat) (h : bitAt b wd i = true) : bitAt (b.flag off k) wd i = true := by
  by_cases hw : wd = off
  · subst hw
    exact bit_reg_flag_mono b k h
  · rw [bitAt_flag (.inl hw)]
    exact h

/-- Channels that flag a line of theirs poisoned. -/
theorem poisonFlags_spec (cs : List Nat) (b : Blk) {wd i : Nat} (h : bitAt b wd i = true) :
    bitAt (cs.foldl (fun b c => b.flag (Reg.hskErr c) 2) b) wd i = true ∧
      rest [.regs] (cs.foldl (fun b c => b.flag (Reg.hskErr c) 2) b) = rest [.regs] b := by
  refine ⟨?_, rest_foldl (fun b c => rest_flag (by decide) ..) cs b⟩
  induction cs generalizing b with
  | nil => exact h
  | cons c cs ih => exact ih _ (bitAt_flag_mono _ _ h)

/-- A message sent leaves a register that no message without a route counts in. -/
theorem reg_send {wd : Nat} (hcnt : ∀ q, wd ≠ Reg.nrmDropNorouteCnt q) (herr : ∀ q, wd ≠ Reg.nrmRtErr q) (b : Blk) (q : Nat) (m : Msg) :
    (b.send q m).2.reg wd = b.reg wd := by
  unfold Blk.send
  dsimp only
  split
  · rfl
  · split
    · rw [Blk.noRoute, Blk.flag, Blk.reg_setReg_ne _ _ _ _ (herr q), reg_incr_ne b (hcnt q)]
    · rfl

theorem reg_mirrorPoison {wd : Nat} (hcnt : ∀ q, wd ≠ Reg.nrmDropNorouteCnt q) (herr : ∀ q, wd ≠ Reg.nrmRtErr q) (b : Blk) (l : Nat) :
    (b.mirrorPoison l).reg wd = b.reg wd := by
  have hown (m : Msg) (q : Nat) : (b.sendOwn q m).2.reg wd = b.reg wd := by
    unfold Blk.sendOwn
    refine (reg_send hcnt herr ..).trans (reg_congr (regs_of_rest (L := [.fab]) (rest_newTrace (by decide) b) (by decide)) wd)
  unfold Blk.mirrorPoison
  split
  · exact hown _ _
  · rfl

/-- A line poisoned that no frame serves. -/
theorem poisonLine_spec {b : Blk} (hlog : b.rings.log.ext = none) {l : Nat} (hg : b.inGrain l = false) (part : Nat) {c i : Nat}
    (hbit : bitAt b (Reg.hskErr c) i = true) :
    (b.poisonLine l part).lineVal l = (zeros 128, true) ∧ bitAt (b.poisonLine l part) (Reg.hskErr c) i = true := by
  let m : LineMeta := { { b.lineMeta l with poison := true, wepoch := (b.lineMeta l).wepoch + 1 } with dirty := false }
  have heq : b.poisonLine l part =
      ((((if (b.dataChans l).isEmpty then b.checkStores l else b.dataChans l).foldl (fun b c => b.flag (Reg.hskErr c) 2)
        ((b.putHusk l (zeros 128) m).countHusk l 2 part)).mirrorPoison l).log 0x0B 0xFF (b.partOf l) (l * 128) 0 (b.injFlag l)) := by
    unfold Blk.poisonLine
    simp only [hg, Bool.false_and, Bool.false_eq_true, if_false, m]
  have hval : (b.putHusk l (zeros 128) m).lineVal l = (zeros 128, true) := lineVal_putHusk_poisoned hg _ rfl
  have hput : rest [.pool] (b.putHusk l (zeros 128) m) = rest [.pool] b := rest_putHusk (by decide) ..
  rw [heq]
  generalize b.putHusk l (zeros 128) m = y at hval hput ⊢
  have hops := sameLines_countHusk y l 2 part
  have hopsRest : rest lineOpRegions (y.countHusk l 2 part) = rest lineOpRegions b :=
    (rest_countHusk (by decide) (by decide) (by decide) (by decide) ..).trans
      (rest_of_onlyBlk (onlyBlk_mono (by decide) (onlyBlk_of_rest hput)))
  generalize y.countHusk l 2 part = z at hops hopsRest ⊢
  have hz : bitAt z (Reg.hskErr c) i = true := (bitAt_of_regs (regs_of_rest hopsRest (by decide)) ..).trans hbit
  obtain ⟨hbits, hflags⟩ := poisonFlags_spec (if (b.dataChans l).isEmpty then b.checkStores l else b.dataChans l) z hz
  generalize (if (b.dataChans l).isEmpty then b.checkStores l else b.dataChans l).foldl (fun b c => b.flag (Reg.hskErr c) 2) z = u
    at hbits hflags ⊢
  have hmir : rest [.regs, .fab, .pair] (u.mirrorPoison l) = rest [.regs, .fab, .pair] u := rest_mirrorPoison (by decide) (by decide) (by decide) ..
  have hmirBit : bitAt (u.mirrorPoison l) (Reg.hskErr c) i = true := by
    rw [bitAt, reg_mirrorPoison]
    · exact hbits
    · intro q
      simp only [Reg.hskErr, Reg.nrmDropNorouteCnt]
      omega
    · intro q
      simp only [Reg.hskErr, Reg.nrmRtErr]
      omega
  generalize u.mirrorPoison l = v at hmir hmirBit ⊢
  have hext : v.rings.log.ext = none := by
    rw [rings_of_rest hmir (by decide), rings_of_rest hflags (by decide), rings_of_rest hopsRest (by decide)]
    exact hlog
  refine ⟨?_, (qbit_log (quietBit_hskErr c i) ..).trans hmirBit⟩
  rw [lineVal_congr (sameLines_of_offPool (offPool_log hext ..)),
    lineVal_congr (sameLines_of_frame (onlyBlk_of_rest hmir) (by decide) (by decide) (by decide)),
    lineVal_congr (sameLines_of_frame (onlyBlk_of_rest hflags) (by decide) (by decide) (by decide)), lineVal_congr hops, hval]

/-- A channel lost in mode NONE leaves the pool and the error bits of its word. -/
theorem loseChannel_spec {b : Blk} (hlog : b.rings.log.ext = none) (hmode : b.mode < 2) (c cause : Nat) {i : Nat} (hi : i ≠ 7) :
    (b.loseChannel c cause).rings.log.ext = none ∧ (b.loseChannel c cause).str = b.str ∧ (b.loseChannel c cause).pool = b.pool ∧
      bitAt (b.loseChannel c cause) (Reg.hskErr c) i = bitAt b (Reg.hskErr c) i := by
  cases hlost : (b.husk c).lost with
  | true =>
    have heq : b.loseChannel c cause = b := by simp [Blk.loseChannel, hlost]
    rw [heq]
    exact ⟨hlog, rfl, rfl, rfl⟩
  | false =>
    have honly := onlyBlk_lostChannel b c cause
    have hpool := pool_lostChannel c cause hmode
    have hbit : bitAt (lostChannel b c cause) (Reg.hskErr c) i = bitAt b (Reg.hskErr c) i := by
      unfold lostChannel
      dsimp only
      rw [bitAt_flag (.inr hi), if_pos hmode, List.foldl_nil, markVoid_of_mode c (by exact hmode)]
      rfl
    rw [loseChannel_eq cause hlost]
    generalize lostChannel b c cause = y at honly hpool hbit ⊢
    have hrings : y.rings = b.rings := honly .rings (by decide)
    have hext : y.rings.log.ext = none := by rw [hrings]; exact hlog
    have hoff := offPool_log hext 0x10 (36 + c) 0 c cause 0
    exact ⟨hoff.log.trans hext, (str_of_rest hoff.rest (by decide)).trans (honly .str (by decide)),
      (pool_of_rest hoff.rest (by decide)).trans hpool, (qbit_log (quietBit_hskErr c i) ..).trans hbit⟩

/-- What a codeword that does not decode leaves of a pool in mode NONE: its lines' places, and the error bit set. -/
theorem huskUnc_spec {b : Blk} (hlog : b.rings.log.ext = none) (hmode : b.mode = 0) (c line : Nat) :
    (b.huskUnc c line).rings.log.ext = none ∧ (b.huskUnc c line).str = b.str ∧ (b.huskUnc c line).pool = b.pool ∧
      bitAt (b.huskUnc c line) (Reg.hskErr c) 1 = true := by
  let y := (((b.incr (Reg.hskUeCnt c)).flag (Reg.hskErr c) 1).aonAdd 205 1).modHusk c
    (fun h => { h with uncorr := (h.uncorr.filter (fun e => b.tb ≤ e.1 + 1000000000)) ++ [(b.tb, line)] })
  have hrest : rest [.regs, .aon, .chans] y = rest [.regs, .aon, .chans] b := by
    rw [rest_modHusk (by decide), rest_aonAdd (by decide), rest_flag (by decide), rest_incr (by decide)]
  have hbit : bitAt y (Reg.hskErr c) 1 = true := by
    have hmod : bitAt y (Reg.hskErr c) 1 = bitAt (((b.incr (Reg.hskUeCnt c)).flag (Reg.hskErr c) 1).aonAdd 205 1) (Reg.hskErr c) 1 :=
      bitAt_of_regs (regs_of_rest (L := [.chans]) (rest_modHusk (by decide) ..) (by decide)) ..
    rw [hmod, bitAt_aonAdd]
    exact bit_reg_flag _ _ _ (by decide)
  have heq : b.huskUnc c line = if 8 < within1s (y.husk c).uncorr b.tb then y.loseChannel c 2 else y := rfl
  rw [heq]
  generalize y = u at hrest hbit ⊢
  have hkept@⟨huext, hustr, hupool, hubit⟩ : u.rings.log.ext = none ∧ u.str = b.str ∧ u.pool = b.pool ∧ bitAt u (Reg.hskErr c) 1 = true :=
    ⟨by rw [rings_of_rest hrest (by decide)]; exact hlog, str_of_rest hrest (by decide), pool_of_rest hrest (by decide), hbit⟩
  split
  · have hu : u.mode < 2 := by rw [Blk.mode, hustr, ← Blk.mode, hmode]; decide
    obtain ⟨hext, hstr, hpool, hflag⟩ := loseChannel_spec huext hu c 2 (i := 1) (by decide)
    exact ⟨hext, hstr.trans hustr, hpool.trans hupool, hflag.trans hubit⟩
  · exact hkept

theorem readStook_none {b : Blk} (hmode : b.mode = 0) (c line part : Nat) : b.readStook c line part = (b, []) := by
  unfold Blk.readStook Blk.stookOf
  rw [hmode]
  simp

theorem settleUnc_none {b : Blk} (hmode : b.mode = 0) {c line l : Nat} (hdata : huskHolds 0 c line = .data l) (part : Nat) :
    b.settleUnc c line [c] part = (b.clearAt c line).poisonLine l part := by
  have hmany : ¬ b.goneAt c line + ([c].filter (fun k => b.stored k line)).length ≤ (b.stookOf c).2 := by
    cases hs : b.stored c line <;> simp [Blk.goneAt, Blk.stookOf, hmode, hs]
  unfold Blk.settleUnc
  dsimp only
  rw [if_neg hmany]
  simp [hmode, hdata]

/-- A codeword without an injected error, wrong in two lanes of a rank without a marked device, is lost in mode NONE. -/
theorem readAt_poisons {b : Blk} (hlog : b.rings.log.ext = none) (hmode : b.mode = 0) {c line rank l : Nat} (hinj : b.pool.inj = [])
    (hmark : b.markOf c rank = none) {x y : LaneIx} (hne : x ≠ y) (hdata : huskHolds 0 c line = .data l) (hg : b.inGrain l = false)
    (part : Nat) (t : Blk) (ht : t = (b.readAt c line rank [x.val, y.val] part).2) :
    t.lineVal l = (zeros 128, true) ∧ (t.reg (Reg.hskErr c)).getLsbD 1 = true := by
  obtain ⟨hext, hstr, hpool, hbit⟩ := huskUnc_spec hlog hmode c line
  have hdec : b.decodeAt c line rank [x.val, y.val] part = (true, b.huskUnc c line) := by
    obtain ⟨i, j, hij⟩ := joinLanes_pair hne
    unfold Blk.decodeAt
    rw [lanesAt_sound hinj, hij, hmark]
    rfl
  have hread : (b.readAt c line rank [x.val, y.val] part).2 = ((b.huskUnc c line).clearAt c line).poisonLine l part := by
    have hmode' : (b.huskUnc c line).mode = 0 := by rw [Blk.mode, hstr, ← Blk.mode, hmode]
    unfold Blk.readAt
    rw [hdec]
    generalize b.huskUnc c line = u at hmode' ⊢
    dsimp only
    rw [if_pos rfl, readStook_none hmode']
    exact settleUnc_none hmode' hdata part
  rw [hread] at ht
  generalize b.huskUnc c line = u at hext hstr hpool hbit ht
  have hclear : rest [.pool] (u.clearAt c line) = rest [.pool] u ∧ (u.clearAt c line).inGrain l = u.inGrain l := by
    unfold Blk.clearAt
    split
    · exact ⟨rest_with_pool (by decide) .., rfl⟩
    · exact ⟨rfl, rfl⟩
  obtain ⟨hrest, hgrain⟩ := hclear
  rw [ht]
  refine poisonLine_spec ?_ ?_ part ?_
  · rw [rings_of_rest hrest (by decide)]; exact hext
  · rw [hgrain, inGrain_of_pool hpool, hg]
  · exact (bitAt_of_regs (regs_of_rest hrest (by decide)) ..).trans hbit

/-! ### The settled statement -/

/-- Settles O34: one wrong lane is corrected on either tier, and two lose a line of mode NONE. -/
theorem readErrorsAreCorrectedOrPoisoned : Obligations.ReadErrorsAreCorrectedOrPoisoned := by
  unfold Obligations.ReadErrorsAreCorrectedOrPoisoned
  refine ⟨?_, ?_, ?_⟩
  · intro s c line l rank x hup hl hapart hst hin _ _ hinj hmark
    refine does_of_live (f := fun b => huskLineRead b c line rank [x.val]) rfl hup ?_
    have heq : huskLineRead s.blk c line rank [x.val] =
        (s.blk.readAt c line rank [x.val] (s.blk.partOf (s.blk.lineAtChan c line))).2 := if_neg (by simp [hup, hl, hst, hin])
    have hcorr := readAt_corrects hapart.1 c.isLt hinj hmark x (s.blk.partOf (s.blk.lineAtChan c line)) (line := line)
    rw [heq]
    exact ⟨lineVal_congr hcorr.lines l, hcorr.flagged, hcorr.counted⟩
  · intro s c line l rank x y hup hl hapart hmode hst hin hdata _ hinj hmark hne hg
    refine does_of_live (f := fun b => huskLineRead b c line rank [x.val, y.val]) rfl hup ?_
    exact readAt_poisons hapart.1 hmode hinj hmark hne hdata hg _ _ (if_neg (by simp [hup, hl, hst, hin]))
  · intro s ch line q f n g x hup hl hapart hline hframe hgran hg hinj
    refine does_of_live (f := fun b => grainLineRead b ch line [x.val]) rfl hup ?_
    have hread : grainLineRead s.blk ch line [x.val] =
        (s.blk.readGrainCopy (lineOfGran g + n) [x.val] (s.blk.partOf (lineOfGran g + n))).2 := by
      refine (if_neg (by simp [hup, hl, hline])).trans ?_
      unfold Blk.readGrainAt
      simp only [hframe, hgran, hg, if_true, Bool.false_eq_true, if_false]
    exact readGrainCopy_corrects hapart.1 hinj hg x _ _ hread

end Sys2Proof.Proofs
end

/-! ## Zeroing and moving of granules (R85 to R88, R96, R98) -/
section
namespace Sys2Proof.Proofs

open Sys2Proof.Machine

/-! ### Slots taken from allowances (R87) -/

/-- Slots have been taken, and nothing else has changed. -/
def SlotsTaken (x y : Blk) : Prop := ∃ u, y = { x with pool.used := u }

theorem slotsTaken_takeSlot {b b0 : Blk} {key limit : Nat} (h : b.takeSlot key limit = some b0) : SlotsTaken b b0 := by
  unfold Blk.takeSlot at h
  dsimp only at h
  split at h
  · exact ⟨_, (Option.some.inj h).symm⟩
  · cases h

theorem slotsTaken_trans {x y z : Blk} (h : SlotsTaken x y) (k : SlotsTaken y z) : SlotsTaken x z := by
  obtain ⟨u, rfl⟩ := h
  obtain ⟨v, rfl⟩ := k
  exact ⟨v, rfl⟩

theorem slotsTaken_takeSlots {base limit : Nat} (cs : List Nat) {b b0 : Blk} (h : b.takeSlots base limit cs = some b0) : SlotsTaken b b0 := by
  induction cs generalizing b with
  | nil => exact ⟨b.pool.used, (Option.some.inj h).symm⟩
  | cons c cs ih =>
    obtain ⟨b1, h1, h2⟩ := Option.bind_eq_some_iff.mp h
    exact slotsTaken_trans (slotsTaken_takeSlot h1) (ih h2)

theorem slotsTaken_takeZeroSlots {b b0 : Blk} {q l : Nat} {e : ExtEnt} (h : b.takeZeroSlots q l e = some b0) : SlotsTaken b b0 := by
  obtain ⟨b1, h1, h2⟩ := Option.bind_eq_some_iff.mp h
  refine slotsTaken_trans (slotsTaken_takeSlots _ h1) ?_
  split at h2
  · exact slotsTaken_takeSlot h2
  · exact ⟨b1.pool.used, (Option.some.inj h2).symm⟩

theorem slotsTaken_takeMigSlots {b b0 : Blk} {l : Nat} {into : Bool} (h : b.takeMigSlots l into = some b0) : SlotsTaken b b0 := by
  obtain ⟨b1, h1, h2⟩ := Option.bind_eq_some_iff.mp h
  exact slotsTaken_trans (slotsTaken_takeSlots _ h1) (slotsTaken_takeSlot h2)

/-! ### Revocations (R96) -/

/-- An extent with its drain started: its revocation goes to the four home agents, and the moves of its granules stop. -/
theorem startDrain_spec {b : Blk} {i : Nat} {e : ExtEnt} (he : b.extEnt i = some e) (hd : b.dying i = false) :
    ((b.startDrain i).extRt i).state = .draining ∧ ((b.startDrain i).extRt i).prior = (b.extRt i).state ∧
      (∀ q, q < 4 → (q, RevokeKey.extent i) ∈ (b.startDrain i).ext.revPend) ∧ (b.startDrain i).hub = b.hub ∧ (b.startDrain i).str = b.str := by
  obtain ⟨k, hset⟩ := extRt_setExt b i (fun r => { r with prior := r.state, state := .draining })
  have hhub := hub_setExt b i (fun r => { r with prior := r.state, state := .draining })
  have hstr := str_setExt b i (fun r => { r with prior := r.state, state := .draining })
  unfold Blk.startDrain
  simp only [he, hd, Bool.false_eq_true, if_false]
  generalize b.setExt i (fun r => { r with prior := r.state, state := .draining }) = y at hset hhub hstr
  have hrt (x : ExtSt) (p : Pool) (h : x.exts = y.ext.exts) : ({ y with ext := x, pool := p } : Blk).extRt i = y.extRt i := by
    simp only [Blk.extRt, h]
  refine ⟨?_, ?_, fun q hq => ?_, hhub, hstr⟩
  · exact congrArg ExtRt.state ((hrt _ _ rfl).trans hset)
  · exact congrArg ExtRt.prior ((hrt _ _ rfl).trans hset)
  · exact mem_foldl_with1 (fun q => (q, RevokeKey.extent i)) _ (List.mem_range.mpr hq)

/-! ### Zeroing of an extent (R98) -/

/-- A line zeroed in both tiers, with the operations of some channels counted. -/
def lineZeroed (b : Blk) (cs : List Nat) (g n : Nat) : Blk :=
  let b1 := (b.zeroHusk (lineOfGran g + n)).huskOps 2 0 cs
  if mhas b1.pool.frames g then b1.zeroGrain (lineOfGran g + n) else b1

theorem rest_lineZeroed (b : Blk) (cs : List Nat) (g n : Nat) : rest lineOpRegions (lineZeroed b cs g n) = rest lineOpRegions b := by
  unfold lineZeroed
  dsimp only
  split <;> simp [Blk.zeroHusk, rest_zeroGrain, rest_huskOps, rest_putHusk, lineOpRegions]

theorem huskTakes_zeroGrain (b : Blk) (l k : Nat) :
    (b.zeroGrain l).copyBytes .huskA k = b.copyBytes .huskA k ∧ (b.zeroGrain l).copyMeta .huskA k = b.copyMeta .huskA k := by
  have hcount := sameLines_countGrain (b.putCopy .grain l (zeros 128) {}) l 2 0
  constructor
  · rw [Blk.zeroGrain, copyBytes_congr hcount, copyBytes_putCopy, if_neg (by simp)]
  · rw [Blk.zeroGrain, copyMeta_congr hcount, copyMeta_putCopy, if_neg (by simp)]

theorem lineZeroed_husk {b : Blk} {g n : Nat} (h : b.aliveA (lineOfGran g + n) = true) (cs : List Nat) :
    (lineZeroed b cs g n).copyBytes .huskA (lineOfGran g + n) = zeros 128 ∧ (lineZeroed b cs g n).copyMeta .huskA (lineOfGran g + n) = {} := by
  have hops := sameLines_huskOps (b.zeroHusk (lineOfGran g + n)) 2 0 cs
  obtain ⟨hbytes, hmeta⟩ := zeroHusk_copyA h
  have hb := (copyBytes_congr hops .huskA (lineOfGran g + n)).trans hbytes
  have hm := (copyMeta_congr hops .huskA (lineOfGran g + n)).trans hmeta
  unfold lineZeroed
  dsimp only
  split
  · exact ⟨(huskTakes_zeroGrain ..).1.trans hb, (huskTakes_zeroGrain ..).2.trans hm⟩
  · exact ⟨hb, hm⟩

theorem lineZeroed_grain {b : Blk} {g : Nat} (n : Nat) (h : mhas b.pool.frames g = true) (cs : List Nat) :
    (lineZeroed b cs g n).copyBytes .grain (lineOfGran g + n) = zeros 128 ∧ (lineZeroed b cs g n).copyMeta .grain (lineOfGran g + n) = {} := by
  have hframes : ((b.zeroHusk (lineOfGran g + n)).huskOps 2 0 cs).pool.frames = b.pool.frames :=
    (sameLines_huskOps _ 2 0 cs).frames.trans (sameWays_putHusk b _ _ _).frames
  unfold lineZeroed
  dsimp only
  rw [if_pos (by rw [hframes]; exact h)]
  exact zeroGrain_copy _ _

theorem extentZeroLine_zeroes {b b0 : Blk} {q i g n : Nat} {e : ExtEnt} (hup : b.dead = false) (hst : (b.extRt i).state = .zeroing)
    (hawake : b.asleep = false) (he : b.extEnt i = some e) (hat : (b.extRt i).zeroAt e q = some (g, n)) (hn : n + 1 < 16384)
    (hslots : b.takeZeroSlots q (lineOfGran g + n) e = some b0) :
    extentZeroLine b q i = (lineZeroed b0 (b.zeroChans e.has (lineOfGran g + n)) g n).modExt i
      (fun r => { r with zeroCur := mput r.zeroCur q (g, n + 1) }) := by
  unfold extentZeroLine
  simp only [hup, hst, hawake, he, hat, hslots, hn, lineZeroed, bne_self_eq_false, Bool.or_false, Bool.false_eq_true, if_false, if_true]

/-- Settles O21: a revocation sends its extent into DRAINING, and a line of one in ZEROING becomes zero in both tiers. -/
theorem revocationDrainsAndZeroes : Obligations.RevocationDrainsAndZeroes := by
  unfold Obligations.RevocationDrainsAndZeroes
  refine ⟨?_, ?_, ?_, ?_, ?_⟩
  · intro s c r e h hi he hd hnew
    refine does_of_live (f := fun b => extentRevoke b c) rfl h.up ?_
    have heq : extentRevoke s.blk c = { (s.blk.startCmd c).startDrain (r.arg 0x08 4) with
        ext.revCmds := s.blk.ext.revCmds ++ [(c, r.arg 0x08 4)] } := by
      rw [extentRevoke, mgmtCmd_of_runs h]
      have hany : s.blk.ext.revCmds.any (fun x => x.1 == c) = false := List.any_eq_false.mpr fun x hx => by simpa using hnew x hx
      simp only [he, hd, Nat.not_lt.mpr hi, hany, Option.isNone_some, Bool.false_eq_true, if_false]
    obtain ⟨hst, hprior, hpend, hhub, hstr⟩ := startDrain_spec (b := s.blk.startCmd c) he hd
    rw [heq]
    generalize (s.blk.startCmd c).startDrain (r.arg 0x08 4) = y at hst hprior hpend hhub hstr ⊢
    exact ⟨hst, hprior, hpend, List.mem_append_right _ (List.mem_singleton.mpr rfl), show y.hub.wins = s.blk.hub.wins by rw [hhub]; rfl, hstr⟩
  · intro s c r h hi he
    refine does_of_live (f := fun b => extentRevoke b c) rfl h.up ?_
    have heq : extentRevoke s.blk c = s.blk.answerCmd c 0x12 [] := by
      rw [extentRevoke, mgmtCmd_of_runs h]
      simp [he, Nat.not_lt.mpr hi]
    rw [heq]
    exact endsOnly_answer h.found h.kept [] 0x12 []
  · intro s c r e h hi he hd
    refine does_of_live (f := fun b => extentRevoke b c) rfl h.up ?_
    have heq : extentRevoke s.blk c = s.blk.answerCmd c 0x16 [] := by
      rw [extentRevoke, mgmtCmd_of_runs h]
      simp [he, hd, Nat.not_lt.mpr hi]
    rw [heq]
    exact endsOnly_answer h.found h.kept [] 0x16 []
  · intro s q i g n e b0 hup hst hawake he hat hn hslots
    refine does_of_live (f := fun b => extentZeroLine b q i) rfl hup ?_
    rw [extentZeroLine_zeroes hup hst hawake he hat hn hslots]
    generalize s.blk.zeroChans e.has (lineOfGran g + n) = cs
    obtain ⟨u, rfl⟩ := slotsTaken_takeZeroSlots hslots
    have hrest := rest_lineZeroed { s.blk with pool.used := u } cs g n
    have hhusk (ha : s.blk.aliveA (lineOfGran g + n) = true) := lineZeroed_husk (b := { s.blk with pool.used := u }) ha cs
    have hgrain (hf : mhas s.blk.pool.frames g = true) := lineZeroed_grain (b := { s.blk with pool.used := u }) n hf cs
    generalize lineZeroed { s.blk with pool.used := u } cs g n = y at hrest hhusk hgrain ⊢
    refine ⟨only_of_blk (onlyBlk_of_rest ?_), ?_, hhusk, hgrain⟩
    · refine (rest_modExt (by decide) ..).trans ((rest_of_onlyBlk (onlyBlk_mono (by decide) (onlyBlk_of_rest hrest))).trans ?_)
      exact rest_with_pool (by decide) ..
    · simp only [extRt_modExt, mget_mput_self]
  · intro s q i hst
    refine stays_of_live (f := fun b => extentZeroLine b q i) rfl fun _ => ?_
    simp [extentZeroLine, hst]

/-! ### Moves and cleaning passes (R85, R88) -/

theorem copyGrain_spec (b : Blk) (l : Nat) (bs : Bytes) (m : LineMeta) (part : Nat) :
    ((b.putCopy .grain l bs m).countGrain l 2 part).copyBytes .grain l = fit 128 bs ∧
      ((b.putCopy .grain l bs m).countGrain l 2 part).copyMeta .grain l = m := by
  have hcount := sameLines_countGrain (b.putCopy .grain l bs m) l 2 part
  exact ⟨by rw [copyBytes_congr hcount, copyBytes_putCopy, if_pos ⟨rfl, rfl⟩],
    by rw [copyMeta_congr hcount, copyMeta_putCopy, if_pos ⟨rfl, rfl⟩]; rfl⟩

theorem length_copyBytes (b : Blk) (c : Copy) (l : Nat) : (b.copyBytes c l).length = 128 := by
  cases c <;> simp [Blk.copyBytes, cread]

/-- A line copied into its frame is clean, and where its copy A is read without an error, its bytes are those of that copy. -/
theorem copyIn_spec (b : Blk) (l : Nat) :
    ((b.copyIn l).copyMeta .grain l).dirty = false ∧ (b.copyIn l).pool.frames = b.pool.frames ∧
      (b.pool.inj = [] → b.aliveA l = true → (b.copyIn l).copyBytes .grain l = b.copyBytes .huskA l) := by
  let x := b.fetchHusk l (b.partOf l)
  let v : Bytes × LineMeta := match x.2.1 with
    | some c => (x.1.copyBytes c l, x.1.copyMeta c l)
    | none => (zeros 128, { poison := true })
  have heq : b.copyIn l = (x.1.putCopy .grain l v.1 { v.2 with dirty := false }).countGrain l 2 (b.partOf l) := rfl
  obtain ⟨hbytes, hmeta⟩ := copyGrain_spec x.1 l v.1 { v.2 with dirty := false } (b.partOf l)
  rw [heq]
  refine ⟨by rw [hmeta], ?_, fun hinj ha => ?_⟩
  · rw [pool_countGrain, frames_putCopy]
    exact frames_fetchHusk ..
  · have hcalm := calm_fetchHusk hinj l (b.partOf l)
    have hcopy : x.2.1 = some .huskA := by
      have : x.1.aliveA l = true := (aliveA_congr hcalm.lines.toSameWays (congrArg (·.contains l) hcalm.lines.revived)).trans ha
      exact if_pos this
    have hv : v.1 = x.1.copyBytes .huskA l := by
      simp only [v]
      rw [hcopy]
    rw [hbytes, hv, fit_of_length (length_copyBytes ..)]
    exact copyBytes_congr hcalm.lines .huskA l

/-- A line's Grain copy read to be written to the Husk tier. -/
def grainRead (b : Blk) (l : Nat) : Blk := ((b.countGrain l 1 (b.partOf l)).readGrainCopy l [] (b.partOf l)).2

/-- A line's Grain copy written to the Husk tier, and clean from then on. -/
def grainCleaned (b : Blk) (l part : Nat) : Blk :=
  let m : LineMeta := { b.copyMeta .grain l with dirty := false }
  ((b.putHusk l (b.copyBytes .grain l) m).countHusk l 2 part).putCopy .grain l (b.copyBytes .grain l) m

theorem copyOut_eq (b : Blk) (l : Nat) : b.copyOut l = grainCleaned (grainRead b l) l (b.partOf l) := rfl

theorem grainRead_sound {b : Blk} (h : b.pool.inj = []) (l : Nat) : grainRead b l = b.countGrain l 1 (b.partOf l) := by
  unfold grainRead
  rw [readGrainCopy_sound ((inj_countGrain b l 1 (b.partOf l)).trans h)]

theorem grainCleaned_spec (b : Blk) (l part : Nat) :
    ((grainCleaned b l part).copyMeta .grain l).dirty = false ∧ (grainCleaned b l part).pool.frames = b.pool.frames ∧
      (b.aliveA l = true → (grainCleaned b l part).copyBytes .huskA l = b.copyBytes .grain l) := by
  unfold grainCleaned
  refine ⟨?_, ?_, fun ha => ?_⟩
  · rw [copyMeta_putCopy, if_pos ⟨rfl, rfl⟩]
    rfl
  · rw [frames_putCopy, frames_countHusk, frames_putHusk]
  · rw [copyBytes_putCopy, if_neg (by simp), copyBytes_congr (sameLines_countHusk ..), copyBytes_putHusk,
      if_pos ⟨takesA_of_aliveA ha, rfl⟩, fit_of_length (length_copyBytes ..)]

/-- A line written from its frame to the Husk tier is clean in its frame, and where its codeword is read without an error, its
copy A holds its bytes. -/
theorem copyOut_spec (b : Blk) (l : Nat) :
    ((b.copyOut l).copyMeta .grain l).dirty = false ∧ (b.copyOut l).pool.frames = b.pool.frames ∧
      (b.pool.inj = [] → b.aliveA l = true → (b.copyOut l).copyBytes .huskA l = b.copyBytes .grain l) := by
  have hframes : (grainRead b l).pool.frames = b.pool.frames := by
    unfold grainRead
    rw [frames_readGrainCopy, pool_countGrain]
  have hlines (hinj : b.pool.inj = []) : SameLines b (grainRead b l) := by
    rw [grainRead_sound hinj]
    exact sameLines_countGrain ..
  rw [copyOut_eq]
  generalize grainRead b l = y at hframes hlines ⊢
  obtain ⟨hdirty, hkept, hbytes⟩ := grainCleaned_spec y l (b.partOf l)
  refine ⟨hdirty, hkept.trans hframes, fun hinj ha => ?_⟩
  have hy := hlines hinj
  have ha' : y.aliveA l = true := (aliveA_congr hy.toSameWays (congrArg (·.contains l) hy.revived)).trans ha
  exact (hbytes ha').trans (copyBytes_congr hy .grain l)

/-- A move set to a line of its granule, and ended where no line is left for it. -/
def moveSet (b : Blk) (q : Nat) (m : Mig) : Blk :=
  let b2 : Blk := { b with pool.migs := mput b.pool.migs q m }
  if (b2.moveNext m).isNone then b2.endMove q m else b2

theorem beginMove_running {b : Blk} {q : Nat} {m : Mig} (h : mget b.pool.migs q = some m) : b.beginMove q = b := by
  simp [Blk.beginMove, mhas, h]

theorem moveLine_moves {b b0 : Blk} {q : Nat} {m : Mig} {n : Nat} {clean : Bool} (hm : mget b.pool.migs q = some m)
    (hkind : (m.kind == .clean) = clean) (hn : b.moveNext m = some n)
    (hslots : b.takeMigSlots (lineOfGran m.granule + n) (m.kind == .into) = some b0) :
    b.moveLine q clean = moveSet (if m.kind = .into then b0.copyIn (lineOfGran m.granule + n) else b0.copyOut (lineOfGran m.granule + n)) q
      { m with cursor := n + 1 } := by
  unfold Blk.moveLine
  simp only [hm, hkind, hn, hslots, bne_self_eq_false, Bool.false_eq_true, if_false]
  rfl

theorem moveLine_stays {b : Blk} {q : Nat} {m : Mig} {n : Nat} (clean : Bool) (hm : mget b.pool.migs q = some m)
    (hn : b.moveNext m = some n) (hslots : b.takeMigSlots (lineOfGran m.granule + n) (m.kind == .into) = none) : b.moveLine q clean = b := by
  unfold Blk.moveLine
  simp only [hm, hn, hslots]
  split <;> rfl

/-- A move in that goes on. -/
theorem moveSet_into {b : Blk} {q : Nat} {m : Mig} (hk : m.kind = .into) (hc : m.cursor < 16384) :
    moveSet b q m = { b with pool.migs := mput b.pool.migs q m } := by
  unfold moveSet Blk.moveNext
  simp only [hk, hc, if_true, Option.isNone_some, Bool.false_eq_true, if_false]

theorem copyBytes_moveSet (b : Blk) (q : Nat) (m : Mig) (l : Nat) : (moveSet b q m).copyBytes .huskA l = b.copyBytes .huskA l := by
  unfold moveSet Blk.endMove
  dsimp only
  split
  · split <;> rfl
  · rfl

theorem moveSet_clean {b : Blk} {q : Nat} {m : Mig} (hk : m.kind = .clean) (l : Nat) :
    (moveSet b q m).copyMeta .grain l = b.copyMeta .grain l ∧ (moveSet b q m).pool.frames = b.pool.frames := by
  unfold moveSet Blk.endMove
  simp only [hk]
  split <;> exact ⟨rfl, rfl⟩

theorem moving_runs {b : Blk} (hup : b.dead = false) (hl : b.str.loaded = true) (hawake : b.asleep = false) :
    (b.dead || !b.str.loaded || b.asleep) = false := by
  simp [hup, hl, hawake]

/-- Settles O20: a move copies its next line within its allowance, which a new window renews. -/
theorem movesAdvanceWithinRenewedAllowances : Obligations.MovesAdvanceWithinRenewedAllowances := by
  unfold Obligations.MovesAdvanceWithinRenewedAllowances
  refine ⟨?_, ?_, ?_, ?_, ?_, ?_, ?_⟩
  · intro s q m b0 hup hl hawake hm hk hcur hslots
    refine does_of_live (f := fun b => migrationLine b q) rfl hup ?_
    have hnext : s.blk.moveNext m = some m.cursor := by simp [Blk.moveNext, hk, show m.cursor < 16384 by omega]
    have heq : migrationLine s.blk q = moveSet (b0.copyIn (lineOfGran m.granule + m.cursor)) q { m with cursor := m.cursor + 1 } := by
      rw [migrationLine, moving_runs hup hl hawake, if_neg Bool.false_ne_true, beginMove_running hm,
        moveLine_moves hm (by rw [hk]; rfl) hnext (by rw [hk]; exact hslots), if_pos hk]
    rw [heq, moveSet_into (by exact hk) (by exact hcur)]
    obtain ⟨u, rfl⟩ := slotsTaken_takeMigSlots hslots
    obtain ⟨hdirty, hframes, hbytes⟩ := copyIn_spec { s.blk with pool.used := u } (lineOfGran m.granule + m.cursor)
    generalize Blk.copyIn { s.blk with pool.used := u } (lineOfGran m.granule + m.cursor) = y at hdirty hframes hbytes ⊢
    exact ⟨mget_mput_self _ _ _, hdirty, hframes, fun hinj ha _ => hbytes hinj ha⟩
  · intro s q m n b0 hup hl hawake hm hk hnext hslots
    refine does_of_live (f := fun b => migrationLine b q) rfl hup ?_
    have heq : migrationLine s.blk q = moveSet (b0.copyOut (lineOfGran m.granule + n)) q { m with cursor := n + 1 } := by
      rw [migrationLine, moving_runs hup hl hawake, if_neg Bool.false_ne_true, beginMove_running hm,
        moveLine_moves hm (by rw [hk]; rfl) hnext (by rw [hk]; exact hslots), if_neg (by simp [hk])]
    rw [heq]
    obtain ⟨u, rfl⟩ := slotsTaken_takeMigSlots hslots
    obtain ⟨-, -, hbytes⟩ := copyOut_spec { s.blk with pool.used := u } (lineOfGran m.granule + n)
    exact fun hinj ha => (copyBytes_moveSet ..).trans (hbytes hinj ha)
  · intro s q m n b0 hup hl hawake hm hk hnext hslots
    refine does_of_live (f := fun b => cleaningPassLine b q) rfl hup ?_
    have heq : cleaningPassLine s.blk q = moveSet (b0.copyOut (lineOfGran m.granule + n)) q { m with cursor := n + 1 } := by
      rw [cleaningPassLine, moving_runs hup hl hawake, if_neg Bool.false_ne_true, beginMove_running hm,
        moveLine_moves hm (by rw [hk]; rfl) hnext (by rw [hk]; exact hslots), if_neg (by simp [hk])]
    rw [heq]
    obtain ⟨u, rfl⟩ := slotsTaken_takeMigSlots hslots
    obtain ⟨hdirty, hframes, hbytes⟩ := copyOut_spec { s.blk with pool.used := u } (lineOfGran m.granule + n)
    obtain ⟨hmeta, hkept⟩ := moveSet_clean (b := Blk.copyOut { s.blk with pool.used := u } (lineOfGran m.granule + n)) (q := q)
      (m := { m with cursor := n + 1 }) hk (lineOfGran m.granule + n)
    exact ⟨by rw [hmeta]; exact hdirty, hkept.trans hframes, fun hinj ha => (copyBytes_moveSet ..).trans (hbytes hinj ha)⟩
  · intro s q m n hm hnext hslots
    constructor
    · refine stays_of_live (f := fun b => migrationLine b q) rfl fun _ => ?_
      unfold migrationLine
      split
      · rfl
      · rw [beginMove_running hm, moveLine_stays false hm hnext hslots]
    · refine stays_of_live (f := fun b => cleaningPassLine b q) rfl fun _ => ?_
      unfold cleaningPassLine
      split
      · rfl
      · rw [beginMove_running hm, moveLine_stays true hm hnext hslots]
  · intro s q hasleep
    exact ⟨stays_of_live (f := fun b => migrationLine b q) rfl fun _ => by simp [migrationLine, hasleep],
      stays_of_live (f := fun b => cleaningPassLine b q) rfl fun _ => by simp [cleaningPassLine, hasleep]⟩
  · intro s hup hwin
    refine does_of_live (f := fun b => allowanceWindow b) rfl hup ?_
    rw [allowanceWindow, if_pos hwin]
    exact ⟨only_of_blk (onlyBlk_of_rest (rest_with_pool (by decide) ..)), rfl⟩
  · intro s hwin
    exact stays_of_live (f := fun b => allowanceWindow b) rfl fun _ => if_neg (Nat.not_lt.mpr hwin)

end Sys2Proof.Proofs
end

/-! ## A management reset's end in a state with a window listed twice (R45, R321) -/
section
namespace Sys2Proof.Proofs

open Sys2Proof.Machine

/-- A device in a management reset whose table of windows lists function 0 twice, the first time with nothing but a record that waits
for the management controller: it reads as the first entry. -/
def windowTwice : State :=
  { blk := { mgmt := { resetting := true }, hub := { wins := [(0, { mgmtWait := true }), (0, { busMaster := true })] } } }

/-- The window of function 0 after the reset's end: the first entry became the default and left the table, so the second one is read. -/
theorem windowTwice_ends : (mgmtResetEnd windowTwice.blk).win 0 = { busMaster := true } := by decide

/-- Refutes O13: its sixth clause says that the end of a management reset leaves every function's window as it was but for `mgmtWait`, in
any state; where the table lists a function twice, removing the entry that has become the default uncovers the other one. -/
theorem not_managementControllerErrsAndRestarts : ¬ Obligations.ManagementControllerErrsAndRestarts := by
  unfold Obligations.ManagementControllerErrsAndRestarts
  intro h
  obtain ⟨-, -, -, -, -, hend, -⟩ := h
  obtain ⟨t, hexec, -, -, hwin⟩ := hend windowTwice rfl rfl
  have hnext : exec .mgmtResetEnd windowTwice = .next { windowTwice with blk := mgmtResetEnd windowTwice.blk } := rfl
  rw [hnext] at hexec
  cases hexec
  have hzero := (windowTwice_ends.symm.trans (hwin 0))
  exact absurd hzero (by decide)

end Sys2Proof.Proofs
end

/-! ## What the end of a function's work leaves of the hub (R325)

The answers, events and completions that a function-level reset sends leave the moves, requests and translations of the functions,
and what their windows hold but for answers and events. -/
section
namespace Sys2Proof.Proofs

open Sys2Proof.Machine

/-- What of a window no answer and no event changes. -/
def winShown (w : Win) : Bool × Bool × Map (Nat × Bytes) := (w.enabled, w.busMaster, w.subs)

/-- The hub holds what another one does of what no answer, event or completion changes, and a function's commands in progress are all
lost to it. -/
structure HubWas (f : Nat) (x : Hub) (b : Blk) : Prop where
  moves : b.hub.moves = x.moves
  prqs : b.hub.prqs = x.prqs
  atc : b.hub.atc = x.atc
  trans : b.hub.trans = x.trans
  reads : b.hub.reads = x.reads
  numVfs : b.hub.numVfs = x.numVfs
  windows : ∀ g, winShown (b.win g) = winShown (tget (fun _ => {}) x.wins g)
  lost : ∀ r ∈ b.hub.inProg, r.f = f → r.lost = true

section
variable {f : Nat} {x : Hub}

theorem hubWas_of_hub {b y : Blk} (hh : y.hub = b.hub) (h : HubWas f x b) : HubWas f x y := by
  obtain ⟨hm, hp, ha, ht, hr, hn, hw, hl⟩ := h
  constructor <;> simp only [hh, Blk.win] <;> assumption

theorem hubWas_of_rest {L : List Region} {b y : Blk} (hr : rest L y = rest L b) (hL : .hub ∉ L) (h : HubWas f x b) : HubWas f x y :=
  hubWas_of_hub (hub_of_rest hr hL) h

@[simp] theorem hubWas_with_coh (b : Blk) (y : Coh) : HubWas f x { b with coh := y } ↔ HubWas f x b :=
  ⟨hubWas_of_hub rfl, hubWas_of_hub rfl⟩

@[simp] theorem hubWas_with_work (b : Blk) (y : Work) : HubWas f x { b with work := y } ↔ HubWas f x b :=
  ⟨hubWas_of_hub rfl, hubWas_of_hub rfl⟩

@[simp] theorem hubWas_with_ext (b : Blk) (y : ExtSt) : HubWas f x { b with ext := y } ↔ HubWas f x b :=
  ⟨hubWas_of_hub rfl, hubWas_of_hub rfl⟩

@[simp] theorem hubWas_with_pair (b : Blk) (y : Pair) : HubWas f x { b with pair := y } ↔ HubWas f x b :=
  ⟨hubWas_of_hub rfl, hubWas_of_hub rfl⟩

@[simp] theorem hubWas_with_fab (b : Blk) (y : Fab) : HubWas f x { b with fab := y } ↔ HubWas f x b :=
  ⟨hubWas_of_hub rfl, hubWas_of_hub rfl⟩

theorem hubWas_with_rat (b : Blk) (l : List RatEnt) (h : HubWas f x b) : HubWas f x { b with coh.rat := l } := hubWas_of_hub (b := b) rfl h

theorem hubWas_with_sheafs (b : Blk) (l : Map Sheaf) (h : HubWas f x b) : HubWas f x { b with work.sheafs := l } :=
  hubWas_of_hub (b := b) rfl h

theorem hubWas_foldl {α : Type} {g : Blk → α → Blk} (h : ∀ b a, HubWas f x b → HubWas f x (g b a)) (as : List α) {b : Blk}
    (hb : HubWas f x b) : HubWas f x (as.foldl g b) := by
  induction as generalizing b with
  | nil => exact hb
  | cons a as ih => exact ih (h b a hb)

theorem hubWas_foldl_fst {α β : Type} {g : Blk × β → α → Blk × β} (h : ∀ y a, HubWas f x y.1 → HubWas f x (g y a).1) (as : List α)
    {y : Blk × β} (hy : HubWas f x y.1) : HubWas f x (as.foldl g y).1 := by
  induction as generalizing y with
  | nil => exact hy
  | cons a as ih => exact ih (h y a hy)

theorem hubWas_foldl_snd {α β : Type} {g : β × Blk → α → β × Blk} (h : ∀ y a, HubWas f x y.2 → HubWas f x (g y a).2) (as : List α)
    {y : β × Blk} (hy : HubWas f x y.2) : HubWas f x (as.foldl g y).2 := by
  induction as generalizing y with
  | nil => exact hy
  | cons a as ih => exact ih (h y a hy)

theorem hubWas_modWin (b : Blk) (k : Nat) (g : Win → Win) (hg : ∀ w, winShown (g w) = winShown w) (h : HubWas f x b) :
    HubWas f x (b.modWin k g) := by
  refine ⟨h.moves, h.prqs, h.atc, h.trans, h.reads, h.numVfs, fun j => ?_, h.lost⟩
  rw [← h.windows j]
  by_cases hj : j = k
  · rw [hj, Blk.win_modWin_self, hg]
  · rw [Blk.win_modWin_ne _ _ _ _ hj]

theorem hubWas_pcie (b : Blk) (o : PcieOut) (h : HubWas f x b) : HubWas f x (b.pcie o) := by
  unfold Blk.pcie
  split <;> exact ⟨h.moves, h.prqs, h.atc, h.trans, h.reads, h.numVfs, h.windows, h.lost⟩

theorem hubWas_aerSet (b : Blk) (g i : Nat) (h : HubWas f x b) : HubWas f x (b.aerSet g i) :=
  ⟨h.moves, h.prqs, h.atc, h.trans, h.reads, h.numVfs, h.windows, h.lost⟩

theorem hubWas_dropCmd (b : Blk) (c : CmdId) (h : HubWas f x b) : HubWas f x (b.dropCmd c) :=
  ⟨h.moves, h.prqs, h.atc, h.trans, h.reads, h.numVfs, h.windows, fun r hr => h.lost r (List.mem_of_mem_eraseP hr)⟩

theorem hubWas_dropWait (b : Blk) (k : Xfer) (h : HubWas f x b) : HubWas f x (b.dropWait k) :=
  ⟨h.moves, h.prqs, h.atc, h.trans, h.reads, h.numVfs, h.windows, h.lost⟩

theorem hubWas_dropFaults (b : Blk) (k : Xfer) (h : HubWas f x b) : HubWas f x (b.dropFaults k) :=
  ⟨h.moves, h.prqs, h.atc, h.trans, h.reads, h.numVfs, h.windows, h.lost⟩

theorem hubWas_with_apt (b : Blk) (l : List AptRead) (h : HubWas f x b) : HubWas f x { b with hub.apt := l } :=
  ⟨h.moves, h.prqs, h.atc, h.trans, h.reads, h.numVfs, h.windows, h.lost⟩

theorem hubWas_with_invs (b : Blk) (l : List Inval) (h : HubWas f x b) : HubWas f x { b with hub.invs := l } :=
  ⟨h.moves, h.prqs, h.atc, h.trans, h.reads, h.numVfs, h.windows, h.lost⟩

theorem hubWas_invEnd (b : Blk) (h : HubWas f x b) : HubWas f x b.invEnd :=
  hubWas_foldl (fun y v hy => hubWas_pcie y _ hy) _ (hubWas_with_invs b _ h)

end
end Sys2Proof.Proofs
end

/-! ## The operations that end a function's work keep what its hub holds

Frames of the answers, events and line operations that a function-level reset may run. -/
section
namespace Sys2Proof.Proofs

open Sys2Proof.Machine

theorem hubWas_setReg {fn : Nat} {hx : Hub} (b : Blk) (off : Nat) (v : Word) (h : HubWas fn hx b) :
    HubWas fn hx (b.setReg off v) := by
  exact hubWas_of_rest (L := [.regs]) (rest_setReg (by decide) ..) (by decide) h

theorem hubWas_flag {fn : Nat} {hx : Hub} (b : Blk) (off i : Nat) (h : HubWas fn hx b) :
    HubWas fn hx (b.flag off i) := by
  exact hubWas_of_rest (L := [.regs]) (rest_flag (by decide) ..) (by decide) h

theorem hubWas_incr {fn : Nat} {hx : Hub} (b : Blk) (off : Nat) (h : HubWas fn hx b) :
    HubWas fn hx (b.incr off) := by
  exact hubWas_of_rest (L := [.regs]) (rest_incr (by decide) ..) (by decide) h

theorem hubWas_aonAdd {fn : Nat} {hx : Hub} (b : Blk) (i n : Nat) (h : HubWas fn hx b) :
    HubWas fn hx (b.aonAdd i n) := by
  exact hubWas_of_rest (L := [.aon]) (rest_aonAdd (by decide) ..) (by decide) h

theorem hubWas_writeLine {fn : Nat} {hx : Hub} (b : Blk) (l : Nat) (bs : Bytes) (poison : Bool) (wb : Bool) (h : HubWas fn hx b) :
    HubWas fn hx (b.writeLine l bs poison wb) := by
  exact hubWas_of_rest (L := [.aon, .pcs, .pool, .chans]) (rest_writeLine (by decide) (by decide) (by decide) (by decide) ..) (by decide) h

theorem hubWas_writeMasked {fn : Nat} {hx : Hub} (b : Blk) (l : Nat) (bs : Bytes) (mask : BitVec 128) (poison : Bool) (wb : Bool)
    (h : HubWas fn hx b) :
    HubWas fn hx (b.writeMasked l bs mask poison wb) := by
  exact hubWas_of_rest (L := [.aon, .pcs, .pool, .chans]) (rest_writeMasked (by decide) (by decide) (by decide) (by decide) ..) (by decide) h

theorem hubWas_bumpMod {fn : Nat} {hx : Hub} (b : Blk) (l n : Nat) (h : HubWas fn hx b) :
    HubWas fn hx (b.bumpMod l n) := by
  exact hubWas_of_rest (L := [.ext]) (rest_bumpMod (by decide) ..) (by decide) h

theorem hubWas_countAccept {fn : Nat} {hx : Hub} (b : Blk) (q part : Nat) (h : HubWas fn hx b) :
    HubWas fn hx (b.countAccept q part) := by
  exact hubWas_of_rest (L := [.aon, .pcs]) (rest_countAccept (by decide) (by decide) ..) (by decide) h

theorem hubWas_countRefusal {fn : Nat} {hx : Hub} (b : Blk) (q status part : Nat) (h : HubWas fn hx b) :
    HubWas fn hx (b.countRefusal q status part) := by
  exact hubWas_of_rest (L := [.regs, .aon, .pcs]) (rest_countRefusal (by decide) (by decide) (by decide) ..) (by decide) h

theorem hubWas_log {fn : Nat} {hx : Hub} (b : Blk) (code unit part a bb : Nat) (flags : Nat) (h : HubWas fn hx b) :
    HubWas fn hx (b.log code unit part a bb flags) := by
  exact hubWas_of_rest (L := [.regs, .aon, .pcs, .pool, .chans, .ext, .rings]) (rest_log (by decide) (by decide) (by decide) (by decide)
      (by decide) (by decide) (by decide) ..) (by decide) h

theorem hubWas_trace {fn : Nat} {hx : Hub} (b : Blk) (r : TraceRec) (h : HubWas fn hx b) :
    HubWas fn hx (b.trace r) := by
  exact hubWas_of_rest (L := [.regs, .aon, .pcs, .pool, .chans, .ext, .rings]) (rest_trace (by decide) (by decide) (by decide) (by decide)
      (by decide) (by decide) (by decide) ..) (by decide) h

theorem hubWas_sendOwn {fn : Nat} {hx : Hub} (b : Blk) (q : Nat) (m : Msg) (h : HubWas fn hx b) :
    HubWas fn hx (b.sendOwn q m).2 := by
  exact hubWas_of_rest (L := [.regs, .fab]) (rest_sendOwn (by decide) (by decide) ..) (by decide) h

theorem hubWas_answerCtrl {fn : Nat} {hx : Hub} (b : Blk) (q : Nat) (src msgId traceId ty status : Nat) (payload : Bytes) (h : HubWas fn hx b) :
    HubWas fn hx (b.answerCtrl q src msgId traceId ty status payload) := by
  exact hubWas_of_rest (L := [.regs, .fab]) (rest_answerCtrl (by decide) (by decide) ..) (by decide) h

theorem hubWas_mirrorSend {fn : Nat} {hx : Hub} (b : Blk) (l : Nat) (h : HubWas fn hx b) :
    HubWas fn hx (b.mirrorSend l).2 := by
  exact hubWas_of_rest (L := [.regs, .fab]) (rest_mirrorSend (by decide) (by decide) ..) (by decide) h

theorem hubWas_fetch {fn : Nat} {hx : Hub} (b : Blk) (l : Nat) (h : HubWas fn hx b) :
    HubWas fn hx (b.fetch l).1 := by
  exact hubWas_of_rest (L := [.regs, .dead, .pins, .aon, .pcs, .pool, .chans, .ext, .fab, .rings, .pair]) (rest_fetch (by decide) (by decide)
      (by decide) (by decide) (by decide) (by decide) (by decide) (by decide) (by decide) (by decide) (by decide) ..) (by decide) h

theorem hubWas_msix {fn : Nat} {hx : Hub} (b : Blk) (f : Nat) (vec : Option Nat) (h : HubWas fn hx b) :
    HubWas fn hx (b.msix f vec) := by
  unfold Blk.msix
  grind [← hubWas_pcie]

theorem hubWas_mirrorOut {fn : Nat} {hx : Hub} (b : Blk) (f base off : Nat) (bs : Bytes) (h : HubWas fn hx b) :
    HubWas fn hx (b.mirrorOut f base off bs) := by
  unfold Blk.mirrorOut
  grind [← hubWas_pcie]

theorem hubWas_answerRec {fn : Nat} {hx : Hub} (b : Blk) (r : CmdRec) (status : Nat) (res : Bytes) (h : HubWas fn hx b) :
    HubWas fn hx (b.answerRec r status res) := by
  have hwin := hubWas_modWin b r.f (fun w => { w with answers := mput w.answers (r.seq % 2048) (answerBytes r status res) }) (fun _ => rfl) h
  unfold Blk.answerRec
  grind [← hubWas_mirrorOut, ← hubWas_msix, ← hubWas_incr]

theorem hubWas_answerCmd {fn : Nat} {hx : Hub} (b : Blk) (c : CmdId) (status : Nat) (res : Bytes) (h : HubWas fn hx b) :
    HubWas fn hx (b.answerCmd c status res) := by
  unfold Blk.answerCmd
  grind [← hubWas_dropCmd, ← hubWas_answerRec]

theorem hubWas_eventDeliver {fn : Nat} {hx : Hub} (b : Blk) (part : Nat) (body : Bytes) (h : HubWas fn hx b) :
    HubWas fn hx (b.eventDeliver part body) := by
  have hlost (k : Nat) := hubWas_modWin b k (fun w => { w with lost := min (w.lost + 1) 0xFFFFFFFF }) (fun _ => rfl) h
  have hevent (k i : Nat) (e : Bytes) :=
    hubWas_modWin b k (fun w => { w with events := mput w.events i e, nextEvt := w.nextEvt + 1 }) (fun _ => rfl) h
  unfold Blk.eventDeliver
  dsimp only
  split
  · exact hubWas_flag _ _ _ (hubWas_incr _ _ h)
  · split
    · exact hubWas_flag _ _ _ (hlost _)
    · exact hubWas_msix _ _ _ (hubWas_mirrorOut _ _ _ _ _ (hevent _ _ _))

theorem hubWas_aptRefuse {fn : Nat} {hx : Hub} (b : Blk) (write : Bool) (line status : Nat) (h : HubWas fn hx b) :
    HubWas fn hx (b.aptRefuse write line status) := by
  exact hubWas_of_rest (L := [.regs]) (rest_aptRefuse (by decide) ..) (by decide) h

theorem hubWas_aptComplete {fn : Nat} {hx : Hub} (b : Blk) (r : AptRead) (x0 : List (Nat × Nat × Nat)) (h : HubWas fn hx b) :
    HubWas fn hx (b.aptComplete r x0).1 := by
  induction x0 generalizing b with
  | nil => exact h
  | cons e rest ih =>
    obtain ⟨l, lo, hi⟩ := e
    have hread (y : Blk) (hy : HubWas fn hx y) : HubWas fn hx (y.flag Reg.hubAptErr 2) := hubWas_flag y _ _ hy
    unfold Blk.aptComplete
    split
    · exact h
    · dsimp only
      split
      · exact hubWas_pcie _ _ (hubWas_aerSet _ _ _ h)
      · split
        · exact ih _ (hread _ (hubWas_pcie _ _ h))
        · exact ih _ (hubWas_pcie _ _ h)

theorem hubWas_aptLand {fn : Nat} {hx : Hub} (b : Blk) (tag l status : Nat) (bs : Bytes) (poison : Bool) (h : HubWas fn hx b) :
    HubWas fn hx (b.aptLand tag l status bs poison) := by
  unfold Blk.aptLand
  grind [← hubWas_aptRefuse, ← hubWas_aptComplete, ← hubWas_with_apt]

theorem hubWas_poisonDead {fn : Nat} {hx : Hub} (b : Blk) (l owner : Nat) (h : HubWas fn hx b) :
    HubWas fn hx (b.poisonDead l owner) := by
  exact hubWas_of_rest (L := [.regs, .aon, .pcs, .pool, .chans, .ext, .coh, .fab, .rings, .pair]) (rest_poisonDead (by decide) (by decide)
      (by decide) (by decide) (by decide) (by decide) (by decide) (by decide) (by decide) (by decide) ..) (by decide) h

theorem hubWas_dropHolder {fn : Nat} {hx : Hub} (b : Blk) (l eid : Nat) (h : HubWas fn hx b) :
    HubWas fn hx (b.dropHolder l eid) := by
  exact hubWas_of_rest (L := [.coh]) (rest_dropHolder (by decide) ..) (by decide) h

theorem hubWas_touch {fn : Nat} {hx : Hub} (b : Blk) (l : Nat) (h : HubWas fn hx b) :
    HubWas fn hx (b.touch l) := by
  exact hubWas_of_rest (L := [.coh]) (rest_touch (by decide) ..) (by decide) h

theorem hubWas_grantX {fn : Nat} {hx : Hub} (b : Blk) (l part eid : Nat) (h : HubWas fn hx b) :
    HubWas fn hx (b.grantX l part eid) := by
  exact hubWas_of_rest (L := [.coh]) (rest_grantX (by decide) ..) (by decide) h

theorem hubWas_addSharer {fn : Nat} {hx : Hub} (b : Blk) (l part eid : Nat) (h : HubWas fn hx b) :
    HubWas fn hx (b.addSharer l part eid) := by
  exact hubWas_of_rest (L := [.coh]) (rest_addSharer (by decide) ..) (by decide) h

theorem hubWas_dirLookup {fn : Nat} {hx : Hub} (b : Blk) (l : Nat) (h : HubWas fn hx b) :
    HubWas fn hx (b.dirLookup l) := by
  exact hubWas_of_rest (L := [.regs, .fresh, .aon, .pcs]) (rest_dirLookup (by decide) (by decide) (by decide) (by decide) ..) (by decide) h

theorem hubWas_snoopAll {fn : Nat} {hx : Hub} (b : Blk) (t : Txn) (k : SnpKind) (x0 : List Nat) (h : HubWas fn hx b) :
    HubWas fn hx (b.snoopAll t k x0).1 := by
  exact hubWas_of_rest (L := [.regs, .pcs, .coh, .fab]) (rest_snoopAll (by decide) (by decide) (by decide) (by decide) ..) (by decide) h

theorem hubWas_serve {fn : Nat} {hx : Hub} (b : Blk) (t : Txn) (f : Blk → Blk) (hgo : ∀  x, HubWas fn hx x → HubWas fn hx (f  x))
    (h : HubWas fn hx b) :
    HubWas fn hx (b.serve t f) := by
  rw [serve_eq]
  exact hubWas_of_hub (b := f (served b t)) rfl (hgo _ (hubWas_of_hub (b := b) rfl h))

theorem hubWas_putTxn {fn : Nat} {hx : Hub} (b : Blk) (t : Txn) (h : HubWas fn hx b) :
    HubWas fn hx (b.putTxn t) := by
  exact hubWas_of_rest (L := [.coh]) (rest_putTxn (by decide) ..) (by decide) h

theorem hubWas_endTxn {fn : Nat} {hx : Hub} (b : Blk) (t : Txn) (h : HubWas fn hx b) :
    HubWas fn hx (b.endTxn t) := by
  exact hubWas_of_rest (L := [.coh]) (rest_endTxn (by decide) ..) (by decide) h

theorem hubWas_respond {fn : Nat} {hx : Hub} (b : Blk) (q ty src msgId traceId addr status : Nat) (far replay : Bool) (payload : Bytes)
    (poison : Bool) (cls part : Nat) (h : HubWas fn hx b) :
    HubWas fn hx (b.respond q ty src msgId traceId addr status far replay payload poison cls part).2 := by
  exact hubWas_of_rest (L := [.regs, .fab]) (rest_respond (by decide) (by decide) ..) (by decide) h

theorem hubWas_land {fn : Nat} {hx : Hub} (b : Blk) (w : Who) (write : Bool) (l status : Nat) (bs : Bytes) (poison : Bool) (h : HubWas fn hx b) :
    HubWas fn hx (b.land w write l status bs poison) := by
  unfold Blk.land
  grind [← hubWas_aptRefuse, ← hubWas_aptLand, hubWas_with_coh]

theorem hubWas_jobLine {fn : Nat} {hx : Hub} (b : Blk) (id l status : Nat) (bs : Bytes) (poison : Bool) (h : HubWas fn hx b) :
    HubWas fn hx (b.jobLine id l status bs poison) := by
  exact hubWas_of_rest (L := [.regs, .aon, .pcs, .ext, .coh, .fab]) (rest_jobLine (by decide) (by decide) (by decide) (by decide) (by decide)
      (by decide) ..) (by decide) h

theorem hubWas_answerTxn {fn : Nat} {hx : Hub} (b : Blk) (t : Txn) (ty status : Nat) (bs : Bytes) (poison replay : Bool) (h : HubWas fn hx b) :
    HubWas fn hx (b.answerTxn t ty status bs poison replay) := by
  unfold Blk.answerTxn
  cases t.job with
  | some id => exact hubWas_jobLine _ _ _ _ _ _ h
  | none =>
    cases t.who
    case fabric src => exact hubWas_respond _ _ _ _ _ _ _ _ _ _ _ _ _ _ h
    case dev => exact h
    all_goals exact hubWas_land _ _ _ _ _ _ _ h

theorem hubWas_mirrorWait {fn : Nat} {hx : Hub} (b : Blk) (t : Txn) (old : Bytes) (h : HubWas fn hx b) :
    HubWas fn hx (b.mirrorWait t old).2 := by
  exact hubWas_of_rest (L := [.regs, .coh, .fab]) (rest_mirrorWait (by decide) (by decide) (by decide) ..) (by decide) h

theorem hubWas_freeRat {fn : Nat} {hx : Hub} (b : Blk) (t : Txn) (a : AtmOp) (h : HubWas fn hx b) :
    HubWas fn hx (b.freeRat t a) := by
  exact hubWas_of_rest (L := [.coh]) (rest_freeRat (by decide) ..) (by decide) h

theorem hubWas_uncount {fn : Nat} {hx : Hub} (b : Blk) (t : Txn) (h : HubWas fn hx b) :
    HubWas fn hx (b.uncount t) := by
  exact hubWas_of_rest (L := [.ext]) (rest_uncount (by decide) ..) (by decide) h

theorem hubWas_refuseTxn {fn : Nat} {hx : Hub} (b : Blk) (t : Txn) (status : Nat) (h : HubWas fn hx b) :
    HubWas fn hx (b.refuseTxn t status) := by
  unfold Blk.refuseTxn
  grind [← hubWas_countRefusal, ← hubWas_endTxn, ← hubWas_answerTxn, ← hubWas_freeRat, ← hubWas_uncount]

theorem hubWas_sendGrant {fn : Nat} {hx : Hub} (b : Blk) (t : Txn) (ty : Nat) (far : Bool) (bs : Bytes) (poison : Bool) (h : HubWas fn hx b) :
    HubWas fn hx (b.sendGrant t ty far bs poison) := by
  exact hubWas_of_rest (L := [.regs, .coh, .fab]) (rest_sendGrant (by decide) (by decide) (by decide) ..) (by decide) h

theorem hubWas_grantTxn {fn : Nat} {hx : Hub} (b : Blk) (t : Txn) (h : HubWas fn hx b) :
    HubWas fn hx (b.grantTxn t) := by
  unfold Blk.grantTxn
  grind [← hubWas_incr, ← hubWas_bumpMod, ← hubWas_fetch, ← hubWas_grantX, ← hubWas_addSharer, ← hubWas_endTxn, ← hubWas_refuseTxn,
      ← hubWas_sendGrant]

theorem hubWas_execNear {fn : Nat} {hx : Hub} (b : Blk) (t : Txn) (a : AtmOp) (h : HubWas fn hx b) :
    HubWas fn hx (b.execNear t a) := by
  have hfetch := hubWas_fetch b t.line h
  unfold Blk.execNear
  generalize b.fetch t.line = v at hfetch ⊢
  dsimp only
  split
  · exact hubWas_endTxn _ _ (hubWas_answerTxn _ _ _ _ _ _ _ (hubWas_incr _ _ (hubWas_uncount _ _ h)))
  · split
    · exact hubWas_refuseTxn _ _ _ h
    · split
      · exact hubWas_refuseTxn _ _ _ (hubWas_trace _ _ (hubWas_log _ _ _ _ _ _ _ (hubWas_aonAdd _ _ _ hfetch)))
      · split
        · exact hubWas_mirrorWait _ _ _ (hubWas_with_rat _ _ (hubWas_incr _ _ (hubWas_writeLine _ _ _ _ _ hfetch)))
        · exact hubWas_endTxn _ _ (hubWas_answerTxn _ _ _ _ _ _ _
            (hubWas_mirrorWait _ _ _ (hubWas_with_rat _ _ (hubWas_incr _ _ (hubWas_writeLine _ _ _ _ _ hfetch)))))

theorem hubWas_noteHeader {fn : Nat} {hx : Hub} (b : Blk) (l : Nat) (h : HubWas fn hx b) :
    HubWas fn hx (b.noteHeader l) := by
  exact hubWas_of_rest (L := [.pair]) (rest_noteHeader (by decide) ..) (by decide) h

theorem hubWas_finishTxn {fn : Nat} {hx : Hub} (b0 : Blk) (t : Txn) (h : HubWas fn hx b0) :
    HubWas fn hx (b0.finishTxn t) := by
  have hread (z : Blk) (hz : HubWas fn hx z) (mask : BitVec 128) :
      HubWas fn hx (if mask = BitVec.allOnes 128 then z else (z.fetch t.line).1) :=
    iteInduction (motive := HubWas fn hx) (fun _ => hz) (fun _ => hubWas_fetch z t.line hz)
  unfold Blk.finishTxn
  refine hubWas_serve _ _ _ (fun y hy => ?_) h
  have hclear : HubWas fn hx { y with coh.dir := mdel y.coh.dir t.line } := hubWas_of_hub (b := y) rfl hy
  dsimp only
  split
  · exact hubWas_refuseTxn _ _ _ hy
  · split
    · exact hubWas_grantTxn _ _ hy
    · exact hubWas_grantTxn _ _ hy
    · exact hubWas_grantTxn _ _ hy
    · exact hubWas_endTxn _ _ (hubWas_answerTxn _ _ _ _ _ _ _ hy)
    · split
      · exact hubWas_endTxn _ _ (hubWas_answerTxn _ _ _ _ _ _ _ hy)
      · exact hubWas_endTxn _ _ (hubWas_answerTxn _ _ _ _ _ _ _ (hubWas_fetch _ _ hy))
    · next bs mask p _ =>
      refine iteInduction (motive := HubWas fn hx) (fun _ => hubWas_refuseTxn _ _ _ hclear) (fun _ => ?_)
      have hdone := hubWas_mirrorWait _ t [] (hubWas_writeMasked _ t.line bs mask p t.wb (hread _ hclear mask))
      exact iteInduction (motive := HubWas fn hx) (fun _ => hdone) (fun _ => hubWas_endTxn _ _ (hubWas_answerTxn _ _ _ _ _ _ _ hdone))
    · refine iteInduction (motive := HubWas fn hx) (fun _ => hubWas_refuseTxn _ _ _ hclear) (fun _ => ?_)
      exact hubWas_endTxn _ _ (hubWas_answerTxn _ _ _ _ _ _ _ (hubWas_noteHeader _ _ (hubWas_writeMasked _ _ _ _ _ _ (hread _ hclear _))))
    · exact hubWas_execNear _ _ _ hclear
    · exact hubWas_endTxn _ _ hclear
    · exact hubWas_endTxn _ _ hclear
    · exact hubWas_endTxn _ _ (hubWas_dropHolder _ _ _ hy)

theorem hubWas_advance {fn : Nat} {hx : Hub} (b0 : Blk) (t : Txn) (h : HubWas fn hx b0) :
    HubWas fn hx (b0.advance t) := by
  unfold Blk.advance
  grind [← hubWas_writeLine, ← hubWas_mirrorSend, ← hubWas_serve, ← hubWas_putTxn, ← hubWas_finishTxn]

theorem hubWas_evict {fn : Nat} {hx : Hub} (b : Blk) (l : Nat) (h : HubWas fn hx b) :
    HubWas fn hx (b.evict l).2 := by
  exact hubWas_of_rest (L := [.regs, .aon, .pcs, .pool, .chans, .ext, .coh, .fab, .rings, .pair]) (rest_evict (by decide) (by decide) (by decide)
      (by decide) (by decide) (by decide) (by decide) (by decide) (by decide) (by decide) ..) (by decide) h

theorem hubWas_settleCount {fn : Nat} {hx : Hub} (b : Blk) (t : Txn) (h : HubWas fn hx b) :
    HubWas fn hx (b.settleCount t).2 := by
  exact hubWas_of_rest (L := [.ext]) (rest_settleCount (by decide) ..) (by decide) h

theorem hubWas_runTxn {fn : Nat} {hx : Hub} (b0 : Blk) (t0 : Txn) (h : HubWas fn hx b0) :
    HubWas fn hx (b0.runTxn t0) := by
  unfold Blk.runTxn
  grind [← hubWas_snoopAll, ← hubWas_putTxn, ← hubWas_advance, ← hubWas_settleCount]

theorem hubWas_uncountRds {fn : Nat} {hx : Hub} (b : Blk) (t : Txn) (h : HubWas fn hx b) :
    HubWas fn hx (b.uncountRds t) := by
  exact hubWas_of_rest (L := [.ext]) (rest_uncountRds (by decide) ..) (by decide) h

theorem hubWas_countRds {fn : Nat} {hx : Hub} (b : Blk) (t : Txn) (h : HubWas fn hx b) :
    HubWas fn hx (b.countRds t).2 := by
  exact hubWas_of_rest (L := [.ext]) (rest_countRds (by decide) ..) (by decide) h

theorem hubWas_startTxn {fn : Nat} {hx : Hub} (b : Blk) (t0 : Txn) (again : Bool) (h : HubWas fn hx b) :
    HubWas fn hx (b.startTxn t0 again) := by
  have hlook : HubWas fn hx (opened b t0 again) := by
    unfold opened lineTouched
    grind [← hubWas_poisonDead, ← hubWas_touch, ← hubWas_dirLookup]
  rw [startTxn_eq]
  generalize opened b t0 again = y at hlook ⊢
  unfold startedIn
  grind [← hubWas_incr, ← hubWas_evict, ← hubWas_runTxn, ← hubWas_uncountRds, ← hubWas_countRds, hubWas_with_coh]

theorem hubWas_beginTxn {fn : Nat} {hx : Hub} (b : Blk) (t : Txn) (h : HubWas fn hx b) :
    HubWas fn hx (b.beginTxn t) := by
  unfold Blk.beginTxn
  grind [← hubWas_countRds, ← hubWas_startTxn, hubWas_with_coh]

theorem hubWas_dropPre {fn : Nat} {hx : Hub} (b : Blk) (p : Prefetch → Bool) (h : HubWas fn hx b) :
    HubWas fn hx (b.dropPre p) := by
  exact hubWas_of_rest (L := [.regs, .pcs, .coh, .work]) (rest_dropPre (by decide) (by decide) (by decide) (by decide) ..) (by decide) h

theorem hubWas_writeInt {fn : Nat} {hx : Hub} (b : Blk) (r : Requester) (l : Nat) (bs : Bytes) (mask : BitVec 128) (poison : Bool)
    (h : HubWas fn hx b) :
    HubWas fn hx (b.writeInt r l bs mask poison).2 := by
  unfold Blk.writeInt
  grind [← hubWas_bumpMod, ← hubWas_countAccept, ← hubWas_countRefusal, ← hubWas_beginTxn]

theorem hubWas_answerAsker {fn : Nat} {hx : Hub} (b : Blk) (q : Nat) (w : Asker) (status : Nat) (payload : Bytes) (h : HubWas fn hx b) :
    HubWas fn hx (b.answerAsker q w status payload) := by
  unfold Blk.answerAsker
  grind [← hubWas_answerCtrl, ← hubWas_answerCmd]

theorem hubWas_modThr {fn : Nat} {hx : Hub} (b : Blk) (q : Nat) (f : Thresher → Thresher) (h : HubWas fn hx b) :
    HubWas fn hx (b.modThr q f) := by
  exact hubWas_of_rest (L := [.work]) (rest_modThr (by decide) ..) (by decide) h

theorem hubWas_modSheaf {fn : Nat} {hx : Hub} (b : Blk) (slot : Nat) (f : Sheaf → Sheaf) (h : HubWas fn hx b) :
    HubWas fn hx (b.modSheaf slot f) := by
  exact hubWas_of_rest (L := [.work]) (rest_modSheaf (by decide) ..) (by decide) h

theorem hubWas_reject {fn : Nat} {hx : Hub} (b : Blk) (q : Nat) (r : SubmitReq) (status a c : Nat) (h : HubWas fn hx b) :
    HubWas fn hx (b.reject q r status a c) := by
  unfold Blk.reject
  grind [← hubWas_setReg, ← hubWas_flag, ← hubWas_incr, ← hubWas_trace, ← hubWas_answerAsker]

theorem hubWas_endAdmission {fn : Nat} {hx : Hub} (b : Blk) (q : Nat) (h : HubWas fn hx b) :
    HubWas fn hx (b.endAdmission q) := by
  exact hubWas_of_rest (L := [.aon, .work]) (rest_endAdmission (by decide) (by decide) ..) (by decide) h

theorem hubWas_recordLost {fn : Nat} {hx : Hub} (b : Blk) (slot : Nat) (s : Sheaf) (h : HubWas fn hx b) :
    HubWas fn hx (b.recordLost slot s) := by
  exact hubWas_of_rest (L := [.regs, .aon, .pcs, .pool, .chans, .ext, .rings]) (rest_recordLost (by decide) (by decide) (by decide) (by decide)
      (by decide) (by decide) (by decide) ..) (by decide) h

theorem hubWas_thrWrite {fn : Nat} {hx : Hub} (b : Blk) (q part a : Nat) (bs : Bytes) (h : HubWas fn hx b) :
    HubWas fn hx (b.thrWrite q part a bs).2 := by
  unfold Blk.thrWrite
  grind [← hubWas_foldl, ← hubWas_foldl_fst, ← hubWas_foldl_snd, ← hubWas_writeInt]

theorem hubWas_thrBad {fn : Nat} {hx : Hub} (b : Blk) (q : Nat) (ls : List Nat) (h : HubWas fn hx b) :
    HubWas fn hx (b.thrBad q ls).2 := by
  exact hubWas_of_rest (L := [.coh]) (rest_thrBad (by decide) ..) (by decide) h

theorem hubWas_notify {fn : Nat} {hx : Hub} (b : Blk) (q eid part : Nat) (event : Bytes) (m : Msg) (h : HubWas fn hx b) :
    HubWas fn hx (b.notify q eid part event m) := by
  unfold Blk.notify
  grind [← hubWas_sendOwn, ← hubWas_eventDeliver]

theorem hubWas_doneNotices {fn : Nat} {hx : Hub} (b : Blk) (slot : Nat) (s : Sheaf) (st : Nat) (h : HubWas fn hx b) :
    HubWas fn hx (b.doneNotices slot s st) := by
  unfold Blk.doneNotices
  grind [← hubWas_foldl, ← hubWas_foldl_fst, ← hubWas_foldl_snd, ← hubWas_notify]

theorem hubWas_endStep {fn : Nat} {hx : Hub} (b : Blk) (slot : Nat) (x0 : Nat) (h : HubWas fn hx b) :
    HubWas fn hx (b.endStep slot x0) := by
  induction x0 generalizing b with
  | zero => exact h
  | succ n ih =>
    have hput (y : Blk) (k : Nat) (s : Sheaf) (bad : Bool) (hy : HubWas fn hx y) :
        HubWas fn hx ((if bad then y.recordLost slot s else y).modSheaf slot (fun s => { s with stage := k })) := by
      refine hubWas_modSheaf _ _ _ ?_
      split
      · exact hubWas_recordLost _ _ _ hy
      · exact hy
    have hlost (y : Blk) (s : Sheaf) (bad : Bool) (hy : HubWas fn hx y) : HubWas fn hx (if bad then y.recordLost slot s else y) := by
      split
      · exact hubWas_recordLost _ _ _ hy
      · exact hy
    unfold Blk.endStep
    split
    · exact h
    · dsimp only
      split
      · refine ih _ (hput _ _ _ _ ?_)
        split
        · exact h
        · exact hubWas_thrWrite _ _ _ _ _ h
      · split
        · exact h
        · exact ih _ (hput _ _ _ _ (hubWas_thrWrite _ _ _ _ _ (hlost _ _ _ (hubWas_thrBad _ _ _ h))))
      · split
        · exact h
        · exact hubWas_with_sheafs _ _ (hubWas_trace _ _ (hubWas_doneNotices _ _ _ _ (hlost _ _ _ (hubWas_thrBad _ _ _ h))))

theorem hubWas_checkEnd {fn : Nat} {hx : Hub} (b : Blk) (slot : Nat) (h : HubWas fn hx b) :
    HubWas fn hx (b.checkEnd slot) := by
  unfold Blk.checkEnd
  grind [← hubWas_flag, ← hubWas_aonAdd, ← hubWas_dropPre, ← hubWas_modSheaf, ← hubWas_endStep]

theorem hubWas_abortSheaf {fn : Nat} {hx : Hub} (b : Blk) (slot why : Nat) (h : HubWas fn hx b) :
    HubWas fn hx (b.abortSheaf slot why) := by
  exact hubWas_of_rest (L := [.regs, .aon, .pcs, .pool, .chans, .ext, .coh, .work, .rings]) (rest_abortSheaf (by decide) (by decide) (by decide)
      (by decide) (by decide) (by decide) (by decide) (by decide) (by decide) ..) (by decide) h

theorem hubWas_thrXferFail {fn : Nat} {hx : Hub} (b : Blk) (x : Xfer) (st : Nat) (h : HubWas fn hx b) :
    HubWas fn hx (b.thrXferFail x st) := by
  unfold Blk.thrXferFail
  grind [← hubWas_reject, ← hubWas_endAdmission, ← hubWas_checkEnd, ← hubWas_abortSheaf]

theorem hubWas_failSubmits {fn : Nat} {hx : Hub} (b : Blk) (f q : Nat) (h : HubWas fn hx b) :
    HubWas fn hx (b.failSubmits f q) := by
  unfold Blk.failSubmits
  grind [← hubWas_foldl, ← hubWas_foldl_fst, ← hubWas_foldl_snd, ← hubWas_modThr, ← hubWas_reject]

end Sys2Proof.Proofs
end

/-! ## Function-level resets (R325, R407) -/
section
namespace Sys2Proof.Proofs

open Sys2Proof.Machine

/-- A reset of a function that has commands in progress is flagged. -/
def flrFlagged (b : Blk) (f : Nat) : Blk := if (b.inProgOf f).isEmpty then b else b.flag Reg.hubErr 2

/-- A function's window reset, and its moves, requests, translations, invalidations and commands taken off the hub. -/
def flrCleared (b : Blk) (f : Nat) : Blk :=
  let b1 := b.modWin f (fun w => { enabled := w.enabled })
  { b1 with
    hub.inProg := (b1.hub.inProg.filter (fun r => r.f != f || isMgmt r.op)).map (fun (r : CmdRec) => if r.f = f then { r with lost := true } else r)
    hub.moves := b1.hub.moves.filter (fun m => m.f != f)
    hub.prqs := b1.hub.prqs.filter (fun r => r.f != f)
    hub.trans := b1.hub.trans.filter (fun t => t.f != f)
    hub.reads := b1.hub.reads.filter (fun r => r.f != f || r.engine == 12)
    hub.atc := b1.hub.atc.filter (fun e => e.f != f)
    hub.tlb := (b1.hub.tlb.map (fun (e : Nat × List AtcEnt) => (e.1, e.2.filter (fun x => x.f != f)))).filter (fun e => !e.2.isEmpty)
    hub.priOn := without b1.hub.priOn f
    hub.alloc := tset (fun _ => 0) b1.hub.alloc f 0
    hub.stopped := without b1.hub.stopped f
    hub.invs := b1.hub.invs.map (fun (v : Inval) => if v.f = f then { v with left := [] } else v) }

theorem hub_flrFlagged (b : Blk) (f : Nat) : (flrFlagged b f).hub = b.hub := by
  unfold flrFlagged
  split
  · rfl
  · exact hub_of_rest (L := [.regs]) (rest_flag (by decide) ..) (by decide)

/-- What a function-level reset leaves of the hub is what it left as it cleared the function. -/
theorem flr_hub (b : Blk) (f : Nat) : HubWas f (flrCleared (flrFlagged b f) f).hub (b.flr f) := by
  unfold Blk.flr
  extract_lets b0 b1 b2 b3 mine parked b4
  refine hubWas_foldl (fun y w hy => hubWas_thrXferFail _ _ _ hy) _ (hubWas_foldl (fun y w hy => ?_) _ ?_)
  · exact hubWas_dropFaults _ _ (hubWas_dropWait _ _ hy)
  · refine hubWas_foldl (fun y q hy => hubWas_failSubmits _ _ _ hy) _ (hubWas_invEnd _ ?_)
    refine ⟨rfl, rfl, rfl, rfl, rfl, rfl, fun g => rfl, fun r hr hf => ?_⟩
    obtain ⟨q, -, rfl⟩ := List.mem_map.mp hr
    by_cases hq : q.f = f
    · rw [if_pos hq]
    · rw [if_neg hq] at hf
      exact absurd hf hq

theorem win_flrCleared (b : Blk) (f g : Nat) :
    (flrCleared b f).win g = if g = f then { enabled := (b.win f).enabled } else b.win g := by
  change (b.modWin f (fun w => { enabled := w.enabled })).win g = _
  by_cases hg : g = f
  · rw [hg, if_pos rfl, Blk.win_modWin_self]
  · rw [if_neg hg, Blk.win_modWin_ne _ _ _ _ hg]

/-- What a function-level reset leaves of the hub: the other functions' windows, moves, requests and translations. -/
structure FlrLeft (b y : Blk) (f : Nat) : Prop where
  moves : y.hub.moves = b.hub.moves.filter (fun m => m.f != f)
  prqs : y.hub.prqs = b.hub.prqs.filter (fun r => r.f != f)
  atc : y.hub.atc = b.hub.atc.filter (fun e => e.f != f)
  trans : y.hub.trans = b.hub.trans.filter (fun o => o.f != f)
  reads : y.hub.reads = b.hub.reads.filter (fun r => r.f != f || r.engine == 12)
  numVfs : y.hub.numVfs = b.hub.numVfs
  own : winShown (y.win f) = ((b.win f).enabled, false, [])
  enabled : ∀ g, (y.win g).enabled = (b.win g).enabled
  lost : ∀ r ∈ y.hub.inProg, r.f = f → r.lost = true

theorem flr_left (b : Blk) (f : Nat) : FlrLeft b (b.flr f) f := by
  obtain ⟨hm, hp, ha, ht, hr, hn, hw, hl⟩ := flr_hub b f
  have hhub := hub_flrFlagged b f
  have hwin (g : Nat) : (flrFlagged b f).win g = b.win g := by rw [Blk.win, hhub, Blk.win]
  generalize flrFlagged b f = y at hm hp ha ht hr hn hw hl hhub hwin
  have hcleared (g : Nat) : winShown ((b.flr f).win g) = winShown (if g = f then { enabled := (b.win f).enabled } else b.win g) := by
    refine (hw g).trans (congrArg winShown ((win_flrCleared y f g).trans ?_))
    rw [hwin, hwin]
  have hfst (w : Win) : (winShown w).1 = w.enabled := rfl
  refine ⟨hm.trans ?_, hp.trans ?_, ha.trans ?_, ht.trans ?_, hr.trans ?_, hn.trans ?_, ?_, fun g => ?_, hl⟩
  · exact congrArg (fun h : Hub => h.moves.filter (fun m => m.f != f)) hhub
  · exact congrArg (fun h : Hub => h.prqs.filter (fun m => m.f != f)) hhub
  · exact congrArg (fun h : Hub => h.atc.filter (fun m => m.f != f)) hhub
  · exact congrArg (fun h : Hub => h.trans.filter (fun m => m.f != f)) hhub
  · exact congrArg (fun h : Hub => h.reads.filter (fun r => r.f != f || r.engine == 12)) hhub
  · exact (congrArg Hub.numVfs hhub : y.hub.numVfs = b.hub.numVfs)
  · rw [hcleared, if_pos rfl]
    rfl
  · have hg := congrArg Prod.fst (hcleared g)
    rw [hfst, hfst] at hg
    rw [hg]
    by_cases hgf : g = f
    · rw [if_pos hgf, hgf]
    · rw [if_neg hgf]

theorem funcOn_congr {x y : Blk} (h : ∀ g, (y.win g).enabled = (x.win g).enabled) (g : Nat) : y.funcOn g = x.funcOn g := by
  rw [Blk.funcOn, h, Blk.funcOn]

/-- The resets of a list of functions leave every window's enable, and no move of one of them that exists. -/
theorem flrs_left (fs : List Nat) (b : Blk) :
    let y := fs.foldl (fun b f => if b.funcOn f then b.flr f else b) b
    (∀ g, (y.win g).enabled = (b.win g).enabled) ∧
      ∀ m ∈ y.hub.moves, m ∈ b.hub.moves ∧ (m.f ∈ fs → b.funcOn m.f = false) := by
  induction fs generalizing b with
  | nil => exact ⟨fun _ => rfl, fun m hm => ⟨hm, fun h => absurd h (List.not_mem_nil)⟩⟩
  | cons f fs ih =>
    have hstep : (∀ g, ((if b.funcOn f then b.flr f else b).win g).enabled = (b.win g).enabled) ∧
        ∀ m ∈ (if b.funcOn f then b.flr f else b).hub.moves, m ∈ b.hub.moves ∧ (m.f = f → b.funcOn f = false) := by
      split
      · have hleft := flr_left b f
        refine ⟨hleft.enabled, fun m hm => ?_⟩
        rw [hleft.moves] at hm
        obtain ⟨hmem, hne⟩ := List.mem_filter.mp hm
        exact ⟨hmem, fun hf => absurd hf (by simpa using hne)⟩
      · next hoff => exact ⟨fun _ => rfl, fun m hm => ⟨hm, fun _ => by simpa using hoff⟩⟩
    rw [List.foldl_cons]
    generalize (if b.funcOn f then b.flr f else b) = x at hstep ⊢
    obtain ⟨hwins, hmoves⟩ := ih x
    refine ⟨fun g => (hwins g).trans (hstep.1 g), fun m hm => ?_⟩
    obtain ⟨hx, hfs⟩ := hmoves m hm
    obtain ⟨hb, hf⟩ := hstep.2 m hx
    refine ⟨hb, fun hin => ?_⟩
    obtain h | h := List.mem_cons.mp hin
    · rw [h]
      exact hf h
    · rw [← funcOn_congr hstep.1]
      exact hfs h

theorem baseRegs_cleared (ws : List Nat) (b : Blk) {w : Nat} (h : w ∈ ws) :
    (ws.foldl (fun b w => b.setReg (Reg.hubAptBase w) 0) b).reg (Reg.hubAptBase w) = 0 := by
  induction ws generalizing b with
  | nil => exact absurd h List.not_mem_nil
  | cons v ws ih =>
    rw [List.foldl_cons]
    by_cases hw : w ∈ ws
    · exact ih _ hw
    · obtain rfl : w = v := (List.mem_cons.mp h).resolve_right hw
      have hkeep (us : List Nat) (y : Blk) (hy : y.reg (Reg.hubAptBase w) = 0) :
          (us.foldl (fun b w => b.setReg (Reg.hubAptBase w) 0) y).reg (Reg.hubAptBase w) = 0 := by
        induction us generalizing y with
        | nil => exact hy
        | cons u us ihu =>
          refine ihu _ ?_
          by_cases hu : Reg.hubAptBase w = Reg.hubAptBase u
          · rw [hu, Blk.reg_setReg_self]
          · rw [Blk.reg_setReg_ne _ _ _ _ hu, hy]
      exact hkeep ws _ (Blk.reg_setReg_self _ _ _)

/-- The reset of PF0, with VF Enable, the aperture's bases and a staged delta cleared once every function has been reset. -/
theorem flrPf0_left (b : Blk) :
    b.flrPf0.hub.numVfs = 0 ∧ b.flrPf0.hub.apt = [] ∧ (∀ m ∈ b.flrPf0.hub.moves, 64 ≤ m.f ∨ b.funcOn m.f = false) ∧
      (∀ w, w < 16 → b.flrPf0.reg (Reg.hubAptBase w) = 0) ∧ (b.flrPf0.str.commit = none → b.flrPf0.str.staged = none) := by
  obtain ⟨-, hmoves⟩ := flrs_left (List.range 64) b
  unfold Blk.flrPf0
  extract_lets b1 h2 b2
  have hb1 : b1 = (List.range 64).foldl (fun b f => if b.funcOn f then b.flr f else b) b := rfl
  rw [← hb1] at hmoves
  clear_value b1
  have hbases : rest [.regs] ((List.range 16).foldl (fun b w => b.setReg (Reg.hubAptBase w) 0) b2) = rest [.regs] b2 :=
    rest_foldl (fun b w => rest_setReg (by decide) ..) _ b2
  have hregs (w : Nat) (hw : w < 16) := baseRegs_cleared (List.range 16) b2 (w := w) (List.mem_range.mpr hw)
  have hb2 : b2.hub.numVfs = 0 ∧ b2.hub.apt = [] ∧ b2.hub.moves = b1.hub.moves := ⟨rfl, rfl, rfl⟩
  generalize (List.range 16).foldl (fun b w => b.setReg (Reg.hubAptBase w) 0) b2 = y at hbases hregs ⊢
  have hhub : y.dropStaged.hub = b2.hub := by
    have hdrop : y.dropStaged.hub = y.hub := by
      unfold Blk.dropStaged
      split <;> rfl
    rw [hdrop, hub_of_rest hbases (by decide)]
  obtain ⟨hnum, hapt, hmv⟩ := hb2
  rw [hhub, hnum, hapt, hmv]
  refine ⟨rfl, rfl, fun m hm => ?_, fun w hw => ?_, ?_⟩
  · by_cases hf : m.f < 64
    · exact .inr ((hmoves m hm).2 (List.mem_range.mpr hf))
    · exact .inl (Nat.not_lt.mp hf)
  · have hreg : y.dropStaged.reg (Reg.hubAptBase w) = y.reg (Reg.hubAptBase w) := by
      unfold Blk.dropStaged
      split <;> rfl
    rw [hreg, hregs w hw]
  · unfold Blk.dropStaged
    cases hc : y.str.commit with
    | none => simp
    | some c => simp [hc]

theorem flrFunc_in {b : Blk} {f : Nat} (hup : b.dead = false) (hin : b.ideIn true f = true) (hon : b.funcOn f = true) :
    flrFunc b f = if f = 0 then b.flrPf0 else b.flr f := by
  simp [flrFunc, Blk.configured, hup, hin, hon]

/-- Settles O11: an FLR of a VF clears that function, and one of PF0 or a host-port reset clears every one that exists. -/
theorem functionResetsReachTheirFunctions : Obligations.FunctionResetsReachTheirFunctions := by
  unfold Obligations.FunctionResetsReachTheirFunctions
  refine ⟨?_, ?_, ?_, ?_, ?_⟩
  · intro cause s hup
    refine does_of_live (f := fun b => hostPortReset b) rfl hup ?_
    obtain ⟨hnum, hapt, hmoves, hbases, -⟩ := flrPf0_left s.blk
    have heq : hostPortReset s.blk = { s.blk.flrPf0 with fresh := s.blk.flrPf0.fresh + 1 }.setReg Reg.hubPcieStatus
        (BitVec.ofNat 32 (Config.pcieLink s.blk.flrPf0.fresh % 128)) := by
      unfold hostPortReset Blk.draw
      rw [if_neg (by simp [hup])]
    rw [heq]
    generalize s.blk.flrPf0 = y at hnum hapt hmoves hbases
    refine ⟨rfl, _, rfl, hnum, hapt, hmoves, fun w hw => ?_⟩
    exact (Blk.reg_setReg_ne _ _ _ _ (by simp only [Reg.hubAptBase, Reg.hubPcieStatus]; omega)).trans (hbases w hw)
  · intro f s hup hin hf hon
    have hne : f.val ≠ 0 := fun h => hf (Fin.ext h)
    have heq : flrFunc s.blk f = s.blk.flr f := by rw [flrFunc_in hup hin hon, if_neg hne]
    refine ⟨gives_of_live (f := fun b => flrFunc b f) rfl hup heq, does_of_live (f := fun b => flrFunc b f) rfl hup ?_⟩
    rw [heq]
    have hleft := flr_left s.blk f
    generalize s.blk.flr f = y at hleft
    have hwin := hleft.own
    simp only [winShown, Prod.mk.injEq] at hwin
    obtain ⟨hen, hbus, hsubs⟩ := hwin
    have hvf : (s.blk.win f).enabled = true := by
      simpa [Blk.funcOn, hne] using hon
    refine ⟨hen.trans hvf, hbus, hsubs, hleft.numVfs, hleft.moves, hleft.prqs, hleft.atc, hleft.trans, fun r hr => ?_, hleft.lost⟩
    rw [hleft.reads] at hr
    simpa using (List.mem_filter.mp hr).2
  · intro s hup hin
    refine does_of_live (f := fun b => flrFunc b 0) rfl hup ?_
    have heq : flrFunc s.blk 0 = s.blk.flrPf0 := by rw [flrFunc_in hup hin rfl, if_pos rfl]
    obtain ⟨hnum, hapt, hmoves, hbases, hstaged⟩ := flrPf0_left s.blk
    rw [heq]
    generalize s.blk.flrPf0 = y at hnum hapt hmoves hbases hstaged
    exact ⟨rfl, hnum, hapt, hmoves, hstaged, hbases⟩
  · intro f s hin hoff
    refine stays_of_live (f := fun b => flrFunc b f) rfl fun hup => ?_
    simp [flrFunc, Blk.configured, hup, hin, hoff]
  · intro f s hup hout
    refine gives_of_live (f := fun b => flrFunc b f) rfl hup ?_
    simp [flrFunc, Blk.configured, hup, hout]

end Sys2Proof.Proofs
end

/-! ## What a log record leaves

A log record may count lines that it writes or loses, and enters line operations in the queues of their channels. One argument for whatever
these leave: an always-on counter from 210 on, but for the one of lost records, or what a channel shows beside its queues. -/
section
namespace Sys2Proof.Proofs

open Sys2Proof.Machine

/-- A predicate that the steps of a log record leave: it speaks of none of the regions that these write whole, of no counter that they raise,
and of no queue of a Husk channel. -/
structure LogKeeps (P : Blk → Prop) : Prop where
  rest : ∀ {b y : Blk}, rest [.regs, .pcs, .pool, .ext, .rings] y = rest [.regs, .pcs, .pool, .ext, .rings] b → P b → P y
  aon : ∀ {b : Blk} {j : Nat} (n : Nat), j < 210 ∨ j = 225 → P b → P (b.aonAdd j n)
  queues : ∀ {b : Blk} {c : Nat} (g : HuskChan → HuskChan), (∀ h, ∃ r w, g h = { h with reads := r, writes := w }) → P b → P (b.modHusk c g)

theorem foldl_keeps {α : Type} {P : Blk → Prop} {g : Blk → α → Blk} (h : ∀ b a, P b → P (g b a)) (as : List α) {b : Blk} (hb : P b) :
    P (as.foldl g b) := by
  induction as generalizing b with
  | nil => exact hb
  | cons a as ih => exact ih (h b a hb)

theorem foldl_keeps_mem {α : Type} {P : Blk → Prop} {g : Blk → α → Blk} (as : List α) (h : ∀ a ∈ as, ∀ b, P b → P (g b a)) {b : Blk}
    (hb : P b) : P (as.foldl g b) := by
  induction as generalizing b with
  | nil => exact hb
  | cons a as ih => exact ih (fun x hx => h x (List.mem_cons_of_mem a hx)) (h a List.mem_cons_self b hb)

/-! ### Channels of lines -/

/-- Every line lies on one of the 24 channels, in every mode. -/
theorem huskPos_chan_lt (mode q d : Nat) (hq : q < 4) : (huskPos mode q d).1 < 24 := by
  have hsmall : ∀ m, m < 4 → (huskPos m q d).1 < 24 := fun m hm => by
    obtain ⟨j, hj, hchan⟩ := huskPos_chan d hq hm
    omega
  match mode with
  | 0 => exact hsmall 0 (by decide)
  | 1 => exact hsmall 1 (by decide)
  | 2 => exact hsmall 2 (by decide)
  | _ + 3 => exact hsmall 3 (by decide)

theorem mem_checkChans_lt {mode q c : Nat} {p : HuskPos} (hq : q < 4) (h : c ∈ checkChans mode q p) : c < 24 := by
  unfold checkChans at h
  split at h
  · obtain rfl := List.mem_singleton.mp h
    have := Nat.mod_lt p.2 (show 6 > 0 by decide)
    omega
  · obtain rfl | rfl := List.mem_pair.mp h
    · exact Nat.mod_lt _ (by decide)
    · exact Nat.mod_lt _ (by decide)
  · cases h

theorem mem_dataChans_lt {b : Blk} {l c : Nat} (h : c ∈ b.dataChans l) : c < 25 := by
  have hpos : (b.pos l).1 < 24 := huskPos_chan_lt _ _ _ (homeOf_lt l)
  simp only [Blk.dataChans, List.mem_append] at h
  obtain h | h := h
  · split at h
    · obtain rfl := List.mem_singleton.mp h
      omega
    · cases h
  · split at h
    · obtain rfl := List.mem_singleton.mp h
      omega
    · cases h

theorem mem_huskWrites_lt {b : Blk} {l c : Nat} (h : c ∈ b.huskWrites l) : c < 25 := by
  obtain h | h := List.mem_append.mp h
  · exact mem_dataChans_lt h
  · exact Nat.lt_succ_of_lt (mem_checkChans_lt (homeOf_lt l) (List.mem_filter.mp h).1)

/-! ### Line operations -/

section
variable {P : Blk → Prop} (hP : LogKeeps P)
include hP

theorem keep_of_rest {L : List Region} {b y : Blk} (hr : rest L y = rest L b) (hL : ∀ r ∈ L, r ∈ [.regs, .pcs, .pool, .ext, .rings])
    (h : P b) : P y :=
  hP.rest (rest_of_onlyBlk (onlyBlk_mono hL (onlyBlk_of_rest hr))) h

theorem keep_event (b : Blk) (unit code : Nat) (part : Option Nat) (n : Nat) (h : P b) : P (b.event unit code part n) :=
  keep_of_rest hP (L := [.pcs]) (rest_event (by decide) ..) (by decide) h

theorem keep_with_rings (b : Blk) (y : Rings) (h : P b) : P { b with rings := y } :=
  keep_of_rest hP (L := [.rings]) (rest_with_rings (by decide) ..) (by decide) h

theorem keep_countAccept (b : Blk) (l part : Nat) (h : P b) : P (b.countAccept (homeOf l) part) := by
  have hq := homeOf_lt l
  exact keep_event hP _ _ _ _ _ (hP.aon 1 (by omega) h)

theorem keep_countRefusal (b : Blk) (l status part : Nat) (h : P b) : P (b.countRefusal (homeOf l) status part) := by
  have hq := homeOf_lt l
  have hcnt : P ((b.incr (Reg.haRefuseCnt (homeOf l))).aonAdd (152 + homeOf l) 1) :=
    hP.aon 1 (by omega) (keep_of_rest hP (L := [.regs]) (rest_incr (by decide) ..) (by decide) h)
  refine keep_of_rest hP (L := [.pcs, .regs]) (b := (b.incr (Reg.haRefuseCnt (homeOf l))).aonAdd (152 + homeOf l) 1) ?_ (by decide) hcnt
  unfold Blk.countRefusal
  dsimp only
  split <;> split <;> split <;> simp [rest_event, rest_flag, rest_incr]

theorem keep_huskOp {b : Blk} {c : Nat} (hc : c < 25) (code part : Nat) (h : P b) : P (b.huskOp c code part) := by
  unfold Blk.huskOp
  dsimp only
  refine hP.queues _ (fun x => ?_) (keep_event hP _ _ _ _ _ (hP.aon 1 (by omega) ?_))
  · split
    · exact ⟨_, x.writes, rfl⟩
    · exact ⟨x.reads, _, rfl⟩
  · exact keep_of_rest hP (L := [.pool]) (b := b) (rest_with_pool (by decide) ..) (by decide) h

theorem keep_countHusk (b : Blk) (l code part : Nat) (h : P b) : P (b.countHusk l code part) := by
  refine foldl_keeps_mem _ (fun c hc y hy => keep_huskOp hP ?_ code part hy) h
  split at hc
  · exact mem_dataChans_lt (List.mem_of_mem_take hc)
  · exact mem_huskWrites_lt hc

theorem keep_countGrain (b : Blk) (l code part : Nat) (h : P b) : P (b.countGrain l code part) := by
  have hq := homeOf_lt l
  exact keep_event hP _ _ _ _ _ (hP.aon 1 (by omega) h)

theorem keep_countMerge (b : Blk) (l : Nat) (mask : BitVec 128) (h : P b) : P (b.countMerge l mask) := by
  unfold Blk.countMerge
  split
  · exact h
  · split
    · exact keep_countGrain hP _ _ _ _ h
    · exact keep_countHusk hP _ _ _ _ h

theorem keep_writeLine (b : Blk) (l : Nat) (bs : Bytes) (poison wb : Bool) (h : P b) : P (b.writeLine l bs poison wb) := by
  have hput (y : Blk) (c : Copy) (m : LineMeta) (hy : P y) : P (y.putCopy c l bs m) :=
    keep_of_rest hP (L := [.pool]) (rest_putCopy (by decide) ..) (by decide) hy
  have hhusk (y : Blk) (m : LineMeta) (hy : P y) : P (y.putHusk l bs m) :=
    keep_of_rest hP (L := [.pool]) (rest_putHusk (by decide) ..) (by decide) hy
  unfold Blk.writeLine
  dsimp only
  split
  · split
    · exact keep_countGrain hP _ _ _ _ (hput b _ _ h)
    · exact keep_countHusk hP _ _ _ _ (keep_countGrain hP _ _ _ _ (hhusk _ _ (hput b _ _ h)))
  · exact keep_countHusk hP _ _ _ _ (hhusk b _ h)

theorem keep_hubLine (b : Blk) (p : Nat × Bytes × BitVec 128) (h : P b) : P (b.hubLine p) := by
  have hacc : P ((b.countAccept (homeOf p.1) (b.check .dev .write p.1).part).bumpMod p.1 1) :=
    keep_of_rest hP (L := [.ext]) (rest_bumpMod (by decide) ..) (by decide) (keep_countAccept hP b p.1 _ h)
  unfold Blk.hubLine
  dsimp only
  split
  · exact keep_countRefusal hP _ _ _ _ h
  · split
    · exact keep_with_rings hP _ _ hacc
    · split
      · exact keep_countRefusal hP _ _ _ _ (keep_of_rest hP (L := [.ext]) (rest_unbump (by decide) ..) (by decide) hacc)
      · exact keep_writeLine hP _ _ _ _ _ (keep_countMerge hP _ _ _ hacc)

/-! ### Log records -/

theorem keep_hubPut (b : Blk) (ps : List (Nat × Bytes)) (h : P b) : P (b.hubPut ps).2 := by
  unfold Blk.hubPut
  dsimp only
  split
  · exact foldl_keeps (fun y p hy => foldl_keeps (keep_hubLine hP) _ hy) _ h
  · exact foldl_keeps (fun y l hy => keep_countRefusal hP y l _ _ hy) _ h

theorem keep_logPut (b : Blk) (bs : Bytes) (h : P b) : P (b.logPut bs).2 := by
  unfold Blk.logPut
  split
  · exact keep_with_rings hP b _ h
  · split
    · exact h
    · exact keep_with_rings hP _ _ (keep_hubPut hP b _ h)

theorem keep_logLose (b : Blk) (h : P b) : P b.logLose :=
  keep_of_rest hP (L := [.regs]) (rest_flag (by decide) ..) (by decide) (hP.aon 1 (.inr rfl) (keep_with_rings hP b _ h))

theorem keep_logRoom (b : Blk) (h : P b) : P b.logRoom :=
  keep_of_rest hP (L := [.rings]) (rest_logRoom (by decide) b) (by decide) h

theorem keep_logCatch (b : Blk) (h : P b) : P b.logCatch := by
  unfold Blk.logCatch
  dsimp only
  split
  · exact h
  · split
    · exact keep_with_rings hP _ _ (keep_logPut hP b _ h)
    · exact keep_logPut hP b _ h

theorem keep_logRing (b : Blk) (r : LogRec) (h : P b) : P (b.logRing r) := by
  have hroom := keep_logRoom hP _ (keep_logCatch hP _ (keep_logRoom hP b h))
  unfold Blk.logRing
  dsimp only
  split
  · exact keep_logLose hP _ hroom
  · split
    · exact keep_logPut hP _ _ hroom
    · exact keep_logLose hP _ (keep_logPut hP _ _ hroom)

theorem keep_log (b : Blk) (code unit part a bb flags : Nat) (h : P b) : P (b.log code unit part a bb flags) := by
  unfold Blk.log Blk.logRaise
  split
  · exact keep_logRing hP b _ h
  · split
    · exact keep_with_rings hP b _ h
    · exact keep_logLose hP b h

end

/-! ### What is kept -/

/-- Counter k, which no line operation and no lost log record counts, is kept. -/
theorem logKeeps_aonAt {k : Nat} (hk : 210 ≤ k) (hne : k ≠ 225) (v : Nat) : LogKeeps (fun b => aonAt b k = v) where
  rest hr h := (aonAt_congr (aon_of_rest hr (by decide)) k).trans h
  aon n hj h := (aonAt_aonAdd_ne _ n (by omega)).trans h
  queues g _ h := h

/-- What a Husk channel shows beside its queues is kept. -/
theorem logKeeps_husk {α : Type} (c : Nat) (Q : HuskChan → α) (hQ : ∀ h r w, Q { h with reads := r, writes := w } = Q h) (v : α) :
    LogKeeps (fun b => Q (b.husk c) = v) where
  rest {b y} hr h := by
    rw [Blk.husk, chans_of_rest hr (by decide)]
    exact h
  aon _ _ h := h
  queues {b c'} g hg h := by
    by_cases hc : c = c'
    · subst hc
      obtain ⟨r, w, hrw⟩ := hg (b.husk c)
      rw [Blk.husk_modHusk_self, hrw, hQ]
      exact h
    · rw [husk_modHusk_ne b g hc]
      exact h

theorem aonAt_log_high {k : Nat} (hk : 210 ≤ k) (hne : k ≠ 225) (b : Blk) (code unit part a bb flags : Nat) :
    aonAt (b.log code unit part a bb flags) k = aonAt b k :=
  keep_log (logKeeps_aonAt hk hne _) b code unit part a bb flags rfl

end Sys2Proof.Proofs
end

/-! ## Writes of registers by their access codes -/
section
namespace Sys2Proof.Proofs

open Sys2Proof.Machine

/-! ### One field (R22) -/

theorem ofNat_shifted_getLsbD (n w lo i : Nat) (h : lo + w ≤ 32) (hn : n < 2 ^ w) :
    (BitVec.ofNat 32 (n * 2 ^ lo)).getLsbD i = (decide (lo ≤ i) && n.testBit (i - lo)) := by
  have hbit : n.testBit (i - lo) = true → i - lo < w := fun ht => by
    by_contra hlt
    have := Nat.testBit_lt_two_pow (Nat.lt_of_lt_of_le hn (Nat.pow_le_pow_right (by decide) (Nat.not_lt.mp hlt)))
    simp [this] at ht
  rw [BitVec.getLsbD_ofNat, Nat.testBit_mul_two_pow]
  by_cases hlo : lo ≤ i
  · cases ht : n.testBit (i - lo)
    · simp
    · have := hbit ht
      simp [hlo]
      omega
  · simp [hlo]

theorem putField_getLsbD (r : Word) (lo w v i : Nat) (h : lo + w ≤ 32) (hi : i < 32) :
    (putField r lo w v).getLsbD i = if lo ≤ i ∧ i < lo + w then v.testBit (i - lo) else r.getLsbD i := by
  have hpow : 0 < 2 ^ w := Nat.two_pow_pos w
  have hmask := ofNat_shifted_getLsbD (2 ^ w - 1) w lo i h (Nat.sub_lt hpow Nat.one_pos)
  have hval := ofNat_shifted_getLsbD (v % 2 ^ w) w lo i h (Nat.mod_lt v hpow)
  have hin : (decide (lo ≤ i) && decide (i - lo < w)) = decide (lo ≤ i ∧ i < lo + w) := by
    rw [Bool.eq_iff_iff]
    simp
    omega
  simp only [putField, BitVec.getLsbD_or, BitVec.getLsbD_and, BitVec.getLsbD_not, hmask, hval, Nat.testBit_two_pow_sub_one, Nat.testBit_mod_two_pow,
    hin, hi]
  by_cases hlo : lo ≤ i ∧ i < lo + w
  · have hw : i - lo < w := by omega
    simp [hlo, hw]
  · have hw : ¬ (lo ≤ i ∧ i - lo < w) := by omega
    have hout : (decide (lo ≤ i) && (decide (i - lo < w) && v.testBit (i - lo))) = false := by
      rw [← Bool.and_assoc, hin, decide_eq_false hlo, Bool.false_and]
    simp [hlo, hout]

theorem write_of_kept {f : RField} (h : f.acc = .ro ∨ f.acc = .wo ∨ f.acc = .rwl ∨ f.acc = .ep) (v old : Word) : f.write v old = old := by
  obtain h | h | h | h := h <;> simp [RField.write, h]

theorem write_rw_getLsbD {f : RField} (h : f.acc = .rw) (v old : Word) {i : Nat} (hw : f.lo + f.width ≤ 32) (hi : i < 32) :
    (f.write v old).getLsbD i = if f.lo ≤ i ∧ i < f.lo + f.width then
      (f.clamped ((v >>> f.lo).toNat % 2 ^ f.width)).testBit (i - f.lo) else old.getLsbD i := by
  simp only [RField.write, h, putField_getLsbD _ _ _ _ _ hw hi]

/-- The written bits of a field are those of the word. -/
theorem written_testBit (v : Word) {lo w i : Nat} (h : lo ≤ i ∧ i < lo + w) :
    ((v >>> lo).toNat % 2 ^ w).testBit (i - lo) = v.getLsbD i := by
  have hw : i - lo < w := by omega
  have hi : lo + (i - lo) = i := by omega
  rw [Nat.testBit_mod_two_pow, decide_eq_true hw, Bool.true_and, BitVec.testBit_toNat, BitVec.getLsbD_ushiftRight, hi]

theorem write_w1c_getLsbD {f : RField} (h : f.acc = .w1c) (v old : Word) {i : Nat} (hw : f.lo + f.width ≤ 32) (hi : i < 32) :
    (f.write v old).getLsbD i = if f.lo ≤ i ∧ i < f.lo + f.width then old.getLsbD i && !v.getLsbD i else old.getLsbD i := by
  simp only [RField.write, h, BitVec.getLsbD_and, BitVec.getLsbD_not, putField_getLsbD _ _ _ _ _ hw hi, hi]
  by_cases hin : f.lo ≤ i ∧ i < f.lo + f.width
  · rw [if_pos hin, if_pos hin, written_testBit v hin, decide_true, Bool.true_and]
  · rw [if_neg hin, if_neg hin]
    simp

theorem write_outside (f : RField) (v old : Word) {i : Nat} (hw : f.lo + f.width ≤ 32) (hi : i < 32)
    (hout : ¬ (f.lo ≤ i ∧ i < f.lo + f.width)) : (f.write v old).getLsbD i = old.getLsbD i := by
  cases h : f.acc with
  | rw => rw [write_rw_getLsbD h v old hw hi, if_neg hout]
  | w1c => rw [write_w1c_getLsbD h v old hw hi, if_neg hout]
  | ro => rw [write_of_kept (.inl h)]
  | wo => rw [write_of_kept (.inr (.inl h))]
  | rwl => rw [write_of_kept (.inr (.inr (.inl h)))]
  | ep => rw [write_of_kept (.inr (.inr (.inr h)))]

/-! ### The registers with EP or RWL fields -/

/-- A field of a register stands in the table of its block. -/
theorem mem_regFields {off : Nat} {f : RField} (h : f ∈ regFields off) :
    ∃ k ∈ regBlocks, k.base ≤ off ∧ ∃ r ∈ k.regs, f ∈ r.fields ∧
      r.off = if k.stride = 0 then off - k.base else (off - k.base) % k.stride := by
  unfold regFields at h
  split at h
  · cases h
  · next k hk =>
    have hin := List.find?_some hk
    simp only [Bool.and_eq_true, decide_eq_true_eq] at hin
    refine ⟨k, List.mem_of_find?_eq_some hk, hin.1, ?_⟩
    dsimp only at h
    generalize hr : k.regs.find? (fun r => r.off = if k.stride = 0 then off - k.base else (off - k.base) % k.stride) = x at h
    cases x with
    | none => cases h
    | some r => exact ⟨r, List.mem_of_find?_eq_some hr, h, by simpa using List.find?_some hr⟩

/-- Where the fields of an access code may stand: at one offset of one block that is not repeated, beside fields of the same code only. -/
def onlyAt (a : Acc) (base : Nat) (offs : List Nat) : Bool :=
  regBlocks.all (fun k => k.regs.all (fun r => !r.fields.any (fun f => f.acc == a) ||
    (k.base == base && k.stride == 0 && offs.contains r.off)))

theorem onlyAt_ep : onlyAt .ep 0x5090000 [0xC] = true := by decide

theorem onlyAt_rwl : onlyAt .rwl 0x30000 [0x0, 0x24, 0x28, 0x2C, 0x44] = true := by decide

theorem offset_of_onlyAt {a : Acc} {base : Nat} {offs : List Nat} (h : onlyAt a base offs = true) {off : Nat} (ha : hasAcc off a = true) :
    ∃ o ∈ offs, off = base + o := by
  obtain ⟨f, hf, hacc⟩ := List.any_eq_true.mp ha
  obtain ⟨k, hk, hbase, r, hr, hfr, hoff⟩ := mem_regFields hf
  have hall := List.all_eq_true.mp (List.all_eq_true.mp h k hk) r hr
  have hany : r.fields.any (fun f => f.acc == a) = true := List.any_eq_true.mpr ⟨f, hfr, hacc⟩
  simp only [hany, Bool.not_true, Bool.false_or, Bool.and_eq_true, beq_iff_eq, List.contains_iff_mem] at hall
  obtain ⟨⟨hb, hs⟩, hin⟩ := hall
  rw [hs] at hoff
  simp only [if_true] at hoff
  exact ⟨r.off, hin, by omega⟩

theorem off_of_ep {off : Nat} (h : hasAcc off .ep = true) : off = 0x509000C := by
  obtain ⟨o, ho, rfl⟩ := offset_of_onlyAt onlyAt_ep h
  obtain rfl := List.mem_singleton.mp ho
  rfl

theorem off_of_rwl {off : Nat} (h : hasAcc off .rwl = true) : off ∈ [0x30000, 0x30024, 0x30028, 0x3002C, 0x30044] := by
  obtain ⟨o, ho, rfl⟩ := offset_of_onlyAt onlyAt_rwl h
  have hall : ∀ o ∈ [0x0, 0x24, 0x28, 0x2C, 0x44], 0x30000 + o ∈ [0x30000, 0x30024, 0x30028, 0x3002C, 0x30044] := by decide
  exact hall o ho

/-- The register of EP fields and those of RWL fields hold nothing that a write stores. -/
theorem fieldsKept {off : Nat} (h : hasAcc off .ep = true ∨ hasAcc off .rwl = true) (v w : Word) :
    (regFields off).foldl (fun r f => f.write v r) w = w := by
  have hkept : ∀ o ∈ [0x509000C, 0x30000, 0x30024, 0x30028, 0x3002C, 0x30044],
      (regFields o).all (fun f => f.acc == .rwl || f.acc == .ep) = true := by decide
  have hoff : off ∈ [0x509000C, 0x30000, 0x30024, 0x30028, 0x3002C, 0x30044] := by
    obtain h | h := h
    · exact List.mem_cons.mpr (.inl (off_of_ep h))
    · exact List.mem_cons_of_mem _ (off_of_rwl h)
  have hall := List.all_eq_true.mp (hkept off hoff)
  generalize regFields off = fs at hall
  induction fs with
  | nil => rfl
  | cons f fs ih =>
    have hf := hall f List.mem_cons_self
    simp only [Bool.or_eq_true, beq_iff_eq] at hf
    rw [List.foldl_cons, write_of_kept (.inr (.inr hf))]
    exact ih fun x hx => hall x (List.mem_cons_of_mem f hx)

end Sys2Proof.Proofs
end

/-! ## Register writes that raise a log record, and the tier defaults -/
section
namespace Sys2Proof.Proofs

open Sys2Proof.Machine

/-! ### A log record is raised (R428, R429) -/

theorem logRoom_of_free {b : Blk} (h : 32 ≤ b.rings.log.free b.logSize) : b.logRoom = b := by
  unfold Blk.logRoom
  split
  · rw [Ring.makeRoom, if_pos h]
  · rfl

theorem logCatch_of_kept {b : Blk} (h : b.rings.log.lost = 0) : b.logCatch = b := by
  simp [Blk.logCatch, h]

theorem logRec_bytes_length (r : LogRec) : r.bytes.length = 32 := by
  simp [LogRec.bytes, zeros, toLe]

theorem ringParts_of_fits {size head : Nat} {bs : Bytes} (h : bs.length ≤ size - head) : ringParts size head bs = [(head, bs)] := by
  simp [ringParts, h]

/-- In a default ring that has lost nothing and has room a record stands at HEAD, which moves on. -/
theorem logRing_default {b : Blk} (hext : b.rings.log.ext = none) (hlost : b.rings.log.lost = 0) (haligned : b.rings.log.head % 32 = 0)
    (hhead : b.rings.log.head < ring0Size) (hfree : 32 ≤ b.rings.log.free ring0Size) (r : LogRec) :
    cread (b.logRing r).rings.ring0 b.rings.log.head 32 = r.bytes ∧
      (b.logRing r).rings.log.head = (b.rings.log.head + 32) % ring0Size := by
  have hsize : b.logSize = ring0Size := by simp [Blk.logSize, hext]
  have hroom : b.logRoom = b := logRoom_of_free (hsize.symm ▸ hfree)
  have hcall : b.logRoom.logCatch.logRoom = b := by rw [hroom, logCatch_of_kept hlost, hroom]
  have hfits : (decide (b.rings.log.lost ≠ 0) || decide (b.rings.log.free b.logSize < 32)) = false := by
    rw [hsize]
    simp [hlost, hfree]
  have hparts : ringParts ring0Size b.rings.log.head r.bytes = [(b.rings.log.head, r.bytes)] :=
    ringParts_of_fits (by
      have hdef : ring0Size = 32 * 131072 := rfl
      rw [logRec_bytes_length]
      omega)
  have hput : b.logRing r = (b.logPut r.bytes).2 ∧ (b.logPut r.bytes).2 = { b with
      rings.ring0 := cwrite b.rings.ring0 b.rings.log.head r.bytes
      rings.log := { b.rings.log with head := (b.rings.log.head + 32) % ring0Size } } := by
    have hval : b.logPut r.bytes = (true, { b with
        rings.ring0 := cwrite b.rings.ring0 b.rings.log.head r.bytes
        rings.log := { b.rings.log with head := (b.rings.log.head + 32) % ring0Size } }) := by
      unfold Blk.logPut
      rw [hext]
      simp only [hparts, logRec_bytes_length, List.foldl_cons, List.foldl_nil]
    refine ⟨?_, by rw [hval]⟩
    unfold Blk.logRing
    dsimp only
    rw [hcall, hfits, hval]
    rfl
  rw [hput.1, hput.2]
  exact ⟨cread_cwrite_self _ _ (logRec_bytes_length r), rfl⟩

theorem logged_log (b : Blk) (code unit part a bb : Nat) : Logged b (b.log code unit part a bb) ⟨b.tb, code, unit, part, 0, a, bb⟩ := by
  unfold Blk.log Blk.logRaise
  refine ⟨fun hwait hroom => ?_, fun hready hext hlost haligned hhead hfree => ?_⟩
  · rw [hwait, if_neg (by decide), if_pos hroom]
  · rw [if_pos hready]
    exact logRing_default hext hlost haligned hhead hfree _

theorem logged_congr {x x' y y' : Blk} {r : LogRec} (hx : x'.logReady = x.logReady ∧ x'.rings = x.rings) (hy : y'.rings = y.rings)
    (h : Logged x y r) : Logged x' y' r := by
  unfold Logged at h ⊢
  rw [hx.1, hx.2, hy]
  exact h

/-- A word that no log record counts or flags. -/
theorem reg_log_of_quiet {b : Blk} {wd : Nat} (h : ∀ i, QuietBit wd i) (code unit part a bb flags : Nat) :
    (b.log code unit part a bb flags).reg wd = b.reg wd :=
  BitVec.eq_of_getLsbD_eq fun i _ => qbit_log (h i) b code unit part a bb flags

/-! ### Writes that the access codes turn away (R22, R72) -/

/-- The words of the register of EP fields and of those of RWL fields, and those of STR. -/
theorem quietBit_of_kept {wd : Nat} (h : wd ∈ [0x509000C, 0x30000, 0x30024, 0x30028, 0x3002C, 0x30044, Reg.strErr, Reg.strLiveWriteCnt,
    Reg.strLiveWriteAddr]) (i : Nat) : QuietBit wd i := by
  have hne : ∀ wd ∈ [0x509000C, 0x30000, 0x30024, 0x30028, 0x3002C, 0x30044, Reg.strErr, Reg.strLiveWriteCnt, Reg.strLiveWriteAddr],
      wd ≠ Reg.hubRetryCnt ∧ wd ≠ Reg.obsTraceLossCnt ∧ wd ≠ Reg.pwrErr ∧ wd ≠ Reg.obsErr ∧ (wd < 0x3000000 ∨ wd = 0x509000C) := by decide
  obtain ⟨hretry, hloss, hpwr, hobs, hrange⟩ := hne wd h
  refine ⟨fun q _ => ?_, hretry, hloss, fun q _ => .inl ?_, .inl hpwr, .inl hobs, .inl hobs⟩
  · unfold Reg.haRefuseCnt
    omega
  · unfold Reg.haErr
    omega

theorem writeReg_of_plain {off : Nat} (h : ownRow off = false) (b : Blk) (v : Word) : b.writeReg off v = b.accWrite off v := by
  simp only [ownRow, Bool.or_eq_false_iff, List.contains_cons, List.contains_nil, beq_eq_false_iff_ne, Option.isSome_eq_false_iff,
    Option.isNone_iff_eq_none] at h
  simp [Blk.writeReg, h]

theorem reg_fieldWrite_of_kept {off : Nat} (h : hasAcc off .ep = true ∨ hasAcc off .rwl = true) (b : Blk) (v : Word) (o : Nat) :
    (b.fieldWrite off v).reg o = b.reg o := by
  rw [Blk.fieldWrite, fieldsKept h]
  by_cases ho : o = off
  · rw [ho, Blk.reg_setReg_self]
  · rw [Blk.reg_setReg_ne _ _ _ _ ho]

/-- A write of the register of EP fields: flagged, logged, counted, with its offset kept, and otherwise without effect. -/
structure LiveWritten (b y : Blk) (off : Nat) : Prop where
  frame : rest quietRegions y = rest quietRegions b
  kept : y.reg off = b.reg off
  addr : y.reg Reg.strLiveWriteAddr = BitVec.ofNat 32 off
  flagged : (y.reg Reg.strErr).getLsbD 0 = true
  cnt : (y.reg Reg.strLiveWriteCnt).toNat = min ((b.reg Reg.strLiveWriteCnt).toNat + 1) 0xFFFFFFFF
  counted : aonAt y 216 = min (aonAt b 216 + 1) (2 ^ 64 - 1)
  logged : Logged b y ⟨b.tb, 0x01, 0xFF, 0, 0, off, 0⟩

theorem rest_quiet_log (b : Blk) (code unit part a bb flags : Nat) :
    rest quietRegions (b.log code unit part a bb flags) = rest quietRegions b :=
  rest_log (by decide) (by decide) (by decide) (by decide) (by decide) (by decide) (by decide) ..

theorem liveWrite_spec (b : Blk) : LiveWritten b (b.liveWrite 0x509000C) 0x509000C := by
  have hquiet (wd : Nat) (h : wd ∈ [0x509000C, 0x30000, 0x30024, 0x30028, 0x3002C, 0x30044, Reg.strErr, Reg.strLiveWriteCnt,
      Reg.strLiveWriteAddr]) := reg_log_of_quiet (b := b.flag Reg.strErr 0) (quietBit_of_kept h) 0x01 0xFF 0 0x509000C 0 0
  have hlog : Logged b ((b.flag Reg.strErr 0).log 0x01 0xFF 0 0x509000C 0) ⟨b.tb, 0x01, 0xFF, 0, 0, 0x509000C, 0⟩ :=
    logged_congr (x := b.flag Reg.strErr 0) ⟨rfl, rfl⟩ rfl (logged_log (b.flag Reg.strErr 0) 0x01 0xFF 0 0x509000C 0)
  have haon : aonAt ((b.flag Reg.strErr 0).log 0x01 0xFF 0 0x509000C 0) 216 = aonAt b 216 :=
    aonAt_log_high (by decide) (by decide) ..
  have hframe : rest quietRegions ((b.flag Reg.strErr 0).log 0x01 0xFF 0 0x509000C 0) = rest quietRegions b := by
    rw [rest_quiet_log, rest_flag (by decide)]
  have hoff := hquiet 0x509000C (by decide)
  have herr := hquiet Reg.strErr (by decide)
  have hcnt := hquiet Reg.strLiveWriteCnt (by decide)
  unfold Blk.liveWrite
  dsimp only
  generalize (b.flag Reg.strErr 0).log 0x01 0xFF 0 0x509000C 0 = y at hlog haon hframe hoff herr hcnt
  have hincr (wd : Nat) (h : wd ≠ Reg.strLiveWriteCnt) : ((y.aonAdd 216 1).incr Reg.strLiveWriteCnt).reg wd = y.reg wd := reg_incr_ne _ h
  refine ⟨?_, ?_, Blk.reg_setReg_self .., ?_, ?_, ?_, logged_congr (y := y) ⟨rfl, rfl⟩ rfl hlog⟩
  · rw [rest_setReg (by decide), rest_incr (by decide), rest_aonAdd (by decide), hframe]
  · rw [Blk.reg_setReg_ne _ _ _ _ (by decide), hincr _ (by decide), hoff]
    exact Blk.reg_setReg_ne b _ _ _ (by decide)
  · rw [Blk.reg_setReg_ne _ _ _ _ (by decide), hincr _ (by decide), herr]
    exact bit_reg_flag _ _ _ (by decide)
  · rw [Blk.reg_setReg_ne _ _ _ _ (by decide), toNat_reg_incr]
    have hy : (y.aonAdd 216 1).reg Reg.strLiveWriteCnt = b.reg Reg.strLiveWriteCnt := hcnt.trans (Blk.reg_setReg_ne b _ _ _ (by decide))
    rw [hy]
  · have hset : aonAt (((y.aonAdd 216 1).incr Reg.strLiveWriteCnt).setReg Reg.strLiveWriteAddr (BitVec.ofNat 32 0x509000C)) 216 =
        aonAt (y.aonAdd 216 1) 216 :=
      aonAt_congr (aon_of_rest (L := [.regs]) (by rw [rest_setReg (by decide), rest_incr (by decide)]) (by decide)) 216
    rw [hset, aonAt_aonAdd_self, haon]

/-- A write of a register of RWL fields after the lock: flagged, logged and counted, and otherwise without effect. -/
structure GuardWritten (b y : Blk) (off : Nat) : Prop where
  frame : rest quietRegions y = rest quietRegions b
  kept : y.reg off = b.reg off
  flagged : (y.reg Reg.strErr).getLsbD 1 = true
  counted : aonAt y 217 = min (aonAt b 217 + 1) (2 ^ 64 - 1)
  logged : Logged b y ⟨b.tb, 0x02, 0xFF, 0, 0, off, 0⟩

theorem guardWrite_spec {b : Blk} (hlock : b.str.locked = true) {off : Nat}
    (hoff : off ∈ [0x30000, 0x30024, 0x30028, 0x3002C, 0x30044]) : GuardWritten b (b.guardWrite off) off := by
  have hne : ∀ o ∈ [0x30000, 0x30024, 0x30028, 0x3002C, 0x30044], o ≠ Reg.strErr := by decide
  have hin : off ∈ [0x509000C, 0x30000, 0x30024, 0x30028, 0x3002C, 0x30044, Reg.strErr, Reg.strLiveWriteCnt, Reg.strLiveWriteAddr] :=
    List.mem_cons_of_mem _ (List.mem_append_left [Reg.strErr, Reg.strLiveWriteCnt, Reg.strLiveWriteAddr] hoff)
  have hquiet := reg_log_of_quiet (b := b.flag Reg.strErr 1) (quietBit_of_kept hin) 0x02 0xFF 0 off 0 0
  have herr := reg_log_of_quiet (b := b.flag Reg.strErr 1) (quietBit_of_kept (wd := Reg.strErr) (by decide)) 0x02 0xFF 0 off 0 0
  have hlog : Logged b ((b.flag Reg.strErr 1).log 0x02 0xFF 0 off 0) ⟨b.tb, 0x02, 0xFF, 0, 0, off, 0⟩ :=
    logged_congr (x := b.flag Reg.strErr 1) ⟨rfl, rfl⟩ rfl (logged_log (b.flag Reg.strErr 1) 0x02 0xFF 0 off 0)
  have haon : aonAt ((b.flag Reg.strErr 1).log 0x02 0xFF 0 off 0) 217 = aonAt b 217 :=
    aonAt_log_high (by decide) (by decide) ..
  have hframe : rest quietRegions ((b.flag Reg.strErr 1).log 0x02 0xFF 0 off 0) = rest quietRegions b := by
    rw [rest_quiet_log, rest_flag (by decide)]
  unfold Blk.guardWrite
  rw [if_pos hlock]
  generalize (b.flag Reg.strErr 1).log 0x02 0xFF 0 off 0 = y at hlog haon hframe hquiet herr
  refine ⟨(rest_aonAdd (by decide) ..).trans hframe, hquiet.trans (Blk.reg_setReg_ne b _ _ _ (hne off hoff)), ?_, ?_,
    logged_congr (y := y) ⟨rfl, rfl⟩ rfl hlog⟩
  · have hy : (y.aonAdd 217 1).reg Reg.strErr = y.reg Reg.strErr := rfl
    rw [hy, herr]
    exact bit_reg_flag _ _ _ (by decide)
  · rw [aonAt_aonAdd_self, haon]

theorem regFields_of_hasAcc {off : Nat} {a : Acc} (h : hasAcc off a = true) : (regFields off).isEmpty = false := by
  obtain ⟨f, hf, -⟩ := List.any_eq_true.mp h
  exact List.isEmpty_eq_false_iff.mpr (List.ne_nil_of_mem hf)

/-! ### The obligation, clause by clause -/

/-- A register write of the host reaches the register of a plain row under its access codes. -/
theorem does_registerWrite {s : State} (h : HostWrites s.blk) {off : BitVec 28} (hplain : ownRow off.toNat = false) {v : Word}
    {p : State → Prop} (hp : p { s with blk := s.blk.accWrite off.toNat v }) : Does (.registerWrite off v) s p := by
  refine does_of_live (f := fun b => registerWrite b off.toNat v) rfl h.up ?_
  have hrun : registerWrite s.blk off.toNat v = s.blk.accWrite off.toNat v := by
    rw [registerWrite, posted_of_hostWrites h, writeReg_of_plain hplain]
  show p { s with blk := registerWrite s.blk off.toNat v }
  rw [hrun]
  exact hp

theorem accWrite_of_ep {off : Nat} (hep : hasAcc off .ep = true) (hrwl : hasAcc off .rwl = false) (b : Blk) (v : Word) :
    b.accWrite off v = (b.liveWrite off).fieldWrite off v := by
  simp [Blk.accWrite, hep, hrwl, regFields_of_hasAcc hep]

theorem ep_of_rwl {off : Nat} (hrwl : hasAcc off .rwl = true) : hasAcc off .ep = false := by
  have hnone : ∀ o ∈ [0x30000, 0x30024, 0x30028, 0x3002C, 0x30044], o ≠ 0x509000C := by decide
  exact Bool.eq_false_iff.mpr fun hep => hnone off (off_of_rwl hrwl) (off_of_ep hep)

theorem accWrite_of_rwl {off : Nat} (hrwl : hasAcc off .rwl = true) (b : Blk) (v : Word) :
    b.accWrite off v = (b.guardWrite off).fieldWrite off v := by
  simp [Blk.accWrite, ep_of_rwl hrwl, hrwl, regFields_of_hasAcc hrwl]

theorem registerWrite_plain {s : State} {off : BitVec 28} {v : Word} (h : HostWrites s.blk) (hplain : ownRow off.toNat = false)
    (hep : hasAcc off.toNat .ep = false) (hrwl : hasAcc off.toNat .rwl = false) (hfields : (regFields off.toNat).isEmpty = false) :
    Does (.registerWrite off v) s (fun t => Only [.regs] s t ∧
      t.blk.reg off.toNat = (regFields off.toNat).foldl (fun r f => f.write v r) (s.blk.reg off.toNat) ∧
      (∀ o, o ≠ off.toNat → t.blk.reg o = s.blk.reg o)) := by
  refine does_registerWrite h hplain ?_
  have hrun : s.blk.accWrite off.toNat v = s.blk.fieldWrite off.toNat v := by
    simp [Blk.accWrite, hep, hrwl, hfields]
  rw [hrun]
  exact ⟨only_of_blk (onlyBlk_of_rest (rest_fieldWrite (by decide) ..)), Blk.reg_setReg_self .., fun o ho => Blk.reg_setReg_ne _ _ _ _ ho⟩

theorem registerWrite_ep {s : State} {off : BitVec 28} {v : Word} (h : HostWrites s.blk) (hplain : ownRow off.toNat = false)
    (hep : hasAcc off.toNat .ep = true) (hrwl : hasAcc off.toNat .rwl = false) :
    Does (.registerWrite off v) s (fun t => Only quietRegions s t ∧ t.blk.reg off.toNat = s.blk.reg off.toNat ∧
      t.blk.reg Reg.strLiveWriteAddr = BitVec.ofNat 32 off.toNat ∧ (t.blk.reg Reg.strErr).getLsbD 0 = true ∧
      (t.blk.reg Reg.strLiveWriteCnt).toNat = min ((s.blk.reg Reg.strLiveWriteCnt).toNat + 1) 0xFFFFFFFF ∧
      tget (fun _ => 0) t.blk.aon 216 = min (tget (fun _ => 0) s.blk.aon 216 + 1) (2 ^ 64 - 1) ∧
      Logged s.blk t.blk ⟨s.blk.tb, 0x01, 0xFF, 0, 0, off.toNat, 0⟩) := by
  refine does_registerWrite h hplain ?_
  rw [accWrite_of_ep hep hrwl]
  have hreg := reg_fieldWrite_of_kept (.inl hep) (s.blk.liveWrite off.toNat) v
  have hspec : LiveWritten s.blk (s.blk.liveWrite off.toNat) off.toNat := by
    rw [off_of_ep hep]
    exact liveWrite_spec s.blk
  dsimp only
  generalize s.blk.liveWrite off.toNat = y at hreg hspec
  refine ⟨only_of_blk (onlyBlk_of_rest ((rest_fieldWrite (by decide) ..).trans hspec.frame)), (hreg _).trans hspec.kept,
    (hreg _).trans hspec.addr, ?_, ?_, hspec.counted, logged_congr (y := y) ⟨rfl, rfl⟩ rfl hspec.logged⟩
  · rw [hreg, hspec.flagged]
  · rw [hreg, hspec.cnt]

theorem registerWrite_locked {s : State} {off : BitVec 28} {v : Word} (h : HostWrites s.blk) (hplain : ownRow off.toNat = false)
    (hrwl : hasAcc off.toNat .rwl = true) (hlock : s.blk.str.locked = true) :
    Does (.registerWrite off v) s (fun t => Only quietRegions s t ∧ t.blk.reg off.toNat = s.blk.reg off.toNat ∧
      (t.blk.reg Reg.strErr).getLsbD 1 = true ∧
      tget (fun _ => 0) t.blk.aon 217 = min (tget (fun _ => 0) s.blk.aon 217 + 1) (2 ^ 64 - 1) ∧
      Logged s.blk t.blk ⟨s.blk.tb, 0x02, 0xFF, 0, 0, off.toNat, 0⟩) := by
  refine does_registerWrite h hplain ?_
  rw [accWrite_of_rwl hrwl]
  have hreg := reg_fieldWrite_of_kept (.inr hrwl) (s.blk.guardWrite off.toNat) v
  have hspec := guardWrite_spec hlock (off_of_rwl hrwl)
  dsimp only
  generalize s.blk.guardWrite off.toNat = y at hreg hspec
  refine ⟨only_of_blk (onlyBlk_of_rest ((rest_fieldWrite (by decide) ..).trans hspec.frame)), (hreg _).trans hspec.kept, ?_,
    hspec.counted, logged_congr (y := y) ⟨rfl, rfl⟩ rfl hspec.logged⟩
  rw [hreg, hspec.flagged]

theorem registerWrite_unlocked {s : State} {off : BitVec 28} {v : Word} (h : HostWrites s.blk) (hplain : ownRow off.toNat = false)
    (hrwl : hasAcc off.toNat .rwl = true) (hlock : s.blk.str.locked = false) :
    Does (.registerWrite off v) s (fun t => Only [.regs] s t ∧ ∀ o, t.blk.reg o = s.blk.reg o) := by
  refine does_registerWrite h hplain ?_
  have hguard : s.blk.guardWrite off.toNat = s.blk := by simp [Blk.guardWrite, hlock]
  rw [accWrite_of_rwl hrwl, hguard]
  exact ⟨only_of_blk (onlyBlk_of_rest (rest_fieldWrite (by decide) ..)), reg_fieldWrite_of_kept (.inr hrwl) _ v⟩

theorem registerWrite_outside {s : State} {off : BitVec 28} {v : Word} (hup : s.blk.dead = false) (hide : s.blk.ideIn true = false) :
    Does (.registerWrite off v) s (fun t => Only [.regs] s t ∧ (t.blk.reg Reg.secErr).getLsbD 5 = true ∧
      (t.blk.reg Reg.secIdeDropCnt).toNat = min ((s.blk.reg Reg.secIdeDropCnt).toNat + 1) 0xFFFFFFFF ∧
      (∀ o, o ≠ Reg.secErr → o ≠ Reg.secIdeDropCnt → t.blk.reg o = s.blk.reg o)) := by
  refine does_of_live (f := fun b => registerWrite b off.toNat v) rfl hup ?_
  have hrun : registerWrite s.blk off.toNat v = s.blk.ideDrop := by
    simp [registerWrite, Blk.posted, Blk.taken, hup, hide]
  dsimp only
  rw [hrun]
  refine ⟨only_of_blk (onlyBlk_of_rest (rest_ideDrop (by decide) ..)), bit_reg_flag _ _ _ (by decide), ?_, fun o ho hc => ?_⟩
  · show (((s.blk.incr Reg.secIdeDropCnt).setReg Reg.secErr _).reg Reg.secIdeDropCnt).toNat = _
    rw [Blk.reg_setReg_ne _ _ _ _ (by decide), toNat_reg_incr]
  · exact (Blk.reg_setReg_ne _ _ _ _ ho).trans (reg_incr_ne _ hc)

/-- The TIER entry that a write of STR_TIER gives a partition. -/
def tierWritten (old : TierEnt) (v : Word) : TierEnt :=
  ⟨if v.toNat % 4 = 3 then old.hint else v.toNat % 4, v.toNat / 4 % 2, if v.toNat / 8 % 64 = 0 then 10 else min 50 (v.toNat / 8 % 64)⟩

theorem strTierWrite_eq (b : Blk) (v : Word) (p : Nat) (hp : b.field Reg.strTierSel 0 6 = p) (run : Struct)
    (hr : { b.str.run with tiers := mput b.str.run.tiers p (tierWritten (b.str.run.tier p) v) } = run) :
    strTierWrite b v = if ((run.bound p).valid && (List.range 4).all (fun q => run.pinnedOn p q ≤ run.share p q)) = true then
        (b.modLive (fun _ => false) (fun c => inPhaseA c.base.tiers c.img.delTiers c.img.tiers p)
          (fun c => inPhaseB c.base.tiers c.img.delTiers c.img.tiers p)
          (fun s => { s with tiers := mput s.tiers p (tierWritten (b.str.run.tier p) v) })).cleanChanged b.str.run
      else b.flag Reg.strErr 5 := by
  have hnew : (⟨if fld v.toNat 1 0 = 3 then (b.str.run.tier p).hint else fld v.toNat 1 0, fld v.toNat 2 2,
      if fld v.toNat 8 3 = 0 then 10 else min 50 (fld v.toNat 8 3)⟩ : TierEnt) = tierWritten (b.str.run.tier p) v := by
    simp [fld, tierWritten, Nat.shiftRight_eq_div_pow]
  have hcond : (!(run.bound p).valid || (List.range 4).any (fun q => decide (run.share p q < run.pinnedOn p q))) =
      !((run.bound p).valid && (List.range 4).all (fun q => decide (run.pinnedOn p q ≤ run.share p q))) := by
    rw [Bool.not_and, List.not_all_eq_any_not]
    simp only [← Nat.not_lt, decide_not, Bool.not_not]
  unfold strTierWrite
  simp only [hp, hnew, hr, hcond]
  cases (run.bound p).valid && (List.range 4).all (fun q => decide (run.pinnedOn p q ≤ run.share p q)) <;> rfl

theorem does_strTierWrite {s : State} (h : HostWrites s.blk) {v : Word} {p : State → Prop}
    (hp : p { s with blk := strTierWrite s.blk v }) : Does (.strTierWrite v) s p := by
  refine does_of_live (f := fun b => b.posted (fun b => strTierWrite b v)) rfl h.up ?_
  show p { s with blk := s.blk.posted (fun b => strTierWrite b v) }
  rw [posted_of_hostWrites h]
  exact hp

/-- Settles O19: the fields bit by bit; EP and RWL fields stand in registers of their own, which store nothing. -/
theorem registersActByTheirCodes : Obligations.RegistersActByTheirCodes := by
  unfold Obligations.RegistersActByTheirCodes
  refine ⟨fun f v old i hw hi => ?_, fun s off v h hplain hep hrwl hf => registerWrite_plain h hplain hep hrwl hf,
    fun s off v h hplain hep hrwl _ _ _ => registerWrite_ep h hplain hep hrwl, fun s off v h hplain hrwl hlock =>
      registerWrite_locked h hplain hrwl hlock, fun s off v h hplain hrwl hlock => registerWrite_unlocked h hplain hrwl hlock,
    fun s off v hup hide => registerWrite_outside hup hide, fun s v h => ?_⟩
  · intro inside n
    refine ⟨write_outside f v old hw hi, fun hin hrw => ?_, fun hin hrw hc => ?_, fun hin hw1c => ?_, fun hk => write_of_kept hk v old⟩
    · rw [write_rw_getLsbD hrw v old hw hi, if_pos hin]
    · rw [write_rw_getLsbD hrw v old hw hi, if_pos hin]
      simp only [RField.clamped, hc]
      exact written_testBit v hin
    · rw [write_w1c_getLsbD hw1c v old hw hi, if_pos hin]
  · intro p old hint cap new run ok
    have heq := strTierWrite_eq s.blk v p rfl run rfl
    refine ⟨fun hok => does_strTierWrite h ?_, fun hbad => does_strTierWrite h ?_⟩
    · rw [heq, if_pos hok]
      refine ⟨only_of_blk (onlyBlk_of_rest ?_), ?_⟩
      · rw [rest_cleanChanged (by decide), rest_modLive (by decide)]
      · dsimp only
        rw [str_cleanChanged]
        rfl
    · rw [heq, if_neg (Bool.eq_false_iff.mp hbad)]
      exact ⟨only_of_blk (onlyBlk_of_rest (rest_flag (by decide) ..)), bit_reg_flag _ _ _ (by decide)⟩

end Sys2Proof.Proofs
end

/-! ## Entries, samplers, gates and the Husk schedulers -/
section
namespace Sys2Proof.Proofs

open Sys2Proof.Machine

/-! ### Entries of the traffic table (R296, R297) -/

/-- The entry that APPLY puts at an index, from the one that stood there. -/
def appliedEnt (old : Option TrafRt) (e : TrafEnt) (now : Nat) : TrafRt :=
  match old with
  | some r => r.replace e now
  | none => TrafRt.fresh e now

theorem traf_liveTraf (b : Blk) (k : Nat) (f : Map TrafEnt → Map TrafEnt) : (b.liveTraf k f).traf = b.traf :=
  traf_of_rest (rest_liveTraf (by decide : Region.str ∈ [Region.str]) b k f) (by decide)

/-- What APPLY does with an entry that it takes. -/
structure Applied (b y : Blk) : Prop where
  frame : rest [.traf, .str] y = rest [.traf, .str] b
  run : mget y.str.run.traffic (trafKey b.stagedEnt.target b.stagedEnt.cls) = some b.stagedEnt
  ents : y.traf.ents = mput b.traf.ents (b.field Reg.trfEntSel 0 13)
    (appliedEnt (mget b.traf.ents (b.field Reg.trfEntSel 0 13)) b.stagedEnt b.tb)

/-- The staged entry passes its checks, and no other index holds its target and class. -/
structure EntFits (b : Blk) : Prop where
  fields : trafFieldsOk b.stagedEnt = true
  rates : trafficOk b.str.run b.stagedEnt = true
  alone : ∀ j, b.trafIx b.stagedEnt.target b.stagedEnt.cls = some j → j = b.field Reg.trfEntSel 0 13

theorem trafApply_fits {b : Blk} (h : EntFits b) : Applied b (trafApply b) := by
  unfold trafApply
  dsimp only
  refine iteInduction (motive := Applied b) (fun hbad => absurd hbad ?_) (fun _ => ?_)
  · rw [h.fields, h.rates]
    cases hix : b.trafIx b.stagedEnt.target b.stagedEnt.cls with
    | none => simp
    | some j => simp [h.alone j hix]
  · cases hold : mget b.traf.ents (b.field Reg.trfEntSel 0 13) with
    | none =>
      refine ⟨?_, mget_mput_self .., by rw [traf_liveTraf, hold]; rfl⟩
      rw [rest_liveTraf (by decide), rest_putTraf (by decide)]
    | some r =>
      refine ⟨?_, mget_mput_self .., by rw [traf_liveTraf, traf_liveTraf, hold]; rfl⟩
      rw [rest_liveTraf (by decide), rest_liveTraf (by decide), rest_putTraf (by decide)]

theorem trafApply_rejects {b : Blk} (h : ¬ EntFits b) : trafApply b = b.flag Reg.trfErr 0 := by
  unfold trafApply
  dsimp only
  refine iteInduction (motive := fun y => y = b.flag Reg.trfErr 0) (fun _ => rfl) (fun hgood => absurd ?_ h)
  simp only [Bool.or_eq_true, not_or, Bool.not_eq_true, Bool.not_eq_false'] at hgood
  obtain ⟨⟨hfields, hrates⟩, hclash⟩ := hgood
  refine ⟨hfields, hrates, fun j hj => ?_⟩
  rw [hj] at hclash
  exact bne_eq_false_iff_eq.mp hclash

theorem trafRemove_spec (b : Blk) : rest [.traf, .str] (trafRemove b) = rest [.traf, .str] b ∧
    mget (trafRemove b).traf.ents (b.field Reg.trfEntSel 0 13) = none ∧
    ∀ j, j ≠ b.field Reg.trfEntSel 0 13 → mget (trafRemove b).traf.ents j = mget b.traf.ents j := by
  unfold trafRemove
  cases hold : mget b.traf.ents (b.field Reg.trfEntSel 0 13) with
  | none => exact ⟨rfl, hold, fun j _ => rfl⟩
  | some r =>
    dsimp only
    rw [traf_liveTraf]
    exact ⟨(rest_with_traf (by decide) ..).trans (rest_liveTraf (by decide) ..), mget_mdel_self .., fun j hj => mget_mdel_ne _ _ _ hj⟩

/-- A write of the host to one of the traffic registers does what the register does. -/
theorem does_posted {i : Instr} {s : State} (h : HostWrites s.blk) {f : Blk → Blk} (hex : exec i s = live (fun b => b.posted f) s)
    {p : State → Prop} (hp : p { s with blk := f s.blk }) : Does i s p := by
  refine does_of_live hex h.up ?_
  show p { s with blk := s.blk.posted f }
  rw [posted_of_hostWrites h]
  exact hp

/-! ### Samplers (R305) -/

/-- A block whose sampler slots have been sampled so far: nothing else but the free values drawn differs. -/
structure SampledFrom (b : Blk) (done : List Nat) (x : Blk) : Prop where
  shape : ∃ m n, x = { b with traf := { b.traf with smp := m }, fresh := n }
  left : ∀ i, i ∉ done → x.smp i = b.smp i
  off : ∀ i ∈ done, (b.smp i).on = false → x.smp i = b.smp i
  taken : ∀ i ∈ done, (b.smp i).on = true → (b.smp i).ty ≠ 5 → x.smp i = (b.smp i).take (b.smpEntries (b.smp i)) b.tb
  noted : ∀ i ∈ done, (b.smp i).on = true → (b.smp i).ty = 5 → ∃ n d, x.smp i = (b.smp i).note n d

theorem sampleSlot_of_taken {x : Blk} {i : Nat} {z : Sampler} (hon : z.on = true) (hty : z.ty ≠ 5) :
    x.sampleSlot i z = { x with traf.smp := tset (fun _ => {}) x.traf.smp i (z.take (x.smpEntries z) x.tb) } := by
  simp [Blk.sampleSlot, hon, hty]

theorem sampleSlot_of_noted {x : Blk} {i : Nat} {z : Sampler} (hon : z.on = true) (hty : z.ty = 5) :
    x.sampleSlot i z = { x.draw.2 with
      traf.smp := tset (fun _ => {}) x.traf.smp i (z.note (Config.grainQueue x.draw.1).1 (Config.grainQueue x.draw.1).2) } := by
  simp only [Blk.sampleSlot, hon, hty]
  rfl

theorem smp_tset (x : Blk) (i j : Nat) (z : Sampler) (n : Nat) :
    Blk.smp { x with traf := { x.traf with smp := tset (fun _ => {}) x.traf.smp i z }, fresh := n } j = if j = i then z else x.smp j := by
  by_cases hj : j = i
  · rw [if_pos hj, hj]
    exact tget_tset_self ..
  · rw [if_neg hj]
    exact tget_tset_ne _ _ _ _ _ hj

theorem sampledFrom_step {b x : Blk} {done : List Nat} (h : SampledFrom b done x) {i : Nat} (hi : i ∉ done) :
    SampledFrom b (i :: done) (x.sampleSlot i (x.smp i)) := by
  have hsame := h.left i hi
  have hof {j : Nat} (hj : j ∈ i :: done) (hne : j ≠ i) : j ∈ done := (List.mem_cons.mp hj).resolve_left hne
  rw [hsame]
  cases hon : (b.smp i).on with
  | false =>
    have heq : x.sampleSlot i (b.smp i) = x := by simp [Blk.sampleSlot, hon]
    rw [heq]
    refine ⟨h.shape, fun j hj => h.left j fun hd => hj (List.mem_cons_of_mem i hd), fun j hj hoff => ?_, fun j hj hj1 => ?_,
      fun j hj hj1 => ?_⟩
    · by_cases hne : j = i
      · rw [hne, hsame]
      · exact h.off j (hof hj hne) hoff
    · exact h.taken j (hof hj fun hne => by rw [hne, hon] at hj1; cases hj1) hj1
    · exact h.noted j (hof hj fun hne => by rw [hne, hon] at hj1; cases hj1) hj1
  | true =>
    obtain ⟨m, n, rfl⟩ := h.shape
    have hput (z : Sampler) (k : Nat) (y : Blk) (hy : y = { b with traf := { b.traf with smp := tset (fun _ => {}) m i z }, fresh := k })
        (hz : ((b.smp i).ty ≠ 5 → z = (b.smp i).take (b.smpEntries (b.smp i)) b.tb) ∧ ((b.smp i).ty = 5 → ∃ n d, z = (b.smp i).note n d)) :
        SampledFrom b (i :: done) y := by
      have hsmp (j : Nat) : y.smp j = if j = i then z else Blk.smp { b with traf := { b.traf with smp := m }, fresh := n } j := by
        rw [hy]
        exact smp_tset { b with traf := { b.traf with smp := m }, fresh := n } i j z k
      refine ⟨⟨_, k, hy⟩, fun j hj => ?_, fun j hj hoff => ?_, fun j hj hj1 hj2 => ?_, fun j hj hj1 hj2 => ?_⟩
      · rw [hsmp, if_neg fun hne : j = i => hj (hne ▸ List.mem_cons_self), h.left j fun hd => hj (List.mem_cons_of_mem i hd)]
      · have hne : j ≠ i := fun hne => by rw [hne, hon] at hoff; cases hoff
        rw [hsmp, if_neg hne, h.off j (hof hj hne) hoff]
      · by_cases hne : j = i
        · rw [hsmp, if_pos hne, hne]
          exact hz.1 (by rwa [← hne])
        · rw [hsmp, if_neg hne, h.taken j (hof hj hne) hj1 hj2]
      · by_cases hne : j = i
        · rw [hsmp, if_pos hne, hne]
          exact hz.2 (by rwa [← hne])
        · rw [hsmp, if_neg hne]
          exact h.noted j (hof hj hne) hj1 hj2
    by_cases hty : (b.smp i).ty = 5
    · rw [sampleSlot_of_noted hon hty]
      exact hput _ (n + 1) _ rfl ⟨fun hne => absurd hty hne, fun _ => ⟨_, _, rfl⟩⟩
    · rw [sampleSlot_of_taken hon hty]
      exact hput _ n _ rfl ⟨fun _ => rfl, fun hne => absurd hne hty⟩

theorem sampledFrom_foldl {b : Blk} (ks : List Nat) {done : List Nat} {x : Blk} (h : SampledFrom b done x) (hnd : ks.Nodup)
    (hks : ∀ i ∈ ks, i ∉ done) : ∃ d, (∀ i, i ∈ d ↔ i ∈ ks ∨ i ∈ done) ∧ SampledFrom b d (ks.foldl (fun x i => x.sampleSlot i (x.smp i)) x) := by
  induction ks generalizing done x with
  | nil => exact ⟨done, fun i => by simp, h⟩
  | cons k ks ih =>
    obtain ⟨hk, hnd⟩ := List.nodup_cons.mp hnd
    obtain ⟨d, hd, hs⟩ := ih (sampledFrom_step h (hks k List.mem_cons_self)) hnd fun i hi hin => by
      obtain rfl | hin := List.mem_cons.mp hin
      · exact hk hi
      · exact hks i (List.mem_cons_of_mem k hi) hin
    exact ⟨d, fun i => by rw [hd, List.mem_cons, List.mem_cons]; tauto, hs⟩

/-- A slot that the table does not list is off. -/
theorem smp_on_listed {b : Blk} {i : Nat} (h : (b.smp i).on = true) : i ∈ (mkeys b.traf.smp).dedup := by
  rw [List.mem_dedup]
  by_contra hnot
  have hnone : mget b.traf.smp i = none := by
    unfold mkeys at hnot
    generalize b.traf.smp = m at hnot
    induction m with
    | nil => rfl
    | cons p m ih =>
      have hne : p.1 ≠ i := fun hp => hnot (hp ▸ List.mem_cons_self)
      rw [mget, if_neg hne]
      exact ih fun hin => hnot (List.mem_cons_of_mem _ hin)
  have hdef : b.smp i = {} := by rw [Blk.smp, tget, hnone]; rfl
  rw [hdef] at h
  cases h

end Sys2Proof.Proofs
end

/-! ## Samplers, gates and the Husk schedulers: the obligation -/
section
namespace Sys2Proof.Proofs

open Sys2Proof.Machine

/-! ### The sampling period -/

theorem sampleTick_due {b : Blk} (hup : b.dead = false) (hon : b.field Reg.trfSampleCfg 0 10 ≠ 0) (hnew : b.traf.smpAt ≠ some b.tb)
    (hdue : b.tb % (b.field Reg.trfSampleCfg 0 10 * 1000) = 0) :
    sampleTick b = { (mkeys b.traf.smp).dedup.foldl (fun x i => x.sampleSlot i (x.smp i)) b with traf.smpAt := some b.tb } := by
  have hat : (b.traf.smpAt == some b.tb) = false := beq_eq_false_iff_ne.mpr hnew
  have hper : b.field Reg.trfSampleCfg 0 10 * 1000 ≠ 0 := by omega
  simp only [sampleTick, hup, hat, hper, hdue, Bool.or_self, decide_false, ne_eq, not_true_eq_false, Bool.false_eq_true, if_false]

theorem sampleTick_early {b : Blk} (h : b.tb % (b.field Reg.trfSampleCfg 0 10 * 1000) ≠ 0) : sampleTick b = b := by
  simp [sampleTick, h]

theorem sampleTick_clause {s : State} (hup : s.blk.dead = false) (hon : s.blk.field Reg.trfSampleCfg 0 10 ≠ 0)
    (hnew : s.blk.traf.smpAt ≠ some s.blk.tb) (hdue : s.blk.tb % (s.blk.field Reg.trfSampleCfg 0 10 * 1000) = 0) :
    Does .sampleTick s (fun t => Only [.traf, .fresh] s t ∧ ∀ i,
      ((s.blk.smp i).on = false → t.blk.smp i = s.blk.smp i) ∧
      ((s.blk.smp i).on = true → (s.blk.smp i).ty ≠ 5 → t.blk.smp i = (s.blk.smp i).take (s.blk.smpEntries (s.blk.smp i)) s.blk.tb) ∧
      ((s.blk.smp i).on = true → (s.blk.smp i).ty = 5 → ∃ n d, t.blk.smp i = (s.blk.smp i).note n d)) := by
  refine does_of_live (f := fun b => sampleTick b) rfl hup ?_
  obtain ⟨d, hd, hs⟩ := sampledFrom_foldl (mkeys s.blk.traf.smp).dedup (b := s.blk) (done := []) (x := s.blk)
    ⟨⟨s.blk.traf.smp, s.blk.fresh, rfl⟩, fun _ _ => rfl, fun _ _ _ => rfl, fun i hi => absurd hi List.not_mem_nil,
      fun i hi => absurd hi List.not_mem_nil⟩ (List.nodup_dedup _) fun _ _ => List.not_mem_nil
  dsimp only
  rw [sampleTick_due hup hon hnew hdue]
  generalize (mkeys s.blk.traf.smp).dedup.foldl (fun x i => x.sampleSlot i (x.smp i)) s.blk = x at hs
  have hin {i : Nat} (h : (s.blk.smp i).on = true) : i ∈ d := (hd i).mpr (.inl (smp_on_listed h))
  refine ⟨only_of_blk (onlyBlk_of_rest ?_), fun i => ⟨fun hoff => ?_, fun h => hs.taken i (hin h) h, fun h => hs.noted i (hin h) h⟩⟩
  · obtain ⟨m, n, rfl⟩ := hs.shape
    exact (rest_with_traf (by decide) { s.blk with fresh := n } { s.blk.traf with smp := m, smpAt := some s.blk.tb }).trans
      (rest_with_fresh (by decide) s.blk n)
  · by_cases hi : i ∈ d
    · exact hs.off i hi hoff
    · exact hs.left i hi

/-! ### Gates (R298) -/

/-- The window's number that a gate shows. -/
def shownEntry (n : GateNow) : Nat := match n with
  | .window i _ _ => i
  | _ => 0

theorem gateBoundary_shows {b : Blk} {target : Nat} {r : GateRt} {g : GateList} (hr : mget b.traf.gates target = some r)
    (hl : (r.settle b.tb).list = some g) :
    gateBoundary b target = { b with traf.gates := mput b.traf.gates target { r.settle b.tb with
      entry := shownEntry ((r.settle b.tb).now b.tb) } } := by
  unfold gateBoundary
  rw [hr]
  simp only [hl]
  rfl

theorem settle_of_kept {r : GateRt} (h : r.next = none) (now : Nat) : r.settle now = r := by
  simp [GateRt.settle, h]

theorem settle_of_due {r : GateRt} {l : Option GateList} {st now : Nat} (h : r.next = some (l, st)) (hdue : r.switchAt ≤ now) :
    r.settle now = { r with list := l, start := st, next := none } := by
  simp [GateRt.settle, h, hdue]

/-! ### The Husk schedulers (R301, R348) -/

/-- The queue of a partition that an operation leaves. -/
def opQueue (h : HuskChan) (w : Bool) (part : Nat) : List HuskWait := tget (fun _ => []) (if w then h.writes else h.reads) part

/-- The channel with the oldest operation of a partition taken. -/
def issued (b : Blk) (c : Nat) (op : HuskOp) : Blk :=
  b.modHusk c (fun h => if op.write then { h with writes := tmod (fun _ => []) h.writes op.part.val (·.drop 1) }
    else { h with reads := tmod (fun _ => []) h.reads op.part.val (·.drop 1) })

theorem opQueue_issued (b : Blk) (c : Nat) (op : HuskOp) :
    opQueue ((issued b c op).husk c) op.write op.part.val = (opQueue (b.husk c) op.write op.part.val).drop 1 := by
  unfold issued
  rw [Blk.husk_modHusk_self]
  cases op.write <;> exact tget_tmod_self ..

theorem huskOpIssue_goes {b : Blk} {c : Nat} {op : HuskOp} (hgate : b.gateFits (0x100 + c) op.part.val b.huskSpan = true)
    (hbar : b.refreshBars c = false) :
    huskOpIssue b c op = if (op.write && !op.ok && !(tget (fun _ => []) (b.husk c).writes op.part.val).isEmpty) = true
      then (issued b c op).loseChannel c 5 else issued b c op := by
  simp only [huskOpIssue, hgate, hbar, Bool.not_true, Bool.or_self, Bool.false_eq_true, if_false]
  rfl

theorem huskOpIssue_waits {b : Blk} {c : Nat} {op : HuskOp}
    (h : ¬ (b.gateFits (0x100 + c) op.part.val b.huskSpan = true ∧ b.refreshBars c = false)) : huskOpIssue b c op = b := by
  have hbars : (!b.gateFits (0x100 + c) op.part.val b.huskSpan || b.refreshBars c) = true := by
    cases hg : b.gateFits (0x100 + c) op.part.val b.huskSpan with
    | false => rfl
    | true =>
      cases hb : b.refreshBars c with
      | false => exact absurd ⟨hg, hb⟩ h
      | true => rfl
  rw [huskOpIssue, hbars]
  rfl

/-- A channel that is lost for a cause. -/
def lostFor (h : HuskChan) : Bool × Bool × Nat := (h.lost, h.up, h.cause)

theorem lostFor_markVoid (b : Blk) (k c : Nat) : lostFor ((b.markVoid k).husk c) = lostFor (b.husk c) := by
  have hv (t : Nat) (ks : List Nat) (x : Blk) :
      lostFor ((ks.foldl (fun b k => b.modHusk k (fun h => { h with void := some (min t (h.void.getD t)) })) x).husk c) =
        lostFor (x.husk c) :=
    keeps_foldl (fun x : Blk => lostFor (x.husk c)) (fun x k => by
      by_cases hk : c = k
      · rw [hk, Blk.husk_modHusk_self]
        rfl
      · rw [husk_modHusk_ne x _ hk]) ks x
  unfold Blk.markVoid
  split
  · rfl
  · split
    · rfl
    · exact hv _ _ b

theorem loseChannel_loses {b : Blk} {c : Nat} (cause : Nat) (h : (b.husk c).lost = false) :
    lostFor ((b.loseChannel c cause).husk c) = (true, false, cause) ∧ ((b.loseChannel c cause).reg (Reg.hskErr c)).getLsbD 7 = true := by
  have hrows (x : Blk) (rows : List Nat) : (rows.foldl (fun b r => b.settleRow c r []) x).husk c = x.husk c :=
    keeps_foldl (fun x : Blk => x.husk c) (fun x r => by
      rw [Blk.husk, chans_of_rest (L := [.pool]) (rest_settleRow (by decide) ..) (by decide)]; rfl) rows x
  unfold Blk.loseChannel
  rw [if_neg (by rw [h]; decide)]
  extract_lets b1 rows b2
  have hb1 : lostFor (b1.husk c) = (true, false, cause) := by
    show lostFor ((b.modHusk c _).husk c) = _
    rw [Blk.husk_modHusk_self]
    rfl
  have hb2 : lostFor (b2.husk c) = (true, false, cause) := by
    show lostFor (((rows.foldl _ b1).markVoid c).husk c) = _
    rw [lostFor_markVoid, hrows, hb1]
  clear_value b2
  refine ⟨keep_log (logKeeps_husk c lostFor (fun _ _ _ => rfl) (true, false, cause)) _ _ _ _ _ _ _ hb2, ?_⟩
  exact (qbit_log (quietBit_hskErr c 7) ..).trans (bit_reg_flag b2 _ _ (by decide))

theorem huskOpIssue_clause {s : State} (hup : s.blk.dead = false) (c : HuskCh) (op : HuskOp) :
    let goes := s.blk.gateFits (0x100 + c) op.part.val s.blk.huskSpan = true ∧ s.blk.refreshBars c = false
    let l := tget (fun _ => []) (if op.write then (s.blk.husk c).writes else (s.blk.husk c).reads) op.part.val
    let sticks := op.write = true ∧ op.ok = false ∧ l ≠ []
    (goes → ¬ sticks → Does (.huskOpIssue c op) s (fun t => Only [.chans] s t ∧
      tget (fun _ => []) (if op.write then (t.blk.husk c).writes else (t.blk.husk c).reads) op.part.val = l.drop 1)) ∧
    (goes → sticks → (s.blk.husk c).lost = false → Does (.huskOpIssue c op) s (fun t => (t.blk.husk c).lost = true ∧
      (t.blk.husk c).up = false ∧ (t.blk.husk c).cause = 5 ∧ (t.blk.reg (Reg.hskErr c)).getLsbD 7 = true)) ∧
    (¬ goes → exec (.huskOpIssue c op) s = .next s) := by
  intro goes l sticks
  refine ⟨fun hgo hnot => does_of_live (f := fun b => huskOpIssue b c op) rfl hup ?_,
    fun hgo hst hlost => does_of_live (f := fun b => huskOpIssue b c op) rfl hup ?_,
    fun hno => stays_of_live (f := fun b => huskOpIssue b c op) rfl fun _ => huskOpIssue_waits hno⟩
  · dsimp only
    rw [huskOpIssue_goes hgo.1 hgo.2, if_neg]
    · exact ⟨only_of_blk (onlyBlk_of_rest (rest_modHusk (by decide) ..)), opQueue_issued s.blk c op⟩
    · intro hall
      simp only [Bool.and_eq_true, Bool.not_eq_true', List.isEmpty_eq_false_iff] at hall
      obtain ⟨⟨hw, hok⟩, hne⟩ := hall
      exact hnot ⟨hw, hok, by show tget _ _ _ ≠ []; rw [hw]; exact hne⟩
  · obtain ⟨hw, hok, hne⟩ := hst
    have hkept : ((issued s.blk c op).husk c).lost = false := by
      unfold issued
      rw [Blk.husk_modHusk_self]
      cases op.write <;> exact hlost
    have hsome : (op.write && !op.ok && !(tget (fun _ => []) (s.blk.husk c).writes op.part.val).isEmpty) = true := by
      have hne' : tget (fun _ => []) (s.blk.husk c).writes op.part.val ≠ [] := by
        have := hne
        simp only [l, hw, if_true] at this
        exact this
      simp [hw, hok, hne']
    dsimp only
    rw [huskOpIssue_goes hgo.1 hgo.2, if_pos hsome]
    obtain ⟨hl, hbit⟩ := loseChannel_loses 5 hkept
    simp only [lostFor, Prod.mk.injEq] at hl
    exact ⟨hl.1, hl.2.1, hl.2.2, hbit⟩

theorem refreshBars_iff (b : Blk) (c : Nat) : b.refreshBars c = true ↔ b.frozen = false ∧ (b.tb < (b.husk c).refreshEnd ∨
    (b.husk c).refreshAt * 1000 < b.tb * 1000 + b.huskSpan) := by
  simp [Blk.refreshBars]

/-- Settles O47: the entries, samplers, gates and channel queues one by one. -/
theorem shapersGatesAndSamplersAct : Obligations.ShapersGatesAndSamplersAct := by
  unfold Obligations.ShapersGatesAndSamplersAct
  refine ⟨fun s h => ?_, fun s hup hon hnew => ⟨sampleTick_clause hup hon hnew, fun hearly =>
    stays_of_live (f := fun b => sampleTick b) rfl fun _ => sampleTick_early hearly⟩, fun s target r g hup hr => ?_,
    fun s c op hup => huskOpIssue_clause hup c op, fun s c => refreshBars_iff s.blk c, fun s c hup hfr => ?_, fun s c hup hfr => ?_⟩
  · intro i e fits
    refine ⟨fun hf => does_posted h (f := trafApply) rfl ?_, fun hf => does_posted h (f := trafApply) rfl ?_,
      does_posted h (f := trafRemove) rfl ?_, fun v => does_posted h (f := fun b => smpQueueWrite b v) rfl ?_,
      does_posted h (f := smpClear) rfl ?_⟩
    · have hspec := trafApply_fits (b := s.blk) ⟨hf.1, hf.2.1, hf.2.2⟩
      refine ⟨only_of_blk (onlyBlk_of_rest hspec.frame), hspec.run, ?_⟩
      dsimp only
      rw [hspec.ents, mget_mput_self]
      rfl
    · rw [trafApply_rejects fun hbad => hf ⟨hbad.fields, hbad.rates, hbad.alone⟩]
      exact ⟨only_of_blk (onlyBlk_of_rest (rest_flag (by decide) ..)), bit_reg_flag _ _ _ (by decide)⟩
    · obtain ⟨hframe, hgone, hleft⟩ := trafRemove_spec s.blk
      exact ⟨only_of_blk (onlyBlk_of_rest hframe), hgone, hleft⟩
    · exact ⟨only_of_blk (onlyBlk_of_rest (rest_with_traf (by decide) ..)), tget_tset_self ..⟩
    · exact ⟨only_of_blk (onlyBlk_of_rest (rest_with_traf (by decide) ..)),
        tget_tmod_self (fun _ => ({} : Sampler)) s.blk.traf.smp (s.blk.field Reg.trfSmpSel 0 11) (fun z : Sampler => { queue := z.queue })⟩
  · intro shows
    refine ⟨fun hnext hl => does_of_live (f := fun b => gateBoundary b target) rfl hup ?_,
      fun st hnext hdue => does_of_live (f := fun b => gateBoundary b target) rfl hup ?_⟩
    · have hsettle := settle_of_kept hnext s.blk.tb
      have heq := gateBoundary_shows (b := s.blk) hr (g := g) (by rw [hsettle]; exact hl)
      rw [hsettle] at heq
      dsimp only
      rw [heq]
      exact ⟨only_of_blk (onlyBlk_of_rest (rest_with_traf (by decide) ..)), mget_mput_self ..⟩
    · have hsettle := settle_of_due hnext hdue
      have heq := gateBoundary_shows (b := s.blk) hr (g := g) (by rw [hsettle])
      rw [hsettle] at heq
      dsimp only
      rw [heq]
      exact ⟨only_of_blk (onlyBlk_of_rest (rest_with_traf (by decide) ..)), _, mget_mput_self .., rfl, rfl, rfl, rfl⟩
  · refine does_of_live (f := fun b => huskRefresh b c) rfl hup ?_
    have heq : huskRefresh s.blk c = s.blk.modHusk c (fun h => { h with held := h.held + 1 }) := by
      rw [huskRefresh, if_pos hfr]
    dsimp only
    rw [heq]
    exact ⟨only_of_blk (onlyBlk_of_rest (rest_modHusk (by decide) ..)), Blk.husk_modHusk_self ..⟩
  · have hnot : ¬ s.blk.frozen = true := Bool.eq_false_iff.mp hfr
    refine ⟨fun hdue => does_of_live (f := fun b => huskRefresh b c) rfl hup ?_, fun hearly =>
      stays_of_live (f := fun b => huskRefresh b c) rfl fun _ => by rw [huskRefresh, if_neg hnot, if_pos hearly]⟩
    have heq : huskRefresh s.blk c = s.blk.draw.2.modHusk c (fun h => { h with
        refreshEnd := s.blk.tb + Config.refreshTime s.blk.draw.1, refreshAt := refreshAfter c s.blk.tb }) := by
      rw [huskRefresh, if_neg hnot, if_neg (Nat.not_lt.mpr hdue)]
    dsimp only
    rw [heq]
    refine ⟨only_of_blk (onlyBlk_of_rest ((rest_modHusk (by decide) ..).trans (rest_draw (by decide) _))), Blk.husk_modHusk_self .., ?_⟩
    rw [Blk.husk_modHusk_self]
    exact Nat.lt_of_lt_of_le (Nat.lt_succ_self _) (Nat.le_max_left ..)

end Sys2Proof.Proofs
end

/-! ## Scrub, sparing, rebuild and the commands of integrity -/
section
namespace Sys2Proof.Proofs

open Sys2Proof.Machine

/-! ### Reads without an error -/

theorem scrubOne_sound {b : Blk} (h : b.pool.inj = []) {c line : Nat} (hs : b.stored c line = true) :
    b.scrubOne c line [] = (false, b.huskOp c 1 0) := by
  rw [Blk.scrubOne, if_pos hs, readAt_sound ((inj_huskOp b c 1 0).trans h)]

theorem pool_huskOp (b : Blk) (c code part : Nat) :
    (b.huskOp c code part).pool = { b.pool with used := (b.huskOp c code part).pool.used } := by
  have hpool : (b.huskOp c code part).pool = { b.pool with used := tmod (fun _ => 0) b.pool.used (opsKey c) (· + 1) } := by
    unfold Blk.huskOp
    dsimp only
    rw [pool_of_rest (L := [.chans]) (rest_modHusk (by decide) ..) (by decide), pool_of_rest (L := [.pcs]) (rest_event (by decide) ..) (by decide)]
    rfl
  rw [hpool]

/-- In mode NONE scrub of a line is one read of its channel. -/
theorem scrubHusk_none {b : Blk} (h : b.pool.inj = []) (hmode : b.mode = 0) {c line : Nat} (hs : b.stored c line = true) :
    b.scrubHusk c line [] = b.huskOp c 1 0 := by
  have hm : (b.huskOp c 1 0).mode = 0 := (mode_congr (sameLines_huskOp b c 1 0).toSameWays).trans hmode
  have hrest : (b.huskOp c 1 0).scrubRest c line = (false, b.huskOp c 1 0) := by
    simp [Blk.scrubRest, Blk.stookOf, hm]
  unfold Blk.scrubHusk
  rw [scrubOne_sound h hs]
  simp only [hrest, hmode, decide_true, Bool.true_or, if_true]

theorem readGrainAt_sound {b : Blk} (h : b.pool.inj = []) (ch line : Nat) (scrub : Bool) : b.readGrainAt ch line [] scrub = (false, b) := by
  have hlanes (l : Nat) : b.copyLanes .grain l = [] := by simp [Blk.copyLanes, h, mget]
  have hcopy (l part : Nat) : b.readGrainCopy l [] part = (false, b) := by
    unfold Blk.readGrainCopy
    rw [hlanes]
    rfl
  unfold Blk.readGrainAt
  dsimp only
  split
  · rfl
  · split
    · split
      · exact hcopy ..
      · rfl
    · rfl



theorem scrubRead_husk {b : Blk} {c : HuskCh} (hup : b.dead = false) (hload : b.str.loaded = true) (hwake : b.asleep = false)
    (hmode : b.mode = 0)
    (hdue : scrubDue b.tb (b.husk c).scrubAt (b.field (Reg.hskCfg c) 0 8 * 3600000000000) (lchOf b.pool.capGib) = true)
    (hlost : (b.husk c).lost = false) (hin : b.inLch ((b.husk c).scrub + 1) = true) (hinj : b.pool.inj = []) :
    ∃ x, (x = b ∨ x = b.huskOp c.val 1 0) ∧ scrubRead b (.husk c) [] =
      x.modHusk c (fun h => { h with scrub := (b.husk c).scrub + 1, scrubAt := b.tb }) := by
  have hin' : b.inLch (b.husk c).scrub = true := by
    simp only [Blk.inLch, decide_eq_true_eq] at hin ⊢
    omega
  unfold scrubRead
  rw [if_neg (by simp [hup, hload, hwake])]
  dsimp only
  rw [if_neg (by rw [hdue, hlost, hin']; decide), if_pos hin]
  refine ⟨_, ?_, rfl⟩
  split
  · next hs => exact .inr (scrubHusk_none hinj hmode hs)
  · exact .inl rfl

theorem scrubRead_husk_early {b : Blk} {c : HuskCh}
    (h : scrubDue b.tb (b.husk c).scrubAt (b.field (Reg.hskCfg c) 0 8 * 3600000000000) (lchOf b.pool.capGib) = false) :
    scrubRead b (.husk c) [] = b := by
  unfold scrubRead
  split
  · rfl
  · dsimp only
    rw [if_pos (by rw [h]; rfl)]

theorem scrubRead_grain {b : Blk} {q : Quad} {n : Nat} (hn : tget (fun _ => 0) b.chans.scrubG q = n) (hup : b.dead = false)
    (hload : b.str.loaded = true) (hwake : b.asleep = false)
    (hdue : scrubDue b.tb (tget (fun _ => 0) b.chans.scrubGAt q) (b.field (Reg.grnCfg q) 0 8 * 60000000000) (32 * 2097152) = true)
    (hinj : b.pool.inj = [])
    (hfree : ∀ k f i, grainHolds (32 * q.val + n % 32) (n / 32) = .frame k f i → b.granInFrame k f = none) (hmore : n + 1 < 32 * 2097152) :
    scrubRead b (.grain q) [] = { b with
      chans.scrubG := tset (fun _ => 0) b.chans.scrubG q (n + 1)
      chans.scrubGAt := tset (fun _ => 0) b.chans.scrubGAt q b.tb } := by
  have hlast : ¬ n + 1 = 32 * 2097152 := Nat.ne_of_lt hmore
  unfold scrubRead
  rw [if_neg (by simp [hup, hload, hwake])]
  dsimp only
  rw [hn, if_neg (by rw [hdue]; decide), readGrainAt_sound hinj, if_neg hlast]
  cases hg : grainHolds (32 * q.val + n % 32) (n / 32) with
  | reserve _ _ =>
    dsimp only
    rw [if_neg hlast]
  | frame k f i =>
    simp only [hfree k f i hg]
    rw [if_neg hlast]

/-! ### Sparing (R352) -/

/-- The rows of a channel after one has been spared. -/
def sparedRow (row : Nat) (g : GrainChan) : GrainChan :=
  { g with pending := without g.pending row, spared := g.spared ++ [row], corr := g.corr.filter (fun e => e.1 != row) }

theorem rowSpare_spares {b : Blk} {ch row : Nat} (hup : b.dead = false) (hload : b.str.loaded = true) (hwake : b.asleep = false)
    (hinj : b.pool.inj = []) (hrow : row ∈ (b.grain ch).pending) (hroom : (b.grain ch).spared.length < 1024) :
    rest [.chans, .regs] (rowSpare b ch row) = rest [.chans, .regs] b ∧ (rowSpare b ch row).grain ch = sparedRow row (b.grain ch) := by
  have hreads : (List.range 64).foldl (fun b i => (b.readGrainAt ch (row * 64 + i) [] false).2) b = b := by
    generalize List.range 64 = is
    induction is with
    | nil => rfl
    | cons i is ih => rw [List.foldl_cons, readGrainAt_sound hinj]; exact ih
  have hgrain : (((b.modGrain ch (sparedRow row)).flag (Reg.grnErr (ch / 32)) 5).incr (Reg.grnSpareCnt (ch / 32))).grain ch =
      sparedRow row (b.grain ch) := tget_tmod_self ..
  have hframe : rest [.chans, .regs] (((b.modGrain ch (sparedRow row)).flag (Reg.grnErr (ch / 32)) 5).incr (Reg.grnSpareCnt (ch / 32))) =
      rest [.chans, .regs] b := by
    rw [rest_incr (by decide), rest_flag (by decide), rest_modGrain (by decide)]
  unfold rowSpare
  dsimp only
  rw [if_neg (by simp [hup, hload, hwake, hrow]), if_neg (by omega), hreads]
  generalize hy : ((b.modGrain ch (sparedRow row)).flag (Reg.grnErr (ch / 32)) 5).incr (Reg.grnSpareCnt (ch / 32)) = y at hgrain hframe
  have hall : rest [.chans, .regs] (if (y.grain ch).spared.length = 1024 then y.flag (Reg.grnErr (ch / 32)) 6 else y) =
      rest [.chans, .regs] b ∧ (if (y.grain ch).spared.length = 1024 then y.flag (Reg.grnErr (ch / 32)) 6 else y).grain ch =
      sparedRow row (b.grain ch) := by
    split
    · exact ⟨(rest_flag (by decide) ..).trans hframe, hgrain⟩
    · exact ⟨hframe, hgrain⟩
  rw [← hy] at hall
  exact hall

end Sys2Proof.Proofs
end

/-! ## Rebuild and the integrity commands: the obligation -/
section
namespace Sys2Proof.Proofs

open Sys2Proof.Machine

/-! ### A rebuild's next line (R350) -/

/-- A rebuild's slots are taken from the counts of the window. -/
theorem takeRebuild_spec {b y : Blk} {cap : Nat} {ks : List Nat} (h : b.takeRebuild cap ks = some y) :
    ∃ u, y = { b with pool.used := u } := by
  induction ks generalizing b with
  | nil =>
    rw [Blk.takeRebuild, Option.some.injEq] at h
    exact ⟨b.pool.used, h.symm⟩
  | cons k ks ih =>
    rw [Blk.takeRebuild] at h
    dsimp only at h
    split at h
    · obtain ⟨u, hu⟩ := ih h
      exact ⟨u, hu⟩
    · cases h

theorem rest_putCopy_pool (b : Blk) (c : Copy) (l : Nat) (bs : Bytes) (m : LineMeta) :
    rest [.pool] (b.putCopy c l bs m) = rest [.pool] b := rest_putCopy (by decide) ..

theorem rest_clearAt_pool (b : Blk) (c line : Nat) : rest [.pool] (b.clearAt c line) = rest [.pool] b := by
  unfold Blk.clearAt
  split
  · exact rest_with_pool (by decide) ..
  · rfl

/-- The operations that make the line to rebuild known: the rest of its row read, and the line written. -/
def rebuildReads (b : Blk) (c line : Nat) : Blk := (b.readStook c line 0).1.huskOp c 2 0

theorem calm_rebuildReads {b : Blk} (h : b.pool.inj = []) (c line : Nat) : Calm b (rebuildReads b c line) :=
  calm_trans (readStook_sound h c line 0).1 (calm_huskOp _ c 2 0)

theorem rebuilt_frame {b y z : Blk} {c : Nat} (h : Calm b y) (hz : rest [.pool] z = rest [.pool] y) :
    rest lineOpRegions z = rest lineOpRegions b ∧ (z.husk c).cursor = (b.husk c).cursor := by
  refine ⟨(rest_of_onlyBlk (onlyBlk_mono (by decide) (onlyBlk_of_rest hz))).trans h.rest, ?_⟩
  rw [Blk.husk, chans_of_rest hz (by decide)]
  exact h.lines.cursor c

theorem rebuildAt_sound {b : Blk} (h : b.pool.inj = []) (c line : Nat) :
    (rest lineOpRegions (b.rebuildAt c line) = rest lineOpRegions b ∧
      ((b.rebuildAt c line).husk c).cursor = (b.husk c).cursor) ∧
      (∀ l, b.mode = 1 → huskHolds 1 c line = .data l → b.aliveB l = true →
        (b.rebuildAt c line).copyBytes .huskA l = b.copyBytes .huskB l) := by
  have hcalm := calm_rebuildReads h c line
  have hread := (readStook_sound h c line 0).2
  unfold rebuildReads at hcalm
  unfold Blk.rebuildAt
  dsimp only
  rw [hread, List.isEmpty_nil, if_pos rfl]
  generalize (b.readStook c line 0).1.huskOp c 2 0 = y at hcalm
  have hmode : y.mode = b.mode := mode_congr hcalm.lines.toSameWays
  have hlost (cp : Copy) (l : Nat) : rest [.pool] (if y.inGrain l = true then
      y.putCopy cp l (y.copyBytes .grain l) (y.copyMeta .grain l)
      else y.putCopy cp l (zeros 128) { poison := true, wepoch := (y.copyMeta cp l).wepoch + 1 }) = rest [.pool] y := by
    split <;> exact rest_putCopy_pool ..
  have hfresh (x : Blk) (l : Nat) : rest [.pool] (x.freshChecks l) = rest [.pool] x := by
    unfold Blk.freshChecks
    dsimp only
    split
    · rfl
    · exact rest_with_pool (by decide) ..
  have hover : rest [.pool] (y.copyOver c line) = rest [.pool] y := by
    unfold Blk.copyOver
    split
    · exact rest_putCopy_pool ..
    · exact rest_putCopy_pool ..
    · rfl
  refine ⟨rebuilt_frame hcalm ?_, ?_⟩
  · split
    · split
      · split
        · exact hover
        · exact hlost ..
      · split
        · exact rest_clearAt_pool ..
        · exact (hfresh ..).trans (hlost ..)
    · split
      · exact hover
      · exact hlost ..
    · exact rest_clearAt_pool ..
  · intro l hone hdata halive
    have hy : y.mode = 1 := hmode.trans hone
    have haliveY : y.aliveB l = true := (aliveB_congr hcalm.lines.toSameWays l).trans halive
    have hholds : huskHolds y.mode c line = .data l := by rw [hy, hdata]
    have hlen : (y.copyBytes .huskB l).length = 128 := by simp [Blk.copyBytes, cread]
    rw [hholds]
    dsimp only
    rw [if_pos hy, if_pos haliveY, Blk.copyOver, hholds]
    dsimp only
    rw [copyBytes_putCopy, if_pos ⟨rfl, rfl⟩, fit_of_length hlen, copyBytes_congr hcalm.lines]

theorem rebuildLine_clause {s : State} {c : HuskCh} (hup : s.blk.dead = false) (hload : s.blk.str.loaded = true)
    (hwake : s.blk.asleep = false) (hinj : s.blk.pool.inj = []) (hreb : (s.blk.husk c).rebuilding = true)
    (hfree : s.blk.busyAt c (s.blk.husk c).cursor = false) (hin : s.blk.inLch ((s.blk.husk c).cursor + 1) = true)
    (hslot : (s.blk.takeRebuild (s.blk.field (Reg.hskCfg c) 8 7 * s.blk.huskSlots / 100)
      ((s.blk.stookOf c).1.filter (fun k => !(s.blk.husk k).lost))).isSome = true) :
    Does (.rebuildLine c) s (fun t => Only [.chans, .pool, .aon, .pcs] s t ∧ (t.blk.husk c).cursor = (s.blk.husk c).cursor + 1 ∧
      (∀ l, s.blk.mode = 1 → huskHolds 1 c (s.blk.husk c).cursor = .data l → s.blk.aliveB l = true →
        t.blk.copyBytes .huskA l = s.blk.copyBytes .huskB l)) := by
  obtain ⟨b0, hb0⟩ := Option.isSome_iff_exists.mp hslot
  obtain ⟨u, hu⟩ := takeRebuild_spec hb0
  have hlines : SameLines s.blk b0 := by rw [hu]; exact sameLines_used s.blk u
  have hframe0 : rest lineOpRegions b0 = rest lineOpRegions s.blk := by rw [hu]; exact rest_with_pool (by decide) ..
  obtain ⟨⟨hframe, hcur⟩, hcopy⟩ := rebuildAt_sound (b := b0) (by rw [hu]; exact hinj) c (s.blk.husk c).cursor
  have hmode : b0.mode = s.blk.mode := mode_congr hlines.toSameWays
  refine does_of_live (f := fun b => rebuildLine b c) rfl hup ?_
  have hrun : rebuildLine s.blk c = (b0.rebuildAt c (s.blk.husk c).cursor).modHusk c
      (fun h => { h with cursor := h.cursor + 1 }) := by
    unfold rebuildLine
    dsimp only
    rw [if_neg (by simp [hup, hload, hwake, hreb, hfree]), hb0]
    dsimp only
    rw [if_pos (by rw [hin, Bool.or_true])]
  show Only [.chans, .pool, .aon, .pcs] s { s with blk := rebuildLine s.blk c } ∧ ((rebuildLine s.blk c).husk c).cursor = _ ∧ _
  rw [hrun]
  generalize b0.rebuildAt c (s.blk.husk c).cursor = y at hframe hcopy hcur
  refine ⟨only_of_blk (onlyBlk_mono (by decide) (onlyBlk_of_rest ((rest_modHusk (by decide) ..).trans (hframe.trans hframe0)))),
    ?_, fun l hone hdata halive => ?_⟩
  · rw [Blk.husk_modHusk_self]
    show (y.husk c).cursor + 1 = _
    rw [hcur, hlines.cursor]
  · exact (hcopy l (hmode.trans hone) hdata ((aliveB_congr hlines.toSameWays l).trans halive)).trans (copyBytes_congr hlines _ _)

/-! ### The commands (R347, R351) -/

theorem hub_loseChannel (b : Blk) (c cause : Nat) : (b.loseChannel c cause).hub = b.hub :=
  hub_of_rest (L := [.regs, .aon, .pcs, .pool, .chans, .ext, .rings]) (rest_loseChannel (by decide) (by decide) (by decide) (by decide)
    (by decide) (by decide) (by decide) ..) (by decide)

theorem chans_answerCmd (b : Blk) (c : CmdId) (st : Nat) (res : Bytes) : (b.answerCmd c st res).chans = b.chans :=
  chans_of_rest (L := [.hub, .regs]) (rest_answerCmd (by decide) (by decide) ..) (by decide)

theorem pins_answerCmd (b : Blk) (c : CmdId) (st : Nat) (res : Bytes) : (b.answerCmd c st res).pins = b.pins :=
  pins_of_rest (L := [.hub, .regs]) (rest_answerCmd (by decide) (by decide) ..) (by decide)

theorem mem_with1_self {α : Type} [DecidableEq α] (l : List α) (a : α) : a ∈ with1 l a := by
  unfold with1
  split
  · assumption
  · simp

theorem does_mgmt {i : Instr} {s : State} {c : CmdId} {op : Nat} {r : CmdRec} {f : Blk → Blk} (h : MgmtRuns s.blk c op r)
    (hex : exec i s = live (fun b => b.mgmtCmd c op (fun _ b => f b)) s) {p : State → Prop} (hp : p { s with blk := f s.blk }) :
    Does i s p := by
  refine does_of_live hex h.up ?_
  show p { s with blk := s.blk.mgmtCmd c op (fun _ b => f b) }
  rw [mgmtCmd_of_runs h]
  exact hp

theorem channelRelease_releases {b : Blk} {c : CmdId} {r : CmdRec} (hf : b.cmd c = some r) (hch : r.arg 0x08 1 < 24)
    (hserve : b.stookGone (r.arg 0x08 1) + b2n (!(b.husk (r.arg 0x08 1)).lost && !(b.husk (r.arg 0x08 1)).rebuilding) ≤
      (b.stookOf (r.arg 0x08 1)).2) :
    ∃ y : Blk, y.hub = b.hub ∧ (y.husk (r.arg 0x08 1)).lost = true ∧ (y.husk (r.arg 0x08 1)).cause = 4 ∧
      r.arg 0x08 1 ∈ y.pins.drst ∧ channelRelease b c = y.answerCmd c 0 [] := by
  have hin : ¬ 23 < r.arg 0x08 1 := by omega
  generalize hk : r.arg 0x08 1 = k at hin hserve
  cases hlost : (b.husk k).lost with
  | true =>
    refine ⟨{ b.modHusk k (fun h => { h with cause := 4 }) with pins := { b.pins with drst := with1 b.pins.drst k } }, rfl, ?_, ?_,
      mem_with1_self .., ?_⟩
    · show ((b.modHusk k _).husk k).lost = true
      rw [Blk.husk_modHusk_self]
      exact hlost
    · show ((b.modHusk k _).husk k).cause = 4
      rw [Blk.husk_modHusk_self]
    · unfold channelRelease
      rw [hf]
      dsimp only
      rw [hk, if_neg hin, if_neg (Nat.not_lt.mpr hserve), if_pos hlost]
      rfl
  | false =>
    have hl := (loseChannel_loses 4 hlost).1
    have hhub := hub_loseChannel b k 4
    refine ⟨{ b.loseChannel k 4 with pins := { (b.loseChannel k 4).pins with drst := with1 (b.loseChannel k 4).pins.drst k } }, hhub, ?_, ?_,
      mem_with1_self .., ?_⟩
    · exact congrArg (·.1) hl
    · exact congrArg (·.2.2) hl
    · unfold channelRelease
      rw [hf]
      dsimp only
      rw [hk, if_neg hin, if_neg (Nat.not_lt.mpr hserve), if_neg (by rw [hlost]; decide)]

theorem channelRelease_clause {s : State} {c : CmdId} {r : CmdRec} (h : MgmtRuns s.blk c 0x61 r) (hch : r.arg 0x08 1 < 24) :
    let ch := r.arg 0x08 1
    let gone := s.blk.stookGone ch + b2n (!(s.blk.husk ch).lost && !(s.blk.husk ch).rebuilding)
    (gone ≤ (s.blk.stookOf ch).2 → Does (.channelRelease c) s (fun t => (t.blk.husk ch).lost = true ∧ (t.blk.husk ch).cause = 4 ∧
      ch ∈ t.blk.pins.drst ∧ Ends s t c r 0 [])) ∧
    ((s.blk.stookOf ch).2 < gone → Does (.channelRelease c) s (fun t => EndsOnly [] s t c r 0x96 [])) := by
  intro ch gone
  refine ⟨fun hserve => does_mgmt h (f := fun b => channelRelease b c) rfl ?_, fun hrefuse => does_mgmt h (f := fun b => channelRelease b c) rfl ?_⟩
  · obtain ⟨y, hhub, hlost, hcause, hpin, heq⟩ := channelRelease_releases h.found hch hserve
    dsimp only
    rw [heq]
    have hhusk : (y.answerCmd c 0 []).husk ch = y.husk ch := by rw [Blk.husk, chans_answerCmd]; rfl
    exact ⟨by rw [hhusk]; exact hlost, by rw [hhusk]; exact hcause, by rw [pins_answerCmd]; exact hpin,
      ends_answerCmd h.found h.kept (congrArg (·.inProg) hhub) 0 []⟩
  · have heq : channelRelease s.blk c = s.blk.answerCmd c 0x96 [] := by
      unfold channelRelease
      rw [h.found]
      dsimp only
      rw [if_neg (show ¬ 23 < r.arg 0x08 1 by omega), if_pos hrefuse]
    show EndsOnly [] s { s with blk := channelRelease s.blk c } c r 0x96 []
    rw [heq]
    exact endsOnly_answer h.found h.kept [] 0x96 []

theorem channelRestore_clause {s : State} {c : CmdId} {r : CmdRec} {ds : List Dimm} (h : MgmtRuns s.blk c 0x62 r) (hch : r.arg 0x08 1 < 24)
    (hlost : (s.blk.husk (r.arg 0x08 1)).lost = true) (hds : dimmsOk ds = true) (hcap : s.blk.pool.capGib ≤ dimmsGib ds)
    (hspeed : speedBins.getD s.blk.pool.speed 4800 ≤ dimmsMts ds) :
    Does (.channelRestore c ds true) s (fun t => EndsOnly [.chans, .pins] s t c r 0 [] ∧
      r.arg 0x08 1 ∉ t.blk.pins.drst ∧ t.blk.pins = { s.blk.pins with drst := t.blk.pins.drst } ∧
      t.blk.husk (r.arg 0x08 1) = { s.blk.husk (r.arg 0x08 1) with trained := true, up := true, lost := false, cause := 0, dimms := ds,
                                                                     rebuilding := true, cursor := 0 }) := by
  refine does_mgmt h (f := fun b => channelRestore b c ds true) rfl ?_
  obtain ⟨y, hy⟩ : ∃ y : Blk, y = { s.blk.modHusk (r.arg 0x08 1) (fun h => { h with
      trained := true, up := true, lost := false, cause := 0, dimms := ds, rebuilding := true, cursor := 0 }) with
      pins := { s.blk.pins with drst := without s.blk.pins.drst (r.arg 0x08 1) } } := ⟨_, rfl⟩
  have heq : channelRestore s.blk c ds true = y.answerCmd c 0 [] := by
    unfold channelRestore
    rw [h.found]
    dsimp only
    rw [if_neg (show ¬ 23 < r.arg 0x08 1 by omega),
      if_neg (by simp [hlost, hds, hcap, hspeed, -List.getD_eq_getElem?_getD]), hy]
    rfl
  dsimp only
  rw [heq]
  refine ⟨endsOnly_answerCmd h.found h.kept (by rw [hy]; rfl) ?_ 0 [], ?_, ?_, ?_⟩
  · rw [hy]
    exact (rest_with_pins (by decide) ..).trans (rest_modHusk (by decide) ..)
  · rw [pins_answerCmd, hy]
    simp [without]
  · rw [pins_answerCmd, hy]
  · rw [Blk.husk, chans_answerCmd, hy]
    exact Blk.husk_modHusk_self ..

/-! ### INTEGRITY_INJECT (R347) -/

theorem hub_storePattern (b : Blk) (k l : Nat) (cp : Option Copy) (at_ : Nat × Nat) (p : Bytes) : (b.storePattern k l cp at_ p).hub = b.hub :=
  hub_of_rest (L := [.pool]) (rest_storePattern (by decide) ..) (by decide)

theorem getLast_dropped (l : List Nat) (a n : Nat) : ((without l a ++ [a]).drop ((without l a ++ [a]).length - (n + 1))).getLast? = some a := by
  rw [List.getLast?_drop, if_neg]
  · simp
  · simp

/-- The line that an injection names: its own, or that of the check line. -/
def injectName (b : Blk) (l n : Nat) : Nat :=
  if n < 3 then l else checkName ((checkChans b.mode (homeOf l) (b.pos l)).getD (n - 3) 0) (b.pos l).2

/-- An injection that passes its checks ends in an answer from a block whose last injected line is the one named. -/
theorem integrityInject_injects {b : Blk} {c : CmdId} {r : CmdRec} {n : Nat} (hf : b.cmd c = some r) (htier : r.arg 0x10 1 < 2)
    (hcopy : r.arg 0x11 1 < 3) (hmode : r.arg 0x12 1 < 3) (ha : r.arg 0x08 8 % 128 = 0) (hb : r.arg 0x18 8 % 128 = 0)
    (hlow : r.arg 0x08 8 < 2 ^ 48) (hbuf : r.arg 0x18 8 + 160 < 2 ^ 48) (h1 : (b.check .dev .read (lineOf (r.arg 0x08 8))).status = 0)
    (h2 : (b.check .dev .read (lineOf (r.arg 0x18 8))).status = 0) (h3 : (b.check .dev .read (lineOf (r.arg 0x18 8) + 1)).status = 0)
    (hact : (b.extRt (b.check .dev .read (lineOf (r.arg 0x08 8))).ext).state = .active)
    (hcp : b.injectCopy (lineOf (r.arg 0x08 8)) (r.arg 0x10 1) (r.arg 0x11 1) = some n) (hidle : b.busy (lineOf (r.arg 0x08 8)) = false) :
    ∃ y : Blk, y.hub = b.hub ∧ y.pool.injected.getLast? = some (injectName b (lineOf (r.arg 0x08 8)) n) ∧
      integrityInject b c = y.answerCmd c 0 (toLe 1 (y.lineMeta (lineOf (r.arg 0x08 8))).wepoch.toNat) := by
  generalize hl : lineOf (r.arg 0x08 8) = l at *
  have hfind : ([l, lineOf (r.arg 0x18 8), lineOf (r.arg 0x18 8) + 1].map (fun x => (b.check .dev .read x).status)).find? (· ≠ 0) = none := by
    simp [h1, h2, h3]
  have hfetch (x : Blk) (k : Nat) : (x.fetch k).1.hub = x.hub := hub_fetch x k
  unfold integrityInject
  rw [hf]
  dsimp only
  rw [hl, if_neg (by simp; omega), if_neg (by simp [ha, hb]; omega), hfind]
  dsimp only
  rw [if_neg (by simp [hact]), hcp]
  dsimp only
  rw [if_neg (by simp [hidle])]
  refine ⟨_, ?_, ?_, rfl⟩
  · dsimp only
    rw [hub_storePattern, hfetch, hfetch]
  · have hname : (if n < 3 then l else checkName (if n < 3 then (b.pos l).1 else
        (checkChans b.mode (homeOf l) (b.pos l)).getD (n - 3) 0) (b.pos l).2) = injectName b l n := by
      unfold injectName
      split <;> rfl
    rw [← hname]
    exact getLast_dropped _ _ 15

theorem integrityInject_clause {s : State} {c : CmdId} {r : CmdRec} {n : Nat} (h : MgmtRuns s.blk c 0x60 r)
    (hinj : ∃ y : Blk, y.hub = s.blk.hub ∧ y.pool.injected.getLast? = some (injectName s.blk (lineOf (r.arg 0x08 8)) n) ∧
      integrityInject s.blk c = y.answerCmd c 0 (toLe 1 (y.lineMeta (lineOf (r.arg 0x08 8))).wepoch.toNat)) :
    Does (.integrityInject c) s (fun t => t.blk.pool.injected.getLast? = some (injectName s.blk (lineOf (r.arg 0x08 8)) n) ∧
      Ends s t c r 0 (toLe 1 (t.blk.lineMeta (lineOf (r.arg 0x08 8))).wepoch.toNat)) := by
  obtain ⟨y, hhub, hlast, heq⟩ := hinj
  refine does_mgmt h (f := fun b => integrityInject b c) rfl ?_
  show (integrityInject s.blk c).pool.injected.getLast? = _ ∧ Ends s { s with blk := integrityInject s.blk c } c r 0
    (toLe 1 ((integrityInject s.blk c).lineMeta _).wepoch.toNat)
  rw [heq]
  have hrest : ∀ res, rest [.hub, .regs] (y.answerCmd c 0 res) = rest [.hub, .regs] y := fun res => rest_answerCmd (by decide) (by decide) ..
  generalize hres : toLe 1 (y.lineMeta (lineOf (r.arg 0x08 8))).wepoch.toNat = res
  have hsame : SameLines y (y.answerCmd c 0 res) := sameLines_of_frame (onlyBlk_of_rest (hrest res)) (by decide) (by decide) (by decide)
  rw [pool_of_rest (hrest res) (by decide), lineMeta_congr hsame, hres]
  exact ⟨hlast, ends_answerCmd h.found h.kept (congrArg (·.inProg) hhub) 0 res⟩

/-- Settles O35: reads without an error standing change no line, and the three commands act on their channel or line. -/
theorem scrubSparingAndIntegrityCommandsAct : Obligations.ScrubSparingAndIntegrityCommandsAct := by
  unfold Obligations.ScrubSparingAndIntegrityCommandsAct
  refine ⟨fun s c hup hload hwake hmode hdue hlost hin hinj => does_of_live (f := fun b => scrubRead b (.husk c) []) rfl hup ?_,
    fun s c hearly => stays_of_live (f := fun b => scrubRead b (.husk c) []) rfl fun _ => scrubRead_husk_early hearly, fun s q => ?_,
    fun s ch row hup hload hwake hinj hrow hroom => does_of_live (f := fun b => rowSpare b ch row) rfl hup ?_,
    fun s c hup hload hwake hinj hreb hfree hin hslot => rebuildLine_clause hup hload hwake hinj hreb hfree hin hslot,
    fun s c r n h => ?_, fun s c r h hch => channelRelease_clause h hch,
    fun s c r ds h hch hlost hds hcap hspeed => channelRestore_clause h hch hlost hds hcap hspeed⟩
  · obtain ⟨x, hx, heq⟩ := scrubRead_husk hup hload hwake hmode hdue hlost hin hinj
    have hframe : rest lineOpRegions x = rest lineOpRegions s.blk ∧ x.pool = { s.blk.pool with used := x.pool.used } := by
      obtain rfl | rfl := hx
      · exact ⟨rfl, rfl⟩
      · exact ⟨rest_huskOp (by decide) (by decide) (by decide) (by decide) .., pool_huskOp ..⟩
    dsimp only
    rw [heq]
    refine ⟨only_of_blk (onlyBlk_mono (by decide) (onlyBlk_of_rest ((rest_modHusk (by decide) ..).trans hframe.1))), ?_, ?_, ?_⟩
    · exact hframe.2
    · rw [Blk.husk_modHusk_self]
    · rw [Blk.husk_modHusk_self]
  · intro n hup hload hwake hdue hinj hfree hmore
    refine does_of_live (f := fun b => scrubRead b (.grain q) []) rfl hup ?_
    dsimp only
    rw [scrubRead_grain rfl hup hload hwake hdue hinj hfree hmore]
    exact ⟨only_of_blk (onlyBlk_of_rest (rest_with_chans (by decide) ..)),
      tget_tset_self (fun _ => 0) s.blk.chans.scrubG q (n + 1), tget_tset_self (fun _ => 0) s.blk.chans.scrubGAt q s.blk.tb⟩
  · obtain ⟨hframe, hgrain⟩ := rowSpare_spares hup hload hwake hinj hrow hroom
    refine ⟨only_of_blk (onlyBlk_of_rest hframe), ?_, ?_⟩
    · rw [hgrain]
      rfl
    · rw [hgrain]
      simp [sparedRow, without]
  · intro l htier hcopy hmode ha hb hlow hbuf h1 h2 h3 hact hcp hidle
    exact integrityInject_clause h (integrityInject_injects h.found htier hcopy hmode ha hb hlow hbuf h1 h2 h3 hact hcp hidle)

end Sys2Proof.Proofs
end

/-! ## Writes of internal requesters that complete at once -/
section
namespace Sys2Proof.Proofs

open Sys2Proof.Machine

/-- A controller whose checks pass an access to a line is not fenced, where the line is mirrored. -/
theorem unfenced_of_check {b : Blk} {a : Act} {k : AKind} {l : Nat} (h : (b.check a k l).status = 0) :
    (b.pair.fenced && b.twinned l) = false := by
  unfold Blk.twinned
  cases hx : (b.view (.home (Fin.ofNat 4 (homeOf l)))).extAt (granOf l) with
  | none => simp
  | some e =>
    have hp := (check_passes h).1 e hx
    simp only [Option.map_some, Option.getD_some]
    unfold Blk.pairStatus at hp
    cases hm : e.2.mirror <;> cases hf : b.pair.fenced <;> simp [hm, hf] at hp ⊢

/-- A write of an internal requester that has been made ends silently. -/
theorem answerTxn_written {u : Txn} {bs : Bytes} {m : BitVec 128} {p : Bool} (hop : u.op = .wrline bs m p) (hjob : u.job = none)
    (hint : ∀ src, u.who ≠ .fabric src) (b : Blk) : b.answerTxn u 0x40 0 [] false false = b := by
  unfold Blk.answerTxn
  rw [hjob, hop]
  cases hw : u.who with
  | fabric src => exact absurd hw (hint src)
  | _ => simp [Blk.land]

theorem lineVal_lineMerged_other {b : Blk} {l k : Nat} {m : BitVec 128} (hk : k ≠ l) (hs : (b.source l).isSome = true) (hi : b.pool.inj = [])
    (hlog : m = BitVec.allOnes 128 ∨ b.rings.log.ext = none) (bs : Bytes) (p wb : Bool) :
    (lineMerged b l bs m p wb).lineVal k = b.lineVal k := by
  unfold lineMerged Blk.writeMasked
  by_cases hm : m = BitVec.allOnes 128
  · rw [if_pos hm]
    exact (wrote_writeLine _ _ wb hs).lineVal_other hk
  · rw [if_neg hm]
    have hsame := sameLines_fetch hi (hlog.resolve_left hm) l
    exact ((wrote_writeLine _ _ wb (source_isSome_congr hsame hs)).lineVal_other hk).trans (lineVal_congr hsame _)

theorem mergedIn_others {b x : Blk} {t u : Txn} {k : Nat} (h : Started b t x u) {m : BitVec 128} (hk : k ≠ t.line)
    (ha : b.huskAlive t.line = true) (hi : b.pool.inj = []) (hlog : m = BitVec.allOnes 128 ∨ b.rings.log.ext = none) (bs : Bytes) (p : Bool) :
    (mergedIn x u bs m p).lineVal k = b.lineVal k := by
  have hline : u.line = t.line := by rw [h.txn]
  have hzr : rest startRegions (freedAt x u) = rest startRegions b := (rest_freedAt (by decide) x u).trans h.rest
  have hz : SameLines b (freedAt x u) := sameLines_of_frame (onlyBlk_of_rest hzr) (by decide) (by decide) (by decide)
  have hzi : (freedAt x u).pool.inj = [] := (congrArg Pool.inj (pool_of_rest hzr (by decide))).trans hi
  have hzlog : m = BitVec.allOnes 128 ∨ (freedAt x u).rings.log.ext = none := hlog.imp_right (by rw [rings_of_rest hzr (by decide)]; exact id)
  unfold mergedIn
  rw [hline]
  exact (lineVal_lineMerged_other hk (source_isSome_congr hz (source_of_huskAlive ha)) hzi hzlog bs p u.wb).trans (lineVal_congr hz _)

/-- What a write of an internal requester leaves where it completes at once. -/
structure WroteNow (b : Blk) (l : Nat) (bs : Bytes) (m : BitVec 128) (p : Bool) (y : Blk) : Prop where
  value : y.lineVal l = lineAfter b l bs m p
  others : ∀ k, k ≠ l → y.lineVal k = b.lineVal k
  frame : rest (startRegions ++ quietRegions) y = rest (startRegions ++ quietRegions) b
  inj : y.pool.inj = []
  log : y.rings.log.ext = b.rings.log.ext
  dir : y.coh.dir = mdel b.coh.dir l
  landed : y.coh.landed = b.coh.landed

theorem begin_intWrite {b : Blk} {t : Txn} {bs : Bytes} {m : BitVec 128} {p : Bool} (hop : t.op = .wrline bs m p) (hjob : t.job = none)
    (hdata : t.data = none) (hint : ∀ src, t.who ≠ .fabric src) (hfree : LineFree b t.line) (hopen : (b.pair.fenced && b.twinned t.line) = false)
    (ha : b.huskAlive t.line = true) (hmir : b.mirrors t.line = false) (hlog : m = BitVec.allOnes 128 ∨ b.rings.log.ext = none) :
    WroteNow b t.line bs m p (b.beginTxn t) := by
  obtain ⟨x, u, hst, hgo⟩ := beginTxn_free hfree.idle (entryFree_of_lineFree hfree)
  obtain ⟨hval, hcoh, hrest, hinj, hext⟩ := mergedIn_started hst ha hfree.sound hlog bs p
  have hothers := fun k hk => mergedIn_others (k := k) hst hk ha hfree.sound hlog bs p
  have hadv := started_wrline (bs := bs) (m := m) (p := p) hst hop hdata (unfenced_of_twin (b := numberGiven b) (t := numbered b t) hopen) ha hmir
    hfree.sound
  rw [answerTxn_written (u := u) (by rw [hst.txn]; exact hop) (by rw [hst.txn]; exact hjob) (by rw [hst.txn]; exact hint)] at hadv
  generalize mergedIn x u bs m p = y at *
  have hend : x.advance u = endedTxn y u := hadv
  have hb : rest (startRegions ++ quietRegions) (numberGiven b) = rest (startRegions ++ quietRegions) b := rest_with_coh (by decide) ..
  have hlast : rest (startRegions ++ quietRegions) (endedTxn y u) = rest (startRegions ++ quietRegions) y := rest_with_coh (by decide) ..
  rw [hgo, hend]
  refine ⟨?_, fun k hk => ?_, hlast.trans (hrest.trans hb), hinj, hext, ?_, ?_⟩
  · rw [lineVal_congr (sameLines_endedTxn y u)]
    exact hval.trans (lineAfter_congr (lineVal_congr (sameLines_numberGiven b) _) ..)
  · rw [lineVal_congr (sameLines_endedTxn y u)]
    exact (hothers k hk).trans (lineVal_congr (sameLines_numberGiven b) _)
  · show y.coh.dir = _
    rw [hcoh]
    rfl
  · show y.coh.landed = _
    rw [hcoh, hst.coh]
    rfl

theorem mirrors_bumpMod (b : Blk) (k n l : Nat) : (b.bumpMod k n).mirrors l = b.mirrors l :=
  mirrors_congr (pair_of_rest (L := [.ext]) (rest_bumpMod (by decide) ..) (by decide)) (str_bumpMod ..) l

/-- A write of an internal requester that is accepted and completes at once. -/
theorem writeInt_now {b : Blk} {r : Requester} {l : Nat} (h : WritesNow b r l) (hint : ∀ src, r.who ≠ .fabric src) (bs : Bytes) (m : BitVec 128)
    (p : Bool) : (b.writeInt r l bs m p).1 = 0 ∧ WroteNow b l bs m p (b.writeInt r l bs m p).2 := by
  have hpass : (b.check r.act .write l).status = 0 := h.passes
  unfold Blk.writeInt
  dsimp only
  rw [if_neg (by rw [hpass]; decide)]
  refine ⟨rfl, ?_⟩
  generalize hc : b.check r.act .write l = c
  obtain ⟨z, hz⟩ : ∃ z, z = (b.countAccept (homeOf l) c.part).bumpMod l 1 := ⟨_, rfl⟩
  have hrz : rest [.aon, .pcs, .ext] z = rest [.aon, .pcs, .ext] b := by
    rw [hz, rest_bumpMod (by decide), rest_countAccept (by decide) (by decide)]
  have hsame : SameLines b z := sameLines_of_frame (onlyBlk_of_rest hrz) (by decide) (by decide) (by decide)
  have hfree : LineFree z l := lineFree_of_rest h.free hrz (by decide) (by decide) (by decide)
  have hpair : z.pair = b.pair := pair_of_rest hrz (by decide)
  have hstr : z.str = b.str := str_of_rest hrz (by decide)
  have hopen : (z.pair.fenced && z.twinned l) = false := by
    rw [hpair, twinned_congr hstr]
    exact unfenced_of_check hpass
  have halive : z.huskAlive l = true := (huskAlive_congr hsame.toSameWays (by rw [hsame.revived])).trans h.alive
  have hmir : z.mirrors l = false := (mirrors_congr hpair hstr l).trans h.alone
  have hrings : z.rings = b.rings := rings_of_rest hrz (by decide)
  have hcoh : z.coh = b.coh := coh_of_rest hrz (by decide)
  rw [← hz]
  have hw := begin_intWrite (b := z) (t := (newTxn l (.wrline bs m p) r.who 0 0 c none).isCounted) (bs := bs) (m := m) (p := p) rfl rfl rfl hint
    hfree hopen halive hmir (.inr (by rw [hrings]; exact h.apart.1))
  generalize z.beginTxn (newTxn l (.wrline bs m p) r.who 0 0 c none).isCounted = y at hw
  refine ⟨hw.value.trans (lineAfter_congr (lineVal_congr hsame _) ..), fun k hk => (hw.others k hk).trans (lineVal_congr hsame _),
    hw.frame.trans (rest_of_onlyBlk (onlyBlk_mono (by decide) (onlyBlk_of_rest hrz))), hw.inj, hw.log.trans (by rw [hrings]), ?_, ?_⟩
  · rw [hw.dir, hcoh]
    rfl
  · rw [hw.landed, hcoh]

end Sys2Proof.Proofs
end

/-! ## The last row step of a row task -/
section
namespace Sys2Proof.Proofs

open Sys2Proof.Machine

/-! ### The local store -/

theorem loadLines_of_have {k : Nat} (b : Blk) {r : Run} {ls : List Nat} (h : r.hasAll ls = true) : b.loadLines k r ls = (b, r) := by
  unfold Blk.loadLines
  induction ls with
  | nil => rfl
  | cons l ls ih =>
    simp only [Run.hasAll, List.all_cons, Bool.and_eq_true] at h
    have hone : b.loadLine k r l = (b, r) := by rw [Blk.loadLine, if_pos h.1]
    rw [List.foldl_cons]
    dsimp only
    rw [hone]
    exact ih h.2

theorem store_ranged (b : Blk) (r : Run) (d : Desc) : (ranged b r d).store = r.store := by
  unfold ranged
  split <;> rfl

theorem next_ranged (b : Blk) (r : Run) (d : Desc) : (ranged b r d).next = r.next := by
  unfold ranged
  split <;> rfl

theorem hasAll_congr {r q : Run} (h : q.store = r.store) (ls : List Nat) : q.hasAll ls = r.hasAll ls := by
  rw [Run.hasAll, h, Run.hasAll]

theorem refused_congr {r q : Run} (h : q.store = r.store) (ls : List Nat) : q.refused ls = r.refused ls := by
  rw [Run.refused, h, Run.refused]

theorem poisoned_congr {r q : Run} (h : q.store = r.store) (ls : List Nat) : q.poisoned ls = r.poisoned ls := by
  rw [Run.poisoned, h, Run.poisoned]

/-! ### One row step -/

/-- The run once its last row is put: the row counted, and its work. -/
def rowMade (r r2 : Run) (w : Nat) : Run := { r2 with next := r.next + 1, spent := r2.spent + w }

/-- The run whose last result has been written. -/
def rowWritten (q : Run) (l : Nat) (e : ResLine) : Run :=
  { q with
    res := mdel q.res l
    wrote := mput q.wrote l (e.sat, e.drop, e.nans)
    tally := { q.tally with sat := q.tally.sat + e.sat, drop := q.tally.drop + e.drop, nanScale := q.tally.nanScale + e.nans } }

theorem rowStep_last {b : Blk} {k : Nat} {r r2 : Run} {d : Desc} (h : LastRow b r r2 d) :
    ∃ w, b.rowStep k r d = (true,
      (b.flushRes k (rowMade r r2 w) d (d.kind == 4)).1.setRun k
        (if (b.flushRes k (rowMade r r2 w) d (d.kind == 4)).2.ended.isNone && decide (r.next + 1 = d.rowSteps) then
          { (b.flushRes k (rowMade r r2 w) d (d.kind == 4)).2 with ended := some (0, 0) }
        else (b.flushRes k (rowMade r r2 w) d (d.kind == 4)).2)) := by
  have hst := store_ranged b r d
  have hnx := next_ranged b r d
  have hq : (if d.kind = 0xD && r.ext.isNone then { r with ext := b.digestExt d } else r) = ranged b r d := rfl
  have hno : ¬ (decide (d.kind = 0xD) && (ranged b r d).ext.isNone) = true := by
    intro hbad
    simp only [Bool.and_eq_true, decide_eq_true_eq] at hbad
    have := h.range hbad.1
    rw [Option.isSome_iff_ne_none] at this
    exact this (Option.isNone_iff_eq_none.mp hbad.2)
  have hall : (ranged b r d).hasAll ((d.need (ranged b r d).store r.next).use ++ (d.need (ranged b r d).store r.next).move) = true := by
    rw [hst, hasAll_congr hst]
    exact h.have_
  have hgr : (ranged b r d).refused ((d.need (ranged b r d).store r.next).use ++ (d.need (ranged b r d).store r.next).move) = none := by
    rw [hst, refused_congr hst]
    exact h.granted
  have hso : (ranged b r d).poisoned (d.need (ranged b r d).store r.next).use = none := by
    rw [hst, poisoned_congr hst]
    exact h.sound
  refine ⟨d.workSteps (ranged b r d) r.next, ?_⟩
  have hstep := h.step
  unfold Blk.rowStep
  dsimp only
  rw [hq]
  generalize ranged b r d = q at *
  rw [if_neg hno, loadLines_of_have b hall]
  dsimp only
  rw [loadLines_of_have b hall]
  dsimp only
  rw [if_neg (by rw [hall]; decide), hgr]
  dsimp only
  rw [hso]
  dsimp only
  rw [hstep]
  rfl

theorem flushRes_one {b : Blk} {k : Nat} {q : Run} {d : Desc} {all : Bool} {l : Nat} {e : ResLine} (hres : q.res = [(l, e)])
    (hfinal : all = true ∨ e.mask = resMask d.resRegions l) : b.flushRes k q d all = b.writeRes k q l e := by
  have hkeep : (all || e.mask == resMask d.resRegions l) = true := by
    obtain h | h := hfinal
    · rw [h]; rfl
    · rw [beq_iff_eq.mpr h, Bool.or_true]
  unfold Blk.flushRes
  rw [hres]
  simp only [List.filter_cons, hkeep, if_true, List.filter_nil, List.foldl_cons, List.foldl_nil]

theorem writeRes_now {b : Blk} {k : Nat} {q : Run} {l : Nat} {e : ResLine} (hopen : q.ended = none) (h : WritesNow b (tilReq k q) l) :
    (b.writeRes k q l e).2 = rowWritten q l e ∧ (b.writeRes k q l e).1.lineVal l = lineAfter b l e.bytes e.mask e.poison ∧
      (b.writeRes k q l e).1.work = b.work := by
  obtain ⟨hok, hw⟩ := writeInt_now h (fun src hsrc => by cases hsrc) e.bytes e.mask e.poison
  have hnot : ¬ q.ended.isSome = true := by rw [hopen]; decide
  have heq : b.writeRes k q l e = ((b.writeInt (tilReq k q) l e.bytes e.mask e.poison).2.event k 0x0A (some q.part), rowWritten q l e) := by
    unfold Blk.writeRes
    dsimp only
    generalize b.writeInt (tilReq k q) l e.bytes e.mask e.poison = x at hok
    rw [if_neg hnot, if_neg (not_not.mpr hok)]
    rfl
  rw [heq]
  dsimp only
  generalize (b.writeInt (tilReq k q) l e.bytes e.mask e.poison).2 = y at hw
  have hev : rest [.pcs] (y.event k 0x0A (some q.part)) = rest [.pcs] y := rest_event (by decide) ..
  refine ⟨rfl, ?_, ?_⟩
  · have hsame : SameLines y (y.event k 0x0A (some q.part)) := sameLines_event ..
    exact (lineVal_congr hsame l).trans hw.value
  · exact (work_of_rest hev (by decide)).trans (work_of_rest hw.frame (by decide))

theorem rowGo_ended (f : Nat) {k : Nat} {b : Blk} {r : Run} (hr : (b.til k).run = some r) (he : r.ended.isSome = true) : rowGo f k b = b := by
  cases f with
  | zero => rfl
  | succ f =>
    rw [rowGo, hr]
    dsimp only
    split
    · rfl
    · rw [if_pos he]

theorem settleWork_done {b : Blk} {k : Nat} {r : Run} (hr : (b.til k).run = some r) (he : r.ended = some (0, 0)) (hres : r.res = []) :
    rest [.aon, .pcs, .work] (b.settleWork k) = rest [.aon, .pcs, .work] b ∧
      ((b.settleWork k).til k).run = some { r with spent := 0 } := by
  refine ⟨rest_settleWork (by decide) (by decide) (by decide) .., ?_⟩
  unfold Blk.settleWork
  rw [hr]
  simp only [he, hres, List.isEmpty_nil, Bool.not_true, Bool.and_false, Bool.false_eq_true, if_false, til_tick, til_setRun_self]

/-! ### The obligation -/

theorem rowTask_last {b : Blk} {k : Nat} {r r2 : Run} {db : Bytes} {l : Nat} {e : ResLine} (hruns : Runs b k r db)
    (hkind : (readDesc db).kind = r.kind) (h : LastRow b r r2 (readDesc db)) (hres : r2.res = [(l, e)])
    (hfinal : r.kind = 0x4 ∨ e.mask = resMask (readDesc db).resRegions l) (hw : WritesNow b (tilReq k r2) l) :
    (rowTask b k r.kind).lineVal l = lineAfter b l e.bytes e.mask e.poison ∧
      ∃ r3, ((rowTask b k r.kind).til k).run = some r3 ∧ r3.ended = some (0, 0) ∧ r3.res = [] := by
  obtain ⟨w, hstep⟩ := rowStep_last (k := k) h
  have hq : (rowMade r r2 w).res = [(l, e)] := hres
  have hfin : ((readDesc db).kind == 4) = true ∨ e.mask = resMask (readDesc db).resRegions l :=
    hfinal.imp_left fun h4 => by rw [hkind, h4]; rfl
  rw [flushRes_one hq hfin] at hstep
  obtain ⟨hrun, hval, hwork⟩ := writeRes_now (b := b) (k := k) (e := e) (q := rowMade r r2 w) (l := l) h.open_ hw
  have hended : (rowWritten (rowMade r r2 w) l e).ended.isNone = true := by
    show r2.ended.isNone = true
    rw [h.open_]
    rfl
  rw [hrun, hended, decide_eq_true h.last] at hstep
  simp only [Bool.and_self, if_true] at hstep
  generalize (b.writeRes k (rowMade r r2 w) l e).1 = y at *
  have hgo : rowTask b k r.kind = rowGo ((readDesc db).rowSteps + 1) k b := by
    unfold rowTask
    rw [hruns.run]
    dsimp only
    rw [hruns.desc]
    dsimp only
    rw [if_pos (by simp [hruns.going])]
  have hempty : (rowWritten (rowMade r r2 w) l e).res = [] := by
    show mdel r2.res l = []
    rw [hres]
    simp [mdel]
  generalize rowWritten (rowMade r r2 w) l e = q at *
  have hset : ((y.setRun k { q with ended := some (0, 0) }).til k).run = some { q with ended := some (0, 0) } := by
    rw [til_setRun_self]
  obtain ⟨hframe, hlast⟩ := settleWork_done hset rfl hempty
  have hone : rowGo ((readDesc db).rowSteps + 1) k b = (y.setRun k { q with ended := some (0, 0) }).settleWork k := by
    rw [rowGo, hruns.run]
    dsimp only
    rw [hruns.desc]
    dsimp only
    rw [if_neg (by rw [hruns.open_]; decide), hstep]
    dsimp only
    rw [if_pos rfl]
    exact rowGo_ended _ hlast rfl
  rw [hgo, hone]
  refine ⟨?_, _, hlast, rfl, hempty⟩
  have hsame1 : SameLines y (y.setRun k { q with ended := some (0, 0) }) :=
    sameLines_of_frame (onlyBlk_of_rest (L := [.work]) (rest_setRun (by decide) ..)) (by decide) (by decide) (by decide)
  have hsame2 := sameLines_of_frame (onlyBlk_of_rest hframe) (by decide) (by decide) (by decide)
  exact (lineVal_congr hsame2 l).trans ((lineVal_congr hsame1 l).trans hval)

theorem does_rowTask {s : State} {k r : Nat} {i : Instr} (hex : exec i s = live (fun b => rowTask b k r) s) (hgo : s.blk.halted = false)
    {p : State → Prop} (hp : p { s with blk := rowTask s.blk k r }) : Does i s p := by
  have hup : s.blk.dead = false := by
    unfold Blk.halted at hgo
    simp only [Bool.or_eq_false_iff] at hgo
    exact hgo.1.1
  exact does_of_live hex hup hp

/-- Settles O37: the eleven kinds share one row engine, whose last step writes the one result line that is final. -/
theorem rowTasksWriteTheirResults : Obligations.RowTasksWriteTheirResults := by
  unfold Obligations.RowTasksWriteTheirResults
  intro s k i r r2 db l e hi hruns hkind h hres hfinal hw
  have hdone := rowTask_last hruns hkind h hres hfinal hw
  have hex : exec i s = live (fun b => rowTask b k r.kind) s := by
    simp only [List.mem_cons, Prod.mk.injEq, List.not_mem_nil, or_false] at hi
    obtain ⟨rfl, hk⟩ | ⟨rfl, hk⟩ | ⟨rfl, hk⟩ | ⟨rfl, hk⟩ | ⟨rfl, hk⟩ | ⟨rfl, hk⟩ | ⟨rfl, hk⟩ | ⟨rfl, hk⟩ | ⟨rfl, hk⟩ | ⟨rfl, hk⟩ | ⟨rfl, hk⟩ := hi <;>
      rw [hk] <;> rfl
  exact does_rowTask hex hruns.going hdone

end Sys2Proof.Proofs
end

/-! ## Tasks dispatched, descriptors read again, JOIN and NOTIFY -/
section
namespace Sys2Proof.Proofs

open Sys2Proof.Machine

/-! ### Tasks of a Sheaf -/

theorem task_congr {x y : Blk} (h : x.work.sheafs = y.work.sheafs) (slot i : Nat) : x.task slot i = y.task slot i := by
  rw [Blk.task, h, Blk.task]

theorem task_modTask_self {b : Blk} {slot i : Nat} {x : TaskRt} (h : b.task slot i = some x) (f : TaskRt → TaskRt) :
    (b.modTask slot i f).task slot i = some (f x) := by
  unfold Blk.task at h ⊢
  obtain ⟨z, hz, hx⟩ := Option.bind_eq_some_iff.mp h
  simp only [Blk.modTask, Blk.modSheaf, mget_mmod_self, hz, Option.map_some, Option.bind_some, List.getElem?_modify_eq, hx, Option.map_eq_map]

theorem til_modTask (b : Blk) (slot i k : Nat) (f : TaskRt → TaskRt) : (b.modTask slot i f).til k = b.til k := rfl

theorem thr_modTask (b : Blk) (slot i q : Nat) (f : TaskRt → TaskRt) : (b.modTask slot i f).thr q = b.thr q := rfl

theorem thr_congr {x y : Blk} (h : x.work = y.work) (q : Nat) : x.thr q = y.thr q := by
  rw [Blk.thr, h, Blk.thr]

/-! ### Dispatch (R209) -/

/-- The run of a task that has just been dispatched: nothing of it has been issued. -/
structure Fresh (r : Run) (slot i part : Nat) (x : TaskRt) : Prop where
  slot : r.slot = slot
  task : r.task = i
  part : r.part = part
  kind : r.kind = x.kind
  tag : r.tag = x.tag
  desc : r.desc = none
  ended : r.ended = none
  next : r.next = 0
  window : r.window = []
  acc : r.acc = []

theorem taskDispatch_takes {b : Blk} {k part slot i : Nat} {x : TaskRt} (hgo : b.halted = false) (hidle : b.idleFor k = some part)
    (hfirst : b.firstReady k part = some (slot, i, x)) (hx : b.task slot i = some x) :
    (taskDispatch b k).task slot i = some { x with state := .running (some k) } ∧
      ∃ r, ((taskDispatch b k).til k).run = some r ∧ Fresh r slot i part x := by
  unfold taskDispatch
  rw [if_neg (by rw [hgo]; decide)]
  split
  · next hnone => cases hidle.symm.trans hnone
  next part' hpart =>
  obtain rfl := Option.some.inj (hidle.symm.trans hpart)
  split
  · next hnone => cases hfirst.symm.trans hnone
  next slot' i' x' hready =>
  obtain ⟨rfl, rfl, rfl⟩ : slot = slot' ∧ i = i' ∧ x = x' := by simpa using hfirst.symm.trans hready
  extract_lets q p lines m dig r mine b0 b1 other b2 b3 b4
  have hb2 : b2.work.sheafs = b.work.sheafs := by
    show (b1.dropPre _).work.sheafs = _
    rw [sheafs_dropPre]
    show ((b0.dropLanded _).dropPre _).work.sheafs = _
    rw [sheafs_dropPre]
    rfl
  have hb4 : b4.work = b3.work := by
    show ((((b3.incr _).aonAdd _ 1).event _ 1 (some part))).work = _
    rw [work_event, work_aonAdd, work_incr]
  have hlast (z : TraceRec) : (b4.trace z).work = b3.work := (work_trace b4 z).trans hb4
  have hb3 : b3 = (b2.modTil k (fun x => { x with run := some r })).modTask slot i (fun x => { x with state := .running (some k) }) := rfl
  have hfresh : Fresh r slot i part x := ⟨rfl, rfl, rfl, rfl, rfl, rfl, rfl, rfl, rfl, rfl⟩
  clear_value r b2
  refine ⟨?_, r, ?_, hfresh⟩
  · rw [task_congr (congrArg Work.sheafs (hlast _)), hb3]
    exact task_modTask_self ((task_congr (x := b2.modTil k (fun x => { x with run := some r })) (y := b) hb2 slot i).trans hx) _
  · rw [til_congr (congrArg Work.tillers (hlast _)), hb3, til_modTask, Blk.til_modTil_self]

/-! ### Reading a descriptor again (R202) -/

theorem descriptorReread_matches {b y : Blk} {k slot i : Nat} {h : HostResult} {z : Sheaf} {x : TaskRt} {r : Run} {d : Bytes}
    {m : Map StoreLine} (hgo : b.halted = false) (hz : mget b.work.sheafs slot = some z) (hx : b.task slot i = some x) (ha : z.abort = none)
    (hc : z.closed = none) (hst : x.state = .running (some k)) (hr : (b.til k).run = some r) (hslot : r.slot = slot) (htask : r.task = i)
    (hdesc : r.desc = none) (hend : r.ended = none) (hread : b.rereadPart slot i z [] (z.descOff + 128 * i) 128 h = (.bytes d, m, y)) :
    descriptorReread b slot i .descriptor h = if (checkValue d x.succ != x.check) = true then (y.abortSheaf slot 0x59).checkEnd slot
      else (y.modTil k (fun t => { t with run := t.run.map (fun r => { r with desc := some d }) })).tick k 3 6 z.part := by
  have hup : b.dead = false := by
    unfold Blk.halted at hgo
    simp only [Bool.or_eq_false_iff] at hgo
    exact hgo.1.1
  unfold descriptorReread
  simp only [hz, hx, hup, ha, hc, hgo, hst, hr, hslot, htask, hdesc, hend, hread, Option.isSome_none, Option.isNone_none, Option.isNone_some,
    Bool.or_self, Bool.and_self, Bool.false_and, Bool.false_eq_true, decide_true, if_true, if_false]

theorem work_rereadPart (b : Blk) (slot i : Nat) (z : Sheaf) (m : Map StoreLine) (off n : Nat) (h : HostResult) :
    (b.rereadPart slot i z m off n h).2.2.work = b.work :=
  work_of_rest (L := [.regs, .dead, .pins, .fresh, .aon, .pcs, .pool, .chans, .ext, .coh, .fab, .rings, .pair, .hub])
    (rest_rereadPart (by decide) (by decide) (by decide) (by decide) (by decide) (by decide) (by decide) (by decide) (by decide) (by decide)
      (by decide) (by decide) (by decide) (by decide) ..) (by decide)

/-! ### Tasks of the Thresher (R197, R198) -/

theorem ends_thrEnd (b : Blk) (slot i st addr : Nat) : ((b.thrEnd slot i st addr).thr (slot / 64)).ends =
    (b.thr (slot / 64)).ends ++ [{ slot := slot, task := i, status := st, failAddr := addr, tally := {}, at_ := b.tb }] :=
  congrArg Thresher.ends (tget_tmod_self (fun _ => {}) (b.modTask slot i (fun t => { t with state := .running none })).work.thr (slot / 64)
    (fun t => { t with ends := t.ends ++ [{ slot := slot, task := i, status := st, failAddr := addr, tally := {}, at_ := b.tb }] }))

theorem rest_thrStart_quiet (b : Blk) (slot i part : Nat) (t : TaskRt) :
    rest quietRegions (b.thrStart slot i part t) = rest quietRegions b :=
  rest_thrStart (by decide) (by decide) (by decide) (by decide) (by decide) (by decide) (by decide) ..

theorem joinTask_ends {b : Blk} {slot i : Nat} {x : TaskRt} {z : Sheaf} (hruns : b.thrRuns = true) (hz : mget b.work.sheafs slot = some z)
    (hnext : b.thrNext (slot / 64) = some (slot, i, x)) (hread : x.reread = true) (hkind : x.kind = 0xE) :
    joinTask b slot i = (b.thrStart slot i z.part x).thrEnd slot i 0 0 := by
  simp [joinTask, hnext, hz, hruns, hkind, hread]

/-- The block in which a task of the Thresher has begun, where it had not. -/
def begunThr (b : Blk) (slot i part : Nat) (x : TaskRt) : Blk := if x.state == .running none then b else b.thrStart slot i part x

theorem rest_begunThr (b : Blk) (slot i part : Nat) (x : TaskRt) : rest quietRegions (begunThr b slot i part x) = rest quietRegions b := by
  unfold begunThr
  split
  · rfl
  · exact rest_thrStart_quiet ..

theorem notifyTask_plain {b : Blk} {slot i : Nat} {x : TaskRt} {z : Sheaf} (hruns : b.thrRuns = true) (hz : mget b.work.sheafs slot = some z)
    (hnext : b.thrNext (slot / 64) = some (slot, i, x)) (hread : x.reread = true) (hkind : x.kind = 0xF)
    (hop : u8 (readDesc x.desc).raw 0x21 = 0) :
    notifyTask b slot i = ((begunThr b slot i z.part x).notices slot i z (readDesc x.desc)).thrEnd slot i 0 0 := by
  simp only [notifyTask, hnext, hz, hruns, hkind, hread, hop, decide_true, Bool.and_self, Bool.not_true, Bool.false_eq_true, if_false, if_true]
  rfl

/-- The atomic of a NOTIFY. -/
def notifyAtomic (x : TaskRt) : AtmOp :=
  { addr := (readDesc x.desc).opb, op := if u8 (readDesc x.desc).raw 0x21 = 1 then 0 else 6, size := 1, operand := (readDesc x.desc).opc,
    compare := 0, record := false, atag := 0 }

/-- The block in which the atomic of a NOTIFY is asked for. -/
def notifyBegun (b : Blk) (slot i part : Nat) (x : TaskRt) : Blk :=
  (b.thrStart slot i part x).modTask slot i (fun t => { t with state := .running none })

theorem notifyTask_refused {b : Blk} {slot i : Nat} {x : TaskRt} {z : Sheaf} (hruns : b.thrRuns = true)
    (hz : mget b.work.sheafs slot = some z) (hnext : b.thrNext (slot / 64) = some (slot, i, x)) (hread : x.reread = true)
    (hkind : x.kind = 0xF) (hready : x.state = .ready) (hop : u8 (readDesc x.desc).raw 0x21 ≠ 0)
    (hst : ((notifyBegun b slot i z.part x).atomicInt (notifyReq slot i z.part x) (notifyAtomic x)).1 ≠ 0) :
    notifyTask b slot i = ((notifyBegun b slot i z.part x).atomicInt (notifyReq slot i z.part x) (notifyAtomic x)).2.thrEnd slot i
      ((notifyBegun b slot i z.part x).atomicInt (notifyReq slot i z.part x) (notifyAtomic x)).1 (lineOf (readDesc x.desc).opb * 128) := by
  have hnot : (x.state == .running none) = false := by rw [hready]; rfl
  unfold notifyBegun notifyAtomic at *
  simp only [notifyTask, hnext, hz, hruns, hkind, hread, hop, hnot, decide_true, Bool.and_self, Bool.not_true, Bool.false_eq_true, if_false]
  rw [if_pos hst]

/-! ### What a dispatch leaves of the checks -/

/-- What the checks of an access read is kept. -/
structure ChecksKept (x y : Blk) : Prop where
  str : y.str = x.str
  pwr : y.pwr = x.pwr
  pair : y.pair = x.pair
  coh : y.coh = x.coh
  tb : y.tb = x.tb
  ext : ∀ {γ : Type} {P : ExtSt → γ}, ModProj P → P y.ext = P x.ext

theorem modProj_state : ModProj (fun e i => ((mget e.exts i).getD {}).state) where
  eq e i m := by
    funext j
    by_cases hj : j = i
    · subst hj
      simp
    · simp [mget_mput_ne _ _ _ _ hj]

theorem modProj_prior : ModProj (fun e i => ((mget e.exts i).getD {}).prior) where
  eq e i m := by
    funext j
    by_cases hj : j = i
    · subst hj
      simp
    · simp [mget_mput_ne _ _ _ _ hj]

theorem modProj_revoked : ModProj (fun e i => ((mget e.exts i).getD {}).revoked) where
  eq e i m := by
    funext j
    by_cases hj : j = i
    · subst hj
      simp
    · simp [mget_mput_ne _ _ _ _ hj]

theorem check_of_kept {x y : Blk} (h : ChecksKept x y) (a : Act) (k : AKind) (l : Nat) : y.check a k l = x.check a k l := by
  have hstate (i : Nat) : (y.extRt i).state = (x.extRt i).state := congrFun (h.ext modProj_state) i
  have hprior (i : Nat) : (y.extRt i).prior = (x.extRt i).prior := congrFun (h.ext modProj_prior) i
  have hrevoked (i : Nat) : (y.extRt i).revoked = (x.extRt i).revoked := congrFun (h.ext modProj_revoked) i
  have hpend : y.ext.revPend = x.ext.revPend := h.ext extProj_revPend.mod
  have hexp : y.ext.expPend = x.ext.expPend := h.ext extProj_expPend.mod
  have hdead : y.ext.dead = x.ext.dead := h.ext extProj_dead.mod
  have hleases : y.ext.leases = x.ext.leases := h.ext (P := fun e => e.leases) ⟨fun _ _ _ => rfl⟩
  have hview (k : Block) : y.view k = x.view k := view_congr h.str k
  have hpair (e : ExtEnt) : y.pairStatus e = x.pairStatus e := by rw [Blk.pairStatus, h.pair, Blk.pairStatus]
  have hgap (e : ExtEnt) : y.inGap e = x.inGap e := by rw [Blk.inGap, h.pair, Blk.inGap]
  have hat (q i : Nat) : y.extStateAt q i = x.extStateAt q i := by simp only [Blk.extStateAt, hpend, hprior, hstate]
  have hhost (q e : Nat) : y.hostStatus q e = x.hostStatus q e := by
    simp only [Blk.hostStatus, hview, h.coh, hdead, hleases, hexp]
  have hhome : y.checkHome a k l = x.checkHome a k l := by
    simp only [Blk.checkHome, hview, hat, hrevoked, hgap, hhost]
  simp only [Blk.check, hview, hpair, hhome, h.pwr]

theorem atmCheck_of_kept {x y : Blk} (h : ChecksKept x y) (q src : Nat) (a : AtmOp) (c : Checked) : y.atmCheck q src a c = x.atmCheck q src a c := by
  have hlive : y.ratLive q = x.ratLive q := by rw [Blk.ratLive, h.coh, h.tb, Blk.ratLive]
  simp only [Blk.atmCheck, hlive, h.str]

theorem status_atomicInt {x y : Blk} (h : ChecksKept x y) (r : Requester) (a : AtmOp) : (y.atomicInt r a).1 = (x.atomicInt r a).1 := by
  simp only [Blk.atomicInt, check_of_kept h, atmCheck_of_kept h]
  split
  · rfl
  · split <;> rfl

theorem atomicInt_refused {b : Blk} {r : Requester} {a : AtmOp} (h : (b.atomicInt r a).1 ≠ 0) :
    rest [.regs, .aon, .pcs] (b.atomicInt r a).2 = rest [.regs, .aon, .pcs] b := by
  unfold Blk.atomicInt at h ⊢
  dsimp only at h ⊢
  split
  · exact rest_countRefusal (by decide) (by decide) (by decide) ..
  · next hc =>
    rw [if_neg hc] at h
    split
    · exact rest_countRefusal (by decide) (by decide) (by decide) ..
    · next hs =>
      rw [if_neg hs] at h
      exact absurd rfl h

theorem checksKept_notifyBegun (b : Blk) (slot i part : Nat) (x : TaskRt) : ChecksKept b (notifyBegun b slot i part x) := by
  have hr := rest_thrStart_quiet b slot i part x
  have hstr : (b.thrStart slot i part x).str = b.str := str_of_rest hr (by decide)
  have hpwr : (b.thrStart slot i part x).pwr = b.pwr := pwr_of_rest hr (by decide)
  have hpair : (b.thrStart slot i part x).pair = b.pair := pair_of_rest hr (by decide)
  have hcoh : (b.thrStart slot i part x).coh = b.coh := coh_of_rest hr (by decide)
  have htb : (b.thrStart slot i part x).tb = b.tb := tb_of_rest hr (by decide)
  refine ⟨hstr, hpwr, hpair, hcoh, htb, fun hP => ?_⟩
  exact (kept_trace hP ..).trans (congrArg _ (ext_of_rest (L := [.aon, .pcs]) (by rw [rest_event (by decide), rest_aonAdd (by decide)]) (by decide)))

/-- Settles O36: a task is taken, read again, and ended by what its Thresher does for it. -/
theorem tasksAreDispatched : Obligations.TasksAreDispatched := by
  unfold Obligations.TasksAreDispatched
  refine ⟨fun s k part slot i x hgo hidle hfirst hx => ?_, fun s k hnone => stays_of_live (f := fun b => taskDispatch b k) rfl fun _ => ?_,
    fun s k slot i h z x r d m b hgo hz hx ha hc hst hr hslot htask hdesc hend hread => ?_, fun s slot i x z hup hruns hz hnext hread => ?_⟩
  · have hup : s.blk.dead = false := by
      unfold Blk.halted at hgo
      simp only [Bool.or_eq_false_iff] at hgo
      exact hgo.1.1
    obtain ⟨htaken, r, hr, hf⟩ := taskDispatch_takes hgo hidle hfirst hx
    exact does_of_live (f := fun b => taskDispatch b k) rfl hup
      ⟨htaken, r, hr, hf.slot, hf.task, hf.part, hf.kind, hf.tag, hf.desc, hf.ended, hf.next, hf.window, hf.acc⟩
  · unfold taskDispatch
    split
    · rfl
    · simp only [hnone]
  · have hup : s.blk.dead = false := by
      unfold Blk.halted at hgo
      simp only [Bool.or_eq_false_iff] at hgo
      exact hgo.1.1
    have heq := descriptorReread_matches hgo hz hx ha hc hst hr hslot htask hdesc hend hread
    have hwork : b.work = s.blk.work := by
      have := work_rereadPart s.blk slot i z [] (z.descOff + 128 * i) 128 h
      rw [hread] at this
      exact this
    refine ⟨fun hsame => does_of_live (f := fun b => descriptorReread b slot i .descriptor h) rfl hup ?_,
      fun hother => does_of_live (f := fun b => descriptorReread b slot i .descriptor h) rfl hup ?_⟩
    · dsimp only
      rw [heq, if_neg (by simp [hsame]), til_tick, Blk.til_modTil_self, til_congr (congrArg Work.tillers hwork), hr]
      exact ⟨_, rfl, rfl, hend⟩
    · dsimp only
      rw [heq, if_pos (by simpa using hother)]
      exact aborted_checkEnd (aborted_abortSheaf 0x59 (b := b) (by rw [hwork]; exact hz) ha hc)
  · refine ⟨fun hkind => does_of_live (f := fun b => joinTask b slot i) rfl hup ?_, fun hkind hop =>
      does_of_live (f := fun b => notifyTask b slot i) rfl hup ?_, fun hkind hready => ?_⟩
    · have hr := rest_thrStart_quiet s.blk slot i z.part x
      dsimp only
      rw [joinTask_ends hruns hz hnext hread hkind, ends_thrEnd, thr_congr (work_of_rest hr (by decide)), tb_of_rest hr (by decide)]
    · have hr := rest_begunThr s.blk slot i z.part x
      have hn : rest [.regs, .fab, .hub] ((begunThr s.blk slot i z.part x).notices slot i z (readDesc x.desc)) =
        rest [.regs, .fab, .hub] (begunThr s.blk slot i z.part x) := rest_notices (by decide) (by decide) (by decide) ..
      dsimp only
      rw [notifyTask_plain hruns hz hnext hread hkind hop, ends_thrEnd, thr_congr (work_of_rest hn (by decide)), tb_of_rest hn (by decide),
        thr_congr (work_of_rest hr (by decide)), tb_of_rest hr (by decide)]
    · intro d a st hop hst
      refine does_of_live (f := fun b => notifyTask b slot i) rfl hup ?_
      have hkept := checksKept_notifyBegun s.blk slot i z.part x
      have hstatus : ((notifyBegun s.blk slot i z.part x).atomicInt (notifyReq slot i z.part x) (notifyAtomic x)).1 = st :=
        status_atomicInt hkept ..
      have hbad : ((notifyBegun s.blk slot i z.part x).atomicInt (notifyReq slot i z.part x) (notifyAtomic x)).1 ≠ 0 := by
        rw [hstatus]
        exact hst
      have hfinal := notifyTask_refused hruns hz hnext hread hkind hready hop hbad
      have hframe := atomicInt_refused hbad
      rw [hstatus] at hfinal
      have hr := rest_thrStart_quiet s.blk slot i z.part x
      have hthr : (notifyBegun s.blk slot i z.part x).thr (slot.val / 64) = s.blk.thr (slot.val / 64) :=
        (thr_modTask ..).trans (thr_congr (work_of_rest hr (by decide)) _)
      have hfab : (s.blk.thrStart slot i z.part x).fab = s.blk.fab := fab_of_rest hr (by decide)
      dsimp only
      rw [hfinal, ends_thrEnd, thr_congr (work_of_rest hframe (by decide)), hthr, tb_of_rest hframe (by decide), hkept.tb]
      refine ⟨?_, rfl⟩
      exact (fab_of_rest (L := [.work]) (rest_thrEnd (by decide) ..) (by decide)).trans ((fab_of_rest hframe (by decide)).trans hfab)

end Sys2Proof.Proofs
end

/-! ## The aperture (R311, R312) -/
section
namespace Sys2Proof.Proofs

open Sys2Proof.Machine

/-- An access that lies in one line has one part. -/
theorem aptParts_one {o n : Nat} (hn : 1 ≤ n) (h : o % 128 + n ≤ 128) : aptParts o n = [(o / 128 * 128, o % 128, o % 128 + n)] := by
  have hlen : (o + n + 127) / 128 - o / 128 = 1 := by omega
  have hmin : min 128 (o + n - o / 128 * 128) = o % 128 + n := by omega
  unfold aptParts
  rw [hlen]
  simp [hmin]

theorem ideOk_congr {x y : Blk} (hreg : bitAt x Reg.secIdeCfg 0 = bitAt y Reg.secIdeCfg 0) (hsec : x.sec = y.sec) (f : Nat) :
    x.ideOk f = y.ideOk f := by
  unfold Blk.ideOk Blk.ideRequired Blk.streamUp
  rw [hsec]
  exact congrArg (fun v => !v || _) hreg

theorem out_pcie_sent {b : Blk} {o : PcieOut} (h : b.ideOk o.func = true) : b.pcie o = { b with hub.out := b.hub.out ++ [o] } := by
  rw [Blk.pcie, if_pos h]

theorem out_pcie_held {b : Blk} {o : PcieOut} (h : b.ideOk o.func = false) : b.pcie o = { b with hub.held := b.hub.held ++ [o] } := by
  rw [Blk.pcie, if_neg (by rw [h]; decide)]

theorem apt_pcie (b : Blk) (o : PcieOut) : (b.pcie o).hub.apt = b.hub.apt := by
  unfold Blk.pcie
  split <;> rfl

/-! ### What a refusal leaves in the registers -/

theorem bit_reg_aptRefuse (b : Blk) (write : Bool) (l st : Nat) :
    ((b.aptRefuse write l st).reg Reg.hubAptErr).getLsbD (if write then 1 else 0) = true := by
  have hi : (if write then 1 else 0) < 8 := by cases write <;> decide
  unfold Blk.aptRefuse
  dsimp only
  rw [Blk.reg_setReg_ne _ _ _ _ (by decide), Blk.reg_setReg_ne _ _ _ _ (by decide), Blk.reg_setReg_self, putField_getLsbD _ _ _ _ _ (by decide)
    (by omega), if_neg (by omega), reg_incr_ne _ (by decide)]
  exact bit_reg_flag _ _ _ (by omega)

theorem reg_aptRefuse_count (b : Blk) (write : Bool) (l st : Nat) :
    ((b.aptRefuse write l st).reg Reg.hubAptRefuseCnt).toNat = min ((b.reg Reg.hubAptRefuseCnt).toNat + 1) 0xFFFFFFFF := by
  unfold Blk.aptRefuse
  dsimp only
  rw [Blk.reg_setReg_ne _ _ _ _ (by decide), Blk.reg_setReg_ne _ _ _ _ (by decide), Blk.reg_setReg_ne _ _ _ _ (by decide), toNat_reg_incr,
    Blk.flag, Blk.reg_setReg_ne _ _ _ _ (by decide)]

theorem reg_aptRefuse_addr (b : Blk) (write : Bool) (l st : Nat) :
    ((b.aptRefuse write l st).reg Reg.hubAptErrAddrLo).toNat = l * 128 % 2 ^ 32 := by
  unfold Blk.aptRefuse
  dsimp only
  rw [Blk.reg_setReg_ne _ _ _ _ (by decide), Blk.reg_setReg_self, BitVec.toNat_ofNat]

theorem reg_aptRefuse_ide (b : Blk) (write : Bool) (l st : Nat) : (b.aptRefuse write l st).reg Reg.secIdeCfg = b.reg Reg.secIdeCfg := by
  unfold Blk.aptRefuse
  dsimp only
  rw [Blk.reg_setReg_ne _ _ _ _ (by decide), Blk.reg_setReg_ne _ _ _ _ (by decide), Blk.reg_setReg_ne _ _ _ _ (by decide),
    reg_incr_ne _ (by decide), Blk.flag, Blk.reg_setReg_ne _ _ _ _ (by decide)]

/-! ### A read of one line -/

/-- The block in which a read of one line waits for it. -/
def aptOpened (b : Blk) (tag l lo hi : Nat) : Blk := { b with hub.apt := b.hub.apt ++ [⟨tag, [(l, lo, hi)], []⟩] }

section
variable {b y : Blk} {tag l lo hi : Nat}

theorem aptFound (hub : y.hub = (aptOpened b tag l lo hi).hub) (hnew : ∀ a ∈ b.hub.apt, a.tag ≠ tag) :
    y.hub.apt.find? (fun r => r.tag == tag) = some ⟨tag, [(l, lo, hi)], []⟩ := by
  have hnone : b.hub.apt.find? (fun r => r.tag == tag) = none := List.find?_eq_none.mpr fun a ha => by simpa using hnew a ha
  rw [hub]
  show (b.hub.apt ++ [_]).find? _ = _
  rw [List.find?_append, hnone]
  simp

theorem aptLeft (hub : y.hub.apt = (aptOpened b tag l lo hi).hub.apt) (hnew : ∀ a ∈ b.hub.apt, a.tag ≠ tag) :
    y.hub.apt.filter (fun r => r.tag != tag) = b.hub.apt := by
  rw [hub]
  show (b.hub.apt ++ [_]).filter _ = _
  rw [List.filter_append, List.filter_eq_self.mpr (fun a ha => by simpa using hnew a ha)]
  simp

/-- A refused line of a read ends it with a completer abort. -/
theorem aptLand_refused (hub : y.hub = (aptOpened b tag l lo hi).hub) (hnew : ∀ a ∈ b.hub.apt, a.tag ≠ tag) {st : Nat} (hst : st ≠ 0) (bs : Bytes)
    (p : Bool) : y.aptLand tag l st bs p =
      { (((y.aptRefuse false l st).aerSet 0 15).pcie (.cplAbort tag)) with hub.apt := b.hub.apt } := by
  have hkeep : (y.aptRefuse false l st).hub = y.hub := hub_of_rest (L := [.regs]) (rest_aptRefuse (by decide) ..) (by decide)
  have happt : ((y.aptRefuse false l st).aerSet 0 15).hub.apt = (aptOpened b tag l lo hi).hub.apt := by
    rw [show ((y.aptRefuse false l st).aerSet 0 15).hub.apt = (y.aptRefuse false l st).hub.apt from rfl, hkeep, hub]
  have hleft := aptLeft (y := ((y.aptRefuse false l st).aerSet 0 15).pcie (.cplAbort tag))
    ((apt_pcie ((y.aptRefuse false l st).aerSet 0 15) (.cplAbort tag)).trans happt) hnew
  unfold Blk.aptLand
  simp only [hst, if_false, aptFound (hkeep.trans hub) hnew, Blk.aptComplete, mget_mput_self, ne_eq, not_false_eq_true, if_true,
    List.isEmpty_nil, hleft]

/-- A line of a read that has come completes it with its bytes. -/
theorem aptLand_read (hub : y.hub = (aptOpened b tag l lo hi).hub) (hnew : ∀ a ∈ b.hub.apt, a.tag ≠ tag) (bs : Bytes) (p : Bool) :
    (y.aptLand tag l 0 bs p).hub = { (y.pcie (.cpl tag (sl bs lo (hi - lo)) p)).hub with apt := b.hub.apt } := by
  have hleft (z : Blk) (hz : z.hub.apt = y.hub.apt) := aptLeft (y := z) (hz.trans (congrArg Hub.apt hub)) hnew
  unfold Blk.aptLand
  simp only [if_true, aptFound hub hnew, Blk.aptComplete, mget_mput_self, ne_eq, not_true_eq_false, if_false]
  cases p
  · simp only [List.isEmpty_nil, hleft _ (apt_pcie ..), if_true, Bool.false_eq_true, if_false]
  · have hf : ∀ z : Blk, (z.flag Reg.hubAptErr 2).hub = z.hub := fun z => rfl
    simp only [List.isEmpty_nil, hf, hleft _ (apt_pcie ..), if_true]

end

theorem apertureRead_one {b : Blk} {off len tag : Nat} {x : TlpInfo} (hup : b.dead = false) (hrec : b.sec.recovery = false)
    (hide : b.ideIn x.inStream = true) (hlen : 1 ≤ len) (hone : off % 128 + len ≤ 128) : apertureRead b off len tag x =
      (aptOpened b tag (b.aptLine (off / 128 * 128)).1 (off % 128) (off % 128 + len)).aptReadLine tag (b.aptLine (off / 128 * 128)) := by
  unfold apertureRead
  rw [if_neg (by simp [hup, hrec]), if_neg (by simp [hide]), aptParts_one hlen hone]
  rfl

theorem mem_queued {b : Blk} {e : QEnt} (h : e ∈ b.coh.queue) : e ∈ b.queued := by
  unfold Blk.queued
  generalize b.rings.waits = ws
  induction ws with
  | nil => exact h
  | cons w ws ih =>
    simp only [List.foldr_cons, List.mem_append, List.mem_filter, List.mem_cons]
    by_cases hlt : e.txn.id < w.txn.id
    · exact .inl ⟨ih, by simpa using hlt⟩
    · exact .inr (.inr ⟨ih, by simpa using hlt⟩)

theorem queue_of_idle {b : Blk} {l : Nat} (h : b.mustWait l = false) : ∀ e ∈ b.coh.queue, e.txn.line ≠ l := by
  simp only [Blk.mustWait, Bool.or_eq_false_iff] at h
  obtain ⟨⟨⟨-, hq⟩, -⟩, -⟩ := h
  exact fun e he => by simpa using List.any_eq_false.mp hq e (mem_queued he)

theorem quietBit_secIdeCfg (i : Nat) : QuietBit Reg.secIdeCfg i where
  refuse k _ := by simp only [Reg.secIdeCfg, Reg.haRefuseCnt]; omega
  retry := by decide
  lossCnt := by decide
  revoked k _ := .inl (by simp only [Reg.secIdeCfg, Reg.haErr]; omega)
  hold := .inl (by decide)
  logLost := .inl (by decide)
  traceLost := .inl (by decide)

/-- A RdOnce of the aperture that nobody else waits for is served at once. -/
theorem readInt_aperture {b : Blk} {tag l : Nat} (hopen : b.closing = false) (hpass : (b.check .pf0 .read l).status = 0) (hfree : LineFree b l)
    (hland : ∀ y ∈ b.coh.landed, y.who ≠ .aperture tag) :
    ∃ y z : Blk, rest (startRegions ++ quietRegions) y = rest (startRegions ++ quietRegions) b ∧
      bitAt y Reg.secIdeCfg 0 = bitAt b Reg.secIdeCfg 0 ∧ z.hub = (y.aptLand tag l 0 (b.lineVal l).1 (b.lineVal l).2).hub ∧
      b.readInt ⟨.aperture tag, .pf0⟩ l = (.wait, z) := by
  have hfind (x : Blk) (hx : x.coh.landed = b.coh.landed) : (x.takeLanded (.aperture tag) l).1 = none := by
    unfold Blk.takeLanded
    rw [hx]
    exact List.find?_eq_none.mpr fun d hd => by simp [hland d hd]
  have hbusy := busy_of_lineFree hfree
  have hqueue := queue_of_idle hfree.idle
  have hrun : (b.coh.txns.any (fun t => t.who == .aperture tag && t.line == l) ||
      b.coh.queue.any (fun e => e.txn.who == .aperture tag && e.txn.line == l) || b.closing) = false := by
    simp only [Bool.or_eq_false_iff, List.any_eq_false, Bool.and_eq_true, not_and]
    exact ⟨⟨fun t ht _ => by simpa using List.any_eq_false.mp hbusy t ht, fun e he _ => by simpa using hqueue e he⟩, hopen⟩
  generalize hc : b.check .pf0 .read l = c at hpass
  obtain ⟨a, ha⟩ : ∃ a, a = b.countAccept (homeOf l) c.part := ⟨_, rfl⟩
  have hra : rest [.aon, .pcs] a = rest [.aon, .pcs] b := by rw [ha, rest_countAccept (by decide) (by decide)]
  have hfa : LineFree a l := lineFree_of_rest hfree hra (by decide) (by decide) (by decide)
  have hcoh : a.coh = b.coh := coh_of_rest hra (by decide)
  have hlines : SameLines b a := sameLines_of_frame (onlyBlk_of_rest hra) (by decide) (by decide) (by decide)
  obtain ⟨t, ht⟩ : ∃ t, t = newTxn l .rdonce (.aperture tag) 0 0 c none := ⟨_, rfl⟩
  have hline : t.line = l := by rw [ht]; rfl
  have hopena : (a.pair.fenced && a.twinned t.line) = false := by
    rw [pair_of_rest hra (by decide), twinned_congr (str_of_rest hra (by decide)), hline]
    exact unfenced_of_check (by rw [hc]; exact hpass)
  rw [← hline] at hfa
  obtain ⟨x, u, hst, hgo⟩ := beginTxn_free hfa.idle (entryFree_of_lineFree hfa)
  obtain ⟨y, sv, hry, hbits, hadv⟩ := started_fetched hst (by rw [ht]; rfl) (by rw [ht]; rfl)
    (unfenced_of_twin (b := numberGiven a) (t := numbered a t) hopena) hfa.sound
  have hv : (numberGiven a).lineVal (numbered a t).line = b.lineVal l := by
    rw [lineVal_congr (sameLines_trans hlines (sameLines_numberGiven a))]
    exact congrArg b.lineVal hline
  have hans (bs : Bytes) (p : Bool) : y.answerTxn u 0x02 0 bs p false = y.aptLand tag l 0 bs p := by
    have hul : u.line = l := by rw [hst.txn]; exact hline
    have huo : u.op = .rdonce := by rw [hst.txn, ht]; rfl
    have huj : u.job = none := by rw [hst.txn, ht]; rfl
    have huw : u.who = .aperture tag := by rw [hst.txn, ht]; rfl
    unfold Blk.answerTxn
    rw [huj, huo, huw, hul]
    rfl
  rw [hv, hans] at hadv
  have hry2 : rest (startRegions ++ quietRegions) y = rest (startRegions ++ quietRegions) b :=
    calc rest (startRegions ++ quietRegions) y
      _ = rest (startRegions ++ quietRegions) ({ x with coh.serving := sv } : Blk) :=
        rest_of_onlyBlk (onlyBlk_mono (by decide) (onlyBlk_of_rest hry))
      _ = rest (startRegions ++ quietRegions) x := rest_with_coh (by decide) ..
      _ = rest (startRegions ++ quietRegions) (numberGiven a) := rest_of_onlyBlk (onlyBlk_mono (by decide) (onlyBlk_of_rest hst.rest))
      _ = rest (startRegions ++ quietRegions) a := rest_with_coh (by decide) ..
      _ = rest (startRegions ++ quietRegions) b := rest_of_onlyBlk (onlyBlk_mono (by decide) (onlyBlk_of_rest hra))
  have hbit : bitAt y Reg.secIdeCfg 0 = bitAt b Reg.secIdeCfg 0 :=
    calc bitAt y Reg.secIdeCfg 0
      _ = bitAt x Reg.secIdeCfg 0 := hbits _ _ (quietBit_secIdeCfg 0) (by decide) (by decide)
      _ = bitAt a Reg.secIdeCfg 0 := congrArg (·.getLsbD 0) (hst.regs _ (fun q => by simp only [Reg.secIdeCfg, Reg.haDirMissCnt]; omega))
      _ = bitAt b Reg.secIdeCfg 0 := bitAt_of_regs (regs_of_rest hra (by decide)) ..
  have hycoh : y.coh = { x.coh with serving := sv } := coh_of_rest hry (by decide)
  obtain ⟨z, hz⟩ : ∃ z, z = (a.beginTxn t) := ⟨_, rfl⟩
  have hzeq : z = { (y.aptLand tag l 0 (b.lineVal l).1 (b.lineVal l).2).endTxn u with coh.serving := [] } := by rw [hz, hgo, hadv]
  have hzl : z.coh.landed = b.coh.landed := by
    have hk : (y.aptLand tag l 0 (b.lineVal l).1 (b.lineVal l).2).coh = y.coh :=
      coh_of_rest (L := [.regs, .hub]) (rest_aptLand (by decide) (by decide) ..) (by decide)
    rw [hzeq]
    show (y.aptLand tag l 0 (b.lineVal l).1 (b.lineVal l).2).coh.landed = _
    rw [hk, hycoh, hst.coh, ← hcoh]
    rfl
  refine ⟨y, z, hry2, hbit, by rw [hzeq]; rfl, ?_⟩
  unfold Blk.readInt
  simp only [hfind b rfl, hrun, hc, hpass, ← ha, ← ht, ← hz, hfind z hzl, Bool.false_eq_true, if_false, ne_eq, not_true_eq_false]

/-! ### Writes, and what each access does -/

theorem rest_aptWriteLine_off {L : List Region} (h : .regs ∈ L) {b : Blk} {x : Nat × Bool} (hx : x.2 = false) (bs : Bytes) (m : BitVec 128) (ep : Bool) :
    b.aptWriteLine x bs m ep = b.aptRefuse true x.1 0x12 ∧ rest L (b.aptWriteLine x bs m ep) = rest L b := by
  have heq : b.aptWriteLine x bs m ep = b.aptRefuse true x.1 0x12 := by rw [Blk.aptWriteLine, if_pos (by simp [hx])]
  exact ⟨heq, by rw [heq, rest_aptRefuse h]⟩

theorem apertureWrite_one {b : Blk} {off : Nat} {bs : Bytes} {ep : Bool} {x : TlpInfo} (hup : b.dead = false) (hrec : b.sec.recovery = false)
    (hide : b.ideIn x.inStream = true) (hopen : b.closing = false) (hlen : 1 ≤ bs.length) (hone : off % 128 + bs.length ≤ 128) :
    apertureWrite b off bs ep x = (if ep then b.aerSet 0 12 else b).aptWriteLine (b.aptLine (off / 128 * 128))
      (zeros (off % 128) ++ fit (128 - off % 128) bs) (lineMask (off % 128) bs.length) ep := by
  have hbase (c : Blk) (h : c.reg = b.reg) (o : Nat) : c.aptLine o = b.aptLine o := by rw [Blk.aptLine, h]; rfl
  have hstart : off / 128 * 128 + off % 128 - off = 0 := by omega
  have hbytes : sl bs 0 bs.length = bs := by simp [sl]
  unfold apertureWrite
  rw [if_neg (by simp [hup, hrec]), if_neg (by simp [hide]), if_neg (by simp [hopen]), aptParts_one hlen hone, List.foldl_cons, List.foldl_nil]
  simp only [hstart, Nat.add_sub_cancel_left, hbytes]

theorem writesNow_hub {b : Blk} {r : Requester} {l : Nat} (h : WritesNow b r l) (x : Hub) : WritesNow ({ b with hub := x } : Blk) r l :=
  ⟨h.passes, ⟨h.free.idle, h.free.noEntry, h.free.room, h.free.sound⟩, h.alive, h.alone, h.apart⟩

theorem ideDrop_spec (b : Blk) : (b.ideDrop.reg Reg.secErr).getLsbD 5 = true ∧
    (b.ideDrop.reg Reg.secIdeDropCnt).toNat = min ((b.reg Reg.secIdeDropCnt).toNat + 1) 0xFFFFFFFF ∧
    b.ideDrop.reg Reg.secIdeCfg = b.reg Reg.secIdeCfg := by
  unfold Blk.ideDrop
  refine ⟨bit_reg_flag _ _ _ (by decide), ?_, ?_⟩
  · rw [Blk.flag, Blk.reg_setReg_ne _ _ _ _ (by decide), toNat_reg_incr]
  · rw [Blk.flag, Blk.reg_setReg_ne _ _ _ _ (by decide), reg_incr_ne _ (by decide)]

theorem bit_aerSet (b : Blk) (f i : Nat) : bit (tget (fun _ => 0) (b.aerSet f i).hub.aer f) i = true := by
  unfold Blk.aerSet
  simp only [bit, tget_tmod_self (fun _ => 0) b.hub.aer f (fun v => v ||| 2 ^ i), Nat.testBit_or, Nat.testBit_two_pow_self, Bool.or_true]

/-- Settles O50: an access in one line comes to one line's read or write, which its window, its checks and the line decide. -/
theorem apertureReadsAndWritesLines : Obligations.ApertureReadsAndWritesLines := by
  unfold Obligations.ApertureReadsAndWritesLines
  refine ⟨?_, ?_, ?_, ?_, ?_⟩
  · intro s off len tag x hup hrec hin hok hlen hone hnew w
    have hread := apertureRead_one (b := s.blk) hup hrec hin hlen hone (tag := tag)
    obtain ⟨a, ha⟩ : ∃ a, a = aptOpened s.blk tag w.1 (off.toNat % 128) (off.toNat % 128 + len) := ⟨_, rfl⟩
    have hra : rest [.hub] a = rest [.hub] s.blk := by rw [ha]; exact rest_with_hub (by decide) ..
    have hgo : apertureRead s.blk off.toNat len tag x = a.aptReadLine tag w := by rw [hread, ha]
    have hida : a.ideOk 0 = true := (ideOk_congr (bitAt_of_regs (regs_of_rest hra (by decide)) ..) (sec_of_rest hra (by decide)) 0).trans hok
    refine ⟨fun hoff => does_of_live (f := fun b => Machine.apertureRead b off.toNat len tag x) rfl hup ?_,
      fun hon hopen hpass hfree hland => does_of_live (f := fun b => Machine.apertureRead b off.toNat len tag x) rfl hup ?_⟩
    · dsimp only
      have heq : apertureRead s.blk off.toNat len tag x =
          { (((a.aptRefuse false w.1 0x12).aerSet 0 15).pcie (.cplAbort tag)) with hub.apt := s.blk.hub.apt } := by
        rw [hgo, Blk.aptReadLine, if_pos (by simp [hoff])]
        exact aptLand_refused (congrArg Blk.hub ha) hnew (by decide) [] false
      obtain ⟨r, hr⟩ : ∃ r, r = a.aptRefuse false w.1 0x12 := ⟨_, rfl⟩
      have hrr : rest [.regs] r = rest [.regs] a := by rw [hr, rest_aptRefuse (by decide)]
      have hcfg : bitAt r Reg.secIdeCfg 0 = bitAt a Reg.secIdeCfg 0 := by rw [bitAt, hr, reg_aptRefuse_ide, bitAt]
      have hidr : (r.aerSet 0 15).ideOk 0 = true :=
        (ideOk_congr (x := r.aerSet 0 15) (y := a) hcfg (show r.sec = a.sec from sec_of_rest hrr (by decide)) 0).trans hida
      rw [← hr, out_pcie_sent hidr] at heq
      rw [heq]
      refine ⟨only_of_blk (onlyBlk_of_rest ?_), rfl, ?_, ?_, ?_, ?_⟩
      · refine (rest_with_hub (b := r) (by decide) _).trans ?_
        exact (rest_of_onlyBlk (onlyBlk_mono (by decide) (onlyBlk_of_rest hrr))).trans
          (rest_of_onlyBlk (onlyBlk_mono (by decide) (onlyBlk_of_rest hra)))
      · show r.hub.out ++ _ = _
        rw [hub_of_rest hrr (by decide), ha]
        rfl
      · show (r.reg _).getLsbD 0 = true
        rw [hr]
        exact bit_reg_aptRefuse a false w.1 0x12
      · exact bit_aerSet r 0 15
      · show (r.reg _).toNat = _
        rw [hr, reg_aptRefuse_count, reg_congr (regs_of_rest hra (by decide))]
    · dsimp only
      have hfa : LineFree a w.1 := lineFree_of_rest hfree hra (by decide) (by decide) (by decide)
      have hva : a.lineVal w.1 = s.blk.lineVal w.1 :=
        lineVal_congr (sameLines_of_frame (onlyBlk_of_rest hra) (by decide) (by decide) (by decide)) _
      obtain ⟨y, z, hy, hbit, hz, hint⟩ := readInt_aperture (b := a) (tag := tag) (l := w.1) (by rw [ha]; exact hopen) (by rw [ha]; exact hpass) hfa
        (by rw [ha]; exact hland)
      have heq : apertureRead s.blk off.toNat len tag x = z := by
        rw [hgo, Blk.aptReadLine, if_neg (by simp [hon])]
        simp only [hint]
      have hyh : y.hub = a.hub := hub_of_rest hy (by decide)
      have hidy : y.ideOk 0 = true := (ideOk_congr hbit (sec_of_rest hy (by decide)) 0).trans hida
      rw [hva, aptLand_read (hyh.trans (congrArg Blk.hub ha)) hnew, out_pcie_sent hidy] at hz
      rw [heq, hz]
      refine ⟨rfl, ?_⟩
      show y.hub.out ++ _ = _
      rw [hyh, ha, Nat.add_sub_cancel_left]
      rfl
  · intro s off bs ep x hup hrec hin hopen hlen hone w
    have hwrite := apertureWrite_one (b := s.blk) (ep := ep) hup hrec hin hopen hlen hone
    obtain ⟨a, ha⟩ : ∃ a, a = (if ep then s.blk.aerSet 0 12 else s.blk) := ⟨_, rfl⟩
    have hra : rest (if ep then [.regs, .hub] else [.regs]) a = rest (if ep then [.regs, .hub] else [.regs]) s.blk := by
      rw [ha]
      cases ep
      · rfl
      · exact rest_aerSet (by decide) ..
    have hw : s.blk.aptLine (off.toNat / 128 * 128) = w := rfl
    rw [← ha, hw] at hwrite
    clear_value w
    refine ⟨fun hon hnow => does_of_live (f := fun b => Machine.apertureWrite b off.toNat bs ep x) rfl hup ?_,
      fun hoff => does_of_live (f := fun b => Machine.apertureWrite b off.toNat bs ep x) rfl hup ?_⟩
    · dsimp only
      have hna : WritesNow a ⟨.aperture 0, .pf0⟩ w.1 := by
        rw [ha]
        cases ep
        · exact hnow
        · exact writesNow_hub hnow _
      have hlines : SameLines s.blk a := by
        rw [ha]
        cases ep
        · exact sameLines_refl _
        · exact sameLines_of_frame (onlyBlk_of_rest (rest_aerSet (L := [.hub]) (by decide) ..)) (by decide) (by decide) (by decide)
      obtain ⟨hzero, hwrote⟩ := writeInt_now hna (fun src h => by cases h) (zeros (off.toNat % 128) ++ fit (128 - off.toNat % 128) bs)
        (lineMask (off.toNat % 128) bs.length) ep
      obtain ⟨y, hy⟩ : ∃ y, y = (a.writeInt ⟨.aperture 0, .pf0⟩ w.1 (zeros (off.toNat % 128) ++ fit (128 - off.toNat % 128) bs)
        (lineMask (off.toNat % 128) bs.length) ep).2 := ⟨_, rfl⟩
      rw [← hy] at hwrote
      have heq : apertureWrite s.blk off.toNat bs ep x = if ep then y.flag Reg.hubAptErr 3 else y := by
        rw [hwrite, Blk.aptWriteLine, if_neg (by simp [hon])]
        simp only [hzero, ← hy, ne_eq, not_true_eq_false, if_false]
      have hval (k : Nat) : (apertureWrite s.blk off.toNat bs ep x).lineVal k = y.lineVal k := by
        rw [heq]
        cases ep
        · rfl
        · exact lineVal_congr (sameLines_of_frame (onlyBlk_of_rest (rest_flag (L := [.regs]) (by decide) ..)) (by decide) (by decide) (by decide)) k
      refine ⟨(hval _).trans (hwrote.value.trans (lineAfter_congr (lineVal_congr hlines _) ..)), fun l hl => ?_⟩
      exact (hval l).trans ((hwrote.others l hl).trans (lineVal_congr hlines l))
    · dsimp only
      rw [hwrite, (rest_aptWriteLine_off (L := [.regs]) (by decide) hoff _ _ _).1]
      refine ⟨only_of_blk (onlyBlk_of_rest ((rest_aptRefuse (by cases ep <;> decide) ..).trans hra)), bit_reg_aptRefuse a true w.1 0x12,
        reg_aptRefuse_addr .., ?_⟩
      rw [reg_aptRefuse_count, ha]
      cases ep <;> rfl
  · intro s off bs ep len tag x hup hrec hin dropped
    obtain ⟨hbit, hcount, hkeep⟩ := ideDrop_spec s.blk
    refine ⟨does_of_live (f := fun b => Machine.apertureWrite b off.toNat bs ep x) rfl hup ?_,
      does_of_live (f := fun b => Machine.apertureRead b off.toNat len tag x) rfl hup ?_⟩
    · rw [Machine.apertureWrite, if_neg (by simp [hup, hrec]), if_pos (by simp [hin])]
      exact ⟨only_of_blk (onlyBlk_of_rest (rest_ideDrop (by decide) ..)), hbit, hcount⟩
    · rw [Machine.apertureRead, if_neg (by simp [hup, hrec]), if_pos (by simp [hin])]
      have hide (f : Nat) : (s.blk.ideDrop.aerSet 0 20).ideOk f = s.blk.ideOk f := 
        ideOk_congr (x := s.blk.ideDrop.aerSet 0 20) (y := s.blk) (congrArg (·.getLsbD 0) hkeep) rfl f
      have hreg (wd : Nat) : (s.blk.ideDropUr 0 (.cplUr tag)).reg wd = s.blk.ideDrop.reg wd :=
        reg_congr (regs_of_rest (L := [.hub]) ((rest_pcie (by decide) ..).trans (rest_aerSet (by decide) ..)) (by decide)) wd
      refine ⟨only_of_blk (onlyBlk_of_rest (rest_ideDropUr (by decide) (by decide) ..)), ⟨?_, ?_⟩, apt_pcie .., ?_, fun hok => ?_, fun hno => ?_⟩
      · show ((s.blk.ideDropUr 0 (.cplUr tag)).reg _).getLsbD 5 = true
        rw [hreg]
        exact hbit
      · show ((s.blk.ideDropUr 0 (.cplUr tag)).reg _).toNat = _
        rw [hreg]
        exact hcount
      · have haer : (s.blk.ideDropUr 0 (.cplUr tag)).hub.aer = (s.blk.ideDrop.aerSet 0 20).hub.aer := by
          unfold Blk.ideDropUr Blk.pcie
          split <;> rfl
        show bit (tget _ (s.blk.ideDropUr 0 (.cplUr tag)).hub.aer 0) 20 = true
        rw [haer]
        exact bit_aerSet s.blk.ideDrop 0 20
      · rw [Blk.ideDropUr, out_pcie_sent ((hide 0).trans hok)]
        rfl
      · rw [Blk.ideDropUr, out_pcie_held ((hide 0).trans hno)]
        rfl
  · intro s off bs ep x hin hcl
    refine stays_of_live (f := fun b => Machine.apertureWrite b off.toNat bs ep x) rfl fun hup => ?_
    unfold Machine.apertureWrite
    rw [hin, hcl]
    simp
  · intro s off bs ep len tag x hrec
    refine ⟨stays_of_live (f := fun b => Machine.apertureRead b off.toNat len tag x) rfl fun _ => ?_,
      stays_of_live (f := fun b => Machine.apertureWrite b off.toNat bs ep x) rfl fun _ => ?_⟩
    · rw [Machine.apertureRead, if_pos (by simp [hrec])]
    · rw [Machine.apertureWrite, if_pos (by simp [hrec])]

end Sys2Proof.Proofs
end

/-! ## Host movers (R322 to R324) -/
section
namespace Sys2Proof.Proofs

open Sys2Proof.Machine

/-! ### MOVEs in progress and their descriptors -/

theorem key_of_moveOf {b : Blk} {f seq : Nat} {m : MoveRt} (h : b.moveOf f seq = some m) : m.f = f ∧ m.seq = seq := by
  simpa using List.find?_some h

theorem moveOf_modDesc {b : Blk} {f seq : Nat} {m : MoveRt} (h : b.moveOf f seq = some m) (i : Nat) (g : DescRt → DescRt) :
    (b.modDesc f seq i g).moveOf f seq = some { m with descs := mmod m.descs i g } :=
  moveOf_modMove h fun _ => ⟨rfl, rfl⟩

theorem moveOf_descFail {b : Blk} {f seq : Nat} {m : MoveRt} (h : b.moveOf f seq = some m) (i st : Nat) :
    (b.descFail f seq i st).moveOf f seq =
      some { m with failed := true, descs := mmod m.descs i (fun d => { d with status := st }) } :=
  moveOf_modMove h fun _ => ⟨rfl, rfl⟩

theorem moves_pcie (b : Blk) (o : PcieOut) : (b.pcie o).hub.moves = b.hub.moves := by
  unfold Blk.pcie
  split <;> rfl

theorem moves_answerCmd (b : Blk) (c : CmdId) (st : Nat) (res : Bytes) : (b.answerCmd c st res).hub.moves = b.hub.moves := by
  have mirror (x : Blk) (f base o : Nat) (bs : Bytes) : (x.mirrorOut f base o bs).hub.moves = x.hub.moves := by
    unfold Blk.mirrorOut
    split
    · rfl
    · exact moves_pcie x _
  have message (x : Blk) (f : Nat) (v : Option Nat) : (x.msix f v).hub.moves = x.hub.moves := by
    unfold Blk.msix
    split
    · rfl
    · split
      · exact moves_pcie x _
      · rfl
  have counted (x : Blk) (off : Nat) : (x.incr off).hub.moves = x.hub.moves := rfl
  unfold Blk.answerCmd
  split
  · rfl
  · split
    · rfl
    · simp only [Blk.answerRec]
      split <;> split <;> simp only [counted, message, mirror] <;> rfl

/-- The block in which a MOVE that has ended is forgotten. -/
def moveGone (b : Blk) (f seq : Nat) : Blk :=
  ((({ b with hub.moves := b.hub.moves.filter (fun x => !(x.f == f && x.seq == seq)) } : Blk).dropWait (.list f seq)).dropFaults (.list f seq))

theorem moveOf_moveGone (b : Blk) (f seq : Nat) : (moveGone b f seq).moveOf f seq = none := by
  show ((b.hub.moves.filter _).find? _) = none
  rw [List.find?_eq_none]
  intro m hm
  have hne := (List.mem_filter.mp hm).2
  rw [Bool.not_eq_true'] at hne
  rw [hne]
  decide

theorem moveEnd_done {b : Blk} {f seq : Nat} {m : MoveRt} (h : b.moveOf f seq = some m) (hd : m.done = true) :
    b.moveEnd f seq = (moveGone b f seq).answerCmd ⟨Fin.ofNat 64 f, BitVec.ofNat 64 seq⟩ m.status m.result := by
  unfold Blk.moveEnd
  rw [h]
  simp only [hd, Bool.not_true, Bool.false_eq_true, if_false]
  rfl

/-- The end of a MOVE leaves it as it is or forgets it. -/
theorem moveOf_moveEnd {b : Blk} {f seq : Nat} {y : MoveRt} (h : (b.moveEnd f seq).moveOf f seq = some y) : b.moveOf f seq = some y := by
  cases hm : b.moveOf f seq with
  | none =>
    rw [Blk.moveEnd, hm] at h
    rw [← h, hm]
  | some m =>
    cases hd : m.done
    · rw [Blk.moveEnd, hm] at h
      simp only [hd, Bool.not_false, if_true] at h
      rw [← h, hm]
    · rw [moveEnd_done hm hd, moveOf_congr (moves_answerCmd ..), moveOf_moveGone] at h
      cases h

/-! ### Writes to host memory -/

theorem foldl_pcie_sent (os : List PcieOut) (b : Blk) (h : ∀ o ∈ os, b.ideOk o.func = true) :
    os.foldl Blk.pcie b = { b with hub.out := b.hub.out ++ os } := by
  induction os generalizing b with
  | nil => simp
  | cons o os ih =>
    rw [List.foldl_cons, out_pcie_sent (h o List.mem_cons_self)]
    refine (ih ({ b with hub.out := b.hub.out ++ [o] } : Blk) fun p hp => h p (List.mem_cons_of_mem _ hp)).trans ?_
    simp

theorem writesOf_congr {x y : Blk} (h : x.win 0 = y.win 0) (f pasid : Nat) (ep : Bool) (ps : List (Nat × Nat × Bool)) (bs : Bytes) :
    x.writesOf f pasid ep ps bs = y.writesOf f pasid ep ps bs := by
  induction ps generalizing bs with
  | nil => rfl
  | cons p ps ih => rw [Blk.writesOf, Blk.writesOf, pieceWrites_congr h, ih]

theorem hostWrites_eq (ps : List (Nat × Nat × Bool)) (b : Blk) (f pasid : Nat) (ep : Bool) (bs : Bytes) :
    b.hostWrites f pasid ep ps bs = (b.writesOf f pasid ep ps bs).foldl Blk.pcie b := by
  induction ps generalizing b bs with
  | nil => rfl
  | cons p ps ih =>
    obtain ⟨a, n, u⟩ := p
    rw [Blk.hostWrites, putPiece_eq, ih, writesOf_congr (win_pcie_foldl b _ 0), Blk.writesOf, List.foldl_append]

theorem func_writesOf {b : Blk} {f pasid : Nat} {ep : Bool} {o : PcieOut} (ps : List (Nat × Nat × Bool)) (bs : Bytes)
    (h : o ∈ b.writesOf f pasid ep ps bs) : o.func = f := by
  induction ps generalizing bs with
  | nil => cases h
  | cons p ps ih =>
    rw [Blk.writesOf, List.mem_append] at h
    obtain h | h := h
    · rw [Blk.pieceWrites, List.mem_map] at h
      obtain ⟨c, -, rfl⟩ := h
      rfl
    · exact ih _ h

/-- The block in which the hub has sent. -/
def hubSends (b : Blk) (os : List PcieOut) : Blk := { b with hub.out := b.hub.out ++ os }

/-- Writes of a function that IDE lets go out go out, and change nothing else. -/
theorem hostWrites_sent {b : Blk} {f : Nat} (h : b.ideOk f = true) (pasid : Nat) (ep : Bool) (ps : List (Nat × Nat × Bool)) (bs : Bytes) :
    b.hostWrites f pasid ep ps bs = hubSends b (b.writesOf f pasid ep ps bs) := by
  rw [hostWrites_eq]
  exact foldl_pcie_sent _ _ fun o ho => by rw [func_writesOf ps bs ho, h]

/-! ### A line moved -/

theorem hub_descMoved (b : Blk) (m : MoveRt) (i n : Nat) (p : Bool) : (b.descMoved m i n p).hub = (b.modDesc m.f m.seq i (fun d => { d with
    off := d.off + n
    poison := if p && d.poison.isNone then some d.off else d.poison })).hub :=
  hub_of_rest (L := [.pcs]) (rest_event (by decide) ..) (by decide)

/-- A line of a descriptor moved, in the state after. -/
theorem descAt_descMoved {b : Blk} {c : CmdId} {i : Nat} {m : MoveRt} {d : DescRt} (hm : b.moveOf c.f.val c.seq.toNat = some m)
    (hd : mget m.descs i = some d) (n : Nat) (p : Bool) (s : State) : descAt { s with blk := b.descMoved m i n p } c i =
      some { d with off := d.off + n, poison := if p && d.poison.isNone then some d.off else d.poison } := by
  obtain ⟨hf, hs⟩ := key_of_moveOf hm
  have hmod := moveOf_modDesc hm i (fun d => { d with
    off := d.off + n
    poison := if p && d.poison.isNone then some d.off else d.poison })
  unfold descAt
  dsimp only
  rw [moveOf_congr (congrArg Hub.moves (hub_descMoved ..)), hf, hs, hmod]
  simp only [Option.bind_some, mget_mmod_self, hd, Option.map_some]

/-- A failed descriptor, in the state after, and its MOVE. -/
theorem fails_descFail {b : Blk} {c : CmdId} {i : Nat} {m : MoveRt} {d : DescRt} (hm : b.moveOf c.f.val c.seq.toNat = some m)
    (hd : mget m.descs i = some d) (st : Nat) (s : State) : descAt { s with blk := b.descFail m.f m.seq i st } c i = some { d with status := st } ∧
      ∀ y, (b.descFail m.f m.seq i st).moveOf m.f m.seq = some y → y.failed = true := by
  obtain ⟨hf, hs⟩ := key_of_moveOf hm
  refine ⟨by rw [hf, hs]; exact descAt_descFail hm hd st, fun y hy => ?_⟩
  rw [hf, hs, moveOf_descFail hm i st] at hy
  cases hy
  rfl

section
variable {b : Blk} {k : Nat} {c : CmdId} {i : Nat} {m : MoveRt} {d : DescRt}

theorem running_of_runs (h : DescRuns b k c i m d) : d.running = true := by simp [DescRt.running, h.started, h.open_]

theorem moverLine_written (h : DescRuns b k c i m d) (hopen : b.closing = false) (hst : d.status = 0) (hoff : d.off < d.len)
    (hdir : d.toHost = false) (hidle : b.pendingInt (m.req i).who = false) (hgood : b.badWrite (m.req i).who = none) {a n : Nat}
    (ha : a = d.pool + d.off) (hn : n = min (128 - a % 128) (d.len - d.off)) {bs : Bytes} {g y : Blk}
    (hfetch : b.hostFetch (.desc m.f m.seq i) k m.f m.pasid (d.host + d.off) n (.data bs false) = (.ok (), g))
    (hwrite : g.writeInt (m.req i) (a / 128) (zeros (a % 128) ++ fit (128 - a % 128) (fit n bs)) (lineMask (a % 128) n) false = (0, y))
    (hok : y.badWrite (m.req i).who = none) : moverLine b k c i (.data bs false) = y.descMoved m i n false := by
  unfold moverLine
  subst ha hn
  simp only [h.move, h.desc, hst, h.up, hopen, h.mover, running_of_runs h, Nat.not_le.mpr hoff, decide_false, Bool.or_self, hdir, hidle, hgood, hfetch, hostStatus,
    hostBytes, hostEp, hwrite, hok, bne_self_eq_false, Bool.false_eq_true, if_false, Bool.not_false, Bool.not_true, Bool.or_false, Bool.true_and, Option.isSome_none, ne_eq, not_true_eq_false]

theorem moverLine_sent (h : DescRuns b k c i m d) (hopen : b.closing = false) (hst : d.status = 0) (hoff : d.off < d.len)
    (hdir : d.toHost = true) {a n : Nat} (ha : a = d.pool + d.off) (hn : n = min (128 - a % 128) (d.len - d.off)) {ps qs : List (Nat × Bool)}
    {bs : Bytes} {p : Bool} {g y z : Blk}
    (hfirst : b.xlateAll (.desc m.f m.seq i) k m.f m.pasid true (pagesOf (d.host + d.off) n) = (.ok ps, g))
    (hread : b.readInt (m.req i) (a / 128) = (.ok bs p, y))
    (hthen : y.xlateAll (.desc m.f m.seq i) k m.f m.pasid true (pagesOf (d.host + d.off) n) = (.ok qs, z)) (host : HostResult) :
    moverLine b k c i host =
      (z.hostWrites m.f m.pasid p (hostPieces (d.host + d.off) n ps) (sl bs (a % 128) n)).descMoved m i n p := by
  unfold moverLine
  subst ha hn
  simp only [h.move, h.desc, hst, h.up, hopen, h.mover, running_of_runs h, Nat.not_le.mpr hoff, decide_false, Bool.or_self, hdir, hfirst, hread, hthen,
    bne_self_eq_false, Bool.false_eq_true, if_false, if_true, Bool.not_true,
    Bool.false_and]

theorem moverLine_untranslated (h : DescRuns b k c i m d) (hopen : b.closing = false) (hst : d.status = 0) (hoff : d.off < d.len) {n st : Nat}
    (hn : n = min (128 - (d.pool + d.off) % 128) (d.len - d.off)) {g : Blk} {host : HostResult}
    (hfail : (d.toHost = true ∧
        b.xlateAll (.desc m.f m.seq i) k m.f m.pasid true (pagesOf (d.host + d.off) n) = (.error (.fail st), g)) ∨
      (d.toHost = false ∧ b.pendingInt (m.req i).who = false ∧ b.badWrite (m.req i).who = none ∧
        b.hostFetch (.desc m.f m.seq i) k m.f m.pasid (d.host + d.off) n host = (.error (.fail st), g))) :
    moverLine b k c i host = g.descFail m.f m.seq i st := by
  unfold moverLine
  subst hn
  obtain ⟨hdir, hx⟩ | ⟨hdir, hidle, hgood, hx⟩ := hfail
  · simp only [h.move, h.desc, hst, h.up, hopen, h.mover, running_of_runs h, Nat.not_le.mpr hoff, decide_false, Bool.or_self, hdir, hx,
      bne_self_eq_false, Bool.false_eq_true, if_false, if_true,
      Bool.not_true, Bool.false_and]
  · simp only [h.move, h.desc, hst, h.up, hopen, h.mover, running_of_runs h, Nat.not_le.mpr hoff, decide_false, Bool.or_self, hdir, hidle, hgood, hx,
      bne_self_eq_false, Bool.false_eq_true, if_false,
      Bool.not_false, Bool.not_true, Bool.or_false, Bool.true_and, Option.isSome_none]

end

/-! ### The rows -/

/-- Settles O51: a mover's rows come to one change of its MOVE's descriptor. -/
theorem moversRunDescriptors : Obligations.MoversRunDescriptors := by
  unfold Obligations.MoversRunDescriptors
  refine ⟨?_, ?_, ?_, ?_, ?_, ?_, ?_⟩
  · intro s k m bs g hup hfirst hroom hfew hg hfetch
    refine does_of_live (f := fun b => moverFetch b k (.data bs false)) rfl hup ?_
    have heq : moverFetch s.blk k (.data bs false) = g.modMove m.f m.seq (fun m => { m with
        fetched := m.fetched + 1
        descs := mput m.descs m.fetched { bytes := fit 64 bs } }) := by
      unfold moverFetch
      rw [hfirst]
      simp only [hup, hfetch, Nat.not_le.mpr hroom, Nat.not_le.mpr hfew, decide_false, Bool.or_self, Bool.false_eq_true, if_false, hostStatus,
        hostEp, hostBytes, ne_eq, not_true_eq_false]
    dsimp only
    rw [heq]
    exact ⟨moveOf_modMove hg fun _ => ⟨rfl, rfl⟩, rfl⟩
  · intro s k h m g hup hfirst hroom hfew hfetch
    refine gives_of_live (f := fun b => moverFetch b k h) rfl hup ?_
    unfold moverFetch
    rw [hfirst]
    simp only [hup, hfetch, Nat.not_le.mpr hroom, Nat.not_le.mpr hfew, decide_false, Bool.or_self, Bool.false_eq_true, if_false]
  · intro s k m i d hup hnext hm hd hrun hfew fenced
    have hfence : (d.fence && !(m.descs.all (fun e => decide (i ≤ e.1) || e.2.ended))) = true ↔ fenced := by
      simp [fenced]
    have hfree (hnot : ¬ fenced) : (s.blk.dead || s.blk.pwr.holding || decide (126 ≤ s.blk.inFlight k) ||
        (d.fence && !(m.descs.all (fun e => decide (i ≤ e.1) || e.2.ended)))) = false := by
      rw [Bool.eq_false_iff.mpr (mt hfence.mp hnot)]
      simp [hup, hrun, hfew]
    refine ⟨fun hnot hok => does_of_live (f := fun b => moverStart b k) rfl hup ?_,
      fun hnot hbad => does_of_live (f := fun b => moverStart b k) rfl hup ?_,
      fun hwait => stays_of_live (f := fun b => moverStart b k) rfl fun _ => ?_⟩
    · have heq : moverStart s.blk k = s.blk.modDesc m.f m.seq i (fun d => { d with started := true }) := by
        unfold moverStart
        simp only [hnext, hfree hnot, hok, Bool.false_eq_true, if_false, Bool.not_true]
      dsimp only
      rw [heq]
      exact ⟨only_of_blk (onlyBlk_of_rest (rest_with_hub (by decide) ..)), moveOf_modDesc hm i _⟩
    · have heq : moverStart s.blk k = (s.blk.descFail m.f m.seq i 0x71).descEnd m.f m.seq i := by
        unfold moverStart
        simp only [hnext, hfree hnot, hbad, Bool.false_eq_true, if_false, Bool.not_false, if_true]
      have hfail := moveOf_descFail hm i 0x71
      have hend := moveOf_modDesc hfail i (fun d => { d with started := true, ended := true })
      intro y hy
      dsimp only at hy
      rw [heq, Blk.descEnd] at hy
      have hy := moveOf_moveEnd hy
      rw [show ((((s.blk.descFail m.f m.seq i 0x71).modDesc m.f m.seq i (fun d => { d with started := true, ended := true })).incr
        Reg.hubDescCnt).moveOf m.f m.seq) = _ from hend] at hy
      cases hy
      exact ⟨rfl, by simp only [mget_mmod_self, hd, Option.map_some]⟩
    · unfold moverStart
      simp only [hnext, hfence.mpr hwait, Bool.or_true, if_true]
  · intro s k c i m d bs g h hopen hst hoff hdir hidle hgood hgood2 a n hfetch hg hnow
    refine does_of_live (f := fun b => moverLine b k c i (.data bs false)) rfl h.up ?_
    obtain ⟨hzero, hwrote⟩ := writeInt_now hnow (fun src hw => by cases hw) (zeros (a % 128) ++ fit (128 - a % 128) (fit n bs)) (lineMask (a % 128) n)
      false
    obtain ⟨y, hy⟩ : ∃ y, y = (g.writeInt (m.req i) (a / 128) (zeros (a % 128) ++ fit (128 - a % 128) (fit n bs)) (lineMask (a % 128) n) false).2 :=
      ⟨_, rfl⟩
    rw [← hy] at hwrote
    have hok : y.badWrite (m.req i).who = none := by rw [← hgood2, Blk.badWrite, Blk.badWrite, hwrote.landed]
    have hmy : y.moveOf c.f.val c.seq.toNat = some m := (moveOf_congr (congrArg Hub.moves (hub_of_rest hwrote.frame (by decide))) ..).trans hg
    have heq := moverLine_written h hopen hst hoff hdir hidle hgood rfl rfl hfetch (Prod.ext hzero hy.symm) hok
    dsimp only
    rw [heq]
    refine ⟨?_, (descAt_descMoved hmy h.desc n false s).trans (by simp)⟩
    rw [← hwrote.value]
    exact lineVal_congr (sameLines_of_frame (onlyBlk_of_rest (L := [.hub, .pcs]) (rest_descMoved (by decide) (by decide) ..)) (by decide) (by decide)
      (by decide)) _
  · intro s k c i m d host bs ps qs g y z p h hopen hst hoff hdir a n hfirst hread hthen hide hz
    refine does_of_live (f := fun b => moverLine b k c i host) rfl h.up ?_
    have hm : (hubSends z (z.writesOf m.f m.pasid p (hostPieces (d.host + d.off) n ps) (sl bs (a % 128) n))).moveOf c.f.val c.seq.toNat = some m := hz
    have heq := moverLine_sent h hopen hst hoff hdir rfl rfl hfirst hread hthen host
    rw [hostWrites_sent hide] at heq
    dsimp only
    rw [heq]
    refine ⟨?_, descAt_descMoved hm h.desc n p s⟩
    rw [hub_descMoved]
    rfl
  · intro s k c i m d host st g h hopen hst hoff n hfail hg
    refine does_of_live (f := fun b => moverLine b k c i host) rfl h.up ?_
    dsimp only
    rw [moverLine_untranslated h hopen hst hoff rfl hfail]
    exact fails_descFail hg h.desc st s
  · intro s k c i m d r h hend hidle hgood hone hlast hc hl e
    refine does_of_live (f := fun b => moverEnd b k c i) rfl h.up ?_
    obtain ⟨hf, hs⟩ := key_of_moveOf h.move
    have hover : (decide (d.status = 0) && decide (d.off < d.len)) = false := by
      obtain hst | hlen := hend
      · simp [hst]
      · simp [Nat.not_lt.mpr hlen]
    obtain ⟨x, hx⟩ : ∃ x, x = (s.blk.dropLanded (m.req i).who).dropFaults (.desc m.f m.seq i) := ⟨_, rfl⟩
    have hgo : moverEnd s.blk k c i = x.descEnd m.f m.seq i := by
      unfold moverEnd
      simp only [h.move, h.desc, h.up, h.mover, running_of_runs h, hover, hidle, Blk.lateFail, hgood, ← hx, bne_self_eq_false, Bool.not_true,
        Bool.or_self, Bool.false_eq_true, if_false]
    have hxm : x.moveOf m.f m.seq = some m := by
      rw [hx, hf, hs]
      exact h.move
    have hdone : mmod m.descs i (fun d : DescRt => { d with started := true, ended := true }) = e.descs := by
      have hsame : ({ d with started := true, ended := true } : DescRt) = { d with ended := true } := by rw [← h.started]
      simp [hone, mmod, mget, mput, hsame, e]
    have hall : e.done = true := by
      obtain hfail | hlast := hlast
      · simp [MoveRt.done, e, hfail]
      · simp [MoveRt.done, e, hlast]
    obtain ⟨y, hy⟩ : ∃ y, y = (x.modDesc m.f m.seq i (fun d => { d with started := true, ended := true })).incr Reg.hubDescCnt := ⟨_, rfl⟩
    have hym : y.moveOf m.f m.seq = some e := by
      rw [hy]
      refine (moveOf_modDesc hxm i _).trans ?_
      rw [hdone]
    have hcmd : (⟨Fin.ofNat 64 m.f, BitVec.ofNat 64 m.seq⟩ : CmdId) = c := by
      rw [hf, hs]
      obtain ⟨f, seq⟩ := c
      simp
    have hend : x.descEnd m.f m.seq i = (moveGone y m.f m.seq).answerCmd c e.status e.result := by
      rw [Blk.descEnd, ← hy, moveEnd_done hym hall, hcmd]
    dsimp only
    rw [hgo, hend]
    refine ⟨only_of_blk (onlyBlk_of_rest ?_), ends_answerCmd hc hl ?_ _ _, ?_, ?_⟩
    · refine (rest_answerCmd (by decide) (by decide) ..).trans ?_
      refine (rest_dropFaults (by decide) ..).trans ((rest_dropWait (by decide) ..).trans ((rest_with_hub (by decide) ..).trans ?_))
      rw [hy, rest_incr (by decide), rest_modDesc (by decide), hx, rest_dropFaults (by decide), rest_dropLanded (by decide)]
    · rw [hy, hx]
      rfl
    · rw [reg_answerCmd_ne _ _ _ _ (by decide), hy, hx]
      exact toNat_reg_incr _ _
    · rw [moveOf_congr (moves_answerCmd ..), ← hf, ← hs]
      exact moveOf_moveGone ..

end Sys2Proof.Proofs
end

/-! ## A Heartbeat whose MSG_ID has left its field (R237, R357) -/
section
namespace Sys2Proof.Proofs

open Sys2Proof.Machine

/-- Bits 159:128 of a header are what its fields below ARG carry into the low word of ARG. -/
theorem hfld_header_low (m : Msg) (self : Nat) : hfld (m.header self) 159 128 =
    (headLow m.ty m.dst self m.msgId m.psn m.chunk.length m.traceId (m.psn + 1 == m.packets)
      (m.poisons.getD (if m.ty = 0x06 then 2 * m.psn else 0) false)
      (m.ty == 0x06 && m.poisons.getD ((if m.ty = 0x06 then 2 * m.psn else 0) + 1) false) +
      m.status * 2 ^ 112 + m.load * 2 ^ 120 + m.arg.toNat * 2 ^ 128) / 2 ^ 128 % 2 ^ 32 := by
  unfold hfld fld Msg.header
  dsimp only
  rw [BitVec.toNat_ofNat, Nat.shiftRight_eq_div_pow]
  generalize e2eCrc _ _ = e
  omega

/-- A worm stays on its link when the next one is put there. -/
theorem worms_push_push (d : D2d) (w v : Worm) : mget ((d.push w).push v).worms d.count = some w := by
  have hne : d.count ≠ d.count + 1 := by omega
  simp only [D2d.push, mget_mput_ne _ _ _ _ hne, mget_mput_self]

/-- A message that the hub sends, with its numbers. -/
def hubNumbered (b : Blk) (m : Msg) : Msg :=
  { m with traceId := b.newTrace.1, msgId := tget (fun _ => 0) b.fab.msgIds m.dst, at_ := b.tb }

/-- Its worm. -/
def hubWorm (b : Blk) (m : Msg) : Worm :=
  { hdr := (hubNumbered b m).header (b.view (.router 0)).self, payload := m.chunk, part := m.part }

theorem d2d_hubSend {b : Blk} {m : Msg} (hup : b.dead = false) (hroute : mhas (b.view (.router 0)).eids m.dst = true) :
    (b.hubSend m).d2d 4 0 = (b.d2d 4 0).push (hubWorm b m) ∧
      (b.hubSend m).dead = false ∧ (b.hubSend m).str = b.str := by
  obtain ⟨x, hx⟩ : ∃ x, x = (b.newTrace.2.newMsgId m.dst).2.trace
    { source := 3, event := 1, part := m.part, unit := 112, eid := m.dst, traceId := b.newTrace.1,
      msgId := tget (fun _ => 0) b.newTrace.2.fab.msgIds m.dst, ty := m.ty } := ⟨_, rfl⟩
  have hids : b.newTrace.2.fab.msgIds = b.fab.msgIds ∧ b.newTrace.2.fab.d2d = b.fab.d2d ∧ rest [.fab] b.newTrace.2 = rest [.fab] b := by
    unfold Blk.newTrace
    split <;> exact ⟨rfl, rfl, rfl⟩
  have hrest : rest quietRegions x = rest quietRegions (b.newTrace.2.newMsgId m.dst).2 := by
    rw [hx, rest_trace (by decide) (by decide) (by decide) (by decide) (by decide) (by decide) (by decide)]
  have hfab : x.fab.d2d = b.fab.d2d := (congrArg (·.d2d) (fab_of_rest hrest (by decide))).trans hids.2.1
  have hgo : b.hubSend m = x.modD2d 4 0 (fun d => d.push (hubWorm b m)) := by
    unfold Blk.hubSend hubWorm hubNumbered
    rw [hx, ← hids.1]
    simp only [hup, hroute, Bool.false_eq_true, if_false, Bool.not_true]
    rfl
  rw [hgo]
  refine ⟨?_, ?_, ?_⟩
  · unfold Blk.d2d Blk.modD2d
    dsimp only
    rw [tget_tmod_self (fun _ => ({} : D2d)), hfab]
  · show x.dead = false
    rw [dead_of_rest hrest (by decide), ← hup]
    exact dead_of_rest hids.2.2 (by decide)
  · show x.str = b.str
    rw [str_of_rest hrest (by decide)]
    exact str_of_rest hids.2.2 (by decide)

/-- A Heartbeat as the pair engine hands it to the hub. -/
def beatMsg (b : Blk) (dst : Nat) : Msg :=
  { ty := 0x4C, dst := dst, msgId := 0, traceId := 0, arg := argAt b.pair.hbSeq 0 ||| argAt b.hbRole 32, payload := toLe 8 b.tb,
    poisons := [false] }

theorem sendHeartbeat_eq (b : Blk) (dst : Nat) : b.sendHeartbeat dst = b.hubSend (beatMsg b dst) := rfl

/-- A primary that sends Heartbeats to EID 1, to which its next MSG_ID is 2^80. -/
def farMsgId : State :=
  { blk := { str := { loaded := true, run := { pair := { peer := 1, witness := 1 }, eids := [(1, ⟨0, false, 0⟩)] } }, pair := { role := 1 },
             fab := { msgIds := [(1, 2 ^ 80)] } } }

/-- The primary as it begins to send. -/
def farBeat : Blk :=
  { farMsgId.blk.incr Reg.hubHbMissCnt with pair := { role := 1, hbSeq := 1, hbSent := 1, hbAt := some 0 } }

theorem farMsgId_beats : heartbeatSend farMsgId.blk = (farBeat.sendHeartbeat 1).sendHeartbeat 1 := rfl

/-- The Heartbeat that leaves first: its MSG_ID, added at bit 48 of the header, reaches the SEQ in ARG. -/
theorem farMsgId_sends : (mget ((heartbeatSend farMsgId.blk).d2d 4 0).worms 0).map (fun w => hfld w.hdr 159 128) = some 2 := by
  obtain ⟨hlink, hup, hstr⟩ := d2d_hubSend (b := farBeat) (m := beatMsg farBeat 1) rfl (by decide)
  rw [farMsgId_beats, sendHeartbeat_eq farBeat]
  generalize farBeat.hubSend (beatMsg farBeat 1) = x at *
  obtain ⟨hnext, -, -⟩ := d2d_hubSend (b := x) (m := beatMsg x 1) hup (by
    rw [view_congr hstr]
    exact (show mhas (farBeat.view (.router 0)).eids 1 = true by decide))
  rw [sendHeartbeat_eq, hnext, hlink]
  have hworm := worms_push_push (farBeat.d2d 4 0) (hubWorm farBeat (beatMsg farBeat 1)) (hubWorm x (beatMsg x 1))
  rw [show (farBeat.d2d 4 0).count = 0 from rfl] at hworm
  rw [hworm, Option.map_some, hubWorm, hfld_header_low]
  decide

/-- Refutes O53: its third clause says that each Heartbeat carries its SEQ in ARG, in any state; one whose destination's MSG_ID does not fit
its 16 bits carries another number there. -/
theorem not_pairTimersAct : ¬ Obligations.PairTimersAct := by
  unfold Obligations.PairTimersAct
  intro h
  obtain ⟨-, -, hbeat, -⟩ := h
  obtain ⟨t, hexec, -, -, -, x, hx, y, -, -, hall, -⟩ := hbeat farMsgId 0 1 (by decide) rfl (.inl rfl) (by decide) (by decide) (by decide)
  have hnext : exec .heartbeatSend farMsgId = .next { farMsgId with blk := heartbeatSend farMsgId.blk } := rfl
  rw [hnext] at hexec
  cases hexec
  have hseq := (hall x List.mem_cons_self).2.1
  have hsent : some (hfld x.hdr 159 128) = some 2 := by
    rw [← farMsgId_sends]
    exact (congrArg (Option.map (fun w : Worm => hfld w.hdr 159 128)) hx).symm
  exact absurd (hseq.symm.trans (Option.some.inj hsent)) (by decide)

end Sys2Proof.Proofs
end

/-! ## The SPDM responder (R378 to R380) -/
section
namespace Sys2Proof.Proofs

open Sys2Proof.Machine

/-! ### Requests that the responder lets through -/

theorem spdmReq_of_open {b : Blk} {v : SpdmVia} (h : SpdmOpen b v) (go : Blk → Blk) : b.spdmReq v go = go b := by
  unfold Blk.spdmReq
  rw [if_neg (by simp [h.up]), if_neg (by simp [h.negotiated])]
  cases hv : v.session with
  | none => rfl
  | some k =>
    obtain ⟨x, hx, hf⟩ := h.session k hv
    simp [hx, hf]

theorem spdmIn_of_open {b : Blk} {v : SpdmVia} {k : Fin 2} {x : Session} (h : SpdmOpen b v) (hv : v.session = some k) (hx : b.session k = some x)
    (go : Nat → Session → Blk → Blk) : b.spdmIn v go = go k x b := by
  unfold Blk.spdmIn
  rw [spdmReq_of_open h, hv]
  simp [hx]

/-- What a request answers that changes the responder's own state alone. -/
theorem only_sec {s : State} {x : Blk} (h : rest [.sec] x = rest [.sec] s.blk) : Only [.sec] s { s with blk := x } :=
  only_of_blk (onlyBlk_of_rest h)

theorem does_says {i : Instr} {s : State} {f : Blk → Blk} {v : SpdmVia} {r : SpdmRsp} (hex : exec i s = live f s) (hup : s.blk.dead = false)
    (hf : f s.blk = s.blk.spdmSend v r) : Does i s (fun t => Only [.sec] s t ∧ SpdmSays s t v r) := by
  refine does_of_live hex hup ?_
  rw [hf]
  exact ⟨only_sec (rest_spdmSend (by decide) ..), rfl⟩

theorem up_of_spdm {b : Blk} (h : b.spdmUp = true) : b.dead = false := by
  simp only [Blk.spdmUp, Bool.and_eq_true, Bool.not_eq_true'] at h
  exact h.1.1.1

/-! ### Sessions -/

theorem session_modSession {b : Blk} {k : Nat} {x : Session} (h : b.session k = some x) {f : Session → Session} (hf : ∀ y, (f y).id = y.id) :
    (b.modSession k f).session k = some (f x) := by
  have hmap := find?_map_of_key (p := fun y : Session => y.id / 65536 == k) (g := f) (l := b.sec.sessions) h fun y => by simp [hf y]
  simpa [Blk.session, Blk.modSession] using hmap

theorem session_dropSession (b : Blk) (k : Nat) : (b.dropSession k).session k = none := by
  unfold Blk.session Blk.dropSession
  rw [List.find?_eq_none]
  intro y hy
  simpa using (List.mem_filter.mp hy).2

/-! ### Measurements -/

theorem filter_filterMap_keyed {β : Type} (g : Nat → Option β) (l : List Nat) (i : Nat) :
    (l.filterMap (fun j => (g j).map (fun m => (j, m)))).filter (fun e => e.1 == i) =
      (l.filter (· == i)).filterMap (fun j => (g j).map (fun m => (j, m))) := by
  induction l with
  | nil => rfl
  | cons j l ih =>
    by_cases hi : j = i
    · subst hi
      cases hj : g j <;> simp [List.filterMap_cons, hj, ih]
    · cases hj : g j <;> simp [List.filterMap_cons, hj, hi, ih]

theorem filter_range_self : ∀ i < 12, (List.range 12).filter (· == i) = [i] := by decide

theorem measurements_at {b : Blk} {i : Nat} {m : Bytes} (hi : i < 12) (h : b.measurement i = some m) :
    b.measurements.filter (fun e => e.1 == i) = [(i, measBlock i m)] := by
  have hkeyed : b.measurements =
      (List.range 12).filterMap (fun j => ((b.measurement j).map (measBlock j)).map (fun m => (j, m))) := by
    simp [Blk.measurements, Option.map_map, Function.comp_def]
  rw [hkeyed, filter_filterMap_keyed, filter_range_self i hi]
  simp [h]

/-! ### The rows -/

/-- The two values that a signed answer draws. -/
theorem draws_of_getMeasurements {b : Blk} {v : SpdmVia} {i : Nat} {m : Bytes} (h : SpdmOpen b v) (hi : 1 ≤ i ∧ i < 12)
    (hm : b.measurement i = some m) : getMeasurements b v i false =
      b.draw.2.draw.2.spdmSend v (.measurements b.measurements.length [measBlock i m] (Config.spdmData b.fresh) []) := by
  unfold getMeasurements
  rw [spdmReq_of_open h]
  have hne : i ≠ 0 := by omega
  have hnall : i ≠ 0xFF := by omega
  simp only [hne, hnall, if_false, measurements_at hi.2 hm]
  simp
  rfl

/-- Settles O55: each request, let through, answers once. -/
theorem spdmResponderAnswers : Obligations.SpdmResponderAnswers := by
  unfold Obligations.SpdmResponderAnswers
  refine ⟨?_, ?_, ?_, ?_, ?_, ?_, ?_, ?_⟩
  · intro s v hup hout
    have hd := up_of_spdm hup
    have hgo (ok : Bool) (n : Nat) (r : SpdmRsp) : s.blk.spdmStep v ok n r =
        if ok then ({ s.blk with sec.spdm := n } : Blk).spdmSend v r else s.blk.spdmError v 0x04 := by
      unfold Blk.spdmStep
      rw [if_neg (by simp [hup]), hout]
      cases ok <;> rfl
    refine ⟨does_of_live (f := fun b => getVersion b v) rfl hd ?_, fun h => does_of_live (f := fun b => getCapabilities b v) rfl hd ?_,
      fun h => does_of_live (f := fun b => negotiateAlgorithms b v) rfl hd ?_, fun h => does_of_live (f := fun b => getCapabilities b v) rfl hd ?_,
      fun h => does_says (f := fun b => getDigests b v) rfl hd ?_⟩
    · dsimp only
      rw [getVersion, hgo, if_pos rfl]
      exact ⟨only_sec (rest_with_sec (by decide) ..), rfl, rfl⟩
    · dsimp only
      rw [getCapabilities, hgo, if_pos (by simp [h])]
      exact ⟨only_sec (rest_with_sec (by decide) ..), rfl, rfl⟩
    · dsimp only
      rw [negotiateAlgorithms, hgo, if_pos (by simp [h])]
      exact ⟨only_sec (rest_with_sec (by decide) ..), rfl, rfl⟩
    · dsimp only
      rw [getCapabilities, hgo, if_neg (by simp [h])]
      exact ⟨only_sec (rest_with_sec (by decide) ..), rfl, rfl⟩
    · rw [getDigests, Blk.spdmReq, if_neg (by simp [hup]), if_pos h]
      rfl
  · intro s v h chain
    have hd := up_of_spdm h.up
    refine ⟨does_says (f := fun b => getDigests b v) rfl hd (spdmReq_of_open h _), fun o n ho =>
      does_says (f := fun b => getCertificate b v 0 o n) rfl hd ?_, fun slot o n hbad =>
      does_says (f := fun b => getCertificate b v slot o n) rfl hd ?_, fun nonce hal => does_of_live (f := fun b => challengeReq b v 0) rfl hd ?_,
      fun i m nonce hi hm => does_of_live (f := fun b => getMeasurements b v i false) rfl hd ?_, fun nonce hal =>
      does_says (f := fun b => challengeReq b v 0) rfl hd ?_⟩
    · rw [getCertificate, spdmReq_of_open h, if_neg (by simpa [chain] using ho)]
      simp only [List.length_take, List.length_drop]
      rfl
    · rw [getCertificate, spdmReq_of_open h, if_pos (by simpa [chain] using hbad)]
      rfl
    · rw [challengeReq, spdmReq_of_open h, if_neg (by decide), if_neg (by simp [hal])]
      exact ⟨only_of_blk (onlyBlk_of_rest ((rest_with_sec (by decide) ..).trans (rest_with_fresh (by decide) ..))), rfl⟩
    · have hin : 1 ≤ i ∧ i < 12 := by
        simp only [List.mem_cons, List.not_mem_nil, or_false] at hi
        omega
      rw [draws_of_getMeasurements h hin hm]
      exact ⟨only_of_blk (onlyBlk_of_rest ((rest_with_sec (by decide) ..).trans (rest_with_fresh (by decide) ..))), rfl⟩
    · rw [challengeReq, spdmReq_of_open h, if_neg (by decide), if_pos (by simp [hal])]
      rfl
  · intro s v id random exchange h hout hlen hal
    have hd := up_of_spdm h.up
    refine ⟨fun hnone => does_of_live (f := fun b => keyExchange b v id.toNat exchange) rfl hd ?_, fun h0 h1 =>
      does_says (f := fun b => keyExchange b v id.toNat exchange) rfl hd ?_⟩
    · dsimp only
      have hfirst : [0, 1].find? (fun n => (s.blk.session n).isNone) = some 0 := by simp [Blk.session, hnone]
      rw [keyExchange, spdmReq_of_open h, if_neg (by simp [hout]), if_neg (by simp [hlen]), if_neg (by simp [hal]), hfirst]
      refine ⟨only_of_blk (onlyBlk_of_rest ((rest_with_sec (by decide) ..).trans (rest_with_fresh (by decide) ..))), ?_, rfl⟩
      show s.blk.sec.sessions ++ _ = _
      rw [hnone]
      simp
    · have hfull : [0, 1].find? (fun n => (s.blk.session n).isNone) = none := by
        obtain ⟨x, hx⟩ := Option.isSome_iff_exists.mp h0
        obtain ⟨y, hy⟩ := Option.isSome_iff_exists.mp h1
        simp [List.find?, hx, hy]
      rw [keyExchange, spdmReq_of_open h, if_neg (by simp [hout]), if_neg (by simp [hlen]), if_neg (by simp [hal]), hfull]
      rfl
  · intro s v k x verify hup hv hx hopen
    refine does_of_live (f := fun b => finishReq b v verify) rfl (up_of_spdm hup) ?_
    have hgo : finishReq s.blk v verify = if Config.finishOk s.blk.fresh verify then
        (s.blk.draw.2.modSession k (fun y => { y with finished := true })).spdmSend v (.finish x.id)
      else (s.blk.draw.2.dropSession k).spdmError v 0x06 := by
      unfold finishReq
      simp only [hup, hv, hx, hopen, Bool.not_true, Bool.false_eq_true, if_false]
      rfl
    dsimp only
    rw [hgo]
    split
    · exact ⟨only_of_blk (onlyBlk_of_rest ((rest_with_sec (by decide) ..).trans (rest_with_fresh (by decide) ..))),
        session_modSession (b := s.blk.draw.2) hx fun _ => rfl, rfl⟩
    · exact ⟨only_of_blk (onlyBlk_of_rest ((rest_with_sec (by decide) ..).trans (rest_with_fresh (by decide) ..))),
        session_dropSession s.blk.draw.2 k, rfl⟩
  · intro s v k x h hv hx
    have hd := up_of_spdm h.up
    have hin := spdmIn_of_open h hv hx
    refine ⟨does_says (f := fun b => spdmHeartbeat b v) rfl hd (hin _), fun op hop => does_of_live (f := fun b => keyUpdate b v op) rfl hd ?_,
      does_of_live (f := fun b => endSession b v) rfl hd ?_, fun n key => does_of_live (f := fun b => vendorDefined b v (.keyProg n key)) rfl hd ?_,
      fun n hkey => does_of_live (f := fun b => vendorDefined b v (.kSetGo n)) rfl hd ?_,
      fun n => does_of_live (f := fun b => vendorDefined b v (.kSetStop n)) rfl hd ?_⟩
    · dsimp only
      rw [keyUpdate, hin, if_pos (by simpa using hop)]
      exact ⟨only_sec (rest_with_sec (by decide) ..), rfl, session_modSession hx fun _ => rfl⟩
    · dsimp only
      rw [endSession, hin]
      exact ⟨only_sec (rest_with_sec (by decide) ..), rfl, session_dropSession s.blk k⟩
    · dsimp only
      rw [vendorDefined, hin]
      exact ⟨only_sec (rest_with_sec (by decide) ..), mget_mput_self .., rfl⟩
    · dsimp only
      rw [vendorDefined, hin]
      dsimp only
      rw [if_pos hkey]
      obtain ⟨y, hy⟩ : ∃ y, y = ({ s.blk with sec.ideActive := with1 s.blk.sec.ideActive n.val } : Blk).spdmSend v (.ideKm (.kSetGo n) 5) := ⟨_, rfl⟩
      have hact : n.val ∈ y.sec.ideActive := by
        rw [hy]
        exact mem_with1_self ..
      have hide (o : PcieOut) : y.pcieRelease.ideOk o.func = y.ideOk o.func := rfl
      rw [← hy]
      refine ⟨only_of_blk (onlyBlk_of_rest ((rest_with_hub (b := y) (by decide) _).trans ?_)), hact, fun hn => ?_, ?_, ?_, ?_⟩
      · rw [hy]
        exact rest_with_sec (by decide) ..
      · have hall (f : Nat) : y.ideOk f = true := by
          have h0 : (0 : Nat) ∈ y.sec.ideActive := by simpa [hn] using hact
          simp [Blk.ideOk, Blk.streamUp, h0]
        show y.hub.held.filter (fun o => !y.ideOk o.func) = []
        simp [hall]
      · simp only [hide]
        rw [hy]
        rfl
      · simp only [hide]
        rw [hy]
        rfl
      · show y.sec.spdmOut = _
        rw [hy]
        rfl
    · dsimp only
      rw [vendorDefined, hin]
      refine ⟨only_sec (rest_with_sec (by decide) ..), ?_, mget_mdel_self .., rfl⟩
      show n.val ∉ without s.blk.sec.ideActive n.val
      simp [without]
  · intro s v q code h
    have hd := up_of_spdm h.up
    refine ⟨does_says (f := fun b => unsupportedRequest b v) rfl hd (if_pos h.up), fun hout =>
      does_says (f := fun b => vendorDefined b v q) rfl hd ?_⟩
    rw [vendorDefined, Blk.spdmIn, spdmReq_of_open h, hout]
    rfl
  · intro s v hres hin
    have hlost : s.blk.spdmLost v = s.blk := by rw [Blk.spdmLost, if_pos (by simp [hin])]
    have hup : s.blk.spdmUp = false := by simp [Blk.spdmUp, hres]
    refine ⟨stays_of_live (f := fun b => getVersion b v) rfl fun _ => ?_, stays_of_live (f := fun b => getDigests b v) rfl fun _ => ?_⟩
    · rw [getVersion, Blk.spdmStep, if_pos (by simp [hup]), hlost]
    · rw [getDigests, Blk.spdmReq, if_pos (by simp [hup]), hlost]
  · intro s k hd hin
    have hup : s.blk.spdmUp = false := by simp [Blk.spdmUp, hin]
    obtain ⟨hbit, -, -⟩ := ideDrop_spec s.blk
    refine ⟨does_of_live (f := fun b => getVersion b ⟨true, k⟩) rfl hd ?_, does_of_live (f := fun b => getVersion b ⟨false, k⟩) rfl hd ?_⟩
    · dsimp only
      rw [getVersion, Blk.spdmStep, if_pos (by simp [hup]), Blk.spdmLost, if_neg (by simp [hd, hin]), if_pos rfl]
      exact ⟨only_of_blk (onlyBlk_of_rest (rest_ideDrop (by decide) ..)), hbit⟩
    · dsimp only
      rw [getVersion, Blk.spdmStep, if_pos (by simp [hup]), Blk.spdmLost, if_neg (by simp [hd, hin]), if_neg (by simp)]
      have hreg : (s.blk.ideDropUr 0 (.cfgUr 0)).reg Reg.secErr = s.blk.ideDrop.reg Reg.secErr :=
        reg_congr (regs_of_rest (L := [.hub]) ((rest_pcie (by decide) ..).trans (rest_aerSet (by decide) ..)) (by decide)) _
      have haer : (s.blk.ideDropUr 0 (.cfgUr 0)).hub.aer = (s.blk.ideDrop.aerSet 0 20).hub.aer := by
        unfold Blk.ideDropUr Blk.pcie
        split <;> rfl
      refine ⟨only_of_blk (onlyBlk_of_rest (rest_ideDropUr (by decide) (by decide) ..)), ?_, ?_⟩
      · rw [hreg]
        exact hbit
      · rw [haer]
        exact bit_aerSet s.blk.ideDrop 0 20

end Sys2Proof.Proofs
end

/-! ## The fabric: die-to-die links, routers, injection and ejection (R32 to R36, R246 to R258) -/
section
namespace Sys2Proof.Proofs

open Sys2Proof.Machine

/-! ### Die-to-die links (R32) -/

@[simp] theorem d2d_modD2d_self (b : Blk) (x y : Nat) (f : D2d → D2d) : (b.modD2d x y f).d2d x y = f (b.d2d x y) :=
  tget_tmod_self (fun _ => ({} : D2d)) ..

theorem d2d_arrive (b : Blk) (x y : Nat) (w : Worm) : (b.arrive x y w).fab.d2d = b.fab.d2d := by
  unfold Blk.arrive
  split <;> rfl

theorem arr_arrive (b : Blk) {x y : Nat} (w : Worm) (h : y ≠ 4) : (b.arrive x y w).fab.arr = b.fab.arr ++ [⟨y, x, w⟩] := by
  rw [Blk.arrive, if_neg h]

theorem ejq_arrive (b : Blk) {x y : Nat} (w : Worm) (h : y = 4) : (b.arrive x y w).fab.ejq = b.fab.ejq ++ [⟨4, w.hdr, w.payload⟩] := by
  rw [Blk.arrive, if_pos h]

/-- A unit with a good CRC on a working link is accepted, and reaches the fabric only. -/
theorem d2dUnitReceive_accepts {b : Blk} {x y n : Nat} (hok : b.d2dOk x y = true) :
    rest [.fab] (d2dUnitReceive b x y n true) = rest [.fab] b ∧ n ∈ ((d2dUnitReceive b x y n true).d2d x y).accepted := by
  have hacc : n ∈ ((b.modD2d x y (fun d => d.accept n)).d2d x y).accepted := by simp [D2d.accept]
  unfold d2dUnitReceive
  simp only [hok, Bool.true_or, Bool.not_true, Bool.false_or]
  split
  · next hin => exact ⟨rfl, by simpa using hin⟩
  · split
    · exact ⟨rest_modD2d (by decide) .., hacc⟩
    · split
      · exact ⟨rest_modD2d (by decide) .., hacc⟩
      · split
        · exact ⟨rest_modD2d (by decide) .., hacc⟩
        · next w _ =>
          refine ⟨(rest_arrive (by decide) ..).trans ((rest_modD2d (by decide) ..).trans (rest_modD2d (by decide) ..)), ?_⟩
          rw [Blk.d2d, d2d_arrive]
          refine (congrArg (n ∈ D2d.accepted ·) (d2d_modD2d_self ..)).mpr ?_
          exact hacc

/-- The last unit of a worm brings it to its die. -/
theorem d2dUnitReceive_last {b : Blk} {x y n : Nat} {u : D2dUnit} {w : Worm} (hok : b.d2dOk x y = true) (hbuf : (b.d2d x y).buf = [u])
    (hseq : u.seq = n) (hnew : n ∉ (b.d2d x y).accepted) (hw : mget (b.d2d x y).worms u.worm = some w) :
    d2dUnitReceive b x y n true =
      ((b.modD2d x y (fun d => d.accept n)).modD2d x y (fun d => { d with worms := mdel d.worms u.worm })).arrive x y w := by
  have hleft : ((b.modD2d x y (fun d => d.accept n)).d2d x y).buf = [] := by simp [D2d.accept, hbuf, hseq]
  have hfind : (b.d2d x y).buf.find? (fun u => u.seq == n) = some u := by simp [hbuf, hseq]
  unfold d2dUnitReceive
  simp only [hfind, hok, hleft, hw]
  simp [hnew]

theorem buf_last {b : Blk} {x y n : Nat} {u : D2dUnit} {w : Worm} (hbuf : (b.d2d x y).buf = [u]) (hseq : u.seq = n) :
    ((((b.modD2d x y (fun d => d.accept n)).modD2d x y (fun d => { d with worms := mdel d.worms u.worm })).arrive x y w).d2d x y).buf =
      [] := by
  rw [Blk.d2d, d2d_arrive]
  exact (congrArg D2d.buf (d2d_modD2d_self ..)).trans (by simp [D2d.accept, hbuf, hseq])

theorem fab_d2dFlag (b : Blk) (q peer lo : Nat) : (b.d2dFlag q peer lo).fab = b.fab := by
  unfold Blk.d2dFlag
  split <;> rfl

/-- The block with a unit's retries counted. -/
def d2dTried (b : Blk) (x y n k : Nat) : Blk := b.modD2d x y (fun d => { d with tries := tset (fun _ => 0) d.tries n k })

/-- A retry before the 8th failure is counted, and the retry buffer keeps the unit (R32). -/
theorem d2dRetryRequest_counts {b : Blk} {x y n : Nat} (hok : b.d2dOk x y = true) (hk : tget (fun _ => 0) (b.d2d x y).tries n < 7) :
    rest [.fab, .regs, .aon] (d2dRetryRequest b x y n) = rest [.fab, .regs, .aon] b ∧
      (d2dRetryRequest b x y n).fab = (d2dTried b x y n (tget (fun _ => 0) (b.d2d x y).tries n + 1)).fab := by
  unfold d2dRetryRequest
  rw [if_neg (by simp [hok])]
  dsimp only
  rw [if_pos (by omega)]
  split
  · exact ⟨(rest_d2dFlag (by decide) ..).trans ((rest_incr (by decide) ..).trans ((rest_aonAdd (by decide) ..).trans (rest_modD2d (by decide) ..))),
      fab_d2dFlag ..⟩
  · exact ⟨(rest_d2dFlag (by decide) ..).trans ((rest_aonAdd (by decide) ..).trans (rest_modD2d (by decide) ..)), fab_d2dFlag ..⟩

/-- The block with a die-to-die link failed and flagged on both its ends (R33). -/
def d2dGone (b : Blk) (x y : Nat) : Blk :=
  (({ b with fab.d2dFailed := b.fab.d2dFailed ++ [d2dName x y] } : Blk).d2dFlag x y 8).d2dFlag y x 8

theorem fab_d2dGone (b : Blk) (x y : Nat) : (d2dGone b x y).fab = { b.fab with d2dFailed := b.fab.d2dFailed ++ [d2dName x y] } := by
  rw [d2dGone, fab_d2dFlag, fab_d2dFlag]

theorem dead_d2dGone (b : Blk) (x y : Nat) : (d2dGone b x y).dead = b.dead :=
  dead_of_rest (L := [.fab, .regs]) ((rest_d2dFlag (by decide) ..).trans ((rest_d2dFlag (by decide) ..).trans (rest_with_fab (by decide) ..)))
    (by decide)

/-- The 8th failure in a row fails the link, and the device where a quadrant is lost (R33, R35). -/
theorem d2dRetryRequest_fails {b : Blk} {x y n : Nat} (hok : b.d2dOk x y = true) (hk : 7 ≤ tget (fun _ => 0) (b.d2d x y).tries n) :
    d2dRetryRequest b x y n = if (d2dGone b x y).d2dLost then (d2dGone b x y).loseDevice else d2dGone b x y := by
  unfold d2dRetryRequest
  rw [if_neg (by simp [hok])]
  dsimp only
  rw [if_neg (by omega)]
  rfl

/-! ### Worm heads (R247, R248, R250) -/

theorem toNat_hopOn_shift (h : BitVec 256) : (hopOn h).toNat >>> 80 = h.toNat >>> 80 := by
  have hlt := h.isLt
  simp only [hopOn, hdrHops, hfld, fld, BitVec.toNat_ofNat, Nat.shiftRight_eq_div_pow]
  omega

theorem hdrFlits_hopOn (h : BitVec 256) : hdrFlits (hopOn h) = hdrFlits h := by
  simp only [hdrFlits, hdrLen, fld, toNat_hopOn_shift]

/-- A head that no older one waits beside is routed at once. -/
theorem wormHeadRoute_first {b : Blk} {q : Quad} {src : Quad} {p : Packet} (hup : b.dead = false)
    (hold : ∀ e ∈ b.heads q, headKey p.hdr (12 + src.val) ≤ e.1) : wormHeadRoute b q (.d2d src p) = b.routeWorm q src p := by
  have hnone : (b.heads q).filter (fun e => decide (e.1 < headKey p.hdr (12 + src.val))) = [] := by
    rw [List.filter_eq_nil_iff]
    intro e he
    have := hold e he
    simp only [decide_eq_true_eq]
    omega
  rw [wormHeadRoute, if_neg (by simp [hup])]
  simp only [Blk.keyOf, inputIndex, Blk.routeOlder, hnone]
  rfl

/-- The worm that a router routes has the header that the command names, and its place at the input is all that it leaves. -/
theorem routeWorm_takes (b : Blk) (q src : Nat) (k : Packet) : ∃ (arr : List Arrived) (w : Worm), w.hdr = k.hdr ∧
    b.routeWorm q src k = (({ b with fab.arr := arr } : Blk).routeHead q k.hdr w.part (hdrFlits k.hdr + 1)).1.putWorm q
      (({ b with fab.arr := arr } : Blk).routeHead q k.hdr w.part (hdrFlits k.hdr + 1)).2.1
      { w with hdr := (({ b with fab.arr := arr } : Blk).routeHead q k.hdr w.part (hdrFlits k.hdr + 1)).2.2 } := by
  unfold Blk.routeWorm
  cases he : b.fab.arr.find? (fun a => a.quad == q && a.src == src && a.worm.hdr == k.hdr && a.worm.payload == k.payload) with
  | none => exact ⟨b.fab.arr, { hdr := k.hdr, payload := k.payload }, rfl, rfl⟩
  | some a =>
    have hh : a.worm.hdr = k.hdr := by
      have := List.find?_some he
      simp only [Bool.and_eq_true, beq_iff_eq] at this
      exact this.1.2
    refine ⟨b.fab.arr.erase a, a.worm, hh, ?_⟩
    rw [← hh]
    rfl

theorem reg_flag_ne (b : Blk) {off o : Nat} (i : Nat) (h : o ≠ off) : (b.flag off i).reg o = b.reg o := Blk.reg_setReg_ne b off o _ h

theorem dropHop_ne_rtErr (q : Quad) : Reg.nrmDropHopCnt q ≠ Reg.nrmRtErr q := by
  simp only [Reg.nrmDropHopCnt, Reg.nrmRtErr]
  omega

/-- A head past the hop limit is discarded (R250). -/
theorem routeHead_of_hops {b : Blk} {q : Nat} {h : BitVec 256} (part flits : Nat) (hh : b.field Reg.nrmHopCfg 0 6 ≤ hdrHops h) :
    b.routeHead q h part flits = (((b.incr (Reg.nrmDropHopCnt q)).flag (Reg.nrmRtErr q) 0).aonAdd 211 1, .drop, h) := by
  rw [Blk.routeHead, if_pos hh]

/-- A head whose one port is free leaves there (R247). -/
theorem routeHead_of_free {b : Blk} {q n part flits : Nat} {h : BitVec 256} (hh : hdrHops h < b.field Reg.nrmHopCfg 0 6)
    (hself : hfld h 31 16 ≠ (b.view (.router (Fin.ofNat 4 q))).self) (hport : b.sprayUp q (hfld h 31 16) = some [n]) (hq : n / 12 = q)
    (hfree : b.portFree n part flits = true) : b.routeHead q h part flits = (b, .ext n, hopOn h) := by
  rw [Blk.routeHead, if_neg (by omega)]
  dsimp only
  rw [if_neg (fun hc => hself (of_decide_eq_true (Bool.and_eq_true_iff.mp hc).2)), hport]
  simp [spread, Nat.mod_one, hq, hfree]

/-! ### What a port sends (R273) -/

/-- The flits that a whole worm puts into the replay buffer of a port. -/
def wormFlits (h : BitVec 256) (payload : Bytes) (req : Option (Nat × Nat)) : List TxFlit :=
  ⟨0x1, fit 32 (toLe 32 h.toNat), req⟩ :: (List.range (hdrFlits h)).map (fun i => ⟨0x2, fit 32 (sl payload (32 * i) 32), req⟩)

theorem link_putFlits (f : Nat → Bytes) (req : Option (Nat × Nat)) (n : Nat) (is : List Nat) (b : Blk) :
    let y := is.foldl (fun b i => b.putFlit n 0x2 (f i) req) b
    (y.link n).held = (b.link n).held ++ is.map (fun i => ⟨0x2, fit 32 (f i), req⟩) ∧ (y.link n).asked = (b.link n).asked := by
  induction is generalizing b with
  | nil => simp
  | cons i is ih =>
    obtain ⟨hheld, hask⟩ := ih (b.putFlit n 0x2 (f i) req)
    refine ⟨hheld.trans ?_, hask.trans ?_⟩
    · simp [Link.sent, Link.kept]
    · simp [Link.sent, Link.kept]

/-- A whole worm sent on a port that does not close: its flits are held until they are acknowledged. -/
theorem held_sendWorm {b : Blk} {n : Nat} (hask : (b.link n).asked = false) (h : BitVec 256) (payload : Bytes) (part : Nat)
    (req : Option (Nat × Nat)) : ((b.sendWorm n h payload part req).link n).held = (b.link n).held ++ wormFlits h payload req := by
  obtain ⟨hheld, hasked⟩ := link_putFlits (fun i => sl payload (32 * i) 32) req n (List.range (hdrFlits h))
    (b.putFlit n 0x1 (toLe 32 h.toNat) req)
  rw [Blk.sendWorm, closeStep_of_not_asked]
  · rw [Blk.countTx, link_event, link_incr, hheld]
    simp [wormFlits, Link.sent, Link.kept]
  · rw [Blk.countTx, link_event, link_incr, hasked]
    simpa [Link.sent, Link.kept] using hask

theorem not_asked_of_free {b : Blk} {n part flits : Nat} (h : b.portFree n part flits = true) : (b.link n).asked = false := by
  simp only [Blk.portFree, Bool.and_eq_true, Bool.not_eq_true'] at h
  exact h.1.1.1.2

/-! ### Injection (R289, R290) -/

/-- A message that no shaper holds is noted as not waiting: the injection queue stays. -/
theorem noteWaits_unshaped {b : Blk} {q : Nat} {m : Msg} (hinj : tget (fun _ => []) b.fab.inj q = [m])
    (hsh : b.shaper m.dst (tcOf m.ty) = none) :
    b.noteWaits q = { b with fab.inj := tset (fun _ => []) b.fab.inj q [m] } := by
  have hopen : b.shaperOpen m = true := by simp [Blk.shaperOpen, Blk.shaperLevel, hsh]
  have heval : (if m.shaped then b.evalShaper m.dst (tcOf m.ty) else b) = b := by simp [Blk.evalShaper, hsh]
  simp [Blk.noteWaits, hinj, heval, hopen]

/-- The first message of a queue that no shaper, gate or worm holds enters on its port. -/
theorem injectPick_port {b : Blk} {q n : Nat} {m : Msg} (hsh : b.shaper m.dst (tcOf m.ty) = none) (hout : b.injectOut q m = .port n) :
    b.injectPick q [] [m] = some (m, .port n) := by
  have hopen : b.shaperOpen m = true := by simp [Blk.shaperOpen, Blk.shaperLevel, hsh]
  rw [Blk.injectPick, if_neg (by simp), if_neg (by simp [hopen]), hout]

theorem portFree_of_injectOut {b : Blk} {q n : Nat} {m : Msg} (hout : b.injectOut q m = .port n) :
    ∃ part flits, b.portFree n part flits = true := by
  unfold Blk.injectOut at hout
  split at hout
  · cases hout
  · cases hout
  · dsimp only at hout
    split at hout
    · split at hout
      · next hfree =>
        cases hout
        exact ⟨_, _, hfree⟩
      · cases hout
    · split at hout
      · split at hout <;> cases hout
      · cases hout

theorem inj_modLink (b : Blk) (n : Nat) (f : Link → Link) : (b.modLink n f).fab.inj = b.fab.inj := rfl

theorem inj_putFlit (b : Blk) (n ty : Nat) (payload : Bytes) (req : Option (Nat × Nat)) : (b.putFlit n ty payload req).fab.inj = b.fab.inj := by
  unfold Blk.putFlit Blk.keepFlit
  dsimp only
  split <;> rfl

theorem inj_sendWorm {b : Blk} {n : Nat} (hask : (b.link n).asked = false) (h : BitVec 256) (payload : Bytes) (part : Nat)
    (req : Option (Nat × Nat)) : (b.sendWorm n h payload part req).fab.inj = b.fab.inj := by
  obtain ⟨-, hasked⟩ := link_putFlits (fun i => sl payload (32 * i) 32) req n (List.range (hdrFlits h))
    (b.putFlit n 0x1 (toLe 32 h.toNat) req)
  rw [Blk.sendWorm, closeStep_of_not_asked]
  · rw [Blk.countTx, fab_event]
    exact (keeps_foldl (fun b => b.fab.inj) (fun x i => inj_putFlit ..) _ _).trans (inj_putFlit ..)
  · rw [Blk.countTx, link_event, link_incr, hasked]
    simpa [Link.sent, Link.kept] using hask

/-- A message of one packet that may leave on a port of its quadrant does so, and leaves its queue. -/
theorem packetInject_port {b : Blk} {q : Quad} {m : Msg} {n : Nat} (hup : b.dead = false) (hinj : tget (fun _ => []) b.fab.inj q = [m])
    (hty : m.ty ≠ 0x06) (hpsn : m.psn = 0) (hsh : b.shaper m.dst (tcOf m.ty) = none) (hout : b.injectOut q m = .port n)
    (hheads : b.heads q = []) : tget (fun _ => []) (packetInject b q).fab.inj q = [] ∧
      (b.link n).held.length < ((packetInject b q).link n).held.length := by
  obtain ⟨part, flits, hfree⟩ := portFree_of_injectOut hout
  obtain ⟨b0, hb0⟩ : ∃ x, x = ({ b with fab.inj := tset (fun _ => []) b.fab.inj q [m] } : Blk) := ⟨_, rfl⟩
  obtain ⟨b1, hb1⟩ : ∃ x, x = ({ b0 with fab.inj := tset (fun _ => []) b0.fab.inj q [] } : Blk) := ⟨_, rfl⟩
  have hgo : ∃ rec h pl req, packetInject b q = (b1.trace rec).sendWorm n h pl m.part req := by
    have hnote : (b.routeOlder q 2048).noteWaits q = b0 := by
      rw [Blk.routeOlder, hheads, hb0]
      exact noteWaits_unshaped hinj hsh
    have hms : tget (fun _ => []) b0.fab.inj q = [m] := by
      rw [hb0]
      simp only [tget_tset_self]
    have hpick : b0.injectPick q [] [m] = some (m, .port n) := by
      rw [hb0]
      exact injectPick_port hsh hout
    have hcharge (x : Blk) (hx : x.traf = b.traf) (lens : List Nat) :
        (if m.shaped then x.chargeShaper m.dst (tcOf m.ty) lens else x) = x := by
      have : x.shaper m.dst (tcOf m.ty) = none := by rw [← hsh, Blk.shaper, Blk.shaper, hx]
      simp [Blk.chargeShaper, this]
    unfold packetInject
    rw [if_neg (by simp [hup])]
    have hleft : [m].filter (· != m) = [] := by simp
    have hone : ¬ 0 + 1 < 1 := by omega
    simp only [hnote, hms, hpick, hpsn, Msg.packets, if_neg hty, hone, if_false, if_true, hleft, ← hb1]
    rw [hcharge]
    · exact ⟨_, _, _, _, rfl⟩
    · rw [traf_of_rest (rest_trace (L := quietRegions) (by decide) (by decide) (by decide) (by decide) (by decide) (by decide) (by decide) ..)
        (by decide), hb1, hb0]
  obtain ⟨rec, h, pl, req, hgo⟩ := hgo
  have hlink : (b1.trace rec).link n = b.link n := by
    rw [link_trace, hb1, hb0]
    rfl
  have hask : ((b1.trace rec).link n).asked = false := by
    rw [hlink]
    exact not_asked_of_free hfree
  rw [hgo]
  refine ⟨?_, ?_⟩
  · rw [inj_sendWorm hask, fab_trace, hb1]
    simp only [tget_tset_self]
  · rw [held_sendWorm hask, hlink]
    simp [wormFlits]

/-! ### Ejection (R252, R254) -/

/-- The block after a packet has left its ejection queue and has been counted. -/
def ejected (b : Blk) (q : Nat) (p : Packet) : Blk := (b.takeEjected q p).event (60 + q) 2 (some (b.hostPart (hfld p.hdr 47 32)))

theorem takeEjected_only (b : Blk) (q : Nat) (p : Packet) : ∃ ejq, b.takeEjected q p = { b with fab.ejq := ejq } := by
  unfold Blk.takeEjected
  split
  · exact ⟨_, rfl⟩
  · exact ⟨b.fab.ejq, rfl⟩

theorem rest_ejected (b : Blk) (q : Nat) (p : Packet) : rest [.fab, .pcs] (ejected b q p) = rest [.fab, .pcs] b := by
  obtain ⟨ejq, hq⟩ := takeEjected_only b q p
  rw [ejected, hq]
  exact (rest_event (by decide) ..).trans (rest_with_fab (by decide) ..)

theorem fab_ejected (b : Blk) (q : Nat) (p : Packet) : (ejected b q p).fab.links = b.fab.links ∧ (ejected b q p).fab.ctxs = b.fab.ctxs := by
  obtain ⟨ejq, hq⟩ := takeEjected_only b q p
  rw [ejected, fab_event, hq]
  exact ⟨rfl, rfl⟩

theorem packetOk_congr {x y : Blk} (h : x.str = y.str) (hd : BitVec 256) : x.packetOk hd = y.packetOk hd := by
  simp only [Blk.packetOk, Blk.isPeer, Blk.pairSource, h]

/-- A packet that passes the checks of ejection is handed to what its message is for (R252). -/
theorem packetEject_of_in {b : Blk} {q : Nat} {p : Packet} {ty : Nat} (h : PacketIn b q p ty) (hext : [0xD2, 0xD3, 0xD4].contains ty = false) :
    packetEject b q p = if ty = 0xC6 then (ejected b q p).bulkPacket q p.hdr (fit (hfld p.hdr 88 80) p.payload)
      else (ejected b q p).handOver q p.hdr (fit (hfld p.hdr 88 80) p.payload) := by
  have hstr := str_of_rest (rest_ejected b q p) (by decide)
  have hok : (ejected b q p).packetOk p.hdr = true := by
    rw [packetOk_congr (y := b.event (60 + q) 2 (some (b.hostPart (hfld p.hdr 47 32)))), h.formed]
    rw [hstr, str_of_rest (rest_event (L := [.pcs]) (by decide) ..) (by decide)]
  obtain ⟨ejq, hq⟩ := takeEjected_only b q p
  have hev : (b.takeEjected q p).event (60 + q) 2 (some ((b.takeEjected q p).hostPart (hfld p.hdr 47 32))) = ejected b q p := by
    rw [ejected, hq]
    rfl
  have hload : (b.takeEjected q p).str.loaded = true := by
    rw [hq]
    exact h.loaded
  have hsrc : (ejected b q p).lostSource q p.hdr = false := by rw [Blk.lostSource, h.type, hext, Bool.false_and]
  unfold packetEject
  rw [if_neg (by simp [h.up])]
  simp only [hev, hload, hok, hsrc, h.type, h.crc]
  simp

theorem up_ejected {b : Blk} {q : Nat} {p : Packet} (h : b.dead = false) : (ejected b q p).dead = false :=
  (dead_of_rest (rest_ejected b q p) (by decide)).trans h

/-- The requests and responses of one packet that carry neither data nor a number besides ARG (R240 to R243). -/
def plainMessages (h : BitVec 256) : List (Nat × Instr) :=
  let a : Addr := BitVec.ofNat 48 ((hdrArg h).toNat % 2 ^ 48)
  let id : BitVec 16 := BitVec.ofNat 16 (fld (hdrArg h).toNat 63 48)
  let r := hdrReq h false
  [(0xC0, .rds r a), (0xC1, .rdx r a), (0xC2, .rdonce r a), (0x41, .rspi r a id), (0x42, .rsps r a id), (0x43, .rspcur r a id),
    (0x44, .rspwbpend r a id), (0x45, .cmpack r a id), (0xD0, .lease r (bit (hdrArg h).toNat 0)), (0xD6, .agentRegister r)]

/-- What takes a plain message is the operation of its command. -/
theorem handOver_plain {h : BitVec 256} {i : Instr} (hi : (hfld h 15 8, i) ∈ plainMessages h) (q : Nat) (pl : Bytes) (s : State)
    (hup : s.blk.dead = false) : exec i s = .next { s with blk := s.blk.handOver q h pl } := by
  have ha : (BitVec.ofNat 48 ((hdrArg h).toNat % 2 ^ 48)).toNat = (hdrArg h).toNat % 2 ^ 48 := by simp
  have hid : (BitVec.ofNat 16 (fld (hdrArg h).toNat 63 48)).toNat = fld (hdrArg h).toNat 63 48 := by simp [fld]
  simp only [plainMessages, List.mem_cons, Prod.mk.injEq, List.not_mem_nil, or_false] at hi
  generalize hr : hdrReq h false = r at *
  generalize hadr : BitVec.ofNat 48 ((hdrArg h).toNat % 2 ^ 48) = a at *
  generalize hnum : BitVec.ofNat 16 (fld (hdrArg h).toNat 63 48) = id at *
  rcases hi with ⟨hty, rfl⟩ | ⟨hty, rfl⟩ | ⟨hty, rfl⟩ | ⟨hty, rfl⟩ | ⟨hty, rfl⟩ | ⟨hty, rfl⟩ | ⟨hty, rfl⟩ | ⟨hty, rfl⟩ | ⟨hty, rfl⟩ | ⟨hty, rfl⟩
  · refine gives_of_live (f := fun b => reqRead b 0xC0 .rds .rds r a.toNat) rfl hup ?_
    simp only [Blk.handOver, hty, ha, hr]
    rfl
  · refine gives_of_live (f := fun b => reqRead b 0xC1 .rdx .rdx r a.toNat) rfl hup ?_
    simp only [Blk.handOver, hty, ha, hr]
    rfl
  · refine gives_of_live (f := fun b => reqRead b 0xC2 .rdonce .read r a.toNat) rfl hup ?_
    simp only [Blk.handOver, hty, ha, hr]
    rfl
  · refine gives_of_live (f := fun b => snoopResponse b r a.toNat id.toNat .i) rfl hup ?_
    simp only [Blk.handOver, hty, ha, hid, hr]
    rfl
  · refine gives_of_live (f := fun b => snoopResponse b r a.toNat id.toNat .s) rfl hup ?_
    simp only [Blk.handOver, hty, ha, hid, hr]
    rfl
  · refine gives_of_live (f := fun b => snoopResponse b r a.toNat id.toNat .cur) rfl hup ?_
    simp only [Blk.handOver, hty, ha, hid, hr]
    rfl
  · refine gives_of_live (f := fun b => snoopResponse b r a.toNat id.toNat .wbPend) rfl hup ?_
    simp only [Blk.handOver, hty, ha, hid, hr]
    rfl
  · refine gives_of_live (f := fun b => reqCmpAck b r a.toNat id.toNat) rfl hup ?_
    simp only [Blk.handOver, hty, ha, hid, hr]
    rfl
  · refine gives_of_live (f := fun b => leaseMsg b r (bit (hdrArg h).toNat 0)) rfl hup ?_
    simp only [Blk.handOver, hty, hr]
    rfl
  · refine gives_of_live (f := fun b => agentRegisterMsg b r) rfl hup ?_
    simp only [Blk.handOver, hty, hr]
    rfl

/-- A plain message that passes the checks of ejection does what its command does. -/
theorem packetEject_plain {s : State} {q : Quad} {p : Packet} {ty : Nat} {i : Instr} (h : PacketIn s.blk q p ty)
    (hi : (ty, i) ∈ plainMessages p.hdr) : exec (.packetEject q p) s = exec i { s with blk := ejected s.blk q p } := by
  have hty : ty ∈ [0xC0, 0xC1, 0xC2, 0x41, 0x42, 0x43, 0x44, 0x45, 0xD0, 0xD6] := List.mem_map_of_mem (f := Prod.fst) hi
  have hall : ∀ t ∈ [0xC0, 0xC1, 0xC2, 0x41, 0x42, 0x43, 0x44, 0x45, 0xD0, 0xD6], t ≠ 0xC6 ∧ [0xD2, 0xD3, 0xD4].contains t = false := by
    decide
  obtain ⟨hbulk, hext⟩ := hall ty hty
  have hgo := packetEject_of_in h hext
  rw [if_neg hbulk] at hgo
  obtain ⟨y, hy⟩ : ∃ y, y = ejected s.blk q p := ⟨_, rfl⟩
  have hup : y.dead = false := by
    rw [hy]
    exact up_ejected h.up
  rw [← hy] at hgo ⊢
  have hrun := handOver_plain (h := p.hdr) (by rwa [h.type]) q (fit (hfld p.hdr 88 80) p.payload) { s with blk := y } hup
  have heject : Gives (.packetEject q p) s (y.handOver q p.hdr (fit (hfld p.hdr 88 80) p.payload)) :=
    gives_of_live (f := fun b => packetEject b q p) rfl h.up hgo
  exact heject.trans hrun.symm

/-- An RdOnce of a free line that passes the checks of ejection is answered with the line. -/
theorem packetEject_rdonce {s : State} {q : Quad} {p : Packet} {b : Blk} {r : Req} {a : Addr} {c : Checked} (h : PacketIn s.blk q p 0xC2)
    (hi : (0xC2, .rdonce r a) ∈ plainMessages p.hdr) (hreq : ReqIn (ejected s.blk q p) b r a 0xC2 [0] .read c)
    (ha : a.toNat % 128 = 0) (hfree : LineFree b (lineOf a.toNat)) :
    Does (.packetEject q p) s (fun t => Sends t (homeOf (lineOf a.toNat)) 0x02 r.src.toNat 0 (b.lineVal (lineOf a.toNat)).1) := by
  have hall := readsOfAFreeLineAreGranted
  unfold Obligations.ReadsOfAFreeLineAreGranted at hall
  obtain ⟨-, -, -, honce, -⟩ := hall
  have hplain := packetEject_plain h hi
  obtain ⟨y, hy⟩ : ∃ y, y = ejected s.blk q p := ⟨_, rfl⟩
  rw [← hy] at hreq hplain
  obtain ⟨t, ht, -, -, hsend⟩ := honce { s with blk := y } b r a c hreq ha hfree
  exact ⟨t, hplain.trans ht, hsend⟩

theorem rdonce_mem_plainMessages (h : BitVec 256) :
    (0xC2, .rdonce (hdrReq h false) (BitVec.ofNat 48 ((hdrArg h).toNat % 2 ^ 48))) ∈ plainMessages h :=
  List.mem_cons_of_mem _ (List.mem_cons_of_mem _ List.mem_cons_self)

/-- A reorder context as the first packet of its message opens it. -/
def openedCtx (b : Blk) (q : Nat) (h : BitVec 256) (e : Nat × Bytes × List Bool × Bool) : Ctx :=
  { home := q, src := hfld h 47 32, msgId := hfld h 63 48, ty := hfld h 15 8, dst := hfld h 31 16, arg := hdrArg h,
    traceId := hfld h 111 96, openedAt := b.tb, timeoutUs := b.field Reg.nrmReorderCfg 0 14, expected := none, got := [(0, e)] }

/-- The first packet of a WrBulk opens its reorder context (R252). -/
theorem bulkPacket_opens {b : Blk} {q : Nat} {h : BitVec 256} (pl : Bytes) (hctx : b.fab.ctxs = []) (hpsn : hfld h 71 64 = 0)
    (hlast : hfld h 6 6 = 0) :
    ∃ e, b.bulkPacket q h pl = ({ b with fab.ctxs := [openedCtx b q h e] } : Blk).event (60 + q) 3 none := by
  refine ⟨(hfld h 88 80, pl, [hfld h 7 7 == 1, hfld h 78 78 == 1], false), ?_⟩
  unfold Blk.bulkPacket
  simp only [hctx, hpsn, hlast]
  rfl

theorem packetEject_opens {b : Blk} {q : Nat} {p : Packet} (hin : PacketIn b q p 0xC6) (hctx : b.fab.ctxs = [])
    (hpsn : hfld p.hdr 71 64 = 0) (hlast : hfld p.hdr 6 6 = 0) : ∃ y e, y.tb = b.tb ∧ (packetEject b q p).fab.ctxs = [openedCtx y q p.hdr e] ∧
      (packetEject b q p).pool = b.pool ∧ (packetEject b q p).coh = b.coh := by
  have hgo := packetEject_of_in hin rfl
  have hrest := rest_ejected b q p
  obtain ⟨-, hnone⟩ := fab_ejected b q p
  obtain ⟨y, hy⟩ : ∃ y, y = ejected b q p := ⟨_, rfl⟩
  rw [← hy] at hgo hrest hnone
  obtain ⟨e, he⟩ := bulkPacket_opens (b := y) (q := q) (fit (hfld p.hdr 88 80) p.payload) (hnone.trans hctx) hpsn hlast
  rw [hgo, if_pos rfl, he, fab_event]
  refine ⟨y, e, tb_of_rest hrest (by decide), rfl, ?_, ?_⟩
  · exact (pool_of_rest (L := [.pcs]) (rest_event (by decide) ..) (by decide)).trans (pool_of_rest hrest (by decide))
  · exact (coh_of_rest (L := [.pcs]) (rest_event (by decide) ..) (by decide)).trans (coh_of_rest hrest (by decide))

/-- A packet whose E2E_CRC is wrong is discarded and counted (R254). -/
theorem packetEject_of_crc {b : Blk} {q : Nat} {p : Packet} (hup : b.dead = false) (hload : b.str.loaded = true)
    (hcrc : e2eCrc p.hdr (fit (hfld p.hdr 88 80) p.payload) ≠ hfld p.hdr 255 224) :
    packetEject b q p = (((ejected b q p).incr (Reg.nrmDropCrcCnt q)).flag (Reg.nrmRtErr q) 3).aonAdd 212 1 := by
  obtain ⟨ejq, hq⟩ := takeEjected_only b q p
  unfold packetEject
  rw [if_neg (by simp [hup])]
  dsimp only
  rw [if_neg (by simp [hq, hload]), if_pos hcrc, ejected, hq]
  rfl

/-! ### Time limits (R253, R255, R258) -/

theorem filter_ne_singleton {α : Type} [BEq α] [LawfulBEq α] (a : α) : [a].filter (· != a) = [] := by simp

theorem reorderTimeout_of_one {b : Blk} {q src id : Nat} {c : Ctx} (hctx : b.fab.ctxs = [c]) (hq : c.home = q) (hsrc : c.src = src)
    (hid : c.msgId = id) : reorderTimeout b q src id = if c.openedAt + c.timeoutUs * 1000 ≤ b.tb then
      ((({ b with fab.ctxs := [] } : Blk).incr (Reg.nrmCtxTimeoutCnt q)).flag (Reg.nrmRtErr q) 5).aonAdd 213 1 else b := by
  unfold reorderTimeout
  by_cases hdue : c.openedAt + c.timeoutUs * 1000 ≤ b.tb
  · simp only [hctx, List.find?, hq, hsrc, hid, hdue, beq_self_eq_true, decide_true, Bool.and_self, filter_ne_singleton, if_true]
  · simp only [hctx, List.find?, hdue, decide_false, Bool.and_false, if_false]

theorem requestTimeout_of_one {b : Blk} {dst id : Nat} {r : OutReq} (hreq : b.fab.outReqs = [r]) (hdst : r.dst = dst)
    (hid : r.msgId = id) : requestTimeout b dst id = if r.deadline ≤ b.tb then
      (({ b with fab.outReqs := [], fab.ended := b.fab.ended ++ [(dst, id, 0x61)] } : Blk).incr (Reg.nrmReqTimeoutCnt r.home)).flag
        (Reg.nrmRtErr r.home) 7 else b := by
  unfold requestTimeout
  by_cases hdue : r.deadline ≤ b.tb
  · simp only [hreq, List.find?, hdst, hid, hdue, beq_self_eq_true, decide_true, Bool.and_self, filter_ne_singleton, if_true]
  · simp only [hreq, List.find?, hdue, decide_false, Bool.and_false, if_false]

theorem sends_sendOwn {b : Blk} {q : Nat} (hup : b.dead = false) (m : Msg)
    (hroute : mhas (b.view (.router (Fin.ofNat 4 q))).eids m.dst = true) (s : State) :
    Sends { s with blk := (b.sendOwn q m).2 } q m.ty m.dst m.status m.payload := by
  have hrest : rest [.fab] b.newTrace.2 = rest [.fab] b := rest_newTrace (by decide) b
  refine sends_send (b := b.newTrace.2) ((dead_of_rest hrest (by decide)).trans hup) { m with traceId := b.newTrace.1 } ?_ s
  rw [view_congr (str_of_rest hrest (by decide))]
  exact hroute

/-- A notice that is due is sent, and its drops are counted anew (R258). -/
theorem policedDue_of_due {b : Blk} {src cls : Nat} {p : Policed} (hp : mget b.fab.policed (src * 4 + cls) = some p)
    (hdue : p.lastAt + 100000 ≤ b.tb) (hdrop : p.dropped ≠ 0) : policedDue b src cls =
      { b.sendPoliced p.home src cls p.part p.dropped with
        fab.policed := mput b.fab.policed (src * 4 + cls) { p with lastAt := b.tb, dropped := 0 } } := by
  unfold policedDue
  simp only [hp]
  rw [if_pos (by simp [hdue, hdrop])]

/-- Settles O44: units, worms, packets and messages each move by one equation of their operation; an RdOnce that ejects is the command's own. -/
theorem fabricMovesMessages : Obligations.FabricMovesMessages := by
  unfold Obligations.FabricMovesMessages
  refine ⟨?_, ?_, ?_, ?_, ?_, ?_, ?_, ?_, ?_, ?_, ?_, ?_, ?_, ?_⟩
  · intro s x y n hup hok
    obtain ⟨hrest, hacc⟩ := d2dUnitReceive_accepts (n := n.toNat) hok
    exact does_of_live (f := fun b => d2dUnitReceive b x y n.toNat true) rfl hup ⟨only_of_blk (onlyBlk_of_rest hrest), hacc⟩
  · intro s x y n u w hup hok hbuf hseq hnew hw
    refine does_of_live (f := fun b => d2dUnitReceive b x y n.toNat true) rfl hup ?_
    have hgo := d2dUnitReceive_last hok hbuf hseq hnew hw
    refine ⟨only_of_blk (onlyBlk_of_rest (d2dUnitReceive_accepts hok).1), ?_, fun hy => ?_, fun hy => ?_⟩
    · dsimp only
      rw [hgo]
      exact buf_last hbuf hseq
    · dsimp only
      rw [hgo]
      exact arr_arrive _ w hy
    · dsimp only
      rw [hgo]
      exact ejq_arrive _ w hy
  · intro s x y n
    exact stays_of_live (f := fun b => d2dUnitReceive b x y n.toNat false) rfl fun _ => by simp [d2dUnitReceive]
  · intro s x y n hup hok k
    refine ⟨fun hk => ?_, fun hk => ?_⟩
    · obtain ⟨hrest, hfab⟩ := d2dRetryRequest_counts hok hk
      have hd2d : (d2dRetryRequest s.blk x y n.toNat).d2d x y =
          { s.blk.d2d x y with tries := tset (fun _ => 0) (s.blk.d2d x y).tries n.toNat (k + 1) } := by
        rw [Blk.d2d, hfab]
        exact d2d_modD2d_self ..
      refine does_of_live (f := fun b => d2dRetryRequest b x y n.toNat) rfl hup ⟨only_of_blk (onlyBlk_of_rest hrest), ?_, ?_, ?_⟩
      · dsimp only
        rw [hfab]
        rfl
      · rw [hd2d]
      · rw [hd2d]
        simp only [tget_tset_self, k]
    · refine does_of_live (f := fun b => d2dRetryRequest b x y n.toNat) rfl hup ?_
      dsimp only
      rw [d2dRetryRequest_fails hok hk]
      split
      · next hlost => exact ⟨congrArg Fab.d2dFailed (fab_d2dGone ..), hlost.symm⟩
      · next hlost =>
        refine ⟨congrArg Fab.d2dFailed (fab_d2dGone ..), ?_⟩
        rw [dead_d2dGone, hup]
        exact (Bool.eq_false_iff.mpr hlost).symm
  · intro s q src p hup hhops hold
    refine does_of_live (f := fun b => wormHeadRoute b q (.d2d src p)) rfl hup ?_
    obtain ⟨arr, w, -, hgo⟩ := routeWorm_takes s.blk q src p
    have hdrop : wormHeadRoute s.blk q (.d2d src p) =
        ((({ s.blk with fab.arr := arr } : Blk).incr (Reg.nrmDropHopCnt q)).flag (Reg.nrmRtErr q) 0).aonAdd 211 1 := by
      rw [wormHeadRoute_first hup hold, hgo, routeHead_of_hops (b := { s.blk with fab.arr := arr }) _ _ hhops]
      rfl
    dsimp only
    rw [hdrop]
    refine ⟨only_of_blk (onlyBlk_of_rest ?_), rfl, bit_reg_flag _ _ _ (by decide), ?_⟩
    · exact (rest_aonAdd (by decide) ..).trans ((rest_flag (by decide) ..).trans ((rest_incr (by decide) ..).trans (rest_with_fab (by decide) ..)))
    · rw [reg_aonAdd, reg_flag_ne _ _ (dropHop_ne_rtErr q), toNat_reg_incr]
      rfl
  · intro s q src p n hup hhops hself hport hq hfree hold
    refine does_of_live (f := fun b => wormHeadRoute b q (.d2d src p)) rfl hup ?_
    obtain ⟨arr, w, -, hgo⟩ := routeWorm_takes s.blk q src p
    have hq4 : Fin.ofNat 4 q.val = q := Fin.ext (Nat.mod_eq_of_lt q.isLt)
    rw [routeHead_of_free (b := { s.blk with fab.arr := arr }) hhops (by rw [hq4]; exact hself) hport hq (hfree w.part)] at hgo
    have hsend : wormHeadRoute s.blk q (.d2d src p) =
        ({ s.blk with fab.arr := arr } : Blk).sendWorm n (hopOn p.hdr) w.payload w.part w.req := by
      rw [wormHeadRoute_first hup hold, hgo]
      rfl
    have hheld := held_sendWorm (b := { s.blk with fab.arr := arr }) (not_asked_of_free (hfree w.part)) (hopOn p.hdr) w.payload w.part w.req
    dsimp only
    rw [hsend, hheld]
    refine ⟨?_, List.take_left, ?_⟩
    · simp only [wormFlits, List.length_append, List.length_cons, List.length_map, List.length_range, hdrFlits_hopOn]
      rw [show ({ s.blk with fab.arr := arr } : Blk).link n = s.blk.link n from rfl]
      omega
    · rw [show ({ s.blk with fab.arr := arr } : Blk).link n = s.blk.link n from rfl, List.drop_left]
      simp [wormFlits, hdrFlits_hopOn, Function.comp_def, List.map_const']
  · intro s q p ty i hin a id r hi
    exact packetEject_plain hin hi
  · intro s q p b c hin a r hreq ha hfree
    exact packetEject_rdonce hin (rdonce_mem_plainMessages p.hdr) hreq ha hfree
  · intro s q p hin hctx hpsn hlast
    obtain ⟨y, e, htb, hctxs, hpool, hcoh⟩ := packetEject_opens hin hctx hpsn hlast
    exact does_of_live (f := fun b => packetEject b q p) rfl hin.up ⟨_, hctxs, rfl, rfl, rfl, rfl, htb, rfl, rfl, hpool, hcoh⟩
  · intro s q p hup hload hcrc
    refine does_of_live (f := fun b => packetEject b q p) rfl hup ?_
    dsimp only
    rw [packetEject_of_crc hup hload hcrc]
    have honly := onlyBlk_of_rest (rest_ejected s.blk q p)
    obtain ⟨hlinks, -⟩ := fab_ejected s.blk q p
    obtain ⟨y, hy⟩ : ∃ y, y = ejected s.blk q p := ⟨_, rfl⟩
    rw [← hy] at honly hlinks ⊢
    refine ⟨only_of_blk (onlyBlk_of_rest ?_), hlinks, bit_reg_flag _ _ _ (by decide)⟩
    exact (rest_aonAdd (by decide) ..).trans ((rest_flag (by decide) ..).trans ((rest_incr (by decide) ..).trans
      (rest_of_onlyBlk (onlyBlk_mono (by decide) honly))))
  · intro s q m n hup hinj hty hpsn hsh hout hheads
    exact does_of_live (f := fun b => packetInject b q) rfl hup (packetInject_port hup hinj hty hpsn hsh hout hheads)
  · intro s q src id c hup hctx hq hsrc hid
    have hgo := reorderTimeout_of_one hctx hq hsrc hid
    refine ⟨fun hdue => does_of_live (f := fun b => reorderTimeout b q src.toNat id.toNat) rfl hup ?_,
      fun hearly => stays_of_live (f := fun b => reorderTimeout b q src.toNat id.toNat) rfl fun _ => ?_⟩
    · dsimp only
      rw [hgo, if_pos hdue]
      exact ⟨only_of_blk (onlyBlk_of_rest ((rest_aonAdd (by decide) ..).trans ((rest_flag (by decide) ..).trans ((rest_incr (by decide) ..).trans
        (rest_with_fab (by decide) ..))))), rfl, bit_reg_flag _ _ _ (by decide)⟩
    · rw [hgo, if_neg (by omega)]
  · intro s dst id r hup hreq hdst hid
    have hgo := requestTimeout_of_one hreq hdst hid
    refine ⟨fun hdue => does_of_live (f := fun b => requestTimeout b dst.toNat id.toNat) rfl hup ?_,
      fun hearly => stays_of_live (f := fun b => requestTimeout b dst.toNat id.toNat) rfl fun _ => ?_⟩
    · dsimp only
      rw [hgo, if_pos hdue]
      exact ⟨only_of_blk (onlyBlk_of_rest ((rest_flag (by decide) ..).trans ((rest_incr (by decide) ..).trans (rest_with_fab (by decide) ..)))),
        rfl, bit_reg_flag _ _ _ (by decide)⟩
    · rw [hgo, if_neg (by omega)]
  · intro s e c p hup hp hdue hdrop hroute
    refine does_of_live (f := fun b => policedDue b e.toNat c.toNat) rfl hup ?_
    dsimp only
    rw [policedDue_of_due hp hdue hdrop]
    exact ⟨sends_sendOwn (q := p.home) hup ⟨0x4B, e.toNat, 0, 0, 0, 0, argAt c.toNat 0 ||| argAt p.part 2 ||| argAt (min p.dropped 65535) 16,
      [], [], 0, 0, 0, false⟩ hroute s, mget_mput_self ..⟩

end Sys2Proof.Proofs
end

/-! ## Sheafs: admission, held tasks, the watchdog and prefetches (R200, R208, R211, R216) -/
section
namespace Sys2Proof.Proofs

open Sys2Proof.Machine

/-! ### Reads of an image -/

/-- A read of an image reaches neither the Sheafs nor what waits for admission. -/
theorem imageBytes_keeps (b : Blk) (q : Nat) (r : SubmitReq) (n : Nat) (h : HostResult) :
    (b.imageBytes q r n h).2.work.sheafs = b.work.sheafs ∧ ((b.imageBytes q r n h).2.thr q).wait = (b.thr q).wait := by
  unfold Blk.imageBytes
  cases r.src with
  | host f pasid =>
    have hw := work_of_rest (rest_hostPartOf (L := .hub :: quietRegions) (by decide) (by decide) (by decide) (by decide) (by decide) (by decide)
      (by decide) (by decide) b (.image q f r.seq) q r.part 0 f pasid r.addr n h) (by decide)
    exact ⟨congrArg Work.sheafs hw, congrArg Thresher.wait (thr_congr hw q)⟩
  | pool =>
    have hread := work_of_rest (rest_readLines (L := .hub :: .pair :: devRegions) (by decide) (by decide) (by decide) (by decide) (by decide)
      (by decide) (by decide) (by decide) (by decide) (by decide) (by decide) (by decide) (by decide) (by decide) b (thrReq q r.part)
      (b.thr q).fetched (linesOf r.addr n)) (by decide)
    obtain ⟨y, hy⟩ : ∃ y, y = b.readLines (thrReq q r.part) (b.thr q).fetched (linesOf r.addr n) := ⟨_, rfl⟩
    rw [← hy] at hread
    dsimp only
    rw [← hy]
    have hjudge := work_of_rest (rest_judgeLines (L := quietRegions) (by decide) (by decide) (by decide) (by decide) (by decide)
      (by decide) (by decide) (y.1.modThr q (fun t => { t with fetched := y.2 })) q r.part (r.eid.getD 0) y.2 r.addr n) (by decide)
    refine ⟨(congrArg Work.sheafs hjudge).trans ?_, (congrArg Thresher.wait (thr_congr hjudge q)).trans ?_⟩
    · exact (congrArg Work.sheafs hread : y.1.work.sheafs = b.work.sheafs)
    · rw [thr_modThr_self]
      exact (congrArg Thresher.wait (thr_congr hread q) : (y.1.thr q).wait = (b.thr q).wait)

/-! ### Rejections (R200, R220) -/

/-- A word of a Thresher that neither a log or trace record nor a message without a route writes. -/
theorem quietBit_thr {wd : Nat} (h : 0x4100000 ≤ wd ∧ wd < 0x5000000) (i : Nat) : QuietBit wd i where
  refuse k _ := by simp only [Reg.haRefuseCnt]; omega
  retry := by simp only [Reg.hubRetryCnt]; omega
  lossCnt := by simp only [Reg.obsTraceLossCnt]; omega
  revoked k _ := .inl (by simp only [Reg.haErr]; omega)
  hold := .inl (by simp only [Reg.pwrErr]; omega)
  logLost := .inl (by simp only [Reg.obsErr]; omega)
  traceLost := .inl (by simp only [Reg.obsErr]; omega)

/-- What a Thresher notes of a Submit that it rejects. -/
def rejectNoted (b : Blk) (q st : Nat) : Blk :=
  (((b.incr (Reg.thrRejectCnt q)).flag (Reg.thrErr q) 0).setReg (Reg.thrLastReject q) (BitVec.ofNat 32 st)).setReg
    (Reg.thrLastRejectB q) (BitVec.ofNat 32 0)

theorem reject_eq (b : Blk) (q : Nat) (r : SubmitReq) (st : Nat) : b.reject q r st 0 0 =
    ((rejectNoted b q st).trace { source := 2, event := 2, part := r.part, unit := 24 + q, a := r.cookie * 256 }).answerAsker q r.who st
      (submitResult 0 0 0) := by
  rw [Blk.reject, rejectNoted, Nat.zero_mul, Nat.add_zero]

theorem reg_answerAsker_thr {wd : Nat} (h : 0x4100000 ≤ wd ∧ wd < 0x5000000) (b : Blk) (q : Nat) (w : Asker) (st : Nat) (bs : Bytes) :
    (b.answerAsker q w st bs).reg wd = b.reg wd := by
  unfold Blk.answerAsker
  cases w with
  | fabric src m t ty =>
    unfold Blk.answerCtrl
    dsimp only
    refine (reg_send (fun k => ?_) (fun k => ?_) ..).trans ?_
    · simp only [Reg.nrmDropNorouteCnt]
      omega
    · simp only [Reg.nrmRtErr]
      omega
    · split <;> rfl
  | cmd c => exact reg_answerCmd_ne b c st bs (by simp only [Reg.hubCmdFailCnt]; omega)

/-- A rejected Submit is flagged, and its status stands in LAST_REJECT. -/
theorem regs_reject (b : Blk) (q : Quad) (r : SubmitReq) {st : Nat} (hst : st < 65536) :
    ((b.reject q r st 0 0).reg (Reg.thrErr q)).getLsbD 0 = true ∧ ((b.reject q r st 0 0).reg (Reg.thrLastReject q)).toNat % 65536 = st := by
  have hq := q.isLt
  have herr : 0x4100000 ≤ Reg.thrErr q ∧ Reg.thrErr q < 0x5000000 := by
    simp only [Reg.thrErr]
    omega
  have hlast : 0x4100000 ≤ Reg.thrLastReject q ∧ Reg.thrLastReject q < 0x5000000 := by
    simp only [Reg.thrLastReject]
    omega
  have hB : Reg.thrErr q ≠ Reg.thrLastRejectB q ∧ Reg.thrLastReject q ≠ Reg.thrLastRejectB q ∧ Reg.thrErr q ≠ Reg.thrLastReject q := by
    simp only [Reg.thrErr, Reg.thrLastReject, Reg.thrLastRejectB]
    omega
  rw [reject_eq]
  refine ⟨?_, ?_⟩
  · rw [reg_answerAsker_thr herr]
    refine (qbit_trace (quietBit_thr herr 0) ..).trans ?_
    rw [bitAt, rejectNoted, Blk.reg_setReg_ne _ _ _ _ hB.1, Blk.reg_setReg_ne _ _ _ _ hB.2.2]
    exact bit_reg_flag _ _ _ (by decide)
  · have htrace (x : Blk) (t : TraceRec) : (x.trace t).reg (Reg.thrLastReject q) = x.reg (Reg.thrLastReject q) :=
      BitVec.eq_of_getLsbD_eq fun i _ => qbit_trace (quietBit_thr hlast i) x t
    rw [reg_answerAsker_thr hlast, htrace, rejectNoted, Blk.reg_setReg_ne _ _ _ _ hB.2.1, Blk.reg_setReg_self, BitVec.toNat_ofNat]
    omega

/-! ### Admission (R200) -/

/-- A Submit whose reservation fails is rejected. -/
theorem sheafAdmission_rejects {b g : Blk} {q st : Nat} {h : HostResult} {r : SubmitReq} {rest : List SubmitReq} (hup : b.dead = false)
    (hopen : b.closing = false) (hwait : (b.thr q).wait = r :: rest) (hres : b.reserve q r h = (some (.error st), g)) :
    sheafAdmission b q h = (g.endAdmission q).reject q r st 0 0 := by
  unfold sheafAdmission
  simp only [hwait, hup, hopen, Bool.or_self, Bool.false_eq_true, if_false, hres]

theorem reserve_malformed {b g : Blk} {q : Nat} {h : HostResult} {r : SubmitReq} {hb : Bytes} (hroom : (b.thr q).room = none)
    (himg : b.imageBytes q r 128 h = (.bytes hb, g)) (hhead : readHeader (hb.take 128) = none) : b.reserve q r h = (some (.error 0x50), g) := by
  simp only [Blk.reserve, hroom, Option.bind_none, himg, hhead]

theorem wait_endAdmission (b : Blk) (q : Nat) : ((b.endAdmission q).thr q).wait = (b.thr q).wait.drop 1 := by
  rw [Blk.endAdmission, thr_modThr_self]
  rfl

theorem sheafs_endAdmission (b : Blk) (q : Nat) : (b.endAdmission q).work.sheafs = b.work.sheafs := rfl

theorem work_reject (b : Blk) (q : Nat) (r : SubmitReq) (st a c : Nat) : (b.reject q r st a c).work = b.work :=
  work_of_rest (L := .fab :: .hub :: quietRegions) (rest_reject (by decide) (by decide) (by decide) (by decide) (by decide) (by decide)
    (by decide) (by decide) (by decide) ..) (by decide)

/-- A reservation that passes orders 1 to 3. -/
theorem reserve_passes {b g : Blk} {q slot : Nat} {h : HostResult} {r : SubmitReq} {hb : Bytes} {hd : Header}
    (hroom : (b.thr q).room = none) (himg : b.imageBytes q r 128 h = (.bytes hb, g)) (hhead : readHeader (hb.take 128) = some hd)
    (hspan : g.spanActive q r.part hd.record 128 = true) (harr : hd.statusArr = 0) (hslot : g.freeSlot q = some slot)
    (hfree : hd.tasks ≤ g.taskFree q)
    (hmax : g.sheafsHeld r.part < (if r.part = 0 then 16 else ((mget (g.thrView q).parts r.part).map (·.sheafMax)).getD 0)) :
    b.reserve q r h = (some (.ok (slot, hd)), g.modThr q (fun t => { t with room := some (slot, hb.take 128) })) := by
  simp only [Blk.reserve, hroom, Option.bind_none, himg, hhead]
  rw [if_neg (by simp [hspan, harr])]
  simp only [hslot]
  rw [if_neg (by simp only [Bool.or_eq_true, decide_eq_true_eq, not_or]; omega)]

/-- A Submit with a reservation goes on with its image. -/
theorem sheafAdmission_reserved {b g : Blk} {q slot : Nat} {h : HostResult} {r : SubmitReq} {rest : List SubmitReq} {hd : Header}
    (hup : b.dead = false) (hopen : b.closing = false) (hwait : (b.thr q).wait = r :: rest)
    (hres : b.reserve q r h = (some (.ok (slot, hd)), g)) :
    (∀ i, g.imageBytes q r hd.length h = (.wait, i) → sheafAdmission b q h = i) ∧
    (∀ i img ts v, g.imageBytes q r hd.length h = (.bytes img, i) → i.judgeImage q r hd img = .ok (ts, v) →
      sheafAdmission b q h = i.admitSheaf q slot r hd ts v) := by
  unfold sheafAdmission
  simp only [hwait, hup, hopen, Bool.or_self, Bool.false_eq_true, if_false, hres]
  exact ⟨fun i himg => by simp only [himg], fun i img ts v himg hok => by simp only [himg, hok]⟩

/-- A task made ready or held, at a time, in an order and for a Tiller. -/
def readied (st : TaskState) (now order : Nat) (goes : Option Nat) (t : TaskRt) : TaskRt :=
  { t with state := st, stamp := now, queuedAt := now, order := order, goes := goes }

/-- A task that is made ready is ready or held, and nothing else of the work changes but the count of their order. -/
theorem work_makeReady {b : Blk} {slot i : Nat} {s : Sheaf} {t : TaskRt} (hs : mget b.work.sheafs slot = some s) (ht : b.task slot i = some t) :
    ∃ st goes o, (st = .ready ∨ st = .held) ∧
      (b.makeReady slot i).work = { (b.modTask slot i (readied st b.tb b.work.order goes)).work with order := o } := by
  unfold Blk.makeReady
  simp only [hs, ht]
  split
  · exact ⟨.ready, _, _, .inl rfl, rfl⟩
  · exact ⟨.held, _, _, .inr rfl, by rw [work_event]; rfl⟩

theorem makeReady_of_none {b : Blk} {slot i : Nat} (h : b.task slot i = none) : b.makeReady slot i = b := by
  unfold Blk.makeReady
  rw [h]
  split
  · next hs ht => cases ht
  · rfl

/-- A Sheaf as its admission has left it, whatever its tasks stand at. -/
structure AdmittedAs (r : SubmitReq) (n v : Nat) (z : Sheaf) : Prop where
  part : z.part = r.part
  cookie : z.cookie = r.cookie
  tasks : z.tasks.length = n
  abort : z.abort = none
  closed : z.closed = none
  visits : z.visits = v

/-- Making a task ready leaves the rest of its Sheaf, and what waits for admission. -/
theorem admittedAs_makeReady {b : Blk} {slot n v : Nat} {r : SubmitReq} (i : Nat)
    (h : ∃ z, mget b.work.sheafs slot = some z ∧ AdmittedAs r n v z) :
    (b.makeReady slot i).work.thr = b.work.thr ∧ ∃ z, mget (b.makeReady slot i).work.sheafs slot = some z ∧ AdmittedAs r n v z := by
  cases ht : b.task slot i with
  | none => exact ⟨by rw [makeReady_of_none ht], by rwa [makeReady_of_none ht]⟩
  | some t =>
    obtain ⟨z, hz, hz'⟩ := h
    obtain ⟨st, goes, o, -, hw⟩ := work_makeReady hz ht
    rw [hw]
    refine ⟨rfl, { z with tasks := z.tasks.modify i (readied st b.tb b.work.order goes) }, ?_, ?_⟩
    · show mget (mmod b.work.sheafs slot _) slot = _
      rw [mget_mmod_self, hz]
      rfl
    · exact ⟨hz'.part, hz'.cookie, by rw [List.length_modify]; exact hz'.tasks, hz'.abort, hz'.closed, hz'.visits⟩

theorem admittedAs_makeReadys {slot n v : Nat} {r : SubmitReq} (ts : List (TaskRt × Nat)) (b : Blk)
    (h : ∃ z, mget b.work.sheafs slot = some z ∧ AdmittedAs r n v z) :
    let y := ts.foldl (fun b t => b.makeReady slot t.2) b
    y.work.thr = b.work.thr ∧ ∃ z, mget y.work.sheafs slot = some z ∧ AdmittedAs r n v z := by
  induction ts generalizing b with
  | nil => exact ⟨rfl, h⟩
  | cons t ts ih =>
    obtain ⟨hthr, hz⟩ := admittedAs_makeReady t.2 h
    obtain ⟨hthr', hz'⟩ := ih (b.makeReady slot t.2) hz
    exact ⟨hthr'.trans hthr, hz'⟩

theorem work_answerAsker (b : Blk) (q : Nat) (w : Asker) (st : Nat) (bs : Bytes) : (b.answerAsker q w st bs).work = b.work :=
  work_of_rest (L := [.regs, .fab, .hub]) (rest_answerAsker (by decide) (by decide) (by decide) ..) (by decide)

/-- A Sheaf as its admission makes it, before a task of it is ready. -/
def admittedSheaf (now : Nat) (r : SubmitReq) (h : Header) (ts : List (Desc × List Nat)) (v : Nat) : Sheaf :=
  { part := r.part, src := r.src, addr := r.addr, cookie := r.cookie, policy := h.policy, doneMask := h.doneMask,
    descOff := h.descOff, edgeOff := h.edgeOff, wdogMs := h.wdogMs, record := h.record, statusArr := h.statusArr,
    subs := h.subs, admitAt := now, visits := v, tasks := taskEntries ts }

/-- An admitted Sheaf is resident, and its Submit waits no longer. -/
theorem admitSheaf_admits (b : Blk) (q slot : Nat) (r : SubmitReq) (h : Header) (ts : List (Desc × List Nat)) (v : Nat) :
    ((b.admitSheaf q slot r h ts v).thr q).wait = (b.thr q).wait.drop 1 ∧
      ∃ z, mget (b.admitSheaf q slot r h ts v).work.sheafs slot = some z ∧ AdmittedAs r ts.length v z := by
  obtain ⟨s, hs⟩ : ∃ s, s = admittedSheaf b.tb r h ts v := ⟨_, rfl⟩
  obtain ⟨b1, hb1⟩ : ∃ b1, b1 = ({ b.endAdmission q with work.sheafs := mput b.work.sheafs slot s } : Blk).aonAdd 221 1 := ⟨_, rfl⟩
  have hz : mget b1.work.sheafs slot = some s := by
    rw [hb1]
    exact mget_mput_self ..
  have has : AdmittedAs r ts.length v s := by
    rw [hs]
    exact ⟨rfl, rfl, by simp [admittedSheaf, taskEntries], rfl, rfl, rfl⟩
  obtain ⟨hthr, hres⟩ := admittedAs_makeReadys (((taskEntries ts).zip (List.range (taskEntries ts).length)).filter (fun t => t.1.deps == 0)) b1
    ⟨s, hz, has⟩
  have hwork : (b.admitSheaf q slot r h ts v).work =
      ((((taskEntries ts).zip (List.range (taskEntries ts).length)).filter (fun t => t.1.deps == 0)).foldl (fun b t => b.makeReady slot t.2)
        b1).work := by
    rw [Blk.admitSheaf, hb1, hs]
    exact (work_answerAsker ..).trans (work_trace ..)
  refine ⟨?_, by rw [hwork]; exact hres⟩
  rw [Blk.thr, hwork, hthr, hb1]
  exact wait_endAdmission b q

/-! ### Held tasks (R208) -/

/-- The one held task of a quadrant enters its queue where that has room. -/
theorem heldTaskEnqueue_one {b : Blk} {q slot i : Nat} {z : Sheaf} {x : TaskRt} (hup : b.dead = false) (hheld : heldTasks b q = [(slot, i, x)])
    (hz : mget b.work.sheafs slot = some z) (hroom : b.queueRoom q z.part = true) :
    heldTaskEnqueue b q = b.modTask slot i (fun t => { t with state := .ready, queuedAt := b.tb }) := by
  have hsort : (b.tasksWhere (fun _ s _ t => t.state == .held && t.home == q && s.abort.isNone)).mergeSort
      (fun x y => x.2.2.order ≤ y.2.2.order) = [(slot, i, x)] := by
    rw [show b.tasksWhere (fun _ s _ t => t.state == .held && t.home == q && s.abort.isNone) = [(slot, i, x)] from hheld]
    exact List.mergeSort_singleton _
  unfold heldTaskEnqueue
  rw [if_neg (by simp [hup])]
  simp only [hsort, List.foldl, hz, hroom, if_true]

/-! ### What the end of tasks and of Sheafs leaves (R213 to R217) -/

/-- A later state of a Sheaf: what aborted it stands, and a task that has ended has ended. -/
structure SheafLater (z y : Sheaf) : Prop where
  abort : ∀ a, z.abort = some a → y.abort = some a
  ended : ∀ (i : Nat) (u : TaskRt), y.tasks[i]? = some u → ∃ v : TaskRt, z.tasks[i]? = some v ∧ (v.state = .ended → u.state = .ended)

theorem sheafLater_refl (z : Sheaf) : SheafLater z z := ⟨fun _ h => h, fun _ u h => ⟨u, h, id⟩⟩

theorem sheafLater_trans {x y z : Sheaf} (h : SheafLater x y) (k : SheafLater y z) : SheafLater x z := by
  refine ⟨fun a ha => k.abort a (h.abort a ha), fun i u hu => ?_⟩
  obtain ⟨v, hv, hvu⟩ := k.ended i u hu
  obtain ⟨w, hw, hwv⟩ := h.ended i v hv
  exact ⟨w, hw, fun he => hvu (hwv he)⟩

/-- A change that leaves the tasks and what aborted the Sheaf. -/
theorem sheafLater_of_same {z y : Sheaf} (ha : y.abort = z.abort) (ht : y.tasks = z.tasks) : SheafLater z y :=
  ⟨fun a h => ha.trans h, fun i u h => ⟨u, by rwa [← ht], id⟩⟩

/-- The Sheaf of a slot in a later state, if it is still resident. -/
def Later (slot : Nat) (x y : Blk) : Prop :=
  ∀ z', mget y.work.sheafs slot = some z' → ∃ z, mget x.work.sheafs slot = some z ∧ SheafLater z z'

theorem later_of_sheafs {slot : Nat} {x y : Blk} (h : y.work.sheafs = x.work.sheafs) : Later slot x y :=
  fun z hz => ⟨z, by rwa [← h], sheafLater_refl z⟩

theorem later_trans {slot : Nat} {x y z : Blk} (h : Later slot x y) (k : Later slot y z) : Later slot x z := by
  intro u hu
  obtain ⟨v, hv, hvu⟩ := k u hu
  obtain ⟨w, hw, hwv⟩ := h v hv
  exact ⟨w, hw, sheafLater_trans hwv hvu⟩

theorem later_modSheaf {b : Blk} {slot : Nat} {f : Sheaf → Sheaf} (h : ∀ z, mget b.work.sheafs slot = some z → SheafLater z (f z)) :
    Later slot b (b.modSheaf slot f) := by
  intro y hy
  simp only [Blk.modSheaf, mget_mmod_self, Option.map_eq_some_iff] at hy
  obtain ⟨z, hz, rfl⟩ := hy
  exact ⟨z, hz, h z hz⟩

theorem later_modTask {b : Blk} {slot i : Nat} {f : TaskRt → TaskRt}
    (h : ∀ t, b.task slot i = some t → t.state = .ended → (f t).state = .ended) : Later slot b (b.modTask slot i f) := by
  refine later_modSheaf fun z hz => ⟨fun _ ha => ha, fun j u hu => ?_⟩
  rw [List.getElem?_modify] at hu
  obtain ⟨v, hv, rfl⟩ := Option.map_eq_some_iff.mp hu
  refine ⟨v, hv, fun he => ?_⟩
  split
  · next hij =>
    subst hij
    exact h v (by rw [Blk.task, hz]; exact hv) he
  · exact he

/-- An operation of a Thresher at the end of a task: the ends to process stay, and the Sheaf is in a later state. -/
def EndsKept (slot : Nat) (x y : Blk) : Prop := y.work.thr = x.work.thr ∧ Later slot x y

theorem endsKept_refl (slot : Nat) (b : Blk) : EndsKept slot b b := ⟨rfl, later_of_sheafs rfl⟩

theorem endsKept_trans {slot : Nat} {x y z : Blk} (h : EndsKept slot x y) (k : EndsKept slot y z) : EndsKept slot x z :=
  ⟨k.1.trans h.1, later_trans h.2 k.2⟩

theorem endsKept_of_work {slot : Nat} {x y : Blk} (h : y.work = x.work) : EndsKept slot x y :=
  ⟨congrArg Work.thr h, later_of_sheafs (congrArg Work.sheafs h)⟩

theorem endsKept_foldl {α : Type} {slot : Nat} {f : Blk → α → Blk} (h : ∀ b a, EndsKept slot b (f b a)) (as : List α) (b : Blk) :
    EndsKept slot b (as.foldl f b) := by
  induction as generalizing b with
  | nil => exact endsKept_refl slot b
  | cons a as ih => exact endsKept_trans (h b a) (ih (f b a))

theorem thr_modTil (b : Blk) (k : Nat) (f : Tiller → Tiller) : (b.modTil k f).work.thr = b.work.thr := rfl

theorem thr_dropPre (b : Blk) (p : Prefetch → Bool) : (b.dropPre p).work.thr = b.work.thr := by
  unfold Blk.dropPre
  refine (keeps_foldl (fun x : Blk => x.work.thr) (fun x a => by simp [work_event, work_incr, work_dropLanded]) _ _).trans ?_
  exact keeps_foldl (fun x : Blk => x.work.thr) (fun x k => thr_modTil ..) _ _

theorem endsKept_dropPre (slot : Nat) (b : Blk) (p : Prefetch → Bool) : EndsKept slot b (b.dropPre p) :=
  ⟨thr_dropPre b p, later_of_sheafs (sheafs_dropPre b p)⟩

theorem thr_tick (b : Blk) (k cls n part : Nat) : (b.tick k cls n part).work.thr = b.work.thr := by
  unfold Blk.tick
  dsimp only
  split
  · rw [work_aonAdd, work_event]
  · rw [work_event]

theorem thr_setRun (b : Blk) (k : Nat) (r : Run) : (b.setRun k r).work.thr = b.work.thr := rfl

theorem thr_settleWork (b : Blk) (k : Nat) : (b.settleWork k).work.thr = b.work.thr := by
  unfold Blk.settleWork
  split
  · rfl
  · exact iteInduction (motive := fun x : Blk => x.work.thr = b.work.thr) (fun _ => rfl) fun _ => by rw [thr_tick, thr_setRun]

theorem thr_cancelRun (b : Blk) (k status : Nat) : (b.cancelRun k status).work.thr = b.work.thr := by
  unfold Blk.cancelRun
  split
  · rfl
  · rw [thr_tick, thr_settleWork, thr_setRun]

/-- The next stage of a Sheaf's end, with a lost write noted. -/
def staged (slot : Nat) (s : Sheaf) (b : Blk) (bad : Bool) (k : Nat) : Blk :=
  (if bad then b.recordLost slot s else b).modSheaf slot (fun s => { s with stage := k })

theorem endsKept_staged (slot : Nat) (s : Sheaf) (b : Blk) (bad : Bool) (k : Nat) : EndsKept slot b (staged slot s b bad k) := by
  have hlost : (if bad then b.recordLost slot s else b).work = b.work := by
    split
    · exact work_recordLost ..
    · rfl
  exact endsKept_trans (endsKept_of_work hlost) ⟨rfl, later_modSheaf fun z _ => sheafLater_of_same rfl rfl⟩

theorem work_badLost (b : Blk) (slot q : Nat) (s : Sheaf) (ls : List Nat) :
    (if (b.thrBad q ls).1 then (b.thrBad q ls).2.recordLost slot s else (b.thrBad q ls).2).work = b.work := by
  split
  · exact (work_recordLost ..).trans (work_thrBad ..)
  · exact work_thrBad ..

theorem work_doneNotices (b : Blk) (slot : Nat) (s : Sheaf) (st : Nat) : (b.doneNotices slot s st).work = b.work :=
  keeps_foldl (fun x : Blk => x.work) (fun x a => work_of_rest (L := [.regs, .fab, .hub]) (rest_notify (by decide) (by decide) (by decide) ..)
    (by decide)) _ _

theorem endsKept_endStep (slot n : Nat) (b : Blk) : EndsKept slot b (b.endStep slot n) := by
  induction n generalizing b with
  | zero => exact endsKept_refl slot b
  | succ n ih =>
    unfold Blk.endStep
    split
    · exact endsKept_refl slot b
    · next s hs =>
      dsimp only
      split
      · refine endsKept_trans (endsKept_trans (endsKept_of_work ?_) (endsKept_staged slot s _ _ 1)) (ih _)
        split
        · rfl
        · exact work_thrWrite ..
      · split
        · exact endsKept_refl slot b
        · refine endsKept_trans (endsKept_trans (endsKept_of_work ?_) (endsKept_staged slot s _ _ 2)) (ih _)
          exact (work_thrWrite ..).trans (work_badLost ..)
      · split
        · exact endsKept_refl slot b
        · refine ⟨?_, fun z hz => ?_⟩
          · show (Blk.trace _ _).work.thr = _
            rw [work_trace, work_doneNotices, work_badLost]
          · exact absurd ((mget_mdel_self _ _).symm.trans hz) (by simp)

theorem endsKept_checkEnd (slot : Nat) (b : Blk) : EndsKept slot b (b.checkEnd slot) := by
  unfold Blk.checkEnd
  split
  · exact endsKept_refl slot b
  · next s hs =>
    split
    · exact endsKept_endStep slot 4 b
    · split
      · exact endsKept_refl slot b
      · dsimp only
        refine endsKept_trans (endsKept_trans ?_ (endsKept_dropPre slot _ _)) (endsKept_endStep slot 4 _)
        refine endsKept_trans (y := b.modSheaf slot (fun s' => { s' with closed := some s.final }))
          ⟨rfl, later_modSheaf fun z _ => sheafLater_of_same rfl rfl⟩ (endsKept_of_work ?_)
        split
        · split
          · rfl
          · split <;> rfl
        · split
          · rfl
          · split <;> rfl

theorem checkEnd_of_going {b : Blk} {slot j : Nat} {z : Sheaf} {w : TaskRt} (hz : mget b.work.sheafs slot = some z) (hc : z.closed = none)
    (hw : z.tasks[j]? = some w) (hst : w.state ≠ .ended) : b.checkEnd slot = b := by
  have hall : z.tasks.all (fun t => t.state == .ended) = false := by
    rw [List.all_eq_false]
    exact ⟨w, List.mem_of_getElem? hw, by simpa using hst⟩
  unfold Blk.checkEnd
  simp [hz, hc, hall]

/-- A Sheaf with the counts of a task that has ended added (R218). -/
def summed (i at_ : Nat) (fail : Bool) (t : Tally) (s : Sheaf) : Sheaf :=
  { s with
    failed := s.failed || fail
    endAt := max s.endAt at_
    sums := { sat := s.sums.sat + t.sat, nanScale := s.sums.nanScale + t.nanScale, esc := s.sums.esc + t.esc,
              unres := s.sums.unres + t.unres, drop := s.sums.drop + t.drop, checked := s.sums.checked + t.checked,
              firstEsc := if t.firstEsc.isSome then some (min (s.sums.firstEsc.getD i) i) else s.sums.firstEsc } }

/-- The work of a block in which a task has ended. -/
def endedWork (b : Blk) (slot i st addr at_ : Nat) (t : Tally) : Work :=
  ((b.modTask slot i (fun x => { x with state := .ended, status := st, failAddr := addr })).modSheaf slot
    (summed i at_ (isFailure st) t)).work

theorem work_endTask {b : Blk} {slot i : Nat} {s : Sheaf} {x : TaskRt} (hs : mget b.work.sheafs slot = some s) (hx : b.task slot i = some x)
    (st addr at_ : Nat) (t : Tally) : (b.endTask slot i st addr at_ t).work = endedWork b slot i st addr at_ t := by
  unfold Blk.endTask
  simp only [hs, hx]
  rw [work_trace]
  split <;> rfl

theorem endTask_of_none {b : Blk} {slot i : Nat} (h : b.task slot i = none) (st addr at_ : Nat) (t : Tally) :
    b.endTask slot i st addr at_ t = b := by
  unfold Blk.endTask
  rw [h]
  split
  · next hs ht => cases ht
  · rfl

theorem sheaf_of_task {b : Blk} {slot i : Nat} {x : TaskRt} (h : b.task slot i = some x) :
    ∃ z, mget b.work.sheafs slot = some z ∧ z.tasks[i]? = some x := Option.bind_eq_some_iff.mp h

theorem endsKept_endTask (b : Blk) (slot i st addr at_ : Nat) (t : Tally) : EndsKept slot b (b.endTask slot i st addr at_ t) := by
  cases hx : b.task slot i with
  | none =>
    rw [endTask_of_none hx]
    exact endsKept_refl slot b
  | some x =>
    obtain ⟨z, hz, -⟩ := sheaf_of_task hx
    have hend : EndsKept slot b (b.modTask slot i (fun x => { x with state := .ended, status := st, failAddr := addr })) :=
      ⟨rfl, later_modTask fun t _ _ => rfl⟩
    have hsum (y : Blk) : EndsKept slot y (y.modSheaf slot (summed i at_ (isFailure st) t)) :=
      ⟨rfl, later_modSheaf fun z _ => sheafLater_of_same rfl rfl⟩
    exact endsKept_trans (endsKept_trans hend (hsum _)) (endsKept_of_work (work_endTask hz hx st addr at_ t))

/-- The Sheaf of a task that has ended: the task has ended, and the rest of what it does next stays. -/
theorem sheaf_endTask {b : Blk} {slot i : Nat} {z : Sheaf} {x : TaskRt} (hz : mget b.work.sheafs slot = some z) (hx : b.task slot i = some x)
    (st addr at_ : Nat) (t : Tally) : ∃ y, mget (b.endTask slot i st addr at_ t).work.sheafs slot = some y ∧ y.abort = z.abort ∧
      y.closed = z.closed ∧
      y.tasks = z.tasks.modify i (fun x => { x with state := .ended, status := st, failAddr := addr }) := by
  rw [work_endTask hz hx, endedWork]
  refine ⟨summed i at_ (isFailure st) t { z with tasks := z.tasks.modify i (fun x => { x with state := .ended, status := st, failAddr := addr }) },
    ?_, rfl, rfl, rfl⟩
  simp only [Blk.modTask, Blk.modSheaf, mget_mmod_self, hz, Option.map_some]

/-! ### Aborts (R214 to R216) -/

theorem endsKept_cancelRun (slot : Nat) (b : Blk) (k status : Nat) : EndsKept slot b (b.cancelRun k status) :=
  ⟨thr_cancelRun b k status, later_of_sheafs (sheafs_cancelRun b k status)⟩

/-- A Sheaf that is aborted shows why, if it is still resident. -/
theorem endsKept_abortSheaf (b : Blk) (slot why : Nat) : EndsKept slot b (b.abortSheaf slot why) ∧
    ∀ z, mget b.work.sheafs slot = some z → z.abort = none → z.closed = none →
      ∀ y, mget (b.abortSheaf slot why).work.sheafs slot = some y → y.abort = some why := by
  unfold Blk.abortSheaf
  split
  · next hnone => exact ⟨endsKept_refl slot b, fun z hz => absurd (hnone.symm.trans hz) (by simp)⟩
  · next s hs =>
    split
    · next hdone =>
      refine ⟨endsKept_refl slot b, fun z hz ha hc => ?_⟩
      rw [hs] at hz
      cases hz
      simp [ha, hc] at hdone
    · next hopen =>
      have hopen' : s.abort = none := by
        cases ha : s.abort with
        | none => rfl
        | some a => simp [ha] at hopen
      have hmark : EndsKept slot b (b.modSheaf slot (fun s => { s with abort := some why })) := by
        refine ⟨rfl, later_modSheaf fun z hz => ⟨fun a ha => ?_, fun i u hu => ⟨u, hu, id⟩⟩⟩
        rw [hs] at hz
        cases hz
        rw [hopen'] at ha
        cases ha
      have hmarked : mget (b.modSheaf slot (fun s => { s with abort := some why })).work.sheafs slot = some { s with abort := some why } := by
        simp only [Blk.modSheaf, mget_mmod_self, hs, Option.map_some]
      dsimp only
      obtain ⟨b1, hb1⟩ : ∃ b1, b1 = b.modSheaf slot (fun s => { s with abort := some why }) := ⟨_, rfl⟩
      rw [← hb1] at hmark hmarked ⊢
      have hrest : ∀ y, (∃ x, EndsKept slot b1 x ∧ y = x.dropPre (fun p => p.slot == slot)) → EndsKept slot b y ∧
          ∀ z, mget b.work.sheafs slot = some z → z.abort = none → z.closed = none → ∀ u, mget y.work.sheafs slot = some u → u.abort = some why := by
        rintro y ⟨x, hx, rfl⟩
        have hall := endsKept_trans hx (endsKept_dropPre slot x (fun p => p.slot == slot))
        refine ⟨endsKept_trans hmark hall, fun _ _ _ _ u hu => ?_⟩
        obtain ⟨v, hv, hvu⟩ := hall.2 u hu
        rw [hmarked] at hv
        cases hv
        exact hvu.abort why rfl
      refine hrest _ ⟨_, endsKept_trans ?_ (endsKept_foldl (fun x i => ?_) _ _), rfl⟩
      · refine endsKept_foldl (fun x k => ?_) _ _
        split
        · split
          · exact endsKept_cancelRun ..
          · exact endsKept_refl ..
        · exact endsKept_refl ..
      · split
        · split
          · exact endsKept_refl ..
          · exact endsKept_refl ..
          · split
            · exact endsKept_refl ..
            · exact endsKept_endTask ..
          · exact endsKept_endTask ..
        · exact endsKept_refl ..

/-- A task of a Sheaf whose watchdog has expired: it is aborted for it. -/
theorem sheafWatchdog_aborts {b : Blk} {slot : Nat} (hup : b.dead = false) (hrun : b.frozen = false) (hpwr : b.pwr.state ≠ 3)
    (hdue : b.wdogDue slot = true) : ∀ z, mget (sheafWatchdog b slot).work.sheafs slot = some z → z.abort = some 0x5B := by
  intro y hy
  unfold sheafWatchdog at hy
  rw [if_neg (by simp [hup, hrun, hpwr, hdue])] at hy
  obtain ⟨u, hu, huy⟩ := (endsKept_checkEnd slot ((b.autoSnap 0 2 slot).abortSheaf slot 0x5B)).2 y hy
  refine huy.abort _ ?_
  have hsnap : (b.autoSnap 0 2 slot).work = b.work := by
    unfold Blk.autoSnap Blk.snapTrigger
    dsimp only
    split
    · split
      · split <;> rfl
      · split <;> rfl
    · rfl
  unfold Blk.wdogDue at hdue
  split at hdue
  · cases hdue
  · next z hz =>
    simp only [Bool.and_eq_true, Option.isNone_iff_eq_none] at hdue
    obtain ⟨⟨⟨-, hlast⟩, habort⟩, -⟩ := hdue
    have hclosed : z.closed = none := by
      cases hc : z.closed with
      | none => rfl
      | some st => simp [Blk.lastEnded, hc] at hlast
    exact (endsKept_abortSheaf (b.autoSnap 0 2 slot) slot 0x5B).2 z (by rw [hsnap]; exact hz) habort hclosed u hu

end Sys2Proof.Proofs
end

/-! ## Task ends processed, prefetches, and the family's obligation (R202, R207, R211 to R217) -/
section
namespace Sys2Proof.Proofs

open Sys2Proof.Machine

/-! ### Successors (R207, R214) -/

theorem thr_modThr_ne (b : Blk) {p q : Nat} (f : Thresher → Thresher) (h : q ≠ p) : (b.modThr p f).thr q = b.thr q :=
  tget_tmod_ne (fun _ => ({} : Thresher)) b.work.thr p q f h

/-- The ends that a pruning adds: of its Sheaf, each pruned. -/
def PruneEnds (slot : Nat) (l : List EndRec) : Prop := ∀ y ∈ l, y.slot = slot ∧ y.status = 0x49

/-- A pruning leaves a later state of its Sheaf, and adds to the ends to process. -/
theorem prune_adds (slot : Nat) (succ : List Nat) (b : Blk) : Later slot b (b.prune slot succ) ∧
    ∀ q, ∃ l, ((b.prune slot succ).thr q).ends = (b.thr q).ends ++ l ∧ PruneEnds slot l := by
  induction succ generalizing b with
  | nil => exact ⟨later_of_sheafs rfl, fun q => ⟨[], (List.append_nil _).symm, by simp [PruneEnds]⟩⟩
  | cons i succ ih =>
    obtain ⟨y, hy⟩ : ∃ y, y = b.prune slot [i] := ⟨_, rfl⟩
    have hstep : b.prune slot (i :: succ) = y.prune slot succ := by rw [hy]; rfl
    have hone : Later slot b y ∧ ∀ q, ∃ l, (y.thr q).ends = (b.thr q).ends ++ l ∧ PruneEnds slot l := by
      rw [hy]
      simp only [Blk.prune, List.foldl]
      split
      · next t ht =>
        split
        · exact ⟨later_of_sheafs rfl, fun q => ⟨[], (List.append_nil _).symm, by simp [PruneEnds]⟩⟩
        · obtain ⟨hthr, hlater⟩ := endsKept_endTask b slot i 0x49 0 b.tb {}
          refine ⟨hlater, fun q => ?_⟩
          by_cases hq : q = slot / 64
          · subst hq
            rw [thr_modThr_self, Blk.thr, hthr]
            exact ⟨_, rfl, by simp [PruneEnds]⟩
          · refine ⟨[], ?_, by simp [PruneEnds]⟩
            rw [List.append_nil]
            rw [thr_modThr_ne _ _ hq, Blk.thr, hthr, Blk.thr]
      · exact ⟨later_of_sheafs rfl, fun q => ⟨[], (List.append_nil _).symm, by simp [PruneEnds]⟩⟩
    obtain ⟨hlater, hends⟩ := ih y
    rw [hstep]
    refine ⟨later_trans hone.1 hlater, fun q => ?_⟩
    obtain ⟨l, hl, hl'⟩ := hone.2 q
    obtain ⟨m, hm, hm'⟩ := hends q
    refine ⟨l ++ m, by rw [hm, hl, List.append_assoc], fun e he => ?_⟩
    rcases List.mem_append.mp he with h | h
    · exact hl' e h
    · exact hm' e h

theorem endsKept_makeReady {b : Blk} {slot i : Nat} (h : ∀ t, b.task slot i = some t → t.state ≠ .ended) :
    EndsKept slot b (b.makeReady slot i) := by
  cases ht : b.task slot i with
  | none =>
    rw [makeReady_of_none ht]
    exact endsKept_refl slot b
  | some t =>
    obtain ⟨z, hz, -⟩ := sheaf_of_task ht
    obtain ⟨st, goes, o, -, hw⟩ := work_makeReady hz ht
    have hmod : EndsKept slot b (b.modTask slot i (readied st b.tb b.work.order goes)) :=
      ⟨rfl, later_modTask fun u hu he => absurd he (h u hu)⟩
    refine endsKept_trans hmod ⟨?_, later_of_sheafs ?_⟩
    · rw [hw]
    · rw [hw]

/-- One successor decremented. -/
def decrementOne (b : Blk) (slot i : Nat) : Blk := b.decrement slot [i]

theorem endsKept_decrementOne (b : Blk) (slot i : Nat) : EndsKept slot b (decrementOne b slot i) := by
  have hmod : EndsKept slot b (b.modTask slot i (fun t => { t with deps := t.deps - 1 })) := ⟨rfl, later_modTask fun t _ he => he⟩
  simp only [decrementOne, Blk.decrement, List.foldl]
  split
  · next t ht =>
    split
    · next hgo =>
      simp only [Bool.and_eq_true, decide_eq_true_eq, beq_iff_eq] at hgo
      refine endsKept_trans hmod (endsKept_makeReady fun u hu => ?_)
      rw [ht] at hu
      cases hu
      rw [hgo.2]
      decide
    · exact hmod
  · exact hmod

theorem endsKept_decrement (slot : Nat) (succ : List Nat) (b : Blk) : EndsKept slot b (b.decrement slot succ) :=
  endsKept_foldl (fun b i => endsKept_decrementOne b slot i) succ b

theorem sheaf_modTask {b : Blk} {slot i : Nat} {z : Sheaf} (hz : mget b.work.sheafs slot = some z) (f : TaskRt → TaskRt) :
    mget (b.modTask slot i f).work.sheafs slot = some { z with tasks := z.tasks.modify i f } := by
  simp only [Blk.modTask, Blk.modSheaf, mget_mmod_self, hz, Option.map_some]

/-- The one successor whose last predecessor has ended becomes ready, or is held; its Sheaf goes on. -/
theorem sheaf_decrementOne {b : Blk} {slot j : Nat} {z : Sheaf} {u : TaskRt} (hz : mget b.work.sheafs slot = some z)
    (hu : z.tasks[j]? = some u) (hdeps : u.deps = 1) (hst : u.state = .waiting) :
    ∃ y w, mget (decrementOne b slot j).work.sheafs slot = some y ∧ y.closed = z.closed ∧ y.tasks[j]? = some w ∧ w.deps = 0 ∧
      (w.state = .ready ∨ w.state = .held) := by
  obtain ⟨b1, hb1⟩ : ∃ b1, b1 = b.modTask slot j (fun t => { t with deps := t.deps - 1 }) := ⟨_, rfl⟩
  have htask : b1.task slot j = some { u with deps := u.deps - 1 } := by
    rw [hb1]
    exact task_modTask_self (by rw [Blk.task, hz]; exact hu) _
  have hz1 : mget b1.work.sheafs slot = some { z with tasks := z.tasks.modify j (fun t => { t with deps := t.deps - 1 }) } := by
    rw [hb1]
    exact sheaf_modTask hz _
  have hu1 : (z.tasks.modify j (fun t => { t with deps := t.deps - 1 }))[j]? = some { u with deps := u.deps - 1 } := by
    rw [List.getElem?_modify_eq, hu]
    rfl
  obtain ⟨st, goes, o, hready, hw⟩ := work_makeReady hz1 htask
  have hgo : decrementOne b slot j = b1.makeReady slot j := by
    simp only [decrementOne, Blk.decrement, List.foldl, ← hb1, htask]
    rw [if_pos (by simp [hdeps, hst])]
  have hsheafs : (b1.makeReady slot j).work.sheafs = (b1.modTask slot j (readied st b1.tb b1.work.order goes)).work.sheafs := by rw [hw]
  have hy := sheaf_modTask (i := j) hz1 (readied st b1.tb b1.work.order goes)
  rw [← hsheafs, ← hgo] at hy
  refine ⟨_, readied st b1.tb b1.work.order goes { u with deps := u.deps - 1 }, hy, rfl, ?_, ?_, hready⟩
  · refine (List.getElem?_modify_eq ..).trans ?_
    rw [hu1]
    rfl
  · show u.deps - 1 = 0
    omega

/-! ### A task end processed -/

/-- What an end does to the tasks after it: by its status, and by the policy of the Sheaf where it is a failure. -/
def afterEnd (b : Blk) (e : EndRec) (s : Sheaf) (t : TaskRt) : Blk :=
  if e.status = 0 then b.decrement e.slot t.succ
  else if !isFailure e.status then b
  else match s.policy with
    | 0 => b.abortSheaf e.slot 0x5D
    | 1 => b.prune e.slot t.succ
    | _ => b.decrement e.slot t.succ

theorem takeEnd_eq {b : Blk} {e : EndRec} {z : Sheaf} {x : TaskRt} (hz : mget b.work.sheafs e.slot = some z) (hx : b.task e.slot e.task = some x)
    (habort : z.abort = none) (hst : e.status ≠ 0x49) :
    b.takeEnd e = (afterEnd (b.endTask e.slot e.task e.status e.failAddr e.at_ e.tally) e z x).checkEnd e.slot := by
  unfold Blk.takeEnd afterEnd
  simp only [hz, hx, habort, if_neg hst]
  rfl

/-- The ends to process after an end: a pruning may have added to them, where a failure calls for it. -/
theorem afterEnd_adds (b : Blk) (e : EndRec) (s : Sheaf) (t : TaskRt) : Later e.slot b (afterEnd b e s t) ∧
    ∀ q, ∃ l, ((afterEnd b e s t).thr q).ends = (b.thr q).ends ++ l ∧ PruneEnds e.slot l ∧
      ((isFailure e.status = true → s.policy ≠ 1) → l = []) := by
  have hkept {y : Blk} (h : EndsKept e.slot b y) : Later e.slot b y ∧ ∀ q, ∃ l, (y.thr q).ends = (b.thr q).ends ++ l ∧
      PruneEnds e.slot l ∧ ((isFailure e.status = true → s.policy ≠ 1) → l = []) := by
    refine ⟨h.2, fun q => ⟨[], ?_, by simp [PruneEnds], fun _ => rfl⟩⟩
    rw [List.append_nil, Blk.thr, h.1, Blk.thr]
  unfold afterEnd
  split
  · exact hkept (endsKept_decrement ..)
  · split
    · exact hkept (endsKept_refl ..)
    · next hfail =>
      split
      · exact hkept (endsKept_abortSheaf ..).1
      · next hpolicy =>
        obtain ⟨hlater, hends⟩ := prune_adds e.slot t.succ b
        refine ⟨hlater, fun q => ?_⟩
        obtain ⟨l, hl, hl'⟩ := hends q
        exact ⟨l, hl, hl', fun hno => absurd hpolicy (hno (by simpa using hfail))⟩
      · exact hkept (endsKept_decrement ..)

theorem mem_of_mget {α : Type} {m : Map α} {k : Nat} {v : α} (h : mget m k = some v) : (k, v) ∈ m := by
  induction m with
  | nil => cases h
  | cons e m ih =>
    obtain ⟨j, w⟩ := e
    rw [mget] at h
    split at h
    · next hj =>
      cases h
      rw [hj]
      exact List.mem_cons_self
    · exact List.mem_cons_of_mem _ (ih h)

/-- Sheafs each of which has a task that has not ended stay as they are. -/
theorem checkEnds_of_going {b : Blk} {q : Nat} (h : ∀ y ∈ b.owned q, y.2.closed = none ∧ ∃ u ∈ y.2.tasks, u.state ≠ .ended) :
    (b.owned q).foldl (fun b s => b.checkEnd s.1) b = b := by
  have hone : ∀ s ∈ b.owned q, b.checkEnd s.1 = b := by
    intro s hs
    cases hz : mget b.work.sheafs s.1 with
    | none => simp only [Blk.checkEnd, hz]
    | some z =>
      have hmem : (s.1, z) ∈ b.owned q := List.mem_filter.mpr ⟨mem_of_mget hz, (List.mem_filter.mp hs).2⟩
      obtain ⟨hc, u, hu, hst⟩ := h _ hmem
      obtain ⟨j, hj⟩ := List.mem_iff_getElem?.mp hu
      exact checkEnd_of_going hz hc hj hst
  generalize b.owned q = ss at hone
  induction ss with
  | nil => rfl
  | cons s ss ih =>
    rw [List.foldl_cons, hone s List.mem_cons_self]
    exact ih fun t ht => hone t (List.mem_cons_of_mem _ ht)

/-- The first end of a Thresher taken, once nothing of it must be read again. -/
theorem taskEndReport_takes {b : Blk} {q : Nat} {e : EndRec} {rest : List EndRec} (hup : b.dead = false)
    (hgoing : ∀ y ∈ b.owned q, y.2.closed = none ∧ ∃ u ∈ y.2.tasks, u.state ≠ .ended) (hends : (b.thr q).ends = e :: rest)
    (hread : b.needsReread e = false ∨ e.reread = true) :
    taskEndReport b q = (b.modThr q (fun t => { t with ends := rest })).takeEnd e := by
  unfold taskEndReport
  rw [if_neg (by simp [hup])]
  dsimp only
  rw [checkEnds_of_going hgoing]
  simp only [hends]
  rw [if_neg]
  rcases hread with h | h <;> simp [h]

/-! ### Prefetches (R211, R212) -/

theorem til_modTil_self (b : Blk) (k : Nat) (f : Tiller → Tiller) : (b.modTil k f).til k = f (b.til k) :=
  tget_tmod_self (fun _ => ({} : Tiller)) ..

theorem til_modTil_ne (b : Blk) {j k : Nat} (f : Tiller → Tiller) (h : k ≠ j) : (b.modTil j f).til k = b.til k :=
  tget_tmod_ne (fun _ => ({} : Tiller)) b.work.tillers j k f h

theorem up_of_halted {b : Blk} (h : b.halted = false) : b.dead = false := by
  simp only [Blk.halted, Bool.or_eq_false_iff] at h
  exact h.1.1

/-- The one candidate of a Thresher is prefetched; a read that is refused or poisoned discards it. -/
theorem prefetch_one {b : Blk} {q slot i k : Nat} {z : Sheaf} {x : TaskRt} (hgo : b.halted = false)
    (hfew : b.preCount q < b.field (Reg.thrPrefetchCfg q) 0 6) (hone : prefetchable b q = [(slot, i, x)])
    (hz : mget b.work.sheafs slot = some z) (hk : b.preTiller slot z i = some k) :
    prefetch b q = if badLines (b.preRead q slot i k z x).2 then
      (b.preRead q slot i k z x).1.dropPre (fun p => p.slot == slot && p.task == i) else (b.preRead q slot i k z x).1 := by
  unfold prefetchable at hone
  unfold prefetch
  rw [if_neg (by simp only [hgo, Bool.false_or, decide_eq_true_eq]; omega)]
  simp only [hone, List.foldl, hz, hk]

/-- What a prefetch has read stands in the local store of its Tiller. -/
theorem pre_preRead (b : Blk) (q slot i k : Nat) (z : Sheaf) (x : TaskRt) :
    ∃ p ∈ ((b.preRead q slot i k z x).1.til k).pre, p.slot = slot ∧ p.task = i ∧ p.lines = (b.preRead q slot i k z x).2 := by
  unfold Blk.preRead
  dsimp only
  generalize ((readDesc x.desc).preSpans.map (fun y => linesOf y.1 (min y.2 (b.field (Reg.thrPrefetchCfg q) 6 9 * 1024)))).flatten.dedup = ls
  generalize (List.foldl (fun m e => mput m e (b.extRt e).modCount.toNat) ([] : Map Nat) _) = mods
  obtain ⟨b1, hb1⟩ : ∃ b1, b1 = b.modTil k (fun x => { x with pre := x.pre ++ [⟨slot, i, [], mods⟩] }) := ⟨_, rfl⟩
  rw [← hb1]
  have hread := work_of_rest (rest_readLines (L := .hub :: .pair :: devRegions) (by decide) (by decide) (by decide) (by decide) (by decide)
    (by decide) (by decide) (by decide) (by decide) (by decide) (by decide) (by decide) (by decide) (by decide) b1 ⟨.pre slot i, .part z.part⟩ []
    ls) (by decide)
  generalize b1.readLines ⟨.pre slot i, .part z.part⟩ [] ls = y at hread ⊢
  refine ⟨⟨slot, i, y.2, mods⟩, ?_, rfl, rfl, rfl⟩
  rw [til_congr (congrArg Work.tillers (work_incr ..)), til_modTil_self, til_congr (congrArg Work.tillers hread), hb1, til_modTil_self]
  simp

/-- A discarded prefetch is gone from the local store of its Tiller. -/
theorem pre_dropPre (b : Blk) (f : Prefetch → Bool) {k : Nat} (hk : k < 24) : ∀ p ∈ ((b.dropPre f).til k).pre, f p = false := by
  have hfold (ks : List Nat) (b : Blk) : (k ∈ ks ∨ ∀ p ∈ (b.til k).pre, f p = false) →
      ∀ p ∈ ((ks.foldl (fun b k => b.modTil k (fun t => { t with pre := t.pre.filter (fun x => !f x) })) b).til k).pre, f p = false := by
    induction ks generalizing b with
    | nil => exact fun h => h.resolve_left List.not_mem_nil
    | cons j ks ih =>
      intro h
      refine ih _ ?_
      by_cases hj : j = k
      · subst hj
        refine .inr fun p hp => ?_
        rw [til_modTil_self] at hp
        simpa using (List.mem_filter.mp hp).2
      · have hkeep : (b.modTil j (fun t => { t with pre := t.pre.filter (fun x => !f x) })).til k = b.til k :=
          til_modTil_ne _ _ (Ne.symm hj)
        rw [hkeep]
        exact h.imp_left fun hm => (List.mem_cons.mp hm).resolve_left (Ne.symm hj)
  have hwork (gone : List Prefetch) (b : Blk) : (gone.foldl (fun b x =>
      let part := ((mget b.work.sheafs x.slot).map (·.part)).getD 0
      ((b.dropLanded (.pre x.slot x.task)).incr (Reg.thrDiscardCnt (x.slot / 64))).event (24 + x.slot / 64) 3 (some part)) b).work = b.work :=
    keeps_foldl (fun x : Blk => x.work) (fun x a => by simp [work_event, work_incr, work_dropLanded]) _ _
  intro p hp
  unfold Blk.dropPre at hp
  dsimp only at hp
  rw [til_congr (congrArg Work.tillers (hwork _ _))] at hp
  exact hfold _ b (.inl (List.mem_range.mpr hk)) p hp

theorem preTiller_lt {b : Blk} {slot i k : Nat} {z : Sheaf} (h : b.preTiller slot z i = some k) : k < 24 := by
  unfold Blk.preTiller at h
  dsimp only at h
  split at h
  · cases h
  · exact List.mem_range.mp (List.mem_of_find?_eq_some h)

/-- Settles O39: each operation of a Thresher by its own equation; an end leaves a later state of its Sheaf. -/
theorem sheafsAreAdmittedAndEnd : Obligations.SheafsAreAdmittedAndEnd := by
  unfold Obligations.SheafsAreAdmittedAndEnd
  refine ⟨?_, ?_, ?_, ?_, ?_, ?_, ?_⟩
  · intro s q h r rest hb g hup hopen hwait hroom himg hhead
    refine does_of_live (f := fun b => sheafAdmission b q h) rfl hup ?_
    obtain ⟨hsheafs, hwaits⟩ := imageBytes_keeps s.blk q r 128 h
    rw [himg] at hsheafs hwaits
    dsimp only
    rw [sheafAdmission_rejects hup hopen hwait (reserve_malformed hroom himg hhead)]
    obtain ⟨herr, hlast⟩ := regs_reject (g.endAdmission q) q r (st := 0x50) (by decide)
    refine ⟨?_, (congrArg Work.sheafs (work_reject ..)).trans hsheafs, herr, hlast⟩
    rw [thr_congr (work_reject ..), wait_endAdmission, hwaits, hwait]
    rfl
  · intro s q h r rest hb img g i hd slot v ts hup hopen hwait hroom himg hhead hspan harr hslot hfree hmax held
    have hres := reserve_passes hroom himg hhead hspan harr hslot hfree hmax
    obtain ⟨hw, hok⟩ := sheafAdmission_reserved hup hopen hwait hres
    refine ⟨fun hheld => gives_of_live (f := fun b => sheafAdmission b q h) rfl hup (hw i hheld), fun hheld hjudge =>
      does_of_live (f := fun b => sheafAdmission b q h) rfl hup ?_⟩
    obtain ⟨-, hwaits⟩ := imageBytes_keeps s.blk q r 128 h
    obtain ⟨-, hwaits'⟩ := imageBytes_keeps (g.modThr q (fun t => { t with room := some (slot, hb.take 128) })) q r hd.length h
    obtain ⟨hadmit, z, hz, has⟩ := admitSheaf_admits i q slot r hd ts v
    dsimp only
    rw [hok i img ts v hheld hjudge]
    refine ⟨?_, z, hz, has.part, has.cookie, has.tasks, has.abort, has.closed, has.visits⟩
    rw [himg] at hwaits
    rw [show (g.modThr q (fun t => { t with room := some (slot, hb.take 128) })).imageBytes q r hd.length h = (.bytes img, i) from hheld,
      thr_modThr_self] at hwaits'
    rw [hadmit, hwaits', hwaits, hwait]
    rfl
  · intro s q e rest z x hup hgoing hends hread hz hx habort hclosed hst
    refine does_of_live (f := fun b => taskEndReport b q) rfl hup ?_
    obtain ⟨b, hb⟩ : ∃ b, b = s.blk.modThr q (fun t => { t with ends := rest }) := ⟨_, rfl⟩
    have hzb : mget b.work.sheafs e.slot = some z := by rw [hb]; exact hz
    have hxb : b.task e.slot e.task = some x := by rw [hb]; exact hx
    have hxz : z.tasks[e.task]? = some x := by
      rw [Blk.task, hz] at hx
      exact hx
    obtain ⟨b1, hb1⟩ : ∃ b1, b1 = b.endTask e.slot e.task e.status e.failAddr e.at_ e.tally := ⟨_, rfl⟩
    obtain ⟨y, hy, hyabort, hyclosed, hytasks⟩ := sheaf_endTask hzb hxb e.status e.failAddr e.at_ e.tally
    obtain ⟨hthr, -⟩ := endsKept_endTask b e.slot e.task e.status e.failAddr e.at_ e.tally
    rw [← hb1] at hy hthr
    have hgo : taskEndReport s.blk q = (afterEnd b1 e z x).checkEnd e.slot := by
      rw [taskEndReport_takes hup hgoing hends hread, ← hb, takeEnd_eq hzb hxb habort hst, ← hb1]
    obtain ⟨hlater, hadds⟩ := afterEnd_adds b1 e z x
    obtain ⟨hcheckThr, hcheck⟩ := endsKept_checkEnd e.slot (afterEnd b1 e z x)
    dsimp only
    rw [hgo]
    refine ⟨?_, fun u hu => ?_, fun j u hzero hsucc hj hu hdeps hwait => ?_, fun hfail hpolicy u hu => ?_⟩
    · obtain ⟨l, hl, hprune, hnone⟩ := hadds q
      refine ⟨l, ?_, hprune, hnone⟩
      rw [Blk.thr, hcheckThr, ← Blk.thr, hl, Blk.thr, hthr, ← Blk.thr, hb, thr_modThr_self]
    · obtain ⟨u', hu', hut⟩ := sheaf_of_task hu
      obtain ⟨y', hy', hyu⟩ := later_trans hlater hcheck u' hu'
      rw [hy] at hy'
      cases hy'
      obtain ⟨v, hv, hended⟩ := hyu.ended e.task u hut
      rw [hytasks, List.getElem?_modify_eq, hxz] at hv
      cases hv
      exact hended rfl
    · have huz : y.tasks[j]? = some u := by
        rw [Blk.task, hz] at hu
        rw [hytasks, List.getElem?_modify, show z.tasks[j]? = some u from hu]
        simp [Ne.symm hj]
      have hafter : afterEnd b1 e z x = decrementOne b1 e.slot j := by rw [afterEnd, if_pos hzero, hsucc, decrementOne]
      obtain ⟨y2, w, hy2, hy2c, hw, hwd, hwst⟩ := sheaf_decrementOne hy huz hdeps hwait
      rw [hafter, checkEnd_of_going hy2 (hy2c.trans (hyclosed.trans hclosed)) hw (by rcases hwst with h | h <;> rw [h] <;> decide)]
      exact ⟨w, by rw [Blk.task, hy2]; exact hw, hwd, hwst⟩
    · have hne : e.status ≠ 0 := fun h => by simp [h, isFailure] at hfail
      have hafter : afterEnd b1 e z x = b1.abortSheaf e.slot 0x5D := by
        rw [afterEnd, if_neg hne, if_neg (by simp [hfail])]
        simp only [hpolicy]
      rw [hafter] at hcheck hu
      obtain ⟨v, hv, hvu⟩ := hcheck u hu
      exact hvu.abort _ ((endsKept_abortSheaf b1 e.slot 0x5D).2 y hy (hyabort.trans habort) (hyclosed.trans hclosed) v hv)
  · intro s q slot i z x hup hheld hz hx hroom
    refine does_of_live (f := fun b => heldTaskEnqueue b q) rfl hup ?_
    dsimp only
    rw [heldTaskEnqueue_one hup hheld hz hroom]
    exact ⟨only_of_blk (onlyBlk_of_rest (rest_modTask (by decide) ..)), task_modTask_self hx _⟩
  · intro s slot hup hrun hpwr hdue
    exact does_of_live (f := fun b => sheafWatchdog b slot) rfl hup (sheafWatchdog_aborts hup hrun hpwr hdue)
  · intro s slot hdue
    exact stays_of_live (f := fun b => sheafWatchdog b slot) rfl fun _ => by rw [sheafWatchdog, if_pos (by simp [hdue])]
  · intro s q slot i k z x hgo hfew hone hz hk
    refine does_of_live (f := fun b => prefetch b q) rfl (up_of_halted hgo) ?_
    dsimp only
    rw [prefetch_one hgo hfew hone hz hk]
    refine ⟨fun hgood => ?_, fun hbad p hp hpi => ?_⟩
    · rw [if_neg (by simp [hgood])]
      exact pre_preRead ..
    · rw [if_pos hbad] at hp
      have := pre_dropPre _ _ (preTiller_lt hk) p hp
      simp [hpi] at this

end Sys2Proof.Proofs
end

/-! ## The Tillers' always-on counters -/
section
namespace Sys2Proof.Proofs

open Sys2Proof.Machine

theorem aonIs_of_rest {L : List Region} {x y : Blk} (h : rest L y = rest L x) (hL : .aon ∉ L) (k : Nat) :
    tget (fun _ => 0) y.aon k = tget (fun _ => 0) x.aon k := by
  have hh : y.aon = x.aon := by simpa [rest, hL] using congrArg Blk.aon h
  rw [hh]

theorem low_aonAdd {k0 : Nat} (hk : k0 < 24) (b : Blk) (i n : Nat) (hi : 24 ≤ i) :
    tget (fun _ => 0) (b.aonAdd i n).aon k0 = tget (fun _ => 0) b.aon k0 := by
  have hne : k0 ≠ i := by omega
  simp only [Blk.aonAdd, tget_tmod_ne _ _ _ _ _ hne]

section
variable {α β : Type} {k0 : Nat}

theorem low_foldl {f : Blk → α → Blk} (h : ∀ x a, tget (fun _ => 0) (f x a).aon k0 = tget (fun _ => 0) x.aon k0) (as : List α)
    (b : Blk) : tget (fun _ => 0) (as.foldl f b).aon k0 = tget (fun _ => 0) b.aon k0 :=
  keeps_foldl (fun x : Blk => tget (fun _ => 0) x.aon k0) h as b

theorem low_foldl_fst {f : Blk × β → α → Blk × β}
    (h : ∀ x a, tget (fun _ => 0) (f x a).1.aon k0 = tget (fun _ => 0) x.1.aon k0) (as : List α) (x : Blk × β) :
    tget (fun _ => 0) (as.foldl f x).1.aon k0 = tget (fun _ => 0) x.1.aon k0 :=
  keeps_foldl_fst (fun x : Blk => tget (fun _ => 0) x.aon k0) h as x

theorem low_foldl_snd {f : β × Blk → α → β × Blk}
    (h : ∀ x a, tget (fun _ => 0) (f x a).2.aon k0 = tget (fun _ => 0) x.2.aon k0) (as : List α) (x : β × Blk) :
    tget (fun _ => 0) (as.foldl f x).2.aon k0 = tget (fun _ => 0) x.2.aon k0 :=
  keeps_foldl_snd (fun x : Blk => tget (fun _ => 0) x.aon k0) h as x

end

theorem low_noteRefusal {k0 : Nat} (hk : k0 < 24) (b : Blk) (k status : Nat) :
    tget (fun _ => 0) (b.noteRefusal k status).aon k0 = tget (fun _ => 0) b.aon k0 := by
  unfold Blk.noteRefusal
  split
  · exact aonIs_of_rest (L := [.regs]) (rest_flag (by decide) ..) (by decide) k0
  · rfl

/-! What the pool, the home agents and the rings do leaves a Tiller's counter as it is. -/

theorem low_flag {k0 : Nat} (hk : k0 < 24) (b : Blk) (off i : Nat) :
    tget (fun _ => 0) (b.flag off i).aon k0 = tget (fun _ => 0) b.aon k0 := by
  exact aonIs_of_rest (L := [.regs]) (rest_flag (by decide) ..) (by decide) k0

theorem low_incr {k0 : Nat} (hk : k0 < 24) (b : Blk) (off : Nat) :
    tget (fun _ => 0) (b.incr off).aon k0 = tget (fun _ => 0) b.aon k0 := by
  exact aonIs_of_rest (L := [.regs]) (rest_incr (by decide) ..) (by decide) k0

theorem low_event {k0 : Nat} (hk : k0 < 24) (b : Blk) (unit code : Nat) (part : Option Nat) (n : Nat) :
    tget (fun _ => 0) (b.event unit code part n).aon k0 = tget (fun _ => 0) b.aon k0 := by
  exact aonIs_of_rest (L := [.pcs]) (rest_event (by decide) ..) (by decide) k0

theorem low_draw {k0 : Nat} (hk : k0 < 24) (b : Blk) :
    tget (fun _ => 0) ((b.draw).2).aon k0 = tget (fun _ => 0) b.aon k0 := by
  exact aonIs_of_rest (L := [.fresh]) (rest_draw (by decide) ..) (by decide) k0

theorem low_modHusk {k0 : Nat} (hk : k0 < 24) (b : Blk) (c : Nat) (f : HuskChan → HuskChan) :
    tget (fun _ => 0) (b.modHusk c f).aon k0 = tget (fun _ => 0) b.aon k0 := by
  exact aonIs_of_rest (L := [.chans]) (rest_modHusk (by decide) ..) (by decide) k0

theorem low_modGrain {k0 : Nat} (hk : k0 < 24) (b : Blk) (c : Nat) (f : GrainChan → GrainChan) :
    tget (fun _ => 0) (b.modGrain c f).aon k0 = tget (fun _ => 0) b.aon k0 := by
  exact aonIs_of_rest (L := [.chans]) (rest_modGrain (by decide) ..) (by decide) k0

theorem low_putCopy {k0 : Nat} (hk : k0 < 24) (b : Blk) (c : Copy) (l : Nat) (bs : Bytes) (m : LineMeta) :
    tget (fun _ => 0) (b.putCopy c l bs m).aon k0 = tget (fun _ => 0) b.aon k0 := by
  exact aonIs_of_rest (L := [.pool]) (rest_putCopy (by decide) ..) (by decide) k0

theorem low_settleRow {k0 : Nat} (hk : k0 < 24) (b : Blk) (c line : Nat) (ks : List Nat) :
    tget (fun _ => 0) (b.settleRow c line ks).aon k0 = tget (fun _ => 0) b.aon k0 := by
  exact aonIs_of_rest (L := [.pool]) (rest_settleRow (by decide) ..) (by decide) k0

theorem low_putHusk {k0 : Nat} (hk : k0 < 24) (b : Blk) (l : Nat) (bs : Bytes) (m : LineMeta) :
    tget (fun _ => 0) (b.putHusk l bs m).aon k0 = tget (fun _ => 0) b.aon k0 := by
  exact aonIs_of_rest (L := [.pool]) (rest_putHusk (by decide) ..) (by decide) k0

theorem low_huskOp {k0 : Nat} (hk : k0 < 24) (b : Blk) (c code part : Nat) :
    tget (fun _ => 0) (b.huskOp c code part).aon k0 = tget (fun _ => 0) b.aon k0 := by
  simp (disch := omega) [Blk.huskOp, low_aonAdd hk, low_event hk, low_modHusk hk]

theorem low_huskOps {k0 : Nat} (hk : k0 < 24) (b : Blk) (code part : Nat) (cs : List Nat) :
    tget (fun _ => 0) (b.huskOps code part cs).aon k0 = tget (fun _ => 0) b.aon k0 := by
  exact low_foldl (fun x c => low_huskOp hk x c _ _) _ _

theorem low_countHusk {k0 : Nat} (hk : k0 < 24) (b : Blk) (l code part : Nat) :
    tget (fun _ => 0) (b.countHusk l code part).aon k0 = tget (fun _ => 0) b.aon k0 := by
  simp [Blk.countHusk, low_huskOps hk, *]

theorem low_countGrain {k0 : Nat} (hk : k0 < 24) (b : Blk) (l code part : Nat) :
    tget (fun _ => 0) (b.countGrain l code part).aon k0 = tget (fun _ => 0) b.aon k0 := by
  simp (disch := omega) [Blk.countGrain, low_aonAdd hk, low_event hk]

theorem low_writeLine {k0 : Nat} (hk : k0 < 24) (b : Blk) (l : Nat) (bs : Bytes) (poison : Bool) (wb : Bool) :
    tget (fun _ => 0) (b.writeLine l bs poison wb).aon k0 = tget (fun _ => 0) b.aon k0 := by
  unfold Blk.writeLine
  dsimp only
  repeat' split
  all_goals simp [low_putCopy hk, low_putHusk hk, low_countHusk hk, low_countGrain hk, *]

theorem low_writeMasked {k0 : Nat} (hk : k0 < 24) (b : Blk) (l : Nat) (bs : Bytes) (mask : BitVec 128) (poison :
      Bool) (wb : Bool) :
    tget (fun _ => 0) (b.writeMasked l bs mask poison wb).aon k0 = tget (fun _ => 0) b.aon k0 := by
  simp [Blk.writeMasked, low_writeLine hk, *]

theorem low_bumpMod {k0 : Nat} (hk : k0 < 24) (b : Blk) (l n : Nat) :
    tget (fun _ => 0) (b.bumpMod l n).aon k0 = tget (fun _ => 0) b.aon k0 := by
  exact aonIs_of_rest (L := [.ext]) (rest_bumpMod (by decide) ..) (by decide) k0

theorem low_countAccept {k0 : Nat} (hk : k0 < 24) (b : Blk) (q part : Nat) :
    tget (fun _ => 0) (b.countAccept q part).aon k0 = tget (fun _ => 0) b.aon k0 := by
  simp (disch := omega) [Blk.countAccept, low_aonAdd hk, low_event hk]

theorem low_countRefusal {k0 : Nat} (hk : k0 < 24) (b : Blk) (q status part : Nat) :
    tget (fun _ => 0) (b.countRefusal q status part).aon k0 = tget (fun _ => 0) b.aon k0 := by
  unfold Blk.countRefusal
  dsimp only
  repeat' split
  all_goals simp (disch := omega) [low_flag hk, low_incr hk, low_aonAdd hk, low_event hk]

theorem low_unbump {k0 : Nat} (hk : k0 < 24) (b : Blk) (l : Nat) :
    tget (fun _ => 0) (b.unbump l).aon k0 = tget (fun _ => 0) b.aon k0 := by
  exact aonIs_of_rest (L := [.ext]) (rest_unbump (by decide) ..) (by decide) k0

theorem low_countMerge {k0 : Nat} (hk : k0 < 24) (b : Blk) (l : Nat) (mask : BitVec 128) :
    tget (fun _ => 0) (b.countMerge l mask).aon k0 = tget (fun _ => 0) b.aon k0 := by
  simp [Blk.countMerge, low_foldl, low_foldl_fst, low_foldl_snd, apply_ite (fun x : Blk => tget (fun _ => 0) x.aon
      k0), low_countHusk hk, low_countGrain hk, *]

theorem low_hubLine {k0 : Nat} (hk : k0 < 24) (b : Blk) (p : Nat × Bytes × BitVec 128) :
    tget (fun _ => 0) (b.hubLine p).aon k0 = tget (fun _ => 0) b.aon k0 := by
  unfold Blk.hubLine
  dsimp only
  repeat' split
  all_goals simp (disch := omega) [low_writeMasked hk, low_bumpMod hk, low_countAccept hk, low_countRefusal hk,
      low_unbump hk, low_countMerge hk]

theorem low_hubWrite {k0 : Nat} (hk : k0 < 24) (b : Blk) (a : Nat) (bs : Bytes) :
    tget (fun _ => 0) (b.hubWrite a bs).aon k0 = tget (fun _ => 0) b.aon k0 := by
  exact low_foldl (fun x a => low_hubLine hk x a) _ _

theorem low_hubPut {k0 : Nat} (hk : k0 < 24) (b : Blk) (ps : List (Nat × Bytes)) :
    tget (fun _ => 0) ((b.hubPut ps).2).aon k0 = tget (fun _ => 0) b.aon k0 := by
  unfold Blk.hubPut
  dsimp only
  repeat' split
  all_goals simp [low_foldl, low_foldl_fst, low_foldl_snd, low_countRefusal hk, low_hubWrite hk, *]

theorem low_ringPut {k0 : Nat} (hk : k0 < 24) (b : Blk) (e : ExtEnt) (r : Ring) (bs : Bytes) :
    tget (fun _ => 0) ((b.ringPut e r bs).2.1).aon k0 = tget (fun _ => 0) b.aon k0 := by
  simp (disch := omega) [Blk.ringPut, low_hubPut hk]

theorem low_logPut {k0 : Nat} (hk : k0 < 24) (b : Blk) (bs : Bytes) :
    tget (fun _ => 0) ((b.logPut bs).2).aon k0 = tget (fun _ => 0) b.aon k0 := by
  unfold Blk.logPut
  dsimp only
  repeat' split
  all_goals simp (disch := omega) [low_ringPut hk]

theorem low_logLose {k0 : Nat} (hk : k0 < 24) (b : Blk) :
    tget (fun _ => 0) (b.logLose).aon k0 = tget (fun _ => 0) b.aon k0 := by
  simp [Blk.logLose, low_flag hk, low_aonAdd hk, *]

theorem low_logRoom {k0 : Nat} (hk : k0 < 24) (b : Blk) :
    tget (fun _ => 0) (b.logRoom).aon k0 = tget (fun _ => 0) b.aon k0 := by
  exact aonIs_of_rest (L := [.rings]) (rest_logRoom (by decide) ..) (by decide) k0

theorem low_logCatch {k0 : Nat} (hk : k0 < 24) (b : Blk) :
    tget (fun _ => 0) (b.logCatch).aon k0 = tget (fun _ => 0) b.aon k0 := by
  unfold Blk.logCatch
  dsimp only
  repeat' split
  all_goals simp (disch := omega) [low_logPut hk]

theorem low_logRing {k0 : Nat} (hk : k0 < 24) (b : Blk) (r : LogRec) :
    tget (fun _ => 0) (b.logRing r).aon k0 = tget (fun _ => 0) b.aon k0 := by
  unfold Blk.logRing
  dsimp only
  repeat' split
  all_goals simp (disch := omega) [low_logPut hk, low_logLose hk, low_logRoom hk, low_logCatch hk]

theorem low_logRaise {k0 : Nat} (hk : k0 < 24) (b : Blk) (r : LogRec) :
    tget (fun _ => 0) (b.logRaise r).aon k0 = tget (fun _ => 0) b.aon k0 := by
  unfold Blk.logRaise
  dsimp only
  repeat' split
  all_goals simp (disch := omega) [low_logLose hk, low_logRing hk]

theorem low_log {k0 : Nat} (hk : k0 < 24) (b : Blk) (code unit part a bb : Nat) (flags : Nat) :
    tget (fun _ => 0) (b.log code unit part a bb flags).aon k0 = tget (fun _ => 0) b.aon k0 := by
  simp (disch := omega) [Blk.log, low_logRaise hk]

theorem low_traceLose {k0 : Nat} (hk : k0 < 24) (b : Blk) :
    tget (fun _ => 0) (b.traceLose).aon k0 = tget (fun _ => 0) b.aon k0 := by
  exact aonIs_of_rest (L := [.regs, .rings]) (rest_traceLose (by decide) (by decide) ..) (by decide) k0

theorem low_traceRoom {k0 : Nat} (hk : k0 < 24) (b : Blk) (e : ExtEnt) :
    tget (fun _ => 0) (b.traceRoom e).aon k0 = tget (fun _ => 0) b.aon k0 := by
  exact aonIs_of_rest (L := [.rings]) (rest_traceRoom (by decide) ..) (by decide) k0

theorem low_traceCatch {k0 : Nat} (hk : k0 < 24) (b : Blk) (e : ExtEnt) :
    tget (fun _ => 0) (b.traceCatch e).aon k0 = tget (fun _ => 0) b.aon k0 := by
  have hr (x : Blk) (y : Rings) : ({ x with rings := y } : Blk).aon = x.aon := rfl
  unfold Blk.traceCatch
  dsimp only
  split
  · rfl
  · rw [hr, low_ringPut hk]

theorem low_tracePut {k0 : Nat} (hk : k0 < 24) (b : Blk) (e : ExtEnt) (bs : Bytes) :
    tget (fun _ => 0) (b.tracePut e bs).aon k0 = tget (fun _ => 0) b.aon k0 := by
  unfold Blk.tracePut
  dsimp only
  repeat' split
  all_goals simp (disch := omega) [low_ringPut hk, low_traceLose hk]

theorem low_traceTo {k0 : Nat} (hk : k0 < 24) (b : Blk) (e : ExtEnt) (r : TraceRec) :
    tget (fun _ => 0) (b.traceTo e r).aon k0 = tget (fun _ => 0) b.aon k0 := by
  unfold Blk.traceTo
  dsimp only
  repeat' split
  all_goals simp (disch := omega) [low_traceLose hk, low_traceRoom hk, low_traceCatch hk, low_tracePut hk]

theorem low_trace {k0 : Nat} (hk : k0 < 24) (b : Blk) (r : TraceRec) :
    tget (fun _ => 0) (b.trace r).aon k0 = tget (fun _ => 0) b.aon k0 := by
  unfold Blk.trace
  repeat' split
  all_goals simp only [low_traceLose hk, low_traceTo hk]

theorem low_send {k0 : Nat} (hk : k0 < 24) (b : Blk) (q : Nat) (m : Msg) :
    tget (fun _ => 0) ((b.send q m).2).aon k0 = tget (fun _ => 0) b.aon k0 := by
  exact aonIs_of_rest (L := [.regs, .fab]) (rest_send (by decide) (by decide) ..) (by decide) k0

theorem low_noteLoad {k0 : Nat} (hk : k0 < 24) (b : Blk) (eid v : Nat) :
    tget (fun _ => 0) (b.noteLoad eid v).aon k0 = tget (fun _ => 0) b.aon k0 := by
  exact aonIs_of_rest (L := [.fab]) (rest_noteLoad (by decide) ..) (by decide) k0

theorem low_markVoid {k0 : Nat} (hk : k0 < 24) (b : Blk) (c : Nat) :
    tget (fun _ => 0) (b.markVoid c).aon k0 = tget (fun _ => 0) b.aon k0 := by
  exact aonIs_of_rest (L := [.pool, .chans]) (rest_markVoid (by decide) (by decide) ..) (by decide) k0

theorem low_loseChannel {k0 : Nat} (hk : k0 < 24) (b : Blk) (c cause : Nat) :
    tget (fun _ => 0) (b.loseChannel c cause).aon k0 = tget (fun _ => 0) b.aon k0 := by
  unfold Blk.loseChannel
  dsimp only
  repeat' split
  all_goals simp [low_foldl, low_foldl_fst, low_foldl_snd, apply_ite (fun x : Blk => tget (fun _ => 0) x.aon k0),
      low_flag hk, low_modHusk hk, low_settleRow hk, low_log hk, low_markVoid hk, *]

theorem low_failLayer {k0 : Nat} (hk : k0 < 24) (b : Blk) (layer : Nat) :
    tget (fun _ => 0) (b.failLayer layer).aon k0 = tget (fun _ => 0) b.aon k0 := by
  exact aonIs_of_rest (L := [.dead, .pins, .chans]) (rest_failLayer (by decide) (by decide) (by decide) ..) (by
      decide) k0

theorem low_logGrain {k0 : Nat} (hk : k0 < 24) (b : Blk) (code l chan : Nat) (lane : Option Nat) :
    tget (fun _ => 0) (b.logGrain code l chan lane).aon k0 = tget (fun _ => 0) b.aon k0 := by
  simp [Blk.logGrain, low_log hk, *]

theorem low_logHusk {k0 : Nat} (hk : k0 < 24) (b : Blk) (code c line : Nat) (lane : Option Nat) :
    tget (fun _ => 0) (b.logHusk code c line lane).aon k0 = tget (fun _ => 0) b.aon k0 := by
  simp [Blk.logHusk, low_log hk, *]

theorem low_huskCorr {k0 : Nat} (hk : k0 < 24) (b : Blk) (c line rank lane : Nat) :
    tget (fun _ => 0) (b.huskCorr c line rank lane).aon k0 = tget (fun _ => 0) b.aon k0 := by
  unfold Blk.huskCorr
  dsimp only
  repeat' split
  all_goals simp [low_flag hk, low_incr hk, low_aonAdd hk, low_event hk, low_modHusk hk, low_loseChannel hk,
      low_logHusk hk, *]

theorem low_huskUnc {k0 : Nat} (hk : k0 < 24) (b : Blk) (c line : Nat) :
    tget (fun _ => 0) (b.huskUnc c line).aon k0 = tget (fun _ => 0) b.aon k0 := by
  unfold Blk.huskUnc
  dsimp only
  repeat' split
  all_goals simp [low_flag hk, low_incr hk, low_aonAdd hk, low_modHusk hk, low_loseChannel hk, *]

theorem low_mirrorSend {k0 : Nat} (hk : k0 < 24) (b : Blk) (l : Nat) :
    tget (fun _ => 0) ((b.mirrorSend l).2).aon k0 = tget (fun _ => 0) b.aon k0 := by
  exact aonIs_of_rest (L := [.regs, .fab]) (rest_mirrorSend (by decide) (by decide) ..) (by decide) k0

theorem low_mirrorPoison {k0 : Nat} (hk : k0 < 24) (b : Blk) (l : Nat) :
    tget (fun _ => 0) (b.mirrorPoison l).aon k0 = tget (fun _ => 0) b.aon k0 := by
  exact aonIs_of_rest (L := [.regs, .fab, .pair]) (rest_mirrorPoison (by decide) (by decide) (by decide) ..) (by
      decide) k0

theorem low_poisonLine {k0 : Nat} (hk : k0 < 24) (b : Blk) (l : Nat) (part : Nat) :
    tget (fun _ => 0) (b.poisonLine l part).aon k0 = tget (fun _ => 0) b.aon k0 := by
  unfold Blk.poisonLine
  dsimp only
  repeat' split
  all_goals simp only [low_log hk, low_mirrorPoison hk, low_foldl fun (x : Blk) c => low_flag hk x (Reg.hskErr c) 2,
    low_countHusk hk, low_countGrain hk, low_putCopy hk, low_putHusk hk]

theorem low_clearAt {k0 : Nat} (hk : k0 < 24) (b : Blk) (c line : Nat) :
    tget (fun _ => 0) (b.clearAt c line).aon k0 = tget (fun _ => 0) b.aon k0 := by
  exact aonIs_of_rest (L := [.pool]) (rest_clearAt (by decide) ..) (by decide) k0

theorem low_decodeAt {k0 : Nat} (hk : k0 < 24) (b : Blk) (c line rank : Nat) (lanes : List Nat) (part : Nat) :
    tget (fun _ => 0) ((b.decodeAt c line rank lanes part).2).aon k0 = tget (fun _ => 0) b.aon k0 := by
  unfold Blk.decodeAt
  split <;> simp [low_huskOp hk, low_huskCorr hk, low_huskUnc hk, low_clearAt hk, *]

theorem low_readStook {k0 : Nat} (hk : k0 < 24) (b : Blk) (c line : Nat) (part : Nat) :
    tget (fun _ => 0) ((b.readStook c line part).1).aon k0 = tget (fun _ => 0) b.aon k0 := by
  unfold Blk.readStook
  refine low_foldl_fst (fun x k => ?_) _ _
  split
  · rfl
  · simp [low_decodeAt hk, low_huskOp hk, *]

theorem low_copyOver {k0 : Nat} (hk : k0 < 24) (b : Blk) (c line : Nat) :
    tget (fun _ => 0) (b.copyOver c line).aon k0 = tget (fun _ => 0) b.aon k0 := by
  exact aonIs_of_rest (L := [.pool]) (rest_copyOver (by decide) ..) (by decide) k0

theorem low_settleUnc {k0 : Nat} (hk : k0 < 24) (b : Blk) (c line : Nat) (ks : List Nat) (part : Nat) :
    tget (fun _ => 0) (b.settleUnc c line ks part).aon k0 = tget (fun _ => 0) b.aon k0 := by
  unfold Blk.settleUnc
  dsimp only
  repeat' split
  all_goals simp [low_foldl, low_foldl_fst, low_foldl_snd, apply_ite (fun x : Blk => tget (fun _ => 0) x.aon k0),
      low_settleRow hk, low_huskOp hk, low_logHusk hk, low_poisonLine hk, low_clearAt hk, low_copyOver hk, *]

theorem low_readAt {k0 : Nat} (hk : k0 < 24) (b : Blk) (c line rank : Nat) (lanes : List Nat) (part : Nat) :
    tget (fun _ => 0) ((b.readAt c line rank lanes part).2).aon k0 = tget (fun _ => 0) b.aon k0 := by
  unfold Blk.readAt
  dsimp only
  repeat' split
  all_goals simp [low_decodeAt hk, low_readStook hk, low_settleUnc hk, *]

theorem low_readHusk {k0 : Nat} (hk : k0 < 24) (b : Blk) (l : Nat) (part : Nat) :
    tget (fun _ => 0) ((b.readHusk l part).2).aon k0 = tget (fun _ => 0) b.aon k0 := by
  unfold Blk.readHusk
  dsimp only
  repeat' split
  all_goals simp [low_readStook hk, low_settleUnc hk, low_readAt hk, *]

theorem low_fetchHusk {k0 : Nat} (hk : k0 < 24) (b : Blk) (l : Nat) (part : Nat) :
    tget (fun _ => 0) ((b.fetchHusk l part).1).aon k0 = tget (fun _ => 0) b.aon k0 := by
  simp [Blk.fetchHusk, low_countHusk hk, low_readHusk hk, *]

theorem low_grainFix {k0 : Nat} (hk : k0 < 24) (b : Blk) (ch line : Nat) :
    tget (fun _ => 0) (b.grainFix ch line).aon k0 = tget (fun _ => 0) b.aon k0 := by
  simp [Blk.grainFix, low_flag hk, low_incr hk, low_aonAdd hk, low_modGrain hk, *]

theorem low_grainCorr {k0 : Nat} (hk : k0 < 24) (b : Blk) (ch line l lane : Nat) :
    tget (fun _ => 0) (b.grainCorr ch line l lane).aon k0 = tget (fun _ => 0) b.aon k0 := by
  simp [Blk.grainCorr, low_logGrain hk, low_grainFix hk, *]

theorem low_grainUnc {k0 : Nat} (hk : k0 < 24) (b : Blk) (ch line : Nat) :
    tget (fun _ => 0) (b.grainUnc ch line).aon k0 = tget (fun _ => 0) b.aon k0 := by
  unfold Blk.grainUnc
  dsimp only
  repeat' split
  all_goals simp (disch := omega) [low_flag hk, low_incr hk, low_aonAdd hk, low_modGrain hk, low_failLayer hk]

theorem low_grainLost {k0 : Nat} (hk : k0 < 24) (b : Blk) (ch l part : Nat) :
    tget (fun _ => 0) (b.grainLost ch l part).aon k0 = tget (fun _ => 0) b.aon k0 := by
  simp [Blk.grainLost, low_logGrain hk, low_poisonLine hk, *]

theorem low_readGrainCopy {k0 : Nat} (hk : k0 < 24) (b : Blk) (l : Nat) (lanes : List Nat) (part : Nat) :
    tget (fun _ => 0) ((b.readGrainCopy l lanes part).2).aon k0 = tget (fun _ => 0) b.aon k0 := by
  unfold Blk.readGrainCopy
  dsimp only
  repeat' split
  all_goals simp only [low_foldl, low_flag hk, low_incr hk, low_putCopy hk, low_countGrain hk, low_logGrain hk,
      low_fetchHusk hk, low_grainCorr hk, low_grainUnc hk, low_grainLost hk, *]

theorem low_noteSlot {k0 : Nat} (hk : k0 < 24) (b : Blk) (l : Nat) :
    tget (fun _ => 0) (b.noteSlot l).aon k0 = tget (fun _ => 0) b.aon k0 := by
  unfold Blk.noteSlot
  dsimp only
  repeat' split
  all_goals simp only [low_foldl, low_flag hk, low_incr hk, low_log hk, *]

theorem low_fetch {k0 : Nat} (hk : k0 < 24) (b : Blk) (l : Nat) :
    tget (fun _ => 0) ((b.fetch l).1).aon k0 = tget (fun _ => 0) b.aon k0 := by
  unfold Blk.fetch
  dsimp only
  repeat' split
  all_goals simp only [low_foldl, low_countGrain hk, low_fetchHusk hk, low_readGrainCopy hk, low_noteSlot hk, *]

theorem low_poisonDead {k0 : Nat} (hk : k0 < 24) (b : Blk) (l owner : Nat) :
    tget (fun _ => 0) (b.poisonDead l owner).aon k0 = tget (fun _ => 0) b.aon k0 := by
  simp [Blk.poisonDead, low_flag hk, low_incr hk, low_log hk, low_poisonLine hk, *]

theorem low_dropHolder {k0 : Nat} (hk : k0 < 24) (b : Blk) (l eid : Nat) :
    tget (fun _ => 0) (b.dropHolder l eid).aon k0 = tget (fun _ => 0) b.aon k0 := by
  exact aonIs_of_rest (L := [.coh]) (rest_dropHolder (by decide) ..) (by decide) k0

theorem low_touch {k0 : Nat} (hk : k0 < 24) (b : Blk) (l : Nat) :
    tget (fun _ => 0) (b.touch l).aon k0 = tget (fun _ => 0) b.aon k0 := by
  exact aonIs_of_rest (L := [.coh]) (rest_touch (by decide) ..) (by decide) k0

theorem low_grantX {k0 : Nat} (hk : k0 < 24) (b : Blk) (l part eid : Nat) :
    tget (fun _ => 0) (b.grantX l part eid).aon k0 = tget (fun _ => 0) b.aon k0 := by
  exact aonIs_of_rest (L := [.coh]) (rest_grantX (by decide) ..) (by decide) k0

theorem low_addSharer {k0 : Nat} (hk : k0 < 24) (b : Blk) (l part eid : Nat) :
    tget (fun _ => 0) (b.addSharer l part eid).aon k0 = tget (fun _ => 0) b.aon k0 := by
  exact aonIs_of_rest (L := [.coh]) (rest_addSharer (by decide) ..) (by decide) k0

theorem low_dirLookup {k0 : Nat} (hk : k0 < 24) (b : Blk) (l : Nat) :
    tget (fun _ => 0) (b.dirLookup l).aon k0 = tget (fun _ => 0) b.aon k0 := by
  unfold Blk.dirLookup
  dsimp only
  repeat' split
  all_goals simp (disch := omega) [low_incr hk, low_aonAdd hk, low_event hk, low_draw hk]

theorem low_snoopAll {k0 : Nat} (hk : k0 < 24) (b : Blk) (t : Txn) (k : SnpKind) (x0 : List Nat) :
    tget (fun _ => 0) ((b.snoopAll t k x0).1).aon k0 = tget (fun _ => 0) b.aon k0 := by
  exact aonIs_of_rest (L := [.regs, .pcs, .coh, .fab]) (rest_snoopAll (by decide) (by decide) (by decide) (by
      decide) ..) (by decide) k0

theorem low_serve {k0 : Nat} (hk : k0 < 24) (b : Blk) (t : Txn) (f : Blk → Blk) (hgo : ∀  x, tget (fun _ => 0) (f 
      x).aon k0 = tget (fun _ => 0) (x).aon k0) :
    tget (fun _ => 0) (b.serve t f).aon k0 = tget (fun _ => 0) b.aon k0 := by
  simp [Blk.serve, *]

theorem low_putTxn {k0 : Nat} (hk : k0 < 24) (b : Blk) (t : Txn) :
    tget (fun _ => 0) (b.putTxn t).aon k0 = tget (fun _ => 0) b.aon k0 := by
  exact aonIs_of_rest (L := [.coh]) (rest_putTxn (by decide) ..) (by decide) k0

theorem low_endTxn {k0 : Nat} (hk : k0 < 24) (b : Blk) (t : Txn) :
    tget (fun _ => 0) (b.endTxn t).aon k0 = tget (fun _ => 0) b.aon k0 := by
  exact aonIs_of_rest (L := [.coh]) (rest_endTxn (by decide) ..) (by decide) k0

theorem low_respond {k0 : Nat} (hk : k0 < 24) (b : Blk) (q ty src msgId traceId addr status : Nat) (far replay :
      Bool) (payload : Bytes) (poison : Bool) (cls part : Nat) :
    tget (fun _ => 0) ((b.respond q ty src msgId traceId addr status far replay payload poison cls part).2).aon k0 =
      tget (fun _ => 0) b.aon k0 := by
  exact aonIs_of_rest (L := [.regs, .fab]) (rest_respond (by decide) (by decide) ..) (by decide) k0

theorem low_land {k0 : Nat} (hk : k0 < 24) (b : Blk) (w : Who) (write : Bool) (l status : Nat) (bs : Bytes) (poison
      : Bool) :
    tget (fun _ => 0) (b.land w write l status bs poison).aon k0 = tget (fun _ => 0) b.aon k0 := by
  exact aonIs_of_rest (L := [.regs, .coh, .hub]) (rest_land (by decide) (by decide) (by decide) ..) (by decide) k0

theorem low_endJob {k0 : Nat} (hk : k0 < 24) (b : Blk) (id : Nat) (j : Job) :
    tget (fun _ => 0) (b.endJob id j).aon k0 = tget (fun _ => 0) b.aon k0 := by
  unfold Blk.endJob
  dsimp only
  repeat' split
  all_goals simp only [low_foldl, low_countRefusal hk, low_unbump hk, low_send hk, low_noteLoad hk, low_respond hk, *]

theorem low_jobLine {k0 : Nat} (hk : k0 < 24) (b : Blk) (id l status : Nat) (bs : Bytes) (poison : Bool) :
    tget (fun _ => 0) (b.jobLine id l status bs poison).aon k0 = tget (fun _ => 0) b.aon k0 := by
  unfold Blk.jobLine
  dsimp only
  repeat' split
  all_goals simp only [low_foldl, low_endJob hk, *]

theorem low_answerTxn {k0 : Nat} (hk : k0 < 24) (b : Blk) (t : Txn) (ty status : Nat) (bs : Bytes) (poison replay :
      Bool) :
    tget (fun _ => 0) (b.answerTxn t ty status bs poison replay).aon k0 = tget (fun _ => 0) b.aon k0 := by
  unfold Blk.answerTxn
  cases hj : t.job with
  | some id => simp [low_jobLine hk, *]
  | none => cases hw : t.who <;> simp [low_respond hk, low_land hk, *]

theorem low_mirrorWait {k0 : Nat} (hk : k0 < 24) (b : Blk) (t : Txn) (old : Bytes) :
    tget (fun _ => 0) ((b.mirrorWait t old).2).aon k0 = tget (fun _ => 0) b.aon k0 := by
  exact aonIs_of_rest (L := [.regs, .coh, .fab]) (rest_mirrorWait (by decide) (by decide) (by decide) ..) (by
      decide) k0

theorem low_freeRat {k0 : Nat} (hk : k0 < 24) (b : Blk) (t : Txn) (a : AtmOp) :
    tget (fun _ => 0) (b.freeRat t a).aon k0 = tget (fun _ => 0) b.aon k0 := by
  exact aonIs_of_rest (L := [.coh]) (rest_freeRat (by decide) ..) (by decide) k0

theorem low_uncount {k0 : Nat} (hk : k0 < 24) (b : Blk) (t : Txn) :
    tget (fun _ => 0) (b.uncount t).aon k0 = tget (fun _ => 0) b.aon k0 := by
  exact aonIs_of_rest (L := [.ext]) (rest_uncount (by decide) ..) (by decide) k0

theorem low_refuseTxn {k0 : Nat} (hk : k0 < 24) (b : Blk) (t : Txn) (status : Nat) :
    tget (fun _ => 0) (b.refuseTxn t status).aon k0 = tget (fun _ => 0) b.aon k0 := by
  unfold Blk.refuseTxn
  dsimp only
  repeat' split
  all_goals simp only [low_foldl, low_countRefusal hk, low_endTxn hk, low_answerTxn hk, low_freeRat hk, low_uncount
      hk, *]

theorem low_sendGrant {k0 : Nat} (hk : k0 < 24) (b : Blk) (t : Txn) (ty : Nat) (far : Bool) (bs : Bytes) (poison :
      Bool) :
    tget (fun _ => 0) (b.sendGrant t ty far bs poison).aon k0 = tget (fun _ => 0) b.aon k0 := by
  exact aonIs_of_rest (L := [.regs, .coh, .fab]) (rest_sendGrant (by decide) (by decide) (by decide) ..) (by decide)
      k0

theorem low_grantTxn {k0 : Nat} (hk : k0 < 24) (b : Blk) (t : Txn) :
    tget (fun _ => 0) (b.grantTxn t).aon k0 = tget (fun _ => 0) b.aon k0 := by
  unfold Blk.grantTxn
  dsimp only
  repeat' split
  all_goals simp only [low_foldl, low_incr hk, low_bumpMod hk, low_fetch hk, low_grantX hk, low_addSharer hk,
      low_endTxn hk, low_refuseTxn hk, low_sendGrant hk, *]

theorem low_execNear {k0 : Nat} (hk : k0 < 24) (b : Blk) (t : Txn) (a : AtmOp) :
    tget (fun _ => 0) (b.execNear t a).aon k0 = tget (fun _ => 0) b.aon k0 := by
  unfold Blk.execNear
  dsimp only
  repeat' split
  all_goals simp (disch := omega) [low_incr hk, low_aonAdd hk, low_writeLine hk, low_log hk, low_trace hk, low_fetch
      hk, low_endTxn hk, low_answerTxn hk, low_mirrorWait hk, low_uncount hk, low_refuseTxn hk]

theorem low_noteHeader {k0 : Nat} (hk : k0 < 24) (b : Blk) (l : Nat) :
    tget (fun _ => 0) (b.noteHeader l).aon k0 = tget (fun _ => 0) b.aon k0 := by
  exact aonIs_of_rest (L := [.pair]) (rest_noteHeader (by decide) ..) (by decide) k0

theorem low_finishTxn {k0 : Nat} (hk : k0 < 24) (b0 : Blk) (t : Txn) :
    tget (fun _ => 0) (b0.finishTxn t).aon k0 = tget (fun _ => 0) b0.aon k0 := by
  unfold Blk.finishTxn
  dsimp only
  repeat' split
  all_goals simp [low_foldl, low_foldl_fst, low_foldl_snd, apply_ite (fun x : Blk => tget (fun _ => 0) x.aon k0),
      low_writeMasked hk, low_fetch hk, low_dropHolder hk, low_serve hk, low_endTxn hk, low_answerTxn hk,
      low_mirrorWait hk, low_refuseTxn hk, low_grantTxn hk, low_execNear hk, low_noteHeader hk, *]

theorem low_advance {k0 : Nat} (hk : k0 < 24) (b0 : Blk) (t : Txn) :
    tget (fun _ => 0) (b0.advance t).aon k0 = tget (fun _ => 0) b0.aon k0 := by
  unfold Blk.advance
  dsimp only
  repeat' split
  all_goals simp [low_foldl, low_foldl_fst, low_foldl_snd, apply_ite (fun x : Blk => tget (fun _ => 0) x.aon k0),
      low_writeLine hk, low_mirrorSend hk, low_serve hk, low_putTxn hk, low_finishTxn hk, *]

theorem low_evictSnoop {k0 : Nat} (hk : k0 < 24) (b : Blk) (l : Nat) (e : DirEnt) :
    tget (fun _ => 0) ((b.evictSnoop l e).2).aon k0 = tget (fun _ => 0) b.aon k0 := by
  exact aonIs_of_rest (L := [.regs, .pcs, .coh, .fab]) (rest_evictSnoop (by decide) (by decide) (by decide) (by
      decide) ..) (by decide) k0

theorem low_evict {k0 : Nat} (hk : k0 < 24) (b : Blk) (l : Nat) :
    tget (fun _ => 0) ((b.evict l).2).aon k0 = tget (fun _ => 0) b.aon k0 := by
  unfold Blk.evict
  dsimp only
  repeat' split
  all_goals simp only [low_foldl, low_incr hk, low_event hk, low_poisonDead hk, low_evictSnoop hk, *]

theorem low_settleCount {k0 : Nat} (hk : k0 < 24) (b : Blk) (t : Txn) :
    tget (fun _ => 0) ((b.settleCount t).2).aon k0 = tget (fun _ => 0) b.aon k0 := by
  exact aonIs_of_rest (L := [.ext]) (rest_settleCount (by decide) ..) (by decide) k0

theorem low_runTxn {k0 : Nat} (hk : k0 < 24) (b0 : Blk) (t0 : Txn) :
    tget (fun _ => 0) (b0.runTxn t0).aon k0 = tget (fun _ => 0) b0.aon k0 := by
  unfold Blk.runTxn
  dsimp only
  repeat' split
  all_goals simp only [low_foldl, low_snoopAll hk, low_putTxn hk, low_advance hk, low_settleCount hk, *]

theorem low_uncountRds {k0 : Nat} (hk : k0 < 24) (b : Blk) (t : Txn) :
    tget (fun _ => 0) (b.uncountRds t).aon k0 = tget (fun _ => 0) b.aon k0 := by
  exact aonIs_of_rest (L := [.ext]) (rest_uncountRds (by decide) ..) (by decide) k0

theorem low_countRds {k0 : Nat} (hk : k0 < 24) (b : Blk) (t : Txn) :
    tget (fun _ => 0) ((b.countRds t).2).aon k0 = tget (fun _ => 0) b.aon k0 := by
  exact aonIs_of_rest (L := [.ext]) (rest_countRds (by decide) ..) (by decide) k0

theorem low_startTxn {k0 : Nat} (hk : k0 < 24) (b : Blk) (t0 : Txn) (again : Bool) :
    tget (fun _ => 0) (b.startTxn t0 again).aon k0 = tget (fun _ => 0) b.aon k0 := by
  unfold Blk.startTxn
  dsimp only
  repeat' split
  all_goals simp only [low_foldl, low_incr hk, low_poisonDead hk, low_touch hk, low_dirLookup hk, low_evict hk,
      low_runTxn hk, low_uncountRds hk, low_countRds hk, *]

theorem low_beginTxn {k0 : Nat} (hk : k0 < 24) (b : Blk) (t : Txn) :
    tget (fun _ => 0) (b.beginTxn t).aon k0 = tget (fun _ => 0) b.aon k0 := by
  unfold Blk.beginTxn
  dsimp only
  repeat' split
  all_goals simp only [low_foldl, low_countRds hk, low_startTxn hk, *]

theorem low_writeInt {k0 : Nat} (hk : k0 < 24) (b : Blk) (r : Requester) (l : Nat) (bs : Bytes) (mask : BitVec 128)
      (poison : Bool) :
    tget (fun _ => 0) ((b.writeInt r l bs mask poison).2).aon k0 = tget (fun _ => 0) b.aon k0 := by
  unfold Blk.writeInt
  dsimp only
  repeat' split
  all_goals simp only [low_foldl, low_bumpMod hk, low_countAccept hk, low_countRefusal hk, low_beginTxn hk, *]

theorem low_setRun {k0 : Nat} (hk : k0 < 24) (b : Blk) (k : Nat) (r : Run) :
    tget (fun _ => 0) (b.setRun k r).aon k0 = tget (fun _ => 0) b.aon k0 := by
  exact aonIs_of_rest (L := [.work]) (rest_setRun (by decide) ..) (by decide) k0

theorem low_consumePoison {k0 : Nat} (hk : k0 < 24) (b : Blk) (k : Nat) (r : Run) (line : Nat) :
    tget (fun _ => 0) (b.consumePoison k r line).aon k0 = tget (fun _ => 0) b.aon k0 := by
  simp [Blk.consumePoison, low_flag hk, low_aonAdd hk, low_log hk, low_trace hk, low_setRun hk, *]

theorem low_writeRes {k0 : Nat} (hk : k0 < 24) (b : Blk) (k : Nat) (r : Run) (l : Nat) (e : ResLine) :
    tget (fun _ => 0) ((b.writeRes k r l e).1).aon k0 = tget (fun _ => 0) b.aon k0 := by
  unfold Blk.writeRes
  dsimp only
  repeat' split
  all_goals simp only [low_foldl, low_event hk, low_writeInt hk, low_noteRefusal hk, *]

theorem low_flushRes {k0 : Nat} (hk : k0 < 24) (b : Blk) (k : Nat) (r : Run) (d : Desc) (all : Bool) :
    tget (fun _ => 0) ((b.flushRes k r d all).1).aon k0 = tget (fun _ => 0) b.aon k0 := by
  unfold Blk.flushRes
  dsimp only
  repeat' split
  all_goals simp [low_foldl, low_foldl_fst, low_foldl_snd, apply_ite (fun x : Blk => tget (fun _ => 0) x.aon k0),
      low_writeRes hk, *]


end Sys2Proof.Proofs
end

/-! ## Tillers issue, fold and end (R149 to R154, R166, R174, R210) -/
section
namespace Sys2Proof.Proofs

open Sys2Proof.Machine

/-! ### What the parts of a run keep -/

theorem run_foldl {α γ : Type} (P : Run → γ) {f : Run → α → Run} (h : ∀ r a, P (f r a) = P r) (as : List α) (r : Run) :
    P (as.foldl f r) = P r := by
  induction as generalizing r with
  | nil => rfl
  | cons a as ih => rw [List.foldl_cons, ih, h]

@[simp] theorem window_put (r : Run) (a : Nat) (bs : Bytes) (p : Bool) : (r.put a bs p).window = r.window := by
  unfold Run.put
  exact run_foldl Run.window (by intros; rfl) _ _

@[simp] theorem window_putVal (r : Run) (a : Nat) (f : Fmt) (v : Val) (n : Nat) : (r.putVal a f v n).window = r.window :=
  window_put ..

@[simp] theorem window_putVals (r : Run) (a : Nat) (f : Fmt) (vs : List Val) : (r.putVals a f vs).window = r.window :=
  run_foldl Run.window (fun _ _ => window_putVal ..) _ _

@[simp] theorem window_putRow (r : Run) (a : Nat) (f : Fmt) (vs : Row) : (r.putRow a f vs).window = r.window :=
  run_foldl Run.window (fun _ _ => window_putVal ..) _ _

@[simp] theorem window_putShared (r : Run) (a : Nat) (f : Fmt) (n : Nat) (c : Calc Row) : (r.putShared a f n c).window = r.window :=
  window_putRow ..

theorem window_emitDot (r : Run) (d : Desc) (x : Ix) : (r.emitDot d x).window = r.window := by
  unfold Run.emitDot
  exact run_foldl Run.window (by intros; exact window_putVals ..) _ _

theorem window_attendTok (r : Run) (d : Desc) (x : Ix) : (r.attendTok d x).window = r.window := by
  unfold Run.attendTok
  dsimp only
  split
  · exact run_foldl Run.window (by intros; rfl) _ _
  · refine (run_foldl Run.window (fun q h => ?_) _ _).trans (run_foldl Run.window (by intros; rfl) _ _)
    split
    · rfl
    · split <;> simp

theorem window_writeRes {b : Blk} {k : Nat} {r : Run} {l : Nat} {e : ResLine} (h : r.window = []) :
    (b.writeRes k r l e).2.window = [] := by
  unfold Blk.writeRes
  split
  · exact h
  · dsimp only
    split
    · rfl
    · exact h

theorem window_flushRes {b : Blk} {k : Nat} {r : Run} {d : Desc} {all : Bool} (h : r.window = []) :
    (b.flushRes k r d all).2.window = [] := by
  unfold Blk.flushRes
  dsimp only
  generalize r.res.filter _ = es
  induction es generalizing b r with
  | nil => exact h
  | cons e es ih => exact ih (window_writeRes h)

theorem flushRes_nil {b : Blk} {k : Nat} {r : Run} {d : Desc} {all : Bool} (h : r.res = []) : b.flushRes k r d all = (b, r) := by
  rw [Blk.flushRes, h]
  rfl

/-! ### The fold of the head entry (R153) -/

/-- What the fold of an entry counts and traces. -/
def foldCounted (b : Blk) (k : Nat) (r : Run) (d : Desc) (e : WinEnt) : Blk :=
  let n := (e.pairs.filter (·.esc)).length
  let b1 := (b.tick k 0 (d.entrySteps e) r.part).event k 7 (some r.part)
  let b2 := if n = 0 then b1 else
    ((b1.event k 8 (some r.part) n).aonAdd 223 n).count (Reg.tilEscCnt k) (e.pairs.filter (·.shadow.isSome)).length
  (List.range n).foldl (fun b _ => b.trace { source := 5, event := 1, part := r.part, unit := k, tag := r.tag, a := e.index }) b2

/-- The run with an entry's partials added to its accumulators. -/
def foldAdded (r : Run) (d : Desc) (e : WinEnt) (rest : List WinEnt) : Run :=
  e.pairs.foldl (fun r p => r.foldPair d p) { r with window := rest, tally := r.tally.addEntry e }

/-- The run with the outputs that an entry makes final. -/
def foldPut (r : Run) (d : Desc) (e : WinEnt) (rest : List WinEnt) : Run :=
  if !decide ((d.index e.index).b + 1 = d.k / 32) then foldAdded r d e rest
  else if d.kind = 2 then (foldAdded r d e rest).attendTok d (d.index e.index) else (foldAdded r d e rest).emitDot d (d.index e.index)

/-- The run once an entry has folded: the last one ends the task. -/
def foldEnd (q : Run) (d : Desc) (e : WinEnt) : Run :=
  if q.ended.isNone && decide (e.index + 1 = d.indices) then { q with ended := some (0, 0) } else q

theorem entryFold_folds {b : Blk} {k : Nat} {r : Run} {db : Bytes} {e : WinEnt} {rest : List WinEnt} (h : Runs b k r db)
    (hf : HeadFolds r (readDesc db) e rest) :
    entryFold b k = ((foldCounted b k r (readDesc db) e).flushRes k (foldPut r (readDesc db) e rest) (readDesc db) false).1.setRun k
      (foldEnd ((foldCounted b k r (readDesc db) e).flushRes k (foldPut r (readDesc db) e rest) (readDesc db) false).2 (readDesc db) e) := by
  have hgo : ¬ (b.halted || r.ended.isSome) = true := by simp [h.going, h.open_]
  have hready : ¬ e.wait = true := by simp [hf.ready]
  have hres := hf.resolved
  unfold entryFold
  rw [h.run]
  dsimp -zeta only
  rw [h.desc, hf.head]
  dsimp -zeta only
  extract_lets d awn lost quit x n b1 b2 b3 r1 last r2 y q r3
  rw [if_neg hgo, if_neg hready]
  rw [hf.goes]
  dsimp -zeta only
  rw [if_neg (by rw [hres]; decide), hf.sound]
  dsimp -zeta only
  have hb : b3 = foldCounted b k r (readDesc db) e := rfl
  have hr1 : r1 = foldAdded r (readDesc db) e rest := by
    simp only [r1, foldAdded, h.desc, d]
  have hr : r2 = foldPut r (readDesc db) e rest := by
    rw [foldPut, ← hr1]
  have hy : y = (foldCounted b k r (readDesc db) e).flushRes k (foldPut r (readDesc db) e rest) (readDesc db) false := by
    rw [← hb, ← hr]
  have hr3 : r3 = foldEnd y.2 (readDesc db) e := rfl
  rw [hr3, hy]

theorem window_foldAdded (r : Run) (d : Desc) (e : WinEnt) (rest : List WinEnt) : (foldAdded r d e rest).window = rest := by
  unfold foldAdded
  exact run_foldl Run.window (by intros; rfl) _ _

theorem window_foldPut (r : Run) (d : Desc) (e : WinEnt) (rest : List WinEnt) : (foldPut r d e rest).window = rest := by
  unfold foldPut
  split
  · exact window_foldAdded ..
  · split
    · exact (window_attendTok ..).trans (window_foldAdded ..)
    · exact (window_emitDot ..).trans (window_foldAdded ..)

theorem window_foldEnd (q : Run) (d : Desc) (e : WinEnt) : (foldEnd q d e).window = q.window := by
  unfold foldEnd
  split <;> rfl

theorem foldEnd_last {q : Run} {d : Desc} {e : WinEnt} (h : e.index + 1 = d.indices) : (foldEnd q d e).ended.isSome = true := by
  unfold foldEnd
  rw [decide_eq_true h, Bool.and_true]
  split
  · rfl
  · cases hq : q.ended with
    | none => simp_all
    | some _ => rfl

theorem foldEnd_on {q : Run} {d : Desc} {e : WinEnt} (h : e.index + 1 ≠ d.indices) : foldEnd q d e = q := by
  rw [foldEnd, decide_eq_false h, Bool.and_false]
  rfl

/-- The always-on counter of a Tiller takes the T-steps of the entry (R421, R425). -/
theorem aon_foldCounted {k : Nat} (hk : k < 24) (b : Blk) (r : Run) (d : Desc) (e : WinEnt) :
    tget (fun _ => 0) (foldCounted b k r d e).aon k = min (tget (fun _ => 0) b.aon k + d.entrySteps e) (2 ^ 64 - 1) := by
  have htick : tget (fun _ => 0) ((b.tick k 0 (d.entrySteps e) r.part).event k 7 (some r.part)).aon k =
      min (tget (fun _ => 0) b.aon k + d.entrySteps e) (2 ^ 64 - 1) := by
    rw [low_event hk]
    simp only [Blk.tick, if_true, Blk.aonAdd, tget_tmod_self]
    rw [low_event hk]
  unfold foldCounted
  dsimp only
  rw [low_foldl (fun x _ => low_trace hk x _)]
  split
  · exact htick
  · rw [aonIs_of_rest (rest_count (L := [.regs]) (by decide) ..) (by decide), low_aonAdd hk _ _ _ (by decide), low_event hk, htick]

theorem aon_entryFold {b : Blk} {k : Nat} {r : Run} {db : Bytes} {e : WinEnt} {rest : List WinEnt} (hk : k < 24) (h : Runs b k r db)
    (hf : HeadFolds r (readDesc db) e rest) :
    tget (fun _ => 0) (entryFold b k).aon k = min (tget (fun _ => 0) b.aon k + (readDesc db).entrySteps e) (2 ^ 64 - 1) := by
  rw [entryFold_folds h hf, aonIs_of_rest (rest_setRun (L := [.work]) (by decide) ..) (by decide), low_flushRes hk, aon_foldCounted hk]

theorem til_entryFold {b : Blk} {k : Nat} {r : Run} {db : Bytes} {e : WinEnt} (h : Runs b k r db)
    (hf : HeadFolds r (readDesc db) e []) (hlast : e.index + 1 = (readDesc db).indices) :
    ∃ r3, ((entryFold b k).til k).run = some r3 ∧ r3.window = [] ∧ r3.ended.isSome = true := by
  rw [entryFold_folds h hf, til_setRun_self]
  exact ⟨_, rfl, (window_foldEnd ..).trans (window_flushRes (window_foldPut ..)), foldEnd_last hlast⟩

/-- A task that has ended is not carried on. -/
theorem dotGo_ended (f : Nat) {k : Nat} {b : Blk} {r : Run} (hr : (b.til k).run = some r) (he : r.ended.isSome = true) :
    dotGo f k b = b := by
  cases f with
  | zero => rfl
  | succ f =>
    rw [dotGo, hr]
    dsimp only
    rw [if_pos he]

/-- A dot-product task whose head entry ends it makes that fold alone. -/
theorem dotTask_folds {b : Blk} {k : Nat} {r : Run} {db : Bytes} {e : WinEnt} (h : Runs b k r db)
    (hf : HeadFolds r (readDesc db) e []) (hlast : e.index + 1 = (readDesc db).indices) : dotTask b k r.kind = entryFold b k := by
  obtain ⟨r3, hr3, -, he3⟩ := til_entryFold h hf hlast
  unfold dotTask
  rw [h.run]
  dsimp only
  rw [h.desc]
  dsimp only
  rw [if_pos (by simp [h.going]), dotGo, h.run]
  dsimp only
  rw [if_neg (by simp [h.open_]), hf.head]
  dsimp only
  have hhead : (!e.wait) = true := by rw [hf.ready]; rfl
  rw [if_pos hhead, dotGo_ended _ hr3 he3, ite_self]

theorem lastFold_counts {s : State} {k : TillerIx} {i : Instr} {r : Run} {db : Bytes} {e : WinEnt}
    (hi : i = .entryFold k ∨ (i, r.kind) ∈ [(Instr.matvec k, 0x0), (Instr.matmul k, 0x1), (Instr.attend k, 0x2)])
    (h : Runs s.blk k r db) (hf : HeadFolds r (readDesc db) e []) (hlast : e.index + 1 = (readDesc db).indices) :
    Does i s (fun t => tget (fun _ => 0) t.blk.aon k = min (tget (fun _ => 0) s.blk.aon k + (readDesc db).entrySteps e) (2 ^ 64 - 1) ∧
      ∃ r3, (t.blk.til k).run = some r3 ∧ r3.window = [] ∧ r3.ended.isSome = true) := by
  have hup := up_of_halted h.going
  have hdone := And.intro (aon_entryFold k.isLt h hf) (til_entryFold h hf hlast)
  obtain rfl | hi := hi
  · exact does_of_live (f := fun b => entryFold b k) rfl hup hdone
  · have hex : exec i s = live (fun b => dotTask b k r.kind) s := by
      simp only [List.mem_cons, Prod.mk.injEq, List.not_mem_nil, or_false] at hi
      obtain ⟨rfl, hk⟩ | ⟨rfl, hk⟩ | ⟨rfl, hk⟩ := hi <;> rw [hk] <;> rfl
    refine does_of_live hex hup ?_
    dsimp only
    rw [dotTask_folds h hf hlast]
    exact hdone

/-- What a pair adds to its accumulator: its shadow partial where it has one (R140). -/
def pairValue (p : DotPair) : Word := p.shadow.elim p.part Prod.fst

theorem fold_adds {s : State} {k : TillerIx} {r : Run} {db : Bytes} {e : WinEnt} {rest : List WinEnt} {p : DotPair} {a : Word}
    (h : Runs s.blk k r db) (hf : HeadFolds r (readDesc db) e rest) (hmid : ((readDesc db).index e.index).b + 1 ≠ (readDesc db).k / 32)
    (hon : e.index + 1 ≠ (readDesc db).indices) (hp : e.pairs = [p]) (hacc : mget r.acc p.out = some a) (hres : r.res = []) :
    ((entryFold s.blk k).til k).run = some (foldAdded r (readDesc db) e rest) ∧ (foldAdded r (readDesc db) e rest).ended = none ∧
      (foldAdded r (readDesc db) e rest).acc =
        mput r.acc p.out (accumulate a (pairValue p)).1 := by
  have hadd : foldAdded r (readDesc db) e rest =
      ({ r with window := rest, tally := r.tally.addEntry e } : Run).foldPair (readDesc db) p := by
    rw [foldAdded, hp]
    rfl
  have hput : foldPut r (readDesc db) e rest = foldAdded r (readDesc db) e rest := by
    rw [foldPut, decide_eq_false hmid]
    rfl
  have hnone : (foldAdded r (readDesc db) e rest).res = [] := by
    rw [hadd]
    exact hres
  refine ⟨?_, ?_, ?_⟩
  · rw [entryFold_folds h hf, hput, flushRes_nil hnone, til_setRun_self]
    dsimp only
    rw [foldEnd_on hon]
  · rw [hadd]
    exact h.open_
  · rw [hadd, Run.foldPair]
    dsimp only
    rw [hacc, pairValue]
    cases p.shadow <;> rfl

end Sys2Proof.Proofs
end

/-! ## Tillers take lines and end their tasks (R149, R152, R166, R174, R210) -/
section
namespace Sys2Proof.Proofs

open Sys2Proof.Machine

/-! ### An entry that ends its task -/

theorem entryFold_stops {b : Blk} {k : Nat} {r : Run} {db : Bytes} {e : WinEnt} {rest : List WinEnt} {st : Nat × Nat} (h : Runs b k r db)
    (hw : r.window = e :: rest) (hready : e.wait = false) (hst : e.stop = some st) :
    entryFold b k = (b.setRun k (r.stop st.1 st.2)).tick k 1 ((r.window.map (readDesc db).entrySteps).sum) r.part := by
  unfold entryFold
  rw [h.run]
  dsimp -zeta only
  rw [h.desc, hw]
  dsimp -zeta only
  extract_lets
  rw [if_neg (by simp [h.going, h.open_]), if_neg (by simp [hready]), hst]

theorem entryFold_unresolved {b : Blk} {k : Nat} {r : Run} {db : Bytes} {e : WinEnt} {rest : List WinEnt} {w : Awn} (h : Runs b k r db)
    (hw : r.window = e :: rest) (hready : e.wait = false) (hst : e.stop = none)
    (hawn : readAwn (readDesc db).awn (fmtAt (readDesc db).fa) = some w) (hfail : w.fail = true)
    (hun : e.pairs.any (fun p => p.esc && p.shadow.isNone) = true) :
    entryFold b k = (b.setRun k (r.stop 0x41 0)).tick k 1 ((r.window.map (readDesc db).entrySteps).sum) r.part := by
  unfold entryFold
  rw [h.run]
  dsimp -zeta only
  rw [h.desc, hw]
  dsimp -zeta only
  extract_lets d awn
  have hq : awn.fail = true := by simp only [awn, d, hawn, Option.getD_some, hfail]
  rw [if_neg (by simp [h.going, h.open_]), if_neg (by simp [hready]), hst]
  dsimp -zeta only
  rw [if_pos (by rw [hq, hun]; rfl)]

theorem ended_stop {r : Run} (h : r.ended = none) (st a : Nat) : (r.stop st a).ended = some (st, a) := by
  rw [Run.stop, h]
  rfl

theorem run_ticked (b : Blk) (k cls n part : Nat) (q : Run) : (((b.setRun k q).tick k cls n part).til k).run = some q := by
  rw [til_tick, til_setRun_self]

/-! ### Lines for the local store -/

theorem window_loadLine (b : Blk) (k : Nat) (r : Run) (l : Nat) : (b.loadLine k r l).2.window = r.window := by
  unfold Blk.loadLine
  split
  · rfl
  · dsimp only
    split <;> split <;> rfl

theorem window_loadLines (b : Blk) (k : Nat) (r : Run) (ls : List Nat) : (b.loadLines k r ls).2.window = r.window := by
  unfold Blk.loadLines
  induction ls generalizing b r with
  | nil => rfl
  | cons l ls ih => exact (ih ..).trans (window_loadLine ..)

theorem blockIssue_enters {b : Blk} {k : Nat} {r : Run} {db : Bytes} (h : Runs b k r db) (hkind : r.kind ≤ 2)
    (hroom : r.window.length < 64) (hmore : r.next < (readDesc db).indices)
    (hall : r.hasAll (b.entryLines (readDesc db) r.store r.next).1 = true) :
    ∃ r3 e, ((blockIssue b k).til k).run = some r3 ∧ r3.next = r.next + 1 ∧ r3.window = r.window ++ [e] ∧ e.index = r.next ∧
      e.lines = (b.entryLines (readDesc db) r.store r.next).1 := by
  have hgo : ¬ (b.halted || r.ended.isSome || decide (2 < r.kind) || decide (64 ≤ r.window.length) ||
      decide ((readDesc db).indices ≤ r.next)) = true := by
    simp only [h.going, h.open_, Option.isSome_none, Bool.false_or, Bool.or_eq_true, decide_eq_true_eq]
    omega
  unfold blockIssue
  rw [h.run]
  dsimp -zeta only
  rw [h.desc]
  dsimp -zeta only
  extract_lets d l1 x1 l2 x r2 stop short ps e y
  have hx1 : x1 = (b, r) := loadLines_of_have b hall
  have hl2 : l2 = b.entryLines (readDesc db) r.store r.next := by simp only [l2, hx1, d]
  have hx : x = (b, r) := by
    simp only [x, hx1, hl2]
    exact loadLines_of_have b hall
  have hr2 : r2 = r := congrArg Prod.snd hx
  rw [if_neg hgo, if_neg (by rw [hr2, hl2, hall]; decide), til_setRun_self]
  have hw : y.2.window = r.window := by
    show (if e.wait then _ else _ : Blk × Run).2.window = _
    split
    · rw [window_loadLines, hr2]
    · exact congrArg Run.window hr2
  exact ⟨_, e, rfl, rfl, by rw [← hw], rfl, congrArg Prod.fst hl2⟩

/-- A read of a Tiller whose only landed line is the one it reads takes it. -/
theorem readInt_landed {b : Blk} {k l : Nat} {x : Landed} (r : Run) (hl : b.coh.landed = [x])
    (hmine : (x.who == .tiller k && !x.write && x.line == l) = true) :
    b.readInt (tilReq k r) l =
      (if x.status = 0 then .ok x.bytes x.poison else .refused x.status, { b with coh.landed := [] }) := by
  have htake : b.takeLanded (.tiller k) l = (some x, { b with coh.landed := [] }) := by
    unfold Blk.takeLanded
    rw [hl]
    simp only [List.find?_cons, hmine, List.filter_cons, Bool.not_true, Bool.false_eq_true, if_false, List.filter_nil]
  unfold Blk.readInt
  simp only [tilReq, htake]
  split <;> rfl

theorem loadLine_landed {b : Blk} {k l : Nat} {r : Run} {x : Landed} (hnew : mget r.store l = none) (hl : b.coh.landed = [x])
    (hmine : (x.who == .tiller k && !x.write && x.line == l) = true) :
    (b.loadLine k r l).1.coh.landed = [] ∧
      mget (b.loadLine k r l).2.store l = some (if x.status = 0 then ⟨0, x.bytes, x.poison⟩ else ⟨x.status, [], false⟩) := by
  have hmhas : ¬ mhas r.store l = true := by simp [mhas, hnew]
  have hreading : b.reading (.tiller k) l = true := by
    rw [Blk.reading, hl, List.any_cons, hmine, Bool.true_or, Bool.or_true]
  unfold Blk.loadLine
  rw [if_neg hmhas, hreading, readInt_landed r hl hmine]
  dsimp only
  by_cases hs : x.status = 0
  · rw [if_pos hs, if_pos hs]
    dsimp only
    rw [coh_of_rest (rest_event (L := [.pcs]) (by decide) ..) (by decide), mget_mput_self]
    exact ⟨rfl, rfl⟩
  · rw [if_neg hs, if_neg hs]
    dsimp only
    rw [coh_of_rest (rest_noteRefusal (L := [.regs]) (by decide) ..) (by decide), mget_mput_self]
    exact ⟨rfl, rfl⟩

theorem operandLineArrive_takes {b : Blk} {k a : Nat} {r : Run} {x : Landed} (hup : b.dead = false) (hr : (b.til k).run = some r)
    (hopen : r.ended = none) (hnew : mget r.store (lineOf a) = none) (hl : b.coh.landed = [x]) (hwho : x.who = .tiller k)
    (hread : x.write = false) (hline : x.line = lineOf a) :
    (operandLineArrive b k a).coh.landed = [] ∧ ∃ r3, ((operandLineArrive b k a).til k).run = some r3 ∧
      mget r3.store (lineOf a) = some (if x.status = 0 then ⟨0, x.bytes, x.poison⟩ else ⟨x.status, [], false⟩) := by
  have hmine : (x.who == .tiller k && !x.write && x.line == lineOf a) = true := by simp [hwho, hread, hline]
  have hany : b.coh.landed.any (fun x => x.who == .tiller k && !x.write && x.line == lineOf a) = true := by
    rw [hl, List.any_cons, hmine, Bool.true_or]
  obtain ⟨hland, hstore⟩ := loadLine_landed hnew hl hmine
  unfold operandLineArrive
  rw [hr]
  dsimp only
  rw [if_neg (by rw [hup, hopen, hany]; decide), til_setRun_self]
  exact ⟨(congrArg Coh.landed (coh_of_rest (rest_setRun (L := [.work]) (by decide) ..) (by decide))).trans hland, _, rfl, hstore⟩

theorem resolve_shadows {d : Desc} {s : Map StoreLine} {e : WinEnt} {p : DotPair} (hp : p ∈ (d.resolve s e).pairs) (hesc : p.esc = true) :
    p.shadow.isSome = true := by
  simp only [Desc.resolve, List.mem_map] at hp
  obtain ⟨q, -, rfl⟩ := hp
  split at hesc
  · rename_i hq
    rw [if_pos hq]
    rfl
  · contradiction

theorem shadowBlockArrive_resolves {b : Blk} {k : Nat} {r : Run} {db : Bytes} {e : WinEnt} (h : Runs b k r db) (hw : r.window = [e])
    (hwait : e.wait = true) (hall : r.hasAll ((readDesc db).shadowLines e) = true)
    (hsound : r.refused ((readDesc db).shadowLines e) = none) :
    ∃ r3 e3, ((shadowBlockArrive b k).til k).run = some r3 ∧ r3.window = [e3] ∧ e3.wait = false ∧
      (∀ p ∈ e3.pairs, p.esc = true → p.shadow.isSome = true) := by
  have hfind : r.window.find? (·.wait) = some e := by rw [hw, List.find?_cons_of_pos hwait]
  unfold shadowBlockArrive
  rw [h.run]
  dsimp only
  rw [h.desc, hfind]
  dsimp only
  rw [if_neg (by simp [h.going, h.open_]), loadLines_of_have b hall]
  dsimp only
  rw [if_neg (by rw [hall]; decide), hsound, til_setRun_self, hw]
  refine ⟨_, { (readDesc db).resolve r.store e with lines := (e.lines ++ (readDesc db).shadowLines e).dedup }, rfl, ?_, rfl,
    fun p hp hesc => resolve_shadows hp hesc⟩
  simp only [List.map_cons, List.map_nil, if_true]

/-! ### The end of a task -/

theorem resultWriteRefused_takes {b : Blk} {k a : Nat} {r : Run} {x : Landed} (hr : (b.til k).run = some r) (hrec : r.recSent = false)
    (hended : r.ended = some (0, a)) (hl : b.coh.landed = [x]) (hwho : x.who = .tiller k) (hwrite : x.write = true) :
    resultWriteRefused b k =
      ((({ b with coh.landed := [] } : Blk).setRun k (r.unwrite x.line)).noteRefusal k x.status).setRun k
        { r.unwrite x.line with ended := some (x.status, x.line * 128) } := by
  have hmine : (x.who == .tiller k && x.write) = true := by simp [hwho, hwrite]
  have hbad : b.badWrite (.tiller k) = some x := by
    rw [Blk.badWrite, hl]
    exact List.find?_cons_of_pos (p := fun y : Landed => y.who == .tiller k && y.write) hmine
  have hkeep : (r.unwrite x.line).ended = some (0, a) := hended
  unfold resultWriteRefused
  rw [hr, hbad, hl]
  simp only [List.filter_cons, hmine, Bool.not_true, Bool.false_eq_true, if_false, if_true, List.filter_nil, List.foldl_cons,
    List.foldl_nil, hrec, hkeep]

theorem resultWriteRefused_idle {b : Blk} {k : Nat} (h : b.badWrite (.tiller k) = none) : resultWriteRefused b k = b := by
  unfold resultWriteRefused
  rw [h]
  split
  · contradiction
  · rfl

theorem tillerTaskEnd_frees {b : Blk} {k st a : Nat} {r : Run} (hgo : b.halted = false) (hr : (b.til k).run = some r)
    (hended : r.ended = some (st, a)) (hp : b.pendingInt (.tiller k) = false) (hb : b.badWrite (.tiller k) = none)
    (hrec : r.recSent = false) (hsafe : ((b.task r.slot r.task).map (fun x => (readDesc x.desc).safe)).getD false = false) :
    tillerTaskEnd b k = b.freeTiller k r st a := by
  have hns : ((((b.task r.slot r.task).map (·.desc)).map readDesc).map (·.safe)).getD false = false := by
    rw [Option.map_map, Option.map_map]
    exact hsafe
  unfold tillerTaskEnd
  rw [hr]
  dsimp only
  rw [hended]
  dsimp only
  rw [if_neg (by rw [hgo, hp]; decide), hrec, if_neg (by decide), resultWriteRefused_idle hb, hr]
  dsimp only
  rw [hended]
  dsimp only
  rw [hns, hrec]
  rfl

theorem freeTiller_ends (b : Blk) (k : Nat) (r : Run) (st a : Nat) :
    rest [.coh, .work, .regs] (b.freeTiller k r st a) = rest [.coh, .work, .regs] b ∧ ((b.freeTiller k r st a).til k).run = none ∧
      ((b.freeTiller k r st a).thr (r.slot / 64)).ends = (b.thr (r.slot / 64)).ends ++
        [{ slot := r.slot, task := r.task, status := st, failAddr := a, tally := r.tally, at_ := b.tb }] := by
  have hkeep : ∃ c : Blk, (∀ L : List Region, .coh ∈ L → .regs ∈ L → rest L c = rest L b) ∧ b.freeTiller k r st a =
      (c.modTil k (fun t => { t with run := none })).modThr (r.slot / 64)
        (fun t => { t with ends := t.ends ++ [{ slot := r.slot, task := r.task, status := st, failAddr := a, tally := r.tally, at_ := b.tb }] }) := by
    refine ⟨_, fun L hcoh hregs => ?_, rfl⟩
    split
    · rw [rest_flag hregs, rest_incr hregs, rest_dropLanded hcoh]
    · rw [rest_incr hregs, rest_dropLanded hcoh]
  obtain ⟨c, hc, heq⟩ := hkeep
  have hwork : c.work = b.work := work_of_rest (hc [.coh, .regs] (by decide) (by decide)) (by decide)
  rw [heq]
  refine ⟨?_, ?_, ?_⟩
  · rw [rest_modThr (by decide), rest_modTil (by decide)]
    exact hc _ (by decide) (by decide)
  · exact congrArg Tiller.run (til_modTil_self c k (fun t => { t with run := none }))
  · have hthr : (c.modTil k (fun t => { t with run := none })).thr (r.slot / 64) = b.thr (r.slot / 64) := by
      rw [Blk.thr, thr_modTil, hwork, Blk.thr]
    rw [thr_modThr_self, hthr]

/-- Settles O38: each clause is one equation of the Tillers' operations; what a fold counts on the pool's side leaves its own always-on
counter as it is. -/
theorem tillersIssueFoldAndEnd : Obligations.TillersIssueFoldAndEnd := by
  unfold Obligations.TillersIssueFoldAndEnd
  refine ⟨fun s k i r db e hi h hf hlast => lastFold_counts hi h hf hlast, ?_, ?_, ?_, ?_, ?_, ?_, ?_, ?_⟩
  · intro s k r db e rest p a h hf hmid hon hp hacc hres
    obtain ⟨hrun, hopen, hput⟩ := fold_adds h hf hmid hon hp hacc hres
    refine does_of_live (f := fun b => entryFold b k) rfl (up_of_halted h.going)
      ⟨_, hrun, window_foldAdded .., hopen, ?_, fun o ho => ?_⟩
    · rw [hput, mget_mput_self, pairValue]
      cases p.shadow <;> rfl
    · rw [hput, mget_mput_ne _ _ _ _ ho]
  · intro s k r db e rest st h hw hready hst
    refine does_of_live (f := fun b => entryFold b k) rfl (up_of_halted h.going) ?_
    dsimp only
    rw [entryFold_stops h hw hready hst]
    exact ⟨_, run_ticked .., ended_stop h.open_ .., rfl, rfl⟩
  · intro s k r db e rest w h hw hready hst hawn hfail hun
    refine does_of_live (f := fun b => entryFold b k) rfl (up_of_halted h.going) ?_
    dsimp only
    rw [entryFold_unresolved h hw hready hst hawn hfail hun]
    exact ⟨_, run_ticked .., ended_stop h.open_ ..⟩
  · intro s k r db h hkind hroom hmore hall
    exact does_of_live (f := fun b => blockIssue b k) rfl (up_of_halted h.going) (blockIssue_enters h hkind hroom hmore hall)
  · intro s k a r x hup hr hopen hnew hl hwho hread hline
    exact does_of_live (f := fun b => operandLineArrive b k a.toNat) rfl hup (operandLineArrive_takes hup hr hopen hnew hl hwho hread hline)
  · intro s k r db e h hw hwait hall hsound
    exact does_of_live (f := fun b => shadowBlockArrive b k) rfl (up_of_halted h.going)
      (shadowBlockArrive_resolves h hw hwait hall hsound)
  · intro s k r x a hup hr hrec hended hl hwho hwrite
    refine does_of_live (f := fun b => resultWriteRefused b k) rfl hup ?_
    dsimp only
    rw [resultWriteRefused_takes hr hrec hended hl hwho hwrite]
    refine ⟨only_of_blk (onlyBlk_of_rest ?_), ?_, ?_⟩
    · rw [rest_setRun (by decide), rest_noteRefusal (by decide), rest_setRun (by decide)]
      exact rest_with_coh (by decide) ..
    · rw [coh_of_rest (rest_setRun (L := [.work]) (by decide) ..) (by decide),
        coh_of_rest (rest_noteRefusal (L := [.regs]) (by decide) ..) (by decide)]
      rfl
    · exact congrArg Tiller.run (til_setRun_self ..)
  · intro s k r st a hgo hr hended hmove hp hb hrec hsafe
    have hup := up_of_halted hgo
    obtain ⟨hframe, hfree, hends⟩ := freeTiller_ends s.blk k r st a
    have hidle : taskEndRow s.blk k = s.blk.freeTiller k r st a := by
      have hpwr : (s.blk.freeTiller k r st a).pwr.move = none := by
        rw [pwr_of_rest hframe (by decide)]
        exact hmove
      rw [taskEndRow, tillerTaskEnd_frees hgo hr hended hp hb hrec hsafe, Blk.powerDrainDone, hpwr]
    refine does_of_live (f := fun b => taskEndRow b k) rfl hup ?_
    dsimp only
    rw [hidle]
    exact ⟨only_of_blk (onlyBlk_of_rest hframe), hfree, hends⟩

end Sys2Proof.Proofs
end
